-- ==== Sys2Proof/Word.lean ====
section
/-!
DEFINITION. The word and byte types of the management space and the stores (R10, R8).
-/
namespace Sys2Proof

/-- A 32-bit management register or a little-endian 32-bit word (R10). -/
abbrev Word := BitVec 32

/-- One byte of the Creel, the DRAM or the flash. -/
abbrev Byte := BitVec 8

end Sys2Proof
end

