-- ==== Sys2Proof/OperandTypes.lean ====
section
/-!
DEFINITION. The operands of commands: instance indices and what a command's cause brings with it.
-/
namespace Sys2Proof

abbrev Station := Fin 16
abbrev Lane := Fin 18
abbrev Port := Fin 2
abbrev Base := Fin 4
abbrev Camera := Fin 4
abbrev Plane := Fin 8
abbrev Axis := Fin 8
abbrev PinChannel := Fin 8
abbrev Bobbin := Fin 128
abbrev Slot := Fin 3
abbrev Channel := Fin 2
abbrev KeySlot := Fin 16

/-- The management paths (R45). -/
inductive Path where
  | chain | hostSpi | jtag
deriving DecidableEq, Repr

/-- What a scrub read of the Creel finds (R416): the bank and the 64-bit group of the word, or the secure partition. -/
inductive ScrubResult where
  | clean
  | corrected (bank : Fin 64) (group : Fin 4)
  | uncorrectable (bank : Fin 64) (group : Fin 4)
  | partitionUncorrectable
deriving DecidableEq, Repr

/-- The part of the DRAM that a read meets (R440): a pick stream's next burst, a layer list, the thermal map, other. -/
inductive DramArea where
  | pickStream (station : Station)
  | layerList (slot : Slot)
  | thermalMap
  | other
deriving DecidableEq, Repr

/-- A PTP message as a port handles it (R492, R494). -/
inductive PtpKind where
  | sync | syncTwoStep | followUp | delayReq | other
deriving DecidableEq, Repr

/-- What triggers Doff (R617): DOFF_N taken low, a write of DOF_CMD, a fault that matches. -/
inductive DoffTrigger where
  | pin
  | command (w : Word)
  | fault
deriving DecidableEq, Repr

/-- Supply rails whose loss has an effect that the spec gives (R562, R662, R680, R681). -/
inductive Rail where
  | vddAon | vppFuse | vddio33 | other
deriving DecidableEq, Repr

end Sys2Proof
end

