-- ==== Sys2Proof/Syntax.lean ====
section
/-!
DEFINITION. The commands: one constructor for each row of the spec's table of operations and events.
-/
namespace Sys2Proof

/-- A command the block takes. An operand is what the command's cause brings with it: the address and data of an access,
the bytes of a frame or slot, the reading of a sensor, the outcome of a training or of a check outside the device. -/
inductive Instr where
  /-- PORST_RELEASE (R510): Release of PORST_N starts the start-up stages: AON oscillator, fuse read, life-cycle fixing and the strap sampling timer. -/
  | porstRelease
  /-- STRAP_SAMPLE (R652): 1 µs after PORST_N release the straps CHAIN_HEAD, BOARD_ID and TESTMODE are sampled into DEV_STRAPS. -/
  | strapSample (pins : Word)
  /-- CLOCKS_LOCKED (R510): The fabric, station lane and chain lane PLLs lock, so FAB, MCH and XSPI start and the IMAGE stage begins. -/
  | clocksLocked (slow : Bool) (flashBytes : Nat)
  /-- IMAGE_VERIFY_DONE (R520): The verify pass over an image candidate completes, and the candidate is accepted for apply or rejected with a DEV_IMG_FAIL code. -/
  | imageVerifyDone (readGood : Bool)
  /-- IMAGE_APPLY_DONE (R520): The phase-0 apply pass completes, or on a CRC or digest mismatch the device makes a soft reset. -/
  | imageApplyDone (readGood : Bool)
  /-- DRAM_TRAIN_STEP_DONE (R443): A DRAM training step completes and the next step starts, training ends with TRAINED, or training fails. -/
  | dramTrainStepDone (passed : Bool) (osc : List Word)
  /-- SOFT_RESET (R526): A DEV_RESET write with KEY 0x5A17 acts as PORST_N on everything except the AON domain and DEV_RESET_CAUSE. -/
  | softReset (w : Word)
  /-- LC_CMD (R513): A DEV_LC_CMD write with the right KEY and a permitted TARGET programs the life-cycle fuses and wipes the secure partition. -/
  | lcCmd (w : Word) (vpp : Bool)
  /-- LC_PROGRAMMED (R513): Life-cycle programming completes within 10 ms, updates DEV_LC.PROGRAMMED and raises E8. -/
  | lcProgrammed
  /-- FUSE_KEY_HASH (R514): DEV_FUSE_CMD with OP 1 programs KEY_HASH from DEV_FUSE_DATA0 to DATA11. -/
  | fuseKeyHash (w : Word) (vpp : Bool)
  /-- FUSE_KEK (R514): DEV_FUSE_CMD with OP 2 programs the key-encryption key from DEV_FUSE_DATA0 to DATA7. -/
  | fuseKek (w : Word) (vpp : Bool)
  /-- FUSE_EPOCH (R514): DEV_FUSE_CMD with OP 3 raises the fused EPOCH to that of the image in force. -/
  | fuseEpoch (w : Word) (vpp : Bool)
  /-- FUSE_DONE (R514): Fuse programming completes, DEV_FUSE_STAT.RESULT is set, the DATA registers are cleared and E12 is raised. -/
  | fuseDone (programmed : Bool)
  /-- UPD_CHECK (R525): The CHECK command verifies the update image in the Creel by the verify pass of R520. -/
  | updCheck
  /-- UPD_CHECKED (R525): The verification of an update image completes: CHECKED with E4 on success, or a RESULT with E7 on failure. -/
  | updChecked
  /-- UPD_PROGRAM (R525): The PROGRAM command erases and programs the slot that is not in force, waiting while flash writes are held. -/
  | updProgram
  /-- UPD_PROGRAMMED (R525): Programming and read-back of the update slot complete, setting PROGRAMMED and raising E5, or failing with E7. -/
  | updProgrammed (good : Bool)
  /-- UPD_ACTIVATE (R525): The ACTIVATE command verifies the programmed slot from flash, stores its SHA-384 and STAGED_OK, and enters PENDING. -/
  | updActivate
  /-- UPD_CANCEL (R525): The CANCEL command returns the update state to IDLE. -/
  | updCancel
  /-- UPDATE_APPLY (R526): A pending image falls due and is checked and applied in two passes, or refused with UPD_REFUSED. -/
  | updateApply (readGood : Bool)
  /-- UPD_APPLIED (R526): The apply of a pending image completes, its slot comes into force and E6 is raised. -/
  | updApplied (readGood : Bool)
  /-- AUTH_RECHECK_DONE (R528): After a wipe in PRODUCTION, the background recheck of the slot in force ends with AUTH_OK set again or with AUTH_LOST. -/
  | authRecheckDone (readGood : Bool)
  /-- TICK_BOUNDARY (R22): T0 reaches a multiple of 500 ns and every tick-paced activity of the device runs for the new tick. -/
  | tickBoundary (lateAxis : List (Fin 3 × Station)) (latePower : List Station)
  /-- PERIOD_BOUNDARY (R22): T0 reaches a multiple of 2,000 ns and every period-paced activity of the device runs for the new period. -/
  | periodBoundary
  /-- MANAGEMENT_TICK (R22): T0 reaches a multiple of 1 ms and the management-paced work runs. -/
  | managementTick (mr4 : List (Word × Bool))
  /-- REGISTER_WRITE (R46): A management write to a register that has no row of its own is performed under its field class, or ignored under R16. -/
  | registerWrite (path : Path) (addr : Word) (w : Word)
  /-- LAYER_DATA (R83): A LAYER_DATA message is matched to a file and accepted in byte order, opening a slot at offset 0, or answered with RESEND or BUSY. -/
  | layerData (p : Port)
  /-- LAYER_VALID (R57): Decryption of a layer file ends, and its slot becomes VALID if the tag verifies and every pick rule holds. -/
  | layerValid (i : Slot)
  /-- SLOT_FREE (R84): Zeroing of a FAILED or released slot completes, the slot returns to EMPTY, and SLOT_FREE and E109 are sent. -/
  | slotFree (i : Slot)
  /-- JOB_MESSAGE_UNDEFINED (R82): A job message of undefined type is discarded and counted in TRD_BAD_MSG. -/
  | jobMessageUndefined (p : Port)
  /-- LAYER_SCHEDULE (R68): A LAYER_SCHEDULE message offers a start time, which is accepted or refused with SCHED_REFUSED. -/
  | layerSchedule (p : Port)
  /-- LAYER_CANCEL (R85): A LAYER_CANCEL message releases the slot of a layer that is not active. -/
  | layerCancel (p : Port)
  /-- PAUSE (R77): A PAUSE message, TRD_CMD command or event reaction sets a pause tick, or pauses at once outside SCAN. -/
  | pause (message : Option Port)
  /-- PAUSE_TICK_REACHED (R77): Tick k_p begins, every Shuttle blanks and records its interruption point, and the Treadle enters PAUSED. -/
  | pauseTickReached
  /-- RESUME (R79): A RESUME with a valid resume time returns the Treadle from PAUSED, or is refused with SCHED_REFUSED. -/
  | resume (message : Option Port)
  /-- ABORT (R81): An ABORT discards pending pauses, blanks and parks every station, stops the axes and marks every slot FAILED. -/
  | abort (message : Option Port)
  /-- CLEAR (R81): A CLEAR command takes the Treadle from ABORTED to IDLE. -/
  | clear (message : Option Port)
  /-- LAYER_PREP_START (R64): The armed layer's slot is ALLOCATED, so the Treadle enters LAYER_PREP and preloads the bobbins and Shuttles. -/
  | layerPrepStart
  /-- LAYER_PREP_DONE (R64): The pick bobbins and Shuttle look-aheads are full, and the Treadle enters RECOAT and computes the platform steps. -/
  | layerPrepDone
  /-- RECOAT_STEP_DONE (R72): Every axis of a recoat step comes to rest, and the next step starts or the Treadle enters BED_IMAGE. -/
  | recoatStepDone
  /-- RECOAT_FAULT (R72): A recoat move ends in a limit, homing failure or axis fault, and the Treadle pauses with return state RECOAT. -/
  | recoatFault
  /-- BED_IMAGE_DONE (R73): The powder imaging completes, and the Treadle waits for the start time with WAIT_START. -/
  | bedImageDone
  /-- SCAN_START (R74): T0 reaches the layer start time with imaging complete, so SCAN begins and every station's first picks are released. -/
  | scanStart
  /-- LATE_START (R69): T0 reaches a start time at which the layer is not ready, so the start time is voided and LATE_START is raised. -/
  | lateStart
  /-- SCAN_END (R64): Every non-retired station has completed its END_OF_LIST, and LAYER_CLOSE begins. -/
  | scanEnd
  /-- LAYER_CLOSED (R76): LAYER_CLOSE completes, the report is sent and the Treadle moves on by R64. -/
  | layerClosed
  /-- SHED_PASS_START (R67): The Shed starts an allocation pass on the lowest VALID slot, reading the own lists to form T_own. -/
  | shedPassStart
  /-- ALLOC_DONE (R112): An allocation pass completes, and its slot becomes ALLOCATED with E112. -/
  | allocDone
  /-- REALLOC_START (R118): A station retirement starts a re-allocation pass over its remaining work. -/
  | reallocStart (placed : Nat)
  /-- REALLOC_DONE (R120): A re-allocation pass completes, the tail lists are closed and streamed, and withheld END_OF_LISTs are released. -/
  | reallocDone
  /-- PLUME_STARVE (R114): A station held longer than SHD_MON_MAXHOLD raises PLUME_STARVE once per hold. -/
  | plumeStarve (n : Station)
  /-- MONITOR_DISABLE (R131): A write of MON_EN = 0 releases every held station at once with E119. -/
  | monitorDisable
  /-- PICK_FETCH (R134): A pick from the bobbin enters the Shuttle's look-ahead queue, is checked and extends the plan. -/
  | pickFetch (n : Station)
  /-- SHT_DEADLINE (R34): A Shuttle misses its set-point or edge deadline, so the previous value is held STALE. -/
  | shtDeadline (n : Station) (edges : Bool)
  /-- PATH_START (R684): The limiter stands at the first point at rest, and the path plan begins at the period boundary. -/
  | pathStart (n : Station)
  /-- STATION_COMPLETE (R137): A station's last laser-off edge after END_OF_LIST is applied, and it moves to park. -/
  | stationComplete (n : Station)
  /-- REPICK (R165): A Shuttle resumes an interrupted pick from its re-pick point with a laser-off run-up. -/
  | repick (n : Station)
  /-- REED_OVERRUN (R195): A loop's consecutive overrun count reaches 3, and its station is retired. -/
  | reedOverrun (e : Fin 4) (n : Station)
  /-- ENC_LOST (R180): Three consecutive INVALID encoder measurements with the link in alignment retire the station. -/
  | encLost (e : Fin 3) (n : Station)
  /-- FOLLOW_ERR (R192): A position loop's following-error count exceeds FE_TIME, and its station is retired. -/
  | followErr (e : Fin 3) (n : Station)
  /-- MELT_DEV (R193): A power loop's deviation count exceeds FE_TIME, which raises MELT_DEV once in that pick. -/
  | meltDev (n : Station)
  /-- PYRO_LOST (R190): SENS_HOLD laser-on ticks pass without a GOOD sample, so the power loop opens and PYRO_LOST is raised. -/
  | pyroLost (n : Station)
  /-- EXT_LOST (R185): No rising edge on the external set-point GPIO for TIMEOUT µs holds x_ext and raises EXT_LOST. -/
  | extLost (e : Fin 4) (n : Station)
  /-- UPLINK_SLOT (R250): An uplink slot is received, its early check and CRC are evaluated, and its words go to the mailbox. -/
  | uplinkSlot (n : Station) (header : List Byte) (words : List Word) (earlyHeaders : Bool) (headers : Bool) (inTime : Bool)
  /-- UPLINK_MARKER (R261): An uplink MARKER arrives, and the device forms RTT and advances the link states that wait on MARKERs. -/
  | uplinkMarker (n : Station) (body : List Byte) (good : Bool) (t4 : Nat)
  /-- SERVICE_TIMEOUT (R266): A service request unanswered within 8 ticks times out. -/
  | serviceTimeout (n : Station)
  /-- SVC_READ (R267): LNK_n_SVC_CMD with 1 queues a host read of a station word. -/
  | svcRead (n : Station)
  /-- SVC_WRITE (R267): LNK_n_SVC_CMD with 2 queues a host write of a station word. -/
  | svcWrite (n : Station)
  /-- LANE_ENABLE (R456): A write of LNK_l_CTRL.EN = 1 starts the lane's IDLE transmission and clock recovery. -/
  | laneEnable (l : Lane) (w : Word)
  /-- BLOCK_LOCK (R457): A receiver sees 64 consecutive valid sync headers and gains block lock. -/
  | blockLock (l : Lane) (time : Nat)
  /-- LOCK_LOSS (R458): A receiver loses block lock through sync header errors or loss of signal, and hunts again. -/
  | lockLoss (l : Lane) (signal : Bool)
  /-- SCAN_START_CMD (R463): The START command of LNK_l_SCAN_CMD clears the counts and starts an eye scan. -/
  | scanStartCmd (l : Lane)
  /-- SCAN_STOP_CMD (R463): The STOP command of LNK_l_SCAN_CMD ends an eye scan early. -/
  | scanStopCmd (l : Lane) (bits : Nat) (errors : Nat)
  /-- SCAN_DONE (R463): An eye scan completes its dwell and sets DONE and SCAN_DONE. -/
  | scanDone (l : Lane) (errors : Nat)
  /-- ERROR_INJECT (R468): A write of LNK_l_INJECT alters the next N transmitted blocks, or is refused in PRODUCTION on a lane in service. -/
  | errorInject (l : Lane) (w : Word)
  /-- PRBS_LOSS (R467): The PRBS checker mismatches more than half of 1,024 bits, reseeds and sets PRBS_ERR. -/
  | prbsLoss (l : Lane) (mismatches : Nat)
  /-- SLANE_PLL (R470): The station lane PLL loses lock while a station lane is enabled, which raises a HALT. -/
  | slanePll
  /-- CLANE_PLL (R470): The chain lane PLL loses lock while a chain lane is enabled, which raises a RETRY. -/
  | clanePll
  /-- DEVICE_FRAME (R480): A received device frame with good FCS is discarded, forwarded or consumed by the rules of R480. -/
  | deviceFrame (p : Port) (mac : Nat) (bytes : List Byte) (fcsGood : Bool)
  /-- ENUM_REQUEST (R483): An ENUM request on N0 assigns or keeps the address, is answered upstream and is forwarded on N1. -/
  | enumRequest (hops : Fin 256) (seqNo : Nat)
  /-- MGMT_READ (R486): A MGMT READ performs COUNT word reads and is answered with OP 0x81. -/
  | mgmtRead (p : Port)
  /-- MGMT_WRITE (R486): A MGMT WRITE performs COUNT word writes and is answered with OP 0x82. -/
  | mgmtWrite (p : Port)
  /-- MGMT_IDENTITY (R486): A MGMT IDENTITY is answered with the eight identity words. -/
  | mgmtIdentity (p : Port)
  /-- MGMT_BAD_OP (R486): A MGMT frame of an undefined OP is answered with OP 0x80 and BAD_OP. -/
  | mgmtBadOp (p : Port)
  /-- RING_PROBE (R488): A RING PROBE with HOPS 0 on N1 sets RING and puts N1 into standby. -/
  | ringProbe (hops : Fin 256)
  /-- RING_BREAK (R489): A loss of the upstream lock or a received BREAK reverses the device, which sends BREAK and NOTICE. -/
  | ringBreak (received : Bool)
  /-- PAUSE_FRAME (R482): A received MAC PAUSE frame holds or releases the port's device and other frames. -/
  | pauseFrame (p : Port) (quanta : Fin 65536)
  /-- PAUSE_SEND (R482): With less than 16 KiB free the port sends PAUSE and repeats it every 2 µs until 48 KiB are free. -/
  | pauseSend (p : Port)
  /-- PTP_SYNC (R496): A Sync, or its Follow_Up, reaches a slave time base, which forms the offset and runs the servo. -/
  | ptpSync (b : Base) (followUp : Bool) (twoStep : Bool) (seqNo : Nat) (t1 : Int) (corr : Int) (t2 : Int)
  /-- PTP_TRANSIT (R494): A PTP frame passing the device has its residence time added as a transparent clock. -/
  | ptpTransit (p : Port) (kind : PtpKind) (domain : Fin 256) (source : Nat) (seqNo : Nat) (rawIn : Int) (rawOut : Int) (corr : Int)
  /-- DELAY_RESP (R495): A Delay_Resp completes a delay exchange and updates the mean path delay. -/
  | delayResp (b : Base) (seqNo : Nat) (t4 : Int) (corr : Int) (logInterval : Int)
  /-- ANNOUNCE (R492): An Announce is used in the master selection of the base's domain. -/
  | announce (b : Base) (dataset : List Nat)
  /-- DELAY_REQ_SEND (R495): A slave base's Delay_Req interval expires and a Delay_Req is sent upstream. -/
  | delayReqSend (b : Base) (t3 : Int)
  /-- PTP_HOLDOVER (R497): Syncs or Announces stop for their interval count, so the base enters HOLDOVER. -/
  | ptpHoldover (b : Base)
  /-- TIMEBASE_ENABLE (R497): A write of NET_Tb_CTRL.EN = 1 starts a time base in ACQUIRE with RATE 0. -/
  | timebaseEnable (b : Base) (w : Word)
  /-- TIMEBASE_CAPTURE (R499): A write of NET_Tb_CAPTURE copies the whole base value into its read registers. -/
  | timebaseCapture (b : Base) (tau : Nat)
  /-- STEP_SET (R500): NET_Tb_STEP_CMD SET loads the base from the STEP registers, subject to R28 for T0. -/
  | stepSet (b : Base)
  /-- STEP_ADD (R500): NET_Tb_STEP_CMD ADD adds the signed STEP value and normalises the base. -/
  | stepAdd (b : Base)
  /-- TL_QUEUE (R501): NET_Np_TL_CMD QUEUE adds a timed frame to the port's launch queue. -/
  | tlQueue (p : Port) (w : Word) (tau : Nat)
  /-- TL_FLUSH (R502): NET_Np_TL_CMD FLUSH empties the launch queue. -/
  | tlFlush (p : Port)
  /-- TIMED_LAUNCH (R501): A queued frame's launch time is reached, and it is sent, or discarded or sent late with LAUNCH_LATE. -/
  | timedLaunch (p : Port) (tau : Nat)
  /-- PPS_OUT_PULSE (R503): The selected base reaches PPS_OFFSET, and PPS_OUT goes high for PPS_WIDTH. -/
  | ppsOutPulse
  /-- PPS_IN_EDGE (R504): An active PPS_IN edge is timestamped, and for SRC 1 the servo runs. -/
  | ppsInEdge (tau : Nat)
  /-- PPS_LOST (R504): No PPS_IN edge for 1.5 s raises PPS_LOST and, for SRC 1, starts HOLDOVER. -/
  | ppsLost
  /-- EVENT_FRAME_SEND (R632): The EVENT frame window expires, or a 64th record opens, and the open records are sent as one frame. -/
  | eventFrameSend
  /-- ENCODER_EDGE (R281): An accepted quadrature or Hall input change updates a pin channel count, or is an illegal transition. -/
  | encoderEdge (c : PinChannel) (a : Bool) (b : Bool) (z : Bool) (tau : Nat)
  /-- INDEX_PULSE (R294): An accepted Z rising edge latches the count and applies the index correction or fault. -/
  | indexPulse (c : PinChannel) (tau : Nat)
  /-- SSI_READ_START (R285): An SSI read frame starts at a period boundary every RATE periods. -/
  | ssiReadStart (c : PinChannel)
  /-- SSI_READ_DONE (R285): An SSI read completes and updates the count, or is INVALID with SSI_ERR. -/
  | ssiReadDone (c : PinChannel) (good : Bool) (data : Word) (tau : Nat)
  /-- COUNT_WRITE (R284): A write of FBK_c_COUNT sets the count, restores quality and applies the compare's behind rule. -/
  | countWrite (c : PinChannel) (w : Word) (tau : Nat)
  /-- CMP_VAL_WRITE (R291): A write of FBK_c_CMP_VAL re-aims the compare under the behind rule. -/
  | cmpValWrite (c : PinChannel) (w : Word)
  /-- COMPARE_ARM (R301): A write of CMP_CTRL.ARMED = 1 arms the compare and clears HITS and SKIPPED. -/
  | compareArm (c : PinChannel) (w : Word)
  /-- AXIS_TARGET_WRITE (R315): A write of AXS_m_TARGET starts a move at rest or is held as the pending target. -/
  | axisTargetWrite (m : Axis) (w : Word)
  /-- AXIS_STOP (R317): AXS_m_CMD STOP decelerates the axis to VMIN and stops it. -/
  | axisStop (m : Axis)
  /-- AXIS_HALT (R317): AXS_m_CMD HALT stops stepping at once. -/
  | axisHalt (m : Axis)
  /-- AXIS_HOME (R322): AXS_m_CMD HOME starts the homing sequence at rest. -/
  | axisHome (m : Axis)
  /-- CLEAR_PENDING (R316): AXS_m_CMD CLEAR_PENDING discards the pending target. -/
  | clearPending (m : Axis)
  /-- AXIS_ENABLE (R306): A write of AXS_m_CTRL.EN drives EN active or inactive. -/
  | axisEnable (m : Axis) (w : Word)
  /-- EN_DELAY_EXPIRED (R306): EN_DELAY µs after EN goes active, the axis may issue steps. -/
  | enDelayExpired (m : Axis)
  /-- PROFILE_UPDATE (R309): Every 1 µs the profile updates V and the desired resolution level. -/
  | profileUpdate (m : Axis)
  /-- STEP_CARRY (R307): The phase accumulator overflows and one step is issued. -/
  | stepCarry (m : Axis)
  /-- INPUT_FIRST_EDGE (R320): A raw change of HOME, LIMP or LIMN away from its accepted level latches pos. -/
  | inputFirstEdge (m : Axis) (input : Fin 3)
  /-- INPUT_ACCEPTED (R320): A home or limit input holds its new level for FILT and is accepted. -/
  | inputAccepted (m : Axis) (input : Fin 3)
  /-- LIMIT_CHATTER (R320): An input returns before FILT, the latch is discarded and CHATTER counts, with a fault at CHAT_THR. -/
  | limitChatter (m : Axis) (input : Fin 3)
  /-- VS_EDGE (R336): A camera VS edge begins a frame, which is admitted or refused against CAP. -/
  | vsEdge (c : Camera) (tau : Nat)
  /-- LINE_COMPLETE (R335): A line becomes complete in its bobbin and may enter the pipeline. -/
  | lineComplete (c : Camera) (samples : List Nat) (tau : Nat)
  /-- PIPELINE_LINE_DONE (R335): The pipeline finishes a line and takes the next complete line by priority. -/
  | pipelineLineDone (tau : Nat)
  /-- FRAME_DELIVERED (R346): A frame's statistics record is complete in its ring slot and the frame is delivered. -/
  | frameDelivered (c : Camera) (tau : Nat)
  /-- FRAME_TIMEOUT (R333): The last line has not arrived within 1 s of VS, and the frame is dropped as malformed. -/
  | frameTimeout (c : Camera) (tau : Nat)
  /-- TRIG_NOW (R349): A write of ISP_c_TRIG_NOW issues a trigger, or counts a miss while busy. -/
  | trigNow (c : Camera) (tau : Nat)
  /-- TRIG_TMO (R350): A trigger with no VS edge within TRIG_TMO is discarded. -/
  | trigTmo (c : Camera)
  /-- EXP_SEQUENCE_DONE (R353): An exposure I2C sequence completes, fails, or is retried. -/
  | expSequenceDone (c : Camera) (ok : Bool)
  /-- I2C_CMD (R354): A write of ISP_I2Ci_CMD starts a host I2C transaction, or marks it PENDING. -/
  | i2cCmd (c : Camera)
  /-- I2C_DONE (R355): A host I2C transaction ends with its RESULT. -/
  | i2cDone (c : Camera) (result : Fin 3) (rdata : Word)
  /-- TAP_FRAME_BOUNDARY (R367): A Tapestry frame boundary commits planes, applies flips and judges plane readiness. -/
  | tapFrameBoundary (tau : Nat)
  /-- PLANE_COMMIT (R368): A write of TAP_Pi_COMMIT or TAP_CUR_COMMIT marks the plane pending for the next boundary. -/
  | planeCommit (i : Fin 9)
  /-- PLANE_FLIP (R369): A write of TAP_Pi_FLIP requests a buffer switch at the next boundary. -/
  | planeFlip (i : Plane)
  /-- TAP_ENABLE (R374): A write of TAP_CTRL.ENABLE starts composition, or is refused with CFG_ERR. -/
  | tapEnable (w : Word)
  /-- VID_ENABLE (R374): A write of VID_EN starts the video output at a VS pulse, or stops it at frame end. -/
  | vidEnable (w : Word)
  /-- MEM_FRAME_DONE (R375): A composed frame is complete in its memory slot, raising E212. -/
  | memFrameDone
  /-- TAP_UNDERRUN (R372): A plane's source line is missing at composition and is transparent for that line. -/
  | tapUnderrun (i : Plane) (line : Nat)
  /-- CHAIN_COMMIT (R385): A write of LMP_CHAIN_COMMIT sends SET_STEADY and SET_FLASH frames and a latch at the next tick. -/
  | chainCommit
  /-- CHAIN_REFRESH (R385): Every REFRESH ms a NOP chain frame collects driver status. -/
  | chainRefresh
  /-- CHAIN_FRAME_DONE (R386): A chain frame completes and its status words are checked. -/
  | chainFrameDone (status : List Word)
  /-- FLASH_OPEN (R387): A camera exposure window opens and a broadcast latch with LDO 1 starts the flash. -/
  | flashOpen (c : Camera)
  /-- FLASH_CLOSE (R387): The window or HIT_US ends and a broadcast latch with LDO 0 ends the flash. -/
  | flashClose (src : Option Camera)
  /-- MATRIX_ROW_END (R390): A matrix row's time or blanking ends and the scan moves on, rearranged around windows. -/
  | matrixRowEnd (tau : Nat) (sense : Word)
  /-- COLOUR_MEASURE (R393): Every MEAS_MS ms the colour controller starts a sensor reading. -/
  | colourMeasure
  /-- COLOUR_READING_DONE (R394): A colour reading completes and updates the group gains, or is discarded. -/
  | colourReadingDone (data : Option (List Byte)) (temp : Option Word)
  /-- BOBBIN_ENABLE (R413): A write of CRL_Bb_CFG.EN = 1 enables a bobbin, or is refused with CFG_ERR. -/
  | bobbinEnable (b : Bobbin) (w : Word)
  /-- BOBBIN_DISABLE (R414): A write of EN = 0 to a closed bobbin discards its content and resets its pointers. -/
  | bobbinDisable (b : Bobbin) (w : Word)
  /-- SCRUB_READ (R416): Every SCRUB_INT cycles a bank reads and corrects its next word. -/
  | scrubRead (late : Bool) (result : ScrubResult)
  /-- KEY_LOAD (R419): SEC_KEY_CMD LOAD unwraps a key into its slot, or refuses it with KEY_REFUSED. -/
  | keyLoad (slot : KeySlot)
  /-- KEY_ERASE (R419): SEC_KEY_CMD ERASE clears a slot's key, hash subkey and NONCE. -/
  | keyErase (slot : KeySlot)
  /-- WIPE_ALL (R421): SEC_KEY_CMD WIPE_ALL with KEY 0x5EC0 starts a wipe of the secure partition. -/
  | wipeAll (key : Word)
  /-- TAMPER (R421): TAMPER_N low for 200 ns starts a wipe and raises E9. -/
  | tamper
  /-- GLITCH (R421): A voltage or clock glitch detector trip starts a wipe and raises E10. -/
  | glitch (clock : Bool)
  /-- SEC_WIPE (R422): A wipe of the secure partition completes and raises E41 and SEC_WIPE. -/
  | secWipe
  /-- DRAM_ENABLE (R443): A write of DRC_CTRL.ENABLE = 1 starts training of the selected set-point. -/
  | dramEnable (w : Word)
  /-- DRAM_DISABLE (R443): A write of DRC_CTRL.ENABLE = 0 stops training and puts trained channels into self-refresh. -/
  | dramDisable (w : Word)
  /-- FREQ_SWITCH_REQUEST (R444): A write of DRC_FREQ.TARGET requests a set-point switch. -/
  | freqSwitchRequest (w : Word)
  /-- FREQ_DONE (R444): A set-point switch completes, with training if needed, and E55 is raised. -/
  | freqDone
  /-- DQS_OSC_RUN (R445): Every OSC_INT ms a rank's DQS oscillator run adjusts the write delays and may flag DRIFT. -/
  | dqsOscRun (c : Channel) (rank : Fin 2) (n : Nat)
  /-- DRAM_REFRESH (R437): A rank's refresh interval expires and an all-bank refresh is issued or postponed. -/
  | dramRefresh (c : Channel) (rank : Fin 2) (waits : Bool)
  /-- DRAM_SCRUB (R441): Every SCRUB_INT ns a channel scrubs one burst. -/
  | dramScrub (c : Channel) (found : Option (Bool × Option (Fin 5)))
  /-- SELF_REFRESH_ENTRY (R438): A channel idle for SR_IDLE ns enters self-refresh. -/
  | selfRefreshEntry (c : Channel)
  /-- DRAM_PANIC (R446): A panic stays asserted longer than PANIC_MAX and raises E51. -/
  | dramPanic (b : Bobbin) (c : Channel) (micros : Nat)
  /-- DRAM_UE (R440): An uncorrectable DRAM read is reported with severity by area and diagnosed for marking. -/
  | dramUe (addr : Nat) (area : DramArea) (diag : Option (Fin 5))
  /-- DESCRIPTOR_WRITTEN (R224): A coax frame's reduction completes and its descriptor is written to its bobbin. -/
  | descriptorWritten (n : Station)
  /-- MAP_CLEAR_DONE (R230): A clear of both map buffers completes and MAP_READY is set. -/
  | mapClearDone
  /-- MAP_TIME_END (R230): Map time reaches 2^44 − 1 and stops, and the map is not ready. -/
  | mapTimeEnd
  /-- LAST_DESCRIPTOR_TIMEOUT (R227): The last frame of a layer not arriving within 60 µs of the final laser-off edge is treated as incomplete. -/
  | lastDescriptorTimeout (n : Station)
  /-- ARCH_FREEZE (R239): An archive freeze cause plus POST frames freezes the raw coax archive. -/
  | archFreeze (n : Station)
  /-- ARCH_FREEZE_CMD (R239): A write of FREEZE freezes the archive at once. -/
  | archFreezeCmd (n : Station)
  /-- ARCH_READ_CMD (R239): A write of READ exports a frozen ring to the host. -/
  | archReadCmd (n : Station)
  /-- ARCH_RESUME_CMD (R239): A write of RESUME unfreezes the ring and clears READ. -/
  | archResumeCmd (n : Station)
  /-- TRIM_DARK (R534): TRM_n_CMD DARK starts a dark offset measurement. -/
  | trimDark (n : Station)
  /-- TRIM_GAIN (R536): TRM_n_CMD GAIN starts a gain ratio measurement once no dark slew runs. -/
  | trimGain (n : Station)
  /-- TRIM_ABORT (R532): TRM_n_CMD ABORT ends the running pyrometer measurement. -/
  | trimAbort (n : Station)
  /-- TRIM_APPLY (R543): TRM_n_CMD APPLY slews the candidate dark and gain values into force. -/
  | trimApply (n : Station)
  /-- TRIM_REBUILD (R539): TRM_n_CMD REBUILD rebuilds the station's grid from its base grid and K_n. -/
  | trimRebuild (n : Station)
  /-- TRIM_SAVE (R544): TRM_CMD SAVE writes a Trim record to the log once no slew or pending grid exists. -/
  | trimSave
  /-- TRIM_REGISTER (R538): TRM_CMD REGISTER arms registration for the next layer with marks. -/
  | trimRegister
  /-- TRIM_REG_ABORT (R548): TRM_CMD REG_ABORT cancels an armed registration. -/
  | trimRegAbort
  /-- DARK_DONE (R534): A dark measurement collects N ticks, sets its result and starts the slew. -/
  | darkDone (n : Station)
  /-- GAIN_DONE (R536): A gain measurement collects N samples, computes G and starts the slew or reports RANGE. -/
  | gainDone (n : Station)
  /-- TRIM_TIMEOUT (R534): A pyrometer measurement without enough ticks within TIMEOUT ends with RESULT TIMEOUT. -/
  | trimTimeout (n : Station)
  /-- REGISTRATION_COMPUTE (R538): The post-scan image is delivered, and Trim fits fields and seams and rebuilds the grids. -/
  | registrationCompute
  /-- THERMAL_ROUND (R552): A thermal round takes the readings, cross-checks the sensors and evaluates thresholds, the NVM window and gradients. -/
  | thermalRound (temps : List (Option Int)) (millivolts : List Nat)
  /-- SHUTDOWN_CLOCK_STOP (R561): 20 µs after shutdown every clock except AON stops. -/
  | shutdownClockStop
  /-- THM_FAILED_CLEAR (R556): A write of 1 to a bit of THM_FAILED clears that sensor's failure. -/
  | thmFailedClear (w : Word)
  /-- FAULT_HANDLER (R577): The fault unit runs the next handler: a budget decision, a retirement or a HALT. -/
  | faultHandler
  /-- RECOVER_TMO (R570): A RETRY occurrence not recovered within RECOVER_TMO is escalated and its target retired. -/
  | recoverTmo (u : Fin 19)
  /-- RETIRE_CMD (R572): EVT_FLT_CMD RETIRE retires the stations in EVT_FLT_ARG. -/
  | retireCmd (w : Word)
  /-- CLEAR_RETIRE (R575): EVT_FLT_CMD CLEAR_RETIRE clears the retirement and retry counts of the units in EVT_FLT_ARG. -/
  | clearRetire (w : Word)
  /-- CLEAR_HALT (R576): EVT_FLT_CMD CLEAR_HALT clears HALTED, or is refused while the cause persists. -/
  | clearHalt (w : Word)
  /-- EMIT_GATE (R580): EMIT_GATE_N taken low by the filter removes emission on every station and pauses the Treadle. -/
  | emitGate (low : Bool) (tau : Nat)
  /-- SW_GATE (R583): A write of SW_GATE acts as the emission gate going low, or starts its release. -/
  | swGate (w : Word) (tau : Nat)
  /-- GATE_RELEASE (R582): At the first period boundary after the gate has been high for 1 µs, slots carry GATE = 1 again. -/
  | gateRelease
  /-- EVT_PEND_CLEAR (R631): A write of 1 to EVT_PEND bits clears pending events and may deactivate IRQ pins. -/
  | evtPendClear (i : Fin 8) (w : Word)
  /-- LOG_SCAN (R596): At start the log scans its sectors, finds the newest data and raises E240. -/
  | logScan
  /-- LOG_RECORD_PROGRAMMED (R597): A staged record is programmed to flash, receives its SEQ and leaves staging. -/
  | logRecordProgrammed
  /-- LOG_SECTOR_ERASE (R597): At half fill the next sector is erased, destroying the oldest records. -/
  | logSectorErase
  /-- LOG_FLASH (R597): A failed program or erase skips the sector, and three in a row enter STOPPED. -/
  | logFlash
  /-- LOG_DROP (R599): A record that cannot be staged is dropped and counted in the pending LOST record. -/
  | logDrop (cause : Fin 3)
  /-- HOURS_RECORD (R591): Every OP_INT minutes of operating time a HOURS record is staged. -/
  | hoursRecord
  /-- LOG_LOAD (R601): WAL_RD_CMD LOAD reads a record into WAL_RD_BUF with a RESULT. -/
  | logLoad
  /-- LOG_READ (R602): A LOG READ frame starts a readout of records to the requesting port. -/
  | logRead (p : Port)
  /-- LOG_ABORT (R602): A LOG ABORT frame ends the running READ. -/
  | logAbort (p : Port)
  /-- LOG_INFO (R602): A LOG INFO frame is answered with the log's sequence, sector and time words. -/
  | logInfo (p : Port)
  /-- LOG_NOTE (R603): A LOG NOTE frame stages a NOTE record, or is denied with NOTE_EN = 0. -/
  | logNote (p : Port)
  /-- LOG_BAD_OP (R602): A LOG frame of another OP is answered with 0x80. -/
  | logBadOp (p : Port)
  /-- CLOCK_LOST (R611): A domain's clock shows no edge within its window, so its live bit falls and E16 is raised. -/
  | clockLost (d : Fin 35)
  /-- CLOCK_RETURN (R612): A stopped clock returns, its crossings are reset and E17 is raised. -/
  | clockReturn (d : Fin 35) (discarded : Nat)
  /-- DOFF_TRIGGER (R618): DOFF_N, DOF_CMD FREEZE or a matching fault triggers Doff, latching the snapshot and raising DOFF. -/
  | doffTrigger (t : DoffTrigger)
  /-- DOFF_FREEZE (R618): 1 µs after the trigger the stop strobe stops every domain except AON and JTAG. -/
  | doffFreeze
  /-- JTAG_DOFF_ADDR (R620): A DOFF_ADDR Update-DR sets the readout space and address. -/
  | jtagDoffAddr (w : Word)
  /-- JTAG_DOFF_READ (R622): A DOFF_READ Capture-DR loads the word at the address and increments it. -/
  | jtagDoffRead (uncorrectable : Bool)
  /-- JTAG_MGMT (R623): A MGMT Update-DR issues one management read or write over JTAG. -/
  | jtagMgmt (op : Fin 4) (addr : Word) (w : Word)
  /-- JTAG_IDCODE (R620): The IDCODE instruction captures the 32-bit device identifier. -/
  | jtagIdcode
  /-- JTAG_BOUNDARY_SCAN (R620): EXTEST or SAMPLE/PRELOAD operates the boundary-scan register. -/
  | jtagBoundaryScan (extest : Bool) (bits : Nat)
  /-- PORST_N_LOW (R509): PORST_N is driven low, every output goes to its reset state, EMIT_OK falls, lanes stop and any fuse or life-cycle programming ends. -/
  | porstNLow
  /-- SUPPLY_LOSS (R680): A supply rail leaves its range: VDD_AON loss clears THM_LAST_SHUT, VPP_FUSE loss ends programming, and VDDIO_33 loss leaves EMIT_OK to its pull-down. -/
  | supplyLoss (rail : Rail)
  /-- REGISTER_READ_CLEAR (R13): A read of an RC field returns its value and restores the field to its reset value, subject to the same-cycle rule of R14. -/
  | registerReadClear (path : Path) (addr : Word)
  /-- UPD_PENDING (R525): The verification of the programmed slot started by ACTIVATE completes, storing its SHA-384 and STAGED_OK and entering PENDING, or failing with E7. -/
  | updPending (readGood : Bool)
  /-- PLL_LOSS (R625): The fabric, media, video or DRAM PLL loses lock, setting PLL_LOSS and raising E19. -/
  | pllLoss (p : Fin 5)
  /-- PLL_RELOCK (R571): A PLL regains lock, which for the chain lane PLL completes the recovery of CLANE_PLL and stops its recovery timer. -/
  | pllRelock (p : Fin 7)
  /-- CHAIN_FRAME_SENT (R481): An egress chain port finishes sending a frame, freeing its transmit queue space, completing exports of IMAGE_DATA, maps, archives and descriptors, and picking the next frame. -/
  | chainFrameSent (p : Port)
  /-- DRAM_CE (R440): A DRAM read returns with a corrected error, so the burst is written back, DRC_c_CE counts, DRAM_CE is raised and a component may be marked by count. -/
  | dramCe (addr : Nat) (comp : Fin 5)
  /-- GPIO_EDGE (R185): A rising edge on an external set-point GPIO completes a frequency or duty measurement and updates x_ext, ending EXT_LOST. -/
  | gpioEdge (g : Fin 16) (period high : Nat)
  /-- PRBS_LOCK (R467): The PRBS checker matches 64 consecutive bits, locks and starts counting compared bits and mismatches. -/
  | prbsLock (l : Lane)
deriving DecidableEq, Repr

end Sys2Proof
end

