-- ==== Sys2Proof/Decode.lean ====
section
/-!
DEFINITION. Commands as words of bits. The spec's table of operations and events gives no row any bits: a command is an
access, a frame, a pin event or the end of a unit's work, not a word. So no word spells one.
-/
namespace Sys2Proof

/-- The command that a word of `nbits` bits spells by the table's bits: none, since the table gives no row any. -/
def decodeTableWord (nbits w : Nat) : Option Instr :=
  match nbits, w with
  | _, _ => none

end Sys2Proof
end

