-- ==== Sys2Proof/Config.lean ====
section
/-!
DEFINITION. What the spec leaves open. Every constant here is opaque: nothing in Lean can evaluate it, so a statement
that holds of the model holds whatever the hardware does there.
-/
namespace Sys2Proof.Config

/-- The free value number `n` of width `w`: a value the spec leaves open. `State.free` counts the values taken. -/
opaque freeValue : (w : Nat) → Nat → BitVec w

/-- How far, within the 2^-50 relative that R148 allows, the sine or cosine of the number with this mantissa and
exponent lies from the exact one. -/
opaque trigSlack : Int → Int → BitVec 8

/-- DEV_ID2 to DEV_ID4: silicon revision, grade and unique number of the part (R530). -/
opaque deviceWord : Nat → BitVec 32

/-- The manufacturer code in the JTAG device identifier (R620). -/
opaque jtagMaker : BitVec 11

end Sys2Proof.Config
end

