-- ==== Sys2Proof/Machine/Bits.lean ====
section
/-!
DEFINITION. Bit fields, two's complement, limits, roots, little-endian bytes (R8) and CRC-32C: the arithmetic the
families share.
-/
namespace Sys2Proof.Machine

/-- Bits `hi` to `lo` of `x`. -/
def bits (x hi lo : Nat) : Nat := x / 2 ^ lo % 2 ^ (hi + 1 - lo)

/-- `x` with bits `hi` to `lo` replaced by the low bits of `v`. -/
def putBits (x hi lo v : Nat) : Nat :=
  x / 2 ^ (hi + 1) * 2 ^ (hi + 1) + v % 2 ^ (hi + 1 - lo) * 2 ^ lo + x % 2 ^ lo

/-- Bit `i` of `x`. -/
def bit (x i : Nat) : Bool := x.testBit i

/-- 1 or 0. -/
def b2n (b : Bool) : Nat := if b then 1 else 0

/-- `x` with bit `i` set to `b`. -/
def setBit (x i : Nat) (b : Bool) : Nat := putBits x i i (b2n b)

/-- The low `w` bits of `x` read as a two's complement number. -/
def sx (w x : Nat) : Int :=
  let m := x % 2 ^ w
  if m < 2 ^ (w - 1) then (m : Int) else (m : Int) - (2 ^ w : Nat)

/-- The two's complement pattern of `i` in `w` bits. -/
def wrapN (w : Nat) (i : Int) : Nat := (i % ((2 ^ w : Nat) : Int)).toNat

/-- `x` limited to `lo` to `hi`. -/
def clampI (lo hi x : Int) : Int := if x < lo then lo else if hi < x then hi else x

/-- `x` limited to `lo` to `hi`. -/
def clampN (lo hi x : Nat) : Nat := if x < lo then lo else if hi < x then hi else x

/-- `x` saturated to a signed number of `w` bits. -/
def satS (w : Nat) (x : Int) : Int := clampI (-((2 ^ (w - 1) : Nat) : Int)) (((2 ^ (w - 1) : Nat) : Int) - 1) x

/-- `x` saturated to an unsigned number of `w` bits. -/
def satU (w : Nat) (x : Int) : Nat := (clampI 0 (((2 ^ w : Nat) : Int) - 1) x).toNat

/-- Arithmetic shift right: the quotient by `2 ^ k`, rounded toward minus infinity. -/
def asr (x : Int) (k : Nat) : Int := x / ((2 ^ k : Nat) : Int)

/-- The quotient rounded to nearest, halves away from zero. -/
def divNear (a b : Int) : Int :=
  if b = 0 then 0 else
  let n := a.natAbs
  let d := b.natAbs
  let q : Int := ((2 * n + d) / (2 * d) : Nat)
  if (a < 0) = (b < 0) then q else -q

/-- The quotient rounded up, of naturals; 0 for a zero divisor. -/
def divUp (a b : Nat) : Nat := if b = 0 then 0 else (a + b - 1) / b

/-- One step of the bit-by-bit integer square root. -/
def isqrtGo (n : Nat) : Nat → Nat → Nat
  | 0, r => r
  | k + 1, r =>
    let t := r + 2 ^ k
    isqrtGo n k (if t * t ≤ n then t else r)

/-- The integer square root of `n`, rounded down. -/
def isqrt (n : Nat) : Nat := isqrtGo n ((Nat.log2 n) / 2 + 1) 0

/-- Byte `i` of the little-endian pattern of `x` (R8). -/
def byteOf (x i : Nat) : Byte := BitVec.ofNat 8 (x / 2 ^ (8 * i))

/-- The `n` little-endian bytes of `x` (R8). -/
def leBytes (n x : Nat) : List Byte := (List.range n).map (byteOf x)

/-- The number whose little-endian bytes these are (R8). -/
def leNat : List Byte → Nat
  | [] => 0
  | b :: bs => b.toNat + 256 * leNat bs

/-- The little-endian number of `n` bytes at offset `off` of `bs`; absent bytes count as 0. -/
def leAt (bs : List Byte) (off n : Nat) : Nat := leNat ((bs.drop off).take n)

/-- The bytes of 32-bit words, little-endian. -/
def wordsBytes (ws : List Nat) : List Byte := ws.flatMap (leBytes 4)

/-- The whole 32-bit words of a byte list, little-endian. -/
def bytesWords : List Byte → List Nat
  | a :: b :: c :: d :: bs => leNat [a, b, c, d] :: bytesWords bs
  | _ => []

/-- The reflected CRC-32C polynomial (R250). -/
def crcPoly : Nat := 0x82F63B78

/-- One bit of the reflected CRC-32C register. -/
def crcBit (c : Nat) : Nat := if c % 2 = 1 then Nat.xor (c / 2) crcPoly else c / 2

/-- One byte of the CRC-32C. -/
def crcByte (c : Nat) (b : Byte) : Nat := Nat.repeat crcBit 8 (Nat.xor c b.toNat)

/-- CRC-32C over bytes, in order (R250): initial value and final inversion all ones. -/
def crc32c (bs : List Byte) : Nat := Nat.xor (bs.foldl crcByte 0xFFFFFFFF) 0xFFFFFFFF

/-- The worst of two sample qualities is the numerically highest (R19). -/
def worst (a b : Nat) : Nat := max a b

/-- The qualities of R18. -/
abbrev qGood : Nat := 0
abbrev qStale : Nat := 1
abbrev qSuspect : Nat := 2
abbrev qInvalid : Nat := 3

/-- The element of a vector at a bounded index. -/
def vat {α : Type} {n : Nat} (v : Vector α n) (i : Fin n) : α := v[i]

/-- The vector with the element at a bounded index replaced. -/
def vput {α : Type} {n : Nat} (v : Vector α n) (i : Fin n) (x : α) : Vector α n := v.set i.val x i.isLt

/-- The vector with the element at a bounded index changed by `f`. -/
def vmod {α : Type} {n : Nat} (v : Vector α n) (i : Fin n) (f : α → α) : Vector α n := vput v i (f (vat v i))

/-- Every element the same. -/
def vrep {α : Type} (n : Nat) (x : α) : Vector α n := Vector.replicate n x

end Sys2Proof.Machine
end

