-- ==== Sys2Proof/Machine/Float.lean ====
section
/-!
DEFINITION. IEEE 754 binary64 with round-to-nearest-even, in the order written (R148): a number is a mantissa times a
power of two, or not finite. The sine, cosine and arc tangent are exact to within 2^-50 relative and no closer: the
spec leaves the rest open, and so does the model (Config.trigSlack).
-/
namespace Sys2Proof.Machine

/-- A binary64 number: `m * 2 ^ e`, with |m| below 2^53; `fin` is false for an infinity or a NaN, which the rules that
use these numbers treat alike. -/
structure F64 where
  m : Int
  e : Int
  fin : Bool
deriving DecidableEq, Repr

namespace F64

def zero : F64 := ⟨0, 0, true⟩
def bad : F64 := ⟨0, 0, false⟩

/-- The natural `n` shifted right by `k`, rounded to nearest even. -/
def shrRNE (n k : Nat) : Nat :=
  if k = 0 then n else
  let q := n / 2 ^ k
  let r := n % 2 ^ k
  let h := 2 ^ (k - 1)
  if h < r || (r == h && q % 2 == 1) then q + 1 else q

/-- The exact value `m * 2 ^ e` rounded to binary64. -/
def round (m e : Int) : F64 :=
  if m = 0 then zero else
  let n := m.natAbs
  let width := Nat.log2 n + 1
  let drop : Int := max ((width : Int) - 53) (-1074 - e)
  let (q, e') : Nat × Int := if 0 < drop then (shrRNE n drop.toNat, e + drop) else (n, e)
  if 1024 < ((Nat.log2 q + 1 : Nat) : Int) + e' then bad
  else ⟨if m < 0 then -(q : Int) else q, e', true⟩

def ofInt (i : Int) : F64 := round i 0

/-- `i * 2 ^ e` as binary64. -/
def ofScaled (i e : Int) : F64 := round i e

def neg (a : F64) : F64 := ⟨-a.m, a.e, a.fin⟩
def abs (a : F64) : F64 := ⟨a.m.natAbs, a.e, a.fin⟩

/-- The two mantissas over the smaller exponent. -/
def align (a b : F64) : Int × Int × Int :=
  let e := min a.e b.e
  (a.m * ((2 ^ (a.e - e).toNat : Nat) : Int), b.m * ((2 ^ (b.e - e).toNat : Nat) : Int), e)

def add (a b : F64) : F64 :=
  if a.fin && b.fin then (let (x, y, e) := align a b; round (x + y) e) else bad
def sub (a b : F64) : F64 := add a (neg b)
def mul (a b : F64) : F64 := if a.fin && b.fin then round (a.m * b.m) (a.e + b.e) else bad

def div (a b : F64) : F64 :=
  if !a.fin || !b.fin || b.m = 0 then bad
  else
    let k : Nat := 120
    let n := a.m.natAbs * 2 ^ k
    let d := b.m.natAbs
    let q := n / d * 2 + (if n % d = 0 then 0 else 1)
    round (if (a.m < 0) = (b.m < 0) then (q : Int) else -(q : Int)) (a.e - b.e - k - 1)

/-- The correctly rounded square root; not finite for a negative number. -/
def sqrt (a : F64) : F64 :=
  if !a.fin || a.m < 0 then bad
  else if a.m = 0 then zero
  else
    let k : Nat := if (a.e % 2 : Int) = 0 then 130 else 131
    let n := a.m.natAbs * 2 ^ k
    let r := isqrt n
    round ((r * 2 + (if r * r = n then 0 else 1) : Nat) : Int) ((a.e - k) / 2 - 1)

def lt (a b : F64) : Bool := a.fin && b.fin && (let (x, y, _) := align a b; decide (x < y))
def le (a b : F64) : Bool := a.fin && b.fin && (let (x, y, _) := align a b; decide (x ≤ y))
def eqv (a b : F64) : Bool := a.fin && b.fin && (let (x, y, _) := align a b; decide (x = y))
def isZero (a : F64) : Bool := a.fin && a.m == 0
def minF (a b : F64) : F64 := if le a b then a else b
def maxF (a b : F64) : F64 := if le a b then b else a

/-- Rounded toward minus infinity. -/
def floor (a : F64) : Int :=
  if 0 ≤ a.e then a.m * ((2 ^ a.e.toNat : Nat) : Int) else a.m / ((2 ^ (-a.e).toNat : Nat) : Int)

/-- Truncated toward zero. -/
def trunc (a : F64) : Int := if a.m < 0 then -(floor (neg a)) else floor a

/-- Rounded to the nearest integer, halves away from zero. -/
def nearest (a : F64) : Int :=
  let p := abs a
  let r := floor ⟨2 * p.m + (if 0 ≤ p.e then 0 else ((2 ^ (-p.e).toNat : Nat) : Int)), p.e - 1, true⟩
  let r := if 0 ≤ p.e then floor p else r
  if a.m < 0 then -r else r

/-- The exact value as a fixed-point number with `k` fraction bits, rounded down. -/
def toFixed (a : F64) (k : Nat) : Int := floor ⟨a.m, a.e + k, a.fin⟩

/-- The value with `k` fraction bits as binary64. -/
def ofFixed (i : Int) (k : Nat) : F64 := round i (-(k : Int))

/-- The terms of the sine or cosine series at `x2 = x * x`, with `k` fraction bits, from term `t` of index `n`. -/
def series (x2 : Int) (k : Nat) : Nat → Nat → Int → Int → Int
  | 0, _, _, acc => acc
  | f + 1, n, t, acc =>
    let t' := -(t * x2 / ((2 ^ k : Nat) : Int)) / (((n + 1) * (n + 2) : Nat) : Int)
    series x2 k f (n + 2) t' (acc + t)

/-- A result within 2^-50 relative of the fixed-point value `i` (100 fraction bits) of the argument `a`: the spec fixes
it no further (R148). -/
def within (i : Int) (a : F64) : F64 :=
  let slack : Int := ((Config.trigSlack a.m a.e).toNat : Int) - 128
  round (i * (2 ^ 59 : Nat) + i * 3 * slack) (-159)

/-- The sine, within 2^-50 relative. -/
def sin (a : F64) : F64 :=
  let x := toFixed a 100
  let x2 := x * x / ((2 ^ 100 : Nat) : Int)
  within (series x2 100 30 1 x 0) a

/-- The cosine, within 2^-50 relative. -/
def cos (a : F64) : F64 :=
  let x := toFixed a 100
  let x2 := x * x / ((2 ^ 100 : Nat) : Int)
  within (series x2 100 30 0 ((2 ^ 100 : Nat) : Int) 0) a

/-- Euler's series for the arc tangent, 100 fraction bits: `y = x^2 / (1 + x^2)`. -/
def atanSeries (y : Int) : Nat → Nat → Int → Int → Int
  | 0, _, _, acc => acc
  | f + 1, n, t, acc =>
    atanSeries y f (n + 1) (t * y / ((2 ^ 100 : Nat) : Int) * ((2 * n + 2 : Nat) : Int) / ((2 * n + 3 : Nat) : Int)) (acc + t)

/-- The arc tangent of a ratio from 0 to 1 with 100 fraction bits. -/
def atanFixed (x : Int) : Int :=
  let one : Int := ((2 ^ 100 : Nat) : Int)
  let d := one + x * x / one
  atanSeries (x * x / d) 110 0 (x * one / d) 0

/-- π with 100 fraction bits. -/
def piFixed : Int := 4 * atanFixed ((2 ^ 100 : Nat) : Int)

/-- The angle of the vector (x, y) with 100 fraction bits, from −π to π; 0 for the zero vector. -/
def atan2Fixed (y x : F64) : Int :=
  let (a, b, _) := align y x
  if a = 0 && b = 0 then 0 else
  let p := a.natAbs
  let q := b.natAbs
  let one := 2 ^ 100
  let r : Int :=
    if p ≤ q then atanFixed ((p * one / q : Nat) : Int) else piFixed / 2 - atanFixed ((q * one / p : Nat) : Int)
  let r := if b < 0 then piFixed - r else r
  if a < 0 then -r else r

end F64

end Sys2Proof.Machine
end

