-- ==== Sys2Proof/Machine/RegMap.lean ====
section
/-!
DEFINITION. The register map (R42, R640): one row for every register of the spec's register tables, with its
address, its instances, its reset value (R12), its fields by access code (R13), the commit boundary of its RWS fields
(R584) and what locks its RWL fields (R16); and a name for every register and every named field.
-/
namespace Sys2Proof.Machine

/-- The commit boundaries of RWS fields (R584, and the boundaries the register tables name). -/
inductive Boundary where
  | none | tick | period | pick | vsEdge | tapFrame | planeCommit | coaxFrame | layer | layerTrd | pass | sync
  | lamp | evaluation | delayAdj
deriving DecidableEq, Repr

/-- What keeps an RWL field from being written (R16): the running of the unit named. -/
inductive Lock where
  | none | treadle | shedPass | monitor | shuttle | reedEngine | reedLoop | archive | map | wctrl | feedback | cmpOwned
  | axis | isp | camPort | i2c | tapestry | video | lamp | lampChain | lampMatrix | lampColour | bobbin | dram | lane
  | laneTest | refCfg | netPorts | timeBase | trimBase
deriving DecidableEq, Repr

/-- One row of the register map. `dims` gives the stride and the count of each instance index, outermost first. The
six masks say which bits are RW, RWS, RWL, W1C, W1S and RC; every other bit is read-only to software. -/
structure RegRow where
  name : String
  first : Nat
  dims : List (Nat × Nat)
  reset : Nat
  rw : Nat
  rws : Nat
  rwl : Nat
  w1c : Nat
  w1s : Nat
  rc : Nat
  boundary : Boundary
  lock : Lock
deriving DecidableEq, Repr

/-- A field: bits `hi` to `lo` of the register at `addr`. -/
structure Field where
  addr : Nat
  hi : Nat
  lo : Nat
deriving DecidableEq, Repr

namespace Reg

/-! ### DEV (R530) -/

abbrev DEV_ID0 : Nat := 0x0
abbrev DEV_ID0_PART : Field := ⟨DEV_ID0, 31, 16⟩
abbrev DEV_ID0_VENDOR : Field := ⟨DEV_ID0, 15, 0⟩
abbrev DEV_ID1 : Nat := 0x4
abbrev DEV_ID2 : Nat := 0x8
abbrev DEV_ID3 : Nat := 0xc
abbrev DEV_ID4 : Nat := 0x10
abbrev DEV_ID5 : Nat := 0x14
abbrev DEV_ID6 : Nat := 0x18
abbrev DEV_ID7 : Nat := 0x1c
abbrev DEV_ID7_STATE : Field := ⟨DEV_ID7, 3, 0⟩
abbrev DEV_STATE : Nat := 0x20
abbrev DEV_STATE_AUTH_OK : Field := ⟨DEV_STATE, 7, 7⟩
abbrev DEV_STATE_FLASH_SLOW : Field := ⟨DEV_STATE, 6, 6⟩
abbrev DEV_STATE_SLOT : Field := ⟨DEV_STATE, 5, 4⟩
abbrev DEV_STATE_STATE : Field := ⟨DEV_STATE, 3, 0⟩
abbrev DEV_FLAGS : Nat := 0x24
abbrev DEV_FLAGS_WRITE_LOCKED : Field := ⟨DEV_FLAGS, 3, 3⟩
abbrev DEV_FLAGS_AUTH_LOST : Field := ⟨DEV_FLAGS, 2, 2⟩
abbrev DEV_FLAGS_UPD_FAIL : Field := ⟨DEV_FLAGS, 1, 1⟩
abbrev DEV_FLAGS_IMAGE_REJECTED : Field := ⟨DEV_FLAGS, 0, 0⟩
abbrev DEV_STRAPS : Nat := 0x28
abbrev DEV_STRAPS_TESTMODE : Field := ⟨DEV_STRAPS, 8, 8⟩
abbrev DEV_STRAPS_BOARD_ID : Field := ⟨DEV_STRAPS, 7, 4⟩
abbrev DEV_STRAPS_CHAIN_HEAD : Field := ⟨DEV_STRAPS, 0, 0⟩
abbrev DEV_RESET : Nat := 0x2c
abbrev DEV_RESET_KEY : Field := ⟨DEV_RESET, 31, 16⟩
abbrev DEV_RESET_SOFT : Field := ⟨DEV_RESET, 0, 0⟩
abbrev DEV_RESET_CAUSE : Nat := 0x30
abbrev DEV_RESET_CAUSE_SOFT : Field := ⟨DEV_RESET_CAUSE, 1, 1⟩
abbrev DEV_RESET_CAUSE_PORST : Field := ⟨DEV_RESET_CAUSE, 0, 0⟩
abbrev DEV_LC : Nat := 0x34
abbrev DEV_LC_PROGRAMMED : Field := ⟨DEV_LC, 7, 4⟩
abbrev DEV_LC_IN_FORCE : Field := ⟨DEV_LC, 3, 0⟩
abbrev DEV_LC_CMD : Nat := 0x38
abbrev DEV_LC_CMD_KEY : Field := ⟨DEV_LC_CMD, 31, 16⟩
abbrev DEV_LC_CMD_TARGET : Field := ⟨DEV_LC_CMD, 3, 0⟩
abbrev DEV_FUSE_CMD : Nat := 0x3c
abbrev DEV_FUSE_CMD_KEY : Field := ⟨DEV_FUSE_CMD, 31, 16⟩
abbrev DEV_FUSE_CMD_OP : Field := ⟨DEV_FUSE_CMD, 1, 0⟩
abbrev DEV_FUSE_STAT : Nat := 0x40
abbrev DEV_FUSE_STAT_RESULT : Field := ⟨DEV_FUSE_STAT, 2, 1⟩
abbrev DEV_FUSE_STAT_BUSY : Field := ⟨DEV_FUSE_STAT, 0, 0⟩
abbrev DEV_EPOCH : Nat := 0x44
abbrev DEV_KEY_STATE : Nat := 0x48
abbrev DEV_KEY_STATE_KEY_HASH : Field := ⟨DEV_KEY_STATE, 0, 0⟩
abbrev DEV_IMG_FAIL : Nat := 0x50
abbrev DEV_UPD_BASE : Nat := 0x60
abbrev DEV_UPD_LEN : Nat := 0x64
abbrev DEV_UPD_CMD : Nat := 0x68
abbrev DEV_UPD_CMD_CMD : Field := ⟨DEV_UPD_CMD, 2, 0⟩
abbrev DEV_UPD_STAT : Nat := 0x6c
abbrev DEV_UPD_STAT_RESULT : Field := ⟨DEV_UPD_STAT, 11, 8⟩
abbrev DEV_UPD_STAT_TEMP_WAIT : Field := ⟨DEV_UPD_STAT, 4, 4⟩
abbrev DEV_UPD_STAT_BUSY : Field := ⟨DEV_UPD_STAT, 3, 3⟩
abbrev DEV_UPD_STAT_STATE : Field := ⟨DEV_UPD_STAT, 2, 0⟩
abbrev DEV_FUSE_DATA (i : Nat) : Nat := 0x80 + i * 0x4
abbrev DEV_KEY_HASH (i : Nat) : Nat := 0xc0 + i * 0x4

/-! ### CLK (R626) -/

abbrev CLK_LIVE : Nat := 0x10000
abbrev CLK_LANE_LIVE : Nat := 0x10004
abbrev CLK_PLL : Nat := 0x10008
abbrev CLK_FLAGS : Nat := 0x1000c
abbrev CLK_FLAGS_WRITE_LOCKED : Field := ⟨CLK_FLAGS, 2, 2⟩
abbrev CLK_FLAGS_PLL_LOSS : Field := ⟨CLK_FLAGS, 1, 1⟩
abbrev CLK_FLAGS_CDC_FLUSH : Field := ⟨CLK_FLAGS, 0, 0⟩
abbrev CLK_FLUSH_COUNT : Nat := 0x10010
abbrev CLK_FLUSH_LAST : Nat := 0x10014
abbrev CLK_ISL (i : Nat) : Nat := 0x10020 + i * 0x4

/-! ### EVT (R638, R588) -/

abbrev EVT_FLT_CTRL : Nat := 0x28000
abbrev EVT_FLT_CTRL_RETRY_BUDGET : Field := ⟨EVT_FLT_CTRL, 3, 0⟩
abbrev EVT_FLT_RETRY_WIN : Nat := 0x28004
abbrev EVT_FLT_RECOVER_TMO : Nat := 0x28008
abbrev EVT_FLT_STATUS : Nat := 0x2800c
abbrev EVT_FLT_STATUS_HALTED : Field := ⟨EVT_FLT_STATUS, 31, 31⟩
abbrev EVT_FLT_STATUS_QDEPTH : Field := ⟨EVT_FLT_STATUS, 20, 16⟩
abbrev EVT_FLT_STATUS_CODE : Field := ⟨EVT_FLT_STATUS, 15, 8⟩
abbrev EVT_FLT_STATUS_BUSY : Field := ⟨EVT_FLT_STATUS, 2, 2⟩
abbrev EVT_FLT_STATUS_SEV : Field := ⟨EVT_FLT_STATUS, 1, 0⟩
abbrev EVT_FLT_FLAGS : Nat := 0x28010
abbrev EVT_FLT_FLAGS_WRITE_LOCKED : Field := ⟨EVT_FLT_FLAGS, 5, 5⟩
abbrev EVT_FLT_FLAGS_GATE_LOW : Field := ⟨EVT_FLT_FLAGS, 4, 4⟩
abbrev EVT_FLT_FLAGS_HALT : Field := ⟨EVT_FLT_FLAGS, 3, 3⟩
abbrev EVT_FLT_FLAGS_RETIRE : Field := ⟨EVT_FLT_FLAGS, 2, 2⟩
abbrev EVT_FLT_FLAGS_ESCALATED : Field := ⟨EVT_FLT_FLAGS, 1, 1⟩
abbrev EVT_FLT_FLAGS_QFULL : Field := ⟨EVT_FLT_FLAGS, 0, 0⟩
abbrev EVT_FLT_RETIRED : Nat := 0x28014
abbrev EVT_FLT_ARG : Nat := 0x28018
abbrev EVT_FLT_CMD : Nat := 0x2801c
abbrev EVT_FLT_CMD_KEY : Field := ⟨EVT_FLT_CMD, 31, 16⟩
abbrev EVT_FLT_GATE : Nat := 0x28020
abbrev EVT_FLT_GATE_EMIT_OK : Field := ⟨EVT_FLT_GATE, 9, 9⟩
abbrev EVT_FLT_GATE_PIN_LOW : Field := ⟨EVT_FLT_GATE, 8, 8⟩
abbrev EVT_FLT_GATE_SW_GATE : Field := ⟨EVT_FLT_GATE, 0, 0⟩
abbrev EVT_FLT_LAST : Nat := 0x28024
abbrev EVT_FLT_LAST_SEC : Nat := 0x28028
abbrev EVT_FLT_LAST_NS : Nat := 0x2802c
abbrev EVT_FLT_QFULL : Nat := 0x28030
abbrev EVT_FLT_RETRIES (i : Nat) : Nat := 0x28100 + i * 0x4
abbrev EVT_FLT_COUNT (i : Nat) : Nat := 0x28400 + i * 0x4
abbrev EVT_CTRL : Nat := 0x20000
abbrev EVT_CTRL_IRQ_EN : Field := ⟨EVT_CTRL, 0, 0⟩
abbrev EVT_STATUS : Nat := 0x20004
abbrev EVT_STATUS_IRQ : Field := ⟨EVT_STATUS, 11, 8⟩
abbrev EVT_FLAGS : Nat := 0x20008
abbrev EVT_FLAGS_REACT_IGNORED : Field := ⟨EVT_FLAGS, 1, 1⟩
abbrev EVT_FLAGS_FRAME_OVF : Field := ⟨EVT_FLAGS, 0, 0⟩
abbrev EVT_IRQ_CFG : Nat := 0x2000c
abbrev EVT_IRQ_CFG_POL : Field := ⟨EVT_IRQ_CFG, 3, 0⟩
abbrev EVT_FRAME_CFG : Nat := 0x20010
abbrev EVT_FRAME_CFG_WIN : Field := ⟨EVT_FRAME_CFG, 31, 16⟩
abbrev EVT_REACTIONS : Nat := 0x20014
abbrev EVT_LAST : Nat := 0x20018
abbrev EVT_PEND (i : Nat) : Nat := 0x20020 + i * 0x4
abbrev EVT_CFG (i : Nat) : Nat := 0x20400 + i * 0x4
abbrev EVT_CFG_REACT (i : Nat) : Field := ⟨(EVT_CFG i), 10, 8⟩
abbrev EVT_CFG_LOG (i : Nat) : Field := ⟨(EVT_CFG i), 5, 5⟩
abbrev EVT_CFG_FRAME (i : Nat) : Field := ⟨(EVT_CFG i), 4, 4⟩
abbrev EVT_CFG_IRQ (i : Nat) : Field := ⟨(EVT_CFG i), 3, 0⟩
abbrev EVT_COUNT (i : Nat) : Nat := 0x20800 + i * 0x4

/-! ### CRL (R425) -/

abbrev CRL_CTRL : Nat := 0x30000
abbrev CRL_CTRL_SCRUB_EN : Field := ⟨CRL_CTRL, 0, 0⟩
abbrev CRL_STATUS : Nat := 0x30004
abbrev CRL_FLAGS : Nat := 0x30008
abbrev CRL_FLAGS_WRITE_LOCKED : Field := ⟨CRL_FLAGS, 6, 6⟩
abbrev CRL_FLAGS_SCRUB_LATE : Field := ⟨CRL_FLAGS, 5, 5⟩
abbrev CRL_FLAGS_CFG_ERR : Field := ⟨CRL_FLAGS, 4, 4⟩
abbrev CRL_FLAGS_DENIED : Field := ⟨CRL_FLAGS, 3, 3⟩
abbrev CRL_FLAGS_LOST : Field := ⟨CRL_FLAGS, 2, 2⟩
abbrev CRL_FLAGS_UE : Field := ⟨CRL_FLAGS, 1, 1⟩
abbrev CRL_FLAGS_CE : Field := ⟨CRL_FLAGS, 0, 0⟩
abbrev CRL_SCRUB_INT : Nat := 0x3000c
abbrev CRL_SCRUB_PASSES : Nat := 0x30010
abbrev CRL_SCRUB_LATE : Nat := 0x30014
abbrev CRL_CE_COUNT : Nat := 0x30018
abbrev CRL_UE_COUNT : Nat := 0x3001c
abbrev CRL_ERR_ADDR : Nat := 0x30020
abbrev CRL_ERR_ADDR_UE : Field := ⟨CRL_ERR_ADDR, 31, 31⟩
abbrev CRL_WRITE_LOST : Nat := 0x30024
abbrev CRL_LOST_INFO : Nat := 0x30028
abbrev CRL_LOST_ADDR : Nat := 0x3002c
abbrev CRL_ALIAS_DENIED : Nat := 0x30030
abbrev CRL_EVT_BOBBIN : Nat := 0x30034
abbrev CRL_CONFLICT (i : Nat) : Nat := 0x30080 + i * 0x8
abbrev CRL_WAITMAX (i : Nat) : Nat := 0x30084 + i * 0x8
abbrev CRLB_CFG (i : Nat) : Nat := 0x31000 + i * 0x40
abbrev CRLB_CFG_CONSUMER (i : Nat) : Field := ⟨(CRLB_CFG i), 19, 16⟩
abbrev CRLB_CFG_PRODUCER (i : Nat) : Field := ⟨(CRLB_CFG i), 15, 12⟩
abbrev CRLB_CFG_WM_EVT (i : Nat) : Field := ⟨(CRLB_CFG i), 10, 10⟩
abbrev CRLB_CFG_PANIC_SIDE (i : Nat) : Field := ⟨(CRLB_CFG i), 9, 8⟩
abbrev CRLB_CFG_PANIC_EN (i : Nat) : Field := ⟨(CRLB_CFG i), 7, 7⟩
abbrev CRLB_CFG_FULL (i : Nat) : Field := ⟨(CRLB_CFG i), 5, 4⟩
abbrev CRLB_CFG_MODE (i : Nat) : Field := ⟨(CRLB_CFG i), 1, 1⟩
abbrev CRLB_CFG_EN (i : Nat) : Field := ⟨(CRLB_CFG i), 0, 0⟩
abbrev CRLB_BASE (i : Nat) : Nat := 0x31004 + i * 0x40
abbrev CRLB_SIZE (i : Nat) : Nat := 0x31008 + i * 0x40
abbrev CRLB_WR (i : Nat) : Nat := 0x3100c + i * 0x40
abbrev CRLB_WR_WR (i : Nat) : Field := ⟨(CRLB_WR i), 20, 0⟩
abbrev CRLB_RD (i : Nat) : Nat := 0x31010 + i * 0x40
abbrev CRLB_RD_RD (i : Nat) : Field := ⟨(CRLB_RD i), 20, 0⟩
abbrev CRLB_FILL (i : Nat) : Nat := 0x31014 + i * 0x40
abbrev CRLB_FILL_FILL (i : Nat) : Field := ⟨(CRLB_FILL i), 20, 0⟩
abbrev CRLB_HI (i : Nat) : Nat := 0x31018 + i * 0x40
abbrev CRLB_HI_HI (i : Nat) : Field := ⟨(CRLB_HI i), 19, 0⟩
abbrev CRLB_LO (i : Nat) : Nat := 0x3101c + i * 0x40
abbrev CRLB_LO_LO (i : Nat) : Field := ⟨(CRLB_LO i), 19, 0⟩
abbrev CRLB_PANIC (i : Nat) : Nat := 0x31020 + i * 0x40
abbrev CRLB_PANIC_PANIC_OFF (i : Nat) : Field := ⟨(CRLB_PANIC i), 31, 16⟩
abbrev CRLB_PANIC_PANIC_ON (i : Nat) : Field := ⟨(CRLB_PANIC i), 15, 0⟩
abbrev CRLB_STATUS (i : Nat) : Nat := 0x31024 + i * 0x40
abbrev CRLB_STATUS_PANIC (i : Nat) : Field := ⟨(CRLB_STATUS i), 5, 5⟩
abbrev CRLB_STATUS_OPEN (i : Nat) : Field := ⟨(CRLB_STATUS i), 4, 4⟩
abbrev CRLB_STATUS_PANIC_SEEN (i : Nat) : Field := ⟨(CRLB_STATUS i), 3, 3⟩
abbrev CRLB_STATUS_UNF (i : Nat) : Field := ⟨(CRLB_STATUS i), 2, 2⟩
abbrev CRLB_STATUS_OVF (i : Nat) : Field := ⟨(CRLB_STATUS i), 1, 1⟩
abbrev CRLB_STATUS_WM (i : Nat) : Field := ⟨(CRLB_STATUS i), 0, 0⟩
abbrev CRLB_OVF (i : Nat) : Nat := 0x31028 + i * 0x40
abbrev CRLB_UNF (i : Nat) : Nat := 0x3102c + i * 0x40

/-! ### DRC (R447) -/

abbrev DRC_CTRL : Nat := 0x40000
abbrev DRC_CTRL_RANKS : Field := ⟨DRC_CTRL, 5, 5⟩
abbrev DRC_CTRL_WIDTH : Field := ⟨DRC_CTRL, 4, 4⟩
abbrev DRC_CTRL_DENSITY : Field := ⟨DRC_CTRL, 3, 2⟩
abbrev DRC_CTRL_CH1_EN : Field := ⟨DRC_CTRL, 1, 1⟩
abbrev DRC_CTRL_ENABLE : Field := ⟨DRC_CTRL, 0, 0⟩
abbrev DRC_OPT : Nat := 0x40004
abbrev DRC_OPT_RETRAIN_EN : Field := ⟨DRC_OPT, 2, 2⟩
abbrev DRC_OPT_SR_EN : Field := ⟨DRC_OPT, 1, 1⟩
abbrev DRC_OPT_SCRUB_EN : Field := ⟨DRC_OPT, 0, 0⟩
abbrev DRC_STATUS : Nat := 0x40008
abbrev DRC_STATUS_PANIC : Field := ⟨DRC_STATUS, 10, 10⟩
abbrev DRC_STATUS_TRAINED1 : Field := ⟨DRC_STATUS, 9, 9⟩
abbrev DRC_STATUS_TRAINED0 : Field := ⟨DRC_STATUS, 8, 8⟩
abbrev DRC_STATUS_FREQ_PEND : Field := ⟨DRC_STATUS, 7, 7⟩
abbrev DRC_STATUS_SP : Field := ⟨DRC_STATUS, 6, 6⟩
abbrev DRC_STATUS_STEP : Field := ⟨DRC_STATUS, 5, 3⟩
abbrev DRC_STATUS_STATE : Field := ⟨DRC_STATUS, 2, 0⟩
abbrev DRC_FLAGS : Nat := 0x4000c
abbrev DRC_FLAGS_WRITE_LOCKED : Field := ⟨DRC_FLAGS, 6, 6⟩
abbrev DRC_FLAGS_PANIC_LONG : Field := ⟨DRC_FLAGS, 5, 5⟩
abbrev DRC_FLAGS_DRIFT : Field := ⟨DRC_FLAGS, 4, 4⟩
abbrev DRC_FLAGS_MARK : Field := ⟨DRC_FLAGS, 3, 3⟩
abbrev DRC_FLAGS_ADDR_ERR : Field := ⟨DRC_FLAGS, 2, 2⟩
abbrev DRC_FLAGS_UE : Field := ⟨DRC_FLAGS, 1, 1⟩
abbrev DRC_FLAGS_CE : Field := ⟨DRC_FLAGS, 0, 0⟩
abbrev DRC_CAP : Nat := 0x40010
abbrev DRC_SP0 : Nat := 0x40014
abbrev DRC_SP1 : Nat := 0x40018
abbrev DRC_FREQ : Nat := 0x4001c
abbrev DRC_FREQ_TARGET : Field := ⟨DRC_FREQ, 0, 0⟩
abbrev DRC_SR_IDLE : Nat := 0x40020
abbrev DRC_SHARE : Nat := 0x40024
abbrev DRC_SHARE_THR_SHARE : Field := ⟨DRC_SHARE, 15, 8⟩
abbrev DRC_SHARE_NRT_SHARE : Field := ⟨DRC_SHARE, 7, 0⟩
abbrev DRC_WQ : Nat := 0x40028
abbrev DRC_WQ_WQ_HI : Field := ⟨DRC_WQ, 15, 8⟩
abbrev DRC_WQ_WQ_LO : Field := ⟨DRC_WQ, 7, 0⟩
abbrev DRC_SCRUB_INT : Nat := 0x4002c
abbrev DRC_PANIC_MAX : Nat := 0x40030
abbrev DRC_OSC_INT : Nat := 0x40034
abbrev DRC_DRIFT_LIM : Nat := 0x40038
abbrev DRC_MARK_THR : Nat := 0x4003c
abbrev DRC_ERR_ADDR_LO : Nat := 0x40040
abbrev DRC_ERR_ADDR_HI : Nat := 0x40044
abbrev DRC_ERR_INFO : Nat := 0x40048
abbrev DRC_ERR_INFO_UE : Field := ⟨DRC_ERR_INFO, 6, 6⟩
abbrev DRCC_CE (i : Nat) : Nat := 0x40100 + i * 0x80
abbrev DRCC_UE (i : Nat) : Nat := 0x40104 + i * 0x80
abbrev DRCC_MARK (i : Nat) : Nat := 0x40108 + i * 0x80
abbrev DRCC_SCRUB_PASSES (i : Nat) : Nat := 0x4010c + i * 0x80
abbrev DRCC_OSC0 (i : Nat) : Nat := 0x40110 + i * 0x80
abbrev DRCC_OSC1 (i : Nat) : Nat := 0x40114 + i * 0x80
abbrev DRCC_MR4 (i : Nat) : Nat := 0x40118 + i * 0x80
abbrev DRCC_PANIC_US (i : Nat) : Nat := 0x4011c + i * 0x80
abbrev DRCC_SR_ENTRIES (i : Nat) : Nat := 0x40120 + i * 0x80
abbrev DRCC_RETRAINS (i : Nat) : Nat := 0x40124 + i * 0x80

/-! ### LNK (R472, R473, R278) -/

abbrev LNK_WCTRL (i : Nat) : Nat := 0x58000 + i * 0x100
abbrev LNK_WCTRL_REQ_HOLD (i : Nat) : Field := ⟨(LNK_WCTRL i), 4, 4⟩
abbrev LNK_WCTRL_REQ_Z (i : Nat) : Field := ⟨(LNK_WCTRL i), 3, 3⟩
abbrev LNK_WCTRL_REQ_COAX (i : Nat) : Field := ⟨(LNK_WCTRL i), 2, 2⟩
abbrev LNK_WCTRL_REQ_PYRO (i : Nat) : Field := ⟨(LNK_WCTRL i), 1, 1⟩
abbrev LNK_WCTRL_EN (i : Nat) : Field := ⟨(LNK_WCTRL i), 0, 0⟩
abbrev LNK_WSTATE (i : Nat) : Nat := 0x58004 + i * 0x100
abbrev LNK_WSTATE_ALIGNED (i : Nat) : Field := ⟨(LNK_WSTATE i), 3, 3⟩
abbrev LNK_WSTATE_STATE (i : Nat) : Field := ⟨(LNK_WSTATE i), 2, 0⟩
abbrev LNK_WFLAGS (i : Nat) : Nat := 0x58008 + i * 0x100
abbrev LNK_WFLAGS_WRITE_LOCKED (i : Nat) : Field := ⟨(LNK_WFLAGS i), 7, 7⟩
abbrev LNK_WFLAGS_INTERLOCK (i : Nat) : Field := ⟨(LNK_WFLAGS i), 6, 6⟩
abbrev LNK_WFLAGS_STN_FAULT (i : Nat) : Field := ⟨(LNK_WFLAGS i), 5, 5⟩
abbrev LNK_WFLAGS_IDENT (i : Nat) : Field := ⟨(LNK_WFLAGS i), 4, 4⟩
abbrev LNK_WFLAGS_DELAY_SHIFT (i : Nat) : Field := ⟨(LNK_WFLAGS i), 3, 3⟩
abbrev LNK_WFLAGS_DELAY (i : Nat) : Field := ⟨(LNK_WFLAGS i), 2, 2⟩
abbrev LNK_WFLAGS_ALIGN_LOSS (i : Nat) : Field := ⟨(LNK_WFLAGS i), 1, 1⟩
abbrev LNK_WFLAGS_BAD_SLOT (i : Nat) : Field := ⟨(LNK_WFLAGS i), 0, 0⟩
abbrev LNK_RTT (i : Nat) : Nat := 0x5800c + i * 0x100
abbrev LNK_DDOWN (i : Nat) : Nat := 0x58010 + i * 0x100
abbrev LNK_DDOWN_D_DOWN (i : Nat) : Field := ⟨(LNK_DDOWN i), 15, 0⟩
abbrev LNK_DELAY_ADJ (i : Nat) : Nat := 0x58014 + i * 0x100
abbrev LNK_COAX_CFG (i : Nat) : Nat := 0x58018 + i * 0x100
abbrev LNK_COAX_CFG_EXPOSURE (i : Nat) : Field := ⟨(LNK_COAX_CFG i), 31, 16⟩
abbrev LNK_COAX_CFG_INTERVAL (i : Nat) : Field := ⟨(LNK_COAX_CFG i), 15, 0⟩
abbrev LNK_EVT_OUT (i : Nat) : Nat := 0x5801c + i * 0x100
abbrev LNK_EVT_OUT_EVT (i : Nat) : Field := ⟨(LNK_EVT_OUT i), 7, 0⟩
abbrev LNK_SVC_ADDR (i : Nat) : Nat := 0x58020 + i * 0x100
abbrev LNK_SVC_WDATA (i : Nat) : Nat := 0x58024 + i * 0x100
abbrev LNK_SVC_CMD (i : Nat) : Nat := 0x58028 + i * 0x100
abbrev LNK_SVC_STAT (i : Nat) : Nat := 0x5802c + i * 0x100
abbrev LNK_SVC_STAT_RESULT (i : Nat) : Field := ⟨(LNK_SVC_STAT i), 2, 1⟩
abbrev LNK_SVC_STAT_BUSY (i : Nat) : Field := ⟨(LNK_SVC_STAT i), 0, 0⟩
abbrev LNK_SVC_RDATA (i : Nat) : Nat := 0x58030 + i * 0x100
abbrev LNK_BAD_UP (i : Nat) : Nat := 0x58034 + i * 0x100
abbrev LNK_BAD_DOWN (i : Nat) : Nat := 0x58038 + i * 0x100
abbrev LNK_ALIGN_LOSS (i : Nat) : Nat := 0x5803c + i * 0x100
abbrev LNK_COAX_SKIP (i : Nat) : Nat := 0x58040 + i * 0x100
abbrev LNK_FRAME_NO (i : Nat) : Nat := 0x58044 + i * 0x100
abbrev LNK_IDENT (i j : Nat) : Nat := 0x58080 + i * 0x100 + j * 0x4
abbrev LNK_REF_CFG : Nat := 0x50000
abbrev LNK_REF_CFG_REFOUT1_SSC : Field := ⟨LNK_REF_CFG, 4, 4⟩
abbrev LNK_REF_CFG_REFOUT0_SSC : Field := ⟨LNK_REF_CFG, 3, 3⟩
abbrev LNK_REF_CFG_REFOUT1_EN : Field := ⟨LNK_REF_CFG, 2, 2⟩
abbrev LNK_REF_CFG_REFOUT0_EN : Field := ⟨LNK_REF_CFG, 1, 1⟩
abbrev LNK_REF_CFG_SSC_EN : Field := ⟨LNK_REF_CFG, 0, 0⟩
abbrev LNK_STATUS : Nat := 0x50004
abbrev LNK_STATUS_SSC_ACTIVE : Field := ⟨LNK_STATUS, 2, 2⟩
abbrev LNK_STATUS_C_PLL_LOCK : Field := ⟨LNK_STATUS, 1, 1⟩
abbrev LNK_STATUS_S_PLL_LOCK : Field := ⟨LNK_STATUS, 0, 0⟩
abbrev LNK_LOCKED : Nat := 0x50008
abbrev LNK_FLAGS : Nat := 0x5000c
abbrev LNK_FLAGS_WRITE_LOCKED : Field := ⟨LNK_FLAGS, 2, 2⟩
abbrev LNK_FLAGS_C_PLL_LOSS : Field := ⟨LNK_FLAGS, 1, 1⟩
abbrev LNK_FLAGS_S_PLL_LOSS : Field := ⟨LNK_FLAGS, 0, 0⟩
abbrev LANE_CTRL (i : Nat) : Nat := 0x50100 + i * 0x100
abbrev LANE_CTRL_ADAPT_FREEZE (i : Nat) : Field := ⟨(LANE_CTRL i), 16, 16⟩
abbrev LANE_CTRL_LOCK_LOSS (i : Nat) : Field := ⟨(LANE_CTRL i), 12, 8⟩
abbrev LANE_CTRL_LOOP (i : Nat) : Field := ⟨(LANE_CTRL i), 5, 4⟩
abbrev LANE_CTRL_RX_INV (i : Nat) : Field := ⟨(LANE_CTRL i), 2, 2⟩
abbrev LANE_CTRL_TX_INV (i : Nat) : Field := ⟨(LANE_CTRL i), 1, 1⟩
abbrev LANE_CTRL_EN (i : Nat) : Field := ⟨(LANE_CTRL i), 0, 0⟩
abbrev LANE_STATE (i : Nat) : Nat := 0x50104 + i * 0x100
abbrev LANE_STATE_TEST (i : Nat) : Field := ⟨(LANE_STATE i), 8, 8⟩
abbrev LANE_STATE_HI_BER (i : Nat) : Field := ⟨(LANE_STATE i), 4, 4⟩
abbrev LANE_STATE_SIGNAL (i : Nat) : Field := ⟨(LANE_STATE i), 3, 3⟩
abbrev LANE_STATE_STATE (i : Nat) : Field := ⟨(LANE_STATE i), 2, 0⟩
abbrev LANE_FLAGS (i : Nat) : Nat := 0x50108 + i * 0x100
abbrev LANE_FLAGS_WRITE_LOCKED (i : Nat) : Field := ⟨(LANE_FLAGS i), 5, 5⟩
abbrev LANE_FLAGS_SCAN_DONE (i : Nat) : Field := ⟨(LANE_FLAGS i), 4, 4⟩
abbrev LANE_FLAGS_PRBS_ERR (i : Nat) : Field := ⟨(LANE_FLAGS i), 3, 3⟩
abbrev LANE_FLAGS_HI_BER (i : Nat) : Field := ⟨(LANE_FLAGS i), 2, 2⟩
abbrev LANE_FLAGS_SIG_LOSS (i : Nat) : Field := ⟨(LANE_FLAGS i), 1, 1⟩
abbrev LANE_FLAGS_LOCK_LOSS (i : Nat) : Field := ⟨(LANE_FLAGS i), 0, 0⟩
abbrev LANE_TX (i : Nat) : Nat := 0x5010c + i * 0x100
abbrev LANE_TX_MAIN (i : Nat) : Field := ⟨(LANE_TX i), 21, 16⟩
abbrev LANE_TX_POST (i : Nat) : Field := ⟨(LANE_TX i), 12, 8⟩
abbrev LANE_TX_PRE (i : Nat) : Field := ⟨(LANE_TX i), 3, 0⟩
abbrev LANE_RX_EQ (i : Nat) : Nat := 0x50110 + i * 0x100
abbrev LANE_RX_EQ_DFE (i : Nat) : Field := ⟨(LANE_RX_EQ i), 29, 0⟩
abbrev LANE_RX_CTLE (i : Nat) : Nat := 0x50114 + i * 0x100
abbrev LANE_RX_CTLE_CTLE (i : Nat) : Field := ⟨(LANE_RX_CTLE i), 4, 0⟩
abbrev LANE_SH_ERR (i : Nat) : Nat := 0x50118 + i * 0x100
abbrev LANE_LOCKS (i : Nat) : Nat := 0x5011c + i * 0x100
abbrev LANE_LOCK_TIME (i : Nat) : Nat := 0x50120 + i * 0x100
abbrev LANE_HIBER (i : Nat) : Nat := 0x50124 + i * 0x100
abbrev LANE_SCAN_CFG (i : Nat) : Nat := 0x50140 + i * 0x100
abbrev LANE_SCAN_CFG_DWELL (i : Nat) : Field := ⟨(LANE_SCAN_CFG i), 5, 0⟩
abbrev LANE_SCAN_CMD (i : Nat) : Nat := 0x50144 + i * 0x100
abbrev LANE_SCAN_CMD_STOP (i : Nat) : Field := ⟨(LANE_SCAN_CMD i), 1, 1⟩
abbrev LANE_SCAN_CMD_START (i : Nat) : Field := ⟨(LANE_SCAN_CMD i), 0, 0⟩
abbrev LANE_SCAN_STAT (i : Nat) : Nat := 0x50148 + i * 0x100
abbrev LANE_SCAN_STAT_ABORTED (i : Nat) : Field := ⟨(LANE_SCAN_STAT i), 2, 2⟩
abbrev LANE_SCAN_STAT_DONE (i : Nat) : Field := ⟨(LANE_SCAN_STAT i), 1, 1⟩
abbrev LANE_SCAN_STAT_BUSY (i : Nat) : Field := ⟨(LANE_SCAN_STAT i), 0, 0⟩
abbrev LANE_SCAN_ERR (i : Nat) : Nat := 0x5014c + i * 0x100
abbrev LANE_SCAN_BITS_LO (i : Nat) : Nat := 0x50150 + i * 0x100
abbrev LANE_SCAN_BITS_HI (i : Nat) : Nat := 0x50154 + i * 0x100
abbrev LANE_TEST (i : Nat) : Nat := 0x50160 + i * 0x100
abbrev LANE_TEST_GEN_INV (i : Nat) : Field := ⟨(LANE_TEST i), 5, 5⟩
abbrev LANE_TEST_CODED (i : Nat) : Field := ⟨(LANE_TEST i), 4, 4⟩
abbrev LANE_TEST_PATTERN (i : Nat) : Field := ⟨(LANE_TEST i), 3, 2⟩
abbrev LANE_TEST_CHK_EN (i : Nat) : Field := ⟨(LANE_TEST i), 1, 1⟩
abbrev LANE_TEST_GEN_EN (i : Nat) : Field := ⟨(LANE_TEST i), 0, 0⟩
abbrev LANE_INJECT (i : Nat) : Nat := 0x50164 + i * 0x100
abbrev LANE_INJECT_LEN (i : Nat) : Field := ⟨(LANE_INJECT i), 13, 8⟩
abbrev LANE_INJECT_KIND (i : Nat) : Field := ⟨(LANE_INJECT i), 1, 0⟩
abbrev LANE_PRBS_STAT (i : Nat) : Nat := 0x50168 + i * 0x100
abbrev LANE_PRBS_STAT_INJ_PEND (i : Nat) : Field := ⟨(LANE_PRBS_STAT i), 1, 1⟩
abbrev LANE_PRBS_STAT_CHK_LOCK (i : Nat) : Field := ⟨(LANE_PRBS_STAT i), 0, 0⟩
abbrev LANE_PRBS_ERR (i : Nat) : Nat := 0x5016c + i * 0x100
abbrev LANE_PRBS_BITS_LO (i : Nat) : Nat := 0x50170 + i * 0x100
abbrev LANE_PRBS_BITS_HI (i : Nat) : Nat := 0x50174 + i * 0x100
abbrev LANE_INJ_COUNT (i : Nat) : Nat := 0x50178 + i * 0x100

/-! ### NET (R506 to R508) -/

abbrev NET_CTRL : Nat := 0x60000
abbrev NET_CTRL_PAUSE_EN : Field := ⟨NET_CTRL, 4, 4⟩
abbrev NET_CTRL_RING_EN : Field := ⟨NET_CTRL, 3, 3⟩
abbrev NET_CTRL_FWD_OTHER : Field := ⟨NET_CTRL, 2, 2⟩
abbrev NET_CTRL_N1_EN : Field := ⟨NET_CTRL, 1, 1⟩
abbrev NET_CTRL_N0_EN : Field := ⟨NET_CTRL, 0, 0⟩
abbrev NET_STATUS : Nat := 0x60004
abbrev NET_STATUS_N0 : Field := ⟨NET_STATUS, 12, 12⟩
abbrev NET_STATUS_N1 : Field := ⟨NET_STATUS, 11, 11⟩
abbrev NET_STATUS_REVERSED : Field := ⟨NET_STATUS, 10, 10⟩
abbrev NET_STATUS_RING : Field := ⟨NET_STATUS, 9, 9⟩
abbrev NET_STATUS_TAIL : Field := ⟨NET_STATUS, 8, 8⟩
abbrev NET_STATUS_HEAD : Field := ⟨NET_STATUS, 7, 7⟩
abbrev NET_STATUS_ADDR_VALID : Field := ⟨NET_STATUS, 5, 5⟩
abbrev NET_STATUS_ADDR : Field := ⟨NET_STATUS, 4, 0⟩
abbrev NET_FLAGS : Nat := 0x60008
abbrev NET_FLAGS_WRITE_LOCKED : Field := ⟨NET_FLAGS, 5, 5⟩
abbrev NET_FLAGS_PPS_LOST : Field := ⟨NET_FLAGS, 4, 4⟩
abbrev NET_FLAGS_TL_FULL : Field := ⟨NET_FLAGS, 3, 3⟩
abbrev NET_FLAGS_DROP : Field := ⟨NET_FLAGS, 2, 2⟩
abbrev NET_FLAGS_RING_BREAK : Field := ⟨NET_FLAGS, 1, 1⟩
abbrev NET_FLAGS_ENUM_CONFLICT : Field := ⟨NET_FLAGS, 0, 0⟩
abbrev NET_ETYPE : Nat := 0x6000c
abbrev NET_MAC_LO : Nat := 0x60010
abbrev NET_MAC_HI : Nat := 0x60014
abbrev NET_PPS_OUT : Nat := 0x60018
abbrev NET_PPS_OUT_PPS_WIDTH : Field := ⟨NET_PPS_OUT, 31, 16⟩
abbrev NET_PPS_OUT_PPS_OUT_EN : Field := ⟨NET_PPS_OUT, 2, 2⟩
abbrev NET_PPS_OFFSET : Nat := 0x6001c
abbrev NET_PPS_OFFSET_PPS_OFFSET : Field := ⟨NET_PPS_OFFSET, 29, 0⟩
abbrev NET_PPS_IN : Nat := 0x60020
abbrev NET_PPS_IN_POL : Field := ⟨NET_PPS_IN, 3, 3⟩
abbrev NET_PPS_IN_PPS_IN_EN : Field := ⟨NET_PPS_IN, 2, 2⟩
abbrev NET_PPS_IN_SEC : Nat := 0x60024
abbrev NET_PPS_IN_NS : Nat := 0x60028
abbrev NETP_ING_LAT (i : Nat) : Nat := 0x61000 + i * 0x100
abbrev NETP_EGR_LAT (i : Nat) : Nat := 0x61004 + i * 0x100
abbrev NETP_STATUS (i : Nat) : Nat := 0x61008 + i * 0x100
abbrev NETP_STATUS_UPSTREAM (i : Nat) : Field := ⟨(NETP_STATUS i), 4, 4⟩
abbrev NETP_STATUS_STANDBY (i : Nat) : Field := ⟨(NETP_STATUS i), 3, 3⟩
abbrev NETP_STATUS_PAUSING (i : Nat) : Field := ⟨(NETP_STATUS i), 2, 2⟩
abbrev NETP_STATUS_PAUSED (i : Nat) : Field := ⟨(NETP_STATUS i), 1, 1⟩
abbrev NETP_STATUS_UP (i : Nat) : Field := ⟨(NETP_STATUS i), 0, 0⟩
abbrev NETP_RX_FRAMES (i : Nat) : Nat := 0x6100c + i * 0x100
abbrev NETP_TX_FRAMES (i : Nat) : Nat := 0x61010 + i * 0x100
abbrev NETP_RX_DROPS (i : Nat) : Nat := 0x61014 + i * 0x100
abbrev NETP_FWD_DROPS (i : Nat) : Nat := 0x61018 + i * 0x100
abbrev NETP_PTP_CORR (i : Nat) : Nat := 0x6101c + i * 0x100
abbrev NETP_RES_MAX (i : Nat) : Nat := 0x61020 + i * 0x100
abbrev NETP_TL_ADDR (i : Nat) : Nat := 0x61040 + i * 0x100
abbrev NETP_TL_LEN (i : Nat) : Nat := 0x61044 + i * 0x100
abbrev NETP_TL_NS (i : Nat) : Nat := 0x61048 + i * 0x100
abbrev NETP_TL_SEC (i : Nat) : Nat := 0x6104c + i * 0x100
abbrev NETP_TL_CMD (i : Nat) : Nat := 0x61050 + i * 0x100
abbrev NETP_TL_CMD_DROP_LATE (i : Nat) : Field := ⟨(NETP_TL_CMD i), 8, 8⟩
abbrev NETP_TL_CMD_FLUSH (i : Nat) : Field := ⟨(NETP_TL_CMD i), 1, 1⟩
abbrev NETP_TL_CMD_QUEUE (i : Nat) : Field := ⟨(NETP_TL_CMD i), 0, 0⟩
abbrev NETP_TL_STAT (i : Nat) : Nat := 0x61054 + i * 0x100
abbrev NETP_TL_LATE (i : Nat) : Nat := 0x61058 + i * 0x100
abbrev NETT_CTRL (i : Nat) : Nat := 0x62000 + i * 0x100
abbrev NETT_CTRL_DOMAIN (i : Nat) : Field := ⟨(NETT_CTRL i), 15, 8⟩
abbrev NETT_CTRL_STEP_AUTO (i : Nat) : Field := ⟨(NETT_CTRL i), 3, 3⟩
abbrev NETT_CTRL_SRC (i : Nat) : Field := ⟨(NETT_CTRL i), 2, 1⟩
abbrev NETT_CTRL_EN (i : Nat) : Field := ⟨(NETT_CTRL i), 0, 0⟩
abbrev NETT_STATE (i : Nat) : Nat := 0x62004 + i * 0x100
abbrev NETT_CAPTURE (i : Nat) : Nat := 0x62008 + i * 0x100
abbrev NETT_SEC_LO (i : Nat) : Nat := 0x6200c + i * 0x100
abbrev NETT_SEC_HI (i : Nat) : Nat := 0x62010 + i * 0x100
abbrev NETT_NS (i : Nat) : Nat := 0x62014 + i * 0x100
abbrev NETT_FRAC (i : Nat) : Nat := 0x62018 + i * 0x100
abbrev NETT_RATE (i : Nat) : Nat := 0x6201c + i * 0x100
abbrev NETT_OFFSET (i : Nat) : Nat := 0x62020 + i * 0x100
abbrev NETT_MPD (i : Nat) : Nat := 0x62024 + i * 0x100
abbrev NETT_STEP_NS (i : Nat) : Nat := 0x62028 + i * 0x100
abbrev NETT_STEP_SEC_LO (i : Nat) : Nat := 0x6202c + i * 0x100
abbrev NETT_STEP_SEC_HI (i : Nat) : Nat := 0x62030 + i * 0x100
abbrev NETT_STEP_CMD (i : Nat) : Nat := 0x62034 + i * 0x100
abbrev NETT_SERVO (i : Nat) : Nat := 0x62038 + i * 0x100
abbrev NETT_SERVO_KI (i : Nat) : Field := ⟨(NETT_SERVO i), 31, 16⟩
abbrev NETT_SERVO_KP (i : Nat) : Field := ⟨(NETT_SERVO i), 15, 0⟩
abbrev NETT_LOCK_THR (i : Nat) : Nat := 0x6203c + i * 0x100
abbrev NETT_STEP_THR (i : Nat) : Nat := 0x62040 + i * 0x100
abbrev NETT_MASTER_LO (i : Nat) : Nat := 0x62044 + i * 0x100
abbrev NETT_MASTER_HI (i : Nat) : Nat := 0x62048 + i * 0x100
abbrev NETT_SYNCS (i : Nat) : Nat := 0x6204c + i * 0x100

/-! ### SHD (R126) -/

abbrev SHD_CTRL : Nat := 0x70000
abbrev SHD_CTRL_PLUME_EN : Field := ⟨SHD_CTRL, 4, 4⟩
abbrev SHD_CTRL_INTERLACE_EN : Field := ⟨SHD_CTRL, 3, 3⟩
abbrev SHD_CTRL_OWN_TAKEOVER : Field := ⟨SHD_CTRL, 2, 2⟩
abbrev SHD_CTRL_SEL_ORDER : Field := ⟨SHD_CTRL, 1, 1⟩
abbrev SHD_CTRL_ENABLE : Field := ⟨SHD_CTRL, 0, 0⟩
abbrev SHD_STATUS : Nat := 0x70004
abbrev SHD_STATUS_SLOT : Field := ⟨SHD_STATUS, 5, 4⟩
abbrev SHD_STATUS_PASS : Field := ⟨SHD_STATUS, 1, 0⟩
abbrev SHD_FLAGS : Nat := 0x70008
abbrev SHD_FLAGS_WRITE_LOCKED : Field := ⟨SHD_FLAGS, 5, 5⟩
abbrev SHD_FLAGS_STARVE : Field := ⟨SHD_FLAGS, 4, 4⟩
abbrev SHD_FLAGS_CAPACITY : Field := ⟨SHD_FLAGS, 3, 3⟩
abbrev SHD_FLAGS_SEAM_SKIP : Field := ⟨SHD_FLAGS, 2, 2⟩
abbrev SHD_FLAGS_UNRESOLVED : Field := ⟨SHD_FLAGS, 1, 1⟩
abbrev SHD_FLAGS_GROUP : Field := ⟨SHD_FLAGS, 0, 0⟩
abbrev SHD_KEEPOUT : Nat := 0x7000c
abbrev SHD_PLAN_MARGIN : Nat := 0x70010
abbrev SHD_GAS_DIR : Nat := 0x70014
abbrev SHD_GAS_DIR_SIN : Field := ⟨SHD_GAS_DIR, 31, 16⟩
abbrev SHD_GAS_DIR_COS : Field := ⟨SHD_GAS_DIR, 15, 0⟩
abbrev SHD_CONE_TAN : Nat := 0x70018
abbrev SHD_CONE_LEN : Nat := 0x7001c
abbrev SHD_PLUME_SAMPLES : Nat := 0x70020
abbrev SHD_MAX_WAIT : Nat := 0x70024
abbrev SHD_SEAM_OVERLAP : Nat := 0x70028
abbrev SHD_DITHER_NM : Nat := 0x7002c
abbrev SHD_DITHER_SEED : Nat := 0x70030
abbrev SHD_COST_JUMP_NS : Nat := 0x70034
abbrev SHD_COST_VJUMP : Nat := 0x70038
abbrev SHD_COST_RAMP_NS : Nat := 0x7003c
abbrev SHD_COST_PT_NS : Nat := 0x70040
abbrev SHD_PICKS_DONE : Nat := 0x70044
abbrev SHD_ORPHANS : Nat := 0x70048
abbrev SHD_WAITS : Nat := 0x7004c
abbrev SHD_UNRESOLVED : Nat := 0x70050
abbrev SHD_SEAMS : Nat := 0x70054
abbrev SHD_SEAM_SKIP : Nat := 0x70058
abbrev SHD_SKIPPED : Nat := 0x7005c
abbrev SHD_MON_CTRL : Nat := 0x70060
abbrev SHD_MON_CTRL_CLEAR : Field := ⟨SHD_MON_CTRL, 15, 8⟩
abbrev SHD_MON_CTRL_LOOK : Field := ⟨SHD_MON_CTRL, 7, 4⟩
abbrev SHD_MON_CTRL_MON_EN : Field := ⟨SHD_MON_CTRL, 0, 0⟩
abbrev SHD_MON_MAXHOLD : Nat := 0x70064
abbrev SHD_MON_PRIO_LO : Nat := 0x70068
abbrev SHD_MON_PRIO_HI : Nat := 0x7006c
abbrev SHD_MON_HELD : Nat := 0x70070
abbrev SHD_RETIRED : Nat := 0x70074
abbrev SHD_MON_BLANKS (i : Nat) : Nat := 0x70080 + i * 0x4
abbrev SHD_REACH_XMIN (i : Nat) : Nat := 0x70100 + i * 0x10
abbrev SHD_REACH_YMIN (i : Nat) : Nat := 0x70104 + i * 0x10
abbrev SHD_REACH_XMAX (i : Nat) : Nat := 0x70108 + i * 0x10
abbrev SHD_REACH_YMAX (i : Nat) : Nat := 0x7010c + i * 0x10
abbrev SHD_EST (i : Nat) : Nat := 0x70200 + i * 0x4
abbrev SHD_ZONE_STATIONS (i : Nat) : Nat := 0x78000 + i * 0x8
abbrev SHD_ZONE_COUNT (i : Nat) : Nat := 0x78004 + i * 0x8
abbrev SHD_ZONE_COUNT_COUNT (i : Nat) : Field := ⟨(SHD_ZONE_COUNT i), 3, 0⟩

/-! ### SHT (R169) -/

abbrev SHT_CTRL (i : Nat) : Nat := 0x80000 + i * 0x1000
abbrev SHT_CTRL_EDGE_CLIP (i : Nat) : Field := ⟨(SHT_CTRL i), 2, 2⟩
abbrev SHT_CTRL_BLEND_EN (i : Nat) : Field := ⟨(SHT_CTRL i), 1, 1⟩
abbrev SHT_CTRL_ENABLE (i : Nat) : Field := ⟨(SHT_CTRL i), 0, 0⟩
abbrev SHT_STATUS (i : Nat) : Nat := 0x80004 + i * 0x1000
abbrev SHT_STATUS_RETIRED (i : Nat) : Field := ⟨(SHT_STATUS i), 16, 16⟩
abbrev SHT_STATUS_STARVED (i : Nat) : Field := ⟨(SHT_STATUS i), 15, 15⟩
abbrev SHT_STATUS_QDEPTH (i : Nat) : Field := ⟨(SHT_STATUS i), 14, 8⟩
abbrev SHT_STATUS_LASER_ON (i : Nat) : Field := ⟨(SHT_STATUS i), 6, 6⟩
abbrev SHT_STATUS_BLEND (i : Nat) : Field := ⟨(SHT_STATUS i), 5, 5⟩
abbrev SHT_STATUS_LIMITED (i : Nat) : Field := ⟨(SHT_STATUS i), 4, 4⟩
abbrev SHT_STATUS_PHASE (i : Nat) : Field := ⟨(SHT_STATUS i), 3, 0⟩
abbrev SHT_FLAGS (i : Nat) : Nat := 0x80008 + i * 0x1000
abbrev SHT_FLAGS_WRITE_LOCKED (i : Nat) : Field := ⟨(SHT_FLAGS i), 11, 11⟩
abbrev SHT_FLAGS_GRID_CRC (i : Nat) : Field := ⟨(SHT_FLAGS i), 10, 10⟩
abbrev SHT_FLAGS_ACC_KEPT (i : Nat) : Field := ⟨(SHT_FLAGS i), 9, 9⟩
abbrev SHT_FLAGS_ACT_SUSPECT (i : Nat) : Field := ⟨(SHT_FLAGS i), 8, 8⟩
abbrev SHT_FLAGS_DEADLINE (i : Nat) : Field := ⟨(SHT_FLAGS i), 7, 7⟩
abbrev SHT_FLAGS_STARVE (i : Nat) : Field := ⟨(SHT_FLAGS i), 6, 6⟩
abbrev SHT_FLAGS_PULSE_RATE (i : Nat) : Field := ⟨(SHT_FLAGS i), 5, 5⟩
abbrev SHT_FLAGS_PULSE_DROP (i : Nat) : Field := ⟨(SHT_FLAGS i), 4, 4⟩
abbrev SHT_FLAGS_SPEED_CLAMP (i : Nat) : Field := ⟨(SHT_FLAGS i), 3, 3⟩
abbrev SHT_FLAGS_LIMIT (i : Nat) : Field := ⟨(SHT_FLAGS i), 2, 2⟩
abbrev SHT_FLAGS_EDGE_RAMP (i : Nat) : Field := ⟨(SHT_FLAGS i), 1, 1⟩
abbrev SHT_FLAGS_GRID_RANGE (i : Nat) : Field := ⟨(SHT_FLAGS i), 0, 0⟩
abbrev SHT_LOOKAHEAD (i : Nat) : Nat := 0x8000c + i * 0x1000
abbrev SHT_LOOKAHEAD_DEPTH (i : Nat) : Field := ⟨(SHT_LOOKAHEAD i), 6, 0⟩
abbrev SHT_VMAX_PATH (i : Nat) : Nat := 0x80010 + i * 0x1000
abbrev SHT_A_PATH (i : Nat) : Nat := 0x80014 + i * 0x1000
abbrev SHT_J_PATH (i : Nat) : Nat := 0x80018 + i * 0x1000
abbrev SHT_A_BLEND (i : Nat) : Nat := 0x8001c + i * 0x1000
abbrev SHT_BLEND_DEV (i : Nat) : Nat := 0x80020 + i * 0x1000
abbrev SHT_JUMP_DEV (i : Nat) : Nat := 0x80024 + i * 0x1000
abbrev SHT_BLEND_COS (i : Nat) : Nat := 0x80028 + i * 0x1000
abbrev SHT_A_STOP (i : Nat) : Nat := 0x8002c + i * 0x1000
abbrev SHT_PULSE_W (i : Nat) : Nat := 0x80030 + i * 0x1000
abbrev SHT_REPICK_BACK (i : Nat) : Nat := 0x80034 + i * 0x1000
abbrev SHT_ZSCALE (i : Nat) : Nat := 0x80038 + i * 0x1000
abbrev SHT_ACT_TRUST (i : Nat) : Nat := 0x8003c + i * 0x1000
abbrev SHT_PARK_X (i : Nat) : Nat := 0x80040 + i * 0x1000
abbrev SHT_PARK_Y (i : Nat) : Nat := 0x80044 + i * 0x1000
abbrev SHT_PARK_Z (i : Nat) : Nat := 0x80048 + i * 0x1000
abbrev SHT_GRID_SEL (i : Nat) : Nat := 0x8004c + i * 0x1000
abbrev SHT_GRID_SEL_SEL (i : Nat) : Field := ⟨(SHT_GRID_SEL i), 0, 0⟩
abbrev SHT_GRID_BASE0 (i : Nat) : Nat := 0x80050 + i * 0x1000
abbrev SHT_GRID_BASE1 (i : Nat) : Nat := 0x80054 + i * 0x1000
abbrev SHT_AX_VMAX (i j : Nat) : Nat := 0x80080 + i * 0x1000 + j * 0x10
abbrev SHT_AX_AMAX (i j : Nat) : Nat := 0x80084 + i * 0x1000 + j * 0x10
abbrev SHT_AX_JMAX (i j : Nat) : Nat := 0x80088 + i * 0x1000 + j * 0x10
abbrev SHT_SET_X (i : Nat) : Nat := 0x80100 + i * 0x1000
abbrev SHT_SET_Y (i : Nat) : Nat := 0x80104 + i * 0x1000
abbrev SHT_ACT_X (i : Nat) : Nat := 0x80108 + i * 0x1000
abbrev SHT_ACT_Y (i : Nat) : Nat := 0x8010c + i * 0x1000
abbrev SHT_ACT_Q (i : Nat) : Nat := 0x80110 + i * 0x1000
abbrev SHT_SPEED (i : Nat) : Nat := 0x80114 + i * 0x1000
abbrev SHT_INTR_PICK (i : Nat) : Nat := 0x80118 + i * 0x1000
abbrev SHT_INTR_S (i : Nat) : Nat := 0x8011c + i * 0x1000
abbrev SHT_PICKS (i : Nat) : Nat := 0x80120 + i * 0x1000
abbrev SHT_REPICKS (i : Nat) : Nat := 0x80124 + i * 0x1000
abbrev SHT_SKIPPED (i : Nat) : Nat := 0x80128 + i * 0x1000
abbrev SHT_LIMIT_PER (i : Nat) : Nat := 0x8012c + i * 0x1000
abbrev SHT_DEADLINES (i : Nat) : Nat := 0x80130 + i * 0x1000
abbrev SHT_PULSE_DROPS (i : Nat) : Nat := 0x80134 + i * 0x1000
abbrev SHT_REEXPOSED (i : Nat) : Nat := 0x80138 + i * 0x1000
abbrev SHT_ZOFF (i : Nat) : Nat := 0x8013c + i * 0x1000

/-! ### FBK (R298, R303, R304) -/

abbrev FBK_CTRL (i : Nat) : Nat := 0x90000 + i * 0x100
abbrev FBK_CTRL_FILT (i : Nat) : Field := ⟨(FBK_CTRL i), 11, 8⟩
abbrev FBK_CTRL_IDX_QUAL (i : Nat) : Field := ⟨(FBK_CTRL i), 6, 6⟩
abbrev FBK_CTRL_IDX_EN (i : Nat) : Field := ⟨(FBK_CTRL i), 5, 5⟩
abbrev FBK_CTRL_INVERT (i : Nat) : Field := ⟨(FBK_CTRL i), 4, 4⟩
abbrev FBK_CTRL_MODE (i : Nat) : Field := ⟨(FBK_CTRL i), 2, 0⟩
abbrev FBK_EN (i : Nat) : Nat := 0x90004 + i * 0x100
abbrev FBK_EN_PT_EN (i : Nat) : Field := ⟨(FBK_EN i), 1, 1⟩
abbrev FBK_EN_EN (i : Nat) : Field := ⟨(FBK_EN i), 0, 0⟩
abbrev FBK_FLAGS (i : Nat) : Nat := 0x90008 + i * 0x100
abbrev FBK_FLAGS_WRITE_LOCKED (i : Nat) : Field := ⟨(FBK_FLAGS i), 6, 6⟩
abbrev FBK_FLAGS_COMPARE_BEHIND (i : Nat) : Field := ⟨(FBK_FLAGS i), 5, 5⟩
abbrev FBK_FLAGS_INDEX_FAULT (i : Nat) : Field := ⟨(FBK_FLAGS i), 4, 4⟩
abbrev FBK_FLAGS_IDX_CORR (i : Nat) : Field := ⟨(FBK_FLAGS i), 3, 3⟩
abbrev FBK_FLAGS_SSI_ERR (i : Nat) : Field := ⟨(FBK_FLAGS i), 2, 2⟩
abbrev FBK_FLAGS_HALL_ERR (i : Nat) : Field := ⟨(FBK_FLAGS i), 1, 1⟩
abbrev FBK_FLAGS_QUAD_ERR (i : Nat) : Field := ⟨(FBK_FLAGS i), 0, 0⟩
abbrev FBK_COUNT (i : Nat) : Nat := 0x9000c + i * 0x100
abbrev FBK_SPEED (i : Nat) : Nat := 0x90010 + i * 0x100
abbrev FBK_QUAL (i : Nat) : Nat := 0x90014 + i * 0x100
abbrev FBK_SPD_WIN (i : Nat) : Nat := 0x90018 + i * 0x100
abbrev FBK_SPD_TIMEOUT (i : Nat) : Nat := 0x9001c + i * 0x100
abbrev FBK_IDX_PERIOD (i : Nat) : Nat := 0x90020 + i * 0x100
abbrev FBK_IDX_POS (i : Nat) : Nat := 0x90024 + i * 0x100
abbrev FBK_IDX_TOL (i : Nat) : Nat := 0x90028 + i * 0x100
abbrev FBK_IDX_LATCH (i : Nat) : Nat := 0x9002c + i * 0x100
abbrev FBK_IDX_CORR (i : Nat) : Nat := 0x90030 + i * 0x100
abbrev FBK_SSI_CFG (i : Nat) : Nat := 0x90034 + i * 0x100
abbrev FBK_SSI_CFG_MONO (i : Nat) : Field := ⟨(FBK_SSI_CFG i), 31, 27⟩
abbrev FBK_SSI_CFG_DIV (i : Nat) : Field := ⟨(FBK_SSI_CFG i), 26, 16⟩
abbrev FBK_SSI_CFG_RATE (i : Nat) : Field := ⟨(FBK_SSI_CFG i), 15, 12⟩
abbrev FBK_SSI_CFG_GRAY (i : Nat) : Field := ⟨(FBK_SSI_CFG i), 11, 11⟩
abbrev FBK_SSI_CFG_ERR_EN (i : Nat) : Field := ⟨(FBK_SSI_CFG i), 10, 10⟩
abbrev FBK_SSI_CFG_BITS (i : Nat) : Field := ⟨(FBK_SSI_CFG i), 4, 0⟩
abbrev FBK_CMP_VAL (i : Nat) : Nat := 0x90040 + i * 0x100
abbrev FBK_CMP_SPACING (i : Nat) : Nat := 0x90044 + i * 0x100
abbrev FBK_CMP_CTRL (i : Nat) : Nat := 0x90048 + i * 0x100
abbrev FBK_CMP_CTRL_PW (i : Nat) : Field := ⟨(FBK_CMP_CTRL i), 31, 16⟩
abbrev FBK_CMP_CTRL_CAM (i : Nat) : Field := ⟨(FBK_CMP_CTRL i), 7, 6⟩
abbrev FBK_CMP_CTRL_ROUTE (i : Nat) : Field := ⟨(FBK_CMP_CTRL i), 4, 2⟩
abbrev FBK_CMP_CTRL_DIR (i : Nat) : Field := ⟨(FBK_CMP_CTRL i), 1, 1⟩
abbrev FBK_CMP_CTRL_ARMED (i : Nat) : Field := ⟨(FBK_CMP_CTRL i), 0, 0⟩
abbrev FBK_CMP_COUNT (i : Nat) : Nat := 0x9004c + i * 0x100
abbrev FBK_CMP_HITS (i : Nat) : Nat := 0x90050 + i * 0x100
abbrev FBK_CMP_SKIPPED (i : Nat) : Nat := 0x90054 + i * 0x100
abbrev FBK_CMP_TIME (i : Nat) : Nat := 0x90058 + i * 0x100
abbrev FBK_ERRS (i : Nat) : Nat := 0x9005c + i * 0x100
abbrev FBKS_OFFSET (i : Nat) : Nat := 0x91000 + i * 0x40
abbrev FBKS_COUNT (i : Nat) : Nat := 0x91004 + i * 0x40
abbrev FBKS_SPEED (i : Nat) : Nat := 0x91008 + i * 0x40
abbrev FBKS_STATUS (i : Nat) : Nat := 0x9100c + i * 0x40
abbrev FBKS_FLAGS (i : Nat) : Nat := 0x91010 + i * 0x40
abbrev FBKS_FLAGS_ENC_JUMP (i : Nat) : Field := ⟨(FBKS_FLAGS i), 0, 0⟩
abbrev FBKS_JUMP_MAX (i : Nat) : Nat := 0x91014 + i * 0x40
abbrev FBKS_JUMPS (i : Nat) : Nat := 0x91018 + i * 0x40
abbrev FBKP_S (i : Nat) : Nat := 0x92000 + i * 0x40
abbrev FBKP_CMP (i : Nat) : Nat := 0x92004 + i * 0x40
abbrev FBKP_SPACING (i : Nat) : Nat := 0x92008 + i * 0x40
abbrev FBKP_HITS (i : Nat) : Nat := 0x9200c + i * 0x40
abbrev FBKP_SKIPPED (i : Nat) : Nat := 0x92010 + i * 0x40
abbrev FBKP_FLAGS (i : Nat) : Nat := 0x92014 + i * 0x40
abbrev FBKP_FLAGS_EXTRAP (i : Nat) : Field := ⟨(FBKP_FLAGS i), 1, 1⟩
abbrev FBKP_FLAGS_COMPARE_BEHIND (i : Nat) : Field := ⟨(FBKP_FLAGS i), 0, 0⟩

/-! ### REED (R203 to R206) -/

abbrev REED_CTRL (i : Nat) : Nat := 0xa0000 + i * 0x4000
abbrev REED_CTRL_ENABLE (i : Nat) : Field := ⟨(REED_CTRL i), 0, 0⟩
abbrev REED_STATUS (i : Nat) : Nat := 0xa0004 + i * 0x4000
abbrev REED_STATUS_COST (i : Nat) : Field := ⟨(REED_STATUS i), 26, 16⟩
abbrev REED_STATUS_RUNNING (i : Nat) : Field := ⟨(REED_STATUS i), 0, 0⟩
abbrev REED_FLAGS (i : Nat) : Nat := 0xa0008 + i * 0x4000
abbrev REED_FLAGS_COMMIT_DEFER (i : Nat) : Field := ⟨(REED_FLAGS i), 1, 1⟩
abbrev REED_FLAGS_WRITE_LOCKED (i : Nat) : Field := ⟨(REED_FLAGS i), 0, 0⟩
abbrev REED_SLACK (i : Nat) : Nat := 0xa000c + i * 0x4000
abbrev REED_OVERRUNS (i : Nat) : Nat := 0xa0010 + i * 0x4000
abbrev REED_POS_CTRL (i j : Nat) : Nat := 0xa0100 + i * 0x4000 + j * 0x100
abbrev REED_POS_CTRL_NBQ (i j : Nat) : Field := ⟨(REED_POS_CTRL i j), 15, 12⟩
abbrev REED_POS_CTRL_SRC (i j : Nat) : Field := ⟨(REED_POS_CTRL i j), 10, 8⟩
abbrev REED_POS_CTRL_AUTO (i j : Nat) : Field := ⟨(REED_POS_CTRL i j), 1, 1⟩
abbrev REED_POS_CTRL_EN (i j : Nat) : Field := ⟨(REED_POS_CTRL i j), 0, 0⟩
abbrev REED_POS_STATUS (i j : Nat) : Nat := 0xa0104 + i * 0x4000 + j * 0x100
abbrev REED_POS_STATUS_OVR_RUN (i j : Nat) : Field := ⟨(REED_POS_STATUS i j), 17, 16⟩
abbrev REED_POS_STATUS_COMMIT_PEND (i j : Nat) : Field := ⟨(REED_POS_STATUS i j), 15, 15⟩
abbrev REED_POS_STATUS_RAMP_ACTIVE (i j : Nat) : Field := ⟨(REED_POS_STATUS i j), 14, 14⟩
abbrev REED_POS_STATUS_SAT (i j : Nat) : Field := ⟨(REED_POS_STATUS i j), 13, 13⟩
abbrev REED_POS_STATUS_HELD (i j : Nat) : Field := ⟨(REED_POS_STATUS i j), 12, 12⟩
abbrev REED_POS_STATUS_MEAS_Q (i j : Nat) : Field := ⟨(REED_POS_STATUS i j), 11, 10⟩
abbrev REED_POS_STATUS_OUT_Q (i j : Nat) : Field := ⟨(REED_POS_STATUS i j), 9, 8⟩
abbrev REED_POS_STATUS_AUTO (i j : Nat) : Field := ⟨(REED_POS_STATUS i j), 2, 2⟩
abbrev REED_POS_STATUS_EN (i j : Nat) : Field := ⟨(REED_POS_STATUS i j), 1, 1⟩
abbrev REED_POS_FLAGS (i j : Nat) : Nat := 0xa0108 + i * 0x4000 + j * 0x100
abbrev REED_POS_FLAGS_WRITE_LOCKED (i j : Nat) : Field := ⟨(REED_POS_FLAGS i j), 8, 8⟩
abbrev REED_POS_FLAGS_BUMP (i j : Nat) : Field := ⟨(REED_POS_FLAGS i j), 7, 7⟩
abbrev REED_POS_FLAGS_EXT_LOST (i j : Nat) : Field := ⟨(REED_POS_FLAGS i j), 6, 6⟩
abbrev REED_POS_FLAGS_SENSOR (i j : Nat) : Field := ⟨(REED_POS_FLAGS i j), 5, 5⟩
abbrev REED_POS_FLAGS_FE (i j : Nat) : Field := ⟨(REED_POS_FLAGS i j), 4, 4⟩
abbrev REED_POS_FLAGS_SAT (i j : Nat) : Field := ⟨(REED_POS_FLAGS i j), 3, 3⟩
abbrev REED_POS_FLAGS_OVERRUN (i j : Nat) : Field := ⟨(REED_POS_FLAGS i j), 2, 2⟩
abbrev REED_POS_FLAGS_STALE_SP (i j : Nat) : Field := ⟨(REED_POS_FLAGS i j), 1, 1⟩
abbrev REED_POS_FLAGS_COMMIT_DEFER (i j : Nat) : Field := ⟨(REED_POS_FLAGS i j), 0, 0⟩
abbrev REED_POS_KP (i j : Nat) : Nat := 0xa010c + i * 0x4000 + j * 0x100
abbrev REED_POS_KI (i j : Nat) : Nat := 0xa0110 + i * 0x4000 + j * 0x100
abbrev REED_POS_KD (i j : Nat) : Nat := 0xa0114 + i * 0x4000 + j * 0x100
abbrev REED_POS_KV (i j : Nat) : Nat := 0xa0118 + i * 0x4000 + j * 0x100
abbrev REED_POS_KA (i j : Nat) : Nat := 0xa011c + i * 0x4000 + j * 0x100
abbrev REED_POS_KDF (i j : Nat) : Nat := 0xa0120 + i * 0x4000 + j * 0x100
abbrev REED_POS_KB (i j : Nat) : Nat := 0xa0124 + i * 0x4000 + j * 0x100
abbrev REED_POS_OUT_MAX (i j : Nat) : Nat := 0xa0128 + i * 0x4000 + j * 0x100
abbrev REED_POS_SHIFT (i j : Nat) : Nat := 0xa012c + i * 0x4000 + j * 0x100
abbrev REED_POS_SHIFT_SH (i j : Nat) : Field := ⟨(REED_POS_SHIFT i j), 5, 0⟩
abbrev REED_POS_MAN_VALUE (i j : Nat) : Nat := 0xa0130 + i * 0x4000 + j * 0x100
abbrev REED_POS_RAMP_RATE (i j : Nat) : Nat := 0xa0134 + i * 0x4000 + j * 0x100
abbrev REED_POS_FE_LIMIT (i j : Nat) : Nat := 0xa0138 + i * 0x4000 + j * 0x100
abbrev REED_POS_FE_TIME (i j : Nat) : Nat := 0xa013c + i * 0x4000 + j * 0x100
abbrev REED_POS_EXT_CFG (i j : Nat) : Nat := 0xa0140 + i * 0x4000 + j * 0x100
abbrev REED_POS_EXT_CFG_TIMEOUT (i j : Nat) : Field := ⟨(REED_POS_EXT_CFG i j), 31, 16⟩
abbrev REED_POS_EXT_CFG_MODE (i j : Nat) : Field := ⟨(REED_POS_EXT_CFG i j), 4, 4⟩
abbrev REED_POS_EXT_CFG_GPIO (i j : Nat) : Field := ⟨(REED_POS_EXT_CFG i j), 3, 0⟩
abbrev REED_POS_EXT_OFFSET (i j : Nat) : Nat := 0xa0144 + i * 0x4000 + j * 0x100
abbrev REED_POS_EXT_GAIN (i j : Nat) : Nat := 0xa0148 + i * 0x4000 + j * 0x100
abbrev REED_POS_ERR (i j : Nat) : Nat := 0xa014c + i * 0x4000 + j * 0x100
abbrev REED_POS_CMD (i j : Nat) : Nat := 0xa0150 + i * 0x4000 + j * 0x100
abbrev REED_POS_INTEG (i j : Nat) : Nat := 0xa0154 + i * 0x4000 + j * 0x100
abbrev REED_POS_OVR (i j : Nat) : Nat := 0xa0158 + i * 0x4000 + j * 0x100
abbrev REED_POS_FE_MAX (i j : Nat) : Nat := 0xa015c + i * 0x4000 + j * 0x100
abbrev REED_POS_BQ_B0 (i j k : Nat) : Nat := 0xa0160 + i * 0x4000 + j * 0x100 + k * 0x14
abbrev REED_POS_BQ_B1 (i j k : Nat) : Nat := 0xa0164 + i * 0x4000 + j * 0x100 + k * 0x14
abbrev REED_POS_BQ_B2 (i j k : Nat) : Nat := 0xa0168 + i * 0x4000 + j * 0x100 + k * 0x14
abbrev REED_POS_BQ_A1 (i j k : Nat) : Nat := 0xa016c + i * 0x4000 + j * 0x100 + k * 0x14
abbrev REED_POS_BQ_A2 (i j k : Nat) : Nat := 0xa0170 + i * 0x4000 + j * 0x100 + k * 0x14
abbrev REED_PWR_CTRL (i : Nat) : Nat := 0xac100 + i * 0x100
abbrev REED_PWR_CTRL_SRC (i : Nat) : Field := ⟨(REED_PWR_CTRL i), 10, 8⟩
abbrev REED_PWR_CTRL_I_CARRY (i : Nat) : Field := ⟨(REED_PWR_CTRL i), 4, 4⟩
abbrev REED_PWR_CTRL_AUTO (i : Nat) : Field := ⟨(REED_PWR_CTRL i), 1, 1⟩
abbrev REED_PWR_CTRL_EN (i : Nat) : Field := ⟨(REED_PWR_CTRL i), 0, 0⟩
abbrev REED_PWR_STATUS (i : Nat) : Nat := 0xac104 + i * 0x100
abbrev REED_PWR_STATUS_OVR_RUN (i : Nat) : Field := ⟨(REED_PWR_STATUS i), 17, 16⟩
abbrev REED_PWR_STATUS_COMMIT_PEND (i : Nat) : Field := ⟨(REED_PWR_STATUS i), 15, 15⟩
abbrev REED_PWR_STATUS_RAMP_ACTIVE (i : Nat) : Field := ⟨(REED_PWR_STATUS i), 14, 14⟩
abbrev REED_PWR_STATUS_SAT (i : Nat) : Field := ⟨(REED_PWR_STATUS i), 13, 13⟩
abbrev REED_PWR_STATUS_HELD (i : Nat) : Field := ⟨(REED_PWR_STATUS i), 12, 12⟩
abbrev REED_PWR_STATUS_MEAS_Q (i : Nat) : Field := ⟨(REED_PWR_STATUS i), 11, 10⟩
abbrev REED_PWR_STATUS_OUT_Q (i : Nat) : Field := ⟨(REED_PWR_STATUS i), 9, 8⟩
abbrev REED_PWR_STATUS_AUTO (i : Nat) : Field := ⟨(REED_PWR_STATUS i), 2, 2⟩
abbrev REED_PWR_STATUS_EN (i : Nat) : Field := ⟨(REED_PWR_STATUS i), 1, 1⟩
abbrev REED_PWR_FLAGS (i : Nat) : Nat := 0xac108 + i * 0x100
abbrev REED_PWR_FLAGS_WRITE_LOCKED (i : Nat) : Field := ⟨(REED_PWR_FLAGS i), 8, 8⟩
abbrev REED_PWR_FLAGS_BUMP (i : Nat) : Field := ⟨(REED_PWR_FLAGS i), 7, 7⟩
abbrev REED_PWR_FLAGS_EXT_LOST (i : Nat) : Field := ⟨(REED_PWR_FLAGS i), 6, 6⟩
abbrev REED_PWR_FLAGS_SENSOR (i : Nat) : Field := ⟨(REED_PWR_FLAGS i), 5, 5⟩
abbrev REED_PWR_FLAGS_FE (i : Nat) : Field := ⟨(REED_PWR_FLAGS i), 4, 4⟩
abbrev REED_PWR_FLAGS_SAT (i : Nat) : Field := ⟨(REED_PWR_FLAGS i), 3, 3⟩
abbrev REED_PWR_FLAGS_OVERRUN (i : Nat) : Field := ⟨(REED_PWR_FLAGS i), 2, 2⟩
abbrev REED_PWR_FLAGS_STALE_SP (i : Nat) : Field := ⟨(REED_PWR_FLAGS i), 1, 1⟩
abbrev REED_PWR_FLAGS_COMMIT_DEFER (i : Nat) : Field := ⟨(REED_PWR_FLAGS i), 0, 0⟩
abbrev REED_PWR_KP (i : Nat) : Nat := 0xac10c + i * 0x100
abbrev REED_PWR_KI (i : Nat) : Nat := 0xac110 + i * 0x100
abbrev REED_PWR_KH (i : Nat) : Nat := 0xac114 + i * 0x100
abbrev REED_PWR_KB (i : Nat) : Nat := 0xac118 + i * 0x100
abbrev REED_PWR_CORR_MAX (i : Nat) : Nat := 0xac11c + i * 0x100
abbrev REED_PWR_P_MAX (i : Nat) : Nat := 0xac120 + i * 0x100
abbrev REED_PWR_HF_MAX (i : Nat) : Nat := 0xac124 + i * 0x100
abbrev REED_PWR_MAN_VALUE (i : Nat) : Nat := 0xac128 + i * 0x100
abbrev REED_PWR_RAMP_RATE (i : Nat) : Nat := 0xac12c + i * 0x100
abbrev REED_PWR_FE_LIMIT (i : Nat) : Nat := 0xac130 + i * 0x100
abbrev REED_PWR_FE_TIME (i : Nat) : Nat := 0xac134 + i * 0x100
abbrev REED_PWR_SENS_HOLD (i : Nat) : Nat := 0xac138 + i * 0x100
abbrev REED_PWR_EXT_CFG (i : Nat) : Nat := 0xac13c + i * 0x100
abbrev REED_PWR_EXT_OFFSET (i : Nat) : Nat := 0xac140 + i * 0x100
abbrev REED_PWR_EXT_GAIN (i : Nat) : Nat := 0xac144 + i * 0x100
abbrev REED_PWR_ERR (i : Nat) : Nat := 0xac148 + i * 0x100
abbrev REED_PWR_CMD (i : Nat) : Nat := 0xac14c + i * 0x100
abbrev REED_PWR_CORR (i : Nat) : Nat := 0xac150 + i * 0x100
abbrev REED_PWR_INTEG (i : Nat) : Nat := 0xac154 + i * 0x100
abbrev REED_PWR_OVR (i : Nat) : Nat := 0xac158 + i * 0x100
abbrev REED_PWR_MELT_DEVS (i : Nat) : Nat := 0xac15c + i * 0x100
abbrev REED_AUX_CTRL (i : Nat) : Nat := 0xae000 + i * 0x100
abbrev REED_AUX_CTRL_DIV (i : Nat) : Field := ⟨(REED_AUX_CTRL i), 31, 20⟩
abbrev REED_AUX_CTRL_NBQ (i : Nat) : Field := ⟨(REED_AUX_CTRL i), 15, 12⟩
abbrev REED_AUX_CTRL_SRC (i : Nat) : Field := ⟨(REED_AUX_CTRL i), 10, 8⟩
abbrev REED_AUX_CTRL_EVT_SEL (i : Nat) : Field := ⟨(REED_AUX_CTRL i), 7, 4⟩
abbrev REED_AUX_CTRL_AUTO (i : Nat) : Field := ⟨(REED_AUX_CTRL i), 1, 1⟩
abbrev REED_AUX_CTRL_EN (i : Nat) : Field := ⟨(REED_AUX_CTRL i), 0, 0⟩
abbrev REED_AUX_IN_SEL (i : Nat) : Nat := 0xae018 + i * 0x100
abbrev REED_AUX_IN_SEL_SRC_KIND (i : Nat) : Field := ⟨(REED_AUX_IN_SEL i), 6, 4⟩
abbrev REED_AUX_OUT_SEL (i : Nat) : Nat := 0xae01c + i * 0x100
abbrev REED_AUX_OUT_SEL_PWM_PERIOD (i : Nat) : Field := ⟨(REED_AUX_OUT_SEL i), 31, 8⟩
abbrev REED_AUX_OUT_SEL_GPIO (i : Nat) : Field := ⟨(REED_AUX_OUT_SEL i), 3, 0⟩
abbrev REED_AUX_SETPOINT (i : Nat) : Nat := 0xae058 + i * 0x100
abbrev REED_AUX_STATUS (i : Nat) : Nat := 0xae004 + i * 0x100
abbrev REED_AUX_STATUS_OVR_RUN (i : Nat) : Field := ⟨(REED_AUX_STATUS i), 17, 16⟩
abbrev REED_AUX_STATUS_COMMIT_PEND (i : Nat) : Field := ⟨(REED_AUX_STATUS i), 15, 15⟩
abbrev REED_AUX_STATUS_RAMP_ACTIVE (i : Nat) : Field := ⟨(REED_AUX_STATUS i), 14, 14⟩
abbrev REED_AUX_STATUS_SAT (i : Nat) : Field := ⟨(REED_AUX_STATUS i), 13, 13⟩
abbrev REED_AUX_STATUS_HELD (i : Nat) : Field := ⟨(REED_AUX_STATUS i), 12, 12⟩
abbrev REED_AUX_STATUS_MEAS_Q (i : Nat) : Field := ⟨(REED_AUX_STATUS i), 11, 10⟩
abbrev REED_AUX_STATUS_OUT_Q (i : Nat) : Field := ⟨(REED_AUX_STATUS i), 9, 8⟩
abbrev REED_AUX_STATUS_AUTO (i : Nat) : Field := ⟨(REED_AUX_STATUS i), 2, 2⟩
abbrev REED_AUX_STATUS_EN (i : Nat) : Field := ⟨(REED_AUX_STATUS i), 1, 1⟩
abbrev REED_AUX_FLAGS (i : Nat) : Nat := 0xae008 + i * 0x100
abbrev REED_AUX_FLAGS_WRITE_LOCKED (i : Nat) : Field := ⟨(REED_AUX_FLAGS i), 8, 8⟩
abbrev REED_AUX_FLAGS_BUMP (i : Nat) : Field := ⟨(REED_AUX_FLAGS i), 7, 7⟩
abbrev REED_AUX_FLAGS_EXT_LOST (i : Nat) : Field := ⟨(REED_AUX_FLAGS i), 6, 6⟩
abbrev REED_AUX_FLAGS_SENSOR (i : Nat) : Field := ⟨(REED_AUX_FLAGS i), 5, 5⟩
abbrev REED_AUX_FLAGS_FE (i : Nat) : Field := ⟨(REED_AUX_FLAGS i), 4, 4⟩
abbrev REED_AUX_FLAGS_SAT (i : Nat) : Field := ⟨(REED_AUX_FLAGS i), 3, 3⟩
abbrev REED_AUX_FLAGS_OVERRUN (i : Nat) : Field := ⟨(REED_AUX_FLAGS i), 2, 2⟩
abbrev REED_AUX_FLAGS_STALE_SP (i : Nat) : Field := ⟨(REED_AUX_FLAGS i), 1, 1⟩
abbrev REED_AUX_FLAGS_COMMIT_DEFER (i : Nat) : Field := ⟨(REED_AUX_FLAGS i), 0, 0⟩
abbrev REED_AUX_KP (i : Nat) : Nat := 0xae00c + i * 0x100
abbrev REED_AUX_KI (i : Nat) : Nat := 0xae010 + i * 0x100
abbrev REED_AUX_KD (i : Nat) : Nat := 0xae014 + i * 0x100
abbrev REED_AUX_KDF (i : Nat) : Nat := 0xae020 + i * 0x100
abbrev REED_AUX_KB (i : Nat) : Nat := 0xae024 + i * 0x100
abbrev REED_AUX_OUT_MAX (i : Nat) : Nat := 0xae028 + i * 0x100
abbrev REED_AUX_SHIFT (i : Nat) : Nat := 0xae02c + i * 0x100
abbrev REED_AUX_SHIFT_SH (i : Nat) : Field := ⟨(REED_AUX_SHIFT i), 5, 0⟩
abbrev REED_AUX_MAN_VALUE (i : Nat) : Nat := 0xae030 + i * 0x100
abbrev REED_AUX_RAMP_RATE (i : Nat) : Nat := 0xae034 + i * 0x100
abbrev REED_AUX_FE_LIMIT (i : Nat) : Nat := 0xae038 + i * 0x100
abbrev REED_AUX_FE_TIME (i : Nat) : Nat := 0xae03c + i * 0x100
abbrev REED_AUX_EXT_CFG (i : Nat) : Nat := 0xae040 + i * 0x100
abbrev REED_AUX_EXT_CFG_TIMEOUT (i : Nat) : Field := ⟨(REED_AUX_EXT_CFG i), 31, 16⟩
abbrev REED_AUX_EXT_CFG_MODE (i : Nat) : Field := ⟨(REED_AUX_EXT_CFG i), 4, 4⟩
abbrev REED_AUX_EXT_CFG_GPIO (i : Nat) : Field := ⟨(REED_AUX_EXT_CFG i), 3, 0⟩
abbrev REED_AUX_EXT_OFFSET (i : Nat) : Nat := 0xae044 + i * 0x100
abbrev REED_AUX_EXT_GAIN (i : Nat) : Nat := 0xae048 + i * 0x100
abbrev REED_AUX_ERR (i : Nat) : Nat := 0xae04c + i * 0x100
abbrev REED_AUX_CMD (i : Nat) : Nat := 0xae050 + i * 0x100
abbrev REED_AUX_INTEG (i : Nat) : Nat := 0xae054 + i * 0x100
abbrev REED_AUX_FE_MAX (i : Nat) : Nat := 0xae05c + i * 0x100
abbrev REED_AUX_BQ_B0 (i j : Nat) : Nat := 0xae060 + i * 0x100 + j * 0x14
abbrev REED_AUX_BQ_B1 (i j : Nat) : Nat := 0xae064 + i * 0x100 + j * 0x14
abbrev REED_AUX_BQ_B2 (i j : Nat) : Nat := 0xae068 + i * 0x100 + j * 0x14
abbrev REED_AUX_BQ_A1 (i j : Nat) : Nat := 0xae06c + i * 0x100 + j * 0x14
abbrev REED_AUX_BQ_A2 (i j : Nat) : Nat := 0xae070 + i * 0x100 + j * 0x14

/-! ### MPL (R241, R246) -/

abbrev MPLS_CTRL (i : Nat) : Nat := 0xb0000 + i * 0x1000
abbrev MPLS_CTRL_ALL_FRAMES (i : Nat) : Field := ⟨(MPLS_CTRL i), 6, 6⟩
abbrev MPLS_CTRL_ARCH_EN (i : Nat) : Field := ⟨(MPLS_CTRL i), 5, 5⟩
abbrev MPLS_CTRL_FF_EN (i : Nat) : Field := ⟨(MPLS_CTRL i), 4, 4⟩
abbrev MPLS_CTRL_MAP_WR_EN (i : Nat) : Field := ⟨(MPLS_CTRL i), 3, 3⟩
abbrev MPLS_CTRL_COAX_EN (i : Nat) : Field := ⟨(MPLS_CTRL i), 2, 2⟩
abbrev MPLS_CTRL_TEMP_EN (i : Nat) : Field := ⟨(MPLS_CTRL i), 1, 1⟩
abbrev MPLS_CTRL_EN (i : Nat) : Field := ⟨(MPLS_CTRL i), 0, 0⟩
abbrev MPLS_STATUS (i : Nat) : Nat := 0xb0004 + i * 0x1000
abbrev MPLS_STATUS_EXPORTING (i : Nat) : Field := ⟨(MPLS_STATUS i), 3, 3⟩
abbrev MPLS_STATUS_FROZEN (i : Nat) : Field := ⟨(MPLS_STATUS i), 2, 2⟩
abbrev MPLS_STATUS_TRIM_HOLD (i : Nat) : Field := ⟨(MPLS_STATUS i), 1, 1⟩
abbrev MPLS_STATUS_RUNNING (i : Nat) : Field := ⟨(MPLS_STATUS i), 0, 0⟩
abbrev MPLS_FLAGS (i : Nat) : Nat := 0xb0008 + i * 0x1000
abbrev MPLS_FLAGS_WRITE_LOCKED (i : Nat) : Field := ⟨(MPLS_FLAGS i), 7, 7⟩
abbrev MPLS_FLAGS_ARCH_FROZE (i : Nat) : Field := ⟨(MPLS_FLAGS i), 6, 6⟩
abbrev MPLS_FLAGS_FF_STALE (i : Nat) : Field := ⟨(MPLS_FLAGS i), 5, 5⟩
abbrev MPLS_FLAGS_AREA_WINDOW (i : Nat) : Field := ⟨(MPLS_FLAGS i), 4, 4⟩
abbrev MPLS_FLAGS_TEMP_WINDOW (i : Nat) : Field := ⟨(MPLS_FLAGS i), 3, 3⟩
abbrev MPLS_FLAGS_FRAME_BAD (i : Nat) : Field := ⟨(MPLS_FLAGS i), 2, 2⟩
abbrev MPLS_FLAGS_PYRO_RANGE (i : Nat) : Field := ⟨(MPLS_FLAGS i), 1, 1⟩
abbrev MPLS_FLAGS_PYRO_SAT (i : Nat) : Field := ⟨(MPLS_FLAGS i), 0, 0⟩
abbrev MPLS_DARK (i : Nat) : Nat := 0xb000c + i * 0x1000
abbrev MPLS_DARK_D2 (i : Nat) : Field := ⟨(MPLS_DARK i), 31, 16⟩
abbrev MPLS_DARK_D1 (i : Nat) : Field := ⟨(MPLS_DARK i), 15, 0⟩
abbrev MPLS_GAIN (i : Nat) : Nat := 0xb0010 + i * 0x1000
abbrev MPLS_SIG_MIN (i : Nat) : Nat := 0xb0014 + i * 0x1000
abbrev MPLS_SAT_LVL (i : Nat) : Nat := 0xb0018 + i * 0x1000
abbrev MPLS_RATIO_LO (i : Nat) : Nat := 0xb001c + i * 0x1000
abbrev MPLS_RATIO_LO_R_LO (i : Nat) : Field := ⟨(MPLS_RATIO_LO i), 23, 0⟩
abbrev MPLS_RATIO_SH (i : Nat) : Nat := 0xb0020 + i * 0x1000
abbrev MPLS_RATIO_SH_RSH (i : Nat) : Field := ⟨(MPLS_RATIO_SH i), 3, 0⟩
abbrev MPLS_TTAB_BASE (i : Nat) : Nat := 0xb0024 + i * 0x1000
abbrev MPLS_TEMP (i : Nat) : Nat := 0xb0028 + i * 0x1000
abbrev MPLS_RATIO (i : Nat) : Nat := 0xb002c + i * 0x1000
abbrev MPLS_BLACK (i : Nat) : Nat := 0xb0030 + i * 0x1000
abbrev MPLS_BLACK_BLACK (i : Nat) : Field := ⟨(MPLS_BLACK i), 9, 0⟩
abbrev MPLS_POOL (i : Nat) : Nat := 0xb0034 + i * 0x1000
abbrev MPLS_POOL_HALF (i : Nat) : Field := ⟨(MPLS_POOL i), 22, 16⟩
abbrev MPLS_POOL_POOL_THR (i : Nat) : Field := ⟨(MPLS_POOL i), 9, 0⟩
abbrev MPLS_SPAT (i : Nat) : Nat := 0xb0038 + i * 0x1000
abbrev MPLS_SPAT_SPAT_THR (i : Nat) : Field := ⟨(MPLS_SPAT i), 9, 0⟩
abbrev MPLS_AREA_MIN (i : Nat) : Nat := 0xb003c + i * 0x1000
abbrev MPLS_DESC_CNT (i : Nat) : Nat := 0xb0040 + i * 0x1000
abbrev MPLS_FRAMES_BAD (i : Nat) : Nat := 0xb0044 + i * 0x1000
abbrev MPLS_HEAT (i : Nat) : Nat := 0xb0048 + i * 0x1000
abbrev MPLS_SELF_AGE (i : Nat) : Nat := 0xb004c + i * 0x1000
abbrev MPLS_ARCH_BASE (i : Nat) : Nat := 0xb0050 + i * 0x1000
abbrev MPLS_ARCH_SIZE (i : Nat) : Nat := 0xb0054 + i * 0x1000
abbrev MPLS_ARCH_CTRL (i : Nat) : Nat := 0xb0058 + i * 0x1000
abbrev MPLS_ARCH_CTRL_POST (i : Nat) : Field := ⟨(MPLS_ARCH_CTRL i), 31, 16⟩
abbrev MPLS_ARCH_CTRL_ON_MELT_DEV (i : Nat) : Field := ⟨(MPLS_ARCH_CTRL i), 7, 7⟩
abbrev MPLS_ARCH_CTRL_ON_HALT (i : Nat) : Field := ⟨(MPLS_ARCH_CTRL i), 6, 6⟩
abbrev MPLS_ARCH_CTRL_ON_RETIRE (i : Nat) : Field := ⟨(MPLS_ARCH_CTRL i), 5, 5⟩
abbrev MPLS_ARCH_CTRL_RESUME (i : Nat) : Field := ⟨(MPLS_ARCH_CTRL i), 2, 2⟩
abbrev MPLS_ARCH_CTRL_READ (i : Nat) : Field := ⟨(MPLS_ARCH_CTRL i), 1, 1⟩
abbrev MPLS_ARCH_CTRL_FREEZE (i : Nat) : Field := ⟨(MPLS_ARCH_CTRL i), 0, 0⟩
abbrev MPLS_ARCH_HELD (i : Nat) : Nat := 0xb005c + i * 0x1000
abbrev MPLS_ARCH_SKIP (i : Nat) : Nat := 0xb0060 + i * 0x1000
abbrev MPL_CTRL : Nat := 0xb0800
abbrev MPL_CTRL_EVT_STATION : Field := ⟨MPL_CTRL, 7, 4⟩
abbrev MPL_CTRL_MAP_EXPORT : Field := ⟨MPL_CTRL, 2, 2⟩
abbrev MPL_CTRL_DESC_EXPORT : Field := ⟨MPL_CTRL, 1, 1⟩
abbrev MPL_CTRL_MAP_EN : Field := ⟨MPL_CTRL, 0, 0⟩
abbrev MPL_STATUS : Nat := 0xb0804
abbrev MPL_STATUS_EXPORTING : Field := ⟨MPL_STATUS, 3, 3⟩
abbrev MPL_STATUS_CUR_BUF : Field := ⟨MPL_STATUS, 2, 2⟩
abbrev MPL_STATUS_CLEARING : Field := ⟨MPL_STATUS, 1, 1⟩
abbrev MPL_STATUS_MAP_READY : Field := ⟨MPL_STATUS, 0, 0⟩
abbrev MPL_FLAGS : Nat := 0xb0808
abbrev MPL_FLAGS_WRITE_LOCKED : Field := ⟨MPL_FLAGS, 4, 4⟩
abbrev MPL_FLAGS_MAP_TIME_END : Field := ⟨MPL_FLAGS, 3, 3⟩
abbrev MPL_FLAGS_DESC_DROP : Field := ⟨MPL_FLAGS, 2, 2⟩
abbrev MPL_FLAGS_MAP_LATE : Field := ⟨MPL_FLAGS, 1, 1⟩
abbrev MPL_FLAGS_NOT_READY : Field := ⟨MPL_FLAGS, 0, 0⟩
abbrev MPL_MAP_X0 : Nat := 0xb080c
abbrev MPL_MAP_Y0 : Nat := 0xb0810
abbrev MPL_MAP_SIZE : Nat := 0xb0814
abbrev MPL_MAP_BASE_A : Nat := 0xb0818
abbrev MPL_MAP_BASE_A_DRAM : Field := ⟨MPL_MAP_BASE_A, 15, 0⟩
abbrev MPL_MAP_BASE_B : Nat := 0xb081c
abbrev MPL_HEAT_BASE : Nat := 0xb0820
abbrev MPL_HEAT_BASE_BASE : Field := ⟨MPL_HEAT_BASE, 15, 0⟩
abbrev MPL_HEAT_W0 : Nat := 0xb0824
abbrev MPL_HEAT_W0_WE : Field := ⟨MPL_HEAT_W0, 31, 16⟩
abbrev MPL_HEAT_W0_WC : Field := ⟨MPL_HEAT_W0, 15, 0⟩
abbrev MPL_HEAT_W1 : Nat := 0xb0828
abbrev MPL_HEAT_W1_WK : Field := ⟨MPL_HEAT_W1, 15, 0⟩
abbrev MPL_AGE_SHIFT : Nat := 0xb082c
abbrev MPL_AGE_SHIFT_SH : Field := ⟨MPL_AGE_SHIFT, 3, 0⟩
abbrev MPL_VIS_LAG : Nat := 0xb0830
abbrev MPL_MAP_TIME_LO : Nat := 0xb0834
abbrev MPL_MAP_TIME_HI : Nat := 0xb0838
abbrev MPL_MAP_OPEN_LO : Nat := 0xb083c
abbrev MPL_MAP_OPEN_HI : Nat := 0xb0840
abbrev MPL_MAP_LATE : Nat := 0xb0844
abbrev MPL_MAP_SKIP : Nat := 0xb0848
abbrev MPL_DESC_BASE : Nat := 0xb084c
abbrev MPL_DESC_SIZE : Nat := 0xb0850
abbrev MPL_DESC_DROPS : Nat := 0xb0854
abbrev MPL_DESC_FILL : Nat := 0xb0858
abbrev MPL_TGT_BASE : Nat := 0xb085c
abbrev MPL_DECAY (i : Nat) : Nat := 0xb0900 + i * 0x4
abbrev MPL_DECAY_DECAY (i : Nat) : Field := ⟨(MPL_DECAY i), 31, 16⟩

/-! ### AXS (R327) -/

abbrev AXS_CTRL (i : Nat) : Nat := 0xc0000 + i * 0x100
abbrev AXS_CTRL_MS_FIXED (i : Nat) : Field := ⟨(AXS_CTRL i), 7, 5⟩
abbrev AXS_CTRL_MS_AUTO (i : Nat) : Field := ⟨(AXS_CTRL i), 4, 4⟩
abbrev AXS_CTRL_SOFT_EN (i : Nat) : Field := ⟨(AXS_CTRL i), 3, 3⟩
abbrev AXS_CTRL_DIR_INV (i : Nat) : Field := ⟨(AXS_CTRL i), 2, 2⟩
abbrev AXS_CTRL_EN_POL (i : Nat) : Field := ⟨(AXS_CTRL i), 1, 1⟩
abbrev AXS_CTRL_EN (i : Nat) : Field := ⟨(AXS_CTRL i), 0, 0⟩
abbrev AXS_STATUS (i : Nat) : Nat := 0xc0004 + i * 0x100
abbrev AXS_STATUS_HCAUSE (i : Nat) : Field := ⟨(AXS_STATUS i), 14, 12⟩
abbrev AXS_STATUS_HSTATE (i : Nat) : Field := ⟨(AXS_STATUS i), 11, 9⟩
abbrev AXS_STATUS_MS_LEVEL (i : Nat) : Field := ⟨(AXS_STATUS i), 8, 6⟩
abbrev AXS_STATUS_DIR (i : Nat) : Field := ⟨(AXS_STATUS i), 5, 5⟩
abbrev AXS_STATUS_HOMED (i : Nat) : Field := ⟨(AXS_STATUS i), 3, 3⟩
abbrev AXS_STATUS_STOPPING (i : Nat) : Field := ⟨(AXS_STATUS i), 2, 2⟩
abbrev AXS_STATUS_MOVE_PENDING (i : Nat) : Field := ⟨(AXS_STATUS i), 1, 1⟩
abbrev AXS_STATUS_MOVING (i : Nat) : Field := ⟨(AXS_STATUS i), 0, 0⟩
abbrev AXS_FLAGS (i : Nat) : Nat := 0xc0008 + i * 0x100
abbrev AXS_FLAGS_WRITE_LOCKED (i : Nat) : Field := ⟨(AXS_FLAGS i), 8, 8⟩
abbrev AXS_FLAGS_RATE_CLAMP (i : Nat) : Field := ⟨(AXS_FLAGS i), 7, 7⟩
abbrev AXS_FLAGS_PEND_DROP (i : Nat) : Field := ⟨(AXS_FLAGS i), 6, 6⟩
abbrev AXS_FLAGS_CHATTER (i : Nat) : Field := ⟨(AXS_FLAGS i), 5, 5⟩
abbrev AXS_FLAGS_HOMING_FAIL (i : Nat) : Field := ⟨(AXS_FLAGS i), 4, 4⟩
abbrev AXS_FLAGS_HOMING_LIMIT (i : Nat) : Field := ⟨(AXS_FLAGS i), 3, 3⟩
abbrev AXS_FLAGS_SOFT_LIMIT (i : Nat) : Field := ⟨(AXS_FLAGS i), 2, 2⟩
abbrev AXS_FLAGS_LIMIT_BLOCK (i : Nat) : Field := ⟨(AXS_FLAGS i), 1, 1⟩
abbrev AXS_FLAGS_LIMIT_TRIP (i : Nat) : Field := ⟨(AXS_FLAGS i), 0, 0⟩
abbrev AXS_CMD (i : Nat) : Nat := 0xc000c + i * 0x100
abbrev AXS_POS (i : Nat) : Nat := 0xc0010 + i * 0x100
abbrev AXS_TARGET (i : Nat) : Nat := 0xc0014 + i * 0x100
abbrev AXS_PENDING (i : Nat) : Nat := 0xc0018 + i * 0x100
abbrev AXS_SPEED (i : Nat) : Nat := 0xc001c + i * 0x100
abbrev AXS_ACC (i : Nat) : Nat := 0xc0020 + i * 0x100
abbrev AXS_DEC (i : Nat) : Nat := 0xc0024 + i * 0x100
abbrev AXS_VSTART (i : Nat) : Nat := 0xc0028 + i * 0x100
abbrev AXS_VEL (i : Nat) : Nat := 0xc002c + i * 0x100
abbrev AXS_SOFT_MIN (i : Nat) : Nat := 0xc0030 + i * 0x100
abbrev AXS_SOFT_MAX (i : Nat) : Nat := 0xc0034 + i * 0x100
abbrev AXS_MS_THR (i j : Nat) : Nat := 0xc0038 + i * 0x100 + j * 0x4
abbrev AXS_MS_HYST (i : Nat) : Nat := 0xc0048 + i * 0x100
abbrev AXS_MS_MAP (i : Nat) : Nat := 0xc004c + i * 0x100
abbrev AXS_TIMING (i : Nat) : Nat := 0xc0050 + i * 0x100
abbrev AXS_TIMING_EN_DELAY (i : Nat) : Field := ⟨(AXS_TIMING i), 31, 24⟩
abbrev AXS_TIMING_MS_SETUP (i : Nat) : Field := ⟨(AXS_TIMING i), 23, 16⟩
abbrev AXS_TIMING_DIR_SETUP (i : Nat) : Field := ⟨(AXS_TIMING i), 15, 8⟩
abbrev AXS_TIMING_STEP_PW (i : Nat) : Field := ⟨(AXS_TIMING i), 7, 0⟩
abbrev AXS_LIM_CFG (i : Nat) : Nat := 0xc0054 + i * 0x100
abbrev AXS_LIM_CFG_FILT (i : Nat) : Field := ⟨(AXS_LIM_CFG i), 31, 16⟩
abbrev AXS_LIM_CFG_LIM_EN (i : Nat) : Field := ⟨(AXS_LIM_CFG i), 6, 4⟩
abbrev AXS_LIM_CFG_POL (i : Nat) : Field := ⟨(AXS_LIM_CFG i), 2, 0⟩
abbrev AXS_LIM_LATCH (i : Nat) : Nat := 0xc0058 + i * 0x100
abbrev AXS_HOME_LATCH (i : Nat) : Nat := 0xc005c + i * 0x100
abbrev AXS_CHATTER (i : Nat) : Nat := 0xc0060 + i * 0x100
abbrev AXS_CHAT_THR (i : Nat) : Nat := 0xc0064 + i * 0x100
abbrev AXS_HOME_CFG (i : Nat) : Nat := 0xc0068 + i * 0x100
abbrev AXS_HOME_CFG_FB_CH (i : Nat) : Field := ⟨(AXS_HOME_CFG i), 6, 4⟩
abbrev AXS_HOME_CFG_IDX_EN (i : Nat) : Field := ⟨(AXS_HOME_CFG i), 3, 3⟩
abbrev AXS_HOME_CFG_SRC (i : Nat) : Field := ⟨(AXS_HOME_CFG i), 2, 1⟩
abbrev AXS_HOME_CFG_DIR (i : Nat) : Field := ⟨(AXS_HOME_CFG i), 0, 0⟩
abbrev AXS_HOME_FAST (i : Nat) : Nat := 0xc006c + i * 0x100
abbrev AXS_HOME_SLOW (i : Nat) : Nat := 0xc0070 + i * 0x100
abbrev AXS_HOME_BACKOFF (i : Nat) : Nat := 0xc0074 + i * 0x100
abbrev AXS_HOME_MAXDIST (i : Nat) : Nat := 0xc0078 + i * 0x100
abbrev AXS_HOME_IDXDIST (i : Nat) : Nat := 0xc007c + i * 0x100
abbrev AXS_HOME_POS (i : Nat) : Nat := 0xc0080 + i * 0x100
abbrev AXS_INPUTS (i : Nat) : Nat := 0xc0084 + i * 0x100

/-! ### ISP (R358, R359, R361) -/

abbrev ISP_CTRL : Nat := 0xd0000
abbrev ISP_CTRL_ENABLE : Field := ⟨ISP_CTRL, 0, 0⟩
abbrev ISP_STATUS : Nat := 0xd0004
abbrev ISP_STATUS_CAP : Field := ⟨ISP_STATUS, 25, 16⟩
abbrev ISP_FLAGS : Nat := 0xd0008
abbrev ISP_FLAGS_DPC_ORDER : Field := ⟨ISP_FLAGS, 1, 1⟩
abbrev ISP_FLAGS_WRITE_LOCKED : Field := ⟨ISP_FLAGS, 0, 0⟩
abbrev ISP_DPC_COUNT : Nat := 0xd000c
abbrev ISP_DPC (i : Nat) : Nat := 0xd1000 + i * 0x4
abbrev ISPC_CTRL (i : Nat) : Nat := 0xd0100 + i * 0x100
abbrev ISPC_CTRL_PRIO (i : Nat) : Field := ⟨(ISPC_CTRL i), 5, 4⟩
abbrev ISPC_CTRL_EN (i : Nat) : Field := ⟨(ISPC_CTRL i), 0, 0⟩
abbrev ISPC_STATUS (i : Nat) : Nat := 0xd0104 + i * 0x100
abbrev ISPC_STATUS_EXP_BUSY (i : Nat) : Field := ⟨(ISPC_STATUS i), 2, 2⟩
abbrev ISPC_STATUS_ADMITTED (i : Nat) : Field := ⟨(ISPC_STATUS i), 1, 1⟩
abbrev ISPC_STATUS_BUSY (i : Nat) : Field := ⟨(ISPC_STATUS i), 0, 0⟩
abbrev ISPC_FLAGS (i : Nat) : Nat := 0xd0108 + i * 0x100
abbrev ISPC_FLAGS_WRITE_LOCKED (i : Nat) : Field := ⟨(ISPC_FLAGS i), 6, 6⟩
abbrev ISPC_FLAGS_I2C_ERR (i : Nat) : Field := ⟨(ISPC_FLAGS i), 5, 5⟩
abbrev ISPC_FLAGS_EXP_FAIL (i : Nat) : Field := ⟨(ISPC_FLAGS i), 4, 4⟩
abbrev ISPC_FLAGS_TRIG_TMO (i : Nat) : Field := ⟨(ISPC_FLAGS i), 3, 3⟩
abbrev ISPC_FLAGS_TRIG_MISS (i : Nat) : Field := ⟨(ISPC_FLAGS i), 2, 2⟩
abbrev ISPC_FLAGS_OVERFLOW (i : Nat) : Field := ⟨(ISPC_FLAGS i), 1, 1⟩
abbrev ISPC_FLAGS_DROP (i : Nat) : Field := ⟨(ISPC_FLAGS i), 0, 0⟩
abbrev ISPC_PORT (i : Nat) : Nat := 0xd010c + i * 0x100
abbrev ISPC_PORT_LINE_SRC (i : Nat) : Field := ⟨(ISPC_PORT i), 11, 11⟩
abbrev ISPC_PORT_POL (i : Nat) : Field := ⟨(ISPC_PORT i), 10, 8⟩
abbrev ISPC_PORT_PACK8 (i : Nat) : Field := ⟨(ISPC_PORT i), 7, 7⟩
abbrev ISPC_PORT_EDGE (i : Nat) : Field := ⟨(ISPC_PORT i), 6, 5⟩
abbrev ISPC_PORT_DW (i : Nat) : Field := ⟨(ISPC_PORT i), 4, 0⟩
abbrev ISPC_SIZE (i : Nat) : Nat := 0xd0110 + i * 0x100
abbrev ISPC_RATE (i : Nat) : Nat := 0xd0114 + i * 0x100
abbrev ISPC_TRIG (i : Nat) : Nat := 0xd0118 + i * 0x100
abbrev ISPC_TRIG_HOLDOFF (i : Nat) : Field := ⟨(ISPC_TRIG i), 31, 16⟩
abbrev ISPC_TRIG_PW (i : Nat) : Field := ⟨(ISPC_TRIG i), 15, 8⟩
abbrev ISPC_TRIG_REG_EN (i : Nat) : Field := ⟨(ISPC_TRIG i), 4, 4⟩
abbrev ISPC_TRIG_CMP_EN (i : Nat) : Field := ⟨(ISPC_TRIG i), 3, 3⟩
abbrev ISPC_TRIG_MODE (i : Nat) : Field := ⟨(ISPC_TRIG i), 0, 0⟩
abbrev ISPC_TRIG_NOW (i : Nat) : Nat := 0xd011c + i * 0x100
abbrev ISPC_TRIG_TMO (i : Nat) : Nat := 0xd0120 + i * 0x100
abbrev ISPC_EXPOSURE (i : Nat) : Nat := 0xd0124 + i * 0x100
abbrev ISPC_EXPOSURE_EXP_WIN (i : Nat) : Field := ⟨(ISPC_EXPOSURE i), 31, 16⟩
abbrev ISPC_EXPOSURE_EXPOSURE (i : Nat) : Field := ⟨(ISPC_EXPOSURE i), 15, 0⟩
abbrev ISPC_GAIN (i : Nat) : Nat := 0xd0128 + i * 0x100
abbrev ISPC_EXP_DELAY (i : Nat) : Nat := 0xd012c + i * 0x100
abbrev ISPC_EXP_REGS (i : Nat) : Nat := 0xd0130 + i * 0x100
abbrev ISPC_EXP_REGS_GAIN_REG (i : Nat) : Field := ⟨(ISPC_EXP_REGS i), 31, 16⟩
abbrev ISPC_EXP_REGS_EXP_REG (i : Nat) : Field := ⟨(ISPC_EXP_REGS i), 15, 0⟩
abbrev ISPC_EXP_HOLD (i : Nat) : Nat := 0xd0134 + i * 0x100
abbrev ISPC_EXP_HOLD_REL_VAL (i : Nat) : Field := ⟨(ISPC_EXP_HOLD i), 31, 24⟩
abbrev ISPC_EXP_HOLD_HOLD_VAL (i : Nat) : Field := ⟨(ISPC_EXP_HOLD i), 23, 16⟩
abbrev ISPC_EXP_HOLD_HOLD_REG (i : Nat) : Field := ⟨(ISPC_EXP_HOLD i), 15, 0⟩
abbrev ISPC_EXP_DEV (i : Nat) : Nat := 0xd0138 + i * 0x100
abbrev ISPC_EXP_DEV_EN (i : Nat) : Field := ⟨(ISPC_EXP_DEV i), 7, 7⟩
abbrev ISPC_EXP_DEV_EXP_DEV (i : Nat) : Field := ⟨(ISPC_EXP_DEV i), 6, 0⟩
abbrev ISPC_EXP_TAG (i : Nat) : Nat := 0xd013c + i * 0x100
abbrev ISPC_EXP_TAG_TAG (i : Nat) : Field := ⟨(ISPC_EXP_TAG i), 7, 0⟩
abbrev ISPC_BLACK (i j : Nat) : Nat := 0xd0140 + i * 0x100 + j * 0x4
abbrev ISPC_BLACK_BL (i j : Nat) : Field := ⟨(ISPC_BLACK i j), 31, 16⟩
abbrev ISPC_MOSAIC0 (i : Nat) : Nat := 0xd0160 + i * 0x100
abbrev ISPC_MOSAIC1 (i : Nat) : Nat := 0xd0164 + i * 0x100
abbrev ISPC_SHADE_BASE (i : Nat) : Nat := 0xd0168 + i * 0x100
abbrev ISPC_DPC (i : Nat) : Nat := 0xd016c + i * 0x100
abbrev ISPC_DPC_SHADE_EN (i : Nat) : Field := ⟨(ISPC_DPC i), 18, 18⟩
abbrev ISPC_DPC_STATIC_EN (i : Nat) : Field := ⟨(ISPC_DPC i), 17, 17⟩
abbrev ISPC_DPC_DYN_EN (i : Nat) : Field := ⟨(ISPC_DPC i), 16, 16⟩
abbrev ISPC_DPC_DYN_THR (i : Nat) : Field := ⟨(ISPC_DPC i), 15, 0⟩
abbrev ISPC_IRSUB0 (i : Nat) : Nat := 0xd0170 + i * 0x100
abbrev ISPC_IRSUB0_KG (i : Nat) : Field := ⟨(ISPC_IRSUB0 i), 31, 16⟩
abbrev ISPC_IRSUB0_KR (i : Nat) : Field := ⟨(ISPC_IRSUB0 i), 15, 0⟩
abbrev ISPC_IRSUB1 (i : Nat) : Nat := 0xd0174 + i * 0x100
abbrev ISPC_IRSUB1_KB (i : Nat) : Field := ⟨(ISPC_IRSUB1 i), 15, 0⟩
abbrev ISPC_LUMA0 (i : Nat) : Nat := 0xd0178 + i * 0x100
abbrev ISPC_LUMA0_KYG (i : Nat) : Field := ⟨(ISPC_LUMA0 i), 31, 16⟩
abbrev ISPC_LUMA0_KYR (i : Nat) : Field := ⟨(ISPC_LUMA0 i), 15, 0⟩
abbrev ISPC_LUMA1 (i : Nat) : Nat := 0xd017c + i * 0x100
abbrev ISPC_LUMA1_KYB (i : Nat) : Field := ⟨(ISPC_LUMA1 i), 15, 0⟩
abbrev ISPC_OUT (i : Nat) : Nat := 0xd0180 + i * 0x100
abbrev ISPC_OUT_EXPORT (i : Nat) : Field := ⟨(ISPC_OUT i), 9, 8⟩
abbrev ISPC_OUT_FORMAT (i : Nat) : Field := ⟨(ISPC_OUT i), 3, 0⟩
abbrev ISPC_OUT_BASE (i : Nat) : Nat := 0xd0184 + i * 0x100
abbrev ISPC_OUT_BASE_DRAM (i : Nat) : Field := ⟨(ISPC_OUT_BASE i), 15, 0⟩
abbrev ISPC_OUT_SLOTS (i : Nat) : Nat := 0xd0188 + i * 0x100
abbrev ISPC_FRAMES (i : Nat) : Nat := 0xd0190 + i * 0x100
abbrev ISPC_DROPS (i : Nat) : Nat := 0xd0194 + i * 0x100
abbrev ISPC_TRIG_MISS (i : Nat) : Nat := 0xd0198 + i * 0x100
abbrev ISPC_FRAME_NO (i : Nat) : Nat := 0xd019c + i * 0x100
abbrev ISP_I2C_CFG (i : Nat) : Nat := 0xd0600 + i * 0x20
abbrev ISP_I2C_CFG_TIMEOUT (i : Nat) : Field := ⟨(ISP_I2C_CFG i), 31, 16⟩
abbrev ISP_I2C_CFG_SPEED (i : Nat) : Field := ⟨(ISP_I2C_CFG i), 1, 0⟩
abbrev ISP_I2C_XFER (i : Nat) : Nat := 0xd0604 + i * 0x20
abbrev ISP_I2C_XFER_RN (i : Nat) : Field := ⟨(ISP_I2C_XFER i), 15, 13⟩
abbrev ISP_I2C_XFER_WN (i : Nat) : Field := ⟨(ISP_I2C_XFER i), 12, 10⟩
abbrev ISP_I2C_XFER_AW (i : Nat) : Field := ⟨(ISP_I2C_XFER i), 9, 8⟩
abbrev ISP_I2C_XFER_DEV (i : Nat) : Field := ⟨(ISP_I2C_XFER i), 6, 0⟩
abbrev ISP_I2C_REG (i : Nat) : Nat := 0xd0608 + i * 0x20
abbrev ISP_I2C_WDATA (i : Nat) : Nat := 0xd060c + i * 0x20
abbrev ISP_I2C_CMD (i : Nat) : Nat := 0xd0610 + i * 0x20
abbrev ISP_I2C_STAT (i : Nat) : Nat := 0xd0614 + i * 0x20
abbrev ISP_I2C_STAT_RESULT (i : Nat) : Field := ⟨(ISP_I2C_STAT i), 3, 2⟩
abbrev ISP_I2C_STAT_PENDING (i : Nat) : Field := ⟨(ISP_I2C_STAT i), 1, 1⟩
abbrev ISP_I2C_STAT_BUSY (i : Nat) : Field := ⟨(ISP_I2C_STAT i), 0, 0⟩
abbrev ISP_I2C_RDATA (i : Nat) : Nat := 0xd0618 + i * 0x20

/-! ### TAP (R378, R379, R381) -/

abbrev TAP_CTRL : Nat := 0xe0000
abbrev TAP_CTRL_OUT_SEL : Field := ⟨TAP_CTRL, 2, 1⟩
abbrev TAP_CTRL_ENABLE : Field := ⟨TAP_CTRL, 0, 0⟩
abbrev TAP_STATUS : Nat := 0xe0004
abbrev TAP_STATUS_RATE : Field := ⟨TAP_STATUS, 25, 16⟩
abbrev TAP_STATUS_RUNNING : Field := ⟨TAP_STATUS, 0, 0⟩
abbrev TAP_FLAGS : Nat := 0xe0008
abbrev TAP_FLAGS_CFG_ERR : Field := ⟨TAP_FLAGS, 5, 5⟩
abbrev TAP_FLAGS_WRITE_LOCKED : Field := ⟨TAP_FLAGS, 4, 4⟩
abbrev TAP_FLAGS_MEM_DROP : Field := ⟨TAP_FLAGS, 3, 3⟩
abbrev TAP_FLAGS_UNDERRUN : Field := ⟨TAP_FLAGS, 2, 2⟩
abbrev TAP_FLAGS_BLANK : Field := ⟨TAP_FLAGS, 1, 1⟩
abbrev TAP_FLAGS_STALE : Field := ⟨TAP_FLAGS, 0, 0⟩
abbrev TAP_FRAME : Nat := 0xe000c
abbrev TAP_BG : Nat := 0xe0010
abbrev TAP_MEM_BASE : Nat := 0xe0014
abbrev TAP_MEM_BASE_DRAM : Field := ⟨TAP_MEM_BASE, 15, 0⟩
abbrev TAP_MEM_SLOTS : Nat := 0xe0018
abbrev TAP_MEM_CFG : Nat := 0xe001c
abbrev TAP_MEM_CFG_DIV : Field := ⟨TAP_MEM_CFG, 23, 16⟩
abbrev TAP_MEM_CFG_EXPORT : Field := ⟨TAP_MEM_CFG, 2, 2⟩
abbrev TAP_MEM_CFG_FORMAT : Field := ⟨TAP_MEM_CFG, 0, 0⟩
abbrev TAP_MEM_PERIOD : Nat := 0xe0020
abbrev TAP_FRAME_NO : Nat := 0xe0024
abbrev TAP_MEM_SKIP : Nat := 0xe0028
abbrev TAP_MEM_DROPS : Nat := 0xe002c
abbrev TAP_UNDERRUNS : Nat := 0xe0030
abbrev TAP_VID_CTRL : Nat := 0xe0040
abbrev TAP_VID_CTRL_PCLK_EDGE : Field := ⟨TAP_VID_CTRL, 4, 4⟩
abbrev TAP_VID_CTRL_DE_POL : Field := ⟨TAP_VID_CTRL, 3, 3⟩
abbrev TAP_VID_CTRL_VS_POL : Field := ⟨TAP_VID_CTRL, 2, 2⟩
abbrev TAP_VID_CTRL_HS_POL : Field := ⟨TAP_VID_CTRL, 1, 1⟩
abbrev TAP_VID_CTRL_VID_EN : Field := ⟨TAP_VID_CTRL, 0, 0⟩
abbrev TAP_VID_PCLK : Nat := 0xe0044
abbrev TAP_VID_H0 : Nat := 0xe0048
abbrev TAP_VID_H0_HFP : Field := ⟨TAP_VID_H0, 27, 16⟩
abbrev TAP_VID_H0_HACT : Field := ⟨TAP_VID_H0, 11, 0⟩
abbrev TAP_VID_H1 : Nat := 0xe004c
abbrev TAP_VID_H1_HBP : Field := ⟨TAP_VID_H1, 27, 16⟩
abbrev TAP_VID_H1_HSYNC : Field := ⟨TAP_VID_H1, 11, 0⟩
abbrev TAP_VID_V0 : Nat := 0xe0050
abbrev TAP_VID_V0_VFP : Field := ⟨TAP_VID_V0, 27, 16⟩
abbrev TAP_VID_V0_VACT : Field := ⟨TAP_VID_V0, 11, 0⟩
abbrev TAP_VID_V1 : Nat := 0xe0054
abbrev TAP_VID_V1_VBP : Field := ⟨TAP_VID_V1, 27, 16⟩
abbrev TAP_VID_V1_VSYNC : Field := ⟨TAP_VID_V1, 11, 0⟩
abbrev TAP_VID_LINE : Nat := 0xe0058
abbrev TAPP_CTRL (i : Nat) : Nat := 0xe0100 + i * 0x40
abbrev TAPP_CTRL_GA (i : Nat) : Field := ⟨(TAPP_CTRL i), 31, 24⟩
abbrev TAPP_CTRL_EXPECT (i : Nat) : Field := ⟨(TAPP_CTRL i), 23, 16⟩
abbrev TAPP_CTRL_FMT (i : Nat) : Field := ⟨(TAPP_CTRL i), 11, 11⟩
abbrev TAPP_CTRL_Y_FLIP (i : Nat) : Field := ⟨(TAPP_CTRL i), 10, 10⟩
abbrev TAPP_CTRL_LUT_EN (i : Nat) : Field := ⟨(TAPP_CTRL i), 9, 9⟩
abbrev TAPP_CTRL_MAP_SEL (i : Nat) : Field := ⟨(TAPP_CTRL i), 8, 8⟩
abbrev TAPP_CTRL_CAM (i : Nat) : Field := ⟨(TAPP_CTRL i), 7, 6⟩
abbrev TAPP_CTRL_SRC (i : Nat) : Field := ⟨(TAPP_CTRL i), 3, 1⟩
abbrev TAPP_CTRL_EN (i : Nat) : Field := ⟨(TAPP_CTRL i), 0, 0⟩
abbrev TAPP_COMMIT (i : Nat) : Nat := 0xe0104 + i * 0x40
abbrev TAPP_COMMIT_COMMIT (i : Nat) : Field := ⟨(TAPP_COMMIT i), 0, 0⟩
abbrev TAPP_FLIP (i : Nat) : Nat := 0xe0108 + i * 0x40
abbrev TAPP_FLIP_FLIP (i : Nat) : Field := ⟨(TAPP_FLIP i), 0, 0⟩
abbrev TAPP_STATUS (i : Nat) : Nat := 0xe010c + i * 0x40
abbrev TAPP_STATUS_FLIP_PEND (i : Nat) : Field := ⟨(TAPP_STATUS i), 4, 4⟩
abbrev TAPP_STATUS_BLANKED (i : Nat) : Field := ⟨(TAPP_STATUS i), 3, 3⟩
abbrev TAPP_STATUS_STALE (i : Nat) : Field := ⟨(TAPP_STATUS i), 2, 2⟩
abbrev TAPP_STATUS_READY (i : Nat) : Field := ⟨(TAPP_STATUS i), 1, 1⟩
abbrev TAPP_STATUS_SHOWN (i : Nat) : Field := ⟨(TAPP_STATUS i), 0, 0⟩
abbrev TAPP_POS (i : Nat) : Nat := 0xe0110 + i * 0x40
abbrev TAPP_SIZE (i : Nat) : Nat := 0xe0114 + i * 0x40
abbrev TAPP_SRC_XY (i : Nat) : Nat := 0xe0118 + i * 0x40
abbrev TAPP_SRC_XY_SY (i : Nat) : Field := ⟨(TAPP_SRC_XY i), 31, 16⟩
abbrev TAPP_SRC_XY_SX (i : Nat) : Field := ⟨(TAPP_SRC_XY i), 15, 0⟩
abbrev TAPP_STEP (i : Nat) : Nat := 0xe011c + i * 0x40
abbrev TAPP_STEP_DY (i : Nat) : Field := ⟨(TAPP_STEP i), 31, 16⟩
abbrev TAPP_STEP_DX (i : Nat) : Field := ⟨(TAPP_STEP i), 15, 0⟩
abbrev TAPP_BASE0 (i : Nat) : Nat := 0xe0120 + i * 0x40
abbrev TAPP_BASE1 (i : Nat) : Nat := 0xe0124 + i * 0x40
abbrev TAPP_PITCH (i : Nat) : Nat := 0xe0128 + i * 0x40
abbrev TAPP_CLUT (i : Nat) : Nat := 0xe012c + i * 0x40
abbrev TAPP_TMAP (i : Nat) : Nat := 0xe0130 + i * 0x40
abbrev TAPP_TMAP_TMIN (i : Nat) : Field := ⟨(TAPP_TMAP i), 31, 16⟩
abbrev TAPP_TMAP_TSH (i : Nat) : Field := ⟨(TAPP_TMAP i), 3, 0⟩
abbrev TAPP_STALE_MAX (i : Nat) : Nat := 0xe0134 + i * 0x40
abbrev TAPP_STALE_CNT (i : Nat) : Nat := 0xe0138 + i * 0x40
abbrev TAPP_STALES (i : Nat) : Nat := 0xe013c + i * 0x40
abbrev TAP_CUR_CTRL : Nat := 0xe0400
abbrev TAP_CUR_CTRL_MASK : Field := ⟨TAP_CUR_CTRL, 31, 16⟩
abbrev TAP_CUR_CTRL_Y_FLIP : Field := ⟨TAP_CUR_CTRL, 1, 1⟩
abbrev TAP_CUR_CTRL_EN : Field := ⟨TAP_CUR_CTRL, 0, 0⟩
abbrev TAP_CUR_COMMIT : Nat := 0xe0404
abbrev TAP_CUR_COMMIT_COMMIT : Field := ⟨TAP_CUR_COMMIT, 0, 0⟩
abbrev TAP_CUR_X0 : Nat := 0xe0408
abbrev TAP_CUR_Y0 : Nat := 0xe040c
abbrev TAP_CUR_SCALE : Nat := 0xe0410
abbrev TAP_CUR_IMG : Nat := 0xe0414
abbrev TAP_CUR_COL_ON : Nat := 0xe0418
abbrev TAP_CUR_COL_OFF : Nat := 0xe041c
abbrev TAP_CUR_COL_HELD : Nat := 0xe0420
abbrev TAP_CUR_COL_SUSPECT : Nat := 0xe0424
abbrev TAP_CUR_COL2 : Nat := 0xe0428
abbrev TAP_CUR_COL3 : Nat := 0xe042c

/-! ### LMP (R398) -/

abbrev LMP_CTRL : Nat := 0xf0000
abbrev LMP_CTRL_TEST_EN : Field := ⟨LMP_CTRL, 3, 3⟩
abbrev LMP_CTRL_COLOUR_EN : Field := ⟨LMP_CTRL, 2, 2⟩
abbrev LMP_CTRL_MTX_EN : Field := ⟨LMP_CTRL, 1, 1⟩
abbrev LMP_CTRL_CHAIN_EN : Field := ⟨LMP_CTRL, 0, 0⟩
abbrev LMP_STATUS : Nat := 0xf0004
abbrev LMP_STATUS_DRIVERS : Field := ⟨LMP_STATUS, 21, 16⟩
abbrev LMP_STATUS_CHAIN_BUSY : Field := ⟨LMP_STATUS, 8, 8⟩
abbrev LMP_FLAGS : Nat := 0xf0008
abbrev LMP_FLAGS_WRITE_LOCKED : Field := ⟨LMP_FLAGS, 7, 7⟩
abbrev LMP_FLAGS_DERATE_HOLD : Field := ⟨LMP_FLAGS, 6, 6⟩
abbrev LMP_FLAGS_COL_LIMIT : Field := ⟨LMP_FLAGS, 5, 5⟩
abbrev LMP_FLAGS_DERATED : Field := ⟨LMP_FLAGS, 4, 4⟩
abbrev LMP_FLAGS_MTX_CONFLICT : Field := ⟨LMP_FLAGS, 3, 3⟩
abbrev LMP_FLAGS_FLASH_LATE : Field := ⟨LMP_FLAGS, 2, 2⟩
abbrev LMP_FLAGS_LAMP_OPEN : Field := ⟨LMP_FLAGS, 1, 1⟩
abbrev LMP_FLAGS_CHAIN_ERR : Field := ⟨LMP_FLAGS, 0, 0⟩
abbrev LMP_CHAIN_CFG : Nat := 0xf000c
abbrev LMP_CHAIN_CFG_DIV : Field := ⟨LMP_CHAIN_CFG, 31, 24⟩
abbrev LMP_CHAIN_CFG_REFRESH : Field := ⟨LMP_CHAIN_CFG, 23, 16⟩
abbrev LMP_CHAIN_CFG_COUNT : Field := ⟨LMP_CHAIN_CFG, 5, 0⟩
abbrev LMP_CHAIN_COMMIT : Nat := 0xf0010
abbrev LMP_CHAIN_COMMIT_R385 : Field := ⟨LMP_CHAIN_COMMIT, 0, 0⟩
abbrev LMP_FLASH_CFG : Nat := 0xf0014
abbrev LMP_FLASH_CFG_HIT_US : Field := ⟨LMP_FLASH_CFG, 31, 16⟩
abbrev LMP_FLASH_CFG_PORTS : Field := ⟨LMP_FLASH_CFG, 3, 0⟩
abbrev LMP_MTX_CFG : Nat := 0xf0018
abbrev LMP_MTX_CFG_ROW_US : Field := ⟨LMP_MTX_CFG, 15, 0⟩
abbrev LMP_DERATE0 : Nat := 0xf001c
abbrev LMP_DERATE0_SLOPE : Field := ⟨LMP_DERATE0, 31, 16⟩
abbrev LMP_DERATE0_KNEE : Field := ⟨LMP_DERATE0, 15, 0⟩
abbrev LMP_DERATE1 : Nat := 0xf0020
abbrev LMP_DERATE1_FLOOR : Field := ⟨LMP_DERATE1, 7, 0⟩
abbrev LMP_COL_DEV : Nat := 0xf0024
abbrev LMP_COL_DEV_START_VAL : Field := ⟨LMP_COL_DEV, 31, 24⟩
abbrev LMP_COL_DEV_START_REG : Field := ⟨LMP_COL_DEV, 23, 16⟩
abbrev LMP_COL_DEV_DATA_REG : Field := ⟨LMP_COL_DEV, 15, 8⟩
abbrev LMP_COL_DEV_BE : Field := ⟨LMP_COL_DEV, 7, 7⟩
abbrev LMP_COL_DEV_COL_DEV : Field := ⟨LMP_COL_DEV, 6, 0⟩
abbrev LMP_COL_TIME : Nat := 0xf0028
abbrev LMP_COL_TIME_MEAS_MS : Field := ⟨LMP_COL_TIME, 31, 16⟩
abbrev LMP_COL_TIME_INT_US : Field := ⟨LMP_COL_TIME, 15, 0⟩
abbrev LMP_COL_KI : Nat := 0xf002c
abbrev LMP_COL_KI_KMIN : Field := ⟨LMP_COL_KI, 31, 16⟩
abbrev LMP_COL_KI_KI : Field := ⟨LMP_COL_KI, 15, 0⟩
abbrev LMP_COL_TGT (i : Nat) : Nat := 0xf0030 + i * 0x4
abbrev LMP_COL_MEAS (i : Nat) : Nat := 0xf0040 + i * 0x4
abbrev LMP_COL_GAIN (i : Nat) : Nat := 0xf0050 + i * 0x4
abbrev LMP_COL_DISCARD : Nat := 0xf005c
abbrev LMP_TEMP_DEV : Nat := 0xf0060
abbrev LMP_TEMP_DEV_TEMP_REG : Field := ⟨LMP_TEMP_DEV, 15, 8⟩
abbrev LMP_TEMP_DEV_TEMP_DEV : Field := ⟨LMP_TEMP_DEV, 6, 0⟩
abbrev LMP_MTX_TEMP : Nat := 0xf0064
abbrev LMP_MTX_GROUP : Nat := 0xf0070
abbrev LMP_PAT_LD (i : Nat) : Nat := 0xf0080 + i * 0x8
abbrev LMP_PAT_MTX (i : Nat) : Nat := 0xf0084 + i * 0x8
abbrev LMP_PAT_MTX_EXP_ROW (i : Nat) : Field := ⟨(LMP_PAT_MTX i), 3, 0⟩
abbrev LMP_LD_STEADY (i : Nat) : Nat := 0xf0100 + i * 0x10
abbrev LMP_LD_STEADY_STEADY (i : Nat) : Field := ⟨(LMP_LD_STEADY i), 15, 0⟩
abbrev LMP_LD_FLASH (i : Nat) : Nat := 0xf0104 + i * 0x10
abbrev LMP_LD_FLASH_FLASH (i : Nat) : Field := ⟨(LMP_LD_FLASH i), 15, 0⟩
abbrev LMP_LD_CFG (i : Nat) : Nat := 0xf0108 + i * 0x10
abbrev LMP_LD_CFG_GROUP (i : Nat) : Field := ⟨(LMP_LD_CFG i), 1, 0⟩
abbrev LMP_LD_STATUS (i : Nat) : Nat := 0xf010c + i * 0x10
abbrev LMP_MTX_DUTY (i j : Nat) : Nat := 0xf0400 + i * 0x10 + j * 0x4
abbrev LMP_MTX_DIAG (i : Nat) : Nat := 0xf0500 + i * 0x4

/-! ### TRM (R548, R549) -/

abbrev TRM_CTRL : Nat := 0x100000
abbrev TRM_CTRL_RESTORE : Field := ⟨TRM_CTRL, 2, 2⟩
abbrev TRM_CTRL_AUTO_REG : Field := ⟨TRM_CTRL, 1, 1⟩
abbrev TRM_CTRL_AUTO_DARK : Field := ⟨TRM_CTRL, 0, 0⟩
abbrev TRM_STATUS : Nat := 0x100004
abbrev TRM_STATUS_REG_STATE : Field := ⟨TRM_STATUS, 5, 4⟩
abbrev TRM_STATUS_SAVE_BUSY : Field := ⟨TRM_STATUS, 0, 0⟩
abbrev TRM_FLAGS : Nat := 0x100008
abbrev TRM_FLAGS_WRITE_LOCKED : Field := ⟨TRM_FLAGS, 5, 5⟩
abbrev TRM_FLAGS_RESTORE_SKIP : Field := ⟨TRM_FLAGS, 4, 4⟩
abbrev TRM_FLAGS_RESTORED : Field := ⟨TRM_FLAGS, 3, 3⟩
abbrev TRM_FLAGS_SAVE_FAIL : Field := ⟨TRM_FLAGS, 2, 2⟩
abbrev TRM_FLAGS_REG_FAIL : Field := ⟨TRM_FLAGS, 1, 1⟩
abbrev TRM_FLAGS_STN_FAIL : Field := ⟨TRM_FLAGS, 0, 0⟩
abbrev TRM_CMD : Nat := 0x10000c
abbrev TRM_REG_CFG : Nat := 0x100010
abbrev TRM_REG_CFG_WIN : Field := ⟨TRM_REG_CFG, 31, 16⟩
abbrev TRM_REG_CFG_MIN_MARKS : Field := ⟨TRM_REG_CFG, 11, 8⟩
abbrev TRM_REG_CFG_POL : Field := ⟨TRM_REG_CFG, 4, 4⟩
abbrev TRM_REG_CFG_REG_CAM : Field := ⟨TRM_REG_CFG, 1, 0⟩
abbrev TRM_REG_THR : Nat := 0x100014
abbrev TRM_REG_THR_THR : Field := ⟨TRM_REG_THR, 15, 0⟩
abbrev TRM_REG_MASK : Nat := 0x100018
abbrev TRM_REG_ANCHOR : Nat := 0x10001c
abbrev TRM_REG_ANCHOR_ANCHOR : Field := ⟨TRM_REG_ANCHOR, 3, 0⟩
abbrev TRM_REG_LIM : Nat := 0x100020
abbrev TRM_REG_LIM_OFS_LIM : Field := ⟨TRM_REG_LIM, 31, 16⟩
abbrev TRM_REG_LIM_LIN_LIM : Field := ⟨TRM_REG_LIM, 15, 0⟩
abbrev TRM_CAM_M (i : Nat) : Nat := 0x100024 + i * 0x4
abbrev TRM_CAM_U0 : Nat := 0x100034
abbrev TRM_CAM_V0 : Nat := 0x100038
abbrev TRM_REG_RESULT : Nat := 0x100040
abbrev TRM_REG_RESULT_RESULT : Field := ⟨TRM_REG_RESULT, 3, 0⟩
abbrev TRM_REG_LAYER : Nat := 0x100044
abbrev TRM_REG_SEAM_RMS : Nat := 0x100048
abbrev TRMS_CMD (i : Nat) : Nat := 0x101000 + i * 0x100
abbrev TRMS_STATUS (i : Nat) : Nat := 0x101004 + i * 0x100
abbrev TRMS_STATUS_RESULT (i : Nat) : Field := ⟨(TRMS_STATUS i), 11, 8⟩
abbrev TRMS_STATUS_GRID_PEND (i : Nat) : Field := ⟨(TRMS_STATUS i), 6, 6⟩
abbrev TRMS_STATUS_SLEW_G (i : Nat) : Field := ⟨(TRMS_STATUS i), 5, 5⟩
abbrev TRMS_STATUS_SLEW_D (i : Nat) : Field := ⟨(TRMS_STATUS i), 4, 4⟩
abbrev TRMS_STATUS_STATE (i : Nat) : Field := ⟨(TRMS_STATUS i), 2, 0⟩
abbrev TRMS_DARK_CFG (i : Nat) : Nat := 0x101008 + i * 0x100
abbrev TRMS_DARK_CFG_DARK_SPREAD (i : Nat) : Field := ⟨(TRMS_DARK_CFG i), 31, 16⟩
abbrev TRMS_DARK_CFG_DARK_LOG2 (i : Nat) : Field := ⟨(TRMS_DARK_CFG i), 11, 8⟩
abbrev TRMS_GAIN_CFG (i : Nat) : Nat := 0x10100c + i * 0x100
abbrev TRMS_GAIN_CFG_G_TGT (i : Nat) : Field := ⟨(TRMS_GAIN_CFG i), 31, 24⟩
abbrev TRMS_GAIN_CFG_GSH (i : Nat) : Field := ⟨(TRMS_GAIN_CFG i), 19, 16⟩
abbrev TRMS_GAIN_CFG_G_LOG2 (i : Nat) : Field := ⟨(TRMS_GAIN_CFG i), 11, 8⟩
abbrev TRMS_G_LO (i : Nat) : Nat := 0x101010 + i * 0x100
abbrev TRMS_R_REF (i : Nat) : Nat := 0x101014 + i * 0x100
abbrev TRMS_R_REF_R_REF (i : Nat) : Field := ⟨(TRMS_R_REF i), 23, 0⟩
abbrev TRMS_G_LIM (i : Nat) : Nat := 0x101018 + i * 0x100
abbrev TRMS_G_LIM_G_LIM (i : Nat) : Field := ⟨(TRMS_G_LIM i), 15, 0⟩
abbrev TRMS_SLEW (i : Nat) : Nat := 0x10101c + i * 0x100
abbrev TRMS_TIMEOUT (i : Nat) : Nat := 0x101020 + i * 0x100
abbrev TRMS_DARK_NEW (i : Nat) : Nat := 0x101024 + i * 0x100
abbrev TRMS_DARK_NEW_D2 (i : Nat) : Field := ⟨(TRMS_DARK_NEW i), 31, 16⟩
abbrev TRMS_DARK_NEW_D1 (i : Nat) : Field := ⟨(TRMS_DARK_NEW i), 15, 0⟩
abbrev TRMS_GAIN_NEW (i : Nat) : Nat := 0x101028 + i * 0x100
abbrev TRMS_SPREAD (i : Nat) : Nat := 0x10102c + i * 0x100
abbrev TRMS_G_QMED (i : Nat) : Nat := 0x101030 + i * 0x100
abbrev TRMS_G_OUT (i : Nat) : Nat := 0x101034 + i * 0x100
abbrev TRMS_SAMPLES (i : Nat) : Nat := 0x101038 + i * 0x100
abbrev TRMS_K_A (i j : Nat) : Nat := 0x101040 + i * 0x100 + j * 0x4
abbrev TRMS_K_TX (i : Nat) : Nat := 0x101050 + i * 0x100
abbrev TRMS_K_TY (i : Nat) : Nat := 0x101054 + i * 0x100
abbrev TRMS_SEAM_TX (i : Nat) : Nat := 0x101058 + i * 0x100
abbrev TRMS_SEAM_TY (i : Nat) : Nat := 0x10105c + i * 0x100
abbrev TRMS_GRID_BASE (i : Nat) : Nat := 0x101060 + i * 0x100
abbrev TRMS_MARKS (i : Nat) : Nat := 0x101064 + i * 0x100
abbrev TRMS_RES_RMS (i : Nat) : Nat := 0x101068 + i * 0x100

/-! ### THM (R564) -/

abbrev THM_STATUS : Nat := 0x110000
abbrev THM_STATUS_NVM_HOLD : Field := ⟨THM_STATUS, 5, 5⟩
abbrev THM_STATUS_FAST : Field := ⟨THM_STATUS, 4, 4⟩
abbrev THM_STATUS_LEVEL : Field := ⟨THM_STATUS, 1, 0⟩
abbrev THM_FLAGS : Nat := 0x110004
abbrev THM_FLAGS_NVM_HOLD : Field := ⟨THM_FLAGS, 5, 5⟩
abbrev THM_FLAGS_GRADIENT : Field := ⟨THM_FLAGS, 4, 4⟩
abbrev THM_FLAGS_TS_FAIL : Field := ⟨THM_FLAGS, 3, 3⟩
abbrev THM_FLAGS_THROTTLE : Field := ⟨THM_FLAGS, 2, 2⟩
abbrev THM_FLAGS_WARN : Field := ⟨THM_FLAGS, 1, 1⟩
abbrev THM_WARN : Nat := 0x110008
abbrev THM_WARN_WARN : Field := ⟨THM_WARN, 15, 0⟩
abbrev THM_THROTTLE : Nat := 0x11000c
abbrev THM_THROTTLE_THROTTLE : Field := ⟨THM_THROTTLE, 15, 0⟩
abbrev THM_SHUTDOWN : Nat := 0x110010
abbrev THM_NVM_WIN : Nat := 0x110014
abbrev THM_NVM_WIN_HIGH : Field := ⟨THM_NVM_WIN, 31, 16⟩
abbrev THM_NVM_WIN_LOW : Field := ⟨THM_NVM_WIN, 15, 0⟩
abbrev THM_XSPI_TS : Nat := 0x110018
abbrev THM_XSPI_TS_NVM : Field := ⟨THM_XSPI_TS, 4, 0⟩
abbrev THM_THR_ACT : Nat := 0x11001c
abbrev THM_THR_CAP : Nat := 0x110020
abbrev THM_TMAX : Nat := 0x110024
abbrev THM_MAX_SEEN : Nat := 0x110028
abbrev THM_FAILED : Nat := 0x11002c
abbrev THM_THR_MS : Nat := 0x110030
abbrev THM_LAST_SHUT : Nat := 0x110034
abbrev THM_LAST_SHUT_VALID : Field := ⟨THM_LAST_SHUT, 31, 31⟩
abbrev THM_TS (i : Nat) : Nat := 0x110100 + i * 0x4

/-! ### WAL (R605) -/

abbrev WAL_CTRL : Nat := 0x120000
abbrev WAL_CTRL_NOTE_EN : Field := ⟨WAL_CTRL, 1, 1⟩
abbrev WAL_CTRL_EN : Field := ⟨WAL_CTRL, 0, 0⟩
abbrev WAL_STATUS : Nat := 0x120004
abbrev WAL_STATUS_EARLY : Field := ⟨WAL_STATUS, 9, 9⟩
abbrev WAL_STATUS_READOUT : Field := ⟨WAL_STATUS, 8, 8⟩
abbrev WAL_STATUS_STATE : Field := ⟨WAL_STATUS, 2, 0⟩
abbrev WAL_FLAGS : Nat := 0x120008
abbrev WAL_FLAGS_WRITE_LOCKED : Field := ⟨WAL_FLAGS, 3, 3⟩
abbrev WAL_FLAGS_STOPPED : Field := ⟨WAL_FLAGS, 2, 2⟩
abbrev WAL_FLAGS_FLASH_ERR : Field := ⟨WAL_FLAGS, 1, 1⟩
abbrev WAL_FLAGS_DROP : Field := ⟨WAL_FLAGS, 0, 0⟩
abbrev WAL_OP_INT : Nat := 0x12000c
abbrev WAL_OP_INT_OP_INT : Field := ⟨WAL_OP_INT, 15, 0⟩
abbrev WAL_RESERVE : Nat := 0x120010
abbrev WAL_FIRST_SEQ : Nat := 0x120014
abbrev WAL_LAST_SEQ : Nat := 0x120018
abbrev WAL_POWER_CYCLES : Nat := 0x12001c
abbrev WAL_OP_TIME : Nat := 0x120020
abbrev WAL_SECTORS : Nat := 0x120024
abbrev WAL_SECTORS_BAD : Field := ⟨WAL_SECTORS, 31, 16⟩
abbrev WAL_STAGED : Nat := 0x120028
abbrev WAL_DROPS : Nat := 0x12002c
abbrev WAL_TORN : Nat := 0x120030
abbrev WAL_RD_SEQ : Nat := 0x120034
abbrev WAL_RD_CMD : Nat := 0x120038
abbrev WAL_RD_CMD_LOAD : Field := ⟨WAL_RD_CMD, 0, 0⟩
abbrev WAL_RD_STAT : Nat := 0x12003c
abbrev WAL_RD_STAT_LEN : Field := ⟨WAL_RD_STAT, 27, 16⟩
abbrev WAL_RD_STAT_RESULT : Field := ⟨WAL_RD_STAT, 3, 2⟩
abbrev WAL_RD_STAT_BUSY : Field := ⟨WAL_RD_STAT, 0, 0⟩
abbrev WAL_RD_LOADED : Nat := 0x120040
abbrev WAL_RD_BUF (i : Nat) : Nat := 0x121000 + i * 0x4

/-! ### DOF (R627) -/

abbrev DOF_CTRL : Nat := 0x130000
abbrev DOF_CTRL_CODE_EN : Field := ⟨DOF_CTRL, 3, 3⟩
abbrev DOF_CTRL_ON_RETIRE : Field := ⟨DOF_CTRL, 2, 2⟩
abbrev DOF_CTRL_ON_HALT : Field := ⟨DOF_CTRL, 1, 1⟩
abbrev DOF_CTRL_PIN_EN : Field := ⟨DOF_CTRL, 0, 0⟩
abbrev DOF_TRIG_CODE : Nat := 0x130004
abbrev DOF_CMD : Nat := 0x130008
abbrev DOF_CMD_KEY : Field := ⟨DOF_CMD, 31, 16⟩
abbrev DOF_CMD_FREEZE : Field := ⟨DOF_CMD, 0, 0⟩
abbrev DOF_STATUS : Nat := 0x13000c
abbrev DOF_STATUS_LATER : Field := ⟨DOF_STATUS, 31, 16⟩
abbrev DOF_STATUS_CAUSE : Field := ⟨DOF_STATUS, 5, 4⟩
abbrev DOF_STATUS_FROZEN : Field := ⟨DOF_STATUS, 1, 1⟩
abbrev DOF_STATUS_ACTIVE : Field := ⟨DOF_STATUS, 0, 0⟩
abbrev DOF_SNAP_SEC : Nat := 0x130010
abbrev DOF_SNAP_NS : Nat := 0x130014
abbrev DOF_SNAP_NS_T0 : Field := ⟨DOF_SNAP_NS, 29, 0⟩
abbrev DOF_SNAP_FAULT : Nat := 0x130018
abbrev DOF_SNAP_TRD : Nat := 0x13001c
abbrev DOF_UE : Nat := 0x130020

/-! ### TRD (R87) -/

abbrev TRD_CTRL : Nat := 0x140000
abbrev TRD_CTRL_ENABLE : Field := ⟨TRD_CTRL, 0, 0⟩
abbrev TRD_STATE : Nat := 0x140004
abbrev TRD_STATE_ACTIVE_SLOT : Field := ⟨TRD_STATE, 17, 16⟩
abbrev TRD_STATE_WAIT_SCHED : Field := ⟨TRD_STATE, 9, 9⟩
abbrev TRD_STATE_WAIT_START : Field := ⟨TRD_STATE, 8, 8⟩
abbrev TRD_STATE_RETURN_STATE : Field := ⟨TRD_STATE, 7, 4⟩
abbrev TRD_STATE_STATE : Field := ⟨TRD_STATE, 3, 0⟩
abbrev TRD_JOB : Nat := 0x140008
abbrev TRD_LAYER : Nat := 0x14000c
abbrev TRD_POLICY : Nat := 0x140010
abbrev TRD_POLICY_ORPHAN : Field := ⟨TRD_POLICY, 0, 0⟩
abbrev TRD_ARM_LEAD : Nat := 0x140014
abbrev TRD_SLOT_BASE : Nat := 0x140018
abbrev TRD_SLOT_BASE_DRAM : Field := ⟨TRD_SLOT_BASE, 15, 0⟩
abbrev TRD_SLOT_SIZE : Nat := 0x14001c
abbrev TRD_SLOT0_STATUS : Nat := 0x140020
abbrev TRD_SLOT0_STATUS_FAULT : Field := ⟨TRD_SLOT0_STATUS, 15, 8⟩
abbrev TRD_SLOT0_STATUS_SCHEDULED : Field := ⟨TRD_SLOT0_STATUS, 3, 3⟩
abbrev TRD_SLOT0_STATUS_STATE : Field := ⟨TRD_SLOT0_STATUS, 2, 0⟩
abbrev TRD_SLOT1_STATUS : Nat := 0x140024
abbrev TRD_SLOT1_STATUS_FAULT : Field := ⟨TRD_SLOT1_STATUS, 15, 8⟩
abbrev TRD_SLOT1_STATUS_SCHEDULED : Field := ⟨TRD_SLOT1_STATUS, 3, 3⟩
abbrev TRD_SLOT1_STATUS_STATE : Field := ⟨TRD_SLOT1_STATUS, 2, 0⟩
abbrev TRD_SLOT2_STATUS : Nat := 0x140028
abbrev TRD_SLOT2_STATUS_FAULT : Field := ⟨TRD_SLOT2_STATUS, 15, 8⟩
abbrev TRD_SLOT2_STATUS_SCHEDULED : Field := ⟨TRD_SLOT2_STATUS, 3, 3⟩
abbrev TRD_SLOT2_STATUS_STATE : Field := ⟨TRD_SLOT2_STATUS, 2, 0⟩
abbrev TRD_START_NS : Nat := 0x140030
abbrev TRD_START_SEC_LO : Nat := 0x140034
abbrev TRD_START_SEC_HI : Nat := 0x140038
abbrev TRD_TICK_LO : Nat := 0x14003c
abbrev TRD_TICK_HI : Nat := 0x140040
abbrev TRD_PAUSE_TICK_LO : Nat := 0x140044
abbrev TRD_PAUSE_TICK_HI : Nat := 0x140048
abbrev TRD_ORPHANS : Nat := 0x14004c
abbrev TRD_PLAT_SCALE : Nat := 0x140050
abbrev TRD_PLAT_RESID : Nat := 0x140054
abbrev TRD_PLAT_LIFT : Nat := 0x140058
abbrev TRD_BAD_MSG : Nat := 0x14005c
abbrev TRD_STATUS : Nat := 0x140060
abbrev TRD_STATUS_WRITE_LOCKED : Field := ⟨TRD_STATUS, 6, 6⟩
abbrev TRD_STATUS_RECOAT_FAULT : Field := ⟨TRD_STATUS, 5, 5⟩
abbrev TRD_STATUS_SCHED_REFUSED : Field := ⟨TRD_STATUS, 4, 4⟩
abbrev TRD_STATUS_LATE_START : Field := ⟨TRD_STATUS, 3, 3⟩
abbrev TRD_STATUS_NONCE : Field := ⟨TRD_STATUS, 2, 2⟩
abbrev TRD_STATUS_FORMAT : Field := ⟨TRD_STATUS, 1, 1⟩
abbrev TRD_STATUS_AUTH : Field := ⟨TRD_STATUS, 0, 0⟩
abbrev TRD_CMD_ARG0 : Nat := 0x140064
abbrev TRD_CMD_ARG1 : Nat := 0x140068
abbrev TRD_CMD_ARG2 : Nat := 0x14006c
abbrev TRD_CMD : Nat := 0x140070
abbrev TRD_RCP_AXES (i : Nat) : Nat := 0x140100 + i * 0x20
abbrev TRD_RCP_AXES_BIDIR (i : Nat) : Field := ⟨(TRD_RCP_AXES i), 21, 21⟩
abbrev TRD_RCP_AXES_DOSE_EN (i : Nat) : Field := ⟨(TRD_RCP_AXES i), 20, 20⟩
abbrev TRD_RCP_AXES_CAM (i : Nat) : Field := ⟨(TRD_RCP_AXES i), 19, 18⟩
abbrev TRD_RCP_AXES_FB_CH (i : Nat) : Field := ⟨(TRD_RCP_AXES i), 17, 15⟩
abbrev TRD_RCP_AXES_PLAT_DIR (i : Nat) : Field := ⟨(TRD_RCP_AXES i), 11, 11⟩
abbrev TRD_RCP_AXES_DOSE_AXIS (i : Nat) : Field := ⟨(TRD_RCP_AXES i), 10, 8⟩
abbrev TRD_RCP_AXES_RECOATER_AXIS (i : Nat) : Field := ⟨(TRD_RCP_AXES i), 6, 4⟩
abbrev TRD_RCP_AXES_PLATFORM_AXIS (i : Nat) : Field := ⟨(TRD_RCP_AXES i), 2, 0⟩
abbrev TRD_RCP_TRAVERSE (i : Nat) : Nat := 0x140104 + i * 0x20
abbrev TRD_RCP_SPEED (i : Nat) : Nat := 0x140108 + i * 0x20
abbrev TRD_RCP_DOSE (i : Nat) : Nat := 0x14010c + i * 0x20
abbrev TRD_RCP_IMG_SPACING (i : Nat) : Nat := 0x140110 + i * 0x20
abbrev TRD_RCP_IMG (i : Nat) : Nat := 0x140114 + i * 0x20
abbrev TRD_RCP_IMG_COUNT (i : Nat) : Field := ⟨(TRD_RCP_IMG i), 7, 0⟩
abbrev TRD_RCP_IMG_LAMP (i : Nat) : Field := ⟨(TRD_RCP_IMG i), 15, 8⟩

/-! ### SEC (R427) -/

abbrev SEC_STATUS : Nat := 0x150000
abbrev SEC_STATUS_KEY_VALID : Field := ⟨SEC_STATUS, 31, 16⟩
abbrev SEC_STATUS_WIPING : Field := ⟨SEC_STATUS, 1, 1⟩
abbrev SEC_STATUS_READY : Field := ⟨SEC_STATUS, 0, 0⟩
abbrev SEC_FLAGS : Nat := 0x150004
abbrev SEC_FLAGS_WRITE_LOCKED : Field := ⟨SEC_FLAGS, 2, 2⟩
abbrev SEC_FLAGS_KEY_REFUSED : Field := ⟨SEC_FLAGS, 1, 1⟩
abbrev SEC_FLAGS_WIPED : Field := ⟨SEC_FLAGS, 0, 0⟩
abbrev SEC_WIPE_CAUSE : Nat := 0x150008
abbrev SEC_WIPES : Nat := 0x15000c
abbrev SEC_KEY_CMD : Nat := 0x150010
abbrev SEC_KEY_CMD_KEY : Field := ⟨SEC_KEY_CMD, 31, 16⟩
abbrev SEC_KEY_CMD_OP : Field := ⟨SEC_KEY_CMD, 9, 8⟩
abbrev SEC_KEY_STAT : Nat := 0x150014
abbrev SEC_KEY_STAT_RESULT : Field := ⟨SEC_KEY_STAT, 2, 1⟩
abbrev SEC_KEY_STAT_BUSY : Field := ⟨SEC_KEY_STAT, 0, 0⟩
abbrev SEC_KEY_WRAP (i : Nat) : Nat := 0x150020 + i * 0x4
abbrev SEC_NONCE_SEL : Nat := 0x150048
abbrev SEC_NONCE (i : Nat) : Nat := 0x15004c + i * 0x4

end Reg

def devRows0 : List RegRow := [
  ⟨"DEV_ID0", 0x0, [], 0x16007a3c, 0x0, 0x0, 0x0, 0x0, 0x0, 0x0, .none, .none⟩,
  ⟨"DEV_ID1", 0x4, [], 0x3ffff, 0x0, 0x0, 0x0, 0x0, 0x0, 0x0, .none, .none⟩,
  ⟨"DEV_ID2", 0x8, [], 0x0, 0x0, 0x0, 0x0, 0x0, 0x0, 0x0, .none, .none⟩,
  ⟨"DEV_ID3", 0xc, [], 0x0, 0x0, 0x0, 0x0, 0x0, 0x0, 0x0, .none, .none⟩,
  ⟨"DEV_ID4", 0x10, [], 0x0, 0x0, 0x0, 0x0, 0x0, 0x0, 0x0, .none, .none⟩,
  ⟨"DEV_ID5", 0x14, [], 0x0, 0x0, 0x0, 0x0, 0x0, 0x0, 0x0, .none, .none⟩,
  ⟨"DEV_ID6", 0x18, [], 0x0, 0x0, 0x0, 0x0, 0x0, 0x0, 0x0, .none, .none⟩,
  ⟨"DEV_ID7", 0x1c, [], 0x1, 0x0, 0x0, 0x0, 0x0, 0x0, 0x0, .none, .none⟩,
  ⟨"DEV_STATE", 0x20, [], 0x21, 0x0, 0x0, 0x0, 0x0, 0x0, 0x0, .none, .none⟩,
  ⟨"DEV_FLAGS", 0x24, [], 0x0, 0x0, 0x0, 0x0, 0xf, 0x0, 0x0, .none, .none⟩,
  ⟨"DEV_STRAPS", 0x28, [], 0x0, 0x0, 0x0, 0x0, 0x0, 0x0, 0x0, .none, .none⟩,
  ⟨"DEV_RESET", 0x2c, [], 0x0, 0x0, 0x0, 0x0, 0x0, 0x0, 0x0, .none, .none⟩,
  ⟨"DEV_RESET_CAUSE", 0x30, [], 0x1, 0x0, 0x0, 0x0, 0x0, 0x0, 0x0, .none, .none⟩,
  ⟨"DEV_LC", 0x34, [], 0x0, 0x0, 0x0, 0x0, 0x0, 0x0, 0x0, .none, .none⟩,
  ⟨"DEV_LC_CMD", 0x38, [], 0x0, 0x0, 0x0, 0x0, 0x0, 0x0, 0x0, .none, .none⟩,
  ⟨"DEV_FUSE_CMD", 0x3c, [], 0x0, 0x0, 0x0, 0x0, 0x0, 0x0, 0x0, .none, .none⟩,
  ⟨"DEV_FUSE_STAT", 0x40, [], 0x0, 0x0, 0x0, 0x0, 0x0, 0x0, 0x0, .none, .none⟩,
  ⟨"DEV_EPOCH", 0x44, [], 0x0, 0x0, 0x0, 0x0, 0x0, 0x0, 0x0, .none, .none⟩,
  ⟨"DEV_KEY_STATE", 0x48, [], 0x0, 0x0, 0x0, 0x0, 0x0, 0x0, 0x0, .none, .none⟩,
  ⟨"DEV_IMG_FAIL", 0x50, [], 0x0, 0x0, 0x0, 0x0, 0x0, 0x0, 0x0, .none, .none⟩,
  ⟨"DEV_UPD_BASE", 0x60, [], 0x0, 0x1ffffe0, 0x0, 0x0, 0x0, 0x0, 0x0, .none, .none⟩,
  ⟨"DEV_UPD_LEN", 0x64, [], 0x0, 0xffffff, 0x0, 0x0, 0x0, 0x0, 0x0, .none, .none⟩,
  ⟨"DEV_UPD_CMD", 0x68, [], 0x0, 0x0, 0x0, 0x0, 0x0, 0x0, 0x0, .none, .none⟩,
  ⟨"DEV_UPD_STAT", 0x6c, [], 0x0, 0x0, 0x0, 0x0, 0x0, 0x0, 0x0, .none, .none⟩]

def devRows1 : List RegRow := [
  ⟨"DEV_FUSE_DATAi", 0x80, [(0x4, 12)], 0x0, 0x0, 0x0, 0x0, 0x0, 0x0, 0x0, .none, .none⟩,
  ⟨"DEV_KEY_HASHi", 0xc0, [(0x4, 12)], 0x0, 0x0, 0x0, 0x0, 0x0, 0x0, 0x0, .none, .none⟩]

/-- The registers of DEV (R530). -/
def devRows : List RegRow :=
  devRows0 ++ devRows1

def clkRows0 : List RegRow := [
  ⟨"CLK_LIVE", 0x10000, [], 0x1, 0x0, 0x0, 0x0, 0x0, 0x0, 0x0, .none, .none⟩,
  ⟨"CLK_LANE_LIVE", 0x10004, [], 0x0, 0x0, 0x0, 0x0, 0x0, 0x0, 0x0, .none, .none⟩,
  ⟨"CLK_PLL", 0x10008, [], 0x0, 0x0, 0x0, 0x0, 0x0, 0x0, 0x0, .none, .none⟩,
  ⟨"CLK_FLAGS", 0x1000c, [], 0x0, 0x0, 0x0, 0x0, 0x7, 0x0, 0x0, .none, .none⟩,
  ⟨"CLK_FLUSH_COUNT", 0x10010, [], 0x0, 0x0, 0x0, 0x0, 0x0, 0x0, 0x0, .none, .none⟩,
  ⟨"CLK_FLUSH_LAST", 0x10014, [], 0x0, 0x0, 0x0, 0x0, 0x0, 0x0, 0x0, .none, .none⟩,
  ⟨"CLK_ISL_k", 0x10020, [(0x4, 6)], 0x0, 0x0, 0x0, 0x0, 0x0, 0x0, 0x0, .none, .none⟩]

/-- The registers of CLK (R626). -/
def clkRows : List RegRow :=
  clkRows0

def evtRows0 : List RegRow := [
  ⟨"EVT_FLT_CTRL", 0x28000, [], 0x3, 0xf, 0x0, 0x0, 0x0, 0x0, 0x0, .none, .none⟩,
  ⟨"EVT_FLT_RETRY_WIN", 0x28004, [], 0x3e8, 0xffff, 0x0, 0x0, 0x0, 0x0, 0x0, .none, .none⟩,
  ⟨"EVT_FLT_RECOVER_TMO", 0x28008, [], 0x64, 0xffff, 0x0, 0x0, 0x0, 0x0, 0x0, .none, .none⟩,
  ⟨"EVT_FLT_STATUS", 0x2800c, [], 0x0, 0x0, 0x0, 0x0, 0x0, 0x0, 0x0, .none, .none⟩,
  ⟨"EVT_FLT_FLAGS", 0x28010, [], 0x0, 0x0, 0x0, 0x0, 0x3f, 0x0, 0x0, .none, .none⟩,
  ⟨"EVT_FLT_RETIRED", 0x28014, [], 0x0, 0x0, 0x0, 0x0, 0x0, 0x0, 0x0, .none, .none⟩,
  ⟨"EVT_FLT_ARG", 0x28018, [], 0x0, 0x7ffff, 0x0, 0x0, 0x0, 0x0, 0x0, .none, .none⟩,
  ⟨"EVT_FLT_CMD", 0x2801c, [], 0x0, 0x0, 0x0, 0x0, 0x0, 0x0, 0x0, .none, .none⟩,
  ⟨"EVT_FLT_GATE", 0x28020, [], 0x0, 0x1, 0x0, 0x0, 0x0, 0x0, 0x0, .none, .none⟩,
  ⟨"EVT_FLT_LAST", 0x28024, [], 0x0, 0x0, 0x0, 0x0, 0x0, 0x0, 0x0, .none, .none⟩,
  ⟨"EVT_FLT_LAST_SEC", 0x28028, [], 0x0, 0x0, 0x0, 0x0, 0x0, 0x0, 0x0, .none, .none⟩,
  ⟨"EVT_FLT_LAST_NS", 0x2802c, [], 0x0, 0x0, 0x0, 0x0, 0x0, 0x0, 0x0, .none, .none⟩,
  ⟨"EVT_FLT_QFULL", 0x28030, [], 0x0, 0x0, 0x0, 0x0, 0x0, 0x0, 0x0, .none, .none⟩,
  ⟨"EVT_FLT_RETRIES_u", 0x28100, [(0x4, 19)], 0x0, 0x0, 0x0, 0x0, 0x0, 0x0, 0x0, .none, .none⟩,
  ⟨"EVT_FLT_COUNT_c", 0x28400, [(0x4, 256)], 0x0, 0x0, 0x0, 0x0, 0x0, 0x0, 0x0, .none, .none⟩,
  ⟨"EVT_CTRL", 0x20000, [], 0x0, 0x1, 0x0, 0x0, 0x0, 0x0, 0x0, .none, .none⟩,
  ⟨"EVT_STATUS", 0x20004, [], 0x0, 0x0, 0x0, 0x0, 0x0, 0x0, 0x0, .none, .none⟩,
  ⟨"EVT_FLAGS", 0x20008, [], 0x0, 0x0, 0x0, 0x0, 0x3, 0x0, 0x0, .none, .none⟩,
  ⟨"EVT_IRQ_CFG", 0x2000c, [], 0x0, 0xf, 0x0, 0x0, 0x0, 0x0, 0x0, .none, .none⟩,
  ⟨"EVT_FRAME_CFG", 0x20010, [], 0x3e80000, 0xffff0000, 0x0, 0x0, 0x0, 0x0, 0x0, .none, .none⟩,
  ⟨"EVT_REACTIONS", 0x20014, [], 0x0, 0x0, 0x0, 0x0, 0x0, 0x0, 0x0, .none, .none⟩,
  ⟨"EVT_LAST", 0x20018, [], 0x0, 0x0, 0x0, 0x0, 0x0, 0x0, 0x0, .none, .none⟩,
  ⟨"EVT_PEND_i", 0x20020, [(0x4, 8)], 0x0, 0x0, 0x0, 0x0, 0xffffffff, 0x0, 0x0, .none, .none⟩,
  ⟨"EVT_CFG_e", 0x20400, [(0x4, 256)], 0x20, 0x73f, 0x0, 0x0, 0x0, 0x0, 0x0, .none, .none⟩]

def evtRows1 : List RegRow := [
  ⟨"EVT_COUNT_e", 0x20800, [(0x4, 256)], 0x0, 0x0, 0x0, 0x0, 0x0, 0x0, 0x0, .none, .none⟩]

/-- The registers of EVT (R638, R588). -/
def evtRows : List RegRow :=
  evtRows0 ++ evtRows1

def crlRows0 : List RegRow := [
  ⟨"CRL_CTRL", 0x30000, [], 0x1, 0x1, 0x0, 0x0, 0x0, 0x0, 0x0, .none, .none⟩,
  ⟨"CRL_STATUS", 0x30004, [], 0x0, 0x0, 0x0, 0x0, 0x0, 0x0, 0x0, .none, .none⟩,
  ⟨"CRL_FLAGS", 0x30008, [], 0x0, 0x0, 0x0, 0x0, 0x7f, 0x0, 0x0, .none, .none⟩,
  ⟨"CRL_SCRUB_INT", 0x3000c, [], 0x400, 0xffffff, 0x0, 0x0, 0x0, 0x0, 0x0, .none, .none⟩,
  ⟨"CRL_SCRUB_PASSES", 0x30010, [], 0x0, 0x0, 0x0, 0x0, 0x0, 0x0, 0x0, .none, .none⟩,
  ⟨"CRL_SCRUB_LATE", 0x30014, [], 0x0, 0x0, 0x0, 0x0, 0x0, 0x0, 0x0, .none, .none⟩,
  ⟨"CRL_CE_COUNT", 0x30018, [], 0x0, 0x0, 0x0, 0x0, 0x0, 0x0, 0x0, .none, .none⟩,
  ⟨"CRL_UE_COUNT", 0x3001c, [], 0x0, 0x0, 0x0, 0x0, 0x0, 0x0, 0x0, .none, .none⟩,
  ⟨"CRL_ERR_ADDR", 0x30020, [], 0x0, 0x0, 0x0, 0x0, 0x0, 0x0, 0x0, .none, .none⟩,
  ⟨"CRL_WRITE_LOST", 0x30024, [], 0x0, 0x0, 0x0, 0x0, 0x0, 0x0, 0x0, .none, .none⟩,
  ⟨"CRL_LOST_INFO", 0x30028, [], 0x0, 0x0, 0x0, 0x0, 0x0, 0x0, 0x0, .none, .none⟩,
  ⟨"CRL_LOST_ADDR", 0x3002c, [], 0x0, 0x0, 0x0, 0x0, 0x0, 0x0, 0x0, .none, .none⟩,
  ⟨"CRL_ALIAS_DENIED", 0x30030, [], 0x0, 0x0, 0x0, 0x0, 0x0, 0x0, 0x0, .none, .none⟩,
  ⟨"CRL_EVT_BOBBIN", 0x30034, [], 0x0, 0x0, 0x0, 0x0, 0x0, 0x0, 0x0, .none, .none⟩,
  ⟨"CRL_CONFLICT_m", 0x30080, [(0x8, 16)], 0x0, 0x0, 0x0, 0x0, 0x0, 0x0, 0xffffffff, .none, .none⟩,
  ⟨"CRL_WAITMAX_m", 0x30084, [(0x8, 16)], 0x0, 0x0, 0x0, 0x0, 0x0, 0x0, 0xff, .none, .none⟩,
  ⟨"CRL_Bb_CFG", 0x31000, [(0x40, 128)], 0x0, 0x0, 0x0, 0xff7b3, 0x0, 0x0, 0x0, .none, .bobbin⟩,
  ⟨"CRL_Bb_BASE", 0x31004, [(0x40, 128)], 0x0, 0x0, 0x0, 0x1ffffe0, 0x0, 0x0, 0x0, .none, .bobbin⟩,
  ⟨"CRL_Bb_SIZE", 0x31008, [(0x40, 128)], 0x0, 0x0, 0x0, 0xfffff, 0x0, 0x0, 0x0, .none, .bobbin⟩,
  ⟨"CRL_Bb_WR", 0x3100c, [(0x40, 128)], 0x0, 0x0, 0x0, 0x0, 0x0, 0x0, 0x0, .none, .none⟩,
  ⟨"CRL_Bb_RD", 0x31010, [(0x40, 128)], 0x0, 0x0, 0x0, 0x0, 0x0, 0x0, 0x0, .none, .none⟩,
  ⟨"CRL_Bb_FILL", 0x31014, [(0x40, 128)], 0x0, 0x0, 0x0, 0x0, 0x0, 0x0, 0x0, .none, .none⟩,
  ⟨"CRL_Bb_HI", 0x31018, [(0x40, 128)], 0x0, 0x0, 0xfffff, 0x0, 0x0, 0x0, 0x0, .period, .none⟩,
  ⟨"CRL_Bb_LO", 0x3101c, [(0x40, 128)], 0x0, 0x0, 0xfffff, 0x0, 0x0, 0x0, 0x0, .period, .none⟩]

def crlRows1 : List RegRow := [
  ⟨"CRL_Bb_PANIC", 0x31020, [(0x40, 128)], 0x0, 0x0, 0xffffffff, 0x0, 0x0, 0x0, 0x0, .period, .none⟩,
  ⟨"CRL_Bb_STATUS", 0x31024, [(0x40, 128)], 0x0, 0x0, 0x0, 0x0, 0xf, 0x0, 0x0, .none, .none⟩,
  ⟨"CRL_Bb_OVF", 0x31028, [(0x40, 128)], 0x0, 0x0, 0x0, 0x0, 0x0, 0x0, 0x0, .none, .none⟩,
  ⟨"CRL_Bb_UNF", 0x3102c, [(0x40, 128)], 0x0, 0x0, 0x0, 0x0, 0x0, 0x0, 0x0, .none, .none⟩]

/-- The registers of CRL (R425). -/
def crlRows : List RegRow :=
  crlRows0 ++ crlRows1

def drcRows0 : List RegRow := [
  ⟨"DRC_CTRL", 0x40000, [], 0x2, 0x0, 0x0, 0x3f, 0x0, 0x0, 0x0, .none, .dram⟩,
  ⟨"DRC_OPT", 0x40004, [], 0x7, 0x7, 0x0, 0x0, 0x0, 0x0, 0x0, .none, .none⟩,
  ⟨"DRC_STATUS", 0x40008, [], 0x0, 0x0, 0x0, 0x0, 0x0, 0x0, 0x0, .none, .none⟩,
  ⟨"DRC_FLAGS", 0x4000c, [], 0x0, 0x0, 0x0, 0x0, 0x7f, 0x0, 0x0, .none, .none⟩,
  ⟨"DRC_CAP", 0x40010, [], 0x0, 0x0, 0x0, 0x0, 0x0, 0x0, 0x0, .none, .none⟩,
  ⟨"DRC_SP0", 0x40014, [], 0x1900, 0x0, 0x0, 0x1fff, 0x0, 0x0, 0x0, .none, .dram⟩,
  ⟨"DRC_SP1", 0x40018, [], 0x12c0, 0x0, 0x0, 0x1fff, 0x0, 0x0, 0x0, .none, .dram⟩,
  ⟨"DRC_FREQ", 0x4001c, [], 0x0, 0x1, 0x0, 0x0, 0x0, 0x0, 0x0, .none, .none⟩,
  ⟨"DRC_SR_IDLE", 0x40020, [], 0x2710, 0xffffff, 0x0, 0x0, 0x0, 0x0, 0x0, .none, .none⟩,
  ⟨"DRC_SHARE", 0x40024, [], 0x2040, 0xffff, 0x0, 0x0, 0x0, 0x0, 0x0, .none, .none⟩,
  ⟨"DRC_WQ", 0x40028, [], 0x3010, 0xffff, 0x0, 0x0, 0x0, 0x0, 0x0, .none, .none⟩,
  ⟨"DRC_SCRUB_INT", 0x4002c, [], 0x3e8, 0xffffff, 0x0, 0x0, 0x0, 0x0, 0x0, .none, .none⟩,
  ⟨"DRC_PANIC_MAX", 0x40030, [], 0x64, 0xffff, 0x0, 0x0, 0x0, 0x0, 0x0, .none, .none⟩,
  ⟨"DRC_OSC_INT", 0x40034, [], 0xa, 0xffff, 0x0, 0x0, 0x0, 0x0, 0x0, .none, .none⟩,
  ⟨"DRC_DRIFT_LIM", 0x40038, [], 0x40, 0xffff, 0x0, 0x0, 0x0, 0x0, 0x0, .none, .none⟩,
  ⟨"DRC_MARK_THR", 0x4003c, [], 0x40, 0xffff, 0x0, 0x0, 0x0, 0x0, 0x0, .none, .none⟩,
  ⟨"DRC_ERR_ADDR_LO", 0x40040, [], 0x0, 0x0, 0x0, 0x0, 0x0, 0x0, 0x0, .none, .none⟩,
  ⟨"DRC_ERR_ADDR_HI", 0x40044, [], 0x0, 0x0, 0x0, 0x0, 0x0, 0x0, 0x0, .none, .none⟩,
  ⟨"DRC_ERR_INFO", 0x40048, [], 0x0, 0x0, 0x0, 0x0, 0x0, 0x0, 0x0, .none, .none⟩,
  ⟨"DRC_c_CE", 0x40100, [(0x80, 2)], 0x0, 0x0, 0x0, 0x0, 0x0, 0x0, 0x0, .none, .none⟩,
  ⟨"DRC_c_UE", 0x40104, [(0x80, 2)], 0x0, 0x0, 0x0, 0x0, 0x0, 0x0, 0x0, .none, .none⟩,
  ⟨"DRC_c_MARK", 0x40108, [(0x80, 2)], 0x0, 0xffff, 0x0, 0x0, 0x0, 0x0, 0x0, .none, .none⟩,
  ⟨"DRC_c_SCRUB_PASSES", 0x4010c, [(0x80, 2)], 0x0, 0x0, 0x0, 0x0, 0x0, 0x0, 0x0, .none, .none⟩,
  ⟨"DRC_c_OSC0", 0x40110, [(0x80, 2)], 0x0, 0x0, 0x0, 0x0, 0x0, 0x0, 0x0, .none, .none⟩]

def drcRows1 : List RegRow := [
  ⟨"DRC_c_OSC1", 0x40114, [(0x80, 2)], 0x0, 0x0, 0x0, 0x0, 0x0, 0x0, 0x0, .none, .none⟩,
  ⟨"DRC_c_MR4", 0x40118, [(0x80, 2)], 0x0, 0x0, 0x0, 0x0, 0x0, 0x0, 0x0, .none, .none⟩,
  ⟨"DRC_c_PANIC_US", 0x4011c, [(0x80, 2)], 0x0, 0x0, 0x0, 0x0, 0x0, 0x0, 0xffff, .none, .none⟩,
  ⟨"DRC_c_SR_ENTRIES", 0x40120, [(0x80, 2)], 0x0, 0x0, 0x0, 0x0, 0x0, 0x0, 0x0, .none, .none⟩,
  ⟨"DRC_c_RETRAINS", 0x40124, [(0x80, 2)], 0x0, 0x0, 0x0, 0x0, 0x0, 0x0, 0x0, .none, .none⟩]

/-- The registers of DRC (R447). -/
def drcRows : List RegRow :=
  drcRows0 ++ drcRows1

def lnkRows0 : List RegRow := [
  ⟨"LNK_n_WCTRL", 0x58000, [(0x100, 16)], 0xf, 0x0, 0x0, 0x1f, 0x0, 0x0, 0x0, .none, .wctrl⟩,
  ⟨"LNK_n_WSTATE", 0x58004, [(0x100, 16)], 0x0, 0x0, 0x0, 0x0, 0x0, 0x0, 0x0, .none, .none⟩,
  ⟨"LNK_n_WFLAGS", 0x58008, [(0x100, 16)], 0x0, 0x0, 0x0, 0x0, 0xff, 0x0, 0x0, .none, .none⟩,
  ⟨"LNK_n_RTT", 0x5800c, [(0x100, 16)], 0x0, 0x0, 0x0, 0x0, 0x0, 0x0, 0x0, .none, .none⟩,
  ⟨"LNK_n_DDOWN", 0x58010, [(0x100, 16)], 0x0, 0x0, 0x0, 0x0, 0x0, 0x0, 0x0, .none, .none⟩,
  ⟨"LNK_n_DELAY_ADJ", 0x58014, [(0x100, 16)], 0x0, 0x0, 0xffff, 0x0, 0x0, 0x0, 0x0, .delayAdj, .none⟩,
  ⟨"LNK_n_COAX_CFG", 0x58018, [(0x100, 16)], 0x27100000, 0x0, 0xffffffff, 0x0, 0x0, 0x0, 0x0, .period, .none⟩,
  ⟨"LNK_n_EVT_OUT", 0x5801c, [(0x100, 16)], 0x0, 0xff, 0x0, 0x0, 0x0, 0x0, 0x0, .none, .none⟩,
  ⟨"LNK_n_SVC_ADDR", 0x58020, [(0x100, 16)], 0x0, 0xffff, 0x0, 0x0, 0x0, 0x0, 0x0, .none, .none⟩,
  ⟨"LNK_n_SVC_WDATA", 0x58024, [(0x100, 16)], 0x0, 0xffffffff, 0x0, 0x0, 0x0, 0x0, 0x0, .none, .none⟩,
  ⟨"LNK_n_SVC_CMD", 0x58028, [(0x100, 16)], 0x0, 0x0, 0x0, 0x0, 0x0, 0x0, 0x0, .none, .none⟩,
  ⟨"LNK_n_SVC_STAT", 0x5802c, [(0x100, 16)], 0x0, 0x0, 0x0, 0x0, 0x0, 0x0, 0x0, .none, .none⟩,
  ⟨"LNK_n_SVC_RDATA", 0x58030, [(0x100, 16)], 0x0, 0x0, 0x0, 0x0, 0x0, 0x0, 0x0, .none, .none⟩,
  ⟨"LNK_n_BAD_UP", 0x58034, [(0x100, 16)], 0x0, 0x0, 0x0, 0x0, 0x0, 0x0, 0x0, .none, .none⟩,
  ⟨"LNK_n_BAD_DOWN", 0x58038, [(0x100, 16)], 0x0, 0x0, 0x0, 0x0, 0x0, 0x0, 0x0, .none, .none⟩,
  ⟨"LNK_n_ALIGN_LOSS", 0x5803c, [(0x100, 16)], 0x0, 0x0, 0x0, 0x0, 0x0, 0x0, 0x0, .none, .none⟩,
  ⟨"LNK_n_COAX_SKIP", 0x58040, [(0x100, 16)], 0x0, 0x0, 0x0, 0x0, 0x0, 0x0, 0x0, .none, .none⟩,
  ⟨"LNK_n_FRAME_NO", 0x58044, [(0x100, 16)], 0x0, 0x0, 0x0, 0x0, 0x0, 0x0, 0x0, .none, .none⟩,
  ⟨"LNK_n_IDENTi", 0x58080, [(0x100, 16), (0x4, 8)], 0x0, 0x0, 0x0, 0x0, 0x0, 0x0, 0x0, .none, .none⟩,
  ⟨"LNK_REF_CFG", 0x50000, [], 0x6, 0x1f, 0x0, 0x0, 0x0, 0x0, 0x0, .none, .refCfg⟩,
  ⟨"LNK_STATUS", 0x50004, [], 0x0, 0x0, 0x0, 0x0, 0x0, 0x0, 0x0, .none, .none⟩,
  ⟨"LNK_LOCKED", 0x50008, [], 0x0, 0x0, 0x0, 0x0, 0x0, 0x0, 0x0, .none, .none⟩,
  ⟨"LNK_FLAGS", 0x5000c, [], 0x0, 0x0, 0x0, 0x0, 0x7, 0x0, 0x0, .none, .none⟩,
  ⟨"LNK_l_CTRL", 0x50100, [(0x100, 16)], 0x800, 0x0, 0x0, 0x11f37, 0x0, 0x0, 0x0, .none, .lane⟩]

def lnkRows1 : List RegRow := [
  ⟨"LNK_l_CTRL", 0x51100, [(0x100, 2)], 0x1000, 0x0, 0x0, 0x11f37, 0x0, 0x0, 0x0, .none, .lane⟩,
  ⟨"LNK_l_STATE", 0x50104, [(0x100, 18)], 0x0, 0x0, 0x0, 0x0, 0x0, 0x0, 0x0, .none, .none⟩,
  ⟨"LNK_l_FLAGS", 0x50108, [(0x100, 18)], 0x0, 0x0, 0x0, 0x0, 0x3f, 0x0, 0x0, .none, .none⟩,
  ⟨"LNK_l_TX", 0x5010c, [(0x100, 18)], 0x300804, 0x0, 0x0, 0x3f1f0f, 0x0, 0x0, 0x0, .none, .lane⟩,
  ⟨"LNK_l_RX_EQ", 0x50110, [(0x100, 18)], 0x0, 0x0, 0x0, 0x0, 0x0, 0x0, 0x0, .none, .none⟩,
  ⟨"LNK_l_RX_CTLE", 0x50114, [(0x100, 18)], 0x0, 0x0, 0x0, 0x0, 0x0, 0x0, 0x0, .none, .none⟩,
  ⟨"LNK_l_SH_ERR", 0x50118, [(0x100, 18)], 0x0, 0x0, 0x0, 0x0, 0x0, 0x0, 0x0, .none, .none⟩,
  ⟨"LNK_l_LOCKS", 0x5011c, [(0x100, 18)], 0x0, 0x0, 0x0, 0x0, 0x0, 0x0, 0x0, .none, .none⟩,
  ⟨"LNK_l_LOCK_TIME", 0x50120, [(0x100, 18)], 0x0, 0x0, 0x0, 0x0, 0x0, 0x0, 0x0, .none, .none⟩,
  ⟨"LNK_l_HIBER", 0x50124, [(0x100, 18)], 0x0, 0x0, 0x0, 0x0, 0x0, 0x0, 0x0, .none, .none⟩,
  ⟨"LNK_l_SCAN_CFG", 0x50140, [(0x100, 18)], 0x1e, 0x7f7f003f, 0x0, 0x0, 0x0, 0x0, 0x0, .none, .none⟩,
  ⟨"LNK_l_SCAN_CMD", 0x50144, [(0x100, 18)], 0x0, 0x0, 0x0, 0x0, 0x0, 0x0, 0x0, .none, .none⟩,
  ⟨"LNK_l_SCAN_STAT", 0x50148, [(0x100, 18)], 0x0, 0x0, 0x0, 0x0, 0x0, 0x0, 0x0, .none, .none⟩,
  ⟨"LNK_l_SCAN_ERR", 0x5014c, [(0x100, 18)], 0x0, 0x0, 0x0, 0x0, 0x0, 0x0, 0x0, .none, .none⟩,
  ⟨"LNK_l_SCAN_BITS_LO", 0x50150, [(0x100, 18)], 0x0, 0x0, 0x0, 0x0, 0x0, 0x0, 0x0, .none, .none⟩,
  ⟨"LNK_l_SCAN_BITS_HI", 0x50154, [(0x100, 18)], 0x0, 0x0, 0x0, 0x0, 0x0, 0x0, 0x0, .none, .none⟩,
  ⟨"LNK_l_TEST", 0x50160, [(0x100, 18)], 0x0, 0x0, 0x0, 0x3f, 0x0, 0x0, 0x0, .none, .laneTest⟩,
  ⟨"LNK_l_INJECT", 0x50164, [(0x100, 18)], 0x0, 0x0, 0x0, 0x0, 0x0, 0x0, 0x0, .none, .none⟩,
  ⟨"LNK_l_PRBS_STAT", 0x50168, [(0x100, 18)], 0x0, 0x0, 0x0, 0x0, 0x0, 0x0, 0x0, .none, .none⟩,
  ⟨"LNK_l_PRBS_ERR", 0x5016c, [(0x100, 18)], 0x0, 0x0, 0x0, 0x0, 0x0, 0x0, 0x0, .none, .none⟩,
  ⟨"LNK_l_PRBS_BITS_LO", 0x50170, [(0x100, 18)], 0x0, 0x0, 0x0, 0x0, 0x0, 0x0, 0x0, .none, .none⟩,
  ⟨"LNK_l_PRBS_BITS_HI", 0x50174, [(0x100, 18)], 0x0, 0x0, 0x0, 0x0, 0x0, 0x0, 0x0, .none, .none⟩,
  ⟨"LNK_l_INJ_COUNT", 0x50178, [(0x100, 18)], 0x0, 0x0, 0x0, 0x0, 0x0, 0x0, 0x0, .none, .none⟩]

/-- The registers of LNK (R472, R473, R278). -/
def lnkRows : List RegRow :=
  lnkRows0 ++ lnkRows1

def netRows0 : List RegRow := [
  ⟨"NET_CTRL", 0x60000, [], 0x10, 0x0, 0x0, 0x1f, 0x0, 0x0, 0x0, .none, .netPorts⟩,
  ⟨"NET_STATUS", 0x60004, [], 0x0, 0x0, 0x0, 0x0, 0x0, 0x0, 0x0, .none, .none⟩,
  ⟨"NET_FLAGS", 0x60008, [], 0x0, 0x0, 0x0, 0x0, 0x3f, 0x0, 0x0, .none, .none⟩,
  ⟨"NET_ETYPE", 0x6000c, [], 0x88b5, 0x0, 0x0, 0xffff, 0x0, 0x0, 0x0, .none, .netPorts⟩,
  ⟨"NET_MAC_LO", 0x60010, [], 0x0, 0x0, 0x0, 0xffffffff, 0x0, 0x0, 0x0, .none, .netPorts⟩,
  ⟨"NET_MAC_HI", 0x60014, [], 0x200, 0x0, 0x0, 0xffff, 0x0, 0x0, 0x0, .none, .netPorts⟩,
  ⟨"NET_PPS_OUT", 0x60018, [], 0x640000, 0x0, 0xffff0007, 0x0, 0x0, 0x0, 0x0, .period, .none⟩,
  ⟨"NET_PPS_OFFSET", 0x6001c, [], 0x0, 0x0, 0x3fffffff, 0x0, 0x0, 0x0, 0x0, .period, .none⟩,
  ⟨"NET_PPS_IN", 0x60020, [], 0x0, 0xf, 0x0, 0x0, 0x0, 0x0, 0x0, .none, .none⟩,
  ⟨"NET_PPS_IN_SEC", 0x60024, [], 0x0, 0x0, 0x0, 0x0, 0x0, 0x0, 0x0, .none, .none⟩,
  ⟨"NET_PPS_IN_NS", 0x60028, [], 0x0, 0x0, 0x0, 0x0, 0x0, 0x0, 0x0, .none, .none⟩,
  ⟨"NET_Np_ING_LAT", 0x61000, [(0x100, 2)], 0x0, 0xffffffff, 0x0, 0x0, 0x0, 0x0, 0x0, .none, .none⟩,
  ⟨"NET_Np_EGR_LAT", 0x61004, [(0x100, 2)], 0x0, 0xffffffff, 0x0, 0x0, 0x0, 0x0, 0x0, .none, .none⟩,
  ⟨"NET_Np_STATUS", 0x61008, [(0x100, 2)], 0x0, 0x0, 0x0, 0x0, 0x0, 0x0, 0x0, .none, .none⟩,
  ⟨"NET_Np_RX_FRAMES", 0x6100c, [(0x100, 2)], 0x0, 0x0, 0x0, 0x0, 0x0, 0x0, 0x0, .none, .none⟩,
  ⟨"NET_Np_TX_FRAMES", 0x61010, [(0x100, 2)], 0x0, 0x0, 0x0, 0x0, 0x0, 0x0, 0x0, .none, .none⟩,
  ⟨"NET_Np_RX_DROPS", 0x61014, [(0x100, 2)], 0x0, 0x0, 0x0, 0x0, 0x0, 0x0, 0x0, .none, .none⟩,
  ⟨"NET_Np_FWD_DROPS", 0x61018, [(0x100, 2)], 0x0, 0x0, 0x0, 0x0, 0x0, 0x0, 0x0, .none, .none⟩,
  ⟨"NET_Np_PTP_CORR", 0x6101c, [(0x100, 2)], 0x0, 0x0, 0x0, 0x0, 0x0, 0x0, 0x0, .none, .none⟩,
  ⟨"NET_Np_RES_MAX", 0x61020, [(0x100, 2)], 0x0, 0x0, 0x0, 0x0, 0x0, 0x0, 0xffffffff, .none, .none⟩,
  ⟨"NET_Np_TL_ADDR", 0x61040, [(0x100, 2)], 0x0, 0x1ffffff, 0x0, 0x0, 0x0, 0x0, 0x0, .none, .none⟩,
  ⟨"NET_Np_TL_LEN", 0x61044, [(0x100, 2)], 0x0, 0x3fff, 0x0, 0x0, 0x0, 0x0, 0x0, .none, .none⟩,
  ⟨"NET_Np_TL_NS", 0x61048, [(0x100, 2)], 0x0, 0x3fffffff, 0x0, 0x0, 0x0, 0x0, 0x0, .none, .none⟩,
  ⟨"NET_Np_TL_SEC", 0x6104c, [(0x100, 2)], 0x0, 0xffffffff, 0x0, 0x0, 0x0, 0x0, 0x0, .none, .none⟩]

def netRows1 : List RegRow := [
  ⟨"NET_Np_TL_CMD", 0x61050, [(0x100, 2)], 0x0, 0x0, 0x0, 0x0, 0x0, 0x0, 0x0, .none, .none⟩,
  ⟨"NET_Np_TL_STAT", 0x61054, [(0x100, 2)], 0x0, 0x0, 0x0, 0x0, 0x0, 0x0, 0x0, .none, .none⟩,
  ⟨"NET_Np_TL_LATE", 0x61058, [(0x100, 2)], 0x0, 0x0, 0x0, 0x0, 0x0, 0x0, 0x0, .none, .none⟩,
  ⟨"NET_Tb_CTRL", 0x62000, [(0x100, 4)], 0x0, 0x0, 0x0, 0xff0f, 0x0, 0x0, 0x0, .none, .timeBase⟩,
  ⟨"NET_Tb_STATE", 0x62004, [(0x100, 4)], 0x0, 0x0, 0x0, 0x0, 0x0, 0x0, 0x0, .none, .none⟩,
  ⟨"NET_Tb_CAPTURE", 0x62008, [(0x100, 4)], 0x0, 0x0, 0x0, 0x0, 0x0, 0x0, 0x0, .none, .none⟩,
  ⟨"NET_Tb_SEC_LO", 0x6200c, [(0x100, 4)], 0x0, 0x0, 0x0, 0x0, 0x0, 0x0, 0x0, .none, .none⟩,
  ⟨"NET_Tb_SEC_HI", 0x62010, [(0x100, 4)], 0x0, 0x0, 0x0, 0x0, 0x0, 0x0, 0x0, .none, .none⟩,
  ⟨"NET_Tb_NS", 0x62014, [(0x100, 4)], 0x0, 0x0, 0x0, 0x0, 0x0, 0x0, 0x0, .none, .none⟩,
  ⟨"NET_Tb_FRAC", 0x62018, [(0x100, 4)], 0x0, 0x0, 0x0, 0x0, 0x0, 0x0, 0x0, .none, .none⟩,
  ⟨"NET_Tb_RATE", 0x6201c, [(0x100, 4)], 0x0, 0xffffffff, 0x0, 0x0, 0x0, 0x0, 0x0, .none, .none⟩,
  ⟨"NET_Tb_OFFSET", 0x62020, [(0x100, 4)], 0x0, 0x0, 0x0, 0x0, 0x0, 0x0, 0x0, .none, .none⟩,
  ⟨"NET_Tb_MPD", 0x62024, [(0x100, 4)], 0x0, 0x0, 0x0, 0x0, 0x0, 0x0, 0x0, .none, .none⟩,
  ⟨"NET_Tb_STEP_NS", 0x62028, [(0x100, 4)], 0x0, 0xffffffff, 0x0, 0x0, 0x0, 0x0, 0x0, .none, .none⟩,
  ⟨"NET_Tb_STEP_SEC_LO", 0x6202c, [(0x100, 4)], 0x0, 0xffffffff, 0x0, 0x0, 0x0, 0x0, 0x0, .none, .none⟩,
  ⟨"NET_Tb_STEP_SEC_HI", 0x62030, [(0x100, 4)], 0x0, 0xffff, 0x0, 0x0, 0x0, 0x0, 0x0, .none, .none⟩,
  ⟨"NET_Tb_STEP_CMD", 0x62034, [(0x100, 4)], 0x0, 0x0, 0x0, 0x0, 0x0, 0x0, 0x0, .none, .none⟩,
  ⟨"NET_Tb_SERVO", 0x62038, [(0x100, 4)], 0x400400, 0x0, 0xffffffff, 0x0, 0x0, 0x0, 0x0, .sync, .none⟩,
  ⟨"NET_Tb_LOCK_THR", 0x6203c, [(0x100, 4)], 0x32, 0x0, 0xffffffff, 0x0, 0x0, 0x0, 0x0, .sync, .none⟩,
  ⟨"NET_Tb_STEP_THR", 0x62040, [(0x100, 4)], 0xf4240, 0x0, 0xffffffff, 0x0, 0x0, 0x0, 0x0, .sync, .none⟩,
  ⟨"NET_Tb_MASTER_LO", 0x62044, [(0x100, 4)], 0x0, 0x0, 0x0, 0x0, 0x0, 0x0, 0x0, .none, .none⟩,
  ⟨"NET_Tb_MASTER_HI", 0x62048, [(0x100, 4)], 0x0, 0x0, 0x0, 0x0, 0x0, 0x0, 0x0, .none, .none⟩,
  ⟨"NET_Tb_SYNCS", 0x6204c, [(0x100, 4)], 0x0, 0x0, 0x0, 0x0, 0x0, 0x0, 0x0, .none, .none⟩]

/-- The registers of NET (R506 to R508). -/
def netRows : List RegRow :=
  netRows0 ++ netRows1

def shdRows0 : List RegRow := [
  ⟨"SHD_CTRL", 0x70000, [], 0x1d, 0x0, 0x0, 0x1f, 0x0, 0x0, 0x0, .none, .shedPass⟩,
  ⟨"SHD_STATUS", 0x70004, [], 0x0, 0x0, 0x0, 0x0, 0x0, 0x0, 0x0, .none, .none⟩,
  ⟨"SHD_FLAGS", 0x70008, [], 0x0, 0x0, 0x0, 0x0, 0x3f, 0x0, 0x0, .none, .none⟩,
  ⟨"SHD_KEEPOUT", 0x7000c, [], 0x3a98, 0x0, 0xffffffff, 0x0, 0x0, 0x0, 0x0, .pass, .none⟩,
  ⟨"SHD_PLAN_MARGIN", 0x70010, [], 0x7d0, 0x0, 0xffffffff, 0x0, 0x0, 0x0, 0x0, .pass, .none⟩,
  ⟨"SHD_GAS_DIR", 0x70014, [], 0x7fff, 0x0, 0xffffffff, 0x0, 0x0, 0x0, 0x0, .pass, .none⟩,
  ⟨"SHD_CONE_TAN", 0x70018, [], 0x5d2d, 0x0, 0xffff, 0x0, 0x0, 0x0, 0x0, .pass, .none⟩,
  ⟨"SHD_CONE_LEN", 0x7001c, [], 0x1d4c0, 0x0, 0xffffffff, 0x0, 0x0, 0x0, 0x0, .pass, .none⟩,
  ⟨"SHD_PLUME_SAMPLES", 0x70020, [], 0x5, 0x0, 0xf, 0x0, 0x0, 0x0, 0x0, .pass, .none⟩,
  ⟨"SHD_MAX_WAIT", 0x70024, [], 0x2710, 0x0, 0xffffffff, 0x0, 0x0, 0x0, 0x0, .pass, .none⟩,
  ⟨"SHD_SEAM_OVERLAP", 0x70028, [], 0x186a0, 0x0, 0xffffffff, 0x0, 0x0, 0x0, 0x0, .pass, .none⟩,
  ⟨"SHD_DITHER_NM", 0x7002c, [], 0x30d40, 0x0, 0xffffff, 0x0, 0x0, 0x0, 0x0, .pass, .none⟩,
  ⟨"SHD_DITHER_SEED", 0x70030, [], 0x0, 0x0, 0xffffffff, 0x0, 0x0, 0x0, 0x0, .pass, .none⟩,
  ⟨"SHD_COST_JUMP_NS", 0x70034, [], 0x186a0, 0x0, 0xffffffff, 0x0, 0x0, 0x0, 0x0, .pass, .none⟩,
  ⟨"SHD_COST_VJUMP", 0x70038, [], 0x989680, 0x0, 0xffffffff, 0x0, 0x0, 0x0, 0x0, .pass, .none⟩,
  ⟨"SHD_COST_RAMP_NS", 0x7003c, [], 0x9c40, 0x0, 0xffffffff, 0x0, 0x0, 0x0, 0x0, .pass, .none⟩,
  ⟨"SHD_COST_PT_NS", 0x70040, [], 0x4e20, 0x0, 0xffffffff, 0x0, 0x0, 0x0, 0x0, .pass, .none⟩,
  ⟨"SHD_PICKS_DONE", 0x70044, [], 0x0, 0x0, 0x0, 0x0, 0x0, 0x0, 0x0, .none, .none⟩,
  ⟨"SHD_ORPHANS", 0x70048, [], 0x0, 0x0, 0x0, 0x0, 0x0, 0x0, 0x0, .none, .none⟩,
  ⟨"SHD_WAITS", 0x7004c, [], 0x0, 0x0, 0x0, 0x0, 0x0, 0x0, 0x0, .none, .none⟩,
  ⟨"SHD_UNRESOLVED", 0x70050, [], 0x0, 0x0, 0x0, 0x0, 0x0, 0x0, 0x0, .none, .none⟩,
  ⟨"SHD_SEAMS", 0x70054, [], 0x0, 0x0, 0x0, 0x0, 0x0, 0x0, 0x0, .none, .none⟩,
  ⟨"SHD_SEAM_SKIP", 0x70058, [], 0x0, 0x0, 0x0, 0x0, 0x0, 0x0, 0x0, .none, .none⟩,
  ⟨"SHD_SKIPPED", 0x7005c, [], 0x0, 0x0, 0x0, 0x0, 0x0, 0x0, 0x0, .none, .none⟩]

def shdRows1 : List RegRow := [
  ⟨"SHD_MON_CTRL", 0x70060, [], 0x821, 0x0, 0x0, 0xfff1, 0x0, 0x0, 0x0, .none, .monitor⟩,
  ⟨"SHD_MON_MAXHOLD", 0x70064, [], 0xc350, 0x0, 0xffffffff, 0x0, 0x0, 0x0, 0x0, .period, .none⟩,
  ⟨"SHD_MON_PRIO_LO", 0x70068, [], 0x0, 0x0, 0xffffffff, 0x0, 0x0, 0x0, 0x0, .period, .none⟩,
  ⟨"SHD_MON_PRIO_HI", 0x7006c, [], 0x0, 0x0, 0xffffffff, 0x0, 0x0, 0x0, 0x0, .period, .none⟩,
  ⟨"SHD_MON_HELD", 0x70070, [], 0x0, 0x0, 0x0, 0x0, 0x0, 0x0, 0x0, .none, .none⟩,
  ⟨"SHD_RETIRED", 0x70074, [], 0x0, 0x0, 0x0, 0x0, 0x0, 0x0, 0x0, .none, .none⟩,
  ⟨"SHD_MON_BLANKS_n", 0x70080, [(0x4, 16)], 0x0, 0x0, 0x0, 0x0, 0x0, 0x0, 0x0, .none, .none⟩,
  ⟨"SHD_REACH_n_XMIN", 0x70100, [(0x10, 16)], 0x0, 0x0, 0xffffffff, 0x0, 0x0, 0x0, 0x0, .pass, .none⟩,
  ⟨"SHD_REACH_n_YMIN", 0x70104, [(0x10, 16)], 0x0, 0x0, 0xffffffff, 0x0, 0x0, 0x0, 0x0, .pass, .none⟩,
  ⟨"SHD_REACH_n_XMAX", 0x70108, [(0x10, 16)], 0x0, 0x0, 0xffffffff, 0x0, 0x0, 0x0, 0x0, .pass, .none⟩,
  ⟨"SHD_REACH_n_YMAX", 0x7010c, [(0x10, 16)], 0x0, 0x0, 0xffffffff, 0x0, 0x0, 0x0, 0x0, .pass, .none⟩,
  ⟨"SHD_EST_n", 0x70200, [(0x4, 16)], 0x0, 0x0, 0x0, 0x0, 0x0, 0x0, 0x0, .none, .none⟩,
  ⟨"SHD_ZONE_z_STATIONS", 0x78008, [(0x8, 4095)], 0x0, 0x0, 0xffffffff, 0x0, 0x0, 0x0, 0x0, .pass, .none⟩,
  ⟨"SHD_ZONE_z_COUNT", 0x7800c, [(0x8, 4095)], 0x0, 0x0, 0xf, 0x0, 0x0, 0x0, 0x0, .pass, .none⟩]

/-- The registers of SHD (R126). -/
def shdRows : List RegRow :=
  shdRows0 ++ shdRows1

def shtRows0 : List RegRow := [
  ⟨"SHT_n_CTRL", 0x80000, [(0x1000, 16)], 0x7, 0x0, 0x0, 0x7, 0x0, 0x0, 0x0, .none, .shuttle⟩,
  ⟨"SHT_n_STATUS", 0x80004, [(0x1000, 16)], 0x0, 0x0, 0x0, 0x0, 0x0, 0x0, 0x0, .none, .none⟩,
  ⟨"SHT_n_FLAGS", 0x80008, [(0x1000, 16)], 0x0, 0x0, 0x0, 0x0, 0xfff, 0x0, 0x0, .none, .none⟩,
  ⟨"SHT_n_LOOKAHEAD", 0x8000c, [(0x1000, 16)], 0x40, 0x0, 0x0, 0x7f, 0x0, 0x0, 0x0, .none, .shuttle⟩,
  ⟨"SHT_n_VMAX_PATH", 0x80010, [(0x1000, 16)], 0x989680, 0x0, 0xffffffff, 0x0, 0x0, 0x0, 0x0, .pick, .none⟩,
  ⟨"SHT_n_A_PATH", 0x80014, [(0x1000, 16)], 0x4e20, 0x0, 0xffffffff, 0x0, 0x0, 0x0, 0x0, .pick, .none⟩,
  ⟨"SHT_n_J_PATH", 0x80018, [(0x1000, 16)], 0xf4240, 0x0, 0xffffffff, 0x0, 0x0, 0x0, 0x0, .pick, .none⟩,
  ⟨"SHT_n_A_BLEND", 0x8001c, [(0x1000, 16)], 0x2710, 0x0, 0xffffffff, 0x0, 0x0, 0x0, 0x0, .pick, .none⟩,
  ⟨"SHT_n_BLEND_DEV", 0x80020, [(0x1000, 16)], 0x2710, 0x0, 0xffffffff, 0x0, 0x0, 0x0, 0x0, .pick, .none⟩,
  ⟨"SHT_n_JUMP_DEV", 0x80024, [(0x1000, 16)], 0x7a120, 0x0, 0xffffffff, 0x0, 0x0, 0x0, 0x0, .pick, .none⟩,
  ⟨"SHT_n_BLEND_COS", 0x80028, [(0x1000, 16)], 0x9126, 0x0, 0xffff, 0x0, 0x0, 0x0, 0x0, .pick, .none⟩,
  ⟨"SHT_n_A_STOP", 0x8002c, [(0x1000, 16)], 0x9c40, 0x0, 0xffffffff, 0x0, 0x0, 0x0, 0x0, .pick, .none⟩,
  ⟨"SHT_n_PULSE_W", 0x80030, [(0x1000, 16)], 0x64, 0x0, 0xffff, 0x0, 0x0, 0x0, 0x0, .pick, .none⟩,
  ⟨"SHT_n_REPICK_BACK", 0x80034, [(0x1000, 16)], 0x0, 0x0, 0xffffffff, 0x0, 0x0, 0x0, 0x0, .pick, .none⟩,
  ⟨"SHT_n_ZSCALE", 0x80038, [(0x1000, 16)], 0x10000, 0x0, 0xffffffff, 0x0, 0x0, 0x0, 0x0, .layer, .none⟩,
  ⟨"SHT_n_ACT_TRUST", 0x8003c, [(0x1000, 16)], 0xf4240, 0x0, 0xffffffff, 0x0, 0x0, 0x0, 0x0, .period, .none⟩,
  ⟨"SHT_n_PARK_X", 0x80040, [(0x1000, 16)], 0x0, 0x0, 0xffffffff, 0x0, 0x0, 0x0, 0x0, .layer, .none⟩,
  ⟨"SHT_n_PARK_Y", 0x80044, [(0x1000, 16)], 0x0, 0x0, 0xffffffff, 0x0, 0x0, 0x0, 0x0, .layer, .none⟩,
  ⟨"SHT_n_PARK_Z", 0x80048, [(0x1000, 16)], 0x0, 0x0, 0xffffffff, 0x0, 0x0, 0x0, 0x0, .layer, .none⟩,
  ⟨"SHT_n_GRID_SEL", 0x8004c, [(0x1000, 16)], 0x0, 0x0, 0x1, 0x0, 0x0, 0x0, 0x0, .layer, .none⟩,
  ⟨"SHT_n_GRID_BASE0", 0x80050, [(0x1000, 16)], 0x0, 0x0, 0x0, 0xffffffff, 0x0, 0x0, 0x0, .none, .shuttle⟩,
  ⟨"SHT_n_GRID_BASE1", 0x80054, [(0x1000, 16)], 0x0, 0x0, 0x0, 0xffffffff, 0x0, 0x0, 0x0, .none, .shuttle⟩,
  ⟨"SHT_n_a_VMAX", 0x80080, [(0x1000, 16), (0x10, 3)], 0x1000000, 0x0, 0xffffffff, 0x0, 0x0, 0x0, 0x0, .pick, .none⟩,
  ⟨"SHT_n_a_AMAX", 0x80084, [(0x1000, 16), (0x10, 3)], 0x100000, 0x0, 0xffffffff, 0x0, 0x0, 0x0, 0x0, .pick, .none⟩]

def shtRows1 : List RegRow := [
  ⟨"SHT_n_a_JMAX", 0x80088, [(0x1000, 16), (0x10, 3)], 0x10000, 0x0, 0xffffffff, 0x0, 0x0, 0x0, 0x0, .pick, .none⟩,
  ⟨"SHT_n_SET_X", 0x80100, [(0x1000, 16)], 0x0, 0x0, 0x0, 0x0, 0x0, 0x0, 0x0, .none, .none⟩,
  ⟨"SHT_n_SET_Y", 0x80104, [(0x1000, 16)], 0x0, 0x0, 0x0, 0x0, 0x0, 0x0, 0x0, .none, .none⟩,
  ⟨"SHT_n_ACT_X", 0x80108, [(0x1000, 16)], 0x0, 0x0, 0x0, 0x0, 0x0, 0x0, 0x0, .none, .none⟩,
  ⟨"SHT_n_ACT_Y", 0x8010c, [(0x1000, 16)], 0x0, 0x0, 0x0, 0x0, 0x0, 0x0, 0x0, .none, .none⟩,
  ⟨"SHT_n_ACT_Q", 0x80110, [(0x1000, 16)], 0x3, 0x0, 0x0, 0x0, 0x0, 0x0, 0x0, .none, .none⟩,
  ⟨"SHT_n_SPEED", 0x80114, [(0x1000, 16)], 0x0, 0x0, 0x0, 0x0, 0x0, 0x0, 0x0, .none, .none⟩,
  ⟨"SHT_n_INTR_PICK", 0x80118, [(0x1000, 16)], 0x0, 0x0, 0x0, 0x0, 0x0, 0x0, 0x0, .none, .none⟩,
  ⟨"SHT_n_INTR_S", 0x8011c, [(0x1000, 16)], 0x0, 0x0, 0x0, 0x0, 0x0, 0x0, 0x0, .none, .none⟩,
  ⟨"SHT_n_PICKS", 0x80120, [(0x1000, 16)], 0x0, 0x0, 0x0, 0x0, 0x0, 0x0, 0x0, .none, .none⟩,
  ⟨"SHT_n_REPICKS", 0x80124, [(0x1000, 16)], 0x0, 0x0, 0x0, 0x0, 0x0, 0x0, 0x0, .none, .none⟩,
  ⟨"SHT_n_SKIPPED", 0x80128, [(0x1000, 16)], 0x0, 0x0, 0x0, 0x0, 0x0, 0x0, 0x0, .none, .none⟩,
  ⟨"SHT_n_LIMIT_PER", 0x8012c, [(0x1000, 16)], 0x0, 0x0, 0x0, 0x0, 0x0, 0x0, 0x0, .none, .none⟩,
  ⟨"SHT_n_DEADLINES", 0x80130, [(0x1000, 16)], 0x0, 0x0, 0x0, 0x0, 0x0, 0x0, 0x0, .none, .none⟩,
  ⟨"SHT_n_PULSE_DROPS", 0x80134, [(0x1000, 16)], 0x0, 0x0, 0x0, 0x0, 0x0, 0x0, 0x0, .none, .none⟩,
  ⟨"SHT_n_REEXPOSED", 0x80138, [(0x1000, 16)], 0x0, 0x0, 0x0, 0x0, 0x0, 0x0, 0x0, .none, .none⟩,
  ⟨"SHT_n_ZOFF", 0x8013c, [(0x1000, 16)], 0x0, 0x0, 0x0, 0x0, 0x0, 0x0, 0x0, .none, .none⟩]

/-- The registers of SHT (R169). -/
def shtRows : List RegRow :=
  shtRows0 ++ shtRows1

def fbkRows0 : List RegRow := [
  ⟨"FBK_c_CTRL", 0x90000, [(0x100, 8)], 0x0, 0x0, 0x0, 0xf77, 0x0, 0x0, 0x0, .none, .feedback⟩,
  ⟨"FBK_c_EN", 0x90004, [(0x100, 8)], 0x0, 0x3, 0x0, 0x0, 0x0, 0x0, 0x0, .none, .none⟩,
  ⟨"FBK_c_FLAGS", 0x90008, [(0x100, 8)], 0x0, 0x0, 0x0, 0x0, 0x7f, 0x0, 0x0, .none, .none⟩,
  ⟨"FBK_c_COUNT", 0x9000c, [(0x100, 8)], 0x0, 0xffffffff, 0x0, 0x0, 0x0, 0x0, 0x0, .none, .none⟩,
  ⟨"FBK_c_SPEED", 0x90010, [(0x100, 8)], 0x0, 0x0, 0x0, 0x0, 0x0, 0x0, 0x0, .none, .none⟩,
  ⟨"FBK_c_QUAL", 0x90014, [(0x100, 8)], 0xf, 0x0, 0x0, 0x0, 0x0, 0x0, 0x0, .none, .none⟩,
  ⟨"FBK_c_SPD_WIN", 0x90018, [(0x100, 8)], 0x4e20, 0x0, 0xffffffff, 0x0, 0x0, 0x0, 0x0, .period, .none⟩,
  ⟨"FBK_c_SPD_TIMEOUT", 0x9001c, [(0x100, 8)], 0x186a0, 0x0, 0xffffffff, 0x0, 0x0, 0x0, 0x0, .period, .none⟩,
  ⟨"FBK_c_IDX_PERIOD", 0x90020, [(0x100, 8)], 0x0, 0x0, 0x0, 0xffffffff, 0x0, 0x0, 0x0, .none, .feedback⟩,
  ⟨"FBK_c_IDX_POS", 0x90024, [(0x100, 8)], 0x0, 0x0, 0x0, 0xffffffff, 0x0, 0x0, 0x0, .none, .feedback⟩,
  ⟨"FBK_c_IDX_TOL", 0x90028, [(0x100, 8)], 0x4, 0x0, 0xffff, 0x0, 0x0, 0x0, 0x0, .period, .none⟩,
  ⟨"FBK_c_IDX_LATCH", 0x9002c, [(0x100, 8)], 0x0, 0x0, 0x0, 0x0, 0x0, 0x0, 0x0, .none, .none⟩,
  ⟨"FBK_c_IDX_CORR", 0x90030, [(0x100, 8)], 0x0, 0x0, 0x0, 0x0, 0x0, 0x0, 0x0, .none, .none⟩,
  ⟨"FBK_c_SSI_CFG", 0x90034, [(0x100, 8)], 0x0, 0x0, 0x0, 0xfffffc1f, 0x0, 0x0, 0x0, .none, .feedback⟩,
  ⟨"FBK_c_CMP_VAL", 0x90040, [(0x100, 8)], 0x0, 0xffffffff, 0x0, 0x0, 0x0, 0x0, 0x0, .none, .cmpOwned⟩,
  ⟨"FBK_c_CMP_SPACING", 0x90044, [(0x100, 8)], 0x0, 0xffffffff, 0x0, 0x0, 0x0, 0x0, 0x0, .none, .cmpOwned⟩,
  ⟨"FBK_c_CMP_CTRL", 0x90048, [(0x100, 8)], 0x19, 0xffff00df, 0x0, 0x0, 0x0, 0x0, 0x0, .none, .cmpOwned⟩,
  ⟨"FBK_c_CMP_COUNT", 0x9004c, [(0x100, 8)], 0x0, 0xffffffff, 0x0, 0x0, 0x0, 0x0, 0x0, .none, .cmpOwned⟩,
  ⟨"FBK_c_CMP_HITS", 0x90050, [(0x100, 8)], 0x0, 0x0, 0x0, 0x0, 0x0, 0x0, 0x0, .none, .none⟩,
  ⟨"FBK_c_CMP_SKIPPED", 0x90054, [(0x100, 8)], 0x0, 0x0, 0x0, 0x0, 0x0, 0x0, 0x0, .none, .none⟩,
  ⟨"FBK_c_CMP_TIME", 0x90058, [(0x100, 8)], 0x0, 0x0, 0x0, 0x0, 0x0, 0x0, 0x0, .none, .none⟩,
  ⟨"FBK_c_ERRS", 0x9005c, [(0x100, 8)], 0x0, 0x0, 0x0, 0x0, 0x0, 0x0, 0x0, .none, .none⟩,
  ⟨"FBK_S_k_OFFSET", 0x91000, [(0x40, 48)], 0x0, 0x0, 0xffffff, 0x0, 0x0, 0x0, 0x0, .period, .none⟩,
  ⟨"FBK_S_k_COUNT", 0x91004, [(0x40, 48)], 0x0, 0x0, 0x0, 0x0, 0x0, 0x0, 0x0, .none, .none⟩]

def fbkRows1 : List RegRow := [
  ⟨"FBK_S_k_SPEED", 0x91008, [(0x40, 48)], 0x0, 0x0, 0x0, 0x0, 0x0, 0x0, 0x0, .none, .none⟩,
  ⟨"FBK_S_k_STATUS", 0x9100c, [(0x40, 48)], 0xf, 0x0, 0x0, 0x0, 0x0, 0x0, 0x0, .none, .none⟩,
  ⟨"FBK_S_k_FLAGS", 0x91010, [(0x40, 48)], 0x0, 0x0, 0x0, 0x0, 0x1, 0x0, 0x0, .none, .none⟩,
  ⟨"FBK_S_k_JUMP_MAX", 0x91014, [(0x40, 48)], 0x4000, 0x0, 0xffffff, 0x0, 0x0, 0x0, 0x0, .period, .none⟩,
  ⟨"FBK_S_k_JUMPS", 0x91018, [(0x40, 48)], 0x0, 0x0, 0x0, 0x0, 0x0, 0x0, 0x0, .none, .none⟩,
  ⟨"FBK_P_n_S", 0x92000, [(0x40, 16)], 0x0, 0x0, 0x0, 0x0, 0x0, 0x0, 0x0, .none, .none⟩,
  ⟨"FBK_P_n_CMP", 0x92004, [(0x40, 16)], 0x0, 0x0, 0x0, 0x0, 0x0, 0x0, 0x0, .none, .none⟩,
  ⟨"FBK_P_n_SPACING", 0x92008, [(0x40, 16)], 0x0, 0x0, 0x0, 0x0, 0x0, 0x0, 0x0, .none, .none⟩,
  ⟨"FBK_P_n_HITS", 0x9200c, [(0x40, 16)], 0x0, 0x0, 0x0, 0x0, 0x0, 0x0, 0x0, .none, .none⟩,
  ⟨"FBK_P_n_SKIPPED", 0x92010, [(0x40, 16)], 0x0, 0x0, 0x0, 0x0, 0x0, 0x0, 0x0, .none, .none⟩,
  ⟨"FBK_P_n_FLAGS", 0x92014, [(0x40, 16)], 0x0, 0x0, 0x0, 0x0, 0x3, 0x0, 0x0, .none, .none⟩]

/-- The registers of FBK (R298, R303, R304). -/
def fbkRows : List RegRow :=
  fbkRows0 ++ fbkRows1

def reedRows0 : List RegRow := [
  ⟨"REED_e_CTRL", 0xa0000, [(0x4000, 4)], 0x0, 0x0, 0x0, 0x1, 0x0, 0x0, 0x0, .none, .reedEngine⟩,
  ⟨"REED_e_STATUS", 0xa0004, [(0x4000, 4)], 0x0, 0x0, 0x0, 0x0, 0x0, 0x0, 0x0, .none, .none⟩,
  ⟨"REED_e_FLAGS", 0xa0008, [(0x4000, 4)], 0x0, 0x0, 0x0, 0x0, 0x3, 0x0, 0x0, .none, .none⟩,
  ⟨"REED_e_SLACK", 0xa000c, [(0x4000, 4)], 0xffff, 0x0, 0x0, 0x0, 0x0, 0x0, 0xffff, .none, .none⟩,
  ⟨"REED_e_OVERRUNS", 0xa0010, [(0x4000, 4)], 0x0, 0x0, 0x0, 0x0, 0x0, 0x0, 0x0, .none, .none⟩,
  ⟨"REED_e_n_CTRL", 0xa0100, [(0x4000, 3), (0x100, 16)], 0x0, 0x0, 0xf703, 0x0, 0x0, 0x0, 0x0, .period, .none⟩,
  ⟨"REED_e_n_STATUS", 0xa0104, [(0x4000, 3), (0x100, 16)], 0x300, 0x0, 0x0, 0x0, 0x0, 0x0, 0x0, .none, .none⟩,
  ⟨"REED_e_n_FLAGS", 0xa0108, [(0x4000, 3), (0x100, 16)], 0x0, 0x0, 0x0, 0x0, 0x1ff, 0x0, 0x0, .none, .none⟩,
  ⟨"REED_e_n_KP", 0xa010c, [(0x4000, 3), (0x100, 16)], 0x0, 0x0, 0xffffffff, 0x0, 0x0, 0x0, 0x0, .period, .none⟩,
  ⟨"REED_e_n_KI", 0xa0110, [(0x4000, 3), (0x100, 16)], 0x0, 0x0, 0xffffffff, 0x0, 0x0, 0x0, 0x0, .period, .none⟩,
  ⟨"REED_e_n_KD", 0xa0114, [(0x4000, 3), (0x100, 16)], 0x0, 0x0, 0xffffffff, 0x0, 0x0, 0x0, 0x0, .period, .none⟩,
  ⟨"REED_e_n_KV", 0xa0118, [(0x4000, 3), (0x100, 16)], 0x0, 0x0, 0xffffffff, 0x0, 0x0, 0x0, 0x0, .period, .none⟩,
  ⟨"REED_e_n_KA", 0xa011c, [(0x4000, 3), (0x100, 16)], 0x0, 0x0, 0xffffffff, 0x0, 0x0, 0x0, 0x0, .period, .none⟩,
  ⟨"REED_e_n_KDF", 0xa0120, [(0x4000, 3), (0x100, 16)], 0x0, 0x0, 0xffff, 0x0, 0x0, 0x0, 0x0, .period, .none⟩,
  ⟨"REED_e_n_KB", 0xa0124, [(0x4000, 3), (0x100, 16)], 0x4000, 0x0, 0xffff, 0x0, 0x0, 0x0, 0x0, .period, .none⟩,
  ⟨"REED_e_n_OUT_MAX", 0xa0128, [(0x4000, 3), (0x100, 16)], 0x7fff, 0x0, 0x7fff, 0x0, 0x0, 0x0, 0x0, .period, .none⟩,
  ⟨"REED_e_n_SHIFT", 0xa012c, [(0x4000, 3), (0x100, 16)], 0x10, 0x0, 0x0, 0x3f, 0x0, 0x0, 0x0, .none, .reedLoop⟩,
  ⟨"REED_e_n_MAN_VALUE", 0xa0130, [(0x4000, 3), (0x100, 16)], 0x0, 0xffff, 0x0, 0x0, 0x0, 0x0, 0x0, .none, .none⟩,
  ⟨"REED_e_n_RAMP_RATE", 0xa0134, [(0x4000, 3), (0x100, 16)], 0x10000, 0x0, 0xffffffff, 0x0, 0x0, 0x0, 0x0, .period, .none⟩,
  ⟨"REED_e_n_FE_LIMIT", 0xa0138, [(0x4000, 3), (0x100, 16)], 0x1000000, 0x0, 0xffffffff, 0x0, 0x0, 0x0, 0x0, .period, .none⟩,
  ⟨"REED_e_n_FE_TIME", 0xa013c, [(0x4000, 3), (0x100, 16)], 0x64, 0x0, 0xffff, 0x0, 0x0, 0x0, 0x0, .period, .none⟩,
  ⟨"REED_e_n_EXT_CFG", 0xa0140, [(0x4000, 3), (0x100, 16)], 0x27100000, 0x0, 0xffff001f, 0x0, 0x0, 0x0, 0x0, .period, .none⟩,
  ⟨"REED_e_n_EXT_OFFSET", 0xa0144, [(0x4000, 3), (0x100, 16)], 0x0, 0x0, 0xffffffff, 0x0, 0x0, 0x0, 0x0, .period, .none⟩,
  ⟨"REED_e_n_EXT_GAIN", 0xa0148, [(0x4000, 3), (0x100, 16)], 0x10000, 0x0, 0xffffffff, 0x0, 0x0, 0x0, 0x0, .period, .none⟩]

def reedRows1 : List RegRow := [
  ⟨"REED_e_n_ERR", 0xa014c, [(0x4000, 3), (0x100, 16)], 0x0, 0x0, 0x0, 0x0, 0x0, 0x0, 0x0, .none, .none⟩,
  ⟨"REED_e_n_CMD", 0xa0150, [(0x4000, 3), (0x100, 16)], 0x30000, 0x0, 0x0, 0x0, 0x0, 0x0, 0x0, .none, .none⟩,
  ⟨"REED_e_n_INTEG", 0xa0154, [(0x4000, 3), (0x100, 16)], 0x0, 0x0, 0x0, 0x0, 0x0, 0x0, 0x0, .none, .none⟩,
  ⟨"REED_e_n_OVR", 0xa0158, [(0x4000, 3), (0x100, 16)], 0x0, 0x0, 0x0, 0x0, 0x0, 0x0, 0x0, .none, .none⟩,
  ⟨"REED_e_n_FE_MAX", 0xa015c, [(0x4000, 3), (0x100, 16)], 0x0, 0x0, 0x0, 0x0, 0x0, 0x0, 0xffffffff, .none, .none⟩,
  ⟨"REED_e_n_BQs_B0", 0xa0160, [(0x4000, 3), (0x100, 16), (0x14, 8)], 0x40000000, 0x0, 0xffffffff, 0x0, 0x0, 0x0, 0x0, .period, .none⟩,
  ⟨"REED_e_n_BQs_B1", 0xa0164, [(0x4000, 3), (0x100, 16), (0x14, 8)], 0x0, 0x0, 0xffffffff, 0x0, 0x0, 0x0, 0x0, .period, .none⟩,
  ⟨"REED_e_n_BQs_B2", 0xa0168, [(0x4000, 3), (0x100, 16), (0x14, 8)], 0x0, 0x0, 0xffffffff, 0x0, 0x0, 0x0, 0x0, .period, .none⟩,
  ⟨"REED_e_n_BQs_A1", 0xa016c, [(0x4000, 3), (0x100, 16), (0x14, 8)], 0x0, 0x0, 0xffffffff, 0x0, 0x0, 0x0, 0x0, .period, .none⟩,
  ⟨"REED_e_n_BQs_A2", 0xa0170, [(0x4000, 3), (0x100, 16), (0x14, 8)], 0x0, 0x0, 0xffffffff, 0x0, 0x0, 0x0, 0x0, .period, .none⟩,
  ⟨"REED_3_n_CTRL", 0xac100, [(0x100, 16)], 0x10, 0x0, 0x713, 0x0, 0x0, 0x0, 0x0, .tick, .none⟩,
  ⟨"REED_3_n_STATUS", 0xac104, [(0x100, 16)], 0x300, 0x0, 0x0, 0x0, 0x0, 0x0, 0x0, .none, .none⟩,
  ⟨"REED_3_n_FLAGS", 0xac108, [(0x100, 16)], 0x0, 0x0, 0x0, 0x0, 0x1ff, 0x0, 0x0, .none, .none⟩,
  ⟨"REED_3_n_KP", 0xac10c, [(0x100, 16)], 0x0, 0x0, 0xffffffff, 0x0, 0x0, 0x0, 0x0, .tick, .none⟩,
  ⟨"REED_3_n_KI", 0xac110, [(0x100, 16)], 0x0, 0x0, 0xffffffff, 0x0, 0x0, 0x0, 0x0, .tick, .none⟩,
  ⟨"REED_3_n_KH", 0xac114, [(0x100, 16)], 0x0, 0x0, 0xffffffff, 0x0, 0x0, 0x0, 0x0, .tick, .none⟩,
  ⟨"REED_3_n_KB", 0xac118, [(0x100, 16)], 0x4000, 0x0, 0xffff, 0x0, 0x0, 0x0, 0x0, .tick, .none⟩,
  ⟨"REED_3_n_CORR_MAX", 0xac11c, [(0x100, 16)], 0xc350, 0x0, 0x3fffff, 0x0, 0x0, 0x0, 0x0, .tick, .none⟩,
  ⟨"REED_3_n_P_MAX", 0xac120, [(0x100, 16)], 0x0, 0x0, 0x3fffff, 0x0, 0x0, 0x0, 0x0, .tick, .none⟩,
  ⟨"REED_3_n_HF_MAX", 0xac124, [(0x100, 16)], 0xc350, 0x0, 0x3fffff, 0x0, 0x0, 0x0, 0x0, .tick, .none⟩,
  ⟨"REED_3_n_MAN_VALUE", 0xac128, [(0x100, 16)], 0x0, 0x3fffff, 0x0, 0x0, 0x0, 0x0, 0x0, .none, .none⟩,
  ⟨"REED_3_n_RAMP_RATE", 0xac12c, [(0x100, 16)], 0x0, 0x0, 0xffffffff, 0x0, 0x0, 0x0, 0x0, .tick, .none⟩,
  ⟨"REED_3_n_FE_LIMIT", 0xac130, [(0x100, 16)], 0xffff, 0x0, 0xffffffff, 0x0, 0x0, 0x0, 0x0, .tick, .none⟩,
  ⟨"REED_3_n_FE_TIME", 0xac134, [(0x100, 16)], 0xc8, 0x0, 0xffff, 0x0, 0x0, 0x0, 0x0, .tick, .none⟩]

def reedRows2 : List RegRow := [
  ⟨"REED_3_n_SENS_HOLD", 0xac138, [(0x100, 16)], 0x10, 0x0, 0xffff, 0x0, 0x0, 0x0, 0x0, .tick, .none⟩,
  ⟨"REED_3_n_EXT_CFG", 0xac13c, [(0x100, 16)], 0x27100000, 0x0, 0xffffffff, 0x0, 0x0, 0x0, 0x0, .tick, .none⟩,
  ⟨"REED_3_n_EXT_OFFSET", 0xac140, [(0x100, 16)], 0x0, 0x0, 0xffffffff, 0x0, 0x0, 0x0, 0x0, .tick, .none⟩,
  ⟨"REED_3_n_EXT_GAIN", 0xac144, [(0x100, 16)], 0x10000, 0x0, 0xffffffff, 0x0, 0x0, 0x0, 0x0, .tick, .none⟩,
  ⟨"REED_3_n_ERR", 0xac148, [(0x100, 16)], 0x0, 0x0, 0x0, 0x0, 0x0, 0x0, 0x0, .none, .none⟩,
  ⟨"REED_3_n_CMD", 0xac14c, [(0x100, 16)], 0xc00000, 0x0, 0x0, 0x0, 0x0, 0x0, 0x0, .none, .none⟩,
  ⟨"REED_3_n_CORR", 0xac150, [(0x100, 16)], 0x0, 0x0, 0x0, 0x0, 0x0, 0x0, 0x0, .none, .none⟩,
  ⟨"REED_3_n_INTEG", 0xac154, [(0x100, 16)], 0x0, 0x0, 0x0, 0x0, 0x0, 0x0, 0x0, .none, .none⟩,
  ⟨"REED_3_n_OVR", 0xac158, [(0x100, 16)], 0x0, 0x0, 0x0, 0x0, 0x0, 0x0, 0x0, .none, .none⟩,
  ⟨"REED_3_n_MELT_DEVS", 0xac15c, [(0x100, 16)], 0x0, 0x0, 0x0, 0x0, 0x0, 0x0, 0x0, .none, .none⟩,
  ⟨"REED_3_AUXj_CTRL", 0xae000, [(0x100, 8)], 0xc800000, 0x0, 0xfff0f7f3, 0x0, 0x0, 0x0, 0x0, .evaluation, .none⟩,
  ⟨"REED_3_AUXj_IN_SEL", 0xae018, [(0x100, 8)], 0x0, 0x0, 0x7f, 0x0, 0x0, 0x0, 0x0, .evaluation, .none⟩,
  ⟨"REED_3_AUXj_OUT_SEL", 0xae01c, [(0x100, 8)], 0x0, 0x0, 0xffffff0f, 0x0, 0x0, 0x0, 0x0, .evaluation, .none⟩,
  ⟨"REED_3_AUXj_SETPOINT", 0xae058, [(0x100, 8)], 0x0, 0xffffffff, 0x0, 0x0, 0x0, 0x0, 0x0, .none, .none⟩,
  ⟨"REED_3_AUXj_STATUS", 0xae004, [(0x100, 8)], 0x300, 0x0, 0x0, 0x0, 0x0, 0x0, 0x0, .none, .none⟩,
  ⟨"REED_3_AUXj_FLAGS", 0xae008, [(0x100, 8)], 0x0, 0x0, 0x0, 0x0, 0x1ff, 0x0, 0x0, .none, .none⟩,
  ⟨"REED_3_AUXj_KP", 0xae00c, [(0x100, 8)], 0x0, 0x0, 0xffffffff, 0x0, 0x0, 0x0, 0x0, .evaluation, .none⟩,
  ⟨"REED_3_AUXj_KI", 0xae010, [(0x100, 8)], 0x0, 0x0, 0xffffffff, 0x0, 0x0, 0x0, 0x0, .evaluation, .none⟩,
  ⟨"REED_3_AUXj_KD", 0xae014, [(0x100, 8)], 0x0, 0x0, 0xffffffff, 0x0, 0x0, 0x0, 0x0, .evaluation, .none⟩,
  ⟨"REED_3_AUXj_KDF", 0xae020, [(0x100, 8)], 0x0, 0x0, 0xffff, 0x0, 0x0, 0x0, 0x0, .evaluation, .none⟩,
  ⟨"REED_3_AUXj_KB", 0xae024, [(0x100, 8)], 0x4000, 0x0, 0xffff, 0x0, 0x0, 0x0, 0x0, .evaluation, .none⟩,
  ⟨"REED_3_AUXj_OUT_MAX", 0xae028, [(0x100, 8)], 0x7fff, 0x0, 0x7fff, 0x0, 0x0, 0x0, 0x0, .evaluation, .none⟩,
  ⟨"REED_3_AUXj_SHIFT", 0xae02c, [(0x100, 8)], 0x10, 0x0, 0x0, 0x3f, 0x0, 0x0, 0x0, .none, .reedLoop⟩,
  ⟨"REED_3_AUXj_MAN_VALUE", 0xae030, [(0x100, 8)], 0x0, 0xffff, 0x0, 0x0, 0x0, 0x0, 0x0, .none, .none⟩]

def reedRows3 : List RegRow := [
  ⟨"REED_3_AUXj_RAMP_RATE", 0xae034, [(0x100, 8)], 0x10000, 0x0, 0xffffffff, 0x0, 0x0, 0x0, 0x0, .evaluation, .none⟩,
  ⟨"REED_3_AUXj_FE_LIMIT", 0xae038, [(0x100, 8)], 0x1000000, 0x0, 0xffffffff, 0x0, 0x0, 0x0, 0x0, .evaluation, .none⟩,
  ⟨"REED_3_AUXj_FE_TIME", 0xae03c, [(0x100, 8)], 0x64, 0x0, 0xffff, 0x0, 0x0, 0x0, 0x0, .evaluation, .none⟩,
  ⟨"REED_3_AUXj_EXT_CFG", 0xae040, [(0x100, 8)], 0x27100000, 0x0, 0xffff001f, 0x0, 0x0, 0x0, 0x0, .evaluation, .none⟩,
  ⟨"REED_3_AUXj_EXT_OFFSET", 0xae044, [(0x100, 8)], 0x0, 0x0, 0xffffffff, 0x0, 0x0, 0x0, 0x0, .evaluation, .none⟩,
  ⟨"REED_3_AUXj_EXT_GAIN", 0xae048, [(0x100, 8)], 0x10000, 0x0, 0xffffffff, 0x0, 0x0, 0x0, 0x0, .evaluation, .none⟩,
  ⟨"REED_3_AUXj_ERR", 0xae04c, [(0x100, 8)], 0x0, 0x0, 0x0, 0x0, 0x0, 0x0, 0x0, .none, .none⟩,
  ⟨"REED_3_AUXj_CMD", 0xae050, [(0x100, 8)], 0x30000, 0x0, 0x0, 0x0, 0x0, 0x0, 0x0, .none, .none⟩,
  ⟨"REED_3_AUXj_INTEG", 0xae054, [(0x100, 8)], 0x0, 0x0, 0x0, 0x0, 0x0, 0x0, 0x0, .none, .none⟩,
  ⟨"REED_3_AUXj_FE_MAX", 0xae05c, [(0x100, 8)], 0x0, 0x0, 0x0, 0x0, 0x0, 0x0, 0xffffffff, .none, .none⟩,
  ⟨"REED_3_AUXj_BQs_B0", 0xae060, [(0x100, 8), (0x14, 2)], 0x40000000, 0x0, 0xffffffff, 0x0, 0x0, 0x0, 0x0, .evaluation, .none⟩,
  ⟨"REED_3_AUXj_BQs_B1", 0xae064, [(0x100, 8), (0x14, 2)], 0x0, 0x0, 0xffffffff, 0x0, 0x0, 0x0, 0x0, .evaluation, .none⟩,
  ⟨"REED_3_AUXj_BQs_B2", 0xae068, [(0x100, 8), (0x14, 2)], 0x0, 0x0, 0xffffffff, 0x0, 0x0, 0x0, 0x0, .evaluation, .none⟩,
  ⟨"REED_3_AUXj_BQs_A1", 0xae06c, [(0x100, 8), (0x14, 2)], 0x0, 0x0, 0xffffffff, 0x0, 0x0, 0x0, 0x0, .evaluation, .none⟩,
  ⟨"REED_3_AUXj_BQs_A2", 0xae070, [(0x100, 8), (0x14, 2)], 0x0, 0x0, 0xffffffff, 0x0, 0x0, 0x0, 0x0, .evaluation, .none⟩]

/-- The registers of REED (R203 to R206). -/
def reedRows : List RegRow :=
  reedRows0 ++ reedRows1 ++ reedRows2 ++ reedRows3

def mplRows0 : List RegRow := [
  ⟨"MPL_n_CTRL", 0xb0000, [(0x1000, 16)], 0x1f, 0x0, 0x7f, 0x0, 0x0, 0x0, 0x0, .layer, .none⟩,
  ⟨"MPL_n_STATUS", 0xb0004, [(0x1000, 16)], 0x0, 0x0, 0x0, 0x0, 0x0, 0x0, 0x0, .none, .none⟩,
  ⟨"MPL_n_FLAGS", 0xb0008, [(0x1000, 16)], 0x0, 0x0, 0x0, 0x0, 0xff, 0x0, 0x0, .none, .none⟩,
  ⟨"MPL_n_DARK", 0xb000c, [(0x1000, 16)], 0x0, 0x0, 0x0, 0x0, 0x0, 0x0, 0x0, .none, .none⟩,
  ⟨"MPL_n_GAIN", 0xb0010, [(0x1000, 16)], 0x10000, 0x0, 0x0, 0x0, 0x0, 0x0, 0x0, .none, .none⟩,
  ⟨"MPL_n_SIG_MIN", 0xb0014, [(0x1000, 16)], 0x40, 0x0, 0xffff, 0x0, 0x0, 0x0, 0x0, .tick, .none⟩,
  ⟨"MPL_n_SAT_LVL", 0xb0018, [(0x1000, 16)], 0xffc0, 0x0, 0xffff, 0x0, 0x0, 0x0, 0x0, .tick, .none⟩,
  ⟨"MPL_n_RATIO_LO", 0xb001c, [(0x1000, 16)], 0xc0000, 0x0, 0xffffff, 0x0, 0x0, 0x0, 0x0, .layer, .none⟩,
  ⟨"MPL_n_RATIO_SH", 0xb0020, [(0x1000, 16)], 0xa, 0x0, 0xf, 0x0, 0x0, 0x0, 0x0, .layer, .none⟩,
  ⟨"MPL_n_TTAB_BASE", 0xb0024, [(0x1000, 16)], 0x0, 0x0, 0xffffffff, 0x0, 0x0, 0x0, 0x0, .layer, .none⟩,
  ⟨"MPL_n_TEMP", 0xb0028, [(0x1000, 16)], 0x30000, 0x0, 0x0, 0x0, 0x0, 0x0, 0x0, .none, .none⟩,
  ⟨"MPL_n_RATIO", 0xb002c, [(0x1000, 16)], 0x0, 0x0, 0x0, 0x0, 0x0, 0x0, 0x0, .none, .none⟩,
  ⟨"MPL_n_BLACK", 0xb0030, [(0x1000, 16)], 0x10, 0x0, 0x3ff, 0x0, 0x0, 0x0, 0x0, .coaxFrame, .none⟩,
  ⟨"MPL_n_POOL", 0xb0034, [(0x1000, 16)], 0x180100, 0x0, 0x7f03ff, 0x0, 0x0, 0x0, 0x0, .coaxFrame, .none⟩,
  ⟨"MPL_n_SPAT", 0xb0038, [(0x1000, 16)], 0x200, 0x0, 0x3ff, 0x0, 0x0, 0x0, 0x0, .coaxFrame, .none⟩,
  ⟨"MPL_n_AREA_MIN", 0xb003c, [(0x1000, 16)], 0x4, 0x0, 0x7fff, 0x0, 0x0, 0x0, 0x0, .coaxFrame, .none⟩,
  ⟨"MPL_n_DESC_CNT", 0xb0040, [(0x1000, 16)], 0x0, 0x0, 0x0, 0x0, 0x0, 0x0, 0x0, .none, .none⟩,
  ⟨"MPL_n_FRAMES_BAD", 0xb0044, [(0x1000, 16)], 0x0, 0x0, 0x0, 0x0, 0x0, 0x0, 0x0, .none, .none⟩,
  ⟨"MPL_n_HEAT", 0xb0048, [(0x1000, 16)], 0x30000, 0x0, 0x0, 0x0, 0x0, 0x0, 0x0, .none, .none⟩,
  ⟨"MPL_n_SELF_AGE", 0xb004c, [(0x1000, 16)], 0x7d0, 0x0, 0xffffff, 0x0, 0x0, 0x0, 0x0, .layer, .none⟩,
  ⟨"MPL_n_ARCH_BASE", 0xb0050, [(0x1000, 16)], 0x0, 0x0, 0x0, 0xffff, 0x0, 0x0, 0x0, .none, .archive⟩,
  ⟨"MPL_n_ARCH_SIZE", 0xb0054, [(0x1000, 16)], 0x0, 0x0, 0x0, 0xffff, 0x0, 0x0, 0x0, .none, .archive⟩,
  ⟨"MPL_n_ARCH_CTRL", 0xb0058, [(0x1000, 16)], 0x0, 0x0, 0xffff00e0, 0x0, 0x0, 0x7, 0x0, .coaxFrame, .none⟩,
  ⟨"MPL_n_ARCH_HELD", 0xb005c, [(0x1000, 16)], 0x0, 0x0, 0x0, 0x0, 0x0, 0x0, 0x0, .none, .none⟩]

def mplRows1 : List RegRow := [
  ⟨"MPL_n_ARCH_SKIP", 0xb0060, [(0x1000, 16)], 0x0, 0x0, 0x0, 0x0, 0x0, 0x0, 0x0, .none, .none⟩,
  ⟨"MPL_CTRL", 0xb0800, [], 0x0, 0x0, 0x0, 0xf7, 0x0, 0x0, 0x0, .none, .map⟩,
  ⟨"MPL_STATUS", 0xb0804, [], 0x0, 0x0, 0x0, 0x0, 0x0, 0x0, 0x0, .none, .none⟩,
  ⟨"MPL_FLAGS", 0xb0808, [], 0x0, 0x0, 0x0, 0x0, 0x1f, 0x0, 0x0, .none, .none⟩,
  ⟨"MPL_MAP_X0", 0xb080c, [], 0x0, 0x0, 0x0, 0xffffffff, 0x0, 0x0, 0x0, .none, .map⟩,
  ⟨"MPL_MAP_Y0", 0xb0810, [], 0x0, 0x0, 0x0, 0xffffffff, 0x0, 0x0, 0x0, .none, .map⟩,
  ⟨"MPL_MAP_SIZE", 0xb0814, [], 0x0, 0x0, 0x0, 0xffffffff, 0x0, 0x0, 0x0, .none, .map⟩,
  ⟨"MPL_MAP_BASE_A", 0xb0818, [], 0x0, 0x0, 0x0, 0xffff, 0x0, 0x0, 0x0, .none, .map⟩,
  ⟨"MPL_MAP_BASE_B", 0xb081c, [], 0x0, 0x0, 0x0, 0xffff, 0x0, 0x0, 0x0, .none, .map⟩,
  ⟨"MPL_HEAT_BASE", 0xb0820, [], 0x0, 0x0, 0xffff, 0x0, 0x0, 0x0, 0x0, .layer, .none⟩,
  ⟨"MPL_HEAT_W0", 0xb0824, [], 0x20004000, 0x0, 0xffffffff, 0x0, 0x0, 0x0, 0x0, .layer, .none⟩,
  ⟨"MPL_HEAT_W1", 0xb0828, [], 0x1000, 0x0, 0xffff, 0x0, 0x0, 0x0, 0x0, .layer, .none⟩,
  ⟨"MPL_AGE_SHIFT", 0xb082c, [], 0x8, 0x0, 0xf, 0x0, 0x0, 0x0, 0x0, .layer, .none⟩,
  ⟨"MPL_VIS_LAG", 0xb0830, [], 0x100, 0x0, 0xffff, 0x0, 0x0, 0x0, 0x0, .layer, .none⟩,
  ⟨"MPL_MAP_TIME_LO", 0xb0834, [], 0x0, 0x0, 0x0, 0x0, 0x0, 0x0, 0x0, .none, .none⟩,
  ⟨"MPL_MAP_TIME_HI", 0xb0838, [], 0x0, 0x0, 0x0, 0x0, 0x0, 0x0, 0x0, .none, .none⟩,
  ⟨"MPL_MAP_OPEN_LO", 0xb083c, [], 0x0, 0x0, 0x0, 0x0, 0x0, 0x0, 0x0, .none, .none⟩,
  ⟨"MPL_MAP_OPEN_HI", 0xb0840, [], 0x0, 0x0, 0x0, 0x0, 0x0, 0x0, 0x0, .none, .none⟩,
  ⟨"MPL_MAP_LATE", 0xb0844, [], 0x0, 0x0, 0x0, 0x0, 0x0, 0x0, 0x0, .none, .none⟩,
  ⟨"MPL_MAP_SKIP", 0xb0848, [], 0x0, 0x0, 0x0, 0x0, 0x0, 0x0, 0x0, .none, .none⟩,
  ⟨"MPL_DESC_BASE", 0xb084c, [], 0x0, 0x0, 0x0, 0xffff, 0x0, 0x0, 0x0, .none, .map⟩,
  ⟨"MPL_DESC_SIZE", 0xb0850, [], 0x0, 0x0, 0x0, 0xffff, 0x0, 0x0, 0x0, .none, .map⟩,
  ⟨"MPL_DESC_DROPS", 0xb0854, [], 0x0, 0x0, 0x0, 0x0, 0x0, 0x0, 0x0, .none, .none⟩,
  ⟨"MPL_DESC_FILL", 0xb0858, [], 0x0, 0x0, 0x0, 0x0, 0x0, 0x0, 0x0, .none, .none⟩]

def mplRows2 : List RegRow := [
  ⟨"MPL_TGT_BASE", 0xb085c, [], 0x0, 0x0, 0x0, 0xffffffff, 0x0, 0x0, 0x0, .none, .map⟩,
  ⟨"MPL_DECAY_i", 0xb0900, [(0x4, 32)], 0x0, 0x0, 0xffffffff, 0x0, 0x0, 0x0, 0x0, .layer, .none⟩]

/-- The registers of MPL (R241, R246). -/
def mplRows : List RegRow :=
  mplRows0 ++ mplRows1 ++ mplRows2

def axsRows0 : List RegRow := [
  ⟨"AXS_m_CTRL", 0xc0000, [(0x100, 8)], 0x10, 0x0, 0x0, 0xff, 0x0, 0x0, 0x0, .none, .axis⟩,
  ⟨"AXS_m_STATUS", 0xc0004, [(0x100, 8)], 0x0, 0x0, 0x0, 0x0, 0x0, 0x0, 0x0, .none, .none⟩,
  ⟨"AXS_m_FLAGS", 0xc0008, [(0x100, 8)], 0x0, 0x0, 0x0, 0x0, 0x1ff, 0x0, 0x0, .none, .none⟩,
  ⟨"AXS_m_CMD", 0xc000c, [(0x100, 8)], 0x0, 0x0, 0x0, 0x0, 0x0, 0x0, 0x0, .none, .none⟩,
  ⟨"AXS_m_POS", 0xc0010, [(0x100, 8)], 0x0, 0x0, 0x0, 0xffffffff, 0x0, 0x0, 0x0, .none, .axis⟩,
  ⟨"AXS_m_TARGET", 0xc0014, [(0x100, 8)], 0x0, 0xffffffff, 0x0, 0x0, 0x0, 0x0, 0x0, .none, .none⟩,
  ⟨"AXS_m_PENDING", 0xc0018, [(0x100, 8)], 0x0, 0x0, 0x0, 0x0, 0x0, 0x0, 0x0, .none, .none⟩,
  ⟨"AXS_m_SPEED", 0xc001c, [(0x100, 8)], 0xc800, 0x0, 0x0, 0xffffffff, 0x0, 0x0, 0x0, .none, .axis⟩,
  ⟨"AXS_m_ACC", 0xc0020, [(0x100, 8)], 0xfa000, 0x0, 0x0, 0xffffffff, 0x0, 0x0, 0x0, .none, .axis⟩,
  ⟨"AXS_m_DEC", 0xc0024, [(0x100, 8)], 0xfa000, 0x0, 0x0, 0xffffffff, 0x0, 0x0, 0x0, .none, .axis⟩,
  ⟨"AXS_m_VSTART", 0xc0028, [(0x100, 8)], 0x100, 0x0, 0x0, 0xffffffff, 0x0, 0x0, 0x0, .none, .axis⟩,
  ⟨"AXS_m_VEL", 0xc002c, [(0x100, 8)], 0x0, 0x0, 0x0, 0x0, 0x0, 0x0, 0x0, .none, .none⟩,
  ⟨"AXS_m_SOFT_MIN", 0xc0030, [(0x100, 8)], 0x80000000, 0x0, 0x0, 0xffffffff, 0x0, 0x0, 0x0, .none, .axis⟩,
  ⟨"AXS_m_SOFT_MAX", 0xc0034, [(0x100, 8)], 0x7fffffff, 0x0, 0x0, 0xffffffff, 0x0, 0x0, 0x0, .none, .axis⟩,
  ⟨"AXS_m_MS_THR0", 0xc0038, [(0x100, 8)], 0xfa00, 0x0, 0x0, 0xffffffff, 0x0, 0x0, 0x0, .none, .axis⟩,
  ⟨"AXS_m_MS_THR1", 0xc003c, [(0x100, 8)], 0x3e800, 0x0, 0x0, 0xffffffff, 0x0, 0x0, 0x0, .none, .axis⟩,
  ⟨"AXS_m_MS_THR2", 0xc0040, [(0x100, 8)], 0xfa000, 0x0, 0x0, 0xffffffff, 0x0, 0x0, 0x0, .none, .axis⟩,
  ⟨"AXS_m_MS_THR3", 0xc0044, [(0x100, 8)], 0x3e8000, 0x0, 0x0, 0xffffffff, 0x0, 0x0, 0x0, .none, .axis⟩,
  ⟨"AXS_m_MS_HYST", 0xc0048, [(0x100, 8)], 0x3e80, 0x0, 0x0, 0xffffffff, 0x0, 0x0, 0x0, .none, .axis⟩,
  ⟨"AXS_m_MS_MAP", 0xc004c, [(0x100, 8)], 0x0, 0x0, 0x0, 0x7fff, 0x0, 0x0, 0x0, .none, .axis⟩,
  ⟨"AXS_m_TIMING", 0xc0050, [(0x100, 8)], 0xa323219, 0x0, 0x0, 0xffffffff, 0x0, 0x0, 0x0, .none, .axis⟩,
  ⟨"AXS_m_LIM_CFG", 0xc0054, [(0x100, 8)], 0x640070, 0x0, 0x0, 0xffff0077, 0x0, 0x0, 0x0, .none, .axis⟩,
  ⟨"AXS_m_LIM_LATCH", 0xc0058, [(0x100, 8)], 0x0, 0x0, 0x0, 0x0, 0x0, 0x0, 0x0, .none, .none⟩,
  ⟨"AXS_m_HOME_LATCH", 0xc005c, [(0x100, 8)], 0x0, 0x0, 0x0, 0x0, 0x0, 0x0, 0x0, .none, .none⟩]

def axsRows1 : List RegRow := [
  ⟨"AXS_m_CHATTER", 0xc0060, [(0x100, 8)], 0x0, 0xffffffff, 0x0, 0x0, 0x0, 0x0, 0x0, .none, .none⟩,
  ⟨"AXS_m_CHAT_THR", 0xc0064, [(0x100, 8)], 0x10, 0xffffffff, 0x0, 0x0, 0x0, 0x0, 0x0, .none, .none⟩,
  ⟨"AXS_m_HOME_CFG", 0xc0068, [(0x100, 8)], 0x0, 0x0, 0x0, 0x7f, 0x0, 0x0, 0x0, .none, .axis⟩,
  ⟨"AXS_m_HOME_FAST", 0xc006c, [(0x100, 8)], 0xc800, 0x0, 0x0, 0xffffffff, 0x0, 0x0, 0x0, .none, .axis⟩,
  ⟨"AXS_m_HOME_SLOW", 0xc0070, [(0x100, 8)], 0xa00, 0x0, 0x0, 0xffffffff, 0x0, 0x0, 0x0, .none, .axis⟩,
  ⟨"AXS_m_HOME_BACKOFF", 0xc0074, [(0x100, 8)], 0x3200, 0x0, 0x0, 0xffffffff, 0x0, 0x0, 0x0, .none, .axis⟩,
  ⟨"AXS_m_HOME_MAXDIST", 0xc0078, [(0x100, 8)], 0x7fffffff, 0x0, 0x0, 0xffffffff, 0x0, 0x0, 0x0, .none, .axis⟩,
  ⟨"AXS_m_HOME_IDXDIST", 0xc007c, [(0x100, 8)], 0xc800, 0x0, 0x0, 0xffffffff, 0x0, 0x0, 0x0, .none, .axis⟩,
  ⟨"AXS_m_HOME_POS", 0xc0080, [(0x100, 8)], 0x0, 0x0, 0x0, 0xffffffff, 0x0, 0x0, 0x0, .none, .axis⟩,
  ⟨"AXS_m_INPUTS", 0xc0084, [(0x100, 8)], 0x0, 0x0, 0x0, 0x0, 0x0, 0x0, 0x0, .none, .none⟩]

/-- The registers of AXS (R327). -/
def axsRows : List RegRow :=
  axsRows0 ++ axsRows1

def ispRows0 : List RegRow := [
  ⟨"ISP_CTRL", 0xd0000, [], 0x0, 0x0, 0x0, 0x1, 0x0, 0x0, 0x0, .none, .isp⟩,
  ⟨"ISP_STATUS", 0xd0004, [], 0x3200000, 0x0, 0x0, 0x0, 0x0, 0x0, 0x0, .none, .none⟩,
  ⟨"ISP_FLAGS", 0xd0008, [], 0x0, 0x0, 0x0, 0x0, 0x3, 0x0, 0x0, .none, .none⟩,
  ⟨"ISP_DPC_COUNT", 0xd000c, [], 0x0, 0x0, 0x0, 0x0, 0x0, 0x0, 0x0, .none, .none⟩,
  ⟨"ISP_DPC_e", 0xd1000, [(0x4, 4096)], 0xffffffff, 0x0, 0x0, 0xffffffff, 0x0, 0x0, 0x0, .none, .isp⟩,
  ⟨"ISP_c_CTRL", 0xd0100, [(0x100, 4)], 0x0, 0x0, 0x0, 0x31, 0x0, 0x0, 0x0, .none, .camPort⟩,
  ⟨"ISP_c_STATUS", 0xd0104, [(0x100, 4)], 0x0, 0x0, 0x0, 0x0, 0x0, 0x0, 0x0, .none, .none⟩,
  ⟨"ISP_c_FLAGS", 0xd0108, [(0x100, 4)], 0x0, 0x0, 0x0, 0x0, 0x7f, 0x0, 0x0, .none, .none⟩,
  ⟨"ISP_c_PORT", 0xd010c, [(0x100, 4)], 0x8, 0x0, 0x0, 0xfff, 0x0, 0x0, 0x0, .none, .camPort⟩,
  ⟨"ISP_c_SIZE", 0xd0110, [(0x100, 4)], 0x10010, 0x0, 0x0, 0xffffffff, 0x0, 0x0, 0x0, .none, .camPort⟩,
  ⟨"ISP_c_RATE", 0xd0114, [(0x100, 4)], 0x0, 0x0, 0x0, 0x3ff, 0x0, 0x0, 0x0, .none, .camPort⟩,
  ⟨"ISP_c_TRIG", 0xd0118, [(0x100, 4)], 0x19, 0x0, 0x0, 0xffffff19, 0x0, 0x0, 0x0, .none, .camPort⟩,
  ⟨"ISP_c_TRIG_NOW", 0xd011c, [(0x100, 4)], 0x0, 0x0, 0x0, 0x0, 0x0, 0x0, 0x0, .none, .none⟩,
  ⟨"ISP_c_TRIG_TMO", 0xd0120, [(0x100, 4)], 0x2710, 0x0, 0x0, 0xffffff, 0x0, 0x0, 0x0, .none, .camPort⟩,
  ⟨"ISP_c_EXPOSURE", 0xd0124, [(0x100, 4)], 0x0, 0x0, 0xffffffff, 0x0, 0x0, 0x0, 0x0, .vsEdge, .none⟩,
  ⟨"ISP_c_GAIN", 0xd0128, [(0x100, 4)], 0x0, 0x0, 0xffff, 0x0, 0x0, 0x0, 0x0, .vsEdge, .none⟩,
  ⟨"ISP_c_EXP_DELAY", 0xd012c, [(0x100, 4)], 0x0, 0x0, 0xffffff, 0x0, 0x0, 0x0, 0x0, .vsEdge, .none⟩,
  ⟨"ISP_c_EXP_REGS", 0xd0130, [(0x100, 4)], 0x0, 0x0, 0x0, 0xffffffff, 0x0, 0x0, 0x0, .none, .camPort⟩,
  ⟨"ISP_c_EXP_HOLD", 0xd0134, [(0x100, 4)], 0x0, 0x0, 0x0, 0xffffffff, 0x0, 0x0, 0x0, .none, .camPort⟩,
  ⟨"ISP_c_EXP_DEV", 0xd0138, [(0x100, 4)], 0x0, 0x0, 0x0, 0xff, 0x0, 0x0, 0x0, .none, .camPort⟩,
  ⟨"ISP_c_EXP_TAG", 0xd013c, [(0x100, 4)], 0x0, 0x0, 0x0, 0x0, 0x0, 0x0, 0x0, .none, .none⟩,
  ⟨"ISP_c_BLACKj", 0xd0140, [(0x100, 4), (0x4, 8)], 0x0, 0x0, 0xffffffff, 0x0, 0x0, 0x0, 0x0, .vsEdge, .none⟩,
  ⟨"ISP_c_MOSAIC0", 0xd0160, [(0x100, 4)], 0x8451208, 0x0, 0x0, 0x3fffffff, 0x0, 0x0, 0x0, .none, .camPort⟩,
  ⟨"ISP_c_MOSAIC1", 0xd0164, [(0x100, 4)], 0x11448, 0x0, 0x0, 0x3ffff, 0x0, 0x0, 0x0, .none, .camPort⟩]

def ispRows1 : List RegRow := [
  ⟨"ISP_c_SHADE_BASE", 0xd0168, [(0x100, 4)], 0x0, 0x0, 0xffffffff, 0x0, 0x0, 0x0, 0x0, .vsEdge, .none⟩,
  ⟨"ISP_c_DPC", 0xd016c, [(0x100, 4)], 0x21000, 0x0, 0x7ffff, 0x0, 0x0, 0x0, 0x0, .vsEdge, .none⟩,
  ⟨"ISP_c_IRSUB0", 0xd0170, [(0x100, 4)], 0x0, 0x0, 0xffffffff, 0x0, 0x0, 0x0, 0x0, .vsEdge, .none⟩,
  ⟨"ISP_c_IRSUB1", 0xd0174, [(0x100, 4)], 0x0, 0x0, 0xffff, 0x0, 0x0, 0x0, 0x0, .vsEdge, .none⟩,
  ⟨"ISP_c_LUMA0", 0xd0178, [(0x100, 4)], 0xb717366d, 0x0, 0xffffffff, 0x0, 0x0, 0x0, 0x0, .vsEdge, .none⟩,
  ⟨"ISP_c_LUMA1", 0xd017c, [(0x100, 4)], 0x127c, 0x0, 0xffff, 0x0, 0x0, 0x0, 0x0, .vsEdge, .none⟩,
  ⟨"ISP_c_OUT", 0xd0180, [(0x100, 4)], 0x2, 0x0, 0x0, 0x30f, 0x0, 0x0, 0x0, .none, .camPort⟩,
  ⟨"ISP_c_OUT_BASE", 0xd0184, [(0x100, 4)], 0x0, 0x0, 0x0, 0xffff, 0x0, 0x0, 0x0, .none, .camPort⟩,
  ⟨"ISP_c_OUT_SLOTS", 0xd0188, [(0x100, 4)], 0x4, 0x0, 0x0, 0xff, 0x0, 0x0, 0x0, .none, .camPort⟩,
  ⟨"ISP_c_FRAMES", 0xd0190, [(0x100, 4)], 0x0, 0x0, 0x0, 0x0, 0x0, 0x0, 0x0, .none, .none⟩,
  ⟨"ISP_c_DROPS", 0xd0194, [(0x100, 4)], 0x0, 0x0, 0x0, 0x0, 0x0, 0x0, 0x0, .none, .none⟩,
  ⟨"ISP_c_TRIG_MISS", 0xd0198, [(0x100, 4)], 0x0, 0x0, 0x0, 0x0, 0x0, 0x0, 0x0, .none, .none⟩,
  ⟨"ISP_c_FRAME_NO", 0xd019c, [(0x100, 4)], 0x0, 0x0, 0x0, 0x0, 0x0, 0x0, 0x0, .none, .none⟩,
  ⟨"ISP_I2Ci_CFG", 0xd0600, [(0x20, 4)], 0x27100002, 0x0, 0x0, 0xffff0003, 0x0, 0x0, 0x0, .none, .i2c⟩,
  ⟨"ISP_I2Ci_XFER", 0xd0604, [(0x20, 4)], 0x0, 0xff7f, 0x0, 0x0, 0x0, 0x0, 0x0, .none, .none⟩,
  ⟨"ISP_I2Ci_REG", 0xd0608, [(0x20, 4)], 0x0, 0xffff, 0x0, 0x0, 0x0, 0x0, 0x0, .none, .none⟩,
  ⟨"ISP_I2Ci_WDATA", 0xd060c, [(0x20, 4)], 0x0, 0xffffffff, 0x0, 0x0, 0x0, 0x0, 0x0, .none, .none⟩,
  ⟨"ISP_I2Ci_CMD", 0xd0610, [(0x20, 4)], 0x0, 0x0, 0x0, 0x0, 0x0, 0x0, 0x0, .none, .none⟩,
  ⟨"ISP_I2Ci_STAT", 0xd0614, [(0x20, 4)], 0x0, 0x0, 0x0, 0x0, 0x0, 0x0, 0x0, .none, .none⟩,
  ⟨"ISP_I2Ci_RDATA", 0xd0618, [(0x20, 4)], 0x0, 0x0, 0x0, 0x0, 0x0, 0x0, 0x0, .none, .none⟩]

/-- The registers of ISP (R358, R359, R361). -/
def ispRows : List RegRow :=
  ispRows0 ++ ispRows1

def tapRows0 : List RegRow := [
  ⟨"TAP_CTRL", 0xe0000, [], 0x0, 0x0, 0x0, 0x7, 0x0, 0x0, 0x0, .none, .tapestry⟩,
  ⟨"TAP_STATUS", 0xe0004, [], 0x2580000, 0x0, 0x0, 0x0, 0x0, 0x0, 0x0, .none, .none⟩,
  ⟨"TAP_FLAGS", 0xe0008, [], 0x0, 0x0, 0x0, 0x0, 0x3f, 0x0, 0x0, .none, .none⟩,
  ⟨"TAP_FRAME", 0xe000c, [], 0x4380780, 0x0, 0x0, 0xffffffff, 0x0, 0x0, 0x0, .none, .tapestry⟩,
  ⟨"TAP_BG", 0xe0010, [], 0x0, 0x0, 0xffffff, 0x0, 0x0, 0x0, 0x0, .tapFrame, .none⟩,
  ⟨"TAP_MEM_BASE", 0xe0014, [], 0x0, 0x0, 0x0, 0xffff, 0x0, 0x0, 0x0, .none, .tapestry⟩,
  ⟨"TAP_MEM_SLOTS", 0xe0018, [], 0x2, 0x0, 0x0, 0xff, 0x0, 0x0, 0x0, .none, .tapestry⟩,
  ⟨"TAP_MEM_CFG", 0xe001c, [], 0x10000, 0x0, 0x0, 0xff0005, 0x0, 0x0, 0x0, .none, .tapestry⟩,
  ⟨"TAP_MEM_PERIOD", 0xe0020, [], 0x1e848, 0x0, 0x0, 0xffffff, 0x0, 0x0, 0x0, .none, .tapestry⟩,
  ⟨"TAP_FRAME_NO", 0xe0024, [], 0x0, 0x0, 0x0, 0x0, 0x0, 0x0, 0x0, .none, .none⟩,
  ⟨"TAP_MEM_SKIP", 0xe0028, [], 0x0, 0x0, 0x0, 0x0, 0x0, 0x0, 0x0, .none, .none⟩,
  ⟨"TAP_MEM_DROPS", 0xe002c, [], 0x0, 0x0, 0x0, 0x0, 0x0, 0x0, 0x0, .none, .none⟩,
  ⟨"TAP_UNDERRUNS", 0xe0030, [], 0x0, 0x0, 0x0, 0x0, 0x0, 0x0, 0x0, .none, .none⟩,
  ⟨"TAP_VID_CTRL", 0xe0040, [], 0x0, 0x0, 0x0, 0x1f, 0x0, 0x0, 0x0, .none, .video⟩,
  ⟨"TAP_VID_PCLK", 0xe0044, [], 0x24414, 0x0, 0x0, 0x3ffff, 0x0, 0x0, 0x0, .none, .video⟩,
  ⟨"TAP_VID_H0", 0xe0048, [], 0x580780, 0x0, 0x0, 0xfff0fff, 0x0, 0x0, 0x0, .none, .video⟩,
  ⟨"TAP_VID_H1", 0xe004c, [], 0x94002c, 0x0, 0x0, 0xfff0fff, 0x0, 0x0, 0x0, .none, .video⟩,
  ⟨"TAP_VID_V0", 0xe0050, [], 0x40438, 0x0, 0x0, 0xfff0fff, 0x0, 0x0, 0x0, .none, .video⟩,
  ⟨"TAP_VID_V1", 0xe0054, [], 0x240005, 0x0, 0x0, 0xfff0fff, 0x0, 0x0, 0x0, .none, .video⟩,
  ⟨"TAP_VID_LINE", 0xe0058, [], 0x0, 0x0, 0x0, 0x0, 0x0, 0x0, 0x0, .none, .none⟩,
  ⟨"TAP_Pi_CTRL", 0xe0100, [(0x40, 8)], 0xff000000, 0x0, 0xffff0fcf, 0x0, 0x0, 0x0, 0x0, .planeCommit, .none⟩,
  ⟨"TAP_Pi_COMMIT", 0xe0104, [(0x40, 8)], 0x0, 0x0, 0x0, 0x0, 0x0, 0x1, 0x0, .none, .none⟩,
  ⟨"TAP_Pi_FLIP", 0xe0108, [(0x40, 8)], 0x0, 0x0, 0x0, 0x0, 0x0, 0x1, 0x0, .none, .none⟩,
  ⟨"TAP_Pi_STATUS", 0xe010c, [(0x40, 8)], 0x0, 0x0, 0x0, 0x0, 0x0, 0x0, 0x0, .none, .none⟩]

def tapRows1 : List RegRow := [
  ⟨"TAP_Pi_POS", 0xe0110, [(0x40, 8)], 0x0, 0x0, 0xffffffff, 0x0, 0x0, 0x0, 0x0, .planeCommit, .none⟩,
  ⟨"TAP_Pi_SIZE", 0xe0114, [(0x40, 8)], 0x0, 0x0, 0xffffffff, 0x0, 0x0, 0x0, 0x0, .planeCommit, .none⟩,
  ⟨"TAP_Pi_SRC_XY", 0xe0118, [(0x40, 8)], 0x0, 0x0, 0xffffffff, 0x0, 0x0, 0x0, 0x0, .planeCommit, .none⟩,
  ⟨"TAP_Pi_STEP", 0xe011c, [(0x40, 8)], 0x1000100, 0x0, 0xffffffff, 0x0, 0x0, 0x0, 0x0, .planeCommit, .none⟩,
  ⟨"TAP_Pi_BASE0", 0xe0120, [(0x40, 8)], 0x0, 0x0, 0xffffffff, 0x0, 0x0, 0x0, 0x0, .planeCommit, .none⟩,
  ⟨"TAP_Pi_BASE1", 0xe0124, [(0x40, 8)], 0x0, 0x0, 0xffffffff, 0x0, 0x0, 0x0, 0x0, .planeCommit, .none⟩,
  ⟨"TAP_Pi_PITCH", 0xe0128, [(0x40, 8)], 0x0, 0x0, 0xffff, 0x0, 0x0, 0x0, 0x0, .planeCommit, .none⟩,
  ⟨"TAP_Pi_CLUT", 0xe012c, [(0x40, 8)], 0x0, 0x0, 0xffffffff, 0x0, 0x0, 0x0, 0x0, .planeCommit, .none⟩,
  ⟨"TAP_Pi_TMAP", 0xe0130, [(0x40, 8)], 0x1c200003, 0x0, 0xffff000f, 0x0, 0x0, 0x0, 0x0, .planeCommit, .none⟩,
  ⟨"TAP_Pi_STALE_MAX", 0xe0134, [(0x40, 8)], 0x0, 0x0, 0xffff, 0x0, 0x0, 0x0, 0x0, .planeCommit, .none⟩,
  ⟨"TAP_Pi_STALE_CNT", 0xe0138, [(0x40, 8)], 0x0, 0x0, 0x0, 0x0, 0x0, 0x0, 0x0, .none, .none⟩,
  ⟨"TAP_Pi_STALES", 0xe013c, [(0x40, 8)], 0x0, 0x0, 0x0, 0x0, 0x0, 0x0, 0x0, .none, .none⟩,
  ⟨"TAP_CUR_CTRL", 0xe0400, [], 0xffff0000, 0x0, 0xffff0003, 0x0, 0x0, 0x0, 0x0, .planeCommit, .none⟩,
  ⟨"TAP_CUR_COMMIT", 0xe0404, [], 0x0, 0x0, 0x0, 0x0, 0x0, 0x1, 0x0, .none, .none⟩,
  ⟨"TAP_CUR_X0", 0xe0408, [], 0x0, 0x0, 0xffffffff, 0x0, 0x0, 0x0, 0x0, .planeCommit, .none⟩,
  ⟨"TAP_CUR_Y0", 0xe040c, [], 0x0, 0x0, 0xffffffff, 0x0, 0x0, 0x0, 0x0, .planeCommit, .none⟩,
  ⟨"TAP_CUR_SCALE", 0xe0410, [], 0x4c4b4, 0x0, 0xffffffff, 0x0, 0x0, 0x0, 0x0, .planeCommit, .none⟩,
  ⟨"TAP_CUR_IMG", 0xe0414, [], 0x0, 0x0, 0xffffffff, 0x0, 0x0, 0x0, 0x0, .planeCommit, .none⟩,
  ⟨"TAP_CUR_COL_ON", 0xe0418, [], 0xffff0000, 0x0, 0xffffffff, 0x0, 0x0, 0x0, 0x0, .planeCommit, .none⟩,
  ⟨"TAP_CUR_COL_OFF", 0xe041c, [], 0xff808080, 0x0, 0xffffffff, 0x0, 0x0, 0x0, 0x0, .planeCommit, .none⟩,
  ⟨"TAP_CUR_COL_HELD", 0xe0420, [], 0xffffff00, 0x0, 0xffffffff, 0x0, 0x0, 0x0, 0x0, .planeCommit, .none⟩,
  ⟨"TAP_CUR_COL_SUSPECT", 0xe0424, [], 0xffff00ff, 0x0, 0xffffffff, 0x0, 0x0, 0x0, 0x0, .planeCommit, .none⟩,
  ⟨"TAP_CUR_COL2", 0xe0428, [], 0xff000000, 0x0, 0xffffffff, 0x0, 0x0, 0x0, 0x0, .planeCommit, .none⟩,
  ⟨"TAP_CUR_COL3", 0xe042c, [], 0xffffffff, 0x0, 0xffffffff, 0x0, 0x0, 0x0, 0x0, .planeCommit, .none⟩]

/-- The registers of TAP (R378, R379, R381). -/
def tapRows : List RegRow :=
  tapRows0 ++ tapRows1

def lmpRows0 : List RegRow := [
  ⟨"LMP_CTRL", 0xf0000, [], 0x0, 0x0, 0x0, 0xf, 0x0, 0x0, 0x0, .none, .lamp⟩,
  ⟨"LMP_STATUS", 0xf0004, [], 0x0, 0x0, 0x0, 0x0, 0x0, 0x0, 0x0, .none, .none⟩,
  ⟨"LMP_FLAGS", 0xf0008, [], 0x0, 0x0, 0x0, 0x0, 0xff, 0x0, 0x0, .none, .none⟩,
  ⟨"LMP_CHAIN_CFG", 0xf000c, [], 0x5640001, 0x0, 0x0, 0xffff003f, 0x0, 0x0, 0x0, .none, .lampChain⟩,
  ⟨"LMP_CHAIN_COMMIT", 0xf0010, [], 0x0, 0x0, 0x0, 0x0, 0x0, 0x1, 0x0, .none, .none⟩,
  ⟨"LMP_FLASH_CFG", 0xf0014, [], 0x64000f, 0x0, 0xffff000f, 0x0, 0x0, 0x0, 0x0, .lamp, .none⟩,
  ⟨"LMP_MTX_CFG", 0xf0018, [], 0x30, 0x0, 0x0, 0xffff, 0x0, 0x0, 0x0, .none, .lampMatrix⟩,
  ⟨"LMP_DERATE0", 0xf001c, [], 0x51f1180, 0x0, 0xffffffff, 0x0, 0x0, 0x0, 0x0, .lamp, .none⟩,
  ⟨"LMP_DERATE1", 0xf0020, [], 0x40, 0x0, 0xff, 0x0, 0x0, 0x0, 0x0, .lamp, .none⟩,
  ⟨"LMP_COL_DEV", 0xf0024, [], 0x0, 0x0, 0x0, 0xffffffff, 0x0, 0x0, 0x0, .none, .lampColour⟩,
  ⟨"LMP_COL_TIME", 0xf0028, [], 0x642710, 0x0, 0x0, 0xffffffff, 0x0, 0x0, 0x0, .none, .lampColour⟩,
  ⟨"LMP_COL_KI", 0xf002c, [], 0x40000100, 0x0, 0xffffffff, 0x0, 0x0, 0x0, 0x0, .lamp, .none⟩,
  ⟨"LMP_COL_TGTg", 0xf0030, [(0x4, 3)], 0x0, 0x0, 0xffff, 0x0, 0x0, 0x0, 0x0, .lamp, .none⟩,
  ⟨"LMP_COL_MEASg", 0xf0040, [(0x4, 3)], 0x0, 0x0, 0x0, 0x0, 0x0, 0x0, 0x0, .none, .none⟩,
  ⟨"LMP_COL_GAINg", 0xf0050, [(0x4, 3)], 0xffff, 0x0, 0x0, 0x0, 0x0, 0x0, 0x0, .none, .none⟩,
  ⟨"LMP_COL_DISCARD", 0xf005c, [], 0x0, 0x0, 0x0, 0x0, 0x0, 0x0, 0x0, .none, .none⟩,
  ⟨"LMP_TEMP_DEV", 0xf0060, [], 0x0, 0x0, 0x0, 0xff7f, 0x0, 0x0, 0x0, .none, .lampMatrix⟩,
  ⟨"LMP_MTX_TEMP", 0xf0064, [], 0x0, 0x0, 0x0, 0x0, 0x0, 0x0, 0x0, .none, .none⟩,
  ⟨"LMP_MTX_GROUP", 0xf0070, [], 0x0, 0x0, 0xffffffff, 0x0, 0x0, 0x0, 0x0, .lamp, .none⟩,
  ⟨"LMP_PAT_p_LD", 0xf0080, [(0x8, 16)], 0xffffffff, 0x0, 0xffffffff, 0x0, 0x0, 0x0, 0x0, .lamp, .none⟩,
  ⟨"LMP_PAT_p_MTX", 0xf0084, [(0x8, 16)], 0x8, 0x0, 0xf, 0x0, 0x0, 0x0, 0x0, .lamp, .none⟩,
  ⟨"LMP_LDk_STEADY", 0xf0100, [(0x10, 32)], 0x0, 0x0, 0xffff, 0x0, 0x0, 0x0, 0x0, .lamp, .none⟩,
  ⟨"LMP_LDk_FLASH", 0xf0104, [(0x10, 32)], 0x0, 0x0, 0xffff, 0x0, 0x0, 0x0, 0x0, .lamp, .none⟩,
  ⟨"LMP_LDk_CFG", 0xf0108, [(0x10, 32)], 0x3, 0x0, 0x3, 0x0, 0x0, 0x0, 0x0, .lamp, .none⟩]

def lmpRows1 : List RegRow := [
  ⟨"LMP_LDk_STATUS", 0xf010c, [(0x10, 32)], 0x30000, 0x0, 0x0, 0x0, 0x0, 0x0, 0x0, .none, .none⟩,
  ⟨"LMP_MTX_r_DUTYj", 0xf0400, [(0x10, 8), (0x4, 4)], 0x0, 0x0, 0xffffffff, 0x0, 0x0, 0x0, 0x0, .lamp, .none⟩,
  ⟨"LMP_MTX_DIAGr", 0xf0500, [(0x4, 8)], 0xffffffff, 0x0, 0x0, 0x0, 0x0, 0x0, 0x0, .none, .none⟩]

/-- The registers of LMP (R398). -/
def lmpRows : List RegRow :=
  lmpRows0 ++ lmpRows1

def trmRows0 : List RegRow := [
  ⟨"TRM_CTRL", 0x100000, [], 0x0, 0x7, 0x0, 0x0, 0x0, 0x0, 0x0, .none, .none⟩,
  ⟨"TRM_STATUS", 0x100004, [], 0x0, 0x0, 0x0, 0x0, 0x0, 0x0, 0x0, .none, .none⟩,
  ⟨"TRM_FLAGS", 0x100008, [], 0x0, 0x0, 0x0, 0x0, 0x3f, 0x0, 0x0, .none, .none⟩,
  ⟨"TRM_CMD", 0x10000c, [], 0x0, 0x0, 0x0, 0x0, 0x0, 0x0, 0x0, .none, .none⟩,
  ⟨"TRM_REG_CFG", 0x100010, [], 0x100300, 0x0, 0xffff0f13, 0x0, 0x0, 0x0, 0x0, .layer, .none⟩,
  ⟨"TRM_REG_THR", 0x100014, [], 0x8000, 0x0, 0xffff, 0x0, 0x0, 0x0, 0x0, .layer, .none⟩,
  ⟨"TRM_REG_MASK", 0x100018, [], 0x0, 0xffff, 0x0, 0x0, 0x0, 0x0, 0x0, .none, .none⟩,
  ⟨"TRM_REG_ANCHOR", 0x10001c, [], 0x0, 0x0, 0xf, 0x0, 0x0, 0x0, 0x0, .layer, .none⟩,
  ⟨"TRM_REG_LIM", 0x100020, [], 0x1f40148, 0x0, 0xffffffff, 0x0, 0x0, 0x0, 0x0, .layer, .none⟩,
  ⟨"TRM_CAM_Mi", 0x100024, [(0x4, 4)], 0x0, 0x0, 0xffffffff, 0x0, 0x0, 0x0, 0x0, .layer, .none⟩,
  ⟨"TRM_CAM_U0", 0x100034, [], 0x0, 0x0, 0xffffffff, 0x0, 0x0, 0x0, 0x0, .layer, .none⟩,
  ⟨"TRM_CAM_V0", 0x100038, [], 0x0, 0x0, 0xffffffff, 0x0, 0x0, 0x0, 0x0, .layer, .none⟩,
  ⟨"TRM_REG_RESULT", 0x100040, [], 0x0, 0x0, 0x0, 0x0, 0x0, 0x0, 0x0, .none, .none⟩,
  ⟨"TRM_REG_LAYER", 0x100044, [], 0x0, 0x0, 0x0, 0x0, 0x0, 0x0, 0x0, .none, .none⟩,
  ⟨"TRM_REG_SEAM_RMS", 0x100048, [], 0x0, 0x0, 0x0, 0x0, 0x0, 0x0, 0x0, .none, .none⟩,
  ⟨"TRM_n_CMD", 0x101000, [(0x100, 16)], 0x0, 0x0, 0x0, 0x0, 0x0, 0x0, 0x0, .none, .none⟩,
  ⟨"TRM_n_STATUS", 0x101004, [(0x100, 16)], 0x0, 0x0, 0x0, 0x0, 0x0, 0x0, 0x0, .none, .none⟩,
  ⟨"TRM_n_DARK_CFG", 0x101008, [(0x100, 16)], 0x400c00, 0x0, 0xffff0f00, 0x0, 0x0, 0x0, 0x0, .period, .none⟩,
  ⟨"TRM_n_GAIN_CFG", 0x10100c, [(0x100, 16)], 0xa0e00, 0x0, 0xff0f0f00, 0x0, 0x0, 0x0, 0x0, .period, .none⟩,
  ⟨"TRM_n_G_LO", 0x101010, [(0x100, 16)], 0xc0000, 0x0, 0xffffff, 0x0, 0x0, 0x0, 0x0, .period, .none⟩,
  ⟨"TRM_n_R_REF", 0x101014, [(0x100, 16)], 0x100000, 0x0, 0xffffff, 0x0, 0x0, 0x0, 0x0, .period, .none⟩,
  ⟨"TRM_n_G_LIM", 0x101018, [(0x100, 16)], 0x4000, 0x0, 0xffff, 0x0, 0x0, 0x0, 0x0, .period, .none⟩,
  ⟨"TRM_n_SLEW", 0x10101c, [(0x100, 16)], 0x1f4, 0x0, 0xffff, 0x0, 0x0, 0x0, 0x0, .period, .none⟩,
  ⟨"TRM_n_TIMEOUT", 0x101020, [(0x100, 16)], 0x3e8, 0x0, 0xffff, 0x0, 0x0, 0x0, 0x0, .period, .none⟩]

def trmRows1 : List RegRow := [
  ⟨"TRM_n_DARK_NEW", 0x101024, [(0x100, 16)], 0x0, 0xffffffff, 0x0, 0x0, 0x0, 0x0, 0x0, .none, .none⟩,
  ⟨"TRM_n_GAIN_NEW", 0x101028, [(0x100, 16)], 0x10000, 0xffffffff, 0x0, 0x0, 0x0, 0x0, 0x0, .none, .none⟩,
  ⟨"TRM_n_SPREAD", 0x10102c, [(0x100, 16)], 0x0, 0x0, 0x0, 0x0, 0x0, 0x0, 0x0, .none, .none⟩,
  ⟨"TRM_n_G_QMED", 0x101030, [(0x100, 16)], 0x0, 0x0, 0x0, 0x0, 0x0, 0x0, 0x0, .none, .none⟩,
  ⟨"TRM_n_G_OUT", 0x101034, [(0x100, 16)], 0x0, 0x0, 0x0, 0x0, 0x0, 0x0, 0x0, .none, .none⟩,
  ⟨"TRM_n_SAMPLES", 0x101038, [(0x100, 16)], 0x0, 0x0, 0x0, 0x0, 0x0, 0x0, 0x0, .none, .none⟩,
  ⟨"TRM_n_K_A0", 0x101040, [(0x100, 16)], 0x40000000, 0xffffffff, 0x0, 0x0, 0x0, 0x0, 0x0, .none, .none⟩,
  ⟨"TRM_n_K_A1", 0x101044, [(0x100, 16)], 0x0, 0xffffffff, 0x0, 0x0, 0x0, 0x0, 0x0, .none, .none⟩,
  ⟨"TRM_n_K_A2", 0x101048, [(0x100, 16)], 0x0, 0xffffffff, 0x0, 0x0, 0x0, 0x0, 0x0, .none, .none⟩,
  ⟨"TRM_n_K_A3", 0x10104c, [(0x100, 16)], 0x40000000, 0xffffffff, 0x0, 0x0, 0x0, 0x0, 0x0, .none, .none⟩,
  ⟨"TRM_n_K_TX", 0x101050, [(0x100, 16)], 0x0, 0xffffffff, 0x0, 0x0, 0x0, 0x0, 0x0, .none, .none⟩,
  ⟨"TRM_n_K_TY", 0x101054, [(0x100, 16)], 0x0, 0xffffffff, 0x0, 0x0, 0x0, 0x0, 0x0, .none, .none⟩,
  ⟨"TRM_n_SEAM_TX", 0x101058, [(0x100, 16)], 0x0, 0x0, 0x0, 0x0, 0x0, 0x0, 0x0, .none, .none⟩,
  ⟨"TRM_n_SEAM_TY", 0x10105c, [(0x100, 16)], 0x0, 0x0, 0x0, 0x0, 0x0, 0x0, 0x0, .none, .none⟩,
  ⟨"TRM_n_GRID_BASE", 0x101060, [(0x100, 16)], 0x0, 0x0, 0x0, 0xffffffff, 0x0, 0x0, 0x0, .none, .trimBase⟩,
  ⟨"TRM_n_MARKS", 0x101064, [(0x100, 16)], 0x0, 0x0, 0x0, 0x0, 0x0, 0x0, 0x0, .none, .none⟩,
  ⟨"TRM_n_RES_RMS", 0x101068, [(0x100, 16)], 0x0, 0x0, 0x0, 0x0, 0x0, 0x0, 0x0, .none, .none⟩]

/-- The registers of TRM (R548, R549). -/
def trmRows : List RegRow :=
  trmRows0 ++ trmRows1

def thmRows0 : List RegRow := [
  ⟨"THM_STATUS", 0x110000, [], 0x0, 0x0, 0x0, 0x0, 0x0, 0x0, 0x0, .none, .none⟩,
  ⟨"THM_FLAGS", 0x110004, [], 0x0, 0x0, 0x0, 0x0, 0x3e, 0x0, 0x0, .none, .none⟩,
  ⟨"THM_WARN", 0x110008, [], 0x17c0, 0xffff, 0x0, 0x0, 0x0, 0x0, 0x0, .none, .none⟩,
  ⟨"THM_THROTTLE", 0x11000c, [], 0x1900, 0xffff, 0x0, 0x0, 0x0, 0x0, 0x0, .none, .none⟩,
  ⟨"THM_SHUTDOWN", 0x110010, [], 0x1b80, 0x0, 0x0, 0x0, 0x0, 0x0, 0x0, .none, .none⟩,
  ⟨"THM_NVM_WIN", 0x110014, [], 0x1540fb00, 0xffffffff, 0x0, 0x0, 0x0, 0x0, 0x0, .none, .none⟩,
  ⟨"THM_XSPI_TS", 0x110018, [], 0x17, 0x1f, 0x0, 0x0, 0x0, 0x0, 0x0, .none, .none⟩,
  ⟨"THM_THR_ACT", 0x11001c, [], 0xf, 0xf, 0x0, 0x0, 0x0, 0x0, 0x0, .none, .none⟩,
  ⟨"THM_THR_CAP", 0x110020, [], 0x190, 0x3ff, 0x0, 0x0, 0x0, 0x0, 0x0, .none, .none⟩,
  ⟨"THM_TMAX", 0x110024, [], 0x0, 0x0, 0x0, 0x0, 0x0, 0x0, 0x0, .none, .none⟩,
  ⟨"THM_MAX_SEEN", 0x110028, [], 0x8000, 0x0, 0x0, 0x0, 0x0, 0x0, 0xffff, .none, .none⟩,
  ⟨"THM_FAILED", 0x11002c, [], 0x0, 0x0, 0x0, 0x0, 0xffffff, 0x0, 0x0, .none, .none⟩,
  ⟨"THM_THR_MS", 0x110030, [], 0x0, 0x0, 0x0, 0x0, 0x0, 0x0, 0x0, .none, .none⟩,
  ⟨"THM_LAST_SHUT", 0x110034, [], 0x0, 0x0, 0x0, 0x0, 0x0, 0x0, 0x0, .none, .none⟩,
  ⟨"THM_TSk", 0x110100, [(0x4, 24)], 0x0, 0x0, 0x0, 0x0, 0x0, 0x0, 0x0, .none, .none⟩]

/-- The registers of THM (R564). -/
def thmRows : List RegRow :=
  thmRows0

def walRows0 : List RegRow := [
  ⟨"WAL_CTRL", 0x120000, [], 0x1, 0x3, 0x0, 0x0, 0x0, 0x0, 0x0, .none, .none⟩,
  ⟨"WAL_STATUS", 0x120004, [], 0x0, 0x0, 0x0, 0x0, 0x0, 0x0, 0x0, .none, .none⟩,
  ⟨"WAL_FLAGS", 0x120008, [], 0x0, 0x0, 0x0, 0x0, 0xf, 0x0, 0x0, .none, .none⟩,
  ⟨"WAL_OP_INT", 0x12000c, [], 0x3c, 0xffff, 0x0, 0x0, 0x0, 0x0, 0x0, .none, .none⟩,
  ⟨"WAL_RESERVE", 0x120010, [], 0xf000, 0x1ffff, 0x0, 0x0, 0x0, 0x0, 0x0, .none, .none⟩,
  ⟨"WAL_FIRST_SEQ", 0x120014, [], 0x0, 0x0, 0x0, 0x0, 0x0, 0x0, 0x0, .none, .none⟩,
  ⟨"WAL_LAST_SEQ", 0x120018, [], 0x0, 0x0, 0x0, 0x0, 0x0, 0x0, 0x0, .none, .none⟩,
  ⟨"WAL_POWER_CYCLES", 0x12001c, [], 0x0, 0x0, 0x0, 0x0, 0x0, 0x0, 0x0, .none, .none⟩,
  ⟨"WAL_OP_TIME", 0x120020, [], 0x0, 0x0, 0x0, 0x0, 0x0, 0x0, 0x0, .none, .none⟩,
  ⟨"WAL_SECTORS", 0x120024, [], 0x0, 0x0, 0x0, 0x0, 0x0, 0x0, 0x0, .none, .none⟩,
  ⟨"WAL_STAGED", 0x120028, [], 0x0, 0x0, 0x0, 0x0, 0x0, 0x0, 0x0, .none, .none⟩,
  ⟨"WAL_DROPS", 0x12002c, [], 0x0, 0x0, 0x0, 0x0, 0x0, 0x0, 0x0, .none, .none⟩,
  ⟨"WAL_TORN", 0x120030, [], 0x0, 0x0, 0x0, 0x0, 0x0, 0x0, 0x0, .none, .none⟩,
  ⟨"WAL_RD_SEQ", 0x120034, [], 0x0, 0xffffffff, 0x0, 0x0, 0x0, 0x0, 0x0, .none, .none⟩,
  ⟨"WAL_RD_CMD", 0x120038, [], 0x0, 0x0, 0x0, 0x0, 0x0, 0x0, 0x0, .none, .none⟩,
  ⟨"WAL_RD_STAT", 0x12003c, [], 0x0, 0x0, 0x0, 0x0, 0x0, 0x0, 0x0, .none, .none⟩,
  ⟨"WAL_RD_LOADED", 0x120040, [], 0x0, 0x0, 0x0, 0x0, 0x0, 0x0, 0x0, .none, .none⟩,
  ⟨"WAL_RD_BUFi", 0x121000, [(0x4, 512)], 0x0, 0x0, 0x0, 0x0, 0x0, 0x0, 0x0, .none, .none⟩]

/-- The registers of WAL (R605). -/
def walRows : List RegRow :=
  walRows0

def dofRows0 : List RegRow := [
  ⟨"DOF_CTRL", 0x130000, [], 0x1, 0xf, 0x0, 0x0, 0x0, 0x0, 0x0, .none, .none⟩,
  ⟨"DOF_TRIG_CODE", 0x130004, [], 0x0, 0xff, 0x0, 0x0, 0x0, 0x0, 0x0, .none, .none⟩,
  ⟨"DOF_CMD", 0x130008, [], 0x0, 0x0, 0x0, 0x0, 0x0, 0x0, 0x0, .none, .none⟩,
  ⟨"DOF_STATUS", 0x13000c, [], 0x0, 0x0, 0x0, 0x0, 0x0, 0x0, 0x0, .none, .none⟩,
  ⟨"DOF_SNAP_SEC", 0x130010, [], 0x0, 0x0, 0x0, 0x0, 0x0, 0x0, 0x0, .none, .none⟩,
  ⟨"DOF_SNAP_NS", 0x130014, [], 0x0, 0x0, 0x0, 0x0, 0x0, 0x0, 0x0, .none, .none⟩,
  ⟨"DOF_SNAP_FAULT", 0x130018, [], 0x0, 0x0, 0x0, 0x0, 0x0, 0x0, 0x0, .none, .none⟩,
  ⟨"DOF_SNAP_TRD", 0x13001c, [], 0x0, 0x0, 0x0, 0x0, 0x0, 0x0, 0x0, .none, .none⟩,
  ⟨"DOF_UE", 0x130020, [], 0x0, 0x0, 0x0, 0x0, 0x0, 0x0, 0x0, .none, .none⟩]

/-- The registers of DOF (R627). -/
def dofRows : List RegRow :=
  dofRows0

def trdRows0 : List RegRow := [
  ⟨"TRD_CTRL", 0x140000, [], 0x0, 0x0, 0x0, 0x1, 0x0, 0x0, 0x0, .none, .treadle⟩,
  ⟨"TRD_STATE", 0x140004, [], 0x0, 0x0, 0x0, 0x0, 0x0, 0x0, 0x0, .none, .none⟩,
  ⟨"TRD_JOB", 0x140008, [], 0x0, 0x0, 0x0, 0x0, 0x0, 0x0, 0x0, .none, .none⟩,
  ⟨"TRD_LAYER", 0x14000c, [], 0x0, 0x0, 0x0, 0x0, 0x0, 0x0, 0x0, .none, .none⟩,
  ⟨"TRD_POLICY", 0x140010, [], 0x0, 0x0, 0x1, 0x0, 0x0, 0x0, 0x0, .layerTrd, .none⟩,
  ⟨"TRD_ARM_LEAD", 0x140014, [], 0x4e20, 0x0, 0xffffffff, 0x0, 0x0, 0x0, 0x0, .layerTrd, .none⟩,
  ⟨"TRD_SLOT_BASE", 0x140018, [], 0x0, 0x0, 0x0, 0xffff, 0x0, 0x0, 0x0, .none, .treadle⟩,
  ⟨"TRD_SLOT_SIZE", 0x14001c, [], 0x100, 0x0, 0x0, 0xfff, 0x0, 0x0, 0x0, .none, .treadle⟩,
  ⟨"TRD_SLOT0_STATUS", 0x140020, [], 0x0, 0x0, 0x0, 0x0, 0x0, 0x0, 0x0, .none, .none⟩,
  ⟨"TRD_SLOT1_STATUS", 0x140024, [], 0x0, 0x0, 0x0, 0x0, 0x0, 0x0, 0x0, .none, .none⟩,
  ⟨"TRD_SLOT2_STATUS", 0x140028, [], 0x0, 0x0, 0x0, 0x0, 0x0, 0x0, 0x0, .none, .none⟩,
  ⟨"TRD_START_NS", 0x140030, [], 0x0, 0x0, 0x0, 0x0, 0x0, 0x0, 0x0, .none, .none⟩,
  ⟨"TRD_START_SEC_LO", 0x140034, [], 0x0, 0x0, 0x0, 0x0, 0x0, 0x0, 0x0, .none, .none⟩,
  ⟨"TRD_START_SEC_HI", 0x140038, [], 0x0, 0x0, 0x0, 0x0, 0x0, 0x0, 0x0, .none, .none⟩,
  ⟨"TRD_TICK_LO", 0x14003c, [], 0x0, 0x0, 0x0, 0x0, 0x0, 0x0, 0x0, .none, .none⟩,
  ⟨"TRD_TICK_HI", 0x140040, [], 0x0, 0x0, 0x0, 0x0, 0x0, 0x0, 0x0, .none, .none⟩,
  ⟨"TRD_PAUSE_TICK_LO", 0x140044, [], 0x0, 0x0, 0x0, 0x0, 0x0, 0x0, 0x0, .none, .none⟩,
  ⟨"TRD_PAUSE_TICK_HI", 0x140048, [], 0x0, 0x0, 0x0, 0x0, 0x0, 0x0, 0x0, .none, .none⟩,
  ⟨"TRD_ORPHANS", 0x14004c, [], 0x0, 0x0, 0x0, 0x0, 0x0, 0x0, 0x0, .none, .none⟩,
  ⟨"TRD_PLAT_SCALE", 0x140050, [], 0x0, 0x0, 0xffffffff, 0x0, 0x0, 0x0, 0x0, .layerTrd, .none⟩,
  ⟨"TRD_PLAT_RESID", 0x140054, [], 0x0, 0x0, 0x0, 0x0, 0x0, 0x0, 0x0, .none, .none⟩,
  ⟨"TRD_PLAT_LIFT", 0x140058, [], 0x0, 0x0, 0xffffffff, 0x0, 0x0, 0x0, 0x0, .layerTrd, .none⟩,
  ⟨"TRD_BAD_MSG", 0x14005c, [], 0x0, 0x0, 0x0, 0x0, 0x0, 0x0, 0xffffffff, .none, .none⟩,
  ⟨"TRD_STATUS", 0x140060, [], 0x0, 0x0, 0x0, 0x0, 0x7f, 0x0, 0x0, .none, .none⟩]

def trdRows1 : List RegRow := [
  ⟨"TRD_CMD_ARG0", 0x140064, [], 0x0, 0xffffffff, 0x0, 0x0, 0x0, 0x0, 0x0, .none, .none⟩,
  ⟨"TRD_CMD_ARG1", 0x140068, [], 0x0, 0xffffffff, 0x0, 0x0, 0x0, 0x0, 0x0, .none, .none⟩,
  ⟨"TRD_CMD_ARG2", 0x14006c, [], 0x0, 0xffffffff, 0x0, 0x0, 0x0, 0x0, 0x0, .none, .none⟩,
  ⟨"TRD_CMD", 0x140070, [], 0x0, 0x0, 0x0, 0x0, 0x0, 0x0, 0x0, .none, .none⟩,
  ⟨"TRD_RCP_p_AXES", 0x140100, [(0x20, 8)], 0x0, 0x0, 0x3f8f77, 0x0, 0x0, 0x0, 0x0, .layerTrd, .none⟩,
  ⟨"TRD_RCP_p_TRAVERSE", 0x140104, [(0x20, 8)], 0x0, 0x0, 0xffffffff, 0x0, 0x0, 0x0, 0x0, .layerTrd, .none⟩,
  ⟨"TRD_RCP_p_SPEED", 0x140108, [(0x20, 8)], 0x0, 0x0, 0xffffffff, 0x0, 0x0, 0x0, 0x0, .layerTrd, .none⟩,
  ⟨"TRD_RCP_p_DOSE", 0x14010c, [(0x20, 8)], 0x0, 0x0, 0xffffffff, 0x0, 0x0, 0x0, 0x0, .layerTrd, .none⟩,
  ⟨"TRD_RCP_p_IMG_SPACING", 0x140110, [(0x20, 8)], 0x0, 0x0, 0xffffffff, 0x0, 0x0, 0x0, 0x0, .layerTrd, .none⟩,
  ⟨"TRD_RCP_p_IMG", 0x140114, [(0x20, 8)], 0x0, 0x0, 0xffff, 0x0, 0x0, 0x0, 0x0, .layerTrd, .none⟩]

/-- The registers of TRD (R87). -/
def trdRows : List RegRow :=
  trdRows0 ++ trdRows1

def secRows0 : List RegRow := [
  ⟨"SEC_STATUS", 0x150000, [], 0x1, 0x0, 0x0, 0x0, 0x0, 0x0, 0x0, .none, .none⟩,
  ⟨"SEC_FLAGS", 0x150004, [], 0x0, 0x0, 0x0, 0x0, 0x7, 0x0, 0x0, .none, .none⟩,
  ⟨"SEC_WIPE_CAUSE", 0x150008, [], 0x0, 0x0, 0x0, 0x0, 0x0, 0x0, 0x7f, .none, .none⟩,
  ⟨"SEC_WIPES", 0x15000c, [], 0x0, 0x0, 0x0, 0x0, 0x0, 0x0, 0x0, .none, .none⟩,
  ⟨"SEC_KEY_CMD", 0x150010, [], 0x0, 0x0, 0x0, 0x0, 0x0, 0x0, 0x0, .none, .none⟩,
  ⟨"SEC_KEY_STAT", 0x150014, [], 0x0, 0x0, 0x0, 0x0, 0x0, 0x0, 0x0, .none, .none⟩,
  ⟨"SEC_KEY_WRAPi", 0x150020, [(0x4, 10)], 0x0, 0x0, 0x0, 0x0, 0x0, 0x0, 0x0, .none, .none⟩,
  ⟨"SEC_NONCE_SEL", 0x150048, [], 0x0, 0xf, 0x0, 0x0, 0x0, 0x0, 0x0, .none, .none⟩,
  ⟨"SEC_NONCEj", 0x15004c, [(0x4, 3)], 0x0, 0x0, 0x0, 0x0, 0x0, 0x0, 0x0, .none, .none⟩]

/-- The registers of SEC (R427). -/
def secRows : List RegRow :=
  secRows0

/-- The rows of the block whose 64 KiB hold byte address `a` (R42); none outside the blocks. -/
def blockRows (a : Nat) : List RegRow :=
  match a / 0x10000 with
  | 0 => devRows
  | 1 => clkRows
  | 2 => evtRows
  | 3 => crlRows
  | 4 => drcRows
  | 5 => lnkRows
  | 6 => netRows
  | 7 => shdRows
  | 8 => shtRows
  | 9 => fbkRows
  | 10 => reedRows
  | 11 => mplRows
  | 12 => axsRows
  | 13 => ispRows
  | 14 => tapRows
  | 15 => lmpRows
  | 16 => trmRows
  | 17 => thmRows
  | 18 => walRows
  | 19 => dofRows
  | 20 => trdRows
  | 21 => secRows
  | _ => []

/-- Whether offset `off` from a row's first address is one of its instances: the index along every stride is in range
and nothing is left over. -/
def inDims : List (Nat × Nat) → Nat → Bool
  | [], off => off == 0
  | (stride, count) :: rest, off => off / stride < count && inDims rest (off % stride)

/-- The instance indices that offset `off` stands for, outermost first. -/
def dimIndex : List (Nat × Nat) → Nat → List Nat
  | [], _ => []
  | (stride, _) :: rest, off => off / stride :: dimIndex rest (off % stride)

/-- Whether the row holds the register at byte address `a`. -/
def RegRow.covers (r : RegRow) (a : Nat) : Bool := r.first ≤ a && inDims r.dims (a - r.first)

/-- The instance indices of address `a` in the row. -/
def RegRow.index (r : RegRow) (a : Nat) : List Nat := dimIndex r.dims (a - r.first)

/-- The row of the register at byte address `a`; none where the address is undefined (R11). -/
def rowAt (a : Nat) : Option RegRow := (blockRows a).find? (·.covers a)

end Sys2Proof.Machine
end

