-- ==== Sys2Proof/Machine/Sparse.lean ====
section
/-!
DEFINITION. Sparse stores in one canonical form: a list of key and value pairs, keys strictly rising, no entry equal to
what an unlisted key reads as. The register file and every byte memory are kept this way.
-/
namespace Sys2Proof.Machine

/-- The value at key `k`; `d` where no entry lists it. -/
def sget {α : Type} (d : α) : List (Nat × α) → Nat → α
  | [], _ => d
  | (j, w) :: t, k => if j = k then w else sget d t k

/-- The list without the entries of key `k`. -/
def serase {α : Type} : List (Nat × α) → Nat → List (Nat × α)
  | [], _ => []
  | (j, w) :: t, k => if j = k then serase t k else (j, w) :: serase t k

/-- The list with one more entry, before the first greater key. -/
def sinsert {α : Type} : List (Nat × α) → Nat → α → List (Nat × α)
  | [], k, v => [(k, v)]
  | (j, w) :: t, k, v => if k < j then (k, v) :: (j, w) :: t else (j, w) :: sinsert t k v

/-- Key `k` set to `v`, where an unlisted `k` reads as `d`. -/
def sset {α : Type} [DecidableEq α] (d : α) (t : List (Nat × α)) (k : Nat) (v : α) : List (Nat × α) :=
  if v = d then serase t k else sinsert (serase t k) k v

/-- Keys strictly rising, and no entry equal to what its key reads as unlisted (`d`). -/
def swf {α : Type} [DecidableEq α] (d : Nat → α) : List (Nat × α) → Bool
  | [] => true
  | [(j, w)] => decide (w ≠ d j)
  | (j, w) :: (k, v) :: t => decide (w ≠ d j) && decide (j < k) && swf d ((k, v) :: t)

end Sys2Proof.Machine
end

