-- ==== Sys2Proof/Machine/State.lean ====
section
/-!
DEFINITION. The state of the KZA1600 as plain data, and its value right after reset.
-/
namespace Sys2Proof.Machine

/-! ### Time (R9, R22, R499) -/

/-- A time base value (R9): seconds, nanoseconds, and the fraction held in 2^-40 ns, of which the upper 16 bits are
the fractional nanoseconds of R9 (R499). -/
structure Stamp where
  sec : Nat
  ns : Nat
  frac : Nat
deriving DecidableEq, Repr

/-- Time base `b` beside its registers (R495 to R497, R504). -/
structure TimeBase where
  now : Stamp
  /-- the integral of the servo (R496), 2^-40 -/
  integ : Int
  /-- a Sync or PPS_IN edge has been used since EN went to 1 (R497) -/
  used : Bool
  /-- consecutive Syncs with |off| within LOCK_THR, in ACQUIRE -/
  good : Nat
  /-- consecutive Syncs with |off| above LOCK_THR, in LOCKED -/
  bad : Nat
  /-- the last eight path delay results, 2^-16 ns, newest first (R495) -/
  delays : List Int
  /-- exchanges still to complete before ACQUIRE after HOLDOVER (R497) -/
  needDelays : Nat
  /-- t2 − t1 − c_sync of the last Sync, 2^-16 ns -/
  syncTerm : Int
  /-- a two-step Sync waiting for its Follow_Up: sequenceId and t2 in 2^-16 ns -/
  twoStep : Option (Nat × Int)
  /-- a Delay_Req sent and not yet answered: sequenceId and t3 in 2^-16 ns -/
  reqSent : Option (Nat × Int)
  /-- sequenceId of the next Delay_Req -/
  reqSeq : Nat
  /-- logMessageInterval of Delay_Req, as the master gives it in Delay_Resp (R495) -/
  reqLog : Int
  /-- the Announce data sets of the base's domain: the priority vector of each master heard (R492) -/
  masters : List (List Nat)
deriving DecidableEq, Repr

def TimeBase.reset : TimeBase :=
  ⟨⟨0, 0, 0⟩, 0, false, 0, 0, [], 0, 0, none, none, 0, 0, []⟩

/-- The tick and period grid (R22): how many ticks have begun since PORST_N, and which boundary's work has been done. -/
structure Grid where
  ticks : Nat
  /-- the T0 period number whose period work was done last -/
  lastPeriod : Option Nat
  /-- the T0 millisecond number whose management work was done last -/
  lastMs : Option Nat
deriving DecidableEq, Repr

/-! ### Event controller (R629 to R636) -/

/-- An open record of an EVENT frame (R632), or a count held for the log (R634). -/
structure EvRec where
  event : Nat
  code : Nat
  count : Nat
  sec : Nat
  ns : Nat
  inst : Nat
deriving DecidableEq, Repr

structure EventUnit where
  /-- records open, in the order they were opened (R632) -/
  openRecs : List EvRec
  /-- counts held for the log until the end of the management tick (R634) -/
  held : List EvRec
  /-- events that have staged a record in the current management tick (R634) -/
  logged : List Nat
  /-- reactions of the current instant that have not yet reached the Treadle (R635): values of REACT, in order -/
  reacts : List Nat
  /-- occurrences raised in the AON domain while FAB stands: event, instance, fault code, severity of the fault or none
  (R607, R610) -/
  crossing : List (Nat × Nat × Nat × Option Nat)
  /-- CDC_FLUSH has been raised in this management tick (R613) -/
  cdcSeen : Bool
deriving DecidableEq, Repr

/-! ### Fault unit (R565 to R583) -/

/-- A queued, running or suspended handler (R577, R578): the fault's report word and the units it would retire. -/
structure Handler where
  code : Nat
  sev : Nat
  inst : Nat
  escalated : Bool
  preempted : Bool
  queued : Bool
deriving DecidableEq, Repr

/-- A recovery timer that runs (R570): the occurrence it belongs to. -/
structure Recovery where
  code : Nat
  inst : Nat
  since : Nat
deriving DecidableEq, Repr

structure FaultUnit where
  running : Option Handler
  suspended : List Handler
  queue : List Handler
  /-- reports that found the queue full and are offered again (R579) -/
  offered : List Handler
  /-- per escalation target (stations, ports, Shed): the ticks of its RETRY occurrences within the window (R569) -/
  retries : Vector (List Nat) 19
  recovery : Vector (Option Recovery) 19
  /-- a HALT of THERM_SHUTDOWN, UPD_PARTIAL or DOFF was handled: its cause persists until reset (R576) -/
  haltUntilReset : Bool
  /-- the gate is open: downlink slots may carry GATE = 1 (R582) -/
  gateOpen : Bool
  /-- when EMIT_GATE_N and SW_GATE both last went to released, in ns of T0; none: with T0 disabled, or never (R582) -/
  gateHigh : Option Nat
deriving DecidableEq, Repr

/-! ### The Wale log (R590 to R603) -/

/-- A record waiting in staging (R598): everything but SEQ and CRC, which it receives when it is programmed. -/
structure LogRec where
  kind : Nat
  opTime : Nat
  cycles : Nat
  tSec : Nat
  tq : Nat
  tNs : Nat
  ref : Nat
  layer : Nat
  payload : List Nat
  /-- staged even above WAL_RESERVE: FAULT of severity RETIRE or HALT, or SHUTDOWN (R599) -/
  urgent : Bool
deriving DecidableEq, Repr

/-- A chain READ of the log that runs (R602): its port and SEQ, the next and the last record, the records that MAX still
allows, and whether the next frame carries GAP. -/
structure LogRead where
  port : Nat
  seqNo : Nat
  next : Nat
  last : Nat
  left : Option Nat
  gap : Bool
deriving DecidableEq, Repr

structure WaleLog where
  staged : List LogRec
  /-- counts of the pending LOST record (R599): staging full, Creel errors, flash failure -/
  lost : Nat × Nat × Nat
  /-- a run of drops is in progress (R599) -/
  dropRun : Bool
  /-- staged bytes stand above WAL_RESERVE (E245) -/
  above : Bool
  /-- the scan has completed since reset (R596) -/
  ready : Bool
  /-- the sector written, its SECTOR_SEQ, and the next free byte in it -/
  sector : Nat
  sectorSeq : Nat
  offset : Nat
  /-- the sector after the current one is erased (R597) -/
  nextErased : Bool
  /-- consecutive sectors that failed (R597) -/
  fails : Nat
  badSectors : List Nat
  /-- milliseconds counted toward the next second of OP_TIME, and seconds since the last HOURS record (R595) -/
  opMs : Nat
  sinceHours : Nat
  read : Option LogRead
deriving DecidableEq, Repr

/-! ### The chain (R475 to R504) -/

/-- The classes of the egress choice (R481). -/
inductive FrameClass where
  | timed | ptp | forwarded | own | macPause
deriving DecidableEq, Repr

/-- What a frame of the device's own completes when it has left (R356, R228, R239, R247). -/
inductive Export where
  | none | image (cam : Nat) | map | archive (station : Nat) | descriptors | tapestry | logFrame
deriving DecidableEq, Repr

/-- A frame in a transmit queue. `kind` to `seqNo` are the device frame header's (R478). -/
structure Frame where
  cls : FrameClass
  kind : Nat
  dst : Nat
  src : Nat
  hops : Nat
  seqNo : Nat
  payload : List Byte
  done : Export
deriving DecidableEq, Repr

/-- A queued timed launch (R501). -/
structure Timed where
  base : Nat
  sec : Nat
  ns : Nat
  addr : Nat
  len : Nat
  dropLate : Bool
deriving DecidableEq, Repr

structure ChainPort where
  /-- frames waiting, by class, each in the order queued (R481) -/
  ptpQ : List Frame
  forwardQ : List Frame
  ownQ : List Frame
  pauseQ : List Frame
  /-- the frame being sent -/
  sending : Option Frame
  /-- the last device frame sent was a forwarded one (R481, class 3 alternates) -/
  lastForwarded : Bool
  launches : List Timed
  /-- the port's chain receive bobbin: consumed frames, oldest first (R410, R480) -/
  rxQ : List Frame
  /-- MAC address of the last host frame received (R479); none: broadcast -/
  hostMac : Option Nat
  /-- residence times held for a Follow_Up: sourcePortIdentity, sequenceId, residence in 2^-16 ns, grid tick (R494) -/
  held : List (Nat × Nat × Int × Nat)
  /-- T0 in ns at which a received PAUSE ends (R482) -/
  pausedUntil : Nat
  /-- a discarded frame has raised CHAIN_DROP in this management tick (R505) -/
  dropSeen : Bool
deriving DecidableEq, Repr

def ChainPort.reset : ChainPort := ⟨[], [], [], [], none, false, [], [], none, [], 0, false⟩

structure Chain where
  ports : Vector ChainPort 2
  /-- sequence number of the next frame the device originates (R478) -/
  seqNo : Nat
  /-- sequence number of the next job message (R82) -/
  msgSeq : Nat
  /-- PPS_OUT is high -/
  ppsHigh : Bool
  /-- its selected base's value in ns at which it falls (R503) -/
  ppsUntil : Nat
  /-- grid tick of the last PPS_IN edge, while a loss can still be raised (R504) -/
  ppsSince : Option Nat
deriving DecidableEq, Repr

/-! ### The Treadle (R50 to R85) -/

/-- A layer start or resume time: seconds and nanoseconds of T0 (R68). -/
abbrev StartTime := Nat × Nat

/-- One layer slot beside TRD_SLOTn_STATUS (R66): the file it holds. -/
structure LayerSlot where
  jobId : Nat
  layerNo : Nat
  /-- the 128 header bytes as received (R52, R54) -/
  header : List Byte
  /-- body and tag bytes received after the header, still encrypted -/
  cipher : List Byte
  /-- next expected file offset (R83) -/
  next : Nat
  start : Option StartTime
  /-- the layer has missed a start time and has no new one (R69) -/
  missed : Bool
  /-- the picks of the body, decrypted: sixteen own lists and the selvedge list, each record eight words (R53, R57) -/
  own : Vector (List (List Nat)) 16
  selv : List (List Nat)
  /-- the melt-pool target table as received (R53) -/
  targets : List Byte
  /-- each station's stream (R98), from its first pick, and what is still to be played into its bobbin; a record is eight
  words, then word 0 as the layer file has it (R94) -/
  stream : Vector (List (List Nat)) 16
  plan : Vector (List (List Nat)) 16
  /-- T_own and SEL_ORDER of the allocation (R98, R100), the stations it included (R121), its orphans (R119) -/
  tOwn : Vector Nat 16
  selOrder : Bool
  included : Nat
  orphans : Nat
  /-- the zones defined when the header arrived, and their station counts (R127) -/
  zones : List (Nat × Nat)
deriving DecidableEq, Repr

def LayerSlot.reset : LayerSlot :=
  ⟨0, 0, [], [], 0, none, false, Vector.replicate 16 [], [], [], Vector.replicate 16 [], Vector.replicate 16 [],
    Vector.replicate 16 0, false, 0, 0, []⟩

structure Treadle where
  slots : Vector LayerSlot 3
  /-- the current job, 0 after PORST_N (R51) -/
  job : Nat
  /-- the greatest number of a layer of the job that has been ACTIVE (R51) -/
  lastActive : Option Nat
  /-- the pause tick accepted in SCAN and not yet reached (R77) -/
  pauseAt : Option Nat
  /-- a pause waits for the end of LAYER_CLOSE: by command, by reaction, by the orphan policy (R64, R75, R636) -/
  pauseCmd : Bool
  pauseReact : Bool
  pauseOrphan : Bool
  /-- the accepted resume time of a RESUME to SCAN that has not come yet (R79) -/
  resumeAt : Option StartTime
  /-- the step of R72 under way, 1 to 5; 0 none -/
  recoatStep : Nat
  /-- target of the step under way, kept for its repetition (R72) -/
  recoatTarget : Int
  /-- steps of the platform move of this layer (R71) -/
  platSteps : Nat
  /-- a direction bit for BIDIR profiles: the next traverse starts at the far end (R72) -/
  farEnd : Bool
  /-- frames still to come of the bed or post-scan capture (R73) -/
  imagesLeft : Nat
  /-- the next trigger of the capture waits for the port to be free (R350) -/
  captureDue : Bool
  /-- powder imaging of the active layer is complete -/
  imaged : Bool
  /-- recoat profile registers read when RECOAT began (R92): AXES, TRAVERSE, SPEED, DOSE, IMG_SPACING, IMG -/
  profile : List Nat
deriving DecidableEq, Repr

def Treadle.reset : Treadle :=
  ⟨Vector.replicate 3 LayerSlot.reset, 0, none, none, false, false, false, none, 0, 0, 0, false, 0, false, false, []⟩


/-! ### Clocks, Doff and JTAG (R607 to R624) -/

structure Doff where
  /-- Doff is in force, and has stopped the clocks: both end with the next reset (R618, R624) -/
  active : Bool
  frozen : Bool
  /-- faults that matched a trigger of R617 and have not been taken -/
  matched : Nat
  /-- the readout space and address that DOFF_ADDR set (R620) -/
  space : Nat
  addr : Nat
  /-- the word that the last Capture-DR loaded -/
  capture : Nat
  /-- the JTAG boundary-scan register (R620) -/
  boundary : Nat
  /-- the device pins are driven from the boundary-scan register -/
  extest : Bool
deriving DecidableEq, Repr


/-! ### Mechanical axes (R305 to R325) -/

/-- One axis beside its registers. -/
structure AxisState where
  /-- the profile speed V, Q32.16 microsteps/s (R309) -/
  v : Nat
  /-- the 48-bit phase accumulator (R307), as it stood `cyc` MCH cycles into the current microsecond -/
  acc : Nat
  cyc : Nat
  /-- carries held while STEP may not rise (R308, R306) -/
  held : Nat
  /-- the desired level (R311) -/
  levelDes : Nat
  /-- the effective target of the move or homing phase under way (R309) -/
  goal : Int
  /-- the homing phase decelerates to rest (R322) -/
  decel : Bool
  /-- the home input has been accepted inactive in back-off (R322) -/
  released : Bool
  /-- the homing reference (R323) -/
  reference : Int
  /-- EN_DELAY has passed since EN went active (R306) -/
  enReady : Bool
  /-- the last move ended in a limit, a homing failure, or a host STOP or HALT (R72, R325) -/
  endFault : Bool
  /-- per input (HOME, LIMP, LIMN): the latch register's value before a first edge that waits for acceptance (R320) -/
  edge : Vector (Option Nat) 3
deriving DecidableEq, Repr

def AxisState.reset : AxisState := ⟨0, 0, 0, 0, 0, 0, false, false, 0, false, false, Vector.replicate 3 none⟩


/-! ### Shuttles (R132 to R167) -/

/-- A point or direction of the bed frame, in nm (R148). -/
structure P2 where
  x : F64
  y : F64
deriving DecidableEq, Repr

/-- A pick as the Shuttle holds it (R59, R60), with its stream index. -/
structure Pick where
  idx : Nat
  typ : Nat
  flags : Nat
  x1 : Int
  y1 : Int
  x2 : Int
  y2 : Int
  w5 : Nat
  w6 : Nat
  w7 : Nat
  /-- the z offset once the move to this pick has begun (R140) -/
  zoff : Int
deriving DecidableEq, Repr

/-- The kinds of plan element (R138). -/
inductive ElemKind where
  | runUp | line | runOut | jump | arc | rest
deriving DecidableEq, Repr

/-- One element of the path plan (R138, R147). Lengths are in 2^-32 nm; `r`, `c` and `turn` describe an arc. -/
structure Elem where
  kind : ElemKind
  p : P2
  u : P2
  c : P2
  r : F64
  turn : Int
  len : Nat
  vmax : Nat
  vEnd : Nat
  laser : Bool
  /-- ticks of a stay at rest -/
  ticks : Nat
  /-- points of a POINT_SEQ still to come after this one -/
  again : Nat
  pick : Pick
  /-- the last element of its pick (R134) -/
  last : Bool
deriving DecidableEq, Repr

/-- A speed ramp under way (R142, R143): jerk ticks, constant ticks, ticks done, the jerk, the speed it ends at. -/
structure Ramp where
  nj : Nat
  na : Nat
  done : Nat
  j0 : Int
  v2 : Nat
deriving DecidableEq, Repr

/-- One axis of the limiter (R158). -/
structure LimAxis where
  u : Int
  v : Int
  a : Int
deriving DecidableEq, Repr

/-- What an interruption recorded (R163): the interrupted element, the path length where it begins, and the point. -/
structure Interruption where
  elem : Elem
  base : Nat
  s : Nat
  laser : Bool
  ticksLeft : Nat
deriving DecidableEq, Repr

/-- A loaded path compare (R296): pick, tick of effect, next and first and last pulse position in 2^-32 nm, spacing in
nm. -/
structure PathCmp where
  pick : Nat
  tick : Nat
  next : Int
  start : Int
  stop : Int
  spacing : Nat
  /-- a continuous pick's on edge is placed and its off edge is not -/
  lit : Bool
  /-- the load has taken effect -/
  eff : Bool
deriving DecidableEq, Repr

/-- Where the plan stands at a period start. -/
structure BedPoint where
  period : Nat
  s : Nat
  x : Int
  y : Int
  tx : F64
  ty : F64
deriving DecidableEq, Repr

structure Shuttle where
  /-- picks in the look-ahead queue, in stream order (R134) -/
  queue : List Pick
  /-- via points of JUMP_HINTs not yet used by a move, and the speed limit that applies (R138, R139) -/
  vias : List (Int × Int)
  viaSpeed : Nat
  plan : List Elem
  /-- elements traversed since the current pick's exposure began, with the path length where each began -/
  trail : List (Elem × Nat)
  /-- the approach to the first point is over and the path plan runs (R684) -/
  started : Bool
  /-- position in the current element, speed and acceleration (R143), 2^-32 nm per tick powers -/
  pos : Nat
  v : Int
  a : Int
  /-- path length at the start of the current element -/
  base : Nat
  ramp : Option Ramp
  /-- ticks of the phase that takes the acceleration to 0 before a stop ramp, and its jerk (R164) -/
  easing : Option (Nat × Int)
  /-- where the plan ends, at rest -/
  tail : Option P2
  /-- END_OF_LIST has been taken from the stream -/
  sawEnd : Bool
  /-- the interruption to resume from (R163, R165) -/
  intr : Option Interruption
  /-- the stop of R164 runs -/
  stopping : Bool
  /-- path length where the present speed reduction of a laser-on element began (R165) -/
  slowSince : Option Nat
  lim : Vector LimAxis 3
  limited : Bool
  zoff : Int
  /-- the newest s_act values, newest first: period number, value in nm, quality (R160) -/
  sAct : List (Nat × F64 × Nat)
  /-- compares loaded by the laser-on elements (R296), oldest first -/
  comps : List PathCmp
  /-- the first stream index whose compare has not been loaded (R296) -/
  pulsed : Nat
  /-- off edges of started pulses still to be placed, ns of the grid (R161, R162) -/
  offs : List Nat
  /-- edges placed by tick, newest first: the tick, the level at its start, offset and level of each edge (R133) -/
  placed : List (Nat × Bool × List (Nat × Bool))
  /-- the level after the last edge placed, and whether the last tick placed exposed at rest -/
  lit : Bool
  resting : Bool
  /-- path lengths at the starts of the last ticks, newest first (R163) -/
  hist : List (Nat × Nat)
  /-- an interruption that is due: tick and ns in it (R77, R112) -/
  stopAt : Option (Nat × Nat)
  /-- z offset after the last pick taken (R140), and picks taken from the stream since LAYER_PREP -/
  zNext : Int
  taken : Nat
  /-- planned point, tangent and path length at period starts, newest first (R156, R160) -/
  bpts : List BedPoint
  /-- an interruption, a re-pick or a rejoin since the last actual position (R109) -/
  actBreak : Bool
  /-- the actual position before the last is usable for prediction (R109) -/
  prevOk : Bool
  /-- tick in which the current laser-on segment began (R111) -/
  segStart : Nat
  /-- the speed that the limiter leaves, µm/s (R158) -/
  vEff : Nat
  /-- acceleration and jerk kept for the ramp to a point that a commit made unreachable (R159) -/
  kept : Option (Nat × Nat)
  /-- the station has completed its END_OF_LIST in this layer (R137) -/
  complete : Bool
  /-- a re-pick runs up to its pick -/
  repicking : Bool
  /-- a missed deadline holds the next set-points, or the next edges (R34) -/
  holdSet : Bool
  holdEdges : Bool
  /-- the station's next downlink slot carries BLANK (R112, R163, R573) -/
  blank : Bool
  /-- the monitor holds the station (R111, R112) -/
  held : Bool
  /-- END_OF_LIST is done and the axes move to or stand at park (R137) -/
  parking : Bool
  /-- consecutive periods with a missed deadline (R571), and a miss in the current period -/
  misses : Nat
  missed : Bool
deriving DecidableEq, Repr

def F64.z : F64 := ⟨0, 0, true⟩
def P2.zero : P2 := ⟨F64.z, F64.z⟩

def Shuttle.reset : Shuttle where
  queue := []
  vias := []
  viaSpeed := 0
  plan := []
  trail := []
  started := false
  pos := 0
  v := 0
  a := 0
  base := 0
  ramp := none
  easing := none
  tail := none
  sawEnd := false
  intr := none
  stopping := false
  slowSince := none
  lim := Vector.replicate 3 ⟨0, 0, 0⟩
  limited := false
  zoff := 0
  sAct := []
  comps := []
  pulsed := 0
  offs := []
  placed := []
  lit := false
  resting := false
  hist := []
  stopAt := none
  zNext := 0
  taken := 0
  bpts := []
  actBreak := true
  prevOk := false
  segStart := 0
  vEff := 0
  kept := none
  complete := false
  repicking := false
  holdSet := false
  holdEdges := false
  blank := false
  held := false
  parking := false
  misses := 0
  missed := false


/-! ### Fuses (R512 to R514) -/

/-- The one-time programmable fuses: what PORST_N and the loss of supplies leave as it is (R681). -/
structure Otp where
  /-- the life-cycle state programmed (R512) -/
  lifeCycle : Nat
  /-- KEY_HASH, once programmed: DEV_FUSE_DATA0 to 11 (R514) -/
  keyHash : Option (List Byte)
  /-- the key-encryption key, once programmed (R514) -/
  kek : Option (List Byte)
  /-- the fused minimum EPOCH (R514) -/
  epoch : Nat
deriving DecidableEq, Repr

def Otp.blank : Otp := ⟨0, none, none, 0⟩


/-! ### Start-up, fuses and update (R509 to R528) -/

structure Startup where
  /-- PORST_N is low (R509) -/
  porstLow : Bool
  /-- the fuses as read in stage FUSES, and as programmed since (R510, R514) -/
  fuses : Otp
  /-- the fuse group being programmed and its data (R514) -/
  fuseJob : Option (Nat × List Byte)
  /-- the life-cycle state being programmed (R513) -/
  lcJob : Option Nat
  /-- image slots that are not tried again, after an apply pass found them changed (R520) -/
  skip : Bool × Bool
  /-- the slot under verification or apply at start: 0 A, 1 B (R520) -/
  trying : Option Nat
  /-- its apply pass runs (R520) -/
  applying : Bool
  /-- candidates that have failed since the start (R520) -/
  failed : Bool × Bool
  /-- STATE has reached READY since the reset (R511, R581) -/
  readyOnce : Bool
  /-- the update command that runs: 1 CHECK, 2 PROGRAM, 3 ACTIVATE (R525) -/
  updRun : Option Nat
  /-- the background recheck after a wipe runs (R528); until PORST_N after AUTH_LOST nothing is accepted -/
  authLost : Bool
  /-- bytes of the flash, as its SFDP tables give them (R515) -/
  flashSize : Nat
  /-- an update is in the second of its passes, and the STATE that it returns to (R526) -/
  passTwo : Bool
  backState : Nat
  /-- the straps have been sampled since PORST_N release (R652) -/
  strapped : Bool
deriving DecidableEq, Repr

def Startup.reset : Startup :=
  ⟨true, Otp.blank, none, none, (false, false), none, false, (false, false), false, none, false, 0,
    false, 0, false⟩


/-! ### Bed illumination (R382 to R396) -/

/-- An exposure window of a camera port (R351), in ns of T0. -/
structure Window where
  cam : Nat
  openAt : Nat
  closeAt : Nat
  /-- flashed whatever LMP_FLASH_CFG.PORTS says: a hit routed to camera and lamp (R387) -/
  lamp : Bool
  opened : Bool
deriving DecidableEq, Repr

/-- The phases of the matrix scan (R390 to R392). -/
inductive RowPhase where
  | off | on | blank | test | blankAfter
deriving DecidableEq, Repr

structure Lamps where
  windows : List Window
  /-- the flash of a compare hit routed only to the lamp runs (R387) -/
  hitFlash : Bool
  /-- LDO at the last broadcast latch: the drivers stand at FLASH (R383) -/
  flashing : Bool
  /-- ports whose opening latch waits for the end of the frame that shifts (R388) -/
  late : List Nat
  /-- the chain frame that shifts: CMD and the LEVEL of each driver; and the CMDs of those that wait (R385) -/
  tx : Option (Nat × List Nat)
  txQ : List Nat
  /-- a broadcast latch with LDO 0 is due at the next tick boundary (R385) -/
  latchDue : Bool
  /-- the shadow levels sent to each driver -/
  steady : Vector Nat 32
  flash : Vector Nat 32
  /-- temperature of each driver's last status, none where INVALID (R386, R396) -/
  temps : Vector (Option Int) 32
  /-- the driver's level is sent as 0 until a valid status returns (R386) -/
  bad : Vector Bool 32
  /-- derating factors last evaluated, Q0.16 (R396) -/
  factor : Vector Nat 32
  mtxFactor : Nat
  /-- the pattern of the capture in progress (R389) -/
  pattern : Option Nat
  phase : RowPhase
  row : Nat
  rowStart : Nat
  rowEnd : Nat
  /-- the lit row is the EXP_ROW of a window (R391) -/
  expRow : Bool
  /-- the cell under test, and whether this scan has had its test (R392) -/
  testCell : Option (Nat × Nat)
  testDone : Bool
  /-- cells reported OPEN and not read OK since -/
  openCells : List (Nat × Nat)
  /-- a colour reading runs, and whether it has been disturbed (R393) -/
  measuring : Option Bool
deriving DecidableEq, Repr

def Lamps.reset : Lamps where
  windows := []
  hitFlash := false
  flashing := false
  late := []
  tx := none
  txQ := []
  latchDue := false
  steady := Vector.replicate 32 0
  flash := Vector.replicate 32 0
  temps := Vector.replicate 32 none
  bad := Vector.replicate 32 false
  factor := Vector.replicate 32 65536
  mtxFactor := 65536
  pattern := none
  phase := .off
  row := 0
  rowStart := 0
  rowEnd := 0
  expRow := false
  testCell := none
  testDone := false
  openCells := []
  measuring := none


/-! ### Camera ports and the image pipeline (R332 to R356) -/

/-- A trigger issued and not yet matched to a VS edge (R349, R350). -/
structure CamTrigger where
  src : Nat
  sec : Nat
  ns : Nat
  /-- a traverse frame of a recoat, always sent to the host (R356) -/
  keep : Bool
deriving DecidableEq, Repr

/-- A commit of exposure settings (R352, R353): its tag, the frame N of its VS edge, and how its sequence ended. -/
structure ExpSet where
  tag : Nat
  exposure : Nat
  gain : Nat
  frame : Nat
  /-- the first frame that begins after the sequence completed -/
  doneAt : Option Nat
deriving DecidableEq, Repr

/-- A frame between its VS edge and its delivery. -/
structure CamFrame where
  no : Nat
  src : Nat
  sec : Nat
  ns : Nat
  keep : Bool
  exposure : Nat
  gain : Nat
  tag : Nat
  expQ : Nat
  layer : Nat
  width : Nat
  height : Nat
  format : Nat
  /-- the correction settings in force at the VS edge: BLACK0 to 7, SHADE_BASE, DPC, IRSUB0, IRSUB1, LUMA0, LUMA1 -/
  settings : List Nat
  /-- lines captured so far, as 16-bit samples (R334) -/
  lines : List (List Nat)
  /-- lines that the pipeline has finished -/
  taken : Nat
  slot : Option Nat
  admitted : Bool
deriving DecidableEq, Repr

/-- A delivered frame in the ring: its slot, size, format, and the Tapestry boundary it came after (R370). -/
structure CamShot where
  slot : Nat
  width : Nat
  height : Nat
  format : Nat
  boundary : Nat
deriving DecidableEq, Repr

structure CamPort where
  frames : List CamFrame
  /-- the newest frame still captures lines -/
  capturing : Bool
  triggers : List CamTrigger
  /-- end of HOLDOFF, ns of T0; 0 none (R349) -/
  holdUntil : Nat
  missed : Bool
  /-- commits of exposure settings, newest first; the tag whose sequence runs, whether it is the repetition, and the
  tags that wait (R353, R355) -/
  sets : List ExpSet
  seqRun : Option (Nat × Bool)
  seqWait : List Nat
  nextSlot : Nat
  /-- ring slots that are being exported, in the order sent; and slots that Tapestry reads (R346) -/
  exporting : List Nat
  shown : List Nat
  /-- the newest delivered frame, and how many have been delivered (R362, R370) -/
  latest : Option CamShot
  delivered : Nat
deriving DecidableEq, Repr

def CamPort.reset : CamPort := ⟨[], false, [], 0, false, [], none, [], 0, [], [], none, 0⟩

structure Cams where
  ports : Vector CamPort 4
  /-- the line in the pipeline: port and frame number (R335) -/
  line : Option (Nat × Nat)
deriving DecidableEq, Repr


/-! ### The Creel and the secure partition (R399 to R427) -/

structure CreelUnit where
  /-- bobbins whose overflow has raised BOBBIN_OVF in this management tick (R408) -/
  ovfSeen : List Nat
  /-- CREEL_CE has been raised in this management tick (R415) -/
  ceSeen : Bool
  /-- pick bobbins whose stream has delivered END_OF_LIST to the ring: no panic (R411) -/
  ended : List Nat
deriving DecidableEq, Repr

/-- The secure partition (R418, R522) and its controller. -/
structure Secure where
  keys : Vector (Option (List Byte)) 16
  /-- GCM hash subkeys, derived at load -/
  subkeys : Vector Nat 16
  /-- last accepted NONCE of each slot, as a 96-bit number -/
  nonces : Vector Nat 16
  /-- a LOAD (1) or ERASE (2) that waits for a layer file, and its slot (R420) -/
  waiting : Option (Nat × KeySlot)
  /-- SHA-384 of the image in force, its EPOCH and IMG_SEQ (R522); AUTH_OK is shown in DEV_STATE -/
  digest : List Byte
  epoch : Nat
  seqNo : Nat
  /-- SHA-384 of the image checked for activation, and its slot, while STAGED_OK -/
  staged : Option (List Byte × Nat)
  /-- the update state to return to when the recheck of R528 ends -/
  recheck : Option Nat
deriving DecidableEq, Repr

def Secure.reset : Secure :=
  ⟨Vector.replicate 16 none, Vector.replicate 16 0, Vector.replicate 16 0, none, [], 0, 0, none, none⟩


/-! ### Position feedback (R281 to R304) -/

/-- What changed a count. -/
inductive CountCause where
  | edge (reversal : Bool) | index | write | read
deriving DecidableEq, Repr

/-- A change of a pin channel's count: its time in ns of T0, by how much, and its cause. -/
structure CountChange where
  at' : Nat
  by' : Int
  cause : CountCause
deriving DecidableEq, Repr

/-- A pin channel beside its registers. -/
structure PinState where
  /-- accepted levels of A, B and Z, bits 0 to 2 -/
  levels : Nat
  /-- changes of the count, newest first, as far back as the speed can need (R287) -/
  changes : List CountChange
  /-- times of illegal transitions and SUSPECT reads (R287) -/
  illegal : List Nat
  /-- direction of the last accepted edge, 0 before any -/
  lastDir : Int
  /-- the last SSI value (R285) -/
  vPrev : Nat
  /-- an SSI frame runs (R285) -/
  reading : Bool
  /-- the behind rule applies at the first edge in DIR (R291) -/
  due : Bool
  /-- CMP_c is high until this time, ns of T0 (R292) -/
  cmpUntil : Nat
  /-- the Treadle owns the compare (R293) -/
  owned : Bool
deriving DecidableEq, Repr

def PinState.reset : PinState := ⟨0, [], [], 0, 0, false, false, 0, false⟩


/-! ### Melt-pool unit (R210 to R247) -/

/-- A coax exposure the device has triggered (R258): frame number, tick of T0, schedule tick, length in ns. -/
structure CoaxTrig where
  no : Nat
  tick : Nat
  sched : Nat
  len : Nat
deriving DecidableEq, Repr

/-- A coax frame as it arrives and when it is over (R219, R226, R258). `pixels` are the packed 10-bit pixels. -/
structure CoaxFrame where
  trig : CoaxTrig
  pixels : List Byte
  nextRow : Nat
  complete : Bool
  /-- BLACK, POOL, SPAT and AREA_MIN in force at the frame's start (R220) -/
  settings : List Nat
deriving DecidableEq, Repr

/-- What a tick was at a station: LASER_ON, target index and MARK of its pick (R221, R225, R232). -/
structure TickInfo where
  tick : Nat
  on : Bool
  target : Nat
  mark : Bool
  /-- stream index and type of the pick -/
  pick : Nat
  typ : Nat
deriving DecidableEq, Repr

structure MeltStation where
  /-- the last temperature samples, newest first: tick, temperature, quality (R222) -/
  temps : List (Nat × Nat × Nat)
  ticks : List TickInfo
  /-- actual positions by period, newest first: period, x, y in nm, quality (R156, R223) -/
  acts : List (Nat × Int × Int × Nat)
  /-- frames triggered, newest first, and the count since RUN_START (R258) -/
  trigs : List CoaxTrig
  frameNo : Nat
  rx : Option CoaxFrame
  /-- frames that are over and whose descriptor is still to be written, oldest first -/
  done : List CoaxFrame
  /-- actual position and midpoint tick of the last descriptor that wrote the map (R232) -/
  lastWrite : Option (Int × Int × Nat)
  /-- COAX_FRAME has been raised in this pick (R226) -/
  badSeen : Bool
  /-- the tick of the station's final laser-off edge of the layer (R227); the number of the last frame while its descriptor is
  awaited -/
  lastOff : Option Nat
  awaiting : Option Nat
  /-- the archive: next record, and the frames still to be written before it freezes (R238, R239) -/
  archNext : Nat
  archPost : Option Nat
  /-- MARK picks of the layer of which a descriptor has NO_POOL = 0, by stream index (R224, R538) -/
  marks : List Nat
deriving DecidableEq, Repr

def MeltStation.reset : MeltStation :=
  ⟨[], [], [], [], 0, none, [], none, false, none, none, 0, none, []⟩

/-- A cell write that waits (R233): WTICK, station, byte offset in the buffer, T_PEAK. -/
structure CellWrite where
  wtick : Nat
  station : Nat
  offset : Nat
  temp : Nat
  late : Bool
deriving DecidableEq, Repr

structure Melt where
  st : Vector MeltStation 16
  writes : List CellWrite
  /-- the previous map: its buffer, open time, and the open time of the layer after it (R231) -/
  prev : Option (Nat × Nat × Option Nat)
  /-- the layer in SCAN runs without map (R237) -/
  noMap : Bool
  /-- MAP_LATE and DESC_DROP have been raised in this layer (R228, R233) -/
  lateSeen : Bool
  dropSeen : Bool
  /-- the target buffer in force, 0 or 1 (R217) -/
  tgt : Nat
  /-- a clear waits for the end of a map export (R230) -/
  clearWaits : Bool
  /-- next slot of the descriptor ring, and descriptors sent and not yet freed (R228) -/
  descNext : Nat
deriving DecidableEq, Repr

def Melt.reset : Melt := ⟨Vector.replicate 16 MeltStation.reset, [], none, false, false, false, 0, false, 0⟩


/-! ### Tapestry (R362 to R381) -/

structure TapPlane where
  /-- the boundary at which the last FLIP took effect (R369, R370) -/
  lastFlip : Option Nat
  /-- the plane was enabled at the last boundary, and the port's deliveries when it became so (R370) -/
  wasOn : Bool
  seen : Nat
  /-- the camera frame latched (R370) -/
  shot : Option CamShot
deriving DecidableEq, Repr

/-- A sprite of the cursor plane: station, position of its pixel (32, 32), colour of code 1 (R366). -/
structure Sprite where
  station : Nat
  px : Int
  py : Int
  colour : Nat
deriving DecidableEq, Repr

/-- The frame being composed (R367, R375). -/
structure TapFrame where
  no : Nat
  sec : Nat
  ns : Nat
  layer : Nat
  stale : Nat
  blanked : Nat
  slot : Nat
  sprites : List Sprite
  /-- planes and lines missing at composition (R372) -/
  under : List (Nat × Nat)
deriving DecidableEq, Repr

structure Tapestry where
  planes : Vector TapPlane 8
  frame : Option TapFrame
  /-- frames composed since the last one written to memory (R367) -/
  sinceMem : Nat
  nextSlot : Nat
  exporting : List Nat
  /-- TAP_UNDERRUN has been raised in this layer (R372) -/
  underSeen : Bool
  /-- the video output runs (R374) -/
  video : Bool
deriving DecidableEq, Repr

def Tapestry.reset : Tapestry := ⟨Vector.replicate 8 ⟨none, false, 0, none⟩, none, 0, 0, [], false, false⟩


/-! ### DRAM controller (R428 to R446) -/

/-- A corrected error that counts toward a mark (R442): channel, rank, subchannel, component, and the grid tick. -/
structure DramError where
  channel : Nat
  rank : Nat
  sub : Nat
  comp : Nat
  tick : Nat
deriving DecidableEq, Repr

structure Dram where
  /-- ENABLE was written 0 while training ran: training stops at the end of its step (R443) -/
  stopDue : Bool
  /-- the training that runs belongs to a set-point switch, and raises E55 too (R444) -/
  switching : Bool
  /-- the drift of R445 has asked for a full retraining that waits for the panic-side bobbins to close -/
  retrainDue : Bool
  /-- the channels in self-refresh (R438, R443) -/
  selfRef : Vector Bool 2
  /-- refreshes postponed, by channel × 2 + rank (R437) -/
  postponed : Vector Nat 4
  /-- the next burst that each channel's scrub reads (R441) -/
  scrubAt : Vector Nat 2
  /-- corrected errors of the last second (R442) -/
  errors : List DramError
  /-- DRAM_CE has been raised in this management tick (R440) -/
  ceSeen : Bool
deriving DecidableEq, Repr

def Dram.reset : Dram :=
  ⟨false, false, false, Vector.replicate 2 false, Vector.replicate 4 0, Vector.replicate 2 0, [], false⟩



/-! ### The Shed and the spot-separation monitor (R93 to R131) -/

/-- A laser-on window of the estimate (R99): from t0 to t1 ns, from point P to point Q in nm. -/
structure FireWindow where
  t0 : Int
  t1 : Int
  px : Int
  py : Int
  qx : Int
  qy : Int
deriving DecidableEq, Repr

/-- A pass that runs (R101, R118): what it works on. -/
structure ShedPass where
  /-- a re-allocation pass -/
  again : Bool
  slot : Slot
  /-- the groups to place, in order: records of eight words and the word 0 of the layer file -/
  groups : List (List (List Nat))
  /-- F[n] before any placement, pos[n], and the instant from which the windows of station n count -/
  finish : Vector Nat 16
  pos : Vector (Option (Int × Int)) 16
  origin : Vector Nat 16
  /-- stations excluded (R94, R120, R123) -/
  excluded : Nat
  /-- tail picks that a stopped pass has placed (R122) -/
  tails : Vector (List (List Nat)) 16
deriving DecidableEq, Repr

structure Shed where
  pass : Option ShedPass
  /-- retired stations whose remaining work has not been taken by a pass (R118, R122) -/
  request : Nat
  /-- the monitor's plume values of the period: SHD_KEEPOUT, GAS_DIR, CONE_TAN, CONE_LEN (R126) -/
  plume : List Nat
  /-- per station: the T0 time in ns when its hold began, PLUME_STARVE raised in it, clear periods counted (R113, R114) -/
  since : Vector Nat 16
  starved : Vector Bool 16
  clear : Vector Nat 16
deriving DecidableEq, Repr

def Shed.reset : Shed :=
  ⟨none, 0, [0x3A98, 0x7FFF, 0x5D2D, 0x1D4C0], Vector.replicate 16 0, Vector.replicate 16 false, Vector.replicate 16 0⟩


/-! ### Reed engines (R173 to R202) -/

/-- Input and output histories of a biquad stage (R178). -/
structure BqHist where
  x1 : Int
  x2 : Int
  y1 : Int
  y2 : Int
deriving DecidableEq, Repr

/-- One loop beside its registers. -/
structure ReedLoop where
  /-- the integrator I, the filtered derivative and the last error (R177) -/
  i : Int
  df : Int
  ePrev : Int
  /-- the last two measured values (R179) -/
  yPrev : Int
  yPrev2 : Int
  /-- r_prev and x_ext (R183, R185) -/
  rPrev : Int
  xExt : Int
  /-- EXT_LOST holds x_ext until a complete period after an edge (R185) -/
  extLost : Bool
  bq : List BqHist
  /-- EN, AUTO and SRC at the last evaluation -/
  wasEn : Bool
  wasAuto : Bool
  src : Nat
  /-- active EN forced to 0 by a retirement (R197) -/
  off : Bool
  /-- the link was out of alignment: e_prev := e at the next usable word (R181) -/
  fresh : Bool
  /-- the preset of R188 is due -/
  preset : Bool
  /-- the pick's ramp of SRC 1 waits for a GOOD sample (R184) -/
  rampDue : Bool
  /-- last correction c (R190) -/
  c : Int
  /-- consecutive INVALID measurements, or laser-on ticks without a GOOD sample (R180, R190) -/
  bad : Nat
  /-- following-error count (R192, R193) -/
  fe : Nat
  /-- faults raised: once per pick in a power loop (R190, R193) -/
  feRaised : Bool
  lostRaised : Bool
  /-- stream index and target index of the last laser-on pick (R189) -/
  pick : Option Nat
  target : Option Nat
  /-- an auxiliary loop: grid tick at which it falls due next, and it waits for the window (R200) -/
  due : Nat
  waits : Bool
deriving DecidableEq, Repr

def ReedLoop.reset : ReedLoop :=
  ⟨0, 0, 0, 0, 0, 0, 0, false, List.replicate 8 ⟨0, 0, 0, 0⟩, false, false, 0, false, false, false, false, 0, 0, 0, false, false, none,
    none, 0, false⟩

/-- A GPIO as the loops use it (R185, R201). -/
structure GpioState where
  /-- the newest complete measurement: period and high time in MCH cycles -/
  measure : Option (Nat × Nat)
  /-- T0 in ns at the last rising edge -/
  lastEdge : Nat
  /-- PWM: period and high time in MCH cycles, none where no loop drives it -/
  pwm : Option (Nat × Nat)
deriving DecidableEq, Repr

structure Reed where
  /-- position loops: engine × 16 + station -/
  pos : Vector ReedLoop 48
  pwr : Vector ReedLoop 16
  aux : Vector ReedLoop 8
  gpio : Vector GpioState 16
deriving DecidableEq, Repr

def Reed.reset : Reed :=
  ⟨Vector.replicate 48 ReedLoop.reset, Vector.replicate 16 ReedLoop.reset, Vector.replicate 8 ReedLoop.reset,
    Vector.replicate 16 ⟨none, 0, none⟩⟩


/-! ### Station links and lanes (R248 to R280, R449 to R474) -/

/-- A service request (R267): its tag, OP, address and data, whether the device itself makes it, and the tick it went out. -/
structure SvcReq where
  tag : Nat
  op : Nat
  addr : Nat
  data : Nat
  own : Bool
  tick : Nat
deriving DecidableEq, Repr

/-- A station link beside its registers. -/
structure Link where
  /-- consecutive uplink MARKERs and slots that were bad or missing (R271) -/
  badMarks : Nat
  badSlots : Nat
  /-- a MARKER, a slot, came since the last tick boundary -/
  gotMark : Bool
  gotSlot : Bool
  /-- departures of the last downlink MARKERs, newest first: PERIOD and PHASE byte, t1 in 1/16 ns of T0 -/
  sent : List (Nat × Nat)
  /-- RTTs gathered in MEASURE, and measurements rejected in a row (R261) -/
  rtts : List Int
  rejected : Nat
  /-- the RTT measured at bring-up, and D_DOWN is accepted (R31, R261) -/
  rtt0 : Int
  measured : Bool
  /-- consecutive exchanges more than 2 ns from it -/
  shifts : Nat
  /-- the link left RUN by a loss of alignment: it rejoins on lock (R265) -/
  fromRun : Bool
  /-- RUN begins at the next period boundary (R265) -/
  goRun : Bool
  /-- the station is kept dark by EMIT_OFF at each MARKER instant until RUN (R271) -/
  dark : Bool
  /-- the next identity word to read, repeats of the present read, and SERIAL is to be read again (R266, R273) -/
  identNext : Nat
  tries : Nat
  serialDue : Bool
  /-- the request outstanding, the host request that waits, the next tag (R267) -/
  svc : Option SvcReq
  hostReq : Option SvcReq
  tag : Nat
  /-- the four slots of this period carry RUN_START (R258) -/
  runStart : Bool
  /-- STN_INTERLOCK has been raised in this layer (R274) -/
  interlockSeen : Bool
  /-- DOWN_ERR of the last uplink slot -/
  downErr : Nat
  /-- the T0 tick of the last coax trigger (R258) -/
  lastTrig : Option Nat
  /-- what the lane sent in the newest tick: MARKER body, slot header and words, EMIT_OFF (R252, R271, R275) -/
  txMarker : List Byte
  txSlot : List Byte
  txEmitOff : Bool
deriving DecidableEq, Repr

def Link.reset : Link where
  badMarks := 0
  badSlots := 0
  gotMark := false
  gotSlot := false
  sent := []
  rtts := []
  rejected := 0
  rtt0 := 0
  measured := false
  shifts := 0
  fromRun := false
  goRun := false
  dark := false
  identNext := 0
  tries := 0
  serialDue := false
  svc := none
  hostReq := none
  tag := 0
  runStart := false
  interlockSeen := false
  downErr := 0
  lastTrig := none
  txMarker := []
  txSlot := []
  txEmitOff := false

/-- A lane beside its registers. -/
structure LaneUnit where
  /-- the eye scan's settings, latched at START: H, V, DWELL (R463, R464) -/
  scan : Nat
  /-- blocks still to be altered, KIND and LEN of the injection (R468) -/
  injLeft : Nat
  injKind : Nat
  injLen : Nat
  /-- quarter bits that the PRBS checker has compared beyond the whole ones counted (R467) -/
  quarters : Nat
deriving DecidableEq, Repr

def LaneUnit.reset : LaneUnit := ⟨0, 0, 0, 0, 0⟩


/-! ### Trim (R532 to R550) -/

/-- A pyrometer measurement that runs (R532 to R536), with its latched settings. -/
structure TrimMeas where
  gain : Bool
  /-- grid tick of the command: TIMEOUT counts from it -/
  since : Nat
  timeout : Nat
  want : Nat
  log2 : Nat
  spread : Nat
  target : Nat
  gsh : Nat
  gLo : Nat
  rRef : Nat
  gLim : Nat
  slew : Nat
  /-- G in force when the collection starts -/
  g0 : Nat
  /-- TRM_n_DARK_NEW has been written since the command (R537) -/
  darkWritten : Bool
  n : Nat
  out : Nat
  /-- sum, least and greatest of the counts of channels 1 and 2 -/
  sum1 : Nat
  sum2 : Nat
  min1 : Nat
  min2 : Nat
  max1 : Nat
  max2 : Nat
  /-- histogram: bin and count, canonical -/
  hist : List (Nat × Nat)
deriving DecidableEq, Repr

/-- A slew (R542): the values it goes between, periods done and its length. -/
structure TrimSlew where
  v0 : List Int
  v1 : List Int
  k : Nat
  len : Nat
deriving DecidableEq, Repr

/-- A mark recorded in SCAN (R538): station, start and end, and stream index of its pick. -/
structure TrimMark where
  station : Nat
  x1 : Int
  y1 : Int
  x2 : Int
  y2 : Int
  pick : Nat
deriving DecidableEq, Repr

structure TrimStation where
  meas : Option TrimMeas
  slewD : Option TrimSlew
  slewG : Option TrimSlew
  /-- K' of the grid that waits for its layer boundary: A00, A01, A10, A11, TX, TY, and the SEL that selects it (R539) -/
  kNew : Option (List Int)
  /-- the K' that waits until that boundary has taken or refused the earlier grid (R540) -/
  kNext : Option (List Int)
deriving DecidableEq, Repr

def TrimStation.reset : TrimStation := ⟨none, none, none, none, none⟩

structure Trim where
  st : Vector TrimStation 16
  /-- the MARK picks of the layer that have completed, in completion order (R538) -/
  marks : List TrimMark
  /-- the post-scan frame that registration uses: slot in the ring of REG_CAM, width, height, format; none delivered -/
  image : Option CamShot
  /-- REGISTER has armed the next registration, and a registration computation is due (R538) -/
  armed : Bool
  due : Bool
  /-- the grids that wait come from a registration (R540, R547) -/
  fromReg : Bool
  /-- SAVE waits for slews and grids, or for the record to be programmed (R544) -/
  saveDue : Bool
deriving DecidableEq, Repr

def Trim.reset : Trim := ⟨Vector.replicate 16 TrimStation.reset, [], none, false, false, false, false⟩


/-! ### Temperature supervision (R551 to R564) -/

/-- A threshold: above or below, and the rounds counted toward a change (R553). -/
structure Threshold where
  above : Bool
  count : Nat
deriving DecidableEq, Repr

/-- A supervised pair (R558, R616): raised, and the rounds counted toward a change. -/
structure PairState where
  raised : Bool
  count : Nat
deriving DecidableEq, Repr

structure Thermal where
  warn : Threshold
  throttle : Threshold
  shutdown : Threshold
  /-- rounds since either condition of fast mode held (R551) -/
  calm : Nat
  /-- consecutive failing checks of each sensor (R555) -/
  fails : Vector Nat 24
  /-- neighbouring sensors: right neighbour of k at 2k, lower neighbour at 2k + 1 (R558) -/
  pairs : Vector PairState 48
  /-- adjacent islands, as the sensors (R616) -/
  islands : Vector PairState 12
  /-- rounds outside or inside the NVM window (R560) -/
  nvmCount : Nat
  /-- rounds below 107 °C since PORST_N (R562) -/
  cool : Nat
  /-- rounds since PORST_N, in 62.5 µs units since the last whole millisecond at THROTTLE -/
  thrUnits : Nat
  /-- thermal shutdown is in force, and its clocks have stopped (R561) -/
  shut : Bool
  stopped : Bool
deriving DecidableEq, Repr

def Thermal.reset : Thermal where
  warn := ⟨false, 0⟩
  throttle := ⟨false, 0⟩
  shutdown := ⟨false, 0⟩
  calm := 0
  fails := Vector.replicate 24 0
  pairs := Vector.replicate 48 ⟨false, 0⟩
  islands := Vector.replicate 12 ⟨false, 0⟩
  nvmCount := 0
  cool := 0
  thrUnits := 0
  shut := false
  stopped := false


/-! ### Management accesses that are held (R45, R49, R623) -/

/-- An access of one path: a read or a write, and what its answer goes to. -/
structure MgmtAccess where
  path : Path
  write : Bool
  addr : Nat
  data : Nat
deriving DecidableEq, Repr

/-- A management frame under way on the chain (R486): its SEQ, the words still to access and those read. -/
structure MgmtFrame where
  seqNo : Nat
  write : Bool
  addr : Nat
  /-- words still to be accessed: the data of a write, or zeros -/
  left : List Nat
  /-- words performed so far, as read -/
  did : List Nat
deriving DecidableEq, Repr

structure Mgmt where
  /-- single accesses that are held, oldest first (R49) -/
  held : List MgmtAccess
  /-- the chain request that is held part-way -/
  chain : List MgmtFrame
  /-- JTAG: status (0 done, 1 held, 2 error) and read data of the previous access (R623) -/
  jtagStatus : Nat
  jtagData : Nat
  /-- the same of the host SPI -/
  hostData : Nat
  hostStatus : Nat
deriving DecidableEq, Repr

def Mgmt.reset : Mgmt := ⟨[], [], 0, 0, 0, 0⟩

/-! ### The state -/

/-- Everything the spec gives the device but its fuses. The registers are kept in one sparse store keyed by their byte
address (R42); what a block holds beside its registers stands in the block's own field. -/
structure Dev where
  /-- The registers, at the values in force: address and value, canonical against `resetOf` (R12, R42). -/
  regs : List (Nat × Word)
  /-- RWS writes not yet in force: the last value written of each (R15). Unlisted: none waits. -/
  shadow : List (Nat × Word)
  /-- The model's own: how many free values have been taken (an open value of the spec each). -/
  free : Nat
  /-- The tick and period grid (R22). -/
  grid : Grid
  /-- Time bases T0 to T3 (R499). -/
  bases : Vector TimeBase 4
  /-- The event controller (R629 to R636). -/
  ev : EventUnit
  /-- The fault unit (R567 to R583). -/
  flt : FaultUnit
  /-- The Wale log (R590 to R602). -/
  wal : WaleLog
  /-- The chain ports (R475 to R504). -/
  chain : Chain
  /-- The Treadle (R50 to R85). -/
  trd : Treadle
  /-- The Creel, 32 MiB by byte offset (R43, R399); an unlisted byte reads 0. -/
  creel : List Host.Cell
  /-- The DRAM by byte address (R430); an unlisted byte reads 0. -/
  dram : List Host.Cell
  /-- The xSPI flash by byte address (R515); an unlisted byte is erased, 0xFF. -/
  flash : List Host.Cell
  /-- Doff and the JTAG registers (R617 to R623). -/
  dof : Doff
  /-- The mechanical axes beside their registers (R305 to R325). -/
  axes : Vector AxisState 8
  /-- The Shuttles (R132 to R167). -/
  sht : Vector Shuttle 16
  /-- Start-up, fuses as read, and update (R509 to R528). -/
  start : Startup
  /-- Bed illumination beside its registers (R382 to R396). -/
  lmp : Lamps
  /-- Camera ports and the image pipeline (R332 to R356). -/
  isp : Cams
  /-- The Creel beside its stores and registers (R407 to R417). -/
  crl : CreelUnit
  /-- The secure partition (R418 to R423, R522). -/
  sec : Secure
  /-- The pin feedback channels beside their registers (R281 to R302). -/
  pins : Vector PinState 8
  /-- The melt-pool unit beside its registers (R210 to R247). -/
  mpl : Melt
  /-- Tapestry beside its registers (R362 to R381). -/
  tap : Tapestry
  /-- The DRAM controller beside its store and registers (R428 to R446). -/
  drc : Dram
  /-- The Shed and the spot-separation monitor (R93 to R131). -/
  shd : Shed
  /-- The Reed engines beside their registers (R173 to R202). -/
  reed : Reed
  /-- The station links beside their registers (R248 to R277). -/
  lnk : Vector Link 16
  /-- The serial lanes beside their registers (R454 to R471). -/
  lanes : Vector LaneUnit 18
  /-- Trim beside its registers (R532 to R547). -/
  trm : Trim
  /-- Temperature supervision beside its registers (R551 to R563). -/
  thm : Thermal
  /-- Management accesses that are held (R45, R49). -/
  mgm : Mgmt
deriving DecidableEq, Repr

/-- The machine: the device, its fuses, which nothing erases (R681), and the queue of commands that wait. -/
structure State where
  /-- The device. -/
  dev : Dev
  /-- The one-time programmable fuses (R512 to R514). -/
  otp : Otp
  /-- The commands that wait, first in, first out. -/
  pending : List Instr
deriving DecidableEq, Repr

/-- The stops of a command. No command of this model stops with a fault: every command of the table has an effect. -/
inductive Fault where
  /-- Raised by no command: an access to a store outside its size would raise it, and every store access of the
  model is within its store or is turned away by a rule of the spec first. Safe. -/
  | outsideStore
deriving DecidableEq, Repr

/-- The refusals of a command. -/
inductive Refusal where
  /-- No meaning yet for the command with this mnemonic. Raised by `exec` alone; safe: the run stops. -/
  | notModelled (mnemonic : String)
deriving DecidableEq, Repr

/-- The device right after reset (R12, R509): every register at its reset value, nothing under way. -/
def Dev.reset : Dev where
  regs := []
  shadow := []
  free := 0
  grid := ⟨0, none, none⟩
  bases := Vector.replicate 4 TimeBase.reset
  ev := ⟨[], [], [], [], [], false⟩
  flt := ⟨none, [], [], [], Vector.replicate 19 [], Vector.replicate 19 none, false, false, none⟩
  wal := ⟨[], (0, 0, 0), false, false, false, 0, 0, 0, false, 0, [], 0, 0, none⟩
  chain := ⟨Vector.replicate 2 ChainPort.reset, 0, 0, false, 0, none⟩
  trd := Treadle.reset
  creel := []
  dram := []
  flash := []
  dof := ⟨false, false, 0, 0, 0, 0, 0, false⟩
  axes := Vector.replicate 8 AxisState.reset
  sht := Vector.replicate 16 Shuttle.reset
  start := Startup.reset
  lmp := Lamps.reset
  isp := ⟨Vector.replicate 4 CamPort.reset, none⟩
  crl := ⟨[], false, []⟩
  sec := Secure.reset
  pins := Vector.replicate 8 PinState.reset
  mpl := Melt.reset
  tap := Tapestry.reset
  drc := Dram.reset
  shd := Shed.reset
  reed := Reed.reset
  lnk := Vector.replicate 16 Link.reset
  lanes := Vector.replicate 18 LaneUnit.reset
  trm := Trim.reset
  thm := Thermal.reset
  mgm := Mgmt.reset

/-- Right after reset: the device in reset, blank fuses, no command waiting. -/
def State.reset : State := ⟨Dev.reset, Otp.blank, []⟩

end Sys2Proof.Machine
end

