-- ==== Sys2Proof/Machine/Ops.lean ====
section
/-!
DEFINITION. The named operations over registers, fields, flags and byte stores that every family uses.
-/
namespace Sys2Proof.Machine

open Reg

/-! ### Registers -/

/-- The fixed fields of CRL_Bb_CFG for bobbins 0 to 69 (R410): PRODUCER, CONSUMER, FULL, PANIC_SIDE and MODE in place;
0 for a general bobbin. -/
def bobbinFixed (b : Nat) : Nat :=
  let f (prod cons full side : Nat) : Nat := cons * 2 ^ 16 + prod * 2 ^ 12 + side * 2 ^ 8 + full * 2 ^ 4
  if b < 16 then f 9 6 0 1
  else if b < 32 then f 5 7 1 0
  else if b < 48 then f 7 9 1 2
  else if b < 52 then f 11 11 1 0
  else if b < 56 then f 11 9 0 2
  else if b < 64 then f 9 12 0 1
  else if b < 66 then f 10 1 0 0
  else if b < 68 then f 1 10 0 0
  else if b = 68 then f 2 14 1 0
  else if b = 69 then f 9 8 0 1
  else 0

/-- The reset value of the register at byte address `a` (R12); 0 at an undefined address (R11). -/
def resetOf (a : Nat) : Word :=
  if 0x31000 ≤ a && a < 0x33000 && a % 64 == 0 then BitVec.ofNat 32 (bobbinFixed ((a - 0x31000) / 64))
  else match rowAt a with
  | some r => BitVec.ofNat 32 r.reset
  | none => 0

/-- The register at `a`, at the value in force. -/
def Dev.reg (s : Dev) (a : Nat) : Nat := (sget (resetOf a) s.regs a).toNat

/-- The register at `a` set to the low 32 bits of `v`. -/
def Dev.setReg (s : Dev) (a v : Nat) : Dev :=
  { s with regs := sset (resetOf a) s.regs a (BitVec.ofNat 32 v) }

/-- A field, at the value in force. -/
def Dev.get (s : Dev) (f : Field) : Nat := bits (s.reg f.addr) f.hi f.lo

/-- A field replaced. -/
def Dev.put (s : Dev) (f : Field) (v : Nat) : Dev := s.setReg f.addr (putBits (s.reg f.addr) f.hi f.lo v)

/-- A one-bit field as a Bool. -/
def Dev.on (s : Dev) (f : Field) : Bool := s.get f == 1

/-- The register as a signed 32-bit number. -/
def Dev.regS (s : Dev) (a : Nat) : Int := sx 32 (s.reg a)

/-- A field as a signed number of its own width. -/
def Dev.getS (s : Dev) (f : Field) : Int := sx (f.hi + 1 - f.lo) (s.get f)

/-- The register set to the two's complement pattern of `v`. -/
def Dev.setRegS (s : Dev) (a : Nat) (v : Int) : Dev := s.setReg a (wrapN 32 v)

/-- A counting register incremented by `k`, saturating at all ones. -/
def Dev.count (s : Dev) (a k : Nat) : Dev := s.setReg a (min (s.reg a + k) 0xFFFFFFFF)

/-- A counting field incremented by one, saturating. -/
def Dev.countF (s : Dev) (f : Field) : Dev := s.put f (min (s.get f + 1) (2 ^ (f.hi + 1 - f.lo) - 1))

/-- The last value written to the RWS register at `a`, in force or not (R15). -/
def Dev.written (s : Dev) (a : Nat) : Nat :=
  match s.shadow.find? (·.1 == a) with
  | some (_, w) => w.toNat
  | none => s.reg a

/-- A write of the RWS register at `a` waits for its boundary (R15). -/
def Dev.setShadow (s : Dev) (a v : Nat) : Dev :=
  { s with shadow := sinsert (serase s.shadow a) a (BitVec.ofNat 32 v) }

/-- A field of the last value written (R15, R127). -/
def Dev.getW (s : Dev) (f : Field) : Nat := bits (s.written f.addr) f.hi f.lo

/-- The bits of `new` under `mask`, the others of `old`. -/
def mergeBits (old new mask : Nat) : Nat := Nat.lor (Nat.land old (0xFFFFFFFF - mask)) (Nat.land new mask)

/-- The RWS fields of the register at `e.1` take the word `e.2`. -/
def commitWord (t : List (Nat × Word)) (e : Nat × Word) : List (Nat × Word) :=
  let old := (sget (resetOf e.1) t e.1).toNat
  let mask := match rowAt e.1 with | some r => r.rws | none => 0
  sset (resetOf e.1) t e.1 (BitVec.ofNat 32 (mergeBits old e.2.toNat mask))

/-- The RWS writes that wait at boundary `b` for registers from `lo` up to `hi` come into force together (R585). -/
def Dev.commit (s : Dev) (b : Boundary) (lo hi : Nat) : Dev :=
  let due (e : Nat × Word) : Bool :=
    lo ≤ e.1 && e.1 < hi && (match rowAt e.1 with | some r => decide (r.boundary = b) | none => false)
  { s with
    regs := s.shadow.foldl (fun t e => if due e then commitWord t e else t) s.regs
    shadow := s.shadow.filter (fun e => !due e) }

/-- Whether an RWS write of boundary `b` waits for a register from `lo` up to `hi`. -/
def Dev.waiting (s : Dev) (b : Boundary) (lo hi : Nat) : Bool :=
  s.shadow.any fun e =>
    lo ≤ e.1 && e.1 < hi && (match rowAt e.1 with | some r => decide (r.boundary = b) | none => false)

/-! ### Open values -/

/-- A free value of width `w`: a value the spec leaves open, and the state that has taken it (DESIGN CHOICE,
log entry 8). -/
def Dev.fresh (s : Dev) (w : Nat) : Nat × Dev :=
  ((Config.freeValue w s.free).toNat, { s with free := s.free + 1 })

/-- DEV_ID2 to DEV_ID4: silicon revision and grade, and the fused number of the part (R530). -/
def devWord (k : Nat) : Nat :=
  let w := (Config.deviceWord k).toNat
  if k = 2 then Nat.land w 0xFF03 else w

/-! ### Byte stores -/

/-- What a byte of the Creel or the DRAM that nothing has written reads as. DESIGN CHOICE, log entry 3. -/
def ramDefault : Byte := 0

/-- What a byte of the flash that nothing has written reads as: erased. -/
def flashDefault : Byte := 0xFF

/-- The size of the Creel in bytes (R399). -/
def creelSize : Nat := 0x2000000

/-- One byte of the Creel. -/
def Dev.creelByte (s : Dev) (a : Nat) : Byte := sget ramDefault s.creel (a % creelSize)

/-- One byte of the Creel written. -/
def Dev.setCreelByte (s : Dev) (a : Nat) (b : Byte) : Dev :=
  { s with creel := sset ramDefault s.creel (a % creelSize) b }

/-- Consecutive bytes written to a store. -/
def storeBytes (d : Byte) : List Host.Cell → Nat → List Byte → List Host.Cell
  | m, _, [] => m
  | m, a, b :: bs => storeBytes d (sset d m a b) (a + 1) bs

/-- Consecutive bytes of a store. -/
def loadBytes (d : Byte) (m : List Host.Cell) (a n : Nat) : List Byte := (List.range n).map fun i => sget d m (a + i)

def Dev.creelBytes (s : Dev) (a n : Nat) : List Byte := loadBytes ramDefault s.creel a n
def Dev.setCreelBytes (s : Dev) (a : Nat) (bs : List Byte) : Dev :=
  { s with creel := storeBytes ramDefault s.creel a bs }
def Dev.dramBytes (s : Dev) (a n : Nat) : List Byte := loadBytes ramDefault s.dram a n
def Dev.setDramBytes (s : Dev) (a : Nat) (bs : List Byte) : Dev :=
  { s with dram := storeBytes ramDefault s.dram a bs }
def Dev.flashBytes (s : Dev) (a n : Nat) : List Byte := loadBytes flashDefault s.flash a n

/-- Programming clears bits of erased flash: each byte becomes the AND of what it holds and what is programmed. -/
def Dev.programFlash (s : Dev) (a : Nat) (bs : List Byte) : Dev :=
  let now := loadBytes flashDefault s.flash a bs.length
  { s with flash := storeBytes flashDefault s.flash a (List.zipWith (fun (x y : Byte) => x &&& y) now bs) }

/-- Erasing a range of flash leaves every byte of it 0xFF. -/
def Dev.eraseFlash (s : Dev) (a n : Nat) : Dev :=
  { s with flash := s.flash.filter fun c => c.1 < a || a + n ≤ c.1 }

/-- A little-endian number of `n` bytes in the Creel. -/
def Dev.creelNat (s : Dev) (a n : Nat) : Nat := leNat (s.creelBytes a n)

/-- A little-endian number of `n` bytes in the DRAM. -/
def Dev.dramNat (s : Dev) (a n : Nat) : Nat := leNat (s.dramBytes a n)

end Sys2Proof.Machine
end

