-- ==== Sys2Proof/Machine/Events.lean ====
section
/-!
DEFINITION. What every block does through the EVT and WAL blocks: an occurrence of an event (R629 to R634), a record
staged for the Wale log (R598, R599), and the front end of the fault unit (R566 to R571).
-/
namespace Sys2Proof.Machine

open Reg

/-! ### T0 as time stamp -/

/-- The value of T0. -/
def Dev.t0 (s : Dev) : Stamp := (vat s.bases 0).now

/-- The quality of T0 (R590, TQ): GOOD when LOCKED, STALE in HOLDOVER, SUSPECT in ACQUIRE or FREE, INVALID disabled. -/
def Dev.t0Quality (s : Dev) : Nat :=
  if s.get (NETT_CTRL_EN 0) = 0 then qInvalid
  else match s.reg (NETT_STATE 0) % 4 with
    | 2 => qGood
    | 3 => qStale
    | _ => qSuspect

/-- The number of T0's current tick, counted from second 0 (R22). -/
def Stamp.tick (t : Stamp) : Nat := t.sec * 2000000 + t.ns / 500

/-- T0 in whole nanoseconds. -/
def Stamp.nanos (t : Stamp) : Nat := t.sec * 1000000000 + t.ns

/-! ### Staging (R598, R599) -/

/-- The bytes of a record (R590): header, payload, CRC word. -/
def LogRec.len (r : LogRec) : Nat := 36 + 4 * r.payload.length

/-- The staging bytes a record occupies: whole 32-byte words (R598). -/
def LogRec.room (r : LogRec) : Nat := divUp r.len 32 * 32

/-- The staging queue is the early buffer until bobbin 68 is enabled (R598). -/
def Dev.earlyLog (s : Dev) : Bool := s.get (CRLB_CFG_EN 68) == 0

/-- The capacity of the staging queue in bytes: the early buffer's 2 KiB, or bobbin 68 (R598). -/
def Dev.logCapacity (s : Dev) : Nat := if s.earlyLog then 2048 else s.reg (CRLB_SIZE 68) % 0x100000 * 32

/-- The bytes staged, in whole staging words. -/
def stagedBytes (l : List LogRec) : Nat := (l.map LogRec.room).sum

/-- The reserve in force (R599): values above 65,536 act as 65,536. -/
def Dev.logReserve (s : Dev) : Nat := min (s.reg WAL_RESERVE) 65536

/-- A record of the given kind whose origin is now (R590). -/
def Dev.logRec (s : Dev) (kind ref : Nat) (payload : List Nat) (urgent : Bool) : LogRec where
  kind := kind
  opTime := s.reg WAL_OP_TIME
  cycles := s.reg WAL_POWER_CYCLES
  tSec := s.t0.sec % 0x100000000
  tq := s.t0Quality
  tNs := s.t0.ns
  ref := ref
  layer := s.reg TRD_LAYER
  payload := payload
  urgent := urgent

/-- A record offered to staging (R599), and the events that this raises: it enters, behind the pending LOST record, or
it is dropped and counted. -/
def stageRec (r : LogRec) (s : Dev) : Dev × List Nat :=
  let used := stagedBytes s.wal.staged
  let lost := s.wal.lost
  let pend : List LogRec :=
    if lost = (0, 0, 0) then [] else [s.logRec 8 0 [lost.1, lost.2.1, lost.2.2] false]
  let need := stagedBytes (pend ++ [r])
  if (s.logReserve < used && !r.urgent) || s.logCapacity < used + need then
    let s1 := s.count WAL_DROPS 1
    let more := if 3 ≤ s.wal.fails then (lost.1, lost.2.1, lost.2.2 + 1) else (lost.1 + 1, lost.2)
    let s2 : Dev := { s1 with wal := { s.wal with lost := more, dropRun := true } }
    if s.wal.dropRun then (s2, [])
    else ((s2.put WAL_FLAGS_DROP 1).count (EVT_FLT_COUNT 0x88) 1, [241])
  else
    let now := used + need
    let above := decide (s.logReserve < now)
    let w : WaleLog :=
      { s.wal with staged := s.wal.staged ++ pend ++ [r], lost := (0, 0, 0), dropRun := false, above := above }
    ({ s with wal := w }.setReg WAL_STAGED now, if above && !s.wal.above then [245] else [])

/-! ### Occurrences of events (R629 to R635) -/

/-- Open an EVENT frame record, or count in the open one (R632, R633). -/
def EventUnit.frame (v : EventUnit) (r : EvRec) : EventUnit :=
  if v.openRecs.any (·.event == r.event) then
    { v with openRecs := v.openRecs.map fun x =>
        if x.event = r.event then { x with count := min (x.count + 1) 0xFFFF } else x }
  else if v.openRecs.length < 64 then { v with openRecs := v.openRecs ++ [r] }
  else v

/-- Add to the count held for an event until the end of the management tick (R634). -/
def EventUnit.hold (v : EventUnit) (r : EvRec) : EventUnit :=
  if v.held.any (·.event == r.event) then
    { v with held := v.held.map fun x =>
        if x.event = r.event then { x with count := min (x.count + 1) 0xFFFF } else x }
  else { v with held := v.held ++ [r] }

/-- What an occurrence does on every route but the log: count, pending bit, EVENT frame, reaction (R629, R632, R635). -/
def markEvent (e inst code : Nat) (s : Dev) : Dev :=
  let r : EvRec := ⟨e, code, 1, s.t0.sec % 0x100000000, s.t0.ns, inst⟩
  let framed := s.on (EVT_CFG_FRAME e)
  let full := framed && !s.ev.openRecs.any (·.event == e) && 64 ≤ s.ev.openRecs.length
  let react := s.get (EVT_CFG_REACT e)
  let v := if framed then s.ev.frame r else s.ev
  let v := if 1 ≤ react && react ≤ 3 then { v with reacts := v.reacts ++ [react] } else v
  let s := s.count (EVT_COUNT e) 1
  let s := s.setReg (EVT_PEND (e / 32)) (setBit (s.reg (EVT_PEND (e / 32))) (e % 32) true)
  let s := s.setReg EVT_LAST (code * 256 + e)
  let s := if full then s.put EVT_FLAGS_FRAME_OVF 1 else s
  { s with ev := v }

/-- The four words of an event record (R487). -/
def EvRec.words (r : EvRec) : List Nat := [r.count * 65536 + r.code * 256 + r.event, r.sec, r.ns, r.inst]

/-- An occurrence of event `e` concerning unit `inst`, raised by fault `code` or by none (R629, R630, R634). The first
argument bounds the events that staging itself raises. -/
def occurN : Nat → Nat → Nat → Nat → Dev → Dev
  | 0, e, inst, code, s => markEvent e inst code s
  | k + 1, e, inst, code, s =>
    let t := markEvent e inst code s
    let r : EvRec := ⟨e, code, 1, s.t0.sec % 0x100000000, s.t0.ns, inst⟩
    if !s.on (EVT_CFG_LOG e) then t
    else if s.ev.logged.contains e then { t with ev := t.ev.hold r }
    else
      let u : Dev := { t with ev := { t.ev with logged := e :: t.ev.logged } }
      let (u, evs) := stageRec (u.logRec 2 e r.words false) u
      evs.foldl (fun x f => occurN k f 0xFF (if f = 241 then 0x88 else 0) x) u

/-- An occurrence of event `e` (R629). -/
def occur (e inst code : Nat) (s : Dev) : Dev := occurN 3 e inst code s

/-- A record staged for the log, with the events that staging raises. -/
def stage (r : LogRec) (s : Dev) : Dev :=
  let (t, evs) := stageRec r s
  evs.foldl (fun x f => occur f 0xFF (if f = 241 then 0x88 else 0) x) t

/-- A W1C flag set, with the event of its block when it changes from 0 to 1. -/
def flagEvent (f : Field) (e inst code : Nat) (s : Dev) : Dev :=
  if s.on f then s else occur e inst code (s.put f 1)

/-! ### The front end of the fault unit (R566 to R571) -/

/-- Severities (R565). -/
abbrev sevInfo : Nat := 0
abbrev sevRetry : Nat := 1
abbrev sevRetire : Nat := 2
abbrev sevHalt : Nat := 3

/-- The report word (R566). -/
def reportWord (code sev : Nat) (escalated preempted queued subsumed : Bool) (inst : Nat) : Nat :=
  code % 256 * 0x1000000 + sev % 4 * 0x400000 + b2n escalated * 0x200000 + b2n preempted * 0x100000
    + b2n queued * 0x80000 + b2n subsumed * 0x40000 + inst % 256

/-- The escalation targets of a fault: bits 0 to 15 stations, 16 and 17 chain ports, 18 the Shed (R571). A RETIRE fault
retires the station that INSTANCE names (R572, R683). -/
def faultTargets (code inst : Nat) : List (Fin 19) :=
  match code with
  | 0x21 => [16, 17]
  | 0x22 => if inst = 16 then [16] else [17]
  | 0x11 => if inst < 16 then [⟨inst % 19, Nat.mod_lt _ (by decide)⟩] else [18]
  | _ => if h : inst < 16 then [⟨inst, by omega⟩] else []

/-- The retry window in ticks (R569): RETRY_WIN ms, 0 acts as 1. -/
def Dev.retryWindow (s : Dev) : Nat := max 1 (s.reg EVT_FLT_RETRY_WIN) * 2000

/-- The retry budget: 0 acts as 1. -/
def Dev.retryBudget (s : Dev) : Nat := max 1 (s.get EVT_FLT_CTRL_RETRY_BUDGET)

/-- Whether a unit is retired (EVT_FLT_RETIRED). -/
def Dev.isRetired (s : Dev) (u : Nat) : Bool := bit (s.reg EVT_FLT_RETIRED) u

/-- A RETRY occurrence counted against one target, and its recovery timer started or restarted (R567, R569, R570). -/
def countRetry (code inst : Nat) (u : Fin 19) (s : Dev) : Dev :=
  let now := s.grid.ticks
  let keep := ((vat s.flt.retries u).filter fun t => now ≤ t + s.retryWindow) ++ [now]
  { s with
    flt := { s.flt with
      retries := vput s.flt.retries u keep
      recovery := vput s.flt.recovery u (some ⟨code, inst, now⟩) } }.setReg (EVT_FLT_RETRIES u) (min keep.length 15)

/-- A handler that arrives at the fault unit: it runs, pre-empts, queues, or is offered again (R577 to R579). -/
def enqueueHandler (h : Handler) (f : FaultUnit) : FaultUnit :=
  match f.running with
  | none => { f with running := some h }
  | some r =>
    if r.sev < h.sev then
      { f with running := some h, suspended := { r with preempted := true } :: f.suspended }
    else if f.queue.length < 16 then { f with queue := f.queue ++ [{ h with queued := true }] }
    else { f with offered := f.offered ++ [h] }

/-- A change of one station's melt-pool unit. -/
def Dev.mstMod (s : Dev) (n : Station) (f : MeltStation → MeltStation) : Dev :=
  { s with mpl := { s.mpl with st := vmod s.mpl.st n f } }

/-- A freeze cause of Sn's archive has occurred: the archive freezes once POST more frames are written (R239). -/
def archCause (n : Station) (s : Dev) : Dev :=
  if s.on (MPLS_STATUS_FROZEN n) || (vat s.mpl.st n).archPost.isSome || !s.on (MPLS_CTRL_ARCH_EN n) then s
  else s.mstMod n fun m => { m with archPost := some (s.get (MPLS_ARCH_CTRL_POST n)) }

/-- The freeze causes that the detection of a fault brings (R239, R245). -/
def archCauses (code sev inst : Nat) (s : Dev) : Dev :=
  (List.finRange 16).foldl (fun (t : Dev) (n : Station) =>
    if (sev = 3 && t.on (MPLS_ARCH_CTRL_ON_HALT n)) || (code = 0x4D && inst = n.val && t.on (MPLS_ARCH_CTRL_ON_MELT_DEV n))
    then archCause n t else t) s

/-- Detection of a fault: it is recorded, counted and logged in the cycle of detection, its retry is counted and its
handler requested (R566, R567, R569, R572, R578, R592). `d0` and `d1` are the detail words of its FAULT record. -/
def faultD (code sev inst d0 d1 : Nat) (s : Dev) : Dev :=
  let us := faultTargets code inst
  let s := if sev = sevRetry then us.foldl (fun t u => countRetry code inst u t) s else s
  let escalated := decide (sev = sevRetry) && us.any fun u => s.retryBudget < (vat s.flt.retries u).length
  let sev' := if escalated then sevRetire else sev
  let halting := s.flt.running.any (·.sev == sevHalt) || s.flt.queue.any (·.sev == sevHalt)
  let subsumed := (decide (sev' = sevHalt) && halting)
    || (decide (sev' = sevRetire) && !us.isEmpty && us.all fun u => s.isRetired u.val)
  let handled := decide (1 ≤ sev') && !subsumed
  let queued := handled && s.flt.running.any (fun r => sev' ≤ r.sev)
  let full := queued && 16 ≤ s.flt.queue.length
  let w := reportWord code sev' escalated false queued subsumed inst
  let s := if handled then
      { s with flt := enqueueHandler ⟨code, sev', inst, escalated, false, queued⟩ s.flt } else s
  let s := s.count (EVT_FLT_COUNT code) 1
  let s := ((s.setReg EVT_FLT_LAST w).setReg EVT_FLT_LAST_SEC s.t0.sec).setReg EVT_FLT_LAST_NS s.t0.ns
  let s := if full then (s.put EVT_FLT_FLAGS_QFULL 1).count EVT_FLT_QFULL 1 else s
  let s := if escalated then s.put EVT_FLT_FLAGS_ESCALATED 1 else s
  let trigger := (s.on DOF_CTRL_ON_HALT && decide (sev' = sevHalt)) || (s.on DOF_CTRL_ON_RETIRE && decide (sev' = sevRetire))
    || (s.on DOF_CTRL_CODE_EN && decide (s.reg DOF_TRIG_CODE = code))
  let s : Dev := if trigger && decide (code ≠ 0x8B) then { s with dof := { s.dof with matched := s.dof.matched + 1 } } else s
  stage (s.logRec 1 w [d0, d1] (decide (2 ≤ sev'))) (archCauses code sev' inst s)

/-- A fault without detail words. -/
def fault (code sev inst : Nat) (s : Dev) : Dev := faultD code sev inst 0 0 s

/-- A fault and the event that its detection raises. -/
def faultEvent (code sev inst e : Nat) (s : Dev) : Dev := occur e inst code (fault code sev inst s)

/-- A RETRY occurrence is escalated without being a further occurrence (R570, R571): its timer has expired, or its own
rule escalates it at once. -/
def escalate (code inst : Nat) (s : Dev) : Dev :=
  let us := faultTargets code inst
  let subsumed := !us.isEmpty && us.all fun u => s.isRetired u.val
  let queued := !subsumed && s.flt.running.any (fun r => sevRetire ≤ r.sev)
  let full := queued && 16 ≤ s.flt.queue.length
  let w := reportWord code sevRetire true false queued subsumed inst
  let s := if subsumed then s else { s with flt := enqueueHandler ⟨code, sevRetire, inst, true, false, queued⟩ s.flt }
  let s := ((s.setReg EVT_FLT_LAST w).setReg EVT_FLT_LAST_SEC s.t0.sec).setReg EVT_FLT_LAST_NS s.t0.ns
  let s := if full then (s.put EVT_FLT_FLAGS_QFULL 1).count EVT_FLT_QFULL 1 else s
  stage (s.logRec 1 w [0, 0] true) (s.put EVT_FLT_FLAGS_ESCALATED 1)

/-- The recovery of a RETRY occurrence is complete: its timer stops (R570, R571). -/
def recovered (u : Fin 19) (s : Dev) : Dev :=
  { s with flt := { s.flt with recovery := vput s.flt.recovery u none } }

/-- An ignored RWL write or command: the block's WRITE_LOCKED flag and event (R16, R682). -/
def writeLocked (f : Field) (e inst : Nat) (s : Dev) : Dev := flagEvent f e inst 0 s

/-! ### Occurrences from the AON domain (R607 to R610) -/

/-- The fabric clock runs. -/
def Dev.fabRuns (s : Dev) : Bool := bit (s.reg CLK_LIVE) 1

/-- An occurrence raised in the AON domain: of event `e`, and of fault `code` where it has a severity. It crosses to the
fabric, at once or when that clock returns. -/
def aonEvent (e inst code : Nat) (sev : Option Nat) (s : Dev) : Dev :=
  if s.fabRuns then
    match sev with
    | some v => faultEvent code v inst e s
    | none => occur e inst code s
  else { s with ev := { s.ev with crossing := s.ev.crossing ++ [(e, inst, code, sev)] } }

/-- A flag of an AON block set, with its event when it changes (R607). -/
def aonFlag (f : Field) (e inst : Nat) (s : Dev) : Dev := if s.on f then s else aonEvent e inst 0 none (s.put f 1)

/-- The fabric clock runs again: what waited in the crossings occurs. -/
def replayCrossing (s : Dev) : Dev :=
  s.ev.crossing.foldl (fun (t : Dev) (x : Nat × Nat × Nat × Option Nat) =>
      aonEvent (x.1 % 256) x.2.1 (x.2.2.1 % 256) x.2.2.2 t)
    { s with ev := { s.ev with crossing := [] } }

end Sys2Proof.Machine
end

