-- ==== Sys2Proof/Machine/AxisOps.lean ====
section
/-!
DEFINITION. The operations of a mechanical axis (R305 to R325): the profile, one step, the levels, the start and the end
of a move, homing, the inputs.
-/
namespace Sys2Proof.Machine

open Reg

/-- MULT of a resolution level (R310). -/
def stepMult (l : Nat) : Nat := 4 ^ min l 4

/-- A flag of the axis set, with E192 + m when it changes (R326). -/
def axisFlag (m : Axis) (f : Field) (s : Dev) : Dev := flagEvent f (192 + m.val) m.val 0 s

/-- An INFO fault of the axis and the flag that raises it (R326). -/
def axisFault (m : Axis) (f : Field) (code : Nat) (s : Dev) : Dev :=
  let s := fault code sevInfo m.val s
  if s.on f then s else occur (192 + m.val) m.val code (s.put f 1)

/-- The position, signed microsteps (R305). -/
def Dev.axPos (s : Dev) (m : Axis) : Int := s.regS (AXS_POS m)

/-- A change of the axis's internal state. -/
def Dev.axMod (s : Dev) (m : Axis) (f : AxisState → AxisState) : Dev := { s with axes := vmod s.axes m f }

/-- The axis runs: a move or a homing sequence is under way (R318). -/
def Dev.axRunning (s : Dev) (m : Axis) : Bool := s.on (AXS_STATUS_MOVING m)

/-- A homing sequence is under way: HSTATE is 1 to 5 while the axis runs (R322). -/
def Dev.axHoming (s : Dev) (m : Axis) : Bool :=
  s.axRunning m && 1 ≤ s.get (AXS_STATUS_HSTATE m) && s.get (AXS_STATUS_HSTATE m) ≤ 5

/-- The Treadle drives the axis: the recoat steps of a profile that names it are under way (R325). -/
def Dev.axOwned (s : Dev) (m : Axis) : Bool :=
  let w := s.trd.profile.headD 0
  s.get TRD_STATE_STATE == 3 &&
    (bits w 2 0 == m.val || bits w 6 4 == m.val || (bit w 20 && bits w 10 8 == m.val))

/-- VMIN: max(VSTART, 1) in Q32.16 (R309). -/
def Dev.axVmin (s : Dev) (m : Axis) : Nat := max (s.reg (AXS_VSTART m)) 1 * 65536

/-- The speed S of the move or homing phase, Q32.16 (R309, R322). -/
def Dev.axSpeed (s : Dev) (m : Axis) : Nat :=
  65536 * (if s.axHoming m then
    (if s.get (AXS_STATUS_HSTATE m) ≤ 2 then s.reg (AXS_HOME_FAST m) else s.reg (AXS_HOME_SLOW m))
  else s.reg (AXS_SPEED m))

/-- Direction of motion: +1 or −1 (STATUS.DIR 0 is positive). -/
def Dev.axSign (s : Dev) (m : Axis) : Int := if s.on (AXS_STATUS_DIR m) then -1 else 1

/-- INC of the rate multiplier (R307). -/
def axInc (v l : Nat) : Nat := v * 2 ^ 32 / (250000000 * stepMult l)

/-- The coarsest level, no coarser than `des`, whose MULT divides the distance (R313). -/
def fitLevel (des : Nat) (dist : Int) : Nat :=
  ((List.range (min des 4 + 1)).filter fun l => dist % (stepMult l : Int) == 0).foldl max 0

/-- One threshold of the desired level (R311). -/
def levelStep (v hyst : Nat) (d : Nat) (e : Nat × Nat) : Nat :=
  let i := e.1
  let d := if d ≤ i && e.2 ≤ v then i + 1 else d
  if i < d && v + hyst < e.2 then i else d

/-- The desired level at speed `v` microsteps/s (R311): the thresholds with hysteresis, and no level whose highest V is
below the speed; MS_FIXED with MS_AUTO = 0. -/
def Dev.axDesired (s : Dev) (m : Axis) (d v : Nat) : Nat :=
  if s.on (AXS_CTRL_MS_AUTO m) then
    let thr := (List.range 4).map fun i => (i, s.reg (AXS_MS_THR m i))
    let d := thr.foldl (levelStep v (s.reg (AXS_MS_HYST m))) d
    let low := ((List.range 5).find? fun l => v ≤ 4000000 * stepMult l).getD 4
    max d low
  else min (s.get (AXS_CTRL_MS_FIXED m)) 4

/-- V limited so that V / MULT is at most 4,000,000 (R308). -/
def rateLimit (v l : Nat) : Nat := min v (4000000 * 65536 * stepMult l)

/-- The profile of one microsecond (R309). -/
def profileV (stopping : Bool) (v vmin sp acc dec : Nat) (d : Nat) : Nat :=
  let aInc := acc * 65536 / 1000000
  let dInc := dec * 65536 / 1000000
  let brake := decide (2 * dec * d ≤ (v / 65536) * (v / 65536))
  if stopping || brake then max (v - dInc) vmin
  else if v < sp then min (v + aInc) sp
  else if sp < v then max (v - dInc) sp
  else v

/-- Every 1 µs of a move (R309, R311): the accumulator runs to the end of the microsecond at the speed so far, then V
and the desired level are updated. -/
def axProfile (m : Axis) (s : Dev) : Dev :=
  if !s.axRunning m then s else
  let x := vat s.axes m
  let l := s.get (AXS_STATUS_MS_LEVEL m)
  let total := x.acc + (250 - x.cyc) * axInc x.v l
  let dist := (x.goal - s.axPos m).natAbs
  let v0 := profileV (s.on (AXS_STATUS_STOPPING m) || x.decel) x.v (s.axVmin m) (s.axSpeed m) (s.reg (AXS_ACC m))
    (s.reg (AXS_DEC m)) dist
  let v := rateLimit v0 l
  let des := s.axDesired m x.levelDes (v / 65536)
  let s := if v < v0 then axisFlag m (AXS_FLAGS_RATE_CLAMP m) s else s
  let s := s.axMod m fun x =>
    { x with v := v, acc := total % 2 ^ 48, held := x.held + total / 2 ^ 48, cyc := 0, levelDes := des }
  s.setRegS (AXS_VEL m) (s.axSign m * ((v / 65536 : Nat) : Int))

/-- The pending target discarded, with PEND_DROP unless by CLEAR_PENDING (R316). -/
def axDropPending (m : Axis) (quiet : Bool) (s : Dev) : Dev :=
  if s.on (AXS_STATUS_MOVE_PENDING m) then
    let s := s.put (AXS_STATUS_MOVE_PENDING m) 0
    if quiet then s else axisFlag m (AXS_FLAGS_PEND_DROP m) s
  else s

/-- The axis comes to rest: V 0, the accumulator cleared (R307, R309). -/
def axRest (m : Axis) (bad : Bool) (s : Dev) : Dev :=
  let s := ((s.put (AXS_STATUS_MOVING m) 0).put (AXS_STATUS_STOPPING m) 0).setReg (AXS_VEL m) 0
  s.axMod m fun x => { x with v := 0, acc := 0, cyc := 0, held := 0, decel := false, endFault := x.endFault || bad }

/-- A limit input (1 LIMP, 2 LIMN) enabled and accepted active (R321). -/
def Dev.axLimit (s : Dev) (m : Axis) (i : Nat) : Bool :=
  bit (s.get (AXS_LIM_CFG_LIM_EN m)) i && bit (s.reg (AXS_INPUTS m)) i

/-- The index of the home input in AXS_m_INPUTS: HOME 0, LIMP 1, LIMN 2 (R322, HOME_CFG.SRC). -/
def Dev.axHomeInput (s : Dev) (m : Axis) : Nat :=
  match s.get (AXS_HOME_CFG_SRC m) with
  | 1 => 2
  | 2 => 1
  | _ => 0

/-- Whether a limit stands active in the direction of motion; in homing the home input does not count (R321, R324). -/
def Dev.axBlocked (s : Dev) (m : Axis) (positive homing : Bool) : Bool :=
  let i := if positive then 1 else 2
  s.axLimit m i && !(homing && s.axHomeInput m == i)

/-- A move or phase toward `goal` begins: DIR, V = VMIN and the level (R309, R313, R314). -/
def axGo (m : Axis) (goal : Int) (s : Dev) : Dev :=
  let pos := s.axPos m
  let x := vat s.axes m
  let near := decide ((goal - pos).natAbs < 256)
  let l := if near || pos % 256 ≠ 0 then fitLevel x.levelDes (goal - pos) else s.get (AXS_STATUS_MS_LEVEL m)
  let s := ((s.put (AXS_STATUS_DIR m) (b2n (decide (goal < pos)))).put (AXS_STATUS_MOVING m) 1).put
    (AXS_STATUS_MS_LEVEL m) l
  let v := rateLimit (s.axVmin m) l
  s.axMod m fun x => { x with v := v, acc := 0, cyc := 0, held := 0, goal := goal, decel := false }

/-- The effective target under the soft limits, and whether the move ends at once (R319). -/
def Dev.axSoft (s : Dev) (m : Axis) (t : Int) : Int × Bool × Bool :=
  if s.on (AXS_CTRL_SOFT_EN m) then
    let lo := s.regS (AXS_SOFT_MIN m)
    let hi := s.regS (AXS_SOFT_MAX m)
    let pos := s.axPos m
    let further := (hi < pos && pos < t) || (pos < lo && t < pos)
    let c := clampI lo hi t
    (if further then pos else c, decide (c ≠ t), further)
  else (t, false, false)

/-- A move to `t` starts at rest (R315, R319, R321). A disabled axis takes the target and stays at rest (R306). -/
def axStart (m : Axis) (t : Int) (s : Dev) : Dev :=
  let s := s.setRegS (AXS_TARGET m) t
  if !s.on (AXS_CTRL_EN m) then s else
  let (goal, clamped, _) := s.axSoft m t
  let s := if clamped then axisFault m (AXS_FLAGS_SOFT_LIMIT m) 0x6C s else s
  let pos := s.axPos m
  if goal = pos then s
  else if s.axBlocked m (decide (pos < goal)) false then axisFlag m (AXS_FLAGS_LIMIT_BLOCK m) s
  else axGo m goal s

/-- After a move or a successful homing sequence at rest: the pending target starts (R315, R316). -/
def axNext (m : Axis) (s : Dev) : Dev :=
  if s.on (AXS_STATUS_MOVE_PENDING m) then
    axStart m (s.regS (AXS_PENDING m)) (s.put (AXS_STATUS_MOVE_PENDING m) 0)
  else s

/-- Homing fails (R324): HSTATE 6, HOMED 0, the cause, and the flag with its fault; the pending target is discarded. -/
def axHomeFail (m : Axis) (cause : Nat) (s : Dev) : Dev :=
  let s := ((s.put (AXS_STATUS_HSTATE m) 6).put (AXS_STATUS_HOMED m) 0).put (AXS_STATUS_HCAUSE m) cause
  let s := s.axMod m fun x => { x with endFault := true }
  let s := if cause = 1 then axisFault m (AXS_FLAGS_HOMING_LIMIT m) 0x6A s
    else axisFault m (AXS_FLAGS_HOMING_FAIL m) 0x6B s
  axDropPending m false s

/-- The seek direction: +1 or −1 (HOME_CFG.DIR). -/
def Dev.axSeekSign (s : Dev) (m : Axis) : Int := if s.on (AXS_HOME_CFG_DIR m) then 1 else -1

/-- A homing phase begins from rest or from the phase before it (R322). -/
def axPhase (m : Axis) (k : Nat) (s : Dev) : Dev :=
  let pos := s.axPos m
  let sg := if k = 2 then -s.axSeekSign m else s.axSeekSign m
  let dist : Int := match k with
    | 1 | 2 => s.reg (AXS_HOME_MAXDIST m)
    | 3 => s.reg (AXS_HOME_BACKOFF m) + s.reg (AXS_HOME_MAXDIST m)
    | _ => s.reg (AXS_HOME_IDXDIST m)
  let s := s.put (AXS_STATUS_HSTATE m) k
  let s := s.axMod m fun x => { x with released := false }
  if s.axBlocked m (decide (0 < sg)) true then axHomeFail m 1 (axRest m true s)
  else axGo m (pos + sg * dist) s

/-- The deceleration to rest that ends seek, approach and index (R322). -/
def axDecel (m : Axis) (s : Dev) : Dev := s.axMod m fun x => { x with decel := true }

/-- Done: the axis is at rest in machine coordinates (R323). -/
def axHomed (m : Axis) (s : Dev) : Dev :=
  let x := vat s.axes m
  let pos := s.axPos m
  let s := axRest m false s
  let s := s.setRegS (AXS_POS m) (s.regS (AXS_HOME_POS m) + (pos - x.reference))
  let s := (s.put (AXS_STATUS_HOMED m) 1).put (AXS_STATUS_HSTATE m) 5
  axNext m (s.setRegS (AXS_HOME_LATCH m) x.reference)

/-- The home input is accepted at a level during homing (R322). -/
def axHomeInputAccepted (m : Axis) (active : Bool) (latch : Int) (s : Dev) : Dev :=
  match s.get (AXS_STATUS_HSTATE m) with
  | 1 => if active then axDecel m s else s
  | 2 =>
    if active || (vat s.axes m).released then s
    else s.axMod m fun x =>
      { x with released := true, goal := s.axPos m - s.axSeekSign m * (s.reg (AXS_HOME_BACKOFF m) : Int) }
  | 3 =>
    if active then
      let s := (s.axMod m fun x => { x with reference := latch }).setRegS (AXS_HOME_LATCH m) latch
      if s.on (AXS_HOME_CFG_IDX_EN m) then axPhase m 4 s
      else axDecel m (s.put (AXS_STATUS_HSTATE m) 5)
    else s
  | _ => s

/-- Pin feedback channel `c` latches an index: an axis in its index phase on that channel takes its position as the
reference (R322). -/
def axIndex (c : PinChannel) (m : Axis) (s : Dev) : Dev :=
  if s.axHoming m && s.get (AXS_STATUS_HSTATE m) == 4 && s.get (AXS_HOME_CFG_FB_CH m) == c.val
      && !(vat s.axes m).decel then
    let p := s.axPos m
    axDecel m (((s.axMod m fun x => { x with reference := p }).setRegS (AXS_HOME_LATCH m) p).put
      (AXS_STATUS_HSTATE m) 5)
  else s

/-- The move or homing phase has come to rest on its goal or under deceleration (R309, R322, R324). -/
def axArrived (m : Axis) (s : Dev) : Dev :=
  if s.axHoming m then
    let x := vat s.axes m
    match s.get (AXS_STATUS_HSTATE m) with
    | 1 => if x.decel then axPhase m 2 s else axHomeFail m 2 (axRest m true s)
    | 2 => if x.released then axPhase m 3 s else axHomeFail m 2 (axRest m true s)
    | 3 => axHomeFail m 2 (axRest m true s)
    | 4 => axHomeFail m 3 (axRest m true s)
    | _ => axHomed m s
  else axNext m (axRest m false s)

/-- One step is issued (R307, R309, R312, R313): the position moves by MULT, the move ends on its goal or under
deceleration at VMIN, and at an aligned position the level changes. -/
def axStep (m : Axis) (acc cyc held : Nat) (s : Dev) : Dev :=
  let x := vat s.axes m
  let l := s.get (AXS_STATUS_MS_LEVEL m)
  let pos := s.axPos m + s.axSign m * (stepMult l : Int)
  let stopping := s.on (AXS_STATUS_STOPPING m) || x.decel
  let s := s.setRegS (AXS_POS m) pos
  let s := s.axMod m fun x => { x with acc := acc, cyc := cyc, held := held }
  if pos = x.goal || (stopping && x.v ≤ s.axVmin m) then axArrived m s
  else if pos % 256 = 0 then
    let dist := x.goal - pos
    let new := if dist.natAbs < 256 then fitLevel x.levelDes dist else x.levelDes
    (s.put (AXS_STATUS_MS_LEVEL m) new).axMod m fun x => { x with acc := x.acc * stepMult l / stepMult new }
  else s

/-- The phase accumulator overflows (R307): a held carry is issued first (R308); otherwise the carry falls after the
cycles that INC needs, if they lie within the current microsecond. No step while EN_DELAY runs (R306). -/
def axCarry (m : Axis) (s : Dev) : Dev :=
  let x := vat s.axes m
  if !s.axRunning m || !x.enReady then s
  else if 0 < x.held then axStep m x.acc x.cyc (x.held - 1) s
  else
    let inc := axInc x.v (s.get (AXS_STATUS_MS_LEVEL m))
    let n := divUp (2 ^ 48 - x.acc) inc
    if inc = 0 || 250 < x.cyc + n then s
    else axStep m (x.acc + n * inc - 2 ^ 48) (x.cyc + n) 0 s

/-- STOP (R317): STOPPING; a homing sequence fails with cause STOPPED. -/
def axStop (m : Axis) (s : Dev) : Dev :=
  if !s.axRunning m then axDropPending m false s
  else
    let s := if s.axHoming m then axHomeFail m 4 s else axDropPending m false s
    (s.put (AXS_STATUS_STOPPING m) 1).axMod m fun x => { x with endFault := true }

/-- HALT (R317): no further step, V 0 at once; a homing sequence fails with cause STOPPED. -/
def axHalt (m : Axis) (s : Dev) : Dev :=
  if !s.axRunning m then axDropPending m false s
  else
    let s := if s.axHoming m then axHomeFail m 4 s else axDropPending m false s
    axRest m true s

/-- HOME (R317, R322): only at rest with EN = 1, and not while the Treadle drives the axis (R325). -/
def axHome (m : Axis) (s : Dev) : Dev :=
  if s.axRunning m || !s.on (AXS_CTRL_EN m) || s.axOwned m then axisFlag m (AXS_FLAGS_WRITE_LOCKED m) s
  else
    let s := ((s.put (AXS_STATUS_HOMED m) 0).put (AXS_STATUS_HCAUSE m) 0).axMod m fun x => { x with endFault := false }
    axPhase m (if bit (s.reg (AXS_INPUTS m)) (s.axHomeInput m) then 2 else 1) s

/-- A write of TARGET by the host or, with `own`, by the Treadle (R315, R325). -/
def axTarget (m : Axis) (v : Nat) (own : Bool) (s : Dev) : Dev :=
  if s.axOwned m && !own then axisFlag m (AXS_FLAGS_WRITE_LOCKED m) s
  else if s.axRunning m then (s.setReg (AXS_PENDING m) v).put (AXS_STATUS_MOVE_PENDING m) 1
  else axStart m (sx 32 v) (s.axMod m fun x => { x with endFault := false })

/-- A write of CTRL (R306, R318): ignored while the axis runs. -/
def axCtrl (m : Axis) (v : Nat) (s : Dev) : Dev :=
  if s.axRunning m then axisFlag m (AXS_FLAGS_WRITE_LOCKED m) s
  else
    let was := s.on (AXS_CTRL_EN m)
    let s := s.setReg (AXS_CTRL m) (v % 256)
    if s.on (AXS_CTRL_EN m) && was then s else s.axMod m fun x => { x with enReady := false }

/-- EN_DELAY µs have passed since EN went active (R306). -/
def axEnDelay (m : Axis) (s : Dev) : Dev :=
  if s.on (AXS_CTRL_EN m) then s.axMod m fun x => { x with enReady := true } else s

/-- The latch register of an input: HOME_LATCH for HOME, LIM_LATCH for LIMP and LIMN (R320). -/
def axLatchReg (m : Axis) (i : Fin 3) : Nat := if i = 0 then AXS_HOME_LATCH m else AXS_LIM_LATCH m

/-- A limit is accepted active in the direction of motion (R321, R324). -/
def axTrip (m : Axis) (s : Dev) : Dev :=
  let s := axRest m true s
  axDropPending m false (axisFault m (AXS_FLAGS_LIMIT_TRIP m) 0x68 s)

/-- An input's raw change away from its accepted level has held for FILT and is accepted (R320 to R322, R324). -/
def axAccept (m : Axis) (i : Fin 3) (s : Dev) : Dev :=
  match vat (vat s.axes m).edge i with
  | none => s
  | some _ =>
    let active := !bit (s.reg (AXS_INPUTS m)) i.val
    let s := s.setReg (AXS_INPUTS m) (setBit (s.reg (AXS_INPUTS m)) i.val active)
    let s := s.axMod m fun x => { x with edge := vput x.edge i none }
    let on := bit (s.get (AXS_LIM_CFG_LIM_EN m)) i.val
    let homing := s.axHoming m
    if homing && s.axHomeInput m == i.val then
      if on then axHomeInputAccepted m active (s.regS (axLatchReg m i)) s else s
    else if on && active && s.axRunning m
        && ((i.val == 1 && !s.on (AXS_STATUS_DIR m)) || (i.val == 2 && s.on (AXS_STATUS_DIR m))) then
      if homing then axHomeFail m 1 (axRest m true s) else axTrip m s
    else s

/-- The first raw change of an input away from its accepted level latches the position (R320); with FILT = 0 the change
is accepted in the same cycle. -/
def axFirstEdge (m : Axis) (i : Fin 3) (s : Dev) : Dev :=
  match vat (vat s.axes m).edge i with
  | some _ => s
  | none =>
    let old := s.reg (axLatchReg m i)
    let inputs := s.reg (AXS_INPUTS m)
    let s := s.setReg (AXS_INPUTS m) (setBit inputs (i.val + 4) (!bit inputs i.val))
    let s := (s.setRegS (axLatchReg m i) (s.axPos m)).axMod m fun x => { x with edge := vput x.edge i (some old) }
    if s.get (AXS_LIM_CFG_FILT m) = 0 then axAccept m i s else s

/-- An input returns before FILT has elapsed (R320): the latch is discarded and CHATTER counts. -/
def axChatter (m : Axis) (i : Fin 3) (s : Dev) : Dev :=
  match vat (vat s.axes m).edge i with
  | none => s
  | some old =>
    let inputs := s.reg (AXS_INPUTS m)
    let s := s.setReg (AXS_INPUTS m) (setBit inputs (i.val + 4) (bit inputs i.val))
    let s := (s.setReg (axLatchReg m i) old).axMod m fun x => { x with edge := vput x.edge i none }
    let s := s.count (AXS_CHATTER m) 1
    let thr := s.reg (AXS_CHAT_THR m)
    if thr ≠ 0 && s.reg (AXS_CHATTER m) == thr then axisFault m (AXS_FLAGS_CHATTER m) 0x69 s else s

end Sys2Proof.Machine
end

