-- ==== Sys2Proof/Machine/Outbox.lean ====
section
/-!
DEFINITION. Frames of the device's own: the header (R478), the transmit queue (R410, R480) and the job messages that the
Treadle sends (R82, R84).
-/
namespace Sys2Proof.Machine

open Reg

/-- The upstream port: N0 unless the device is reversed (R475). -/
def Dev.upstream (s : Dev) : Port := if s.on NET_STATUS_REVERSED then 1 else 0

/-- The downstream port. -/
def Dev.downstream (s : Dev) : Port := if s.on NET_STATUS_REVERSED then 0 else 1

/-- SRC of the device's frames: its address, or 0xFE without one (R478). -/
def Dev.srcAddr (s : Dev) : Nat := if s.on NET_STATUS_ADDR_VALID then s.get NET_STATUS_ADDR else 0xFE

/-- A change of one chain port. -/
def Dev.portMod (s : Dev) (p : Port) (f : ChainPort → ChainPort) : Dev :=
  { s with chain := { s.chain with ports := vmod s.chain.ports p f } }

/-- A frame of the device's own queued on port `p` (R480, R481). -/
def queueOwn (p : Port) (f : Frame) (s : Dev) : Dev := s.portMod p fun x => { x with ownQ := x.ownQ ++ [f] }

/-- A frame the device originates toward the host, with its next sequence number (R478, R480). -/
def sendHost (kind : Nat) (payload : List Byte) (done : Export) (s : Dev) : Dev :=
  let f : Frame := ⟨.own, kind, 0, s.srcAddr, 0, s.chain.seqNo, payload, done⟩
  queueOwn s.upstream f { s with chain := { s.chain with seqNo := (s.chain.seqNo + 1) % 2 ^ 32 } }

/-- A reply carries the sequence number of its request (R478). -/
def sendReply (kind seqNo : Nat) (payload : List Byte) (s : Dev) : Dev :=
  queueOwn s.upstream ⟨.own, kind, 0, s.srcAddr, 0, seqNo, payload, .none⟩ s

/-- A job message: type, sequence number, 16 bits of 0, fields (R82). -/
def sendJob (typ : Nat) (fields : List Byte) (done : Export) (s : Dev) : Dev :=
  let p := leBytes 1 typ ++ leBytes 1 s.chain.msgSeq ++ leBytes 2 0 ++ fields
  sendHost 2 p done { s with chain := { s.chain with msgSeq := (s.chain.msgSeq + 1) % 256 } }

/-- LAYER_ACK (R82, R84): status 0 RECEIVED, 1 ACCEPTED, 2 REJECTED, 3 RESEND, 4 BUSY, 5 SLOT_FREE. -/
def layerAck (job layer next status code : Nat) (s : Dev) : Dev :=
  sendJob 0x20 (leBytes 4 job ++ leBytes 4 layer ++ leBytes 4 next ++ leBytes 1 status ++ leBytes 1 code ++ leBytes 2 0)
    .none s

/-- k_p in force. -/
def Dev.pauseTick (s : Dev) : Nat := s.reg TRD_PAUSE_TICK_LO + s.reg TRD_PAUSE_TICK_HI % 256 * 2 ^ 32

/-- STATE (R82): the value of TRD_STATE, the layer number, k_p. -/
def stateMessage (s : Dev) : Dev :=
  sendJob 0x21 (leBytes 4 (s.reg TRD_STATE) ++ leBytes 4 (s.reg TRD_LAYER) ++ leBytes 8 s.pauseTick) .none s

end Sys2Proof.Machine
end

