-- ==== Sys2Proof/Machine/TreadleOps.lean ====
section
/-!
DEFINITION. The Treadle's own operations: state changes (R65), layer slots (R66), start times (R68), pauses and aborts
(R77 to R81), and the reactions to events (R635, R636), which reach the Treadle in the command of their occurrence.
-/
namespace Sys2Proof.Machine

open Reg

/-! ### States (R63) -/

abbrev tIdle : Nat := 0
abbrev tArmed : Nat := 1
abbrev tPrep : Nat := 2
abbrev tRecoat : Nat := 3
abbrev tBed : Nat := 4
abbrev tScan : Nat := 5
abbrev tClose : Nat := 6
abbrev tPaused : Nat := 7
abbrev tAborted : Nat := 8

/-- TRD_STATE.STATE. -/
def Dev.trdState (s : Dev) : Nat := s.get TRD_STATE_STATE

/-- The state, or in PAUSED the state to return to (R132 and others speak of "PAUSED with return state"). -/
def Dev.trdStage (s : Dev) : Nat := if s.trdState = tPaused then s.get TRD_STATE_RETURN_STATE else s.trdState

/-- A change of the Treadle's state beside its registers. -/
def Dev.trdMod (s : Dev) (f : Treadle → Treadle) : Dev := { s with trd := f s.trd }

/-- The event a state change raises (R86): SCAN_START, SCAN_END, PAUSED, ABORTED. -/
def stateEvent (st : Nat) (s : Dev) : Dev :=
  match st with
  | 5 => occur 99 0xFF 0 s
  | 6 => occur 100 0xFF 0 s
  | 7 => occur 102 0xFF 0 s
  | 8 => occur 104 0xFF 0 s
  | _ => s

/-- A change of state (R65, R87, R584): the registers, the commits of the layer boundary, the log record, the STATE
message and the event; `ev` is false where SCAN is resumed rather than begun. -/
def trdEnter (st : Nat) (ev : Bool) (s : Dev) : Dev :=
  let s := s.put TRD_STATE_STATE st
  let s := if st = tPaused || st = tBed then s else (s.put TRD_STATE_WAIT_START 0).put TRD_STATE_WAIT_SCHED 0
  let s := if st = tScan then s else (s.setReg TRD_TICK_LO 0).setReg TRD_TICK_HI 0
  let s := if st = tArmed || st = tPrep then s.commit .layerTrd 0 (2 ^ 32) else s
  let s := if st = tPrep then s.commit .layer 0 (2 ^ 32) else s
  let s := stage (s.logRec 3 (s.reg TRD_STATE)
    [s.reg TRD_LAYER, s.reg TRD_PAUSE_TICK_LO, s.reg TRD_PAUSE_TICK_HI % 256] false) s
  let s := stateMessage s
  if ev then stateEvent st s else s

/-! ### Slots (R66, R89) -/

/-- The address of TRD_SLOTi_STATUS. -/
def slotStatus (i : Slot) : Nat := TRD_SLOT0_STATUS + 4 * i.val

def Dev.slotState (s : Dev) (i : Slot) : Nat := bits (s.reg (slotStatus i)) 2 0

/-- The slot of the active layer. -/
def Dev.activeSlot (s : Dev) : Slot := ⟨s.get TRD_STATE_ACTIVE_SLOT % 3, Nat.mod_lt _ (by decide)⟩

/-- A layer is active: its slot is ACTIVE (R66). -/
def Dev.layerActive (s : Dev) : Bool := s.slotState s.activeSlot == 5

def Dev.slotMod (s : Dev) (i : Slot) (f : LayerSlot → LayerSlot) : Dev :=
  s.trdMod fun t => { t with slots := vmod t.slots i f }

/-- The slot status word shows the state and whether a start time is held. -/
def setSlotState (i : Slot) (st : Nat) (s : Dev) : Dev :=
  s.setReg (slotStatus i) (putBits (putBits (s.reg (slotStatus i)) 2 0 st) 3 3
    (b2n ((vat s.trd.slots i).start.isSome && decide (st ≠ 0) && decide (st ≠ 6))))

/-- A start time held for the slot's layer, or none (R66, R68). The active layer's is shown in TRD_START. -/
def setStart (i : Slot) (t : Option StartTime) (s : Dev) : Dev :=
  let s := s.slotMod i fun x => { x with start := t }
  let s := setSlotState i (s.slotState i) s
  if s.layerActive && s.activeSlot == i then
    let (sec, ns) := t.getD (0, 0)
    ((s.setReg TRD_START_NS ns).setReg TRD_START_SEC_LO sec).setReg TRD_START_SEC_HI (sec / 2 ^ 32 % 2 ^ 16)
  else s

/-- The slot becomes FAILED (R66): its start time is dropped in the same cycle. -/
def failSlot (i : Slot) (s : Dev) : Dev :=
  let s := s.slotMod i fun x => { x with start := none, missed := false, cipher := [] }
  setSlotState i 6 s

/-- A slot is armed: VALID or later and with an accepted start time (R63). -/
def Dev.slotArmed (s : Dev) (i : Slot) : Bool :=
  2 ≤ s.slotState i && s.slotState i ≤ 5 && (vat s.trd.slots i).start.isSome

/-- The next layer: the lowest layer number among the slots VALID to ALLOCATED (R67). -/
def Dev.nextSlot (s : Dev) : Option Slot :=
  (List.finRange 3).foldl (fun best i =>
    if 2 ≤ s.slotState i && s.slotState i ≤ 4 then
      match best with
      | none => some i
      | some b => if (vat s.trd.slots i).layerNo < (vat s.trd.slots b).layerNo then some i else best
    else best) none

/-- The next layer counts as armed for the way to BED_IMAGE also after it has missed a start time (R69). -/
def Dev.slotReady (s : Dev) (i : Slot) : Bool := s.slotArmed i || (vat s.trd.slots i).missed

/-- IDLE is left for ARMED when a layer is armed (R64). -/
def trdArm (s : Dev) : Dev :=
  if s.trdState = tIdle && (match s.nextSlot with | some i => s.slotReady i | none => false) then trdEnter tArmed true s
  else s

/-- E98 when a layer becomes armed (R86). -/
def armedEvent (i : Slot) (s : Dev) : Dev := trdArm (if s.slotArmed i then occur 98 i.val 0 s else s)

/-! ### Start times (R25, R68) -/

/-- A time in ns from second 0. -/
def stNanos (t : StartTime) : Nat := t.1 * 1000000000 + t.2

/-- The checks of R68 and R25 on a start or resume time: a period boundary, at least TRD_ARM_LEAD after receipt. -/
def Dev.timeOk (s : Dev) (t : StartTime) : Bool :=
  decide (t.2 % 2000 = 0) && decide (t.2 < 1000000000) && decide (t.1 < 2 ^ 48) &&
    decide (s.t0.nanos + s.reg TRD_ARM_LEAD * 1000 ≤ stNanos t)

/-- A start or resume time is refused: fault SCHED_REFUSED, the sticky flag and E106 (R68, R79, R86). -/
def schedRefused (inst : Nat) (s : Dev) : Dev := faultEvent 0x34 sevInfo inst 106 (s.put TRD_STATUS_SCHED_REFUSED 1)

/-- The start time of the active layer in ns of T0. -/
def Dev.layerStart (s : Dev) : Nat :=
  (s.reg TRD_START_SEC_LO + s.reg TRD_START_SEC_HI % 2 ^ 16 * 2 ^ 32) * 1000000000 + s.reg TRD_START_NS

/-- The schedule value of the current tick (R26), 0 before the start time. -/
def Dev.schedTick (s : Dev) : Nat := (s.t0.nanos - s.layerStart) / 500

/-! ### Axes -/

/-- A moving axis decelerates to rest (R78, R81, R325): as STOP, but not a stop by the host. -/
def axEase (s : Dev) (m : Axis) : Dev :=
  if s.axRunning m then
    let bad := (vat s.axes m).endFault
    (axStop m s).axMod m fun x => { x with endFault := bad }
  else s

def easeAll (s : Dev) : Dev := (List.finRange 8).foldl axEase s

/-! ### Shuttles at an abort -/

/-- The station blanks in its next downlink slot and its galvos go to the park set-points (R81). -/
def shtPark (x : Shuttle) : Shuttle :=
  { x with queue := [], vias := [], viaSpeed := 0, plan := [], trail := [], started := false, pos := 0, v := 0, a := 0,
           ramp := none, easing := none, tail := none, sawEnd := false, intr := none, stopping := false,
           slowSince := none, comps := [], pulsed := 0, offs := [], blank := true, held := false, stopAt := none,
           parking := true, zoff := 0, bpts := [], sAct := [], actBreak := true, repicking := false }

/-! ### Pausing and aborting (R77 to R81) -/

/-- The pause tick in force in SCAN (R77): k_p, or the next period boundary. -/
def Dev.pauseChoice (s : Dev) (kp : Nat) : Nat :=
  let k := s.schedTick
  if kp = 0 || kp % 4 ≠ 0 || kp ≤ k || 2 ^ 40 ≤ kp then (k / 4 + 1) * 4 else kp

/-- PAUSED is entered with the state it returns to. -/
def enterPaused (ret : Nat) (s : Dev) : Dev := trdEnter tPaused true (s.put TRD_STATE_RETURN_STATE ret)

/-- PAUSE (R77, R78). `gate` is an EMIT_GATE_N drop (R164), which also comes before a pause that waits for later. -/
def trdPause (kp : Nat) (gate : Bool) (s : Dev) : Dev :=
  match s.trdState with
  | 5 =>
    let next := (s.schedTick / 4 + 1) * 4
    let waits := match s.trd.pauseAt with
      | none => false
      | some k => !(gate && next < k)
    if waits then s
    else
      let k := s.pauseChoice kp
      let s := (s.setReg TRD_PAUSE_TICK_LO (k % 2 ^ 32)).setReg TRD_PAUSE_TICK_HI (k / 2 ^ 32 % 256)
      s.trdMod fun t => { t with pauseAt := some k }
  | 6 => s.trdMod fun t => { t with pauseCmd := true }
  | 7 => s
  | 8 => s
  | 3 => enterPaused tRecoat (easeAll s)
  | st => enterPaused st s

/-- ABORT (R80, R81): pending pauses are discarded, stations blanked and parked, axes stopped, slots FAILED. -/
def trdAbort (s : Dev) : Dev :=
  if s.trdState = tAborted then s
  else
    let s := s.trdMod fun t =>
      { t with pauseAt := none, pauseCmd := false, pauseReact := false, pauseOrphan := false, resumeAt := none,
               recoatStep := 0, imagesLeft := 0, imaged := false }
    let s := easeAll s
    let s := (List.finRange 3).foldl (fun t i => if t.slotState i = 0 then t else failSlot i t) s
    let s := { s with sht := Vector.ofFn fun n => shtPark (vat s.sht n) }
    trdEnter tAborted true s

/-- CLEAR (R81): only in ABORTED. -/
def trdClear (s : Dev) : Dev := if s.trdState = tAborted then trdArm (trdEnter tIdle true s) else s

/-! ### Reactions (R635, R636) -/

/-- A reaction is taken (R636). -/
def reactTaken (s : Dev) : Dev := s.count EVT_REACTIONS 1

/-- One reaction: 1 PAUSE, 2 PAUSE pending, 3 ABORT. -/
def react (r : Nat) (s : Dev) : Dev :=
  let st := s.trdState
  if st = tAborted || (st = tPaused && r ≠ 3) then s.put EVT_FLAGS_REACT_IGNORED 1
  else if r = 3 then trdAbort (reactTaken s)
  else if r = 2 && (st = tScan || st = tClose) then (reactTaken s).trdMod fun t => { t with pauseReact := true }
  else trdPause 0 false ((reactTaken s).trdMod fun t => { t with pauseReact := false })

/-- The reactions of the instant, in order, and those of the events that they raise; the first argument bounds them. -/
def settleN : Nat → Dev → Dev
  | 0, s => s
  | k + 1, s =>
    match s.ev.reacts with
    | [] => s
    | r :: t => settleN k (react r { s with ev := { s.ev with reacts := t } })

/-- Every reaction of the command has been taken (R636). A command raises far fewer than the bound. -/
def settle (s : Dev) : Dev := settleN 64 s

end Sys2Proof.Machine
end

