-- ==== Sys2Proof/Machine/Act.lean ====
section
/-!
DEFINITION. How a command acts: on the device while the clock of the domain it lives in runs (R40, R49, R509), and with
the reactions of its events taken in the same command (R636).
-/
namespace Sys2Proof.Machine

open Reg

/-- The outcome of every command: a next state. -/
abbrev Done := Host.Outcome State Fault Refusal

/-- The clock of domain `d` of R40 runs, and PORST_N is high. -/
def Dev.runs (d : Nat) (s : Dev) : Bool := !s.start.porstLow && bit (s.reg CLK_LIVE) d

abbrev domAon : Nat := 0
abbrev domFab : Nat := 1
abbrev domMch : Nat := 2
abbrev domXspi : Nat := 14

/-- `f` on the device and the reactions that follow, while domain `d` runs; otherwise nothing happens
(DEDUCED, log entries 5 and 6). -/
def actIn (d : Nat) (f : Dev → Dev) (s : State) : Done :=
  .next { s with dev := if s.dev.runs d then settle (f s.dev) else s.dev }

/-- A command that lives in the FAB domain. -/
def actFab (f : Dev → Dev) (s : State) : Done := actIn domFab f s

/-- A command that lives in the MCH domain. -/
def actMch (f : Dev → Dev) (s : State) : Done := actIn domMch f s

/-- A command that lives in the AON domain. -/
def actAon (f : Dev → Dev) (s : State) : Done := actIn domAon f s

end Sys2Proof.Machine
end

