-- ==== Sys2Proof/Machine/Axes.lean ====
section
/-!
DEFINITION. The commands of the mechanical axes (R305 to R326).
-/
namespace Sys2Proof.Machine

/-- A write of AXS_m_TARGET (R315, R316, R319, R321). -/
def execAxisTargetWrite (m : Axis) (w : Word) (s : State) : Done := actMch (axTarget m w.toNat false) s

/-- AXS_m_CMD STOP (R317). -/
def execAxisStop (m : Axis) (s : State) : Done := actMch (axStop m) s

/-- AXS_m_CMD HALT (R317). -/
def execAxisHalt (m : Axis) (s : State) : Done := actMch (axHalt m) s

/-- AXS_m_CMD HOME (R317, R322). -/
def execAxisHome (m : Axis) (s : State) : Done := actMch (axHome m) s

/-- AXS_m_CMD CLEAR_PENDING (R316). -/
def execClearPending (m : Axis) (s : State) : Done := actMch (axDropPending m true) s

/-- A write of AXS_m_CTRL, whose EN drives the drive enable (R306, R318). -/
def execAxisEnable (m : Axis) (w : Word) (s : State) : Done := actMch (axCtrl m w.toNat) s

/-- EN_DELAY has passed since EN went active (R306). -/
def execEnDelayExpired (m : Axis) (s : State) : Done := actMch (axEnDelay m) s

/-- The profile's microsecond (R309, R311). -/
def execProfileUpdate (m : Axis) (s : State) : Done := actMch (axProfile m) s

/-- The phase accumulator overflows (R307, R308, R312, R313). -/
def execStepCarry (m : Axis) (s : State) : Done := actMch (axCarry m) s

/-- The first raw edge of an input (R320). -/
def execInputFirstEdge (m : Axis) (input : Fin 3) (s : State) : Done := actMch (axFirstEdge m input) s

/-- An input is accepted (R320 to R324). -/
def execInputAccepted (m : Axis) (input : Fin 3) (s : State) : Done := actMch (axAccept m input) s

/-- An input returns before FILT (R320). -/
def execLimitChatter (m : Axis) (input : Fin 3) (s : State) : Done := actMch (axChatter m input) s

end Sys2Proof.Machine
end

