-- ==== Sys2Proof/Machine/Crypto.lean ====
section
/-!
DEFINITION. The published algorithms that the spec names without restating them: SHA-384 (FIPS 180-4), AES-256 (FIPS
197), GCM (NIST SP 800-38D, R54), the AES key unwrap (RFC 3394, R419) and ECDSA over P-384 (FIPS 186-5, R519). PRESUMED
from those standards, log entry 20.
-/
namespace Sys2Proof.Machine

/-! ### SHA-384 -/

/-- The largest natural whose cube is at most `n`, by bits. -/
def icbrtGo (n : Nat) : Nat → Nat → Nat
  | 0, r => r
  | k + 1, r => let t := r + 2 ^ k; icbrtGo n k (if t * t * t ≤ n then t else r)

/-- The first primes, by trial division. -/
def isPrime (n : Nat) : Bool := 2 ≤ n && (List.range (isqrt n + 1)).all fun d => d < 2 || n % d != 0

/-- The first 80 primes. -/
def primes80 : List Nat := ((List.range 410).filter isPrime).take 80

/-- The round constants: fractional parts of the cube roots of the first 80 primes. -/
def sha512K : List Nat := primes80.map fun p => icbrtGo (p * 2 ^ 192) 68 0 % 2 ^ 64

/-- The initial value of SHA-384: fractional parts of the square roots of the ninth to sixteenth primes. -/
def sha384Init : List Nat := ((primes80.drop 8).take 8).map fun p => isqrt (p * 2 ^ 128) % 2 ^ 64

/-- Rotate a 64-bit number right. -/
def rotr64 (x k : Nat) : Nat := (x / 2 ^ k + x * 2 ^ (64 - k)) % 2 ^ 64

def xor3 (a b c : Nat) : Nat := Nat.xor (Nat.xor a b) c

/-- The 80 message words, newest first, from the 16 of the block. -/
def sha512Sched : Nat → List Nat → List Nat
  | 0, w => w
  | k + 1, w =>
    let g (i : Nat) : Nat := w.getD (i - 1) 0
    let s0 := xor3 (rotr64 (g 15) 1) (rotr64 (g 15) 8) (g 15 / 2 ^ 7)
    let s1 := xor3 (rotr64 (g 2) 19) (rotr64 (g 2) 61) (g 2 / 2 ^ 6)
    sha512Sched k ((g 16 + s0 + g 7 + s1) % 2 ^ 64 :: w)

/-- One round. -/
def sha512Round (h : List Nat) (kw : Nat × Nat) : List Nat :=
  match h with
  | [a, b, c, d, e, f, g, hh] =>
    let s1 := xor3 (rotr64 e 14) (rotr64 e 18) (rotr64 e 41)
    let ch := Nat.xor (Nat.land e f) (Nat.land (2 ^ 64 - 1 - e) g)
    let t1 := hh + s1 + ch + kw.1 + kw.2
    let s0 := xor3 (rotr64 a 28) (rotr64 a 34) (rotr64 a 39)
    let maj := xor3 (Nat.land a b) (Nat.land a c) (Nat.land b c)
    [(t1 + s0 + maj) % 2 ^ 64, a, b, c, (d + t1) % 2 ^ 64, e, f, g]
  | _ => h

/-- A number from bytes, the first most significant. -/
def beNat (bs : List Byte) : Nat := bs.foldl (fun n b => n * 256 + b.toNat) 0

/-- `n` bytes of a number, the most significant first. -/
def beBytes (n x : Nat) : List Byte := (leBytes n x).reverse

/-- One 128-byte block. -/
def sha512Block (h : List Nat) (blk : List Byte) : List Nat :=
  let w := ((List.range 16).map fun i => beNat ((blk.drop (8 * i)).take 8)).reverse
  let ws := (sha512Sched 64 w).reverse
  List.zipWith (fun a b => (a + b) % 2 ^ 64) h ((List.zip sha512K ws).foldl sha512Round h)

/-- The blocks of a message of `n` blocks. -/
def sha512Blocks : Nat → List Nat → List Byte → List Nat
  | 0, h, _ => h
  | n + 1, h, m => sha512Blocks n (sha512Block h (m.take 128)) (m.drop 128)

/-- SHA-384 of bytes: 48 bytes. -/
def sha384 (m : List Byte) : List Byte :=
  let n := m.length
  let zeros := (239 - n % 128) % 128
  let padded := m ++ 0x80 :: (List.replicate zeros 0 ++ beBytes 16 (8 * n))
  ((sha512Blocks (padded.length / 128) sha384Init padded).take 6).flatMap (beBytes 8)

/-! ### AES-256 -/

/-- Multiplication by x in GF(2^8). -/
def xtime (a : Nat) : Nat := if 128 ≤ a then Nat.xor (a * 2 % 256) 0x1B else a * 2

/-- Multiplication in GF(2^8), over the low bits of `b`. -/
def gmulGo : Nat → Nat → Nat → Nat → Nat
  | 0, _, _, r => r
  | k + 1, a, b, r => gmulGo k (xtime a) (b / 2) (if b % 2 = 1 then Nat.xor r a else r)

def gmul (a b : Nat) : Nat := gmulGo 8 a b 0

/-- The inverse in GF(2^8): a^254, and 0 for 0. -/
def ginv (a : Nat) : Nat :=
  let p (x : Nat) : Nat := gmul x x
  let a2 := p a; let a4 := p a2; let a8 := p a4; let a16 := p a8; let a32 := p a16; let a64 := p a32; let a128 := p a64
  gmul a128 (gmul a64 (gmul a32 (gmul a16 (gmul a8 (gmul a4 a2)))))

def rotl8 (x k : Nat) : Nat := (x * 2 ^ k + x / 2 ^ (8 - k)) % 256

/-- The S-box. -/
def sboxOf (a : Nat) : Nat :=
  let b := ginv a
  Nat.xor (xor3 b (rotl8 b 1) (rotl8 b 2)) (xor3 (rotl8 b 3) (rotl8 b 4) 0x63)

def sboxTable : List Nat := (List.range 256).map sboxOf
def invSboxTable : List Nat := (List.range 256).map fun y => sboxTable.findIdx (· == y)
def sbox (a : Nat) : Nat := sboxTable.getD a 0
def invSbox (a : Nat) : Nat := invSboxTable.getD a 0

/-- Key expansion: words of four bytes, newest first. -/
def aesExpand : Nat → Nat → List (List Nat) → List (List Nat)
  | 0, _, w => w
  | f + 1, i, w =>
    let prev := w.headD []
    let old := w.getD 7 []
    let t := if i % 8 = 0 then
        match prev with
        | a :: t => List.zipWith Nat.xor ((t ++ [a]).map sbox) [Nat.repeat xtime (i / 8 - 1) 1, 0, 0, 0]
        | [] => []
      else if i % 8 = 4 then prev.map sbox else prev
    aesExpand f (i + 1) (List.zipWith Nat.xor old t :: w)

/-- Lists of `n` elements, from the front. -/
def chunks (n : Nat) : Nat → List Nat → List (List Nat)
  | 0, _ => []
  | k + 1, l => l.take n :: chunks n k (l.drop n)

/-- The 15 round keys of 16 bytes. -/
def aesKeys (key : List Byte) : List (List Nat) :=
  chunks 16 15 (aesExpand 52 8 (chunks 4 8 (key.map (·.toNat))).reverse).reverse.flatten

def shiftRows (s : List Nat) : List Nat := (List.range 16).map fun i => s.getD ((i + 4 * (i % 4)) % 16) 0
def invShiftRows (s : List Nat) : List Nat := (List.range 16).map fun i => s.getD ((i + 16 - 4 * (i % 4)) % 16) 0

/-- Every column multiplied by a circulant matrix with this first row. -/
def mixWith (m : List Nat) (s : List Nat) : List Nat :=
  (List.range 16).map fun i =>
    (List.range 4).foldl (fun acc j => Nat.xor acc (gmul (s.getD (i / 4 * 4 + j) 0) (m.getD ((j + 4 - i % 4) % 4) 0))) 0

def aesEncrypt (key blk : List Byte) : List Byte :=
  match aesKeys key with
  | k0 :: ks =>
    let s := List.zipWith Nat.xor (blk.map (·.toNat)) k0
    let mid := ks.dropLast.foldl (fun s k => List.zipWith Nat.xor (mixWith [2, 3, 1, 1] (shiftRows (s.map sbox))) k) s
    (List.zipWith Nat.xor (shiftRows (mid.map sbox)) (ks.getLastD [])).map (BitVec.ofNat 8)
  | [] => []

def aesDecrypt (key blk : List Byte) : List Byte :=
  match (aesKeys key).reverse with
  | k0 :: ks =>
    let s := List.zipWith Nat.xor (blk.map (·.toNat)) k0
    let mid := ks.dropLast.foldl
      (fun s k => mixWith [14, 11, 13, 9] (List.zipWith Nat.xor ((invShiftRows s).map invSbox) k)) s
    (List.zipWith Nat.xor ((invShiftRows mid).map invSbox) (ks.getLastD [])).map (BitVec.ofNat 8)
  | [] => []

/-! ### GCM -/

/-- Multiplication in GF(2^128), most significant bit first. -/
def gf128 : Nat → Nat → Nat → Nat → Nat
  | 0, _, _, z => z
  | k + 1, x, v, z =>
    gf128 k x (if v % 2 = 1 then Nat.xor (v / 2) (0xE1 * 2 ^ 120) else v / 2) (if x.testBit k then Nat.xor z v else z)

/-- GHASH over whole blocks. -/
def ghash (h : Nat) : Nat → List Byte → Nat → Nat
  | 0, _, y => y
  | n + 1, bs, y => ghash h n (bs.drop 16) (gf128 128 (Nat.xor y (beNat (bs.take 16))) h 0)

/-- Bytes padded with zeros to whole blocks. -/
def padBlock (bs : List Byte) : List Byte := bs ++ List.replicate ((16 - bs.length % 16) % 16) 0

/-- Counter mode from counter `c` under a 96-bit IV. -/
def gctr (key iv : List Byte) : Nat → Nat → List Byte → List Byte
  | 0, _, _ => []
  | n + 1, c, bs =>
    List.zipWith (fun (x y : Byte) => x ^^^ y) (bs.take 16) (aesEncrypt key (iv ++ beBytes 4 c)) ++
      gctr key iv n (c + 1) (bs.drop 16)

/-- The hash subkey. -/
def gcmSubkey (key : List Byte) : Nat := beNat (aesEncrypt key (List.replicate 16 0))

/-- The 128-bit tag over the additional data and the ciphertext. -/
def gcmTag (key iv aad ct : List Byte) : List Byte :=
  let m := padBlock aad ++ padBlock ct ++ beBytes 8 (8 * aad.length) ++ beBytes 8 (8 * ct.length)
  gctr key iv 1 1 (beBytes 16 (ghash (gcmSubkey key) (m.length / 16) m 0))

/-- The plaintext of a ciphertext. -/
def gcmPlain (key iv ct : List Byte) : List Byte := gctr key iv (ct.length / 16 + 1) 2 ct

/-! ### Key unwrap (RFC 3394) -/

/-- The unwrapping steps, `t` from 6 n down to 1: the register A and the n blocks. -/
def unwrapGo (kek : List Byte) (n : Nat) : Nat → List Byte → List (List Byte) → List Byte × List (List Byte)
  | 0, a, r => (a, r)
  | t + 1, a, r =>
    let i := t % n
    let b := aesDecrypt kek (beBytes 8 (Nat.xor (beNat a) (t + 1)) ++ r.getD i [])
    unwrapGo kek n t (b.take 8) (r.set i (b.drop 8))

/-- The key wrapped in 40 bytes, if its integrity value is right. -/
def aesUnwrap (kek wrapped : List Byte) : Option (List Byte) :=
  let n := wrapped.length / 8 - 1
  let r := (List.range n).map fun i => (wrapped.drop (8 * (i + 1))).take 8
  let (a, out) := unwrapGo kek n (6 * n) (wrapped.take 8) r
  if a = List.replicate 8 (0xA6 : Byte) then some out.flatten else none

/-! ### ECDSA over P-384 -/

def p384P : Nat := 2 ^ 384 - 2 ^ 128 - 2 ^ 96 + 2 ^ 32 - 1
def p384N : Nat := 0xffffffffffffffffffffffffffffffffffffffffffffffffc7634d81f4372ddf581a0db248b0a77aecec196accc52973
def p384B : Nat := 0xb3312fa7e23ee7e4988e056be3f82d19181d9c6efe8141120314088f5013875ac656398d8a2ed19d2a85c8edd3ec2aef
def p384G : Nat × Nat :=
  (0xaa87ca22be8b05378eb1c71ef320ad746e1d3b628ba79b9859f741e082542a385502f25dbf55296c3a545e3872760ab7,
   0x3617de4a96262c6f5d9e98bf9292dc29f8f41dbd289a147ce9da3113b5f0b8c00a60b1ce1d7e819d7a431d7c90ea0e5f)

/-- Modular power over the low `k` bits of the exponent. -/
def powMod (m : Nat) : Nat → Nat → Nat → Nat → Nat
  | 0, _, _, r => r
  | k + 1, b, e, r => powMod m k (b * b % m) (e / 2) (if e % 2 = 1 then r * b % m else r)

/-- The inverse modulo a prime below 2^384. -/
def invMod (m a : Nat) : Nat := powMod m 384 (a % m) (m - 2) 1

/-- Addition of points of the curve; none is the point at infinity. -/
def ecAdd : Option (Nat × Nat) → Option (Nat × Nat) → Option (Nat × Nat)
  | none, q => q
  | q, none => q
  | some (x1, y1), some (x2, y2) =>
    let p := p384P
    if x1 = x2 && (y1 + y2) % p = 0 then none
    else
      let l := if x1 = x2 then (3 * x1 * x1 + p - 3) * invMod p (2 * y1) % p
        else (y2 + p - y1) * invMod p (x2 + p - x1) % p
      let x := (l * l + 2 * p - x1 - x2) % p
      some (x, (l * (x1 + p - x) + p - y1) % p)

/-- Scalar multiple, over the low `k` bits. -/
def ecMul : Nat → Nat → Option (Nat × Nat) → Option (Nat × Nat) → Option (Nat × Nat)
  | 0, _, _, r => r
  | k + 1, e, q, r => ecMul k (e / 2) (ecAdd q q) (if e % 2 = 1 then ecAdd r q else r)

/-- The signature (r, s) over a message is valid for the public key (x, y). -/
def ecdsaValid (x y r s : Nat) (msg : List Byte) : Bool :=
  let n := p384N
  let p := p384P
  let onCurve := x < p && y < p && decide (y * y % p = (x * x * x + (p - 3) * x + p384B) % p)
  if !onCurve || r = 0 || n ≤ r || s = 0 || n ≤ s then false
  else
    let e := beNat (sha384 msg) % n
    let w := invMod n s
    match ecAdd (ecMul 384 (e * w % n) (some p384G) none) (ecMul 384 (r * w % n) (some (x, y)) none) with
    | some (px, _) => px % n == r
    | none => false

end Sys2Proof.Machine
end

