-- ==== Sys2Proof/Machine/CreelOps.lean ====
section
/-!
DEFINITION. The Creel's operations: bobbins (R407 to R414), scrubbing (R415, R416), and the secure partition: key loading
(R419, R420) and wipes (R421 to R423, R528).
-/
namespace Sys2Proof.Machine

open Reg

/-! ### Bobbins -/

def Dev.bobEn (s : Dev) (b : Nat) : Bool := s.on (CRLB_CFG_EN b)
def Dev.bobSize (s : Dev) (b : Nat) : Nat := s.reg (CRLB_SIZE b) % 0x100000
def Dev.bobBase (s : Dev) (b : Nat) : Nat := bits (s.reg (CRLB_BASE b)) 24 5 * 32

/-- FILL := (WR − RD) mod (2 × SIZE) (R407). -/
def Dev.bobFill (s : Dev) (b : Nat) : Nat :=
  let n := 2 * s.bobSize b
  if n = 0 then 0 else (s.get (CRLB_WR_WR b) + n - s.get (CRLB_RD_RD b)) % n

/-- The level of a bobbin (R411). -/
def Dev.bobLevel (s : Dev) (b : Nat) : Nat :=
  if s.get (CRLB_CFG_PANIC_SIDE b) = 2 then s.bobSize b - s.bobFill b else s.bobFill b

/-- The ring index of a pointer (R407). -/
def ringIndex (size p : Nat) : Nat := if p < size then p else p - size

/-- The Creel byte offset of the word at pointer `p` of bobbin `b`. -/
def Dev.bobAddr (s : Dev) (b p : Nat) : Nat := s.bobBase b + 32 * ringIndex (s.bobSize b) p

/-- An event that names its bobbin in CRL_EVT_BOBBIN (R424). -/
def bobEvent (b e code : Nat) (s : Dev) : Dev := occur e b code (s.setReg CRL_EVT_BOBBIN b)

/-- Watermarks and panic after a pointer step, from the level before it (R411). FILL is shown. -/
def bobCheck (b old : Nat) (s : Dev) : Dev :=
  let s := s.put (CRLB_FILL_FILL b) (s.bobFill b)
  let now := s.bobLevel b
  let hi := s.get (CRLB_HI_HI b)
  let lo := s.get (CRLB_LO_LO b)
  let ev := s.on (CRLB_CFG_WM_EVT b)
  let s := if old < hi && hi ≤ now then
      (let s := s.put (CRLB_STATUS_WM b) 1
       if ev then bobEvent b 38 0 s else s) else s
  let s := if lo < old && now ≤ lo then
      (let s := s.put (CRLB_STATUS_WM b) 1
       if ev then bobEvent b 39 0 s else s) else s
  let panicking := s.on (CRLB_STATUS_PANIC b)
  let on := s.on (CRLB_CFG_PANIC_EN b) && !s.crl.ended.contains b && decide (now ≤ s.get (CRLB_PANIC_PANIC_ON b))
  let off := !s.on (CRLB_CFG_PANIC_EN b) || s.crl.ended.contains b || decide (s.get (CRLB_PANIC_PANIC_OFF b) ≤ now)
  if panicking then (if off then s.put (CRLB_STATUS_PANIC b) 0 else s)
  else if on then bobEvent b 40 0 ((s.put (CRLB_STATUS_PANIC b) 1).put (CRLB_STATUS_PANIC_SEEN b) 1)
  else s

/-- The words of a record of `n` bytes. -/
def recWords (n : Nat) : Nat := divUp n 32

/-- Write the words of a record from pointer `p` on, each at its own ring place (R402, R407). -/
def bobStore (b : Nat) : Nat → Nat → List Byte → Dev → Dev
  | 0, _, _, s => s
  | k + 1, p, bs, s =>
    let w := bs.take 32
    let w := w ++ List.replicate (32 - w.length) 0
    bobStore b k ((p + 1) % (2 * s.bobSize b)) (bs.drop 32) (s.setCreelBytes (s.bobAddr b p) w)

/-- An overflow of a bobbin with policy DROP_NEW (R408). -/
def bobOverflow (b : Nat) (s : Dev) : Dev :=
  let s := (s.count (CRLB_OVF b) 1).put (CRLB_STATUS_OVF b) 1
  if s.crl.ovfSeen.contains b then s
  else bobEvent b 36 0x14 (fault 0x14 sevInfo b { s with crl := { s.crl with ovfSeen := b :: s.crl.ovfSeen } })

/-- OVERWRITE (R408): the oldest words go until `k` fit; the count of records lost is the count of advances of RD. -/
def bobMakeRoom (b k : Nat) (s : Dev) : Dev :=
  let n := s.bobSize b
  let need := k - (n - s.bobFill b)
  if need = 0 then s
  else (s.put (CRLB_RD_RD b) ((s.get (CRLB_RD_RD b) + divUp need k * k) % (2 * n))).count (CRLB_OVF b) (divUp need k)

/-- A producer offers one record (R408): whether it entered the ring. -/
def bobPush (b : Nat) (bs : List Byte) (s : Dev) : Bool × Dev :=
  let k := recWords bs.length
  let n := s.bobSize b
  if !s.bobEn b || k = 0 then (false, s)
  else
    let policy := s.get (CRLB_CFG_FULL b)
    let s := if policy = 2 && k ≤ n then bobMakeRoom b k s else s
    if n - s.bobFill b < k then (false, if policy = 1 then bobOverflow b s else s)
    else
      let old := s.bobLevel b
      let wr := s.get (CRLB_WR_WR b)
      let s := bobStore b k wr bs s
      (true, bobCheck b old (s.put (CRLB_WR_WR b) ((wr + k) % (2 * n))))

/-- Whether a record of `n` bytes would enter the ring now. -/
def Dev.bobFits (s : Dev) (b n : Nat) : Bool := s.bobEn b && decide (recWords n ≤ s.bobSize b - s.bobFill b)

/-- The bytes of the next `k` words of a bobbin, without taking them. -/
def Dev.bobPeek (s : Dev) (b k : Nat) : List Byte :=
  (List.range k).flatMap fun i =>
    s.creelBytes (s.bobAddr b ((s.get (CRLB_RD_RD b) + i) % (2 * s.bobSize b))) 32

/-- The consumer takes a record of `k` words, if it is there (R408). -/
def bobPop (b k : Nat) (s : Dev) : Option (List Byte) × Dev :=
  if !s.bobEn b || s.bobFill b < k then (none, s)
  else
    let old := s.bobLevel b
    let bs := s.bobPeek b k
    (some bs, bobCheck b old (s.put (CRLB_RD_RD b) ((s.get (CRLB_RD_RD b) + k) % (2 * s.bobSize b))))

/-- A consumer finds a real-time bobbin empty while its stream has not ended (R412). -/
def bobUnderrun (b : Nat) (s : Dev) : Dev := bobEvent b 37 0 ((s.count (CRLB_UNF b) 1).put (CRLB_STATUS_UNF b) 1)

/-- A bobbin's content is discarded and its pointers reset (R407, R414). -/
def bobEmpty (b : Nat) (s : Dev) : Dev :=
  let s := ((s.setReg (CRLB_WR b) 0).setReg (CRLB_RD b) 0).setReg (CRLB_FILL b) 0
  let s := s.put (CRLB_STATUS_PANIC b) 0
  { s with crl := { s.crl with ended := s.crl.ended.filter (· ≠ b) } }

/-- A bobbin is open while its producer or consumer block runs (R414). -/
def Dev.bobOpen (s : Dev) (b : Nat) : Bool :=
  if !s.bobEn b then false
  else if b < 16 then (let st := s.get TRD_STATE_STATE; 2 ≤ st && st ≤ 7)
  else if b < 32 then s.on (MPLS_CTRL_EN (b - 16))
  else if b < 48 then s.on (MPLS_CTRL_EN (b - 32))
  else if b < 52 then s.on (ISPC_CTRL_EN (b - 48))
  else if b < 56 then s.on (ISPC_CTRL_EN (b - 52))
  else if b < 64 then s.on TAP_CTRL_ENABLE && s.on (TAPP_CTRL_EN (b - 56))
  else if b = 64 || b = 66 then s.on NET_CTRL_N0_EN
  else if b = 65 || b = 67 then s.on NET_CTRL_N1_EN
  else if b = 68 then true
  else if b = 69 then s.get SHD_STATUS_PASS ≠ 0
  else false

/-- The ring of bobbin `b`: its first byte and the byte after it. -/
def Dev.bobRange (s : Dev) (b : Nat) : Nat × Nat := (s.bobBase b, s.bobBase b + 32 * s.bobSize b)

/-- The conditions of R413 on enabling bobbin `b`. -/
def Dev.bobLegal (s : Dev) (b : Nat) : Bool :=
  let (lo, hi) := s.bobRange b
  decide (2 ≤ s.bobSize b) && decide (hi ≤ 0x1FE0000) &&
    (List.range 128).all fun x => x == b || !s.bobEn x || (let (l, h) := s.bobRange x; h ≤ lo || hi ≤ l)

/-- A write of CRL_Bb_CFG (R410, R413, R414, R426). -/
def bobConfig (b : Bobbin) (w : Nat) (s : Dev) : Dev :=
  if s.bobOpen b.val then writeLocked CRL_FLAGS_WRITE_LOCKED 44 0xFF s
  else
    let a := CRLB_CFG b.val
    let v := Nat.land w 0xFF7B3
    let fixed := if b.val < 70 then Nat.lor (Nat.land v 0x481) (bobbinFixed b.val) else v
    let was := s.bobEn b.val
    if bit w 0 && !was then
      let s := s.setReg a (setBit fixed 0 false)
      if s.bobLegal b.val then bobEmpty b.val (s.setReg a fixed)
      else flagEvent CRL_FLAGS_CFG_ERR 43 b.val 0 s
    else
      let s := s.setReg a fixed
      if bit w 0 then s else bobEmpty b.val s

/-! ### Scrubbing (R415, R416) -/

/-- The byte offset of the 64-bit group that a scrub of word `w` reads. -/
def scrubAddr (w bank group : Nat) : Nat := w * 2048 + bank * 32 + group * 8

/-- A corrected error: counted, latched, and reported once per management tick (R415). -/
def creelCe (addr : Nat) (s : Dev) : Dev :=
  let s := (s.count CRL_CE_COUNT 1).setReg CRL_ERR_ADDR (addr / 8 * 8)
  let s := s.put CRL_FLAGS_CE 1
  if s.crl.ceSeen then s
  else occur 32 0xFF 0x10 (fault 0x10 sevInfo 0xFF { s with crl := { s.crl with ceSeen := true } })

/-! ### The secure partition -/

/-- READY, BUSY and KEY_VALID are shown (R427). -/
def secShow (s : Dev) : Dev :=
  let valid := (List.finRange 16).foldl (fun n i => n + (if (vat s.sec.keys i).isSome then 2 ^ i.val else 0)) 0
  let s := s.put SEC_STATUS_KEY_VALID valid
  s.put SEC_STATUS_READY (b2n (!s.on SEC_STATUS_WIPING && !s.on SEC_KEY_STAT_BUSY))

/-- The SEC_KEY_WRAP registers are cleared (R419, R420). -/
def wrapClear (s : Dev) : Dev := (List.range 10).foldl (fun (t : Dev) i => t.setReg (SEC_KEY_WRAP i) 0) s

/-- The wrapped key in SEC_KEY_WRAP0 to 9 (R419). -/
def Dev.wrapped (s : Dev) : List Byte := (List.range 10).flatMap fun i => leBytes 4 (s.reg (SEC_KEY_WRAP i))

/-- KEY_SLOT of a layer file (R52). -/
def LayerSlot.keySlot (x : LayerSlot) : Nat := leAt x.header 0x11 1 % 16

/-- A layer file in RECEIVING uses key slot `k` (R420). -/
def Dev.keyInUse (s : Dev) (k : KeySlot) : Bool :=
  (List.finRange 3).any fun i =>
    bits (s.reg (TRD_SLOT0_STATUS + 4 * i.val)) 2 0 == 1 && (vat s.trd.slots i).keySlot == k.val
      && (vat s.trd.slots i).header.length == 128

/-- A LOAD or ERASE is performed (R419, R512). -/
def keyPerform (op : Nat) (k : KeySlot) (s : Dev) : Dev :=
  let set (key : Option (List Byte)) (s : Dev) : Dev :=
    { s with sec := { s.sec with
        keys := vput s.sec.keys k key
        subkeys := vput s.sec.subkeys k (match key with | some x => gcmSubkey x | none => 0)
        nonces := vput s.sec.nonces k 0 } }
  let (result, s) : Nat × Dev :=
    if op = 2 then (0, set none s)
    else match s.start.fuses.kek with
      | none => (2, s)
      | some kek =>
        if s.get DEV_LC_IN_FORCE = 3 then (2, s)
        else match aesUnwrap kek s.wrapped with
          | some key => (0, set (some key) s)
          | none => (1, s)
  let s := if result = 0 then s else aonFlag SEC_FLAGS_KEY_REFUSED 42 k.val s
  let s := (s.put SEC_KEY_STAT_RESULT result).put SEC_KEY_STAT_BUSY 0
  secShow (wrapClear { s with sec := { s.sec with waiting := none } })

/-- SEC_KEY_CMD with LOAD (1) or ERASE (2) (R419, R420). -/
def keyCommand (op : Nat) (k : KeySlot) (s : Dev) : Dev :=
  if !s.on SEC_STATUS_READY then aonFlag SEC_FLAGS_WRITE_LOCKED 44 k.val s
  else if s.keyInUse k then
    secShow ({ s with sec := { s.sec with waiting := some (op, k) } }.put SEC_KEY_STAT_BUSY 1)
  else keyPerform op k s

/-- A layer file has left RECEIVING: a LOAD or ERASE that waits for it runs (R420). -/
def keyResume (s : Dev) : Dev :=
  match s.sec.waiting with
  | some (op, k) => if s.keyInUse k then s else keyPerform op k s
  | none => s

/-- A wipe of the secure partition starts, or starts again (R420 to R422); AUTH_OK and STAGED_OK go (R528). -/
def secWipe (cause : Nat) (s : Dev) : Dev :=
  let s := s.setReg SEC_WIPE_CAUSE (setBit (s.reg SEC_WIPE_CAUSE) cause true)
  let s := if s.sec.waiting.isSome then
      wrapClear ((s.put SEC_KEY_STAT_RESULT 3).put SEC_KEY_STAT_BUSY 0) else s
  let s := (s.put SEC_STATUS_WIPING 1).put DEV_STATE_AUTH_OK 0
  secShow { s with sec := { s.sec with
    keys := Vector.replicate 16 none, subkeys := Vector.replicate 16 0, nonces := Vector.replicate 16 0,
    waiting := none, staged := none } }

/-- In PRODUCTION the recheck of R528 starts once a wipe is complete; a pending update ends. -/
def secRecheck (s : Dev) : Dev :=
  let st := s.get DEV_UPD_STAT_STATE
  let back := if st = 3 then 2 else st
  let s := if st = 3 then s.put DEV_UPD_STAT_STATE 2 else s
  let known := decide (s.get DEV_STATE_SLOT < 2)
  if s.get DEV_LC_IN_FORCE = 2 && known && s.sec.recheck.isNone then
    { s with sec := { s.sec with recheck := some back } }.put DEV_UPD_STAT_STATE 4
  else s

/-- The wipe completes (R422), and in PRODUCTION the recheck of R528 starts. -/
def secWiped (s : Dev) : Dev :=
  if !s.on SEC_STATUS_WIPING then s
  else
    let s := (s.put SEC_STATUS_WIPING 0).count SEC_WIPES 1
    let s := secShow (s.put SEC_FLAGS_WIPED 1)
    secRecheck (aonEvent 41 0xFF 0x06 (some sevInfo) s)

/-- One scrub read of every bank (R416): a late one is counted, and what it finds is corrected or latched. -/
def scrubRead (late : Bool) (r : ScrubResult) (s : Dev) : Dev :=
  if !s.on CRL_CTRL_SCRUB_EN then s
  else
    let w := s.reg CRL_STATUS % 16384
    let s := if w = 16383 then s.count CRL_SCRUB_PASSES 1 else s
    let s := s.setReg CRL_STATUS ((w + 1) % 16384)
    let s := if late then flagEvent CRL_FLAGS_SCRUB_LATE 45 0xFF 0 (s.count CRL_SCRUB_LATE 1) else s
    match r with
    | .clean => s
    | .corrected b g => creelCe (scrubAddr w b.val g.val) s
    | .uncorrectable b g => (s.count CRL_UE_COUNT 1).setReg CRL_ERR_ADDR (2 ^ 31 + scrubAddr w b.val g.val)
    | .partitionUncorrectable => secWipe 4 s

end Sys2Proof.Machine
end

