-- ==== Sys2Proof/Machine/DramMap.lean ====
section
/-!
DEFINITION. The DRAM as its clients see it: capacity and address split (R428 to R431), and the accesses of the blocks,
each turned away at or above the capacity (R430).
-/
namespace Sys2Proof.Machine

open Reg

/-! ### Capacity and address split -/

abbrev drcOff : Nat := 0
abbrev drcTraining : Nat := 1
abbrev drcReady : Nat := 2
abbrev drcSwitching : Nat := 3
abbrev drcFailed : Nat := 4

def Dev.drcState (s : Dev) : Nat := s.get DRC_STATUS_STATE

def Dev.drcMod (s : Dev) (f : Dram → Dram) : Dev := { s with drc := f s.drc }

/-- Channels populated and ranks per channel (R428). -/
def Dev.dramChannels (s : Dev) : Nat := 1 + s.get DRC_CTRL_CH1_EN
def Dev.dramRanks (s : Dev) : Nat := 1 + s.get DRC_CTRL_RANKS

/-- Bytes of one rank of one channel (R428): two subchannels of four x8 or two x16 data components. -/
def Dev.rankBytes (s : Dev) : Nat :=
  let gib := match s.get DRC_CTRL_DENSITY with | 0 => 2 | 1 => 3 | _ => 4
  2 * (if s.on DRC_CTRL_WIDTH then 2 else 4) * gib * 2 ^ 30

/-- Usable capacity in MiB: 1 MiB of each rank is reserved (R430). -/
def Dev.dramCap (s : Dev) : Nat := s.dramChannels * s.dramRanks * (s.rankBytes / 2 ^ 20 - 1)

/-- Channel, subchannel and rank of a byte address (R431). -/
def Dev.dramLoc (s : Dev) (a : Nat) : Nat × Nat × Nat :=
  let two := s.on DRC_CTRL_CH1_EN
  let bg := if s.on DRC_CTRL_WIDTH then 2 else 3
  let low := 7 + b2n two + bg + 2 + 6
  (if two then bits a 7 7 else 0, bits a 6 6, if s.on DRC_CTRL_RANKS then bits a low low else 0)

/-- The address of burst `k` of channel `c`, in ascending order (R431, R441). -/
def Dev.burstAddr (s : Dev) (c k : Nat) : Nat :=
  if s.on DRC_CTRL_CH1_EN then k / 2 * 256 + c * 128 + k % 2 * 64 else k * 64

/-- The supported data rate that a written rate acts as (R429). -/
def dataRate (r : Nat) : Nat :=
  match [6400, 6000, 5600, 5200, 4800, 4400, 4000, 3600].find? (· ≤ r) with
  | some x => x
  | none => 3200

/-- The data rate of the set-point in force, MT/s (R429). -/
def Dev.dramRate (s : Dev) : Nat :=
  dataRate (bits (s.reg (if s.on DRC_STATUS_SP then DRC_SP1 else DRC_SP0)) 12 0)

/-! ### Accesses -/

/-- The location of an error is latched (R440). -/
def latchError (a comp : Nat) (ue : Bool) (s : Dev) : Dev :=
  let (c, sub, rank) := s.dramLoc a
  ((s.setReg DRC_ERR_ADDR_LO (a % 2 ^ 32)).setReg DRC_ERR_ADDR_HI (a / 2 ^ 32 % 16)).setReg DRC_ERR_INFO
    (comp % 8 * 256 + b2n ue * 64 + rank * 32 + sub * 16 + c)

/-- A request at or above the capacity is not performed (R430). -/
def dramAddrErr (a : Nat) (s : Dev) : Dev :=
  let c := (s.dramLoc a).1
  let s := (s.put DRC_FLAGS_ADDR_ERR 1).setReg DRC_ERR_INFO (putBits (s.reg DRC_ERR_INFO) 0 0 c)
  occur 56 c 0x1C (fault 0x1C sevInfo c s)

/-- Whether `n` bytes from `a` lie below the capacity. -/
def Dev.inDram (s : Dev) (a n : Nat) : Bool := decide (a + n ≤ s.dramCap * 2 ^ 20)

/-- A request ends a channel's self-refresh (R438). -/
def wake (a : Nat) (s : Dev) : Dev :=
  s.drcMod fun d => { d with selfRef := d.selfRef.set ((s.dramLoc a).1 % 2) false (Nat.mod_lt _ (by decide)) }

/-- A block's read of `n` bytes from `a`, or its fault (R430): beyond the capacity the bytes are zeros. -/
def dramTouch (a n : Nat) (s : Dev) : Dev := if s.inDram a n then wake a s else dramAddrErr a s

/-- A block's write to DRAM (R430). -/
def dramWrite (a : Nat) (bs : List Byte) (s : Dev) : Dev :=
  if s.inDram a bs.length then wake a (s.setDramBytes a bs) else dramAddrErr a s

end Sys2Proof.Machine
end

