-- ==== Sys2Proof/Machine/LampOps.lean ====
section
/-!
DEFINITION. The operations of the bed illumination: levels and derating (R385, R394, R396), the lamp chain (R382 to
R386), flashes (R387, R388) and the matrix scan (R390 to R392).
-/
namespace Sys2Proof.Machine

open Reg

def Dev.lmpMod (s : Dev) (f : Lamps → Lamps) : Dev := { s with lmp := f s.lmp }

/-- The pattern in force (R389). -/
def Dev.lampPattern (s : Dev) : Nat := match s.lmp.pattern with
  | some p => if p < 16 then p else 0
  | none => 0

/-- A disturbance of the colour reading that runs (R393). -/
def lampDisturb (s : Dev) : Dev := s.lmpMod fun l => { l with measuring := l.measuring.map fun _ => true }

/-! ### Levels -/

/-- The gain of a colour group in Q0.16; 1.0 for group 3 (R394). -/
def Dev.groupGain (s : Dev) (g : Nat) : Nat := if g < 3 then s.reg (LMP_COL_GAIN g) % 65536 else 65536

/-- The derating factor of a temperature (R396); FLOOR where it is INVALID. -/
def Dev.derate (s : Dev) (t : Option Int) : Nat :=
  let floor := s.reg LMP_DERATE1 % 256 * 256
  match t with
  | none => floor
  | some t =>
    let knee := sx 16 (s.get LMP_DERATE0_KNEE)
    (clampI floor 65536 (65536 - asr ((t - knee) * (s.get LMP_DERATE0_SLOPE : Int)) 6)).toNat

/-- STEADY or FLASH × gain × derating factor, truncated (R385); 0 for a driver without a valid status (R386). -/
def Dev.ldLevel (s : Dev) (k : Fin 32) (raw : Nat) : Nat :=
  if vat s.lmp.bad k then 0
  else min 65535 (raw * s.groupGain (s.get (LMP_LD_CFG_GROUP k.val)) * vat s.lmp.factor k / 2 ^ 32)

def Dev.ldSteady (s : Dev) (k : Fin 32) : Nat := s.ldLevel k (s.get (LMP_LD_STEADY_STEADY k.val))

/-- The FLASH level sent; a driver whose bit is clear in the pattern's mask keeps its steady level (R387). -/
def Dev.ldFlash (s : Dev) (k : Fin 32) : Nat :=
  if bit (s.reg (LMP_PAT_LD s.lampPattern)) k.val then s.ldLevel k (s.get (LMP_LD_FLASH_FLASH k.val)) else s.ldSteady k

/-- The number of drivers, 1 to 32. -/
def Dev.ldCount (s : Dev) : Nat := clampN 1 32 (s.get LMP_CHAIN_CFG_COUNT)

/-! ### The chain -/

/-- The next chain frame starts if none shifts and no window is pending or open (R388). RWS fields commit at it. -/
def chainStart (s : Dev) : Dev :=
  match s.lmp.tx, s.lmp.txQ with
  | none, c :: q =>
    if !s.lmp.windows.isEmpty || !s.on LMP_CTRL_CHAIN_EN then s
    else
      let s := s.commit .lamp 0xF0000 0x100000
      let ks := List.finRange 32
      let levels := ks.map fun k =>
        if k.val < s.ldCount then (if c = 1 then s.ldSteady k else if c = 2 then s.ldFlash k else 0) else 0
      let s := (s.put LMP_STATUS_CHAIN_BUSY 1).lmpMod fun l => { l with tx := some (c, levels), txQ := q }
      if c = 1 || c = 2 then lampDisturb s else s
  | _, _ => s

/-- The frames of a commit: SET_STEADY, then SET_FLASH, then the latch (R385). -/
def chainCommit (s : Dev) : Dev :=
  if s.lmp.txQ.contains 2 then s else chainStart (s.lmpMod fun l => { l with txQ := l.txQ ++ [1, 2] })

/-- A broadcast latch with LDO at `flash` (R383, R387). -/
def lampLatch (flash : Bool) (s : Dev) : Dev :=
  if s.on LMP_CTRL_CHAIN_EN then lampDisturb (s.lmpMod fun l => { l with flashing := flash }) else s

/-- At a tick boundary the latch of a commit leaves, once no frame of it still shifts (R385). -/
def lampTick (s : Dev) : Dev :=
  if s.lmp.latchDue && s.lmp.tx.isNone then
    let s := (s.put LMP_CHAIN_COMMIT_R385 0).lmpMod fun l => { l with latchDue := false }
    if s.lmp.flashing then s else lampLatch false s
  else s

/-- A new derating factor of one output: DERATED on a change of more than 1/256, and the fault at its first fall below
1.0 (R396). `inst` is the driver, 32 for the matrix. -/
def derateChange (inst old new : Nat) (s : Dev) : Dev :=
  let moved := decide (256 < max old new - min old new)
  let s := if moved then flagEvent LMP_FLAGS_DERATED 220 inst 0 s else s
  if old = 65536 && new < 65536 then fault 0x7C sevInfo inst s else s

/-- One driver's status word (R384, R386, R396). -/
def ldStatus (k : Fin 32) (w : Nat) (s : Dev) : Dev :=
  let valid := decide (bits w 31 28 = 10)
  let t : Option Int := if valid then some (sx 16 (bits w 23 8)) else none
  let wrong := !valid || bit w 2 || bit w 1
  let was := vat s.lmp.bad k
  let s := s.lmpMod fun l => { l with temps := vput l.temps k t, bad := vput l.bad k wrong }
  let f := s.derate t
  let old := vat s.lmp.factor k
  let s := s.lmpMod fun l => { l with factor := vput l.factor k f }
  let s := s.setReg (LMP_LD_STATUS k.val) ((if valid then qGood else qInvalid) * 65536 + min f 65535)
  let s := derateChange k.val old f s
  if wrong && !was then fault 0x78 sevInfo k.val (flagEvent LMP_FLAGS_CHAIN_ERR 216 k.val 0x78 s) else s

/-- A chain frame completes with the status words of the drivers, LD0's first in the list (R385, R386). -/
def chainDone (status : List Word) (s : Dev) : Dev :=
  match s.lmp.tx with
  | none => s
  | some (c, levels) =>
    let before := (List.finRange 32).map fun k => (s.ldSteady k, s.ldFlash k)
    let s := (s.put LMP_STATUS_CHAIN_BUSY 0).lmpMod fun l =>
      { l with
        tx := none
        steady := if c = 1 then Vector.ofFn fun k => levels.getD k.val 0 else l.steady
        flash := if c = 2 then Vector.ofFn fun k => levels.getD k.val 0 else l.flash
        latchDue := l.latchDue || c = 2 }
    let n := s.ldCount
    let word (k : Fin 32) : Nat := ((status.getD k.val 0 : Word)).toNat
    let s := (List.finRange 32).foldl (fun t k => if k.val < n then ldStatus k (word k) t else t) s
    let s := s.put LMP_STATUS_DRIVERS
      (((List.finRange 32).filter fun k => decide (k.val < n) && decide (bits (word k) 31 28 = 10)).length)
    let after := (List.finRange 32).map fun k => (s.ldSteady k, s.ldFlash k)
    let s := if before = after then s else chainCommit s
    -- an opening latch that waited for the end of the frame leaves now, if its window is still open (R388)
    let s := if s.lmp.late.any fun c => s.lmp.windows.any fun w => w.cam == c && w.opened then
        lampLatch true s else s
    chainStart (s.lmpMod fun l => { l with late := [] })

/-! ### Windows and flashes (R351, R387, R388) -/

/-- Whether the window flashes: its port's bit in PORTS, or a hit routed to camera and lamp (R387). -/
def Dev.flashes (s : Dev) (w : Window) : Bool := w.lamp || bit (s.get LMP_FLASH_CFG_PORTS) w.cam

/-- A camera's exposure window opens (R387, R388). -/
def flashOpen (c : Camera) (s : Dev) : Dev :=
  match s.lmp.windows.find? fun w => w.cam == c.val && !w.opened with
  | none => s
  | some w =>
    let s := s.lmpMod fun l => { l with windows := l.windows.map fun x => if x = w then { x with opened := true } else x }
    let s := lampDisturb s
    if !s.flashes w || !s.on LMP_CTRL_CHAIN_EN then s
    else if s.lmp.tx.isSome then
      let s := s.lmpMod fun l => { l with late := l.late ++ [c.val] }
      fault 0x79 sevInfo c.val (flagEvent LMP_FLAGS_FLASH_LATE 218 c.val 0x79 s)
    else lampLatch true s

/-- The window of a camera, or the HIT_US of a compare hit, ends (R387): the flash ends when nothing else holds it. -/
def flashClose (src : Option Camera) (s : Dev) : Dev :=
  let s := match src with
    | some c => s.lmpMod fun l =>
        { l with
          windows := match l.windows.find? fun w => w.cam == c.val && w.opened with
            | some w => l.windows.erase w
            | none => l.windows
          late := l.late.filter (· ≠ c.val) }
    | none => s.lmpMod fun l => { l with hitFlash := false }
  let held := s.lmp.hitFlash || s.lmp.windows.any fun w => w.opened && s.flashes w
  let s := if s.lmp.flashing && !held then lampLatch false s else s
  chainStart s

/-- A compare hit routed only to the lamp flashes for HIT_US (R387). -/
def flashHit (s : Dev) : Dev :=
  if s.on LMP_CTRL_CHAIN_EN && s.lmp.tx.isNone then
    lampLatch true (s.lmpMod fun l => { l with hitFlash := true })
  else s

/-! ### The matrix (R390 to R392) -/

/-- EXP_ROW of the active pattern: 8 or more for none. -/
def Dev.mtxExpRow (s : Dev) : Nat := min 8 (s.get (LMP_PAT_MTX_EXP_ROW s.lampPattern))

/-- Where a row that began at `start` ends, given the windows known (R390, R391). -/
def Dev.rowEndAt (s : Dev) (start sched : Nat) : Nat :=
  s.lmp.windows.foldl (fun e w =>
    if s.mtxExpRow = 8 then (if w.openAt ≤ e + 2000 && e ≤ w.closeAt then w.closeAt else e)
    else if start ≤ w.openAt - 2000 && w.openAt - 2000 < e then w.openAt - 2000 else e) sched

/-- A window becomes known: the row that is on is rescheduled (R391). -/
def mtxArrange (s : Dev) : Dev :=
  if s.lmp.phase = .on && !s.lmp.expRow then
    s.lmpMod fun l => { l with rowEnd := s.rowEndAt l.rowStart l.rowEnd }
  else s

/-- A trigger's exposure window becomes known to the illumination (R351, R388, R391). -/
def addWindow (w : Window) (s : Dev) : Dev := mtxArrange (s.lmpMod fun l => { l with windows := l.windows ++ [w] })

/-- The on-time of a cell in MCH cycles (R390). -/
def Dev.cellOn (s : Dev) (r c : Nat) : Nat :=
  let d := bits (s.reg (LMP_MTX_DUTY r (c / 4))) (8 * (c % 4) + 7) (8 * (c % 4))
  let g := s.groupGain (bits (s.reg LMP_MTX_GROUP) (2 * c + 1) (2 * c))
  d * g * s.lmp.mtxFactor / 2 ^ 32 * s.get LMP_MTX_CFG_ROW_US * 250 / 255

/-- A cell's diagnosis (R392): 0 OK, 1 OPEN, 2 UNVERIFIED. -/
def cellDiag (r c v : Nat) (s : Dev) : Dev :=
  let a := LMP_MTX_DIAG (r % 8)
  let s := s.setReg a (putBits (s.reg a) (2 * c + 1) (2 * c) v)
  if v = 1 then
    if s.lmp.openCells.contains (r, c) then s
    else
      let s := s.lmpMod fun l => { l with openCells := (r, c) :: l.openCells }
      fault 0x7A sevInfo (16 * r + c) (flagEvent LMP_FLAGS_LAMP_OPEN 217 (16 * r + c) 0x7A s)
  else if v = 0 then s.lmpMod fun l => { l with openCells := l.openCells.filter (· ≠ (r, c)) }
  else s

/-- The diagnosis of a row's cells at its end: `sense` has the bit of every column that read open (R392). -/
def rowDiag (r sense : Nat) (s : Dev) : Dev :=
  (List.range 16).foldl (fun t c =>
    if 500 ≤ t.cellOn r c then cellDiag r c (if bit sense c then 1 else 0) t
    else cellDiag r c 2 t) s

/-- The first UNVERIFIED cell in row-major order. -/
def Dev.unverified (s : Dev) : Option (Nat × Nat) :=
  ((List.range 128).find? fun i => bits (s.reg (LMP_MTX_DIAG (i / 16))) (2 * (i % 16) + 1) (2 * (i % 16)) == 2).map
    fun i => (i / 16, i % 16)

/-- A row starts at `now` (R390); the scan start commits the RWS fields. -/
def rowOn (r now : Nat) (exp : Option Window) (s : Dev) : Dev :=
  let s := if r = 0 && exp.isNone then
      (s.commit .lamp 0xF0000 0x100000).lmpMod fun l => { l with testDone := false } else s
  let sched := match exp with
    | some w => w.closeAt
    | none => s.rowEndAt now (now + s.get LMP_MTX_CFG_ROW_US * 1000)
  (s.setReg LMP_STATUS (putBits (s.reg LMP_STATUS) 2 0 r)).lmpMod fun l =>
    { l with phase := .on, row := r, rowStart := now, rowEnd := sched, expRow := exp.isSome }

/-- A phase of the scan ends at `now` (R390 to R392). -/
def rowEnds (now sense : Nat) (s : Dev) : Dev :=
  if !s.on LMP_CTRL_MTX_EN then s else
  let inside := s.lmp.windows.any fun w => w.openAt < now && now < w.closeAt
  let s := if inside && s.lmp.phase = .on then flagEvent LMP_FLAGS_MTX_CONFLICT 219 s.lmp.row 0 s else s
  let blank (n : Nat) (p : RowPhase) (s : Dev) : Dev := s.lmpMod fun l => { l with phase := p, rowEnd := now + n }
  -- the row after a blanking: EXP_ROW when a window is about to open, otherwise the next of the scan
  let next (s : Dev) : Dev :=
    match s.lmp.windows.find? fun w => s.mtxExpRow < 8 && w.openAt ≤ now && now < w.closeAt with
    | some w => rowOn s.mtxExpRow now (some w) s
    | none =>
      match s.lmp.windows.find? fun w => s.mtxExpRow < 8 && w.openAt < now + 2000 && now < w.openAt with
      | some w => blank (w.openAt - now) .blank s
      | none => rowOn ((s.lmp.row + 1) % 8) now none s
  match s.lmp.phase with
  | .off => rowOn 0 now none s
  | .on => blank 2000 .blank (rowDiag s.lmp.row sense s)
  | .blank =>
    let free := s.lmp.windows.all fun w => now + 4000 < w.openAt || w.closeAt < now
    match s.unverified with
    | some cell =>
      if s.on LMP_CTRL_TEST_EN && !s.lmp.testDone && free then
        lampDisturb (blank 2000 .test (s.lmpMod fun l => { l with testCell := some cell, testDone := true }))
      else next s
    | none => next s
  | .test =>
    match s.lmp.testCell with
    | some (r, c) =>
      blank 2000 .blankAfter (cellDiag r c (if bit sense c then 1 else 0) (s.lmpMod fun l => { l with testCell := none }))
    | none => blank 2000 .blankAfter s
  | .blankAfter => next s

/-! ### Colour hold (R393 to R396) -/

/-- A colour reading starts (R393): windows that are open or a flash disturb it from the start. -/
def colourStart (s : Dev) : Dev :=
  if s.on LMP_CTRL_COLOUR_EN then
    s.lmpMod fun l => { l with measuring := some (l.flashing || l.windows.any (·.opened) || l.phase = .test) }
  else s

/-- An output of group `g` stands below 1.0 (R395). -/
def Dev.groupDerated (s : Dev) (g : Nat) : Bool :=
  ((List.finRange 32).any fun k =>
    decide (k.val < s.ldCount) && s.get (LMP_LD_CFG_GROUP k.val) == g && decide (vat s.lmp.factor k < 65536)) ||
  ((List.range 16).any fun c =>
    bits (s.reg LMP_MTX_GROUP) (2 * c + 1) (2 * c) == g && decide (s.lmp.mtxFactor < 65536))

/-- The update of one group's gain (R394, R395). -/
def colourGain (s : Dev) (g : Nat) : Dev :=
  if s.groupDerated g then flagEvent LMP_FLAGS_DERATE_HOLD 221 g 0 s
  else
    let k := s.reg (LMP_COL_GAIN g) % 65536
    let e := (s.get LMP_COL_KI_KI : Int) * ((s.reg (LMP_COL_TGT g) % 65536 : Nat) - (s.reg (LMP_COL_MEAS g) : Int))
    let lo := s.get LMP_COL_KI_KMIN
    let k' := (clampI lo 65535 ((k : Int) + asr e 16)).toNat
    let s := s.setReg (LMP_COL_GAIN g) k'
    if k' = lo && k ≠ lo then fault 0x7B sevInfo g (flagEvent LMP_FLAGS_COL_LIMIT 221 g 0x7B s) else s

/-- A colour reading ends (R393): six bytes, and the matrix temperature read after it (R396), none where its
transaction failed. -/
def colourDone (data : Option (List Byte)) (temp : Option Word) (s : Dev) : Dev :=
  match s.lmp.measuring with
  | none => s
  | some disturbed =>
    let before := (List.finRange 32).map fun k => (s.ldSteady k, s.ldFlash k)
    let s := s.lmpMod fun l => { l with measuring := none }
    let s := match data with
      | some bs =>
        if disturbed then s.count LMP_COL_DISCARD 1
        else
          let ch (g : Nat) : Nat :=
            let b := (bs.drop (2 * g)).take 2
            if s.get LMP_COL_DEV_BE = 1 then leNat b.reverse else leNat b
          let s := (List.range 3).foldl (fun (t : Dev) g => t.setReg (LMP_COL_MEAS g) (ch g)) s
          (List.range 3).foldl colourGain s
      | none => s.count LMP_COL_DISCARD 1
    let t : Option Int := temp.map fun w => sx 16 w.toNat
    let f := s.derate t
    let old := s.lmp.mtxFactor
    let s := s.lmpMod fun l => { l with mtxFactor := f }
    let s := s.setReg LMP_MTX_TEMP (match temp with
      | some w => w.toNat % 65536
      | none => qInvalid * 65536 + s.reg LMP_MTX_TEMP % 65536)
    let s := derateChange 32 old f s
    let after := (List.finRange 32).map fun k => (s.ldSteady k, s.ldFlash k)
    if before = after then s else chainCommit s

end Sys2Proof.Machine
end

