-- ==== Sys2Proof/Machine/Pixels.lean ====
section
/-!
DEFINITION. The pixel arithmetic of the image pipeline (R334, R339 to R345, R348), on frames as rows of 16-bit samples.
-/
namespace Sys2Proof.Machine

/-- A frame: its rows. -/
abbrev Rows := List (List Nat)

def pixel (f : Rows) (x y : Nat) : Nat := (f.getD y []).getD x 0

/-- The settings of one frame (R339). `blacks` has one level for each site, `mosaic` one type. -/
structure PixelCfg where
  w : Nat
  h : Nat
  blacks : List Nat
  mosaic : List Nat
  /-- the defects of the port, (x, y) -/
  defects : List (Nat × Nat)
  staticEn : Bool
  dynEn : Bool
  dynThr : Nat
  shadeEn : Bool
  /-- the shading gains of each site type, 33 × 33 in row order (R342) -/
  gains : List (List Nat)
  kr : Nat
  kg : Nat
  kb : Nat
  kyr : Nat
  kyg : Nat
  kyb : Nat
  format : Nat

/-- The site of a pixel. -/
def siteOf (x y : Nat) : Nat := y % 4 * 4 + x % 4

/-- The type of a pixel's site: 0 R, 1 G, 2 B, 3 C, 4 IR; 5 to 7 act as 1 (R339). -/
def PixelCfg.typ (c : PixelCfg) (x y : Nat) : Nat :=
  let t := c.mosaic.getD (siteOf x y) 1
  if t ≤ 4 then t else 1

/-- The black level stage of R339. -/
def PixelCfg.black (c : PixelCfg) (f : Rows) (x y : Nat) : Nat := pixel f x y - c.blacks.getD (siteOf x y) 0

/-- The nearest same-site neighbour in one direction, within 4 positions (R341). -/
def PixelCfg.neighbour (c : PixelCfg) (x y : Nat) (dx dy : Int) : Option (Nat × Nat) :=
  ([1, 2, 3, 4].filterMap fun (k : Nat) =>
    let px : Int := x + dx * k
    let py : Int := y + dy * k
    if 0 ≤ px && px < c.w && 0 ≤ py && py < c.h then
      let q := (px.toNat, py.toNat)
      if c.typ q.1 q.2 = c.typ x y && !c.defects.contains q then some q else none
    else none).head?

/-- The values of the same-site neighbours (R341), black-level corrected and not replaced. -/
def PixelCfg.around (c : PixelCfg) (f : Rows) (x y : Nat) : List Nat :=
  [(-1, 0), (1, 0), (0, -1), (0, 1)].filterMap fun ((dx, dy) : Int × Int) =>
    (c.neighbour x y dx dy).map fun q => c.black f q.1 q.2

/-- The median of the available neighbours (R341). -/
def replacement (p : Nat) (ns : List Nat) : Nat :=
  match ns.mergeSort with
  | [] => p
  | [a] => a
  | [a, b] => (a + b) / 2
  | [_, b, _] => b
  | _ :: b :: c :: _ => (b + c) / 2

/-- The bilinear shading gain (R342). -/
def PixelCfg.gain (c : PixelCfg) (x y : Nat) : Nat :=
  let g := c.gains.getD (c.typ x y) []
  let u := x * 2097152 / (c.w - 1)
  let v := if c.h = 1 then 0 else y * 2097152 / (c.h - 1)
  let i := min (u / 65536) 31
  let fu := u - i * 65536
  let j := min (v / 65536) 31
  let fv := v - j * 65536
  let at' (r k : Nat) : Nat := g.getD (r * 33 + k) 0
  ((at' j i * (65536 - fu) + at' j (i + 1) * fu) * (65536 - fv)
    + (at' (j + 1) i * (65536 - fu) + at' (j + 1) (i + 1) * fu) * fv + 2 ^ 31) / 2 ^ 32

/-- One pixel through R339: the value after shading, and whether it was replaced (0 no, 1 static, 2 dynamic). -/
def PixelCfg.correct (c : PixelCfg) (f : Rows) (x y : Nat) : Nat × Nat :=
  let p := c.black f x y
  let ns := c.around f x y
  let dynamic := 2 ≤ ns.length && (decide (ns.foldl max 0 + c.dynThr < p) || decide (p + c.dynThr < ns.foldl min 65536))
  let (p, how) :=
    if c.staticEn && c.defects.contains (x, y) then (replacement p ns, 1)
    else if c.dynEn && !c.defects.contains (x, y) && dynamic then (replacement p ns, 2)
    else (p, 0)
  (if c.shadeEn then min ((p * c.gain x y + 2048) / 4096) 65535 else p, how)

/-- A mirrored coordinate (R343). -/
def mirrored (n : Nat) (k : Int) : Nat :=
  if k < 0 then (-k).toNat else if (n : Int) ≤ k then (2 * ((n : Int) - 1) - k).toNat else k.toNat

/-- The estimate of one channel at a pixel, from the corrected samples (R343); 0 where no site of the window has it. -/
def PixelCfg.estimate (c : PixelCfg) (p : Rows) (x y t : Nat) : Nat :=
  let offs : List Int := [-2, -1, 0, 1, 2]
  let (num, den) := offs.foldl (fun acc dy => offs.foldl (fun (acc : Nat × Nat) dx =>
    let px := mirrored c.w (x + dx)
    let py := mirrored c.h (y + dy)
    if c.typ px py = t then
      let w := (3 - dx.natAbs) * (3 - dy.natAbs)
      (acc.1 + w * pixel p px py, acc.2 + w)
    else acc) acc) (0, 0)
  if den = 0 then 0 else num / den

/-- A type appears in the mosaic. -/
def PixelCfg.has (c : PixelCfg) (t : Nat) : Bool := c.mosaic.any fun m => (if m ≤ 4 then m else 1) == t

/-- R, G, B, IR and Y of a pixel (R343, R344). -/
def PixelCfg.colour (c : PixelCfg) (p : Rows) (x y : Nat) : Nat × Nat × Nat × Nat × Nat :=
  let e (t : Nat) : Nat := if c.has t then c.estimate p x y t else 0
  let r := e 0
  let b := e 2
  let ir := e 4
  let derived := c.has 3 && !c.has 1
  let g := if derived then e 3 - r - b - ir else e 1
  let r' := r - c.kr * ir / 4096
  let b' := b - c.kb * ir / 4096
  let g' := if derived then g else g - c.kg * ir / 4096
  (r', g', b', ir, min ((c.kyr * r' + c.kyg * g' + c.kyb * b' + 32768) / 65536) 65535)

/-- The bytes of one output pixel (R345). -/
def PixelCfg.bytes (c : PixelCfg) (raw : Nat) (v : Nat × Nat × Nat × Nat × Nat) : List Byte :=
  let (r, g, b, ir, y) := v
  match c.format with
  | 1 => leBytes 1 (y / 256)
  | 2 => leBytes 2 y
  | 3 => leBytes 1 (r / 256) ++ leBytes 1 (g / 256) ++ leBytes 1 (b / 256)
  | 4 => leBytes 2 r ++ leBytes 2 g ++ leBytes 2 b
  | 5 => leBytes 2 ir
  | _ => leBytes 2 raw

/-- Bytes per pixel (R345). -/
def pixelSize (format : Nat) : Nat :=
  match format with
  | 1 => 1
  | 3 => 3
  | 4 => 6
  | _ => 2

/-- The corrected samples of a frame, and how many were replaced from the table and dynamically. -/
def PixelCfg.run (c : PixelCfg) (f : Rows) : Rows × Nat × Nat :=
  let rows := (List.range c.h).map fun y => (List.range c.w).map fun x => c.correct f x y
  let all := rows.flatten
  (rows.map (·.map (·.1)), all.countP (·.2 == 1), all.countP (·.2 == 2))

/-- The frame's pixels and its statistics record without the header copy (R345, R348). -/
def PixelCfg.output (c : PixelCfg) (f : Rows) : List Byte × List Byte :=
  let (p, st, dyn) := c.run f
  let cols := (List.range c.h).map fun y => (List.range c.w).map fun x => c.colour p x y
  let ys : Rows := cols.map (·.map fun v => v.2.2.2.2)
  let pix := (List.range c.h).flatMap fun y => (List.range c.w).flatMap fun x =>
    c.bytes (pixel p x y) ((cols.getD y []).getD x (0, 0, 0, 0, 0))
  let flat := ys.flatten
  let hist := (List.range 256).map fun b => min (flat.countP fun v => v / 256 == b) 0xFFFFFFFF
  let zone (i j : Nat) : Nat :=
    let part := ((ys.take ((j + 1) * c.h / 16)).drop (j * c.h / 16)).flatMap fun r =>
      (r.take ((i + 1) * c.w / 16)).drop (i * c.w / 16)
    if part.isEmpty then 0 else part.sum / part.length
  let zones := (List.range 16).flatMap fun j => (List.range 16).map fun i => zone i j
  let focus := ((List.range (c.h - 2)).map fun y => ((List.range (c.w - 2)).map fun x =>
    (4 * (pixel ys (x + 1) (y + 1) : Int) - pixel ys x (y + 1) - pixel ys (x + 2) (y + 1) - pixel ys (x + 1) y
      - pixel ys (x + 1) (y + 2)).natAbs).sum).sum
  (pix, hist.flatMap (leBytes 4) ++ zones.flatMap (leBytes 2) ++ leBytes 8 focus ++ leBytes 4 st ++ leBytes 4 dyn
    ++ leBytes 16 0)

end Sys2Proof.Machine
end

