-- ==== Sys2Proof/Machine/CameraOps.lean ====
section
/-!
DEFINITION. The operations of the camera ports and the image pipeline: triggers (R349 to R351), exposure settings (R352,
R353), admission (R336), lines (R333 to R338), delivery and export (R346 to R348, R356).
-/
namespace Sys2Proof.Machine

open Reg

def Dev.cam (s : Dev) (c : Camera) : CamPort := vat s.isp.ports c

def Dev.camMod (s : Dev) (c : Camera) (f : CamPort → CamPort) : Dev :=
  { s with isp := { s.isp with ports := vmod s.isp.ports c f } }

/-- A flag of ISP_c_FLAGS set, with E200 + c when it changes (R357). -/
def camFlag (c : Camera) (f : Field) (code : Nat) (s : Dev) : Dev := flagEvent f (200 + c.val) c.val code s

/-- A port is busy: from a trigger until its frame is delivered or dropped, plus HOLDOFF (R349). -/
def Dev.camBusy (s : Dev) (c : Camera) (now : Nat) : Bool :=
  let p := s.cam c
  !p.triggers.isEmpty || p.frames.any (fun f => f.src ≠ 0) || decide (now < p.holdUntil)

/-- SIZE.W: even, 16 to 8,192 (R334). -/
def Dev.camW (s : Dev) (c : Camera) : Nat := s.reg (ISPC_SIZE c) % 65536

/-- SIZE.H (R334). -/
def Dev.camH (s : Dev) (c : Camera) : Nat := s.reg (ISPC_SIZE c) / 65536

/-- The settings in force for frame `f`: of the newest commit whose frame N is at least two earlier (R352); those of
reset before any. -/
def CamPort.setFor (p : CamPort) (f : Nat) : Option ExpSet := p.sets.find? fun e => e.frame + 2 ≤ f

/-! ### Triggers -/

/-- A trigger of source `src` (1 compare, 2 Treadle, 3 register) arrives at `now` (R349, R351). `keep` marks a traverse
frame of a recoat, and `flash` a hit that is also routed to the lamp. -/
def camTrigger (c : Camera) (src : Nat) (keep flash : Bool) (now : Nat) (s : Dev) : Dev :=
  let enabled := s.on (ISPC_CTRL_EN c) && s.on (ISPC_TRIG_MODE c) &&
    (match src with
      | 1 => s.on (ISPC_TRIG_CMP_EN c)
      | 3 => s.on (ISPC_TRIG_REG_EN c)
      | _ => true)
  if !enabled then s
  else if s.camBusy c now then
    let s := s.count (ISPC_TRIG_MISS c) 1
    let first := !(s.cam c).missed
    let s := if first then fault 0x71 sevInfo c.val (s.camMod c fun p => { p with missed := true }) else s
    camFlag c (ISPC_FLAGS_TRIG_MISS c) (if first then 0x71 else 0) s
  else
    let p := s.cam c
    let win := match p.setFor (s.reg (ISPC_FRAME_NO c) + 1) with
      | some e => e.exposure / 65536
      | none => 0
    let openAt := now + s.reg (ISPC_EXP_DELAY c) % 2 ^ 24
    let s := s.camMod c fun p =>
      { p with triggers := p.triggers ++ [⟨src, now / 1000000000, now % 1000000000, keep⟩] }
    addWindow ⟨c.val, openAt, openAt + win * 1000, flash, false⟩ s

/-- The Treadle's capture issues its next trigger when the port is free (R350). -/
def captureNext (now : Nat) (s : Dev) : Dev :=
  if s.trd.imagesLeft = 0 || !s.trd.captureDue then s
  else
    let c : Camera := ⟨bits (s.trd.profile.headD 0) 19 18 % 4, Nat.mod_lt _ (by decide)⟩
    if s.camBusy c now || !s.on (ISPC_CTRL_EN c) || !s.on (ISPC_TRIG_MODE c) then s
    else camTrigger c 2 true false now (s.trdMod fun t => { t with captureDue := false })

/-- A capture of IMG.COUNT frames under the lamp pattern IMG.LAMP starts (R73). -/
def captureStart (s : Dev) : Dev :=
  let img := s.trd.profile.getD 5 0
  let n := bits img 7 0
  if n = 0 then s.trdMod fun t => { t with imagesLeft := 0, imaged := true }
  else
    let s := s.lmpMod fun l => { l with pattern := some (bits img 15 8) }
    captureNext s.t0.nanos (s.trdMod fun t => { t with imagesLeft := n, captureDue := true, imaged := false })

/-- One frame of the Treadle's capture has been delivered or dropped (R73, R350): a dropped frame counts too. -/
def captureFrame (now : Nat) (s : Dev) : Dev :=
  if s.trd.imagesLeft = 0 then s
  else if s.trd.imagesLeft = 1 then
    (s.trdMod fun t => { t with imagesLeft := 0, captureDue := false, imaged := true }).lmpMod
      fun l => { l with pattern := none }
  else captureNext now (s.trdMod fun t => { t with imagesLeft := t.imagesLeft - 1, captureDue := true })

/-! ### Headers and exports (R347, R356) -/

/-- The frame header (R347): `q` is GOOD for a delivered frame and INVALID for a drop record of cause `drop`. -/
def camHeader (c : Camera) (f : CamFrame) (q drop : Nat) : List Byte :=
  wordsBytes [f.no,
    f.tag * 2 ^ 24 + f.expQ * 2 ^ 22 + q * 2 ^ 20 + c.val * 2 ^ 18 + f.src * 2 ^ 16 + f.format * 2 ^ 8 + drop * 2 ^ 4,
    f.height * 65536 + f.width, f.sec % 2 ^ 32, f.ns / 5 * 5, f.exposure, f.gain, f.layer]

/-- The chunks of an IMAGE_DATA transfer: at most 8,176 data bytes each, with their byte offsets (R82, R356). -/
def chunksFrom (n : Nat) : Nat → Nat → List Byte → List (Nat × List Byte)
  | 0, _, _ => []
  | k + 1, off, bs => if bs.isEmpty then [] else (off, bs.take n) :: chunksFrom n k (off + n) (bs.drop n)

/-- An IMAGE_DATA transfer under a tag; its last message completes `done` (R82, R356). -/
def sendImage (tag : Nat) (bs : List Byte) (done : Export) (s : Dev) : Dev :=
  let cs := chunksFrom 8176 (bs.length / 8176 + 1) 0 bs
  let layer := s.reg TRD_LAYER
  (cs.foldl (fun (acc : Nat × Dev) (e : Nat × List Byte) =>
    (acc.1 + 1, sendJob 0x23 (leBytes 4 layer ++ leBytes 4 tag ++ leBytes 4 e.1 ++ e.2)
      (if acc.1 + 1 = cs.length then done else .none) acc.2)) (0, s)).2

/-- The frame tag and the statistics tag of R356. -/
def imageTag (base : Nat) (c : Camera) (no : Nat) : Nat := base + c.val * 2 ^ 24 + no % 2 ^ 24

/-- What of a frame goes to the host: 0 nothing, 1 frame and statistics, 2 statistics (R356). -/
def Dev.exportOf (s : Dev) (c : Camera) (f : CamFrame) : Nat :=
  if f.src = 2 || f.keep then 1
  else match s.get (ISPC_OUT_EXPORT c) with
    | 1 => 1
    | 2 => 2
    | _ => 0

/-- The end of a frame, delivered or dropped: HOLDOFF starts (R349) and the Treadle's capture goes on (R350). -/
def camEnd (c : Camera) (f : CamFrame) (now : Nat) (s : Dev) : Dev :=
  let s := s.camMod c fun p =>
    { p with
      frames := p.frames.filter fun x => x.no ≠ f.no
      holdUntil := if f.src ≠ 0 then now + s.get (ISPC_TRIG_HOLDOFF c) * 1000 else p.holdUntil }
  if f.src = 2 then captureFrame now s else s

/-- ISP_STATUS bits 3 to 0 and ISP_c_STATUS.ADMITTED follow the admitted frames (R358, R359). -/
def camAdmitted (s : Dev) : Dev :=
  (List.finRange 4).foldl (fun t c =>
    let b := (t.cam c).frames.any (·.admitted)
    (t.put (ISPC_STATUS_ADMITTED c) (b2n b)).setReg ISP_STATUS (setBit (t.reg ISP_STATUS) c.val b)) s

/-- A line as it stands in its bobbin: 16-bit samples (R334). -/
def lineBytes (l : List Nat) : List Byte := l.flatMap (leBytes 2)

/-- Records of a line of `n` samples: a record holds at most 64 words (R408). -/
def linePieces (n : Nat) : List Nat :=
  let w := recWords (2 * n)
  List.replicate (w / 64) 64 ++ (if w % 64 = 0 then [] else [w % 64])

/-- A line enters bobbin 48 + c, if all of it fits (R408). -/
def linePush (b : Nat) (bs : List Byte) (s : Dev) : Bool × Dev :=
  if s.bobSize b - s.bobFill b < recWords bs.length then (false, bobOverflow b s)
  else
    let s := (chunksFrom 2048 (bs.length / 2048 + 1) 0 bs).foldl (fun t e => (bobPush b e.2 t).2) s
    (s.bobEn b, s)

/-- `k` lines of `n` samples leave the bobbin. -/
def linePop (b n : Nat) : Nat → Dev → Dev
  | 0, s => s
  | k + 1, s => linePop b n k ((linePieces n).foldl (fun t w => (bobPop b w t).2) s)

/-- A frame is dropped with a cause (R337): the drop record, the counter, the flag and the fault. -/
def camDrop (c : Camera) (f : CamFrame) (cause now : Nat) (s : Dev) : Dev :=
  let newest := (s.cam c).frames.getLast?.map (·.no)
  let s := if newest = some f.no || newest = none then s.camMod c fun p => { p with capturing := false } else s
  let s : Dev := if s.isp.line = some (c.val, f.no) then { s with isp := { s.isp with line := none } } else s
  let s := linePop (48 + c.val) f.width (f.lines.length - f.taken) s
  let s := s.count (ISPC_DROPS c) 1
  let s := faultD 0x70 sevInfo c.val f.no cause s
  let s := camFlag c (ISPC_FLAGS_DROP c) 0x70 s
  let s := if s.exportOf c f = 1 then
      sendImage (imageTag 0x80000000 c f.no) (camHeader c f qInvalid cause) .none s else s
  camAdmitted (camEnd c f now s)

/-! ### Admission (R336) -/

/-- RATE; 0 counts as 800 (R336). -/
def Dev.camRate (s : Dev) (c : Camera) : Nat :=
  let r := s.reg (ISPC_RATE c) % 1024
  if r = 0 then 800 else r

/-- The sum of the rates of the admitted frames. -/
def Dev.camLoad (s : Dev) : Nat :=
  ((List.finRange 4).map fun c => ((s.cam c).frames.countP (·.admitted)) * s.camRate c).sum

/-- Port `a` has lower priority than port `b`: a higher PRIO, or the higher index (R335). -/
def Dev.camLower (s : Dev) (a b : Camera) : Bool :=
  let x := s.get (ISPC_CTRL_PRIO a)
  let y := s.get (ISPC_CTRL_PRIO b)
  decide (y < x) || (x == y && decide (b.val < a.val))

/-- The port of lowest priority among those with an admitted frame, and `extra`. -/
def Dev.camLowest (s : Dev) (extra : Option Camera) : Option Camera :=
  (List.finRange 4).foldl (fun best c =>
    if (s.cam c).frames.any (·.admitted) || extra == some c then
      match best with
      | none => some c
      | some b => if s.camLower c b then some c else best
    else best) none

/-- The oldest admitted frame of a port is aborted (R336, cause 2). -/
def camAbort (c : Camera) (now : Nat) (s : Dev) : Dev :=
  match (s.cam c).frames.find? (·.admitted) with
  | some f => camDrop c f 2 now s
  | none => s

/-- The admission loop for a new frame of port `c`: whether it is admitted, after the aborts it takes (R336). -/
def camAdmit (c : Camera) (now : Nat) : Nat → Dev → Bool × Dev
  | 0, s => (false, s)
  | k + 1, s =>
    if s.camLoad + s.camRate c ≤ s.get ISP_STATUS_CAP then (true, s)
    else match s.camLowest (some c) with
      | some q => if q = c then (false, s) else camAdmit c now k (camAbort q now s)
      | none => (false, s)

/-- A fall of CAP aborts admitted frames until they fit (R336). -/
def camCapFall (now : Nat) : Nat → Dev → Dev
  | 0, s => s
  | k + 1, s =>
    if s.camLoad ≤ s.get ISP_STATUS_CAP then s
    else match s.camLowest none with
      | some q => camCapFall now k (camAbort q now s)
      | none => s

/-! ### Exposure settings (R352, R353) -/

/-- The quality of the tag of frame `f` (R353). Before any commit the spec gives none: a free value
(log entry 47). -/
def camTagQ (e : Option ExpSet) (f : Nat) (s : Dev) : Nat × Dev :=
  match e with
  | none => s.fresh 2
  | some e =>
    match e.doneAt with
    | some m => (if m ≤ e.frame + 1 || m + 2 ≤ f then qGood else qSuspect, s)
    | none => (qSuspect, s)

/-- The I2C controller of port `c` is free for a sequence. -/
def Dev.i2cFree (s : Dev) (c : Camera) : Bool := !s.on (ISP_I2C_STAT_BUSY c) && (s.cam c).seqRun.isNone

/-- A sequence that waits starts when its controller is free (R353, R355). -/
def camSeqStart (c : Camera) (s : Dev) : Dev :=
  match (s.cam c).seqWait with
  | t :: q =>
    if s.i2cFree c then
      (s.camMod c fun p => { p with seqRun := some (t, false), seqWait := q }).put (ISPC_STATUS_EXP_BUSY c) 1
    else s
  | [] => s

/-- The commit of EXPOSURE and GAIN at the VS edge of frame `n`: a change takes the next tag and a sequence (R352). -/
def camExposure (c : Camera) (n : Nat) (before after : Nat × Nat) (s : Dev) : Dev :=
  if before = after then s
  else
    let tag := (s.get (ISPC_EXP_TAG_TAG c) + 1) % 256
    let s := s.put (ISPC_EXP_TAG_TAG c) tag
    let s := s.camMod c fun p =>
      { p with sets := (⟨tag, after.1, after.2, n, none⟩ :: p.sets).take 8, seqWait := p.seqWait ++ [tag] }
    camSeqStart c s

/-- An exposure sequence ends (R353): it completes, or is repeated once from step 1, or fails. -/
def camSeqDone (c : Camera) (ok : Bool) (s : Dev) : Dev :=
  match (s.cam c).seqRun with
  | none => s
  | some (t, again) =>
    if !ok && !again then s.camMod c fun p => { p with seqRun := some (t, true) }
    else
      let m := s.reg (ISPC_FRAME_NO c) + 1
      let mark (e : ExpSet) : ExpSet := if ok && e.tag == t && e.doneAt.isNone then { e with doneAt := some m } else e
      let s := (s.camMod c fun p => { p with seqRun := none, sets := p.sets.map mark }).put (ISPC_STATUS_EXP_BUSY c) 0
      let s := if ok then s
        else
          let s := fault 0x72 sevInfo c.val s
          let s := camFlag c (ISPC_FLAGS_EXP_FAIL c) 0x72 s
          camFlag c (ISPC_FLAGS_I2C_ERR c) 0x73 (fault 0x73 sevInfo c.val s)
      if s.on (ISP_I2C_STAT_PENDING c) && (s.cam c).seqWait.isEmpty then
        (s.put (ISP_I2C_STAT_PENDING c) 0).put (ISP_I2C_STAT_BUSY c) 1
      else camSeqStart c s

/-! ### A frame -/

/-- The frame settings that commit at the VS edge: BLACK0 to 7, SHADE_BASE, DPC, IRSUB0, IRSUB1, LUMA0, LUMA1 (R339). -/
def Dev.camSettings (s : Dev) (c : Camera) : List Nat :=
  ((List.range 8).map fun j => s.reg (ISPC_BLACK c j)) ++
    [s.reg (ISPC_SHADE_BASE c), s.reg (ISPC_DPC c), s.reg (ISPC_IRSUB0 c), s.reg (ISPC_IRSUB1 c), s.reg (ISPC_LUMA0 c),
      s.reg (ISPC_LUMA1 c)]

/-- The VS edge of a port, at `now` (R333, R336, R350, R352, R353, R585). -/
def camVs (c : Camera) (now : Nat) (s : Dev) : Dev :=
  if !s.on (ISPC_CTRL_EN c) then s else
  -- the frame before is malformed if it still captures (R333)
  let s := match (s.cam c).capturing, (s.cam c).frames.getLast? with
    | true, some f => camDrop c f 4 now s
    | _, _ => s
  let n := (s.reg (ISPC_FRAME_NO c) + 1) % 2 ^ 32
  let s := s.setReg (ISPC_FRAME_NO c) n
  let before := (s.reg (ISPC_EXPOSURE c), s.reg (ISPC_GAIN c))
  let base := 0xD0100 + c.val * 0x100
  let s := s.commit .vsEdge base (base + 0x100)
  let s := camExposure c n before (s.reg (ISPC_EXPOSURE c), s.reg (ISPC_GAIN c)) s
  let triggered := s.on (ISPC_TRIG_MODE c)
  let trig := (s.cam c).triggers.head?
  let s := if triggered then s.camMod c fun p => { p with triggers := p.triggers.tail } else s
  let e := (s.cam c).setFor n
  let (q, s) := camTagQ e n s
  let (src, sec, ns, keep) := match triggered, trig with
    | true, some t => (t.src, t.sec, t.ns, t.keep)
    | _, _ => (0, now / 1000000000, now % 1000000000, false)
  let fmt := s.get (ISPC_OUT_FORMAT c)
  let f : CamFrame := {
    no := n, src := src, sec := sec, ns := ns, keep := keep,
    exposure := (e.map (·.exposure)).getD 0, gain := (e.map (·.gain)).getD 0, tag := (e.map (·.tag)).getD 0, expQ := q,
    layer := s.reg TRD_LAYER, width := s.camW c, height := s.camH c, format := fmt, settings := s.camSettings c,
    lines := [], taken := 0, slot := none, admitted := false }
  if triggered && trig.isNone then camDrop c f 6 now s
  else
    let (ok, s) := camAdmit c now 8 s
    if ok then
      camAdmitted (s.camMod c fun p => { p with frames := p.frames ++ [{ f with admitted := true }], capturing := true })
    else camDrop c f 1 now s

/-- The width of the captured samples (R334): DW limited to 8 to 16, or 8 in PACK8. -/
def Dev.camBits (s : Dev) (c : Camera) : Nat :=
  if s.on (ISPC_PORT_PACK8 c) then 8 else clampN 8 16 (s.get (ISPC_PORT_DW c))

def setFrame (c : Camera) (f : CamFrame) (s : Dev) : Dev :=
  s.camMod c fun p => { p with frames := p.frames.map fun x => if x.no = f.no then f else x }

/-- The pixel bytes of a frame, in whole 32-byte units (R346). -/
def CamFrame.pixRoom (f : CamFrame) : Nat := divUp (f.width * f.height * pixelSize f.format) 32 * 32

/-- The size of a ring slot (R346). -/
def CamFrame.slotSize (f : CamFrame) : Nat := divUp (32 + f.pixRoom + 1600) 4096 * 4096

/-- The DRAM address of a ring slot (R346). -/
def Dev.ringAddr (s : Dev) (c : Camera) (f : CamFrame) (slot : Nat) : Nat :=
  s.reg (ISPC_OUT_BASE c) % 65536 * 1048576 + slot * f.slotSize

/-- The next usable ring slot: in order, but neither exported nor read by Tapestry nor of a frame in progress (R346). -/
def Dev.ringSlot (s : Dev) (c : Camera) : Option Nat :=
  let n := max 2 (s.reg (ISPC_OUT_SLOTS c) % 256)
  let p := s.cam c
  ((List.range n).map fun k => (p.nextSlot + k) % n).find? fun k =>
    !p.exporting.contains k && !p.shown.contains k && !p.frames.any fun f => f.slot == some k

/-- The port of highest priority that holds a complete line (R335). -/
def Dev.camPick (s : Dev) : Option Camera :=
  (List.finRange 4).foldl (fun best c =>
    if (s.cam c).frames.any fun f => f.admitted && decide (f.taken < f.lines.length) then
      match best with
      | none => some c
      | some b => if s.camLower b c then some c else best
    else best) none

/-- The idle pipeline takes the next complete line (R335); the first line of a frame takes its ring slot (R346). The
first argument bounds the frames dropped for want of a slot. -/
def pipeNext (now : Nat) : Nat → Dev → Dev
  | 0, s => s
  | k + 1, s =>
    if s.isp.line.isSome || !s.on ISP_CTRL_ENABLE then s
    else match s.camPick with
      | none => s
      | some c =>
        match (s.cam c).frames.find? fun f => f.admitted && decide (f.taken < f.lines.length) with
        | none => s
        | some f =>
          let go (f : CamFrame) (s : Dev) : Dev :=
            let s := setFrame c f s
            { s with isp := { s.isp with line := some (c.val, f.no) } }
          match f.slot with
          | some _ => go f s
          | none =>
            match s.ringSlot c with
            | some k => go { f with slot := some k }
                (s.camMod c fun p => { p with nextSlot := (k + 1) % max 2 (s.reg (ISPC_OUT_SLOTS c) % 256) })
            | none => pipeNext now k (camDrop c f 5 now s)

/-- A line of port `c` is complete in its bobbin (R333 to R335, R337, R338). -/
def camLine (c : Camera) (raw : List Nat) (now : Nat) (s : Dev) : Dev :=
  if !s.on (ISPC_CTRL_EN c) || !(s.cam c).capturing then s
  else match (s.cam c).frames.getLast? with
    | none => s
    | some f =>
      let b := s.camBits c
      let line := raw.map fun v => v % 2 ^ b * 2 ^ (16 - b)
      if raw.length ≠ f.width then camDrop c f 4 now s
      else
      let (ok, s) := linePush (48 + c.val) (lineBytes line) s
      if !ok then camDrop c f 3 now (camFlag c (ISPC_FLAGS_OVERFLOW c) 0x14 s)
      else
        let f := { f with lines := f.lines ++ [line] }
        let s := setFrame c f s
        let s := if f.lines.length = f.height then s.camMod c fun p => { p with capturing := false } else s
        pipeNext now 8 s

/-- The pipeline finishes its line and takes the next (R335); the last line of a frame ends its admission (R336). -/
def pipeLine (now : Nat) (s : Dev) : Dev :=
  match s.isp.line with
  | none => s
  | some (c, no) =>
    let c : Camera := ⟨c % 4, Nat.mod_lt _ (by decide)⟩
    let s : Dev := { s with isp := { s.isp with line := none } }
    match (s.cam c).frames.find? (·.no == no) with
    | none => pipeNext now 8 s
    | some f =>
      let taken := f.taken + 1
      let f := { f with taken := taken, admitted := f.admitted && decide (taken < f.height) }
      pipeNext now 8 (camAdmitted (setFrame c f (linePop (48 + c.val) f.width 1 s)))

/-- The pixel configuration of a frame (R339 to R345). -/
def Dev.pixelCfg (s : Dev) (c : Camera) (f : CamFrame) : PixelCfg :=
  let st (i : Nat) : Nat := f.settings.getD i 0
  let m0 := s.reg (ISPC_MOSAIC0 c)
  let m1 := s.reg (ISPC_MOSAIC1 c)
  let mosaic := (List.range 16).map fun k =>
    if k < 10 then bits m0 (3 * k + 2) (3 * k) else bits m1 (3 * (k - 10) + 2) (3 * (k - 10))
  let entries := ((List.range 4096).map fun e => s.reg (ISP_DPC e)).takeWhile fun v => v ≠ 0xFFFFFFFF
  let kept := (entries.foldl (fun (acc : Option Nat × List Nat) v =>
    match acc.1 with
    | some p => if p < v then (some v, v :: acc.2) else (some v, acc.2)
    | none => (some v, [v])) (none, [])).2
  let defects := (kept.filter fun v => bits v 31 30 == c.val).map fun v => (bits v 16 4, bits v 29 17)
  let dpc := st 9
  let base := st 8 / 32 * 32
  let gains := if bit dpc 18 then
      (List.range 5).map fun t => (List.range 1089).map fun i => s.creelNat (base + t * 2208 + 2 * i) 2
    else []
  { w := f.width, h := f.height,
    blacks := (List.range 16).map fun k => bits (st (k / 2)) (16 * (k % 2) + 15) (16 * (k % 2)),
    mosaic := mosaic, defects := defects, staticEn := bit dpc 17, dynEn := bit dpc 16, dynThr := dpc % 65536,
    shadeEn := bit dpc 18, gains := gains,
    kr := st 10 % 65536, kg := st 10 / 65536, kb := st 11 % 65536,
    kyr := st 12 % 65536, kyg := st 12 / 65536, kyb := st 13 % 65536, format := f.format }

/-- The defect table as the pipeline starts (R340): how many entries are in force, and whether one was out of order. -/
def Dev.dpcCheck (s : Dev) : Nat × Bool :=
  let entries := ((List.range 4096).map fun e => s.reg (ISP_DPC e)).takeWhile fun v => v ≠ 0xFFFFFFFF
  let r := entries.foldl (fun (acc : Option Nat × Nat × Bool) v =>
    match acc.1 with
    | some p => if p < v then (some v, acc.2.1 + 1, acc.2.2) else (some v, acc.2.1, true)
    | none => (some v, 1, acc.2.2)) (none, 0, false)
  r.2

/-- The pipeline starts (R340, R358). -/
def ispEnable (s : Dev) : Dev :=
  let (n, bad) := s.dpcCheck
  let s := s.setReg ISP_DPC_COUNT n
  if bad then flagEvent ISP_FLAGS_DPC_ORDER 204 0xFF 0 s else s

/-- A frame's statistics record is complete in its ring slot: the frame is delivered (R346 to R350, R356). -/
def camDeliver (c : Camera) (now : Nat) (s : Dev) : Dev :=
  match (s.cam c).frames.find? fun f => f.taken == f.height && 0 < f.height with
  | none => s
  | some f =>
    match f.slot with
    | none => s
    | some slot =>
      let (pix, stats) := (s.pixelCfg c f).output f.lines
      let head := camHeader c f qGood 0
      let a := s.ringAddr c f slot
      let room := f.pixRoom
      let s := dramWrite (a + 32 + room) (head ++ stats) (dramWrite (a + 32) pix (dramWrite a head s))
      let s := s.count (ISPC_FRAMES c) 1
      let s := s.setReg (ISPC_EXP_TAG c) (putBits (s.reg (ISPC_EXP_TAG c)) 15 8 f.tag)
      let s := s.camMod c fun p =>
        { p with latest := some ⟨slot, f.width, f.height, f.format, s.reg TAP_FRAME_NO⟩, delivered := p.delivered + 1 }
      -- the first frame of the post-scan capture is Trim's (R538)
      let s : Dev := if s.get TRD_STATE_STATE = 6 && s.get TRM_REG_CFG_REG_CAM = c.val && s.trm.image.isNone then
        { s with trm := { s.trm with image := (s.cam c).latest } } else s
      let x := s.exportOf c f
      let s := if x = 0 then s else s.camMod c fun p => { p with exporting := p.exporting ++ [slot] }
      let s := if x = 1 then sendImage (imageTag 0x80000000 c f.no) (head ++ pix) .none s else s
      let s := if x = 0 then s else sendImage (imageTag 0x90000000 c f.no) (head ++ stats) (.image c.val) s
      camEnd c f now s

/-- The last line has not arrived within 1 s of the VS edge (R333). -/
def camTimeout (c : Camera) (now : Nat) (s : Dev) : Dev :=
  match (s.cam c).capturing, (s.cam c).frames.getLast? with
  | true, some f => camDrop c f 4 now s
  | _, _ => s

/-- A trigger has seen no VS edge within TRIG_TMO (R350). -/
def camTrigTmo (c : Camera) (s : Dev) : Dev :=
  match (s.cam c).triggers with
  | [] => s
  | _ :: q => camFlag c (ISPC_FLAGS_TRIG_TMO c) 0 (s.camMod c fun p => { p with triggers := q })

/-! ### I2C controllers (R354, R355) -/

/-- A write to ISP_I2Ci_CMD with bit 0 (R354, R355). -/
def i2cCmd (c : Camera) (s : Dev) : Dev :=
  if s.on (ISP_I2C_STAT_BUSY c) || s.on (ISP_I2C_STAT_PENDING c) then s
  else if (s.cam c).seqRun.isSome then s.put (ISP_I2C_STAT_PENDING c) 1
  else s.put (ISP_I2C_STAT_BUSY c) 1

/-- A host transaction ends (R354, R355): 0 done, 1 NACK, 2 timeout; the bytes read, byte 0 in the low bits. -/
def i2cDone (c : Camera) (result rdata : Nat) (s : Dev) : Dev :=
  if !s.on (ISP_I2C_STAT_BUSY c) then s
  else
    let rn := min (s.get (ISP_I2C_XFER_RN c)) 4
    let r := min (result % 4) 2
    let s := (s.put (ISP_I2C_STAT_BUSY c) 0).put (ISP_I2C_STAT_RESULT c) r
    let s := if r = 0 then s.setReg (ISP_I2C_RDATA c) (putBits (s.reg (ISP_I2C_RDATA c)) 31 0
        (if rn = 0 then s.reg (ISP_I2C_RDATA c) else putBits (s.reg (ISP_I2C_RDATA c)) (8 * rn - 1) 0 rdata)) else s
    let s := if r = 0 then s else camFlag c (ISPC_FLAGS_I2C_ERR c) 0x73 (fault 0x73 sevInfo c.val s)
    camSeqStart c s

/-- The counters of a port restart when SCAN begins (R359). -/
def camRestart (s : Dev) : Dev :=
  (List.range 4).foldl (fun (t : Dev) c =>
    ((t.setReg (ISPC_FRAMES c) 0).setReg (ISPC_DROPS c) 0).setReg (ISPC_TRIG_MISS c) 0) s

end Sys2Proof.Machine
end

