-- ==== Sys2Proof/Machine/Cameras.lean ====
section
/-!
DEFINITION. The commands of the camera ports, the image pipeline and the I2C controllers (R332 to R361). `tau` is the time
in ns from the start of the current tick.
-/
namespace Sys2Proof.Machine

open Reg

/-- A command of camera port `c`, which its pixel clock brings. -/
def actCam (c : Camera) (f : Dev → Dev) (s : State) : Done := actIn (6 + c.val) f s

/-- A VS edge (R333, R336, R350, R352). -/
def execVsEdge (c : Camera) (tau : Nat) (s : State) : Done := actCam c (fun d => camVs c (d.t0.nanos + tau) d) s

/-- A line with these raw samples is complete (R333 to R335, R338). -/
def execLineComplete (c : Camera) (samples : List Nat) (tau : Nat) (s : State) : Done :=
  actCam c (fun d => camLine c samples (d.t0.nanos + tau) d) s

/-- The pipeline finishes a line (R335). -/
def execPipelineLineDone (tau : Nat) (s : State) : Done := actIn 3 (fun d => pipeLine (d.t0.nanos + tau) d) s

/-- A frame's statistics record is complete in its ring slot (R346). -/
def execFrameDelivered (c : Camera) (tau : Nat) (s : State) : Done :=
  actIn 3 (fun d => camDeliver c (d.t0.nanos + tau) d) s

/-- The last line has not arrived within 1 s of VS (R333). -/
def execFrameTimeout (c : Camera) (tau : Nat) (s : State) : Done :=
  actFab (fun d => camTimeout c (d.t0.nanos + tau) d) s

/-- A write of 1 to ISP_c_TRIG_NOW (R349). -/
def execTrigNow (c : Camera) (tau : Nat) (s : State) : Done :=
  actFab (fun d => camTrigger c 3 false false (d.t0.nanos + tau) d) s

/-- A trigger has seen no VS edge within TRIG_TMO (R350). -/
def execTrigTmo (c : Camera) (s : State) : Done := actFab (camTrigTmo c) s

/-- An exposure sequence has ended, acknowledged throughout or not (R353). -/
def execExpSequenceDone (c : Camera) (ok : Bool) (s : State) : Done := actMch (camSeqDone c ok) s

/-- A write of 1 to ISP_I2Ci_CMD (R354). -/
def execI2cCmd (c : Camera) (s : State) : Done := actMch (i2cCmd c) s

/-- A host transaction ends with RESULT `result` and the bytes read (R354, R355). -/
def execI2cDone (c : Camera) (result : Fin 3) (rdata : Word) (s : State) : Done :=
  actMch (i2cDone c result.val rdata.toNat) s

end Sys2Proof.Machine
end

