-- ==== Sys2Proof/Machine/MeltOps.lean ====
section
/-!
DEFINITION. The operations of the melt-pool unit: pyrometry (R211 to R215), targets (R216 to R218), coax frames and their
descriptors (R219 to R228), the thermal history map (R229 to R234), the heat feedforward (R235 to R237) and the raw archive
(R238, R239).
-/
namespace Sys2Proof.Machine

open Reg

def Dev.mst (s : Dev) (n : Station) : MeltStation := vat s.mpl.st n

def Dev.mplMod (s : Dev) (f : Melt → Melt) : Dev := { s with mpl := f s.mpl }

/-- A flag of MPL_n_FLAGS set, with E160 + n when it changes (R240). -/
def mplFlag (n : Station) (f : Field) (code : Nat) (s : Dev) : Dev := flagEvent f (160 + n.val) n.val code s

/-- A flag of MPL_FLAGS set, with E160 + EVT_STATION when it changes (R240). -/
def mplGlobal (f : Field) (code : Nat) (s : Dev) : Dev := flagEvent f (160 + s.get MPL_CTRL_EVT_STATION) 0xFF code s

/-! ### Pyrometry (R211 to R215) -/

/-- Entry `i` of the station's table (R213). -/
def Dev.ttab (s : Dev) (n : Station) (i : Nat) : Nat := s.creelNat (s.reg (MPLS_TTAB_BASE n) / 32 * 32 + 2 * i) 2

/-- A sample of the pyrometer: the raw counts, the station's saturation bit and qualities. -/
structure PyroPair where
  s1 : Nat
  s2 : Nat
  psat : Bool
  q1 : Nat
  q2 : Nat

/-- Temperature and quality of a tick's sample; none where the link is out of alignment or the early check failed (R211 to
R213, R215). -/
def pyroValue (n : Station) (pair : Option PyroPair) (s : Dev) : Nat × Nat × Dev :=
  match pair with
  | none => (0, qInvalid, s)
  | some p =>
    let sat := s.reg (MPLS_SAT_LVL n) % 65536
    if !s.on (MPLS_CTRL_EN n) || !s.on (MPLS_CTRL_TEMP_EN n) then (0, qInvalid, s)
    else if sat ≤ p.s1 || sat ≤ p.s2 || p.psat then (0, qInvalid, mplFlag n (MPLS_FLAGS_PYRO_SAT n) 0 s)
    else
      let a1 : Int := (p.s1 : Int) - s.get (MPLS_DARK_D1 n)
      let a2 : Int := (p.s2 : Int) - s.get (MPLS_DARK_D2 n)
      let den := asr (a2 * (s.reg (MPLS_GAIN n) : Int)) 16
      let least : Int := s.reg (MPLS_SIG_MIN n) % 65536
      if a1 < least || a2 < least || den ≤ 0 then (0, qInvalid, s)
      else if s.on (MPLS_STATUS_TRIM_HOLD n) then (s.reg (MPLS_TEMP n) % 65536, qStale, s)
      else
        let r := min (a1.toNat * 2 ^ 20 / den.toNat) (2 ^ 24 - 1)
        let s := s.setReg (MPLS_RATIO n) r
        let lo := s.get (MPLS_RATIO_LO_R_LO n)
        let sh := min (s.get (MPLS_RATIO_SH_RSH n)) 14
        let q := worst p.q1 p.q2
        if r < lo then (s.ttab n 0, worst qSuspect q, mplFlag n (MPLS_FLAGS_PYRO_RANGE n) 0 s)
        else if lo + 1024 * 2 ^ sh ≤ r then (s.ttab n 1024, worst qSuspect q, mplFlag n (MPLS_FLAGS_PYRO_RANGE n) 0 s)
        else
          let idx := (r - lo) / 2 ^ sh
          let f := (r - lo) % 2 ^ sh
          let t0 : Int := s.ttab n idx
          let t1 : Int := s.ttab n (idx + 1)
          let half : Int := if sh = 0 then 0 else ((2 ^ (sh - 1) : Nat) : Int)
          ((t0 + asr ((t1 - t0) * (f : Int) + half) sh).toNat % 65536, q, s)

/-- The temperature sample of tick `tick` in station Sn's mailbox (R212, R214). -/
def pyroSample (n : Station) (tick : Nat) (pair : Option PyroPair) (s : Dev) : Dev :=
  let (t, q, s) := pyroValue n pair s
  let s := s.setReg (MPLS_TEMP n) (q * 65536 + t)
  s.mstMod n fun m => { m with temps := ((tick, t, q) :: m.temps).take 512 }

/-- Temperature and quality of the sample of `tick`; INVALID where none has come (R212). -/
def Dev.tempAt (s : Dev) (n : Station) (tick : Nat) : Nat × Nat :=
  match (s.mst n).temps.find? (·.1 == tick) with
  | some (_, t, q) => (t, q)
  | none => (0, qInvalid)

/-! ### Targets (R216 to R218) -/

/-- The Creel byte offset of target buffer `b` (R217). -/
def Dev.tgtAddr (s : Dev) (b : Nat) : Nat := s.reg MPL_TGT_BASE / 4096 * 4096 + b * 0x1000

/-- Field at `off` of target entry `i` in force (R216). -/
def Dev.target (s : Dev) (i off : Nat) : Nat := s.creelNat (s.tgtAddr s.mpl.tgt + 16 * (i % 256) + off) 2

/-- The layer's target table goes to the buffer that is not in force (R217). -/
def loadTargets (table : List Byte) (s : Dev) : Dev :=
  let bs := table.take 4096
  s.setCreelBytes (s.tgtAddr (1 - s.mpl.tgt)) (bs ++ List.replicate (4096 - bs.length) 0)

/-! ### Cells and positions (R229) -/

def Dev.mapW (s : Dev) : Nat := s.reg MPL_MAP_SIZE % 65536
def Dev.mapH (s : Dev) : Nat := s.reg MPL_MAP_SIZE / 65536

/-- The cell of a bed point (R229). -/
def Dev.cellOf (s : Dev) (x y : Int) : Int × Int :=
  ((x - s.regS MPL_MAP_X0) / 50000, (y - s.regS MPL_MAP_Y0) / 50000)

/-- A cell is inside the map. -/
def Dev.inMap (s : Dev) (c : Int × Int) : Bool := 0 ≤ c.1 && c.1 < s.mapW && 0 ≤ c.2 && c.2 < s.mapH

/-- The byte offset of a cell in its buffer (R229). -/
def Dev.cellOffset (s : Dev) (c : Int × Int) : Nat := (c.2.toNat * s.mapW + c.1.toNat) * 8

/-- DRAM byte address of map buffer `b` (0 A, 1 B). -/
def Dev.mapBase (s : Dev) (b : Nat) : Nat := (s.reg (if b = 0 then MPL_MAP_BASE_A else MPL_MAP_BASE_B) % 65536) * 1048576

/-- A cell as stored: WTICK, T_PEAK, STATION (R229). -/
def Dev.cell (s : Dev) (b off : Nat) : Nat × Nat × Nat :=
  let w0 := s.dramNat (s.mapBase b + off) 4
  let w1 := s.dramNat (s.mapBase b + off + 4) 4
  (w0 + bits w1 11 0 * 2 ^ 32, bits w1 31 16, bits w1 15 12)

def Dev.mapTime (s : Dev) : Nat := s.reg MPL_MAP_TIME_LO + bits (s.reg MPL_MAP_TIME_HI) 11 0 * 2 ^ 32
def Dev.mapOpen (s : Dev) : Nat := s.reg MPL_MAP_OPEN_LO + bits (s.reg MPL_MAP_OPEN_HI) 11 0 * 2 ^ 32

def setMapTime (t : Nat) (s : Dev) : Dev := (s.setReg MPL_MAP_TIME_LO (t % 2 ^ 32)).setReg MPL_MAP_TIME_HI (t / 2 ^ 32 % 4096)

/-- VIS_LAG; below 128 acts as 128 (R246). -/
def Dev.visLag (s : Dev) : Nat := max 128 (s.reg MPL_VIS_LAG % 65536)

/-- T_PEAK of a cell of the current map (or the previous one), 0 where it does not belong to that layer or the map is not
ready (R231, R370). -/
def Dev.mapPeak (s : Dev) (previous : Bool) (cx cy : Int) : Nat :=
  if !s.on MPL_STATUS_MAP_READY || !s.inMap (cx, cy) then 0
  else
    let off := s.cellOffset (cx, cy)
    if previous then
      match s.mpl.prev with
      | none => 0
      | some (b, lo, hi) =>
        let (w, t, _) := s.cell b off
        if lo ≤ w && (match hi with | some h => decide (w < h) | none => true) then t else 0
    else
      let (w, t, _) := s.cell (s.get MPL_STATUS_CUR_BUF) off
      if s.mapOpen ≤ w then t else 0

/-! ### Writing the map (R230 to R233) -/

/-- A clear of both buffers starts, once no map export runs (R230). -/
def mapClear (s : Dev) : Dev :=
  if !s.on MPL_CTRL_MAP_EN then s
  else if s.on MPL_STATUS_EXPORTING then s.mplMod fun m => { m with clearWaits := true }
  else
    let s := (s.put MPL_STATUS_MAP_READY 0).put MPL_STATUS_CLEARING 1
    (setMapTime 1 s).mplMod fun m => { m with clearWaits := false, writes := [] }

/-- Cells of the DRAM from `a` on, `n` bytes, become 0: what an unlisted byte reads as. -/
def Dev.zeroDram (s : Dev) (a n : Nat) : Dev := { s with dram := s.dram.filter fun c => c.1 < a || a + n ≤ c.1 }

/-- The clear of both buffers completes (R230). -/
def mapCleared (s : Dev) : Dev :=
  if !s.on MPL_STATUS_CLEARING then s
  else
    let n := s.mapW * s.mapH * 8
    let s := (s.zeroDram (s.mapBase 0) n).zeroDram (s.mapBase 1) n
    (s.put MPL_STATUS_CLEARING 0).put MPL_STATUS_MAP_READY 1

/-- Map time has reached 2^44 − 1 (R230). -/
def mapTimeEnd (s : Dev) : Dev :=
  if s.mapTime = 2 ^ 44 - 1 then mplGlobal MPL_FLAGS_MAP_TIME_END 0 (s.put MPL_STATUS_MAP_READY 0) else s

/-- In LAYER_PREP the layer's map opens in the buffer that does not hold the previous layer (R231). -/
def mapOpenLayer (s : Dev) : Dev :=
  let b := match s.mpl.prev with
    | some (p, _, _) => 1 - p
    | none => s.get MPL_STATUS_CUR_BUF
  let t := s.mapTime
  let s := s.mplMod fun m =>
    { m with prev := m.prev.map fun (p, lo, _) => (p, lo, some t), lateSeen := false, dropSeen := false }
  ((s.put MPL_STATUS_CUR_BUF b).setReg MPL_MAP_OPEN_LO (t % 2 ^ 32)).setReg MPL_MAP_OPEN_HI (t / 2 ^ 32 % 4096)

/-- When LAYER_CLOSE completes the layer's map becomes the previous map (R76, R231). -/
def mapCloseLayer (s : Dev) : Dev :=
  s.mplMod fun m => { m with prev := some (s.get MPL_STATUS_CUR_BUF, s.mapOpen, none) }

/-- The bytes of a cell (R229). -/
def cellBytes (w : CellWrite) : List Byte :=
  leBytes 4 (w.wtick % 2 ^ 32) ++ leBytes 4 (w.temp % 65536 * 65536 + w.station % 16 * 4096 + w.wtick / 2 ^ 32 % 4096)

/-- One cell write is applied to the current map; a late one only into a cell that is not newer (R233). -/
def applyCell (w : CellWrite) (s : Dev) : Dev :=
  let b := s.get MPL_STATUS_CUR_BUF
  if w.late && w.wtick < (s.cell b w.offset).1 then s
  else dramWrite (s.mapBase b + w.offset) (cellBytes w) s

/-- A late write is counted; MAP_LATE is raised once per layer (R233). -/
def lateCell (s : Dev) : Dev :=
  let s := s.count MPL_MAP_LATE 1
  let first := !s.mpl.lateSeen
  let s := mplGlobal MPL_FLAGS_MAP_LATE (if first then 0x52 else 0) s
  if first then fault 0x52 sevInfo 0xFF (s.mplMod fun m => { m with lateSeen := true }) else s

/-- The place of a write in the queue: by WTICK, then by station (R233). -/
def queueCell (w : CellWrite) : List CellWrite → List CellWrite
  | [] => [w]
  | x :: t => if w.wtick < x.wtick || (w.wtick == x.wtick && w.station < x.station) then w :: x :: t else x :: queueCell w t

/-- A cell write arrives (R233): late ones are applied as soon as they arrive. -/
def offerCell (w : CellWrite) (s : Dev) : Dev :=
  if w.wtick + s.visLag ≤ s.mapTime then applyCell { w with late := true } (lateCell s)
  else s.mplMod fun m => { m with writes := queueCell w m.writes }

/-- At a tick boundary map time advances and the due writes are applied, at most 64 (R230, R233). -/
def mapTick (s : Dev) : Dev :=
  let t := min (s.mapTime + 1) (2 ^ 44 - 1)
  let s := setMapTime t s
  let lag := s.visLag
  let due := s.mpl.writes.filter fun w => w.wtick + lag ≤ t
  let now := due.take 64
  let rest := due.drop 64
  let s := s.mplMod fun m =>
    { m with writes := rest.map (fun w => { w with late := true }) ++ m.writes.filter fun w => t < w.wtick + lag }
  let s := now.foldl (fun x w => applyCell w x) s
  rest.foldl (fun x w => if w.late then x else lateCell x) s

/-- The points between two positions, by steps of at most 25,000 nm in each axis (R232). -/
def segmentCells (s : Dev) (a b : Int × Int) : List (Int × Int) :=
  let d := max (b.1 - a.1).natAbs (b.2 - a.2).natAbs
  let k := max 1 (divUp d 25000)
  ((List.range k).map fun (i : Nat) =>
    let j : Int := ((i + 1 : Nat) : Int)
    s.cellOf (a.1 + Int.tdiv ((b.1 - a.1) * j) (k : Int)) (a.2 + Int.tdiv ((b.2 - a.2) * j) (k : Int))).eraseDups

/-- A descriptor writes the map (R232): actual position, temperature, midpoint tick. -/
def mapWrite (n : Station) (pos : Int × Int) (temp mid now : Nat) (s : Dev) : Dev :=
  let wtick := s.mapTime - (now - mid)
  let joined := match (s.mst n).lastWrite with
    | some (x, y, t) =>
      if max (pos.1 - x).natAbs (pos.2 - y).natAbs ≤ 3200000 &&
          (s.mst n).ticks.all fun i => !(t ≤ i.tick && i.tick ≤ mid) || i.on then some (x, y) else none
    | none => none
  let cells := match joined with
    | some a => segmentCells s a pos
    | none => [s.cellOf pos.1 pos.2]
  let s := cells.foldl (fun t c =>
    if t.inMap c then offerCell ⟨wtick, n.val, t.cellOffset c, temp, false⟩ t else t.count MPL_MAP_SKIP 1) s
  s.mstMod n fun m => { m with lastWrite := some (pos.1, pos.2, mid) }

/-! ### Heat feedforward (R235 to R237) -/

/-- DECAY[i] (R246). -/
def Dev.decay (s : Dev) (i : Nat) : Nat := bits (s.reg (MPL_DECAY (i / 2))) (16 * (i % 2) + 15) (16 * (i % 2))

/-- One neighbour's term of R236; `mm` is map time at the start of the tick, `read` that of the tick of the read. -/
def Dev.heatTerm (s : Dev) (n : Station) (cx cy i j : Int) (mm read : Nat) : Nat :=
  let c := (cx + i, cy + j)
  if !s.inMap c then 0
  else
    let (w, t, st) := s.cell (s.get MPL_STATUS_CUR_BUF) (s.cellOffset c)
    let age := mm - w
    let sh := s.get MPL_AGE_SHIFT_SH
    if w < s.mapOpen || read < w + s.visLag then 0
    else if st = n.val && age < s.reg (MPLS_SELF_AGE n) % 2 ^ 24 then 0
    else if 63 * 2 ^ sh ≤ age then 0
    else
      let idx := age / 2 ^ sh
      let f := age % 2 ^ sh
      let d := (s.decay idx : Int) + asr (((s.decay (idx + 1) : Int) - s.decay idx) * (f : Int)) sh
      let wt := if i = 0 && j = 0 then s.get MPL_HEAT_W0_WC
        else if i = 0 || j = 0 then s.get MPL_HEAT_W0_WE
        else s.reg MPL_HEAT_W1 % 65536
      ((t - s.get MPL_HEAT_BASE_BASE) * d.toNat * wt) / 2 ^ 32

/-- ΔT_h of a tick and its quality (R236, R237), from the planned position and the target entry of that tick. -/
def Dev.heat (s : Dev) (n : Station) (x y : Int) (target mm read : Nat) : Nat × Nat :=
  if !s.on (MPLS_CTRL_EN n) || !s.on (MPLS_CTRL_FF_EN n) || !s.on MPL_STATUS_MAP_READY || s.mpl.noMap
      || !s.inMap (s.cellOf x y) then (0, qInvalid)
  else
    let (cx, cy) := s.cellOf x y
    let sum := (([-1, 0, 1] : List Int).map fun j =>
      (([-1, 0, 1] : List Int).map fun i => s.heatTerm n cx cy i j mm read).sum).sum
    (min (sum * s.target target 0x0A / 4096) 32767, qGood)

/-! ### Coax frames (R219 to R227, R258) -/

/-- The pixels of a frame: 10 bits each, packed LSB first in raster order. -/
def unpack10 : Nat → List Byte → List Nat
  | 0, _ => []
  | k + 1, a :: b :: c :: d :: e :: t =>
    let v := leNat [a, b, c, d, e]
    [v % 1024, v / 2 ^ 10 % 1024, v / 2 ^ 20 % 1024, v / 2 ^ 30 % 1024] ++ unpack10 k t
  | _ + 1, _ => []

/-- The 8-connected component that grows from a seed (R220): what is left outside it. -/
def growComponent : Nat → List (Nat × Nat) → List (Nat × Nat) → List (Nat × Nat)
  | 0, _, rest => rest
  | _, [], rest => rest
  | k + 1, p :: front, rest =>
    let near (q : Nat × Nat) : Bool := (max p.1 q.1 - min p.1 q.1 ≤ 1) && (max p.2 q.2 - min p.2 q.2 ≤ 1)
    growComponent k (front ++ rest.filter near) (rest.filter fun q => !near q)

/-- The number of 8-connected components (R220). -/
def components : Nat → List (Nat × Nat) → Nat
  | 0, _ => 0
  | _, [] => 0
  | k + 1, p :: rest => 1 + components k (growComponent (rest.length + 1) [p] rest)

/-- The sums of R220. -/
structure PoolSums where
  peak : Nat
  px : Nat
  py : Nat
  area : Nat
  sx : Nat
  sy : Nat
  sxx : Nat
  syy : Nat
  sxy : Nat
  sat : Bool
  spat : List (Nat × Nat)

/-- One pixel of the reduction (R220). -/
def poolPixel (black thr half spatThr : Nat) (a : PoolSums) (i raw : Nat) : PoolSums :=
  let x := i % 128
  let y := i / 128
  let p := raw - black
  let inwin := 64 - half ≤ x && x ≤ 63 + half && 64 - half ≤ y && y ≤ 63 + half
  let a := { a with sat := a.sat || raw == 1023 }
  let a := if a.peak < p then { a with peak := p, px := x, py := y } else a
  if inwin && thr ≤ p then
    { a with area := a.area + 1, sx := a.sx + x, sy := a.sy + y, sxx := a.sxx + x * x, syy := a.syy + y * y,
             sxy := a.sxy + x * y }
  else if !inwin && spatThr ≤ p then { a with spat := (x, y) :: a.spat }
  else a

/-- Unsigned Q8.8, rounded half up and saturated (R220). -/
def q88 (v : F64) : Nat := satU 16 ((F64.toFixed v 9 + 1) / 2)

/-- CX, CY, MAJOR, MINOR and ANGLE (R220). -/
def poolShape (a : PoolSums) : Nat × Nat × Nat × Nat × Int :=
  if a.area = 0 then (0, 0, 0, 0, 0)
  else
    let n := F64.ofInt a.area
    let mean (k : Nat) : F64 := F64.div (F64.ofInt k) n
    let mx := mean a.sx
    let my := mean a.sy
    let mxx := F64.sub (mean a.sxx) (F64.mul mx mx)
    let myy := F64.sub (mean a.syy) (F64.mul my my)
    let mxy := F64.sub (mean a.sxy) (F64.mul mx my)
    let two := F64.ofInt 2
    let d := F64.div (F64.sub mxx myy) two
    let h := F64.sqrt (F64.add (F64.mul d d) (F64.mul mxy mxy))
    let m := F64.div (F64.add mxx myy) two
    let major := F64.mul two (F64.sqrt (F64.add m h))
    let low := F64.sub m h
    let minor := F64.mul two (F64.sqrt (if F64.lt low F64.zero then F64.zero else low))
    let angle := F64.atan2Fixed (F64.mul two mxy) (F64.sub mxx myy)
    (q88 mx, q88 my, q88 major, q88 minor, divNear (angle * 32768) (2 * F64.piFixed))

/-- The midpoint tick of an exposure (R219). -/
def CoaxTrig.mid (t : CoaxTrig) : Nat := t.tick + t.len / 2 / 500

/-- The ticks whose start lies in the exposure; the first alone for a shorter one (R222). -/
def CoaxTrig.span (t : CoaxTrig) : Nat := max 1 (divUp t.len 500)

/-- TEMP, TEMP_Q and TEMP_N (R222). -/
def Dev.exposureTemp (s : Dev) (n : Station) (t : CoaxTrig) : Nat × Nat × Nat :=
  let good := ((List.range t.span).map fun i => s.tempAt n (t.tick + i)).filter (·.2 == qGood)
  let k := good.length
  if k = 0 then (0, qInvalid, 0)
  else ((good.map (·.1)).sum / k, if t.span ≤ 2 * k then qGood else qSuspect, min k 255)

/-- What the tick was at the station. -/
def Dev.tickInfo (s : Dev) (n : Station) (tick : Nat) : TickInfo :=
  ((s.mst n).ticks.find? (·.tick == tick)).getD ⟨tick, false, 0, false, 0, 0⟩

/-- The actual position of the period that holds a tick (R156); INVALID where none is known. -/
def Dev.actAt (s : Dev) (n : Station) (tick : Nat) : Int × Int × Nat :=
  match (s.mst n).acts.find? (·.1 == tick / 4) with
  | some (_, x, y, q) => (x, y, q)
  | none => (0, 0, qInvalid)

/-- A descriptor is dropped (R228). -/
def descDrop (s : Dev) : Dev :=
  let s := s.count MPL_DESC_DROPS 1
  let first := !s.mpl.dropSeen
  let s := mplGlobal MPL_FLAGS_DESC_DROP (if first then 0x51 else 0) s
  if first then fault 0x51 sevInfo 0xFF (s.mplMod fun m => { m with dropSeen := true }) else s

/-- A descriptor drains from its bobbin into the DRAM ring (R228), and to the host with DESC_EXPORT. -/
def descDrain (n : Station) (s : Dev) : Dev :=
  let size := s.reg MPL_DESC_SIZE % 65536 * 1048576 / 32
  match bobPop (32 + n.val) 1 s with
  | (none, s) => s
  | (some bs, s) =>
    let fill := s.reg MPL_DESC_FILL
    let exportOn := s.on MPL_CTRL_DESC_EXPORT
    if size = 0 || (exportOn && size ≤ fill) then descDrop s
    else
      let k := s.mpl.descNext % size
      let s := dramWrite (s.reg MPL_DESC_BASE % 65536 * 1048576 + 32 * k) bs s
      let s := (s.setReg MPL_DESC_FILL (min (fill + 1) size)).mplMod fun m => { m with descNext := (k + 1) % size }
      if exportOn then sendImage 0xC0000000 bs .descriptors s else s

/-- The eight words of a descriptor go to bobbin 32 + n and on (R224, R228); those of MARK picks also to Trim. -/
def descWrite (n : Station) (words : List Nat) (info : TickInfo) (s : Dev) : Dev :=
  let (ok, s) := bobPush (32 + n.val) (wordsBytes words) s
  let pooled := info.mark && !bit (words.getD 4 0) 28
  let s := if pooled then s.mstMod n fun m => { m with marks := info.pick :: m.marks } else s
  if ok then descDrain n (s.count (MPLS_DESC_CNT n) 1) else descDrop s

/-- CELL_Y and CELL_X (R223). -/
def Dev.cellWord (s : Dev) (pos : Int × Int × Nat) : Nat :=
  let c := s.cellOf pos.1 pos.2.1
  if pos.2.2 = qInvalid || !s.inMap c then 0xFFFFFFFF else c.2.toNat % 65536 * 65536 + c.1.toNat % 65536

/-- An incomplete frame is counted; COAX_FRAME once per pick (R226). -/
def frameBad (n : Station) (s : Dev) : Dev :=
  let first := !(s.mst n).badSeen
  let s := s.count (MPLS_FRAMES_BAD n) 1
  let s := mplFlag n (MPLS_FLAGS_FRAME_BAD n) (if first then 0x50 else 0) s
  if first then fault 0x50 sevInfo n.val (s.mstMod n fun m => { m with badSeen := true }) else s

/-! ### The archive (R238, R239) -/

/-- Records the archive ring of Sn holds. -/
def Dev.archRoom (s : Dev) (n : Station) : Nat := s.reg (MPLS_ARCH_SIZE n) % 65536 * 1048576 / 20512

/-- The archive freezes (R239). -/
def archFreeze (n : Station) (s : Dev) : Dev :=
  if s.on (MPLS_STATUS_FROZEN n) || !s.on (MPLS_CTRL_ARCH_EN n) then s
  else
    let s := (s.put (MPLS_STATUS_FROZEN n) 1).mstMod n fun m => { m with archPost := none }
    mplFlag n (MPLS_FLAGS_ARCH_FROZE n) 0x54 (fault 0x54 sevInfo n.val s)

/-- The archive is throttled by temperature supervision (R239, R559). -/
def Dev.archThrottled (s : Dev) : Bool := s.get THM_STATUS_LEVEL == 2 && bit (s.reg THM_THR_ACT) 2

/-- A complete frame is archived, or counted as not archived (R238, R239). -/
def archFrame (n : Station) (f : CoaxFrame) (q : Nat) (sat : Bool) (s : Dev) : Dev :=
  let room := s.archRoom n
  if !s.on (MPLS_CTRL_ARCH_EN n) then s
  else if s.on (MPLS_STATUS_FROZEN n) || s.on (MPLS_STATUS_EXPORTING n) || s.archThrottled || room = 0
      || (s.mst n).archPost = some 0 then
    s.count (MPLS_ARCH_SKIP n) 1
  else
    let k := (s.mst n).archNext % room
    let head := wordsBytes [f.trig.no, f.trig.sched % 2 ^ 32,
      f.trig.sched / 2 ^ 32 % 256 + n.val * 256 + q * 4096 + b2n sat * 32768, f.trig.len, s.reg TRD_LAYER, 0, 0, 0]
    let s := dramWrite (s.reg (MPLS_ARCH_BASE n) % 65536 * 1048576 + k * 20512) (head ++ f.pixels) s
    let s := s.setReg (MPLS_ARCH_HELD n) (min (s.reg (MPLS_ARCH_HELD n) + 1) room)
    s.mstMod n fun m => { m with archNext := (k + 1) % room, archPost := m.archPost.map fun p => p - 1 }

/-- The frame number of an archive record (R239). -/
def Dev.archTag (s : Dev) (n : Station) (a : Nat) : Nat := 0xA0000000 + n.val * 2 ^ 24 + s.dramNat a 4 % 2 ^ 24

/-- READ (R239): a frozen ring is sent oldest first. -/
def archRead (n : Station) (s : Dev) : Dev :=
  if !s.on (MPLS_STATUS_FROZEN n) || s.on (MPLS_STATUS_EXPORTING n) then s
  else
    let held := s.reg (MPLS_ARCH_HELD n)
    let room := s.archRoom n
    let s := s.put (MPLS_ARCH_CTRL_READ n) 1
    if held = 0 || room = 0 then s
    else
      let first := ((s.mst n).archNext + room - held % (room + 1)) % room
      let base := s.reg (MPLS_ARCH_BASE n) % 65536 * 1048576
      (List.range held).foldl (fun t i =>
        let a := base + (first + i) % room * 20512
        sendImage (t.archTag n a) (t.dramBytes a 20512) (if i + 1 = held then .archive n.val else .none) t)
        (s.put (MPLS_STATUS_EXPORTING n) 1)

/-- RESUME (R239). -/
def archResume (n : Station) (s : Dev) : Dev :=
  let s := (s.put (MPLS_STATUS_FROZEN n) 0).put (MPLS_ARCH_CTRL_READ n) 0
  s.mstMod n fun m => { m with archPost := none }

/-! ### A frame's end (R221 to R227) -/

/-- The descriptor of an incomplete frame (R226): words 0, 1 and 7. -/
def descIncomplete (n : Station) (t : CoaxTrig) (s : Dev) : List Nat :=
  let info := s.tickInfo n t.mid
  [t.sched % 2 ^ 32,
    info.target % 256 * 2 ^ 16 + b2n info.mark * 2 ^ 14 + qInvalid * 2 ^ 12 + n.val * 2 ^ 8 + t.sched / 2 ^ 32 % 256,
    0, 0, 0, 0, 0, s.cellWord (s.actAt n t.mid)]

/-- LASER_ON was set in a tick of the exposure, or ALL_FRAMES (R225). -/
def Dev.frameKept (s : Dev) (n : Station) (t : CoaxTrig) : Bool :=
  s.on (MPLS_CTRL_ALL_FRAMES n) || (List.range t.span).any fun i => (s.tickInfo n (t.tick + i)).on

/-- The oldest frame that is over is reduced, archived, and yields its descriptor (R220 to R226, R232, R238). -/
def frameDone (n : Station) (now : Nat) (s : Dev) : Dev :=
  match (s.mst n).done with
  | [] => s
  | f :: rest =>
    let t := f.trig
    let s := s.mstMod n fun m => { m with done := rest, trigs := m.trigs.filter fun x => x.no ≠ t.no,
                                          awaiting := if m.awaiting = some t.no then none else m.awaiting }
    let coax := s.on (MPLS_CTRL_EN n) && s.on (MPLS_CTRL_COAX_EN n)
    if !f.complete then
      if coax && s.frameKept n t then descWrite n (descIncomplete n t s) (s.tickInfo n t.mid) s else s
    else
      let st (i : Nat) : Nat := f.settings.getD i 0
      let half := max 1 (min 64 (bits (st 1) 22 16))
      let a := ((unpack10 4096 f.pixels).zipIdx).foldl
        (fun (a : PoolSums) e => poolPixel (st 0 % 1024) (st 1 % 1024) half (st 2 % 1024) a e.2 e.1)
        ⟨0, 0, 0, 0, 0, 0, 0, 0, 0, false, []⟩
      let pos := s.actAt n t.mid
      let q := worst pos.2.2 (if a.sat then qSuspect else qGood)
      let s := archFrame n f q a.sat s
      if !coax || !s.frameKept n t then s
      else
        let info := s.tickInfo n t.mid
        let (cx, cy, major, minor, angle) := poolShape a
        let (temp, tq, tn) := s.exposureTemp n t
        let tg (off : Nat) : Nat := s.target info.target off
        let areaOut := tg 8 ≠ 0 && (a.area < tg 6 || tg 8 < a.area)
        let tempOut := tg 4 ≠ 0 && tq == qGood && (temp < tg 2 || tg 4 < temp)
        let noPool := decide (a.area < st 3 % 32768)
        let spatter := min (components (a.spat.length + 1) a.spat) 255
        let words := [t.sched % 2 ^ 32,
          spatter * 2 ^ 24 + info.target % 256 * 2 ^ 16 + b2n a.sat * 2 ^ 15 + b2n info.mark * 2 ^ 14 + q * 2 ^ 12
            + n.val * 2 ^ 8 + t.sched / 2 ^ 32 % 256,
          a.area * 65536 + a.peak, cy * 65536 + cx,
          b2n noPool * 2 ^ 28 + b2n areaOut * 2 ^ 27 + b2n tempOut * 2 ^ 26 + tq * 2 ^ 24 + tn * 2 ^ 16 + temp,
          minor * 65536 + major, a.py * 2 ^ 24 + a.px * 2 ^ 16 + wrapN 16 angle, s.cellWord pos]
        let s := if areaOut then mplFlag n (MPLS_FLAGS_AREA_WINDOW n) 0 s else s
        let s := if tempOut then mplFlag n (MPLS_FLAGS_TEMP_WINDOW n) 0 s else s
        let s := descWrite n words info s
        if s.on (MPLS_CTRL_MAP_WR_EN n) && s.on MPL_STATUS_MAP_READY && !s.mpl.noMap && q ≠ qInvalid && tq ≠ qInvalid
            && !noPool && s.inMap (s.cellOf pos.1 pos.2.1) then
          mapWrite n (pos.1, pos.2.1) temp t.mid now s
        else s

/-- A frame that is being received is over as incomplete (R226). -/
def frameCut (n : Station) (s : Dev) : Dev :=
  match (s.mst n).rx with
  | none => s
  | some f =>
    frameBad n (s.mstMod n fun m => { m with rx := none, done := m.done ++ [{ f with complete := false }] })

/-- The exposure of frame number `no`, from what the device triggered (R258). -/
def Dev.trigOf (s : Dev) (n : Station) (no : Nat) : Option CoaxTrig := (s.mst n).trigs.find? (·.no == no)

/-- A segment of a coax frame arrives (R226, R258): its frame number, first row, rows, FIRST, LAST and packed pixels; `ok`
is the slot's CRC. -/
def coaxSegment (n : Station) (no row rows : Nat) (first last ok : Bool) (bytes : List Byte) (s : Dev) : Dev :=
  -- a new frame, or a gap, ends the frame in progress as incomplete
  let s := match (s.mst n).rx with
    | some f => if first || f.trig.no ≠ no || f.nextRow ≠ row then frameCut n s else s
    | none => s
  let s := match (s.mst n).rx, s.trigOf n no with
    | none, some t =>
      if first && row = 0 then
        let lo := 0xB0000 + n.val * 0x1000
        let s := s.commit .coaxFrame lo (lo + 0x800)
        s.mstMod n fun m => { m with rx := some ⟨t, [], 0, true,
          [s.reg (MPLS_BLACK n), s.reg (MPLS_POOL n), s.reg (MPLS_SPAT n), s.reg (MPLS_AREA_MIN n)]⟩ }
      else s
    | _, _ => s
  match (s.mst n).rx with
  | none => s
  | some f =>
    let n10 := rows * 160
    let bs := bytes.take n10
    -- the segment passes through coax bobbin 16 + n, which its reduction pipeline drains (R219, R410)
    let (fits, s) := bobPush (16 + n.val) (bs ++ List.replicate (480 - bs.length) 0) s
    let (_, s) := bobPop (16 + n.val) 15 s
    let f := { f with pixels := f.pixels ++ bs, nextRow := row + rows, complete := f.complete && ok && fits }
    if !f.complete then frameCut n (s.mstMod n fun m => { m with rx := some f })
    else if last then
      if row + rows = 128 then s.mstMod n fun m => { m with rx := none, done := m.done ++ [f] }
      else frameCut n (s.mstMod n fun m => { m with rx := some f })
    else s.mstMod n fun m => { m with rx := some f }

/-- The station has completed its layer: its final laser-off edge, and the frame whose descriptor is the layer's last
(R227). -/
def meltComplete (n : Station) (s : Dev) : Dev :=
  match ((s.mst n).ticks.find? (·.on)) with
  | none => s
  | some i =>
    let coax := s.on (MPLS_CTRL_EN n) && s.on (MPLS_CTRL_COAX_EN n)
    let last := (s.mst n).trigs.find? fun t => decide (t.tick ≤ i.tick)
    let wait := match last with | some t => if coax && s.frameKept n t then some t.no else none | none => none
    s.mstMod n fun m => { m with lastOff := some (i.tick + 1), awaiting := wait }

/-- The last frame of the layer has not arrived within 60 µs of the station's final laser-off edge (R227). -/
def lastDescriptor (n : Station) (s : Dev) : Dev :=
  match (s.mst n).awaiting, (s.mst n).lastOff with
  | some no, some k =>
    if s.t0.tick < k + 120 then s else
    let t := (s.trigOf n no).getD ⟨no, 0, 0, 0⟩
    let s := frameBad n (s.mstMod n fun m => { m with rx := none, awaiting := none, trigs := m.trigs.filter fun x => x.no ≠ no })
    descWrite n (descIncomplete n t s) (s.tickInfo n t.mid) s
  | _, _ => s

/-- SCAN begins (R217, R237, R241): the target buffers are switched, the counters restart, and the map is ready or not. -/
def meltScan (s : Dev) : Dev :=
  let s := (List.range 16).foldl (fun (t : Dev) n => (t.setReg (MPLS_DESC_CNT n) 0).setReg (MPLS_FRAMES_BAD n) 0) s
  let s := ((s.setReg MPL_MAP_LATE 0).setReg MPL_MAP_SKIP 0).setReg MPL_DESC_DROPS 0
  let ready := s.on MPL_STATUS_MAP_READY
  let s := s.mplMod fun m =>
    { m with tgt := 1 - m.tgt, noMap := !ready, lateSeen := false, dropSeen := false,
             st := Vector.ofFn fun n => { vat m.st n with marks := [], lastOff := none, awaiting := none, lastWrite := none } }
  if ready then s else mplGlobal MPL_FLAGS_NOT_READY 0x53 (fault 0x53 sevInfo 0xFF s)

end Sys2Proof.Machine
end

