-- ==== Sys2Proof/Machine/DramOps.lean ====
section
/-!
DEFINITION. The DRAM controller's operations: refresh and self-refresh (R437,
R438), error correction and marks (R439 to R442), training, set-points and drift (R443 to R445). The store is
`Dev.dram`; the order and the bounds of its accesses are time only (R432 to R435).
-/
namespace Sys2Proof.Machine

open Reg

/-! ### Panics, refresh, self-refresh -/

/-- A bobbin with a panic side is open (R443 to R445). -/
def Dev.panicSideOpen (s : Dev) : Bool := (List.range 70).any fun b => s.get (CRLB_CFG_PANIC_SIDE b) ≠ 0 && s.bobOpen b

/-- A panic is asserted now (DRC_STATUS.PANIC). -/
def Dev.panicNow (s : Dev) : Bool := (List.range 64).any fun b => s.on (CRLB_STATUS_PANIC b)

/-- A panic has stayed asserted for `us` µs, longer than PANIC_MAX (R446). -/
def panicLong (b : Bobbin) (c : Channel) (us : Nat) (s : Dev) : Dev :=
  if !s.on (CRLB_STATUS_PANIC b.val) || us ≤ s.reg DRC_PANIC_MAX % 65536 then s
  else
    let s := (List.range 2).foldl (fun t k =>
      t.setReg (DRCC_PANIC_US k) (max (t.reg (DRCC_PANIC_US k)) (min us 65535))) s
    let s := (s.put DRC_FLAGS_PANIC_LONG 1).setReg DRC_ERR_INFO (putBits (s.reg DRC_ERR_INFO) 0 0 c.val)
    occur 51 c.val 0x1B (fault 0x1B sevInfo c.val s)

/-- A rank's refresh interval expires (R437): postponed while class-0 or class-1 requests wait and fewer than four are
postponed, else issued with those postponed before. -/
def refresh (c : Channel) (rank : Fin 2) (waits : Bool) (s : Dev) : Dev :=
  if s.drcState ≠ drcReady || vat s.drc.selfRef c then s
  else
    let k : Fin 4 := ⟨c.val * 2 + rank.val, by omega⟩
    s.drcMod fun d =>
      { d with postponed := vmod d.postponed k fun n => if waits && n < 4 then n + 1 else if waits then n else 0 }

/-- A channel has been idle for SR_IDLE ns (R438). -/
def selfRefresh (c : Channel) (s : Dev) : Dev :=
  let pending := (List.finRange 2).any fun (r : Fin 2) => vat s.drc.postponed ⟨c.val * 2 + r.val, by omega⟩ ≠ 0
  if !s.on DRC_OPT_SR_EN || s.drcState ≠ drcReady || s.panicNow || pending || vat s.drc.selfRef c
      || (List.range 16).any s.bobOpen || (c.val = 1 && !s.on DRC_CTRL_CH1_EN) then s
  else (s.drcMod fun d => { d with selfRef := vput d.selfRef c true }).count (DRCC_SR_ENTRIES c) 1

/-! ### Errors and marks -/

/-- The component of a channel's subchannel and rank is marked, unless one is already (R442). -/
def markDram (c sub rank comp : Nat) (s : Dev) : Dev :=
  let j := rank * 2 + sub
  let m := s.reg (DRCC_MARK c)
  if bit m (4 * j + 3) then s
  else
    let s := (s.setReg (DRCC_MARK c) (putBits m (4 * j + 3) (4 * j) (8 + comp % 8))).put DRC_FLAGS_MARK 1
    let s := s.setReg DRC_ERR_INFO (putBits (s.reg DRC_ERR_INFO) 0 0 c)
    occur 50 c 0x1A (fault 0x1A sevInfo c s)

/-- A read of address `a` with a corrected error in component `comp` (R440, R442). -/
def dramCE (a : Nat) (comp : Fin 5) (s : Dev) : Dev :=
  if s.drcState ≠ drcReady || !s.inDram a 1 then s
  else
    let (c, sub, rank) := s.dramLoc a
    let s := ((latchError a comp.val false s).count (DRCC_CE c) 1).put DRC_FLAGS_CE 1
    let now := s.grid.ticks
    let errs := (s.drc.errors.filter fun e => now < e.tick + 2000000) ++ [⟨c, rank, sub, comp.val, now⟩]
    let hits := errs.countP fun e => e.channel = c && e.rank = rank && e.sub = sub && e.comp = comp.val
    let first := !s.drc.ceSeen
    let s := s.drcMod fun d => { d with errors := errs, ceSeen := true }
    let s := if first then occur 48 c 0x18 (fault 0x18 sevInfo c s) else s
    let thr := s.reg DRC_MARK_THR % 65536
    if thr ≠ 0 && thr < hits then markDram c sub rank comp.val s else s

/-- What an uncorrectable read leaves whatever its reader: count, location, and the mark of the one component that the
diagnosis of R442 found. -/
def dramUEcount (a : Nat) (diag : Option (Fin 5)) (s : Dev) : Dev :=
  let (c, sub, rank) := s.dramLoc a
  let (comp, s) := match diag with
    | some k => (k.val, s)
    | none => s.fresh 3
  let s := (latchError a comp true s).count (DRCC_UE c) 1
  match diag with
  | some k => markDram c sub rank k.val s
  | none => s

/-- An uncorrectable read by a block (R440): flag, event and fault with the severity of its area. -/
def dramUE (a sev inst : Nat) (diag : Option (Fin 5)) (s : Dev) : Dev :=
  let c := (s.dramLoc a).1
  occur 49 c 0x19 (fault 0x19 sev inst ((dramUEcount a diag s).put DRC_FLAGS_UE 1))

/-- The bursts of one channel, the reserved ones left out (R430). -/
def Dev.channelBursts (s : Dev) : Nat := s.dramCap * 2 ^ 20 / 64 / s.dramChannels

/-- Every SCRUB_INT ns a channel reads one burst (R441): `none` clean, `some (true, d)` uncorrectable with the component
diagnosed, `some (false, d)` a corrected error in component `d`. -/
def dramScrub (c : Channel) (found : Option (Bool × Option (Fin 5))) (s : Dev) : Dev :=
  if !s.on DRC_OPT_SCRUB_EN || s.drcState ≠ drcReady || (c.val = 1 && !s.on DRC_CTRL_CH1_EN) then s
  else
    let k := vat s.drc.scrubAt c
    let a := s.burstAddr c.val k
    let done := decide (s.channelBursts ≤ k + 1)
    let s := s.drcMod fun d => { d with scrubAt := vput d.scrubAt c (if done then 0 else k + 1) }
    let s := wake a (if done then s.count (DRCC_SCRUB_PASSES c) 1 else s)
    match found with
    | none => s
    | some (true, d) => dramUEcount a d s
    | some (false, some d) => dramCE a d s
    | some (false, none) => s

/-! ### Training, set-points, drift -/

def trainedField (sp : Nat) : Field := if sp = 0 then DRC_STATUS_TRAINED0 else DRC_STATUS_TRAINED1

/-- Training of the set-point in force begins at step 1 (R443). -/
def trainStart (s : Dev) : Dev := (s.put DRC_STATUS_STATE drcTraining).put DRC_STATUS_STEP 1

/-- A write of DRC_CTRL with ENABLE = 1 (R443, R586): performed while ENABLE is 0, else locked (R16). -/
def dramEnable (w : Nat) (s : Dev) : Dev :=
  if s.on DRC_CTRL_ENABLE then writeLocked DRC_FLAGS_WRITE_LOCKED 58 0xFF s
  else
    let s := s.setReg DRC_CTRL (bits w 5 1 * 2 + 1)
    let s := s.setReg DRC_CAP s.dramCap
    if s.drcState = drcTraining then s
    else
      let s := s.put DRC_STATUS_SP (s.get DRC_FREQ_TARGET)
      trainStart (s.drcMod fun d => { d with switching := false, retrainDue := false,
                                             selfRef := Vector.replicate 2 false })

/-- A write of DRC_CTRL with ENABLE = 0 (R443, R17): while ENABLE is 1 only that bit changes. -/
def dramDisable (w : Nat) (s : Dev) : Dev :=
  if !s.on DRC_CTRL_ENABLE then s.setReg DRC_CTRL (bits w 5 1 * 2)
  else
    let trained := s.on DRC_STATUS_TRAINED0 || s.on DRC_STATUS_TRAINED1
    let training := decide (s.drcState = drcTraining)
    let s := (((s.put DRC_CTRL_ENABLE 0).put DRC_STATUS_TRAINED0 0).put DRC_STATUS_TRAINED1 0).put DRC_STATUS_FREQ_PEND 0
    let s := s.drcMod fun d =>
      { d with stopDue := training, switching := false, retrainDue := false,
               selfRef := if trained then Vector.replicate 2 true else d.selfRef }
    if training then s else (s.put DRC_STATUS_STATE drcOff).put DRC_STATUS_STEP 0

/-- A requested switch begins when no bobbin with a panic side is open (R444), and so does a retraining that drift asked
for (R445). -/
def dramPoll (s : Dev) : Dev :=
  if s.drcState ≠ drcReady || s.panicSideOpen then s
  else if s.on DRC_STATUS_FREQ_PEND then
    (s.put DRC_STATUS_FREQ_PEND 0).put DRC_STATUS_STATE drcSwitching
  else if s.drc.retrainDue then trainStart (s.drcMod fun d => { d with retrainDue := false, switching := false })
  else s

/-- A write of DRC_FREQ (R444): the last write stands; during training it is held until the step ends. -/
def freqRequest (w : Nat) (s : Dev) : Dev :=
  let s := s.setReg DRC_FREQ (w % 2)
  if s.drcState = drcReady then
    dramPoll (s.put DRC_STATUS_FREQ_PEND (b2n (decide (w % 2 ≠ s.get DRC_STATUS_SP))))
  else s

/-- The relock of a switch is done (R444): the new set-point is in force, or trained from step 1 if it is not TRAINED. -/
def freqDone (s : Dev) : Dev :=
  if s.drcState ≠ drcSwitching then s
  else
    let sp := s.get DRC_FREQ_TARGET
    let s := s.put DRC_STATUS_SP sp
    if s.on (trainedField sp) then occur 55 0xFF 0 (s.put DRC_STATUS_STATE drcReady)
    else trainStart (s.drcMod fun d => { d with switching := true })

/-- A training failure counts as one of start-up until the device has come up with DRAM (R443, R524, R568). -/
def Dev.trainsAtStart (s : Dev) : Bool :=
  !s.start.readyOnce && s.get DEV_STATE_STATE ≠ 5

/-- A training step found no passing window (R443). -/
def trainFail (s : Dev) : Dev :=
  let sp := s.get DRC_STATUS_SP
  let s := ((s.put DRC_STATUS_STATE drcFailed).put DRC_STATUS_STEP 0).put (trainedField sp) 0
  let s := s.drcMod fun d => { d with switching := false, retrainDue := false }
  occur 53 0xFF 0x1D (fault 0x1D (if s.trainsAtStart then sevInfo else sevHalt) 0xFF s)

/-- Training of a set-point completes (R443): TRAINED, the oscillator counts at training (R445), E52, and E55 for a
switch. The clear of the thermal map follows (R230). -/
def trainDone (osc : List Word) (s : Dev) : Dev :=
  let sp := s.get DRC_STATUS_SP
  let again := s.on (trainedField sp)
  let s := ((s.put DRC_STATUS_STATE drcReady).put DRC_STATUS_STEP 0).put (trainedField sp) 1
  let s := (List.range 2).foldl (fun t c =>
    let n (k : Nat) : Nat := (osc.getD (2 * c + k) 0).toNat % 65536
    let t := (t.setReg (DRCC_OSC0 c) (n 0 * 65537)).setReg (DRCC_OSC1 c) (n 1 * 65537)
    if again then t.count (DRCC_RETRAINS c) 1 else t) s
  let switched := s.drc.switching
  let s := s.drcMod fun d => { d with switching := false, selfRef := Vector.replicate 2 false }
  let s := occur 52 0xFF 0 s
  let s := if switched then occur 55 0xFF 0 s else s
  mapClear s

/-- The training step that runs ends (R443, R444), with or without a passing window. Whether training is now over:
`some true` trained, `some false` failed. -/
def trainStep (passed : Bool) (osc : List Word) (s : Dev) : Option Bool × Dev :=
  if s.drcState ≠ drcTraining then (none, s)
  else if s.drc.stopDue then
    let s := (s.put DRC_STATUS_STEP 0).drcMod fun d => { d with stopDue := false }
    if s.on DRC_CTRL_ENABLE then (none, trainStart (s.put DRC_STATUS_SP (s.get DRC_FREQ_TARGET)))
    else (none, s.put DRC_STATUS_STATE drcOff)
  else if s.get DRC_FREQ_TARGET ≠ s.get DRC_STATUS_SP then
    let sp := s.get DRC_FREQ_TARGET
    let s := (s.put DRC_STATUS_SP sp).put (trainedField sp) 0
    (none, trainStart (s.drcMod fun d => { d with switching := true }))
  else if !passed then (some false, trainFail s)
  else if s.get DRC_STATUS_STEP < 7 then (none, s.put DRC_STATUS_STEP (s.get DRC_STATUS_STEP + 1))
  else (some true, trainDone osc s)

/-- A rank's DQS oscillator run ends with a count (R445). -/
def oscRun (c : Channel) (rank : Fin 2) (n : Nat) (s : Dev) : Dev :=
  if !s.on DRC_OPT_RETRAIN_EN || s.drcState ≠ drcReady then s
  else
    let a := if rank.val = 0 then DRCC_OSC0 c else DRCC_OSC1 c
    let was := s.reg a / 65536
    let s := s.setReg a (was * 65536 + n % 65536)
    let change := if was ≤ n % 65536 then n % 65536 - was else was - n % 65536
    if change ≤ s.reg DRC_DRIFT_LIM % 65536 then s
    else
      let s := (s.put DRC_FLAGS_DRIFT 1).setReg DRC_ERR_INFO (putBits (s.reg DRC_ERR_INFO) 0 0 c.val)
      dramPoll (occur 54 c.val 0 (s.drcMod fun d => { d with retrainDue := true }))

/-- The DRAM work of a management tick: MR4 of each rank (R437), channel by channel, with whether it reports above 85 °C;
DRAM_CE may be raised again (R440). -/
def dramManagement (mr4 : List (Word × Bool)) (s : Dev) : Dev :=
  let f (k : Nat) : Nat := (mr4.getD k (0, false)).1.toNat % 32
  let s := s.drcMod fun d => { d with ceSeen := false }
  if s.drcState ≠ drcReady then s
  else
    let s := (List.range 2).foldl (fun t c => t.setReg (DRCC_MR4 c) (f (2 * c + 1) * 256 + f (2 * c))) s
    if mr4.any (·.2) then occur 57 0xFF 0 s else s

end Sys2Proof.Machine
end

