-- ==== Sys2Proof/Machine/TapestryOps.lean ====
section
/-!
DEFINITION. The operations of Tapestry: samples and composition (R362 to R366), frame boundaries (R367 to R371), underruns
(R372) and the memory output (R375).
-/
namespace Sys2Proof.Machine

open Reg

def Dev.tapMod (s : Dev) (f : Tapestry → Tapestry) : Dev := { s with tap := f s.tap }

def Dev.tapPlane (s : Dev) (i : Plane) (f : TapPlane → TapPlane) : Dev :=
  s.tapMod fun t => { t with planes := vmod t.planes i f }

/-! ### Samples (R363, R364) -/

/-- A colour with its alpha: R, G, B, pa. -/
abbrev Colour := Nat × Nat × Nat × Nat

def transparent : Colour := (0, 0, 0, 0)

/-- An ARGB8888 word: blue in [7:0], alpha in [31:24]. -/
def argb (w : Nat) : Colour := (bits w 23 16, bits w 15 8, bits w 7 0, bits w 31 24)

/-- CLUT[k] (R363). -/
def Dev.clut (s : Dev) (i : Plane) (k : Nat) : Colour := argb (s.creelNat (s.reg (TAPP_CLUT i) / 32 * 32 + 4 * (k % 256)) 4)

/-- A camera sample (R363). -/
def camColour (s : Dev) (i : Plane) (c : Camera) (shot : CamShot) (x y : Nat) : Colour :=
  if shot.width ≤ x || shot.height ≤ y then transparent
  else
    let size := pixelSize shot.format
    let room := divUp (shot.width * shot.height * size) 32 * 32
    let slot := divUp (32 + room + 1600) 4096 * 4096
    let a := s.reg (ISPC_OUT_BASE c) % 65536 * 1048576 + shot.slot * slot + 32 + (y * shot.width + x) * size
    let lut := s.on (TAPP_CTRL_LUT_EN i)
    let ch (k n : Nat) : Nat := s.dramNat (a + k) n
    let grey (v : Nat) : Colour := if lut then s.clut i v else (v, v, v, 255)
    match shot.format with
    | 1 => grey (ch 0 1)
    | 3 => (ch 0 1, ch 1 1, ch 2 1, 255)
    | 4 => (ch 0 2 / 256, ch 2 2 / 256, ch 4 2 / 256, 255)
    | _ => grey (ch 0 2 / 256)

/-- The source height of a plane; the spec gives none for a Creel buffer, where it is a free value. -/
def Dev.srcHeight (s : Dev) (i : Plane) : Nat :=
  match s.get (TAPP_CTRL_SRC i) with
  | 2 => match (vat s.tap.planes i).shot with
    | some shot => shot.height
    | none => 0
  | 3 => s.mapH
  | _ => (Config.freeValue 16 s.free).toNat

/-- The colour of plane `i` at an output pixel (R363, R364). -/
def Dev.planePixel (s : Dev) (i : Plane) (ox oy : Nat) : Colour :=
  let x0 := s.reg (TAPP_POS i) % 65536
  let y0 := s.reg (TAPP_POS i) / 65536
  let w := s.reg (TAPP_SIZE i) % 65536
  let h := s.reg (TAPP_SIZE i) / 65536
  if ox < x0 || oy < y0 || x0 + w ≤ ox || y0 + h ≤ oy then transparent
  else
    let sx := s.get (TAPP_SRC_XY_SX i) + (ox - x0) * s.get (TAPP_STEP_DX i) / 256
    let sy := s.get (TAPP_SRC_XY_SY i) + (oy - y0) * s.get (TAPP_STEP_DY i) / 256
    let hi := s.srcHeight i
    let flip := s.on (TAPP_CTRL_Y_FLIP i)
    if flip && hi ≤ sy then transparent
    else
      let sy := if flip then hi - 1 - sy else sy
      match s.get (TAPP_CTRL_SRC i) with
      | 1 =>
        let four := s.on (TAPP_CTRL_FMT i)
        let pitch := s.reg (TAPP_PITCH i) % 65536
        let off := sx * (if four then 4 else 1)
        if pitch ≤ off then transparent
        else
          let base := s.reg (if s.on (TAPP_STATUS_SHOWN i) then TAPP_BASE1 i else TAPP_BASE0 i) / 32 * 32
          let a := base + sy * pitch + off
          if four then argb (s.creelNat a 4) else s.clut i (s.creelNat a 1)
      | 2 =>
        (match (vat s.tap.planes i).shot with
          | some shot => camColour s i ⟨s.get (TAPP_CTRL_CAM i) % 4, Nat.mod_lt _ (by decide)⟩ shot sx sy
          | none => transparent)
      | 3 =>
        let t := s.mapPeak (s.on (TAPP_CTRL_MAP_SEL i)) sx sy
        if t = 0 then transparent
        else
          let k := asr ((t : Int) - s.get (TAPP_TMAP_TMIN i)) (s.get (TAPP_TMAP_TSH i))
          s.clut i (clampI 0 255 k).toNat
      | _ => transparent

/-- One channel of R365. -/
def blendChannel (c dst a : Nat) : Nat := (c * a + dst * (255 - a) + 127) / 255

/-- A colour laid on another with global alpha `ga` (R365). -/
def blend (ga : Nat) (c : Colour) (dst : Nat × Nat × Nat) : Nat × Nat × Nat :=
  let a := c.2.2.2 * (ga + 1) / 256
  (blendChannel c.1 dst.1 a, blendChannel c.2.1 dst.2.1 a, blendChannel c.2.2.1 dst.2.2 a)

/-- One sprite's colour at an output pixel (R366). -/
def Dev.spritePixel (s : Dev) (p : Sprite) (ox oy : Nat) : Colour :=
  let x : Int := (ox : Int) - p.px + 32
  let y : Int := (oy : Int) - p.py + 32
  if x < 0 || 64 ≤ x || y < 0 || 64 ≤ y then transparent
  else
    let b := s.creelNat (s.reg TAP_CUR_IMG / 32 * 32 + p.station * 1024 + y.toNat * 16 + x.toNat / 4) 1
    match bits b (2 * (x.toNat % 4) + 1) (2 * (x.toNat % 4)) with
    | 1 => argb p.colour
    | 2 => argb (s.reg TAP_CUR_COL2)
    | 3 => argb (s.reg TAP_CUR_COL3)
    | _ => transparent

/-- An output pixel of the frame (R365). -/
def Dev.composed (s : Dev) (f : TapFrame) (ox oy : Nat) : Nat × Nat × Nat :=
  let bg := s.reg TAP_BG
  let dst : Nat × Nat × Nat := (bits bg 23 16, bits bg 15 8, bits bg 7 0)
  let dst := (List.finRange 8).foldl (fun (d : Nat × Nat × Nat) (i : Plane) =>
    if s.on (TAPP_CTRL_EN i) && !bit f.blanked i.val && !f.under.contains (i.val, oy) then
      blend (s.get (TAPP_CTRL_GA i)) (s.planePixel i ox oy) d else d) dst
  f.sprites.foldl (fun d p => blend 255 (s.spritePixel p ox oy) d) dst

/-! ### Boundaries (R367 to R371) -/

/-- A sprite for each station of MASK that is shown (R366). -/
def Dev.sprites (s : Dev) : List Sprite :=
  if !s.on TAP_CUR_CTRL_EN then []
  else (List.finRange 16).filterMap fun (n : Station) =>
    let q := bits (s.reg (SHT_ACT_Q n)) 1 0
    if !bit (s.get TAP_CUR_CTRL_MASK) n.val || s.isRetired n.val || q = qInvalid then none
    else
      let scale : Int := s.reg TAP_CUR_SCALE
      let px := (s.regS (SHT_ACT_X n) - s.regS TAP_CUR_X0) / scale
      let py := (s.regS (SHT_ACT_Y n) - s.regS TAP_CUR_Y0) / scale
      let py := if s.on TAP_CUR_CTRL_Y_FLIP then ((s.reg TAP_FRAME / 65536 : Nat) : Int) - 1 - py else py
      let colour := if q = qSuspect then s.reg TAP_CUR_COL_SUSPECT
        else if (vat s.sht n).held then s.reg TAP_CUR_COL_HELD
        else if s.on (SHT_STATUS_LASER_ON n) then s.reg TAP_CUR_COL_ON
        else s.reg TAP_CUR_COL_OFF
      some ⟨n.val, px, py, colour⟩

/-- Whether plane `i` is ready at boundary `f` (R370). -/
def Dev.planeReady (s : Dev) (i : Plane) (f : Nat) : Bool :=
  let p := vat s.tap.planes i
  let expect := s.get (TAPP_CTRL_EXPECT i)
  match s.get (TAPP_CTRL_SRC i) with
  | 1 => expect = 0 || (match p.lastFlip with | some k => decide (f < k + expect) && decide (k ≤ f) | none => false)
  | 2 =>
    let cam := s.cam ⟨s.get (TAPP_CTRL_CAM i) % 4, Nat.mod_lt _ (by decide)⟩
    (match cam.latest with
      | some shot => decide (p.seen < cam.delivered) && (expect = 0 || decide (f ≤ shot.boundary + expect))
      | none => false)
  | _ => s.on MPL_STATUS_MAP_READY

/-- One plane at boundary `f`: commit, flip, readiness (R368 to R371). -/
def planeBoundary (f : Nat) (s : Dev) (i : Plane) : Dev :=
  let lo := 0xE0100 + i.val * 0x40
  let s := if s.on (TAPP_COMMIT_COMMIT i) then (s.commit .planeCommit lo (lo + 0x40)).put (TAPP_COMMIT_COMMIT i) 0 else s
  let s := if s.on (TAPP_STATUS_FLIP_PEND i) then
      ((s.put (TAPP_STATUS_FLIP_PEND i) 0).put (TAPP_STATUS_SHOWN i) (1 - s.get (TAPP_STATUS_SHOWN i))).tapPlane i
        fun p => { p with lastFlip := some f }
    else s
  let on := s.on (TAPP_CTRL_EN i) && 1 ≤ s.get (TAPP_CTRL_SRC i) && s.get (TAPP_CTRL_SRC i) ≤ 3
  let camNo : Camera := ⟨s.get (TAPP_CTRL_CAM i) % 4, Nat.mod_lt _ (by decide)⟩
  let s := s.tapPlane i fun p =>
    { p with wasOn := on, seen := if on && !p.wasOn then (s.cam camNo).delivered else p.seen,
             shot := if on && s.get (TAPP_CTRL_SRC i) = 2 then p.shot else none }
  if !on then ((s.put (TAPP_STATUS_READY i) 0).put (TAPP_STATUS_STALE i) 0).put (TAPP_STATUS_BLANKED i) 0
  else if s.planeReady i f then
    let s := (((s.put (TAPP_STATUS_READY i) 1).put (TAPP_STATUS_STALE i) 0).put (TAPP_STATUS_BLANKED i) 0).setReg
      (TAPP_STALE_CNT i) 0
    if s.get (TAPP_CTRL_SRC i) = 2 then s.tapPlane i fun p => { p with shot := (s.cam camNo).latest } else s
  else
    let n := s.reg (TAPP_STALE_CNT i) + 1
    let s := ((s.put (TAPP_STATUS_READY i) 0).put (TAPP_STATUS_STALE i) 1).count (TAPP_STALE_CNT i) 1
    let s := (s.count (TAPP_STALES i) 1).put TAP_FLAGS_STALE 1
    let s := if n = 1 then occur 209 i.val 0 s else s
    let most := s.reg (TAPP_STALE_MAX i) % 65536
    if most ≠ 0 && n = most then
      let s := (s.put (TAPP_STATUS_BLANKED i) 1).put TAP_FLAGS_BLANK 1
      occur 208 i.val 0x74 (fault 0x74 sevInfo i.val s)
    else s

/-- Ring slots that Tapestry reads, by camera port (R346, R370). -/
def holdShots (s : Dev) : Dev :=
  (List.finRange 4).foldl (fun (t : Dev) (c : Camera) =>
    let held := (List.finRange 8).filterMap fun (i : Plane) =>
      if t.on (TAPP_CTRL_EN i) && t.get (TAPP_CTRL_SRC i) == 2 && t.get (TAPP_CTRL_CAM i) == c.val then
        (vat t.tap.planes i).shot.map (·.slot) else none
    t.camMod c fun p => { p with shown := held }) s

/-- The next usable slot of the memory ring (R375). -/
def Dev.memSlot (s : Dev) : Option Nat :=
  let n := max 2 (s.reg TAP_MEM_SLOTS % 256)
  ((List.range n).map fun k => (s.tap.nextSlot + k) % n).find? fun k => !s.tap.exporting.contains k

/-- A bit mask over the planes. -/
def planeMask (f : Plane → Bool) : Nat := (List.finRange 8).foldl (fun n i => n + (if f i then 2 ^ i.val else 0)) 0

/-- A frame boundary at `tau` ns into the tick (R367 to R371, R375). -/
def tapBoundary (now : Nat) (s : Dev) : Dev :=
  let sel := s.get TAP_CTRL_OUT_SEL
  if !s.on TAP_CTRL_ENABLE || (sel ≠ 1 && !s.on TAP_VID_CTRL_VID_EN) then s
  else if sel = 1 && s.tap.frame.isSome then s.count TAP_MEM_SKIP 1
  else
    let f := (s.reg TAP_FRAME_NO + 1) % 2 ^ 32
    let s := (s.setReg TAP_FRAME_NO f).commit .tapFrame 0xE0000 0xE0100
    let s := (List.finRange 8).foldl (planeBoundary f) s
    let s := if s.on TAP_CUR_COMMIT_COMMIT then
        (s.commit .planeCommit 0xE0400 0xE0440).put TAP_CUR_COMMIT_COMMIT 0 else s
    let s := holdShots s
    let s := s.tapMod fun t => { t with video := t.video || sel ≠ 1 }
    let div := max 1 (s.get TAP_MEM_CFG_DIV)
    let due := sel = 1 || (2 ≤ sel && div ≤ s.tap.sinceMem + 1)
    let s := s.tapMod fun t => { t with sinceMem := if due then 0 else t.sinceMem + 1 }
    if sel = 0 || !due || s.tap.frame.isSome then s
    else match s.memSlot with
      | none => occur 211 0xFF 0x76 (fault 0x76 sevInfo 0xFF ((s.count TAP_MEM_DROPS 1).put TAP_FLAGS_MEM_DROP 1))
      | some k =>
        let frame : TapFrame := {
          no := f, sec := now / 1000000000 % 2 ^ 32, ns := now % 1000000000, layer := s.reg TRD_LAYER,
          stale := planeMask fun (i : Plane) => s.on (TAPP_STATUS_STALE i),
          blanked := planeMask fun (i : Plane) => s.on (TAPP_STATUS_BLANKED i), slot := k, sprites := s.sprites, under := [] }
        s.tapMod fun t => { t with frame := some frame, nextSlot := (k + 1) % max 2 (s.reg TAP_MEM_SLOTS % 256) }

/-- A plane's source line is missing when composition needs it (R372, R412). -/
def tapUnderrun (i : Plane) (line : Nat) (s : Dev) : Dev :=
  let s := bobUnderrun (56 + i.val) s
  let s := (s.count TAP_UNDERRUNS 1).tapMod fun t =>
    { t with frame := t.frame.map fun f => { f with under := (i.val, line) :: f.under } }
  let first := !s.tap.underSeen
  let s := flagEvent TAP_FLAGS_UNDERRUN 210 i.val (if first then 0x75 else 0) s
  if first then fault 0x75 sevInfo i.val (s.tapMod fun t => { t with underSeen := true }) else s

/-- The composed frame is complete in its memory slot (R365, R375). -/
def memFrame (s : Dev) : Dev :=
  match s.tap.frame with
  | none => s
  | some f =>
    let w := s.reg TAP_FRAME % 65536
    let h := s.reg TAP_FRAME / 65536
    let rgb := s.on TAP_MEM_CFG_FORMAT
    let head := wordsBytes [f.no, f.sec, f.ns, h * 65536 + w,
      b2n rgb * 2 ^ 19 + b2n (!f.under.isEmpty) * 2 ^ 16 + f.blanked * 256 + f.stale, f.layer, 0, 0]
    let pix := (List.range h).flatMap fun y => (List.range w).flatMap fun x =>
      let (r, g, b) := s.composed f x y
      if rgb then leBytes 1 r ++ leBytes 1 g ++ leBytes 1 b
      else leBytes 1 b ++ leBytes 1 g ++ leBytes 1 r ++ leBytes 1 255
    let slot := divUp (32 + w * h * (if rgb then 3 else 4)) 4096 * 4096
    let s := dramWrite (s.reg TAP_MEM_BASE % 65536 * 1048576 + f.slot * slot) (head ++ pix) s
    let s := { s with free := s.free + 1 }.tapMod fun t => { t with frame := none }
    let s := occur 212 0xFF 0 s
    if s.on TAP_MEM_CFG_EXPORT then
      sendImage (0xD0000000 + f.no % 2 ^ 24) (head ++ pix) .tapestry
        (s.tapMod fun t => { t with exporting := t.exporting ++ [f.slot] })
    else s

/-! ### Enabling (R374) -/

/-- A field of R373 limited to its range. -/
def vidLimit (lo hi v : Nat) : Nat := clampN lo hi v

/-- A write of TAP_CTRL (R374, R378). -/
def tapCtrl (v : Nat) (s : Dev) : Dev :=
  if s.on TAP_CTRL_ENABLE then
    if bit v 0 then writeLocked TAP_FLAGS_WRITE_LOCKED 213 0xFF s else tapStop s
  else
    let s := s.setReg TAP_CTRL (v % 8 / 2 * 2)
    if !bit v 0 then s
    else
      let sel := s.get TAP_CTRL_OUT_SEL
      let want := vidLimit 16 1080 (s.get TAP_VID_V0_VACT) * 65536 + vidLimit 16 1920 (s.get TAP_VID_H0_HACT)
      if sel ≠ 1 && (s.reg TAP_FRAME ≠ want || !s.on TAP_VID_CTRL_VID_EN) then s.put TAP_FLAGS_CFG_ERR 1
      else
        let s := ((s.put TAP_CTRL_ENABLE 1).put TAP_STATUS_RUNNING 1).setReg TAP_FRAME_NO 0
        (s.commit .tapFrame 0xE0000 0xE0100).tapMod fun t =>
          { t with planes := Vector.ofFn fun (i : Fin 8) => { vat t.planes i with lastFlip := none, wasOn := false }, sinceMem := 0 }
where
  /-- Composition stops: nothing is composed and no ring slot is held. -/
  tapStop (s : Dev) : Dev :=
    let s := ((s.put TAP_CTRL_ENABLE 0).put TAP_STATUS_RUNNING 0).tapMod fun t => { t with frame := none }
    (List.finRange 4).foldl (fun t c => t.camMod c fun p => { p with shown := [] }) s

/-- A write of TAP_VID_CTRL (R374, R378): its other fields are locked while VID_EN is 1. -/
def vidCtrl (v : Nat) (s : Dev) : Dev :=
  if s.on TAP_VID_CTRL_VID_EN then
    if bit v 0 then writeLocked TAP_FLAGS_WRITE_LOCKED 213 0xFF s
    else (s.put TAP_VID_CTRL_VID_EN 0).tapMod fun t => { t with video := false }
  else s.setReg TAP_VID_CTRL (Nat.land v 0x1F)

/-- A write of 1 to a plane's FLIP (R369). -/
def planeFlip (i : Plane) (s : Dev) : Dev := s.put (TAPP_STATUS_FLIP_PEND i) 1

/-- A write of 1 to the COMMIT of a plane (8 for CUR) (R368). -/
def planeCommit (i : Fin 9) (s : Dev) : Dev :=
  if i.val < 8 then s.put (TAPP_COMMIT_COMMIT i.val) 1 else s.put TAP_CUR_COMMIT_COMMIT 1

end Sys2Proof.Machine
end

