-- ==== Sys2Proof/Machine/TimeOps.lean ====
section
/-!
DEFINITION. The time bases (R492 to R500): their advance, the servo, delay exchanges, holdover, steps, and PPS (R503,
R504).
-/
namespace Sys2Proof.Machine

open Reg

/-! ### Values (R9, R499) -/

/-- 2^-40 ns to a nanosecond. -/
abbrev unit40 : Nat := 2 ^ 40

/-- A time base value in 2^-40 ns. -/
def Stamp.units (t : Stamp) : Nat := (t.sec * 1000000000 + t.ns) * unit40 + t.frac

/-- The value of so many 2^-40 ns; the seconds wrap at 2^48 (R9). -/
def Stamp.ofUnits (u : Nat) : Stamp :=
  let n := u / unit40
  ⟨n / 1000000000 % 2 ^ 48, n % 1000000000, u % unit40⟩

def Dev.base (s : Dev) (b : Base) : TimeBase := vat s.bases b

def Dev.baseMod (s : Dev) (b : Base) (f : TimeBase → TimeBase) : Dev := { s with bases := vmod s.bases b f }

/-- What base `b` gains in one fabric cycle, in 2^-40 ns (R499). -/
def Dev.gain (s : Dev) (b : Base) : Nat := (Int.ofNat unit40 + s.regS (NETT_RATE b)).toNat

/-- Base `b` after `n` fabric cycles (R499); it stands at 0 while disabled. -/
def Dev.baseAt (s : Dev) (b : Base) (n : Nat) : Stamp :=
  if s.on (NETT_CTRL_EN b) then Stamp.ofUnits ((s.base b).now.units + n * s.gain b) else (s.base b).now

/-- Every base after `n` fabric cycles. -/
def advance (n : Nat) (s : Dev) : Dev :=
  { s with bases := Vector.ofFn fun (b : Fin 4) => { vat s.bases b with now := s.baseAt b n } }

/-- Fabric cycles until T0 reaches its next tick boundary (R22, R24). -/
def Dev.cyclesToTick (s : Dev) : Nat :=
  let u := s.t0.units
  divUp ((u / (500 * unit40) + 1) * (500 * unit40) - u) (s.gain 0)

/-- T0 and the other bases at the next tick boundary (R22, R24). -/
def advanceTick (s : Dev) : Dev := advance s.cyclesToTick s

/-! ### States and the servo (R496, R497) -/

abbrev tbFree : Nat := 0
abbrev tbAcquire : Nat := 1
abbrev tbLocked : Nat := 2
abbrev tbHoldover : Nat := 3

def Dev.baseState (s : Dev) (b : Base) : Nat := s.reg (NETT_STATE b) % 4

/-- SRC of a base: 3 acts as 2 (R508). -/
def Dev.baseSrc (s : Dev) (b : Base) : Nat := min 2 (s.get (NETT_CTRL_SRC b))

/-- A base changes state; entering or leaving LOCKED raises E89 (R496). -/
def setBase (b : Base) (st : Nat) (s : Dev) : Dev :=
  let was := s.baseState b
  let s := s.setReg (NETT_STATE b) st
  let s := s.baseMod b fun x => { x with good := 0, bad := 0 }
  if (was == tbLocked) != (st == tbLocked) then occur 89 0xFF 0 s else s

/-- A Reed position engine is enabled (R28). -/
def Dev.positionRuns (s : Dev) : Bool := (List.range 3).any fun e => s.on (REED_CTRL_ENABLE e)

/-- LIM of R496: 500 ppm. -/
abbrev servoLim : Int := 549755814

/-- A base loaded with a value (R500); a step of T0 moves the grid at once (R29). -/
def loadBase (b : Base) (t : Stamp) (s : Dev) : Dev := s.baseMod b fun x => { x with now := t }

/-- A step of T0 is refused while a position engine is enabled (R28, R496). -/
def stepRefused (s : Dev) : Dev := faultEvent 0x26 sevInfo 0xFF 91 s

/-- The value of base `b` stepped by a time in 2^-16 ns, if it stays in the range of R9. -/
def Dev.stepped (s : Dev) (b : Base) (by16 : Int) : Option Stamp :=
  let u := Int.ofNat (s.base b).now.units + by16 * 16777216
  if u < 0 || Int.ofNat (2 ^ 48 * 1000000000 * unit40) ≤ u then none else some (Stamp.ofUnits u.toNat)

/-- Consecutive offsets within or above LOCK_THR move the base between ACQUIRE and LOCKED (R496). -/
def servoState (b : Base) (inside : Bool) (s : Dev) : Dev :=
  let x := s.base b
  if s.baseState b = tbAcquire then
    let n := if inside then x.good + 1 else 0
    if 16 ≤ n then setBase b tbLocked s else s.baseMod b fun y => { y with good := n }
  else if s.baseState b = tbLocked then
    let n := if inside then 0 else x.bad + 1
    if 4 ≤ n then setBase b tbAcquire s else s.baseMod b fun y => { y with bad := n }
  else s

/-- RATE from the integral and an offset in 2^-16 ns (R496). -/
def servoSlew (b : Base) (off : Int) (s : Dev) : Dev :=
  let integ := clampI (-servoLim) servoLim ((s.base b).integ - asr (s.get (NETT_SERVO_KI b) * off) 16)
  let rate := clampI (-servoLim) servoLim (integ - asr (s.get (NETT_SERVO_KP b) * off) 16)
  (s.baseMod b fun x => { x with integ := integ }).setRegS (NETT_RATE b) rate

/-- The servo at one offset, in 2^-16 ns (R496); the RWS fields of the base commit first (R508). -/
def servo (b : Base) (off : Int) (s : Dev) : Dev :=
  let s := s.commit .sync (NETT_CTRL b) (NETT_CTRL b + 0x100)
  let s := s.setRegS (NETT_OFFSET b) (satS 32 (asr off 12))
  let s := s.baseMod b fun x => { x with used := true }
  let above (thr : Nat) : Bool := decide (thr * 65536 < off.natAbs)
  let wants := above (s.reg (NETT_STEP_THR b)) && s.on (NETT_CTRL_STEP_AUTO b)
  let refused := wants && b == 0 && s.positionRuns
  let s := if refused then stepRefused s else s
  let s := match (if wants && !refused then s.stepped b (-off) else none) with
    | some t => loadBase b t s
    | none => servoSlew b off s
  servoState b (!above (s.reg (NETT_LOCK_THR b))) s

/-- A base enters HOLDOVER (R497): RATE holds integ, E90 and PTP_HOLDOVER. -/
def holdover (b : Base) (s : Dev) : Dev :=
  if !s.on (NETT_CTRL_EN b) || !(s.base b).used || 2 ≤ s.baseSrc b
      || (s.baseState b ≠ tbAcquire && s.baseState b ≠ tbLocked) then s
  else
    let s := setBase b tbHoldover s
    let s := s.setRegS (NETT_RATE b) (s.base b).integ
    let s := s.baseMod b fun x => { x with needDelays := 8, masters := [], twoStep := none }
    faultEvent 0x27 sevInfo 0xFF 90 s

/-- A change of upstream port puts every PTP base that has used a Sync into HOLDOVER (R489, R497). -/
def upstreamChanged (s : Dev) : Dev :=
  (List.finRange 4).foldl (fun (t : Dev) (b : Fin 4) => if t.baseSrc b = 0 then holdover b t else t) s

/-! ### A slave base (R492 to R495) -/

/-- Mean path delay over the exchanges kept, in 2^-16 ns (R495); 0 before the first. -/
def TimeBase.meanDelay (x : TimeBase) : Int := if x.delays.isEmpty then 0 else x.delays.sum / (x.delays.length : Nat)

/-- A base that works as a PTP slave (R495). -/
def Dev.isSlave (s : Dev) (b : Base) : Bool := s.on (NETT_CTRL_EN b) && s.baseSrc b == 0

/-- The two-step Sync that a Follow_Up completes: its t2 (R492). -/
def TimeBase.pendingSync (x : TimeBase) (seqNo : Nat) : Option Int :=
  match x.twoStep with
  | some (n, t2) => if n = seqNo then some t2 else none
  | none => none

/-- A complete Sync: the offset of R495 and the servo of R496; in HOLDOVER it only serves the delay exchanges (R497). -/
def syncUsed (b : Base) (term : Int) (s : Dev) : Dev :=
  let s := s.baseMod b fun x => { x with syncTerm := term, twoStep := none }
  if s.baseState b = tbHoldover then s
  else servo b (term - (s.base b).meanDelay) (s.count (NETT_SYNCS b) 1)

/-- A Sync or Follow_Up at the upstream port (R493, R495): times in 2^-16 ns, `t2` as the port takes it. -/
def ptpSync (b : Base) (followUp twoStep : Bool) (seqNo : Nat) (t1 corr t2 : Int) (s : Dev) : Dev :=
  if !s.isSlave b then s
  else
    let ingress := t2 - s.regS (NETP_ING_LAT s.upstream)
    if followUp then
      match (s.base b).pendingSync seqNo with
      | some t => syncUsed b (t - t1 - corr) s
      | none => s
    else if twoStep then s.baseMod b fun x => { x with twoStep := some (seqNo, ingress) }
    else syncUsed b (ingress - t1 - corr) s

/-- A Delay_Req leaves the upstream port; `t3` as the port takes it (R493, R495). -/
def delayReq (b : Base) (t3 : Int) (s : Dev) : Dev :=
  if !s.isSlave b then s
  else
    let p := s.upstream
    let t := t3 + s.regS (NETP_EGR_LAT p)
    let s := s.baseMod b fun x => { x with reqSent := some (x.reqSeq, t), reqSeq := (x.reqSeq + 1) % 65536 }
    s.count (NETP_TX_FRAMES p) 1

/-- A Delay_Resp completes an exchange (R495); after HOLDOVER the eighth one returns the base to ACQUIRE (R497). -/
def delayResp (b : Base) (seqNo : Nat) (t4 corr logInterval : Int) (s : Dev) : Dev :=
  if !s.isSlave b then s
  else match (s.base b).reqSent with
    | none => s
    | some (n, t3) =>
      if n ≠ seqNo then s
      else
        let x := s.base b
        let d := asr (x.syncTerm + (t4 - t3 - corr)) 1
        let need := x.needDelays - 1
        let s := s.baseMod b fun y =>
          { y with delays := (d :: y.delays).take 8, reqSent := none, reqLog := logInterval, needDelays := need }
        let s := s.setRegS (NETT_MPD b) (satS 32 (asr (s.base b).meanDelay 12))
        if s.baseState b = tbHoldover && need = 0 then setBase b tbAcquire s else s

/-- Data sets are compared field by field, the lower one better (R492). -/
def betterMaster : List Nat → List Nat → Bool
  | a :: as, b :: bs => if a = b then betterMaster as bs else decide (a < b)
  | _, _ => false

/-- The clockIdentity in a data set: priority1, class, accuracy, variance, priority2, identity, steps. -/
def masterId (m : List Nat) : Nat := m.getD 5 0

/-- The best of the data sets heard (R492). -/
def bestMaster (l : List (List Nat)) : Option (List Nat) :=
  l.foldl (fun (best : Option (List Nat)) m =>
    match best with
    | none => some m
    | some x => if betterMaster m x then some m else some x) none

/-- An Announce of the base's domain (R492): a change of master is treated as a loss of Syncs (R497). -/
def announce (b : Base) (m : List Nat) (s : Dev) : Dev :=
  if !s.isSlave b || m.length ≠ 7 then s
  else
    let l := (s.base b).masters.filter (fun x => masterId x ≠ masterId m) ++ [m]
    let was := bestMaster (s.base b).masters
    let s := s.baseMod b fun x => { x with masters := l }
    match bestMaster l with
    | none => s
    | some x =>
      let id := masterId x
      let changed := match was with | some w => decide (masterId w ≠ id) | none => false
      let s := if changed then (holdover b s).baseMod b fun x => { x with masters := l } else s
      (s.setReg (NETT_MASTER_LO b) (id % 2 ^ 32)).setReg (NETT_MASTER_HI b) (id / 2 ^ 32 % 2 ^ 32)

/-! ### Enabling, capture and steps (R497, R499, R500) -/

/-- An ignored RWL write to the NET block, or a refused step command (R500, R505). -/
def netLocked (s : Dev) : Dev := writeLocked NET_FLAGS_WRITE_LOCKED 95 0xFF s

/-- A write of NET_Tb_CTRL (R497, R508): locked while EN = 1, but for a write that clears EN. -/
def timeBaseCtrl (b : Base) (w : Nat) (s : Dev) : Dev :=
  let a := NETT_CTRL b
  let off (s : Dev) : Dev :=
    (s.setReg (NETT_STATE b) tbFree).baseMod b fun _ => TimeBase.reset
  if s.on (NETT_CTRL_EN b) then
    if bit w 0 then netLocked s
    else
      let s := if s.baseState b = tbLocked then occur 89 0xFF 0 s else s
      off (s.put (NETT_CTRL_EN b) 0)
  else
    let s := s.setReg a (Nat.land w 0xFF0F)
    if !bit w 0 then s
    else
      let s := off (s.commit .sync a (a + 0x100))
      if s.baseSrc b = 2 then s else (s.setReg (NETT_RATE b) 0).setReg (NETT_STATE b) tbAcquire

/-- CAPTURE, `tau` cycles after the last tick boundary (R499). -/
def timeCapture (b : Base) (tau : Nat) (s : Dev) : Dev :=
  let t := s.baseAt b tau
  (((s.setReg (NETT_SEC_LO b) (t.sec % 2 ^ 32)).setReg (NETT_SEC_HI b) (t.sec / 2 ^ 32)).setReg (NETT_NS b) t.ns).setReg
    (NETT_FRAC b) (t.frac / 2 ^ 24)

/-- A step command of the host on T0 meets R28; on a disabled base it is refused (R500). -/
def Dev.stepBarred (s : Dev) (b : Base) : Bool := b == 0 && s.positionRuns

/-- SET (R500). A nanoseconds value that is not below 10^9 is no value of R9: what the base then holds is open. -/
def stepSet (b : Base) (s : Dev) : Dev :=
  if !s.on (NETT_CTRL_EN b) then netLocked s
  else if s.stepBarred b then stepRefused s
  else
    let ns := s.reg (NETT_STEP_NS b)
    let sec := s.reg (NETT_STEP_SEC_LO b) + s.reg (NETT_STEP_SEC_HI b) % 65536 * 2 ^ 32
    let (v, s) := if ns < 1000000000 then (ns, s) else s.fresh 30
    loadBase b ⟨sec, v % 1000000000, 0⟩ s

/-- ADD (R500): signed seconds and nanoseconds, normalised. -/
def stepAdd (b : Base) (s : Dev) : Dev :=
  if !s.on (NETT_CTRL_EN b) then netLocked s
  else if s.stepBarred b then stepRefused s
  else
    let now := (s.base b).now
    let dsec := sx 48 (s.reg (NETT_STEP_SEC_LO b) + s.reg (NETT_STEP_SEC_HI b) % 65536 * 2 ^ 32)
    let n : Int := (Int.ofNat now.sec + dsec) * 1000000000 + Int.ofNat now.ns + s.regS (NETT_STEP_NS b)
    if n < 0 || Int.ofNat (2 ^ 48 * 1000000000) ≤ n then netLocked s
    else loadBase b ⟨n.toNat / 1000000000, n.toNat % 1000000000, now.frac⟩ s

/-! ### PPS (R503, R504) -/

/-- A base's value in ns. -/
def Dev.baseNanos (s : Dev) (b : Base) : Nat := (s.base b).now.nanos

/-- A two-bit base number. -/
def baseNo (n : Nat) : Base := ⟨n % 4, Nat.mod_lt _ (by decide)⟩

/-- The base of NET_PPS_OUT reaches PPS_OFFSET in the tick that runs: PPS_OUT rises for PPS_WIDTH µs (R503). -/
def ppsOut (s : Dev) : Dev :=
  let b := baseNo (s.reg NET_PPS_OUT)
  let at' := s.get NET_PPS_OFFSET_PPS_OFFSET
  let ns := (s.base b).now.ns
  if !s.on NET_PPS_OUT_PPS_OUT_EN || !s.on (NETT_CTRL_EN b) || at' < ns || ns + 501 < at' then s
  else
    let until' := s.baseNanos b - ns + at' + s.get NET_PPS_OUT_PPS_WIDTH * 1000
    { s with chain := { s.chain with ppsHigh := true, ppsUntil := until' } }

/-- PPS_OUT falls once its base has passed the end of the pulse. -/
def ppsTick (s : Dev) : Dev :=
  if s.chain.ppsHigh && s.chain.ppsUntil ≤ s.baseNanos (baseNo (s.reg NET_PPS_OUT)) then
    { s with chain := { s.chain with ppsHigh := false } }
  else s

/-- An active edge of PPS_IN, `tau` cycles after the last tick boundary (R504). -/
def ppsIn (tau : Nat) (s : Dev) : Dev :=
  if !s.on NET_PPS_IN_PPS_IN_EN then s
  else
    let b := baseNo (s.reg NET_PPS_IN)
    let t := s.baseAt b tau
    let s := (s.setReg NET_PPS_IN_SEC (t.sec % 2 ^ 32)).setReg NET_PPS_IN_NS t.ns
    let s : Dev := { s with chain := { s.chain with ppsSince := some s.grid.ticks } }
    if !s.on (NETT_CTRL_EN b) || s.baseSrc b ≠ 1 then s
    else
      let ns : Int := if 500000000 ≤ t.ns then (t.ns : Int) - 1000000000 else t.ns
      let s := if s.baseState b = tbHoldover then setBase b tbAcquire s else s
      servo b (ns * 65536) s

/-- No PPS_IN edge for 1.5 s (R504): raised once until the next edge. -/
def ppsLost (s : Dev) : Dev :=
  match s.chain.ppsSince with
  | none => s
  | some k =>
    if !s.on NET_PPS_IN_PPS_IN_EN || s.grid.ticks < k + 3000000 then s
    else
      let b := baseNo (s.reg NET_PPS_IN)
      let s : Dev := { s with chain := { s.chain with ppsSince := none } }
      let s := faultEvent 0x29 sevInfo 0xFF 93 (s.put NET_FLAGS_PPS_LOST 1)
      if s.on (NETT_CTRL_EN b) && s.baseSrc b = 1 then holdover b s else s

end Sys2Proof.Machine
end

