-- ==== Sys2Proof/Machine/ChainOps.lean ====
section
/-!
DEFINITION. The chain ports (R475 to R491): frames in and out, enumeration, the ring, PAUSE, timed launches (R501, R502),
transparent-clock correction (R494) and EVENT frames (R632).
-/
namespace Sys2Proof.Machine

open Reg

/-! ### Ports -/

def Dev.cport (s : Dev) (p : Port) : ChainPort := vat s.chain.ports p

/-- The lane of a port (R475). -/
def portLane (p : Port) : Nat := 16 + p.val

/-- N0_EN, N1_EN. -/
def portEnable (p : Port) : Field := if p.val = 0 then NET_CTRL_N0_EN else NET_CTRL_N1_EN

/-- The standby bit of a port. -/
def portStandby (p : Port) : Field := if p.val = 0 then NET_STATUS_N0 else NET_STATUS_N1

/-- UP: enabled and in block lock (R507). -/
def Dev.portUp (s : Dev) (p : Port) : Bool := s.on (portEnable p) && bit (s.reg LNK_LOCKED) (portLane p)

/-- The port carries traffic: up, not in standby (R488), not retired (R574). -/
def Dev.portCarries (s : Dev) (p : Port) : Bool := s.portUp p && !s.on (portStandby p) && !s.isRetired (portLane p)

/-- The other port. -/
def other (p : Port) : Port := if p.val = 0 then 1 else 0

/-- The condition of TAIL (R484): N1 without block lock, or facing the host. -/
def Dev.isTail (s : Dev) : Bool := !s.portUp 1 || s.on NET_STATUS_RING

/-- The escalation target of a port (R571). -/
def portTarget (p : Port) : Fin 19 := if p.val = 0 then 16 else 17

/-! ### Egress (R481, R482) -/

/-- Bytes of a frame on the wire from its destination address to its FCS; a device frame is padded to 64 (R478). -/
def Frame.bytes (f : Frame) : Nat :=
  match f.cls with
  | .timed => f.payload.length + 4
  | .ptp => 64
  | .macPause => 64
  | _ => max 64 (34 + f.payload.length)

/-- A frame lasts its bytes, preamble and gap at 10 Gbit/s; whether it ends within so many ns (R502). -/
def Frame.endsWithin (f : Frame) (ns : Int) : Bool := decide (4 * Int.ofNat (f.bytes + 20) ≤ 5 * ns)

/-- What the last frame of an export frees (R228, R230, R239, R346, R375). -/
def exportDone (e : Export) (s : Dev) : Dev :=
  match e with
  | .none => s
  | .image c =>
    match List.finRange 4 |>.find? (fun (x : Fin 4) => x.val == c) with
    | some x => s.camMod x fun p => { p with exporting := p.exporting.drop 1 }
    | none => s
  | .map =>
    let s := s.put MPL_STATUS_EXPORTING 0
    if s.mpl.clearWaits then mapClear s else s
  | .archive n => s.put (MPLS_STATUS_EXPORTING n) 0
  | .descriptors => s.setReg MPL_DESC_FILL (s.reg MPL_DESC_FILL - 1)
  | .tapestry => s.tapMod fun t => { t with exporting := t.exporting.drop 1 }
  | .logFrame => s

/-- Nanoseconds from the value of its base until a launch (R501); negative once it has passed. Seconds are compared in
32 bits. -/
def Dev.launchIn (s : Dev) (e : Timed) (tau : Nat) : Int :=
  let t := s.baseAt (baseNo e.base) tau
  sx 32 ((e.sec + 2 ^ 32 - t.sec % 2 ^ 32) % 2 ^ 32) * 1000000000 + (Int.ofNat e.ns - Int.ofNat t.ns)

/-- A launch is late (R502): TL_LATE, E92, LAUNCH_LATE. -/
def launchLate (p : Port) (s : Dev) : Dev := faultEvent 0x28 sevInfo (portLane p) 92 (s.count (NETP_TL_LATE p) 1)

/-- TL_STAT follows the queue (R507). -/
def launchShow (p : Port) (s : Dev) : Dev := s.setReg (NETP_TL_STAT p) (s.cport p).launches.length

/-- A timed frame as it stands in the Creel (R501). -/
def Dev.timedFrame (s : Dev) (e : Timed) : Frame := ⟨.timed, 0, 0, 0, 0, 0, s.creelBytes e.addr e.len, .none⟩

/-- The frame that a port sends next, by class (R481, R482, R488). -/
def ChainPort.next (x : ChainPort) (standby paused : Bool) (fits : Frame → Bool) : Option (Frame × ChainPort) :=
  let own : Option (Frame × ChainPort) := match x.ownQ with
    | f :: t => if fits f then some (f, { x with ownQ := t, lastForwarded := false }) else none
    | [] => none
  let fwd : Option (Frame × ChainPort) := match x.forwardQ with
    | f :: t => if fits f then some (f, { x with forwardQ := t, lastForwarded := true }) else none
    | [] => none
  if standby then
    match x.ownQ with
    | f :: t => if f.kind = 5 then some (f, { x with ownQ := t }) else none
    | [] => none
  else match x.pauseQ, x.ptpQ with
    | f :: t, _ => if fits f then some (f, { x with pauseQ := t }) else none
    | [], f :: t => if fits f then some (f, { x with ptpQ := t }) else none
    | [], [] => if paused then none else if x.lastForwarded then own.or fwd else fwd.or own

/-- An idle port takes its next frame; launches whose time has passed go first (R481, R502). -/
def portKickN (p : Port) : Nat → Dev → Dev
  | 0, s => s
  | k + 1, s =>
    let x := s.cport p
    let standby := s.on (portStandby p)
    if x.sending.isSome || !s.portUp p || s.isRetired (portLane p) then s
    else
      let pick (fits : Frame → Bool) (s : Dev) : Dev :=
        match x.next standby (s.on (NETP_STATUS_PAUSED p)) fits with
        | some (f, y) => s.portMod p fun _ => { y with sending := some f }
        | none => s
      match (if standby then [] else x.launches) with
      | [] => pick (fun _ => true) s
      | e :: rest =>
        let left := s.launchIn e 0
        if 0 ≤ left then pick (fun f => f.endsWithin left) s
        else
          let f := s.timedFrame e
          let s := launchShow p (s.portMod p fun y => { y with launches := rest })
          let s := launchLate p s
          if e.dropLate then portKickN p k s else s.portMod p fun y => { y with sending := some f }

/-- An idle port takes its next frame. -/
def portKick (p : Port) (s : Dev) : Dev := portKickN p 33 s

def portsKick (s : Dev) : Dev := portKick 1 (portKick 0 s)

/-- The frame that the port sends has left. -/
def frameSent (p : Port) (s : Dev) : Dev :=
  match (s.cport p).sending with
  | none => s
  | some f =>
    let s := s.portMod p fun x => { x with sending := none }
    portKick p (exportDone f.done (s.count (NETP_TX_FRAMES p) 1))

/-- The frame that the port sends is lost with the link (R489). -/
def frameLost (p : Port) (s : Dev) : Dev :=
  match (s.cport p).sending with
  | none => s
  | some f => exportDone f.done (s.portMod p fun x => { x with sending := none })

/-! ### Ingress (R480, R485) -/

/-- A discarded frame (R505): the flag each time, E94 and CHAIN_DROP once per management tick. -/
def chainDrop (p : Port) (s : Dev) : Dev :=
  let seen := (s.cport 0).dropSeen || (s.cport 1).dropSeen
  let s := s.put NET_FLAGS_DROP 1
  if seen then s
  else faultEvent 0x23 sevInfo (portLane p) 94 (s.portMod p fun x => { x with dropSeen := true })

/-- A frame received on `p` goes to the other port with one more hop (R480, R481), through that direction's 64 KiB buffer. -/
def forward (p : Port) (f : Frame) (s : Dev) : Dev :=
  let q := other p
  if !s.portCarries q then s
  else
    let held := ((s.cport q).forwardQ.map Frame.bytes).sum
    if 65536 < held + f.bytes then chainDrop p (s.count (NETP_FWD_DROPS p) 1)
    else s.portMod q fun x => { x with forwardQ := x.forwardQ ++ [{ f with cls := .forwarded, hops := (f.hops + 1) % 256 }] }

/-- The 16-byte header of a device frame (R478). -/
def Frame.header (f : Frame) : List Byte :=
  [1, BitVec.ofNat 8 f.kind, BitVec.ofNat 8 f.dst, BitVec.ofNat 8 f.src, BitVec.ofNat 8 f.hops, 0] ++
    leBytes 2 f.payload.length ++ leBytes 4 f.seqNo ++ leBytes 4 0

/-- A consumed JOB, MGMT or LOG frame enters chain receive bobbin 64 + p (R410, R480). What a device without an address or
without an image does not take is discarded (R485, R523), and so are other kinds. -/
def consume (p : Port) (f : Frame) (s : Dev) : Dev :=
  let addressed := s.on NET_STATUS_ADDR_VALID
  let takes := match f.kind with
    | 1 => true
    | 2 => addressed && decide (s.get DEV_STATE_STATE ≠ 7)
    | 4 => addressed
    | _ => false
  if !takes then s
  else
    let s := s.portMod p fun x => { x with rxQ := x.rxQ ++ [f] }
    (bobPush (64 + p.val) (f.header ++ f.payload) s).2

/-- The oldest frame of the chain receive bobbin is taken by its unit (R410). -/
def takeFrame (p : Port) (s : Dev) : Dev :=
  match (s.cport p).rxQ with
  | [] => s
  | f :: t => (bobPop (64 + p.val) (recWords (16 + f.payload.length)) (s.portMod p fun x => { x with rxQ := t })).2

/-- STATE reaches READY (R510, R511, R529). -/
def devReady (s : Dev) : Dev :=
  occur 0 0xFF 0 ({ s with start := { s.start with readyOnce := true } }.put DEV_STATE_STATE 6)

/-- The identity words (R484, R530); DEV_ID2 to 4 are fused values that the spec leaves open. -/
def Dev.identity (s : Dev) : List Nat :=
  [s.reg DEV_ID0, s.reg DEV_ID1, devWord 2, devWord 3, devWord 4,
    s.reg DEV_ID5, s.reg DEV_ID6,
    (if s.on NET_STATUS_ADDR_VALID then s.get NET_STATUS_ADDR else 0) * 65536 + s.get DEV_LC_IN_FORCE * 256
      + s.get DEV_STATE_STATE]

/-- An ENUM reply (R484). -/
def enumReply (tooLong kept conflict : Bool) (seqNo : Nat) (s : Dev) : Dev :=
  let addr := if s.on NET_STATUS_ADDR_VALID then s.get NET_STATUS_ADDR else 0
  let w := b2n tooLong * 2 ^ 23 + b2n kept * 2 ^ 22 + b2n conflict * 2 ^ 21 + b2n (s.on NET_STATUS_RING) * 2 ^ 20 +
    b2n s.isTail * 2 ^ 19 + s.get NET_STATUS_HEAD * 2 ^ 18 + addr * 256 + 2
  sendReply 0 seqNo (wordsBytes (w :: s.identity)) s

/-- The device's own frames that wait follow a change of the upstream port. -/
def moveOwn (p q : Port) (s : Dev) : Dev :=
  let l := (s.cport p).ownQ
  (s.portMod p fun x => { x with ownQ := [] }).portMod q fun x => { x with ownQ := x.ownQ ++ l }

/-- An ENUM request clears REVERSED, any standby of N0, and the retirement of the ports (R483, R490, R575). -/
def enumClear (s : Dev) : Dev :=
  let s := if s.on NET_STATUS_REVERSED then upstreamChanged (moveOwn 1 0 (s.put NET_STATUS_REVERSED 0)) else s
  let s := s.put NET_STATUS_N0 0
  let s := s.setReg EVT_FLT_RETIRED (putBits (s.reg EVT_FLT_RETIRED) 17 16 0)
  let s := (s.setReg (EVT_FLT_RETRIES 16) 0).setReg (EVT_FLT_RETRIES 17) 0
  { s with flt := { s.flt with retries := vput (vput s.flt.retries 16 []) 17 [] } }

/-- An address given by ENUM (R483, R511). -/
def assign (a : Nat) (s : Dev) : Dev :=
  let same := s.on NET_STATUS_ADDR_VALID && s.get NET_STATUS_ADDR == a
  let s := (s.put NET_STATUS_ADDR a).put NET_STATUS_ADDR_VALID 1
  let s := if same then s else occur 86 0xFF 0 s
  if s.get DEV_STATE_STATE = 5 then devReady s else s

/-- An ENUM request on N0 with HOPS h (R483). -/
def enumRequest (h seqNo : Nat) (s : Dev) : Dev :=
  if !s.portUp 0 then s
  else
    let s := enumClear s
    let on (f : Dev → Dev) : Dev := portsKick (f s)
    let fwd (s : Dev) : Dev := forward 0 ⟨.forwarded, 0, 0xFF, 0, h, seqNo, leBytes 4 1, .none⟩ s
    let conflict (s : Dev) : Dev := faultEvent 0x24 sevInfo 0xFF 87 (s.put NET_FLAGS_ENUM_CONFLICT 1)
    if 16 ≤ h then on (enumReply true false false seqNo)
    else if s.on NET_STATUS_HEAD != (h == 0) then on fun s => fwd (enumReply false false true seqNo (conflict s))
    else if s.on NET_STATUS_ADDR_VALID && s.get NET_STATUS_ADDR ≠ h + 1 && s.trdState ≠ tIdle then
      on fun s => fwd (enumReply false true true seqNo (conflict s))
    else on fun s => fwd (enumReply false false false seqNo (assign (h + 1) s))

/-- A frame with the device's EtherType arrives (R477, R480): the source MAC and the bytes after the EtherType. -/
def deviceFrame (p : Port) (mac : Nat) (bytes : List Byte) (good : Bool) (s : Dev) : Dev :=
  let b (i : Nat) : Nat := (bytes.getD i 0).toNat
  let len := leAt bytes 6 2
  let f : Frame := ⟨.forwarded, b 1, b 2, b 3, b 4, leAt bytes 8 4, (bytes.drop 16).take len, .none⟩
  let enum := p == 0 && f.kind == 0 && b 16 == 1 && f.dst == 0xFF && 4 ≤ len
  if !s.portUp p then s
  else if s.on (portStandby p) && !(enum && s.on NET_STATUS_REVERSED) && f.kind ≠ 5 then s
  else if s.isRetired (portLane p) && !enum then s
  else
    let s := s.count (NETP_RX_FRAMES p) 1
    let drop (s : Dev) : Dev := chainDrop p (s.count (NETP_RX_DROPS p) 1)
    if !good then drop s
    else
      let s := if f.src = 0 then s.portMod p fun x => { x with hostMac := some mac } else s
      if b 0 ≠ 1 || bytes.length < 16 + len || 8192 < len || (16 ≤ f.hops && !enum) then drop s
      else if enum then enumRequest f.hops f.seqNo s
      else if s.on (portStandby p) then s
      else if p = s.downstream then
        (if f.dst = 0 then portsKick (forward p f s) else s)
      else if s.on NET_STATUS_ADDR_VALID && f.dst = s.get NET_STATUS_ADDR then consume p f s
      else if f.dst = 0xFF then portsKick (forward p f (consume p f s))
      else if f.dst = 0 then s
      else portsKick (forward p f s)

/-! ### The ring (R488 to R491) -/

/-- A RING frame of the device. The spec gives its OP codes no numbers: the OP byte is a free value (log entry
53). -/
def ringFrame (p : Port) (dst : Nat) (s : Dev) : Dev :=
  let (op, s) := s.fresh 8
  let f : Frame := ⟨.own, 5, dst, s.srcAddr, 0, s.chain.seqNo, leBytes 1 op, .none⟩
  queueOwn p f { s with chain := { s.chain with seqNo := (s.chain.seqNo + 1) % 2 ^ 32 } }

/-- A PROBE on N1 (R488). -/
def ringProbe (hops : Nat) (s : Dev) : Dev :=
  if !s.on NET_CTRL_RING_EN || !s.portUp 1 || s.isRetired 17 || s.on NET_STATUS_REVERSED then s
  else
    let s := s.count (NETP_RX_FRAMES 1) 1
    if hops = 0 then (s.put NET_STATUS_RING 1).put NET_STATUS_N1 1 else s

/-- The device reverses (R489). -/
def reverse (s : Dev) : Dev :=
  let s := s.put NET_STATUS_REVERSED 1
  let ring := s.on NET_STATUS_RING
  let s := if ring then s.put NET_STATUS_N1 0 else s
  let s := moveOwn 0 1 (frameLost 0 s)
  let s := ringFrame 1 0xFF s
  let s := if ring then ringFrame 1 0 s else s
  let s := faultEvent 0x25 sevInfo 0xFF 88 (s.put NET_FLAGS_RING_BREAK 1)
  portsKick (upstreamChanged s)

/-- The upstream port has lost its lock or is retired, or a BREAK has arrived there (R489, R574). -/
def ringBreak (received : Bool) (s : Dev) : Dev :=
  if !s.on NET_CTRL_RING_EN || s.on NET_STATUS_REVERSED then s
  else if received then (if s.portUp 0 && !s.isRetired 16 then reverse (s.count (NETP_RX_FRAMES 0) 1) else s)
  else if s.portUp 0 && !s.isRetired 16 then s
  else reverse s

/-- A port regains block lock (R490, R491, R571). -/
def chainLock (p : Port) (s : Dev) : Dev :=
  if !s.on (portEnable p) then s
  else
    let s := occur (84 + p.val) (portLane p) 0 s
    let s := if p.val = 0 && s.on NET_STATUS_REVERSED then s.put NET_STATUS_N0 1 else s
    let s := match vat s.flt.recovery (portTarget p) with
      | some r => if r.code = 0x22 then recovered (portTarget p) s else s
      | none => s
    portKick p s

/-- A port loses block lock (R491, R574). -/
def chainUnlock (p : Port) (s : Dev) : Dev :=
  if !s.on (portEnable p) then s
  else
    let s := frameLost p s
    let s := s.put (NETP_STATUS_PAUSED p) 0
    let retired := s.isRetired (portLane p)
    let s := occur (84 + p.val) (portLane p) (if retired then 0 else 0x22) s
    if retired then s else fault 0x22 sevRetry (portLane p) s

/-! ### PAUSE (R482) -/

/-- A received PAUSE holds classes 3 and 4 for its quanta of 51.2 ns; quanta 0 releases them. -/
def pauseFrame (p : Port) (quanta : Nat) (s : Dev) : Dev :=
  if !s.portCarries p then s
  else
    let s := s.put (NETP_STATUS_PAUSED p) (b2n (quanta ≠ 0))
    portKick p (s.portMod p fun x => { x with pausedUntil := s.t0.nanos + divUp (quanta * 512) 10 })

/-- Bytes free in the chain receive bobbin of a port. -/
def Dev.rxFree (s : Dev) (p : Port) : Nat := (s.bobSize (64 + p.val) - s.bobFill (64 + p.val)) * 32

/-- Bytes free in the buffer of the frames that come in on a port. -/
def Dev.fwdFree (s : Dev) (p : Port) : Nat := 65536 - ((s.cport (other p)).forwardQ.map Frame.bytes).sum

/-- A MAC control frame with the given quanta. -/
def pauseOut (p : Port) (quanta : Nat) (s : Dev) : Dev :=
  let f : Frame := ⟨.macPause, 0, 0, 0, 0, 0, leBytes 2 quanta, .none⟩
  portKick p (s.portMod p fun x => { x with pauseQ := x.pauseQ ++ [f] })

/-- A port sends PAUSE while room is short, and releases it once 48 KiB are free (R482). -/
def pauseSend (p : Port) (s : Dev) : Dev :=
  if !s.on NET_CTRL_PAUSE_EN || !s.portCarries p then s
  else
    let room := min (s.rxFree p) (s.fwdFree p)
    if room < 16384 then pauseOut p 0xFFFF (s.put (NETP_STATUS_PAUSING p) 1)
    else if s.on (NETP_STATUS_PAUSING p) && 49152 ≤ room then pauseOut p 0 (s.put (NETP_STATUS_PAUSING p) 0)
    else s

/-! ### The transparent clock (R492 to R494) -/

/-- A PTP message in a transmit queue: its kind, domain, correctionField in 2^-16 ns, source and sequenceId. -/
def ptpFrame (kind : PtpKind) (domain source seqNo : Nat) (corr : Int) : Frame :=
  let k := match kind with | .sync => 0 | .syncTwoStep => 0 | .followUp => 8 | .delayReq => 1 | .other => 11
  ⟨.ptp, k, 0, 0, 0, seqNo, leBytes 1 domain ++ leBytes 8 (wrapN 64 corr) ++ leBytes 10 source ++ leBytes 2 seqNo, .none⟩

/-- A PTP message passes from port `p` to the other port (R494); times and `corr` in 2^-16 ns. -/
def ptpTransit (p : Port) (kind : PtpKind) (domain source seqNo : Nat) (rawIn rawOut corr : Int) (s : Dev) : Dev :=
  let q := other p
  if !s.portCarries p || !s.portCarries q then s
  else
    let res := rawOut + s.regS (NETP_EGR_LAT q) - (rawIn - s.regS (NETP_ING_LAT p))
    let s := s.count (NETP_RX_FRAMES p) 1
    let now := s.grid.ticks
    let s := s.portMod p fun x => { x with held := x.held.filter fun (e : Nat × Nat × Int × Nat) => now < e.2.2.2 + 2000000 }
    let send (c : Int) (s : Dev) : Dev :=
      portKick q (s.portMod q fun x => { x with ptpQ := x.ptpQ ++ [ptpFrame kind domain source seqNo c] })
    let largest (s : Dev) : Dev := s.setReg (NETP_RES_MAX p) (max (s.reg (NETP_RES_MAX p)) (satU 32 (asr res 16)))
    let corrected (c : Int) (s : Dev) : Dev := send (corr + c) (s.count (NETP_PTP_CORR p) 1)
    match kind with
    | .other => send corr s
    | .sync => corrected res (largest s)
    | .delayReq => corrected res (largest s)
    | .syncTwoStep =>
      let s := largest s
      send corr (if 16 ≤ (s.cport p).held.length then s
        else s.portMod p fun x => { x with held := x.held ++ [(source, seqNo, res, now)] })
    | .followUp =>
      match (s.cport p).held.find? fun (e : Nat × Nat × Int × Nat) => e.1 == source && e.2.1 == seqNo with
      | none => send corr s
      | some e =>
        corrected e.2.2.1 (s.portMod p fun x =>
          { x with held := x.held.filter fun (y : Nat × Nat × Int × Nat) => !(y.1 == source && y.2.1 == seqNo) })

/-! ### Timed launch (R501, R502) -/

/-- QUEUE, `tau` cycles after the last tick boundary (R501, R502). -/
def tlQueue (p : Port) (w tau : Nat) (s : Dev) : Dev :=
  let x := s.cport p
  if 32 ≤ x.launches.length then s.put NET_FLAGS_TL_FULL 1
  else
    let e : Timed := ⟨bits w 5 4, s.reg (NETP_TL_SEC p), s.reg (NETP_TL_NS p) % 2 ^ 30, s.reg (NETP_TL_ADDR p) % 2 ^ 25,
      s.reg (NETP_TL_LEN p) % 2 ^ 14, bit w 8⟩
    let left := s.launchIn e tau
    if left < 0 then
      let s := launchLate p s
      if e.dropLate then s
      else if (s.cport p).sending.isNone && s.portCarries p then
        s.portMod p fun y => { y with sending := some (s.timedFrame e) }
      else launchShow p (s.portMod p fun y => { y with launches := e :: y.launches })
    else
      let before := x.launches.takeWhile fun t => decide (s.launchIn t tau ≤ left)
      let after := x.launches.drop before.length
      launchShow p (s.portMod p fun y => { y with launches := before ++ e :: after })

/-- FLUSH (R502). -/
def tlFlush (p : Port) (s : Dev) : Dev := portKick p (launchShow p (s.portMod p fun y => { y with launches := [] }))

/-- The first queued frame's launch time is reached, `tau` cycles after the last tick boundary: it leaves when the port is
free (R501, R502). -/
def timedLaunch (p : Port) (tau : Nat) (s : Dev) : Dev :=
  match (s.cport p).launches with
  | [] => s
  | e :: rest =>
    if 0 < s.launchIn e tau || (s.cport p).sending.isSome || !s.portCarries p then s
    else
      let f := s.timedFrame e
      launchShow p (s.portMod p fun y => { y with launches := rest, sending := some f })

/-! ### EVENT frames (R632, R633) -/

/-- The EVENT frame before this one has left the transmit queue (R633). -/
def Dev.eventFrameOut (s : Dev) : Bool :=
  let x := s.cport s.upstream
  x.ownQ.all (·.kind ≠ 3) && x.sending.all fun f => f.kind ≠ 3 || f.cls ≠ .own

/-- The window of R632: WIN µs, 0 acting as 1, have passed since the oldest record opened. Without T0 no time is kept. -/
def Dev.eventDue (s : Dev) : Bool :=
  match s.ev.openRecs with
  | [] => false
  | r :: _ =>
    let win := max 1 (s.reg EVT_FRAME_CFG / 65536) * 1000
    let age := Int.ofNat (s.t0.sec % 2 ^ 32 * 1000000000 + s.t0.ns) - Int.ofNat (r.sec * 1000000000 + r.ns)
    64 ≤ s.ev.openRecs.length || !s.on (NETT_CTRL_EN 0) || Int.ofNat win ≤ age || age < 0

/-- The open records leave as one frame, or are discarded without an address (R632, R633). -/
def eventFrame (s : Dev) : Dev :=
  if !s.eventDue || !s.eventFrameOut then s
  else
    let recs := s.ev.openRecs
    let s : Dev := { s with ev := { s.ev with openRecs := [] } }
    if !s.on NET_STATUS_ADDR_VALID then s.put EVT_FLAGS_FRAME_OVF 1
    else portsKick (sendHost 3 (recs.flatMap fun r => wordsBytes r.words) .none s)

/-! ### Ticks and enabling -/

/-- The chain's work at a tick boundary: the end of PAUSE, PPS_OUT, frames that wait. -/
def chainTick (s : Dev) : Dev :=
  let un (p : Port) (s : Dev) : Dev :=
    if s.on (NETP_STATUS_PAUSED p) && (s.cport p).pausedUntil ≤ s.t0.nanos then s.put (NETP_STATUS_PAUSED p) 0 else s
  portsKick (ppsTick (un 1 (un 0 s)))

end Sys2Proof.Machine
end

