-- ==== Sys2Proof/Machine/WaleOps.lean ====
section
/-!
DEFINITION. The Wale log (R590 to R603): the partition in the flash, scanning, programming and erasing, and readout.
-/
namespace Sys2Proof.Machine

open Reg

def Dev.walMod (s : Dev) (f : WaleLog → WaleLog) : Dev := { s with wal := f s.wal }

/-! ### The partition (R590, R596) -/

/-- Sectors of 256 KiB from flash address 0x0100_0000 on (R515, R596). -/
abbrev sectorSize : Nat := 0x40000
def sectorAddr (k : Nat) : Nat := 0x1000000 + k * sectorSize

/-- The sector count (R596). -/
def Dev.logSectors (s : Dev) : Nat := (s.start.flashSize - 0x1000000) / sectorSize

/-- A word of the flash. -/
def Dev.flashWord (s : Dev) (a : Nat) : Nat := leNat (s.flashBytes a 4)

abbrev logMagic : Nat := 0x4C575A4B

/-- The header of a used sector (R596): SECTOR_SEQ and FIRST_SEQ; none where MAGIC or CRC fails. -/
def Dev.sectorHeader (s : Dev) (k : Nat) : Option (Nat × Nat) :=
  let bs := s.flashBytes (sectorAddr k) 32
  if leAt bs 0 4 = logMagic && leAt bs 28 4 = crc32c (bs.take 28) then some (leAt bs 4 4, leAt bs 8 4) else none

/-- Later modulo 2^32. -/
def seqLater (a b : Nat) : Bool := let d := (a + 2 ^ 32 - b % 2 ^ 32) % 2 ^ 32; 0 < d && d < 2 ^ 31

/-- The used sectors in the order written: sector, SECTOR_SEQ, FIRST_SEQ. -/
def Dev.usedSectors (s : Dev) : List (Nat × Nat × Nat) :=
  let l := (List.range s.logSectors).filterMap fun k => (s.sectorHeader k).map fun h => (k, h)
  l.foldl (fun (acc : List (Nat × Nat × Nat)) x =>
    let before := acc.takeWhile fun y => !seqLater y.2.1 x.2.1
    before ++ x :: acc.drop before.length) []

/-- A record as it stands in the flash: address, LEN, SEQ, and whether its CRC holds. -/
abbrev FlashRec := Nat × Nat × Nat × Bool

/-- The records of a sector from offset `off` on (R596); then the offset where they end, and whether they end torn. -/
def recordsFrom (s : Dev) (base : Nat) : Nat → Nat → List FlashRec × Nat × Bool
  | 0, off => ([], off, false)
  | k + 1, off =>
    if sectorSize < off + 36 then ([], off, false)
    else
      let w := s.flashWord (base + off)
      let len := w / 65536
      if w = 0xFFFFFFFF then ([], off, false)
      else if len < 36 || 2048 < len || len % 4 ≠ 0 || sectorSize < off + len then ([], off, true)
      else
        let bs := s.flashBytes (base + off) len
        let good := leAt bs (len - 4) 4 == crc32c (bs.take (len - 4))
        let (l, stop, torn) := recordsFrom s base k (off + len)
        ((base + off, len, leAt bs 4 4, good) :: l, stop, torn)

def Dev.sectorRecords (s : Dev) (k : Nat) : List FlashRec × Nat × Bool := recordsFrom s (sectorAddr k) 7281 32

/-- Every record in flash, in the order written. -/
def Dev.flashRecords (s : Dev) : List FlashRec := s.usedSectors.flatMap fun x => (s.sectorRecords x.1).1

/-- The records of a sector up to the first one that is not valid (R596): them, the offset where the data ends, torn. -/
def Dev.validRecords (s : Dev) (k : Nat) : List FlashRec × Nat × Bool :=
  let (l, stop, torn) := s.sectorRecords k
  let good := l.takeWhile fun r => r.2.2.2
  if good.length = l.length then (l, stop, torn)
  else (good, 32 + (good.map fun r => r.2.1).sum, true)

/-- WAL_FIRST_SEQ is the first record of the oldest sector (R597). -/
def Dev.oldestSeq (s : Dev) : Option Nat := s.usedSectors.head?.map fun x => x.2.2

/-! ### Holds and staging (R598, R599) -/

/-- The log holds writes (R599, R618). -/
def Dev.logHeld (s : Dev) : Bool :=
  s.on THM_STATUS_NVM_HOLD || s.start.updRun == some 2 || s.get DEV_STATE_STATE == 9 || s.start.trying.isSome || !s.on WAL_CTRL_EN
    || 3 ≤ s.wal.fails || s.dof.active

/-- WAL_STAGED, and whether staging stands above the reserve. -/
def showStaged (s : Dev) : Dev :=
  let n := stagedBytes s.wal.staged
  (s.setReg WAL_STAGED n).walMod fun w => { w with above := decide (s.logReserve < n) }

/-! ### The scan (R595, R596) -/

/-- OP_TIME and POWER_CYCLES of the newest valid record, from the newest sector back. -/
def Dev.lastTimes (s : Dev) : Option (Nat × Nat) :=
  s.usedSectors.reverse.foldl (fun (acc : Option (Nat × Nat)) x =>
    match acc with
    | some v => some v
    | none => ((s.validRecords x.1).1.getLast?).map fun r => (s.flashWord (r.1 + 8), s.flashWord (r.1 + 12))) none

/-- The newest valid record's SEQ. -/
def Dev.newestSeq (s : Dev) : Option Nat :=
  s.usedSectors.reverse.foldl (fun (acc : Option Nat) x =>
    match acc with
    | some v => some v
    | none => ((s.validRecords x.1).1.getLast?).map fun r => r.2.2.1) none

/-- The scan completes (R595, R596, R562): the BOOT record goes before everything staged so far, and E240 is raised. -/
def logScan (s : Dev) : Dev :=
  if !s.on WAL_CTRL_EN || s.wal.ready || s.logSectors = 0 then s
  else
    let porst := s.on DEV_RESET_CAUSE_PORST
    let (op, cycles) : Nat × Nat := match s.lastTimes with
      | some (o, c) => (o, if porst then c + 1 else c)
      | none => (0, 1)
    let early := s.reg WAL_OP_TIME
    let s := (s.setReg WAL_OP_TIME (op + early)).setReg WAL_POWER_CYCLES cycles
    let newest := s.usedSectors.getLast?
    let (sector, seq, offset, torn) : Nat × Nat × Nat × Bool := match newest with
      | some (k, q, _) =>
        let (_, stop, torn) := s.validRecords k
        (k, q, if torn then sectorSize else stop, torn)
      | none => (s.logSectors - 1, 2 ^ 32 - 1, sectorSize, false)
    let s := (s.setReg WAL_TORN (b2n torn)).setReg WAL_SECTORS (s.logSectors % 65536)
    let s := (s.setReg WAL_LAST_SEQ (s.newestSeq.getD 0)).setReg WAL_FIRST_SEQ (s.oldestSeq.getD 0)
    let boot := s.logRec 6 (s.reg DEV_RESET_CAUSE) [s.reg DEV_LC, s.reg DEV_STATE, s.reg DEV_IMG_FAIL, s.reg WAL_TORN] false
    let s := s.walMod fun w =>
      { w with ready := true, sector := sector, sectorSeq := seq, offset := offset, nextErased := false, fails := 0,
               badSectors := [],
               staged := boot :: w.staged.map fun (r : LogRec) => { r with opTime := r.opTime + op, cycles := cycles } }
    let s := showStaged s
    let s := if s.on THM_LAST_SHUT_VALID then stage (s.logRec 7 (s.reg THM_LAST_SHUT) [] true) s else s
    occur 240 0xFF 0 s

/-! ### Writing (R594, R597) -/

/-- The sector that follows, bad ones skipped. -/
def Dev.nextSector (s : Dev) : Nat :=
  let n := s.logSectors
  let k := (List.range n).find? fun i => !s.wal.badSectors.contains ((s.wal.sector + 1 + i) % n)
  (s.wal.sector + 1 + k.getD 0) % n

/-- The bytes of a record as it is programmed (R590). -/
def LogRec.bytes (r : LogRec) (seq : Nat) : List Byte :=
  let head := wordsBytes ([r.len * 65536 + r.kind * 256 + 1, seq, r.opTime, r.cycles, r.tSec, r.tq * 2 ^ 30 + r.tNs, r.ref,
    r.layer] ++ r.payload)
  head ++ leBytes 4 (crc32c head)

/-- The header of a sector (R596). -/
def sectorHead (seq first : Nat) : List Byte :=
  let h := wordsBytes [logMagic, seq, first, 1, 0, 0, 0]
  h ++ leBytes 4 (crc32c h)

/-- The next sector is opened (R596); it has been erased before. -/
def openSector (first : Nat) (s : Dev) : Dev :=
  let k := s.nextSector
  let q := (s.wal.sectorSeq + 1) % 2 ^ 32
  let s := s.programFlash (sectorAddr k) (sectorHead q first)
  s.walMod fun w => { w with sector := k, sectorSeq := q, offset := 32, nextErased := false }

/-- A staged record is programmed (R594, R597); a Trim record ends its SAVE (R544). -/
def logProgram (s : Dev) : Dev :=
  match s.wal.staged with
  | [] => s
  | r :: rest =>
    let fits := decide (s.wal.offset + r.len ≤ sectorSize)
    if !s.wal.ready || s.logHeld || (!fits && !s.wal.nextErased) then s
    else
      let seq := (s.reg WAL_LAST_SEQ + 1) % 2 ^ 32
      let first := s.usedSectors.isEmpty
      let s := if fits then s else openSector seq s
      let s := s.programFlash (sectorAddr s.wal.sector + s.wal.offset) (r.bytes seq)
      let s := s.walMod fun w => { w with offset := w.offset + r.len, staged := rest, fails := 0 }
      let s := showStaged (s.setReg WAL_LAST_SEQ seq)
      let s := if first then s.setReg WAL_FIRST_SEQ seq else s
      if r.kind = 5 then occur 228 0xFF 0 (s.put TRM_STATUS_SAVE_BUSY 0) else s

/-- An erase of the sector after the current one is due (R597). -/
def Dev.eraseDue (s : Dev) : Bool := s.wal.ready && !s.wal.nextErased && sectorSize / 2 ≤ s.wal.offset

/-- The next sector is erased, and what was oldest in it is gone (R597, R602). -/
def logErase (s : Dev) : Dev :=
  if !s.eraseDue || s.logHeld then s
  else
    let k := s.nextSector
    let s := s.eraseFlash (sectorAddr k) sectorSize
    let first := s.oldestSeq.getD (s.reg WAL_FIRST_SEQ)
    let s := s.setReg WAL_FIRST_SEQ first
    s.walMod fun w =>
      { w with
        nextErased := true
        fails := 0
        read := w.read.map fun r => if seqLater first r.next then { r with next := first, gap := true } else r }

/-- A program or an erase fails (R597): the sector is skipped, and after three in a row the log is STOPPED. -/
def logFail (s : Dev) : Dev :=
  if !s.wal.ready || s.logHeld || (s.wal.staged.isEmpty && !s.eraseDue) then s
  else
    let erasing := s.eraseDue
    let bad := if erasing then s.nextSector else s.wal.sector
    let s := s.put WAL_SECTORS_BAD (min (s.get WAL_SECTORS_BAD + 1) 0xFFFF)
    let s := s.walMod fun w =>
      { w with badSectors := bad :: w.badSectors, fails := w.fails + 1,
               offset := if erasing then w.offset else sectorSize }
    let s := flagEvent WAL_FLAGS_FLASH_ERR 242 0xFF 0x89 (fault 0x89 sevInfo 0xFF s)
    let trim := match s.wal.staged with | r :: _ => r.kind == 5 | [] => false
    if s.wal.fails = 3 then
      let s := flagEvent WAL_FLAGS_STOPPED 243 0xFF 0 s
      if trim then (s.put TRM_STATUS_SAVE_BUSY 0).put TRM_FLAGS_SAVE_FAIL 1 else s
    else s

/-- A record is lost (R599): 0 staging does not take it, 1 a Creel error in bobbin 68 takes the oldest staged one (R415),
2 the log is STOPPED and its staging full. -/
def logDrop (cause : Fin 3) (s : Dev) : Dev :=
  let used := stagedBytes s.wal.staged
  let full := decide (s.logCapacity < used + 64)
  let count (f : Nat × Nat × Nat → Nat × Nat × Nat) (s : Dev) : Dev :=
    let first := !s.wal.dropRun
    let s := (s.count WAL_DROPS 1).walMod fun w => { w with lost := f w.lost, dropRun := true }
    if first then occur 241 0xFF 0x88 ((s.put WAL_FLAGS_DROP 1).count (EVT_FLT_COUNT 0x88) 1) else s
  match cause.val with
  | 0 => if s.logReserve < used || full then count (fun l => (l.1 + 1, l.2)) s else s
  | 1 =>
    if s.wal.staged.isEmpty || s.earlyLog then s
    else showStaged (count (fun l => (l.1, l.2.1 + 1, l.2.2)) (s.walMod fun w => { w with staged := w.staged.drop 1 }))
  | _ => if 3 ≤ s.wal.fails && full then count (fun l => (l.1, l.2.1, l.2.2 + 1)) s else s

/-- Every OP_INT minutes of operating time (R591). -/
def hoursRecord (s : Dev) : Dev :=
  let every := s.get WAL_OP_INT_OP_INT * 60
  if every = 0 || s.wal.sinceHours < every then s
  else stage (s.logRec 10 0 [] false) (s.walMod fun w => { w with sinceHours := w.sinceHours - every })

/-- A millisecond of operating time (R595). -/
def logMs (s : Dev) : Dev :=
  let n := s.wal.opMs + 1
  if n < 1000 then s.walMod fun w => { w with opMs := n }
  else (s.setReg WAL_OP_TIME ((s.reg WAL_OP_TIME + 1) % 2 ^ 32)).walMod fun w =>
    { w with opMs := 0, sinceHours := w.sinceHours + 1 }

/-! ### Reading (R601, R602) -/

/-- The first record held at or after SEQ `q`; an older SEQ than any held gives the oldest (R601). -/
def Dev.recordAt (s : Dev) (q : Nat) : Option FlashRec := s.flashRecords.find? fun r => !seqLater q r.2.2.1

/-- LOAD (R601). -/
def logLoad (s : Dev) : Dev :=
  let q := s.reg WAL_RD_SEQ
  let show' (s : Dev) (result len : Nat) : Dev := s.setReg WAL_RD_STAT (len * 65536 + result * 4)
  match (if s.wal.ready then s.recordAt q else none) with
  | none => show' s 2 0
  | some (a, len, seq, good) =>
    let ws := bytesWords (s.flashBytes a len)
    let s := (List.range 512).foldl (fun (t : Dev) i => t.setReg (WAL_RD_BUF i) (ws.getD i 0)) s
    show' (s.setReg WAL_RD_LOADED seq) (if !good then 3 else if seq = q then 0 else 1) len

/-- Whole records from SEQ `q` on that fit in a frame, at most `n` of them and none after `last` (R602). -/
def fillFrame (last : Nat) : List FlashRec → Nat → Nat → List FlashRec
  | [], _, _ => []
  | r :: t, n, room =>
    if n = 0 || room < r.2.1 || seqLater r.2.2.1 last then [] else r :: fillFrame last t (n - 1) (room - r.2.1)

/-- A reply of the log to the port its request came from (R602). -/
def logReply (p : Port) (seqNo op status : Nat) (last : Bool) (ws : List Byte) (done : Export) (s : Dev) : Dev :=
  let f : Frame := ⟨.own, 4, 0, s.srcAddr, 0, seqNo, leBytes 4 (b2n last * 65536 + status * 256 + op) ++ ws, done⟩
  portKick p (queueOwn p f s)

/-- The port of a number. -/
def portNo (n : Nat) : Port := if n = 0 then 0 else 1

/-- The next frame of the READ that runs; the last one ends it (R602). -/
def logReadNext (s : Dev) : Dev :=
  match s.wal.read with
  | none => s
  | some r =>
    let avail := s.flashRecords.dropWhile fun x => seqLater r.next x.2.2.1
    let l := fillFrame r.last avail (r.left.getD 65535) 8184
    let next := match l.getLast? with | some x => (x.2.2.1 + 1) % 2 ^ 32 | none => r.next
    let left := r.left.map fun n => n - l.length
    let ended := l.isEmpty || left = some 0 || (avail.drop l.length).all fun x => seqLater x.2.2.1 r.last
    let body := leBytes 4 l.length ++ l.flatMap fun x => s.flashBytes x.1 x.2.1
    let s := s.walMod fun w => { w with read := if ended then none else some { r with next := next, left := left, gap := false } }
    let s := s.put WAL_STATUS_READOUT (b2n !ended)
    let s := logReply (portNo r.port) r.seqNo 0x81 (if r.gap then 1 else 0) ended body
      (if ended then .none else .logFrame) s
    if ended then occur 244 0xFF 0 s else s

/-- READ (R602). -/
def logRead (p : Port) (f : Frame) (s : Dev) : Dev :=
  let from' := leAt f.payload 4 4
  let max' := leAt f.payload 8 4
  if !s.wal.ready then logReply p f.seqNo 0x81 4 true (leBytes 4 0) .none s
  else if s.wal.read.isSome then logReply p f.seqNo 0x81 2 true (leBytes 4 0) .none s
  else
    let first := s.reg WAL_FIRST_SEQ
    let gap := seqLater first from'
    let r : LogRead := ⟨p.val, f.seqNo, if gap then first else from', s.reg WAL_LAST_SEQ, if max' = 0 then none else some max', gap⟩
    logReadNext (s.walMod fun w => { w with read := some r })

/-- ABORT (R602). -/
def logAbort (p : Port) (f : Frame) (s : Dev) : Dev :=
  let status := if s.wal.ready then 0 else 4
  let runs := s.wal.read.isSome
  let s := (s.walMod fun w => { w with read := none }).put WAL_STATUS_READOUT 0
  let s := logReply p f.seqNo 0x82 status true [] .none s
  if runs then occur 244 0xFF 0 s else s

/-- INFO (R602). -/
def logInfo (p : Port) (f : Frame) (s : Dev) : Dev :=
  if !s.wal.ready then logReply p f.seqNo 0x83 4 true [] .none s
  else logReply p f.seqNo 0x83 0 true (wordsBytes
    [s.reg WAL_FIRST_SEQ, s.reg WAL_LAST_SEQ, s.reg WAL_SECTORS, s.reg WAL_POWER_CYCLES, s.reg WAL_OP_TIME]) .none s

/-- NOTE (R602, R603). A NOTE without 1 to 64 words is answered as a bad OP. -/
def logNote (p : Port) (f : Frame) (s : Dev) : Dev :=
  let ws := bytesWords (f.payload.drop 8)
  let reply (status : Nat) (s : Dev) : Dev := logReply p f.seqNo 0x84 status true [] .none s
  if !s.wal.ready then reply 4 s
  else if !s.on WAL_CTRL_NOTE_EN then reply 5 s
  else if ws.isEmpty || 64 < ws.length then reply 3 s
  else reply 0 (stage (s.logRec 9 (leAt f.payload 4 4) ws false) s)

/-- A LOG request of another OP (R602). -/
def logBadOp (p : Port) (f : Frame) (s : Dev) : Dev := logReply p f.seqNo 0x80 3 true [] .none s

/-- The oldest frame of a port's chain receive bobbin goes to the log, if it is a LOG frame whose OP `want` accepts. -/
def logFrame (p : Port) (want : Nat → Bool) (f : Frame → Dev → Dev) (s : Dev) : Dev :=
  match (s.cport p).rxQ with
  | x :: _ => if x.kind = 4 && want (leAt x.payload 0 1) then f x (takeFrame p s) else s
  | [] => s

end Sys2Proof.Machine
end

