-- ==== Sys2Proof/Machine/ChainTime.lean ====
section
/-!
DEFINITION. The commands of the chain and of network time (R475 to R504, R632), but for management requests.
-/
namespace Sys2Proof.Machine

open Reg

/-- A device frame arrives on port `p`: its source MAC and the bytes after its EtherType (R477, R480). -/
def execDeviceFrame (p : Port) (mac : Nat) (bytes : List Byte) (fcsGood : Bool) (s : State) : Done :=
  actFab (deviceFrame p mac bytes fcsGood) s

/-- An ENUM request with DST = 0xFF arrives on N0 (R483). -/
def execEnumRequest (hops : Fin 256) (seqNo : Nat) (s : State) : Done :=
  actFab (fun d => enumRequest hops.val (seqNo % 2 ^ 32) (d.count (NETP_RX_FRAMES 0) (b2n (d.portUp 0)))) s

/-- A RING frame with OP PROBE arrives on N1 (R488). -/
def execRingProbe (hops : Fin 256) (s : State) : Done := actFab (ringProbe hops.val) s

/-- The upstream lock is lost, or with `received` a BREAK arrives on the upstream port (R489). -/
def execRingBreak (received : Bool) (s : State) : Done := actFab (ringBreak received) s

/-- A PAUSE frame arrives (R482). -/
def execPauseFrame (p : Port) (quanta : Fin 65536) (s : State) : Done := actFab (pauseFrame p quanta.val) s

/-- The port's 2 µs PAUSE interval ends (R482). -/
def execPauseSend (p : Port) (s : State) : Done := actFab (pauseSend p) s

/-- A Sync, or its Follow_Up, reaches slave base `b`; times in 2^-16 ns (R495, R496). -/
def execPtpSync (b : Base) (followUp twoStep : Bool) (seqNo : Nat) (t1 corr t2 : Int) (s : State) : Done :=
  actFab (ptpSync b followUp twoStep seqNo t1 corr t2) s

/-- A PTP message passes the device from port `p`; times in 2^-16 ns (R494). -/
def execPtpTransit (p : Port) (kind : PtpKind) (domain : Fin 256) (source seqNo : Nat) (rawIn rawOut corr : Int)
    (s : State) : Done :=
  actFab (ptpTransit p kind domain.val (source % 2 ^ 80) (seqNo % 65536) rawIn rawOut corr) s

/-- A Delay_Resp for base `b`; times in 2^-16 ns (R495). -/
def execDelayResp (b : Base) (seqNo : Nat) (t4 corr logInterval : Int) (s : State) : Done :=
  actFab (delayResp b seqNo t4 corr logInterval) s

/-- An Announce of the base's domain: priority1, class, accuracy, variance, priority2, identity, steps removed (R492). -/
def execAnnounce (b : Base) (dataset : List Nat) (s : State) : Done := actFab (announce b dataset) s

/-- The Delay_Req interval of base `b` ends and a Delay_Req leaves at `t3`, in 2^-16 ns (R495). -/
def execDelayReqSend (b : Base) (t3 : Int) (s : State) : Done := actFab (delayReq b t3) s

/-- No Sync for 4, or no Announce for 3, of their intervals (R497). -/
def execPtpHoldover (b : Base) (s : State) : Done := actFab (fun d => if d.isSlave b then holdover b d else d) s

/-- A write of NET_Tb_CTRL with EN = 1 (R497, R508). -/
def execTimebaseEnable (b : Base) (w : Word) (s : State) : Done := actFab (timeBaseCtrl b (setBit w.toNat 0 true)) s

/-- NET_Tb_CAPTURE, `tau` ns after the tick boundary (R499). -/
def execTimebaseCapture (b : Base) (tau : Nat) (s : State) : Done := actFab (timeCapture b tau) s

/-- NET_Tb_STEP_CMD SET (R500). -/
def execStepSet (b : Base) (s : State) : Done := actFab (stepSet b) s

/-- NET_Tb_STEP_CMD ADD (R500). -/
def execStepAdd (b : Base) (s : State) : Done := actFab (stepAdd b) s

/-- NET_Np_TL_CMD with QUEUE (R501). -/
def execTlQueue (p : Port) (w : Word) (tau : Nat) (s : State) : Done := actFab (tlQueue p w.toNat tau) s

/-- NET_Np_TL_CMD with FLUSH (R502). -/
def execTlFlush (p : Port) (s : State) : Done := actFab (tlFlush p) s

/-- The launch time of the first queued frame is reached (R501). -/
def execTimedLaunch (p : Port) (tau : Nat) (s : State) : Done := actFab (timedLaunch p tau) s

/-- The base of PPS_OUT reaches PPS_OFFSET (R503). -/
def execPpsOutPulse (s : State) : Done := actFab ppsOut s

/-- An active edge of PPS_IN (R504). -/
def execPpsInEdge (tau : Nat) (s : State) : Done := actFab (ppsIn tau) s

/-- No edge of PPS_IN for 1.5 s (R504). -/
def execPpsLost (s : State) : Done := actFab ppsLost s

/-- The EVENT frame window ends, or a 64th record has opened (R632). -/
def execEventFrameSend (s : State) : Done := actFab eventFrame s

/-- The frame that port `p` sends has left (R481); a frame of a log READ is followed by the next one (R602). -/
def execChainFrameSent (p : Port) (s : State) : Done :=
  actFab (fun d =>
    let log := (d.cport p).sending.any fun f => f.done == .logFrame
    let d := frameSent p d
    if log then logReadNext d else d) s

end Sys2Proof.Machine
end

