-- ==== Sys2Proof/Machine/ThermalOps.lean ====
section
/-!
DEFINITION. Temperature supervision (R551 to R563) and the island voltages (R616). Temperatures are in 1/64 °C.
-/
namespace Sys2Proof.Machine

open Reg

def Dev.thmMod (s : Dev) (f : Thermal → Thermal) : Dev := { s with thm := f s.thm }

/-- The sensors directly above, below, left and right of sensor `k` on the grid of 6 columns by 4 rows. -/
def neighbours (k : Nat) : List Nat :=
  (if 6 ≤ k then [k - 6] else []) ++ (if k < 18 then [k + 6] else []) ++ (if k % 6 ≠ 0 then [k - 1] else [])
    ++ (if k % 6 ≠ 5 then [k + 1] else [])

/-- Sensor `k` is failed in the mask `m`. -/
def failedIn (m k : Nat) : Bool := bit m k

/-- The cross-check of R555 on sensor `k`: whether it is checked and fails. -/
def checkFails (m : Nat) (r : Nat → Int) (k : Nat) : Bool :=
  let ns := (neighbours k).filter fun j => !failedIn m j
  if failedIn m k || ns.length < 2 then false
  else decide (512 * ns.length < (r k * (ns.length : Nat) - (ns.map r).sum).natAbs)

/-- The greatest of a list of values, none of an empty one. -/
def greatest : List Int → Option Int
  | [] => none
  | x :: xs => some (xs.foldl max x)

/-- The substitute of sensor `k` (R556); none where no sensor is left to take it from. -/
def substitute (m : Nat) (r : Nat → Int) (k : Nat) : Option Int :=
  let near := greatest (((neighbours k).filter fun j => !failedIn m j).map r)
  let any := greatest (((List.range 24).filter fun j => !failedIn m j && j ≠ k).map r)
  (near.or any).map (· + 320)

/-- One round of a threshold (R553): above after four rounds at or over its level, below after four under its release. -/
def Threshold.round (t : Threshold) (tmax level : Int) : Threshold :=
  let toward := if t.above then decide (tmax < level - 192) else decide (level ≤ tmax)
  if !toward then { t with count := 0 }
  else if t.count + 1 < 4 then { t with count := t.count + 1 }
  else ⟨!t.above, 0⟩

/-- One round of a supervised pair (R558, R616): raised after four rounds over `hi`, armed again after four at most `lo`. -/
def PairState.round (p : PairState) (valid : Bool) (diff hi lo : Nat) : PairState × Bool :=
  let toward := valid && (if p.raised then decide (diff ≤ lo) else decide (hi < diff))
  if !toward then ({ p with count := 0 }, false)
  else if p.count + 1 < 4 then ({ p with count := p.count + 1 }, false)
  else (⟨!p.raised, 0⟩, !p.raised)

/-- GRADIENT is raised for a pair (R558, R616). -/
def gradient (inst : Nat) (s : Dev) : Dev := aonEvent 237 inst 0x85 (some sevInfo) (s.put THM_FLAGS_GRADIENT 1)

/-- The pairs of the sensor grid: index, sensor, neighbour to the right or below. -/
def sensorPairs : List (Fin 48 × Nat × Nat) :=
  (List.finRange 48).filterMap fun (i : Fin 48) =>
    let k := i.val / 2
    if i.val % 2 = 0 then (if k % 6 ≠ 5 then some (i, k, k + 1) else none)
    else if k < 18 then some (i, k, k + 6) else none

/-- The pairs of adjacent islands (R616). -/
def islandPairs : List (Fin 12 × Nat × Nat) :=
  (List.finRange 12).filterMap fun (i : Fin 12) =>
    let k := i.val / 2
    if i.val % 2 = 0 then (if k % 3 ≠ 2 then some (i, k, k + 1) else none)
    else if k < 3 then some (i, k, k + 3) else none

/-- The gradient check over sensors and islands (R558, R616). -/
def gradientRound (m : Nat) (r : Nat → Int) (mv : Nat → Nat) (s : Dev) : Dev :=
  let s := sensorPairs.foldl (fun (t : Dev) (e : Fin 48 × Nat × Nat) =>
    let valid := !failedIn m e.2.1 && !failedIn m e.2.2
    let (p, raise) := (vat t.thm.pairs e.1).round valid (r e.2.1 - r e.2.2).natAbs 960 768
    let t := t.thmMod fun x => { x with pairs := vput x.pairs e.1 p }
    if raise then gradient e.2.1 t else t) s
  islandPairs.foldl (fun (t : Dev) (e : Fin 12 × Nat × Nat) =>
    let d := max (mv e.2.1) (mv e.2.2) - min (mv e.2.1) (mv e.2.2)
    let (p, raise) := (vat t.thm.islands e.1).round true d 30 24
    let t := t.thmMod fun x => { x with islands := vput x.islands e.1 p }
    if raise then gradient (0x80 + e.2.1) t else t) s

/-- THROTTLE as it acts (R554). -/
def Dev.throttleLevel (s : Dev) : Int := min (sx 16 (s.reg THM_THROTTLE)) 6848

/-- WARN as it acts (R554). -/
def Dev.warnLevel (s : Dev) : Int := min (sx 16 (s.reg THM_WARN)) s.throttleLevel

/-- An action of throttling is in force (R559). -/
def Dev.throttles (s : Dev) (action : Nat) : Bool := s.get THM_STATUS_LEVEL == 2 && bit (s.reg THM_THR_ACT) action

/-- CAP follows throttling; a fall aborts admitted frames (R336, R559). -/
def throttleCap (s : Dev) : Dev :=
  let cap := if s.throttles 0 then clampN 100 800 (s.reg THM_THR_CAP % 1024) else 800
  let s := s.put ISP_STATUS_CAP cap
  if s.fabRuns then camCapFall s.t0.nanos 16 s else s

/-- WARN, THROTTLE and SHUTDOWN evaluated (R553, R557, R563). -/
def thresholds (tmax : Int) (failed : Nat) (s : Dev) : Dev :=
  let was := s.thm
  let warn := was.warn.round tmax s.warnLevel
  let thr := was.throttle.round tmax s.throttleLevel
  let thr : Threshold := if 12 ≤ failed then ⟨true, 0⟩ else thr
  let shut := was.shutdown.round tmax 7040
  let s := s.thmMod fun x => { x with warn := warn, throttle := thr, shutdown := shut }
  let level := if thr.above || shut.above then 2 else if warn.above then 1 else 0
  let s := s.put THM_STATUS_LEVEL level
  let s := if warn.above && !was.warn.above then aonEvent 232 0xFF 0x81 (some sevInfo) (s.put THM_FLAGS_WARN 1)
    else if !warn.above && was.warn.above then aonEvent 232 0xFF 0 none s
    else s
  let s := if thr.above && !was.throttle.above then aonEvent 233 0xFF 0x82 (some sevInfo) (s.put THM_FLAGS_THROTTLE 1)
    else if !thr.above && was.throttle.above then aonEvent 234 0xFF 0 none s
    else s
  throttleCap s

/-- Shutdown goes above (R561): THM_LAST_SHUT, emission off by the hardwired path, THERM_SHUTDOWN, E235. -/
def shutdown (tmax : Int) (s : Dev) : Dev :=
  if !s.thm.shutdown.above || s.thm.shut then s
  else
    let s := s.setReg THM_LAST_SHUT (2 ^ 31 + bits (s.reg THM_STATUS) 12 8 * 65536 + wrapN 16 tmax)
    aonEvent 235 0xFF 0x83 (some sevHalt) (s.thmMod fun x => { x with shut := true })

/-- An image PROGRAM that the hold keeps waiting shows it (R525, R560). -/
def showTempWait (s : Dev) : Dev :=
  s.put DEV_UPD_STAT_TEMP_WAIT (b2n (s.on THM_STATUS_NVM_HOLD && s.start.updRun == some 2))

/-- The NVM window (R560). -/
def nvmRound (t : Int) (s : Dev) : Dev :=
  let lo := max (sx 16 (s.get THM_NVM_WIN_LOW)) (-1280)
  let hi := min (sx 16 (s.get THM_NVM_WIN_HIGH)) 5440
  let held := s.on THM_STATUS_NVM_HOLD
  let toward := if held then decide (lo + 192 ≤ t) && decide (t ≤ hi - 192) else decide (t < lo) || decide (hi < t)
  let n := if toward then s.thm.nvmCount + 1 else 0
  if n < 4 then s.thmMod fun x => { x with nvmCount := n }
  else
    let s := (s.put THM_STATUS_NVM_HOLD (b2n (!held))).thmMod fun x => { x with nvmCount := 0 }
    let s := s.put THM_FLAGS_NVM_HOLD 1
    showTempWait (if held then aonEvent 238 0xFF 0 none s else aonEvent 238 0xFF 0x86 (some sevInfo) s)

/-- FAST and its return to slow mode (R551). -/
def paceRound (tmax : Int) (s : Dev) : Dev :=
  if s.throttleLevel - 256 ≤ tmax || s.get THM_STATUS_LEVEL = 2 then
    (s.put THM_STATUS_FAST 1).thmMod fun x => { x with calm := 0 }
  else if s.on THM_STATUS_FAST then
    let n := s.thm.calm + 1
    (if 16 ≤ n then s.put THM_STATUS_FAST 0 else s).thmMod fun x => { x with calm := n }
  else s

/-- Time at THROTTLE since the last round: 62.5 µs in fast mode, 1 ms in slow mode (R551, R564). -/
def throttleTime (s : Dev) : Dev :=
  if s.get THM_STATUS_LEVEL ≠ 2 then s
  else
    let u := s.thm.thrUnits + (if s.on THM_STATUS_FAST then 1 else 16)
    (s.count THM_THR_MS (u / 16)).thmMod fun x => { x with thrUnits := u % 16 }

/-- A sensor is declared failed (R555). -/
def sensorFailed (k : Nat) (s : Dev) : Dev :=
  let s := (s.setReg THM_FAILED (setBit (s.reg THM_FAILED) k true)).put THM_FLAGS_TS_FAIL 1
  aonEvent 236 k 0x84 (some sevInfo) s

/-- The value in use of sensor `k` (R556); open where every sensor is failed. -/
def useValue (m : Nat) (r : Nat → Int) (acc : List Int × Dev) (k : Nat) : List Int × Dev :=
  let (l, s) := acc
  let (v, s) : Int × Dev :=
    if failedIn m k || checkFails m r k then
      match substitute m r k with
      | some x => (satS 16 x, s)
      | none => (match s.fresh 16 with | (n, t) => (sx 16 n, t))
    else (r k, s)
  (l ++ [v], s.setReg (THM_TS k) (wrapN 16 (r k) * 65536 + wrapN 16 v))

/-- A round (R552): readings, none for a converter error, and the island voltages in mV. -/
def thermalRound (temps : List (Option Int)) (millivolts : List Nat) (s : Dev) : Dev :=
  if temps.length ≠ 24 || millivolts.length ≠ 6 then s
  else
    let was := s.reg THM_FAILED
    let s := throttleTime s
    let r (k : Nat) : Int :=
      match temps.getD k none with
      | some t => satS 16 t
      | none => sx 16 (s.reg (THM_TS k) / 65536)
    let dead := (List.range 24).filter fun k => (temps.getD k none).isNone && !bit was k
    let s := dead.foldl (fun (t : Dev) k => sensorFailed k t) s
    let m := s.reg THM_FAILED
    -- checks, and failures after four in a row (R555)
    let fails := Vector.ofFn fun (k : Fin 24) => if checkFails m r k.val then vat s.thm.fails k + 1 else 0
    let news := (List.finRange 24).filter fun (k : Fin 24) => 4 ≤ vat fails k
    let s := s.thmMod fun x => { x with fails := fails }
    -- a sensor whose check fails takes its substitute, from its first failing round on (R556)
    let (vals, s) := (List.range 24).foldl (useValue m r) ([], s)
    let s := news.foldl (fun (t : Dev) (k : Fin 24) => sensorFailed k.val t) s
    let m := s.reg THM_FAILED
    let tmax := (greatest vals).getD 0
    let who := (List.range 24).find? fun k => vals.getD k 0 == tmax
    let s := s.setReg THM_STATUS (putBits (s.reg THM_STATUS) 12 8 (who.getD 0))
    let s := s.setReg THM_TMAX (wrapN 16 tmax)
    let s := s.setReg THM_MAX_SEEN (wrapN 16 (max tmax (sx 16 (s.reg THM_MAX_SEEN))))
    let s := s.thmMod fun x => { x with cool := if tmax < 6848 then x.cool + 1 else 0 }
    let s := thresholds tmax ((List.range 24).countP fun k => bit m k) s
    let s := shutdown tmax (paceRound tmax s)
    let s := nvmRound (vals.getD (min (s.reg THM_XSPI_TS % 32) 23) 0) s
    let mv (k : Nat) : Nat := millivolts.getD k 0 % 65536
    let s := (List.range 6).foldl (fun (t : Dev) k => t.setReg (CLK_ISL k) (mv k)) s
    gradientRound m r mv s

/-- Writing 1 to bits of THM_FAILED (R556). -/
def failedClear (w : Nat) (s : Dev) : Dev :=
  let s := s.setReg THM_FAILED ((List.range 24).foldl (fun n k => if bit w k then setBit n k false else n) (s.reg THM_FAILED))
  s.thmMod fun x => { x with fails := Vector.ofFn fun (k : Fin 24) => if bit w k.val then 0 else vat x.fails k }

/-- 20 µs after shutdown every clock but AON stops (R561). -/
def shutdownStop (s : Dev) : Dev :=
  if !s.thm.shut || s.thm.stopped then s
  else ((s.setReg CLK_LIVE 1).setReg CLK_LANE_LIVE 0).thmMod fun x => { x with stopped := true }

end Sys2Proof.Machine
end

