-- ==== Sys2Proof/Machine/FeedbackOps.lean ====
section
/-!
DEFINITION. The operations of position feedback: decoding (R281 to R286), speed (R287, R288), station channels (R289, R290),
the auto-advancing compare (R291 to R293) and the index (R294).
-/
namespace Sys2Proof.Machine

open Reg

def Dev.pin (s : Dev) (c : PinChannel) : PinState := vat s.pins c

def Dev.pinMod (s : Dev) (c : PinChannel) (f : PinState → PinState) : Dev := { s with pins := vmod s.pins c f }

/-- A flag of FBK_c_FLAGS set, with E176 + c when it changes (R297). -/
def pinFlag (c : PinChannel) (f : Field) (code : Nat) (s : Dev) : Dev := flagEvent f (176 + c.val) c.val code s

/-- The count, signed (R283). -/
def Dev.pinCount (s : Dev) (c : PinChannel) : Int := s.regS (FBK_COUNT c)

/-- The position quality, FBK_c_QUAL bits 1 to 0. -/
def setPinQ (c : PinChannel) (q : Nat) (s : Dev) : Dev := s.setReg (FBK_QUAL c) (putBits (s.reg (FBK_QUAL c)) 1 0 q)

def Dev.pinQ (s : Dev) (c : PinChannel) : Nat := bits (s.reg (FBK_QUAL c)) 1 0

/-- SSI, Hall or quadrature (R281). -/
def Dev.pinMode (s : Dev) (c : PinChannel) : Nat :=
  match s.get (FBK_CTRL_MODE c) with
  | 1 => 1
  | 2 => 2
  | _ => 0

/-- The count changes by `d`, modulo 2^32 (R283), at `now`. -/
def pinMove (c : PinChannel) (d : Int) (cause : CountCause) (now : Nat) (s : Dev) : Dev :=
  (s.setRegS (FBK_COUNT c) (s.pinCount c + d)).pinMod c fun p => { p with changes := ⟨now, d, cause⟩ :: p.changes }

/-! ### The compare (R291 to R293) -/

/-- dir: +1 for DIR = 0, −1 for DIR = 1. -/
def Dev.cmpDir (s : Dev) (c : PinChannel) : Int := if s.on (FBK_CMP_CTRL_DIR c) then -1 else 1

/-- V − count as a signed 32-bit number, in the compare direction. -/
def Dev.cmpAhead (s : Dev) (c : PinChannel) : Int :=
  sx 32 (wrapN 32 (s.regS (FBK_CMP_VAL c) - s.pinCount c)) * s.cmpDir c

/-- A hit (R291, R292). -/
def cmpHit (c : PinChannel) (now : Nat) (s : Dev) : Dev :=
  let spacing := s.reg (FBK_CMP_SPACING c)
  let s := s.count (FBK_CMP_HITS c) 1
  let s := s.setRegS (FBK_CMP_VAL c) (s.regS (FBK_CMP_VAL c) + s.cmpDir c * (spacing : Int))
  let s := if spacing = 0 then s.put (FBK_CMP_CTRL_ARMED c) 0 else s
  let lim := s.reg (FBK_CMP_COUNT c)
  let s := if lim = 0 then s
    else
      let s := s.setReg (FBK_CMP_COUNT c) (lim - 1)
      if lim = 1 then s.put (FBK_CMP_CTRL_ARMED c) 0 else s
  let s := s.setReg (FBK_CMP_TIME c) (now % 1000000000 / 4 * 4)
  let route := s.get (FBK_CMP_CTRL_ROUTE c)
  let cam : Camera := ⟨s.get (FBK_CMP_CTRL_CAM c) % 4, Nat.mod_lt _ (by decide)⟩
  let s := if bit route 0 then
      s.pinMod c fun p => { p with cmpUntil := now + 4 * max 1 (s.get (FBK_CMP_CTRL_PW c)) } else s
  let s := if bit route 1 then camTrigger cam 1 (s.pin c).owned (bit route 2) now s else s
  if bit route 2 && !bit route 1 then flashHit s else s

/-- The behind rule, where V is not ahead (R291). -/
def cmpBehind (c : PinChannel) (s : Dev) : Dev :=
  let ahead := s.cmpAhead c
  if !s.on (FBK_CMP_CTRL_ARMED c) || 0 < ahead then s
  else
    let b := (-ahead).toNat
    let spacing := s.reg (FBK_CMP_SPACING c)
    let s := if spacing = 0 then (s.count (FBK_CMP_SKIPPED c) 1).put (FBK_CMP_CTRL_ARMED c) 0
      else
        let m := b / spacing + 1
        (s.setRegS (FBK_CMP_VAL c) (s.regS (FBK_CMP_VAL c) + s.cmpDir c * ((m * spacing : Nat) : Int))).count
          (FBK_CMP_SKIPPED c) m
    pinFlag c (FBK_FLAGS_COMPARE_BEHIND c) 0 s

/-- The compare at an accepted count change of direction `d`; `reached` tells whether the count reached V (R291). -/
def cmpEdge (c : PinChannel) (d : Int) (reached : Bool) (now : Nat) (s : Dev) : Dev :=
  if d ≠ s.cmpDir c then s
  else
    let due := (s.pin c).due
    let s := if s.on (FBK_CMP_CTRL_ARMED c) && reached then cmpHit c now s else s
    let s := s.pinMod c fun p => { p with due := false }
    if due then cmpBehind c s else s

/-- A write of CMP_VAL or COUNT re-aims the compare (R291): the behind rule at once while the channel moves in DIR,
otherwise at the first edge in DIR. -/
def cmpReaim (c : PinChannel) (s : Dev) : Dev :=
  if (s.pin c).lastDir = s.cmpDir c && s.reg (FBK_SPEED c) ≠ 0 then cmpBehind c (s.pinMod c fun p => { p with due := false })
  else s.pinMod c fun p => { p with due := true }

/-- A write of FBK_c_CMP_VAL (R291, R293). -/
def cmpVal (c : PinChannel) (v : Nat) (s : Dev) : Dev :=
  if (s.pin c).owned then pinFlag c (FBK_FLAGS_WRITE_LOCKED c) 0 s else cmpReaim c (s.setReg (FBK_CMP_VAL c) v)

/-- A write of FBK_c_CMP_CTRL (R293, R301). -/
def cmpCtrl (c : PinChannel) (v : Nat) (s : Dev) : Dev :=
  if (s.pin c).owned then pinFlag c (FBK_FLAGS_WRITE_LOCKED c) 0 s
  else
    let s := s.setReg (FBK_CMP_CTRL c) (Nat.land v 0xFFFF00DF)
    if bit v 0 then (s.setReg (FBK_CMP_HITS c) 0).setReg (FBK_CMP_SKIPPED c) 0 else s

/-- The Treadle takes the compare of a channel for a traverse (R72, R293): CMP_VAL one spacing ahead, ROUTE camera and
lamp, armed. -/
def cmpOwn (c : PinChannel) (cam spacing : Nat) (positive : Bool) (s : Dev) : Dev :=
  let d : Int := if positive then 1 else -1
  let s := s.setRegS (FBK_CMP_VAL c) (s.pinCount c + d * (spacing : Int))
  let s := s.setReg (FBK_CMP_SPACING c) spacing
  let w := putBits (putBits (putBits (putBits (s.reg (FBK_CMP_CTRL c)) 7 6 cam) 4 2 6) 1 1 (if positive then 0 else 1)) 0 0 1
  let s := ((s.setReg (FBK_CMP_CTRL c) w).setReg (FBK_CMP_HITS c) 0).setReg (FBK_CMP_SKIPPED c) 0
  s.pinMod c fun p => { p with owned := true, due := false }

/-- Ownership ends: the compare is disarmed (R293). -/
def cmpRelease (c : PinChannel) (s : Dev) : Dev :=
  if (s.pin c).owned then (s.put (FBK_CMP_CTRL_ARMED c) 0).pinMod c fun p => { p with owned := false } else s

/-! ### Decoding (R281 to R286) -/

/-- An illegal transition (R281, R283): no count, SUSPECT, counted in ERRS. -/
def pinIllegal (c : PinChannel) (f : Field) (code now : Nat) (s : Dev) : Dev :=
  let s := setPinQ c qSuspect (s.count (FBK_ERRS c) 1)
  let s := s.pinMod c fun p => { p with illegal := now :: p.illegal }
  pinFlag c f code (fault code sevInfo c.val s)

/-- An accepted edge of direction `d` before INVERT (R281, R283, R291). -/
def pinEdge (c : PinChannel) (d : Int) (now : Nat) (s : Dev) : Dev :=
  let d := if s.on (FBK_CTRL_INVERT c) then -d else d
  let last := (s.pin c).lastDir
  let s := pinMove c d (.edge (decide (last ≠ 0 ∧ last ≠ d))) now s
  let s := s.pinMod c fun p => { p with lastDir := d }
  cmpEdge c d (decide (s.cmpAhead c = 0)) now s

/-- The place of a quadrature state in the order that counts up: A leads B (R281). -/
def quadPlace (levels : Nat) : Nat :=
  match levels % 4 with
  | 0 => 0
  | 1 => 1
  | 3 => 2
  | _ => 3

/-- The place of a Hall code in its sequence (R281); none for 0b000 and 0b111. The code has W, V, U from bit 2 down. -/
def hallPlace (code : Nat) : Option Nat :=
  match code with
  | 1 => some 0
  | 3 => some 1
  | 2 => some 2
  | 6 => some 3
  | 4 => some 4
  | 5 => some 5
  | _ => none

/-- The accepted levels of A, B and Z change (R281, R283). -/
def pinLevels (c : PinChannel) (levels now : Nat) (s : Dev) : Dev :=
  let old := (s.pin c).levels
  let s := s.pinMod c fun p => { p with levels := levels % 8 }
  if !s.on (FBK_EN_EN c) || s.pinMode c = 2 then s
  else if s.pinMode c = 0 then
    match (quadPlace levels + 4 - quadPlace old) % 4 with
    | 1 => pinEdge c 1 now s
    | 3 => pinEdge c (-1) now s
    | 2 => pinIllegal c (FBK_FLAGS_QUAD_ERR c) 0x60 now s
    | _ => s
  else if old = levels % 8 then s
  else
    match hallPlace old, hallPlace (levels % 8) with
    | some a, some b =>
      (match (b + 6 - a) % 6 with
        | 1 => pinEdge c 1 now s
        | 5 => pinEdge c (-1) now s
        | _ => pinIllegal c (FBK_FLAGS_HALL_ERR c) 0x61 now s)
    | _, none => setPinQ c qInvalid (pinIllegal c (FBK_FLAGS_HALL_ERR c) 0x61 now s)
    | none, some _ => pinIllegal c (FBK_FLAGS_HALL_ERR c) 0x61 now s

/-- A write of FBK_c_COUNT (R283, R284, R291). -/
def pinCountWrite (c : PinChannel) (v now : Nat) (s : Dev) : Dev :=
  let s := pinMove c (sx 32 (wrapN 32 ((v : Int) - s.pinCount c))) .write now s
  let s := if s.pinQ c = qSuspect then setPinQ c qGood s else s
  cmpReaim c s

/-- A write of FBK_c_EN (R298): EN = 0 sets all qualities INVALID. -/
def pinEnable (c : PinChannel) (v : Nat) (s : Dev) : Dev :=
  let was := s.on (FBK_EN_EN c)
  let s := s.setReg (FBK_EN c) (v % 4)
  if !bit v 0 then s.setReg (FBK_QUAL c) 0xF
  else if was || s.pinMode c = 2 then s
  else s.setReg (FBK_QUAL c) (if s.pinMode c = 1 && (hallPlace (s.pin c).levels).isNone then qInvalid else qGood)

/-- Frame bits (R300): BITS + 1, BITS at least 7. -/
def Dev.ssiBits (s : Dev) (c : PinChannel) : Nat := max 7 (s.get (FBK_SSI_CFG_BITS c)) + 1

/-- RATE in periods; 0 acts as 1 (R300). -/
def Dev.ssiRate (s : Dev) (c : PinChannel) : Nat := max 1 (s.get (FBK_SSI_CFG_RATE c))

/-- Frame and monoflop time in ns (R285). -/
def Dev.ssiTime (s : Dev) (c : PinChannel) : Nat :=
  s.ssiBits c * (max 13 (s.get (FBK_SSI_CFG_DIV c)) * 8) + max 1 (s.get (FBK_SSI_CFG_MONO c)) * 1000

/-- A read is due (R285, R286): it starts, or its channel is STALE. -/
def ssiStart (c : PinChannel) (s : Dev) : Dev :=
  if !s.on (FBK_EN_EN c) || s.pinMode c ≠ 2 then s
  else if (s.pin c).reading || s.ssiRate c * 2000 ≤ s.ssiTime c then
    if s.pinQ c = qInvalid then s else setPinQ c qStale s
  else s.pinMod c fun p => { p with reading := true }

/-- Gray code to binary. -/
def grayDecode : Nat → Nat → Nat
  | 0, v => v
  | k + 1, v => Nat.xor v (grayDecode k (v / 2))

/-- An SSI read completes (R285, R286, R291): `good` tells that the data line read 0 first and 1 last. -/
def ssiDone (c : PinChannel) (good : Bool) (data now : Nat) (s : Dev) : Dev :=
  if !(s.pin c).reading then s
  else
    let s := s.pinMod c fun p => { p with reading := false }
    if !good then
      let s := setPinQ c qInvalid (s.count (FBK_ERRS c) 1)
      pinFlag c (FBK_FLAGS_SSI_ERR c) 0x62 (fault 0x62 sevInfo c.val s)
    else
      let n := s.ssiBits c
      let err := s.on (FBK_SSI_CFG_ERR_EN c)
      let w := if err then n - 1 else n
      let raw := (if err then data / 2 else data) % 2 ^ w
      let v := if s.on (FBK_SSI_CFG_GRAY c) then grayDecode w raw % 2 ^ w else raw
      let suspect := err && data % 2 == 1
      let d := sx w ((v + 2 ^ w - (s.pin c).vPrev % 2 ^ w) % 2 ^ w)
      let before := s.cmpAhead c
      let s := pinMove c d .read now s
      let s := s.pinMod c fun p =>
        { p with vPrev := v, illegal := if suspect then now :: p.illegal else p.illegal,
                 lastDir := if 0 < d then 1 else if d < 0 then -1 else p.lastDir }
      let s := setPinQ c (if suspect then qSuspect else qGood) s
      if d = 0 then s
      else cmpEdge c (if 0 < d then 1 else -1) (decide (0 < before) && decide (s.cmpAhead c ≤ 0)) now s

/-! ### The index (R294) -/

/-- d := E − latch, with E the nearest value congruent to `pos` modulo `period`, ties to the larger. -/
def indexOffset (latch pos : Int) (period : Nat) : Int :=
  let r := (pos - latch) % (period : Int)
  if 2 * r ≤ period then r else r - period

/-- An accepted rising edge of Z (R294); axes in their index phase on the channel read the latch (R322). -/
def pinIndex (c : PinChannel) (now : Nat) (s : Dev) : Dev :=
  if !s.on (FBK_EN_EN c) || s.pinMode c ≠ 0 then s
  else if s.on (FBK_CTRL_IDX_QUAL c) && (s.pin c).levels % 4 ≠ 3 then s
  else
    let latch := s.pinCount c
    let s := s.setRegS (FBK_IDX_LATCH c) latch
    let s := (List.finRange 8).foldl (fun t m => axIndex c m t) s
    let period := s.reg (FBK_IDX_PERIOD c)
    if !s.on (FBK_CTRL_IDX_EN c) || period = 0 then s
    else
      let d := indexOffset latch (s.regS (FBK_IDX_POS c)) period
      if d = 0 then (if s.pinQ c = qSuspect then setPinQ c qGood s else s)
      else if d.natAbs ≤ s.reg (FBK_IDX_TOL c) % 65536 then
        let s := setPinQ c qGood (pinMove c d .index now s)
        let s := s.setRegS (FBK_IDX_CORR c) d
        let s := faultD 0x64 sevInfo c.val (wrapN 32 latch) (wrapN 32 d) s
        cmpBehind c (pinFlag c (FBK_FLAGS_IDX_CORR c) 0x64 s)
      else pinFlag c (FBK_FLAGS_INDEX_FAULT c) 0x65 (fault 0x65 sevInfo c.val (setPinQ c qSuspect s))

/-! ### Speed (R287) -/

/-- The count edges among the changes, newest first: time, direction, reversal. -/
def edgesOf (l : List CountChange) : List (Nat × Int × Bool) :=
  l.filterMap fun x => match x.cause with
    | .edge r => some (x.at', x.by', r)
    | _ => none

/-- The edges from the newest back to the newest reversal edge, that one included. -/
def sinceReversal : List (Nat × Int × Bool) → List (Nat × Int × Bool)
  | [] => []
  | e :: t => if e.2.2 then [e] else e :: sinceReversal t

/-- The sum of the changes in (a, b], index corrections left out (R287). -/
def sumChanges (l : List CountChange) (a b : Nat) : Int :=
  (l.map fun x => if a < x.at' && x.at' ≤ b && decide (x.cause ≠ .index) then x.by' else 0).sum

/-- The quotient truncated toward zero. -/
def divTrunc (n : Int) (d : Nat) : Int := if n < 0 then -((n.natAbs / d : Nat) : Int) else ((n.natAbs / d : Nat) : Int)

/-- The speed at the period boundary `te`, and where the window it used begins (R287). -/
def pinSpeedAt (l : List CountChange) (te win tmo : Nat) : Int × Nat :=
  match edgesOf l with
  | [] => (0, te - tmo)
  | (ti, di, rev) :: rest =>
    if ti + tmo ≤ te then (0, te - tmo)
    else
      let older := if rev then [] else sinceReversal rest
      let used := older.takeWhile fun e => ti - e.1 ≤ win
      match used.getLast? with
      | some (tj, _, _) =>
        let n := used.length
        let v := n * 1000000000 / (ti - tj)
        let v := if (ti - tj) / n < te - ti then min v (1000000000 / (te - ti)) else v
        (di * (v : Int), tj)
      | none => (divTrunc (sumChanges l (te - win) te * 1000000000) win, te - win)

/-- The speed of a pin channel at a period boundary (R287). -/
def pinPeriod (c : PinChannel) (te : Nat) (s : Dev) : Dev :=
  if !s.on (FBK_EN_EN c) then s
  else
    let p := s.pin c
    let win := clampN 100 1000000000 (s.reg (FBK_SPD_WIN c))
    let tmo := s.reg (FBK_SPD_TIMEOUT c)
    let (v, since) := if s.pinMode c = 2 then
        let one := s.ssiRate c * 2000
        let w := max 1 ((win + one / 2) / one) * one
        (divTrunc (sumChanges p.changes (te - w) te * 1000000000) w, te - w)
      else pinSpeedAt p.changes te win tmo
    let bad := p.illegal.any fun t => since ≤ t && t ≤ te
    let s := s.setRegS (FBK_SPEED c) v
    let s := s.setReg (FBK_QUAL c) (putBits (s.reg (FBK_QUAL c)) 3 2 (if bad then qSuspect else qGood))
    let keep (t : Nat) : Bool := te ≤ t + win + tmo + 2 * (s.ssiRate c * 2000)
    s.pinMod c fun p => { p with changes := p.changes.filter fun x => keep x.at', illegal := p.illegal.filter keep }

/-! ### Station channels (R288 to R290) -/

/-- A station channel at its encoder word (R288 to R290): POS and EQ of the uplink slot, or none where the link is out of
alignment or the slot failed its early check. -/
def stationChannel (k : Nat) (word : Option (Nat × Nat)) (s : Dev) : Dev :=
  let old := s.regS (FBKS_COUNT k)
  let oldQ := bits (s.reg (FBKS_STATUS k)) 1 0
  let invalid (s : Dev) : Dev := (s.setReg (FBKS_SPEED k) 0).setReg (FBKS_STATUS k) 0xF
  match word with
  | none => invalid s
  | some (pos, eq) =>
    if eq = qInvalid then invalid s
    else
      let count := sx 24 ((pos + 2 ^ 24 - s.reg (FBKS_OFFSET k) % 2 ^ 24) % 2 ^ 24)
      let step := sx 24 (wrapN 24 (count - old))
      let jump := decide (oldQ ≠ qInvalid) && decide (s.reg (FBKS_JUMP_MAX k) % 2 ^ 24 < step.natAbs)
      let q := if jump then worst qSuspect eq else eq
      let s := s.setRegS (FBKS_COUNT k) count
      let s := s.setRegS (FBKS_SPEED k) (if oldQ = qInvalid then 0 else step * 500000)
      let s := s.setReg (FBKS_STATUS k) (worst q oldQ * 4 + q)
      if jump then
        let n := k / 3
        let s := fault 0x63 sevInfo n (s.count (FBKS_JUMPS k) 1)
        flagEvent (FBKS_FLAGS_ENC_JUMP k) (184 + n / 2) n 0x63 s
      else s

/-- A flag of a path channel set, with its event when it changes (R297). -/
def pathFlag (f : Field) (n : Nat) (s : Dev) : Dev := flagEvent f (184 + n / 2) n 0 s

end Sys2Proof.Machine
end

