-- ==== Sys2Proof/Machine/PathPlan.lean ====
section
/-!
DEFINITION. The path plan of a Shuttle: ramps (R142 to R146), junctions (R147, R148), elements (R138 to R141, R149,
R685), one tick of the plan, interruption (R163, R164) and the re-pick (R165, R166).
-/
namespace Sys2Proof.Machine

open Reg

/-! ### Ramps -/

/-- A speed in µm/s as accumulator LSB per tick: ceil(v × 2^32 / 2,000) (R143). -/
def speedAcc (v : Nat) : Nat := divUp (v * 2 ^ 32) 2000

/-- An accumulator speed in µm/s: trunc(v × 2,000 / 2^32) (R144). -/
def accSpeed (v : Int) : Nat := (v * 2000 / ((2 ^ 32 : Nat) : Int)).toNat

/-- The jerk ticks where A is not reached: the smallest n ≥ 1 with (500 n)² J ≥ Δv × 10^9 (R142). -/
def jerkTicks (dv j : Nat) : Nat :=
  let q := divUp (dv * 1000000000) (250000 * j)
  let r := isqrt q
  max 1 (if r * r < q then r + 1 else r)

/-- The ticks n_j and n_a of a ramp over Δv (R142). -/
def rampTicks (dv a j : Nat) : Nat × Nat :=
  if a * a * 1000 ≤ dv * j then
    let nj := divUp (a * 1000000) (500 * j)
    (nj, divUp (dv * 1000 - 500 * nj * a) (500 * a))
  else (jerkTicks dv j, 0)

/-- The ramp from `v1` to `v2` (R142, R143). -/
def mkRamp (a j v1 v2 : Nat) : Ramp :=
  let (nj, na) := rampTicks (max v1 v2 - min v1 v2) (max a 1) (max j 1)
  let dacc : Int := (speedAcc v2 : Int) - (speedAcc v1 : Int)
  let j0 : Int := (dacc.natAbs / (nj * (nj + na)) : Nat)
  ⟨nj, na, 0, if dacc < 0 then -j0 else j0, v2⟩

/-- The sum of v over `n` ticks of constant jerk `j` from speed `v` and acceleration `a`, and v and a after them: what
the tick-by-tick integration of R143 gives. -/
def integrate (n : Nat) (j a v : Int) : Int × Int × Int :=
  let k : Int := n
  (k * v + a * (k * (k + 1) / 2) + j * (k * (k + 1) * (k + 2) / 6), v + a * k + j * (k * (k + 1) / 2), a + j * k)

/-- The distance of a ramp, as integrated (R143). -/
def rampDist (a j v1 v2 : Nat) : Nat :=
  if v1 = v2 then 0 else
  let r := mkRamp a j v1 v2
  let (s1, w1, a1) := integrate r.nj r.j0 0 (speedAcc v1)
  let (s2, w2, a2) := integrate r.na 0 a1 w1
  let (s3, _, _) := integrate r.nj (-r.j0) a2 w2
  (s1 + s2 + s3).toNat

/-- The highest whole speed from `lo` to `hi` that `ok` admits, by bisection; `lo` where none above it does (R146). -/
def bisect (ok : Nat → Bool) : Nat → Nat → Nat → Nat
  | 0, lo, _ => lo
  | f + 1, lo, hi =>
    if hi ≤ lo then lo
    else
      let mid := (lo + hi + 1) / 2
      if ok mid then bisect ok f mid hi else bisect ok f lo (mid - 1)

/-- The peak speed of an element of `len` between speeds `v1` and `v2`, at most `v` (R146). -/
def peakSpeed (a j len v1 v2 v : Nat) : Nat :=
  let fits (p : Nat) : Bool := rampDist a j v1 p + rampDist a j p v2 ≤ len
  if v ≤ max v1 v2 then max v1 v2 else if fits v then v else bisect fits 34 (max v1 v2) v

/-- The highest speed at the other end of an element of `len` from `v1`, at most `v` (the ramp must fit). -/
def reachSpeed (a j len v1 v : Nat) : Nat :=
  let fits (p : Nat) : Bool := rampDist a j v1 p ≤ len
  if v ≤ v1 then v else if fits v then v else bisect fits 34 v1 v

/-! ### Geometry (R147, R148) -/

def P2.add (a b : P2) : P2 := ⟨F64.add a.x b.x, F64.add a.y b.y⟩
def P2.sub (a b : P2) : P2 := ⟨F64.sub a.x b.x, F64.sub a.y b.y⟩
def P2.scale (a : P2) (k : F64) : P2 := ⟨F64.mul a.x k, F64.mul a.y k⟩
def P2.dot (a b : P2) : F64 := F64.add (F64.mul a.x b.x) (F64.mul a.y b.y)
def P2.norm (a : P2) : F64 := F64.sqrt (P2.dot a a)
def P2.ofInt (x y : Int) : P2 := ⟨F64.ofInt x, F64.ofInt y⟩

/-- The unit vector from `a` to `b`; zero where they coincide. -/
def unitDir (a b : P2) : P2 :=
  let d := P2.sub b a
  let n := P2.norm d
  if F64.isZero n then P2.zero else ⟨F64.div d.x n, F64.div d.y n⟩

/-- A length in nm as accumulator LSB 2^-32 nm, rounded down. -/
def lenAcc (l : F64) : Nat := (F64.toFixed l 32).toNat

/-- An accumulator length as nm. -/
def accLen (n : Nat) : F64 := F64.ofFixed n 32

/-- A planned junction (R147): its speed and, where it has an arc, radius and corner distance. -/
structure Junction where
  vb : Nat
  r : F64
  d : F64
  hasArc : Bool
deriving DecidableEq, Repr

def Junction.stop : Junction := ⟨0, F64.zero, F64.zero, false⟩

/-- The junction of two legs (R147): `cosMin` is BLEND_COS as Q1.15, `ab` the lateral acceleration in m/s². -/
def junction (u1 u2 : P2) (lenIn lenOut : F64) (vIn vOut dev ab : Nat) (cosMin : Int) (exact : Bool) : Junction :=
  let c := P2.dot u1 u2
  let one := F64.ofInt 1
  if F64.lt c (F64.ofScaled cosMin (-15)) || dev == 0 || exact then Junction.stop
  else if F64.le (F64.sub one (F64.ofScaled 1 (-40))) c then ⟨min vIn vOut, F64.zero, F64.zero, false⟩
  else
    let q := F64.sub (F64.sqrt (F64.div (F64.ofInt 2) (F64.add one c))) one
    let t := F64.sqrt (F64.div (F64.sub one c) (F64.add one c))
    let r := F64.div (F64.ofInt dev) q
    let d := F64.mul r t
    let m := F64.minF lenIn lenOut
    let (d, r) := if F64.lt m d then (m, F64.div m t) else (d, r)
    let w := (F64.trunc (F64.sqrt (F64.mul (F64.mul (F64.ofInt ab) r) (F64.ofInt 1000)))).toNat
    ⟨min (min vIn vOut) w, r, d, true⟩

/-- The turn of two directions: +1 to the left, −1 to the right. -/
def turnOf (u1 u2 : P2) : Int :=
  if F64.lt (F64.sub (F64.mul u1.x u2.y) (F64.mul u1.y u2.x)) F64.zero then -1 else 1

/-- The point of an element at `s` accumulator LSB from its start, and the unit tangent there (R148). -/
def Elem.at (e : Elem) (s : Nat) : P2 × P2 :=
  match e.kind with
  | .rest => (e.p, e.u)
  | .arc =>
    let th := F64.div (accLen s) e.r
    let si := F64.sin th
    let co := F64.cos th
    let k := F64.ofInt e.turn
    -- rotate the entry direction and the radius vector by the turn
    let rot (v : P2) : P2 :=
      ⟨F64.sub (F64.mul v.x co) (F64.mul (F64.mul k v.y) si), F64.add (F64.mul (F64.mul k v.x) si) (F64.mul v.y co)⟩
    (P2.add e.c (rot (P2.sub e.p e.c)), rot e.u)
  | _ => (P2.add e.p (P2.scale e.u (accLen s)), e.u)

/-- Where an element ends; a stay in a point sequence ends at the sequence's last point. -/
def Elem.endPt (e : Elem) : P2 :=
  if e.kind = .rest then P2.add e.p (P2.scale e.u (F64.ofInt (e.again * max e.pick.w7 1))) else (e.at e.len).1

/-- Where the plan ends, at rest (R135). -/
def Shuttle.planEnd (x : Shuttle) : Option P2 :=
  match x.plan.getLast? with
  | some e => some e.endPt
  | none => x.tail

def Pick.none : Pick := ⟨0, 0, 0, 0, 0, 0, 0, 0, 0, 0, 0⟩

/-- A straight element. -/
def straight (kind : ElemKind) (p u : P2) (len : Nat) (vmax vEnd : Nat) (laser : Bool) (k : Pick) : Elem :=
  ⟨kind, p, u, P2.zero, F64.zero, 0, len, vmax, vEnd, laser, 0, 0, k, false⟩

/-- A stay at rest (R138). -/
def restElem (p : P2) (ticks again : Nat) (laser : Bool) (k : Pick) : Elem :=
  ⟨.rest, p, P2.zero, P2.zero, F64.zero, 0, 0, 0, 0, laser, ticks, again, k, false⟩

/-- The two halves of a junction's arc (R147, R150): the first belongs to the incoming pick. -/
def arcElems (corner u1 u2 : P2) (jn : Junction) (l1 l2 : Bool) (k1 k2 : Pick) : List Elem :=
  let turn := turnOf u1 u2
  let entry := P2.sub corner (P2.scale u1 jn.d)
  let k := F64.ofInt turn
  let nrm : P2 := ⟨F64.neg (F64.mul k u1.y), F64.mul k u1.x⟩
  let cen := P2.add entry (P2.scale nrm jn.r)
  let ang := F64.ofFixed (F64.atan2Fixed (F64.abs (F64.sub (F64.mul u1.x u2.y) (F64.mul u1.y u2.x))) (P2.dot u1 u2)) 100
  let half := lenAcc (F64.mul jn.r ang) / 2
  let e1 : Elem := ⟨.arc, entry, u1, cen, jn.r, turn, half, jn.vb, jn.vb, l1, 0, 0, k1, false⟩
  let (m, um) := e1.at half
  [e1, ⟨.arc, m, um, cen, jn.r, turn, half, jn.vb, jn.vb, l2, 0, 0, k2, false⟩]

/-! ### Picks (R59 to R61) -/

/-- A pick from its eight words (R59, R60). -/
def Pick.ofWords (idx : Nat) (zoff : Int) (w : List Nat) : Pick :=
  let g (i : Nat) : Nat := w.getD i 0
  ⟨idx, bits (g 0) 3 0, bits (g 0) 11 4, sx 32 (g 1), sx 32 (g 2), sx 32 (g 3), sx 32 (g 4), g 5, g 6, g 7, zoff⟩

def Pick.power (k : Pick) : Nat := bits k.w6 21 0
def Pick.target (k : Pick) : Nat := bits k.w6 31 24
/-- Flag bits of R61, counted from bit 4 of word 0. -/
def Pick.exactStop (k : Pick) : Bool := bit k.flags 2
def Pick.powerOpen (k : Pick) : Bool := bit k.flags 3 || k.typ == 6
def Pick.noHeatFf (k : Pick) : Bool := bit k.flags 4
def Pick.noRepick (k : Pick) : Bool := bit k.flags 5
def Pick.isLine (k : Pick) : Bool := k.typ == 1 || k.typ == 2 || k.typ == 6

/-! ### The limits in force (R169) -/

structure PathCfg where
  vmax : Nat
  a : Nat
  j : Nat
  ab : Nat
  dev : Nat
  jumpDev : Nat
  cosMin : Int
  blend : Bool
  clip : Bool
  astop : Nat
  /-- the grid's rectangle: x0, y0, x1, y1 in nm (R153) -/
  gx0 : Int
  gy0 : Int
  gx1 : Int
  gy1 : Int

/-- The Creel offset of the correction grid in force (R157). -/
def Dev.gridBase (s : Dev) (n : Nat) : Nat :=
  if s.on (SHT_GRID_SEL_SEL n) then s.reg (SHT_GRID_BASE1 n) else s.reg (SHT_GRID_BASE0 n)

def Dev.pathCfg (s : Dev) (n : Nat) : PathCfg :=
  let g := s.gridBase n
  let x0 := sx 32 (s.creelNat g 4)
  let y0 := sx 32 (s.creelNat (g + 4) 4)
  let pitch : Int := s.creelNat (g + 8) 4
  { vmax := s.reg (SHT_VMAX_PATH n), a := s.reg (SHT_A_PATH n), j := s.reg (SHT_J_PATH n),
    ab := s.reg (SHT_A_BLEND n), dev := s.reg (SHT_BLEND_DEV n), jumpDev := s.reg (SHT_JUMP_DEV n),
    cosMin := sx 16 (s.reg (SHT_BLEND_COS n)), blend := s.on (SHT_CTRL_BLEND_EN n),
    clip := s.on (SHT_CTRL_EDGE_CLIP n), astop := s.reg (SHT_A_STOP n),
    gx0 := x0, gy0 := y0, gx1 := x0 + 128 * pitch, gy1 := y0 + 128 * pitch }

/-- Whether a bed point lies within the grid, edges included (R153). -/
def PathCfg.inGrid (c : PathCfg) (x y : Int) : Bool := c.gx0 ≤ x && x ≤ c.gx1 && c.gy0 ≤ y && y ≤ c.gy1

/-- How far one can go from `p` along `u` before the grid's edge, in nm; at most `l` (R149). -/
def PathCfg.room (c : PathCfg) (p u : P2) (l : F64) : F64 :=
  let one (p u : F64) (lo hi : Int) : F64 :=
    if F64.isZero u then l
    else if F64.lt u F64.zero then F64.div (F64.sub (F64.ofInt lo) p) u
    else F64.div (F64.sub (F64.ofInt hi) p) u
  F64.minF l (F64.maxF F64.zero (F64.minF (one p.x u.x c.gx0 c.gx1) (one p.y u.y c.gy0 c.gy1)))

/-! ### Extending the plan (R135, R138 to R141) -/

/-- The line speed of a pick (R139). -/
def lineSpeed (c : PathCfg) (k : Pick) : Nat := min k.w5 c.vmax

/-- Speeds at element boundaries that the ramps can meet: each end speed is lowered until a ramp to the next end fits,
backward from the plan's end at rest (R135, R145, R146). -/
def feasibleBack (a j : Nat) : List Elem → List Elem
  | [] => []
  | [e] => [{ e with vEnd := 0 }]
  | e :: f :: t =>
    match feasibleBack a j (f :: t) with
    | [] => [{ e with vEnd := 0 }]
    | f' :: t' =>
      let lim := if f'.kind = .rest then 0 else min e.vEnd (reachSpeed a j f'.len f'.vEnd f'.vmax)
      { e with vEnd := lim } :: f' :: t'

/-- The corner at which an element's leg meets the next leg, with the blend (R147): the first leg loses d at its end,
the second at its start; a run-up or run-out leg is lengthened by d instead. -/
def joinLegs (c : PathCfg) (e1 e2 : Elem) (shared1 shared2 : Bool) : List Elem × Elem :=
  let laserJ := e1.laser || e2.laser
  let half (b : Bool) (l : F64) : F64 := if b then F64.div l (F64.ofInt 2) else l
  let jn := junction e1.u e2.u (half shared1 (accLen e1.len)) (half shared2 (accLen e2.len)) e1.vmax e2.vmax
    (if laserJ then c.dev else c.jumpDev) (if laserJ then c.ab else c.a) c.cosMin
    (!c.blend || e1.pick.exactStop && e1.laser)
  if !jn.hasArc then ([{ e1 with vEnd := jn.vb }], e2)
  else
    let dAcc := lenAcc jn.d
    let corner := e1.endPt
    let arc := arcElems corner e1.u e2.u jn e1.laser e2.laser e1.pick e2.pick
    let e1' : Elem := { e1 with len := e1.len - dAcc, vEnd := jn.vb }
    let e2' : Elem := { e2 with p := P2.add e2.p (P2.scale e2.u jn.d), len := e2.len - dAcc }
    (e1' :: arc, e2')

/-- Join the leg `e1` and the straight legs after it by their junctions; the last leg keeps its end. -/
def joinFrom (c : PathCfg) (e1 : Elem) : List Elem → List Elem
  | [] => [e1]
  | e2 :: t =>
    let (out, e2') := joinLegs c e1 e2 (e1.kind == .jump) (t.isEmpty || e2.kind == .jump)
    out ++ joinFrom c e2' t

/-- Join a chain of straight legs by their junctions. -/
def joinChain (c : PathCfg) : List Elem → List Elem
  | [] => []
  | e :: t => joinFrom c e t

/-- The straight legs of a laser-off move through via points to `q`. -/
def jumpLegs (v : Nat) (k : Pick) : P2 → List P2 → List Elem
  | _, [] => []
  | p, q :: t =>
    let l := lenAcc (P2.norm (P2.sub q p))
    let rest := jumpLegs v k q t
    if l = 0 then rest else straight .jump p (unitDir p q) l v 0 false k :: rest

/-- Mark the last element of a pick (R134). -/
def markLast (l : List Elem) : List Elem :=
  match l.reverse with
  | [] => []
  | e :: t => ({ e with last := true } :: t).reverse

/-- The elements of one pick laid out from the tail of the plan (R138): the move to it, its run-up, its line or its
points, its run-out. `tail` is where the plan ends now. With `wait` two laser-off ticks come before an exposure at rest:
its on edge rides two ticks ahead (R34), and a DWELL's exposure waits for its z move (R140). -/
def pickElems (c : PathCfg) (tail : Option P2) (vias : List (Int × Int)) (viaSpeed : Nat) (wait : Bool) (k : Pick) : List Elem :=
  let settle (p : P2) : List Elem := if wait then [restElem p 2 0 false k] else []
  let vj := if viaSpeed ≠ 0 && viaSpeed < c.vmax then viaSpeed else c.vmax
  let viaPts := vias.map fun (x, y) => P2.ofInt x y
  let a := P2.ofInt k.x1 k.y1
  let b := P2.ofInt k.x2 k.y2
  if k.isLine then
    let v := lineSpeed c k
    let u := unitDir a b
    let ru := F64.ofFixed (rampDist c.a c.j 0 v : Nat) 32
    let back : P2 := ⟨F64.neg u.x, F64.neg u.y⟩
    let lru := c.room a back ru
    let lro := if k.exactStop then F64.zero else c.room b u ru
    let q := P2.add a (P2.scale back lru)
    let jump := match tail with
      | some p => jumpLegs vj k p (viaPts ++ [q])
      | none => []
    let up := straight .runUp q u (lenAcc lru) v v false k
    let line := straight .line a u (lenAcc (P2.norm (P2.sub b a))) v (if k.exactStop then 0 else v) true k
    let out := straight .runOut b u (lenAcc lro) v 0 false k
    joinChain c (jump ++ [up]) ++ [line] ++ (if k.exactStop then [] else [out])
  else if k.typ = 4 then
    let jump := match tail with
      | some p => joinChain c (jumpLegs vj k p (viaPts ++ [a]))
      | none => []
    jump ++ settle a ++ [restElem a k.w5 0 true k]
  else if k.typ = 5 then
    let jump := match tail with
      | some p => joinChain c (jumpLegs vj k p (viaPts ++ [a]))
      | none => []
    let n := (F64.floor (F64.div (P2.norm (P2.sub b a)) (F64.ofInt (max k.w7 1)))).toNat
    jump ++ settle a ++ [{ restElem a (bits k.w5 15 0) n true k with u := unitDir a b }]
  else []

/-- Whether a CONTOUR continues the CONTOUR the plan ends with, whose run-out has not begun (R138). -/
def chains (plan : List Elem) (k : Pick) : Bool :=
  k.typ == 2 && 2 ≤ plan.length &&
    (match plan.getLast? with
      | some e => e.kind == .runOut && e.pick.typ == 2 && e.pick.x2 == k.x1 && e.pick.y2 == k.y1
      | none => false)

/-- The plan extended by a pick (R135): a chained CONTOUR replaces the run-out by a laser-on junction; any other pick
is reached by a laser-off move, blended at the run-out's end when the run-out has not begun. -/
def extendPlan (c : PathCfg) (sh : Shuttle) (k : Pick) : List Elem :=
  if chains sh.plan k then
    let kept := sh.plan.dropLast
    match kept.getLast? with
    | none => sh.plan
    | some line =>
      let v := lineSpeed c k
      let a := P2.ofInt k.x1 k.y1
      let b := P2.ofInt k.x2 k.y2
      let u := unitDir a b
      let l2 := straight .line a u (lenAcc (P2.norm (P2.sub b a))) v (if k.exactStop then 0 else v) true k
      let begun := decide (kept.length ≤ 1)
      let chained := kept.dropLast.any fun e => e.kind == .arc && e.pick.idx == line.pick.idx
      let (head, l2') := if begun then ([{ line with vEnd := 0 }], l2) else joinLegs c line l2 chained true
      let ru := F64.ofFixed (rampDist c.a c.j 0 v : Nat) 32
      let out := straight .runOut b u (lenAcc (c.room b u ru)) v 0 false k
      feasibleBack c.a c.j (kept.dropLast ++ markLast head ++ markLast ([l2'] ++ (if k.exactStop then [] else [out])))
  else
    let fresh := pickElems c sh.planEnd sh.vias sh.viaSpeed (sh.planEnd.isNone || (k.typ == 4 && k.zoff ≠ sh.zNext)) k
    match sh.plan.getLast?, fresh with
    | some e, f :: t =>
      if e.kind == .runOut && f.kind == .jump && 2 ≤ sh.plan.length then
        let (head, f') := joinLegs c e f false (t.isEmpty || f.kind == .jump)
        feasibleBack c.a c.j (sh.plan.dropLast ++ markLast head ++ markLast (f' :: t))
      else feasibleBack c.a c.j (sh.plan ++ markLast fresh)
    | _, _ => feasibleBack c.a c.j (sh.plan ++ markLast fresh)

/-! ### One tick of the plan (R143, R145) -/

/-- The present path length, 2^-32 nm. -/
def Shuttle.s (x : Shuttle) : Nat := x.base + x.pos

/-- The present planned speed in µm/s (R144). -/
def Shuttle.speed (x : Shuttle) : Nat := accSpeed x.v

/-- The present bed point and tangent. -/
def Shuttle.point (x : Shuttle) : P2 × P2 :=
  match x.plan with
  | e :: _ => e.at x.pos
  | [] => (x.tail.getD P2.zero, P2.zero)

/-- Leave the current element for the next one with what was travelled beyond its end. -/
def nextElem (x : Shuttle) : Shuttle :=
  match x.plan with
  | [] => x
  | e :: t =>
    let past := x.pos - e.len
    let fresh := e.laser && !(x.trail.any fun y => y.1.pick.idx == e.pick.idx)
    { x with plan := t, pos := if t.isEmpty then 0 else past, base := x.base + e.len,
             trail := (if fresh && !x.stopping then [] else x.trail) ++ [(e, x.base)],
             tail := some (if e.kind = .rest then e.p else e.endPt) }

/-- Pass every element whose end lies behind; the first argument bounds how many. -/
def passElems : Nat → Shuttle → Shuttle
  | 0, x => x
  | f + 1, x =>
    match x.plan with
    | e :: t => if e.kind ≠ .rest && e.len ≤ x.pos && (!t.isEmpty || x.v = 0) then passElems f (nextElem x) else x
    | [] => x

/-- One tick of a ramp (R143): at its end the speed is exact, and a ramp to rest ends on the element's end (R145). -/
def rampTick (r : Ramp) (x : Shuttle) (stop : Bool) : Shuttle :=
  let j := if r.done < r.nj then r.j0 else if r.done < r.nj + r.na then 0 else -r.j0
  let a := x.a + j
  let v := x.v + a
  let pos := x.pos + v.toNat
  if r.done + 1 = 2 * r.nj + r.na then
    let len := match x.plan with | e :: _ => e.len | [] => x.pos
    { x with a := 0, v := speedAcc r.v2, ramp := none, pos := if r.v2 = 0 && !stop then len else pos }
  else { x with a := a, v := v, pos := pos, ramp := some { r with done := r.done + 1 } }

/-- The plan advances by one tick (R142 to R146). Ramps begin at tick starts; between them the speed is constant. -/
def planTick (c : PathCfg) (x : Shuttle) : Shuttle :=
  match x.plan with
  | [] => { x with v := 0, a := 0 }
  | e :: _ =>
    match x.easing with
    | some (n, j) =>
      let a := x.a + j
      let v := x.v + a
      passElems 64 { x with a := if n ≤ 1 then 0 else a, v := v, pos := x.pos + v.toNat,
                            easing := if n ≤ 1 then none else some (n - 1, j) }
    | none =>
      if x.stopping then
        match x.ramp with
        | some r => passElems 64 (rampTick r x true)
        | none =>
          if x.v = 0 then x
          else passElems 64 (rampTick (mkRamp c.astop c.j x.speed 0) x true)
      else if e.kind = .rest then
        if 1 < e.ticks then { x with plan := { e with ticks := e.ticks - 1 } :: x.plan.tail }
        else
          let y := nextElem x
          match e.again with
          | 0 => y
          | n + 1 =>
            let q := P2.add e.p (P2.scale e.u (F64.ofInt (max e.pick.w7 1)))
            let jump := straight .jump e.p e.u (lenAcc (F64.ofInt (max e.pick.w7 1))) c.vmax 0 false e.pick
            let stay : Elem := { e with p := q, ticks := bits e.pick.w5 15 0, again := n }
            { y with plan := jump :: stay :: y.plan }
      else
        match x.ramp with
        | some r => passElems 64 (rampTick r x false)
        | none =>
          let v1 := x.speed
          let rem := e.len - x.pos
          let dEnd := rampDist c.a c.j v1 e.vEnd
          let travel := x.v.toNat
          if e.vEnd < v1 && dEnd ≤ rem && rem < travel + dEnd then
            passElems 64 (rampTick (mkRamp c.a c.j v1 e.vEnd) x false)
          else
            let peak := peakSpeed c.a c.j rem v1 e.vEnd e.vmax
            if v1 < peak then passElems 64 (rampTick (mkRamp c.a c.j v1 peak) x false)
            else if e.vmax < v1 && e.vEnd < v1 then passElems 64 (rampTick (mkRamp c.a c.j v1 e.vmax) x false)
            else if x.v = 0 && 0 < rem then passElems 64 { x with pos := e.len }
            else passElems 64 { x with pos := x.pos + travel }

/-- The plan's state `n` ticks ahead, with no pick entering meanwhile. -/
def planAhead (c : PathCfg) : Nat → Shuttle → Shuttle
  | 0, x => x
  | n + 1, x => planAhead c n (planTick c x)

/-! ### Interruption and re-pick (R163 to R166) -/

/-- The easing phase that takes the acceleration to 0 before the stop ramp (R164), by the formula as written there. -/
def easingOf (j : Nat) (acc : Int) : Option (Nat × Int) :=
  if acc = 0 then none
  else
    let n := max 1 (divUp acc.natAbs (max j 1 * 2 ^ 29))
    let q : Int := (acc.natAbs / n : Nat)
    some (n, if acc < 0 then q else -q)

/-- The element that holds path length `s`, with the path length where it begins: the current one or one already
traversed. -/
def Shuttle.elemAt (x : Shuttle) (s : Nat) : Option (Elem × Nat) :=
  match x.plan with
  | e :: _ => if x.base ≤ s then some (e, x.base)
      else match x.trail.reverse.find? fun y => decide (y.2 ≤ s) with
        | some y => some y
        | none => some (e, x.base)
  | [] => x.trail.reverse.find? fun y => decide (y.2 ≤ s)

/-- The interruption at path length `s` (R163, R164): the point is recorded, emission ends and the stop begins. -/
def interruptS (c : PathCfg) (s : Nat) (x : Shuttle) : Shuttle :=
  if x.intr.isSome || x.stopping then x else
  let y : Shuttle := { x with stopping := true, ramp := none, easing := easingOf c.j x.a, comps := [], actBreak := true,
                              repicking := false, stopAt := none }
  match x.elemAt s with
  | none => y
  | some (e, b) => { y with intr := some ⟨e, b, s, e.laser, e.ticks⟩ }

/-- An element from `off` accumulator LSB after its start on. -/
def Elem.cutAt (e : Elem) (off : Nat) : Elem :=
  if e.kind = .rest then e else
  let (p, u) := e.at off
  { e with p := p, u := u, len := e.len - off }

/-- The re-pick (R165, R166; where the interruption fell in a laser-off element but the stop ran into the exposure after
it, from that exposure's start): the plan from rest to the run-up, to the re-pick point and on; the length exposed again in
whole µm; and whether a pick was given up. -/
def repickPlan (c : PathCfg) (back : Nat) (x : Shuttle) : Shuttle × Nat × Bool :=
  match x.intr with
  | none => ({ x with stopping := false }, 0, false)
  | some i =>
    let here := (x.point).1
    let clear : Shuttle := { x with intr := none, stopping := false, v := 0, a := 0, ramp := none, easing := none }
    let past := x.trail ++ (match x.plan with | e :: _ => [(e, x.base)] | [] => [])
    let since := past.dropWhile fun y => !(y.2 == i.base && y.1.kind == i.elem.kind && y.1.laser == i.elem.laser)
    let all := (x.trail.filter fun y => i.base ≤ y.2 || (y.1.laser && y.1.pick.idx == i.elem.pick.idx)) ++
      (match x.plan with | e :: _ => [(e, x.base)] | [] => [])
    let rest := x.plan.tail
    let vj := c.vmax
    let entered := (since.find? fun y => y.1.laser && decide (y.2 < x.s))
    if !i.laser && entered.isNone then (clear, 0, false)
    else if i.laser && i.elem.pick.noRepick then
      let later := (all.map (·.1) ++ rest).filter fun e => e.pick.idx ≠ i.elem.pick.idx
      let go := match later with
        | e :: _ => jumpLegs vj e.pick here [e.p]
        | [] => []
      ({ clear with plan := feasibleBack c.a c.j (go ++ later), pos := 0, base := x.s, trail := [] }, 0, true)
    else if i.laser && i.elem.kind = .rest then
      let stay : Elem := if i.elem.pick.typ = 4 then { i.elem with ticks := i.ticksLeft }
        else { i.elem with p := P2.add i.elem.p (P2.scale i.elem.u (F64.ofInt (max i.elem.pick.w7 1)))
                           ticks := bits i.elem.pick.w5 15 0, again := i.elem.again - 1 }
      let keep := i.elem.pick.typ = 4 || 0 < i.elem.again
      let go := if keep then jumpLegs vj i.elem.pick here [stay.p] ++ [restElem stay.p 2 0 false i.elem.pick, stay] else []
      ({ clear with plan := feasibleBack c.a c.j (go ++ rest), pos := 0, base := x.s, trail := [] }, 0, false)
    else
      let first := (x.trail.find? fun y => y.1.laser && y.1.pick.idx == i.elem.pick.idx).map (·.2)
      let lo := first.getD i.base
      let lo := if i.laser then lo else (entered.map (·.2)).getD lo
      let q0 := if i.laser then max lo (i.s - back * 2 ^ 32) else lo
      let q := match x.slowSince with
        | some w => if w ≤ q0 then max lo w else q0
        | none => q0
      let path := (all ++ rest.map fun e => (e, 0))
      let cut := path.dropWhile fun y => y.2 + y.1.len ≤ q && y.2 ≠ 0
      match cut with
      | [] => (clear, 0, false)
      | (e, b) :: more =>
        let e' := e.cutAt (q - b)
        let v := if e.pick.isLine then lineSpeed c e.pick else e.vmax
        let ru := F64.ofFixed (rampDist c.a c.j 0 v : Nat) 32
        let p0 := P2.sub e'.p (P2.scale e'.u ru)
        let up := straight .runUp p0 e'.u (lenAcc ru) v v false e.pick
        let go := joinChain c (jumpLegs vj e.pick here [p0] ++ [up])
        let plan := feasibleBack c.a c.j (go ++ [e'] ++ more.map (·.1))
        let before := (go.map (·.len)).sum
        -- the exposed part of the pick before q is kept, for a later re-pick and for the pulse grid
        let head := (path.takeWhile fun y => y.2 + y.1.len ≤ q && y.2 ≠ 0) ++ (if b < q then [({ e with len := q - b }, b)] else [])
        let trail := head.filter fun y => y.1.laser && y.1.pick.idx == e.pick.idx
        ({ clear with plan := plan, pos := 0, base := q - min q before, trail := trail, slowSince := none },
          (i.s - min i.s q) / 2 ^ 32 / 1000, false)

end Sys2Proof.Machine
end

