-- ==== Sys2Proof/Machine/ShuttleOps.lean ====
section
/-!
DEFINITION. The Shuttles: the correction grid (R153 to R157), the per-axis limiter (R158), the look-ahead queue and its
checks (R134 to R141), power and flags of a tick (R150, R151), pulses on distance and the path channel (R160 to R162,
R296), interruption and re-pick (R163 to R167), and their writes to the loop mailbox (R133, R276).
-/
namespace Sys2Proof.Machine

open Reg

/-! ### The loop mailbox (R276) -/

/-- Creel byte offset of byte `off` of Sn's loop mailbox. -/
def mbox (n : Station) (off : Nat) : Nat := 0x1FE0000 + n.val * 0x2000 + off

/-- A 32-bit word of Sn's mailbox written. -/
def mboxPut (n : Station) (off v : Nat) (s : Dev) : Dev := s.setCreelBytes (mbox n off) (leBytes 4 v)

/-- A 32-bit word of Sn's mailbox. -/
def Dev.mboxGet (s : Dev) (n : Station) (off : Nat) : Nat := s.creelNat (mbox n off) 4

/-! ### The correction grid (R153, R154) -/

/-- Whether grid buffer at `base` passes the checks of a commit (R157): CRC-32C over all entries, PITCH not 0. -/
def Dev.gridOk (s : Dev) (base : Nat) : Bool :=
  s.creelNat (base + 8) 4 ≠ 0 && s.creelNat (base + 12) 4 == crc32c (s.creelBytes (base + 16) 266256)

/-- Axis `a` of entry (row, col) of the grid at `base`; beyond the edge 2 × edge − next-inner (R154). -/
def Dev.gridEntry (s : Dev) (base a : Nat) (row col : Int) : Int :=
  let at' (r c : Nat) : Int := sx 32 (s.creelNat (base + 16 + (r * 129 + c) * 16 + 4 * a) 4)
  let inCol (r : Nat) : Int :=
    if col < 0 then 2 * at' r 0 - at' r 1 else if 128 < col then 2 * at' r 128 - at' r 127 else at' r col.toNat
  if row < 0 then 2 * inCol 0 - inCol 1 else if 128 < row then 2 * inCol 128 - inCol 127 else inCol row.toNat

/-- A decimal constant of the weights: `k / 2`. -/
def halves (k : Int) : F64 := F64.ofScaled k (-1)

/-- The cubic convolution weight of parameter −0.5 (R154). -/
def cubicW (t : F64) : F64 :=
  let a := F64.abs t
  let sq (k : Int) : F64 := F64.mul (F64.mul (halves k) a) a
  let cu (k : Int) : F64 := F64.mul (sq k) a
  if F64.le a (F64.ofInt 1) then F64.add (F64.sub (cu 3) (sq 5)) (F64.ofInt 1)
  else if F64.lt a (F64.ofInt 2) then
    F64.add (F64.sub (F64.add (cu (-1)) (sq 5)) (F64.mul (F64.ofInt 4) a)) (F64.ofInt 2)
  else F64.zero

/-- Its derivative. -/
def cubicD (t : F64) : F64 :=
  let a := F64.abs t
  let sg (x : F64) : F64 := if F64.lt t F64.zero then F64.neg x else x
  let sq (k : Int) : F64 := F64.mul (F64.mul (halves k) a) a
  if F64.le a (F64.ofInt 1) then sg (F64.sub (sq 9) (F64.mul (F64.ofInt 5) a))
  else if F64.lt a (F64.ofInt 2) then
    sg (F64.sub (F64.add (sq (-3)) (F64.mul (F64.ofInt 5) a)) (F64.ofInt 4))
  else F64.zero

/-- One axis of the grid at a bed point: G, ∂G/∂x and ∂G/∂y (R154). -/
structure GridValue where
  g : F64
  dx : F64
  dy : F64
deriving DecidableEq, Repr

/-- The grid's cell and fraction along one coordinate (R154). -/
def gridCell (v v0 : Int) (pitch : Nat) : Int × F64 :=
  let q := F64.div (F64.ofInt (v - v0)) (F64.ofInt pitch)
  let i := clampI 0 127 (F64.floor q)
  (i, F64.sub q (F64.ofInt i))

/-- G of axis `a` at (x, y) with its derivatives (R154). -/
def Dev.gridAt (s : Dev) (base a : Nat) (x y : Int) : GridValue :=
  let pitch := s.creelNat (base + 8) 4
  let (i, fx) := gridCell x (sx 32 (s.creelNat base 4)) pitch
  let (j, fy) := gridCell y (sx 32 (s.creelNat (base + 4) 4)) pitch
  let tap (f : F64) (k : Nat) : F64 := F64.sub f (F64.ofInt ((k : Int) - 1))
  let rowSum (w : F64 → F64) (r : Nat) : F64 :=
    (List.range 4).foldl (fun acc k =>
      F64.add acc (F64.mul (w (tap fx k)) (F64.ofInt (s.gridEntry base a (j - 1 + r) (i - 1 + k))))) F64.zero
  let sum (wr wc : F64 → F64) : F64 :=
    (List.range 4).foldl (fun acc r => F64.add acc (F64.mul (wr (tap fy r)) (rowSum wc r))) F64.zero
  let p := F64.ofInt pitch
  ⟨sum cubicW cubicW, F64.div (sum cubicW cubicD) p, F64.div (sum cubicD cubicW) p⟩

/-- Z's share of the z offset: trunc(z offset × ZSCALE / 65,536) (R154). -/
def Dev.zShare (s : Dev) (n : Nat) (zoff : Int) : Int :=
  Int.tdiv (zoff * s.regS (SHT_ZSCALE n)) 65536

/-- The set-points of X, Y and Z at a bed point and z offset (R154, R155). -/
def Dev.axisTargets (s : Dev) (n : Nat) (x y zoff : Int) : Vector Int 3 :=
  let b := s.gridBase n
  let v (a : Nat) : Int := F64.nearest (s.gridAt b a x y).g
  #v[satS 32 (v 0), satS 32 (v 1), satS 32 (v 2 + s.zShare n zoff)]

/-- Jxy^-1 applied to (px, py): the bed vector in nm, none where Jxy is singular (R156, R158). -/
def Dev.toBed (s : Dev) (n : Nat) (x y : Int) (px py : F64) : Option P2 :=
  let b := s.gridBase n
  let gx := s.gridAt b 0 x y
  let gy := s.gridAt b 1 x y
  let det := F64.sub (F64.mul gx.dx gy.dy) (F64.mul gx.dy gy.dx)
  if !det.fin || F64.isZero det then none
  else
    let ax := F64.div (F64.sub (F64.mul gy.dy px) (F64.mul gx.dy py)) det
    let ay := F64.div (F64.sub (F64.mul gx.dx py) (F64.mul gy.dx px)) det
    if ax.fin && ay.fin then some ⟨ax, ay⟩ else none

/-- The octagonal estimate of a length (R99). -/
def octLen (dx dy : Int) : Nat :=
  let a := dx.natAbs
  let b := dy.natAbs
  max a b + 3 * min a b / 8

/-! ### State of a Shuttle -/

def Dev.shtl (s : Dev) (n : Station) : Shuttle := vat s.sht n

def Dev.shtMod (s : Dev) (n : Station) (f : Shuttle → Shuttle) : Dev := { s with sht := vmod s.sht n f }

/-- A flag of SHT_n_FLAGS set, with E128 + n when it changes (R168). -/
def shtFlag (n : Station) (f : Field) (code : Nat) (s : Dev) : Dev := flagEvent f (128 + n.val) n.val code s

/-- The Shuttles run from LAYER_PREP to LAYER_CLOSE and in PAUSED (R132). -/
def Dev.shuttlesRun (s : Dev) : Bool := 2 ≤ s.trdState && s.trdState ≤ 7

/-- The path plan moves: the layer scans, the station is not retired, the approach is over and it is not parking. -/
def Dev.onPath (s : Dev) (n : Station) : Bool :=
  s.shuttlesRun && !s.isRetired n.val && (s.shtl n).started && !(s.shtl n).parking

/-- DEPTH (R169). -/
def Dev.lookDepth (s : Dev) (n : Nat) : Nat := clampN 2 64 (s.get (SHT_LOOKAHEAD_DEPTH n))

/-- The stream of the active layer still to be played into pick bobbin n (R98). -/
def Dev.stream (s : Dev) (n : Station) : List (List Nat) := vat (vat s.trd.slots s.activeSlot).plan n

def setStream (n : Station) (l : List (List Nat)) (s : Dev) : Dev :=
  s.slotMod s.activeSlot fun x => { x with plan := vput x.plan n l }

/-- A record is END_OF_LIST (R60). -/
def isEnd (w : List Nat) : Bool := w.headD 0 % 16 == 0

/-- A re-allocation pass runs or is due (R118, R129). -/
def Dev.reallocRuns (s : Dev) : Bool := s.get SHD_STATUS_PASS == 2 || s.shd.request ≠ 0

/-- The station's END_OF_LIST is withheld (R120). -/
def Dev.endWithheld (s : Dev) (n : Station) : Bool :=
  s.reallocRuns && (match s.stream n with | [w] => isEnd w | _ => false)

/-- The DRAM controller plays the stream into bobbin n while it has room (R38, R98); END_OF_LIST is withheld while a
re-allocation pass runs (R120). The first argument bounds the picks. -/
def feedN (n : Station) : Nat → Dev → Dev
  | 0, s => s
  | k + 1, s =>
    match s.stream n with
    | [] => s
    | w :: t =>
      if (isEnd w && s.reallocRuns) || !s.bobFits n.val 32 then s
      else
        let (_, s) := bobPush n.val (wordsBytes (w.take 8)) s
        let s := setStream n t s
        feedN n k (if isEnd w then { s with crl := { s.crl with ended := n.val :: s.crl.ended } } else s)

def feed (n : Station) (s : Dev) : Dev := feedN n ((s.stream n).length) s

/-! ### Picks entering the queue (R134, R138 to R141, R149) -/

/-- A pick given up at entry (R141, R149). -/
def skipPick (n : Station) (flag : Option (Field × Nat)) (s : Dev) : Dev :=
  let s := s.count (SHT_SKIPPED n) 1
  match flag with
  | none => s
  | some (f, code) => fault code sevInfo n.val (shtFlag n f code s)

/-- Whether a line's run-up or run-out crosses the edge of the grid (R149). -/
def edgeCrossed (c : PathCfg) (k : Pick) : Bool :=
  let a := P2.ofInt k.x1 k.y1
  let b := P2.ofInt k.x2 k.y2
  let u := unitDir a b
  let ru := F64.ofFixed (rampDist c.a c.j 0 (lineSpeed c k) : Nat) 32
  let short (p u : P2) : Bool := F64.lt (c.room p u ru) ru
  short a ⟨F64.neg u.x, F64.neg u.y⟩ || (!k.exactStop && short b u)

/-- The queue shows its depth (R171). -/
def setQdepth (n : Station) (s : Dev) : Dev := s.put (SHT_STATUS_QDEPTH n) (s.shtl n).queue.length

/-- A pick extends the queue and the plan (R135). -/
def admitPick (n : Station) (k : Pick) (s : Dev) : Dev :=
  let c := s.pathCfg n
  let s := s.shtMod n fun x =>
    if k.typ = 3 then
      { x with queue := x.queue ++ [k], vias := x.vias ++ [(k.x2, k.y2)], viaSpeed := k.w5, zNext := k.zoff }
    else
      { x with plan := extendPlan c x k, queue := x.queue ++ [k], vias := [], viaSpeed := 0, zNext := k.zoff }
  setQdepth n (s.put (SHT_STATUS_STARVED n) 0)

/-- The checks on a pick that enters (R139, R141, R149), and its entry. -/
def enterPick (n : Station) (k : Pick) (s : Dev) : Dev :=
  let c := s.pathCfg n
  let v := lineSpeed c k
  let inside := (k.typ == 3 || c.inGrid k.x1 k.y1) && c.inGrid k.x2 k.y2
  let clamped := k.isLine && decide (c.vmax < k.w5)
  let s := if clamped then shtFlag n (SHT_FLAGS_SPEED_CLAMP n) 0 s else s
  if !inside then skipPick n (some (SHT_FLAGS_GRID_RANGE n, 0x41)) s
  else if k.isLine && k.x1 = k.x2 && k.y1 = k.y2 then skipPick n none s
  else if k.isLine && k.w7 ≠ 0 && k.w7 * 1000000 < 250 * v then skipPick n (some (SHT_FLAGS_PULSE_RATE n, 0x42)) s
  else if k.isLine && edgeCrossed c k then
    if c.clip then admitPick n k (shtFlag n (SHT_FLAGS_EDGE_RAMP n) 0 s)
    else skipPick n (some (SHT_FLAGS_GRID_RANGE n, 0x41)) s
  else admitPick n k s

/-- The next pick from bobbin n enters the look-ahead queue (R134), or the bobbin is found empty (R412). -/
def pickFetch (n : Station) (s : Dev) : Dev :=
  let x := s.shtl n
  if !s.shuttlesRun || s.isRetired n.val || x.sawEnd || s.lookDepth n ≤ x.queue.length || s.trdState = tAborted then s
  else
    let s := feed n s
    match bobPop n.val 1 s with
    | (none, s) => if s.bobEn n.val && !s.endWithheld n then bobUnderrun n.val s else s
    | (some bs, s) =>
      let s := feed n s
      let w := bytesWords bs
      let typ := w.headD 0 % 16
      let z := if typ = 3 || typ = 4 then sx 32 (w.getD 7 0) else x.zNext
      let k := Pick.ofWords x.taken z w
      let s := s.shtMod n fun x => { x with taken := x.taken + 1 }
      if typ = 0 then s.shtMod n fun x => { x with sawEnd := true } else enterPick n k s

/-! ### Set-points of a period (R155, R158, R684) -/

/-- One axis of the limiter, and whether it acts (R158). -/
def limStep (ud : Int) (vmax amax jmax : Int) (l : LimAxis) : LimAxis × Bool :=
  let e := ud - l.u
  let aw := e - l.v
  if e.natAbs ≤ vmax.natAbs && aw.natAbs ≤ amax.natAbs && (aw - l.a).natAbs ≤ jmax.natAbs then (⟨ud, e, aw⟩, false)
  else
    let vw := clampI (-vmax) vmax e
    let brake := l.v ≠ 0 && l.v.sign = e.sign && 2 * amax * e.natAbs ≤ l.v * l.v
    let vw := if brake then 0 else vw
    let aw := clampI (-amax) amax (vw - l.v)
    let aw := clampI (l.a - jmax) (l.a + jmax) aw
    (⟨l.u + l.v + aw, l.v + aw, aw⟩, true)

/-- The desired set-points of the period that begins (R155, R684, R137): on the path, at its first point, or park. -/
def Dev.desired (s : Dev) (n : Station) : Vector Int 3 :=
  let x := s.shtl n
  if x.parking || s.isRetired n.val || (x.plan.isEmpty && x.tail.isNone) then #v[s.regS (SHT_PARK_X n), s.regS (SHT_PARK_Y n), s.regS (SHT_PARK_Z n)]
  else
    let p := (x.point).1
    let z := match x.plan with | e :: _ => e.pick.zoff | [] => x.zoff
    s.axisTargets n (F64.nearest p.x) (F64.nearest p.y) z

/-- The limiter stands at the desired set-points at rest (R684). -/
def Dev.limAtRest (s : Dev) (n : Station) : Bool :=
  let ud := s.desired n
  (List.finRange 3).all fun (a : Fin 3) =>
    let l := vat (s.shtl n).lim a
    l.u == vat ud a && l.v == 0 && l.a == 0

/-- Bed velocity and acceleration of the plan, nm per period and per period² (R155). -/
def Shuttle.bedMotion (x : Shuttle) : P2 × P2 :=
  let (p, t) := x.point
  let v := F64.ofScaled x.v (-32)
  let a := F64.ofScaled x.a (-32)
  let vb := P2.scale t (F64.mul v (F64.ofInt 4))
  let ab := P2.scale t a
  let ab := match x.plan with
    | e :: _ => if e.kind = .arc then P2.add ab (P2.scale (P2.sub e.c p)
        (F64.div (F64.div (F64.mul v v) e.r) e.r)) else ab
    | [] => ab
  (vb, P2.scale ab (F64.ofInt 16))

/-- Feedforward of axis `a` (R155): velocity in axis units per period, acceleration with LSB 2^-8. -/
def Dev.feedforward (s : Dev) (n : Station) (a : Nat) : Int × Int :=
  let x := s.shtl n
  let p := (x.point).1
  let g := s.gridAt (s.gridBase n) a (F64.nearest p.x) (F64.nearest p.y)
  let (vb, ab) := x.bedMotion
  let dot (w : P2) : F64 := F64.add (F64.mul g.dx w.x) (F64.mul g.dy w.y)
  (satS 32 (F64.nearest (dot vb)), satS 32 (F64.nearest (F64.mul (dot ab) (F64.ofInt 256))))

/-- The set-points of the period that begins now pass the limiter and enter the mailbox with their feedforward (R155,
R158). A missed deadline holds the previous ones STALE (R34). -/
def shtPeriod (n : Station) (period : Nat) (s : Dev) : Dev :=
  if !s.shuttlesRun && s.trdState ≠ tAborted then s
  else if (s.shtl n).holdSet then
    mboxPut n 0x224 qStale (s.shtMod n fun x => { x with holdSet := false })
  else
    let path := s.onPath n
    let ud := s.desired n
    let lims : Vector (LimAxis × Bool) 3 := Vector.ofFn fun (a : Fin 3) =>
      limStep (vat ud a) (s.reg (SHT_AX_VMAX n a)) (s.reg (SHT_AX_AMAX n a)) (s.reg (SHT_AX_JMAX n a))
        (vat (s.shtl n).lim a)
    let acts := path && (List.finRange 3).any fun (a : Fin 3) => (vat lims a).2
    let ffs : Vector (Int × Int) 3 := Vector.ofFn fun (a : Fin 3) =>
      let l := (vat lims a).1
      if path && !acts then s.feedforward n a.val else (satS 32 l.v, satS 32 (l.a * 256))
    let s := (List.finRange 3).foldl (fun (t : Dev) (a : Fin 3) =>
      let l := (vat lims a).1
      mboxPut n (0x208 + 12 * a.val) (wrapN 32 (vat ffs a).2) (mboxPut n (0x204 + 12 * a.val) (wrapN 32 (vat ffs a).1)
        (mboxPut n (0x200 + 12 * a.val) (wrapN 32 l.u) t))) s
    let s := mboxPut n 0x224 qGood s
    let x := s.shtl n
    let (p, t) := x.point
    let bx := F64.nearest p.x
    let by' := F64.nearest p.y
    let eff := if !acts then 0 else
      match s.toBed n bx by' (F64.ofInt (vat lims 0).1.v) (F64.ofInt (vat lims 1).1.v) with
      | some w => octLen (F64.nearest w.x) (F64.nearest w.y) * 500
      | none => 0
    let s := s.shtMod n fun x =>
      { x with lim := Vector.map (·.1) lims, limited := acts, vEff := eff,
               bpts := if path then (⟨period, x.s, bx, by', t.x, t.y⟩ :: x.bpts).take 8 else x.bpts }
    let s := if path then
        (((s.setRegS (SHT_SET_X n) bx).setRegS (SHT_SET_Y n) by').setReg (SHT_SPEED n) x.speed).setRegS (SHT_ZOFF n) x.zoff
      else s
    let s := s.put (SHT_STATUS_LIMITED n) (b2n acts)
    if acts then shtFlag n (SHT_FLAGS_LIMIT n) 0 (s.count (SHT_LIMIT_PER n) 1) else s

/-! ### Actual positions (R156, R160) -/

/-- The actual bed position of period `p`, from the encoder values of its slot 0 (R156), and s_act (R160). -/
def shtActual (n : Station) (period : Nat) (s : Dev) : Dev :=
  match (s.shtl n).bpts.find? (·.period == period) with
  | none =>
    let s := s.put ⟨SHT_ACT_Q n, 1, 0⟩ qInvalid
    (mboxPut n 0x230 qInvalid s).shtMod n fun x => { x with actBreak := true }
  | some b =>
    let q (a : Nat) : Nat := bits (s.reg (FBKS_STATUS (3 * n.val + a))) 1 0
    let enc (a : Nat) : F64 := F64.ofInt (s.regS (FBKS_COUNT (3 * n.val + a)) * 256)
    let g (a : Nat) : F64 := (s.gridAt (s.gridBase n) a b.x b.y).g
    let qual := worst (q 0) (q 1)
    let (x, y, qual, s) := match s.toBed n b.x b.y (F64.sub (enc 0) (g 0)) (F64.sub (enc 1) (g 1)) with
      | none => (b.x, b.y, qInvalid, shtFlag n (SHT_FLAGS_ACT_SUSPECT n) 0 s)
      | some w =>
        let x := satS 32 (F64.nearest (F64.add (F64.ofInt b.x) w.x))
        let y := satS 32 (F64.nearest (F64.add (F64.ofInt b.y) w.y))
        if qual ≠ qInvalid && s.reg (SHT_ACT_TRUST n) < octLen (x - b.x) (y - b.y) then
          (x, y, worst qual qSuspect, shtFlag n (SHT_FLAGS_ACT_SUSPECT n) 0 s)
        else (x, y, qual, s)
    let along := F64.add (F64.mul (F64.ofInt (x - b.x)) b.tx) (F64.mul (F64.ofInt (y - b.y)) b.ty)
    let sa := F64.add (accLen b.s) along
    let start := match (s.shtl n).comps.find? (·.eff) with | some k => k.start | none => 0
    let s := ((s.setRegS (SHT_ACT_X n) x).setRegS (SHT_ACT_Y n) y).put ⟨SHT_ACT_Q n, 1, 0⟩ qual
    let s := mboxPut n 0x230 qual (mboxPut n 0x22C (wrapN 32 y) (mboxPut n 0x228 (wrapN 32 x) s))
    let s := s.setRegS (FBKP_S n) (F64.nearest sa - start / ((2 ^ 32 : Nat) : Int))
    let s := s.mstMod n fun m => { m with acts := ((period, x, y, qual) :: m.acts).take 32 }
    s.shtMod n fun z => { z with sAct := ((period, sa, qual) :: z.sAct).take 4, prevOk := !z.actBreak, actBreak := false }

/-! ### Pulses on distance (R160 to R162, R296) -/

/-- The position s(t) over one tick: as extrapolated from three actual positions, or as planned (R160). -/
structure PathFn where
  /-- s0, v0, a0 and the time from the sample instant to the start of the tick, ns -/
  s0 : F64
  v0 : F64
  a0 : F64
  t0 : Nat
  /-- s_plan stands in for s(t) -/
  planned : Bool
deriving DecidableEq, Repr

/-- s at `tau` ns into the tick. -/
def PathFn.at (f : PathFn) (tau : F64) : F64 :=
  let t := F64.add (F64.ofInt f.t0) tau
  F64.add (F64.add f.s0 (F64.mul f.v0 t)) (F64.div (F64.mul (F64.mul f.a0 t) t) (F64.ofInt 2))

/-- v at `tau` ns into the tick, nm/ns. -/
def PathFn.speed (f : PathFn) (tau : F64) : F64 :=
  F64.add f.v0 (F64.mul f.a0 (F64.add (F64.ofInt f.t0) tau))

/-- s(t) for the edges of tick `m` (R160): the actual values of the last three periods complete 200 ns before tick
`m − 2`, or the plan from `sa` to `sb` (2^-32 nm). -/
def pathFn (x : Shuttle) (m sa sb : Nat) : PathFn :=
  -- a position is complete 1,200 ns after its sample: in phase 3 of its own period, else in the next
  let newest := if (m - 2) % 4 = 3 then (m - 2) / 4 else (m - 2) / 4 - 1
  let at' (p : Nat) : Option F64 := (x.sAct.find? fun e => e.1 == p && decide (e.2.2 ≤ qStale)).map (·.2.1)
  match at' newest, at' (newest - 1), at' (newest - 2) with
  | some s0, some s1, some s2 =>
    let k (i : Int) (v : F64) : F64 := F64.mul (F64.ofInt i) v
    ⟨s0, F64.div (F64.add (F64.sub (k 3 s0) (k 4 s1)) s2) (F64.ofInt 4000),
      F64.div (F64.add (F64.sub s0 (k 2 s1)) s2) (F64.ofInt 4000000), m * 500 - newest * 2000, false⟩
  | _, _, _ => ⟨accLen sa, F64.div (accLen (sb - sa)) (F64.ofInt 500), F64.zero, 0, true⟩

/-- τ of a point of the path in the tick (R161). -/
def PathFn.tau (f : PathFn) (sigma : F64) : F64 :=
  let z := F64.zero
  let d (t : F64) : F64 := F64.sub sigma (f.at t)
  let secant : F64 := F64.div (F64.mul (d z) (F64.ofInt 500)) (F64.sub (f.at (F64.ofInt 500)) (f.at z))
  if !F64.lt z (f.speed z) then secant
  else
    let t1 := F64.div (d z) (f.speed z)
    if !F64.lt z (f.speed t1) then secant
    else F64.sub t1 (F64.div (F64.neg (d t1)) (f.speed t1))

/-- round(τ) (R161). -/
def PathFn.offset (f : PathFn) (sigma : F64) : Int := F64.nearest (f.tau sigma)

/-- A path position in nm. -/
def accNm (i : Int) : F64 := F64.ofScaled i (-32)

/-- A pulse offered to a tick that has edges already (R162): placed whole where it fits, else dropped. -/
structure PulseTick where
  edges : List (Nat × Bool)
  offs : List Nat
  drops : Nat
  hits : Nat

/-- Place an on edge at `on`, with its off edge at `off` ns of the grid where known (R161, R162). Whether it was placed. -/
def placePulse (tick on : Nat) (off : Option Nat) (p : PulseTick) : Bool × PulseTick :=
  let here := match off with | some o => decide (o < (tick + 1) * 500) | none => false
  let p := { p with hits := p.hits + 1 }
  if 4 < p.edges.length + 1 + b2n here then (false, { p with drops := p.drops + 1 })
  else
    let p := { p with edges := p.edges ++ [(on, true)] }
    match off with
    | none => (true, p)
    | some o =>
      if here then (true, { p with edges := p.edges ++ [(o - tick * 500, false)] })
      else (true, { p with offs := p.offs ++ [o] })

/-- The pulses of one spaced compare that fall in the tick (R161). -/
def spacedPulses (f : PathFn) (tick width : Nat) : Nat → PathCmp → PulseTick → PathCmp × PulseTick
  | 0, c, p => (c, p)
  | k + 1, c, p =>
    let se := f.at (F64.ofInt 500)
    if c.stop < c.next || F64.le se (accNm c.next) then (c, p)
    else
      let on := clampI 0 499 (f.offset (accNm c.next))
      let next := c.next + c.spacing * ((2 ^ 32 : Nat) : Int)
      let onAbs : Int := ((tick * 500 : Nat) : Int) + on
      let nextAbs : Int := ((tick * 500 : Nat) : Int) + f.offset (accNm next)
      let off := onAbs + width
      let off := if next ≤ c.stop && nextAbs ≤ off then nextAbs - 20 else off
      let (_, p) := placePulse tick on.toNat (some off.toNat) p
      spacedPulses f tick width k { c with next := next } p

/-- One compare in tick `tick` (R161, R296): its first effect, and the edges that fall in the tick. `none` where it is
over. The flags say COMPARE_BEHIND, and how many points were skipped. -/
def compareTick (f : PathFn) (tick width : Nat) (c : PathCmp) (p : PulseTick) :
    Option PathCmp × PulseTick × Bool × Nat :=
  let sk := f.at F64.zero
  let se := f.at (F64.ofInt 500)
  if tick < c.tick then (some c, p, false, 0)
  else
    let behind := !c.eff && F64.lt (accNm c.next) sk
    if c.spacing ≠ 0 then
      let m : Nat := if behind then
        ((F64.floor (F64.div (F64.sub sk (accNm c.next)) (F64.ofInt c.spacing))).toNat + 1) else 0
      let c := { c with eff := true, next := c.next + (m * c.spacing : Nat) * ((2 ^ 32 : Nat) : Int) }
      let (c, p) := spacedPulses f tick width 8 c p
      (if c.stop < c.next then none else some c, p, behind, m)
    else if c.lit then
      if F64.lt (accNm c.stop) se then
        let off := clampI 0 499 (f.offset (accNm c.stop))
        (none, { p with offs := p.offs ++ [tick * 500 + off.toNat] }, false, 0)
      else (some c, p, false, 0)
    else if behind && F64.lt (accNm c.stop) sk then (none, p, true, 1)
    else if !behind && F64.le se (accNm c.next) then (some { c with eff := true }, p, false, 0)
    else
      let on := if behind then 0 else clampI 0 499 (f.offset (accNm c.next))
      let off : Option Nat := if F64.lt (accNm c.stop) se then
        some (tick * 500 + (clampI 0 499 (f.offset (accNm c.stop))).toNat) else none
      let (ok, p) := placePulse tick on.toNat off p
      (if !ok || off.isSome then none else some { c with eff := true, lit := true }, p, behind, 0)

/-- Off edges due by the end of the tick go first; beyond four the rest are carried to offset 0 of the next (R162). -/
def dueOffs (tick : Nat) (offs : List Nat) : List (Nat × Bool) × List Nat :=
  let due := (offs.filter (· < (tick + 1) * 500)).mergeSort (· ≤ ·)
  let later := offs.filter fun o => !decide (o < (tick + 1) * 500)
  ((due.take 4).map fun o => (o - tick * 500, false), (due.drop 4).map (fun _ => (tick + 1) * 500) ++ later)

/-- The elements from the head of `near` to the head of `far`, with the path length where each begins. -/
def between (near far : Shuttle) : List (Elem × Nat) :=
  let rec go : Nat → List Elem → List (Elem × Nat)
    | _, [] => []
    | b, e :: t => (e, b) :: go (b + e.len) t
  go near.base (near.plan.take (near.plan.length - far.plan.length + 1))

/-- The compares that the elements of the plan load when the plan reaches them: every laser-on element of a new pick
between the plan at the start of the tick and at its end (R296). The pulse grid counts from the pick's start, also after a
re-pick (R165). -/
def loadCompares (tick : Nat) (near far : Shuttle) (x : Shuttle) : Shuttle :=
  (between near far).foldl (fun x y =>
    let e := y.1
    if !e.laser || e.kind = .rest || (x.comps.any (·.pick == e.pick.idx)) || e.pick.idx < x.pulsed then x
    else
      let mine (g : Elem) : Bool := g.laser && g.pick.idx == e.pick.idx
      let start : Nat := match near.trail.find? fun z => mine z.1 with | some z => z.2 | none => y.2
      let stop := y.2 + ((near.plan.filter mine).map (·.len)).sum
      let grid := e.pick.w7 * 2 ^ 32
      let next := if e.pick.w7 = 0 then y.2 else start + divUp (y.2 - start) grid * grid
      let c : PathCmp := ⟨e.pick.idx, tick, Int.ofNat next, Int.ofNat start, Int.ofNat stop, e.pick.w7, false, false⟩
      { x with comps := x.comps ++ [c], pulsed := e.pick.idx + 1 }) x

end Sys2Proof.Machine
end

