-- ==== Sys2Proof/Machine/ShuttleStep.lean ====
section
/-!
DEFINITION. What a Shuttle does each tick: the edges two ticks ahead (R34, R133, R160 to R162), the plan's advance with
power and flags (R134 to R136, R140, R150, R151, R159), interruptions (R163, R164), and its part of the layer cycle
(R137, R157, R165, R684).
-/
namespace Sys2Proof.Machine

open Reg

/-! ### Edges (R133, R160 to R162, R255) -/

/-- An edge entry (R255). -/
def edgeEntry (e : Nat × Bool) : Nat := 0x400 + b2n e.2 * 0x200 + e.1 % 512

/-- The two words of up to four entries (R254). -/
def edgeWords (l : List (Nat × Bool)) : Nat × Nat :=
  let g (i : Nat) : Nat := match (l.map edgeEntry)[i]? with | some v => v | none => 0
  (g 1 * 65536 + g 0, g 3 * 65536 + g 2)

/-- A stay at rest that exposes stands at the head of the plan (R138). -/
def Shuttle.atExposure (x : Shuttle) : Bool :=
  !x.stopping && (match x.plan with | e :: _ => e.laser && e.kind == .rest | [] => false)

/-- The compares of the tick in order; COMPARE_BEHIND, the points skipped, and what remains. -/
def runCompares (f : PathFn) (tick width : Nat) : List PathCmp → PulseTick → List PathCmp × PulseTick × Bool × Nat
  | [], p => ([], p, false, 0)
  | c :: t, p =>
    let (c', p, b1, k1) := compareTick f tick width c p
    let (t', p, b2, k2) := runCompares f tick width t p
    ((match c' with | some c => c :: t' | none => t'), p, b1 || b2, k1 + k2)

/-- The edges of tick `m` as the plan, the compares and the off edges that are due give them, with the Shuttle after
them; the flags say EXTRAP and COMPARE_BEHIND; the numbers are hits, skipped points and dropped pulses. -/
def tickEdges (c : PathCfg) (m width : Nat) (x : Shuttle) : List (Nat × Bool) × Shuttle × Bool × Bool × Nat × Nat × Nat :=
  let near := planAhead c 2 x
  let far := planAhead c 3 x
  let (due, later) := dueOffs m x.offs
  let rest := near.atExposure
  -- the exposure of a stay begins or ends at offset 0 of the tick
  let due := if rest && !x.resting then due ++ [(0, true)] else if !rest && x.resting && x.lit then (0, false) :: due else due
  let x := loadCompares m near far x
  let f := pathFn x m near.s far.s
  let (comps, p, behind, skipped) := runCompares f m width x.comps ⟨due, later, 0, 0⟩
  let list := p.edges.mergeSort (fun a b => decide (a.1 ≤ b.1))
  let offsNow := p.offs.filter (fun o => decide (o < (m + 1) * 500))
  let list := (list ++ offsNow.map fun o => (o - m * 500, false)).mergeSort (fun a b => decide (a.1 ≤ b.1))
  let offs := p.offs.filter fun o => !decide (o < (m + 1) * 500)
  let lit := match list.getLast? with | some e => e.2 | none => x.lit
  (list, { x with comps := comps, offs := offs, resting := rest, placed := ((m, x.lit, list) :: x.placed).take 8, lit := lit },
    f.planned && !x.comps.isEmpty, behind, p.hits, skipped, p.drops)

/-- No emission is planned in tick `m`: what is lit is put out at its start, and nothing else happens. -/
def darkEdges (m : Nat) (x : Shuttle) : List (Nat × Bool) × Shuttle :=
  let list := if x.lit then [(0, false)] else []
  (list, { x with comps := [], offs := [], resting := false, placed := ((m, x.lit, list) :: x.placed).take 8, lit := false })

/-- The planned speed and position written beside the edges: FBK_P_n_CMP and SPACING of the compare in force (R296). -/
def showCompare (n : Station) (s : Dev) : Dev :=
  match (s.shtl n).comps.find? (·.eff) with
  | some c =>
    let next := if c.spacing = 0 && c.lit then c.stop else c.next
    (s.setRegS (FBKP_CMP n) ((next - c.start) / ((2 ^ 32 : Nat) : Int))).setReg (FBKP_SPACING n) c.spacing
  | none => s

/-- The edge entries enter the mailbox and the downlink words of the tick's phase (R276). -/
def edgesOut (n : Station) (k : Nat) (w : Nat × Nat) (s : Dev) : Dev :=
  let ph := k % 4
  mboxPut n (0x10C + ph * 0x40) w.2 (mboxPut n (0x108 + ph * 0x40) w.1
    (mboxPut n (0x298 + ph * 0x20) w.2 (mboxPut n (0x294 + ph * 0x20) w.1 s)))

/-- The pause tick in force lies at or before schedule tick `m` (R77). -/
def Dev.pauseBy (s : Dev) (m : Nat) : Bool := match s.trd.pauseAt with | some k => decide (k ≤ m) | none => false

/-- The edges of tick `k + 2` go into the downlink of tick `k` (R34). `sched` is the schedule value of tick `k`. -/
def shtEdges (n : Station) (k sched : Nat) (s : Dev) : Dev :=
  let x := s.shtl n
  let m := k + 2
  if x.holdEdges then
    -- the deadline was missed: the previous entries are held (R34)
    let prev := match x.placed with | e :: _ => e.2.2 | [] => []
    let lit := match prev.getLast? with | some e => e.2 | none => x.lit
    edgesOut n k (edgeWords prev) (s.shtMod n fun x =>
      { x with holdEdges := false, placed := ((m, x.lit, prev) :: x.placed).take 8, lit := lit })
  else
    let lives := s.onPath n && decide (s.trdState = tScan) && !x.stopping && x.intr.isNone && !s.pauseBy (sched + 2)
    if !lives then
      let (list, y) := darkEdges m x
      edgesOut n k (edgeWords list) (s.shtMod n fun _ => y)
    else
      let (list, y, extrap, behind, hits, skipped, drops) := tickEdges (s.pathCfg n) m (max 1 (s.reg (SHT_PULSE_W n))) x
      let s := edgesOut n k (edgeWords list) (s.shtMod n fun _ => y)
      let s := if extrap then flagEvent (FBKP_FLAGS_EXTRAP n) (184 + n.val / 2) n.val 0 s else s
      let s := if behind then flagEvent (FBKP_FLAGS_COMPARE_BEHIND n) (184 + n.val / 2) n.val 0 s else s
      let s := (s.count (FBKP_HITS n) hits).count (FBKP_SKIPPED n) skipped
      let s := if drops = 0 then s else shtFlag n (SHT_FLAGS_PULSE_DROP n) 0 (s.count (SHT_PULSE_DROPS n) drops)
      showCompare n s

/-! ### Power and flags (R150, R151) -/

/-- The element that the tick from `x` to `y` exposes: the first laser-on element it overlaps. -/
def exposed (x y : Shuttle) : Option Elem :=
  let n := x.plan.length - y.plan.length
  let into := match y.plan with | e :: _ => if 0 < y.pos then [e] else [] | [] => []
  ((if n = 0 then x.plan.take 1 else x.plan.take n ++ into)).find? (·.laser)

/-- The nominal speed of a pick's line (R139, R150): word 5, so that a clamp scales power too. -/
def Pick.vnom (k : Pick) : Nat := max 1 k.w5

/-- P_k, k_s and the flags of a tick with their target index (R150, R151). -/
structure TickPower where
  on : Bool
  power : Nat
  ks : Nat
  flags : Nat
  target : Nat
  mark : Bool
  pick : Nat
  typ : Nat

/-- The values of the tick that begins at plan state `x` and ends at `y` (R150, R151). -/
def tickPower (x y : Shuttle) (dark : Bool) : TickPower :=
  let e := if dark || x.stopping || x.intr.isSome then none else exposed x y
  let pick : Pick := match e with
    | some e => e.pick
    | none => match x.plan with | e :: _ => e.pick | [] => Pick.none
  let rest := match e with | some e => e.kind == .rest | none => false
  let v := if x.limited then x.vEff else x.speed
  let vn := pick.vnom
  let ks := if e.isNone || rest then 32768 else min 32768 (min v vn * 32768 / vn)
  let power := match e with
    | none => 0
    | some _ => if rest then pick.power else if x.limited then pick.power * ks / 32768 else pick.power * min v vn / vn
  let flags := b2n e.isSome + 2 * b2n (ks < 32768) + 4 * b2n pick.powerOpen + 8 * b2n pick.noHeatFf + 16 * b2n x.limited
  ⟨e.isSome, power, ks, flags, pick.target, pick.typ == 6, pick.idx, pick.typ⟩

/-! ### The plan's advance (R134, R136, R140, R143, R159) -/

/-- The last element of its pick: the stay at the last point of a POINT_SEQ, or the element marked (R134). -/
def Elem.ends (e : Elem) : Bool := e.last && (e.kind ≠ .rest || e.again == 0)

/-- Picks leave the queue when their last element has begun (R134). -/
def trimQueue (x : Shuttle) : Shuttle :=
  match x.plan with
  | e :: _ => { x with queue := x.queue.filter fun q => e.pick.idx < q.idx || (q.idx == e.pick.idx && !e.ends) }
  | [] => { x with queue := x.queue.filter fun q => q.typ == 3 }

/-- The z move of a DWELL is not complete (R140): the plan waits, laser-off, before the exposure. -/
def Dev.zWaits (s : Dev) (n : Station) : Bool :=
  let x := s.shtl n
  match x.plan with
  | e :: _ =>
    let l := vat x.lim 2
    e.kind == .rest && !e.laser && e.pick.typ == 4 &&
      !(l.u == vat (s.desired n) 2 && l.v == 0 && l.a == 0)
  | [] => false

/-- The limits in force, with the values kept for the ramp to a point that a commit made unreachable (R159). -/
def Dev.runCfg (s : Dev) (n : Station) : PathCfg :=
  let c := s.pathCfg n
  match (s.shtl n).kept with
  | some (a, j) => { c with a := a, j := j }
  | none => c

/-- The pick boundary (R159): waiting values come into force; a ramp they make impossible keeps its values. -/
def pickBoundary (n : Station) (s : Dev) : Dev :=
  let lo := 0x80000 + n.val * 0x1000
  if !s.waiting .pick lo (lo + 0x1000) then s
  else
    let old := s.runCfg n
    let s := s.commit .pick lo (lo + 0x1000)
    let c := s.pathCfg n
    let x := s.shtl n
    let plan := feasibleBack c.a c.j x.plan
    match plan with
    | e :: _ =>
      if x.ramp.isNone && e.vEnd < x.speed && e.len - x.pos < rampDist c.a c.j x.speed e.vEnd then
        shtFlag n (SHT_FLAGS_ACC_KEPT n) 0 (s.shtMod n fun x => { x with kept := some (old.a, old.j) })
      else s.shtMod n fun x => { x with plan := plan, kept := none }
    | [] => s

/-- Where the present speed reduction of a laser-on element began (R165), after the tick from `x` to `y`. -/
def slowMark (c : PathCfg) (x y : Shuttle) : Option Nat :=
  match y.plan with
  | e :: _ =>
    if e.laser && e.kind ≠ .rest && y.v < speedAcc (lineSpeed c e.pick) then some (x.slowSince.getD (max y.base x.s)) else none
  | [] => none

/-- SHT_n_STATUS of the tick (R171). -/
def showTick (n : Station) (p : TickPower) (s : Dev) : Dev :=
  (s.put (SHT_STATUS_LASER_ON n) (b2n p.on)).put (SHT_STATUS_BLEND n) (b2n (p.on && p.ks < 32768))

/-- The look-ahead ran empty in SCAN (R136): STARVE and PICK_STARVE, unless END_OF_LIST is withheld. -/
def starve (n : Station) (s : Dev) : Dev :=
  let x := s.shtl n
  let empty := x.plan.isEmpty && x.queue.isEmpty && !x.sawEnd && x.started && !x.stopping && s.trdState = tScan
  if !empty || s.on (SHT_STATUS_STARVED n) || s.endWithheld n then s
  else fault 0x40 sevInfo n.val (shtFlag n (SHT_FLAGS_STARVE n) 0x40 (s.put (SHT_STATUS_STARVED n) 1))

/-- The path length where the exposure of pick `idx` begins, 2^-32 nm; `other` where none is planned. -/
def Shuttle.pickStart (x : Shuttle) (idx other : Nat) : Nat :=
  match x.trail.find? fun y => y.1.laser && y.1.pick.idx == idx with
  | some y => y.2
  | none =>
    let before := x.plan.takeWhile fun e => !(e.laser && e.pick.idx == idx)
    if before.length = x.plan.length then other else x.base + (before.map (·.len)).sum

/-- SHT_n_INTR_PICK and SHT_n_INTR_S (R163). -/
def showInterruption (n : Station) (i : Interruption) (s : Dev) : Dev :=
  let idx := i.elem.pick.idx
  let d : Int := (i.s : Int) - ((s.shtl n).pickStart idx i.base : Nat)
  (s.setReg (SHT_INTR_PICK n) idx).setRegS (SHT_INTR_S n) (d / ((2 ^ 32 : Nat) : Int))

/-- Whether tick `k` had emission scheduled. -/
def Dev.tickOn (s : Dev) (n : Station) (k : Nat) : Bool := ((vat s.mpl.st n).ticks.find? (·.tick == k)).any (·.on)

/-- Trim records the MARK picks of the stations registered as they complete, at most 256 in a layer (R538). -/
def recordMarks (n : Station) (done : List Elem) (s : Dev) : Dev :=
  if !bit (s.reg TRM_REG_MASK) n.val then s
  else
    let l := (done.filter fun e => e.ends && e.pick.typ == 6).map fun e =>
      (⟨n.val, e.pick.x1, e.pick.y1, e.pick.x2, e.pick.y2, e.pick.idx⟩ : TrimMark)
    { s with trm := { s.trm with marks := (s.trm.marks ++ l).take 256 } }

/-- The plan moves from the start of tick `k` to the start of tick `k + 1` (R143), and the values of tick `k + 1` enter
the mailbox with the planned bed position and speed two ticks later (R133, R276). -/
def shtPlan (n : Station) (k : Nat) (s : Dev) : Dev :=
  if !s.shuttlesRun && s.trdState ≠ tAborted then s
  else
    let path := s.onPath n
    let c := s.runCfg n
    let x := s.shtl n
    let y := if !path || s.zWaits n then x else planTick c x
    let y := { y with hist := ((k + 1, y.s) :: x.hist).take 16 }
    -- an interruption inside the tick (R163): the point lies between the starts of this tick and the next
    let (y, cut) := match x.stopAt with
      | some (t, ns) =>
        if t = k && path then
          let at' := x.s + (y.s - x.s) * ns / 500
          (interruptS c at' y, true)
        else (y, false)
      | none => (y, false)
    let ended := (x.plan.filter Elem.ends).length - (y.plan.filter Elem.ends).length
    let newPick : Bool := match x.plan, y.plan with
      | e :: _, f :: _ => e.pick.idx != f.pick.idx
      | _, _ => false
    let z := match y.plan with | e :: _ => e.pick.zoff | [] => y.zoff
    let done := y.repicking && (match y.plan with | e :: _ => e.laser | [] => true)
    let y := { trimQueue y with zoff := z, slowSince := slowMark c x y, repicking := y.repicking && !done,
                                kept := if x.base = y.base then y.kept else none }
    let s := recordMarks n (x.plan.take (x.plan.length - y.plan.length)) (s.count (SHT_PICKS n) ended)
    let s := setQdepth n (s.shtMod n fun _ => y)
    let s := match cut, y.intr with
      | true, some i => showInterruption n i s
      | _, _ => s
    let s := if newPick then pickBoundary n s else s
    let x := s.shtl n
    let c := s.runCfg n
    let y := if path then planTick c x else x
    let p := tickPower x y (!path || s.trdState ≠ tScan)
    let two := if path then planAhead c 2 x else x
    let (b, _) := two.point
    let ph := (k + 1) % 4
    let at' := 0x280 + ph * 0x20
    let s := mboxPut n at' (qGood * 0x400000 + p.power) (mboxPut n (at' + 4) (p.target * 0x1000000 + p.flags * 0x10000 + p.ks) s)
    let s := mboxPut n (at' + 8) (wrapN 32 (F64.nearest b.x)) (mboxPut n (at' + 12) (wrapN 32 (F64.nearest b.y))
      (mboxPut n (at' + 16) two.speed s))
    let was := (s.tickOn n k)
    let s := s.mstMod n fun m => { m with ticks := (⟨k + 1, p.on, p.target, p.mark, p.pick, p.typ⟩ :: m.ticks).take 256 }
    let s := if p.on && !was then s.shtMod n fun x => { x with segStart := k + 1 } else s
    starve n (showTick n p s)

/-! ### Interruptions from outside the plan (R163) -/

/-- The Shuttle is interrupted now, the point being path length `at'` (R163, R164). -/
def shtInterrupt (n : Station) (at' : Nat) (s : Dev) : Dev :=
  let x := s.shtl n
  if !s.onPath n || x.stopping || x.intr.isSome then s
  else
    let y := interruptS (s.runCfg n) at' x
    let s := s.shtMod n fun _ => y
    match y.intr with
    | some i => showInterruption n i s
    | none => s

/-- The interruption at the start of the current tick (R77). -/
def shtCut (n : Station) (s : Dev) : Dev := shtInterrupt n (s.shtl n).s s

/-- The interruption at the start of tick `k`, which is past (R163: a station lane transient). -/
def shtCutAt (n : Station) (k : Nat) (s : Dev) : Dev :=
  let x := s.shtl n
  let at' := match x.hist.find? (·.1 == k) with | some h => h.2 | none => x.s
  shtInterrupt n at' s

/-- The interruption `ns` ns into tick `k`, the current one or a later one (R163). -/
def shtCutIn (n : Station) (k ns : Nat) (s : Dev) : Dev :=
  let x := s.shtl n
  if !s.onPath n || x.stopping || x.intr.isSome || x.stopAt.isSome then s
  else s.shtMod n fun x => { x with stopAt := some (k, ns) }

/-! ### The layer cycle (R132, R137, R157, R684) -/

/-- The check of a grid selection that is about to be committed (R157): refused, the old grid stays in force. -/
def gridCheck (n : Station) (s : Dev) : Dev :=
  let a := SHT_GRID_SEL n
  let w := s.written a % 2
  if w = s.reg a % 2 then s
  else if s.gridOk (s.reg (if w = 1 then SHT_GRID_BASE1 n else SHT_GRID_BASE0 n)) then s
  else shtFlag n (SHT_FLAGS_GRID_CRC n) 0 { s with shadow := s.shadow.filter (·.1 ≠ a) }

/-- The Shuttle starts a layer in LAYER_PREP, its axes where they stand (R132, R140). -/
def shtPrepare (n : Station) (s : Dev) : Dev :=
  let lo := 0x80000 + n.val * 0x1000
  let s := s.commit .pick lo (lo + 0x1000)
  let s := s.shtMod n fun x => { Shuttle.reset with lim := x.lim, parking := true, blank := false }
  setQdepth n (s.put (SHT_STATUS_STARVED n) 0)

/-- Tick 0 (R684): the plan is held at its first point, and the limiter moves there. Counters restart (R169, R304). -/
def shtScan (n : Station) (s : Dev) : Dev :=
  let zero := [SHT_PICKS n, SHT_REPICKS n, SHT_SKIPPED n, SHT_LIMIT_PER n, SHT_DEADLINES n, SHT_PULSE_DROPS n,
    SHT_REEXPOSED n, FBKP_HITS n, FBKP_SKIPPED n]
  let s := zero.foldl (fun (t : Dev) a => t.setReg a 0) s
  s.shtMod n fun x => { x with parking := s.isRetired n.val }

/-- PATH_START (R684): the limiter stands at the first point at rest. -/
def pathStart (n : Station) (s : Dev) : Dev :=
  let x := s.shtl n
  if s.trdState = tScan && !x.started && !x.parking && !s.isRetired n.val && !x.plan.isEmpty && s.limAtRest n &&
      s.schedTick % 4 == 0 then
    s.shtMod n fun x => { x with started := true }
  else s

/-- The station has no edge left to apply (R137): its last laser-off edge has been applied. -/
def Dev.edgesDone (s : Dev) (n : Station) : Bool :=
  let x := s.shtl n
  !x.lit && x.offs.isEmpty && x.comps.isEmpty && !x.resting &&
    x.placed.all fun e => decide (e.1 < s.t0.tick) || (e.2.2.isEmpty && !e.2.1)

/-- STATION_COMPLETE (R137): END_OF_LIST has been taken, the plan stands at its end and emission is over. -/
def stationComplete (n : Station) (s : Dev) : Dev :=
  let x := s.shtl n
  if s.shuttlesRun && !s.isRetired n.val && x.sawEnd && x.plan.isEmpty && x.intr.isNone && !x.complete && s.edgesDone n &&
      (x.started || x.tail.isNone) then
    let s := s.shtMod n fun x => { x with complete := true, parking := true, queue := [] }
    meltComplete n (setQdepth n s)
  else s

/-- REPICK (R165, R166): in SCAN, at rest, not held, the station not retired and its link in RUN. -/
def repick (n : Station) (s : Dev) : Dev :=
  let x := s.shtl n
  if s.trdState = tScan && s.onPath n && x.stopping && x.v = 0 && x.a = 0 && x.ramp.isNone && x.easing.isNone && !x.held &&
      s.reg (LNK_WSTATE n) % 8 == 4 then
    let c := s.pathCfg n
    let first := x.intr.any fun i => i.elem.pick.idx == 0
    let (y, again, skipped) := repickPlan c (s.reg (SHT_REPICK_BACK n)) x
    let y := { y with blank := false, repicking := x.intr.isSome, sAct := [], actBreak := true, comps := [],
                      pulsed := match y.plan.find? (·.laser) with | some e => min y.pulsed e.pick.idx | none => y.pulsed,
                      zoff := if first then 0 else y.zoff }
    let s := s.shtMod n fun _ => y
    let s := if x.intr.isSome then s.count (SHT_REPICKS n) 1 else s
    let s := s.count (SHT_REEXPOSED n) again
    if skipped then s.count (SHT_SKIPPED n) 1 else s
  else s

/-- SHT_DEADLINE (R34, R571): the set-points of the next period, or the edges of the next tick, are held. -/
def shtDeadline (n : Station) (edges : Bool) (s : Dev) : Dev :=
  if !s.shuttlesRun then s
  else
    let s := s.shtMod n fun x => { x with holdSet := x.holdSet || !edges, holdEdges := x.holdEdges || edges, missed := true }
    fault 0x43 sevRetry n.val (shtFlag n (SHT_FLAGS_DEADLINE n) 0x43 (s.count (SHT_DEADLINES n) 1))

/-- A period has ended (R571): three in a row with a miss escalate at once; one without completes the recovery. -/
def deadlinePeriod (n : Station) (s : Dev) : Dev :=
  let x := s.shtl n
  let u : Fin 19 := ⟨n.val, by omega⟩
  let s := s.shtMod n fun x => { x with missed := false, misses := if x.missed then x.misses + 1 else 0 }
  if x.missed then
    if x.misses = 2 then escalate 0x43 n.val (recovered u s) else s
  else match vat s.flt.recovery u with
    | some r => if r.code = 0x43 then recovered u s else s
    | none => s

/-- SHT_n_STATUS.PHASE (R171). -/
def Dev.shtPhase (s : Dev) (n : Station) : Nat :=
  let x := s.shtl n
  if !s.shuttlesRun then 0
  else if x.parking && x.complete then (if s.limAtRest n then 7 else 6)
  else if s.isRetired n.val then 7
  else if x.stopping then (if x.v = 0 then 4 else 3)
  else if x.repicking then 5
  else if !x.started then 1
  else if x.plan.isEmpty && (x.sawEnd || s.endWithheld n) then 6
  else 2

end Sys2Proof.Machine
end

