-- ==== Sys2Proof/Machine/ReedOps.lean ====
section
/-!
DEFINITION. The Reed engines: set-point sources (R183 to R186), the position law (R177 to R181, R188), the power law
(R188 to R191), supervision (R192, R193), overruns (R194, R195), commits (R186, R196), retirement (R197, R198) and the
auxiliary loops (R199 to R201).
-/
namespace Sys2Proof.Machine

open Reg

/-! ### Loops and their registers (R203 to R209) -/

/-- A loop: position loop of engine 0 to 2, power loop, auxiliary loop. -/
inductive LoopId where
  | pos (e : Fin 3) (n : Station)
  | pwr (n : Station)
  | aux (j : Fin 8)
deriving DecidableEq, Repr

/-- The address of a loop's CTRL; its other registers follow at the offsets of R204 to R206. -/
def LoopId.base : LoopId → Nat
  | .pos e n => REED_POS_CTRL e n
  | .pwr n => REED_PWR_CTRL n
  | .aux j => REED_AUX_CTRL j

def posIndex (e : Fin 3) (n : Station) : Fin 48 := ⟨e.val * 16 + n.val, by omega⟩

def Dev.loop (s : Dev) : LoopId → ReedLoop
  | .pos e n => vat s.reed.pos (posIndex e n)
  | .pwr n => vat s.reed.pwr n
  | .aux j => vat s.reed.aux j

def Dev.loopMod (s : Dev) (l : LoopId) (f : ReedLoop → ReedLoop) : Dev :=
  match l with
  | .pos e n => { s with reed := { s.reed with pos := vmod s.reed.pos (posIndex e n) f } }
  | .pwr n => { s with reed := { s.reed with pwr := vmod s.reed.pwr n f } }
  | .aux j => { s with reed := { s.reed with aux := vmod s.reed.aux j f } }

/-- A field of a loop's CTRL, STATUS or FLAGS. -/
def loopF (l : LoopId) (off hi lo : Nat) : Field := ⟨l.base + off, hi, lo⟩

/-- The station event that a loop's flags raise (R202). -/
def Dev.loopEvent (s : Dev) : LoopId → Nat
  | .pos _ n => 144 + n.val
  | .pwr n => 144 + n.val
  | .aux j => 144 + s.get (REED_AUX_CTRL_EVT_SEL j)

/-- INSTANCE of a loop's faults (R683). -/
def LoopId.inst : LoopId → Nat
  | .pos _ n => n.val
  | .pwr n => n.val
  | .aux j => j.val

/-- Flag bit `b` of a loop set (R202, R209). -/
def loopFlag (l : LoopId) (b code : Nat) (s : Dev) : Dev := flagEvent (loopF l 8 b b) (s.loopEvent l) l.inst code s

/-- CTRL fields in force (R207). -/
def Dev.loopEn (s : Dev) (l : LoopId) : Bool := bit (s.reg l.base) 0 && !(s.loop l).off
def Dev.loopAuto (s : Dev) (l : LoopId) : Bool := bit (s.reg l.base) 1
/-- SRC; 4 to 7 act as 0 (R183). -/
def srcOf (ctrl : Nat) : Nat := if bits ctrl 10 8 < 4 then bits ctrl 10 8 else 0
def Dev.loopSrc (s : Dev) (l : LoopId) : Nat := srcOf (s.reg l.base)

/-- Biquad stages in use (R207). -/
def Dev.loopNbq (s : Dev) (l : LoopId) : Nat :=
  let n := bits (s.reg l.base) 15 12
  match l with
  | .pos _ _ => min n 8
  | .pwr _ => 0
  | .aux _ => min n 2

/-- The loop's RAMP_ACTIVE (R208). -/
def Dev.ramping (s : Dev) (l : LoopId) : Bool := bit (s.reg (l.base + 4)) 14

/-- STATUS of an evaluation: RAMP_ACTIVE, SAT, HELD, MEAS_Q, OUT_Q, AUTO, EN (R208). -/
def loopStatus (l : LoopId) (ramp sat held : Bool) (mq oq : Nat) (auto en : Bool) (s : Dev) : Dev :=
  let v := s.reg (l.base + 4)
  s.setReg (l.base + 4) (bits v 17 16 * 65536 + b2n ramp * 0x4000 + b2n sat * 0x2000 + b2n held * 0x1000 + mq * 0x400 + oq * 0x100
    + b2n auto * 4 + b2n en * 2)

/-! ### External set-points (R185) -/

def gpioAt (s : Dev) (g : Nat) : GpioState := vat s.reed.gpio ⟨g % 16, Nat.mod_lt _ (by decide)⟩

def gpioMod (g : Nat) (f : GpioState → GpioState) (s : Dev) : Dev :=
  { s with reed := { s.reed with gpio := vmod s.reed.gpio ⟨g % 16, Nat.mod_lt _ (by decide)⟩ f } }

/-- m of a measurement (R185): frequency in Hz, or duty in Q0.16. -/
def gpioValue (duty : Bool) (m : Nat × Nat) : Nat :=
  if m.1 = 0 then 0 else if duty then m.2 * 65536 / m.1 else 250000000 / m.1

/-- The offset of EXT_CFG: power loops have it elsewhere (R204, R205). -/
def LoopId.ext : LoopId → Nat
  | .pwr n => REED_PWR_EXT_CFG n
  | l => l.base + 0x40

/-- x_ext of a loop from the newest complete measurement; held while EXT_LOST is in force (R185). -/
def Dev.extValue (s : Dev) (l : LoopId) : Int :=
  let x := s.loop l
  let cfg := s.reg l.ext
  match (gpioAt s (cfg % 16)).measure with
  | some m =>
    if x.extLost then x.xExt
    else satS 32 (s.regS (l.ext + 4) + asr (s.regS (l.ext + 8) * (gpioValue (bit cfg 4) m : Nat)) 16)
  | none => x.xExt

/-- All loops. -/
def allLoops : List LoopId :=
  ((List.finRange 3).flatMap fun e => (List.finRange 16).map fun n => LoopId.pos e n) ++ (List.finRange 16).map LoopId.pwr
    ++ (List.finRange 8).map LoopId.aux

/-- A rising edge completes a measurement (R185): it is the newest, and EXT_LOST of the loops it feeds ends. -/
def gpioEdge (g period high : Nat) (s : Dev) : Dev :=
  let s := gpioMod g (fun x => { x with measure := some (period, high), lastEdge := s.t0.nanos }) s
  allLoops.foldl (fun (t : Dev) l => if t.reg l.ext % 16 = g % 16 then t.loopMod l fun x => { x with extLost := false } else t) s

/-- A loop takes its set-point from x_ext. -/
def Dev.usesExt (s : Dev) (l : LoopId) : Bool := s.loopEn l && (s.loopSrc l == 2 || s.loopSrc l == 3)

/-- EXT_LOST (R185): no rising edge for TIMEOUT µs; x_ext holds its last value. -/
def extLost (l : LoopId) (s : Dev) : Dev :=
  let cfg := s.reg l.ext
  let late := (gpioAt s (cfg % 16)).lastEdge + cfg / 65536 * 1000 < s.t0.nanos
  if s.usesExt l && late && !(s.loop l).extLost then
    let v := s.extValue l
    let s := s.loopMod l fun x => { x with extLost := true, xExt := v }
    fault 0x4E sevInfo l.inst (loopFlag l 6 0x4E s)
  else s

/-! ### Set-point selection (R183, R184) -/

/-- step(a, b) (R183). -/
def rampStep (rate a b : Int) : Int := if rate = 0 then b else a + clampI (-rate) rate (b - a)

/-- r, and whether the ramp is active after the selection. `start` says that a ramp of SRC 1 or 3 starts in this
evaluation. -/
def selectR (src : Nat) (start active : Bool) (rate rPrev rInt xExt y : Int) : Int × Bool :=
  match src with
  | 1 =>
    if start then (y, true)
    else if active then
      let r := rampStep rate rPrev rInt
      (r, r != rInt)
    else (rInt, false)
  | 2 => (xExt, false)
  | 3 => if start then (y, false) else (rampStep rate rPrev xExt, false)
  | _ => (rInt, false)

/-! ### The position law (R177, R178) -/

/-- Saturation to a 64-bit variable. -/
def s64 (x : Int) : Int := satS 64 x

/-- One biquad stage (R178): its output and history. -/
def bqStep (b0 b1 b2 a1 a2 x : Int) (h : BqHist) : Int × BqHist :=
  let acc := b0 * x + b1 * h.x1 + b2 * h.x2 - a1 * h.y1 - a2 * h.y2
  let y := s64 (asr (acc + 2 ^ 29) 30)
  (y, ⟨x, h.x1, y, h.y1⟩)

/-- Stages `k` on, `n` of them. -/
def bqChain (s : Dev) (l : LoopId) : Nat → Nat → Int → List BqHist → Int × List BqHist
  | 0, _, x, hs => (x, hs)
  | _, _, x, [] => (x, [])
  | n + 1, k, x, h :: hs =>
    let b := l.base + 0x60 + k * 0x14
    let (y, h') := bqStep (s.regS b) (s.regS (b + 4)) (s.regS (b + 8)) (s.regS (b + 12)) (s.regS (b + 16)) x h
    let (w, hs') := bqChain s l n (k + 1) y hs
    (w, h' :: hs')

/-- SH (R204): values above 47 act as 47. -/
def Dev.loopSh (s : Dev) (l : LoopId) : Nat := min (s.reg (l.base + 0x2C) % 64) 47

/-- FF of pass 1 (R177). -/
def Dev.loopFf (s : Dev) (l : LoopId) (vff aff : Int) : Int :=
  let sh := s.loopSh l
  match l with
  | .pos _ _ => s64 (asr (s.regS (l.base + 0x18) * vff) sh + asr (s.regS (l.base + 0x1C) * aff) (sh + 8))
  | _ => 0

/-- The bumpless preset of R188: M = MAN_VALUE << 16; whether the preset had to be clamped. -/
def presetLoop (s : Dev) (l : LoopId) (e ff : Int) (x : ReedLoop) : ReedLoop × Bool :=
  let m := sx 16 (s.reg (l.base + 0x30)) * 65536
  let lim : Int := ((s.reg (l.base + 0x28) % 0x8000 * 65536 : Nat) : Int)
  let i := s64 (m - asr (s.regS (l.base + 0x0C) * e) (s.loopSh l) - ff)
  ({ x with i := clampI (-lim) lim i, df := 0, ePrev := e, bq := x.bq.map fun _ => ⟨m, m, m, m⟩ }, decide (i < -lim) || decide (lim < i))

/-- One evaluation of the law (R177): the command, the loop after it, whether the output was limited. `hold` keeps the
integrator (STALE, R179). -/
def posLaw (s : Dev) (l : LoopId) (e ff : Int) (hold : Bool) (x : ReedLoop) : Int × ReedLoop × Bool :=
  let sh := s.loopSh l
  let g (o : Nat) : Int := s.regS (l.base + o)
  let kdf : Int := if s.reg (l.base + 0x20) % 65536 = 0 then 65536 else (s.reg (l.base + 0x20) % 65536 : Nat)
  let kb : Int := (s.reg (l.base + 0x24) % 65536 : Nat)
  let lim : Int := ((s.reg (l.base + 0x28) % 0x8000 * 65536 : Nat) : Int)
  let de := s64 ((e - x.ePrev) * 65536)
  let df := s64 (x.df + asr (kdf * (de - x.df)) 16)
  let u := s64 (asr (g 0x0C * e) sh + x.i + asr (g 0x14 * df) (sh + 16) + ff)
  let (w, bq) := bqChain s l (s.loopNbq l) 0 u x.bq
  let c := clampI (-lim) lim w
  let cmd := asr (c + 0x8000) 16
  let i := s64 (x.i + asr (g 0x10 * e) sh + asr (kb * (c - w)) 16)
  (cmd, { x with df := df, bq := bq, i := if hold then x.i else clampI (-lim) lim i, ePrev := e }, c != w)

/-- The cleared state of a disabled loop (R198). -/
def ReedLoop.cleared (x : ReedLoop) : ReedLoop :=
  { x with i := 0, df := 0, bq := x.bq.map fun _ => ⟨0, 0, 0, 0⟩, wasEn := false, wasAuto := false, c := 0 }

/-- A command and its quality in the loop's CMD register. -/
def setPosCmd (l : LoopId) (q : Nat) (cmd : Int) (s : Dev) : Dev := s.setReg (l.base + 0x50) (q * 65536 + wrapN 16 cmd)

/-- What an evaluation of a position or auxiliary loop is given: set-point and its quality, feedforward, measured value
and its quality. -/
structure PosInput where
  rInt : Int
  vff : Int
  aff : Int
  stale : Bool
  y : Int
  q : Nat

/-- One evaluation of an enabled loop whose law is that of R177. -/
def posEval (l : LoopId) (inp : PosInput) (s : Dev) : Dev :=
  let x := s.loop l
  let auto := s.loopAuto l
  let src := s.loopSrc l
  let stale := inp.stale
  let s := if stale then loopFlag l 1 0 s else s
  if !auto then
    -- manual (R187)
    let m := sx 16 (s.reg (l.base + 0x30))
    let s := setPosCmd l qGood m s
    let s := s.loopMod l fun x => { x with wasEn := true, wasAuto := false, src := src, preset := true }
    loopStatus l (s.ramping l) false true inp.q qGood false true s
  else if inp.q = qInvalid || (inp.q = qStale && (match l with | .aux _ => true | _ => false)) then
    -- held (R179, R199)
    let old := s.reg (l.base + 0x50)
    let s := s.setReg (l.base + 0x50) (qStale * 65536 + old % 65536)
    let s := match l with
      | .pos _ _ => loopFlag l 5 0 (s.loopMod l fun x => { x with bad := x.bad + 1 })
      | _ => s
    loopStatus l (s.ramping l) false true inp.q qStale true true s
  else
    let y := if inp.q = qStale then x.yPrev + (x.yPrev - x.yPrev2) else inp.y
    let enters := !x.wasAuto || !x.wasEn
    let start := (enters || x.src ≠ src) && (src == 1 || src == 3)
    let xe := s.extValue l
    let (r, ramp) := selectR src start (s.ramping l) (s.regS (l.base + 0x34)) x.rPrev inp.rInt xe y
    let useFf := !stale && (src == 0 || (src == 1 && !ramp))
    let ff := if useFf then s.loopFf l inp.vff inp.aff else 0
    let e := s64 (r - y)
    let x := { x with xExt := xe, rPrev := r, yPrev2 := x.yPrev, yPrev := y, src := src }
    let (x, bump) :=
      if !x.wasEn then ({ x with ePrev := e }, false)
      else if !x.wasAuto && x.preset then presetLoop s l e ff x
      else (x, false)
    let x := if x.fresh && inp.q ≠ qStale then { x with ePrev := e, fresh := false } else x
    let hold := inp.q == qStale
    let (cmd, x, sat) := posLaw s l e ff hold x
    let oq := if inp.q = qStale then qStale else qGood
    let far := decide (s.reg (l.base + 0x38) < e.natAbs)
    let isPos := match l with | .pos _ _ => true | _ => false
    let x := { x with wasEn := true, wasAuto := true, preset := false, bad := 0, fe := if !isPos then x.fe else if far then x.fe + 1 else 0 }
    let s := s.loopMod l fun _ => x
    let s := setPosCmd l oq cmd s
    let s := (s.setReg (l.base + 0x30) (wrapN 16 cmd)).setRegS (l.base + 0x4C) (satS 32 e)
    let s := s.setRegS (l.base + 0x54) (satS 32 (asr x.i 16))
    let s := if isPos then s.setReg (l.base + 0x5C) (max (s.reg (l.base + 0x5C)) (min e.natAbs 0xFFFFFFFF)) else s
    let s := if bump then loopFlag l 7 0 s else s
    let s := if sat then loopFlag l 3 0 s else s
    loopStatus l ramp sat hold inp.q oq true true s

/-! ### Overruns (R194, R195) -/

/-- An overrun (R195): the output is held STALE, the state is held. -/
def overrun (l : LoopId) (e : Nat) (s : Dev) : Dev :=
  let st := s.reg (l.base + 4)
  let run := min 3 (bits st 17 16 + 1)
  let s := s.setReg (l.base + 4) (putBits (putBits st 17 16 run) 9 8 qStale)
  let s := s.count (l.base + 0x58) 1
  let s := s.count (REED_OVERRUNS e) 1
  let s := match l with
    | .pwr _ => s.put ⟨l.base + 0x4C, 23, 22⟩ qStale
    | _ => s.put ⟨l.base + 0x50, 17, 16⟩ qStale
  loopFlag l 2 0 s

/-- An evaluation without an overrun resets OVR_RUN (R195). -/
def noOverrun (l : LoopId) (s : Dev) : Dev := s.put ⟨l.base + 4, 17, 16⟩ 0

/-! ### Commits (R186, R196) -/

/-- The last address of a loop's registers. -/
def LoopId.top (l : LoopId) : Nat := l.base + 0x100

/-- The words of a loop whose waiting value differs from the one in force. -/
def Dev.changedWords (s : Dev) (l : LoopId) : Nat :=
  (s.shadow.filter fun e => l.base ≤ e.1 && e.1 < l.top && e.2.toNat != s.reg e.1).length

/-- From tick 0 to the end of LAYER_CLOSE, and in PAUSED with return state SCAN (R186). -/
def Dev.modesLocked (s : Dev) : Bool :=
  s.trdState == tScan || s.trdState == tClose || (s.trdState == tPaused && s.get TRD_STATE_RETURN_STATE == tScan)

/-- CTRL value `c` keeps the conditions of R186; SRC 1 only where its ramp is finished. -/
def Dev.modeOk (s : Dev) (l : LoopId) (c : Nat) : Bool :=
  let src := srcOf c
  match l with
  | .pos _ _ => bit c 0 && bit c 1 && (src == 0 || (src == 1 && s.loopSrc l == 1 && !s.ramping l))
  | .pwr _ => bit c 0 && bit c 1 && (src == 0 || src == 1)
  | .aux _ => true

def LoopId.station : LoopId → Option Station
  | .pos _ n => some n
  | .pwr n => some n
  | .aux _ => none

/-- Whether a commit of the loop is held back by R186. -/
def Dev.commitHeld (s : Dev) (l : LoopId) : Bool :=
  match l.station with
  | some n => s.modesLocked && !s.isRetired n.val && !s.modeOk l (s.written l.base)
  | none => false

/-- A loop's waiting fields come into force together (R196); a commit of EN = 1 ends the forced disable of R197 once the
retirement is cleared. -/
def loopCommit (b : Boundary) (l : LoopId) (s : Dev) : Dev :=
  let ctrl := s.shadow.any fun e => e.1 == l.base
  let s := s.commit b l.base l.top
  let retired := match l.station with | some n => s.isRetired n.val | none => false
  if ctrl && bit (s.reg l.base) 0 && !retired then s.loopMod l fun x => { x with off := false } else s

/-- The commit window of an engine (R196): the cycles left, and the loops in order. -/
def commitWindow (b : Boundary) (e : Nat) : List LoopId → Nat → Dev → Nat × Dev
  | [], left, s => (left, s)
  | l :: ls, left, s =>
    if !s.waiting b l.base l.top || s.commitHeld l then commitWindow b e ls left s
    else
      let cost := divUp (s.changedWords l) 8
      if left < cost then
        let s := flagEvent (REED_FLAGS_COMMIT_DEFER e) 0 0 0 s
        commitWindow b e ls left (loopFlag l 0 0 (s.put (REED_FLAGS_COMMIT_DEFER e) 1))
      else commitWindow b e ls (left - cost) (loopCommit b l s)

/-! ### Position engines (R173, R174) -/

/-- The pass-2 cost of a position loop (R174). -/
def Dev.loopCost (s : Dev) (l : LoopId) : Nat := if s.loopEn l then 36 + 6 * s.loopNbq l else 0

/-- Station Sn's link is in alignment (R265). -/
def Dev.aligned (s : Dev) (n : Station) : Bool := s.on (LNK_WSTATE_ALIGNED n)

/-- The command of a position loop goes to the downlink words of phase 3 (R173, R254). -/
def posOut (e : Fin 3) (n : Station) (s : Dev) : Dev :=
  mboxPut n (0x104 + 0xC0 + 4 * (4 + e.val)) (s.reg (REED_POS_CMD e n) % 0x40000) s

/-- One position loop in pass 2. `late` says that its encoder word was not in the mailbox in time; `at'` is when its turn
begins. -/
def posLoop (e : Fin 3) (n : Station) (late : Bool) (at' : Nat) (s : Dev) : Dev :=
  let l := LoopId.pos e n
  if !s.loopEn l then
    let s := s.loopMod l ReedLoop.cleared
    posOut e n (noOverrun l (loopStatus l false false false qGood qGood (s.loopAuto l) false (setPosCmd l qGood 0 s)))
  else if !s.aligned n then
    (s.loopMod l fun x => { x with fresh := true }).put (REED_POS_STATUS_OUT_Q e n) qInvalid
  else if late || 1536 < at' + s.loopCost l then posOut e n (overrun l e s)
  else
    let m (o : Nat) : Int := sx 32 (s.mboxGet n (0x200 + 12 * e.val + o))
    let q := bits (s.reg (FBKS_STATUS (3 * n.val + e.val))) 1 0
    let inp : PosInput := ⟨m 0, m 4, m 8, s.mboxGet n 0x224 % 4 == qStale, s.regS (FBKS_COUNT (3 * n.val + e.val)) * 256, q⟩
    posOut e n (noOverrun l (posEval l inp s))

/-- An engine's loops in station order from time `at'` (R173). -/
def posLoops (e : Fin 3) (late : Station → Bool) : List Station → Nat → Dev → Nat × Dev
  | [], t, s => (t, s)
  | n :: ns, t, s =>
    let cost := s.loopCost (.pos e n)
    let s' := posLoop e n (late n) t s
    posLoops e late ns (if 1536 < t + cost then t else t + cost) s'

/-- A position engine in one period (R173). -/
def posEngine (e : Fin 3) (late : Station → Bool) (s : Dev) : Dev :=
  let (_, s) := commitWindow .period e ((List.finRange 16).map fun n => LoopId.pos e n) 32 s
  let cost := ((List.finRange 16).map fun n => s.loopCost (.pos e n)).sum
  let s := (s.put (REED_STATUS_COST e) cost).put (REED_STATUS_RUNNING e) (s.get (REED_CTRL_ENABLE e))
  if !s.on (REED_CTRL_ENABLE e) then
    (List.finRange 16).foldl (fun (t : Dev) (n : Station) => posOut e n (setPosCmd (.pos e n) qGood 0 t)) s
  else
    let (fin, s) := posLoops e late (List.finRange 16) 320 s
    s.setReg (REED_SLACK e) (min (s.reg (REED_SLACK e)) (1536 - fin))

/-! ### The power engine (R176, R189 to R191) -/

/-- What phase A to C of a power loop read (R189). -/
structure PowerInput where
  pk : Nat
  ks : Nat
  on : Bool
  blend : Bool
  openLoop : Bool
  noHeat : Bool
  target : Nat
  pick : Nat
  heat : Nat
  heatQ : Nat
  t : Nat
  tq : Nat
  blanked : Bool

/-- P_h of phase A (R189). -/
def heatPower (s : Dev) (n : Station) (p : PowerInput) : Int :=
  if p.noHeat || p.openLoop || qStale < p.heatQ then 0
  else
    let h : Int := s.reg (REED_PWR_HF_MAX n) % 0x400000
    clampI (-h) h (asr (-(asr (s.regS (REED_PWR_KH n) * (p.heat : Nat)) 16 * (p.ks : Nat))) 15)

/-- The output of a power loop in CMD and the downlink word (R189, R254). -/
def powerOut (n : Station) (k q : Nat) (out : Int) (s : Dev) : Dev :=
  let w := q * 0x400000 + wrapN 22 out
  mboxPut n (0x104 + k % 4 * 0x40) w (s.setReg (REED_PWR_CMD n) w)

/-- The law in a closed, laser-on tick (R189, R190). -/
def powerLaw (n : Station) (k : Nat) (p : PowerInput) (newPick : Bool) (s : Dev) : Dev :=
  let l := LoopId.pwr n
  let x := s.loop l
  let ph := heatPower s n p
  let src := s.loopSrc l
  let cm : Int := s.reg (REED_PWR_CORR_MAX n) % 0x400000
  let pmax : Int := s.reg (REED_PWR_P_MAX n) % 0x400000
  let x := if newPick && (!s.on (REED_PWR_CTRL_I_CARRY n) || x.target ≠ some p.target) then { x with i := 0 } else x
  let x := if newPick && src == 1 then { x with rampDue := true } else x
  let good := p.tq == qGood
  let clear := decide (s.reg (REED_PWR_SENS_HOLD n) % 65536 ≤ x.bad)
  if !good then
    let c := if clear then 0 else x.c
    let out := clampI 0 pmax (p.pk + ph + c)
    let x := { x with bad := x.bad + 1, c := c, wasEn := true, src := src }
    let s := s.loopMod l fun _ => x
    let s := (s.setRegS (REED_PWR_CORR n) c).setReg (REED_PWR_MAN_VALUE n) (wrapN 22 out)
    powerOut n k qGood out (loopStatus l (s.ramping l) false true p.tq qGood true true s)
  else
    let y : Int := p.t
    let enters := !x.wasAuto || !x.wasEn
    let start := ((enters || x.src ≠ src) && (src == 1 || src == 3)) || (src == 1 && x.rampDue)
    let xe := s.extValue l
    let (r, ramp) := selectR src start (s.ramping l) (s.regS (REED_PWR_RAMP_RATE n)) x.rPrev (s.target p.target 0) xe y
    let e := r - y
    let kp := s.regS (REED_PWR_KP n)
    let (x, bump) :=
      if x.wasEn && !x.wasAuto && x.preset then
        let i := ((s.reg (REED_PWR_MAN_VALUE n) % 0x400000 : Nat) - (p.pk : Nat) - ph - asr (kp * e) 16 : Int) * 65536
        ({ x with i := clampI (-(cm * 65536)) (cm * 65536) i }, decide (i < -(cm * 65536)) || decide (cm * 65536 < i))
      else (x, false)
    let cr := asr (kp * e) 16 + asr x.i 16
    let cs := asr (cr * (p.ks : Nat)) 15
    let c := clampI (-cm) cm cs
    let w := (p.pk : Nat) + ph + cs
    let out := clampI 0 pmax (p.pk + ph + c)
    let hold := p.blend || p.blanked
    let i := if hold then x.i
      else clampI (-(cm * 65536)) (cm * 65536)
        (s64 (x.i + s.regS (REED_PWR_KI n) * e + (s.reg (REED_PWR_KB n) % 65536 : Nat) * (out - w)))
    let sat := c != cs || out != p.pk + ph + c
    let far := decide (s.reg (REED_PWR_FE_LIMIT n) < e.natAbs)
    let fe := if p.blend then x.fe else if far then x.fe + 1 else 0
    let x := { x with i := i, c := c, bad := 0, fe := fe, rPrev := r, xExt := xe, src := src, wasEn := true, wasAuto := true,
                      preset := false, rampDue := false }
    let s := s.loopMod l fun _ => x
    let s := ((s.setRegS (REED_PWR_ERR n) e).setRegS (REED_PWR_CORR n) c).setRegS (REED_PWR_INTEG n) (asr i 16)
    let s := s.setReg (REED_PWR_MAN_VALUE n) (wrapN 22 out)
    let s := if bump then loopFlag l 7 0 s else s
    let s := if sat then loopFlag l 3 0 s else s
    powerOut n k qGood out (loopStatus l ramp sat hold p.tq qGood true true s)

/-- A power loop in tick `k` (R187, R189). `late` says that its sample was not in the mailbox in time. -/
def powerLoop (n : Station) (k : Nat) (late : Bool) (p : PowerInput) (s : Dev) : Dev :=
  let l := LoopId.pwr n
  let x := s.loop l
  if !s.loopEn l then
    let s := s.loopMod l ReedLoop.cleared
    powerOut n k qGood 0 (noOverrun l (loopStatus l false false false p.tq qGood (s.loopAuto l) false s))
  else if !s.aligned n then s.put (REED_PWR_STATUS_OUT_Q n) qInvalid
  else if late then
    let s := overrun l 3 s
    mboxPut n (0x104 + k % 4 * 0x40) (s.reg (REED_PWR_CMD n)) s
  else
    let s := noOverrun l s
    let newPick := p.on && x.pick ≠ some p.pick
    let s := if newPick then s.loopMod l fun x => { x with fe := 0, feRaised := false, lostRaised := false } else s
    let auto := s.loopAuto l && !(!x.wasAuto && x.wasEn && p.blend)
    let mark (s : Dev) : Dev := if p.on then s.loopMod l fun x => { x with pick := some p.pick, target := some p.target } else s
    if !auto then
      let m := if p.on then s.reg (REED_PWR_MAN_VALUE n) % 0x400000 else 0
      let s := s.loopMod l fun x => { x with wasEn := true, wasAuto := false, preset := true }
      mark (powerOut n k qGood (m : Nat) (loopStatus l (s.ramping l) false true p.tq qGood false true s))
    else if !p.on || p.openLoop then
      let out : Nat := if p.on then min p.pk (s.reg (REED_PWR_P_MAX n) % 0x400000) else 0
      let s := (s.loopMod l fun x => { x with wasEn := true }).setReg (REED_PWR_MAN_VALUE n) out
      mark (powerOut n k qGood (out : Nat) (loopStatus l (s.ramping l) false true p.tq qGood true true s))
    else mark (powerLaw n k p newPick s)

/-- What the power loop of Sn reads in tick `k`: the mailbox, the temperature sample, the target entry (R176, R218). -/
def Dev.powerInput (s : Dev) (n : Station) (k : Nat) : PowerInput :=
  let ph := k % 4
  let p := s.mboxGet n (0x280 + ph * 0x20)
  let f := s.mboxGet n (0x284 + ph * 0x20)
  let h := s.mboxGet n (0x28 + ph * 0x40)
  let (t, tq) := s.tempAt n k
  let target := bits f 31 24
  ⟨bits p 21 0, bits f 15 0, bit f 16, bit f 17, bit f 18 || s.target target 0 == 0, bit f 19, target, (s.tickInfo n k).pick,
    bits h 15 0, bits h 17 16, t, tq, (s.shtl n).blank || !s.flt.gateOpen⟩

/-! ### Auxiliary loops (R199 to R201) -/

/-- The input of an auxiliary loop and its quality (R199). -/
def Dev.auxInput (s : Dev) (j : Fin 8) : Int × Nat :=
  let sel := s.reg (REED_AUX_IN_SEL j)
  let ch := sel % 16 % 8
  let gp (duty : Bool) : Int × Nat := match (gpioAt s (sel % 16)).measure with
    | some m => ((gpioValue duty m : Nat), qGood)
    | none => (0, qInvalid)
  match bits sel 6 4 with
  | 1 => (s.regS (FBK_COUNT ch), bits (s.reg (FBK_QUAL ch)) 1 0)
  | 2 => gp false
  | 3 => gp true
  | _ => (s.regS (FBK_SPEED ch), bits (s.reg (FBK_QUAL ch)) 3 2)

/-- The PWM output of an auxiliary loop (R201). -/
def auxOut (j : Fin 8) (s : Dev) : Dev :=
  let sel := s.reg (REED_AUX_OUT_SEL j)
  let per := sel / 256
  let cmd := sx 16 (s.reg (LoopId.base (.aux j) + 0x50))
  gpioMod (sel % 16) (fun x => { x with pwm := some (per, cmd.toNat * per / 32768) }) s

/-- DIV of an auxiliary loop (R207). -/
def Dev.auxDiv (s : Dev) (j : Fin 8) : Nat := max 200 (s.get (REED_AUX_CTRL_DIV j))

/-- An auxiliary loop's evaluation (R199), with its commit (R206). -/
def auxEval (j : Fin 8) (s : Dev) : Dev :=
  let l := LoopId.aux j
  let s := loopCommit .evaluation l s
  if !s.loopEn l then auxOut j (loopStatus l false false false qGood qGood (s.loopAuto l) false (setPosCmd l qGood 0 (s.loopMod l ReedLoop.cleared)))
  else
    let (y, q) := s.auxInput j
    auxOut j (posEval l ⟨s.regS (REED_AUX_SETPOINT j), 0, 0, false, y, q⟩ s)

/-- The auxiliary loops in tick `now` of the grid, with `left` cycles of the window (R200): due loops join those that
wait; the first that fits is evaluated. -/
def auxTick (now left : Nat) (s : Dev) : Dev :=
  -- a loop is due when its interval has passed; one that still waits then skips an evaluation
  let s := (List.finRange 8).foldl (fun (t : Dev) (j : Fin 8) =>
    let l := LoopId.aux j
    let x := t.loop l
    let start := bit (t.written l.base) 0 && !bit (t.reg l.base) 0 && !x.waits
    if start then t.loopMod l fun x => { x with waits := true, due := now + t.auxDiv j }
    else if !bit (t.reg l.base) 0 then (if t.waiting .evaluation l.base l.top then t.loopMod l fun x => { x with waits := true } else t)
    else if now < x.due then t
    else
      let t' := t.loopMod l fun x => { x with waits := true, due := x.due + t.auxDiv j }
      if x.waits then fault 0x4F sevInfo j.val (loopFlag l 5 0x4F t') else t') s
  match (List.finRange 8).find? fun (j : Fin 8) => (s.loop (.aux j)).waits with
  | none => s
  | some j =>
    if left < 36 + 6 * s.loopNbq (.aux j) then s
    else auxEval j (s.loopMod (.aux j) fun x => { x with waits := false })

/-- Reed 3 in tick `k` (R176): phases A to C, the commit window, the auxiliary evaluation. -/
def powerEngine (k : Nat) (late : Station → Bool) (s : Dev) : Dev :=
  let s := (s.put (REED_STATUS_COST 3) 448).put (REED_STATUS_RUNNING 3) (s.get (REED_CTRL_ENABLE 3))
  let run := s.on (REED_CTRL_ENABLE 3)
  let s := (List.finRange 16).foldl (fun (t : Dev) (n : Station) =>
    if run then powerLoop n k (late n) (t.powerInput n k) t else powerOut n k qGood 0 t) s
  let s := if run then s.setReg (REED_SLACK 3) 0 else s
  let (left, s) := commitWindow .tick 3 ((List.finRange 16).map LoopId.pwr) 48 s
  if run then auxTick s.grid.ticks left s else s

/-! ### Supervision and retirement (R180, R186, R192, R193, R195, R197) -/

/-- REED_OVERRUN (R195): OVR_RUN of the loop has reached 3. -/
def reedOverrun (l : LoopId) (s : Dev) : Dev :=
  match l.station with
  | some n => if bits (s.reg (l.base + 4)) 17 16 = 3 && !s.isRetired n.val then fault 0x48 sevRetire n.val s else s
  | none => s

/-- ENC_LOST (R180): three consecutive INVALID measurements on one axis with the link in alignment. -/
def encLost (e : Fin 3) (n : Station) (s : Dev) : Dev :=
  if 3 ≤ (s.loop (.pos e n)).bad && s.aligned n && !s.isRetired n.val then fault 0x49 sevRetire n.val s else s

/-- FOLLOW_ERR (R192): the count exceeds FE_TIME. -/
def followErr (e : Fin 3) (n : Station) (s : Dev) : Dev :=
  if s.reg (REED_POS_FE_TIME e n) % 65536 < (s.loop (.pos e n)).fe && !s.isRetired n.val then
    fault 0x4A sevRetire n.val (loopFlag (.pos e n) 4 0x4A s)
  else s

/-- MELT_DEV (R193): the count exceeds FE_TIME; once in a pick. -/
def meltDev (n : Station) (s : Dev) : Dev :=
  let l := LoopId.pwr n
  let x := s.loop l
  if s.reg (REED_PWR_FE_TIME n) % 65536 < x.fe && !x.feRaised then
    let s := (s.loopMod l fun x => { x with feRaised := true }).count (REED_PWR_MELT_DEVS n) 1
    fault 0x4D sevInfo n.val (loopFlag l 4 0x4D s)
  else s

/-- PYRO_LOST (R190): SENS_HOLD laser-on ticks without a GOOD sample; once per pick. -/
def pyroLost (n : Station) (s : Dev) : Dev :=
  let l := LoopId.pwr n
  let x := s.loop l
  if s.reg (REED_PWR_SENS_HOLD n) % 65536 ≤ x.bad && 0 < x.bad && !x.lostRaised then
    fault 0x4C sevInfo n.val (loopFlag l 5 0x4C (s.loopMod l fun x => { x with lostRaised := true }))
  else s

/-- The four loops of a station. -/
def stationLoops (n : Station) : List LoopId := [.pos 0 n, .pos 1 n, .pos 2 n, .pwr n]

/-- The loops of a retired station (R197): disabled for the causes that R197 names. -/
def reedRetire (n : Station) (code : Nat) (s : Dev) : Dev :=
  if [0x48, 0x49, 0x4A, 0x4B, 0x58, 0x59].contains code then
    (stationLoops n).foldl (fun (t : Dev) l => t.loopMod l fun x => { x with off := true }) s
  else s

/-- Tick 0 (R186): a station whose loops do not meet the conditions is retired; MELT_DEVS restarts (R205). -/
def reedScan (s : Dev) : Dev :=
  (List.finRange 16).foldl (fun (t : Dev) (n : Station) =>
    let t := t.setReg (REED_PWR_MELT_DEVS n) 0
    let ok := (stationLoops n).all fun l => t.loopEn l && t.modeOk l (t.reg l.base)
    if t.isRetired n.val || ok then t else fault 0x4B sevRetire n.val t) s

end Sys2Proof.Machine
end

