-- ==== Sys2Proof/Machine/TrimOps.lean ====
section
/-!
DEFINITION. Trim (R532 to R547): the pyrometer measurements, slews, field and seam registration, grids, and the saved
record.
-/
namespace Sys2Proof.Machine

open Reg

def Dev.trim (s : Dev) (n : Station) : TrimStation := vat s.trm.st n

def Dev.trmMod (s : Dev) (f : Trim → Trim) : Dev := { s with trm := f s.trm }

def Dev.trimMod (s : Dev) (n : Station) (f : TrimStation → TrimStation) : Dev :=
  s.trmMod fun t => { t with st := vmod t.st n f }

/-- A RESULT other than NONE and DONE raises E227 and TRIM_FAIL (R546). -/
def trimFail (inst : Nat) (s : Dev) : Dev := occur 227 inst 0x80 (fault 0x80 sevInfo inst s)

/-- TRM_n_STATUS.RESULT (R546, R550). -/
def trimResult (n : Station) (r : Nat) (s : Dev) : Dev :=
  let s := s.put (TRMS_STATUS_RESULT n) r
  if r ≤ 1 then s else trimFail n.val (s.put TRM_FLAGS_STN_FAIL 1)

/-- The STATE, SLEW and GRID_PEND bits of TRM_n_STATUS and REG_STATE of TRM_STATUS (R548, R550). -/
def trimShow (n : Station) (s : Dev) : Dev :=
  let t := s.trim n
  let st := match t.meas with
    | none => 0
    | some m => if !m.gain then 1 else if t.slewD.isSome then 2 else 3
  let s := (s.put (TRMS_STATUS_STATE n) st).put (TRMS_STATUS_SLEW_D n) (b2n t.slewD.isSome)
  let s := (s.put (TRMS_STATUS_SLEW_G n) (b2n t.slewG.isSome)).put (TRMS_STATUS_GRID_PEND n) (b2n t.kNew.isSome)
  let pend := s.trm.fromReg && (List.finRange 16).any fun (k : Station) => (s.trim k).kNew.isSome
  s.put TRM_STATUS_REG_STATE (if pend then 3 else if s.trm.due then 2 else b2n s.trm.armed)

/-! ### Pyrometer measurements (R532 to R537) -/

/-- The settings of a measurement, latched as it starts (R532). -/
def Dev.trimMeas (s : Dev) (n : Station) (gain : Bool) : TrimMeas :=
  let log2 := clampN 8 16 (if gain then s.get (TRMS_GAIN_CFG_G_LOG2 n) else s.get (TRMS_DARK_CFG_DARK_LOG2 n))
  { gain := gain, since := s.grid.ticks, timeout := s.reg (TRMS_TIMEOUT n) % 65536, want := 2 ^ log2, log2 := log2,
    spread := s.get (TRMS_DARK_CFG_DARK_SPREAD n), target := s.get (TRMS_GAIN_CFG_G_TGT n),
    gsh := min 14 (s.get (TRMS_GAIN_CFG_GSH n)), gLo := s.reg (TRMS_G_LO n) % 2 ^ 24, rRef := s.get (TRMS_R_REF_R_REF n),
    gLim := s.get (TRMS_G_LIM_G_LIM n), slew := max 1 (s.reg (TRMS_SLEW n) % 65536), g0 := s.reg (MPLS_GAIN n),
    darkWritten := false, n := 0, out := 0, sum1 := 0, sum2 := 0, min1 := 65535, min2 := 65535, max1 := 0, max2 := 0,
    hist := [] }

/-- DARK or GAIN (R532, R534, R536). -/
def trimStart (n : Station) (gain : Bool) (s : Dev) : Dev :=
  if (s.trim n).meas.isSome then trimResult n 6 s
  else
    let m := s.trimMeas n gain
    let s := (s.trimMod n fun t => { t with meas := some m }).setReg (TRMS_SAMPLES n) 0
    trimShow n (if gain then s.setReg (TRMS_G_OUT n) 0 else s)

/-- A measurement ends with RESULT `r` (R532, R537, R541). -/
def trimEnd (n : Station) (r : Nat) (s : Dev) : Dev :=
  trimShow n (trimResult n r ((s.trimMod n fun t => { t with meas := none }).put (MPLS_STATUS_TRIM_HOLD n) 0))

/-- ABORT, the retirement of the station, or a loss of alignment of its link (R532, R537). -/
def trimAbort (n : Station) (s : Dev) : Dev := if (s.trim n).meas.isSome then trimEnd n 5 s else s

/-- Every non-retired station starts DARK as the Treadle enters RECOAT (R534). -/
def trimAutoDark (s : Dev) : Dev :=
  if !s.on TRM_CTRL_AUTO_DARK then s
  else (List.finRange 16).foldl (fun (t : Dev) (n : Station) =>
    if t.isRetired n.val || (t.trim n).meas.isSome then t else trimStart n false t) s

/-- The flags of a tick in the loop mailbox, from LASER_ON up (R276). -/
def Dev.tickFlags (s : Dev) (n : Station) (tick : Nat) : Nat := bits (s.mboxGet n (0x284 + tick % 4 * 0x20)) 20 16

/-- The tick qualifies as dark (R533). -/
def Dev.darkTick (s : Dev) (n : Station) (tick : Nat) (good emitting : Bool) (p : PyroPair) : Bool :=
  good && !emitting && !(s.tickInfo n tick).on && p.q1 == qGood && p.q2 == qGood && !p.psat

/-- The tick qualifies for gain (R535). -/
def Dev.gainTick (s : Dev) (n : Station) (tick target : Nat) (good : Bool) (p : PyroPair) : Bool :=
  let i := s.tickInfo n tick
  let f := s.tickFlags n tick
  let least : Int := s.reg (MPLS_SIG_MIN n) % 65536
  good && i.on && !bit f 1 && !bit f 4 && (i.typ == 1 || i.typ == 6) && (bit f 2 || s.target i.target 0 == 0) &&
    i.target == target && p.q1 == qGood && p.q2 == qGood && !p.psat &&
    decide (least ≤ (p.s1 : Int) - s.get (MPLS_DARK_D1 n)) && decide (least ≤ (p.s2 : Int) - s.get (MPLS_DARK_D2 n))

/-- A count added to a histogram bin. -/
def histAdd (h : List (Nat × Nat)) (b : Nat) : List (Nat × Nat) := sset 0 h b (sget 0 h b + 1)

/-- The samples of a tick reach a measurement that runs; the flag says that the tick is one of a gain measurement, which
holds the temperature sample (R215, R534 to R536). -/
def trimSample (n : Station) (tick : Nat) (good emitting : Bool) (p : PyroPair) (s : Dev) : Bool × Dev :=
  match (s.trim n).meas with
  | none => (false, s)
  | some m =>
    if !m.gain then
      if m.want ≤ m.n || !s.darkTick n tick good emitting p then (false, s)
      else
        let m := { m with n := m.n + 1, sum1 := m.sum1 + p.s1, sum2 := m.sum2 + p.s2, min1 := min m.min1 p.s1,
                          min2 := min m.min2 p.s2, max1 := max m.max1 p.s1, max2 := max m.max2 p.s2 }
        (false, (s.trimMod n fun t => { t with meas := some m }).setReg (TRMS_SAMPLES n) m.n)
    else if (s.trim n).slewD.isSome || m.want ≤ m.n || !s.gainTick n tick m.target good p then (false, s)
    else
      let a1 := p.s1 - s.get (MPLS_DARK_D1 n)
      let a2 := p.s2 - s.get (MPLS_DARK_D2 n)
      -- with a2 = 0 the ratio is an open value (log entry 56)
      let (q, s) := if a2 = 0 then s.fresh 24 else (a1 * 2 ^ 20 / a2, s)
      let b := (q - m.gLo) / 2 ^ m.gsh
      if q < m.gLo || 1023 < b then
        (true, (s.trimMod n fun t => { t with meas := some { m with out := m.out + 1 } }).setReg (TRMS_G_OUT n) (m.out + 1))
      else
        (true, (s.trimMod n fun t => { t with meas := some { m with n := m.n + 1, hist := histAdd m.hist b } }).setReg
          (TRMS_SAMPLES n) (m.n + 1))

/-! ### Slews (R542) -/

/-- A slew of D1 and D2, or of G, starts from the values in force (R542). -/
def slewDark (n : Station) (new len : Nat) (s : Dev) : Dev :=
  let v0 : List Int := [(s.get (MPLS_DARK_D1 n) : Nat), (s.get (MPLS_DARK_D2 n) : Nat)]
  trimShow n (s.trimMod n fun t => { t with slewD := some ⟨v0, [(bits new 15 0 : Nat), (bits new 31 16 : Nat)], 0, len⟩ })

def slewGain (n : Station) (new len : Nat) (s : Dev) : Dev :=
  let v0 : List Int := [(s.reg (MPLS_GAIN n) : Nat)]
  trimShow n (s.trimMod n fun t => { t with slewG := some ⟨v0, [(new : Nat)], 0, len⟩ })

/-- The values at the next period boundary, and what is left of the slew. -/
def TrimSlew.next (w : TrimSlew) : List Int × Option TrimSlew :=
  let k := w.k + 1
  (List.zipWith (fun (a b : Int) => a + Int.tdiv ((b - a) * (k : Nat)) (w.len : Nat)) w.v0 w.v1,
    if w.len ≤ k then none else some { w with k := k })

/-- The slews of a station at a period boundary. -/
def trimPeriod (n : Station) (s : Dev) : Dev :=
  let t := s.trim n
  if t.slewD.isNone && t.slewG.isNone then s
  else
    let s := match t.slewD with
      | none => s
      | some w =>
        let (v, rest) := w.next
        (((s.put (MPLS_DARK_D1 n) (v.getD 0 0).toNat).put (MPLS_DARK_D2 n) (v.getD 1 0).toNat)).trimMod n fun t =>
          { t with slewD := rest, meas := match rest, t.meas with
              | none, some m => some (if m.gain then { m with g0 := s.reg (MPLS_GAIN n) } else m)
              | _, m => m }
    let s := match t.slewG with
      | none => s
      | some w =>
        let (v, rest) := w.next
        (s.setReg (MPLS_GAIN n) (v.getD 0 0).toNat).trimMod n fun t => { t with slewG := rest }
    trimShow n s

/-- DARK has collected its ticks (R534). -/
def darkDone (n : Station) (s : Dev) : Dev :=
  match (s.trim n).meas with
  | some m =>
    if m.gain || m.n < m.want then s
    else
      let d1 := (m.sum1 + m.want / 2) / 2 ^ m.log2
      let d2 := (m.sum2 + m.want / 2) / 2 ^ m.log2
      let s := s.setReg (TRMS_SPREAD n) ((m.max2 - m.min2) * 65536 + (m.max1 - m.min1))
      if m.spread < m.max1 - m.min1 || m.spread < m.max2 - m.min2 then trimEnd n 3 s
      else
        let new := d2 * 65536 + d1
        let s := trimEnd n 1 (s.setReg (TRMS_DARK_NEW n) new)
        occur 224 n.val 0 (slewDark n new m.slew s)
  | none => s

/-- The median of the histogram: the least bin that brings the count to half, the count below it, its own count. -/
def histMedian (half : Nat) : List (Nat × Nat) → Nat → Nat × Nat × Nat
  | [], c => (0, c, 1)
  | (b, k) :: t, c => if half ≤ c + k then (b, c, k) else histMedian half t (c + k)

/-- GAIN has collected its samples (R536). -/
def gainDone (n : Station) (s : Dev) : Dev :=
  match (s.trim n).meas with
  | some m =>
    if !m.gain || m.n < m.want then s
    else
      let half := m.want / 2
      let (b, c, h) := histMedian half m.hist 0
      let q := m.gLo + b * 2 ^ m.gsh + (half - c) * 2 ^ m.gsh / h
      let s := s.setReg (TRMS_G_QMED n) (q % 2 ^ 24)
      -- R_REF must not be 0: an open value (log entry 56)
      let (g, s) := if m.rRef = 0 then s.fresh 32 else (q * 65536 / m.rRef, s)
      if m.g0 * m.gLim / 65536 < ((g : Int) - (m.g0 : Nat)).natAbs then trimEnd n 4 s
      else
        let s := trimEnd n 1 (s.setReg (TRMS_GAIN_NEW n) g)
        occur 225 n.val 0 (slewGain n g m.slew s)
  | none => s

/-- TIMEOUT ms have passed without enough ticks (R534, R536). -/
def trimTimeout (n : Station) (s : Dev) : Dev :=
  match (s.trim n).meas with
  | some m =>
    if m.n < m.want && m.since + m.timeout * 2000 ≤ s.grid.ticks then
      let s := if m.gain || m.n = 0 then s
        else s.setReg (TRMS_SPREAD n) ((m.max2 - m.min2) * 65536 + (m.max1 - m.min1))
      trimEnd n 2 s
    else s
  | none => s

/-- APPLY (R537, R542, R543): the candidates are slewed into force. -/
def trimApply (n : Station) (s : Dev) : Dev :=
  let len := max 1 (s.reg (TRMS_SLEW n) % 65536)
  match (s.trim n).meas with
  | some m =>
    if m.gain && m.darkWritten then
      let s := slewDark n (s.reg (TRMS_DARK_NEW n)) len s
      trimShow n ((s.trimMod n fun t =>
        { t with meas := some { m with n := 0, out := 0, hist := [], darkWritten := false } }).setReg (TRMS_SAMPLES n) 0)
    else trimResult n 6 s
  | none => trimResult n 1 (slewGain n (s.reg (TRMS_GAIN_NEW n)) len (slewDark n (s.reg (TRMS_DARK_NEW n)) len s))

/-- A host write of TRM_n_DARK_NEW (R537). -/
def trimDarkNew (n : Station) (v : Nat) (s : Dev) : Dev :=
  (s.setReg (TRMS_DARK_NEW n) v).trimMod n fun t => { t with meas := t.meas.map fun m => { m with darkWritten := true } }

/-! ### Grids (R539, R540) -/

/-- An affine map: A00, A01, A10, A11, TX, TY. -/
structure Affine where
  a00 : F64
  a01 : F64
  a10 : F64
  a11 : F64
  tx : F64
  ty : F64
deriving DecidableEq, Repr

def Affine.at (k : Affine) (x y : F64) : F64 × F64 :=
  (F64.add (F64.add (F64.mul k.a00 x) (F64.mul k.a01 y)) k.tx, F64.add (F64.add (F64.mul k.a10 x) (F64.mul k.a11 y)) k.ty)

/-- K from its registers' values: A in Q2.30, the offset in nm. -/
def Affine.ofWords (w : List Int) : Affine :=
  let a (i : Nat) : F64 := F64.ofFixed (w.getD i 0) 30
  ⟨a 0, a 1, a 2, a 3, F64.ofInt (w.getD 4 0), F64.ofInt (w.getD 5 0)⟩

/-- K_n in force. -/
def Dev.trimK (s : Dev) (n : Station) : List Int :=
  ((List.range 4).map fun i => s.regS (TRMS_K_A n i)) ++ [s.regS (TRMS_K_TX n), s.regS (TRMS_K_TY n)]

/-- The base grid of the station, where it is usable (R539). -/
def Dev.trimBase (s : Dev) (n : Station) : Option Nat :=
  let b := s.reg (TRMS_GRID_BASE n)
  if b ≠ 0 && s.gridOk b then some b else none

/-- One axis of the base grid at a point given in binary64 (R154, R539). -/
def Dev.gridF (s : Dev) (base a : Nat) (x y : F64) : F64 :=
  let pitch := F64.ofInt (s.creelNat (base + 8) 4 : Nat)
  let cell (v : F64) (o : Int) : Int × F64 :=
    let q := F64.div (F64.sub v (F64.ofInt o)) pitch
    let i := clampI 0 127 (F64.floor q)
    (i, F64.sub q (F64.ofInt i))
  let (i, fx) := cell x (sx 32 (s.creelNat base 4))
  let (j, fy) := cell y (sx 32 (s.creelNat (base + 4) 4))
  let tap (f : F64) (k : Nat) : F64 := cubicW (F64.sub f (F64.ofInt ((k : Int) - 1)))
  (List.range 4).foldl (fun acc r =>
    F64.add acc (F64.mul (tap fy r) ((List.range 4).foldl (fun t k =>
      F64.add t (F64.mul (tap fx k) (F64.ofInt (s.gridEntry base a (j - 1 + r) (i - 1 + k))))) F64.zero))) F64.zero

/-- The bytes of the grid that K makes of the base grid (R153, R539). -/
def Dev.trimGrid (s : Dev) (base : Nat) (k : Affine) : List Byte :=
  let x0 := sx 32 (s.creelNat base 4)
  let y0 := sx 32 (s.creelNat (base + 4) 4)
  let pitch : Int := (s.creelNat (base + 8) 4 : Nat)
  let entry (row col : Nat) : List Byte :=
    let (x, y) := k.at (F64.ofInt (x0 + (col : Nat) * pitch)) (F64.ofInt (y0 + (row : Nat) * pitch))
    let v (a : Nat) : List Byte := leBytes 4 (wrapN 32 (satS 32 (F64.nearest (s.gridF base a x y))))
    v 0 ++ v 1 ++ v 2 ++ leBytes 4 0
  let body := (List.range 129).flatMap fun row => (List.range 129).flatMap fun col => entry row col
  s.creelBytes base 12 ++ leBytes 4 (crc32c body) ++ body

/-- The grid for K goes into the buffer that is not in force and is selected for the next layer boundary (R539). -/
def trimWriteGrid (n : Station) (base : Nat) (k : List Int) (s : Dev) : Dev :=
  let sel := 1 - s.reg (SHT_GRID_SEL n) % 2
  let bytes := s.trimGrid base (Affine.ofWords k)
  let s := s.setCreelBytes (s.reg (if sel = 1 then SHT_GRID_BASE1 n else SHT_GRID_BASE0 n)) bytes
  let s := s.setShadow (SHT_GRID_SEL n) sel
  trimShow n (s.trimMod n fun t => { t with kNew := some (k ++ [(sel : Int)]), kNext := none })

/-- A new K' for the station: written now, or once the boundary has decided on the earlier grid (R539, R540). The flag
says that the station has a base grid. -/
def trimNewK (n : Station) (k : List Int) (s : Dev) : Bool × Dev :=
  match s.trimBase n with
  | none => (false, s)
  | some b =>
    if (s.trim n).kNew.isSome then (true, s.trimMod n fun t => { t with kNext := some k }) else (true, trimWriteGrid n b k s)

/-- REBUILD (R539, R540, R543). -/
def trimRebuild (n : Station) (s : Dev) : Dev :=
  if (s.trim n).meas.isSome then trimResult n 6 s
  else
    let (ok, s) := trimNewK n (s.trimK n) s
    trimResult n (if ok then 1 else 7) s

/-- K_n set from the values of a list. -/
def setTrimK (n : Station) (k : List Int) (s : Dev) : Dev :=
  let s := (List.range 4).foldl (fun (t : Dev) i => t.setRegS (TRMS_K_A n i) (k.getD i 0)) s
  (s.setRegS (TRMS_K_TX n) (k.getD 4 0)).setRegS (TRMS_K_TY n) (k.getD 5 0)

/-- After the layer boundary (R539, R540): a grid that came into force brings its K_n, a refused one is discarded. -/
def trimLayer (s : Dev) : Dev :=
  let reg := s.trm.fromReg
  let pend := (List.finRange 16).filter fun (n : Station) => (s.trim n).kNew.isSome
  let taken (n : Station) : Bool := match (s.trim n).kNew with
    | some k => decide (((s.reg (SHT_GRID_SEL n) % 2 : Nat) : Int) = k.getD 6 0)
    | none => false
  let won := pend.filter taken
  let s' := pend.foldl (fun (t : Dev) (n : Station) =>
    let k := ((t.trim n).kNew).getD []
    let ok := taken n
    let next := (t.trim n).kNext
    let t := t.trimMod n fun x => { x with kNew := none, kNext := none }
    let t := if ok then setTrimK n k t else trimResult n 11 t
    match next, t.trimBase n with
    | some k, some b => trimWriteGrid n b k t
    | _, _ => trimShow n t) s
  let s' := if reg && won.length < pend.length then (s'.put TRM_REG_RESULT_RESULT 11).put TRM_FLAGS_REG_FAIL 1 else s'
  let s' := if reg && !won.isEmpty then occur 226 0xFF 0 s' else s'
  let more := (List.finRange 16).any fun (n : Station) => (s'.trim n).kNew.isSome
  let s' := s'.trmMod fun t => { t with fromReg := reg && more }
  trimShow 0 s'

/-! ### Registration (R538) -/

/-- REGISTER (R538). -/
def trimRegister (s : Dev) : Dev := trimShow 0 (s.trmMod fun t => { t with armed := true })

/-- REG_ABORT (R548): an armed registration is cancelled. -/
def trimRegAbort (s : Dev) : Dev := trimShow 0 (s.trmMod fun t => { t with armed := false })

/-- SCAN begins: the marks of the layer start afresh (R538). -/
def trimScan (s : Dev) : Dev := s.trmMod fun t => { t with marks := [], image := none }

/-- LAYER_CLOSE begins: a registration is due where marks were recorded (R538). -/
def trimClose (s : Dev) : Dev :=
  let run := !s.trm.marks.isEmpty && (s.on TRM_CTRL_AUTO_REG || s.trm.armed)
  trimShow 0 (s.trmMod fun t => { t with image := none, due := run, armed := t.armed && !run })

/-- Y of pixel (x, y) of the registration image; none outside it. -/
def Dev.regPixel (s : Dev) (base : Nat) (shot : CamShot) (x y : Int) : Option Nat :=
  if 0 ≤ x && x < shot.width && 0 ≤ y && y < shot.height then
    some (s.dramNat (base + 32 + 2 * (y.toNat * shot.width + x.toNat)) 2)
  else none

/-- The camera map of the image (R538): M and its origin. -/
structure CamMap where
  m : Affine
  inv : Affine
  fin : Bool

def Dev.camMap (s : Dev) : CamMap :=
  let f (i : Nat) : F64 := F64.ofFixed (s.regS (TRM_CAM_M i)) 24
  let u := F64.ofFixed (s.regS TRM_CAM_U0) 16
  let v := F64.ofFixed (s.regS TRM_CAM_V0) 16
  let det := F64.sub (F64.mul (f 0) (f 3)) (F64.mul (f 1) (f 2))
  let d (a : F64) : F64 := F64.div a det
  ⟨⟨f 0, f 1, f 2, f 3, u, v⟩,
    ⟨d (f 3), d (F64.neg (f 1)), d (F64.neg (f 2)), d (f 0), F64.zero, F64.zero⟩, det.fin && !F64.isZero det⟩

/-- A mark found: its station, E, and the residual r, in nm. -/
structure Found where
  mark : TrimMark
  e : P2
  r : P2

/-- E of a mark (R538). -/
def TrimMark.e (k : TrimMark) : P2 := P2.ofInt (Int.tdiv (k.x1 + k.x2) 2) (Int.tdiv (k.y1 + k.y2) 2)

/-- The centroid of a mark and its residual; none where the mark is rejected (R538 step 3). -/
def Dev.findMark (s : Dev) (cam : CamMap) (base : Nat) (shot : CamShot) (k : TrimMark) : Option Found :=
  let e := k.e
  let mm (v : F64) : F64 := F64.div v (F64.ofInt 1000000)
  let (px, py) := cam.m.at (mm e.x) (mm e.y)
  if !cam.fin || !px.fin || !py.fin then none
  else
    let win : Int := (clampN 2 64 (s.get TRM_REG_CFG_WIN) : Nat)
    let cx := F64.nearest px
    let cy := F64.nearest py
    let thr : Int := (s.get TRM_REG_THR_THR : Nat)
    let dark := s.on TRM_REG_CFG_POL
    let side := (2 * win + 1).toNat
    let (w, wx, wy) := (List.range side).foldl (fun (a : Int × Int × Int) j =>
      (List.range side).foldl (fun (a : Int × Int × Int) i =>
        let x := cx - win + (i : Nat)
        let y := cy - win + (j : Nat)
        match s.regPixel base shot x y with
        | none => a
        | some v =>
          let w := max (if dark then thr - (v : Nat) else (v : Nat) - thr) 0
          (a.1 + w, a.2.1 + w * x, a.2.2 + w * y)) a) (0, 0, 0)
    if w = 0 then none
    else
      let u := F64.div (F64.ofInt wx) (F64.ofInt w)
      let v := F64.div (F64.ofInt wy) (F64.ofInt w)
      let edge (a : F64) (c : Int) : Bool := F64.le (F64.ofInt (win - 2)) (F64.abs (F64.sub a (F64.ofInt c)))
      if edge u cx || edge v cy then none
      else
        let (bx, byy) := cam.inv.at (F64.sub u cam.m.tx) (F64.sub v cam.m.ty)
        let nm (v : F64) : F64 := F64.mul v (F64.ofInt 1000000)
        some ⟨k, e, P2.sub ⟨nm bx, nm byy⟩ e⟩

/-- The correction of a station (R538): L, the mean of E, and t. -/
structure FieldFit where
  l00 : F64
  l01 : F64
  l10 : F64
  l11 : F64
  mid : P2
  t : P2

/-- D_s(p). -/
def FieldFit.at (d : FieldFit) (p : P2) : P2 :=
  let q := P2.sub p d.mid
  ⟨F64.add (F64.add (F64.mul d.l00 q.x) (F64.mul d.l01 q.y)) d.t.x,
    F64.add (F64.add (F64.mul d.l10 q.x) (F64.mul d.l11 q.y)) d.t.y⟩

def p2Sum (l : List P2) : P2 := l.foldl P2.add P2.zero

def p2Mean (l : List P2) : P2 :=
  let n := F64.ofInt (l.length : Nat)
  let t := p2Sum l
  ⟨F64.div t.x n, F64.div t.y n⟩

def fSum (l : List F64) : F64 := l.foldl F64.add F64.zero

/-- The field fit of one station's accepted marks (R538 step 4). -/
def fieldFit (least : Nat) (l : List Found) : FieldFit :=
  let mid := p2Mean (l.map (·.e))
  let t := p2Mean (l.map (·.r))
  let z := F64.zero
  let es := l.map fun f => (P2.sub f.e mid, f.r)
  let sxx := fSum (es.map fun e => F64.mul e.1.x e.1.x)
  let sxy := fSum (es.map fun e => F64.mul e.1.x e.1.y)
  let syy := fSum (es.map fun e => F64.mul e.1.y e.1.y)
  let det := F64.sub (F64.mul sxx syy) (F64.mul sxy sxy)
  let half := F64.div (F64.add sxx syy) (F64.ofInt 2)
  let lim := F64.mul (F64.div (F64.ofInt 1) (F64.ofInt 1000000)) (F64.mul half half)
  if l.length < least || !F64.le lim det || F64.isZero det then ⟨z, z, z, z, mid, t⟩
  else
    let cross (f g : P2 → F64) : F64 := fSum (es.map fun e => F64.mul (f e.2) (g e.1))
    let rxx := cross (·.x) (·.x)
    let rxy := cross (·.x) (·.y)
    let ryx := cross (·.y) (·.x)
    let ryy := cross (·.y) (·.y)
    let q (a b c d : F64) : F64 := F64.div (F64.sub (F64.mul a b) (F64.mul c d)) det
    ⟨q rxx syy rxy sxy, q rxy sxx rxx sxy, q ryx syy ryy sxy, q ryy sxx ryx sxy, mid, t⟩

/-- A mark pair with both marks accepted (R538): its stations, lower first, and its offset. -/
def markPairs (d : Nat → Option FieldFit) : List Found → List (Nat × Nat × P2)
  | [] => []
  | f :: t =>
    (t.filterMap fun (g : Found) =>
      let a := f.mark
      let b := g.mark
      if a.station = b.station || a.x1 ≠ b.x1 || a.y1 ≠ b.y1 || a.x2 ≠ b.x2 || a.y2 ≠ b.y2 then none
      else
        let (p, q) := if a.station < b.station then (f, g) else (g, f)
        let res (h : Found) : P2 := match d h.mark.station with
          | some c => P2.sub h.r (c.at h.e)
          | none => h.r
        some (p.mark.station, q.mark.station, P2.sub (res p) (res q))) ++ markPairs d t

/-- Δ_so: the mean offset of the pairs of stations `s` and `o`; none without a pair. -/
def seamDelta (pairs : List (Nat × Nat × P2)) (s o : Nat) : Option P2 :=
  let l := (pairs.filter fun p => p.1 == min s o && p.2.1 == max s o).map (·.2.2)
  if l.isEmpty || s = o then none
  else
    let m := p2Mean l
    some (if s < o then m else ⟨F64.neg m.x, F64.neg m.y⟩)

/-- One pass of the seam relaxation over the stations (R538 step 5). -/
def seamPass (pairs : List (Nat × Nat × P2)) (anchor : Nat) (t : Vector P2 16) : Vector P2 16 :=
  (List.finRange 16).foldl (fun (t : Vector P2 16) (s : Station) =>
    if s.val = anchor then t
    else
      let terms := (List.finRange 16).filterMap fun (o : Station) =>
        (seamDelta pairs s.val o.val).map fun dl => P2.add (vat t o) dl
      if terms.isEmpty then t else vput t s (p2Mean terms)) t

/-- The root of a mean of squares, in nm. -/
def rmsOf (l : List P2) : Nat :=
  if l.isEmpty then 0
  else satU 32 (F64.nearest (F64.sqrt (F64.div (fSum (l.map fun p => P2.dot p p)) (F64.ofInt (l.length : Nat)))))

/-- The K' of a station (R538 step 7), rounded as it is stored. -/
def composeK (k : List Int) (d : FieldFit) : List Int :=
  let a := Affine.ofWords k
  let one := F64.ofInt 1
  let n00 := F64.sub one d.l00
  let n01 := F64.neg d.l01
  let n10 := F64.neg d.l10
  let n11 := F64.sub one d.l11
  let mul2 (p q r s : F64) : F64 := F64.add (F64.mul p q) (F64.mul r s)
  let ox := F64.sub (mul2 d.l00 d.mid.x d.l01 d.mid.y) d.t.x
  let oy := F64.sub (mul2 d.l10 d.mid.x d.l11 d.mid.y) d.t.y
  let q30 (v : F64) : Int := satS 32 (F64.nearest (F64.mul v (F64.ofInt (2 ^ 30))))
  [q30 (mul2 a.a00 n00 a.a01 n10), q30 (mul2 a.a00 n01 a.a01 n11), q30 (mul2 a.a10 n00 a.a11 n10),
    q30 (mul2 a.a10 n01 a.a11 n11), satS 32 (F64.nearest (F64.add (mul2 a.a00 ox a.a01 oy) a.tx)),
    satS 32 (F64.nearest (F64.add (mul2 a.a10 ox a.a11 oy) a.ty))]

/-- A correction outside LIN_LIM or OFS_LIM (R538 step 6). -/
def Dev.fitRange (s : Dev) (d : FieldFit) : Bool :=
  let lin := F64.ofFixed (s.get TRM_REG_LIM_LIN_LIM : Nat) 16
  let ofs := F64.ofInt ((s.get TRM_REG_LIM_OFS_LIM : Nat) * 1000)
  let o := d.at P2.zero
  !(([d.l00, d.l01, d.l10, d.l11].all fun v => F64.le (F64.abs v) lin) && F64.le (F64.abs o.x) ofs && F64.le (F64.abs o.y) ofs)

/-- The registration ends with RESULT `r` and `k` accepted marks (R546, R548). -/
def regEnd (r k : Nat) (s : Dev) : Dev :=
  let s := (s.setReg TRM_REG_RESULT (k % 256 * 256 + r)).setReg TRM_REG_LAYER (s.reg TRD_LAYER)
  let s := trimShow 0 (s.trmMod fun t => { t with due := false })
  if r ≤ 1 then s else trimFail 0xFF (s.put TRM_FLAGS_REG_FAIL 1)

/-- The marks with a descriptor that registration finds in the image (R538 steps 1 and 3). -/
def Dev.regFound (s : Dev) (base : Nat) (shot : CamShot) : List Found :=
  (s.trm.marks.filter fun k => (vat s.mpl.st ⟨k.station % 16, Nat.mod_lt _ (by decide)⟩).marks.contains k.pick).filterMap
    fun k => s.findMark s.camMap base shot k

/-- Where the registration image stands in DRAM (R346, R538). -/
def Dev.regBase (s : Dev) (shot : CamShot) : Nat :=
  s.reg (ISPC_OUT_BASE (s.get TRM_REG_CFG_REG_CAM % 4)) % 65536 * 1048576 +
    shot.slot * (divUp (32 + divUp (shot.width * shot.height * 2) 32 * 32 + 1600) 4096 * 4096)

/-- The registration with its image (R538 steps 3 to 7, R539). -/
def regFit (base : Nat) (shot : CamShot) (s : Dev) : Dev :=
  let found := s.regFound base shot
  let least := max 3 (s.get TRM_REG_CFG_MIN_MARKS)
  let mine (n : Nat) : List Found := found.filter fun f => f.mark.station == n
  let fits : Vector (Option FieldFit) 16 := Vector.ofFn fun n =>
    if (mine n.val).isEmpty then none else some (fieldFit least (mine n.val))
  let fitOf (n : Nat) : Option FieldFit := if h : n < 16 then vat fits ⟨n, h⟩ else none
  let pairs := markPairs fitOf found
  let seams := Nat.repeat (seamPass pairs (s.get TRM_REG_ANCHOR_ANCHOR)) 64 (Vector.replicate 16 P2.zero)
  let final (n : Station) : Option FieldFit := (vat fits n).map fun d => { d with t := P2.add d.t (vat seams n) }
  let after := markPairs (fun n => if h : n < 16 then final ⟨n, h⟩ else none) found
  let s := s.setReg TRM_REG_SEAM_RMS (rmsOf (after.map (·.2.2)))
  if found.isEmpty then regEnd 10 0 s
  else
    let (s, r) := (List.finRange 16).foldl (fun (a : Dev × Nat) (n : Station) =>
      let (s, r) := a
      let s := s.setReg (TRMS_MARKS n) (min 255 (mine n.val).length)
      let seam := vat seams n
      let s := (s.setRegS (TRMS_SEAM_TX n) (F64.nearest seam.x)).setRegS (TRMS_SEAM_TY n) (F64.nearest seam.y)
      match final n with
      | none => (s, r)
      | some d =>
        let s := s.setReg (TRMS_RES_RMS n) (rmsOf ((mine n.val).map fun f => P2.sub f.r (d.at f.e)))
        if s.fitRange d then (s, 4)
        else
          let (ok, s) := trimNewK n (composeK (s.trimK n) d) s
          (s, if ok then r else 7)) (s, 1)
    regEnd r found.length (s.trmMod fun t => { t with fromReg := true })

/-- REGISTRATION_COMPUTE (R538). -/
def registration (s : Dev) : Dev :=
  if !s.trm.due then s
  else match s.trm.image with
    | none => if s.trd.imagesLeft = 0 then regEnd 8 0 s else s
    | some shot =>
      if shot.format ≠ 2 then regEnd 9 0 s
      else regFit (s.regBase shot) shot s

/-! ### The saved record (R544, R545, R593) -/

/-- The TRIM payload (R593). -/
def Dev.trimPayload (s : Dev) : List Nat :=
  [devWord 3, devWord 4, s.reg DEV_ID6] ++ (List.finRange 16).flatMap fun (n : Station) =>
    [s.reg (MPLS_DARK n), s.reg (MPLS_GAIN n)] ++ (s.trimK n).map (wrapN 32)

/-- SAVE (R544). -/
def trimSave (s : Dev) : Dev := (s.trmMod fun t => { t with saveDue := true }).put TRM_STATUS_SAVE_BUSY 1

/-- A SAVE that waits is staged once no slew runs and no grid waits (R544). -/
def trimSaveStage (s : Dev) : Dev :=
  let quiet := (List.finRange 16).all fun (n : Station) =>
    let t := s.trim n
    t.slewD.isNone && t.slewG.isNone && t.kNew.isNone
  if !s.trm.saveDue || !quiet then s
  else
    let s := s.trmMod fun t => { t with saveDue := false }
    let k := s.reg WAL_DROPS
    let s := stage (s.logRec 5 0 s.trimPayload false) s
    if s.reg WAL_DROPS = k then s else (s.put TRM_STATUS_SAVE_BUSY 0).put TRM_FLAGS_SAVE_FAIL 1

/-- The values of a saved record go into force at start (R545). `body` is the payload. -/
def trimRestore (body : List Nat) (s : Dev) : Dev :=
  if body.take 3 ≠ [devWord 3, devWord 4, s.reg DEV_ID6] || body.length ≠ 131 then s.put TRM_FLAGS_RESTORE_SKIP 1
  else
    let s := (List.finRange 16).foldl (fun (t : Dev) (n : Station) =>
      let w (i : Nat) : Nat := body.getD (3 + 8 * n.val + i) 0
      let k := (List.range 6).map fun i => sx 32 (w (2 + i))
      let t := setTrimK n k ((t.setReg (MPLS_DARK n) (w 0)).setReg (MPLS_GAIN n) (w 1))
      match t.trimBase n with
      | none => t
      | some b =>
        let sel := t.reg (SHT_GRID_SEL n) % 2
        t.setCreelBytes (t.reg (if sel = 1 then SHT_GRID_BASE1 n else SHT_GRID_BASE0 n)) (t.trimGrid b (Affine.ofWords k))) s
    occur 229 0xFF 0 (s.put TRM_FLAGS_RESTORED 1)

end Sys2Proof.Machine
end

