-- ==== Sys2Proof/Machine/LinkOps.lean ====
section
/-!
DEFINITION. The Walek link to the stations (R248 to R277): slots and their checks, MARKERs and the delay, the link states,
identity and services, and what leaves the lane each tick.
-/
namespace Sys2Proof.Machine

open Reg

def Dev.link (s : Dev) (n : Station) : Link := vat s.lnk n

def Dev.lnkMod (s : Dev) (n : Station) (f : Link → Link) : Dev := { s with lnk := vmod s.lnk n f }

/-- A flag of LNK_n_WFLAGS set, with E64 + n (R277). -/
def linkFlag (n : Station) (f : Field) (code : Nat) (s : Dev) : Dev := flagEvent f (64 + n.val) n.val code s

abbrev lDown : Nat := 0
abbrev lLocked : Nat := 1
abbrev lMeasure : Nat := 2
abbrev lIdent : Nat := 3
abbrev lRun : Nat := 4
abbrev lHeld : Nat := 5
abbrev lRejoin : Nat := 6

def Dev.linkState (s : Dev) (n : Station) : Nat := s.get (LNK_WSTATE_STATE n)

/-- The link enters a state; it is in alignment in IDENT, RUN and HELD (R265). -/
def setLink (n : Station) (st : Nat) (s : Dev) : Dev :=
  (s.put (LNK_WSTATE_STATE n) st).put (LNK_WSTATE_ALIGNED n) (b2n (st == 3 || st == 4 || st == 5))

/-- Block lock of lane `l`. -/
def Dev.blockLock (s : Dev) (l : Nat) : Bool := bit (s.reg LNK_LOCKED) l

/-- The PERIOD and PHASE byte of the tick numbered `k` of T0 (R253). -/
def codeOf (k : Nat) : Nat := k / 4 % 64 * 4 + k % 4

/-- The period count (R253). -/
def period32 (k : Nat) : Nat := k / 4 % 2 ^ 32

/-- The target of the station's recovery (R571). -/
def stationTarget (n : Station) : Fin 19 := ⟨n.val, by omega⟩

/-- The recovery of a link fault is complete: the link is back in RUN (R571). -/
def linkRecovered (n : Station) (s : Dev) : Dev :=
  match vat s.flt.recovery (stationTarget n) with
  | some r => if r.code = 0x58 || r.code = 0x59 then recovered (stationTarget n) s else s
  | none => s

/-! ### Loss of alignment (R30, R271) -/

/-- The link leaves alignment (R271): LINK_ALIGN, the interruption at the start of tick `first`, and the state that
follows. -/
def alignLoss (n : Station) (first : Nat) (s : Dev) : Dev :=
  let st := s.linkState n
  if !(st == lIdent || st == lRun || st == lHeld) then s
  else
    let lock := s.blockLock n.val
    let run := st == lRun
    let next := if !lock then lDown else if run then lRejoin else lLocked
    let s := setLink n next s
    let s := s.lnkMod n fun x =>
      { x with badMarks := 0, badSlots := 0, fromRun := run, goRun := false, dark := true, svc := none, rtts := [],
               rejected := 0, shifts := 0, runStart := false }
    let s := s.put (LNK_SVC_STAT_BUSY n) (b2n (s.link n).hostReq.isSome)
    let s := linkFlag n (LNK_WFLAGS_ALIGN_LOSS n) 0x58 (s.count (LNK_ALIGN_LOSS n) 1)
    let s := fault 0x58 sevRetry n.val s
    shtCutAt n first (frameCut n (trimAbort n s))

/-- Block lock of a station lane is lost (R265, R271). `k` is the current tick. -/
def linkUnlock (n : Station) (k : Nat) (s : Dev) : Dev :=
  let st := s.linkState n
  if st = lDown then s
  else if st = lIdent || st = lRun || st = lHeld then alignLoss n (k - (s.link n).badSlots) s
  else (setLink n lDown s).lnkMod n fun x => { x with goRun := false, rtts := [] }

/-- Block lock of a station lane is gained (R265, R273). -/
def linkLock (n : Station) (s : Dev) : Dev :=
  if s.linkState n ≠ lDown || !s.on (LNK_WCTRL_EN n) then s
  else
    let x := s.link n
    setLink n (if x.fromRun && x.measured then lRejoin else lLocked) s

/-! ### Identity and services (R266, R267) -/

/-- The link enters HELD after a refused identity: fault STN_IDENT (R266, R273). -/
def identRefused (n : Station) (s : Dev) : Dev :=
  let s := linkFlag n (LNK_WFLAGS_IDENT n) 0x5A (setLink n lHeld s)
  fault 0x5A sevRetire n.val (s.lnkMod n fun x => { x with goRun := false, serialDue := false, svc := none })

/-- The identity record is accepted (R266). -/
def Dev.identOk (s : Dev) (n : Station) : Bool :=
  let w (i : Nat) : Nat := s.reg (LNK_IDENT n i)
  let caps := w 3
  let has (req : Field) (b : Nat) : Bool := !s.on req || bit caps b
  let every := max 50 (s.get (LNK_COAX_CFG_INTERVAL n))
  bits (w 2) 7 0 == 1 && has (LNK_WCTRL_REQ_PYRO n) 0 && has (LNK_WCTRL_REQ_COAX n) 1 && has (LNK_WCTRL_REQ_Z n) 2 &&
    has (LNK_WCTRL_REQ_HOLD n) 3 && (s.get (LNK_COAX_CFG_INTERVAL n) == 0 || 2000000 ≤ w 5 * every)

/-- IDENT begins: a retired station's link enters HELD (R265, R573). -/
def enterIdent (n : Station) (s : Dev) : Dev :=
  if s.isRetired n.val then setLink n lHeld (s.lnkMod n fun x => { x with badMarks := 0, badSlots := 0, downErr := 256 })
  else setLink n lIdent (s.lnkMod n fun x =>
    { x with identNext := 0, tries := 0, serialDue := false, svc := none, badMarks := 0, badSlots := 0, downErr := 256 })

/-- A read of the device's own has not been answered, or was refused (R266). -/
def ownFailed (n : Station) (final : Bool) (s : Dev) : Dev :=
  let x := s.link n
  if final || 1 ≤ x.tries then identRefused n (s.lnkMod n fun x => { x with tries := 0 })
  else s.lnkMod n fun x => { x with svc := none, tries := x.tries + 1 }

/-- An answer to the device's own read (R266, R273). -/
def ownAnswer (n : Station) (r : SvcReq) (result data : Nat) (s : Dev) : Dev :=
  let s := s.lnkMod n fun x => { x with svc := none }
  if result = 2 then ownFailed n true s
  else if result ≠ 1 then s
  else
    let s := s.lnkMod n fun x => { x with tries := 0 }
    if s.linkState n = lIdent then
      let s := s.setReg (LNK_IDENT n r.addr) data
      let s := s.lnkMod n fun x => { x with identNext := r.addr + 1 }
      if r.addr < 7 then s
      else if s.identOk n then s.lnkMod n fun x => { x with goRun := true }
      else identRefused n s
    else if (s.link n).serialDue then
      if data = s.reg (LNK_IDENT n 1) then s.lnkMod n fun x => { x with serialDue := false } else identRefused n s
    else s

/-- A host request ends (R267, R278). -/
def hostAnswer (n : Station) (result data : Nat) (s : Dev) : Dev :=
  let s := (s.lnkMod n fun x => { x with svc := none }).setReg (LNK_SVC_STAT n) (result % 4 * 2)
  if result = 1 then s.setReg (LNK_SVC_RDATA n) data else s

/-- A service response of the uplink (R267): one with another TAG is discarded. -/
def svcAnswer (n : Station) (result tag data : Nat) (s : Dev) : Dev :=
  match (s.link n).svc with
  | some r => if result = 0 || tag ≠ r.tag then s else if r.own then ownAnswer n r result data s else hostAnswer n result data s
  | none => s

/-- A request has not been answered within 8 ticks (R266, R267). -/
def svcTimeout (n : Station) (now : Nat) (s : Dev) : Dev :=
  match (s.link n).svc with
  | some r => if now < r.tick + 8 then s else if r.own then ownFailed n false s else hostAnswer n 0 0 s
  | none => s

/-- LNK_n_SVC_CMD (R267, R278): 1 read, 2 write; ignored while BUSY. -/
def svcCmd (n : Station) (op : Nat) (s : Dev) : Dev :=
  if s.on (LNK_SVC_STAT_BUSY n) then s
  else
    let r : SvcReq := ⟨0, op, s.reg (LNK_SVC_ADDR n) % 65536, s.reg (LNK_SVC_WDATA n), false, 0⟩
    (s.lnkMod n fun x => { x with hostReq := some r }).put (LNK_SVC_STAT_BUSY n) 1

/-- The request that goes out in the slot of tick `k`, if any (R267): the device's own reads take precedence. -/
def svcNext (n : Station) (k : Nat) (s : Dev) : Option SvcReq × Dev :=
  let x := s.link n
  if x.svc.isSome then (none, s)
  else
    let own : Option Nat :=
      if s.linkState n = lIdent && x.identNext < 8 then some x.identNext else if x.serialDue then some 1 else none
    let tag := (x.tag + 1) % 256
    match own, x.hostReq with
    | some a, _ =>
      let r : SvcReq := ⟨tag, 1, a, 0, true, k⟩
      (some r, s.lnkMod n fun x => { x with svc := some r, tag := tag })
    | none, some h =>
      let r : SvcReq := { h with tag := tag, tick := k }
      (some r, s.lnkMod n fun x => { x with svc := some r, tag := tag, hostReq := none })
    | none, none => (none, s)

/-! ### The uplink slot (R250, R256 to R258, R274) -/

/-- The samples of tick `k` at a station: the pyrometer pair, and in slot phase 0 the encoder words; none where the link
is out of alignment or the early check failed (R30, R212, R250). -/
def linkSamples (n : Station) (k : Nat) (w : Option (List Nat)) (slotGood emitting : Bool) (s : Dev) : Dev :=
  let at' (l : List Nat) (i : Nat) : Nat := l.getD i 0
  let pair : Option PyroPair := w.map fun l =>
    ⟨bits (at' l 0) 15 0, bits (at' l 0) 31 16, bit (at' l 1) 4, bits (at' l 1) 1 0, bits (at' l 1) 3 2⟩
  let (hold, s) := match pair with
    | some p => trimSample n k slotGood emitting p s
    | none => (false, s)
  let s := pyroSample n k pair (s.put (MPLS_STATUS_TRIM_HOLD n) (b2n hold))
  let t := s.tempAt n k
  let s := mboxPut n (0x24 + k % 4 * 0x40) (t.2 * 65536 + t.1) s
  if k % 4 ≠ 0 then s
  else (List.range 3).foldl (fun (t : Dev) a =>
    stationChannel (3 * n.val + a) (w.map fun l => (bits (at' l (4 + a)) 23 0, bits (at' l (4 + a)) 25 24)) t) s

/-- Early and slot quality beside the uplink header in the mailbox (R276). -/
def linkMailbox (n : Station) (k : Nat) (header : List Byte) (words : List Nat) (early slot : Bool) (s : Dev) : Dev :=
  let q (b : Bool) : Nat := if b then qGood else qInvalid
  let ph := k % 4 * 0x40
  let s := mboxPut n ph (leNat (header.take 3) + q early * 2 ^ 24 + q slot * 2 ^ 26) s
  s.setCreelBytes (mbox n (0x04 + ph)) (wordsBytes (words.take 8))

/-- A bad or missing uplink slot in alignment (R250, R271). -/
def badSlot (n : Station) (k : Nat) (s : Dev) : Dev :=
  let s := linkFlag n (LNK_WFLAGS_BAD_SLOT n) 0 (s.count (LNK_BAD_UP n) 1)
  let s := s.lnkMod n fun x => { x with badSlots := x.badSlots + 1 }
  if 2 ≤ (s.link n).badSlots then alignLoss n (k - 1) s else s

/-- A loss of the station's emission by its own cause: an interruption at the start of tick `k` (R163, R274). -/
def stationDark (n : Station) (k : Nat) (s : Dev) : Dev := shtCutAt n k s

/-- The GATE bit of the newest slot sent to the station. -/
def Dev.gateSent (s : Dev) (n : Station) : Bool := bit ((s.link n).txSlot.getD 1 0).toNat 0

/-- The header of a good uplink slot (R256, R271, R274). -/
def uplinkStatus (n : Station) (k st errs : Nat) (s : Dev) : Dev :=
  let x := s.link n
  let was := bits (s.reg (LNK_WSTATE n)) 15 8
  let s := s.setReg (LNK_WSTATE n) (putBits (s.reg (LNK_WSTATE n)) 15 8 st)
  let s := if x.downErr < 256 then s.count (LNK_BAD_DOWN n) ((errs + 256 - x.downErr) % 256) else s
  let s := s.lnkMod n fun x => { x with downErr := errs, badSlots := 0 }
  let s := if bit st 6 then s.count (LNK_COAX_SKIP n) 1 else s
  let s := if bit st 4 && s.linkState n = lRun && (!bit was 4 || x.runStart) then
      stationDark n k (fault 0x5B sevRetire n.val (linkFlag n (LNK_WFLAGS_STN_FAULT n) 0x5B s))
    else s
  let s := if bit st 3 && s.gateSent n && !x.interlockSeen then
      let s := s.lnkMod n fun x => { x with interlockSeen := true }
      stationDark n k (fault 0x5C sevInfo n.val (linkFlag n (LNK_WFLAGS_INTERLOCK n) 0x5C s))
    else s
  if bit st 5 then alignLoss n k s else s

/-- An uplink slot of tick `k` (R250, R256 to R258). The flags say that the sync headers of the early part and of the whole
slot were valid, and that it was complete by its deadline. -/
def uplinkSlot (n : Station) (k : Nat) (header : List Byte) (ws : List Word) (earlyHeaders headers inTime : Bool) (s : Dev) :
    Dev :=
  if !s.on (LNK_WSTATE_ALIGNED n) || header.length ≠ 7 || ws.length ≠ 148 then s
  else
    let w := ws.map BitVec.toNat
    let num := (header.getD 0 0).toNat == codeOf k
    let early := earlyHeaders && num && crc32c (header ++ wordsBytes (w.take 7)) == w.getD 7 0
    let slot := headers && num && inTime && crc32c (header ++ wordsBytes (w.take 147)) == w.getD 147 0
    let s := s.lnkMod n fun x => { x with gotSlot := true }
    let s := linkMailbox n k header w early slot s
    let st := (header.getD 1 0).toNat
    let s := linkSamples n k (if early then some w else none) slot (bit st 0) s
    let seg := w.getD 8 0
    let bytes := wordsBytes ((w.drop 9).take 120)
    let s := if bit seg 27 then
        coaxSegment n (bits seg 15 0) (bits seg 22 16) (bits seg 24 23) (bit seg 25) (bit seg 26) slot bytes s
      else s
    if !slot then badSlot n k s
    else
      let s := svcAnswer n (bits (w.getD 2 0) 9 8) (bits (w.getD 2 0) 7 0) (w.getD 3 0) s
      uplinkStatus n k st (header.getD 2 0).toNat s

/-! ### MARKERs and the delay (R259 to R261) -/

/-- LINK_DELAY (R31, R261). -/
def linkDelay (n : Station) (s : Dev) : Dev := fault 0x59 sevRetry n.val (linkFlag n (LNK_WFLAGS_DELAY n) 0x59 s)

/-- D_DOWN from the mean of 64 exchanges (R261); DELAY_ADJ takes effect here (R278). -/
def acceptDelay (n : Station) (sum : Int) (s : Dev) : Dev :=
  let a := LNK_DELAY_ADJ n
  let adj := s.written a
  let s := { s.setReg a adj with shadow := serase s.shadow a }
  let mean := Int.tdiv sum 64
  let d := Int.tdiv sum 128 + sx 16 adj
  let s := s.setReg (LNK_DDOWN n) (wrapN 16 d)
  enterIdent n (s.lnkMod n fun x => { x with rtt0 := mean, measured := true, rtts := [], rejected := 0 })

/-- One exchange in MEASURE (R261). -/
def measure (n : Station) (rtt : Int) (s : Dev) : Dev :=
  let l := (s.link n).rtts ++ [rtt]
  if l.length < 64 then s.lnkMod n fun x => { x with rtts := l }
  else
    let hi := l.foldl max rtt
    let lo := l.foldl min rtt
    if hi - lo ≤ 16 then acceptDelay n l.sum s
    else
      let k := (s.link n).rejected + 1
      let s := s.lnkMod n fun x => { x with rtts := [], rejected := if k = 4 then 0 else k }
      if k = 4 then linkDelay n s else s

/-- An exchange in RUN (R261): DELAY_SHIFT after 64 in a row more than 2 ns off. -/
def watchDelay (n : Station) (rtt : Int) (s : Dev) : Dev :=
  let x := s.link n
  let k := if 32 < (rtt - x.rtt0).natAbs then x.shifts + 1 else 0
  let s := s.lnkMod n fun x => { x with shifts := k }
  if k = 64 then linkFlag n (LNK_WFLAGS_DELAY_SHIFT n) 0 s else s

/-- The delay check of REJOIN (R31, R265, R273). -/
def rejoin (n : Station) (rtt : Int) (s : Dev) : Dev :=
  if (rtt - (s.link n).rtt0).natAbs ≤ 32 then
    if s.isRetired n.val then enterIdent n s else s.lnkMod n fun x => { x with goRun := true }
  else linkDelay n (setLink n lMeasure (s.lnkMod n fun x => { x with rtts := [], rejected := 0, fromRun := false }))

/-- A bad, missing or misnumbered uplink MARKER in tick `k` (R271). -/
def badMarker (n : Station) (k : Nat) (s : Dev) : Dev :=
  let s := s.lnkMod n fun x => { x with badMarks := x.badMarks + 1 }
  if 2 ≤ (s.link n).badMarks && s.on (LNK_WSTATE_ALIGNED n) then alignLoss n (k - 1) s else s

/-- An uplink MARKER (R259, R261, R265): its seven bytes, and t4 in 1/16 ns from the start of tick `k`. -/
def uplinkMarker (n : Station) (k tickNs : Nat) (body : List Byte) (good : Bool) (t4 : Nat) (s : Dev) : Dev :=
  let st := s.linkState n
  let b (i : Nat) : Nat := (body.getD i 0).toNat
  if st = lDown then s
  else
    let s := s.lnkMod n fun x => { x with gotMark := true }
    if !(good && body.length == 7 && b 0 == 0x5A && b 1 == codeOf k) then badMarker n k s
    else
      let s := s.lnkMod n fun x => { x with badMarks := 0 }
      if st = lLocked then setLink n lMeasure (s.lnkMod n fun x => { x with rtts := [], rejected := 0 })
      else match (s.link n).sent.find? (·.1 == b 4) with
        | none => s
        | some (_, t1) =>
          let rtt : Int := ((tickNs * 16 + t4 : Nat) : Int) - (t1 : Nat) - (b 2 + b 3 * 256 : Nat)
          let s := s.setReg (LNK_RTT n) (wrapN 16 rtt)
          if st = lMeasure then measure n rtt s
          else if st = lRejoin then (if (s.link n).goRun then s else rejoin n rtt s)
          else if st = lRun then watchDelay n rtt s
          else s

/-! ### Each tick and period (R22, R251 to R255, R258, R265, R275) -/

/-- The uplink of the tick that ends, where nothing came (R30, R250, R271). -/
def linkMissing (n : Station) (k : Nat) (s : Dev) : Dev :=
  let x := s.link n
  let aligned := s.on (LNK_WSTATE_ALIGNED n)
  let s := if x.gotSlot then s
    else
      let s := mboxPut n (k % 4 * 0x40) (qInvalid * 2 ^ 24 + qInvalid * 2 ^ 26) s
      let s := linkSamples n k none false false s
      if aligned then badSlot n k s else s
  let s := if x.gotMark || !s.on (LNK_WSTATE_ALIGNED n) then s else badMarker n k s
  s.lnkMod n fun x => { x with gotSlot := false, gotMark := false }

/-- The hardwired path darkens every lane: EMIT_GATE_N low as filtered, SW_GATE, a HALT latched, thermal shutdown, Doff
(R275, R561, R576, R583, R618). -/
def Dev.allDark (s : Dev) : Bool :=
  s.on EVT_FLT_GATE_PIN_LOW || s.on EVT_FLT_GATE_SW_GATE || s.on EVT_FLT_STATUS_HALTED || s.thm.shut || s.dof.active

/-- A coax trigger is due in tick `k` (R258, R278): one every INTERVAL ticks in RUN, none in the slots of RUN_START. -/
def Dev.trigDue (s : Dev) (n : Station) (k : Nat) : Bool :=
  let every := s.get (LNK_COAX_CFG_INTERVAL n)
  s.linkState n == lRun && !(s.link n).runStart && every ≠ 0 &&
    (match (s.link n).lastTrig with | some t => decide (t + max 50 every ≤ k) | none => true)

/-- The trigger of tick `k` exposes at tick `k + 2` (R258). -/
def coaxTrigger (n : Station) (k sched : Nat) (s : Dev) : Dev :=
  let len := s.get (LNK_COAX_CFG_EXPOSURE n)
  let no := ((s.mst n).frameNo + 1) % 65536
  let s := s.mstMod n fun m => { m with frameNo := no, trigs := (⟨no, k + 2, sched + 2, len⟩ :: m.trigs).take 8 }
  (s.lnkMod n fun x => { x with lastTrig := some k }).setReg (LNK_FRAME_NO n) no

/-- The position loops of a held station run (R197). -/
def Dev.loopsRun (s : Dev) (n : Station) : Bool := (List.finRange 3).any fun (e : Fin 3) => s.loopEn (.pos e n)

/-- Header bytes 1 to 7 of the downlink slot of tick `k` (R253). -/
def Dev.downHeader (s : Dev) (n : Station) (k : Nat) : List Byte :=
  let x := s.link n
  let run := s.linkState n == lRun
  let axes := k % 4 == 3 && (run || (s.linkState n == lHeld && s.loopsRun n))
  let y := s.shtl n
  let blank := y.blank || y.held || s.isRetired n.val
  let gate := run && s.flt.gateOpen && !x.serialDue && !s.allDark
  let b2 := b2n x.runStart * 16 + b2n axes * 8 + b2n (!run || s.thm.shut) * 4 + b2n blank * 2 + b2n gate
  [BitVec.ofNat 8 (codeOf k), BitVec.ofNat 8 b2, BitVec.ofNat 8 (s.get (LNK_EVT_OUT_EVT n)), 0, 0, 0, 0]

/-- What leaves the lane in tick `k` (R251 to R255, R259, R265, R271, R275): EMIT_OFF, MARKER, slot. -/
def linkDown (n : Station) (k tickNs sched : Nat) (s : Dev) : Dev :=
  let st := s.linkState n
  let off := (s.link n).dark || s.allDark
  if st = lDown then s.lnkMod n fun x => { x with txMarker := [], txSlot := [], txEmitOff := off }
  else
    -- where in its 6.4 ns window the MARKER's block boundary falls is open (log entry 44)
    let (v, s) := s.fresh 7
    let dep := 7322 + v % 102
    let code := codeOf k
    let valid := (s.link n).measured && st ≠ lLocked
    let body : List Byte := [0x5A, BitVec.ofNat 8 code] ++ leBytes 2 dep ++ leBytes 2 (s.get (LNK_DDOWN_D_DOWN n)) ++
      [BitVec.ofNat 8 (b2n valid)]
    let s := s.lnkMod n fun x =>
      { x with sent := ((code, tickNs * 16 + dep) :: x.sent).take 16, txMarker := body, txSlot := [], txEmitOff := off }
    if !s.on (LNK_WSTATE_ALIGNED n) then s
    else
      let trig := s.trigDue n k
      let s := if trig then coaxTrigger n k sched s else s
      let w3 := if trig then s.get (LNK_COAX_CFG_EXPOSURE n) * 65536 + 1 else 0
      let (req, s) := svcNext n k s
      let w7 := match req with | some r => r.tag * 2 ^ 18 + r.op * 65536 + r.addr | none => 0
      let w8 := match req with | some r => r.data | none => 0
      let hdr := s.downHeader n k
      let axes := bit (hdr.getD 1 0).toNat 3
      let at' := 0x104 + k % 4 * 0x40
      let box (i : Nat) : Nat := s.mboxGet n (at' + 4 * i)
      let ax (i : Nat) : Nat := if axes then box i else 0
      let ws := [box 0, box 1, box 2, w3, ax 4, ax 5, ax 6, w7, w8, if k % 4 = 0 then period32 k else 0, 0, 0, 0]
      let s := mboxPut n (0x100 + k % 4 * 0x40) (leNat (hdr.take 3)) s
      let s := s.setCreelBytes (mbox n at') (wordsBytes ws)
      let crc := crc32c (hdr ++ wordsBytes ws)
      s.lnkMod n fun x => { x with txSlot := hdr ++ wordsBytes ws ++ leBytes 4 crc }

/-- A period boundary (R258, R265, R273): a link that waits enters RUN. -/
def linkPeriod (n : Station) (s : Dev) : Dev :=
  let x := s.link n
  if x.goRun && !s.isRetired n.val then
    let s := setLink n lRun s
    let s := s.lnkMod n fun y =>
      { y with goRun := false, runStart := true, dark := false, serialDue := x.fromRun, fromRun := false, tries := 0,
               badMarks := 0, badSlots := 0, shifts := 0, lastTrig := none,
               downErr := if x.fromRun then 256 else y.downErr }
    let s := s.mstMod n fun m => { m with frameNo := 0, trigs := [] }
    linkRecovered n s
  else if x.goRun then enterIdent n (s.lnkMod n fun x => { x with goRun := false })
  else s.lnkMod n fun x => { x with runStart := false }

/-- The link of a station that retires (R265, R573). -/
def linkRetire (n : Station) (s : Dev) : Dev :=
  let st := s.linkState n
  let s := s.lnkMod n fun x => { x with goRun := false, serialDue := false, runStart := false }
  if st = lRun || st = lIdent then setLink n lHeld s else s

/-- Its retirement is cleared (R265, R575). -/
def linkCleared (n : Station) (s : Dev) : Dev :=
  if s.linkState n = lHeld then setLink n lMeasure (s.lnkMod n fun x => { x with rtts := [], rejected := 0, fromRun := false })
  else s

/-- The link is disabled (R279): it stays in DOWN. -/
def linkOff (n : Station) (s : Dev) : Dev :=
  let was := s.on (LNK_WSTATE_ALIGNED n)
  let s := (setLink n lDown s).lnkMod n fun x =>
    { x with goRun := false, fromRun := false, measured := false, svc := none, hostReq := none, rtts := [] }
  let s := s.put (LNK_SVC_STAT_BUSY n) 0
  if was then shtCut n (frameCut n (trimAbort n s)) else s

/-- SCAN begins (R274, R278): the counters restart. -/
def linkScan (n : Station) (s : Dev) : Dev :=
  let zero := [LNK_BAD_UP n.val, LNK_BAD_DOWN n.val, LNK_ALIGN_LOSS n.val, LNK_COAX_SKIP n.val]
  (zero.foldl (fun (t : Dev) a => t.setReg a 0) s).lnkMod n fun x => { x with interlockSeen := false }

end Sys2Proof.Machine
end

