-- ==== Sys2Proof/Machine/LaneOps.lean ====
section
/-!
DEFINITION. The serial lanes (R449 to R474): enabling, block lock, the eye scan, PRBS, error injection and PLL loss.
-/
namespace Sys2Proof.Machine

open Reg

/-- A flag of LNK_l_FLAGS set, with E64 + l (R471). -/
def laneFlag (l : Lane) (f : Field) (s : Dev) : Dev := flagEvent f (64 + l.val) l.val 0 s

def Dev.laneMod (s : Dev) (l : Lane) (f : LaneUnit → LaneUnit) : Dev := { s with lanes := vmod s.lanes l f }

/-- The lane is in service (R466): its Walek link, or its chain port, is enabled. -/
def Dev.inService (s : Dev) (l : Lane) : Bool :=
  if l.val < 16 then s.on (LNK_WCTRL_EN l.val) else if l.val = 16 then s.on NET_CTRL_N0_EN else s.on NET_CTRL_N1_EN

/-- Any station lane enabled (R453, R470). -/
def Dev.stationLaneOn (s : Dev) : Bool := (List.range 16).any fun l => s.on (LANE_CTRL_EN l)

/-- A chain lane enabled (R470). -/
def Dev.chainLaneOn (s : Dev) : Bool := s.on (LANE_CTRL_EN 16) || s.on (LANE_CTRL_EN 17)

/-- LOCK_LOSS of the lane: values outside 4 to 16 act as the nearest limit (R458, R474). -/
def Dev.lockLoss (s : Dev) (l : Lane) : Nat := clampN 4 16 (s.get (LANE_CTRL_LOCK_LOSS l))

/-- What uses the lane meets its block lock or the loss of it: a station link or a chain port. -/
def laneUser (l : Lane) (gained : Bool) (s : Dev) : Dev :=
  if h : l.val < 16 then
    let n : Station := ⟨l.val, h⟩
    if gained then linkLock n s else linkUnlock n s.t0.tick s
  else
    let p : Port := if l.val = 16 then 0 else 1
    if gained then chainLock p s else chainUnlock p s

/-- A scan that runs stops with ABORTED; how much it gathered is open (R464; log entry 52). -/
def scanAbort (l : Lane) (s : Dev) : Dev :=
  if !s.on (LANE_SCAN_STAT_BUSY l) then s
  else
    let (b, s) := s.fresh 40
    let (e, s) := s.fresh 32
    let bits' := b % 2 ^ clampN 20 40 (vat s.lanes l).scan
    let s := ((s.put (LANE_SCAN_STAT_BUSY l) 0).put (LANE_SCAN_STAT_ABORTED l) 1).setReg (LANE_SCAN_ERR l) (min e bits')
    (s.setReg (LANE_SCAN_BITS_LO l) (bits' % 2 ^ 32)).setReg (LANE_SCAN_BITS_HI l) (bits' / 2 ^ 32)

/-- The checker drops its lock. -/
def chkDrop (l : Lane) (s : Dev) : Dev :=
  (s.put (LANE_PRBS_STAT_CHK_LOCK l) 0).laneMod l fun x => { x with quarters := 0 }

/-- Block lock gained, `time` ns after signal detect (R457, R459). Raw patterns looped back give none (R465). -/
def blockLock (l : Lane) (time : Nat) (s : Dev) : Dev :=
  let raw := s.on (LANE_TEST_GEN_EN l) && !s.on (LANE_TEST_CODED l) && s.get (LANE_CTRL_LOOP l) = 1
  if !s.on (LANE_CTRL_EN l) || bit (s.reg LNK_LOCKED) l.val || raw then s
  else
    let s := s.setReg LNK_LOCKED (setBit (s.reg LNK_LOCKED) l.val true)
    let s := (s.put (LANE_STATE_STATE l) 3).put (LANE_STATE_SIGNAL l) 1
    laneUser l true (s.setReg (LANE_LOCK_TIME l) (min time 0xFFFFFF))

/-- Block lock lost through sync headers, or without signal (R458). -/
def lockLost (l : Lane) (signal : Bool) (s : Dev) : Dev :=
  if !bit (s.reg LNK_LOCKED) l.val then s
  else
    let s := s.setReg LNK_LOCKED (setBit (s.reg LNK_LOCKED) l.val false)
    let s := (s.put (LANE_STATE_STATE l) 2).put (LANE_STATE_SIGNAL l) (b2n signal)
    let s := s.count (LANE_LOCKS l) 1
    let fresh := !s.on (LANE_FLAGS_LOCK_LOSS l) || (!signal && !s.on (LANE_FLAGS_SIG_LOSS l))
    let s := s.put (LANE_FLAGS_LOCK_LOSS l) 1
    let s := if signal then s else s.put (LANE_FLAGS_SIG_LOSS l) 1
    let s := if fresh then occur (64 + l.val) l.val 0 s else s
    let s := if s.on (LANE_TEST_CODED l) then chkDrop l s else s
    laneUser l false (scanAbort l s)

/-- A write of LNK_l_CTRL (R456, R473): the other fields are locked while EN = 1, and EN is kept while in service. -/
def laneCtrl (l : Lane) (w : Nat) (s : Dev) : Dev :=
  let locked (s : Dev) : Dev := laneFlag l (LANE_FLAGS_WRITE_LOCKED l) s
  if s.on (LANE_CTRL_EN l) then
    if bit w 0 || s.inService l then locked s
    else
      let was := bit (s.reg LNK_LOCKED) l.val
      let s := scanAbort l (chkDrop l (s.put (LANE_CTRL_EN l) 0))
      let s := (s.setReg LNK_LOCKED (setBit (s.reg LNK_LOCKED) l.val false)).setReg (LANE_STATE l) 0
      let s := (s.put (LANE_PRBS_STAT_INJ_PEND l) 0).laneMod l fun x => { x with injLeft := 0 }
      if was then laneUser l false s else s
  else
    let s := s.setReg (LANE_CTRL l) (Nat.land w 0x11F37)
    if bit w 0 then
      (s.put (LANE_STATE_STATE l) 1).put (LANE_STATE_TEST l) (s.get (LANE_TEST_GEN_EN l))
    else s

/-- A write of LNK_l_TX (R461): locked as CTRL. -/
def laneTx (l : Lane) (w : Nat) (s : Dev) : Dev :=
  if s.on (LANE_CTRL_EN l) then laneFlag l (LANE_FLAGS_WRITE_LOCKED l) s else s.setReg (LANE_TX l) (Nat.land w 0x3F1F0F)

/-- A write of LNK_l_TEST (R466, R467): locked while the lane is in service. -/
def laneTest (l : Lane) (w : Nat) (s : Dev) : Dev :=
  if s.inService l then laneFlag l (LANE_FLAGS_WRITE_LOCKED l) s
  else
    let s := chkDrop l (s.setReg (LANE_TEST l) (w % 64))
    let s := s.put (LANE_STATE_TEST l) (b2n (bit w 0 && s.on (LANE_CTRL_EN l)))
    if bit w 1 then ((s.setReg (LANE_PRBS_ERR l) 0).setReg (LANE_PRBS_BITS_LO l) 0).setReg (LANE_PRBS_BITS_HI l) 0 else s

/-- The lane comes into service (R466): generator and checker stop. -/
def laneService (l : Lane) (s : Dev) : Dev :=
  chkDrop l (((s.put (LANE_TEST_GEN_EN l) 0).put (LANE_TEST_CHK_EN l) 0).put (LANE_STATE_TEST l) 0)

/-- A write of LNK_REF_CFG (R453). -/
def refCfg (w : Nat) (s : Dev) : Dev :=
  if s.stationLaneOn then writeLocked LNK_FLAGS_WRITE_LOCKED 82 0xFF s else s.setReg LNK_REF_CFG (w % 32)

/-! ### Eye scan (R463, R464) -/

/-- START: ignored while BUSY. -/
def scanStart (l : Lane) (s : Dev) : Dev :=
  if s.on (LANE_SCAN_STAT_BUSY l) then s
  else
    let s := ((s.setReg (LANE_SCAN_ERR l) 0).setReg (LANE_SCAN_BITS_LO l) 0).setReg (LANE_SCAN_BITS_HI l) 0
    (s.setReg (LANE_SCAN_STAT l) 1).laneMod l fun x => { x with scan := s.get (LANE_SCAN_CFG_DWELL l) }

/-- The counts of a scan that ends with so many bits compared. -/
def scanEnd (l : Lane) (n errors : Nat) (s : Dev) : Dev :=
  let s := (s.setReg (LANE_SCAN_BITS_LO l) (n % 2 ^ 32)).setReg (LANE_SCAN_BITS_HI l) (n / 2 ^ 32 % 65536)
  (s.setReg (LANE_SCAN_ERR l) (min (min errors n) 0xFFFFFFFF)).put (LANE_SCAN_STAT_BUSY l) 0

/-- The bits of the dwell latched at START: 2^20 to 2^40. -/
def Dev.dwellBits (s : Dev) (l : Lane) : Nat := 2 ^ clampN 20 40 (vat s.lanes l).scan

/-- STOP ends a scan early with what it has gathered. -/
def scanStop (l : Lane) (n errors : Nat) (s : Dev) : Dev :=
  if !s.on (LANE_SCAN_STAT_BUSY l) then s else scanEnd l (min n (s.dwellBits l)) errors s

/-- The dwell is complete. -/
def scanDone (l : Lane) (errors : Nat) (s : Dev) : Dev :=
  if !s.on (LANE_SCAN_STAT_BUSY l) then s
  else laneFlag l (LANE_FLAGS_SCAN_DONE l) ((scanEnd l (s.dwellBits l) errors s).put (LANE_SCAN_STAT_DONE l) 1)

/-! ### PRBS and injection (R465 to R469) -/

/-- 64 bits have matched: the checker locks. -/
def prbsLock (l : Lane) (s : Dev) : Dev :=
  if !s.on (LANE_TEST_CHK_EN l) || !s.on (LANE_CTRL_EN l) || (s.on (LANE_TEST_CODED l) && !bit (s.reg LNK_LOCKED) l.val) then s
  else s.put (LANE_PRBS_STAT_CHK_LOCK l) 1

/-- More than 512 of 1,024 bits mismatch: the checker drops lock and seeds itself again. -/
def prbsLoss (l : Lane) (mismatches : Nat) (s : Dev) : Dev :=
  if !s.on (LANE_PRBS_STAT_CHK_LOCK l) || mismatches ≤ 512 then s
  else laneFlag l (LANE_FLAGS_PRBS_ERR l) (chkDrop l (s.count (LANE_PRBS_ERR l) (min mismatches 1024)))

/-- Payload bits in error after the descrambler for `n` consecutive blocks altered in their first `len` line bits: each
line error shows at itself and 39 and 58 bits later, and copies that coincide cancel (R468). -/
def descrambled (n len : Nat) : Nat :=
  let e (i : Nat) : Bool := i < 64 * n && i % 64 < len
  (List.range (64 * n + 58)).countP fun i => (e i != (39 ≤ i && e (i - 39))) != (58 ≤ i && e (i - 58))

/-- What the lane's own checker counts for `n` altered blocks (R468). -/
def injectedErrors (coded : Bool) (kind len n : Nat) : Nat :=
  match kind with
  | 1 => if coded then descrambled n 1 else n
  | 2 => if coded then descrambled n len else n * len
  | 3 => if coded then 0 else n
  | _ => 0

/-- A write of LNK_l_INJECT (R468, R469). -/
def inject (l : Lane) (w : Nat) (s : Dev) : Dev :=
  if s.get DEV_LC_IN_FORCE = 2 && s.inService l then laneFlag l (LANE_FLAGS_WRITE_LOCKED l) s
  else if s.on (LANE_PRBS_STAT_INJ_PEND l) || bits w 1 0 = 0 || !s.on (LANE_CTRL_EN l) then s
  else
    let n := max 1 (bits w 23 16)
    let len := bits w 13 8 + 1
    let kind := bits w 1 0
    let s := (s.put (LANE_PRBS_STAT_INJ_PEND l) 1).laneMod l fun x => { x with injLeft := n, injKind := kind, injLen := len }
    if s.get (LANE_CTRL_LOOP l) ≠ 1 then s
    else
      let coded := s.on (LANE_TEST_CODED l) || !s.on (LANE_TEST_GEN_EN l)
      let s := if s.on (LANE_PRBS_STAT_CHK_LOCK l) then s.count (LANE_PRBS_ERR l) (injectedErrors coded kind len n) else s
      if kind = 3 && coded && bit (s.reg LNK_LOCKED) l.val then
        let s := s.count (LANE_SH_ERR l) n
        if s.lockLoss l ≤ n then lockLost l true s else s
      else s

/-- A tick of a lane: blocks leave altered, 78 of 6.4 ns in a tick, and a locked checker compares 5,156.25 line bits or
5,000 payload bits (R467, R468). -/
def laneTick (l : Lane) (s : Dev) : Dev :=
  let x := vat s.lanes l
  let s := if x.injLeft = 0 then s.put (LANE_PRBS_STAT_INJ_PEND l) 0
    else
      let k := min 78 x.injLeft
      let s := (s.count (LANE_INJ_COUNT l) k).laneMod l fun y => { y with injLeft := x.injLeft - k }
      if x.injLeft ≤ 78 then s.put (LANE_PRBS_STAT_INJ_PEND l) 0 else s
  if !s.on (LANE_PRBS_STAT_CHK_LOCK l) then s
  else
    let q := x.quarters + (if s.on (LANE_TEST_CODED l) then 20000 else 20625)
    let n := s.reg (LANE_PRBS_BITS_LO l) + s.reg (LANE_PRBS_BITS_HI l) % 65536 * 2 ^ 32 + q / 4
    let n := min n (2 ^ 48 - 1)
    let s := (s.setReg (LANE_PRBS_BITS_LO l) (n % 2 ^ 32)).setReg (LANE_PRBS_BITS_HI l) (n / 2 ^ 32)
    s.laneMod l fun y => { y with quarters := q % 4 }

/-- Every lane at a tick boundary. -/
def lanesTick (s : Dev) : Dev := (List.finRange 18).foldl (fun (t : Dev) (l : Fin 18) => laneTick l t) s

/-! ### PLL loss (R470, R471) -/

/-- The station lane PLL loses lock. -/
def stationPll (s : Dev) : Dev :=
  if !s.on LNK_STATUS_S_PLL_LOCK then s
  else
    let s := s.put LNK_STATUS_S_PLL_LOCK 0
    if s.stationLaneOn then fault 0x20 sevHalt 0xFF (flagEvent LNK_FLAGS_S_PLL_LOSS 82 0xFF 0x20 s) else s

/-- The chain lane PLL loses lock. -/
def chainPll (s : Dev) : Dev :=
  if !s.on LNK_STATUS_C_PLL_LOCK then s
  else
    let s := s.put LNK_STATUS_C_PLL_LOCK 0
    if s.chainLaneOn then fault 0x21 sevRetry 0xFF (flagEvent LNK_FLAGS_C_PLL_LOSS 83 0xFF 0x21 s) else s

/-! ### Chain enables (R466, R506) -/

/-- A write of NET_CTRL (R506): locked while a port is enabled, but for a write that clears an enable. -/
def netCtrl (w : Nat) (s : Dev) : Dev :=
  let on0 := s.on NET_CTRL_N0_EN
  let on1 := s.on NET_CTRL_N1_EN
  if on0 || on1 then
    if (on0 && !bit w 0) || (on1 && !bit w 1) then
      let s := if on0 && !bit w 0 then (frameLost 0 s).put NET_CTRL_N0_EN 0 else s
      if on1 && !bit w 1 then (frameLost 1 s).put NET_CTRL_N1_EN 0 else s
    else netLocked s
  else
    let s := s.setReg NET_CTRL (w % 32)
    let s := if bit w 0 then laneService 16 s else s
    let s := if bit w 1 then laneService 17 s else s
    portsKick s

end Sys2Proof.Machine
end

