-- ==== Sys2Proof/Machine/ShedOps.lean ====
section
/-!
DEFINITION. The Shed: the estimate (R99, R100), groups and candidates (R94, R95), the plume rule (R103, R104), the
allocation procedure (R101, R102), seams (R105 to R108), streams (R97, R98) and re-allocation (R117 to R122).
-/
namespace Sys2Proof.Machine

open Reg

/-! ### Pick records as the Shed reads them -/

/-- Word `i` of a record. -/
def wd (p : List Nat) (i : Nat) : Nat := p.getD i 0
def recTyp (p : List Nat) : Nat := wd p 0 % 16
def recZone (p : List Nat) : Nat := bits (wd p 0) 23 12
/-- The candidate mask of a selvedge pick, from word 0 of the layer file (R59, R94). -/
def recMask (p : List Nat) : Nat := bits (wd p 8) 31 24
def recSeamEnd (p : List Nat) : Bool := bit (wd p 0) 5
def recSeamStart (p : List Nat) : Bool := bit (wd p 0) 4
def recA (p : List Nat) : Int × Int := (sx 32 (wd p 1), sx 32 (wd p 2))
def recB (p : List Nat) : Int × Int := (sx 32 (wd p 3), sx 32 (wd p 4))
def recLine (p : List Nat) : Bool := recTyp p == 1 || recTyp p == 2 || recTyp p == 6
def distP (a b : Int × Int) : Nat := octLen (b.1 - a.1) (b.2 - a.2)

/-- A record of the layer file with its own word 0 kept behind it. -/
def tagged (w : List Nat) : List Nat := w.take 8 ++ [wd w 0]

/-! ### The estimate (R99, R100) -/

/-- The on-time of a pick, ns. -/
def onTime (p : List Nat) : Nat :=
  if recLine p then distP (recA p) (recB p) * 1000000 / wd p 5
  else if recTyp p = 4 then wd p 5 * 500
  else if recTyp p = 5 then (distP (recA p) (recB p) / wd p 7 + 1) * (wd p 5 % 65536) * 500
  else 0

/-- The cost of a pick, ns. -/
def pickCost (s : Dev) (p : List Nat) : Nat :=
  if recLine p then s.reg SHD_COST_RAMP_NS + onTime p
  else if recTyp p = 5 then onTime p + distP (recA p) (recB p) / wd p 7 * s.reg SHD_COST_PT_NS
  else onTime p

/-- The cost of a jump from `a` to `b`, ns. -/
def jumpCost (s : Dev) (a : Option (Int × Int)) (b : Int × Int) : Nat :=
  match a with
  | none => 0
  | some a =>
    let v := s.reg SHD_COST_VJUMP
    s.reg SHD_COST_JUMP_NS + (if v = 0 then 0 else distP a b * 1000000 / v)

/-- The laser-on window of a pick that starts at `t`. -/
def pickWindow (s : Dev) (p : List Nat) (t : Int) : List FireWindow :=
  let a := recA p
  let b := recB p
  if recLine p then
    let t0 := t + (s.reg SHD_COST_RAMP_NS / 2 : Nat)
    [⟨t0, t0 + onTime p, a.1, a.2, b.1, b.2⟩]
  else if recTyp p = 4 then [⟨t, t + pickCost s p, a.1, a.2, a.1, a.2⟩]
  else if recTyp p = 5 then [⟨t, t + pickCost s p, a.1, a.2, b.1, b.2⟩]
  else []

/-- A run of picks from position `pos` at time 0: its duration, its windows and where it ends (R99, R100). -/
def walk (s : Dev) : List (List Nat) → Option (Int × Int) → Int → List FireWindow → Int × List FireWindow × Option (Int × Int)
  | [], pos, t, ws => (t, ws, pos)
  | p :: ps, pos, t, ws =>
    if recTyp p = 0 then walk s ps pos t ws
    else if recTyp p = 3 then walk s ps (some (recB p)) t ws
    else
      let t := t + jumpCost s pos (recA p)
      walk s ps (some (recB p)) (t + pickCost s p) (ws ++ pickWindow s p t)

/-- The time of a list and its end (R100). -/
def listTime (s : Dev) (l : List (List Nat)) : Nat × Option (Int × Int) :=
  let (t, _, p) := walk s l none 0 []
  (t.toNat % 2 ^ 48, p)

/-! ### Groups and candidates (R93 to R95) -/

/-- Whether pick `p` joins the group that ends with `q` (R95). -/
def joins (q p : List Nat) : Bool :=
  recTyp q == 3 || (recTyp q == 2 && recTyp p == 2 && !recSeamEnd q && !recSeamStart p && recA p == recB q)

/-- The groups of a pick list, in order; END_OF_LIST belongs to none. -/
def groupsOf : List (List Nat) → List (List Nat) → List (List (List Nat))
  | [], [] => []
  | [], g => [g]
  | p :: ps, g =>
    if recTyp p = 0 then groupsOf ps g
    else match g.getLast? with
      | none => groupsOf ps [p]
      | some q => if joins q p && g.length < 64 then groupsOf ps (g ++ [p]) else g :: groupsOf ps [p]

/-- The stations of zone `z` in list order, in the values in force (R93); none where it is undefined. -/
def Dev.zoneList (s : Dev) (z : Nat) : List Nat :=
  if z = 0 || 4095 < z then []
  else (List.range (min 8 (s.get (SHD_ZONE_COUNT_COUNT z)))).map fun i => bits (s.reg (SHD_ZONE_STATIONS z)) (4 * i + 3) (4 * i)

/-- A point lies in the reach rectangle of station `n` (R118). -/
def Dev.reaches (s : Dev) (n : Nat) (p : Int × Int) : Bool :=
  s.regS (SHD_REACH_XMIN n) ≤ p.1 && p.1 ≤ s.regS (SHD_REACH_XMAX n) &&
    s.regS (SHD_REACH_YMIN n) ≤ p.2 && p.2 ≤ s.regS (SHD_REACH_YMAX n)

/-- The stations that take no work: retired ones (R123), those with ENABLE or the link's EN at 0 counting as such (R170,
R279). -/
def Dev.excludedMask (s : Dev) : Nat :=
  (List.range 16).foldl (fun (m : Nat) n =>
    if s.isRetired n || !s.on (SHT_CTRL_ENABLE n) || !s.on (LNK_WCTRL_EN n) then m + 2 ^ n else m) 0

/-- The Shed acts as with ENABLE = 0 (R128, R574). -/
def Dev.shedOff (s : Dev) : Bool := !s.on SHD_CTRL_ENABLE || s.isRetired 18

/-- The AND of the candidate masks of a group (R95). -/
def groupMask (g : List (List Nat)) : Nat := g.foldl (fun (m : Nat) p => Nat.land m (recMask p)) 0xFF

/-- The candidates of a group in list rank (R94, R118); none where its mask is empty (SHED_GROUP). -/
def candidates (s : Dev) (ps : ShedPass) (g : List (List Nat)) : Option (List Nat) :=
  let free (n : Nat) : Bool := !bit ps.excluded n
  match g with
  | [] => some []
  | p :: _ =>
    if recZone p = 0 then
      if !s.on SHD_CTRL_OWN_TAKEOVER then some []
      else some ((List.range 16).filter fun n => free n && g.all fun q => (recTyp q == 3 || s.reaches n (recA q)) && s.reaches n (recB q))
    else
      let m := groupMask g
      if m = 0 then none
      else
        let l := s.zoneList (recZone p)
        some (((List.range l.length).filter fun i => bit m i && free (l.getD i 0)).map fun i => l.getD i 0)

/-! ### The plume rule (R103, R104) -/

/-- cone(a→b) for the vector from a to b. -/
def inCone (gas tan len : Nat) (dx dy : Int) : Bool :=
  let c := sx 16 gas
  let d := sx 16 (gas / 65536)
  let u := asr (dx * c + dy * d) 15
  let w := asr (dx * d - dy * c) 15
  0 ≤ u && u ≤ ((len * 1000 : Nat) : Int) && ((w.natAbs * 65536 : Nat) : Int) ≤ u * (tan : Nat)

/-- R103 for spots `a` and `b`: keep-out radius in µm and the cone. -/
def plumeBreaks (keep gas tan len : Nat) (a b : Int × Int) : Bool :=
  let dx := b.1 - a.1
  let dy := b.2 - a.2
  let k : Int := (keep * 1000 : Nat)
  dx * dx + dy * dy < k * k || inCone gas tan len dx dy || inCone gas tan len (-dx) (-dy)

/-- The position in a window at instant `t` (R104). -/
def FireWindow.at (w : FireWindow) (t : Int) : Int × Int :=
  if w.t0 = w.t1 then (w.px, w.py)
  else (w.px + Int.tdiv ((w.qx - w.px) * (t - w.t0)) (w.t1 - w.t0), w.py + Int.tdiv ((w.qy - w.py) * (t - w.t0)) (w.t1 - w.t0))

/-- Two windows break the rule at one of the K instants of their overlap (R104). -/
def windowsBreak (s : Dev) (a b : FireWindow) : Bool :=
  let lo := max a.t0 b.t0
  let hi := min a.t1 b.t1
  if hi < lo then false
  else
    let k := max 3 (s.reg SHD_PLUME_SAMPLES % 16)
    let ts := if lo = hi then [lo] else (List.range k).map fun i => lo + (hi - lo) * (i : Nat) / ((k - 1 : Nat) : Int)
    ts.any fun t =>
      plumeBreaks (s.reg SHD_KEEPOUT + s.reg SHD_PLAN_MARGIN) (s.reg SHD_GAS_DIR) (s.reg SHD_CONE_TAN % 65536)
        (s.reg SHD_CONE_LEN) (a.at t) (b.at t)

/-! ### The allocation procedure (R101, R102) -/

/-- What a pass has done so far. -/
structure ShedAcc where
  load : Vector Nat 16
  pos : Vector (Option (Int × Int)) 16
  hist : Vector (List FireWindow) 16
  /-- output lists, newest first; each record with the index of the pick it comes from, none for a wait -/
  out : Vector (List (Option Nat × List Nat)) 16
  next : Nat
  waits : Nat
  unresolved : Nat
  orphans : Nat
  badGroups : Nat

/-- The start of a pass. -/
def ShedAcc.init (ps : ShedPass) : ShedAcc :=
  ⟨vrep 16 0, ps.pos, vrep 16 [], vrep 16 [], 0, 0, 0, 0, 0⟩

/-- A station number as an index. -/
def stn (n : Nat) : Station := ⟨n % 16, Nat.mod_lt _ (by decide)⟩

/-- A window delayed by `d` ns. -/
def FireWindow.later (w : FireWindow) (d : Int) : FireWindow := ⟨w.t0 + d, w.t1 + d, w.px, w.py, w.qx, w.qy⟩

/-- The last 16 windows (R102). -/
def lastWindows (l : List FireWindow) : List FireWindow := l.drop (l.length - 16)

/-- The windows in the histories of other stations that break the rule against windows `ws` of station `n` delayed by
`w`. -/
def conflicts (s : Dev) (a : ShedAcc) (n : Nat) (ws : List FireWindow) (w : Nat) : List FireWindow :=
  (List.range 16).flatMap fun o =>
    if o = n then []
    else (vat a.hist (stn o)).filter fun h =>
      ws.any fun (x : FireWindow) => windowsBreak s (x.later w) h

/-- Word 0 of an output pick (R97): the station, ZONE, FLAGS and TYPE, and ALLOCATED. -/
def outWord0 (w0 n : Nat) : Nat := putBits (setBit w0 10 true) 31 24 n

/-- place(G, s, w) of R101. -/
def placeGroup (g : List (List Nat)) (n w : Nat) (dur : Int) (ws : List FireWindow) (endAt : Option (Int × Int))
    (a : ShedAcc) : ShedAcc :=
  let i := stn n
  let out := (List.range g.length).map fun k =>
    let p := g.getD k []
    ((some (a.next + k) : Option Nat), outWord0 (wd p 0) n :: (p.drop 1))
  let at' := match vat a.pos i with
    | some p => p
    | none => match g.find? (recTyp · ≠ 3) with | some p => recA p | none => (0, 0)
  let x := wrapN 32 at'.1
  let y := wrapN 32 at'.2
  let w0 := outWord0 (4 + 0x80 + 0x200 + recZone (g.headD []) * 4096) n
  let wait : List (Option Nat × List Nat) := if 0 < w then [(none, [w0, x, y, x, y, w / 500, 0, 0, w0])] else []
  { a with
    out := vmod a.out i fun l => (wait ++ out).reverse ++ l
    load := vmod a.load i fun l => l + w + dur.toNat
    pos := vput a.pos i endAt
    hist := vmod a.hist i fun l => lastWindows (l ++ ws.map fun (x : FireWindow) => x.later w)
    waits := a.waits + b2n (decide (0 < w)) }

/-- The waits of R101, at most `k` more: the wait that resolves the conflict, none where there is none. -/
def tryWaits (s : Dev) (a : ShedAcc) (n : Nat) (ws : List FireWindow) (first : Int) : Nat → Nat → List FireWindow → Option Nat
  | 0, _, _ => none
  | k + 1, w, bad =>
    let latest := bad.foldl (fun (m : Int) h => max m h.t1) (first + w)
    let w := w + divUp (latest - (first + w)).toNat 500 * 500
    if s.reg SHD_MAX_WAIT * 1000 < w then none
    else match conflicts s a n ws w with
      | [] => some w
      | bad => tryWaits s a n ws first k w bad

/-- One group (R101). -/
def allocGroup (s : Dev) (ps : ShedPass) (a : ShedAcc) (g : List (List Nat)) : ShedAcc :=
  let cs := if s.shedOff then some [] else candidates s ps g
  let a' :=
    match cs with
    | none => { a with orphans := a.orphans + g.length, badGroups := a.badGroups + 1 }
    | some [] => { a with orphans := a.orphans + g.length }
    | some (c :: cs) =>
      let info (n : Nat) : Int × List FireWindow × Option (Int × Int) :=
        let base : Int := vat ps.origin (stn n) + vat a.load (stn n)
        let (t, ws, p) := walk s g (vat a.pos (stn n)) 0 []
        (t, ws.map (fun (x : FireWindow) => x.later base), p)
      let rows := (c :: cs).map fun n => (n, info n)
      let fa (r : Nat × Int × List FireWindow × Option (Int × Int)) : Int :=
        ((vat ps.finish (stn r.1) + vat a.load (stn r.1) : Nat) : Int) + r.2.1
      let sorted := rows.mergeSort fun x y => decide (fa x ≤ fa y)
      let ok (r : Nat × Int × List FireWindow × Option (Int × Int)) : Bool :=
        !s.on SHD_CTRL_PLUME_EN || (conflicts s a r.1 r.2.2.1 0).isEmpty
      match sorted.find? ok, sorted with
      | some r, _ => placeGroup g r.1 0 r.2.1 r.2.2.1 r.2.2.2 a
      | none, r :: _ =>
        let ws := r.2.2.1
        let first := match ws with | x :: t => t.foldl (fun (m : Int) (y : FireWindow) => min m y.t0) x.t0 | [] => 0
        match tryWaits s a r.1 ws first 4 0 (conflicts s a r.1 ws 0) with
        | some w => placeGroup g r.1 w r.2.1 ws r.2.2.2 a
        | none => { placeGroup g r.1 0 r.2.1 ws r.2.2.2 a with unresolved := a.unresolved + 1 }
      | none, [] => a
  { a' with next := a.next + g.length }

/-- A pass over its first `k` groups. -/
def runGroups (s : Dev) (ps : ShedPass) (k : Nat) : ShedAcc := (ps.groups.take k).foldl (allocGroup s ps) (ShedAcc.init ps)

/-! ### Seams (R105 to R108) -/

/-- The dither of seam `j` of zone `z` (R106), nm. -/
def dither (s : Dev) (layer z j : Nat) : Int :=
  let h := (s.reg SHD_DITHER_SEED + layer * 0x9E3779B1 + z * 0x85EBCA77 + j * 0xC2B2AE3D) % 2 ^ 32
  let h := Nat.xor h (h / 2 ^ 15)
  let a := s.reg SHD_DITHER_NM % 2 ^ 24
  ((h % (2 * a + 1) : Nat) : Int) - (a : Nat)

/-- The moved ends of a seam pair (R107): end of the first piece and start of the second, none where the move is
skipped. -/
def seamMove (s : Dev) (p q : List Nat) (d : Int) : Option ((Int × Int) × (Int × Int)) :=
  let a := recA p
  let m := recB p
  let b := recB q
  let ux := m.1 - a.1
  let uy := m.2 - a.2
  let vx := b.1 - m.1
  let vy := b.2 - m.2
  let o := s.reg SHD_SEAM_OVERLAP
  if ux * vy - uy * vx ≠ 0 || ux * vx + uy * vy ≤ 0 then none
  else
    let n := F64.sqrt (F64.add (F64.mul (F64.ofInt ux) (F64.ofInt ux)) (F64.mul (F64.ofInt uy) (F64.ofInt uy)))
    let step (u : Int) (k : Int) : Int := F64.nearest (F64.mul (F64.div (F64.ofInt u) n) (F64.ofScaled k (-1)))
    let k1 := 2 * d + (o : Nat)
    let k2 := 2 * d - (o : Nat)
    let e := (m.1 + step ux k1, m.2 + step uy k1)
    let f := (m.1 + step ux k2, m.2 + step uy k2)
    let len (x y : Int × Int) : Nat := if (y.1 - x.1) * ux + (y.2 - x.2) * uy ≤ 0 then 0 else distP x y
    if len a e < o || len f b < o then none else some (e, f)

/-- The station and output record of each pick placed, by pick index. -/
def ShedAcc.placed (a : ShedAcc) (i : Nat) : Option Station :=
  (List.finRange 16).find? fun n => (vat a.out n).any (·.1 == some i)

/-- A change of the output record of pick `i`. -/
def ShedAcc.edit (a : ShedAcc) (n : Station) (i : Nat) (f : List Nat → List Nat) : ShedAcc :=
  { a with out := vmod a.out n fun l => l.map fun r => if r.1 == some i then (r.1, f r.2) else r }

/-- Words `k` and `k + 1` of a record replaced by a point. -/
def setPoint (k : Nat) (p : Int × Int) (w : List Nat) : List Nat := (w.set k (wrapN 32 p.1)).set (k + 1) (wrapN 32 p.2)

/-- The seams of the picks of a pass, from index `i` on: seam numbers by zone, seams moved, flags ignored and moves
skipped (R105 to R108). -/
def seams (s : Dev) (layer : Nat) : Nat → List (List Nat) → Bool → List (Nat × Nat) → ShedAcc × Nat × Nat → ShedAcc × Nat × Nat
  | _, [], _, _, r => r
  | i, p :: ps, paired, nos, (a, moved, skipped) =>
    let sel := recZone p ≠ 0
    let skipped := if sel && recSeamStart p && !paired then skipped + 1 else skipped
    match ps with
    | [] => (a, moved, if sel && recSeamEnd p then skipped + 1 else skipped)
    | q :: _ =>
      let pair := sel && recZone q ≠ 0 && recSeamEnd p && recSeamStart q && recA q == recB p
      if !pair then seams s layer (i + 1) ps false nos (a, moved, if sel && recSeamEnd p then skipped + 1 else skipped)
      else
        let z := recZone p
        let j := ((nos.find? (·.1 == z)).map (·.2)).getD 0
        let nos := (z, j + 1) :: nos.filter (·.1 ≠ z)
        let r := match a.placed i, a.placed (i + 1) with
          | some m, some n =>
            if m = n || !s.on SHD_CTRL_INTERLACE_EN then (a, moved, skipped)
            else match seamMove s p q (dither s layer z j) with
              | none => (a, moved, skipped + 1)
              | some (e, f) => ((a.edit m i (setPoint 3 e)).edit n (i + 1) (setPoint 1 f), moved + 1, skipped)
          | _, _ => (a, moved, skipped)
        seams s layer (i + 1) ps true nos r

/-! ### Passes (R67, R96, R98, R118 to R122) -/

def Dev.shdMod (s : Dev) (f : Shed → Shed) : Dev := { s with shd := f s.shd }

/-- The result of the running pass: the lists, the seams moved and the seam flags and moves skipped. -/
def passResult (s : Dev) (ps : ShedPass) : ShedAcc × Nat × Nat :=
  let a := runGroups s ps ps.groups.length
  seams s (vat s.trd.slots ps.slot).layerNo 0 ps.groups.flatten false [] (a, 0, 0)

/-- The counters of a pass restart at its start (R126). -/
def passCounters (s : Dev) : Dev :=
  [SHD_PICKS_DONE, SHD_WAITS, SHD_UNRESOLVED, SHD_SEAMS, SHD_SEAM_SKIP].foldl (fun (t : Dev) a => t.setReg a 0) s

/-- A pass begins: values commit (R126, R584), status and counters (R129). -/
def passBegin (ps : ShedPass) (s : Dev) : Dev :=
  let s := passCounters s
  let s := (s.put SHD_STATUS_SLOT ps.slot.val).put SHD_STATUS_PASS (if ps.again then 2 else 1)
  s.shdMod fun x => { x with pass := some ps }

/-- An event `n` times. -/
def occurTimes (n e inst code : Nat) (s : Dev) : Dev := Nat.repeat (occur e inst code) n s

/-- What a completed pass reports: counters, faults, events, F[n] (R95, R101, R105, R107, R126). -/
def passReport (ps : ShedPass) (a : ShedAcc) (moved skipped : Nat) (s : Dev) : Dev :=
  let i := ps.slot.val
  let s := (((((s.setReg SHD_PICKS_DONE a.next).setReg SHD_WAITS a.waits).setReg SHD_UNRESOLVED a.unresolved).setReg SHD_SEAMS
    moved).setReg SHD_SEAM_SKIP skipped).put SHD_STATUS_PASS 0
  let s := (List.finRange 16).foldl (fun (t : Dev) (n : Station) =>
    t.setReg (SHD_EST n) ((vat ps.finish n + vat a.load n) / 1000)) s
  let s := Nat.repeat (fun t => faultEvent 0x38 sevInfo i 115 (t.put SHD_FLAGS_GROUP 1)) a.badGroups s
  let s := Nat.repeat (fun t => faultEvent 0x3A sevInfo i 116 (t.put SHD_FLAGS_UNRESOLVED 1)) a.unresolved s
  if skipped = 0 then s else occurTimes skipped 117 i 0 (s.put SHD_FLAGS_SEAM_SKIP 1)

/-- Orphaned picks reported to the Treadle (R75, R119): counted in the slot, and for the active layer in the registers. -/
def reportOrphans (i : Slot) (k : Nat) (s : Dev) : Dev :=
  if k = 0 then s
  else
    let s := s.slotMod i fun x => { x with orphans := x.orphans + k }
    let s := if s.layerActive && s.activeSlot == i then (s.count TRD_ORPHANS k).count SHD_ORPHANS k else s
    faultEvent 0x37 sevInfo i.val 108 s

/-- The slot fails for capacity (R96). -/
def capacity (i : Slot) (s : Dev) : Dev :=
  faultEvent 0x39 sevInfo i.val 121 ((failSlot i s).put SHD_FLAGS_CAPACITY 1)

/-- The slot that the Shed takes next (R67, R121): the lowest layer number among VALID slots and those to be allocated
again. -/
def Dev.shedNext (s : Dev) : Option Slot :=
  (List.finRange 3).foldl (fun best i =>
    if s.slotState i = 2 || s.slotState i = 3 then
      match best with
      | none => some i
      | some b => if (vat s.trd.slots i).layerNo < (vat s.trd.slots b).layerNo then some i else best
    else best) none

/-- SHED_PASS_START (R67, R100, R126). -/
def shedStart (s : Dev) : Dev :=
  match s.shd.pass, s.shedNext with
  | none, some i =>
    let s := setSlotState i 3 (s.commit .pass 0 (2 ^ 32))
    let x := vat s.trd.slots i
    let picks := (x.selv.filter (recTyp · ≠ 0)).map tagged
    if 4194304 < picks.length then capacity i s
    else
      let own : Vector (Nat × Option (Int × Int)) 16 := Vector.ofFn fun n => listTime s (vat x.own n)
      let sel := s.on SHD_CTRL_SEL_ORDER
      let t := Vector.map (·.1) own
      passBegin ⟨false, i, groupsOf picks [], t, if sel then Vector.map (·.2) own else vrep 16 none,
        if sel then t else vrep 16 0, s.excludedMask, vrep 16 []⟩ s
  | _, _ => s

/-- The lists of a result, in order. -/
def ShedAcc.list (a : ShedAcc) (n : Station) : List (List Nat) := ((vat a.out n).map (·.2)).reverse

/-- The streams of a slot (R98): the allocated lists, the own lists, and END_OF_LIST. -/
def streamOf (sel : Bool) (own alloc : List (List Nat)) : List (List Nat) :=
  let body := (own.filter (recTyp · ≠ 0)).map tagged
  let last := (own.filter (recTyp · = 0)).map tagged
  (if sel then body ++ alloc else alloc ++ body) ++ last

/-- ALLOC_DONE (R98, R112 of the events, R125): the slot becomes ALLOCATED, or fails for capacity. -/
def allocDone (s : Dev) : Dev :=
  match s.shd.pass with
  | some ps =>
    if ps.again then s
    else
      let (a, moved, skipped) := passResult s ps
      let i := ps.slot
      let x := vat s.trd.slots i
      let size := ((List.finRange 16).map fun n => 32 * (vat a.out n).length).sum
      let body := leAt x.header 0x2C 4
      let s := s.shdMod fun y => { y with pass := none }
      let s := if (vat s.flt.recovery 18).any (·.code == 0x11) then recovered 18 s else s
      if s.slotState i ≠ 3 then s.put SHD_STATUS_PASS 0
      else if s.reg TRD_SLOT_SIZE % 4096 * 1048576 < divUp body 4096 * 4096 + size then capacity i (s.put SHD_STATUS_PASS 0)
      else
        let sel := s.on SHD_CTRL_SEL_ORDER
        let streams := Vector.ofFn fun n => streamOf sel (vat x.own n) (a.list n)
        let s := s.slotMod i fun y =>
          { y with stream := streams, plan := streams, tOwn := ps.finish, selOrder := sel, included := 0xFFFF - ps.excluded % 0x10000,
                   orphans := 0 }
        let s := passReport ps a moved skipped (setSlotState i 4 s)
        reportOrphans i a.orphans (occur 112 i.val 0 s)
  | none => s

/-! ### The remaining work of a station (R117) -/

/-- A copy of a record that starts at the interruption point, and what comes after; and the picks it skips (R117). -/
def interrupted (i : Interruption) (x : Shuttle) (p : List Nat) : List (List Nat) × Nat :=
  let k := i.elem.pick
  if i.elem.kind = .runOut then ([], 0)
  else if k.typ = 5 then
    let begun := x.trail.any fun y => y.1.pick.idx == k.idx && y.1.laser
    if !begun && !i.laser then ([p], 0)
    else if k.noRepick then ([], 1)
    else
      let q := if i.laser then P2.add i.elem.p (P2.scale i.elem.u (F64.ofInt (max k.w7 1))) else i.elem.endPt
      if i.laser && i.elem.again = 0 then ([], 0)
      else ([setPoint 1 (F64.nearest q.x, F64.nearest q.y) p], 0)
  else if !i.laser then ([p], 0)
  else if k.noRepick then ([], 1)
  else if k.typ = 4 then ([p.set 5 i.ticksLeft], 0)
  else
    let (q, _) := i.elem.at (i.s - i.base)
    ([setPoint 1 (F64.nearest q.x, F64.nearest q.y) p], 0)

/-- The stream index from which nothing of station `n` has been scanned, and what stands for the interrupted pick. -/
def Dev.remainingWork (s : Dev) (n : Station) : List (List Nat) × Nat :=
  let x := s.shtl n
  let st := vat (vat s.trd.slots s.activeSlot).stream n
  if !x.started then (st, 0)
  else match x.intr with
    | some i =>
      let (now, skipped) := match st[i.elem.pick.idx]? with | some p => interrupted i x p | none => ([], 0)
      (now ++ st.drop (i.elem.pick.idx + 1), skipped)
    | none =>
      let idx := match x.plan, x.queue with
        | e :: _, _ => if e.kind = .runOut then e.pick.idx + 1 else e.pick.idx
        | [], q :: _ => q.idx
        | [], [] => x.taken
      (st.drop idx, 0)

/-- The picks of a survivor from its current one onward (R118). -/
def Dev.onward (s : Dev) (n : Station) : List (List Nat) := (s.remainingWork n).1

/-! ### Re-allocation (R118 to R122) -/

/-- A station retires: its remaining work waits for a pass, and the allocations that include it are repeated (R121,
R573). -/
def shedRetire (n : Station) (s : Dev) : Dev :=
  let live := s.layerActive && decide (2 ≤ s.trdState && s.trdState ≤ 7)
  let s := if live then s.shdMod fun x => { x with request := Nat.lor x.request (2 ^ n.val) } else s
  let s := (List.finRange 3).foldl (fun (t : Dev) (i : Slot) =>
    if t.slotState i = 4 && bit (vat t.trd.slots i).included n.val then setSlotState i 3 t else t) s
  match s.shd.pass with
  | some ps => if !ps.again && !bit ps.excluded n.val then
      -- the running allocation pass begins again without the station
      (s.shdMod fun x => { x with pass := none }).put SHD_STATUS_PASS 0
    else s
  | none => s

/-- REALLOC_START (R118, R121, R122). `placed` is how many groups a running re-allocation pass has placed when it
stops. -/
def reallocStart (placed : Nat) (s : Dev) : Dev :=
  if s.shd.request = 0 || !s.layerActive then s
  else
    let i := s.activeSlot
    let req := s.shd.request
    let news := (List.finRange 16).filter fun (n : Station) => bit req n.val
    -- a running re-allocation pass stops: what it placed stays placed, what it did not comes first (R122)
    let (kept, unplaced, s) : Vector (List (List Nat)) 16 × List (List (List Nat)) × Dev := match s.shd.pass with
      | some ps =>
        if ps.again then
          let a := runGroups s ps placed
          (Vector.ofFn fun n => vat ps.tails n ++ a.list n, ps.groups.drop placed, reportOrphans i a.orphans s)
        else (vrep 16 [], [], s)
      | none => (vrep 16 [], [], s)
    let works := news.map fun n => (n, s.remainingWork n)
    let skipped := (works.map (·.2.2)).sum
    let picks := works.flatMap fun w => w.2.1 ++ vat kept w.1
    let kept : Vector (List (List Nat)) 16 := Vector.ofFn fun n => if bit req n.val then [] else vat kept n
    let s := s.commit .pass 0 (2 ^ 32)
    -- the retired stations' streams end here
    let s := news.foldl (fun (t : Dev) (n : Station) =>
      setStream n [] (t.shtMod n fun x => { x with queue := [], plan := [], sawEnd := true })) s
    let s := s.count SHD_SKIPPED skipped
    let released := (List.finRange 16).foldl (fun (m : Nat) (n : Station) =>
      if (s.shtl n).sawEnd || s.crl.ended.contains n.val then Nat.lor m (2 ^ n.val) else m) 0
    let ex := Nat.lor s.excludedMask released
    let x := vat s.trd.slots i
    let rest : Vector (Nat × Option (Int × Int)) 16 := Vector.ofFn fun n =>
      if bit ex n.val then (0, none) else listTime s (s.onward n ++ vat kept n)
    let f := Vector.map (·.1) rest
    let origin := if x.selOrder then f else Vector.ofFn fun n => vat f n - vat x.tOwn n
    let ps : ShedPass := ⟨true, i, unplaced ++ groupsOf (picks.filter (recTyp · ≠ 0)) [], f, Vector.map (·.2) rest, origin,
      ex, kept⟩
    let s := passBegin ps (s.shdMod fun x => { x with request := 0 })
    occur 113 i.val 0 s

/-- REALLOC_DONE (R98, R119, R120, R125): the tail lists are closed and streamed. -/
def reallocDone (s : Dev) : Dev :=
  match s.shd.pass with
  | some ps =>
    if !ps.again then s
    else
      let (a, moved, skipped) := passResult s ps
      let i := ps.slot
      let s := s.shdMod fun y => { y with pass := none }
      let s := (List.finRange 16).foldl (fun (t : Dev) (n : Station) =>
        let tail := vat ps.tails n ++ a.list n
        let add (l : List (List Nat)) : List (List Nat) := l.dropLast ++ tail ++ l.drop (l.length - 1)
        if tail.isEmpty then t
        else t.slotMod i fun y => { y with stream := vmod y.stream n add, plan := vmod y.plan n add }) s
      let s := passReport ps a moved skipped s
      let s := occur 114 i.val 0 (reportOrphans i a.orphans s)
      (List.finRange 16).foldl (fun (t : Dev) (n : Station) => feed n t) s
  | none => s

end Sys2Proof.Machine
end

