-- ==== Sys2Proof/Machine/MonitorOps.lean ====
section
/-!
DEFINITION. The spot-separation monitor (R109 to R116, R131).
-/
namespace Sys2Proof.Machine

open Reg

/-- Emission is planned in one of the next `k` ticks. -/
def firesAhead (c : PathCfg) : Nat → Shuttle → Bool
  | 0, _ => false
  | k + 1, x =>
    let y := planTick c x
    (exposed x y).isSome || firesAhead c k y

/-- The station is on its path and free to emit. -/
def Dev.mayFire (s : Dev) (n : Station) : Bool :=
  let x := s.shtl n
  s.onPath n && s.trdState = tScan && !x.stopping && x.intr.isNone && !x.held

/-- The station is firing in period `p` or has emission planned within `look` periods after it (R109), seen from tick
phase 2. -/
def Dev.firing (s : Dev) (n : Station) (p look : Nat) : Bool :=
  s.mayFire n && ((List.range 3).any (fun i => s.tickOn n (4 * p + i)) || firesAhead (s.runCfg n) (1 + 4 * look) (s.shtl n))

/-- The plume values latched for the monitor at a period boundary (R126). -/
def monLatch (s : Dev) : Dev :=
  s.shdMod fun x => { x with plume := [s.reg SHD_KEEPOUT, s.reg SHD_GAS_DIR, s.reg SHD_CONE_TAN % 65536, s.reg SHD_CONE_LEN] }

/-- R103 with m = 0, in the values latched. -/
def Dev.monBreaks (s : Dev) (a b : Int × Int) : Bool :=
  let g (i : Nat) : Nat := s.shd.plume.getD i 0
  plumeBreaks (g 0) (g 1) (g 2) (g 3) a b

/-- What the monitor uses of a firing station: its actual and its predicted position (R109). -/
structure Spot where
  n : Station
  actual : Int × Int
  ahead : Int × Int

/-- The planned motion of station `n` over period `p` (R109): b_p − b_(p−1). -/
def Dev.planned (s : Dev) (n : Station) (p : Nat) : Int × Int :=
  let b := (s.shtl n).bpts
  match b.find? (·.period == p), b.find? (·.period == p - 1) with
  | some c, some d => (c.x - d.x, c.y - d.y)
  | _, _ => (0, 0)

/-- The positions of station `n` for period `p`; none where the actual one is SUSPECT or INVALID (R109, R110). -/
def Dev.spot (s : Dev) (n : Station) (p look : Nat) : Option Spot :=
  let acts := (vat s.mpl.st n).acts
  match acts.find? (·.1 == p) with
  | none => none
  | some (_, x, y, q) =>
    if q = qSuspect || q = qInvalid then none
    else
      let d : Int × Int := match acts.find? (·.1 == p - 1), (s.shtl n).prevOk with
        | some (_, x', y', q'), true => if q' ≤ qStale then (x - x', y - y') else s.planned n p
        | _, _ => s.planned n p
      some ⟨n, (x, y), (x + d.1 * (look : Nat), y + d.2 * (look : Nat))⟩

/-- The lower priority of R111 compares as greater: PRIO, start of the laser-on segment, index. -/
def Dev.rank (s : Dev) (n : Station) : Nat × Nat × Nat :=
  let r := if n.val < 8 then s.reg SHD_MON_PRIO_LO else s.reg SHD_MON_PRIO_HI
  (bits r (4 * (n.val % 8) + 3) (4 * (n.val % 8)), (s.shtl n).segStart, n.val)

/-- Rank `a` is a higher priority than `b`. -/
def rankLt (a b : Nat × Nat × Nat) : Bool :=
  a.1 < b.1 || (a.1 == b.1 && (a.2.1 < b.2.1 || (a.2.1 == b.2.1 && a.2.2 < b.2.2)))

/-- SHD_MON_HELD shows the stations held. -/
def showHeld (s : Dev) : Dev :=
  s.setReg SHD_MON_HELD ((List.finRange 16).foldl (fun (m : Nat) (n : Station) => if (s.shtl n).held then m + 2 ^ n.val else m) 0)

/-- A station is held (R111, R112, R113): the laser goes off 2,100 ns after the sample of period `p`. -/
def hold (p : Nat) (n : Station) (s : Dev) : Dev :=
  let s := shtCutIn n (4 * p + 4) 100 s
  let s := s.shtMod n fun x => { x with held := true, blank := true }
  let s := s.shdMod fun x =>
    { x with since := vput x.since n s.t0.nanos, starved := vput x.starved n false, clear := vput x.clear n 0 }
  showHeld (occur 118 n.val 0 (s.count (SHD_MON_BLANKS n) 1))

/-- A hold ends (R113, R116): the Shuttle re-picks from its interruption point. -/
def release (n : Station) (s : Dev) : Dev :=
  if (s.shtl n).held then
    showHeld (occur 119 n.val 0 (s.shtMod n fun x => { x with held := false, blank := false }))
  else s

/-- Every hold ends (R116, R131). -/
def releaseAll (s : Dev) : Dev := (List.finRange 16).foldl (fun (t : Dev) (n : Station) => release n t) s

/-- The interruption point of a held station as a bed point (R113). -/
def Dev.heldPoint (s : Dev) (n : Station) : Int × Int :=
  let x := s.shtl n
  let p := match x.intr with | some i => (i.elem.at (i.s - i.base)).1 | none => (x.point).1
  (F64.nearest p.x, F64.nearest p.y)

/-- PLUME_STARVE (R114): station `n` has been held longer than SHD_MON_MAXHOLD; once per hold. -/
def plumeStarve (n : Station) (s : Dev) : Dev :=
  if (s.shtl n).held && !vat s.shd.starved n && decide (vat s.shd.since n + s.reg SHD_MON_MAXHOLD * 1000 < s.t0.nanos) then
    let s := s.shdMod fun x => { x with starved := vput x.starved n true }
    faultEvent 0x3B sevInfo n.val 120 (s.put SHD_FLAGS_STARVE 1)
  else s

/-- The monitor's evaluation of period `p` (R109 to R113). -/
def monitor (p : Nat) (s : Dev) : Dev :=
  if s.trdState ≠ tScan || !s.on SHD_MON_CTRL_MON_EN then s
  else
    let look := s.get SHD_MON_CTRL_LOOK
    let firing := (List.finRange 16).filter fun (n : Station) => s.firing n p look
    let spots := firing.filterMap fun n => s.spot n p look
    let unknown := firing.filter fun n => (s.spot n p look).isNone && s.firing n p 0
    let bad (a b : Spot) : Bool := s.monBreaks a.actual b.actual || s.monBreaks a.ahead b.ahead
    -- a station yields when it conflicts with one of higher priority
    let yields := spots.filter fun a => spots.any fun b => a.n ≠ b.n && bad a b && rankLt (s.rank b.n) (s.rank a.n)
    let new := (List.finRange 16).filter fun (n : Station) => unknown.contains n || yields.any (·.n == n)
    let was := (List.finRange 16).filter fun (n : Station) => (s.shtl n).held
    let s := new.foldl (fun (t : Dev) n => hold p n t) s
    let live := spots.filter fun (a : Spot) => !new.contains a.n
    let s := was.foldl (fun (t : Dev) (n : Station) =>
      let q := t.heldPoint n
      let hit := live.any fun (a : Spot) => t.monBreaks q a.actual || t.monBreaks q a.ahead
      t.shdMod fun x => { x with clear := vmod x.clear n fun k => if hit then 0 else k + 1 }) s
    let ready := was.filter fun n => max 1 (s.get SHD_MON_CTRL_CLEAR) ≤ vat s.shd.clear n
    let best := ready.foldl (fun (b : Option Station) n =>
      match b with
      | none => some n
      | some m => if rankLt (s.rank n) (s.rank m) then some n else b) none
    match best with
    | some n => release n s
    | none => s

/-- MONITOR_DISABLE (R131): MON_EN is written 0. -/
def monitorOff (s : Dev) : Dev := releaseAll (s.put SHD_MON_CTRL_MON_EN 0)

end Sys2Proof.Machine
end

