-- ==== Sys2Proof/Machine/FaultOps.lean ====
section
/-!
DEFINITION. The fault unit's handlers (R569 to R579), retirement (R572 to R575), HALT (R576) and the emission gate (R580 to
R583).
-/
namespace Sys2Proof.Machine

open Reg

def Dev.fltMod (s : Dev) (f : FaultUnit → FaultUnit) : Dev := { s with flt := f s.flt }

/-! ### Retirement (R573, R574) -/

/-- A station is retired (R573): the fault code that retires it says whether its loops go off (R197). -/
def retireStation (n : Station) (code : Nat) (s : Dev) : Dev :=
  if s.isRetired n.val then s
  else
    let s := shtCut n (release n s)
    let s := s.setReg EVT_FLT_RETIRED (setBit (s.reg EVT_FLT_RETIRED) n.val true)
    let s := (s.put EVT_FLT_FLAGS_RETIRE 1).put (SHT_STATUS_RETIRED n) 1
    let s := s.shtMod n fun x => { x with blank := true }
    let s := trimAbort n (linkRetire n (reedRetire n code s))
    shedRetire n s

/-- A chain port, or the Shed, is retired (R574). -/
def retireOther (u : Nat) (s : Dev) : Dev :=
  if s.isRetired u then s
  else
    let s := (s.setReg EVT_FLT_RETIRED (setBit (s.reg EVT_FLT_RETIRED) u true)).put EVT_FLT_FLAGS_RETIRE 1
    if u = 16 then frameLost 0 s else if u = 17 then frameLost 1 s else s

/-- The unit of an escalation target is retired. -/
def retireUnit (code : Nat) (u : Fin 19) (s : Dev) : Dev :=
  if h : u.val < 16 then retireStation ⟨u.val, h⟩ code s else retireOther u.val s

/-! ### HALT (R576) -/

/-- A HALT is handled: HALTED latches, the Treadle aborts, and every other handler is subsumed (R576, R578). -/
def haltHandler (code : Nat) (s : Dev) : Dev :=
  let s := (s.put EVT_FLT_STATUS_HALTED 1).put EVT_FLT_FLAGS_HALT 1
  let s := s.fltMod fun f =>
    { f with suspended := [], queue := [], offered := [],
             haltUntilReset := f.haltUntilReset || code == 0x83 || code == 0x04 || code == 0x8B }
  trdAbort s

/-! ### Handlers (R577 to R579) -/

/-- The queued handler served next: the highest severity first, then in arrival order (R578). -/
def nextQueued (l : List Handler) : Option Handler :=
  l.foldl (fun (best : Option Handler) h =>
    match best with
    | none => some h
    | some b => if b.sev < h.sev then some h else some b) none

/-- The list without its first element equal to `h`. -/
def dropHandler (h : Handler) : List Handler → List Handler
  | [] => []
  | x :: t => if x = h then t else x :: dropHandler h t

/-- Offered reports enter the queue as room comes (R579). -/
def offerAgain (f : FaultUnit) : FaultUnit :=
  let room := 16 - f.queue.length
  { f with queue := f.queue ++ (f.offered.take room).map (fun (h : Handler) => { h with queued := true }),
           offered := f.offered.drop room }

/-- The handler that ends gives way: a suspended one resumes, unless a queued one is more severe (R578). -/
def nextHandler (f : FaultUnit) : FaultUnit :=
  match f.suspended, nextQueued f.queue with
  | x :: rest, some q =>
    if x.sev < q.sev then { f with running := some q, queue := dropHandler q f.queue }
    else { f with running := some x, suspended := rest }
  | x :: rest, none => { f with running := some x, suspended := rest }
  | [], some q => { f with running := some q, queue := dropHandler q f.queue }
  | [], none => { f with running := none }

/-- The handler that runs does its work and ends (R565, R569, R573, R576). -/
def runHandler (s : Dev) : Dev :=
  match s.flt.running with
  | none => s
  | some h =>
    let s := match h.sev with
      | 2 => (faultTargets h.code h.inst).foldl (fun (t : Dev) u => retireUnit h.code u t) s
      | 3 => haltHandler h.code s
      | _ => s
    s.fltMod fun f => offerAgain (nextHandler (offerAgain f))

/-- A recovery that has not completed in RECOVER_TMO ms (R570); 0 acts as 1. -/
def recoverTmo (u : Fin 19) (s : Dev) : Dev :=
  match vat s.flt.recovery u with
  | none => s
  | some r =>
    if s.grid.ticks < r.since + max 1 (s.reg EVT_FLT_RECOVER_TMO % 65536) * 2000 then s
    else
      let s := (faultTargets r.code r.inst).foldl (fun (t : Dev) v => recovered v t) (recovered u s)
      escalate r.code r.inst s

/-! ### Commands of EVT_FLT_CMD (R572, R575, R576) -/

/-- An ignored or refused command (R575, R576, R682): the flag, and no event. -/
def fltLocked (s : Dev) : Dev := s.put EVT_FLT_FLAGS_WRITE_LOCKED 1

/-- RETIRE: the stations in EVT_FLT_ARG (R572). -/
def cmdRetire (s : Dev) : Dev :=
  let arg := s.reg EVT_FLT_ARG
  (List.finRange 16).foldl (fun (t : Dev) (n : Station) =>
    if bit arg n.val && !t.isRetired n.val then retireStation n 0x08 (fault 0x08 sevInfo n.val t) else t) s

/-- The retry count of a unit is cleared (R575). -/
def clearRetries (u : Fin 19) (s : Dev) : Dev :=
  (s.setReg (EVT_FLT_RETRIES u) 0).fltMod fun f => { f with retries := vput f.retries u [] }

/-- The retirement of a station is cleared (R575). -/
def clearStation (n : Station) (s : Dev) : Dev :=
  let s := clearRetries (stationTarget n) s
  if !s.isRetired n.val then s
  else
    let s := s.setReg EVT_FLT_RETIRED (setBit (s.reg EVT_FLT_RETIRED) n.val false)
    linkCleared n (s.put (SHT_STATUS_RETIRED n) 0)

/-- CLEAR_RETIRE: the units in EVT_FLT_ARG; stations not in SCAN, nor in PAUSED that returns to it (R575). -/
def cmdClearRetire (s : Dev) : Dev :=
  let arg := s.reg EVT_FLT_ARG
  let scan := decide (s.trdStage = tScan)
  let s := if scan && arg % 65536 ≠ 0 then fltLocked s
    else (List.finRange 16).foldl (fun (t : Dev) (n : Station) => if bit arg n.val then clearStation n t else t) s
  [(16 : Fin 19), 17, 18].foldl (fun (t : Dev) (u : Fin 19) =>
    if bit arg u.val then clearRetries u (t.setReg EVT_FLT_RETIRED (setBit (t.reg EVT_FLT_RETIRED) u.val false)) else t) s

/-- The cause of a HALT persists (R576). -/
def Dev.haltPersists (s : Dev) : Bool :=
  s.flt.haltUntilReset || !s.on LNK_STATUS_S_PLL_LOCK || !s.on (trainedField (s.get DRC_STATUS_SP))

/-- CLEAR_HALT (R576). -/
def cmdClearHalt (s : Dev) : Dev := if s.haltPersists then fltLocked s else s.put EVT_FLT_STATUS_HALTED 0

/-- A write of EVT_FLT_CMD (R588, R682). -/
def fltCommand (w : Nat) (s : Dev) : Dev :=
  if w / 65536 ≠ 0xFA17 then fltLocked s
  else match w % 4 with
    | 1 => cmdRetire s
    | 2 => cmdClearRetire s
    | 3 => cmdClearHalt s
    | _ => s

/-! ### The emission gate (R580 to R583) -/

/-- The gate closes `tau` ns after the tick boundary: every station is interrupted there, and the Treadle pauses (R163,
R164, R580). -/
def gateClose (tau : Nat) (s : Dev) : Dev :=
  let k := s.t0.tick + tau / 500
  let s := (List.finRange 16).foldl (fun (t : Dev) (n : Station) => shtCutIn n k (tau % 500) t) s
  let s := s.fltMod fun f => { f with gateOpen := false, gateHigh := none }
  if s.trdState = tScan then trdPause 0 true s else s

/-- The gate's last low level ends (R582): from here on it has been high. -/
def gateRise (tau : Nat) (s : Dev) : Dev :=
  if s.on EVT_FLT_GATE_PIN_LOW || s.on EVT_FLT_GATE_SW_GATE then s
  else s.fltMod fun f => { f with gateHigh := if s.on (NETT_CTRL_EN 0) then some (s.t0.nanos + tau) else none }

/-- EMIT_GATE_N as filtered: taken low, or high again (R580). What lies in the fabric follows while that clock runs. -/
def emitGate (low : Bool) (tau : Nat) (s : Dev) : Dev :=
  if low then
    if s.on EVT_FLT_GATE_PIN_LOW then s
    else
      let s := s.put EVT_FLT_GATE_PIN_LOW 1
      if !s.fabRuns then s.fltMod fun f => { f with gateOpen := false, gateHigh := none }
      else gateClose tau (faultD 0x07 sevInfo 0xFF 0 0 (s.put EVT_FLT_FLAGS_GATE_LOW 1))
  else if !s.on EVT_FLT_GATE_PIN_LOW then s
  else gateRise tau (s.put EVT_FLT_GATE_PIN_LOW 0)

/-- A write of SW_GATE (R583). -/
def swGate (w tau : Nat) (s : Dev) : Dev :=
  let was := s.on EVT_FLT_GATE_SW_GATE
  if bit w 0 then
    if was then s else gateClose tau (faultD 0x07 sevInfo 0xFF 1 0 (s.put EVT_FLT_GATE_SW_GATE 1))
  else if was then gateRise tau (s.put EVT_FLT_GATE_SW_GATE 0)
  else s

/-- A period boundary releases the gate once it has been high for 1 µs (R582). -/
def gateRelease (s : Dev) : Dev :=
  let long := match s.flt.gateHigh with | some t => decide (t + 1000 ≤ s.t0.nanos) | none => true
  if s.on EVT_FLT_GATE_PIN_LOW || s.on EVT_FLT_GATE_SW_GATE || !s.on (NETT_CTRL_EN 0) || s.t0.tick % 4 ≠ 0 || !long then s
  else s.fltMod fun f => { f with gateOpen := true, gateHigh := none }

/-- EMIT_OK (R581). -/
def Dev.emitOk (s : Dev) : Bool :=
  let st := s.get DEV_STATE_STATE
  s.start.readyOnce && (st == 6 || st == 9) && !s.allDark && !s.start.porstLow

end Sys2Proof.Machine
end

