-- ==== Sys2Proof/Machine/JobOps.lean ====
section
/-!
DEFINITION. Job messages and layer files: reception (R50 to R58, R82 to R85), the pick rules (R60 to R62), start times (R68,
R69), and slots on their way back to EMPTY (R66, R84).
-/
namespace Sys2Proof.Machine

open Reg

/-! ### Messages (R82) -/

/-- The oldest frame of a port's chain receive bobbin goes to the Treadle, if it is a JOB frame whose type `want` accepts.
With TRD_CTRL.ENABLE = 0, and in MGMT_ONLY (R523), the message is discarded. -/
def jobFrame (p : Port) (want : Nat → Bool) (f : List Byte → Dev → Dev) (s : Dev) : Dev :=
  match (s.cport p).rxQ with
  | [] => s
  | x :: _ =>
    if x.kind ≠ 2 || !want (leAt x.payload 0 1) then s
    else
      let s := takeFrame p s
      if s.on TRD_CTRL_ENABLE && s.get DEV_STATE_STATE ≠ 7 then f x.payload s else s

/-- A host-to-device type of R82. -/
def hostType (t : Nat) : Bool := 0x10 ≤ t && t ≤ 0x16

/-- A message of no host-to-device type is discarded; one of undefined type is counted (R82). -/
def undefinedMessage (m : List Byte) (s : Dev) : Dev :=
  let t := leAt m 0 1
  if 0x20 ≤ t && t ≤ 0x23 then s else s.count TRD_BAD_MSG 1

/-! ### The header (R51, R52) -/

def LayerSlot.bodyLen (x : LayerSlot) : Nat := leAt x.header 0x2C 4
def LayerSlot.fileLen (x : LayerSlot) : Nat := 128 + x.bodyLen + 16
def LayerSlot.nonce (x : LayerSlot) : Nat := leAt x.header 0x20 12
def LayerSlot.ownCount (x : LayerSlot) (n : Nat) : Nat := leAt x.header (0x30 + 4 * n) 4
def LayerSlot.selvCount (x : LayerSlot) : Nat := leAt x.header 0x70 4
def LayerSlot.targetCount (x : LayerSlot) : Nat := leAt x.header 0x74 4
def LayerSlot.layerNm (x : LayerSlot) : Nat := leAt x.header 0x78 4
def LayerSlot.imageMode (x : LayerSlot) : Nat := leAt x.header 0x12 1
def LayerSlot.recoatProfile (x : LayerSlot) : Nat := leAt x.header 0x13 1 % 8
def LayerSlot.headerStart (x : LayerSlot) : StartTime := (leAt x.header 0x18 8, leAt x.header 0x14 4)

/-- The records of the body (R53). -/
def LayerSlot.records (x : LayerSlot) : Nat := ((List.range 16).map x.ownCount).sum + x.selvCount

/-- The rules of R52 and the BODY_LEN equality of R53. -/
def headerRules (x : LayerSlot) (addr : Nat) : Bool :=
  let h (off n : Nat) : Nat := leAt x.header off n
  h 0 4 == 0x464C5A4B && h 4 2 == 1 && h 6 2 == 0x80 && h 0x10 1 == addr && decide (h 0x11 1 < 16) && decide (h 0x12 1 < 8) &&
    decide (h 0x13 1 < 8) && h 0x14 4 % 2000 == 0 && decide (h 0x14 4 < 1000000000) && decide (h 0x18 8 < 2 ^ 48) &&
    decide (1 ≤ h 0x74 4) && decide (h 0x74 4 ≤ 256) && decide (h 0x78 4 ≤ 1000000) && h 0x7C 4 == 0 &&
    x.bodyLen == 32 * x.records + 16 * x.targetCount

/-- A slot's layer counts as accepted: RECEIVING to ACTIVE (R51). -/
def Dev.slotCounts (s : Dev) (i : Slot) : Bool := 1 ≤ s.slotState i && s.slotState i ≤ 5

/-- The rules of R51 for job `job` and layer `layer`. -/
def Dev.jobRules (s : Dev) (job layer : Nat) : Bool :=
  let slots := (List.finRange 3).all fun (i : Slot) =>
    !s.slotCounts i || (vat s.trd.slots i).jobId ≠ job || decide ((vat s.trd.slots i).layerNo < layer)
  let past := job ≠ s.trd.job || (match s.trd.lastActive with | some l => decide (l < layer) | none => true)
  slots && past && (job == s.trd.job || s.trdState == tIdle)

/-- The last accepted NONCE of the file's key slot (R56). -/
def Dev.lastNonce (s : Dev) (x : LayerSlot) : Nat := vat s.sec.nonces ⟨x.keySlot % 16, Nat.mod_lt _ (by decide)⟩

/-- The slot size in bytes (R50). -/
def Dev.slotBytes (s : Dev) : Nat := s.reg TRD_SLOT_SIZE % 4096 * 1048576

/-- The DRAM byte address of a slot (R50). -/
def Dev.slotAddr (s : Dev) (i : Slot) : Nat := s.reg TRD_SLOT_BASE % 65536 * 1048576 + i.val * s.slotBytes

/-- The check of R55 of the header in slot record `x`, against the message's JOB_ID and LAYER_NO: a fault code, or none. -/
def Dev.headerFault (s : Dev) (x : LayerSlot) (job layer : Nat) : Option Nat :=
  if !headerRules x (s.get NET_STATUS_ADDR) || x.jobId ≠ job || x.layerNo ≠ layer || !s.jobRules x.jobId x.layerNo then some 0x31
  else if s.slotBytes < x.bodyLen then some 0x33
  else if x.nonce ≤ s.lastNonce x then some 0x32
  else none

/-! ### Rejection and acceptance -/

/-- A file is rejected (R55, R57, R84, R86, R89, R90). -/
def rejectFile (i : Slot) (code : Nat) (s : Dev) : Dev :=
  let x := vat s.trd.slots i
  let s := failSlot i s
  let s := s.setReg (slotStatus i) (putBits (s.reg (slotStatus i)) 15 8 code)
  let flag := match code with
    | 0x30 => TRD_STATUS_AUTH
    | 0x32 => TRD_STATUS_NONCE
    | _ => TRD_STATUS_FORMAT
  let s := faultEvent code sevInfo i.val 97 (s.put flag 1)
  keyResume (layerAck x.jobId x.layerNo 0 2 code s)

/-- The zones defined as last written, and their station counts (R127). -/
def Dev.zonesWritten (s : Dev) : List (Nat × Nat) :=
  ((List.range 4096).drop 1).filterMap fun z =>
    let c := min 8 (s.getW (SHD_ZONE_COUNT_COUNT z))
    if c = 0 then none else some (z, c)

/-- Body or tag bytes join the file; LAYER_ACK RECEIVED for every MiB and at the end (R84). Bytes past the end of the file
are ignored. -/
def appendData (i : Slot) (data : List Byte) (s : Dev) : Dev :=
  let x := vat s.trd.slots i
  let data := data.take (x.fileLen - x.next)
  let next := x.next + data.length
  if data.isEmpty then s
  else
    let s := s.slotMod i fun y => { y with cipher := y.cipher ++ data, next := next }
    let marks := ((List.range (next / 1048576 + 1)).drop (x.next / 1048576 + 1)).map (· * 1048576)
    let marks := (marks.filter fun m => m < x.fileLen) ++ (if next = x.fileLen then [next] else [])
    marks.foldl (fun (t : Dev) m => layerAck x.jobId x.layerNo m 0 0 t) s

/-- A start time reaches slot `i` (R68): accepted, it replaces an earlier one; E98 when it arms the layer. -/
def offerStart (i : Slot) (t : StartTime) (s : Dev) : Dev :=
  if !s.timeOk t then schedRefused i.val s
  else
    let armed := s.slotArmed i
    let s := setStart i (some t) (s.slotMod i fun x => { x with missed := false })
    if armed then s else armedEvent i s

/-- The header of an accepted file: a new job id becomes current, and the map is cleared for it (R51, R230). -/
def acceptHeader (i : Slot) (s : Dev) : Dev :=
  let x := vat s.trd.slots i
  let s := if x.jobId = s.trd.job then s
    else mapClear ((s.trdMod fun t => { t with job := x.jobId, lastActive := none }).setReg TRD_PLAT_RESID 0)
  let s := s.slotMod i fun y => { y with next := 128, zones := if y.selvCount ≤ 1 then [] else s.zonesWritten }
  let s := setSlotState i 1 s
  if x.headerStart = (0, 0) then s else offerStart i x.headerStart s

/-- A frame at offset 0 opens a slot (R55, R83). -/
def openSlot (i : Slot) (job layer : Nat) (data : List Byte) (s : Dev) : Dev :=
  let h := data.take 128
  let x : LayerSlot := { LayerSlot.reset with jobId := leAt h 8 4, layerNo := leAt h 0xC 4, header := h }
  let s := s.slotMod i fun _ => x
  match s.headerFault x job layer with
  | some code => rejectFile i code s
  | none => appendData i (data.drop 128) (acceptHeader i s)

/-- LAYER_DATA (R83). -/
def layerData (m : List Byte) (s : Dev) : Dev :=
  let job := leAt m 4 4
  let layer := leAt m 8 4
  let off := leAt m 12 4
  let data := m.drop 16
  let mine (i : Slot) : Bool :=
    s.slotState i == 1 && (vat s.trd.slots i).jobId == job && (vat s.trd.slots i).layerNo == layer
  match (List.finRange 3).find? mine with
  | some i =>
    let next := (vat s.trd.slots i).next
    if off = next then appendData i data s else layerAck job layer next 3 0 s
  | none =>
    if off ≠ 0 || data.length < 128 then layerAck job layer 0 3 0 s
    else match (List.finRange 3).find? (fun (i : Slot) => s.slotState i == 0) with
      | none => layerAck job layer 0 4 0 s
      | some i => openSlot i job layer data s

/-! ### The pick rules (R60, R62) -/

/-- The word rules of R60 for a record other than END_OF_LIST. -/
def wordsOk (w : List Nat) : Bool :=
  let p (i : Nat) : Nat := wd w i
  let power := bits (p 6) 23 22 == 0
  match recTyp w with
  | 3 => p 1 == 0 && p 2 == 0 && p 6 == 0
  | 4 => p 3 == p 1 && p 4 == p 2 && decide (0 < p 5) && power
  | 5 => decide (0 < p 5) && decide (p 5 < 65536) && decide (0 < p 7) && power
  | _ => decide (0 < p 5) && power

/-- One record of list `n` (16 the selvedge list) follows R62; `last` says that it is the last of its list. -/
def pickOk (zones : List (Nat × Nat)) (targets n : Nat) (last : Bool) (w : List Nat) : Bool :=
  let t := recTyp w
  let own := if n < 16 then n else 0
  if (t == 0) != last || 6 < t then false
  else if t = 0 then wd w 0 == own * 2 ^ 24 && (w.drop 1).all (· == 0)
  else
    let place := if n < 16 then bits (wd w 0) 31 24 == n && recZone w == 0
      else
        let m := bits (wd w 0) 31 24
        match zones.find? (·.1 == recZone w) with
        | some (_, c) => m ≠ 0 && decide (m < 2 ^ c)
        | none => false
    place && bits (wd w 0) 11 10 == 0 && decide (wd w 6 / 2 ^ 24 < targets) && wordsOk w

/-- The records of a body part. -/
def pickRecords : Nat → List Byte → List (List Nat)
  | 0, _ => []
  | k + 1, bs => bytesWords (bs.take 32) :: pickRecords k (bs.drop 32)

/-- Every record of list `n` follows R62, and the list is not empty. -/
def listOk (zones : List (Nat × Nat)) (targets n : Nat) (l : List (List Nat)) : Bool :=
  !l.isEmpty && (List.range l.length).all fun k => pickOk zones targets n (k + 1 == l.length) (l.getD k [])

/-- The lists of a body, with S0's first and the selvedge list last, and the target table (R53). -/
def bodyLists (x : LayerSlot) (body : List Byte) : List (List (List Nat)) × List Byte :=
  let r := (List.range 17).foldl (fun (acc : List (List (List Nat)) × List Byte) n =>
    let k := if n < 16 then x.ownCount n else x.selvCount
    (acc.1 ++ [pickRecords k acc.2], acc.2.drop (32 * k))) ([], body)
  (r.1, r.2.take (16 * x.targetCount))

/-- LAYER_VALID (R54, R56, R57): the file is complete and its decryption ends. -/
def layerValid (i : Slot) (s : Dev) : Dev :=
  let x := vat s.trd.slots i
  if s.slotState i ≠ 1 || x.next < x.fileLen then s
  else
    let k : KeySlot := ⟨x.keySlot % 16, Nat.mod_lt _ (by decide)⟩
    let iv := (x.header.drop 0x20).take 12
    let ct := x.cipher.take x.bodyLen
    match vat s.sec.keys k with
    | none => rejectFile i 0x30 s
    | some key =>
      if gcmTag key iv x.header ct ≠ x.cipher.drop x.bodyLen then rejectFile i 0x30 s
      else if x.nonce ≤ s.lastNonce x then rejectFile i 0x32 s
      else
        let s : Dev := { s with sec := { s.sec with nonces := vput s.sec.nonces k x.nonce } }
        let body := gcmPlain key iv ct
        let (lists, table) := bodyLists x body
        let s := dramWrite (s.slotAddr i) body s
        if !((List.range 17).all fun n => listOk x.zones x.targetCount n (lists.getD n [])) then rejectFile i 0x31 s
        else
          let s := s.slotMod i fun y =>
            { y with cipher := [], own := Vector.ofFn fun n => lists.getD n.val [], selv := lists.getD 16 [], targets := table }
          let s := occur 96 i.val 0 (setSlotState i 2 s)
          armedEvent i (keyResume (layerAck x.jobId x.layerNo x.fileLen 1 0 s))

/-! ### Slots that are released (R58, R66, R84, R85) -/

/-- A slot returns to EMPTY (R66, R84): LAYER_ACK SLOT_FREE and E109. FAULT stays (R89). -/
def freeSlot (i : Slot) (s : Dev) : Dev :=
  let x := vat s.trd.slots i
  let s := setSlotState i 0 (s.slotMod i fun _ => LayerSlot.reset)
  occur 109 i.val 0 (layerAck x.jobId x.layerNo 0 5 0 s)

/-- The zeroing of a FAILED slot completes (R58, R66). -/
def slotZeroed (i : Slot) (s : Dev) : Dev :=
  if s.slotState i ≠ 6 then s
  else freeSlot i (s.zeroDram (s.slotAddr i) (vat s.trd.slots i).bodyLen)

/-- The slot that holds a layer. -/
def Dev.layerSlot (s : Dev) (job layer : Nat) : Option Slot :=
  (List.finRange 3).find? fun (i : Slot) =>
    s.slotCounts i && (vat s.trd.slots i).jobId == job && (vat s.trd.slots i).layerNo == layer

/-- LAYER_CANCEL (R85). -/
def layerCancel (m : List Byte) (s : Dev) : Dev :=
  match s.layerSlot (leAt m 4 4) (leAt m 8 4) with
  | some i => if s.slotState i = 5 then s else keyResume (failSlot i s)
  | none => s

/-! ### Start times (R68, R69, R88) -/

/-- WAIT_START and WAIT_SCHED once imaging is complete (R69, R88). -/
def bedFlags (s : Dev) : Dev :=
  let known := (vat s.trd.slots s.activeSlot).start.isSome
  (s.put TRD_STATE_WAIT_START (b2n known)).put TRD_STATE_WAIT_SCHED (b2n !known)

/-- In BED_IMAGE with imaging complete, the wait is shown. -/
def bedShow (s : Dev) : Dev := if s.layerActive && s.trdStage = tBed && s.trd.imaged then bedFlags s else s

/-- LAYER_SCHEDULE (R68): one for a layer that no slot holds is refused. -/
def layerSchedule (m : List Byte) (s : Dev) : Dev :=
  match s.layerSlot (leAt m 4 4) (leAt m 8 4) with
  | none => schedRefused 0xFF s
  | some i =>
    if s.slotState i = 5 && (s.trdStage = tScan || s.trdStage = tClose) then schedRefused i.val s
    else bedShow (offerStart i (leAt m 16 8, leAt m 12 4) s)

/-- The active layer stands in BED_IMAGE with imaging complete, and EMIT_GATE_N is not low (R69, R580). -/
def Dev.scanReady (s : Dev) : Bool :=
  s.layerActive && s.trdState == tBed && s.trd.imaged && !s.on EVT_FLT_GATE_PIN_LOW

/-- T0 has reached the start time of slot `i`; `late` is how many ns after it. -/
def Dev.startReached (s : Dev) (i : Slot) : Option Nat :=
  match (vat s.trd.slots i).start with
  | some t => if s.on (NETT_CTRL_EN 0) && stNanos t ≤ s.t0.nanos then some (s.t0.nanos - stNanos t) else none
  | none => none

/-- A start time reached with its layer not ready is voided (R69). -/
def lateSlot (i : Slot) (s : Dev) : Dev :=
  let active := s.slotState i == 5
  let begun := active && (s.trdStage == tScan || s.trdStage == tClose)
  match s.startReached i with
  | some d =>
    if begun || !s.slotCounts i || (active && s.scanReady && d < 500) then s
    else
      let s := setStart i none (s.slotMod i fun x => { x with missed := true })
      bedShow (faultEvent 0x35 sevInfo i.val 105 (s.put TRD_STATUS_LATE_START 1))
  | none => s

/-- LATE_START (R69). -/
def lateStart (s : Dev) : Dev := (List.finRange 3).foldl (fun (t : Dev) (i : Slot) => lateSlot i t) s

end Sys2Proof.Machine
end

