-- ==== Sys2Proof/Machine/JobSteps.lean ====
section
/-!
DEFINITION. The layer cycle of the Treadle (R64): LAYER_PREP, RECOAT (R71, R72), BED_IMAGE (R73), SCAN (R74), LAYER_CLOSE
(R76), and pausing and resuming (R77 to R79).
-/
namespace Sys2Proof.Machine

open Reg

/-! ### LAYER_PREP -/

/-- A station that takes no picks: retired, its Shuttle's ENABLE or its link's EN at 0 (R74, R170, R279). -/
def Dev.stationOut (s : Dev) (n : Station) : Bool :=
  s.isRetired n.val || !s.on (SHT_CTRL_ENABLE n) || !s.on (LNK_WCTRL_EN n)

/-- What the pick bobbin still holds of an earlier stream is discarded. -/
def bobFlush (b : Nat) (s : Dev) : Dev :=
  if !s.bobEn b then s
  else
    let s := s.put (CRLB_RD_RD b) (s.get (CRLB_WR_WR b))
    let s := (s.put (CRLB_FILL_FILL b) 0).put (CRLB_STATUS_PANIC b) 0
    { s with crl := { s.crl with ended := s.crl.ended.filter (· ≠ b) } }

/-- The transition into LAYER_PREP (R87, R157, R539, R584): grids are checked, the layer boundary commits. -/
def enterPrep (s : Dev) : Dev :=
  let s := (List.finRange 16).foldl (fun (t : Dev) (n : Station) => gridCheck n t) s
  trimLayer (trdEnter tPrep true s)

/-- A layer begins (R64, R66, R98, R217, R231): slot `i` becomes ACTIVE, and its streams are preloaded. -/
def layerPrep (i : Slot) (s : Dev) : Dev :=
  let x := vat s.trd.slots i
  let s := setSlotState i 5 (s.put TRD_STATE_ACTIVE_SLOT i.val)
  let s := (s.setReg TRD_JOB x.jobId).setReg TRD_LAYER x.layerNo
  let s := s.trdMod fun t =>
    { t with lastActive := if x.jobId = t.job then some x.layerNo else t.lastActive, imaged := false, imagesLeft := 0,
             captureDue := false, recoatStep := 0, platSteps := 0 }
  let s := setStart i x.start s
  let s := enterPrep s
  let s := ((s.setReg TRD_ORPHANS x.orphans).setReg SHD_ORPHANS x.orphans).setReg SHD_SKIPPED 0
  let s := (List.finRange 16).foldl (fun (t : Dev) (n : Station) => bobFlush n.val (shtPrepare n t)) s
  let s := mapOpenLayer (loadTargets x.targets s)
  -- the whole streams of stations that are out are remaining work (R117, R121)
  let req := (List.finRange 16).foldl (fun (m : Nat) (n : Station) =>
    if s.stationOut n && (s.stream n).any (!isEnd ·) then m + 2 ^ n.val else m) 0
  let s := s.shdMod fun y => { y with request := req }
  let s := if req = 0 then s else reallocStart 0 s
  (List.finRange 16).foldl (fun (t : Dev) (n : Station) => if t.stationOut n then setStream n [] t else feed n t) s

/-- LAYER_PREP_START (R64): the next layer is armed and its slot ALLOCATED. -/
def prepStart (s : Dev) : Dev :=
  match s.nextSlot with
  | some i => if s.trdState = tArmed && s.slotReady i && s.slotState i = 4 then layerPrep i s else s
  | none => s

/-- The look-ahead of a station is full, or holds END_OF_LIST (R64). -/
def Dev.lookaheadFull (s : Dev) (n : Station) : Bool :=
  let x := s.shtl n
  x.sawEnd || clampN 2 64 (s.reg (SHT_LOOKAHEAD n) % 128) ≤ x.queue.length

/-! ### RECOAT (R71, R72) -/

/-- R71 on a residual: the steps, and the residual after them. -/
def platform (resid nm scale : Nat) : Nat × Nat :=
  let acc := (resid + nm * scale) % 2 ^ 56
  (acc / 2 ^ 24, acc % 2 ^ 24)

/-- A word of the recoat profile, as read when RECOAT began (R92): 0 AXES, 1 TRAVERSE, 2 SPEED, 3 DOSE, 4 IMG_SPACING,
5 IMG. -/
def Dev.profileWord (s : Dev) (k : Nat) : Nat := s.trd.profile.getD k 0

/-- An axis field of the profile's AXES word. -/
def Dev.profileAxis (s : Dev) (lo : Nat) : Axis := ⟨bits (s.profileWord 0) (lo + 2) lo % 8, Nat.mod_lt _ (by decide)⟩

/-- The axis of recoat step `k` (R72). -/
def Dev.stepAxis (s : Dev) (k : Nat) : Axis :=
  if k ≤ 2 then s.profileAxis 0 else if k = 3 then s.profileAxis 8 else s.profileAxis 4

/-- BIDIR of the profile. -/
def Dev.bidir (s : Dev) : Bool := bit (s.profileWord 0) 21

/-- The first step from `k` on that the profile has; 6 where none is left (R72). -/
def Dev.stepFrom (s : Dev) (k : Nat) : Nat :=
  let has (j : Nat) : Bool := match j with
    | 2 => s.reg TRD_PLAT_LIFT ≠ 0
    | 3 => bit (s.profileWord 0) 20
    | 5 => !s.bidir
    | _ => true
  ([1, 2, 3, 4, 5].find? fun j => decide (k ≤ j) && has j).getD 6

/-- The target of a step (R72). A BIDIR traverse that starts at the far end goes to position 0. -/
def Dev.stepTarget (s : Dev) (k : Nat) : Int :=
  let pos := s.axPos (s.stepAxis k)
  let down : Int := if bit (s.profileWord 0) 11 then 1 else -1
  let lift : Int := s.reg TRD_PLAT_LIFT
  match k with
  | 1 => pos + down * (s.trd.platSteps + lift)
  | 2 => pos - down * lift
  | 3 => pos + sx 32 (s.profileWord 3)
  | 4 => if s.bidir && s.trd.farEnd then 0 else sx 32 (s.profileWord 1)
  | _ => 0

/-- The feedback channel of the profile. -/
def Dev.profilePin (s : Dev) : PinChannel := ⟨bits (s.profileWord 0) 17 15 % 8, Nat.mod_lt _ (by decide)⟩

/-- IMAGE_MODE of the active layer. -/
def Dev.activeMode (s : Dev) : Nat := (vat s.trd.slots s.activeSlot).imageMode

/-- A recoat move has failed (R72): RECOAT_FAULT, and PAUSED with return state RECOAT. -/
def recoatFail (m : Axis) (s : Dev) : Dev :=
  let s := cmpRelease s.profilePin (s.put TRD_STATUS_RECOAT_FAULT 1)
  enterPaused tRecoat (faultEvent 0x36 sevInfo m.val 107 s)

/-- All recoat steps are complete and all mechanical axes at rest (R64, R73): BED_IMAGE begins. -/
def enterBed (s : Dev) : Dev :=
  let s := s.trdMod fun t => { t with recoatStep := 0 }
  let s := if bit s.activeMode 0 then captureStart s else s.trdMod fun t => { t with imaged := true }
  let s := if s.trd.imaged then bedFlags s else s
  trdEnter tBed true s

/-- BED_IMAGE, once every axis is at rest. -/
def recoatEnd (s : Dev) : Dev := if (List.finRange 8).any s.axRunning then s else enterBed s

/-- The move of the step under way, towards its target (R72, R293, R325). Moves are accepted only at rest. -/
def recoatMove (s : Dev) : Dev :=
  let k := s.trd.recoatStep
  if 6 ≤ k then recoatEnd s
  else
    let m := s.stepAxis k
    let t := s.trd.recoatTarget
    if s.axRunning m then recoatFail m s
    else
      let s := if k = 4 then s.setReg (AXS_SPEED m) (s.profileWord 2) else s
      let s := if k = 4 && bit s.activeMode 2 then
          cmpOwn s.profilePin (bits (s.profileWord 0) 19 18) (s.profileWord 4) (decide (s.axPos m < t)) s
        else s
      axTarget m (wrapN 32 t) true s

/-- The first step from `k` on begins. -/
def recoatGo (k : Nat) (s : Dev) : Dev :=
  let k := s.stepFrom k
  let t := s.stepTarget k
  recoatMove (s.trdMod fun x => { x with recoatStep := k, recoatTarget := t })

/-- LAYER_PREP_DONE (R64, R71, R92): RECOAT begins. -/
def prepDone (s : Dev) : Dev :=
  let ready := (List.finRange 16).all fun (n : Station) => s.stationOut n || s.lookaheadFull n
  if s.trdState ≠ tPrep || !ready then s
  else
    let x := vat s.trd.slots s.activeSlot
    let p := x.recoatProfile
    let (steps, resid) := platform (s.reg TRD_PLAT_RESID) x.layerNm (s.reg TRD_PLAT_SCALE)
    let s := (s.setReg TRD_PLAT_RESID resid).trdMod fun t =>
      { t with platSteps := steps, profile := [s.reg (TRD_RCP_AXES p), s.reg (TRD_RCP_TRAVERSE p), s.reg (TRD_RCP_SPEED p),
                 s.reg (TRD_RCP_DOSE p), s.reg (TRD_RCP_IMG_SPACING p), s.reg (TRD_RCP_IMG p)] }
    recoatGo 1 (trimAutoDark (trdEnter tRecoat true s))

/-- The step's axis stands on its target after a move without fault. -/
def Dev.stepReached (s : Dev) (k : Nat) : Bool :=
  let m := s.stepAxis k
  !s.axRunning m && !(vat s.axes m).endFault && s.axPos m == sx 32 (wrapN 32 s.trd.recoatTarget)

/-- RECOAT_STEP_DONE (R72). -/
def recoatStepDone (s : Dev) : Dev :=
  let k := s.trd.recoatStep
  if s.trdState ≠ tRecoat || k = 0 then s
  else if 6 ≤ k then recoatEnd s
  else if !s.stepReached k then s
  else
    let s := if k = 4 then cmpRelease s.profilePin s else s
    let s := s.trdMod fun t =>
      { t with farEnd := if k = 4 then s.bidir && !t.farEnd else if k = 5 then false else t.farEnd }
    recoatGo (k + 1) s

/-- RECOAT_FAULT (R72): the move under way has ended anywhere else, or in a limit, a homing failure or an axis fault. -/
def recoatFault (s : Dev) : Dev :=
  let k := s.trd.recoatStep
  if s.trdState ≠ tRecoat || k = 0 || 6 ≤ k || s.axRunning (s.stepAxis k) || s.stepReached k then s
  else recoatFail (s.stepAxis k) s

/-- The Treadle's compare ends when the recoater axis has come to rest outside RECOAT (R293). -/
def recoatRelease (s : Dev) : Dev :=
  if s.trdState ≠ tRecoat && (s.pin s.profilePin).owned && !s.axRunning (s.profileAxis 4) then cmpRelease s.profilePin s else s

/-! ### BED_IMAGE and SCAN (R73, R74) -/

/-- BED_IMAGE_DONE (R73): imaging is complete. -/
def bedImageDone (s : Dev) : Dev := bedShow s

/-- SCAN_START (R74): T0 has reached the start time, with the layer ready. -/
def layerScan (s : Dev) : Dev :=
  let due := match s.startReached s.activeSlot with | some d => decide (d < 500) | none => false
  if !s.scanReady || !due then s
  else
    let s := (List.finRange 16).foldl (fun (t : Dev) (n : Station) => (linkScan n (shtScan n t)).setReg (SHD_MON_BLANKS n) 0) s
    let s := trdEnter tScan true s
    reedScan (trimScan (camRestart (meltScan s)))

/-- SCAN_END (R64, R73): LAYER_CLOSE begins. A PAUSE that still waits for its tick acts at the end of the close (R78). -/
def layerClose (s : Dev) : Dev :=
  let done := (List.finRange 16).all fun (n : Station) => s.stationOut n || ((s.shtl n).complete && !(s.shtl n).lit)
  if s.trdState ≠ tScan || !done then s
  else
    let s := s.trdMod fun t => { t with pauseCmd := t.pauseCmd || t.pauseAt.isSome, pauseAt := none }
    let s := trimClose (trdEnter tClose true s)
    if bit s.activeMode 1 then captureStart s else s

/-! ### LAYER_CLOSE (R75, R76) -/

/-- The 37 words of the layer report (R593). -/
def Dev.reportWords (s : Dev) : List Nat :=
  [s.reg TRD_LAYER, s.reg EVT_FLT_RETIRED % 65536 * 65536 + s.trdState, s.reg TRD_ORPHANS, s.trd.platSteps,
    s.reg TRD_PLAT_RESID] ++ (List.range 16).map (fun n => s.reg (SHT_PICKS n)) ++ (List.range 16).map fun n => s.reg (SHT_REPICKS n)

/-- The cells of the map that closes, those that do not belong to its layer as zeros, in raster order (R229, R231). -/
def Dev.mapImage (s : Dev) : List Byte :=
  let b := s.get MPL_STATUS_CUR_BUF
  (List.range (s.mapW * s.mapH)).flatMap fun k =>
    if s.mapOpen ≤ (s.cell b (8 * k)).1 then s.dramBytes (s.mapBase b + 8 * k) 8 else List.replicate 8 0

/-- With MAP_EXPORT, the new previous map is sent to the host (R242). -/
def mapExport (s : Dev) : Dev :=
  if !s.on MPL_CTRL_MAP_EXPORT || !s.on MPL_STATUS_MAP_READY || s.mapImage.isEmpty then s
  else sendImage (0xB0000000 + s.reg TRD_LAYER % 2 ^ 24) s.mapImage .map (s.put MPL_STATUS_EXPORTING 1)

/-- Everything that LAYER_CLOSE waits for is done (R76, R137, R227). -/
def Dev.closeReady (s : Dev) : Bool :=
  s.trdState == tClose && s.layerActive && s.trd.imagesLeft == 0 &&
    (List.finRange 16).all fun (n : Station) =>
      (s.stationOut n || s.edgesDone n) && (s.mst n).awaiting.isNone && (s.mst n).done.isEmpty

/-- LAYER_CLOSE is left by R64: to PAUSED, to the next layer, or to IDLE. -/
def leaveClose (s : Dev) : Dev :=
  if s.trd.pauseCmd || s.trd.pauseReact || s.trd.pauseOrphan then
    enterPaused tClose (s.trdMod fun t => { t with pauseCmd := false, pauseReact := false, pauseOrphan := false })
  else match s.nextSlot with
    | some i => if s.slotReady i then (if s.slotState i = 4 then layerPrep i s else trdEnter tArmed true s) else trdEnter tIdle true s
    | none => trdEnter tIdle true s

/-- A pending image waits for this layer boundary (R526). -/
def Dev.updateWaits (s : Dev) : Bool := s.get DEV_UPD_STAT_STATE == 3

/-- LAYER_CLOSE is complete and has not been left (R526). -/
def Dev.closeDone (s : Dev) : Bool := s.trdState == tClose && !s.layerActive

/-- LAYER_CLOSED (R75, R76, R593). An update that falls due is applied before the Treadle leaves (R526). -/
def layerClosed (s : Dev) : Dev :=
  if !s.closeReady then s
  else
    let i := s.activeSlot
    let ws := s.reportWords
    let s := sendJob 0x22 (wordsBytes ws) .none (stage (s.logRec 4 (s.reg TRD_JOB) ws false) s)
    let orphan := s.on TRD_POLICY_ORPHAN && s.reg TRD_ORPHANS ≠ 0
    let s := s.trdMod fun t => { t with pauseOrphan := t.pauseOrphan || orphan }
    let s := mapCloseLayer (mapExport s)
    let s := settle (occur 101 0xFF 0 (freeSlot i s))
    if s.trdState ≠ tClose || s.updateWaits then s else leaveClose s

/-! ### PAUSE and RESUME (R77 to R79) -/

/-- PAUSE_TICK_REACHED (R77, R116, R163). -/
def pauseTick (s : Dev) : Dev :=
  match s.trd.pauseAt with
  | none => s
  | some k =>
    if s.trdState ≠ tScan || s.schedTick < k then s
    else
      let s := (List.finRange 16).foldl (fun (t : Dev) (n : Station) => if t.stationOut n then t else shtCut n t) s
      enterPaused tScan (releaseAll (s.trdMod fun t => { t with pauseAt := none }))

/-- A PAUSED Treadle returns to its stage before SCAN: the resume time is the layer's start time (R79). -/
def resumeStage (ret : Nat) (t : StartTime) (s : Dev) : Dev :=
  let layer := if s.layerActive then some s.activeSlot else if ret = tArmed then s.nextSlot else none
  let s := match layer with
    | some i => setStart i (some t) (s.slotMod i fun x => { x with missed := false })
    | none => s
  let s := bedShow s
  let s := if ret = tPrep then enterPrep s else trdEnter ret true s
  if ret = tRecoat then recoatMove s else trdArm s

/-- RESUME (R79). One that returns to SCAN takes effect at the resume time, when tick k_p begins. -/
def trdResume (t : StartTime) (s : Dev) : Dev :=
  if s.trdState ≠ tPaused || s.trd.resumeAt.isSome then s
  else if !s.timeOk t then schedRefused 0xFF s
  else
    let s := occur 103 0xFF 0 (s.trdMod fun x => { x with pauseReact := false })
    let ret := s.get TRD_STATE_RETURN_STATE
    if ret = tScan then
      let n := stNanos t - s.pauseTick * 500
      setStart s.activeSlot (some (n / 1000000000, n % 1000000000)) (s.trdMod fun x => { x with resumeAt := some t })
    else if ret = tClose then leaveClose s
    else resumeStage ret t s

/-- At the accepted resume time SCAN goes on (R79). -/
def resumeTick (s : Dev) : Dev :=
  match s.trd.resumeAt with
  | some t => if s.trdState = tPaused && stNanos t ≤ s.t0.nanos then
      trdEnter tScan false (s.trdMod fun x => { x with resumeAt := none })
    else s
  | none => s

/-- k_p and the resume time in TRD_CMD_ARG0 to 2 (R87). -/
def Dev.argPause (s : Dev) : Nat := s.reg TRD_CMD_ARG0 + s.reg TRD_CMD_ARG1 % 256 * 2 ^ 32
def Dev.argResume (s : Dev) : StartTime := (s.reg TRD_CMD_ARG1 + s.reg TRD_CMD_ARG2 % 65536 * 2 ^ 32, s.reg TRD_CMD_ARG0)

/-- A command as a message on a port, or through TRD_CMD (R82, R87). -/
def trdCommand (message : Option Port) (typ : Nat) (msg : List Byte → Dev → Dev) (cmd : Dev → Dev) (s : Dev) : Dev :=
  match message with
  | some p => jobFrame p (· == typ) msg s
  | none => cmd s

def pauseCommand (message : Option Port) (s : Dev) : Dev :=
  trdCommand message 0x12 (fun m => trdPause (leAt m 4 8) false) (fun d => trdPause d.argPause false d) s
def resumeCommand (message : Option Port) (s : Dev) : Dev :=
  trdCommand message 0x13 (fun m => trdResume (leAt m 8 8, leAt m 4 4)) (fun d => trdResume d.argResume d) s
def abortCommand (message : Option Port) (s : Dev) : Dev := trdCommand message 0x14 (fun _ => trdAbort) trdAbort s
def clearCommand (message : Option Port) (s : Dev) : Dev := trdCommand message 0x15 (fun _ => trdClear) trdClear s

end Sys2Proof.Machine
end

