-- ==== Sys2Proof/Machine/TickOps.lean ====
section
/-!
DEFINITION. The tick, period and management-tick boundaries (R21 to R24): everything that the device does tick by tick, in
the order of its deadlines inside a tick.
-/
namespace Sys2Proof.Machine

open Reg

/-- `f` for every station, in station order. -/
def eachStation (f : Station → Dev → Dev) (s : Dev) : Dev :=
  (List.finRange 16).foldl (fun (t : Dev) (n : Station) => f n t) s

/-- The schedule value of tick `k` of T0 (R26), 0 before the start time. -/
def Dev.schedOf (s : Dev) (k : Nat) : Nat := k - s.layerStart / 500

/-- The Reed registers commit in the engines' own windows (R196). -/
abbrev reedLo : Nat := 0xA0000
abbrev reedHi : Nat := 0xB0000

/-! ### Inside a tick -/

/-- The rest of tick `k`: missing uplinks, the engines, the downlink and the plan of the next tick. `lateAxis` and
`latePower` name the samples that were not in the mailbox in time (R195). -/
def tickWork (k : Nat) (lateAxis : List (Fin 3 × Station)) (latePower : List Station) (s : Dev) : Dev :=
  let s := eachStation (fun n => linkMissing n k) s
  let s := powerEngine k (latePower.contains ·) s
  let s := if k % 4 = 0 && s.grid.lastPeriod = some (k / 4) then
      eachStation (fun n => shtActual n (k / 4))
        ((List.finRange 3).foldl (fun (t : Dev) (e : Fin 3) => posEngine e (fun n => lateAxis.contains (e, n)) t) s)
    else s
  let s := if k % 4 = 2 then monitor (k / 4) s else s
  let sched := s.schedOf k
  let s := eachStation (fun n t => linkDown n k (k * 500) sched (shtEdges n k sched t)) s
  eachStation (fun n => shtPlan n k) s

/-! ### At a tick boundary -/

/-- The target index of tick `k + 2` along the plan, from the start of tick `k` (R236). -/
def Dev.heatTarget (s : Dev) (n : Station) : Nat :=
  let c := s.runCfg n
  let x := if s.onPath n then planAhead c 2 (s.shtl n) else s.shtl n
  (tickPower x (if s.onPath n then planTick c x else x) false).target

/-- ΔT_h of tick `k + 2` in the mailbox (R235 to R237). Its reads see map time as it is in tick `k`. -/
def heatTick (n : Station) (k : Nat) (s : Dev) : Dev :=
  let at' := 0x280 + k % 4 * 0x20
  let x := sx 32 (s.mboxGet n (at' + 8))
  let y := sx 32 (s.mboxGet n (at' + 12))
  let (h, q) := s.heat n x y (s.heatTarget n) (s.mapTime + 2) s.mapTime
  (mboxPut n (0x28 + (k + 2) % 4 * 0x40) (q * 65536 + h) s).setReg (MPLS_HEAT n) (q * 65536 + h)

/-- TRD_TICK shows the schedule value in SCAN (R87). -/
def schedShow (s : Dev) : Dev :=
  if s.trdState ≠ tScan then s
  else (s.setReg TRD_TICK_LO (s.schedTick % 2 ^ 32)).setReg TRD_TICK_HI (s.schedTick / 2 ^ 32 % 256)

/-- What the boundary of tick `k` itself brings (R22, R24). -/
def tickBegin (k : Nat) (s : Dev) : Dev :=
  let s : Dev := { s with grid := { s.grid with ticks := s.grid.ticks + 1 } }
  let s := (s.commit .tick 0 reedLo).commit .tick reedHi (2 ^ 32)
  let s := schedShow (resumeTick s)
  let s := eachStation (fun n => heatTick n k) (mapTick s)
  let s := captureNext s.t0.nanos (lampTick s)
  lanesTick (chainTick (dramPoll (recoatRelease s)))

/-- TICK_BOUNDARY (R22): the tick under way ends, and the next begins. Without T0 there is no boundary. -/
def tickBoundary (lateAxis : List (Fin 3 × Station)) (latePower : List Station) (s : Dev) : Dev :=
  if !s.on (NETT_CTRL_EN 0) then s
  else
    let s := advanceTick (tickWork s.t0.tick lateAxis latePower s)
    tickBegin s.t0.tick s

/-! ### At a period boundary -/

/-- The work of the boundary of period `p` (R22, R133, R265, R287, R542, R585). -/
def periodBegin (p : Nat) (s : Dev) : Dev :=
  let s : Dev := { s with grid := { s.grid with lastPeriod := some p } }
  let s := (s.commit .period 0 reedLo).commit .period reedHi (2 ^ 32)
  let s := eachStation linkPeriod (monLatch s)
  let s := eachStation (fun n t => shtPeriod n p (deadlinePeriod n t)) s
  let s := (List.finRange 8).foldl (fun (t : Dev) (c : PinChannel) => pinPeriod c t.t0.nanos t) s
  trimSaveStage (eachStation trimPeriod s)

/-- A boundary every `m` ticks of T0: if T0 stands at the one before it, its tick boundary comes first. -/
def reach (m : Nat) (s : Dev) : Dev := if (s.t0.tick + 1) % m = 0 then tickBoundary [] [] s else s

/-- PERIOD_BOUNDARY (R22): once for each period. -/
def periodBoundary (s : Dev) : Dev :=
  if !s.on (NETT_CTRL_EN 0) then s
  else
    let s := reach 4 s
    let k := s.t0.tick
    if k % 4 ≠ 0 || s.grid.lastPeriod = some (k / 4) then s else periodBegin (k / 4) s

/-! ### At a management-tick boundary -/

/-- The events that were counted in the management tick that ends stage their records (R634). -/
def flushHeld (s : Dev) : Dev :=
  let held := s.ev.held
  held.foldl (fun (t : Dev) (r : EvRec) => stage (t.logRec 2 r.event r.words false) t)
    { s with ev := { s.ev with held := [], logged := [], cdcSeen := false } }

/-- The management-paced work of the device (R22, R408, R415, R437, R505, R595, R613, R634). -/
def managementBegin (ms : Nat) (mr4 : List (Word × Bool)) (s : Dev) : Dev :=
  let s : Dev := { s with grid := { s.grid with lastMs := some ms } }
  let s := flushHeld s
  let s : Dev := { s with crl := { s.crl with ovfSeen := [], ceSeen := false } }
  let s := (s.portMod 0 fun x => { x with dropSeen := false }).portMod 1 fun x => { x with dropSeen := false }
  logMs (dramManagement mr4 s)

/-- MANAGEMENT_TICK (R22): once for each management tick; `mr4` is what the ranks report (R437). -/
def managementTick (mr4 : List (Word × Bool)) (s : Dev) : Dev :=
  if !s.on (NETT_CTRL_EN 0) then s
  else
    let s := if (s.t0.tick + 1) % 2000 = 0 then periodBoundary s else s
    let k := s.t0.tick
    if k % 2000 ≠ 0 || s.grid.lastMs = some (k / 2000) then s else managementBegin (k / 2000) mr4 s

end Sys2Proof.Machine
end

