-- ==== Sys2Proof/Machine/BootOps.lean ====
section
/-!
DEFINITION. Reset (R509, R526, R680, R681), the fuse and life-cycle commands (R513, R514), the update commands (R525) and
Doff's trigger and freeze (R617, R618).
-/
namespace Sys2Proof.Machine

open Reg

def Dev.startMod (s : Dev) (f : Startup → Startup) : Dev := { s with start := f s.start }

/-- An ignored write or command of the DEV block (R529, R682). -/
def devLocked (s : Dev) : Dev := aonFlag DEV_FLAGS_WRITE_LOCKED 13 0xFF s

/-! ### Fuses and life-cycle (R512 to R514, R681) -/

/-- A fuse group programmed: 1 KEY_HASH, 2 the key-encryption key, 3 EPOCH. Fuses are programmed once, and EPOCH never
falls. -/
def Otp.fuse (o : Otp) (op : Nat) (data : List Byte) : Otp :=
  match op with
  | 1 => { o with keyHash := o.keyHash.or (some data) }
  | 2 => { o with kek := o.kek.or (some data) }
  | 3 => { o with epoch := max o.epoch (leAt data 0 1) }
  | _ => o

/-- The life-cycle fuses programmed: the state only moves forward (R512). -/
def Otp.advance (o : Otp) (t : Nat) : Otp := { o with lifeCycle := max o.lifeCycle t }

/-- The transitions that R513 permits, from the state in force. -/
def lcPermitted (inForce target : Nat) (fused : Bool) : Bool :=
  match target with
  | 1 => inForce == 0
  | 2 => inForce ≤ 1 && fused
  | 3 => inForce == 1 || inForce == 2
  | _ => false

/-- A write of DEV_LC_CMD (R513, R663, R682). -/
def lcCommand (w : Nat) (vpp : Bool) (s : Dev) : Dev :=
  let t := w % 16
  let o := s.start.fuses
  let permitted := lcPermitted (s.get DEV_LC_IN_FORCE) t (o.keyHash.isSome && o.kek.isSome)
  if w / 65536 ≠ 0x1C0D || !permitted || t ≤ o.lifeCycle || s.start.lcJob.isSome || !vpp then devLocked s
  else secWipe 3 (s.startMod fun x => { x with lcJob := some t })

/-- The DEV_FUSE_DATA registers are cleared after every command (R514). -/
def fuseClear (s : Dev) : Dev := (List.range 12).foldl (fun (t : Dev) i => t.setReg (DEV_FUSE_DATA i) 0) s

/-- A fuse command ends with a result (R514). -/
def fuseEnd (result : Nat) (s : Dev) : Dev :=
  aonEvent 12 0xFF 0 none (fuseClear (s.setReg DEV_FUSE_STAT (result * 2)))

/-- The data of fuse group `op`. -/
def Dev.fuseData (s : Dev) (op : Nat) : List Byte :=
  match op with
  | 1 => (List.range 12).flatMap fun i => leBytes 4 (s.reg (DEV_FUSE_DATA i))
  | 2 => (List.range 8).flatMap fun i => leBytes 4 (s.reg (DEV_FUSE_DATA i))
  | _ => leBytes 1 s.sec.epoch

/-- Whether group `op` may be programmed: not programmed yet, and in a state that R514 lists. -/
def Dev.fuseOk (s : Dev) (op : Nat) : Bool :=
  let lc := s.get DEV_LC_IN_FORCE
  let o := s.start.fuses
  match op with
  | 1 => lc ≤ 1 && o.keyHash.isNone
  | 2 => lc ≤ 1 && o.kek.isNone
  | 3 => lc == 2 && s.get DEV_STATE_SLOT < 2 && o.epoch < s.sec.epoch
  | _ => false

/-- A write of DEV_FUSE_CMD (R514, R663, R682). -/
def fuseCommand (w : Nat) (vpp : Bool) (s : Dev) : Dev :=
  let op := w % 4
  if w / 65536 ≠ 0xF05E || s.on DEV_FUSE_STAT_BUSY then devLocked s
  else if op = 0 then s
  else if !s.fuseOk op then fuseEnd 1 s
  else if !vpp then fuseEnd 2 s
  else
    let job := (op, s.fuseData op)
    fuseClear ((s.put DEV_FUSE_STAT_BUSY 1).startMod fun x => { x with fuseJob := some job })

/-- Fuse programming ends (R514): the fuses and the device, which shows them as programmed. -/
def fuseDone (programmed : Bool) (o : Otp) (s : Dev) : Otp × Dev :=
  match s.start.fuseJob with
  | none => (o, s)
  | some (op, data) =>
    let s := s.startMod fun x => { x with fuseJob := none }
    if programmed then (o.fuse op data, fuseEnd 0 (s.startMod fun x => { x with fuses := x.fuses.fuse op data }))
    else (o, fuseEnd 2 s)

/-- Life-cycle programming completes (R513); the state in force stays until the next reset. -/
def lcDone (o : Otp) (s : Dev) : Otp × Dev :=
  match s.start.lcJob with
  | none => (o, s)
  | some t =>
    (o.advance t, aonEvent 8 0xFF 0 none (s.startMod fun x => { x with lcJob := none, fuses := x.fuses.advance t }))

/-- Programming is cut short (R681): each group reads as unprogrammed or as fully programmed, and the spec leaves open
which. A life-cycle command that leaves PROGRAMMED as it was sets WRITE_LOCKED (R663). -/
def programmingCut (o : Otp) (s : Dev) : Otp × Dev :=
  let (b, s) := s.fresh 1
  let (o, s) := fuseDone (b == 1) o s
  let (c, s) := s.fresh 1
  if s.start.lcJob.isNone then (o, s)
  else if c = 1 then lcDone o s
  else (o, devLocked (s.startMod fun x => { x with lcJob := none }))

/-! ### Reset -/

/-- The blocks whose registers lie in the AON domain: DEV, CLK, THM, DOF, SEC (R40, R611). -/
def aonBlock (a : Nat) : Bool := [0, 1, 0x11, 0x13, 0x15].contains (a / 0x10000)

/-- The registers of `keep` that stay, before anything else runs. -/
def Dev.keepRegs (s : Dev) (keep : Nat → Bool) : List (Nat × Word) := s.regs.filter fun e => keep e.1

/-- Whether stage FUSES may end (R510, R562, R652, R654). -/
def Dev.fusesDone (s : Dev) : Bool :=
  s.start.strapped && !s.on DEV_STRAPS_TESTMODE && !s.thm.shut && !(bit (s.reg THM_LAST_SHUT) 31 && s.thm.cool < 4)

/-- Stage FUSES: the fuses are read and fix the life-cycle state (R510, R512). Its end starts stage CLOCKS. -/
def stageFuses (o : Otp) (s : Dev) : Dev :=
  let s := (s.startMod fun x => { x with fuses := o }).put DEV_LC_IN_FORCE o.lifeCycle
  let s := s.put DEV_STATE_STATE 1
  if s.fusesDone then s.put DEV_STATE_STATE 2 else s

/-- PORST_N low (R509): the device is in reset. The flash, THM_LAST_SHUT (R562) and the level of EMIT_GATE_N stay. -/
def porstLow (o : Otp) (s : Dev) : Otp × Dev :=
  let low := s.get EVT_FLT_GATE_PIN_LOW
  let (o, s) := programmingCut o s
  (o, { Dev.reset with free := s.free, flash := s.flash, regs := s.keepRegs (· == THM_LAST_SHUT) }.put EVT_FLT_GATE_PIN_LOW low)

/-- A soft reset (R526): as PORST_N on everything except the AON domain and DEV_RESET_CAUSE. `skip` names image slots
that the start that follows does not try (R520). -/
def softReset (skip : Bool × Bool) (s : Dev) : Dev :=
  let low := s.get EVT_FLT_GATE_PIN_LOW
  let st : Startup := { Startup.reset with
    porstLow := false, fuses := s.start.fuses, fuseJob := s.start.fuseJob, lcJob := s.start.lcJob, skip := skip,
    authLost := s.start.authLost, strapped := s.start.strapped }
  let t : Dev := { Dev.reset with
    free := s.free, flash := s.flash, regs := s.keepRegs aonBlock, start := st, thm := s.thm,
    dof := { s.dof with active := false, frozen := false, matched := 0 } }
  let t := (t.put EVT_FLT_GATE_PIN_LOW low).setReg DEV_RESET_CAUSE 2
  -- the volatile partition is cleared; what of the update it held is gone
  let t := (wrapClear (t.setReg SEC_KEY_STAT 0)).put SEC_STATUS_KEY_VALID 0
  let t := secShow (((t.put DEV_UPD_STAT_STATE 0).put DEV_UPD_STAT_BUSY 0).put DEV_UPD_STAT_TEMP_WAIT 0)
  -- no image is in force, and no clock but AON and those of pins runs
  let t := ((t.setReg DEV_STATE 0x21).setReg DEV_ID5 0).setReg DEV_ID6 0
  let t := t.setReg DEV_IMG_FAIL ((if skip.2 then 10 * 256 else 0) + (if skip.1 then 10 else 0))
  let t := ((t.setReg CLK_LIVE (Nat.land (t.reg CLK_LIVE) 0x183C1)).setReg CLK_LANE_LIVE 0).setReg CLK_PLL 0
  stageFuses s.start.fuses t

/-- A write of DEV_RESET (R526, R682). -/
def resetCommand (w : Nat) (s : Dev) : Dev :=
  if w / 65536 ≠ 0x5A17 then devLocked s else if bit w 0 then softReset (false, false) s else s

/-! ### Update commands (R525) -/

/-- The update logic's state, as it will read once a recheck that runs has ended (R528). -/
def updState (n : Nat) (s : Dev) : Dev :=
  if s.sec.recheck.isSome then { s with sec := { s.sec with recheck := some n } } else s.put DEV_UPD_STAT_STATE n

/-- A failure of an update (R525). -/
def updFail (result : Nat) (s : Dev) : Dev :=
  aonEvent 7 0xFF 0 none ((s.put DEV_UPD_STAT_RESULT result).put DEV_FLAGS_UPD_FAIL 1)

/-- The command that ran has ended. -/
def updIdle (s : Dev) : Dev :=
  showTempWait ((s.startMod fun x => { x with updRun := none }).put DEV_UPD_STAT_BUSY 0)

/-- LAYER_CLOSE is complete and no update holds it any more: the Treadle leaves it (R526). -/
def closeLeave (s : Dev) : Dev := if s.closeDone && !s.updateWaits && !s.start.passTwo then leaveClose s else s

/-- CANCEL (R525). -/
def updCancel (s : Dev) : Dev :=
  closeLeave ({ s with sec := { s.sec with staged := none } }.put DEV_UPD_STAT_STATE 0)

/-- A write of DEV_UPD_CMD (R525, R528): one that is not valid now is ignored. -/
def updCommand (c : Nat) (s : Dev) : Dev :=
  let st := s.get DEV_UPD_STAT_STATE
  let free' := s.start.updRun.isNone && !s.start.passTwo && s.sec.recheck.isNone
  let run (s : Dev) : Dev := showTempWait ((s.startMod fun x => { x with updRun := some c }).put DEV_UPD_STAT_BUSY 1)
  let lost := s.start.authLost
  if c = 0 then s
  else if !free' then devLocked s
  else if c = 1 && st ≤ 1 && !lost then run s
  else if c = 2 && st = 1 && !lost then run s
  else if c = 3 && st = 2 && !lost then run s
  else if c = 4 && 1 ≤ st && st ≤ 3 then updCancel s
  else devLocked s

/-! ### Doff (R617, R618) -/

def Dev.dofMod (s : Dev) (f : Doff → Doff) : Dev := { s with dof := f s.dof }

/-- A trigger is taken (R617, R618): a later one is only counted. -/
def doffTake (cause : Nat) (s : Dev) : Dev :=
  if s.dof.active then s.countF DOF_STATUS_LATER
  else
    let s := s.setReg DOF_STATUS (cause * 16 + 1)
    let s := (s.setReg DOF_SNAP_SEC s.t0.sec).setReg DOF_SNAP_NS s.t0.ns
    let s := (s.setReg DOF_SNAP_FAULT (s.reg EVT_FLT_LAST)).setReg DOF_SNAP_TRD (s.reg TRD_STATE)
    let s := s.dofMod fun d => { d with active := true }
    let s := aonEvent 248 0xFF 0x8B (some sevHalt) s
    let s := if s.fabRuns then gateClose 0 s else s.fltMod fun f => { f with gateOpen := false, gateHigh := none }
    let trained := s.on DRC_STATUS_TRAINED0 || s.on DRC_STATUS_TRAINED1
    let s := if trained then s.drcMod fun d => { d with selfRef := Vector.replicate 2 true } else s
    if s.get DEV_LC_IN_FORCE = 2 then secWipe 6 s else s

/-- A write of DOF_CMD (R617, R682). -/
def doffCommand (w : Nat) (s : Dev) : Dev :=
  if w / 65536 ≠ 0xD0FF then aonEvent 249 0xFF 0 none s else if bit w 0 then doffTake 2 s else s

/-- A trigger of Doff (R617): the pin, a write of DOF_CMD, or a fault that matched DOF_CTRL. -/
def doffTrigger (t : DoffTrigger) (s : Dev) : Dev :=
  match t with
  | .pin => if s.on DOF_CTRL_PIN_EN then doffTake 1 s else s
  | .command w => doffCommand w.toNat s
  | .fault =>
    if s.dof.matched = 0 then s else doffTake 3 (s.dofMod fun d => { d with matched := d.matched - 1 })

/-- The stop strobe, 1 µs after the trigger (R618). -/
def doffFreeze (s : Dev) : Dev :=
  if !s.dof.active || s.dof.frozen then s
  else
    let s := (s.setReg CLK_LIVE (Nat.land (s.reg CLK_LIVE) 0x10001)).setReg CLK_LANE_LIVE 0
    (s.put DOF_STATUS_FROZEN 1).dofMod fun d => { d with frozen := true }

end Sys2Proof.Machine
end

