-- ==== Sys2Proof/Machine/RegOps.lean ====
section
/-!
DEFINITION. What a management read returns and what a management write does to a register that has no effect of its own:
the field classes of R13, the locks of R16, and the views that read as computed values.
-/
namespace Sys2Proof.Machine

open Reg

/-- Index `k` of a group of `n` like things. -/
abbrev nth (n k : Nat) [NeZero n] : Fin n := Fin.ofNat n k

/-- The instance that the address stands for: station, axis, channel and port blocks of the given base and stride. -/
def instOf (a base stride : Nat) : Nat := (a - base) / stride

/-- The loop whose register block holds the address (R203, R204). -/
def loopAt (a : Nat) : LoopId :=
  let e := (a - 0xA0000) / 0x4000
  let r := (a - 0xA0000) % 0x4000
  if e < 3 then .pos (nth 3 e) (nth 16 (r / 0x100 - 1))
  else if r < 0x2000 then .pwr (nth 16 (r / 0x100 - 1))
  else .aux (nth 8 ((r - 0x2000) / 0x100))

/-- The engine that holds the address. -/
def engineAt (a : Nat) : Nat := (a - 0xA0000) / 0x4000

/-! ### Locks (R16) -/

/-- Whether the RWL fields of the register at `a` are locked now. -/
def lockHeld (l : Lock) (a : Nat) (s : Dev) : Bool :=
  match l with
  | .none => false
  | .treadle => s.trdState ≠ tIdle && s.trdState ≠ tAborted
  | .shedPass => s.get SHD_STATUS_PASS ≠ 0
  | .monitor => decide (s.trdStage = tScan)
  | .shuttle | .trimBase => s.shuttlesRun
  | .reedEngine | .reedLoop => s.on (REED_CTRL_ENABLE (engineAt a))
  | .archive => s.on (MPLS_CTRL_ARCH_EN (instOf a 0xB0000 0x1000))
  | .map => s.on MPL_CTRL_MAP_EN
  | .wctrl => decide (s.linkState (nth 16 (instOf a 0x58000 0x100)) = lRun)
  | .feedback => s.on (FBK_EN_EN (instOf a 0x90000 0x100))
  | .cmpOwned => (s.pin (nth 8 (instOf a 0x90000 0x100))).owned
  | .axis => s.axRunning (nth 8 (instOf a 0xC0000 0x100))
  | .isp => s.on ISP_CTRL_ENABLE
  | .camPort => s.on (ISPC_CTRL_EN (instOf a 0xD0100 0x100))
  | .i2c => s.on (ISPC_CTRL_EN (instOf a 0xD0600 0x20))
  | .tapestry => s.on TAP_CTRL_ENABLE
  | .video => s.on TAP_VID_CTRL_VID_EN
  | .lamp => false
  | .lampChain => s.on LMP_CTRL_CHAIN_EN
  | .lampMatrix => s.on LMP_CTRL_MTX_EN
  | .lampColour => s.on LMP_CTRL_COLOUR_EN
  | .bobbin => s.bobOpen (instOf a 0x31000 0x40)
  | .dram => s.on DRC_CTRL_ENABLE
  | .lane => s.on (LANE_CTRL_EN (instOf a 0x50100 0x100))
  | .laneTest => s.inService (nth 18 (instOf a 0x50100 0x100))
  | .refCfg => s.stationLaneOn
  | .netPorts => s.on NET_CTRL_N0_EN || s.on NET_CTRL_N1_EN
  | .timeBase => s.on (NETT_CTRL_EN (instOf a 0x62000 0x100))

/-- The owning block's WRITE_LOCKED flag, with its event. -/
def lockMark (l : Lock) (a : Nat) (s : Dev) : Dev :=
  match l with
  | .none | .lamp => s
  | .treadle => writeLocked TRD_STATUS_WRITE_LOCKED 110 0xFF s
  | .shedPass | .monitor => writeLocked SHD_FLAGS_WRITE_LOCKED 122 0xFF s
  | .shuttle => let n := nth 16 (instOf a 0x80000 0x1000); shtFlag n (SHT_FLAGS_WRITE_LOCKED n) 0 s
  | .trimBase => writeLocked TRM_FLAGS_WRITE_LOCKED 230 0xFF s
  | .reedEngine => s.put (REED_FLAGS_WRITE_LOCKED (engineAt a)) 1
  | .reedLoop => loopFlag (loopAt a) 8 0 s
  | .archive => let n := nth 16 (instOf a 0xB0000 0x1000); mplFlag n (MPLS_FLAGS_WRITE_LOCKED n) 0 s
  | .map => mplGlobal MPL_FLAGS_WRITE_LOCKED 0 s
  | .wctrl => let n := nth 16 (instOf a 0x58000 0x100); linkFlag n (LNK_WFLAGS_WRITE_LOCKED n) 0 s
  | .feedback | .cmpOwned => let c := nth 8 (instOf a 0x90000 0x100); pinFlag c (FBK_FLAGS_WRITE_LOCKED c) 0 s
  | .axis => let m := nth 8 (instOf a 0xC0000 0x100); axisFlag m (AXS_FLAGS_WRITE_LOCKED m) s
  | .isp => writeLocked ISP_FLAGS_WRITE_LOCKED 204 0xFF s
  | .camPort => let c := nth 4 (instOf a 0xD0100 0x100); camFlag c (ISPC_FLAGS_WRITE_LOCKED c) 0 s
  | .i2c => let c := nth 4 (instOf a 0xD0600 0x20); camFlag c (ISPC_FLAGS_WRITE_LOCKED c) 0 s
  | .tapestry | .video => writeLocked TAP_FLAGS_WRITE_LOCKED 213 0xFF s
  | .lampChain | .lampMatrix | .lampColour => writeLocked LMP_FLAGS_WRITE_LOCKED 222 0xFF s
  | .bobbin => writeLocked CRL_FLAGS_WRITE_LOCKED 44 0xFF s
  | .dram => writeLocked DRC_FLAGS_WRITE_LOCKED 58 0xFF s
  | .lane | .laneTest => let l := nth 18 (instOf a 0x50100 0x100); laneFlag l (LANE_FLAGS_WRITE_LOCKED l) s
  | .refCfg => writeLocked LNK_FLAGS_WRITE_LOCKED 82 0xFF s
  | .netPorts | .timeBase => netLocked s

/-! ### A write under the field classes (R13) -/

/-- The fields of one class of the register at `a` take the bits of `w`. -/
def setMasked (a w mask : Nat) (s : Dev) : Dev := if mask = 0 then s else s.setReg a (mergeBits (s.reg a) w mask)

/-- RWL fields (R16). -/
def setLocked (l : Lock) (a w mask : Nat) (s : Dev) : Dev :=
  if mask = 0 then s else if lockHeld l a s then lockMark l a s else setMasked a w mask s

/-- A write of the register at `a`, each field under its access code (R13, R15, R16); nothing where the address is
undefined (R11). -/
def plainWrite (a w : Nat) (s : Dev) : Dev :=
  match rowAt a with
  | none => s
  | some r =>
    let s := setMasked a w r.rw (setLocked r.lock a w r.rwl s)
    let s := setMasked a 0 (Nat.land w r.w1c) s
    let s := setMasked a 0xFFFFFFFF (Nat.land w r.w1s) s
    if r.rws = 0 then s else s.setShadow a (mergeBits (s.written a) w r.rws)

/-- A register whose RWL fields are locked while its own enable `f` is 1 (R17): a write that clears the enable is performed
on that bit alone. -/
def enableWrite (f : Field) (w : Nat) (s : Dev) : Dev :=
  if s.on f && !bit w f.lo then s.put f 0 else plainWrite f.addr w s

/-! ### Views -/

/-- IRQ pin `k` is active (R631). -/
def Dev.irqActive (s : Dev) (k : Nat) : Bool :=
  s.on EVT_CTRL_IRQ_EN &&
    (List.range 256).any fun e => bit (s.reg (EVT_PEND (e / 32))) (e % 32) && bit (s.reg (EVT_CFG e)) k

/-- The level of IRQ pin `k` (R631): low while IRQ_EN is 0 from release on. -/
def Dev.irqLevel (s : Dev) (k : Nat) : Bool := s.irqActive k != bit (s.reg EVT_IRQ_CFG) k

/-- Bits 0 to `n` - 1 as a number. -/
def bitsOf (n : Nat) (f : Nat → Bool) : Nat := ((List.range n).map fun i => b2n (f i) * 2 ^ i).sum

def viewEvtStatus (s : Dev) : Nat :=
  s.ev.openRecs.length * 65536 + bitsOf 4 s.irqActive * 256 + bitsOf 8 fun i => s.reg (EVT_PEND i) ≠ 0

def viewFltStatus (s : Dev) : Nat :=
  let base := b2n (s.on EVT_FLT_STATUS_HALTED) * 2 ^ 31 + s.flt.queue.length * 65536
  match s.flt.running with
  | some h => base + h.code * 256 + 4 + h.sev
  | none => base

/-- WAL_STATUS (R606). -/
def viewWal (s : Dev) : Nat :=
  let st := if s.wal.fails ≥ 3 then 4 else if !s.on WAL_CTRL_EN then 0 else if !s.wal.ready then 1 else if s.logHeld then 3 else 2
  st + s.get WAL_STATUS_READOUT * 256 + b2n s.earlyLog * 512

/-- The register at the value in force with what its read-only fields compute; most registers are as stored. -/
def viewNow (a : Nat) (s : Dev) : Nat :=
  let v := s.reg a
  if a = DEV_ID2 || a = DEV_ID3 || a = DEV_ID4 then devWord (a / 4)
  else if a = DEV_ID7 then s.identity.getD 7 0
  else if a = DEV_LC then putBits v 7 4 s.start.fuses.lifeCycle
  else if a = DEV_EPOCH then s.start.fuses.epoch
  else if a = DEV_KEY_STATE then b2n s.start.fuses.keyHash.isSome + 2 * b2n s.start.fuses.kek.isSome
  else if DEV_KEY_HASH 0 ≤ a && a < DEV_KEY_HASH 12 then
    match s.start.fuses.keyHash with | some h => leAt h (a - DEV_KEY_HASH 0) 4 | none => 0
  else if (DEV_FUSE_DATA 0 ≤ a && a < DEV_FUSE_DATA 12) || (SEC_KEY_WRAP 0 ≤ a && a < SEC_KEY_WRAP 10) then 0
  else if a = EVT_STATUS then viewEvtStatus s
  else if a = EVT_FLT_STATUS then viewFltStatus s
  else if a = EVT_FLT_GATE then putBits v 9 9 (b2n s.emitOk)
  else if 0x31000 ≤ a && a < 0x33000 && a % 64 = 0x14 then s.bobFill ((a - 0x31000) / 64)
  else if 0x31000 ≤ a && a < 0x33000 && a % 64 = 0x24 then putBits v 4 4 (b2n (s.bobOpen ((a - 0x31000) / 64)))
  else if a = DRC_STATUS then putBits v 10 10 (b2n s.panicNow)
  else if a = LNK_STATUS then putBits v 2 2 (b2n (s.on LNK_REF_CFG_SSC_EN && s.on LNK_STATUS_S_PLL_LOCK))
  else if a = NET_STATUS then putBits v 8 8 (b2n s.isTail)
  else if a = NETP_STATUS 0 || a = NETP_STATUS 1 then
    let p := nth 2 (instOf a 0x61000 0x100)
    putBits (putBits (putBits v 4 4 (b2n (s.upstream == p))) 3 3 (b2n (s.on (portStandby p)))) 0 0 (b2n (s.portUp p))
  else if a = SHD_RETIRED then s.reg EVT_FLT_RETIRED % 65536
  else if a / 0x10000 = 8 && a % 0x1000 = 4 then putBits v 3 0 (s.shtPhase (nth 16 (instOf a 0x80000 0x1000)))
  else if a / 0x10000 = 10 && a % 0x100 = 4 && (rowAt a).isSome && a % 0x4000 ≠ 4 then
    putBits v 15 15 (b2n (s.shadow.any fun e => (loopAt a).base ≤ e.1 && e.1 < (loopAt a).top))
  else if a / 0x10000 = 11 && a % 0x1000 = 4 then putBits v 0 0 (b2n (s.on (MPLS_CTRL_EN (instOf a 0xB0000 0x1000))))
  else if a / 0x10000 = 13 && a % 0x100 = 4 && 0x104 ≤ a % 0x10000 && a % 0x10000 < 0x500 then
    putBits v 0 0 (b2n (s.camBusy (nth 4 (instOf a 0xD0100 0x100)) s.t0.nanos))
  else if a = TAP_STATUS then putBits v 25 16 (if s.throttles 1 then 300 else 600)
  else if a = WAL_STATUS then viewWal s
  else if SEC_NONCE 0 ≤ a && a < SEC_NONCE 3 then
    vat s.sec.nonces (nth 16 (s.reg SEC_NONCE_SEL)) / 2 ^ (8 * (a - SEC_NONCE 0)) % 2 ^ 32
  else v

/-- What a read of the register at `a` returns; with `inForce` the value in force of RWS fields instead of the last one
written (R15, R621). Undefined offsets read 0 (R11). -/
def viewReg (inForce : Bool) (a : Nat) (s : Dev) : Nat :=
  match rowAt a with
  | none => 0
  | some r => if inForce || r.rws = 0 then viewNow a s else mergeBits (viewNow a s) (s.written a) r.rws

/-- A real read clears the RC fields to their reset value (R13). -/
def readClear (a : Nat) (s : Dev) : Dev :=
  match rowAt a with
  | none => s
  | some r => setMasked a r.reset r.rc s

end Sys2Proof.Machine
end

