-- ==== Sys2Proof/Machine/RegWrites.lean ====
section
/-!
DEFINITION. A management write, block by block: what a register with an effect of its own does, and the field classes of
R13 for every other. A command register acts as the command of its chapter.
-/
namespace Sys2Proof.Machine

open Reg

/-- The time of a write: the start of the current tick, in ns of T0. -/
def Dev.wnow (s : Dev) : Nat := s.t0.nanos

/-- SEC_KEY_CMD (R420, R421, R682). -/
def secKeyCmd (w : Nat) (s : Dev) : Dev :=
  let op := bits w 9 8
  if op = 1 || op = 2 then keyCommand op (nth 16 w) s
  else if op = 3 then (if w / 65536 = 0x5EC0 then secWipe 5 s else aonFlag SEC_FLAGS_WRITE_LOCKED 44 0xFF s)
  else s

def writeDevBlk (a w : Nat) (s : Dev) : Dev :=
  if a = DEV_RESET then resetCommand w s
  else if a = DEV_LC_CMD then lcCommand w true s
  else if a = DEV_FUSE_CMD then fuseCommand w true s
  else if DEV_FUSE_DATA 0 ≤ a && a < DEV_FUSE_DATA 12 then s.setReg a w
  else if a = DEV_UPD_CMD then updCommand (w % 8) s
  else plainWrite a w s

def writeEvtBlk (a w : Nat) (s : Dev) : Dev :=
  if a = EVT_FLT_CMD then fltCommand w s
  else if a = EVT_FLT_GATE then swGate w 0 s
  else plainWrite a w s

def writeCrlBlk (a w : Nat) (s : Dev) : Dev :=
  if 0x31000 ≤ a && a < 0x33000 && a % 64 = 0 then bobConfig (nth 128 (instOf a 0x31000 0x40)) w s
  else plainWrite a w s

def writeDrcBlk (a w : Nat) (s : Dev) : Dev :=
  if a = DRC_CTRL then (if bit w 0 then dramEnable w s else dramDisable w s)
  else if a = DRC_FREQ then freqRequest w s
  else plainWrite a w s

/-- LNK_n_WCTRL (R278, R279, R572): locked in RUN but for a write that clears EN, which takes the station's link down and
retires the station; setting EN brings its lane into service. -/
def writeWctrl (n : Station) (w : Nat) (s : Dev) : Dev :=
  let a := LNK_WCTRL n
  let was := s.on (LNK_WCTRL_EN n)
  if was && !bit w 0 then
    let s := if lockHeld .wctrl a s then s.put (LNK_WCTRL_EN n) 0 else plainWrite a w s
    retireStation n 0 (linkOff n s)
  else
    let s := plainWrite a w s
    if was || !s.on (LNK_WCTRL_EN n) then s
    else
      let l : Lane := nth 18 n.val
      let s := laneService l s
      if s.blockLock n.val then linkLock n s else s

/-- One lane's registers (R465 to R472). -/
def writeLane (l : Lane) (off a w : Nat) (s : Dev) : Dev :=
  if off = 0x00 then laneCtrl l w s
  else if off = 0x0C then laneTx l w s
  else if off = 0x44 then
    let s := if bit w 1 then scanAbort l s else s
    if bit w 0 then scanStart l s else s
  else if off = 0x60 then laneTest l w s
  else if off = 0x64 then inject l w s
  else plainWrite a w s

def writeLnkBlk (a w : Nat) (s : Dev) : Dev :=
  let off := a % 0x100
  if a = LNK_REF_CFG then refCfg w s
  else if 0x50100 ≤ a && a < 0x51300 then writeLane (nth 18 (instOf a 0x50100 0x100)) off a w s
  else if 0x58000 ≤ a && a < 0x59000 then
    let n := nth 16 (instOf a 0x58000 0x100)
    if off = 0 then writeWctrl n w s
    else if off = 0x28 then (if w % 4 = 1 || w % 4 = 2 then svcCmd n (w % 4) s else s)
    else plainWrite a w s
  else plainWrite a w s

/-- NET_PPS_IN (R503): the wait for an edge begins when the input is enabled. -/
def writePpsIn (w : Nat) (s : Dev) : Dev :=
  let was := s.on NET_PPS_IN_PPS_IN_EN
  let s := plainWrite NET_PPS_IN w s
  if was || !s.on NET_PPS_IN_PPS_IN_EN then s else { s with chain := { s.chain with ppsSince := some s.grid.ticks } }

def writeTimeBase (b : Base) (off a w : Nat) (s : Dev) : Dev :=
  if off = 0x00 then timeBaseCtrl b w s
  else if off = 0x08 then (if bit w 0 then timeCapture b 0 s else s)
  else if off = 0x1C then (if s.baseSrc b = 2 then plainWrite a w s else s)
  else if off = 0x34 then (if w % 4 = 1 then stepSet b s else if w % 4 = 2 then stepAdd b s else s)
  else plainWrite a w s

def writeNetBlk (a w : Nat) (s : Dev) : Dev :=
  let off := a % 0x100
  if a = NET_CTRL then netCtrl w s
  else if a = NET_PPS_IN then writePpsIn w s
  else if 0x61000 ≤ a && a < 0x61200 && off = 0x50 then
    let p := nth 2 (instOf a 0x61000 0x100)
    let s := if bit w 1 then tlFlush p s else s
    if bit w 0 then tlQueue p w 0 s else s
  else if 0x62000 ≤ a && a < 0x62400 then writeTimeBase (nth 4 (instOf a 0x62000 0x100)) off a w s
  else plainWrite a w s

/-- SHD_MON_CTRL (R131): locked in SCAN, but a write that clears MON_EN turns the plume monitor off. -/
def writeMonitor (w : Nat) (s : Dev) : Dev :=
  if s.on SHD_MON_CTRL_MON_EN && !bit w 0 then
    let s := if lockHeld .monitor SHD_MON_CTRL s then s else plainWrite SHD_MON_CTRL w s
    monitorOff s
  else plainWrite SHD_MON_CTRL w s

def writeShdBlk (a w : Nat) (s : Dev) : Dev := if a = SHD_MON_CTRL then writeMonitor w s else plainWrite a w s

/-- SHT (R169, R572): a station whose ENABLE is cleared is retired. -/
def writeShtBlk (a w : Nat) (s : Dev) : Dev :=
  if a % 0x1000 = 0 then
    let n : Station := nth 16 (instOf a 0x80000 0x1000)
    let s := plainWrite a w s
    if s.on (SHT_CTRL_ENABLE n) then s else retireStation n 0 s
  else plainWrite a w s

def writeFbkBlk (a w : Nat) (s : Dev) : Dev :=
  let c : PinChannel := nth 8 (instOf a 0x90000 0x100)
  if 0x90800 ≤ a then plainWrite a w s
  else match a % 0x100 with
    | 0x04 => pinEnable c w s
    | 0x0C => pinCountWrite c w s.wnow s
    | 0x40 => cmpVal c w s
    | 0x44 | 0x4C =>
      if (s.pin c).owned then lockMark .cmpOwned a s else cmpReaim c (plainWrite a w s)
    | 0x48 => cmpCtrl c w s
    | _ => plainWrite a w s

def writeReedBlk (a w : Nat) (s : Dev) : Dev :=
  if a % 0x4000 = 0 then enableWrite (REED_CTRL_ENABLE (engineAt a)) w s else plainWrite a w s

/-- MPL_n_ARCH_CTRL (R239, R245): FREEZE, READ and RESUME act at once, the other fields wait for the frame. -/
def writeArch (n : Station) (w : Nat) (s : Dev) : Dev :=
  let a := MPLS_ARCH_CTRL n
  let s := s.setShadow a (mergeBits (s.written a) w 0xFFFF00E0)
  let s := if bit w 0 then archFreeze n s else s
  let s := if bit w 1 then archRead n s else s
  if bit w 2 then archResume n s else s

def writeMplBlk (a w : Nat) (s : Dev) : Dev :=
  if a = MPL_CTRL then
    let was := s.on MPL_CTRL_MAP_EN
    let s := enableWrite MPL_CTRL_MAP_EN w s
    if !was && s.on MPL_CTRL_MAP_EN then mapClear s else s
  else if a % 0x1000 = 0x58 then writeArch (nth 16 (instOf a 0xB0000 0x1000)) w s
  else plainWrite a w s

def writeAxsBlk (a w : Nat) (s : Dev) : Dev :=
  let m : Axis := nth 8 (instOf a 0xC0000 0x100)
  if 0xC0800 ≤ a then s
  else match a % 0x100 with
    | 0x00 => axCtrl m w s
    | 0x0C =>
      match w % 8 with
      | 1 => axStop m s
      | 2 => axHalt m s
      | 3 => axHome m s
      | 4 => axDropPending m true s
      | _ => s
    | 0x14 => axTarget m w false s
    | 0x10 | 0x1C => if s.axOwned m then lockMark .axis a s else plainWrite a w s
    | _ => plainWrite a w s

/-- ISP_c_CTRL (R17, R340): a port whose EN is cleared drops the frame it captures. -/
def writeCamCtrl (c : Camera) (w : Nat) (s : Dev) : Dev :=
  let was := s.on (ISPC_CTRL_EN c)
  let s := enableWrite (ISPC_CTRL_EN c) w s
  if was && !s.on (ISPC_CTRL_EN c) then
    match (s.cam c).capturing, (s.cam c).frames.getLast? with
    | true, some f => camDrop c f 4 s.wnow s
    | _, _ => s
  else s

def writeIspBlk (a w : Nat) (s : Dev) : Dev :=
  let off := a % 0x10000
  if a = ISP_CTRL then
    let was := s.on ISP_CTRL_ENABLE
    let s := enableWrite ISP_CTRL_ENABLE w s
    if !was && s.on ISP_CTRL_ENABLE then ispEnable s else s
  else if 0x100 ≤ off && off < 0x500 then
    let c : Camera := nth 4 (instOf a 0xD0100 0x100)
    if a % 0x100 = 0 then writeCamCtrl c w s
    else if a % 0x100 = 0x1C then (if bit w 0 then camTrigger c 3 false false s.wnow s else s)
    else plainWrite a w s
  else if 0x600 ≤ off && off < 0x680 && a % 0x20 = 0x10 then
    if bit w 0 then i2cCmd (nth 4 (instOf a 0xD0600 0x20)) s else s
  else plainWrite a w s

def writeTapBlk (a w : Nat) (s : Dev) : Dev :=
  let off := a % 0x10000
  if a = TAP_CTRL then tapCtrl (w % 8) s
  else if a = TAP_VID_CTRL then vidCtrl w s
  else if a = TAP_CUR_COMMIT then (if bit w 0 then planeCommit 8 s else s)
  else if 0x100 ≤ off && off < 0x300 then
    let i := instOf a 0xE0100 0x40
    match a % 0x40 with
    | 0x04 => if bit w 0 then planeCommit (nth 9 (i % 8)) s else s
    | 0x08 => if bit w 0 then planeFlip (nth 8 i) s else s
    | _ => plainWrite a w s
  else plainWrite a w s

/-- LMP_CTRL (R17, R398): each unit's enable; TEST_EN is locked while the matrix runs. -/
def lampCtrl (w : Nat) (s : Dev) : Dev :=
  let was (f : Field) : Bool := s.on f
  let s1 := ((s.put LMP_CTRL_CHAIN_EN (w % 2)).put LMP_CTRL_MTX_EN (bits w 1 1)).put LMP_CTRL_COLOUR_EN (bits w 2 2)
  let s1 := if was LMP_CTRL_CHAIN_EN && !bit w 0 then
      ((s1.put LMP_STATUS_CHAIN_BUSY 0).put LMP_CHAIN_COMMIT_R385 0).lmpMod fun l => { l with tx := none, txQ := [], latchDue := false }
    else s1
  let s1 := if was LMP_CTRL_MTX_EN && !bit w 1 then s1.lmpMod fun l => { l with phase := .off } else s1
  let s1 := if !was LMP_CTRL_COLOUR_EN && bit w 2 then
      (List.range 3).foldl (fun (t : Dev) g => t.setReg (LMP_COL_GAIN g) 0xFFFF) s1
    else s1
  if bits w 3 3 = s.get LMP_CTRL_TEST_EN then s1
  else if was LMP_CTRL_MTX_EN then writeLocked LMP_FLAGS_WRITE_LOCKED 222 0xFF s1
  else s1.put LMP_CTRL_TEST_EN (bits w 3 3)

def writeLmpBlk (a w : Nat) (s : Dev) : Dev :=
  if a = LMP_CTRL then lampCtrl w s
  else if a = LMP_CHAIN_COMMIT then
    (if bit w 0 && s.on LMP_CTRL_CHAIN_EN then chainCommit (s.put LMP_CHAIN_COMMIT_R385 1) else s)
  else plainWrite a w s

def writeTrmBlk (a w : Nat) (s : Dev) : Dev :=
  if a = TRM_CMD then
    match w % 4 with
    | 1 => trimSaveStage (trimSave s)
    | 2 => trimRegister s
    | 3 => trimRegAbort s
    | _ => s
  else if 0x101000 ≤ a && a < 0x102000 then
    let n : Station := nth 16 (instOf a 0x101000 0x100)
    match a % 0x100 with
    | 0x00 =>
      match w % 8 with
      | 1 => trimStart n false s
      | 2 => trimStart n true s
      | 3 => trimAbort n s
      | 4 => trimApply n s
      | 5 => trimRebuild n s
      | _ => s
    | 0x24 => trimDarkNew n w s
    | _ => plainWrite a w s
  else plainWrite a w s

def writeThmBlk (a w : Nat) (s : Dev) : Dev := if a = THM_FAILED then failedClear w s else plainWrite a w s

def writeWalBlk (a w : Nat) (s : Dev) : Dev :=
  if a = WAL_RD_CMD then (if bit w 0 then logLoad s else s) else plainWrite a w s

def writeDofBlk (a w : Nat) (s : Dev) : Dev := if a = DOF_CMD then doffCommand w s else plainWrite a w s

/-- The RWS registers of the Treadle commit at once while no job can be under way (R86). -/
def trdCommitNow (s : Dev) : Dev :=
  if s.trdState = tIdle || !s.on TRD_CTRL_ENABLE then s.commit .layerTrd 0x140000 0x150000 else s

def writeTrdBlk (a w : Nat) (s : Dev) : Dev :=
  if a = TRD_CTRL then trdCommitNow (enableWrite TRD_CTRL_ENABLE w s)
  else if a = TRD_CMD then
    match w % 16 with
    | 1 => pauseCommand none s
    | 2 => resumeCommand none s
    | 3 => abortCommand none s
    | 4 => clearCommand none s
    | _ => s
  else trdCommitNow (plainWrite a w s)

def writeSecBlk (a w : Nat) (s : Dev) : Dev :=
  if a = SEC_KEY_CMD then secKeyCmd w s
  else if SEC_KEY_WRAP 0 ≤ a && a < SEC_KEY_WRAP 10 then s.setReg a w
  else plainWrite a w s

/-- A management write of `w` to the register at byte address `a` (R13, R42). An undefined offset ignores it (R11). -/
def writeReg (a w : Nat) (s : Dev) : Dev :=
  match a / 0x10000 with
  | 0 => writeDevBlk a w s
  | 2 => writeEvtBlk a w s
  | 3 => writeCrlBlk a w s
  | 4 => writeDrcBlk a w s
  | 5 => writeLnkBlk a w s
  | 6 => writeNetBlk a w s
  | 7 => writeShdBlk a w s
  | 8 => writeShtBlk a w s
  | 9 => writeFbkBlk a w s
  | 10 => writeReedBlk a w s
  | 11 => writeMplBlk a w s
  | 12 => writeAxsBlk a w s
  | 13 => writeIspBlk a w s
  | 14 => writeTapBlk a w s
  | 15 => writeLmpBlk a w s
  | 16 => writeTrmBlk a w s
  | 17 => writeThmBlk a w s
  | 18 => writeWalBlk a w s
  | 19 => writeDofBlk a w s
  | 20 => writeTrdBlk a w s
  | 21 => writeSecBlk a w s
  | _ => plainWrite a w s

end Sys2Proof.Machine
end

