-- ==== Sys2Proof/Machine/MgmtOps.lean ====
section
/-!
DEFINITION. The management address space and its three paths (R10, R42 to R49), the management requests of the chain (R486)
and the access over JTAG (R623).
-/
namespace Sys2Proof.Machine

open Reg

def Dev.mgmMod (s : Dev) (f : Mgmt → Mgmt) : Dev := { s with mgm := f s.mgm }

/-- The Creel window (R43). -/
def inWindow (a : Nat) : Bool := 0x1000000 ≤ a && a < 0x3000000

/-- The clock domain of the register or window word at byte address `a` (R40, R49); none for an undefined address, which
needs no clock. -/
def addrDomain (a : Nat) : Option Nat :=
  let off := a % 0x10000
  if inWindow a then some domFab
  else match a / 0x10000 with
    | 0 | 1 | 17 | 19 | 21 => some domAon
    | 9 => some (if off < 0x1000 then domMch else domFab)
    | 12 | 15 => some domMch
    | 13 => some (if 0x600 ≤ off && off < 0x680 then domMch else domFab)
    | b => if b < 22 then some domFab else none

/-- Whether an access of this path to `a` can be performed now: the domain of the register runs, and for the chain its
ports' (R49, R611). -/
def Dev.reachable (s : Dev) (p : Path) (a : Nat) : Bool :=
  (p ≠ .chain || s.fabRuns) && (match addrDomain a with | some d => s.runs d | none => true)

/-- An aligned access, performed: the word read, and the device after it (R10, R11, R13, R43). A word of a station's mailbox
in the window is not writable (R276). -/
def accessWord (write : Bool) (a w : Nat) (s : Dev) : Nat × Dev :=
  if inWindow a then
    let c := a - 0x1000000
    if !write then (s.creelNat c 4, s)
    else (0, if a < 0x2FE0000 then s.setCreelBytes c (leBytes 4 w) else s)
  else if write then (0, writeReg a w s)
  else (viewReg false a s, readClear a s)

/-! ### The host SPI and JTAG paths -/

/-- The status of a path's last access, and the word it read: 0 done, 1 held, 2 error (R623). The chain's answers stand in its
reply frames. -/
def answer (p : Path) (st v : Nat) (s : Dev) : Dev :=
  match p with
  | .chain => s
  | .hostSpi => s.mgmMod fun m => { m with hostStatus := st, hostData := v }
  | .jtag => s.mgmMod fun m => { m with jtagStatus := st, jtagData := v }

/-- One access performed, or refused as misaligned (R10). -/
def perform (x : MgmtAccess) (s : Dev) : Dev :=
  if x.addr % 4 ≠ 0 then answer x.path 2 0 s
  else
    let (v, s) := accessWord x.write x.addr x.data s
    answer x.path 0 v s

/-- A path is held while an earlier access of it waits (R45, R49). -/
def Dev.pathHeld (s : Dev) (p : Path) : Bool :=
  s.mgm.held.any (·.path == p) || (p == .chain && !s.mgm.chain.isEmpty)

/-- An access arrives on its path (R45, R49). -/
def mgmtAccess (x : MgmtAccess) (s : Dev) : Dev :=
  if s.pathHeld x.path || !s.reachable x.path x.addr then
    answer x.path 1 0 (s.mgmMod fun m => { m with held := m.held ++ [x] })
  else perform x s

/-- The oldest held access that can be performed now and has no earlier one of its path before it. -/
def pickHeld (s : Dev) : List Path → List MgmtAccess → Option MgmtAccess
  | _, [] => none
  | seen, x :: t =>
    if seen.contains x.path || !s.reachable x.path x.addr then pickHeld s (x.path :: seen) t else some x

/-- Held accesses whose clock is back are performed, each path in its order. -/
def heldResume : Nat → Dev → Dev
  | 0, s => s
  | k + 1, s =>
    match pickHeld s [] s.mgm.held with
    | some x => heldResume k (perform x (s.mgmMod fun m => { m with held := m.held.erase x }))
    | none => s

/-! ### The chain (R486) -/

/-- A reply to a management request. -/
def mgmtReply (op seqNo status addr count : Nat) (ws : List Nat) (s : Dev) : Dev :=
  portsKick (sendReply 1 seqNo (wordsBytes ([op + count * 256 + status * 65536, addr] ++ ws)) s)

/-- The words of a request accessed in order: 0 done, 1 an access failed, 2 held; with the address and the words left, and
the words performed as read. -/
def frameWords (write : Bool) : Nat → List Nat → List Nat → Dev → (Nat × Nat × List Nat × List Nat) × Dev
  | a, [], did, s => ((0, a, [], did), s)
  | a, w :: t, did, s =>
    if a % 4 ≠ 0 then ((1, a, w :: t, did), s)
    else if !s.reachable .chain a then ((2, a, w :: t, did), s)
    else
      let (v, s) := accessWord write a w s
      frameWords write ((a + 4) % 2 ^ 32) t (did ++ [v]) s

/-- A request runs until it ends or is held. A request that resets the chain's own domain is answered by nothing. -/
def frameRun (f : MgmtFrame) (s : Dev) : Dev :=
  let first := (f.addr + 2 ^ 32 - 4 * f.did.length % 2 ^ 32) % 2 ^ 32
  let ((st, a, left, did), s) := frameWords f.write f.addr f.left f.did s
  if !s.fabRuns then s
  else if st = 2 then s.mgmMod fun m => { m with chain := { f with addr := a, left := left, did := did } :: m.chain }
  else mgmtReply (if f.write then 0x82 else 0x81) f.seqNo st first did.length (if f.write then [] else did) s

/-- The chain's held request goes on. -/
def frameResume (s : Dev) : Dev :=
  match s.mgm.chain with
  | [] => s
  | f :: t => if s.mgm.held.any (·.path == .chain) then s else frameRun f (s.mgmMod fun m => { m with chain := t })

/-- A clock is back (R49): what it held goes on. -/
def mgmtResume (s : Dev) : Dev :=
  let s := heldResume s.mgm.held.length s
  if s.fabRuns then frameResume s else s

/-- The management request at the head of a port's receive bobbin, if its OP is one of those wanted. While the path is held
no further request is taken (R49). -/
def mgmtFrame (p : Port) (want : List Byte → Bool) (f : Frame → Dev → Dev) (s : Dev) : Dev :=
  match (s.cport p).rxQ with
  | x :: _ => if x.kind = 1 && want x.payload && !s.pathHeld .chain then f x (takeFrame p s) else s
  | [] => s

/-- The OP of a request; none where the payload is too short to hold word 0. -/
def mgmtOp (bs : List Byte) : Option Nat := if bs.length < 4 then none else some (leAt bs 0 1)

/-- A READ or WRITE request (R485, R486). -/
def mgmtWords (write : Bool) (x : Frame) (s : Dev) : Dev :=
  let op := if write then 0x82 else 0x81
  let count := leAt x.payload 1 1
  let addr := leAt x.payload 4 4
  let short := x.payload.length < 8 || (write && x.payload.length < 8 + 4 * count)
  if !s.on NET_STATUS_ADDR_VALID then mgmtReply op x.seqNo 3 addr 0 [] s
  else if count = 0 || 64 < count || short then mgmtReply op x.seqNo 4 addr 0 [] s
  else
    let ws := (List.range count).map fun i => if write then leAt x.payload (8 + 4 * i) 4 else 0
    frameRun ⟨x.seqNo, write, addr, ws, []⟩ s

/-- An IDENTITY request (R484, R486). -/
def mgmtIdentity (x : Frame) (s : Dev) : Dev := mgmtReply 0x83 x.seqNo 0 (leAt x.payload 4 4) 8 s.identity s

/-- A request of an undefined OP, or too short to hold one (R486). -/
def mgmtBadOp (x : Frame) (s : Dev) : Dev :=
  mgmtReply 0x80 x.seqNo (if (mgmtOp x.payload).isNone then 4 else 2) (leAt x.payload 4 4) 0 [] s

/-! ### JTAG (R620 to R623) -/

/-- An Update-DR of MGMT (R623): ignored while the previous access is held. -/
def jtagMgmt (op addr w : Nat) (s : Dev) : Dev :=
  if s.pathHeld .jtag || op = 0 || op = 3 then s else mgmtAccess ⟨.jtag, op == 2, addr, w⟩ s

/-- An Update-DR of DOFF_ADDR; its Capture-DR has loaded DOF_STATUS (R620). -/
def jtagDoffAddr (w : Nat) (s : Dev) : Dev :=
  let status := s.reg DOF_STATUS
  s.dofMod fun d => { d with space := w / 2 ^ 30 % 4, addr := w % 2 ^ 30, capture := status }

/-- The word at an address of a readout space (R621, R622). -/
def Dev.doffWord (s : Dev) (space k : Nat) : Nat :=
  match space with
  | 0 => if k < 8388608 then s.creelNat (4 * k) 4 else 0
  | 1 => if k ≤ 0x57FFF then viewReg false (4 * k) s else 0
  | 2 => if k ≤ 0x57FFF then viewReg true (4 * k) s else 0
  | _ => 0

/-- A Capture-DR of DOFF_READ (R622): the word at the address, which then goes up by one; 0 outside Doff. -/
def jtagDoffRead (uncorrectable : Bool) (s : Dev) : Dev :=
  if !s.dof.active then s.dofMod fun d => { d with capture := 0 }
  else
    let k := s.dof.addr
    let v := s.doffWord s.dof.space k
    let s := if uncorrectable && s.dof.space = 0 && k < 8388608 then s.count DOF_UE 1 else s
    s.dofMod fun d => { d with capture := v, addr := (k + 1) % 2 ^ 30 }

/-- A Capture-DR of IDCODE (R620). -/
def jtagIdcode (s : Dev) : Dev :=
  let word := devWord 2 / 256 % 16 * 2 ^ 28 + s.get DEV_ID0_PART * 2 ^ 12 + Config.jtagMaker.toNat * 2 + 1
  s.dofMod fun d => { d with capture := word }

end Sys2Proof.Machine
end

