-- ==== Sys2Proof/Machine/Clocks.lean ====
section
/-!
DEFINITION. The commands of the clock monitor (R611 to R614), of the PLLs (R571, R625) and of Doff (R617, R618). Domains 0 to 16
are the bits of CLK_LIVE, 17 to 34 the lane receive domains LRX0 to LRX17.
-/
namespace Sys2Proof.Machine

open Reg

/-- The register and the bit that show the clock of domain `d`. -/
def liveBit (d : Nat) : Nat × Nat := if d < 17 then (CLK_LIVE, d) else (CLK_LANE_LIVE, d - 17)

/-- Whether the monitor sees domain `d` run. -/
def Dev.live (s : Dev) (d : Nat) : Bool := bit (s.reg (liveBit d).1) (liveBit d).2

/-- The monitor's bit for domain `d`. -/
def setLive (d : Nat) (on : Bool) (s : Dev) : Dev :=
  s.setReg (liveBit d).1 (setBit (s.reg (liveBit d).1) (liveBit d).2 on)

/-- The clock of a domain is lost (R611); AON's always runs. -/
def clockLost (d : Nat) (s : Dev) : Dev := if d = 0 || !s.live d then s else aonEvent 16 0xFF 0 none (setLive d false s)

/-- Entries that the reset of a domain's side of its crossings discarded (R613). DRAM and flash data never are (R614). -/
def cdcFlush (d n : Nat) (s : Dev) : Dev :=
  if n = 0 || d = 10 || d = 11 || d = 14 then s
  else
    let s := (s.count CLK_FLUSH_COUNT n).setReg CLK_FLUSH_LAST (d * 65536 + min n 0xFFFF)
    let s := s.put CLK_FLAGS_CDC_FLUSH 1
    if s.ev.cdcSeen then s
    else aonEvent 18 0xFF 0x8A (some sevInfo) { s with ev := { s.ev with cdcSeen := true } }

/-- The clock of a domain returns (R611 to R613). After shutdown (R561) and under Doff (R618) it does not. -/
def clockReturn (d n : Nat) (s : Dev) : Dev :=
  if s.live d || s.thm.stopped || s.dof.frozen then s
  else
    let s := cdcFlush d n (aonEvent 17 0xFF 0 none (setLive d true s))
    mgmtResume (if d = domFab then replayCrossing s else s)

/-- A fabric, DRAM, media or video PLL loses lock (R625): the bit of CLK_PLL is its number. -/
def pllLoss (p : Nat) (s : Dev) : Dev :=
  if !bit (s.reg CLK_PLL) p then s
  else aonEvent 19 0xFF 0 none ((s.setReg CLK_PLL (setBit (s.reg CLK_PLL) p false)).put CLK_FLAGS_PLL_LOSS 1)

/-- A PLL locks (R571, R625): 0 to 4 as in CLK_PLL, 5 the station lane PLL, 6 the chain lane PLL, whose lock completes the
recovery of CLANE_PLL for both ports. -/
def pllRelock (p : Nat) (s : Dev) : Dev :=
  if p < 5 then s.setReg CLK_PLL (setBit (s.reg CLK_PLL) p true)
  else if p = 5 then s.put LNK_STATUS_S_PLL_LOCK 1
  else
    let endOf (u : Fin 19) (t : Dev) : Dev :=
      if (vat t.flt.recovery u).any (·.code == 0x21) then recovered u t else t
    endOf 17 (endOf 16 (s.put LNK_STATUS_C_PLL_LOCK 1))

def execClockLost (d : Fin 35) (s : State) : Done := actAon (clockLost d.val) s
def execClockReturn (d : Fin 35) (discarded : Nat) (s : State) : Done := actAon (clockReturn d.val discarded) s
def execPllLoss (p : Fin 5) (s : State) : Done := actAon (pllLoss p.val) s
def execPllRelock (p : Fin 7) (s : State) : Done := actAon (pllRelock p.val) s
def execDoffTrigger (t : DoffTrigger) (s : State) : Done := actAon (doffTrigger t) s
def execDoffFreeze (s : State) : Done := actAon doffFreeze s

end Sys2Proof.Machine
end

