-- ==== Sys2Proof/Machine/Creel.lean ====
section
/-!
DEFINITION. The commands of the Creel and of the secure partition (R399 to R427).
-/
namespace Sys2Proof.Machine

open Reg

/-- A write of CRL_Bb_CFG with EN = 1 (R413). -/
def execBobbinEnable (b : Bobbin) (w : Word) (s : State) : Done := actFab (bobConfig b (setBit w.toNat 0 true)) s

/-- A write of CRL_Bb_CFG with EN = 0 (R414). -/
def execBobbinDisable (b : Bobbin) (w : Word) (s : State) : Done := actFab (bobConfig b (setBit w.toNat 0 false)) s

/-- The scrub reads of one interval (R416): whether they found no idle cycle in time, and what they find. -/
def execScrubRead (late : Bool) (result : ScrubResult) (s : State) : Done := actFab (scrubRead late result) s

/-- SEC_KEY_CMD LOAD (R419, R420). -/
def execKeyLoad (slot : KeySlot) (s : State) : Done := actAon (keyCommand 1 slot) s

/-- SEC_KEY_CMD ERASE (R419, R420). -/
def execKeyErase (slot : KeySlot) (s : State) : Done := actAon (keyCommand 2 slot) s

/-- SEC_KEY_CMD WIPE_ALL with this KEY (R421, R682). -/
def execWipeAll (key : Word) (s : State) : Done :=
  actAon (fun d => if key.toNat % 65536 = 0x5EC0 then secWipe 5 d else aonFlag SEC_FLAGS_WRITE_LOCKED 44 0xFF d) s

/-- TAMPER_N has been low for 200 ns (R421, R529). -/
def execTamper (s : State) : Done := actAon (fun d => secWipe 0 (aonEvent 9 0xFF 0 none d)) s

/-- The voltage detector, or with `clock` the clock detector, trips (R421, R529). -/
def execGlitch (clock : Bool) (s : State) : Done :=
  actAon (fun d => secWipe (if clock then 2 else 1) (aonEvent 10 0xFF 0 none d)) s

/-- The wipe completes (R422, R528); a pending update that this ends holds LAYER_CLOSE no longer (R526). -/
def execSecWipe (s : State) : Done := actAon (fun d => closeLeave (secWiped d)) s

end Sys2Proof.Machine
end

