-- ==== Sys2Proof/Machine/ImageOps.lean ====
section
/-!
DEFINITION. The configuration image: its format (R515 to R519), the verify and apply passes (R520 to R524), and the passes of
an update (R525 to R528).
-/
namespace Sys2Proof.Machine

open Reg

/-- Where an image is read from: the bytes from an offset. -/
abbrev ImgRead := Nat → Nat → List Byte

/-- Flash slot A (0) or B (1) (R515). -/
def Dev.slotRead (s : Dev) (k : Nat) : ImgRead := fun a n => s.flashBytes (k * 0x800000 + a) n

/-- The image that the host has placed in the Creel (R525). -/
def Dev.updRead (s : Dev) : ImgRead := fun a n => s.creelBytes (s.reg DEV_UPD_BASE + a) n

/-- A little-endian field of the image. -/
def imgNat (rd : ImgRead) (a n : Nat) : Nat := leNat (rd a n)

def imgLen (rd : ImgRead) : Nat := imgNat rd 0x08 4
def imgCount (rd : ImgRead) : Nat := imgNat rd 0x0C 2
def imgSigned (rd : ImgRead) : Bool := imgNat rd 0x0E 2 % 2 == 1
def imgSeq (rd : ImgRead) : Nat := imgNat rd 0x10 4
def imgEpoch (rd : ImgRead) : Nat := imgNat rd 0x14 1
def imgVariants (rd : ImgRead) : Nat := imgNat rd 0x15 1
def imgId (rd : ImgRead) : Nat := imgNat rd 0x18 4

/-- The header makes a candidate (R520). -/
def imgCandidate (rd : ImgRead) : Bool :=
  imgNat rd 0 4 == 0x46435A4B && imgNat rd 4 2 == 1 && imgNat rd 6 2 == 0x40 && imgLen rd ≤ 8388408 &&
    imgNat rd 0x3C 4 == crc32c (rd 0 0x3C)

/-- The fields of the header that R516 fixes beyond those of a candidate. -/
def imgHeaderOk (rd : ImgRead) : Bool :=
  imgNat rd 0x0E 2 < 2 && imgEpoch rd ≤ 64 && imgVariants rd < 8 && imgNat rd 0x16 2 == 0 && imgNat rd 0x1C 32 == 0 &&
    1 ≤ imgCount rd && imgCount rd ≤ 4096

/-- A section (R517): its header and where its payload starts. -/
structure ImgSec where
  typ : Nat
  phase : Nat
  zero : Nat
  len : Nat
  dest : Nat
  crc : Nat
  off : Nat
deriving DecidableEq, Repr

def imgSec (rd : ImgRead) (a : Nat) : ImgSec where
  typ := imgNat rd a 1
  phase := imgNat rd (a + 1) 1
  zero := imgNat rd (a + 2) 2
  len := imgNat rd (a + 4) 4
  dest := imgNat rd (a + 8) 4
  crc := imgNat rd (a + 12) 4
  off := a + 16

/-- The sections from offset `a`, up to END or to `lim`; and the offset after the last. -/
def imgSecs (rd : ImgRead) (lim : Nat) : Nat → Nat → List ImgSec × Nat
  | 0, a => ([], a)
  | k + 1, a =>
    if lim < a + 16 then ([], a)
    else
      let x := imgSec rd a
      if x.typ = 15 then ([x], a + 16 + x.len)
      else
        let (t, e) := imgSecs rd lim k (a + 16 + divUp x.len 8 * 8)
        (x :: t, e)

/-- The CRC of a section covers the first 12 bytes of its header and the payload (R517). -/
def ImgSec.crcOk (rd : ImgRead) (x : ImgSec) : Bool := crc32c (rd (x.off - 16) 12 ++ rd x.off x.len) == x.crc

/-- A register address that a section may name (R518). -/
def regAddrOk (a : Nat) : Bool := a % 4 == 0 && a ≤ 0x15FFFF

/-- The loop block of REED that holds `a`, by its number; none outside the loops. -/
def loopBlock (a : Nat) : Option Nat :=
  let e := (a - 0xA0000) / 0x4000
  let r := (a - 0xA0000) % 0x4000
  if a < 0xA0000 || 0xB0000 ≤ a then none
  else if (0x100 ≤ r && r < 0x1100) || (e = 3 && 0x2000 ≤ r && r < 0x2800) then some (a / 0x100) else none

/-- TYPE, PHASE, DEST, alignment and addresses follow R517 and R518. -/
def ImgSec.formatOk (rd : ImgRead) (lim : Nat) (x : ImgSec) : Bool :=
  let ws := bytesWords (rd x.off x.len)
  let every (k : Nat) : Bool := (List.range (x.len / (4 * k))).all fun i => regAddrOk (ws.getD (k * i) 0)
  x.phase ≤ 1 && x.zero == 0 && x.off + x.len ≤ lim &&
  match x.typ with
  | 1 => x.dest == 0 && x.len % 8 == 0 && every 2
  | 2 => x.dest == 0 && x.len % 12 == 0 && every 3
  | 3 => x.dest % 32 == 0 && x.len % 32 == 0 && x.dest + x.len ≤ 0x1FE0000
  | 4 => x.dest % 4 == 0 && x.len % 4 == 0 && (x.len == 0 || (loopBlock x.dest).isSome &&
      loopBlock x.dest == loopBlock (x.dest + x.len - 4))
  | 5 => x.len % 8 == 0 && 1 ≤ x.dest && x.dest + x.len / 8 ≤ 4096
  | 6 => x.dest < 16 && x.len == 266272
  | 15 => x.dest == 0 && x.len == 0
  | _ => false

/-- The first section that is not as it must be: 2 for its form, 3 for its CRC (R520). -/
def secsCheck (rd : ImgRead) (lim : Nat) : List ImgSec → Nat
  | [] => 0
  | x :: t => if !x.formatOk rd lim then 2 else if !x.crcOk rd then 3 else secsCheck rd lim t

/-- The sections of an image. -/
def imgSections (rd : ImgRead) : List ImgSec := (imgSecs rd (imgLen rd) 4097 0x40).1

/-- The signature block (R519): 0 when it verifies, 7 for the key, 8 for the signature. -/
def sigCheck (rd : ImgRead) (hash : Option (List Byte)) : Nat :=
  let n := imgLen rd
  let key := rd (n + 8) 96
  if hash ≠ some (sha384 key) then 7
  else if imgNat rd n 4 = 0x47535A4B && imgNat rd (n + 4) 4 = 0 &&
      ecdsaValid (beNat (key.take 48)) (beNat (key.drop 48)) (beNat (rd (n + 0x68) 48)) (beNat (rd (n + 0x98) 48)) (rd 0 n)
    then 0 else 8

/-- The signature that the life-cycle state asks for (R512, R519). -/
def Dev.signCheck (s : Dev) (rd : ImgRead) : Nat :=
  let hash := s.start.fuses.keyHash
  match s.get DEV_LC_IN_FORCE with
  | 2 => if imgSigned rd then sigCheck rd hash else 6
  | 1 => if imgSigned rd && hash.isSome then sigCheck rd hash else 0
  | _ => 0

/-- The verify pass over a candidate (R520): 0, or the DEV_IMG_FAIL code of the first rule that it breaks. -/
def Dev.imgVerify (s : Dev) (rd : ImgRead) : Nat :=
  let n := imgLen rd
  let (secs, e) := imgSecs rd n 4097 0x40
  let bad := secsCheck rd n secs
  if !imgHeaderOk rd then 2
  else if bad ≠ 0 then bad
  else if secs.length ≠ imgCount rd || e ≠ n || !(secs.getLast?.any fun x => x.typ == 15) then 2
  else if imgVariants rd % 2 = 0 then 4
  else if s.get DEV_LC_IN_FORCE = 2 && imgEpoch rd < s.start.fuses.epoch then 5
  else s.signCheck rd

/-- The SHA-384 of an image. -/
def imgDigest (rd : ImgRead) : List Byte := sha384 (rd 0 (imgLen rd))

/-! ### Applying sections (R518) -/

/-- Pairs of words. -/
def pairsOf : List Nat → List (Nat × Nat)
  | a :: b :: t => (a, b) :: pairsOf t
  | _ => []

/-- Triples of words. -/
def triplesOf : List Nat → List (Nat × Nat × Nat)
  | a :: b :: c :: t => (a, b, c) :: triplesOf t
  | _ => []

/-- The register writes that a section makes: address and value, each from the device as it then is. -/
def ImgSec.writes (rd : ImgRead) (x : ImgSec) : List (Nat × Nat × Nat) :=
  let ws := bytesWords (rd x.off x.len)
  match x.typ with
  | 1 => (pairsOf ws).map fun p => (p.1, 0xFFFFFFFF, p.2)
  | 2 => triplesOf ws
  | 4 => ws.mapIdx fun i w => (x.dest + 4 * i, 0xFFFFFFFF, w)
  | 5 => (pairsOf ws).zipIdx.flatMap fun p =>
      [(SHD_ZONE_STATIONS (x.dest + p.2), 0xFFFFFFFF, p.1.1), (SHD_ZONE_COUNT (x.dest + p.2), 0xFFFFFFFF, p.1.2)]
  | _ => []

/-- The value that a masked write gives the register at `a`. -/
def Dev.maskedValue (s : Dev) (w : Nat × Nat × Nat) : Nat :=
  if w.2.1 = 0xFFFFFFFF then w.2.2 else mergeBits (viewReg false w.1 s) w.2.2 w.2.1

/-- A section is applied; `update` says which grid buffer a GRID section fills (R157, R518). -/
def applySec (rd : ImgRead) (update : Bool) (x : ImgSec) (s : Dev) : Dev :=
  match x.typ with
  | 3 => s.setCreelBytes x.dest (rd x.off x.len)
  | 6 =>
    let sel := if update then s.get (SHT_GRID_SEL_SEL x.dest) else s.getW (SHT_GRID_SEL_SEL x.dest)
    let to' := if update then 1 - sel else sel
    let base := s.reg (if to' = 1 then SHT_GRID_BASE1 x.dest else SHT_GRID_BASE0 x.dest)
    let s := s.setCreelBytes base (rd x.off x.len)
    if update then writeReg (SHT_GRID_SEL x.dest) to' s else s
  | _ => (x.writes rd).foldl (fun (t : Dev) w => writeReg w.1 (t.maskedValue w) t) s

/-- Sections applied in image order, while STATE stays as it is: a write that resets the device ends the pass. With `check`
each CRC is checked first, and the answer says whether all were right. -/
def applySecs (rd : ImgRead) (update check : Bool) (st : Nat) : List ImgSec → Dev → Bool × Dev
  | [], s => (true, s)
  | x :: t, s =>
    if s.get DEV_STATE_STATE ≠ st then (true, s)
    else if check && !x.crcOk rd then (false, s)
    else applySecs rd update check st t (applySec rd update x s)

/-! ### Start (R520 to R524) -/

/-- The reason why slot `k` is not in force (DEV_IMG_FAIL). -/
def setImgFail (k code : Nat) (s : Dev) : Dev := s.setReg DEV_IMG_FAIL (putBits (s.reg DEV_IMG_FAIL) (8 * k + 7) (8 * k) code)

/-- Component `k` of a pair. -/
def slotOf (k : Nat) (p : Bool × Bool) : Bool := if k = 0 then p.1 else p.2
def slotSet (k : Nat) (p : Bool × Bool) : Bool × Bool := if k = 0 then (true, p.2) else (p.1, true)

/-- No slot yields a valid image (R523). -/
def mgmtOnly (s : Dev) : Dev :=
  let s := faultEvent 0x02 sevInfo 0xFF 2 (s.put DEV_STATE_STATE 7)
  let s := [16, 17].foldl (fun (t : Dev) l => laneCtrl (nth 18 l) (setBit (t.reg (LANE_CTRL l)) 0 true) t) s
  let s := (List.range 4).foldl (fun (t : Dev) k =>
    let b := 64 + k
    let t := (t.setReg (CRLB_BASE b) (k * 0x10000)).setReg (CRLB_SIZE b) 2048
    bobConfig (nth 128 b) (setBit (t.reg (CRLB_CFG b)) 0 true) t) s
  netCtrl 0x13 s

/-- The next candidate is tried: descending IMG_SEQ, slot A first (R520). -/
def nextCandidate (s : Dev) : Dev :=
  let ok (k : Nat) : Bool :=
    imgCandidate (s.slotRead k) && !slotOf k s.start.skip && !slotOf k s.start.failed
  let take (k : Nat) : Dev := s.startMod fun x => { x with trying := some k, applying := false }
  if ok 0 && ok 1 then take (if imgSeq (s.slotRead 0) < imgSeq (s.slotRead 1) then 1 else 0)
  else if ok 0 then take 0
  else if ok 1 then take 1
  else mgmtOnly (s.startMod fun x => { x with trying := none, applying := false })

/-- Stage IMAGE starts (R520): what is no candidate has its reason recorded. -/
def imageStage (s : Dev) : Dev :=
  let note (k : Nat) (t : Dev) : Dev :=
    if slotOf k t.start.skip then setImgFail k 10 t
    else if imgCandidate (t.slotRead k) then setImgFail k 0 t else setImgFail k 1 t
  nextCandidate (note 1 (note 0 (s.put DEV_STATE_STATE 3)))

/-- A candidate fails verification. -/
def imageRejected (k code : Nat) (s : Dev) : Dev :=
  let s := s.startMod fun x => { x with failed := slotSet k x.failed, trying := none }
  let s := faultEvent 0x01 sevInfo 0xFF 1 ((setImgFail k code s).put DEV_FLAGS_IMAGE_REJECTED 1)
  nextCandidate s

/-- What the configuration-authentication state keeps of the image in force (R522). -/
def Dev.authTake (s : Dev) (rd : ImgRead) : Dev :=
  { s with sec := { s.sec with digest := imgDigest rd, epoch := imgEpoch rd, seqNo := imgSeq rd } }.put DEV_STATE_AUTH_OK 1

/-- The verify pass over the candidate completes (R520). -/
def imageVerified (readGood : Bool) (s : Dev) : Dev :=
  match s.start.trying with
  | some k =>
    if s.get DEV_STATE_STATE ≠ 3 || s.start.applying then s
    else
      let rd := s.slotRead k
      let code := if readGood then s.imgVerify rd else 9
      if code ≠ 0 then imageRejected k code s
      else (s.authTake rd).startMod fun x => { x with applying := true }
  | none => s

/-- A slot that changed between its passes: a soft reset, after which it is not tried again (R520). -/
def imageChanged (k : Nat) (s : Dev) : Dev := softReset (slotSet k s.start.skip) s

/-- The slot is in force (R521). -/
def Dev.inForce (s : Dev) (k : Nat) (rd : ImgRead) : Dev :=
  ((s.put DEV_STATE_SLOT k).setReg DEV_ID5 (imgId rd)).setReg DEV_ID6 (imgSeq rd)

/-- Training has failed in stage DRAM (R524). -/
def noDram (s : Dev) : Dev := occur 3 0xFF 0 (s.put DEV_STATE_STATE 8)

/-- DRAM is trained: the phase-1 sections are read again and applied, and start-up continues (R511, R524). -/
def phaseOne (s : Dev) : Dev :=
  let k := s.get DEV_STATE_SLOT
  let rd := s.slotRead k
  let secs := imgSections rd
  if imgDigest rd ≠ s.sec.digest || !(secs.all fun x => x.crcOk rd) then imageChanged k s
  else
    let st := s.get DEV_STATE_STATE
    let s := (applySecs rd false false st (secs.filter fun x => x.phase == 1) s).2
    if s.get DEV_STATE_STATE ≠ st then s
    else if s.on NET_STATUS_ADDR_VALID then devReady s else s.put DEV_STATE_STATE 5

/-- Start-up goes on from DRAM (R510). -/
def stageDram (s : Dev) : Dev :=
  let s := s.put DEV_STATE_STATE 4
  if s.drcState = drcReady then phaseOne s else if s.drcState = drcFailed then noDram s else s

/-- The phase-0 apply completes (R520, R521). -/
def imageApplied (readGood : Bool) (s : Dev) : Dev :=
  match s.start.trying with
  | some k =>
    if s.get DEV_STATE_STATE ≠ 3 || !s.start.applying then s
    else
      let rd := s.slotRead k
      let (ok, t) := applySecs rd false true 3 ((imgSections rd).filter fun x => x.phase == 0) s
      if t.get DEV_STATE_STATE ≠ 3 then t
      else if !readGood || !ok || imgDigest rd ≠ s.sec.digest then imageChanged k t
      else stageDram ((t.startMod fun x => { x with trying := none, applying := false }).inForce k rd)
  | none => s

/-! ### Updating (R525 to R528) -/

/-- The slot that is not in force (R525): A where none is. -/
def Dev.otherSlot (s : Dev) : Nat := if s.get DEV_STATE_SLOT = 0 then 1 else 0

/-- Whether the update command `c` runs. -/
def Dev.updRuns (s : Dev) (c : Nat) : Bool := s.start.updRun == some c

/-- CHECK completes (R525). -/
def updChecked (s : Dev) : Dev :=
  if !s.updRuns 1 then s
  else
    let s := updIdle s
    let rd := s.updRead
    let need := imgLen rd + (if imgSigned rd then 200 else 0)
    let code := if s.reg DEV_UPD_LEN < 64 || !imgCandidate rd then 1
      else if s.reg DEV_UPD_LEN < need then 2 else s.imgVerify rd
    if code ≠ 0 then updFail code s
    else aonEvent 4 0xFF 0 none (updState 1 (s.put DEV_UPD_STAT_RESULT 0))

/-- PROGRAM completes, once flash writes are allowed (R525): the slot is erased, programmed and compared. -/
def updProgrammed (good : Bool) (s : Dev) : Dev :=
  if !s.updRuns 2 || s.on THM_STATUS_NVM_HOLD then s
  else
    let s := updIdle s
    let a := s.otherSlot * 0x800000
    let n := min (s.reg DEV_UPD_LEN) 0x800000
    let s := s.eraseFlash a 0x800000
    if !good then updFail 13 s
    else aonEvent 5 0xFF 0 none (updState 2 ((s.programFlash a (s.updRead 0 n)).put DEV_UPD_STAT_RESULT 0))

/-- ACTIVATE has verified the programmed slot (R525). -/
def updPending (readGood : Bool) (s : Dev) : Dev :=
  if !s.updRuns 3 then s
  else
    let s := updIdle s
    let k := s.otherSlot
    let rd := s.slotRead k
    let code := if !readGood then 9 else if !imgCandidate rd then 1 else s.imgVerify rd
    if code ≠ 0 then updFail code s
    else updState 3 ({ s with sec := { s.sec with staged := some (imgDigest rd, k) } }.put DEV_UPD_STAT_RESULT 0)

/-- Whether a pending image falls due (R526). -/
def Dev.applyDue (s : Dev) : Bool :=
  let idle := (s.trdState == tIdle || s.trdState == tAborted) && (List.finRange 3).all fun i => s.slotState i ≠ 3
  idle || s.get DEV_STATE_STATE == 7 || s.closeDone

/-- Whether a write of the update leaves every locked field as it is (R526). -/
def Dev.writeKept (s : Dev) (w : Nat × Nat × Nat) : Bool :=
  match rowAt w.1 with
  | some r =>
    let v := s.maskedValue w
    r.rwl = 0 || !lockHeld r.lock w.1 s || Nat.land (s.reg w.1) r.rwl == Nat.land v r.rwl
  | none => true

/-- STATE goes back to what it was before UPDATING. -/
def stateBack (s : Dev) : Dev :=
  (s.put DEV_STATE_STATE s.start.backState).startMod fun x => { x with passTwo := false }

/-- The update is refused in its first pass (R526). -/
def updRefused (result : Nat) (s : Dev) : Dev :=
  let s := updFail result (stateBack s)
  closeLeave (fault 0x03 sevInfo 0xFF ({ s with sec := { s.sec with staged := none } }.put DEV_UPD_STAT_STATE 2))

/-- A running Shed pass is stopped (R526): an allocation starts over, a re-allocation is asked for again. -/
def shedHalt (s : Dev) : Dev :=
  match s.shd.pass with
  | some ps => if ps.again then s else (s.put SHD_STATUS_PASS 0).shdMod fun x => { x with pass := none }
  | none => s

/-- A pending image falls due (R526): UPDATING, and the first pass. -/
def updateApply (readGood : Bool) (s : Dev) : Dev :=
  match s.sec.staged with
  | some (digest, k) =>
    if s.get DEV_UPD_STAT_STATE ≠ 3 || s.start.passTwo || !s.applyDue then s
    else
      let back := s.get DEV_STATE_STATE
      let s := shedHalt ((s.put DEV_STATE_STATE 9).startMod fun x => { x with backState := back })
      let rd := s.slotRead k
      let ws := (imgSections rd).flatMap fun x => if x.typ = 5 then [] else x.writes rd
      if !readGood || imgDigest rd ≠ digest then updRefused 11 s
      else if !(ws.all s.writeKept) then updRefused 12 s
      else s.startMod fun x => { x with passTwo := true }
  | none => s

/-- The values of the SHD block that a pass uses, as last written (R527). -/
def Dev.shedValues (s : Dev) : List (Nat × Word) × List (Nat × Word) :=
  (s.regs.filter fun e => e.1 / 0x10000 = 7 && (rowAt e.1).any (fun r => r.rws ≠ 0 || r.rwl ≠ 0),
    s.shadow.filter fun e => e.1 / 0x10000 = 7)

/-- Slots go back to ALLOCATING when the update changed the Shed (R527). -/
def reallocSlots (s : Dev) : Dev :=
  (List.finRange 3).foldl (fun (t : Dev) i =>
    if t.slotState i = 3 || t.slotState i = 4 then setSlotState i 3 t else t) s

/-- The second pass ends (R526, R527). After a read error the image is partly applied, and STATE stays UPDATING until
reset. -/
def updApplied (readGood : Bool) (s : Dev) : Dev :=
  match s.start.passTwo, s.sec.staged with
  | true, some (_, k) =>
    let rd := s.slotRead k
    let first := s.start.backState = 7
    if !readGood then
      let s := { s with sec := { s.sec with staged := none } }.startMod fun x => { x with passTwo := false }
      fault 0x04 sevHalt 0xFF (updFail 9 s)
    else
      let secs := imgSections rd
      let was := s.shedValues
      let secs := secs.filter (fun x => x.phase == 0) ++ (if first then [] else secs.filter fun x => x.phase == 1)
      let s := (applySecs rd true false 9 secs s).2
      if s.get DEV_STATE_STATE ≠ 9 then s
      else
        let s := if s.shedValues = was then s else reallocSlots s
        let s := { (s.inForce k rd).authTake rd with sec := { (s.authTake rd).sec with staged := none } }
        let s := aonEvent 6 0xFF 0 none ((s.put DEV_UPD_STAT_STATE 0).put DEV_UPD_STAT_RESULT 0)
        let s := stateBack s
        if first then stageDram s else closeLeave s
  | _, _ => s

/-- The background recheck after a wipe ends (R528). -/
def authRecheck (readGood : Bool) (s : Dev) : Dev :=
  match s.sec.recheck with
  | some back =>
    let s := { s with sec := { s.sec with recheck := none } }.put DEV_UPD_STAT_STATE back
    if readGood && imgDigest (s.slotRead (s.get DEV_STATE_SLOT)) = s.sec.digest then s.put DEV_STATE_AUTH_OK 1
    else
      aonEvent 11 0xFF 0x05 (some sevInfo) ((s.put DEV_FLAGS_AUTH_LOST 1).startMod fun x => { x with authLost := true })
  | none => s

end Sys2Proof.Machine
end

