-- ==== Sys2Proof/Machine/DramCmds.lean ====
section
/-!
DEFINITION. The commands of the DRAM controller (R429 to R447) and what they mean to the start-up (R510, R524).
-/
namespace Sys2Proof.Machine

open Reg

/-- A training step ends (R443); at start-up, training done or failed moves STATE on (R510, R524). -/
def trainingStep (passed : Bool) (osc : List Word) (s : Dev) : Dev :=
  let (r, s) := trainStep passed osc s
  let st := s.get DEV_STATE_STATE
  match r with
  | some true => if st = 4 || st = 8 then phaseOne s else s
  | some false => if st = 4 then noDram s else s
  | none => s

/-- Where record `k` of consecutive lists of these lengths lies: list, counted from `i`, and index. -/
def recordGo : Nat → Nat → List Nat → Option (Nat × Nat)
  | _, _, [] => none
  | i, k, c :: t => if k < c then some (i, k) else recordGo (i + 1) (k - c) t

/-- The place of the record at byte `off` of a plaintext body (R53): its list (16 is the selvedge list) and its index. -/
def recordAt (x : LayerSlot) (off : Nat) : Option (Nat × Nat) :=
  recordGo 0 (off / 32) (((List.finRange 16).map fun n => (vat x.own n).length) ++ [x.selv.length])

/-- The pick that a record place names, unless it is an END. -/
def LayerSlot.pickAt (x : LayerSlot) (p : Nat × Nat) : Option (List Nat) :=
  let l := if p.1 = 16 then x.selv else vat x.own (nth 16 p.1)
  (l.drop p.2).head?.filter fun w => !isEnd w

/-- The picks of a burst of the layer lists are orphaned (R119, R440): the pass that reads them has no use of them. -/
def orphanBurst (i : Slot) (a : Nat) (s : Dev) : Dev :=
  let x := vat s.trd.slots i
  let off := a / 64 * 64 - s.slotAddr i
  let ps := [off, off + 32].filterMap fun o => (recordAt x o).bind fun p => (x.pickAt p).map fun w => (p, w)
  match s.shd.pass with
  | some pass =>
    if pass.slot ≠ i || pass.again || a / 64 * 64 < s.slotAddr i then s
    else
      let selv := ps.filterMap fun p => if p.1.1 = 16 then some (tagged p.2) else none
      let groups := (pass.groups.map fun g => g.filter fun w => !selv.contains w).filter fun g => !g.isEmpty
      let s := s.shdMod fun d => { d with pass := some { pass with groups := groups } }
      let s := s.slotMod i fun y => ps.foldr (fun p (z : LayerSlot) =>
        if p.1.1 = 16 then { z with selv := z.selv.eraseIdx p.1.2 }
        else { z with own := vmod z.own (nth 16 p.1.1) fun l => l.eraseIdx p.1.2 }) y
      reportOrphans i ps.length s
  | none => s

/-- An uncorrectable DRAM read, by the area it struck (R440). -/
def dramUncorrectable (a : Nat) (area : DramArea) (diag : Option (Fin 5)) (s : Dev) : Dev :=
  if s.drcState ≠ drcReady || !s.inDram a 1 then s
  else
    let c := (s.dramLoc a).1
    match area with
    | .pickStream n =>
      if !s.layerActive then dramUE a sevInfo c diag s
      else
        let l := s.stream n
        let lost := (l.take 2).filter fun w => !isEnd w
        let s := setStream n ((l.take 2).filter isEnd ++ l.drop 2) s
        reportOrphans s.activeSlot lost.length (dramUE a sevRetire n.val diag s)
    | .layerList i => orphanBurst i a (dramUE a sevInfo c diag s)
    | .thermalMap => (dramUE a sevInfo c diag s).zeroDram (a / 64 * 64) 64
    | .other => dramUE a sevInfo c diag s

def execDramTrainStepDone (passed : Bool) (osc : List Word) (s : State) : Done := actFab (trainingStep passed osc) s
def execDramEnable (w : Word) (s : State) : Done := actFab (dramEnable (setBit w.toNat 0 true)) s
def execDramDisable (w : Word) (s : State) : Done := actFab (dramDisable (setBit w.toNat 0 false)) s
def execFreqSwitchRequest (w : Word) (s : State) : Done := actFab (freqRequest w.toNat) s
def execFreqDone (s : State) : Done := actFab freqDone s
def execDqsOscRun (c : Channel) (rank : Fin 2) (n : Nat) (s : State) : Done := actFab (oscRun c rank n) s
def execDramRefresh (c : Channel) (rank : Fin 2) (waits : Bool) (s : State) : Done := actFab (refresh c rank waits) s
def execDramScrub (c : Channel) (found : Option (Bool × Option (Fin 5))) (s : State) : Done :=
  actFab (dramScrub c found) s
def execSelfRefreshEntry (c : Channel) (s : State) : Done := actFab (selfRefresh c) s
def execDramPanic (b : Bobbin) (c : Channel) (micros : Nat) (s : State) : Done := actFab (panicLong b c micros) s
def execDramUe (addr : Nat) (area : DramArea) (diag : Option (Fin 5)) (s : State) : Done :=
  actFab (dramUncorrectable addr area diag) s
def execDramCe (addr : Nat) (comp : Fin 5) (s : State) : Done := actFab (dramCE addr comp) s

end Sys2Proof.Machine
end

