-- ==== Sys2Proof/Machine/Faults.lean ====
section
/-!
DEFINITION. The commands of the fault unit and of the event controller (R569 to R583, R631).
-/
namespace Sys2Proof.Machine

open Reg

/-- The handler that runs ends, and the next begins (R577, R578). -/
def execFaultHandler (s : State) : Done := actFab runHandler s

/-- RECOVER_TMO ends for a unit (R570). -/
def execRecoverTmo (u : Fin 19) (s : State) : Done := actFab (recoverTmo u) s

/-- EVT_FLT_CMD with RETIRE in [1:0] (R572). -/
def execRetireCmd (w : Word) (s : State) : Done := actFab (fltCommand (putBits w.toNat 1 0 1)) s

/-- EVT_FLT_CMD with CLEAR_RETIRE in [1:0] (R575). -/
def execClearRetire (w : Word) (s : State) : Done := actFab (fltCommand (putBits w.toNat 1 0 2)) s

/-- EVT_FLT_CMD with CLEAR_HALT in [1:0] (R576). -/
def execClearHalt (w : Word) (s : State) : Done := actFab (fltCommand (putBits w.toNat 1 0 3)) s

/-- EMIT_GATE_N is taken low by the filter, or is high again, `tau` ns after the tick boundary (R580). -/
def execEmitGate (low : Bool) (tau : Nat) (s : State) : Done := actAon (emitGate low tau) s

/-- A write of EVT_FLT_GATE (R583). -/
def execSwGate (w : Word) (tau : Nat) (s : State) : Done := actFab (swGate w.toNat tau) s

/-- A period boundary after the gate has been high (R582). -/
def execGateRelease (s : State) : Done := actFab gateRelease s

/-- A write of 1 to bits of EVT_PEND_i (R629, R631). -/
def execEvtPendClear (i : Fin 8) (w : Word) (s : State) : Done :=
  actFab (fun d => d.setReg (EVT_PEND i) (Nat.land (d.reg (EVT_PEND i)) (0xFFFFFFFF - w.toNat))) s

end Sys2Proof.Machine
end

