-- ==== Sys2Proof/Machine/Feedback.lean ====
section
/-!
DEFINITION. The commands of the pin feedback channels (R281 to R302).
-/
namespace Sys2Proof.Machine

/-- The accepted levels of A, B and Z change, `tau` ns into the tick (R281, R283, R291, R292). -/
def execEncoderEdge (c : PinChannel) (a b z : Bool) (tau : Nat) (s : State) : Done :=
  actMch (fun d => pinLevels c (b2n a + 2 * b2n b + 4 * b2n z) (d.t0.nanos + tau) d) s

/-- An accepted rising edge of Z (R294). -/
def execIndexPulse (c : PinChannel) (tau : Nat) (s : State) : Done :=
  actMch (fun d => pinIndex c (d.t0.nanos + tau) d) s

/-- An SSI read is due (R285, R286). -/
def execSsiReadStart (c : PinChannel) (s : State) : Done := actMch (ssiStart c) s

/-- An SSI read completes with its frame bits, first bit highest (R285). -/
def execSsiReadDone (c : PinChannel) (good : Bool) (data : Word) (tau : Nat) (s : State) : Done :=
  actMch (fun d => ssiDone c good data.toNat (d.t0.nanos + tau) d) s

/-- A write of FBK_c_COUNT (R284). -/
def execCountWrite (c : PinChannel) (w : Word) (tau : Nat) (s : State) : Done :=
  actMch (fun d => pinCountWrite c w.toNat (d.t0.nanos + tau) d) s

/-- A write of FBK_c_CMP_VAL (R291, R293). -/
def execCmpValWrite (c : PinChannel) (w : Word) (s : State) : Done := actMch (cmpVal c w.toNat) s

/-- A write of FBK_c_CMP_CTRL with ARMED = 1 (R301). -/
def execCompareArm (c : PinChannel) (w : Word) (s : State) : Done := actMch (cmpCtrl c (setBit w.toNat 0 true)) s

end Sys2Proof.Machine
end

