-- ==== Sys2Proof/Machine/Grid.lean ====
section
/-!
DEFINITION. The boundaries of the tick and period grid (R22).
-/
namespace Sys2Proof.Machine

open Reg

/-- A tick boundary (R22). -/
def execTickBoundary (lateAxis : List (Fin 3 × Station)) (latePower : List Station) (s : State) : Done :=
  actFab (tickBoundary lateAxis latePower) s

/-- A period boundary (R22). -/
def execPeriodBoundary (s : State) : Done := actFab periodBoundary s

/-- A management-tick boundary (R22). -/
def execManagementTick (mr4 : List (Word × Bool)) (s : State) : Done := actFab (managementTick mr4) s

end Sys2Proof.Machine
end

