-- ==== Sys2Proof/Machine/Jobs.lean ====
section
/-!
DEFINITION. The commands of jobs, layers and the Treadle (R50 to R92).
-/
namespace Sys2Proof.Machine

open Reg

/-- A LAYER_DATA message (R83). -/
def execLayerData (p : Port) (s : State) : Done := actFab (jobFrame p (· == 0x10) layerData) s

/-- The decryption of a complete file ends (R57). -/
def execLayerValid (i : Slot) (s : State) : Done := actFab (layerValid i) s

/-- A FAILED slot has been zeroed (R84). -/
def execSlotFree (i : Slot) (s : State) : Done := actFab (slotZeroed i) s

/-- A message that the device does not take (R82). -/
def execJobMessageUndefined (p : Port) (s : State) : Done := actFab (jobFrame p (fun t => !hostType t) undefinedMessage) s

/-- A LAYER_SCHEDULE message (R68). -/
def execLayerSchedule (p : Port) (s : State) : Done := actFab (jobFrame p (· == 0x11) layerSchedule) s

/-- A LAYER_CANCEL message (R85). -/
def execLayerCancel (p : Port) (s : State) : Done := actFab (jobFrame p (· == 0x16) layerCancel) s

/-- PAUSE, as a message or through TRD_CMD (R77, R78). -/
def execPause (message : Option Port) (s : State) : Done := actFab (pauseCommand message) s

/-- Tick k_p begins (R77). -/
def execPauseTickReached (s : State) : Done := actFab pauseTick s

/-- RESUME, as a message or through TRD_CMD (R79). -/
def execResume (message : Option Port) (s : State) : Done := actFab (resumeCommand message) s

/-- ABORT, as a message or through TRD_CMD (R81). -/
def execAbort (message : Option Port) (s : State) : Done := actFab (abortCommand message) s

/-- CLEAR, as a message or through TRD_CMD (R81). -/
def execClear (message : Option Port) (s : State) : Done := actFab (clearCommand message) s

/-- The next layer's slot is ALLOCATED (R64). -/
def execLayerPrepStart (s : State) : Done := actFab prepStart s

/-- Bobbins and look-aheads are full (R64, R71). -/
def execLayerPrepDone (s : State) : Done := actFab prepDone s

/-- The axes of a recoat step are at rest (R72). -/
def execRecoatStepDone (s : State) : Done := actFab recoatStepDone s

/-- A recoat move has failed (R72). -/
def execRecoatFault (s : State) : Done := actFab recoatFault s

/-- Powder imaging is complete (R73). -/
def execBedImageDone (s : State) : Done := actFab bedImageDone s

/-- T0 reaches the start time of a layer that is ready (R74). -/
def execScanStart (s : State) : Done := actFab layerScan s

/-- T0 reaches the start time of a layer that is not ready (R69). -/
def execLateStart (s : State) : Done := actFab lateStart s

/-- Every station has completed (R64). -/
def execScanEnd (s : State) : Done := actFab layerClose s

/-- LAYER_CLOSE completes (R76). -/
def execLayerClosed (s : State) : Done := actFab layerClosed s

end Sys2Proof.Machine
end

