-- ==== Sys2Proof/Machine/Lamps.lean ====
section
/-!
DEFINITION. The commands of the bed illumination (R382 to R397).
-/
namespace Sys2Proof.Machine

open Reg

/-- A write of 1 to LMP_CHAIN_COMMIT (R385). -/
def execChainCommit (s : State) : Done :=
  actMch (fun d => if d.on LMP_CTRL_CHAIN_EN then chainCommit (d.put LMP_CHAIN_COMMIT_R385 1) else d) s

/-- Every REFRESH ms a NOP frame collects status (R385). -/
def execChainRefresh (s : State) : Done :=
  actMch (fun d => if d.on LMP_CTRL_CHAIN_EN then chainStart (d.lmpMod fun l => { l with txQ := l.txQ ++ [0] }) else d) s

/-- A chain frame completes with these status words (R386, R396). -/
def execChainFrameDone (status : List Word) (s : State) : Done := actMch (chainDone status) s

/-- A camera's exposure window opens (R387, R388). -/
def execFlashOpen (c : Camera) (s : State) : Done := actMch (flashOpen c) s

/-- The window of a camera, or the HIT_US of a hit (none), ends (R387). -/
def execFlashClose (src : Option Camera) (s : State) : Done := actMch (flashClose src) s

/-- A row's time or blanking ends, `tau` ns into the tick; `sense` has the bit of every column that read open (R390 to
R392). -/
def execMatrixRowEnd (tau : Nat) (sense : Word) (s : State) : Done :=
  actMch (fun d => rowEnds (d.t0.nanos + tau) sense.toNat d) s

/-- Every MEAS_MS ms a colour reading starts (R393). -/
def execColourMeasure (s : State) : Done := actMch colourStart s

/-- A colour reading ends: its six bytes, and the matrix temperature read after it (R393 to R396). -/
def execColourReadingDone (data : Option (List Byte)) (temp : Option Word) (s : State) : Done :=
  actMch (colourDone data temp) s

end Sys2Proof.Machine
end

