-- ==== Sys2Proof/Machine/Lanes.lean ====
section
/-!
DEFINITION. The commands of the lanes (R456 to R470).
-/
namespace Sys2Proof.Machine

/-- A write of LNK_l_CTRL with EN = 1 (R456). -/
def execLaneEnable (l : Lane) (w : Word) (s : State) : Done := actFab (laneCtrl l (setBit w.toNat 0 true)) s

/-- Block lock, with the ns since signal detect (R457, R459). -/
def execBlockLock (l : Lane) (time : Nat) (s : State) : Done := actFab (blockLock l time) s

/-- Loss of block lock, with or without signal (R458). -/
def execLockLoss (l : Lane) (signal : Bool) (s : State) : Done := actFab (lockLost l signal) s

/-- START of LNK_l_SCAN_CMD (R463). -/
def execScanStartCmd (l : Lane) (s : State) : Done := actFab (scanStart l) s

/-- STOP of LNK_l_SCAN_CMD, with what the scan has gathered (R463). -/
def execScanStopCmd (l : Lane) (bits errors : Nat) (s : State) : Done := actFab (scanStop l bits errors) s

/-- The dwell of an eye scan is complete, with its disagreements (R463). -/
def execScanDone (l : Lane) (errors : Nat) (s : State) : Done := actFab (scanDone l errors) s

/-- A write of LNK_l_INJECT (R468, R469). -/
def execErrorInject (l : Lane) (w : Word) (s : State) : Done := actFab (inject l w.toNat) s

/-- The checker finds so many of 1,024 bits wrong (R467). -/
def execPrbsLoss (l : Lane) (mismatches : Nat) (s : State) : Done := actFab (prbsLoss l mismatches) s

/-- The checker has matched 64 bits (R467). -/
def execPrbsLock (l : Lane) (s : State) : Done := actFab (prbsLock l) s

/-- The station lane PLL loses lock (R470). -/
def execSlanePll (s : State) : Done := actFab stationPll s

/-- The chain lane PLL loses lock (R470). -/
def execClanePll (s : State) : Done := actFab chainPll s

end Sys2Proof.Machine
end

