-- ==== Sys2Proof/Machine/Link.lean ====
section
/-!
DEFINITION. The commands of the station links (R250 to R267).
-/
namespace Sys2Proof.Machine

/-- An uplink slot arrives: its header bytes, its words, and the validity of its blocks (R250, R256, R257). -/
def execUplinkSlot (n : Station) (header : List Byte) (words : List Word) (earlyHeaders headers inTime : Bool) (s : State) : Done :=
  actFab (fun d => uplinkSlot n d.t0.tick header words earlyHeaders headers inTime d) s

/-- An uplink MARKER arrives, `t4` being its arrival in 1/16 ns from the start of the tick (R259, R261). -/
def execUplinkMarker (n : Station) (body : List Byte) (good : Bool) (t4 : Nat) (s : State) : Done :=
  actFab (fun d => uplinkMarker n d.t0.tick (d.t0.tick * 500) body good t4 d) s

/-- A service request has not been answered within 8 ticks (R266, R267). -/
def execServiceTimeout (n : Station) (s : State) : Done := actFab (fun d => svcTimeout n d.t0.tick d) s

/-- LNK_n_SVC_CMD with 1 (R267). -/
def execSvcRead (n : Station) (s : State) : Done := actFab (svcCmd n 1) s

/-- LNK_n_SVC_CMD with 2 (R267). -/
def execSvcWrite (n : Station) (s : State) : Done := actFab (svcCmd n 2) s

end Sys2Proof.Machine
end

