-- ==== Sys2Proof/Machine/Management.lean ====
section
/-!
DEFINITION. The commands of the management paths: accesses to registers (R13, R46), the requests of the chain (R486), and
JTAG (R620 to R623). An access needs only the clock of the register it names: what needs a stopped one is held (R49).
-/
namespace Sys2Proof.Machine

open Reg

/-- A command of a pin-clocked path: it acts whenever PORST_N is high. -/
def actPath (f : Dev → Dev) (s : State) : Done :=
  .next { s with dev := if s.dev.start.porstLow then s.dev else settle (f s.dev) }

/-- A management write (R42 to R49). -/
def execRegisterWrite (path : Path) (addr w : Word) (s : State) : Done :=
  actPath (mgmtAccess ⟨path, true, addr.toNat, w.toNat⟩) s

/-- A management read, which clears RC fields (R13, R14). -/
def execRegisterReadClear (path : Path) (addr : Word) (s : State) : Done :=
  actPath (mgmtAccess ⟨path, false, addr.toNat, 0⟩) s

/-- MGMT READ (R486). -/
def execMgmtRead (p : Port) (s : State) : Done :=
  actFab (mgmtFrame p (fun bs => mgmtOp bs == some 1) (mgmtWords false)) s

/-- MGMT WRITE (R486). -/
def execMgmtWrite (p : Port) (s : State) : Done :=
  actFab (mgmtFrame p (fun bs => mgmtOp bs == some 2) (mgmtWords true)) s

/-- MGMT IDENTITY (R484, R486). -/
def execMgmtIdentity (p : Port) (s : State) : Done :=
  actFab (mgmtFrame p (fun bs => mgmtOp bs == some 3) mgmtIdentity) s

/-- A MGMT request of an undefined OP, or too short (R486). -/
def execMgmtBadOp (p : Port) (s : State) : Done :=
  actFab (mgmtFrame p (fun bs => !(List.range' 1 3).any fun k => mgmtOp bs == some k) mgmtBadOp) s

/-- An Update-DR of DOFF_ADDR (R620). -/
def execJtagDoffAddr (w : Word) (s : State) : Done := actPath (jtagDoffAddr w.toNat) s

/-- A Capture-DR of DOFF_READ (R622). -/
def execJtagDoffRead (uncorrectable : Bool) (s : State) : Done := actPath (jtagDoffRead uncorrectable) s

/-- An Update-DR of MGMT (R623). -/
def execJtagMgmt (op : Fin 4) (addr w : Word) (s : State) : Done := actPath (jtagMgmt op.val addr.toNat w.toNat) s

/-- A Capture-DR of IDCODE (R620). -/
def execJtagIdcode (s : State) : Done := actPath jtagIdcode s

/-- A boundary-scan instruction (R620): the register takes the bits shifted in, and under EXTEST drives the pins. -/
def execJtagBoundaryScan (extest : Bool) (bits : Nat) (s : State) : Done :=
  actPath (fun d => d.dofMod fun x => { x with boundary := bits, extest := extest }) s

end Sys2Proof.Machine
end

