-- ==== Sys2Proof/Machine/MeltPool.lean ====
section
/-!
DEFINITION. The commands of the melt-pool unit (R219 to R247).
-/
namespace Sys2Proof.Machine

open Reg

/-- The reduction of a station's oldest frame is complete (R220 to R226). -/
def execDescriptorWritten (n : Station) (s : State) : Done := actFab (fun d => frameDone n d.t0.tick d) s

/-- The clear of both map buffers completes (R230). -/
def execMapClearDone (s : State) : Done := actFab mapCleared s

/-- Map time has reached 2^44 − 1 (R230). -/
def execMapTimeEnd (s : State) : Done := actFab mapTimeEnd s

/-- The last frame of a layer is overdue (R227). -/
def execLastDescriptorTimeout (n : Station) (s : State) : Done := actFab (lastDescriptor n) s

/-- The POST frames after a freeze cause have been written (R239). -/
def execArchFreeze (n : Station) (s : State) : Done :=
  actFab (fun d => if (d.mst n).archPost = some 0 then archFreeze n d else d) s

/-- A write of FREEZE (R239). -/
def execArchFreezeCmd (n : Station) (s : State) : Done := actFab (archFreeze n) s

/-- A write of READ (R239). -/
def execArchReadCmd (n : Station) (s : State) : Done := actFab (archRead n) s

/-- A write of RESUME (R239). -/
def execArchResumeCmd (n : Station) (s : State) : Done := actFab (archResume n) s

end Sys2Proof.Machine
end

