-- ==== Sys2Proof/Machine/Reed.lean ====
section
/-!
DEFINITION. The commands of the Reed engines: the conditions that raise their faults (R180, R185, R190 to R195) and the
external set-point edges.
-/
namespace Sys2Proof.Machine

/-- The overrun count of a position loop (engine 0 to 2) or of a power loop (engine 3) reaches 3 (R195). -/
def execReedOverrun (e : Fin 4) (n : Station) (s : State) : Done :=
  actFab (reedOverrun (if h : e.val < 3 then .pos ⟨e.val, h⟩ n else .pwr n)) s

/-- Three consecutive INVALID encoder measurements of an axis in alignment (R180). -/
def execEncLost (e : Fin 3) (n : Station) (s : State) : Done := actFab (encLost e n) s

/-- A position loop's following-error count exceeds FE_TIME (R192). -/
def execFollowErr (e : Fin 3) (n : Station) (s : State) : Done := actFab (followErr e n) s

/-- A power loop's deviation count exceeds FE_TIME (R193). -/
def execMeltDev (n : Station) (s : State) : Done := actFab (meltDev n) s

/-- SENS_HOLD laser-on ticks without a GOOD sample (R190). -/
def execPyroLost (n : Station) (s : State) : Done := actFab (pyroLost n) s

/-- No rising edge for TIMEOUT µs on the external set-point of a loop of station `n` (R185). -/
def execExtLost (e : Fin 4) (n : Station) (s : State) : Done :=
  actFab (extLost (if h : e.val < 3 then .pos ⟨e.val, h⟩ n else .pwr n)) s

/-- A rising edge on GPIO `g` completes a measurement: its period and high time in MCH cycles (R185). -/
def execGpioEdge (g : Fin 16) (period high : Nat) (s : State) : Done := actMch (gpioEdge g.val period high) s

end Sys2Proof.Machine
end

