-- ==== Sys2Proof/Machine/Shed.lean ====
section
/-!
DEFINITION. The commands of the Shed and the spot-separation monitor.
-/
namespace Sys2Proof.Machine

open Reg

/-- SHED_PASS_START (R67). -/
def execShedPassStart (s : State) : Done := actFab shedStart s

/-- ALLOC_DONE (R98, R125). -/
def execAllocDone (s : State) : Done := actFab allocDone s

/-- REALLOC_START (R118, R122): `placed` is how many groups a running re-allocation pass has placed when it stops. -/
def execReallocStart (placed : Nat) (s : State) : Done := actFab (reallocStart placed) s

/-- REALLOC_DONE (R120). -/
def execReallocDone (s : State) : Done := actFab reallocDone s

/-- PLUME_STARVE (R114). -/
def execPlumeStarve (n : Station) (s : State) : Done := actFab (plumeStarve n) s

/-- MONITOR_DISABLE (R131). -/
def execMonitorDisable (s : State) : Done := actFab monitorOff s

end Sys2Proof.Machine
end

