-- ==== Sys2Proof/Machine/Shuttles.lean ====
section
/-!
DEFINITION. The commands of the Shuttles.
-/
namespace Sys2Proof.Machine

open Reg

/-- PICK_FETCH (R134). -/
def execPickFetch (n : Station) (s : State) : Done := actFab (pickFetch n) s

/-- SHT_DEADLINE (R34): the set-points, or with `edges` the edges, missed their deadline. -/
def execShtDeadline (n : Station) (edges : Bool) (s : State) : Done := actFab (shtDeadline n edges) s

/-- PATH_START (R684). -/
def execPathStart (n : Station) (s : State) : Done := actFab (pathStart n) s

/-- STATION_COMPLETE (R137). -/
def execStationComplete (n : Station) (s : State) : Done := actFab (stationComplete n) s

/-- REPICK (R165). -/
def execRepick (n : Station) (s : State) : Done := actFab (repick n) s

end Sys2Proof.Machine
end

