-- ==== Sys2Proof/Machine/Startups.lean ====
section
/-!
DEFINITION. The commands of start-up, reset, the fuses and the update path (R509 to R528, R680, R681).
-/
namespace Sys2Proof.Machine

open Reg

/-- A command that may change the fuses. -/
def actFuse (f : Otp → Dev → Otp × Dev) (s : State) : Done :=
  if s.dev.start.porstLow then .next s
  else
    let (o, d) := f s.otp s.dev
    .next { s with otp := o, dev := settle d }

/-- PORST_N is released (R510): the fuses are read. -/
def execPorstRelease (s : State) : Done :=
  .next { s with dev :=
    if s.dev.start.porstLow then stageFuses s.otp (s.dev.startMod fun x => { x with porstLow := false }) else s.dev }

/-- The straps are sampled, once after PORST_N release (R652, R654). -/
def strapSample (w : Nat) (s : Dev) : Dev :=
  if s.start.strapped || s.get DEV_STATE_STATE ≠ 1 then s
  else
    let s := (s.setReg DEV_STRAPS (Nat.land w 0x1F1)).startMod fun x => { x with strapped := true }
    if s.fusesDone then s.put DEV_STATE_STATE 2 else s

/-- 1 µs after PORST_N release (R652). -/
def execStrapSample (pins : Word) (s : State) : Done := actAon (strapSample pins.toNat) s

/-- Stage CLOCKS ends (R510, R515): FAB, MCH, XSPI and the lane transmit clocks run, the flash has been found, and stage IMAGE
starts. -/
def clocksLocked (slow : Bool) (flashBytes : Nat) (s : Dev) : Dev :=
  let st := s.get DEV_STATE_STATE
  if !(st = 1 || st = 2) || !s.fusesDone then s
  else
    let s := s.setReg CLK_LIVE (Nat.lor (s.reg CLK_LIVE) 0x7006)
    let s := s.setReg CLK_PLL (Nat.lor (s.reg CLK_PLL) 1)
    let s := (s.put LNK_STATUS_S_PLL_LOCK 1).put LNK_STATUS_C_PLL_LOCK 1
    let size := clampN 0x2000000 0x10000000 flashBytes
    let s := (s.startMod fun x => { x with flashSize := size }).put DEV_STATE_FLASH_SLOW (b2n slow)
    let s := s.put NET_STATUS_HEAD (s.get DEV_STRAPS_CHAIN_HEAD)
    imageStage (mgmtResume (replayCrossing s))

/-- The PLLs lock (R510). -/
def execClocksLocked (slow : Bool) (flashBytes : Nat) (s : State) : Done := actAon (clocksLocked slow flashBytes) s

/-- The verify pass over a candidate completes (R520). -/
def execImageVerifyDone (readGood : Bool) (s : State) : Done := actIn domXspi (imageVerified readGood) s

/-- The phase-0 apply pass completes (R520). -/
def execImageApplyDone (readGood : Bool) (s : State) : Done := actIn domXspi (imageApplied readGood) s

/-- A write of DEV_RESET (R526). -/
def execSoftReset (w : Word) (s : State) : Done := actAon (resetCommand w.toNat) s

/-- A write of DEV_LC_CMD (R513). -/
def execLcCmd (w : Word) (vpp : Bool) (s : State) : Done := actAon (lcCommand w.toNat vpp) s

/-- Life-cycle programming completes (R513). -/
def execLcProgrammed (s : State) : Done := actFuse lcDone s

/-- DEV_FUSE_CMD with OP 1 (R514). -/
def execFuseKeyHash (w : Word) (vpp : Bool) (s : State) : Done := actAon (fuseCommand (putBits w.toNat 1 0 1) vpp) s

/-- DEV_FUSE_CMD with OP 2 (R514). -/
def execFuseKek (w : Word) (vpp : Bool) (s : State) : Done := actAon (fuseCommand (putBits w.toNat 1 0 2) vpp) s

/-- DEV_FUSE_CMD with OP 3 (R514). -/
def execFuseEpoch (w : Word) (vpp : Bool) (s : State) : Done := actAon (fuseCommand (putBits w.toNat 1 0 3) vpp) s

/-- Fuse programming ends (R514). -/
def execFuseDone (programmed : Bool) (s : State) : Done := actFuse (fuseDone programmed) s

/-- CHECK (R525). -/
def execUpdCheck (s : State) : Done := actAon (updCommand 1) s

/-- CHECK completes (R525). -/
def execUpdChecked (s : State) : Done := actFab updChecked s

/-- PROGRAM (R525). -/
def execUpdProgram (s : State) : Done := actAon (updCommand 2) s

/-- PROGRAM completes (R525). -/
def execUpdProgrammed (good : Bool) (s : State) : Done := actIn domXspi (updProgrammed good) s

/-- ACTIVATE (R525). -/
def execUpdActivate (s : State) : Done := actAon (updCommand 3) s

/-- ACTIVATE completes (R525). -/
def execUpdPending (readGood : Bool) (s : State) : Done := actIn domXspi (updPending readGood) s

/-- CANCEL (R525). -/
def execUpdCancel (s : State) : Done := actAon (updCommand 4) s

/-- A pending image falls due (R526). -/
def execUpdateApply (readGood : Bool) (s : State) : Done := actIn domXspi (updateApply readGood) s

/-- The second pass of an update ends (R526). -/
def execUpdApplied (readGood : Bool) (s : State) : Done := actIn domXspi (updApplied readGood) s

/-- The recheck after a wipe ends (R528). -/
def execAuthRecheckDone (readGood : Bool) (s : State) : Done := actIn domXspi (authRecheck readGood) s

/-- PORST_N low (R509). -/
def execPorstNLow (s : State) : Done :=
  let (o, d) := porstLow s.otp s.dev
  .next { s with otp := o, dev := d }

/-- A supply is lost (R562, R662, R680, R681): VPP_FUSE cuts programming short, VDD_AON takes THM_LAST_SHUT with it, and after
the loss of any other rail the device is as in reset. -/
def execSupplyLoss (rail : Rail) (s : State) : Done :=
  let (o, d) := match rail with
    | .vppFuse => if s.dev.start.porstLow then (s.otp, s.dev) else programmingCut s.otp s.dev
    | .vddAon =>
      let (o, d) := porstLow s.otp s.dev
      (o, d.setReg THM_LAST_SHUT 0)
    | .vddio33 | .other => porstLow s.otp s.dev
  .next { s with otp := o, dev := d }

end Sys2Proof.Machine
end

