-- ==== Sys2Proof/Machine/Tapestry.lean ====
section
/-!
DEFINITION. The commands of Tapestry (R362 to R381).
-/
namespace Sys2Proof.Machine

open Reg

/-- A frame boundary, `tau` ns into the tick (R367 to R371). -/
def execTapFrameBoundary (tau : Nat) (s : State) : Done := actIn 4 (fun d => tapBoundary (d.t0.nanos + tau) d) s

/-- A write of 1 to TAP_Pi_COMMIT, or with 8 to TAP_CUR_COMMIT (R368). -/
def execPlaneCommit (i : Fin 9) (s : State) : Done := actFab (planeCommit i) s

/-- A write of 1 to TAP_Pi_FLIP (R369). -/
def execPlaneFlip (i : Plane) (s : State) : Done := actFab (planeFlip i) s

/-- A write of TAP_CTRL with ENABLE = 1 (R374). -/
def execTapEnable (w : Word) (s : State) : Done := actFab (tapCtrl (setBit w.toNat 0 true)) s

/-- A write of TAP_VID_CTRL (R374). -/
def execVidEnable (w : Word) (s : State) : Done := actFab (vidCtrl w.toNat) s

/-- The composed frame is complete in its memory slot (R375). -/
def execMemFrameDone (s : State) : Done := actIn 4 memFrame s

/-- A plane's source line is missing at composition (R372). -/
def execTapUnderrun (i : Plane) (line : Nat) (s : State) : Done := actIn 4 (tapUnderrun i line) s

end Sys2Proof.Machine
end

