-- ==== Sys2Proof/Machine/Thermals.lean ====
section
/-!
DEFINITION. The commands of temperature supervision (R551 to R561). Supervision runs in AON.
-/
namespace Sys2Proof.Machine

/-- A round of readings in 1/64 °C, none for a converter error, and island voltages in mV (R551, R552, R616). -/
def execThermalRound (temps : List (Option Int)) (millivolts : List Nat) (s : State) : Done :=
  actAon (thermalRound temps millivolts) s

/-- 20 µs after shutdown (R561). -/
def execShutdownClockStop (s : State) : Done := actAon shutdownStop s

/-- A write of THM_FAILED (R556). -/
def execThmFailedClear (w : Word) (s : State) : Done := actAon (failedClear w.toNat) s

end Sys2Proof.Machine
end

