-- ==== Sys2Proof/Machine/Trim.lean ====
section
/-!
DEFINITION. The commands of Trim (R532 to R548).
-/
namespace Sys2Proof.Machine

/-- TRM_n_CMD DARK (R532, R534). -/
def execTrimDark (n : Station) (s : State) : Done := actFab (trimStart n false) s

/-- TRM_n_CMD GAIN (R532, R536). -/
def execTrimGain (n : Station) (s : State) : Done := actFab (trimStart n true) s

/-- TRM_n_CMD ABORT (R532). -/
def execTrimAbort (n : Station) (s : State) : Done := actFab (trimAbort n) s

/-- TRM_n_CMD APPLY (R537, R542, R543). -/
def execTrimApply (n : Station) (s : State) : Done := actFab (trimApply n) s

/-- TRM_n_CMD REBUILD (R539, R540, R543). -/
def execTrimRebuild (n : Station) (s : State) : Done := actFab (trimRebuild n) s

/-- TRM_CMD SAVE (R544). -/
def execTrimSave (s : State) : Done := actFab (fun d => trimSaveStage (trimSave d)) s

/-- TRM_CMD REGISTER (R538). -/
def execTrimRegister (s : State) : Done := actFab trimRegister s

/-- TRM_CMD REG_ABORT (R548). -/
def execTrimRegAbort (s : State) : Done := actFab trimRegAbort s

/-- A dark measurement has its ticks (R534). -/
def execDarkDone (n : Station) (s : State) : Done := actFab (darkDone n) s

/-- A gain measurement has its samples (R536). -/
def execGainDone (n : Station) (s : State) : Done := actFab (gainDone n) s

/-- A pyrometer measurement has run out of time (R534, R536). -/
def execTrimTimeout (n : Station) (s : State) : Done := actFab (trimTimeout n) s

/-- Trim fits fields and seams from the post-scan image (R538, R539). -/
def execRegistrationCompute (s : State) : Done := actFab registration s

end Sys2Proof.Machine
end

