-- ==== Sys2Proof/Machine/Wale.lean ====
section
/-!
DEFINITION. The commands of the Wale log (R590 to R603). Those that touch the flash need its clock.
-/
namespace Sys2Proof.Machine

/-- The scan of the partition completes (R595, R596). -/
def execLogScan (s : State) : Done := actIn domXspi logScan s

/-- The oldest staged record is programmed (R597). -/
def execLogRecordProgrammed (s : State) : Done := actIn domXspi logProgram s

/-- The sector after the current one is erased (R597). -/
def execLogSectorErase (s : State) : Done := actIn domXspi logErase s

/-- A program or erase fails (R597). -/
def execLogFlash (s : State) : Done := actIn domXspi logFail s

/-- A record is lost for one of the three causes that LOST counts (R599). -/
def execLogDrop (cause : Fin 3) (s : State) : Done := actFab (logDrop cause) s

/-- OP_INT minutes of operating time have passed (R591). -/
def execHoursRecord (s : State) : Done := actFab hoursRecord s

/-- LOAD of WAL_RD_CMD (R601). -/
def execLogLoad (s : State) : Done := actFab logLoad s

/-- A LOG READ (R602). -/
def execLogRead (p : Port) (s : State) : Done := actFab (logFrame p (· == 1) (logRead p)) s

/-- A LOG ABORT (R602). -/
def execLogAbort (p : Port) (s : State) : Done := actFab (logFrame p (· == 2) (logAbort p)) s

/-- A LOG INFO (R602). -/
def execLogInfo (p : Port) (s : State) : Done := actFab (logFrame p (· == 3) (logInfo p)) s

/-- A LOG NOTE (R602, R603). -/
def execLogNote (p : Port) (s : State) : Done := actFab (logFrame p (· == 4) (logNote p)) s

/-- A LOG frame of another OP (R602). -/
def execLogBadOp (p : Port) (s : State) : Done := actFab (logFrame p (fun op => op == 0 || 4 < op) (logBadOp p)) s

end Sys2Proof.Machine
end

