-- ==== Sys2Proof/Machine/Dispatch.lean ====
section
/-!
DEFINITION. The dispatch: one arm for each command.
-/
namespace Sys2Proof.Machine

/-- The command's effect on everything but the queue. -/
def exec (i : Instr) (s : State) : Host.Outcome State Fault Refusal :=
  match i with
  | .porstRelease => Sys2Proof.Machine.execPorstRelease s
  | .strapSample pins => Sys2Proof.Machine.execStrapSample pins s
  | .clocksLocked slow flashBytes => Sys2Proof.Machine.execClocksLocked slow flashBytes s
  | .imageVerifyDone readGood => Sys2Proof.Machine.execImageVerifyDone readGood s
  | .imageApplyDone readGood => Sys2Proof.Machine.execImageApplyDone readGood s
  | .dramTrainStepDone passed osc => Sys2Proof.Machine.execDramTrainStepDone passed osc s
  | .softReset w => Sys2Proof.Machine.execSoftReset w s
  | .lcCmd w vpp => Sys2Proof.Machine.execLcCmd w vpp s
  | .lcProgrammed => Sys2Proof.Machine.execLcProgrammed s
  | .fuseKeyHash w vpp => Sys2Proof.Machine.execFuseKeyHash w vpp s
  | .fuseKek w vpp => Sys2Proof.Machine.execFuseKek w vpp s
  | .fuseEpoch w vpp => Sys2Proof.Machine.execFuseEpoch w vpp s
  | .fuseDone programmed => Sys2Proof.Machine.execFuseDone programmed s
  | .updCheck => Sys2Proof.Machine.execUpdCheck s
  | .updChecked => Sys2Proof.Machine.execUpdChecked s
  | .updProgram => Sys2Proof.Machine.execUpdProgram s
  | .updProgrammed good => Sys2Proof.Machine.execUpdProgrammed good s
  | .updActivate => Sys2Proof.Machine.execUpdActivate s
  | .updCancel => Sys2Proof.Machine.execUpdCancel s
  | .updateApply readGood => Sys2Proof.Machine.execUpdateApply readGood s
  | .updApplied readGood => Sys2Proof.Machine.execUpdApplied readGood s
  | .authRecheckDone readGood => Sys2Proof.Machine.execAuthRecheckDone readGood s
  | .tickBoundary lateAxis latePower => Sys2Proof.Machine.execTickBoundary lateAxis latePower s
  | .periodBoundary => Sys2Proof.Machine.execPeriodBoundary s
  | .managementTick mr4 => Sys2Proof.Machine.execManagementTick mr4 s
  | .registerWrite path addr w => Sys2Proof.Machine.execRegisterWrite path addr w s
  | .layerData p => Sys2Proof.Machine.execLayerData p s
  | .layerValid slot => Sys2Proof.Machine.execLayerValid slot s
  | .slotFree slot => Sys2Proof.Machine.execSlotFree slot s
  | .jobMessageUndefined p => Sys2Proof.Machine.execJobMessageUndefined p s
  | .layerSchedule p => Sys2Proof.Machine.execLayerSchedule p s
  | .layerCancel p => Sys2Proof.Machine.execLayerCancel p s
  | .pause message => Sys2Proof.Machine.execPause message s
  | .pauseTickReached => Sys2Proof.Machine.execPauseTickReached s
  | .resume message => Sys2Proof.Machine.execResume message s
  | .abort message => Sys2Proof.Machine.execAbort message s
  | .clear message => Sys2Proof.Machine.execClear message s
  | .layerPrepStart => Sys2Proof.Machine.execLayerPrepStart s
  | .layerPrepDone => Sys2Proof.Machine.execLayerPrepDone s
  | .recoatStepDone => Sys2Proof.Machine.execRecoatStepDone s
  | .recoatFault => Sys2Proof.Machine.execRecoatFault s
  | .bedImageDone => Sys2Proof.Machine.execBedImageDone s
  | .scanStart => Sys2Proof.Machine.execScanStart s
  | .lateStart => Sys2Proof.Machine.execLateStart s
  | .scanEnd => Sys2Proof.Machine.execScanEnd s
  | .layerClosed => Sys2Proof.Machine.execLayerClosed s
  | .shedPassStart => Sys2Proof.Machine.execShedPassStart s
  | .allocDone => Sys2Proof.Machine.execAllocDone s
  | .reallocStart placed => Sys2Proof.Machine.execReallocStart placed s
  | .reallocDone => Sys2Proof.Machine.execReallocDone s
  | .plumeStarve n => Sys2Proof.Machine.execPlumeStarve n s
  | .monitorDisable => Sys2Proof.Machine.execMonitorDisable s
  | .pickFetch n => Sys2Proof.Machine.execPickFetch n s
  | .shtDeadline n edges => Sys2Proof.Machine.execShtDeadline n edges s
  | .pathStart n => Sys2Proof.Machine.execPathStart n s
  | .stationComplete n => Sys2Proof.Machine.execStationComplete n s
  | .repick n => Sys2Proof.Machine.execRepick n s
  | .reedOverrun e n => Sys2Proof.Machine.execReedOverrun e n s
  | .encLost e n => Sys2Proof.Machine.execEncLost e n s
  | .followErr e n => Sys2Proof.Machine.execFollowErr e n s
  | .meltDev n => Sys2Proof.Machine.execMeltDev n s
  | .pyroLost n => Sys2Proof.Machine.execPyroLost n s
  | .extLost e n => Sys2Proof.Machine.execExtLost e n s
  | .uplinkSlot n header words earlyHeaders headers inTime => Sys2Proof.Machine.execUplinkSlot n header words earlyHeaders headers inTime s
  | .uplinkMarker n body good t4 => Sys2Proof.Machine.execUplinkMarker n body good t4 s
  | .serviceTimeout n => Sys2Proof.Machine.execServiceTimeout n s
  | .svcRead n => Sys2Proof.Machine.execSvcRead n s
  | .svcWrite n => Sys2Proof.Machine.execSvcWrite n s
  | .laneEnable l w => Sys2Proof.Machine.execLaneEnable l w s
  | .blockLock l time => Sys2Proof.Machine.execBlockLock l time s
  | .lockLoss l signal => Sys2Proof.Machine.execLockLoss l signal s
  | .scanStartCmd l => Sys2Proof.Machine.execScanStartCmd l s
  | .scanStopCmd l bits errors => Sys2Proof.Machine.execScanStopCmd l bits errors s
  | .scanDone l errors => Sys2Proof.Machine.execScanDone l errors s
  | .errorInject l w => Sys2Proof.Machine.execErrorInject l w s
  | .prbsLoss l mismatches => Sys2Proof.Machine.execPrbsLoss l mismatches s
  | .slanePll => Sys2Proof.Machine.execSlanePll s
  | .clanePll => Sys2Proof.Machine.execClanePll s
  | .deviceFrame p mac bytes fcsGood => Sys2Proof.Machine.execDeviceFrame p mac bytes fcsGood s
  | .enumRequest hops seqNo => Sys2Proof.Machine.execEnumRequest hops seqNo s
  | .mgmtRead p => Sys2Proof.Machine.execMgmtRead p s
  | .mgmtWrite p => Sys2Proof.Machine.execMgmtWrite p s
  | .mgmtIdentity p => Sys2Proof.Machine.execMgmtIdentity p s
  | .mgmtBadOp p => Sys2Proof.Machine.execMgmtBadOp p s
  | .ringProbe hops => Sys2Proof.Machine.execRingProbe hops s
  | .ringBreak received => Sys2Proof.Machine.execRingBreak received s
  | .pauseFrame p quanta => Sys2Proof.Machine.execPauseFrame p quanta s
  | .pauseSend p => Sys2Proof.Machine.execPauseSend p s
  | .ptpSync b followUp twoStep seqNo t1 corr t2 => Sys2Proof.Machine.execPtpSync b followUp twoStep seqNo t1 corr t2 s
  | .ptpTransit p kind domain source seqNo rawIn rawOut corr => Sys2Proof.Machine.execPtpTransit p kind domain source seqNo rawIn rawOut corr s
  | .delayResp b seqNo t4 corr logInterval => Sys2Proof.Machine.execDelayResp b seqNo t4 corr logInterval s
  | .announce b dataset => Sys2Proof.Machine.execAnnounce b dataset s
  | .delayReqSend b t3 => Sys2Proof.Machine.execDelayReqSend b t3 s
  | .ptpHoldover b => Sys2Proof.Machine.execPtpHoldover b s
  | .timebaseEnable b w => Sys2Proof.Machine.execTimebaseEnable b w s
  | .timebaseCapture b tau => Sys2Proof.Machine.execTimebaseCapture b tau s
  | .stepSet b => Sys2Proof.Machine.execStepSet b s
  | .stepAdd b => Sys2Proof.Machine.execStepAdd b s
  | .tlQueue p w tau => Sys2Proof.Machine.execTlQueue p w tau s
  | .tlFlush p => Sys2Proof.Machine.execTlFlush p s
  | .timedLaunch p tau => Sys2Proof.Machine.execTimedLaunch p tau s
  | .ppsOutPulse => Sys2Proof.Machine.execPpsOutPulse s
  | .ppsInEdge tau => Sys2Proof.Machine.execPpsInEdge tau s
  | .ppsLost => Sys2Proof.Machine.execPpsLost s
  | .eventFrameSend => Sys2Proof.Machine.execEventFrameSend s
  | .encoderEdge c a b z tau => Sys2Proof.Machine.execEncoderEdge c a b z tau s
  | .indexPulse c tau => Sys2Proof.Machine.execIndexPulse c tau s
  | .ssiReadStart c => Sys2Proof.Machine.execSsiReadStart c s
  | .ssiReadDone c good data tau => Sys2Proof.Machine.execSsiReadDone c good data tau s
  | .countWrite c w tau => Sys2Proof.Machine.execCountWrite c w tau s
  | .cmpValWrite c w => Sys2Proof.Machine.execCmpValWrite c w s
  | .compareArm c w => Sys2Proof.Machine.execCompareArm c w s
  | .axisTargetWrite m w => Sys2Proof.Machine.execAxisTargetWrite m w s
  | .axisStop m => Sys2Proof.Machine.execAxisStop m s
  | .axisHalt m => Sys2Proof.Machine.execAxisHalt m s
  | .axisHome m => Sys2Proof.Machine.execAxisHome m s
  | .clearPending m => Sys2Proof.Machine.execClearPending m s
  | .axisEnable m w => Sys2Proof.Machine.execAxisEnable m w s
  | .enDelayExpired m => Sys2Proof.Machine.execEnDelayExpired m s
  | .profileUpdate m => Sys2Proof.Machine.execProfileUpdate m s
  | .stepCarry m => Sys2Proof.Machine.execStepCarry m s
  | .inputFirstEdge m input => Sys2Proof.Machine.execInputFirstEdge m input s
  | .inputAccepted m input => Sys2Proof.Machine.execInputAccepted m input s
  | .limitChatter m input => Sys2Proof.Machine.execLimitChatter m input s
  | .vsEdge c tau => Sys2Proof.Machine.execVsEdge c tau s
  | .lineComplete c samples tau => Sys2Proof.Machine.execLineComplete c samples tau s
  | .pipelineLineDone tau => Sys2Proof.Machine.execPipelineLineDone tau s
  | .frameDelivered c tau => Sys2Proof.Machine.execFrameDelivered c tau s
  | .frameTimeout c tau => Sys2Proof.Machine.execFrameTimeout c tau s
  | .trigNow c tau => Sys2Proof.Machine.execTrigNow c tau s
  | .trigTmo c => Sys2Proof.Machine.execTrigTmo c s
  | .expSequenceDone c ok => Sys2Proof.Machine.execExpSequenceDone c ok s
  | .i2cCmd c => Sys2Proof.Machine.execI2cCmd c s
  | .i2cDone c result rdata => Sys2Proof.Machine.execI2cDone c result rdata s
  | .tapFrameBoundary tau => Sys2Proof.Machine.execTapFrameBoundary tau s
  | .planeCommit plane => Sys2Proof.Machine.execPlaneCommit plane s
  | .planeFlip plane => Sys2Proof.Machine.execPlaneFlip plane s
  | .tapEnable w => Sys2Proof.Machine.execTapEnable w s
  | .vidEnable w => Sys2Proof.Machine.execVidEnable w s
  | .memFrameDone => Sys2Proof.Machine.execMemFrameDone s
  | .tapUnderrun plane line => Sys2Proof.Machine.execTapUnderrun plane line s
  | .chainCommit => Sys2Proof.Machine.execChainCommit s
  | .chainRefresh => Sys2Proof.Machine.execChainRefresh s
  | .chainFrameDone status => Sys2Proof.Machine.execChainFrameDone status s
  | .flashOpen c => Sys2Proof.Machine.execFlashOpen c s
  | .flashClose src => Sys2Proof.Machine.execFlashClose src s
  | .matrixRowEnd tau sense => Sys2Proof.Machine.execMatrixRowEnd tau sense s
  | .colourMeasure => Sys2Proof.Machine.execColourMeasure s
  | .colourReadingDone data temp => Sys2Proof.Machine.execColourReadingDone data temp s
  | .bobbinEnable b w => Sys2Proof.Machine.execBobbinEnable b w s
  | .bobbinDisable b w => Sys2Proof.Machine.execBobbinDisable b w s
  | .scrubRead late result => Sys2Proof.Machine.execScrubRead late result s
  | .keyLoad slot => Sys2Proof.Machine.execKeyLoad slot s
  | .keyErase slot => Sys2Proof.Machine.execKeyErase slot s
  | .wipeAll key => Sys2Proof.Machine.execWipeAll key s
  | .tamper => Sys2Proof.Machine.execTamper s
  | .glitch clock => Sys2Proof.Machine.execGlitch clock s
  | .secWipe => Sys2Proof.Machine.execSecWipe s
  | .dramEnable w => Sys2Proof.Machine.execDramEnable w s
  | .dramDisable w => Sys2Proof.Machine.execDramDisable w s
  | .freqSwitchRequest w => Sys2Proof.Machine.execFreqSwitchRequest w s
  | .freqDone => Sys2Proof.Machine.execFreqDone s
  | .dqsOscRun c rank n => Sys2Proof.Machine.execDqsOscRun c rank n s
  | .dramRefresh c rank waits => Sys2Proof.Machine.execDramRefresh c rank waits s
  | .dramScrub c found => Sys2Proof.Machine.execDramScrub c found s
  | .selfRefreshEntry c => Sys2Proof.Machine.execSelfRefreshEntry c s
  | .dramPanic b c micros => Sys2Proof.Machine.execDramPanic b c micros s
  | .dramUe addr area diag => Sys2Proof.Machine.execDramUe addr area diag s
  | .descriptorWritten n => Sys2Proof.Machine.execDescriptorWritten n s
  | .mapClearDone => Sys2Proof.Machine.execMapClearDone s
  | .mapTimeEnd => Sys2Proof.Machine.execMapTimeEnd s
  | .lastDescriptorTimeout n => Sys2Proof.Machine.execLastDescriptorTimeout n s
  | .archFreeze n => Sys2Proof.Machine.execArchFreeze n s
  | .archFreezeCmd n => Sys2Proof.Machine.execArchFreezeCmd n s
  | .archReadCmd n => Sys2Proof.Machine.execArchReadCmd n s
  | .archResumeCmd n => Sys2Proof.Machine.execArchResumeCmd n s
  | .trimDark n => Sys2Proof.Machine.execTrimDark n s
  | .trimGain n => Sys2Proof.Machine.execTrimGain n s
  | .trimAbort n => Sys2Proof.Machine.execTrimAbort n s
  | .trimApply n => Sys2Proof.Machine.execTrimApply n s
  | .trimRebuild n => Sys2Proof.Machine.execTrimRebuild n s
  | .trimSave => Sys2Proof.Machine.execTrimSave s
  | .trimRegister => Sys2Proof.Machine.execTrimRegister s
  | .trimRegAbort => Sys2Proof.Machine.execTrimRegAbort s
  | .darkDone n => Sys2Proof.Machine.execDarkDone n s
  | .gainDone n => Sys2Proof.Machine.execGainDone n s
  | .trimTimeout n => Sys2Proof.Machine.execTrimTimeout n s
  | .registrationCompute => Sys2Proof.Machine.execRegistrationCompute s
  | .thermalRound temps millivolts => Sys2Proof.Machine.execThermalRound temps millivolts s
  | .shutdownClockStop => Sys2Proof.Machine.execShutdownClockStop s
  | .thmFailedClear w => Sys2Proof.Machine.execThmFailedClear w s
  | .faultHandler => Sys2Proof.Machine.execFaultHandler s
  | .recoverTmo u => Sys2Proof.Machine.execRecoverTmo u s
  | .retireCmd w => Sys2Proof.Machine.execRetireCmd w s
  | .clearRetire w => Sys2Proof.Machine.execClearRetire w s
  | .clearHalt w => Sys2Proof.Machine.execClearHalt w s
  | .emitGate low tau => Sys2Proof.Machine.execEmitGate low tau s
  | .swGate w tau => Sys2Proof.Machine.execSwGate w tau s
  | .gateRelease => Sys2Proof.Machine.execGateRelease s
  | .evtPendClear word w => Sys2Proof.Machine.execEvtPendClear word w s
  | .logScan => Sys2Proof.Machine.execLogScan s
  | .logRecordProgrammed => Sys2Proof.Machine.execLogRecordProgrammed s
  | .logSectorErase => Sys2Proof.Machine.execLogSectorErase s
  | .logFlash => Sys2Proof.Machine.execLogFlash s
  | .logDrop cause => Sys2Proof.Machine.execLogDrop cause s
  | .hoursRecord => Sys2Proof.Machine.execHoursRecord s
  | .logLoad => Sys2Proof.Machine.execLogLoad s
  | .logRead p => Sys2Proof.Machine.execLogRead p s
  | .logAbort p => Sys2Proof.Machine.execLogAbort p s
  | .logInfo p => Sys2Proof.Machine.execLogInfo p s
  | .logNote p => Sys2Proof.Machine.execLogNote p s
  | .logBadOp p => Sys2Proof.Machine.execLogBadOp p s
  | .clockLost d => Sys2Proof.Machine.execClockLost d s
  | .clockReturn d discarded => Sys2Proof.Machine.execClockReturn d discarded s
  | .doffTrigger t => Sys2Proof.Machine.execDoffTrigger t s
  | .doffFreeze => Sys2Proof.Machine.execDoffFreeze s
  | .jtagDoffAddr w => Sys2Proof.Machine.execJtagDoffAddr w s
  | .jtagDoffRead uncorrectable => Sys2Proof.Machine.execJtagDoffRead uncorrectable s
  | .jtagMgmt op addr w => Sys2Proof.Machine.execJtagMgmt op addr w s
  | .jtagIdcode => Sys2Proof.Machine.execJtagIdcode s
  | .jtagBoundaryScan extest bits => Sys2Proof.Machine.execJtagBoundaryScan extest bits s
  | .porstNLow => Sys2Proof.Machine.execPorstNLow s
  | .supplyLoss rail => Sys2Proof.Machine.execSupplyLoss rail s
  | .registerReadClear path addr => Sys2Proof.Machine.execRegisterReadClear path addr s
  | .updPending readGood => Sys2Proof.Machine.execUpdPending readGood s
  | .pllLoss p => Sys2Proof.Machine.execPllLoss p s
  | .pllRelock p => Sys2Proof.Machine.execPllRelock p s
  | .chainFrameSent p => Sys2Proof.Machine.execChainFrameSent p s
  | .dramCe addr comp => Sys2Proof.Machine.execDramCe addr comp s
  | .gpioEdge g period high => Sys2Proof.Machine.execGpioEdge g period high s
  | .prbsLock l => Sys2Proof.Machine.execPrbsLock l s

end Sys2Proof.Machine
end

