-- ==== Sys2Proof/Safety.lean ====
section
/-!
DEFINITION. What claims about the device are stated in: that no reaction is configured, what an occurrence of an event
and the detection of a fault may touch, that a command leaves all else as it was, and the canonical form of the stores.
-/
namespace Sys2Proof.Machine

open Reg

/-- No reaction waits and EVT_CFGe.REACT is 0 for every event (R635): a command ends with its own effect. -/
def Dev.calm (d : Dev) : Prop := d.ev.reacts = [] ∧ ∀ e, e < 256 → d.get (EVT_CFG_REACT e) = 0

/-- The registers that an occurrence of an event may change beside those of its own command (R629 to R634, R599):
EVT_FLAGS, EVT_LAST, the pending bits and counts, the count of LOG_DROP, and the staging registers of the log. -/
def eventReg (a : Nat) : Bool :=
  a == EVT_FLAGS || a == EVT_LAST || (0x20020 ≤ a && a < 0x20040) || (0x20800 ≤ a && a < 0x20C00)
    || a == EVT_FLT_COUNT 0x88 || a == WAL_DROPS || a == WAL_FLAGS || a == WAL_STAGED

/-- The registers that the detection of a fault may change (R566 to R570): those of an occurrence, the fault counts and
retry counts, EVT_FLT_FLAGS, the last report and the count of full queues. -/
def faultReg (a : Nat) : Bool :=
  eventReg a || a == EVT_FLT_FLAGS || (0x28024 ≤ a && a < 0x28034) || (0x28100 ≤ a && a < 0x2814C)
    || (0x28400 ≤ a && a < 0x28800)

/-- `t` is `d` but for the registers listed: every other register and all else of the device is as it was. -/
def Dev.regsOnly (L : List Nat) (d t : Dev) : Prop := t = { d with regs := t.regs } ∧ ∀ a, a ∉ L → t.reg a = d.reg a

/-- `t` is `d` but for the registers listed and what an occurrence of an event touches. -/
def Dev.withEvent (L : List Nat) (d t : Dev) : Prop :=
  t = { d with regs := t.regs, ev := t.ev, wal := t.wal } ∧ ∀ a, a ∉ L → eventReg a = false → t.reg a = d.reg a

/-- `t` is `d` but for the registers listed and what the detection of a fault touches: the fault unit, the log, the
events, the count of matches of a Doff trigger (R617) and the pending freezes of the archives (R239). -/
def Dev.withFault (L : List Nat) (d t : Dev) : Prop :=
  t = { d with regs := t.regs, ev := t.ev, wal := t.wal, flt := t.flt, dof := t.dof, mpl := t.mpl } ∧
    ∀ a, a ∉ L → faultReg a = false → t.reg a = d.reg a

/-- The parts of the device beside its registers. -/
inductive Part where
  | shadow | free | grid | bases | ev | flt | wal | chain | trd | creel | dram | flash | dof | axes | sht | start | lmp
  | isp | crl | sec | pins | mpl | tap | drc | shd | reed | lnk | lanes | trm | thm | mgm
deriving DecidableEq, Repr

/-- The part is the same in both. -/
def Part.same (p : Part) (d t : Dev) : Prop :=
  match p with
  | .shadow => t.shadow = d.shadow
  | .free => t.free = d.free
  | .grid => t.grid = d.grid
  | .bases => t.bases = d.bases
  | .ev => t.ev = d.ev
  | .flt => t.flt = d.flt
  | .wal => t.wal = d.wal
  | .chain => t.chain = d.chain
  | .trd => t.trd = d.trd
  | .creel => t.creel = d.creel
  | .dram => t.dram = d.dram
  | .flash => t.flash = d.flash
  | .dof => t.dof = d.dof
  | .axes => t.axes = d.axes
  | .sht => t.sht = d.sht
  | .start => t.start = d.start
  | .lmp => t.lmp = d.lmp
  | .isp => t.isp = d.isp
  | .crl => t.crl = d.crl
  | .sec => t.sec = d.sec
  | .pins => t.pins = d.pins
  | .mpl => t.mpl = d.mpl
  | .tap => t.tap = d.tap
  | .drc => t.drc = d.drc
  | .shd => t.shd = d.shd
  | .reed => t.reed = d.reed
  | .lnk => t.lnk = d.lnk
  | .lanes => t.lanes = d.lanes
  | .trm => t.trm = d.trm
  | .thm => t.thm = d.thm
  | .mgm => t.mgm = d.mgm

/-- `t` is `d` but for the registers of the blocks `B` (numbered by the upper half of the address, R42) and the parts
`P`: every register of another block and every other part is as it was. -/
def Dev.frame (P : List Part) (B : List Nat) (d t : Dev) : Prop :=
  (∀ a, B.contains (a / 0x10000) = false → t.reg a = d.reg a) ∧ ∀ p : Part, P.contains p = false → p.same d t

/-- The stores `m` and `t` hold the same bytes at every address outside the `n` bytes from `a`. -/
def sameOutside (b : Byte) (a n : Nat) (m t : List Host.Cell) : Prop := ∀ k, k < a ∨ a + n ≤ k → sget b t k = sget b m k

/-- Event `e` has occurred: its pending bit is set (R629). -/
def Dev.pends (e : Nat) (d : Dev) : Prop := bit (d.reg (EVT_PEND (e / 32))) (e % 32) = true

/-- From `d` to `t` fault `code` of `inst` was detected: its count rose by one, saturating, and the report register names
it (R566, R578). -/
def Dev.detects (code inst : Nat) (d t : Dev) : Prop :=
  t.reg (EVT_FLT_COUNT code) = min (d.reg (EVT_FLT_COUNT code) + 1) 0xFFFFFFFF
    ∧ bits (t.reg EVT_FLT_LAST) 31 24 = code ∧ bits (t.reg EVT_FLT_LAST) 7 0 = inst

/-- The canonical form of every store of the device: keys rise strictly and no entry is what its key reads as unlisted. -/
def Memory.wf (d : Dev) : Bool :=
  swf resetOf d.regs && swf (fun _ => ramDefault) d.creel && swf (fun _ => ramDefault) d.dram
    && swf (fun _ => flashDefault) d.flash

/-- Nothing that a fuse once held is lost: the life cycle and the fused epoch do not fall, and a key or a key hash that
is programmed stays (R512 to R514, R681). -/
def Otp.within (o p : Otp) : Prop :=
  o.lifeCycle ≤ p.lifeCycle ∧ o.epoch ≤ p.epoch ∧ (o.keyHash.isSome → p.keyHash = o.keyHash)
    ∧ (o.kek.isSome → p.kek = o.kek)

end Sys2Proof.Machine
end

