-- ==== Sys2Proof/Certificates/Slice0/Obligations.lean ====
section
/-!
DEFINITION. The statements about the model that are to be proved. Each names in its text the rules of the spec that it
states, or says which choice of the model it states.
-/
open Sys2Proof Sys2Proof.Machine Sys2Proof.Machine.Reg

/-- While the MCH clock runs and no reaction waits: a TARGET written during a move becomes the pending target; at rest,
enabled and with a free way, it starts a move at VMIN; CLEAR_PENDING drops the pending target; STOP sets STOPPING;
HALT ends the move at once; HOME starts the seek. CTRL written at rest is stored and a drive newly enabled is not
ready until EN_DELAY; the end of EN_DELAY makes it ready; a microsecond of the profile sets V and VEL; a held carry
moves the position by MULT of the level. The first raw edge of an input latches the position and shows the raw
level; an edge that returns before FILT restores the latch and counts CHATTER; an input held for FILT is accepted,
which changes its accepted level alone while its limit is not enabled. All else is as before. Where the rules admit
more than one reading it states the model's (log entry 46). (R309, R315, R316, R317, R322, R306, R307, R308, R312,
R318, R320, R321) -/
def Obligations.AxisCommands : Prop :=
  ∀ (m : Axis) (w : Word) (i : Fin 3) (s : State), s.dev.runs domMch = true → s.dev.calm →
    (s.dev.axRunning m = true → s.dev.axOwned m = false →
         exec (.axisTargetWrite m w) s =
           .next { s with dev := (s.dev.setReg (AXS_PENDING m) w.toNat).put (AXS_STATUS_MOVE_PENDING m) 1 })
    ∧ (s.dev.axRunning m = false → s.dev.axOwned m = false → s.dev.on (AXS_CTRL_EN m) = true →
       s.dev.on (AXS_CTRL_SOFT_EN m) = false → sx 32 w.toNat ≠ s.dev.axPos m →
       s.dev.axBlocked m (decide (s.dev.axPos m < sx 32 w.toNat)) false = false →
         ∃ d, exec (.axisTargetWrite m w) s = .next { s with dev := d } ∧ d.reg (AXS_TARGET m) = w.toNat
           ∧ d.on (AXS_STATUS_MOVING m) = true
           ∧ d.on (AXS_STATUS_DIR m) = decide (sx 32 w.toNat < s.dev.axPos m)
           ∧ (vat d.axes m).goal = sx 32 w.toNat
           ∧ (vat d.axes m).v = rateLimit (s.dev.axVmin m) (d.get (AXS_STATUS_MS_LEVEL m))
           ∧ Dev.regsOnly [AXS_TARGET m, AXS_STATUS m] { s.dev with axes := d.axes } d
           ∧ ∀ k, k ≠ m → vat d.axes k = vat s.dev.axes k)
    ∧ (s.dev.on (AXS_STATUS_MOVE_PENDING m) = true →
         exec (.clearPending m) s = .next { s with dev := s.dev.put (AXS_STATUS_MOVE_PENDING m) 0 })
    ∧ (s.dev.axRunning m = true → s.dev.axHoming m = false → s.dev.on (AXS_STATUS_MOVE_PENDING m) = false →
         exec (.axisStop m) s =
           .next { s with dev := { s.dev.put (AXS_STATUS_STOPPING m) 1 with
             axes := vmod s.dev.axes m fun (x : AxisState) => { x with endFault := true } } }
         ∧ exec (.axisHalt m) s =
           .next { s with dev := { ((s.dev.put (AXS_STATUS_MOVING m) 0).put (AXS_STATUS_STOPPING m) 0).setReg (AXS_VEL m) 0 with
             axes := vmod s.dev.axes m fun (x : AxisState) =>
               { x with v := 0, acc := 0, cyc := 0, held := 0, decel := false, endFault := true } } })
    ∧ (s.dev.axRunning m = false → s.dev.on (AXS_CTRL_EN m) = true → s.dev.axOwned m = false →
       bit (s.dev.reg (AXS_INPUTS m)) (s.dev.axHomeInput m) = false →
       s.dev.axBlocked m (s.dev.on (AXS_HOME_CFG_DIR m)) true = false →
         ∃ d, exec (.axisHome m) s = .next { s with dev := d } ∧ d.get (AXS_STATUS_HSTATE m) = 1
           ∧ d.on (AXS_STATUS_HOMED m) = false ∧ d.on (AXS_STATUS_MOVING m) = true
           ∧ (vat d.axes m).goal = s.dev.axPos m + s.dev.axSeekSign m * (s.dev.reg (AXS_HOME_MAXDIST m) : Int)
           ∧ Dev.regsOnly [AXS_STATUS m] { s.dev with axes := d.axes } d
           ∧ ∀ k, k ≠ m → vat d.axes k = vat s.dev.axes k)
    ∧ (s.dev.axRunning m = false → s.dev.on (AXS_CTRL_EN m) = false →
         exec (.axisEnable m w) s =
           .next { s with dev := { s.dev.setReg (AXS_CTRL m) (w.toNat % 256) with
             axes := vmod s.dev.axes m fun (x : AxisState) => { x with enReady := false } } })
    ∧ (s.dev.on (AXS_CTRL_EN m) = true →
         exec (.enDelayExpired m) s =
           .next { s with dev := { s.dev with axes := vmod s.dev.axes m fun (x : AxisState) => { x with enReady := true } } })
    ∧ (s.dev.axRunning m = true →
         ∃ d, exec (.profileUpdate m) s = .next { s with dev := d }
           ∧ (vat d.axes m).v =
               rateLimit (profileV (s.dev.on (AXS_STATUS_STOPPING m) || (vat s.dev.axes m).decel) (vat s.dev.axes m).v
                 (s.dev.axVmin m) (s.dev.axSpeed m) (s.dev.reg (AXS_ACC m)) (s.dev.reg (AXS_DEC m))
                 ((vat s.dev.axes m).goal - s.dev.axPos m).natAbs) (s.dev.get (AXS_STATUS_MS_LEVEL m))
           ∧ d.reg (AXS_VEL m) = wrapN 32 (s.dev.axSign m * (((vat d.axes m).v / 65536 : Nat) : Int))
           ∧ Dev.withEvent [AXS_VEL m, AXS_FLAGS m] { s.dev with axes := d.axes } d
           ∧ ∀ k, k ≠ m → vat d.axes k = vat s.dev.axes k)
    ∧ (∀ (pos : Int), s.dev.axRunning m = true → (vat s.dev.axes m).enReady = true → 0 < (vat s.dev.axes m).held →
       pos = s.dev.axPos m + s.dev.axSign m * (stepMult (s.dev.get (AXS_STATUS_MS_LEVEL m)) : Int) →
       pos ≠ (vat s.dev.axes m).goal → s.dev.on (AXS_STATUS_STOPPING m) = false →
       (vat s.dev.axes m).decel = false → pos % 256 ≠ 0 →
         exec (.stepCarry m) s =
           .next { s with dev := { s.dev.setRegS (AXS_POS m) pos with
             axes := vmod s.dev.axes m fun (x : AxisState) => { x with held := x.held - 1 } } })
    ∧ (vat (vat s.dev.axes m).edge i = none → s.dev.get (AXS_LIM_CFG_FILT m) ≠ 0 →
         exec (.inputFirstEdge m i) s =
           .next { s with dev :=
             { (s.dev.setReg (AXS_INPUTS m) (setBit (s.dev.reg (AXS_INPUTS m)) (i.val + 4)
                 (!bit (s.dev.reg (AXS_INPUTS m)) i.val))).setRegS (axLatchReg m i) (s.dev.axPos m) with
               axes := vmod s.dev.axes m fun (x : AxisState) =>
                 { x with edge := vput x.edge i (some (s.dev.reg (axLatchReg m i))) } } })
    ∧ (∀ (old : Nat), vat (vat s.dev.axes m).edge i = some old → s.dev.reg (AXS_CHAT_THR m) = 0 →
         exec (.limitChatter m i) s =
           .next { s with dev :=
             { ((s.dev.setReg (AXS_INPUTS m) (setBit (s.dev.reg (AXS_INPUTS m)) (i.val + 4)
                 (bit (s.dev.reg (AXS_INPUTS m)) i.val))).setReg (axLatchReg m i) old).count (AXS_CHATTER m) 1 with
               axes := vmod s.dev.axes m fun (x : AxisState) => { x with edge := vput x.edge i none } } })
    ∧ (∀ (old : Nat), vat (vat s.dev.axes m).edge i = some old → bit (s.dev.get (AXS_LIM_CFG_LIM_EN m)) i.val = false →
         exec (.inputAccepted m i) s =
           .next { s with dev :=
             { s.dev.setReg (AXS_INPUTS m) (setBit (s.dev.reg (AXS_INPUTS m)) i.val (!bit (s.dev.reg (AXS_INPUTS m)) i.val)) with
               axes := vmod s.dev.axes m fun (x : AxisState) => { x with edge := vput x.edge i none } } })

/-- While the MCH clock runs, no reaction waits and no RWS write waits: with the chain enabled and free, CHAIN_COMMIT
starts the SET_STEADY frame with the steady levels and queues SET_FLASH; a refresh starts a NOP frame; the end of a
frame sets each driver's status with its quality and derating factor, and counts the drivers that answered. Where
the rules admit more than one reading it states the model's (log entry 49). (R385, R386, R396, R384) -/
def Obligations.LampChainCommands : Prop :=
  ∀ (status : List Word) (levels : List Nat) (s : State), s.dev.runs domMch = true → s.dev.calm →
    s.dev.shadow = [] →
    (s.dev.on LMP_CTRL_CHAIN_EN = true → s.dev.lmp.tx = none → s.dev.lmp.txQ = [] → s.dev.lmp.windows = [] →
       (levels = (List.finRange 32).map fun k => if k.val < s.dev.ldCount then s.dev.ldSteady k else 0) →
         exec .chainCommit s = .next { s with dev := { (s.dev.put LMP_CHAIN_COMMIT_R385 1).put LMP_STATUS_CHAIN_BUSY 1 with
             lmp := { s.dev.lmp with
               tx := some (1, levels), txQ := [2], measuring := s.dev.lmp.measuring.map fun _ => true } } })
    ∧ (s.dev.on LMP_CTRL_CHAIN_EN = true → s.dev.lmp.tx = none → s.dev.lmp.txQ = [] → s.dev.lmp.windows = [] →
         exec .chainRefresh s = .next { s with dev := { s.dev.put LMP_STATUS_CHAIN_BUSY 1 with
             lmp := { s.dev.lmp with tx := some (0, List.replicate 32 0), txQ := [] } } })
    ∧ (s.dev.lmp.tx = some (0, levels) →
         ∃ d, exec (.chainFrameDone status) s = .next { s with dev := d }
           ∧ (∀ k : Fin 32, k.val < s.dev.ldCount → d.reg (LMP_LD_STATUS k.val) =
               if bits (status.getD k.val 0).toNat 31 28 = 10
               then qGood * 65536 + min (s.dev.derate (some (sx 16 (bits (status.getD k.val 0).toNat 23 8)))) 65535
               else qInvalid * 65536 + min (s.dev.derate none) 65535)
           ∧ d.get LMP_STATUS_DRIVERS = ((List.finRange 32).filter fun k => decide (k.val < s.dev.ldCount)
               && decide (bits (status.getD k.val 0).toNat 31 28 = 10)).length
           ∧ Dev.withFault ([LMP_STATUS, LMP_FLAGS] ++ (List.range 32).map LMP_LD_STATUS)
               { s.dev with lmp := d.lmp } d)

/-- While the MCH clock runs and no reaction waits: when a camera's window opens and the chain is free, the latch starts
the flash of a window that flashes; when it ends and nothing else holds the flash, the latch ends it. A colour
reading that runs is disturbed. Where the matrix is enabled and no exposure window is known: the scan starts with
row 0 for ROW_US; a row that ends is diagnosed cell by cell (OK, OPEN, or UNVERIFIED where its on-time is short) and
2 us of blanking follow; after a test the scan goes on with the next row. Where the rules admit more than one
reading it states the model's (log entry 49). (R387, R388, R393, R390, R391, R392) -/
def Obligations.FlashesAndMatrixRows : Prop :=
  ∀ (c : Camera) (w : Window) (tau : Nat) (sense : Word) (s : State), s.dev.runs domMch = true →
    s.dev.calm →
    (((s.dev.lmp.windows.find? fun x => x.cam == c.val && !x.opened) = some w) → s.dev.flashes w = true →
       s.dev.on LMP_CTRL_CHAIN_EN = true → s.dev.lmp.tx = none →
         exec (.flashOpen c) s = .next { s with dev := { s.dev with lmp := { s.dev.lmp with
             windows := s.dev.lmp.windows.map fun x => if x = w then { x with opened := true } else x
             flashing := true
             measuring := s.dev.lmp.measuring.map fun _ => true } } })
    ∧ (((s.dev.lmp.windows.find? fun x => x.cam == c.val && x.opened) = some w) → s.dev.lmp.flashing = true →
       s.dev.on LMP_CTRL_CHAIN_EN = true → s.dev.lmp.hitFlash = false →
       (∀ x ∈ s.dev.lmp.windows.erase w, x.opened = false) → s.dev.lmp.txQ = [] →
         exec (.flashClose (some c)) s = .next { s with dev := { s.dev with lmp := { s.dev.lmp with
             windows := s.dev.lmp.windows.erase w
             late := s.dev.lmp.late.filter (· ≠ c.val)
             flashing := false
             measuring := s.dev.lmp.measuring.map fun _ => true } } })
    ∧ (s.dev.on LMP_CTRL_MTX_EN = true → s.dev.lmp.windows = [] → s.dev.lmp.phase = .off → s.dev.shadow = [] →
         exec (.matrixRowEnd tau sense) s =
           .next { s with dev :=
             { s.dev.setReg LMP_STATUS (putBits (s.dev.reg LMP_STATUS) 2 0 0) with
               lmp := { s.dev.lmp with
                 testDone := false, phase := .on, row := 0, rowStart := s.dev.t0.nanos + tau, expRow := false
                 rowEnd := s.dev.t0.nanos + tau + s.dev.get LMP_MTX_CFG_ROW_US * 1000 } } })
    ∧ (s.dev.on LMP_CTRL_MTX_EN = true → s.dev.lmp.windows = [] → s.dev.lmp.phase = .blankAfter →
       s.dev.lmp.row < 7 →
         exec (.matrixRowEnd tau sense) s =
           .next { s with dev :=
             { s.dev.setReg LMP_STATUS (putBits (s.dev.reg LMP_STATUS) 2 0 (s.dev.lmp.row + 1)) with
               lmp := { s.dev.lmp with
                 phase := .on, row := s.dev.lmp.row + 1, rowStart := s.dev.t0.nanos + tau, expRow := false
                 rowEnd := s.dev.t0.nanos + tau + s.dev.get LMP_MTX_CFG_ROW_US * 1000 } } })
    ∧ (s.dev.on LMP_CTRL_MTX_EN = true → s.dev.lmp.windows = [] → s.dev.lmp.phase = .on → s.dev.lmp.row < 8 →
         ∃ d, exec (.matrixRowEnd tau sense) s = .next { s with dev := d } ∧ d.lmp.phase = .blank
           ∧ d.lmp.rowEnd = s.dev.t0.nanos + tau + 2000
           ∧ (∀ c, c < 16 → bits (d.reg (LMP_MTX_DIAG s.dev.lmp.row)) (2 * c + 1) (2 * c) =
               if 500 ≤ s.dev.cellOn s.dev.lmp.row c then (if bit sense.toNat c then 1 else 0) else 2)
           ∧ Dev.withFault [LMP_FLAGS, LMP_MTX_DIAG s.dev.lmp.row] { s.dev with lmp := d.lmp } d)

/-- While the MCH clock runs, no reaction waits and no RWS write waits: with COLOUR_EN a reading starts, disturbed from
its start by a flash, an open window or a cell test; an undisturbed reading that ends stores the three channels,
updates each group's gain by KI between KMIN and 65,535 unless an output of the group is derated, and takes the
matrix temperature with its derating factor. Where the rules admit more than one reading it states the model's (log
entry 49). (R393, R394, R395, R396) -/
def Obligations.LampColourReading : Prop :=
  ∀ (bs : List Byte) (w : Word) (s : State), s.dev.runs domMch = true → s.dev.calm → s.dev.shadow = [] →
    (s.dev.on LMP_CTRL_COLOUR_EN = true →
         exec .colourMeasure s = .next { s with dev := { s.dev with lmp := { s.dev.lmp with
             measuring := some (s.dev.lmp.flashing || s.dev.lmp.windows.any (·.opened) || s.dev.lmp.phase = .test) } } })
    ∧ (s.dev.lmp.measuring = some false → bs.length = 6 →
         ∃ d, exec (.colourReadingDone (some bs) (some w)) s = .next { s with dev := d } ∧ d.lmp.measuring = none
           ∧ (∀ g, g < 3 → d.reg (LMP_COL_MEAS g) = if s.dev.get LMP_COL_DEV_BE = 1
               then leNat ((bs.drop (2 * g)).take 2).reverse else leNat ((bs.drop (2 * g)).take 2))
           ∧ (∀ g, g < 3 → s.dev.groupDerated g = false → d.reg (LMP_COL_GAIN g) =
               (clampI (s.dev.get LMP_COL_KI_KMIN) 65535 (((s.dev.reg (LMP_COL_GAIN g) % 65536 : Nat) : Int) +
                 asr ((s.dev.get LMP_COL_KI_KI : Int) * (((s.dev.reg (LMP_COL_TGT g) % 65536 : Nat) : Int)
                   - (d.reg (LMP_COL_MEAS g) : Int))) 16)).toNat)
           ∧ (∀ g, g < 3 → s.dev.groupDerated g = true → d.reg (LMP_COL_GAIN g) = s.dev.reg (LMP_COL_GAIN g))
           ∧ d.reg LMP_MTX_TEMP = w.toNat % 65536 ∧ d.lmp.mtxFactor = s.dev.derate (some (sx 16 w.toNat))
           ∧ Dev.withFault ([LMP_FLAGS, LMP_STATUS, LMP_MTX_TEMP] ++ (List.range 3).map LMP_COL_MEAS
               ++ (List.range 3).map LMP_COL_GAIN) { s.dev with lmp := d.lmp } d)

/-- While FAB runs and no reaction waits: a COMMIT or FLIP is marked pending for the next boundary; ENABLE starts
composition with FRAME_NO 0, and with the video output selected and VID_EN 0 it is refused with CFG_ERR; VID_EN is
stored while it is 0, and its fall stops the video. Where the rules admit more than one reading it states the
model's (log entry 48). (R368, R369, R374, R378) -/
def Obligations.TapestryCommits : Prop :=
  ∀ (i : Plane) (w : Word) (s : State), s.dev.runs domFab = true → s.dev.calm →
    (exec (.planeCommit i.castSucc) s = .next { s with dev := s.dev.put (TAPP_COMMIT_COMMIT i.val) 1 }
       ∧ exec (.planeCommit 8) s = .next { s with dev := s.dev.put TAP_CUR_COMMIT_COMMIT 1 }
       ∧ exec (.planeFlip i) s = .next { s with dev := s.dev.put (TAPP_STATUS_FLIP_PEND i) 1 })
    ∧ (s.dev.on TAP_CTRL_ENABLE = false → bits w.toNat 2 1 = 1 → s.dev.shadow = [] →
         ∃ d, exec (.tapEnable w) s = .next { s with dev := d } ∧ d.on TAP_CTRL_ENABLE = true ∧ d.get TAP_CTRL_OUT_SEL = 1
           ∧ d.on TAP_STATUS_RUNNING = true ∧ d.reg TAP_FRAME_NO = 0
           ∧ Dev.regsOnly [TAP_CTRL, TAP_STATUS, TAP_FRAME_NO] { s.dev with tap := d.tap } d)
    ∧ (s.dev.on TAP_CTRL_ENABLE = false → bits w.toNat 2 1 = 0 → s.dev.on TAP_VID_CTRL_VID_EN = false →
         exec (.tapEnable w) s = .next { s with dev := (s.dev.setReg TAP_CTRL 0).put TAP_FLAGS_CFG_ERR 1 })
    ∧ (s.dev.on TAP_VID_CTRL_VID_EN = false →
         exec (.vidEnable w) s = .next { s with dev := s.dev.setReg TAP_VID_CTRL (Nat.land w.toNat 0x1F) })
    ∧ (s.dev.on TAP_VID_CTRL_VID_EN = true → bit w.toNat 0 = false →
         exec (.vidEnable w) s = .next { s with dev := { s.dev.put TAP_VID_CTRL_VID_EN 0 with
             tap := { s.dev.tap with video := false } } })

/-- While the TAP clock runs and no reaction waits: a boundary with the memory output and a free ring slot takes the
next frame number and starts the frame; a missing source line makes its plane transparent for that line, is counted
and flagged; a composed frame is written to its slot, 32 bytes of header first, and raises E212. Where the rules
admit more than one reading it states the model's (log entry 48). (R367, R370, R372, R375) -/
def Obligations.TapestryFrames : Prop :=
  ∀ (i : Plane) (line tau : Nat) (k n : Nat) (f : TapFrame) (s : State), s.dev.runs 4 = true → s.dev.calm →
    s.dev.shadow = [] →
    (s.dev.on TAP_CTRL_ENABLE = true → s.dev.get TAP_CTRL_OUT_SEL = 1 → s.dev.tap.frame = none →
       s.dev.memSlot = some k → (∀ p : Plane, s.dev.on (TAPP_CTRL_EN p) = false) →
         ∃ d, exec (.tapFrameBoundary tau) s = .next { s with dev := d }
           ∧ d.reg TAP_FRAME_NO = (s.dev.reg TAP_FRAME_NO + 1) % 2 ^ 32
           ∧ (∃ g, d.tap.frame = some g ∧ g.no = d.reg TAP_FRAME_NO ∧ g.slot = k ∧ g.layer = s.dev.reg TRD_LAYER
               ∧ g.sec = (s.dev.t0.nanos + tau) / 1000000000 % 2 ^ 32 ∧ g.ns = (s.dev.t0.nanos + tau) % 1000000000)
           ∧ Dev.regsOnly ([TAP_FRAME_NO, TAP_CUR_COMMIT] ++ (List.range 8).map TAPP_STATUS ++ (List.range 8).map TAPP_COMMIT)
               { s.dev with tap := d.tap, isp := d.isp } d)
    ∧ (∃ d, exec (.tapUnderrun i line) s = .next { s with dev := d } ∧ d.on TAP_FLAGS_UNDERRUN = true
         ∧ d.reg TAP_UNDERRUNS = min (s.dev.reg TAP_UNDERRUNS + 1) 0xFFFFFFFF
         ∧ d.reg (CRLB_UNF (56 + i.val)) = min (s.dev.reg (CRLB_UNF (56 + i.val)) + 1) 0xFFFFFFFF
         ∧ d.tap = { s.dev.tap with
             frame := s.dev.tap.frame.map fun g => { g with under := (i.val, line) :: g.under }, underSeen := true }
         ∧ Dev.withFault [TAP_UNDERRUNS, TAP_FLAGS, CRL_EVT_BOBBIN, CRLB_UNF (56 + i.val), CRLB_STATUS (56 + i.val)]
             { s.dev with tap := d.tap } d)
    ∧ (s.dev.tap.frame = some f → n = s.dev.reg TAP_FRAME % 65536 * (s.dev.reg TAP_FRAME / 65536) * 4 →
       s.dev.on TAP_MEM_CFG_EXPORT = false → s.dev.on TAP_MEM_CFG_FORMAT = false →
       k = s.dev.reg TAP_MEM_BASE % 65536 * 1048576 + f.slot * (divUp (32 + n) 4096 * 4096) →
       s.dev.inDram k (32 + n) = true →
         ∃ d, exec .memFrameDone s = .next { s with dev := d } ∧ d.tap = { s.dev.tap with frame := none } ∧ d.pends 212
           ∧ d.dramBytes k 32 = wordsBytes [f.no, f.sec, f.ns, s.dev.reg TAP_FRAME, b2n (!f.under.isEmpty) * 2 ^ 16
               + f.blanked * 256 + f.stale, f.layer, 0, 0]
           ∧ sameOutside ramDefault k (32 + n) s.dev.dram d.dram
           ∧ Dev.withEvent [] { s.dev with tap := d.tap, dram := d.dram, drc := d.drc, free := d.free } d)

/-- While FAB runs and no reaction waits. On a closed general bobbin: EN = 1 with a legal ring enables it empty; with an
illegal one it stays disabled and CFG_ERR is set; EN = 0 disables it and resets its pointers. Where SCRUB_EN is 1: a
scrub read moves on to the next word of every bank, modulo 16,384; a corrected error is counted and its address
latched; an uncorrectable one is counted and latched with bit 31; one in the secure partition starts a wipe. Where
the rules admit more than one reading it states the model's (log entry 50). (R407, R410, R413, R414, R415, R416,
R421) -/
def Obligations.BobbinsAndScrub : Prop :=
  ∀ (b : Bobbin) (w : Word) (bank : Fin 64) (group : Fin 4) (s : State), s.dev.runs domFab = true →
    s.dev.calm →
    (70 ≤ b.val → s.dev.bobEn b.val = false → s.dev.bobLegal b.val = true →
         ∃ d, exec (.bobbinEnable b w) s = .next { s with dev := d } ∧ d.bobEn b.val = true
           ∧ d.reg (CRLB_CFG b.val) = Nat.land (setBit w.toNat 0 true) 0xFF7B3
           ∧ d.reg (CRLB_WR b.val) = 0 ∧ d.reg (CRLB_RD b.val) = 0 ∧ d.reg (CRLB_FILL b.val) = 0
           ∧ d.crl = { s.dev.crl with ended := s.dev.crl.ended.filter (· ≠ b.val) }
           ∧ Dev.regsOnly [CRLB_CFG b.val, CRLB_WR b.val, CRLB_RD b.val, CRLB_FILL b.val, CRLB_STATUS b.val]
               { s.dev with crl := d.crl } d)
    ∧ (70 ≤ b.val → s.dev.bobEn b.val = false → s.dev.bobLegal b.val = false →
         ∃ d, exec (.bobbinEnable b w) s = .next { s with dev := d } ∧ d.bobEn b.val = false ∧ d.on CRL_FLAGS_CFG_ERR = true
           ∧ d.reg (CRLB_CFG b.val) = setBit (Nat.land (setBit w.toNat 0 true) 0xFF7B3) 0 false
           ∧ Dev.withEvent [CRLB_CFG b.val, CRL_FLAGS] s.dev d)
    ∧ (70 ≤ b.val → s.dev.bobEn b.val = false →
         ∃ d, exec (.bobbinDisable b w) s = .next { s with dev := d } ∧ d.bobEn b.val = false
           ∧ d.reg (CRLB_WR b.val) = 0 ∧ d.reg (CRLB_RD b.val) = 0 ∧ d.reg (CRLB_FILL b.val) = 0
           ∧ d.crl = { s.dev.crl with ended := s.dev.crl.ended.filter (· ≠ b.val) }
           ∧ Dev.regsOnly [CRLB_CFG b.val, CRLB_WR b.val, CRLB_RD b.val, CRLB_FILL b.val, CRLB_STATUS b.val]
               { s.dev with crl := d.crl } d)
    ∧ (s.dev.on CRL_CTRL_SCRUB_EN = true → s.dev.reg CRL_STATUS % 16384 < 16383 →
         exec (.scrubRead false .clean) s =
           .next { s with dev := s.dev.setReg CRL_STATUS (s.dev.reg CRL_STATUS % 16384 + 1) })
    ∧ (s.dev.on CRL_CTRL_SCRUB_EN = true → s.dev.reg CRL_STATUS % 16384 < 16383 →
         ∃ d, exec (.scrubRead false (.corrected bank group)) s = .next { s with dev := d } ∧ d.on CRL_FLAGS_CE = true
           ∧ d.reg CRL_STATUS = s.dev.reg CRL_STATUS % 16384 + 1
           ∧ d.reg CRL_CE_COUNT = min (s.dev.reg CRL_CE_COUNT + 1) 0xFFFFFFFF
           ∧ d.reg CRL_ERR_ADDR = s.dev.reg CRL_STATUS % 16384 * 2048 + bank.val * 32 + group.val * 8
           ∧ (s.dev.crl.ceSeen = false → d.pends 32) ∧ d.crl = { s.dev.crl with ceSeen := true }
           ∧ Dev.withFault [CRL_STATUS, CRL_CE_COUNT, CRL_ERR_ADDR, CRL_FLAGS] { s.dev with crl := d.crl } d)
    ∧ (s.dev.on CRL_CTRL_SCRUB_EN = true → s.dev.reg CRL_STATUS % 16384 < 16383 →
         exec (.scrubRead false (.uncorrectable bank group)) s =
           .next { s with dev :=
             ((s.dev.setReg CRL_STATUS (s.dev.reg CRL_STATUS % 16384 + 1)).count CRL_UE_COUNT 1).setReg CRL_ERR_ADDR (2 ^ 31 + (s.dev.reg CRL_STATUS % 16384 * 2048 + bank.val * 32 + group.val * 8)) })
    ∧ (s.dev.on CRL_CTRL_SCRUB_EN = true → s.dev.reg CRL_STATUS % 16384 < 16383 →
         ∃ d, exec (.scrubRead false .partitionUncorrectable) s = .next { s with dev := d } ∧ d.on SEC_STATUS_WIPING = true
           ∧ bit (d.reg SEC_WIPE_CAUSE) 4 = true ∧ (∀ k : KeySlot, vat d.sec.keys k = none)
           ∧ Dev.regsOnly ([CRL_STATUS, SEC_WIPE_CAUSE, SEC_STATUS, SEC_KEY_STAT, DEV_STATE] ++ (List.range 10).map SEC_KEY_WRAP)
               { s.dev with sec := d.sec } d)

/-- While AON and FAB run, no reaction waits, and the partition is READY with no layer file in RECEIVING on the slot:
ERASE clears the slot; LOAD without a key-encryption key is refused with RESULT 2; LOAD with one stores the key that
RFC 3394 unwraps with NONCE 0, or ends with RESULT 1 and E42 and leaves the slot. The wrap registers end cleared,
and no other slot changes. While AON and FAB run and no reaction waits: WIPE_ALL with KEY 0x5EC0, TAMPER_N, and the
glitch detectors each start a wipe: every key, nonce and STAGED_OK and AUTH_OK are gone, and the cause is recorded;
its end clears WIPING, counts WIPES and raises E41, and outside PRODUCTION changes nothing else of the device. Where
the rules admit more than one reading it states the model's (log entries 26 and 50). (R419, R420, R427, R421, R422,
R528) -/
def Obligations.SecurePartition : Prop :=
  ∀ (k : KeySlot) (kek : List Byte) (key : Word) (clock : Bool) (s : State), s.dev.runs domAon = true →
    s.dev.runs domFab = true → s.dev.calm →
    (s.dev.on SEC_STATUS_READY = true → s.dev.keyInUse k = false →
         ∃ d, exec (.keyErase k) s = .next { s with dev := d } ∧ vat d.sec.keys k = none ∧ vat d.sec.nonces k = 0
           ∧ d.get SEC_KEY_STAT_RESULT = 0 ∧ (∀ i, i < 10 → d.reg (SEC_KEY_WRAP i) = 0)
           ∧ (∀ j : KeySlot, bit (d.get SEC_STATUS_KEY_VALID) j.val = (vat d.sec.keys j).isSome)
           ∧ (∀ j : KeySlot, j ≠ k → vat d.sec.keys j = vat s.dev.sec.keys j ∧ vat d.sec.nonces j = vat s.dev.sec.nonces j)
           ∧ Dev.regsOnly ([SEC_KEY_STAT, SEC_STATUS] ++ (List.range 10).map SEC_KEY_WRAP) { s.dev with sec := d.sec } d)
    ∧ (s.dev.on SEC_STATUS_READY = true → s.dev.keyInUse k = false → s.dev.start.fuses.kek = none →
         ∃ d, exec (.keyLoad k) s = .next { s with dev := d } ∧ d.sec = { s.dev.sec with waiting := none }
           ∧ d.get SEC_KEY_STAT_RESULT = 2 ∧ d.on SEC_FLAGS_KEY_REFUSED = true ∧ (∀ i, i < 10 → d.reg (SEC_KEY_WRAP i) = 0)
           ∧ Dev.withEvent ([SEC_KEY_STAT, SEC_STATUS, SEC_FLAGS] ++ (List.range 10).map SEC_KEY_WRAP)
               { s.dev with sec := d.sec } d)
    ∧ (s.dev.on SEC_STATUS_READY = true → s.dev.keyInUse k = false → s.dev.start.fuses.kek = some kek →
       s.dev.get DEV_LC_IN_FORCE ≠ 3 →
         ∃ d, exec (.keyLoad k) s = .next { s with dev := d }
           ∧ (∀ key, aesUnwrap kek s.dev.wrapped = some key → d.get SEC_KEY_STAT_RESULT = 0 ∧ vat d.sec.keys k = some key
               ∧ vat d.sec.nonces k = 0 ∧ vat d.sec.subkeys k = gcmSubkey key)
           ∧ (aesUnwrap kek s.dev.wrapped = none → d.get SEC_KEY_STAT_RESULT = 1 ∧ d.on SEC_FLAGS_KEY_REFUSED = true
               ∧ vat d.sec.keys k = vat s.dev.sec.keys k)
           ∧ (∀ i, i < 10 → d.reg (SEC_KEY_WRAP i) = 0)
           ∧ (∀ j : KeySlot, j ≠ k → vat d.sec.keys j = vat s.dev.sec.keys j ∧ vat d.sec.nonces j = vat s.dev.sec.nonces j)
           ∧ Dev.withEvent ([SEC_KEY_STAT, SEC_STATUS, SEC_FLAGS] ++ (List.range 10).map SEC_KEY_WRAP)
               { s.dev with sec := d.sec } d)
    ∧ (key.toNat % 65536 = 0x5EC0 →
         ∃ d, exec (.wipeAll key) s = .next { s with dev := d } ∧ d.on SEC_STATUS_WIPING = true ∧ d.on SEC_STATUS_READY = false
           ∧ bit (d.reg SEC_WIPE_CAUSE) 5 = true ∧ d.on DEV_STATE_AUTH_OK = false
           ∧ (∀ k : KeySlot, vat d.sec.keys k = none ∧ vat d.sec.nonces k = 0) ∧ d.sec.waiting = none ∧ d.sec.staged = none
           ∧ Dev.withEvent ([SEC_WIPE_CAUSE, SEC_STATUS, SEC_KEY_STAT, DEV_STATE] ++ (List.range 10).map SEC_KEY_WRAP)
               { s.dev with sec := d.sec } d)
    ∧ (∃ d, exec .tamper s = .next { s with dev := d } ∧ d.on SEC_STATUS_WIPING = true ∧ d.on SEC_STATUS_READY = false
         ∧ bit (d.reg SEC_WIPE_CAUSE) 0 = true ∧ d.on DEV_STATE_AUTH_OK = false ∧ d.pends 9
         ∧ (∀ k : KeySlot, vat d.sec.keys k = none ∧ vat d.sec.nonces k = 0) ∧ d.sec.waiting = none ∧ d.sec.staged = none
         ∧ Dev.withEvent ([SEC_WIPE_CAUSE, SEC_STATUS, SEC_KEY_STAT, DEV_STATE] ++ (List.range 10).map SEC_KEY_WRAP)
             { s.dev with sec := d.sec } d)
    ∧ (∃ d, exec (.glitch clock) s = .next { s with dev := d } ∧ d.on SEC_STATUS_WIPING = true ∧ d.on SEC_STATUS_READY = false
         ∧ bit (d.reg SEC_WIPE_CAUSE) (if clock then 2 else 1) = true ∧ d.on DEV_STATE_AUTH_OK = false ∧ d.pends 10
         ∧ (∀ k : KeySlot, vat d.sec.keys k = none ∧ vat d.sec.nonces k = 0) ∧ d.sec.waiting = none ∧ d.sec.staged = none
         ∧ Dev.withEvent ([SEC_WIPE_CAUSE, SEC_STATUS, SEC_KEY_STAT, DEV_STATE] ++ (List.range 10).map SEC_KEY_WRAP)
             { s.dev with sec := d.sec } d)
    ∧ (s.dev.on SEC_STATUS_WIPING = true → s.dev.get DEV_LC_IN_FORCE ≠ 2 → s.dev.get DEV_UPD_STAT_STATE ≠ 3 →
       s.dev.get TRD_STATE_STATE ≠ 6 →
         ∃ d, exec .secWipe s = .next { s with dev := d } ∧ d.on SEC_STATUS_WIPING = false ∧ d.on SEC_FLAGS_WIPED = true
           ∧ d.reg SEC_WIPES = min (s.dev.reg SEC_WIPES + 1) 0xFFFFFFFF ∧ d.pends 41
           ∧ Dev.withFault [SEC_STATUS, SEC_WIPES, SEC_FLAGS] s.dev d)

/-- While the MCH clock runs and no reaction waits, on an enabled quadrature channel: a legal transition changes the
count by one in its direction; an illegal one counts nothing, is counted in ERRS and makes the quality SUSPECT; an
edge in the compare direction that reaches CMP_VAL while armed is a hit: CMP_HITS counts, CMP_VAL moves on by the
spacing and CMP_TIME is latched. Where the rules admit more than one reading it states the model's (log entry 45).
(R281, R283, R291, R292) -/
def Obligations.EncoderEdges : Prop :=
  ∀ (c : PinChannel) (a b z : Bool) (tau lv k : Nat) (dir : Int) (s : State), s.dev.runs domMch = true →
    s.dev.calm → s.dev.on (FBK_EN_EN c) = true → s.dev.pinMode c = 0 → lv = b2n a + 2 * b2n b + 4 * b2n z →
    k = (quadPlace lv + 4 - quadPlace (s.dev.pin c).levels) % 4 →
    ((k = 1 ∨ k = 3) → (dir = (if s.dev.on (FBK_CTRL_INVERT c) then -1 else 1) * (if k = 1 then 1 else -1)) →
       s.dev.on (FBK_CMP_CTRL_ARMED c) = false → (s.dev.pin c).due = false →
         exec (.encoderEdge c a b z tau) s =
           .next { s with dev :=
             { s.dev.setRegS (FBK_COUNT c) (s.dev.pinCount c + dir) with
               pins := vmod s.dev.pins c fun (p : PinState) => { p with
                 levels := lv, lastDir := dir
                 changes := ⟨s.dev.t0.nanos + tau, dir, .edge (decide (p.lastDir ≠ 0 ∧ p.lastDir ≠ dir))⟩ :: p.changes } } })
    ∧ (k = 2 →
         ∃ d, exec (.encoderEdge c a b z tau) s = .next { s with dev := d } ∧ d.pinQ c = qSuspect
           ∧ d.reg (FBK_ERRS c) = min (s.dev.reg (FBK_ERRS c) + 1) 0xFFFFFFFF ∧ d.on (FBK_FLAGS_QUAD_ERR c) = true
           ∧ Dev.withFault [FBK_ERRS c, FBK_QUAL c, FBK_FLAGS c] { s.dev with pins := d.pins } d)
    ∧ (k = 1 → s.dev.on (FBK_CTRL_INVERT c) = false → s.dev.on (FBK_CMP_CTRL_ARMED c) = true →
       s.dev.on (FBK_CMP_CTRL_DIR c) = false → (s.dev.pin c).due = false →
       s.dev.get (FBK_CMP_CTRL_ROUTE c) = 0 → 0 < s.dev.reg (FBK_CMP_SPACING c) →
       s.dev.reg (FBK_CMP_COUNT c) = 0 → s.dev.reg (FBK_CMP_VAL c) = wrapN 32 (s.dev.pinCount c + 1) →
         ∃ d, exec (.encoderEdge c a b z tau) s = .next { s with dev := d }
           ∧ d.reg (FBK_COUNT c) = wrapN 32 (s.dev.pinCount c + 1)
           ∧ d.reg (FBK_CMP_HITS c) = min (s.dev.reg (FBK_CMP_HITS c) + 1) 0xFFFFFFFF
           ∧ d.reg (FBK_CMP_VAL c) = (s.dev.reg (FBK_CMP_VAL c) + s.dev.reg (FBK_CMP_SPACING c)) % 2 ^ 32
           ∧ d.reg (FBK_CMP_TIME c) = (s.dev.t0.nanos + tau) % 1000000000 / 4 * 4 ∧ d.on (FBK_CMP_CTRL_ARMED c) = true
           ∧ Dev.regsOnly [FBK_COUNT c, FBK_CMP_HITS c, FBK_CMP_VAL c, FBK_CMP_TIME c] { s.dev with pins := d.pins } d)

/-- While the MCH clock runs and no reaction waits: an index latches the count; within IDX_TOL it corrects the count to
the nearest congruent value, with IDX_CORR and GOOD quality; a COUNT written at rest is the count and re-aims the
compare; CMP_VAL and an armed CMP_CTRL are stored unless the Treadle owns the compare, when they set WRITE_LOCKED.
Where the rules admit more than one reading it states the model's (log entry 45). (R284, R291, R293, R294, R301) -/
def Obligations.IndexAndCountWrites : Prop :=
  ∀ (c : PinChannel) (w : Word) (tau : Nat) (off : Int) (s : State), s.dev.runs domMch = true → s.dev.calm →
    (s.dev.on (FBK_EN_EN c) = true → s.dev.pinMode c = 0 → s.dev.on (FBK_CTRL_IDX_QUAL c) = false →
       s.dev.on (FBK_CTRL_IDX_EN c) = false → (∀ m : Axis, s.dev.axHoming m = false) →
         exec (.indexPulse c tau) s = .next { s with dev := s.dev.setRegS (FBK_IDX_LATCH c) (s.dev.pinCount c) })
    ∧ (s.dev.on (FBK_EN_EN c) = true → s.dev.pinMode c = 0 → s.dev.on (FBK_CTRL_IDX_QUAL c) = false →
       s.dev.on (FBK_CTRL_IDX_EN c) = true → (∀ m : Axis, s.dev.axHoming m = false) →
       off = indexOffset (s.dev.pinCount c) (s.dev.regS (FBK_IDX_POS c)) (s.dev.reg (FBK_IDX_PERIOD c)) →
       s.dev.reg (FBK_IDX_PERIOD c) ≠ 0 → off ≠ 0 → off.natAbs ≤ s.dev.reg (FBK_IDX_TOL c) % 65536 →
       s.dev.on (FBK_CMP_CTRL_ARMED c) = false →
         ∃ d, exec (.indexPulse c tau) s = .next { s with dev := d } ∧ d.reg (FBK_IDX_LATCH c) = s.dev.reg (FBK_COUNT c)
           ∧ d.reg (FBK_COUNT c) = wrapN 32 (s.dev.pinCount c + off) ∧ d.reg (FBK_IDX_CORR c) = wrapN 32 off
           ∧ d.pinQ c = qGood ∧ d.on (FBK_FLAGS_IDX_CORR c) = true
           ∧ Dev.withFault [FBK_IDX_LATCH c, FBK_COUNT c, FBK_IDX_CORR c, FBK_QUAL c, FBK_FLAGS c]
               { s.dev with pins := d.pins } d)
    ∧ (s.dev.reg (FBK_SPEED c) = 0 →
         ∃ d, exec (.countWrite c w tau) s = .next { s with dev := d } ∧ d.reg (FBK_COUNT c) = w.toNat
           ∧ d.pinQ c = (if s.dev.pinQ c = qSuspect then qGood else s.dev.pinQ c) ∧ (d.pin c).due = true
           ∧ Dev.regsOnly [FBK_COUNT c, FBK_QUAL c] { s.dev with pins := d.pins } d
           ∧ ∀ k, k ≠ c → d.pin k = s.dev.pin k)
    ∧ ((s.dev.pin c).owned = false → s.dev.reg (FBK_SPEED c) = 0 →
         exec (.cmpValWrite c w) s = .next { s with dev := { s.dev.setReg (FBK_CMP_VAL c) w.toNat with
             pins := vmod s.dev.pins c fun (p : PinState) => { p with due := true } } })
    ∧ ((s.dev.pin c).owned = false →
         exec (.compareArm c w) s =
           .next { s with dev :=
             ((s.dev.setReg (FBK_CMP_CTRL c) (Nat.land (setBit w.toNat 0 true) 0xFFFF00DF)).setReg (FBK_CMP_HITS c) 0).setReg (FBK_CMP_SKIPPED c) 0 })
    ∧ ((s.dev.pin c).owned = true →
         ∃ d, exec (.compareArm c w) s = .next { s with dev := d } ∧ d.on (FBK_FLAGS_WRITE_LOCKED c) = true
           ∧ Dev.withEvent [FBK_FLAGS c] s.dev d)

/-- While the MCH clock runs and no reaction waits: a due SSI read starts, or makes the quality STALE while a frame
still runs; a good frame changes the count by the difference of the values modulo the frame's bits and makes the
quality GOOD; a bad frame is counted in ERRS, makes the quality INVALID and leaves the count. Where the rules admit
more than one reading it states the model's (log entry 45). (R285, R286) -/
def Obligations.SsiReads : Prop :=
  ∀ (c : PinChannel) (w : Word) (tau v : Nat) (s : State), s.dev.runs domMch = true → s.dev.calm →
    (s.dev.on (FBK_EN_EN c) = true → s.dev.pinMode c = 2 → (s.dev.pin c).reading = false →
       s.dev.ssiTime c < s.dev.ssiRate c * 2000 →
         exec (.ssiReadStart c) s = .next { s with dev := { s.dev with
             pins := vmod s.dev.pins c fun (p : PinState) => { p with reading := true } } })
    ∧ (s.dev.on (FBK_EN_EN c) = true → s.dev.pinMode c = 2 → (s.dev.pin c).reading = true →
       s.dev.pinQ c ≠ qInvalid →
         exec (.ssiReadStart c) s =
           .next { s with dev := s.dev.setReg (FBK_QUAL c) (putBits (s.dev.reg (FBK_QUAL c)) 1 0 qStale) })
    ∧ ((s.dev.pin c).reading = true → s.dev.on (FBK_SSI_CFG_ERR_EN c) = false →
       s.dev.on (FBK_SSI_CFG_GRAY c) = false → s.dev.on (FBK_CMP_CTRL_ARMED c) = false →
       (s.dev.pin c).due = false → v = w.toNat % 2 ^ s.dev.ssiBits c →
         ∃ d, exec (.ssiReadDone c true w tau) s = .next { s with dev := d } ∧ (d.pin c).vPrev = v ∧ d.pinQ c = qGood
           ∧ d.reg (FBK_COUNT c) = wrapN 32 (s.dev.pinCount c + sx (s.dev.ssiBits c)
               ((v + 2 ^ s.dev.ssiBits c - (s.dev.pin c).vPrev % 2 ^ s.dev.ssiBits c) % 2 ^ s.dev.ssiBits c))
           ∧ (d.pin c).reading = false ∧ Dev.regsOnly [FBK_COUNT c, FBK_QUAL c] { s.dev with pins := d.pins } d
           ∧ ∀ k, k ≠ c → d.pin k = s.dev.pin k)
    ∧ ((s.dev.pin c).reading = true →
         ∃ d, exec (.ssiReadDone c false w tau) s = .next { s with dev := d } ∧ d.pinQ c = qInvalid
           ∧ d.reg (FBK_ERRS c) = min (s.dev.reg (FBK_ERRS c) + 1) 0xFFFFFFFF ∧ d.on (FBK_FLAGS_SSI_ERR c) = true
           ∧ (d.pin c).reading = false ∧ Dev.withFault [FBK_ERRS c, FBK_QUAL c, FBK_FLAGS c] { s.dev with pins := d.pins } d)

/-- While FAB runs and no reaction waits: a register trigger of an idle enabled port is noted with its time, and its
exposure window becomes known to the illumination from EXP_DELAY on; at a busy port it is counted in TRIG_MISS and
flagged; a trigger without a VS edge within TRIG_TMO is given up with its flag; a frame without its last line after
1 s is dropped and counted. Where the rules admit more than one reading it states the model's (log entry 47). (R333,
R337, R349, R350, R351) -/
def Obligations.CameraTriggers : Prop :=
  ∀ (c : Camera) (tau : Nat) (t : CamTrigger) (q : List CamTrigger) (f : CamFrame) (s : State),
    s.dev.runs domFab = true → s.dev.calm →
    (s.dev.on (ISPC_CTRL_EN c) = true → s.dev.on (ISPC_TRIG_MODE c) = true →
       s.dev.on (ISPC_TRIG_REG_EN c) = true → s.dev.camBusy c (s.dev.t0.nanos + tau) = false →
       s.dev.lmp.phase = .off →
         ∃ d, exec (.trigNow c tau) s = .next { s with dev := d }
           ∧ d.isp = { s.dev.isp with ports := vmod s.dev.isp.ports c fun (p : CamPort) => { p with
               triggers := p.triggers ++ [⟨3, (s.dev.t0.nanos + tau) / 1000000000, (s.dev.t0.nanos + tau) % 1000000000, false⟩] } }
           ∧ d.lmp = { s.dev.lmp with windows := s.dev.lmp.windows ++
               [⟨c.val, s.dev.t0.nanos + tau + s.dev.reg (ISPC_EXP_DELAY c) % 2 ^ 24,
                 s.dev.t0.nanos + tau + s.dev.reg (ISPC_EXP_DELAY c) % 2 ^ 24 +
                   (((s.dev.cam c).setFor (s.dev.reg (ISPC_FRAME_NO c) + 1)).map fun e => e.exposure / 65536).getD 0 * 1000,
                 false, false⟩] }
           ∧ d = { s.dev with isp := d.isp, lmp := d.lmp })
    ∧ (s.dev.on (ISPC_CTRL_EN c) = true → s.dev.on (ISPC_TRIG_MODE c) = true →
       s.dev.on (ISPC_TRIG_REG_EN c) = true → s.dev.camBusy c (s.dev.t0.nanos + tau) = true →
         ∃ d, exec (.trigNow c tau) s = .next { s with dev := d } ∧ d.on (ISPC_FLAGS_TRIG_MISS c) = true
           ∧ d.reg (ISPC_TRIG_MISS c) = min (s.dev.reg (ISPC_TRIG_MISS c) + 1) 0xFFFFFFFF
           ∧ Dev.withFault [ISPC_TRIG_MISS c, ISPC_FLAGS c] { s.dev with isp := d.isp } d
           ∧ (d.cam c).triggers = (s.dev.cam c).triggers ∧ (d.cam c).frames = (s.dev.cam c).frames)
    ∧ ((s.dev.cam c).triggers = t :: q →
         ∃ d, exec (.trigTmo c) s = .next { s with dev := d } ∧ d.on (ISPC_FLAGS_TRIG_TMO c) = true
           ∧ d.isp = { s.dev.isp with ports := vmod s.dev.isp.ports c fun (p : CamPort) => { p with triggers := q } }
           ∧ Dev.withEvent [ISPC_FLAGS c] { s.dev with isp := d.isp } d)
    ∧ ((s.dev.cam c).capturing = true → (s.dev.cam c).frames.getLast? = some f → f.taken = f.lines.length →
       f.src = 0 → s.dev.exportOf c f = 0 →
         ∃ d, exec (.frameTimeout c tau) s = .next { s with dev := d } ∧ d.on (ISPC_FLAGS_DROP c) = true
           ∧ d.reg (ISPC_DROPS c) = min (s.dev.reg (ISPC_DROPS c) + 1) 0xFFFFFFFF ∧ (d.cam c).capturing = false
           ∧ (d.cam c).frames = (s.dev.cam c).frames.filter (fun x => x.no ≠ f.no)
           ∧ Dev.withFault ([ISPC_DROPS c, ISPC_FLAGS c, ISP_STATUS] ++ (List.range 4).map ISPC_STATUS)
               { s.dev with isp := d.isp } d)

/-- While the MCH clock runs and no reaction waits: an exposure sequence that completes ends EXP_BUSY and marks its
settings as done from the next frame on; one that fails is repeated once; an I2C command makes the controller BUSY,
or PENDING while a sequence runs; a transaction that ends stores its bytes, or its RESULT with I2C_ERR. Where the
rules admit more than one reading it states the model's (log entry 47). (R352, R353, R354, R355) -/
def Obligations.CameraExposureAndI2c : Prop :=
  ∀ (c : Camera) (t : Nat) (r : Fin 3) (w : Word) (s : State), s.dev.runs domMch = true → s.dev.calm →
    ((s.dev.cam c).seqRun = some (t, false) → (s.dev.cam c).seqWait = [] →
       s.dev.on (ISP_I2C_STAT_PENDING c) = false →
         exec (.expSequenceDone c true) s = .next { s with dev := { s.dev.put (ISPC_STATUS_EXP_BUSY c) 0 with
             isp := { s.dev.isp with ports := vmod s.dev.isp.ports c fun (p : CamPort) => { p with
               seqRun := none
               sets := p.sets.map fun e => if e.tag == t && e.doneAt.isNone
                 then { e with doneAt := some (s.dev.reg (ISPC_FRAME_NO c) + 1) } else e } } } }
         ∧ exec (.expSequenceDone c false) s = .next { s with dev := { s.dev with
             isp := { s.dev.isp with ports := vmod s.dev.isp.ports c fun (p : CamPort) => { p with
               seqRun := some (t, true) } } } })
    ∧ (s.dev.on (ISP_I2C_STAT_BUSY c) = false → s.dev.on (ISP_I2C_STAT_PENDING c) = false →
         exec (.i2cCmd c) s = .next { s with dev := (if (s.dev.cam c).seqRun.isSome
             then s.dev.put (ISP_I2C_STAT_PENDING c) 1 else s.dev.put (ISP_I2C_STAT_BUSY c) 1) })
    ∧ (s.dev.on (ISP_I2C_STAT_BUSY c) = true → s.dev.get (ISP_I2C_XFER_RN c) = 4 → (s.dev.cam c).seqWait = [] →
         exec (.i2cDone c 0 w) s = 
           .next { s with dev :=
             ((s.dev.put (ISP_I2C_STAT_BUSY c) 0).put (ISP_I2C_STAT_RESULT c) 0).setReg (ISP_I2C_RDATA c) w.toNat }
         ∧ (r ≠ 0 → ∃ d, exec (.i2cDone c r w) s = .next { s with dev := d } ∧ d.on (ISP_I2C_STAT_BUSY c) = false
             ∧ d.get (ISP_I2C_STAT_RESULT c) = r.val ∧ d.on (ISPC_FLAGS_I2C_ERR c) = true
             ∧ Dev.withFault [ISP_I2C_STAT c, ISPC_FLAGS c] s.dev d))

/-- While the clock of the command runs, no reaction waits and no RWS write waits: a VS edge of a free-running port
numbers the frame and, if its rate fits under CAP, admits it and captures; a line of the frame's width enters bobbin
48 + c and the frame; a line done leaves the bobbin; a frame whose lines are all done is written to its slot
(header, pixels, header and statistics) and counted. Where the rules admit more than one reading it states the
model's (log entry 47). (R333, R334, R335, R336, R346, R347, R408) -/
def Obligations.CameraFrames : Prop :=
  ∀ (c : Camera) (tau k : Nat) (samples : List Nat) (f : CamFrame) (pix stats : List Byte) (s : State),
    s.dev.calm →
    (s.dev.runs (6 + c.val) = true → s.dev.shadow = [] → s.dev.on (ISPC_CTRL_EN c) = true →
       s.dev.on (ISPC_TRIG_MODE c) = false → (s.dev.cam c).capturing = false →
       s.dev.camLoad + s.dev.camRate c ≤ s.dev.get ISP_STATUS_CAP →
         ∃ d, exec (.vsEdge c tau) s = .next { s with dev := d } ∧ d.reg (ISPC_FRAME_NO c) = (s.dev.reg (ISPC_FRAME_NO c) + 1) % 2 ^ 32
           ∧ (∃ g, (d.cam c).frames.getLast? = some g ∧ (d.cam c).frames = (s.dev.cam c).frames ++ [g]
               ∧ g.no = d.reg (ISPC_FRAME_NO c) ∧ g.src = 0 ∧ g.width = s.dev.camW c ∧ g.height = s.dev.camH c
               ∧ g.lines = [] ∧ g.admitted = true ∧ g.slot = none)
           ∧ (d.cam c).capturing = true ∧ d.on (ISPC_STATUS_ADMITTED c) = true
           ∧ Dev.regsOnly ([ISPC_FRAME_NO c, ISP_STATUS] ++ (List.range 4).map ISPC_STATUS)
               { s.dev with isp := d.isp, free := d.free } d)
    ∧ (s.dev.runs (6 + c.val) = true → s.dev.on (ISPC_CTRL_EN c) = true → (s.dev.cam c).capturing = true →
       (s.dev.cam c).frames.getLast? = some f → samples.length = f.width → s.dev.on ISP_CTRL_ENABLE = false →
       s.dev.bobFits (48 + c.val) (2 * f.width) = true →
       s.dev.get (CRLB_WR_WR (48 + c.val)) < 2 * s.dev.bobSize (48 + c.val) →
       ((∀ x ∈ (s.dev.cam c).frames.dropLast, x.no ≠ f.no)) →
         ∃ d, exec (.lineComplete c samples tau) s = .next { s with dev := d }
           ∧ (∃ g, (d.cam c).frames.getLast? = some g ∧ g = { f with
                 lines := f.lines ++ [samples.map fun v => v % 2 ^ s.dev.camBits c * 2 ^ (16 - s.dev.camBits c)] })
           ∧ (d.cam c).capturing = decide (f.lines.length + 1 ≠ f.height)
           ∧ d.get (CRLB_WR_WR (48 + c.val)) =
               (s.dev.get (CRLB_WR_WR (48 + c.val)) + recWords (2 * f.width)) % (2 * s.dev.bobSize (48 + c.val))
           ∧ sameOutside ramDefault (s.dev.bobBase (48 + c.val)) (32 * s.dev.bobSize (48 + c.val)) s.dev.creel d.creel
           ∧ Dev.withEvent [CRLB_WR (48 + c.val), CRLB_FILL (48 + c.val), CRLB_STATUS (48 + c.val), CRL_EVT_BOBBIN]
               { s.dev with isp := d.isp, creel := d.creel } d)
    ∧ (s.dev.runs 3 = true → s.dev.isp.line = some (c.val, f.no) →
       (((s.dev.cam c).frames.find? fun x => x.no == f.no) = some f) → s.dev.on ISP_CTRL_ENABLE = false →
       linePieces f.width = [k] → s.dev.bobEn (48 + c.val) = true → k ≤ s.dev.bobFill (48 + c.val) →
         ∃ d, exec (.pipelineLineDone tau) s = .next { s with dev := d } ∧ d.isp.line = none
           ∧ (d.cam c).frames = (s.dev.cam c).frames.map (fun x => if x.no = f.no
               then { f with taken := f.taken + 1, admitted := f.admitted && decide (f.taken + 1 < f.height) } else x)
           ∧ d.get (CRLB_RD_RD (48 + c.val)) = (s.dev.get (CRLB_RD_RD (48 + c.val)) + k) % (2 * s.dev.bobSize (48 + c.val))
           ∧ Dev.withEvent ([CRLB_RD (48 + c.val), CRLB_FILL (48 + c.val), CRLB_STATUS (48 + c.val), CRL_EVT_BOBBIN, ISP_STATUS]
               ++ (List.range 4).map ISPC_STATUS) { s.dev with isp := d.isp } d)
    ∧ (s.dev.runs 3 = true →
       (((s.dev.cam c).frames.find? fun x => x.taken == x.height && 0 < x.height) = some f) → f.slot = some k →
       f.src = 0 → s.dev.exportOf c f = 0 → s.dev.get TRD_STATE_STATE ≠ 6 →
       (s.dev.pixelCfg c f).output f.lines = (pix, stats) → s.dev.inDram (s.dev.ringAddr c f k) 32 = true →
       s.dev.inDram (s.dev.ringAddr c f k + 32) pix.length = true →
       s.dev.inDram (s.dev.ringAddr c f k + 32 + f.pixRoom) ((camHeader c f qGood 0).length + stats.length) = true →
         ∃ d, exec (.frameDelivered c tau) s = .next { s with dev := d }
           ∧ d.dram = storeBytes ramDefault (storeBytes ramDefault (storeBytes ramDefault s.dev.dram (s.dev.ringAddr c f k)
               (camHeader c f qGood 0)) (s.dev.ringAddr c f k + 32) pix) (s.dev.ringAddr c f k + 32 + f.pixRoom)
               (camHeader c f qGood 0 ++ stats)
           ∧ d.reg (ISPC_FRAMES c) = min (s.dev.reg (ISPC_FRAMES c) + 1) 0xFFFFFFFF
           ∧ (d.cam c).latest = some ⟨k, f.width, f.height, f.format, s.dev.reg TAP_FRAME_NO⟩
           ∧ (d.cam c).frames = (s.dev.cam c).frames.filter (fun x => x.no ≠ f.no)
           ∧ Dev.regsOnly [ISPC_FRAMES c, ISPC_EXP_TAG c] { s.dev with isp := d.isp, dram := d.dram, drc := d.drc } d)

/-- While FAB runs and no reaction waits: when a clear completes, both buffers hold 0, CLEARING falls and MAP_READY
rises; when map time reaches 2^44 - 1, MAP_READY falls and MAP_TIME_END is set. FREEZE, or a freeze cause once its
POST frames are written, freezes an enabled archive with its flag; READ of a frozen ring that holds records starts
the export; RESUME unfreezes the ring and clears READ. Where the rules admit more than one reading it states the
model's (log entry 43). (R229, R230, R239, R240) -/
def Obligations.MapAndArchive : Prop :=
  ∀ (n : Station) (s : State), s.dev.runs domFab = true → s.dev.calm →
    (s.dev.on MPL_STATUS_CLEARING = true →
         exec .mapClearDone s =
           .next { s with dev :=
             ((((s.dev.zeroDram (s.dev.mapBase 0) (s.dev.mapW * s.dev.mapH * 8)).zeroDram (s.dev.mapBase 1)
                 (s.dev.mapW * s.dev.mapH * 8)).put MPL_STATUS_CLEARING 0).put MPL_STATUS_MAP_READY 1) })
    ∧ (s.dev.mapTime = 2 ^ 44 - 1 →
         ∃ d, exec .mapTimeEnd s = .next { s with dev := d } ∧ d.on MPL_STATUS_MAP_READY = false
           ∧ d.on MPL_FLAGS_MAP_TIME_END = true ∧ Dev.withEvent [MPL_STATUS, MPL_FLAGS] s.dev d)
    ∧ (s.dev.on (MPLS_STATUS_FROZEN n) = false → s.dev.on (MPLS_CTRL_ARCH_EN n) = true →
         ∃ d, exec (.archFreezeCmd n) s = .next { s with dev := d } ∧ d.on (MPLS_STATUS_FROZEN n) = true
           ∧ d.on (MPLS_FLAGS_ARCH_FROZE n) = true ∧ Dev.withFault [MPLS_STATUS n, MPLS_FLAGS n] s.dev d
           ∧ ((s.dev.mst n).archPost = some 0 → exec (.archFreeze n) s = .next { s with dev := d }))
    ∧ (s.dev.on (MPLS_STATUS_FROZEN n) = true → s.dev.on (MPLS_STATUS_EXPORTING n) = false →
       0 < s.dev.reg (MPLS_ARCH_HELD n) → s.dev.archRoom n ≠ 0 →
         ∃ d, exec (.archReadCmd n) s = .next { s with dev := d } ∧ d.on (MPLS_ARCH_CTRL_READ n) = true
           ∧ d.on (MPLS_STATUS_EXPORTING n) = true
           ∧ Dev.regsOnly [MPLS_ARCH_CTRL n, MPLS_STATUS n] { s.dev with chain := d.chain } d)
    ∧ (exec (.archResumeCmd n) s =
         .next { s with dev := { (s.dev.put (MPLS_STATUS_FROZEN n) 0).put (MPLS_ARCH_CTRL_READ n) 0 with
           mpl := { s.dev.mpl with st := vmod s.dev.mpl.st n fun (m : MeltStation) => { m with archPost := none } } } })

/-- While FAB runs, no reaction waits and the descriptor bobbin and ring of the station are configured and empty: an
incomplete frame that is kept yields its descriptor, which goes through bobbin 32 + n to the next slot of the ring
in DRAM and is counted; a last frame that does not come within 60 us of the final laser-off edge is counted as bad,
flagged, and yields the same descriptor. Where the rules admit more than one reading it states the model's (log
entry 43). (R224, R225, R226, R227, R228) -/
def Obligations.FrameDescriptors : Prop :=
  ∀ (n : Station) (a b no k : Nat) (f : CoaxFrame) (rest : List CoaxFrame) (s : State),
    s.dev.runs domFab = true → s.dev.calm →
    a = s.dev.reg MPL_DESC_BASE % 65536 * 1048576 + 32 * (s.dev.mpl.descNext % (s.dev.reg MPL_DESC_SIZE % 65536 * 1048576 / 32)) →
    s.dev.reg MPL_DESC_SIZE % 65536 ≠ 0 → s.dev.on MPL_CTRL_DESC_EXPORT = false → s.dev.inDram a 32 = true →
    b = 32 + n.val → s.dev.bobEn b = true → s.dev.bobFill b = 0 → 0 < s.dev.bobSize b →
    s.dev.get (CRLB_WR_WR b) < 2 * s.dev.bobSize b → s.dev.get (CRLB_RD_RD b) < 2 * s.dev.bobSize b →
    ((s.dev.mst n).done = f :: rest → f.complete = false → s.dev.on (MPLS_CTRL_EN n) = true →
       s.dev.on (MPLS_CTRL_COAX_EN n) = true → s.dev.on (MPLS_CTRL_ALL_FRAMES n) = true →
         ∃ d, exec (.descriptorWritten n) s = .next { s with dev := d } ∧ (d.mst n).done = rest
           ∧ d.reg (MPLS_DESC_CNT n) = min (s.dev.reg (MPLS_DESC_CNT n) + 1) 0xFFFFFFFF
           ∧ d.dramBytes a 32 = wordsBytes (descIncomplete n f.trig s.dev)
           ∧ sameOutside ramDefault a 32 s.dev.dram d.dram
           ∧ sameOutside ramDefault (s.dev.bobBase b) (32 * s.dev.bobSize b) s.dev.creel d.creel
           ∧ (∀ k, k ≠ n → d.mst k = s.dev.mst k)
           ∧ Dev.withEvent [MPLS_DESC_CNT n, MPL_DESC_FILL, CRLB_WR b, CRLB_RD b, CRLB_FILL b, CRLB_STATUS b, CRL_EVT_BOBBIN]
               { s.dev with mpl := d.mpl, dram := d.dram, creel := d.creel, drc := d.drc } d)
    ∧ ((s.dev.mst n).awaiting = some no → (s.dev.mst n).lastOff = some k → k + 120 ≤ s.dev.t0.tick →
         ∃ d, exec (.lastDescriptorTimeout n) s = .next { s with dev := d } ∧ (d.mst n).awaiting = none
           ∧ d.reg (MPLS_FRAMES_BAD n) = min (s.dev.reg (MPLS_FRAMES_BAD n) + 1) 0xFFFFFFFF ∧ d.on (MPLS_FLAGS_FRAME_BAD n) = true
           ∧ d.reg (MPLS_DESC_CNT n) = min (s.dev.reg (MPLS_DESC_CNT n) + 1) 0xFFFFFFFF
           ∧ d.dramBytes a 32 = wordsBytes (descIncomplete n ((s.dev.trigOf n no).getD ⟨no, 0, 0, 0⟩) s.dev)
           ∧ sameOutside ramDefault a 32 s.dev.dram d.dram
           ∧ sameOutside ramDefault (s.dev.bobBase b) (32 * s.dev.bobSize b) s.dev.creel d.creel
           ∧ (∀ k, k ≠ n → d.mst k = s.dev.mst k)
           ∧ Dev.withFault [MPLS_DESC_CNT n, MPL_DESC_FILL, CRLB_WR b, CRLB_RD b, CRLB_FILL b, CRLB_STATUS b, CRL_EVT_BOBBIN, MPLS_FRAMES_BAD n,
               MPLS_FLAGS n]
               { s.dev with mpl := d.mpl, dram := d.dram, creel := d.creel, drc := d.drc } d)

/-- While FAB runs and no reaction waits: a pass starts on the VALID slot of the lowest layer number, which becomes
ALLOCATING, with its counters at 0; when it completes and the slot has room, the slot becomes ALLOCATED with E112,
its streams are the allocated and own lists, and the counters show the result; a re-allocation pass that completes
ends with E114. The work of retired stations of the active layer starts a re-allocation pass with E113, and their
streams end; a hold that exceeds SHD_MON_MAXHOLD raises PLUME_STARVE once; MON_EN = 0 releases every held station,
with E119. Where the rules admit more than one reading it states the model's (log entries 35, 36 and 37). (R67, R96,
R98, R112, R120, R125, R126, R129, R114, R116, R118, R131) -/
def Obligations.ShedCommands : Prop :=
  ∀ (i : Slot) (ps : ShedPass) (a : ShedAcc) (moved : Nat) (skipped : Nat) (n : Station) (placed : Nat) (s : State),
    s.dev.runs domFab = true → s.dev.calm →
    (s.dev.shd.pass = none → s.dev.shedNext = some i → s.dev.shadow = [] →
       (vat s.dev.trd.slots i).selv.length ≤ 4194304 →
         ∃ d, exec .shedPassStart s = .next { s with dev := d } ∧ d.slotState i = 3 ∧ d.get SHD_STATUS_PASS = 1
           ∧ d.get SHD_STATUS_SLOT = i.val ∧ (∃ p, d.shd.pass = some p ∧ p.again = false ∧ p.slot = i ∧ p.excluded = s.dev.excludedMask)
           ∧ d.reg SHD_PICKS_DONE = 0 ∧ d.reg SHD_WAITS = 0 ∧ d.reg SHD_UNRESOLVED = 0 ∧ d.reg SHD_SEAMS = 0
           ∧ Dev.regsOnly [slotStatus i, SHD_STATUS, SHD_PICKS_DONE, SHD_WAITS, SHD_UNRESOLVED, SHD_SEAMS, SHD_SEAM_SKIP]
               { s.dev with shd := d.shd } d)
    ∧ (s.dev.shd.pass = some ps → ps.again = false → passResult s.dev ps = (a, moved, skipped) →
       s.dev.slotState ps.slot = 3 → (vat s.dev.flt.recovery 18).any (·.code == 0x11) = false →
       (divUp (leAt (vat s.dev.trd.slots ps.slot).header 0x2C 4) 4096 * 4096 + ((List.finRange 16).map fun n => 32 * (vat a.out n).length).sum ≤ s.dev.reg TRD_SLOT_SIZE % 4096 * 1048576) →
         ∃ d, exec .allocDone s = .next { s with dev := d } ∧ d.slotState ps.slot = 4 ∧ d.pends 112 ∧ d.shd.pass = none
           ∧ d.get SHD_STATUS_PASS = 0 ∧ d.reg SHD_PICKS_DONE = a.next % 2 ^ 32 ∧ d.reg SHD_SEAMS = moved % 2 ^ 32
           ∧ (∀ n : Station, vat (vat d.trd.slots ps.slot).stream n = streamOf (s.dev.on SHD_CTRL_SEL_ORDER)
               (vat (vat s.dev.trd.slots ps.slot).own n) (a.list n))
           ∧ Dev.withFault ([SHD_PICKS_DONE, SHD_WAITS, SHD_UNRESOLVED, SHD_SEAMS, SHD_SEAM_SKIP, SHD_STATUS, SHD_FLAGS, SHD_ORPHANS,
               TRD_ORPHANS, slotStatus ps.slot] ++ (List.range 16).map SHD_EST) { s.dev with trd := d.trd, shd := d.shd } d)
    ∧ (s.dev.shd.pass = some ps → ps.again = true → passResult s.dev ps = (a, moved, skipped) →
         ∃ d, exec .reallocDone s = .next { s with dev := d } ∧ d.shd.pass = none ∧ d.get SHD_STATUS_PASS = 0 ∧ d.pends 114
           ∧ d.reg SHD_PICKS_DONE = a.next % 2 ^ 32 ∧ d.reg SHD_SEAMS = moved % 2 ^ 32
           ∧ Dev.frame [.trd, .shd, .creel, .crl, .ev, .wal, .flt, .dof, .mpl] [2, 3, 7, 18, 20] s.dev d)
    ∧ (s.dev.shd.request ≠ 0 → s.dev.layerActive = true → s.dev.shd.pass = none → s.dev.shadow = [] →
         ∃ d, exec (.reallocStart placed) s = .next { s with dev := d } ∧ d.shd.request = 0 ∧ d.get SHD_STATUS_PASS = 2 ∧ d.pends 113
           ∧ d.get SHD_STATUS_SLOT = s.dev.activeSlot.val
           ∧ (∃ p, d.shd.pass = some p ∧ p.again = true ∧ p.slot = s.dev.activeSlot)
           ∧ (bit s.dev.shd.request n.val = true → (d.shtl n).queue = [] ∧ (d.shtl n).plan = [] ∧ (d.shtl n).sawEnd = true)
           ∧ (bit s.dev.shd.request n.val = false → d.shtl n = s.dev.shtl n)
           ∧ Dev.withEvent [SHD_STATUS, SHD_PICKS_DONE, SHD_WAITS, SHD_UNRESOLVED, SHD_SEAMS, SHD_SEAM_SKIP, SHD_SKIPPED]
               { s.dev with trd := d.trd, sht := d.sht, shd := d.shd } d)
    ∧ ((s.dev.shtl n).held = true → vat s.dev.shd.starved n = false →
       vat s.dev.shd.since n + s.dev.reg SHD_MON_MAXHOLD * 1000 < s.dev.t0.nanos →
         ∃ d, exec (.plumeStarve n) s = .next { s with dev := d } ∧ d.on SHD_FLAGS_STARVE = true ∧ d.pends 120
           ∧ d.shd = { s.dev.shd with starved := vput s.dev.shd.starved n true }
           ∧ Dev.withFault [SHD_FLAGS] { s.dev with shd := d.shd } d)
    ∧ ((∀ k : Station, (s.dev.shtl k).held = false) →
         exec .monitorDisable s = .next { s with dev := s.dev.put SHD_MON_CTRL_MON_EN 0 })
    ∧ ((s.dev.shtl n).held = true →
         ∃ d, exec .monitorDisable s = .next { s with dev := d } ∧ d.on SHD_MON_CTRL_MON_EN = false ∧ d.pends 119
           ∧ (∀ k : Station, (d.shtl k).held = false) ∧ d.reg SHD_MON_HELD = 0
           ∧ Dev.withEvent [SHD_MON_CTRL, SHD_MON_HELD] { s.dev with sht := d.sht } d)

/-- While FAB runs and no reaction waits: a missed deadline counts, sets DEADLINE and holds what was late; with the
limiter at rest at the first point in SCAN the path starts; a station that has taken END_OF_LIST and stands at the
end of its plan with emission over completes and parks; an interrupted station at rest, not held, with its link in
RUN, takes the plan of the re-pick, counted in REPICKS, with the re-exposed length added to REEXPOSED. No other
station changes. Where the rules admit more than one reading it states the model's (log entries 38 and 40). (R34,
R137, R165, R166, R571, R684) -/
def Obligations.ShuttlePlanCommands : Prop :=
  ∀ (n : Station) (edges : Bool) (s : State), s.dev.runs domFab = true → s.dev.calm →
    (s.dev.shuttlesRun = true →
         ∃ d, exec (.shtDeadline n edges) s = .next { s with dev := d } ∧ d.on (SHT_FLAGS_DEADLINE n) = true
           ∧ d.reg (SHT_DEADLINES n) = min (s.dev.reg (SHT_DEADLINES n) + 1) 0xFFFFFFFF
           ∧ d.sht = (vmod s.dev.sht n fun (x : Shuttle) =>
               { x with holdSet := x.holdSet || !edges, holdEdges := x.holdEdges || edges, missed := true })
           ∧ Dev.withFault [SHT_DEADLINES n, SHT_FLAGS n] { s.dev with sht := d.sht } d)
    ∧ (s.dev.trdState = 5 → (s.dev.shtl n).started = false → (s.dev.shtl n).parking = false →
       s.dev.isRetired n.val = false → (s.dev.shtl n).plan ≠ [] → s.dev.limAtRest n = true →
       s.dev.schedTick % 4 = 0 →
         exec (.pathStart n) s =
           .next { s with dev := { s.dev with sht := (vmod s.dev.sht n fun (x : Shuttle) => { x with started := true }) } })
    ∧ (s.dev.shuttlesRun = true → s.dev.isRetired n.val = false → (s.dev.shtl n).sawEnd = true →
       (s.dev.shtl n).plan = [] → (s.dev.shtl n).intr = none → (s.dev.shtl n).complete = false →
       (s.dev.shtl n).started = true → s.dev.edgesDone n = true →
         ∃ d, exec (.stationComplete n) s = .next { s with dev := d } ∧ d.get (SHT_STATUS_QDEPTH n) = 0
           ∧ d.sht = (vmod s.dev.sht n fun (x : Shuttle) => { x with complete := true, parking := true, queue := [] })
           ∧ Dev.regsOnly [SHT_STATUS n] { s.dev with sht := d.sht, mpl := d.mpl } d)
    ∧ (s.dev.trdState = 5 → s.dev.onPath n = true → (s.dev.shtl n).stopping = true → (s.dev.shtl n).v = 0 →
       (s.dev.shtl n).a = 0 → (s.dev.shtl n).ramp = none → (s.dev.shtl n).easing = none →
       (s.dev.shtl n).held = false → s.dev.reg (LNK_WSTATE n) % 8 = 4 → (s.dev.shtl n).intr.isSome = true →
         ∃ d, exec (.repick n) s = .next { s with dev := d }
           ∧ (d.shtl n).plan = (repickPlan (s.dev.pathCfg n) (s.dev.reg (SHT_REPICK_BACK n)) (s.dev.shtl n)).1.plan
           ∧ (d.shtl n).stopping = false ∧ (d.shtl n).blank = false ∧ (d.shtl n).intr = none
           ∧ d.reg (SHT_REPICKS n) = min (s.dev.reg (SHT_REPICKS n) + 1) 0xFFFFFFFF
           ∧ d.reg (SHT_REEXPOSED n) = min (s.dev.reg (SHT_REEXPOSED n)
               + (repickPlan (s.dev.pathCfg n) (s.dev.reg (SHT_REPICK_BACK n)) (s.dev.shtl n)).2.1) 0xFFFFFFFF
           ∧ (∀ k : Station, k ≠ n → d.shtl k = s.dev.shtl k)
           ∧ Dev.regsOnly [SHT_REPICKS n, SHT_REEXPOSED n, SHT_SKIPPED n] { s.dev with sht := d.sht } d)

/-- While FAB runs and no reaction waits, with room in the queue and a record in the enabled bobbin of a station that
runs: PICK_FETCH takes one record. END_OF_LIST ends the station; a point inside the grid is admitted and the queue
shows its new depth. An empty bobbin before the end is an underrun, counted. No other station changes. Where the
rules admit more than one reading it states the model's (log entries 33 and 38). (R134, R135, R136, R412) -/
def Obligations.PickFetches : Prop :=
  ∀ (n : Station) (k : Pick) (s : State), s.dev.runs domFab = true → s.dev.calm → s.dev.shuttlesRun = true →
    s.dev.isRetired n.val = false → (s.dev.shtl n).sawEnd = false →
    (s.dev.shtl n).queue.length < s.dev.lookDepth n → s.dev.stream n = [] → s.dev.bobEn n.val = true →
    (1 ≤ s.dev.bobFill n.val → (bytesWords (s.dev.bobPeek n.val 1)).headD 0 % 16 = 0 →
         ∃ d, exec (.pickFetch n) s = .next { s with dev := d }
           ∧ d.sht = (vmod s.dev.sht n fun (x : Shuttle) => { x with taken := x.taken + 1, sawEnd := true })
           ∧ d.get (CRLB_RD_RD n.val) = (s.dev.get (CRLB_RD_RD n.val) + 1) % (2 * s.dev.bobSize n.val)
           ∧ Dev.withEvent [CRLB_RD n.val, CRLB_FILL n.val, CRLB_STATUS n.val, CRL_EVT_BOBBIN] { s.dev with sht := d.sht } d)
    ∧ (1 ≤ s.dev.bobFill n.val →
       (k = Pick.ofWords (s.dev.shtl n).taken (if k.typ = 3 ∨ k.typ = 4 then sx 32 ((bytesWords (s.dev.bobPeek n.val 1)).getD 7 0) else (s.dev.shtl n).zNext) (bytesWords (s.dev.bobPeek n.val 1))) →
       k.typ ≠ 0 → k.isLine = false →
       ((k.typ == 3 || (s.dev.pathCfg n).inGrid k.x1 k.y1) && (s.dev.pathCfg n).inGrid k.x2 k.y2) = true →
         ∃ d, exec (.pickFetch n) s = .next { s with dev := d } ∧ (d.shtl n).queue = (s.dev.shtl n).queue ++ [k]
           ∧ (d.shtl n).taken = (s.dev.shtl n).taken + 1 ∧ d.on (SHT_STATUS_STARVED n) = false
           ∧ d.get (SHT_STATUS_QDEPTH n) = ((s.dev.shtl n).queue.length + 1) % 128
           ∧ (∀ j : Station, j ≠ n → d.shtl j = s.dev.shtl j)
           ∧ Dev.withEvent [CRLB_RD n.val, CRLB_FILL n.val, CRLB_STATUS n.val, CRL_EVT_BOBBIN, SHT_STATUS n] { s.dev with sht := d.sht } d)
    ∧ (s.dev.bobFill n.val = 0 → s.dev.endWithheld n = false →
         ∃ d, exec (.pickFetch n) s = .next { s with dev := d } ∧ d.on (CRLB_STATUS_UNF n.val) = true
           ∧ d.reg (CRLB_UNF n.val) = min (s.dev.reg (CRLB_UNF n.val) + 1) 0xFFFFFFFF ∧ d.sht = s.dev.sht
           ∧ Dev.withEvent [CRLB_UNF n.val, CRLB_STATUS n.val, CRL_EVT_BOBBIN, CRL_FLAGS] s.dev d)

/-- While FAB runs and no reaction waits, on a station that is not retired: an overrun count of 3 is fault REED_OVERRUN;
three INVALID encoder measurements in alignment are ENC_LOST; a following-error count above FE_TIME sets FE and is
FOLLOW_ERR; a power deviation above FE_TIME counts in MELT_DEVS, sets FE and is MELT_DEV, once in a pick; SENS_HOLD
ticks without a GOOD sample set SENSOR and are PYRO_LOST. While FAB runs and no reaction waits: a loop that uses its
external value loses it when no rising edge came for TIMEOUT µs: x_ext is held, EXT_LOST is set and the fault is
raised, once. While MCH runs and no reaction waits, a rising edge is the newest measurement of its GPIO and ends
EXT_LOST of the loops that use it; no register changes. Where the rules admit more than one reading it states the
model's (log entry 41). (R180, R190, R192, R193, R195, R185) -/
def Obligations.LoopFaultsAndSetPoints : Prop :=
  ∀ (e : Fin 3) (n : Station) (g : Fin 16) (period : Nat) (high : Nat) (s : State), s.dev.calm →
    (s.dev.runs domFab = true → s.dev.isRetired n.val = false →
       bits (s.dev.reg (REED_POS_STATUS e n)) 17 16 = 3 →
         ∃ d, exec (.reedOverrun e.castSucc n) s = .next { s with dev := d } ∧ s.dev.detects 0x48 n d
           ∧ Dev.withFault [] s.dev d)
    ∧ (s.dev.runs domFab = true → s.dev.isRetired n.val = false →
       bits (s.dev.reg (REED_PWR_STATUS n)) 17 16 = 3 →
         ∃ d, exec (.reedOverrun 3 n) s = .next { s with dev := d } ∧ s.dev.detects 0x48 n d
           ∧ Dev.withFault [] s.dev d)
    ∧ (s.dev.runs domFab = true → s.dev.isRetired n.val = false → 3 ≤ (s.dev.loop (.pos e n)).bad →
       s.dev.aligned n = true →
         ∃ d, exec (.encLost e n) s = .next { s with dev := d } ∧ s.dev.detects 0x49 n d ∧ Dev.withFault [] s.dev d)
    ∧ (s.dev.runs domFab = true → s.dev.isRetired n.val = false →
       s.dev.reg (REED_POS_FE_TIME e n) % 65536 < (s.dev.loop (.pos e n)).fe →
         ∃ d, exec (.followErr e n) s = .next { s with dev := d } ∧ s.dev.detects 0x4A n d
           ∧ d.on (REED_POS_FLAGS_FE e n) = true ∧ Dev.withFault [REED_POS_FLAGS e n] s.dev d)
    ∧ (s.dev.runs domFab = true → s.dev.isRetired n.val = false →
       s.dev.reg (REED_PWR_FE_TIME n) % 65536 < (s.dev.loop (.pwr n)).fe →
       (s.dev.loop (.pwr n)).feRaised = false →
         ∃ d, exec (.meltDev n) s = .next { s with dev := d } ∧ s.dev.detects 0x4D n d ∧ d.on (REED_PWR_FLAGS_FE n) = true
           ∧ d.reg (REED_PWR_MELT_DEVS n) = min (s.dev.reg (REED_PWR_MELT_DEVS n) + 1) 0xFFFFFFFF
           ∧ (d.loop (.pwr n)).feRaised = true
           ∧ Dev.withFault [REED_PWR_FLAGS n, REED_PWR_MELT_DEVS n] { s.dev with reed := d.reed } d)
    ∧ (s.dev.runs domFab = true → s.dev.isRetired n.val = false →
       s.dev.reg (REED_PWR_SENS_HOLD n) % 65536 ≤ (s.dev.loop (.pwr n)).bad → 0 < (s.dev.loop (.pwr n)).bad →
       (s.dev.loop (.pwr n)).lostRaised = false →
         ∃ d, exec (.pyroLost n) s = .next { s with dev := d } ∧ s.dev.detects 0x4C n d ∧ d.on (REED_PWR_FLAGS_SENSOR n) = true
           ∧ (d.loop (.pwr n)).lostRaised = true ∧ Dev.withFault [REED_PWR_FLAGS n] { s.dev with reed := d.reed } d)
    ∧ (s.dev.runs domFab = true → s.dev.usesExt (.pos e n) = true → (s.dev.loop (.pos e n)).extLost = false →
       (gpioAt s.dev (s.dev.reg (REED_POS_EXT_CFG e n) % 16)).lastEdge + s.dev.reg (REED_POS_EXT_CFG e n) / 65536 * 1000 < s.dev.t0.nanos →
         ∃ d, exec (.extLost e.castSucc n) s = .next { s with dev := d } ∧ s.dev.detects 0x4E n d
           ∧ d.on (REED_POS_FLAGS_EXT_LOST e n) = true
           ∧ d.loop (.pos e n) = { s.dev.loop (.pos e n) with extLost := true, xExt := s.dev.extValue (.pos e n) }
           ∧ (∀ m : Station, ∀ k : Fin 3, (k, m) ≠ (e, n) → d.loop (.pos k m) = s.dev.loop (.pos k m))
           ∧ Dev.withFault [REED_POS_FLAGS e n] { s.dev with reed := d.reed } d)
    ∧ (s.dev.runs domFab = true → s.dev.usesExt (.pwr n) = true → (s.dev.loop (.pwr n)).extLost = false →
       (gpioAt s.dev (s.dev.reg (REED_PWR_EXT_CFG n) % 16)).lastEdge + s.dev.reg (REED_PWR_EXT_CFG n) / 65536 * 1000 < s.dev.t0.nanos →
         ∃ d, exec (.extLost 3 n) s = .next { s with dev := d } ∧ s.dev.detects 0x4E n d
           ∧ d.on (REED_PWR_FLAGS_EXT_LOST n) = true
           ∧ d.loop (.pwr n) = { s.dev.loop (.pwr n) with extLost := true, xExt := s.dev.extValue (.pwr n) }
           ∧ (∀ m : Station, m ≠ n → d.loop (.pwr m) = s.dev.loop (.pwr m))
           ∧ Dev.withFault [REED_PWR_FLAGS n] { s.dev with reed := d.reed } d)
    ∧ (s.dev.runs domMch = true →
         ∃ d, exec (.gpioEdge g period high) s = .next { s with dev := d } ∧ (gpioAt d g.val).measure = some (period, high)
           ∧ (gpioAt d g.val).lastEdge = s.dev.t0.nanos
           ∧ (s.dev.reg (REED_POS_EXT_CFG e n) % 16 = g.val → (d.loop (.pos e n)).extLost = false)
           ∧ (s.dev.reg (REED_PWR_EXT_CFG n) % 16 = g.val → (d.loop (.pwr n)).extLost = false)
           ∧ (∀ k : Fin 16, k ≠ g → gpioAt d k.val = gpioAt s.dev k.val)
           ∧ d = { s.dev with reed := d.reed })

/-- While FAB runs and no reaction waits: LNK_n_SVC_CMD while not BUSY sets BUSY and puts a read or a write of the
address and the data registers in wait; a host request unanswered for 8 ticks ends with RESULT 0, not BUSY, the read
data as it was. Where the rules admit more than one reading it states the model's (log entry 44). (R267, R278) -/
def Obligations.ServiceCommands : Prop :=
  ∀ (n : Station) (r : SvcReq) (s : State), s.dev.runs domFab = true → s.dev.calm →
    (s.dev.on (LNK_SVC_STAT_BUSY n) = false →
         ∃ d, exec (.svcRead n) s = .next { s with dev := d } ∧ d.on (LNK_SVC_STAT_BUSY n) = true
           ∧ (d.link n).hostReq = some ⟨0, 1, s.dev.reg (LNK_SVC_ADDR n) % 65536, s.dev.reg (LNK_SVC_WDATA n), false, 0⟩
           ∧ (∀ k : Station, k ≠ n → d.link k = s.dev.link k) ∧ Dev.regsOnly [LNK_SVC_STAT n] { s.dev with lnk := d.lnk } d)
    ∧ (s.dev.on (LNK_SVC_STAT_BUSY n) = false →
         ∃ d, exec (.svcWrite n) s = .next { s with dev := d } ∧ d.on (LNK_SVC_STAT_BUSY n) = true
           ∧ (d.link n).hostReq = some ⟨0, 2, s.dev.reg (LNK_SVC_ADDR n) % 65536, s.dev.reg (LNK_SVC_WDATA n), false, 0⟩
           ∧ (∀ k : Station, k ≠ n → d.link k = s.dev.link k) ∧ Dev.regsOnly [LNK_SVC_STAT n] { s.dev with lnk := d.lnk } d)
    ∧ (s.dev.on (LNK_SVC_STAT_BUSY n) = true →
         exec (.svcRead n) s = .next s ∧ exec (.svcWrite n) s = .next s)
    ∧ ((s.dev.link n).svc = some r → r.own = false → r.tick + 8 ≤ s.dev.t0.tick →
         exec (.serviceTimeout n) s =
           .next { s with dev := { (s.dev.setReg (LNK_SVC_STAT n) 0) with
             lnk := (vmod s.dev.lnk n fun (x : Link) => { x with svc := none }) } })

/-- While FAB runs and no reaction waits: a slot in alignment that passes both checks, and reports no condition, shows
its status byte, takes its DOWN_ERR as the reference and ends the row of bad slots; one that is not good counts in
BAD_UP and sets BAD_SLOT. A good MARKER in LOCKED starts the measurement of the delay; in MEASURE it adds one
exchange, and the RTT of R261 is shown. No other link changes. Where the rules admit more than one reading it states
the model's (log entry 44). (R250, R256, R261, R265, R271) -/
def Obligations.UplinkSlots : Prop :=
  ∀ (n : Station) (header body : List Byte) (w : List Word) (t4 k t1 : Nat) (s : State),
    s.dev.runs domFab = true → s.dev.calm →
    (s.dev.on (LNK_WSTATE_ALIGNED n) = true → header.length = 7 → w.length = 148 →
       (header.getD 0 0).toNat = codeOf s.dev.t0.tick →
       crc32c (header ++ wordsBytes ((w.take 7).map BitVec.toNat)) = (w.getD 7 0).toNat →
       crc32c (header ++ wordsBytes ((w.take 147).map BitVec.toNat)) = (w.getD 147 0).toNat →
       bits (header.getD 1 0).toNat 6 3 = 0 → bit (w.getD 8 0).toNat 27 = false → (s.dev.link n).svc = none →
         ∃ d, exec (.uplinkSlot n header w true true true) s = .next { s with dev := d }
           ∧ bits (d.reg (LNK_WSTATE n)) 15 8 = (header.getD 1 0).toNat
           ∧ d.link n = { s.dev.link n with gotSlot := true, downErr := (header.getD 2 0).toNat, badSlots := 0 }
           ∧ ((s.dev.link n).downErr < 256 → d.reg (LNK_BAD_DOWN n) =
               min (s.dev.reg (LNK_BAD_DOWN n) + ((header.getD 2 0).toNat + 256 - (s.dev.link n).downErr) % 256) 0xFFFFFFFF)
           ∧ (∀ j : Station, j ≠ n → d.link j = s.dev.link j)
           ∧ Dev.frame [.creel, .dof, .ev, .flt, .free, .lnk, .mpl, .trm, .wal] [2, 5, 9, 11, 16, 18] s.dev d)
    ∧ (s.dev.on (LNK_WSTATE_ALIGNED n) = true → header.length = 7 → w.length = 148 →
       (s.dev.link n).badSlots = 0 → (w.getD 8 0).toNat < 2 ^ 27 →
         ∃ d, exec (.uplinkSlot n header w false false false) s = .next { s with dev := d }
           ∧ d.on (LNK_WFLAGS_BAD_SLOT n) = true ∧ d.reg (LNK_BAD_UP n) = min (s.dev.reg (LNK_BAD_UP n) + 1) 0xFFFFFFFF
           ∧ d.link n = { s.dev.link n with gotSlot := true, badSlots := 1 }
           ∧ Dev.frame [.creel, .dof, .ev, .flt, .free, .lnk, .mpl, .trm, .wal] [2, 5, 9, 11, 16, 18] s.dev d)
    ∧ (s.dev.linkState n = 1 → body.length = 7 → (body.getD 0 0).toNat = 0x5A →
       (body.getD 1 0).toNat = codeOf s.dev.t0.tick →
         ∃ d, exec (.uplinkMarker n body true t4) s = .next { s with dev := d } ∧ d.linkState n = 2
           ∧ d.on (LNK_WSTATE_ALIGNED n) = false
           ∧ d.link n = { s.dev.link n with gotMark := true, badMarks := 0, rtts := [], rejected := 0 }
           ∧ (∀ j : Station, j ≠ n → d.link j = s.dev.link j) ∧ Dev.regsOnly [LNK_WSTATE n] { s.dev with lnk := d.lnk } d)
    ∧ (s.dev.linkState n = 2 → body.length = 7 → (body.getD 0 0).toNat = 0x5A →
       (body.getD 1 0).toNat = codeOf s.dev.t0.tick →
       (s.dev.link n).sent.find? (·.1 == (body.getD 4 0).toNat) = some (k, t1) →
       (s.dev.link n).rtts.length < 63 →
         ∃ d, exec (.uplinkMarker n body true t4) s = .next { s with dev := d } ∧ d.linkState n = 2
           ∧ d.reg (LNK_RTT n) = wrapN 16 (((s.dev.t0.tick * 500 * 16 + t4 : Nat) : Int) - (t1 : Nat)
               - ((body.getD 2 0).toNat + (body.getD 3 0).toNat * 256 : Nat))
           ∧ d.link n = { s.dev.link n with gotMark := true, badMarks := 0, rtts := (s.dev.link n).rtts
               ++ [((s.dev.t0.tick * 500 * 16 + t4 : Nat) : Int) - (t1 : Nat) - ((body.getD 2 0).toNat + (body.getD 3 0).toNat * 256 : Nat)] }
           ∧ (∀ j : Station, j ≠ n → d.link j = s.dev.link j) ∧ Dev.regsOnly [LNK_RTT n] { s.dev with lnk := d.lnk } d)

/-- While FAB runs and no reaction waits: DARK and GAIN start a measurement with the settings in force; ABORT ends it
with RESULT ABORTED, E227 and fault TRIM_FAIL, and a timeout with TIMEOUT; APPLY slews the two candidates into
force; a dark measurement with its ticks and a small spread, and a gain measurement with its samples in range, end
DONE with their candidate, its slew, and E224 or E225. No other station changes. Where the rules admit more than one
reading it states the model's (log entry 43). (R532, R534, R536, R537, R541, R542, R543, R546, R547) -/
def Obligations.PyrometerMeasurements : Prop :=
  ∀ (n : Station) (m : TrimMeas) (s : State), s.dev.runs domFab = true → s.dev.calm →
    ((s.dev.trim n).meas = none →
         ∃ d, exec (.trimDark n) s = .next { s with dev := d }
           ∧ d.trim n = { s.dev.trim n with meas := some (s.dev.trimMeas n false) } ∧ d.get (TRMS_STATUS_STATE n) = 1
           ∧ d.reg (TRMS_SAMPLES n) = 0 ∧ (∀ k : Station, k ≠ n → d.trim k = s.dev.trim k)
           ∧ Dev.regsOnly [TRMS_STATUS n, TRM_STATUS, TRMS_SAMPLES n] { s.dev with trm := d.trm } d)
    ∧ ((s.dev.trim n).meas = none →
         ∃ d, exec (.trimGain n) s = .next { s with dev := d }
           ∧ d.trim n = { s.dev.trim n with meas := some (s.dev.trimMeas n true) }
           ∧ d.get (TRMS_STATUS_STATE n) = (if (s.dev.trim n).slewD.isSome then 2 else 3)
           ∧ d.reg (TRMS_SAMPLES n) = 0 ∧ d.reg (TRMS_G_OUT n) = 0 ∧ (∀ k : Station, k ≠ n → d.trim k = s.dev.trim k)
           ∧ Dev.regsOnly [TRMS_STATUS n, TRM_STATUS, TRMS_SAMPLES n, TRMS_G_OUT n] { s.dev with trm := d.trm } d)
    ∧ ((s.dev.trim n).meas.isSome = true →
         (∃ d, exec (.trimAbort n) s = .next { s with dev := d } ∧ d.trim n = { s.dev.trim n with meas := none }
             ∧ d.get (TRMS_STATUS_RESULT n) = 5 ∧ d.get (TRMS_STATUS_STATE n) = 0 ∧ d.pends 227 ∧ s.dev.detects 0x80 n d
             ∧ (∀ k : Station, k ≠ n → d.trim k = s.dev.trim k)
             ∧ Dev.withFault [TRMS_STATUS n, TRM_STATUS, TRM_FLAGS, MPLS_STATUS n] { s.dev with trm := d.trm } d)
           ∧ ∀ g : Bool, ∃ d, exec (if g then .trimGain n else .trimDark n) s = .next { s with dev := d } ∧ d.trm = s.dev.trm
             ∧ d.get (TRMS_STATUS_RESULT n) = 6 ∧ Dev.withFault [TRMS_STATUS n, TRM_FLAGS] s.dev d)
    ∧ ((s.dev.trim n).meas = none →
         ∃ d, exec (.trimApply n) s = .next { s with dev := d } ∧ d.get (TRMS_STATUS_RESULT n) = 1
           ∧ d.trim n = { s.dev.trim n with
               slewD := some ⟨[(s.dev.get (MPLS_DARK_D1 n) : Nat), (s.dev.get (MPLS_DARK_D2 n) : Nat)],
                 [(s.dev.get (TRMS_DARK_NEW_D1 n) : Nat), (s.dev.get (TRMS_DARK_NEW_D2 n) : Nat)], 0,
                 max 1 (s.dev.reg (TRMS_SLEW n) % 65536)⟩,
               slewG := some ⟨[(s.dev.reg (MPLS_GAIN n) : Nat)], [(s.dev.reg (TRMS_GAIN_NEW n) : Nat)], 0,
                 max 1 (s.dev.reg (TRMS_SLEW n) % 65536)⟩ }
           ∧ (∀ k : Station, k ≠ n → d.trim k = s.dev.trim k)
           ∧ Dev.regsOnly [TRMS_STATUS n, TRM_STATUS] { s.dev with trm := d.trm } d)
    ∧ ((s.dev.trim n).meas = some m → m.gain = false → m.want ≤ m.n → m.max1 - m.min1 ≤ m.spread →
       m.max2 - m.min2 ≤ m.spread →
         ∃ d, exec (.darkDone n) s = .next { s with dev := d } ∧ d.get (TRMS_STATUS_RESULT n) = 1 ∧ d.pends 224
           ∧ d.reg (TRMS_SPREAD n) = ((m.max2 - m.min2) * 65536 + (m.max1 - m.min1)) % 2 ^ 32
           ∧ d.reg (TRMS_DARK_NEW n) = ((m.sum2 + m.want / 2) / 2 ^ m.log2 * 65536 + (m.sum1 + m.want / 2) / 2 ^ m.log2) % 2 ^ 32
           ∧ (d.trim n).meas = none ∧ (d.trim n).slewD.isSome = true ∧ (d.trim n).slewG = (s.dev.trim n).slewG
           ∧ (∀ k : Station, k ≠ n → d.trim k = s.dev.trim k)
           ∧ Dev.withEvent [TRMS_STATUS n, TRM_STATUS, TRMS_SPREAD n, TRMS_DARK_NEW n, MPLS_STATUS n] { s.dev with trm := d.trm } d)
    ∧ ((s.dev.trim n).meas = some m → m.gain = true → m.want ≤ m.n → m.rRef ≠ 0 →
       (((((histMedian (m.want / 2) m.hist 0).1 * 2 ^ m.gsh + m.gLo + (m.want / 2 - (histMedian (m.want / 2) m.hist 0).2.1) * 2 ^ m.gsh / (histMedian (m.want / 2) m.hist 0).2.2) * 65536 / m.rRef : Nat) : Int) - (m.g0 : Nat)).natAbs ≤ m.g0 * m.gLim / 65536 →
         ∃ d, exec (.gainDone n) s = .next { s with dev := d } ∧ d.get (TRMS_STATUS_RESULT n) = 1 ∧ d.pends 225
           ∧ d.reg (TRMS_GAIN_NEW n) = ((histMedian (m.want / 2) m.hist 0).1 * 2 ^ m.gsh + m.gLo
               + (m.want / 2 - (histMedian (m.want / 2) m.hist 0).2.1) * 2 ^ m.gsh / (histMedian (m.want / 2) m.hist 0).2.2)
                 * 65536 / m.rRef % 2 ^ 32
           ∧ (d.trim n).meas = none ∧ (d.trim n).slewG.isSome = true ∧ (d.trim n).slewD = (s.dev.trim n).slewD
           ∧ (∀ k : Station, k ≠ n → d.trim k = s.dev.trim k)
           ∧ Dev.withEvent [TRMS_STATUS n, TRM_STATUS, TRMS_G_QMED n, TRMS_GAIN_NEW n, MPLS_STATUS n] { s.dev with trm := d.trm } d)
    ∧ ((s.dev.trim n).meas = some m → m.n < m.want → m.since + m.timeout * 2000 ≤ s.dev.grid.ticks →
         ∃ d, exec (.trimTimeout n) s = .next { s with dev := d } ∧ d.trim n = { s.dev.trim n with meas := none }
           ∧ d.get (TRMS_STATUS_RESULT n) = 2 ∧ d.pends 227 ∧ s.dev.detects 0x80 n d
           ∧ (∀ k : Station, k ≠ n → d.trim k = s.dev.trim k)
           ∧ Dev.withFault [TRMS_STATUS n, TRM_STATUS, TRM_FLAGS, TRMS_SPREAD n, MPLS_STATUS n] { s.dev with trm := d.trm } d)

/-- While FAB runs and no reaction waits: REGISTER arms the next registration and REG_ABORT cancels it, as REG_STATE
shows; REBUILD with a usable base grid writes the grid of K_n to the buffer that is not in force, selects it for the
next layer boundary and ends DONE; SAVE waits, BUSY, while a grid waits; a registration that is due with a MONO16
image shows its layer and the number of accepted marks, with FEW_MARKS where there is none, and is no longer due.
Where the rules admit more than one reading it states the model's (log entry 56). (R538, R539, R540, R543, R544,
R548) -/
def Obligations.RegistrationCommands : Prop :=
  ∀ (n : Station) (b : Nat) (shot : CamShot) (s : State), s.dev.runs domFab = true → s.dev.calm →
    (s.dev.trm.due = false → (∀ k : Station, (s.dev.trim k).kNew = none) →
         (∃ d, exec .trimRegister s = .next { s with dev := d } ∧ d.trm = { s.dev.trm with armed := true }
             ∧ d.get TRM_STATUS_REG_STATE = 1 ∧ Dev.regsOnly [TRM_STATUS, TRMS_STATUS 0] { s.dev with trm := d.trm } d)
           ∧ ∃ d, exec .trimRegAbort s = .next { s with dev := d } ∧ d.trm = { s.dev.trm with armed := false }
             ∧ d.get TRM_STATUS_REG_STATE = 0 ∧ Dev.regsOnly [TRM_STATUS, TRMS_STATUS 0] { s.dev with trm := d.trm } d)
    ∧ ((s.dev.trim n).meas = none → (s.dev.trim n).kNew = none → s.dev.trimBase n = some b →
       s.dev.reg (SHT_GRID_SEL n) % 2 = 0 →
         ∃ d, exec (.trimRebuild n) s = .next { s with dev := d } ∧ d.get (TRMS_STATUS_RESULT n) = 1
           ∧ d.on (TRMS_STATUS_GRID_PEND n) = true ∧ d.written (SHT_GRID_SEL n) = 1
           ∧ (d.trim n).kNew = some (s.dev.trimK n ++ [1])
           ∧ d.creelBytes (s.dev.reg (SHT_GRID_BASE1 n)) 16 = s.dev.creelBytes b 12
               ++ ((s.dev.trimGrid b (Affine.ofWords (s.dev.trimK n))).drop 12).take 4
           ∧ sameOutside ramDefault (s.dev.reg (SHT_GRID_BASE1 n)) 266272 s.dev.creel d.creel
           ∧ (∀ k : Station, k ≠ n → d.trim k = s.dev.trim k)
           ∧ Dev.regsOnly [TRMS_STATUS n, TRM_STATUS] { s.dev with trm := d.trm, creel := d.creel, shadow := d.shadow } d)
    ∧ ((s.dev.trim n).kNew.isSome = true →
         exec .trimSave s =
           .next { s with dev := { s.dev with trm := { s.dev.trm with saveDue := true } }.put TRM_STATUS_SAVE_BUSY 1 })
    ∧ ((∀ k : Station, (s.dev.trim k).kNew = none) →
       (∀ k : Station, (s.dev.trim k).slewD = none ∧ (s.dev.trim k).slewG = none) →
         ∃ d, exec .trimSave s = .next { s with dev := d } ∧ d.trm = { s.dev.trm with saveDue := false }
           ∧ (d.reg WAL_DROPS = s.dev.reg WAL_DROPS → d.on TRM_STATUS_SAVE_BUSY = true)
           ∧ (d.reg WAL_DROPS ≠ s.dev.reg WAL_DROPS → d.on TRM_STATUS_SAVE_BUSY = false ∧ d.on TRM_FLAGS_SAVE_FAIL = true)
           ∧ Dev.withEvent [TRM_STATUS, TRM_FLAGS] { s.dev with trm := d.trm } d)
    ∧ (s.dev.trm.due = true → s.dev.trm.image = some shot → shot.format = 2 →
         ∃ d, exec .registrationCompute s = .next { s with dev := d } ∧ d.trm.due = false
           ∧ d.reg TRM_REG_LAYER = s.dev.reg TRD_LAYER
           ∧ bits (d.reg TRM_REG_RESULT) 15 8 = (s.dev.regFound (s.dev.regBase shot) shot).length % 256
           ∧ (d.get TRM_REG_RESULT_RESULT = 10 ↔ (s.dev.regFound (s.dev.regBase shot) shot).isEmpty = true)
           ∧ d.get TRM_REG_RESULT_RESULT ∈ [1, 4, 7, 10]
           ∧ Dev.frame [.creel, .dof, .ev, .flt, .mpl, .shadow, .trm, .wal] [2, 16, 18] s.dev d)

/-- While FAB runs and no reaction waits: LNK_l_CTRL with EN = 1 on a disabled lane takes the fields and starts the
search; block lock of an enabled lane shows in LNK_LOCKED with its time, and the link of a station lane in DOWN
becomes LOCKED, or REJOIN after RUN; loss of block lock shows, counts, sets LOCK_LOSS with E64 + l, and takes a link
in LOCKED or MEASURE to DOWN. The station lane PLL losing lock while a station lane is enabled clears S_PLL_LOCK,
sets S_PLL_LOSS and is a fault of severity HALT; the chain lane PLL with a chain lane enabled clears C_PLL_LOCK,
sets C_PLL_LOSS and raises its fault; with no lane of the PLL enabled, only the lock bit clears. Where the rules
admit more than one reading it states the model's (log entry 52). (R265, R456, R457, R458, R459, R471, R473, R470) -/
def Obligations.LaneCommands : Prop :=
  ∀ (l : Lane) (n : Station) (w : Word) (time : Nat) (signal : Bool) (s : State), s.dev.runs domFab = true →
    s.dev.calm →
    (s.dev.on (LANE_CTRL_EN l) = false →
         exec (.laneEnable l w) s =
           .next { s with dev := ((s.dev.setReg (LANE_CTRL l) (Nat.land (setBit w.toNat 0 true) 0x11F37)).put (LANE_STATE_STATE l) 1).put (LANE_STATE_TEST l) (s.dev.get (LANE_TEST_GEN_EN l)) })
    ∧ (s.dev.on (LANE_CTRL_EN l) = true → bit (s.dev.reg LNK_LOCKED) l.val = false →
       s.dev.on (LANE_TEST_GEN_EN l) = false →
         ∃ d, exec (.blockLock l time) s = .next { s with dev := d }
           ∧ d.reg LNK_LOCKED = setBit (s.dev.reg LNK_LOCKED) l.val true % 2 ^ 32 ∧ d.get (LANE_STATE_STATE l) = 3
           ∧ d.on (LANE_STATE_SIGNAL l) = true ∧ d.reg (LANE_LOCK_TIME l) = min time 0xFFFFFF
           ∧ (n.val = l.val → s.dev.linkState n = 0 → s.dev.on (LNK_WCTRL_EN n) = true →
               d.linkState n = if (s.dev.link n).fromRun && (s.dev.link n).measured then 6 else 1)
           ∧ (l.val < 16 → Dev.regsOnly [LNK_LOCKED, LANE_STATE l, LANE_LOCK_TIME l, LNK_WSTATE l] s.dev d)
           ∧ (16 ≤ l.val → Dev.frame [.chain, .dof, .ev, .flt, .mpl, .wal] [2, 5, 6, 18] s.dev d))
    ∧ (bit (s.dev.reg LNK_LOCKED) l.val = true →
         ∃ d, exec (.lockLoss l signal) s = .next { s with dev := d }
           ∧ d.reg LNK_LOCKED = setBit (s.dev.reg LNK_LOCKED) l.val false % 2 ^ 32 ∧ d.get (LANE_STATE_STATE l) = 2
           ∧ d.on (LANE_STATE_SIGNAL l) = signal ∧ d.reg (LANE_LOCKS l) = min (s.dev.reg (LANE_LOCKS l) + 1) 0xFFFFFFFF
           ∧ d.on (LANE_FLAGS_LOCK_LOSS l) = true ∧ (signal = false → d.on (LANE_FLAGS_SIG_LOSS l) = true)
           ∧ (s.dev.on (LANE_FLAGS_LOCK_LOSS l) = false → d.pends (64 + l.val))
           ∧ (n.val = l.val → s.dev.linkState n = 1 ∨ s.dev.linkState n = 2 → d.linkState n = 0)
           ∧ Dev.frame [.chain, .dof, .ev, .flt, .free, .isp, .lanes, .lnk, .mpl, .sht, .tap, .trm, .wal] [2, 3, 5, 6, 8, 11, 16, 18] s.dev d)
    ∧ (s.dev.on LNK_STATUS_S_PLL_LOCK = true → s.dev.stationLaneOn = true →
         ∃ d, exec .slanePll s = .next { s with dev := d } ∧ d.on LNK_STATUS_S_PLL_LOCK = false
           ∧ d.on LNK_FLAGS_S_PLL_LOSS = true ∧ s.dev.detects 0x20 0xFF d ∧ bits (d.reg EVT_FLT_LAST) 23 22 = 3
           ∧ Dev.withFault [LNK_STATUS, LNK_FLAGS] s.dev d)
    ∧ (s.dev.on LNK_STATUS_C_PLL_LOCK = true → s.dev.chainLaneOn = true →
         ∃ d, exec .clanePll s = .next { s with dev := d } ∧ d.on LNK_STATUS_C_PLL_LOCK = false
           ∧ d.on LNK_FLAGS_C_PLL_LOSS = true ∧ s.dev.detects 0x21 0xFF d
           ∧ Dev.withFault [LNK_STATUS, LNK_FLAGS] s.dev d)
    ∧ (s.dev.on LNK_STATUS_S_PLL_LOCK = true → s.dev.on LNK_STATUS_C_PLL_LOCK = true →
       s.dev.stationLaneOn = false → s.dev.chainLaneOn = false →
         exec .slanePll s = .next { s with dev := s.dev.put LNK_STATUS_S_PLL_LOCK 0 }
           ∧ exec .clanePll s = .next { s with dev := s.dev.put LNK_STATUS_C_PLL_LOCK 0 })

/-- While FAB runs and no reaction waits: START clears the counts of an idle scan and latches its dwell; STOP and the
end of the dwell leave the counts, the latter with SCAN_DONE; the checker of an enabled lane locks, and drops its
lock with PRBS_ERR where more than 512 of 1,024 bits mismatch; an injection on an enabled lane with none pending
becomes pending with its KIND, LEN and number of blocks, and on a looped-back lane with a locked checker its errors
are counted. Where the rules admit more than one reading it states the model's (log entry 52). (R463, R464, R467,
R468, R469, R471) -/
def Obligations.LaneTests : Prop :=
  ∀ (l : Lane) (w : Word) (cnt errors mism : Nat) (s : State), s.dev.runs domFab = true → s.dev.calm →
    (s.dev.on (LANE_SCAN_STAT_BUSY l) = false →
         ∃ d, exec (.scanStartCmd l) s = .next { s with dev := d } ∧ d.reg (LANE_SCAN_STAT l) = 1 ∧ d.reg (LANE_SCAN_ERR l) = 0
           ∧ d.reg (LANE_SCAN_BITS_LO l) = 0 ∧ d.reg (LANE_SCAN_BITS_HI l) = 0
           ∧ d.lanes = (vmod s.dev.lanes l fun (x : LaneUnit) => { x with scan := s.dev.get (LANE_SCAN_CFG_DWELL l) })
           ∧ Dev.regsOnly [LANE_SCAN_STAT l, LANE_SCAN_ERR l, LANE_SCAN_BITS_LO l, LANE_SCAN_BITS_HI l] { s.dev with lanes := d.lanes } d)
    ∧ (s.dev.on (LANE_SCAN_STAT_BUSY l) = true →
         (∃ d, exec (.scanStopCmd l cnt errors) s = .next { s with dev := d } ∧ d.on (LANE_SCAN_STAT_BUSY l) = false
             ∧ d.reg (LANE_SCAN_BITS_LO l) = min cnt (s.dev.dwellBits l) % 2 ^ 32
             ∧ d.reg (LANE_SCAN_BITS_HI l) = min cnt (s.dev.dwellBits l) / 2 ^ 32 % 65536
             ∧ d.reg (LANE_SCAN_ERR l) = min (min errors (min cnt (s.dev.dwellBits l))) 0xFFFFFFFF
             ∧ Dev.regsOnly [LANE_SCAN_STAT l, LANE_SCAN_ERR l, LANE_SCAN_BITS_LO l, LANE_SCAN_BITS_HI l] s.dev d)
           ∧ ∃ d, exec (.scanDone l errors) s = .next { s with dev := d } ∧ d.on (LANE_SCAN_STAT_BUSY l) = false
             ∧ d.on (LANE_SCAN_STAT_DONE l) = true ∧ d.on (LANE_FLAGS_SCAN_DONE l) = true
             ∧ d.reg (LANE_SCAN_BITS_LO l) = s.dev.dwellBits l % 2 ^ 32 ∧ d.reg (LANE_SCAN_BITS_HI l) = s.dev.dwellBits l / 2 ^ 32 % 65536
             ∧ d.reg (LANE_SCAN_ERR l) = min (min errors (s.dev.dwellBits l)) 0xFFFFFFFF
             ∧ Dev.withEvent [LANE_SCAN_STAT l, LANE_SCAN_ERR l, LANE_SCAN_BITS_LO l, LANE_SCAN_BITS_HI l, LANE_FLAGS l] s.dev d)
    ∧ (s.dev.on (LANE_TEST_CHK_EN l) = true → s.dev.on (LANE_CTRL_EN l) = true →
       (s.dev.on (LANE_TEST_CODED l) = true → bit (s.dev.reg LNK_LOCKED) l.val = true) →
         exec (.prbsLock l) s = .next { s with dev := s.dev.put (LANE_PRBS_STAT_CHK_LOCK l) 1 })
    ∧ (s.dev.on (LANE_PRBS_STAT_CHK_LOCK l) = true → 512 < mism →
         ∃ d, exec (.prbsLoss l mism) s = .next { s with dev := d } ∧ d.on (LANE_PRBS_STAT_CHK_LOCK l) = false
           ∧ d.on (LANE_FLAGS_PRBS_ERR l) = true ∧ d.reg (LANE_PRBS_ERR l) = min (s.dev.reg (LANE_PRBS_ERR l) + min mism 1024) 0xFFFFFFFF
           ∧ d.lanes = (vmod s.dev.lanes l fun (x : LaneUnit) => { x with quarters := 0 })
           ∧ Dev.withEvent [LANE_PRBS_STAT l, LANE_PRBS_ERR l, LANE_FLAGS l] { s.dev with lanes := d.lanes } d)
    ∧ (s.dev.get DEV_LC_IN_FORCE ≠ 2 → s.dev.on (LANE_PRBS_STAT_INJ_PEND l) = false → bits w.toNat 1 0 ≠ 0 →
       s.dev.on (LANE_CTRL_EN l) = true →
       (s.dev.get (LANE_CTRL_LOOP l) = 1 → bit (s.dev.reg LNK_LOCKED) l.val = false) →
         ∃ d, exec (.errorInject l w) s = .next { s with dev := d } ∧ d.on (LANE_PRBS_STAT_INJ_PEND l) = true
           ∧ d.lanes = (vmod s.dev.lanes l fun (x : LaneUnit) =>
               { x with injLeft := max 1 (bits w.toNat 23 16), injKind := bits w.toNat 1 0, injLen := bits w.toNat 13 8 + 1 })
           ∧ (s.dev.get (LANE_CTRL_LOOP l) = 1 → s.dev.on (LANE_PRBS_STAT_CHK_LOCK l) = true → d.reg (LANE_PRBS_ERR l) =
               min (s.dev.reg (LANE_PRBS_ERR l) + injectedErrors (s.dev.on (LANE_TEST_CODED l) || !s.dev.on (LANE_TEST_GEN_EN l))
                 (bits w.toNat 1 0) (bits w.toNat 13 8 + 1) (max 1 (bits w.toNat 23 16))) 0xFFFFFFFF)
           ∧ Dev.regsOnly [LANE_PRBS_STAT l, LANE_PRBS_ERR l] { s.dev with lanes := d.lanes } d)

/-- While FAB runs and no reaction waits, on the upstream port, up, in service, with a well-formed header and fewer than
16 hops: a management frame to the device waits at its receive bobbin; one to another address goes to the other
port, where it has room and carries traffic, with one more hop. A frame with a bad FCS counts as dropped and sets
DROP. A frame of the host leaves its MAC address. Where the rules admit more than one reading it states the model's
(log entry 53). (R477, R478, R480, R485, R505) -/
def Obligations.ChainFramesIn : Prop :=
  ∀ (p : Port) (mac : Nat) (bytes : List Byte) (s : State), s.dev.runs domFab = true → s.dev.calm →
    (s.dev.portUp p = true → s.dev.on (portStandby p) = false → s.dev.isRetired (portLane p) = false →
       (bytes.getD 0 0).toNat = 1 → 16 + leAt bytes 6 2 ≤ bytes.length → leAt bytes 6 2 ≤ 8192 →
       (bytes.getD 4 0).toNat < 16 → (bytes.getD 1 0).toNat ≠ 0 → p ≠ s.dev.downstream →
       s.dev.on NET_STATUS_ADDR_VALID = true → (bytes.getD 2 0).toNat = s.dev.get NET_STATUS_ADDR →
       (bytes.getD 1 0).toNat = 1 →
         ∃ d, exec (.deviceFrame p mac bytes true) s = .next { s with dev := d }
           ∧ d.reg (NETP_RX_FRAMES p) = min (s.dev.reg (NETP_RX_FRAMES p) + 1) 0xFFFFFFFF
           ∧ (d.cport p).rxQ = (s.dev.cport p).rxQ ++ [⟨.forwarded, (bytes.getD 1 0).toNat, (bytes.getD 2 0).toNat, (bytes.getD 3 0).toNat, (bytes.getD 4 0).toNat, leAt bytes 8 4,
               (bytes.drop 16).take (leAt bytes 6 2), .none⟩]
           ∧ ((bytes.getD 3 0).toNat = 0 → (d.cport p).hostMac = some mac)
           ∧ (∀ q : Port, q ≠ p → d.cport q = s.dev.cport q)
           ∧ Dev.frame [.chain, .creel, .crl, .ev, .wal] [2, 3, 6, 18] s.dev d)
    ∧ (s.dev.portUp p = true → s.dev.on (portStandby p) = false → s.dev.isRetired (portLane p) = false →
       (bytes.getD 0 0).toNat = 1 → 16 + leAt bytes 6 2 ≤ bytes.length → leAt bytes 6 2 ≤ 8192 →
       (bytes.getD 4 0).toNat < 16 → (bytes.getD 1 0).toNat ≠ 0 → p ≠ s.dev.downstream →
       (bytes.getD 2 0).toNat ≠ 0 → (bytes.getD 2 0).toNat ≠ 0xFF →
       (s.dev.on NET_STATUS_ADDR_VALID = true → (bytes.getD 2 0).toNat ≠ s.dev.get NET_STATUS_ADDR) →
       s.dev.portCarries (other p) = true → (s.dev.cport p).sending.isSome = true →
       (s.dev.cport (other p)).sending.isSome = true →
       ((s.dev.cport (other p)).forwardQ.map Frame.bytes).sum + max 64 (34 + leAt bytes 6 2) ≤ 65536 →
         ∃ d, exec (.deviceFrame p mac bytes true) s = .next { s with dev := d }
           ∧ d.reg (NETP_RX_FRAMES p) = min (s.dev.reg (NETP_RX_FRAMES p) + 1) 0xFFFFFFFF
           ∧ (d.cport (other p)).forwardQ = (s.dev.cport (other p)).forwardQ ++ [⟨.forwarded, (bytes.getD 1 0).toNat, (bytes.getD 2 0).toNat, (bytes.getD 3 0).toNat, ((bytes.getD 4 0).toNat + 1), leAt bytes 8 4,
               (bytes.drop 16).take (leAt bytes 6 2), .none⟩]
           ∧ (d.cport p).rxQ = (s.dev.cport p).rxQ ∧ Dev.regsOnly [NETP_RX_FRAMES p] { s.dev with chain := d.chain } d)
    ∧ (s.dev.portUp p = true → s.dev.on (portStandby p) = false → s.dev.isRetired (portLane p) = false →
         ∃ d, exec (.deviceFrame p mac bytes false) s = .next { s with dev := d }
           ∧ d.reg (NETP_RX_FRAMES p) = min (s.dev.reg (NETP_RX_FRAMES p) + 1) 0xFFFFFFFF
           ∧ d.reg (NETP_RX_DROPS p) = min (s.dev.reg (NETP_RX_DROPS p) + 1) 0xFFFFFFFF ∧ d.on NET_FLAGS_DROP = true
           ∧ ((s.dev.cport 0).dropSeen = false → (s.dev.cport 1).dropSeen = false → d.pends 94 ∧ s.dev.detects 0x23 (portLane p) d)
           ∧ Dev.withFault [NETP_RX_FRAMES p, NETP_RX_DROPS p, NET_FLAGS] { s.dev with chain := d.chain } d)

/-- While FAB runs and no reaction waits: an ENUM request on N0 in the first hop of a head, or a later hop of another
device, gives the address HOPS + 1, with E86 where it is new, clears REVERSED, the standby of N0 and the retirement
of the ports, and makes a device in WAIT_ENUM ready, with E0; a frame that has left counts in TX_FRAMES, and with no
more to send the port is idle; the open event records leave as one frame, or are lost, with FRAME_OVF, without an
address. A PROBE with HOPS 0 on N1 of a ring puts N1 in standby; a device on a ring whose upstream is lost reverses,
sets RING_BREAK, raises E88 and clears the standby of N1; a PAUSE received on a port that carries traffic holds it
for its quanta; a port whose room is short sends PAUSE. Where the rules admit more than one reading it states the
model's (log entry 53). (R481, R483, R484, R490, R511, R575, R632, R633, R482, R488, R489, R491) -/
def Obligations.ChainControl : Prop :=
  ∀ (p : Port) (hops : Fin 256) (seqNo : Nat) (f : Frame) (quanta : Fin 65536) (s : State),
    s.dev.runs domFab = true → s.dev.calm →
    (s.dev.portUp 0 = true → hops.val < 16 → s.dev.on NET_STATUS_HEAD = (hops.val == 0) →
       s.dev.trdState = 0 →
         ∃ d, exec (.enumRequest hops seqNo) s = .next { s with dev := d }
           ∧ d.get NET_STATUS_ADDR = hops.val + 1 ∧ d.on NET_STATUS_ADDR_VALID = true ∧ d.on NET_STATUS_REVERSED = false
           ∧ d.on NET_STATUS_N0 = false ∧ bits (d.reg EVT_FLT_RETIRED) 17 16 = 0
           ∧ d.reg (NETP_RX_FRAMES 0) = min (s.dev.reg (NETP_RX_FRAMES 0) + 1) 0xFFFFFFFF
           ∧ ((s.dev.on NET_STATUS_ADDR_VALID && s.dev.get NET_STATUS_ADDR == hops.val + 1) = false → d.pends 86)
           ∧ (s.dev.get DEV_STATE_STATE = 5 → d.get DEV_STATE_STATE = 6 ∧ d.pends 0)
           ∧ (s.dev.get DEV_STATE_STATE ≠ 5 → d.reg DEV_STATE = s.dev.reg DEV_STATE)
           ∧ ((s.dev.cport 0).sending.isSome = true → (d.cport 0).ownQ.getLast?.map (fun (x : Frame) => (x.kind, x.dst, x.src, x.seqNo))
               = some (0, 0, hops.val + 1, seqNo % 2 ^ 32))
           ∧ Dev.frame [.bases, .chain, .dof, .ev, .flt, .mpl, .start, .wal] [0, 2, 6, 18] s.dev d)
    ∧ ((s.dev.cport p).sending = some f → f.done = .none → (s.dev.cport p).ptpQ = [] →
       (s.dev.cport p).pauseQ = [] → (s.dev.cport p).forwardQ = [] → (s.dev.cport p).ownQ = [] →
       (s.dev.cport p).launches = [] →
         exec (.chainFrameSent p) s =
           .next { s with dev := (s.dev.portMod p fun (x : ChainPort) => { x with sending := none }).count (NETP_TX_FRAMES p) 1 })
    ∧ ((s.dev.cport p).sending = some f → f.done = .none → (s.dev.cport p).ptpQ = [] →
       (s.dev.cport p).pauseQ = [] → (s.dev.cport p).launches = [] → s.dev.portCarries p = true →
       s.dev.on (NETP_STATUS_PAUSED p) = false → (s.dev.cport p).lastForwarded = true →
       (s.dev.cport p).ownQ ≠ [] →
         ∃ d, exec (.chainFrameSent p) s = .next { s with dev := d } ∧ (d.cport p).sending = (s.dev.cport p).ownQ.head?
           ∧ (d.cport p).ownQ = (s.dev.cport p).ownQ.tail ∧ (d.cport p).forwardQ = (s.dev.cport p).forwardQ
           ∧ (d.cport p).lastForwarded = false ∧ Dev.regsOnly [NETP_TX_FRAMES p] { s.dev with chain := d.chain } d)
    ∧ (s.dev.eventDue = true → s.dev.eventFrameOut = true → s.dev.on NET_STATUS_ADDR_VALID = true →
       (s.dev.cport 0).sending.isSome = true → (s.dev.cport 1).sending.isSome = true →
         ∃ d, exec .eventFrameSend s = .next { s with dev := d } ∧ d.ev = { s.dev.ev with openRecs := [] }
           ∧ (d.cport s.dev.upstream).ownQ = (s.dev.cport s.dev.upstream).ownQ
               ++ [⟨.own, 3, 0, s.dev.get NET_STATUS_ADDR, 0, s.dev.chain.seqNo, s.dev.ev.openRecs.flatMap fun r => wordsBytes r.words, .none⟩]
           ∧ d.chain.seqNo = (s.dev.chain.seqNo + 1) % 2 ^ 32 ∧ Dev.regsOnly [] { s.dev with ev := d.ev, chain := d.chain } d)
    ∧ (s.dev.eventDue = true → s.dev.eventFrameOut = true → s.dev.on NET_STATUS_ADDR_VALID = false →
         exec .eventFrameSend s =
           .next { s with dev := { s.dev with ev := { s.dev.ev with openRecs := [] } }.put EVT_FLAGS_FRAME_OVF 1 })
    ∧ (s.dev.on NET_CTRL_RING_EN = true → s.dev.portUp 1 = true → s.dev.isRetired 17 = false →
       s.dev.on NET_STATUS_REVERSED = false →
         exec (.ringProbe hops) s =
           .next { s with dev := if hops.val = 0 then
               ((s.dev.count (NETP_RX_FRAMES 1) 1).put NET_STATUS_RING 1).put NET_STATUS_N1 1
             else s.dev.count (NETP_RX_FRAMES 1) 1 })
    ∧ (s.dev.on NET_CTRL_RING_EN = true → s.dev.on NET_STATUS_REVERSED = false →
       (s.dev.portUp 0 && !s.dev.isRetired 16) = false →
         ∃ d, exec (.ringBreak false) s = .next { s with dev := d } ∧ d.on NET_STATUS_REVERSED = true
           ∧ (s.dev.on NET_STATUS_RING = true → d.on NET_STATUS_N1 = false) ∧ d.on NET_FLAGS_RING_BREAK = true ∧ d.pends 88
           ∧ d.reg (EVT_FLT_COUNT 0x25) = min (s.dev.reg (EVT_FLT_COUNT 0x25) + 1) 0xFFFFFFFF ∧ (d.cport 0).ownQ = []
           ∧ Dev.frame [.bases, .chain, .dof, .ev, .flt, .free, .isp, .mpl, .tap, .wal] [2, 6, 11, 18] s.dev d)
    ∧ (s.dev.portCarries p = true →
         ∃ d, exec (.pauseFrame p quanta) s = .next { s with dev := d } ∧ d.on (NETP_STATUS_PAUSED p) = (quanta.val ≠ 0 : Bool)
           ∧ (d.cport p).pausedUntil = s.dev.t0.nanos + divUp (quanta.val * 512) 10
           ∧ Dev.withFault [NETP_STATUS p, NETP_TL_STAT p, NETP_TL_LATE p] { s.dev with chain := d.chain } d)
    ∧ (s.dev.on NET_CTRL_PAUSE_EN = true → s.dev.portCarries p = true →
       min (s.dev.rxFree p) (s.dev.fwdFree p) < 16384 → (s.dev.cport p).sending.isSome = true →
         exec (.pauseSend p) s =
           .next { s with dev := ((s.dev.put (NETP_STATUS_PAUSING p) 1).portMod p fun (x : ChainPort) =>
             { x with pauseQ := x.pauseQ ++ [⟨.macPause, 0, 0, 0, 0, 0, leBytes 2 0xFFFF, .none⟩] }) })

/-- While FAB runs and no reaction waits, between two ports that carry traffic, the other one busy: a Sync or a
Delay_Req leaves with its residence time added to its correction, counted in PTP_CORR and in RES_MAX; the residence
time of a two-step Sync is held, and its Follow_Up leaves with it; other messages leave unchanged. Where the rules
admit more than one reading it states the model's (log entry 54). (R494) -/
def Obligations.TransparentClock : Prop :=
  ∀ (p : Port) (kind : PtpKind) (domain : Fin 256) (source seqNo : Nat) (rawIn rawOut corr res : Int) (s : State),
    s.dev.runs domFab = true → s.dev.calm → s.dev.portCarries p = true →
    s.dev.portCarries (other p) = true → (s.dev.cport (other p)).sending.isSome = true →
    res = rawOut + s.dev.regS (NETP_EGR_LAT (other p)) - (rawIn - s.dev.regS (NETP_ING_LAT p)) →
    ((kind = .sync ∨ kind = .delayReq) →
         ∃ d, exec (.ptpTransit p kind domain source seqNo rawIn rawOut corr) s = .next { s with dev := d }
           ∧ (d.cport (other p)).ptpQ = (s.dev.cport (other p)).ptpQ
               ++ [ptpFrame kind domain.val (source % 2 ^ 80) (seqNo % 65536) (corr + res)]
           ∧ d.reg (NETP_RES_MAX p) = max (s.dev.reg (NETP_RES_MAX p)) (satU 32 (asr res 16))
           ∧ d.reg (NETP_PTP_CORR p) = min (s.dev.reg (NETP_PTP_CORR p) + 1) 0xFFFFFFFF
           ∧ d.reg (NETP_RX_FRAMES p) = min (s.dev.reg (NETP_RX_FRAMES p) + 1) 0xFFFFFFFF
           ∧ Dev.regsOnly [NETP_RES_MAX p, NETP_PTP_CORR p, NETP_RX_FRAMES p] { s.dev with chain := d.chain } d)
    ∧ (kind = .syncTwoStep → (s.dev.cport p).held = [] →
         ∃ d, exec (.ptpTransit p kind domain source seqNo rawIn rawOut corr) s = .next { s with dev := d }
           ∧ (d.cport (other p)).ptpQ = (s.dev.cport (other p)).ptpQ ++ [ptpFrame kind domain.val (source % 2 ^ 80) (seqNo % 65536) corr]
           ∧ (d.cport p).held = [(source % 2 ^ 80, seqNo % 65536, res, s.dev.grid.ticks)]
           ∧ Dev.regsOnly [NETP_RES_MAX p, NETP_RX_FRAMES p] { s.dev with chain := d.chain } d)
    ∧ (kind = .followUp → (s.dev.cport p).held = [(source % 2 ^ 80, seqNo % 65536, rawIn, s.dev.grid.ticks)] →
         ∃ d, exec (.ptpTransit p kind domain source seqNo rawIn rawOut corr) s = .next { s with dev := d }
           ∧ (d.cport (other p)).ptpQ = (s.dev.cport (other p)).ptpQ
               ++ [ptpFrame kind domain.val (source % 2 ^ 80) (seqNo % 65536) (corr + rawIn)]
           ∧ (d.cport p).held = [] ∧ d.reg (NETP_PTP_CORR p) = min (s.dev.reg (NETP_PTP_CORR p) + 1) 0xFFFFFFFF
           ∧ Dev.regsOnly [NETP_PTP_CORR p, NETP_RX_FRAMES p] { s.dev with chain := d.chain } d)
    ∧ (kind = .other →
         ∃ d, exec (.ptpTransit p kind domain source seqNo rawIn rawOut corr) s = .next { s with dev := d }
           ∧ (d.cport (other p)).ptpQ = (s.dev.cport (other p)).ptpQ ++ [ptpFrame kind domain.val (source % 2 ^ 80) (seqNo % 65536) corr]
           ∧ Dev.regsOnly [NETP_RX_FRAMES p] { s.dev with chain := d.chain } d)

/-- While FAB runs, no reaction waits and no write waits, on an enabled base with SRC 0: a complete Sync (in ACQUIRE or
LOCKED, without a step) shows its offset, moves RATE by the servo of R496 and counts; a Delay_Req takes the next
number; its Delay_Resp adds a path delay, the newest of eight, and shows the mean; the best master heard is shown;
holdover holds RATE at the integral and raises E90 and PTP_HOLDOVER. In HOLDOVER a Sync only serves the delay
exchanges. No other base changes. Where the rules admit more than one reading it states the model's (log entry 54).
(R492, R493, R495, R496, R497) -/
def Obligations.PtpSlave : Prop :=
  ∀ (b : Base) (followUp twoStep : Bool) (seqNo : Nat) (t1 corr t2 t4 li term : Int) (m : List Nat) (s : State),
    s.dev.runs domFab = true → s.dev.calm → s.dev.shadow = [] → s.dev.isSlave b = true →
    (((followUp = false ∧ twoStep = false ∧ term = t2 - s.dev.regS (NETP_ING_LAT s.dev.upstream) - t1 - corr) ∨ (followUp = true ∧ (s.dev.base b).pendingSync seqNo = some (term + t1 + corr))) →
       s.dev.baseState b ≠ 3 → s.dev.on (NETT_CTRL_STEP_AUTO b) = false →
         ∃ d, exec (.ptpSync b followUp twoStep seqNo t1 corr t2) s = .next { s with dev := d }
           ∧ d.regS (NETT_OFFSET b) = satS 32 (asr (term - (s.dev.base b).meanDelay) 12)
           ∧ (d.base b).integ = clampI (-servoLim) servoLim
               ((s.dev.base b).integ - asr (s.dev.get (NETT_SERVO_KI b) * (term - (s.dev.base b).meanDelay)) 16)
           ∧ d.regS (NETT_RATE b) = clampI (-servoLim) servoLim
               ((d.base b).integ - asr (s.dev.get (NETT_SERVO_KP b) * (term - (s.dev.base b).meanDelay)) 16)
           ∧ d.reg (NETT_SYNCS b) = min (s.dev.reg (NETT_SYNCS b) + 1) 0xFFFFFFFF
           ∧ (d.base b).syncTerm = term ∧ (d.base b).used = true ∧ (d.base b).twoStep = none ∧ (d.base b).now = (s.dev.base b).now
           ∧ (∀ k : Base, k ≠ b → d.base k = s.dev.base k)
           ∧ Dev.withEvent [NETT_OFFSET b, NETT_RATE b, NETT_SYNCS b, NETT_STATE b] { s.dev with bases := d.bases } d)
    ∧ (s.dev.baseState b = 3 →
         exec (.ptpSync b false false seqNo t1 corr t2) s =
           .next { s with dev := (s.dev.baseMod b fun (x : TimeBase) =>
             { x with syncTerm := t2 - s.dev.regS (NETP_ING_LAT s.dev.upstream) - t1 - corr, twoStep := none }) })
    ∧ (exec (.ptpSync b false true seqNo t1 corr t2) s =
         .next { s with dev := (s.dev.baseMod b fun (x : TimeBase) =>
           { x with twoStep := some (seqNo, t2 - s.dev.regS (NETP_ING_LAT s.dev.upstream)) }) })
    ∧ (exec (.delayReqSend b t1) s =
         .next { s with dev := ((s.dev.baseMod b fun (x : TimeBase) =>
           { x with reqSent := some (x.reqSeq, t1 + s.dev.regS (NETP_EGR_LAT s.dev.upstream)), reqSeq := (x.reqSeq + 1) % 65536 }).count
             (NETP_TX_FRAMES s.dev.upstream) 1) })
    ∧ ((s.dev.base b).reqSent = some (seqNo, t2) → s.dev.baseState b ≠ 3 →
         ∃ d, exec (.delayResp b seqNo t4 corr li) s = .next { s with dev := d }
           ∧ (d.base b).delays = (asr ((s.dev.base b).syncTerm + (t4 - t2 - corr)) 1 :: (s.dev.base b).delays).take 8
           ∧ (d.base b).reqSent = none ∧ (d.base b).reqLog = li
           ∧ d.regS (NETT_MPD b) = satS 32 (asr (d.base b).meanDelay 12) ∧ (∀ k : Base, k ≠ b → d.base k = s.dev.base k)
           ∧ Dev.regsOnly [NETT_MPD b] { s.dev with bases := d.bases } d)
    ∧ (m.length = 7 → (s.dev.base b).masters = [] →
         ∃ d, exec (.announce b m) s = .next { s with dev := d } ∧ (d.base b).masters = [m]
           ∧ d.reg (NETT_MASTER_LO b) = masterId m % 2 ^ 32 ∧ d.reg (NETT_MASTER_HI b) = masterId m / 2 ^ 32 % 2 ^ 32
           ∧ Dev.regsOnly [NETT_MASTER_LO b, NETT_MASTER_HI b] { s.dev with bases := d.bases } d)
    ∧ ((s.dev.base b).used = true → (s.dev.baseState b = 1 ∨ s.dev.baseState b = 2) →
         ∃ d, exec (.ptpHoldover b) s = .next { s with dev := d } ∧ d.baseState b = 3
           ∧ d.regS (NETT_RATE b) = sx 32 (wrapN 32 (s.dev.base b).integ) ∧ d.pends 90 ∧ s.dev.detects 0x27 0xFF d
           ∧ (s.dev.baseState b = 2 → d.pends 89)
           ∧ d.bases = (vmod s.dev.bases b fun (x : TimeBase) => { x with good := 0, bad := 0, needDelays := 8, masters := [], twoStep := none })
           ∧ Dev.withFault [NETT_STATE b, NETT_RATE b] { s.dev with bases := d.bases } d)

/-- While FAB runs, no reaction waits and no write waits: EN = 1 takes the fields of a disabled base and starts it from
zero, free-running with SRC 2 or 3, otherwise in ACQUIRE with RATE 0; CAPTURE shows the value that the base has so
many cycles into the tick; SET and ADD step an enabled base, unless it is T0 with a position engine enabled, which
is TB_STEP with E91. Where the rules admit more than one reading it states the model's (log entry 54). (R9, R28,
R499, R500, R508) -/
def Obligations.TimeBaseCommands : Prop :=
  ∀ (b : Base) (w : Word) (tau : Nat) (n : Int) (s : State), s.dev.runs domFab = true → s.dev.calm →
    s.dev.shadow = [] →
    (s.dev.on (NETT_CTRL_EN b) = false →
         ∃ d, exec (.timebaseEnable b w) s = .next { s with dev := d }
           ∧ d.reg (NETT_CTRL b) = Nat.land (setBit w.toNat 0 true) 0xFF0F
           ∧ d.bases = vput s.dev.bases b TimeBase.reset
           ∧ (bits w.toNat 2 1 < 2 → d.reg (NETT_STATE b) = 1 ∧ d.reg (NETT_RATE b) = 0)
           ∧ (2 ≤ bits w.toNat 2 1 → d.reg (NETT_STATE b) = 0 ∧ d.reg (NETT_RATE b) = s.dev.reg (NETT_RATE b))
           ∧ Dev.regsOnly [NETT_CTRL b, NETT_STATE b, NETT_RATE b] { s.dev with bases := d.bases } d)
    ∧ (exec (.timebaseCapture b tau) s =
         .next { s with dev := ((((s.dev.setReg (NETT_SEC_LO b) ((s.dev.baseAt b tau).sec % 2 ^ 32)).setReg (NETT_SEC_HI b)
           ((s.dev.baseAt b tau).sec / 2 ^ 32)).setReg (NETT_NS b) (s.dev.baseAt b tau).ns).setReg (NETT_FRAC b)
             ((s.dev.baseAt b tau).frac / 2 ^ 24)) })
    ∧ (s.dev.on (NETT_CTRL_EN b) = true → s.dev.stepBarred b = false →
       s.dev.reg (NETT_STEP_NS b) < 1000000000 →
         exec (.stepSet b) s =
           .next { s with dev := (loadBase b ⟨s.dev.reg (NETT_STEP_SEC_LO b) + s.dev.reg (NETT_STEP_SEC_HI b) % 65536 * 2 ^ 32,
             s.dev.reg (NETT_STEP_NS b), 0⟩ s.dev) })
    ∧ (s.dev.on (NETT_CTRL_EN b) = true → s.dev.stepBarred b = false →
       n = (((s.dev.base b).now.sec : Int) + sx 48 (s.dev.reg (NETT_STEP_SEC_LO b) + s.dev.reg (NETT_STEP_SEC_HI b) % 65536 * 2 ^ 32)) * 1000000000 + ((s.dev.base b).now.ns : Int) + s.dev.regS (NETT_STEP_NS b) →
       0 ≤ n → n < 2 ^ 48 * 1000000000 →
         exec (.stepAdd b) s =
           .next { s with dev := loadBase b ⟨n.toNat / 1000000000, n.toNat % 1000000000, (s.dev.base b).now.frac⟩ s.dev })
    ∧ (s.dev.on (NETT_CTRL_EN 0) = true → s.dev.positionRuns = true →
         (∃ d, exec (.stepSet 0) s = .next { s with dev := d } ∧ d.bases = s.dev.bases ∧ d.pends 91 ∧ s.dev.detects 0x26 0xFF d
             ∧ Dev.withFault [] s.dev d)
           ∧ ∃ d, exec (.stepAdd 0) s = .next { s with dev := d } ∧ d.bases = s.dev.bases ∧ d.pends 91 ∧ s.dev.detects 0x26 0xFF d
             ∧ Dev.withFault [] s.dev d)

/-- While FAB runs and no reaction waits: QUEUE of a launch that is not late puts it among fewer than 32 others in order
of time, as TL_STAT shows; FLUSH empties the queue; at its time the first launch leaves an idle port that carries
traffic. PPS_OUT rises when its base reaches the offset; an edge of PPS_IN shows the time of its base; 1.5 s without
an edge is PPS_LOST, with E93. Where the rules admit more than one reading it states the model's (log entries 53 and
54). (R501, R502, R503, R504) -/
def Obligations.LaunchesAndPps : Prop :=
  ∀ (p : Port) (w : Word) (tau : Nat) (e : Timed) (rest : List Timed) (b : Base) (n : Nat) (s : State),
    s.dev.runs domFab = true → s.dev.calm →
    ((s.dev.cport p).launches.length < 32 →
       e = ⟨bits w.toNat 5 4, s.dev.reg (NETP_TL_SEC p), s.dev.reg (NETP_TL_NS p) % 2 ^ 30, s.dev.reg (NETP_TL_ADDR p) % 2 ^ 25,
           s.dev.reg (NETP_TL_LEN p) % 2 ^ 14, bit w.toNat 8⟩ →
       0 ≤ s.dev.launchIn e tau →
         ∃ d, exec (.tlQueue p w tau) s = .next { s with dev := d }
           ∧ (d.cport p).launches = (s.dev.cport p).launches.takeWhile (fun t => decide (s.dev.launchIn t tau ≤ s.dev.launchIn e tau))
               ++ e :: (s.dev.cport p).launches.dropWhile (fun t => decide (s.dev.launchIn t tau ≤ s.dev.launchIn e tau))
           ∧ d.reg (NETP_TL_STAT p) = (s.dev.cport p).launches.length + 1 ∧ (∀ q : Port, q ≠ p → d.cport q = s.dev.cport q)
           ∧ Dev.regsOnly [NETP_TL_STAT p] { s.dev with chain := d.chain } d)
    ∧ (∃ d, exec (.tlFlush p) s = .next { s with dev := d } ∧ (d.cport p).launches = [] ∧ d.reg (NETP_TL_STAT p) = 0
         ∧ (∀ q : Port, q ≠ p → d.cport q = s.dev.cport q) ∧ Dev.regsOnly [NETP_TL_STAT p] { s.dev with chain := d.chain } d)
    ∧ ((s.dev.cport p).launches = e :: rest → s.dev.launchIn e tau ≤ 0 → (s.dev.cport p).sending = none →
       s.dev.portCarries p = true →
         ∃ d, exec (.timedLaunch p tau) s = .next { s with dev := d } ∧ (d.cport p).launches = rest
           ∧ (d.cport p).sending = some ⟨.timed, 0, 0, 0, 0, 0, s.dev.creelBytes e.addr e.len, .none⟩
           ∧ d.reg (NETP_TL_STAT p) = rest.length % 2 ^ 32 ∧ (∀ q : Port, q ≠ p → d.cport q = s.dev.cport q)
           ∧ Dev.regsOnly [NETP_TL_STAT p] { s.dev with chain := d.chain } d)
    ∧ (b = baseNo (s.dev.reg NET_PPS_OUT) → s.dev.on NET_PPS_OUT_PPS_OUT_EN = true →
       s.dev.on (NETT_CTRL_EN b) = true → (s.dev.base b).now.ns ≤ s.dev.get NET_PPS_OFFSET_PPS_OFFSET →
       s.dev.get NET_PPS_OFFSET_PPS_OFFSET ≤ (s.dev.base b).now.ns + 501 →
         exec .ppsOutPulse s =
           .next { s with dev := { s.dev with chain := { s.dev.chain with ppsHigh := true, ppsUntil :=
             (s.dev.baseNanos b - (s.dev.base b).now.ns + s.dev.get NET_PPS_OFFSET_PPS_OFFSET
               + s.dev.get NET_PPS_OUT_PPS_WIDTH * 1000) } } })
    ∧ (b = baseNo (s.dev.reg NET_PPS_IN) → s.dev.on NET_PPS_IN_PPS_IN_EN = true →
       (s.dev.on (NETT_CTRL_EN b) && s.dev.baseSrc b == 1) = false →
         exec (.ppsInEdge tau) s =
           .next { s with dev := { (s.dev.setReg NET_PPS_IN_SEC ((s.dev.baseAt b tau).sec % 2 ^ 32)).setReg NET_PPS_IN_NS (s.dev.baseAt b tau).ns with
             chain := { s.dev.chain with ppsSince := some s.dev.grid.ticks } } })
    ∧ (b = baseNo (s.dev.reg NET_PPS_IN) → s.dev.on NET_PPS_IN_PPS_IN_EN = true →
       s.dev.on (NETT_CTRL_EN b) = true → s.dev.baseSrc b = 1 → s.dev.shadow = [] →
       s.dev.on (NETT_CTRL_STEP_AUTO b) = false →
         ∃ d, exec (.ppsInEdge tau) s = .next { s with dev := d } ∧ d.reg NET_PPS_IN_SEC = (s.dev.baseAt b tau).sec % 2 ^ 32
           ∧ d.reg NET_PPS_IN_NS = (s.dev.baseAt b tau).ns % 2 ^ 32 ∧ d.chain = { s.dev.chain with ppsSince := some s.dev.grid.ticks }
           ∧ d.regS (NETT_OFFSET b) = satS 32 (asr ((if 500000000 ≤ (s.dev.baseAt b tau).ns then ((s.dev.baseAt b tau).ns : Int) - 1000000000
               else (s.dev.baseAt b tau).ns) * 65536) 12)
           ∧ (d.base b).used = true ∧ (s.dev.baseState b = 3 → d.baseState b = 1) ∧ (∀ k : Base, k ≠ b → d.base k = s.dev.base k)
           ∧ Dev.withEvent [NET_PPS_IN_SEC, NET_PPS_IN_NS, NETT_OFFSET b, NETT_RATE b, NETT_STATE b]
               { s.dev with chain := d.chain, bases := d.bases } d)
    ∧ (b = baseNo (s.dev.reg NET_PPS_IN) → s.dev.on NET_PPS_IN_PPS_IN_EN = true →
       s.dev.chain.ppsSince = some n → n + 3000000 ≤ s.dev.grid.ticks →
         ∃ d, exec .ppsLost s = .next { s with dev := d } ∧ d.on NET_FLAGS_PPS_LOST = true ∧ d.pends 93
           ∧ d.reg (EVT_FLT_COUNT 0x29) = min (s.dev.reg (EVT_FLT_COUNT 0x29) + 1) 0xFFFFFFFF
           ∧ d.chain = { s.dev.chain with ppsSince := none } ∧ (∀ k : Base, k ≠ b → d.base k = s.dev.base k)
           ∧ (s.dev.baseSrc b = 1 → s.dev.on (NETT_CTRL_EN b) = true → (s.dev.base b).used = true → s.dev.baseState b = 2 → d.baseState b = 3)
           ∧ Dev.withFault [NET_FLAGS, NETT_STATE b, NETT_RATE b] { s.dev with chain := d.chain, bases := d.bases } d)

/-- While PORST_N is high and no reaction waits: a misaligned access on the host SPI or JTAG is an error and changes
nothing else; an aligned one on a path that is not held, to a clock domain that runs, is performed: the Creel window
reads and writes the Creel, but for the mailboxes, which are not written; a register read returns its value and
clears its RC fields; an undefined offset reads 0 and ignores writes. An access that needs a stopped clock waits,
and all later ones of its path. Where the rules admit more than one reading it states the model's (log entries 6, 7
and 25). (R10, R11, R13, R36, R43, R45, R49) -/
def Obligations.RegisterAccesses : Prop :=
  ∀ (p : Path) (a w : Word) (s : State), s.dev.start.porstLow = false → s.dev.calm →
    (s.dev.pathHeld p = false → s.dev.reachable p a.toNat = true → a.toNat % 4 ≠ 0 →
         exec (.registerWrite p a w) s = .next { s with dev := answer p 2 0 s.dev }
           ∧ exec (.registerReadClear p a) s = .next { s with dev := answer p 2 0 s.dev })
    ∧ (s.dev.pathHeld p = false → s.dev.reachable p a.toNat = true → a.toNat % 4 = 0 →
       inWindow a.toNat = true →
         exec (.registerReadClear p a) s = .next { s with dev := answer p 0 (s.dev.creelNat (a.toNat - 0x1000000) 4) s.dev }
           ∧ exec (.registerWrite p a w) s = 
               .next { s with dev := answer p 0 0 (if a.toNat < 0x2FE0000 then s.dev.setCreelBytes (a.toNat - 0x1000000) (leBytes 4 w.toNat) else s.dev) })
    ∧ (s.dev.pathHeld p = false → s.dev.reachable p a.toNat = true → a.toNat % 4 = 0 →
       inWindow a.toNat = false → rowAt a.toNat = none → a.toNat ≥ 0x160000 →
         exec (.registerReadClear p a) s = .next { s with dev := answer p 0 0 s.dev }
           ∧ exec (.registerWrite p a w) s = .next { s with dev := answer p 0 0 s.dev })
    ∧ (s.dev.pathHeld p = false → s.dev.reachable p a.toNat = true → a.toNat % 4 = 0 →
       inWindow a.toNat = false →
         exec (.registerReadClear p a) s =
           .next { s with dev := answer p 0 (viewReg false a.toNat s.dev) (readClear a.toNat s.dev) })
    ∧ ((s.dev.pathHeld p || !s.dev.reachable p a.toNat) = true →
         exec (.registerWrite p a w) s = 
               .next { s with dev := answer p 1 0 { s.dev with mgm := { s.dev.mgm with held := s.dev.mgm.held ++ [⟨p, true, a.toNat, w.toNat⟩] } } }
           ∧ exec (.registerReadClear p a) s = 
               .next { s with dev := answer p 1 0 { s.dev with mgm := { s.dev.mgm with held := s.dev.mgm.held ++ [⟨p, false, a.toNat, 0⟩] } } })

/-- While PORST_N is high and no reaction waits, for an aligned access by a free path to a running domain, to a register
without an effect of its own and not locked: RW and RWL bits take the written value, W1C bits written 1 clear, W1S
bits written 1 set, all other bits in force stand, and RWS bits wait; a read returns RC bits as they were and leaves
them at their reset value. Where the rules admit more than one reading it states the model's (log entries 11 and
12). (R13, R14, R16) -/
def Obligations.AccessCodes : Prop :=
  ∀ (p : Path) (a w : Word) (r : RegRow) (s : State), s.dev.start.porstLow = false → s.dev.calm →
    s.dev.pathHeld p = false → s.dev.reachable p a.toNat = true → a.toNat % 4 = 0 →
    inWindow a.toNat = false → rowAt a.toNat = some r →
    (writeReg a.toNat w.toNat s.dev = plainWrite a.toNat w.toNat s.dev →
       lockHeld r.lock a.toNat s.dev = false →
         ∃ d, exec (.registerWrite p a w) s = .next { s with dev := d }
           ∧ (∀ i, i < 32 → bit (d.reg a.toNat) i =
               if bit r.rw i || bit r.rwl i then bit w.toNat i
               else if bit r.w1c i then bit (s.dev.reg a.toNat) i && !bit w.toNat i
               else if bit r.w1s i then bit (s.dev.reg a.toNat) i || bit w.toNat i
               else bit (s.dev.reg a.toNat) i)
           ∧ (∀ i, i < 32 → bit r.rws i = true → bit (d.written a.toNat) i = bit w.toNat i)
           ∧ Dev.regsOnly [a.toNat] { s.dev with shadow := d.shadow, mgm := d.mgm } d)
    ∧ (r.rws = 0 →
         ∃ d, exec (.registerReadClear p a) s = .next { s with dev := d }
           ∧ d.mgm = (answer p 0 (viewNow a.toNat s.dev) s.dev).mgm
           ∧ (∀ i, i < 32 → bit (d.reg a.toNat) i = if bit r.rc i then bit r.reset i else bit (s.dev.reg a.toNat) i)
           ∧ Dev.regsOnly [a.toNat] { s.dev with mgm := d.mgm } d)

/-- For a register without an effect of its own whose fields are all RWS: after a write, and after a second write of the
same register before its boundary, a read on a free path to its running domain returns the value last written; the
value in force has not changed; and at the boundary the last value, and only it, comes into force. (R15) -/
def Obligations.LastValueWritten : Prop :=
  ∀ (p : Path) (a v w : Word) (r : RegRow) (s t u : State), s.dev.start.porstLow = false → s.dev.calm →
    p ≠ .chain → s.dev.pathHeld p = false → a.toNat % 4 = 0 → inWindow a.toNat = false →
    s.dev.reachable p a.toNat = true → rowAt a.toNat = some r → r.rws ≠ 0 → r.rw = 0 → r.rwl = 0 →
    r.w1c = 0 → r.w1s = 0 → writeReg a.toNat v.toNat s.dev = plainWrite a.toNat v.toNat s.dev →
    writeReg a.toNat w.toNat t.dev = plainWrite a.toNat w.toNat t.dev →
    exec (.registerWrite p a v) s = .next t → exec (.registerWrite p a w) t = .next u →
    u.dev.reg a.toNat = s.dev.reg a.toNat
      ∧ (∃ d, exec (.registerReadClear p a) u = .next { u with dev := d }
        ∧ ∀ i, i < 32 → bit r.rws i = true → bit (if p = .jtag then d.mgm.jtagData else d.mgm.hostData) i = bit w.toNat i)
      ∧ ∀ i, i < 32 → bit ((u.dev.commit r.boundary a.toNat (a.toNat + 4)).reg a.toNat) i =
          if bit r.rws i then bit w.toNat i else bit (s.dev.reg a.toNat) i

/-- While FAB runs, no reaction waits and both chain ports are busy, the request at the head of a receive bobbin of an
addressed device whose path is free: READ and WRITE of words of the Creel window reply with what the Creel holds and
with the number written, and a write changes just those bytes; a READ of one register replies with its value;
IDENTITY replies with the identity words; an undefined OP replies with STATUS 2, or 4 where too short. Where the
rules admit more than one reading it states the model's (log entry 25). (R43, R484, R486) -/
def Obligations.ManagementRequests : Prop :=
  ∀ (p : Port) (f : Frame) (rest : List Frame) (n a : Nat) (s : State), s.dev.runs domFab = true →
    s.dev.calm → s.dev.pathHeld .chain = false → (s.dev.cport p).rxQ = f :: rest → f.kind = 1 →
    (s.dev.cport 0).sending.isSome = true → (s.dev.cport 1).sending.isSome = true → n = leAt f.payload 1 1 →
    a = leAt f.payload 4 4 →
    (mgmtOp f.payload = some 1 → s.dev.on NET_STATUS_ADDR_VALID = true → 8 ≤ f.payload.length → 1 ≤ n →
       n ≤ 64 → 0x1000000 ≤ a → a + 4 * n ≤ 0x3000000 → a % 4 = 0 →
         ∃ d, exec (.mgmtRead p) s = .next { s with dev := d } ∧ (d.cport p).rxQ = rest
           ∧ (d.cport s.dev.upstream).ownQ = (s.dev.cport s.dev.upstream).ownQ ++ [⟨.own, 1, 0, s.dev.srcAddr, 0, f.seqNo, wordsBytes
               ([0x81 + n * 256, a] ++ (List.range n).map fun i => s.dev.creelNat (a - 0x1000000 + 4 * i) 4), .none⟩]
           ∧ Dev.withEvent [CRLB_RD (64 + p.val), CRLB_FILL (64 + p.val), CRLB_STATUS (64 + p.val), CRL_EVT_BOBBIN] { s.dev with chain := d.chain } d)
    ∧ (mgmtOp f.payload = some 1 → s.dev.on NET_STATUS_ADDR_VALID = true → 8 ≤ f.payload.length → n = 1 →
       a < 0x160000 → a % 4 = 0 → s.dev.reachable .chain a = true →
         exec (.mgmtRead p) s = 
           .next { s with dev := sendReply 1 f.seqNo (wordsBytes [0x181, a, viewReg false a (takeFrame p s.dev)]) (readClear a (takeFrame p s.dev)) })
    ∧ (mgmtOp f.payload = some 2 → s.dev.on NET_STATUS_ADDR_VALID = true → 8 + 4 * n ≤ f.payload.length →
       1 ≤ n → n ≤ 64 → 0x1000000 ≤ a → a + 4 * n ≤ 0x2FE0000 → a % 4 = 0 →
         ∃ d, exec (.mgmtWrite p) s = .next { s with dev := d } ∧ (d.cport p).rxQ = rest
           ∧ (d.cport s.dev.upstream).ownQ = (s.dev.cport s.dev.upstream).ownQ ++ [⟨.own, 1, 0, s.dev.srcAddr, 0, f.seqNo, wordsBytes ([0x82 + n * 256, a]), .none⟩]
           ∧ d.creelBytes (a - 0x1000000) (4 * n) = (f.payload.drop 8).take (4 * n)
           ∧ sameOutside ramDefault (a - 0x1000000) (4 * n) s.dev.creel d.creel
           ∧ Dev.withEvent [CRLB_RD (64 + p.val), CRLB_FILL (64 + p.val), CRLB_STATUS (64 + p.val), CRL_EVT_BOBBIN]
               { s.dev with chain := d.chain, creel := d.creel } d)
    ∧ (mgmtOp f.payload = some 3 →
         ∃ d, exec (.mgmtIdentity p) s = .next { s with dev := d } ∧ (d.cport p).rxQ = rest
           ∧ (d.cport s.dev.upstream).ownQ = (s.dev.cport s.dev.upstream).ownQ ++ [⟨.own, 1, 0, s.dev.srcAddr, 0, f.seqNo, wordsBytes ([0x883, a] ++ s.dev.identity), .none⟩]
           ∧ Dev.withEvent [CRLB_RD (64 + p.val), CRLB_FILL (64 + p.val), CRLB_STATUS (64 + p.val), CRL_EVT_BOBBIN] { s.dev with chain := d.chain } d)
    ∧ (mgmtOp f.payload ≠ some 1 → mgmtOp f.payload ≠ some 2 → mgmtOp f.payload ≠ some 3 →
         ∃ d, exec (.mgmtBadOp p) s = .next { s with dev := d } ∧ (d.cport p).rxQ = rest
           ∧ (d.cport s.dev.upstream).ownQ = (s.dev.cport s.dev.upstream).ownQ
               ++ [⟨.own, 1, 0, s.dev.srcAddr, 0, f.seqNo, wordsBytes ([0x80 + (if f.payload.length < 4 then 4 else 2) * 65536, a]), .none⟩]
           ∧ Dev.withEvent [CRLB_RD (64 + p.val), CRLB_FILL (64 + p.val), CRLB_STATUS (64 + p.val), CRL_EVT_BOBBIN] { s.dev with chain := d.chain } d)

/-- While PORST_N is high and no reaction waits: DOFF_ADDR sets the readout space and address and captures DOF_STATUS;
DOFF_READ in Doff captures the word at the address and steps it, and outside Doff captures 0; MGMT with OP 1 or 2,
unless held, is the access that OP 1 reads and 2 writes; IDCODE captures version, part and maker; a boundary-scan
instruction takes its bits. Where the rules admit more than one reading it states the model's (log entries 24 and
25). (R620, R621, R622, R623) -/
def Obligations.JtagCommands : Prop :=
  ∀ (w a : Word) (op : Fin 4) (ue ext : Bool) (n : Nat) (s : State), s.dev.start.porstLow = false →
    s.dev.calm →
    (exec (.jtagDoffAddr w) s = .next { s with dev := { s.dev with dof := { s.dev.dof with
             space := w.toNat / 2 ^ 30 % 4, addr := w.toNat % 2 ^ 30, capture := s.dev.reg DOF_STATUS } } }
         ∧ exec (.jtagBoundaryScan ext n) s = .next { s with dev := { s.dev with dof := { s.dev.dof with boundary := n, extest := ext } } }
         ∧ exec .jtagIdcode s = .next { s with dev := { s.dev with dof := { s.dev.dof with
             capture := devWord 2 / 256 % 16 * 2 ^ 28 + s.dev.get DEV_ID0_PART * 2 ^ 12 + Config.jtagMaker.toNat * 2 + 1 } } })
    ∧ (s.dev.dof.active = false →
         exec (.jtagDoffRead ue) s = .next { s with dev := { s.dev with dof := { s.dev.dof with capture := 0 } } })
    ∧ (s.dev.dof.active = true →
         ∃ d, exec (.jtagDoffRead ue) s = .next { s with dev := d } ∧ d.dof =
             { s.dev.dof with capture := s.dev.doffWord s.dev.dof.space s.dev.dof.addr, addr := (s.dev.dof.addr + 1) % 2 ^ 30 }
           ∧ ((s.dev.dof.space ≠ 0 ∨ ue = false) → d.reg DOF_UE = s.dev.reg DOF_UE)
           ∧ (s.dev.dof.space = 0 → s.dev.dof.addr < 8388608 → ue = true → d.reg DOF_UE = min (s.dev.reg DOF_UE + 1) 0xFFFFFFFF)
           ∧ Dev.regsOnly [DOF_UE] { s.dev with dof := d.dof } d)
    ∧ (s.dev.pathHeld .jtag = false →
         (op.val = 0 ∨ op.val = 3 → exec (.jtagMgmt op a w) s = .next s)
           ∧ (op.val = 1 → s.dev.reachable .jtag a.toNat = true → a.toNat % 4 = 0 → exec (.jtagMgmt op a w) s =
               .next { s with dev := answer .jtag 0 (accessWord false a.toNat w.toNat s.dev).1 (accessWord false a.toNat w.toNat s.dev).2 })
           ∧ (op.val = 2 → inWindow a.toNat = true → s.dev.reachable .jtag a.toNat = true → a.toNat % 4 = 0 → a.toNat < 0x2FE0000 →
               exec (.jtagMgmt op a w) s =
               .next { s with dev := answer .jtag 0 0 (s.dev.setCreelBytes (a.toNat - 0x1000000) (leBytes 4 w.toNat)) }))

/-- While AON runs and no reaction waits: a round in which all 24 sensors read and none is failed or fails its check
shows each reading as read and as used, their maximum and the greatest seen, takes one round of each threshold
against its level, shows the level that they give, switches to fast mode within 4 °C under THROTTLE, and shows the
island voltages; SHUTDOWN once above latches. 20 µs after shutdown every clock but that of AON stops. Writing
THM_FAILED clears the failed state and the count of the sensors written 1. Where the rules admit more than one
reading it states the model's (log entry 57). (R551, R552, R553, R554, R555, R556, R557, R561, R616) -/
def Obligations.ThermalRounds : Prop :=
  ∀ (v : List Int) (mv : List Nat) (m : Int) (w : Word) (s : State), s.dev.runs domAon = true → s.dev.calm →
    (v.length = 24 → mv.length = 6 → (∀ x ∈ v, -32768 ≤ x ∧ x ≤ 32767) → s.dev.reg THM_FAILED = 0 →
       (∀ k, k < 24 → checkFails 0 (fun j => v.getD j 0) k = false) → m = v.foldl max (v.getD 0 0) →
         ∃ d, exec (.thermalRound (v.map some) mv) s = .next { s with dev := d }
           ∧ (∀ k, k < 24 → d.reg (THM_TS k) = wrapN 16 (v.getD k 0) * 65537)
           ∧ d.reg THM_TMAX = wrapN 16 m ∧ d.reg THM_MAX_SEEN = wrapN 16 (max m (sx 16 (s.dev.reg THM_MAX_SEEN)))
           ∧ d.thm.warn = s.dev.thm.warn.round m s.dev.warnLevel ∧ d.thm.throttle = s.dev.thm.throttle.round m s.dev.throttleLevel
           ∧ d.thm.shutdown = s.dev.thm.shutdown.round m 7040 ∧ d.thm.shut = (s.dev.thm.shut || d.thm.shutdown.above)
           ∧ d.get THM_STATUS_LEVEL = (if d.thm.throttle.above || d.thm.shutdown.above then 2 else if d.thm.warn.above then 1 else 0)
           ∧ (s.dev.throttleLevel - 256 ≤ m → d.on THM_STATUS_FAST = true)
           ∧ (∀ k, k < 6 → d.reg (CLK_ISL k) = mv.getD k 0 % 65536)
           ∧ Dev.frame [.thm, .ev, .wal, .flt, .dof, .mpl, .isp] [0, 1, 2, 13, 17, 18] s.dev d)
    ∧ (s.dev.thm.shut = true → s.dev.thm.stopped = false →
         exec .shutdownClockStop s = .next { s with dev :=
             { ((s.dev.setReg CLK_LIVE 1).setReg CLK_LANE_LIVE 0) with thm := { s.dev.thm with stopped := true } } })
    ∧ (∃ d, exec (.thmFailedClear w) s = .next { s with dev := d }
         ∧ (∀ k : Fin 24, bit (d.reg THM_FAILED) k.val = (bit (s.dev.reg THM_FAILED) k.val && !bit w.toNat k.val)
           ∧ vat d.thm.fails k = if bit w.toNat k.val then 0 else vat s.dev.thm.fails k)
         ∧ d.thm = { s.dev.thm with fails := d.thm.fails } ∧ Dev.regsOnly [THM_FAILED] { s.dev with thm := d.thm } d)

/-- While AON runs and no reaction waits: a lost clock clears its live bit only and raises E16, at once or, with the
fabric clock itself lost, when it returns; a clock that returns sets its bit, raises E17, and counts the entries
discarded, but for domains of DRAM and flash data; a PLL that loses lock or locks shows it, the loss raising E19. A
trigger of Doff captures T0, the last report and the Treadle state, closes the gate, and raises E248; a later one is
only counted; the freeze stops every clock but AON and the pins. Where the rules admit more than one reading it
states the model's (log entries 21, 22 and 60). (R611, R612, R613, R614, R617, R618, R625) -/
def Obligations.ClocksAndDoff : Prop :=
  ∀ (e : Fin 35) (n : Nat) (p : Fin 5) (q : Fin 7) (t : DoffTrigger) (s : State), s.dev.runs domAon = true →
    s.dev.calm →
    (e.val ≠ 0 → s.dev.live e.val = true →
         ∃ d, exec (.clockLost e) s = .next { s with dev := d }
           ∧ d.live e.val = false ∧ (∀ k : Fin 35, k ≠ e → d.live k.val = s.dev.live k.val)
           ∧ (d.fabRuns = true → d.pends 16)
           ∧ (d.fabRuns = false → d.ev.crossing = s.dev.ev.crossing ++ [(16, 0xFF, 0, none)]
               ∧ Dev.regsOnly [CLK_LIVE, CLK_LANE_LIVE] { s.dev with ev := d.ev } d)
           ∧ Dev.withEvent [CLK_LIVE, CLK_LANE_LIVE] s.dev d)
    ∧ (s.dev.live e.val = false → s.dev.fabRuns = true → s.dev.thm.stopped = false → s.dev.dof.frozen = false →
       s.dev.mgm.held = [] → s.dev.mgm.chain = [] →
         ∃ d, exec (.clockReturn e n) s = .next { s with dev := d } ∧ d.live e.val = true ∧ d.pends 17
           ∧ (∀ k : Fin 35, k ≠ e → d.live k.val = s.dev.live k.val)
           ∧ (n = 0 ∨ e.val ∈ [10, 11, 14] → Dev.withEvent [CLK_LIVE, CLK_LANE_LIVE] s.dev d)
           ∧ (n ≠ 0 → e.val ∉ [10, 11, 14] → d.reg CLK_FLUSH_COUNT = min (s.dev.reg CLK_FLUSH_COUNT + n) 0xFFFFFFFF
               ∧ d.reg CLK_FLUSH_LAST = e.val * 65536 + min n 0xFFFF ∧ d.on CLK_FLAGS_CDC_FLUSH = true
               ∧ (s.dev.ev.cdcSeen = false → d.pends 18 ∧ s.dev.detects 0x8A 0xFF d)
               ∧ Dev.withFault [CLK_LIVE, CLK_LANE_LIVE, CLK_FLUSH_COUNT, CLK_FLUSH_LAST, CLK_FLAGS] s.dev d))
    ∧ (bit (s.dev.reg CLK_PLL) p.val = true → s.dev.fabRuns = true →
         ∃ d, exec (.pllLoss p) s = .next { s with dev := d } ∧ d.reg CLK_PLL = setBit (s.dev.reg CLK_PLL) p.val false
           ∧ d.on CLK_FLAGS_PLL_LOSS = true ∧ d.pends 19 ∧ Dev.withEvent [CLK_PLL, CLK_FLAGS] s.dev d)
    ∧ ((q.val < 5 → exec (.pllRelock q) s = .next { s with dev := s.dev.setReg CLK_PLL (setBit (s.dev.reg CLK_PLL) q.val true) })
         ∧ (q.val = 5 → exec (.pllRelock q) s = .next { s with dev := s.dev.put LNK_STATUS_S_PLL_LOCK 1 })
         ∧ (q.val = 6 → (∀ u : Fin 19, vat s.dev.flt.recovery u = none) → exec (.pllRelock q) s =
             .next { s with dev := s.dev.put LNK_STATUS_C_PLL_LOCK 1 }))
    ∧ ((t = .pin ∧ s.dev.on DOF_CTRL_PIN_EN = true ∨ t = .command 0xD0FF0001) → s.dev.dof.active = false →
       s.dev.fabRuns = true → s.dev.trdState ≠ 5 →
         ∃ d, exec (.doffTrigger t) s = .next { s with dev := d } ∧ d.dof.active = true ∧ d.flt.gateOpen = false
           ∧ d.reg DOF_STATUS = (if t = .pin then 1 else 2) * 16 + 1
           ∧ d.reg DOF_SNAP_SEC = s.dev.t0.sec % 2 ^ 32 ∧ d.reg DOF_SNAP_NS = s.dev.t0.ns % 2 ^ 32
           ∧ d.reg DOF_SNAP_FAULT = s.dev.reg EVT_FLT_LAST ∧ d.reg DOF_SNAP_TRD = s.dev.reg TRD_STATE
           ∧ d.pends 248 ∧ s.dev.detects 0x8B 0xFF d
           ∧ (s.dev.get DEV_LC_IN_FORCE = 2 → d.sec.keys = Vector.replicate 16 none ∧ d.on SEC_STATUS_WIPING = true)
           ∧ Dev.frame [.dof, .ev, .wal, .flt, .mpl, .sht, .drc, .sec, .trd] [0, 2, 4, 8, 18, 19, 20, 21] s.dev d)
    ∧ (s.dev.dof.active = true → s.dev.on DOF_CTRL_PIN_EN = true →
         ∃ d, exec (.doffTrigger .pin) s = .next { s with dev := d }
           ∧ d.get DOF_STATUS_LATER = min (s.dev.get DOF_STATUS_LATER + 1) 0xFFFF ∧ Dev.regsOnly [DOF_STATUS] s.dev d)
    ∧ (s.dev.dof.active = true → s.dev.dof.frozen = false →
         exec .doffFreeze s = .next { s with dev :=
             { (((s.dev.setReg CLK_LIVE (Nat.land (s.dev.reg CLK_LIVE) 0x10001)).setReg CLK_LANE_LIVE 0).put DOF_STATUS_FROZEN 1) with
               dof := { s.dev.dof with frozen := true } } })

/-- While the flash clock runs and no reaction waits: the scan takes OP_TIME and POWER_CYCLES from the newest valid
record, the latter plus 1 after PORST_N, puts the BOOT record ahead of all that is staged, and raises E240; a staged
record that may be written is programmed, in the next sector if the current one is full, takes the next SEQ and
leaves staging; an erase due blanks the sector after the current one; a failure counts and skips a sector and raises
LOG_FLASH, the third in a row stops the log. Nothing else in the flash changes. Where the rules admit more than one
reading it states the model's (log entry 59). (R594, R595, R596, R597, R590) -/
def Obligations.LogWriting : Prop :=
  ∀ (r : LogRec) (rest : List LogRec) (s : State), s.dev.runs domXspi = true → s.dev.calm →
    (s.dev.on WAL_CTRL_EN = true → s.dev.wal.ready = false → s.dev.logSectors ≠ 0 → s.dev.wal.staged = rest →
         ∃ d, exec .logScan s = .next { s with dev := d }
           ∧ d.reg WAL_OP_TIME = ((s.dev.lastTimes.getD (0, 1)).1 + s.dev.reg WAL_OP_TIME) % 2 ^ 32
           ∧ d.reg WAL_POWER_CYCLES = ((s.dev.lastTimes.getD (0, 1)).2
               + (if s.dev.lastTimes.isSome && s.dev.on DEV_RESET_CAUSE_PORST then 1 else 0)) % 2 ^ 32
           ∧ d.reg WAL_LAST_SEQ = s.dev.newestSeq.getD 0 % 2 ^ 32 ∧ d.reg WAL_FIRST_SEQ = s.dev.oldestSeq.getD 0 % 2 ^ 32
           ∧ d.reg WAL_SECTORS = s.dev.logSectors % 65536
           ∧ d.wal.ready = true ∧ (d.wal.staged.head?.map fun (x : LogRec) => (x.kind, x.ref, x.payload)) =
               some (6, s.dev.reg DEV_RESET_CAUSE, [s.dev.reg DEV_LC, s.dev.reg DEV_STATE, s.dev.reg DEV_IMG_FAIL, d.reg WAL_TORN])
           ∧ d.pends 240
           ∧ Dev.withEvent [WAL_OP_TIME, WAL_POWER_CYCLES, WAL_LAST_SEQ, WAL_FIRST_SEQ, WAL_SECTORS, WAL_TORN] s.dev d)
    ∧ (s.dev.wal.staged = r :: rest → s.dev.wal.ready = true → s.dev.logHeld = false →
       s.dev.wal.offset + r.len ≤ sectorSize →
       (∀ k, k < r.len → sget flashDefault s.dev.flash (sectorAddr s.dev.wal.sector + s.dev.wal.offset + k) = 0xFF) →
         ∃ d, exec .logRecordProgrammed s = .next { s with dev := d }
           ∧ d.reg WAL_LAST_SEQ = (s.dev.reg WAL_LAST_SEQ + 1) % 2 ^ 32
           ∧ d.flashBytes (sectorAddr s.dev.wal.sector + s.dev.wal.offset) r.len = r.bytes ((s.dev.reg WAL_LAST_SEQ + 1) % 2 ^ 32)
           ∧ sameOutside flashDefault (sectorAddr s.dev.wal.sector + s.dev.wal.offset) r.len s.dev.flash d.flash
           ∧ d.wal.sector = s.dev.wal.sector ∧ d.wal.offset = s.dev.wal.offset + r.len ∧ d.wal.fails = 0
           ∧ (r.kind ≠ 5 → d.wal.staged = rest)
           ∧ (r.kind = 5 → d.pends 228 ∧ d.on TRM_STATUS_SAVE_BUSY = false)
           ∧ Dev.withEvent [WAL_LAST_SEQ, WAL_FIRST_SEQ, TRM_STATUS] { s.dev with flash := d.flash } d)
    ∧ (s.dev.wal.staged = r :: rest → s.dev.wal.ready = true → s.dev.logHeld = false →
       s.dev.wal.offset + r.len > sectorSize → s.dev.wal.nextErased = true → r.len + 32 ≤ sectorSize →
       (∀ k, k < r.len + 32 → sget flashDefault s.dev.flash (sectorAddr s.dev.nextSector + k) = 0xFF) →
         ∃ d, exec .logRecordProgrammed s = .next { s with dev := d }
           ∧ d.flashBytes (sectorAddr s.dev.nextSector) (32 + r.len) =
               sectorHead ((s.dev.wal.sectorSeq + 1) % 2 ^ 32) ((s.dev.reg WAL_LAST_SEQ + 1) % 2 ^ 32)
                 ++ r.bytes ((s.dev.reg WAL_LAST_SEQ + 1) % 2 ^ 32)
           ∧ sameOutside flashDefault (sectorAddr s.dev.nextSector) (32 + r.len) s.dev.flash d.flash
           ∧ d.wal.sector = s.dev.nextSector ∧ d.wal.offset = 32 + r.len ∧ d.wal.nextErased = false
           ∧ d.reg WAL_LAST_SEQ = (s.dev.reg WAL_LAST_SEQ + 1) % 2 ^ 32)
    ∧ (s.dev.eraseDue = true → s.dev.logHeld = false →
         ∃ d, exec .logSectorErase s = .next { s with dev := d }
           ∧ d.flashBytes (sectorAddr s.dev.nextSector) sectorSize = List.replicate sectorSize 0xFF
           ∧ sameOutside flashDefault (sectorAddr s.dev.nextSector) sectorSize s.dev.flash d.flash
           ∧ d.wal = { s.dev.wal with nextErased := true, fails := 0, read := d.wal.read }
           ∧ d.reg WAL_FIRST_SEQ = d.oldestSeq.getD (s.dev.reg WAL_FIRST_SEQ) % 2 ^ 32
           ∧ Dev.regsOnly [WAL_FIRST_SEQ] { s.dev with flash := d.flash, wal := d.wal } d)
    ∧ (s.dev.wal.ready = true → s.dev.logHeld = false → (s.dev.eraseDue = true ∨ s.dev.wal.staged ≠ []) →
         ∃ d, exec .logFlash s = .next { s with dev := d } ∧ d.on WAL_FLAGS_FLASH_ERR = true ∧ s.dev.detects 0x89 0xFF d
           ∧ d.get WAL_SECTORS_BAD = min (s.dev.get WAL_SECTORS_BAD + 1) 0xFFFF
           ∧ d.wal.badSectors = (if s.dev.eraseDue then s.dev.nextSector else s.dev.wal.sector) :: s.dev.wal.badSectors
           ∧ d.wal.fails = s.dev.wal.fails + 1
           ∧ (s.dev.wal.fails = 2 → d.on WAL_FLAGS_STOPPED = true) ∧ (s.dev.on WAL_FLAGS_FLASH_ERR = false → d.pends 242)
           ∧ (s.dev.wal.fails = 2 → s.dev.on WAL_FLAGS_STOPPED = false → d.pends 243)
           ∧ Dev.withFault [WAL_SECTORS, WAL_FLAGS, TRM_STATUS, TRM_FLAGS] s.dev d)

/-- While FAB runs and no reaction waits: a record that staging cannot take is counted in WAL_DROPS and in the count of
the LOST record for its cause, and opens a run with DROP, E241 and LOG_DROP; after OP_INT minutes an HOURS record is
staged; LOAD shows the words of the record held at or after the SEQ asked for, its own SEQ, and a RESULT of OK, GAP
or CRC, or NONE where there is no such record. Where the rules admit more than one reading it states the model's
(log entry 59). (R591, R595, R599, R601) -/
def Obligations.LogStagingAndLoad : Prop :=
  ∀ (c : Fin 3) (a len n : Nat) (good : Bool) (s : State), s.dev.runs domFab = true → s.dev.calm →
    (c.val ≠ 1 →
       (c.val = 0 → s.dev.logReserve < stagedBytes s.dev.wal.staged ∨ s.dev.logCapacity < stagedBytes s.dev.wal.staged + 64) →
       (c.val = 2 → s.dev.wal.fails = 3 ∧ s.dev.logCapacity < stagedBytes s.dev.wal.staged + 64) →
       s.dev.on (EVT_CFG_LOG 241) = false →
         ∃ d, exec (.logDrop c) s = .next { s with dev := d } ∧ d.reg WAL_DROPS = min (s.dev.reg WAL_DROPS + 1) 0xFFFFFFFF
           ∧ d.wal = { s.dev.wal with dropRun := true, lost := (s.dev.wal.lost.1 + (if c.val = 0 then 1 else 0),
               s.dev.wal.lost.2.1, s.dev.wal.lost.2.2 + (if c.val = 2 then 1 else 0)) }
           ∧ (s.dev.wal.dropRun = false → d.pends 241 ∧ d.on WAL_FLAGS_DROP = true
               ∧ d.reg (EVT_FLT_COUNT 0x88) = min (s.dev.reg (EVT_FLT_COUNT 0x88) + 1) 0xFFFFFFFF)
           ∧ Dev.withEvent [] s.dev d)
    ∧ (s.dev.earlyLog = false → s.dev.wal.staged ≠ [] → s.dev.wal.dropRun = true →
         ∃ d, exec (.logDrop 1) s = .next { s with dev := d } ∧ d.reg WAL_DROPS = min (s.dev.reg WAL_DROPS + 1) 0xFFFFFFFF
           ∧ d.wal.lost = (s.dev.wal.lost.1, s.dev.wal.lost.2.1 + 1, s.dev.wal.lost.2.2) ∧ d.wal.staged = s.dev.wal.staged.drop 1
           ∧ Dev.regsOnly [WAL_DROPS, WAL_STAGED] { s.dev with wal := d.wal } d)
    ∧ (s.dev.get WAL_OP_INT_OP_INT ≠ 0 → s.dev.get WAL_OP_INT_OP_INT * 60 ≤ s.dev.wal.sinceHours →
       s.dev.wal.lost = (0, 0, 0) → stagedBytes s.dev.wal.staged + 64 ≤ s.dev.logReserve →
       stagedBytes s.dev.wal.staged + 64 ≤ s.dev.logCapacity →
         ∃ d, exec .hoursRecord s = .next { s with dev := d }
           ∧ d.wal = { s.dev.wal with
               sinceHours := s.dev.wal.sinceHours - s.dev.get WAL_OP_INT_OP_INT * 60, dropRun := false, above := false,
               staged := s.dev.wal.staged ++ [s.dev.logRec 10 0 [] false] }
           ∧ Dev.regsOnly [WAL_STAGED] { s.dev with wal := d.wal } d)
    ∧ (s.dev.wal.ready = true → s.dev.recordAt (s.dev.reg WAL_RD_SEQ) = some (a, len, n, good) →
         ∃ d, exec .logLoad s = .next { s with dev := d } ∧ d.reg WAL_RD_LOADED = n % 2 ^ 32
           ∧ d.reg WAL_RD_STAT = (len * 65536 + (if !good then 3 else if n = s.dev.reg WAL_RD_SEQ then 0 else 1) * 4) % 2 ^ 32
           ∧ (∀ i, i < 512 → d.reg (WAL_RD_BUF i) = (bytesWords (s.dev.flashBytes a len)).getD i 0 % 2 ^ 32)
           ∧ Dev.regsOnly ([WAL_RD_LOADED, WAL_RD_STAT] ++ (List.range 512).map WAL_RD_BUF) s.dev d)
    ∧ ((s.dev.wal.ready = true → s.dev.recordAt (s.dev.reg WAL_RD_SEQ) = none) →
         exec .logLoad s = .next { s with dev := s.dev.setReg WAL_RD_STAT 8 })

/-- While FAB runs, no reaction waits and both chain ports are busy, the LOG frame at the head of a receive bobbin once
the log is ready: a READ of a number of records that fit in one frame, the first not older than any held, replies
with them and ends with E244; ABORT ends a running READ with E244; INFO replies with the five words; an undefined OP
replies BAD_OP. Where the rules admit more than one reading it states the model's (log entry 59). (R602) -/
def Obligations.LogRequests : Prop :=
  ∀ (p : Port) (f : Frame) (rest : List Frame) (l : List FlashRec) (s : State), s.dev.runs domFab = true →
    s.dev.calm → (s.dev.cport p).rxQ = f :: rest → f.kind = 4 → (s.dev.cport 0).sending.isSome = true →
    (s.dev.cport 1).sending.isSome = true →
    (leAt f.payload 0 1 = 1 → s.dev.wal.ready = true → s.dev.wal.read = none →
       seqLater (s.dev.reg WAL_FIRST_SEQ) (leAt f.payload 4 4) = false →
       (l = fillFrame (s.dev.reg WAL_LAST_SEQ) (s.dev.flashRecords.dropWhile fun (x : FlashRec) => seqLater (leAt f.payload 4 4) x.2.2.1) (leAt f.payload 8 4) 8184) →
       l.length = leAt f.payload 8 4 → l ≠ [] →
         ∃ d, exec (.logRead p) s = .next { s with dev := d } ∧ (d.cport p).rxQ = rest ∧ (d.cport p).ownQ = (s.dev.cport p).ownQ
               ++ [⟨.own, 4, 0, s.dev.srcAddr, 0, f.seqNo, leBytes 4 (65536 + 0x81) ++ (leBytes 4 l.length ++ l.flatMap fun (x : FlashRec) => s.dev.flashBytes x.1 x.2.1), .none⟩]
           ∧ d.pends 244 ∧ d.wal.read = none ∧ d.on WAL_STATUS_READOUT = false
           ∧ Dev.withEvent [CRLB_RD (64 + p.val), CRLB_FILL (64 + p.val), CRLB_STATUS (64 + p.val), CRL_EVT_BOBBIN, WAL_STATUS] { s.dev with chain := d.chain } d)
    ∧ (leAt f.payload 0 1 = 2 → s.dev.wal.ready = true → s.dev.wal.read.isSome = true →
         ∃ d, exec (.logAbort p) s = .next { s with dev := d } ∧ (d.cport p).rxQ = rest ∧ (d.cport p).ownQ = (s.dev.cport p).ownQ
               ++ [⟨.own, 4, 0, s.dev.srcAddr, 0, f.seqNo, leBytes 4 (65536 + 0x82) ++ [], .none⟩]
           ∧ d.pends 244 ∧ d.wal.read = none ∧ d.on WAL_STATUS_READOUT = false
           ∧ Dev.withEvent [CRLB_RD (64 + p.val), CRLB_FILL (64 + p.val), CRLB_STATUS (64 + p.val), CRL_EVT_BOBBIN, WAL_STATUS] { s.dev with chain := d.chain } d)
    ∧ (leAt f.payload 0 1 = 3 → s.dev.wal.ready = true →
         ∃ d, exec (.logInfo p) s = .next { s with dev := d } ∧ (d.cport p).rxQ = rest ∧ (d.cport p).ownQ = (s.dev.cport p).ownQ
               ++ [⟨.own, 4, 0, s.dev.srcAddr, 0, f.seqNo, leBytes 4 (65536 + 0x83) ++ wordsBytes [s.dev.reg WAL_FIRST_SEQ,
                 s.dev.reg WAL_LAST_SEQ, s.dev.reg WAL_SECTORS, s.dev.reg WAL_POWER_CYCLES, s.dev.reg WAL_OP_TIME], .none⟩]
           ∧ Dev.withEvent [CRLB_RD (64 + p.val), CRLB_FILL (64 + p.val), CRLB_STATUS (64 + p.val), CRL_EVT_BOBBIN] { s.dev with chain := d.chain } d)
    ∧ ((leAt f.payload 0 1 = 0 ∨ 4 < leAt f.payload 0 1) →
         ∃ d, exec (.logBadOp p) s = .next { s with dev := d } ∧ (d.cport p).rxQ = rest ∧ (d.cport p).ownQ = (s.dev.cport p).ownQ
               ++ [⟨.own, 4, 0, s.dev.srcAddr, 0, f.seqNo, leBytes 4 (65536 + 0x380) ++ [], .none⟩]
           ∧ Dev.withEvent [CRLB_RD (64 + p.val), CRLB_FILL (64 + p.val), CRLB_STATUS (64 + p.val), CRL_EVT_BOBBIN] { s.dev with chain := d.chain } d)
    ∧ (s.dev.wal.ready = false → leAt f.payload 0 1 = 3 →
         ∃ d, exec (.logInfo p) s = .next { s with dev := d } ∧ (d.cport p).rxQ = rest ∧ (d.cport p).ownQ = (s.dev.cport p).ownQ
               ++ [⟨.own, 4, 0, s.dev.srcAddr, 0, f.seqNo, leBytes 4 (65536 + 0x483) ++ [], .none⟩])

/-- While FAB runs, no reaction waits and both chain ports are busy, a LOG NOTE of 1 to 64 words that the log accepts,
and that staging has room for below the reserve, stages a record of kind NOTE whose REF is the tag of the request
and whose payload is its words, with the operating time, the T0 time and the layer of the instant at which the
request is consumed; it is acknowledged OK. (R603) -/
def Obligations.NoteStaged : Prop :=
  ∀ (p : Port) (f : Frame) (rest : List Frame) (w : List Nat) (s : State), s.dev.runs domFab = true →
    s.dev.calm → (s.dev.cport p).rxQ = f :: rest → f.kind = 4 → (s.dev.cport 0).sending.isSome = true →
    (s.dev.cport 1).sending.isSome = true →
    leAt f.payload 0 1 = 4 → s.dev.wal.ready = true → s.dev.on WAL_CTRL_NOTE_EN = true → 1 ≤ w.length →
    w.length ≤ 64 → bytesWords (f.payload.drop 8) = w → s.dev.wal.lost = (0, 0, 0) →
    stagedBytes s.dev.wal.staged + 32 * w.length + 64 ≤ min s.dev.logReserve s.dev.logCapacity →
      ∃ d, exec (.logNote p) s = .next { s with dev := d }
        ∧ d.wal.staged = s.dev.wal.staged ++ [{
            kind := 9, ref := leAt f.payload 4 4, payload := w, opTime := s.dev.reg WAL_OP_TIME,
            cycles := s.dev.reg WAL_POWER_CYCLES, tSec := s.dev.t0.sec % 2 ^ 32, tNs := s.dev.t0.ns, tq := s.dev.t0Quality,
            layer := s.dev.reg TRD_LAYER, urgent := false }]
        ∧ (d.cport p).rxQ = rest ∧ (d.cport p).ownQ = (s.dev.cport p).ownQ
            ++ [⟨.own, 4, 0, s.dev.srcAddr, 0, f.seqNo, leBytes 4 (65536 + 0x84) ++ [], .none⟩]
        ∧ Dev.withEvent [CRLB_RD (64 + p.val), CRLB_FILL (64 + p.val), CRLB_STATUS (64 + p.val), CRL_EVT_BOBBIN] { s.dev with chain := d.chain } d

/-- While FAB runs and no reaction waits: the handler that runs ends and gives way to the next; a RETIRE handler of a
station retires that station only; a HALT handler latches HALTED and aborts. A recovery that has not ended in
RECOVER_TMO is reported again, escalated. RETIRE retires the stations of EVT_FLT_ARG and reports each new one;
CLEAR_RETIRE, outside SCAN, clears the retirement and retry counts of the units of EVT_FLT_ARG; CLEAR_HALT clears
HALTED unless its cause persists. A write of EVT_PEND clears the bits written 1. Where the rules admit more than one
reading it states the model's (log entry 58). (R565, R570, R572, R573, R575, R576, R577, R578, R629) -/
def Obligations.FaultHandlers : Prop :=
  ∀ (h : Handler) (n : Station) (u : Fin 19) (rec : Recovery) (w : Word) (i : Fin 8) (s : State),
    s.dev.runs domFab = true → s.dev.calm →
    (s.dev.flt.running = some h → h.sev < 2 →
         exec .faultHandler s = .next { s with dev := { s.dev with flt := offerAgain (nextHandler (offerAgain s.dev.flt)) } })
    ∧ (s.dev.flt.running = some h → h.sev = 2 → h.inst = n.val → h.code ≠ 0x21 → h.code ≠ 0x22 →
         ∃ d, exec .faultHandler s = .next { s with dev := d }
           ∧ (∀ k, k < 19 → d.isRetired k = (s.dev.isRetired k || decide (k = n.val)))
           ∧ (s.dev.isRetired n.val = false → d.on (SHT_STATUS_RETIRED n) = true ∧ d.on EVT_FLT_FLAGS_RETIRE = true)
           ∧ (∀ k : Station, k ≠ n → vat d.sht k = vat s.dev.sht k)
           ∧ Dev.frame [.flt, .ev, .wal, .sht, .axes, .lnk, .reed, .trm, .shd, .dof, .mpl, .pins, .trd, .shadow, .free]
               [2, 5, 7, 8, 9, 10, 11, 12, 16, 18, 19, 20] s.dev d)
    ∧ (s.dev.flt.running = some h → h.sev = 3 → s.dev.trdState ≠ 8 → s.dev.shadow = [] →
         ∃ d, exec .faultHandler s = .next { s with dev := d } ∧ d.on EVT_FLT_STATUS_HALTED = true ∧ d.on EVT_FLT_FLAGS_HALT = true
           ∧ d.trdState = 8 ∧ d.flt.queue = [] ∧ d.flt.suspended = [] ∧ d.flt.offered = [] ∧ d.flt.running = none
           ∧ d.flt.haltUntilReset = (s.dev.flt.haltUntilReset || decide (h.code ∈ [0x83, 0x04, 0x8B])) ∧ d.pends 104
           ∧ Dev.frame [.flt, .ev, .wal, .sht, .axes, .trd, .pins, .shd, .dof, .mpl, .reed, .trm, .lnk, .chain]
               [2, 8, 9, 12, 18, 20, 7, 11, 16, 3] s.dev d)
    ∧ (vat s.dev.flt.recovery u = some rec →
       rec.since + max 1 (s.dev.reg EVT_FLT_RECOVER_TMO % 65536) * 2000 ≤ s.dev.grid.ticks →
         ∃ d, exec (.recoverTmo u) s = .next { s with dev := d } ∧ vat d.flt.recovery u = none
           ∧ bits (d.reg EVT_FLT_LAST) 31 24 = rec.code % 256 ∧ bits (d.reg EVT_FLT_LAST) 23 21 = 5
           ∧ bits (d.reg EVT_FLT_LAST) 7 0 = rec.inst % 256 ∧ d.on EVT_FLT_FLAGS_ESCALATED = true
           ∧ (s.dev.flt.running = none → (faultTargets rec.code rec.inst).any (fun (v : Fin 19) => !s.dev.isRetired v.val) = true →
               d.flt.running = some ⟨rec.code, 2, rec.inst, true, false, false⟩)
           ∧ Dev.withFault [] s.dev d)
    ∧ (w.toNat / 65536 = 0xFA17 →
         ∃ d, exec (.retireCmd w) s = .next { s with dev := d }
           ∧ (∀ k, k < 19 → d.isRetired k = (s.dev.isRetired k || (decide (k < 16) && bit (s.dev.reg EVT_FLT_ARG) k)))
           ∧ (∀ k : Station, bit (s.dev.reg EVT_FLT_ARG) k.val = false → vat d.sht k = vat s.dev.sht k)
           ∧ d.reg (EVT_FLT_COUNT 8) = min (s.dev.reg (EVT_FLT_COUNT 8) + ((List.finRange 16).filter fun (k : Station) =>
               bit (s.dev.reg EVT_FLT_ARG) k.val && !s.dev.isRetired k.val).length) 0xFFFFFFFF
           ∧ Dev.frame [.flt, .ev, .wal, .sht, .axes, .lnk, .reed, .trm, .shd, .dof, .mpl, .pins, .trd, .shadow, .free]
               [2, 5, 7, 8, 9, 10, 11, 12, 16, 18, 19, 20] s.dev d)
    ∧ (w.toNat / 65536 = 0xFA17 → s.dev.trdStage ≠ tScan →
         ∃ d, exec (.clearRetire w) s = .next { s with dev := d }
           ∧ (∀ k, k < 19 → d.isRetired k = (s.dev.isRetired k && !bit (s.dev.reg EVT_FLT_ARG) k))
           ∧ (∀ k : Fin 19, bit (s.dev.reg EVT_FLT_ARG) k.val = true → vat d.flt.retries k = [] ∧ d.reg (EVT_FLT_RETRIES k) = 0)
           ∧ (∀ k : Station, bit (s.dev.reg EVT_FLT_ARG) k.val = true → s.dev.isRetired k.val = true → d.on (SHT_STATUS_RETIRED k) = false)
           ∧ Dev.frame [.flt, .lnk, .ev, .wal, .dof, .mpl] [2, 5, 8, 18] s.dev d)
    ∧ (w.toNat / 65536 = 0xFA17 →
         exec (.clearHalt w) s = .next { s with dev :=
             (if s.dev.haltPersists then s.dev.put EVT_FLT_FLAGS_WRITE_LOCKED 1 else s.dev.put EVT_FLT_STATUS_HALTED 0) })
    ∧ (exec (.evtPendClear i w) s =
         .next { s with dev := s.dev.setReg (EVT_PEND i) (Nat.land (s.dev.reg (EVT_PEND i)) (0xFFFFFFFF - w.toNat)) }
         ∧ ∀ k, k < 32 → bit (Nat.land (s.dev.reg (EVT_PEND i)) (0xFFFFFFFF - w.toNat)) k =
             (bit (s.dev.reg (EVT_PEND i)) k && !bit w.toNat k))

/-- While AON and FAB run and no reaction waits: EMIT_GATE_N taken low, or SW_GATE changing from 0 to 1, closes the
gate, takes EMIT_OK low, interrupts every station, and raises EMIT_GATE once, GATE_LOW for the pin only; when the
last of them is released the time is kept, in T0; the gate opens at a period boundary once it has been high for 1
µs, and not before. Where the rules admit more than one reading it states the model's (log entry 42). (R580, R581,
R582, R583) -/
def Obligations.EmissionGate : Prop :=
  ∀ (tau : Nat) (w : Word) (s : State), s.dev.runs domAon = true → s.dev.runs domFab = true → s.dev.calm →
    (s.dev.on EVT_FLT_GATE_PIN_LOW = false →
         ∃ d, exec (.emitGate true tau) s = .next { s with dev := d } ∧ d.on EVT_FLT_GATE_PIN_LOW = true ∧ d.on EVT_FLT_FLAGS_GATE_LOW = true
           ∧ d.flt.gateOpen = false ∧ d.flt.gateHigh = none ∧ s.dev.detects 0x07 0xFF d ∧ d.emitOk = false
           ∧ d.on EVT_FLT_GATE_SW_GATE = s.dev.on EVT_FLT_GATE_SW_GATE
           ∧ Dev.frame [.flt, .ev, .wal, .sht, .dof, .mpl, .trd] [2, 18, 20] s.dev d)
    ∧ (s.dev.on EVT_FLT_GATE_SW_GATE = false → bit w.toNat 0 = true →
         ∃ d, exec (.swGate w tau) s = .next { s with dev := d } ∧ d.on EVT_FLT_GATE_SW_GATE = true
           ∧ d.get EVT_FLT_GATE_PIN_LOW = s.dev.get EVT_FLT_GATE_PIN_LOW ∧ d.get EVT_FLT_FLAGS_GATE_LOW = s.dev.get EVT_FLT_FLAGS_GATE_LOW
           ∧ d.flt.gateOpen = false ∧ d.flt.gateHigh = none ∧ s.dev.detects 0x07 0xFF d ∧ d.emitOk = false
           ∧ Dev.frame [.flt, .ev, .wal, .sht, .dof, .mpl, .trd] [2, 18, 20] s.dev d)
    ∧ (s.dev.on EVT_FLT_GATE_PIN_LOW = true →
         exec (.emitGate false tau) s = .next { s with dev :=
             { (s.dev.put EVT_FLT_GATE_PIN_LOW 0) with flt := { s.dev.flt with gateHigh := (
                 if s.dev.on EVT_FLT_GATE_SW_GATE then s.dev.flt.gateHigh
                 else if s.dev.on (NETT_CTRL_EN 0) then some (s.dev.t0.nanos + tau) else none) } } }
           ∧ exec (.emitGate true tau) s = .next s)
    ∧ (s.dev.on EVT_FLT_GATE_SW_GATE = true → bit w.toNat 0 = false →
         exec (.swGate w tau) s = .next { s with dev :=
             { (s.dev.put EVT_FLT_GATE_SW_GATE 0) with flt := { s.dev.flt with gateHigh := (
                 if s.dev.on EVT_FLT_GATE_PIN_LOW then s.dev.flt.gateHigh
                 else if s.dev.on (NETT_CTRL_EN 0) then some (s.dev.t0.nanos + tau) else none) } } })
    ∧ (s.dev.on EVT_FLT_GATE_PIN_LOW = false → s.dev.on EVT_FLT_GATE_SW_GATE = false →
       s.dev.on (NETT_CTRL_EN 0) = true → s.dev.t0.tick % 4 = 0 →
         exec .gateRelease s = .next { s with dev :=
             (if (s.dev.flt.gateHigh.all fun t => decide (t + 1000 ≤ s.dev.t0.nanos)) then
               { s.dev with flt := { s.dev.flt with gateOpen := true, gateHigh := none } }
             else s.dev) })

/-- While FAB runs, no reaction, write or key command waits, and the Treadle is enabled: a first LAYER_DATA whose header
passes the checks opens the first EMPTY slot; a later one at the offset expected appends its data; a complete file
whose tag verifies and whose picks follow R62 is decrypted into its slot, which becomes VALID, with E96; a message
of undefined type is only counted; LAYER_CANCEL takes the slot of its layer to FAILED; a FAILED slot is zeroed and
EMPTY, with E109. Where the rules admit more than one reading it states the model's (log entries 27, 28 and 29).
(R51, R54, R55, R56, R57, R58, R66, R82, R83, R84, R85) -/
def Obligations.LayerFiles : Prop :=
  ∀ (p : Port) (f : Frame) (rest : List Frame) (i : Slot) (data : List Byte) (x : LayerSlot) (s : State),
    s.dev.runs domFab = true → s.dev.calm → s.dev.shadow = [] → s.dev.sec.waiting = none →
    ((s.dev.cport p).rxQ = f :: rest → f.kind = 2 → s.dev.on TRD_CTRL_ENABLE = true →
       s.dev.get DEV_STATE_STATE ≠ 7 → leAt f.payload 0 1 = 0x10 → data = f.payload.drop 16 →
       128 ≤ data.length → leAt f.payload 12 4 = 0 →
       (∀ j : Slot, ¬ (s.dev.slotState j = 1 ∧ (vat s.dev.trd.slots j).jobId = leAt f.payload 4 4 ∧ (vat s.dev.trd.slots j).layerNo = leAt f.payload 8 4)) →
       s.dev.slotState i = 0 → (∀ j : Slot, j < i → s.dev.slotState j ≠ 0) →
       x = { LayerSlot.reset with jobId := leAt data 8 4, layerNo := leAt data 12 4, header := data.take 128 } →
       (takeFrame p s.dev).headerFault x (leAt f.payload 4 4) (leAt f.payload 8 4) = none →
         ∃ d, exec (.layerData p) s = .next { s with dev := d } ∧ (d.cport p).rxQ = rest
           ∧ d.slotState i = 1 ∧ d.trd.job = x.jobId ∧ (∀ j : Slot, j ≠ i → vat d.trd.slots j = vat s.dev.trd.slots j)
           ∧ (vat d.trd.slots i).jobId = x.jobId ∧ (vat d.trd.slots i).layerNo = x.layerNo ∧ (vat d.trd.slots i).header = x.header
           ∧ (vat d.trd.slots i).cipher = (data.drop 128).take (x.fileLen - 128)
           ∧ (x.headerStart = (0, 0) → (vat d.trd.slots i).start = none)
           ∧ Dev.frame [.trd, .chain, .ev, .wal, .flt, .dof, .mpl] [2, 3, 11, 18, 20] s.dev d)
    ∧ ((s.dev.cport p).rxQ = f :: rest → f.kind = 2 → s.dev.on TRD_CTRL_ENABLE = true →
       s.dev.get DEV_STATE_STATE ≠ 7 → leAt f.payload 0 1 = 0x10 → data = f.payload.drop 16 →
       s.dev.slotState i = 1 → (vat s.dev.trd.slots i).jobId = leAt f.payload 4 4 →
       (vat s.dev.trd.slots i).layerNo = leAt f.payload 8 4 →
       (vat s.dev.trd.slots i).next = leAt f.payload 12 4 →
       (∀ j : Slot, j < i → ¬ (s.dev.slotState j = 1 ∧ (vat s.dev.trd.slots j).jobId = leAt f.payload 4 4 ∧ (vat s.dev.trd.slots j).layerNo = leAt f.payload 8 4)) →
       x = vat s.dev.trd.slots i →
         ∃ d, exec (.layerData p) s = .next { s with dev := d } ∧ (d.cport p).rxQ = rest
           ∧ vat d.trd.slots i = { x with
               cipher := x.cipher ++ data.take (x.fileLen - x.next), next := x.next + (data.take (x.fileLen - x.next)).length }
           ∧ (∀ j : Slot, j ≠ i → vat d.trd.slots j = vat s.dev.trd.slots j)
           ∧ Dev.withEvent [CRLB_RD (64 + p.val), CRLB_FILL (64 + p.val), CRLB_STATUS (64 + p.val), CRL_EVT_BOBBIN] { s.dev with chain := d.chain, trd := d.trd } d)
    ∧ (x = vat s.dev.trd.slots i → s.dev.slotState i = 1 → x.fileLen ≤ x.next →
       vat s.dev.sec.keys ⟨x.keySlot % 16, Nat.mod_lt _ (by decide)⟩ = some data →
       gcmTag data ((x.header.drop 0x20).take 12) x.header (x.cipher.take x.bodyLen) = x.cipher.drop x.bodyLen →
       s.dev.lastNonce x < x.nonce →
       (∀ n, n < 17 → listOk x.zones x.targetCount n ((bodyLists x (gcmPlain data ((x.header.drop 0x20).take 12) (x.cipher.take x.bodyLen))).1.getD n []) = true) →
         ∃ d, exec (.layerValid i) s = .next { s with dev := d } ∧ d.slotState i = 2 ∧ d.pends 96
           ∧ d.lastNonce x = x.nonce ∧ (∀ n : Station, vat (vat d.trd.slots i).own n =
               (bodyLists x (gcmPlain data ((x.header.drop 0x20).take 12) (x.cipher.take x.bodyLen))).1.getD n.val [])
           ∧ (vat d.trd.slots i).header = x.header ∧ (vat d.trd.slots i).start = x.start
           ∧ (∀ j : Slot, j ≠ i → vat d.trd.slots j = vat s.dev.trd.slots j)
           ∧ (x.start.isSome = true → d.pends 98)
           ∧ Dev.frame [.trd, .chain, .ev, .wal, .dram, .sec, .drc, .flt, .dof, .mpl] [2, 4, 18, 20] s.dev d)
    ∧ ((s.dev.cport p).rxQ = f :: rest → f.kind = 2 → s.dev.on TRD_CTRL_ENABLE = true →
       s.dev.get DEV_STATE_STATE ≠ 7 →
       leAt f.payload 0 1 ∉ [0x10, 0x11, 0x12, 0x13, 0x14, 0x15, 0x16, 0x20, 0x21, 0x22, 0x23] →
         ∃ d, exec (.jobMessageUndefined p) s = .next { s with dev := d } ∧ (d.cport p).rxQ = rest
           ∧ d.reg TRD_BAD_MSG = min (s.dev.reg TRD_BAD_MSG + 1) 0xFFFFFFFF
           ∧ Dev.withEvent [CRLB_RD (64 + p.val), CRLB_FILL (64 + p.val), CRLB_STATUS (64 + p.val), CRL_EVT_BOBBIN, TRD_BAD_MSG] { s.dev with chain := d.chain } d)
    ∧ ((s.dev.cport p).rxQ = f :: rest → f.kind = 2 → s.dev.on TRD_CTRL_ENABLE = true →
       s.dev.get DEV_STATE_STATE ≠ 7 → leAt f.payload 0 1 = 0x16 →
       s.dev.layerSlot (leAt f.payload 4 4) (leAt f.payload 8 4) = some i → s.dev.slotState i ≠ 5 →
         ∃ d, exec (.layerCancel p) s = .next { s with dev := d } ∧ (d.cport p).rxQ = rest ∧ d.slotState i = 6
           ∧ (vat d.trd.slots i).start = none ∧ (∀ j : Slot, j ≠ i → vat d.trd.slots j = vat s.dev.trd.slots j)
           ∧ Dev.withEvent [CRLB_RD (64 + p.val), CRLB_FILL (64 + p.val), CRLB_STATUS (64 + p.val), CRL_EVT_BOBBIN, slotStatus i] { s.dev with chain := d.chain, trd := d.trd } d)
    ∧ (s.dev.slotState i = 6 →
         ∃ d, exec (.slotFree i) s = .next { s with dev := d } ∧ d.slotState i = 0 ∧ vat d.trd.slots i = LayerSlot.reset
           ∧ (∀ j : Slot, j ≠ i → vat d.trd.slots j = vat s.dev.trd.slots j)
           ∧ (∀ k, k < (vat s.dev.trd.slots i).bodyLen → sget ramDefault d.dram (s.dev.slotAddr i + k) = 0)
           ∧ sameOutside ramDefault (s.dev.slotAddr i) (vat s.dev.trd.slots i).bodyLen s.dev.dram d.dram ∧ d.pends 109
           ∧ Dev.withEvent [slotStatus i] { s.dev with trd := d.trd, dram := d.dram, chain := d.chain } d)

/-- While FAB runs, no reaction or key command waits and the Treadle is enabled: a start time that is not a period
boundary is refused, whether it comes by LAYER_SCHEDULE, by RESUME of a paused Treadle, or in the header of a layer
file: the host gets SCHED_REFUSED with E106, or the rejection of the file, and the start times held stay as they
were, so that a layer without one stays unarmed. A start time that LAYER_SCHEDULE brings into force is a period
boundary. (R25) -/
def Obligations.StartTimes : Prop :=
  ∀ (p : Port) (f : Frame) (rest : List Frame) (i : Slot) (s : State), s.dev.runs domFab = true →
    s.dev.calm → s.dev.sec.waiting = none → (s.dev.cport p).rxQ = f :: rest → f.kind = 2 →
    s.dev.on TRD_CTRL_ENABLE = true → s.dev.get DEV_STATE_STATE ≠ 7 →
    (leAt f.payload 0 1 = 0x11 → s.dev.layerSlot (leAt f.payload 4 4) (leAt f.payload 8 4) = some i →
       leAt f.payload 12 4 % 2000 ≠ 0 →
         ∃ d, exec (.layerSchedule p) s = .next { s with dev := d } ∧ d.trd = s.dev.trd ∧ d.slotArmed i = s.dev.slotArmed i
           ∧ s.dev.detects 0x34 i d ∧ d.on TRD_STATUS_SCHED_REFUSED = true ∧ d.pends 106 ∧ Dev.withFault [CRLB_RD (64 + p.val), CRLB_FILL (64 + p.val), CRLB_STATUS (64 + p.val), CRL_EVT_BOBBIN, TRD_STATUS, TRD_STATE] { s.dev with chain := d.chain } d)
    ∧ (leAt f.payload 0 1 = 0x11 → s.dev.layerSlot (leAt f.payload 4 4) (leAt f.payload 8 4) = some i →
         ∃ d, exec (.layerSchedule p) s = .next { s with dev := d }
           ∧ ((vat d.trd.slots i).start = (vat s.dev.trd.slots i).start ∨
               (vat d.trd.slots i).start = some (leAt f.payload 16 8, leAt f.payload 12 4) ∧ leAt f.payload 12 4 % 2000 = 0))
    ∧ (leAt f.payload 0 1 = 0x13 → s.dev.trdState = tPaused → s.dev.trd.resumeAt = none →
       leAt f.payload 4 4 % 2000 ≠ 0 →
         ∃ d, exec (.resume (some p)) s = .next { s with dev := d } ∧ d.trd = s.dev.trd ∧ d.trdState = tPaused
           ∧ s.dev.detects 0x34 0xFF d ∧ d.on TRD_STATUS_SCHED_REFUSED = true ∧ d.pends 106 ∧ Dev.withFault [CRLB_RD (64 + p.val), CRLB_FILL (64 + p.val), CRLB_STATUS (64 + p.val), CRL_EVT_BOBBIN, TRD_STATUS] { s.dev with chain := d.chain } d)
    ∧ (leAt f.payload 0 1 = 0x10 → leAt (f.payload.drop 16) 0x14 4 % 2000 ≠ 0 →
       128 ≤ (f.payload.drop 16).length → leAt f.payload 12 4 = 0 →
       (∀ j : Slot, ¬ (s.dev.slotState j = 1 ∧ (vat s.dev.trd.slots j).jobId = leAt f.payload 4 4 ∧ (vat s.dev.trd.slots j).layerNo = leAt f.payload 8 4)) →
       s.dev.slotState i = 0 → (∀ j : Slot, j < i → s.dev.slotState j ≠ 0) →
         ∃ d, exec (.layerData p) s = .next { s with dev := d } ∧ d.slotState i = 6 ∧ d.slotArmed i = false
           ∧ (vat d.trd.slots i).start = none ∧ (∀ j : Slot, j ≠ i → vat d.trd.slots j = vat s.dev.trd.slots j)
           ∧ s.dev.detects 0x31 i d ∧ d.pends 97)

/-- While FAB runs, no reaction or write waits and the Treadle is enabled: LAYER_SCHEDULE of a layer in a slot, at a
period boundary at least TRD_ARM_LEAD from now, becomes its start time, shown for the active layer, and arms a VALID
layer, with E98; without such a layer or time it is refused. Once T0 has reached the start time of a layer that has
not begun and is not ready, the start time is void, with LATE_START and E105. Where the rules admit more than one
reading it states the model's (log entries 30 and 31). (R66, R68, R69, R88) -/
def Obligations.LayerSchedules : Prop :=
  ∀ (p : Port) (f : Frame) (rest : List Frame) (i : Slot) (t : StartTime) (s : State),
    s.dev.runs domFab = true → s.dev.calm → s.dev.shadow = [] →
    ((s.dev.cport p).rxQ = f :: rest → f.kind = 2 → s.dev.on TRD_CTRL_ENABLE = true →
       s.dev.get DEV_STATE_STATE ≠ 7 → leAt f.payload 0 1 = 0x11 →
       s.dev.layerSlot (leAt f.payload 4 4) (leAt f.payload 8 4) = some i →
       t = (leAt f.payload 16 8, leAt f.payload 12 4) → s.dev.timeOk t = true →
       (s.dev.slotState i = 5 → s.dev.trdStage ≠ tScan ∧ s.dev.trdStage ≠ tClose) →
         ∃ d, exec (.layerSchedule p) s = .next { s with dev := d } ∧ vat d.trd.slots i = { vat s.dev.trd.slots i with start := some t, missed := false }
           ∧ (∀ j : Slot, j ≠ i → vat d.trd.slots j = vat s.dev.trd.slots j) ∧ d.slotState i = s.dev.slotState i
           ∧ bit (d.reg (slotStatus i)) 3 = true
           ∧ (2 ≤ s.dev.slotState i → (vat s.dev.trd.slots i).start = none → d.pends 98)
           ∧ (s.dev.slotState i = 5 → s.dev.activeSlot = i → d.reg TRD_START_NS = t.2)
           ∧ Dev.frame [.trd, .chain, .ev, .wal] [2, 3, 18, 20] s.dev d)
    ∧ ((s.dev.cport p).rxQ = f :: rest → f.kind = 2 → s.dev.on TRD_CTRL_ENABLE = true →
       s.dev.get DEV_STATE_STATE ≠ 7 → leAt f.payload 0 1 = 0x11 →
       s.dev.layerSlot (leAt f.payload 4 4) (leAt f.payload 8 4) = none →
         ∃ d, exec (.layerSchedule p) s = .next { s with dev := d } ∧ s.dev.detects 0x34 0xFF d ∧ d.on TRD_STATUS_SCHED_REFUSED = true ∧ d.pends 106
           ∧ Dev.withFault [CRLB_RD (64 + p.val), CRLB_FILL (64 + p.val), CRLB_STATUS (64 + p.val), CRL_EVT_BOBBIN, TRD_STATUS] { s.dev with chain := d.chain } d)
    ∧ ((vat s.dev.trd.slots i).start = some t → s.dev.slotCounts i = true → s.dev.on (NETT_CTRL_EN 0) = true →
       stNanos t ≤ s.dev.t0.nanos →
       (s.dev.slotState i ≠ 5 ∨ (s.dev.scanReady = false ∧ s.dev.trdStage ≠ tScan ∧ s.dev.trdStage ≠ tClose)) →
       (∀ j : Slot, j ≠ i → (vat s.dev.trd.slots j).start = none) →
         ∃ d, exec .lateStart s = .next { s with dev := d } ∧ vat d.trd.slots i = { vat s.dev.trd.slots i with start := none, missed := true }
           ∧ (∀ j : Slot, j ≠ i → vat d.trd.slots j = vat s.dev.trd.slots j) ∧ d.slotState i = s.dev.slotState i
           ∧ s.dev.detects 0x35 i d ∧ d.on TRD_STATUS_LATE_START = true ∧ d.pends 105
           ∧ Dev.withFault [slotStatus i, TRD_STATUS, TRD_STATE, TRD_START_NS, TRD_START_SEC_LO, TRD_START_SEC_HI] { s.dev with trd := d.trd } d)

/-- While FAB runs and no reaction or write waits, for each command as a message or through TRD_CMD: PAUSE before SCAN
enters PAUSED, with E102; in SCAN it chooses a pause tick on a period boundary after the tick it falls in, and at
that tick every station is interrupted and PAUSED entered; in LAYER_CLOSE it waits; RESUME at an accepted time is
reported by E103, and from SCAN keeps the time and shifts the start time so that tick k_p begins then; ABORT fails
every slot in use and enters ABORTED, with E104; CLEAR leaves ABORTED. Where the rules admit more than one reading
it states the model's (log entry 31). (R64, R66, R77, R78, R79, R80, R81, R86) -/
def Obligations.TreadleCommands : Prop :=
  ∀ (message : Option Port) (t : StartTime) (k : Nat) (s : State), s.dev.runs domFab = true → s.dev.calm →
    s.dev.shadow = [] →
    ((message = none ∨ ∃ p ∈ [(0 : Port), 1], message = some p ∧ (s.dev.cport p).rxQ.head?.any (fun (f : Frame) => f.kind == 2 && leAt f.payload 0 1 == 0x12) = true ∧ s.dev.on TRD_CTRL_ENABLE = true ∧ s.dev.get DEV_STATE_STATE ≠ 7) →
       s.dev.trdState ≤ 4 →
         ∃ d, exec (.pause message) s = .next { s with dev := d } ∧ d.trdState = tPaused ∧ d.trdStage = s.dev.trdState ∧ d.pends 102
           ∧ d.trd = s.dev.trd ∧ (s.dev.trdState ≠ tRecoat → d.axes = s.dev.axes)
           ∧ Dev.frame [.chain, .ev, .wal, .axes, .flt, .dof, .mpl] [2, 3, 12, 18, 20] s.dev d)
    ∧ ((message = none ∨ ∃ p ∈ [(0 : Port), 1], message = some p ∧ (s.dev.cport p).rxQ.head?.any (fun (f : Frame) => f.kind == 2 && leAt f.payload 0 1 == 0x12) = true ∧ s.dev.on TRD_CTRL_ENABLE = true ∧ s.dev.get DEV_STATE_STATE ≠ 7) →
       s.dev.trdState = tScan → s.dev.trd.pauseAt = none →
         ∃ d, exec (.pause message) s = .next { s with dev := d } ∧ d.trdState = tScan
           ∧ (∃ j ∈ d.trd.pauseAt.toList, j % 4 = 0 ∧ s.dev.schedTick < j)
           ∧ Dev.withEvent [TRD_PAUSE_TICK_LO, TRD_PAUSE_TICK_HI, CRLB_RD 64, CRLB_FILL 64, CRLB_STATUS 64, CRLB_RD 65, CRLB_FILL 65,
               CRLB_STATUS 65, CRL_EVT_BOBBIN] { s.dev with chain := d.chain, trd := { s.dev.trd with pauseAt := d.trd.pauseAt } } d)
    ∧ ((message = none ∨ ∃ p ∈ [(0 : Port), 1], message = some p ∧ (s.dev.cport p).rxQ.head?.any (fun (f : Frame) => f.kind == 2 && leAt f.payload 0 1 == 0x12) = true ∧ s.dev.on TRD_CTRL_ENABLE = true ∧ s.dev.get DEV_STATE_STATE ≠ 7) →
       s.dev.trdState = tClose →
         ∃ d, exec (.pause message) s = .next { s with dev := d } ∧ d.trd = { s.dev.trd with pauseCmd := true }
           ∧ Dev.withEvent [CRLB_RD 64, CRLB_FILL 64, CRLB_STATUS 64, CRLB_RD 65, CRLB_FILL 65, CRLB_STATUS 65, CRL_EVT_BOBBIN]
               { s.dev with chain := d.chain, trd := d.trd } d)
    ∧ (s.dev.trdState = tScan → s.dev.trd.pauseAt = some k → k ≤ s.dev.schedTick →
         ∃ d, exec .pauseTickReached s = .next { s with dev := d } ∧ d.trdState = tPaused ∧ d.trdStage = tScan ∧ d.trd.pauseAt = none ∧ d.pends 102
           ∧ Dev.frame [.trd, .sht, .chain, .ev, .wal] [2, 7, 8, 18, 20] s.dev d)
    ∧ (s.dev.trdState = tPaused → s.dev.trd.resumeAt = none → message = none → t = s.dev.argResume →
       s.dev.timeOk t = true →
         ∃ d, exec (.resume message) s = .next { s with dev := d } ∧ d.pends 103
           ∧ (s.dev.trdStage = tScan → d.trd.resumeAt = some t ∧ (vat d.trd.slots s.dev.activeSlot).start =
               some ((stNanos t - s.dev.pauseTick * 500) / 1000000000, (stNanos t - s.dev.pauseTick * 500) % 1000000000))
           ∧ (s.dev.trdStage = tBed → d.trdState = tBed ∧ (s.dev.layerActive = true → (vat d.trd.slots s.dev.activeSlot).start = some t)))
    ∧ ((message = none ∨ ∃ p ∈ [(0 : Port), 1], message = some p ∧ (s.dev.cport p).rxQ.head?.any (fun (f : Frame) => f.kind == 2 && leAt f.payload 0 1 == 0x14) = true ∧ s.dev.on TRD_CTRL_ENABLE = true ∧ s.dev.get DEV_STATE_STATE ≠ 7) →
       s.dev.trdState ≠ tAborted →
         ∃ d, exec (.abort message) s = .next { s with dev := d } ∧ d.trdState = tAborted ∧ d.pends 104
           ∧ (∀ i : Slot, d.slotState i = (if s.dev.slotState i = 0 then 0 else 6) ∧ (d.slotState i = 6 → (vat d.trd.slots i).start = none))
           ∧ d.trd.pauseAt = none ∧ d.trd.resumeAt = none
           ∧ Dev.frame [.trd, .sht, .axes, .chain, .ev, .wal, .flt, .dof, .mpl] [2, 3, 12, 18, 20] s.dev d)
    ∧ ((message = none ∨ ∃ p ∈ [(0 : Port), 1], message = some p ∧ (s.dev.cport p).rxQ.head?.any (fun (f : Frame) => f.kind == 2 && leAt f.payload 0 1 == 0x15) = true ∧ s.dev.on TRD_CTRL_ENABLE = true ∧ s.dev.get DEV_STATE_STATE ≠ 7) →
       s.dev.trdState = tAborted → (∀ i : Slot, s.dev.slotState i = 0 ∨ s.dev.slotState i = 6) →
         ∃ d, exec (.clear message) s = .next { s with dev := d } ∧ d.trdState = tIdle
           ∧ d.trd = s.dev.trd ∧ Dev.frame [.chain, .ev, .wal] [2, 3, 18, 20] s.dev d)

/-- While FAB runs and no reaction or write waits: the next layer, armed and ALLOCATED, becomes ACTIVE in LAYER_PREP;
with bobbins and look-aheads full RECOAT begins with the platform step of R71; a recoat step that reached its target
goes on to the next one that the profile has, and the last to BED_IMAGE; a failed one pauses with RECOAT_FAULT; with
imaging complete the wait is shown; at its start time a ready layer enters SCAN, with counters at 0; with every
station complete LAYER_CLOSE begins; closed, its slot is EMPTY, the report goes out, and the Treadle leaves. Where
the rules admit more than one reading it states the model's (log entries 32 and 33). (R63, R64, R66, R71, R72, R73,
R74, R75, R76, R86) -/
def Obligations.LayerCycle : Prop :=
  ∀ (i : Slot) (k j : Nat) (s : State), s.dev.runs domFab = true → s.dev.calm → s.dev.shadow = [] →
    (s.dev.nextSlot = some i → s.dev.trdState = tArmed → s.dev.slotReady i = true → s.dev.slotState i = 4 →
         ∃ d, exec .layerPrepStart s = .next { s with dev := d } ∧ d.trdState = tPrep ∧ d.slotState i = 5 ∧ d.activeSlot = i
           ∧ d.reg TRD_JOB = (vat s.dev.trd.slots i).jobId % 2 ^ 32 ∧ d.reg TRD_LAYER = (vat s.dev.trd.slots i).layerNo % 2 ^ 32
           ∧ (vat d.trd.slots i).start = (vat s.dev.trd.slots i).start ∧ (∀ m : Slot, m ≠ i → d.slotState m = s.dev.slotState m)
           ∧ Dev.frame [.chain, .creel, .crl, .dof, .ev, .flt, .free, .mpl, .shadow, .shd, .sht, .trd, .trm, .wal]
               [2, 3, 7, 8, 11, 16, 18, 20] s.dev d)
    ∧ (s.dev.trdState = tPrep → (∀ n : Station, s.dev.stationOut n = true ∨ s.dev.lookaheadFull n = true) →
         ∃ d, exec .layerPrepDone s = .next { s with dev := d } ∧ d.trdStage = tRecoat
           ∧ d.trd.platSteps * 2 ^ 24 + d.reg TRD_PLAT_RESID =
               (s.dev.reg TRD_PLAT_RESID + (vat s.dev.trd.slots s.dev.activeSlot).layerNm * s.dev.reg TRD_PLAT_SCALE) % 2 ^ 56
           ∧ d.reg TRD_PLAT_RESID < 2 ^ 24 ∧ d.trd.recoatStep = 1
           ∧ Dev.frame [.axes, .chain, .dof, .ev, .flt, .isp, .lmp, .mpl, .pins, .trd, .trm, .wal] [2, 9, 12, 13, 16, 18, 20] s.dev d)
    ∧ (s.dev.trdState = tRecoat → s.dev.trd.recoatStep = k → 1 ≤ k → k ≤ 5 → s.dev.stepReached k = true →
       s.dev.stepFrom (k + 1) = j → j ≤ 5 →
         ∃ d, exec .recoatStepDone s = .next { s with dev := d } ∧ d.trdStage = tRecoat ∧ d.trd.recoatStep = j
           ∧ d.trd.farEnd = (if k = 4 then s.dev.bidir && !s.dev.trd.farEnd else if k = 5 then false else s.dev.trd.farEnd)
           ∧ (k ≠ 4 → k ≠ 5 → d.trd.recoatTarget = s.dev.stepTarget j)
           ∧ Dev.frame [.axes, .chain, .dof, .ev, .flt, .isp, .lmp, .mpl, .pins, .trd, .wal] [2, 9, 12, 13, 18, 20] s.dev d)
    ∧ (s.dev.trdState = tRecoat → s.dev.trd.recoatStep = k → 1 ≤ k → k ≤ 5 → s.dev.stepReached k = true →
       s.dev.stepFrom (k + 1) = 6 → (∀ m : Axis, s.dev.axRunning m = false) →
         ∃ d, exec .recoatStepDone s = .next { s with dev := d } ∧ d.trdState = tBed ∧ d.trd.recoatStep = 0
           ∧ (bit s.dev.activeMode 0 = false → d.trd.imaged = true)
           ∧ Dev.frame [.chain, .dof, .ev, .flt, .isp, .lmp, .mpl, .pins, .trd, .wal] [2, 9, 13, 18, 20] s.dev d)
    ∧ (s.dev.trdState = tRecoat → s.dev.trd.recoatStep = k → 1 ≤ k → k ≤ 5 → s.dev.stepReached k = false →
       s.dev.axRunning (s.dev.stepAxis k) = false →
         ∃ d, exec .recoatFault s = .next { s with dev := d } ∧ d.trdState = tPaused ∧ d.trdStage = tRecoat
           ∧ d.on TRD_STATUS_RECOAT_FAULT = true ∧ s.dev.detects 0x36 (s.dev.stepAxis k) d ∧ d.pends 107 ∧ d.pends 102
           ∧ Dev.frame [.chain, .dof, .ev, .flt, .mpl, .pins, .wal] [2, 9, 18, 20] s.dev d)
    ∧ (s.dev.layerActive = true → s.dev.trdStage = tBed → s.dev.trd.imaged = true →
         exec .bedImageDone s = .next { s with dev :=
             ((s.dev.put TRD_STATE_WAIT_START (b2n (vat s.dev.trd.slots s.dev.activeSlot).start.isSome)).put TRD_STATE_WAIT_SCHED
               (b2n (vat s.dev.trd.slots s.dev.activeSlot).start.isNone)) })
    ∧ (s.dev.scanReady = true → s.dev.startReached s.dev.activeSlot = some k → k < 500 →
         ∃ d, exec .scanStart s = .next { s with dev := d } ∧ d.trdState = tScan ∧ d.pends 99
           ∧ (∀ n : Station, d.reg (SHT_PICKS n) = 0 ∧ d.reg (SHT_REPICKS n) = 0 ∧ d.reg (SHT_SKIPPED n) = 0 ∧ d.reg (SHD_MON_BLANKS n) = 0
               ∧ d.reg (REED_PWR_MELT_DEVS n) = 0)
           ∧ d.reg MPL_MAP_LATE = 0 ∧ d.trd = s.dev.trd
           ∧ Dev.frame [.chain, .dof, .ev, .flt, .lnk, .mpl, .sht, .trm, .wal] [2, 5, 7, 8, 9, 10, 11, 13, 18, 20] s.dev d)
    ∧ (s.dev.trdState = tScan →
       (∀ n : Station, s.dev.stationOut n = true ∨ ((s.dev.shtl n).complete = true ∧ (s.dev.shtl n).lit = false)) →
         ∃ d, exec .scanEnd s = .next { s with dev := d } ∧ d.trdState = tClose ∧ d.pends 100
           ∧ d.trd.pauseCmd = (s.dev.trd.pauseCmd || s.dev.trd.pauseAt.isSome) ∧ d.trd.pauseAt = none ∧ d.trd.slots = s.dev.trd.slots
           ∧ Dev.frame [.chain, .dof, .ev, .flt, .isp, .lmp, .mpl, .trd, .trm, .wal] [2, 13, 16, 18, 20] s.dev d)
    ∧ (s.dev.closeReady = true → s.dev.activeSlot = i → s.dev.updateWaits = false → s.dev.nextSlot = none →
       s.dev.on TRD_POLICY_ORPHAN = false →
         ∃ d, exec .layerClosed s = .next { s with dev := d } ∧ d.slotState i = 0 ∧ d.pends 101 ∧ d.pends 109
           ∧ ((d.cport s.dev.upstream).ownQ.any fun (f : Frame) =>
               f.kind == 2 && leAt f.payload 0 1 == 0x22 && f.payload.drop 4 == wordsBytes s.dev.reportWords) = true
           ∧ (s.dev.trd.pauseCmd = false → s.dev.trd.pauseReact = false → s.dev.trd.pauseOrphan = false → d.trdState = tIdle)
           ∧ (s.dev.trd.pauseCmd = true → d.trdState = tPaused ∧ d.get TRD_STATE_RETURN_STATE = tClose ∧ d.pends 102)
           ∧ Dev.frame [.chain, .ev, .mpl, .trd, .wal] [2, 11, 18, 20] s.dev d)

/-- PORST_N released with no strap sampled reads the fuses: the life-cycle state in force is the one fused. With no
reaction waiting: the straps sampled 1 us later are shown, and end stage FUSES unless TESTMODE or the temperature
holds it; with the clocks of FAB, MCH, XSPI and the lane transmitters stage IMAGE tries the candidate of the higher
IMG_SEQ, slot A first, or none, when it is MGMT_ONLY with E2 and NO_IMAGE. A verified candidate is applied, one that
fails is rejected with its code and E1, and with its phase 0 applied the slot is in force and stage DRAM begins.
Where the rules admit more than one reading it states the model's (log entries 5, 13, 14, 16 and 24). (R510, R512,
R515, R520, R521, R522, R523, R652) -/
def Obligations.StartUp : Prop :=
  ∀ (k : Nat) (t : Dev) (flashBytes : Nat) (w : Word) (s : State), s.dev.calm →
    (s.dev.start.porstLow = true → s.dev.start.strapped = false →
         ∃ d, exec .porstRelease s = .next { s with dev := d } ∧ d.get DEV_LC_IN_FORCE = s.otp.lifeCycle % 16
           ∧ d.get DEV_STATE_STATE = 1 ∧ d.start = { s.dev.start with porstLow := false, fuses := s.otp }
           ∧ Dev.regsOnly [DEV_LC, DEV_STATE] { s.dev with start := d.start } d)
    ∧ (s.dev.runs domAon = true → s.dev.start.strapped = false → s.dev.get DEV_STATE_STATE = 1 →
         ∃ d, exec (.strapSample w) s = .next { s with dev := d } ∧ d.reg DEV_STRAPS = Nat.land w.toNat 0x1F1
           ∧ d.start = { s.dev.start with strapped := true } ∧ d.get DEV_STATE_STATE = (if d.fusesDone then 2 else 1)
           ∧ Dev.regsOnly [DEV_STRAPS, DEV_STATE] { s.dev with start := d.start } d)
    ∧ (s.dev.runs domAon = true → (s.dev.get DEV_STATE_STATE = 1 ∨ s.dev.get DEV_STATE_STATE = 2) →
       s.dev.fusesDone = true → s.dev.mgm.held = [] → s.dev.mgm.chain = [] → s.dev.ev.crossing = [] → k < 2 →
       imgCandidate (s.dev.slotRead k) = true → s.dev.start.skip = (false, false) →
       s.dev.start.failed = (false, false) →
       (imgCandidate (s.dev.slotRead (1 - k)) = true → imgSeq (s.dev.slotRead (1 - k)) < imgSeq (s.dev.slotRead k) ∨ (k = 0 ∧ imgSeq (s.dev.slotRead 1) = imgSeq (s.dev.slotRead 0))) →
         ∃ d, exec (.clocksLocked false flashBytes) s = .next { s with dev := d } ∧ d.get DEV_STATE_STATE = 3
           ∧ d.reg CLK_LIVE = Nat.lor (s.dev.reg CLK_LIVE) 0x7006 ∧ bit (d.reg CLK_PLL) 0 = true
           ∧ d.on LNK_STATUS_S_PLL_LOCK = true ∧ d.on LNK_STATUS_C_PLL_LOCK = true ∧ d.on NET_STATUS_HEAD = s.dev.on DEV_STRAPS_CHAIN_HEAD
           ∧ d.start = { s.dev.start with trying := some k, applying := false, flashSize := clampN 0x2000000 0x10000000 flashBytes }
           ∧ Dev.regsOnly [CLK_LIVE, CLK_PLL, LNK_STATUS, NET_STATUS, DEV_STATE, DEV_IMG_FAIL] { s.dev with start := d.start } d)
    ∧ (s.dev.runs domAon = true → (s.dev.get DEV_STATE_STATE = 1 ∨ s.dev.get DEV_STATE_STATE = 2) →
       s.dev.fusesDone = true → s.dev.mgm.held = [] → s.dev.mgm.chain = [] → s.dev.ev.crossing = [] →
       (∀ j, j < 2 → imgCandidate (s.dev.slotRead j) = false) →
         ∃ d, exec (.clocksLocked true flashBytes) s = .next { s with dev := d } ∧ d.get DEV_STATE_STATE = 7 ∧ d.start.trying = none
           ∧ d.on DEV_STATE_FLASH_SLOW = true ∧ d.pends 2 ∧ s.dev.detects 0x02 0xFF d)
    ∧ (s.dev.runs domXspi = true → s.dev.start.trying = some k → s.dev.get DEV_STATE_STATE = 3 →
       s.dev.start.applying = false → s.dev.imgVerify (s.dev.slotRead k) = 0 →
         ∃ d, exec (.imageVerifyDone true) s = .next { s with dev := d } ∧ d.start = { s.dev.start with applying := true }
           ∧ d.on DEV_STATE_AUTH_OK = true ∧ d.sec = { s.dev.sec with
               digest := imgDigest (s.dev.slotRead k), epoch := imgEpoch (s.dev.slotRead k), seqNo := imgSeq (s.dev.slotRead k) }
           ∧ Dev.regsOnly [DEV_STATE] { s.dev with start := d.start, sec := d.sec } d)
    ∧ (s.dev.runs domXspi = true → s.dev.runs domFab = true → s.dev.start.trying = some k → k < 2 →
       s.dev.get DEV_STATE_STATE = 3 → s.dev.start.applying = false → imgCandidate (s.dev.slotRead k) = true →
       s.dev.imgVerify (s.dev.slotRead k) ≠ 0 →
         ∃ d, exec (.imageVerifyDone true) s = .next { s with dev := d }
           ∧ bits (d.reg DEV_IMG_FAIL) (8 * k + 7) (8 * k) = s.dev.imgVerify (s.dev.slotRead k) % 256
           ∧ d.on DEV_FLAGS_IMAGE_REJECTED = true ∧ d.pends 1 ∧ d.start.trying ≠ some k
           ∧ d.reg (EVT_FLT_COUNT 1) = min (s.dev.reg (EVT_FLT_COUNT 1) + 1) 0xFFFFFFFF)
    ∧ (s.dev.runs domXspi = true → s.dev.start.trying = some k → k < 2 → s.dev.get DEV_STATE_STATE = 3 →
       s.dev.start.applying = true → imgDigest (s.dev.slotRead k) = s.dev.sec.digest →
       (applySecs (s.dev.slotRead k) false true 3 ((imgSections (s.dev.slotRead k)).filter fun (x : ImgSec) => x.phase == 0) s.dev = (true, t)) →
       t.get DEV_STATE_STATE = 3 → t.calm → t.drcState ≠ drcReady → t.drcState ≠ drcFailed →
         ∃ d, exec (.imageApplyDone true) s = .next { s with dev := d } ∧ d.get DEV_STATE_STATE = 4 ∧ d.get DEV_STATE_SLOT = k
           ∧ d.reg DEV_ID5 = imgId (s.dev.slotRead k) ∧ d.reg DEV_ID6 = imgSeq (s.dev.slotRead k)
           ∧ d.start = { t.start with trying := none, applying := false }
           ∧ Dev.regsOnly [DEV_STATE, DEV_ID5, DEV_ID6] { t with start := d.start } d)

/-- PORST_N low, or the loss of a rail, leaves the device in reset: only the flash, THM_LAST_SHUT but for VDD_AON, the
sampled level of EMIT_GATE_N, and the fuses stay. With no reaction waiting and PORST_N high: DEV_RESET with KEY
0x5A17 resets all but AON and shows the cause; LC_CMD with KEY, VPP and a permitted higher TARGET starts programming
and a wipe, and ends with PROGRAMMED at TARGET and E8; a fuse command that is permitted, with KEY and VPP, is BUSY
with the data cleared, and ends with the group programmed, RESULT 0 and E12. Where the rules admit more than one
reading it states the model's (log entries 18, 19 and 23). (R509, R512, R513, R514, R526, R562, R663, R680, R681) -/
def Obligations.ResetsAndFuses : Prop :=
  ∀ (w : Word) (op lv : Nat) (data : List Byte) (s : State),
    (s.dev.start.fuseJob = none → s.dev.start.lcJob = none →
         ∃ d, exec .porstNLow s = .next { s with dev := d } ∧ exec (.supplyLoss .other) s = .next { s with dev := d }
           ∧ exec (.supplyLoss .vddAon) s = .next { s with dev := d.setReg THM_LAST_SHUT 0 }
           ∧ d.reg THM_LAST_SHUT = s.dev.reg THM_LAST_SHUT ∧ d.get EVT_FLT_GATE_PIN_LOW = s.dev.get EVT_FLT_GATE_PIN_LOW
           ∧ Dev.regsOnly [THM_LAST_SHUT, EVT_FLT_GATE] { Dev.reset with free := d.free, flash := s.dev.flash } d)
    ∧ (s.dev.start.porstLow = false → s.dev.calm → s.dev.runs domAon = true → w.toNat / 65536 = 0x5A17 →
       bit w.toNat 0 = true →
         ∃ d, exec (.softReset w) s = .next { s with dev := d } ∧ d.reg DEV_RESET_CAUSE = 2 ∧ d.thm = s.dev.thm ∧ d.flash = s.dev.flash
           ∧ (∀ a ∈ [DEV_STRAPS, DEV_FLAGS, DEV_FUSE_STAT, CLK_FLAGS, CLK_FLUSH_COUNT, THM_LAST_SHUT, THM_WARN, THM_TMAX, THM_FAILED, DOF_CTRL,
               DOF_STATUS, SEC_WIPE_CAUSE, SEC_WIPES], d.reg a = s.dev.reg a)
           ∧ Dev.frame [.free, .flash, .start, .thm, .dof] [0, 1, 17, 19, 21]
               (Dev.reset.put EVT_FLT_GATE_PIN_LOW (s.dev.get EVT_FLT_GATE_PIN_LOW)) d)
    ∧ (s.dev.start.porstLow = false → s.dev.calm → s.dev.runs domAon = true → w.toNat / 65536 = 0x1C0D →
       w.toNat % 16 = lv → s.dev.start.fuses.lifeCycle < lv →
       lcPermitted (s.dev.get DEV_LC_IN_FORCE) lv (s.dev.start.fuses.keyHash.isSome && s.dev.start.fuses.kek.isSome) = true →
       s.dev.start.lcJob = none → s.dev.sec.waiting = none →
         ∃ d, exec (.lcCmd w true) s = .next { s with dev := d } ∧ d.start = { s.dev.start with lcJob := some lv }
           ∧ bit (d.reg SEC_WIPE_CAUSE) 3 = true ∧ d.on SEC_STATUS_WIPING = true ∧ d.sec.keys = Vector.replicate 16 none
           ∧ Dev.regsOnly [SEC_WIPE_CAUSE, SEC_STATUS, DEV_STATE] { s.dev with start := d.start, sec := d.sec } d)
    ∧ (s.dev.start.porstLow = false → s.dev.calm → s.dev.runs domFab = true → s.dev.start.lcJob = some lv →
         ∃ d, exec .lcProgrammed s = .next { s with otp := { s.otp with lifeCycle := max s.otp.lifeCycle lv }, dev := d } ∧ d.pends 8
           ∧ d.start = { s.dev.start with lcJob := none, fuses := s.dev.start.fuses.advance lv } ∧ Dev.withEvent [] { s.dev with start := d.start } d)
    ∧ (s.dev.start.porstLow = false → s.dev.calm → s.dev.runs domAon = true → w.toNat / 65536 = 0xF05E →
       s.dev.on DEV_FUSE_STAT_BUSY = false → op ∈ [1, 2, 3] → s.dev.fuseOk op = true →
         ∃ d, exec (if op = 1 then .fuseKeyHash w true else if op = 2 then .fuseKek w true else .fuseEpoch w true) s =
               .next { s with dev := d }
           ∧ d.on DEV_FUSE_STAT_BUSY = true ∧ d.start = { s.dev.start with fuseJob := some (op, s.dev.fuseData op) }
           ∧ (∀ i, i < 12 → d.reg (DEV_FUSE_DATA i) = 0)
           ∧ Dev.regsOnly (DEV_FUSE_STAT :: (List.range 12).map DEV_FUSE_DATA) { s.dev with start := d.start } d)
    ∧ (s.dev.start.porstLow = false → s.dev.calm → s.dev.runs domFab = true →
       s.dev.start.fuseJob = some (op, data) →
         ∃ d, exec (.fuseDone true) s = .next { s with otp := s.otp.fuse op data, dev := d } ∧ d.reg DEV_FUSE_STAT = 0 ∧ d.pends 12
           ∧ d.start = { s.dev.start with fuseJob := none, fuses := s.dev.start.fuses.fuse op data } ∧ (∀ i, i < 12 → d.reg (DEV_FUSE_DATA i) = 0)
           ∧ Dev.withEvent (DEV_FUSE_STAT :: (List.range 12).map DEV_FUSE_DATA) { s.dev with start := d.start } d)

/-- With no reaction waiting: a CHECK, PROGRAM or ACTIVATE that is valid now is BUSY; CHECK of an image in the Creel
that passes ends CHECKED with E4, one that fails keeps STATE and ends with its RESULT and E7; PROGRAM leaves the
image in the slot not in force, erased beyond it, with E5; ACTIVATE of a slot that passes keeps its digest and is
PENDING; CANCEL is IDLE; a pending image that falls due is UPDATING until it is applied, when its slot is in force
with E6; the recheck ends with AUTH_OK, or AUTH_LOST with E11. Where the rules admit more than one reading it states
the model's (log entries 14, 16, 17 and 19). (R525, R526, R527, R528, R560) -/
def Obligations.Updates : Prop :=
  ∀ (k c : Nat) (digest : List Byte) (s : State), s.dev.runs domAon = true → s.dev.runs domXspi = true →
    s.dev.runs domFab = true → s.dev.calm →
    (s.dev.start.updRun = none → s.dev.start.passTwo = false → s.dev.sec.recheck = none →
       s.dev.start.authLost = false → s.dev.get DEV_UPD_STAT_STATE = c →
         (c ≤ 1 → exec .updCheck s = .next { s with dev :=
               ((({ s.dev with start := { s.dev.start with updRun := some 1 } }).put DEV_UPD_STAT_BUSY 1).put DEV_UPD_STAT_TEMP_WAIT
                 0) })
           ∧ (c = 1 → exec .updProgram s = .next { s with dev :=
               ((({ s.dev with start := { s.dev.start with updRun := some 2 } }).put DEV_UPD_STAT_BUSY 1).put DEV_UPD_STAT_TEMP_WAIT
                 (b2n (s.dev.on THM_STATUS_NVM_HOLD))) })
           ∧ (c = 2 → exec .updActivate s = .next { s with dev :=
               ((({ s.dev with start := { s.dev.start with updRun := some 3 } }).put DEV_UPD_STAT_BUSY 1).put DEV_UPD_STAT_TEMP_WAIT
                 0) }))
    ∧ (1 ≤ s.dev.get DEV_UPD_STAT_STATE → s.dev.get DEV_UPD_STAT_STATE ≤ 3 → s.dev.closeDone = false →
       s.dev.start.updRun = none → s.dev.start.passTwo = false → s.dev.sec.recheck = none →
         exec .updCancel s = .next 
           { s with dev := (({ s.dev with sec := { s.dev.sec with staged := none } }).put DEV_UPD_STAT_STATE 0) })
    ∧ (s.dev.start.updRun = some 1 → s.dev.sec.recheck = none → 64 ≤ s.dev.reg DEV_UPD_LEN →
       imgCandidate s.dev.updRead = true →
       (imgLen s.dev.updRead + (if imgSigned s.dev.updRead then 200 else 0) ≤ s.dev.reg DEV_UPD_LEN) →
       s.dev.imgVerify s.dev.updRead = c →
         ∃ d, exec .updChecked s = .next { s with dev := d } ∧ d.start = { s.dev.start with updRun := none } ∧ d.on DEV_UPD_STAT_BUSY = false
           ∧ d.get DEV_UPD_STAT_RESULT = c % 16
           ∧ (c = 0 → d.get DEV_UPD_STAT_STATE = 1 ∧ d.pends 4)
           ∧ (c ≠ 0 → d.get DEV_UPD_STAT_STATE = s.dev.get DEV_UPD_STAT_STATE ∧ d.pends 7 ∧ d.on DEV_FLAGS_UPD_FAIL = true)
           ∧ Dev.withEvent [DEV_UPD_STAT, DEV_FLAGS] { s.dev with start := d.start } d)
    ∧ (s.dev.start.updRun = some 2 → s.dev.sec.recheck = none → s.dev.on THM_STATUS_NVM_HOLD = false →
       s.dev.reg DEV_UPD_LEN ≤ 0x800000 → k = s.dev.otherSlot * 0x800000 →
         ∃ d, exec (.updProgrammed true) s = .next { s with dev := d } ∧ d.get DEV_UPD_STAT_STATE = 2 ∧ d.get DEV_UPD_STAT_RESULT = 0
           ∧ d.on DEV_UPD_STAT_BUSY = false ∧ d.pends 5 ∧ d.start = { s.dev.start with updRun := none }
           ∧ d.flashBytes k (s.dev.reg DEV_UPD_LEN) = s.dev.updRead 0 (s.dev.reg DEV_UPD_LEN)
           ∧ sameOutside flashDefault k 0x800000 s.dev.flash d.flash
           ∧ Dev.withEvent [DEV_UPD_STAT] { s.dev with start := d.start, flash := d.flash } d)
    ∧ (s.dev.start.updRun = some 3 → s.dev.sec.recheck = none → k = s.dev.otherSlot →
       imgCandidate (s.dev.slotRead k) = true → s.dev.imgVerify (s.dev.slotRead k) = 0 →
         ∃ d, exec (.updPending true) s = .next { s with dev := d } ∧ d.get DEV_UPD_STAT_STATE = 3 ∧ d.get DEV_UPD_STAT_RESULT = 0
           ∧ d.on DEV_UPD_STAT_BUSY = false ∧ d.sec = { s.dev.sec with staged := some (imgDigest (s.dev.slotRead k), k) }
           ∧ Dev.regsOnly [DEV_UPD_STAT] { s.dev with start := { s.dev.start with updRun := none }, sec := d.sec } d)
    ∧ (s.dev.sec.staged = some (digest, k) → s.dev.get DEV_UPD_STAT_STATE = 3 → s.dev.start.passTwo = false →
       s.dev.applyDue = true → s.dev.shd.pass = none → imgDigest (s.dev.slotRead k) = digest →
       imgSections (s.dev.slotRead k) = [⟨15, 0, 0, 0, 0, c, 80⟩] →
         exec (.updateApply true) s = .next { s with dev := { (s.dev.put DEV_STATE_STATE 9) with
             start := { s.dev.start with backState := s.dev.get DEV_STATE_STATE, passTwo := true } } })
    ∧ (s.dev.sec.staged = some (digest, k) → k < 2 → s.dev.start.passTwo = true → s.dev.start.backState ≠ 7 →
       s.dev.start.backState < 16 → s.dev.get DEV_STATE_STATE = 9 → s.dev.closeDone = false →
       imgSections (s.dev.slotRead k) = [⟨15, 0, 0, 0, 0, c, 80⟩] →
         ∃ d, exec (.updApplied true) s = .next { s with dev := d } ∧ d.get DEV_STATE_STATE = s.dev.start.backState ∧ d.get DEV_STATE_SLOT = k
           ∧ d.reg DEV_ID5 = imgId (s.dev.slotRead k) ∧ d.reg DEV_ID6 = imgSeq (s.dev.slotRead k) ∧ d.get DEV_UPD_STAT_STATE = 0 ∧ d.pends 6
           ∧ d.sec = { s.dev.sec with
               staged := none, digest := imgDigest (s.dev.slotRead k), epoch := imgEpoch (s.dev.slotRead k),
               seqNo := imgSeq (s.dev.slotRead k) }
           ∧ Dev.withEvent [DEV_STATE, DEV_ID5, DEV_ID6, DEV_UPD_STAT]
               { s.dev with start := { s.dev.start with passTwo := false }, sec := d.sec } d)
    ∧ (s.dev.sec.recheck = some c → c < 8 → digest = imgDigest (s.dev.slotRead (s.dev.get DEV_STATE_SLOT)) →
         ∃ d, exec (.authRecheckDone true) s = .next { s with dev := d } ∧ d.get DEV_UPD_STAT_STATE = c ∧ d.sec = { s.dev.sec with recheck := none }
           ∧ (digest = s.dev.sec.digest → d.on DEV_STATE_AUTH_OK = true
               ∧ Dev.regsOnly [DEV_STATE, DEV_UPD_STAT] { s.dev with sec := d.sec } d)
           ∧ (digest ≠ s.dev.sec.digest → d.on DEV_FLAGS_AUTH_LOST = true ∧ d.start.authLost = true ∧ d.pends 11 ∧ s.dev.detects 0x05 0xFF d))

/-- While FAB runs and no reaction waits: ENABLE written 1 while off takes the fields and trains the selected set-point
from step 1; written 0 it clears ENABLE and TRAINED and, unless training runs, turns the controller off; a step that
passes moves to the next, the last one makes the set-point TRAINED with E52, and E55 for a switch; one that fails is
FAILED with E53. A set-point request waits while a panic side is open, else switches; the relock ends with E55 or
trains. An oscillator count beyond DRIFT_LIM sets DRIFT with E54. Where the rules admit more than one reading it
states the model's (log entry 51). (R428, R430, R443, R444, R445, R524) -/
def Obligations.DramControl : Prop :=
  ∀ (w : Word) (c : Channel) (r : Fin 2) (k : Nat) (osc : List Word) (s : State), s.dev.runs domFab = true →
    s.dev.calm →
    (s.dev.on DRC_CTRL_ENABLE = false → s.dev.drcState ≠ 1 →
         ∃ d, exec (.dramEnable w) s = .next { s with dev := d } ∧ d.reg DRC_CTRL = bits w.toNat 5 1 * 2 + 1 ∧ d.reg DRC_CAP = d.dramCap
           ∧ d.drcState = 1 ∧ d.get DRC_STATUS_STEP = 1 ∧ d.get DRC_STATUS_SP = s.dev.get DRC_FREQ_TARGET
           ∧ d.drc = { s.dev.drc with switching := false, retrainDue := false, selfRef := Vector.replicate 2 false }
           ∧ Dev.regsOnly [DRC_CTRL, DRC_CAP, DRC_STATUS] { s.dev with drc := d.drc } d)
    ∧ (s.dev.on DRC_CTRL_ENABLE = true →
         ∃ d, exec (.dramDisable w) s = .next { s with dev := d } ∧ d.on DRC_CTRL_ENABLE = false
           ∧ d.on DRC_STATUS_TRAINED0 = false ∧ d.on DRC_STATUS_TRAINED1 = false
           ∧ (s.dev.drcState ≠ 1 → d.drcState = 0 ∧ d.drc.stopDue = false) ∧ (s.dev.drcState = 1 → d.drcState = 1 ∧ d.drc.stopDue = true)
           ∧ (s.dev.on DRC_STATUS_TRAINED0 = true → d.drc.selfRef = Vector.replicate 2 true)
           ∧ Dev.regsOnly [DRC_CTRL, DRC_STATUS] { s.dev with drc := d.drc } d)
    ∧ (s.dev.drcState = 1 → s.dev.drc.stopDue = false → s.dev.get DRC_FREQ_TARGET = s.dev.get DRC_STATUS_SP →
       s.dev.get DRC_STATUS_STEP < 7 →
         exec (.dramTrainStepDone true osc) s =
           .next { s with dev := s.dev.put DRC_STATUS_STEP (s.dev.get DRC_STATUS_STEP + 1) })
    ∧ (s.dev.drcState = 1 → s.dev.drc.stopDue = false → s.dev.get DRC_FREQ_TARGET = s.dev.get DRC_STATUS_SP →
       s.dev.get DRC_STATUS_STEP = 7 → s.dev.get DEV_STATE_STATE ∉ [4, 8] →
         ∃ d, exec (.dramTrainStepDone true osc) s = .next { s with dev := d } ∧ d.drcState = 2 ∧ d.get DRC_STATUS_STEP = 0
           ∧ d.on (trainedField (s.dev.get DRC_STATUS_SP)) = true ∧ d.pends 52 ∧ (s.dev.drc.switching = true → d.pends 55)
           ∧ d.drc = { s.dev.drc with switching := false, selfRef := Vector.replicate 2 false }
           ∧ d.reg (DRCC_OSC0 1) = (osc.getD 2 0).toNat % 65536 * 65537
           ∧ Dev.frame [.drc, .ev, .wal, .mpl] [2, 4, 11, 18] s.dev d)
    ∧ (s.dev.drcState = 1 → s.dev.drc.stopDue = false → s.dev.get DRC_FREQ_TARGET = s.dev.get DRC_STATUS_SP →
       s.dev.get DEV_STATE_STATE ≠ 4 →
         ∃ d, exec (.dramTrainStepDone false osc) s = .next { s with dev := d } ∧ d.drcState = 4 ∧ d.get DRC_STATUS_STEP = 0
           ∧ d.on (trainedField (s.dev.get DRC_STATUS_SP)) = false ∧ d.pends 53 ∧ s.dev.detects 0x1D 0xFF d
           ∧ Dev.withFault [DRC_STATUS] { s.dev with drc := { s.dev.drc with switching := false, retrainDue := false } } d)
    ∧ (s.dev.drcState = 2 → s.dev.drc.retrainDue = false →
         exec (.freqSwitchRequest w) s = .next { s with dev :=
             (if w.toNat % 2 = s.dev.get DRC_STATUS_SP then (s.dev.setReg DRC_FREQ (w.toNat % 2)).put DRC_STATUS_FREQ_PEND 0
             else if s.dev.panicSideOpen then (s.dev.setReg DRC_FREQ (w.toNat % 2)).put DRC_STATUS_FREQ_PEND 1
             else (((s.dev.setReg DRC_FREQ (w.toNat % 2)).put DRC_STATUS_FREQ_PEND 1).put DRC_STATUS_FREQ_PEND 0).put DRC_STATUS_STATE 3) })
    ∧ (s.dev.drcState = 3 →
         ∃ d, exec .freqDone s = .next { s with dev := d } ∧ d.get DRC_STATUS_SP = s.dev.get DRC_FREQ_TARGET
           ∧ (s.dev.on (trainedField (s.dev.get DRC_FREQ_TARGET)) = true → d.drcState = 2 ∧ d.pends 55 ∧ Dev.withEvent [DRC_STATUS] s.dev d)
           ∧ (s.dev.on (trainedField (s.dev.get DRC_FREQ_TARGET)) = false → d.drcState = 1 ∧ d.get DRC_STATUS_STEP = 1
             ∧ Dev.regsOnly [DRC_STATUS] { s.dev with drc := { s.dev.drc with switching := true } } d))
    ∧ (s.dev.on DRC_OPT_RETRAIN_EN = true → s.dev.drcState = 2 → w.toNat < 65536 →
       (k = s.dev.reg (if r.val = 0 then DRCC_OSC0 c else DRCC_OSC1 c) / 65536) →
         ∃ d, exec (.dqsOscRun c r w.toNat) s = .next { s with dev := d }
           ∧ d.reg (if r.val = 0 then DRCC_OSC0 c else DRCC_OSC1 c) = k * 65536 + w.toNat
           ∧ (max k w.toNat - min k w.toNat ≤ s.dev.reg DRC_DRIFT_LIM % 65536 →
               Dev.regsOnly [if r.val = 0 then DRCC_OSC0 c else DRCC_OSC1 c] s.dev d)
           ∧ (max k w.toNat - min k w.toNat > s.dev.reg DRC_DRIFT_LIM % 65536 → d.on DRC_FLAGS_DRIFT = true ∧ d.pends 54
             ∧ Dev.withEvent [if r.val = 0 then DRCC_OSC0 c else DRCC_OSC1 c, DRC_FLAGS, DRC_ERR_INFO, DRC_STATUS] { s.dev with drc := d.drc } d))

/-- While FAB runs, no reaction waits and the DRAM is ready: a refresh that urgent requests make wait is postponed up to
four times, else those postponed are done; an idle channel enters self-refresh; a clean scrub read moves on; a panic
longer than PANIC_MAX shows and raises DRAM_PANIC with E51; a corrected read counts, latches its place, and raises
DRAM_CE with E48 once in a management tick; an uncorrectable one counts, latches, and raises DRAM_UE with E49, and
in the thermal map its cells read as not belonging. Where the rules admit more than one reading it states the
model's (log entry 51). (R437, R438, R440, R441, R446) -/
def Obligations.DramReads : Prop :=
  ∀ (c : Channel) (r : Fin 2) (a k n : Nat) (comp : Fin 5) (b : Bobbin) (s : State),
    s.dev.runs domFab = true → s.dev.calm → s.dev.drcState = 2 →
    (vat s.dev.drc.selfRef c = false → k = vat s.dev.drc.postponed ⟨c.val * 2 + r.val, by omega⟩ →
         exec (.dramRefresh c r true) s = .next { s with dev := { s.dev with drc := { s.dev.drc with
               postponed := vput s.dev.drc.postponed ⟨c.val * 2 + r.val, by omega⟩ (if k < 4 then k + 1 else k) } } }
           ∧ exec (.dramRefresh c r false) s = .next { s with dev := { s.dev with drc := { s.dev.drc with
               postponed := vput s.dev.drc.postponed ⟨c.val * 2 + r.val, by omega⟩ 0 } } })
    ∧ (s.dev.on DRC_OPT_SR_EN = true → s.dev.panicNow = false → (∀ q : Fin 4, vat s.dev.drc.postponed q = 0) →
       vat s.dev.drc.selfRef c = false → (∀ m, m < 16 → s.dev.bobOpen m = false) →
       (c.val = 1 → s.dev.on DRC_CTRL_CH1_EN = true) →
         ∃ d, exec (.selfRefreshEntry c) s = .next { s with dev := d } ∧ d.drc = { s.dev.drc with selfRef := vput s.dev.drc.selfRef c true }
           ∧ d.reg (DRCC_SR_ENTRIES c) = min (s.dev.reg (DRCC_SR_ENTRIES c) + 1) 0xFFFFFFFF
           ∧ Dev.regsOnly [DRCC_SR_ENTRIES c] { s.dev with drc := d.drc } d)
    ∧ (s.dev.on DRC_OPT_SCRUB_EN = true → (c.val = 1 → s.dev.on DRC_CTRL_CH1_EN = true) →
       k = vat s.dev.drc.scrubAt c → k + 1 < s.dev.channelBursts →
         ∃ d, exec (.dramScrub c none) s = .next { s with dev := d }
           ∧ d.drc = { s.dev.drc with scrubAt := vput s.dev.drc.scrubAt c (k + 1), selfRef := d.drc.selfRef }
           ∧ Dev.regsOnly [] { s.dev with drc := d.drc } d)
    ∧ (s.dev.on (CRLB_STATUS_PANIC b.val) = true → s.dev.reg DRC_PANIC_MAX % 65536 < n →
         ∃ d, exec (.dramPanic b c n) s = .next { s with dev := d } ∧ d.on DRC_FLAGS_PANIC_LONG = true
           ∧ (∀ m, m < 2 → d.reg (DRCC_PANIC_US m) = max (s.dev.reg (DRCC_PANIC_US m)) (min n 65535))
           ∧ bits (d.reg DRC_ERR_INFO) 0 0 = c.val ∧ d.pends 51 ∧ s.dev.detects 0x1B c d
           ∧ Dev.withFault [DRC_FLAGS, DRC_ERR_INFO, DRCC_PANIC_US 0, DRCC_PANIC_US 1] s.dev d)
    ∧ (s.dev.inDram a 1 = true → a < 2 ^ 36 → s.dev.reg DRC_MARK_THR % 65536 = 0 → k = (s.dev.dramLoc a).1 →
         ∃ d, exec (.dramCe a comp) s = .next { s with dev := d } ∧ d.reg (DRCC_CE k) = min (s.dev.reg (DRCC_CE k) + 1) 0xFFFFFFFF
           ∧ d.reg DRC_ERR_ADDR_LO = a % 2 ^ 32 ∧ d.reg DRC_ERR_ADDR_HI = a / 2 ^ 32 ∧ bits (d.reg DRC_ERR_INFO) 0 0 = k
           ∧ bits (d.reg DRC_ERR_INFO) 10 8 = comp.val ∧ bit (d.reg DRC_ERR_INFO) 6 = false ∧ d.on DRC_FLAGS_CE = true
           ∧ (s.dev.drc.ceSeen = false → d.pends 48 ∧ s.dev.detects 0x18 k d) ∧ d.drc.ceSeen = true
           ∧ Dev.withFault [DRCC_CE k, DRC_ERR_ADDR_LO, DRC_ERR_ADDR_HI, DRC_ERR_INFO, DRC_FLAGS] { s.dev with drc := d.drc } d)
    ∧ (s.dev.inDram a 1 = true → a < 2 ^ 36 → k = (s.dev.dramLoc a).1 →
         ∃ d, exec (.dramUe a .other none) s = .next { s with dev := d } ∧ d.reg (DRCC_UE k) = min (s.dev.reg (DRCC_UE k) + 1) 0xFFFFFFFF
           ∧ d.reg DRC_ERR_ADDR_LO = a % 2 ^ 32 ∧ d.reg DRC_ERR_ADDR_HI = a / 2 ^ 32 ∧ bit (d.reg DRC_ERR_INFO) 6 = true
           ∧ d.on DRC_FLAGS_UE = true ∧ d.pends 49 ∧ s.dev.detects 0x19 k d
           ∧ exec (.dramUe a .thermalMap none) s = .next { s with dev := d.zeroDram (a / 64 * 64) 64 }
           ∧ Dev.withFault [DRCC_UE k, DRC_ERR_ADDR_LO, DRC_ERR_ADDR_HI, DRC_ERR_INFO, DRC_FLAGS] { s.dev with free := d.free } d)

/-- While FAB runs, no reaction or write waits and T0 is enabled: a tick boundary completes with one more tick counted;
a period boundary, reached on a multiple of four ticks whose work is not done, is recorded as done; a management
tick, on a multiple of 2,000 ticks, is recorded, stages one record for each event held in the tick that ends and
forgets what was logged in it. Without T0 none of them changes anything. Flash, fuses and layer files are as before.
Where the rules admit more than one reading it states the model's (log entry 55). (R22, R24, R634) -/
def Obligations.GridCommands : Prop :=
  ∀ (p k : Nat) (s : State), s.dev.runs domFab = true → s.dev.calm → s.dev.shadow = [] →
    (s.dev.on (NETT_CTRL_EN 0) = true → s.dev.t0.tick = k →
         ∃ d, exec (.tickBoundary [] []) s = .next { s with dev := d } ∧ d.grid = { s.dev.grid with ticks := s.dev.grid.ticks + 1 }
           ∧ d.flash = s.dev.flash ∧ d.sec = s.dev.sec ∧ d.start = s.dev.start)
    ∧ (s.dev.on (NETT_CTRL_EN 0) = true → s.dev.t0.tick = 4 * p → s.dev.grid.lastPeriod ≠ some p →
         ∃ d, exec .periodBoundary s = .next { s with dev := d } ∧ d.grid = { s.dev.grid with lastPeriod := some p } ∧ d.bases = s.dev.bases
           ∧ d.shd.plume = [s.dev.reg SHD_KEEPOUT, s.dev.reg SHD_GAS_DIR, s.dev.reg SHD_CONE_TAN % 65536, s.dev.reg SHD_CONE_LEN]
           ∧ d.flash = s.dev.flash ∧ d.sec = s.dev.sec ∧ d.start = s.dev.start)
    ∧ (s.dev.on (NETT_CTRL_EN 0) = true → s.dev.t0.tick = 2000 * p → s.dev.grid.lastMs ≠ some p →
       s.dev.ev.held.length = k → s.dev.wal.lost = (0, 0, 0) →
       64 * k + stagedBytes s.dev.wal.staged ≤ min s.dev.logReserve s.dev.logCapacity → s.dev.drcState ≠ 2 →
         ∃ d, exec (.managementTick []) s = .next { s with dev := d } ∧ d.grid = { s.dev.grid with lastMs := some p }
           ∧ d.ev.held = [] ∧ d.ev.logged = [] ∧ d.ev.cdcSeen = false ∧ d.bases = s.dev.bases
           ∧ d.wal.staged = s.dev.wal.staged ++ s.dev.ev.held.map (fun (r : EvRec) => s.dev.logRec 2 r.event r.words false)
           ∧ Dev.frame [.grid, .ev, .wal, .crl, .chain, .drc] [18] s.dev d)
    ∧ (s.dev.on (NETT_CTRL_EN 0) = false →
         exec (.tickBoundary [] []) s = .next s ∧ exec .periodBoundary s = .next s ∧ exec (.managementTick []) s = .next s)

/-- For every command and state, a step of the state with that command at the front of its queue is that command's
effect on the state with the rest of the queue: commands are taken first in, first out. On an empty queue the block
idles; that is the model's choice (log entry 1), no rule of the spec. (00_scope.md, 95_what_each_step_holds.md) -/
def Obligations.StepRunsFront : Prop :=
  ∀ (c : Instr) (rest : List Instr) (s : State),
    (Sys2Proof.Machine.step { s with pending := c :: rest } = exec c { s with pending := rest })
    ∧ (s.pending = [] →
         Sys2Proof.Machine.step s = .next s)

/-- After reset the registers named hold the values of their Reset columns, for every station, port, lane or loop they
exist for; no register write waits for its boundary; no fuse is programmed and no command waits; every store is in
its canonical form. The blank fuses, memories and the empty queue are the model's (log entries 1 and 3): the spec
names a part as delivered by its registers only. (R12, R40, R512, R514) -/
def Obligations.ResetValues : Prop :=
  (∀ n : Fin 16, State.reset.dev.reg (LNK_WCTRL n) = 0xF ∧ State.reset.dev.reg (SHT_LOOKAHEAD n) = 64
         ∧ State.reset.dev.reg (SHT_VMAX_PATH n) = 10000000 ∧ State.reset.dev.reg (MPLS_RATIO_LO n) = 0xC0000
         ∧ State.reset.dev.reg (TRMS_GAIN_CFG n) = 0xA0E00 ∧ State.reset.dev.reg (REED_POS_OUT_MAX 2 n) = 0x7FFF)
    ∧ (∀ n : Fin 8, State.reset.dev.reg (FBK_SPD_WIN n) = 20000 ∧ State.reset.dev.reg (AXS_SPEED n) = 0xC800)
    ∧ (∀ n : Fin 4, State.reset.dev.reg (NETT_STEP_THR n) = 1000000 ∧ State.reset.dev.reg (ISPC_TRIG_TMO n) = 10000)
    ∧ (State.reset.dev.reg DEV_STATE = 0x21 ∧ State.reset.dev.reg DEV_RESET_CAUSE = 1 ∧ State.reset.dev.reg CLK_LIVE = 1
         ∧ State.reset.dev.reg EVT_FLT_CTRL = 3 ∧ State.reset.dev.reg EVT_FLT_RETRY_WIN = 1000
         ∧ State.reset.dev.reg CRL_SCRUB_INT = 1024 ∧ State.reset.dev.reg DRC_SHARE = 0x2040 ∧ State.reset.dev.reg NET_ETYPE = 0x88B5
         ∧ State.reset.dev.reg SHD_KEEPOUT = 15000 ∧ State.reset.dev.reg TAP_FRAME = 0x04380780
         ∧ State.reset.dev.reg LMP_CHAIN_CFG = 0x05640001 ∧ State.reset.dev.reg THM_SHUTDOWN = 0x1B80
         ∧ State.reset.dev.reg WAL_RESERVE = 0xF000 ∧ State.reset.dev.reg DOF_CTRL = 1 ∧ State.reset.dev.reg TRD_ARM_LEAD = 20000
         ∧ State.reset.dev.reg TRD_SLOT_SIZE = 256 ∧ State.reset.dev.reg SEC_STATUS = 1)
    ∧ (State.reset.dev.shadow = [] ∧ State.reset.otp = Otp.blank ∧ State.reset.pending = []
         ∧ State.reset.dev.start.porstLow = true ∧ Memory.wf State.reset.dev = true)

/-- An invariant of every step, from every state: the life-cycle state and the fused EPOCH only rise and a fuse group
once programmed keeps its value, whichever command runs and wherever programming is cut short. Beside the ends of
fuse and life-cycle programming, PORST_N low and a supply loss, no command changes a fuse. A step takes exactly one
command off the queue. (R512, R513, R514, R681) -/
def Obligations.FusesOnlyMoveForward : Prop :=
  ∀ (o : Otp) (s t : State), Sys2Proof.Machine.step s = .next t →
    (o.within s.otp →
         o.within t.otp)
    ∧ (s.pending.head? ≠ some .lcProgrammed → s.pending.head? ≠ some .porstNLow →
       (∀ b : Bool, s.pending.head? ≠ some (.fuseDone b)) →
       (∀ r : Rail, s.pending.head? ≠ some (.supplyLoss r)) →
         t.otp = s.otp)
    ∧ (t.pending = s.pending.tail)

/-- While PORST_N is low the device is held in reset: of all commands only the release of PORST_N, PORST_N low again and
a supply loss can change anything; every other command completes and leaves the whole machine as it was, and none is
kept for later. That a command sent in reset is dropped is the model's inference from R509 (log entry 5). (R509,
R510, 17_start_up.md) -/
def Obligations.HeldInReset : Prop :=
  ∀ (c : Instr) (s : State), s.dev.start.porstLow = true → c ≠ .porstRelease → c ≠ .porstNLow →
    ((∀ r : Rail, c ≠ .supplyLoss r)) →
    exec c s = .next s
end

