-- ==== Sys2Proof/Laws/Sparse.lean ====
section
/-!
SUPPORT. The laws of sparse stores: read after write, and every operation keeps the canonical form.
-/
namespace Sys2Proof.Machine

variable {α : Type}

theorem sget_serase_same (d : α) (t : List (Nat × α)) (k : Nat) : sget d (serase t k) k = d := by
  induction t with
  | nil => rfl
  | cons e t ih =>
    obtain ⟨j, w⟩ := e
    by_cases h : j = k <;> simp [serase, sget, h, ih]

theorem sget_serase_ne (d : α) (t : List (Nat × α)) {k j : Nat} (h : j ≠ k) :
    sget d (serase t k) j = sget d t j := by
  induction t with
  | nil => rfl
  | cons e t ih =>
    obtain ⟨i, w⟩ := e
    by_cases hi : i = k
    · simp [serase, sget, hi, ih, Ne.symm h]
    · by_cases hj : i = j
      · subst hj; simp [serase, sget, hi]
      · simp [serase, sget, hi, hj, ih]

theorem sget_sinsert_same (d : α) (t : List (Nat × α)) (k : Nat) (v : α) (h : ∀ e ∈ t, e.1 ≠ k) :
    sget d (sinsert t k v) k = v := by
  induction t with
  | nil => simp [sinsert, sget]
  | cons e t ih =>
    obtain ⟨j, w⟩ := e
    have hj : j ≠ k := h (j, w) (by simp)
    have ht : ∀ e ∈ t, e.1 ≠ k := fun e he => h e (by simp [he])
    by_cases hk : k < j
    · simp [sinsert, sget, hk]
    · simp [sinsert, sget, hk, hj, ih ht]

theorem sget_sinsert_ne (d : α) (t : List (Nat × α)) {k j : Nat} (v : α) (h : j ≠ k) :
    sget d (sinsert t k v) j = sget d t j := by
  induction t with
  | nil => simp [sinsert, sget, Ne.symm h]
  | cons e t ih =>
    obtain ⟨i, w⟩ := e
    by_cases hk : k < i
    · simp [sinsert, sget, hk, Ne.symm h]
    · by_cases hj : i = j
      · subst hj; simp [sinsert, sget, hk]
      · simp [sinsert, sget, hk, hj, ih]

theorem serase_no_key (t : List (Nat × α)) (k : Nat) : ∀ e ∈ serase t k, e.1 ≠ k := by
  induction t with
  | nil => simp [serase]
  | cons e t ih =>
    obtain ⟨j, w⟩ := e
    by_cases hj : j = k
    · simpa [serase, hj] using ih
    · simpa [serase, hj] using ih

theorem serase_subset (t : List (Nat × α)) (k : Nat) : ∀ e ∈ serase t k, e ∈ t := by
  induction t with
  | nil => simp [serase]
  | cons e t ih =>
    obtain ⟨j, w⟩ := e
    intro e he
    by_cases hj : j = k
    · simp only [serase, hj, ↓reduceIte] at he
      exact List.mem_cons_of_mem _ (ih e he)
    · simp only [serase, hj, ↓reduceIte, List.mem_cons] at he
      exact he.elim (fun h => by simp [h]) (fun h => List.mem_cons_of_mem _ (ih e h))

theorem sinsert_mem (t : List (Nat × α)) (k : Nat) (v : α) : ∀ e ∈ sinsert t k v, e = (k, v) ∨ e ∈ t := by
  induction t with
  | nil => simp [sinsert]
  | cons e t ih =>
    obtain ⟨j, w⟩ := e
    intro e he
    by_cases hk : k < j
    · simpa [sinsert, hk] using he
    · simp only [sinsert, hk, ↓reduceIte, List.mem_cons] at he
      rcases he with h | h
      · simp [h]
      · exact (ih e h).imp id (List.mem_cons_of_mem _)

variable [DecidableEq α]

/-- A read after a write of the same key gives the value written. -/
theorem sget_sset_same (d : α) (t : List (Nat × α)) (k : Nat) (v : α) : sget d (sset d t k v) k = v := by
  by_cases h : v = d
  · simp [sset, h, sget_serase_same]
  · simp [sset, h, sget_sinsert_same d _ k v (serase_no_key t k)]

/-- A write leaves every other key as it reads. -/
theorem sget_sset_ne (c d : α) (t : List (Nat × α)) {k j : Nat} (v : α) (h : j ≠ k) :
    sget c (sset d t k v) j = sget c t j := by
  by_cases hv : v = d
  · simp [sset, hv, sget_serase_ne c t h]
  · simp [sset, hv, sget_sinsert_ne c _ v h, sget_serase_ne c t h]

/-- The canonical form said entry by entry. -/
theorem swf_cons (d : Nat → α) (j : Nat) (w : α) (t : List (Nat × α)) :
    swf d ((j, w) :: t) = true ↔ w ≠ d j ∧ (∀ e ∈ t, j < e.1) ∧ swf d t = true := by
  induction t generalizing j w with
  | nil => simp [swf]
  | cons e t ih =>
    obtain ⟨k, v⟩ := e
    have := ih k v
    simp only [swf, Bool.and_eq_true, decide_eq_true_eq, List.mem_cons, forall_eq_or_imp, and_assoc]
    constructor
    · rintro ⟨h1, h2, h3⟩
      exact ⟨h1, h2, fun e he => Nat.lt_trans h2 ((this.1 h3).2.1 e he), h3⟩
    · rintro ⟨h1, h2, _, h3⟩
      exact ⟨h1, h2, h3⟩

theorem swf_serase (d : Nat → α) (t : List (Nat × α)) (k : Nat) (h : swf d t = true) : swf d (serase t k) = true := by
  induction t with
  | nil => rfl
  | cons e t ih =>
    obtain ⟨j, w⟩ := e
    obtain ⟨h1, h2, h3⟩ := (swf_cons d j w t).1 h
    by_cases hj : j = k
    · simpa [serase, hj] using ih h3
    · simp only [serase, hj, ↓reduceIte]
      exact (swf_cons d j w _).2 ⟨h1, fun e he => h2 e (serase_subset t k e he), ih h3⟩

theorem swf_sinsert (d : Nat → α) (t : List (Nat × α)) (k : Nat) (v : α) (hv : v ≠ d k) (hk : ∀ e ∈ t, e.1 ≠ k)
    (h : swf d t = true) : swf d (sinsert t k v) = true := by
  induction t with
  | nil => simp [sinsert, swf, hv]
  | cons e t ih =>
    obtain ⟨j, w⟩ := e
    obtain ⟨h1, h2, h3⟩ := (swf_cons d j w t).1 h
    have hjk : j ≠ k := hk (j, w) (by simp)
    by_cases hlt : k < j
    · simp only [sinsert, hlt, ↓reduceIte]
      refine (swf_cons d k v _).2 ⟨hv, ?_, h⟩
      intro e he
      rcases List.mem_cons.1 he with rfl | he
      · exact hlt
      · exact Nat.lt_trans hlt (h2 e he)
    · simp only [sinsert, hlt, ↓reduceIte]
      refine (swf_cons d j w _).2 ⟨h1, ?_, ih (fun e he => hk e (by simp [he])) h3⟩
      intro e he
      rcases sinsert_mem t k v e he with rfl | he
      · exact Nat.lt_of_le_of_ne (Nat.not_lt.1 hlt) hjk
      · exact h2 e he

/-- A write keeps the canonical form. -/
theorem swf_sset (d : Nat → α) (t : List (Nat × α)) (k : Nat) (v : α) (h : swf d t = true) :
    swf d (sset (d k) t k v) = true := by
  by_cases hv : v = d k
  · simpa [sset, hv] using swf_serase d t k h
  · simpa [sset, hv] using swf_sinsert d _ k v hv (serase_no_key t k) (swf_serase d t k h)

/-- Writing consecutive bytes keeps the canonical form. -/
theorem swf_storeBytes (d : Byte) (bs : List Byte) (m : List Host.Cell) (a : Nat) (h : swf (fun _ => d) m = true) :
    swf (fun _ => d) (storeBytes d m a bs) = true := by
  induction bs generalizing m a with
  | nil => exact h
  | cons b bs ih => exact ih _ _ (swf_sset (fun _ => d) m a b h)

/-- Dropping entries keeps the canonical form. -/
theorem swf_filter (d : Nat → α) (p : Nat × α → Bool) (t : List (Nat × α)) (h : swf d t = true) :
    swf d (t.filter p) = true := by
  induction t with
  | nil => rfl
  | cons e t ih =>
    obtain ⟨j, w⟩ := e
    obtain ⟨h1, h2, h3⟩ := (swf_cons d j w t).1 h
    by_cases hp : p (j, w) = true
    · simp only [List.filter_cons_of_pos hp]
      exact (swf_cons d j w _).2 ⟨h1, fun e he => h2 e (List.mem_filter.1 he).1, ih h3⟩
    · simpa [List.filter_cons_of_neg hp] using ih h3

/-- A byte outside the bytes written reads as before. -/
theorem sget_storeBytes_out (c d : Byte) (bs : List Byte) (m : List Host.Cell) (a x : Nat)
    (h : x < a ∨ a + bs.length ≤ x) : sget c (storeBytes d m a bs) x = sget c m x := by
  induction bs generalizing m a with
  | nil => rfl
  | cons b bs ih =>
    simp only [List.length_cons] at h
    rw [storeBytes, ih _ _ (by omega), sget_sset_ne c d m b (by omega)]

/-- A byte written reads as the byte written. -/
theorem sget_storeBytes_in (d : Byte) (bs : List Byte) (m : List Host.Cell) (a i : Nat) (h : i < bs.length) :
    sget d (storeBytes d m a bs) (a + i) = bs[i] := by
  induction bs generalizing m a i with
  | nil => simp at h
  | cons b bs ih =>
    cases i with
    | zero =>
      rw [storeBytes, sget_storeBytes_out d d bs _ _ _ (by omega)]
      simpa using sget_sset_same d m a b
    | succ i =>
      have := ih (sset d m a b) (a + 1) i (by simpa using h)
      rw [storeBytes, show a + (i + 1) = a + 1 + i by omega, this]
      simp

end Sys2Proof.Machine
end

