-- ==== Sys2Proof/Laws/Regs.lean ====
section
/-!
SUPPORT. The laws of registers and fields: what reads back after a write of the same, of another, of a disjoint field.
-/
namespace Sys2Proof.Machine

open Reg

/-! ### Bit fields -/

theorem testBit_bits (x hi lo i : Nat) :
    (bits x hi lo).testBit i = (decide (i < hi + 1 - lo) && x.testBit (lo + i)) := by
  simp [bits, Nat.testBit_mod_two_pow, Nat.testBit_div_two_pow, Nat.add_comm]

theorem testBit_putBits (x hi lo v i : Nat) (h : lo ≤ hi) :
    (putBits x hi lo v).testBit i = if i < lo then x.testBit i else if i ≤ hi then v.testBit (i - lo) else x.testBit i := by
  have hlow : v % 2 ^ (hi + 1 - lo) * 2 ^ lo + x % 2 ^ lo < 2 ^ (hi + 1) := by
    have h1 : v % 2 ^ (hi + 1 - lo) < 2 ^ (hi + 1 - lo) := Nat.mod_lt _ (by positivity)
    have h2 : x % 2 ^ lo < 2 ^ lo := Nat.mod_lt _ (by positivity)
    have h3 : 2 ^ (hi + 1) = 2 ^ (hi + 1 - lo) * 2 ^ lo := by rw [← pow_add]; congr 1; omega
    rw [h3]
    calc _ < v % 2 ^ (hi + 1 - lo) * 2 ^ lo + 2 ^ lo := by omega
      _ = (v % 2 ^ (hi + 1 - lo) + 1) * 2 ^ lo := by ring
      _ ≤ _ := Nat.mul_le_mul_right _ h1
  have hsum : putBits x hi lo v =
      2 ^ (hi + 1) * (x / 2 ^ (hi + 1)) + (2 ^ lo * (v % 2 ^ (hi + 1 - lo)) + x % 2 ^ lo) := by
    simp only [putBits]; ring
  rw [hsum, Nat.testBit_two_pow_mul_add _ (by rwa [Nat.mul_comm (2 ^ lo)]),
    Nat.testBit_two_pow_mul_add _ (Nat.mod_lt _ (by positivity))]
  by_cases h1 : i < lo
  · simp [h1, show i < hi + 1 by omega, Nat.testBit_mod_two_pow]
  · by_cases h2 : i ≤ hi
    · simp [h1, h2, show i < hi + 1 by omega, Nat.testBit_mod_two_pow, show i - lo < hi + 1 - lo by omega]
    · simp [h1, h2, show ¬ i < hi + 1 by omega, Nat.testBit_div_two_pow, show i - (hi + 1) + (hi + 1) = i by omega]

/-- A field written reads as the low bits of what was written. -/
theorem bits_putBits (x hi lo v : Nat) (h : lo ≤ hi) : bits (putBits x hi lo v) hi lo = v % 2 ^ (hi + 1 - lo) := by
  apply Nat.eq_of_testBit_eq
  intro i
  rw [testBit_bits, testBit_putBits _ _ _ _ _ h, Nat.testBit_mod_two_pow]
  by_cases hi' : i < hi + 1 - lo
  · simp [hi', show lo + i ≤ hi by omega]
  · simp [hi']

/-- A field disjoint from the one written reads as before. -/
theorem bits_putBits_ne (x hi lo v hi' lo' : Nat) (h : lo ≤ hi) (hd : hi' < lo ∨ hi < lo') :
    bits (putBits x hi lo v) hi' lo' = bits x hi' lo' := by
  apply Nat.eq_of_testBit_eq
  intro i
  rw [testBit_bits, testBit_bits, testBit_putBits _ _ _ _ _ h]
  by_cases hi1 : i < hi' + 1 - lo'
  · rcases hd with hd | hd
    · simp [show lo' + i < lo by omega]
    · simp [show ¬ lo' + i < lo by omega, show ¬ lo' + i ≤ hi by omega]
  · simp [hi1]

theorem bits_mod_word (x hi lo : Nat) (h : hi < 32) : bits (x % 2 ^ 32) hi lo = bits x hi lo := by
  apply Nat.eq_of_testBit_eq
  intro i
  rw [testBit_bits, testBit_bits, Nat.testBit_mod_two_pow]
  by_cases h1 : i < hi + 1 - lo
  · simp [show lo + i < 32 by omega]
  · simp [h1]

/-- A one-bit field of a register reads as the bit. -/
theorem bit_eq_bits (x i : Nat) : bit x i = (bits x i i == 1) := by
  have h := testBit_bits x i i 0
  have hl : bits x i i < 2 := by simp [bits]; omega
  rcases (show bits x i i = 0 ∨ bits x i i = 1 by omega) with h0 | h0 <;> simp_all [bit]

/-! ### Registers -/

theorem reg_lt (d : Dev) (a : Nat) : d.reg a < 2 ^ 32 := (sget (resetOf a) d.regs a).isLt

/-- A register written reads as the low 32 bits of what was written. -/
@[simp] theorem reg_setReg_same (d : Dev) (a v : Nat) : (d.setReg a v).reg a = v % 2 ^ 32 := by
  simp [Dev.reg, Dev.setReg, sget_sset_same]

/-- Every other register reads as before. -/
theorem reg_setReg_ne (d : Dev) {a b : Nat} (v : Nat) (h : b ≠ a) : (d.setReg a v).reg b = d.reg b := by
  simp [Dev.reg, Dev.setReg, sget_sset_ne _ _ _ _ h]

/-- A field put leaves every other register as it reads. -/
theorem reg_put_ne (d : Dev) (f : Field) (v : Nat) {b : Nat} (h : b ≠ f.addr) : (d.put f v).reg b = d.reg b :=
  reg_setReg_ne d _ h

theorem reg_count_ne (d : Dev) {a b : Nat} (k : Nat) (h : b ≠ a) : (d.count a k).reg b = d.reg b :=
  reg_setReg_ne d _ h

/-- A counting register holds its count plus the increment, saturating. -/
theorem reg_count_same (d : Dev) (a k : Nat) : (d.count a k).reg a = min (d.reg a + k) 0xFFFFFFFF := by
  rw [Dev.count, reg_setReg_same]
  exact Nat.mod_eq_of_lt (Nat.lt_of_le_of_lt (Nat.min_le_right _ _) (by decide))

/-- A field put reads as the low bits of the value. -/
theorem get_put_same (d : Dev) (f : Field) (v : Nat) (h : f.lo ≤ f.hi) (h32 : f.hi < 32) :
    (d.put f v).get f = v % 2 ^ (f.hi + 1 - f.lo) := by
  simp only [Dev.get, Dev.put, reg_setReg_same]
  rw [bits_mod_word _ _ _ h32, bits_putBits _ _ _ _ h]

/-- A field of another register, or a disjoint field of the same one, reads as before. -/
theorem get_put_ne (d : Dev) (f g : Field) (v : Nat) (h : f.lo ≤ f.hi) (h32 : g.hi < 32)
    (hd : g.addr ≠ f.addr ∨ g.hi < f.lo ∨ f.hi < g.lo) : (d.put f v).get g = d.get g := by
  by_cases ha : g.addr = f.addr
  · have hd' : g.hi < f.lo ∨ f.hi < g.lo := hd.resolve_left (fun hne => hne ha)
    simp only [Dev.get, Dev.put, ha, reg_setReg_same]
    rw [bits_mod_word _ _ _ h32, bits_putBits_ne _ _ _ _ _ _ h hd']
  · simp only [Dev.get, reg_put_ne d f v ha]

theorem get_setReg_ne (d : Dev) (a v : Nat) (g : Field) (h : g.addr ≠ a) : (d.setReg a v).get g = d.get g := by
  simp only [Dev.get, reg_setReg_ne d v h]

/-- A field of a register written is that field of the word written. -/
theorem get_setReg_same (d : Dev) (g : Field) (v : Nat) (h32 : g.hi < 32) :
    (d.setReg g.addr v).get g = bits v g.hi g.lo := by
  simp only [Dev.get, reg_setReg_same, bits_mod_word _ _ _ h32]

/-- A one-bit flag put at 1 reads set. -/
theorem on_put_one (d : Dev) (f : Field) (h : f.hi = f.lo) (h32 : f.hi < 32) : (d.put f 1).on f = true := by
  simp [Dev.on, get_put_same d f 1 (by omega) h32, h]

/-- A field that holds the value put keeps its register. -/
theorem get_lt (d : Dev) (f : Field) : d.get f < 2 ^ (f.hi + 1 - f.lo) := Nat.mod_lt _ (by positivity)

end Sys2Proof.Machine
end

