-- ==== Sys2Proof/Laws/State.lean ====
section
/-!
SUPPORT. One lemma per field of the device per named update: what the update leaves as it is. All are true by
unfolding; no later proof unfolds a record update.
-/
namespace Sys2Proof.Machine

/-! ### setReg -/

@[simp] theorem setReg_shadow (d : Dev) (a v : Nat) : (d.setReg a v).shadow = d.shadow := rfl
@[simp] theorem setReg_free (d : Dev) (a v : Nat) : (d.setReg a v).free = d.free := rfl
@[simp] theorem setReg_grid (d : Dev) (a v : Nat) : (d.setReg a v).grid = d.grid := rfl
@[simp] theorem setReg_bases (d : Dev) (a v : Nat) : (d.setReg a v).bases = d.bases := rfl
@[simp] theorem setReg_ev (d : Dev) (a v : Nat) : (d.setReg a v).ev = d.ev := rfl
@[simp] theorem setReg_flt (d : Dev) (a v : Nat) : (d.setReg a v).flt = d.flt := rfl
@[simp] theorem setReg_wal (d : Dev) (a v : Nat) : (d.setReg a v).wal = d.wal := rfl
@[simp] theorem setReg_chain (d : Dev) (a v : Nat) : (d.setReg a v).chain = d.chain := rfl
@[simp] theorem setReg_trd (d : Dev) (a v : Nat) : (d.setReg a v).trd = d.trd := rfl
@[simp] theorem setReg_creel (d : Dev) (a v : Nat) : (d.setReg a v).creel = d.creel := rfl
@[simp] theorem setReg_dram (d : Dev) (a v : Nat) : (d.setReg a v).dram = d.dram := rfl
@[simp] theorem setReg_flash (d : Dev) (a v : Nat) : (d.setReg a v).flash = d.flash := rfl
@[simp] theorem setReg_dof (d : Dev) (a v : Nat) : (d.setReg a v).dof = d.dof := rfl
@[simp] theorem setReg_axes (d : Dev) (a v : Nat) : (d.setReg a v).axes = d.axes := rfl
@[simp] theorem setReg_sht (d : Dev) (a v : Nat) : (d.setReg a v).sht = d.sht := rfl
@[simp] theorem setReg_start (d : Dev) (a v : Nat) : (d.setReg a v).start = d.start := rfl
@[simp] theorem setReg_lmp (d : Dev) (a v : Nat) : (d.setReg a v).lmp = d.lmp := rfl
@[simp] theorem setReg_isp (d : Dev) (a v : Nat) : (d.setReg a v).isp = d.isp := rfl
@[simp] theorem setReg_crl (d : Dev) (a v : Nat) : (d.setReg a v).crl = d.crl := rfl
@[simp] theorem setReg_sec (d : Dev) (a v : Nat) : (d.setReg a v).sec = d.sec := rfl
@[simp] theorem setReg_pins (d : Dev) (a v : Nat) : (d.setReg a v).pins = d.pins := rfl
@[simp] theorem setReg_mpl (d : Dev) (a v : Nat) : (d.setReg a v).mpl = d.mpl := rfl
@[simp] theorem setReg_tap (d : Dev) (a v : Nat) : (d.setReg a v).tap = d.tap := rfl
@[simp] theorem setReg_drc (d : Dev) (a v : Nat) : (d.setReg a v).drc = d.drc := rfl
@[simp] theorem setReg_shd (d : Dev) (a v : Nat) : (d.setReg a v).shd = d.shd := rfl
@[simp] theorem setReg_reed (d : Dev) (a v : Nat) : (d.setReg a v).reed = d.reed := rfl
@[simp] theorem setReg_lnk (d : Dev) (a v : Nat) : (d.setReg a v).lnk = d.lnk := rfl
@[simp] theorem setReg_lanes (d : Dev) (a v : Nat) : (d.setReg a v).lanes = d.lanes := rfl
@[simp] theorem setReg_trm (d : Dev) (a v : Nat) : (d.setReg a v).trm = d.trm := rfl
@[simp] theorem setReg_thm (d : Dev) (a v : Nat) : (d.setReg a v).thm = d.thm := rfl
@[simp] theorem setReg_mgm (d : Dev) (a v : Nat) : (d.setReg a v).mgm = d.mgm := rfl

/-! ### put -/

@[simp] theorem put_shadow (d : Dev) (f : Field) (v : Nat) : (d.put f v).shadow = d.shadow := rfl
@[simp] theorem put_free (d : Dev) (f : Field) (v : Nat) : (d.put f v).free = d.free := rfl
@[simp] theorem put_grid (d : Dev) (f : Field) (v : Nat) : (d.put f v).grid = d.grid := rfl
@[simp] theorem put_bases (d : Dev) (f : Field) (v : Nat) : (d.put f v).bases = d.bases := rfl
@[simp] theorem put_ev (d : Dev) (f : Field) (v : Nat) : (d.put f v).ev = d.ev := rfl
@[simp] theorem put_flt (d : Dev) (f : Field) (v : Nat) : (d.put f v).flt = d.flt := rfl
@[simp] theorem put_wal (d : Dev) (f : Field) (v : Nat) : (d.put f v).wal = d.wal := rfl
@[simp] theorem put_chain (d : Dev) (f : Field) (v : Nat) : (d.put f v).chain = d.chain := rfl
@[simp] theorem put_trd (d : Dev) (f : Field) (v : Nat) : (d.put f v).trd = d.trd := rfl
@[simp] theorem put_creel (d : Dev) (f : Field) (v : Nat) : (d.put f v).creel = d.creel := rfl
@[simp] theorem put_dram (d : Dev) (f : Field) (v : Nat) : (d.put f v).dram = d.dram := rfl
@[simp] theorem put_flash (d : Dev) (f : Field) (v : Nat) : (d.put f v).flash = d.flash := rfl
@[simp] theorem put_dof (d : Dev) (f : Field) (v : Nat) : (d.put f v).dof = d.dof := rfl
@[simp] theorem put_axes (d : Dev) (f : Field) (v : Nat) : (d.put f v).axes = d.axes := rfl
@[simp] theorem put_sht (d : Dev) (f : Field) (v : Nat) : (d.put f v).sht = d.sht := rfl
@[simp] theorem put_start (d : Dev) (f : Field) (v : Nat) : (d.put f v).start = d.start := rfl
@[simp] theorem put_lmp (d : Dev) (f : Field) (v : Nat) : (d.put f v).lmp = d.lmp := rfl
@[simp] theorem put_isp (d : Dev) (f : Field) (v : Nat) : (d.put f v).isp = d.isp := rfl
@[simp] theorem put_crl (d : Dev) (f : Field) (v : Nat) : (d.put f v).crl = d.crl := rfl
@[simp] theorem put_sec (d : Dev) (f : Field) (v : Nat) : (d.put f v).sec = d.sec := rfl
@[simp] theorem put_pins (d : Dev) (f : Field) (v : Nat) : (d.put f v).pins = d.pins := rfl
@[simp] theorem put_mpl (d : Dev) (f : Field) (v : Nat) : (d.put f v).mpl = d.mpl := rfl
@[simp] theorem put_tap (d : Dev) (f : Field) (v : Nat) : (d.put f v).tap = d.tap := rfl
@[simp] theorem put_drc (d : Dev) (f : Field) (v : Nat) : (d.put f v).drc = d.drc := rfl
@[simp] theorem put_shd (d : Dev) (f : Field) (v : Nat) : (d.put f v).shd = d.shd := rfl
@[simp] theorem put_reed (d : Dev) (f : Field) (v : Nat) : (d.put f v).reed = d.reed := rfl
@[simp] theorem put_lnk (d : Dev) (f : Field) (v : Nat) : (d.put f v).lnk = d.lnk := rfl
@[simp] theorem put_lanes (d : Dev) (f : Field) (v : Nat) : (d.put f v).lanes = d.lanes := rfl
@[simp] theorem put_trm (d : Dev) (f : Field) (v : Nat) : (d.put f v).trm = d.trm := rfl
@[simp] theorem put_thm (d : Dev) (f : Field) (v : Nat) : (d.put f v).thm = d.thm := rfl
@[simp] theorem put_mgm (d : Dev) (f : Field) (v : Nat) : (d.put f v).mgm = d.mgm := rfl

/-! ### count -/

@[simp] theorem count_shadow (d : Dev) (a k : Nat) : (d.count a k).shadow = d.shadow := rfl
@[simp] theorem count_free (d : Dev) (a k : Nat) : (d.count a k).free = d.free := rfl
@[simp] theorem count_grid (d : Dev) (a k : Nat) : (d.count a k).grid = d.grid := rfl
@[simp] theorem count_bases (d : Dev) (a k : Nat) : (d.count a k).bases = d.bases := rfl
@[simp] theorem count_ev (d : Dev) (a k : Nat) : (d.count a k).ev = d.ev := rfl
@[simp] theorem count_flt (d : Dev) (a k : Nat) : (d.count a k).flt = d.flt := rfl
@[simp] theorem count_wal (d : Dev) (a k : Nat) : (d.count a k).wal = d.wal := rfl
@[simp] theorem count_chain (d : Dev) (a k : Nat) : (d.count a k).chain = d.chain := rfl
@[simp] theorem count_trd (d : Dev) (a k : Nat) : (d.count a k).trd = d.trd := rfl
@[simp] theorem count_creel (d : Dev) (a k : Nat) : (d.count a k).creel = d.creel := rfl
@[simp] theorem count_dram (d : Dev) (a k : Nat) : (d.count a k).dram = d.dram := rfl
@[simp] theorem count_flash (d : Dev) (a k : Nat) : (d.count a k).flash = d.flash := rfl
@[simp] theorem count_dof (d : Dev) (a k : Nat) : (d.count a k).dof = d.dof := rfl
@[simp] theorem count_axes (d : Dev) (a k : Nat) : (d.count a k).axes = d.axes := rfl
@[simp] theorem count_sht (d : Dev) (a k : Nat) : (d.count a k).sht = d.sht := rfl
@[simp] theorem count_start (d : Dev) (a k : Nat) : (d.count a k).start = d.start := rfl
@[simp] theorem count_lmp (d : Dev) (a k : Nat) : (d.count a k).lmp = d.lmp := rfl
@[simp] theorem count_isp (d : Dev) (a k : Nat) : (d.count a k).isp = d.isp := rfl
@[simp] theorem count_crl (d : Dev) (a k : Nat) : (d.count a k).crl = d.crl := rfl
@[simp] theorem count_sec (d : Dev) (a k : Nat) : (d.count a k).sec = d.sec := rfl
@[simp] theorem count_pins (d : Dev) (a k : Nat) : (d.count a k).pins = d.pins := rfl
@[simp] theorem count_mpl (d : Dev) (a k : Nat) : (d.count a k).mpl = d.mpl := rfl
@[simp] theorem count_tap (d : Dev) (a k : Nat) : (d.count a k).tap = d.tap := rfl
@[simp] theorem count_drc (d : Dev) (a k : Nat) : (d.count a k).drc = d.drc := rfl
@[simp] theorem count_shd (d : Dev) (a k : Nat) : (d.count a k).shd = d.shd := rfl
@[simp] theorem count_reed (d : Dev) (a k : Nat) : (d.count a k).reed = d.reed := rfl
@[simp] theorem count_lnk (d : Dev) (a k : Nat) : (d.count a k).lnk = d.lnk := rfl
@[simp] theorem count_lanes (d : Dev) (a k : Nat) : (d.count a k).lanes = d.lanes := rfl
@[simp] theorem count_trm (d : Dev) (a k : Nat) : (d.count a k).trm = d.trm := rfl
@[simp] theorem count_thm (d : Dev) (a k : Nat) : (d.count a k).thm = d.thm := rfl
@[simp] theorem count_mgm (d : Dev) (a k : Nat) : (d.count a k).mgm = d.mgm := rfl

/-! ### countF -/

@[simp] theorem countF_shadow (d : Dev) (f : Field) : (d.countF f).shadow = d.shadow := rfl
@[simp] theorem countF_free (d : Dev) (f : Field) : (d.countF f).free = d.free := rfl
@[simp] theorem countF_grid (d : Dev) (f : Field) : (d.countF f).grid = d.grid := rfl
@[simp] theorem countF_bases (d : Dev) (f : Field) : (d.countF f).bases = d.bases := rfl
@[simp] theorem countF_ev (d : Dev) (f : Field) : (d.countF f).ev = d.ev := rfl
@[simp] theorem countF_flt (d : Dev) (f : Field) : (d.countF f).flt = d.flt := rfl
@[simp] theorem countF_wal (d : Dev) (f : Field) : (d.countF f).wal = d.wal := rfl
@[simp] theorem countF_chain (d : Dev) (f : Field) : (d.countF f).chain = d.chain := rfl
@[simp] theorem countF_trd (d : Dev) (f : Field) : (d.countF f).trd = d.trd := rfl
@[simp] theorem countF_creel (d : Dev) (f : Field) : (d.countF f).creel = d.creel := rfl
@[simp] theorem countF_dram (d : Dev) (f : Field) : (d.countF f).dram = d.dram := rfl
@[simp] theorem countF_flash (d : Dev) (f : Field) : (d.countF f).flash = d.flash := rfl
@[simp] theorem countF_dof (d : Dev) (f : Field) : (d.countF f).dof = d.dof := rfl
@[simp] theorem countF_axes (d : Dev) (f : Field) : (d.countF f).axes = d.axes := rfl
@[simp] theorem countF_sht (d : Dev) (f : Field) : (d.countF f).sht = d.sht := rfl
@[simp] theorem countF_start (d : Dev) (f : Field) : (d.countF f).start = d.start := rfl
@[simp] theorem countF_lmp (d : Dev) (f : Field) : (d.countF f).lmp = d.lmp := rfl
@[simp] theorem countF_isp (d : Dev) (f : Field) : (d.countF f).isp = d.isp := rfl
@[simp] theorem countF_crl (d : Dev) (f : Field) : (d.countF f).crl = d.crl := rfl
@[simp] theorem countF_sec (d : Dev) (f : Field) : (d.countF f).sec = d.sec := rfl
@[simp] theorem countF_pins (d : Dev) (f : Field) : (d.countF f).pins = d.pins := rfl
@[simp] theorem countF_mpl (d : Dev) (f : Field) : (d.countF f).mpl = d.mpl := rfl
@[simp] theorem countF_tap (d : Dev) (f : Field) : (d.countF f).tap = d.tap := rfl
@[simp] theorem countF_drc (d : Dev) (f : Field) : (d.countF f).drc = d.drc := rfl
@[simp] theorem countF_shd (d : Dev) (f : Field) : (d.countF f).shd = d.shd := rfl
@[simp] theorem countF_reed (d : Dev) (f : Field) : (d.countF f).reed = d.reed := rfl
@[simp] theorem countF_lnk (d : Dev) (f : Field) : (d.countF f).lnk = d.lnk := rfl
@[simp] theorem countF_lanes (d : Dev) (f : Field) : (d.countF f).lanes = d.lanes := rfl
@[simp] theorem countF_trm (d : Dev) (f : Field) : (d.countF f).trm = d.trm := rfl
@[simp] theorem countF_thm (d : Dev) (f : Field) : (d.countF f).thm = d.thm := rfl
@[simp] theorem countF_mgm (d : Dev) (f : Field) : (d.countF f).mgm = d.mgm := rfl

/-! ### setRegS -/

@[simp] theorem setRegS_shadow (d : Dev) (a : Nat) (v : Int) : (d.setRegS a v).shadow = d.shadow := rfl
@[simp] theorem setRegS_free (d : Dev) (a : Nat) (v : Int) : (d.setRegS a v).free = d.free := rfl
@[simp] theorem setRegS_grid (d : Dev) (a : Nat) (v : Int) : (d.setRegS a v).grid = d.grid := rfl
@[simp] theorem setRegS_bases (d : Dev) (a : Nat) (v : Int) : (d.setRegS a v).bases = d.bases := rfl
@[simp] theorem setRegS_ev (d : Dev) (a : Nat) (v : Int) : (d.setRegS a v).ev = d.ev := rfl
@[simp] theorem setRegS_flt (d : Dev) (a : Nat) (v : Int) : (d.setRegS a v).flt = d.flt := rfl
@[simp] theorem setRegS_wal (d : Dev) (a : Nat) (v : Int) : (d.setRegS a v).wal = d.wal := rfl
@[simp] theorem setRegS_chain (d : Dev) (a : Nat) (v : Int) : (d.setRegS a v).chain = d.chain := rfl
@[simp] theorem setRegS_trd (d : Dev) (a : Nat) (v : Int) : (d.setRegS a v).trd = d.trd := rfl
@[simp] theorem setRegS_creel (d : Dev) (a : Nat) (v : Int) : (d.setRegS a v).creel = d.creel := rfl
@[simp] theorem setRegS_dram (d : Dev) (a : Nat) (v : Int) : (d.setRegS a v).dram = d.dram := rfl
@[simp] theorem setRegS_flash (d : Dev) (a : Nat) (v : Int) : (d.setRegS a v).flash = d.flash := rfl
@[simp] theorem setRegS_dof (d : Dev) (a : Nat) (v : Int) : (d.setRegS a v).dof = d.dof := rfl
@[simp] theorem setRegS_axes (d : Dev) (a : Nat) (v : Int) : (d.setRegS a v).axes = d.axes := rfl
@[simp] theorem setRegS_sht (d : Dev) (a : Nat) (v : Int) : (d.setRegS a v).sht = d.sht := rfl
@[simp] theorem setRegS_start (d : Dev) (a : Nat) (v : Int) : (d.setRegS a v).start = d.start := rfl
@[simp] theorem setRegS_lmp (d : Dev) (a : Nat) (v : Int) : (d.setRegS a v).lmp = d.lmp := rfl
@[simp] theorem setRegS_isp (d : Dev) (a : Nat) (v : Int) : (d.setRegS a v).isp = d.isp := rfl
@[simp] theorem setRegS_crl (d : Dev) (a : Nat) (v : Int) : (d.setRegS a v).crl = d.crl := rfl
@[simp] theorem setRegS_sec (d : Dev) (a : Nat) (v : Int) : (d.setRegS a v).sec = d.sec := rfl
@[simp] theorem setRegS_pins (d : Dev) (a : Nat) (v : Int) : (d.setRegS a v).pins = d.pins := rfl
@[simp] theorem setRegS_mpl (d : Dev) (a : Nat) (v : Int) : (d.setRegS a v).mpl = d.mpl := rfl
@[simp] theorem setRegS_tap (d : Dev) (a : Nat) (v : Int) : (d.setRegS a v).tap = d.tap := rfl
@[simp] theorem setRegS_drc (d : Dev) (a : Nat) (v : Int) : (d.setRegS a v).drc = d.drc := rfl
@[simp] theorem setRegS_shd (d : Dev) (a : Nat) (v : Int) : (d.setRegS a v).shd = d.shd := rfl
@[simp] theorem setRegS_reed (d : Dev) (a : Nat) (v : Int) : (d.setRegS a v).reed = d.reed := rfl
@[simp] theorem setRegS_lnk (d : Dev) (a : Nat) (v : Int) : (d.setRegS a v).lnk = d.lnk := rfl
@[simp] theorem setRegS_lanes (d : Dev) (a : Nat) (v : Int) : (d.setRegS a v).lanes = d.lanes := rfl
@[simp] theorem setRegS_trm (d : Dev) (a : Nat) (v : Int) : (d.setRegS a v).trm = d.trm := rfl
@[simp] theorem setRegS_thm (d : Dev) (a : Nat) (v : Int) : (d.setRegS a v).thm = d.thm := rfl
@[simp] theorem setRegS_mgm (d : Dev) (a : Nat) (v : Int) : (d.setRegS a v).mgm = d.mgm := rfl

/-! ### setShadow -/

@[simp] theorem setShadow_regs (d : Dev) (a v : Nat) : (d.setShadow a v).regs = d.regs := rfl
@[simp] theorem setShadow_free (d : Dev) (a v : Nat) : (d.setShadow a v).free = d.free := rfl
@[simp] theorem setShadow_grid (d : Dev) (a v : Nat) : (d.setShadow a v).grid = d.grid := rfl
@[simp] theorem setShadow_bases (d : Dev) (a v : Nat) : (d.setShadow a v).bases = d.bases := rfl
@[simp] theorem setShadow_ev (d : Dev) (a v : Nat) : (d.setShadow a v).ev = d.ev := rfl
@[simp] theorem setShadow_flt (d : Dev) (a v : Nat) : (d.setShadow a v).flt = d.flt := rfl
@[simp] theorem setShadow_wal (d : Dev) (a v : Nat) : (d.setShadow a v).wal = d.wal := rfl
@[simp] theorem setShadow_chain (d : Dev) (a v : Nat) : (d.setShadow a v).chain = d.chain := rfl
@[simp] theorem setShadow_trd (d : Dev) (a v : Nat) : (d.setShadow a v).trd = d.trd := rfl
@[simp] theorem setShadow_creel (d : Dev) (a v : Nat) : (d.setShadow a v).creel = d.creel := rfl
@[simp] theorem setShadow_dram (d : Dev) (a v : Nat) : (d.setShadow a v).dram = d.dram := rfl
@[simp] theorem setShadow_flash (d : Dev) (a v : Nat) : (d.setShadow a v).flash = d.flash := rfl
@[simp] theorem setShadow_dof (d : Dev) (a v : Nat) : (d.setShadow a v).dof = d.dof := rfl
@[simp] theorem setShadow_axes (d : Dev) (a v : Nat) : (d.setShadow a v).axes = d.axes := rfl
@[simp] theorem setShadow_sht (d : Dev) (a v : Nat) : (d.setShadow a v).sht = d.sht := rfl
@[simp] theorem setShadow_start (d : Dev) (a v : Nat) : (d.setShadow a v).start = d.start := rfl
@[simp] theorem setShadow_lmp (d : Dev) (a v : Nat) : (d.setShadow a v).lmp = d.lmp := rfl
@[simp] theorem setShadow_isp (d : Dev) (a v : Nat) : (d.setShadow a v).isp = d.isp := rfl
@[simp] theorem setShadow_crl (d : Dev) (a v : Nat) : (d.setShadow a v).crl = d.crl := rfl
@[simp] theorem setShadow_sec (d : Dev) (a v : Nat) : (d.setShadow a v).sec = d.sec := rfl
@[simp] theorem setShadow_pins (d : Dev) (a v : Nat) : (d.setShadow a v).pins = d.pins := rfl
@[simp] theorem setShadow_mpl (d : Dev) (a v : Nat) : (d.setShadow a v).mpl = d.mpl := rfl
@[simp] theorem setShadow_tap (d : Dev) (a v : Nat) : (d.setShadow a v).tap = d.tap := rfl
@[simp] theorem setShadow_drc (d : Dev) (a v : Nat) : (d.setShadow a v).drc = d.drc := rfl
@[simp] theorem setShadow_shd (d : Dev) (a v : Nat) : (d.setShadow a v).shd = d.shd := rfl
@[simp] theorem setShadow_reed (d : Dev) (a v : Nat) : (d.setShadow a v).reed = d.reed := rfl
@[simp] theorem setShadow_lnk (d : Dev) (a v : Nat) : (d.setShadow a v).lnk = d.lnk := rfl
@[simp] theorem setShadow_lanes (d : Dev) (a v : Nat) : (d.setShadow a v).lanes = d.lanes := rfl
@[simp] theorem setShadow_trm (d : Dev) (a v : Nat) : (d.setShadow a v).trm = d.trm := rfl
@[simp] theorem setShadow_thm (d : Dev) (a v : Nat) : (d.setShadow a v).thm = d.thm := rfl
@[simp] theorem setShadow_mgm (d : Dev) (a v : Nat) : (d.setShadow a v).mgm = d.mgm := rfl

/-! ### setCreelBytes -/

@[simp] theorem setCreelBytes_regs (d : Dev) (a : Nat) (bs : List Byte) : (d.setCreelBytes a bs).regs = d.regs := rfl
@[simp] theorem setCreelBytes_shadow (d : Dev) (a : Nat) (bs : List Byte) : (d.setCreelBytes a bs).shadow = d.shadow := rfl
@[simp] theorem setCreelBytes_free (d : Dev) (a : Nat) (bs : List Byte) : (d.setCreelBytes a bs).free = d.free := rfl
@[simp] theorem setCreelBytes_grid (d : Dev) (a : Nat) (bs : List Byte) : (d.setCreelBytes a bs).grid = d.grid := rfl
@[simp] theorem setCreelBytes_bases (d : Dev) (a : Nat) (bs : List Byte) : (d.setCreelBytes a bs).bases = d.bases := rfl
@[simp] theorem setCreelBytes_ev (d : Dev) (a : Nat) (bs : List Byte) : (d.setCreelBytes a bs).ev = d.ev := rfl
@[simp] theorem setCreelBytes_flt (d : Dev) (a : Nat) (bs : List Byte) : (d.setCreelBytes a bs).flt = d.flt := rfl
@[simp] theorem setCreelBytes_wal (d : Dev) (a : Nat) (bs : List Byte) : (d.setCreelBytes a bs).wal = d.wal := rfl
@[simp] theorem setCreelBytes_chain (d : Dev) (a : Nat) (bs : List Byte) : (d.setCreelBytes a bs).chain = d.chain := rfl
@[simp] theorem setCreelBytes_trd (d : Dev) (a : Nat) (bs : List Byte) : (d.setCreelBytes a bs).trd = d.trd := rfl
@[simp] theorem setCreelBytes_dram (d : Dev) (a : Nat) (bs : List Byte) : (d.setCreelBytes a bs).dram = d.dram := rfl
@[simp] theorem setCreelBytes_flash (d : Dev) (a : Nat) (bs : List Byte) : (d.setCreelBytes a bs).flash = d.flash := rfl
@[simp] theorem setCreelBytes_dof (d : Dev) (a : Nat) (bs : List Byte) : (d.setCreelBytes a bs).dof = d.dof := rfl
@[simp] theorem setCreelBytes_axes (d : Dev) (a : Nat) (bs : List Byte) : (d.setCreelBytes a bs).axes = d.axes := rfl
@[simp] theorem setCreelBytes_sht (d : Dev) (a : Nat) (bs : List Byte) : (d.setCreelBytes a bs).sht = d.sht := rfl
@[simp] theorem setCreelBytes_start (d : Dev) (a : Nat) (bs : List Byte) : (d.setCreelBytes a bs).start = d.start := rfl
@[simp] theorem setCreelBytes_lmp (d : Dev) (a : Nat) (bs : List Byte) : (d.setCreelBytes a bs).lmp = d.lmp := rfl
@[simp] theorem setCreelBytes_isp (d : Dev) (a : Nat) (bs : List Byte) : (d.setCreelBytes a bs).isp = d.isp := rfl
@[simp] theorem setCreelBytes_crl (d : Dev) (a : Nat) (bs : List Byte) : (d.setCreelBytes a bs).crl = d.crl := rfl
@[simp] theorem setCreelBytes_sec (d : Dev) (a : Nat) (bs : List Byte) : (d.setCreelBytes a bs).sec = d.sec := rfl
@[simp] theorem setCreelBytes_pins (d : Dev) (a : Nat) (bs : List Byte) : (d.setCreelBytes a bs).pins = d.pins := rfl
@[simp] theorem setCreelBytes_mpl (d : Dev) (a : Nat) (bs : List Byte) : (d.setCreelBytes a bs).mpl = d.mpl := rfl
@[simp] theorem setCreelBytes_tap (d : Dev) (a : Nat) (bs : List Byte) : (d.setCreelBytes a bs).tap = d.tap := rfl
@[simp] theorem setCreelBytes_drc (d : Dev) (a : Nat) (bs : List Byte) : (d.setCreelBytes a bs).drc = d.drc := rfl
@[simp] theorem setCreelBytes_shd (d : Dev) (a : Nat) (bs : List Byte) : (d.setCreelBytes a bs).shd = d.shd := rfl
@[simp] theorem setCreelBytes_reed (d : Dev) (a : Nat) (bs : List Byte) : (d.setCreelBytes a bs).reed = d.reed := rfl
@[simp] theorem setCreelBytes_lnk (d : Dev) (a : Nat) (bs : List Byte) : (d.setCreelBytes a bs).lnk = d.lnk := rfl
@[simp] theorem setCreelBytes_lanes (d : Dev) (a : Nat) (bs : List Byte) : (d.setCreelBytes a bs).lanes = d.lanes := rfl
@[simp] theorem setCreelBytes_trm (d : Dev) (a : Nat) (bs : List Byte) : (d.setCreelBytes a bs).trm = d.trm := rfl
@[simp] theorem setCreelBytes_thm (d : Dev) (a : Nat) (bs : List Byte) : (d.setCreelBytes a bs).thm = d.thm := rfl
@[simp] theorem setCreelBytes_mgm (d : Dev) (a : Nat) (bs : List Byte) : (d.setCreelBytes a bs).mgm = d.mgm := rfl

/-! ### setDramBytes -/

@[simp] theorem setDramBytes_regs (d : Dev) (a : Nat) (bs : List Byte) : (d.setDramBytes a bs).regs = d.regs := rfl
@[simp] theorem setDramBytes_shadow (d : Dev) (a : Nat) (bs : List Byte) : (d.setDramBytes a bs).shadow = d.shadow := rfl
@[simp] theorem setDramBytes_free (d : Dev) (a : Nat) (bs : List Byte) : (d.setDramBytes a bs).free = d.free := rfl
@[simp] theorem setDramBytes_grid (d : Dev) (a : Nat) (bs : List Byte) : (d.setDramBytes a bs).grid = d.grid := rfl
@[simp] theorem setDramBytes_bases (d : Dev) (a : Nat) (bs : List Byte) : (d.setDramBytes a bs).bases = d.bases := rfl
@[simp] theorem setDramBytes_ev (d : Dev) (a : Nat) (bs : List Byte) : (d.setDramBytes a bs).ev = d.ev := rfl
@[simp] theorem setDramBytes_flt (d : Dev) (a : Nat) (bs : List Byte) : (d.setDramBytes a bs).flt = d.flt := rfl
@[simp] theorem setDramBytes_wal (d : Dev) (a : Nat) (bs : List Byte) : (d.setDramBytes a bs).wal = d.wal := rfl
@[simp] theorem setDramBytes_chain (d : Dev) (a : Nat) (bs : List Byte) : (d.setDramBytes a bs).chain = d.chain := rfl
@[simp] theorem setDramBytes_trd (d : Dev) (a : Nat) (bs : List Byte) : (d.setDramBytes a bs).trd = d.trd := rfl
@[simp] theorem setDramBytes_creel (d : Dev) (a : Nat) (bs : List Byte) : (d.setDramBytes a bs).creel = d.creel := rfl
@[simp] theorem setDramBytes_flash (d : Dev) (a : Nat) (bs : List Byte) : (d.setDramBytes a bs).flash = d.flash := rfl
@[simp] theorem setDramBytes_dof (d : Dev) (a : Nat) (bs : List Byte) : (d.setDramBytes a bs).dof = d.dof := rfl
@[simp] theorem setDramBytes_axes (d : Dev) (a : Nat) (bs : List Byte) : (d.setDramBytes a bs).axes = d.axes := rfl
@[simp] theorem setDramBytes_sht (d : Dev) (a : Nat) (bs : List Byte) : (d.setDramBytes a bs).sht = d.sht := rfl
@[simp] theorem setDramBytes_start (d : Dev) (a : Nat) (bs : List Byte) : (d.setDramBytes a bs).start = d.start := rfl
@[simp] theorem setDramBytes_lmp (d : Dev) (a : Nat) (bs : List Byte) : (d.setDramBytes a bs).lmp = d.lmp := rfl
@[simp] theorem setDramBytes_isp (d : Dev) (a : Nat) (bs : List Byte) : (d.setDramBytes a bs).isp = d.isp := rfl
@[simp] theorem setDramBytes_crl (d : Dev) (a : Nat) (bs : List Byte) : (d.setDramBytes a bs).crl = d.crl := rfl
@[simp] theorem setDramBytes_sec (d : Dev) (a : Nat) (bs : List Byte) : (d.setDramBytes a bs).sec = d.sec := rfl
@[simp] theorem setDramBytes_pins (d : Dev) (a : Nat) (bs : List Byte) : (d.setDramBytes a bs).pins = d.pins := rfl
@[simp] theorem setDramBytes_mpl (d : Dev) (a : Nat) (bs : List Byte) : (d.setDramBytes a bs).mpl = d.mpl := rfl
@[simp] theorem setDramBytes_tap (d : Dev) (a : Nat) (bs : List Byte) : (d.setDramBytes a bs).tap = d.tap := rfl
@[simp] theorem setDramBytes_drc (d : Dev) (a : Nat) (bs : List Byte) : (d.setDramBytes a bs).drc = d.drc := rfl
@[simp] theorem setDramBytes_shd (d : Dev) (a : Nat) (bs : List Byte) : (d.setDramBytes a bs).shd = d.shd := rfl
@[simp] theorem setDramBytes_reed (d : Dev) (a : Nat) (bs : List Byte) : (d.setDramBytes a bs).reed = d.reed := rfl
@[simp] theorem setDramBytes_lnk (d : Dev) (a : Nat) (bs : List Byte) : (d.setDramBytes a bs).lnk = d.lnk := rfl
@[simp] theorem setDramBytes_lanes (d : Dev) (a : Nat) (bs : List Byte) : (d.setDramBytes a bs).lanes = d.lanes := rfl
@[simp] theorem setDramBytes_trm (d : Dev) (a : Nat) (bs : List Byte) : (d.setDramBytes a bs).trm = d.trm := rfl
@[simp] theorem setDramBytes_thm (d : Dev) (a : Nat) (bs : List Byte) : (d.setDramBytes a bs).thm = d.thm := rfl
@[simp] theorem setDramBytes_mgm (d : Dev) (a : Nat) (bs : List Byte) : (d.setDramBytes a bs).mgm = d.mgm := rfl

/-! ### programFlash -/

@[simp] theorem programFlash_regs (d : Dev) (a : Nat) (bs : List Byte) : (d.programFlash a bs).regs = d.regs := rfl
@[simp] theorem programFlash_shadow (d : Dev) (a : Nat) (bs : List Byte) : (d.programFlash a bs).shadow = d.shadow := rfl
@[simp] theorem programFlash_free (d : Dev) (a : Nat) (bs : List Byte) : (d.programFlash a bs).free = d.free := rfl
@[simp] theorem programFlash_grid (d : Dev) (a : Nat) (bs : List Byte) : (d.programFlash a bs).grid = d.grid := rfl
@[simp] theorem programFlash_bases (d : Dev) (a : Nat) (bs : List Byte) : (d.programFlash a bs).bases = d.bases := rfl
@[simp] theorem programFlash_ev (d : Dev) (a : Nat) (bs : List Byte) : (d.programFlash a bs).ev = d.ev := rfl
@[simp] theorem programFlash_flt (d : Dev) (a : Nat) (bs : List Byte) : (d.programFlash a bs).flt = d.flt := rfl
@[simp] theorem programFlash_wal (d : Dev) (a : Nat) (bs : List Byte) : (d.programFlash a bs).wal = d.wal := rfl
@[simp] theorem programFlash_chain (d : Dev) (a : Nat) (bs : List Byte) : (d.programFlash a bs).chain = d.chain := rfl
@[simp] theorem programFlash_trd (d : Dev) (a : Nat) (bs : List Byte) : (d.programFlash a bs).trd = d.trd := rfl
@[simp] theorem programFlash_creel (d : Dev) (a : Nat) (bs : List Byte) : (d.programFlash a bs).creel = d.creel := rfl
@[simp] theorem programFlash_dram (d : Dev) (a : Nat) (bs : List Byte) : (d.programFlash a bs).dram = d.dram := rfl
@[simp] theorem programFlash_dof (d : Dev) (a : Nat) (bs : List Byte) : (d.programFlash a bs).dof = d.dof := rfl
@[simp] theorem programFlash_axes (d : Dev) (a : Nat) (bs : List Byte) : (d.programFlash a bs).axes = d.axes := rfl
@[simp] theorem programFlash_sht (d : Dev) (a : Nat) (bs : List Byte) : (d.programFlash a bs).sht = d.sht := rfl
@[simp] theorem programFlash_start (d : Dev) (a : Nat) (bs : List Byte) : (d.programFlash a bs).start = d.start := rfl
@[simp] theorem programFlash_lmp (d : Dev) (a : Nat) (bs : List Byte) : (d.programFlash a bs).lmp = d.lmp := rfl
@[simp] theorem programFlash_isp (d : Dev) (a : Nat) (bs : List Byte) : (d.programFlash a bs).isp = d.isp := rfl
@[simp] theorem programFlash_crl (d : Dev) (a : Nat) (bs : List Byte) : (d.programFlash a bs).crl = d.crl := rfl
@[simp] theorem programFlash_sec (d : Dev) (a : Nat) (bs : List Byte) : (d.programFlash a bs).sec = d.sec := rfl
@[simp] theorem programFlash_pins (d : Dev) (a : Nat) (bs : List Byte) : (d.programFlash a bs).pins = d.pins := rfl
@[simp] theorem programFlash_mpl (d : Dev) (a : Nat) (bs : List Byte) : (d.programFlash a bs).mpl = d.mpl := rfl
@[simp] theorem programFlash_tap (d : Dev) (a : Nat) (bs : List Byte) : (d.programFlash a bs).tap = d.tap := rfl
@[simp] theorem programFlash_drc (d : Dev) (a : Nat) (bs : List Byte) : (d.programFlash a bs).drc = d.drc := rfl
@[simp] theorem programFlash_shd (d : Dev) (a : Nat) (bs : List Byte) : (d.programFlash a bs).shd = d.shd := rfl
@[simp] theorem programFlash_reed (d : Dev) (a : Nat) (bs : List Byte) : (d.programFlash a bs).reed = d.reed := rfl
@[simp] theorem programFlash_lnk (d : Dev) (a : Nat) (bs : List Byte) : (d.programFlash a bs).lnk = d.lnk := rfl
@[simp] theorem programFlash_lanes (d : Dev) (a : Nat) (bs : List Byte) : (d.programFlash a bs).lanes = d.lanes := rfl
@[simp] theorem programFlash_trm (d : Dev) (a : Nat) (bs : List Byte) : (d.programFlash a bs).trm = d.trm := rfl
@[simp] theorem programFlash_thm (d : Dev) (a : Nat) (bs : List Byte) : (d.programFlash a bs).thm = d.thm := rfl
@[simp] theorem programFlash_mgm (d : Dev) (a : Nat) (bs : List Byte) : (d.programFlash a bs).mgm = d.mgm := rfl

/-! ### eraseFlash -/

@[simp] theorem eraseFlash_regs (d : Dev) (a n : Nat) : (d.eraseFlash a n).regs = d.regs := rfl
@[simp] theorem eraseFlash_shadow (d : Dev) (a n : Nat) : (d.eraseFlash a n).shadow = d.shadow := rfl
@[simp] theorem eraseFlash_free (d : Dev) (a n : Nat) : (d.eraseFlash a n).free = d.free := rfl
@[simp] theorem eraseFlash_grid (d : Dev) (a n : Nat) : (d.eraseFlash a n).grid = d.grid := rfl
@[simp] theorem eraseFlash_bases (d : Dev) (a n : Nat) : (d.eraseFlash a n).bases = d.bases := rfl
@[simp] theorem eraseFlash_ev (d : Dev) (a n : Nat) : (d.eraseFlash a n).ev = d.ev := rfl
@[simp] theorem eraseFlash_flt (d : Dev) (a n : Nat) : (d.eraseFlash a n).flt = d.flt := rfl
@[simp] theorem eraseFlash_wal (d : Dev) (a n : Nat) : (d.eraseFlash a n).wal = d.wal := rfl
@[simp] theorem eraseFlash_chain (d : Dev) (a n : Nat) : (d.eraseFlash a n).chain = d.chain := rfl
@[simp] theorem eraseFlash_trd (d : Dev) (a n : Nat) : (d.eraseFlash a n).trd = d.trd := rfl
@[simp] theorem eraseFlash_creel (d : Dev) (a n : Nat) : (d.eraseFlash a n).creel = d.creel := rfl
@[simp] theorem eraseFlash_dram (d : Dev) (a n : Nat) : (d.eraseFlash a n).dram = d.dram := rfl
@[simp] theorem eraseFlash_dof (d : Dev) (a n : Nat) : (d.eraseFlash a n).dof = d.dof := rfl
@[simp] theorem eraseFlash_axes (d : Dev) (a n : Nat) : (d.eraseFlash a n).axes = d.axes := rfl
@[simp] theorem eraseFlash_sht (d : Dev) (a n : Nat) : (d.eraseFlash a n).sht = d.sht := rfl
@[simp] theorem eraseFlash_start (d : Dev) (a n : Nat) : (d.eraseFlash a n).start = d.start := rfl
@[simp] theorem eraseFlash_lmp (d : Dev) (a n : Nat) : (d.eraseFlash a n).lmp = d.lmp := rfl
@[simp] theorem eraseFlash_isp (d : Dev) (a n : Nat) : (d.eraseFlash a n).isp = d.isp := rfl
@[simp] theorem eraseFlash_crl (d : Dev) (a n : Nat) : (d.eraseFlash a n).crl = d.crl := rfl
@[simp] theorem eraseFlash_sec (d : Dev) (a n : Nat) : (d.eraseFlash a n).sec = d.sec := rfl
@[simp] theorem eraseFlash_pins (d : Dev) (a n : Nat) : (d.eraseFlash a n).pins = d.pins := rfl
@[simp] theorem eraseFlash_mpl (d : Dev) (a n : Nat) : (d.eraseFlash a n).mpl = d.mpl := rfl
@[simp] theorem eraseFlash_tap (d : Dev) (a n : Nat) : (d.eraseFlash a n).tap = d.tap := rfl
@[simp] theorem eraseFlash_drc (d : Dev) (a n : Nat) : (d.eraseFlash a n).drc = d.drc := rfl
@[simp] theorem eraseFlash_shd (d : Dev) (a n : Nat) : (d.eraseFlash a n).shd = d.shd := rfl
@[simp] theorem eraseFlash_reed (d : Dev) (a n : Nat) : (d.eraseFlash a n).reed = d.reed := rfl
@[simp] theorem eraseFlash_lnk (d : Dev) (a n : Nat) : (d.eraseFlash a n).lnk = d.lnk := rfl
@[simp] theorem eraseFlash_lanes (d : Dev) (a n : Nat) : (d.eraseFlash a n).lanes = d.lanes := rfl
@[simp] theorem eraseFlash_trm (d : Dev) (a n : Nat) : (d.eraseFlash a n).trm = d.trm := rfl
@[simp] theorem eraseFlash_thm (d : Dev) (a n : Nat) : (d.eraseFlash a n).thm = d.thm := rfl
@[simp] theorem eraseFlash_mgm (d : Dev) (a n : Nat) : (d.eraseFlash a n).mgm = d.mgm := rfl

/-! ### commit -/

@[simp] theorem commit_free (d : Dev) (b : Boundary) (lo hi : Nat) : (d.commit b lo hi).free = d.free := rfl
@[simp] theorem commit_grid (d : Dev) (b : Boundary) (lo hi : Nat) : (d.commit b lo hi).grid = d.grid := rfl
@[simp] theorem commit_bases (d : Dev) (b : Boundary) (lo hi : Nat) : (d.commit b lo hi).bases = d.bases := rfl
@[simp] theorem commit_ev (d : Dev) (b : Boundary) (lo hi : Nat) : (d.commit b lo hi).ev = d.ev := rfl
@[simp] theorem commit_flt (d : Dev) (b : Boundary) (lo hi : Nat) : (d.commit b lo hi).flt = d.flt := rfl
@[simp] theorem commit_wal (d : Dev) (b : Boundary) (lo hi : Nat) : (d.commit b lo hi).wal = d.wal := rfl
@[simp] theorem commit_chain (d : Dev) (b : Boundary) (lo hi : Nat) : (d.commit b lo hi).chain = d.chain := rfl
@[simp] theorem commit_trd (d : Dev) (b : Boundary) (lo hi : Nat) : (d.commit b lo hi).trd = d.trd := rfl
@[simp] theorem commit_creel (d : Dev) (b : Boundary) (lo hi : Nat) : (d.commit b lo hi).creel = d.creel := rfl
@[simp] theorem commit_dram (d : Dev) (b : Boundary) (lo hi : Nat) : (d.commit b lo hi).dram = d.dram := rfl
@[simp] theorem commit_flash (d : Dev) (b : Boundary) (lo hi : Nat) : (d.commit b lo hi).flash = d.flash := rfl
@[simp] theorem commit_dof (d : Dev) (b : Boundary) (lo hi : Nat) : (d.commit b lo hi).dof = d.dof := rfl
@[simp] theorem commit_axes (d : Dev) (b : Boundary) (lo hi : Nat) : (d.commit b lo hi).axes = d.axes := rfl
@[simp] theorem commit_sht (d : Dev) (b : Boundary) (lo hi : Nat) : (d.commit b lo hi).sht = d.sht := rfl
@[simp] theorem commit_start (d : Dev) (b : Boundary) (lo hi : Nat) : (d.commit b lo hi).start = d.start := rfl
@[simp] theorem commit_lmp (d : Dev) (b : Boundary) (lo hi : Nat) : (d.commit b lo hi).lmp = d.lmp := rfl
@[simp] theorem commit_isp (d : Dev) (b : Boundary) (lo hi : Nat) : (d.commit b lo hi).isp = d.isp := rfl
@[simp] theorem commit_crl (d : Dev) (b : Boundary) (lo hi : Nat) : (d.commit b lo hi).crl = d.crl := rfl
@[simp] theorem commit_sec (d : Dev) (b : Boundary) (lo hi : Nat) : (d.commit b lo hi).sec = d.sec := rfl
@[simp] theorem commit_pins (d : Dev) (b : Boundary) (lo hi : Nat) : (d.commit b lo hi).pins = d.pins := rfl
@[simp] theorem commit_mpl (d : Dev) (b : Boundary) (lo hi : Nat) : (d.commit b lo hi).mpl = d.mpl := rfl
@[simp] theorem commit_tap (d : Dev) (b : Boundary) (lo hi : Nat) : (d.commit b lo hi).tap = d.tap := rfl
@[simp] theorem commit_drc (d : Dev) (b : Boundary) (lo hi : Nat) : (d.commit b lo hi).drc = d.drc := rfl
@[simp] theorem commit_shd (d : Dev) (b : Boundary) (lo hi : Nat) : (d.commit b lo hi).shd = d.shd := rfl
@[simp] theorem commit_reed (d : Dev) (b : Boundary) (lo hi : Nat) : (d.commit b lo hi).reed = d.reed := rfl
@[simp] theorem commit_lnk (d : Dev) (b : Boundary) (lo hi : Nat) : (d.commit b lo hi).lnk = d.lnk := rfl
@[simp] theorem commit_lanes (d : Dev) (b : Boundary) (lo hi : Nat) : (d.commit b lo hi).lanes = d.lanes := rfl
@[simp] theorem commit_trm (d : Dev) (b : Boundary) (lo hi : Nat) : (d.commit b lo hi).trm = d.trm := rfl
@[simp] theorem commit_thm (d : Dev) (b : Boundary) (lo hi : Nat) : (d.commit b lo hi).thm = d.thm := rfl
@[simp] theorem commit_mgm (d : Dev) (b : Boundary) (lo hi : Nat) : (d.commit b lo hi).mgm = d.mgm := rfl

/-! ### Registers under updates of other fields -/

@[simp] theorem setShadow_reg (d : Dev) (a v : Nat) (x : Nat) : (d.setShadow a v).reg x = d.reg x := rfl
@[simp] theorem setShadow_get (d : Dev) (a v : Nat) (g : Field) : (d.setShadow a v).get g = d.get g := rfl
@[simp] theorem setCreelBytes_reg (d : Dev) (a : Nat) (bs : List Byte) (x : Nat) : (d.setCreelBytes a bs).reg x = d.reg x := rfl
@[simp] theorem setCreelBytes_get (d : Dev) (a : Nat) (bs : List Byte) (g : Field) : (d.setCreelBytes a bs).get g = d.get g := rfl
@[simp] theorem setDramBytes_reg (d : Dev) (a : Nat) (bs : List Byte) (x : Nat) : (d.setDramBytes a bs).reg x = d.reg x := rfl
@[simp] theorem setDramBytes_get (d : Dev) (a : Nat) (bs : List Byte) (g : Field) : (d.setDramBytes a bs).get g = d.get g := rfl
@[simp] theorem programFlash_reg (d : Dev) (a : Nat) (bs : List Byte) (x : Nat) : (d.programFlash a bs).reg x = d.reg x := rfl
@[simp] theorem programFlash_get (d : Dev) (a : Nat) (bs : List Byte) (g : Field) : (d.programFlash a bs).get g = d.get g := rfl
@[simp] theorem eraseFlash_reg (d : Dev) (a n : Nat) (x : Nat) : (d.eraseFlash a n).reg x = d.reg x := rfl
@[simp] theorem eraseFlash_get (d : Dev) (a n : Nat) (g : Field) : (d.eraseFlash a n).get g = d.get g := rfl

/-- A device that differs in no register reads every register alike. -/
theorem reg_of_regs {d e : Dev} (h : e.regs = d.regs) (a : Nat) : e.reg a = d.reg a := by simp only [Dev.reg, h]
theorem get_of_regs {d e : Dev} (h : e.regs = d.regs) (f : Field) : e.get f = d.get f := by simp only [Dev.get, Dev.reg, h]

end Sys2Proof.Machine
end

