-- ==== Sys2Proof/Laws/Events.lean ====
section
/-!
SUPPORT. What an occurrence of an event, a staged record and a detected fault do and leave, said once.
-/
namespace Sys2Proof.Machine

open Reg

/-- A record update that keeps the registers keeps every reading. -/
@[simp] theorem reg_mk (d : Dev) (shadow free grid bases ev flt wal chain trd creel dram flash dof axes sht start lmp isp
    crl sec pins mpl tap drc shd reed lnk lanes trm thm mgm) (a : Nat) :
    Dev.reg (Dev.mk d.regs shadow free grid bases ev flt wal chain trd creel dram flash dof axes sht start lmp isp
      crl sec pins mpl tap drc shd reed lnk lanes trm thm mgm) a = d.reg a := rfl

@[simp] theorem get_mk (d : Dev) (shadow free grid bases ev flt wal chain trd creel dram flash dof axes sht start lmp isp
    crl sec pins mpl tap drc shd reed lnk lanes trm thm mgm) (f : Field) :
    Dev.get (Dev.mk d.regs shadow free grid bases ev flt wal chain trd creel dram flash dof axes sht start lmp isp
      crl sec pins mpl tap drc shd reed lnk lanes trm thm mgm) f = d.get f := rfl

/-! ### What an occurrence touches -/

/-- `t` differs from `d` in nothing but the registers of `eventReg`, the event unit and the log; the configuration of the
events is kept, reactions are only added where one is configured, and pending bits stay set. -/
structure EventOnly (d t : Dev) : Prop where
  rest : t = { d with regs := t.regs, ev := t.ev, wal := t.wal }
  regs : ∀ a, eventReg a = false → t.reg a = d.reg a
  quiet : (∀ e, e < 256 → d.get (EVT_CFG_REACT e) = 0) → t.ev.reacts = d.ev.reacts
  pend : ∀ i, i < 8 → ∀ k, bit (d.reg (EVT_PEND i)) k = true → bit (t.reg (EVT_PEND i)) k = true
  wf : swf resetOf d.regs = true → swf resetOf t.regs = true

theorem EventOnly.refl (d : Dev) : EventOnly d d :=
  ⟨rfl, fun _ _ => rfl, fun _ => rfl, fun _ _ _ h => h, id⟩

/-- An event's configuration is no register that an occurrence changes. -/
theorem eventReg_cfg (e : Nat) (h : e < 256) : eventReg (EVT_CFG e) = false := by
  simp only [eventReg, EVT_CFG, EVT_FLAGS, EVT_LAST, EVT_FLT_COUNT, WAL_DROPS, WAL_FLAGS, WAL_STAGED,
    Bool.or_eq_false_iff, beq_eq_false_iff_ne, Bool.and_eq_false_iff, decide_eq_false_iff_not]
  omega

theorem EventOnly.trans {d t u : Dev} (h : EventOnly d t) (k : EventOnly t u) : EventOnly d u where
  rest := by
    rw [k.rest, h.rest]
  regs a ha := (k.regs a ha).trans (h.regs a ha)
  quiet q := by
    have q' : ∀ e, e < 256 → t.get (EVT_CFG_REACT e) = 0 := fun e he => by
      have := h.regs (EVT_CFG e) (eventReg_cfg e he)
      simpa [Dev.get, this] using q e he
    rw [k.quiet q', h.quiet q]
  pend i hi b hb := k.pend i hi b (h.pend i hi b hb)
  wf w := k.wf (h.wf w)

/-- Setting one register of `eventReg` that is no pending word. -/
theorem EventOnly.setReg (d : Dev) (a v : Nat) (ha : eventReg a = true) (hp : ∀ i, i < 8 → EVT_PEND i ≠ a) :
    EventOnly d (d.setReg a v) where
  rest := rfl
  regs b hb := reg_setReg_ne d v (by rintro rfl; simp_all)
  quiet _ := rfl
  pend i hi k hk := by rwa [reg_setReg_ne d v (hp i hi)]
  wf := swf_sset resetOf d.regs a _

theorem bit_setBit (x i k : Nat) (hx : bit x k = true) : bit (setBit x i true) k = true := by
  simp only [bit, setBit] at *
  rw [testBit_putBits _ _ _ _ _ (Nat.le_refl i)]
  by_cases h1 : k < i
  · simp [h1, hx]
  · by_cases h2 : k ≤ i
    · have : k = i := by omega
      subst this; simp [b2n]
    · simp [h1, h2, hx]

theorem bit_setBit_same (x i : Nat) : bit (setBit x i true) i = true := by
  simp only [bit, setBit]
  rw [testBit_putBits _ _ _ _ _ (Nat.le_refl i)]
  simp [b2n]

theorem bit_mod_word (x k : Nat) (h : k < 32) : bit (x % 2 ^ 32) k = bit x k := by
  simp only [bit, Nat.testBit_mod_two_pow, h, decide_true, Bool.true_and]

theorem bit_word_lt {d : Dev} {a k : Nat} (h : bit (d.reg a) k = true) : k < 32 := by
  by_contra hk
  have : (d.reg a).testBit k = false :=
    Nat.testBit_lt_two_pow (Nat.lt_of_lt_of_le (reg_lt d a) (Nat.pow_le_pow_right (by decide) (by omega)))
  simp_all [bit]

/-- A pending word with one more bit set. -/
theorem EventOnly.setPend (d : Dev) (i k : Nat) (hi : i < 8) :
    EventOnly d (d.setReg (EVT_PEND i) (setBit (d.reg (EVT_PEND i)) k true)) where
  rest := rfl
  regs b hb := reg_setReg_ne d _ (by
    rintro rfl
    simp only [eventReg, EVT_PEND, Bool.or_eq_false_iff, Bool.and_eq_false_iff, decide_eq_false_iff_not] at hb
    omega)
  quiet _ := rfl
  pend j hj b hb := by
    have hb' := bit_word_lt hb
    by_cases h : j = i
    · subst h
      rw [reg_setReg_same, bit_mod_word _ _ hb']
      exact bit_setBit _ _ _ hb
    · rwa [reg_setReg_ne d _ (by simp only [EVT_PEND]; omega)]
  wf := swf_sset resetOf d.regs _ _

/-- Changing the event unit without adding a reaction, or the log. -/
theorem EventOnly.unit (d : Dev) (v : EventUnit) (w : WaleLog) (h : v.reacts = d.ev.reacts) :
    EventOnly d { d with ev := v, wal := w } :=
  ⟨rfl, fun _ _ => rfl, fun _ => h, fun _ _ _ h => h, id⟩

@[simp] theorem frame_reacts (v : EventUnit) (r : EvRec) : (v.frame r).reacts = v.reacts := by
  simp only [EventUnit.frame]; split <;> [rfl; split <;> rfl]

@[simp] theorem hold_reacts (v : EventUnit) (r : EvRec) : (v.hold r).reacts = v.reacts := by
  simp only [EventUnit.hold]; split <;> rfl

theorem eventReg_count (e : Nat) (h : e < 256) : eventReg (EVT_COUNT e) = true := by
  simp only [eventReg, EVT_COUNT, Bool.or_eq_true, Bool.and_eq_true, decide_eq_true_eq]
  omega

/-- Marking an event changes the event registers and the event unit only (R629, R632, R635). -/
theorem markEvent_eventOnly (e inst code : Nat) (d : Dev) (he : e < 256) : EventOnly d (markEvent e inst code d) := by
  have h1 : EventOnly d (d.count (EVT_COUNT e) 1) :=
    EventOnly.setReg d _ _ (eventReg_count e he) (fun i hi => by simp only [EVT_PEND, EVT_COUNT]; omega)
  have h2 := h1.trans (EventOnly.setPend (d.count (EVT_COUNT e) 1) (e / 32) (e % 32) (by omega))
  have h3 := h2.trans (EventOnly.setReg _ EVT_LAST (code * 256 + e) (by decide) (by decide))
  have h4 : ∀ u : Dev, EventOnly u (u.put EVT_FLAGS_FRAME_OVF 1) := fun u =>
    EventOnly.setReg u EVT_FLAGS _ (by decide) (by decide)
  have key : ∀ (u : Dev) (v : EventUnit), EventOnly d u → u.ev = d.ev →
      ((∀ e, e < 256 → d.get (EVT_CFG_REACT e) = 0) → v.reacts = d.ev.reacts) → EventOnly d { u with ev := v } := by
    intro u v hu hev hv
    exact ⟨by rw [hu.rest], hu.regs, hv, hu.pend, hu.wf⟩
  simp only [markEvent]
  apply key
  · split
    · exact h3.trans (h4 _)
    · exact h3
  · split <;> rfl
  · intro q
    rw [q e he]
    simp only [show ¬ (1 ≤ 0) by decide, decide_false, Bool.false_and, Bool.false_eq_true, ↓reduceIte]
    split <;> simp

/-- Staging a record changes the staging registers and the log only (R598, R599), and raises LOG_DROP, LOG_RESERVE. -/
theorem stageRec_eventOnly (r : LogRec) (d : Dev) :
    EventOnly d (stageRec r d).1 ∧ ∀ f ∈ (stageRec r d).2, f = 241 ∨ f = 245 := by
  have hc : ∀ u : Dev, EventOnly u (u.count (EVT_FLT_COUNT 0x88) 1) := fun u =>
    EventOnly.setReg u _ _ (by decide) (by decide)
  have hp : ∀ u : Dev, EventOnly u (u.put WAL_FLAGS_DROP 1) := fun u =>
    EventOnly.setReg u WAL_FLAGS _ (by decide) (by decide)
  simp only [stageRec]
  generalize (if d.wal.lost = (0, 0, 0) then ([] : List LogRec) else _) = waiting
  split
  · have h1 : ∀ w : WaleLog, EventOnly d { d.count WAL_DROPS 1 with wal := w } := fun w =>
      (EventOnly.setReg d WAL_DROPS _ (by decide) (by decide)).trans (EventOnly.unit _ d.ev w rfl)
    by_cases hd : d.wal.dropRun = true
    · rw [if_pos hd]
      exact ⟨h1 _, fun f hf => nomatch hf⟩
    · rw [if_neg hd]
      exact ⟨((h1 _).trans (hp _)).trans (hc _), fun f hf => Or.inl (List.mem_singleton.1 hf)⟩
  · refine ⟨(EventOnly.unit d d.ev _ rfl).trans (EventOnly.setReg _ WAL_STAGED _ (by decide) (by decide)), ?_⟩
    intro f hf
    split at hf
    · exact Or.inr (List.mem_singleton.1 hf)
    · exact nomatch hf

theorem foldl_eventOnly (g : Nat → Dev → Dev) (l : List Nat) (hl : ∀ f ∈ l, f < 256)
    (hg : ∀ f, f < 256 → ∀ u, EventOnly u (g f u)) (d : Dev) :
    EventOnly d (l.foldl (fun x f => g f x) d) := by
  induction l generalizing d with
  | nil => exact EventOnly.refl d
  | cons f l ih =>
    exact (hg f (hl f (by simp)) d).trans (ih (fun x hx => hl x (by simp [hx])) _)

/-- A record staged and the events that this raises, handled by `g`. -/
theorem staged_eventOnly (g : Nat → Dev → Dev) (hg : ∀ f, f < 256 → ∀ u, EventOnly u (g f u)) (r : LogRec) (d : Dev) :
    EventOnly d ((stageRec r d).2.foldl (fun x f => g f x) (stageRec r d).1) := by
  obtain ⟨h1, h2⟩ := stageRec_eventOnly r d
  exact h1.trans (foldl_eventOnly g _ (fun f hf => by rcases h2 f hf with rfl | rfl <;> decide) hg _)

/-- The pending bit of an event is set once it is marked. -/
theorem markEvent_pends (e inst code : Nat) (d : Dev) : (markEvent e inst code d).pends e := by
  have hne : EVT_PEND (e / 32) ≠ EVT_LAST := by simp only [EVT_PEND, EVT_LAST]; omega
  have hnf : EVT_PEND (e / 32) ≠ EVT_FLAGS := by simp only [EVT_PEND, EVT_FLAGS]; omega
  simp only [Dev.pends, markEvent]
  rw [reg_mk]
  split
  · rw [reg_put_ne _ _ _ hnf, reg_setReg_ne _ _ hne, reg_setReg_same, bit_mod_word _ _ (by omega)]
    exact bit_setBit_same _ _
  · rw [reg_setReg_ne _ _ hne, reg_setReg_same, bit_mod_word _ _ (by omega)]
    exact bit_setBit_same _ _

/-- An occurrence changes what `EventOnly` says, and its pending bit is set (R629). -/
theorem occurN_spec (k e inst code : Nat) (d : Dev) (he : e < 256) :
    EventOnly d (occurN k e inst code d) ∧ (occurN k e inst code d).pends e := by
  have hm := markEvent_eventOnly e inst code d he
  have hp := markEvent_pends e inst code d
  induction k generalizing e inst code d with
  | zero => exact ⟨hm, hp⟩
  | succ k ih =>
    have keep : ∀ t, EventOnly (markEvent e inst code d) t → EventOnly d t ∧ t.pends e := fun t ht =>
      ⟨hm.trans ht, ht.pend _ (by omega) _ hp⟩
    simp only [occurN]
    split
    · exact ⟨hm, hp⟩
    · split
      · exact keep _ (EventOnly.unit _ _ _ (by simp))
      · apply keep
        generalize markEvent e inst code d = t
        exact (EventOnly.unit t { t.ev with logged := e :: t.ev.logged } t.wal rfl).trans
          (staged_eventOnly (fun f x => occurN k f 0xFF (if f = 241 then 0x88 else 0) x)
            (fun f hf u => (ih f 0xFF _ u hf (markEvent_eventOnly _ _ _ _ hf) (markEvent_pends _ _ _ _)).1) _ _)

theorem occur_eventOnly (e inst code : Nat) (d : Dev) (he : e < 256) : EventOnly d (occur e inst code d) :=
  (occurN_spec 3 e inst code d he).1

theorem occur_pends (e inst code : Nat) (d : Dev) (he : e < 256) : (occur e inst code d).pends e :=
  (occurN_spec 3 e inst code d he).2

/-- A record staged changes what `EventOnly` says. -/
theorem stage_eventOnly (r : LogRec) (d : Dev) : EventOnly d (stage r d) :=
  staged_eventOnly (fun f x => occur f 0xFF (if f = 241 then 0x88 else 0) x)
    (fun f hf u => occur_eventOnly f _ _ u hf) r d

/-- With nothing configured for it, an occurrence counts, sets its pending bit and is the last event; it does no more. -/
theorem occur_plain (e inst code : Nat) (d : Dev) (h : d.reg (EVT_CFG e) = 0) :
    occur e inst code d =
      ((d.count (EVT_COUNT e) 1).setReg (EVT_PEND (e / 32))
        (setBit ((d.count (EVT_COUNT e) 1).reg (EVT_PEND (e / 32))) (e % 32) true)).setReg EVT_LAST (code * 256 + e) := by
  have hf : d.on (EVT_CFG_FRAME e) = false := by simp [Dev.on, Dev.get, h, bits]
  have hl : d.on (EVT_CFG_LOG e) = false := by simp [Dev.on, Dev.get, h, bits]
  have hr : d.get (EVT_CFG_REACT e) = 0 := by simp [Dev.get, h, bits]
  simp [occur, occurN, markEvent, hf, hl, hr]
  rfl

/-! ### Calm -/

theorem EventOnly.calm {d t : Dev} (h : EventOnly d t) (hc : d.calm) : t.calm := by
  refine ⟨(h.quiet hc.2).trans hc.1, fun e he => ?_⟩
  have := h.regs (EVT_CFG e) (eventReg_cfg e he)
  simpa [Dev.get, this] using hc.2 e he

/-- Calm depends on the event configuration and the waiting reactions only. -/
theorem calm_of {d t : Dev} (hc : d.calm) (hr : t.ev.reacts = d.ev.reacts)
    (hcfg : ∀ e, e < 256 → t.reg (EVT_CFG e) = d.reg (EVT_CFG e)) : t.calm :=
  ⟨hr.trans hc.1, fun e he => by simpa [Dev.get, hcfg e he] using hc.2 e he⟩

/-- Whether a register is one event's configuration. -/
def cfgReg (a : Nat) : Bool := 0x20400 ≤ a && a < 0x20800

theorem calm_setReg {d : Dev} (hc : d.calm) (a v : Nat) (ha : cfgReg a = false) : (d.setReg a v).calm :=
  calm_of hc rfl fun e he => reg_setReg_ne d v (by
    rintro rfl
    simp only [cfgReg, EVT_CFG, Bool.and_eq_false_iff, decide_eq_false_iff_not] at ha
    omega)

theorem calm_put {d : Dev} (hc : d.calm) (f : Field) (v : Nat) (ha : cfgReg f.addr = false) : (d.put f v).calm :=
  calm_setReg hc _ _ ha

theorem calm_count {d : Dev} (hc : d.calm) (a k : Nat) (ha : cfgReg a = false) : (d.count a k).calm :=
  calm_setReg hc _ _ ha

theorem calm_occur {d : Dev} (hc : d.calm) (e inst code : Nat) (he : e < 256) : (occur e inst code d).calm :=
  (occur_eventOnly e inst code d he).calm hc

theorem calm_stage {d : Dev} (hc : d.calm) (r : LogRec) : (stage r d).calm := (stage_eventOnly r d).calm hc

/-! ### Settling -/

/-- With no reaction waiting there is nothing to settle (R635). -/
theorem settle_of_reacts {d : Dev} (h : d.ev.reacts = []) : settle d = d := by
  simp [settle, settleN, h]

theorem settle_of_calm {d : Dev} (h : d.calm) : settle d = d := settle_of_reacts h.1

/-! ### Reading through occurrences -/

theorem reg_occur (e inst code a : Nat) (d : Dev) (he : e < 256) (ha : eventReg a = false) :
    (occur e inst code d).reg a = d.reg a := (occur_eventOnly e inst code d he).regs a ha

theorem get_occur (e inst code : Nat) (f : Field) (d : Dev) (he : e < 256) (ha : eventReg f.addr = false) :
    (occur e inst code d).get f = d.get f := by simp only [Dev.get, reg_occur e inst code _ d he ha]

theorem reg_stage (r : LogRec) (a : Nat) (d : Dev) (ha : eventReg a = false) : (stage r d).reg a = d.reg a :=
  (stage_eventOnly r d).regs a ha

theorem get_stage (r : LogRec) (f : Field) (d : Dev) (ha : eventReg f.addr = false) : (stage r d).get f = d.get f := by
  simp only [Dev.get, reg_stage r _ d ha]

end Sys2Proof.Machine
end

