-- ==== Sys2Proof/Laws/FaultUnit.lean ====
section
/-!
SUPPORT. What the detection of a fault does and leaves, said once (R566 to R571).
-/
namespace Sys2Proof.Machine

open Reg

/-- `t` differs from `d` in nothing but the registers of `faultReg`, the event unit, the log, the fault unit, the matches
of a Doff trigger and the pending freezes of the archives; event configuration is kept and no reaction is added unless
one is configured; pending bits stay set. -/
structure FaultOnly (d t : Dev) : Prop where
  rest : t = { d with regs := t.regs, ev := t.ev, wal := t.wal, flt := t.flt, dof := t.dof, mpl := t.mpl }
  regs : ∀ a, faultReg a = false → t.reg a = d.reg a
  quiet : (∀ e, e < 256 → d.get (EVT_CFG_REACT e) = 0) → t.ev.reacts = d.ev.reacts
  pend : ∀ i, i < 8 → ∀ k, bit (d.reg (EVT_PEND i)) k = true → bit (t.reg (EVT_PEND i)) k = true
  wf : swf resetOf d.regs = true → swf resetOf t.regs = true

theorem FaultOnly.refl (d : Dev) : FaultOnly d d := ⟨rfl, fun _ _ => rfl, fun _ => rfl, fun _ _ _ h => h, id⟩

theorem faultReg_cfg (e : Nat) (h : e < 256) : faultReg (EVT_CFG e) = false := by
  simp only [faultReg, eventReg_cfg e h, EVT_CFG, EVT_FLT_FLAGS, Bool.false_or, Bool.or_eq_false_iff,
    beq_eq_false_iff_ne, Bool.and_eq_false_iff, decide_eq_false_iff_not]
  omega

theorem eventReg_of_faultReg {a : Nat} (h : faultReg a = false) : eventReg a = false := by
  simp only [faultReg, Bool.or_eq_false_iff] at h
  exact h.1.1.1.1

theorem FaultOnly.trans {d t u : Dev} (h : FaultOnly d t) (k : FaultOnly t u) : FaultOnly d u where
  rest := by rw [k.rest, h.rest]
  regs a ha := (k.regs a ha).trans (h.regs a ha)
  quiet q := by
    have q' : ∀ e, e < 256 → t.get (EVT_CFG_REACT e) = 0 := fun e he => by
      simpa [Dev.get, h.regs (EVT_CFG e) (faultReg_cfg e he)] using q e he
    rw [k.quiet q', h.quiet q]
  pend i hi b hb := k.pend i hi b (h.pend i hi b hb)
  wf w := k.wf (h.wf w)

theorem EventOnly.fault {d t : Dev} (h : EventOnly d t) : FaultOnly d t where
  rest := by rw [h.rest]
  regs a ha := h.regs a (eventReg_of_faultReg ha)
  quiet := h.quiet
  pend := h.pend
  wf := h.wf

theorem FaultOnly.setReg (d : Dev) (a v : Nat) (ha : faultReg a = true) (hp : ∀ i, i < 8 → EVT_PEND i ≠ a) :
    FaultOnly d (d.setReg a v) where
  rest := rfl
  regs b hb := reg_setReg_ne d v (by rintro rfl; simp_all)
  quiet _ := rfl
  pend i hi k hk := by rwa [reg_setReg_ne d v (hp i hi)]
  wf := swf_sset resetOf d.regs a _

/-- The fault unit's own state, the Doff matches or the archives change. -/
theorem FaultOnly.unit (d : Dev) (f : FaultUnit) (o : Doff) (m : Melt) :
    FaultOnly d { d with flt := f, dof := o, mpl := m } :=
  ⟨rfl, fun _ _ => rfl, fun _ => rfl, fun _ _ _ h => h, id⟩

theorem faultReg_count (c : Nat) (h : c < 256) : faultReg (EVT_FLT_COUNT c) = true := by
  simp only [faultReg, EVT_FLT_COUNT, Bool.or_eq_true, Bool.and_eq_true, decide_eq_true_eq]
  omega

theorem faultReg_retries (u : Fin 19) : faultReg (EVT_FLT_RETRIES u) = true := by
  simp only [faultReg, EVT_FLT_RETRIES, Bool.or_eq_true, Bool.and_eq_true, decide_eq_true_eq]
  omega

theorem FaultOnly.foldl {α : Type} (g : Dev → α → Dev) (hg : ∀ u x, FaultOnly u (g u x)) (l : List α) (d : Dev) :
    FaultOnly d (l.foldl g d) := by
  induction l generalizing d with
  | nil => exact FaultOnly.refl d
  | cons x l ih => exact (hg d x).trans (ih _)

theorem countRetry_faultOnly (code inst : Nat) (u : Fin 19) (d : Dev) : FaultOnly d (countRetry code inst u d) :=
  (FaultOnly.unit d _ d.dof d.mpl).trans
    (FaultOnly.setReg _ _ _ (faultReg_retries u) (fun i hi => by simp only [EVT_PEND, EVT_FLT_RETRIES]; omega))

theorem archCause_faultOnly (n : Station) (d : Dev) : FaultOnly d (archCause n d) := by
  simp only [archCause]
  split
  · exact FaultOnly.refl d
  · exact FaultOnly.unit d d.flt d.dof _

theorem archCauses_faultOnly (code sev inst : Nat) (d : Dev) : FaultOnly d (archCauses code sev inst d) :=
  FaultOnly.foldl _ (fun u n => by
    split
    · exact archCause_faultOnly n u
    · exact FaultOnly.refl u) _ d

/-- A change that holds under a condition, or none. -/
theorem FaultOnly.ite (d t : Dev) (c : Prop) [Decidable c] (h : FaultOnly d t) : FaultOnly d (if c then t else d) := by
  split
  · exact h
  · exact FaultOnly.refl d

/-- The last report (R567). -/
theorem lastReport_faultOnly (d : Dev) (w a b : Nat) :
    FaultOnly d (((d.setReg EVT_FLT_LAST w).setReg EVT_FLT_LAST_SEC a).setReg EVT_FLT_LAST_NS b) :=
  ((FaultOnly.setReg d EVT_FLT_LAST w (by decide) (by decide)).trans
    (FaultOnly.setReg _ EVT_FLT_LAST_SEC a (by decide) (by decide))).trans
    (FaultOnly.setReg _ EVT_FLT_LAST_NS b (by decide) (by decide))

/-- The queue of the fault unit is full (R579). -/
theorem fullQueue_faultOnly (d : Dev) : FaultOnly d ((d.put EVT_FLT_FLAGS_QFULL 1).count EVT_FLT_QFULL 1) :=
  (FaultOnly.setReg d EVT_FLT_FLAGS _ (by decide) (by decide)).trans
    (FaultOnly.setReg _ EVT_FLT_QFULL _ (by decide) (by decide))

theorem escalatedFlag_faultOnly (d : Dev) : FaultOnly d (d.put EVT_FLT_FLAGS_ESCALATED 1) :=
  FaultOnly.setReg d EVT_FLT_FLAGS _ (by decide) (by decide)

/-- The detection of a fault changes what `FaultOnly` says (R566 to R569, R578, R592). -/
theorem faultD_faultOnly (code sev inst d0 d1 : Nat) (d : Dev) (hc : code < 256) :
    FaultOnly d (faultD code sev inst d0 d1 d) := by
  unfold faultD
  extract_lets us s1 escalated sev' halting subsumed handled queued full w s2 s3 s4 s5 s6 trigger seen s7
  have e1 : FaultOnly d s1 :=
    FaultOnly.ite d _ _ (FaultOnly.foldl _ (fun t u => countRetry_faultOnly code inst u t) us d)
  have e2 : FaultOnly s1 s2 := FaultOnly.ite s1 _ _ (FaultOnly.unit s1 _ s1.dof s1.mpl)
  have e3 : FaultOnly s2 s3 := FaultOnly.setReg s2 _ _ (faultReg_count code hc)
    (fun i hi => by simp only [EVT_PEND, EVT_FLT_COUNT]; omega)
  have e4 : FaultOnly s3 s4 := lastReport_faultOnly s3 _ _ _
  have e5 : FaultOnly s4 s5 := FaultOnly.ite s4 _ _ (fullQueue_faultOnly s4)
  have e6 : FaultOnly s5 s6 := FaultOnly.ite s5 _ _ (escalatedFlag_faultOnly s5)
  have e7 : FaultOnly s6 s7 := FaultOnly.ite s6 _ _ (FaultOnly.unit s6 s6.flt _ s6.mpl)
  exact e1.trans (e2.trans (e3.trans (e4.trans (e5.trans (e6.trans (e7.trans
    ((archCauses_faultOnly code sev' inst s7).trans (stage_eventOnly _ _).fault)))))))

/-- An escalation changes what `FaultOnly` says (R570, R571). -/
theorem escalate_faultOnly (code inst : Nat) (d : Dev) : FaultOnly d (escalate code inst d) := by
  unfold escalate
  extract_lets us subsumed queued full w s1 s2 s3
  have e1 : FaultOnly d s1 := by
    simp only [s1]
    split
    · exact FaultOnly.refl d
    · exact FaultOnly.unit d _ d.dof d.mpl
  have e3 : FaultOnly s2 s3 := FaultOnly.ite s2 _ _ (fullQueue_faultOnly s2)
  exact e1.trans ((lastReport_faultOnly s1 _ _ _).trans (e3.trans
    ((escalatedFlag_faultOnly s3).trans (stage_eventOnly _ _).fault)))

/-- A fault with its event: `FaultOnly`, and the event's pending bit is set. -/
theorem faultEvent_spec (code sev inst e : Nat) (d : Dev) (hc : code < 256) (he : e < 256) :
    FaultOnly d (faultEvent code sev inst e d) ∧ (faultEvent code sev inst e d).pends e :=
  ⟨(faultD_faultOnly code sev inst 0 0 d hc).trans (occur_eventOnly e inst code _ he).fault, occur_pends e inst code _ he⟩

theorem FaultOnly.calm {d t : Dev} (h : FaultOnly d t) (hc : d.calm) : t.calm :=
  calm_of hc (h.quiet hc.2) fun e he => h.regs (EVT_CFG e) (faultReg_cfg e he)

theorem calm_faultEvent {d : Dev} (hc : d.calm) (code sev inst e : Nat) (h : code < 256) (he : e < 256) :
    (faultEvent code sev inst e d).calm := (faultEvent_spec code sev inst e d h he).1.calm hc

theorem reg_faultEvent (code sev inst e a : Nat) (d : Dev) (hc : code < 256) (he : e < 256) (ha : faultReg a = false) :
    (faultEvent code sev inst e d).reg a = d.reg a := (faultEvent_spec code sev inst e d hc he).1.regs a ha

theorem get_faultEvent (code sev inst e : Nat) (f : Field) (d : Dev) (hc : code < 256) (he : e < 256)
    (ha : faultReg f.addr = false) : (faultEvent code sev inst e d).get f = d.get f := by
  simp only [Dev.get, reg_faultEvent code sev inst e _ d hc he ha]

end Sys2Proof.Machine
end

