-- ==== Sys2Proof/Laws/Act.lean ====
section
/-!
SUPPORT. How a command acts: on a domain whose clock runs, on one whose clock stands, and how "nothing else changed" is
built up from the parts of an effect.
-/
namespace Sys2Proof.Machine

open Reg

/-- While its domain runs and no reaction waits after it, a command is its own effect (R49, R636). -/
theorem actIn_run {k : Nat} {f : Dev → Dev} {s : State} (h : s.dev.runs k = true) (hc : (f s.dev).ev.reacts = []) :
    actIn k f s = .next { s with dev := f s.dev } := by
  simp [actIn, h, settle_of_reacts hc]

/-- While its domain stands, a command does nothing (R49, R509). -/
theorem actIn_stopped {k : Nat} {f : Dev → Dev} {s : State} (h : s.dev.runs k = false) : actIn k f s = .next s := by
  simp [actIn, h]

/-- Every command of a domain answers a next state, and keeps the queue and the fuses. -/
theorem actIn_total (k : Nat) (f : Dev → Dev) (s : State) : ∃ d, actIn k f s = .next { s with dev := d } := ⟨_, rfl⟩

/-! ### Nothing else changed -/

theorem regsOnly_refl (d : Dev) (L : List Nat) : d.regsOnly L d := ⟨rfl, fun _ _ => rfl⟩

theorem regsOnly_setReg (d : Dev) (a v : Nat) : d.regsOnly [a] (d.setReg a v) :=
  ⟨rfl, fun b hb => reg_setReg_ne d v (by simpa using hb)⟩

theorem regsOnly_put (d : Dev) (f : Field) (v : Nat) : d.regsOnly [f.addr] (d.put f v) := regsOnly_setReg d _ _

/-- Changes made one after the other touch what either touches. -/
theorem regsOnly_trans {d t u : Dev} {L M : List Nat} (h : d.regsOnly L t) (k : t.regsOnly M u) : d.regsOnly (L ++ M) u :=
  ⟨by rw [k.1, h.1], fun a ha => by
    rw [List.mem_append, not_or] at ha
    exact (k.2 a ha.2).trans (h.2 a ha.1)⟩

theorem withEvent_of {d t u : Dev} {L : List Nat} (h : d.regsOnly L t) (k : EventOnly t u) : d.withEvent L u :=
  ⟨by rw [k.rest, h.1], fun a ha hb => (k.regs a hb).trans (h.2 a ha)⟩

theorem withFault_of {d t u : Dev} {L : List Nat} (h : d.regsOnly L t) (k : FaultOnly t u) : d.withFault L u :=
  ⟨by rw [k.rest, h.1], fun a ha hb => (k.regs a hb).trans (h.2 a ha)⟩

/-- More registers may be named than change. -/
theorem withEvent_mono {d t : Dev} {L M : List Nat} (h : d.withEvent L t) (hs : L ⊆ M) : d.withEvent M t :=
  ⟨h.1, fun a ha => h.2 a (fun hl => ha (hs hl))⟩

theorem regsOnly_mono {d t : Dev} {L M : List Nat} (h : d.regsOnly L t) (hs : L ⊆ M) : d.regsOnly M t :=
  ⟨h.1, fun a ha => h.2 a (fun hl => ha (hs hl))⟩

/-! ### Flags (R16, R682) -/

/-- A W1C flag with its event: the flag is set, and all else is as before but what the event touches. -/
theorem flagEvent_spec (f : Field) (e inst code : Nat) (d : Dev) (he : e < 256) (hf : f.hi = f.lo) (h32 : f.hi < 32)
    (hr : eventReg f.addr = false) :
    d.withEvent [f.addr] (flagEvent f e inst code d) ∧ (flagEvent f e inst code d).on f = true := by
  simp only [flagEvent]
  split
  · rename_i h
    exact ⟨⟨rfl, fun _ _ _ => rfl⟩, h⟩
  · refine ⟨withEvent_of (regsOnly_put d f 1) (occur_eventOnly e inst code _ he), ?_⟩
    simp only [Dev.on, get_occur e inst code f _ he hr]
    exact on_put_one d f hf h32

theorem calm_flagEvent {d : Dev} (hc : d.calm) (f : Field) (e inst code : Nat) (he : e < 256)
    (hf : cfgReg f.addr = false) : (flagEvent f e inst code d).calm := by
  simp only [flagEvent]
  split
  · exact hc
  · exact calm_occur (calm_put hc f 1 hf) e inst code he

end Sys2Proof.Machine
end

