-- ==== Sys2Proof/Laws/Within.lean ====
section
/-!
SUPPORT. What an operation may touch, as one relation that composes: the blocks of its registers, the parts of the
device, and that it keeps the canonical form of the stores and stays calm.
-/
namespace Sys2Proof.Machine

open Reg

/-- `t` comes from `d` by an operation that touches no register outside the blocks `B` and no part outside `P`, keeps the
stores canonical, and adds no reaction where none is configured. -/
structure Dev.within (P : List Part) (B : List Nat) (d t : Dev) : Prop where
  frame : d.frame P B t
  wf : Memory.wf d = true → Memory.wf t = true
  calm : d.calm → t.calm

variable {P Q : List Part} {B C : List Nat} {d u t : Dev}

theorem Part.same_refl (p : Part) (d : Dev) : p.same d d := by cases p <;> rfl

theorem Part.same_trans {p : Part} (h : p.same d u) (k : p.same u t) : p.same d t := by
  cases p <;> exact Eq.trans k h

theorem within_refl (P : List Part) (B : List Nat) (d : Dev) : d.within P B d :=
  ⟨⟨fun _ _ => rfl, fun p _ => p.same_refl d⟩, id, id⟩

theorem contains_of_all {α : Type} [DecidableEq α] {l m : List α} (h : l.all m.contains = true) {x : α}
    (hx : m.contains x = false) : l.contains x = false := by
  by_contra hl
  have hl : l.contains x = true := by simpa using hl
  have : m.contains x = true := List.all_eq_true.1 h x (List.contains_iff_mem.1 hl)
  simp_all

/-- One operation after another, each within what the whole may touch. -/
theorem within_comp (h : u.within Q C t) (k : d.within P B u) (hp : Q.all P.contains = true)
    (hb : C.all B.contains = true) : d.within P B t where
  frame := ⟨fun a ha => (h.frame.1 a (contains_of_all hb ha)).trans (k.frame.1 a ha),
    fun p hq => Part.same_trans (k.frame.2 p hq) (h.frame.2 p (contains_of_all hp hq))⟩
  wf w := h.wf (k.wf w)
  calm c := h.calm (k.calm c)

theorem within_mono (h : d.within Q C t) (hp : Q.all P.contains = true) (hb : C.all B.contains = true) :
    d.within P B t := within_comp h (within_refl P B d) hp hb

/-- One of two, each within what the whole may touch. -/
theorem within_ite {c : Prop} [Decidable c] (h : d.within P B t) (k : d.within P B u) :
    d.within P B (if c then t else u) := by
  split
  · exact h
  · exact k

/-- A fold of operations. -/
theorem within_foldl {α : Type} (g : Dev → α → Dev) (l : List α) (hg : ∀ (v : Dev) (x : α), v.within P B (g v x))
    (k : d.within P B u) : d.within P B (l.foldl g u) := by
  induction l generalizing u with
  | nil => exact k
  | cons x l ih =>
    refine ih ⟨⟨fun a ha => ((hg u x).frame.1 a ha).trans (k.frame.1 a ha),
      fun p hp => Part.same_trans (k.frame.2 p hp) ((hg u x).frame.2 p hp)⟩, fun w => (hg u x).wf (k.wf w),
      fun c => (hg u x).calm (k.calm c)⟩

/-- A fold of operations that are within bounds for the elements of the list. -/
theorem within_foldl_mem {α : Type} (g : Dev → α → Dev) (l : List α) (hg : ∀ (v : Dev) (x : α), x ∈ l → v.within P B (g v x))
    (k : d.within P B u) : d.within P B (l.foldl g u) := by
  induction l generalizing u with
  | nil => exact k
  | cons x l ih =>
    have hx := hg u x (by simp)
    refine ih (fun v y hy => hg v y (by simp [hy])) ⟨⟨fun a ha => (hx.frame.1 a ha).trans (k.frame.1 a ha),
      fun p hp => Part.same_trans (k.frame.2 p hp) (hx.frame.2 p hp)⟩, fun w => hx.wf (k.wf w), fun c => hx.calm (k.calm c)⟩

/-- A fold that carries a value beside the device. -/
theorem within_foldl_snd {α β : Type} (g : β × Dev → α → β × Dev) (l : List α) (x : β × Dev)
    (hg : ∀ (v : β × Dev) (a : α), v.2.within P B (g v a).2) (k : d.within P B x.2) :
    d.within P B (l.foldl g x).2 := by
  induction l generalizing x with
  | nil => exact k
  | cons a l ih =>
    have hx := hg x a
    exact ih _ ⟨⟨fun b hb => (hx.frame.1 b hb).trans (k.frame.1 b hb),
      fun p hp => Part.same_trans (k.frame.2 p hp) (hx.frame.2 p hp)⟩, fun w => hx.wf (k.wf w), fun c => hx.calm (k.calm c)⟩

/-- A change of parts: what is not in `P` is the same, the stores are canonical, and no reaction is added. -/
theorem within_parts (h : t.regs = d.regs) (hp : ∀ p : Part, P.contains p = false → p.same d t)
    (hw : Memory.wf d = true → Memory.wf t = true) (hc : d.ev.reacts = t.ev.reacts) : d.within P B t :=
  ⟨⟨fun a _ => reg_of_regs h a, hp⟩, hw, fun c => calm_of c hc.symm (fun _ _ => reg_of_regs h _)⟩

/-- A record update that keeps the registers and the stores, and adds no reaction. -/
theorem within_mk (d : Dev) (shadow free grid bases ev flt wal chain trd creel dram flash dof axes sht start lmp isp
    crl sec pins mpl tap drc shd reed lnk lanes trm thm mgm) (P : List Part)
    (hp : ∀ p : Part, P.contains p = false → p.same d (Dev.mk d.regs shadow free grid bases ev flt wal chain trd creel dram
      flash dof axes sht start lmp isp crl sec pins mpl tap drc shd reed lnk lanes trm thm mgm))
    (hc : d.creel = creel) (hd : d.dram = dram) (hf : d.flash = flash) (hr : d.ev.reacts = ev.reacts) :
    d.within P [] (Dev.mk d.regs shadow free grid bases ev flt wal chain trd creel dram flash dof axes sht start lmp isp
      crl sec pins mpl tap drc shd reed lnk lanes trm thm mgm) :=
  within_parts rfl hp (by subst hc hd hf; exact id) hr

/-- The second part of a pair that an operation answers. -/
theorem within_snd {α : Type} {x : α × Dev} {a : α} (h : x = (a, t)) (k : d.within P B x.2) : d.within P B t := by
  rw [h] at k; exact k

theorem within_snd2 {α β : Type} {x : α × β × Dev} {a : α} {b : β} (h : x = (a, b, t)) (k : d.within P B x.2.2) :
    d.within P B t := by
  rw [h] at k; exact k

theorem within_fst {α : Type} {x : Dev × α} {a : α} (h : x = (t, a)) (k : d.within P B x.1) : d.within P B t := by
  rw [h] at k; exact k

/-! ### Registers -/

theorem wf_setReg (a v : Nat) (h : Memory.wf d = true) : Memory.wf (d.setReg a v) = true := by
  simp only [Memory.wf, Bool.and_eq_true] at h ⊢
  exact ⟨⟨⟨swf_sset resetOf d.regs a _ h.1.1.1, h.1.1.2⟩, h.1.2⟩, h.2⟩

/-- One register is set, no configuration of an event among them: those lie in block 2. -/
theorem setReg_within (d : Dev) (a v k : Nat) (hk : a / 0x10000 = k) (ha : k ≠ 2 ∨ cfgReg a = false) :
    d.within [] [k] (d.setReg a v) where
  frame := ⟨fun b hb => reg_setReg_ne d v (by rintro rfl; simp [hk] at hb), fun p _ => by cases p <;> rfl⟩
  wf := wf_setReg a v
  calm c := calm_setReg c a v (ha.elim (fun h => by
    simp only [cfgReg, Bool.and_eq_false_iff, decide_eq_false_iff_not]; omega) id)

theorem put_within (d : Dev) (f : Field) (v k : Nat) (hk : f.addr / 0x10000 = k) (ha : k ≠ 2 ∨ cfgReg f.addr = false) :
    d.within [] [k] (d.put f v) := setReg_within d _ _ k hk ha

theorem count_within (d : Dev) (a n k : Nat) (hk : a / 0x10000 = k) (ha : k ≠ 2 ∨ cfgReg a = false) :
    d.within [] [k] (d.count a n) := setReg_within d _ _ k hk ha

theorem countF_within (d : Dev) (f : Field) (k : Nat) (hk : f.addr / 0x10000 = k) (ha : k ≠ 2 ∨ cfgReg f.addr = false) :
    d.within [] [k] (d.countF f) := setReg_within d _ _ k hk ha

theorem setRegS_within (d : Dev) (a : Nat) (v : Int) (k : Nat) (hk : a / 0x10000 = k) (ha : k ≠ 2 ∨ cfgReg a = false) :
    d.within [] [k] (d.setRegS a v) := setReg_within d _ _ k hk ha

theorem setShadow_within (d : Dev) (a v : Nat) : d.within [.shadow] [] (d.setShadow a v) :=
  within_parts rfl (fun p hp => by cases p <;> first | rfl | simp at hp) id rfl

/-! ### Commits of RWS fields (R15, R585) -/

theorem swf_commitWord (t : List (Nat × Word)) (e : Nat × Word) (h : swf resetOf t = true) :
    swf resetOf (commitWord t e) = true := swf_sset resetOf t e.1 _ h

theorem commitWord_ne (t : List (Nat × Word)) (e : Nat × Word) {a : Nat} (h : a ≠ e.1) :
    sget (resetOf a) (commitWord t e) a = sget (resetOf a) t a := sget_sset_ne _ _ _ _ h

/-- The rows of a block depend on the block's number alone. -/
theorem blockRows_block (a : Nat) : blockRows a = blockRows (a / 0x10000 * 0x10000) := by
  simp only [blockRows, Nat.mul_div_cancel _ (by decide : 0 < 0x10000)]

theorem blockRows_high {a : Nat} (h : 22 ≤ a / 0x10000) : blockRows a = [] := by
  unfold blockRows
  split <;> first | omega | rfl

/-- Registers whose writes wait for boundary `b` lie in the blocks `B`: shown by going through the register map. -/
def boundaryIn (b : Boundary) (B : List Nat) : Bool :=
  (List.range 22).all fun k => B.contains k || (blockRows (k * 0x10000)).all fun r => decide (r.boundary ≠ b)

theorem boundary_block {b : Boundary} {B : List Nat} (h : boundaryIn b B = true) {a : Nat} {r : RegRow}
    (hr : rowAt a = some r) (hb : r.boundary = b) : B.contains (a / 0x10000) = true := by
  have hm : r ∈ blockRows a := List.mem_of_find?_eq_some hr
  by_cases hk : 22 ≤ a / 0x10000
  · rw [blockRows_high hk] at hm; exact nomatch hm
  · have h1 := List.all_eq_true.1 h (a / 0x10000) (List.mem_range.2 (by omega))
    rw [← blockRows_block] at h1
    by_contra hc
    have h2 := (Bool.or_eq_true _ _).mp h1 |>.resolve_left hc
    have := List.all_eq_true.1 h2 r hm
    simp [hb] at this

/-- A commit sets only registers of its boundary and range. -/
theorem commit_reg (d : Dev) (b : Boundary) (lo hi : Nat) (a : Nat)
    (h : ∀ r, rowAt a = some r → r.boundary = b → lo ≤ a → a < hi → False) : (d.commit b lo hi).reg a = d.reg a := by
  simp only [Dev.reg, Dev.commit]
  congr 1
  generalize d.regs = t
  generalize d.shadow = l
  induction l generalizing t with
  | nil => rfl
  | cons e l ih =>
    simp only [List.foldl_cons]
    rw [ih]
    split
    · rename_i hd
      refine commitWord_ne t e ?_
      rintro rfl
      simp only [Bool.and_eq_true, decide_eq_true_eq] at hd
      obtain ⟨⟨h1, h2⟩, h3⟩ := hd
      split at h3
      · rename_i r hr
        exact h r hr (by simpa using h3) h1 h2
      · simp at h3
    · rfl

theorem wf_commit (b : Boundary) (lo hi : Nat) (h : Memory.wf d = true) : Memory.wf (d.commit b lo hi) = true := by
  simp only [Memory.wf, Bool.and_eq_true] at h ⊢
  refine ⟨⟨⟨?_, h.1.1.2⟩, h.1.2⟩, h.2⟩
  have hr := h.1.1.1
  simp only [Dev.commit]
  generalize d.regs = t at hr ⊢
  generalize d.shadow = l
  induction l generalizing t with
  | nil => exact hr
  | cons e l ih =>
    simp only [List.foldl_cons]
    apply ih
    split
    · exact swf_commitWord t e hr
    · exact hr

/-- A commit within a range of one block. -/
theorem commit_within (d : Dev) (b : Boundary) (lo hi k : Nat) (hlo : k * 0x10000 ≤ lo) (hhi : hi ≤ (k + 1) * 0x10000)
    (hk : k ≠ 2) : d.within [.shadow] [k] (d.commit b lo hi) where
  frame := ⟨fun a ha => commit_reg d b lo hi a (fun r _ _ h1 h2 => by
      simp only [List.contains_eq_mem, List.mem_singleton, decide_eq_false_iff_not] at ha; omega),
    fun p hp => by cases p <;> first | rfl | simp at hp⟩
  wf := wf_commit b lo hi
  calm c := calm_of c rfl fun e he => commit_reg d b lo hi _ (fun r _ _ h1 h2 => by
    simp only [EVT_CFG] at h1 h2; omega)

/-- A commit of all registers of a boundary. -/
theorem commitAll_within (d : Dev) (b : Boundary) (lo hi : Nat) (B : List Nat) (h : boundaryIn b B = true)
    (h2 : B.contains 2 = false) : d.within [.shadow] B (d.commit b lo hi) where
  frame := ⟨fun a ha => commit_reg d b lo hi a (fun r hr hb _ _ => by
      have := boundary_block h hr hb; simp_all),
    fun p hp => by cases p <;> first | rfl | simp at hp⟩
  wf := wf_commit b lo hi
  calm c := calm_of c rfl fun e he => commit_reg d b lo hi _ (fun r hr hb _ _ => by
    have := boundary_block h hr hb
    have h3 : EVT_CFG e / 0x10000 = 2 := by simp only [EVT_CFG]; omega
    rw [h3] at this; simp_all)

theorem layerTrd_in : boundaryIn .layerTrd [20] = true := by decide
theorem layer_in : boundaryIn .layer [8, 11, 16] = true := by decide
theorem tick_in : boundaryIn .tick [10, 11] = true := by decide
theorem period_in : boundaryIn .period [3, 5, 6, 7, 8, 9, 10, 16] = true := by decide
theorem pass_in : boundaryIn .pass [7] = true := by decide
theorem evaluation_in : boundaryIn .evaluation [10] = true := by decide

/-! ### Stores -/

theorem setCreelBytes_within (d : Dev) (a : Nat) (bs : List Byte) : d.within [.creel] [] (d.setCreelBytes a bs) := by
  refine within_parts rfl (fun p hp => by cases p <;> first | rfl | simp at hp) (fun h => ?_) rfl
  simp only [Memory.wf, Bool.and_eq_true] at h ⊢
  exact ⟨⟨⟨h.1.1.1, swf_storeBytes _ _ _ _ h.1.1.2⟩, h.1.2⟩, h.2⟩

theorem setDramBytes_within (d : Dev) (a : Nat) (bs : List Byte) : d.within [.dram] [] (d.setDramBytes a bs) := by
  refine within_parts rfl (fun p hp => by cases p <;> first | rfl | simp at hp) (fun h => ?_) rfl
  simp only [Memory.wf, Bool.and_eq_true] at h ⊢
  exact ⟨⟨⟨h.1.1.1, h.1.1.2⟩, swf_storeBytes _ _ _ _ h.1.2⟩, h.2⟩

theorem programFlash_within (d : Dev) (a : Nat) (bs : List Byte) : d.within [.flash] [] (d.programFlash a bs) := by
  refine within_parts rfl (fun p hp => by cases p <;> first | rfl | simp at hp) (fun h => ?_) rfl
  simp only [Memory.wf, Bool.and_eq_true] at h ⊢
  exact ⟨⟨⟨h.1.1.1, h.1.1.2⟩, h.1.2⟩, swf_storeBytes _ _ _ _ h.2⟩

theorem eraseFlash_within (d : Dev) (a n : Nat) : d.within [.flash] [] (d.eraseFlash a n) := by
  refine within_parts rfl (fun p hp => by cases p <;> first | rfl | simp at hp) (fun h => ?_) rfl
  simp only [Memory.wf, Bool.and_eq_true] at h ⊢
  exact ⟨⟨⟨h.1.1.1, h.1.1.2⟩, h.1.2⟩, swf_filter _ _ _ h.2⟩

/-! ### Events and faults -/

theorem eventReg_block {a : Nat} (h : [2, 18].contains (a / 0x10000) = false) : eventReg a = false := by
  simp only [List.contains_eq_mem, List.mem_cons, List.not_mem_nil, or_false, decide_eq_false_iff_not, not_or] at h
  simp only [eventReg, EVT_FLAGS, EVT_LAST, EVT_FLT_COUNT, WAL_DROPS, WAL_FLAGS, WAL_STAGED,
    Bool.or_eq_false_iff, beq_eq_false_iff_ne, Bool.and_eq_false_iff, decide_eq_false_iff_not]
  omega

theorem faultReg_block {a : Nat} (h : [2, 18].contains (a / 0x10000) = false) : faultReg a = false := by
  have he := eventReg_block h
  simp only [List.contains_eq_mem, List.mem_cons, List.not_mem_nil, or_false, decide_eq_false_iff_not, not_or] at h
  simp only [faultReg, he, EVT_FLT_FLAGS, Bool.false_or, Bool.or_eq_false_iff, beq_eq_false_iff_ne,
    Bool.and_eq_false_iff, decide_eq_false_iff_not]
  omega

theorem EventOnly.within (h : EventOnly d t) : d.within [.ev, .wal] [2, 18] t where
  frame := ⟨fun a ha => h.regs a (eventReg_block ha), fun p hp => by rw [h.rest]; cases p <;> first | rfl | simp at hp⟩
  wf w := by
    rw [h.rest]
    simp only [Memory.wf, Bool.and_eq_true] at w ⊢
    exact ⟨⟨⟨h.wf w.1.1.1, w.1.1.2⟩, w.1.2⟩, w.2⟩
  calm := h.calm

theorem FaultOnly.within (h : FaultOnly d t) : d.within [.ev, .wal, .flt, .dof, .mpl] [2, 18] t where
  frame := ⟨fun a ha => h.regs a (faultReg_block ha), fun p hp => by rw [h.rest]; cases p <;> first | rfl | simp at hp⟩
  wf w := by
    rw [h.rest]
    simp only [Memory.wf, Bool.and_eq_true] at w ⊢
    exact ⟨⟨⟨h.wf w.1.1.1, w.1.1.2⟩, w.1.2⟩, w.2⟩
  calm := h.calm

theorem occur_within (e inst code : Nat) (d : Dev) (he : e < 256) : d.within [.ev, .wal] [2, 18] (occur e inst code d) :=
  (occur_eventOnly e inst code d he).within

theorem stage_within (r : LogRec) (d : Dev) : d.within [.ev, .wal] [2, 18] (stage r d) := (stage_eventOnly r d).within

theorem faultD_within (code sev inst d0 d1 : Nat) (d : Dev) (hc : code < 256) :
    d.within [.ev, .wal, .flt, .dof, .mpl] [2, 18] (faultD code sev inst d0 d1 d) :=
  (faultD_faultOnly code sev inst d0 d1 d hc).within

theorem fault_within (code sev inst : Nat) (d : Dev) (hc : code < 256) :
    d.within [.ev, .wal, .flt, .dof, .mpl] [2, 18] (fault code sev inst d) := faultD_within code sev inst 0 0 d hc

theorem faultEvent_within (code sev inst e : Nat) (d : Dev) (hc : code < 256) (he : e < 256) :
    d.within [.ev, .wal, .flt, .dof, .mpl] [2, 18] (faultEvent code sev inst e d) :=
  (faultEvent_spec code sev inst e d hc he).1.within

theorem escalate_within (code inst : Nat) (d : Dev) :
    d.within [.ev, .wal, .flt, .dof, .mpl] [2, 18] (escalate code inst d) := (escalate_faultOnly code inst d).within

theorem flagEvent_within (f : Field) (e inst code k : Nat) (d : Dev) (he : e < 256) (hk : f.addr / 0x10000 = k)
    (ha : k ≠ 2 ∨ cfgReg f.addr = false) : d.within [.ev, .wal] [k, 2, 18] (flagEvent f e inst code d) := by
  simp only [flagEvent]
  split
  · exact within_refl _ _ d
  · exact within_comp (occur_within e inst code _ he)
      (within_mono (put_within d f 1 k hk ha) (by decide) (by simp)) (by decide) (by simp)

theorem writeLocked_within (f : Field) (e inst k : Nat) (d : Dev) (he : e < 256) (hk : f.addr / 0x10000 = k)
    (ha : k ≠ 2 ∨ cfgReg f.addr = false) : d.within [.ev, .wal] [k, 2, 18] (writeLocked f e inst d) :=
  flagEvent_within f e inst 0 k d he hk ha

end Sys2Proof.Machine
end

