-- ==== Sys2Proof/Laws/Setters.lean ====
section
/-!
SUPPORT. One named setter per part of the device: record updates fold into them, and each touches its part only.
-/
namespace Sys2Proof.Machine

def Dev.toShadow (d : Dev) (x : List (Nat × Word)) : Dev := { d with shadow := x }
def Dev.toFree (d : Dev) (x : Nat) : Dev := { d with free := x }
def Dev.toGrid (d : Dev) (x : Grid) : Dev := { d with grid := x }
def Dev.toBases (d : Dev) (x : Vector TimeBase 4) : Dev := { d with bases := x }
def Dev.toEv (d : Dev) (x : EventUnit) : Dev := { d with ev := x }
def Dev.toFlt (d : Dev) (x : FaultUnit) : Dev := { d with flt := x }
def Dev.toWal (d : Dev) (x : WaleLog) : Dev := { d with wal := x }
def Dev.toChain (d : Dev) (x : Chain) : Dev := { d with chain := x }
def Dev.toTrd (d : Dev) (x : Treadle) : Dev := { d with trd := x }
def Dev.toCreel (d : Dev) (x : List Host.Cell) : Dev := { d with creel := x }
def Dev.toDram (d : Dev) (x : List Host.Cell) : Dev := { d with dram := x }
def Dev.toFlash (d : Dev) (x : List Host.Cell) : Dev := { d with flash := x }
def Dev.toDof (d : Dev) (x : Doff) : Dev := { d with dof := x }
def Dev.toAxes (d : Dev) (x : Vector AxisState 8) : Dev := { d with axes := x }
def Dev.toSht (d : Dev) (x : Vector Shuttle 16) : Dev := { d with sht := x }
def Dev.toStart (d : Dev) (x : Startup) : Dev := { d with start := x }
def Dev.toLmp (d : Dev) (x : Lamps) : Dev := { d with lmp := x }
def Dev.toIsp (d : Dev) (x : Cams) : Dev := { d with isp := x }
def Dev.toCrl (d : Dev) (x : CreelUnit) : Dev := { d with crl := x }
def Dev.toSec (d : Dev) (x : Secure) : Dev := { d with sec := x }
def Dev.toPins (d : Dev) (x : Vector PinState 8) : Dev := { d with pins := x }
def Dev.toMpl (d : Dev) (x : Melt) : Dev := { d with mpl := x }
def Dev.toTap (d : Dev) (x : Tapestry) : Dev := { d with tap := x }
def Dev.toDrc (d : Dev) (x : Dram) : Dev := { d with drc := x }
def Dev.toShd (d : Dev) (x : Shed) : Dev := { d with shd := x }
def Dev.toReed (d : Dev) (x : Reed) : Dev := { d with reed := x }
def Dev.toLnk (d : Dev) (x : Vector Link 16) : Dev := { d with lnk := x }
def Dev.toLanes (d : Dev) (x : Vector LaneUnit 18) : Dev := { d with lanes := x }
def Dev.toTrm (d : Dev) (x : Trim) : Dev := { d with trm := x }
def Dev.toThm (d : Dev) (x : Thermal) : Dev := { d with thm := x }
def Dev.toMgm (d : Dev) (x : Mgmt) : Dev := { d with mgm := x }

theorem mk_shadow (d : Dev) (x : List (Nat × Word)) : Dev.mk d.regs x d.free d.grid d.bases d.ev d.flt d.wal d.chain d.trd d.creel d.dram d.flash d.dof d.axes d.sht d.start d.lmp d.isp d.crl d.sec d.pins d.mpl d.tap d.drc d.shd d.reed d.lnk d.lanes d.trm d.thm d.mgm = d.toShadow x := rfl
theorem mk_free (d : Dev) (x : Nat) : Dev.mk d.regs d.shadow x d.grid d.bases d.ev d.flt d.wal d.chain d.trd d.creel d.dram d.flash d.dof d.axes d.sht d.start d.lmp d.isp d.crl d.sec d.pins d.mpl d.tap d.drc d.shd d.reed d.lnk d.lanes d.trm d.thm d.mgm = d.toFree x := rfl
theorem mk_grid (d : Dev) (x : Grid) : Dev.mk d.regs d.shadow d.free x d.bases d.ev d.flt d.wal d.chain d.trd d.creel d.dram d.flash d.dof d.axes d.sht d.start d.lmp d.isp d.crl d.sec d.pins d.mpl d.tap d.drc d.shd d.reed d.lnk d.lanes d.trm d.thm d.mgm = d.toGrid x := rfl
theorem mk_bases (d : Dev) (x : Vector TimeBase 4) : Dev.mk d.regs d.shadow d.free d.grid x d.ev d.flt d.wal d.chain d.trd d.creel d.dram d.flash d.dof d.axes d.sht d.start d.lmp d.isp d.crl d.sec d.pins d.mpl d.tap d.drc d.shd d.reed d.lnk d.lanes d.trm d.thm d.mgm = d.toBases x := rfl
theorem mk_ev (d : Dev) (x : EventUnit) : Dev.mk d.regs d.shadow d.free d.grid d.bases x d.flt d.wal d.chain d.trd d.creel d.dram d.flash d.dof d.axes d.sht d.start d.lmp d.isp d.crl d.sec d.pins d.mpl d.tap d.drc d.shd d.reed d.lnk d.lanes d.trm d.thm d.mgm = d.toEv x := rfl
theorem mk_flt (d : Dev) (x : FaultUnit) : Dev.mk d.regs d.shadow d.free d.grid d.bases d.ev x d.wal d.chain d.trd d.creel d.dram d.flash d.dof d.axes d.sht d.start d.lmp d.isp d.crl d.sec d.pins d.mpl d.tap d.drc d.shd d.reed d.lnk d.lanes d.trm d.thm d.mgm = d.toFlt x := rfl
theorem mk_wal (d : Dev) (x : WaleLog) : Dev.mk d.regs d.shadow d.free d.grid d.bases d.ev d.flt x d.chain d.trd d.creel d.dram d.flash d.dof d.axes d.sht d.start d.lmp d.isp d.crl d.sec d.pins d.mpl d.tap d.drc d.shd d.reed d.lnk d.lanes d.trm d.thm d.mgm = d.toWal x := rfl
theorem mk_chain (d : Dev) (x : Chain) : Dev.mk d.regs d.shadow d.free d.grid d.bases d.ev d.flt d.wal x d.trd d.creel d.dram d.flash d.dof d.axes d.sht d.start d.lmp d.isp d.crl d.sec d.pins d.mpl d.tap d.drc d.shd d.reed d.lnk d.lanes d.trm d.thm d.mgm = d.toChain x := rfl
theorem mk_trd (d : Dev) (x : Treadle) : Dev.mk d.regs d.shadow d.free d.grid d.bases d.ev d.flt d.wal d.chain x d.creel d.dram d.flash d.dof d.axes d.sht d.start d.lmp d.isp d.crl d.sec d.pins d.mpl d.tap d.drc d.shd d.reed d.lnk d.lanes d.trm d.thm d.mgm = d.toTrd x := rfl
theorem mk_creel (d : Dev) (x : List Host.Cell) : Dev.mk d.regs d.shadow d.free d.grid d.bases d.ev d.flt d.wal d.chain d.trd x d.dram d.flash d.dof d.axes d.sht d.start d.lmp d.isp d.crl d.sec d.pins d.mpl d.tap d.drc d.shd d.reed d.lnk d.lanes d.trm d.thm d.mgm = d.toCreel x := rfl
theorem mk_dram (d : Dev) (x : List Host.Cell) : Dev.mk d.regs d.shadow d.free d.grid d.bases d.ev d.flt d.wal d.chain d.trd d.creel x d.flash d.dof d.axes d.sht d.start d.lmp d.isp d.crl d.sec d.pins d.mpl d.tap d.drc d.shd d.reed d.lnk d.lanes d.trm d.thm d.mgm = d.toDram x := rfl
theorem mk_flash (d : Dev) (x : List Host.Cell) : Dev.mk d.regs d.shadow d.free d.grid d.bases d.ev d.flt d.wal d.chain d.trd d.creel d.dram x d.dof d.axes d.sht d.start d.lmp d.isp d.crl d.sec d.pins d.mpl d.tap d.drc d.shd d.reed d.lnk d.lanes d.trm d.thm d.mgm = d.toFlash x := rfl
theorem mk_dof (d : Dev) (x : Doff) : Dev.mk d.regs d.shadow d.free d.grid d.bases d.ev d.flt d.wal d.chain d.trd d.creel d.dram d.flash x d.axes d.sht d.start d.lmp d.isp d.crl d.sec d.pins d.mpl d.tap d.drc d.shd d.reed d.lnk d.lanes d.trm d.thm d.mgm = d.toDof x := rfl
theorem mk_axes (d : Dev) (x : Vector AxisState 8) : Dev.mk d.regs d.shadow d.free d.grid d.bases d.ev d.flt d.wal d.chain d.trd d.creel d.dram d.flash d.dof x d.sht d.start d.lmp d.isp d.crl d.sec d.pins d.mpl d.tap d.drc d.shd d.reed d.lnk d.lanes d.trm d.thm d.mgm = d.toAxes x := rfl
theorem mk_sht (d : Dev) (x : Vector Shuttle 16) : Dev.mk d.regs d.shadow d.free d.grid d.bases d.ev d.flt d.wal d.chain d.trd d.creel d.dram d.flash d.dof d.axes x d.start d.lmp d.isp d.crl d.sec d.pins d.mpl d.tap d.drc d.shd d.reed d.lnk d.lanes d.trm d.thm d.mgm = d.toSht x := rfl
theorem mk_start (d : Dev) (x : Startup) : Dev.mk d.regs d.shadow d.free d.grid d.bases d.ev d.flt d.wal d.chain d.trd d.creel d.dram d.flash d.dof d.axes d.sht x d.lmp d.isp d.crl d.sec d.pins d.mpl d.tap d.drc d.shd d.reed d.lnk d.lanes d.trm d.thm d.mgm = d.toStart x := rfl
theorem mk_lmp (d : Dev) (x : Lamps) : Dev.mk d.regs d.shadow d.free d.grid d.bases d.ev d.flt d.wal d.chain d.trd d.creel d.dram d.flash d.dof d.axes d.sht d.start x d.isp d.crl d.sec d.pins d.mpl d.tap d.drc d.shd d.reed d.lnk d.lanes d.trm d.thm d.mgm = d.toLmp x := rfl
theorem mk_isp (d : Dev) (x : Cams) : Dev.mk d.regs d.shadow d.free d.grid d.bases d.ev d.flt d.wal d.chain d.trd d.creel d.dram d.flash d.dof d.axes d.sht d.start d.lmp x d.crl d.sec d.pins d.mpl d.tap d.drc d.shd d.reed d.lnk d.lanes d.trm d.thm d.mgm = d.toIsp x := rfl
theorem mk_crl (d : Dev) (x : CreelUnit) : Dev.mk d.regs d.shadow d.free d.grid d.bases d.ev d.flt d.wal d.chain d.trd d.creel d.dram d.flash d.dof d.axes d.sht d.start d.lmp d.isp x d.sec d.pins d.mpl d.tap d.drc d.shd d.reed d.lnk d.lanes d.trm d.thm d.mgm = d.toCrl x := rfl
theorem mk_sec (d : Dev) (x : Secure) : Dev.mk d.regs d.shadow d.free d.grid d.bases d.ev d.flt d.wal d.chain d.trd d.creel d.dram d.flash d.dof d.axes d.sht d.start d.lmp d.isp d.crl x d.pins d.mpl d.tap d.drc d.shd d.reed d.lnk d.lanes d.trm d.thm d.mgm = d.toSec x := rfl
theorem mk_pins (d : Dev) (x : Vector PinState 8) : Dev.mk d.regs d.shadow d.free d.grid d.bases d.ev d.flt d.wal d.chain d.trd d.creel d.dram d.flash d.dof d.axes d.sht d.start d.lmp d.isp d.crl d.sec x d.mpl d.tap d.drc d.shd d.reed d.lnk d.lanes d.trm d.thm d.mgm = d.toPins x := rfl
theorem mk_mpl (d : Dev) (x : Melt) : Dev.mk d.regs d.shadow d.free d.grid d.bases d.ev d.flt d.wal d.chain d.trd d.creel d.dram d.flash d.dof d.axes d.sht d.start d.lmp d.isp d.crl d.sec d.pins x d.tap d.drc d.shd d.reed d.lnk d.lanes d.trm d.thm d.mgm = d.toMpl x := rfl
theorem mk_tap (d : Dev) (x : Tapestry) : Dev.mk d.regs d.shadow d.free d.grid d.bases d.ev d.flt d.wal d.chain d.trd d.creel d.dram d.flash d.dof d.axes d.sht d.start d.lmp d.isp d.crl d.sec d.pins d.mpl x d.drc d.shd d.reed d.lnk d.lanes d.trm d.thm d.mgm = d.toTap x := rfl
theorem mk_drc (d : Dev) (x : Dram) : Dev.mk d.regs d.shadow d.free d.grid d.bases d.ev d.flt d.wal d.chain d.trd d.creel d.dram d.flash d.dof d.axes d.sht d.start d.lmp d.isp d.crl d.sec d.pins d.mpl d.tap x d.shd d.reed d.lnk d.lanes d.trm d.thm d.mgm = d.toDrc x := rfl
theorem mk_shd (d : Dev) (x : Shed) : Dev.mk d.regs d.shadow d.free d.grid d.bases d.ev d.flt d.wal d.chain d.trd d.creel d.dram d.flash d.dof d.axes d.sht d.start d.lmp d.isp d.crl d.sec d.pins d.mpl d.tap d.drc x d.reed d.lnk d.lanes d.trm d.thm d.mgm = d.toShd x := rfl
theorem mk_reed (d : Dev) (x : Reed) : Dev.mk d.regs d.shadow d.free d.grid d.bases d.ev d.flt d.wal d.chain d.trd d.creel d.dram d.flash d.dof d.axes d.sht d.start d.lmp d.isp d.crl d.sec d.pins d.mpl d.tap d.drc d.shd x d.lnk d.lanes d.trm d.thm d.mgm = d.toReed x := rfl
theorem mk_lnk (d : Dev) (x : Vector Link 16) : Dev.mk d.regs d.shadow d.free d.grid d.bases d.ev d.flt d.wal d.chain d.trd d.creel d.dram d.flash d.dof d.axes d.sht d.start d.lmp d.isp d.crl d.sec d.pins d.mpl d.tap d.drc d.shd d.reed x d.lanes d.trm d.thm d.mgm = d.toLnk x := rfl
theorem mk_lanes (d : Dev) (x : Vector LaneUnit 18) : Dev.mk d.regs d.shadow d.free d.grid d.bases d.ev d.flt d.wal d.chain d.trd d.creel d.dram d.flash d.dof d.axes d.sht d.start d.lmp d.isp d.crl d.sec d.pins d.mpl d.tap d.drc d.shd d.reed d.lnk x d.trm d.thm d.mgm = d.toLanes x := rfl
theorem mk_trm (d : Dev) (x : Trim) : Dev.mk d.regs d.shadow d.free d.grid d.bases d.ev d.flt d.wal d.chain d.trd d.creel d.dram d.flash d.dof d.axes d.sht d.start d.lmp d.isp d.crl d.sec d.pins d.mpl d.tap d.drc d.shd d.reed d.lnk d.lanes x d.thm d.mgm = d.toTrm x := rfl
theorem mk_thm (d : Dev) (x : Thermal) : Dev.mk d.regs d.shadow d.free d.grid d.bases d.ev d.flt d.wal d.chain d.trd d.creel d.dram d.flash d.dof d.axes d.sht d.start d.lmp d.isp d.crl d.sec d.pins d.mpl d.tap d.drc d.shd d.reed d.lnk d.lanes d.trm x d.mgm = d.toThm x := rfl
theorem mk_mgm (d : Dev) (x : Mgmt) : Dev.mk d.regs d.shadow d.free d.grid d.bases d.ev d.flt d.wal d.chain d.trd d.creel d.dram d.flash d.dof d.axes d.sht d.start d.lmp d.isp d.crl d.sec d.pins d.mpl d.tap d.drc d.shd d.reed d.lnk d.lanes d.trm d.thm x = d.toMgm x := rfl

theorem toShadow_within (d : Dev) (x : List (Nat × Word)) : d.within [.shadow] [] (d.toShadow x) :=
  within_parts rfl (fun p hp => by cases p <;> first | exact absurd hp (by decide) | exact Eq.refl _) id rfl

theorem toFree_within (d : Dev) (x : Nat) : d.within [.free] [] (d.toFree x) :=
  within_parts rfl (fun p hp => by cases p <;> first | exact absurd hp (by decide) | exact Eq.refl _) id rfl

theorem toGrid_within (d : Dev) (x : Grid) : d.within [.grid] [] (d.toGrid x) :=
  within_parts rfl (fun p hp => by cases p <;> first | exact absurd hp (by decide) | exact Eq.refl _) id rfl

theorem toBases_within (d : Dev) (x : Vector TimeBase 4) : d.within [.bases] [] (d.toBases x) :=
  within_parts rfl (fun p hp => by cases p <;> first | exact absurd hp (by decide) | exact Eq.refl _) id rfl

theorem toEv_within (d : Dev) (x : EventUnit) (h : d.ev.reacts = x.reacts) : d.within [.ev] [] (d.toEv x) :=
  within_parts rfl (fun p hp => by cases p <;> first | exact absurd hp (by decide) | exact Eq.refl _) id h

theorem toFlt_within (d : Dev) (x : FaultUnit) : d.within [.flt] [] (d.toFlt x) :=
  within_parts rfl (fun p hp => by cases p <;> first | exact absurd hp (by decide) | exact Eq.refl _) id rfl

theorem toWal_within (d : Dev) (x : WaleLog) : d.within [.wal] [] (d.toWal x) :=
  within_parts rfl (fun p hp => by cases p <;> first | exact absurd hp (by decide) | exact Eq.refl _) id rfl

theorem toChain_within (d : Dev) (x : Chain) : d.within [.chain] [] (d.toChain x) :=
  within_parts rfl (fun p hp => by cases p <;> first | exact absurd hp (by decide) | exact Eq.refl _) id rfl

theorem toTrd_within (d : Dev) (x : Treadle) : d.within [.trd] [] (d.toTrd x) :=
  within_parts rfl (fun p hp => by cases p <;> first | exact absurd hp (by decide) | exact Eq.refl _) id rfl

theorem toCreel_within (d : Dev) (x : List Host.Cell) (h : swf (fun _ => ramDefault) d.creel = true → swf (fun _ => ramDefault) x = true) :
    d.within [.creel] [] (d.toCreel x) := by
  refine within_parts rfl (fun p hp => by cases p <;> first | exact absurd hp (by decide) | exact Eq.refl _) (fun w => ?_) rfl
  simp only [Memory.wf, Bool.and_eq_true] at w ⊢
  simp_all [Dev.toCreel]

theorem toDram_within (d : Dev) (x : List Host.Cell) (h : swf (fun _ => ramDefault) d.dram = true → swf (fun _ => ramDefault) x = true) :
    d.within [.dram] [] (d.toDram x) := by
  refine within_parts rfl (fun p hp => by cases p <;> first | exact absurd hp (by decide) | exact Eq.refl _) (fun w => ?_) rfl
  simp only [Memory.wf, Bool.and_eq_true] at w ⊢
  simp_all [Dev.toDram]

theorem toFlash_within (d : Dev) (x : List Host.Cell) (h : swf (fun _ => flashDefault) d.flash = true → swf (fun _ => flashDefault) x = true) :
    d.within [.flash] [] (d.toFlash x) := by
  refine within_parts rfl (fun p hp => by cases p <;> first | exact absurd hp (by decide) | exact Eq.refl _) (fun w => ?_) rfl
  simp only [Memory.wf, Bool.and_eq_true] at w ⊢
  simp_all [Dev.toFlash]

theorem toDof_within (d : Dev) (x : Doff) : d.within [.dof] [] (d.toDof x) :=
  within_parts rfl (fun p hp => by cases p <;> first | exact absurd hp (by decide) | exact Eq.refl _) id rfl

theorem toAxes_within (d : Dev) (x : Vector AxisState 8) : d.within [.axes] [] (d.toAxes x) :=
  within_parts rfl (fun p hp => by cases p <;> first | exact absurd hp (by decide) | exact Eq.refl _) id rfl

theorem toSht_within (d : Dev) (x : Vector Shuttle 16) : d.within [.sht] [] (d.toSht x) :=
  within_parts rfl (fun p hp => by cases p <;> first | exact absurd hp (by decide) | exact Eq.refl _) id rfl

theorem toStart_within (d : Dev) (x : Startup) : d.within [.start] [] (d.toStart x) :=
  within_parts rfl (fun p hp => by cases p <;> first | exact absurd hp (by decide) | exact Eq.refl _) id rfl

theorem toLmp_within (d : Dev) (x : Lamps) : d.within [.lmp] [] (d.toLmp x) :=
  within_parts rfl (fun p hp => by cases p <;> first | exact absurd hp (by decide) | exact Eq.refl _) id rfl

theorem toIsp_within (d : Dev) (x : Cams) : d.within [.isp] [] (d.toIsp x) :=
  within_parts rfl (fun p hp => by cases p <;> first | exact absurd hp (by decide) | exact Eq.refl _) id rfl

theorem toCrl_within (d : Dev) (x : CreelUnit) : d.within [.crl] [] (d.toCrl x) :=
  within_parts rfl (fun p hp => by cases p <;> first | exact absurd hp (by decide) | exact Eq.refl _) id rfl

theorem toSec_within (d : Dev) (x : Secure) : d.within [.sec] [] (d.toSec x) :=
  within_parts rfl (fun p hp => by cases p <;> first | exact absurd hp (by decide) | exact Eq.refl _) id rfl

theorem toPins_within (d : Dev) (x : Vector PinState 8) : d.within [.pins] [] (d.toPins x) :=
  within_parts rfl (fun p hp => by cases p <;> first | exact absurd hp (by decide) | exact Eq.refl _) id rfl

theorem toMpl_within (d : Dev) (x : Melt) : d.within [.mpl] [] (d.toMpl x) :=
  within_parts rfl (fun p hp => by cases p <;> first | exact absurd hp (by decide) | exact Eq.refl _) id rfl

theorem toTap_within (d : Dev) (x : Tapestry) : d.within [.tap] [] (d.toTap x) :=
  within_parts rfl (fun p hp => by cases p <;> first | exact absurd hp (by decide) | exact Eq.refl _) id rfl

theorem toDrc_within (d : Dev) (x : Dram) : d.within [.drc] [] (d.toDrc x) :=
  within_parts rfl (fun p hp => by cases p <;> first | exact absurd hp (by decide) | exact Eq.refl _) id rfl

theorem toShd_within (d : Dev) (x : Shed) : d.within [.shd] [] (d.toShd x) :=
  within_parts rfl (fun p hp => by cases p <;> first | exact absurd hp (by decide) | exact Eq.refl _) id rfl

theorem toReed_within (d : Dev) (x : Reed) : d.within [.reed] [] (d.toReed x) :=
  within_parts rfl (fun p hp => by cases p <;> first | exact absurd hp (by decide) | exact Eq.refl _) id rfl

theorem toLnk_within (d : Dev) (x : Vector Link 16) : d.within [.lnk] [] (d.toLnk x) :=
  within_parts rfl (fun p hp => by cases p <;> first | exact absurd hp (by decide) | exact Eq.refl _) id rfl

theorem toLanes_within (d : Dev) (x : Vector LaneUnit 18) : d.within [.lanes] [] (d.toLanes x) :=
  within_parts rfl (fun p hp => by cases p <;> first | exact absurd hp (by decide) | exact Eq.refl _) id rfl

theorem toTrm_within (d : Dev) (x : Trim) : d.within [.trm] [] (d.toTrm x) :=
  within_parts rfl (fun p hp => by cases p <;> first | exact absurd hp (by decide) | exact Eq.refl _) id rfl

theorem toThm_within (d : Dev) (x : Thermal) : d.within [.thm] [] (d.toThm x) :=
  within_parts rfl (fun p hp => by cases p <;> first | exact absurd hp (by decide) | exact Eq.refl _) id rfl

theorem toMgm_within (d : Dev) (x : Mgmt) : d.within [.mgm] [] (d.toMgm x) :=
  within_parts rfl (fun p hp => by cases p <;> first | exact absurd hp (by decide) | exact Eq.refl _) id rfl

end Sys2Proof.Machine
end

