-- ==== Sys2Proof/Laws/OfOps.lean ====
section
/-!
SUPPORT. What each operation of Machine/Ops.lean may touch: the parts of the device and the blocks of registers.
-/
namespace Sys2Proof.Machine

open Reg

set_option linter.unusedTactic false
set_option linter.unreachableTactic false
set_option linter.unusedSimpArgs false

theorem fresh_within (w : Nat) (d : Dev) :
    d.within [.free] [] (d.fresh w).2 := by
  unfold Dev.fresh
  try simp only [mk_free]
  repeat' first
    | with_reducible exact within_refl _ _ _
    | assumption
    | with_reducible apply within_foldl_snd
    | with_reducible apply within_foldl
    | with_reducible apply within_ite
    | (intro (_ : Dev) _; try dsimp only)
    | (intro (_ : _ × Dev) _; try dsimp only)
    | with_reducible apply within_comp (toFree_within _ _)
    | split
    | decide
    | exact Or.inl (by decide)
    | exact Or.inr (by decide)
    | omega
    | dsimp only

end Sys2Proof.Machine
end

