-- ==== Sys2Proof/Laws/OfEvents.lean ====
section
/-!
SUPPORT. What each operation of Machine/Events.lean may touch: the parts of the device and the blocks of registers.
-/
namespace Sys2Proof.Machine

open Reg

set_option linter.unusedTactic false
set_option linter.unreachableTactic false
set_option linter.unusedSimpArgs false

theorem mstMod_within (n : Station) (f : MeltStation → MeltStation) (d : Dev) :
    d.within [.mpl] [] (d.mstMod n f) := by
  unfold Dev.mstMod
  try simp only [mk_mpl]
  repeat' first
    | with_reducible exact within_refl _ _ _
    | assumption
    | with_reducible apply within_foldl_snd
    | with_reducible apply within_foldl
    | with_reducible apply within_ite
    | (intro (_ : Dev) _; try dsimp only)
    | (intro (_ : _ × Dev) _; try dsimp only)
    | with_reducible apply within_comp (toMpl_within _ _)
    | split
    | decide
    | exact Or.inl (by decide)
    | exact Or.inr (by decide)
    | omega
    | dsimp only

theorem aonEvent_within (e : Nat) (inst : Nat) (code : Nat) (sev : Option Nat) (d : Dev) (he : e < 256) (hcode : code < 256) :
    d.within [.ev, .flt, .wal, .dof, .mpl] [2, 18] (aonEvent e inst code sev d) := by
  unfold aonEvent
  try simp only [mk_ev]
  repeat' first
    | with_reducible exact within_refl _ _ _
    | assumption
    | with_reducible apply within_comp (faultEvent_within _ _ _ _ _ _ _)
    | with_reducible apply within_comp (occur_within _ _ _ _ _)
    | with_reducible apply within_foldl_snd
    | with_reducible apply within_foldl
    | with_reducible apply within_ite
    | (intro (_ : Dev) _; try dsimp only)
    | (intro (_ : _ × Dev) _; try dsimp only)
    | with_reducible apply within_comp (toEv_within _ _ _)
    | split
    | with_reducible rfl
    | decide
    | exact Or.inl (by decide)
    | exact Or.inr (by decide)
    | omega
    | dsimp only

theorem aonFlag_within (f : Field) (e inst k : Nat) (d : Dev) (he : e < 256) (hk : f.addr / 0x10000 = k)
    (ha : k ≠ 2 ∨ cfgReg f.addr = false) :
    d.within [.ev, .wal, .flt, .dof, .mpl] [k, 2, 18] (aonFlag f e inst d) := by
  simp only [aonFlag]
  split
  · exact within_refl _ _ d
  · exact within_comp (aonEvent_within e inst 0 none _ he (by decide))
      (within_mono (put_within d f 1 k hk ha) (by decide) (by simp)) (by decide) (by simp)

theorem recovered_within (u : Fin 19) (d : Dev) :
    d.within [.flt] [] (recovered u d) := by
  unfold recovered
  try simp only [mk_flt]
  repeat' first
    | with_reducible exact within_refl _ _ _
    | assumption
    | with_reducible apply within_foldl_snd
    | with_reducible apply within_foldl
    | with_reducible apply within_ite
    | (intro (_ : Dev) _; try dsimp only)
    | (intro (_ : _ × Dev) _; try dsimp only)
    | with_reducible apply within_comp (toFlt_within _ _)
    | split
    | decide
    | exact Or.inl (by decide)
    | exact Or.inr (by decide)
    | omega
    | dsimp only

theorem replayCrossing_within  (d : Dev) :
    d.within [.ev, .flt, .wal, .dof, .mpl] [2, 18] (replayCrossing  d) := by
  unfold replayCrossing
  try simp only [mk_ev]
  repeat' first
    | with_reducible exact within_refl _ _ _
    | assumption
    | with_reducible apply within_comp (aonEvent_within _ _ _ _ _ _ _)
    | with_reducible apply within_foldl_snd
    | with_reducible apply within_foldl
    | with_reducible apply within_ite
    | (intro (_ : Dev) _; try dsimp only)
    | (intro (_ : _ × Dev) _; try dsimp only)
    | with_reducible apply within_comp (toEv_within _ _ _)
    | split
    | with_reducible rfl
    | decide
    | exact Or.inl (by decide)
    | exact Or.inr (by decide)
    | omega
    | dsimp only

end Sys2Proof.Machine
end

