-- ==== Sys2Proof/Laws/OfAxisOps.lean ====
section
/-!
SUPPORT. What each operation of Machine/AxisOps.lean may touch: the parts of the device and the blocks of registers.
-/
namespace Sys2Proof.Machine

open Reg

set_option linter.unusedTactic false
set_option linter.unreachableTactic false
set_option linter.unusedSimpArgs false

theorem axMod_within (m : Axis) (f : AxisState → AxisState) (d : Dev) :
    d.within [.axes] [] (d.axMod m f) := by
  unfold Dev.axMod
  try simp only [mk_axes]
  repeat' first
    | with_reducible exact within_refl _ _ _
    | assumption
    | with_reducible apply within_foldl_snd
    | with_reducible apply within_foldl
    | with_reducible apply within_ite
    | (intro (_ : Dev) _; try dsimp only)
    | (intro (_ : _ × Dev) _; try dsimp only)
    | with_reducible apply within_comp (toAxes_within _ _)
    | split
    | decide
    | exact Or.inl (by decide)
    | exact Or.inr (by decide)
    | omega
    | dsimp only

theorem axisFlag_within (m : Axis) (f : Field) (d : Dev)  (hf : f.addr / 0x10000 = 12) :
    d.within [.ev, .wal] [2, 12, 18] (axisFlag m f d) := by
  unfold axisFlag
  try dsimp only
  repeat' first
    | with_reducible exact within_refl _ _ _
    | assumption
    | with_reducible apply within_comp (flagEvent_within f _ _ _ 12 _ _ _ _)
    | with_reducible apply within_comp (put_within _ f _ 12 _ _)
    | with_reducible apply within_foldl_snd
    | with_reducible apply within_foldl
    | with_reducible apply within_ite
    | (intro (_ : Dev) _; try dsimp only)
    | (intro (_ : _ × Dev) _; try dsimp only)
    | split
    | decide
    | exact Or.inl (by decide)
    | exact Or.inr (by decide)
    | omega
    | dsimp only

theorem axDropPending_within (m : Axis) (quiet : Bool) (d : Dev) :
    d.within [.ev, .wal] [2, 12, 18] (axDropPending m quiet d) := by
  unfold axDropPending
  try dsimp only
  repeat' first
    | with_reducible exact within_refl _ _ _
    | assumption
    | with_reducible apply within_comp (put_within _ (AXS_STATUS_MOVE_PENDING _) _ 12 _ _)
    | with_reducible apply within_comp (axisFlag_within _ _ _ _)
    | with_reducible apply within_foldl_snd
    | with_reducible apply within_foldl
    | with_reducible apply within_ite
    | (intro (_ : Dev) _; try dsimp only)
    | (intro (_ : _ × Dev) _; try dsimp only)
    | split
    | decide
    | exact Or.inl (by decide)
    | exact Or.inr (by decide)
    | (simp only [AXS_FLAGS, AXS_FLAGS_PEND_DROP, AXS_STATUS, AXS_STATUS_MOVE_PENDING]; omega)
    | omega
    | dsimp only

theorem axisFault_within (m : Axis) (f : Field) (code : Nat) (d : Dev) (hcode : code < 256) (hf : f.addr / 0x10000 = 12) :
    d.within [.ev, .flt, .wal, .dof, .mpl] [2, 12, 18] (axisFault m f code d) := by
  unfold axisFault
  try dsimp only
  repeat' first
    | with_reducible exact within_refl _ _ _
    | assumption
    | with_reducible apply within_comp (put_within _ f _ 12 _ _)
    | with_reducible apply within_comp (fault_within _ _ _ _ _)
    | with_reducible apply within_comp (occur_within _ _ _ _ _)
    | with_reducible apply within_foldl_snd
    | with_reducible apply within_foldl
    | with_reducible apply within_ite
    | (intro (_ : Dev) _; try dsimp only)
    | (intro (_ : _ × Dev) _; try dsimp only)
    | split
    | decide
    | exact Or.inl (by decide)
    | exact Or.inr (by decide)
    | omega
    | dsimp only

theorem axHomeFail_within (m : Axis) (cause : Nat) (d : Dev) :
    d.within [.ev, .flt, .wal, .dof, .axes, .mpl] [2, 12, 18] (axHomeFail m cause d) := by
  unfold axHomeFail
  try dsimp only
  repeat' first
    | with_reducible exact within_refl _ _ _
    | assumption
    | with_reducible apply within_comp (put_within _ (AXS_STATUS_HSTATE _) _ 12 _ _)
    | with_reducible apply within_comp (put_within _ (AXS_STATUS_HOMED _) _ 12 _ _)
    | with_reducible apply within_comp (put_within _ (AXS_STATUS_HCAUSE _) _ 12 _ _)
    | with_reducible apply within_comp (axMod_within _ _ _)
    | with_reducible apply within_comp (axDropPending_within _ _ _)
    | with_reducible apply within_comp (axisFault_within _ _ _ _ _ _)
    | with_reducible apply within_foldl_snd
    | with_reducible apply within_foldl
    | with_reducible apply within_ite
    | (intro (_ : Dev) _; try dsimp only)
    | (intro (_ : _ × Dev) _; try dsimp only)
    | split
    | decide
    | exact Or.inl (by decide)
    | exact Or.inr (by decide)
    | (simp only [AXS_FLAGS, AXS_FLAGS_HOMING_FAIL, AXS_FLAGS_HOMING_LIMIT, AXS_STATUS, AXS_STATUS_HCAUSE, AXS_STATUS_HOMED, AXS_STATUS_HSTATE]; omega)
    | omega
    | dsimp only

theorem axStop_within (m : Axis) (d : Dev) :
    d.within [.ev, .flt, .wal, .dof, .axes, .mpl] [2, 12, 18] (axStop m d) := by
  unfold axStop
  try dsimp only
  repeat' first
    | with_reducible exact within_refl _ _ _
    | assumption
    | with_reducible apply within_comp (put_within _ (AXS_STATUS_STOPPING _) _ 12 _ _)
    | with_reducible apply within_comp (axMod_within _ _ _)
    | with_reducible apply within_comp (axDropPending_within _ _ _)
    | with_reducible apply within_comp (axHomeFail_within _ _ _)
    | with_reducible apply within_foldl_snd
    | with_reducible apply within_foldl
    | with_reducible apply within_ite
    | (intro (_ : Dev) _; try dsimp only)
    | (intro (_ : _ × Dev) _; try dsimp only)
    | split
    | decide
    | exact Or.inl (by decide)
    | exact Or.inr (by decide)
    | (simp only [AXS_STATUS, AXS_STATUS_STOPPING]; omega)
    | omega
    | dsimp only

theorem axProfile_within (m : Axis) (d : Dev) :
    d.within [.ev, .wal, .axes] [2, 12, 18] (axProfile m d) := by
  unfold axProfile
  try dsimp only
  repeat' first
    | with_reducible exact within_refl _ _ _
    | assumption
    | with_reducible apply within_comp (setRegS_within _ (AXS_VEL _) _ 12 _ _)
    | with_reducible apply within_comp (axMod_within _ _ _)
    | with_reducible apply within_comp (axisFlag_within _ _ _ _)
    | with_reducible apply within_foldl_snd
    | with_reducible apply within_foldl
    | with_reducible apply within_ite
    | (intro (_ : Dev) _; try dsimp only)
    | (intro (_ : _ × Dev) _; try dsimp only)
    | split
    | decide
    | exact Or.inl (by decide)
    | exact Or.inr (by decide)
    | (simp only [AXS_ACC, AXS_DEC, AXS_FLAGS, AXS_FLAGS_RATE_CLAMP, AXS_STATUS, AXS_STATUS_MS_LEVEL, AXS_STATUS_STOPPING, AXS_VEL]; omega)
    | omega
    | dsimp only

theorem axRest_within (m : Axis) (bad : Bool) (d : Dev) :
    d.within [.axes] [12] (axRest m bad d) := by
  unfold axRest
  try dsimp only
  repeat' first
    | with_reducible exact within_refl _ _ _
    | assumption
    | with_reducible apply within_comp (put_within _ (AXS_STATUS_STOPPING _) _ 12 _ _)
    | with_reducible apply within_comp (put_within _ (AXS_STATUS_MOVING _) _ 12 _ _)
    | with_reducible apply within_comp (setReg_within _ (AXS_VEL _) _ 12 _ _)
    | with_reducible apply within_comp (axMod_within _ _ _)
    | with_reducible apply within_foldl_snd
    | with_reducible apply within_foldl
    | with_reducible apply within_ite
    | (intro (_ : Dev) _; try dsimp only)
    | (intro (_ : _ × Dev) _; try dsimp only)
    | split
    | decide
    | exact Or.inl (by decide)
    | exact Or.inr (by decide)
    | (simp only [AXS_STATUS, AXS_STATUS_MOVING, AXS_STATUS_STOPPING, AXS_VEL]; omega)
    | omega
    | dsimp only

theorem axGo_within (m : Axis) (goal : Int) (d : Dev) :
    d.within [.axes] [12] (axGo m goal d) := by
  unfold axGo
  try dsimp only
  repeat' first
    | with_reducible exact within_refl _ _ _
    | assumption
    | with_reducible apply within_comp (put_within _ (AXS_STATUS_MS_LEVEL _) _ 12 _ _)
    | with_reducible apply within_comp (put_within _ (AXS_STATUS_DIR _) _ 12 _ _)
    | with_reducible apply within_comp (put_within _ (AXS_STATUS_MOVING _) _ 12 _ _)
    | with_reducible apply within_comp (axMod_within _ _ _)
    | with_reducible apply within_foldl_snd
    | with_reducible apply within_foldl
    | with_reducible apply within_ite
    | (intro (_ : Dev) _; try dsimp only)
    | (intro (_ : _ × Dev) _; try dsimp only)
    | split
    | decide
    | exact Or.inl (by decide)
    | exact Or.inr (by decide)
    | (simp only [AXS_STATUS, AXS_STATUS_DIR, AXS_STATUS_MOVING, AXS_STATUS_MS_LEVEL]; omega)
    | omega
    | dsimp only

theorem axStart_within (m : Axis) (t : Int) (d : Dev) :
    d.within [.ev, .flt, .wal, .dof, .axes, .mpl] [2, 12, 18] (axStart m t d) := by
  unfold axStart
  try dsimp only
  repeat' first
    | with_reducible exact within_refl _ _ _
    | assumption
    | with_reducible apply within_comp (setRegS_within _ (AXS_TARGET _) _ 12 _ _)
    | with_reducible apply within_comp (axGo_within _ _ _)
    | with_reducible apply within_comp (axisFault_within _ _ _ _ _ _)
    | with_reducible apply within_comp (axisFlag_within _ _ _ _)
    | with_reducible apply within_foldl_snd
    | with_reducible apply within_foldl
    | with_reducible apply within_ite
    | (intro (_ : Dev) _; try dsimp only)
    | (intro (_ : _ × Dev) _; try dsimp only)
    | split
    | decide
    | exact Or.inl (by decide)
    | exact Or.inr (by decide)
    | (simp only [AXS_CTRL, AXS_CTRL_EN, AXS_FLAGS, AXS_FLAGS_LIMIT_BLOCK, AXS_FLAGS_SOFT_LIMIT, AXS_TARGET]; omega)
    | omega
    | dsimp only

theorem axNext_within (m : Axis) (d : Dev) :
    d.within [.ev, .flt, .wal, .dof, .axes, .mpl] [2, 12, 18] (axNext m d) := by
  unfold axNext
  try dsimp only
  repeat' first
    | with_reducible exact within_refl _ _ _
    | assumption
    | with_reducible apply within_comp (put_within _ (AXS_STATUS_MOVE_PENDING _) _ 12 _ _)
    | with_reducible apply within_comp (axStart_within _ _ _)
    | with_reducible apply within_foldl_snd
    | with_reducible apply within_foldl
    | with_reducible apply within_ite
    | (intro (_ : Dev) _; try dsimp only)
    | (intro (_ : _ × Dev) _; try dsimp only)
    | split
    | decide
    | exact Or.inl (by decide)
    | exact Or.inr (by decide)
    | (simp only [AXS_STATUS, AXS_STATUS_MOVE_PENDING]; omega)
    | omega
    | dsimp only

theorem axPhase_within (m : Axis) (k : Nat) (d : Dev) :
    d.within [.ev, .flt, .wal, .dof, .axes, .mpl] [2, 12, 18] (axPhase m k d) := by
  unfold axPhase
  try dsimp only
  repeat' first
    | with_reducible exact within_refl _ _ _
    | assumption
    | with_reducible apply within_comp (put_within _ (AXS_STATUS_HSTATE _) _ 12 _ _)
    | with_reducible apply within_comp (axMod_within _ _ _)
    | with_reducible apply within_comp (axGo_within _ _ _)
    | with_reducible apply within_comp (axHomeFail_within _ _ _)
    | with_reducible apply within_comp (axRest_within _ _ _)
    | with_reducible apply within_foldl_snd
    | with_reducible apply within_foldl
    | with_reducible apply within_ite
    | (intro (_ : Dev) _; try dsimp only)
    | (intro (_ : _ × Dev) _; try dsimp only)
    | split
    | decide
    | exact Or.inl (by decide)
    | exact Or.inr (by decide)
    | (simp only [AXS_STATUS, AXS_STATUS_HSTATE]; omega)
    | omega
    | dsimp only

theorem axDecel_within (m : Axis) (d : Dev) :
    d.within [.axes] [] (axDecel m d) := by
  unfold axDecel
  try dsimp only
  repeat' first
    | with_reducible exact within_refl _ _ _
    | assumption
    | with_reducible apply within_comp (axMod_within _ _ _)
    | with_reducible apply within_foldl_snd
    | with_reducible apply within_foldl
    | with_reducible apply within_ite
    | (intro (_ : Dev) _; try dsimp only)
    | (intro (_ : _ × Dev) _; try dsimp only)
    | split
    | decide
    | exact Or.inl (by decide)
    | exact Or.inr (by decide)
    | omega
    | dsimp only

theorem axHomed_within (m : Axis) (d : Dev) :
    d.within [.ev, .flt, .wal, .dof, .axes, .mpl] [2, 12, 18] (axHomed m d) := by
  unfold axHomed
  try dsimp only
  repeat' first
    | with_reducible exact within_refl _ _ _
    | assumption
    | with_reducible apply within_comp (setRegS_within _ (AXS_POS _) _ 12 _ _)
    | with_reducible apply within_comp (put_within _ (AXS_STATUS_HSTATE _) _ 12 _ _)
    | with_reducible apply within_comp (put_within _ (AXS_STATUS_HOMED _) _ 12 _ _)
    | with_reducible apply within_comp (setRegS_within _ (AXS_HOME_LATCH _) _ 12 _ _)
    | with_reducible apply within_comp (axNext_within _ _)
    | with_reducible apply within_comp (axRest_within _ _ _)
    | with_reducible apply within_foldl_snd
    | with_reducible apply within_foldl
    | with_reducible apply within_ite
    | (intro (_ : Dev) _; try dsimp only)
    | (intro (_ : _ × Dev) _; try dsimp only)
    | split
    | decide
    | exact Or.inl (by decide)
    | exact Or.inr (by decide)
    | (simp only [AXS_HOME_LATCH, AXS_POS, AXS_STATUS, AXS_STATUS_HOMED, AXS_STATUS_HSTATE]; omega)
    | omega
    | dsimp only

theorem axHomeInputAccepted_within (m : Axis) (active : Bool) (latch : Int) (d : Dev) :
    d.within [.ev, .flt, .wal, .dof, .axes, .mpl] [2, 12, 18] (axHomeInputAccepted m active latch d) := by
  unfold axHomeInputAccepted
  try dsimp only
  repeat' first
    | with_reducible exact within_refl _ _ _
    | assumption
    | with_reducible apply within_comp (put_within _ (AXS_STATUS_HSTATE _) _ 12 _ _)
    | with_reducible apply within_comp (setRegS_within _ (AXS_HOME_LATCH _) _ 12 _ _)
    | with_reducible apply within_comp (axMod_within _ _ _)
    | with_reducible apply within_comp (axDecel_within _ _)
    | with_reducible apply within_comp (axPhase_within _ _ _)
    | with_reducible apply within_foldl_snd
    | with_reducible apply within_foldl
    | with_reducible apply within_ite
    | (intro (_ : Dev) _; try dsimp only)
    | (intro (_ : _ × Dev) _; try dsimp only)
    | split
    | decide
    | exact Or.inl (by decide)
    | exact Or.inr (by decide)
    | (simp only [AXS_HOME_LATCH, AXS_STATUS, AXS_STATUS_HSTATE]; omega)
    | omega
    | dsimp only

theorem axIndex_within (c : PinChannel) (m : Axis) (d : Dev) :
    d.within [.axes] [12] (axIndex c m d) := by
  unfold axIndex
  try dsimp only
  repeat' first
    | with_reducible exact within_refl _ _ _
    | assumption
    | with_reducible apply within_comp (put_within _ (AXS_STATUS_HSTATE _) _ 12 _ _)
    | with_reducible apply within_comp (setRegS_within _ (AXS_HOME_LATCH _) _ 12 _ _)
    | with_reducible apply within_comp (axMod_within _ _ _)
    | with_reducible apply within_comp (axDecel_within _ _)
    | with_reducible apply within_foldl_snd
    | with_reducible apply within_foldl
    | with_reducible apply within_ite
    | (intro (_ : Dev) _; try dsimp only)
    | (intro (_ : _ × Dev) _; try dsimp only)
    | split
    | decide
    | exact Or.inl (by decide)
    | exact Or.inr (by decide)
    | (simp only [AXS_HOME_LATCH, AXS_STATUS, AXS_STATUS_HSTATE]; omega)
    | omega
    | dsimp only

theorem axArrived_within (m : Axis) (d : Dev) :
    d.within [.ev, .flt, .wal, .dof, .axes, .mpl] [2, 12, 18] (axArrived m d) := by
  unfold axArrived
  try dsimp only
  repeat' first
    | with_reducible exact within_refl _ _ _
    | assumption
    | with_reducible apply within_comp (axHomeFail_within _ _ _)
    | with_reducible apply within_comp (axHomed_within _ _)
    | with_reducible apply within_comp (axNext_within _ _)
    | with_reducible apply within_comp (axPhase_within _ _ _)
    | with_reducible apply within_comp (axRest_within _ _ _)
    | with_reducible apply within_foldl_snd
    | with_reducible apply within_foldl
    | with_reducible apply within_ite
    | (intro (_ : Dev) _; try dsimp only)
    | (intro (_ : _ × Dev) _; try dsimp only)
    | split
    | decide
    | exact Or.inl (by decide)
    | exact Or.inr (by decide)
    | omega
    | dsimp only

theorem axStep_within (m : Axis) (acc : Nat) (cyc : Nat) (held : Nat) (d : Dev) :
    d.within [.ev, .flt, .wal, .dof, .axes, .mpl] [2, 12, 18] (axStep m acc cyc held d) := by
  unfold axStep
  try dsimp only
  repeat' first
    | with_reducible exact within_refl _ _ _
    | assumption
    | with_reducible apply within_comp (setRegS_within _ (AXS_POS _) _ 12 _ _)
    | with_reducible apply within_comp (put_within _ (AXS_STATUS_MS_LEVEL _) _ 12 _ _)
    | with_reducible apply within_comp (axMod_within _ _ _)
    | with_reducible apply within_comp (axArrived_within _ _)
    | with_reducible apply within_foldl_snd
    | with_reducible apply within_foldl
    | with_reducible apply within_ite
    | (intro (_ : Dev) _; try dsimp only)
    | (intro (_ : _ × Dev) _; try dsimp only)
    | split
    | decide
    | exact Or.inl (by decide)
    | exact Or.inr (by decide)
    | (simp only [AXS_POS, AXS_STATUS, AXS_STATUS_MS_LEVEL]; omega)
    | omega
    | dsimp only

theorem axCarry_within (m : Axis) (d : Dev) :
    d.within [.ev, .flt, .wal, .dof, .axes, .mpl] [2, 12, 18] (axCarry m d) := by
  unfold axCarry
  try dsimp only
  repeat' first
    | with_reducible exact within_refl _ _ _
    | assumption
    | with_reducible apply within_comp (axStep_within _ _ _ _ _)
    | with_reducible apply within_foldl_snd
    | with_reducible apply within_foldl
    | with_reducible apply within_ite
    | (intro (_ : Dev) _; try dsimp only)
    | (intro (_ : _ × Dev) _; try dsimp only)
    | split
    | decide
    | exact Or.inl (by decide)
    | exact Or.inr (by decide)
    | omega
    | dsimp only

theorem axHalt_within (m : Axis) (d : Dev) :
    d.within [.ev, .flt, .wal, .dof, .axes, .mpl] [2, 12, 18] (axHalt m d) := by
  unfold axHalt
  try dsimp only
  repeat' first
    | with_reducible exact within_refl _ _ _
    | assumption
    | with_reducible apply within_comp (axDropPending_within _ _ _)
    | with_reducible apply within_comp (axHomeFail_within _ _ _)
    | with_reducible apply within_comp (axRest_within _ _ _)
    | with_reducible apply within_foldl_snd
    | with_reducible apply within_foldl
    | with_reducible apply within_ite
    | (intro (_ : Dev) _; try dsimp only)
    | (intro (_ : _ × Dev) _; try dsimp only)
    | split
    | decide
    | exact Or.inl (by decide)
    | exact Or.inr (by decide)
    | omega
    | dsimp only

theorem axHome_within (m : Axis) (d : Dev) :
    d.within [.ev, .flt, .wal, .dof, .axes, .mpl] [2, 12, 18] (axHome m d) := by
  unfold axHome
  try dsimp only
  repeat' first
    | with_reducible exact within_refl _ _ _
    | assumption
    | with_reducible apply within_comp (put_within _ (AXS_STATUS_HOMED _) _ 12 _ _)
    | with_reducible apply within_comp (put_within _ (AXS_STATUS_HCAUSE _) _ 12 _ _)
    | with_reducible apply within_comp (axMod_within _ _ _)
    | with_reducible apply within_comp (axPhase_within _ _ _)
    | with_reducible apply within_comp (axisFlag_within _ _ _ _)
    | with_reducible apply within_foldl_snd
    | with_reducible apply within_foldl
    | with_reducible apply within_ite
    | (intro (_ : Dev) _; try dsimp only)
    | (intro (_ : _ × Dev) _; try dsimp only)
    | split
    | decide
    | exact Or.inl (by decide)
    | exact Or.inr (by decide)
    | (simp only [AXS_CTRL, AXS_CTRL_EN, AXS_FLAGS, AXS_FLAGS_WRITE_LOCKED, AXS_INPUTS, AXS_STATUS, AXS_STATUS_HCAUSE, AXS_STATUS_HOMED]; omega)
    | omega
    | dsimp only

theorem axTarget_within (m : Axis) (v : Nat) (own : Bool) (d : Dev) :
    d.within [.ev, .flt, .wal, .dof, .axes, .mpl] [2, 12, 18] (axTarget m v own d) := by
  unfold axTarget
  try dsimp only
  repeat' first
    | with_reducible exact within_refl _ _ _
    | assumption
    | with_reducible apply within_comp (setReg_within _ (AXS_PENDING _) _ 12 _ _)
    | with_reducible apply within_comp (put_within _ (AXS_STATUS_MOVE_PENDING _) _ 12 _ _)
    | with_reducible apply within_comp (axMod_within _ _ _)
    | with_reducible apply within_comp (axStart_within _ _ _)
    | with_reducible apply within_comp (axisFlag_within _ _ _ _)
    | with_reducible apply within_foldl_snd
    | with_reducible apply within_foldl
    | with_reducible apply within_ite
    | (intro (_ : Dev) _; try dsimp only)
    | (intro (_ : _ × Dev) _; try dsimp only)
    | split
    | decide
    | exact Or.inl (by decide)
    | exact Or.inr (by decide)
    | (simp only [AXS_FLAGS, AXS_FLAGS_WRITE_LOCKED, AXS_PENDING, AXS_STATUS, AXS_STATUS_MOVE_PENDING]; omega)
    | omega
    | dsimp only

theorem axCtrl_within (m : Axis) (v : Nat) (d : Dev) :
    d.within [.ev, .wal, .axes] [2, 12, 18] (axCtrl m v d) := by
  unfold axCtrl
  try dsimp only
  repeat' first
    | with_reducible exact within_refl _ _ _
    | assumption
    | with_reducible apply within_comp (setReg_within _ (AXS_CTRL _) _ 12 _ _)
    | with_reducible apply within_comp (axMod_within _ _ _)
    | with_reducible apply within_comp (axisFlag_within _ _ _ _)
    | with_reducible apply within_foldl_snd
    | with_reducible apply within_foldl
    | with_reducible apply within_ite
    | (intro (_ : Dev) _; try dsimp only)
    | (intro (_ : _ × Dev) _; try dsimp only)
    | split
    | decide
    | exact Or.inl (by decide)
    | exact Or.inr (by decide)
    | (simp only [AXS_CTRL, AXS_CTRL_EN, AXS_FLAGS, AXS_FLAGS_WRITE_LOCKED]; omega)
    | omega
    | dsimp only

theorem axEnDelay_within (m : Axis) (d : Dev) :
    d.within [.axes] [] (axEnDelay m d) := by
  unfold axEnDelay
  try dsimp only
  repeat' first
    | with_reducible exact within_refl _ _ _
    | assumption
    | with_reducible apply within_comp (axMod_within _ _ _)
    | with_reducible apply within_foldl_snd
    | with_reducible apply within_foldl
    | with_reducible apply within_ite
    | (intro (_ : Dev) _; try dsimp only)
    | (intro (_ : _ × Dev) _; try dsimp only)
    | split
    | decide
    | exact Or.inl (by decide)
    | exact Or.inr (by decide)
    | omega
    | dsimp only

theorem axTrip_within (m : Axis) (d : Dev) :
    d.within [.ev, .flt, .wal, .dof, .axes, .mpl] [2, 12, 18] (axTrip m d) := by
  unfold axTrip
  try dsimp only
  repeat' first
    | with_reducible exact within_refl _ _ _
    | assumption
    | with_reducible apply within_comp (axDropPending_within _ _ _)
    | with_reducible apply within_comp (axRest_within _ _ _)
    | with_reducible apply within_comp (axisFault_within _ _ _ _ _ _)
    | with_reducible apply within_foldl_snd
    | with_reducible apply within_foldl
    | with_reducible apply within_ite
    | (intro (_ : Dev) _; try dsimp only)
    | (intro (_ : _ × Dev) _; try dsimp only)
    | split
    | decide
    | exact Or.inl (by decide)
    | exact Or.inr (by decide)
    | (simp only [AXS_FLAGS, AXS_FLAGS_LIMIT_TRIP]; omega)
    | omega
    | dsimp only

theorem axAccept_within (m : Axis) (i : Fin 3) (d : Dev) :
    d.within [.ev, .flt, .wal, .dof, .axes, .mpl] [2, 12, 18] (axAccept m i d) := by
  unfold axAccept
  try dsimp only
  repeat' first
    | with_reducible exact within_refl _ _ _
    | assumption
    | with_reducible apply within_comp (setReg_within _ (AXS_INPUTS _) _ 12 _ _)
    | with_reducible apply within_comp (axMod_within _ _ _)
    | with_reducible apply within_comp (axHomeFail_within _ _ _)
    | with_reducible apply within_comp (axHomeInputAccepted_within _ _ _ _)
    | with_reducible apply within_comp (axRest_within _ _ _)
    | with_reducible apply within_comp (axTrip_within _ _)
    | with_reducible apply within_foldl_snd
    | with_reducible apply within_foldl
    | with_reducible apply within_ite
    | (intro (_ : Dev) _; try dsimp only)
    | (intro (_ : _ × Dev) _; try dsimp only)
    | split
    | decide
    | exact Or.inl (by decide)
    | exact Or.inr (by decide)
    | (simp only [AXS_INPUTS]; omega)
    | omega
    | dsimp only

theorem axFirstEdge_within (m : Axis) (i : Fin 3) (d : Dev) :
    d.within [.ev, .flt, .wal, .dof, .axes, .mpl] [2, 12, 18] (axFirstEdge m i d) := by
  unfold axFirstEdge
  try dsimp only
  repeat' first
    | with_reducible exact within_refl _ _ _
    | assumption
    | with_reducible apply within_comp (setReg_within _ (AXS_INPUTS _) _ 12 _ _)
    | with_reducible apply within_comp (put_within _ _ _ 12 _ _)
    | with_reducible apply within_comp (setReg_within _ _ _ 12 _ _)
    | with_reducible apply within_comp (setRegS_within _ _ _ 12 _ _)
    | with_reducible apply within_comp (count_within _ _ _ 12 _ _)
    | with_reducible apply within_comp (axMod_within _ _ _)
    | with_reducible apply within_comp (axAccept_within _ _ _)
    | with_reducible apply within_foldl_snd
    | with_reducible apply within_foldl
    | with_reducible apply within_ite
    | (intro (_ : Dev) _; try dsimp only)
    | (intro (_ : _ × Dev) _; try dsimp only)
    | split
    | decide
    | exact Or.inl (by decide)
    | exact Or.inr (by decide)
    | (simp only [AXS_HOME_LATCH, AXS_INPUTS, AXS_LIM_LATCH, axLatchReg]; omega)
    | omega
    | (simp only [AXS_HOME_LATCH, AXS_INPUTS, AXS_LIM_LATCH, axLatchReg]; split <;> omega)
    | dsimp only

theorem axChatter_within (m : Axis) (i : Fin 3) (d : Dev) :
    d.within [.ev, .flt, .wal, .dof, .axes, .mpl] [2, 12, 18] (axChatter m i d) := by
  unfold axChatter
  try dsimp only
  repeat' first
    | with_reducible exact within_refl _ _ _
    | assumption
    | with_reducible apply within_comp (setReg_within _ (AXS_INPUTS _) _ 12 _ _)
    | with_reducible apply within_comp (count_within _ (AXS_CHATTER _) _ 12 _ _)
    | with_reducible apply within_comp (put_within _ _ _ 12 _ _)
    | with_reducible apply within_comp (setReg_within _ _ _ 12 _ _)
    | with_reducible apply within_comp (setRegS_within _ _ _ 12 _ _)
    | with_reducible apply within_comp (count_within _ _ _ 12 _ _)
    | with_reducible apply within_comp (axMod_within _ _ _)
    | with_reducible apply within_comp (axisFault_within _ _ _ _ _ _)
    | with_reducible apply within_foldl_snd
    | with_reducible apply within_foldl
    | with_reducible apply within_ite
    | (intro (_ : Dev) _; try dsimp only)
    | (intro (_ : _ × Dev) _; try dsimp only)
    | split
    | decide
    | exact Or.inl (by decide)
    | exact Or.inr (by decide)
    | (simp only [AXS_CHATTER, AXS_CHAT_THR, AXS_FLAGS, AXS_FLAGS_CHATTER, AXS_HOME_LATCH, AXS_INPUTS, AXS_LIM_LATCH, axLatchReg]; omega)
    | omega
    | (simp only [AXS_CHATTER, AXS_CHAT_THR, AXS_FLAGS, AXS_FLAGS_CHATTER, AXS_HOME_LATCH, AXS_INPUTS, AXS_LIM_LATCH, axLatchReg]; split <;> omega)
    | dsimp only

end Sys2Proof.Machine
end

