-- ==== Sys2Proof/Laws/OfCreelOps.lean ====
section
/-!
SUPPORT. What each operation of Machine/CreelOps.lean may touch: the parts of the device and the blocks of registers.
-/
namespace Sys2Proof.Machine

open Reg

set_option linter.unusedTactic false
set_option linter.unreachableTactic false
set_option linter.unusedSimpArgs false

theorem secShow_within  (d : Dev) :
    d.within [] [21] (secShow  d) := by
  unfold secShow
  try dsimp only
  repeat' first
    | with_reducible exact within_refl _ _ _
    | assumption
    | with_reducible apply within_comp (put_within _ SEC_STATUS_KEY_VALID _ 21 _ _)
    | with_reducible apply within_comp (put_within _ SEC_STATUS_READY _ 21 _ _)
    | with_reducible apply within_foldl_snd
    | with_reducible apply within_foldl
    | with_reducible apply within_ite
    | (intro (_ : Dev) _; try dsimp only)
    | (intro (_ : _ × Dev) _; try dsimp only)
    | split
    | decide
    | exact Or.inl (by decide)
    | exact Or.inr (by decide)
    | (simp only [SEC_STATUS, SEC_STATUS_KEY_VALID, SEC_STATUS_READY]; omega)
    | omega
    | dsimp only

theorem wrapClear_within (d : Dev) : d.within [] [21] (wrapClear d) := by
  unfold wrapClear
  refine within_foldl_mem _ _ (fun v x hx => ?_) (within_refl _ _ d)
  have := List.mem_range.1 hx
  exact setReg_within v _ _ 21 (by simp only [SEC_KEY_WRAP]; omega) (Or.inl (by decide))

theorem secWipe_within (cause : Nat) (d : Dev) :
    d.within [.sec] [0, 21] (secWipe cause d) := by
  unfold secWipe
  try simp only [mk_sec]
  repeat' first
    | with_reducible exact within_refl _ _ _
    | assumption
    | with_reducible apply within_comp (setReg_within _ SEC_WIPE_CAUSE _ 21 _ _)
    | with_reducible apply within_comp (put_within _ SEC_KEY_STAT_BUSY _ 21 _ _)
    | with_reducible apply within_comp (put_within _ DEV_STATE_AUTH_OK _ 0 _ _)
    | with_reducible apply within_comp (put_within _ SEC_STATUS_WIPING _ 21 _ _)
    | with_reducible apply within_comp (put_within _ SEC_KEY_STAT_RESULT _ 21 _ _)
    | with_reducible apply within_comp (secShow_within _)
    | with_reducible apply within_comp (wrapClear_within _)
    | with_reducible apply within_foldl_snd
    | with_reducible apply within_foldl
    | with_reducible apply within_ite
    | (intro (_ : Dev) _; try dsimp only)
    | (intro (_ : _ × Dev) _; try dsimp only)
    | with_reducible apply within_comp (toSec_within _ _)
    | split
    | decide
    | exact Or.inl (by decide)
    | exact Or.inr (by decide)
    | (simp only [DEV_STATE, DEV_STATE_AUTH_OK, SEC_KEY_STAT, SEC_KEY_STAT_BUSY, SEC_KEY_STAT_RESULT, SEC_STATUS, SEC_STATUS_WIPING, SEC_WIPE_CAUSE]; omega)
    | omega
    | dsimp only

theorem bobEvent_within (b : Nat) (e : Nat) (code : Nat) (d : Dev) (he : e < 256) :
    d.within [.ev, .wal] [2, 3, 18] (bobEvent b e code d) := by
  unfold bobEvent
  try dsimp only
  repeat' first
    | with_reducible exact within_refl _ _ _
    | assumption
    | with_reducible apply within_comp (setReg_within _ CRL_EVT_BOBBIN _ 3 _ _)
    | with_reducible apply within_comp (occur_within _ _ _ _ _)
    | with_reducible apply within_foldl_snd
    | with_reducible apply within_foldl
    | with_reducible apply within_ite
    | (intro (_ : Dev) _; try dsimp only)
    | (intro (_ : _ × Dev) _; try dsimp only)
    | split
    | decide
    | exact Or.inl (by decide)
    | exact Or.inr (by decide)
    | (simp only [CRL_EVT_BOBBIN]; omega)
    | omega
    | dsimp only

theorem bobCheck_within (b : Nat) (old : Nat) (d : Dev) (hb : b < 128) :
    d.within [.ev, .wal] [2, 3, 18] (bobCheck b old d) := by
  unfold bobCheck
  try dsimp only
  repeat' first
    | with_reducible exact within_refl _ _ _
    | assumption
    | with_reducible apply within_comp (put_within _ (CRLB_STATUS_WM _) _ 3 _ _)
    | with_reducible apply within_comp (put_within _ (CRLB_STATUS_PANIC _) _ 3 _ _)
    | with_reducible apply within_comp (put_within _ (CRLB_STATUS_PANIC_SEEN _) _ 3 _ _)
    | with_reducible apply within_comp (put_within _ (CRLB_FILL_FILL _) _ 3 _ _)
    | with_reducible apply within_comp (bobEvent_within _ _ _ _ _)
    | with_reducible apply within_foldl_snd
    | with_reducible apply within_foldl
    | with_reducible apply within_ite
    | (intro (_ : Dev) _; try dsimp only)
    | (intro (_ : _ × Dev) _; try dsimp only)
    | split
    | decide
    | exact Or.inl (by decide)
    | exact Or.inr (by decide)
    | (simp only [CRLB_FILL, CRLB_FILL_FILL, CRLB_STATUS, CRLB_STATUS_PANIC, CRLB_STATUS_PANIC_SEEN, CRLB_STATUS_WM]; omega)
    | omega
    | dsimp only

theorem bobMakeRoom_within (b : Nat) (k : Nat) (d : Dev) (hb : b < 128) :
    d.within [] [3] (bobMakeRoom b k d) := by
  unfold bobMakeRoom
  try dsimp only
  repeat' first
    | with_reducible exact within_refl _ _ _
    | assumption
    | with_reducible apply within_comp (count_within _ (CRLB_OVF _) _ 3 _ _)
    | with_reducible apply within_comp (put_within _ (CRLB_RD_RD _) _ 3 _ _)
    | with_reducible apply within_foldl_snd
    | with_reducible apply within_foldl
    | with_reducible apply within_ite
    | (intro (_ : Dev) _; try dsimp only)
    | (intro (_ : _ × Dev) _; try dsimp only)
    | split
    | decide
    | exact Or.inl (by decide)
    | exact Or.inr (by decide)
    | (simp only [CRLB_OVF, CRLB_RD, CRLB_RD_RD]; omega)
    | omega
    | dsimp only

theorem bobOverflow_within (b : Nat) (d : Dev) (hb : b < 128) :
    d.within [.ev, .flt, .wal, .dof, .crl, .mpl] [2, 3, 18] (bobOverflow b d) := by
  unfold bobOverflow
  try simp only [mk_crl]
  repeat' first
    | with_reducible exact within_refl _ _ _
    | assumption
    | with_reducible apply within_comp (put_within _ (CRLB_STATUS_OVF _) _ 3 _ _)
    | with_reducible apply within_comp (count_within _ (CRLB_OVF _) _ 3 _ _)
    | with_reducible apply within_comp (bobEvent_within _ _ _ _ _)
    | with_reducible apply within_comp (fault_within _ _ _ _ _)
    | with_reducible apply within_foldl_snd
    | with_reducible apply within_foldl
    | with_reducible apply within_ite
    | (intro (_ : Dev) _; try dsimp only)
    | (intro (_ : _ × Dev) _; try dsimp only)
    | with_reducible apply within_comp (toCrl_within _ _)
    | split
    | decide
    | exact Or.inl (by decide)
    | exact Or.inr (by decide)
    | (simp only [CRLB_OVF, CRLB_STATUS, CRLB_STATUS_OVF]; omega)
    | omega
    | dsimp only

theorem bobStore_within (b k p : Nat) (bs : List Byte) (d : Dev) : d.within [.creel] [] (bobStore b k p bs d) := by
  induction k generalizing p bs d with
  | zero => exact within_refl _ _ d
  | succ k ih => exact within_comp (ih _ _ _) (setCreelBytes_within d _ _) (by decide) (by decide)

theorem bobPush_within (b : Nat) (bs : List Byte) (d : Dev) (hb : b < 128) :
    d.within [.ev, .flt, .wal, .creel, .dof, .crl, .mpl] [2, 3, 18] (bobPush b bs d).2 := by
  unfold bobPush
  try dsimp only
  repeat' first
    | with_reducible exact within_refl _ _ _
    | assumption
    | with_reducible apply within_comp (put_within _ (CRLB_WR_WR _) _ 3 _ _)
    | with_reducible apply within_comp (bobCheck_within _ _ _ _)
    | with_reducible apply within_comp (bobMakeRoom_within _ _ _ _)
    | with_reducible apply within_comp (bobOverflow_within _ _ _)
    | with_reducible apply within_comp (bobStore_within _ _ _ _ _)
    | with_reducible apply within_foldl_snd
    | with_reducible apply within_foldl
    | with_reducible apply within_ite
    | (intro (_ : Dev) _; try dsimp only)
    | (intro (_ : _ × Dev) _; try dsimp only)
    | split
    | decide
    | exact Or.inl (by decide)
    | exact Or.inr (by decide)
    | (simp only [CRLB_WR, CRLB_WR_WR]; omega)
    | omega
    | dsimp only

theorem bobPop_within (b : Nat) (k : Nat) (d : Dev) (hb : b < 128) :
    d.within [.ev, .wal] [2, 3, 18] (bobPop b k d).2 := by
  unfold bobPop
  try dsimp only
  repeat' first
    | with_reducible exact within_refl _ _ _
    | assumption
    | with_reducible apply within_comp (put_within _ (CRLB_RD_RD _) _ 3 _ _)
    | with_reducible apply within_comp (bobCheck_within _ _ _ _)
    | with_reducible apply within_foldl_snd
    | with_reducible apply within_foldl
    | with_reducible apply within_ite
    | (intro (_ : Dev) _; try dsimp only)
    | (intro (_ : _ × Dev) _; try dsimp only)
    | split
    | decide
    | exact Or.inl (by decide)
    | exact Or.inr (by decide)
    | (simp only [CRLB_RD, CRLB_RD_RD]; omega)
    | omega
    | dsimp only

theorem bobEmpty_within (b : Nat) (d : Dev) (hb : b < 128) :
    d.within [.crl] [3] (bobEmpty b d) := by
  unfold bobEmpty
  try simp only [mk_crl]
  repeat' first
    | with_reducible exact within_refl _ _ _
    | assumption
    | with_reducible apply within_comp (setReg_within _ (CRLB_WR _) _ 3 _ _)
    | with_reducible apply within_comp (setReg_within _ (CRLB_RD _) _ 3 _ _)
    | with_reducible apply within_comp (put_within _ (CRLB_STATUS_PANIC _) _ 3 _ _)
    | with_reducible apply within_comp (setReg_within _ (CRLB_FILL _) _ 3 _ _)
    | with_reducible apply within_foldl_snd
    | with_reducible apply within_foldl
    | with_reducible apply within_ite
    | (intro (_ : Dev) _; try dsimp only)
    | (intro (_ : _ × Dev) _; try dsimp only)
    | with_reducible apply within_comp (toCrl_within _ _)
    | split
    | decide
    | exact Or.inl (by decide)
    | exact Or.inr (by decide)
    | (simp only [CRLB_FILL, CRLB_RD, CRLB_STATUS, CRLB_STATUS_PANIC, CRLB_WR]; omega)
    | omega
    | dsimp only

theorem bobConfig_within (b : Bobbin) (w : Nat) (d : Dev) :
    d.within [.ev, .wal, .crl] [2, 3, 18] (bobConfig b w d) := by
  unfold bobConfig
  try dsimp only
  repeat' first
    | with_reducible exact within_refl _ _ _
    | assumption
    | with_reducible apply within_comp (setReg_within _ (CRLB_CFG _) _ 3 _ _)
    | with_reducible apply within_comp (flagEvent_within CRL_FLAGS_CFG_ERR _ _ _ 3 _ _ _ _)
    | with_reducible apply within_comp (writeLocked_within CRL_FLAGS_WRITE_LOCKED _ _ 3 _ _ _ _)
    | with_reducible apply within_comp (put_within _ _ _ 3 _ _)
    | with_reducible apply within_comp (setReg_within _ _ _ 3 _ _)
    | with_reducible apply within_comp (setRegS_within _ _ _ 3 _ _)
    | with_reducible apply within_comp (count_within _ _ _ 3 _ _)
    | with_reducible apply within_comp (bobEmpty_within _ _ _)
    | with_reducible apply within_foldl_snd
    | with_reducible apply within_foldl
    | with_reducible apply within_ite
    | (intro (_ : Dev) _; try dsimp only)
    | (intro (_ : _ × Dev) _; try dsimp only)
    | split
    | decide
    | exact Or.inl (by decide)
    | exact Or.inr (by decide)
    | (simp only [CRLB_CFG, CRL_FLAGS, CRL_FLAGS_CFG_ERR, CRL_FLAGS_WRITE_LOCKED]; omega)
    | omega
    | (simp only [CRLB_CFG, CRL_FLAGS, CRL_FLAGS_CFG_ERR, CRL_FLAGS_WRITE_LOCKED]; split <;> omega)
    | dsimp only

theorem keyPerform_within (op : Nat) (k : KeySlot) (d : Dev) :
    d.within [.ev, .flt, .wal, .dof, .sec, .mpl] [2, 18, 21] (keyPerform op k d) := by
  unfold keyPerform
  try simp only [mk_sec]
  repeat' first
    | with_reducible exact within_refl _ _ _
    | assumption
    | with_reducible apply within_comp (put_within _ SEC_KEY_STAT_BUSY _ 21 _ _)
    | with_reducible apply within_comp (put_within _ SEC_KEY_STAT_RESULT _ 21 _ _)
    | with_reducible apply within_comp (aonFlag_within SEC_FLAGS_KEY_REFUSED _ _ 21 _ _ _ _)
    | with_reducible apply within_comp (NEVER_within)
    | with_reducible apply within_comp (secShow_within _)
    | with_reducible apply within_comp (wrapClear_within _)
    | with_reducible apply within_foldl_snd
    | with_reducible apply within_foldl
    | with_reducible apply within_ite
    | (intro (_ : Dev) _; try dsimp only)
    | (intro (_ : _ × Dev) _; try dsimp only)
    | with_reducible apply within_comp (toSec_within _ _)
    | split
    | decide
    | exact Or.inl (by decide)
    | exact Or.inr (by decide)
    | (simp only [SEC_FLAGS, SEC_FLAGS_KEY_REFUSED, SEC_KEY_STAT, SEC_KEY_STAT_BUSY, SEC_KEY_STAT_RESULT]; omega)
    | omega
    | dsimp only

theorem keyCommand_within (op : Nat) (k : KeySlot) (d : Dev) :
    d.within [.ev, .flt, .wal, .dof, .sec, .mpl] [2, 18, 21] (keyCommand op k d) := by
  unfold keyCommand
  try simp only [mk_sec]
  repeat' first
    | with_reducible exact within_refl _ _ _
    | assumption
    | with_reducible apply within_comp (put_within _ SEC_KEY_STAT_BUSY _ 21 _ _)
    | with_reducible apply within_comp (aonFlag_within SEC_FLAGS_WRITE_LOCKED _ _ 21 _ _ _ _)
    | with_reducible apply within_comp (NEVER_within)
    | with_reducible apply within_comp (keyPerform_within _ _ _)
    | with_reducible apply within_comp (secShow_within _)
    | with_reducible apply within_foldl_snd
    | with_reducible apply within_foldl
    | with_reducible apply within_ite
    | (intro (_ : Dev) _; try dsimp only)
    | (intro (_ : _ × Dev) _; try dsimp only)
    | with_reducible apply within_comp (toSec_within _ _)
    | split
    | decide
    | exact Or.inl (by decide)
    | exact Or.inr (by decide)
    | (simp only [SEC_FLAGS, SEC_FLAGS_WRITE_LOCKED, SEC_KEY_STAT, SEC_KEY_STAT_BUSY]; omega)
    | omega
    | dsimp only

theorem bobUnderrun_within (b : Nat) (d : Dev) (hb : b < 128) :
    d.within [.ev, .wal] [2, 3, 18] (bobUnderrun b d) := by
  unfold bobUnderrun
  try dsimp only
  repeat' first
    | with_reducible exact within_refl _ _ _
    | assumption
    | with_reducible apply within_comp (count_within _ (CRLB_UNF _) _ 3 _ _)
    | with_reducible apply within_comp (put_within _ (CRLB_STATUS_UNF _) _ 3 _ _)
    | with_reducible apply within_comp (bobEvent_within _ _ _ _ _)
    | with_reducible apply within_foldl_snd
    | with_reducible apply within_foldl
    | with_reducible apply within_ite
    | (intro (_ : Dev) _; try dsimp only)
    | (intro (_ : _ × Dev) _; try dsimp only)
    | split
    | decide
    | exact Or.inl (by decide)
    | exact Or.inr (by decide)
    | (simp only [CRLB_STATUS, CRLB_STATUS_UNF, CRLB_UNF]; omega)
    | omega
    | dsimp only

theorem creelCe_within (addr : Nat) (d : Dev) :
    d.within [.ev, .flt, .wal, .dof, .crl, .mpl] [2, 3, 18] (creelCe addr d) := by
  unfold creelCe
  try simp only [mk_crl]
  repeat' first
    | with_reducible exact within_refl _ _ _
    | assumption
    | with_reducible apply within_comp (put_within _ CRL_FLAGS_CE _ 3 _ _)
    | with_reducible apply within_comp (count_within _ CRL_CE_COUNT _ 3 _ _)
    | with_reducible apply within_comp (setReg_within _ CRL_ERR_ADDR _ 3 _ _)
    | with_reducible apply within_comp (fault_within _ _ _ _ _)
    | with_reducible apply within_comp (occur_within _ _ _ _ _)
    | with_reducible apply within_foldl_snd
    | with_reducible apply within_foldl
    | with_reducible apply within_ite
    | (intro (_ : Dev) _; try dsimp only)
    | (intro (_ : _ × Dev) _; try dsimp only)
    | with_reducible apply within_comp (toCrl_within _ _)
    | split
    | decide
    | exact Or.inl (by decide)
    | exact Or.inr (by decide)
    | (simp only [CRL_CE_COUNT, CRL_ERR_ADDR, CRL_FLAGS, CRL_FLAGS_CE]; omega)
    | omega
    | dsimp only

theorem keyResume_within  (d : Dev) :
    d.within [.ev, .flt, .wal, .dof, .sec, .mpl] [2, 18, 21] (keyResume  d) := by
  unfold keyResume
  try dsimp only
  repeat' first
    | with_reducible exact within_refl _ _ _
    | assumption
    | with_reducible apply within_comp (keyPerform_within _ _ _)
    | with_reducible apply within_foldl_snd
    | with_reducible apply within_foldl
    | with_reducible apply within_ite
    | (intro (_ : Dev) _; try dsimp only)
    | (intro (_ : _ × Dev) _; try dsimp only)
    | split
    | decide
    | exact Or.inl (by decide)
    | exact Or.inr (by decide)
    | omega
    | dsimp only

theorem secRecheck_within  (d : Dev) :
    d.within [.sec] [0] (secRecheck  d) := by
  unfold secRecheck
  try simp only [mk_sec]
  repeat' first
    | with_reducible exact within_refl _ _ _
    | assumption
    | with_reducible apply within_comp (put_within _ DEV_UPD_STAT_STATE _ 0 _ _)
    | with_reducible apply within_foldl_snd
    | with_reducible apply within_foldl
    | with_reducible apply within_ite
    | (intro (_ : Dev) _; try dsimp only)
    | (intro (_ : _ × Dev) _; try dsimp only)
    | with_reducible apply within_comp (toSec_within _ _)
    | split
    | decide
    | exact Or.inl (by decide)
    | exact Or.inr (by decide)
    | (simp only [DEV_UPD_STAT, DEV_UPD_STAT_STATE]; omega)
    | omega
    | dsimp only

theorem secWiped_within  (d : Dev) :
    d.within [.ev, .flt, .wal, .dof, .sec, .mpl] [0, 2, 18, 21] (secWiped  d) := by
  unfold secWiped
  try dsimp only
  repeat' first
    | with_reducible exact within_refl _ _ _
    | assumption
    | with_reducible apply within_comp (put_within _ SEC_STATUS_WIPING _ 21 _ _)
    | with_reducible apply within_comp (put_within _ SEC_FLAGS_WIPED _ 21 _ _)
    | with_reducible apply within_comp (count_within _ SEC_WIPES _ 21 _ _)
    | with_reducible apply within_comp (aonEvent_within _ _ _ _ _ _ _)
    | with_reducible apply within_comp (secRecheck_within _)
    | with_reducible apply within_comp (secShow_within _)
    | with_reducible apply within_foldl_snd
    | with_reducible apply within_foldl
    | with_reducible apply within_ite
    | (intro (_ : Dev) _; try dsimp only)
    | (intro (_ : _ × Dev) _; try dsimp only)
    | split
    | decide
    | exact Or.inl (by decide)
    | exact Or.inr (by decide)
    | (simp only [SEC_FLAGS, SEC_FLAGS_WIPED, SEC_STATUS, SEC_STATUS_WIPING, SEC_WIPES]; omega)
    | omega
    | dsimp only

theorem scrubRead_within (late : Bool) (r : ScrubResult) (d : Dev) :
    d.within [.ev, .flt, .wal, .dof, .crl, .sec, .mpl] [0, 2, 3, 18, 21] (scrubRead late r d) := by
  unfold scrubRead
  try dsimp only
  repeat' first
    | with_reducible exact within_refl _ _ _
    | assumption
    | with_reducible apply within_comp (setReg_within _ CRL_ERR_ADDR _ 3 _ _)
    | with_reducible apply within_comp (count_within _ CRL_UE_COUNT _ 3 _ _)
    | with_reducible apply within_comp (count_within _ CRL_SCRUB_PASSES _ 3 _ _)
    | with_reducible apply within_comp (count_within _ CRL_SCRUB_LATE _ 3 _ _)
    | with_reducible apply within_comp (setReg_within _ CRL_STATUS _ 3 _ _)
    | with_reducible apply within_comp (flagEvent_within CRL_FLAGS_SCRUB_LATE _ _ _ 3 _ _ _ _)
    | with_reducible apply within_comp (creelCe_within _ _)
    | with_reducible apply within_comp (secWipe_within _ _)
    | with_reducible apply within_foldl_snd
    | with_reducible apply within_foldl
    | with_reducible apply within_ite
    | (intro (_ : Dev) _; try dsimp only)
    | (intro (_ : _ × Dev) _; try dsimp only)
    | split
    | decide
    | exact Or.inl (by decide)
    | exact Or.inr (by decide)
    | (simp only [CRL_ERR_ADDR, CRL_FLAGS, CRL_FLAGS_SCRUB_LATE, CRL_SCRUB_LATE, CRL_SCRUB_PASSES, CRL_STATUS, CRL_UE_COUNT]; omega)
    | omega
    | dsimp only

end Sys2Proof.Machine
end

