-- ==== Sys2Proof/Laws/OfDramMap.lean ====
section
/-!
SUPPORT. What each operation of Machine/DramMap.lean may touch: the parts of the device and the blocks of registers.
-/
namespace Sys2Proof.Machine

open Reg

set_option linter.unusedTactic false
set_option linter.unreachableTactic false
set_option linter.unusedSimpArgs false

theorem drcMod_within (f : Dram → Dram) (d : Dev) :
    d.within [.drc] [] (d.drcMod f) := by
  unfold Dev.drcMod
  try simp only [mk_drc]
  repeat' first
    | with_reducible exact within_refl _ _ _
    | assumption
    | with_reducible apply within_foldl_snd
    | with_reducible apply within_foldl
    | with_reducible apply within_ite
    | (intro (_ : Dev) _; try dsimp only)
    | (intro (_ : _ × Dev) _; try dsimp only)
    | with_reducible apply within_comp (toDrc_within _ _)
    | split
    | decide
    | exact Or.inl (by decide)
    | exact Or.inr (by decide)
    | omega
    | dsimp only

theorem dramAddrErr_within (a : Nat) (d : Dev) :
    d.within [.ev, .flt, .wal, .dof, .mpl] [2, 4, 18] (dramAddrErr a d) := by
  unfold dramAddrErr
  try dsimp only
  repeat' first
    | with_reducible exact within_refl _ _ _
    | assumption
    | with_reducible apply within_comp (setReg_within _ DRC_ERR_INFO _ 4 _ _)
    | with_reducible apply within_comp (put_within _ DRC_FLAGS_ADDR_ERR _ 4 _ _)
    | with_reducible apply within_comp (fault_within _ _ _ _ _)
    | with_reducible apply within_comp (occur_within _ _ _ _ _)
    | with_reducible apply within_foldl_snd
    | with_reducible apply within_foldl
    | with_reducible apply within_ite
    | (intro (_ : Dev) _; try dsimp only)
    | (intro (_ : _ × Dev) _; try dsimp only)
    | split
    | decide
    | exact Or.inl (by decide)
    | exact Or.inr (by decide)
    | (simp only [DRC_ERR_INFO, DRC_FLAGS, DRC_FLAGS_ADDR_ERR]; omega)
    | omega
    | dsimp only

theorem wake_within (a : Nat) (d : Dev) :
    d.within [.drc] [] (wake a d) := by
  unfold wake
  try dsimp only
  repeat' first
    | with_reducible exact within_refl _ _ _
    | assumption
    | with_reducible apply within_comp (drcMod_within _ _)
    | with_reducible apply within_foldl_snd
    | with_reducible apply within_foldl
    | with_reducible apply within_ite
    | (intro (_ : Dev) _; try dsimp only)
    | (intro (_ : _ × Dev) _; try dsimp only)
    | split
    | decide
    | exact Or.inl (by decide)
    | exact Or.inr (by decide)
    | omega
    | dsimp only

theorem dramWrite_within (a : Nat) (bs : List Byte) (d : Dev) :
    d.within [.ev, .flt, .wal, .dram, .dof, .mpl, .drc] [2, 4, 18] (dramWrite a bs d) := by
  unfold dramWrite
  try dsimp only
  repeat' first
    | with_reducible exact within_refl _ _ _
    | assumption
    | with_reducible apply within_comp (setDramBytes_within _ _ _)
    | with_reducible apply within_comp (dramAddrErr_within _ _)
    | with_reducible apply within_comp (wake_within _ _)
    | with_reducible apply within_foldl_snd
    | with_reducible apply within_foldl
    | with_reducible apply within_ite
    | (intro (_ : Dev) _; try dsimp only)
    | (intro (_ : _ × Dev) _; try dsimp only)
    | split
    | decide
    | exact Or.inl (by decide)
    | exact Or.inr (by decide)
    | omega
    | dsimp only

theorem latchError_within (a : Nat) (comp : Nat) (ue : Bool) (d : Dev) :
    d.within [] [4] (latchError a comp ue d) := by
  unfold latchError
  try dsimp only
  repeat' first
    | with_reducible exact within_refl _ _ _
    | assumption
    | with_reducible apply within_comp (setReg_within _ DRC_ERR_ADDR_HI _ 4 _ _)
    | with_reducible apply within_comp (setReg_within _ DRC_ERR_ADDR_LO _ 4 _ _)
    | with_reducible apply within_comp (setReg_within _ DRC_ERR_INFO _ 4 _ _)
    | with_reducible apply within_foldl_snd
    | with_reducible apply within_foldl
    | with_reducible apply within_ite
    | (intro (_ : Dev) _; try dsimp only)
    | (intro (_ : _ × Dev) _; try dsimp only)
    | split
    | decide
    | exact Or.inl (by decide)
    | exact Or.inr (by decide)
    | (simp only [DRC_ERR_ADDR_HI, DRC_ERR_ADDR_LO, DRC_ERR_INFO]; omega)
    | omega
    | dsimp only

theorem dramTouch_within (a : Nat) (n : Nat) (d : Dev) :
    d.within [.ev, .flt, .wal, .dof, .mpl, .drc] [2, 4, 18] (dramTouch a n d) := by
  unfold dramTouch
  try dsimp only
  repeat' first
    | with_reducible exact within_refl _ _ _
    | assumption
    | with_reducible apply within_comp (dramAddrErr_within _ _)
    | with_reducible apply within_comp (wake_within _ _)
    | with_reducible apply within_foldl_snd
    | with_reducible apply within_foldl
    | with_reducible apply within_ite
    | (intro (_ : Dev) _; try dsimp only)
    | (intro (_ : _ × Dev) _; try dsimp only)
    | split
    | decide
    | exact Or.inl (by decide)
    | exact Or.inr (by decide)
    | omega
    | dsimp only

end Sys2Proof.Machine
end

