-- ==== Sys2Proof/Laws/OfLampOps.lean ====
section
/-!
SUPPORT. What each operation of Machine/LampOps.lean may touch: the parts of the device and the blocks of registers.
-/
namespace Sys2Proof.Machine

open Reg

set_option linter.unusedTactic false
set_option linter.unreachableTactic false
set_option linter.unusedSimpArgs false

theorem lmpMod_within (f : Lamps → Lamps) (d : Dev) :
    d.within [.lmp] [] (d.lmpMod f) := by
  unfold Dev.lmpMod
  try simp only [mk_lmp]
  repeat' first
    | with_reducible exact within_refl _ _ _
    | assumption
    | with_reducible apply within_foldl_snd
    | with_reducible apply within_foldl
    | with_reducible apply within_ite
    | (intro (_ : Dev) _; try dsimp only)
    | (intro (_ : _ × Dev) _; try dsimp only)
    | with_reducible apply within_comp (toLmp_within _ _)
    | split
    | decide
    | exact Or.inl (by decide)
    | exact Or.inr (by decide)
    | omega
    | dsimp only

theorem mtxArrange_within  (d : Dev) :
    d.within [.lmp] [] (mtxArrange  d) := by
  unfold mtxArrange
  try dsimp only
  repeat' first
    | with_reducible exact within_refl _ _ _
    | assumption
    | with_reducible apply within_comp (lmpMod_within _ _)
    | with_reducible apply within_foldl_snd
    | with_reducible apply within_foldl
    | with_reducible apply within_ite
    | (intro (_ : Dev) _; try dsimp only)
    | (intro (_ : _ × Dev) _; try dsimp only)
    | split
    | decide
    | exact Or.inl (by decide)
    | exact Or.inr (by decide)
    | omega
    | dsimp only

theorem addWindow_within (w : Window) (d : Dev) :
    d.within [.lmp] [] (addWindow w d) := by
  unfold addWindow
  try dsimp only
  repeat' first
    | with_reducible exact within_refl _ _ _
    | assumption
    | with_reducible apply within_comp (lmpMod_within _ _)
    | with_reducible apply within_comp (mtxArrange_within _)
    | with_reducible apply within_foldl_snd
    | with_reducible apply within_foldl
    | with_reducible apply within_ite
    | (intro (_ : Dev) _; try dsimp only)
    | (intro (_ : _ × Dev) _; try dsimp only)
    | split
    | decide
    | exact Or.inl (by decide)
    | exact Or.inr (by decide)
    | omega
    | dsimp only

theorem lampDisturb_within  (d : Dev) :
    d.within [.lmp] [] (lampDisturb  d) := by
  unfold lampDisturb
  try dsimp only
  repeat' first
    | with_reducible exact within_refl _ _ _
    | assumption
    | with_reducible apply within_comp (lmpMod_within _ _)
    | with_reducible apply within_foldl_snd
    | with_reducible apply within_foldl
    | with_reducible apply within_ite
    | (intro (_ : Dev) _; try dsimp only)
    | (intro (_ : _ × Dev) _; try dsimp only)
    | split
    | decide
    | exact Or.inl (by decide)
    | exact Or.inr (by decide)
    | omega
    | dsimp only

theorem chainStart_within  (d : Dev) :
    d.within [.shadow, .lmp] [15] (chainStart  d) := by
  unfold chainStart
  try dsimp only
  repeat' first
    | with_reducible exact within_refl _ _ _
    | assumption
    | with_reducible apply within_comp (put_within _ LMP_STATUS_CHAIN_BUSY _ 15 _ _)
    | with_reducible apply within_comp (commit_within _ .lamp _ _ 15 _ _ _)
    | with_reducible apply within_comp (lmpMod_within _ _)
    | with_reducible apply within_comp (lampDisturb_within _)
    | with_reducible apply within_foldl_snd
    | with_reducible apply within_foldl
    | with_reducible apply within_ite
    | (intro (_ : Dev) _; try dsimp only)
    | (intro (_ : _ × Dev) _; try dsimp only)
    | split
    | decide
    | exact Or.inl (by decide)
    | exact Or.inr (by decide)
    | (simp only [LMP_CTRL, LMP_CTRL_CHAIN_EN, LMP_STATUS, LMP_STATUS_CHAIN_BUSY]; omega)
    | omega
    | dsimp only

theorem chainCommit_within  (d : Dev) :
    d.within [.shadow, .lmp] [15] (chainCommit  d) := by
  unfold chainCommit
  try dsimp only
  repeat' first
    | with_reducible exact within_refl _ _ _
    | assumption
    | with_reducible apply within_comp (lmpMod_within _ _)
    | with_reducible apply within_comp (chainStart_within _)
    | with_reducible apply within_foldl_snd
    | with_reducible apply within_foldl
    | with_reducible apply within_ite
    | (intro (_ : Dev) _; try dsimp only)
    | (intro (_ : _ × Dev) _; try dsimp only)
    | split
    | decide
    | exact Or.inl (by decide)
    | exact Or.inr (by decide)
    | omega
    | dsimp only

theorem lampLatch_within (flash : Bool) (d : Dev) :
    d.within [.lmp] [] (lampLatch flash d) := by
  unfold lampLatch
  try dsimp only
  repeat' first
    | with_reducible exact within_refl _ _ _
    | assumption
    | with_reducible apply within_comp (lmpMod_within _ _)
    | with_reducible apply within_comp (lampDisturb_within _)
    | with_reducible apply within_foldl_snd
    | with_reducible apply within_foldl
    | with_reducible apply within_ite
    | (intro (_ : Dev) _; try dsimp only)
    | (intro (_ : _ × Dev) _; try dsimp only)
    | split
    | decide
    | exact Or.inl (by decide)
    | exact Or.inr (by decide)
    | omega
    | dsimp only

theorem flashHit_within  (d : Dev) :
    d.within [.lmp] [] (flashHit  d) := by
  unfold flashHit
  try dsimp only
  repeat' first
    | with_reducible exact within_refl _ _ _
    | assumption
    | with_reducible apply within_comp (lmpMod_within _ _)
    | with_reducible apply within_comp (lampLatch_within _ _)
    | with_reducible apply within_foldl_snd
    | with_reducible apply within_foldl
    | with_reducible apply within_ite
    | (intro (_ : Dev) _; try dsimp only)
    | (intro (_ : _ × Dev) _; try dsimp only)
    | split
    | decide
    | exact Or.inl (by decide)
    | exact Or.inr (by decide)
    | omega
    | dsimp only

theorem lampTick_within  (d : Dev) :
    d.within [.lmp] [15] (lampTick  d) := by
  unfold lampTick
  try dsimp only
  repeat' first
    | with_reducible exact within_refl _ _ _
    | assumption
    | with_reducible apply within_comp (put_within _ LMP_CHAIN_COMMIT_R385 _ 15 _ _)
    | with_reducible apply within_comp (lmpMod_within _ _)
    | with_reducible apply within_comp (lampLatch_within _ _)
    | with_reducible apply within_foldl_snd
    | with_reducible apply within_foldl
    | with_reducible apply within_ite
    | (intro (_ : Dev) _; try dsimp only)
    | (intro (_ : _ × Dev) _; try dsimp only)
    | split
    | decide
    | exact Or.inl (by decide)
    | exact Or.inr (by decide)
    | (simp only [LMP_CHAIN_COMMIT, LMP_CHAIN_COMMIT_R385]; omega)
    | omega
    | dsimp only

theorem derateChange_within (inst : Nat) (old : Nat) (new : Nat) (d : Dev) :
    d.within [.ev, .flt, .wal, .dof, .mpl] [2, 15, 18] (derateChange inst old new d) := by
  unfold derateChange
  try dsimp only
  repeat' first
    | with_reducible exact within_refl _ _ _
    | assumption
    | with_reducible apply within_comp (flagEvent_within LMP_FLAGS_DERATED _ _ _ 15 _ _ _ _)
    | with_reducible apply within_comp (fault_within _ _ _ _ _)
    | with_reducible apply within_foldl_snd
    | with_reducible apply within_foldl
    | with_reducible apply within_ite
    | (intro (_ : Dev) _; try dsimp only)
    | (intro (_ : _ × Dev) _; try dsimp only)
    | split
    | decide
    | exact Or.inl (by decide)
    | exact Or.inr (by decide)
    | (simp only [LMP_FLAGS, LMP_FLAGS_DERATED]; omega)
    | omega
    | dsimp only

theorem ldStatus_within (k : Fin 32) (w : Nat) (d : Dev) :
    d.within [.ev, .flt, .wal, .dof, .lmp, .mpl] [2, 15, 18] (ldStatus k w d) := by
  unfold ldStatus
  try dsimp only
  repeat' first
    | with_reducible exact within_refl _ _ _
    | assumption
    | with_reducible apply within_comp (setReg_within _ (LMP_LD_STATUS _) _ 15 _ _)
    | with_reducible apply within_comp (flagEvent_within LMP_FLAGS_CHAIN_ERR _ _ _ 15 _ _ _ _)
    | with_reducible apply within_comp (lmpMod_within _ _)
    | with_reducible apply within_comp (derateChange_within _ _ _ _)
    | with_reducible apply within_comp (fault_within _ _ _ _ _)
    | with_reducible apply within_foldl_snd
    | with_reducible apply within_foldl
    | with_reducible apply within_ite
    | (intro (_ : Dev) _; try dsimp only)
    | (intro (_ : _ × Dev) _; try dsimp only)
    | split
    | decide
    | exact Or.inl (by decide)
    | exact Or.inr (by decide)
    | (simp only [LMP_FLAGS, LMP_FLAGS_CHAIN_ERR, LMP_LD_STATUS]; omega)
    | omega
    | dsimp only

theorem chainDone_within (status : List Word) (d : Dev) :
    d.within [.shadow, .ev, .flt, .wal, .dof, .lmp, .mpl] [2, 15, 18] (chainDone status d) := by
  unfold chainDone
  try dsimp only
  repeat' first
    | with_reducible exact within_refl _ _ _
    | assumption
    | with_reducible apply within_comp (put_within _ LMP_STATUS_DRIVERS _ 15 _ _)
    | with_reducible apply within_comp (put_within _ LMP_STATUS_CHAIN_BUSY _ 15 _ _)
    | with_reducible apply within_comp (lmpMod_within _ _)
    | with_reducible apply within_comp (chainCommit_within _)
    | with_reducible apply within_comp (chainStart_within _)
    | with_reducible apply within_comp (lampLatch_within _ _)
    | with_reducible apply within_comp (ldStatus_within _ _ _)
    | with_reducible apply within_foldl_snd
    | with_reducible apply within_foldl
    | with_reducible apply within_ite
    | (intro (_ : Dev) _; try dsimp only)
    | (intro (_ : _ × Dev) _; try dsimp only)
    | split
    | decide
    | exact Or.inl (by decide)
    | exact Or.inr (by decide)
    | (simp only [LMP_STATUS, LMP_STATUS_CHAIN_BUSY, LMP_STATUS_DRIVERS]; omega)
    | omega
    | dsimp only

theorem flashOpen_within (c : Camera) (d : Dev) :
    d.within [.ev, .flt, .wal, .dof, .lmp, .mpl] [2, 15, 18] (flashOpen c d) := by
  unfold flashOpen
  try dsimp only
  repeat' first
    | with_reducible exact within_refl _ _ _
    | assumption
    | with_reducible apply within_comp (flagEvent_within LMP_FLAGS_FLASH_LATE _ _ _ 15 _ _ _ _)
    | with_reducible apply within_comp (lmpMod_within _ _)
    | with_reducible apply within_comp (fault_within _ _ _ _ _)
    | with_reducible apply within_comp (lampDisturb_within _)
    | with_reducible apply within_comp (lampLatch_within _ _)
    | with_reducible apply within_foldl_snd
    | with_reducible apply within_foldl
    | with_reducible apply within_ite
    | (intro (_ : Dev) _; try dsimp only)
    | (intro (_ : _ × Dev) _; try dsimp only)
    | split
    | decide
    | exact Or.inl (by decide)
    | exact Or.inr (by decide)
    | (simp only [LMP_FLAGS, LMP_FLAGS_FLASH_LATE]; omega)
    | omega
    | dsimp only

theorem flashClose_within (src : Option Camera) (d : Dev) :
    d.within [.shadow, .lmp] [15] (flashClose src d) := by
  unfold flashClose
  try dsimp only
  repeat' first
    | with_reducible exact within_refl _ _ _
    | assumption
    | with_reducible apply within_comp (lmpMod_within _ _)
    | with_reducible apply within_comp (chainStart_within _)
    | with_reducible apply within_comp (lampLatch_within _ _)
    | with_reducible apply within_foldl_snd
    | with_reducible apply within_foldl
    | with_reducible apply within_ite
    | (intro (_ : Dev) _; try dsimp only)
    | (intro (_ : _ × Dev) _; try dsimp only)
    | split
    | decide
    | exact Or.inl (by decide)
    | exact Or.inr (by decide)
    | omega
    | dsimp only

theorem cellDiag_within (r : Nat) (c : Nat) (v : Nat) (d : Dev) :
    d.within [.ev, .flt, .wal, .dof, .lmp, .mpl] [2, 15, 18] (cellDiag r c v d) := by
  unfold cellDiag
  try dsimp only
  repeat' first
    | with_reducible exact within_refl _ _ _
    | assumption
    | with_reducible apply within_comp (setReg_within _ (LMP_MTX_DIAG _) _ 15 _ _)
    | with_reducible apply within_comp (flagEvent_within LMP_FLAGS_LAMP_OPEN _ _ _ 15 _ _ _ _)
    | with_reducible apply within_comp (put_within _ _ _ 15 _ _)
    | with_reducible apply within_comp (setReg_within _ _ _ 15 _ _)
    | with_reducible apply within_comp (setRegS_within _ _ _ 15 _ _)
    | with_reducible apply within_comp (count_within _ _ _ 15 _ _)
    | with_reducible apply within_comp (lmpMod_within _ _)
    | with_reducible apply within_comp (fault_within _ _ _ _ _)
    | with_reducible apply within_foldl_snd
    | with_reducible apply within_foldl
    | with_reducible apply within_ite
    | (intro (_ : Dev) _; try dsimp only)
    | (intro (_ : _ × Dev) _; try dsimp only)
    | split
    | decide
    | exact Or.inl (by decide)
    | exact Or.inr (by decide)
    | (simp only [LMP_FLAGS, LMP_FLAGS_LAMP_OPEN, LMP_MTX_DIAG]; omega)
    | omega
    | (simp only [LMP_FLAGS, LMP_FLAGS_LAMP_OPEN, LMP_MTX_DIAG]; split <;> omega)
    | dsimp only

theorem rowDiag_within (r : Nat) (sense : Nat) (d : Dev) :
    d.within [.ev, .flt, .wal, .dof, .lmp, .mpl] [2, 15, 18] (rowDiag r sense d) := by
  unfold rowDiag
  try dsimp only
  repeat' first
    | with_reducible exact within_refl _ _ _
    | assumption
    | with_reducible apply within_comp (cellDiag_within _ _ _ _)
    | with_reducible apply within_foldl_snd
    | with_reducible apply within_foldl_mem
    | (intro (v : Dev) x hx; have hx := List.mem_range.1 hx; try dsimp only)
    | with_reducible apply within_foldl
    | with_reducible apply within_ite
    | (intro (_ : Dev) _; try dsimp only)
    | (intro (_ : _ × Dev) _; try dsimp only)
    | split
    | decide
    | exact Or.inl (by decide)
    | exact Or.inr (by decide)
    | omega
    | dsimp only

theorem rowOn_within (r : Nat) (now : Nat) (exp : Option Window) (d : Dev) :
    d.within [.shadow, .lmp] [15] (rowOn r now exp d) := by
  unfold rowOn
  try dsimp only
  repeat' first
    | with_reducible exact within_refl _ _ _
    | assumption
    | with_reducible apply within_comp (setReg_within _ LMP_STATUS _ 15 _ _)
    | with_reducible apply within_comp (commit_within _ .lamp _ _ 15 _ _ _)
    | with_reducible apply within_comp (lmpMod_within _ _)
    | with_reducible apply within_foldl_snd
    | with_reducible apply within_foldl
    | with_reducible apply within_ite
    | (intro (_ : Dev) _; try dsimp only)
    | (intro (_ : _ × Dev) _; try dsimp only)
    | split
    | decide
    | exact Or.inl (by decide)
    | exact Or.inr (by decide)
    | (simp only [LMP_MTX_CFG, LMP_MTX_CFG_ROW_US, LMP_STATUS]; omega)
    | omega
    | dsimp only

theorem rowEnds_within (now : Nat) (sense : Nat) (d : Dev) :
    d.within [.shadow, .ev, .flt, .wal, .dof, .lmp, .mpl] [2, 15, 18] (rowEnds now sense d) := by
  unfold rowEnds
  try dsimp only
  repeat' first
    | with_reducible exact within_refl _ _ _
    | assumption
    | with_reducible apply within_comp (flagEvent_within LMP_FLAGS_MTX_CONFLICT _ _ _ 15 _ _ _ _)
    | with_reducible apply within_comp (lmpMod_within _ _)
    | with_reducible apply within_comp (cellDiag_within _ _ _ _)
    | with_reducible apply within_comp (lampDisturb_within _)
    | with_reducible apply within_comp (rowDiag_within _ _ _)
    | with_reducible apply within_comp (rowOn_within _ _ _ _)
    | with_reducible apply within_foldl_snd
    | with_reducible apply within_foldl
    | with_reducible apply within_ite
    | (intro (_ : Dev) _; try dsimp only)
    | (intro (_ : _ × Dev) _; try dsimp only)
    | split
    | decide
    | exact Or.inl (by decide)
    | exact Or.inr (by decide)
    | (simp only [LMP_FLAGS, LMP_FLAGS_MTX_CONFLICT]; omega)
    | omega
    | dsimp only

theorem colourStart_within  (d : Dev) :
    d.within [.lmp] [] (colourStart  d) := by
  unfold colourStart
  try dsimp only
  repeat' first
    | with_reducible exact within_refl _ _ _
    | assumption
    | with_reducible apply within_comp (lmpMod_within _ _)
    | with_reducible apply within_foldl_snd
    | with_reducible apply within_foldl
    | with_reducible apply within_ite
    | (intro (_ : Dev) _; try dsimp only)
    | (intro (_ : _ × Dev) _; try dsimp only)
    | split
    | decide
    | exact Or.inl (by decide)
    | exact Or.inr (by decide)
    | omega
    | dsimp only

theorem colourGain_within (g : Nat) (d : Dev) (hg : g < 3) :
    d.within [.ev, .flt, .wal, .dof, .mpl] [2, 15, 18] (colourGain d g) := by
  unfold colourGain
  try dsimp only
  repeat' first
    | with_reducible exact within_refl _ _ _
    | assumption
    | with_reducible apply within_comp (setReg_within _ (LMP_COL_GAIN _) _ 15 _ _)
    | with_reducible apply within_comp (flagEvent_within LMP_FLAGS_COL_LIMIT _ _ _ 15 _ _ _ _)
    | with_reducible apply within_comp (flagEvent_within LMP_FLAGS_DERATE_HOLD _ _ _ 15 _ _ _ _)
    | with_reducible apply within_comp (fault_within _ _ _ _ _)
    | with_reducible apply within_foldl_snd
    | with_reducible apply within_foldl
    | with_reducible apply within_ite
    | (intro (_ : Dev) _; try dsimp only)
    | (intro (_ : _ × Dev) _; try dsimp only)
    | split
    | decide
    | exact Or.inl (by decide)
    | exact Or.inr (by decide)
    | (simp only [LMP_COL_GAIN, LMP_FLAGS, LMP_FLAGS_COL_LIMIT, LMP_FLAGS_DERATE_HOLD]; omega)
    | omega
    | dsimp only

theorem colourDone_within (data : Option (List Byte)) (temp : Option Word) (d : Dev) :
    d.within [.shadow, .ev, .flt, .wal, .dof, .lmp, .mpl] [2, 15, 18] (colourDone data temp d) := by
  unfold colourDone
  try dsimp only
  repeat' first
    | with_reducible exact within_refl _ _ _
    | assumption
    | with_reducible apply within_comp (count_within _ LMP_COL_DISCARD _ 15 _ _)
    | with_reducible apply within_comp (setReg_within _ LMP_MTX_TEMP _ 15 _ _)
    | with_reducible apply within_comp (setReg_within _ (LMP_COL_MEAS _) _ 15 _ _)
    | with_reducible apply within_comp (lmpMod_within _ _)
    | with_reducible apply within_comp (chainCommit_within _)
    | with_reducible apply within_comp (colourGain_within _ _ _)
    | with_reducible apply within_comp (derateChange_within _ _ _ _)
    | with_reducible apply within_foldl_snd
    | with_reducible apply within_foldl_mem
    | (intro (v : Dev) x hx; have hx := List.mem_range.1 hx; try dsimp only)
    | with_reducible apply within_foldl
    | with_reducible apply within_ite
    | (intro (_ : Dev) _; try dsimp only)
    | (intro (_ : _ × Dev) _; try dsimp only)
    | split
    | decide
    | exact Or.inl (by decide)
    | exact Or.inr (by decide)
    | (simp only [LMP_COL_DISCARD, LMP_COL_MEAS, LMP_MTX_TEMP]; omega)
    | omega
    | dsimp only

end Sys2Proof.Machine
end

