-- ==== Sys2Proof/Laws/OfTreadleOps.lean ====
section
/-!
SUPPORT. What each operation of Machine/TreadleOps.lean may touch: the parts of the device and the blocks of registers.
-/
namespace Sys2Proof.Machine

open Reg

set_option linter.unusedTactic false
set_option linter.unreachableTactic false
set_option linter.unusedSimpArgs false

theorem trdMod_within (f : Treadle → Treadle) (d : Dev) :
    d.within [.trd] [] (d.trdMod f) := by
  unfold Dev.trdMod
  try simp only [mk_trd]
  repeat' first
    | with_reducible exact within_refl _ _ _
    | assumption
    | with_reducible apply within_foldl_snd
    | with_reducible apply within_foldl
    | with_reducible apply within_ite
    | (intro (_ : Dev) _; try dsimp only)
    | (intro (_ : _ × Dev) _; try dsimp only)
    | with_reducible apply within_comp (toTrd_within _ _)
    | split
    | decide
    | exact Or.inl (by decide)
    | exact Or.inr (by decide)
    | omega
    | dsimp only

theorem reactTaken_within  (d : Dev) :
    d.within [] [2] (reactTaken  d) := by
  unfold reactTaken
  try dsimp only
  repeat' first
    | with_reducible exact within_refl _ _ _
    | assumption
    | with_reducible apply within_comp (count_within _ EVT_REACTIONS _ 2 _ _)
    | with_reducible apply within_foldl_snd
    | with_reducible apply within_foldl
    | with_reducible apply within_ite
    | (intro (_ : Dev) _; try dsimp only)
    | (intro (_ : _ × Dev) _; try dsimp only)
    | split
    | decide
    | exact Or.inl (by decide)
    | exact Or.inr (by decide)
    | (simp only [EVT_REACTIONS]; omega)
    | omega
    | dsimp only

theorem axEase_within (m : Axis) (d : Dev) :
    d.within [.ev, .flt, .wal, .dof, .axes, .mpl] [2, 12, 18] (axEase d m) := by
  unfold axEase
  try dsimp only
  repeat' first
    | with_reducible exact within_refl _ _ _
    | assumption
    | with_reducible apply within_comp (axMod_within _ _ _)
    | with_reducible apply within_comp (axStop_within _ _)
    | with_reducible apply within_foldl_snd
    | with_reducible apply within_foldl
    | with_reducible apply within_ite
    | (intro (_ : Dev) _; try dsimp only)
    | (intro (_ : _ × Dev) _; try dsimp only)
    | split
    | decide
    | exact Or.inl (by decide)
    | exact Or.inr (by decide)
    | omega
    | dsimp only

theorem easeAll_within  (d : Dev) :
    d.within [.ev, .flt, .wal, .dof, .axes, .mpl] [2, 12, 18] (easeAll  d) := by
  unfold easeAll
  try dsimp only
  repeat' first
    | with_reducible exact within_refl _ _ _
    | assumption
    | with_reducible apply within_comp (axEase_within _ _)
    | with_reducible apply within_foldl_snd
    | with_reducible apply within_foldl
    | with_reducible apply within_ite
    | (intro (_ : Dev) _; try dsimp only)
    | (intro (_ : _ × Dev) _; try dsimp only)
    | split
    | decide
    | exact Or.inl (by decide)
    | exact Or.inr (by decide)
    | omega
    | dsimp only

theorem slotMod_within (i : Slot) (f : LayerSlot → LayerSlot) (d : Dev) :
    d.within [.trd] [] (d.slotMod i f) := by
  unfold Dev.slotMod
  try dsimp only
  repeat' first
    | with_reducible exact within_refl _ _ _
    | assumption
    | with_reducible apply within_comp (trdMod_within _ _)
    | with_reducible apply within_foldl_snd
    | with_reducible apply within_foldl
    | with_reducible apply within_ite
    | (intro (_ : Dev) _; try dsimp only)
    | (intro (_ : _ × Dev) _; try dsimp only)
    | split
    | decide
    | exact Or.inl (by decide)
    | exact Or.inr (by decide)
    | omega
    | dsimp only

theorem setSlotState_within (i : Slot) (st : Nat) (d : Dev) :
    d.within [] [20] (setSlotState i st d) := by
  unfold setSlotState
  try dsimp only
  repeat' first
    | with_reducible exact within_refl _ _ _
    | assumption
    | with_reducible apply within_comp (put_within _ _ _ 20 _ _)
    | with_reducible apply within_comp (setReg_within _ _ _ 20 _ _)
    | with_reducible apply within_comp (setRegS_within _ _ _ 20 _ _)
    | with_reducible apply within_comp (count_within _ _ _ 20 _ _)
    | with_reducible apply within_foldl_snd
    | with_reducible apply within_foldl
    | with_reducible apply within_ite
    | (intro (_ : Dev) _; try dsimp only)
    | (intro (_ : _ × Dev) _; try dsimp only)
    | split
    | decide
    | exact Or.inl (by decide)
    | exact Or.inr (by decide)
    | (simp only [TRD_SLOT0_STATUS, slotStatus]; omega)
    | omega
    | (simp only [TRD_SLOT0_STATUS, slotStatus]; split <;> omega)
    | dsimp only

theorem failSlot_within (i : Slot) (d : Dev) :
    d.within [.trd, .start] [20] (failSlot i d) := by
  unfold failSlot
  try simp only [mk_start]
  repeat' first
    | with_reducible exact within_refl _ _ _
    | assumption
    | with_reducible apply within_comp (slotMod_within _ _ _)
    | with_reducible apply within_comp (setSlotState_within _ _ _)
    | with_reducible apply within_foldl_snd
    | with_reducible apply within_foldl
    | with_reducible apply within_ite
    | (intro (_ : Dev) _; try dsimp only)
    | (intro (_ : _ × Dev) _; try dsimp only)
    | with_reducible apply within_comp (toStart_within _ _)
    | split
    | decide
    | exact Or.inl (by decide)
    | exact Or.inr (by decide)
    | omega
    | dsimp only

theorem stateEvent_within (st : Nat) (d : Dev) :
    d.within [.ev, .wal] [2, 18] (stateEvent st d) := by
  unfold stateEvent
  try dsimp only
  repeat' first
    | with_reducible exact within_refl _ _ _
    | assumption
    | with_reducible apply within_comp (occur_within _ _ _ _ _)
    | with_reducible apply within_foldl_snd
    | with_reducible apply within_foldl
    | with_reducible apply within_ite
    | (intro (_ : Dev) _; try dsimp only)
    | (intro (_ : _ × Dev) _; try dsimp only)
    | split
    | decide
    | exact Or.inl (by decide)
    | exact Or.inr (by decide)
    | omega
    | dsimp only

theorem trdEnter_within (st : Nat) (ev : Bool) (d : Dev) :
    d.within [.shadow, .ev, .wal, .chain] [2, 8, 11, 16, 18, 20] (trdEnter st ev d) := by
  unfold trdEnter
  try dsimp only
  repeat' first
    | with_reducible exact within_refl _ _ _
    | assumption
    | with_reducible apply within_comp (setReg_within _ TRD_TICK_HI _ 20 _ _)
    | with_reducible apply within_comp (put_within _ TRD_STATE_WAIT_SCHED _ 20 _ _)
    | with_reducible apply within_comp (put_within _ TRD_STATE_STATE _ 20 _ _)
    | with_reducible apply within_comp (put_within _ TRD_STATE_WAIT_START _ 20 _ _)
    | with_reducible apply within_comp (setReg_within _ TRD_TICK_LO _ 20 _ _)
    | with_reducible apply within_comp (commitAll_within _ .layerTrd _ _ [20] layerTrd_in (by decide))
    | with_reducible apply within_comp (commitAll_within _ .layer _ _ [8, 11, 16] layer_in (by decide))
    | with_reducible apply within_comp (stage_within _ _)
    | with_reducible apply within_comp (stateEvent_within _ _)
    | with_reducible apply within_comp (stateMessage_within _)
    | with_reducible apply within_foldl_snd
    | with_reducible apply within_foldl
    | with_reducible apply within_ite
    | (intro (_ : Dev) _; try dsimp only)
    | (intro (_ : _ × Dev) _; try dsimp only)
    | split
    | decide
    | exact Or.inl (by decide)
    | exact Or.inr (by decide)
    | (simp only [TRD_STATE, TRD_STATE_STATE, TRD_STATE_WAIT_SCHED, TRD_STATE_WAIT_START, TRD_TICK_HI, TRD_TICK_LO]; omega)
    | omega
    | dsimp only

theorem trdAbort_within  (d : Dev) :
    d.within [.shadow, .ev, .flt, .wal, .chain, .trd, .dof, .axes, .sht, .start, .mpl] [2, 8, 11, 12, 16, 18, 20] (trdAbort  d) := by
  unfold trdAbort
  try simp only [mk_sht]
  repeat' first
    | with_reducible exact within_refl _ _ _
    | assumption
    | with_reducible apply within_comp (trdMod_within _ _)
    | with_reducible apply within_comp (easeAll_within _)
    | with_reducible apply within_comp (failSlot_within _ _)
    | with_reducible apply within_comp (trdEnter_within _ _ _)
    | with_reducible apply within_foldl_snd
    | with_reducible apply within_foldl
    | with_reducible apply within_ite
    | (intro (_ : Dev) _; try dsimp only)
    | (intro (_ : _ × Dev) _; try dsimp only)
    | with_reducible apply within_comp (toSht_within _ _)
    | split
    | decide
    | exact Or.inl (by decide)
    | exact Or.inr (by decide)
    | omega
    | dsimp only

theorem enterPaused_within (ret : Nat) (d : Dev) :
    d.within [.shadow, .ev, .wal, .chain] [2, 8, 11, 16, 18, 20] (enterPaused ret d) := by
  unfold enterPaused
  try dsimp only
  repeat' first
    | with_reducible exact within_refl _ _ _
    | assumption
    | with_reducible apply within_comp (put_within _ TRD_STATE_RETURN_STATE _ 20 _ _)
    | with_reducible apply within_comp (trdEnter_within _ _ _)
    | with_reducible apply within_foldl_snd
    | with_reducible apply within_foldl
    | with_reducible apply within_ite
    | (intro (_ : Dev) _; try dsimp only)
    | (intro (_ : _ × Dev) _; try dsimp only)
    | split
    | decide
    | exact Or.inl (by decide)
    | exact Or.inr (by decide)
    | (simp only [TRD_STATE, TRD_STATE_RETURN_STATE]; omega)
    | omega
    | dsimp only

theorem trdPause_within (kp : Nat) (gate : Bool) (d : Dev) :
    d.within [.shadow, .ev, .flt, .wal, .chain, .trd, .dof, .axes, .mpl] [2, 8, 11, 12, 16, 18, 20] (trdPause kp gate d) := by
  unfold trdPause
  try dsimp only
  repeat' first
    | with_reducible exact within_refl _ _ _
    | assumption
    | with_reducible apply within_comp (setReg_within _ TRD_PAUSE_TICK_LO _ 20 _ _)
    | with_reducible apply within_comp (setReg_within _ TRD_PAUSE_TICK_HI _ 20 _ _)
    | with_reducible apply within_comp (trdMod_within _ _)
    | with_reducible apply within_comp (easeAll_within _)
    | with_reducible apply within_comp (enterPaused_within _ _)
    | with_reducible apply within_foldl_snd
    | with_reducible apply within_foldl
    | with_reducible apply within_ite
    | (intro (_ : Dev) _; try dsimp only)
    | (intro (_ : _ × Dev) _; try dsimp only)
    | split
    | decide
    | exact Or.inl (by decide)
    | exact Or.inr (by decide)
    | (simp only [TRD_PAUSE_TICK_HI, TRD_PAUSE_TICK_LO]; omega)
    | omega
    | dsimp only

theorem react_within (r : Nat) (d : Dev) :
    d.within [.shadow, .ev, .flt, .wal, .chain, .trd, .dof, .axes, .sht, .start, .mpl] [2, 8, 11, 12, 16, 18, 20] (react r d) := by
  unfold react
  try dsimp only
  repeat' first
    | with_reducible exact within_refl _ _ _
    | assumption
    | with_reducible apply within_comp (put_within _ EVT_FLAGS_REACT_IGNORED _ 2 _ _)
    | with_reducible apply within_comp (trdMod_within _ _)
    | with_reducible apply within_comp (reactTaken_within _)
    | with_reducible apply within_comp (trdAbort_within _)
    | with_reducible apply within_comp (trdPause_within _ _ _)
    | with_reducible apply within_foldl_snd
    | with_reducible apply within_foldl
    | with_reducible apply within_ite
    | (intro (_ : Dev) _; try dsimp only)
    | (intro (_ : _ × Dev) _; try dsimp only)
    | split
    | decide
    | exact Or.inl (by decide)
    | exact Or.inr (by decide)
    | (simp only [EVT_FLAGS, EVT_FLAGS_REACT_IGNORED]; omega)
    | omega
    | dsimp only

theorem setStart_within (i : Slot) (t : Option StartTime) (d : Dev) :
    d.within [.trd, .start] [20] (setStart i t d) := by
  unfold setStart
  try simp only [mk_start]
  repeat' first
    | with_reducible exact within_refl _ _ _
    | assumption
    | with_reducible apply within_comp (setReg_within _ TRD_START_NS _ 20 _ _)
    | with_reducible apply within_comp (setReg_within _ TRD_START_SEC_LO _ 20 _ _)
    | with_reducible apply within_comp (setReg_within _ TRD_START_SEC_HI _ 20 _ _)
    | with_reducible apply within_comp (slotMod_within _ _ _)
    | with_reducible apply within_comp (setSlotState_within _ _ _)
    | with_reducible apply within_foldl_snd
    | with_reducible apply within_foldl
    | with_reducible apply within_ite
    | (intro (_ : Dev) _; try dsimp only)
    | (intro (_ : _ × Dev) _; try dsimp only)
    | with_reducible apply within_comp (toStart_within _ _)
    | split
    | decide
    | exact Or.inl (by decide)
    | exact Or.inr (by decide)
    | (simp only [TRD_START_NS, TRD_START_SEC_HI, TRD_START_SEC_LO]; omega)
    | omega
    | dsimp only

theorem trdArm_within  (d : Dev) :
    d.within [.shadow, .ev, .wal, .chain] [2, 8, 11, 16, 18, 20] (trdArm  d) := by
  unfold trdArm
  try dsimp only
  repeat' first
    | with_reducible exact within_refl _ _ _
    | assumption
    | with_reducible apply within_comp (trdEnter_within _ _ _)
    | with_reducible apply within_foldl_snd
    | with_reducible apply within_foldl
    | with_reducible apply within_ite
    | (intro (_ : Dev) _; try dsimp only)
    | (intro (_ : _ × Dev) _; try dsimp only)
    | split
    | decide
    | exact Or.inl (by decide)
    | exact Or.inr (by decide)
    | omega
    | dsimp only

theorem trdClear_within  (d : Dev) :
    d.within [.shadow, .ev, .wal, .chain] [2, 8, 11, 16, 18, 20] (trdClear  d) := by
  unfold trdClear
  try dsimp only
  repeat' first
    | with_reducible exact within_refl _ _ _
    | assumption
    | with_reducible apply within_comp (trdArm_within _)
    | with_reducible apply within_comp (trdEnter_within _ _ _)
    | with_reducible apply within_foldl_snd
    | with_reducible apply within_foldl
    | with_reducible apply within_ite
    | (intro (_ : Dev) _; try dsimp only)
    | (intro (_ : _ × Dev) _; try dsimp only)
    | split
    | decide
    | exact Or.inl (by decide)
    | exact Or.inr (by decide)
    | omega
    | dsimp only

theorem schedRefused_within (inst : Nat) (d : Dev) :
    d.within [.ev, .flt, .wal, .dof, .mpl] [2, 18, 20] (schedRefused inst d) := by
  unfold schedRefused
  try dsimp only
  repeat' first
    | with_reducible exact within_refl _ _ _
    | assumption
    | with_reducible apply within_comp (put_within _ TRD_STATUS_SCHED_REFUSED _ 20 _ _)
    | with_reducible apply within_comp (faultEvent_within _ _ _ _ _ _ _)
    | with_reducible apply within_foldl_snd
    | with_reducible apply within_foldl
    | with_reducible apply within_ite
    | (intro (_ : Dev) _; try dsimp only)
    | (intro (_ : _ × Dev) _; try dsimp only)
    | split
    | decide
    | exact Or.inl (by decide)
    | exact Or.inr (by decide)
    | (simp only [TRD_STATUS, TRD_STATUS_SCHED_REFUSED]; omega)
    | omega
    | dsimp only

theorem armedEvent_within (i : Slot) (d : Dev) :
    d.within [.shadow, .ev, .wal, .chain] [2, 8, 11, 16, 18, 20] (armedEvent i d) := by
  unfold armedEvent
  try dsimp only
  repeat' first
    | with_reducible exact within_refl _ _ _
    | assumption
    | with_reducible apply within_comp (occur_within _ _ _ _ _)
    | with_reducible apply within_comp (trdArm_within _)
    | with_reducible apply within_foldl_snd
    | with_reducible apply within_foldl
    | with_reducible apply within_ite
    | (intro (_ : Dev) _; try dsimp only)
    | (intro (_ : _ × Dev) _; try dsimp only)
    | split
    | decide
    | exact Or.inl (by decide)
    | exact Or.inr (by decide)
    | omega
    | dsimp only

end Sys2Proof.Machine
end

