-- ==== Sys2Proof/Laws/OfCameraOps.lean ====
section
/-!
SUPPORT. What each operation of Machine/CameraOps.lean may touch: the parts of the device and the blocks of registers.
-/
namespace Sys2Proof.Machine

open Reg

set_option linter.unusedTactic false
set_option linter.unreachableTactic false
set_option linter.unusedSimpArgs false

theorem camMod_within (c : Camera) (f : CamPort → CamPort) (d : Dev) :
    d.within [.isp] [] (d.camMod c f) := by
  unfold Dev.camMod
  try simp only [mk_isp]
  repeat' first
    | with_reducible exact within_refl _ _ _
    | assumption
    | with_reducible apply within_foldl_snd
    | with_reducible apply within_foldl
    | with_reducible apply within_ite
    | (intro (_ : Dev) _; try dsimp only)
    | (intro (_ : _ × Dev) _; try dsimp only)
    | with_reducible apply within_comp (toIsp_within _ _)
    | split
    | decide
    | exact Or.inl (by decide)
    | exact Or.inr (by decide)
    | omega
    | dsimp only

theorem camFlag_within (c : Camera) (f : Field) (code : Nat) (d : Dev)  (hf : f.addr / 0x10000 = 13) :
    d.within [.ev, .wal] [2, 13, 18] (camFlag c f code d) := by
  unfold camFlag
  try dsimp only
  repeat' first
    | with_reducible exact within_refl _ _ _
    | assumption
    | with_reducible apply within_comp (flagEvent_within f _ _ _ 13 _ _ _ _)
    | with_reducible apply within_comp (put_within _ f _ 13 _ _)
    | with_reducible apply within_foldl_snd
    | with_reducible apply within_foldl
    | with_reducible apply within_ite
    | (intro (_ : Dev) _; try dsimp only)
    | (intro (_ : _ × Dev) _; try dsimp only)
    | split
    | decide
    | exact Or.inl (by decide)
    | exact Or.inr (by decide)
    | omega
    | dsimp only

theorem camTrigger_within (c : Camera) (src : Nat) (keep : Bool) (flash : Bool) (now : Nat) (d : Dev) :
    d.within [.ev, .flt, .wal, .dof, .lmp, .isp, .mpl] [2, 13, 18] (camTrigger c src keep flash now d) := by
  unfold camTrigger
  try dsimp only
  repeat' first
    | with_reducible exact within_refl _ _ _
    | assumption
    | with_reducible apply within_comp (count_within _ (ISPC_TRIG_MISS _) _ 13 _ _)
    | with_reducible apply within_comp (camMod_within _ _ _)
    | with_reducible apply within_comp (addWindow_within _ _)
    | with_reducible apply within_comp (camFlag_within _ _ _ _ _)
    | with_reducible apply within_comp (fault_within _ _ _ _ _)
    | with_reducible apply within_foldl_snd
    | with_reducible apply within_foldl
    | with_reducible apply within_ite
    | (intro (_ : Dev) _; try dsimp only)
    | (intro (_ : _ × Dev) _; try dsimp only)
    | split
    | decide
    | exact Or.inl (by decide)
    | exact Or.inr (by decide)
    | (simp only [ISPC_CTRL, ISPC_CTRL_EN, ISPC_EXP_DELAY, ISPC_FLAGS, ISPC_FLAGS_TRIG_MISS, ISPC_FRAME_NO, ISPC_TRIG, ISPC_TRIG_CMP_EN, ISPC_TRIG_MISS, ISPC_TRIG_MODE, ISPC_TRIG_REG_EN]; omega)
    | omega
    | dsimp only

theorem captureNext_within (now : Nat) (d : Dev) :
    d.within [.ev, .flt, .wal, .trd, .dof, .lmp, .isp, .mpl] [2, 13, 18] (captureNext now d) := by
  unfold captureNext
  try dsimp only
  repeat' first
    | with_reducible exact within_refl _ _ _
    | assumption
    | with_reducible apply within_comp (trdMod_within _ _)
    | with_reducible apply within_comp (camTrigger_within _ _ _ _ _ _)
    | with_reducible apply within_foldl_snd
    | with_reducible apply within_foldl
    | with_reducible apply within_ite
    | (intro (_ : Dev) _; try dsimp only)
    | (intro (_ : _ × Dev) _; try dsimp only)
    | split
    | decide
    | exact Or.inl (by decide)
    | exact Or.inr (by decide)
    | omega
    | dsimp only

theorem captureStart_within  (d : Dev) :
    d.within [.ev, .flt, .wal, .trd, .dof, .lmp, .isp, .mpl] [2, 13, 18] (captureStart  d) := by
  unfold captureStart
  try dsimp only
  repeat' first
    | with_reducible exact within_refl _ _ _
    | assumption
    | with_reducible apply within_comp (lmpMod_within _ _)
    | with_reducible apply within_comp (trdMod_within _ _)
    | with_reducible apply within_comp (captureNext_within _ _)
    | with_reducible apply within_foldl_snd
    | with_reducible apply within_foldl
    | with_reducible apply within_ite
    | (intro (_ : Dev) _; try dsimp only)
    | (intro (_ : _ × Dev) _; try dsimp only)
    | split
    | decide
    | exact Or.inl (by decide)
    | exact Or.inr (by decide)
    | omega
    | dsimp only

theorem captureFrame_within (now : Nat) (d : Dev) :
    d.within [.ev, .flt, .wal, .trd, .dof, .lmp, .isp, .mpl] [2, 13, 18] (captureFrame now d) := by
  unfold captureFrame
  try dsimp only
  repeat' first
    | with_reducible exact within_refl _ _ _
    | assumption
    | with_reducible apply within_comp (lmpMod_within _ _)
    | with_reducible apply within_comp (trdMod_within _ _)
    | with_reducible apply within_comp (captureNext_within _ _)
    | with_reducible apply within_foldl_snd
    | with_reducible apply within_foldl
    | with_reducible apply within_ite
    | (intro (_ : Dev) _; try dsimp only)
    | (intro (_ : _ × Dev) _; try dsimp only)
    | split
    | decide
    | exact Or.inl (by decide)
    | exact Or.inr (by decide)
    | omega
    | dsimp only

theorem sendImage_within (tag : Nat) (bs : List Byte) (done : Export) (d : Dev) :
    d.within [.chain] [] (sendImage tag bs done d) := by
  unfold sendImage
  try dsimp only
  repeat' first
    | with_reducible exact within_refl _ _ _
    | assumption
    | with_reducible apply within_comp (sendJob_within _ _ _ _)
    | with_reducible apply within_foldl_snd
    | with_reducible apply within_foldl
    | with_reducible apply within_ite
    | (intro (_ : Dev) _; try dsimp only)
    | (intro (_ : _ × Dev) _; try dsimp only)
    | split
    | decide
    | exact Or.inl (by decide)
    | exact Or.inr (by decide)
    | omega
    | dsimp only

theorem camEnd_within (c : Camera) (f : CamFrame) (now : Nat) (d : Dev) :
    d.within [.ev, .flt, .wal, .trd, .dof, .lmp, .isp, .mpl] [2, 13, 18] (camEnd c f now d) := by
  unfold camEnd
  try dsimp only
  repeat' first
    | with_reducible exact within_refl _ _ _
    | assumption
    | with_reducible apply within_comp (camMod_within _ _ _)
    | with_reducible apply within_comp (captureFrame_within _ _)
    | with_reducible apply within_foldl_snd
    | with_reducible apply within_foldl
    | with_reducible apply within_ite
    | (intro (_ : Dev) _; try dsimp only)
    | (intro (_ : _ × Dev) _; try dsimp only)
    | split
    | decide
    | exact Or.inl (by decide)
    | exact Or.inr (by decide)
    | omega
    | dsimp only

theorem camAdmitted_within  (d : Dev) :
    d.within [] [13] (camAdmitted  d) := by
  unfold camAdmitted
  try dsimp only
  repeat' first
    | with_reducible exact within_refl _ _ _
    | assumption
    | with_reducible apply within_comp (put_within _ (ISPC_STATUS_ADMITTED _) _ 13 _ _)
    | with_reducible apply within_comp (setReg_within _ ISP_STATUS _ 13 _ _)
    | with_reducible apply within_foldl_snd
    | with_reducible apply within_foldl
    | with_reducible apply within_ite
    | (intro (_ : Dev) _; try dsimp only)
    | (intro (_ : _ × Dev) _; try dsimp only)
    | split
    | decide
    | exact Or.inl (by decide)
    | exact Or.inr (by decide)
    | (simp only [ISPC_STATUS, ISPC_STATUS_ADMITTED, ISP_STATUS]; omega)
    | omega
    | dsimp only

theorem linePush_within (b : Nat) (bs : List Byte) (d : Dev) (hb : b < 128) :
    d.within [.ev, .flt, .wal, .creel, .dof, .crl, .mpl] [2, 3, 18] (linePush b bs d).2 := by
  unfold linePush
  try dsimp only
  repeat' first
    | with_reducible exact within_refl _ _ _
    | assumption
    | with_reducible apply within_snd ‹_ = (_, _)›
    | with_reducible apply within_comp (bobOverflow_within _ _ _)
    | with_reducible apply within_comp (bobPush_within _ _ _ _)
    | with_reducible apply within_foldl_snd
    | with_reducible apply within_foldl
    | with_reducible apply within_ite
    | (intro (_ : Dev) _; try dsimp only)
    | (intro (_ : _ × Dev) _; try dsimp only)
    | split
    | decide
    | exact Or.inl (by decide)
    | exact Or.inr (by decide)
    | omega
    | dsimp only

theorem linePop_within (b : Nat) (n : Nat) (k0 : Nat) (d : Dev) (hb : b < 128) :
    d.within [.ev, .wal] [2, 3, 18] (linePop b n k0 d) := by
  induction k0 generalizing  d with
  | zero => exact within_refl _ _ d
  | succ k ih =>
    unfold linePop
    try dsimp only
    repeat' first
      | with_reducible exact within_refl _ _ _
      | assumption
      | with_reducible apply within_comp (ih _)
      | with_reducible apply within_snd ‹_ = (_, _)›
      | with_reducible apply within_comp (bobPop_within _ _ _ _)
      | with_reducible apply within_foldl_snd
      | with_reducible apply within_foldl
      | with_reducible apply within_ite
      | (intro (_ : Dev) _; try dsimp only)
      | (intro (_ : _ × Dev) _; try dsimp only)
      | split
      | decide
      | exact Or.inl (by decide)
      | exact Or.inr (by decide)
      | omega
      | dsimp only

theorem camDrop_within (c : Camera) (f : CamFrame) (cause : Nat) (now : Nat) (d : Dev) :
    d.within [.ev, .flt, .wal, .chain, .trd, .dof, .lmp, .isp, .mpl] [2, 3, 13, 18] (camDrop c f cause now d) := by
  unfold camDrop
  try simp only [mk_isp]
  repeat' first
    | with_reducible exact within_refl _ _ _
    | assumption
    | with_reducible apply within_comp (count_within _ (ISPC_DROPS _) _ 13 _ _)
    | with_reducible apply within_comp (camMod_within _ _ _)
    | with_reducible apply within_comp (camAdmitted_within _)
    | with_reducible apply within_comp (camEnd_within _ _ _ _)
    | with_reducible apply within_comp (camFlag_within _ _ _ _ _)
    | with_reducible apply within_comp (faultD_within _ _ _ _ _ _ _)
    | with_reducible apply within_comp (linePop_within _ _ _ _ _)
    | with_reducible apply within_comp (sendImage_within _ _ _ _)
    | with_reducible apply within_foldl_snd
    | with_reducible apply within_foldl
    | with_reducible apply within_ite
    | (intro (_ : Dev) _; try dsimp only)
    | (intro (_ : _ × Dev) _; try dsimp only)
    | with_reducible apply within_comp (toIsp_within _ _)
    | split
    | decide
    | exact Or.inl (by decide)
    | exact Or.inr (by decide)
    | (simp only [ISPC_DROPS, ISPC_FLAGS, ISPC_FLAGS_DROP]; omega)
    | omega
    | dsimp only

theorem camAbort_within (c : Camera) (now : Nat) (d : Dev) :
    d.within [.ev, .flt, .wal, .chain, .trd, .dof, .lmp, .isp, .mpl] [2, 3, 13, 18] (camAbort c now d) := by
  unfold camAbort
  try dsimp only
  repeat' first
    | with_reducible exact within_refl _ _ _
    | assumption
    | with_reducible apply within_comp (camDrop_within _ _ _ _ _)
    | with_reducible apply within_foldl_snd
    | with_reducible apply within_foldl
    | with_reducible apply within_ite
    | (intro (_ : Dev) _; try dsimp only)
    | (intro (_ : _ × Dev) _; try dsimp only)
    | split
    | decide
    | exact Or.inl (by decide)
    | exact Or.inr (by decide)
    | omega
    | dsimp only

theorem camTagQ_within (e : Option ExpSet) (f : Nat) (d : Dev) :
    d.within [.free] [] (camTagQ e f d).2 := by
  unfold camTagQ
  try dsimp only
  repeat' first
    | with_reducible exact within_refl _ _ _
    | assumption
    | with_reducible apply within_snd ‹_ = (_, _)›
    | with_reducible apply within_comp (fresh_within _ _)
    | with_reducible apply within_foldl_snd
    | with_reducible apply within_foldl
    | with_reducible apply within_ite
    | (intro (_ : Dev) _; try dsimp only)
    | (intro (_ : _ × Dev) _; try dsimp only)
    | split
    | decide
    | exact Or.inl (by decide)
    | exact Or.inr (by decide)
    | omega
    | dsimp only

theorem camSeqStart_within (c : Camera) (d : Dev) :
    d.within [.isp] [13] (camSeqStart c d) := by
  unfold camSeqStart
  try dsimp only
  repeat' first
    | with_reducible exact within_refl _ _ _
    | assumption
    | with_reducible apply within_comp (put_within _ (ISPC_STATUS_EXP_BUSY _) _ 13 _ _)
    | with_reducible apply within_comp (camMod_within _ _ _)
    | with_reducible apply within_foldl_snd
    | with_reducible apply within_foldl
    | with_reducible apply within_ite
    | (intro (_ : Dev) _; try dsimp only)
    | (intro (_ : _ × Dev) _; try dsimp only)
    | split
    | decide
    | exact Or.inl (by decide)
    | exact Or.inr (by decide)
    | (simp only [ISPC_STATUS, ISPC_STATUS_EXP_BUSY]; omega)
    | omega
    | dsimp only

theorem camExposure_within (c : Camera) (n : Nat) (before : Nat × Nat) (after : Nat × Nat) (d : Dev) :
    d.within [.isp] [13] (camExposure c n before after d) := by
  unfold camExposure
  try dsimp only
  repeat' first
    | with_reducible exact within_refl _ _ _
    | assumption
    | with_reducible apply within_comp (put_within _ (ISPC_EXP_TAG_TAG _) _ 13 _ _)
    | with_reducible apply within_comp (camMod_within _ _ _)
    | with_reducible apply within_comp (camSeqStart_within _ _)
    | with_reducible apply within_foldl_snd
    | with_reducible apply within_foldl
    | with_reducible apply within_ite
    | (intro (_ : Dev) _; try dsimp only)
    | (intro (_ : _ × Dev) _; try dsimp only)
    | split
    | decide
    | exact Or.inl (by decide)
    | exact Or.inr (by decide)
    | (simp only [ISPC_EXP_TAG, ISPC_EXP_TAG_TAG]; omega)
    | omega
    | dsimp only

theorem camSeqDone_within (c : Camera) (ok : Bool) (d : Dev) :
    d.within [.ev, .flt, .wal, .dof, .isp, .mpl] [2, 13, 18] (camSeqDone c ok d) := by
  unfold camSeqDone
  try dsimp only
  repeat' first
    | with_reducible exact within_refl _ _ _
    | assumption
    | with_reducible apply within_comp (put_within _ (ISPC_STATUS_EXP_BUSY _) _ 13 _ _)
    | with_reducible apply within_comp (put_within _ (ISP_I2C_STAT_BUSY _) _ 13 _ _)
    | with_reducible apply within_comp (put_within _ (ISP_I2C_STAT_PENDING _) _ 13 _ _)
    | with_reducible apply within_comp (camMod_within _ _ _)
    | with_reducible apply within_comp (camFlag_within _ _ _ _ _)
    | with_reducible apply within_comp (camSeqStart_within _ _)
    | with_reducible apply within_comp (fault_within _ _ _ _ _)
    | with_reducible apply within_foldl_snd
    | with_reducible apply within_foldl
    | with_reducible apply within_ite
    | (intro (_ : Dev) _; try dsimp only)
    | (intro (_ : _ × Dev) _; try dsimp only)
    | split
    | decide
    | exact Or.inl (by decide)
    | exact Or.inr (by decide)
    | (simp only [ISPC_FLAGS, ISPC_FLAGS_EXP_FAIL, ISPC_FLAGS_I2C_ERR, ISPC_FRAME_NO, ISPC_STATUS, ISPC_STATUS_EXP_BUSY, ISP_I2C_STAT, ISP_I2C_STAT_BUSY, ISP_I2C_STAT_PENDING]; omega)
    | omega
    | dsimp only

theorem camAdmit_within (c : Camera) (now : Nat) (k0 : Nat) (d : Dev) :
    d.within [.ev, .flt, .wal, .chain, .trd, .dof, .lmp, .isp, .mpl] [2, 3, 13, 18] (camAdmit c now k0 d).2 := by
  induction k0 generalizing  d with
  | zero => exact within_refl _ _ d
  | succ k ih =>
    unfold camAdmit
    try dsimp only
    repeat' first
      | with_reducible exact within_refl _ _ _
      | assumption
      | with_reducible apply within_snd ‹_ = (_, _)›
      | with_reducible apply within_comp (ih _)
      | with_reducible apply within_comp (camAbort_within _ _ _)
      | with_reducible apply within_foldl_snd
      | with_reducible apply within_foldl
      | with_reducible apply within_ite
      | (intro (_ : Dev) _; try dsimp only)
      | (intro (_ : _ × Dev) _; try dsimp only)
      | split
      | decide
      | exact Or.inl (by decide)
      | exact Or.inr (by decide)
      | omega
      | dsimp only

theorem camVs_within (c : Camera) (now : Nat) (d : Dev) :
    d.within [.shadow, .free, .ev, .flt, .wal, .chain, .trd, .dof, .lmp, .isp, .sec, .mpl] [2, 3, 13, 18] (camVs c now d) := by
  unfold camVs
  try simp only [mk_sec]
  repeat' first
    | with_reducible exact within_refl _ _ _
    | assumption
    | with_reducible apply within_snd ‹_ = (_, _)›
    | with_reducible apply within_comp (setReg_within _ (ISPC_FRAME_NO _) _ 13 _ _)
    | with_reducible apply within_comp (commit_within _ .vsEdge _ _ 13 _ _ _)
    | with_reducible apply within_comp (camMod_within _ _ _)
    | with_reducible apply within_comp (camAdmit_within _ _ _ _)
    | with_reducible apply within_comp (camAdmitted_within _)
    | with_reducible apply within_comp (camDrop_within _ _ _ _ _)
    | with_reducible apply within_comp (camExposure_within _ _ _ _ _)
    | with_reducible apply within_comp (camTagQ_within _ _ _)
    | with_reducible apply within_foldl_snd
    | with_reducible apply within_foldl
    | with_reducible apply within_ite
    | (intro (_ : Dev) _; try dsimp only)
    | (intro (_ : _ × Dev) _; try dsimp only)
    | with_reducible apply within_comp (toSec_within _ _)
    | split
    | decide
    | exact Or.inl (by decide)
    | exact Or.inr (by decide)
    | (simp only [ISPC_CTRL, ISPC_CTRL_EN, ISPC_EXPOSURE, ISPC_FRAME_NO, ISPC_GAIN, ISPC_OUT, ISPC_OUT_FORMAT, ISPC_TRIG, ISPC_TRIG_MODE, TRD_LAYER]; omega)
    | omega
    | dsimp only

theorem setFrame_within (c : Camera) (f : CamFrame) (d : Dev) :
    d.within [.isp] [] (setFrame c f d) := by
  unfold setFrame
  try dsimp only
  repeat' first
    | with_reducible exact within_refl _ _ _
    | assumption
    | with_reducible apply within_comp (camMod_within _ _ _)
    | with_reducible apply within_foldl_snd
    | with_reducible apply within_foldl
    | with_reducible apply within_ite
    | (intro (_ : Dev) _; try dsimp only)
    | (intro (_ : _ × Dev) _; try dsimp only)
    | split
    | decide
    | exact Or.inl (by decide)
    | exact Or.inr (by decide)
    | omega
    | dsimp only

theorem pipeNext_within (now : Nat) (k0 : Nat) (d : Dev) :
    d.within [.ev, .flt, .wal, .chain, .trd, .dof, .lmp, .isp, .mpl] [2, 3, 13, 18] (pipeNext now k0 d) := by
  induction k0 generalizing  d with
  | zero => exact within_refl _ _ d
  | succ k ih =>
    unfold pipeNext
    try simp only [mk_isp]
    repeat' first
      | with_reducible exact within_refl _ _ _
      | assumption
      | with_reducible apply within_comp (ih _)
      | with_reducible apply within_comp (camMod_within _ _ _)
      | with_reducible apply within_comp (camDrop_within _ _ _ _ _)
      | with_reducible apply within_comp (setFrame_within _ _ _)
      | with_reducible apply within_foldl_snd
      | with_reducible apply within_foldl
      | with_reducible apply within_ite
      | (intro (_ : Dev) _; try dsimp only)
      | (intro (_ : _ × Dev) _; try dsimp only)
      | with_reducible apply within_comp (toIsp_within _ _)
      | split
      | decide
      | exact Or.inl (by decide)
      | exact Or.inr (by decide)
      | omega
      | dsimp only

theorem camLine_within (c : Camera) (raw : List Nat) (now : Nat) (d : Dev) :
    d.within [.ev, .flt, .wal, .chain, .trd, .creel, .dof, .lmp, .isp, .crl, .mpl] [2, 3, 13, 18] (camLine c raw now d) := by
  unfold camLine
  try dsimp only
  repeat' first
    | with_reducible exact within_refl _ _ _
    | assumption
    | with_reducible apply within_snd ‹_ = (_, _)›
    | with_reducible apply within_comp (camMod_within _ _ _)
    | with_reducible apply within_comp (camDrop_within _ _ _ _ _)
    | with_reducible apply within_comp (camFlag_within _ _ _ _ _)
    | with_reducible apply within_comp (linePush_within _ _ _ _)
    | with_reducible apply within_comp (pipeNext_within _ _ _)
    | with_reducible apply within_comp (setFrame_within _ _ _)
    | with_reducible apply within_foldl_snd
    | with_reducible apply within_foldl
    | with_reducible apply within_ite
    | (intro (_ : Dev) _; try dsimp only)
    | (intro (_ : _ × Dev) _; try dsimp only)
    | split
    | decide
    | exact Or.inl (by decide)
    | exact Or.inr (by decide)
    | (simp only [ISPC_CTRL, ISPC_CTRL_EN, ISPC_FLAGS, ISPC_FLAGS_OVERFLOW]; omega)
    | omega
    | dsimp only

theorem pipeLine_within (now : Nat) (d : Dev) :
    d.within [.ev, .flt, .wal, .chain, .trd, .dof, .lmp, .isp, .mpl] [2, 3, 13, 18] (pipeLine now d) := by
  unfold pipeLine
  try simp only [mk_isp]
  repeat' first
    | with_reducible exact within_refl _ _ _
    | assumption
    | with_reducible apply within_comp (camAdmitted_within _)
    | with_reducible apply within_comp (linePop_within _ _ _ _ _)
    | with_reducible apply within_comp (pipeNext_within _ _ _)
    | with_reducible apply within_comp (setFrame_within _ _ _)
    | with_reducible apply within_foldl_snd
    | with_reducible apply within_foldl
    | with_reducible apply within_ite
    | (intro (_ : Dev) _; try dsimp only)
    | (intro (_ : _ × Dev) _; try dsimp only)
    | with_reducible apply within_comp (toIsp_within _ _)
    | split
    | decide
    | exact Or.inl (by decide)
    | exact Or.inr (by decide)
    | omega
    | dsimp only

theorem ispEnable_within  (d : Dev) :
    d.within [.ev, .wal] [2, 13, 18] (ispEnable  d) := by
  unfold ispEnable
  try dsimp only
  repeat' first
    | with_reducible exact within_refl _ _ _
    | assumption
    | with_reducible apply within_comp (setReg_within _ ISP_DPC_COUNT _ 13 _ _)
    | with_reducible apply within_comp (flagEvent_within ISP_FLAGS_DPC_ORDER _ _ _ 13 _ _ _ _)
    | with_reducible apply within_foldl_snd
    | with_reducible apply within_foldl
    | with_reducible apply within_ite
    | (intro (_ : Dev) _; try dsimp only)
    | (intro (_ : _ × Dev) _; try dsimp only)
    | split
    | decide
    | exact Or.inl (by decide)
    | exact Or.inr (by decide)
    | (simp only [ISP_DPC_COUNT, ISP_FLAGS, ISP_FLAGS_DPC_ORDER]; omega)
    | omega
    | dsimp only

theorem camDeliver_within (c : Camera) (now : Nat) (d : Dev) :
    d.within [.ev, .flt, .wal, .chain, .trd, .dram, .dof, .lmp, .isp, .mpl, .drc, .trm] [2, 4, 13, 18] (camDeliver c now d) := by
  unfold camDeliver
  try simp only [mk_trm]
  repeat' first
    | with_reducible exact within_refl _ _ _
    | assumption
    | with_reducible apply within_comp (setReg_within _ (ISPC_EXP_TAG _) _ 13 _ _)
    | with_reducible apply within_comp (count_within _ (ISPC_FRAMES _) _ 13 _ _)
    | with_reducible apply within_comp (camMod_within _ _ _)
    | with_reducible apply within_comp (camEnd_within _ _ _ _)
    | with_reducible apply within_comp (dramWrite_within _ _ _)
    | with_reducible apply within_comp (sendImage_within _ _ _ _)
    | with_reducible apply within_foldl_snd
    | with_reducible apply within_foldl
    | with_reducible apply within_ite
    | (intro (_ : Dev) _; try dsimp only)
    | (intro (_ : _ × Dev) _; try dsimp only)
    | with_reducible apply within_comp (toTrm_within _ _)
    | split
    | decide
    | exact Or.inl (by decide)
    | exact Or.inr (by decide)
    | (simp only [ISPC_EXP_TAG, ISPC_FRAMES]; omega)
    | omega
    | dsimp only

theorem camTimeout_within (c : Camera) (now : Nat) (d : Dev) :
    d.within [.ev, .flt, .wal, .chain, .trd, .dof, .lmp, .isp, .mpl] [2, 3, 13, 18] (camTimeout c now d) := by
  unfold camTimeout
  try dsimp only
  repeat' first
    | with_reducible exact within_refl _ _ _
    | assumption
    | with_reducible apply within_comp (camDrop_within _ _ _ _ _)
    | with_reducible apply within_foldl_snd
    | with_reducible apply within_foldl
    | with_reducible apply within_ite
    | (intro (_ : Dev) _; try dsimp only)
    | (intro (_ : _ × Dev) _; try dsimp only)
    | split
    | decide
    | exact Or.inl (by decide)
    | exact Or.inr (by decide)
    | omega
    | dsimp only

theorem camTrigTmo_within (c : Camera) (d : Dev) :
    d.within [.ev, .wal, .isp] [2, 13, 18] (camTrigTmo c d) := by
  unfold camTrigTmo
  try dsimp only
  repeat' first
    | with_reducible exact within_refl _ _ _
    | assumption
    | with_reducible apply within_comp (camMod_within _ _ _)
    | with_reducible apply within_comp (camFlag_within _ _ _ _ _)
    | with_reducible apply within_foldl_snd
    | with_reducible apply within_foldl
    | with_reducible apply within_ite
    | (intro (_ : Dev) _; try dsimp only)
    | (intro (_ : _ × Dev) _; try dsimp only)
    | split
    | decide
    | exact Or.inl (by decide)
    | exact Or.inr (by decide)
    | (simp only [ISPC_FLAGS, ISPC_FLAGS_TRIG_TMO]; omega)
    | omega
    | dsimp only

theorem i2cCmd_within (c : Camera) (d : Dev) :
    d.within [] [13] (i2cCmd c d) := by
  unfold i2cCmd
  try dsimp only
  repeat' first
    | with_reducible exact within_refl _ _ _
    | assumption
    | with_reducible apply within_comp (put_within _ (ISP_I2C_STAT_BUSY _) _ 13 _ _)
    | with_reducible apply within_comp (put_within _ (ISP_I2C_STAT_PENDING _) _ 13 _ _)
    | with_reducible apply within_foldl_snd
    | with_reducible apply within_foldl
    | with_reducible apply within_ite
    | (intro (_ : Dev) _; try dsimp only)
    | (intro (_ : _ × Dev) _; try dsimp only)
    | split
    | decide
    | exact Or.inl (by decide)
    | exact Or.inr (by decide)
    | (simp only [ISP_I2C_STAT, ISP_I2C_STAT_BUSY, ISP_I2C_STAT_PENDING]; omega)
    | omega
    | dsimp only

theorem i2cDone_within (c : Camera) (result : Nat) (rdata : Nat) (d : Dev) :
    d.within [.ev, .flt, .wal, .dof, .isp, .mpl] [2, 13, 18] (i2cDone c result rdata d) := by
  unfold i2cDone
  try dsimp only
  repeat' first
    | with_reducible exact within_refl _ _ _
    | assumption
    | with_reducible apply within_comp (setReg_within _ (ISP_I2C_RDATA _) _ 13 _ _)
    | with_reducible apply within_comp (put_within _ (ISP_I2C_STAT_RESULT _) _ 13 _ _)
    | with_reducible apply within_comp (put_within _ (ISP_I2C_STAT_BUSY _) _ 13 _ _)
    | with_reducible apply within_comp (camFlag_within _ _ _ _ _)
    | with_reducible apply within_comp (camSeqStart_within _ _)
    | with_reducible apply within_comp (fault_within _ _ _ _ _)
    | with_reducible apply within_foldl_snd
    | with_reducible apply within_foldl
    | with_reducible apply within_ite
    | (intro (_ : Dev) _; try dsimp only)
    | (intro (_ : _ × Dev) _; try dsimp only)
    | split
    | decide
    | exact Or.inl (by decide)
    | exact Or.inr (by decide)
    | (simp only [ISPC_FLAGS, ISPC_FLAGS_I2C_ERR, ISP_I2C_RDATA, ISP_I2C_STAT, ISP_I2C_STAT_BUSY, ISP_I2C_STAT_RESULT, ISP_I2C_XFER, ISP_I2C_XFER_RN]; omega)
    | omega
    | dsimp only

theorem camRestart_within  (d : Dev) :
    d.within [] [13] (camRestart  d) := by
  unfold camRestart
  try dsimp only
  repeat' first
    | with_reducible exact within_refl _ _ _
    | assumption
    | with_reducible apply within_comp (setReg_within _ (ISPC_TRIG_MISS _) _ 13 _ _)
    | with_reducible apply within_comp (setReg_within _ (ISPC_DROPS _) _ 13 _ _)
    | with_reducible apply within_comp (setReg_within _ (ISPC_FRAMES _) _ 13 _ _)
    | with_reducible apply within_foldl_snd
    | with_reducible apply within_foldl_mem
    | (intro (v : Dev) x hx; have hx := List.mem_range.1 hx; try dsimp only)
    | with_reducible apply within_foldl
    | with_reducible apply within_ite
    | (intro (_ : Dev) _; try dsimp only)
    | (intro (_ : _ × Dev) _; try dsimp only)
    | split
    | decide
    | exact Or.inl (by decide)
    | exact Or.inr (by decide)
    | (simp only [ISPC_DROPS, ISPC_FRAMES, ISPC_TRIG_MISS]; omega)
    | omega
    | dsimp only

theorem camCapFall_within (now : Nat) (k0 : Nat) (d : Dev) :
    d.within [.ev, .flt, .wal, .chain, .trd, .dof, .lmp, .isp, .mpl] [2, 3, 13, 18] (camCapFall now k0 d) := by
  induction k0 generalizing  d with
  | zero => exact within_refl _ _ d
  | succ k ih =>
    unfold camCapFall
    try dsimp only
    repeat' first
      | with_reducible exact within_refl _ _ _
      | assumption
      | with_reducible apply within_comp (ih _)
      | with_reducible apply within_comp (camAbort_within _ _ _)
      | with_reducible apply within_foldl_snd
      | with_reducible apply within_foldl
      | with_reducible apply within_ite
      | (intro (_ : Dev) _; try dsimp only)
      | (intro (_ : _ × Dev) _; try dsimp only)
      | split
      | decide
      | exact Or.inl (by decide)
      | exact Or.inr (by decide)
      | omega
      | dsimp only

end Sys2Proof.Machine
end

