-- ==== Sys2Proof/Laws/OfMeltOps.lean ====
section
/-!
SUPPORT. What each operation of Machine/MeltOps.lean may touch: the parts of the device and the blocks of registers.
-/
namespace Sys2Proof.Machine

open Reg

set_option linter.unusedTactic false
set_option linter.unreachableTactic false
set_option linter.unusedSimpArgs false

theorem loadTargets_within (table : List Byte) (d : Dev) :
    d.within [.creel] [] (loadTargets table d) := by
  unfold loadTargets
  try dsimp only
  repeat' first
    | with_reducible exact within_refl _ _ _
    | assumption
    | with_reducible apply within_comp (setCreelBytes_within _ _ _)
    | with_reducible apply within_foldl_snd
    | with_reducible apply within_foldl
    | with_reducible apply within_ite
    | (intro (_ : Dev) _; try dsimp only)
    | (intro (_ : _ × Dev) _; try dsimp only)
    | split
    | decide
    | exact Or.inl (by decide)
    | exact Or.inr (by decide)
    | omega
    | dsimp only

theorem mplMod_within (f : Melt → Melt) (d : Dev) :
    d.within [.mpl] [] (d.mplMod f) := by
  unfold Dev.mplMod
  try simp only [mk_mpl]
  repeat' first
    | with_reducible exact within_refl _ _ _
    | assumption
    | with_reducible apply within_foldl_snd
    | with_reducible apply within_foldl
    | with_reducible apply within_ite
    | (intro (_ : Dev) _; try dsimp only)
    | (intro (_ : _ × Dev) _; try dsimp only)
    | with_reducible apply within_comp (toMpl_within _ _)
    | split
    | decide
    | exact Or.inl (by decide)
    | exact Or.inr (by decide)
    | omega
    | dsimp only

theorem mapOpenLayer_within  (d : Dev) :
    d.within [.mpl] [11] (mapOpenLayer  d) := by
  unfold mapOpenLayer
  try dsimp only
  repeat' first
    | with_reducible exact within_refl _ _ _
    | assumption
    | with_reducible apply within_comp (setReg_within _ MPL_MAP_OPEN_LO _ 11 _ _)
    | with_reducible apply within_comp (setReg_within _ MPL_MAP_OPEN_HI _ 11 _ _)
    | with_reducible apply within_comp (put_within _ MPL_STATUS_CUR_BUF _ 11 _ _)
    | with_reducible apply within_comp (mplMod_within _ _)
    | with_reducible apply within_foldl_snd
    | with_reducible apply within_foldl
    | with_reducible apply within_ite
    | (intro (_ : Dev) _; try dsimp only)
    | (intro (_ : _ × Dev) _; try dsimp only)
    | split
    | decide
    | exact Or.inl (by decide)
    | exact Or.inr (by decide)
    | (simp only [MPL_MAP_OPEN_HI, MPL_MAP_OPEN_LO, MPL_STATUS, MPL_STATUS_CUR_BUF]; omega)
    | omega
    | dsimp only

theorem setMapTime_within (t : Nat) (d : Dev) :
    d.within [] [11] (setMapTime t d) := by
  unfold setMapTime
  try dsimp only
  repeat' first
    | with_reducible exact within_refl _ _ _
    | assumption
    | with_reducible apply within_comp (setReg_within _ MPL_MAP_TIME_HI _ 11 _ _)
    | with_reducible apply within_comp (setReg_within _ MPL_MAP_TIME_LO _ 11 _ _)
    | with_reducible apply within_foldl_snd
    | with_reducible apply within_foldl
    | with_reducible apply within_ite
    | (intro (_ : Dev) _; try dsimp only)
    | (intro (_ : _ × Dev) _; try dsimp only)
    | split
    | decide
    | exact Or.inl (by decide)
    | exact Or.inr (by decide)
    | (simp only [MPL_MAP_TIME_HI, MPL_MAP_TIME_LO]; omega)
    | omega
    | dsimp only

theorem mapClear_within  (d : Dev) :
    d.within [.mpl] [11] (mapClear  d) := by
  unfold mapClear
  try dsimp only
  repeat' first
    | with_reducible exact within_refl _ _ _
    | assumption
    | with_reducible apply within_comp (put_within _ MPL_STATUS_CLEARING _ 11 _ _)
    | with_reducible apply within_comp (put_within _ MPL_STATUS_MAP_READY _ 11 _ _)
    | with_reducible apply within_comp (mplMod_within _ _)
    | with_reducible apply within_comp (setMapTime_within _ _)
    | with_reducible apply within_foldl_snd
    | with_reducible apply within_foldl
    | with_reducible apply within_ite
    | (intro (_ : Dev) _; try dsimp only)
    | (intro (_ : _ × Dev) _; try dsimp only)
    | split
    | decide
    | exact Or.inl (by decide)
    | exact Or.inr (by decide)
    | (simp only [MPL_STATUS, MPL_STATUS_CLEARING, MPL_STATUS_MAP_READY]; omega)
    | omega
    | dsimp only

theorem mplFlag_within (n : Station) (f : Field) (code : Nat) (d : Dev)  (hf : f.addr / 0x10000 = 11) :
    d.within [.ev, .wal] [2, 11, 18] (mplFlag n f code d) := by
  unfold mplFlag
  try dsimp only
  repeat' first
    | with_reducible exact within_refl _ _ _
    | assumption
    | with_reducible apply within_comp (flagEvent_within f _ _ _ 11 _ _ _ _)
    | with_reducible apply within_comp (put_within _ f _ 11 _ _)
    | with_reducible apply within_foldl_snd
    | with_reducible apply within_foldl
    | with_reducible apply within_ite
    | (intro (_ : Dev) _; try dsimp only)
    | (intro (_ : _ × Dev) _; try dsimp only)
    | split
    | decide
    | exact Or.inl (by decide)
    | exact Or.inr (by decide)
    | omega
    | dsimp only

theorem mplGlobal_within (f : Field) (code : Nat) (d : Dev) (hf : f.addr / 0x10000 = 11) :
    d.within [.ev, .wal] [2, 11, 18] (mplGlobal f code d) := by
  have h : 160 + d.get MPL_CTRL_EVT_STATION < 256 := by
    have := get_lt d MPL_CTRL_EVT_STATION
    have h16 : (2 : Nat) ^ (MPL_CTRL_EVT_STATION.hi + 1 - MPL_CTRL_EVT_STATION.lo) = 16 := by decide
    omega
  exact within_mono (flagEvent_within f _ _ _ 11 d h hf (Or.inl (by decide))) (by decide) (by decide)

theorem frameBad_within (n : Station) (d : Dev) :
    d.within [.ev, .flt, .wal, .dof, .mpl] [2, 11, 18] (frameBad n d) := by
  unfold frameBad
  try dsimp only
  repeat' first
    | with_reducible exact within_refl _ _ _
    | assumption
    | with_reducible apply within_comp (count_within _ (MPLS_FRAMES_BAD _) _ 11 _ _)
    | with_reducible apply within_comp (mstMod_within _ _ _)
    | with_reducible apply within_comp (fault_within _ _ _ _ _)
    | with_reducible apply within_comp (mplFlag_within _ _ _ _ _)
    | with_reducible apply within_foldl_snd
    | with_reducible apply within_foldl
    | with_reducible apply within_ite
    | (intro (_ : Dev) _; try dsimp only)
    | (intro (_ : _ × Dev) _; try dsimp only)
    | split
    | decide
    | exact Or.inl (by decide)
    | exact Or.inr (by decide)
    | (simp only [MPLS_FLAGS, MPLS_FLAGS_FRAME_BAD, MPLS_FRAMES_BAD]; omega)
    | omega
    | dsimp only

theorem frameCut_within (n : Station) (d : Dev) :
    d.within [.ev, .flt, .wal, .dof, .mpl] [2, 11, 18] (frameCut n d) := by
  unfold frameCut
  try dsimp only
  repeat' first
    | with_reducible exact within_refl _ _ _
    | assumption
    | with_reducible apply within_comp (mstMod_within _ _ _)
    | with_reducible apply within_comp (frameBad_within _ _)
    | with_reducible apply within_foldl_snd
    | with_reducible apply within_foldl
    | with_reducible apply within_ite
    | (intro (_ : Dev) _; try dsimp only)
    | (intro (_ : _ × Dev) _; try dsimp only)
    | split
    | decide
    | exact Or.inl (by decide)
    | exact Or.inr (by decide)
    | omega
    | dsimp only

theorem archFreeze_within (n : Station) (d : Dev) :
    d.within [.ev, .flt, .wal, .dof, .mpl] [2, 11, 18] (archFreeze n d) := by
  unfold archFreeze
  try dsimp only
  repeat' first
    | with_reducible exact within_refl _ _ _
    | assumption
    | with_reducible apply within_comp (put_within _ (MPLS_STATUS_FROZEN _) _ 11 _ _)
    | with_reducible apply within_comp (mstMod_within _ _ _)
    | with_reducible apply within_comp (fault_within _ _ _ _ _)
    | with_reducible apply within_comp (mplFlag_within _ _ _ _ _)
    | with_reducible apply within_foldl_snd
    | with_reducible apply within_foldl
    | with_reducible apply within_ite
    | (intro (_ : Dev) _; try dsimp only)
    | (intro (_ : _ × Dev) _; try dsimp only)
    | split
    | decide
    | exact Or.inl (by decide)
    | exact Or.inr (by decide)
    | (simp only [MPLS_CTRL, MPLS_CTRL_ARCH_EN, MPLS_FLAGS, MPLS_FLAGS_ARCH_FROZE, MPLS_STATUS, MPLS_STATUS_FROZEN]; omega)
    | omega
    | dsimp only

theorem archRead_within (n : Station) (d : Dev) :
    d.within [.chain] [11] (archRead n d) := by
  unfold archRead
  try dsimp only
  repeat' first
    | with_reducible exact within_refl _ _ _
    | assumption
    | with_reducible apply within_comp (put_within _ (MPLS_STATUS_EXPORTING _) _ 11 _ _)
    | with_reducible apply within_comp (put_within _ (MPLS_ARCH_CTRL_READ _) _ 11 _ _)
    | with_reducible apply within_comp (sendImage_within _ _ _ _)
    | with_reducible apply within_foldl_snd
    | with_reducible apply within_foldl_mem
    | (intro (v : Dev) x hx; have hx := List.mem_range.1 hx; try dsimp only)
    | with_reducible apply within_foldl
    | with_reducible apply within_ite
    | (intro (_ : Dev) _; try dsimp only)
    | (intro (_ : _ × Dev) _; try dsimp only)
    | split
    | decide
    | exact Or.inl (by decide)
    | exact Or.inr (by decide)
    | (simp only [MPLS_ARCH_CTRL, MPLS_ARCH_CTRL_READ, MPLS_STATUS, MPLS_STATUS_EXPORTING]; omega)
    | omega
    | dsimp only

theorem archResume_within (n : Station) (d : Dev) :
    d.within [.mpl] [11] (archResume n d) := by
  unfold archResume
  try dsimp only
  repeat' first
    | with_reducible exact within_refl _ _ _
    | assumption
    | with_reducible apply within_comp (put_within _ (MPLS_STATUS_FROZEN _) _ 11 _ _)
    | with_reducible apply within_comp (put_within _ (MPLS_ARCH_CTRL_READ _) _ 11 _ _)
    | with_reducible apply within_comp (mstMod_within _ _ _)
    | with_reducible apply within_foldl_snd
    | with_reducible apply within_foldl
    | with_reducible apply within_ite
    | (intro (_ : Dev) _; try dsimp only)
    | (intro (_ : _ × Dev) _; try dsimp only)
    | split
    | decide
    | exact Or.inl (by decide)
    | exact Or.inr (by decide)
    | (simp only [MPLS_ARCH_CTRL, MPLS_ARCH_CTRL_READ, MPLS_STATUS, MPLS_STATUS_FROZEN]; omega)
    | omega
    | dsimp only

theorem zeroDram_within (a n : Nat) (d : Dev) : d.within [.dram] [] (d.zeroDram a n) := by
  refine within_parts rfl (fun p hp => by cases p <;> first | exact absurd hp (by decide) | exact Eq.refl _) (fun h => ?_) rfl
  simp only [Memory.wf, Bool.and_eq_true] at h ⊢
  exact ⟨⟨⟨h.1.1.1, h.1.1.2⟩, swf_filter _ _ _ h.1.2⟩, h.2⟩

theorem meltScan_within  (d : Dev) :
    d.within [.ev, .flt, .wal, .dof, .mpl] [2, 11, 18] (meltScan  d) := by
  unfold meltScan
  try dsimp only
  repeat' first
    | with_reducible exact within_refl _ _ _
    | assumption
    | with_reducible apply within_comp (setReg_within _ (MPLS_FRAMES_BAD _) _ 11 _ _)
    | with_reducible apply within_comp (setReg_within _ MPL_DESC_DROPS _ 11 _ _)
    | with_reducible apply within_comp (setReg_within _ MPL_MAP_LATE _ 11 _ _)
    | with_reducible apply within_comp (setReg_within _ (MPLS_DESC_CNT _) _ 11 _ _)
    | with_reducible apply within_comp (setReg_within _ MPL_MAP_SKIP _ 11 _ _)
    | with_reducible apply within_comp (mplMod_within _ _)
    | with_reducible apply within_comp (fault_within _ _ _ _ _)
    | with_reducible apply within_comp (mplGlobal_within _ _ _ _)
    | with_reducible apply within_foldl_snd
    | with_reducible apply within_foldl_mem
    | (intro (v : Dev) x hx; have hx := List.mem_range.1 hx; try dsimp only)
    | with_reducible apply within_foldl
    | with_reducible apply within_ite
    | (intro (_ : Dev) _; try dsimp only)
    | (intro (_ : _ × Dev) _; try dsimp only)
    | split
    | decide
    | exact Or.inl (by decide)
    | exact Or.inr (by decide)
    | (simp only [MPLS_DESC_CNT, MPLS_FRAMES_BAD, MPL_DESC_DROPS, MPL_FLAGS, MPL_FLAGS_NOT_READY, MPL_MAP_LATE, MPL_MAP_SKIP, MPL_STATUS, MPL_STATUS_MAP_READY]; omega)
    | omega
    | dsimp only

theorem mapCloseLayer_within  (d : Dev) :
    d.within [.mpl] [] (mapCloseLayer  d) := by
  unfold mapCloseLayer
  try dsimp only
  repeat' first
    | with_reducible exact within_refl _ _ _
    | assumption
    | with_reducible apply within_comp (mplMod_within _ _)
    | with_reducible apply within_foldl_snd
    | with_reducible apply within_foldl
    | with_reducible apply within_ite
    | (intro (_ : Dev) _; try dsimp only)
    | (intro (_ : _ × Dev) _; try dsimp only)
    | split
    | decide
    | exact Or.inl (by decide)
    | exact Or.inr (by decide)
    | omega
    | dsimp only

theorem pyroValue_within (n : Station) (pair : Option PyroPair) (d : Dev) :
    d.within [.ev, .wal] [2, 11, 18] (pyroValue n pair d).2.2 := by
  unfold pyroValue
  try dsimp only
  repeat' first
    | with_reducible exact within_refl _ _ _
    | assumption
    | with_reducible apply within_comp (setReg_within _ (MPLS_RATIO _) _ 11 _ _)
    | with_reducible apply within_comp (mplFlag_within _ _ _ _ _)
    | with_reducible apply within_foldl_snd
    | with_reducible apply within_foldl
    | with_reducible apply within_ite
    | (intro (_ : Dev) _; try dsimp only)
    | (intro (_ : _ × Dev) _; try dsimp only)
    | split
    | decide
    | exact Or.inl (by decide)
    | exact Or.inr (by decide)
    | (simp only [MPLS_CTRL, MPLS_CTRL_EN, MPLS_CTRL_TEMP_EN, MPLS_DARK, MPLS_DARK_D1, MPLS_DARK_D2, MPLS_FLAGS, MPLS_FLAGS_PYRO_RANGE, MPLS_FLAGS_PYRO_SAT, MPLS_GAIN, MPLS_RATIO, MPLS_RATIO_LO, MPLS_RATIO_LO_R_LO, MPLS_RATIO_SH, MPLS_RATIO_SH_RSH, MPLS_SAT_LVL, MPLS_SIG_MIN, MPLS_STATUS, MPLS_STATUS_TRIM_HOLD, MPLS_TEMP]; omega)
    | omega
    | dsimp only

theorem pyroSample_within (n : Station) (tick : Nat) (pair : Option PyroPair) (d : Dev) :
    d.within [.ev, .wal, .mpl] [2, 11, 18] (pyroSample n tick pair d) := by
  unfold pyroSample
  try dsimp only
  repeat' first
    | with_reducible exact within_refl _ _ _
    | assumption
    | with_reducible apply within_snd2 ‹_ = (_, _, _)›
    | with_reducible apply within_snd ‹_ = (_, _)›
    | with_reducible apply within_comp (setReg_within _ (MPLS_TEMP _) _ 11 _ _)
    | with_reducible apply within_comp (mstMod_within _ _ _)
    | with_reducible apply within_comp (pyroValue_within _ _ _)
    | with_reducible apply within_foldl_snd
    | with_reducible apply within_foldl
    | with_reducible apply within_ite
    | (intro (_ : Dev) _; try dsimp only)
    | (intro (_ : _ × Dev) _; try dsimp only)
    | split
    | decide
    | exact Or.inl (by decide)
    | exact Or.inr (by decide)
    | (simp only [MPLS_TEMP]; omega)
    | omega
    | dsimp only

theorem coaxSegment_within (n : Station) (no : Nat) (row : Nat) (rows : Nat) (first : Bool) (last : Bool) (ok : Bool) (bytes : List Byte) (d : Dev) :
    d.within [.shadow, .ev, .flt, .wal, .creel, .dof, .crl, .mpl] [2, 3, 11, 18] (coaxSegment n no row rows first last ok bytes d) := by
  unfold coaxSegment
  try dsimp only
  repeat' first
    | with_reducible exact within_refl _ _ _
    | assumption
    | with_reducible apply within_snd ‹_ = (_, _)›
    | with_reducible apply within_comp (commit_within _ .coaxFrame _ _ 11 _ _ _)
    | with_reducible apply within_comp (mstMod_within _ _ _)
    | with_reducible apply within_comp (bobPop_within _ _ _ _)
    | with_reducible apply within_comp (bobPush_within _ _ _ _)
    | with_reducible apply within_comp (frameCut_within _ _)
    | with_reducible apply within_foldl_snd
    | with_reducible apply within_foldl
    | with_reducible apply within_ite
    | (intro (_ : Dev) _; try dsimp only)
    | (intro (_ : _ × Dev) _; try dsimp only)
    | split
    | decide
    | exact Or.inl (by decide)
    | exact Or.inr (by decide)
    | (simp only [MPLS_AREA_MIN, MPLS_BLACK, MPLS_POOL, MPLS_SPAT]; omega)
    | omega
    | dsimp only

theorem mapCleared_within  (d : Dev) :
    d.within [.dram] [11] (mapCleared  d) := by
  unfold mapCleared
  try dsimp only
  repeat' first
    | with_reducible exact within_refl _ _ _
    | assumption
    | with_reducible apply within_comp (put_within _ MPL_STATUS_CLEARING _ 11 _ _)
    | with_reducible apply within_comp (put_within _ MPL_STATUS_MAP_READY _ 11 _ _)
    | with_reducible apply within_comp (zeroDram_within _ _ _)
    | with_reducible apply within_foldl_snd
    | with_reducible apply within_foldl
    | with_reducible apply within_ite
    | (intro (_ : Dev) _; try dsimp only)
    | (intro (_ : _ × Dev) _; try dsimp only)
    | split
    | decide
    | exact Or.inl (by decide)
    | exact Or.inr (by decide)
    | (simp only [MPL_STATUS, MPL_STATUS_CLEARING, MPL_STATUS_MAP_READY]; omega)
    | omega
    | dsimp only

theorem mapTimeEnd_within  (d : Dev) :
    d.within [.ev, .wal] [2, 11, 18] (mapTimeEnd  d) := by
  unfold mapTimeEnd
  try dsimp only
  repeat' first
    | with_reducible exact within_refl _ _ _
    | assumption
    | with_reducible apply within_comp (put_within _ MPL_STATUS_MAP_READY _ 11 _ _)
    | with_reducible apply within_comp (mplGlobal_within _ _ _ _)
    | with_reducible apply within_foldl_snd
    | with_reducible apply within_foldl
    | with_reducible apply within_ite
    | (intro (_ : Dev) _; try dsimp only)
    | (intro (_ : _ × Dev) _; try dsimp only)
    | split
    | decide
    | exact Or.inl (by decide)
    | exact Or.inr (by decide)
    | (simp only [MPL_FLAGS, MPL_FLAGS_MAP_TIME_END, MPL_STATUS, MPL_STATUS_MAP_READY]; omega)
    | omega
    | dsimp only

theorem applyCell_within (w : CellWrite) (d : Dev) :
    d.within [.ev, .flt, .wal, .dram, .dof, .mpl, .drc] [2, 4, 18] (applyCell w d) := by
  unfold applyCell
  try dsimp only
  repeat' first
    | with_reducible exact within_refl _ _ _
    | assumption
    | with_reducible apply within_comp (dramWrite_within _ _ _)
    | with_reducible apply within_foldl_snd
    | with_reducible apply within_foldl
    | with_reducible apply within_ite
    | (intro (_ : Dev) _; try dsimp only)
    | (intro (_ : _ × Dev) _; try dsimp only)
    | split
    | decide
    | exact Or.inl (by decide)
    | exact Or.inr (by decide)
    | omega
    | dsimp only

theorem lateCell_within  (d : Dev) :
    d.within [.ev, .flt, .wal, .dof, .mpl] [2, 11, 18] (lateCell  d) := by
  unfold lateCell
  try dsimp only
  repeat' first
    | with_reducible exact within_refl _ _ _
    | assumption
    | with_reducible apply within_comp (count_within _ MPL_MAP_LATE _ 11 _ _)
    | with_reducible apply within_comp (mplMod_within _ _)
    | with_reducible apply within_comp (fault_within _ _ _ _ _)
    | with_reducible apply within_comp (mplGlobal_within _ _ _ _)
    | with_reducible apply within_foldl_snd
    | with_reducible apply within_foldl
    | with_reducible apply within_ite
    | (intro (_ : Dev) _; try dsimp only)
    | (intro (_ : _ × Dev) _; try dsimp only)
    | split
    | decide
    | exact Or.inl (by decide)
    | exact Or.inr (by decide)
    | (simp only [MPL_FLAGS, MPL_FLAGS_MAP_LATE, MPL_MAP_LATE]; omega)
    | omega
    | dsimp only

theorem offerCell_within (w : CellWrite) (d : Dev) :
    d.within [.ev, .flt, .wal, .dram, .dof, .mpl, .drc] [2, 4, 11, 18] (offerCell w d) := by
  unfold offerCell
  try dsimp only
  repeat' first
    | with_reducible exact within_refl _ _ _
    | assumption
    | with_reducible apply within_comp (mplMod_within _ _)
    | with_reducible apply within_comp (applyCell_within _ _)
    | with_reducible apply within_comp (lateCell_within _)
    | with_reducible apply within_foldl_snd
    | with_reducible apply within_foldl
    | with_reducible apply within_ite
    | (intro (_ : Dev) _; try dsimp only)
    | (intro (_ : _ × Dev) _; try dsimp only)
    | split
    | decide
    | exact Or.inl (by decide)
    | exact Or.inr (by decide)
    | omega
    | dsimp only

theorem mapTick_within  (d : Dev) :
    d.within [.ev, .flt, .wal, .dram, .dof, .mpl, .drc] [2, 4, 11, 18] (mapTick  d) := by
  unfold mapTick
  try dsimp only
  repeat' first
    | with_reducible exact within_refl _ _ _
    | assumption
    | with_reducible apply within_comp (mplMod_within _ _)
    | with_reducible apply within_comp (applyCell_within _ _)
    | with_reducible apply within_comp (lateCell_within _)
    | with_reducible apply within_comp (setMapTime_within _ _)
    | with_reducible apply within_foldl_snd
    | with_reducible apply within_foldl
    | with_reducible apply within_ite
    | (intro (_ : Dev) _; try dsimp only)
    | (intro (_ : _ × Dev) _; try dsimp only)
    | split
    | decide
    | exact Or.inl (by decide)
    | exact Or.inr (by decide)
    | omega
    | dsimp only

theorem mapWrite_within (n : Station) (pos : Int × Int) (temp : Nat) (mid : Nat) (now : Nat) (d : Dev) :
    d.within [.ev, .flt, .wal, .dram, .dof, .mpl, .drc] [2, 4, 11, 18] (mapWrite n pos temp mid now d) := by
  unfold mapWrite
  try dsimp only
  repeat' first
    | with_reducible exact within_refl _ _ _
    | assumption
    | with_reducible apply within_comp (count_within _ MPL_MAP_SKIP _ 11 _ _)
    | with_reducible apply within_comp (mstMod_within _ _ _)
    | with_reducible apply within_comp (offerCell_within _ _)
    | with_reducible apply within_foldl_snd
    | with_reducible apply within_foldl
    | with_reducible apply within_ite
    | (intro (_ : Dev) _; try dsimp only)
    | (intro (_ : _ × Dev) _; try dsimp only)
    | split
    | decide
    | exact Or.inl (by decide)
    | exact Or.inr (by decide)
    | (simp only [MPL_MAP_SKIP]; omega)
    | omega
    | dsimp only

theorem descDrop_within  (d : Dev) :
    d.within [.ev, .flt, .wal, .dof, .mpl] [2, 11, 18] (descDrop  d) := by
  unfold descDrop
  try dsimp only
  repeat' first
    | with_reducible exact within_refl _ _ _
    | assumption
    | with_reducible apply within_comp (count_within _ MPL_DESC_DROPS _ 11 _ _)
    | with_reducible apply within_comp (mplMod_within _ _)
    | with_reducible apply within_comp (fault_within _ _ _ _ _)
    | with_reducible apply within_comp (mplGlobal_within _ _ _ _)
    | with_reducible apply within_foldl_snd
    | with_reducible apply within_foldl
    | with_reducible apply within_ite
    | (intro (_ : Dev) _; try dsimp only)
    | (intro (_ : _ × Dev) _; try dsimp only)
    | split
    | decide
    | exact Or.inl (by decide)
    | exact Or.inr (by decide)
    | (simp only [MPL_DESC_DROPS, MPL_FLAGS, MPL_FLAGS_DESC_DROP]; omega)
    | omega
    | dsimp only

theorem descDrain_within (n : Station) (d : Dev) :
    d.within [.ev, .flt, .wal, .chain, .dram, .dof, .mpl, .drc] [2, 3, 4, 11, 18] (descDrain n d) := by
  unfold descDrain
  try dsimp only
  repeat' first
    | with_reducible exact within_refl _ _ _
    | assumption
    | with_reducible apply within_snd ‹_ = (_, _)›
    | with_reducible apply within_comp (setReg_within _ MPL_DESC_FILL _ 11 _ _)
    | with_reducible apply within_comp (mplMod_within _ _)
    | with_reducible apply within_comp (bobPop_within _ _ _ _)
    | with_reducible apply within_comp (descDrop_within _)
    | with_reducible apply within_comp (dramWrite_within _ _ _)
    | with_reducible apply within_comp (sendImage_within _ _ _ _)
    | with_reducible apply within_foldl_snd
    | with_reducible apply within_foldl
    | with_reducible apply within_ite
    | (intro (_ : Dev) _; try dsimp only)
    | (intro (_ : _ × Dev) _; try dsimp only)
    | split
    | decide
    | exact Or.inl (by decide)
    | exact Or.inr (by decide)
    | (simp only [MPL_DESC_FILL]; omega)
    | omega
    | dsimp only

theorem descWrite_within (n : Station) (words : List Nat) (info : TickInfo) (d : Dev) :
    d.within [.ev, .flt, .wal, .chain, .creel, .dram, .dof, .crl, .mpl, .drc] [2, 3, 4, 11, 18] (descWrite n words info d) := by
  unfold descWrite
  try dsimp only
  repeat' first
    | with_reducible exact within_refl _ _ _
    | assumption
    | with_reducible apply within_snd ‹_ = (_, _)›
    | with_reducible apply within_comp (count_within _ (MPLS_DESC_CNT _) _ 11 _ _)
    | with_reducible apply within_comp (mstMod_within _ _ _)
    | with_reducible apply within_comp (bobPush_within _ _ _ _)
    | with_reducible apply within_comp (descDrain_within _ _)
    | with_reducible apply within_comp (descDrop_within _)
    | with_reducible apply within_foldl_snd
    | with_reducible apply within_foldl
    | with_reducible apply within_ite
    | (intro (_ : Dev) _; try dsimp only)
    | (intro (_ : _ × Dev) _; try dsimp only)
    | split
    | decide
    | exact Or.inl (by decide)
    | exact Or.inr (by decide)
    | (simp only [MPLS_DESC_CNT]; omega)
    | omega
    | dsimp only

theorem archFrame_within (n : Station) (f : CoaxFrame) (q : Nat) (sat : Bool) (d : Dev) :
    d.within [.ev, .flt, .wal, .dram, .dof, .mpl, .drc] [2, 4, 11, 18] (archFrame n f q sat d) := by
  unfold archFrame
  try dsimp only
  repeat' first
    | with_reducible exact within_refl _ _ _
    | assumption
    | with_reducible apply within_comp (setReg_within _ (MPLS_ARCH_HELD _) _ 11 _ _)
    | with_reducible apply within_comp (count_within _ (MPLS_ARCH_SKIP _) _ 11 _ _)
    | with_reducible apply within_comp (mstMod_within _ _ _)
    | with_reducible apply within_comp (dramWrite_within _ _ _)
    | with_reducible apply within_foldl_snd
    | with_reducible apply within_foldl
    | with_reducible apply within_ite
    | (intro (_ : Dev) _; try dsimp only)
    | (intro (_ : _ × Dev) _; try dsimp only)
    | split
    | decide
    | exact Or.inl (by decide)
    | exact Or.inr (by decide)
    | (simp only [MPLS_ARCH_HELD, MPLS_ARCH_SKIP]; omega)
    | omega
    | dsimp only

theorem meltComplete_within (n : Station) (d : Dev) :
    d.within [.mpl] [] (meltComplete n d) := by
  unfold meltComplete
  try dsimp only
  repeat' first
    | with_reducible exact within_refl _ _ _
    | assumption
    | with_reducible apply within_comp (mstMod_within _ _ _)
    | with_reducible apply within_foldl_snd
    | with_reducible apply within_foldl
    | with_reducible apply within_ite
    | (intro (_ : Dev) _; try dsimp only)
    | (intro (_ : _ × Dev) _; try dsimp only)
    | split
    | decide
    | exact Or.inl (by decide)
    | exact Or.inr (by decide)
    | omega
    | dsimp only

theorem lastDescriptor_within (n : Station) (d : Dev) :
    d.within [.ev, .flt, .wal, .chain, .creel, .dram, .dof, .crl, .mpl, .drc] [2, 3, 4, 11, 18] (lastDescriptor n d) := by
  unfold lastDescriptor
  try dsimp only
  repeat' first
    | with_reducible exact within_refl _ _ _
    | assumption
    | with_reducible apply within_comp (mstMod_within _ _ _)
    | with_reducible apply within_comp (descWrite_within _ _ _ _)
    | with_reducible apply within_comp (frameBad_within _ _)
    | with_reducible apply within_foldl_snd
    | with_reducible apply within_foldl
    | with_reducible apply within_ite
    | (intro (_ : Dev) _; try dsimp only)
    | (intro (_ : _ × Dev) _; try dsimp only)
    | split
    | decide
    | exact Or.inl (by decide)
    | exact Or.inr (by decide)
    | omega
    | dsimp only

end Sys2Proof.Machine
end

