-- ==== Sys2Proof/Laws/OfTapestryOps.lean ====
section
/-!
SUPPORT. What each operation of Machine/TapestryOps.lean may touch: the parts of the device and the blocks of registers.
-/
namespace Sys2Proof.Machine

open Reg

set_option linter.unusedTactic false
set_option linter.unreachableTactic false
set_option linter.unusedSimpArgs false

theorem tapMod_within (f : Tapestry → Tapestry) (d : Dev) :
    d.within [.tap] [] (d.tapMod f) := by
  unfold Dev.tapMod
  try simp only [mk_tap]
  repeat' first
    | with_reducible exact within_refl _ _ _
    | assumption
    | with_reducible apply within_foldl_snd
    | with_reducible apply within_foldl
    | with_reducible apply within_ite
    | (intro (_ : Dev) _; try dsimp only)
    | (intro (_ : _ × Dev) _; try dsimp only)
    | with_reducible apply within_comp (toTap_within _ _)
    | split
    | decide
    | exact Or.inl (by decide)
    | exact Or.inr (by decide)
    | omega
    | dsimp only

theorem planeCommit_within (i : Fin 9) (d : Dev) :
    d.within [] [14] (planeCommit i d) := by
  unfold planeCommit
  try dsimp only
  repeat' first
    | with_reducible exact within_refl _ _ _
    | assumption
    | with_reducible apply within_comp (put_within _ (TAPP_COMMIT_COMMIT _) _ 14 _ _)
    | with_reducible apply within_comp (put_within _ TAP_CUR_COMMIT_COMMIT _ 14 _ _)
    | with_reducible apply within_foldl_snd
    | with_reducible apply within_foldl
    | with_reducible apply within_ite
    | (intro (_ : Dev) _; try dsimp only)
    | (intro (_ : _ × Dev) _; try dsimp only)
    | split
    | decide
    | exact Or.inl (by decide)
    | exact Or.inr (by decide)
    | (simp only [TAPP_COMMIT, TAPP_COMMIT_COMMIT, TAP_CUR_COMMIT, TAP_CUR_COMMIT_COMMIT]; omega)
    | omega
    | dsimp only

theorem planeFlip_within (i : Plane) (d : Dev) :
    d.within [] [14] (planeFlip i d) := by
  unfold planeFlip
  try dsimp only
  repeat' first
    | with_reducible exact within_refl _ _ _
    | assumption
    | with_reducible apply within_comp (put_within _ (TAPP_STATUS_FLIP_PEND _) _ 14 _ _)
    | with_reducible apply within_foldl_snd
    | with_reducible apply within_foldl
    | with_reducible apply within_ite
    | (intro (_ : Dev) _; try dsimp only)
    | (intro (_ : _ × Dev) _; try dsimp only)
    | split
    | decide
    | exact Or.inl (by decide)
    | exact Or.inr (by decide)
    | (simp only [TAPP_STATUS, TAPP_STATUS_FLIP_PEND]; omega)
    | omega
    | dsimp only

theorem vidCtrl_within (v : Nat) (d : Dev) :
    d.within [.ev, .wal, .tap] [2, 14, 18] (vidCtrl v d) := by
  unfold vidCtrl
  try dsimp only
  repeat' first
    | with_reducible exact within_refl _ _ _
    | assumption
    | with_reducible apply within_comp (setReg_within _ TAP_VID_CTRL _ 14 _ _)
    | with_reducible apply within_comp (put_within _ TAP_VID_CTRL_VID_EN _ 14 _ _)
    | with_reducible apply within_comp (writeLocked_within TAP_FLAGS_WRITE_LOCKED _ _ 14 _ _ _ _)
    | with_reducible apply within_comp (tapMod_within _ _)
    | with_reducible apply within_foldl_snd
    | with_reducible apply within_foldl
    | with_reducible apply within_ite
    | (intro (_ : Dev) _; try dsimp only)
    | (intro (_ : _ × Dev) _; try dsimp only)
    | split
    | decide
    | exact Or.inl (by decide)
    | exact Or.inr (by decide)
    | (simp only [TAP_FLAGS, TAP_FLAGS_WRITE_LOCKED, TAP_VID_CTRL, TAP_VID_CTRL_VID_EN]; omega)
    | omega
    | dsimp only

theorem tapPlane_within (i : Plane) (f : TapPlane → TapPlane) (d : Dev) :
    d.within [.tap] [] (d.tapPlane i f) := by
  unfold Dev.tapPlane
  try dsimp only
  repeat' first
    | with_reducible exact within_refl _ _ _
    | assumption
    | with_reducible apply within_comp (tapMod_within _ _)
    | with_reducible apply within_foldl_snd
    | with_reducible apply within_foldl
    | with_reducible apply within_ite
    | (intro (_ : Dev) _; try dsimp only)
    | (intro (_ : _ × Dev) _; try dsimp only)
    | split
    | decide
    | exact Or.inl (by decide)
    | exact Or.inr (by decide)
    | omega
    | dsimp only

theorem holdShots_within  (d : Dev) :
    d.within [.isp] [] (holdShots  d) := by
  unfold holdShots
  try dsimp only
  repeat' first
    | with_reducible exact within_refl _ _ _
    | assumption
    | with_reducible apply within_comp (camMod_within _ _ _)
    | with_reducible apply within_foldl_snd
    | with_reducible apply within_foldl
    | with_reducible apply within_ite
    | (intro (_ : Dev) _; try dsimp only)
    | (intro (_ : _ × Dev) _; try dsimp only)
    | split
    | decide
    | exact Or.inl (by decide)
    | exact Or.inr (by decide)
    | omega
    | dsimp only

theorem tapUnderrun_within (i : Plane) (line : Nat) (d : Dev) :
    d.within [.ev, .flt, .wal, .dof, .mpl, .tap] [2, 3, 14, 18] (tapUnderrun i line d) := by
  unfold tapUnderrun
  try dsimp only
  repeat' first
    | with_reducible exact within_refl _ _ _
    | assumption
    | with_reducible apply within_comp (count_within _ TAP_UNDERRUNS _ 14 _ _)
    | with_reducible apply within_comp (flagEvent_within TAP_FLAGS_UNDERRUN _ _ _ 14 _ _ _ _)
    | with_reducible apply within_comp (tapMod_within _ _)
    | with_reducible apply within_comp (bobUnderrun_within _ _ _)
    | with_reducible apply within_comp (fault_within _ _ _ _ _)
    | with_reducible apply within_foldl_snd
    | with_reducible apply within_foldl
    | with_reducible apply within_ite
    | (intro (_ : Dev) _; try dsimp only)
    | (intro (_ : _ × Dev) _; try dsimp only)
    | split
    | decide
    | exact Or.inl (by decide)
    | exact Or.inr (by decide)
    | (simp only [TAP_FLAGS, TAP_FLAGS_UNDERRUN, TAP_UNDERRUNS]; omega)
    | omega
    | dsimp only

theorem memFrame_within  (d : Dev) :
    d.within [.free, .ev, .flt, .wal, .chain, .dram, .dof, .mpl, .tap, .drc] [2, 4, 18] (memFrame  d) := by
  unfold memFrame
  try simp only [mk_free]
  repeat' first
    | with_reducible exact within_refl _ _ _
    | assumption
    | with_reducible apply within_comp (tapMod_within _ _)
    | with_reducible apply within_comp (dramWrite_within _ _ _)
    | with_reducible apply within_comp (occur_within _ _ _ _ _)
    | with_reducible apply within_comp (sendImage_within _ _ _ _)
    | with_reducible apply within_foldl_snd
    | with_reducible apply within_foldl
    | with_reducible apply within_ite
    | (intro (_ : Dev) _; try dsimp only)
    | (intro (_ : _ × Dev) _; try dsimp only)
    | with_reducible apply within_comp (toFree_within _ _)
    | split
    | decide
    | exact Or.inl (by decide)
    | exact Or.inr (by decide)
    | omega
    | dsimp only

end Sys2Proof.Machine
end

