-- ==== Sys2Proof/Laws/OfTimeOps.lean ====
section
/-!
SUPPORT. What each operation of Machine/TimeOps.lean may touch: the parts of the device and the blocks of registers.
-/
namespace Sys2Proof.Machine

open Reg

set_option linter.unusedTactic false
set_option linter.unreachableTactic false
set_option linter.unusedSimpArgs false

theorem baseMod_within (b : Base) (f : TimeBase → TimeBase) (d : Dev) :
    d.within [.bases] [] (d.baseMod b f) := by
  unfold Dev.baseMod
  try simp only [mk_bases]
  repeat' first
    | with_reducible exact within_refl _ _ _
    | assumption
    | with_reducible apply within_foldl_snd
    | with_reducible apply within_foldl
    | with_reducible apply within_ite
    | (intro (_ : Dev) _; try dsimp only)
    | (intro (_ : _ × Dev) _; try dsimp only)
    | with_reducible apply within_comp (toBases_within _ _)
    | split
    | decide
    | exact Or.inl (by decide)
    | exact Or.inr (by decide)
    | omega
    | dsimp only

theorem setBase_within (b : Base) (st : Nat) (d : Dev) :
    d.within [.bases, .ev, .wal] [2, 6, 18] (setBase b st d) := by
  unfold setBase
  try dsimp only
  repeat' first
    | with_reducible exact within_refl _ _ _
    | assumption
    | with_reducible apply within_comp (setReg_within _ (NETT_STATE _) _ 6 _ _)
    | with_reducible apply within_comp (baseMod_within _ _ _)
    | with_reducible apply within_comp (occur_within _ _ _ _ _)
    | with_reducible apply within_foldl_snd
    | with_reducible apply within_foldl
    | with_reducible apply within_ite
    | (intro (_ : Dev) _; try dsimp only)
    | (intro (_ : _ × Dev) _; try dsimp only)
    | split
    | decide
    | exact Or.inl (by decide)
    | exact Or.inr (by decide)
    | (simp only [NETT_STATE]; omega)
    | omega
    | dsimp only

theorem holdover_within (b : Base) (d : Dev) :
    d.within [.bases, .ev, .flt, .wal, .dof, .mpl] [2, 6, 18] (holdover b d) := by
  unfold holdover
  try dsimp only
  repeat' first
    | with_reducible exact within_refl _ _ _
    | assumption
    | with_reducible apply within_comp (setRegS_within _ (NETT_RATE _) _ 6 _ _)
    | with_reducible apply within_comp (baseMod_within _ _ _)
    | with_reducible apply within_comp (faultEvent_within _ _ _ _ _ _ _)
    | with_reducible apply within_comp (setBase_within _ _ _)
    | with_reducible apply within_foldl_snd
    | with_reducible apply within_foldl
    | with_reducible apply within_ite
    | (intro (_ : Dev) _; try dsimp only)
    | (intro (_ : _ × Dev) _; try dsimp only)
    | split
    | decide
    | exact Or.inl (by decide)
    | exact Or.inr (by decide)
    | (simp only [NETT_RATE]; omega)
    | omega
    | dsimp only

theorem upstreamChanged_within  (d : Dev) :
    d.within [.bases, .ev, .flt, .wal, .dof, .mpl] [2, 6, 18] (upstreamChanged  d) := by
  unfold upstreamChanged
  try dsimp only
  repeat' first
    | with_reducible exact within_refl _ _ _
    | assumption
    | with_reducible apply within_comp (holdover_within _ _)
    | with_reducible apply within_foldl_snd
    | with_reducible apply within_foldl
    | with_reducible apply within_ite
    | (intro (_ : Dev) _; try dsimp only)
    | (intro (_ : _ × Dev) _; try dsimp only)
    | split
    | decide
    | exact Or.inl (by decide)
    | exact Or.inr (by decide)
    | omega
    | dsimp only

theorem delayReq_within (b : Base) (t3 : Int) (d : Dev) :
    d.within [.bases] [6] (delayReq b t3 d) := by
  unfold delayReq
  try dsimp only
  repeat' first
    | with_reducible exact within_refl _ _ _
    | assumption
    | with_reducible apply within_comp (count_within _ (NETP_TX_FRAMES _) _ 6 _ _)
    | with_reducible apply within_comp (baseMod_within _ _ _)
    | with_reducible apply within_foldl_snd
    | with_reducible apply within_foldl
    | with_reducible apply within_ite
    | (intro (_ : Dev) _; try dsimp only)
    | (intro (_ : _ × Dev) _; try dsimp only)
    | split
    | decide
    | exact Or.inl (by decide)
    | exact Or.inr (by decide)
    | (simp only [NETP_TX_FRAMES]; omega)
    | omega
    | dsimp only

theorem ppsTick_within  (d : Dev) :
    d.within [.chain] [] (ppsTick  d) := by
  unfold ppsTick
  try simp only [mk_chain]
  repeat' first
    | with_reducible exact within_refl _ _ _
    | assumption
    | with_reducible apply within_foldl_snd
    | with_reducible apply within_foldl
    | with_reducible apply within_ite
    | (intro (_ : Dev) _; try dsimp only)
    | (intro (_ : _ × Dev) _; try dsimp only)
    | with_reducible apply within_comp (toChain_within _ _)
    | split
    | decide
    | exact Or.inl (by decide)
    | exact Or.inr (by decide)
    | omega
    | dsimp only

theorem netLocked_within  (d : Dev) :
    d.within [.ev, .wal] [2, 6, 18] (netLocked  d) := by
  unfold netLocked
  try dsimp only
  repeat' first
    | with_reducible exact within_refl _ _ _
    | assumption
    | with_reducible apply within_comp (writeLocked_within NET_FLAGS_WRITE_LOCKED _ _ 6 _ _ _ _)
    | with_reducible apply within_foldl_snd
    | with_reducible apply within_foldl
    | with_reducible apply within_ite
    | (intro (_ : Dev) _; try dsimp only)
    | (intro (_ : _ × Dev) _; try dsimp only)
    | split
    | decide
    | exact Or.inl (by decide)
    | exact Or.inr (by decide)
    | (simp only [NET_FLAGS, NET_FLAGS_WRITE_LOCKED]; omega)
    | omega
    | dsimp only

theorem loadBase_within (b : Base) (t : Stamp) (d : Dev) :
    d.within [.bases] [] (loadBase b t d) := by
  unfold loadBase
  try dsimp only
  repeat' first
    | with_reducible exact within_refl _ _ _
    | assumption
    | with_reducible apply within_comp (baseMod_within _ _ _)
    | with_reducible apply within_foldl_snd
    | with_reducible apply within_foldl
    | with_reducible apply within_ite
    | (intro (_ : Dev) _; try dsimp only)
    | (intro (_ : _ × Dev) _; try dsimp only)
    | split
    | decide
    | exact Or.inl (by decide)
    | exact Or.inr (by decide)
    | omega
    | dsimp only

theorem stepRefused_within  (d : Dev) :
    d.within [.ev, .flt, .wal, .dof, .mpl] [2, 18] (stepRefused  d) := by
  unfold stepRefused
  try dsimp only
  repeat' first
    | with_reducible exact within_refl _ _ _
    | assumption
    | with_reducible apply within_comp (faultEvent_within _ _ _ _ _ _ _)
    | with_reducible apply within_foldl_snd
    | with_reducible apply within_foldl
    | with_reducible apply within_ite
    | (intro (_ : Dev) _; try dsimp only)
    | (intro (_ : _ × Dev) _; try dsimp only)
    | split
    | decide
    | exact Or.inl (by decide)
    | exact Or.inr (by decide)
    | omega
    | dsimp only

theorem stepAdd_within (b : Base) (d : Dev) :
    d.within [.bases, .ev, .flt, .wal, .dof, .mpl] [2, 6, 18] (stepAdd b d) := by
  unfold stepAdd
  try dsimp only
  repeat' first
    | with_reducible exact within_refl _ _ _
    | assumption
    | with_reducible apply within_comp (loadBase_within _ _ _)
    | with_reducible apply within_comp (netLocked_within _)
    | with_reducible apply within_comp (stepRefused_within _)
    | with_reducible apply within_foldl_snd
    | with_reducible apply within_foldl
    | with_reducible apply within_ite
    | (intro (_ : Dev) _; try dsimp only)
    | (intro (_ : _ × Dev) _; try dsimp only)
    | split
    | decide
    | exact Or.inl (by decide)
    | exact Or.inr (by decide)
    | omega
    | dsimp only

theorem stepSet_within (b : Base) (d : Dev) :
    d.within [.free, .bases, .ev, .flt, .wal, .dof, .mpl] [2, 6, 18] (stepSet b d) := by
  unfold stepSet
  try dsimp only
  repeat' first
    | with_reducible exact within_refl _ _ _
    | assumption
    | with_reducible apply within_snd ‹_ = (_, _)›
    | with_reducible apply within_comp (fresh_within _ _)
    | with_reducible apply within_comp (loadBase_within _ _ _)
    | with_reducible apply within_comp (netLocked_within _)
    | with_reducible apply within_comp (stepRefused_within _)
    | with_reducible apply within_foldl_snd
    | with_reducible apply within_foldl
    | with_reducible apply within_ite
    | (intro (_ : Dev) _; try dsimp only)
    | (intro (_ : _ × Dev) _; try dsimp only)
    | split
    | decide
    | exact Or.inl (by decide)
    | exact Or.inr (by decide)
    | omega
    | dsimp only

theorem timeBaseCtrl_within (b : Base) (w : Nat) (d : Dev) :
    d.within [.shadow, .bases, .ev, .wal] [2, 6, 18] (timeBaseCtrl b w d) := by
  unfold timeBaseCtrl
  try dsimp only
  repeat' first
    | with_reducible exact within_refl _ _ _
    | assumption
    | with_reducible apply within_comp (setReg_within _ (NETT_STATE _) _ 6 _ _)
    | with_reducible apply within_comp (setReg_within _ (NETT_CTRL _) _ 6 _ _)
    | with_reducible apply within_comp (setReg_within _ (NETT_RATE _) _ 6 _ _)
    | with_reducible apply within_comp (put_within _ (NETT_CTRL_EN _) _ 6 _ _)
    | with_reducible apply within_comp (commit_within _ .sync _ _ 6 _ _ _)
    | with_reducible apply within_comp (baseMod_within _ _ _)
    | with_reducible apply within_comp (netLocked_within _)
    | with_reducible apply within_comp (occur_within _ _ _ _ _)
    | with_reducible apply within_foldl_snd
    | with_reducible apply within_foldl
    | with_reducible apply within_ite
    | (intro (_ : Dev) _; try dsimp only)
    | (intro (_ : _ × Dev) _; try dsimp only)
    | split
    | decide
    | exact Or.inl (by decide)
    | exact Or.inr (by decide)
    | (simp only [NETT_CTRL, NETT_CTRL_EN, NETT_RATE, NETT_STATE]; omega)
    | omega
    | dsimp only

theorem timeCapture_within (b : Base) (tau : Nat) (d : Dev) :
    d.within [] [6] (timeCapture b tau d) := by
  unfold timeCapture
  try dsimp only
  repeat' first
    | with_reducible exact within_refl _ _ _
    | assumption
    | with_reducible apply within_comp (setReg_within _ (NETT_FRAC _) _ 6 _ _)
    | with_reducible apply within_comp (setReg_within _ (NETT_NS _) _ 6 _ _)
    | with_reducible apply within_comp (setReg_within _ (NETT_SEC_LO _) _ 6 _ _)
    | with_reducible apply within_comp (setReg_within _ (NETT_SEC_HI _) _ 6 _ _)
    | with_reducible apply within_foldl_snd
    | with_reducible apply within_foldl
    | with_reducible apply within_ite
    | (intro (_ : Dev) _; try dsimp only)
    | (intro (_ : _ × Dev) _; try dsimp only)
    | split
    | decide
    | exact Or.inl (by decide)
    | exact Or.inr (by decide)
    | (simp only [NETT_FRAC, NETT_NS, NETT_SEC_HI, NETT_SEC_LO]; omega)
    | omega
    | dsimp only

theorem advance_within (n : Nat) (d : Dev) :
    d.within [.bases] [] (advance n d) := by
  unfold advance
  try simp only [mk_bases]
  repeat' first
    | with_reducible exact within_refl _ _ _
    | assumption
    | with_reducible apply within_foldl_snd
    | with_reducible apply within_foldl
    | with_reducible apply within_ite
    | (intro (_ : Dev) _; try dsimp only)
    | (intro (_ : _ × Dev) _; try dsimp only)
    | with_reducible apply within_comp (toBases_within _ _)
    | split
    | decide
    | exact Or.inl (by decide)
    | exact Or.inr (by decide)
    | omega
    | dsimp only

theorem advanceTick_within  (d : Dev) :
    d.within [.bases] [] (advanceTick  d) := by
  unfold advanceTick
  try dsimp only
  repeat' first
    | with_reducible exact within_refl _ _ _
    | assumption
    | with_reducible apply within_comp (advance_within _ _)
    | with_reducible apply within_foldl_snd
    | with_reducible apply within_foldl
    | with_reducible apply within_ite
    | (intro (_ : Dev) _; try dsimp only)
    | (intro (_ : _ × Dev) _; try dsimp only)
    | split
    | decide
    | exact Or.inl (by decide)
    | exact Or.inr (by decide)
    | omega
    | dsimp only

theorem servoState_within (b : Base) (inside : Bool) (d : Dev) :
    d.within [.bases, .ev, .wal] [2, 6, 18] (servoState b inside d) := by
  unfold servoState
  try dsimp only
  repeat' first
    | with_reducible exact within_refl _ _ _
    | assumption
    | with_reducible apply within_comp (baseMod_within _ _ _)
    | with_reducible apply within_comp (setBase_within _ _ _)
    | with_reducible apply within_foldl_snd
    | with_reducible apply within_foldl
    | with_reducible apply within_ite
    | (intro (_ : Dev) _; try dsimp only)
    | (intro (_ : _ × Dev) _; try dsimp only)
    | split
    | decide
    | exact Or.inl (by decide)
    | exact Or.inr (by decide)
    | omega
    | dsimp only

theorem servoSlew_within (b : Base) (off : Int) (d : Dev) :
    d.within [.bases] [6] (servoSlew b off d) := by
  unfold servoSlew
  try dsimp only
  repeat' first
    | with_reducible exact within_refl _ _ _
    | assumption
    | with_reducible apply within_comp (setRegS_within _ (NETT_RATE _) _ 6 _ _)
    | with_reducible apply within_comp (baseMod_within _ _ _)
    | with_reducible apply within_foldl_snd
    | with_reducible apply within_foldl
    | with_reducible apply within_ite
    | (intro (_ : Dev) _; try dsimp only)
    | (intro (_ : _ × Dev) _; try dsimp only)
    | split
    | decide
    | exact Or.inl (by decide)
    | exact Or.inr (by decide)
    | (simp only [NETT_RATE]; omega)
    | omega
    | dsimp only

theorem servo_within (b : Base) (off : Int) (d : Dev) :
    d.within [.shadow, .bases, .ev, .flt, .wal, .dof, .mpl] [2, 6, 18] (servo b off d) := by
  unfold servo
  try dsimp only
  repeat' first
    | with_reducible exact within_refl _ _ _
    | assumption
    | with_reducible apply within_comp (setRegS_within _ (NETT_OFFSET _) _ 6 _ _)
    | with_reducible apply within_comp (commit_within _ .sync _ _ 6 _ _ _)
    | with_reducible apply within_comp (baseMod_within _ _ _)
    | with_reducible apply within_comp (loadBase_within _ _ _)
    | with_reducible apply within_comp (servoSlew_within _ _ _)
    | with_reducible apply within_comp (servoState_within _ _ _)
    | with_reducible apply within_comp (stepRefused_within _)
    | with_reducible apply within_foldl_snd
    | with_reducible apply within_foldl
    | with_reducible apply within_ite
    | (intro (_ : Dev) _; try dsimp only)
    | (intro (_ : _ × Dev) _; try dsimp only)
    | split
    | decide
    | exact Or.inl (by decide)
    | exact Or.inr (by decide)
    | (simp only [NETT_CTRL, NETT_CTRL_STEP_AUTO, NETT_LOCK_THR, NETT_OFFSET, NETT_STEP_THR]; omega)
    | omega
    | dsimp only

theorem syncUsed_within (b : Base) (term : Int) (d : Dev) :
    d.within [.shadow, .bases, .ev, .flt, .wal, .dof, .mpl] [2, 6, 18] (syncUsed b term d) := by
  unfold syncUsed
  try dsimp only
  repeat' first
    | with_reducible exact within_refl _ _ _
    | assumption
    | with_reducible apply within_comp (count_within _ (NETT_SYNCS _) _ 6 _ _)
    | with_reducible apply within_comp (baseMod_within _ _ _)
    | with_reducible apply within_comp (servo_within _ _ _)
    | with_reducible apply within_foldl_snd
    | with_reducible apply within_foldl
    | with_reducible apply within_ite
    | (intro (_ : Dev) _; try dsimp only)
    | (intro (_ : _ × Dev) _; try dsimp only)
    | split
    | decide
    | exact Or.inl (by decide)
    | exact Or.inr (by decide)
    | (simp only [NETT_SYNCS]; omega)
    | omega
    | dsimp only

theorem ptpSync_within (b : Base) (followUp : Bool) (twoStep : Bool) (seqNo : Nat) (t1 : Int) (corr : Int) (t2 : Int) (d : Dev) :
    d.within [.shadow, .bases, .ev, .flt, .wal, .dof, .mpl] [2, 6, 18] (ptpSync b followUp twoStep seqNo t1 corr t2 d) := by
  unfold ptpSync
  try dsimp only
  repeat' first
    | with_reducible exact within_refl _ _ _
    | assumption
    | with_reducible apply within_comp (baseMod_within _ _ _)
    | with_reducible apply within_comp (syncUsed_within _ _ _)
    | with_reducible apply within_foldl_snd
    | with_reducible apply within_foldl
    | with_reducible apply within_ite
    | (intro (_ : Dev) _; try dsimp only)
    | (intro (_ : _ × Dev) _; try dsimp only)
    | split
    | decide
    | exact Or.inl (by decide)
    | exact Or.inr (by decide)
    | omega
    | dsimp only

theorem delayResp_within (b : Base) (seqNo : Nat) (t4 : Int) (corr : Int) (logInterval : Int) (d : Dev) :
    d.within [.bases, .ev, .wal] [2, 6, 18] (delayResp b seqNo t4 corr logInterval d) := by
  unfold delayResp
  try dsimp only
  repeat' first
    | with_reducible exact within_refl _ _ _
    | assumption
    | with_reducible apply within_comp (setRegS_within _ (NETT_MPD _) _ 6 _ _)
    | with_reducible apply within_comp (baseMod_within _ _ _)
    | with_reducible apply within_comp (setBase_within _ _ _)
    | with_reducible apply within_foldl_snd
    | with_reducible apply within_foldl
    | with_reducible apply within_ite
    | (intro (_ : Dev) _; try dsimp only)
    | (intro (_ : _ × Dev) _; try dsimp only)
    | split
    | decide
    | exact Or.inl (by decide)
    | exact Or.inr (by decide)
    | (simp only [NETT_MPD]; omega)
    | omega
    | dsimp only

theorem announce_within (b : Base) (m : List Nat) (d : Dev) :
    d.within [.bases, .ev, .flt, .wal, .dof, .mpl] [2, 6, 18] (announce b m d) := by
  unfold announce
  try dsimp only
  repeat' first
    | with_reducible exact within_refl _ _ _
    | assumption
    | with_reducible apply within_comp (setReg_within _ (NETT_MASTER_HI _) _ 6 _ _)
    | with_reducible apply within_comp (setReg_within _ (NETT_MASTER_LO _) _ 6 _ _)
    | with_reducible apply within_comp (baseMod_within _ _ _)
    | with_reducible apply within_comp (holdover_within _ _)
    | with_reducible apply within_foldl_snd
    | with_reducible apply within_foldl
    | with_reducible apply within_ite
    | (intro (_ : Dev) _; try dsimp only)
    | (intro (_ : _ × Dev) _; try dsimp only)
    | split
    | decide
    | exact Or.inl (by decide)
    | exact Or.inr (by decide)
    | (simp only [NETT_MASTER_HI, NETT_MASTER_LO]; omega)
    | omega
    | dsimp only

theorem ppsOut_within  (d : Dev) :
    d.within [.chain] [] (ppsOut  d) := by
  unfold ppsOut
  try simp only [mk_chain]
  repeat' first
    | with_reducible exact within_refl _ _ _
    | assumption
    | with_reducible apply within_foldl_snd
    | with_reducible apply within_foldl
    | with_reducible apply within_ite
    | (intro (_ : Dev) _; try dsimp only)
    | (intro (_ : _ × Dev) _; try dsimp only)
    | with_reducible apply within_comp (toChain_within _ _)
    | split
    | decide
    | exact Or.inl (by decide)
    | exact Or.inr (by decide)
    | omega
    | dsimp only

end Sys2Proof.Machine
end

