-- ==== Sys2Proof/Laws/OfChainOps.lean ====
section
/-!
SUPPORT. What each operation of Machine/ChainOps.lean may touch: the parts of the device and the blocks of registers.
-/
namespace Sys2Proof.Machine

open Reg

set_option linter.unusedTactic false
set_option linter.unreachableTactic false
set_option linter.unusedSimpArgs false

theorem takeFrame_within (p : Port) (d : Dev) :
    d.within [.ev, .wal, .chain] [2, 3, 18] (takeFrame p d) := by
  unfold takeFrame
  try dsimp only
  repeat' first
    | with_reducible exact within_refl _ _ _
    | assumption
    | with_reducible apply within_snd ‹_ = (_, _)›
    | with_reducible apply within_comp (portMod_within _ _ _)
    | with_reducible apply within_comp (bobPop_within _ _ _ _)
    | with_reducible apply within_foldl_snd
    | with_reducible apply within_foldl
    | with_reducible apply within_ite
    | (intro (_ : Dev) _; try dsimp only)
    | (intro (_ : _ × Dev) _; try dsimp only)
    | split
    | decide
    | exact Or.inl (by decide)
    | exact Or.inr (by decide)
    | omega
    | dsimp only

theorem moveOwn_within (p : Port) (q : Port) (d : Dev) :
    d.within [.chain] [] (moveOwn p q d) := by
  unfold moveOwn
  try dsimp only
  repeat' first
    | with_reducible exact within_refl _ _ _
    | assumption
    | with_reducible apply within_comp (portMod_within _ _ _)
    | with_reducible apply within_foldl_snd
    | with_reducible apply within_foldl
    | with_reducible apply within_ite
    | (intro (_ : Dev) _; try dsimp only)
    | (intro (_ : _ × Dev) _; try dsimp only)
    | split
    | decide
    | exact Or.inl (by decide)
    | exact Or.inr (by decide)
    | omega
    | dsimp only

theorem launchLate_within (p : Port) (d : Dev) :
    d.within [.ev, .flt, .wal, .dof, .mpl] [2, 6, 18] (launchLate p d) := by
  unfold launchLate
  try dsimp only
  repeat' first
    | with_reducible exact within_refl _ _ _
    | assumption
    | with_reducible apply within_comp (count_within _ (NETP_TL_LATE _) _ 6 _ _)
    | with_reducible apply within_comp (faultEvent_within _ _ _ _ _ _ _)
    | with_reducible apply within_foldl_snd
    | with_reducible apply within_foldl
    | with_reducible apply within_ite
    | (intro (_ : Dev) _; try dsimp only)
    | (intro (_ : _ × Dev) _; try dsimp only)
    | split
    | decide
    | exact Or.inl (by decide)
    | exact Or.inr (by decide)
    | (simp only [NETP_TL_LATE]; omega)
    | omega
    | dsimp only

theorem launchShow_within (p : Port) (d : Dev) :
    d.within [] [6] (launchShow p d) := by
  unfold launchShow
  try dsimp only
  repeat' first
    | with_reducible exact within_refl _ _ _
    | assumption
    | with_reducible apply within_comp (setReg_within _ (NETP_TL_STAT _) _ 6 _ _)
    | with_reducible apply within_foldl_snd
    | with_reducible apply within_foldl
    | with_reducible apply within_ite
    | (intro (_ : Dev) _; try dsimp only)
    | (intro (_ : _ × Dev) _; try dsimp only)
    | split
    | decide
    | exact Or.inl (by decide)
    | exact Or.inr (by decide)
    | (simp only [NETP_TL_STAT]; omega)
    | omega
    | dsimp only

theorem portKickN_within (p : Port) (k0 : Nat) (d : Dev) :
    d.within [.ev, .flt, .wal, .chain, .dof, .mpl] [2, 6, 18] (portKickN p k0 d) := by
  induction k0 generalizing  d with
  | zero => exact within_refl _ _ d
  | succ k ih =>
    unfold portKickN
    try dsimp only
    repeat' first
      | with_reducible exact within_refl _ _ _
      | assumption
      | with_reducible apply within_comp (ih _)
      | with_reducible apply within_comp (portMod_within _ _ _)
      | with_reducible apply within_comp (launchLate_within _ _)
      | with_reducible apply within_comp (launchShow_within _ _)
      | with_reducible apply within_foldl_snd
      | with_reducible apply within_foldl
      | with_reducible apply within_ite
      | (intro (_ : Dev) _; try dsimp only)
      | (intro (_ : _ × Dev) _; try dsimp only)
      | split
      | decide
      | exact Or.inl (by decide)
      | exact Or.inr (by decide)
      | omega
      | dsimp only

theorem portKick_within (p : Port) (d : Dev) :
    d.within [.ev, .flt, .wal, .chain, .dof, .mpl] [2, 6, 18] (portKick p d) := by
  unfold portKick
  try dsimp only
  repeat' first
    | with_reducible exact within_refl _ _ _
    | assumption
    | with_reducible apply within_comp (portKickN_within _ _ _)
    | with_reducible apply within_foldl_snd
    | with_reducible apply within_foldl
    | with_reducible apply within_ite
    | (intro (_ : Dev) _; try dsimp only)
    | (intro (_ : _ × Dev) _; try dsimp only)
    | split
    | decide
    | exact Or.inl (by decide)
    | exact Or.inr (by decide)
    | omega
    | dsimp only

theorem portsKick_within  (d : Dev) :
    d.within [.ev, .flt, .wal, .chain, .dof, .mpl] [2, 6, 18] (portsKick  d) := by
  unfold portsKick
  try dsimp only
  repeat' first
    | with_reducible exact within_refl _ _ _
    | assumption
    | with_reducible apply within_comp (portKick_within _ _)
    | with_reducible apply within_foldl_snd
    | with_reducible apply within_foldl
    | with_reducible apply within_ite
    | (intro (_ : Dev) _; try dsimp only)
    | (intro (_ : _ × Dev) _; try dsimp only)
    | split
    | decide
    | exact Or.inl (by decide)
    | exact Or.inr (by decide)
    | omega
    | dsimp only

theorem ringFrame_within (p : Port) (dst : Nat) (d : Dev) :
    d.within [.free, .chain] [] (ringFrame p dst d) := by
  unfold ringFrame
  try simp only [mk_chain]
  repeat' first
    | with_reducible exact within_refl _ _ _
    | assumption
    | with_reducible apply within_snd ‹_ = (_, _)›
    | with_reducible apply within_comp (fresh_within _ _)
    | with_reducible apply within_comp (queueOwn_within _ _ _)
    | with_reducible apply within_foldl_snd
    | with_reducible apply within_foldl
    | with_reducible apply within_ite
    | (intro (_ : Dev) _; try dsimp only)
    | (intro (_ : _ × Dev) _; try dsimp only)
    | with_reducible apply within_comp (toChain_within _ _)
    | split
    | decide
    | exact Or.inl (by decide)
    | exact Or.inr (by decide)
    | omega
    | dsimp only

theorem chainDrop_within (p : Port) (d : Dev) :
    d.within [.ev, .flt, .wal, .chain, .dof, .mpl] [2, 6, 18] (chainDrop p d) := by
  unfold chainDrop
  try dsimp only
  repeat' first
    | with_reducible exact within_refl _ _ _
    | assumption
    | with_reducible apply within_comp (put_within _ NET_FLAGS_DROP _ 6 _ _)
    | with_reducible apply within_comp (portMod_within _ _ _)
    | with_reducible apply within_comp (faultEvent_within _ _ _ _ _ _ _)
    | with_reducible apply within_foldl_snd
    | with_reducible apply within_foldl
    | with_reducible apply within_ite
    | (intro (_ : Dev) _; try dsimp only)
    | (intro (_ : _ × Dev) _; try dsimp only)
    | split
    | decide
    | exact Or.inl (by decide)
    | exact Or.inr (by decide)
    | (simp only [NET_FLAGS, NET_FLAGS_DROP]; omega)
    | omega
    | dsimp only

theorem forward_within (p : Port) (f : Frame) (d : Dev) :
    d.within [.ev, .flt, .wal, .chain, .dof, .mpl] [2, 6, 18] (forward p f d) := by
  unfold forward
  try dsimp only
  repeat' first
    | with_reducible exact within_refl _ _ _
    | assumption
    | with_reducible apply within_comp (count_within _ (NETP_FWD_DROPS _) _ 6 _ _)
    | with_reducible apply within_comp (portMod_within _ _ _)
    | with_reducible apply within_comp (chainDrop_within _ _)
    | with_reducible apply within_foldl_snd
    | with_reducible apply within_foldl
    | with_reducible apply within_ite
    | (intro (_ : Dev) _; try dsimp only)
    | (intro (_ : _ × Dev) _; try dsimp only)
    | split
    | decide
    | exact Or.inl (by decide)
    | exact Or.inr (by decide)
    | (simp only [NETP_FWD_DROPS]; omega)
    | omega
    | dsimp only

theorem consume_within (p : Port) (f : Frame) (d : Dev) :
    d.within [.ev, .flt, .wal, .chain, .creel, .dof, .crl, .mpl] [2, 3, 18] (consume p f d) := by
  unfold consume
  try dsimp only
  repeat' first
    | with_reducible exact within_refl _ _ _
    | assumption
    | with_reducible apply within_snd ‹_ = (_, _)›
    | with_reducible apply within_comp (portMod_within _ _ _)
    | with_reducible apply within_comp (bobPush_within _ _ _ _)
    | with_reducible apply within_foldl_snd
    | with_reducible apply within_foldl
    | with_reducible apply within_ite
    | (intro (_ : Dev) _; try dsimp only)
    | (intro (_ : _ × Dev) _; try dsimp only)
    | split
    | decide
    | exact Or.inl (by decide)
    | exact Or.inr (by decide)
    | omega
    | dsimp only

theorem devReady_within  (d : Dev) :
    d.within [.ev, .wal, .start] [0, 2, 18] (devReady  d) := by
  unfold devReady
  try simp only [mk_start]
  repeat' first
    | with_reducible exact within_refl _ _ _
    | assumption
    | with_reducible apply within_comp (put_within _ DEV_STATE_STATE _ 0 _ _)
    | with_reducible apply within_comp (occur_within _ _ _ _ _)
    | with_reducible apply within_foldl_snd
    | with_reducible apply within_foldl
    | with_reducible apply within_ite
    | (intro (_ : Dev) _; try dsimp only)
    | (intro (_ : _ × Dev) _; try dsimp only)
    | with_reducible apply within_comp (toStart_within _ _)
    | split
    | decide
    | exact Or.inl (by decide)
    | exact Or.inr (by decide)
    | (simp only [DEV_STATE, DEV_STATE_STATE]; omega)
    | omega
    | dsimp only

theorem enumReply_within (tooLong : Bool) (kept : Bool) (conflict : Bool) (seqNo : Nat) (d : Dev) :
    d.within [.chain] [] (enumReply tooLong kept conflict seqNo d) := by
  unfold enumReply
  try dsimp only
  repeat' first
    | with_reducible exact within_refl _ _ _
    | assumption
    | with_reducible apply within_comp (sendReply_within _ _ _ _)
    | with_reducible apply within_foldl_snd
    | with_reducible apply within_foldl
    | with_reducible apply within_ite
    | (intro (_ : Dev) _; try dsimp only)
    | (intro (_ : _ × Dev) _; try dsimp only)
    | split
    | decide
    | exact Or.inl (by decide)
    | exact Or.inr (by decide)
    | omega
    | dsimp only

theorem enumClear_within  (d : Dev) :
    d.within [.bases, .ev, .flt, .wal, .chain, .dof, .mpl] [2, 6, 18] (enumClear  d) := by
  unfold enumClear
  try simp only [mk_flt]
  repeat' first
    | with_reducible exact within_refl _ _ _
    | assumption
    | with_reducible apply within_comp (put_within _ NET_STATUS_REVERSED _ 6 _ _)
    | with_reducible apply within_comp (put_within _ NET_STATUS_N0 _ 6 _ _)
    | with_reducible apply within_comp (setReg_within _ (EVT_FLT_RETRIES _) _ 2 _ _)
    | with_reducible apply within_comp (setReg_within _ EVT_FLT_RETIRED _ 2 _ _)
    | with_reducible apply within_comp (moveOwn_within _ _ _)
    | with_reducible apply within_comp (upstreamChanged_within _)
    | with_reducible apply within_foldl_snd
    | with_reducible apply within_foldl
    | with_reducible apply within_ite
    | (intro (_ : Dev) _; try dsimp only)
    | (intro (_ : _ × Dev) _; try dsimp only)
    | with_reducible apply within_comp (toFlt_within _ _)
    | split
    | decide
    | exact Or.inl (by decide)
    | exact Or.inr (by decide)
    | (simp only [EVT_FLT_RETIRED, EVT_FLT_RETRIES, NET_STATUS, NET_STATUS_N0, NET_STATUS_REVERSED]; omega)
    | omega
    | dsimp only

theorem assign_within (a : Nat) (d : Dev) :
    d.within [.ev, .wal, .start] [0, 2, 6, 18] (assign a d) := by
  unfold assign
  try dsimp only
  repeat' first
    | with_reducible exact within_refl _ _ _
    | assumption
    | with_reducible apply within_comp (put_within _ NET_STATUS_ADDR _ 6 _ _)
    | with_reducible apply within_comp (put_within _ NET_STATUS_ADDR_VALID _ 6 _ _)
    | with_reducible apply within_comp (devReady_within _)
    | with_reducible apply within_comp (occur_within _ _ _ _ _)
    | with_reducible apply within_foldl_snd
    | with_reducible apply within_foldl
    | with_reducible apply within_ite
    | (intro (_ : Dev) _; try dsimp only)
    | (intro (_ : _ × Dev) _; try dsimp only)
    | split
    | decide
    | exact Or.inl (by decide)
    | exact Or.inr (by decide)
    | (simp only [NET_STATUS, NET_STATUS_ADDR, NET_STATUS_ADDR_VALID]; omega)
    | omega
    | dsimp only

theorem enumRequest_within (h : Nat) (seqNo : Nat) (d : Dev) :
    d.within [.bases, .ev, .flt, .wal, .chain, .dof, .start, .mpl] [0, 2, 6, 18] (enumRequest h seqNo d) := by
  unfold enumRequest
  try dsimp only
  repeat' first
    | with_reducible exact within_refl _ _ _
    | assumption
    | with_reducible apply within_comp (put_within _ NET_FLAGS_ENUM_CONFLICT _ 6 _ _)
    | with_reducible apply within_comp (assign_within _ _)
    | with_reducible apply within_comp (enumClear_within _)
    | with_reducible apply within_comp (enumReply_within _ _ _ _ _)
    | with_reducible apply within_comp (faultEvent_within _ _ _ _ _ _ _)
    | with_reducible apply within_comp (forward_within _ _ _)
    | with_reducible apply within_comp (portsKick_within _)
    | with_reducible apply within_foldl_snd
    | with_reducible apply within_foldl
    | with_reducible apply within_ite
    | (intro (_ : Dev) _; try dsimp only)
    | (intro (_ : _ × Dev) _; try dsimp only)
    | split
    | decide
    | exact Or.inl (by decide)
    | exact Or.inr (by decide)
    | (simp only [NET_FLAGS, NET_FLAGS_ENUM_CONFLICT]; omega)
    | omega
    | dsimp only

theorem deviceFrame_within (p : Port) (mac : Nat) (bytes : List Byte) (good : Bool) (d : Dev) :
    d.within [.bases, .ev, .flt, .wal, .chain, .creel, .dof, .start, .crl, .mpl] [0, 2, 3, 6, 18] (deviceFrame p mac bytes good d) := by
  unfold deviceFrame
  try dsimp only
  repeat' first
    | with_reducible exact within_refl _ _ _
    | assumption
    | with_reducible apply within_comp (count_within _ (NETP_RX_FRAMES _) _ 6 _ _)
    | with_reducible apply within_comp (count_within _ (NETP_RX_DROPS _) _ 6 _ _)
    | with_reducible apply within_comp (portMod_within _ _ _)
    | with_reducible apply within_comp (chainDrop_within _ _)
    | with_reducible apply within_comp (consume_within _ _ _)
    | with_reducible apply within_comp (enumRequest_within _ _ _)
    | with_reducible apply within_comp (forward_within _ _ _)
    | with_reducible apply within_comp (portsKick_within _)
    | with_reducible apply within_foldl_snd
    | with_reducible apply within_foldl
    | with_reducible apply within_ite
    | (intro (_ : Dev) _; try dsimp only)
    | (intro (_ : _ × Dev) _; try dsimp only)
    | split
    | decide
    | exact Or.inl (by decide)
    | exact Or.inr (by decide)
    | (simp only [NETP_RX_DROPS, NETP_RX_FRAMES]; omega)
    | omega
    | dsimp only

theorem ringProbe_within (hops : Nat) (d : Dev) :
    d.within [] [6] (ringProbe hops d) := by
  unfold ringProbe
  try dsimp only
  repeat' first
    | with_reducible exact within_refl _ _ _
    | assumption
    | with_reducible apply within_comp (put_within _ NET_STATUS_N1 _ 6 _ _)
    | with_reducible apply within_comp (put_within _ NET_STATUS_RING _ 6 _ _)
    | with_reducible apply within_comp (count_within _ (NETP_RX_FRAMES _) _ 6 _ _)
    | with_reducible apply within_foldl_snd
    | with_reducible apply within_foldl
    | with_reducible apply within_ite
    | (intro (_ : Dev) _; try dsimp only)
    | (intro (_ : _ × Dev) _; try dsimp only)
    | split
    | decide
    | exact Or.inl (by decide)
    | exact Or.inr (by decide)
    | (simp only [NETP_RX_FRAMES, NET_STATUS, NET_STATUS_N1, NET_STATUS_RING]; omega)
    | omega
    | dsimp only

theorem chainLock_within (p : Port) (d : Dev) :
    d.within [.ev, .flt, .wal, .chain, .dof, .mpl] [2, 6, 18] (chainLock p d) := by
  unfold chainLock
  try dsimp only
  repeat' first
    | with_reducible exact within_refl _ _ _
    | assumption
    | with_reducible apply within_comp (put_within _ NET_STATUS_N0 _ 6 _ _)
    | with_reducible apply within_comp (occur_within _ _ _ _ _)
    | with_reducible apply within_comp (portKick_within _ _)
    | with_reducible apply within_comp (recovered_within _ _)
    | with_reducible apply within_foldl_snd
    | with_reducible apply within_foldl
    | with_reducible apply within_ite
    | (intro (_ : Dev) _; try dsimp only)
    | (intro (_ : _ × Dev) _; try dsimp only)
    | split
    | decide
    | exact Or.inl (by decide)
    | exact Or.inr (by decide)
    | (simp only [NET_STATUS, NET_STATUS_N0]; omega)
    | omega
    | dsimp only

theorem pauseFrame_within (p : Port) (quanta : Nat) (d : Dev) :
    d.within [.ev, .flt, .wal, .chain, .dof, .mpl] [2, 6, 18] (pauseFrame p quanta d) := by
  unfold pauseFrame
  try dsimp only
  repeat' first
    | with_reducible exact within_refl _ _ _
    | assumption
    | with_reducible apply within_comp (put_within _ (NETP_STATUS_PAUSED _) _ 6 _ _)
    | with_reducible apply within_comp (portMod_within _ _ _)
    | with_reducible apply within_comp (portKick_within _ _)
    | with_reducible apply within_foldl_snd
    | with_reducible apply within_foldl
    | with_reducible apply within_ite
    | (intro (_ : Dev) _; try dsimp only)
    | (intro (_ : _ × Dev) _; try dsimp only)
    | split
    | decide
    | exact Or.inl (by decide)
    | exact Or.inr (by decide)
    | (simp only [NETP_STATUS, NETP_STATUS_PAUSED]; omega)
    | omega
    | dsimp only

theorem pauseOut_within (p : Port) (quanta : Nat) (d : Dev) :
    d.within [.ev, .flt, .wal, .chain, .dof, .mpl] [2, 6, 18] (pauseOut p quanta d) := by
  unfold pauseOut
  try dsimp only
  repeat' first
    | with_reducible exact within_refl _ _ _
    | assumption
    | with_reducible apply within_comp (portMod_within _ _ _)
    | with_reducible apply within_comp (portKick_within _ _)
    | with_reducible apply within_foldl_snd
    | with_reducible apply within_foldl
    | with_reducible apply within_ite
    | (intro (_ : Dev) _; try dsimp only)
    | (intro (_ : _ × Dev) _; try dsimp only)
    | split
    | decide
    | exact Or.inl (by decide)
    | exact Or.inr (by decide)
    | omega
    | dsimp only

theorem pauseSend_within (p : Port) (d : Dev) :
    d.within [.ev, .flt, .wal, .chain, .dof, .mpl] [2, 6, 18] (pauseSend p d) := by
  unfold pauseSend
  try dsimp only
  repeat' first
    | with_reducible exact within_refl _ _ _
    | assumption
    | with_reducible apply within_comp (put_within _ (NETP_STATUS_PAUSING _) _ 6 _ _)
    | with_reducible apply within_comp (pauseOut_within _ _ _)
    | with_reducible apply within_foldl_snd
    | with_reducible apply within_foldl
    | with_reducible apply within_ite
    | (intro (_ : Dev) _; try dsimp only)
    | (intro (_ : _ × Dev) _; try dsimp only)
    | split
    | decide
    | exact Or.inl (by decide)
    | exact Or.inr (by decide)
    | (simp only [NETP_STATUS, NETP_STATUS_PAUSING]; omega)
    | omega
    | dsimp only

theorem ptpTransit_within (p : Port) (kind : PtpKind) (domain : Nat) (source : Nat) (seqNo : Nat) (rawIn : Int) (rawOut : Int) (corr : Int) (d : Dev) :
    d.within [.bases, .ev, .flt, .wal, .chain, .dof, .mpl] [2, 6, 18] (ptpTransit p kind domain source seqNo rawIn rawOut corr d) := by
  unfold ptpTransit
  try dsimp only
  repeat' first
    | with_reducible exact within_refl _ _ _
    | assumption
    | with_reducible apply within_comp (setReg_within _ (NETP_RES_MAX _) _ 6 _ _)
    | with_reducible apply within_comp (count_within _ (NETP_RX_FRAMES _) _ 6 _ _)
    | with_reducible apply within_comp (count_within _ (NETP_PTP_CORR _) _ 6 _ _)
    | with_reducible apply within_comp (portMod_within _ _ _)
    | with_reducible apply within_comp (delayReq_within _ _ _)
    | with_reducible apply within_comp (portKick_within _ _)
    | with_reducible apply within_foldl_snd
    | with_reducible apply within_foldl
    | with_reducible apply within_ite
    | (intro (_ : Dev) _; try dsimp only)
    | (intro (_ : _ × Dev) _; try dsimp only)
    | split
    | decide
    | exact Or.inl (by decide)
    | exact Or.inr (by decide)
    | (simp only [NETP_PTP_CORR, NETP_RES_MAX, NETP_RX_FRAMES]; omega)
    | omega
    | dsimp only

theorem tlQueue_within (p : Port) (w : Nat) (tau : Nat) (d : Dev) :
    d.within [.ev, .flt, .wal, .chain, .dof, .mpl] [2, 6, 18] (tlQueue p w tau d) := by
  unfold tlQueue
  try dsimp only
  repeat' first
    | with_reducible exact within_refl _ _ _
    | assumption
    | with_reducible apply within_comp (put_within _ NET_FLAGS_TL_FULL _ 6 _ _)
    | with_reducible apply within_comp (portMod_within _ _ _)
    | with_reducible apply within_comp (launchLate_within _ _)
    | with_reducible apply within_comp (launchShow_within _ _)
    | with_reducible apply within_foldl_snd
    | with_reducible apply within_foldl
    | with_reducible apply within_ite
    | (intro (_ : Dev) _; try dsimp only)
    | (intro (_ : _ × Dev) _; try dsimp only)
    | split
    | decide
    | exact Or.inl (by decide)
    | exact Or.inr (by decide)
    | (simp only [NET_FLAGS, NET_FLAGS_TL_FULL]; omega)
    | omega
    | dsimp only

theorem tlFlush_within (p : Port) (d : Dev) :
    d.within [.ev, .flt, .wal, .chain, .dof, .mpl] [2, 6, 18] (tlFlush p d) := by
  unfold tlFlush
  try dsimp only
  repeat' first
    | with_reducible exact within_refl _ _ _
    | assumption
    | with_reducible apply within_comp (portMod_within _ _ _)
    | with_reducible apply within_comp (launchShow_within _ _)
    | with_reducible apply within_comp (portKick_within _ _)
    | with_reducible apply within_foldl_snd
    | with_reducible apply within_foldl
    | with_reducible apply within_ite
    | (intro (_ : Dev) _; try dsimp only)
    | (intro (_ : _ × Dev) _; try dsimp only)
    | split
    | decide
    | exact Or.inl (by decide)
    | exact Or.inr (by decide)
    | omega
    | dsimp only

theorem timedLaunch_within (p : Port) (tau : Nat) (d : Dev) :
    d.within [.chain] [6] (timedLaunch p tau d) := by
  unfold timedLaunch
  try dsimp only
  repeat' first
    | with_reducible exact within_refl _ _ _
    | assumption
    | with_reducible apply within_comp (portMod_within _ _ _)
    | with_reducible apply within_comp (launchShow_within _ _)
    | with_reducible apply within_foldl_snd
    | with_reducible apply within_foldl
    | with_reducible apply within_ite
    | (intro (_ : Dev) _; try dsimp only)
    | (intro (_ : _ × Dev) _; try dsimp only)
    | split
    | decide
    | exact Or.inl (by decide)
    | exact Or.inr (by decide)
    | omega
    | dsimp only

theorem chainTick_within  (d : Dev) :
    d.within [.ev, .flt, .wal, .chain, .dof, .mpl] [2, 6, 18] (chainTick  d) := by
  unfold chainTick
  try dsimp only
  repeat' first
    | with_reducible exact within_refl _ _ _
    | assumption
    | with_reducible apply within_comp (put_within _ (NETP_STATUS_PAUSED _) _ 6 _ _)
    | with_reducible apply within_comp (portsKick_within _)
    | with_reducible apply within_comp (ppsTick_within _)
    | with_reducible apply within_foldl_snd
    | with_reducible apply within_foldl
    | with_reducible apply within_ite
    | (intro (_ : Dev) _; try dsimp only)
    | (intro (_ : _ × Dev) _; try dsimp only)
    | split
    | decide
    | exact Or.inl (by decide)
    | exact Or.inr (by decide)
    | (simp only [NETP_STATUS, NETP_STATUS_PAUSED]; omega)
    | omega
    | dsimp only

end Sys2Proof.Machine
end

