-- ==== Sys2Proof/Laws/OfDramOps.lean ====
section
/-!
SUPPORT. What each operation of Machine/DramOps.lean may touch: the parts of the device and the blocks of registers.
-/
namespace Sys2Proof.Machine

open Reg

set_option linter.unusedTactic false
set_option linter.unreachableTactic false
set_option linter.unusedSimpArgs false

theorem dramDisable_within (w : Nat) (d : Dev) :
    d.within [.drc] [4] (dramDisable w d) := by
  unfold dramDisable
  try dsimp only
  repeat' first
    | with_reducible exact within_refl _ _ _
    | assumption
    | with_reducible apply within_comp (put_within _ DRC_STATUS_TRAINED0 _ 4 _ _)
    | with_reducible apply within_comp (put_within _ DRC_STATUS_TRAINED1 _ 4 _ _)
    | with_reducible apply within_comp (put_within _ DRC_STATUS_STATE _ 4 _ _)
    | with_reducible apply within_comp (setReg_within _ DRC_CTRL _ 4 _ _)
    | with_reducible apply within_comp (put_within _ DRC_CTRL_ENABLE _ 4 _ _)
    | with_reducible apply within_comp (put_within _ DRC_STATUS_FREQ_PEND _ 4 _ _)
    | with_reducible apply within_comp (put_within _ DRC_STATUS_STEP _ 4 _ _)
    | with_reducible apply within_comp (drcMod_within _ _)
    | with_reducible apply within_foldl_snd
    | with_reducible apply within_foldl
    | with_reducible apply within_ite
    | (intro (_ : Dev) _; try dsimp only)
    | (intro (_ : _ × Dev) _; try dsimp only)
    | split
    | decide
    | exact Or.inl (by decide)
    | exact Or.inr (by decide)
    | (simp only [DRC_CTRL, DRC_CTRL_ENABLE, DRC_STATUS, DRC_STATUS_FREQ_PEND, DRC_STATUS_STATE, DRC_STATUS_STEP, DRC_STATUS_TRAINED0, DRC_STATUS_TRAINED1]; omega)
    | omega
    | dsimp only

theorem trainStart_within  (d : Dev) :
    d.within [] [4] (trainStart  d) := by
  unfold trainStart
  try dsimp only
  repeat' first
    | with_reducible exact within_refl _ _ _
    | assumption
    | with_reducible apply within_comp (put_within _ DRC_STATUS_STATE _ 4 _ _)
    | with_reducible apply within_comp (put_within _ DRC_STATUS_STEP _ 4 _ _)
    | with_reducible apply within_foldl_snd
    | with_reducible apply within_foldl
    | with_reducible apply within_ite
    | (intro (_ : Dev) _; try dsimp only)
    | (intro (_ : _ × Dev) _; try dsimp only)
    | split
    | decide
    | exact Or.inl (by decide)
    | exact Or.inr (by decide)
    | (simp only [DRC_STATUS, DRC_STATUS_STATE, DRC_STATUS_STEP]; omega)
    | omega
    | dsimp only

theorem dramEnable_within (w : Nat) (d : Dev) :
    d.within [.ev, .wal, .drc] [2, 4, 18] (dramEnable w d) := by
  unfold dramEnable
  try dsimp only
  repeat' first
    | with_reducible exact within_refl _ _ _
    | assumption
    | with_reducible apply within_comp (setReg_within _ DRC_CTRL _ 4 _ _)
    | with_reducible apply within_comp (setReg_within _ DRC_CAP _ 4 _ _)
    | with_reducible apply within_comp (put_within _ DRC_STATUS_SP _ 4 _ _)
    | with_reducible apply within_comp (writeLocked_within DRC_FLAGS_WRITE_LOCKED _ _ 4 _ _ _ _)
    | with_reducible apply within_comp (drcMod_within _ _)
    | with_reducible apply within_comp (trainStart_within _)
    | with_reducible apply within_foldl_snd
    | with_reducible apply within_foldl
    | with_reducible apply within_ite
    | (intro (_ : Dev) _; try dsimp only)
    | (intro (_ : _ × Dev) _; try dsimp only)
    | split
    | decide
    | exact Or.inl (by decide)
    | exact Or.inr (by decide)
    | (simp only [DRC_CAP, DRC_CTRL, DRC_FLAGS, DRC_FLAGS_WRITE_LOCKED, DRC_STATUS, DRC_STATUS_SP]; omega)
    | omega
    | dsimp only

theorem dramPoll_within  (d : Dev) :
    d.within [.drc] [4] (dramPoll  d) := by
  unfold dramPoll
  try dsimp only
  repeat' first
    | with_reducible exact within_refl _ _ _
    | assumption
    | with_reducible apply within_comp (put_within _ DRC_STATUS_STATE _ 4 _ _)
    | with_reducible apply within_comp (put_within _ DRC_STATUS_FREQ_PEND _ 4 _ _)
    | with_reducible apply within_comp (drcMod_within _ _)
    | with_reducible apply within_comp (trainStart_within _)
    | with_reducible apply within_foldl_snd
    | with_reducible apply within_foldl
    | with_reducible apply within_ite
    | (intro (_ : Dev) _; try dsimp only)
    | (intro (_ : _ × Dev) _; try dsimp only)
    | split
    | decide
    | exact Or.inl (by decide)
    | exact Or.inr (by decide)
    | (simp only [DRC_STATUS, DRC_STATUS_FREQ_PEND, DRC_STATUS_STATE]; omega)
    | omega
    | dsimp only

theorem freqRequest_within (w : Nat) (d : Dev) :
    d.within [.drc] [4] (freqRequest w d) := by
  unfold freqRequest
  try dsimp only
  repeat' first
    | with_reducible exact within_refl _ _ _
    | assumption
    | with_reducible apply within_comp (setReg_within _ DRC_FREQ _ 4 _ _)
    | with_reducible apply within_comp (put_within _ DRC_STATUS_FREQ_PEND _ 4 _ _)
    | with_reducible apply within_comp (dramPoll_within _)
    | with_reducible apply within_foldl_snd
    | with_reducible apply within_foldl
    | with_reducible apply within_ite
    | (intro (_ : Dev) _; try dsimp only)
    | (intro (_ : _ × Dev) _; try dsimp only)
    | split
    | decide
    | exact Or.inl (by decide)
    | exact Or.inr (by decide)
    | (simp only [DRC_FREQ, DRC_STATUS, DRC_STATUS_FREQ_PEND]; omega)
    | omega
    | dsimp only

theorem markDram_within (c : Nat) (sub : Nat) (rank : Nat) (comp : Nat) (d : Dev) (hc : c < 2) :
    d.within [.ev, .flt, .wal, .dof, .mpl] [2, 4, 18] (markDram c sub rank comp d) := by
  unfold markDram
  try dsimp only
  repeat' first
    | with_reducible exact within_refl _ _ _
    | assumption
    | with_reducible apply within_comp (put_within _ DRC_FLAGS_MARK _ 4 _ _)
    | with_reducible apply within_comp (setReg_within _ (DRCC_MARK _) _ 4 _ _)
    | with_reducible apply within_comp (setReg_within _ DRC_ERR_INFO _ 4 _ _)
    | with_reducible apply within_comp (fault_within _ _ _ _ _)
    | with_reducible apply within_comp (occur_within _ _ _ _ _)
    | with_reducible apply within_foldl_snd
    | with_reducible apply within_foldl
    | with_reducible apply within_ite
    | (intro (_ : Dev) _; try dsimp only)
    | (intro (_ : _ × Dev) _; try dsimp only)
    | split
    | decide
    | exact Or.inl (by decide)
    | exact Or.inr (by decide)
    | (simp only [DRCC_MARK, DRC_ERR_INFO, DRC_FLAGS, DRC_FLAGS_MARK]; omega)
    | omega
    | dsimp only

theorem panicLong_within (b : Bobbin) (c : Channel) (us : Nat) (d : Dev) :
    d.within [.ev, .flt, .wal, .dof, .mpl] [2, 4, 18] (panicLong b c us d) := by
  unfold panicLong
  try dsimp only
  repeat' first
    | with_reducible exact within_refl _ _ _
    | assumption
    | with_reducible apply within_comp (setReg_within _ (DRCC_PANIC_US _) _ 4 _ _)
    | with_reducible apply within_comp (setReg_within _ DRC_ERR_INFO _ 4 _ _)
    | with_reducible apply within_comp (put_within _ DRC_FLAGS_PANIC_LONG _ 4 _ _)
    | with_reducible apply within_comp (fault_within _ _ _ _ _)
    | with_reducible apply within_comp (occur_within _ _ _ _ _)
    | with_reducible apply within_foldl_snd
    | with_reducible apply within_foldl_mem
    | (intro (v : Dev) x hx; have hx := List.mem_range.1 hx; try dsimp only)
    | with_reducible apply within_foldl
    | with_reducible apply within_ite
    | (intro (_ : Dev) _; try dsimp only)
    | (intro (_ : _ × Dev) _; try dsimp only)
    | split
    | decide
    | exact Or.inl (by decide)
    | exact Or.inr (by decide)
    | (simp only [DRCC_PANIC_US, DRC_ERR_INFO, DRC_FLAGS, DRC_FLAGS_PANIC_LONG]; omega)
    | omega
    | dsimp only

theorem refresh_within (c : Channel) (rank : Fin 2) (waits : Bool) (d : Dev) :
    d.within [.drc] [] (refresh c rank waits d) := by
  unfold refresh
  try dsimp only
  repeat' first
    | with_reducible exact within_refl _ _ _
    | assumption
    | with_reducible apply within_comp (drcMod_within _ _)
    | with_reducible apply within_foldl_snd
    | with_reducible apply within_foldl
    | with_reducible apply within_ite
    | (intro (_ : Dev) _; try dsimp only)
    | (intro (_ : _ × Dev) _; try dsimp only)
    | split
    | decide
    | exact Or.inl (by decide)
    | exact Or.inr (by decide)
    | omega
    | dsimp only

theorem selfRefresh_within (c : Channel) (d : Dev) :
    d.within [.drc] [4] (selfRefresh c d) := by
  unfold selfRefresh
  try dsimp only
  repeat' first
    | with_reducible exact within_refl _ _ _
    | assumption
    | with_reducible apply within_comp (count_within _ (DRCC_SR_ENTRIES _) _ 4 _ _)
    | with_reducible apply within_comp (drcMod_within _ _)
    | with_reducible apply within_foldl_snd
    | with_reducible apply within_foldl
    | with_reducible apply within_ite
    | (intro (_ : Dev) _; try dsimp only)
    | (intro (_ : _ × Dev) _; try dsimp only)
    | split
    | decide
    | exact Or.inl (by decide)
    | exact Or.inr (by decide)
    | (simp only [DRCC_SR_ENTRIES]; omega)
    | omega
    | dsimp only

theorem freqDone_within  (d : Dev) :
    d.within [.ev, .wal, .drc] [2, 4, 18] (freqDone  d) := by
  unfold freqDone
  try dsimp only
  repeat' first
    | with_reducible exact within_refl _ _ _
    | assumption
    | with_reducible apply within_comp (put_within _ DRC_STATUS_STATE _ 4 _ _)
    | with_reducible apply within_comp (put_within _ DRC_STATUS_SP _ 4 _ _)
    | with_reducible apply within_comp (drcMod_within _ _)
    | with_reducible apply within_comp (occur_within _ _ _ _ _)
    | with_reducible apply within_comp (trainStart_within _)
    | with_reducible apply within_foldl_snd
    | with_reducible apply within_foldl
    | with_reducible apply within_ite
    | (intro (_ : Dev) _; try dsimp only)
    | (intro (_ : _ × Dev) _; try dsimp only)
    | split
    | decide
    | exact Or.inl (by decide)
    | exact Or.inr (by decide)
    | (simp only [DRC_STATUS, DRC_STATUS_SP, DRC_STATUS_STATE]; omega)
    | omega
    | dsimp only

theorem dramManagement_within (mr4 : List (Word × Bool)) (d : Dev) :
    d.within [.ev, .wal, .drc] [2, 4, 18] (dramManagement mr4 d) := by
  unfold dramManagement
  try dsimp only
  repeat' first
    | with_reducible exact within_refl _ _ _
    | assumption
    | with_reducible apply within_comp (setReg_within _ (DRCC_MR4 _) _ 4 _ _)
    | with_reducible apply within_comp (drcMod_within _ _)
    | with_reducible apply within_comp (occur_within _ _ _ _ _)
    | with_reducible apply within_foldl_snd
    | with_reducible apply within_foldl_mem
    | (intro (v : Dev) x hx; have hx := List.mem_range.1 hx; try dsimp only)
    | with_reducible apply within_foldl
    | with_reducible apply within_ite
    | (intro (_ : Dev) _; try dsimp only)
    | (intro (_ : _ × Dev) _; try dsimp only)
    | split
    | decide
    | exact Or.inl (by decide)
    | exact Or.inr (by decide)
    | (simp only [DRCC_MR4]; omega)
    | omega
    | dsimp only

end Sys2Proof.Machine
end

