-- ==== Sys2Proof/Laws/OfFeedbackOps.lean ====
section
/-!
SUPPORT. What each operation of Machine/FeedbackOps.lean may touch: the parts of the device and the blocks of registers.
-/
namespace Sys2Proof.Machine

open Reg

set_option linter.unusedTactic false
set_option linter.unreachableTactic false
set_option linter.unusedSimpArgs false

theorem pinFlag_within (c : PinChannel) (f : Field) (code : Nat) (d : Dev)  (hf : f.addr / 0x10000 = 9) :
    d.within [.ev, .wal] [2, 9, 18] (pinFlag c f code d) := by
  unfold pinFlag
  try dsimp only
  repeat' first
    | with_reducible exact within_refl _ _ _
    | assumption
    | with_reducible apply within_comp (flagEvent_within f _ _ _ 9 _ _ _ _)
    | with_reducible apply within_comp (put_within _ f _ 9 _ _)
    | with_reducible apply within_foldl_snd
    | with_reducible apply within_foldl
    | with_reducible apply within_ite
    | (intro (_ : Dev) _; try dsimp only)
    | (intro (_ : _ × Dev) _; try dsimp only)
    | split
    | decide
    | exact Or.inl (by decide)
    | exact Or.inr (by decide)
    | omega
    | dsimp only

theorem cmpCtrl_within (c : PinChannel) (v : Nat) (d : Dev) :
    d.within [.ev, .wal] [2, 9, 18] (cmpCtrl c v d) := by
  unfold cmpCtrl
  try dsimp only
  repeat' first
    | with_reducible exact within_refl _ _ _
    | assumption
    | with_reducible apply within_comp (setReg_within _ (FBK_CMP_SKIPPED _) _ 9 _ _)
    | with_reducible apply within_comp (setReg_within _ (FBK_CMP_HITS _) _ 9 _ _)
    | with_reducible apply within_comp (setReg_within _ (FBK_CMP_CTRL _) _ 9 _ _)
    | with_reducible apply within_comp (pinFlag_within _ _ _ _ _)
    | with_reducible apply within_foldl_snd
    | with_reducible apply within_foldl
    | with_reducible apply within_ite
    | (intro (_ : Dev) _; try dsimp only)
    | (intro (_ : _ × Dev) _; try dsimp only)
    | split
    | decide
    | exact Or.inl (by decide)
    | exact Or.inr (by decide)
    | (simp only [FBK_CMP_CTRL, FBK_CMP_HITS, FBK_CMP_SKIPPED, FBK_FLAGS, FBK_FLAGS_WRITE_LOCKED]; omega)
    | omega
    | dsimp only

theorem pinMod_within (c : PinChannel) (f : PinState → PinState) (d : Dev) :
    d.within [.pins] [] (d.pinMod c f) := by
  unfold Dev.pinMod
  try simp only [mk_pins]
  repeat' first
    | with_reducible exact within_refl _ _ _
    | assumption
    | with_reducible apply within_foldl_snd
    | with_reducible apply within_foldl
    | with_reducible apply within_ite
    | (intro (_ : Dev) _; try dsimp only)
    | (intro (_ : _ × Dev) _; try dsimp only)
    | with_reducible apply within_comp (toPins_within _ _)
    | split
    | decide
    | exact Or.inl (by decide)
    | exact Or.inr (by decide)
    | omega
    | dsimp only

theorem cmpBehind_within (c : PinChannel) (d : Dev) :
    d.within [.ev, .wal] [2, 9, 18] (cmpBehind c d) := by
  unfold cmpBehind
  try dsimp only
  repeat' first
    | with_reducible exact within_refl _ _ _
    | assumption
    | with_reducible apply within_comp (setRegS_within _ (FBK_CMP_VAL _) _ 9 _ _)
    | with_reducible apply within_comp (count_within _ (FBK_CMP_SKIPPED _) _ 9 _ _)
    | with_reducible apply within_comp (put_within _ (FBK_CMP_CTRL_ARMED _) _ 9 _ _)
    | with_reducible apply within_comp (pinFlag_within _ _ _ _ _)
    | with_reducible apply within_foldl_snd
    | with_reducible apply within_foldl
    | with_reducible apply within_ite
    | (intro (_ : Dev) _; try dsimp only)
    | (intro (_ : _ × Dev) _; try dsimp only)
    | split
    | decide
    | exact Or.inl (by decide)
    | exact Or.inr (by decide)
    | (simp only [FBK_CMP_CTRL, FBK_CMP_CTRL_ARMED, FBK_CMP_SKIPPED, FBK_CMP_SPACING, FBK_CMP_VAL, FBK_FLAGS, FBK_FLAGS_COMPARE_BEHIND]; omega)
    | omega
    | dsimp only

theorem cmpReaim_within (c : PinChannel) (d : Dev) :
    d.within [.ev, .wal, .pins] [2, 9, 18] (cmpReaim c d) := by
  unfold cmpReaim
  try dsimp only
  repeat' first
    | with_reducible exact within_refl _ _ _
    | assumption
    | with_reducible apply within_comp (pinMod_within _ _ _)
    | with_reducible apply within_comp (cmpBehind_within _ _)
    | with_reducible apply within_foldl_snd
    | with_reducible apply within_foldl
    | with_reducible apply within_ite
    | (intro (_ : Dev) _; try dsimp only)
    | (intro (_ : _ × Dev) _; try dsimp only)
    | split
    | decide
    | exact Or.inl (by decide)
    | exact Or.inr (by decide)
    | omega
    | dsimp only

theorem cmpVal_within (c : PinChannel) (v : Nat) (d : Dev) :
    d.within [.ev, .wal, .pins] [2, 9, 18] (cmpVal c v d) := by
  unfold cmpVal
  try dsimp only
  repeat' first
    | with_reducible exact within_refl _ _ _
    | assumption
    | with_reducible apply within_comp (setReg_within _ (FBK_CMP_VAL _) _ 9 _ _)
    | with_reducible apply within_comp (cmpReaim_within _ _)
    | with_reducible apply within_comp (pinFlag_within _ _ _ _ _)
    | with_reducible apply within_foldl_snd
    | with_reducible apply within_foldl
    | with_reducible apply within_ite
    | (intro (_ : Dev) _; try dsimp only)
    | (intro (_ : _ × Dev) _; try dsimp only)
    | split
    | decide
    | exact Or.inl (by decide)
    | exact Or.inr (by decide)
    | (simp only [FBK_CMP_VAL, FBK_FLAGS, FBK_FLAGS_WRITE_LOCKED]; omega)
    | omega
    | dsimp only

theorem setPinQ_within (c : PinChannel) (q : Nat) (d : Dev) :
    d.within [] [9] (setPinQ c q d) := by
  unfold setPinQ
  try dsimp only
  repeat' first
    | with_reducible exact within_refl _ _ _
    | assumption
    | with_reducible apply within_comp (setReg_within _ (FBK_QUAL _) _ 9 _ _)
    | with_reducible apply within_foldl_snd
    | with_reducible apply within_foldl
    | with_reducible apply within_ite
    | (intro (_ : Dev) _; try dsimp only)
    | (intro (_ : _ × Dev) _; try dsimp only)
    | split
    | decide
    | exact Or.inl (by decide)
    | exact Or.inr (by decide)
    | (simp only [FBK_QUAL]; omega)
    | omega
    | dsimp only

theorem pinEnable_within (c : PinChannel) (v : Nat) (d : Dev) :
    d.within [] [9] (pinEnable c v d) := by
  unfold pinEnable
  try dsimp only
  repeat' first
    | with_reducible exact within_refl _ _ _
    | assumption
    | with_reducible apply within_comp (setReg_within _ (FBK_EN _) _ 9 _ _)
    | with_reducible apply within_comp (setReg_within _ (FBK_QUAL _) _ 9 _ _)
    | with_reducible apply within_foldl_snd
    | with_reducible apply within_foldl
    | with_reducible apply within_ite
    | (intro (_ : Dev) _; try dsimp only)
    | (intro (_ : _ × Dev) _; try dsimp only)
    | split
    | decide
    | exact Or.inl (by decide)
    | exact Or.inr (by decide)
    | (simp only [FBK_EN, FBK_QUAL]; omega)
    | omega
    | dsimp only

theorem cmpOwn_within (c : PinChannel) (cam : Nat) (spacing : Nat) (positive : Bool) (d : Dev) :
    d.within [.pins] [9] (cmpOwn c cam spacing positive d) := by
  unfold cmpOwn
  try dsimp only
  repeat' first
    | with_reducible exact within_refl _ _ _
    | assumption
    | with_reducible apply within_comp (setReg_within _ (FBK_CMP_SKIPPED _) _ 9 _ _)
    | with_reducible apply within_comp (setReg_within _ (FBK_CMP_CTRL _) _ 9 _ _)
    | with_reducible apply within_comp (setReg_within _ (FBK_CMP_SPACING _) _ 9 _ _)
    | with_reducible apply within_comp (setRegS_within _ (FBK_CMP_VAL _) _ 9 _ _)
    | with_reducible apply within_comp (setReg_within _ (FBK_CMP_HITS _) _ 9 _ _)
    | with_reducible apply within_comp (pinMod_within _ _ _)
    | with_reducible apply within_foldl_snd
    | with_reducible apply within_foldl
    | with_reducible apply within_ite
    | (intro (_ : Dev) _; try dsimp only)
    | (intro (_ : _ × Dev) _; try dsimp only)
    | split
    | decide
    | exact Or.inl (by decide)
    | exact Or.inr (by decide)
    | (simp only [FBK_CMP_CTRL, FBK_CMP_HITS, FBK_CMP_SKIPPED, FBK_CMP_SPACING, FBK_CMP_VAL]; omega)
    | omega
    | dsimp only

theorem cmpRelease_within (c : PinChannel) (d : Dev) :
    d.within [.pins] [9] (cmpRelease c d) := by
  unfold cmpRelease
  try dsimp only
  repeat' first
    | with_reducible exact within_refl _ _ _
    | assumption
    | with_reducible apply within_comp (put_within _ (FBK_CMP_CTRL_ARMED _) _ 9 _ _)
    | with_reducible apply within_comp (pinMod_within _ _ _)
    | with_reducible apply within_foldl_snd
    | with_reducible apply within_foldl
    | with_reducible apply within_ite
    | (intro (_ : Dev) _; try dsimp only)
    | (intro (_ : _ × Dev) _; try dsimp only)
    | split
    | decide
    | exact Or.inl (by decide)
    | exact Or.inr (by decide)
    | (simp only [FBK_CMP_CTRL, FBK_CMP_CTRL_ARMED]; omega)
    | omega
    | dsimp only

theorem cmpHit_within (c : PinChannel) (now : Nat) (d : Dev) :
    d.within [.ev, .flt, .wal, .dof, .lmp, .isp, .pins, .mpl] [2, 9, 13, 18] (cmpHit c now d) := by
  unfold cmpHit
  try dsimp only
  repeat' first
    | with_reducible exact within_refl _ _ _
    | assumption
    | with_reducible apply within_comp (setReg_within _ (FBK_CMP_TIME _) _ 9 _ _)
    | with_reducible apply within_comp (setReg_within _ (FBK_CMP_COUNT _) _ 9 _ _)
    | with_reducible apply within_comp (count_within _ (FBK_CMP_HITS _) _ 9 _ _)
    | with_reducible apply within_comp (setRegS_within _ (FBK_CMP_VAL _) _ 9 _ _)
    | with_reducible apply within_comp (put_within _ (FBK_CMP_CTRL_ARMED _) _ 9 _ _)
    | with_reducible apply within_comp (pinMod_within _ _ _)
    | with_reducible apply within_comp (camTrigger_within _ _ _ _ _ _)
    | with_reducible apply within_comp (flashHit_within _)
    | with_reducible apply within_foldl_snd
    | with_reducible apply within_foldl
    | with_reducible apply within_ite
    | (intro (_ : Dev) _; try dsimp only)
    | (intro (_ : _ × Dev) _; try dsimp only)
    | split
    | decide
    | exact Or.inl (by decide)
    | exact Or.inr (by decide)
    | (simp only [FBK_CMP_COUNT, FBK_CMP_CTRL, FBK_CMP_CTRL_ARMED, FBK_CMP_HITS, FBK_CMP_TIME, FBK_CMP_VAL]; omega)
    | omega
    | dsimp only

theorem pinIllegal_within (c : PinChannel) (f : Field) (code : Nat) (now : Nat) (d : Dev) (hcode : code < 256) (hf : f.addr / 0x10000 = 9) :
    d.within [.ev, .flt, .wal, .dof, .pins, .mpl] [2, 9, 18] (pinIllegal c f code now d) := by
  unfold pinIllegal
  try dsimp only
  repeat' first
    | with_reducible exact within_refl _ _ _
    | assumption
    | with_reducible apply within_comp (count_within _ (FBK_ERRS _) _ 9 _ _)
    | with_reducible apply within_comp (put_within _ f _ 9 _ _)
    | with_reducible apply within_comp (pinMod_within _ _ _)
    | with_reducible apply within_comp (fault_within _ _ _ _ _)
    | with_reducible apply within_comp (pinFlag_within _ _ _ _ _)
    | with_reducible apply within_comp (setPinQ_within _ _ _)
    | with_reducible apply within_foldl_snd
    | with_reducible apply within_foldl
    | with_reducible apply within_ite
    | (intro (_ : Dev) _; try dsimp only)
    | (intro (_ : _ × Dev) _; try dsimp only)
    | split
    | decide
    | exact Or.inl (by decide)
    | exact Or.inr (by decide)
    | (simp only [FBK_ERRS]; omega)
    | omega
    | dsimp only

theorem ssiStart_within (c : PinChannel) (d : Dev) :
    d.within [.pins] [9] (ssiStart c d) := by
  unfold ssiStart
  try dsimp only
  repeat' first
    | with_reducible exact within_refl _ _ _
    | assumption
    | with_reducible apply within_comp (pinMod_within _ _ _)
    | with_reducible apply within_comp (setPinQ_within _ _ _)
    | with_reducible apply within_foldl_snd
    | with_reducible apply within_foldl
    | with_reducible apply within_ite
    | (intro (_ : Dev) _; try dsimp only)
    | (intro (_ : _ × Dev) _; try dsimp only)
    | split
    | decide
    | exact Or.inl (by decide)
    | exact Or.inr (by decide)
    | omega
    | dsimp only

theorem pinPeriod_within (c : PinChannel) (te : Nat) (d : Dev) :
    d.within [.pins] [9] (pinPeriod c te d) := by
  unfold pinPeriod
  try dsimp only
  repeat' first
    | with_reducible exact within_refl _ _ _
    | assumption
    | with_reducible apply within_comp (setRegS_within _ (FBK_SPEED _) _ 9 _ _)
    | with_reducible apply within_comp (setReg_within _ (FBK_QUAL _) _ 9 _ _)
    | with_reducible apply within_comp (pinMod_within _ _ _)
    | with_reducible apply within_foldl_snd
    | with_reducible apply within_foldl
    | with_reducible apply within_ite
    | (intro (_ : Dev) _; try dsimp only)
    | (intro (_ : _ × Dev) _; try dsimp only)
    | split
    | decide
    | exact Or.inl (by decide)
    | exact Or.inr (by decide)
    | (simp only [FBK_QUAL, FBK_SPEED]; omega)
    | omega
    | dsimp only

theorem stationChannel_within (k : Nat) (word : Option (Nat × Nat)) (d : Dev) (hk : k < 48) :
    d.within [.ev, .flt, .wal, .dof, .mpl] [2, 9, 18] (stationChannel k word d) := by
  unfold stationChannel
  try dsimp only
  repeat' first
    | with_reducible exact within_refl _ _ _
    | assumption
    | with_reducible apply within_comp (setRegS_within _ (FBKS_SPEED _) _ 9 _ _)
    | with_reducible apply within_comp (setRegS_within _ (FBKS_COUNT _) _ 9 _ _)
    | with_reducible apply within_comp (setReg_within _ (FBKS_SPEED _) _ 9 _ _)
    | with_reducible apply within_comp (count_within _ (FBKS_JUMPS _) _ 9 _ _)
    | with_reducible apply within_comp (setReg_within _ (FBKS_STATUS _) _ 9 _ _)
    | with_reducible apply within_comp (flagEvent_within (FBKS_FLAGS_ENC_JUMP _) _ _ _ 9 _ _ _ _)
    | with_reducible apply within_comp (fault_within _ _ _ _ _)
    | with_reducible apply within_foldl_snd
    | with_reducible apply within_foldl
    | with_reducible apply within_ite
    | (intro (_ : Dev) _; try dsimp only)
    | (intro (_ : _ × Dev) _; try dsimp only)
    | split
    | decide
    | exact Or.inl (by decide)
    | exact Or.inr (by decide)
    | (simp only [FBKS_COUNT, FBKS_FLAGS, FBKS_FLAGS_ENC_JUMP, FBKS_JUMPS, FBKS_SPEED, FBKS_STATUS]; omega)
    | omega
    | dsimp only

end Sys2Proof.Machine
end

