-- ==== Sys2Proof/Laws/OfShuttleOps.lean ====
section
/-!
SUPPORT. What each operation of Machine/ShuttleOps.lean may touch: the parts of the device and the blocks of registers.
-/
namespace Sys2Proof.Machine

open Reg

set_option linter.unusedTactic false
set_option linter.unreachableTactic false
set_option linter.unusedSimpArgs false

theorem shtFlag_within (n : Station) (f : Field) (code : Nat) (d : Dev)  (hf : f.addr / 0x10000 = 8) :
    d.within [.ev, .wal] [2, 8, 18] (shtFlag n f code d) := by
  unfold shtFlag
  try dsimp only
  repeat' first
    | with_reducible exact within_refl _ _ _
    | assumption
    | with_reducible apply within_comp (flagEvent_within f _ _ _ 8 _ _ _ _)
    | with_reducible apply within_comp (put_within _ f _ 8 _ _)
    | with_reducible apply within_foldl_snd
    | with_reducible apply within_foldl
    | with_reducible apply within_ite
    | (intro (_ : Dev) _; try dsimp only)
    | (intro (_ : _ × Dev) _; try dsimp only)
    | split
    | decide
    | exact Or.inl (by decide)
    | exact Or.inr (by decide)
    | omega
    | dsimp only

theorem setStream_within (n : Station) (l : List (List Nat)) (d : Dev) :
    d.within [.trd] [] (setStream n l d) := by
  unfold setStream
  try dsimp only
  repeat' first
    | with_reducible exact within_refl _ _ _
    | assumption
    | with_reducible apply within_comp (slotMod_within _ _ _)
    | with_reducible apply within_foldl_snd
    | with_reducible apply within_foldl
    | with_reducible apply within_ite
    | (intro (_ : Dev) _; try dsimp only)
    | (intro (_ : _ × Dev) _; try dsimp only)
    | split
    | decide
    | exact Or.inl (by decide)
    | exact Or.inr (by decide)
    | omega
    | dsimp only

theorem feedN_within (n : Station) (k0 : Nat) (d : Dev) :
    d.within [.ev, .flt, .wal, .trd, .creel, .dof, .crl, .mpl] [2, 3, 18] (feedN n k0 d) := by
  induction k0 generalizing  d with
  | zero => exact within_refl _ _ d
  | succ k ih =>
    unfold feedN
    try simp only [mk_crl]
    repeat' first
      | with_reducible exact within_refl _ _ _
      | assumption
      | with_reducible apply within_comp (ih _)
      | with_reducible apply within_snd ‹_ = (_, _)›
      | with_reducible apply within_comp (bobPush_within _ _ _ _)
      | with_reducible apply within_comp (setStream_within _ _ _)
      | with_reducible apply within_foldl_snd
      | with_reducible apply within_foldl
      | with_reducible apply within_ite
      | (intro (_ : Dev) _; try dsimp only)
      | (intro (_ : _ × Dev) _; try dsimp only)
      | with_reducible apply within_comp (toCrl_within _ _)
      | split
      | decide
      | exact Or.inl (by decide)
      | exact Or.inr (by decide)
      | omega
      | dsimp only

theorem feed_within (n : Station) (d : Dev) :
    d.within [.ev, .flt, .wal, .trd, .creel, .dof, .crl, .mpl] [2, 3, 18] (feed n d) := by
  unfold feed
  try dsimp only
  repeat' first
    | with_reducible exact within_refl _ _ _
    | assumption
    | with_reducible apply within_comp (feedN_within _ _ _)
    | with_reducible apply within_foldl_snd
    | with_reducible apply within_foldl
    | with_reducible apply within_ite
    | (intro (_ : Dev) _; try dsimp only)
    | (intro (_ : _ × Dev) _; try dsimp only)
    | split
    | decide
    | exact Or.inl (by decide)
    | exact Or.inr (by decide)
    | omega
    | dsimp only

theorem shtMod_within (n : Station) (f : Shuttle → Shuttle) (d : Dev) :
    d.within [.sht] [] (d.shtMod n f) := by
  unfold Dev.shtMod
  try simp only [mk_sht]
  repeat' first
    | with_reducible exact within_refl _ _ _
    | assumption
    | with_reducible apply within_foldl_snd
    | with_reducible apply within_foldl
    | with_reducible apply within_ite
    | (intro (_ : Dev) _; try dsimp only)
    | (intro (_ : _ × Dev) _; try dsimp only)
    | with_reducible apply within_comp (toSht_within _ _)
    | split
    | decide
    | exact Or.inl (by decide)
    | exact Or.inr (by decide)
    | omega
    | dsimp only

theorem setQdepth_within (n : Station) (d : Dev) :
    d.within [] [8] (setQdepth n d) := by
  unfold setQdepth
  try dsimp only
  repeat' first
    | with_reducible exact within_refl _ _ _
    | assumption
    | with_reducible apply within_comp (put_within _ (SHT_STATUS_QDEPTH _) _ 8 _ _)
    | with_reducible apply within_foldl_snd
    | with_reducible apply within_foldl
    | with_reducible apply within_ite
    | (intro (_ : Dev) _; try dsimp only)
    | (intro (_ : _ × Dev) _; try dsimp only)
    | split
    | decide
    | exact Or.inl (by decide)
    | exact Or.inr (by decide)
    | (simp only [SHT_STATUS, SHT_STATUS_QDEPTH]; omega)
    | omega
    | dsimp only

theorem mboxPut_within (n : Station) (off : Nat) (v : Nat) (d : Dev) :
    d.within [.creel] [] (mboxPut n off v d) := by
  unfold mboxPut
  try dsimp only
  repeat' first
    | with_reducible exact within_refl _ _ _
    | assumption
    | with_reducible apply within_comp (setCreelBytes_within _ _ _)
    | with_reducible apply within_foldl_snd
    | with_reducible apply within_foldl
    | with_reducible apply within_ite
    | (intro (_ : Dev) _; try dsimp only)
    | (intro (_ : _ × Dev) _; try dsimp only)
    | split
    | decide
    | exact Or.inl (by decide)
    | exact Or.inr (by decide)
    | omega
    | dsimp only

theorem admitPick_within (n : Station) (k : Pick) (d : Dev) :
    d.within [.sht] [8] (admitPick n k d) := by
  unfold admitPick
  try dsimp only
  repeat' first
    | with_reducible exact within_refl _ _ _
    | assumption
    | with_reducible apply within_comp (put_within _ (SHT_STATUS_STARVED _) _ 8 _ _)
    | with_reducible apply within_comp (shtMod_within _ _ _)
    | with_reducible apply within_comp (setQdepth_within _ _)
    | with_reducible apply within_foldl_snd
    | with_reducible apply within_foldl
    | with_reducible apply within_ite
    | (intro (_ : Dev) _; try dsimp only)
    | (intro (_ : _ × Dev) _; try dsimp only)
    | split
    | decide
    | exact Or.inl (by decide)
    | exact Or.inr (by decide)
    | (simp only [SHT_STATUS, SHT_STATUS_STARVED]; omega)
    | omega
    | dsimp only

theorem shtPeriod_within (n : Station) (period : Nat) (d : Dev) :
    d.within [.ev, .wal, .creel, .sht] [2, 8, 18] (shtPeriod n period d) := by
  unfold shtPeriod
  try dsimp only
  repeat' first
    | with_reducible exact within_refl _ _ _
    | assumption
    | with_reducible apply within_comp (setRegS_within _ (SHT_SET_Y _) _ 8 _ _)
    | with_reducible apply within_comp (put_within _ (SHT_STATUS_LIMITED _) _ 8 _ _)
    | with_reducible apply within_comp (setRegS_within _ (SHT_SET_X _) _ 8 _ _)
    | with_reducible apply within_comp (setReg_within _ (SHT_SPEED _) _ 8 _ _)
    | with_reducible apply within_comp (count_within _ (SHT_LIMIT_PER _) _ 8 _ _)
    | with_reducible apply within_comp (setRegS_within _ (SHT_ZOFF _) _ 8 _ _)
    | with_reducible apply within_comp (shtMod_within _ _ _)
    | with_reducible apply within_comp (mboxPut_within _ _ _ _)
    | with_reducible apply within_comp (shtFlag_within _ _ _ _ _)
    | with_reducible apply within_foldl_snd
    | with_reducible apply within_foldl
    | with_reducible apply within_ite
    | (intro (_ : Dev) _; try dsimp only)
    | (intro (_ : _ × Dev) _; try dsimp only)
    | split
    | decide
    | exact Or.inl (by decide)
    | exact Or.inr (by decide)
    | (simp only [SHT_AX_AMAX, SHT_AX_JMAX, SHT_AX_VMAX, SHT_FLAGS, SHT_FLAGS_LIMIT, SHT_LIMIT_PER, SHT_SET_X, SHT_SET_Y, SHT_SPEED, SHT_STATUS, SHT_STATUS_LIMITED, SHT_ZOFF]; omega)
    | omega
    | dsimp only

end Sys2Proof.Machine
end

