-- ==== Sys2Proof/Laws/OfReedOps.lean ====
section
/-!
SUPPORT. What each operation of Machine/ReedOps.lean may touch: the parts of the device and the blocks of registers.
-/
namespace Sys2Proof.Machine

open Reg

set_option linter.unusedTactic false
set_option linter.unreachableTactic false
set_option linter.unusedSimpArgs false

theorem loopMod_within (l : LoopId) (f : ReedLoop → ReedLoop) (d : Dev) :
    d.within [.reed] [] (d.loopMod l f) := by
  unfold Dev.loopMod
  try simp only [mk_reed]
  repeat' first
    | with_reducible exact within_refl _ _ _
    | assumption
    | with_reducible apply within_foldl_snd
    | with_reducible apply within_foldl
    | with_reducible apply within_ite
    | (intro (_ : Dev) _; try dsimp only)
    | (intro (_ : _ × Dev) _; try dsimp only)
    | with_reducible apply within_comp (toReed_within _ _)
    | split
    | decide
    | exact Or.inl (by decide)
    | exact Or.inr (by decide)
    | omega
    | dsimp only

theorem reedRetire_within (n : Station) (code : Nat) (d : Dev) :
    d.within [.reed] [] (reedRetire n code d) := by
  unfold reedRetire
  try dsimp only
  repeat' first
    | with_reducible exact within_refl _ _ _
    | assumption
    | with_reducible apply within_comp (loopMod_within _ _ _)
    | with_reducible apply within_foldl_snd
    | with_reducible apply within_foldl
    | with_reducible apply within_ite
    | (intro (_ : Dev) _; try dsimp only)
    | (intro (_ : _ × Dev) _; try dsimp only)
    | split
    | decide
    | exact Or.inl (by decide)
    | exact Or.inr (by decide)
    | omega
    | dsimp only

theorem reedScan_within  (d : Dev) :
    d.within [.ev, .flt, .wal, .dof, .mpl] [2, 10, 18] (reedScan  d) := by
  unfold reedScan
  try dsimp only
  repeat' first
    | with_reducible exact within_refl _ _ _
    | assumption
    | with_reducible apply within_comp (setReg_within _ (REED_PWR_MELT_DEVS _) _ 10 _ _)
    | with_reducible apply within_comp (fault_within _ _ _ _ _)
    | with_reducible apply within_foldl_snd
    | with_reducible apply within_foldl
    | with_reducible apply within_ite
    | (intro (_ : Dev) _; try dsimp only)
    | (intro (_ : _ × Dev) _; try dsimp only)
    | split
    | decide
    | exact Or.inl (by decide)
    | exact Or.inr (by decide)
    | (simp only [REED_PWR_MELT_DEVS]; omega)
    | omega
    | dsimp only

theorem gpioMod_within (g : Nat) (f : GpioState → GpioState) (d : Dev) :
    d.within [.reed] [] (gpioMod g f d) := by
  unfold gpioMod
  try simp only [mk_reed]
  repeat' first
    | with_reducible exact within_refl _ _ _
    | assumption
    | with_reducible apply within_foldl_snd
    | with_reducible apply within_foldl
    | with_reducible apply within_ite
    | (intro (_ : Dev) _; try dsimp only)
    | (intro (_ : _ × Dev) _; try dsimp only)
    | with_reducible apply within_comp (toReed_within _ _)
    | split
    | decide
    | exact Or.inl (by decide)
    | exact Or.inr (by decide)
    | omega
    | dsimp only

theorem gpioEdge_within (g : Nat) (period : Nat) (high : Nat) (d : Dev) :
    d.within [.shadow, .ev, .flt, .wal, .dof, .mpl, .reed, .lnk] [2, 5, 18] (gpioEdge g period high d) := by
  unfold gpioEdge
  try dsimp only
  repeat' first
    | with_reducible exact within_refl _ _ _
    | assumption
    | with_reducible apply within_comp (loopMod_within _ _ _)
    | with_reducible apply within_comp (gpioMod_within _ _ _)
    | with_reducible apply within_comp (measure_within _ _ _)
    | with_reducible apply within_foldl_snd
    | with_reducible apply within_foldl
    | with_reducible apply within_ite
    | (intro (_ : Dev) _; try dsimp only)
    | (intro (_ : _ × Dev) _; try dsimp only)
    | split
    | decide
    | exact Or.inl (by decide)
    | exact Or.inr (by decide)
    | omega
    | dsimp only

theorem posOut_within (e : Fin 3) (n : Station) (d : Dev) :
    d.within [.creel] [] (posOut e n d) := by
  unfold posOut
  try dsimp only
  repeat' first
    | with_reducible exact within_refl _ _ _
    | assumption
    | with_reducible apply within_comp (mboxPut_within _ _ _ _)
    | with_reducible apply within_foldl_snd
    | with_reducible apply within_foldl
    | with_reducible apply within_ite
    | (intro (_ : Dev) _; try dsimp only)
    | (intro (_ : _ × Dev) _; try dsimp only)
    | split
    | decide
    | exact Or.inl (by decide)
    | exact Or.inr (by decide)
    | omega
    | dsimp only

theorem powerOut_within (n : Station) (k : Nat) (q : Nat) (out : Int) (d : Dev) :
    d.within [.creel] [10] (powerOut n k q out d) := by
  unfold powerOut
  try dsimp only
  repeat' first
    | with_reducible exact within_refl _ _ _
    | assumption
    | with_reducible apply within_comp (setReg_within _ (REED_PWR_CMD _) _ 10 _ _)
    | with_reducible apply within_comp (mboxPut_within _ _ _ _)
    | with_reducible apply within_foldl_snd
    | with_reducible apply within_foldl
    | with_reducible apply within_ite
    | (intro (_ : Dev) _; try dsimp only)
    | (intro (_ : _ × Dev) _; try dsimp only)
    | split
    | decide
    | exact Or.inl (by decide)
    | exact Or.inr (by decide)
    | (simp only [REED_PWR_CMD]; omega)
    | omega
    | dsimp only

theorem auxOut_within (j : Fin 8) (d : Dev) :
    d.within [.reed] [] (auxOut j d) := by
  unfold auxOut
  try dsimp only
  repeat' first
    | with_reducible exact within_refl _ _ _
    | assumption
    | with_reducible apply within_comp (gpioMod_within _ _ _)
    | with_reducible apply within_foldl_snd
    | with_reducible apply within_foldl
    | with_reducible apply within_ite
    | (intro (_ : Dev) _; try dsimp only)
    | (intro (_ : _ × Dev) _; try dsimp only)
    | split
    | decide
    | exact Or.inl (by decide)
    | exact Or.inr (by decide)
    | omega
    | dsimp only

theorem reedOverrun_within (l : LoopId) (d : Dev) :
    d.within [.ev, .flt, .wal, .dof, .mpl] [2, 18] (reedOverrun l d) := by
  unfold reedOverrun
  try dsimp only
  repeat' first
    | with_reducible exact within_refl _ _ _
    | assumption
    | with_reducible apply within_comp (fault_within _ _ _ _ _)
    | with_reducible apply within_foldl_snd
    | with_reducible apply within_foldl
    | with_reducible apply within_ite
    | (intro (_ : Dev) _; try dsimp only)
    | (intro (_ : _ × Dev) _; try dsimp only)
    | split
    | decide
    | exact Or.inl (by decide)
    | exact Or.inr (by decide)
    | omega
    | dsimp only

theorem encLost_within (e : Fin 3) (n : Station) (d : Dev) :
    d.within [.ev, .flt, .wal, .dof, .mpl] [2, 18] (encLost e n d) := by
  unfold encLost
  try dsimp only
  repeat' first
    | with_reducible exact within_refl _ _ _
    | assumption
    | with_reducible apply within_comp (fault_within _ _ _ _ _)
    | with_reducible apply within_foldl_snd
    | with_reducible apply within_foldl
    | with_reducible apply within_ite
    | (intro (_ : Dev) _; try dsimp only)
    | (intro (_ : _ × Dev) _; try dsimp only)
    | split
    | decide
    | exact Or.inl (by decide)
    | exact Or.inr (by decide)
    | omega
    | dsimp only

end Sys2Proof.Machine
end

