-- ==== Sys2Proof/Laws/OfShuttleStep.lean ====
section
/-!
SUPPORT. What each operation of Machine/ShuttleStep.lean may touch: the parts of the device and the blocks of registers.
-/
namespace Sys2Proof.Machine

open Reg

set_option linter.unusedTactic false
set_option linter.unreachableTactic false
set_option linter.unusedSimpArgs false

theorem gridCheck_within (n : Station) (d : Dev) :
    d.within [.shadow, .ev, .wal] [2, 8, 18] (gridCheck n d) := by
  unfold gridCheck
  try simp only [mk_shadow]
  repeat' first
    | with_reducible exact within_refl _ _ _
    | assumption
    | with_reducible apply within_comp (shtFlag_within _ _ _ _ _)
    | with_reducible apply within_foldl_snd
    | with_reducible apply within_foldl
    | with_reducible apply within_ite
    | (intro (_ : Dev) _; try dsimp only)
    | (intro (_ : _ × Dev) _; try dsimp only)
    | with_reducible apply within_comp (toShadow_within _ _)
    | split
    | decide
    | exact Or.inl (by decide)
    | exact Or.inr (by decide)
    | (simp only [SHT_FLAGS, SHT_FLAGS_GRID_CRC, SHT_GRID_BASE0, SHT_GRID_BASE1, SHT_GRID_SEL]; omega)
    | omega
    | dsimp only

theorem shtPrepare_within (n : Station) (d : Dev) :
    d.within [.shadow, .sht] [8] (shtPrepare n d) := by
  unfold shtPrepare
  try dsimp only
  repeat' first
    | with_reducible exact within_refl _ _ _
    | assumption
    | with_reducible apply within_comp (put_within _ (SHT_STATUS_STARVED _) _ 8 _ _)
    | with_reducible apply within_comp (commit_within _ .pick _ _ 8 _ _ _)
    | with_reducible apply within_comp (shtMod_within _ _ _)
    | with_reducible apply within_comp (setQdepth_within _ _)
    | with_reducible apply within_foldl_snd
    | with_reducible apply within_foldl
    | with_reducible apply within_ite
    | (intro (_ : Dev) _; try dsimp only)
    | (intro (_ : _ × Dev) _; try dsimp only)
    | split
    | decide
    | exact Or.inl (by decide)
    | exact Or.inr (by decide)
    | (simp only [SHT_STATUS, SHT_STATUS_STARVED]; omega)
    | omega
    | dsimp only

theorem shtCutIn_within (n : Station) (k : Nat) (ns : Nat) (d : Dev) :
    d.within [.sht] [] (shtCutIn n k ns d) := by
  unfold shtCutIn
  try dsimp only
  repeat' first
    | with_reducible exact within_refl _ _ _
    | assumption
    | with_reducible apply within_comp (shtMod_within _ _ _)
    | with_reducible apply within_foldl_snd
    | with_reducible apply within_foldl
    | with_reducible apply within_ite
    | (intro (_ : Dev) _; try dsimp only)
    | (intro (_ : _ × Dev) _; try dsimp only)
    | split
    | decide
    | exact Or.inl (by decide)
    | exact Or.inr (by decide)
    | omega
    | dsimp only

theorem showInterruption_within (n : Station) (i : Interruption) (d : Dev) :
    d.within [] [8] (showInterruption n i d) := by
  unfold showInterruption
  try dsimp only
  repeat' first
    | with_reducible exact within_refl _ _ _
    | assumption
    | with_reducible apply within_comp (setReg_within _ (SHT_INTR_PICK _) _ 8 _ _)
    | with_reducible apply within_comp (setRegS_within _ (SHT_INTR_S _) _ 8 _ _)
    | with_reducible apply within_foldl_snd
    | with_reducible apply within_foldl
    | with_reducible apply within_ite
    | (intro (_ : Dev) _; try dsimp only)
    | (intro (_ : _ × Dev) _; try dsimp only)
    | split
    | decide
    | exact Or.inl (by decide)
    | exact Or.inr (by decide)
    | (simp only [SHT_INTR_PICK, SHT_INTR_S]; omega)
    | omega
    | dsimp only

theorem shtInterrupt_within (n : Station) (at' : Nat) (d : Dev) :
    d.within [.sht] [8] (shtInterrupt n at' d) := by
  unfold shtInterrupt
  try dsimp only
  repeat' first
    | with_reducible exact within_refl _ _ _
    | assumption
    | with_reducible apply within_comp (shtMod_within _ _ _)
    | with_reducible apply within_comp (showInterruption_within _ _ _)
    | with_reducible apply within_foldl_snd
    | with_reducible apply within_foldl
    | with_reducible apply within_ite
    | (intro (_ : Dev) _; try dsimp only)
    | (intro (_ : _ × Dev) _; try dsimp only)
    | split
    | decide
    | exact Or.inl (by decide)
    | exact Or.inr (by decide)
    | omega
    | dsimp only

theorem shtCut_within (n : Station) (d : Dev) :
    d.within [.sht] [8] (shtCut n d) := by
  unfold shtCut
  try dsimp only
  repeat' first
    | with_reducible exact within_refl _ _ _
    | assumption
    | with_reducible apply within_comp (shtInterrupt_within _ _ _)
    | with_reducible apply within_foldl_snd
    | with_reducible apply within_foldl
    | with_reducible apply within_ite
    | (intro (_ : Dev) _; try dsimp only)
    | (intro (_ : _ × Dev) _; try dsimp only)
    | split
    | decide
    | exact Or.inl (by decide)
    | exact Or.inr (by decide)
    | omega
    | dsimp only

theorem shtCutAt_within (n : Station) (k : Nat) (d : Dev) :
    d.within [.sht] [8] (shtCutAt n k d) := by
  unfold shtCutAt
  try dsimp only
  repeat' first
    | with_reducible exact within_refl _ _ _
    | assumption
    | with_reducible apply within_comp (shtInterrupt_within _ _ _)
    | with_reducible apply within_foldl_snd
    | with_reducible apply within_foldl
    | with_reducible apply within_ite
    | (intro (_ : Dev) _; try dsimp only)
    | (intro (_ : _ × Dev) _; try dsimp only)
    | split
    | decide
    | exact Or.inl (by decide)
    | exact Or.inr (by decide)
    | omega
    | dsimp only

theorem showCompare_within (n : Station) (d : Dev) :
    d.within [] [9] (showCompare n d) := by
  unfold showCompare
  try dsimp only
  repeat' first
    | with_reducible exact within_refl _ _ _
    | assumption
    | with_reducible apply within_comp (setRegS_within _ (FBKP_CMP _) _ 9 _ _)
    | with_reducible apply within_comp (setReg_within _ (FBKP_SPACING _) _ 9 _ _)
    | with_reducible apply within_foldl_snd
    | with_reducible apply within_foldl
    | with_reducible apply within_ite
    | (intro (_ : Dev) _; try dsimp only)
    | (intro (_ : _ × Dev) _; try dsimp only)
    | split
    | decide
    | exact Or.inl (by decide)
    | exact Or.inr (by decide)
    | (simp only [FBKP_CMP, FBKP_SPACING]; omega)
    | omega
    | dsimp only

theorem edgesOut_within (n : Station) (k : Nat) (w : Nat × Nat) (d : Dev) :
    d.within [.creel] [] (edgesOut n k w d) := by
  unfold edgesOut
  try dsimp only
  repeat' first
    | with_reducible exact within_refl _ _ _
    | assumption
    | with_reducible apply within_comp (mboxPut_within _ _ _ _)
    | with_reducible apply within_foldl_snd
    | with_reducible apply within_foldl
    | with_reducible apply within_ite
    | (intro (_ : Dev) _; try dsimp only)
    | (intro (_ : _ × Dev) _; try dsimp only)
    | split
    | decide
    | exact Or.inl (by decide)
    | exact Or.inr (by decide)
    | omega
    | dsimp only

theorem shtEdges_within (n : Station) (k : Nat) (sched : Nat) (d : Dev) :
    d.within [.ev, .wal, .creel, .sht] [2, 8, 9, 18] (shtEdges n k sched d) := by
  unfold shtEdges
  try dsimp only
  repeat' first
    | with_reducible exact within_refl _ _ _
    | assumption
    | with_reducible apply within_comp (count_within _ (SHT_PULSE_DROPS _) _ 8 _ _)
    | with_reducible apply within_comp (count_within _ (FBKP_SKIPPED _) _ 9 _ _)
    | with_reducible apply within_comp (count_within _ (FBKP_HITS _) _ 9 _ _)
    | with_reducible apply within_comp (flagEvent_within (FBKP_FLAGS_EXTRAP _) _ _ _ 9 _ _ _ _)
    | with_reducible apply within_comp (flagEvent_within (FBKP_FLAGS_COMPARE_BEHIND _) _ _ _ 9 _ _ _ _)
    | with_reducible apply within_comp (shtMod_within _ _ _)
    | with_reducible apply within_comp (edgesOut_within _ _ _ _)
    | with_reducible apply within_comp (showCompare_within _ _)
    | with_reducible apply within_comp (shtFlag_within _ _ _ _ _)
    | with_reducible apply within_foldl_snd
    | with_reducible apply within_foldl
    | with_reducible apply within_ite
    | (intro (_ : Dev) _; try dsimp only)
    | (intro (_ : _ × Dev) _; try dsimp only)
    | split
    | decide
    | exact Or.inl (by decide)
    | exact Or.inr (by decide)
    | (simp only [FBKP_FLAGS, FBKP_FLAGS_COMPARE_BEHIND, FBKP_FLAGS_EXTRAP, FBKP_HITS, FBKP_SKIPPED, SHT_FLAGS, SHT_FLAGS_PULSE_DROP, SHT_PULSE_DROPS, SHT_PULSE_W]; omega)
    | omega
    | dsimp only

theorem pickBoundary_within (n : Station) (d : Dev) :
    d.within [.shadow, .ev, .wal, .sht] [2, 8, 18] (pickBoundary n d) := by
  unfold pickBoundary
  try dsimp only
  repeat' first
    | with_reducible exact within_refl _ _ _
    | assumption
    | with_reducible apply within_comp (commit_within _ .pick _ _ 8 _ _ _)
    | with_reducible apply within_comp (shtMod_within _ _ _)
    | with_reducible apply within_comp (shtFlag_within _ _ _ _ _)
    | with_reducible apply within_foldl_snd
    | with_reducible apply within_foldl
    | with_reducible apply within_ite
    | (intro (_ : Dev) _; try dsimp only)
    | (intro (_ : _ × Dev) _; try dsimp only)
    | split
    | decide
    | exact Or.inl (by decide)
    | exact Or.inr (by decide)
    | (simp only [SHT_FLAGS, SHT_FLAGS_ACC_KEPT]; omega)
    | omega
    | dsimp only

theorem showTick_within (n : Station) (p : TickPower) (d : Dev) :
    d.within [] [8] (showTick n p d) := by
  unfold showTick
  try dsimp only
  repeat' first
    | with_reducible exact within_refl _ _ _
    | assumption
    | with_reducible apply within_comp (put_within _ (SHT_STATUS_LASER_ON _) _ 8 _ _)
    | with_reducible apply within_comp (put_within _ (SHT_STATUS_BLEND _) _ 8 _ _)
    | with_reducible apply within_foldl_snd
    | with_reducible apply within_foldl
    | with_reducible apply within_ite
    | (intro (_ : Dev) _; try dsimp only)
    | (intro (_ : _ × Dev) _; try dsimp only)
    | split
    | decide
    | exact Or.inl (by decide)
    | exact Or.inr (by decide)
    | (simp only [SHT_STATUS, SHT_STATUS_BLEND, SHT_STATUS_LASER_ON]; omega)
    | omega
    | dsimp only

theorem starve_within (n : Station) (d : Dev) :
    d.within [.ev, .flt, .wal, .dof, .mpl] [2, 8, 18] (starve n d) := by
  unfold starve
  try dsimp only
  repeat' first
    | with_reducible exact within_refl _ _ _
    | assumption
    | with_reducible apply within_comp (put_within _ (SHT_STATUS_STARVED _) _ 8 _ _)
    | with_reducible apply within_comp (fault_within _ _ _ _ _)
    | with_reducible apply within_comp (shtFlag_within _ _ _ _ _)
    | with_reducible apply within_foldl_snd
    | with_reducible apply within_foldl
    | with_reducible apply within_ite
    | (intro (_ : Dev) _; try dsimp only)
    | (intro (_ : _ × Dev) _; try dsimp only)
    | split
    | decide
    | exact Or.inl (by decide)
    | exact Or.inr (by decide)
    | (simp only [SHT_FLAGS, SHT_FLAGS_STARVE, SHT_STATUS, SHT_STATUS_STARVED]; omega)
    | omega
    | dsimp only

theorem recordMarks_within (n : Station) (done : List Elem) (d : Dev) :
    d.within [.trm] [] (recordMarks n done d) := by
  unfold recordMarks
  try simp only [mk_trm]
  repeat' first
    | with_reducible exact within_refl _ _ _
    | assumption
    | with_reducible apply within_foldl_snd
    | with_reducible apply within_foldl
    | with_reducible apply within_ite
    | (intro (_ : Dev) _; try dsimp only)
    | (intro (_ : _ × Dev) _; try dsimp only)
    | with_reducible apply within_comp (toTrm_within _ _)
    | split
    | decide
    | exact Or.inl (by decide)
    | exact Or.inr (by decide)
    | omega
    | dsimp only

theorem shtPlan_within (n : Station) (k : Nat) (d : Dev) :
    d.within [.shadow, .ev, .flt, .wal, .creel, .dof, .sht, .mpl, .trm] [2, 8, 18] (shtPlan n k d) := by
  unfold shtPlan
  try dsimp only
  repeat' first
    | with_reducible exact within_refl _ _ _
    | assumption
    | with_reducible apply within_comp (count_within _ (SHT_PICKS _) _ 8 _ _)
    | with_reducible apply within_comp (mstMod_within _ _ _)
    | with_reducible apply within_comp (shtMod_within _ _ _)
    | with_reducible apply within_comp (mboxPut_within _ _ _ _)
    | with_reducible apply within_comp (pickBoundary_within _ _)
    | with_reducible apply within_comp (recordMarks_within _ _ _)
    | with_reducible apply within_comp (setQdepth_within _ _)
    | with_reducible apply within_comp (showInterruption_within _ _ _)
    | with_reducible apply within_comp (showTick_within _ _ _)
    | with_reducible apply within_comp (starve_within _ _)
    | with_reducible apply within_foldl_snd
    | with_reducible apply within_foldl
    | with_reducible apply within_ite
    | (intro (_ : Dev) _; try dsimp only)
    | (intro (_ : _ × Dev) _; try dsimp only)
    | split
    | decide
    | exact Or.inl (by decide)
    | exact Or.inr (by decide)
    | (simp only [SHT_PICKS]; omega)
    | omega
    | dsimp only

theorem pathStart_within (n : Station) (d : Dev) :
    d.within [.sht] [] (pathStart n d) := by
  unfold pathStart
  try dsimp only
  repeat' first
    | with_reducible exact within_refl _ _ _
    | assumption
    | with_reducible apply within_comp (shtMod_within _ _ _)
    | with_reducible apply within_foldl_snd
    | with_reducible apply within_foldl
    | with_reducible apply within_ite
    | (intro (_ : Dev) _; try dsimp only)
    | (intro (_ : _ × Dev) _; try dsimp only)
    | split
    | decide
    | exact Or.inl (by decide)
    | exact Or.inr (by decide)
    | omega
    | dsimp only

theorem stationComplete_within (n : Station) (d : Dev) :
    d.within [.sht, .mpl] [8] (stationComplete n d) := by
  unfold stationComplete
  try dsimp only
  repeat' first
    | with_reducible exact within_refl _ _ _
    | assumption
    | with_reducible apply within_comp (shtMod_within _ _ _)
    | with_reducible apply within_comp (meltComplete_within _ _)
    | with_reducible apply within_comp (setQdepth_within _ _)
    | with_reducible apply within_foldl_snd
    | with_reducible apply within_foldl
    | with_reducible apply within_ite
    | (intro (_ : Dev) _; try dsimp only)
    | (intro (_ : _ × Dev) _; try dsimp only)
    | split
    | decide
    | exact Or.inl (by decide)
    | exact Or.inr (by decide)
    | omega
    | dsimp only

theorem repick_within (n : Station) (d : Dev) :
    d.within [.sht] [8] (repick n d) := by
  unfold repick
  try dsimp only
  repeat' first
    | with_reducible exact within_refl _ _ _
    | assumption
    | with_reducible apply within_comp (count_within _ (SHT_REPICKS _) _ 8 _ _)
    | with_reducible apply within_comp (count_within _ (SHT_SKIPPED _) _ 8 _ _)
    | with_reducible apply within_comp (count_within _ (SHT_REEXPOSED _) _ 8 _ _)
    | with_reducible apply within_comp (shtMod_within _ _ _)
    | with_reducible apply within_foldl_snd
    | with_reducible apply within_foldl
    | with_reducible apply within_ite
    | (intro (_ : Dev) _; try dsimp only)
    | (intro (_ : _ × Dev) _; try dsimp only)
    | split
    | decide
    | exact Or.inl (by decide)
    | exact Or.inr (by decide)
    | (simp only [SHT_REEXPOSED, SHT_REPICKS, SHT_SKIPPED]; omega)
    | omega
    | dsimp only

theorem shtDeadline_within (n : Station) (edges : Bool) (d : Dev) :
    d.within [.ev, .flt, .wal, .dof, .sht, .mpl] [2, 8, 18] (shtDeadline n edges d) := by
  unfold shtDeadline
  try dsimp only
  repeat' first
    | with_reducible exact within_refl _ _ _
    | assumption
    | with_reducible apply within_comp (count_within _ (SHT_DEADLINES _) _ 8 _ _)
    | with_reducible apply within_comp (shtMod_within _ _ _)
    | with_reducible apply within_comp (fault_within _ _ _ _ _)
    | with_reducible apply within_comp (shtFlag_within _ _ _ _ _)
    | with_reducible apply within_foldl_snd
    | with_reducible apply within_foldl
    | with_reducible apply within_ite
    | (intro (_ : Dev) _; try dsimp only)
    | (intro (_ : _ × Dev) _; try dsimp only)
    | split
    | decide
    | exact Or.inl (by decide)
    | exact Or.inr (by decide)
    | (simp only [SHT_DEADLINES, SHT_FLAGS, SHT_FLAGS_DEADLINE]; omega)
    | omega
    | dsimp only

theorem deadlinePeriod_within (n : Station) (d : Dev) :
    d.within [.ev, .flt, .wal, .dof, .sht, .mpl] [2, 18] (deadlinePeriod n d) := by
  unfold deadlinePeriod
  try dsimp only
  repeat' first
    | with_reducible exact within_refl _ _ _
    | assumption
    | with_reducible apply within_comp (shtMod_within _ _ _)
    | with_reducible apply within_comp (escalate_within _ _ _)
    | with_reducible apply within_comp (recovered_within _ _)
    | with_reducible apply within_foldl_snd
    | with_reducible apply within_foldl
    | with_reducible apply within_ite
    | (intro (_ : Dev) _; try dsimp only)
    | (intro (_ : _ × Dev) _; try dsimp only)
    | split
    | decide
    | exact Or.inl (by decide)
    | exact Or.inr (by decide)
    | omega
    | dsimp only

end Sys2Proof.Machine
end

