-- ==== Sys2Proof/Laws/OfTrimOps.lean ====
section
/-!
SUPPORT. What each operation of Machine/TrimOps.lean may touch: the parts of the device and the blocks of registers.
-/
namespace Sys2Proof.Machine

open Reg

set_option linter.unusedTactic false
set_option linter.unreachableTactic false
set_option linter.unusedSimpArgs false

theorem trmMod_within (f : Trim → Trim) (d : Dev) :
    d.within [.trm] [] (d.trmMod f) := by
  unfold Dev.trmMod
  try simp only [mk_trm]
  repeat' first
    | with_reducible exact within_refl _ _ _
    | assumption
    | with_reducible apply within_foldl_snd
    | with_reducible apply within_foldl
    | with_reducible apply within_ite
    | (intro (_ : Dev) _; try dsimp only)
    | (intro (_ : _ × Dev) _; try dsimp only)
    | with_reducible apply within_comp (toTrm_within _ _)
    | split
    | decide
    | exact Or.inl (by decide)
    | exact Or.inr (by decide)
    | omega
    | dsimp only

theorem trimMod_within (n : Station) (f : TrimStation → TrimStation) (d : Dev) :
    d.within [.trm] [] (d.trimMod n f) := by
  unfold Dev.trimMod
  try dsimp only
  repeat' first
    | with_reducible exact within_refl _ _ _
    | assumption
    | with_reducible apply within_comp (trmMod_within _ _)
    | with_reducible apply within_foldl_snd
    | with_reducible apply within_foldl
    | with_reducible apply within_ite
    | (intro (_ : Dev) _; try dsimp only)
    | (intro (_ : _ × Dev) _; try dsimp only)
    | split
    | decide
    | exact Or.inl (by decide)
    | exact Or.inr (by decide)
    | omega
    | dsimp only

theorem setTrimK_within (n : Station) (k : List Int) (d : Dev) :
    d.within [] [16] (setTrimK n k d) := by
  unfold setTrimK
  try dsimp only
  repeat' first
    | with_reducible exact within_refl _ _ _
    | assumption
    | with_reducible apply within_comp (setRegS_within _ (TRMS_K_TY _) _ 16 _ _)
    | with_reducible apply within_comp (setRegS_within _ (TRMS_K_A _ _) _ 16 _ _)
    | with_reducible apply within_comp (setRegS_within _ (TRMS_K_TX _) _ 16 _ _)
    | with_reducible apply within_foldl_snd
    | with_reducible apply within_foldl_mem
    | (intro (v : Dev) x hx; have hx := List.mem_range.1 hx; try dsimp only)
    | with_reducible apply within_foldl
    | with_reducible apply within_ite
    | (intro (_ : Dev) _; try dsimp only)
    | (intro (_ : _ × Dev) _; try dsimp only)
    | split
    | decide
    | exact Or.inl (by decide)
    | exact Or.inr (by decide)
    | (simp only [TRMS_K_A, TRMS_K_TX, TRMS_K_TY]; omega)
    | omega
    | dsimp only

theorem trimFail_within (inst : Nat) (d : Dev) :
    d.within [.ev, .flt, .wal, .dof, .mpl] [2, 18] (trimFail inst d) := by
  unfold trimFail
  try dsimp only
  repeat' first
    | with_reducible exact within_refl _ _ _
    | assumption
    | with_reducible apply within_comp (fault_within _ _ _ _ _)
    | with_reducible apply within_comp (occur_within _ _ _ _ _)
    | with_reducible apply within_foldl_snd
    | with_reducible apply within_foldl
    | with_reducible apply within_ite
    | (intro (_ : Dev) _; try dsimp only)
    | (intro (_ : _ × Dev) _; try dsimp only)
    | split
    | decide
    | exact Or.inl (by decide)
    | exact Or.inr (by decide)
    | omega
    | dsimp only

theorem trimResult_within (n : Station) (r : Nat) (d : Dev) :
    d.within [.ev, .flt, .wal, .dof, .mpl] [2, 16, 18] (trimResult n r d) := by
  unfold trimResult
  try dsimp only
  repeat' first
    | with_reducible exact within_refl _ _ _
    | assumption
    | with_reducible apply within_comp (put_within _ (TRMS_STATUS_RESULT _) _ 16 _ _)
    | with_reducible apply within_comp (put_within _ TRM_FLAGS_STN_FAIL _ 16 _ _)
    | with_reducible apply within_comp (trimFail_within _ _)
    | with_reducible apply within_foldl_snd
    | with_reducible apply within_foldl
    | with_reducible apply within_ite
    | (intro (_ : Dev) _; try dsimp only)
    | (intro (_ : _ × Dev) _; try dsimp only)
    | split
    | decide
    | exact Or.inl (by decide)
    | exact Or.inr (by decide)
    | (simp only [TRMS_STATUS, TRMS_STATUS_RESULT, TRM_FLAGS, TRM_FLAGS_STN_FAIL]; omega)
    | omega
    | dsimp only

theorem trimShow_within (n : Station) (d : Dev) :
    d.within [] [16] (trimShow n d) := by
  unfold trimShow
  try dsimp only
  repeat' first
    | with_reducible exact within_refl _ _ _
    | assumption
    | with_reducible apply within_comp (put_within _ (TRMS_STATUS_SLEW_D _) _ 16 _ _)
    | with_reducible apply within_comp (put_within _ (TRMS_STATUS_SLEW_G _) _ 16 _ _)
    | with_reducible apply within_comp (put_within _ (TRMS_STATUS_GRID_PEND _) _ 16 _ _)
    | with_reducible apply within_comp (put_within _ TRM_STATUS_REG_STATE _ 16 _ _)
    | with_reducible apply within_comp (put_within _ (TRMS_STATUS_STATE _) _ 16 _ _)
    | with_reducible apply within_foldl_snd
    | with_reducible apply within_foldl
    | with_reducible apply within_ite
    | (intro (_ : Dev) _; try dsimp only)
    | (intro (_ : _ × Dev) _; try dsimp only)
    | split
    | decide
    | exact Or.inl (by decide)
    | exact Or.inr (by decide)
    | (simp only [TRMS_STATUS, TRMS_STATUS_GRID_PEND, TRMS_STATUS_SLEW_D, TRMS_STATUS_SLEW_G, TRMS_STATUS_STATE, TRM_STATUS, TRM_STATUS_REG_STATE]; omega)
    | omega
    | dsimp only

theorem trimWriteGrid_within (n : Station) (base : Nat) (k : List Int) (d : Dev) :
    d.within [.shadow, .creel, .trm] [16] (trimWriteGrid n base k d) := by
  unfold trimWriteGrid
  try dsimp only
  repeat' first
    | with_reducible exact within_refl _ _ _
    | assumption
    | with_reducible apply within_comp (setCreelBytes_within _ _ _)
    | with_reducible apply within_comp (setShadow_within _ _ _)
    | with_reducible apply within_comp (trimMod_within _ _ _)
    | with_reducible apply within_comp (trimShow_within _ _)
    | with_reducible apply within_foldl_snd
    | with_reducible apply within_foldl
    | with_reducible apply within_ite
    | (intro (_ : Dev) _; try dsimp only)
    | (intro (_ : _ × Dev) _; try dsimp only)
    | split
    | decide
    | exact Or.inl (by decide)
    | exact Or.inr (by decide)
    | omega
    | dsimp only

theorem trimLayer_within  (d : Dev) :
    d.within [.shadow, .ev, .flt, .wal, .creel, .dof, .mpl, .trm] [2, 16, 18] (trimLayer  d) := by
  unfold trimLayer
  try dsimp only
  repeat' first
    | with_reducible exact within_refl _ _ _
    | assumption
    | with_reducible apply within_comp (put_within _ TRM_REG_RESULT_RESULT _ 16 _ _)
    | with_reducible apply within_comp (put_within _ TRM_FLAGS_REG_FAIL _ 16 _ _)
    | with_reducible apply within_comp (trimMod_within _ _ _)
    | with_reducible apply within_comp (trmMod_within _ _)
    | with_reducible apply within_comp (occur_within _ _ _ _ _)
    | with_reducible apply within_comp (setTrimK_within _ _ _)
    | with_reducible apply within_comp (trimResult_within _ _ _)
    | with_reducible apply within_comp (trimShow_within _ _)
    | with_reducible apply within_comp (trimWriteGrid_within _ _ _ _)
    | with_reducible apply within_foldl_snd
    | with_reducible apply within_foldl
    | with_reducible apply within_ite
    | (intro (_ : Dev) _; try dsimp only)
    | (intro (_ : _ × Dev) _; try dsimp only)
    | split
    | decide
    | exact Or.inl (by decide)
    | exact Or.inr (by decide)
    | (simp only [TRM_FLAGS, TRM_FLAGS_REG_FAIL, TRM_REG_RESULT, TRM_REG_RESULT_RESULT]; omega)
    | omega
    | dsimp only

theorem trimEnd_within (n : Station) (r : Nat) (d : Dev) :
    d.within [.ev, .flt, .wal, .dof, .mpl, .trm] [2, 11, 16, 18] (trimEnd n r d) := by
  unfold trimEnd
  try dsimp only
  repeat' first
    | with_reducible exact within_refl _ _ _
    | assumption
    | with_reducible apply within_comp (put_within _ (MPLS_STATUS_TRIM_HOLD _) _ 11 _ _)
    | with_reducible apply within_comp (trimMod_within _ _ _)
    | with_reducible apply within_comp (trimResult_within _ _ _)
    | with_reducible apply within_comp (trimShow_within _ _)
    | with_reducible apply within_foldl_snd
    | with_reducible apply within_foldl
    | with_reducible apply within_ite
    | (intro (_ : Dev) _; try dsimp only)
    | (intro (_ : _ × Dev) _; try dsimp only)
    | split
    | decide
    | exact Or.inl (by decide)
    | exact Or.inr (by decide)
    | (simp only [MPLS_STATUS, MPLS_STATUS_TRIM_HOLD]; omega)
    | omega
    | dsimp only

theorem trimAbort_within (n : Station) (d : Dev) :
    d.within [.ev, .flt, .wal, .dof, .mpl, .trm] [2, 11, 16, 18] (trimAbort n d) := by
  unfold trimAbort
  try dsimp only
  repeat' first
    | with_reducible exact within_refl _ _ _
    | assumption
    | with_reducible apply within_comp (trimEnd_within _ _ _)
    | with_reducible apply within_foldl_snd
    | with_reducible apply within_foldl
    | with_reducible apply within_ite
    | (intro (_ : Dev) _; try dsimp only)
    | (intro (_ : _ × Dev) _; try dsimp only)
    | split
    | decide
    | exact Or.inl (by decide)
    | exact Or.inr (by decide)
    | omega
    | dsimp only

theorem slewDark_within (n : Station) (new : Nat) (len : Nat) (d : Dev) :
    d.within [.trm] [16] (slewDark n new len d) := by
  unfold slewDark
  try dsimp only
  repeat' first
    | with_reducible exact within_refl _ _ _
    | assumption
    | with_reducible apply within_comp (trimMod_within _ _ _)
    | with_reducible apply within_comp (trimShow_within _ _)
    | with_reducible apply within_foldl_snd
    | with_reducible apply within_foldl
    | with_reducible apply within_ite
    | (intro (_ : Dev) _; try dsimp only)
    | (intro (_ : _ × Dev) _; try dsimp only)
    | split
    | decide
    | exact Or.inl (by decide)
    | exact Or.inr (by decide)
    | omega
    | dsimp only

theorem slewGain_within (n : Station) (new : Nat) (len : Nat) (d : Dev) :
    d.within [.trm] [16] (slewGain n new len d) := by
  unfold slewGain
  try dsimp only
  repeat' first
    | with_reducible exact within_refl _ _ _
    | assumption
    | with_reducible apply within_comp (trimMod_within _ _ _)
    | with_reducible apply within_comp (trimShow_within _ _)
    | with_reducible apply within_foldl_snd
    | with_reducible apply within_foldl
    | with_reducible apply within_ite
    | (intro (_ : Dev) _; try dsimp only)
    | (intro (_ : _ × Dev) _; try dsimp only)
    | split
    | decide
    | exact Or.inl (by decide)
    | exact Or.inr (by decide)
    | omega
    | dsimp only

theorem trimApply_within (n : Station) (d : Dev) :
    d.within [.ev, .flt, .wal, .dof, .mpl, .trm] [2, 16, 18] (trimApply n d) := by
  unfold trimApply
  try dsimp only
  repeat' first
    | with_reducible exact within_refl _ _ _
    | assumption
    | with_reducible apply within_comp (setReg_within _ (TRMS_SAMPLES _) _ 16 _ _)
    | with_reducible apply within_comp (trimMod_within _ _ _)
    | with_reducible apply within_comp (slewDark_within _ _ _ _)
    | with_reducible apply within_comp (slewGain_within _ _ _ _)
    | with_reducible apply within_comp (trimResult_within _ _ _)
    | with_reducible apply within_comp (trimShow_within _ _)
    | with_reducible apply within_foldl_snd
    | with_reducible apply within_foldl
    | with_reducible apply within_ite
    | (intro (_ : Dev) _; try dsimp only)
    | (intro (_ : _ × Dev) _; try dsimp only)
    | split
    | decide
    | exact Or.inl (by decide)
    | exact Or.inr (by decide)
    | (simp only [TRMS_SAMPLES]; omega)
    | omega
    | dsimp only

theorem trimDarkNew_within (n : Station) (v : Nat) (d : Dev) :
    d.within [.trm] [16] (trimDarkNew n v d) := by
  unfold trimDarkNew
  try dsimp only
  repeat' first
    | with_reducible exact within_refl _ _ _
    | assumption
    | with_reducible apply within_comp (setReg_within _ (TRMS_DARK_NEW _) _ 16 _ _)
    | with_reducible apply within_comp (trimMod_within _ _ _)
    | with_reducible apply within_foldl_snd
    | with_reducible apply within_foldl
    | with_reducible apply within_ite
    | (intro (_ : Dev) _; try dsimp only)
    | (intro (_ : _ × Dev) _; try dsimp only)
    | split
    | decide
    | exact Or.inl (by decide)
    | exact Or.inr (by decide)
    | (simp only [TRMS_DARK_NEW]; omega)
    | omega
    | dsimp only

theorem trimNewK_within (n : Station) (k : List Int) (d : Dev) :
    d.within [.shadow, .creel, .trm] [16] (trimNewK n k d).2 := by
  unfold trimNewK
  try dsimp only
  repeat' first
    | with_reducible exact within_refl _ _ _
    | assumption
    | with_reducible apply within_comp (trimMod_within _ _ _)
    | with_reducible apply within_comp (trimWriteGrid_within _ _ _ _)
    | with_reducible apply within_foldl_snd
    | with_reducible apply within_foldl
    | with_reducible apply within_ite
    | (intro (_ : Dev) _; try dsimp only)
    | (intro (_ : _ × Dev) _; try dsimp only)
    | split
    | decide
    | exact Or.inl (by decide)
    | exact Or.inr (by decide)
    | omega
    | dsimp only

theorem trimRebuild_within (n : Station) (d : Dev) :
    d.within [.shadow, .ev, .flt, .wal, .creel, .dof, .mpl, .trm] [2, 16, 18] (trimRebuild n d) := by
  unfold trimRebuild
  try dsimp only
  repeat' first
    | with_reducible exact within_refl _ _ _
    | assumption
    | with_reducible apply within_snd ‹_ = (_, _)›
    | with_reducible apply within_comp (trimNewK_within _ _ _)
    | with_reducible apply within_comp (trimResult_within _ _ _)
    | with_reducible apply within_foldl_snd
    | with_reducible apply within_foldl
    | with_reducible apply within_ite
    | (intro (_ : Dev) _; try dsimp only)
    | (intro (_ : _ × Dev) _; try dsimp only)
    | split
    | decide
    | exact Or.inl (by decide)
    | exact Or.inr (by decide)
    | omega
    | dsimp only

theorem trimRegAbort_within  (d : Dev) :
    d.within [.trm] [16] (trimRegAbort  d) := by
  unfold trimRegAbort
  try dsimp only
  repeat' first
    | with_reducible exact within_refl _ _ _
    | assumption
    | with_reducible apply within_comp (trmMod_within _ _)
    | with_reducible apply within_comp (trimShow_within _ _)
    | with_reducible apply within_foldl_snd
    | with_reducible apply within_foldl
    | with_reducible apply within_ite
    | (intro (_ : Dev) _; try dsimp only)
    | (intro (_ : _ × Dev) _; try dsimp only)
    | split
    | decide
    | exact Or.inl (by decide)
    | exact Or.inr (by decide)
    | omega
    | dsimp only

theorem trimRegister_within  (d : Dev) :
    d.within [.trm] [16] (trimRegister  d) := by
  unfold trimRegister
  try dsimp only
  repeat' first
    | with_reducible exact within_refl _ _ _
    | assumption
    | with_reducible apply within_comp (trmMod_within _ _)
    | with_reducible apply within_comp (trimShow_within _ _)
    | with_reducible apply within_foldl_snd
    | with_reducible apply within_foldl
    | with_reducible apply within_ite
    | (intro (_ : Dev) _; try dsimp only)
    | (intro (_ : _ × Dev) _; try dsimp only)
    | split
    | decide
    | exact Or.inl (by decide)
    | exact Or.inr (by decide)
    | omega
    | dsimp only

theorem trimSave_within  (d : Dev) :
    d.within [.trm] [16] (trimSave  d) := by
  unfold trimSave
  try dsimp only
  repeat' first
    | with_reducible exact within_refl _ _ _
    | assumption
    | with_reducible apply within_comp (put_within _ TRM_STATUS_SAVE_BUSY _ 16 _ _)
    | with_reducible apply within_comp (trmMod_within _ _)
    | with_reducible apply within_foldl_snd
    | with_reducible apply within_foldl
    | with_reducible apply within_ite
    | (intro (_ : Dev) _; try dsimp only)
    | (intro (_ : _ × Dev) _; try dsimp only)
    | split
    | decide
    | exact Or.inl (by decide)
    | exact Or.inr (by decide)
    | (simp only [TRM_STATUS, TRM_STATUS_SAVE_BUSY]; omega)
    | omega
    | dsimp only

theorem trimSaveStage_within  (d : Dev) :
    d.within [.ev, .wal, .trm] [2, 16, 18] (trimSaveStage  d) := by
  unfold trimSaveStage
  try dsimp only
  repeat' first
    | with_reducible exact within_refl _ _ _
    | assumption
    | with_reducible apply within_comp (put_within _ TRM_FLAGS_SAVE_FAIL _ 16 _ _)
    | with_reducible apply within_comp (put_within _ TRM_STATUS_SAVE_BUSY _ 16 _ _)
    | with_reducible apply within_comp (trmMod_within _ _)
    | with_reducible apply within_comp (stage_within _ _)
    | with_reducible apply within_foldl_snd
    | with_reducible apply within_foldl
    | with_reducible apply within_ite
    | (intro (_ : Dev) _; try dsimp only)
    | (intro (_ : _ × Dev) _; try dsimp only)
    | split
    | decide
    | exact Or.inl (by decide)
    | exact Or.inr (by decide)
    | (simp only [TRM_FLAGS, TRM_FLAGS_SAVE_FAIL, TRM_STATUS, TRM_STATUS_SAVE_BUSY]; omega)
    | omega
    | dsimp only

theorem trimStart_within (n : Station) (gain : Bool) (d : Dev) :
    d.within [.ev, .flt, .wal, .dof, .mpl, .trm] [2, 16, 18] (trimStart n gain d) := by
  unfold trimStart
  try dsimp only
  repeat' first
    | with_reducible exact within_refl _ _ _
    | assumption
    | with_reducible apply within_comp (setReg_within _ (TRMS_G_OUT _) _ 16 _ _)
    | with_reducible apply within_comp (setReg_within _ (TRMS_SAMPLES _) _ 16 _ _)
    | with_reducible apply within_comp (trimMod_within _ _ _)
    | with_reducible apply within_comp (trimResult_within _ _ _)
    | with_reducible apply within_comp (trimShow_within _ _)
    | with_reducible apply within_foldl_snd
    | with_reducible apply within_foldl
    | with_reducible apply within_ite
    | (intro (_ : Dev) _; try dsimp only)
    | (intro (_ : _ × Dev) _; try dsimp only)
    | split
    | decide
    | exact Or.inl (by decide)
    | exact Or.inr (by decide)
    | (simp only [TRMS_G_OUT, TRMS_SAMPLES]; omega)
    | omega
    | dsimp only

theorem trimAutoDark_within  (d : Dev) :
    d.within [.ev, .flt, .wal, .dof, .mpl, .trm] [2, 16, 18] (trimAutoDark  d) := by
  unfold trimAutoDark
  try dsimp only
  repeat' first
    | with_reducible exact within_refl _ _ _
    | assumption
    | with_reducible apply within_comp (trimStart_within _ _ _)
    | with_reducible apply within_foldl_snd
    | with_reducible apply within_foldl
    | with_reducible apply within_ite
    | (intro (_ : Dev) _; try dsimp only)
    | (intro (_ : _ × Dev) _; try dsimp only)
    | split
    | decide
    | exact Or.inl (by decide)
    | exact Or.inr (by decide)
    | omega
    | dsimp only

theorem trimScan_within  (d : Dev) :
    d.within [.trm] [] (trimScan  d) := by
  unfold trimScan
  try dsimp only
  repeat' first
    | with_reducible exact within_refl _ _ _
    | assumption
    | with_reducible apply within_comp (trmMod_within _ _)
    | with_reducible apply within_foldl_snd
    | with_reducible apply within_foldl
    | with_reducible apply within_ite
    | (intro (_ : Dev) _; try dsimp only)
    | (intro (_ : _ × Dev) _; try dsimp only)
    | split
    | decide
    | exact Or.inl (by decide)
    | exact Or.inr (by decide)
    | omega
    | dsimp only

theorem trimClose_within  (d : Dev) :
    d.within [.trm] [16] (trimClose  d) := by
  unfold trimClose
  try dsimp only
  repeat' first
    | with_reducible exact within_refl _ _ _
    | assumption
    | with_reducible apply within_comp (trmMod_within _ _)
    | with_reducible apply within_comp (trimShow_within _ _)
    | with_reducible apply within_foldl_snd
    | with_reducible apply within_foldl
    | with_reducible apply within_ite
    | (intro (_ : Dev) _; try dsimp only)
    | (intro (_ : _ × Dev) _; try dsimp only)
    | split
    | decide
    | exact Or.inl (by decide)
    | exact Or.inr (by decide)
    | omega
    | dsimp only

theorem trimSample_within (n : Station) (tick : Nat) (good : Bool) (emitting : Bool) (p : PyroPair) (d : Dev) :
    d.within [.free, .trm] [16] (trimSample n tick good emitting p d).2 := by
  unfold trimSample
  try dsimp only
  repeat' first
    | with_reducible exact within_refl _ _ _
    | assumption
    | with_reducible apply within_snd ‹_ = (_, _)›
    | with_reducible apply within_comp (setReg_within _ (TRMS_G_OUT _) _ 16 _ _)
    | with_reducible apply within_comp (setReg_within _ (TRMS_SAMPLES _) _ 16 _ _)
    | with_reducible apply within_comp (fresh_within _ _)
    | with_reducible apply within_comp (trimMod_within _ _ _)
    | with_reducible apply within_foldl_snd
    | with_reducible apply within_foldl
    | with_reducible apply within_ite
    | (intro (_ : Dev) _; try dsimp only)
    | (intro (_ : _ × Dev) _; try dsimp only)
    | split
    | decide
    | exact Or.inl (by decide)
    | exact Or.inr (by decide)
    | (simp only [TRMS_G_OUT, TRMS_SAMPLES]; omega)
    | omega
    | dsimp only

theorem trimPeriod_within (n : Station) (d : Dev) :
    d.within [.trm] [11, 16] (trimPeriod n d) := by
  unfold trimPeriod
  try dsimp only
  repeat' first
    | with_reducible exact within_refl _ _ _
    | assumption
    | with_reducible apply within_comp (put_within _ (MPLS_DARK_D2 _) _ 11 _ _)
    | with_reducible apply within_comp (setReg_within _ (MPLS_GAIN _) _ 11 _ _)
    | with_reducible apply within_comp (put_within _ (MPLS_DARK_D1 _) _ 11 _ _)
    | with_reducible apply within_comp (trimMod_within _ _ _)
    | with_reducible apply within_comp (trimShow_within _ _)
    | with_reducible apply within_foldl_snd
    | with_reducible apply within_foldl
    | with_reducible apply within_ite
    | (intro (_ : Dev) _; try dsimp only)
    | (intro (_ : _ × Dev) _; try dsimp only)
    | split
    | decide
    | exact Or.inl (by decide)
    | exact Or.inr (by decide)
    | (simp only [MPLS_DARK, MPLS_DARK_D1, MPLS_DARK_D2, MPLS_GAIN]; omega)
    | omega
    | dsimp only

theorem darkDone_within (n : Station) (d : Dev) :
    d.within [.ev, .flt, .wal, .dof, .mpl, .trm] [2, 11, 16, 18] (darkDone n d) := by
  unfold darkDone
  try dsimp only
  repeat' first
    | with_reducible exact within_refl _ _ _
    | assumption
    | with_reducible apply within_comp (setReg_within _ (TRMS_SPREAD _) _ 16 _ _)
    | with_reducible apply within_comp (setReg_within _ (TRMS_DARK_NEW _) _ 16 _ _)
    | with_reducible apply within_comp (occur_within _ _ _ _ _)
    | with_reducible apply within_comp (slewDark_within _ _ _ _)
    | with_reducible apply within_comp (trimEnd_within _ _ _)
    | with_reducible apply within_foldl_snd
    | with_reducible apply within_foldl
    | with_reducible apply within_ite
    | (intro (_ : Dev) _; try dsimp only)
    | (intro (_ : _ × Dev) _; try dsimp only)
    | split
    | decide
    | exact Or.inl (by decide)
    | exact Or.inr (by decide)
    | (simp only [TRMS_DARK_NEW, TRMS_SPREAD]; omega)
    | omega
    | dsimp only

theorem gainDone_within (n : Station) (d : Dev) :
    d.within [.free, .ev, .flt, .wal, .dof, .mpl, .trm] [2, 11, 16, 18] (gainDone n d) := by
  unfold gainDone
  try dsimp only
  repeat' first
    | with_reducible exact within_refl _ _ _
    | assumption
    | with_reducible apply within_snd ‹_ = (_, _)›
    | with_reducible apply within_comp (setReg_within _ (TRMS_GAIN_NEW _) _ 16 _ _)
    | with_reducible apply within_comp (setReg_within _ (TRMS_G_QMED _) _ 16 _ _)
    | with_reducible apply within_comp (fresh_within _ _)
    | with_reducible apply within_comp (occur_within _ _ _ _ _)
    | with_reducible apply within_comp (slewGain_within _ _ _ _)
    | with_reducible apply within_comp (trimEnd_within _ _ _)
    | with_reducible apply within_foldl_snd
    | with_reducible apply within_foldl
    | with_reducible apply within_ite
    | (intro (_ : Dev) _; try dsimp only)
    | (intro (_ : _ × Dev) _; try dsimp only)
    | split
    | decide
    | exact Or.inl (by decide)
    | exact Or.inr (by decide)
    | (simp only [TRMS_GAIN_NEW, TRMS_G_QMED]; omega)
    | omega
    | dsimp only

theorem trimTimeout_within (n : Station) (d : Dev) :
    d.within [.ev, .flt, .wal, .dof, .mpl, .trm] [2, 11, 16, 18] (trimTimeout n d) := by
  unfold trimTimeout
  try dsimp only
  repeat' first
    | with_reducible exact within_refl _ _ _
    | assumption
    | with_reducible apply within_comp (setReg_within _ (TRMS_SPREAD _) _ 16 _ _)
    | with_reducible apply within_comp (trimEnd_within _ _ _)
    | with_reducible apply within_foldl_snd
    | with_reducible apply within_foldl
    | with_reducible apply within_ite
    | (intro (_ : Dev) _; try dsimp only)
    | (intro (_ : _ × Dev) _; try dsimp only)
    | split
    | decide
    | exact Or.inl (by decide)
    | exact Or.inr (by decide)
    | (simp only [TRMS_SPREAD]; omega)
    | omega
    | dsimp only

theorem regEnd_within (r : Nat) (k : Nat) (d : Dev) :
    d.within [.ev, .flt, .wal, .dof, .mpl, .trm] [2, 16, 18] (regEnd r k d) := by
  unfold regEnd
  try dsimp only
  repeat' first
    | with_reducible exact within_refl _ _ _
    | assumption
    | with_reducible apply within_comp (setReg_within _ TRM_REG_RESULT _ 16 _ _)
    | with_reducible apply within_comp (setReg_within _ TRM_REG_LAYER _ 16 _ _)
    | with_reducible apply within_comp (put_within _ TRM_FLAGS_REG_FAIL _ 16 _ _)
    | with_reducible apply within_comp (trmMod_within _ _)
    | with_reducible apply within_comp (trimFail_within _ _)
    | with_reducible apply within_comp (trimShow_within _ _)
    | with_reducible apply within_foldl_snd
    | with_reducible apply within_foldl
    | with_reducible apply within_ite
    | (intro (_ : Dev) _; try dsimp only)
    | (intro (_ : _ × Dev) _; try dsimp only)
    | split
    | decide
    | exact Or.inl (by decide)
    | exact Or.inr (by decide)
    | (simp only [TRM_FLAGS, TRM_FLAGS_REG_FAIL, TRM_REG_LAYER, TRM_REG_RESULT]; omega)
    | omega
    | dsimp only

end Sys2Proof.Machine
end

