-- ==== Sys2Proof/Laws/OfLinkOps.lean ====
section
/-!
SUPPORT. What each operation of Machine/LinkOps.lean may touch: the parts of the device and the blocks of registers.
-/
namespace Sys2Proof.Machine

open Reg

set_option linter.unusedTactic false
set_option linter.unreachableTactic false
set_option linter.unusedSimpArgs false

theorem linkFlag_within (n : Station) (f : Field) (code : Nat) (d : Dev)  (hf : f.addr / 0x10000 = 5) :
    d.within [.ev, .wal] [2, 5, 18] (linkFlag n f code d) := by
  unfold linkFlag
  try dsimp only
  repeat' first
    | with_reducible exact within_refl _ _ _
    | assumption
    | with_reducible apply within_comp (flagEvent_within f _ _ _ 5 _ _ _ _)
    | with_reducible apply within_comp (put_within _ f _ 5 _ _)
    | with_reducible apply within_foldl_snd
    | with_reducible apply within_foldl
    | with_reducible apply within_ite
    | (intro (_ : Dev) _; try dsimp only)
    | (intro (_ : _ × Dev) _; try dsimp only)
    | split
    | decide
    | exact Or.inl (by decide)
    | exact Or.inr (by decide)
    | omega
    | dsimp only

theorem lnkMod_within (n : Station) (f : Link → Link) (d : Dev) :
    d.within [.lnk] [] (d.lnkMod n f) := by
  unfold Dev.lnkMod
  try simp only [mk_lnk]
  repeat' first
    | with_reducible exact within_refl _ _ _
    | assumption
    | with_reducible apply within_foldl_snd
    | with_reducible apply within_foldl
    | with_reducible apply within_ite
    | (intro (_ : Dev) _; try dsimp only)
    | (intro (_ : _ × Dev) _; try dsimp only)
    | with_reducible apply within_comp (toLnk_within _ _)
    | split
    | decide
    | exact Or.inl (by decide)
    | exact Or.inr (by decide)
    | omega
    | dsimp only

theorem setLink_within (n : Station) (st : Nat) (d : Dev) :
    d.within [] [5] (setLink n st d) := by
  unfold setLink
  try dsimp only
  repeat' first
    | with_reducible exact within_refl _ _ _
    | assumption
    | with_reducible apply within_comp (put_within _ (LNK_WSTATE_STATE _) _ 5 _ _)
    | with_reducible apply within_comp (put_within _ (LNK_WSTATE_ALIGNED _) _ 5 _ _)
    | with_reducible apply within_foldl_snd
    | with_reducible apply within_foldl
    | with_reducible apply within_ite
    | (intro (_ : Dev) _; try dsimp only)
    | (intro (_ : _ × Dev) _; try dsimp only)
    | split
    | decide
    | exact Or.inl (by decide)
    | exact Or.inr (by decide)
    | (simp only [LNK_WSTATE, LNK_WSTATE_ALIGNED, LNK_WSTATE_STATE]; omega)
    | omega
    | dsimp only

theorem linkCleared_within (n : Station) (d : Dev) :
    d.within [.lnk] [5] (linkCleared n d) := by
  unfold linkCleared
  try dsimp only
  repeat' first
    | with_reducible exact within_refl _ _ _
    | assumption
    | with_reducible apply within_comp (lnkMod_within _ _ _)
    | with_reducible apply within_comp (setLink_within _ _ _)
    | with_reducible apply within_foldl_snd
    | with_reducible apply within_foldl
    | with_reducible apply within_ite
    | (intro (_ : Dev) _; try dsimp only)
    | (intro (_ : _ × Dev) _; try dsimp only)
    | split
    | decide
    | exact Or.inl (by decide)
    | exact Or.inr (by decide)
    | omega
    | dsimp only

theorem linkRetire_within (n : Station) (d : Dev) :
    d.within [.lnk] [5] (linkRetire n d) := by
  unfold linkRetire
  try dsimp only
  repeat' first
    | with_reducible exact within_refl _ _ _
    | assumption
    | with_reducible apply within_comp (lnkMod_within _ _ _)
    | with_reducible apply within_comp (setLink_within _ _ _)
    | with_reducible apply within_foldl_snd
    | with_reducible apply within_foldl
    | with_reducible apply within_ite
    | (intro (_ : Dev) _; try dsimp only)
    | (intro (_ : _ × Dev) _; try dsimp only)
    | split
    | decide
    | exact Or.inl (by decide)
    | exact Or.inr (by decide)
    | omega
    | dsimp only

theorem svcCmd_within (n : Station) (op : Nat) (d : Dev) :
    d.within [.lnk] [5] (svcCmd n op d) := by
  unfold svcCmd
  try dsimp only
  repeat' first
    | with_reducible exact within_refl _ _ _
    | assumption
    | with_reducible apply within_comp (put_within _ (LNK_SVC_STAT_BUSY _) _ 5 _ _)
    | with_reducible apply within_comp (lnkMod_within _ _ _)
    | with_reducible apply within_foldl_snd
    | with_reducible apply within_foldl
    | with_reducible apply within_ite
    | (intro (_ : Dev) _; try dsimp only)
    | (intro (_ : _ × Dev) _; try dsimp only)
    | split
    | decide
    | exact Or.inl (by decide)
    | exact Or.inr (by decide)
    | (simp only [LNK_SVC_STAT, LNK_SVC_STAT_BUSY]; omega)
    | omega
    | dsimp only

theorem linkLock_within (n : Station) (d : Dev) :
    d.within [] [5] (linkLock n d) := by
  unfold linkLock
  try dsimp only
  repeat' first
    | with_reducible exact within_refl _ _ _
    | assumption
    | with_reducible apply within_comp (setLink_within _ _ _)
    | with_reducible apply within_foldl_snd
    | with_reducible apply within_foldl
    | with_reducible apply within_ite
    | (intro (_ : Dev) _; try dsimp only)
    | (intro (_ : _ × Dev) _; try dsimp only)
    | split
    | decide
    | exact Or.inl (by decide)
    | exact Or.inr (by decide)
    | omega
    | dsimp only

theorem alignLoss_within (n : Station) (first : Nat) (d : Dev) :
    d.within [.ev, .flt, .wal, .dof, .sht, .mpl, .lnk, .trm] [2, 5, 8, 11, 16, 18] (alignLoss n first d) := by
  unfold alignLoss
  try dsimp only
  repeat' first
    | with_reducible exact within_refl _ _ _
    | assumption
    | with_reducible apply within_comp (count_within _ (LNK_ALIGN_LOSS _) _ 5 _ _)
    | with_reducible apply within_comp (put_within _ (LNK_SVC_STAT_BUSY _) _ 5 _ _)
    | with_reducible apply within_comp (lnkMod_within _ _ _)
    | with_reducible apply within_comp (fault_within _ _ _ _ _)
    | with_reducible apply within_comp (frameCut_within _ _)
    | with_reducible apply within_comp (linkFlag_within _ _ _ _ _)
    | with_reducible apply within_comp (setLink_within _ _ _)
    | with_reducible apply within_comp (shtCutAt_within _ _ _)
    | with_reducible apply within_comp (trimAbort_within _ _)
    | with_reducible apply within_foldl_snd
    | with_reducible apply within_foldl
    | with_reducible apply within_ite
    | (intro (_ : Dev) _; try dsimp only)
    | (intro (_ : _ × Dev) _; try dsimp only)
    | split
    | decide
    | exact Or.inl (by decide)
    | exact Or.inr (by decide)
    | (simp only [LNK_ALIGN_LOSS, LNK_SVC_STAT, LNK_SVC_STAT_BUSY, LNK_WFLAGS, LNK_WFLAGS_ALIGN_LOSS]; omega)
    | omega
    | dsimp only

theorem linkUnlock_within (n : Station) (k : Nat) (d : Dev) :
    d.within [.ev, .flt, .wal, .dof, .sht, .mpl, .lnk, .trm] [2, 5, 8, 11, 16, 18] (linkUnlock n k d) := by
  unfold linkUnlock
  try dsimp only
  repeat' first
    | with_reducible exact within_refl _ _ _
    | assumption
    | with_reducible apply within_comp (lnkMod_within _ _ _)
    | with_reducible apply within_comp (alignLoss_within _ _ _)
    | with_reducible apply within_comp (setLink_within _ _ _)
    | with_reducible apply within_foldl_snd
    | with_reducible apply within_foldl
    | with_reducible apply within_ite
    | (intro (_ : Dev) _; try dsimp only)
    | (intro (_ : _ × Dev) _; try dsimp only)
    | split
    | decide
    | exact Or.inl (by decide)
    | exact Or.inr (by decide)
    | omega
    | dsimp only

theorem linkOff_within (n : Station) (d : Dev) :
    d.within [.ev, .flt, .wal, .dof, .sht, .mpl, .lnk, .trm] [2, 5, 8, 11, 16, 18] (linkOff n d) := by
  unfold linkOff
  try dsimp only
  repeat' first
    | with_reducible exact within_refl _ _ _
    | assumption
    | with_reducible apply within_comp (put_within _ (LNK_SVC_STAT_BUSY _) _ 5 _ _)
    | with_reducible apply within_comp (lnkMod_within _ _ _)
    | with_reducible apply within_comp (frameCut_within _ _)
    | with_reducible apply within_comp (setLink_within _ _ _)
    | with_reducible apply within_comp (shtCut_within _ _)
    | with_reducible apply within_comp (trimAbort_within _ _)
    | with_reducible apply within_foldl_snd
    | with_reducible apply within_foldl
    | with_reducible apply within_ite
    | (intro (_ : Dev) _; try dsimp only)
    | (intro (_ : _ × Dev) _; try dsimp only)
    | split
    | decide
    | exact Or.inl (by decide)
    | exact Or.inr (by decide)
    | (simp only [LNK_SVC_STAT, LNK_SVC_STAT_BUSY]; omega)
    | omega
    | dsimp only

theorem linkRecovered_within (n : Station) (d : Dev) :
    d.within [.flt] [] (linkRecovered n d) := by
  unfold linkRecovered
  try dsimp only
  repeat' first
    | with_reducible exact within_refl _ _ _
    | assumption
    | with_reducible apply within_comp (recovered_within _ _)
    | with_reducible apply within_foldl_snd
    | with_reducible apply within_foldl
    | with_reducible apply within_ite
    | (intro (_ : Dev) _; try dsimp only)
    | (intro (_ : _ × Dev) _; try dsimp only)
    | split
    | decide
    | exact Or.inl (by decide)
    | exact Or.inr (by decide)
    | omega
    | dsimp only

theorem identRefused_within (n : Station) (d : Dev) :
    d.within [.ev, .flt, .wal, .dof, .mpl, .lnk] [2, 5, 18] (identRefused n d) := by
  unfold identRefused
  try dsimp only
  repeat' first
    | with_reducible exact within_refl _ _ _
    | assumption
    | with_reducible apply within_comp (lnkMod_within _ _ _)
    | with_reducible apply within_comp (fault_within _ _ _ _ _)
    | with_reducible apply within_comp (linkFlag_within _ _ _ _ _)
    | with_reducible apply within_comp (setLink_within _ _ _)
    | with_reducible apply within_foldl_snd
    | with_reducible apply within_foldl
    | with_reducible apply within_ite
    | (intro (_ : Dev) _; try dsimp only)
    | (intro (_ : _ × Dev) _; try dsimp only)
    | split
    | decide
    | exact Or.inl (by decide)
    | exact Or.inr (by decide)
    | (simp only [LNK_WFLAGS, LNK_WFLAGS_IDENT]; omega)
    | omega
    | dsimp only

theorem enterIdent_within (n : Station) (d : Dev) :
    d.within [.lnk] [5] (enterIdent n d) := by
  unfold enterIdent
  try dsimp only
  repeat' first
    | with_reducible exact within_refl _ _ _
    | assumption
    | with_reducible apply within_comp (lnkMod_within _ _ _)
    | with_reducible apply within_comp (setLink_within _ _ _)
    | with_reducible apply within_foldl_snd
    | with_reducible apply within_foldl
    | with_reducible apply within_ite
    | (intro (_ : Dev) _; try dsimp only)
    | (intro (_ : _ × Dev) _; try dsimp only)
    | split
    | decide
    | exact Or.inl (by decide)
    | exact Or.inr (by decide)
    | omega
    | dsimp only

theorem ownFailed_within (n : Station) (final : Bool) (d : Dev) :
    d.within [.ev, .flt, .wal, .dof, .mpl, .lnk] [2, 5, 18] (ownFailed n final d) := by
  unfold ownFailed
  try dsimp only
  repeat' first
    | with_reducible exact within_refl _ _ _
    | assumption
    | with_reducible apply within_comp (lnkMod_within _ _ _)
    | with_reducible apply within_comp (identRefused_within _ _)
    | with_reducible apply within_foldl_snd
    | with_reducible apply within_foldl
    | with_reducible apply within_ite
    | (intro (_ : Dev) _; try dsimp only)
    | (intro (_ : _ × Dev) _; try dsimp only)
    | split
    | decide
    | exact Or.inl (by decide)
    | exact Or.inr (by decide)
    | omega
    | dsimp only

theorem hostAnswer_within (n : Station) (result : Nat) (data : Nat) (d : Dev) :
    d.within [.lnk] [5] (hostAnswer n result data d) := by
  unfold hostAnswer
  try dsimp only
  repeat' first
    | with_reducible exact within_refl _ _ _
    | assumption
    | with_reducible apply within_comp (setReg_within _ (LNK_SVC_STAT _) _ 5 _ _)
    | with_reducible apply within_comp (setReg_within _ (LNK_SVC_RDATA _) _ 5 _ _)
    | with_reducible apply within_comp (lnkMod_within _ _ _)
    | with_reducible apply within_foldl_snd
    | with_reducible apply within_foldl
    | with_reducible apply within_ite
    | (intro (_ : Dev) _; try dsimp only)
    | (intro (_ : _ × Dev) _; try dsimp only)
    | split
    | decide
    | exact Or.inl (by decide)
    | exact Or.inr (by decide)
    | (simp only [LNK_SVC_RDATA, LNK_SVC_STAT]; omega)
    | omega
    | dsimp only

theorem svcTimeout_within (n : Station) (now : Nat) (d : Dev) :
    d.within [.ev, .flt, .wal, .dof, .mpl, .lnk] [2, 5, 18] (svcTimeout n now d) := by
  unfold svcTimeout
  try dsimp only
  repeat' first
    | with_reducible exact within_refl _ _ _
    | assumption
    | with_reducible apply within_comp (hostAnswer_within _ _ _ _)
    | with_reducible apply within_comp (ownFailed_within _ _ _)
    | with_reducible apply within_foldl_snd
    | with_reducible apply within_foldl
    | with_reducible apply within_ite
    | (intro (_ : Dev) _; try dsimp only)
    | (intro (_ : _ × Dev) _; try dsimp only)
    | split
    | decide
    | exact Or.inl (by decide)
    | exact Or.inr (by decide)
    | omega
    | dsimp only

theorem svcNext_within (n : Station) (k : Nat) (d : Dev) :
    d.within [.lnk] [] (svcNext n k d).2 := by
  unfold svcNext
  try dsimp only
  repeat' first
    | with_reducible exact within_refl _ _ _
    | assumption
    | with_reducible apply within_comp (lnkMod_within _ _ _)
    | with_reducible apply within_foldl_snd
    | with_reducible apply within_foldl
    | with_reducible apply within_ite
    | (intro (_ : Dev) _; try dsimp only)
    | (intro (_ : _ × Dev) _; try dsimp only)
    | split
    | decide
    | exact Or.inl (by decide)
    | exact Or.inr (by decide)
    | omega
    | dsimp only

theorem linkSamples_within (n : Station) (k : Nat) (w : Option (List Nat)) (slotGood : Bool) (emitting : Bool) (d : Dev) :
    d.within [.free, .ev, .flt, .wal, .creel, .dof, .mpl, .trm] [2, 9, 11, 16, 18] (linkSamples n k w slotGood emitting d) := by
  unfold linkSamples
  try dsimp only
  repeat' first
    | with_reducible exact within_refl _ _ _
    | assumption
    | with_reducible apply within_snd ‹_ = (_, _)›
    | with_reducible apply within_comp (put_within _ (MPLS_STATUS_TRIM_HOLD _) _ 11 _ _)
    | with_reducible apply within_comp (mboxPut_within _ _ _ _)
    | with_reducible apply within_comp (pyroSample_within _ _ _ _)
    | with_reducible apply within_comp (stationChannel_within _ _ _ _)
    | with_reducible apply within_comp (trimSample_within _ _ _ _ _ _)
    | with_reducible apply within_foldl_snd
    | with_reducible apply within_foldl_mem
    | (intro (v : Dev) x hx; have hx := List.mem_range.1 hx; try dsimp only)
    | with_reducible apply within_foldl
    | with_reducible apply within_ite
    | (intro (_ : Dev) _; try dsimp only)
    | (intro (_ : _ × Dev) _; try dsimp only)
    | split
    | decide
    | exact Or.inl (by decide)
    | exact Or.inr (by decide)
    | (simp only [MPLS_STATUS, MPLS_STATUS_TRIM_HOLD]; omega)
    | omega
    | dsimp only

theorem linkMailbox_within (n : Station) (k : Nat) (header : List Byte) (words : List Nat) (early : Bool) (slot : Bool) (d : Dev) :
    d.within [.creel] [] (linkMailbox n k header words early slot d) := by
  unfold linkMailbox
  try dsimp only
  repeat' first
    | with_reducible exact within_refl _ _ _
    | assumption
    | with_reducible apply within_comp (setCreelBytes_within _ _ _)
    | with_reducible apply within_comp (mboxPut_within _ _ _ _)
    | with_reducible apply within_foldl_snd
    | with_reducible apply within_foldl
    | with_reducible apply within_ite
    | (intro (_ : Dev) _; try dsimp only)
    | (intro (_ : _ × Dev) _; try dsimp only)
    | split
    | decide
    | exact Or.inl (by decide)
    | exact Or.inr (by decide)
    | omega
    | dsimp only

theorem badSlot_within (n : Station) (k : Nat) (d : Dev) :
    d.within [.ev, .flt, .wal, .dof, .sht, .mpl, .lnk, .trm] [2, 5, 8, 11, 16, 18] (badSlot n k d) := by
  unfold badSlot
  try dsimp only
  repeat' first
    | with_reducible exact within_refl _ _ _
    | assumption
    | with_reducible apply within_comp (count_within _ (LNK_BAD_UP _) _ 5 _ _)
    | with_reducible apply within_comp (lnkMod_within _ _ _)
    | with_reducible apply within_comp (alignLoss_within _ _ _)
    | with_reducible apply within_comp (linkFlag_within _ _ _ _ _)
    | with_reducible apply within_foldl_snd
    | with_reducible apply within_foldl
    | with_reducible apply within_ite
    | (intro (_ : Dev) _; try dsimp only)
    | (intro (_ : _ × Dev) _; try dsimp only)
    | split
    | decide
    | exact Or.inl (by decide)
    | exact Or.inr (by decide)
    | (simp only [LNK_BAD_UP, LNK_WFLAGS, LNK_WFLAGS_BAD_SLOT]; omega)
    | omega
    | dsimp only

theorem stationDark_within (n : Station) (k : Nat) (d : Dev) :
    d.within [.sht] [8] (stationDark n k d) := by
  unfold stationDark
  try dsimp only
  repeat' first
    | with_reducible exact within_refl _ _ _
    | assumption
    | with_reducible apply within_comp (shtCutAt_within _ _ _)
    | with_reducible apply within_foldl_snd
    | with_reducible apply within_foldl
    | with_reducible apply within_ite
    | (intro (_ : Dev) _; try dsimp only)
    | (intro (_ : _ × Dev) _; try dsimp only)
    | split
    | decide
    | exact Or.inl (by decide)
    | exact Or.inr (by decide)
    | omega
    | dsimp only

theorem uplinkStatus_within (n : Station) (k : Nat) (st : Nat) (errs : Nat) (d : Dev) :
    d.within [.ev, .flt, .wal, .dof, .sht, .mpl, .lnk, .trm] [2, 5, 8, 11, 16, 18] (uplinkStatus n k st errs d) := by
  unfold uplinkStatus
  try dsimp only
  repeat' first
    | with_reducible exact within_refl _ _ _
    | assumption
    | with_reducible apply within_comp (setReg_within _ (LNK_WSTATE _) _ 5 _ _)
    | with_reducible apply within_comp (count_within _ (LNK_BAD_DOWN _) _ 5 _ _)
    | with_reducible apply within_comp (count_within _ (LNK_COAX_SKIP _) _ 5 _ _)
    | with_reducible apply within_comp (lnkMod_within _ _ _)
    | with_reducible apply within_comp (alignLoss_within _ _ _)
    | with_reducible apply within_comp (fault_within _ _ _ _ _)
    | with_reducible apply within_comp (linkFlag_within _ _ _ _ _)
    | with_reducible apply within_comp (stationDark_within _ _ _)
    | with_reducible apply within_foldl_snd
    | with_reducible apply within_foldl
    | with_reducible apply within_ite
    | (intro (_ : Dev) _; try dsimp only)
    | (intro (_ : _ × Dev) _; try dsimp only)
    | split
    | decide
    | exact Or.inl (by decide)
    | exact Or.inr (by decide)
    | (simp only [LNK_BAD_DOWN, LNK_COAX_SKIP, LNK_WFLAGS, LNK_WFLAGS_INTERLOCK, LNK_WFLAGS_STN_FAULT, LNK_WSTATE]; omega)
    | omega
    | dsimp only

theorem linkDelay_within (n : Station) (d : Dev) :
    d.within [.ev, .flt, .wal, .dof, .mpl] [2, 5, 18] (linkDelay n d) := by
  unfold linkDelay
  try dsimp only
  repeat' first
    | with_reducible exact within_refl _ _ _
    | assumption
    | with_reducible apply within_comp (fault_within _ _ _ _ _)
    | with_reducible apply within_comp (linkFlag_within _ _ _ _ _)
    | with_reducible apply within_foldl_snd
    | with_reducible apply within_foldl
    | with_reducible apply within_ite
    | (intro (_ : Dev) _; try dsimp only)
    | (intro (_ : _ × Dev) _; try dsimp only)
    | split
    | decide
    | exact Or.inl (by decide)
    | exact Or.inr (by decide)
    | (simp only [LNK_WFLAGS, LNK_WFLAGS_DELAY]; omega)
    | omega
    | dsimp only

theorem acceptDelay_within (n : Station) (sum : Int) (d : Dev) :
    d.within [.shadow, .lnk] [5] (acceptDelay n sum d) := by
  unfold acceptDelay
  try simp only [mk_shadow]
  repeat' first
    | with_reducible exact within_refl _ _ _
    | assumption
    | with_reducible apply within_comp (setReg_within _ (LNK_DDOWN _) _ 5 _ _)
    | with_reducible apply within_comp (setReg_within _ (LNK_DELAY_ADJ _) _ 5 _ _)
    | with_reducible apply within_comp (lnkMod_within _ _ _)
    | with_reducible apply within_comp (enterIdent_within _ _)
    | with_reducible apply within_foldl_snd
    | with_reducible apply within_foldl
    | with_reducible apply within_ite
    | (intro (_ : Dev) _; try dsimp only)
    | (intro (_ : _ × Dev) _; try dsimp only)
    | with_reducible apply within_comp (toShadow_within _ _)
    | split
    | decide
    | exact Or.inl (by decide)
    | exact Or.inr (by decide)
    | (simp only [LNK_DDOWN, LNK_DELAY_ADJ]; omega)
    | omega
    | dsimp only

theorem measure_within (n : Station) (rtt : Int) (d : Dev) :
    d.within [.shadow, .ev, .flt, .wal, .dof, .mpl, .lnk] [2, 5, 18] (measure n rtt d) := by
  unfold measure
  try dsimp only
  repeat' first
    | with_reducible exact within_refl _ _ _
    | assumption
    | with_reducible apply within_comp (lnkMod_within _ _ _)
    | with_reducible apply within_comp (acceptDelay_within _ _ _)
    | with_reducible apply within_comp (linkDelay_within _ _)
    | with_reducible apply within_foldl_snd
    | with_reducible apply within_foldl
    | with_reducible apply within_ite
    | (intro (_ : Dev) _; try dsimp only)
    | (intro (_ : _ × Dev) _; try dsimp only)
    | split
    | decide
    | exact Or.inl (by decide)
    | exact Or.inr (by decide)
    | omega
    | dsimp only

theorem watchDelay_within (n : Station) (rtt : Int) (d : Dev) :
    d.within [.ev, .wal, .lnk] [2, 5, 18] (watchDelay n rtt d) := by
  unfold watchDelay
  try dsimp only
  repeat' first
    | with_reducible exact within_refl _ _ _
    | assumption
    | with_reducible apply within_comp (lnkMod_within _ _ _)
    | with_reducible apply within_comp (linkFlag_within _ _ _ _ _)
    | with_reducible apply within_foldl_snd
    | with_reducible apply within_foldl
    | with_reducible apply within_ite
    | (intro (_ : Dev) _; try dsimp only)
    | (intro (_ : _ × Dev) _; try dsimp only)
    | split
    | decide
    | exact Or.inl (by decide)
    | exact Or.inr (by decide)
    | (simp only [LNK_WFLAGS, LNK_WFLAGS_DELAY_SHIFT]; omega)
    | omega
    | dsimp only

theorem rejoin_within (n : Station) (rtt : Int) (d : Dev) :
    d.within [.ev, .flt, .wal, .dof, .mpl, .lnk] [2, 5, 18] (rejoin n rtt d) := by
  unfold rejoin
  try dsimp only
  repeat' first
    | with_reducible exact within_refl _ _ _
    | assumption
    | with_reducible apply within_comp (lnkMod_within _ _ _)
    | with_reducible apply within_comp (enterIdent_within _ _)
    | with_reducible apply within_comp (linkDelay_within _ _)
    | with_reducible apply within_comp (setLink_within _ _ _)
    | with_reducible apply within_foldl_snd
    | with_reducible apply within_foldl
    | with_reducible apply within_ite
    | (intro (_ : Dev) _; try dsimp only)
    | (intro (_ : _ × Dev) _; try dsimp only)
    | split
    | decide
    | exact Or.inl (by decide)
    | exact Or.inr (by decide)
    | omega
    | dsimp only

theorem badMarker_within (n : Station) (k : Nat) (d : Dev) :
    d.within [.ev, .flt, .wal, .dof, .sht, .mpl, .lnk, .trm] [2, 5, 8, 11, 16, 18] (badMarker n k d) := by
  unfold badMarker
  try dsimp only
  repeat' first
    | with_reducible exact within_refl _ _ _
    | assumption
    | with_reducible apply within_comp (lnkMod_within _ _ _)
    | with_reducible apply within_comp (alignLoss_within _ _ _)
    | with_reducible apply within_foldl_snd
    | with_reducible apply within_foldl
    | with_reducible apply within_ite
    | (intro (_ : Dev) _; try dsimp only)
    | (intro (_ : _ × Dev) _; try dsimp only)
    | split
    | decide
    | exact Or.inl (by decide)
    | exact Or.inr (by decide)
    | omega
    | dsimp only

theorem uplinkMarker_within (n : Station) (k : Nat) (tickNs : Nat) (body : List Byte) (good : Bool) (t4 : Nat) (d : Dev) :
    d.within [.shadow, .ev, .flt, .wal, .dof, .sht, .mpl, .lnk, .trm] [2, 5, 8, 11, 16, 18] (uplinkMarker n k tickNs body good t4 d) := by
  unfold uplinkMarker
  try dsimp only
  repeat' first
    | with_reducible exact within_refl _ _ _
    | assumption
    | with_reducible apply within_comp (setReg_within _ (LNK_RTT _) _ 5 _ _)
    | with_reducible apply within_comp (lnkMod_within _ _ _)
    | with_reducible apply within_comp (badMarker_within _ _ _)
    | with_reducible apply within_comp (measure_within _ _ _)
    | with_reducible apply within_comp (rejoin_within _ _ _)
    | with_reducible apply within_comp (setLink_within _ _ _)
    | with_reducible apply within_comp (watchDelay_within _ _ _)
    | with_reducible apply within_foldl_snd
    | with_reducible apply within_foldl
    | with_reducible apply within_ite
    | (intro (_ : Dev) _; try dsimp only)
    | (intro (_ : _ × Dev) _; try dsimp only)
    | split
    | decide
    | exact Or.inl (by decide)
    | exact Or.inr (by decide)
    | (simp only [LNK_RTT]; omega)
    | omega
    | dsimp only

theorem linkMissing_within (n : Station) (k : Nat) (d : Dev) :
    d.within [.free, .ev, .flt, .wal, .creel, .dof, .sht, .mpl, .lnk, .trm] [2, 5, 8, 9, 11, 16, 18] (linkMissing n k d) := by
  unfold linkMissing
  try dsimp only
  repeat' first
    | with_reducible exact within_refl _ _ _
    | assumption
    | with_reducible apply within_comp (lnkMod_within _ _ _)
    | with_reducible apply within_comp (badMarker_within _ _ _)
    | with_reducible apply within_comp (badSlot_within _ _ _)
    | with_reducible apply within_comp (linkSamples_within _ _ _ _ _ _)
    | with_reducible apply within_comp (mboxPut_within _ _ _ _)
    | with_reducible apply within_foldl_snd
    | with_reducible apply within_foldl
    | with_reducible apply within_ite
    | (intro (_ : Dev) _; try dsimp only)
    | (intro (_ : _ × Dev) _; try dsimp only)
    | split
    | decide
    | exact Or.inl (by decide)
    | exact Or.inr (by decide)
    | omega
    | dsimp only

theorem coaxTrigger_within (n : Station) (k : Nat) (sched : Nat) (d : Dev) :
    d.within [.mpl, .lnk] [5] (coaxTrigger n k sched d) := by
  unfold coaxTrigger
  try dsimp only
  repeat' first
    | with_reducible exact within_refl _ _ _
    | assumption
    | with_reducible apply within_comp (setReg_within _ (LNK_FRAME_NO _) _ 5 _ _)
    | with_reducible apply within_comp (lnkMod_within _ _ _)
    | with_reducible apply within_comp (mstMod_within _ _ _)
    | with_reducible apply within_foldl_snd
    | with_reducible apply within_foldl
    | with_reducible apply within_ite
    | (intro (_ : Dev) _; try dsimp only)
    | (intro (_ : _ × Dev) _; try dsimp only)
    | split
    | decide
    | exact Or.inl (by decide)
    | exact Or.inr (by decide)
    | (simp only [LNK_FRAME_NO]; omega)
    | omega
    | dsimp only

theorem linkDown_within (n : Station) (k : Nat) (tickNs : Nat) (sched : Nat) (d : Dev) :
    d.within [.free, .creel, .mpl, .lnk] [5] (linkDown n k tickNs sched d) := by
  unfold linkDown
  try dsimp only
  repeat' first
    | with_reducible exact within_refl _ _ _
    | assumption
    | with_reducible apply within_snd ‹_ = (_, _)›
    | with_reducible apply within_comp (fresh_within _ _)
    | with_reducible apply within_comp (lnkMod_within _ _ _)
    | with_reducible apply within_comp (setCreelBytes_within _ _ _)
    | with_reducible apply within_comp (coaxTrigger_within _ _ _ _)
    | with_reducible apply within_comp (mboxPut_within _ _ _ _)
    | with_reducible apply within_comp (svcNext_within _ _ _)
    | with_reducible apply within_foldl_snd
    | with_reducible apply within_foldl
    | with_reducible apply within_ite
    | (intro (_ : Dev) _; try dsimp only)
    | (intro (_ : _ × Dev) _; try dsimp only)
    | split
    | decide
    | exact Or.inl (by decide)
    | exact Or.inr (by decide)
    | omega
    | dsimp only

theorem linkPeriod_within (n : Station) (d : Dev) :
    d.within [.flt, .mpl, .lnk] [5] (linkPeriod n d) := by
  unfold linkPeriod
  try dsimp only
  repeat' first
    | with_reducible exact within_refl _ _ _
    | assumption
    | with_reducible apply within_comp (lnkMod_within _ _ _)
    | with_reducible apply within_comp (mstMod_within _ _ _)
    | with_reducible apply within_comp (enterIdent_within _ _)
    | with_reducible apply within_comp (linkRecovered_within _ _)
    | with_reducible apply within_comp (setLink_within _ _ _)
    | with_reducible apply within_foldl_snd
    | with_reducible apply within_foldl
    | with_reducible apply within_ite
    | (intro (_ : Dev) _; try dsimp only)
    | (intro (_ : _ × Dev) _; try dsimp only)
    | split
    | decide
    | exact Or.inl (by decide)
    | exact Or.inr (by decide)
    | omega
    | dsimp only

end Sys2Proof.Machine
end

