-- ==== Sys2Proof/Laws/OfShedOps.lean ====
section
/-!
SUPPORT. What each operation of Machine/ShedOps.lean may touch: the parts of the device and the blocks of registers.
-/
namespace Sys2Proof.Machine

open Reg

set_option linter.unusedTactic false
set_option linter.unreachableTactic false
set_option linter.unusedSimpArgs false

theorem shdMod_within (f : Shed → Shed) (d : Dev) :
    d.within [.shd] [] (d.shdMod f) := by
  unfold Dev.shdMod
  try simp only [mk_shd]
  repeat' first
    | with_reducible exact within_refl _ _ _
    | assumption
    | with_reducible apply within_foldl_snd
    | with_reducible apply within_foldl
    | with_reducible apply within_ite
    | (intro (_ : Dev) _; try dsimp only)
    | (intro (_ : _ × Dev) _; try dsimp only)
    | with_reducible apply within_comp (toShd_within _ _)
    | split
    | decide
    | exact Or.inl (by decide)
    | exact Or.inr (by decide)
    | omega
    | dsimp only

theorem reportOrphans_within (i : Slot) (k : Nat) (d : Dev) :
    d.within [.ev, .flt, .wal, .trd, .dof, .mpl] [2, 7, 18, 20] (reportOrphans i k d) := by
  unfold reportOrphans
  try dsimp only
  repeat' first
    | with_reducible exact within_refl _ _ _
    | assumption
    | with_reducible apply within_comp (count_within _ SHD_ORPHANS _ 7 _ _)
    | with_reducible apply within_comp (count_within _ TRD_ORPHANS _ 20 _ _)
    | with_reducible apply within_comp (slotMod_within _ _ _)
    | with_reducible apply within_comp (faultEvent_within _ _ _ _ _ _ _)
    | with_reducible apply within_foldl_snd
    | with_reducible apply within_foldl
    | with_reducible apply within_ite
    | (intro (_ : Dev) _; try dsimp only)
    | (intro (_ : _ × Dev) _; try dsimp only)
    | split
    | decide
    | exact Or.inl (by decide)
    | exact Or.inr (by decide)
    | (simp only [SHD_ORPHANS, TRD_ORPHANS]; omega)
    | omega
    | dsimp only

theorem shedRetire_within (n : Station) (d : Dev) :
    d.within [.shd] [7, 20] (shedRetire n d) := by
  unfold shedRetire
  try dsimp only
  repeat' first
    | with_reducible exact within_refl _ _ _
    | assumption
    | with_reducible apply within_comp (put_within _ SHD_STATUS_PASS _ 7 _ _)
    | with_reducible apply within_comp (shdMod_within _ _)
    | with_reducible apply within_comp (setSlotState_within _ _ _)
    | with_reducible apply within_foldl_snd
    | with_reducible apply within_foldl
    | with_reducible apply within_ite
    | (intro (_ : Dev) _; try dsimp only)
    | (intro (_ : _ × Dev) _; try dsimp only)
    | split
    | decide
    | exact Or.inl (by decide)
    | exact Or.inr (by decide)
    | (simp only [SHD_STATUS, SHD_STATUS_PASS]; omega)
    | omega
    | dsimp only

theorem capacity_within (i : Slot) (d : Dev) :
    d.within [.ev, .flt, .wal, .trd, .dof, .start, .mpl] [2, 7, 18, 20] (capacity i d) := by
  unfold capacity
  try dsimp only
  repeat' first
    | with_reducible exact within_refl _ _ _
    | assumption
    | with_reducible apply within_comp (put_within _ SHD_FLAGS_CAPACITY _ 7 _ _)
    | with_reducible apply within_comp (failSlot_within _ _)
    | with_reducible apply within_comp (faultEvent_within _ _ _ _ _ _ _)
    | with_reducible apply within_foldl_snd
    | with_reducible apply within_foldl
    | with_reducible apply within_ite
    | (intro (_ : Dev) _; try dsimp only)
    | (intro (_ : _ × Dev) _; try dsimp only)
    | split
    | decide
    | exact Or.inl (by decide)
    | exact Or.inr (by decide)
    | (simp only [SHD_FLAGS, SHD_FLAGS_CAPACITY]; omega)
    | omega
    | dsimp only

end Sys2Proof.Machine
end

