-- ==== Sys2Proof/Laws/OfMonitorOps.lean ====
section
/-!
SUPPORT. What each operation of Machine/MonitorOps.lean may touch: the parts of the device and the blocks of registers.
-/
namespace Sys2Proof.Machine

open Reg

set_option linter.unusedTactic false
set_option linter.unreachableTactic false
set_option linter.unusedSimpArgs false

theorem showHeld_within  (d : Dev) :
    d.within [] [7] (showHeld  d) := by
  unfold showHeld
  try dsimp only
  repeat' first
    | with_reducible exact within_refl _ _ _
    | assumption
    | with_reducible apply within_comp (setReg_within _ SHD_MON_HELD _ 7 _ _)
    | with_reducible apply within_foldl_snd
    | with_reducible apply within_foldl
    | with_reducible apply within_ite
    | (intro (_ : Dev) _; try dsimp only)
    | (intro (_ : _ × Dev) _; try dsimp only)
    | split
    | decide
    | exact Or.inl (by decide)
    | exact Or.inr (by decide)
    | (simp only [SHD_MON_HELD]; omega)
    | omega
    | dsimp only

theorem hold_within (p : Nat) (n : Station) (d : Dev) :
    d.within [.ev, .wal, .sht, .shd] [2, 7, 18] (hold p n d) := by
  unfold hold
  try dsimp only
  repeat' first
    | with_reducible exact within_refl _ _ _
    | assumption
    | with_reducible apply within_comp (count_within _ (SHD_MON_BLANKS _) _ 7 _ _)
    | with_reducible apply within_comp (shdMod_within _ _)
    | with_reducible apply within_comp (shtMod_within _ _ _)
    | with_reducible apply within_comp (occur_within _ _ _ _ _)
    | with_reducible apply within_comp (showHeld_within _)
    | with_reducible apply within_comp (shtCutIn_within _ _ _ _)
    | with_reducible apply within_foldl_snd
    | with_reducible apply within_foldl
    | with_reducible apply within_ite
    | (intro (_ : Dev) _; try dsimp only)
    | (intro (_ : _ × Dev) _; try dsimp only)
    | split
    | decide
    | exact Or.inl (by decide)
    | exact Or.inr (by decide)
    | (simp only [SHD_MON_BLANKS]; omega)
    | omega
    | dsimp only

theorem release_within (n : Station) (d : Dev) :
    d.within [.ev, .wal, .sht] [2, 7, 18] (release n d) := by
  unfold release
  try dsimp only
  repeat' first
    | with_reducible exact within_refl _ _ _
    | assumption
    | with_reducible apply within_comp (shtMod_within _ _ _)
    | with_reducible apply within_comp (occur_within _ _ _ _ _)
    | with_reducible apply within_comp (showHeld_within _)
    | with_reducible apply within_foldl_snd
    | with_reducible apply within_foldl
    | with_reducible apply within_ite
    | (intro (_ : Dev) _; try dsimp only)
    | (intro (_ : _ × Dev) _; try dsimp only)
    | split
    | decide
    | exact Or.inl (by decide)
    | exact Or.inr (by decide)
    | omega
    | dsimp only

theorem monitor_within (p : Nat) (d : Dev) :
    d.within [.ev, .wal, .sht, .shd] [2, 7, 18] (monitor p d) := by
  unfold monitor
  try dsimp only
  repeat' first
    | with_reducible exact within_refl _ _ _
    | assumption
    | with_reducible apply within_comp (shdMod_within _ _)
    | with_reducible apply within_comp (hold_within _ _ _)
    | with_reducible apply within_comp (release_within _ _)
    | with_reducible apply within_foldl_snd
    | with_reducible apply within_foldl
    | with_reducible apply within_ite
    | (intro (_ : Dev) _; try dsimp only)
    | (intro (_ : _ × Dev) _; try dsimp only)
    | split
    | decide
    | exact Or.inl (by decide)
    | exact Or.inr (by decide)
    | omega
    | dsimp only

theorem releaseAll_within  (d : Dev) :
    d.within [.ev, .wal, .sht] [2, 7, 18] (releaseAll  d) := by
  unfold releaseAll
  try dsimp only
  repeat' first
    | with_reducible exact within_refl _ _ _
    | assumption
    | with_reducible apply within_comp (release_within _ _)
    | with_reducible apply within_foldl_snd
    | with_reducible apply within_foldl
    | with_reducible apply within_ite
    | (intro (_ : Dev) _; try dsimp only)
    | (intro (_ : _ × Dev) _; try dsimp only)
    | split
    | decide
    | exact Or.inl (by decide)
    | exact Or.inr (by decide)
    | omega
    | dsimp only

theorem monitorOff_within  (d : Dev) :
    d.within [.ev, .wal, .sht] [2, 7, 18] (monitorOff  d) := by
  unfold monitorOff
  try dsimp only
  repeat' first
    | with_reducible exact within_refl _ _ _
    | assumption
    | with_reducible apply within_comp (put_within _ SHD_MON_CTRL_MON_EN _ 7 _ _)
    | with_reducible apply within_comp (releaseAll_within _)
    | with_reducible apply within_foldl_snd
    | with_reducible apply within_foldl
    | with_reducible apply within_ite
    | (intro (_ : Dev) _; try dsimp only)
    | (intro (_ : _ × Dev) _; try dsimp only)
    | split
    | decide
    | exact Or.inl (by decide)
    | exact Or.inr (by decide)
    | (simp only [SHD_MON_CTRL, SHD_MON_CTRL_MON_EN]; omega)
    | omega
    | dsimp only

theorem monLatch_within  (d : Dev) :
    d.within [.shd] [] (monLatch  d) := by
  unfold monLatch
  try dsimp only
  repeat' first
    | with_reducible exact within_refl _ _ _
    | assumption
    | with_reducible apply within_comp (shdMod_within _ _)
    | with_reducible apply within_foldl_snd
    | with_reducible apply within_foldl
    | with_reducible apply within_ite
    | (intro (_ : Dev) _; try dsimp only)
    | (intro (_ : _ × Dev) _; try dsimp only)
    | split
    | decide
    | exact Or.inl (by decide)
    | exact Or.inr (by decide)
    | omega
    | dsimp only

theorem plumeStarve_within (n : Station) (d : Dev) :
    d.within [.ev, .flt, .wal, .dof, .mpl, .shd] [2, 7, 18] (plumeStarve n d) := by
  unfold plumeStarve
  try dsimp only
  repeat' first
    | with_reducible exact within_refl _ _ _
    | assumption
    | with_reducible apply within_comp (put_within _ SHD_FLAGS_STARVE _ 7 _ _)
    | with_reducible apply within_comp (shdMod_within _ _)
    | with_reducible apply within_comp (faultEvent_within _ _ _ _ _ _ _)
    | with_reducible apply within_foldl_snd
    | with_reducible apply within_foldl
    | with_reducible apply within_ite
    | (intro (_ : Dev) _; try dsimp only)
    | (intro (_ : _ × Dev) _; try dsimp only)
    | split
    | decide
    | exact Or.inl (by decide)
    | exact Or.inr (by decide)
    | (simp only [SHD_FLAGS, SHD_FLAGS_STARVE]; omega)
    | omega
    | dsimp only

end Sys2Proof.Machine
end

