-- ==== Sys2Proof/Laws/OfFaultOps.lean ====
section
/-!
SUPPORT. What each operation of Machine/FaultOps.lean may touch: the parts of the device and the blocks of registers.
-/
namespace Sys2Proof.Machine

open Reg

set_option linter.unusedTactic false
set_option linter.unreachableTactic false
set_option linter.unusedSimpArgs false

theorem fltMod_within (f : FaultUnit → FaultUnit) (d : Dev) :
    d.within [.flt] [] (d.fltMod f) := by
  unfold Dev.fltMod
  try simp only [mk_flt]
  repeat' first
    | with_reducible exact within_refl _ _ _
    | assumption
    | with_reducible apply within_foldl_snd
    | with_reducible apply within_foldl
    | with_reducible apply within_ite
    | (intro (_ : Dev) _; try dsimp only)
    | (intro (_ : _ × Dev) _; try dsimp only)
    | with_reducible apply within_comp (toFlt_within _ _)
    | split
    | decide
    | exact Or.inl (by decide)
    | exact Or.inr (by decide)
    | omega
    | dsimp only

theorem gateClose_within (tau : Nat) (d : Dev) :
    d.within [.shadow, .ev, .flt, .wal, .chain, .trd, .dof, .axes, .sht, .mpl] [2, 8, 11, 12, 16, 18, 20] (gateClose tau d) := by
  unfold gateClose
  try dsimp only
  repeat' first
    | with_reducible exact within_refl _ _ _
    | assumption
    | with_reducible apply within_comp (fltMod_within _ _)
    | with_reducible apply within_comp (shtCutIn_within _ _ _ _)
    | with_reducible apply within_comp (trdPause_within _ _ _)
    | with_reducible apply within_foldl_snd
    | with_reducible apply within_foldl
    | with_reducible apply within_ite
    | (intro (_ : Dev) _; try dsimp only)
    | (intro (_ : _ × Dev) _; try dsimp only)
    | split
    | decide
    | exact Or.inl (by decide)
    | exact Or.inr (by decide)
    | omega
    | dsimp only

theorem fltLocked_within  (d : Dev) :
    d.within [] [2] (fltLocked  d) := by
  unfold fltLocked
  try dsimp only
  repeat' first
    | with_reducible exact within_refl _ _ _
    | assumption
    | with_reducible apply within_comp (put_within _ EVT_FLT_FLAGS_WRITE_LOCKED _ 2 _ _)
    | with_reducible apply within_foldl_snd
    | with_reducible apply within_foldl
    | with_reducible apply within_ite
    | (intro (_ : Dev) _; try dsimp only)
    | (intro (_ : _ × Dev) _; try dsimp only)
    | split
    | decide
    | exact Or.inl (by decide)
    | exact Or.inr (by decide)
    | (simp only [EVT_FLT_FLAGS, EVT_FLT_FLAGS_WRITE_LOCKED]; omega)
    | omega
    | dsimp only

theorem cmdClearHalt_within  (d : Dev) :
    d.within [] [2] (cmdClearHalt  d) := by
  unfold cmdClearHalt
  try dsimp only
  repeat' first
    | with_reducible exact within_refl _ _ _
    | assumption
    | with_reducible apply within_comp (put_within _ EVT_FLT_STATUS_HALTED _ 2 _ _)
    | with_reducible apply within_comp (fltLocked_within _)
    | with_reducible apply within_foldl_snd
    | with_reducible apply within_foldl
    | with_reducible apply within_ite
    | (intro (_ : Dev) _; try dsimp only)
    | (intro (_ : _ × Dev) _; try dsimp only)
    | split
    | decide
    | exact Or.inl (by decide)
    | exact Or.inr (by decide)
    | (simp only [EVT_FLT_STATUS, EVT_FLT_STATUS_HALTED]; omega)
    | omega
    | dsimp only

theorem retireStation_within (n : Station) (code : Nat) (d : Dev) :
    d.within [.ev, .flt, .wal, .dof, .sht, .mpl, .shd, .reed, .lnk, .trm] [2, 5, 7, 8, 11, 16, 18, 20] (retireStation n code d) := by
  unfold retireStation
  try dsimp only
  repeat' first
    | with_reducible exact within_refl _ _ _
    | assumption
    | with_reducible apply within_comp (put_within _ EVT_FLT_FLAGS_RETIRE _ 2 _ _)
    | with_reducible apply within_comp (put_within _ (SHT_STATUS_RETIRED _) _ 8 _ _)
    | with_reducible apply within_comp (setReg_within _ EVT_FLT_RETIRED _ 2 _ _)
    | with_reducible apply within_comp (shtMod_within _ _ _)
    | with_reducible apply within_comp (linkRetire_within _ _)
    | with_reducible apply within_comp (reedRetire_within _ _ _)
    | with_reducible apply within_comp (release_within _ _)
    | with_reducible apply within_comp (shedRetire_within _ _)
    | with_reducible apply within_comp (shtCut_within _ _)
    | with_reducible apply within_comp (trimAbort_within _ _)
    | with_reducible apply within_foldl_snd
    | with_reducible apply within_foldl
    | with_reducible apply within_ite
    | (intro (_ : Dev) _; try dsimp only)
    | (intro (_ : _ × Dev) _; try dsimp only)
    | split
    | decide
    | exact Or.inl (by decide)
    | exact Or.inr (by decide)
    | (simp only [EVT_FLT_FLAGS, EVT_FLT_FLAGS_RETIRE, EVT_FLT_RETIRED, SHT_STATUS, SHT_STATUS_RETIRED]; omega)
    | omega
    | dsimp only

theorem cmdRetire_within  (d : Dev) :
    d.within [.ev, .flt, .wal, .dof, .sht, .mpl, .shd, .reed, .lnk, .trm] [2, 5, 7, 8, 11, 16, 18, 20] (cmdRetire  d) := by
  unfold cmdRetire
  try dsimp only
  repeat' first
    | with_reducible exact within_refl _ _ _
    | assumption
    | with_reducible apply within_comp (fault_within _ _ _ _ _)
    | with_reducible apply within_comp (retireStation_within _ _ _)
    | with_reducible apply within_foldl_snd
    | with_reducible apply within_foldl
    | with_reducible apply within_ite
    | (intro (_ : Dev) _; try dsimp only)
    | (intro (_ : _ × Dev) _; try dsimp only)
    | split
    | decide
    | exact Or.inl (by decide)
    | exact Or.inr (by decide)
    | omega
    | dsimp only

theorem gateRise_within (tau : Nat) (d : Dev) :
    d.within [.flt] [] (gateRise tau d) := by
  unfold gateRise
  try dsimp only
  repeat' first
    | with_reducible exact within_refl _ _ _
    | assumption
    | with_reducible apply within_comp (fltMod_within _ _)
    | with_reducible apply within_foldl_snd
    | with_reducible apply within_foldl
    | with_reducible apply within_ite
    | (intro (_ : Dev) _; try dsimp only)
    | (intro (_ : _ × Dev) _; try dsimp only)
    | split
    | decide
    | exact Or.inl (by decide)
    | exact Or.inr (by decide)
    | omega
    | dsimp only

theorem swGate_within (w : Nat) (tau : Nat) (d : Dev) :
    d.within [.shadow, .ev, .flt, .wal, .chain, .trd, .dof, .axes, .sht, .mpl] [2, 8, 11, 12, 16, 18, 20] (swGate w tau d) := by
  unfold swGate
  try dsimp only
  repeat' first
    | with_reducible exact within_refl _ _ _
    | assumption
    | with_reducible apply within_comp (put_within _ EVT_FLT_GATE_SW_GATE _ 2 _ _)
    | with_reducible apply within_comp (faultD_within _ _ _ _ _ _ _)
    | with_reducible apply within_comp (gateClose_within _ _)
    | with_reducible apply within_comp (gateRise_within _ _)
    | with_reducible apply within_foldl_snd
    | with_reducible apply within_foldl
    | with_reducible apply within_ite
    | (intro (_ : Dev) _; try dsimp only)
    | (intro (_ : _ × Dev) _; try dsimp only)
    | split
    | decide
    | exact Or.inl (by decide)
    | exact Or.inr (by decide)
    | (simp only [EVT_FLT_GATE, EVT_FLT_GATE_SW_GATE]; omega)
    | omega
    | dsimp only

theorem haltHandler_within (code : Nat) (d : Dev) :
    d.within [.shadow, .ev, .flt, .wal, .chain, .trd, .dof, .axes, .sht, .start, .mpl] [2, 8, 11, 12, 16, 18, 20] (haltHandler code d) := by
  unfold haltHandler
  try dsimp only
  repeat' first
    | with_reducible exact within_refl _ _ _
    | assumption
    | with_reducible apply within_comp (put_within _ EVT_FLT_FLAGS_HALT _ 2 _ _)
    | with_reducible apply within_comp (put_within _ EVT_FLT_STATUS_HALTED _ 2 _ _)
    | with_reducible apply within_comp (fltMod_within _ _)
    | with_reducible apply within_comp (trdAbort_within _)
    | with_reducible apply within_foldl_snd
    | with_reducible apply within_foldl
    | with_reducible apply within_ite
    | (intro (_ : Dev) _; try dsimp only)
    | (intro (_ : _ × Dev) _; try dsimp only)
    | split
    | decide
    | exact Or.inl (by decide)
    | exact Or.inr (by decide)
    | (simp only [EVT_FLT_FLAGS, EVT_FLT_FLAGS_HALT, EVT_FLT_STATUS, EVT_FLT_STATUS_HALTED]; omega)
    | omega
    | dsimp only

theorem recoverTmo_within (u : Fin 19) (d : Dev) :
    d.within [.ev, .flt, .wal, .dof, .mpl] [2, 18] (recoverTmo u d) := by
  unfold recoverTmo
  try dsimp only
  repeat' first
    | with_reducible exact within_refl _ _ _
    | assumption
    | with_reducible apply within_comp (escalate_within _ _ _)
    | with_reducible apply within_comp (recovered_within _ _)
    | with_reducible apply within_foldl_snd
    | with_reducible apply within_foldl
    | with_reducible apply within_ite
    | (intro (_ : Dev) _; try dsimp only)
    | (intro (_ : _ × Dev) _; try dsimp only)
    | split
    | decide
    | exact Or.inl (by decide)
    | exact Or.inr (by decide)
    | omega
    | dsimp only

theorem emitGate_within (low : Bool) (tau : Nat) (d : Dev) :
    d.within [.shadow, .ev, .flt, .wal, .chain, .trd, .dof, .axes, .sht, .mpl] [2, 8, 11, 12, 16, 18, 20] (emitGate low tau d) := by
  unfold emitGate
  try dsimp only
  repeat' first
    | with_reducible exact within_refl _ _ _
    | assumption
    | with_reducible apply within_comp (put_within _ EVT_FLT_FLAGS_GATE_LOW _ 2 _ _)
    | with_reducible apply within_comp (put_within _ EVT_FLT_GATE_PIN_LOW _ 2 _ _)
    | with_reducible apply within_comp (fltMod_within _ _)
    | with_reducible apply within_comp (faultD_within _ _ _ _ _ _ _)
    | with_reducible apply within_comp (gateClose_within _ _)
    | with_reducible apply within_comp (gateRise_within _ _)
    | with_reducible apply within_foldl_snd
    | with_reducible apply within_foldl
    | with_reducible apply within_ite
    | (intro (_ : Dev) _; try dsimp only)
    | (intro (_ : _ × Dev) _; try dsimp only)
    | split
    | decide
    | exact Or.inl (by decide)
    | exact Or.inr (by decide)
    | (simp only [EVT_FLT_FLAGS, EVT_FLT_FLAGS_GATE_LOW, EVT_FLT_GATE, EVT_FLT_GATE_PIN_LOW]; omega)
    | omega
    | dsimp only

theorem gateRelease_within  (d : Dev) :
    d.within [.flt] [] (gateRelease  d) := by
  unfold gateRelease
  try dsimp only
  repeat' first
    | with_reducible exact within_refl _ _ _
    | assumption
    | with_reducible apply within_comp (fltMod_within _ _)
    | with_reducible apply within_foldl_snd
    | with_reducible apply within_foldl
    | with_reducible apply within_ite
    | (intro (_ : Dev) _; try dsimp only)
    | (intro (_ : _ × Dev) _; try dsimp only)
    | split
    | decide
    | exact Or.inl (by decide)
    | exact Or.inr (by decide)
    | omega
    | dsimp only

end Sys2Proof.Machine
end

