-- ==== Sys2Proof/Laws/OfJobOps.lean ====
section
/-!
SUPPORT. What each operation of Machine/JobOps.lean may touch: the parts of the device and the blocks of registers.
-/
namespace Sys2Proof.Machine

open Reg

set_option linter.unusedTactic false
set_option linter.unreachableTactic false
set_option linter.unusedSimpArgs false

theorem bedFlags_within  (d : Dev) :
    d.within [] [20] (bedFlags  d) := by
  unfold bedFlags
  try dsimp only
  repeat' first
    | with_reducible exact within_refl _ _ _
    | assumption
    | with_reducible apply within_comp (put_within _ TRD_STATE_WAIT_SCHED _ 20 _ _)
    | with_reducible apply within_comp (put_within _ TRD_STATE_WAIT_START _ 20 _ _)
    | with_reducible apply within_foldl_snd
    | with_reducible apply within_foldl
    | with_reducible apply within_ite
    | (intro (_ : Dev) _; try dsimp only)
    | (intro (_ : _ × Dev) _; try dsimp only)
    | split
    | decide
    | exact Or.inl (by decide)
    | exact Or.inr (by decide)
    | (simp only [TRD_STATE, TRD_STATE_WAIT_SCHED, TRD_STATE_WAIT_START]; omega)
    | omega
    | dsimp only

theorem bedShow_within  (d : Dev) :
    d.within [] [20] (bedShow  d) := by
  unfold bedShow
  try dsimp only
  repeat' first
    | with_reducible exact within_refl _ _ _
    | assumption
    | with_reducible apply within_comp (bedFlags_within _)
    | with_reducible apply within_foldl_snd
    | with_reducible apply within_foldl
    | with_reducible apply within_ite
    | (intro (_ : Dev) _; try dsimp only)
    | (intro (_ : _ × Dev) _; try dsimp only)
    | split
    | decide
    | exact Or.inl (by decide)
    | exact Or.inr (by decide)
    | omega
    | dsimp only

theorem undefinedMessage_within (m : List Byte) (d : Dev) :
    d.within [] [20] (undefinedMessage m d) := by
  unfold undefinedMessage
  try dsimp only
  repeat' first
    | with_reducible exact within_refl _ _ _
    | assumption
    | with_reducible apply within_comp (count_within _ TRD_BAD_MSG _ 20 _ _)
    | with_reducible apply within_foldl_snd
    | with_reducible apply within_foldl
    | with_reducible apply within_ite
    | (intro (_ : Dev) _; try dsimp only)
    | (intro (_ : _ × Dev) _; try dsimp only)
    | split
    | decide
    | exact Or.inl (by decide)
    | exact Or.inr (by decide)
    | (simp only [TRD_BAD_MSG]; omega)
    | omega
    | dsimp only

theorem offerStart_within (i : Slot) (t : StartTime) (d : Dev) :
    d.within [.shadow, .ev, .flt, .wal, .chain, .trd, .dof, .start, .mpl] [2, 8, 11, 16, 18, 20] (offerStart i t d) := by
  unfold offerStart
  try dsimp only
  repeat' first
    | with_reducible exact within_refl _ _ _
    | assumption
    | with_reducible apply within_comp (slotMod_within _ _ _)
    | with_reducible apply within_comp (armedEvent_within _ _)
    | with_reducible apply within_comp (schedRefused_within _ _)
    | with_reducible apply within_comp (setStart_within _ _ _)
    | with_reducible apply within_foldl_snd
    | with_reducible apply within_foldl
    | with_reducible apply within_ite
    | (intro (_ : Dev) _; try dsimp only)
    | (intro (_ : _ × Dev) _; try dsimp only)
    | split
    | decide
    | exact Or.inl (by decide)
    | exact Or.inr (by decide)
    | omega
    | dsimp only

theorem acceptHeader_within (i : Slot) (d : Dev) :
    d.within [.shadow, .ev, .flt, .wal, .chain, .trd, .dof, .start, .mpl] [2, 8, 11, 16, 18, 20] (acceptHeader i d) := by
  unfold acceptHeader
  try dsimp only
  repeat' first
    | with_reducible exact within_refl _ _ _
    | assumption
    | with_reducible apply within_comp (setReg_within _ TRD_PLAT_RESID _ 20 _ _)
    | with_reducible apply within_comp (slotMod_within _ _ _)
    | with_reducible apply within_comp (trdMod_within _ _)
    | with_reducible apply within_comp (mapClear_within _)
    | with_reducible apply within_comp (offerStart_within _ _ _)
    | with_reducible apply within_comp (setSlotState_within _ _ _)
    | with_reducible apply within_foldl_snd
    | with_reducible apply within_foldl
    | with_reducible apply within_ite
    | (intro (_ : Dev) _; try dsimp only)
    | (intro (_ : _ × Dev) _; try dsimp only)
    | split
    | decide
    | exact Or.inl (by decide)
    | exact Or.inr (by decide)
    | (simp only [TRD_PLAT_RESID]; omega)
    | omega
    | dsimp only

theorem freeSlot_within (i : Slot) (d : Dev) :
    d.within [.ev, .wal, .chain, .trd] [2, 18, 20] (freeSlot i d) := by
  unfold freeSlot
  try dsimp only
  repeat' first
    | with_reducible exact within_refl _ _ _
    | assumption
    | with_reducible apply within_comp (slotMod_within _ _ _)
    | with_reducible apply within_comp (layerAck_within _ _ _ _ _ _)
    | with_reducible apply within_comp (occur_within _ _ _ _ _)
    | with_reducible apply within_comp (setSlotState_within _ _ _)
    | with_reducible apply within_foldl_snd
    | with_reducible apply within_foldl
    | with_reducible apply within_ite
    | (intro (_ : Dev) _; try dsimp only)
    | (intro (_ : _ × Dev) _; try dsimp only)
    | split
    | decide
    | exact Or.inl (by decide)
    | exact Or.inr (by decide)
    | omega
    | dsimp only

theorem slotZeroed_within (i : Slot) (d : Dev) :
    d.within [.ev, .wal, .chain, .trd, .dram] [2, 18, 20] (slotZeroed i d) := by
  unfold slotZeroed
  try dsimp only
  repeat' first
    | with_reducible exact within_refl _ _ _
    | assumption
    | with_reducible apply within_comp (zeroDram_within _ _ _)
    | with_reducible apply within_comp (freeSlot_within _ _)
    | with_reducible apply within_foldl_snd
    | with_reducible apply within_foldl
    | with_reducible apply within_ite
    | (intro (_ : Dev) _; try dsimp only)
    | (intro (_ : _ × Dev) _; try dsimp only)
    | split
    | decide
    | exact Or.inl (by decide)
    | exact Or.inr (by decide)
    | omega
    | dsimp only

theorem layerCancel_within (m : List Byte) (d : Dev) :
    d.within [.ev, .flt, .wal, .trd, .dof, .start, .sec, .mpl] [2, 18, 20, 21] (layerCancel m d) := by
  unfold layerCancel
  try dsimp only
  repeat' first
    | with_reducible exact within_refl _ _ _
    | assumption
    | with_reducible apply within_comp (failSlot_within _ _)
    | with_reducible apply within_comp (keyResume_within _)
    | with_reducible apply within_foldl_snd
    | with_reducible apply within_foldl
    | with_reducible apply within_ite
    | (intro (_ : Dev) _; try dsimp only)
    | (intro (_ : _ × Dev) _; try dsimp only)
    | split
    | decide
    | exact Or.inl (by decide)
    | exact Or.inr (by decide)
    | omega
    | dsimp only

theorem layerSchedule_within (m : List Byte) (d : Dev) :
    d.within [.shadow, .ev, .flt, .wal, .chain, .trd, .dof, .start, .mpl] [2, 8, 11, 16, 18, 20] (layerSchedule m d) := by
  unfold layerSchedule
  try dsimp only
  repeat' first
    | with_reducible exact within_refl _ _ _
    | assumption
    | with_reducible apply within_comp (bedShow_within _)
    | with_reducible apply within_comp (offerStart_within _ _ _)
    | with_reducible apply within_comp (schedRefused_within _ _)
    | with_reducible apply within_foldl_snd
    | with_reducible apply within_foldl
    | with_reducible apply within_ite
    | (intro (_ : Dev) _; try dsimp only)
    | (intro (_ : _ × Dev) _; try dsimp only)
    | split
    | decide
    | exact Or.inl (by decide)
    | exact Or.inr (by decide)
    | omega
    | dsimp only

theorem lateSlot_within (i : Slot) (d : Dev) :
    d.within [.ev, .flt, .wal, .trd, .dof, .start, .mpl] [2, 18, 20] (lateSlot i d) := by
  unfold lateSlot
  try dsimp only
  repeat' first
    | with_reducible exact within_refl _ _ _
    | assumption
    | with_reducible apply within_comp (put_within _ TRD_STATUS_LATE_START _ 20 _ _)
    | with_reducible apply within_comp (slotMod_within _ _ _)
    | with_reducible apply within_comp (bedShow_within _)
    | with_reducible apply within_comp (faultEvent_within _ _ _ _ _ _ _)
    | with_reducible apply within_comp (setStart_within _ _ _)
    | with_reducible apply within_foldl_snd
    | with_reducible apply within_foldl
    | with_reducible apply within_ite
    | (intro (_ : Dev) _; try dsimp only)
    | (intro (_ : _ × Dev) _; try dsimp only)
    | split
    | decide
    | exact Or.inl (by decide)
    | exact Or.inr (by decide)
    | (simp only [TRD_STATUS, TRD_STATUS_LATE_START]; omega)
    | omega
    | dsimp only

theorem lateStart_within  (d : Dev) :
    d.within [.ev, .flt, .wal, .trd, .dof, .start, .mpl] [2, 18, 20] (lateStart  d) := by
  unfold lateStart
  try dsimp only
  repeat' first
    | with_reducible exact within_refl _ _ _
    | assumption
    | with_reducible apply within_comp (lateSlot_within _ _)
    | with_reducible apply within_foldl_snd
    | with_reducible apply within_foldl
    | with_reducible apply within_ite
    | (intro (_ : Dev) _; try dsimp only)
    | (intro (_ : _ × Dev) _; try dsimp only)
    | split
    | decide
    | exact Or.inl (by decide)
    | exact Or.inr (by decide)
    | omega
    | dsimp only

end Sys2Proof.Machine
end

