-- ==== Sys2Proof/Laws/OfJobSteps.lean ====
section
/-!
SUPPORT. What each operation of Machine/JobSteps.lean may touch: the parts of the device and the blocks of registers.
-/
namespace Sys2Proof.Machine

open Reg

set_option linter.unusedTactic false
set_option linter.unreachableTactic false
set_option linter.unusedSimpArgs false

theorem bobFlush_within (b : Nat) (d : Dev) (hb : b < 128) :
    d.within [.crl] [3] (bobFlush b d) := by
  unfold bobFlush
  try simp only [mk_crl]
  repeat' first
    | with_reducible exact within_refl _ _ _
    | assumption
    | with_reducible apply within_comp (put_within _ (CRLB_FILL_FILL _) _ 3 _ _)
    | with_reducible apply within_comp (put_within _ (CRLB_RD_RD _) _ 3 _ _)
    | with_reducible apply within_comp (put_within _ (CRLB_STATUS_PANIC _) _ 3 _ _)
    | with_reducible apply within_foldl_snd
    | with_reducible apply within_foldl
    | with_reducible apply within_ite
    | (intro (_ : Dev) _; try dsimp only)
    | (intro (_ : _ × Dev) _; try dsimp only)
    | with_reducible apply within_comp (toCrl_within _ _)
    | split
    | decide
    | exact Or.inl (by decide)
    | exact Or.inr (by decide)
    | (simp only [CRLB_FILL, CRLB_FILL_FILL, CRLB_RD, CRLB_RD_RD, CRLB_STATUS, CRLB_STATUS_PANIC]; omega)
    | omega
    | dsimp only

theorem enterPrep_within  (d : Dev) :
    d.within [.shadow, .ev, .flt, .wal, .chain, .creel, .dof, .mpl, .trm] [2, 8, 11, 16, 18, 20] (enterPrep  d) := by
  unfold enterPrep
  try dsimp only
  repeat' first
    | with_reducible exact within_refl _ _ _
    | assumption
    | with_reducible apply within_comp (gridCheck_within _ _)
    | with_reducible apply within_comp (trdEnter_within _ _ _)
    | with_reducible apply within_comp (trimLayer_within _)
    | with_reducible apply within_foldl_snd
    | with_reducible apply within_foldl
    | with_reducible apply within_ite
    | (intro (_ : Dev) _; try dsimp only)
    | (intro (_ : _ × Dev) _; try dsimp only)
    | split
    | decide
    | exact Or.inl (by decide)
    | exact Or.inr (by decide)
    | omega
    | dsimp only

theorem enterBed_within  (d : Dev) :
    d.within [.shadow, .ev, .flt, .wal, .chain, .trd, .dof, .lmp, .isp, .mpl] [2, 8, 11, 13, 16, 18, 20] (enterBed  d) := by
  unfold enterBed
  try dsimp only
  repeat' first
    | with_reducible exact within_refl _ _ _
    | assumption
    | with_reducible apply within_comp (trdMod_within _ _)
    | with_reducible apply within_comp (bedFlags_within _)
    | with_reducible apply within_comp (captureStart_within _)
    | with_reducible apply within_comp (trdEnter_within _ _ _)
    | with_reducible apply within_foldl_snd
    | with_reducible apply within_foldl
    | with_reducible apply within_ite
    | (intro (_ : Dev) _; try dsimp only)
    | (intro (_ : _ × Dev) _; try dsimp only)
    | split
    | decide
    | exact Or.inl (by decide)
    | exact Or.inr (by decide)
    | omega
    | dsimp only

theorem recoatEnd_within  (d : Dev) :
    d.within [.shadow, .ev, .flt, .wal, .chain, .trd, .dof, .lmp, .isp, .mpl] [2, 8, 11, 13, 16, 18, 20] (recoatEnd  d) := by
  unfold recoatEnd
  try dsimp only
  repeat' first
    | with_reducible exact within_refl _ _ _
    | assumption
    | with_reducible apply within_comp (enterBed_within _)
    | with_reducible apply within_foldl_snd
    | with_reducible apply within_foldl
    | with_reducible apply within_ite
    | (intro (_ : Dev) _; try dsimp only)
    | (intro (_ : _ × Dev) _; try dsimp only)
    | split
    | decide
    | exact Or.inl (by decide)
    | exact Or.inr (by decide)
    | omega
    | dsimp only

theorem recoatFail_within (m : Axis) (d : Dev) :
    d.within [.shadow, .ev, .flt, .wal, .chain, .dof, .pins, .mpl] [2, 8, 9, 11, 16, 18, 20] (recoatFail m d) := by
  unfold recoatFail
  try dsimp only
  repeat' first
    | with_reducible exact within_refl _ _ _
    | assumption
    | with_reducible apply within_comp (put_within _ TRD_STATUS_RECOAT_FAULT _ 20 _ _)
    | with_reducible apply within_comp (cmpRelease_within _ _)
    | with_reducible apply within_comp (enterPaused_within _ _)
    | with_reducible apply within_comp (faultEvent_within _ _ _ _ _ _ _)
    | with_reducible apply within_foldl_snd
    | with_reducible apply within_foldl
    | with_reducible apply within_ite
    | (intro (_ : Dev) _; try dsimp only)
    | (intro (_ : _ × Dev) _; try dsimp only)
    | split
    | decide
    | exact Or.inl (by decide)
    | exact Or.inr (by decide)
    | (simp only [TRD_STATUS, TRD_STATUS_RECOAT_FAULT]; omega)
    | omega
    | dsimp only

theorem recoatMove_within  (d : Dev) :
    d.within [.shadow, .ev, .flt, .wal, .chain, .trd, .dof, .axes, .lmp, .isp, .pins, .mpl] [2, 8, 9, 11, 12, 13, 16, 18, 20] (recoatMove  d) := by
  unfold recoatMove
  try dsimp only
  repeat' first
    | with_reducible exact within_refl _ _ _
    | assumption
    | with_reducible apply within_comp (setReg_within _ (AXS_SPEED _) _ 12 _ _)
    | with_reducible apply within_comp (axTarget_within _ _ _ _)
    | with_reducible apply within_comp (cmpOwn_within _ _ _ _ _)
    | with_reducible apply within_comp (recoatEnd_within _)
    | with_reducible apply within_comp (recoatFail_within _ _)
    | with_reducible apply within_foldl_snd
    | with_reducible apply within_foldl
    | with_reducible apply within_ite
    | (intro (_ : Dev) _; try dsimp only)
    | (intro (_ : _ × Dev) _; try dsimp only)
    | split
    | decide
    | exact Or.inl (by decide)
    | exact Or.inr (by decide)
    | (simp only [AXS_SPEED]; omega)
    | omega
    | dsimp only

theorem resumeStage_within (ret : Nat) (t : StartTime) (d : Dev) :
    d.within [.shadow, .ev, .flt, .wal, .chain, .trd, .creel, .dof, .axes, .start, .lmp, .isp, .pins, .mpl, .trm] [2, 8, 9, 11, 12, 13, 16, 18, 20] (resumeStage ret t d) := by
  unfold resumeStage
  try dsimp only
  repeat' first
    | with_reducible exact within_refl _ _ _
    | assumption
    | with_reducible apply within_comp (slotMod_within _ _ _)
    | with_reducible apply within_comp (bedShow_within _)
    | with_reducible apply within_comp (enterPrep_within _)
    | with_reducible apply within_comp (recoatMove_within _)
    | with_reducible apply within_comp (setStart_within _ _ _)
    | with_reducible apply within_comp (trdArm_within _)
    | with_reducible apply within_comp (trdEnter_within _ _ _)
    | with_reducible apply within_foldl_snd
    | with_reducible apply within_foldl
    | with_reducible apply within_ite
    | (intro (_ : Dev) _; try dsimp only)
    | (intro (_ : _ × Dev) _; try dsimp only)
    | split
    | decide
    | exact Or.inl (by decide)
    | exact Or.inr (by decide)
    | omega
    | dsimp only

theorem recoatGo_within (k : Nat) (d : Dev) :
    d.within [.shadow, .ev, .flt, .wal, .chain, .trd, .dof, .axes, .lmp, .isp, .pins, .mpl] [2, 8, 9, 11, 12, 13, 16, 18, 20] (recoatGo k d) := by
  unfold recoatGo
  try dsimp only
  repeat' first
    | with_reducible exact within_refl _ _ _
    | assumption
    | with_reducible apply within_comp (trdMod_within _ _)
    | with_reducible apply within_comp (recoatMove_within _)
    | with_reducible apply within_foldl_snd
    | with_reducible apply within_foldl
    | with_reducible apply within_ite
    | (intro (_ : Dev) _; try dsimp only)
    | (intro (_ : _ × Dev) _; try dsimp only)
    | split
    | decide
    | exact Or.inl (by decide)
    | exact Or.inr (by decide)
    | omega
    | dsimp only

theorem prepDone_within  (d : Dev) :
    d.within [.shadow, .ev, .flt, .wal, .chain, .trd, .dof, .axes, .lmp, .isp, .pins, .mpl, .trm] [2, 8, 9, 11, 12, 13, 16, 18, 20] (prepDone  d) := by
  unfold prepDone
  try dsimp only
  repeat' first
    | with_reducible exact within_refl _ _ _
    | assumption
    | with_reducible apply within_comp (setReg_within _ TRD_PLAT_RESID _ 20 _ _)
    | with_reducible apply within_comp (trdMod_within _ _)
    | with_reducible apply within_comp (recoatGo_within _ _)
    | with_reducible apply within_comp (trdEnter_within _ _ _)
    | with_reducible apply within_comp (trimAutoDark_within _)
    | with_reducible apply within_foldl_snd
    | with_reducible apply within_foldl
    | with_reducible apply within_ite
    | (intro (_ : Dev) _; try dsimp only)
    | (intro (_ : _ × Dev) _; try dsimp only)
    | split
    | decide
    | exact Or.inl (by decide)
    | exact Or.inr (by decide)
    | (simp only [TRD_PLAT_RESID]; omega)
    | omega
    | dsimp only

theorem recoatStepDone_within  (d : Dev) :
    d.within [.shadow, .ev, .flt, .wal, .chain, .trd, .dof, .axes, .lmp, .isp, .pins, .mpl] [2, 8, 9, 11, 12, 13, 16, 18, 20] (recoatStepDone  d) := by
  unfold recoatStepDone
  try dsimp only
  repeat' first
    | with_reducible exact within_refl _ _ _
    | assumption
    | with_reducible apply within_comp (trdMod_within _ _)
    | with_reducible apply within_comp (cmpRelease_within _ _)
    | with_reducible apply within_comp (recoatEnd_within _)
    | with_reducible apply within_comp (recoatGo_within _ _)
    | with_reducible apply within_foldl_snd
    | with_reducible apply within_foldl
    | with_reducible apply within_ite
    | (intro (_ : Dev) _; try dsimp only)
    | (intro (_ : _ × Dev) _; try dsimp only)
    | split
    | decide
    | exact Or.inl (by decide)
    | exact Or.inr (by decide)
    | omega
    | dsimp only

theorem recoatFault_within  (d : Dev) :
    d.within [.shadow, .ev, .flt, .wal, .chain, .dof, .pins, .mpl] [2, 8, 9, 11, 16, 18, 20] (recoatFault  d) := by
  unfold recoatFault
  try dsimp only
  repeat' first
    | with_reducible exact within_refl _ _ _
    | assumption
    | with_reducible apply within_comp (recoatFail_within _ _)
    | with_reducible apply within_foldl_snd
    | with_reducible apply within_foldl
    | with_reducible apply within_ite
    | (intro (_ : Dev) _; try dsimp only)
    | (intro (_ : _ × Dev) _; try dsimp only)
    | split
    | decide
    | exact Or.inl (by decide)
    | exact Or.inr (by decide)
    | omega
    | dsimp only

theorem recoatRelease_within  (d : Dev) :
    d.within [.pins] [9] (recoatRelease  d) := by
  unfold recoatRelease
  try dsimp only
  repeat' first
    | with_reducible exact within_refl _ _ _
    | assumption
    | with_reducible apply within_comp (cmpRelease_within _ _)
    | with_reducible apply within_foldl_snd
    | with_reducible apply within_foldl
    | with_reducible apply within_ite
    | (intro (_ : Dev) _; try dsimp only)
    | (intro (_ : _ × Dev) _; try dsimp only)
    | split
    | decide
    | exact Or.inl (by decide)
    | exact Or.inr (by decide)
    | omega
    | dsimp only

theorem bedImageDone_within  (d : Dev) :
    d.within [] [20] (bedImageDone  d) := by
  unfold bedImageDone
  try dsimp only
  repeat' first
    | with_reducible exact within_refl _ _ _
    | assumption
    | with_reducible apply within_comp (bedShow_within _)
    | with_reducible apply within_foldl_snd
    | with_reducible apply within_foldl
    | with_reducible apply within_ite
    | (intro (_ : Dev) _; try dsimp only)
    | (intro (_ : _ × Dev) _; try dsimp only)
    | split
    | decide
    | exact Or.inl (by decide)
    | exact Or.inr (by decide)
    | omega
    | dsimp only

theorem layerClose_within  (d : Dev) :
    d.within [.shadow, .ev, .flt, .wal, .chain, .trd, .dof, .lmp, .isp, .mpl, .trm] [2, 8, 11, 13, 16, 18, 20] (layerClose  d) := by
  unfold layerClose
  try dsimp only
  repeat' first
    | with_reducible exact within_refl _ _ _
    | assumption
    | with_reducible apply within_comp (trdMod_within _ _)
    | with_reducible apply within_comp (captureStart_within _)
    | with_reducible apply within_comp (trdEnter_within _ _ _)
    | with_reducible apply within_comp (trimClose_within _)
    | with_reducible apply within_foldl_snd
    | with_reducible apply within_foldl
    | with_reducible apply within_ite
    | (intro (_ : Dev) _; try dsimp only)
    | (intro (_ : _ × Dev) _; try dsimp only)
    | split
    | decide
    | exact Or.inl (by decide)
    | exact Or.inr (by decide)
    | omega
    | dsimp only

theorem mapExport_within  (d : Dev) :
    d.within [.chain] [11] (mapExport  d) := by
  unfold mapExport
  try dsimp only
  repeat' first
    | with_reducible exact within_refl _ _ _
    | assumption
    | with_reducible apply within_comp (put_within _ MPL_STATUS_EXPORTING _ 11 _ _)
    | with_reducible apply within_comp (sendImage_within _ _ _ _)
    | with_reducible apply within_foldl_snd
    | with_reducible apply within_foldl
    | with_reducible apply within_ite
    | (intro (_ : Dev) _; try dsimp only)
    | (intro (_ : _ × Dev) _; try dsimp only)
    | split
    | decide
    | exact Or.inl (by decide)
    | exact Or.inr (by decide)
    | (simp only [MPL_STATUS, MPL_STATUS_EXPORTING]; omega)
    | omega
    | dsimp only

theorem pauseTick_within  (d : Dev) :
    d.within [.shadow, .ev, .wal, .chain, .trd, .sht] [2, 7, 8, 11, 16, 18, 20] (pauseTick  d) := by
  unfold pauseTick
  try dsimp only
  repeat' first
    | with_reducible exact within_refl _ _ _
    | assumption
    | with_reducible apply within_comp (trdMod_within _ _)
    | with_reducible apply within_comp (enterPaused_within _ _)
    | with_reducible apply within_comp (releaseAll_within _)
    | with_reducible apply within_comp (shtCut_within _ _)
    | with_reducible apply within_foldl_snd
    | with_reducible apply within_foldl
    | with_reducible apply within_ite
    | (intro (_ : Dev) _; try dsimp only)
    | (intro (_ : _ × Dev) _; try dsimp only)
    | split
    | decide
    | exact Or.inl (by decide)
    | exact Or.inr (by decide)
    | omega
    | dsimp only

theorem resumeTick_within  (d : Dev) :
    d.within [.shadow, .ev, .wal, .chain, .trd] [2, 8, 11, 16, 18, 20] (resumeTick  d) := by
  unfold resumeTick
  try dsimp only
  repeat' first
    | with_reducible exact within_refl _ _ _
    | assumption
    | with_reducible apply within_comp (trdMod_within _ _)
    | with_reducible apply within_comp (trdEnter_within _ _ _)
    | with_reducible apply within_foldl_snd
    | with_reducible apply within_foldl
    | with_reducible apply within_ite
    | (intro (_ : Dev) _; try dsimp only)
    | (intro (_ : _ × Dev) _; try dsimp only)
    | split
    | decide
    | exact Or.inl (by decide)
    | exact Or.inr (by decide)
    | omega
    | dsimp only

end Sys2Proof.Machine
end

