-- ==== Sys2Proof/Laws/OfThermalOps.lean ====
section
/-!
SUPPORT. What each operation of Machine/ThermalOps.lean may touch: the parts of the device and the blocks of registers.
-/
namespace Sys2Proof.Machine

open Reg

set_option linter.unusedTactic false
set_option linter.unreachableTactic false
set_option linter.unusedSimpArgs false

theorem showTempWait_within  (d : Dev) :
    d.within [] [0] (showTempWait  d) := by
  unfold showTempWait
  try dsimp only
  repeat' first
    | with_reducible exact within_refl _ _ _
    | assumption
    | with_reducible apply within_comp (put_within _ DEV_UPD_STAT_TEMP_WAIT _ 0 _ _)
    | with_reducible apply within_foldl_snd
    | with_reducible apply within_foldl
    | with_reducible apply within_ite
    | (intro (_ : Dev) _; try dsimp only)
    | (intro (_ : _ × Dev) _; try dsimp only)
    | split
    | decide
    | exact Or.inl (by decide)
    | exact Or.inr (by decide)
    | (simp only [DEV_UPD_STAT, DEV_UPD_STAT_TEMP_WAIT]; omega)
    | omega
    | dsimp only

theorem thmMod_within (f : Thermal → Thermal) (d : Dev) :
    d.within [.thm] [] (d.thmMod f) := by
  unfold Dev.thmMod
  try simp only [mk_thm]
  repeat' first
    | with_reducible exact within_refl _ _ _
    | assumption
    | with_reducible apply within_foldl_snd
    | with_reducible apply within_foldl
    | with_reducible apply within_ite
    | (intro (_ : Dev) _; try dsimp only)
    | (intro (_ : _ × Dev) _; try dsimp only)
    | with_reducible apply within_comp (toThm_within _ _)
    | split
    | decide
    | exact Or.inl (by decide)
    | exact Or.inr (by decide)
    | omega
    | dsimp only

theorem failedClear_within (w : Nat) (d : Dev) :
    d.within [.thm] [17] (failedClear w d) := by
  unfold failedClear
  try dsimp only
  repeat' first
    | with_reducible exact within_refl _ _ _
    | assumption
    | with_reducible apply within_comp (setReg_within _ THM_FAILED _ 17 _ _)
    | with_reducible apply within_comp (thmMod_within _ _)
    | with_reducible apply within_foldl_snd
    | with_reducible apply within_foldl_mem
    | (intro (v : Dev) x hx; have hx := List.mem_range.1 hx; try dsimp only)
    | with_reducible apply within_foldl
    | with_reducible apply within_ite
    | (intro (_ : Dev) _; try dsimp only)
    | (intro (_ : _ × Dev) _; try dsimp only)
    | split
    | decide
    | exact Or.inl (by decide)
    | exact Or.inr (by decide)
    | (simp only [THM_FAILED]; omega)
    | omega
    | dsimp only

theorem gradient_within (inst : Nat) (d : Dev) :
    d.within [.ev, .flt, .wal, .dof, .mpl] [2, 17, 18] (gradient inst d) := by
  unfold gradient
  try dsimp only
  repeat' first
    | with_reducible exact within_refl _ _ _
    | assumption
    | with_reducible apply within_comp (put_within _ THM_FLAGS_GRADIENT _ 17 _ _)
    | with_reducible apply within_comp (aonEvent_within _ _ _ _ _ _ _)
    | with_reducible apply within_foldl_snd
    | with_reducible apply within_foldl
    | with_reducible apply within_ite
    | (intro (_ : Dev) _; try dsimp only)
    | (intro (_ : _ × Dev) _; try dsimp only)
    | split
    | decide
    | exact Or.inl (by decide)
    | exact Or.inr (by decide)
    | (simp only [THM_FLAGS, THM_FLAGS_GRADIENT]; omega)
    | omega
    | dsimp only

theorem gradientRound_within (m : Nat) (r : Nat → Int) (mv : Nat → Nat) (d : Dev) :
    d.within [.ev, .flt, .wal, .dof, .mpl, .thm] [2, 17, 18] (gradientRound m r mv d) := by
  unfold gradientRound
  try dsimp only
  repeat' first
    | with_reducible exact within_refl _ _ _
    | assumption
    | with_reducible apply within_comp (thmMod_within _ _)
    | with_reducible apply within_comp (gradient_within _ _)
    | with_reducible apply within_foldl_snd
    | with_reducible apply within_foldl
    | with_reducible apply within_ite
    | (intro (_ : Dev) _; try dsimp only)
    | (intro (_ : _ × Dev) _; try dsimp only)
    | split
    | decide
    | exact Or.inl (by decide)
    | exact Or.inr (by decide)
    | omega
    | dsimp only

theorem throttleCap_within  (d : Dev) :
    d.within [.ev, .flt, .wal, .chain, .trd, .dof, .lmp, .isp, .mpl] [2, 3, 13, 18] (throttleCap  d) := by
  unfold throttleCap
  try dsimp only
  repeat' first
    | with_reducible exact within_refl _ _ _
    | assumption
    | with_reducible apply within_comp (put_within _ ISP_STATUS_CAP _ 13 _ _)
    | with_reducible apply within_comp (camCapFall_within _ _ _)
    | with_reducible apply within_foldl_snd
    | with_reducible apply within_foldl
    | with_reducible apply within_ite
    | (intro (_ : Dev) _; try dsimp only)
    | (intro (_ : _ × Dev) _; try dsimp only)
    | split
    | decide
    | exact Or.inl (by decide)
    | exact Or.inr (by decide)
    | (simp only [ISP_STATUS, ISP_STATUS_CAP]; omega)
    | omega
    | dsimp only

theorem shutdown_within (tmax : Int) (d : Dev) :
    d.within [.ev, .flt, .wal, .dof, .mpl, .thm] [2, 17, 18] (shutdown tmax d) := by
  unfold shutdown
  try dsimp only
  repeat' first
    | with_reducible exact within_refl _ _ _
    | assumption
    | with_reducible apply within_comp (setReg_within _ THM_LAST_SHUT _ 17 _ _)
    | with_reducible apply within_comp (thmMod_within _ _)
    | with_reducible apply within_comp (aonEvent_within _ _ _ _ _ _ _)
    | with_reducible apply within_foldl_snd
    | with_reducible apply within_foldl
    | with_reducible apply within_ite
    | (intro (_ : Dev) _; try dsimp only)
    | (intro (_ : _ × Dev) _; try dsimp only)
    | split
    | decide
    | exact Or.inl (by decide)
    | exact Or.inr (by decide)
    | (simp only [THM_LAST_SHUT]; omega)
    | omega
    | dsimp only

theorem thresholds_within (tmax : Int) (failed : Nat) (d : Dev) :
    d.within [.ev, .flt, .wal, .chain, .trd, .dof, .lmp, .isp, .mpl, .thm] [2, 3, 13, 17, 18] (thresholds tmax failed d) := by
  unfold thresholds
  try dsimp only
  repeat' first
    | with_reducible exact within_refl _ _ _
    | assumption
    | with_reducible apply within_comp (put_within _ THM_FLAGS_WARN _ 17 _ _)
    | with_reducible apply within_comp (put_within _ THM_FLAGS_THROTTLE _ 17 _ _)
    | with_reducible apply within_comp (put_within _ THM_STATUS_LEVEL _ 17 _ _)
    | with_reducible apply within_comp (thmMod_within _ _)
    | with_reducible apply within_comp (aonEvent_within _ _ _ _ _ _ _)
    | with_reducible apply within_comp (shutdown_within _ _)
    | with_reducible apply within_comp (throttleCap_within _)
    | with_reducible apply within_foldl_snd
    | with_reducible apply within_foldl
    | with_reducible apply within_ite
    | (intro (_ : Dev) _; try dsimp only)
    | (intro (_ : _ × Dev) _; try dsimp only)
    | split
    | decide
    | exact Or.inl (by decide)
    | exact Or.inr (by decide)
    | (simp only [THM_FLAGS, THM_FLAGS_THROTTLE, THM_FLAGS_WARN, THM_STATUS, THM_STATUS_LEVEL]; omega)
    | omega
    | dsimp only

theorem nvmRound_within (t : Int) (d : Dev) :
    d.within [.ev, .flt, .wal, .dof, .mpl, .thm] [0, 2, 17, 18] (nvmRound t d) := by
  unfold nvmRound
  try dsimp only
  repeat' first
    | with_reducible exact within_refl _ _ _
    | assumption
    | with_reducible apply within_comp (put_within _ THM_STATUS_NVM_HOLD _ 17 _ _)
    | with_reducible apply within_comp (put_within _ THM_FLAGS_NVM_HOLD _ 17 _ _)
    | with_reducible apply within_comp (thmMod_within _ _)
    | with_reducible apply within_comp (aonEvent_within _ _ _ _ _ _ _)
    | with_reducible apply within_comp (showTempWait_within _)
    | with_reducible apply within_foldl_snd
    | with_reducible apply within_foldl
    | with_reducible apply within_ite
    | (intro (_ : Dev) _; try dsimp only)
    | (intro (_ : _ × Dev) _; try dsimp only)
    | split
    | decide
    | exact Or.inl (by decide)
    | exact Or.inr (by decide)
    | (simp only [THM_FLAGS, THM_FLAGS_NVM_HOLD, THM_STATUS, THM_STATUS_NVM_HOLD]; omega)
    | omega
    | dsimp only

theorem paceRound_within (tmax : Int) (d : Dev) :
    d.within [.thm] [17] (paceRound tmax d) := by
  unfold paceRound
  try dsimp only
  repeat' first
    | with_reducible exact within_refl _ _ _
    | assumption
    | with_reducible apply within_comp (put_within _ THM_STATUS_FAST _ 17 _ _)
    | with_reducible apply within_comp (thmMod_within _ _)
    | with_reducible apply within_foldl_snd
    | with_reducible apply within_foldl
    | with_reducible apply within_ite
    | (intro (_ : Dev) _; try dsimp only)
    | (intro (_ : _ × Dev) _; try dsimp only)
    | split
    | decide
    | exact Or.inl (by decide)
    | exact Or.inr (by decide)
    | (simp only [THM_STATUS, THM_STATUS_FAST]; omega)
    | omega
    | dsimp only

theorem throttleTime_within  (d : Dev) :
    d.within [.thm] [17] (throttleTime  d) := by
  unfold throttleTime
  try dsimp only
  repeat' first
    | with_reducible exact within_refl _ _ _
    | assumption
    | with_reducible apply within_comp (count_within _ THM_THR_MS _ 17 _ _)
    | with_reducible apply within_comp (thmMod_within _ _)
    | with_reducible apply within_foldl_snd
    | with_reducible apply within_foldl
    | with_reducible apply within_ite
    | (intro (_ : Dev) _; try dsimp only)
    | (intro (_ : _ × Dev) _; try dsimp only)
    | split
    | decide
    | exact Or.inl (by decide)
    | exact Or.inr (by decide)
    | (simp only [THM_THR_MS]; omega)
    | omega
    | dsimp only

theorem sensorFailed_within (k : Nat) (d : Dev) :
    d.within [.ev, .flt, .wal, .dof, .mpl] [2, 17, 18] (sensorFailed k d) := by
  unfold sensorFailed
  try dsimp only
  repeat' first
    | with_reducible exact within_refl _ _ _
    | assumption
    | with_reducible apply within_comp (put_within _ THM_FLAGS_TS_FAIL _ 17 _ _)
    | with_reducible apply within_comp (setReg_within _ THM_FAILED _ 17 _ _)
    | with_reducible apply within_comp (aonEvent_within _ _ _ _ _ _ _)
    | with_reducible apply within_foldl_snd
    | with_reducible apply within_foldl
    | with_reducible apply within_ite
    | (intro (_ : Dev) _; try dsimp only)
    | (intro (_ : _ × Dev) _; try dsimp only)
    | split
    | decide
    | exact Or.inl (by decide)
    | exact Or.inr (by decide)
    | (simp only [THM_FAILED, THM_FLAGS, THM_FLAGS_TS_FAIL]; omega)
    | omega
    | dsimp only

theorem shutdownStop_within  (d : Dev) :
    d.within [.thm] [1] (shutdownStop  d) := by
  unfold shutdownStop
  try dsimp only
  repeat' first
    | with_reducible exact within_refl _ _ _
    | assumption
    | with_reducible apply within_comp (setReg_within _ CLK_LANE_LIVE _ 1 _ _)
    | with_reducible apply within_comp (setReg_within _ CLK_LIVE _ 1 _ _)
    | with_reducible apply within_comp (thmMod_within _ _)
    | with_reducible apply within_foldl_snd
    | with_reducible apply within_foldl
    | with_reducible apply within_ite
    | (intro (_ : Dev) _; try dsimp only)
    | (intro (_ : _ × Dev) _; try dsimp only)
    | split
    | decide
    | exact Or.inl (by decide)
    | exact Or.inr (by decide)
    | (simp only [CLK_LANE_LIVE, CLK_LIVE]; omega)
    | omega
    | dsimp only

end Sys2Proof.Machine
end

