-- ==== Sys2Proof/Laws/OfWaleOps.lean ====
section
/-!
SUPPORT. What each operation of Machine/WaleOps.lean may touch: the parts of the device and the blocks of registers.
-/
namespace Sys2Proof.Machine

open Reg

set_option linter.unusedTactic false
set_option linter.unreachableTactic false
set_option linter.unusedSimpArgs false

theorem logLoad_within  (d : Dev) :
    d.within [] [18] (logLoad  d) := by
  unfold logLoad
  try dsimp only
  repeat' first
    | with_reducible exact within_refl _ _ _
    | assumption
    | with_reducible apply within_comp (setReg_within _ WAL_RD_LOADED _ 18 _ _)
    | with_reducible apply within_comp (setReg_within _ (WAL_RD_BUF _) _ 18 _ _)
    | with_reducible apply within_comp (setReg_within _ WAL_RD_STAT _ 18 _ _)
    | with_reducible apply within_foldl_snd
    | with_reducible apply within_foldl_mem
    | (intro (v : Dev) x hx; have hx := List.mem_range.1 hx; try dsimp only)
    | with_reducible apply within_foldl
    | with_reducible apply within_ite
    | (intro (_ : Dev) _; try dsimp only)
    | (intro (_ : _ × Dev) _; try dsimp only)
    | split
    | decide
    | exact Or.inl (by decide)
    | exact Or.inr (by decide)
    | (simp only [WAL_RD_BUF, WAL_RD_LOADED, WAL_RD_STAT]; omega)
    | omega
    | dsimp only

theorem walMod_within (f : WaleLog → WaleLog) (d : Dev) :
    d.within [.wal] [] (d.walMod f) := by
  unfold Dev.walMod
  try simp only [mk_wal]
  repeat' first
    | with_reducible exact within_refl _ _ _
    | assumption
    | with_reducible apply within_foldl_snd
    | with_reducible apply within_foldl
    | with_reducible apply within_ite
    | (intro (_ : Dev) _; try dsimp only)
    | (intro (_ : _ × Dev) _; try dsimp only)
    | with_reducible apply within_comp (toWal_within _ _)
    | split
    | decide
    | exact Or.inl (by decide)
    | exact Or.inr (by decide)
    | omega
    | dsimp only

theorem logMs_within  (d : Dev) :
    d.within [.wal] [18] (logMs  d) := by
  unfold logMs
  try dsimp only
  repeat' first
    | with_reducible exact within_refl _ _ _
    | assumption
    | with_reducible apply within_comp (setReg_within _ WAL_OP_TIME _ 18 _ _)
    | with_reducible apply within_comp (walMod_within _ _)
    | with_reducible apply within_foldl_snd
    | with_reducible apply within_foldl
    | with_reducible apply within_ite
    | (intro (_ : Dev) _; try dsimp only)
    | (intro (_ : _ × Dev) _; try dsimp only)
    | split
    | decide
    | exact Or.inl (by decide)
    | exact Or.inr (by decide)
    | (simp only [WAL_OP_TIME]; omega)
    | omega
    | dsimp only

theorem showStaged_within  (d : Dev) :
    d.within [.wal] [18] (showStaged  d) := by
  unfold showStaged
  try dsimp only
  repeat' first
    | with_reducible exact within_refl _ _ _
    | assumption
    | with_reducible apply within_comp (setReg_within _ WAL_STAGED _ 18 _ _)
    | with_reducible apply within_comp (walMod_within _ _)
    | with_reducible apply within_foldl_snd
    | with_reducible apply within_foldl
    | with_reducible apply within_ite
    | (intro (_ : Dev) _; try dsimp only)
    | (intro (_ : _ × Dev) _; try dsimp only)
    | split
    | decide
    | exact Or.inl (by decide)
    | exact Or.inr (by decide)
    | (simp only [WAL_STAGED]; omega)
    | omega
    | dsimp only

theorem openSector_within (first : Nat) (d : Dev) :
    d.within [.wal, .flash] [] (openSector first d) := by
  unfold openSector
  try dsimp only
  repeat' first
    | with_reducible exact within_refl _ _ _
    | assumption
    | with_reducible apply within_comp (programFlash_within _ _ _)
    | with_reducible apply within_comp (walMod_within _ _)
    | with_reducible apply within_foldl_snd
    | with_reducible apply within_foldl
    | with_reducible apply within_ite
    | (intro (_ : Dev) _; try dsimp only)
    | (intro (_ : _ × Dev) _; try dsimp only)
    | split
    | decide
    | exact Or.inl (by decide)
    | exact Or.inr (by decide)
    | omega
    | dsimp only

theorem logProgram_within  (d : Dev) :
    d.within [.ev, .wal, .flash] [2, 16, 18] (logProgram  d) := by
  unfold logProgram
  try dsimp only
  repeat' first
    | with_reducible exact within_refl _ _ _
    | assumption
    | with_reducible apply within_comp (setReg_within _ WAL_FIRST_SEQ _ 18 _ _)
    | with_reducible apply within_comp (setReg_within _ WAL_LAST_SEQ _ 18 _ _)
    | with_reducible apply within_comp (put_within _ TRM_STATUS_SAVE_BUSY _ 16 _ _)
    | with_reducible apply within_comp (programFlash_within _ _ _)
    | with_reducible apply within_comp (walMod_within _ _)
    | with_reducible apply within_comp (occur_within _ _ _ _ _)
    | with_reducible apply within_comp (openSector_within _ _)
    | with_reducible apply within_comp (showStaged_within _)
    | with_reducible apply within_foldl_snd
    | with_reducible apply within_foldl
    | with_reducible apply within_ite
    | (intro (_ : Dev) _; try dsimp only)
    | (intro (_ : _ × Dev) _; try dsimp only)
    | split
    | decide
    | exact Or.inl (by decide)
    | exact Or.inr (by decide)
    | (simp only [TRM_STATUS, TRM_STATUS_SAVE_BUSY, WAL_FIRST_SEQ, WAL_LAST_SEQ]; omega)
    | omega
    | dsimp only

theorem logErase_within  (d : Dev) :
    d.within [.wal, .flash] [18] (logErase  d) := by
  unfold logErase
  try dsimp only
  repeat' first
    | with_reducible exact within_refl _ _ _
    | assumption
    | with_reducible apply within_comp (setReg_within _ WAL_FIRST_SEQ _ 18 _ _)
    | with_reducible apply within_comp (eraseFlash_within _ _ _)
    | with_reducible apply within_comp (walMod_within _ _)
    | with_reducible apply within_foldl_snd
    | with_reducible apply within_foldl
    | with_reducible apply within_ite
    | (intro (_ : Dev) _; try dsimp only)
    | (intro (_ : _ × Dev) _; try dsimp only)
    | split
    | decide
    | exact Or.inl (by decide)
    | exact Or.inr (by decide)
    | (simp only [WAL_FIRST_SEQ]; omega)
    | omega
    | dsimp only

theorem logFail_within  (d : Dev) :
    d.within [.ev, .flt, .wal, .dof, .mpl] [2, 16, 18] (logFail  d) := by
  unfold logFail
  try dsimp only
  repeat' first
    | with_reducible exact within_refl _ _ _
    | assumption
    | with_reducible apply within_comp (put_within _ WAL_SECTORS_BAD _ 18 _ _)
    | with_reducible apply within_comp (put_within _ TRM_FLAGS_SAVE_FAIL _ 16 _ _)
    | with_reducible apply within_comp (put_within _ TRM_STATUS_SAVE_BUSY _ 16 _ _)
    | with_reducible apply within_comp (flagEvent_within WAL_FLAGS_FLASH_ERR _ _ _ 18 _ _ _ _)
    | with_reducible apply within_comp (flagEvent_within WAL_FLAGS_STOPPED _ _ _ 18 _ _ _ _)
    | with_reducible apply within_comp (walMod_within _ _)
    | with_reducible apply within_comp (fault_within _ _ _ _ _)
    | with_reducible apply within_foldl_snd
    | with_reducible apply within_foldl
    | with_reducible apply within_ite
    | (intro (_ : Dev) _; try dsimp only)
    | (intro (_ : _ × Dev) _; try dsimp only)
    | split
    | decide
    | exact Or.inl (by decide)
    | exact Or.inr (by decide)
    | (simp only [TRM_FLAGS, TRM_FLAGS_SAVE_FAIL, TRM_STATUS, TRM_STATUS_SAVE_BUSY, WAL_FLAGS, WAL_FLAGS_FLASH_ERR, WAL_FLAGS_STOPPED, WAL_SECTORS, WAL_SECTORS_BAD]; omega)
    | omega
    | dsimp only

theorem logDrop_within (cause : Fin 3) (d : Dev) :
    d.within [.ev, .wal] [2, 18] (logDrop cause d) := by
  unfold logDrop
  try dsimp only
  repeat' first
    | with_reducible exact within_refl _ _ _
    | assumption
    | with_reducible apply within_comp (count_within _ WAL_DROPS _ 18 _ _)
    | with_reducible apply within_comp (put_within _ WAL_FLAGS_DROP _ 18 _ _)
    | with_reducible apply within_comp (count_within _ (EVT_FLT_COUNT _) _ 2 _ _)
    | with_reducible apply within_comp (walMod_within _ _)
    | with_reducible apply within_comp (occur_within _ _ _ _ _)
    | with_reducible apply within_comp (showStaged_within _)
    | with_reducible apply within_foldl_snd
    | with_reducible apply within_foldl
    | with_reducible apply within_ite
    | (intro (_ : Dev) _; try dsimp only)
    | (intro (_ : _ × Dev) _; try dsimp only)
    | split
    | decide
    | exact Or.inl (by decide)
    | exact Or.inr (by decide)
    | (simp only [EVT_FLT_COUNT, WAL_DROPS, WAL_FLAGS, WAL_FLAGS_DROP]; omega)
    | omega
    | dsimp only

theorem hoursRecord_within  (d : Dev) :
    d.within [.ev, .wal] [2, 18] (hoursRecord  d) := by
  unfold hoursRecord
  try dsimp only
  repeat' first
    | with_reducible exact within_refl _ _ _
    | assumption
    | with_reducible apply within_comp (walMod_within _ _)
    | with_reducible apply within_comp (stage_within _ _)
    | with_reducible apply within_foldl_snd
    | with_reducible apply within_foldl
    | with_reducible apply within_ite
    | (intro (_ : Dev) _; try dsimp only)
    | (intro (_ : _ × Dev) _; try dsimp only)
    | split
    | decide
    | exact Or.inl (by decide)
    | exact Or.inr (by decide)
    | omega
    | dsimp only

end Sys2Proof.Machine
end

