-- ==== Sys2Proof/Laws/OfBootOps.lean ====
section
/-!
SUPPORT. What each operation of Machine/BootOps.lean may touch: the parts of the device and the blocks of registers.
-/
namespace Sys2Proof.Machine

open Reg

set_option linter.unusedTactic false
set_option linter.unreachableTactic false
set_option linter.unusedSimpArgs false

theorem startMod_within (f : Startup → Startup) (d : Dev) :
    d.within [.start] [] (d.startMod f) := by
  unfold Dev.startMod
  try simp only [mk_start]
  repeat' first
    | with_reducible exact within_refl _ _ _
    | assumption
    | with_reducible apply within_foldl_snd
    | with_reducible apply within_foldl
    | with_reducible apply within_ite
    | (intro (_ : Dev) _; try dsimp only)
    | (intro (_ : _ × Dev) _; try dsimp only)
    | with_reducible apply within_comp (toStart_within _ _)
    | split
    | decide
    | exact Or.inl (by decide)
    | exact Or.inr (by decide)
    | omega
    | dsimp only

theorem devLocked_within  (d : Dev) :
    d.within [.ev, .flt, .wal, .dof, .mpl] [0, 2, 18] (devLocked  d) := by
  unfold devLocked
  try dsimp only
  repeat' first
    | with_reducible exact within_refl _ _ _
    | assumption
    | with_reducible apply within_comp (aonFlag_within DEV_FLAGS_WRITE_LOCKED _ _ 0 _ _ _ _)
    | with_reducible apply within_comp (NEVER_within)
    | with_reducible apply within_foldl_snd
    | with_reducible apply within_foldl
    | with_reducible apply within_ite
    | (intro (_ : Dev) _; try dsimp only)
    | (intro (_ : _ × Dev) _; try dsimp only)
    | split
    | decide
    | exact Or.inl (by decide)
    | exact Or.inr (by decide)
    | (simp only [DEV_FLAGS, DEV_FLAGS_WRITE_LOCKED]; omega)
    | omega
    | dsimp only

theorem lcCommand_within (w : Nat) (vpp : Bool) (d : Dev) :
    d.within [.ev, .flt, .wal, .dof, .start, .sec, .mpl] [0, 2, 18, 21] (lcCommand w vpp d) := by
  unfold lcCommand
  try dsimp only
  repeat' first
    | with_reducible exact within_refl _ _ _
    | assumption
    | with_reducible apply within_comp (startMod_within _ _)
    | with_reducible apply within_comp (devLocked_within _)
    | with_reducible apply within_comp (secWipe_within _ _)
    | with_reducible apply within_foldl_snd
    | with_reducible apply within_foldl
    | with_reducible apply within_ite
    | (intro (_ : Dev) _; try dsimp only)
    | (intro (_ : _ × Dev) _; try dsimp only)
    | split
    | decide
    | exact Or.inl (by decide)
    | exact Or.inr (by decide)
    | omega
    | dsimp only

theorem fuseClear_within  (d : Dev) :
    d.within [] [0] (fuseClear  d) := by
  unfold fuseClear
  try dsimp only
  repeat' first
    | with_reducible exact within_refl _ _ _
    | assumption
    | with_reducible apply within_comp (setReg_within _ (DEV_FUSE_DATA _) _ 0 _ _)
    | with_reducible apply within_foldl_snd
    | with_reducible apply within_foldl_mem
    | (intro (v : Dev) x hx; have hx := List.mem_range.1 hx; try dsimp only)
    | with_reducible apply within_foldl
    | with_reducible apply within_ite
    | (intro (_ : Dev) _; try dsimp only)
    | (intro (_ : _ × Dev) _; try dsimp only)
    | split
    | decide
    | exact Or.inl (by decide)
    | exact Or.inr (by decide)
    | (simp only [DEV_FUSE_DATA]; omega)
    | omega
    | dsimp only

theorem fuseEnd_within (result : Nat) (d : Dev) :
    d.within [.ev, .flt, .wal, .dof, .mpl] [0, 2, 18] (fuseEnd result d) := by
  unfold fuseEnd
  try dsimp only
  repeat' first
    | with_reducible exact within_refl _ _ _
    | assumption
    | with_reducible apply within_comp (setReg_within _ DEV_FUSE_STAT _ 0 _ _)
    | with_reducible apply within_comp (aonEvent_within _ _ _ _ _ _ _)
    | with_reducible apply within_comp (fuseClear_within _)
    | with_reducible apply within_foldl_snd
    | with_reducible apply within_foldl
    | with_reducible apply within_ite
    | (intro (_ : Dev) _; try dsimp only)
    | (intro (_ : _ × Dev) _; try dsimp only)
    | split
    | decide
    | exact Or.inl (by decide)
    | exact Or.inr (by decide)
    | (simp only [DEV_FUSE_STAT]; omega)
    | omega
    | dsimp only

theorem fuseCommand_within (w : Nat) (vpp : Bool) (d : Dev) :
    d.within [.ev, .flt, .wal, .dof, .start, .mpl] [0, 2, 18] (fuseCommand w vpp d) := by
  unfold fuseCommand
  try dsimp only
  repeat' first
    | with_reducible exact within_refl _ _ _
    | assumption
    | with_reducible apply within_comp (put_within _ DEV_FUSE_STAT_BUSY _ 0 _ _)
    | with_reducible apply within_comp (startMod_within _ _)
    | with_reducible apply within_comp (devLocked_within _)
    | with_reducible apply within_comp (fuseClear_within _)
    | with_reducible apply within_comp (fuseEnd_within _ _)
    | with_reducible apply within_foldl_snd
    | with_reducible apply within_foldl
    | with_reducible apply within_ite
    | (intro (_ : Dev) _; try dsimp only)
    | (intro (_ : _ × Dev) _; try dsimp only)
    | split
    | decide
    | exact Or.inl (by decide)
    | exact Or.inr (by decide)
    | (simp only [DEV_FUSE_STAT, DEV_FUSE_STAT_BUSY]; omega)
    | omega
    | dsimp only

theorem fuseDone_within (programmed : Bool) (o : Otp) (d : Dev) :
    d.within [.ev, .flt, .wal, .dof, .start, .mpl] [0, 2, 18] (fuseDone programmed o d).2 := by
  unfold fuseDone
  try dsimp only
  repeat' first
    | with_reducible exact within_refl _ _ _
    | assumption
    | with_reducible apply within_comp (startMod_within _ _)
    | with_reducible apply within_comp (fuseEnd_within _ _)
    | with_reducible apply within_foldl_snd
    | with_reducible apply within_foldl
    | with_reducible apply within_ite
    | (intro (_ : Dev) _; try dsimp only)
    | (intro (_ : _ × Dev) _; try dsimp only)
    | split
    | decide
    | exact Or.inl (by decide)
    | exact Or.inr (by decide)
    | omega
    | dsimp only

theorem lcDone_within (o : Otp) (d : Dev) :
    d.within [.ev, .flt, .wal, .dof, .start, .mpl] [2, 18] (lcDone o d).2 := by
  unfold lcDone
  try dsimp only
  repeat' first
    | with_reducible exact within_refl _ _ _
    | assumption
    | with_reducible apply within_comp (startMod_within _ _)
    | with_reducible apply within_comp (aonEvent_within _ _ _ _ _ _ _)
    | with_reducible apply within_foldl_snd
    | with_reducible apply within_foldl
    | with_reducible apply within_ite
    | (intro (_ : Dev) _; try dsimp only)
    | (intro (_ : _ × Dev) _; try dsimp only)
    | split
    | decide
    | exact Or.inl (by decide)
    | exact Or.inr (by decide)
    | omega
    | dsimp only

theorem programmingCut_within (o : Otp) (d : Dev) :
    d.within [.free, .ev, .flt, .wal, .dof, .start, .mpl] [0, 2, 18] (programmingCut o d).2 := by
  unfold programmingCut
  try dsimp only
  repeat' first
    | with_reducible exact within_refl _ _ _
    | assumption
    | with_reducible apply within_snd ‹_ = (_, _)›
    | with_reducible apply within_comp (fresh_within _ _)
    | with_reducible apply within_comp (startMod_within _ _)
    | with_reducible apply within_comp (devLocked_within _)
    | with_reducible apply within_comp (fuseDone_within _ _ _)
    | with_reducible apply within_comp (lcDone_within _ _)
    | with_reducible apply within_foldl_snd
    | with_reducible apply within_foldl
    | with_reducible apply within_ite
    | (intro (_ : Dev) _; try dsimp only)
    | (intro (_ : _ × Dev) _; try dsimp only)
    | split
    | decide
    | exact Or.inl (by decide)
    | exact Or.inr (by decide)
    | omega
    | dsimp only

theorem stageFuses_within (o : Otp) (d : Dev) :
    d.within [.start] [0] (stageFuses o d) := by
  unfold stageFuses
  try dsimp only
  repeat' first
    | with_reducible exact within_refl _ _ _
    | assumption
    | with_reducible apply within_comp (put_within _ DEV_LC_IN_FORCE _ 0 _ _)
    | with_reducible apply within_comp (put_within _ DEV_STATE_STATE _ 0 _ _)
    | with_reducible apply within_comp (startMod_within _ _)
    | with_reducible apply within_foldl_snd
    | with_reducible apply within_foldl
    | with_reducible apply within_ite
    | (intro (_ : Dev) _; try dsimp only)
    | (intro (_ : _ × Dev) _; try dsimp only)
    | split
    | decide
    | exact Or.inl (by decide)
    | exact Or.inr (by decide)
    | (simp only [DEV_LC, DEV_LC_IN_FORCE, DEV_STATE, DEV_STATE_STATE]; omega)
    | omega
    | dsimp only

theorem updState_within (n : Nat) (d : Dev) :
    d.within [.sec] [0] (updState n d) := by
  unfold updState
  try simp only [mk_sec]
  repeat' first
    | with_reducible exact within_refl _ _ _
    | assumption
    | with_reducible apply within_comp (put_within _ DEV_UPD_STAT_STATE _ 0 _ _)
    | with_reducible apply within_foldl_snd
    | with_reducible apply within_foldl
    | with_reducible apply within_ite
    | (intro (_ : Dev) _; try dsimp only)
    | (intro (_ : _ × Dev) _; try dsimp only)
    | with_reducible apply within_comp (toSec_within _ _)
    | split
    | decide
    | exact Or.inl (by decide)
    | exact Or.inr (by decide)
    | (simp only [DEV_UPD_STAT, DEV_UPD_STAT_STATE]; omega)
    | omega
    | dsimp only

theorem updFail_within (result : Nat) (d : Dev) :
    d.within [.ev, .flt, .wal, .dof, .mpl] [0, 2, 18] (updFail result d) := by
  unfold updFail
  try dsimp only
  repeat' first
    | with_reducible exact within_refl _ _ _
    | assumption
    | with_reducible apply within_comp (put_within _ DEV_FLAGS_UPD_FAIL _ 0 _ _)
    | with_reducible apply within_comp (put_within _ DEV_UPD_STAT_RESULT _ 0 _ _)
    | with_reducible apply within_comp (aonEvent_within _ _ _ _ _ _ _)
    | with_reducible apply within_foldl_snd
    | with_reducible apply within_foldl
    | with_reducible apply within_ite
    | (intro (_ : Dev) _; try dsimp only)
    | (intro (_ : _ × Dev) _; try dsimp only)
    | split
    | decide
    | exact Or.inl (by decide)
    | exact Or.inr (by decide)
    | (simp only [DEV_FLAGS, DEV_FLAGS_UPD_FAIL, DEV_UPD_STAT, DEV_UPD_STAT_RESULT]; omega)
    | omega
    | dsimp only

theorem updIdle_within  (d : Dev) :
    d.within [.start] [0] (updIdle  d) := by
  unfold updIdle
  try dsimp only
  repeat' first
    | with_reducible exact within_refl _ _ _
    | assumption
    | with_reducible apply within_comp (put_within _ DEV_UPD_STAT_BUSY _ 0 _ _)
    | with_reducible apply within_comp (startMod_within _ _)
    | with_reducible apply within_comp (showTempWait_within _)
    | with_reducible apply within_foldl_snd
    | with_reducible apply within_foldl
    | with_reducible apply within_ite
    | (intro (_ : Dev) _; try dsimp only)
    | (intro (_ : _ × Dev) _; try dsimp only)
    | split
    | decide
    | exact Or.inl (by decide)
    | exact Or.inr (by decide)
    | (simp only [DEV_UPD_STAT, DEV_UPD_STAT_BUSY]; omega)
    | omega
    | dsimp only

theorem dofMod_within (f : Doff → Doff) (d : Dev) :
    d.within [.dof] [] (d.dofMod f) := by
  unfold Dev.dofMod
  try simp only [mk_dof]
  repeat' first
    | with_reducible exact within_refl _ _ _
    | assumption
    | with_reducible apply within_foldl_snd
    | with_reducible apply within_foldl
    | with_reducible apply within_ite
    | (intro (_ : Dev) _; try dsimp only)
    | (intro (_ : _ × Dev) _; try dsimp only)
    | with_reducible apply within_comp (toDof_within _ _)
    | split
    | decide
    | exact Or.inl (by decide)
    | exact Or.inr (by decide)
    | omega
    | dsimp only

theorem doffTake_within (cause : Nat) (d : Dev) :
    d.within [.shadow, .ev, .flt, .wal, .chain, .trd, .dof, .axes, .sht, .sec, .mpl, .drc] [0, 2, 8, 11, 12, 16, 18, 19, 20, 21] (doffTake cause d) := by
  unfold doffTake
  try dsimp only
  repeat' first
    | with_reducible exact within_refl _ _ _
    | assumption
    | with_reducible apply within_comp (setReg_within _ DOF_SNAP_TRD _ 19 _ _)
    | with_reducible apply within_comp (setReg_within _ DOF_SNAP_FAULT _ 19 _ _)
    | with_reducible apply within_comp (setReg_within _ DOF_SNAP_NS _ 19 _ _)
    | with_reducible apply within_comp (setReg_within _ DOF_SNAP_SEC _ 19 _ _)
    | with_reducible apply within_comp (setReg_within _ DOF_STATUS _ 19 _ _)
    | with_reducible apply within_comp (countF_within _ DOF_STATUS_LATER 19 _ _)
    | with_reducible apply within_comp (dofMod_within _ _)
    | with_reducible apply within_comp (drcMod_within _ _)
    | with_reducible apply within_comp (fltMod_within _ _)
    | with_reducible apply within_comp (aonEvent_within _ _ _ _ _ _ _)
    | with_reducible apply within_comp (gateClose_within _ _)
    | with_reducible apply within_comp (secWipe_within _ _)
    | with_reducible apply within_foldl_snd
    | with_reducible apply within_foldl
    | with_reducible apply within_ite
    | (intro (_ : Dev) _; try dsimp only)
    | (intro (_ : _ × Dev) _; try dsimp only)
    | split
    | decide
    | exact Or.inl (by decide)
    | exact Or.inr (by decide)
    | (simp only [DOF_SNAP_FAULT, DOF_SNAP_NS, DOF_SNAP_SEC, DOF_SNAP_TRD, DOF_STATUS, DOF_STATUS_LATER]; omega)
    | omega
    | dsimp only

theorem doffCommand_within (w : Nat) (d : Dev) :
    d.within [.shadow, .ev, .flt, .wal, .chain, .trd, .dof, .axes, .sht, .sec, .mpl, .drc] [0, 2, 8, 11, 12, 16, 18, 19, 20, 21] (doffCommand w d) := by
  unfold doffCommand
  try dsimp only
  repeat' first
    | with_reducible exact within_refl _ _ _
    | assumption
    | with_reducible apply within_comp (aonEvent_within _ _ _ _ _ _ _)
    | with_reducible apply within_comp (doffTake_within _ _)
    | with_reducible apply within_foldl_snd
    | with_reducible apply within_foldl
    | with_reducible apply within_ite
    | (intro (_ : Dev) _; try dsimp only)
    | (intro (_ : _ × Dev) _; try dsimp only)
    | split
    | decide
    | exact Or.inl (by decide)
    | exact Or.inr (by decide)
    | omega
    | dsimp only

theorem doffTrigger_within (t : DoffTrigger) (d : Dev) :
    d.within [.shadow, .ev, .flt, .wal, .chain, .trd, .dof, .axes, .sht, .sec, .mpl, .drc] [0, 2, 8, 11, 12, 16, 18, 19, 20, 21] (doffTrigger t d) := by
  unfold doffTrigger
  try dsimp only
  repeat' first
    | with_reducible exact within_refl _ _ _
    | assumption
    | with_reducible apply within_comp (dofMod_within _ _)
    | with_reducible apply within_comp (doffCommand_within _ _)
    | with_reducible apply within_comp (doffTake_within _ _)
    | with_reducible apply within_comp (fault_within _ _ _ _ _)
    | with_reducible apply within_foldl_snd
    | with_reducible apply within_foldl
    | with_reducible apply within_ite
    | (intro (_ : Dev) _; try dsimp only)
    | (intro (_ : _ × Dev) _; try dsimp only)
    | split
    | decide
    | exact Or.inl (by decide)
    | exact Or.inr (by decide)
    | omega
    | dsimp only

theorem doffFreeze_within  (d : Dev) :
    d.within [.dof] [1, 19] (doffFreeze  d) := by
  unfold doffFreeze
  try dsimp only
  repeat' first
    | with_reducible exact within_refl _ _ _
    | assumption
    | with_reducible apply within_comp (setReg_within _ CLK_LANE_LIVE _ 1 _ _)
    | with_reducible apply within_comp (put_within _ DOF_STATUS_FROZEN _ 19 _ _)
    | with_reducible apply within_comp (setReg_within _ CLK_LIVE _ 1 _ _)
    | with_reducible apply within_comp (dofMod_within _ _)
    | with_reducible apply within_foldl_snd
    | with_reducible apply within_foldl
    | with_reducible apply within_ite
    | (intro (_ : Dev) _; try dsimp only)
    | (intro (_ : _ × Dev) _; try dsimp only)
    | split
    | decide
    | exact Or.inl (by decide)
    | exact Or.inr (by decide)
    | (simp only [CLK_LANE_LIVE, CLK_LIVE, DOF_STATUS, DOF_STATUS_FROZEN]; omega)
    | omega
    | dsimp only

end Sys2Proof.Machine
end

