-- ==== Sys2Proof/Laws/OfLaneOps.lean ====
section
/-!
SUPPORT. What each operation of Machine/LaneOps.lean may touch: the parts of the device and the blocks of registers.
-/
namespace Sys2Proof.Machine

open Reg

set_option linter.unusedTactic false
set_option linter.unreachableTactic false
set_option linter.unusedSimpArgs false

theorem laneMod_within (l : Lane) (f : LaneUnit → LaneUnit) (d : Dev) :
    d.within [.lanes] [] (d.laneMod l f) := by
  unfold Dev.laneMod
  try simp only [mk_lanes]
  repeat' first
    | with_reducible exact within_refl _ _ _
    | assumption
    | with_reducible apply within_foldl_snd
    | with_reducible apply within_foldl
    | with_reducible apply within_ite
    | (intro (_ : Dev) _; try dsimp only)
    | (intro (_ : _ × Dev) _; try dsimp only)
    | with_reducible apply within_comp (toLanes_within _ _)
    | split
    | decide
    | exact Or.inl (by decide)
    | exact Or.inr (by decide)
    | omega
    | dsimp only

theorem chkDrop_within (l : Lane) (d : Dev) :
    d.within [.lanes] [5] (chkDrop l d) := by
  unfold chkDrop
  try dsimp only
  repeat' first
    | with_reducible exact within_refl _ _ _
    | assumption
    | with_reducible apply within_comp (put_within _ (LANE_PRBS_STAT_CHK_LOCK _) _ 5 _ _)
    | with_reducible apply within_comp (laneMod_within _ _ _)
    | with_reducible apply within_foldl_snd
    | with_reducible apply within_foldl
    | with_reducible apply within_ite
    | (intro (_ : Dev) _; try dsimp only)
    | (intro (_ : _ × Dev) _; try dsimp only)
    | split
    | decide
    | exact Or.inl (by decide)
    | exact Or.inr (by decide)
    | (simp only [LANE_PRBS_STAT, LANE_PRBS_STAT_CHK_LOCK]; omega)
    | omega
    | dsimp only

theorem laneFlag_within (l : Lane) (f : Field) (d : Dev)  (hf : f.addr / 0x10000 = 5) :
    d.within [.ev, .wal] [2, 5, 18] (laneFlag l f d) := by
  unfold laneFlag
  try dsimp only
  repeat' first
    | with_reducible exact within_refl _ _ _
    | assumption
    | with_reducible apply within_comp (flagEvent_within f _ _ _ 5 _ _ _ _)
    | with_reducible apply within_comp (put_within _ f _ 5 _ _)
    | with_reducible apply within_foldl_snd
    | with_reducible apply within_foldl
    | with_reducible apply within_ite
    | (intro (_ : Dev) _; try dsimp only)
    | (intro (_ : _ × Dev) _; try dsimp only)
    | split
    | decide
    | exact Or.inl (by decide)
    | exact Or.inr (by decide)
    | omega
    | dsimp only

theorem laneTest_within (l : Lane) (w : Nat) (d : Dev) :
    d.within [.ev, .wal, .lanes] [2, 5, 18] (laneTest l w d) := by
  unfold laneTest
  try dsimp only
  repeat' first
    | with_reducible exact within_refl _ _ _
    | assumption
    | with_reducible apply within_comp (setReg_within _ (LANE_TEST _) _ 5 _ _)
    | with_reducible apply within_comp (put_within _ (LANE_STATE_TEST _) _ 5 _ _)
    | with_reducible apply within_comp (setReg_within _ (LANE_PRBS_BITS_LO _) _ 5 _ _)
    | with_reducible apply within_comp (setReg_within _ (LANE_PRBS_ERR _) _ 5 _ _)
    | with_reducible apply within_comp (setReg_within _ (LANE_PRBS_BITS_HI _) _ 5 _ _)
    | with_reducible apply within_comp (chkDrop_within _ _)
    | with_reducible apply within_comp (laneFlag_within _ _ _ _)
    | with_reducible apply within_foldl_snd
    | with_reducible apply within_foldl
    | with_reducible apply within_ite
    | (intro (_ : Dev) _; try dsimp only)
    | (intro (_ : _ × Dev) _; try dsimp only)
    | split
    | decide
    | exact Or.inl (by decide)
    | exact Or.inr (by decide)
    | (simp only [LANE_CTRL, LANE_CTRL_EN, LANE_FLAGS, LANE_FLAGS_WRITE_LOCKED, LANE_PRBS_BITS_HI, LANE_PRBS_BITS_LO, LANE_PRBS_ERR, LANE_STATE, LANE_STATE_TEST, LANE_TEST]; omega)
    | omega
    | dsimp only

theorem refCfg_within (w : Nat) (d : Dev) :
    d.within [.ev, .wal] [2, 5, 18] (refCfg w d) := by
  unfold refCfg
  try dsimp only
  repeat' first
    | with_reducible exact within_refl _ _ _
    | assumption
    | with_reducible apply within_comp (setReg_within _ LNK_REF_CFG _ 5 _ _)
    | with_reducible apply within_comp (writeLocked_within LNK_FLAGS_WRITE_LOCKED _ _ 5 _ _ _ _)
    | with_reducible apply within_foldl_snd
    | with_reducible apply within_foldl
    | with_reducible apply within_ite
    | (intro (_ : Dev) _; try dsimp only)
    | (intro (_ : _ × Dev) _; try dsimp only)
    | split
    | decide
    | exact Or.inl (by decide)
    | exact Or.inr (by decide)
    | (simp only [LNK_FLAGS, LNK_FLAGS_WRITE_LOCKED, LNK_REF_CFG]; omega)
    | omega
    | dsimp only

theorem scanAbort_within (l : Lane) (d : Dev) :
    d.within [.free] [5] (scanAbort l d) := by
  unfold scanAbort
  try dsimp only
  repeat' first
    | with_reducible exact within_refl _ _ _
    | assumption
    | with_reducible apply within_snd ‹_ = (_, _)›
    | with_reducible apply within_comp (put_within _ (LANE_SCAN_STAT_ABORTED _) _ 5 _ _)
    | with_reducible apply within_comp (setReg_within _ (LANE_SCAN_BITS_HI _) _ 5 _ _)
    | with_reducible apply within_comp (setReg_within _ (LANE_SCAN_BITS_LO _) _ 5 _ _)
    | with_reducible apply within_comp (setReg_within _ (LANE_SCAN_ERR _) _ 5 _ _)
    | with_reducible apply within_comp (put_within _ (LANE_SCAN_STAT_BUSY _) _ 5 _ _)
    | with_reducible apply within_comp (fresh_within _ _)
    | with_reducible apply within_foldl_snd
    | with_reducible apply within_foldl
    | with_reducible apply within_ite
    | (intro (_ : Dev) _; try dsimp only)
    | (intro (_ : _ × Dev) _; try dsimp only)
    | split
    | decide
    | exact Or.inl (by decide)
    | exact Or.inr (by decide)
    | (simp only [LANE_SCAN_BITS_HI, LANE_SCAN_BITS_LO, LANE_SCAN_ERR, LANE_SCAN_STAT, LANE_SCAN_STAT_ABORTED, LANE_SCAN_STAT_BUSY]; omega)
    | omega
    | dsimp only

theorem laneTx_within (l : Lane) (w : Nat) (d : Dev) :
    d.within [.ev, .wal] [2, 5, 18] (laneTx l w d) := by
  unfold laneTx
  try dsimp only
  repeat' first
    | with_reducible exact within_refl _ _ _
    | assumption
    | with_reducible apply within_comp (setReg_within _ (LANE_TX _) _ 5 _ _)
    | with_reducible apply within_comp (laneFlag_within _ _ _ _)
    | with_reducible apply within_foldl_snd
    | with_reducible apply within_foldl
    | with_reducible apply within_ite
    | (intro (_ : Dev) _; try dsimp only)
    | (intro (_ : _ × Dev) _; try dsimp only)
    | split
    | decide
    | exact Or.inl (by decide)
    | exact Or.inr (by decide)
    | (simp only [LANE_CTRL, LANE_CTRL_EN, LANE_FLAGS, LANE_FLAGS_WRITE_LOCKED, LANE_TX]; omega)
    | omega
    | dsimp only

theorem scanStart_within (l : Lane) (d : Dev) :
    d.within [.lanes] [5] (scanStart l d) := by
  unfold scanStart
  try dsimp only
  repeat' first
    | with_reducible exact within_refl _ _ _
    | assumption
    | with_reducible apply within_comp (setReg_within _ (LANE_SCAN_STAT _) _ 5 _ _)
    | with_reducible apply within_comp (setReg_within _ (LANE_SCAN_ERR _) _ 5 _ _)
    | with_reducible apply within_comp (setReg_within _ (LANE_SCAN_BITS_HI _) _ 5 _ _)
    | with_reducible apply within_comp (setReg_within _ (LANE_SCAN_BITS_LO _) _ 5 _ _)
    | with_reducible apply within_comp (laneMod_within _ _ _)
    | with_reducible apply within_foldl_snd
    | with_reducible apply within_foldl
    | with_reducible apply within_ite
    | (intro (_ : Dev) _; try dsimp only)
    | (intro (_ : _ × Dev) _; try dsimp only)
    | split
    | decide
    | exact Or.inl (by decide)
    | exact Or.inr (by decide)
    | (simp only [LANE_SCAN_BITS_HI, LANE_SCAN_BITS_LO, LANE_SCAN_ERR, LANE_SCAN_STAT]; omega)
    | omega
    | dsimp only

theorem laneService_within (l : Lane) (d : Dev) :
    d.within [.lanes] [5] (laneService l d) := by
  unfold laneService
  try dsimp only
  repeat' first
    | with_reducible exact within_refl _ _ _
    | assumption
    | with_reducible apply within_comp (put_within _ (LANE_TEST_CHK_EN _) _ 5 _ _)
    | with_reducible apply within_comp (put_within _ (LANE_TEST_GEN_EN _) _ 5 _ _)
    | with_reducible apply within_comp (put_within _ (LANE_STATE_TEST _) _ 5 _ _)
    | with_reducible apply within_comp (chkDrop_within _ _)
    | with_reducible apply within_foldl_snd
    | with_reducible apply within_foldl
    | with_reducible apply within_ite
    | (intro (_ : Dev) _; try dsimp only)
    | (intro (_ : _ × Dev) _; try dsimp only)
    | split
    | decide
    | exact Or.inl (by decide)
    | exact Or.inr (by decide)
    | (simp only [LANE_STATE, LANE_STATE_TEST, LANE_TEST, LANE_TEST_CHK_EN, LANE_TEST_GEN_EN]; omega)
    | omega
    | dsimp only

theorem scanEnd_within (l : Lane) (n : Nat) (errors : Nat) (d : Dev) :
    d.within [] [5] (scanEnd l n errors d) := by
  unfold scanEnd
  try dsimp only
  repeat' first
    | with_reducible exact within_refl _ _ _
    | assumption
    | with_reducible apply within_comp (setReg_within _ (LANE_SCAN_ERR _) _ 5 _ _)
    | with_reducible apply within_comp (put_within _ (LANE_SCAN_STAT_BUSY _) _ 5 _ _)
    | with_reducible apply within_comp (setReg_within _ (LANE_SCAN_BITS_HI _) _ 5 _ _)
    | with_reducible apply within_comp (setReg_within _ (LANE_SCAN_BITS_LO _) _ 5 _ _)
    | with_reducible apply within_foldl_snd
    | with_reducible apply within_foldl
    | with_reducible apply within_ite
    | (intro (_ : Dev) _; try dsimp only)
    | (intro (_ : _ × Dev) _; try dsimp only)
    | split
    | decide
    | exact Or.inl (by decide)
    | exact Or.inr (by decide)
    | (simp only [LANE_SCAN_BITS_HI, LANE_SCAN_BITS_LO, LANE_SCAN_ERR, LANE_SCAN_STAT, LANE_SCAN_STAT_BUSY]; omega)
    | omega
    | dsimp only

theorem scanStop_within (l : Lane) (n : Nat) (errors : Nat) (d : Dev) :
    d.within [] [5] (scanStop l n errors d) := by
  unfold scanStop
  try dsimp only
  repeat' first
    | with_reducible exact within_refl _ _ _
    | assumption
    | with_reducible apply within_comp (scanEnd_within _ _ _ _)
    | with_reducible apply within_foldl_snd
    | with_reducible apply within_foldl
    | with_reducible apply within_ite
    | (intro (_ : Dev) _; try dsimp only)
    | (intro (_ : _ × Dev) _; try dsimp only)
    | split
    | decide
    | exact Or.inl (by decide)
    | exact Or.inr (by decide)
    | omega
    | dsimp only

theorem scanDone_within (l : Lane) (errors : Nat) (d : Dev) :
    d.within [.ev, .wal] [2, 5, 18] (scanDone l errors d) := by
  unfold scanDone
  try dsimp only
  repeat' first
    | with_reducible exact within_refl _ _ _
    | assumption
    | with_reducible apply within_comp (put_within _ (LANE_SCAN_STAT_DONE _) _ 5 _ _)
    | with_reducible apply within_comp (laneFlag_within _ _ _ _)
    | with_reducible apply within_comp (scanEnd_within _ _ _ _)
    | with_reducible apply within_foldl_snd
    | with_reducible apply within_foldl
    | with_reducible apply within_ite
    | (intro (_ : Dev) _; try dsimp only)
    | (intro (_ : _ × Dev) _; try dsimp only)
    | split
    | decide
    | exact Or.inl (by decide)
    | exact Or.inr (by decide)
    | (simp only [LANE_FLAGS, LANE_FLAGS_SCAN_DONE, LANE_SCAN_STAT, LANE_SCAN_STAT_BUSY, LANE_SCAN_STAT_DONE]; omega)
    | omega
    | dsimp only

theorem prbsLock_within (l : Lane) (d : Dev) :
    d.within [] [5] (prbsLock l d) := by
  unfold prbsLock
  try dsimp only
  repeat' first
    | with_reducible exact within_refl _ _ _
    | assumption
    | with_reducible apply within_comp (put_within _ (LANE_PRBS_STAT_CHK_LOCK _) _ 5 _ _)
    | with_reducible apply within_foldl_snd
    | with_reducible apply within_foldl
    | with_reducible apply within_ite
    | (intro (_ : Dev) _; try dsimp only)
    | (intro (_ : _ × Dev) _; try dsimp only)
    | split
    | decide
    | exact Or.inl (by decide)
    | exact Or.inr (by decide)
    | (simp only [LANE_PRBS_STAT, LANE_PRBS_STAT_CHK_LOCK]; omega)
    | omega
    | dsimp only

theorem prbsLoss_within (l : Lane) (mismatches : Nat) (d : Dev) :
    d.within [.ev, .wal, .lanes] [2, 5, 18] (prbsLoss l mismatches d) := by
  unfold prbsLoss
  try dsimp only
  repeat' first
    | with_reducible exact within_refl _ _ _
    | assumption
    | with_reducible apply within_comp (count_within _ (LANE_PRBS_ERR _) _ 5 _ _)
    | with_reducible apply within_comp (chkDrop_within _ _)
    | with_reducible apply within_comp (laneFlag_within _ _ _ _)
    | with_reducible apply within_foldl_snd
    | with_reducible apply within_foldl
    | with_reducible apply within_ite
    | (intro (_ : Dev) _; try dsimp only)
    | (intro (_ : _ × Dev) _; try dsimp only)
    | split
    | decide
    | exact Or.inl (by decide)
    | exact Or.inr (by decide)
    | (simp only [LANE_FLAGS, LANE_FLAGS_PRBS_ERR, LANE_PRBS_ERR, LANE_PRBS_STAT, LANE_PRBS_STAT_CHK_LOCK]; omega)
    | omega
    | dsimp only

theorem laneTick_within (l : Lane) (d : Dev) :
    d.within [.lanes] [5] (laneTick l d) := by
  unfold laneTick
  try dsimp only
  repeat' first
    | with_reducible exact within_refl _ _ _
    | assumption
    | with_reducible apply within_comp (put_within _ (LANE_PRBS_STAT_INJ_PEND _) _ 5 _ _)
    | with_reducible apply within_comp (count_within _ (LANE_INJ_COUNT _) _ 5 _ _)
    | with_reducible apply within_comp (setReg_within _ (LANE_PRBS_BITS_LO _) _ 5 _ _)
    | with_reducible apply within_comp (setReg_within _ (LANE_PRBS_BITS_HI _) _ 5 _ _)
    | with_reducible apply within_comp (laneMod_within _ _ _)
    | with_reducible apply within_foldl_snd
    | with_reducible apply within_foldl
    | with_reducible apply within_ite
    | (intro (_ : Dev) _; try dsimp only)
    | (intro (_ : _ × Dev) _; try dsimp only)
    | split
    | decide
    | exact Or.inl (by decide)
    | exact Or.inr (by decide)
    | (simp only [LANE_INJ_COUNT, LANE_PRBS_BITS_HI, LANE_PRBS_BITS_LO, LANE_PRBS_STAT, LANE_PRBS_STAT_INJ_PEND]; omega)
    | omega
    | dsimp only

theorem lanesTick_within  (d : Dev) :
    d.within [.lanes] [5] (lanesTick  d) := by
  unfold lanesTick
  try dsimp only
  repeat' first
    | with_reducible exact within_refl _ _ _
    | assumption
    | with_reducible apply within_comp (laneTick_within _ _)
    | with_reducible apply within_foldl_snd
    | with_reducible apply within_foldl
    | with_reducible apply within_ite
    | (intro (_ : Dev) _; try dsimp only)
    | (intro (_ : _ × Dev) _; try dsimp only)
    | split
    | decide
    | exact Or.inl (by decide)
    | exact Or.inr (by decide)
    | omega
    | dsimp only

theorem stationPll_within  (d : Dev) :
    d.within [.ev, .flt, .wal, .dof, .mpl] [2, 5, 18] (stationPll  d) := by
  unfold stationPll
  try dsimp only
  repeat' first
    | with_reducible exact within_refl _ _ _
    | assumption
    | with_reducible apply within_comp (put_within _ LNK_STATUS_S_PLL_LOCK _ 5 _ _)
    | with_reducible apply within_comp (flagEvent_within LNK_FLAGS_S_PLL_LOSS _ _ _ 5 _ _ _ _)
    | with_reducible apply within_comp (fault_within _ _ _ _ _)
    | with_reducible apply within_foldl_snd
    | with_reducible apply within_foldl
    | with_reducible apply within_ite
    | (intro (_ : Dev) _; try dsimp only)
    | (intro (_ : _ × Dev) _; try dsimp only)
    | split
    | decide
    | exact Or.inl (by decide)
    | exact Or.inr (by decide)
    | (simp only [LNK_FLAGS, LNK_FLAGS_S_PLL_LOSS, LNK_STATUS, LNK_STATUS_S_PLL_LOCK]; omega)
    | omega
    | dsimp only

theorem chainPll_within  (d : Dev) :
    d.within [.ev, .flt, .wal, .dof, .mpl] [2, 5, 18] (chainPll  d) := by
  unfold chainPll
  try dsimp only
  repeat' first
    | with_reducible exact within_refl _ _ _
    | assumption
    | with_reducible apply within_comp (put_within _ LNK_STATUS_C_PLL_LOCK _ 5 _ _)
    | with_reducible apply within_comp (flagEvent_within LNK_FLAGS_C_PLL_LOSS _ _ _ 5 _ _ _ _)
    | with_reducible apply within_comp (fault_within _ _ _ _ _)
    | with_reducible apply within_foldl_snd
    | with_reducible apply within_foldl
    | with_reducible apply within_ite
    | (intro (_ : Dev) _; try dsimp only)
    | (intro (_ : _ × Dev) _; try dsimp only)
    | split
    | decide
    | exact Or.inl (by decide)
    | exact Or.inr (by decide)
    | (simp only [LNK_FLAGS, LNK_FLAGS_C_PLL_LOSS, LNK_STATUS, LNK_STATUS_C_PLL_LOCK]; omega)
    | omega
    | dsimp only

end Sys2Proof.Machine
end

