-- ==== Sys2Proof/Laws/OfRegOps.lean ====
section
/-!
SUPPORT. What each operation of Machine/RegOps.lean may touch: the parts of the device and the blocks of registers.
-/
namespace Sys2Proof.Machine

open Reg

set_option linter.unusedTactic false
set_option linter.unreachableTactic false
set_option linter.unusedSimpArgs false

end Sys2Proof.Machine
end

