-- ==== Sys2Proof/Laws/OfRegWrites.lean ====
section
/-!
SUPPORT. What each operation of Machine/RegWrites.lean may touch: the parts of the device and the blocks of registers.
-/
namespace Sys2Proof.Machine

open Reg

set_option linter.unusedTactic false
set_option linter.unreachableTactic false
set_option linter.unusedSimpArgs false

theorem lampCtrl_within (w : Nat) (d : Dev) :
    d.within [.ev, .wal, .lmp] [2, 15, 18] (lampCtrl w d) := by
  unfold lampCtrl
  try dsimp only
  repeat' first
    | with_reducible exact within_refl _ _ _
    | assumption
    | with_reducible apply within_comp (put_within _ LMP_CTRL_COLOUR_EN _ 15 _ _)
    | with_reducible apply within_comp (setReg_within _ (LMP_COL_GAIN _) _ 15 _ _)
    | with_reducible apply within_comp (put_within _ LMP_CTRL_TEST_EN _ 15 _ _)
    | with_reducible apply within_comp (put_within _ LMP_CTRL_CHAIN_EN _ 15 _ _)
    | with_reducible apply within_comp (put_within _ LMP_CHAIN_COMMIT_R385 _ 15 _ _)
    | with_reducible apply within_comp (put_within _ LMP_STATUS_CHAIN_BUSY _ 15 _ _)
    | with_reducible apply within_comp (put_within _ LMP_CTRL_MTX_EN _ 15 _ _)
    | with_reducible apply within_comp (writeLocked_within LMP_FLAGS_WRITE_LOCKED _ _ 15 _ _ _ _)
    | with_reducible apply within_comp (lmpMod_within _ _)
    | with_reducible apply within_foldl_snd
    | with_reducible apply within_foldl_mem
    | (intro (v : Dev) x hx; have hx := List.mem_range.1 hx; try dsimp only)
    | with_reducible apply within_foldl
    | with_reducible apply within_ite
    | (intro (_ : Dev) _; try dsimp only)
    | (intro (_ : _ × Dev) _; try dsimp only)
    | split
    | decide
    | exact Or.inl (by decide)
    | exact Or.inr (by decide)
    | (simp only [LMP_CHAIN_COMMIT, LMP_CHAIN_COMMIT_R385, LMP_COL_GAIN, LMP_CTRL, LMP_CTRL_CHAIN_EN, LMP_CTRL_COLOUR_EN, LMP_CTRL_MTX_EN, LMP_CTRL_TEST_EN, LMP_FLAGS, LMP_FLAGS_WRITE_LOCKED, LMP_STATUS, LMP_STATUS_CHAIN_BUSY]; omega)
    | omega
    | dsimp only

theorem writeArch_within (n : Station) (w : Nat) (d : Dev) :
    d.within [.shadow, .ev, .flt, .wal, .chain, .dof, .mpl] [2, 11, 18] (writeArch n w d) := by
  unfold writeArch
  try dsimp only
  repeat' first
    | with_reducible exact within_refl _ _ _
    | assumption
    | with_reducible apply within_comp (setShadow_within _ _ _)
    | with_reducible apply within_comp (archFreeze_within _ _)
    | with_reducible apply within_comp (archRead_within _ _)
    | with_reducible apply within_comp (archResume_within _ _)
    | with_reducible apply within_foldl_snd
    | with_reducible apply within_foldl
    | with_reducible apply within_ite
    | (intro (_ : Dev) _; try dsimp only)
    | (intro (_ : _ × Dev) _; try dsimp only)
    | split
    | decide
    | exact Or.inl (by decide)
    | exact Or.inr (by decide)
    | omega
    | dsimp only

theorem secKeyCmd_within (w : Nat) (d : Dev) :
    d.within [.ev, .flt, .wal, .dof, .sec, .mpl] [0, 2, 18, 21] (secKeyCmd w d) := by
  unfold secKeyCmd
  try dsimp only
  repeat' first
    | with_reducible exact within_refl _ _ _
    | assumption
    | with_reducible apply within_comp (aonFlag_within SEC_FLAGS_WRITE_LOCKED _ _ 21 _ _ _ _)
    | with_reducible apply within_comp (NEVER_within)
    | with_reducible apply within_comp (keyCommand_within _ _ _)
    | with_reducible apply within_comp (secWipe_within _ _)
    | with_reducible apply within_foldl_snd
    | with_reducible apply within_foldl
    | with_reducible apply within_ite
    | (intro (_ : Dev) _; try dsimp only)
    | (intro (_ : _ × Dev) _; try dsimp only)
    | split
    | decide
    | exact Or.inl (by decide)
    | exact Or.inr (by decide)
    | (simp only [SEC_FLAGS, SEC_FLAGS_WRITE_LOCKED]; omega)
    | omega
    | dsimp only

theorem trdCommitNow_within  (d : Dev) :
    d.within [.shadow] [20] (trdCommitNow  d) := by
  unfold trdCommitNow
  try dsimp only
  repeat' first
    | with_reducible exact within_refl _ _ _
    | assumption
    | with_reducible apply within_comp (commitAll_within _ .layerTrd _ _ [20] layerTrd_in (by decide))
    | with_reducible apply within_foldl_snd
    | with_reducible apply within_foldl
    | with_reducible apply within_ite
    | (intro (_ : Dev) _; try dsimp only)
    | (intro (_ : _ × Dev) _; try dsimp only)
    | split
    | decide
    | exact Or.inl (by decide)
    | exact Or.inr (by decide)
    | omega
    | dsimp only

end Sys2Proof.Machine
end

