-- ==== Sys2Proof/Laws/OfMgmtOps.lean ====
section
/-!
SUPPORT. What each operation of Machine/MgmtOps.lean may touch: the parts of the device and the blocks of registers.
-/
namespace Sys2Proof.Machine

open Reg

set_option linter.unusedTactic false
set_option linter.unreachableTactic false
set_option linter.unusedSimpArgs false

theorem mgmMod_within (f : Mgmt → Mgmt) (d : Dev) :
    d.within [.mgm] [] (d.mgmMod f) := by
  unfold Dev.mgmMod
  try simp only [mk_mgm]
  repeat' first
    | with_reducible exact within_refl _ _ _
    | assumption
    | with_reducible apply within_foldl_snd
    | with_reducible apply within_foldl
    | with_reducible apply within_ite
    | (intro (_ : Dev) _; try dsimp only)
    | (intro (_ : _ × Dev) _; try dsimp only)
    | with_reducible apply within_comp (toMgm_within _ _)
    | split
    | decide
    | exact Or.inl (by decide)
    | exact Or.inr (by decide)
    | omega
    | dsimp only

theorem mgmtReply_within (op : Nat) (seqNo : Nat) (status : Nat) (addr : Nat) (count : Nat) (ws : List Nat) (d : Dev) :
    d.within [.ev, .flt, .wal, .chain, .dof, .mpl] [2, 6, 18] (mgmtReply op seqNo status addr count ws d) := by
  unfold mgmtReply
  try dsimp only
  repeat' first
    | with_reducible exact within_refl _ _ _
    | assumption
    | with_reducible apply within_comp (portsKick_within _)
    | with_reducible apply within_comp (sendReply_within _ _ _ _)
    | with_reducible apply within_foldl_snd
    | with_reducible apply within_foldl
    | with_reducible apply within_ite
    | (intro (_ : Dev) _; try dsimp only)
    | (intro (_ : _ × Dev) _; try dsimp only)
    | split
    | decide
    | exact Or.inl (by decide)
    | exact Or.inr (by decide)
    | omega
    | dsimp only

theorem answer_within (p : Path) (st : Nat) (v : Nat) (d : Dev) :
    d.within [.mgm] [] (answer p st v d) := by
  unfold answer
  try dsimp only
  repeat' first
    | with_reducible exact within_refl _ _ _
    | assumption
    | with_reducible apply within_comp (mgmMod_within _ _)
    | with_reducible apply within_foldl_snd
    | with_reducible apply within_foldl
    | with_reducible apply within_ite
    | (intro (_ : Dev) _; try dsimp only)
    | (intro (_ : _ × Dev) _; try dsimp only)
    | split
    | decide
    | exact Or.inl (by decide)
    | exact Or.inr (by decide)
    | omega
    | dsimp only

theorem mgmtIdentity_within (x : Frame) (d : Dev) :
    d.within [.ev, .flt, .wal, .chain, .dof, .mpl] [2, 6, 18] (mgmtIdentity x d) := by
  unfold mgmtIdentity
  try dsimp only
  repeat' first
    | with_reducible exact within_refl _ _ _
    | assumption
    | with_reducible apply within_comp (mgmtReply_within _ _ _ _ _ _ _)
    | with_reducible apply within_foldl_snd
    | with_reducible apply within_foldl
    | with_reducible apply within_ite
    | (intro (_ : Dev) _; try dsimp only)
    | (intro (_ : _ × Dev) _; try dsimp only)
    | split
    | decide
    | exact Or.inl (by decide)
    | exact Or.inr (by decide)
    | omega
    | dsimp only

theorem mgmtBadOp_within (x : Frame) (d : Dev) :
    d.within [.ev, .flt, .wal, .chain, .dof, .mpl] [2, 6, 18] (mgmtBadOp x d) := by
  unfold mgmtBadOp
  try dsimp only
  repeat' first
    | with_reducible exact within_refl _ _ _
    | assumption
    | with_reducible apply within_comp (mgmtReply_within _ _ _ _ _ _ _)
    | with_reducible apply within_foldl_snd
    | with_reducible apply within_foldl
    | with_reducible apply within_ite
    | (intro (_ : Dev) _; try dsimp only)
    | (intro (_ : _ × Dev) _; try dsimp only)
    | split
    | decide
    | exact Or.inl (by decide)
    | exact Or.inr (by decide)
    | omega
    | dsimp only

theorem jtagDoffAddr_within (w : Nat) (d : Dev) :
    d.within [.dof] [] (jtagDoffAddr w d) := by
  unfold jtagDoffAddr
  try dsimp only
  repeat' first
    | with_reducible exact within_refl _ _ _
    | assumption
    | with_reducible apply within_comp (dofMod_within _ _)
    | with_reducible apply within_foldl_snd
    | with_reducible apply within_foldl
    | with_reducible apply within_ite
    | (intro (_ : Dev) _; try dsimp only)
    | (intro (_ : _ × Dev) _; try dsimp only)
    | split
    | decide
    | exact Or.inl (by decide)
    | exact Or.inr (by decide)
    | omega
    | dsimp only

theorem jtagDoffRead_within (uncorrectable : Bool) (d : Dev) :
    d.within [.dof] [19] (jtagDoffRead uncorrectable d) := by
  unfold jtagDoffRead
  try dsimp only
  repeat' first
    | with_reducible exact within_refl _ _ _
    | assumption
    | with_reducible apply within_comp (count_within _ DOF_UE _ 19 _ _)
    | with_reducible apply within_comp (dofMod_within _ _)
    | with_reducible apply within_foldl_snd
    | with_reducible apply within_foldl
    | with_reducible apply within_ite
    | (intro (_ : Dev) _; try dsimp only)
    | (intro (_ : _ × Dev) _; try dsimp only)
    | split
    | decide
    | exact Or.inl (by decide)
    | exact Or.inr (by decide)
    | (simp only [DOF_UE]; omega)
    | omega
    | dsimp only

theorem jtagIdcode_within  (d : Dev) :
    d.within [.dof] [] (jtagIdcode  d) := by
  unfold jtagIdcode
  try dsimp only
  repeat' first
    | with_reducible exact within_refl _ _ _
    | assumption
    | with_reducible apply within_comp (dofMod_within _ _)
    | with_reducible apply within_foldl_snd
    | with_reducible apply within_foldl
    | with_reducible apply within_ite
    | (intro (_ : Dev) _; try dsimp only)
    | (intro (_ : _ × Dev) _; try dsimp only)
    | split
    | decide
    | exact Or.inl (by decide)
    | exact Or.inr (by decide)
    | omega
    | dsimp only

end Sys2Proof.Machine
end

