-- ==== Sys2Proof/Laws/OfClocks.lean ====
section
/-!
SUPPORT. What each operation of Machine/Clocks.lean may touch: the parts of the device and the blocks of registers.
-/
namespace Sys2Proof.Machine

open Reg

set_option linter.unusedTactic false
set_option linter.unreachableTactic false
set_option linter.unusedSimpArgs false

theorem pllLoss_within (p : Nat) (d : Dev) :
    d.within [.ev, .flt, .wal, .dof, .mpl] [1, 2, 18] (pllLoss p d) := by
  unfold pllLoss
  try dsimp only
  repeat' first
    | with_reducible exact within_refl _ _ _
    | assumption
    | with_reducible apply within_comp (put_within _ CLK_FLAGS_PLL_LOSS _ 1 _ _)
    | with_reducible apply within_comp (setReg_within _ CLK_PLL _ 1 _ _)
    | with_reducible apply within_comp (aonEvent_within _ _ _ _ _ _ _)
    | with_reducible apply within_foldl_snd
    | with_reducible apply within_foldl
    | with_reducible apply within_ite
    | (intro (_ : Dev) _; try dsimp only)
    | (intro (_ : _ × Dev) _; try dsimp only)
    | split
    | decide
    | exact Or.inl (by decide)
    | exact Or.inr (by decide)
    | (simp only [CLK_FLAGS, CLK_FLAGS_PLL_LOSS, CLK_PLL]; omega)
    | omega
    | dsimp only

theorem pllRelock_within (p : Nat) (d : Dev) :
    d.within [.flt] [1, 5] (pllRelock p d) := by
  unfold pllRelock
  try dsimp only
  repeat' first
    | with_reducible exact within_refl _ _ _
    | assumption
    | with_reducible apply within_comp (put_within _ LNK_STATUS_S_PLL_LOCK _ 5 _ _)
    | with_reducible apply within_comp (put_within _ LNK_STATUS_C_PLL_LOCK _ 5 _ _)
    | with_reducible apply within_comp (setReg_within _ CLK_PLL _ 1 _ _)
    | with_reducible apply within_comp (recovered_within _ _)
    | with_reducible apply within_foldl_snd
    | with_reducible apply within_foldl
    | with_reducible apply within_ite
    | (intro (_ : Dev) _; try dsimp only)
    | (intro (_ : _ × Dev) _; try dsimp only)
    | split
    | decide
    | exact Or.inl (by decide)
    | exact Or.inr (by decide)
    | (simp only [CLK_PLL, LNK_STATUS, LNK_STATUS_C_PLL_LOCK, LNK_STATUS_S_PLL_LOCK]; omega)
    | omega
    | dsimp only

end Sys2Proof.Machine
end

