-- ==== Sys2Proof/Laws/OfImageOps.lean ====
section
/-!
SUPPORT. What each operation of Machine/ImageOps.lean may touch: the parts of the device and the blocks of registers.
-/
namespace Sys2Proof.Machine

open Reg

set_option linter.unusedTactic false
set_option linter.unreachableTactic false
set_option linter.unusedSimpArgs false

theorem noDram_within  (d : Dev) :
    d.within [.ev, .wal] [0, 2, 18] (noDram  d) := by
  unfold noDram
  try dsimp only
  repeat' first
    | with_reducible exact within_refl _ _ _
    | assumption
    | with_reducible apply within_comp (put_within _ DEV_STATE_STATE _ 0 _ _)
    | with_reducible apply within_comp (occur_within _ _ _ _ _)
    | with_reducible apply within_foldl_snd
    | with_reducible apply within_foldl
    | with_reducible apply within_ite
    | (intro (_ : Dev) _; try dsimp only)
    | (intro (_ : _ × Dev) _; try dsimp only)
    | split
    | decide
    | exact Or.inl (by decide)
    | exact Or.inr (by decide)
    | (simp only [DEV_STATE, DEV_STATE_STATE]; omega)
    | omega
    | dsimp only

theorem setImgFail_within (k : Nat) (code : Nat) (d : Dev) :
    d.within [] [0] (setImgFail k code d) := by
  unfold setImgFail
  try dsimp only
  repeat' first
    | with_reducible exact within_refl _ _ _
    | assumption
    | with_reducible apply within_comp (setReg_within _ DEV_IMG_FAIL _ 0 _ _)
    | with_reducible apply within_foldl_snd
    | with_reducible apply within_foldl
    | with_reducible apply within_ite
    | (intro (_ : Dev) _; try dsimp only)
    | (intro (_ : _ × Dev) _; try dsimp only)
    | split
    | decide
    | exact Or.inl (by decide)
    | exact Or.inr (by decide)
    | (simp only [DEV_IMG_FAIL]; omega)
    | omega
    | dsimp only

theorem authTake_within (rd : ImgRead) (d : Dev) :
    d.within [.sec] [0] (d.authTake rd) := by
  unfold Dev.authTake
  try simp only [mk_sec]
  repeat' first
    | with_reducible exact within_refl _ _ _
    | assumption
    | with_reducible apply within_comp (put_within _ DEV_STATE_AUTH_OK _ 0 _ _)
    | with_reducible apply within_foldl_snd
    | with_reducible apply within_foldl
    | with_reducible apply within_ite
    | (intro (_ : Dev) _; try dsimp only)
    | (intro (_ : _ × Dev) _; try dsimp only)
    | with_reducible apply within_comp (toSec_within _ _)
    | split
    | decide
    | exact Or.inl (by decide)
    | exact Or.inr (by decide)
    | (simp only [DEV_STATE, DEV_STATE_AUTH_OK]; omega)
    | omega
    | dsimp only

theorem inForce_within (k : Nat) (rd : ImgRead) (d : Dev) :
    d.within [] [0] (d.inForce k rd) := by
  unfold Dev.inForce
  try dsimp only
  repeat' first
    | with_reducible exact within_refl _ _ _
    | assumption
    | with_reducible apply within_comp (setReg_within _ DEV_ID6 _ 0 _ _)
    | with_reducible apply within_comp (setReg_within _ DEV_ID5 _ 0 _ _)
    | with_reducible apply within_comp (put_within _ DEV_STATE_SLOT _ 0 _ _)
    | with_reducible apply within_foldl_snd
    | with_reducible apply within_foldl
    | with_reducible apply within_ite
    | (intro (_ : Dev) _; try dsimp only)
    | (intro (_ : _ × Dev) _; try dsimp only)
    | split
    | decide
    | exact Or.inl (by decide)
    | exact Or.inr (by decide)
    | (simp only [DEV_ID5, DEV_ID6, DEV_STATE, DEV_STATE_SLOT]; omega)
    | omega
    | dsimp only

theorem updChecked_within  (d : Dev) :
    d.within [.ev, .flt, .wal, .dof, .start, .sec, .mpl] [0, 2, 18] (updChecked  d) := by
  unfold updChecked
  try dsimp only
  repeat' first
    | with_reducible exact within_refl _ _ _
    | assumption
    | with_reducible apply within_comp (put_within _ DEV_UPD_STAT_RESULT _ 0 _ _)
    | with_reducible apply within_comp (aonEvent_within _ _ _ _ _ _ _)
    | with_reducible apply within_comp (updFail_within _ _)
    | with_reducible apply within_comp (updIdle_within _)
    | with_reducible apply within_comp (updState_within _ _)
    | with_reducible apply within_foldl_snd
    | with_reducible apply within_foldl
    | with_reducible apply within_ite
    | (intro (_ : Dev) _; try dsimp only)
    | (intro (_ : _ × Dev) _; try dsimp only)
    | split
    | decide
    | exact Or.inl (by decide)
    | exact Or.inr (by decide)
    | (simp only [DEV_UPD_STAT, DEV_UPD_STAT_RESULT]; omega)
    | omega
    | dsimp only

theorem updProgrammed_within (good : Bool) (d : Dev) :
    d.within [.ev, .flt, .wal, .flash, .dof, .start, .sec, .mpl] [0, 2, 18] (updProgrammed good d) := by
  unfold updProgrammed
  try dsimp only
  repeat' first
    | with_reducible exact within_refl _ _ _
    | assumption
    | with_reducible apply within_comp (put_within _ DEV_UPD_STAT_RESULT _ 0 _ _)
    | with_reducible apply within_comp (eraseFlash_within _ _ _)
    | with_reducible apply within_comp (programFlash_within _ _ _)
    | with_reducible apply within_comp (aonEvent_within _ _ _ _ _ _ _)
    | with_reducible apply within_comp (updFail_within _ _)
    | with_reducible apply within_comp (updIdle_within _)
    | with_reducible apply within_comp (updState_within _ _)
    | with_reducible apply within_foldl_snd
    | with_reducible apply within_foldl
    | with_reducible apply within_ite
    | (intro (_ : Dev) _; try dsimp only)
    | (intro (_ : _ × Dev) _; try dsimp only)
    | split
    | decide
    | exact Or.inl (by decide)
    | exact Or.inr (by decide)
    | (simp only [DEV_UPD_STAT, DEV_UPD_STAT_RESULT]; omega)
    | omega
    | dsimp only

theorem updPending_within (readGood : Bool) (d : Dev) :
    d.within [.ev, .flt, .wal, .dof, .start, .sec, .mpl] [0, 2, 18] (updPending readGood d) := by
  unfold updPending
  try simp only [mk_sec]
  repeat' first
    | with_reducible exact within_refl _ _ _
    | assumption
    | with_reducible apply within_comp (put_within _ DEV_UPD_STAT_RESULT _ 0 _ _)
    | with_reducible apply within_comp (updFail_within _ _)
    | with_reducible apply within_comp (updIdle_within _)
    | with_reducible apply within_comp (updState_within _ _)
    | with_reducible apply within_foldl_snd
    | with_reducible apply within_foldl
    | with_reducible apply within_ite
    | (intro (_ : Dev) _; try dsimp only)
    | (intro (_ : _ × Dev) _; try dsimp only)
    | with_reducible apply within_comp (toSec_within _ _)
    | split
    | decide
    | exact Or.inl (by decide)
    | exact Or.inr (by decide)
    | (simp only [DEV_UPD_STAT, DEV_UPD_STAT_RESULT]; omega)
    | omega
    | dsimp only

theorem stateBack_within  (d : Dev) :
    d.within [.start] [0] (stateBack  d) := by
  unfold stateBack
  try dsimp only
  repeat' first
    | with_reducible exact within_refl _ _ _
    | assumption
    | with_reducible apply within_comp (put_within _ DEV_STATE_STATE _ 0 _ _)
    | with_reducible apply within_comp (startMod_within _ _)
    | with_reducible apply within_foldl_snd
    | with_reducible apply within_foldl
    | with_reducible apply within_ite
    | (intro (_ : Dev) _; try dsimp only)
    | (intro (_ : _ × Dev) _; try dsimp only)
    | split
    | decide
    | exact Or.inl (by decide)
    | exact Or.inr (by decide)
    | (simp only [DEV_STATE, DEV_STATE_STATE]; omega)
    | omega
    | dsimp only

theorem shedHalt_within  (d : Dev) :
    d.within [.shd] [7] (shedHalt  d) := by
  unfold shedHalt
  try dsimp only
  repeat' first
    | with_reducible exact within_refl _ _ _
    | assumption
    | with_reducible apply within_comp (put_within _ SHD_STATUS_PASS _ 7 _ _)
    | with_reducible apply within_comp (shdMod_within _ _)
    | with_reducible apply within_foldl_snd
    | with_reducible apply within_foldl
    | with_reducible apply within_ite
    | (intro (_ : Dev) _; try dsimp only)
    | (intro (_ : _ × Dev) _; try dsimp only)
    | split
    | decide
    | exact Or.inl (by decide)
    | exact Or.inr (by decide)
    | (simp only [SHD_STATUS, SHD_STATUS_PASS]; omega)
    | omega
    | dsimp only

theorem reallocSlots_within  (d : Dev) :
    d.within [] [20] (reallocSlots  d) := by
  unfold reallocSlots
  try dsimp only
  repeat' first
    | with_reducible exact within_refl _ _ _
    | assumption
    | with_reducible apply within_comp (setSlotState_within _ _ _)
    | with_reducible apply within_foldl_snd
    | with_reducible apply within_foldl
    | with_reducible apply within_ite
    | (intro (_ : Dev) _; try dsimp only)
    | (intro (_ : _ × Dev) _; try dsimp only)
    | split
    | decide
    | exact Or.inl (by decide)
    | exact Or.inr (by decide)
    | omega
    | dsimp only

end Sys2Proof.Machine
end

