-- ==== Sys2Proof/Laws/OfDramCmds.lean ====
section
/-!
SUPPORT. What each operation of Machine/DramCmds.lean may touch: the parts of the device and the blocks of registers.
-/
namespace Sys2Proof.Machine

open Reg

set_option linter.unusedTactic false
set_option linter.unreachableTactic false
set_option linter.unusedSimpArgs false

theorem orphanBurst_within (i : Slot) (a : Nat) (d : Dev) :
    d.within [.ev, .flt, .wal, .trd, .dof, .mpl, .shd] [2, 7, 18, 20] (orphanBurst i a d) := by
  unfold orphanBurst
  try dsimp only
  repeat' first
    | with_reducible exact within_refl _ _ _
    | assumption
    | with_reducible apply within_comp (shdMod_within _ _)
    | with_reducible apply within_comp (slotMod_within _ _ _)
    | with_reducible apply within_comp (reportOrphans_within _ _ _)
    | with_reducible apply within_foldl_snd
    | with_reducible apply within_foldl
    | with_reducible apply within_ite
    | (intro (_ : Dev) _; try dsimp only)
    | (intro (_ : _ × Dev) _; try dsimp only)
    | split
    | decide
    | exact Or.inl (by decide)
    | exact Or.inr (by decide)
    | omega
    | dsimp only

end Sys2Proof.Machine
end

