-- ==== Sys2Proof/Laws/OfStartups.lean ====
section
/-!
SUPPORT. What each operation of Machine/Startups.lean may touch: the parts of the device and the blocks of registers.
-/
namespace Sys2Proof.Machine

open Reg

set_option linter.unusedTactic false
set_option linter.unreachableTactic false
set_option linter.unusedSimpArgs false

theorem strapSample_within (w : Nat) (d : Dev) :
    d.within [.start] [0] (strapSample w d) := by
  unfold strapSample
  try dsimp only
  repeat' first
    | with_reducible exact within_refl _ _ _
    | assumption
    | with_reducible apply within_comp (setReg_within _ DEV_STRAPS _ 0 _ _)
    | with_reducible apply within_comp (put_within _ DEV_STATE_STATE _ 0 _ _)
    | with_reducible apply within_comp (startMod_within _ _)
    | with_reducible apply within_foldl_snd
    | with_reducible apply within_foldl
    | with_reducible apply within_ite
    | (intro (_ : Dev) _; try dsimp only)
    | (intro (_ : _ × Dev) _; try dsimp only)
    | split
    | decide
    | exact Or.inl (by decide)
    | exact Or.inr (by decide)
    | (simp only [DEV_STATE, DEV_STATE_STATE, DEV_STRAPS]; omega)
    | omega
    | dsimp only

end Sys2Proof.Machine
end

