-- ==== Sys2Proof/Laws/OfTickOps.lean ====
section
/-!
SUPPORT. What each operation of Machine/TickOps.lean may touch: the parts of the device and the blocks of registers.
-/
namespace Sys2Proof.Machine

open Reg

set_option linter.unusedTactic false
set_option linter.unreachableTactic false
set_option linter.unusedSimpArgs false

theorem heatTick_within (n : Station) (k : Nat) (d : Dev) :
    d.within [.creel] [11] (heatTick n k d) := by
  unfold heatTick
  try dsimp only
  repeat' first
    | with_reducible exact within_refl _ _ _
    | assumption
    | with_reducible apply within_comp (setReg_within _ (MPLS_HEAT _) _ 11 _ _)
    | with_reducible apply within_comp (mboxPut_within _ _ _ _)
    | with_reducible apply within_foldl_snd
    | with_reducible apply within_foldl
    | with_reducible apply within_ite
    | (intro (_ : Dev) _; try dsimp only)
    | (intro (_ : _ × Dev) _; try dsimp only)
    | split
    | decide
    | exact Or.inl (by decide)
    | exact Or.inr (by decide)
    | (simp only [MPLS_HEAT]; omega)
    | omega
    | dsimp only

theorem schedShow_within  (d : Dev) :
    d.within [] [20] (schedShow  d) := by
  unfold schedShow
  try dsimp only
  repeat' first
    | with_reducible exact within_refl _ _ _
    | assumption
    | with_reducible apply within_comp (setReg_within _ TRD_TICK_HI _ 20 _ _)
    | with_reducible apply within_comp (setReg_within _ TRD_TICK_LO _ 20 _ _)
    | with_reducible apply within_foldl_snd
    | with_reducible apply within_foldl
    | with_reducible apply within_ite
    | (intro (_ : Dev) _; try dsimp only)
    | (intro (_ : _ × Dev) _; try dsimp only)
    | split
    | decide
    | exact Or.inl (by decide)
    | exact Or.inr (by decide)
    | (simp only [TRD_TICK_HI, TRD_TICK_LO]; omega)
    | omega
    | dsimp only

theorem flushHeld_within  (d : Dev) :
    d.within [.ev, .wal] [2, 18] (flushHeld  d) := by
  unfold flushHeld
  try simp only [mk_ev]
  repeat' first
    | with_reducible exact within_refl _ _ _
    | assumption
    | with_reducible apply within_comp (stage_within _ _)
    | with_reducible apply within_foldl_snd
    | with_reducible apply within_foldl
    | with_reducible apply within_ite
    | (intro (_ : Dev) _; try dsimp only)
    | (intro (_ : _ × Dev) _; try dsimp only)
    | with_reducible apply within_comp (toEv_within _ _ _)
    | split
    | with_reducible rfl
    | decide
    | exact Or.inl (by decide)
    | exact Or.inr (by decide)
    | omega
    | dsimp only

theorem managementBegin_within (ms : Nat) (mr4 : List (Word × Bool)) (d : Dev) :
    d.within [.grid, .ev, .wal, .chain, .crl, .drc] [2, 4, 18] (managementBegin ms mr4 d) := by
  unfold managementBegin
  try simp only [mk_grid, mk_crl]
  repeat' first
    | with_reducible exact within_refl _ _ _
    | assumption
    | with_reducible apply within_comp (portMod_within _ _ _)
    | with_reducible apply within_comp (dramManagement_within _ _)
    | with_reducible apply within_comp (flushHeld_within _)
    | with_reducible apply within_comp (logMs_within _)
    | with_reducible apply within_foldl_snd
    | with_reducible apply within_foldl
    | with_reducible apply within_ite
    | (intro (_ : Dev) _; try dsimp only)
    | (intro (_ : _ × Dev) _; try dsimp only)
    | with_reducible apply within_comp (toGrid_within _ _)
    | with_reducible apply within_comp (toCrl_within _ _)
    | split
    | decide
    | exact Or.inl (by decide)
    | exact Or.inr (by decide)
    | omega
    | dsimp only

end Sys2Proof.Machine
end

