-- ==== Sys2Proof/WellFormed.lean ====
section
/-!
DEFINITION. Which commands the block's surroundings can bring: an instant lies inside its tick, a frame, slot or reading has
the length its rule gives, an address lies inside the space it names. A command that is not well-formed changes nothing that a
rule states; the block's rules speak of well-formed ones.
-/
namespace Sys2Proof

/-- An instant in ns after a tick boundary: ticks are 500 ns (R22). -/
def inTick (tau : Nat) : Bool := tau < 500

/-- An instant in fabric cycles after a tick boundary: FAB runs at 1.0 GHz, and the rate of T0 stays within 500 ppm of it while it slews (R40, R496). -/
def inTickCycles (tau : Nat) : Bool := tau ≤ 500

/-- A byte address of the DRAM: DRC_ERR_ADDR has 36 bits (R440). -/
def inDram (addr : Nat) : Bool := addr < 2 ^ 36

/-- A MAC address has 48 bits (R475). -/
def macAddress (mac : Nat) : Bool := mac < 2 ^ 48

/-- What follows the EtherType of a frame: the 16 header bytes and the payload with its padding, in a frame of 64 to 8,226
bytes with its 14 bytes of addresses and EtherType and its FCS (R478). -/
def frameBody (bytes : List Byte) : Bool := 46 ≤ bytes.length && bytes.length ≤ 8208

/-- The SPI flash holds 32 to 256 MiB (R515). -/
def flashSize (n : Nat) : Bool := 33554432 ≤ n && n ≤ 268435456

/-- A colour reading is six bytes, or none when the sensor did not answer (R393). -/
def sixBytes (data : Option (List Byte)) : Bool :=
  match data with
  | none => true
  | some bs => bs.length == 6

/-- The command is one that the block's surroundings can bring. -/
def Instr.wf (i : Instr) : Bool :=
  match i with
  | .porstRelease => true
  | .strapSample _ => true
  | .clocksLocked _ flashBytes => flashSize flashBytes
  | .imageVerifyDone _ => true
  | .imageApplyDone _ => true
  | .dramTrainStepDone _ osc => osc.length ≤ 4
  | .softReset _ => true
  | .lcCmd _ _ => true
  | .lcProgrammed => true
  | .fuseKeyHash _ _ => true
  | .fuseKek _ _ => true
  | .fuseEpoch _ _ => true
  | .fuseDone _ => true
  | .updCheck => true
  | .updChecked => true
  | .updProgram => true
  | .updProgrammed _ => true
  | .updActivate => true
  | .updCancel => true
  | .updateApply _ => true
  | .updApplied _ => true
  | .authRecheckDone _ => true
  | .tickBoundary lateAxis latePower => lateAxis.length ≤ 48 && latePower.length ≤ 16
  | .periodBoundary => true
  | .managementTick mr4 => mr4.length ≤ 4
  | .registerWrite _ _ _ => true
  | .layerData _ => true
  | .layerValid _ => true
  | .slotFree _ => true
  | .jobMessageUndefined _ => true
  | .layerSchedule _ => true
  | .layerCancel _ => true
  | .pause _ => true
  | .pauseTickReached => true
  | .resume _ => true
  | .abort _ => true
  | .clear _ => true
  | .layerPrepStart => true
  | .layerPrepDone => true
  | .recoatStepDone => true
  | .recoatFault => true
  | .bedImageDone => true
  | .scanStart => true
  | .lateStart => true
  | .scanEnd => true
  | .layerClosed => true
  | .shedPassStart => true
  | .allocDone => true
  | .reallocStart _ => true
  | .reallocDone => true
  | .plumeStarve _ => true
  | .monitorDisable => true
  | .pickFetch _ => true
  | .shtDeadline _ _ => true
  | .pathStart _ => true
  | .stationComplete _ => true
  | .repick _ => true
  | .reedOverrun _ _ => true
  | .encLost _ _ => true
  | .followErr _ _ => true
  | .meltDev _ => true
  | .pyroLost _ => true
  | .extLost _ _ => true
  | .uplinkSlot _ header words _ _ _ => header.length == 7 && words.length == 148
  | .uplinkMarker _ body _ t4 => body.length == 7 && t4 < 65536
  | .serviceTimeout _ => true
  | .svcRead _ => true
  | .svcWrite _ => true
  | .laneEnable _ _ => true
  | .blockLock _ _ => true
  | .lockLoss _ _ => true
  | .scanStartCmd _ => true
  | .scanStopCmd _ bits errors => errors ≤ bits
  | .scanDone _ _ => true
  | .errorInject _ _ => true
  | .prbsLoss _ mismatches => mismatches ≤ 1024
  | .slanePll => true
  | .clanePll => true
  | .deviceFrame _ mac bytes _ => macAddress mac && frameBody bytes
  | .enumRequest _ seqNo => seqNo < 4294967296
  | .mgmtRead _ => true
  | .mgmtWrite _ => true
  | .mgmtIdentity _ => true
  | .mgmtBadOp _ => true
  | .ringProbe _ => true
  | .ringBreak _ => true
  | .pauseFrame _ _ => true
  | .pauseSend _ => true
  | .ptpSync _ _ _ seqNo _ _ _ => seqNo < 65536
  | .ptpTransit _ _ _ source seqNo _ _ _ => source < 2 ^ 80 && seqNo < 65536
  | .delayResp _ seqNo _ _ _ => seqNo < 65536
  | .announce _ dataset => dataset.length == 7
  | .delayReqSend _ _ => true
  | .ptpHoldover _ => true
  | .timebaseEnable _ _ => true
  | .timebaseCapture _ tau => inTickCycles tau
  | .stepSet _ => true
  | .stepAdd _ => true
  | .tlQueue _ _ tau => inTickCycles tau
  | .tlFlush _ => true
  | .timedLaunch _ tau => inTickCycles tau
  | .ppsOutPulse => true
  | .ppsInEdge tau => inTickCycles tau
  | .ppsLost => true
  | .eventFrameSend => true
  | .encoderEdge _ _ _ _ tau => inTick tau
  | .indexPulse _ tau => inTick tau
  | .ssiReadStart _ => true
  | .ssiReadDone _ _ _ tau => inTick tau
  | .countWrite _ _ tau => inTick tau
  | .cmpValWrite _ _ => true
  | .compareArm _ _ => true
  | .axisTargetWrite _ _ => true
  | .axisStop _ => true
  | .axisHalt _ => true
  | .axisHome _ => true
  | .clearPending _ => true
  | .axisEnable _ _ => true
  | .enDelayExpired _ => true
  | .profileUpdate _ => true
  | .stepCarry _ => true
  | .inputFirstEdge _ _ => true
  | .inputAccepted _ _ => true
  | .limitChatter _ _ => true
  | .vsEdge _ tau => inTick tau
  | .lineComplete _ samples tau => inTick tau && samples.all (· < 65536)
  | .pipelineLineDone tau => inTick tau
  | .frameDelivered _ tau => inTick tau
  | .frameTimeout _ tau => inTick tau
  | .trigNow _ tau => inTick tau
  | .trigTmo _ => true
  | .expSequenceDone _ _ => true
  | .i2cCmd _ => true
  | .i2cDone _ _ _ => true
  | .tapFrameBoundary tau => inTick tau
  | .planeCommit _ => true
  | .planeFlip _ => true
  | .tapEnable _ => true
  | .vidEnable _ => true
  | .memFrameDone => true
  | .tapUnderrun _ _ => true
  | .chainCommit => true
  | .chainRefresh => true
  | .chainFrameDone status => status.length == 32
  | .flashOpen _ => true
  | .flashClose _ => true
  | .matrixRowEnd tau _ => inTick tau
  | .colourMeasure => true
  | .colourReadingDone data _ => sixBytes data
  | .bobbinEnable _ _ => true
  | .bobbinDisable _ _ => true
  | .scrubRead _ _ => true
  | .keyLoad _ => true
  | .keyErase _ => true
  | .wipeAll _ => true
  | .tamper => true
  | .glitch _ => true
  | .secWipe => true
  | .dramEnable _ => true
  | .dramDisable _ => true
  | .freqSwitchRequest _ => true
  | .freqDone => true
  | .dqsOscRun _ _ n => n < 65536
  | .dramRefresh _ _ _ => true
  | .dramScrub _ _ => true
  | .selfRefreshEntry _ => true
  | .dramPanic _ _ _ => true
  | .dramUe addr _ _ => inDram addr
  | .descriptorWritten _ => true
  | .mapClearDone => true
  | .mapTimeEnd => true
  | .lastDescriptorTimeout _ => true
  | .archFreeze _ => true
  | .archFreezeCmd _ => true
  | .archReadCmd _ => true
  | .archResumeCmd _ => true
  | .trimDark _ => true
  | .trimGain _ => true
  | .trimAbort _ => true
  | .trimApply _ => true
  | .trimRebuild _ => true
  | .trimSave => true
  | .trimRegister => true
  | .trimRegAbort => true
  | .darkDone _ => true
  | .gainDone _ => true
  | .trimTimeout _ => true
  | .registrationCompute => true
  | .thermalRound temps millivolts => temps.length == 24 && millivolts.length == 6
  | .shutdownClockStop => true
  | .thmFailedClear _ => true
  | .faultHandler => true
  | .recoverTmo _ => true
  | .retireCmd _ => true
  | .clearRetire _ => true
  | .clearHalt _ => true
  | .emitGate _ tau => inTick tau
  | .swGate _ tau => inTick tau
  | .gateRelease => true
  | .evtPendClear _ _ => true
  | .logScan => true
  | .logRecordProgrammed => true
  | .logSectorErase => true
  | .logFlash => true
  | .logDrop _ => true
  | .hoursRecord => true
  | .logLoad => true
  | .logRead _ => true
  | .logAbort _ => true
  | .logInfo _ => true
  | .logNote _ => true
  | .logBadOp _ => true
  | .clockLost _ => true
  | .clockReturn _ _ => true
  | .doffTrigger _ => true
  | .doffFreeze => true
  | .jtagDoffAddr _ => true
  | .jtagDoffRead _ => true
  | .jtagMgmt _ _ _ => true
  | .jtagIdcode => true
  | .jtagBoundaryScan _ _ => true
  | .porstNLow => true
  | .supplyLoss _ => true
  | .registerReadClear _ _ => true
  | .updPending _ => true
  | .pllLoss _ => true
  | .pllRelock _ => true
  | .chainFrameSent _ => true
  | .dramCe addr _ => inDram addr
  | .gpioEdge _ period high => 0 < period && high ≤ period
  | .prbsLock _ => true

end Sys2Proof
end

