-- ==== Sys2Proof/Tests/Slice0.lean ====
section
/-!
SUPPORT. Tests: states and operands that meet the hypotheses of each clause of each statement, ill-formed commands that
WellFormed refuses, and worked examples of the spec.
-/

section
-- each theorem is checked before the next is read, so that checks do not pile up
set_option Elab.async false

namespace Sys2Proof.Machine
open Reg
def wbase : Dev := { Dev.reset with start := { Dev.reset.start with porstLow := false } }.setReg CLK_LIVE 0xFFFFFFFF
/-- register writes -/
def wdev (l : List (Nat × Nat)) : Dev := l.foldl (fun (d : Dev) (p : Nat × Nat) => d.setReg p.1 p.2) wbase
/-- field writes -/
def Dev.puts (d : Dev) (l : List (Field × Nat)) : Dev := l.foldl (fun (d : Dev) (p : Field × Nat) => d.put p.1 p.2) d
def wput (l : List (Field × Nat)) : Dev := wbase.puts l
/-- The state after a command. -/
def after (c : Instr) (s : State) : State := match exec c s with | .next t => t | _ => s
def wst (d : Dev) : State := ⟨d, Otp.blank, []⟩

def wCam : Dev := { (wdev [(ISP_DPC 0, 0xFFFFFFFF)]).puts [(ISPC_OUT_EXPORT 1, 0)] with isp := { ports := vmod wbase.isp.ports (1 : Camera) fun (p : CamPort) => { p with frames := [⟨7, 0, 0, 0, false, 0, 0, 0, 0, 9, 4, 2, 1, [], [], 2, some 0, true⟩] }, line := none } }

/-- the header of a small layer file -/
def wHeader (job layer sec ns : Nat) : List Byte :=
  wordsBytes ([0x464C5A4B, 0x00800001, job, layer, 4, ns, sec, 0, 5, 0, 0, 560] ++ List.replicate 16 1 ++ [1, 1, 50000, 0])
/-- its body: sixteen own lists and the selvedge list, each only END_OF_LIST, and one target -/
def wBody : List Byte :=
  ((List.range 17).flatMap fun n => wordsBytes [(if n < 16 then n else 0) * 2 ^ 24, 0, 0, 0, 0, 0, 0, 0]) ++ wordsBytes [1, 2, 3, 4]
def wKey : List Byte := List.replicate 32 0x5A
def wIv : List Byte := ((wHeader 7 3 0 0).drop 0x20).take 12
def wCipher : List Byte := gcmPlain wKey wIv wBody ++ gcmTag wKey wIv (wHeader 7 3 0 0) (gcmPlain wKey wIv wBody)
/-- slot `i` in state `st` with record `f` -/
def wslot (i : Slot) (st : Nat) (f : LayerSlot → LayerSlot) (d : Dev) : Dev :=
  ({ d with trd := { d.trd with slots := vmod d.trd.slots i f } }).setReg (slotStatus i) st
/-- a message of type `t` with fields `ws` at the head of port 0's receive bobbin -/
def wMsg (kind : Nat) (ws : List Nat) (rest : List Byte) (d : Dev) : Dev :=
  { d with chain := { d.chain with ports := vmod d.chain.ports (0 : Port) fun (x : ChainPort) =>
      { x with rxQ := [⟨.forwarded, kind, 4, 0, 0, 77, wordsBytes ws ++ rest, .none⟩] } } }
def wjob (l : List (Nat × Nat)) : Dev :=
  wdev ([(TRD_CTRL, 1), (NET_STATUS, 0x24), (CRLB_CFG 64, 1), (CRLB_SIZE 64, 256), (CRLB_WR 64, 1), (TRD_SLOT_SIZE, 16), (TRD_SLOT_BASE, 256),
    (TRD_ARM_LEAD, 1), (NETT_CTRL 0, 1)] ++ l)

/-- the smallest configuration image: a header and the END section -/
def wImage (seq : Nat) : List Byte :=
  let h := wordsBytes ([0x46435A4B, 0x00400001, 80, 1, seq, 0x100, 0x1234] ++ List.replicate 8 0)
  let e := wordsBytes [15, 0, 0]
  h ++ leBytes 4 (crc32c h) ++ e ++ leBytes 4 (crc32c e)
def wImgDev (l : List (Nat × Nat)) (k seq : Nat) : Dev := (wdev l).programFlash (k * 0x800000) (wImage seq)

/-- No event that the register file lists is configured with a reaction. -/
def noReact (t : List (Nat × Word)) : Bool :=
  t.all fun e => !(0x20400 ≤ e.1 && e.1 < 0x20800) || bits e.2.toNat 10 8 == 0

theorem react_of_noReact (k : Nat) (h1 : 0x20400 ≤ k) (h2 : k < 0x20800) (d : Word) (hd : bits d.toNat 10 8 = 0)
    (t : List (Nat × Word)) (h : noReact t = true) : bits (sget d t k).toNat 10 8 = 0 := by
  induction t with
  | nil => exact hd
  | cons e t ih =>
    obtain ⟨j, w⟩ := e
    simp only [noReact, List.all_cons, Bool.and_eq_true] at h
    simp only [sget]
    split
    · rename_i hj
      subst hj
      simpa [h1, h2] using h.1
    · exact ih h.2

theorem calm_of_regs {d : Dev} (hr : d.ev.reacts = []) (h : noReact d.regs = true) : d.calm := by
  refine ⟨hr, fun e he => ?_⟩
  have hd : ∀ e : Fin 256, bits (resetOf (EVT_CFG e)).toNat 10 8 = 0 := by decide +kernel
  exact react_of_noReact _ (by simp [EVT_CFG]) (by simp [EVT_CFG]; omega) _ (hd ⟨e, he⟩) _ h

/-! ### The CRC, without evaluating it -/

theorem crcBit_lt (c : Nat) (h : c < 2 ^ 32) : crcBit c < 2 ^ 32 := by
  unfold crcBit
  split
  · exact Nat.xor_lt_two_pow (by omega) (by decide)
  · omega

theorem crc32c_lt (bs : List Byte) : crc32c bs < 2 ^ 32 := by
  have hr : ∀ n c, c < 2 ^ 32 → Nat.repeat crcBit n c < 2 ^ 32 := by
    intro n
    induction n with
    | zero => exact fun _ h => h
    | succ n ih => exact fun c h => crcBit_lt _ (ih c h)
  have hf : ∀ (bs : List Byte) c, c < 2 ^ 32 → bs.foldl crcByte c < 2 ^ 32 := by
    intro bs
    induction bs with
    | nil => exact fun _ h => h
    | cons b bs ih => exact fun c h => ih _ (hr 8 _ (Nat.xor_lt_two_pow h (by omega)))
  exact Nat.xor_lt_two_pow (hf bs _ (by decide)) (by decide)

/-- A word that is stated as the CRC of some bytes matches the CRC of the same bytes. -/
theorem crc_word (a b : List Byte) (h : a = b) : crc32c a = (BitVec.ofNat 32 (crc32c b)).toNat := by
  subst h
  rw [BitVec.toNat_ofNat, Nat.mod_eq_of_lt (crc32c_lt a)]

/-! ### A grid of zeros at 0x40000, of pitch 1, with its CRC -/

def wGridCrc : Nat := crc32c (List.replicate 266256 0)

def wGrid : List Host.Cell :=
  [(0x40008, 1), (0x4000C, byteOf wGridCrc 0), (0x4000D, byteOf wGridCrc 1), (0x4000E, byteOf wGridCrc 2),
   (0x4000F, byteOf wGridCrc 3)]

theorem sget_above (d : Byte) (m : List Host.Cell) (k : Nat) (h : ∀ e ∈ m, e.1 < k) : sget d m k = d := by
  induction m with
  | nil => rfl
  | cons e m ih =>
    obtain ⟨j, w⟩ := e
    have hj : j ≠ k := Nat.ne_of_lt (h (j, w) (by simp))
    simp only [sget, if_neg hj]
    exact ih fun e he => h e (by simp [he])

theorem wGrid_zeros (d : Dev) (h : d.creel = wGrid) : d.creelBytes (0x40000 + 16) 266256 = List.replicate 266256 0 := by
  unfold Dev.creelBytes loadBytes
  rw [h, List.eq_replicate_iff]
  refine ⟨by rw [List.length_map, List.length_range], fun b hb => ?_⟩
  obtain ⟨i, -, rfl⟩ := List.mem_map.1 hb
  refine sget_above _ _ _ ?_
  simp only [wGrid, List.mem_cons, List.not_mem_nil, or_false]
  rintro e (rfl | rfl | rfl | rfl | rfl) <;> simp <;> omega

theorem wGridCrc_lt : wGridCrc < 2 ^ 32 := by
  unfold wGridCrc
  exact crc32c_lt _

theorem wGrid_read (c : Nat) : (List.range 4).map (fun i => sget ramDefault [(0x40008, 1), (0x4000C, byteOf c 0),
    (0x4000D, byteOf c 1), (0x4000E, byteOf c 2), (0x4000F, byteOf c 3)] (0x40000 + 12 + i))
      = [byteOf c 0, byteOf c 1, byteOf c 2, byteOf c 3] := rfl

theorem wGrid_nat (c : Nat) (h : c < 2 ^ 32) : leNat [byteOf c 0, byteOf c 1, byteOf c 2, byteOf c 3] = c := by
  simp only [leNat, byteOf, BitVec.toNat_ofNat]
  omega

theorem wGrid_crc (d : Dev) (h : d.creel = wGrid) : d.creelNat (0x40000 + 12) 4 = wGridCrc := by
  have hl := wGridCrc_lt
  unfold Dev.creelNat Dev.creelBytes loadBytes
  rw [h]
  unfold wGrid
  generalize wGridCrc = c at hl ⊢
  rw [wGrid_read, wGrid_nat c hl]

theorem wGrid_pitch (d : Dev) (h : d.creel = wGrid) : d.creelNat (0x40000 + 8) 4 = 1 := by
  unfold Dev.creelNat Dev.creelBytes loadBytes
  rw [h]
  unfold wGrid
  generalize wGridCrc = c
  rfl

theorem wGrid_ok (d : Dev) (h : d.creel = wGrid) : d.gridOk 0x40000 = true := by
  unfold Dev.gridOk
  rw [wGrid_pitch d h, wGrid_crc d h, wGrid_zeros d h, ← wGridCrc, beq_self_eq_true]
  rfl

theorem trimBase_of (d : Dev) (n : Station) (b : Nat) (hr : d.reg (TRMS_GRID_BASE n) = b) (h0 : b ≠ 0)
    (hg : d.gridOk b = true) : d.trimBase n = some b := by
  unfold Dev.trimBase
  simp [hr, h0, hg]

/-! ### AES-GCM undoes itself -/

theorem shiftRows_length (s : List Nat) : (shiftRows s).length = 16 := by simp [shiftRows]

theorem aesEncrypt_length (key blk : List Byte) (h : ((aesKeys key).tail.getLastD []).length = 16) :
    (aesEncrypt key blk).length = 16 := by
  unfold aesEncrypt
  split
  · rename_i hk
    rw [hk] at h
    simp only [List.tail_cons] at h
    rw [List.length_map, List.length_zipWith, shiftRows_length, h]
    rfl
  · rename_i hk
    rw [hk] at h
    simp at h

theorem zipXor_twice (a e : List Byte) (h : a.length ≤ e.length) :
    List.zipWith (fun (x y : Byte) => x ^^^ y) (List.zipWith (fun (x y : Byte) => x ^^^ y) a e) e = a := by
  induction a generalizing e with
  | nil => simp
  | cons x a ih =>
    cases e with
    | nil => simp at h
    | cons y e =>
      simp only [List.zipWith_cons_cons, BitVec.xor_assoc, BitVec.xor_self, BitVec.xor_zero, List.cons.injEq, true_and]
      exact ih e (by simpa using h)

theorem gctr_nil (key iv : List Byte) (n c : Nat) : gctr key iv n c [] = [] := by
  induction n generalizing c with
  | zero => rfl
  | succ n ih => simp [gctr, ih]

theorem gctr_length (key iv : List Byte) (h : ∀ b, (aesEncrypt key b).length = 16) (n c : Nat) (bs : List Byte) :
    (gctr key iv n c bs).length = min (16 * n) bs.length := by
  induction n generalizing c bs with
  | zero => simp [gctr]
  | succ n ih => simp [gctr, h, ih]; omega

theorem gctr_twice (key iv : List Byte) (h : ∀ b, (aesEncrypt key b).length = 16) (n c : Nat) (bs : List Byte)
    (hn : bs.length ≤ 16 * n) : gctr key iv n c (gctr key iv n c bs) = bs := by
  induction n generalizing c bs with
  | zero => simp at hn; simp [gctr, hn]
  | succ n ih =>
    simp only [gctr]
    rcases Nat.lt_or_ge bs.length 16 with hs | hs
    · have hd : bs.drop 16 = [] := List.drop_eq_nil_of_le (by omega)
      have hl : (List.zipWith (fun (x y : Byte) => x ^^^ y) (bs.take 16) (aesEncrypt key (iv ++ beBytes 4 c))).length ≤ 16 := by
        simp [h]
      rw [hd, gctr_nil, List.append_nil, List.take_of_length_le hl, List.drop_eq_nil_of_le hl, gctr_nil, List.append_nil,
        zipXor_twice _ _ (by simp [h])]
      exact List.take_of_length_le (by omega)
    · have hl : (List.zipWith (fun (x y : Byte) => x ^^^ y) (bs.take 16) (aesEncrypt key (iv ++ beBytes 4 c))).length = 16 := by
        simp [h]; omega
      rw [List.take_left' hl, List.drop_left' hl, ih _ _ (by simp; omega), zipXor_twice _ _ (by simp [h])]
      exact List.take_append_drop 16 bs

theorem wKey_length (b : List Byte) : (aesEncrypt wKey b).length = 16 := aesEncrypt_length wKey b (by decide +kernel)

theorem wCipher_plain_length : (gcmPlain wKey wIv wBody).length = 560 := by
  have hb : wBody.length = 560 := by decide +kernel
  unfold gcmPlain
  rw [gctr_length _ _ wKey_length, hb]
  decide

theorem wCipher_take : wCipher.take 560 = gcmPlain wKey wIv wBody := List.take_left' wCipher_plain_length

theorem wCipher_drop : wCipher.drop 560 = gcmTag wKey wIv (wHeader 7 3 0 0) (gcmPlain wKey wIv wBody) :=
  List.drop_left' wCipher_plain_length

theorem wCipher_plain : gcmPlain wKey wIv (wCipher.take 560) = wBody := by
  have hb : wBody.length = 560 := by decide +kernel
  have hl := wCipher_plain_length
  rw [wCipher_take]
  unfold gcmPlain at hl ⊢
  rw [hl, hb]
  rw [gctr_twice _ _ wKey_length _ _ _ (by rw [hb]; decide)]

theorem wSlot_bodyLen (x : LayerSlot) (hh : x.header = wHeader 7 3 0 0) : x.bodyLen = 560 := by
  unfold LayerSlot.bodyLen
  rw [hh]
  decide +kernel

theorem wSlot_tag (x : LayerSlot) (hh : x.header = wHeader 7 3 0 0) (hc : x.cipher = wCipher) :
    gcmTag wKey ((x.header.drop 0x20).take 12) x.header (x.cipher.take x.bodyLen) = x.cipher.drop x.bodyLen := by
  rw [wSlot_bodyLen x hh, hc, wCipher_drop, wCipher_take, hh]
  rfl

theorem wSlot_plain (x : LayerSlot) (hh : x.header = wHeader 7 3 0 0) (hc : x.cipher = wCipher) :
    gcmPlain wKey ((x.header.drop 0x20).take 12) (x.cipher.take x.bodyLen) = wBody := by
  rw [wSlot_bodyLen x hh, hc, hh]
  exact wCipher_plain

theorem wSlot_lists (x : LayerSlot) (hh : x.header = wHeader 7 3 0 0) (hc : x.cipher = wCipher)
    (h : ∀ n, n < 17 → listOk x.zones x.targetCount n ((bodyLists x wBody).1.getD n []) = true) :
    ∀ n, n < 17 → listOk x.zones x.targetCount n
      ((bodyLists x (gcmPlain wKey ((x.header.drop 0x20).take 12) (x.cipher.take x.bodyLen))).1.getD n []) = true := by
  rw [wSlot_plain x hh hc]
  exact h
end Sys2Proof.Machine

open Sys2Proof Sys2Proof.Machine Sys2Proof.Machine.Reg

/-! ### Ill-formed commands are refused -/

theorem test_wf_flash_size : Instr.wf (.clocksLocked false 33554431) = false ∧ Instr.wf (.clocksLocked false 33554432) = true := by decide +kernel

theorem test_wf_osc_count : Instr.wf (.dramTrainStepDone true [1, 2, 3, 4, 5]) = false ∧ Instr.wf (.dramTrainStepDone true [1, 2, 3, 4]) = true := by decide +kernel

theorem test_wf_tick_lists : Instr.wf (.tickBoundary (List.replicate 49 (0, 0)) []) = false ∧ Instr.wf (.tickBoundary (List.replicate 48 (0, 0)) []) = true := by decide +kernel

theorem test_wf_tick_power : Instr.wf (.tickBoundary [] (List.replicate 17 0)) = false ∧ Instr.wf (.tickBoundary [] (List.replicate 16 0)) = true := by decide +kernel

theorem test_wf_mr4 : Instr.wf (.managementTick (List.replicate 5 (0, false))) = false ∧ Instr.wf (.managementTick (List.replicate 4 (0, false))) = true := by decide +kernel

theorem test_wf_slot_header : Instr.wf (.uplinkSlot 0 (List.replicate 6 0) (List.replicate 148 0) true true true) = false ∧ Instr.wf (.uplinkSlot 0 (List.replicate 7 0) (List.replicate 148 0) true true true) = true := by decide +kernel

theorem test_wf_slot_words : Instr.wf (.uplinkSlot 0 (List.replicate 7 0) (List.replicate 147 0) true true true) = false ∧ Instr.wf (.uplinkSlot 0 (List.replicate 7 0) (List.replicate 148 0) true true true) = true := by decide +kernel

theorem test_wf_marker_body : Instr.wf (.uplinkMarker 0 (List.replicate 8 0) true 0) = false ∧ Instr.wf (.uplinkMarker 0 (List.replicate 7 0) true 0) = true := by decide +kernel

theorem test_wf_marker_t4 : Instr.wf (.uplinkMarker 0 (List.replicate 7 0) true 65536) = false ∧ Instr.wf (.uplinkMarker 0 (List.replicate 7 0) true 65535) = true := by decide +kernel

theorem test_wf_scan_errors : Instr.wf (.scanStopCmd 0 5 6) = false ∧ Instr.wf (.scanStopCmd 0 6 6) = true := by decide +kernel

theorem test_wf_prbs_window : Instr.wf (.prbsLoss 0 1025) = false ∧ Instr.wf (.prbsLoss 0 1024) = true := by decide +kernel

theorem test_wf_mac : Instr.wf (.deviceFrame 0 (2 ^ 48) (List.replicate 46 0) true) = false ∧ Instr.wf (.deviceFrame 0 (2 ^ 48 - 1) (List.replicate 46 0) true) = true := by decide +kernel

theorem test_wf_frame_short : Instr.wf (.deviceFrame 0 0 (List.replicate 45 0) true) = false ∧ Instr.wf (.deviceFrame 0 0 (List.replicate 46 0) true) = true := by decide +kernel

theorem test_wf_enum_seq : Instr.wf (.enumRequest 0 4294967296) = false ∧ Instr.wf (.enumRequest 0 4294967295) = true := by decide +kernel

theorem test_wf_sync_seq : Instr.wf (.ptpSync 0 true true 65536 0 0 0) = false ∧ Instr.wf (.ptpSync 0 true true 65535 0 0 0) = true := by decide +kernel

theorem test_wf_transit_source : Instr.wf (.ptpTransit 0 .sync 0 (2 ^ 80) 0 0 0 0) = false ∧ Instr.wf (.ptpTransit 0 .sync 0 (2 ^ 80 - 1) 0 0 0 0) = true := by decide +kernel

theorem test_wf_transit_seq : Instr.wf (.ptpTransit 0 .sync 0 0 65536 0 0 0) = false ∧ Instr.wf (.ptpTransit 0 .sync 0 0 65535 0 0 0) = true := by decide +kernel

theorem test_wf_resp_seq : Instr.wf (.delayResp 0 65536 0 0 0) = false ∧ Instr.wf (.delayResp 0 65535 0 0 0) = true := by decide +kernel

theorem test_wf_dataset : Instr.wf (.announce 0 [1, 2, 3, 4, 5, 6]) = false ∧ Instr.wf (.announce 0 [1, 2, 3, 4, 5, 6, 7]) = true := by decide +kernel

theorem test_wf_tick_cycles : Instr.wf (.ppsInEdge 501) = false ∧ Instr.wf (.ppsInEdge 500) = true := by decide +kernel

theorem test_wf_tick_ns : Instr.wf (.trigNow 0 500) = false ∧ Instr.wf (.trigNow 0 499) = true := by decide +kernel

theorem test_wf_samples : Instr.wf (.lineComplete 0 [65536] 0) = false ∧ Instr.wf (.lineComplete 0 [65535] 0) = true := by decide +kernel

theorem test_wf_chain_status : Instr.wf (.chainFrameDone (List.replicate 31 0)) = false ∧ Instr.wf (.chainFrameDone (List.replicate 32 0)) = true := by decide +kernel

theorem test_wf_colour : Instr.wf (.colourReadingDone (some [0, 0, 0, 0, 0]) none) = false ∧ Instr.wf (.colourReadingDone (some [0, 0, 0, 0, 0, 0]) none) = true := by decide +kernel

theorem test_wf_dqs_count : Instr.wf (.dqsOscRun 0 0 65536) = false ∧ Instr.wf (.dqsOscRun 0 0 65535) = true := by decide +kernel

theorem test_wf_dram_addr : Instr.wf (.dramUe (2 ^ 36) .other none) = false ∧ Instr.wf (.dramUe (2 ^ 36 - 1) .other none) = true := by decide +kernel

theorem test_wf_thermal_lists : Instr.wf (.thermalRound (List.replicate 23 none) (List.replicate 6 0)) = false ∧ Instr.wf (.thermalRound (List.replicate 24 none) (List.replicate 6 0)) = true := by decide +kernel

theorem test_wf_thermal_rails : Instr.wf (.thermalRound (List.replicate 24 none) (List.replicate 5 0)) = false ∧ Instr.wf (.thermalRound (List.replicate 24 none) (List.replicate 6 0)) = true := by decide +kernel

theorem test_wf_dram_ce : Instr.wf (.dramCe (2 ^ 36) 0) = false ∧ Instr.wf (.dramCe (2 ^ 36 - 1) 0) = true := by decide +kernel

theorem test_wf_gpio : Instr.wf (.gpioEdge 0 0 0) = false ∧ Instr.wf (.gpioEdge 0 1 1) = true := by decide +kernel

theorem test_wf_gpio_high : Instr.wf (.gpioEdge 0 5 6) = false ∧ Instr.wf (.gpioEdge 0 5 5) = true := by decide +kernel

/-! ### Worked examples of the spec -/

/-- R71, the example of a 40 µm layer: three layers of a job. -/
theorem test_platform : platform 0 40000 171799 = (409, 10078656) ∧ platform 10078656 40000 171799 = (410, 3380096)
    ∧ platform 3380096 40000 171799 = (409, 13458752) := by decide

/-- The corner at 3 m/s (R142, R143): the ticks of its ramp, and its distance in nm. -/
theorem test_corner_ramp : rampTicks 802632 20000 1000000 = (40, 41)
    ∧ rampDist 20000 1000000 3000000 2197368 / 2 ^ 32 = 156819 := by decide +kernel

/-- R250: the check value over "123456789". -/
theorem test_crc32c : crc32c [0x31, 0x32, 0x33, 0x34, 0x35, 0x36, 0x37, 0x38, 0x39] = 0xE3069283 := by decide +kernel

/-- The settings and the two table entries of the example of one sample (R211 to R214), for station S3. -/
def wPyro : Dev := (wdev [(MPLS_CTRL 3, 0x1F), (MPLS_DARK 3, 900 * 65536 + 1200), (MPLS_GAIN 3, 0x1199A),
  (MPLS_RATIO_LO 3, 0xC0000), (MPLS_RATIO_SH 3, 10)]).setCreelBytes 698 (leBytes 2 8996 ++ leBytes 2 9008)

/-- R211 to R213, the example of one sample: the temperature, its quality and the ratio. -/
theorem test_pyrometer : (pyroValue 3 (some ⟨23700, 19650, false, 0, 0⟩) wPyro).1 = 8997
    ∧ (pyroValue 3 (some ⟨23700, 19650, false, 0, 0⟩) wPyro).2.1 = 0
    ∧ (pyroValue 3 (some ⟨23700, 19650, false, 0, 0⟩) wPyro).2.2.reg (MPLS_RATIO 3) = 1143901 := by decide +kernel

/-- R542, the example of a gain measurement: G halfway through its slew, and at its end. -/
theorem test_gain_slew : ((⟨[70000], [72090], 249, 500⟩ : TrimSlew).next.1, (⟨[70000], [72090], 499, 500⟩ : TrimSlew).next)
    = ([71045], ([72090], none)) := by decide +kernel

/-- R468, the example of a loopback check: bits that the descrambler shows for one altered block. -/
theorem test_injected : injectedErrors true 1 1 1 = 3 ∧ injectedErrors true 2 10 1 = 30 ∧ injectedErrors true 2 25 1 = 63 := by
  decide +kernel

/-- R555 and R556, the example of a failing sensor: TS9 at 85.00 °C fails the check, and 101.80 °C stands for it. -/
theorem test_failing_sensor :
    let r (k : Nat) : Int := if k = 9 then 5440 else if k = 3 then 6176 else if k = 8 then 6195 else if k = 10 then 6157 else 6138
    checkFails 0 r 9 = true ∧ substitute 0 r 9 = some 6515 := by decide +kernel

/-- The example of a lane fault as a record (R590): its first four words and the word of its code. -/
theorem test_fault_record :
    let r : LogRec := ⟨1, 0x0044DA51, 0xD3, 0, 0, 0, 0, 0, [0x58400007, 0], false⟩
    r.len = 44 ∧ ((bytesWords (r.bytes 80431)).take 4) = [0x002C0101, 0x00013A2F, 0x0044DA51, 0x000000D3] ∧ r.room = 64 := by
  decide +kernel

/-- R566: the report word of LINK_ALIGN of S7, at severity RETRY. -/
theorem test_report_word : (fault 0x58 sevRetry 7 wbase).reg EVT_FLT_LAST = 0x58400007 := by decide +kernel

/-- R294: the offset to the nearest expected count, ties to the larger. -/
theorem test_index_offset : indexOffset 1003 0 1000 = -3 ∧ indexOffset (-3) 0 1000 = 3 ∧ indexOffset 500 0 1000 = 500 := by decide

/-! ### Steps -/

theorem test_meets_fuses_only_move_forward_1 : ∃ (o : Otp) (s t : State), Machine.step s = .next t ∧ o.within s.otp :=
  ⟨Otp.blank, { wst { wbase with start := { wbase.start with fuseJob := some (3, [5]) } } with pending := [.fuseDone true] }, _, rfl,
   by unfold Otp.within; decide⟩

theorem test_meets_fuses_only_move_forward_2 : ∃ (s t : State), Machine.step s = .next t ∧
    s.pending.head? ≠ some .lcProgrammed ∧ s.pending.head? ≠ some .porstNLow ∧
    (∀ b : Bool, s.pending.head? ≠ some (.fuseDone b)) ∧ (∀ r : Rail, s.pending.head? ≠ some (.supplyLoss r)) :=
  ⟨{ wst wbase with pending := [.periodBoundary] }, _, rfl, nofun, nofun, nofun, nofun⟩

theorem test_meets_held_in_reset : ∃ (c : Instr) (s : State), s.dev.start.porstLow = true ∧ c ≠ .porstRelease ∧
    c ≠ .porstNLow ∧ ∀ r : Rail, c ≠ .supplyLoss r :=
  ⟨.periodBoundary, State.reset, rfl, nofun, nofun, nofun⟩

theorem test_meets_step_runs_front_2 : ∃ s : State, s.pending = [] := ⟨State.reset, rfl⟩

/-- The first step from reset: PORST_N is released and stage FUSES shows the life-cycle state (R510, R512). -/
theorem test_first_step : (after .porstRelease State.reset).dev.get DEV_STATE_STATE = 1
    ∧ (after .porstRelease State.reset).dev.start.porstLow = false := by decide +kernel

/-! ### The hypotheses of the statements are met -/

theorem test_meets_axis_commands_1 : ∃ (m : Axis) (s : State),
    s.dev.calm ∧ s.dev.runs domMch = true ∧ s.dev.axRunning m = true ∧ s.dev.axOwned m = false :=
  ⟨2,
   wst (wput [(AXS_STATUS_MOVING 2, 1)]),
   calm_of_regs rfl (by decide +kernel), by decide +kernel⟩

theorem test_meets_axis_commands_2 : ∃ (m : Axis) (w : Word) (s : State),
    s.dev.calm ∧ s.dev.runs domMch = true ∧ s.dev.axRunning m = false ∧ s.dev.axOwned m = false ∧
    s.dev.on (AXS_CTRL_EN m) = true ∧ s.dev.on (AXS_CTRL_SOFT_EN m) = false ∧ sx 32 w.toNat ≠ s.dev.axPos m ∧
    s.dev.axBlocked m (decide (s.dev.axPos m < sx 32 w.toNat)) false = false :=
  ⟨2,
   0xFFFFFE00,
   wst (wput [(AXS_CTRL_EN 2, 1)]),
   calm_of_regs rfl (by decide +kernel), by decide +kernel⟩

theorem test_meets_axis_commands_3 : ∃ (m : Axis) (s : State),
    s.dev.calm ∧ s.dev.runs domMch = true ∧ s.dev.on (AXS_STATUS_MOVE_PENDING m) = true :=
  ⟨2,
   wst (wput [(AXS_STATUS_MOVE_PENDING 2, 1)]),
   calm_of_regs rfl (by decide +kernel), by decide +kernel⟩

theorem test_meets_axis_commands_4 : ∃ (m : Axis) (s : State),
    s.dev.calm ∧ s.dev.runs domMch = true ∧ s.dev.axRunning m = true ∧ s.dev.axHoming m = false ∧
    s.dev.on (AXS_STATUS_MOVE_PENDING m) = false :=
  ⟨2,
   wst (wput [(AXS_STATUS_MOVING 2, 1)]),
   calm_of_regs rfl (by decide +kernel), by decide +kernel⟩

theorem test_meets_axis_commands_5 : ∃ (m : Axis) (s : State),
    s.dev.calm ∧ s.dev.runs domMch = true ∧ s.dev.axRunning m = false ∧ s.dev.on (AXS_CTRL_EN m) = true ∧
    s.dev.axOwned m = false ∧ bit (s.dev.reg (AXS_INPUTS m)) (s.dev.axHomeInput m) = false ∧
    s.dev.axBlocked m (s.dev.on (AXS_HOME_CFG_DIR m)) true = false :=
  ⟨2,
   wst (wput [(AXS_CTRL_EN 2, 1)]),
   calm_of_regs rfl (by decide +kernel), by decide +kernel⟩

theorem test_meets_axis_commands_6 : ∃ (m : Axis) (s : State),
    s.dev.calm ∧ s.dev.runs domMch = true ∧ s.dev.axRunning m = false ∧ s.dev.on (AXS_CTRL_EN m) = false :=
  ⟨2,
   wst wbase,
   calm_of_regs rfl (by decide +kernel), by decide +kernel⟩

theorem test_meets_axis_commands_7 : ∃ (m : Axis) (s : State),
    s.dev.calm ∧ s.dev.runs domMch = true ∧ s.dev.on (AXS_CTRL_EN m) = true :=
  ⟨2,
   wst (wput [(AXS_CTRL_EN 2, 1)]),
   calm_of_regs rfl (by decide +kernel), by decide +kernel⟩

theorem test_meets_axis_commands_8 : ∃ (m : Axis) (s : State),
    s.dev.calm ∧ s.dev.runs domMch = true ∧ s.dev.axRunning m = true :=
  ⟨2,
   wst { wput [(AXS_STATUS_MOVING 2, 1)] with axes := vmod wbase.axes (2 : Axis) fun (x : AxisState) => { x with v := 65536000, goal := 100000 } },
   calm_of_regs rfl (by decide +kernel), by decide +kernel⟩

theorem test_meets_axis_commands_9 : ∃ (m : Axis) (s : State) (pos : Int),
    s.dev.calm ∧ s.dev.runs domMch = true ∧ s.dev.axRunning m = true ∧ (vat s.dev.axes m).enReady = true ∧
    0 < (vat s.dev.axes m).held ∧
    pos = s.dev.axPos m + s.dev.axSign m * (stepMult (s.dev.get (AXS_STATUS_MS_LEVEL m)) : Int) ∧
    pos ≠ (vat s.dev.axes m).goal ∧ s.dev.on (AXS_STATUS_STOPPING m) = false ∧ (vat s.dev.axes m).decel = false ∧
    pos % 256 ≠ 0 :=
  ⟨2,
   wst { wput [(AXS_STATUS_MOVING 2, 1)] with axes := vmod wbase.axes (2 : Axis) fun (x : AxisState) => { x with enReady := true, held := 2, goal := 100000 } },
   1,
   calm_of_regs rfl (by decide +kernel), by decide +kernel⟩

theorem test_meets_axis_commands_10 : ∃ (m : Axis) (i : Fin 3) (s : State),
    s.dev.calm ∧ s.dev.runs domMch = true ∧ vat (vat s.dev.axes m).edge i = none ∧
    s.dev.get (AXS_LIM_CFG_FILT m) ≠ 0 :=
  ⟨2,
   1,
   wst (wput [(AXS_LIM_CFG_FILT 2, 5)]),
   calm_of_regs rfl (by decide +kernel), by decide +kernel⟩

theorem test_meets_axis_commands_11 : ∃ (m : Axis) (i : Fin 3) (s : State) (old : Nat),
    s.dev.calm ∧ s.dev.runs domMch = true ∧ vat (vat s.dev.axes m).edge i = some old ∧
    s.dev.reg (AXS_CHAT_THR m) = 0 :=
  ⟨2,
   1,
   wst { wdev [(AXS_CHAT_THR 2, 0)] with axes := vmod wbase.axes (2 : Axis) fun (x : AxisState) => { x with edge := vput x.edge 1 (some 7) } },
   7,
   calm_of_regs rfl (by decide +kernel), by decide +kernel⟩

theorem test_meets_axis_commands_12 : ∃ (m : Axis) (i : Fin 3) (s : State) (old : Nat),
    s.dev.calm ∧ s.dev.runs domMch = true ∧ vat (vat s.dev.axes m).edge i = some old ∧
    bit (s.dev.get (AXS_LIM_CFG_LIM_EN m)) i.val = false :=
  ⟨2,
   1,
   wst { wdev [(AXS_LIM_CFG 2, 0)] with axes := vmod wbase.axes (2 : Axis) fun (x : AxisState) => { x with edge := vput x.edge 1 (some 7) } },
   7,
   calm_of_regs rfl (by decide +kernel), by decide +kernel⟩

theorem test_meets_lamp_chain_commands_1 : ∃ (levels : List Nat) (s : State),
    s.dev.calm ∧ s.dev.runs domMch = true ∧ s.dev.shadow = [] ∧ s.dev.on LMP_CTRL_CHAIN_EN = true ∧
    s.dev.lmp.tx = none ∧ s.dev.lmp.txQ = [] ∧ s.dev.lmp.windows = [] ∧
    (levels = (List.finRange 32).map fun k => if k.val < s.dev.ldCount then s.dev.ldSteady k else 0) :=
  ⟨List.replicate 32 0,
   wst (wput [(LMP_CTRL_CHAIN_EN, 1)]),
   calm_of_regs rfl (by decide +kernel), by decide +kernel⟩

theorem test_meets_lamp_chain_commands_2 : ∃ (s : State),
    s.dev.calm ∧ s.dev.runs domMch = true ∧ s.dev.shadow = [] ∧ s.dev.on LMP_CTRL_CHAIN_EN = true ∧
    s.dev.lmp.tx = none ∧ s.dev.lmp.txQ = [] ∧ s.dev.lmp.windows = [] :=
  ⟨wst (wput [(LMP_CTRL_CHAIN_EN, 1)]),
   calm_of_regs rfl (by decide +kernel), by decide +kernel⟩

theorem test_meets_lamp_chain_commands_3 : ∃ (levels : List Nat) (s : State),
    s.dev.calm ∧ s.dev.runs domMch = true ∧ s.dev.shadow = [] ∧ s.dev.lmp.tx = some (0, levels) :=
  ⟨[],
   wst { wput [(LMP_CTRL_CHAIN_EN, 1), (LMP_CHAIN_CFG_COUNT, 3)] with lmp := { wbase.lmp with tx := some (0, []) } },
   calm_of_regs rfl (by decide +kernel), by decide +kernel⟩

theorem test_meets_lamp_chain_commands_3b : ∃ (levels : List Nat) (s : State),
    s.dev.calm ∧ s.dev.runs domMch = true ∧ s.dev.shadow = [] ∧ s.dev.lmp.tx = some (0, levels) :=
  ⟨[],
   wst { wput [(LMP_CTRL_CHAIN_EN, 1), (LMP_CHAIN_CFG_COUNT, 3)] with lmp := { wbase.lmp with tx := some (0, []) } },
   calm_of_regs rfl (by decide +kernel), by decide +kernel⟩

theorem test_meets_flashes_and_matrix_rows_1 : ∃ (c : Camera) (w : Window) (s : State),
    s.dev.calm ∧ s.dev.runs domMch = true ∧
    ((s.dev.lmp.windows.find? fun x => x.cam == c.val && !x.opened) = some w) ∧ s.dev.flashes w = true ∧
    s.dev.on LMP_CTRL_CHAIN_EN = true ∧ s.dev.lmp.tx = none :=
  ⟨1,
   ⟨1, 100, 200, true, false⟩,
   wst { wput [(LMP_CTRL_CHAIN_EN, 1)] with lmp := { wbase.lmp with windows := [⟨1, 100, 200, true, false⟩], measuring := some false } },
   calm_of_regs rfl (by decide +kernel), by decide +kernel⟩

theorem test_meets_flashes_and_matrix_rows_2 : ∃ (c : Camera) (w : Window) (s : State),
    s.dev.calm ∧ s.dev.runs domMch = true ∧
    ((s.dev.lmp.windows.find? fun x => x.cam == c.val && x.opened) = some w) ∧ s.dev.lmp.flashing = true ∧
    s.dev.on LMP_CTRL_CHAIN_EN = true ∧ s.dev.lmp.hitFlash = false ∧
    (∀ x ∈ s.dev.lmp.windows.erase w, x.opened = false) ∧ s.dev.lmp.txQ = [] :=
  ⟨1,
   ⟨1, 100, 200, true, true⟩,
   wst { wput [(LMP_CTRL_CHAIN_EN, 1)] with lmp := { wbase.lmp with windows := [⟨1, 100, 200, true, true⟩], flashing := true, measuring := some false } },
   calm_of_regs rfl (by decide +kernel), by decide +kernel⟩

theorem test_meets_flashes_and_matrix_rows_3 : ∃ (s : State),
    s.dev.calm ∧ s.dev.runs domMch = true ∧ s.dev.on LMP_CTRL_MTX_EN = true ∧ s.dev.lmp.windows = [] ∧
    s.dev.lmp.phase = .off ∧ s.dev.shadow = [] :=
  ⟨wst { wput [(LMP_CTRL_MTX_EN, 1)] with lmp := { wbase.lmp with phase := .off } },
   calm_of_regs rfl (by decide +kernel), by decide +kernel⟩

theorem test_meets_flashes_and_matrix_rows_4 : ∃ (s : State),
    s.dev.calm ∧ s.dev.runs domMch = true ∧ s.dev.on LMP_CTRL_MTX_EN = true ∧ s.dev.lmp.windows = [] ∧
    s.dev.lmp.phase = .blankAfter ∧ s.dev.lmp.row < 7 :=
  ⟨wst { wput [(LMP_CTRL_MTX_EN, 1)] with lmp := { wbase.lmp with phase := .blankAfter, row := 4 } },
   calm_of_regs rfl (by decide +kernel), by decide +kernel⟩

theorem test_meets_flashes_and_matrix_rows_5 : ∃ (s : State),
    s.dev.calm ∧ s.dev.runs domMch = true ∧ s.dev.on LMP_CTRL_MTX_EN = true ∧ s.dev.lmp.windows = [] ∧
    s.dev.lmp.phase = .on ∧ s.dev.lmp.row < 8 :=
  ⟨wst { Dev.puts (wdev [(LMP_MTX_DUTY 3 0, 0xFFFF), (LMP_MTX_DUTY 3 1, 0xFF)]) [(LMP_CTRL_MTX_EN, 1)] with lmp := { wbase.lmp with phase := .on, row := 3 } },
   calm_of_regs rfl (by decide +kernel), by decide +kernel⟩

theorem test_meets_lamp_colour_reading_1 : ∃ (s : State),
    s.dev.calm ∧ s.dev.runs domMch = true ∧ s.dev.shadow = [] ∧ s.dev.on LMP_CTRL_COLOUR_EN = true :=
  ⟨wst { wput [(LMP_CTRL_COLOUR_EN, 1)] with lmp := { wbase.lmp with flashing := true } },
   calm_of_regs rfl (by decide +kernel), by decide +kernel⟩

theorem test_meets_lamp_colour_reading_2 : ∃ (bs : List Byte) (s : State),
    s.dev.calm ∧ s.dev.runs domMch = true ∧ s.dev.shadow = [] ∧ s.dev.lmp.measuring = some false ∧ bs.length = 6 :=
  ⟨[1, 2, 3, 4, 5, 6],
   wst { wput [(LMP_CTRL_COLOUR_EN, 1)] with lmp := { wbase.lmp with measuring := some false } },
   calm_of_regs rfl (by decide +kernel), by decide +kernel⟩

theorem test_meets_tapestry_commits_1 : ∃ (s : State),
    s.dev.calm ∧ s.dev.runs domFab = true :=
  ⟨wst wbase,
   calm_of_regs rfl (by decide +kernel), by decide +kernel⟩

theorem test_meets_tapestry_commits_2 : ∃ (w : Word) (s : State),
    s.dev.calm ∧ s.dev.runs domFab = true ∧ s.dev.on TAP_CTRL_ENABLE = false ∧ bits w.toNat 2 1 = 1 ∧
    s.dev.shadow = [] :=
  ⟨2,
   wst wbase,
   calm_of_regs rfl (by decide +kernel), by decide +kernel⟩

theorem test_meets_tapestry_commits_3 : ∃ (w : Word) (s : State),
    s.dev.calm ∧ s.dev.runs domFab = true ∧ s.dev.on TAP_CTRL_ENABLE = false ∧ bits w.toNat 2 1 = 0 ∧
    s.dev.on TAP_VID_CTRL_VID_EN = false :=
  ⟨0xFFF8,
   wst wbase,
   calm_of_regs rfl (by decide +kernel), by decide +kernel⟩

theorem test_meets_tapestry_commits_4 : ∃ (s : State),
    s.dev.calm ∧ s.dev.runs domFab = true ∧ s.dev.on TAP_VID_CTRL_VID_EN = false :=
  ⟨wst wbase,
   calm_of_regs rfl (by decide +kernel), by decide +kernel⟩

theorem test_meets_tapestry_commits_5 : ∃ (w : Word) (s : State),
    s.dev.calm ∧ s.dev.runs domFab = true ∧ s.dev.on TAP_VID_CTRL_VID_EN = true ∧ bit w.toNat 0 = false :=
  ⟨0xFFFE,
   wst (wput [(TAP_VID_CTRL_VID_EN, 1)]),
   calm_of_regs rfl (by decide +kernel), by decide +kernel⟩

theorem test_meets_tapestry_frames_1 : ∃ (k : Nat) (s : State),
    s.dev.calm ∧ s.dev.runs 4 = true ∧ s.dev.shadow = [] ∧ s.dev.on TAP_CTRL_ENABLE = true ∧
    s.dev.get TAP_CTRL_OUT_SEL = 1 ∧ s.dev.tap.frame = none ∧ s.dev.memSlot = some k ∧
    (∀ p : Plane, s.dev.on (TAPP_CTRL_EN p) = false) :=
  ⟨0,
   wst (wput [(TAP_CTRL_ENABLE, 1), (TAP_CTRL_OUT_SEL, 1)]),
   calm_of_regs rfl (by decide +kernel), by decide +kernel⟩

theorem test_meets_tapestry_frames_2 : ∃ (s : State),
    s.dev.calm ∧ s.dev.runs 4 = true ∧ s.dev.shadow = [] :=
  ⟨wst wbase,
   calm_of_regs rfl (by decide +kernel), by decide +kernel⟩

theorem test_meets_tapestry_frames_3 : ∃ (k : Nat) (n : Nat) (f : TapFrame) (s : State),
    s.dev.calm ∧ s.dev.runs 4 = true ∧ s.dev.shadow = [] ∧ s.dev.tap.frame = some f ∧
    n = s.dev.reg TAP_FRAME % 65536 * (s.dev.reg TAP_FRAME / 65536) * 4 ∧ s.dev.on TAP_MEM_CFG_EXPORT = false ∧
    s.dev.on TAP_MEM_CFG_FORMAT = false ∧
    k = s.dev.reg TAP_MEM_BASE % 65536 * 1048576 + f.slot * (divUp (32 + n) 4096 * 4096) ∧
    s.dev.inDram k (32 + n) = true :=
  ⟨0,
   24,
   ⟨7,1,2,9,4,8,0,[],[]⟩,
   wst { wdev [(TAP_FRAME, 0x20003), (TAP_MEM_BASE, 0)] with tap := { wbase.tap with frame := some ⟨7,1,2,9,4,8,0,[],[]⟩ } },
   calm_of_regs rfl (by decide +kernel), by decide +kernel⟩

theorem test_meets_bobbins_and_scrub_1 : ∃ (b : Bobbin) (s : State),
    s.dev.calm ∧ s.dev.runs domFab = true ∧ 70 ≤ b.val ∧ s.dev.bobEn b.val = false ∧ s.dev.bobLegal b.val = true :=
  ⟨77,
   wst (wdev [(CRLB_BASE 77, 0x1000), (CRLB_SIZE 77, 16), (CRLB_WR 77, 3)]),
   calm_of_regs rfl (by decide +kernel), by decide +kernel⟩

theorem test_meets_bobbins_and_scrub_2 : ∃ (b : Bobbin) (s : State),
    s.dev.calm ∧ s.dev.runs domFab = true ∧ 70 ≤ b.val ∧ s.dev.bobEn b.val = false ∧ s.dev.bobLegal b.val = false :=
  ⟨77,
   wst (wdev [(CRLB_SIZE 77, 1)]),
   calm_of_regs rfl (by decide +kernel), by decide +kernel⟩

theorem test_meets_bobbins_and_scrub_3 : ∃ (b : Bobbin) (s : State),
    s.dev.calm ∧ s.dev.runs domFab = true ∧ 70 ≤ b.val ∧ s.dev.bobEn b.val = false :=
  ⟨77,
   wst (wdev [(CRLB_WR 77, 3)]),
   calm_of_regs rfl (by decide +kernel), by decide +kernel⟩

theorem test_meets_bobbins_and_scrub_4 : ∃ (s : State),
    s.dev.calm ∧ s.dev.runs domFab = true ∧ s.dev.on CRL_CTRL_SCRUB_EN = true ∧
    s.dev.reg CRL_STATUS % 16384 < 16383 :=
  ⟨wst (wput [(CRL_CTRL_SCRUB_EN, 1)]),
   calm_of_regs rfl (by decide +kernel), by decide +kernel⟩

theorem test_meets_bobbins_and_scrub_5 : ∃ (s : State),
    s.dev.calm ∧ s.dev.runs domFab = true ∧ s.dev.on CRL_CTRL_SCRUB_EN = true ∧
    s.dev.reg CRL_STATUS % 16384 < 16383 :=
  ⟨wst (wput [(CRL_CTRL_SCRUB_EN, 1)]),
   calm_of_regs rfl (by decide +kernel), by decide +kernel⟩

theorem test_meets_bobbins_and_scrub_6 : ∃ (s : State),
    s.dev.calm ∧ s.dev.runs domFab = true ∧ s.dev.on CRL_CTRL_SCRUB_EN = true ∧
    s.dev.reg CRL_STATUS % 16384 < 16383 :=
  ⟨wst (wput [(CRL_CTRL_SCRUB_EN, 1)]),
   calm_of_regs rfl (by decide +kernel), by decide +kernel⟩

theorem test_meets_bobbins_and_scrub_7 : ∃ (s : State),
    s.dev.calm ∧ s.dev.runs domFab = true ∧ s.dev.on CRL_CTRL_SCRUB_EN = true ∧
    s.dev.reg CRL_STATUS % 16384 < 16383 :=
  ⟨wst (wput [(CRL_CTRL_SCRUB_EN, 1)]),
   calm_of_regs rfl (by decide +kernel), by decide +kernel⟩

theorem test_meets_secure_partition_1 : ∃ (k : KeySlot) (s : State),
    s.dev.calm ∧ s.dev.runs domAon = true ∧ s.dev.runs domFab = true ∧ s.dev.on SEC_STATUS_READY = true ∧
    s.dev.keyInUse k = false :=
  ⟨5,
   wst { wput [(SEC_STATUS_READY, 1)] with sec := { wbase.sec with keys := Vector.replicate 16 (some [1]) } },
   calm_of_regs rfl (by decide +kernel), by decide +kernel⟩

theorem test_meets_secure_partition_2 : ∃ (k : KeySlot) (s : State),
    s.dev.calm ∧ s.dev.runs domAon = true ∧ s.dev.runs domFab = true ∧ s.dev.on SEC_STATUS_READY = true ∧
    s.dev.keyInUse k = false ∧ s.dev.start.fuses.kek = none :=
  ⟨5,
   wst (wput [(SEC_STATUS_READY, 1)]),
   calm_of_regs rfl (by decide +kernel), by decide +kernel⟩

theorem test_meets_secure_partition_3 : ∃ (k : KeySlot) (kek : List Byte) (s : State),
    s.dev.calm ∧ s.dev.runs domAon = true ∧ s.dev.runs domFab = true ∧ s.dev.on SEC_STATUS_READY = true ∧
    s.dev.keyInUse k = false ∧ s.dev.start.fuses.kek = some kek ∧ s.dev.get DEV_LC_IN_FORCE ≠ 3 :=
  ⟨5,
   List.replicate 32 7,
   wst { wput [(SEC_STATUS_READY, 1)] with start := { wbase.start with fuses := { wbase.start.fuses with kek := some (List.replicate 32 7) } } },
   calm_of_regs rfl (by decide +kernel), by decide +kernel⟩

theorem test_meets_secure_partition_4 : ∃ (key : Word) (s : State),
    s.dev.calm ∧ s.dev.runs domAon = true ∧ s.dev.runs domFab = true ∧ key.toNat % 65536 = 0x5EC0 :=
  ⟨0x12345EC0,
   wst { wput [(SEC_STATUS_READY, 1), (DEV_STATE_AUTH_OK, 1)] with sec := { wbase.sec with keys := Vector.replicate 16 (some [1]) } },
   calm_of_regs rfl (by decide +kernel), by decide +kernel⟩

theorem test_meets_secure_partition_5 : ∃ (s : State),
    s.dev.calm ∧ s.dev.runs domAon = true ∧ s.dev.runs domFab = true :=
  ⟨wst { wput [(SEC_STATUS_READY, 1), (DEV_STATE_AUTH_OK, 1)] with sec := { wbase.sec with keys := Vector.replicate 16 (some [1]) } },
   calm_of_regs rfl (by decide +kernel), by decide +kernel⟩

theorem test_meets_secure_partition_6 : ∃ (s : State),
    s.dev.calm ∧ s.dev.runs domAon = true ∧ s.dev.runs domFab = true :=
  ⟨wst { wput [(SEC_STATUS_READY, 1), (DEV_STATE_AUTH_OK, 1)] with sec := { wbase.sec with keys := Vector.replicate 16 (some [1]) } },
   calm_of_regs rfl (by decide +kernel), by decide +kernel⟩

theorem test_meets_secure_partition_7 : ∃ (s : State),
    s.dev.calm ∧ s.dev.runs domAon = true ∧ s.dev.runs domFab = true ∧ s.dev.on SEC_STATUS_WIPING = true ∧
    s.dev.get DEV_LC_IN_FORCE ≠ 2 ∧ s.dev.get DEV_UPD_STAT_STATE ≠ 3 ∧ s.dev.get TRD_STATE_STATE ≠ 6 :=
  ⟨wst (wput [(SEC_STATUS_WIPING, 1)]),
   calm_of_regs rfl (by decide +kernel), by decide +kernel⟩

theorem test_meets_encoder_edges_1 : ∃ (c : PinChannel) (a : Bool) (b : Bool) (z : Bool) (lv : Nat) (k : Nat) (dir : Int) (s : State),
    s.dev.calm ∧ s.dev.runs domMch = true ∧ s.dev.on (FBK_EN_EN c) = true ∧ s.dev.pinMode c = 0 ∧
    lv = b2n a + 2 * b2n b + 4 * b2n z ∧ k = (quadPlace lv + 4 - quadPlace (s.dev.pin c).levels) % 4 ∧
    (k = 1 ∨ k = 3) ∧ (dir = (if s.dev.on (FBK_CTRL_INVERT c) then -1 else 1) * (if k = 1 then 1 else -1)) ∧
    s.dev.on (FBK_CMP_CTRL_ARMED c) = false ∧ (s.dev.pin c).due = false :=
  ⟨3,
   true,
   false,
   false,
   1,
   1,
   1,
   wst (wput [(FBK_CMP_CTRL_ARMED 3, 0), (FBK_EN_EN 3, 1)]),
   calm_of_regs rfl (by decide +kernel), by decide +kernel⟩

theorem test_meets_encoder_edges_1b : ∃ (c : PinChannel) (a : Bool) (b : Bool) (z : Bool) (lv : Nat) (k : Nat) (dir : Int) (s : State),
    s.dev.calm ∧ s.dev.runs domMch = true ∧ s.dev.on (FBK_EN_EN c) = true ∧ s.dev.pinMode c = 0 ∧
    lv = b2n a + 2 * b2n b + 4 * b2n z ∧ k = (quadPlace lv + 4 - quadPlace (s.dev.pin c).levels) % 4 ∧
    (k = 1 ∨ k = 3) ∧ (dir = (if s.dev.on (FBK_CTRL_INVERT c) then -1 else 1) * (if k = 1 then 1 else -1)) ∧
    s.dev.on (FBK_CMP_CTRL_ARMED c) = false ∧ (s.dev.pin c).due = false :=
  ⟨3,
   false,
   true,
   false,
   2,
   3,
   -1,
   wst (wput [(FBK_CMP_CTRL_ARMED 3, 0), (FBK_EN_EN 3, 1)]),
   calm_of_regs rfl (by decide +kernel), by decide +kernel⟩

theorem test_meets_encoder_edges_2 : ∃ (c : PinChannel) (a : Bool) (b : Bool) (z : Bool) (lv : Nat) (k : Nat) (s : State),
    s.dev.calm ∧ s.dev.runs domMch = true ∧ s.dev.on (FBK_EN_EN c) = true ∧ s.dev.pinMode c = 0 ∧
    lv = b2n a + 2 * b2n b + 4 * b2n z ∧ k = (quadPlace lv + 4 - quadPlace (s.dev.pin c).levels) % 4 ∧ k = 2 :=
  ⟨3,
   true,
   true,
   false,
   3,
   2,
   wst (wput [(FBK_CMP_CTRL_ARMED 3, 0), (FBK_EN_EN 3, 1)]),
   calm_of_regs rfl (by decide +kernel), by decide +kernel⟩

theorem test_meets_encoder_edges_3 : ∃ (c : PinChannel) (a : Bool) (b : Bool) (z : Bool) (lv : Nat) (k : Nat) (s : State),
    s.dev.calm ∧ s.dev.runs domMch = true ∧ s.dev.on (FBK_EN_EN c) = true ∧ s.dev.pinMode c = 0 ∧
    lv = b2n a + 2 * b2n b + 4 * b2n z ∧ k = (quadPlace lv + 4 - quadPlace (s.dev.pin c).levels) % 4 ∧ k = 1 ∧
    s.dev.on (FBK_CTRL_INVERT c) = false ∧ s.dev.on (FBK_CMP_CTRL_ARMED c) = true ∧
    s.dev.on (FBK_CMP_CTRL_DIR c) = false ∧ (s.dev.pin c).due = false ∧ s.dev.get (FBK_CMP_CTRL_ROUTE c) = 0 ∧
    0 < s.dev.reg (FBK_CMP_SPACING c) ∧ s.dev.reg (FBK_CMP_COUNT c) = 0 ∧
    s.dev.reg (FBK_CMP_VAL c) = wrapN 32 (s.dev.pinCount c + 1) :=
  ⟨3,
   true,
   false,
   false,
   1,
   1,
   wst ((wdev [(FBK_CMP_SPACING 3, 100), (FBK_CMP_VAL 3, 1), (FBK_CMP_COUNT 3, 0)]).puts [(FBK_EN_EN 3, 1),
     (FBK_CMP_CTRL_ARMED 3, 1), (FBK_CMP_CTRL_ROUTE 3, 0)]),
   calm_of_regs rfl (by decide +kernel), by decide +kernel⟩

theorem test_meets_index_and_count_writes_1 : ∃ (c : PinChannel) (s : State),
    s.dev.calm ∧ s.dev.runs domMch = true ∧ s.dev.on (FBK_EN_EN c) = true ∧ s.dev.pinMode c = 0 ∧
    s.dev.on (FBK_CTRL_IDX_QUAL c) = false ∧ s.dev.on (FBK_CTRL_IDX_EN c) = false ∧
    (∀ m : Axis, s.dev.axHoming m = false) :=
  ⟨3,
   wst (wput [(FBK_CMP_CTRL_ARMED 3, 0), (FBK_EN_EN 3, 1)]),
   calm_of_regs rfl (by decide +kernel), by decide +kernel⟩

theorem test_meets_index_and_count_writes_2 : ∃ (c : PinChannel) (off : Int) (s : State),
    s.dev.calm ∧ s.dev.runs domMch = true ∧ s.dev.on (FBK_EN_EN c) = true ∧ s.dev.pinMode c = 0 ∧
    s.dev.on (FBK_CTRL_IDX_QUAL c) = false ∧ s.dev.on (FBK_CTRL_IDX_EN c) = true ∧
    (∀ m : Axis, s.dev.axHoming m = false) ∧
    off = indexOffset (s.dev.pinCount c) (s.dev.regS (FBK_IDX_POS c)) (s.dev.reg (FBK_IDX_PERIOD c)) ∧
    s.dev.reg (FBK_IDX_PERIOD c) ≠ 0 ∧ off ≠ 0 ∧ off.natAbs ≤ s.dev.reg (FBK_IDX_TOL c) % 65536 ∧
    s.dev.on (FBK_CMP_CTRL_ARMED c) = false :=
  ⟨3,
   -2,
   wst ((wdev [(FBK_COUNT 3, 2002), (FBK_IDX_PERIOD 3, 1000), (FBK_IDX_TOL 3, 5)]).puts [(FBK_EN_EN 3, 1),
     (FBK_CTRL_IDX_EN 3, 1), (FBK_CMP_CTRL_ARMED 3, 0)]),
   calm_of_regs rfl (by decide +kernel), by decide +kernel⟩

theorem test_meets_index_and_count_writes_3 : ∃ (c : PinChannel) (s : State),
    s.dev.calm ∧ s.dev.runs domMch = true ∧ s.dev.reg (FBK_SPEED c) = 0 :=
  ⟨3,
   wst (wput [(FBK_CMP_CTRL_ARMED 3, 0), (FBK_EN_EN 3, 1)]),
   calm_of_regs rfl (by decide +kernel), by decide +kernel⟩

theorem test_meets_index_and_count_writes_4 : ∃ (c : PinChannel) (s : State),
    s.dev.calm ∧ s.dev.runs domMch = true ∧ (s.dev.pin c).owned = false ∧ s.dev.reg (FBK_SPEED c) = 0 :=
  ⟨3,
   wst (wput [(FBK_CMP_CTRL_ARMED 3, 0), (FBK_EN_EN 3, 1)]),
   calm_of_regs rfl (by decide +kernel), by decide +kernel⟩

theorem test_meets_index_and_count_writes_5 : ∃ (c : PinChannel) (s : State),
    s.dev.calm ∧ s.dev.runs domMch = true ∧ (s.dev.pin c).owned = false :=
  ⟨3,
   wst (wput [(FBK_CMP_CTRL_ARMED 3, 0), (FBK_EN_EN 3, 1)]),
   calm_of_regs rfl (by decide +kernel), by decide +kernel⟩

theorem test_meets_index_and_count_writes_6 : ∃ (c : PinChannel) (s : State),
    s.dev.calm ∧ s.dev.runs domMch = true ∧ (s.dev.pin c).owned = true :=
  ⟨3,
   wst { wput [(FBK_CMP_CTRL_ARMED 3, 0), (FBK_EN_EN 3, 1)] with pins := vmod wbase.pins (3 : PinChannel) fun (p : PinState) => { p with owned := true } },
   calm_of_regs rfl (by decide +kernel), by decide +kernel⟩

theorem test_meets_ssi_reads_1 : ∃ (c : PinChannel) (s : State),
    s.dev.calm ∧ s.dev.runs domMch = true ∧ s.dev.on (FBK_EN_EN c) = true ∧ s.dev.pinMode c = 2 ∧
    (s.dev.pin c).reading = false ∧ s.dev.ssiTime c < s.dev.ssiRate c * 2000 :=
  ⟨3,
   wst ((wdev [(FBK_SSI_CFG 3, 0)]).puts [(FBK_EN_EN 3, 1), (FBK_CTRL_MODE 3, 2), (FBK_SSI_CFG_RATE 3, 60)]),
   calm_of_regs rfl (by decide +kernel), by decide +kernel⟩

theorem test_meets_ssi_reads_2 : ∃ (c : PinChannel) (s : State),
    s.dev.calm ∧ s.dev.runs domMch = true ∧ s.dev.on (FBK_EN_EN c) = true ∧ s.dev.pinMode c = 2 ∧
    (s.dev.pin c).reading = true ∧ s.dev.pinQ c ≠ qInvalid :=
  ⟨3,
   wst { (wdev [(FBK_QUAL 3, 0)]).puts [(FBK_EN_EN 3, 1), (FBK_CTRL_MODE 3, 2)] with pins := vmod wbase.pins (3 : PinChannel) fun (p : PinState) => { p with reading := true } },
   calm_of_regs rfl (by decide +kernel), by decide +kernel⟩

theorem test_meets_ssi_reads_3 : ∃ (c : PinChannel) (w : Word) (v : Nat) (s : State),
    s.dev.calm ∧ s.dev.runs domMch = true ∧ (s.dev.pin c).reading = true ∧
    s.dev.on (FBK_SSI_CFG_ERR_EN c) = false ∧ s.dev.on (FBK_SSI_CFG_GRAY c) = false ∧
    s.dev.on (FBK_CMP_CTRL_ARMED c) = false ∧ (s.dev.pin c).due = false ∧ v = w.toNat % 2 ^ s.dev.ssiBits c :=
  ⟨3,
   0x12345,
   0x2345,
   wst { wput [(FBK_EN_EN 3, 1), (FBK_CTRL_MODE 3, 2), (FBK_CMP_CTRL_ARMED 3, 0), (FBK_SSI_CFG_BITS 3, 15), (FBK_SSI_CFG_ERR_EN 3, 0), (FBK_SSI_CFG_GRAY 3, 0)] with pins := vmod wbase.pins (3 : PinChannel) fun (p : PinState) => { p with reading := true } },
   calm_of_regs rfl (by decide +kernel), by decide +kernel⟩

theorem test_meets_ssi_reads_4 : ∃ (c : PinChannel) (s : State),
    s.dev.calm ∧ s.dev.runs domMch = true ∧ (s.dev.pin c).reading = true :=
  ⟨3,
   wst { wput [(FBK_EN_EN 3, 1), (FBK_CTRL_MODE 3, 2)] with pins := vmod wbase.pins (3 : PinChannel) fun (p : PinState) => { p with reading := true } },
   calm_of_regs rfl (by decide +kernel), by decide +kernel⟩

theorem test_meets_camera_triggers_1 : ∃ (c : Camera) (tau : Nat) (s : State),
    s.dev.calm ∧ s.dev.runs domFab = true ∧ s.dev.on (ISPC_CTRL_EN c) = true ∧
    s.dev.on (ISPC_TRIG_MODE c) = true ∧ s.dev.on (ISPC_TRIG_REG_EN c) = true ∧
    s.dev.camBusy c (s.dev.t0.nanos + tau) = false ∧ s.dev.lmp.phase = .off :=
  ⟨1,
   5,
   wst { (wdev [(ISPC_FRAME_NO 1, 9)]).puts [(ISPC_CTRL_EN 1, 1), (ISPC_TRIG_MODE 1, 1), (ISPC_TRIG_REG_EN 1, 1)] with isp := { ports := vmod wbase.isp.ports (1 : Camera) fun (p : CamPort) => { p with sets := [⟨1, 0x50000, 0, 0, none⟩] }, line := none } },
   calm_of_regs rfl (by decide +kernel), by decide +kernel⟩

theorem test_meets_camera_triggers_2 : ∃ (c : Camera) (tau : Nat) (s : State),
    s.dev.calm ∧ s.dev.runs domFab = true ∧ s.dev.on (ISPC_CTRL_EN c) = true ∧
    s.dev.on (ISPC_TRIG_MODE c) = true ∧ s.dev.on (ISPC_TRIG_REG_EN c) = true ∧
    s.dev.camBusy c (s.dev.t0.nanos + tau) = true :=
  ⟨1,
   5,
   wst { wput [(ISPC_CTRL_EN 1, 1), (ISPC_TRIG_MODE 1, 1), (ISPC_TRIG_REG_EN 1, 1)] with isp := { ports := vmod wbase.isp.ports (1 : Camera) fun (p : CamPort) => { p with triggers := [⟨0,0,0,false⟩] }, line := none } },
   calm_of_regs rfl (by decide +kernel), by decide +kernel⟩

theorem test_meets_camera_triggers_3 : ∃ (c : Camera) (t : CamTrigger) (q : List CamTrigger) (s : State),
    s.dev.calm ∧ s.dev.runs domFab = true ∧ (s.dev.cam c).triggers = t :: q :=
  ⟨1,
   ⟨0,0,0,false⟩,
   [],
   wst { wput [(ISPC_CTRL_EN 1, 1), (ISPC_TRIG_MODE 1, 1), (ISPC_TRIG_REG_EN 1, 1)] with isp := { ports := vmod wbase.isp.ports (1 : Camera) fun (p : CamPort) => { p with triggers := [⟨0,0,0,false⟩] }, line := none } },
   calm_of_regs rfl (by decide +kernel), by decide +kernel⟩

theorem test_meets_camera_triggers_4 : ∃ (c : Camera) (f : CamFrame) (s : State),
    s.dev.calm ∧ s.dev.runs domFab = true ∧ (s.dev.cam c).capturing = true ∧
    (s.dev.cam c).frames.getLast? = some f ∧ f.taken = f.lines.length ∧ f.src = 0 ∧ s.dev.exportOf c f = 0 :=
  ⟨1,
   ⟨7, 0, 0, 0, false, 0, 0, 0, 0, 9, 4, 2, 1, [], [], 0, none, true⟩,
   wst { wput [(ISPC_CTRL_EN 1, 1), (ISPC_TRIG_MODE 1, 1), (ISPC_TRIG_REG_EN 1, 1)] with isp := { ports := vmod wbase.isp.ports (1 : Camera) fun (p : CamPort) => { p with capturing := true, frames := [⟨7, 0, 0, 0, false, 0, 0, 0, 0, 9, 4, 2, 1, [], [], 0, none, true⟩] }, line := none } },
   calm_of_regs rfl (by decide +kernel), by decide +kernel⟩

theorem test_meets_camera_exposure_and_i2c_1 : ∃ (c : Camera) (t : Nat) (s : State),
    s.dev.calm ∧ s.dev.runs domMch = true ∧ (s.dev.cam c).seqRun = some (t, false) ∧ (s.dev.cam c).seqWait = [] ∧
    s.dev.on (ISP_I2C_STAT_PENDING c) = false :=
  ⟨1,
   5,
   wst { wput [(ISPC_STATUS_EXP_BUSY 1, 1)] with isp := { ports := vmod wbase.isp.ports (1 : Camera) fun (p : CamPort) => { p with seqRun := some (5, false), sets := [⟨5, 3, 4, 2, none⟩] }, line := none } },
   calm_of_regs rfl (by decide +kernel), by decide +kernel⟩

theorem test_meets_camera_exposure_and_i2c_2 : ∃ (c : Camera) (s : State),
    s.dev.calm ∧ s.dev.runs domMch = true ∧ s.dev.on (ISP_I2C_STAT_BUSY c) = false ∧
    s.dev.on (ISP_I2C_STAT_PENDING c) = false :=
  ⟨1,
   wst wbase,
   calm_of_regs rfl (by decide +kernel), by decide +kernel⟩

theorem test_meets_camera_exposure_and_i2c_2b : ∃ (c : Camera) (s : State),
    s.dev.calm ∧ s.dev.runs domMch = true ∧ s.dev.on (ISP_I2C_STAT_BUSY c) = false ∧
    s.dev.on (ISP_I2C_STAT_PENDING c) = false :=
  ⟨1,
   wst { wput [(ISPC_STATUS_EXP_BUSY 1, 1)] with isp := { ports := vmod wbase.isp.ports (1 : Camera) fun (p : CamPort) => { p with seqRun := some (5, false) }, line := none } },
   calm_of_regs rfl (by decide +kernel), by decide +kernel⟩

theorem test_meets_camera_exposure_and_i2c_3 : ∃ (c : Camera) (s : State),
    s.dev.calm ∧ s.dev.runs domMch = true ∧ s.dev.on (ISP_I2C_STAT_BUSY c) = true ∧
    s.dev.get (ISP_I2C_XFER_RN c) = 4 ∧ (s.dev.cam c).seqWait = [] :=
  ⟨1,
   wst (wput [(ISP_I2C_STAT_BUSY 1, 1), (ISP_I2C_XFER_RN 1, 4)]),
   calm_of_regs rfl (by decide +kernel), by decide +kernel⟩

theorem test_meets_camera_frames_1 : ∃ (c : Camera) (s : State),
    s.dev.calm ∧ s.dev.runs (6 + c.val) = true ∧ s.dev.shadow = [] ∧ s.dev.on (ISPC_CTRL_EN c) = true ∧
    s.dev.on (ISPC_TRIG_MODE c) = false ∧ (s.dev.cam c).capturing = false ∧
    s.dev.camLoad + s.dev.camRate c ≤ s.dev.get ISP_STATUS_CAP :=
  ⟨1,
   wst ((wdev [(ISP_STATUS, 0x320000), (ISPC_SIZE 1, 0x20004), (ISPC_RATE 1, 100)]).puts [(ISPC_CTRL_EN 1, 1),
     (ISPC_TRIG_MODE 1, 0), (ISP_STATUS_CAP, 800)]),
   calm_of_regs rfl (by decide +kernel), by decide +kernel⟩

theorem test_meets_camera_frames_2 : ∃ (c : Camera) (samples : List Nat) (f : CamFrame) (s : State),
    s.dev.calm ∧ s.dev.runs (6 + c.val) = true ∧ s.dev.on (ISPC_CTRL_EN c) = true ∧
    (s.dev.cam c).capturing = true ∧ (s.dev.cam c).frames.getLast? = some f ∧ samples.length = f.width ∧
    s.dev.on ISP_CTRL_ENABLE = false ∧ s.dev.bobFits (48 + c.val) (2 * f.width) = true ∧
    s.dev.get (CRLB_WR_WR (48 + c.val)) < 2 * s.dev.bobSize (48 + c.val) ∧
    ((∀ x ∈ (s.dev.cam c).frames.dropLast, x.no ≠ f.no)) :=
  ⟨1,
   [1, 2, 0xFFFF, 4],
   ⟨7, 0, 0, 0, false, 0, 0, 0, 0, 9, 4, 2, 1, [], [], 0, none, true⟩,
   wst { (wdev [(CRLB_SIZE 49, 8), (CRLB_WR 49, 15), (CRLB_RD 49, 15), (CRLB_BASE 49, 0x400)]).puts [(ISPC_CTRL_EN 1, 1), (CRLB_CFG_EN 49, 1)] with isp := { ports := vmod wbase.isp.ports (1 : Camera) fun (p : CamPort) => { p with capturing := true, frames := [⟨7, 0, 0, 0, false, 0, 0, 0, 0, 9, 4, 2, 1, [], [], 0, none, true⟩] }, line := none } },
   calm_of_regs rfl (by decide +kernel), by decide +kernel⟩

theorem test_meets_camera_frames_3 : ∃ (c : Camera) (k : Nat) (f : CamFrame) (s : State),
    s.dev.calm ∧ s.dev.runs 3 = true ∧ s.dev.isp.line = some (c.val, f.no) ∧
    (((s.dev.cam c).frames.find? fun x => x.no == f.no) = some f) ∧ s.dev.on ISP_CTRL_ENABLE = false ∧
    linePieces f.width = [k] ∧ s.dev.bobEn (48 + c.val) = true ∧ k ≤ s.dev.bobFill (48 + c.val) :=
  ⟨1,
   1,
   ⟨7, 0, 0, 0, false, 0, 0, 0, 0, 9, 4, 2, 1, [], [], 0, none, true⟩,
   wst { (wdev [(CRLB_SIZE 49, 8), (CRLB_WR 49, 15), (CRLB_RD 49, 14), (CRLB_BASE 49, 0x400)]).puts [(ISPC_CTRL_EN 1, 1), (CRLB_CFG_EN 49, 1)] with isp := { ports := vmod wbase.isp.ports (1 : Camera) fun (p : CamPort) => { p with capturing := true, frames := [⟨7, 0, 0, 0, false, 0, 0, 0, 0, 9, 4, 2, 1, [], [], 0, none, true⟩] }, line := some (1, 7) } },
   calm_of_regs rfl (by decide +kernel), by decide +kernel⟩

theorem test_meets_camera_frames_4 : ∃ (c : Camera) (k : Nat) (f : CamFrame) (pix : List Byte) (stats : List Byte) (s : State),
    s.dev.calm ∧ s.dev.runs 3 = true ∧
    (((s.dev.cam c).frames.find? fun x => x.taken == x.height && 0 < x.height) = some f) ∧ f.slot = some k ∧
    f.src = 0 ∧ s.dev.exportOf c f = 0 ∧ s.dev.get TRD_STATE_STATE ≠ 6 ∧
    (s.dev.pixelCfg c f).output f.lines = (pix, stats) ∧ s.dev.inDram (s.dev.ringAddr c f k) 32 = true ∧
    s.dev.inDram (s.dev.ringAddr c f k + 32) pix.length = true ∧
    s.dev.inDram (s.dev.ringAddr c f k + 32 + f.pixRoom) ((camHeader c f qGood 0).length + stats.length) = true :=
  ⟨1,
   0,
   ⟨7, 0, 0, 0, false, 0, 0, 0, 0, 9, 4, 2, 1, [], [], 2, some 0, true⟩,
   ((wCam.pixelCfg 1 (⟨7, 0, 0, 0, false, 0, 0, 0, 0, 9, 4, 2, 1, [], [], 2, some 0, true⟩)).output []).1,
   ((wCam.pixelCfg 1 (⟨7, 0, 0, 0, false, 0, 0, 0, 0, 9, 4, 2, 1, [], [], 2, some 0, true⟩)).output []).2,
   wst wCam,
   calm_of_regs rfl (by decide +kernel), by decide +kernel⟩

theorem test_meets_map_and_archive_1 : ∃ (s : State),
    s.dev.calm ∧ s.dev.runs domFab = true ∧ s.dev.on MPL_STATUS_CLEARING = true :=
  ⟨wst { wput [(MPL_STATUS_CLEARING, 1)] with dram := [(5, 7)] },
   calm_of_regs rfl (by decide +kernel), by decide +kernel⟩

theorem test_meets_map_and_archive_2 : ∃ (s : State),
    s.dev.calm ∧ s.dev.runs domFab = true ∧ s.dev.mapTime = 2 ^ 44 - 1 :=
  ⟨wst (wdev [(MPL_MAP_TIME_LO, 0xFFFFFFFF), (MPL_MAP_TIME_HI, 0xFFF)]),
   calm_of_regs rfl (by decide +kernel), by decide +kernel⟩

theorem test_meets_map_and_archive_3 : ∃ (n : Station) (s : State),
    s.dev.calm ∧ s.dev.runs domFab = true ∧ s.dev.on (MPLS_STATUS_FROZEN n) = false ∧
    s.dev.on (MPLS_CTRL_ARCH_EN n) = true :=
  ⟨3,
   wst { wput [(MPLS_CTRL_ARCH_EN 3, 1)] with mpl := { wbase.mpl with st := vmod wbase.mpl.st (3 : Station) fun (m : MeltStation) => { m with archPost := some 0 } } },
   calm_of_regs rfl (by decide +kernel), by decide +kernel⟩

theorem test_meets_map_and_archive_4 : ∃ (n : Station) (s : State),
    s.dev.calm ∧ s.dev.runs domFab = true ∧ s.dev.on (MPLS_STATUS_FROZEN n) = true ∧
    s.dev.on (MPLS_STATUS_EXPORTING n) = false ∧ 0 < s.dev.reg (MPLS_ARCH_HELD n) ∧ s.dev.archRoom n ≠ 0 :=
  ⟨3,
   wst ((wdev [(MPLS_ARCH_SIZE 3, 1), (MPLS_ARCH_HELD 3, 1)]).puts [(MPLS_STATUS_FROZEN 3, 1)]),
   calm_of_regs rfl (by decide +kernel), by decide +kernel⟩

theorem test_meets_map_and_archive_5 : ∃ (s : State),
    s.dev.calm ∧ s.dev.runs domFab = true :=
  ⟨wst (wput [(MPLS_STATUS_FROZEN 3, 1)]),
   calm_of_regs rfl (by decide +kernel), by decide +kernel⟩

theorem test_meets_frame_descriptors_1 : ∃ (n : Station) (a : Nat) (b : Nat) (f : CoaxFrame) (rest : List CoaxFrame) (s : State),
    s.dev.calm ∧ s.dev.runs domFab = true ∧
    a = s.dev.reg MPL_DESC_BASE % 65536 * 1048576 + 32 * (s.dev.mpl.descNext % (s.dev.reg MPL_DESC_SIZE % 65536 * 1048576 / 32)) ∧
    s.dev.reg MPL_DESC_SIZE % 65536 ≠ 0 ∧ s.dev.on MPL_CTRL_DESC_EXPORT = false ∧ s.dev.inDram a 32 = true ∧
    b = 32 + n.val ∧ s.dev.bobEn b = true ∧ s.dev.bobFill b = 0 ∧ 0 < s.dev.bobSize b ∧
    s.dev.get (CRLB_WR_WR b) < 2 * s.dev.bobSize b ∧ s.dev.get (CRLB_RD_RD b) < 2 * s.dev.bobSize b ∧
    (s.dev.mst n).done = f :: rest ∧ f.complete = false ∧ s.dev.on (MPLS_CTRL_EN n) = true ∧
    s.dev.on (MPLS_CTRL_COAX_EN n) = true ∧ s.dev.on (MPLS_CTRL_ALL_FRAMES n) = true :=
  ⟨3,
   0,
   35,
   ⟨⟨4, 9, 77, 500⟩, [], 0, false, []⟩,
   [],
   wst { Dev.puts (wdev [(MPL_DESC_SIZE, 1), (CRLB_SIZE 35, 4), (CRLB_WR 35, 7), (CRLB_RD 35, 7), (CRLB_BASE 35, 0x2000)]) [(CRLB_CFG_EN 35, 1), (MPL_CTRL_DESC_EXPORT, 0), (MPLS_CTRL_EN 3, 1), (MPLS_CTRL_COAX_EN 3, 1), (MPLS_CTRL_ALL_FRAMES 3, 1)] with mpl := { wbase.mpl with st := vmod wbase.mpl.st (3 : Station) fun (m : MeltStation) => { m with done := [⟨⟨4, 9, 77, 500⟩, [], 0, false, []⟩] } } },
   calm_of_regs rfl (by decide +kernel), by decide +kernel⟩

theorem test_meets_frame_descriptors_2 : ∃ (n : Station) (a : Nat) (b : Nat) (no : Nat) (k : Nat) (s : State),
    s.dev.calm ∧ s.dev.runs domFab = true ∧
    a = s.dev.reg MPL_DESC_BASE % 65536 * 1048576 + 32 * (s.dev.mpl.descNext % (s.dev.reg MPL_DESC_SIZE % 65536 * 1048576 / 32)) ∧
    s.dev.reg MPL_DESC_SIZE % 65536 ≠ 0 ∧ s.dev.on MPL_CTRL_DESC_EXPORT = false ∧ s.dev.inDram a 32 = true ∧
    b = 32 + n.val ∧ s.dev.bobEn b = true ∧ s.dev.bobFill b = 0 ∧ 0 < s.dev.bobSize b ∧
    s.dev.get (CRLB_WR_WR b) < 2 * s.dev.bobSize b ∧ s.dev.get (CRLB_RD_RD b) < 2 * s.dev.bobSize b ∧
    (s.dev.mst n).awaiting = some no ∧ (s.dev.mst n).lastOff = some k ∧ k + 120 ≤ s.dev.t0.tick :=
  ⟨3,
   0,
   35,
   4,
   2,
   wst { { Dev.puts (wdev [(MPL_DESC_SIZE, 1), (CRLB_SIZE 35, 4), (CRLB_WR 35, 7), (CRLB_RD 35, 7), (CRLB_BASE 35, 0x2000)]) [(CRLB_CFG_EN 35, 1), (MPL_CTRL_DESC_EXPORT, 0), (MPLS_CTRL_EN 3, 1), (MPLS_CTRL_COAX_EN 3, 1), (MPLS_CTRL_ALL_FRAMES 3, 1)] with bases := vmod wbase.bases 0 fun (b : TimeBase) => { b with now := ⟨1, 0, 0⟩ } } with mpl := { wbase.mpl with st := vmod wbase.mpl.st (3 : Station) fun (m : MeltStation) => { m with awaiting := some 4, lastOff := some 2 } } },
   calm_of_regs rfl (by decide +kernel), by decide +kernel⟩

theorem test_meets_shed_commands_1 : ∃ (i : Slot) (s : State),
    s.dev.calm ∧ s.dev.runs domFab = true ∧ s.dev.shd.pass = none ∧ s.dev.shedNext = some i ∧ s.dev.shadow = [] ∧
    (vat s.dev.trd.slots i).selv.length ≤ 4194304 :=
  ⟨1,
   wst { Dev.puts (wdev [(slotStatus 1, 2)]) [] with trd := { wbase.trd with slots := vmod wbase.trd.slots (1 : Slot) fun (x : LayerSlot) => { x with layerNo := 5 } }, shd := { wbase.shd with request := 0 } },
   calm_of_regs rfl (by decide +kernel), by decide +kernel⟩

theorem test_meets_shed_commands_2 : ∃ (ps : ShedPass) (a : ShedAcc) (moved : Nat) (skipped : Nat) (n : Station) (s : State),
    s.dev.calm ∧ passResult s.dev ps = (a, moved, skipped) ∧ s.dev.runs domFab = true ∧ s.dev.shd.pass = some ps ∧
    ps.again = false ∧ s.dev.slotState ps.slot = 3 ∧ (vat s.dev.flt.recovery 18).any (·.code == 0x11) = false ∧
    (divUp (leAt (vat s.dev.trd.slots ps.slot).header 0x2C 4) 4096 * 4096 + ((List.finRange 16).map fun n => 32 * (vat a.out n).length).sum ≤ s.dev.reg TRD_SLOT_SIZE % 4096 * 1048576) :=
  ⟨⟨false, 1, [], vrep 16 0, vrep 16 none, vrep 16 0, 0, vrep 16 []⟩,
   ShedAcc.init (⟨false, 1, [], vrep 16 0, vrep 16 none, vrep 16 0, 0, vrep 16 []⟩),
   0,
   0,
   0,
   wst { Dev.puts (wdev [(slotStatus 1, 3)]) [(SHD_STATUS_PASS, 1)] with trd := { wbase.trd with slots := vmod wbase.trd.slots (1 : Slot) fun (x : LayerSlot) => { x with layerNo := 5 } }, shd := { wbase.shd with pass := some (⟨false, 1, [], vrep 16 0, vrep 16 none, vrep 16 0, 0, vrep 16 []⟩) } },
   calm_of_regs rfl (by decide +kernel), rfl, by decide +kernel⟩

theorem test_meets_shed_commands_3 : ∃ (ps : ShedPass) (a : ShedAcc) (moved : Nat) (skipped : Nat) (s : State),
    s.dev.calm ∧ passResult s.dev ps = (a, moved, skipped) ∧ s.dev.runs domFab = true ∧ s.dev.shd.pass = some ps ∧
    ps.again = true :=
  ⟨⟨true, 1, [], vrep 16 0, vrep 16 none, vrep 16 0, 0, vrep 16 []⟩,
   ShedAcc.init (⟨true, 1, [], vrep 16 0, vrep 16 none, vrep 16 0, 0, vrep 16 []⟩),
   0,
   0,
   wst { Dev.puts (wdev [(slotStatus 1, 5)]) [(SHD_STATUS_PASS, 2)] with trd := { wbase.trd with slots := vmod wbase.trd.slots (1 : Slot) fun (x : LayerSlot) => { x with layerNo := 5 } }, shd := { wbase.shd with pass := some (⟨true, 1, [], vrep 16 0, vrep 16 none, vrep 16 0, 0, vrep 16 []⟩) } },
   calm_of_regs rfl (by decide +kernel), rfl, by decide +kernel⟩

theorem test_meets_shed_commands_4 : ∃ (s : State),
    s.dev.calm ∧ s.dev.runs domFab = true ∧ s.dev.shd.request ≠ 0 ∧ s.dev.layerActive = true ∧
    s.dev.shd.pass = none ∧ s.dev.shadow = [] :=
  ⟨wst { wdev [(TRD_STATE, 0), (slotStatus 0, 5)] with shd := { wbase.shd with request := 8 } },
   calm_of_regs rfl (by decide +kernel), by decide +kernel⟩

theorem test_meets_shed_commands_5 : ∃ (n : Station) (s : State),
    s.dev.calm ∧ s.dev.runs domFab = true ∧ (s.dev.shtl n).held = true ∧ vat s.dev.shd.starved n = false ∧
    vat s.dev.shd.since n + s.dev.reg SHD_MON_MAXHOLD * 1000 < s.dev.t0.nanos :=
  ⟨3,
   wst { wdev [(SHD_MON_MAXHOLD, 5)] with sht := vmod wbase.sht (3 : Station) fun (x : Shuttle) => { x with held := true }, bases := vmod wbase.bases 0 fun (b : TimeBase) => { b with now := ⟨1, 0, 0⟩ } },
   calm_of_regs rfl (by decide +kernel), by decide +kernel⟩

theorem test_meets_shed_commands_6 : ∃ (s : State),
    s.dev.calm ∧ s.dev.runs domFab = true ∧ (∀ k : Station, (s.dev.shtl k).held = false) :=
  ⟨wst (wput [(SHD_MON_CTRL_MON_EN, 1)]),
   calm_of_regs rfl (by decide +kernel), by decide +kernel⟩

theorem test_meets_shed_commands_7 : ∃ (n : Station) (s : State),
    s.dev.calm ∧ s.dev.runs domFab = true ∧ (s.dev.shtl n).held = true :=
  ⟨3,
   wst { wdev [(SHD_MON_HELD, 8)] with sht := vmod wbase.sht (3 : Station) fun (x : Shuttle) => { x with held := true } },
   calm_of_regs rfl (by decide +kernel), by decide +kernel⟩

theorem test_meets_shuttle_plan_commands_1 : ∃ (s : State),
    s.dev.calm ∧ s.dev.runs domFab = true ∧ s.dev.shuttlesRun = true :=
  ⟨wst (wdev [(TRD_STATE, 5)]),
   calm_of_regs rfl (by decide +kernel), by decide +kernel⟩

theorem test_meets_shuttle_plan_commands_1b : ∃ (s : State),
    s.dev.calm ∧ s.dev.runs domFab = true ∧ s.dev.shuttlesRun = true :=
  ⟨wst (wdev [(TRD_STATE, 2), (SHT_DEADLINES 3, 0xFFFFFFFF)]),
   calm_of_regs rfl (by decide +kernel), by decide +kernel⟩

theorem test_meets_shuttle_plan_commands_2 : ∃ (n : Station) (s : State),
    s.dev.calm ∧ s.dev.runs domFab = true ∧ s.dev.trdState = 5 ∧ (s.dev.shtl n).started = false ∧
    (s.dev.shtl n).parking = false ∧ s.dev.isRetired n.val = false ∧ (s.dev.shtl n).plan ≠ [] ∧
    s.dev.limAtRest n = true ∧ s.dev.schedTick % 4 = 0 :=
  ⟨3,
   wst { wdev [(TRD_STATE, 5)] with sht := vmod wbase.sht (3 : Station) fun (x : Shuttle) => { x with plan := [restElem P2.zero 9 0 false Pick.none], parking := false } },
   calm_of_regs rfl (by decide +kernel), by decide +kernel⟩

theorem test_meets_shuttle_plan_commands_3 : ∃ (n : Station) (s : State),
    s.dev.calm ∧ s.dev.runs domFab = true ∧ s.dev.shuttlesRun = true ∧ s.dev.isRetired n.val = false ∧
    (s.dev.shtl n).sawEnd = true ∧ (s.dev.shtl n).plan = [] ∧ (s.dev.shtl n).intr = none ∧
    (s.dev.shtl n).complete = false ∧ (s.dev.shtl n).started = true ∧ s.dev.edgesDone n = true :=
  ⟨3,
   wst { wdev [(TRD_STATE, 5), (SHT_STATUS 3, 0xFFFFFFFF)] with sht := vmod wbase.sht (3 : Station) fun (x : Shuttle) => { x with sawEnd := true, started := true } },
   calm_of_regs rfl (by decide +kernel), by decide +kernel⟩

theorem test_meets_shuttle_plan_commands_4 : ∃ (n : Station) (s : State),
    s.dev.calm ∧ s.dev.runs domFab = true ∧ s.dev.trdState = 5 ∧ s.dev.onPath n = true ∧
    (s.dev.shtl n).stopping = true ∧ (s.dev.shtl n).v = 0 ∧ (s.dev.shtl n).a = 0 ∧ (s.dev.shtl n).ramp = none ∧
    (s.dev.shtl n).easing = none ∧ (s.dev.shtl n).held = false ∧ s.dev.reg (LNK_WSTATE n) % 8 = 4 ∧
    (s.dev.shtl n).intr.isSome = true :=
  ⟨3,
   wst { wdev [(TRD_STATE, 5), (LNK_WSTATE 3, 4)] with sht := vmod wbase.sht (3 : Station) fun (x : Shuttle) => { x with started := true, parking := false, stopping := true, plan := [restElem P2.zero 9 0 false Pick.none], intr := some ⟨restElem P2.zero 9 0 false Pick.none, 0, 0, true, 5⟩ } },
   calm_of_regs rfl (by decide +kernel), by decide +kernel⟩

theorem test_meets_pick_fetches_1 : ∃ (n : Station) (s : State),
    s.dev.calm ∧ s.dev.runs domFab = true ∧ s.dev.shuttlesRun = true ∧ s.dev.isRetired n.val = false ∧
    (s.dev.shtl n).sawEnd = false ∧ (s.dev.shtl n).queue.length < s.dev.lookDepth n ∧ s.dev.stream n = [] ∧
    s.dev.bobEn n.val = true ∧ 1 ≤ s.dev.bobFill n.val ∧ (bytesWords (s.dev.bobPeek n.val 1)).headD 0 % 16 = 0 :=
  ⟨3,
   wst (wdev [(TRD_STATE, 5), (CRLB_CFG 3, 1), (CRLB_SIZE 3, 64), (CRLB_WR 3, 2)]),
   calm_of_regs rfl (by decide +kernel), by decide +kernel⟩

theorem test_meets_pick_fetches_2 : ∃ (n : Station) (k : Pick) (s : State),
    s.dev.calm ∧ s.dev.runs domFab = true ∧ s.dev.shuttlesRun = true ∧ s.dev.isRetired n.val = false ∧
    (s.dev.shtl n).sawEnd = false ∧ (s.dev.shtl n).queue.length < s.dev.lookDepth n ∧ s.dev.stream n = [] ∧
    s.dev.bobEn n.val = true ∧ 1 ≤ s.dev.bobFill n.val ∧
    (k = Pick.ofWords (s.dev.shtl n).taken (if k.typ = 3 ∨ k.typ = 4 then sx 32 ((bytesWords (s.dev.bobPeek n.val 1)).getD 7 0) else (s.dev.shtl n).zNext) (bytesWords (s.dev.bobPeek n.val 1))) ∧
    k.typ ≠ 0 ∧ k.isLine = false ∧
    ((k.typ == 3 || (s.dev.pathCfg n).inGrid k.x1 k.y1) && (s.dev.pathCfg n).inGrid k.x2 k.y2) = true :=
  ⟨3,
   ⟨0, 3, 0, 0, 0, 0, 0, 0, 0, 0, 0⟩,
   wst ((wdev [(TRD_STATE, 5), (CRLB_CFG 3, 1), (CRLB_BASE 3, 64), (CRLB_SIZE 3, 64),
     (CRLB_WR 3, 2)]).setCreelBytes 64 [3]),
   calm_of_regs rfl (by decide +kernel), by decide +kernel⟩

theorem test_meets_pick_fetches_3 : ∃ (n : Station) (s : State),
    s.dev.calm ∧ s.dev.runs domFab = true ∧ s.dev.shuttlesRun = true ∧ s.dev.isRetired n.val = false ∧
    (s.dev.shtl n).sawEnd = false ∧ (s.dev.shtl n).queue.length < s.dev.lookDepth n ∧ s.dev.stream n = [] ∧
    s.dev.bobEn n.val = true ∧ s.dev.bobFill n.val = 0 ∧ s.dev.endWithheld n = false :=
  ⟨3,
   wst (wdev [(TRD_STATE, 5), (CRLB_CFG 3, 1), (CRLB_SIZE 3, 64), (CRLB_WR 3, 0)]),
   calm_of_regs rfl (by decide +kernel), by decide +kernel⟩

theorem test_meets_loop_faults_and_set_points_1 : ∃ (e : Fin 3) (n : Station) (s : State),
    s.dev.calm ∧ s.dev.runs domFab = true ∧ s.dev.isRetired n.val = false ∧
    bits (s.dev.reg (REED_POS_STATUS e n)) 17 16 = 3 :=
  ⟨1,
   3,
   wst (wdev [(REED_POS_STATUS 1 3, 0x30000)]),
   calm_of_regs rfl (by decide +kernel), by decide +kernel⟩

theorem test_meets_loop_faults_and_set_points_2 : ∃ (n : Station) (s : State),
    s.dev.calm ∧ s.dev.runs domFab = true ∧ s.dev.isRetired n.val = false ∧
    bits (s.dev.reg (REED_PWR_STATUS n)) 17 16 = 3 :=
  ⟨3,
   wst (wdev [(REED_PWR_STATUS 3, 0x30000)]),
   calm_of_regs rfl (by decide +kernel), by decide +kernel⟩

theorem test_meets_loop_faults_and_set_points_3 : ∃ (e : Fin 3) (n : Station) (s : State),
    s.dev.calm ∧ s.dev.runs domFab = true ∧ s.dev.isRetired n.val = false ∧ 3 ≤ (s.dev.loop (.pos e n)).bad ∧
    s.dev.aligned n = true :=
  ⟨1,
   3,
   wst { wput [(LNK_WSTATE_ALIGNED 3, 1)] with reed := { wbase.reed with pos := vmod wbase.reed.pos (posIndex 1 3) fun (x : ReedLoop) => { x with bad := 3 } } },
   calm_of_regs rfl (by decide +kernel), by decide +kernel⟩

theorem test_meets_loop_faults_and_set_points_4 : ∃ (e : Fin 3) (n : Station) (s : State),
    s.dev.calm ∧ s.dev.runs domFab = true ∧ s.dev.isRetired n.val = false ∧
    s.dev.reg (REED_POS_FE_TIME e n) % 65536 < (s.dev.loop (.pos e n)).fe :=
  ⟨1,
   3,
   wst { wdev [(REED_POS_FE_TIME 1 3, 5)] with reed := { wbase.reed with pos := vmod wbase.reed.pos (posIndex 1 3) fun (x : ReedLoop) => { x with fe := 6 } } },
   calm_of_regs rfl (by decide +kernel), by decide +kernel⟩

theorem test_meets_loop_faults_and_set_points_5 : ∃ (n : Station) (s : State),
    s.dev.calm ∧ s.dev.runs domFab = true ∧ s.dev.isRetired n.val = false ∧
    s.dev.reg (REED_PWR_FE_TIME n) % 65536 < (s.dev.loop (.pwr n)).fe ∧ (s.dev.loop (.pwr n)).feRaised = false :=
  ⟨3,
   wst { wdev [(REED_PWR_FE_TIME 3, 5)] with reed := { wbase.reed with pwr := vmod wbase.reed.pwr 3 fun (x : ReedLoop) => { x with fe := 6 } } },
   calm_of_regs rfl (by decide +kernel), by decide +kernel⟩

theorem test_meets_loop_faults_and_set_points_6 : ∃ (n : Station) (s : State),
    s.dev.calm ∧ s.dev.runs domFab = true ∧ s.dev.isRetired n.val = false ∧
    s.dev.reg (REED_PWR_SENS_HOLD n) % 65536 ≤ (s.dev.loop (.pwr n)).bad ∧ 0 < (s.dev.loop (.pwr n)).bad ∧
    (s.dev.loop (.pwr n)).lostRaised = false :=
  ⟨3,
   wst { wdev [(REED_PWR_SENS_HOLD 3, 5)] with reed := { wbase.reed with pwr := vmod wbase.reed.pwr 3 fun (x : ReedLoop) => { x with bad := 5 } } },
   calm_of_regs rfl (by decide +kernel), by decide +kernel⟩

theorem test_meets_loop_faults_and_set_points_7 : ∃ (e : Fin 3) (n : Station) (s : State),
    s.dev.calm ∧ s.dev.runs domFab = true ∧ s.dev.usesExt (.pos e n) = true ∧
    (s.dev.loop (.pos e n)).extLost = false ∧
    (gpioAt s.dev (s.dev.reg (REED_POS_EXT_CFG e n) % 16)).lastEdge + s.dev.reg (REED_POS_EXT_CFG e n) / 65536 * 1000 < s.dev.t0.nanos :=
  ⟨1,
   3,
   wst { wdev [(REED_POS_CTRL 1 3, 0x201), (REED_POS_EXT_CFG 1 3, 0x10002)] with bases := vmod wbase.bases 0 fun (b : TimeBase) => { b with now := ⟨1, 0, 0⟩ } },
   calm_of_regs rfl (by decide +kernel), by decide +kernel⟩

theorem test_meets_loop_faults_and_set_points_8 : ∃ (n : Station) (s : State),
    s.dev.calm ∧ s.dev.runs domFab = true ∧ s.dev.usesExt (.pwr n) = true ∧
    (s.dev.loop (.pwr n)).extLost = false ∧
    (gpioAt s.dev (s.dev.reg (REED_PWR_EXT_CFG n) % 16)).lastEdge + s.dev.reg (REED_PWR_EXT_CFG n) / 65536 * 1000 < s.dev.t0.nanos :=
  ⟨3,
   wst { wdev [(REED_PWR_CTRL 3, 0x201), (REED_PWR_EXT_CFG 3, 0x10002)] with bases := vmod wbase.bases 0 fun (b : TimeBase) => { b with now := ⟨1, 0, 0⟩ } },
   calm_of_regs rfl (by decide +kernel), by decide +kernel⟩

theorem test_meets_loop_faults_and_set_points_9 : ∃ (s : State),
    s.dev.calm ∧ s.dev.runs domMch = true :=
  ⟨wst (wdev [(REED_POS_EXT_CFG 1 3, 0x10002)]),
   calm_of_regs rfl (by decide +kernel), by decide +kernel⟩

theorem test_meets_service_commands_1 : ∃ (n : Station) (s : State),
    s.dev.calm ∧ s.dev.runs domFab = true ∧ s.dev.on (LNK_SVC_STAT_BUSY n) = false :=
  ⟨3,
   wst wbase,
   calm_of_regs rfl (by decide +kernel), by decide +kernel⟩

theorem test_meets_service_commands_2 : ∃ (n : Station) (s : State),
    s.dev.calm ∧ s.dev.runs domFab = true ∧ s.dev.on (LNK_SVC_STAT_BUSY n) = false :=
  ⟨3,
   wst wbase,
   calm_of_regs rfl (by decide +kernel), by decide +kernel⟩

theorem test_meets_service_commands_3 : ∃ (n : Station) (s : State),
    s.dev.calm ∧ s.dev.runs domFab = true ∧ s.dev.on (LNK_SVC_STAT_BUSY n) = true :=
  ⟨3,
   wst (wdev [(LNK_SVC_STAT 3, 1)]),
   calm_of_regs rfl (by decide +kernel), by decide +kernel⟩

theorem test_meets_service_commands_4 : ∃ (n : Station) (r : SvcReq) (s : State),
    s.dev.calm ∧ s.dev.runs domFab = true ∧ (s.dev.link n).svc = some r ∧ r.own = false ∧
    r.tick + 8 ≤ s.dev.t0.tick :=
  ⟨3,
   ⟨7, 1, 3, 0, false, 0⟩,
   wst { wdev [(LNK_SVC_STAT 3, 1)] with lnk := vmod wbase.lnk (3 : Station) fun (x : Link) => { x with svc := some ⟨7, 1, 3, 0, false, 0⟩ } } |> fun t => { t with dev := { t.dev with bases := vmod t.dev.bases 0 fun (b : TimeBase) => { b with now := ⟨1, 0, 0⟩ } } },
   calm_of_regs rfl (by decide +kernel), by decide +kernel⟩

theorem test_meets_uplink_slots_1 : ∃ (n : Station) (header : List Byte) (w : List Word) (s : State),
    s.dev.calm ∧ crc32c (header ++ wordsBytes ((w.take 147).map BitVec.toNat)) = (w.getD 147 0).toNat ∧
    s.dev.runs domFab = true ∧ s.dev.on (LNK_WSTATE_ALIGNED n) = true ∧ header.length = 7 ∧ w.length = 148 ∧
    (header.getD 0 0).toNat = codeOf s.dev.t0.tick ∧
    crc32c (header ++ wordsBytes ((w.take 7).map BitVec.toNat)) = (w.getD 7 0).toNat ∧
    bits (header.getD 1 0).toNat 6 3 = 0 ∧ bit (w.getD 8 0).toNat 27 = false ∧ (s.dev.link n).svc = none :=
  ⟨3,
   List.replicate 7 0,
   [0, 0, 0, 0, 0, 0, 0] ++ [BitVec.ofNat 32 (crc32c (List.replicate 7 (0 : Byte) ++ List.replicate 28 (0 : Byte)))] ++ List.replicate 139 0 ++ [BitVec.ofNat 32 (crc32c (List.replicate 7 (0 : Byte) ++ wordsBytes ((([0, 0, 0, 0, 0, 0, 0] ++ [BitVec.ofNat 32 (crc32c (List.replicate 7 (0 : Byte) ++ List.replicate 28 (0 : Byte)))] ++ List.replicate 139 0) : List Word).map BitVec.toNat)))],
   wst (wput [(LNK_WSTATE_ALIGNED 3, 1)]),
   calm_of_regs rfl (by decide +kernel), crc_word _ _ (by decide +kernel), by decide +kernel⟩

theorem test_meets_uplink_slots_2 : ∃ (n : Station) (header : List Byte) (w : List Word) (s : State),
    s.dev.calm ∧ s.dev.runs domFab = true ∧ s.dev.on (LNK_WSTATE_ALIGNED n) = true ∧ header.length = 7 ∧
    w.length = 148 ∧ (s.dev.link n).badSlots = 0 ∧ (w.getD 8 0).toNat < 2 ^ 27 :=
  ⟨3,
   List.replicate 7 0,
   List.replicate 148 0,
   wst (wput [(LNK_WSTATE_ALIGNED 3, 1)]),
   calm_of_regs rfl (by decide +kernel), by decide +kernel⟩

theorem test_meets_uplink_slots_3 : ∃ (n : Station) (body : List Byte) (s : State),
    s.dev.calm ∧ s.dev.runs domFab = true ∧ s.dev.linkState n = 1 ∧ body.length = 7 ∧
    (body.getD 0 0).toNat = 0x5A ∧ (body.getD 1 0).toNat = codeOf s.dev.t0.tick :=
  ⟨3,
   [0x5A, 0, 0, 0, 0, 0, 0],
   wst (wdev [(LNK_WSTATE 3, 1)]),
   calm_of_regs rfl (by decide +kernel), by decide +kernel⟩

theorem test_meets_uplink_slots_4 : ∃ (n : Station) (body : List Byte) (k : Nat) (t1 : Nat) (s : State),
    s.dev.calm ∧ s.dev.runs domFab = true ∧ s.dev.linkState n = 2 ∧ body.length = 7 ∧
    (body.getD 0 0).toNat = 0x5A ∧ (body.getD 1 0).toNat = codeOf s.dev.t0.tick ∧
    (s.dev.link n).sent.find? (·.1 == (body.getD 4 0).toNat) = some (k, t1) ∧ (s.dev.link n).rtts.length < 63 :=
  ⟨3,
   [0x5A, 0, 0, 1, 0, 0, 0],
   0,
   7322,
   wst { wdev [(LNK_WSTATE 3, 2)] with lnk := vmod wbase.lnk (3 : Station) fun (x : Link) => { x with sent := [(0, 7322)] } },
   calm_of_regs rfl (by decide +kernel), by decide +kernel⟩

theorem test_meets_pyrometer_measurements_1 : ∃ (n : Station) (s : State),
    s.dev.calm ∧ s.dev.runs domFab = true ∧ (s.dev.trim n).meas = none :=
  ⟨3,
   wst wbase,
   calm_of_regs rfl (by decide +kernel), by decide +kernel⟩

theorem test_meets_pyrometer_measurements_2 : ∃ (n : Station) (s : State),
    s.dev.calm ∧ s.dev.runs domFab = true ∧ (s.dev.trim n).meas = none :=
  ⟨3,
   wst wbase,
   calm_of_regs rfl (by decide +kernel), by decide +kernel⟩

theorem test_meets_pyrometer_measurements_2b : ∃ (n : Station) (s : State),
    s.dev.calm ∧ s.dev.runs domFab = true ∧ (s.dev.trim n).meas = none :=
  ⟨3,
   wst { wbase with trm := { wbase.trm with st := vmod wbase.trm.st (3 : Station) fun (x : TrimStation) => { x with slewD := some ⟨[0, 0], [1, 1], 0, 5⟩ } } },
   calm_of_regs rfl (by decide +kernel), by decide +kernel⟩

theorem test_meets_pyrometer_measurements_3 : ∃ (n : Station) (s : State),
    s.dev.calm ∧ s.dev.runs domFab = true ∧ (s.dev.trim n).meas.isSome = true :=
  ⟨3,
   wst { wbase with trm := { wbase.trm with st := vmod wbase.trm.st (3 : Station) fun (x : TrimStation) => { x with meas := some { (wbase.trimMeas 3 false) with n := 4 } } } },
   calm_of_regs rfl (by decide +kernel), by decide +kernel⟩

theorem test_meets_pyrometer_measurements_4 : ∃ (n : Station) (s : State),
    s.dev.calm ∧ s.dev.runs domFab = true ∧ (s.dev.trim n).meas = none :=
  ⟨3,
   wst wbase,
   calm_of_regs rfl (by decide +kernel), by decide +kernel⟩

theorem test_meets_pyrometer_measurements_5 : ∃ (n : Station) (m : TrimMeas) (s : State),
    s.dev.calm ∧ s.dev.runs domFab = true ∧ (s.dev.trim n).meas = some m ∧ m.gain = false ∧ m.want ≤ m.n ∧
    m.max1 - m.min1 ≤ m.spread ∧ m.max2 - m.min2 ≤ m.spread :=
  ⟨3,
   { (wbase.trimMeas 3 false) with n := 4, want := 4, log2 := 2, sum1 := 10, sum2 := 21, min1 := 2, max1 := 3, min2 := 5, max2 := 6, spread := 1 },
   wst { wbase with trm := { wbase.trm with st := vmod wbase.trm.st (3 : Station) fun (x : TrimStation) => { x with meas := some { (wbase.trimMeas 3 false) with n := 4, want := 4, log2 := 2, sum1 := 10, sum2 := 21, min1 := 2, max1 := 3, min2 := 5, max2 := 6, spread := 1 } } } },
   calm_of_regs rfl (by decide +kernel), by decide +kernel⟩

theorem test_meets_pyrometer_measurements_6 : ∃ (n : Station) (m : TrimMeas) (s : State),
    s.dev.calm ∧ s.dev.runs domFab = true ∧ (s.dev.trim n).meas = some m ∧ m.gain = true ∧ m.want ≤ m.n ∧
    m.rRef ≠ 0 ∧
    (((((histMedian (m.want / 2) m.hist 0).1 * 2 ^ m.gsh + m.gLo + (m.want / 2 - (histMedian (m.want / 2) m.hist 0).2.1) * 2 ^ m.gsh / (histMedian (m.want / 2) m.hist 0).2.2) * 65536 / m.rRef : Nat) : Int) - (m.g0 : Nat)).natAbs ≤ m.g0 * m.gLim / 65536 :=
  ⟨3,
   { (wbase.trimMeas 3 true) with n := 4, want := 4, hist := [(102, 3), (103, 1)], gLo := 0x100000, gsh := 10, rRef := 0x100000, gLim := 0x4000, g0 := 70000 },
   wst { wbase with trm := { wbase.trm with st := vmod wbase.trm.st (3 : Station) fun (x : TrimStation) => { x with meas := some { (wbase.trimMeas 3 true) with n := 4, want := 4, hist := [(102, 3), (103, 1)], gLo := 0x100000, gsh := 10, rRef := 0x100000, gLim := 0x4000, g0 := 70000 } } } },
   calm_of_regs rfl (by decide +kernel), by decide +kernel⟩

theorem test_meets_pyrometer_measurements_7 : ∃ (n : Station) (m : TrimMeas) (s : State),
    s.dev.calm ∧ s.dev.runs domFab = true ∧ (s.dev.trim n).meas = some m ∧ m.n < m.want ∧
    m.since + m.timeout * 2000 ≤ s.dev.grid.ticks :=
  ⟨3,
   { (wbase.trimMeas 3 false) with n := 4, timeout := 0 },
   wst { wbase with trm := { wbase.trm with st := vmod wbase.trm.st (3 : Station) fun (x : TrimStation) => { x with meas := some { (wbase.trimMeas 3 false) with n := 4, timeout := 0 } } } },
   calm_of_regs rfl (by decide +kernel), by decide +kernel⟩

theorem test_meets_registration_commands_1 : ∃ (s : State),
    s.dev.calm ∧ s.dev.runs domFab = true ∧ s.dev.trm.due = false ∧ (∀ k : Station, (s.dev.trim k).kNew = none) :=
  ⟨wst wbase,
   calm_of_regs rfl (by decide +kernel), by decide +kernel⟩

theorem test_meets_registration_commands_2 : ∃ (n : Station) (b : Nat) (s : State),
    s.dev.calm ∧ s.dev.trimBase n = some b ∧ s.dev.runs domFab = true ∧ (s.dev.trim n).meas = none ∧
    (s.dev.trim n).kNew = none ∧ s.dev.reg (SHT_GRID_SEL n) % 2 = 0 :=
  ⟨3,
   0x40000,
   wst ({ wdev [(TRMS_GRID_BASE 3, 0x40000), (SHT_GRID_BASE1 3, 0x90000)] with creel := wGrid }),
   calm_of_regs rfl (by decide +kernel), trimBase_of _ _ _ (by decide +kernel) (by decide) (wGrid_ok _ rfl), by decide +kernel⟩

theorem test_meets_registration_commands_3 : ∃ (n : Station) (s : State),
    s.dev.calm ∧ s.dev.runs domFab = true ∧ (s.dev.trim n).kNew.isSome = true :=
  ⟨3,
   wst { wbase with trm := { wbase.trm with st := vmod wbase.trm.st (3 : Station) fun (x : TrimStation) => { x with kNew := some [1, 0, 0, 1, 0, 0, 1] } } },
   calm_of_regs rfl (by decide +kernel), by decide +kernel⟩

theorem test_meets_registration_commands_4 : ∃ (s : State),
    s.dev.calm ∧ s.dev.runs domFab = true ∧ (∀ k : Station, (s.dev.trim k).kNew = none) ∧
    (∀ k : Station, (s.dev.trim k).slewD = none ∧ (s.dev.trim k).slewG = none) :=
  ⟨wst wbase,
   calm_of_regs rfl (by decide +kernel), by decide +kernel⟩

theorem test_meets_registration_commands_5 : ∃ (shot : CamShot) (s : State),
    s.dev.calm ∧ s.dev.runs domFab = true ∧ s.dev.trm.due = true ∧ s.dev.trm.image = some shot ∧ shot.format = 2 :=
  ⟨⟨0, 32, 32, 2, 0⟩,
   wst { wdev [(TRD_LAYER, 9)] with trm := { wbase.trm with due := true, image := some ⟨0, 32, 32, 2, 0⟩ } },
   calm_of_regs rfl (by decide +kernel), by decide +kernel⟩

theorem test_meets_registration_commands_5b : ∃ (shot : CamShot) (s : State),
    s.dev.calm ∧ s.dev.runs domFab = true ∧ s.dev.trm.due = true ∧ s.dev.trm.image = some shot ∧ shot.format = 2 :=
  ⟨⟨0, 32, 32, 2, 0⟩,
   wst { (wdev [(TRD_LAYER, 9), (TRM_CAM_M 0, 0x1000000), (TRM_CAM_M 3, 0x1000000), (TRM_REG_THR, 0x100)]).setDramBytes 692 [0, 0xFF] with trm := { wbase.trm with due := true, image := some ⟨0, 32, 32, 2, 0⟩, marks := [⟨3, 10000000, 10000000, 10000000, 10000000, 7⟩] }, mpl := { wbase.mpl with st := vmod wbase.mpl.st (3 : Station) fun (x : MeltStation) => { x with marks := [7] } } },
   calm_of_regs rfl (by decide +kernel), by decide +kernel⟩

theorem test_meets_lane_commands_1 : ∃ (l : Lane) (s : State),
    s.dev.calm ∧ s.dev.runs domFab = true ∧ s.dev.on (LANE_CTRL_EN l) = false :=
  ⟨4,
   wst wbase,
   calm_of_regs rfl (by decide +kernel), by decide +kernel⟩

theorem test_meets_lane_commands_1b : ∃ (l : Lane) (s : State),
    s.dev.calm ∧ s.dev.runs domFab = true ∧ s.dev.on (LANE_CTRL_EN l) = false :=
  ⟨17,
   wst (wdev [(LANE_TEST 17, 1)]),
   calm_of_regs rfl (by decide +kernel), by decide +kernel⟩

theorem test_meets_lane_commands_2 : ∃ (l : Lane) (s : State),
    s.dev.calm ∧ s.dev.runs domFab = true ∧ s.dev.on (LANE_CTRL_EN l) = true ∧
    bit (s.dev.reg LNK_LOCKED) l.val = false ∧ s.dev.on (LANE_TEST_GEN_EN l) = false :=
  ⟨4,
   wst (wput [(LANE_CTRL_EN 4, 1)]),
   calm_of_regs rfl (by decide +kernel), by decide +kernel⟩

theorem test_meets_lane_commands_2b : ∃ (l : Lane) (s : State),
    s.dev.calm ∧ s.dev.runs domFab = true ∧ s.dev.on (LANE_CTRL_EN l) = true ∧
    bit (s.dev.reg LNK_LOCKED) l.val = false ∧ s.dev.on (LANE_TEST_GEN_EN l) = false :=
  ⟨17,
   wst (wput [(LANE_CTRL_EN 17, 1), (NET_CTRL_N1_EN, 1)]),
   calm_of_regs rfl (by decide +kernel), by decide +kernel⟩

theorem test_meets_lane_commands_3 : ∃ (l : Lane) (s : State),
    s.dev.calm ∧ s.dev.runs domFab = true ∧ bit (s.dev.reg LNK_LOCKED) l.val = true :=
  ⟨4,
   wst (wdev [(LNK_LOCKED, 0x10), (LNK_WSTATE 4, 1)]),
   calm_of_regs rfl (by decide +kernel), by decide +kernel⟩

theorem test_meets_lane_commands_3b : ∃ (l : Lane) (s : State),
    s.dev.calm ∧ s.dev.runs domFab = true ∧ bit (s.dev.reg LNK_LOCKED) l.val = true :=
  ⟨4,
   wst (wdev [(LNK_LOCKED, 0x10), (LNK_WSTATE 4, 12)]),
   calm_of_regs rfl (by decide +kernel), by decide +kernel⟩

theorem test_meets_lane_commands_4 : ∃ (s : State),
    s.dev.calm ∧ s.dev.runs domFab = true ∧ s.dev.on LNK_STATUS_S_PLL_LOCK = true ∧ s.dev.stationLaneOn = true :=
  ⟨wst (wdev [(LNK_STATUS, 7), (LANE_CTRL 15, 1)]),
   calm_of_regs rfl (by decide +kernel), by decide +kernel⟩

theorem test_meets_lane_commands_5 : ∃ (s : State),
    s.dev.calm ∧ s.dev.runs domFab = true ∧ s.dev.on LNK_STATUS_C_PLL_LOCK = true ∧ s.dev.chainLaneOn = true :=
  ⟨wst (wdev [(LNK_STATUS, 7), (LANE_CTRL 17, 1)]),
   calm_of_regs rfl (by decide +kernel), by decide +kernel⟩

theorem test_meets_lane_commands_6 : ∃ (s : State),
    s.dev.calm ∧ s.dev.runs domFab = true ∧ s.dev.on LNK_STATUS_S_PLL_LOCK = true ∧
    s.dev.on LNK_STATUS_C_PLL_LOCK = true ∧ s.dev.stationLaneOn = false ∧ s.dev.chainLaneOn = false :=
  ⟨wst (wdev [(LNK_STATUS, 7)]),
   calm_of_regs rfl (by decide +kernel), by decide +kernel⟩

theorem test_meets_lane_tests_1 : ∃ (l : Lane) (s : State),
    s.dev.calm ∧ s.dev.runs domFab = true ∧ s.dev.on (LANE_SCAN_STAT_BUSY l) = false :=
  ⟨4,
   wst wbase,
   calm_of_regs rfl (by decide +kernel), by decide +kernel⟩

theorem test_meets_lane_tests_2 : ∃ (l : Lane) (s : State),
    s.dev.calm ∧ s.dev.runs domFab = true ∧ s.dev.on (LANE_SCAN_STAT_BUSY l) = true :=
  ⟨4,
   wst { wdev [(LANE_SCAN_STAT 4, 1)] with lanes := vmod wbase.lanes (4 : Lane) fun (x : LaneUnit) => { x with scan := 34 } },
   calm_of_regs rfl (by decide +kernel), by decide +kernel⟩

theorem test_meets_lane_tests_3 : ∃ (l : Lane) (s : State),
    s.dev.calm ∧ s.dev.runs domFab = true ∧ s.dev.on (LANE_TEST_CHK_EN l) = true ∧
    s.dev.on (LANE_CTRL_EN l) = true ∧
    (s.dev.on (LANE_TEST_CODED l) = true → bit (s.dev.reg LNK_LOCKED) l.val = true) :=
  ⟨4,
   wst (wput [(LANE_TEST_CHK_EN 4, 1), (LANE_CTRL_EN 4, 1)]),
   calm_of_regs rfl (by decide +kernel), by decide +kernel⟩

theorem test_meets_lane_tests_4 : ∃ (l : Lane) (mism : Nat) (s : State),
    s.dev.calm ∧ s.dev.runs domFab = true ∧ s.dev.on (LANE_PRBS_STAT_CHK_LOCK l) = true ∧ 512 < mism :=
  ⟨4,
   600,
   wst (wput [(LANE_PRBS_STAT_CHK_LOCK 4, 1)]),
   calm_of_regs rfl (by decide +kernel), by decide +kernel⟩

theorem test_meets_lane_tests_5 : ∃ (l : Lane) (w : Word) (s : State),
    s.dev.calm ∧ s.dev.runs domFab = true ∧ s.dev.get DEV_LC_IN_FORCE ≠ 2 ∧
    s.dev.on (LANE_PRBS_STAT_INJ_PEND l) = false ∧ bits w.toNat 1 0 ≠ 0 ∧ s.dev.on (LANE_CTRL_EN l) = true ∧
    (s.dev.get (LANE_CTRL_LOOP l) = 1 → bit (s.dev.reg LNK_LOCKED) l.val = false) :=
  ⟨4,
   0x00050901,
   wst (wdev [(LANE_CTRL 4, 1)]),
   calm_of_regs rfl (by decide +kernel), by decide +kernel⟩

theorem test_meets_lane_tests_5b : ∃ (l : Lane) (w : Word) (s : State),
    s.dev.calm ∧ s.dev.runs domFab = true ∧ s.dev.get DEV_LC_IN_FORCE ≠ 2 ∧
    s.dev.on (LANE_PRBS_STAT_INJ_PEND l) = false ∧ bits w.toNat 1 0 ≠ 0 ∧ s.dev.on (LANE_CTRL_EN l) = true ∧
    (s.dev.get (LANE_CTRL_LOOP l) = 1 → bit (s.dev.reg LNK_LOCKED) l.val = false) :=
  ⟨4,
   0x00050902,
   wst (wdev [(LANE_CTRL 4, 0x11), (LANE_PRBS_STAT 4, 1)]),
   calm_of_regs rfl (by decide +kernel), by decide +kernel⟩

theorem test_meets_chain_frames_in_1 : ∃ (p : Port) (bytes : List Byte) (s : State),
    s.dev.calm ∧ s.dev.runs domFab = true ∧ s.dev.portUp p = true ∧ s.dev.on (portStandby p) = false ∧
    s.dev.isRetired (portLane p) = false ∧ (bytes.getD 0 0).toNat = 1 ∧ 16 + leAt bytes 6 2 ≤ bytes.length ∧
    leAt bytes 6 2 ≤ 8192 ∧ (bytes.getD 4 0).toNat < 16 ∧ (bytes.getD 1 0).toNat ≠ 0 ∧ p ≠ s.dev.downstream ∧
    s.dev.on NET_STATUS_ADDR_VALID = true ∧ (bytes.getD 2 0).toNat = s.dev.get NET_STATUS_ADDR ∧
    (bytes.getD 1 0).toNat = 1 :=
  ⟨0,
   [1, 1, 4, 0, 3, 0, 8, 0, 7, 0, 0, 0, 0, 0, 0, 0, 3, 0, 0, 0, 0, 0, 0, 0],
   wst (wdev [(NET_CTRL, 3), (LNK_LOCKED, 0x30000), (NET_STATUS, 0x24), (CRLB_CFG 64, 1), (CRLB_SIZE 64, 32)]),
   calm_of_regs rfl (by decide +kernel), by decide +kernel⟩

theorem test_meets_chain_frames_in_2 : ∃ (p : Port) (bytes : List Byte) (s : State),
    s.dev.calm ∧ s.dev.runs domFab = true ∧ s.dev.portUp p = true ∧ s.dev.on (portStandby p) = false ∧
    s.dev.isRetired (portLane p) = false ∧ (bytes.getD 0 0).toNat = 1 ∧ 16 + leAt bytes 6 2 ≤ bytes.length ∧
    leAt bytes 6 2 ≤ 8192 ∧ (bytes.getD 4 0).toNat < 16 ∧ (bytes.getD 1 0).toNat ≠ 0 ∧ p ≠ s.dev.downstream ∧
    (bytes.getD 2 0).toNat ≠ 0 ∧ (bytes.getD 2 0).toNat ≠ 0xFF ∧
    (s.dev.on NET_STATUS_ADDR_VALID = true → (bytes.getD 2 0).toNat ≠ s.dev.get NET_STATUS_ADDR) ∧
    s.dev.portCarries (other p) = true ∧ (s.dev.cport p).sending.isSome = true ∧
    (s.dev.cport (other p)).sending.isSome = true ∧
    ((s.dev.cport (other p)).forwardQ.map Frame.bytes).sum + max 64 (34 + leAt bytes 6 2) ≤ 65536 :=
  ⟨0,
   [1, 1, 5, 0, 3, 0, 8, 0, 7, 0, 0, 0, 0, 0, 0, 0, 3, 0, 0, 0, 0, 0, 0, 0],
   wst { wdev [(NET_CTRL, 3), (LNK_LOCKED, 0x30000), (NET_STATUS, 0x24)] with chain := { wbase.chain with ports := (vmod (vmod wbase.chain.ports (0 : Port) fun (x : ChainPort) => { x with sending := some ⟨.own, 2, 0, 1, 0, 7, [1, 2, 3], .none⟩ }) (1 : Port) fun (x : ChainPort) => { x with sending := some ⟨.own, 2, 0, 1, 0, 7, [1, 2, 3], .none⟩ }) } },
   calm_of_regs rfl (by decide +kernel), by decide +kernel⟩

theorem test_meets_chain_frames_in_3 : ∃ (p : Port) (s : State),
    s.dev.calm ∧ s.dev.runs domFab = true ∧ s.dev.portUp p = true ∧ s.dev.on (portStandby p) = false ∧
    s.dev.isRetired (portLane p) = false :=
  ⟨1,
   wst (wdev [(NET_CTRL, 3), (LNK_LOCKED, 0x30000)]),
   calm_of_regs rfl (by decide +kernel), by decide +kernel⟩

theorem test_meets_chain_control_1 : ∃ (hops : Fin 256) (s : State),
    s.dev.calm ∧ s.dev.runs domFab = true ∧ s.dev.portUp 0 = true ∧ hops.val < 16 ∧
    s.dev.on NET_STATUS_HEAD = (hops.val == 0) ∧ s.dev.trdState = 0 :=
  ⟨3,
   wst { wdev [(NET_CTRL, 3), (LNK_LOCKED, 0x30000), (DEV_STATE, 5)] with chain := { wbase.chain with ports := (vmod wbase.chain.ports (0 : Port) fun (x : ChainPort) => { x with sending := some ⟨.own, 2, 0, 1, 0, 7, [1, 2, 3], .none⟩ }) } },
   calm_of_regs rfl (by decide +kernel), by decide +kernel⟩

theorem test_meets_chain_control_1b : ∃ (hops : Fin 256) (s : State),
    s.dev.calm ∧ s.dev.runs domFab = true ∧ s.dev.portUp 0 = true ∧ hops.val < 16 ∧
    s.dev.on NET_STATUS_HEAD = (hops.val == 0) ∧ s.dev.trdState = 0 :=
  ⟨0,
   wst (wdev [(NET_CTRL, 3), (LNK_LOCKED, 0x30000), (NET_STATUS, 0x14A1)]),
   calm_of_regs rfl (by decide +kernel), by decide +kernel⟩

theorem test_meets_chain_control_2 : ∃ (p : Port) (f : Frame) (s : State),
    s.dev.calm ∧ s.dev.runs domFab = true ∧ (s.dev.cport p).sending = some f ∧ f.done = .none ∧
    (s.dev.cport p).ptpQ = [] ∧ (s.dev.cport p).pauseQ = [] ∧ (s.dev.cport p).forwardQ = [] ∧
    (s.dev.cport p).ownQ = [] ∧ (s.dev.cport p).launches = [] :=
  ⟨0,
   ⟨.own, 2, 0, 1, 0, 7, [1, 2, 3], .none⟩,
   wst { wdev [(NET_CTRL, 3), (LNK_LOCKED, 0x30000)] with chain := { wbase.chain with ports := (vmod wbase.chain.ports (0 : Port) fun (x : ChainPort) => { x with sending := some ⟨.own, 2, 0, 1, 0, 7, [1, 2, 3], .none⟩ }) } },
   calm_of_regs rfl (by decide +kernel), by decide +kernel⟩

theorem test_meets_chain_control_3 : ∃ (p : Port) (f : Frame) (s : State),
    s.dev.calm ∧ s.dev.runs domFab = true ∧ (s.dev.cport p).sending = some f ∧ f.done = .none ∧
    (s.dev.cport p).ptpQ = [] ∧ (s.dev.cport p).pauseQ = [] ∧ (s.dev.cport p).launches = [] ∧
    s.dev.portCarries p = true ∧ s.dev.on (NETP_STATUS_PAUSED p) = false ∧ (s.dev.cport p).lastForwarded = true ∧
    (s.dev.cport p).ownQ ≠ [] :=
  ⟨0,
   ⟨.own, 2, 0, 1, 0, 7, [1, 2, 3], .none⟩,
   wst { wdev [(NET_CTRL, 3), (LNK_LOCKED, 0x30000)] with chain := { wbase.chain with ports := (vmod wbase.chain.ports (0 : Port) fun (x : ChainPort) => { x with sending := some ⟨.own, 2, 0, 1, 0, 7, [1, 2, 3], .none⟩, lastForwarded := true, ownQ := [⟨.own, 2, 0, 1, 0, 7, [1, 2, 3], .none⟩] }) } },
   calm_of_regs rfl (by decide +kernel), by decide +kernel⟩

theorem test_meets_chain_control_4 : ∃ (s : State),
    s.dev.calm ∧ s.dev.runs domFab = true ∧ s.dev.eventDue = true ∧ s.dev.eventFrameOut = true ∧
    s.dev.on NET_STATUS_ADDR_VALID = true ∧ (s.dev.cport 0).sending.isSome = true ∧
    (s.dev.cport 1).sending.isSome = true :=
  ⟨wst { wdev [(NET_STATUS, 0x24)] with chain := { wbase.chain with ports := (vmod (vmod wbase.chain.ports (0 : Port) fun (x : ChainPort) => { x with sending := some ⟨.own, 2, 0, 1, 0, 7, [], .none⟩ }) (1 : Port) fun (x : ChainPort) => { x with sending := some ⟨.own, 2, 0, 1, 0, 7, [], .none⟩ }) }, ev := { wbase.ev with openRecs := [⟨5, 1, 0, 0, 0, 0⟩] } },
   calm_of_regs rfl (by decide +kernel), by decide +kernel⟩

theorem test_meets_chain_control_5 : ∃ (s : State),
    s.dev.calm ∧ s.dev.runs domFab = true ∧ s.dev.eventDue = true ∧ s.dev.eventFrameOut = true ∧
    s.dev.on NET_STATUS_ADDR_VALID = false :=
  ⟨wst { wdev [(NET_STATUS, 4)] with chain := { wbase.chain with ports := wbase.chain.ports }, ev := { wbase.ev with openRecs := [⟨5, 1, 0, 0, 0, 0⟩] } },
   calm_of_regs rfl (by decide +kernel), by decide +kernel⟩

theorem test_meets_chain_control_6 : ∃ (s : State),
    s.dev.calm ∧ s.dev.runs domFab = true ∧ s.dev.on NET_CTRL_RING_EN = true ∧ s.dev.portUp 1 = true ∧
    s.dev.isRetired 17 = false ∧ s.dev.on NET_STATUS_REVERSED = false :=
  ⟨wst (wdev [(NET_CTRL, 0xB), (LNK_LOCKED, 0x20000)]),
   calm_of_regs rfl (by decide +kernel), by decide +kernel⟩

theorem test_meets_chain_control_6b : ∃ (s : State),
    s.dev.calm ∧ s.dev.runs domFab = true ∧ s.dev.on NET_CTRL_RING_EN = true ∧ s.dev.portUp 1 = true ∧
    s.dev.isRetired 17 = false ∧ s.dev.on NET_STATUS_REVERSED = false :=
  ⟨wst (wdev [(NET_CTRL, 0xB), (LNK_LOCKED, 0x20000)]),
   calm_of_regs rfl (by decide +kernel), by decide +kernel⟩

theorem test_meets_chain_control_7 : ∃ (s : State),
    s.dev.calm ∧ s.dev.runs domFab = true ∧ s.dev.on NET_CTRL_RING_EN = true ∧
    s.dev.on NET_STATUS_REVERSED = false ∧ (s.dev.portUp 0 && !s.dev.isRetired 16) = false :=
  ⟨wst (wdev [(NET_CTRL, 0xB), (LNK_LOCKED, 0x20000), (NET_STATUS, 0xA04)]),
   calm_of_regs rfl (by decide +kernel), by decide +kernel⟩

theorem test_meets_chain_control_8 : ∃ (p : Port) (s : State),
    s.dev.calm ∧ s.dev.runs domFab = true ∧ s.dev.portCarries p = true :=
  ⟨1,
   wst (wdev [(NET_CTRL, 3), (LNK_LOCKED, 0x30000)]),
   calm_of_regs rfl (by decide +kernel), by decide +kernel⟩

theorem test_meets_chain_control_8b : ∃ (p : Port) (s : State),
    s.dev.calm ∧ s.dev.runs domFab = true ∧ s.dev.portCarries p = true :=
  ⟨1,
   wst (wdev [(NET_CTRL, 3), (LNK_LOCKED, 0x30000)]),
   calm_of_regs rfl (by decide +kernel), by decide +kernel⟩

theorem test_meets_chain_control_9 : ∃ (p : Port) (s : State),
    s.dev.calm ∧ s.dev.runs domFab = true ∧ s.dev.on NET_CTRL_PAUSE_EN = true ∧ s.dev.portCarries p = true ∧
    min (s.dev.rxFree p) (s.dev.fwdFree p) < 16384 ∧ (s.dev.cport p).sending.isSome = true :=
  ⟨1,
   wst { wdev [(NET_CTRL, 0x13), (LNK_LOCKED, 0x30000)] with chain := { wbase.chain with ports := (vmod wbase.chain.ports (1 : Port) fun (x : ChainPort) => { x with sending := some ⟨.own, 2, 0, 1, 0, 7, [1, 2, 3], .none⟩ }) } },
   calm_of_regs rfl (by decide +kernel), by decide +kernel⟩

theorem test_meets_transparent_clock_1 : ∃ (p : Port) (kind : PtpKind) (rawIn : Int) (rawOut : Int) (res : Int) (s : State),
    s.dev.calm ∧ s.dev.runs domFab = true ∧ s.dev.portCarries p = true ∧ s.dev.portCarries (other p) = true ∧
    (s.dev.cport (other p)).sending.isSome = true ∧
    res = rawOut + s.dev.regS (NETP_EGR_LAT (other p)) - (rawIn - s.dev.regS (NETP_ING_LAT p)) ∧
    (kind = .sync ∨ kind = .delayReq) :=
  ⟨0,
   .sync,
   1000000,
   90000000,
   89000000,
   wst { wdev [(NET_CTRL, 3), (LNK_LOCKED, 0x30000)] with chain := { wbase.chain with ports := (vmod wbase.chain.ports (1 : Port) fun (x : ChainPort) => { x with sending := some ⟨.own, 2, 0, 1, 0, 7, [1, 2, 3], .none⟩ }) } },
   calm_of_regs rfl (by decide +kernel), by decide +kernel⟩

theorem test_meets_transparent_clock_1b : ∃ (p : Port) (kind : PtpKind) (rawIn : Int) (rawOut : Int) (res : Int) (s : State),
    s.dev.calm ∧ s.dev.runs domFab = true ∧ s.dev.portCarries p = true ∧ s.dev.portCarries (other p) = true ∧
    (s.dev.cport (other p)).sending.isSome = true ∧
    res = rawOut + s.dev.regS (NETP_EGR_LAT (other p)) - (rawIn - s.dev.regS (NETP_ING_LAT p)) ∧
    (kind = .sync ∨ kind = .delayReq) :=
  ⟨0,
   .delayReq,
   1000000,
   90000000,
   89000000,
   wst { wdev [(NET_CTRL, 3), (LNK_LOCKED, 0x30000)] with chain := { wbase.chain with ports := (vmod wbase.chain.ports (1 : Port) fun (x : ChainPort) => { x with sending := some ⟨.own, 2, 0, 1, 0, 7, [1, 2, 3], .none⟩ }) } },
   calm_of_regs rfl (by decide +kernel), by decide +kernel⟩

theorem test_meets_transparent_clock_2 : ∃ (p : Port) (kind : PtpKind) (rawIn : Int) (rawOut : Int) (res : Int) (s : State),
    s.dev.calm ∧ s.dev.runs domFab = true ∧ s.dev.portCarries p = true ∧ s.dev.portCarries (other p) = true ∧
    (s.dev.cport (other p)).sending.isSome = true ∧
    res = rawOut + s.dev.regS (NETP_EGR_LAT (other p)) - (rawIn - s.dev.regS (NETP_ING_LAT p)) ∧
    kind = .syncTwoStep ∧ (s.dev.cport p).held = [] :=
  ⟨0,
   .syncTwoStep,
   1000000,
   90000000,
   89000000,
   wst { wdev [(NET_CTRL, 3), (LNK_LOCKED, 0x30000)] with chain := { wbase.chain with ports := (vmod wbase.chain.ports (1 : Port) fun (x : ChainPort) => { x with sending := some ⟨.own, 2, 0, 1, 0, 7, [1, 2, 3], .none⟩ }) } },
   calm_of_regs rfl (by decide +kernel), by decide +kernel⟩

theorem test_meets_transparent_clock_3 : ∃ (p : Port) (kind : PtpKind) (source : Nat) (seqNo : Nat) (rawIn : Int) (rawOut : Int) (res : Int) (s : State),
    s.dev.calm ∧ s.dev.runs domFab = true ∧ s.dev.portCarries p = true ∧ s.dev.portCarries (other p) = true ∧
    (s.dev.cport (other p)).sending.isSome = true ∧
    res = rawOut + s.dev.regS (NETP_EGR_LAT (other p)) - (rawIn - s.dev.regS (NETP_ING_LAT p)) ∧
    kind = .followUp ∧ (s.dev.cport p).held = [(source % 2 ^ 80, seqNo % 65536, rawIn, s.dev.grid.ticks)] :=
  ⟨0,
   .followUp,
   99,
   5,
   1000000,
   90000000,
   89000000,
   wst { wdev [(NET_CTRL, 3), (LNK_LOCKED, 0x30000)] with chain := { wbase.chain with ports := (vmod (vmod wbase.chain.ports (0 : Port) fun (x : ChainPort) => { x with held := [(99, 5, 1000000, 0)] }) (1 : Port) fun (x : ChainPort) => { x with sending := some ⟨.own, 2, 0, 1, 0, 7, [1, 2, 3], .none⟩ }) } },
   calm_of_regs rfl (by decide +kernel), by decide +kernel⟩

theorem test_meets_transparent_clock_4 : ∃ (p : Port) (kind : PtpKind) (rawIn : Int) (rawOut : Int) (res : Int) (s : State),
    s.dev.calm ∧ s.dev.runs domFab = true ∧ s.dev.portCarries p = true ∧ s.dev.portCarries (other p) = true ∧
    (s.dev.cport (other p)).sending.isSome = true ∧
    res = rawOut + s.dev.regS (NETP_EGR_LAT (other p)) - (rawIn - s.dev.regS (NETP_ING_LAT p)) ∧ kind = .other :=
  ⟨0,
   .other,
   1000000,
   90000000,
   89000000,
   wst { wdev [(NET_CTRL, 3), (LNK_LOCKED, 0x30000)] with chain := { wbase.chain with ports := (vmod wbase.chain.ports (1 : Port) fun (x : ChainPort) => { x with sending := some ⟨.own, 2, 0, 1, 0, 7, [1, 2, 3], .none⟩ }) } },
   calm_of_regs rfl (by decide +kernel), by decide +kernel⟩

theorem test_meets_ptp_slave_1 : ∃ (b : Base) (followUp : Bool) (twoStep : Bool) (seqNo : Nat) (t1 : Int) (corr : Int) (t2 : Int) (term : Int) (s : State),
    s.dev.calm ∧ s.dev.runs domFab = true ∧ s.dev.shadow = [] ∧ s.dev.isSlave b = true ∧
    ((followUp = false ∧ twoStep = false ∧ term = t2 - s.dev.regS (NETP_ING_LAT s.dev.upstream) - t1 - corr) ∨ (followUp = true ∧ (s.dev.base b).pendingSync seqNo = some (term + t1 + corr))) ∧
    s.dev.baseState b ≠ 3 ∧ s.dev.on (NETT_CTRL_STEP_AUTO b) = false :=
  ⟨2,
   false,
   false,
   5,
   1000,
   16,
   2000,
   984,
   wst (wdev [(NETT_CTRL 2, 1), (NETT_STATE 2, 1), (NETT_SERVO 2, 0x00100100)]),
   calm_of_regs rfl (by decide +kernel), by decide +kernel⟩

theorem test_meets_ptp_slave_1b : ∃ (b : Base) (followUp : Bool) (twoStep : Bool) (seqNo : Nat) (t1 : Int) (corr : Int) (t2 : Int) (term : Int) (s : State),
    s.dev.calm ∧ s.dev.runs domFab = true ∧ s.dev.shadow = [] ∧ s.dev.isSlave b = true ∧
    ((followUp = false ∧ twoStep = false ∧ term = t2 - s.dev.regS (NETP_ING_LAT s.dev.upstream) - t1 - corr) ∨ (followUp = true ∧ (s.dev.base b).pendingSync seqNo = some (term + t1 + corr))) ∧
    s.dev.baseState b ≠ 3 ∧ s.dev.on (NETT_CTRL_STEP_AUTO b) = false :=
  ⟨2,
   true,
   false,
   5,
   1000,
   16,
   2000,
   984,
   wst { wdev [(NETT_CTRL 2, 1), (NETT_STATE 2, 2), (NETT_SERVO 2, 0x00100100)] with bases := vmod wbase.bases 2 fun (x : TimeBase) => { x with twoStep := some (5, 2000) } },
   calm_of_regs rfl (by decide +kernel), by decide +kernel⟩

theorem test_meets_ptp_slave_2 : ∃ (b : Base) (s : State),
    s.dev.calm ∧ s.dev.runs domFab = true ∧ s.dev.shadow = [] ∧ s.dev.isSlave b = true ∧ s.dev.baseState b = 3 :=
  ⟨2,
   wst (wdev [(NETT_CTRL 2, 1), (NETT_STATE 2, 3)]),
   calm_of_regs rfl (by decide +kernel), by decide +kernel⟩

theorem test_meets_ptp_slave_3 : ∃ (b : Base) (s : State),
    s.dev.calm ∧ s.dev.runs domFab = true ∧ s.dev.shadow = [] ∧ s.dev.isSlave b = true :=
  ⟨2,
   wst (wdev [(NETT_CTRL 2, 1), (NETT_STATE 2, 1)]),
   calm_of_regs rfl (by decide +kernel), by decide +kernel⟩

theorem test_meets_ptp_slave_4 : ∃ (b : Base) (s : State),
    s.dev.calm ∧ s.dev.runs domFab = true ∧ s.dev.shadow = [] ∧ s.dev.isSlave b = true :=
  ⟨2,
   wst (wdev [(NETT_CTRL 2, 1), (NETT_STATE 2, 1)]),
   calm_of_regs rfl (by decide +kernel), by decide +kernel⟩

theorem test_meets_ptp_slave_5 : ∃ (b : Base) (seqNo : Nat) (t2 : Int) (s : State),
    s.dev.calm ∧ s.dev.runs domFab = true ∧ s.dev.shadow = [] ∧ s.dev.isSlave b = true ∧
    (s.dev.base b).reqSent = some (seqNo, t2) ∧ s.dev.baseState b ≠ 3 :=
  ⟨2,
   5,
   2000,
   wst { wdev [(NETT_CTRL 2, 1), (NETT_STATE 2, 1)] with bases := vmod wbase.bases 2 fun (x : TimeBase) => { x with reqSent := some (5, 2000), delays := [100, 200, -7] } },
   calm_of_regs rfl (by decide +kernel), by decide +kernel⟩

theorem test_meets_ptp_slave_6 : ∃ (b : Base) (m : List Nat) (s : State),
    s.dev.calm ∧ s.dev.runs domFab = true ∧ s.dev.shadow = [] ∧ s.dev.isSlave b = true ∧ m.length = 7 ∧
    (s.dev.base b).masters = [] :=
  ⟨2,
   [1, 2, 3, 4, 5, 0x1122334455667788, 1],
   wst (wdev [(NETT_CTRL 2, 1), (NETT_STATE 2, 1)]),
   calm_of_regs rfl (by decide +kernel), by decide +kernel⟩

theorem test_meets_ptp_slave_7 : ∃ (b : Base) (s : State),
    s.dev.calm ∧ s.dev.runs domFab = true ∧ s.dev.shadow = [] ∧ s.dev.isSlave b = true ∧
    (s.dev.base b).used = true ∧ (s.dev.baseState b = 1 ∨ s.dev.baseState b = 2) :=
  ⟨2,
   wst { wdev [(NETT_CTRL 2, 1), (NETT_STATE 2, 2)] with bases := vmod wbase.bases 2 fun (x : TimeBase) => { x with used := true, integ := -77 } },
   calm_of_regs rfl (by decide +kernel), by decide +kernel⟩

theorem test_meets_ptp_slave_7b : ∃ (b : Base) (s : State),
    s.dev.calm ∧ s.dev.runs domFab = true ∧ s.dev.shadow = [] ∧ s.dev.isSlave b = true ∧
    (s.dev.base b).used = true ∧ (s.dev.baseState b = 1 ∨ s.dev.baseState b = 2) :=
  ⟨2,
   wst { wdev [(NETT_CTRL 2, 1), (NETT_STATE 2, 1)] with bases := vmod wbase.bases 2 fun (x : TimeBase) => { x with used := true, integ := -77 } },
   calm_of_regs rfl (by decide +kernel), by decide +kernel⟩

theorem test_meets_time_base_commands_1 : ∃ (b : Base) (s : State),
    s.dev.calm ∧ s.dev.runs domFab = true ∧ s.dev.shadow = [] ∧ s.dev.on (NETT_CTRL_EN b) = false :=
  ⟨2,
   wst { wdev [(NETT_STATE 2, 3)] with bases := vmod wbase.bases 2 fun (x : TimeBase) => { x with used := true } },
   calm_of_regs rfl (by decide +kernel), by decide +kernel⟩

theorem test_meets_time_base_commands_1b : ∃ (b : Base) (s : State),
    s.dev.calm ∧ s.dev.runs domFab = true ∧ s.dev.shadow = [] ∧ s.dev.on (NETT_CTRL_EN b) = false :=
  ⟨0,
   wst { wdev [(NETT_STATE 2, 3)] with bases := vmod wbase.bases 2 fun (x : TimeBase) => { x with used := true } },
   calm_of_regs rfl (by decide +kernel), by decide +kernel⟩

theorem test_meets_time_base_commands_2 : ∃ (s : State),
    s.dev.calm ∧ s.dev.runs domFab = true ∧ s.dev.shadow = [] :=
  ⟨wst { wdev [(NETT_CTRL 2, 1), (NETT_RATE 2, 500)] with bases := vmod wbase.bases 2 fun (x : TimeBase) => { x with now := ⟨5, 999999999, 7⟩ } },
   calm_of_regs rfl (by decide +kernel), by decide +kernel⟩

theorem test_meets_time_base_commands_3 : ∃ (b : Base) (s : State),
    s.dev.calm ∧ s.dev.runs domFab = true ∧ s.dev.shadow = [] ∧ s.dev.on (NETT_CTRL_EN b) = true ∧
    s.dev.stepBarred b = false ∧ s.dev.reg (NETT_STEP_NS b) < 1000000000 :=
  ⟨2,
   wst (wdev [(NETT_CTRL 2, 1), (NETT_STEP_NS 2, 77), (NETT_STEP_SEC_LO 2, 9), (NETT_STEP_SEC_HI 2, 0x20003)]),
   calm_of_regs rfl (by decide +kernel), by decide +kernel⟩

theorem test_meets_time_base_commands_4 : ∃ (b : Base) (n : Int) (s : State),
    s.dev.calm ∧ s.dev.runs domFab = true ∧ s.dev.shadow = [] ∧ s.dev.on (NETT_CTRL_EN b) = true ∧
    s.dev.stepBarred b = false ∧
    n = (((s.dev.base b).now.sec : Int) + sx 48 (s.dev.reg (NETT_STEP_SEC_LO b) + s.dev.reg (NETT_STEP_SEC_HI b) % 65536 * 2 ^ 32)) * 1000000000 + ((s.dev.base b).now.ns : Int) + s.dev.regS (NETT_STEP_NS b) ∧
    0 ≤ n ∧ n < 2 ^ 48 * 1000000000 :=
  ⟨2,
   4000000093,
   wst { wdev [(NETT_CTRL 2, 1), (NETT_STEP_NS 2, 88), (NETT_STEP_SEC_LO 2, 0xFFFFFFFF), (NETT_STEP_SEC_HI 2, 0xFFFF)] with bases := vmod wbase.bases 2 fun (x : TimeBase) => { x with now := ⟨5, 5, 7⟩ } },
   calm_of_regs rfl (by decide +kernel), by decide +kernel⟩

theorem test_meets_time_base_commands_5 : ∃ (s : State),
    s.dev.calm ∧ s.dev.runs domFab = true ∧ s.dev.shadow = [] ∧ s.dev.on (NETT_CTRL_EN 0) = true ∧
    s.dev.positionRuns = true :=
  ⟨wst (wdev [(NETT_CTRL 0, 5), (REED_CTRL 1, 1)]),
   calm_of_regs rfl (by decide +kernel), by decide +kernel⟩

theorem test_meets_launches_and_pps_1 : ∃ (p : Port) (w : Word) (tau : Nat) (e : Timed) (s : State),
    s.dev.calm ∧ s.dev.runs domFab = true ∧ (s.dev.cport p).launches.length < 32 ∧
    e = ⟨bits w.toNat 5 4, s.dev.reg (NETP_TL_SEC p), s.dev.reg (NETP_TL_NS p) % 2 ^ 30,
      s.dev.reg (NETP_TL_ADDR p) % 2 ^ 25,
    s.dev.reg (NETP_TL_LEN p) % 2 ^ 14, bit w.toNat 8⟩ ∧
    0 ≤ s.dev.launchIn e tau :=
  ⟨0,
   0x121,
   3,
   ⟨2, 0, 40, 0, 60, true⟩,
   wst { wdev [(NET_CTRL, 3), (LNK_LOCKED, 0x30000), (NETP_TL_NS 0, 40), (NETP_TL_LEN 0, 60)] with chain := { wbase.chain with ports := (vmod wbase.chain.ports (0 : Port) fun (x : ChainPort) => { x with launches := [⟨2, 0, 30, 0, 60, false⟩, ⟨2, 0, 50, 0, 60, false⟩] }) } },
   calm_of_regs rfl (by decide +kernel), by decide +kernel⟩

theorem test_meets_launches_and_pps_2 : ∃ (s : State),
    s.dev.calm ∧ s.dev.runs domFab = true :=
  ⟨wst { wdev [(NET_CTRL, 3), (LNK_LOCKED, 0x30000)] with chain := { wbase.chain with ports := (vmod wbase.chain.ports (0 : Port) fun (x : ChainPort) => { x with launches := [⟨2, 0, 50, 0, 60, false⟩], ownQ := [⟨.own, 1, 0, 1, 0, 0, [], .none⟩] }) } },
   calm_of_regs rfl (by decide +kernel), by decide +kernel⟩

theorem test_meets_launches_and_pps_3 : ∃ (p : Port) (tau : Nat) (e : Timed) (rest : List Timed) (s : State),
    s.dev.calm ∧ s.dev.runs domFab = true ∧ (s.dev.cport p).launches = e :: rest ∧ s.dev.launchIn e tau ≤ 0 ∧
    (s.dev.cport p).sending = none ∧ s.dev.portCarries p = true :=
  ⟨0,
   3,
   ⟨2, 0, 0, 0, 60, false⟩,
   [],
   wst { wdev [(NET_CTRL, 3), (LNK_LOCKED, 0x30000)] with chain := { wbase.chain with ports := (vmod wbase.chain.ports (0 : Port) fun (x : ChainPort) => { x with launches := [⟨2, 0, 0, 0, 60, false⟩] }) } },
   calm_of_regs rfl (by decide +kernel), by decide +kernel⟩

theorem test_meets_launches_and_pps_4 : ∃ (b : Base) (s : State),
    s.dev.calm ∧ s.dev.runs domFab = true ∧ b = baseNo (s.dev.reg NET_PPS_OUT) ∧
    s.dev.on NET_PPS_OUT_PPS_OUT_EN = true ∧ s.dev.on (NETT_CTRL_EN b) = true ∧
    (s.dev.base b).now.ns ≤ s.dev.get NET_PPS_OFFSET_PPS_OFFSET ∧
    s.dev.get NET_PPS_OFFSET_PPS_OFFSET ≤ (s.dev.base b).now.ns + 501 :=
  ⟨2,
   wst { wdev [(NET_PPS_OUT, 0x00100006), (NET_PPS_OFFSET, 777), (NETT_CTRL 2, 1)] with bases := vmod wbase.bases 2 fun (x : TimeBase) => { x with now := ⟨5, 500, 7⟩ } },
   calm_of_regs rfl (by decide +kernel), by decide +kernel⟩

theorem test_meets_launches_and_pps_5 : ∃ (b : Base) (s : State),
    s.dev.calm ∧ s.dev.runs domFab = true ∧ b = baseNo (s.dev.reg NET_PPS_IN) ∧
    s.dev.on NET_PPS_IN_PPS_IN_EN = true ∧ (s.dev.on (NETT_CTRL_EN b) && s.dev.baseSrc b == 1) = false :=
  ⟨2,
   wst { wdev [(NET_PPS_IN, 6), (NETT_CTRL 2, 1)] with bases := vmod wbase.bases 2 fun (x : TimeBase) => { x with now := ⟨5, 500, 7⟩ } },
   calm_of_regs rfl (by decide +kernel), by decide +kernel⟩

theorem test_meets_launches_and_pps_6 : ∃ (b : Base) (s : State),
    s.dev.calm ∧ s.dev.runs domFab = true ∧ b = baseNo (s.dev.reg NET_PPS_IN) ∧
    s.dev.on NET_PPS_IN_PPS_IN_EN = true ∧ s.dev.on (NETT_CTRL_EN b) = true ∧ s.dev.baseSrc b = 1 ∧
    s.dev.shadow = [] ∧ s.dev.on (NETT_CTRL_STEP_AUTO b) = false :=
  ⟨2,
   wst { wdev [(NET_PPS_IN, 6), (NETT_CTRL 2, 3), (NETT_STATE 2, 3)] with bases := vmod wbase.bases 2 fun (x : TimeBase) => { x with now := ⟨5, 999999000, 7⟩ } },
   calm_of_regs rfl (by decide +kernel), by decide +kernel⟩

theorem test_meets_launches_and_pps_6b : ∃ (b : Base) (s : State),
    s.dev.calm ∧ s.dev.runs domFab = true ∧ b = baseNo (s.dev.reg NET_PPS_IN) ∧
    s.dev.on NET_PPS_IN_PPS_IN_EN = true ∧ s.dev.on (NETT_CTRL_EN b) = true ∧ s.dev.baseSrc b = 1 ∧
    s.dev.shadow = [] ∧ s.dev.on (NETT_CTRL_STEP_AUTO b) = false :=
  ⟨2,
   wst { wdev [(NET_PPS_IN, 6), (NETT_CTRL 2, 3), (NETT_STATE 2, 2)] with bases := vmod wbase.bases 2 fun (x : TimeBase) => { x with now := ⟨5, 400, 7⟩ } },
   calm_of_regs rfl (by decide +kernel), by decide +kernel⟩

theorem test_meets_launches_and_pps_7 : ∃ (b : Base) (n : Nat) (s : State),
    s.dev.calm ∧ s.dev.runs domFab = true ∧ b = baseNo (s.dev.reg NET_PPS_IN) ∧
    s.dev.on NET_PPS_IN_PPS_IN_EN = true ∧ s.dev.chain.ppsSince = some n ∧ n + 3000000 ≤ s.dev.grid.ticks :=
  ⟨2,
   5,
   wst { wdev [(NET_PPS_IN, 6)] with chain := { wbase.chain with ppsSince := some 5 }, grid := { wbase.grid with ticks := 3000005 } },
   calm_of_regs rfl (by decide +kernel), by decide +kernel⟩

theorem test_meets_launches_and_pps_7b : ∃ (b : Base) (n : Nat) (s : State),
    s.dev.calm ∧ s.dev.runs domFab = true ∧ b = baseNo (s.dev.reg NET_PPS_IN) ∧
    s.dev.on NET_PPS_IN_PPS_IN_EN = true ∧ s.dev.chain.ppsSince = some n ∧ n + 3000000 ≤ s.dev.grid.ticks :=
  ⟨2,
   5,
   wst { wdev [(NET_PPS_IN, 6), (NETT_CTRL 2, 3), (NETT_STATE 2, 2)] with bases := vmod wbase.bases 2 fun (x : TimeBase) => { x with used := true }, chain := { wbase.chain with ppsSince := some 5 }, grid := { wbase.grid with ticks := 3000005 } },
   calm_of_regs rfl (by decide +kernel), by decide +kernel⟩

theorem test_meets_register_accesses_1 : ∃ (p : Path) (a : Word) (s : State),
    s.dev.calm ∧ s.dev.start.porstLow = false ∧ s.dev.pathHeld p = false ∧ s.dev.reachable p a.toNat = true ∧
    a.toNat % 4 ≠ 0 :=
  ⟨.hostSpi,
   0x62041,
   wst wbase,
   calm_of_regs rfl (by decide +kernel), by decide +kernel⟩

theorem test_meets_register_accesses_1b : ∃ (p : Path) (a : Word) (s : State),
    s.dev.calm ∧ s.dev.start.porstLow = false ∧ s.dev.pathHeld p = false ∧ s.dev.reachable p a.toNat = true ∧
    a.toNat % 4 ≠ 0 :=
  ⟨.jtag,
   0x1000002,
   wst wbase,
   calm_of_regs rfl (by decide +kernel), by decide +kernel⟩

theorem test_meets_register_accesses_2 : ∃ (p : Path) (a : Word) (s : State),
    s.dev.calm ∧ s.dev.start.porstLow = false ∧ s.dev.pathHeld p = false ∧ s.dev.reachable p a.toNat = true ∧
    a.toNat % 4 = 0 ∧ inWindow a.toNat = true :=
  ⟨.hostSpi,
   0x1000010,
   wst (wbase.setCreelBytes 0x10 [1, 2, 3, 4]),
   calm_of_regs rfl (by decide +kernel), by decide +kernel⟩

theorem test_meets_register_accesses_2b : ∃ (p : Path) (a : Word) (s : State),
    s.dev.calm ∧ s.dev.start.porstLow = false ∧ s.dev.pathHeld p = false ∧ s.dev.reachable p a.toNat = true ∧
    a.toNat % 4 = 0 ∧ inWindow a.toNat = true :=
  ⟨.hostSpi,
   0x2FE0000,
   wst wbase,
   calm_of_regs rfl (by decide +kernel), by decide +kernel⟩

theorem test_meets_register_accesses_3 : ∃ (p : Path) (a : Word) (s : State),
    s.dev.calm ∧ s.dev.start.porstLow = false ∧ s.dev.pathHeld p = false ∧ s.dev.reachable p a.toNat = true ∧
    a.toNat % 4 = 0 ∧ inWindow a.toNat = false ∧ rowAt a.toNat = none ∧ a.toNat ≥ 0x160000 :=
  ⟨.hostSpi,
   0x160000,
   wst wbase,
   calm_of_regs rfl (by decide +kernel), by decide +kernel⟩

theorem test_meets_register_accesses_3b : ∃ (p : Path) (a : Word) (s : State),
    s.dev.calm ∧ s.dev.start.porstLow = false ∧ s.dev.pathHeld p = false ∧ s.dev.reachable p a.toNat = true ∧
    a.toNat % 4 = 0 ∧ inWindow a.toNat = false ∧ rowAt a.toNat = none ∧ a.toNat ≥ 0x160000 :=
  ⟨.hostSpi,
   0x3000000,
   wst wbase,
   calm_of_regs rfl (by decide +kernel), by decide +kernel⟩

theorem test_meets_register_accesses_4 : ∃ (p : Path) (a : Word) (s : State),
    s.dev.calm ∧ s.dev.start.porstLow = false ∧ s.dev.pathHeld p = false ∧ s.dev.reachable p a.toNat = true ∧
    a.toNat % 4 = 0 ∧ inWindow a.toNat = false :=
  ⟨.hostSpi,
   0x62040,
   wst wbase,
   calm_of_regs rfl (by decide +kernel), by decide +kernel⟩

theorem test_meets_register_accesses_4b : ∃ (p : Path) (a : Word) (s : State),
    s.dev.calm ∧ s.dev.start.porstLow = false ∧ s.dev.pathHeld p = false ∧ s.dev.reachable p a.toNat = true ∧
    a.toNat % 4 = 0 ∧ inWindow a.toNat = false :=
  ⟨.hostSpi,
   0x1400FC,
   wst (wdev [(TRD_BAD_MSG, 5)]),
   calm_of_regs rfl (by decide +kernel), by decide +kernel⟩

theorem test_meets_register_accesses_5 : ∃ (p : Path) (a : Word) (s : State),
    s.dev.calm ∧ s.dev.start.porstLow = false ∧ (s.dev.pathHeld p || !s.dev.reachable p a.toNat) = true :=
  ⟨.hostSpi,
   0x62040,
   wst (wbase.setReg CLK_LIVE 1),
   calm_of_regs rfl (by decide +kernel), by decide +kernel⟩

theorem test_meets_register_accesses_5b : ∃ (p : Path) (a : Word) (s : State),
    s.dev.calm ∧ s.dev.start.porstLow = false ∧ (s.dev.pathHeld p || !s.dev.reachable p a.toNat) = true :=
  ⟨.jtag,
   0x62040,
   wst { wbase with mgm := { wbase.mgm with held := [⟨.jtag, true, 4, 5⟩] } },
   calm_of_regs rfl (by decide +kernel), by decide +kernel⟩

theorem test_meets_access_codes_1 : ∃ (p : Path) (a : Word) (w : Word) (r : RegRow) (s : State),
    s.dev.calm ∧ s.dev.start.porstLow = false ∧ s.dev.pathHeld p = false ∧ s.dev.reachable p a.toNat = true ∧
    a.toNat % 4 = 0 ∧ inWindow a.toNat = false ∧ rowAt a.toNat = some r ∧
    writeReg a.toNat w.toNat s.dev = plainWrite a.toNat w.toNat s.dev ∧ lockHeld r.lock a.toNat s.dev = false :=
  ⟨.hostSpi,
   0x62040,
   0x1234,
   ((rowAt 0x62040).getD ⟨"", 0, [], 0, 0, 0, 0, 0, 0, 0, .none, .none⟩),
   wst wbase,
   calm_of_regs rfl (by decide +kernel), by decide +kernel⟩

theorem test_meets_access_codes_1b : ∃ (p : Path) (a : Word) (w : Word) (r : RegRow) (s : State),
    s.dev.calm ∧ s.dev.start.porstLow = false ∧ s.dev.pathHeld p = false ∧ s.dev.reachable p a.toNat = true ∧
    a.toNat % 4 = 0 ∧ inWindow a.toNat = false ∧ rowAt a.toNat = some r ∧
    writeReg a.toNat w.toNat s.dev = plainWrite a.toNat w.toNat s.dev ∧ lockHeld r.lock a.toNat s.dev = false :=
  ⟨.hostSpi,
   0x60008,
   0x15,
   ((rowAt 0x60008).getD ⟨"", 0, [], 0, 0, 0, 0, 0, 0, 0, .none, .none⟩),
   wst (wdev [(NET_FLAGS, 0x3F)]),
   calm_of_regs rfl (by decide +kernel), by decide +kernel⟩

theorem test_meets_access_codes_2 : ∃ (p : Path) (a : Word) (r : RegRow) (s : State),
    s.dev.calm ∧ s.dev.start.porstLow = false ∧ s.dev.pathHeld p = false ∧ s.dev.reachable p a.toNat = true ∧
    a.toNat % 4 = 0 ∧ inWindow a.toNat = false ∧ rowAt a.toNat = some r ∧ r.rws = 0 :=
  ⟨.hostSpi,
   TRD_BAD_MSG,
   ((rowAt TRD_BAD_MSG).getD ⟨"", 0, [], 0, 0, 0, 0, 0, 0, 0, .none, .none⟩),
   wst (wdev [(TRD_BAD_MSG, 5)]),
   calm_of_regs rfl (by decide +kernel), by decide +kernel⟩

theorem test_meets_access_codes_2b : ∃ (p : Path) (a : Word) (r : RegRow) (s : State),
    s.dev.calm ∧ s.dev.start.porstLow = false ∧ s.dev.pathHeld p = false ∧ s.dev.reachable p a.toNat = true ∧
    a.toNat % 4 = 0 ∧ inWindow a.toNat = false ∧ rowAt a.toNat = some r ∧ r.rws = 0 :=
  ⟨.hostSpi,
   0x60008,
   ((rowAt 0x60008).getD ⟨"", 0, [], 0, 0, 0, 0, 0, 0, 0, .none, .none⟩),
   wst (wdev [(NET_FLAGS, 0x3F)]),
   calm_of_regs rfl (by decide +kernel), by decide +kernel⟩

theorem test_meets_last_value_written_1 : ∃ (p : Path) (a : Word) (v : Word) (w : Word) (r : RegRow) (s : State) (t : State) (u : State),
    s.dev.calm ∧ exec (.registerWrite p a v) s = .next t ∧ exec (.registerWrite p a w) t = .next u ∧
    s.dev.start.porstLow = false ∧ p ≠ .chain ∧ s.dev.pathHeld p = false ∧ a.toNat % 4 = 0 ∧
    inWindow a.toNat = false ∧ s.dev.reachable p a.toNat = true ∧ rowAt a.toNat = some r ∧ r.rws ≠ 0 ∧ r.rw = 0 ∧
    r.rwl = 0 ∧ r.w1c = 0 ∧ r.w1s = 0 ∧ writeReg a.toNat v.toNat s.dev = plainWrite a.toNat v.toNat s.dev ∧
    writeReg a.toNat w.toNat t.dev = plainWrite a.toNat w.toNat t.dev :=
  ⟨.hostSpi,
   0x80020,
   5,
   9,
   ((rowAt 0x80020).getD ⟨"", 0, [], 0, 0, 0, 0, 0, 0, 0, .none, .none⟩),
   wst wbase,
   (after (.registerWrite .hostSpi 0x80020 5) (wst wbase)),
   (after (.registerWrite .hostSpi 0x80020 9) (after (.registerWrite .hostSpi 0x80020 5) (wst wbase))),
   calm_of_regs rfl (by decide +kernel), rfl, rfl, by decide +kernel⟩

theorem test_meets_management_requests_1 : ∃ (p : Port) (f : Frame) (rest : List Frame) (n : Nat) (a : Nat) (s : State),
    s.dev.calm ∧ s.dev.runs domFab = true ∧ s.dev.pathHeld .chain = false ∧ (s.dev.cport p).rxQ = f :: rest ∧
    f.kind = 1 ∧ (s.dev.cport 0).sending.isSome = true ∧ (s.dev.cport 1).sending.isSome = true ∧
    n = leAt f.payload 1 1 ∧ a = leAt f.payload 4 4 ∧ mgmtOp f.payload = some 1 ∧
    s.dev.on NET_STATUS_ADDR_VALID = true ∧ 8 ≤ f.payload.length ∧ 1 ≤ n ∧ n ≤ 64 ∧ 0x1000000 ≤ a ∧
    a + 4 * n ≤ 0x3000000 ∧ a % 4 = 0 :=
  ⟨0,
   ⟨.forwarded, 1, 4, 0, 0, 77, wordsBytes [0x301, 0x1000010], .none⟩,
   [],
   3,
   0x1000010,
   wst { wdev [(NET_CTRL, 3), (LNK_LOCKED, 0x30000), (NET_STATUS, 0x24), (CRLB_CFG 64, 1), (CRLB_SIZE 64, 32), (CRLB_WR 64, 1)] with chain := { wbase.chain with ports := (vmod (vmod wbase.chain.ports (0 : Port) fun (x : ChainPort) => { x with sending := some ⟨.own, 2, 0, 1, 0, 7, [], .none⟩, rxQ := [⟨.forwarded, 1, 4, 0, 0, 77, wordsBytes [0x301, 0x1000010], .none⟩] }) (1 : Port) fun (x : ChainPort) => { x with sending := some ⟨.own, 2, 0, 1, 0, 7, [], .none⟩ }) } },
   calm_of_regs rfl (by decide +kernel), by decide +kernel⟩

theorem test_meets_management_requests_2 : ∃ (p : Port) (f : Frame) (rest : List Frame) (n : Nat) (a : Nat) (s : State),
    s.dev.calm ∧ s.dev.runs domFab = true ∧ s.dev.pathHeld .chain = false ∧ (s.dev.cport p).rxQ = f :: rest ∧
    f.kind = 1 ∧ (s.dev.cport 0).sending.isSome = true ∧ (s.dev.cport 1).sending.isSome = true ∧
    n = leAt f.payload 1 1 ∧ a = leAt f.payload 4 4 ∧ mgmtOp f.payload = some 1 ∧
    s.dev.on NET_STATUS_ADDR_VALID = true ∧ 8 ≤ f.payload.length ∧ n = 1 ∧ a < 0x160000 ∧ a % 4 = 0 ∧
    s.dev.reachable .chain a = true :=
  ⟨0,
   ⟨.forwarded, 1, 4, 0, 0, 77, wordsBytes [0x101, 0x60008], .none⟩,
   [],
   1,
   0x60008,
   wst { wdev [(NET_CTRL, 3), (LNK_LOCKED, 0x30000), (NET_STATUS, 0x24), (CRLB_CFG 64, 1), (CRLB_SIZE 64, 32), (CRLB_WR 64, 1), (NET_FLAGS, 0x1F)] with chain := { wbase.chain with ports := (vmod (vmod wbase.chain.ports (0 : Port) fun (x : ChainPort) => { x with sending := some ⟨.own, 2, 0, 1, 0, 7, [], .none⟩, rxQ := [⟨.forwarded, 1, 4, 0, 0, 77, wordsBytes [0x101, 0x60008], .none⟩] }) (1 : Port) fun (x : ChainPort) => { x with sending := some ⟨.own, 2, 0, 1, 0, 7, [], .none⟩ }) } },
   calm_of_regs rfl (by decide +kernel), by decide +kernel⟩

theorem test_meets_management_requests_3 : ∃ (p : Port) (f : Frame) (rest : List Frame) (n : Nat) (a : Nat) (s : State),
    s.dev.calm ∧ s.dev.runs domFab = true ∧ s.dev.pathHeld .chain = false ∧ (s.dev.cport p).rxQ = f :: rest ∧
    f.kind = 1 ∧ (s.dev.cport 0).sending.isSome = true ∧ (s.dev.cport 1).sending.isSome = true ∧
    n = leAt f.payload 1 1 ∧ a = leAt f.payload 4 4 ∧ mgmtOp f.payload = some 2 ∧
    s.dev.on NET_STATUS_ADDR_VALID = true ∧ 8 + 4 * n ≤ f.payload.length ∧ 1 ≤ n ∧ n ≤ 64 ∧ 0x1000000 ≤ a ∧
    a + 4 * n ≤ 0x2FE0000 ∧ a % 4 = 0 :=
  ⟨0,
   ⟨.forwarded, 1, 4, 0, 0, 77, wordsBytes [0x302, 0x1000010, 7, 8, 0x01020304], .none⟩,
   [],
   3,
   0x1000010,
   wst { wdev [(NET_CTRL, 3), (LNK_LOCKED, 0x30000), (NET_STATUS, 0x24), (CRLB_CFG 64, 1), (CRLB_SIZE 64, 32), (CRLB_WR 64, 1)] with chain := { wbase.chain with ports := (vmod (vmod wbase.chain.ports (0 : Port) fun (x : ChainPort) => { x with sending := some ⟨.own, 2, 0, 1, 0, 7, [], .none⟩, rxQ := [⟨.forwarded, 1, 4, 0, 0, 77, wordsBytes [0x302, 0x1000010, 7, 8, 0x01020304], .none⟩] }) (1 : Port) fun (x : ChainPort) => { x with sending := some ⟨.own, 2, 0, 1, 0, 7, [], .none⟩ }) } },
   calm_of_regs rfl (by decide +kernel), by decide +kernel⟩

theorem test_meets_management_requests_4 : ∃ (p : Port) (f : Frame) (rest : List Frame) (n : Nat) (a : Nat) (s : State),
    s.dev.calm ∧ s.dev.runs domFab = true ∧ s.dev.pathHeld .chain = false ∧ (s.dev.cport p).rxQ = f :: rest ∧
    f.kind = 1 ∧ (s.dev.cport 0).sending.isSome = true ∧ (s.dev.cport 1).sending.isSome = true ∧
    n = leAt f.payload 1 1 ∧ a = leAt f.payload 4 4 ∧ mgmtOp f.payload = some 3 :=
  ⟨0,
   ⟨.forwarded, 1, 4, 0, 0, 77, wordsBytes [3, 5], .none⟩,
   [],
   0,
   5,
   wst { wdev [(NET_CTRL, 3), (LNK_LOCKED, 0x30000), (NET_STATUS, 0x24)] with chain := { wbase.chain with ports := (vmod (vmod wbase.chain.ports (0 : Port) fun (x : ChainPort) => { x with sending := some ⟨.own, 2, 0, 1, 0, 7, [], .none⟩, rxQ := [⟨.forwarded, 1, 4, 0, 0, 77, wordsBytes [3, 5], .none⟩] }) (1 : Port) fun (x : ChainPort) => { x with sending := some ⟨.own, 2, 0, 1, 0, 7, [], .none⟩ }) } },
   calm_of_regs rfl (by decide +kernel), by decide +kernel⟩

theorem test_meets_management_requests_5 : ∃ (p : Port) (f : Frame) (rest : List Frame) (n : Nat) (a : Nat) (s : State),
    s.dev.calm ∧ s.dev.runs domFab = true ∧ s.dev.pathHeld .chain = false ∧ (s.dev.cport p).rxQ = f :: rest ∧
    f.kind = 1 ∧ (s.dev.cport 0).sending.isSome = true ∧ (s.dev.cport 1).sending.isSome = true ∧
    n = leAt f.payload 1 1 ∧ a = leAt f.payload 4 4 ∧ mgmtOp f.payload ≠ some 1 ∧ mgmtOp f.payload ≠ some 2 ∧
    mgmtOp f.payload ≠ some 3 :=
  ⟨0,
   ⟨.forwarded, 1, 4, 0, 0, 77, wordsBytes [9, 5], .none⟩,
   [],
   0,
   5,
   wst { wdev [(NET_CTRL, 3), (LNK_LOCKED, 0x30000), (NET_STATUS, 0x24)] with chain := { wbase.chain with ports := (vmod (vmod wbase.chain.ports (0 : Port) fun (x : ChainPort) => { x with sending := some ⟨.own, 2, 0, 1, 0, 7, [], .none⟩, rxQ := [⟨.forwarded, 1, 4, 0, 0, 77, wordsBytes [9, 5], .none⟩] }) (1 : Port) fun (x : ChainPort) => { x with sending := some ⟨.own, 2, 0, 1, 0, 7, [], .none⟩ }) } },
   calm_of_regs rfl (by decide +kernel), by decide +kernel⟩

theorem test_meets_management_requests_5b : ∃ (p : Port) (f : Frame) (rest : List Frame) (n : Nat) (a : Nat) (s : State),
    s.dev.calm ∧ s.dev.runs domFab = true ∧ s.dev.pathHeld .chain = false ∧ (s.dev.cport p).rxQ = f :: rest ∧
    f.kind = 1 ∧ (s.dev.cport 0).sending.isSome = true ∧ (s.dev.cport 1).sending.isSome = true ∧
    n = leAt f.payload 1 1 ∧ a = leAt f.payload 4 4 ∧ mgmtOp f.payload ≠ some 1 ∧ mgmtOp f.payload ≠ some 2 ∧
    mgmtOp f.payload ≠ some 3 :=
  ⟨0,
   ⟨.forwarded, 1, 4, 0, 0, 77, wordsBytes [], .none⟩,
   [],
   0,
   0,
   wst { wdev [(NET_CTRL, 3), (LNK_LOCKED, 0x30000), (NET_STATUS, 0x24)] with chain := { wbase.chain with ports := (vmod (vmod wbase.chain.ports (0 : Port) fun (x : ChainPort) => { x with sending := some ⟨.own, 2, 0, 1, 0, 7, [], .none⟩, rxQ := [⟨.forwarded, 1, 4, 0, 0, 77, wordsBytes [], .none⟩] }) (1 : Port) fun (x : ChainPort) => { x with sending := some ⟨.own, 2, 0, 1, 0, 7, [], .none⟩ }) } },
   calm_of_regs rfl (by decide +kernel), by decide +kernel⟩

theorem test_meets_jtag_commands_1 : ∃ (s : State),
    s.dev.calm ∧ s.dev.start.porstLow = false :=
  ⟨wst (wdev [(DOF_STATUS, 3)]),
   calm_of_regs rfl (by decide +kernel), by decide +kernel⟩

theorem test_meets_jtag_commands_2 : ∃ (s : State),
    s.dev.calm ∧ s.dev.start.porstLow = false ∧ s.dev.dof.active = false :=
  ⟨wst wbase,
   calm_of_regs rfl (by decide +kernel), by decide +kernel⟩

theorem test_meets_jtag_commands_3 : ∃ (s : State),
    s.dev.calm ∧ s.dev.start.porstLow = false ∧ s.dev.dof.active = true :=
  ⟨wst { wdev [(DOF_UE, 5)] with dof := { wbase.dof with active := true, addr := 4 } },
   calm_of_regs rfl (by decide +kernel), by decide +kernel⟩

theorem test_meets_jtag_commands_3b : ∃ (s : State),
    s.dev.calm ∧ s.dev.start.porstLow = false ∧ s.dev.dof.active = true :=
  ⟨wst { wdev [(DOF_UE, 5), (EVT_IRQ_CFG, 9)] with dof := { wbase.dof with active := true, space := 2, addr := 0x8004 } },
   calm_of_regs rfl (by decide +kernel), by decide +kernel⟩

theorem test_meets_jtag_commands_4 : ∃ (s : State),
    s.dev.calm ∧ s.dev.start.porstLow = false ∧ s.dev.pathHeld .jtag = false :=
  ⟨wst (wdev [(NET_FLAGS, 0x3F)]),
   calm_of_regs rfl (by decide +kernel), by decide +kernel⟩

theorem test_meets_jtag_commands_4b : ∃ (s : State),
    s.dev.calm ∧ s.dev.start.porstLow = false ∧ s.dev.pathHeld .jtag = false :=
  ⟨wst (wdev [(NET_FLAGS, 0x3F)]),
   calm_of_regs rfl (by decide +kernel), by decide +kernel⟩

theorem test_meets_thermal_rounds_1 : ∃ (v : List Int) (mv : List Nat) (m : Int) (s : State),
    s.dev.calm ∧ s.dev.runs domAon = true ∧ v.length = 24 ∧ mv.length = 6 ∧ (∀ x ∈ v, -32768 ≤ x ∧ x ≤ 32767) ∧
    s.dev.reg THM_FAILED = 0 ∧ (∀ k, k < 24 → checkFails 0 (fun j => v.getD j 0) k = false) ∧
    m = v.foldl max (v.getD 0 0) :=
  ⟨[1600, 1610, 1600, 1610, 1600, 1610, 1605, 1612, 1605, 1612, 1605, 1612, 1601, 1607, 1601, 1607, 1601, 1607,
    1600, 1610, 1600, 1610, 1600, 1610],
   [850, 851, 852, 850, 70000, 800],
   1612,
   wst (wdev [(THM_WARN, 5440), (THM_THROTTLE, 6080)]),
   calm_of_regs rfl (by decide +kernel), by decide +kernel⟩

theorem test_meets_thermal_rounds_1b : ∃ (v : List Int) (mv : List Nat) (m : Int) (s : State),
    s.dev.calm ∧ s.dev.runs domAon = true ∧ v.length = 24 ∧ mv.length = 6 ∧ (∀ x ∈ v, -32768 ≤ x ∧ x ≤ 32767) ∧
    s.dev.reg THM_FAILED = 0 ∧ (∀ k, k < 24 → checkFails 0 (fun j => v.getD j 0) k = false) ∧
    m = v.foldl max (v.getD 0 0) :=
  ⟨[1600, 1610, 1600, 1610, 1600, 1610, 1605, 1612, 1605, 1612, 1605, 1612, 1601, 1607, 1601, 1607, 1601, 1607,
    1600, 1610, 1600, 1610, 1600, 1610],
   [850, 851, 852, 850, 70000, 800],
   1612,
   wst { wdev [(THM_WARN, 1500), (THM_THROTTLE, 1600)] with thm := { wbase.thm with warn := ⟨false, 3⟩, throttle := ⟨true, 2⟩, shutdown := ⟨false, 1⟩ } },
   calm_of_regs rfl (by decide +kernel), by decide +kernel⟩

theorem test_meets_thermal_rounds_2 : ∃ (s : State),
    s.dev.calm ∧ s.dev.runs domAon = true ∧ s.dev.thm.shut = true ∧ s.dev.thm.stopped = false :=
  ⟨wst { wbase with thm := { wbase.thm with shut := true } },
   calm_of_regs rfl (by decide +kernel), by decide +kernel⟩

theorem test_meets_thermal_rounds_3 : ∃ (s : State),
    s.dev.calm ∧ s.dev.runs domAon = true :=
  ⟨wst { wdev [(THM_FAILED, 0x3000F)] with thm := { wbase.thm with fails := Vector.replicate 24 2 } },
   calm_of_regs rfl (by decide +kernel), by decide +kernel⟩

theorem test_meets_clocks_and_doff_1 : ∃ (e : Fin 35) (s : State),
    s.dev.calm ∧ s.dev.runs domAon = true ∧ e.val ≠ 0 ∧ s.dev.live e.val = true :=
  ⟨16,
   wst wbase,
   calm_of_regs rfl (by decide +kernel), by decide +kernel⟩

theorem test_meets_clocks_and_doff_1b : ∃ (e : Fin 35) (s : State),
    s.dev.calm ∧ s.dev.runs domAon = true ∧ e.val ≠ 0 ∧ s.dev.live e.val = true :=
  ⟨1,
   wst wbase,
   calm_of_regs rfl (by decide +kernel), by decide +kernel⟩

theorem test_meets_clocks_and_doff_2 : ∃ (e : Fin 35) (s : State),
    s.dev.calm ∧ s.dev.runs domAon = true ∧ s.dev.live e.val = false ∧ s.dev.fabRuns = true ∧
    s.dev.thm.stopped = false ∧ s.dev.dof.frozen = false ∧ s.dev.mgm.held = [] ∧ s.dev.mgm.chain = [] :=
  ⟨17,
   wst wbase,
   calm_of_regs rfl (by decide +kernel), by decide +kernel⟩

theorem test_meets_clocks_and_doff_2b : ∃ (e : Fin 35) (s : State),
    s.dev.calm ∧ s.dev.runs domAon = true ∧ s.dev.live e.val = false ∧ s.dev.fabRuns = true ∧
    s.dev.thm.stopped = false ∧ s.dev.dof.frozen = false ∧ s.dev.mgm.held = [] ∧ s.dev.mgm.chain = [] :=
  ⟨5,
   wst (wdev [(CLK_LIVE, 0x1F)]),
   calm_of_regs rfl (by decide +kernel), by decide +kernel⟩

theorem test_meets_clocks_and_doff_3 : ∃ (p : Fin 5) (s : State),
    s.dev.calm ∧ s.dev.runs domAon = true ∧ bit (s.dev.reg CLK_PLL) p.val = true ∧ s.dev.fabRuns = true :=
  ⟨2,
   wst (wdev [(CLK_PLL, 0x1F)]),
   calm_of_regs rfl (by decide +kernel), by decide +kernel⟩

theorem test_meets_clocks_and_doff_4 : ∃ (s : State),
    s.dev.calm ∧ s.dev.runs domAon = true :=
  ⟨wst (wdev [(CLK_PLL, 0x3)]),
   calm_of_regs rfl (by decide +kernel), by decide +kernel⟩

theorem test_meets_clocks_and_doff_4b : ∃ (s : State),
    s.dev.calm ∧ s.dev.runs domAon = true :=
  ⟨wst (wdev [(CLK_PLL, 0x3)]),
   calm_of_regs rfl (by decide +kernel), by decide +kernel⟩

theorem test_meets_clocks_and_doff_5 : ∃ (t : DoffTrigger) (s : State),
    s.dev.calm ∧ s.dev.runs domAon = true ∧
    (t = .pin ∧ s.dev.on DOF_CTRL_PIN_EN = true ∨ t = .command 0xD0FF0001) ∧ s.dev.dof.active = false ∧
    s.dev.fabRuns = true ∧ s.dev.trdState ≠ 5 :=
  ⟨.pin,
   wst (wdev [(DOF_CTRL, 0x1)]),
   calm_of_regs rfl (by decide +kernel), by decide +kernel⟩

theorem test_meets_clocks_and_doff_5b : ∃ (t : DoffTrigger) (s : State),
    s.dev.calm ∧ s.dev.runs domAon = true ∧
    (t = .pin ∧ s.dev.on DOF_CTRL_PIN_EN = true ∨ t = .command 0xD0FF0001) ∧ s.dev.dof.active = false ∧
    s.dev.fabRuns = true ∧ s.dev.trdState ≠ 5 :=
  ⟨.command 0xD0FF0001,
   wst ((wdev [(TRD_STATE, 4), (EVT_FLT_LAST, 77)]).puts [(DEV_LC_IN_FORCE, 2)]),
   calm_of_regs rfl (by decide +kernel), by decide +kernel⟩

theorem test_meets_clocks_and_doff_6 : ∃ (s : State),
    s.dev.calm ∧ s.dev.runs domAon = true ∧ s.dev.dof.active = true ∧ s.dev.on DOF_CTRL_PIN_EN = true :=
  ⟨wst { wdev [(DOF_CTRL, 0x1)] with dof := { wbase.dof with active := true } },
   calm_of_regs rfl (by decide +kernel), by decide +kernel⟩

theorem test_meets_clocks_and_doff_7 : ∃ (s : State),
    s.dev.calm ∧ s.dev.runs domAon = true ∧ s.dev.dof.active = true ∧ s.dev.dof.frozen = false :=
  ⟨wst { wdev [(DOF_CTRL, 0x1)] with dof := { wbase.dof with active := true } },
   calm_of_regs rfl (by decide +kernel), by decide +kernel⟩

theorem test_meets_log_writing_1 : ∃ (rest : List LogRec) (s : State),
    s.dev.calm ∧ s.dev.runs domXspi = true ∧ s.dev.on WAL_CTRL_EN = true ∧ s.dev.wal.ready = false ∧
    s.dev.logSectors ≠ 0 ∧ s.dev.wal.staged = rest :=
  ⟨[],
   wst { wdev [(WAL_OP_TIME, 4), (DEV_RESET_CAUSE, 1)] with wal := { wbase.wal with staged := [] }, start := { wbase.start with flashSize := 0x2000000 } },
   calm_of_regs rfl (by decide +kernel), by decide +kernel⟩

theorem test_meets_log_writing_1b : ∃ (rest : List LogRec) (s : State),
    s.dev.calm ∧ s.dev.runs domXspi = true ∧ s.dev.on WAL_CTRL_EN = true ∧ s.dev.wal.ready = false ∧
    s.dev.logSectors ≠ 0 ∧ s.dev.wal.staged = rest :=
  ⟨[⟨9, 5, 6, 7, 1, 8, 0x77, 3, [11, 12], false⟩],
   wst { ((wdev [(WAL_RD_SEQ, 7), (WAL_LAST_SEQ, 7), (WAL_FIRST_SEQ, 7), (WAL_OP_TIME, 20)]).programFlash (sectorAddr 3) (sectorHead 4 7)).programFlash (sectorAddr 3 + 32) ((⟨9, 5, 6, 7, 1, 8, 0x77, 3, [11, 12], false⟩ : LogRec).bytes 7) with wal := { wbase.wal with staged := [⟨9, 5, 6, 7, 1, 8, 0x77, 3, [11, 12], false⟩] }, start := { wbase.start with flashSize := 0x2000000 } },
   calm_of_regs rfl (by decide +kernel), by decide +kernel⟩

theorem test_meets_log_writing_2 : ∃ (r : LogRec) (rest : List LogRec) (s : State),
    s.dev.calm ∧ s.dev.runs domXspi = true ∧ s.dev.wal.staged = r :: rest ∧ s.dev.wal.ready = true ∧
    s.dev.logHeld = false ∧ s.dev.wal.offset + r.len ≤ sectorSize ∧
    (∀ k, k < r.len → sget flashDefault s.dev.flash (sectorAddr s.dev.wal.sector + s.dev.wal.offset + k) = 0xFF) :=
  ⟨⟨9, 5, 6, 7, 1, 8, 0x77, 3, [11, 12], false⟩,
   [],
   wst { wdev [(WAL_LAST_SEQ, 0xFFFFFFFF)] with wal := { wbase.wal with ready := true, offset := 32, sector := 3, staged := [⟨9, 5, 6, 7, 1, 8, 0x77, 3, [11, 12], false⟩] } },
   calm_of_regs rfl (by decide +kernel), by decide +kernel⟩

theorem test_meets_log_writing_2b : ∃ (r : LogRec) (rest : List LogRec) (s : State),
    s.dev.calm ∧ s.dev.runs domXspi = true ∧ s.dev.wal.staged = r :: rest ∧ s.dev.wal.ready = true ∧
    s.dev.logHeld = false ∧ s.dev.wal.offset + r.len ≤ sectorSize ∧
    (∀ k, k < r.len → sget flashDefault s.dev.flash (sectorAddr s.dev.wal.sector + s.dev.wal.offset + k) = 0xFF) :=
  ⟨⟨5, 5, 6, 7, 1, 8, 0x77, 3, [11, 12], false⟩,
   [],
   wst { wdev [(WAL_LAST_SEQ, 8)] with wal := { wbase.wal with ready := true, offset := 100, sector := 3, fails := 2, staged := [⟨5, 5, 6, 7, 1, 8, 0x77, 3, [11, 12], false⟩] } },
   calm_of_regs rfl (by decide +kernel), by decide +kernel⟩

theorem test_meets_log_writing_3 : ∃ (r : LogRec) (rest : List LogRec) (s : State),
    s.dev.calm ∧ s.dev.runs domXspi = true ∧ s.dev.wal.staged = r :: rest ∧ s.dev.wal.ready = true ∧
    s.dev.logHeld = false ∧ s.dev.wal.offset + r.len > sectorSize ∧ s.dev.wal.nextErased = true ∧
    r.len + 32 ≤ sectorSize ∧
    (∀ k, k < r.len + 32 → sget flashDefault s.dev.flash (sectorAddr s.dev.nextSector + k) = 0xFF) :=
  ⟨⟨9, 5, 6, 7, 1, 8, 0x77, 3, [11, 12], false⟩,
   [],
   wst { wdev [(WAL_LAST_SEQ, 9)] with wal := { wbase.wal with ready := true, offset := 0x40000, sector := 63, nextErased := true, staged := [⟨9, 5, 6, 7, 1, 8, 0x77, 3, [11, 12], false⟩] }, start := { wbase.start with flashSize := 0x2000000 } },
   calm_of_regs rfl (by decide +kernel), by decide +kernel⟩

theorem test_meets_log_writing_4 : ∃ (s : State),
    s.dev.calm ∧ s.dev.runs domXspi = true ∧ s.dev.eraseDue = true ∧ s.dev.logHeld = false :=
  ⟨wst { ((wdev [(WAL_RD_SEQ, 7), (WAL_LAST_SEQ, 7), (WAL_FIRST_SEQ, 7), (WAL_OP_TIME, 20)]).programFlash (sectorAddr 3) (sectorHead 4 7)).programFlash (sectorAddr 3 + 32) ((⟨9, 5, 6, 7, 1, 8, 0x77, 3, [11, 12], false⟩ : LogRec).bytes 7) with wal := { wbase.wal with ready := true, offset := 0x20000, sector := 2 }, start := { wbase.start with flashSize := 0x2000000 } },
   calm_of_regs rfl (by decide +kernel), by decide +kernel⟩

theorem test_meets_log_writing_5 : ∃ (s : State),
    s.dev.calm ∧ s.dev.runs domXspi = true ∧ s.dev.wal.ready = true ∧ s.dev.logHeld = false ∧
    (s.dev.eraseDue = true ∨ s.dev.wal.staged ≠ []) :=
  ⟨wst { ((wdev [(WAL_RD_SEQ, 7), (WAL_LAST_SEQ, 7), (WAL_FIRST_SEQ, 7), (WAL_OP_TIME, 20)]).programFlash (sectorAddr 3) (sectorHead 4 7)).programFlash (sectorAddr 3 + 32) ((⟨9, 5, 6, 7, 1, 8, 0x77, 3, [11, 12], false⟩ : LogRec).bytes 7) with wal := { wbase.wal with ready := true, offset := 0x20000, sector := 2 }, start := { wbase.start with flashSize := 0x2000000 } },
   calm_of_regs rfl (by decide +kernel), by decide +kernel⟩

theorem test_meets_log_writing_5b : ∃ (s : State),
    s.dev.calm ∧ s.dev.runs domXspi = true ∧ s.dev.wal.ready = true ∧ s.dev.logHeld = false ∧
    (s.dev.eraseDue = true ∨ s.dev.wal.staged ≠ []) :=
  ⟨wst { wdev [(WAL_LAST_SEQ, 0xFFFFFFFF)] with wal := { wbase.wal with ready := true, offset := 32, sector := 3, fails := 2, staged := [⟨9, 5, 6, 7, 1, 8, 0x77, 3, [11, 12], false⟩] } },
   calm_of_regs rfl (by decide +kernel), by decide +kernel⟩

theorem test_meets_log_staging_and_load_1 : ∃ (c : Fin 3) (s : State),
    s.dev.calm ∧ s.dev.runs domFab = true ∧ c.val ≠ 1 ∧
    (c.val = 0 → s.dev.logReserve < stagedBytes s.dev.wal.staged ∨ s.dev.logCapacity < stagedBytes s.dev.wal.staged + 64) ∧
    (c.val = 2 → s.dev.wal.fails = 3 ∧ s.dev.logCapacity < stagedBytes s.dev.wal.staged + 64) ∧
    s.dev.on (EVT_CFG_LOG 241) = false :=
  ⟨0,
   wst { wdev [(WAL_RESERVE, 100), (EVT_CFG 241, 0)] with wal := { wbase.wal with staged := List.replicate 22 ⟨9, 5, 6, 7, 1, 8, 0x77, 3, [11, 12], false⟩ } },
   calm_of_regs rfl (by decide +kernel), by decide +kernel⟩

theorem test_meets_log_staging_and_load_1b : ∃ (c : Fin 3) (s : State),
    s.dev.calm ∧ s.dev.runs domFab = true ∧ c.val ≠ 1 ∧
    (c.val = 0 → s.dev.logReserve < stagedBytes s.dev.wal.staged ∨ s.dev.logCapacity < stagedBytes s.dev.wal.staged + 64) ∧
    (c.val = 2 → s.dev.wal.fails = 3 ∧ s.dev.logCapacity < stagedBytes s.dev.wal.staged + 64) ∧
    s.dev.on (EVT_CFG_LOG 241) = false :=
  ⟨2,
   wst { wdev [(EVT_CFG 241, 0)] with wal := { wbase.wal with fails := 3, lost := (1, 2, 3), dropRun := true, staged := List.replicate 32 ⟨9, 5, 6, 7, 1, 8, 0x77, 3, [11, 12], false⟩ } },
   calm_of_regs rfl (by decide +kernel), by decide +kernel⟩

theorem test_meets_log_staging_and_load_2 : ∃ (s : State),
    s.dev.calm ∧ s.dev.runs domFab = true ∧ s.dev.earlyLog = false ∧ s.dev.wal.staged ≠ [] ∧
    s.dev.wal.dropRun = true :=
  ⟨wst { wdev [(CRLB_CFG 68, 1), (CRLB_SIZE 68, 2048)] with wal := { wbase.wal with lost := (1, 2, 3), dropRun := true, staged := List.replicate 2 ⟨9, 5, 6, 7, 1, 8, 0x77, 3, [11, 12], false⟩ } },
   calm_of_regs rfl (by decide +kernel), by decide +kernel⟩

theorem test_meets_log_staging_and_load_3 : ∃ (s : State),
    s.dev.calm ∧ s.dev.runs domFab = true ∧ s.dev.get WAL_OP_INT_OP_INT ≠ 0 ∧
    s.dev.get WAL_OP_INT_OP_INT * 60 ≤ s.dev.wal.sinceHours ∧ s.dev.wal.lost = (0, 0, 0) ∧
    stagedBytes s.dev.wal.staged + 64 ≤ s.dev.logReserve ∧ stagedBytes s.dev.wal.staged + 64 ≤ s.dev.logCapacity :=
  ⟨wst { wdev [(WAL_OP_INT, 1), (WAL_OP_TIME, 77)] with wal := { wbase.wal with sinceHours := 70, staged := [⟨9, 5, 6, 7, 1, 8, 0x77, 3, [11, 12], false⟩] } },
   calm_of_regs rfl (by decide +kernel), by decide +kernel⟩

theorem test_meets_log_staging_and_load_4 : ∃ (a : Nat) (len : Nat) (n : Nat) (good : Bool) (s : State),
    s.dev.calm ∧ s.dev.runs domFab = true ∧ s.dev.wal.ready = true ∧
    s.dev.recordAt (s.dev.reg WAL_RD_SEQ) = some (a, len, n, good) :=
  ⟨0x10C0020,
   44,
   7,
   true,
   wst { ((wdev [(WAL_RD_SEQ, 7), (WAL_LAST_SEQ, 7), (WAL_FIRST_SEQ, 7), (WAL_OP_TIME, 20)]).programFlash (sectorAddr 3) (sectorHead 4 7)).programFlash (sectorAddr 3 + 32) ((⟨9, 5, 6, 7, 1, 8, 0x77, 3, [11, 12], false⟩ : LogRec).bytes 7) with wal := { wbase.wal with ready := true }, start := { wbase.start with flashSize := 0x2000000 } },
   calm_of_regs rfl (by decide +kernel), by decide +kernel⟩

theorem test_meets_log_staging_and_load_4b : ∃ (a : Nat) (len : Nat) (n : Nat) (good : Bool) (s : State),
    s.dev.calm ∧ s.dev.runs domFab = true ∧ s.dev.wal.ready = true ∧
    s.dev.recordAt (s.dev.reg WAL_RD_SEQ) = some (a, len, n, good) :=
  ⟨0x10C0020,
   44,
   7,
   true,
   wst { ((wdev [(WAL_RD_SEQ, 2), (WAL_LAST_SEQ, 7), (WAL_FIRST_SEQ, 7), (WAL_OP_TIME, 20)]).programFlash (sectorAddr 3) (sectorHead 4 7)).programFlash (sectorAddr 3 + 32) ((⟨9, 5, 6, 7, 1, 8, 0x77, 3, [11, 12], false⟩ : LogRec).bytes 7) with wal := { wbase.wal with ready := true }, start := { wbase.start with flashSize := 0x2000000 } },
   calm_of_regs rfl (by decide +kernel), by decide +kernel⟩

theorem test_meets_log_staging_and_load_5 : ∃ (s : State),
    s.dev.calm ∧ s.dev.runs domFab = true ∧
    (s.dev.wal.ready = true → s.dev.recordAt (s.dev.reg WAL_RD_SEQ) = none) :=
  ⟨wst { ((wdev [(WAL_RD_SEQ, 8), (WAL_LAST_SEQ, 7), (WAL_FIRST_SEQ, 7), (WAL_OP_TIME, 20)]).programFlash (sectorAddr 3) (sectorHead 4 7)).programFlash (sectorAddr 3 + 32) ((⟨9, 5, 6, 7, 1, 8, 0x77, 3, [11, 12], false⟩ : LogRec).bytes 7) with wal := { wbase.wal with ready := true }, start := { wbase.start with flashSize := 0x2000000 } },
   calm_of_regs rfl (by decide +kernel), by decide +kernel⟩

theorem test_meets_log_staging_and_load_5b : ∃ (s : State),
    s.dev.calm ∧ s.dev.runs domFab = true ∧
    (s.dev.wal.ready = true → s.dev.recordAt (s.dev.reg WAL_RD_SEQ) = none) :=
  ⟨wst wbase,
   calm_of_regs rfl (by decide +kernel), by decide +kernel⟩

theorem test_meets_log_requests_1 : ∃ (p : Port) (f : Frame) (rest : List Frame) (l : List FlashRec) (s : State),
    s.dev.calm ∧ s.dev.runs domFab = true ∧ (s.dev.cport p).rxQ = f :: rest ∧ f.kind = 4 ∧
    (s.dev.cport 0).sending.isSome = true ∧ (s.dev.cport 1).sending.isSome = true ∧ leAt f.payload 0 1 = 1 ∧
    s.dev.wal.ready = true ∧ s.dev.wal.read = none ∧
    seqLater (s.dev.reg WAL_FIRST_SEQ) (leAt f.payload 4 4) = false ∧
    (l = fillFrame (s.dev.reg WAL_LAST_SEQ) (s.dev.flashRecords.dropWhile fun (x : FlashRec) => seqLater (leAt f.payload 4 4) x.2.2.1) (leAt f.payload 8 4) 8184) ∧
    l.length = leAt f.payload 8 4 ∧ l ≠ [] :=
  ⟨0,
   ⟨.forwarded, 4, 4, 0, 0, 77, wordsBytes [1, 7, 1], .none⟩,
   [],
   [(0x10C0020, 44, 7, true)],
   wst { ((wdev [(NET_CTRL, 3), (NET_STATUS, 0x24), (CRLB_CFG 64, 1), (CRLB_SIZE 64, 32), (CRLB_WR 64, 1), (WAL_LAST_SEQ, 7), (WAL_FIRST_SEQ, 7)]).programFlash (sectorAddr 3) (sectorHead 4 7)).programFlash (sectorAddr 3 + 32) ((⟨9, 5, 6, 7, 1, 8, 0x77, 3, [11, 12], false⟩ : LogRec).bytes 7) with chain := { wbase.chain with ports := (vmod (vmod wbase.chain.ports (0 : Port) fun (x : ChainPort) => { x with sending := some ⟨.own, 2, 0, 1, 0, 7, [], .none⟩, rxQ := [⟨.forwarded, 4, 4, 0, 0, 77, wordsBytes [1, 7, 1], .none⟩] }) (1 : Port) fun (x : ChainPort) => { x with sending := some ⟨.own, 2, 0, 1, 0, 7, [], .none⟩ }) }, wal := { wbase.wal with ready := true }, start := { wbase.start with flashSize := 0x2000000 } },
   calm_of_regs rfl (by decide +kernel), by decide +kernel⟩

theorem test_meets_log_requests_2 : ∃ (p : Port) (f : Frame) (rest : List Frame) (s : State),
    s.dev.calm ∧ s.dev.runs domFab = true ∧ (s.dev.cport p).rxQ = f :: rest ∧ f.kind = 4 ∧
    (s.dev.cport 0).sending.isSome = true ∧ (s.dev.cport 1).sending.isSome = true ∧ leAt f.payload 0 1 = 2 ∧
    s.dev.wal.ready = true ∧ s.dev.wal.read.isSome = true :=
  ⟨0,
   ⟨.forwarded, 4, 4, 0, 0, 77, wordsBytes [2], .none⟩,
   [],
   wst { wdev [(NET_CTRL, 3), (NET_STATUS, 0x24), (CRLB_CFG 64, 1), (CRLB_SIZE 64, 32), (CRLB_WR 64, 1)] with chain := { wbase.chain with ports := (vmod (vmod wbase.chain.ports (0 : Port) fun (x : ChainPort) => { x with sending := some ⟨.own, 2, 0, 1, 0, 7, [], .none⟩, rxQ := [⟨.forwarded, 4, 4, 0, 0, 77, wordsBytes [2], .none⟩] }) (1 : Port) fun (x : ChainPort) => { x with sending := some ⟨.own, 2, 0, 1, 0, 7, [], .none⟩ }) }, wal := { wbase.wal with ready := true, read := some ⟨0, 5, 6, 7, none, false⟩ }, start := { wbase.start with flashSize := 0x2000000 } },
   calm_of_regs rfl (by decide +kernel), by decide +kernel⟩

theorem test_meets_log_requests_3 : ∃ (p : Port) (f : Frame) (rest : List Frame) (s : State),
    s.dev.calm ∧ s.dev.runs domFab = true ∧ (s.dev.cport p).rxQ = f :: rest ∧ f.kind = 4 ∧
    (s.dev.cport 0).sending.isSome = true ∧ (s.dev.cport 1).sending.isSome = true ∧ leAt f.payload 0 1 = 3 ∧
    s.dev.wal.ready = true :=
  ⟨0,
   ⟨.forwarded, 4, 4, 0, 0, 77, wordsBytes [3], .none⟩,
   [],
   wst { wdev [(NET_CTRL, 3), (NET_STATUS, 0x24), (CRLB_CFG 64, 1), (CRLB_SIZE 64, 32), (CRLB_WR 64, 1), (WAL_OP_TIME, 9)] with chain := { wbase.chain with ports := (vmod (vmod wbase.chain.ports (0 : Port) fun (x : ChainPort) => { x with sending := some ⟨.own, 2, 0, 1, 0, 7, [], .none⟩, rxQ := [⟨.forwarded, 4, 4, 0, 0, 77, wordsBytes [3], .none⟩] }) (1 : Port) fun (x : ChainPort) => { x with sending := some ⟨.own, 2, 0, 1, 0, 7, [], .none⟩ }) }, wal := { wbase.wal with ready := true }, start := { wbase.start with flashSize := 0x2000000 } },
   calm_of_regs rfl (by decide +kernel), by decide +kernel⟩

theorem test_meets_log_requests_4 : ∃ (p : Port) (f : Frame) (rest : List Frame) (s : State),
    s.dev.calm ∧ s.dev.runs domFab = true ∧ (s.dev.cport p).rxQ = f :: rest ∧ f.kind = 4 ∧
    (s.dev.cport 0).sending.isSome = true ∧ (s.dev.cport 1).sending.isSome = true ∧
    (leAt f.payload 0 1 = 0 ∨ 4 < leAt f.payload 0 1) :=
  ⟨0,
   ⟨.forwarded, 4, 4, 0, 0, 77, wordsBytes [9], .none⟩,
   [],
   wst { wdev [(NET_CTRL, 3), (NET_STATUS, 0x24), (CRLB_CFG 64, 1), (CRLB_SIZE 64, 32), (CRLB_WR 64, 1)] with chain := { wbase.chain with ports := (vmod (vmod wbase.chain.ports (0 : Port) fun (x : ChainPort) => { x with sending := some ⟨.own, 2, 0, 1, 0, 7, [], .none⟩, rxQ := [⟨.forwarded, 4, 4, 0, 0, 77, wordsBytes [9], .none⟩] }) (1 : Port) fun (x : ChainPort) => { x with sending := some ⟨.own, 2, 0, 1, 0, 7, [], .none⟩ }) }, wal := { wbase.wal with ready := true }, start := { wbase.start with flashSize := 0x2000000 } },
   calm_of_regs rfl (by decide +kernel), by decide +kernel⟩

theorem test_meets_log_requests_4b : ∃ (p : Port) (f : Frame) (rest : List Frame) (s : State),
    s.dev.calm ∧ s.dev.runs domFab = true ∧ (s.dev.cport p).rxQ = f :: rest ∧ f.kind = 4 ∧
    (s.dev.cport 0).sending.isSome = true ∧ (s.dev.cport 1).sending.isSome = true ∧
    (leAt f.payload 0 1 = 0 ∨ 4 < leAt f.payload 0 1) :=
  ⟨0,
   ⟨.forwarded, 4, 4, 0, 0, 77, wordsBytes [], .none⟩,
   [],
   wst { wdev [(NET_CTRL, 3), (NET_STATUS, 0x24), (CRLB_CFG 64, 1), (CRLB_SIZE 64, 32), (CRLB_WR 64, 1)] with chain := { wbase.chain with ports := (vmod (vmod wbase.chain.ports (0 : Port) fun (x : ChainPort) => { x with sending := some ⟨.own, 2, 0, 1, 0, 7, [], .none⟩, rxQ := [⟨.forwarded, 4, 4, 0, 0, 77, wordsBytes [], .none⟩] }) (1 : Port) fun (x : ChainPort) => { x with sending := some ⟨.own, 2, 0, 1, 0, 7, [], .none⟩ }) }, wal := { wbase.wal with ready := false }, start := { wbase.start with flashSize := 0x2000000 } },
   calm_of_regs rfl (by decide +kernel), by decide +kernel⟩

theorem test_meets_log_requests_5 : ∃ (p : Port) (f : Frame) (rest : List Frame) (s : State),
    s.dev.calm ∧ s.dev.runs domFab = true ∧ (s.dev.cport p).rxQ = f :: rest ∧ f.kind = 4 ∧
    (s.dev.cport 0).sending.isSome = true ∧ (s.dev.cport 1).sending.isSome = true ∧ s.dev.wal.ready = false ∧
    leAt f.payload 0 1 = 3 :=
  ⟨0,
   ⟨.forwarded, 4, 4, 0, 0, 77, wordsBytes [3], .none⟩,
   [],
   wst { wdev [(NET_CTRL, 3), (NET_STATUS, 0x24), (CRLB_CFG 64, 1), (CRLB_SIZE 64, 32), (CRLB_WR 64, 1)] with chain := { wbase.chain with ports := (vmod (vmod wbase.chain.ports (0 : Port) fun (x : ChainPort) => { x with sending := some ⟨.own, 2, 0, 1, 0, 7, [], .none⟩, rxQ := [⟨.forwarded, 4, 4, 0, 0, 77, wordsBytes [3], .none⟩] }) (1 : Port) fun (x : ChainPort) => { x with sending := some ⟨.own, 2, 0, 1, 0, 7, [], .none⟩ }) }, wal := { wbase.wal with ready := false }, start := { wbase.start with flashSize := 0x2000000 } },
   calm_of_regs rfl (by decide +kernel), by decide +kernel⟩

theorem test_meets_note_staged_1 : ∃ (p : Port) (f : Frame) (rest : List Frame) (w : List Nat) (s : State),
    s.dev.calm ∧ s.dev.runs domFab = true ∧ (s.dev.cport p).rxQ = f :: rest ∧ f.kind = 4 ∧
    (s.dev.cport 0).sending.isSome = true ∧ (s.dev.cport 1).sending.isSome = true ∧ leAt f.payload 0 1 = 4 ∧
    s.dev.wal.ready = true ∧ s.dev.on WAL_CTRL_NOTE_EN = true ∧ 1 ≤ w.length ∧ w.length ≤ 64 ∧
    bytesWords (f.payload.drop 8) = w ∧ s.dev.wal.lost = (0, 0, 0) ∧
    stagedBytes s.dev.wal.staged + 32 * w.length + 64 ≤ min s.dev.logReserve s.dev.logCapacity :=
  ⟨0,
   ⟨.forwarded, 4, 4, 0, 0, 77, wordsBytes [4, 0x99, 11, 12, 0x12345678], .none⟩,
   [],
   [11, 12, 0x12345678],
   wst { wdev [(NET_CTRL, 3), (NET_STATUS, 0x24), (CRLB_CFG 64, 1), (CRLB_SIZE 64, 32), (CRLB_WR 64, 1), (WAL_CTRL, 3), (WAL_OP_TIME, 9), (TRD_LAYER, 4)] with chain := { wbase.chain with ports := (vmod (vmod wbase.chain.ports (0 : Port) fun (x : ChainPort) => { x with sending := some ⟨.own, 2, 0, 1, 0, 7, [], .none⟩, rxQ := [⟨.forwarded, 4, 4, 0, 0, 77, wordsBytes [4, 0x99, 11, 12, 0x12345678], .none⟩] }) (1 : Port) fun (x : ChainPort) => { x with sending := some ⟨.own, 2, 0, 1, 0, 7, [], .none⟩ }) }, wal := { wbase.wal with ready := true, staged := [⟨9, 5, 6, 7, 1, 8, 0x77, 3, [11, 12], false⟩] }, start := { wbase.start with flashSize := 0x2000000 } },
   calm_of_regs rfl (by decide +kernel), by decide +kernel⟩

theorem test_meets_fault_handlers_1 : ∃ (h : Handler) (s : State),
    s.dev.calm ∧ s.dev.runs domFab = true ∧ s.dev.flt.running = some h ∧ h.sev < 2 :=
  ⟨⟨0x58, 1, 3, false, false, false⟩,
   wst { wdev [] with flt := { wbase.flt with running := some ⟨0x58, 1, 3, false, false, false⟩, queue := [⟨0x57, 1, 4, false, false, false⟩, ⟨0x56, 2, 5, false, false, false⟩] } },
   calm_of_regs rfl (by decide +kernel), by decide +kernel⟩

theorem test_meets_fault_handlers_1b : ∃ (h : Handler) (s : State),
    s.dev.calm ∧ s.dev.runs domFab = true ∧ s.dev.flt.running = some h ∧ h.sev < 2 :=
  ⟨⟨0x58, 1, 3, false, false, false⟩,
   wst { wdev [] with flt := { wbase.flt with running := some ⟨0x58, 1, 3, false, false, false⟩, suspended := [⟨0x57, 1, 4, false, false, false⟩], offered := [⟨0x56, 2, 5, false, false, false⟩] } },
   calm_of_regs rfl (by decide +kernel), by decide +kernel⟩

theorem test_meets_fault_handlers_2 : ∃ (h : Handler) (n : Station) (s : State),
    s.dev.calm ∧ s.dev.runs domFab = true ∧ s.dev.flt.running = some h ∧ h.sev = 2 ∧ h.inst = n.val ∧
    h.code ≠ 0x21 ∧ h.code ≠ 0x22 :=
  ⟨⟨0x58, 2, 3, false, false, false⟩,
   3,
   wst { wdev [] with flt := { wbase.flt with running := some ⟨0x58, 2, 3, false, false, false⟩ } },
   calm_of_regs rfl (by decide +kernel), by decide +kernel⟩

theorem test_meets_fault_handlers_2b : ∃ (h : Handler) (n : Station) (s : State),
    s.dev.calm ∧ s.dev.runs domFab = true ∧ s.dev.flt.running = some h ∧ h.sev = 2 ∧ h.inst = n.val ∧
    h.code ≠ 0x21 ∧ h.code ≠ 0x22 :=
  ⟨⟨0x4D, 2, 3, false, false, false⟩,
   3,
   wst { wdev [(EVT_FLT_RETIRED, 8)] with flt := { wbase.flt with running := some ⟨0x4D, 2, 3, false, false, false⟩ } },
   calm_of_regs rfl (by decide +kernel), by decide +kernel⟩

theorem test_meets_fault_handlers_3 : ∃ (h : Handler) (s : State),
    s.dev.calm ∧ s.dev.runs domFab = true ∧ s.dev.flt.running = some h ∧ h.sev = 3 ∧ s.dev.trdState ≠ 8 ∧
    s.dev.shadow = [] :=
  ⟨⟨0x83, 3, 0xFF, false, false, false⟩,
   wst { wdev [(TRD_STATE, 5)] with flt := { wbase.flt with running := some ⟨0x83, 3, 0xFF, false, false, false⟩, queue := [⟨0x57, 1, 4, false, false, false⟩] } },
   calm_of_regs rfl (by decide +kernel), by decide +kernel⟩

theorem test_meets_fault_handlers_3b : ∃ (h : Handler) (s : State),
    s.dev.calm ∧ s.dev.runs domFab = true ∧ s.dev.flt.running = some h ∧ h.sev = 3 ∧ s.dev.trdState ≠ 8 ∧
    s.dev.shadow = [] :=
  ⟨⟨0x20, 3, 0xFF, false, false, false⟩,
   wst { wdev [] with flt := { wbase.flt with running := some ⟨0x20, 3, 0xFF, false, false, false⟩ } },
   calm_of_regs rfl (by decide +kernel), by decide +kernel⟩

theorem test_meets_fault_handlers_4 : ∃ (u : Fin 19) (rec : Recovery) (s : State),
    s.dev.calm ∧ s.dev.runs domFab = true ∧ vat s.dev.flt.recovery u = some rec ∧
    rec.since + max 1 (s.dev.reg EVT_FLT_RECOVER_TMO % 65536) * 2000 ≤ s.dev.grid.ticks :=
  ⟨3,
   ⟨0x58, 3, 0⟩,
   wst { wdev [] with flt := { wbase.flt with recovery := vput wbase.flt.recovery 3 (some ⟨0x58, 3, 0⟩) }, grid := { wbase.grid with ticks := 0xFFFFFFF } },
   calm_of_regs rfl (by decide +kernel), by decide +kernel⟩

theorem test_meets_fault_handlers_4b : ∃ (u : Fin 19) (rec : Recovery) (s : State),
    s.dev.calm ∧ s.dev.runs domFab = true ∧ vat s.dev.flt.recovery u = some rec ∧
    rec.since + max 1 (s.dev.reg EVT_FLT_RECOVER_TMO % 65536) * 2000 ≤ s.dev.grid.ticks :=
  ⟨16,
   ⟨0x22, 16, 0⟩,
   wst { wdev [] with flt := { wbase.flt with recovery := vput wbase.flt.recovery 16 (some ⟨0x22, 16, 0⟩), running := some ⟨0x58, 2, 3, false, false, false⟩ }, grid := { wbase.grid with ticks := 0xFFFFFFF } },
   calm_of_regs rfl (by decide +kernel), by decide +kernel⟩

theorem test_meets_fault_handlers_5 : ∃ (w : Word) (s : State),
    s.dev.calm ∧ s.dev.runs domFab = true ∧ w.toNat / 65536 = 0xFA17 :=
  ⟨0xFA170001,
   wst { wdev [(EVT_FLT_ARG, 0x8008)] with flt := { wbase.flt with gateOpen := false } },
   calm_of_regs rfl (by decide +kernel), by decide +kernel⟩

theorem test_meets_fault_handlers_5b : ∃ (w : Word) (s : State),
    s.dev.calm ∧ s.dev.runs domFab = true ∧ w.toNat / 65536 = 0xFA17 :=
  ⟨0xFA170000,
   wst { wdev [(EVT_FLT_ARG, 0x7FFFF), (EVT_FLT_RETIRED, 8)] with flt := { wbase.flt with gateOpen := false } },
   calm_of_regs rfl (by decide +kernel), by decide +kernel⟩

theorem test_meets_fault_handlers_6 : ∃ (w : Word) (s : State),
    s.dev.calm ∧ s.dev.runs domFab = true ∧ w.toNat / 65536 = 0xFA17 ∧ s.dev.trdStage ≠ tScan :=
  ⟨0xFA170001,
   wst { wdev [(EVT_FLT_ARG, 0x78008), (EVT_FLT_RETIRED, 0x5000F), (EVT_FLT_RETRIES 3, 5)] with flt := { wbase.flt with retries := Vector.replicate 19 [7, 8] } },
   calm_of_regs rfl (by decide +kernel), by decide +kernel⟩

theorem test_meets_fault_handlers_7 : ∃ (w : Word) (s : State),
    s.dev.calm ∧ s.dev.runs domFab = true ∧ w.toNat / 65536 = 0xFA17 :=
  ⟨0xFA170001,
   wst { (wdev [(TRD_LAYER, 5)]).puts [(EVT_FLT_STATUS_HALTED, 1), (LNK_STATUS_S_PLL_LOCK, 1), (DRC_STATUS_TRAINED0, 1), (DRC_STATUS_TRAINED1, 1)] with flt := { wbase.flt with gateOpen := false } },
   calm_of_regs rfl (by decide +kernel), by decide +kernel⟩

theorem test_meets_fault_handlers_7b : ∃ (w : Word) (s : State),
    s.dev.calm ∧ s.dev.runs domFab = true ∧ w.toNat / 65536 = 0xFA17 :=
  ⟨0xFA170001,
   wst { wdev [] with flt := { wbase.flt with haltUntilReset := true } },
   calm_of_regs rfl (by decide +kernel), by decide +kernel⟩

theorem test_meets_fault_handlers_8 : ∃ (s : State),
    s.dev.calm ∧ s.dev.runs domFab = true :=
  ⟨wst (wdev [(EVT_PEND 0, 0xFFFF)]),
   calm_of_regs rfl (by decide +kernel), by decide +kernel⟩

theorem test_meets_emission_gate_1 : ∃ (s : State),
    s.dev.calm ∧ s.dev.runs domAon = true ∧ s.dev.runs domFab = true ∧ s.dev.on EVT_FLT_GATE_PIN_LOW = false :=
  ⟨wst { wdev [] with flt := { wbase.flt with gateOpen := true } },
   calm_of_regs rfl (by decide +kernel), by decide +kernel⟩

theorem test_meets_emission_gate_1b : ∃ (s : State),
    s.dev.calm ∧ s.dev.runs domAon = true ∧ s.dev.runs domFab = true ∧ s.dev.on EVT_FLT_GATE_PIN_LOW = false :=
  ⟨wst { wdev [(TRD_STATE, 5), (NETT_CTRL 0, 1)] with flt := { wbase.flt with gateOpen := true, gateHigh := some 5 } },
   calm_of_regs rfl (by decide +kernel), by decide +kernel⟩

theorem test_meets_emission_gate_2 : ∃ (w : Word) (s : State),
    s.dev.calm ∧ s.dev.runs domAon = true ∧ s.dev.runs domFab = true ∧ s.dev.on EVT_FLT_GATE_SW_GATE = false ∧
    bit w.toNat 0 = true :=
  ⟨1,
   wst { wdev [] with flt := { wbase.flt with gateOpen := true } },
   calm_of_regs rfl (by decide +kernel), by decide +kernel⟩

theorem test_meets_emission_gate_2b : ∃ (w : Word) (s : State),
    s.dev.calm ∧ s.dev.runs domAon = true ∧ s.dev.runs domFab = true ∧ s.dev.on EVT_FLT_GATE_SW_GATE = false ∧
    bit w.toNat 0 = true :=
  ⟨1,
   wst { wdev [(TRD_STATE, 5), (NETT_CTRL 0, 1), (EVT_FLT_GATE, 2)] with flt := { wbase.flt with gateOpen := true, gateHigh := some 5 } },
   calm_of_regs rfl (by decide +kernel), by decide +kernel⟩

theorem test_meets_emission_gate_3 : ∃ (s : State),
    s.dev.calm ∧ s.dev.runs domAon = true ∧ s.dev.runs domFab = true ∧ s.dev.on EVT_FLT_GATE_PIN_LOW = true :=
  ⟨wst { (wdev [(NETT_CTRL 0, 1)]).puts [(EVT_FLT_GATE_PIN_LOW, 1)] with flt := { wbase.flt with gateOpen := false } },
   calm_of_regs rfl (by decide +kernel), by decide +kernel⟩

theorem test_meets_emission_gate_3b : ∃ (s : State),
    s.dev.calm ∧ s.dev.runs domAon = true ∧ s.dev.runs domFab = true ∧ s.dev.on EVT_FLT_GATE_PIN_LOW = true :=
  ⟨wst (wput [(EVT_FLT_GATE_PIN_LOW, 1), (EVT_FLT_GATE_SW_GATE, 1)]),
   calm_of_regs rfl (by decide +kernel), by decide +kernel⟩

theorem test_meets_emission_gate_4 : ∃ (w : Word) (s : State),
    s.dev.calm ∧ s.dev.runs domAon = true ∧ s.dev.runs domFab = true ∧ s.dev.on EVT_FLT_GATE_SW_GATE = true ∧
    bit w.toNat 0 = false :=
  ⟨2,
   wst (wput [(EVT_FLT_GATE_SW_GATE, 1), (NETT_CTRL_EN 0, 1)]),
   calm_of_regs rfl (by decide +kernel), by decide +kernel⟩

theorem test_meets_emission_gate_4b : ∃ (w : Word) (s : State),
    s.dev.calm ∧ s.dev.runs domAon = true ∧ s.dev.runs domFab = true ∧ s.dev.on EVT_FLT_GATE_SW_GATE = true ∧
    bit w.toNat 0 = false :=
  ⟨2,
   wst (wput [(EVT_FLT_GATE_PIN_LOW, 1), (EVT_FLT_GATE_SW_GATE, 1)]),
   calm_of_regs rfl (by decide +kernel), by decide +kernel⟩

theorem test_meets_emission_gate_5 : ∃ (s : State),
    s.dev.calm ∧ s.dev.runs domAon = true ∧ s.dev.runs domFab = true ∧ s.dev.on EVT_FLT_GATE_PIN_LOW = false ∧
    s.dev.on EVT_FLT_GATE_SW_GATE = false ∧ s.dev.on (NETT_CTRL_EN 0) = true ∧ s.dev.t0.tick % 4 = 0 :=
  ⟨wst { wdev [(NETT_CTRL 0, 1)] with bases := vmod wbase.bases 0 (fun (x : TimeBase) => { x with now := ⟨1, 2000, 0⟩ }), flt := { wbase.flt with gateHigh := some (1000001000) } },
   calm_of_regs rfl (by decide +kernel), by decide +kernel⟩

theorem test_meets_emission_gate_5b : ∃ (s : State),
    s.dev.calm ∧ s.dev.runs domAon = true ∧ s.dev.runs domFab = true ∧ s.dev.on EVT_FLT_GATE_PIN_LOW = false ∧
    s.dev.on EVT_FLT_GATE_SW_GATE = false ∧ s.dev.on (NETT_CTRL_EN 0) = true ∧ s.dev.t0.tick % 4 = 0 :=
  ⟨wst { wdev [(NETT_CTRL 0, 1)] with flt := { wbase.flt with gateHigh := some 5 } },
   calm_of_regs rfl (by decide +kernel), by decide +kernel⟩

theorem test_meets_layer_files_1 : ∃ (p : Port) (f : Frame) (rest : List Frame) (i : Slot) (data : List Byte) (x : LayerSlot) (s : State),
    s.dev.calm ∧ s.dev.runs domFab = true ∧ s.dev.shadow = [] ∧ s.dev.sec.waiting = none ∧
    (s.dev.cport p).rxQ = f :: rest ∧ f.kind = 2 ∧ s.dev.on TRD_CTRL_ENABLE = true ∧
    s.dev.get DEV_STATE_STATE ≠ 7 ∧ leAt f.payload 0 1 = 0x10 ∧ data = f.payload.drop 16 ∧ 128 ≤ data.length ∧
    leAt f.payload 12 4 = 0 ∧
    (∀ j : Slot, ¬ (s.dev.slotState j = 1 ∧ (vat s.dev.trd.slots j).jobId = leAt f.payload 4 4 ∧ (vat s.dev.trd.slots j).layerNo = leAt f.payload 8 4)) ∧
    s.dev.slotState i = 0 ∧ (∀ j : Slot, j < i → s.dev.slotState j ≠ 0) ∧
    x = { LayerSlot.reset with jobId := leAt data 8 4, layerNo := leAt data 12 4, header := data.take 128 } ∧
    (takeFrame p s.dev).headerFault x (leAt f.payload 4 4) (leAt f.payload 8 4) = none :=
  ⟨0,
   ⟨.forwarded, 2, 4, 0, 0, 77, wordsBytes [0x10, 7, 3, 0] ++ (wHeader 7 3 0 0 ++ List.replicate 100 0), .none⟩,
   [],
   0,
   (wHeader 7 3 0 0 ++ List.replicate 100 0),
   { LayerSlot.reset with jobId := 7, layerNo := 3, header := wHeader 7 3 0 0 },
   wst (wMsg 2 [0x10, 7, 3, 0] (wHeader 7 3 0 0 ++ List.replicate 100 0) (wjob [])),
   calm_of_regs rfl (by decide +kernel), by decide +kernel⟩

theorem test_meets_layer_files_1b : ∃ (p : Port) (f : Frame) (rest : List Frame) (i : Slot) (data : List Byte) (x : LayerSlot) (s : State),
    s.dev.calm ∧ s.dev.runs domFab = true ∧ s.dev.shadow = [] ∧ s.dev.sec.waiting = none ∧
    (s.dev.cport p).rxQ = f :: rest ∧ f.kind = 2 ∧ s.dev.on TRD_CTRL_ENABLE = true ∧
    s.dev.get DEV_STATE_STATE ≠ 7 ∧ leAt f.payload 0 1 = 0x10 ∧ data = f.payload.drop 16 ∧ 128 ≤ data.length ∧
    leAt f.payload 12 4 = 0 ∧
    (∀ j : Slot, ¬ (s.dev.slotState j = 1 ∧ (vat s.dev.trd.slots j).jobId = leAt f.payload 4 4 ∧ (vat s.dev.trd.slots j).layerNo = leAt f.payload 8 4)) ∧
    s.dev.slotState i = 0 ∧ (∀ j : Slot, j < i → s.dev.slotState j ≠ 0) ∧
    x = { LayerSlot.reset with jobId := leAt data 8 4, layerNo := leAt data 12 4, header := data.take 128 } ∧
    (takeFrame p s.dev).headerFault x (leAt f.payload 4 4) (leAt f.payload 8 4) = none :=
  ⟨0,
   ⟨.forwarded, 2, 4, 0, 0, 77, wordsBytes [0x10, 7, 3, 0] ++ (wHeader 7 3 5 2000), .none⟩,
   [],
   1,
   (wHeader 7 3 5 2000),
   { LayerSlot.reset with jobId := 7, layerNo := 3, header := wHeader 7 3 5 2000 },
   wst (wslot 0 3 (fun (x : LayerSlot) => { x with jobId := 7, layerNo := 2 }) ({ (wMsg 2 [0x10, 7, 3, 0] (wHeader 7 3 5 2000) (wjob [])) with trd := { wbase.trd with job := 7, lastActive := some 1 } })),
   calm_of_regs rfl (by decide +kernel), by decide +kernel⟩

theorem test_meets_layer_files_2 : ∃ (p : Port) (f : Frame) (rest : List Frame) (i : Slot) (data : List Byte) (x : LayerSlot) (s : State),
    s.dev.calm ∧ s.dev.runs domFab = true ∧ s.dev.shadow = [] ∧ s.dev.sec.waiting = none ∧
    (s.dev.cport p).rxQ = f :: rest ∧ f.kind = 2 ∧ s.dev.on TRD_CTRL_ENABLE = true ∧
    s.dev.get DEV_STATE_STATE ≠ 7 ∧ leAt f.payload 0 1 = 0x10 ∧ data = f.payload.drop 16 ∧ s.dev.slotState i = 1 ∧
    (vat s.dev.trd.slots i).jobId = leAt f.payload 4 4 ∧ (vat s.dev.trd.slots i).layerNo = leAt f.payload 8 4 ∧
    (vat s.dev.trd.slots i).next = leAt f.payload 12 4 ∧
    (∀ j : Slot, j < i → ¬ (s.dev.slotState j = 1 ∧ (vat s.dev.trd.slots j).jobId = leAt f.payload 4 4 ∧ (vat s.dev.trd.slots j).layerNo = leAt f.payload 8 4)) ∧
    x = vat s.dev.trd.slots i :=
  ⟨0,
   ⟨.forwarded, 2, 4, 0, 0, 77, wordsBytes [0x10, 7, 3, 228] ++ (List.replicate 476 1), .none⟩,
   [],
   0,
   (List.replicate 476 1),
   { LayerSlot.reset with jobId := 7, layerNo := 3, header := wHeader 7 3 0 0, next := 228, cipher := List.replicate 100 0 },
   wst (wslot 0 1 (fun (x : LayerSlot) => { x with jobId := 7, layerNo := 3, header := wHeader 7 3 0 0, next := 228, cipher := List.replicate 100 0 }) (wMsg 2 [0x10, 7, 3, 228] (List.replicate 476 1) (wjob []))),
   calm_of_regs rfl (by decide +kernel), by decide +kernel⟩

theorem test_meets_layer_files_2b : ∃ (p : Port) (f : Frame) (rest : List Frame) (i : Slot) (data : List Byte) (x : LayerSlot) (s : State),
    s.dev.calm ∧ s.dev.runs domFab = true ∧ s.dev.shadow = [] ∧ s.dev.sec.waiting = none ∧
    (s.dev.cport p).rxQ = f :: rest ∧ f.kind = 2 ∧ s.dev.on TRD_CTRL_ENABLE = true ∧
    s.dev.get DEV_STATE_STATE ≠ 7 ∧ leAt f.payload 0 1 = 0x10 ∧ data = f.payload.drop 16 ∧ s.dev.slotState i = 1 ∧
    (vat s.dev.trd.slots i).jobId = leAt f.payload 4 4 ∧ (vat s.dev.trd.slots i).layerNo = leAt f.payload 8 4 ∧
    (vat s.dev.trd.slots i).next = leAt f.payload 12 4 ∧
    (∀ j : Slot, j < i → ¬ (s.dev.slotState j = 1 ∧ (vat s.dev.trd.slots j).jobId = leAt f.payload 4 4 ∧ (vat s.dev.trd.slots j).layerNo = leAt f.payload 8 4)) ∧
    x = vat s.dev.trd.slots i :=
  ⟨0,
   ⟨.forwarded, 2, 4, 0, 0, 77, wordsBytes [0x10, 7, 3, 700] ++ ([1, 2, 3, 4, 5, 6, 7]), .none⟩,
   [],
   0,
   [1, 2, 3, 4, 5, 6, 7],
   { LayerSlot.reset with jobId := 7, layerNo := 3, header := wHeader 7 3 0 0, next := 700 },
   wst (wslot 0 1 (fun (x : LayerSlot) => { x with jobId := 7, layerNo := 3, header := wHeader 7 3 0 0, next := 700 }) (wMsg 2 [0x10, 7, 3, 700] ([1, 2, 3, 4, 5, 6, 7]) (wjob []))),
   calm_of_regs rfl (by decide +kernel), by decide +kernel⟩

theorem test_meets_layer_files_3 : ∃ (i : Slot) (data : List Byte) (x : LayerSlot) (s : State),
    s.dev.calm ∧ x = vat s.dev.trd.slots i ∧
    gcmTag data ((x.header.drop 0x20).take 12) x.header (x.cipher.take x.bodyLen) = x.cipher.drop x.bodyLen ∧
    (∀ n, n < 17 → listOk x.zones x.targetCount n ((bodyLists x (gcmPlain data ((x.header.drop 0x20).take 12) (x.cipher.take x.bodyLen))).1.getD n []) = true) ∧
    s.dev.runs domFab = true ∧ s.dev.shadow = [] ∧ s.dev.sec.waiting = none ∧ s.dev.slotState i = 1 ∧
    x.fileLen ≤ x.next ∧ vat s.dev.sec.keys ⟨x.keySlot % 16, Nat.mod_lt _ (by decide)⟩ = some data ∧
    s.dev.lastNonce x < x.nonce :=
  ⟨0,
   wKey,
   { LayerSlot.reset with jobId := 7, layerNo := 3, header := wHeader 7 3 0 0, cipher := wCipher, next := 704 },
   wst { wslot 0 1 (fun (x : LayerSlot) => { x with jobId := 7, layerNo := 3, header := wHeader 7 3 0 0, cipher := wCipher, next := 704 }) (wjob []) with sec := { wbase.sec with keys := vput wbase.sec.keys 0 (some wKey) } },
   calm_of_regs rfl (by decide +kernel), rfl, wSlot_tag _ rfl rfl, wSlot_lists _ rfl rfl (by decide +kernel), by decide +kernel⟩

theorem test_meets_layer_files_3b : ∃ (i : Slot) (data : List Byte) (x : LayerSlot) (s : State),
    s.dev.calm ∧ x = vat s.dev.trd.slots i ∧
    gcmTag data ((x.header.drop 0x20).take 12) x.header (x.cipher.take x.bodyLen) = x.cipher.drop x.bodyLen ∧
    (∀ n, n < 17 → listOk x.zones x.targetCount n ((bodyLists x (gcmPlain data ((x.header.drop 0x20).take 12) (x.cipher.take x.bodyLen))).1.getD n []) = true) ∧
    s.dev.runs domFab = true ∧ s.dev.shadow = [] ∧ s.dev.sec.waiting = none ∧ s.dev.slotState i = 1 ∧
    x.fileLen ≤ x.next ∧ vat s.dev.sec.keys ⟨x.keySlot % 16, Nat.mod_lt _ (by decide)⟩ = some data ∧
    s.dev.lastNonce x < x.nonce :=
  ⟨0,
   wKey,
   { LayerSlot.reset with jobId := 7, layerNo := 3, header := wHeader 7 3 0 0, cipher := wCipher, next := 704, start := some (5, 2000) },
   wst { wslot 0 1 (fun (x : LayerSlot) => { x with jobId := 7, layerNo := 3, header := wHeader 7 3 0 0, cipher := wCipher, next := 704, start := some (5, 2000) }) (wjob []) with sec := { wbase.sec with keys := vput wbase.sec.keys 0 (some wKey) } },
   calm_of_regs rfl (by decide +kernel), rfl, wSlot_tag _ rfl rfl, wSlot_lists _ rfl rfl (by decide +kernel), by decide +kernel⟩

theorem test_meets_layer_files_4 : ∃ (p : Port) (f : Frame) (rest : List Frame) (s : State),
    s.dev.calm ∧ s.dev.runs domFab = true ∧ s.dev.shadow = [] ∧ s.dev.sec.waiting = none ∧
    (s.dev.cport p).rxQ = f :: rest ∧ f.kind = 2 ∧ s.dev.on TRD_CTRL_ENABLE = true ∧
    s.dev.get DEV_STATE_STATE ≠ 7 ∧
    leAt f.payload 0 1 ∉ [0x10, 0x11, 0x12, 0x13, 0x14, 0x15, 0x16, 0x20, 0x21, 0x22, 0x23] :=
  ⟨0,
   ⟨.forwarded, 2, 4, 0, 0, 77, wordsBytes [0x55, 1] ++ ([]), .none⟩,
   [],
   wst (wMsg 2 [0x55, 1] ([]) (wjob [(TRD_BAD_MSG, 8)])),
   calm_of_regs rfl (by decide +kernel), by decide +kernel⟩

theorem test_meets_layer_files_5 : ∃ (p : Port) (f : Frame) (rest : List Frame) (i : Slot) (s : State),
    s.dev.calm ∧ s.dev.runs domFab = true ∧ s.dev.shadow = [] ∧ s.dev.sec.waiting = none ∧
    (s.dev.cport p).rxQ = f :: rest ∧ f.kind = 2 ∧ s.dev.on TRD_CTRL_ENABLE = true ∧
    s.dev.get DEV_STATE_STATE ≠ 7 ∧ leAt f.payload 0 1 = 0x16 ∧
    s.dev.layerSlot (leAt f.payload 4 4) (leAt f.payload 8 4) = some i ∧ s.dev.slotState i ≠ 5 :=
  ⟨0,
   ⟨.forwarded, 2, 4, 0, 0, 77, wordsBytes [0x16, 7, 3] ++ ([]), .none⟩,
   [],
   0,
   wst (wslot 0 1 (fun (x : LayerSlot) => { x with jobId := 7, layerNo := 3, header := wHeader 7 3 0 0, start := some (5, 0) }) (wMsg 2 [0x16, 7, 3] ([]) (wjob []))),
   calm_of_regs rfl (by decide +kernel), by decide +kernel⟩

theorem test_meets_layer_files_5b : ∃ (p : Port) (f : Frame) (rest : List Frame) (i : Slot) (s : State),
    s.dev.calm ∧ s.dev.runs domFab = true ∧ s.dev.shadow = [] ∧ s.dev.sec.waiting = none ∧
    (s.dev.cport p).rxQ = f :: rest ∧ f.kind = 2 ∧ s.dev.on TRD_CTRL_ENABLE = true ∧
    s.dev.get DEV_STATE_STATE ≠ 7 ∧ leAt f.payload 0 1 = 0x16 ∧
    s.dev.layerSlot (leAt f.payload 4 4) (leAt f.payload 8 4) = some i ∧ s.dev.slotState i ≠ 5 :=
  ⟨0,
   ⟨.forwarded, 2, 4, 0, 0, 77, wordsBytes [0x16, 7, 3] ++ ([]), .none⟩,
   [],
   0,
   wst (wslot 0 3 (fun (x : LayerSlot) => { x with jobId := 7, layerNo := 3, header := wHeader 7 3 0 0, start := some (5, 0) }) (wMsg 2 [0x16, 7, 3] ([]) (wjob []))),
   calm_of_regs rfl (by decide +kernel), by decide +kernel⟩

theorem test_meets_layer_files_6 : ∃ (i : Slot) (s : State),
    s.dev.calm ∧ s.dev.runs domFab = true ∧ s.dev.shadow = [] ∧ s.dev.sec.waiting = none ∧ s.dev.slotState i = 6 :=
  ⟨0,
   wst ((wslot 0 6 (fun (x : LayerSlot) => { x with jobId := 7, layerNo := 3, header := wHeader 7 3 0 0 }) (wjob [])).setDramBytes 0x10000000 [1, 2, 3]),
   calm_of_regs rfl (by decide +kernel), by decide +kernel⟩

theorem test_meets_start_times_1 : ∃ (p : Port) (f : Frame) (rest : List Frame) (i : Slot) (s : State),
    s.dev.calm ∧ s.dev.runs domFab = true ∧ s.dev.sec.waiting = none ∧ (s.dev.cport p).rxQ = f :: rest ∧
    f.kind = 2 ∧ s.dev.on TRD_CTRL_ENABLE = true ∧ s.dev.get DEV_STATE_STATE ≠ 7 ∧ leAt f.payload 0 1 = 0x11 ∧
    s.dev.layerSlot (leAt f.payload 4 4) (leAt f.payload 8 4) = some i ∧ leAt f.payload 12 4 % 2000 ≠ 0 :=
  ⟨0,
   ⟨.forwarded, 2, 4, 0, 0, 77, wordsBytes [0x11, 7, 3, 500, 9, 0] ++ ([]), .none⟩,
   [],
   0,
   wst (wslot 0 1 (fun (x : LayerSlot) => { x with jobId := 7, layerNo := 3, header := wHeader 7 3 0 0 }) (wMsg 2 [0x11, 7, 3, 500, 9, 0] ([]) (wjob []))),
   calm_of_regs rfl (by decide +kernel), by decide +kernel⟩

theorem test_meets_start_times_1b : ∃ (p : Port) (f : Frame) (rest : List Frame) (i : Slot) (s : State),
    s.dev.calm ∧ s.dev.runs domFab = true ∧ s.dev.sec.waiting = none ∧ (s.dev.cport p).rxQ = f :: rest ∧
    f.kind = 2 ∧ s.dev.on TRD_CTRL_ENABLE = true ∧ s.dev.get DEV_STATE_STATE ≠ 7 ∧ leAt f.payload 0 1 = 0x11 ∧
    s.dev.layerSlot (leAt f.payload 4 4) (leAt f.payload 8 4) = some i ∧ leAt f.payload 12 4 % 2000 ≠ 0 :=
  ⟨0,
   ⟨.forwarded, 2, 4, 0, 0, 77, wordsBytes [0x11, 7, 3, 500, 9, 0] ++ ([]), .none⟩,
   [],
   0,
   wst (wslot 0 2 (fun (x : LayerSlot) => { x with jobId := 7, layerNo := 3, header := wHeader 7 3 0 0 }) (wMsg 2 [0x11, 7, 3, 500, 9, 0] ([]) (wjob []))),
   calm_of_regs rfl (by decide +kernel), by decide +kernel⟩

theorem test_meets_start_times_2 : ∃ (p : Port) (f : Frame) (rest : List Frame) (i : Slot) (s : State),
    s.dev.calm ∧ s.dev.runs domFab = true ∧ s.dev.sec.waiting = none ∧ (s.dev.cport p).rxQ = f :: rest ∧
    f.kind = 2 ∧ s.dev.on TRD_CTRL_ENABLE = true ∧ s.dev.get DEV_STATE_STATE ≠ 7 ∧ leAt f.payload 0 1 = 0x11 ∧
    s.dev.layerSlot (leAt f.payload 4 4) (leAt f.payload 8 4) = some i :=
  ⟨0,
   ⟨.forwarded, 2, 4, 0, 0, 77, wordsBytes [0x11, 7, 3, 2000, 9, 0] ++ ([]), .none⟩,
   [],
   0,
   wst (wslot 0 1 (fun (x : LayerSlot) => { x with jobId := 7, layerNo := 3, header := wHeader 7 3 0 0 }) (wMsg 2 [0x11, 7, 3, 2000, 9, 0] ([]) (wjob []))),
   calm_of_regs rfl (by decide +kernel), by decide +kernel⟩

theorem test_meets_start_times_2b : ∃ (p : Port) (f : Frame) (rest : List Frame) (i : Slot) (s : State),
    s.dev.calm ∧ s.dev.runs domFab = true ∧ s.dev.sec.waiting = none ∧ (s.dev.cport p).rxQ = f :: rest ∧
    f.kind = 2 ∧ s.dev.on TRD_CTRL_ENABLE = true ∧ s.dev.get DEV_STATE_STATE ≠ 7 ∧ leAt f.payload 0 1 = 0x11 ∧
    s.dev.layerSlot (leAt f.payload 4 4) (leAt f.payload 8 4) = some i :=
  ⟨0,
   ⟨.forwarded, 2, 4, 0, 0, 77, wordsBytes [0x11, 7, 3, 2000, 9, 0] ++ ([]), .none⟩,
   [],
   0,
   wst (wslot 0 2 (fun (x : LayerSlot) => { x with jobId := 7, layerNo := 3, header := wHeader 7 3 0 0 }) (wMsg 2 [0x11, 7, 3, 2000, 9, 0] ([]) (wjob []))),
   calm_of_regs rfl (by decide +kernel), by decide +kernel⟩

theorem test_meets_start_times_3 : ∃ (p : Port) (f : Frame) (rest : List Frame) (s : State),
    s.dev.calm ∧ s.dev.runs domFab = true ∧ s.dev.sec.waiting = none ∧ (s.dev.cport p).rxQ = f :: rest ∧
    f.kind = 2 ∧ s.dev.on TRD_CTRL_ENABLE = true ∧ s.dev.get DEV_STATE_STATE ≠ 7 ∧ leAt f.payload 0 1 = 0x13 ∧
    s.dev.trdState = tPaused ∧ s.dev.trd.resumeAt = none ∧ leAt f.payload 4 4 % 2000 ≠ 0 :=
  ⟨0,
   ⟨.forwarded, 2, 4, 0, 0, 77, wordsBytes [0x13, 500, 9, 0] ++ ([]), .none⟩,
   [],
   wst (wMsg 2 [0x13, 500, 9, 0] ([]) (wjob [(TRD_STATE, 7)])),
   calm_of_regs rfl (by decide +kernel), by decide +kernel⟩

theorem test_meets_start_times_4 : ∃ (p : Port) (f : Frame) (rest : List Frame) (i : Slot) (s : State),
    s.dev.calm ∧ s.dev.runs domFab = true ∧ s.dev.sec.waiting = none ∧ (s.dev.cport p).rxQ = f :: rest ∧
    f.kind = 2 ∧ s.dev.on TRD_CTRL_ENABLE = true ∧ s.dev.get DEV_STATE_STATE ≠ 7 ∧ leAt f.payload 0 1 = 0x10 ∧
    leAt (f.payload.drop 16) 0x14 4 % 2000 ≠ 0 ∧ 128 ≤ (f.payload.drop 16).length ∧ leAt f.payload 12 4 = 0 ∧
    (∀ j : Slot, ¬ (s.dev.slotState j = 1 ∧ (vat s.dev.trd.slots j).jobId = leAt f.payload 4 4 ∧ (vat s.dev.trd.slots j).layerNo = leAt f.payload 8 4)) ∧
    s.dev.slotState i = 0 ∧ (∀ j : Slot, j < i → s.dev.slotState j ≠ 0) :=
  ⟨0,
   ⟨.forwarded, 2, 4, 0, 0, 77, wordsBytes [0x10, 7, 3, 0] ++ (wHeader 7 3 5 500), .none⟩,
   [],
   0,
   wst (wMsg 2 [0x10, 7, 3, 0] (wHeader 7 3 5 500) (wjob [])),
   calm_of_regs rfl (by decide +kernel), by decide +kernel⟩

theorem test_meets_layer_schedules_1 : ∃ (p : Port) (f : Frame) (rest : List Frame) (i : Slot) (t : StartTime) (s : State),
    s.dev.calm ∧ s.dev.runs domFab = true ∧ s.dev.shadow = [] ∧ (s.dev.cport p).rxQ = f :: rest ∧ f.kind = 2 ∧
    s.dev.on TRD_CTRL_ENABLE = true ∧ s.dev.get DEV_STATE_STATE ≠ 7 ∧ leAt f.payload 0 1 = 0x11 ∧
    s.dev.layerSlot (leAt f.payload 4 4) (leAt f.payload 8 4) = some i ∧
    t = (leAt f.payload 16 8, leAt f.payload 12 4) ∧ s.dev.timeOk t = true ∧
    (s.dev.slotState i = 5 → s.dev.trdStage ≠ tScan ∧ s.dev.trdStage ≠ tClose) :=
  ⟨0,
   ⟨.forwarded, 2, 4, 0, 0, 77, wordsBytes [0x11, 7, 3, 2000, 9, 0] ++ ([]), .none⟩,
   [],
   0,
   (9, 2000),
   wst (wslot 0 1 (fun (x : LayerSlot) => { x with jobId := 7, layerNo := 3, header := wHeader 7 3 0 0 }) (wMsg 2 [0x11, 7, 3, 2000, 9, 0] ([]) (wjob []))),
   calm_of_regs rfl (by decide +kernel), by decide +kernel⟩

theorem test_meets_layer_schedules_1b : ∃ (p : Port) (f : Frame) (rest : List Frame) (i : Slot) (t : StartTime) (s : State),
    s.dev.calm ∧ s.dev.runs domFab = true ∧ s.dev.shadow = [] ∧ (s.dev.cport p).rxQ = f :: rest ∧ f.kind = 2 ∧
    s.dev.on TRD_CTRL_ENABLE = true ∧ s.dev.get DEV_STATE_STATE ≠ 7 ∧ leAt f.payload 0 1 = 0x11 ∧
    s.dev.layerSlot (leAt f.payload 4 4) (leAt f.payload 8 4) = some i ∧
    t = (leAt f.payload 16 8, leAt f.payload 12 4) ∧ s.dev.timeOk t = true ∧
    (s.dev.slotState i = 5 → s.dev.trdStage ≠ tScan ∧ s.dev.trdStage ≠ tClose) :=
  ⟨0,
   ⟨.forwarded, 2, 4, 0, 0, 77, wordsBytes [0x11, 7, 3, 2000, 9, 0] ++ ([]), .none⟩,
   [],
   0,
   (9, 2000),
   wst (wslot 0 2 (fun (x : LayerSlot) => { x with jobId := 7, layerNo := 3, header := wHeader 7 3 0 0 }) (wMsg 2 [0x11, 7, 3, 2000, 9, 0] ([]) (wjob []))),
   calm_of_regs rfl (by decide +kernel), by decide +kernel⟩

theorem test_meets_layer_schedules_2 : ∃ (p : Port) (f : Frame) (rest : List Frame) (s : State),
    s.dev.calm ∧ s.dev.runs domFab = true ∧ s.dev.shadow = [] ∧ (s.dev.cport p).rxQ = f :: rest ∧ f.kind = 2 ∧
    s.dev.on TRD_CTRL_ENABLE = true ∧ s.dev.get DEV_STATE_STATE ≠ 7 ∧ leAt f.payload 0 1 = 0x11 ∧
    s.dev.layerSlot (leAt f.payload 4 4) (leAt f.payload 8 4) = none :=
  ⟨0,
   ⟨.forwarded, 2, 4, 0, 0, 77, wordsBytes [0x11, 7, 3, 0, 9, 0] ++ ([]), .none⟩,
   [],
   wst (wMsg 2 [0x11, 7, 3, 0, 9, 0] ([]) (wjob [])),
   calm_of_regs rfl (by decide +kernel), by decide +kernel⟩

theorem test_meets_layer_schedules_3 : ∃ (i : Slot) (t : StartTime) (s : State),
    s.dev.calm ∧ s.dev.runs domFab = true ∧ s.dev.shadow = [] ∧ (vat s.dev.trd.slots i).start = some t ∧
    s.dev.slotCounts i = true ∧ s.dev.on (NETT_CTRL_EN 0) = true ∧ stNanos t ≤ s.dev.t0.nanos ∧
    (s.dev.slotState i ≠ 5 ∨ (s.dev.scanReady = false ∧ s.dev.trdStage ≠ tScan ∧ s.dev.trdStage ≠ tClose)) ∧
    (∀ j : Slot, j ≠ i → (vat s.dev.trd.slots j).start = none) :=
  ⟨0,
   (0, 0),
   wst (wslot 0 2 (fun (x : LayerSlot) => { x with jobId := 7, layerNo := 3, header := wHeader 7 3 0 0, start := some (0, 0) }) (wjob [(TRD_STATE, 0)])),
   calm_of_regs rfl (by decide +kernel), by decide +kernel⟩

theorem test_meets_layer_schedules_3b : ∃ (i : Slot) (t : StartTime) (s : State),
    s.dev.calm ∧ s.dev.runs domFab = true ∧ s.dev.shadow = [] ∧ (vat s.dev.trd.slots i).start = some t ∧
    s.dev.slotCounts i = true ∧ s.dev.on (NETT_CTRL_EN 0) = true ∧ stNanos t ≤ s.dev.t0.nanos ∧
    (s.dev.slotState i ≠ 5 ∨ (s.dev.scanReady = false ∧ s.dev.trdStage ≠ tScan ∧ s.dev.trdStage ≠ tClose)) ∧
    (∀ j : Slot, j ≠ i → (vat s.dev.trd.slots j).start = none) :=
  ⟨0,
   (0, 0),
   wst (wslot 0 5 (fun (x : LayerSlot) => { x with jobId := 7, layerNo := 3, header := wHeader 7 3 0 0, start := some (0, 0) }) (wjob [(TRD_STATE, 3)])),
   calm_of_regs rfl (by decide +kernel), by decide +kernel⟩

theorem test_meets_treadle_commands_1 : ∃ (message : Option Port) (s : State),
    s.dev.calm ∧ s.dev.runs domFab = true ∧ s.dev.shadow = [] ∧
    (message = none ∨ ∃ p ∈ [(0 : Port),
      1], message = some p ∧ (s.dev.cport p).rxQ.head?.any (fun (f : Frame) => f.kind == 2 && leAt f.payload 0 1 == 0x12) = true ∧ s.dev.on TRD_CTRL_ENABLE = true ∧ s.dev.get DEV_STATE_STATE ≠ 7) ∧
    s.dev.trdState ≤ 4 :=
  ⟨none,
   wst (wjob [(TRD_STATE, 0)]),
   calm_of_regs rfl (by decide +kernel), by decide +kernel⟩

theorem test_meets_treadle_commands_1b : ∃ (message : Option Port) (s : State),
    s.dev.calm ∧ s.dev.runs domFab = true ∧ s.dev.shadow = [] ∧
    (message = none ∨ ∃ p ∈ [(0 : Port),
      1], message = some p ∧ (s.dev.cport p).rxQ.head?.any (fun (f : Frame) => f.kind == 2 && leAt f.payload 0 1 == 0x12) = true ∧ s.dev.on TRD_CTRL_ENABLE = true ∧ s.dev.get DEV_STATE_STATE ≠ 7) ∧
    s.dev.trdState ≤ 4 :=
  ⟨some 0,
   wst (wMsg 2 [0x12, 0, 0, 0, 0] ([]) (wjob [(TRD_STATE, 0)])),
   calm_of_regs rfl (by decide +kernel), by decide +kernel⟩

theorem test_meets_treadle_commands_2 : ∃ (message : Option Port) (s : State),
    s.dev.calm ∧ s.dev.runs domFab = true ∧ s.dev.shadow = [] ∧
    (message = none ∨ ∃ p ∈ [(0 : Port),
      1], message = some p ∧ (s.dev.cport p).rxQ.head?.any (fun (f : Frame) => f.kind == 2 && leAt f.payload 0 1 == 0x12) = true ∧ s.dev.on TRD_CTRL_ENABLE = true ∧ s.dev.get DEV_STATE_STATE ≠ 7) ∧
    s.dev.trdState = tScan ∧ s.dev.trd.pauseAt = none :=
  ⟨none,
   wst (wjob [(TRD_STATE, 5), (TRD_CMD_ARG0, 4000)]),
   calm_of_regs rfl (by decide +kernel), by decide +kernel⟩

theorem test_meets_treadle_commands_2b : ∃ (message : Option Port) (s : State),
    s.dev.calm ∧ s.dev.runs domFab = true ∧ s.dev.shadow = [] ∧
    (message = none ∨ ∃ p ∈ [(0 : Port),
      1], message = some p ∧ (s.dev.cport p).rxQ.head?.any (fun (f : Frame) => f.kind == 2 && leAt f.payload 0 1 == 0x12) = true ∧ s.dev.on TRD_CTRL_ENABLE = true ∧ s.dev.get DEV_STATE_STATE ≠ 7) ∧
    s.dev.trdState = tScan ∧ s.dev.trd.pauseAt = none :=
  ⟨some 0,
   wst (wMsg 2 [0x12, 0, 0, 0, 0] ([]) (wjob [(TRD_STATE, 5), (TRD_CMD_ARG0, 4000)])),
   calm_of_regs rfl (by decide +kernel), by decide +kernel⟩

theorem test_meets_treadle_commands_3 : ∃ (message : Option Port) (s : State),
    s.dev.calm ∧ s.dev.runs domFab = true ∧ s.dev.shadow = [] ∧
    (message = none ∨ ∃ p ∈ [(0 : Port),
      1], message = some p ∧ (s.dev.cport p).rxQ.head?.any (fun (f : Frame) => f.kind == 2 && leAt f.payload 0 1 == 0x12) = true ∧ s.dev.on TRD_CTRL_ENABLE = true ∧ s.dev.get DEV_STATE_STATE ≠ 7) ∧
    s.dev.trdState = tClose :=
  ⟨none,
   wst (wjob [(TRD_STATE, 6)]),
   calm_of_regs rfl (by decide +kernel), by decide +kernel⟩

theorem test_meets_treadle_commands_3b : ∃ (message : Option Port) (s : State),
    s.dev.calm ∧ s.dev.runs domFab = true ∧ s.dev.shadow = [] ∧
    (message = none ∨ ∃ p ∈ [(0 : Port),
      1], message = some p ∧ (s.dev.cport p).rxQ.head?.any (fun (f : Frame) => f.kind == 2 && leAt f.payload 0 1 == 0x12) = true ∧ s.dev.on TRD_CTRL_ENABLE = true ∧ s.dev.get DEV_STATE_STATE ≠ 7) ∧
    s.dev.trdState = tClose :=
  ⟨some 0,
   wst (wMsg 2 [0x12, 0, 0, 0, 0] ([]) (wjob [(TRD_STATE, 6)])),
   calm_of_regs rfl (by decide +kernel), by decide +kernel⟩

theorem test_meets_treadle_commands_4 : ∃ (k : Nat) (s : State),
    s.dev.calm ∧ s.dev.runs domFab = true ∧ s.dev.shadow = [] ∧ s.dev.trdState = tScan ∧
    s.dev.trd.pauseAt = some k ∧ k ≤ s.dev.schedTick :=
  ⟨8,
   wst { wjob [(TRD_STATE, 5)] with trd := { wbase.trd with pauseAt := some 8 }, bases := vmod wbase.bases 0 fun (x : TimeBase) => { x with now := ⟨1, 4000, 0⟩ } },
   calm_of_regs rfl (by decide +kernel), by decide +kernel⟩

theorem test_meets_treadle_commands_5 : ∃ (message : Option Port) (t : StartTime) (s : State),
    s.dev.calm ∧ s.dev.runs domFab = true ∧ s.dev.shadow = [] ∧ s.dev.trdState = tPaused ∧
    s.dev.trd.resumeAt = none ∧ message = none ∧ t = s.dev.argResume ∧ s.dev.timeOk t = true :=
  ⟨none,
   (9, 2000),
   wst (wslot 0 5 (fun (x : LayerSlot) => { x with jobId := 7, layerNo := 3, header := wHeader 7 3 0 0 }) (wjob [(TRD_STATE, 0x47), (TRD_CMD_ARG0, 2000), (TRD_CMD_ARG1, 9), (TRD_PAUSE_TICK_LO, 400)])),
   calm_of_regs rfl (by decide +kernel), by decide +kernel⟩

theorem test_meets_treadle_commands_5b : ∃ (message : Option Port) (t : StartTime) (s : State),
    s.dev.calm ∧ s.dev.runs domFab = true ∧ s.dev.shadow = [] ∧ s.dev.trdState = tPaused ∧
    s.dev.trd.resumeAt = none ∧ message = none ∧ t = s.dev.argResume ∧ s.dev.timeOk t = true :=
  ⟨none,
   (9, 2000),
   wst (wslot 0 5 (fun (x : LayerSlot) => { x with jobId := 7, layerNo := 3, header := wHeader 7 3 0 0 }) (wjob [(TRD_STATE, 0x57), (TRD_CMD_ARG0, 2000), (TRD_CMD_ARG1, 9), (TRD_PAUSE_TICK_LO, 400)])),
   calm_of_regs rfl (by decide +kernel), by decide +kernel⟩

theorem test_meets_treadle_commands_6 : ∃ (message : Option Port) (s : State),
    s.dev.calm ∧ s.dev.runs domFab = true ∧ s.dev.shadow = [] ∧
    (message = none ∨ ∃ p ∈ [(0 : Port),
      1], message = some p ∧ (s.dev.cport p).rxQ.head?.any (fun (f : Frame) => f.kind == 2 && leAt f.payload 0 1 == 0x14) = true ∧ s.dev.on TRD_CTRL_ENABLE = true ∧ s.dev.get DEV_STATE_STATE ≠ 7) ∧
    s.dev.trdState ≠ tAborted :=
  ⟨none,
   wst (wslot 0 5 (fun (x : LayerSlot) => { x with jobId := 7, layerNo := 3, header := wHeader 7 3 0 0, start := some (5, 0) }) (wjob [(TRD_STATE, 0)])),
   calm_of_regs rfl (by decide +kernel), by decide +kernel⟩

theorem test_meets_treadle_commands_6b : ∃ (message : Option Port) (s : State),
    s.dev.calm ∧ s.dev.runs domFab = true ∧ s.dev.shadow = [] ∧
    (message = none ∨ ∃ p ∈ [(0 : Port),
      1], message = some p ∧ (s.dev.cport p).rxQ.head?.any (fun (f : Frame) => f.kind == 2 && leAt f.payload 0 1 == 0x14) = true ∧ s.dev.on TRD_CTRL_ENABLE = true ∧ s.dev.get DEV_STATE_STATE ≠ 7) ∧
    s.dev.trdState ≠ tAborted :=
  ⟨some 0,
   wst (wslot 0 5 (fun (x : LayerSlot) => { x with jobId := 7, layerNo := 3, header := wHeader 7 3 0 0, start := some (5, 0) }) (wMsg 2 [0x14, 0, 0, 0, 0] ([]) (wjob [(TRD_STATE, 0)]))),
   calm_of_regs rfl (by decide +kernel), by decide +kernel⟩

theorem test_meets_treadle_commands_7 : ∃ (message : Option Port) (s : State),
    s.dev.calm ∧ s.dev.runs domFab = true ∧ s.dev.shadow = [] ∧
    (message = none ∨ ∃ p ∈ [(0 : Port),
      1], message = some p ∧ (s.dev.cport p).rxQ.head?.any (fun (f : Frame) => f.kind == 2 && leAt f.payload 0 1 == 0x15) = true ∧ s.dev.on TRD_CTRL_ENABLE = true ∧ s.dev.get DEV_STATE_STATE ≠ 7) ∧
    s.dev.trdState = tAborted ∧ (∀ i : Slot, s.dev.slotState i = 0 ∨ s.dev.slotState i = 6) :=
  ⟨none,
   wst (wslot 0 6 (fun (x : LayerSlot) => { x with jobId := 7, layerNo := 3, header := wHeader 7 3 0 0 }) (wjob [(TRD_STATE, 8)])),
   calm_of_regs rfl (by decide +kernel), by decide +kernel⟩

theorem test_meets_treadle_commands_7b : ∃ (message : Option Port) (s : State),
    s.dev.calm ∧ s.dev.runs domFab = true ∧ s.dev.shadow = [] ∧
    (message = none ∨ ∃ p ∈ [(0 : Port),
      1], message = some p ∧ (s.dev.cport p).rxQ.head?.any (fun (f : Frame) => f.kind == 2 && leAt f.payload 0 1 == 0x15) = true ∧ s.dev.on TRD_CTRL_ENABLE = true ∧ s.dev.get DEV_STATE_STATE ≠ 7) ∧
    s.dev.trdState = tAborted ∧ (∀ i : Slot, s.dev.slotState i = 0 ∨ s.dev.slotState i = 6) :=
  ⟨some 0,
   wst (wslot 0 6 (fun (x : LayerSlot) => { x with jobId := 7, layerNo := 3, header := wHeader 7 3 0 0 }) (wMsg 2 [0x15, 0, 0, 0, 0] ([]) (wjob [(TRD_STATE, 8)]))),
   calm_of_regs rfl (by decide +kernel), by decide +kernel⟩

theorem test_meets_layer_cycle_1 : ∃ (i : Slot) (s : State),
    s.dev.calm ∧ s.dev.runs domFab = true ∧ s.dev.shadow = [] ∧ s.dev.nextSlot = some i ∧
    s.dev.trdState = tArmed ∧ s.dev.slotReady i = true ∧ s.dev.slotState i = 4 :=
  ⟨0,
   wst (wslot 0 4 (fun (x : LayerSlot) => { x with jobId := 7, layerNo := 3, header := wHeader 7 3 0 0, start := some (5, 0), own := Vector.replicate 16 [List.replicate 8 0] }) (wjob [(TRD_STATE, 1), (EVT_FLT_RETIRED, 0xFFFF)])),
   calm_of_regs rfl (by decide +kernel), by decide +kernel⟩

theorem test_meets_layer_cycle_1b : ∃ (i : Slot) (s : State),
    s.dev.calm ∧ s.dev.runs domFab = true ∧ s.dev.shadow = [] ∧ s.dev.nextSlot = some i ∧
    s.dev.trdState = tArmed ∧ s.dev.slotReady i = true ∧ s.dev.slotState i = 4 :=
  ⟨0,
   wst (wslot 0 4 (fun (x : LayerSlot) => { x with jobId := 7, layerNo := 3, header := wHeader 7 3 0 0, start := some (5, 0), own := Vector.replicate 16 [List.replicate 8 0] }) (wjob [(TRD_STATE, 1), (CRLB_CFG 0, 1), (CRLB_SIZE 0, 32)])),
   calm_of_regs rfl (by decide +kernel), by decide +kernel⟩

theorem test_meets_layer_cycle_2 : ∃ (s : State),
    s.dev.calm ∧ s.dev.runs domFab = true ∧ s.dev.shadow = [] ∧ s.dev.trdState = tPrep ∧
    (∀ n : Station, s.dev.stationOut n = true ∨ s.dev.lookaheadFull n = true) :=
  ⟨wst (wslot 0 5 (fun (x : LayerSlot) => { x with jobId := 7, layerNo := 3, header := wHeader 7 3 0 0, start := some (5, 0), own := Vector.replicate 16 [List.replicate 8 0] }) (wjob [(TRD_STATE, 2), (EVT_FLT_RETIRED, 0xFFFF), (TRD_PLAT_SCALE, 0x40000), (TRD_PLAT_RESID, 12345)])),
   calm_of_regs rfl (by decide +kernel), by decide +kernel⟩

theorem test_meets_layer_cycle_3 : ∃ (k : Nat) (j : Nat) (s : State),
    s.dev.calm ∧ s.dev.runs domFab = true ∧ s.dev.shadow = [] ∧ s.dev.trdState = tRecoat ∧
    s.dev.trd.recoatStep = k ∧ 1 ≤ k ∧ k ≤ 5 ∧ s.dev.stepReached k = true ∧ s.dev.stepFrom (k + 1) = j ∧ j ≤ 5 :=
  ⟨1,
   4,
   wst ((fun (d : Dev) => { d with trd := { d.trd with recoatStep := 1, profile := [0x10, 5, 6, 7, 8, 9] } }) (wslot 0 5 (fun (x : LayerSlot) => { x with jobId := 7, layerNo := 3, header := wHeader 7 3 0 0, start := some (5, 0), own := Vector.replicate 16 [List.replicate 8 0] }) (wjob [(TRD_STATE, 3), (EVT_FLT_RETIRED, 0xFFFF)]))),
   calm_of_regs rfl (by decide +kernel), by decide +kernel⟩

theorem test_meets_layer_cycle_3b : ∃ (k : Nat) (j : Nat) (s : State),
    s.dev.calm ∧ s.dev.runs domFab = true ∧ s.dev.shadow = [] ∧ s.dev.trdState = tRecoat ∧
    s.dev.trd.recoatStep = k ∧ 1 ≤ k ∧ k ≤ 5 ∧ s.dev.stepReached k = true ∧ s.dev.stepFrom (k + 1) = j ∧ j ≤ 5 :=
  ⟨4,
   5,
   wst ((fun (d : Dev) => { d with trd := { d.trd with recoatStep := 4, profile := [0x10, 5, 6, 7, 8, 9] } }) (wslot 0 5 (fun (x : LayerSlot) => { x with jobId := 7, layerNo := 3, header := wHeader 7 3 0 0, start := some (5, 0), own := Vector.replicate 16 [List.replicate 8 0] }) (wjob [(TRD_STATE, 3), (EVT_FLT_RETIRED, 0xFFFF)]))),
   calm_of_regs rfl (by decide +kernel), by decide +kernel⟩

theorem test_meets_layer_cycle_4 : ∃ (k : Nat) (s : State),
    s.dev.calm ∧ s.dev.runs domFab = true ∧ s.dev.shadow = [] ∧ s.dev.trdState = tRecoat ∧
    s.dev.trd.recoatStep = k ∧ 1 ≤ k ∧ k ≤ 5 ∧ s.dev.stepReached k = true ∧ s.dev.stepFrom (k + 1) = 6 ∧
    (∀ m : Axis, s.dev.axRunning m = false) :=
  ⟨5,
   wst ((fun (d : Dev) => { d with trd := { d.trd with recoatStep := 5, profile := [0x10, 5, 6, 7, 8, 9] } }) (wslot 0 5 (fun (x : LayerSlot) => { x with jobId := 7, layerNo := 3, header := wHeader 7 3 0 0, start := some (5, 0), own := Vector.replicate 16 [List.replicate 8 0] }) (wjob [(TRD_STATE, 3), (EVT_FLT_RETIRED, 0xFFFF)]))),
   calm_of_regs rfl (by decide +kernel), by decide +kernel⟩

theorem test_meets_layer_cycle_5 : ∃ (k : Nat) (s : State),
    s.dev.calm ∧ s.dev.runs domFab = true ∧ s.dev.shadow = [] ∧ s.dev.trdState = tRecoat ∧
    s.dev.trd.recoatStep = k ∧ 1 ≤ k ∧ k ≤ 5 ∧ s.dev.stepReached k = false ∧
    s.dev.axRunning (s.dev.stepAxis k) = false :=
  ⟨4,
   wst ((fun (d : Dev) => { d with trd := { d.trd with recoatStep := 4, recoatTarget := 5, profile := [0x10, 5, 6, 7, 8, 9] } }) (wslot 0 5 (fun (x : LayerSlot) => { x with jobId := 7, layerNo := 3, header := wHeader 7 3 0 0, start := some (5, 0), own := Vector.replicate 16 [List.replicate 8 0] }) (wjob [(TRD_STATE, 3), (EVT_FLT_RETIRED, 0xFFFF)]))),
   calm_of_regs rfl (by decide +kernel), by decide +kernel⟩

theorem test_meets_layer_cycle_6 : ∃ (s : State),
    s.dev.calm ∧ s.dev.runs domFab = true ∧ s.dev.shadow = [] ∧ s.dev.layerActive = true ∧ s.dev.trdStage = tBed ∧
    s.dev.trd.imaged = true :=
  ⟨wst ((fun (d : Dev) => { d with trd := { d.trd with imaged := true } }) (wslot 0 5 (fun (x : LayerSlot) => { x with jobId := 7, layerNo := 3, header := wHeader 7 3 0 0, start := some (5, 0), own := Vector.replicate 16 [List.replicate 8 0] }) (wjob [(TRD_STATE, 4), (EVT_FLT_RETIRED, 0xFFFF)]))),
   calm_of_regs rfl (by decide +kernel), by decide +kernel⟩

theorem test_meets_layer_cycle_6b : ∃ (s : State),
    s.dev.calm ∧ s.dev.runs domFab = true ∧ s.dev.shadow = [] ∧ s.dev.layerActive = true ∧ s.dev.trdStage = tBed ∧
    s.dev.trd.imaged = true :=
  ⟨wst ((fun (d : Dev) => { d with trd := { d.trd with imaged := true } }) (wslot 0 5 (fun (x : LayerSlot) => { x with jobId := 7, layerNo := 3, header := wHeader 7 3 0 0, start := none, own := Vector.replicate 16 [List.replicate 8 0] }) (wjob [(TRD_STATE, 4), (EVT_FLT_RETIRED, 0xFFFF)]))),
   calm_of_regs rfl (by decide +kernel), by decide +kernel⟩

theorem test_meets_layer_cycle_7 : ∃ (k : Nat) (s : State),
    s.dev.calm ∧ s.dev.runs domFab = true ∧ s.dev.shadow = [] ∧ s.dev.scanReady = true ∧
    s.dev.startReached s.dev.activeSlot = some k ∧ k < 500 :=
  ⟨0,
   wst ((fun (d : Dev) => { d with trd := { d.trd with imaged := true } }) (wslot 0 5 (fun (x : LayerSlot) => { x with jobId := 7, layerNo := 3, header := wHeader 7 3 0 0, start := some (0, 0), own := Vector.replicate 16 [List.replicate 8 0] }) (wjob [(TRD_STATE, 4), (EVT_FLT_RETIRED, 0xFFFF)]))),
   calm_of_regs rfl (by decide +kernel), by decide +kernel⟩

theorem test_meets_layer_cycle_7b : ∃ (k : Nat) (s : State),
    s.dev.calm ∧ s.dev.runs domFab = true ∧ s.dev.shadow = [] ∧ s.dev.scanReady = true ∧
    s.dev.startReached s.dev.activeSlot = some k ∧ k < 500 :=
  ⟨499,
   wst ((fun (d : Dev) => { d with trd := { d.trd with imaged := true }, bases := vmod wbase.bases 0 fun (x : TimeBase) => { x with now := ⟨1, 499, 0⟩ } }) (wslot 0 5 (fun (x : LayerSlot) => { x with jobId := 7, layerNo := 3, header := wHeader 7 3 0 0, start := some (1, 0), own := Vector.replicate 16 [List.replicate 8 0] }) (wjob [(TRD_STATE, 4), (EVT_FLT_RETIRED, 0xFFFF)]))),
   calm_of_regs rfl (by decide +kernel), by decide +kernel⟩

theorem test_meets_layer_cycle_8 : ∃ (s : State),
    s.dev.calm ∧ s.dev.runs domFab = true ∧ s.dev.shadow = [] ∧ s.dev.trdState = tScan ∧
    (∀ n : Station, s.dev.stationOut n = true ∨ ((s.dev.shtl n).complete = true ∧ (s.dev.shtl n).lit = false)) :=
  ⟨wst ((fun (d : Dev) => { d with trd := { d.trd with pauseAt := some 8 } }) (wslot 0 5 (fun (x : LayerSlot) => { x with jobId := 7, layerNo := 3, header := wHeader 7 3 0 0, start := some (5, 0), own := Vector.replicate 16 [List.replicate 8 0] }) (wjob [(TRD_STATE, 5), (EVT_FLT_RETIRED, 0xFFFF)]))),
   calm_of_regs rfl (by decide +kernel), by decide +kernel⟩

theorem test_meets_layer_cycle_8b : ∃ (s : State),
    s.dev.calm ∧ s.dev.runs domFab = true ∧ s.dev.shadow = [] ∧ s.dev.trdState = tScan ∧
    (∀ n : Station, s.dev.stationOut n = true ∨ ((s.dev.shtl n).complete = true ∧ (s.dev.shtl n).lit = false)) :=
  ⟨wst (wslot 0 5 (fun (x : LayerSlot) => { x with jobId := 7, layerNo := 3, header := wHeader 7 3 0 0, start := some (5, 0), own := Vector.replicate 16 [List.replicate 8 0] }) (wjob [(TRD_STATE, 5), (EVT_FLT_RETIRED, 0xFFFF)])),
   calm_of_regs rfl (by decide +kernel), by decide +kernel⟩

theorem test_meets_layer_cycle_9 : ∃ (i : Slot) (s : State),
    s.dev.calm ∧ s.dev.runs domFab = true ∧ s.dev.shadow = [] ∧ s.dev.closeReady = true ∧ s.dev.activeSlot = i ∧
    s.dev.updateWaits = false ∧ s.dev.nextSlot = none ∧ s.dev.on TRD_POLICY_ORPHAN = false :=
  ⟨0,
   wst (wslot 0 5 (fun (x : LayerSlot) => { x with jobId := 7, layerNo := 3, header := wHeader 7 3 0 0, start := some (5, 0), own := Vector.replicate 16 [List.replicate 8 0] }) (wjob [(TRD_STATE, 6), (EVT_FLT_RETIRED, 0xFFFF)])),
   calm_of_regs rfl (by decide +kernel), by decide +kernel⟩

theorem test_meets_layer_cycle_9b : ∃ (i : Slot) (s : State),
    s.dev.calm ∧ s.dev.runs domFab = true ∧ s.dev.shadow = [] ∧ s.dev.closeReady = true ∧ s.dev.activeSlot = i ∧
    s.dev.updateWaits = false ∧ s.dev.nextSlot = none ∧ s.dev.on TRD_POLICY_ORPHAN = false :=
  ⟨0,
   wst ((fun (d : Dev) => { d with trd := { d.trd with pauseCmd := true } }) (wslot 0 5 (fun (x : LayerSlot) => { x with jobId := 7, layerNo := 3, header := wHeader 7 3 0 0, start := some (5, 0), own := Vector.replicate 16 [List.replicate 8 0] }) (wjob [(TRD_STATE, 6), (EVT_FLT_RETIRED, 0xFFFF)]))),
   calm_of_regs rfl (by decide +kernel), by decide +kernel⟩

theorem test_meets_start_up_1 : ∃ (s : State),
    s.dev.calm ∧ s.dev.start.porstLow = true ∧ s.dev.start.strapped = false :=
  ⟨(⟨Dev.reset, ⟨2, some [1, 2], none, 3⟩, []⟩ : State),
   calm_of_regs rfl (by decide +kernel), by decide +kernel⟩

theorem test_meets_start_up_2 : ∃ (s : State),
    s.dev.calm ∧ s.dev.runs domAon = true ∧ s.dev.start.strapped = false ∧ s.dev.get DEV_STATE_STATE = 1 :=
  ⟨(⟨{ Dev.reset with flash := (wdev []).flash, start := { Startup.reset with porstLow := false } }.setReg DEV_STATE 0x21, Otp.blank, []⟩ : State),
   calm_of_regs rfl (by decide +kernel), by decide +kernel⟩

theorem test_meets_start_up_2b : ∃ (s : State),
    s.dev.calm ∧ s.dev.runs domAon = true ∧ s.dev.start.strapped = false ∧ s.dev.get DEV_STATE_STATE = 1 :=
  ⟨(⟨{ Dev.reset with flash := (wdev []).flash, start := { Startup.reset with porstLow := false } }.setReg DEV_STATE 0x21, Otp.blank, []⟩ : State),
   calm_of_regs rfl (by decide +kernel), by decide +kernel⟩

theorem test_meets_start_up_3 : ∃ (k : Nat) (s : State),
    s.dev.calm ∧ s.dev.runs domAon = true ∧ (s.dev.get DEV_STATE_STATE = 1 ∨ s.dev.get DEV_STATE_STATE = 2) ∧
    s.dev.fusesDone = true ∧ s.dev.mgm.held = [] ∧ s.dev.mgm.chain = [] ∧ s.dev.ev.crossing = [] ∧ k < 2 ∧
    imgCandidate (s.dev.slotRead k) = true ∧ s.dev.start.skip = (false, false) ∧
    s.dev.start.failed = (false, false) ∧
    (imgCandidate (s.dev.slotRead (1 - k)) = true → imgSeq (s.dev.slotRead (1 - k)) < imgSeq (s.dev.slotRead k) ∨ (k = 0 ∧ imgSeq (s.dev.slotRead 1) = imgSeq (s.dev.slotRead 0))) :=
  ⟨1,
   (⟨{ Dev.reset with flash := (wImgDev [] 1 5).flash, start := { Startup.reset with porstLow := false, strapped := true } }.setReg DEV_STATE 0x22, Otp.blank, []⟩ : State),
   calm_of_regs rfl (by decide +kernel), by decide +kernel⟩

theorem test_meets_start_up_3b : ∃ (k : Nat) (s : State),
    s.dev.calm ∧ s.dev.runs domAon = true ∧ (s.dev.get DEV_STATE_STATE = 1 ∨ s.dev.get DEV_STATE_STATE = 2) ∧
    s.dev.fusesDone = true ∧ s.dev.mgm.held = [] ∧ s.dev.mgm.chain = [] ∧ s.dev.ev.crossing = [] ∧ k < 2 ∧
    imgCandidate (s.dev.slotRead k) = true ∧ s.dev.start.skip = (false, false) ∧
    s.dev.start.failed = (false, false) ∧
    (imgCandidate (s.dev.slotRead (1 - k)) = true → imgSeq (s.dev.slotRead (1 - k)) < imgSeq (s.dev.slotRead k) ∨ (k = 0 ∧ imgSeq (s.dev.slotRead 1) = imgSeq (s.dev.slotRead 0))) :=
  ⟨0,
   (⟨{ Dev.reset with flash := ((wImgDev [] 0 5).programFlash 0x800000 (wImage 5)).flash, start := { Startup.reset with porstLow := false, strapped := true } }.setReg DEV_STATE 0x22, Otp.blank, []⟩ : State),
   calm_of_regs rfl (by decide +kernel), by decide +kernel⟩

theorem test_meets_start_up_4 : ∃ (s : State),
    s.dev.calm ∧ s.dev.runs domAon = true ∧ (s.dev.get DEV_STATE_STATE = 1 ∨ s.dev.get DEV_STATE_STATE = 2) ∧
    s.dev.fusesDone = true ∧ s.dev.mgm.held = [] ∧ s.dev.mgm.chain = [] ∧ s.dev.ev.crossing = [] ∧
    (∀ j, j < 2 → imgCandidate (s.dev.slotRead j) = false) :=
  ⟨(⟨{ Dev.reset with flash := (wdev []).flash, start := { Startup.reset with porstLow := false, strapped := true } }.setReg DEV_STATE 0x22, Otp.blank, []⟩ : State),
   calm_of_regs rfl (by decide +kernel), by decide +kernel⟩

theorem test_meets_start_up_5 : ∃ (k : Nat) (s : State),
    s.dev.calm ∧ s.dev.runs domXspi = true ∧ s.dev.start.trying = some k ∧ s.dev.get DEV_STATE_STATE = 3 ∧
    s.dev.start.applying = false ∧ s.dev.imgVerify (s.dev.slotRead k) = 0 :=
  ⟨1,
   (⟨{ wImgDev [(DEV_STATE, 0x23)] 1 5 with start := { (wImgDev [(DEV_STATE, 0x23)] 1 5).start with trying := some 1 } }, Otp.blank, []⟩ : State),
   calm_of_regs rfl (by decide +kernel), by decide +kernel⟩

theorem test_meets_start_up_6 : ∃ (k : Nat) (s : State),
    s.dev.calm ∧ s.dev.runs domXspi = true ∧ s.dev.runs domFab = true ∧ s.dev.start.trying = some k ∧ k < 2 ∧
    s.dev.get DEV_STATE_STATE = 3 ∧ s.dev.start.applying = false ∧ imgCandidate (s.dev.slotRead k) = true ∧
    s.dev.imgVerify (s.dev.slotRead k) ≠ 0 :=
  ⟨1,
   (⟨{ (wImgDev [(DEV_STATE, 0x23)] 1 5).programFlash 0x80004C [0] with start := { ((wImgDev [(DEV_STATE, 0x23)] 1 5).programFlash 0x80004C [0]).start with trying := some 1 } }, Otp.blank, []⟩ : State),
   calm_of_regs rfl (by decide +kernel), by decide +kernel⟩

theorem test_meets_start_up_6b : ∃ (k : Nat) (s : State),
    s.dev.calm ∧ s.dev.runs domXspi = true ∧ s.dev.runs domFab = true ∧ s.dev.start.trying = some k ∧ k < 2 ∧
    s.dev.get DEV_STATE_STATE = 3 ∧ s.dev.start.applying = false ∧ imgCandidate (s.dev.slotRead k) = true ∧
    s.dev.imgVerify (s.dev.slotRead k) ≠ 0 :=
  ⟨0,
   (⟨{ ((wImgDev [(DEV_STATE, 0x23)] 0 5).programFlash 76 [0]).programFlash 0x800000 (wImage 6) with start := { (((wImgDev [(DEV_STATE, 0x23)] 0 5).programFlash 76 [0]).programFlash 0x800000 (wImage 6)).start with trying := some 0 } }, Otp.blank, []⟩ : State),
   calm_of_regs rfl (by decide +kernel), by decide +kernel⟩

theorem test_meets_start_up_7 : ∃ (k : Nat) (t : Dev) (s : State),
    s.dev.calm ∧ t.calm ∧ s.dev.runs domXspi = true ∧ s.dev.start.trying = some k ∧ k < 2 ∧
    s.dev.get DEV_STATE_STATE = 3 ∧ s.dev.start.applying = true ∧
    imgDigest (s.dev.slotRead k) = s.dev.sec.digest ∧
    (applySecs (s.dev.slotRead k) false true 3 ((imgSections (s.dev.slotRead k)).filter fun (x : ImgSec) => x.phase == 0) s.dev = (true, t)) ∧
    t.get DEV_STATE_STATE = 3 ∧ t.drcState ≠ drcReady ∧ t.drcState ≠ drcFailed :=
  ⟨1,
   ((⟨{ wImgDev [(DEV_STATE, 0x23)] 1 5 with start := { (wImgDev [(DEV_STATE, 0x23)] 1 5).start with trying := some 1, applying := true }, sec := { wbase.sec with digest := imgDigest ((wImgDev [] 1 5).slotRead 1) } }, Otp.blank, []⟩ : State)).dev,
   (⟨{ wImgDev [(DEV_STATE, 0x23)] 1 5 with start := { (wImgDev [(DEV_STATE, 0x23)] 1 5).start with trying := some 1, applying := true }, sec := { wbase.sec with digest := imgDigest ((wImgDev [] 1 5).slotRead 1) } }, Otp.blank, []⟩ : State),
   calm_of_regs rfl (by decide +kernel), calm_of_regs rfl (by decide +kernel), by decide +kernel⟩

theorem test_meets_resets_and_fuses_1 : ∃ (s : State),
    s.dev.start.fuseJob = none ∧ s.dev.start.lcJob = none :=
  ⟨wst (((wdev [(THM_LAST_SHUT, 0x80051234), (TRD_LAYER, 7)]).puts [(EVT_FLT_GATE_PIN_LOW, 1)]).programFlash 5 [1,
    2]),
   by decide +kernel⟩

theorem test_meets_resets_and_fuses_2 : ∃ (w : Word) (s : State),
    s.dev.calm ∧ s.dev.start.porstLow = false ∧ s.dev.runs domAon = true ∧ w.toNat / 65536 = 0x5A17 ∧
    bit w.toNat 0 = true :=
  ⟨0x5A170001,
   wst (((wdev [(THM_LAST_SHUT, 0x80051234), (TRD_LAYER, 7)]).puts [(EVT_FLT_GATE_PIN_LOW, 1)]).programFlash 5 [1,
     2]),
   calm_of_regs rfl (by decide +kernel), by decide +kernel⟩

theorem test_meets_resets_and_fuses_3 : ∃ (w : Word) (lv : Nat) (s : State),
    s.dev.calm ∧ s.dev.start.porstLow = false ∧ s.dev.runs domAon = true ∧ w.toNat / 65536 = 0x1C0D ∧
    w.toNat % 16 = lv ∧ s.dev.start.fuses.lifeCycle < lv ∧
    lcPermitted (s.dev.get DEV_LC_IN_FORCE) lv (s.dev.start.fuses.keyHash.isSome && s.dev.start.fuses.kek.isSome) = true ∧
    s.dev.start.lcJob = none ∧ s.dev.sec.waiting = none :=
  ⟨0x1C0D0001,
   1,
   wst wbase,
   calm_of_regs rfl (by decide +kernel), by decide +kernel⟩

theorem test_meets_resets_and_fuses_3b : ∃ (w : Word) (lv : Nat) (s : State),
    s.dev.calm ∧ s.dev.start.porstLow = false ∧ s.dev.runs domAon = true ∧ w.toNat / 65536 = 0x1C0D ∧
    w.toNat % 16 = lv ∧ s.dev.start.fuses.lifeCycle < lv ∧
    lcPermitted (s.dev.get DEV_LC_IN_FORCE) lv (s.dev.start.fuses.keyHash.isSome && s.dev.start.fuses.kek.isSome) = true ∧
    s.dev.start.lcJob = none ∧ s.dev.sec.waiting = none :=
  ⟨0x1C0D0003,
   3,
   (⟨{ (wput [(DEV_LC_IN_FORCE, 2)]) with start := { ((wput [(DEV_LC_IN_FORCE, 2)])).start with fuses := ⟨2, some [1], some [2], 0⟩ } }, Otp.blank, []⟩ : State),
   calm_of_regs rfl (by decide +kernel), by decide +kernel⟩

theorem test_meets_resets_and_fuses_4 : ∃ (lv : Nat) (s : State),
    s.dev.calm ∧ s.dev.start.porstLow = false ∧ s.dev.runs domFab = true ∧ s.dev.start.lcJob = some lv :=
  ⟨3,
   (⟨{ wbase with start := { (wbase).start with lcJob := some 3 } }, Otp.blank, []⟩ : State),
   calm_of_regs rfl (by decide +kernel), by decide +kernel⟩

theorem test_meets_resets_and_fuses_5 : ∃ (w : Word) (op : Nat) (s : State),
    s.dev.calm ∧ s.dev.start.porstLow = false ∧ s.dev.runs domAon = true ∧ w.toNat / 65536 = 0xF05E ∧
    s.dev.on DEV_FUSE_STAT_BUSY = false ∧ op ∈ [1, 2, 3] ∧ s.dev.fuseOk op = true :=
  ⟨0xF05E0000,
   1,
   (⟨{ ((wdev [(DEV_FUSE_DATA 0, 5), (DEV_FUSE_DATA 11, 6), (DEV_STATE, 6)]).puts [(DEV_LC_IN_FORCE, 0)]) with start := { (((wdev [(DEV_FUSE_DATA 0, 5), (DEV_FUSE_DATA 11, 6), (DEV_STATE, 6)]).puts [(DEV_LC_IN_FORCE, 0)])).start with fuses := ⟨0, none, none, 0⟩ }, sec := { wbase.sec with epoch := 4 } }, Otp.blank, []⟩ : State),
   calm_of_regs rfl (by decide +kernel), by decide +kernel⟩

theorem test_meets_resets_and_fuses_5b : ∃ (w : Word) (op : Nat) (s : State),
    s.dev.calm ∧ s.dev.start.porstLow = false ∧ s.dev.runs domAon = true ∧ w.toNat / 65536 = 0xF05E ∧
    s.dev.on DEV_FUSE_STAT_BUSY = false ∧ op ∈ [1, 2, 3] ∧ s.dev.fuseOk op = true :=
  ⟨0xF05E0000,
   2,
   (⟨{ ((wdev [(DEV_FUSE_DATA 0, 5), (DEV_FUSE_DATA 11, 6), (DEV_STATE, 6)]).puts [(DEV_LC_IN_FORCE, 0)]) with start := { (((wdev [(DEV_FUSE_DATA 0, 5), (DEV_FUSE_DATA 11, 6), (DEV_STATE, 6)]).puts [(DEV_LC_IN_FORCE, 0)])).start with fuses := ⟨0, none, none, 0⟩ }, sec := { wbase.sec with epoch := 4 } }, Otp.blank, []⟩ : State),
   calm_of_regs rfl (by decide +kernel), by decide +kernel⟩

theorem test_meets_resets_and_fuses_6 : ∃ (op : Nat) (data : List Byte) (s : State),
    s.dev.calm ∧ s.dev.start.porstLow = false ∧ s.dev.runs domFab = true ∧ s.dev.start.fuseJob = some (op, data) :=
  ⟨1,
   [1, 2],
   (⟨{ wbase with start := { (wbase).start with fuseJob := some (1, [1, 2]) } }, Otp.blank, []⟩ : State),
   calm_of_regs rfl (by decide +kernel), by decide +kernel⟩

theorem test_meets_resets_and_fuses_6b : ∃ (op : Nat) (data : List Byte) (s : State),
    s.dev.calm ∧ s.dev.start.porstLow = false ∧ s.dev.runs domFab = true ∧ s.dev.start.fuseJob = some (op, data) :=
  ⟨3,
   [9],
   (⟨{ wbase with start := { (wbase).start with fuseJob := some (3, [9]) } }, Otp.blank, []⟩ : State),
   calm_of_regs rfl (by decide +kernel), by decide +kernel⟩

theorem test_meets_updates_1 : ∃ (c : Nat) (s : State),
    s.dev.calm ∧ s.dev.runs domAon = true ∧ s.dev.runs domXspi = true ∧ s.dev.runs domFab = true ∧
    s.dev.start.updRun = none ∧ s.dev.start.passTwo = false ∧ s.dev.sec.recheck = none ∧
    s.dev.start.authLost = false ∧ s.dev.get DEV_UPD_STAT_STATE = c :=
  ⟨0,
   (⟨{ (wImgDev [] 1 5).puts [(DEV_UPD_STAT_STATE, 0)] with start := { ((wImgDev [] 1 5).puts [(DEV_UPD_STAT_STATE, 0)]).start with updRun := none } }, Otp.blank, []⟩ : State),
   calm_of_regs rfl (by decide +kernel), by decide +kernel⟩

theorem test_meets_updates_1b : ∃ (c : Nat) (s : State),
    s.dev.calm ∧ s.dev.runs domAon = true ∧ s.dev.runs domXspi = true ∧ s.dev.runs domFab = true ∧
    s.dev.start.updRun = none ∧ s.dev.start.passTwo = false ∧ s.dev.sec.recheck = none ∧
    s.dev.start.authLost = false ∧ s.dev.get DEV_UPD_STAT_STATE = c :=
  ⟨1,
   (⟨{ (wImgDev [] 1 5).puts [(DEV_UPD_STAT_STATE, 1)] with start := { ((wImgDev [] 1 5).puts [(DEV_UPD_STAT_STATE, 1)]).start with updRun := none } }, Otp.blank, []⟩ : State),
   calm_of_regs rfl (by decide +kernel), by decide +kernel⟩

theorem test_meets_updates_2 : ∃ (s : State),
    s.dev.calm ∧ s.dev.runs domAon = true ∧ s.dev.runs domXspi = true ∧ s.dev.runs domFab = true ∧
    1 ≤ s.dev.get DEV_UPD_STAT_STATE ∧ s.dev.get DEV_UPD_STAT_STATE ≤ 3 ∧ s.dev.closeDone = false ∧
    s.dev.start.updRun = none ∧ s.dev.start.passTwo = false ∧ s.dev.sec.recheck = none :=
  ⟨(⟨{ (wImgDev [] 1 5).puts [(DEV_UPD_STAT_STATE, 3)] with start := { ((wImgDev [] 1 5).puts [(DEV_UPD_STAT_STATE, 3)]).start with updRun := none }, sec := { wbase.sec with staged := some ([1], 1) } }, Otp.blank, []⟩ : State),
   calm_of_regs rfl (by decide +kernel), by decide +kernel⟩

theorem test_meets_updates_3 : ∃ (c : Nat) (s : State),
    s.dev.calm ∧ s.dev.runs domAon = true ∧ s.dev.runs domXspi = true ∧ s.dev.runs domFab = true ∧
    s.dev.start.updRun = some 1 ∧ s.dev.sec.recheck = none ∧ 64 ≤ s.dev.reg DEV_UPD_LEN ∧
    imgCandidate s.dev.updRead = true ∧
    (imgLen s.dev.updRead + (if imgSigned s.dev.updRead then 200 else 0) ≤ s.dev.reg DEV_UPD_LEN) ∧
    s.dev.imgVerify s.dev.updRead = c :=
  ⟨0,
   (⟨{ (wImgDev [(DEV_UPD_BASE, 0x1000), (DEV_UPD_LEN, 80)] 1 5) with start := { ((wImgDev [(DEV_UPD_BASE, 0x1000), (DEV_UPD_LEN, 80)] 1 5)).start with updRun := some 1 }, creel := storeBytes ramDefault [] 0x1000 (wImage 7) }, Otp.blank, []⟩ : State),
   calm_of_regs rfl (by decide +kernel), by decide +kernel⟩

theorem test_meets_updates_3b : ∃ (c : Nat) (s : State),
    s.dev.calm ∧ s.dev.runs domAon = true ∧ s.dev.runs domXspi = true ∧ s.dev.runs domFab = true ∧
    s.dev.start.updRun = some 1 ∧ s.dev.sec.recheck = none ∧ 64 ≤ s.dev.reg DEV_UPD_LEN ∧
    imgCandidate s.dev.updRead = true ∧
    (imgLen s.dev.updRead + (if imgSigned s.dev.updRead then 200 else 0) ≤ s.dev.reg DEV_UPD_LEN) ∧
    s.dev.imgVerify s.dev.updRead = c :=
  ⟨3,
   (⟨{ (wImgDev [(DEV_UPD_BASE, 0x1000), (DEV_UPD_LEN, 80)] 1 5) with start := { ((wImgDev [(DEV_UPD_BASE, 0x1000), (DEV_UPD_LEN, 80)] 1 5)).start with updRun := some 1 }, creel := storeBytes ramDefault [] 0x1000 ((wImage 7).take 79) }, Otp.blank, []⟩ : State),
   calm_of_regs rfl (by decide +kernel), by decide +kernel⟩

theorem test_meets_updates_4 : ∃ (k : Nat) (s : State),
    s.dev.calm ∧ s.dev.runs domAon = true ∧ s.dev.runs domXspi = true ∧ s.dev.runs domFab = true ∧
    s.dev.start.updRun = some 2 ∧ s.dev.sec.recheck = none ∧ s.dev.on THM_STATUS_NVM_HOLD = false ∧
    s.dev.reg DEV_UPD_LEN ≤ 0x800000 ∧ k = s.dev.otherSlot * 0x800000 :=
  ⟨0x800000,
   (⟨{ (wImgDev [(DEV_UPD_BASE, 0x1000), (DEV_UPD_LEN, 80)] 1 5).puts [(DEV_STATE_SLOT, 0)] with start := { ((wImgDev [(DEV_UPD_BASE, 0x1000), (DEV_UPD_LEN, 80)] 1 5).puts [(DEV_STATE_SLOT, 0)]).start with updRun := some 2 }, creel := storeBytes ramDefault [] 0x1000 (wImage 7) }, Otp.blank, []⟩ : State),
   calm_of_regs rfl (by decide +kernel), by decide +kernel⟩

theorem test_meets_updates_5 : ∃ (k : Nat) (s : State),
    s.dev.calm ∧ s.dev.runs domAon = true ∧ s.dev.runs domXspi = true ∧ s.dev.runs domFab = true ∧
    s.dev.start.updRun = some 3 ∧ s.dev.sec.recheck = none ∧ k = s.dev.otherSlot ∧
    imgCandidate (s.dev.slotRead k) = true ∧ s.dev.imgVerify (s.dev.slotRead k) = 0 :=
  ⟨1,
   (⟨{ (wImgDev [] 1 5).puts [(DEV_STATE_SLOT, 0)] with start := { ((wImgDev [] 1 5).puts [(DEV_STATE_SLOT, 0)]).start with updRun := some 3 } }, Otp.blank, []⟩ : State),
   calm_of_regs rfl (by decide +kernel), by decide +kernel⟩

theorem test_meets_updates_6 : ∃ (k : Nat) (c : Nat) (digest : List Byte) (s : State),
    s.dev.calm ∧ s.dev.runs domAon = true ∧ s.dev.runs domXspi = true ∧ s.dev.runs domFab = true ∧
    s.dev.sec.staged = some (digest, k) ∧ s.dev.get DEV_UPD_STAT_STATE = 3 ∧ s.dev.start.passTwo = false ∧
    s.dev.applyDue = true ∧ s.dev.shd.pass = none ∧ imgDigest (s.dev.slotRead k) = digest ∧
    imgSections (s.dev.slotRead k) = [⟨15, 0, 0, 0, 0, c, 80⟩] :=
  ⟨1,
   861359804,
   (imgDigest ((wImgDev [] 1 5).slotRead 1)),
   (⟨{ (wImgDev [] 1 5).puts [(DEV_UPD_STAT_STATE, 3), (DEV_STATE_STATE, 6)] with start := { ((wImgDev [] 1 5).puts [(DEV_UPD_STAT_STATE, 3), (DEV_STATE_STATE, 6)]).start with updRun := none }, sec := { wbase.sec with staged := some (imgDigest ((wImgDev [] 1 5).slotRead 1), 1) } }, Otp.blank, []⟩ : State),
   calm_of_regs rfl (by decide +kernel), by decide +kernel⟩

theorem test_meets_updates_7 : ∃ (k : Nat) (c : Nat) (digest : List Byte) (s : State),
    s.dev.calm ∧ s.dev.runs domAon = true ∧ s.dev.runs domXspi = true ∧ s.dev.runs domFab = true ∧
    s.dev.sec.staged = some (digest, k) ∧ k < 2 ∧ s.dev.start.passTwo = true ∧ s.dev.start.backState ≠ 7 ∧
    s.dev.start.backState < 16 ∧ s.dev.get DEV_STATE_STATE = 9 ∧ s.dev.closeDone = false ∧
    imgSections (s.dev.slotRead k) = [⟨15, 0, 0, 0, 0, c, 80⟩] :=
  ⟨1,
   861359804,
   [],
   (⟨{ (wImgDev [] 1 5).puts [(DEV_UPD_STAT_STATE, 3), (DEV_STATE_STATE, 9)] with start := { ((wImgDev [] 1 5).puts [(DEV_UPD_STAT_STATE, 3), (DEV_STATE_STATE, 9)]).start with passTwo := true, backState := 6 }, sec := { wbase.sec with staged := some ([], 1) } }, Otp.blank, []⟩ : State),
   calm_of_regs rfl (by decide +kernel), by decide +kernel⟩

theorem test_meets_updates_8 : ∃ (c : Nat) (digest : List Byte) (s : State),
    s.dev.calm ∧ s.dev.runs domAon = true ∧ s.dev.runs domXspi = true ∧ s.dev.runs domFab = true ∧
    s.dev.sec.recheck = some c ∧ c < 8 ∧ digest = imgDigest (s.dev.slotRead (s.dev.get DEV_STATE_SLOT)) :=
  ⟨2,
   (imgDigest ((wImgDev [] 1 5).slotRead 1)),
   (⟨{ (wImgDev [] 1 5).puts [(DEV_STATE_SLOT, 1)] with start := { ((wImgDev [] 1 5).puts [(DEV_STATE_SLOT, 1)]).start with updRun := none }, sec := { wbase.sec with recheck := some 2, digest := imgDigest ((wImgDev [] 1 5).slotRead 1) } }, Otp.blank, []⟩ : State),
   calm_of_regs rfl (by decide +kernel), by decide +kernel⟩

theorem test_meets_updates_8b : ∃ (c : Nat) (digest : List Byte) (s : State),
    s.dev.calm ∧ s.dev.runs domAon = true ∧ s.dev.runs domXspi = true ∧ s.dev.runs domFab = true ∧
    s.dev.sec.recheck = some c ∧ c < 8 ∧ digest = imgDigest (s.dev.slotRead (s.dev.get DEV_STATE_SLOT)) :=
  ⟨2,
   (imgDigest ((wImgDev [] 1 5).slotRead 1)),
   (⟨{ (wImgDev [] 1 5).puts [(DEV_STATE_SLOT, 1)] with start := { ((wImgDev [] 1 5).puts [(DEV_STATE_SLOT, 1)]).start with updRun := none }, sec := { wbase.sec with recheck := some 2 } }, Otp.blank, []⟩ : State),
   calm_of_regs rfl (by decide +kernel), by decide +kernel⟩

theorem test_meets_dram_control_1 : ∃ (s : State),
    s.dev.calm ∧ s.dev.runs domFab = true ∧ s.dev.on DRC_CTRL_ENABLE = false ∧ s.dev.drcState ≠ 1 :=
  ⟨wst ({ wdev [] with drc := { wbase.drc with selfRef := Vector.replicate 2 true } }),
   calm_of_regs rfl (by decide +kernel), by decide +kernel⟩

theorem test_meets_dram_control_1b : ∃ (s : State),
    s.dev.calm ∧ s.dev.runs domFab = true ∧ s.dev.on DRC_CTRL_ENABLE = false ∧ s.dev.drcState ≠ 1 :=
  ⟨wst (wdev [(DRC_FREQ, 1)]),
   calm_of_regs rfl (by decide +kernel), by decide +kernel⟩

theorem test_meets_dram_control_2 : ∃ (s : State),
    s.dev.calm ∧ s.dev.runs domFab = true ∧ s.dev.on DRC_CTRL_ENABLE = true :=
  ⟨wst ((wdev [(DRC_CTRL, 3)]).puts [(DRC_STATUS_STATE, 2), (DRC_STATUS_TRAINED0, 1)]),
   calm_of_regs rfl (by decide +kernel), by decide +kernel⟩

theorem test_meets_dram_control_2b : ∃ (s : State),
    s.dev.calm ∧ s.dev.runs domFab = true ∧ s.dev.on DRC_CTRL_ENABLE = true :=
  ⟨wst ((wdev [(DRC_CTRL, 3)]).puts [(DRC_STATUS_STATE, 1), (DRC_STATUS_STEP, 4)]),
   calm_of_regs rfl (by decide +kernel), by decide +kernel⟩

theorem test_meets_dram_control_3 : ∃ (s : State),
    s.dev.calm ∧ s.dev.runs domFab = true ∧ s.dev.drcState = 1 ∧ s.dev.drc.stopDue = false ∧
    s.dev.get DRC_FREQ_TARGET = s.dev.get DRC_STATUS_SP ∧ s.dev.get DRC_STATUS_STEP < 7 :=
  ⟨wst ((wdev [(DRC_CTRL, 3)]).puts [(DRC_STATUS_STATE, 1), (DRC_STATUS_STEP, 6)]),
   calm_of_regs rfl (by decide +kernel), by decide +kernel⟩

theorem test_meets_dram_control_4 : ∃ (s : State),
    s.dev.calm ∧ s.dev.runs domFab = true ∧ s.dev.drcState = 1 ∧ s.dev.drc.stopDue = false ∧
    s.dev.get DRC_FREQ_TARGET = s.dev.get DRC_STATUS_SP ∧ s.dev.get DRC_STATUS_STEP = 7 ∧
    s.dev.get DEV_STATE_STATE ∉ [4, 8] :=
  ⟨wst ({ (wdev [(DRC_CTRL, 3)]).puts [(DRC_STATUS_STATE, 1), (DRC_STATUS_STEP, 7)] with drc := { wbase.drc with switching := true } }),
   calm_of_regs rfl (by decide +kernel), by decide +kernel⟩

theorem test_meets_dram_control_5 : ∃ (s : State),
    s.dev.calm ∧ s.dev.runs domFab = true ∧ s.dev.drcState = 1 ∧ s.dev.drc.stopDue = false ∧
    s.dev.get DRC_FREQ_TARGET = s.dev.get DRC_STATUS_SP ∧ s.dev.get DEV_STATE_STATE ≠ 4 :=
  ⟨wst ((wdev [(DRC_CTRL, 3)]).puts [(DRC_STATUS_STATE, 1), (DRC_STATUS_STEP, 3)]),
   calm_of_regs rfl (by decide +kernel), by decide +kernel⟩

theorem test_meets_dram_control_6 : ∃ (s : State),
    s.dev.calm ∧ s.dev.runs domFab = true ∧ s.dev.drcState = 2 ∧ s.dev.drc.retrainDue = false :=
  ⟨wst ((wdev [(DRC_CTRL, 3)]).puts [(DRC_STATUS_STATE, 2)]),
   calm_of_regs rfl (by decide +kernel), by decide +kernel⟩

theorem test_meets_dram_control_6b : ∃ (s : State),
    s.dev.calm ∧ s.dev.runs domFab = true ∧ s.dev.drcState = 2 ∧ s.dev.drc.retrainDue = false :=
  ⟨wst ((wdev [(DRC_CTRL, 3)]).puts [(DRC_STATUS_STATE, 2)]),
   calm_of_regs rfl (by decide +kernel), by decide +kernel⟩

theorem test_meets_dram_control_7 : ∃ (s : State),
    s.dev.calm ∧ s.dev.runs domFab = true ∧ s.dev.drcState = 3 :=
  ⟨wst ((wdev [(DRC_FREQ, 1)]).puts [(DRC_STATUS_STATE, 3), (DRC_STATUS_TRAINED0, 1)]),
   calm_of_regs rfl (by decide +kernel), by decide +kernel⟩

theorem test_meets_dram_control_7b : ∃ (s : State),
    s.dev.calm ∧ s.dev.runs domFab = true ∧ s.dev.drcState = 3 :=
  ⟨wst ((wdev [(DRC_FREQ, 1)]).puts [(DRC_STATUS_STATE, 3), (DRC_STATUS_TRAINED1, 1)]),
   calm_of_regs rfl (by decide +kernel), by decide +kernel⟩

theorem test_meets_dram_control_8 : ∃ (w : Word) (c : Channel) (r : Fin 2) (k : Nat) (s : State),
    s.dev.calm ∧ s.dev.runs domFab = true ∧ s.dev.on DRC_OPT_RETRAIN_EN = true ∧ s.dev.drcState = 2 ∧
    w.toNat < 65536 ∧ (k = s.dev.reg (if r.val = 0 then DRCC_OSC0 c else DRCC_OSC1 c) / 65536) :=
  ⟨0x300,
   1,
   1,
   0x200,
   wst ((wdev [(DRCC_OSC1 1, 0x02000201), (DRC_DRIFT_LIM, 0x40)]).puts [(DRC_STATUS_STATE, 2)]),
   calm_of_regs rfl (by decide +kernel), by decide +kernel⟩

theorem test_meets_dram_control_8b : ∃ (w : Word) (c : Channel) (r : Fin 2) (k : Nat) (s : State),
    s.dev.calm ∧ s.dev.runs domFab = true ∧ s.dev.on DRC_OPT_RETRAIN_EN = true ∧ s.dev.drcState = 2 ∧
    w.toNat < 65536 ∧ (k = s.dev.reg (if r.val = 0 then DRCC_OSC0 c else DRCC_OSC1 c) / 65536) :=
  ⟨0x300,
   1,
   1,
   0x200,
   wst ((wdev [(DRCC_OSC1 1, 0x02000201), (DRC_DRIFT_LIM, 0x100)]).puts [(DRC_STATUS_STATE, 2)]),
   calm_of_regs rfl (by decide +kernel), by decide +kernel⟩

theorem test_meets_dram_reads_1 : ∃ (c : Channel) (r : Fin 2) (k : Nat) (s : State),
    s.dev.calm ∧ s.dev.runs domFab = true ∧ s.dev.drcState = 2 ∧ vat s.dev.drc.selfRef c = false ∧
    k = vat s.dev.drc.postponed ⟨c.val * 2 + r.val, by omega⟩ :=
  ⟨1,
   0,
   3,
   wst ({ (wdev []).puts [(DRC_STATUS_STATE, 2)] with drc := { wbase.drc with postponed := Vector.replicate 4 3 } }),
   calm_of_regs rfl (by decide +kernel), by decide +kernel⟩

theorem test_meets_dram_reads_1b : ∃ (c : Channel) (r : Fin 2) (k : Nat) (s : State),
    s.dev.calm ∧ s.dev.runs domFab = true ∧ s.dev.drcState = 2 ∧ vat s.dev.drc.selfRef c = false ∧
    k = vat s.dev.drc.postponed ⟨c.val * 2 + r.val, by omega⟩ :=
  ⟨0,
   0,
   4,
   wst ({ (wdev []).puts [(DRC_STATUS_STATE, 2)] with drc := { wbase.drc with postponed := Vector.replicate 4 4 } }),
   calm_of_regs rfl (by decide +kernel), by decide +kernel⟩

theorem test_meets_dram_reads_2 : ∃ (c : Channel) (s : State),
    s.dev.calm ∧ s.dev.runs domFab = true ∧ s.dev.drcState = 2 ∧ s.dev.on DRC_OPT_SR_EN = true ∧
    s.dev.panicNow = false ∧ (∀ q : Fin 4, vat s.dev.drc.postponed q = 0) ∧ vat s.dev.drc.selfRef c = false ∧
    (∀ m, m < 16 → s.dev.bobOpen m = false) ∧ (c.val = 1 → s.dev.on DRC_CTRL_CH1_EN = true) :=
  ⟨0,
   wst ((wdev []).puts [(DRC_STATUS_STATE, 2)]),
   calm_of_regs rfl (by decide +kernel), by decide +kernel⟩

theorem test_meets_dram_reads_2b : ∃ (c : Channel) (s : State),
    s.dev.calm ∧ s.dev.runs domFab = true ∧ s.dev.drcState = 2 ∧ s.dev.on DRC_OPT_SR_EN = true ∧
    s.dev.panicNow = false ∧ (∀ q : Fin 4, vat s.dev.drc.postponed q = 0) ∧ vat s.dev.drc.selfRef c = false ∧
    (∀ m, m < 16 → s.dev.bobOpen m = false) ∧ (c.val = 1 → s.dev.on DRC_CTRL_CH1_EN = true) :=
  ⟨1,
   wst ((wdev []).puts [(DRC_STATUS_STATE, 2), (DRC_CTRL_CH1_EN, 1)]),
   calm_of_regs rfl (by decide +kernel), by decide +kernel⟩

theorem test_meets_dram_reads_3 : ∃ (c : Channel) (k : Nat) (s : State),
    s.dev.calm ∧ s.dev.runs domFab = true ∧ s.dev.drcState = 2 ∧ s.dev.on DRC_OPT_SCRUB_EN = true ∧
    (c.val = 1 → s.dev.on DRC_CTRL_CH1_EN = true) ∧ k = vat s.dev.drc.scrubAt c ∧ k + 1 < s.dev.channelBursts :=
  ⟨0,
   7,
   wst ({ (wdev []).puts [(DRC_STATUS_STATE, 2)] with drc := { wbase.drc with scrubAt := Vector.replicate 2 7 } }),
   calm_of_regs rfl (by decide +kernel), by decide +kernel⟩

theorem test_meets_dram_reads_4 : ∃ (n : Nat) (b : Bobbin) (s : State),
    s.dev.calm ∧ s.dev.runs domFab = true ∧ s.dev.drcState = 2 ∧ s.dev.on (CRLB_STATUS_PANIC b.val) = true ∧
    s.dev.reg DRC_PANIC_MAX % 65536 < n :=
  ⟨200,
   3,
   wst ((wdev [(CRLB_STATUS 3, 0xFFFF)]).puts [(DRC_STATUS_STATE, 2)]),
   calm_of_regs rfl (by decide +kernel), by decide +kernel⟩

theorem test_meets_dram_reads_4b : ∃ (n : Nat) (b : Bobbin) (s : State),
    s.dev.calm ∧ s.dev.runs domFab = true ∧ s.dev.drcState = 2 ∧ s.dev.on (CRLB_STATUS_PANIC b.val) = true ∧
    s.dev.reg DRC_PANIC_MAX % 65536 < n :=
  ⟨99999,
   3,
   wst ((wdev [(CRLB_STATUS 3, 0xFFFF)]).puts [(DRC_STATUS_STATE, 2)]),
   calm_of_regs rfl (by decide +kernel), by decide +kernel⟩

theorem test_meets_dram_reads_5 : ∃ (a : Nat) (k : Nat) (s : State),
    s.dev.calm ∧ s.dev.runs domFab = true ∧ s.dev.drcState = 2 ∧ s.dev.inDram a 1 = true ∧ a < 2 ^ 36 ∧
    s.dev.reg DRC_MARK_THR % 65536 = 0 ∧ k = (s.dev.dramLoc a).1 :=
  ⟨0x123456789,
   1,
   wst ((wdev [(DRC_CTRL, 0x3F), (DRC_MARK_THR, 0)]).puts [(DRC_STATUS_STATE, 2)]),
   calm_of_regs rfl (by decide +kernel), by decide +kernel⟩

theorem test_meets_dram_reads_5b : ∃ (a : Nat) (k : Nat) (s : State),
    s.dev.calm ∧ s.dev.runs domFab = true ∧ s.dev.drcState = 2 ∧ s.dev.inDram a 1 = true ∧ a < 2 ^ 36 ∧
    s.dev.reg DRC_MARK_THR % 65536 = 0 ∧ k = (s.dev.dramLoc a).1 :=
  ⟨0x1000,
   0,
   wst ({ (wdev [(DRC_MARK_THR, 0)]).puts [(DRC_STATUS_STATE, 2)] with drc := { wbase.drc with ceSeen := true } }),
   calm_of_regs rfl (by decide +kernel), by decide +kernel⟩

theorem test_meets_dram_reads_6 : ∃ (a : Nat) (k : Nat) (s : State),
    s.dev.calm ∧ s.dev.runs domFab = true ∧ s.dev.drcState = 2 ∧ s.dev.inDram a 1 = true ∧ a < 2 ^ 36 ∧
    k = (s.dev.dramLoc a).1 :=
  ⟨0x1000,
   0,
   wst ((wdev []).puts [(DRC_STATUS_STATE, 2)]),
   calm_of_regs rfl (by decide +kernel), by decide +kernel⟩

theorem test_meets_grid_commands_1 : ∃ (k : Nat) (s : State),
    s.dev.calm ∧ s.dev.runs domFab = true ∧ s.dev.shadow = [] ∧ s.dev.on (NETT_CTRL_EN 0) = true ∧
    s.dev.t0.tick = k :=
  ⟨2000001,
   wst { wdev [(NETT_CTRL 0, 1), (EVT_FLT_RETIRED, 0xFFFF)] with bases := vmod wbase.bases 0 (fun (x : TimeBase) => { x with now := ⟨1, 500, 0⟩ }) },
   calm_of_regs rfl (by decide +kernel), by decide +kernel⟩

theorem test_meets_grid_commands_1b : ∃ (k : Nat) (s : State),
    s.dev.calm ∧ s.dev.runs domFab = true ∧ s.dev.shadow = [] ∧ s.dev.on (NETT_CTRL_EN 0) = true ∧
    s.dev.t0.tick = k :=
  ⟨2000000,
   wst { wdev [(NETT_CTRL 0, 1), (EVT_FLT_RETIRED, 0xFFFF)] with bases := vmod wbase.bases 0 (fun (x : TimeBase) => { x with now := ⟨1, 0, 0⟩ }) },
   calm_of_regs rfl (by decide +kernel), by decide +kernel⟩

theorem test_meets_grid_commands_2 : ∃ (p : Nat) (s : State),
    s.dev.calm ∧ s.dev.runs domFab = true ∧ s.dev.shadow = [] ∧ s.dev.on (NETT_CTRL_EN 0) = true ∧
    s.dev.t0.tick = 4 * p ∧ s.dev.grid.lastPeriod ≠ some p :=
  ⟨500001,
   wst { wdev [(NETT_CTRL 0, 1), (EVT_FLT_RETIRED, 0xFFFF)] with bases := vmod wbase.bases 0 (fun (x : TimeBase) => { x with now := ⟨1, 2000, 0⟩ }) },
   calm_of_regs rfl (by decide +kernel), by decide +kernel⟩

theorem test_meets_grid_commands_3 : ∃ (p : Nat) (k : Nat) (s : State),
    s.dev.calm ∧ s.dev.runs domFab = true ∧ s.dev.shadow = [] ∧ s.dev.on (NETT_CTRL_EN 0) = true ∧
    s.dev.t0.tick = 2000 * p ∧ s.dev.grid.lastMs ≠ some p ∧ s.dev.ev.held.length = k ∧
    s.dev.wal.lost = (0, 0, 0) ∧ 64 * k + stagedBytes s.dev.wal.staged ≤ min s.dev.logReserve s.dev.logCapacity ∧
    s.dev.drcState ≠ 2 :=
  ⟨1000,
   2,
   wst { wdev [(NETT_CTRL 0, 1), (WAL_OP_TIME, 5)] with bases := vmod wbase.bases 0 (fun (x : TimeBase) => { x with now := ⟨1, 0, 0⟩ }), ev := { wbase.ev with held := [⟨96, 0, 3, 1, 2, 0⟩, ⟨98, 0, 1, 1, 2, 0⟩], logged := [96, 98], cdcSeen := true }, wal := { wbase.wal with opMs := 999 } },
   calm_of_regs rfl (by decide +kernel), by decide +kernel⟩

theorem test_meets_grid_commands_4 : ∃ (s : State),
    s.dev.calm ∧ s.dev.runs domFab = true ∧ s.dev.shadow = [] ∧ s.dev.on (NETT_CTRL_EN 0) = false :=
  ⟨wst wbase,
   calm_of_regs rfl (by decide +kernel), by decide +kernel⟩

end
end

/-!
PROOFS of the management space: first what an access, a field class and a waiting write do, then the
statements.
-/
namespace Sys2Proof.Machine

open Reg

/-! ### What a management access does (R10, R11, R43, R45, R49) -/

/-- While PORST_N is high and no reaction waits after it, a command of a pin-clocked path is its own effect. -/
theorem actPath_run {f : Dev → Dev} {s : State} (hp : s.dev.start.porstLow = false) (hq : (f s.dev).ev.reacts = []) :
    actPath f s = .next { s with dev := f s.dev } := by
  simp [actPath, hp, settle_of_reacts hq]

theorem exec_registerWrite {p : Path} {a w : Word} {s : State} (hp : s.dev.start.porstLow = false)
    (hq : (mgmtAccess ⟨p, true, a.toNat, w.toNat⟩ s.dev).ev.reacts = []) :
    exec (.registerWrite p a w) s = .next { s with dev := mgmtAccess ⟨p, true, a.toNat, w.toNat⟩ s.dev } :=
  actPath_run hp hq

theorem exec_registerReadClear {p : Path} {a : Word} {s : State} (hp : s.dev.start.porstLow = false)
    (hq : (mgmtAccess ⟨p, false, a.toNat, 0⟩ s.dev).ev.reacts = []) :
    exec (.registerReadClear p a) s = .next { s with dev := mgmtAccess ⟨p, false, a.toNat, 0⟩ s.dev } :=
  actPath_run hp hq

@[simp] theorem answer_regs (p : Path) (st v : Nat) (d : Dev) : (answer p st v d).regs = d.regs := by cases p <;> rfl
@[simp] theorem answer_reg (p : Path) (st v a : Nat) (d : Dev) : (answer p st v d).reg a = d.reg a :=
  reg_of_regs (answer_regs p st v d) a
@[simp] theorem answer_shadow (p : Path) (st v : Nat) (d : Dev) : (answer p st v d).shadow = d.shadow := by
  cases p <;> rfl
@[simp] theorem answer_ev (p : Path) (st v : Nat) (d : Dev) : (answer p st v d).ev = d.ev := by cases p <;> rfl
@[simp] theorem answer_start (p : Path) (st v : Nat) (d : Dev) : (answer p st v d).start = d.start := by cases p <;> rfl
@[simp] theorem answer_written (p : Path) (st v a : Nat) (d : Dev) : (answer p st v d).written a = d.written a := by
  simp [Dev.written]

/-- An answer reaches nothing but the status and data words of its path. -/
theorem answer_mgm_only (p : Path) (st v : Nat) (d : Dev) : answer p st v d = { d with mgm := (answer p st v d).mgm } := by
  cases p <;> rfl

/-- The words that an answer leaves depend on those before it alone. -/
theorem answer_mgm_congr (p : Path) (st v : Nat) {d t : Dev} (h : t.mgm = d.mgm) :
    (answer p st v t).mgm = (answer p st v d).mgm := by
  cases p <;> simp [answer, Dev.mgmMod, h]

@[simp] theorem answer_pathHeld (p q : Path) (st v : Nat) (d : Dev) :
    (answer p st v d).pathHeld q = d.pathHeld q := by cases p <;> rfl

/-- An answer adds to a change of registers its own path's words alone. -/
theorem regsOnly_answer {L : List Nat} {d t : Dev} (p : Path) (st v : Nat) (h : d.regsOnly L t) :
    Dev.regsOnly L { d with mgm := (answer p st v t).mgm } (answer p st v t) := by
  obtain ⟨hrest, hregs⟩ := h
  refine ⟨?_, fun x hx => by rw [answer_reg]; exact hregs x hx⟩
  rw [answer_mgm_only, hrest]

theorem reachable_of_clocks {d t : Dev} (hr : t.regs = d.regs) (hs : t.start = d.start) (p : Path) (a : Nat) :
    t.reachable p a = d.reachable p a := by
  simp only [Dev.reachable, Dev.fabRuns, Dev.runs, reg_of_regs hr, hs]

theorem mgmtAccess_free {x : MgmtAccess} {d : Dev} (hf : d.pathHeld x.path = false) (hr : d.reachable x.path x.addr = true) :
    mgmtAccess x d = perform x d := by
  simp [mgmtAccess, hf, hr]

theorem mgmtAccess_held {x : MgmtAccess} {d : Dev} (h : (d.pathHeld x.path || !d.reachable x.path x.addr) = true) :
    mgmtAccess x d = answer x.path 1 0 (d.mgmMod fun m => { m with held := m.held ++ [x] }) := if_pos h

theorem perform_misaligned {x : MgmtAccess} (h : x.addr % 4 ≠ 0) (d : Dev) : perform x d = answer x.path 2 0 d := if_pos h

theorem perform_aligned {x : MgmtAccess} (h : x.addr % 4 = 0) (d : Dev) :
    perform x d = answer x.path 0 (accessWord x.write x.addr x.data d).1 (accessWord x.write x.addr x.data d).2 := by
  simp [perform, h]

theorem accessWord_readWindow {a : Nat} (h : inWindow a = true) (w : Nat) (d : Dev) :
    accessWord false a w d = (d.creelNat (a - 0x1000000) 4, d) := by
  simp [accessWord, h]

theorem accessWord_writeWindow {a : Nat} (h : inWindow a = true) (w : Nat) (d : Dev) :
    accessWord true a w d = (0, if a < 0x2FE0000 then d.setCreelBytes (a - 0x1000000) (leBytes 4 w) else d) := by
  simp [accessWord, h]

theorem accessWord_readReg {a : Nat} (h : inWindow a = false) (w : Nat) (d : Dev) :
    accessWord false a w d = (viewReg false a d, readClear a d) := by
  simp [accessWord, h]

theorem accessWord_writeReg {a : Nat} (h : inWindow a = false) (w : Nat) (d : Dev) :
    accessWord true a w d = (0, writeReg a w d) := by
  simp [accessWord, h]

/-! ### Accesses carried through the command -/

/-- An access of path `p` to address `a` is taken at once: PORST_N is high, no reaction waits, no earlier access holds the
path, and the clock that it needs runs. -/
structure Dev.serves (p : Path) (a : Nat) (d : Dev) : Prop where
  released : d.start.porstLow = false
  quiet : d.ev.reacts = []
  free : d.pathHeld p = false
  reach : d.reachable p a = true

section
variable {p : Path} {a w : Word} {s : State}

/-- A misaligned access on a free path (R10). -/
theorem exec_misaligned (hs : s.dev.serves p a.toNat) (ha : a.toNat % 4 ≠ 0) :
    exec (.registerWrite p a w) s = .next { s with dev := answer p 2 0 s.dev } ∧
      exec (.registerReadClear p a) s = .next { s with dev := answer p 2 0 s.dev } := by
  have access (write : Bool) (x : Nat) : mgmtAccess ⟨p, write, a.toNat, x⟩ s.dev = answer p 2 0 s.dev := by
    rw [mgmtAccess_free hs.free hs.reach, perform_misaligned ha]
  constructor
  · rw [exec_registerWrite hs.released (by simp [access, hs.quiet]), access]
  · rw [exec_registerReadClear hs.released (by simp [access, hs.quiet]), access]

/-- An aligned access that is taken at once is performed. -/
theorem mgmtAccess_performed {write : Bool} {a x v : Nat} {d t : Dev} (hs : d.serves p a) (ha : a % 4 = 0)
    (h : accessWord write a x d = (v, t)) : mgmtAccess ⟨p, write, a, x⟩ d = answer p 0 v t := by
  rw [mgmtAccess_free hs.free hs.reach, perform_aligned ha, h]

theorem exec_write_performed (hs : s.dev.serves p a.toNat) (ha : a.toNat % 4 = 0) {v : Nat} {d : Dev}
    (h : accessWord true a.toNat w.toNat s.dev = (v, d)) (hq : d.ev.reacts = []) :
    exec (.registerWrite p a w) s = .next { s with dev := answer p 0 v d } := by
  have access := mgmtAccess_performed hs ha h
  rw [exec_registerWrite hs.released (by simp [access, hq]), access]

theorem exec_read_performed (hs : s.dev.serves p a.toNat) (ha : a.toNat % 4 = 0) {v : Nat} {d : Dev}
    (h : accessWord false a.toNat 0 s.dev = (v, d)) (hq : d.ev.reacts = []) :
    exec (.registerReadClear p a) s = .next { s with dev := answer p 0 v d } := by
  have access := mgmtAccess_performed hs ha h
  rw [exec_registerReadClear hs.released (by simp [access, hq]), access]

/-- An access waits where its path is held or its clock stands, and its path is told so (R45, R49). -/
theorem exec_held (hp : s.dev.start.porstLow = false) (hc : s.dev.calm)
    (h : (s.dev.pathHeld p || !s.dev.reachable p a.toNat) = true) :
    exec (.registerWrite p a w) s = .next { s with
        dev := answer p 1 0 (s.dev.mgmMod fun m => { m with held := m.held ++ [⟨p, true, a.toNat, w.toNat⟩] }) } ∧
      exec (.registerReadClear p a) s = .next { s with
        dev := answer p 1 0 (s.dev.mgmMod fun m => { m with held := m.held ++ [⟨p, false, a.toNat, 0⟩] }) } := by
  have access (write : Bool) (x : Nat) : mgmtAccess ⟨p, write, a.toNat, x⟩ s.dev =
      answer p 1 0 (s.dev.mgmMod fun m => { m with held := m.held ++ [⟨p, write, a.toNat, x⟩] }) := mgmtAccess_held h
  have quiet (write : Bool) (x : Nat) : (mgmtAccess ⟨p, write, a.toNat, x⟩ s.dev).ev.reacts = [] := by
    rw [access, answer_ev]
    exact hc.1
  exact ⟨by rw [exec_registerWrite hp (quiet _ _), access], by rw [exec_registerReadClear hp (quiet _ _), access]⟩

end

/-! ### Fields by access code, bit by bit (R13) -/

@[simp] theorem setMasked_ev (a w mask : Nat) (d : Dev) : (setMasked a w mask d).ev = d.ev := by
  unfold setMasked; split <;> rfl
@[simp] theorem setMasked_mgm (a w mask : Nat) (d : Dev) : (setMasked a w mask d).mgm = d.mgm := by
  unfold setMasked; split <;> rfl

theorem setMasked_regsOnly (a w mask : Nat) (d : Dev) : d.regsOnly [a] (setMasked a w mask d) := by
  unfold setMasked
  split
  · exact regsOnly_refl d [a]
  · exact regsOnly_setReg d a _

@[simp] theorem readClear_ev (a : Nat) (d : Dev) : (readClear a d).ev = d.ev := by
  unfold readClear; split <;> simp
@[simp] theorem readClear_mgm (a : Nat) (d : Dev) : (readClear a d).mgm = d.mgm := by
  unfold readClear; split <;> simp

theorem bit_mergeBits (old new : Nat) {mask i : Nat} (hm : mask < 2 ^ 32) (hi : i < 32) :
    bit (mergeBits old new mask) i = if bit mask i then bit new i else bit old i := by
  have hn : (0xFFFFFFFF - mask).testBit i = !mask.testBit i := by
    have := Nat.testBit_two_pow_sub_succ hm i
    rwa [show 2 ^ 32 - (mask + 1) = 0xFFFFFFFF - mask by omega, decide_eq_true hi, Bool.true_and] at this
  change (old &&& (0xFFFFFFFF - mask) ||| new &&& mask).testBit i = _
  rw [Nat.testBit_or, Nat.testBit_and, Nat.testBit_and, hn]
  cases h : mask.testBit i <;> simp [bit, h]

/-- Under its mask the register takes the bits written; its other bits stand. -/
theorem bit_setMasked (a w : Nat) {mask i : Nat} (d : Dev) (hm : mask < 2 ^ 32) (hi : i < 32) :
    bit ((setMasked a w mask d).reg a) i = if bit mask i then bit w i else bit (d.reg a) i := by
  unfold setMasked
  split
  · next h => simp [h, bit]
  · rw [reg_setReg_same, bit_mod_word _ _ hi, bit_mergeBits _ _ hm hi]

/-- The masks of a row are those of a 32-bit register, and no bit is both plainly writable and W1C or W1S, or both of
these. -/
def RegRow.apart (r : RegRow) : Bool :=
  [r.rw, r.rws, r.rwl, r.w1c, r.w1s, r.rc].all (· < 2 ^ 32)
    && (r.rw ||| r.rwl) &&& (r.w1c ||| r.w1s) == 0 && r.w1c &&& r.w1s == 0

theorem blocks_apart : ∀ k < 22, (blockRows (k * 0x10000)).all RegRow.apart = true := by decide +kernel

/-- Every row of the register map gives each bit one access code. -/
theorem rowAt_apart {a : Nat} {r : RegRow} (h : rowAt a = some r) : r.apart = true := by
  have hm : r ∈ blockRows a := List.mem_of_find?_eq_some h
  by_cases hk : 22 ≤ a / 0x10000
  · rw [blockRows_high hk] at hm; exact nomatch hm
  · rw [blockRows_block] at hm
    exact List.all_eq_true.1 (blocks_apart _ (by omega)) r hm

/-- No bit lies in both of two disjoint masks. -/
theorem bit_of_land_eq_zero {x y i : Nat} (h : x &&& y = 0) (hx : bit x i = true) : bit y i = false := by
  have := congrArg (Nat.testBit · i) h
  simpa [bit, Nat.testBit_and, show x.testBit i = true from hx] using this

/-- What a row's masks being apart says. -/
theorem RegRow.apart_iff (r : RegRow) : r.apart = true ↔
    (r.rw < 2 ^ 32 ∧ r.rws < 2 ^ 32 ∧ r.rwl < 2 ^ 32 ∧ r.w1c < 2 ^ 32 ∧ r.w1s < 2 ^ 32 ∧ r.rc < 2 ^ 32) ∧
      (r.rw ||| r.rwl) &&& (r.w1c ||| r.w1s) = 0 ∧ r.w1c &&& r.w1s = 0 := by
  simp [RegRow.apart, and_assoc]

/-- The value in force after a write of the register at `a`, its RWL fields not locked. -/
def writeInForce (r : RegRow) (a w : Nat) (d : Dev) : Dev :=
  setMasked a 0xFFFFFFFF (Nat.land w r.w1s) (setMasked a 0 (Nat.land w r.w1c) (setMasked a w r.rw (setMasked a w r.rwl d)))

/-- A plain write where nothing is locked: fields in force change, and RWS fields wait (R13, R15, R16). -/
theorem plainWrite_unlocked {a : Nat} {r : RegRow} {d : Dev} (hr : rowAt a = some r) (hl : lockHeld r.lock a d = false)
    (w : Nat) : plainWrite a w d = if r.rws = 0 then writeInForce r a w d
      else (writeInForce r a w d).setShadow a (mergeBits ((writeInForce r a w d).written a) w r.rws) := by
  have hlock : setLocked r.lock a w r.rwl d = setMasked a w r.rwl d := by
    simp only [setLocked, hl, Bool.false_eq_true, ↓reduceIte]
    split
    · next h => simp [setMasked, h]
    · rfl
  simp only [plainWrite, hr, hlock, writeInForce]

@[simp] theorem writeInForce_ev (r : RegRow) (a w : Nat) (d : Dev) : (writeInForce r a w d).ev = d.ev := by
  simp [writeInForce]

theorem plainWrite_undefined {a : Nat} (h : rowAt a = none) (w : Nat) (d : Dev) : plainWrite a w d = d := by
  simp only [plainWrite, h]

/-- Above the last block a write is a plain one. -/
theorem writeReg_high {a : Nat} (h : 22 ≤ a / 0x10000) (w : Nat) (d : Dev) : writeReg a w d = plainWrite a w d := by
  obtain ⟨k, hk⟩ : ∃ k, a / 0x10000 = k + 22 := ⟨a / 0x10000 - 22, by omega⟩
  simp only [writeReg, hk]

theorem writeInForce_regsOnly (r : RegRow) (a w : Nat) (d : Dev) : d.regsOnly [a] (writeInForce r a w d) :=
  regsOnly_mono (regsOnly_trans (regsOnly_trans (regsOnly_trans (setMasked_regsOnly a w r.rwl d)
    (setMasked_regsOnly a w r.rw _)) (setMasked_regsOnly a 0 _ _)) (setMasked_regsOnly a 0xFFFFFFFF _ _)) (by simp)

theorem bit_land (x y i : Nat) : bit (Nat.land x y) i = (bit x i && bit y i) := Nat.testBit_and x y i

/-- The value in force after a write, bit by bit: RW and RWL take the bit written, W1C clear where 1 is written, W1S set
where 1 is written, and every other bit stands (R13). -/
theorem bit_writeInForce {r : RegRow} (h : r.apart = true) (a w : Nat) {i : Nat} (d : Dev) (hi : i < 32) :
    bit ((writeInForce r a w d).reg a) i =
      if bit r.rw i || bit r.rwl i then bit w i
      else if bit r.w1c i then bit (d.reg a) i && !bit w i
      else if bit r.w1s i then bit (d.reg a) i || bit w i
      else bit (d.reg a) i := by
  obtain ⟨⟨hrw, -, hrwl, hw1c, hw1s, -⟩, hdis, hone⟩ := r.apart_iff.1 h
  have hset : bit (0xFFFFFFFF : Nat) i = true := by
    simpa [bit, hi] using Nat.testBit_two_pow_sub_one 32 i
  have hzero : bit 0 i = false := Nat.zero_testBit i
  unfold writeInForce
  have hclr : Nat.land w r.w1c < 2 ^ 32 := Nat.and_lt_two_pow _ hw1c
  have hone' : Nat.land w r.w1s < 2 ^ 32 := Nat.and_lt_two_pow _ hw1s
  rw [bit_setMasked _ _ _ hone' hi, bit_setMasked _ _ _ hclr hi,
    bit_setMasked _ _ _ hrw hi, bit_setMasked _ _ _ hrwl hi, bit_land, bit_land, hset, hzero]
  have hno : bit (r.rw ||| r.rwl) i = true → bit r.w1c i = false ∧ bit r.w1s i = false := fun hx => by
    simpa [bit] using bit_of_land_eq_zero hdis hx
  have hor : bit (r.rw ||| r.rwl) i = (bit r.rw i || bit r.rwl i) := Nat.testBit_or _ _ _
  by_cases hplain : (bit r.rw i || bit r.rwl i) = true
  · obtain ⟨hc, hs⟩ := hno (hor.trans hplain)
    rw [if_pos hplain, hc, hs]
    rcases (Bool.or_eq_true _ _).mp hplain with hb | hb <;> simp [hb]
  · simp only [Bool.or_eq_true, not_or, Bool.not_eq_true] at hplain
    by_cases hc : bit r.w1c i = true
    · have hs := bit_of_land_eq_zero hone hc
      cases bit w i <;> simp [hplain, hc, hs]
    · cases bit w i <;> cases bit r.w1s i <;> simp [hplain, hc]

/-! ### RWS writes that wait (R15) -/

/-- The entry found under a key is what the store reads there. -/
theorem find?_getD_eq_sget (v : Word) (l : List (Nat × Word)) (k : Nat) :
    ((l.find? (·.1 == k)).map Prod.snd).getD v = sget v l k := by
  induction l with
  | nil => rfl
  | cons e l ih =>
    obtain ⟨j, w⟩ := e
    by_cases h : j = k
    · simp [sget, h]
    · simpa [sget, h] using ih

/-- What was written last is what waits, and the value in force where nothing waits. -/
theorem written_eq (d : Dev) (a : Nat) : d.written a = (sget (BitVec.ofNat 32 (d.reg a)) d.shadow a).toNat := by
  have hnow : (BitVec.ofNat 32 (d.reg a)).toNat = d.reg a := Nat.mod_eq_of_lt (reg_lt d a)
  rw [← find?_getD_eq_sget, Dev.written]
  cases d.shadow.find? (·.1 == a) with
  | none => exact hnow.symm
  | some e => rfl

/-- A write that waits is what was written last. -/
@[simp] theorem written_setShadow_same (d : Dev) (a v : Nat) : (d.setShadow a v).written a = v % 2 ^ 32 := by
  rw [written_eq]
  simp [Dev.setShadow, sget_sinsert_same _ _ _ _ (serase_no_key d.shadow a)]

theorem foldl_commit_other (due : Nat × Word → Bool) {a : Nat} (l : List (Nat × Word)) (h : ∀ e ∈ l, e.1 ≠ a)
    (t : List (Nat × Word)) :
    sget (resetOf a) (l.foldl (fun t e => if due e then commitWord t e else t) t) a = sget (resetOf a) t a := by
  induction l generalizing t with
  | nil => rfl
  | cons e l ih =>
    rw [List.foldl_cons, ih (fun x hx => h x (List.mem_cons_of_mem _ hx))]
    split
    · exact commitWord_ne t e (h e List.mem_cons_self).symm
    · rfl

theorem commitWord_same {a : Nat} {r : RegRow} (hr : rowAt a = some r) (t : List (Nat × Word)) (v : Word) :
    sget (resetOf a) (commitWord t (a, v)) a
      = BitVec.ofNat 32 (mergeBits (sget (resetOf a) t a).toNat v.toNat r.rws) := by
  simp [commitWord, sget_sset_same, hr]

/-- Of the writes that wait, the register takes the one of its own key. -/
theorem foldl_commit_sinsert {due : Nat × Word → Bool} {a : Nat} {r : RegRow} {v : Word} (hr : rowAt a = some r)
    (hd : due (a, v) = true) (l : List (Nat × Word)) (h : ∀ e ∈ l, e.1 ≠ a) (t : List (Nat × Word)) :
    sget (resetOf a) ((sinsert l a v).foldl (fun t e => if due e then commitWord t e else t) t) a
      = BitVec.ofNat 32 (mergeBits (sget (resetOf a) t a).toNat v.toNat r.rws) := by
  induction l generalizing t with
  | nil => simp [sinsert, hd, commitWord_same hr]
  | cons e l ih =>
    obtain ⟨j, x⟩ := e
    by_cases hk : a < j
    · rw [sinsert, if_pos hk, List.foldl_cons, foldl_commit_other due _ h, if_pos hd, commitWord_same hr]
    · have hj : a ≠ j := (h (j, x) List.mem_cons_self).symm
      rw [sinsert, if_neg hk, List.foldl_cons, ih (fun y hy => h y (List.mem_cons_of_mem _ hy))]
      split
      · rw [commitWord_ne t (j, x) hj]
      · rfl

/-- At its boundary the last write that waits comes into force, under the register's RWS mask (R15, R585). -/
theorem reg_commit_setShadow {a lo hi : Nat} {r : RegRow} (hr : rowAt a = some r) (hlo : lo ≤ a) (hhi : a < hi)
    (d : Dev) (v : Nat) :
    ((d.setShadow a v).commit r.boundary lo hi).reg a = mergeBits (d.reg a) (v % 2 ^ 32) r.rws % 2 ^ 32 := by
  simp only [Dev.commit, Dev.setShadow, Dev.reg]
  rw [foldl_commit_sinsert hr (by simp [hlo, hhi, hr]) _ (serase_no_key d.shadow a)]
  rfl

/-- A commit of one device and of another that holds the same registers and the same waiting writes leave the same
registers. -/
theorem commit_regs_congr {d t : Dev} (hr : t.regs = d.regs) (hs : t.shadow = d.shadow) (b : Boundary) (lo hi : Nat) :
    (t.commit b lo hi).regs = (d.commit b lo hi).regs := by
  simp only [Dev.commit, hr, hs]

/-- A plain write of a register whose fields are all RWS waits, whole. -/
theorem plainWrite_rwsOnly {a : Nat} {r : RegRow} (hr : rowAt a = some r) (h : r.rws ≠ 0) (hrw : r.rw = 0)
    (hrwl : r.rwl = 0) (hw1c : r.w1c = 0) (hw1s : r.w1s = 0) (w : Nat) (d : Dev) :
    plainWrite a w d = d.setShadow a (mergeBits (d.written a) w r.rws) := by
  simp [plainWrite, hr, h, hrw, hrwl, hw1c, hw1s, setMasked, setLocked]

/-- A read of an RWS register returns under its mask what was written last (R15). -/
theorem bit_viewReg_rws {a : Nat} {r : RegRow} (hr : rowAt a = some r) (h : r.rws ≠ 0) (d : Dev) {i : Nat} (hi : i < 32)
    (hb : bit r.rws i = true) : bit (viewReg false a d) i = bit (d.written a) i := by
  obtain ⟨⟨-, hrws, -⟩, -⟩ := r.apart_iff.1 (rowAt_apart hr)
  simp [viewReg, hr, h, bit_mergeBits _ _ hrws hi, hb]

theorem viewReg_noRws {a : Nat} {r : RegRow} (hr : rowAt a = some r) (h : r.rws = 0) (d : Dev) :
    viewReg false a d = viewNow a d := by
  simp [viewReg, hr, h]

theorem readClear_row {a : Nat} {r : RegRow} (hr : rowAt a = some r) (d : Dev) :
    readClear a d = setMasked a r.reset r.rc d := by
  simp only [readClear, hr]

/-! ### A plain write as a whole -/

section
variable {a : Nat} {r : RegRow} {d : Dev} (hr : rowAt a = some r) (hl : lockHeld r.lock a d = false)
include hr hl

theorem plainWrite_unlocked_regs (w : Nat) : (plainWrite a w d).regs = (writeInForce r a w d).regs := by
  rw [plainWrite_unlocked hr hl]
  split <;> rfl

theorem plainWrite_unlocked_ev (w : Nat) : (plainWrite a w d).ev = d.ev := by
  rw [plainWrite_unlocked hr hl]
  split
  · exact writeInForce_ev r a w d
  · exact writeInForce_ev r a w d

/-- Beside the writes that wait, a plain write changes its own register alone. -/
theorem plainWrite_unlocked_regsOnly (w : Nat) :
    Dev.regsOnly [a] { d with shadow := (plainWrite a w d).shadow } (plainWrite a w d) := by
  obtain ⟨hrest, hregs⟩ := writeInForce_regsOnly r a w d
  rw [plainWrite_unlocked hr hl]
  split
  · refine ⟨?_, hregs⟩
    rw [hrest]
  · refine ⟨?_, hregs⟩
    rw [Dev.setShadow, hrest]

/-- RWS bits written wait as written (R15). -/
theorem bit_written_plainWrite (w : Nat) {i : Nat} (hi : i < 32) (hb : bit r.rws i = true) :
    bit ((plainWrite a w d).written a) i = bit w i := by
  obtain ⟨⟨-, hrws, -⟩, -⟩ := r.apart_iff.1 (rowAt_apart hr)
  rw [plainWrite_unlocked hr hl]
  split
  · next h => simp [h, bit] at hb
  · rw [written_setShadow_same, bit_mod_word _ _ hi, bit_mergeBits _ _ hrws hi, if_pos hb]

end

/-! ### A write that only waits -/

/-- A write that only waits is answered, and the next access of its path is taken like it. -/
theorem serves_after_wait {p : Path} {a x : Nat} {d : Dev} (h : d.serves p a) :
    (answer p 0 0 (d.setShadow a x)).serves p a where
  released := by simpa using h.released
  quiet := by simpa using h.quiet
  free := by rw [answer_pathHeld]; exact h.free
  reach := by rw [reachable_of_clocks (d := d) (by simp) (by simp)]; exact h.reach

/-- A write of `w` to a register that then only waits: its outcome. -/
theorem write_waits {p : Path} {a w : Word} {x : Nat} {s t : State} (hs : s.dev.serves p a.toNat) (ha : a.toNat % 4 = 0)
    (hw : inWindow a.toNat = false) (hx : writeReg a.toNat w.toNat s.dev = s.dev.setShadow a.toNat x)
    (h : exec (.registerWrite p a w) s = .next t) : t.dev = answer p 0 0 (s.dev.setShadow a.toNat x) := by
  have hdo : accessWord true a.toNat w.toNat s.dev = (0, s.dev.setShadow a.toNat x) := by
    rw [accessWord_writeReg hw, hx]
  rw [exec_write_performed hs ha hdo hs.quiet] at h
  rw [← Host.Outcome.next.inj h]

/-- The word that the host SPI or JTAG reads is the word of the answer. -/
theorem answer_word {p : Path} (h : p ≠ .chain) (st v : Nat) (d : Dev) :
    (if p = .jtag then (answer p st v d).mgm.jtagData else (answer p st v d).mgm.hostData) = v := by
  cases p with
  | chain => exact absurd rfl h
  | hostSpi => rfl
  | jtag => rfl

/-! ### The obligations of the management space -/

/-- Settles O33: each access is carried through the command by the rule of its kind (misaligned, window, register,
undefined, held). -/
theorem registerAccesses : Obligations.RegisterAccesses := by
  unfold Obligations.RegisterAccesses
  intro p a w s hp hc
  refine ⟨?misaligned, ?window, ?undefined, ?register, ?held⟩
  case misaligned =>
    intro hf hr ha
    exact exec_misaligned ⟨hp, hc.1, hf, hr⟩ ha
  case window =>
    intro hf hr ha hw
    have hs : s.dev.serves p a.toNat := ⟨hp, hc.1, hf, hr⟩
    refine ⟨exec_read_performed hs ha (accessWord_readWindow hw _ _) hs.quiet,
      exec_write_performed hs ha (accessWord_writeWindow hw _ _) ?_⟩
    split <;> exact hs.quiet
  case undefined =>
    intro hf hr ha hw hrow hhigh
    have hs : s.dev.serves p a.toNat := ⟨hp, hc.1, hf, hr⟩
    have hread : accessWord false a.toNat 0 s.dev = (0, s.dev) := by
      simp [accessWord_readReg hw, viewReg, readClear, hrow]
    have hwrite : accessWord true a.toNat w.toNat s.dev = (0, s.dev) := by
      rw [accessWord_writeReg hw, writeReg_high (by omega), plainWrite_undefined hrow]
    exact ⟨exec_read_performed hs ha hread hs.quiet, exec_write_performed hs ha hwrite hs.quiet⟩
  case register =>
    intro hf hr ha hw
    exact exec_read_performed ⟨hp, hc.1, hf, hr⟩ ha (accessWord_readReg hw _ _) (by simpa using hc.1)
  case held =>
    exact exec_held hp hc

/-- Settles O34: a plain write acts on the value in force bit by bit, and lets RWS bits wait; a read clears under the
RC mask alone. -/
theorem accessCodes : Obligations.AccessCodes := by
  unfold Obligations.AccessCodes
  intro p a w r s hp hc hf hr ha hw hrow
  have hs : s.dev.serves p a.toNat := ⟨hp, hc.1, hf, hr⟩
  have happ := rowAt_apart hrow
  obtain ⟨⟨-, -, -, -, -, hrc⟩, -⟩ := r.apart_iff.1 happ
  constructor
  · intro hplain hlock
    have hdo : accessWord true a.toNat w.toNat s.dev = (0, plainWrite a.toNat w.toNat s.dev) := by
      rw [accessWord_writeReg hw, hplain]
    refine ⟨_, exec_write_performed hs ha hdo ?_, ?_, ?_, ?_⟩
    · rw [plainWrite_unlocked_ev hrow hlock, hs.quiet]
    · intro i hi
      rw [answer_reg, reg_of_regs (plainWrite_unlocked_regs hrow hlock _), bit_writeInForce happ _ _ _ hi]
    · intro i hi hb
      rw [answer_written, bit_written_plainWrite hrow hlock _ hi hb]
    · rw [answer_shadow]
      exact regsOnly_answer p 0 0 (plainWrite_unlocked_regsOnly hrow hlock _)
  · intro hnone
    have hread : accessWord false a.toNat 0 s.dev = (viewNow a.toNat s.dev, readClear a.toNat s.dev) := by
      rw [accessWord_readReg hw, viewReg_noRws hrow hnone]
    refine ⟨_, exec_read_performed hs ha hread (by simpa using hs.quiet), ?_, ?_, ?_⟩
    · exact answer_mgm_congr p 0 _ (readClear_mgm _ _)
    · intro i hi
      rw [answer_reg, readClear_row hrow, bit_setMasked _ _ _ hrc hi]
    · rw [readClear_row hrow]
      exact regsOnly_answer p 0 _ (setMasked_regsOnly _ _ _ _)

/-- Settles O35: each write replaces what waits, so a read finds the last one, and its commit takes the last one alone. -/
theorem lastValueWritten : Obligations.LastValueWritten := by
  unfold Obligations.LastValueWritten
  intro p a v w r s t u hp hc hpath hf ha hw hr hrow hrws hrw hrwl hw1c hw1s hv hv' hst htu
  obtain ⟨⟨-, hmask, -⟩, -⟩ := r.apart_iff.1 (rowAt_apart hrow)
  have hs : s.dev.serves p a.toNat := ⟨hp, hc.1, hf, hr⟩
  have hwaits := plainWrite_rwsOnly hrow hrws hrw hrwl hw1c hw1s
  have ht := write_waits hs ha hw (hv.trans (hwaits _ _)) hst
  have hts : t.dev.serves p a.toNat := ht ▸ serves_after_wait hs
  have hu := write_waits hts ha hw (hv'.trans (hwaits _ _)) htu
  have hsu : u.dev.serves p a.toNat := hu ▸ serves_after_wait hts
  have hreg : t.dev.reg a.toNat = s.dev.reg a.toNat := by rw [ht, answer_reg, setShadow_reg]
  refine ⟨by rw [hu, answer_reg, setShadow_reg, hreg], ?read, ?commit⟩
  case read =>
    refine ⟨_, exec_read_performed hsu ha (accessWord_readReg hw _ _) (by simpa using hsu.quiet), fun i hi hb => ?_⟩
    rw [answer_word hpath, bit_viewReg_rws hrow hrws _ hi hb, hu, answer_written, written_setShadow_same,
      bit_mod_word _ _ hi, bit_mergeBits _ _ hmask hi, if_pos hb]
  case commit =>
    intro i hi
    rw [hu, reg_of_regs (commit_regs_congr (answer_regs _ _ _ _) (answer_shadow _ _ _ _) _ _ _),
      reg_commit_setShadow hrow le_rfl (by omega), bit_mod_word _ _ hi, bit_mergeBits _ _ hmask hi, bit_mod_word _ _ hi,
      bit_mergeBits _ _ hmask hi, hreg]
    cases hb : bit r.rws i <;> simp

end Sys2Proof.Machine

/-!
PROOFS of the time bases and of reset: first the count and the report of a detected fault and the outcome of each
command of a base, then the statements.
-/
namespace Sys2Proof.Machine

open Reg

/-- While its domain runs, a command whose effect is `d`, with no reaction waiting, leads to `d`. -/
theorem actIn_of_eq {k : Nat} {f : Dev → Dev} {s : State} {d : Dev} (h : s.dev.runs k = true) (hf : f s.dev = d)
    (hq : d.ev.reacts = []) : actIn k f s = .next { s with dev := d } := by
  subst hf
  exact actIn_run h hq

/-! ### A detected fault is counted and reported (R566, R578) -/

theorem reg_foldl {α : Type} (g : Dev → α → Dev) {a : Nat} (hg : ∀ u x, (g u x).reg a = u.reg a) (l : List α) (d : Dev) :
    (l.foldl g d).reg a = d.reg a := by
  induction l generalizing d with
  | nil => rfl
  | cons x l ih => rw [List.foldl_cons, ih, hg]

/-- A change that holds under a condition keeps what it keeps. -/
theorem reg_ite {d t : Dev} {a : Nat} (c : Prop) [Decidable c] (h : t.reg a = d.reg a) :
    (if c then t else d).reg a = d.reg a := by
  split
  · exact h
  · rfl

theorem archCauses_reg (code sev inst a : Nat) (d : Dev) : (archCauses code sev inst d).reg a = d.reg a :=
  reg_foldl _ (fun u n => reg_ite _ (by unfold archCause; split <;> rfl)) _ d

theorem countRetry_reg (code inst : Nat) (u : Fin 19) {a : Nat} (h : a ≠ EVT_FLT_RETRIES u) (d : Dev) :
    (countRetry code inst u d).reg a = d.reg a := reg_setReg_ne _ _ h

theorem b2n_le (b : Bool) : b2n b ≤ 1 := by cases b <;> decide

/-- The report word names the fault and its unit (R566). -/
theorem reportWord_fields (code sev : Nat) (escalated preempted queued subsumed : Bool) (inst : Nat) :
    bits (reportWord code sev escalated preempted queued subsumed inst) 31 24 = code % 256 ∧
      bits (reportWord code sev escalated preempted queued subsumed inst) 7 0 = inst % 256 := by
  have h1 := b2n_le escalated
  have h2 := b2n_le preempted
  have h3 := b2n_le queued
  have h4 := b2n_le subsumed
  simp only [bits, reportWord]
  omega

/-- The count of a fault is no register of an occurrence, but for LOG_DROP (R599). -/
theorem eventReg_fltCount {code : Nat} (hc : code < 256) (hdrop : code ≠ 0x88) : eventReg (EVT_FLT_COUNT code) = false := by
  simp only [eventReg, EVT_FLT_COUNT, EVT_FLAGS, EVT_LAST, WAL_DROPS, WAL_FLAGS, WAL_STAGED,
    Bool.or_eq_false_iff, beq_eq_false_iff_ne, Bool.and_eq_false_iff, decide_eq_false_iff_not]
  omega

theorem fltCount_ne {code a : Nat} (h : a < 0x28400) : EVT_FLT_COUNT code ≠ a := by
  simp only [EVT_FLT_COUNT]
  omega

/-- A fault detected is counted once and named by the report register (R566, R578), whatever staging its record raises:
that raises no fault but LOG_DROP. -/
theorem faultD_detects {code inst : Nat} (sev d0 d1 : Nat) (d : Dev) (hc : code < 256) (hdrop : code ≠ 0x88)
    (hi : inst < 256) : d.detects code inst (faultD code sev inst d0 d1 d) := by
  unfold faultD
  extract_lets us s1 escalated sev' halting subsumed handled queued full w s2 s3 s4 s5 s6 trigger seen s7
  have h7 (a : Nat) : s7.reg a = s6.reg a := reg_ite _ rfl
  have h6 {a : Nat} (hfl : a ≠ EVT_FLT_FLAGS) : s6.reg a = s5.reg a := reg_ite _ (reg_put_ne _ _ _ hfl)
  have h5 {a : Nat} (hfl : a ≠ EVT_FLT_FLAGS) (hfu : a ≠ EVT_FLT_QFULL) : s5.reg a = s4.reg a :=
    reg_ite _ ((reg_count_ne _ _ hfu).trans (reg_put_ne _ _ _ hfl))
  have after (r : LogRec) {a : Nat} (hev : eventReg a = false) (hfl : a ≠ EVT_FLT_FLAGS) (hfu : a ≠ EVT_FLT_QFULL) :
      (stage r (archCauses code sev' inst s7)).reg a = s4.reg a := by
    rw [reg_stage r a _ hev, archCauses_reg, h7, h6 hfl, h5 hfl hfu]
  have before : s2.reg (EVT_FLT_COUNT code) = d.reg (EVT_FLT_COUNT code) := by
    have h1 : s1.reg (EVT_FLT_COUNT code) = d.reg (EVT_FLT_COUNT code) :=
      reg_ite _ (reg_foldl _ (fun t u => countRetry_reg code inst u (fltCount_ne (by simp only [EVT_FLT_RETRIES]; omega)) t)
        us d)
    have h2 : s2.reg (EVT_FLT_COUNT code) = s1.reg (EVT_FLT_COUNT code) := reg_ite _ rfl
    exact h2.trans h1
  have count : s4.reg (EVT_FLT_COUNT code) = s3.reg (EVT_FLT_COUNT code) := by
    simp only [s4]
    rw [reg_setReg_ne _ _ (fltCount_ne (by decide)), reg_setReg_ne _ _ (fltCount_ne (by decide)),
      reg_setReg_ne _ _ (fltCount_ne (by decide))]
  have last : s4.reg EVT_FLT_LAST = w % 2 ^ 32 := by
    simp only [s4]
    rw [reg_setReg_ne _ _ (by decide), reg_setReg_ne _ _ (by decide), reg_setReg_same]
  obtain ⟨hcode, hinst⟩ := reportWord_fields code sev' escalated false queued subsumed inst
  refine ⟨?_, ?_, ?_⟩
  · rw [after _ (eventReg_fltCount hc hdrop) (fltCount_ne (by decide)) (fltCount_ne (by decide)), count,
      reg_count_same, before]
  · rw [after _ (by decide) (by decide) (by decide), last, bits_mod_word _ _ _ (by decide), hcode, Nat.mod_eq_of_lt hc]
  · rw [after _ (by decide) (by decide) (by decide), last, bits_mod_word _ _ _ (by decide), hinst, Nat.mod_eq_of_lt hi]

/-- The count of a fault but LOG_DROP and the last report are no registers of an occurrence. -/
theorem EventOnly.detects {code inst : Nat} {d t u : Dev} (h : EventOnly t u) (hc : code < 256) (hdrop : code ≠ 0x88)
    (k : d.detects code inst t) : d.detects code inst u := by
  obtain ⟨h1, h2, h3⟩ := k
  have hlast : u.reg EVT_FLT_LAST = t.reg EVT_FLT_LAST := h.regs _ (by decide)
  exact ⟨(h.regs _ (eventReg_fltCount hc hdrop)).trans h1, by rw [hlast, h2], by rw [hlast, h3]⟩

theorem faultEvent_detects {code inst e : Nat} (sev : Nat) (d : Dev) (hc : code < 256) (hdrop : code ≠ 0x88)
    (hi : inst < 256) (he : e < 256) : d.detects code inst (faultEvent code sev inst e d) :=
  (occur_eventOnly e inst code _ he).detects hc hdrop (faultD_detects sev 0 0 d hc hdrop hi)

/-! ### The time bases -/

theorem commit_nil {d : Dev} (h : d.shadow = []) (b : Boundary) (lo hi : Nat) : d.commit b lo hi = d := by
  simp only [Dev.commit, h, List.foldl_nil, List.filter_nil]
  rw [← h]

/-- The word that an enabling write leaves in NET_Tb_CTRL: its defined bits, EN set (R508). -/
def ctrlWord (w : Nat) : Nat := Nat.land (setBit w 0 true) 0xFF0F

theorem testBit_ctrlWord (w i : Nat) :
    (ctrlWord w).testBit i = ((i == 0 || w.testBit i) && (0xFF0F : Nat).testBit i) := by
  change (setBit w 0 true &&& 0xFF0F).testBit i = _
  rw [Nat.testBit_and, setBit, testBit_putBits _ _ _ _ _ le_rfl]
  cases i <;> simp [b2n]

theorem ctrlWord_lt (w : Nat) : ctrlWord w < 2 ^ 32 := Nat.and_lt_two_pow _ (by decide)

/-- SRC is among the bits taken. -/
theorem bits_ctrlWord_src (w : Nat) : bits (ctrlWord w) 2 1 = bits w 2 1 := by
  apply Nat.eq_of_testBit_eq
  intro i
  rw [testBit_bits, testBit_bits, testBit_ctrlWord]
  by_cases h : i < 2
  · interval_cases i <;> simp +decide
  · simp [h]

/-- A base just enabled: the fields taken, the base at zero and free-running (R497, R508). -/
def enabledFree (b : Base) (w : Nat) (d : Dev) : Dev :=
  ((d.setReg (NETT_CTRL b) (ctrlWord w)).setReg (NETT_STATE b) tbFree).baseMod b fun _ => TimeBase.reset

@[simp] theorem baseMod_reg (b : Base) (f : TimeBase → TimeBase) (d : Dev) (a : Nat) : (d.baseMod b f).reg a = d.reg a := rfl

theorem state_ne_ctrl (b : Base) : NETT_STATE b ≠ NETT_CTRL b := by simp only [NETT_STATE, NETT_CTRL]; omega
theorem rate_ne_ctrl (b : Base) : NETT_RATE b ≠ NETT_CTRL b := by simp only [NETT_RATE, NETT_CTRL]; omega
theorem rate_ne_state (b : Base) : NETT_RATE b ≠ NETT_STATE b := by simp only [NETT_RATE, NETT_STATE]; omega

theorem enabledFree_ctrl (b : Base) (w : Nat) (d : Dev) : (enabledFree b w d).reg (NETT_CTRL b) = ctrlWord w := by
  rw [enabledFree, baseMod_reg, reg_setReg_ne _ _ (state_ne_ctrl b).symm, reg_setReg_same, Nat.mod_eq_of_lt (ctrlWord_lt w)]

theorem enabledFree_state (b : Base) (w : Nat) (d : Dev) : (enabledFree b w d).reg (NETT_STATE b) = 0 := by
  rw [enabledFree, baseMod_reg, reg_setReg_same]
  rfl

theorem enabledFree_rate (b : Base) (w : Nat) (d : Dev) : (enabledFree b w d).reg (NETT_RATE b) = d.reg (NETT_RATE b) := by
  rw [enabledFree, baseMod_reg, reg_setReg_ne _ _ (rate_ne_state b), reg_setReg_ne _ _ (rate_ne_ctrl b)]

theorem enabledFree_src (b : Base) (w : Nat) (d : Dev) : (enabledFree b w d).baseSrc b = min 2 (bits w 2 1) := by
  simp only [Dev.baseSrc, Dev.get, enabledFree_ctrl, bits_ctrlWord_src]

theorem enabledFree_regsOnly (b : Base) (w : Nat) (d : Dev) :
    Dev.regsOnly [NETT_CTRL b, NETT_STATE b] { d with bases := vput d.bases b TimeBase.reset } (enabledFree b w d) :=
  regsOnly_trans (regsOnly_setReg _ _ _) (regsOnly_setReg _ _ _)

/-- EN = 1 on a disabled base while no write waits: with SRC 2 or 3 it runs free, otherwise it is in ACQUIRE with RATE 0
(R497, R508). -/
theorem timeBaseCtrl_enable {b : Base} {d : Dev} (hoff : d.on (NETT_CTRL_EN b) = false) (hs : d.shadow = []) (w : Nat) :
    timeBaseCtrl b (setBit w 0 true) d =
      if 2 ≤ bits w 2 1 then enabledFree b w d
      else ((enabledFree b w d).setReg (NETT_RATE b) 0).setReg (NETT_STATE b) tbAcquire := by
  have hcommit (lo hi : Nat) : (d.setReg (NETT_CTRL b) (ctrlWord w)).commit .sync lo hi = d.setReg (NETT_CTRL b) (ctrlWord w) :=
    commit_nil (d := d.setReg _ _) hs .sync lo hi
  have hword : Nat.land (setBit w 0 true) 0xFF0F = ctrlWord w := rfl
  have hfree : (((d.setReg (NETT_CTRL b) (ctrlWord w)).setReg (NETT_STATE b) tbFree).baseMod b fun _ => TimeBase.reset)
      = enabledFree b w d := rfl
  have hsrc : ((enabledFree b w d).baseSrc b = 2) = (2 ≤ bits w 2 1) := by
    rw [enabledFree_src, eq_iff_iff]
    omega
  simp only [timeBaseCtrl, hoff, bit_setBit_same, Bool.false_eq_true, Bool.not_true, ↓reduceIte]
  simp only [hword, hcommit, hfree, hsrc]

/-- SET of an enabled base, no step being barred, loads the value of the step registers (R500). -/
theorem stepSet_enabled {b : Base} {d : Dev} (hon : d.on (NETT_CTRL_EN b) = true) (hb : d.stepBarred b = false)
    (hns : d.reg (NETT_STEP_NS b) < 1000000000) :
    stepSet b d = loadBase b ⟨d.reg (NETT_STEP_SEC_LO b) + d.reg (NETT_STEP_SEC_HI b) % 65536 * 2 ^ 32,
      d.reg (NETT_STEP_NS b), 0⟩ d := by
  simp [stepSet, hon, hb, hns, Nat.mod_eq_of_lt hns]

/-- The time in ns that ADD steps base `b` to (R500). -/
def Dev.addedNanos (d : Dev) (b : Base) : Int :=
  (((d.base b).now.sec : Int) + sx 48 (d.reg (NETT_STEP_SEC_LO b) + d.reg (NETT_STEP_SEC_HI b) % 65536 * 2 ^ 32))
    * 1000000000 + ((d.base b).now.ns : Int) + d.regS (NETT_STEP_NS b)

/-- ADD to an enabled base, no step being barred, loads the sum where it is a value of R9 (R500). -/
theorem stepAdd_enabled {b : Base} {d : Dev} (hon : d.on (NETT_CTRL_EN b) = true) (hb : d.stepBarred b = false)
    (h0 : 0 ≤ d.addedNanos b) (h1 : d.addedNanos b < 2 ^ 48 * 1000000000) :
    stepAdd b d = loadBase b ⟨(d.addedNanos b).toNat / 1000000000, (d.addedNanos b).toNat % 1000000000,
      (d.base b).now.frac⟩ d := by
  have hin : (decide (d.addedNanos b < 0) || decide (Int.ofNat (2 ^ 48 * 1000000000) ≤ d.addedNanos b)) = false := by
    simp only [Bool.or_eq_false_iff, decide_eq_false_iff_not, Int.ofNat_eq_natCast]
    omega
  simp only [stepAdd, hon, hb, Bool.not_true, Bool.false_eq_true, ↓reduceIte]
  exact if_neg (by rw [Bool.not_eq_true]; exact hin)

/-- A refused step of T0 is TB_STEP with E91 and leaves every base (R28, R500). -/
theorem stepRefused_spec (d : Dev) : (stepRefused d).bases = d.bases ∧ (stepRefused d).pends 91 ∧
    d.detects 0x26 0xFF (stepRefused d) ∧ Dev.withFault [] d (stepRefused d) := by
  obtain ⟨honly, hpend⟩ := faultEvent_spec 0x26 sevInfo 0xFF 91 d (by decide) (by decide)
  exact ⟨by rw [stepRefused, honly.rest], hpend,
    faultEvent_detects _ d (by decide) (by decide) (by decide) (by decide), withFault_of (regsOnly_refl d []) honly⟩

/-- Settles O31: each command of a base is its own effect, by the outcome that the rule gives it. -/
theorem timeBaseCommands : Obligations.TimeBaseCommands := by
  unfold Obligations.TimeBaseCommands
  intro b w tau n s hrun hc hs
  refine ⟨?enable, ?capture, ?set, ?add, ?refused⟩
  case enable =>
    intro hoff
    have hdo := timeBaseCtrl_enable hoff hs w.toNat
    by_cases hsrc : 2 ≤ bits w.toNat 2 1
    · rw [if_pos hsrc] at hdo
      refine ⟨_, actIn_of_eq hrun hdo hc.1, enabledFree_ctrl _ _ _, rfl, fun h => absurd hsrc (by omega), fun _ => ?_, ?_⟩
      · exact ⟨enabledFree_state _ _ _, enabledFree_rate _ _ _⟩
      · exact regsOnly_mono (enabledFree_regsOnly _ _ _) (by simp)
    · rw [if_neg hsrc] at hdo
      refine ⟨_, actIn_of_eq hrun hdo hc.1, ?_, rfl, fun _ => ?_, fun h => absurd h hsrc, ?_⟩
      · rw [reg_setReg_ne _ _ (state_ne_ctrl b).symm, reg_setReg_ne _ _ (rate_ne_ctrl b).symm, enabledFree_ctrl]
        rfl
      · exact ⟨reg_setReg_same _ _ _, by rw [reg_setReg_ne _ _ (rate_ne_state b), reg_setReg_same, Nat.zero_mod]⟩
      · exact regsOnly_mono (regsOnly_trans (enabledFree_regsOnly _ _ _)
          (regsOnly_trans (regsOnly_setReg _ _ _) (regsOnly_setReg _ _ _))) (by simp)
  case capture => exact actIn_of_eq hrun rfl hc.1
  case set =>
    intro hon hbar hns
    exact actIn_of_eq hrun (stepSet_enabled hon hbar hns) hc.1
  case add =>
    rintro hon hbar rfl h0 h1
    exact actIn_of_eq hrun (stepAdd_enabled hon hbar h0 h1) hc.1
  case refused =>
    intro hon hpos
    have hbar : s.dev.stepBarred 0 = true := by simpa [Dev.stepBarred] using hpos
    have hset : stepSet 0 s.dev = stepRefused s.dev := by simp [stepSet, hon, hbar]
    have hadd : stepAdd 0 s.dev = stepRefused s.dev := by simp [stepAdd, hon, hbar]
    have hq : (stepRefused s.dev).ev.reacts = [] := (calm_faultEvent hc _ _ _ _ (by decide) (by decide)).1
    exact ⟨⟨_, actIn_of_eq hrun hset hq, stepRefused_spec s.dev⟩, ⟨_, actIn_of_eq hrun hadd hq, stepRefused_spec s.dev⟩⟩

/-! ### Reset (R12) -/

/-- Right after reset every register reads its reset value. -/
theorem reg_reset (a : Nat) : State.reset.dev.reg a = (resetOf a).toNat := rfl

/-- Settles O58: the registers named hold what the register map gives at every address; the rest of the device is as
`Dev.reset` sets it. -/
theorem resetValues : Obligations.ResetValues := by
  unfold Obligations.ResetValues
  simp only [reg_reset]
  refine ⟨?stations, ?channels, ?bases, ?device, ?stores⟩
  case stations => decide +kernel
  case channels => decide +kernel
  case bases => decide +kernel
  case device => decide +kernel
  case stores => exact ⟨rfl, rfl, rfl, rfl, rfl⟩

end Sys2Proof.Machine

/-!
PROOFS of the Shuttles' plan commands, the management requests and the start times. First the rules that the three
share: what a vector reads after a change, how effects join, and what the taking of a frame does.
-/
namespace Sys2Proof.Machine

open Reg

/-! ### Vectors -/

section
variable {α : Type} {n : Nat} (v : Vector α n) (f : α → α)

@[simp] theorem vat_vmod_same (i : Fin n) : vat (vmod v i f) i = f (vat v i) := by simp [vat, vmod, vput]

theorem vat_vmod_ne {i j : Fin n} (h : j ≠ i) : vat (vmod v i f) j = vat v j := by
  simp [vat, vmod, vput, Fin.val_ne_of_ne h.symm]

/-- A change that keeps a reading of every element keeps it at every index. -/
theorem vat_vmod_of {β : Type} (g : α → β) (hg : ∀ x, g (f x) = g x) (i j : Fin n) :
    g (vat (vmod v i f) j) = g (vat v j) := by
  by_cases h : j = i
  · rw [h, vat_vmod_same, hg]
  · rw [vat_vmod_ne v f h]

end

/-! ### Effects one after the other -/

section
variable {d t u : Dev} {L M : List Nat}

theorem withEvent_refl (d : Dev) (L : List Nat) : d.withEvent L d := ⟨rfl, fun _ _ _ => rfl⟩

theorem withEvent_trans (h : d.withEvent L t) (k : t.withEvent M u) : d.withEvent (L ++ M) u :=
  ⟨by rw [k.1, h.1], fun a ha he => by
    rw [List.mem_append, not_or] at ha
    exact (k.2 a ha.2 he).trans (h.2 a ha.1 he)⟩

theorem withEvent_put (h : d.withEvent L t) (f : Field) (v : Nat) (hf : f.addr ∈ L) : d.withEvent L (t.put f v) :=
  withEvent_mono (withEvent_trans h (withEvent_of (regsOnly_put t f v) (EventOnly.refl _))) (by simpa using hf)

theorem withEvent_ite (c : Prop) [Decidable c] (h : d.withEvent L t) (k : d.withEvent L u) :
    d.withEvent L (if c then t else u) := by
  split
  · exact h
  · exact k

/-- What an occurrence may touch, the detection of a fault may touch. -/
theorem withEvent_fault (h : d.withEvent L t) : d.withFault L t :=
  ⟨by rw [h.1], fun a ha hf => h.2 a ha (eventReg_of_faultReg hf)⟩

theorem withFault_trans (h : d.withFault L t) (k : t.withFault M u) : d.withFault (L ++ M) u :=
  ⟨by rw [k.1, h.1], fun a ha hf => by
    rw [List.mem_append, not_or] at ha
    exact (k.2 a ha.2 hf).trans (h.2 a ha.1 hf)⟩

theorem withFault_regsOnly (h : d.withFault L t) (k : t.regsOnly M u) : d.withFault (L ++ M) u :=
  withFault_trans h (withFault_of k (FaultOnly.refl u))

theorem regsOnly_count (d : Dev) (a k : Nat) : d.regsOnly [a] (d.count a k) := regsOnly_setReg d a _

/-- The same chain, or the same bytes of the Creel, on both sides change nothing in what else is said. -/
theorem withEvent_chain (h : d.withEvent L t) (x : Chain) :
    Dev.withEvent L { d with chain := x } { t with chain := x } :=
  ⟨by rw [h.1], h.2⟩

theorem withEvent_creel (h : d.withEvent L t) (x : List Host.Cell) :
    Dev.withEvent L { d with creel := x } { t with creel := x } :=
  ⟨by rw [h.1], h.2⟩

end

/-! ### Bobbins (R408, R411) -/

/-- An event that names its bobbin. -/
theorem withEvent_bobEvent {d t : Dev} {L : List Nat} (h : d.withEvent L t) (hL : CRL_EVT_BOBBIN ∈ L) (b code : Nat)
    {e : Nat} (he : e < 256) : d.withEvent L (bobEvent b e code t) :=
  withEvent_mono (withEvent_trans h (withEvent_of (regsOnly_setReg t CRL_EVT_BOBBIN b) (occur_eventOnly e b code _ he)))
    (by simpa using hL)

/-- The registers of a bobbin that show its level. -/
def bobShown (b : Nat) : List Nat := [CRLB_FILL b, CRLB_STATUS b, CRL_EVT_BOBBIN]

/-- A watermark passed: the flag of the bobbin, and its event where it is enabled. -/
theorem withEvent_watermark {b e : Nat} {d t : Dev} (he : e < 256) (c : Prop) [Decidable c] (ev : Bool)
    (h : d.withEvent (bobShown b) t) :
    d.withEvent (bobShown b)
      (if c then (if ev then bobEvent b e 0 (t.put (CRLB_STATUS_WM b) 1) else t.put (CRLB_STATUS_WM b) 1) else t) := by
  have flag := withEvent_put h (CRLB_STATUS_WM b) 1 (by simp [bobShown])
  exact withEvent_ite _ (withEvent_ite _ (withEvent_bobEvent flag (by simp [bobShown]) b 0 he) flag) h

/-- After a pointer step the bobbin's own registers show its level. -/
theorem bobCheck_withEvent (b old : Nat) (d : Dev) : d.withEvent (bobShown b) (bobCheck b old d) := by
  have status {t : Dev} (h : d.withEvent (bobShown b) t) {f : Field} (hf : f.addr = CRLB_STATUS b) (v : Nat) :
      d.withEvent (bobShown b) (t.put f v) := withEvent_put h f v (by simp [bobShown, hf])
  unfold bobCheck
  extract_lets s1 now hi lo ev s2 s3 s4 s5 panicking on off
  have h1 : d.withEvent (bobShown b) s1 := withEvent_put (withEvent_refl d _) _ _ (by simp [bobShown])
  have h3 : d.withEvent (bobShown b) s3 := withEvent_watermark (by decide) _ _ h1
  have h5 : d.withEvent (bobShown b) s5 := withEvent_watermark (by decide) _ _ h3
  exact withEvent_ite _ (withEvent_ite _ (status h5 rfl 0) h5)
    (withEvent_ite _ (withEvent_bobEvent (status (status h5 rfl 1) rfl 1) (by simp [bobShown]) b 0 (by decide)) h5)

/-- The consumer moves the read pointer and what shows the level. -/
theorem bobPop_withEvent (b k : Nat) (d : Dev) : d.withEvent (CRLB_RD b :: bobShown b) (bobPop b k d).2 := by
  unfold bobPop
  split
  · exact withEvent_refl d _
  · exact withEvent_mono (withEvent_trans (withEvent_put (withEvent_refl d [CRLB_RD b]) (CRLB_RD_RD b) _ (by simp))
      (bobCheck_withEvent b _ _)) (by simp)

/-! ### Chain ports -/

theorem cport_of_chain {d t : Dev} (h : t.chain = d.chain) (q : Port) : t.cport q = d.cport q := by
  simp only [Dev.cport, h]

theorem cport_portMod_same (p : Port) (f : ChainPort → ChainPort) (d : Dev) :
    (d.portMod p f).cport p = f (d.cport p) := vat_vmod_same _ _ _

/-- What a change of one port keeps, every port keeps. -/
theorem cport_portMod_of {β : Type} (g : ChainPort → β) {f : ChainPort → ChainPort} (hg : ∀ x, g (f x) = g x)
    (p q : Port) (d : Dev) : g ((d.portMod p f).cport q) = g (d.cport q) := vat_vmod_of _ _ g hg p q

/-! ### A frame taken from its receive bobbin (R410) -/

/-- The registers that the taking of a frame from port `p` may change beside those of an occurrence. -/
def takenRegs (p : Port) : List Nat :=
  [CRLB_RD (64 + p.val), CRLB_FILL (64 + p.val), CRLB_STATUS (64 + p.val), CRL_EVT_BOBBIN]

section
variable {p : Port} {f : Frame} {rest : List Frame} {d : Dev} (h : (d.cport p).rxQ = f :: rest)
include h

theorem takeFrame_eq : takeFrame p d =
    (bobPop (64 + p.val) (recWords (16 + f.payload.length)) (d.portMod p fun x => { x with rxQ := rest })).2 := by
  simp only [takeFrame, h]

theorem takeFrame_chain : (takeFrame p d).chain = (d.portMod p fun x => { x with rxQ := rest }).chain := by
  rw [takeFrame_eq h, (bobPop_withEvent _ _ _).1]

theorem takeFrame_withEvent :
    Dev.withEvent (takenRegs p) { d with chain := (takeFrame p d).chain } (takeFrame p d) := by
  rw [takeFrame_chain h, takeFrame_eq h]
  exact bobPop_withEvent _ _ _

theorem takeFrame_rxQ : ((takeFrame p d).cport p).rxQ = rest := by
  rw [cport_of_chain (takeFrame_chain h), cport_portMod_same]

theorem takeFrame_ownQ (q : Port) : ((takeFrame p d).cport q).ownQ = (d.cport q).ownQ := by
  rw [cport_of_chain (takeFrame_chain h)]
  exact cport_portMod_of (·.ownQ) (fun _ => by rfl) p q d

theorem takeFrame_sending (q : Port) : ((takeFrame p d).cport q).sending = (d.cport q).sending := by
  rw [cport_of_chain (takeFrame_chain h)]
  exact cport_portMod_of (·.sending) (fun _ => by rfl) p q d

end

section
variable (p : Port) (d : Dev)

/-- Registers of other blocks than those of the events, the Creel and the log stand. -/
theorem takeFrame_reg {a : Nat} (h : [2, 3, 18].contains (a / 0x10000) = false) : (takeFrame p d).reg a = d.reg a :=
  (takeFrame_within p d).frame.1 a h

theorem takeFrame_get (g : Field) (h : [2, 3, 18].contains (g.addr / 0x10000) = false) :
    (takeFrame p d).get g = d.get g := by
  simp only [Dev.get, takeFrame_reg p d h]

theorem takeFrame_on (g : Field) (h : [2, 3, 18].contains (g.addr / 0x10000) = false) : (takeFrame p d).on g = d.on g := by
  simp only [Dev.on, takeFrame_get p d g h]

@[simp] theorem takeFrame_trd : (takeFrame p d).trd = d.trd := (takeFrame_within p d).frame.2 .trd rfl
@[simp] theorem takeFrame_sec : (takeFrame p d).sec = d.sec := (takeFrame_within p d).frame.2 .sec rfl
@[simp] theorem takeFrame_creel : (takeFrame p d).creel = d.creel := (takeFrame_within p d).frame.2 .creel rfl
@[simp] theorem takeFrame_start : (takeFrame p d).start = d.start := (takeFrame_within p d).frame.2 .start rfl
@[simp] theorem takeFrame_mgm : (takeFrame p d).mgm = d.mgm := (takeFrame_within p d).frame.2 .mgm rfl

end

/-- A fault detected after the taking of a frame is one detected since before it. -/
theorem detects_takeFrame {p : Port} {f : Frame} {rest : List Frame} {code inst : Nat} {d t : Dev}
    (h : (d.cport p).rxQ = f :: rest) (hc : code < 256) (hdrop : code ≠ 0x88)
    (k : (takeFrame p d).detects code inst t) : d.detects code inst t := by
  have hL : EVT_FLT_COUNT code ∉ takenRegs p := by
    simp only [takenRegs, List.mem_cons, List.not_mem_nil, or_false, EVT_FLT_COUNT, CRLB_RD, CRLB_FILL, CRLB_STATUS,
      CRL_EVT_BOBBIN]
    omega
  have hreg : (takeFrame p d).reg (EVT_FLT_COUNT code) = d.reg (EVT_FLT_COUNT code) :=
    (takeFrame_withEvent h).2 _ hL (eventReg_fltCount hc hdrop)
  rwa [Dev.detects, hreg] at k

end Sys2Proof.Machine

/-!
PROOFS of the management requests of the chain: what a reply is while both ports are busy, what the words of a READ or
WRITE do in the Creel window, then the statement.
-/
namespace Sys2Proof.Machine

open Reg

/-! ### Replies (R478, R486) -/

/-- A port that sends takes no further frame. -/
theorem portKick_busy {p : Port} {d : Dev} (h : (d.cport p).sending.isSome = true) : portKick p d = d := by
  simp [portKick, portKickN, h]

theorem portsKick_busy {d : Dev} (h : ∀ q, (d.cport q).sending.isSome = true) : portsKick d = d := by
  rw [portsKick, portKick_busy (h 0), portKick_busy (h 1)]

theorem sendReply_sending (kind seqNo : Nat) (payload : List Byte) (d : Dev) (q : Port) :
    ((sendReply kind seqNo payload d).cport q).sending = (d.cport q).sending :=
  cport_portMod_of (·.sending) (fun _ => by rfl) _ q d

theorem sendReply_ev (kind seqNo : Nat) (payload : List Byte) (d : Dev) : (sendReply kind seqNo payload d).ev = d.ev := rfl

theorem sendReply_creel (kind seqNo : Nat) (payload : List Byte) (d : Dev) :
    (sendReply kind seqNo payload d).creel = d.creel := rfl

theorem sendReply_rxQ (kind seqNo : Nat) (payload : List Byte) (d : Dev) (q : Port) :
    ((sendReply kind seqNo payload d).cport q).rxQ = (d.cport q).rxQ :=
  cport_portMod_of (·.rxQ) (fun _ => by rfl) _ q d

theorem sendReply_ownQ (kind seqNo : Nat) (payload : List Byte) (d : Dev) :
    ((sendReply kind seqNo payload d).cport d.upstream).ownQ =
      (d.cport d.upstream).ownQ ++ [⟨.own, kind, 0, d.srcAddr, 0, seqNo, payload, .none⟩] :=
  congrArg ChainPort.ownQ (cport_portMod_same _ _ _)

/-- While both ports are busy a management reply is queued and nothing more. -/
theorem mgmtReply_busy {d : Dev} (h : ∀ q, (d.cport q).sending.isSome = true) (op seqNo status addr count : Nat)
    (ws : List Nat) : mgmtReply op seqNo status addr count ws d =
      sendReply 1 seqNo (wordsBytes ([op + count * 256 + status * 65536, addr] ++ ws)) d := by
  rw [mgmtReply, portsKick_busy]
  intro q
  rw [sendReply_sending, h q]

/-! ### Words of a request (R43, R486) -/

theorem reachable_congr {d t : Dev} (hr : t.reg CLK_LIVE = d.reg CLK_LIVE) (hs : t.start = d.start) (p : Path) (a : Nat) :
    t.reachable p a = d.reachable p a := by
  simp only [Dev.reachable, Dev.fabRuns, Dev.runs, hr, hs]

theorem runs_congr {d t : Dev} (hr : t.reg CLK_LIVE = d.reg CLK_LIVE) (hs : t.start = d.start) (k : Nat) :
    t.runs k = d.runs k := by
  simp only [Dev.runs, hr, hs]

theorem fabRuns_of_runs {d : Dev} (h : d.runs domFab = true) : d.fabRuns = true := by
  simp only [Dev.runs, Bool.and_eq_true] at h
  exact h.2

/-- While FAB runs the chain reaches every word of the Creel window. -/
theorem reachable_window {d : Dev} {a : Nat} (h : d.runs domFab = true) (hw : inWindow a = true) :
    d.reachable .chain a = true := by
  simp [Dev.reachable, addrDomain, hw, h, fabRuns_of_runs h]

theorem frameWords_cons {write : Bool} {a w v : Nat} {t did : List Nat} {d u : Dev} (ha : a % 4 = 0)
    (hr : d.reachable .chain a = true) (h : accessWord write a w d = (v, u)) :
    frameWords write a (w :: t) did d = frameWords write ((a + 4) % 2 ^ 32) t (did ++ [v]) u := by
  simp [frameWords, ha, hr, h]

/-- The `n` words of the window from `a` on are there, aligned. -/
structure windowWords (a n : Nat) : Prop where
  aligned : a % 4 = 0
  above : 0x1000000 ≤ a
  below : a + 4 * n ≤ 0x3000000

namespace windowWords

variable {a n : Nat}

theorem tail (h : windowWords a (n + 1)) : windowWords (a + 4) n :=
  ⟨by have := h.aligned; omega, by have := h.above; omega, by have := h.below; omega⟩

theorem inWindow (h : windowWords a (n + 1)) : inWindow a = true := by
  obtain ⟨-, h1, h2⟩ := h
  simp only [Machine.inWindow, Bool.and_eq_true, decide_eq_true_eq]
  omega

theorem next (h : windowWords a (n + 1)) : (a + 4) % 2 ^ 32 = a + 4 := by
  have := h.below
  omega

end windowWords

/-- Words read in the window, in order; nothing changes. -/
theorem frameWords_readWindow {d : Dev} (hrun : d.runs domFab = true) (ws : List Nat) (a : Nat) (did : List Nat)
    (h : windowWords a ws.length) : frameWords false a ws did d =
      ((0, a + 4 * ws.length, [], did ++ (List.range ws.length).map fun i => d.creelNat (a - 0x1000000 + 4 * i) 4), d) := by
  induction ws generalizing a did with
  | nil => simp [frameWords]
  | cons w ws ih =>
    have hw := h.inWindow
    have habove := h.above
    rw [frameWords_cons h.aligned (reachable_window hrun hw) (accessWord_readWindow hw w d), h.next, ih _ _ h.tail,
      List.length_cons, List.range_succ_eq_map]
    have hstep (i : Nat) : a + 4 - 0x1000000 + 4 * i = a - 0x1000000 + 4 * (i + 1) := by omega
    have hend : a + 4 + 4 * ws.length = a + 4 * (ws.length + 1) := by omega
    simp only [hstep]
    simp [Function.comp_def, hend]

theorem storeBytes_append (b : Byte) (m : List Host.Cell) (a : Nat) (xs ys : List Byte) :
    storeBytes b m a (xs ++ ys) = storeBytes b (storeBytes b m a xs) (a + xs.length) ys := by
  induction xs generalizing m a with
  | nil => rfl
  | cons x xs ih =>
    rw [List.cons_append, storeBytes, storeBytes, ih, List.length_cons, Nat.add_assoc, Nat.add_comm 1]

theorem length_leBytes (n x : Nat) : (leBytes n x).length = n := by simp [leBytes]

/-- Words written in the window, in order, below the loop mailbox: their bytes stand in the Creel. -/
theorem frameWords_writeWindow (ws : List Nat) (a : Nat) (did : List Nat) (d : Dev) (hrun : d.runs domFab = true)
    (h : windowWords a ws.length) (hbox : a + 4 * ws.length ≤ 0x2FE0000) : frameWords true a ws did d =
      ((0, a + 4 * ws.length, [], did ++ List.replicate ws.length 0), d.setCreelBytes (a - 0x1000000) (wordsBytes ws)) := by
  induction ws generalizing a did d with
  | nil => simp [frameWords, wordsBytes, Dev.setCreelBytes, storeBytes]
  | cons w ws ih =>
    have hw := h.inWindow
    have habove := h.above
    simp only [List.length_cons] at hbox
    have hlt : a < 0x2FE0000 := by omega
    rw [frameWords_cons h.aligned (reachable_window hrun hw) (accessWord_writeWindow hw w d), if_pos hlt, h.next,
      ih _ _ (d.setCreelBytes _ _) hrun h.tail (by omega)]
    have hnext : a + 4 - 0x1000000 = a - 0x1000000 + (leBytes 4 w).length := by rw [length_leBytes]; omega
    have hend : a + 4 + 4 * ws.length = a + 4 * (ws.length + 1) := by omega
    simp [Dev.setCreelBytes, wordsBytes, storeBytes_append, hnext, hend, List.replicate_succ]

/-- A request whose words have all been performed is answered with their number, and a READ with what they were. -/
theorem frameRun_done {write : Bool} {seqNo a e : Nat} {ws did : List Nat} {d u : Dev} (ha : a < 2 ^ 32)
    (h : frameWords write a ws [] d = ((0, e, [], did), u)) (hrun : u.fabRuns = true)
    (hbusy : ∀ q, (u.cport q).sending.isSome = true) : frameRun ⟨seqNo, write, a, ws, []⟩ d =
      sendReply 1 seqNo (wordsBytes ([(if write then 0x82 else 0x81) + did.length * 256, a] ++ if write then [] else did)) u := by
  have hfirst : a % 4294967296 = a := Nat.mod_eq_of_lt ha
  simp [frameRun, h, hrun, mgmtReply_busy hbusy, hfirst]

/-! ### Bytes of words (R8) -/

theorem leBytes_succ (n x : Nat) : leBytes (n + 1) x = byteOf x 0 :: leBytes n (x / 256) := by
  have hbyte (i : Nat) : byteOf x (i + 1) = byteOf (x / 256) i := by
    simp only [byteOf, Nat.div_div_eq_div_mul]
    rw [show (256 : Nat) = 2 ^ 8 from rfl, ← pow_add, Nat.mul_succ, Nat.add_comm 8]
  simp [leBytes, List.range_succ_eq_map, Function.comp_def, hbyte]

theorem leBytes_leNat {n : Nat} (bs : List Byte) (h : bs.length = n) : leBytes n (leNat bs) = bs := by
  subst h
  induction bs with
  | nil => rfl
  | cons b bs ih =>
    have hb := b.isLt
    have hlow : byteOf (leNat (b :: bs)) 0 = b := by
      apply BitVec.eq_of_toNat_eq
      simp only [byteOf, leNat, BitVec.toNat_ofNat]
      omega
    have hhigh : leNat (b :: bs) / 256 = leNat bs := by
      simp only [leNat]
      omega
    rw [List.length_cons, leBytes_succ, hlow, hhigh, ih]

/-- The words that a byte list holds from `off` on, as bytes again. -/
theorem wordsBytes_leAt (bs : List Byte) (off n : Nat) (h : off + 4 * n ≤ bs.length) :
    wordsBytes ((List.range n).map fun i => leAt bs (off + 4 * i) 4) = (bs.drop off).take (4 * n) := by
  induction n with
  | zero => rfl
  | succ n ih =>
    have hlen : ((bs.drop (off + 4 * n)).take 4).length = 4 := by
      rw [List.length_take, List.length_drop]
      omega
    have hword : leBytes 4 (leAt bs (off + 4 * n) 4) = (bs.drop (off + 4 * n)).take 4 :=
      leBytes_leNat _ hlen
    have ih' := ih (by omega)
    simp only [wordsBytes] at ih' ⊢
    rw [List.range_succ, List.map_append, List.flatMap_append, ih', Nat.mul_succ, List.take_add, List.drop_drop]
    simp [hword]

/-- Bytes stored are the bytes loaded. -/
theorem loadBytes_storeBytes (b : Byte) (m : List Host.Cell) (a : Nat) (bs : List Byte) :
    loadBytes b (storeBytes b m a bs) a bs.length = bs := by
  apply List.ext_getElem
  · simp [loadBytes]
  · intro i _ hi
    simp [loadBytes, sget_storeBytes_in b bs m a i hi]

/-- What is written in the Creel reads back, and every byte outside it stands. -/
theorem creelBytes_setCreelBytes (d : Dev) (a : Nat) {n : Nat} {bs : List Byte} (h : bs.length = n) :
    (d.setCreelBytes a bs).creelBytes a n = bs := by
  subst h
  exact loadBytes_storeBytes ramDefault d.creel a bs

theorem sameOutside_setCreelBytes (d : Dev) (a : Nat) {n : Nat} {bs : List Byte} (h : bs.length = n) :
    sameOutside ramDefault a n d.creel (d.setCreelBytes a bs).creel := by
  subst h
  exact fun k hk => sget_storeBytes_out ramDefault ramDefault bs d.creel a k hk

/-! ### Requests of the chain -/

/-- A read clears no bit of CLK_LIVE. -/
theorem readClear_clkLive (a : Nat) (d : Dev) : (readClear a d).reg CLK_LIVE = d.reg CLK_LIVE := by
  by_cases h : a = CLK_LIVE
  · have hrow : (rowAt CLK_LIVE).map (·.rc) = some 0 := by decide +kernel
    obtain ⟨r, hr, hrc⟩ := Option.map_eq_some_iff.1 hrow
    rw [h, readClear_row hr, hrc, setMasked, if_pos rfl]
  · unfold readClear
    split
    · rfl
    · exact (setMasked_regsOnly a _ _ d).2 _ (by simpa using Ne.symm h)

theorem setMasked_chain (a w mask : Nat) (d : Dev) : (setMasked a w mask d).chain = d.chain := by
  unfold setMasked
  split <;> rfl

theorem readClear_chain (a : Nat) (d : Dev) : (readClear a d).chain = d.chain := by
  unfold readClear
  split
  · rfl
  · exact setMasked_chain _ _ _ d

section
variable {p : Port} {f : Frame} {rest : List Frame} {d : Dev}

theorem takeFrame_upstream (p : Port) (d : Dev) : (takeFrame p d).upstream = d.upstream := by
  simp (disch := decide) only [Dev.upstream, takeFrame_on]

theorem takeFrame_srcAddr (p : Port) (d : Dev) : (takeFrame p d).srcAddr = d.srcAddr := by
  simp (disch := decide) only [Dev.srcAddr, takeFrame_on, takeFrame_get]

theorem takeFrame_identity (p : Port) (d : Dev) : (takeFrame p d).identity = d.identity := by
  simp (disch := decide) only [Dev.identity, takeFrame_on, takeFrame_get, takeFrame_reg]

/-- The request taken and answered: the bobbin has lost it, the answer waits at the upstream port, and nothing else changed
but what the taking shows. -/
theorem reply_takeFrame (h : (d.cport p).rxQ = f :: rest) (seqNo : Nat) (payload : List Byte) :
    ((sendReply 1 seqNo payload (takeFrame p d)).cport p).rxQ = rest ∧
      ((sendReply 1 seqNo payload (takeFrame p d)).cport d.upstream).ownQ =
        (d.cport d.upstream).ownQ ++ [⟨.own, 1, 0, d.srcAddr, 0, seqNo, payload, .none⟩] ∧
      Dev.withEvent (takenRegs p) { d with chain := (sendReply 1 seqNo payload (takeFrame p d)).chain }
        (sendReply 1 seqNo payload (takeFrame p d)) := by
  refine ⟨?_, ?_, withEvent_chain (takeFrame_withEvent h) _⟩
  · rw [sendReply_rxQ, takeFrame_rxQ h]
  · rw [← takeFrame_upstream p d, sendReply_ownQ, takeFrame_srcAddr, takeFrame_upstream, takeFrame_ownQ h]

/-- A request of an addressed device for 1 to 64 words that it carries is run. -/
theorem mgmtWords_run {write : Bool} (hv : d.on NET_STATUS_ADDR_VALID = true) (h1 : 1 ≤ leAt f.payload 1 1)
    (h64 : leAt f.payload 1 1 ≤ 64) (h8 : 8 ≤ f.payload.length)
    (hlen : write = true → 8 + 4 * leAt f.payload 1 1 ≤ f.payload.length) : mgmtWords write f d =
      frameRun ⟨f.seqNo, write, leAt f.payload 4 4, (List.range (leAt f.payload 1 1)).map fun i =>
        if write then leAt f.payload (8 + 4 * i) 4 else 0, []⟩ d := by
  have hw : (write && decide (f.payload.length < 8 + 4 * leAt f.payload 1 1)) = false := by
    cases write
    · rfl
    · simpa using hlen rfl
  simp [mgmtWords, hv, hw, show leAt f.payload 1 1 ≠ 0 by omega, show ¬ 64 < leAt f.payload 1 1 by omega,
    show ¬ f.payload.length < 8 by omega]

end

/-! ### What each request answers -/

/-- The management request `f` stands at the head of the receive bobbin of port `p`, FAB runs, the chain's path is free and
both ports are busy. -/
structure Dev.hasRequest (p : Port) (f : Frame) (rest : List Frame) (d : Dev) : Prop where
  head : (d.cport p).rxQ = f :: rest
  kind : f.kind = 1
  free : d.pathHeld .chain = false
  run : d.runs domFab = true
  busy : ∀ q, (d.cport q).sending.isSome = true

namespace Dev.hasRequest

variable {p : Port} {f : Frame} {rest : List Frame} {d : Dev} (h : d.hasRequest p f rest)
include h

theorem taken_busy (q : Port) : ((takeFrame p d).cport q).sending.isSome = true := by
  rw [takeFrame_sending h.head, h.busy q]

theorem taken_run : (takeFrame p d).runs domFab = true := by
  rw [runs_congr (takeFrame_reg p d (by decide)) (takeFrame_start p d), h.run]

/-- A wanted request is taken and run. -/
theorem taken {want : List Byte → Bool} (hw : want f.payload = true) (g : Frame → Dev → Dev) :
    mgmtFrame p want g d = g f (takeFrame p d) := by
  simp [mgmtFrame, h.head, h.kind, h.free, hw]

/-- READ of words of the window. -/
theorem read_window {n a : Nat} (hn : n = leAt f.payload 1 1) (ha : a = leAt f.payload 4 4)
    (hv : d.on NET_STATUS_ADDR_VALID = true) (h8 : 8 ≤ f.payload.length) (h1 : 1 ≤ n) (h64 : n ≤ 64)
    (hwin : windowWords a n) : mgmtWords false f (takeFrame p d) = sendReply 1 f.seqNo (wordsBytes ([0x81 + n * 256, a] ++
      (List.range n).map fun i => d.creelNat (a - 0x1000000 + 4 * i) 4)) (takeFrame p d) := by
  subst hn ha
  have hlt := hwin.below
  have hwords := frameWords_readWindow h.taken_run ((List.range (leAt f.payload 1 1)).map fun _ => 0) (leAt f.payload 4 4) []
    (by simpa using hwin)
  rw [mgmtWords_run (write := false) ((takeFrame_on p d _ (by decide)).trans hv) h1 h64 h8 nofun]
  refine (frameRun_done (by omega) hwords (fabRuns_of_runs h.taken_run) h.taken_busy).trans ?_
  simp [Dev.creelNat, Dev.creelBytes]

/-- READ of one register. -/
theorem read_register {a : Nat} (ha : a = leAt f.payload 4 4) (hv : d.on NET_STATUS_ADDR_VALID = true)
    (h8 : 8 ≤ f.payload.length) (h1 : leAt f.payload 1 1 = 1) (hlo : a < 0x160000) (hal : a % 4 = 0)
    (hreach : d.reachable .chain a = true) : mgmtWords false f (takeFrame p d) =
      sendReply 1 f.seqNo (wordsBytes [0x181, a, viewReg false a (takeFrame p d)]) (readClear a (takeFrame p d)) := by
  subst ha
  have hrow : inWindow (leAt f.payload 4 4) = false := by
    simp only [inWindow, Bool.and_eq_false_iff, decide_eq_false_iff_not]
    omega
  have hreach' := (reachable_congr (takeFrame_reg p d (a := CLK_LIVE) (by decide)) (takeFrame_start p d) _ _).trans hreach
  have hwords := frameWords_cons (t := []) (did := []) hal hreach' (accessWord_readReg hrow 0 (takeFrame p d))
  have hrun : (readClear (leAt f.payload 4 4) (takeFrame p d)).fabRuns = true := by
    simp only [Dev.fabRuns, readClear_clkLive]
    exact fabRuns_of_runs h.taken_run
  have hbusy (q : Port) : ((readClear (leAt f.payload 4 4) (takeFrame p d)).cport q).sending.isSome = true := by
    rw [cport_of_chain (readClear_chain _ _), h.taken_busy q]
  rw [mgmtWords_run (write := false) ((takeFrame_on p d _ (by decide)).trans hv) h1.ge (h1.trans_le (by decide)) h8 nofun, h1]
  refine (frameRun_done (by omega) hwords hrun hbusy).trans ?_
  simp

/-- WRITE of words of the window, below the loop mailbox. -/
theorem write_window {n a : Nat} (hn : n = leAt f.payload 1 1) (ha : a = leAt f.payload 4 4)
    (hv : d.on NET_STATUS_ADDR_VALID = true) (hlen : 8 + 4 * n ≤ f.payload.length) (h1 : 1 ≤ n) (h64 : n ≤ 64)
    (hwin : windowWords a n) (hbox : a + 4 * n ≤ 0x2FE0000) : mgmtWords true f (takeFrame p d) =
      (sendReply 1 f.seqNo (wordsBytes [0x82 + n * 256, a]) (takeFrame p d)).setCreelBytes (a - 0x1000000)
        ((f.payload.drop 8).take (4 * n)) := by
  subst hn ha
  have hwords := frameWords_writeWindow ((List.range (leAt f.payload 1 1)).map fun i => leAt f.payload (8 + 4 * i) 4)
    (leAt f.payload 4 4) [] (takeFrame p d) h.taken_run (by simpa using hwin) (by simpa using hbox)
  rw [wordsBytes_leAt _ _ _ hlen] at hwords
  rw [mgmtWords_run (write := true) ((takeFrame_on p d _ (by decide)).trans hv) h1 h64 (by omega) (fun _ => hlen)]
  refine (frameRun_done (by omega) hwords (fabRuns_of_runs h.taken_run) h.taken_busy).trans ?_
  simp only [List.length_append, List.length_replicate, List.length_map, List.length_range, List.length_nil, Nat.zero_add,
    ↓reduceIte, List.append_nil]
  rfl

theorem identity : mgmtIdentity f (takeFrame p d) =
    sendReply 1 f.seqNo (wordsBytes ([0x883, leAt f.payload 4 4] ++ d.identity)) (takeFrame p d) := by
  rw [mgmtIdentity, mgmtReply_busy h.taken_busy, takeFrame_identity]

theorem badOp : mgmtBadOp f (takeFrame p d) = sendReply 1 f.seqNo
    (wordsBytes [0x80 + (if f.payload.length < 4 then 4 else 2) * 65536, leAt f.payload 4 4]) (takeFrame p d) := by
  have hshort : (mgmtOp f.payload).isNone = decide (f.payload.length < 4) := by
    unfold mgmtOp
    split <;> simp [*]
  rw [mgmtBadOp, mgmtReply_busy h.taken_busy, hshort]
  simp

end Dev.hasRequest

/-- Settles O36: each request is taken, run or refused by its OP, and answered; `reply_takeFrame` says what that leaves. -/
theorem managementRequests : Obligations.ManagementRequests := by
  unfold Obligations.ManagementRequests
  intro p f rest n a s hrun hc hfree hq hk hbusy0 hbusy1 hn ha
  have h : s.dev.hasRequest p f rest := ⟨hq, hk, hfree, hrun, fun q => by fin_cases q <;> assumption⟩
  have hquiet : (takeFrame p s.dev).ev.reacts = [] := ((takeFrame_within p s.dev).calm hc).1
  refine ⟨?read, ?register, ?write, ?identity, ?badOp⟩
  case read =>
    intro hop hv h8 h1 h64 hlo hhi hal
    have hdo := (h.taken (want := fun bs => mgmtOp bs == some 1) (by simp [hop]) _).trans
      (h.read_window hn ha hv h8 h1 h64 ⟨hal, hlo, hhi⟩)
    exact ⟨_, actIn_of_eq hrun hdo hquiet, reply_takeFrame hq _ _⟩
  case register =>
    intro hop hv h8 h1 hlo hal hreach
    have hdo := (h.taken (want := fun bs => mgmtOp bs == some 1) (by simp [hop]) _).trans
      (h.read_register ha hv h8 (hn.symm.trans h1) hlo hal hreach)
    exact actIn_of_eq hrun hdo (by rw [sendReply_ev, readClear_ev, hquiet])
  case write =>
    intro hop hv hlen h1 h64 hlo hhi hal
    have hdo := (h.taken (want := fun bs => mgmtOp bs == some 2) (by simp [hop]) _).trans
      (h.write_window hn ha hv hlen h1 h64 ⟨hal, hlo, by omega⟩ hhi)
    have hbytes : ((f.payload.drop 8).take (4 * n)).length = 4 * n := by
      rw [List.length_take, List.length_drop]
      omega
    obtain ⟨hrx, hown, hrest⟩ := reply_takeFrame hq f.seqNo (wordsBytes [0x82 + n * 256, a])
    refine ⟨_, actIn_of_eq hrun hdo hquiet, hrx, hown, creelBytes_setCreelBytes _ _ hbytes, ?_, withEvent_creel hrest _⟩
    have hout := sameOutside_setCreelBytes (sendReply 1 f.seqNo (wordsBytes [0x82 + n * 256, a]) (takeFrame p s.dev))
      (a - 0x1000000) hbytes
    rwa [sendReply_creel, takeFrame_creel] at hout
  case identity =>
    intro hop
    have hdo := (h.taken (want := fun bs => mgmtOp bs == some 3) (by simp [hop]) _).trans h.identity
    exact ⟨_, actIn_of_eq hrun hdo hquiet, ha ▸ reply_takeFrame hq _ _⟩
  case badOp =>
    intro h1 h2 h3
    have hwant : (!(List.range' 1 3).any fun k => mgmtOp f.payload == some k) = true := by
      simp [List.range', h1, h2, h3]
    have hdo := (h.taken (want := fun bs => !(List.range' 1 3).any fun k => mgmtOp bs == some k) hwant _).trans h.badOp
    exact ⟨_, actIn_of_eq hrun hdo hquiet, ha ▸ reply_takeFrame hq _ _⟩

end Sys2Proof.Machine

/-!
PROOFS of the Shuttles' plan commands: what a deadline, a completion and a re-pick leave, then the statement.
-/
namespace Sys2Proof.Machine

open Reg

/-- A register of the Shuttles is none that the detection of a fault changes. -/
theorem faultReg_sht {a : Nat} (h : a / 0x10000 = 8) : faultReg a = false := faultReg_block (by rw [h]; decide)

theorem shtDeadlines_block (n : Station) : SHT_DEADLINES n / 0x10000 = 8 := by simp only [SHT_DEADLINES]; omega
theorem shtFlags_block (n : Station) : SHT_FLAGS n / 0x10000 = 8 := by simp only [SHT_FLAGS]; omega

/-! ### A missed deadline (R34, R571) -/

/-- A missed deadline is counted, shown and a fault. -/
def deadlineMissed (n : Station) (d : Dev) : Dev :=
  fault 0x43 sevRetry n.val (shtFlag n (SHT_FLAGS_DEADLINE n) 0x43 (d.count (SHT_DEADLINES n) 1))

theorem shtDeadline_running {n : Station} {edges : Bool} {d : Dev} (h : d.shuttlesRun = true) :
    shtDeadline n edges d = deadlineMissed n (d.shtMod n fun x =>
      { x with holdSet := x.holdSet || !edges, holdEdges := x.holdEdges || edges, missed := true }) := by
  simp [shtDeadline, h, deadlineMissed]

theorem deadlineMissed_spec (n : Station) (d : Dev) :
    (deadlineMissed n d).on (SHT_FLAGS_DEADLINE n) = true ∧
      (deadlineMissed n d).reg (SHT_DEADLINES n) = min (d.reg (SHT_DEADLINES n) + 1) 0xFFFFFFFF ∧
      d.withFault [SHT_DEADLINES n, SHT_FLAGS n] (deadlineMissed n d) := by
  obtain ⟨hflag, hon⟩ := flagEvent_spec (SHT_FLAGS_DEADLINE n) (128 + n.val) n.val 0x43 (d.count (SHT_DEADLINES n) 1)
    (by omega) rfl (by simp) (eventReg_of_faultReg (faultReg_sht (shtFlags_block n)))
  have hfault : FaultOnly _ (deadlineMissed n d) := faultD_faultOnly 0x43 sevRetry n.val 0 0 _ (by decide)
  have hcount := withFault_of (regsOnly_count d (SHT_DEADLINES n) 1) (FaultOnly.refl _)
  have hne : SHT_DEADLINES n ∉ [SHT_FLAGS n] := by simp only [List.mem_singleton, SHT_DEADLINES, SHT_FLAGS]; omega
  refine ⟨?flag, ?count, ?rest⟩
  case flag => rw [Dev.on, Dev.get, hfault.regs _ (faultReg_sht (shtFlags_block n))]; exact hon
  case count =>
    rw [hfault.regs _ (faultReg_sht (shtDeadlines_block n)), ← reg_count_same]
    exact hflag.2 _ hne (eventReg_of_faultReg (faultReg_sht (shtDeadlines_block n)))
  case rest => exact withFault_trans hcount (withFault_trans (withEvent_fault hflag) (withFault_of (regsOnly_refl _ []) hfault))

/-! ### Completion (R137) -/

theorem meltComplete_regs (n : Station) (d : Dev) : meltComplete n d = { d with mpl := (meltComplete n d).mpl } := by
  unfold meltComplete
  split <;> rfl

/-- The completion of a station's layer shows an empty queue. -/
theorem completed_spec (n : Station) (d : Dev) (h : (d.shtl n).queue = []) :
    (meltComplete n (setQdepth n d)).get (SHT_STATUS_QDEPTH n) = 0 ∧ (meltComplete n (setQdepth n d)).sht = d.sht ∧
      Dev.regsOnly [SHT_STATUS n] { d with mpl := (meltComplete n (setQdepth n d)).mpl } (meltComplete n (setQdepth n d)) := by
  rw [meltComplete_regs]
  refine ⟨?_, rfl, rfl, (regsOnly_put d (SHT_STATUS_QDEPTH n) _).2⟩
  rw [setQdepth, h]
  exact get_put_same d (SHT_STATUS_QDEPTH n) 0 (by simp) (by simp)

/-- The station has taken END_OF_LIST, stands at the end of its plan, and its emission is over. -/
structure Dev.atEnd (n : Station) (d : Dev) : Prop where
  runs : d.shuttlesRun = true
  inUse : d.isRetired n.val = false
  sawEnd : (d.shtl n).sawEnd = true
  plan : (d.shtl n).plan = []
  intr : (d.shtl n).intr = none
  first : (d.shtl n).complete = false
  started : (d.shtl n).started = true
  edges : d.edgesDone n = true

theorem stationComplete_atEnd {n : Station} {d : Dev} (h : d.atEnd n) :
    stationComplete n d = meltComplete n (setQdepth n
      (d.shtMod n fun x => { x with complete := true, parking := true, queue := [] })) := by
  simp [stationComplete, h.runs, h.inUse, h.sawEnd, h.plan, h.intr, h.first, h.started, h.edges]

/-! ### The re-pick (R165, R166) -/

/-- An interrupted Shuttle takes the plan of the re-pick: it is interrupted and stopping no more. -/
theorem repickPlan_resumes (c : PathCfg) (back : Nat) {x : Shuttle} (h : x.intr.isSome = true) :
    (repickPlan c back x).1.intr = none ∧ (repickPlan c back x).1.stopping = false := by
  unfold repickPlan
  split
  · next hn => simp [hn] at h
  · extract_lets here clear past since all rest vj entered later go elem stay keep go' first lo lo' q0 q path cut
    split
    · exact ⟨rfl, rfl⟩
    split
    · exact ⟨rfl, rfl⟩
    split
    · exact ⟨rfl, rfl⟩
    clear_value cut
    rcases cut with _ | ⟨⟨e, b⟩, more⟩ <;> exact ⟨rfl, rfl⟩

/-- A re-pick is counted, with the length that it exposes again and the pick that it gives up. -/
def repickCounted (n : Station) (again : Nat) (skipped : Bool) (d : Dev) : Dev :=
  let t := (d.count (SHT_REPICKS n) 1).count (SHT_REEXPOSED n) again
  if skipped then t.count (SHT_SKIPPED n) 1 else t

theorem repickCounted_regsOnly (n : Station) (again : Nat) (skipped : Bool) (d : Dev) :
    d.regsOnly [SHT_REPICKS n, SHT_REEXPOSED n, SHT_SKIPPED n] (repickCounted n again skipped d) := by
  have h := regsOnly_trans (regsOnly_count d (SHT_REPICKS n) 1) (regsOnly_count _ (SHT_REEXPOSED n) again)
  unfold repickCounted
  extract_lets t
  split
  · exact regsOnly_trans h (regsOnly_count t (SHT_SKIPPED n) 1)
  · exact regsOnly_mono h (by simp)

theorem repickCounted_reg (n : Station) (again : Nat) (skipped : Bool) (d : Dev) {a : Nat} (h : a ≠ SHT_SKIPPED n) :
    (repickCounted n again skipped d).reg a = ((d.count (SHT_REPICKS n) 1).count (SHT_REEXPOSED n) again).reg a := by
  unfold repickCounted
  extract_lets t
  split
  · exact reg_count_ne t 1 h
  · rfl

theorem repickCounted_repicks (n : Station) (again : Nat) (skipped : Bool) (d : Dev) :
    (repickCounted n again skipped d).reg (SHT_REPICKS n) = min (d.reg (SHT_REPICKS n) + 1) 0xFFFFFFFF := by
  rw [repickCounted_reg, reg_count_ne, reg_count_same] <;> simp only [SHT_REPICKS, SHT_SKIPPED, SHT_REEXPOSED] <;> omega

theorem repickCounted_reexposed (n : Station) (again : Nat) (skipped : Bool) (d : Dev) :
    (repickCounted n again skipped d).reg (SHT_REEXPOSED n) = min (d.reg (SHT_REEXPOSED n) + again) 0xFFFFFFFF := by
  rw [repickCounted_reg, reg_count_same, reg_count_ne] <;> simp only [SHT_REPICKS, SHT_SKIPPED, SHT_REEXPOSED] <;> omega

/-- The station was interrupted in SCAN and has come to rest, not held, its link in RUN. -/
structure Dev.interruptedAtRest (n : Station) (d : Dev) : Prop where
  scan : d.trdState = 5
  path : d.onPath n = true
  stopping : (d.shtl n).stopping = true
  v : (d.shtl n).v = 0
  a : (d.shtl n).a = 0
  ramp : (d.shtl n).ramp = none
  easing : (d.shtl n).easing = none
  held : (d.shtl n).held = false
  link : d.reg (LNK_WSTATE n) % 8 = 4
  intr : (d.shtl n).intr.isSome = true

/-- The re-pick that the station's settings give. -/
def Dev.repickOf (d : Dev) (n : Station) : Shuttle × Nat × Bool :=
  repickPlan (d.pathCfg n) (d.reg (SHT_REPICK_BACK n)) (d.shtl n)

/-- The re-pick gives the station its plan and lifts the blanking, and is counted. -/
theorem repick_atRest {n : Station} {d : Dev} (h : d.interruptedAtRest n) :
    ∃ x : Shuttle, x.plan = (d.repickOf n).1.plan ∧ x.stopping = (d.repickOf n).1.stopping ∧ x.blank = false ∧
      x.intr = (d.repickOf n).1.intr ∧
      repick n d = repickCounted n (d.repickOf n).2.1 (d.repickOf n).2.2 (d.shtMod n fun _ => x) := by
  refine ⟨?x, ?plan, ?stopping, ?blank, ?intr, ?eq⟩
  case eq =>
    simp only [repick, h.scan, h.path, h.stopping, h.v, h.a, h.ramp, h.easing, h.held, h.link, h.intr, decide_true,
      Option.isNone_none, Bool.not_false, Bool.and_self, beq_self_eq_true, ↓reduceIte]
    rfl
  all_goals rfl

/-- Settles O18: each command by what it leaves where its conditions hold. -/
theorem shuttlePlanCommands : Obligations.ShuttlePlanCommands := by
  unfold Obligations.ShuttlePlanCommands
  intro n edges s hrun hc
  refine ⟨?deadline, ?start, ?complete, ?repick⟩
  case deadline =>
    intro hsht
    have hquiet := ((shtDeadline_within n edges s.dev).calm hc).1
    rw [shtDeadline_running hsht] at hquiet
    obtain ⟨hon, hcount, hrest⟩ := deadlineMissed_spec n (s.dev.shtMod n fun x =>
      { x with holdSet := x.holdSet || !edges, holdEdges := x.holdEdges || edges, missed := true })
    have hkeep := congrArg Dev.sht hrest.1
    refine ⟨_, actIn_of_eq hrun (shtDeadline_running hsht) hquiet, hon, hcount, hkeep, ?_⟩
    rw [hkeep]
    exact hrest
  case start =>
    intro hscan hstart hpark hret hplan hrest htick
    refine actIn_of_eq hrun ?_ hc.1
    simp [pathStart, hscan, hstart, hpark, hret, hplan, hrest, htick, Dev.shtMod]
  case complete =>
    intro hsht hret hend hplan hintr hnot hstart hedges
    have hdo := stationComplete_atEnd ⟨hsht, hret, hend, hplan, hintr, hnot, hstart, hedges⟩
    have hquiet := ((stationComplete_within n s.dev).calm hc).1
    rw [hdo] at hquiet
    obtain ⟨hdepth, hkeep, hrest⟩ := completed_spec n
      (s.dev.shtMod n fun x => { x with complete := true, parking := true, queue := [] }) (by simp [Dev.shtl, Dev.shtMod])
    refine ⟨_, actIn_of_eq hrun hdo hquiet, hdepth, hkeep, ?_⟩
    rw [hkeep]
    exact hrest
  case repick =>
    intro hscan hpath hstop hv ha hramp hease hheld hlink hintr
    obtain ⟨x, hxplan, hxstop, hxblank, hxintr, hdo⟩ :=
      repick_atRest ⟨hscan, hpath, hstop, hv, ha, hramp, hease, hheld, hlink, hintr⟩
    obtain ⟨hresume, hgo⟩ := repickPlan_resumes (s.dev.pathCfg n) (s.dev.reg (SHT_REPICK_BACK n)) hintr
    have hquiet := ((repick_within n s.dev).calm hc).1
    rw [hdo] at hquiet
    have hrest := repickCounted_regsOnly n (s.dev.repickOf n).2.1 (s.dev.repickOf n).2.2 (s.dev.shtMod n fun _ => x)
    have hkeep : (repickCounted n (s.dev.repickOf n).2.1 (s.dev.repickOf n).2.2 (s.dev.shtMod n fun _ => x)).sht =
        vmod s.dev.sht n fun _ => x := congrArg Dev.sht hrest.1
    refine ⟨_, actIn_of_eq hrun hdo hquiet, ?_⟩
    simp only [Dev.shtl, hkeep, vat_vmod_same]
    exact ⟨hxplan, hxstop.trans hgo, hxblank, hxintr.trans hresume, repickCounted_repicks _ _ _ _,
      repickCounted_reexposed _ _ _ _, fun k hk => vat_vmod_ne _ _ hk, hrest⟩

end Sys2Proof.Machine

/-!
PROOFS of the start times: what a job message that is taken leaves, what a refused start time, an accepted one and a
rejected header do, then the statement.
-/
namespace Sys2Proof.Machine

open Reg

/-! ### Job messages (R82) -/

/-- The job message at the head of the receive bobbin is taken and handled while the Treadle is enabled. -/
theorem jobFrame_head {p : Port} {f : Frame} {rest : List Frame} {d : Dev} (h : (d.cport p).rxQ = f :: rest)
    (hk : f.kind = 2) (hen : d.on TRD_CTRL_ENABLE = true) (hst : d.get DEV_STATE_STATE ≠ 7) {want : Nat → Bool}
    (hw : want (leAt f.payload 0 1) = true) (g : List Byte → Dev → Dev) :
    jobFrame p want g d = g f.payload (takeFrame p d) := by
  have hen' := (takeFrame_on p d TRD_CTRL_ENABLE (by decide)).trans hen
  have hst' : (takeFrame p d).get DEV_STATE_STATE ≠ 7 := by rwa [takeFrame_get p d _ (by decide)]
  simp [jobFrame, h, hk, hw, hen', hst']

theorem takeFrame_calm (p : Port) {d : Dev} (h : d.calm) : (takeFrame p d).calm := (takeFrame_within p d).calm h

/-! ### Layer slots (R66) -/

theorem slotStatus_block (i : Slot) : slotStatus i / 0x10000 = 20 := by
  simp only [slotStatus, TRD_SLOT0_STATUS]
  omega

theorem slotStatus_ne (i : Slot) {a : Nat} (h : a < TRD_SLOT0_STATUS ∨ TRD_SLOT0_STATUS + 12 ≤ a) : slotStatus i ≠ a := by
  simp only [slotStatus]
  omega

theorem slotState_congr {d t : Dev} {i : Slot} (h : t.reg (slotStatus i) = d.reg (slotStatus i)) :
    t.slotState i = d.slotState i := by
  simp only [Dev.slotState, h]

theorem slotArmed_congr {d t : Dev} {i : Slot} (h : t.reg (slotStatus i) = d.reg (slotStatus i)) (ht : t.trd = d.trd) :
    t.slotArmed i = d.slotArmed i := by
  simp only [Dev.slotArmed, slotState_congr h, ht]

theorem takeFrame_slotStatus (p : Port) (d : Dev) (i : Slot) :
    (takeFrame p d).reg (slotStatus i) = d.reg (slotStatus i) :=
  takeFrame_reg p d (by rw [slotStatus_block]; decide)

@[simp] theorem takeFrame_slotState (p : Port) (d : Dev) (i : Slot) : (takeFrame p d).slotState i = d.slotState i :=
  slotState_congr (takeFrame_slotStatus p d i)

theorem takeFrame_layerSlot (p : Port) (d : Dev) (job layer : Nat) :
    (takeFrame p d).layerSlot job layer = d.layerSlot job layer := by
  simp only [Dev.layerSlot, Dev.slotCounts, takeFrame_slotState, takeFrame_trd]

theorem slotState_setSlotState (i : Slot) {st : Nat} (h : st < 8) (d : Dev) : (setSlotState i st d).slotState i = st := by
  simp only [Dev.slotState, setSlotState, reg_setReg_same]
  rw [bits_mod_word _ _ _ (by decide), bits_putBits_ne _ _ _ _ _ _ (by decide) (by decide), bits_putBits _ _ _ _ (by decide)]
  exact Nat.mod_eq_of_lt h

/-! ### A time that is refused (R25, R68, R86) -/

/-- A time that is no period boundary is refused (R25). -/
theorem timeOk_of_offBoundary {t : StartTime} (h : t.2 % 2000 ≠ 0) (d : Dev) : d.timeOk t = false := by
  simp [Dev.timeOk, h]

theorem period_of_timeOk {t : StartTime} {d : Dev} (h : d.timeOk t = true) : t.2 % 2000 = 0 := by
  simp only [Dev.timeOk, Bool.and_eq_true, decide_eq_true_eq] at h
  exact h.1.1.1

/-- A fault counted since `t` is one counted since `d`, where both hold the same count. -/
theorem detects_of_reg {code inst : Nat} {d t u : Dev} (h : t.reg (EVT_FLT_COUNT code) = d.reg (EVT_FLT_COUNT code))
    (k : t.detects code inst u) : d.detects code inst u := by
  rwa [Dev.detects, h] at k

/-- The refusal of a time is SCHED_REFUSED with its flag and E106, and nothing more. -/
theorem schedRefused_spec (inst : Nat) (hi : inst < 256) (d : Dev) :
    d.detects 0x34 inst (schedRefused inst d) ∧ (schedRefused inst d).on TRD_STATUS_SCHED_REFUSED = true ∧
      (schedRefused inst d).pends 106 ∧ d.withFault [TRD_STATUS] (schedRefused inst d) := by
  obtain ⟨honly, hpend⟩ := faultEvent_spec 0x34 sevInfo inst 106 (d.put TRD_STATUS_SCHED_REFUSED 1) (by decide) (by decide)
  refine ⟨?_, ?_, hpend, withFault_of (regsOnly_put d TRD_STATUS_SCHED_REFUSED 1) honly⟩
  · exact detects_of_reg (reg_put_ne d _ 1 (by decide))
      (faultEvent_detects sevInfo _ (by decide) (by decide) hi (by decide))
  · rw [schedRefused, Dev.on, get_faultEvent _ _ _ _ _ _ (by decide) (by decide) (by decide)]
    exact on_put_one d TRD_STATUS_SCHED_REFUSED rfl (by decide)

theorem bedShow_regsOnly (d : Dev) : d.regsOnly [TRD_STATE] (bedShow d) := by
  unfold bedShow
  split
  · exact regsOnly_mono (regsOnly_trans (regsOnly_put d TRD_STATE_WAIT_START _) (regsOnly_put _ TRD_STATE_WAIT_SCHED _))
      (by simp)
  · exact regsOnly_refl d _

/-- A LAYER_SCHEDULE off a period boundary is refused. -/
theorem layerSchedule_offBoundary {m : List Byte} {i : Slot} {d : Dev}
    (h : d.layerSlot (leAt m 4 4) (leAt m 8 4) = some i) (ht : leAt m 12 4 % 2000 ≠ 0) :
    layerSchedule m d = schedRefused i.val d ∨ layerSchedule m d = bedShow (schedRefused i.val d) := by
  have hno : d.timeOk (leAt m 16 8, leAt m 12 4) = false := timeOk_of_offBoundary ht d
  simp only [layerSchedule, h, offerStart, hno]
  split
  · exact .inl rfl
  · exact .inr rfl

theorem schedRefused_regsOnly_spec {inst : Nat} (hi : inst < 256) {d u : Dev}
    (h : (schedRefused inst d).regsOnly [TRD_STATE] u) :
    d.detects 0x34 inst u ∧ u.on TRD_STATUS_SCHED_REFUSED = true ∧ u.pends 106 ∧ d.withFault [TRD_STATUS, TRD_STATE] u := by
  obtain ⟨⟨hcount, hcode, hinst⟩, hon, hpend, hrest⟩ := schedRefused_spec inst hi d
  have hreg (a : Nat) (ha : a ≠ TRD_STATE) : u.reg a = (schedRefused inst d).reg a := h.2 a (by simpa using ha)
  refine ⟨⟨?_, ?_, ?_⟩, ?_, ?_, withFault_regsOnly hrest h⟩
  · rw [hreg _ (by decide), hcount]
  · rw [hreg _ (by decide), hcode]
  · rw [hreg _ (by decide), hinst]
  · rwa [Dev.on, Dev.get, hreg _ (by decide)]
  · rwa [Dev.pends, hreg _ (by decide)]

/-- A refusal after the taking of a message: what it leaves since before. -/
theorem withFault_takeFrame {p : Port} {f : Frame} {rest : List Frame} {L : List Nat} {d t : Dev}
    (h : (d.cport p).rxQ = f :: rest) (k : (takeFrame p d).withFault L t) :
    t.trd = d.trd ∧ Dev.withFault (takenRegs p ++ L) { d with chain := t.chain } t := by
  have hw := withFault_trans (withEvent_fault (takeFrame_withEvent h)) k
  have hchain : t.chain = (takeFrame p d).chain := by rw [k.1]
  exact ⟨by rw [hw.1], by rwa [hchain]⟩

/-! ### A time that is accepted (R68) -/

theorem setStart_trd (i : Slot) (t : Option StartTime) (d : Dev) :
    (setStart i t d).trd = (d.slotMod i fun x => { x with start := t }).trd := by
  unfold setStart
  extract_lets s1 s2
  split <;> rfl

/-- A slot holds the time that it held, or the time offered where that is a period boundary (R25). -/
theorem offerStart_start (i : Slot) (t : StartTime) (d : Dev) :
    (vat (offerStart i t d).trd.slots i).start = (vat d.trd.slots i).start ∨
      (vat (offerStart i t d).trd.slots i).start = some t ∧ t.2 % 2000 = 0 := by
  unfold offerStart
  split
  · exact .inl (by rw [(schedRefused_within i.val d).frame.2 .trd rfl])
  · next hok =>
    refine .inr ⟨?_, period_of_timeOk (by simpa using hok)⟩
    extract_lets armed u
    have hset : (vat u.trd.slots i).start = some t := by
      simp [u, setStart_trd, Dev.slotMod, Dev.trdMod]
    split
    · exact hset
    · rwa [(armedEvent_within i _).frame.2 .trd rfl]

theorem layerSchedule_start {m : List Byte} {i : Slot} {d : Dev} (h : d.layerSlot (leAt m 4 4) (leAt m 8 4) = some i) :
    (vat (layerSchedule m d).trd.slots i).start = (vat d.trd.slots i).start ∨
      (vat (layerSchedule m d).trd.slots i).start = some (leAt m 16 8, leAt m 12 4) ∧ leAt m 12 4 % 2000 = 0 := by
  simp only [layerSchedule, h]
  split
  · exact .inl (by rw [(schedRefused_within i.val d).frame.2 .trd rfl])
  · rw [(bedShow_within _).frame.2 .trd rfl]
    exact offerStart_start i (leAt m 16 8, leAt m 12 4) d

/-! ### A header that is rejected (R52, R55, R86) -/

theorem leAt_take {off n k : Nat} (bs : List Byte) (h : off + n ≤ k) : leAt (bs.take k) off n = leAt bs off n := by
  rw [leAt, leAt, List.drop_take, List.take_take, Nat.min_eq_left (by omega)]

/-- A header whose start time is no period boundary is a FORMAT fault, whatever else is in it (log entry 27). -/
theorem headerFault_offBoundary {x : LayerSlot} (h : leAt x.header 0x14 4 % 2000 ≠ 0) (d : Dev) (job layer : Nat) :
    d.headerFault x job layer = some 0x31 := by
  have hrules (addr : Nat) : headerRules x addr = false := by simp [headerRules, h]
  simp [Dev.headerFault, hrules]

theorem keyResume_idle {d : Dev} (h : d.sec.waiting = none) : keyResume d = d := by
  simp [keyResume, h]

/-- The rejection of a file without the answer to the host, for a fault shown as FORMAT: its slot FAILED, its fault
detected. -/
def fileFailed (i : Slot) (code : Nat) (d : Dev) : Dev :=
  let d := failSlot i d
  faultEvent code sevInfo i.val 97
    ((d.setReg (slotStatus i) (putBits (d.reg (slotStatus i)) 15 8 code)).put TRD_STATUS_FORMAT 1)

theorem fileFailed_sec (i : Slot) {code : Nat} (hc : code < 256) (d : Dev) : (fileFailed i code d).sec = d.sec := by
  unfold fileFailed
  extract_lets u
  rw [(faultEvent_within code sevInfo i.val 97 _ hc (by decide)).frame.2 .sec rfl]
  exact (failSlot_within i d).frame.2 .sec rfl

/-- While no key command waits, a file with another fault than those of its tag and its NONCE is answered and no more. -/
theorem rejectFile_format {i : Slot} {code : Nat} {d : Dev} (hc : code < 256) (htag : code ≠ 0x30) (hnonce : code ≠ 0x32)
    (h : d.sec.waiting = none) : rejectFile i code d =
      layerAck (vat d.trd.slots i).jobId (vat d.trd.slots i).layerNo 0 2 code (fileFailed i code d) := by
  have hidle : (layerAck (vat d.trd.slots i).jobId (vat d.trd.slots i).layerNo 0 2 code
      (fileFailed i code d)).sec.waiting = none := by
    rw [(layerAck_within _ _ _ _ _ _).frame.2 .sec rfl, fileFailed_sec i hc, h]
  refine Eq.trans ?_ (keyResume_idle hidle)
  unfold rejectFile fileFailed
  dsimp only
  split
  · exact absurd rfl htag
  · exact absurd rfl hnonce
  · rfl

/-- A FAILED slot holds no start time; the others are as they were. -/
theorem fileFailed_trd (i : Slot) {code : Nat} (hc : code < 256) (d : Dev) : (fileFailed i code d).trd =
    (d.slotMod i fun x => { x with start := none, missed := false, cipher := [] }).trd :=
  (faultEvent_within code sevInfo i.val 97 _ hc (by decide)).frame.2 .trd rfl

theorem fileFailed_slotState (i : Slot) {code : Nat} (hc : code < 256) (d : Dev) : (fileFailed i code d).slotState i = 6 := by
  have hfault (u : Dev) : (faultEvent code sevInfo i.val 97 u).slotState i = u.slotState i :=
    slotState_congr (reg_faultEvent _ _ _ _ _ _ hc (by decide) (faultReg_block (by rw [slotStatus_block]; decide)))
  have hflag (u : Dev) : (u.put TRD_STATUS_FORMAT 1).slotState i = u.slotState i :=
    slotState_congr (reg_put_ne _ _ _ (slotStatus_ne i (by decide)))
  have hcode (u : Dev) : (u.setReg (slotStatus i) (putBits (u.reg (slotStatus i)) 15 8 code)).slotState i = u.slotState i := by
    simp only [Dev.slotState, reg_setReg_same]
    rw [bits_mod_word _ _ _ (by decide), bits_putBits_ne _ _ _ _ _ _ (by decide) (by decide)]
  rw [fileFailed, hfault, hflag, hcode]
  exact slotState_setSlotState i (by decide) _

theorem fileFailed_detects (i : Slot) {code : Nat} (hc : code < 256) (hdrop : code ≠ 0x88) (d : Dev) :
    d.detects code i.val (fileFailed i code d) := by
  have hslot : (failSlot i d).reg (EVT_FLT_COUNT code) = d.reg (EVT_FLT_COUNT code) :=
    (failSlot_within i d).frame.1 _ (by simp [EVT_FLT_COUNT]; omega)
  refine detects_of_reg ?_ (faultEvent_detects sevInfo _ hc hdrop (by omega) (by decide))
  have hne {a : Nat} (ha : 0x28800 ≤ a) : EVT_FLT_COUNT code ≠ a := by simp only [EVT_FLT_COUNT]; omega
  rw [reg_put_ne _ _ _ (hne (by decide)), reg_setReg_ne _ _ (hne ?_), hslot]
  simp only [slotStatus, TRD_SLOT0_STATUS]
  omega

theorem fileFailed_calm (i : Slot) {code : Nat} (hc : code < 256) {d : Dev} (h : d.calm) : (fileFailed i code d).calm := by
  refine calm_faultEvent (calm_put (calm_setReg ((failSlot_within i d).calm h) _ _ ?_) _ _ (by decide)) _ _ _ _ hc (by decide)
  fin_cases i <;> decide

/-- The first slot that meets a condition. -/
theorem find?_finRange_first {n : Nat} {q : Fin n → Bool} {i : Fin n} (h : q i = true) (hlow : ∀ j < i, q j = false) :
    (List.finRange n).find? q = some i := by
  rw [← Fin.find?_eq_find?_finRange, Fin.find?_eq_some_iff]
  exact ⟨h, hlow⟩

/-- A frame at offset 0, with a whole header, of a layer that no slot receives opens the first EMPTY slot. -/
theorem layerData_opens {m : List Byte} {i : Slot} {d : Dev} (hoff : leAt m 12 4 = 0) (hlen : 128 ≤ (m.drop 16).length)
    (hnew : ∀ j : Slot, ¬ (d.slotState j = 1 ∧ (vat d.trd.slots j).jobId = leAt m 4 4 ∧
      (vat d.trd.slots j).layerNo = leAt m 8 4))
    (hfree : d.slotState i = 0) (hlow : ∀ j : Slot, j < i → d.slotState j ≠ 0) :
    layerData m d = openSlot i (leAt m 4 4) (leAt m 8 4) (m.drop 16) d := by
  have hmine : (List.finRange 3).find? (fun (j : Slot) => d.slotState j == 1 && (vat d.trd.slots j).jobId == leAt m 4 4 &&
      (vat d.trd.slots j).layerNo == leAt m 8 4) = none := by
    rw [List.find?_eq_none]
    intro j _
    simpa [and_assoc] using hnew j
  have hempty : (List.finRange 3).find? (fun (j : Slot) => d.slotState j == 0) = some i :=
    find?_finRange_first (by simp [hfree]) (fun j hj => by simp [hlow j hj])
  simp only [layerData, hmine, hempty, hoff, ne_eq, not_true_eq_false, decide_false, Bool.false_or, Nat.not_lt.2 hlen,
    Bool.false_eq_true, ↓reduceIte]

/-- The slot record that an opening file starts. -/
def openedRecord (data : List Byte) : LayerSlot :=
  { LayerSlot.reset with jobId := leAt (data.take 128) 8 4, layerNo := leAt (data.take 128) 0xC 4, header := data.take 128 }

/-- The opening file is rejected: its slot FAILED, its fault detected, the host told. -/
def openRejected (i : Slot) (data : List Byte) (d : Dev) : Dev :=
  let d := d.slotMod i fun _ => openedRecord data
  layerAck (vat d.trd.slots i).jobId (vat d.trd.slots i).layerNo 0 2 0x31 (fileFailed i 0x31 d)

theorem openSlot_offBoundary {i : Slot} {job layer : Nat} {data : List Byte} {d : Dev} (h : d.sec.waiting = none)
    (ht : leAt data 0x14 4 % 2000 ≠ 0) : openSlot i job layer data d = openRejected i data d := by
  have hfault (u : Dev) : u.headerFault (openedRecord data) job layer = some 0x31 :=
    headerFault_offBoundary (by rwa [openedRecord, leAt_take data (by decide)]) u job layer
  have hreject : openSlot i job layer data d = rejectFile i 0x31 (d.slotMod i fun _ => openedRecord data) := by
    unfold openSlot
    extract_lets h src x u
    have hx : u.headerFault x job layer = some 0x31 := hfault u
    rw [hx]
    rfl
  have hsec : (d.slotMod i fun _ => openedRecord data).sec.waiting = none := h
  rw [hreject, rejectFile_format (by decide) (by decide) (by decide) hsec, openRejected]

section
variable (i : Slot) (data : List Byte) (d : Dev)

theorem openRejected_reg (a : Nat) : (openRejected i data d).reg a =
    (fileFailed i 0x31 (d.slotMod i fun _ => openedRecord data)).reg a :=
  (layerAck_within _ _ _ _ _ _).frame.1 a rfl

theorem openRejected_slotState : (openRejected i data d).slotState i = 6 :=
  (slotState_congr (openRejected_reg i data d _)).trans (fileFailed_slotState i (by decide) _)

theorem openRejected_trd : (openRejected i data d).trd =
    ((d.slotMod i fun _ => openedRecord data).slotMod i fun x => { x with start := none, missed := false, cipher := [] }).trd :=
  ((layerAck_within _ _ _ _ _ _).frame.2 .trd rfl).trans (fileFailed_trd i (by decide) _)

theorem openRejected_detects : d.detects 0x31 i.val (openRejected i data d) := by
  have h := fileFailed_detects i (code := 0x31) (by decide) (by decide) (d.slotMod i fun _ => openedRecord data)
  simp only [Dev.detects, openRejected_reg]
  exact h

theorem openRejected_pends : (openRejected i data d).pends 97 := by
  rw [Dev.pends, openRejected_reg]
  exact (faultEvent_spec 0x31 sevInfo i.val 97 _ (by decide) (by decide)).2

theorem openRejected_calm (h : d.calm) : (openRejected i data d).calm :=
  (layerAck_within _ _ _ _ _ _).calm (fileFailed_calm i (by decide) ((slotMod_within i _ d).calm h))

end

/-- Settles O47: a time off a period boundary is refused by the check of R68, or by the rules of the header; a time in
force has passed that check. -/
theorem startTimes : Obligations.StartTimes := by
  unfold Obligations.StartTimes
  intro p f rest i s hrun hc hkey hq hk hen hst
  have hcalm := takeFrame_calm p hc
  refine ⟨?refused, ?accepted, ?resume, ?header⟩
  case refused =>
    intro htype hslot htime
    have hdo := jobFrame_head hq hk hen hst (want := (· == 0x11)) (by simp [htype]) layerSchedule
    have hcases := layerSchedule_offBoundary ((takeFrame_layerSlot p s.dev _ _).trans hslot) htime
    have hregs : (schedRefused i.val (takeFrame p s.dev)).regsOnly [TRD_STATE] (layerSchedule f.payload (takeFrame p s.dev)) := by
      rcases hcases with h | h <;> rw [h]
      · exact regsOnly_refl _ _
      · exact bedShow_regsOnly _
    obtain ⟨hdetect, hon, hpend, hrest⟩ := schedRefused_regsOnly_spec (by omega) hregs
    obtain ⟨htrd, hall⟩ := withFault_takeFrame hq hrest
    refine ⟨_, actIn_of_eq hrun hdo ((layerSchedule_within _ _).calm hcalm).1, htrd, slotArmed_congr ?_ htrd,
      detects_takeFrame hq (by decide) (by decide) hdetect, hon, hpend, hall⟩
    refine (hrest.2 _ ?_ (faultReg_block (by rw [slotStatus_block]; decide))).trans (takeFrame_slotStatus p _ i)
    simp only [List.mem_cons, List.not_mem_nil, or_false, not_or]
    exact ⟨slotStatus_ne i (by decide), slotStatus_ne i (by decide)⟩
  case accepted =>
    intro htype hslot
    have hdo := jobFrame_head hq hk hen hst (want := (· == 0x11)) (by simp [htype]) layerSchedule
    have hstart := layerSchedule_start ((takeFrame_layerSlot p s.dev _ _).trans hslot)
    rw [takeFrame_trd] at hstart
    exact ⟨_, actIn_of_eq hrun hdo ((layerSchedule_within _ _).calm hcalm).1, hstart⟩
  case resume =>
    intro htype hpaused hresume htime
    have hpaused' : (takeFrame p s.dev).trdState = tPaused := (takeFrame_get p _ _ (by decide)).trans hpaused
    have hrefuse : trdResume (leAt f.payload 8 8, leAt f.payload 4 4) (takeFrame p s.dev) =
        schedRefused 0xFF (takeFrame p s.dev) := by
      have hno : (takeFrame p s.dev).timeOk (leAt f.payload 8 8, leAt f.payload 4 4) = false := timeOk_of_offBoundary htime _
      simp [trdResume, hpaused', hresume, hno]
    have hdo : resumeCommand (some p) s.dev = schedRefused 0xFF (takeFrame p s.dev) :=
      (jobFrame_head hq hk hen hst (want := (· == 0x13)) (by simp [htype])
        (fun m => trdResume (leAt m 8 8, leAt m 4 4))).trans hrefuse
    obtain ⟨hdetect, hon, hpend, hrest⟩ := schedRefused_spec 0xFF (by decide) (takeFrame p s.dev)
    obtain ⟨htrd, hall⟩ := withFault_takeFrame hq hrest
    refine ⟨_, actIn_of_eq hrun hdo ((schedRefused_within _ _).calm hcalm).1, htrd, ?_,
      detects_takeFrame hq (by decide) (by decide) hdetect, hon, hpend, hall⟩
    rw [← hpaused', Dev.trdState, Dev.trdState, Dev.get, Dev.get, hrest.2 _ (by decide) (by decide)]
  case header =>
    intro htype htime hlen hoff hnew hfree hlow
    have hopen : layerData f.payload (takeFrame p s.dev) = openRejected i (f.payload.drop 16) (takeFrame p s.dev) :=
      (layerData_opens hoff hlen (by simpa using hnew) (by simpa using hfree) (by simpa using hlow)).trans
        (openSlot_offBoundary (by simpa using hkey) htime)
    have hdo := (jobFrame_head hq hk hen hst (want := (· == 0x10)) (by simp [htype]) layerData).trans hopen
    have htrd := openRejected_trd i (f.payload.drop 16) (takeFrame p s.dev)
    have hstate := openRejected_slotState i (f.payload.drop 16) (takeFrame p s.dev)
    refine ⟨_, actIn_of_eq hrun hdo (openRejected_calm _ _ _ hcalm).1, hstate, by simp [Dev.slotArmed, hstate], ?_, ?_,
      detects_takeFrame hq (by decide) (by decide) (openRejected_detects _ _ _), openRejected_pends _ _ _⟩
    · simp [htrd, Dev.slotMod, Dev.trdMod]
    · intro j hj
      simp [htrd, Dev.slotMod, Dev.trdMod, vat_vmod_ne _ _ hj]

end Sys2Proof.Machine

/-!
PROOFS of the commands of the Shed, of the layer files and of the layer cycle. First the rules that the three share: what
keeps a pending bit, what a command may add to the queues of the chain, and what a change of the Treadle's state and of
a slot does.
-/
namespace Sys2Proof.Machine

open Reg

/-! ### Pending bits (R629) -/

/-- Every event that is pending in `d` is pending in `t`. -/
def Dev.keepsPending (d t : Dev) : Prop := ∀ e, e < 256 → d.pends e → t.pends e

section
variable {d t u : Dev}

theorem keepsPending_refl (d : Dev) : d.keepsPending d := fun _ _ h => h

theorem keepsPending_trans (h : d.keepsPending t) (k : t.keepsPending u) : d.keepsPending u :=
  fun e he hp => k e he (h e he hp)

theorem keepsPending_ite (c : Prop) [Decidable c] (h : d.keepsPending t) (k : d.keepsPending u) :
    d.keepsPending (if c then t else u) := by
  split
  · exact h
  · exact k

theorem keepsPending_foldl {α : Type} (g : Dev → α → Dev) (hg : ∀ (v : Dev) x, v.keepsPending (g v x)) (l : List α) (d : Dev) :
    d.keepsPending (l.foldl g d) := by
  induction l generalizing d with
  | nil => exact keepsPending_refl d
  | cons x l ih => exact keepsPending_trans (hg d x) (ih _)

theorem EventOnly.keepsPending (h : EventOnly d t) : d.keepsPending t := fun e he hp => h.pend (e / 32) (by omega) _ hp

theorem FaultOnly.keepsPending (h : FaultOnly d t) : d.keepsPending t := fun e he hp => h.pend (e / 32) (by omega) _ hp

/-- The pending words lie in block 2. -/
theorem within_keepsPending {P : List Part} {B : List Nat} (h : d.within P B t) (h2 : B.contains 2 = false) :
    d.keepsPending t := by
  intro e he hp
  have hb : EVT_PEND (e / 32) / 0x10000 = 2 := by simp only [EVT_PEND]; omega
  rwa [Dev.pends, h.frame.1 _ (by rw [hb]; exact h2)]

end

/-! ### Effects under the same change of a part -/

/-- The same chain on both sides changes nothing in what an occurrence is said to touch. -/
theorem EventOnly.withChain {d t : Dev} (h : EventOnly d t) (x : Chain) :
    EventOnly { d with chain := x } { t with chain := x } :=
  ⟨by rw [h.rest], h.regs, h.quiet, h.pend, h.wf⟩

theorem EventOnly.part {d t : Dev} (h : EventOnly d t) (p : Part) (hp : p ≠ .ev) (hw : p ≠ .wal) : p.same d t :=
  h.within.frame.2 p (by simp [hp, hw])

/-! ### What a command adds to the queues of the chain (R480) -/

/-- Every port of `t` holds the received frames of `d`, and behind the own frames of `d` perhaps more. -/
def Dev.sends (d t : Dev) : Prop :=
  ∀ q : Port, (t.cport q).rxQ = (d.cport q).rxQ ∧ (d.cport q).ownQ <+: (t.cport q).ownQ

section
variable {d t u : Dev}

theorem sends_of_chain (h : t.chain = d.chain) : d.sends t := by
  intro q
  rw [cport_of_chain h]
  exact ⟨rfl, List.prefix_rfl⟩

theorem sends_trans (h : d.sends t) (k : t.sends u) : d.sends u :=
  fun q => ⟨(k q).1.trans (h q).1, (h q).2.trans (k q).2⟩

theorem sends_foldl {α : Type} (g : Dev → α → Dev) (hg : ∀ (v : Dev) x, v.sends (g v x)) (l : List α) (d : Dev) :
    d.sends (l.foldl g d) := by
  induction l generalizing d with
  | nil => exact sends_of_chain rfl
  | cons x l ih => exact sends_trans (hg d x) (ih _)

theorem sends_within {P : List Part} {B : List Nat} (h : d.within P B t) (hp : P.contains .chain = false) : d.sends t :=
  sends_of_chain (h.frame.2 .chain hp)

end

theorem queueOwn_sends (p : Port) (f : Frame) (d : Dev) : d.sends (queueOwn p f d) := by
  intro q
  refine ⟨cport_portMod_of (·.rxQ) (fun _ => by rfl) p q d, ?_⟩
  by_cases h : q = p
  · subst h
    rw [queueOwn, cport_portMod_same]
    exact List.prefix_append _ _
  · have hne : (queueOwn p f d).cport q = d.cport q := vat_vmod_ne _ _ h
    rw [hne]

theorem sendJob_sends (typ : Nat) (fields : List Byte) (done : Export) (d : Dev) : d.sends (sendJob typ fields done d) :=
  sends_trans (fun _ => ⟨rfl, List.prefix_rfl⟩) (queueOwn_sends _ _ _)

theorem mem_queueOwn (p : Port) (f : Frame) (d : Dev) : f ∈ ((queueOwn p f d).cport p).ownQ := by
  rw [queueOwn, cport_portMod_same]
  exact List.mem_append_right _ (List.mem_singleton_self f)

/-- A job message stands among the upstream port's own frames (R82). -/
theorem sendJob_queued (typ : Nat) (fields : List Byte) (done : Export) (d : Dev) :
    ∃ f ∈ ((sendJob typ fields done d).cport d.upstream).ownQ, f.kind = 2 ∧
      f.payload = leBytes 1 typ ++ leBytes 1 d.chain.msgSeq ++ leBytes 2 0 ++ fields :=
  ⟨⟨.own, 2, 0, d.srcAddr, 0, d.chain.seqNo, leBytes 1 typ ++ leBytes 1 d.chain.msgSeq ++ leBytes 2 0 ++ fields, done⟩,
    mem_queueOwn d.upstream _ _, rfl, rfl⟩

theorem layerAck_sends (job layer next status code : Nat) (d : Dev) : d.sends (layerAck job layer next status code d) :=
  sendJob_sends _ _ _ d

theorem stateMessage_sends (d : Dev) : d.sends (stateMessage d) := sendJob_sends _ _ _ d

/-! ### The Treadle's state changes (R65) -/

/-- The registers of the Treadle that a change to state `st` shows. -/
def trdShown (st : Nat) (d : Dev) : Dev :=
  let u := d.put TRD_STATE_STATE st
  let u := if st = tPaused || st = tBed then u else (u.put TRD_STATE_WAIT_START 0).put TRD_STATE_WAIT_SCHED 0
  if st = tScan then u else (u.setReg TRD_TICK_LO 0).setReg TRD_TICK_HI 0

/-- What the change to state `st` tells: the log record, the STATE message and, for a state begun, the event. -/
def trdTold (st : Nat) (ev : Bool) (d : Dev) : Dev :=
  let u := stage (d.logRec 3 (d.reg TRD_STATE) [d.reg TRD_LAYER, d.reg TRD_PAUSE_TICK_LO, d.reg TRD_PAUSE_TICK_HI % 256]
    false) d
  if ev then stateEvent st (stateMessage u) else stateMessage u

/-- A change of state commits nothing: no RWS write waits, or the state commits none (R584). -/
def Dev.commitsNone (st : Nat) (d : Dev) : Prop := d.shadow = [] ∨ st ≠ tArmed ∧ st ≠ tPrep

theorem trdShown_regsOnly (st : Nat) (d : Dev) : d.regsOnly [TRD_STATE, TRD_TICK_LO, TRD_TICK_HI] (trdShown st d) := by
  unfold trdShown
  extract_lets u v
  have hu : d.regsOnly [TRD_STATE] u := regsOnly_put d TRD_STATE_STATE st
  have hv : d.regsOnly [TRD_STATE] v := by
    simp only [v]
    split
    · exact hu
    · exact regsOnly_mono (regsOnly_trans hu (regsOnly_trans (regsOnly_put u TRD_STATE_WAIT_START 0)
        (regsOnly_put _ TRD_STATE_WAIT_SCHED 0))) (by simp)
  split
  · exact regsOnly_mono hv (by simp)
  · exact regsOnly_trans hv (regsOnly_trans (regsOnly_setReg v TRD_TICK_LO 0) (regsOnly_setReg _ TRD_TICK_HI 0))

/-- Of the fields of TRD_STATE a change to state `st` sets STATE and clears the two waits. -/
theorem trdShown_get (st : Nat) (d : Dev) (g : Field) (ha : g.addr = TRD_STATE) (h32 : g.hi < 32)
    (hs : g.hi < 8 ∨ 9 < g.lo) : (trdShown st d).get g = (d.put TRD_STATE_STATE st).get g := by
  have hwait (u : Dev) : ((u.put TRD_STATE_WAIT_START 0).put TRD_STATE_WAIT_SCHED 0).get g = u.get g := by
    rw [get_put_ne _ _ _ _ (by decide) h32 (.inr (by simp only; omega)),
      get_put_ne _ _ _ _ (by decide) h32 (.inr (by simp only; omega))]
  unfold trdShown
  extract_lets u v
  have hv : v.get g = u.get g := by
    simp only [v]
    split
    · rfl
    · exact hwait u
  split
  · exact hv
  · rw [get_setReg_ne _ _ _ _ (by rw [ha]; decide), get_setReg_ne _ _ _ _ (by rw [ha]; decide), hv]

theorem trdShown_trdState {st : Nat} (h : st < 16) (d : Dev) : (trdShown st d).trdState = st := by
  rw [Dev.trdState, trdShown_get st d _ rfl (by decide) (.inl (by decide)), get_put_same d _ _ (by decide) (by decide)]
  exact Nat.mod_eq_of_lt h

theorem stateEvent_eventOnly (st : Nat) (d : Dev) : EventOnly d (stateEvent st d) := by
  unfold stateEvent
  split
  · exact occur_eventOnly 99 _ _ d (by decide)
  · exact occur_eventOnly 100 _ _ d (by decide)
  · exact occur_eventOnly 102 _ _ d (by decide)
  · exact occur_eventOnly 104 _ _ d (by decide)
  · exact EventOnly.refl d

theorem trdTold_eventOnly (st : Nat) (ev : Bool) (d : Dev) :
    EventOnly { d with chain := (trdTold st ev d).chain } (trdTold st ev d) := by
  unfold trdTold
  extract_lets u
  have hu : EventOnly { d with chain := (stateMessage u).chain } (stateMessage u) :=
    (stage_eventOnly _ d).withChain (stateMessage u).chain
  cases ev with
  | false => exact hu
  | true =>
    have he := stateEvent_eventOnly st (stateMessage u)
    rw [if_pos rfl, show (stateEvent st (stateMessage u)).chain = (stateMessage u).chain from
      he.part .chain (by decide) (by decide)]
    exact hu.trans he

theorem trdTold_sends (st : Nat) (ev : Bool) (d : Dev) : d.sends (trdTold st ev d) := by
  unfold trdTold
  extract_lets u
  have hu : d.sends (stateMessage u) :=
    sends_trans (sends_of_chain ((stage_eventOnly _ d).part .chain (by decide) (by decide))) (stateMessage_sends u)
  cases ev with
  | false => exact hu
  | true => exact sends_trans hu (sends_of_chain ((stateEvent_eventOnly st _).part .chain (by decide) (by decide)))

section
variable {st : Nat} {ev : Bool} {d : Dev}

theorem trdEnter_eq (h : d.commitsNone st) : trdEnter st ev d = trdTold st ev (trdShown st d) := by
  unfold trdEnter
  extract_lets u1 u2 u3 u4 u5 u6 u7
  have h3 : u3 = trdShown st d := rfl
  have hcommit : u5 = u3 := by
    rcases h with h | ⟨harm, hprep⟩
    · have hs : u3.shadow = [] := by rw [h3, (trdShown_regsOnly st d).1]; exact h
      have h4 : u4 = u3 := by simp only [u4, commit_nil hs, ite_self]
      simp only [u5, h4, commit_nil hs, ite_self]
    · simp only [u5, u4, if_neg hprep, decide_eq_false harm, decide_eq_false hprep, Bool.or_self, Bool.false_eq_true,
        if_false]
  simp only [trdTold, u7, u6, hcommit, h3]

theorem trdEnter_eventOnly (h : d.commitsNone st) :
    EventOnly { trdShown st d with chain := (trdEnter st ev d).chain } (trdEnter st ev d) := by
  rw [trdEnter_eq h]
  exact trdTold_eventOnly st ev _

theorem trdEnter_sends (h : d.commitsNone st) : d.sends (trdEnter st ev d) := by
  rw [trdEnter_eq h]
  exact sends_trans (sends_of_chain (by rw [(trdShown_regsOnly st d).1])) (trdTold_sends st ev _)

/-- A change of state that commits nothing sets three registers of the Treadle. -/
theorem trdEnter_reg (h : d.commitsNone st) {a : Nat} (ha : a ∉ [TRD_STATE, TRD_TICK_LO, TRD_TICK_HI])
    (he : eventReg a = false) : (trdEnter st ev d).reg a = d.reg a :=
  ((trdEnter_eventOnly h).regs a he).trans ((trdShown_regsOnly st d).2 a ha)

theorem trdEnter_trdState (h : d.commitsNone st) (hst : st < 16) : (trdEnter st ev d).trdState = st := by
  rw [Dev.trdState, Dev.get, (trdEnter_eventOnly h).regs _ (by decide)]
  exact trdShown_trdState hst d

/-- The state to return to and the active slot stay. -/
theorem trdEnter_get (h : d.commitsNone st) (g : Field) (ha : g.addr = TRD_STATE) (h32 : g.hi < 32)
    (hs : 3 < g.lo ∧ g.hi < 8 ∨ 9 < g.lo) : (trdEnter st ev d).get g = d.get g := by
  rw [Dev.get, (trdEnter_eventOnly h).regs _ (by rw [ha]; decide)]
  refine (trdShown_get st d g ha h32 (by omega)).trans ?_
  rw [get_put_ne d _ _ _ (by decide) h32 (.inr (.inr (by simp only; omega)))]

theorem trdEnter_steady (h : d.commitsNone st) : d.within [.ev, .wal, .chain] [2, 18, 20] (trdEnter st ev d) := by
  have hshown : d.within [] [20] (trdShown st d) := by
    unfold trdShown
    extract_lets u v
    have hu : d.within [] [20] u := put_within d _ _ 20 (by decide) (.inl (by decide))
    have hv : d.within [] [20] v := within_ite hu (within_comp (put_within _ _ _ 20 (by decide) (.inl (by decide)))
      (within_comp (put_within _ _ _ 20 (by decide) (.inl (by decide))) hu rfl rfl) rfl rfl)
    exact within_ite hv (within_comp (setReg_within _ _ _ 20 (by decide) (.inl (by decide)))
      (within_comp (setReg_within _ _ _ 20 (by decide) (.inl (by decide))) hv rfl rfl) rfl rfl)
  have hchain : (trdShown st d).within [.chain] [] { trdShown st d with chain := (trdEnter st ev d).chain } :=
    toChain_within _ _
  exact within_comp (trdEnter_eventOnly h).within (within_comp hchain (within_mono hshown rfl rfl) rfl rfl) rfl rfl

theorem trdEnter_keepsPending (h : d.commitsNone st) : d.keepsPending (trdEnter st ev d) := by
  have hshown : d.keepsPending { trdShown st d with chain := (trdEnter st ev d).chain } := by
    intro e he hp
    rw [Dev.pends]
    refine ((trdShown_regsOnly st d).2 _ ?_).symm ▸ hp
    simp only [EVT_PEND, List.mem_cons, List.not_mem_nil, or_false, TRD_STATE, TRD_TICK_LO, TRD_TICK_HI]
    omega
  exact keepsPending_trans hshown (trdEnter_eventOnly h).keepsPending

/-- The event of a state begun is pending (R86). -/
theorem trdEnter_pends (h : d.commitsNone st) {e : Nat} (he : e < 256)
    (hev : ∀ u : Dev, stateEvent st u = occur e 0xFF 0 u) : (trdEnter st true d).pends e := by
  rw [trdEnter_eq h, trdTold, if_pos rfl, hev]
  exact occur_pends _ _ _ _ he

end

theorem trdEnter_trd {st : Nat} {ev : Bool} {d : Dev} : (trdEnter st ev d).trd = d.trd :=
  (trdEnter_within st ev d).frame.2 .trd rfl

/-! ### Slots (R66) -/

theorem faultReg_slotStatus (i : Slot) : faultReg (slotStatus i) = false :=
  faultReg_block (by rw [slotStatus_block]; decide)

theorem eventReg_slotStatus (i : Slot) : eventReg (slotStatus i) = false := eventReg_of_faultReg (faultReg_slotStatus i)

theorem slotStatus_ne_slot {i j : Slot} (h : j ≠ i) : slotStatus j ≠ slotStatus i := by
  have hv := Fin.val_ne_of_ne h
  simp only [slotStatus]
  omega

theorem slotState_lt (d : Dev) (i : Slot) : d.slotState i < 8 := Nat.mod_lt _ (by decide)

theorem setSlotState_regsOnly (i : Slot) (st : Nat) (d : Dev) : d.regsOnly [slotStatus i] (setSlotState i st d) :=
  regsOnly_setReg d _ _

theorem slotState_setSlotState_ne {i j : Slot} (h : j ≠ i) (st : Nat) (d : Dev) :
    (setSlotState i st d).slotState j = d.slotState j :=
  slotState_congr (reg_setReg_ne d _ (slotStatus_ne_slot h))

/-- Showing a slot's own state again changes no state. -/
theorem slotState_setSlotState_self (i j : Slot) (d : Dev) :
    (setSlotState i (d.slotState i) d).slotState j = d.slotState j := by
  by_cases h : j = i
  · rw [h, slotState_setSlotState i (slotState_lt d i)]
  · exact slotState_setSlotState_ne h _ d

/-- Registers of another block than the Treadle's say nothing of a slot. -/
theorem slotState_within {P : List Part} {B : List Nat} {d t : Dev} (h : d.within P B t) (hb : B.contains 20 = false)
    (i : Slot) : t.slotState i = d.slotState i :=
  slotState_congr (h.frame.1 _ (by rw [slotStatus_block]; exact hb))

theorem vmod_self {α : Type} {n : Nat} (v : Vector α n) (i : Fin n) {f : α → α} (h : f (vat v i) = vat v i) :
    vmod v i f = v := by
  ext j hj
  simp only [vmod, vput, Vector.getElem_set, h]
  split
  · next hij => subst hij; rfl
  · rfl

theorem slotMod_trd_self (i : Slot) {f : LayerSlot → LayerSlot} {d : Dev} (h : f (vat d.trd.slots i) = vat d.trd.slots i) :
    (d.slotMod i f).trd = d.trd := by
  simp only [Dev.slotMod, Dev.trdMod, vmod_self d.trd.slots i h]

@[simp] theorem slotMod_slot_same (i : Slot) (f : LayerSlot → LayerSlot) (d : Dev) :
    vat (d.slotMod i f).trd.slots i = f (vat d.trd.slots i) := vat_vmod_same _ _ _

theorem slotMod_slot_ne {i j : Slot} (h : j ≠ i) (f : LayerSlot → LayerSlot) (d : Dev) :
    vat (d.slotMod i f).trd.slots j = vat d.trd.slots j := vat_vmod_ne _ _ h

/-! ### Start times (R68) -/

theorem setStart_regsOnly (i : Slot) (t : Option StartTime) (d : Dev) :
    Dev.regsOnly [slotStatus i, TRD_START_NS, TRD_START_SEC_LO, TRD_START_SEC_HI]
      { d with trd := (setStart i t d).trd } (setStart i t d) := by
  rw [setStart_trd]
  unfold setStart
  extract_lets u v
  have hv : Dev.regsOnly [slotStatus i] { d with trd := (d.slotMod i fun x => { x with start := t }).trd } v :=
    setSlotState_regsOnly i _ u
  split
  · exact regsOnly_trans hv (regsOnly_trans (regsOnly_setReg v TRD_START_NS _)
      (regsOnly_trans (regsOnly_setReg _ TRD_START_SEC_LO _) (regsOnly_setReg _ TRD_START_SEC_HI _)))
  · exact regsOnly_mono hv (by simp)

theorem setStart_slotState (i j : Slot) (t : Option StartTime) (d : Dev) :
    (setStart i t d).slotState j = d.slotState j := by
  unfold setStart
  extract_lets u v
  have hv : v.slotState j = d.slotState j := slotState_setSlotState_self i j u
  split
  · refine (slotState_congr ?_).trans hv
    have hne {a : Nat} (ha : TRD_SLOT0_STATUS + 12 ≤ a) : slotStatus j ≠ a := slotStatus_ne j (.inr ha)
    rw [reg_setReg_ne _ _ (hne (by decide)), reg_setReg_ne _ _ (hne (by decide)), reg_setReg_ne _ _ (hne (by decide))]
  · exact hv

/-- A start time that is set touches the Treadle alone. -/
theorem setStart_own (i : Slot) (t : Option StartTime) (d : Dev) : d.within [.trd] [20] (setStart i t d) := by
  unfold setStart
  extract_lets u v
  have hv : d.within [.trd] [20] v :=
    within_comp (setSlotState_within i _ u) (within_mono (slotMod_within i _ d) rfl rfl) rfl rfl
  have hset {w : Dev} {a x : Nat} (h : d.within [.trd] [20] w) (ha : a / 0x10000 = 20) :
      d.within [.trd] [20] (w.setReg a x) :=
    within_comp (setReg_within w a x 20 ha (.inl (by decide))) h rfl rfl
  exact within_ite (hset (hset (hset hv rfl) rfl) rfl) hv

/-- IDLE is left for ARMED, or nothing changes (R64). -/
theorem trdArm_cases (d : Dev) : trdArm d = d ∨ trdArm d = trdEnter tArmed true d := by
  unfold trdArm
  exact (ite_eq_or_eq _ _ _).symm

section
variable {d : Dev} (hs : d.shadow = [])
include hs

theorem trdArm_steady : d.within [.ev, .wal, .chain] [2, 18, 20] (trdArm d) := by
  rcases trdArm_cases d with h | h <;> rw [h]
  · exact within_refl _ _ d
  · exact trdEnter_steady (.inl hs)

theorem trdArm_sends : d.sends (trdArm d) := by
  rcases trdArm_cases d with h | h <;> rw [h]
  · exact sends_of_chain rfl
  · exact trdEnter_sends (.inl hs)

theorem trdArm_keepsPending : d.keepsPending (trdArm d) := by
  rcases trdArm_cases d with h | h <;> rw [h]
  · exact keepsPending_refl d
  · exact trdEnter_keepsPending (.inl hs)

/-- A change of state touches no slot. -/
theorem trdArm_slotState (i : Slot) : (trdArm d).slotState i = d.slotState i := by
  rcases trdArm_cases d with h | h <;> rw [h]
  refine slotState_congr (trdEnter_reg (.inl hs) ?_ (eventReg_slotStatus i))
  simp only [List.mem_cons, List.not_mem_nil, or_false, not_or]
  exact ⟨slotStatus_ne i (by decide), slotStatus_ne i (by decide), slotStatus_ne i (by decide)⟩

end

/-- The event of a layer that becomes armed (R86). -/
theorem armed_eventOnly (i : Slot) (d : Dev) : EventOnly d (if d.slotArmed i then occur 98 i.val 0 d else d) := by
  split
  · exact occur_eventOnly 98 _ _ d (by decide)
  · exact EventOnly.refl d

section
variable {d : Dev} (hs : d.shadow = []) (i : Slot)
include hs

theorem armed_shadow : (if d.slotArmed i then occur 98 i.val 0 d else d).shadow = [] :=
  ((armed_eventOnly i d).part .shadow (by decide) (by decide)).trans hs

theorem armedEvent_steady : d.within [.ev, .wal, .chain] [2, 18, 20] (armedEvent i d) :=
  within_comp (trdArm_steady (armed_shadow hs i)) (within_mono (armed_eventOnly i d).within rfl rfl) rfl rfl

theorem armedEvent_sends : d.sends (armedEvent i d) :=
  sends_trans (sends_of_chain ((armed_eventOnly i d).part .chain (by decide) (by decide))) (trdArm_sends (armed_shadow hs i))

theorem armedEvent_keepsPending : d.keepsPending (armedEvent i d) :=
  keepsPending_trans (armed_eventOnly i d).keepsPending (trdArm_keepsPending (armed_shadow hs i))

theorem armedEvent_slotState (j : Slot) : (armedEvent i d).slotState j = d.slotState j :=
  (trdArm_slotState (armed_shadow hs i) j).trans (slotState_congr ((armed_eventOnly i d).regs _ (eventReg_slotStatus j)))

/-- E98 when a layer becomes armed (R86). -/
theorem armedEvent_pends (h : d.slotArmed i = true) : (armedEvent i d).pends 98 := by
  refine trdArm_keepsPending (armed_shadow hs i) 98 (by decide) ?_
  rw [if_pos h]
  exact occur_pends 98 _ _ d (by decide)

theorem armedEvent_trd : (armedEvent i d).trd = d.trd := (armedEvent_steady hs i).frame.2 .trd rfl

end

/-- The refusal of a time touches no slot. -/
theorem schedRefused_slotState (inst : Nat) (hi : inst < 256) (j : Slot) (d : Dev) :
    (schedRefused inst d).slotState j = d.slotState j := by
  obtain ⟨-, -, -, hrest⟩ := schedRefused_spec inst hi d
  exact slotState_congr (hrest.2 _ (by simpa using slotStatus_ne j (by decide)) (faultReg_slotStatus j))

/-- The start time taken by slot `i` before anything is told of it. -/
def startTaken (i : Slot) (t : StartTime) (d : Dev) : Dev :=
  setStart i (some t) (d.slotMod i fun x => { x with missed := false })

/-- A start time that is offered is refused, or taken; then the layer may have become armed. -/
theorem offerStart_cases (i : Slot) (t : StartTime) (d : Dev) :
    offerStart i t d = schedRefused i.val d ∨ offerStart i t d = startTaken i t d ∨
      offerStart i t d = armedEvent i (startTaken i t d) := by
  unfold offerStart
  split
  · exact .inl rfl
  extract_lets armed u
  split
  · exact .inr (.inl rfl)
  · exact .inr (.inr rfl)

theorem startTaken_own (i : Slot) (t : StartTime) (d : Dev) : d.within [.trd] [20] (startTaken i t d) :=
  within_comp (setStart_own i _ _) (within_mono (slotMod_within i _ d) rfl rfl) rfl rfl

theorem startTaken_trd (i : Slot) (t : StartTime) (d : Dev) :
    (startTaken i t d).trd = (d.slotMod i fun x => { x with missed := false, start := some t }).trd := by
  rw [startTaken, setStart_trd]
  simp only [Dev.slotMod, Dev.trdMod, vmod, vput, vat]
  simp

section
variable {d : Dev} (hs : d.shadow = []) (i : Slot) (t : StartTime)
include hs

theorem startTaken_shadow : (startTaken i t d).shadow = [] := ((startTaken_own i t d).frame.2 .shadow rfl).trans hs

/-- A start time that is offered touches the Treadle and what a fault or a change of state does. -/
theorem offerStart_steady : d.within [.trd, .chain, .ev, .wal, .flt, .dof, .mpl] [2, 18, 20] (offerStart i t d) := by
  rcases offerStart_cases i t d with h | h | h <;> rw [h]
  · exact within_mono (schedRefused_within _ d) rfl rfl
  · exact within_mono (startTaken_own i t d) rfl rfl
  · exact within_comp (armedEvent_steady (startTaken_shadow hs i t) i) (within_mono (startTaken_own i t d) rfl rfl) rfl rfl

theorem offerStart_sends : d.sends (offerStart i t d) := by
  rcases offerStart_cases i t d with h | h | h <;> rw [h]
  · exact sends_within (schedRefused_within _ d) rfl
  · exact sends_within (startTaken_own i t d) rfl
  · exact sends_trans (sends_within (startTaken_own i t d) rfl) (armedEvent_sends (startTaken_shadow hs i t) i)

theorem offerStart_slotState (j : Slot) : (offerStart i t d).slotState j = d.slotState j := by
  have htaken : (startTaken i t d).slotState j = d.slotState j := setStart_slotState i j _ _
  rcases offerStart_cases i t d with h | h | h <;> rw [h]
  · exact schedRefused_slotState _ (by omega) j d
  · exact htaken
  · rw [armedEvent_slotState (startTaken_shadow hs i t), htaken]

/-- Of the Treadle a start time that is offered changes the slot's start time alone, and whether one was missed. -/
theorem offerStart_trd : ∃ (y : Option StartTime) (m : Bool),
    (offerStart i t d).trd = (d.slotMod i fun x => { x with missed := m, start := y }).trd := by
  rcases offerStart_cases i t d with h | h | h <;> rw [h]
  · exact ⟨(vat d.trd.slots i).start, (vat d.trd.slots i).missed,
      ((schedRefused_within _ d).frame.2 .trd rfl).trans (slotMod_trd_self i (by rfl)).symm⟩
  · exact ⟨some t, false, startTaken_trd i t d⟩
  · exact ⟨some t, false, (armedEvent_trd (startTaken_shadow hs i t) i).trans (startTaken_trd i t d)⟩

end

end Sys2Proof.Machine

/-!
PROOFS of the layer files: what the opening of a slot, the data that follow, the end of the decryption, a cancel and the
release of a slot leave, then the statement.
-/
namespace Sys2Proof.Machine

open Reg

/-! ### Data that join a file (R83, R84) -/

/-- The slot's record with data behind what it holds; bytes past the end of the file are ignored. -/
def LayerSlot.append (x : LayerSlot) (data : List Byte) : LayerSlot :=
  let data := data.take (x.fileLen - x.next)
  { x with cipher := x.cipher ++ data, next := x.next + data.length }

section
variable (x : LayerSlot) (data : List Byte)

theorem append_jobId : (x.append data).jobId = x.jobId := rfl
theorem append_layerNo : (x.append data).layerNo = x.layerNo := rfl
theorem append_header : (x.append data).header = x.header := rfl
theorem append_start : (x.append data).start = x.start := rfl

end

theorem append_nil {x : LayerSlot} {data : List Byte} (h : (data.take (x.fileLen - x.next)).isEmpty = true) :
    x.append data = x := by
  rw [LayerSlot.append, List.isEmpty_iff.1 h]
  simp

/-- Acknowledgments change the chain alone. -/
theorem foldl_layerAck_eq (job layer : Nat) (l : List Nat) (d : Dev) :
    l.foldl (fun (t : Dev) m => layerAck job layer m 0 0 t) d =
      { d with chain := (l.foldl (fun (t : Dev) m => layerAck job layer m 0 0 t) d).chain } := by
  induction l generalizing d with
  | nil => rfl
  | cons m l ih => rw [List.foldl_cons, ih]; rfl

/-- Data that join a file change the slot's record, and the chain by the acknowledgments. -/
theorem appendData_spec (i : Slot) (data : List Byte) (d : Dev) :
    appendData i data d = { d with trd := (d.slotMod i (·.append data)).trd, chain := (appendData i data d).chain } ∧
      d.sends (appendData i data d) ∧ d.within [.trd, .chain] [] (appendData i data d) := by
  unfold appendData
  extract_lets x taken next u done marks
  split
  · next hnone =>
    rw [slotMod_trd_self i (append_nil hnone)]
    exact ⟨rfl, sends_of_chain rfl, within_refl _ _ d⟩
  · refine ⟨?eq, ?sends, ?own⟩
    case eq =>
      rw [foldl_layerAck_eq]
      have hu : u = d.slotMod i (·.append data) := by
        simp only [u, Dev.slotMod, Dev.trdMod, vmod]
        rfl
      rw [hu]
      rfl
    case sends =>
      exact sends_trans (t := u) (fun _ => ⟨rfl, List.prefix_rfl⟩) (sends_foldl _ (fun v m => layerAck_sends _ _ _ _ _ v) _ _)
    case own =>
      exact within_foldl _ _ (fun v m => within_mono (layerAck_within _ _ _ _ _ v) rfl rfl)
        (within_mono (slotMod_within i _ d) rfl rfl)

theorem appendData_job (i : Slot) (data : List Byte) (d : Dev) : (appendData i data d).trd.job = d.trd.job := by
  rw [(appendData_spec i data d).1]
  rfl

theorem appendData_slot_same (i : Slot) (data : List Byte) (d : Dev) :
    vat (appendData i data d).trd.slots i = (vat d.trd.slots i).append data := by
  rw [(appendData_spec i data d).1]
  exact slotMod_slot_same i _ d

theorem appendData_slot_ne {i j : Slot} (h : j ≠ i) (data : List Byte) (d : Dev) :
    vat (appendData i data d).trd.slots j = vat d.trd.slots j := by
  rw [(appendData_spec i data d).1]
  exact slotMod_slot_ne h _ d

/-- A frame at the offset that the receiving slot expects joins its file. -/
theorem layerData_joins {m : List Byte} {i : Slot} {d : Dev} (hstate : d.slotState i = 1)
    (hjob : (vat d.trd.slots i).jobId = leAt m 4 4) (hlayer : (vat d.trd.slots i).layerNo = leAt m 8 4)
    (hnext : (vat d.trd.slots i).next = leAt m 12 4)
    (hlow : ∀ j : Slot, j < i → ¬ (d.slotState j = 1 ∧ (vat d.trd.slots j).jobId = leAt m 4 4 ∧
      (vat d.trd.slots j).layerNo = leAt m 8 4)) :
    layerData m d = appendData i (m.drop 16) d := by
  have hmine : (List.finRange 3).find? (fun (j : Slot) => d.slotState j == 1 && (vat d.trd.slots j).jobId == leAt m 4 4 &&
      (vat d.trd.slots j).layerNo == leAt m 8 4) = some i :=
    find?_finRange_first (by simp [hstate, hjob, hlayer]) (fun j hj => by simpa [and_assoc] using hlow j hj)
  simp only [layerData, hmine, hnext, ↓reduceIte]

/-! ### A header that is accepted (R51, R55) -/

/-- The check of a header does not read the record of an EMPTY slot. -/
theorem headerFault_slotMod {i : Slot} {d : Dev} (h : d.slotState i = 0) (f : LayerSlot → LayerSlot) (x : LayerSlot)
    (job layer : Nat) : (d.slotMod i f).headerFault x job layer = d.headerFault x job layer := by
  have hrules : (d.slotMod i f).jobRules x.jobId x.layerNo = d.jobRules x.jobId x.layerNo := by
    have hslot (j : Slot) : (!d.slotCounts j || (vat (d.slotMod i f).trd.slots j).jobId ≠ x.jobId ||
        decide ((vat (d.slotMod i f).trd.slots j).layerNo < x.layerNo)) =
        (!d.slotCounts j || (vat d.trd.slots j).jobId ≠ x.jobId || decide ((vat d.trd.slots j).layerNo < x.layerNo)) := by
      by_cases hj : j = i
      · simp [hj, Dev.slotCounts, h]
      · rw [slotMod_slot_ne hj]
    have hall := congrArg (List.finRange 3).all (funext hslot)
    unfold Dev.jobRules
    dsimp only
    exact congrArg (· && _ && _) hall
  unfold Dev.headerFault
  rw [hrules]
  rfl

/-- The slot of an accepted header, before its start time is offered. -/
def headerTaken (i : Slot) (d : Dev) : Dev :=
  let x := vat d.trd.slots i
  let u := if x.jobId = d.trd.job then d
    else mapClear ((d.trdMod fun t => { t with job := x.jobId, lastActive := none }).setReg TRD_PLAT_RESID 0)
  setSlotState i 1 (u.slotMod i fun y => { y with next := 128, zones := if y.selvCount ≤ 1 then [] else u.zonesWritten })

theorem acceptHeader_eq (i : Slot) (d : Dev) : acceptHeader i d =
    if (vat d.trd.slots i).headerStart = (0, 0) then headerTaken i d
    else offerStart i (vat d.trd.slots i).headerStart (headerTaken i d) := rfl

/-- The job of an accepted header is current; its slot receives, the other slots are as they were (R51, R55). -/
theorem headerTaken_spec (i : Slot) (d : Dev) :
    d.within [.trd, .mpl] [11, 20] (headerTaken i d) ∧ (headerTaken i d).trd.job = (vat d.trd.slots i).jobId ∧
      (∃ z, vat (headerTaken i d).trd.slots i = { vat d.trd.slots i with next := 128, zones := z }) ∧
      ∀ j, j ≠ i → vat (headerTaken i d).trd.slots j = vat d.trd.slots j := by
  unfold headerTaken
  extract_lets x u
  obtain ⟨hu, hjob, hslots⟩ : d.within [.trd, .mpl] [11, 20] u ∧ u.trd.job = x.jobId ∧ u.trd.slots = d.trd.slots := by
    simp only [u]
    split
    · next h => exact ⟨within_refl _ _ d, h.symm, rfl⟩
    · generalize hw : (d.trdMod fun t => { t with job := x.jobId, lastActive := none }).setReg TRD_PLAT_RESID 0 = w
      have hclear : (mapClear w).trd = w.trd := (mapClear_within w).frame.2 .trd rfl
      have hown : d.within [.trd] [20] w := by
        rw [← hw]
        exact within_comp (setReg_within _ _ _ 20 (by decide) (.inl (by decide)))
          (within_mono (trdMod_within _ d) rfl rfl) rfl rfl
      refine ⟨within_comp (mapClear_within w) (within_mono hown rfl rfl) rfl rfl, ?_, ?_⟩ <;> rw [hclear, ← hw] <;> rfl
  refine ⟨?own, hjob, ⟨if x.selvCount ≤ 1 then [] else u.zonesWritten, ?same⟩, ?other⟩
  case own => exact within_comp (setSlotState_within i 1 _) (within_comp (slotMod_within i _ u) hu rfl rfl) rfl rfl
  case same =>
    refine (slotMod_slot_same i _ u).trans ?_
    rw [hslots]
  case other =>
    intro j hj
    refine (slotMod_slot_ne hj _ u).trans ?_
    rw [hslots]

/-- An accepted header that names no start time leaves none; one that names a time offers it. -/
theorem acceptHeader_spec (i : Slot) {d : Dev} (hs : d.shadow = []) :
    d.within [.trd, .chain, .ev, .wal, .flt, .dof, .mpl] [2, 11, 18, 20] (acceptHeader i d) ∧ d.sends (acceptHeader i d) ∧
      (acceptHeader i d).slotState i = 1 ∧ (acceptHeader i d).trd.job = (vat d.trd.slots i).jobId ∧
      (∃ z y m, vat (acceptHeader i d).trd.slots i =
          { vat d.trd.slots i with next := 128, zones := z, missed := m, start := y } ∧
        ((vat d.trd.slots i).headerStart = (0, 0) → y = (vat d.trd.slots i).start)) ∧
      ∀ j, j ≠ i → vat (acceptHeader i d).trd.slots j = vat d.trd.slots j := by
  obtain ⟨hown, hjob, ⟨z, hsame⟩, hother⟩ := headerTaken_spec i d
  have hstate : (headerTaken i d).slotState i = 1 := slotState_setSlotState i (by decide) _
  have hs' : (headerTaken i d).shadow = [] := (hown.frame.2 .shadow rfl).trans hs
  rw [acceptHeader_eq]
  split
  · exact ⟨within_mono hown rfl rfl, sends_within hown rfl, hstate, hjob, ⟨z, _, _, hsame, fun _ => rfl⟩, hother⟩
  · next hstart =>
    obtain ⟨y, m, htrd⟩ := offerStart_trd hs' i (vat d.trd.slots i).headerStart
    refine ⟨within_comp (offerStart_steady hs' i _) (within_mono hown rfl rfl) rfl rfl,
      sends_trans (sends_within hown rfl) (offerStart_sends hs' i _), (offerStart_slotState hs' i _ i).trans hstate, ?_,
      ⟨z, y, m, ?_, fun h => absurd h hstart⟩, ?_⟩
    · rw [htrd]; exact hjob
    · rw [htrd, slotMod_slot_same, hsame]
    · intro j hj; rw [htrd, slotMod_slot_ne hj, hother j hj]

/-- A whole header that passes the checks opens its slot, and the data behind it join the file (R55, R83). -/
theorem openSlot_accepted {i : Slot} {job layer : Nat} {data : List Byte} {d : Dev} (hfree : d.slotState i = 0)
    (h : d.headerFault (openedRecord data) job layer = none) :
    openSlot i job layer data d = appendData i (data.drop 128) (acceptHeader i (d.slotMod i fun _ => openedRecord data)) := by
  have hnone := (headerFault_slotMod hfree (fun _ => openedRecord data) (openedRecord data) job layer).trans h
  unfold openSlot
  extract_lets head src x u
  have hx : u.headerFault x job layer = none := hnone
  rw [hx]
  rfl

/-! ### The end of the decryption (R57) -/

/-- The NONCE of the file is the last of its key slot (R56). -/
def nonceTaken (x : LayerSlot) (d : Dev) : Dev :=
  { d with sec := { d.sec with nonces := vput d.sec.nonces ⟨x.keySlot % 16, Nat.mod_lt _ (by decide)⟩ x.nonce } }

/-- The NONCE of the file is taken, and the body `bs` stands in the slot's DRAM area (R57). -/
def fileStored (i : Slot) (x : LayerSlot) (bs : List Byte) (d : Dev) : Dev :=
  dramWrite ((nonceTaken x d).slotAddr i) bs (nonceTaken x d)

/-- The slot's record with the lists and the table of its body. -/
def LayerSlot.picked (x : LayerSlot) (body : List (List (List Nat)) × List Byte) : LayerSlot :=
  { x with cipher := [], own := Vector.ofFn fun n => body.1.getD n.val [], selv := body.1.getD 16 [], targets := body.2 }

/-- The lists and the table of the body are in the slot, which is VALID. -/
def filePicked (i : Slot) (body : List (List (List Nat)) × List Byte) (d : Dev) : Dev :=
  setSlotState i 2 (d.slotMod i (·.picked body))

theorem fileStored_own (i : Slot) (x : LayerSlot) (bs : List Byte) (d : Dev) :
    d.within [.ev, .wal, .dram, .sec, .drc, .flt, .dof, .mpl] [2, 4, 18] (fileStored i x bs d) :=
  within_comp (dramWrite_within _ bs (nonceTaken x d)) (within_mono (toSec_within d (nonceTaken x d).sec) rfl rfl) rfl rfl

theorem fileStored_sec (i : Slot) (x : LayerSlot) (bs : List Byte) (d : Dev) :
    (fileStored i x bs d).sec = (nonceTaken x d).sec :=
  (dramWrite_within _ bs (nonceTaken x d)).frame.2 .sec rfl

@[simp] theorem fileStored_trd (i : Slot) (x : LayerSlot) (bs : List Byte) (d : Dev) : (fileStored i x bs d).trd = d.trd :=
  (fileStored_own i x bs d).frame.2 .trd rfl

theorem filePicked_own (i : Slot) (body : List (List (List Nat)) × List Byte) (d : Dev) :
    d.within [.trd] [20] (filePicked i body d) :=
  within_comp (setSlotState_within i 2 _) (within_mono (slotMod_within i _ d) rfl rfl) rfl rfl

theorem filePicked_slot_same (i : Slot) (body : List (List (List Nat)) × List Byte) (d : Dev) :
    vat (filePicked i body d).trd.slots i = (vat d.trd.slots i).picked body :=
  slotMod_slot_same i _ d

theorem filePicked_slot_ne {i j : Slot} (h : j ≠ i) (body : List (List (List Nat)) × List Byte) (d : Dev) :
    vat (filePicked i body d).trd.slots j = vat d.trd.slots j := slotMod_slot_ne h _ d

theorem filePicked_slotState (i : Slot) (body : List (List (List Nat)) × List Byte) (d : Dev) :
    (filePicked i body d).slotState i = 2 := slotState_setSlotState i (by decide) _

/-- The file of slot `i` is decrypted with `key`: its NONCE is the last of its key slot, its picks are in the slot. -/
def fileDecrypted (i : Slot) (key : List Byte) (d : Dev) : Dev :=
  let x := vat d.trd.slots i
  let body := gcmPlain key ((x.header.drop 0x20).take 12) (x.cipher.take x.bodyLen)
  filePicked i (bodyLists x body) (fileStored i x body d)

/-- A complete file whose tag verifies, with a NONCE above the last and picks by R62. -/
structure Dev.fileGood (i : Slot) (key : List Byte) (x : LayerSlot) (d : Dev) : Prop where
  record : x = vat d.trd.slots i
  receiving : d.slotState i = 1
  whole : x.fileLen ≤ x.next
  keyed : vat d.sec.keys ⟨x.keySlot % 16, Nat.mod_lt _ (by decide)⟩ = some key
  tag : gcmTag key ((x.header.drop 0x20).take 12) x.header (x.cipher.take x.bodyLen) = x.cipher.drop x.bodyLen
  nonce : d.lastNonce x < x.nonce
  picks : ∀ n, n < 17 → listOk x.zones x.targetCount n ((bodyLists x
    (gcmPlain key ((x.header.drop 0x20).take 12) (x.cipher.take x.bodyLen))).1.getD n []) = true

/-- A decrypted file is VALID; beside its slot the NONCE of its key slot and the slot's area are written. -/
theorem fileDecrypted_own (i : Slot) (key : List Byte) (d : Dev) :
    d.within [.trd, .ev, .wal, .dram, .sec, .drc, .flt, .dof, .mpl] [2, 4, 18, 20] (fileDecrypted i key d) := by
  unfold fileDecrypted
  extract_lets x body
  exact within_comp (filePicked_own i _ _) (within_mono (fileStored_own i x body d) rfl rfl) rfl rfl

theorem fileDecrypted_sec (i : Slot) (key : List Byte) (d : Dev) :
    (fileDecrypted i key d).sec = (nonceTaken (vat d.trd.slots i) d).sec := by
  unfold fileDecrypted
  extract_lets x body
  rw [(filePicked_own i _ _).frame.2 .sec rfl, fileStored_sec]

theorem fileDecrypted_slot_same (i : Slot) (key : List Byte) (d : Dev) : vat (fileDecrypted i key d).trd.slots i =
    (vat d.trd.slots i).picked (bodyLists (vat d.trd.slots i) (gcmPlain key (((vat d.trd.slots i).header.drop 0x20).take 12)
      ((vat d.trd.slots i).cipher.take (vat d.trd.slots i).bodyLen))) := by
  unfold fileDecrypted
  extract_lets x body
  rw [filePicked_slot_same, fileStored_trd]

theorem fileDecrypted_slot_ne {i j : Slot} (h : j ≠ i) (key : List Byte) (d : Dev) :
    vat (fileDecrypted i key d).trd.slots j = vat d.trd.slots j := by
  unfold fileDecrypted
  extract_lets x body
  rw [filePicked_slot_ne h, fileStored_trd]

theorem fileDecrypted_slotState (i : Slot) (key : List Byte) (d : Dev) : (fileDecrypted i key d).slotState i = 2 :=
  filePicked_slotState i _ _

section
variable {i : Slot} {key : List Byte} {x : LayerSlot} {d : Dev} (h : d.fileGood i key x)
include h

/-- The host is told of an accepted file, and its layer may be armed. -/
theorem layerValid_good (hkey : d.sec.waiting = none) : layerValid i d = armedEvent i
    (layerAck x.jobId x.layerNo x.fileLen 1 0 (occur 96 i.val 0 (fileDecrypted i key d))) := by
  have hpicks : ((List.range 17).all fun n => listOk x.zones x.targetCount n ((bodyLists x
      (gcmPlain key ((x.header.drop 0x20).take 12) (x.cipher.take x.bodyLen))).1.getD n [])) = true := by
    simpa using h.picks
  have hidle :
      (layerAck x.jobId x.layerNo x.fileLen 1 0 (occur 96 i.val 0 (fileDecrypted i key d))).sec.waiting = none := by
    rw [(layerAck_within _ _ _ _ _ _).frame.2 .sec rfl, (occur_within 96 _ _ _ (by decide)).frame.2 .sec rfl,
      fileDecrypted_sec]
    exact hkey
  rw [← keyResume_idle hidle]
  obtain ⟨rfl, hstate, hwhole, hkeyed, htag, hnonce, -⟩ := h
  unfold layerValid
  extract_lets y k iv ct
  rw [if_neg (by simp [hstate, y, hwhole]), hkeyed]
  dsimp only
  rw [if_neg (not_not.2 htag), if_neg (Nat.not_le.2 hnonce)]
  unfold fileDecrypted
  dsimp only
  generalize gcmPlain key iv ct = body at hpicks ⊢
  generalize bodyLists y body = b at hpicks ⊢
  exact if_neg (by rw [show (_ : Bool) = true from hpicks]; decide)

end

/-! ### Slots that are released (R58, R66) -/

/-- A store filtered by key reads the default where the filter drops the key. -/
theorem sget_filter_out {α : Type} (b : α) {q : Nat → Bool} {k : Nat} (h : q k = false) (m : List (Nat × α)) :
    sget b (m.filter fun c => q c.1) k = b := by
  induction m with
  | nil => rfl
  | cons c m ih =>
    by_cases hc : q c.1 = true
    · have hne : c.1 ≠ k := fun he => by simp [← he, hc] at h
      rw [List.filter_cons_of_pos (by exact hc), sget, if_neg hne, ih]
    · rw [List.filter_cons_of_neg (by exact hc), ih]

/-- A store filtered by key reads as before where the filter keeps the key. -/
theorem sget_filter_kept {α : Type} (b : α) {q : Nat → Bool} {k : Nat} (h : q k = true) (m : List (Nat × α)) :
    sget b (m.filter fun c => q c.1) k = sget b m k := by
  induction m with
  | nil => rfl
  | cons c m ih =>
    by_cases hc : q c.1 = true
    · rw [List.filter_cons_of_pos (by exact hc), sget, sget, ih]
    · have hne : c.1 ≠ k := fun he => hc (he ▸ h)
      rw [List.filter_cons_of_neg (by exact hc), ih, sget, if_neg hne]

theorem zeroDram_inside (a n : Nat) (d : Dev) {k : Nat} (h : k < n) : sget ramDefault (d.zeroDram a n).dram (a + k) = 0 :=
  sget_filter_out ramDefault (q := fun c => c < a || a + n ≤ c) (by simp; omega) d.dram

theorem zeroDram_outside (a n : Nat) (d : Dev) : sameOutside ramDefault a n d.dram (d.zeroDram a n).dram :=
  fun _ hk => sget_filter_kept ramDefault (q := fun c => c < a || a + n ≤ c) (by simpa using hk) d.dram

/-- The slot of a released file before the host is told. -/
def slotEmptied (i : Slot) (d : Dev) : Dev := setSlotState i 0 (d.slotMod i fun _ => LayerSlot.reset)

theorem freeSlot_eventOnly (i : Slot) (d : Dev) :
    EventOnly { slotEmptied i d with chain := (freeSlot i d).chain } (freeSlot i d) := by
  have h := occur_eventOnly 109 i.val 0
    (layerAck (vat d.trd.slots i).jobId (vat d.trd.slots i).layerNo 0 5 0 (slotEmptied i d)) (by decide)
  have hchain := h.part .chain (by decide) (by decide)
  exact hchain ▸ h

/-- A released slot is EMPTY, and nothing of its file is held. -/
theorem freeSlot_trd (i : Slot) (d : Dev) : (freeSlot i d).trd = (d.slotMod i fun _ => LayerSlot.reset).trd :=
  (freeSlot_eventOnly i d).part .trd (by decide) (by decide)

theorem freeSlot_slotState_same (i : Slot) (d : Dev) : (freeSlot i d).slotState i = 0 :=
  (slotState_congr ((freeSlot_eventOnly i d).regs _ (eventReg_slotStatus i))).trans (slotState_setSlotState i (by decide) _)

theorem freeSlot_slotState_ne {i j : Slot} (h : j ≠ i) (d : Dev) : (freeSlot i d).slotState j = d.slotState j :=
  (slotState_congr ((freeSlot_eventOnly i d).regs _ (eventReg_slotStatus j))).trans (slotState_setSlotState_ne h _ _)

theorem freeSlot_pends (i : Slot) (d : Dev) : (freeSlot i d).pends 109 := occur_pends 109 _ _ _ (by decide)

theorem freeSlot_withEvent (i : Slot) (d : Dev) : Dev.withEvent [slotStatus i]
    { d with trd := (freeSlot i d).trd, chain := (freeSlot i d).chain } (freeSlot i d) := by
  refine withEvent_of ⟨?_, ?_⟩ (freeSlot_eventOnly i d)
  · rw [freeSlot_trd]; rfl
  · exact (setSlotState_regsOnly i 0 (d.slotMod i fun _ => LayerSlot.reset)).2

/-! ### A slot that fails (R85) -/

theorem failSlot_slot_same (i : Slot) (d : Dev) : (vat (failSlot i d).trd.slots i).start = none :=
  congrArg LayerSlot.start (slotMod_slot_same i _ d)

theorem failSlot_slot_ne {i j : Slot} (h : j ≠ i) (d : Dev) : vat (failSlot i d).trd.slots j = vat d.trd.slots j :=
  slotMod_slot_ne h _ d

theorem failSlot_regsOnly (i : Slot) (d : Dev) :
    Dev.regsOnly [slotStatus i] { d with trd := (failSlot i d).trd } (failSlot i d) := setSlotState_regsOnly i 6 _

/-- While no key command waits, LAYER_CANCEL takes the slot of its layer to FAILED unless it is ACTIVE. -/
theorem layerCancel_fails {m : List Byte} {i : Slot} {d : Dev} (h : d.layerSlot (leAt m 4 4) (leAt m 8 4) = some i)
    (hst : d.slotState i ≠ 5) (hkey : d.sec.waiting = none) : layerCancel m d = failSlot i d := by
  have hidle : (failSlot i d).sec.waiting = none := hkey
  simp only [layerCancel, h, if_neg hst, keyResume_idle hidle]

/-! ### The statement -/

/-- What follows the taking of a message touches, with the taking itself, what it is said to touch. -/
theorem withEvent_taken {p : Port} {f : Frame} {rest : List Frame} {L : List Nat} {d t : Dev} {x : Treadle}
    (hq : (d.cport p).rxQ = f :: rest) (h : Dev.withEvent L { takeFrame p d with trd := x, chain := t.chain } t) :
    Dev.withEvent (takenRegs p ++ L) { d with trd := x, chain := t.chain } t := by
  have htaken := takeFrame_withEvent hq
  refine withEvent_trans (t := { takeFrame p d with trd := x, chain := t.chain }) ⟨?_, htaken.2⟩ h
  rw [htaken.1]

/-- Data that join the empty file of a header are its first bytes. -/
theorem append_cipher (x : LayerSlot) (h : x.cipher = []) (z : List (Nat × Nat)) (m : Bool) (t : Option StartTime)
    (data : List Byte) : (LayerSlot.append { x with next := 128, zones := z, missed := m, start := t } data).cipher =
      data.take (x.fileLen - 128) := by
  simp only [LayerSlot.append, h, List.nil_append]
  rfl

/-- The record of a header is read from the whole data as from the header alone. -/
theorem record_opened (data : List Byte) :
    { LayerSlot.reset with jobId := leAt data 8 4, layerNo := leAt data 12 4, header := data.take 128 } = openedRecord data := by
  rw [openedRecord, leAt_take _ (by decide), leAt_take _ (by decide)]

/-- Settles O46: a message at the head of its bobbin is taken and handled; each of its effects is that of one operation on
the slot, whose rules stand above. -/
theorem layerFiles : Obligations.LayerFiles := by
  unfold Obligations.LayerFiles
  intro p f rest i data x s hrun hc hs hkey
  have hcalm := takeFrame_calm p hc
  have hs' : (takeFrame p s.dev).shadow = [] := ((takeFrame_within p s.dev).frame.2 .shadow rfl).trans hs
  refine ⟨?opens, ?joins, ?valid, ?undefined, ?cancel, ?zeroed⟩
  case opens =>
    intro hq hk hen hst htype hdata hlen hoff hnew hfree hlow hx hgood
    subst hdata
    obtain rfl := hx.trans (record_opened _)
    set u := (takeFrame p s.dev).slotMod i fun _ => openedRecord (f.payload.drop 16) with hu
    have hsu : u.shadow = [] := hs'
    have hslot : vat u.trd.slots i = openedRecord (f.payload.drop 16) := slotMod_slot_same i _ _
    obtain ⟨hown, hsends, hstate, hjob, ⟨z, y, m, hsame, hstart⟩, hother⟩ := acceptHeader_spec i hsu
    obtain ⟨-, hsends', hown'⟩ := appendData_spec i ((f.payload.drop 16).drop 128) (acceptHeader i u)
    have hdo : jobFrame p (· == 0x10) layerData s.dev = appendData i ((f.payload.drop 16).drop 128) (acceptHeader i u) :=
      (jobFrame_head hq hk hen hst (by simp [htype]) layerData).trans ((layerData_opens hoff hlen (by simpa using hnew)
        (by simpa using hfree) (by simpa using hlow)).trans (openSlot_accepted (by simpa using hfree) hgood))
    have hall : s.dev.within [.trd, .chain, .ev, .wal, .flt, .dof, .mpl] [2, 3, 11, 18, 20]
        (appendData i ((f.payload.drop 16).drop 128) (acceptHeader i u)) :=
      within_comp hown' (within_comp hown (within_comp (slotMod_within i _ _) (within_mono (takeFrame_within p s.dev) rfl rfl)
        rfl rfl) rfl rfl) rfl rfl
    refine ⟨_, actIn_of_eq hrun hdo (hall.calm hc).1, ?_, ?_, ?_, ?_, ?_, ?_, ?_, ?_, ?_, hall.frame⟩
    · rw [(hsends' p).1, (hsends p).1]
      exact takeFrame_rxQ hq
    · rw [slotState_within hown' rfl, hstate]
    · rw [appendData_job, hjob, hslot]
    · intro j hj
      rw [appendData_slot_ne hj, hother j hj, slotMod_slot_ne hj, takeFrame_trd]
    · rw [appendData_slot_same, append_jobId, hsame, hslot]
    · rw [appendData_slot_same, append_layerNo, hsame, hslot]
    · rw [appendData_slot_same, append_header, hsame, hslot]
    · rw [appendData_slot_same, hsame, hslot]
      exact append_cipher (openedRecord (f.payload.drop 16)) rfl z m y _
    · intro h0
      rw [appendData_slot_same, append_start, hsame]
      exact (hstart (by rw [hslot]; exact h0)).trans (congrArg LayerSlot.start hslot)
  case joins =>
    rintro hq hk hen hst htype rfl hstate hjob hlayer hnext hlow rfl
    have hdo : jobFrame p (· == 0x10) layerData s.dev = appendData i (f.payload.drop 16) (takeFrame p s.dev) :=
      (jobFrame_head hq hk hen hst (by simp [htype]) layerData).trans (layerData_joins (by simpa using hstate)
        (by simpa using hjob) (by simpa using hlayer) (by simpa using hnext) (by simpa using hlow))
    obtain ⟨heq, hsends, hown⟩ := appendData_spec i (f.payload.drop 16) (takeFrame p s.dev)
    refine ⟨_, actIn_of_eq hrun hdo (hown.calm hcalm).1, (hsends p).1.trans (takeFrame_rxQ hq), ?_, ?_,
      withEvent_taken (L := []) hq ⟨?_, ?_⟩⟩
    · rw [appendData_slot_same, takeFrame_trd]; rfl
    · intro j hj; rw [appendData_slot_ne hj, takeFrame_trd]
    · rw [heq]
    · rw [heq]; exact fun _ _ _ => rfl
  case valid =>
    intro hx hstate hwhole hkeyed htag hnonce hpicks
    have hgood : s.dev.fileGood i data x := ⟨hx, hstate, hwhole, hkeyed, htag, hnonce, hpicks⟩
    set v := fileDecrypted i data s.dev with hv
    have hown : s.dev.within [.trd, .ev, .wal, .dram, .sec, .drc, .flt, .dof, .mpl] [2, 4, 18, 20] v :=
      fileDecrypted_own i data s.dev
    have htold := within_comp (layerAck_within x.jobId x.layerNo x.fileLen 1 0 (occur 96 i.val 0 v))
      (within_mono (occur_within 96 i.val 0 v (by decide)) rfl rfl) (P := [.ev, .wal, .chain]) (B := [2, 18]) rfl rfl
    set u := layerAck x.jobId x.layerNo x.fileLen 1 0 (occur 96 i.val 0 v) with hu
    have hsu : u.shadow = [] := (htold.frame.2 .shadow rfl).trans ((hown.frame.2 .shadow rfl).trans hs)
    have hall : s.dev.within [.trd, .chain, .ev, .wal, .dram, .sec, .drc, .flt, .dof, .mpl] [2, 4, 18, 20] (armedEvent i u) :=
      within_comp (armedEvent_steady hsu i) (within_comp htold (within_mono hown rfl rfl) rfl rfl) rfl rfl
    have htrd : (armedEvent i u).trd = v.trd := (armedEvent_trd hsu i).trans (htold.frame.2 .trd rfl)
    have hu2 : u.slotState i = 2 := (slotState_within htold rfl i).trans (fileDecrypted_slotState i data s.dev)
    have hslot := fileDecrypted_slot_same i data s.dev
    rw [← hx, ← hv] at hslot
    refine ⟨_, actIn_of_eq hrun (layerValid_good hgood hkey) (hall.calm hc).1, (armedEvent_slotState hsu i i).trans hu2,
      armedEvent_keepsPending hsu i 96 (by decide) ?_, ?_, ?_, ?_, ?_, ?_, ?_, hall.frame⟩
    · exact within_keepsPending (layerAck_within _ _ _ _ _ _) rfl 96 (by decide) (occur_pends 96 i.val 0 v (by decide))
    · have hsec : (armedEvent i u).sec = (nonceTaken x s.dev).sec := by
        rw [(armedEvent_steady hsu i).frame.2 .sec rfl, htold.frame.2 .sec rfl, fileDecrypted_sec, ← hx]
      rw [Dev.lastNonce, hsec]
      simp [nonceTaken, vat, vput]
    · intro n
      rw [htrd, hslot]
      exact Vector.getElem_ofFn n.isLt
    · rw [htrd, hslot]
      rfl
    · rw [htrd, hslot]
      rfl
    · intro j hj
      rw [htrd, fileDecrypted_slot_ne hj]
    · intro hstart
      refine armedEvent_pends hsu i ?_
      have hutrd : u.trd = v.trd := htold.frame.2 .trd rfl
      rw [Dev.slotArmed, hu2, hutrd, hslot]
      exact hstart
  case undefined =>
    intro hq hk hen hst htype
    simp only [List.mem_cons, List.not_mem_nil, or_false, not_or] at htype
    have hwant : (fun t => !hostType t) (leAt f.payload 0 1) = true := by
      simp [hostType]; omega
    have hcount : undefinedMessage f.payload (takeFrame p s.dev) = (takeFrame p s.dev).count TRD_BAD_MSG 1 := by
      rw [undefinedMessage, if_neg (by simp; omega)]
    refine ⟨_, actIn_of_eq hrun ((jobFrame_head hq hk hen hst hwant undefinedMessage).trans hcount) hcalm.1,
      takeFrame_rxQ hq, ?_, ?_⟩
    · rw [reg_count_same, takeFrame_reg p s.dev (by decide)]
    · exact withEvent_trans (takeFrame_withEvent hq) (withEvent_of (regsOnly_count _ TRD_BAD_MSG 1) (EventOnly.refl _))
  case cancel =>
    intro hq hk hen hst htype hslot hstate
    have hdo : jobFrame p (· == 0x16) layerCancel s.dev = failSlot i (takeFrame p s.dev) :=
      (jobFrame_head hq hk hen hst (by simp [htype]) layerCancel).trans (layerCancel_fails
        ((takeFrame_layerSlot p s.dev _ _).trans hslot) (by simpa using hstate) (by simpa using hkey))
    refine ⟨_, actIn_of_eq hrun hdo ((failSlot_within i _).calm hcalm).1, takeFrame_rxQ hq,
      slotState_setSlotState i (by decide) _, failSlot_slot_same i _, ?_,
      withEvent_taken hq (withEvent_of (failSlot_regsOnly i _) (EventOnly.refl _))⟩
    intro j hj
    rw [failSlot_slot_ne hj, takeFrame_trd]
  case zeroed =>
    intro hstate
    set u := s.dev.zeroDram (s.dev.slotAddr i) (vat s.dev.trd.slots i).bodyLen with hu
    have hdo : slotZeroed i s.dev = freeSlot i u := if_neg (not_not.2 hstate)
    have hdram : (freeSlot i u).dram = u.dram := (freeSlot_eventOnly i u).part .dram (by decide) (by decide)
    have hcalmu : u.calm := (zeroDram_within _ _ s.dev).calm hc
    refine ⟨_, actIn_of_eq hrun hdo ((freeSlot_within i u).calm hcalmu).1, freeSlot_slotState_same i u, ?_, ?_, ?_, ?_,
      freeSlot_pends i u, ?_⟩
    · rw [freeSlot_trd, slotMod_slot_same]
    · intro j hj
      rw [freeSlot_trd, slotMod_slot_ne hj]
      rfl
    · intro k hk
      rw [hdram]
      exact zeroDram_inside _ _ s.dev hk
    · rw [hdram]
      exact zeroDram_outside _ _ s.dev
    · rw [hdram]
      exact freeSlot_withEvent i u

end Sys2Proof.Machine

/-!
PROOFS of the commands of the Shed and of its monitor: what a pass that begins, its report and the end of a hold leave,
then the statement.
-/
namespace Sys2Proof.Machine

open Reg

/-! ### Pending bits, registers cleared, what is done several times -/

section
variable {d : Dev}

/-- A register outside block 2 is no pending word. -/
theorem keepsPending_setReg (d : Dev) {a : Nat} (h : a / 0x10000 ≠ 2) (v : Nat) : d.keepsPending (d.setReg a v) :=
  fun e he hp => by
    have hne : EVT_PEND (e / 32) ≠ a := by
      rintro rfl
      simp only [EVT_PEND] at h
      omega
    rwa [Dev.pends, reg_setReg_ne _ _ hne]

theorem keepsPending_put (d : Dev) {f : Field} (h : f.addr / 0x10000 ≠ 2) (v : Nat) : d.keepsPending (d.put f v) :=
  keepsPending_setReg d h _

theorem keepsPending_count (d : Dev) {a : Nat} (h : a / 0x10000 ≠ 2) (k : Nat) : d.keepsPending (d.count a k) :=
  keepsPending_setReg d h _

theorem keepsPending_occur {e : Nat} (h : e < 256) (inst code : Nat) (d : Dev) : d.keepsPending (occur e inst code d) :=
  (occur_eventOnly e inst code d h).keepsPending

theorem keepsPending_faultEvent {code e : Nat} (hc : code < 256) (he : e < 256) (sev inst : Nat) (d : Dev) :
    d.keepsPending (faultEvent code sev inst e d) := (faultEvent_spec code sev inst e d hc he).1.keepsPending

end

/-- A list of registers set to 0: each of them reads 0. -/
theorem reg_foldl_clear {α : Type} (r : α → Nat) (l : List α) {x : α} (h : x ∈ l) (d : Dev) :
    (l.foldl (fun (t : Dev) y => t.setReg (r y) 0) d).reg (r x) = 0 := by
  have hkeep (m : List α) (u : Dev) (hu : u.reg (r x) = 0) :
      (m.foldl (fun (t : Dev) y => t.setReg (r y) 0) u).reg (r x) = 0 := by
    induction m generalizing u with
    | nil => exact hu
    | cons y m ih =>
      refine ih _ ?_
      by_cases hy : r x = r y
      · rw [hy, reg_setReg_same, Nat.zero_mod]
      · rw [reg_setReg_ne _ _ hy, hu]
  induction l generalizing d with
  | nil => exact absurd h (by simp)
  | cons y l ih =>
    rcases List.mem_cons.1 h with rfl | h
    · exact hkeep l _ (reg_setReg_same _ _ _)
    · exact ih h _

theorem regsOnly_foldl_setReg {α : Type} (r v : α → Nat) (l : List α) (d : Dev) :
    d.regsOnly (l.map r) (l.foldl (fun (t : Dev) y => t.setReg (r y) (v y)) d) := by
  induction l generalizing d with
  | nil => exact regsOnly_refl d _
  | cons y l ih => exact regsOnly_trans (regsOnly_setReg d (r y) (v y)) (ih _)

theorem within_repeat {P : List Part} {B : List Nat} {g : Dev → Dev} (hg : ∀ u : Dev, u.within P B (g u)) (n : Nat) (d : Dev) :
    d.within P B (Nat.repeat g n d) := by
  induction n with
  | zero => exact within_refl _ _ d
  | succ n ih => exact within_comp (hg _) ih (by simp) (by simp)

theorem withFault_repeat {L : List Nat} {g : Dev → Dev} (hg : ∀ u : Dev, u.withFault L (g u)) (n : Nat) (d : Dev) :
    d.withFault L (Nat.repeat g n d) := by
  induction n with
  | zero => exact withEvent_fault (withEvent_refl d L)
  | succ n ih =>
    obtain ⟨hrest, hregs⟩ := withFault_trans ih (hg _)
    exact ⟨hrest, fun a ha => hregs a (by simp [ha])⟩

theorem withFault_mono {d t : Dev} {L M : List Nat} (h : d.withFault L t) (hs : L ⊆ M) : d.withFault M t :=
  ⟨h.1, fun a ha he => h.2 a (fun hl => ha (hs hl)) he⟩

/-- The same Treadle and Shed on both sides change nothing in what else is said. -/
theorem withFault_parts {d t : Dev} {L : List Nat} (h : d.withFault L t) (x : Treadle) (y : Shed) :
    Dev.withFault L { d with trd := x, shd := y } { t with trd := x, shd := y } :=
  ⟨by rw [h.1], h.2⟩

/-! ### A pass that begins (R126, R129) -/

/-- The counters of a pass. -/
def passRegs : List Nat := [SHD_PICKS_DONE, SHD_WAITS, SHD_UNRESOLVED, SHD_SEAMS, SHD_SEAM_SKIP]

theorem passCounters_regsOnly (d : Dev) : d.regsOnly passRegs (passCounters d) :=
  regsOnly_foldl_setReg id (fun _ => 0) passRegs d

/-- The registers of a pass that begins. -/
theorem passBegin_reg (ps : ShedPass) (d : Dev) (a : Nat) : (passBegin ps d).reg a = (((passCounters d).put SHD_STATUS_SLOT
    ps.slot.val).put SHD_STATUS_PASS (if ps.again then 2 else 1)).reg a := by
  unfold passBegin
  extract_lets u v
  exact (shdMod_within _ v).frame.1 a rfl

/-- A pass begins: its record, its counters at 0, its status. -/
theorem passBegin_regsOnly (ps : ShedPass) (d : Dev) :
    Dev.regsOnly (SHD_STATUS :: passRegs) { d with shd := (passBegin ps d).shd } (passBegin ps d) := by
  have hstatus : d.regsOnly (SHD_STATUS :: passRegs) (((passCounters d).put SHD_STATUS_SLOT ps.slot.val).put SHD_STATUS_PASS
      (if ps.again then 2 else 1)) :=
    regsOnly_mono (regsOnly_trans (passCounters_regsOnly d) (regsOnly_trans (regsOnly_put _ SHD_STATUS_SLOT _)
      (regsOnly_put _ SHD_STATUS_PASS _))) (by simp [passRegs])
  refine ⟨?_, fun a ha => (passBegin_reg ps d a).trans (hstatus.2 a ha)⟩
  exact congrArg (fun t : Dev => { t with shd := (passBegin ps d).shd }) hstatus.1

theorem passBegin_counter {a : Nat} (h : a ∈ passRegs) (ps : ShedPass) (d : Dev) : (passBegin ps d).reg a = 0 := by
  have hne : a ≠ SHD_STATUS := by rintro rfl; exact absurd h (by decide)
  rw [passBegin_reg, reg_put_ne _ _ _ hne, reg_put_ne _ _ _ hne]
  exact reg_foldl_clear id passRegs h d

theorem passBegin_status (ps : ShedPass) (d : Dev) : (passBegin ps d).get SHD_STATUS_PASS = if ps.again then 2 else 1 := by
  have hput := get_put_same ((passCounters d).put SHD_STATUS_SLOT ps.slot.val) SHD_STATUS_PASS
    (if ps.again then 2 else 1) (by decide) (by decide)
  rw [Dev.get, passBegin_reg]
  refine hput.trans ?_
  cases ps.again <;> rfl

theorem passBegin_slot (ps : ShedPass) (d : Dev) : (passBegin ps d).get SHD_STATUS_SLOT = ps.slot.val := by
  have hkeep := get_put_ne ((passCounters d).put SHD_STATUS_SLOT ps.slot.val) SHD_STATUS_PASS SHD_STATUS_SLOT
    (if ps.again then 2 else 1) (by decide) (by decide) (.inr (.inr (by decide)))
  rw [Dev.get, passBegin_reg]
  refine hkeep.trans ?_
  rw [get_put_same _ _ _ (by decide) (by decide)]
  exact Nat.mod_eq_of_lt (ps.slot.isLt.trans (by decide))

theorem excludedMask_setSlotState (i : Slot) (st : Nat) (d : Dev) :
    (setSlotState i st d).excludedMask = d.excludedMask := by
  have hreg {a : Nat} (h : a / 0x10000 ≠ 20) : (setSlotState i st d).reg a = d.reg a :=
    (setSlotState_within i st d).frame.1 a (by simpa using h)
  have hbit : ∀ n < 16, ((setSlotState i st d).isRetired n || !(setSlotState i st d).on (SHT_CTRL_ENABLE n) ||
      !(setSlotState i st d).on (LNK_WCTRL_EN n)) = (d.isRetired n || !d.on (SHT_CTRL_ENABLE n) || !d.on (LNK_WCTRL_EN n)) := by
    intro n hn
    simp only [Dev.isRetired, Dev.on, Dev.get]
    rw [hreg (by decide), hreg (by simp only [SHT_CTRL]; omega),
      hreg (by simp only [LNK_WCTRL]; omega)]
  refine List.foldl_ext _ _ _ fun m n hn => ?_
  rw [hbit n (List.mem_range.1 hn)]

/-- A pass starts on the slot of the lowest layer number, which becomes ALLOCATING (R67). -/
theorem shedStart_begins {i : Slot} {d : Dev} (hpass : d.shd.pass = none) (hnext : d.shedNext = some i) (hs : d.shadow = [])
    (hlen : (vat d.trd.slots i).selv.length ≤ 4194304) : ∃ ps : ShedPass, ps.again = false ∧ ps.slot = i ∧
      ps.excluded = d.excludedMask ∧ shedStart d = passBegin ps (setSlotState i 3 d) := by
  have hfew : ¬ 4194304 < (((vat (setSlotState i 3 d).trd.slots i).selv.filter (recTyp · ≠ 0)).map tagged).length := by
    rw [List.length_map]
    exact Nat.not_lt.2 ((List.length_filter_le _ _).trans hlen)
  have hstart := excludedMask_setSlotState i 3 d
  unfold shedStart
  rw [hpass, hnext]
  dsimp only
  rw [commit_nil hs, if_neg hfew]
  exact ⟨_, rfl, rfl, hstart, rfl⟩

/-! ### The report of a pass (R95, R101, R105, R107, R126) -/

/-- The counters, the status and F[n] of a completed pass. -/
def passShown (ps : ShedPass) (a : ShedAcc) (moved skipped : Nat) (d : Dev) : Dev :=
  (List.finRange 16).foldl (fun (t : Dev) (n : Station) => t.setReg (SHD_EST n) ((vat ps.finish n + vat a.load n) / 1000))
    ((((((d.setReg SHD_PICKS_DONE a.next).setReg SHD_WAITS a.waits).setReg SHD_UNRESOLVED a.unresolved).setReg SHD_SEAMS
      moved).setReg SHD_SEAM_SKIP skipped).put SHD_STATUS_PASS 0)

/-- A flag of the Shed set, with its fault and its event. -/
def shedFault (i code e : Nat) (f : Field) (d : Dev) : Dev := faultEvent code sevInfo i e (d.put f 1)

/-- The faults and events of a completed pass. -/
def passFaults (i : Nat) (a : ShedAcc) (skipped : Nat) (d : Dev) : Dev :=
  let d := Nat.repeat (shedFault i 0x38 115 SHD_FLAGS_GROUP) a.badGroups d
  let d := Nat.repeat (shedFault i 0x3A 116 SHD_FLAGS_UNRESOLVED) a.unresolved d
  if skipped = 0 then d else occurTimes skipped 117 i 0 (d.put SHD_FLAGS_SEAM_SKIP 1)

theorem passReport_eq (ps : ShedPass) (a : ShedAcc) (moved skipped : Nat) (d : Dev) :
    passReport ps a moved skipped d = passFaults ps.slot.val a skipped (passShown ps a moved skipped d) := rfl

/-- The registers that a completed pass sets. -/
def reportRegs : List Nat := passRegs ++ [SHD_STATUS] ++ (List.range 16).map SHD_EST

theorem map_finRange_val {α : Type} (n : Nat) (g : Nat → α) :
    ((List.finRange n).map fun i => g i.val) = (List.range n).map g := by
  rw [← List.map_coe_finRange_eq_range, List.map_map]
  rfl

theorem passShown_regsOnly (ps : ShedPass) (a : ShedAcc) (moved skipped : Nat) (d : Dev) :
    d.regsOnly reportRegs (passShown ps a moved skipped d) := by
  have hest := map_finRange_val 16 SHD_EST
  rw [reportRegs, ← hest]
  exact regsOnly_trans (regsOnly_trans (regsOnly_trans (regsOnly_trans (regsOnly_trans (regsOnly_trans
    (regsOnly_setReg d SHD_PICKS_DONE _) (regsOnly_setReg _ SHD_WAITS _)) (regsOnly_setReg _ SHD_UNRESOLVED _))
    (regsOnly_setReg _ SHD_SEAMS _)) (regsOnly_setReg _ SHD_SEAM_SKIP _)) (regsOnly_put _ SHD_STATUS_PASS 0))
    (regsOnly_foldl_setReg _ _ _ _)

/-- The counters and the status of a completed pass. -/
theorem passShown_regs (ps : ShedPass) (a : ShedAcc) (moved skipped : Nat) (d : Dev) :
    (passShown ps a moved skipped d).reg SHD_PICKS_DONE = a.next % 2 ^ 32 ∧
      (passShown ps a moved skipped d).reg SHD_SEAMS = moved % 2 ^ 32 ∧
      (passShown ps a moved skipped d).get SHD_STATUS_PASS = 0 := by
  have hest (u : Dev) {b : Nat} (hb : b < 0x70200) : ((List.finRange 16).foldl (fun (t : Dev) (n : Station) =>
      t.setReg (SHD_EST n) ((vat ps.finish n + vat a.load n) / 1000)) u).reg b = u.reg b :=
    reg_foldl _ (fun v n => reg_setReg_ne _ _ (by simp only [SHD_EST]; omega)) _ u
  refine ⟨?_, ?_, ?_⟩
  · rw [passShown, hest _ (by decide), reg_put_ne _ _ _ (by decide), reg_setReg_ne _ _ (by decide),
      reg_setReg_ne _ _ (by decide), reg_setReg_ne _ _ (by decide), reg_setReg_ne _ _ (by decide), reg_setReg_same]
  · rw [passShown, hest _ (by decide), reg_put_ne _ _ _ (by decide), reg_setReg_ne _ _ (by decide), reg_setReg_same]
  · rw [passShown, Dev.get, hest _ (by decide)]
    exact get_put_same _ _ _ (by decide) (by decide)

theorem shedFault_withFault {i code e : Nat} {f : Field} (hc : code < 256) (he : e < 256) (hf : f.addr = SHD_FLAGS) (d : Dev) :
    d.withFault [SHD_FLAGS] (shedFault i code e f d) :=
  withFault_of (hf ▸ regsOnly_put d f 1) (faultEvent_spec code sevInfo i e _ hc he).1

theorem shedFault_own {i code e : Nat} {f : Field} (hc : code < 256) (he : e < 256) (hf : f.addr / 0x10000 = 7) (d : Dev) :
    d.within [.ev, .flt, .wal, .dof, .mpl] [2, 7, 18] (shedFault i code e f d) :=
  within_comp (faultEvent_within code sevInfo i e _ hc he) (within_mono (put_within d f 1 7 hf (.inl (by decide))) rfl rfl)
    rfl rfl

theorem occurTimes_withFault {e : Nat} (he : e < 256) (n inst code : Nat) (d : Dev) :
    d.withFault [] (occurTimes n e inst code d) :=
  withFault_repeat (fun u => withEvent_fault (withEvent_of (regsOnly_refl u []) (occur_eventOnly e inst code u he))) n d

theorem occurTimes_within {e : Nat} (he : e < 256) (n inst code : Nat) (d : Dev) :
    d.within [.ev, .wal] [2, 18] (occurTimes n e inst code d) := within_repeat (fun u => occur_within e inst code u he) n d

section
variable (i : Nat) (a : ShedAcc) (skipped : Nat) (d : Dev)

/-- The faults of a pass touch the Shed's flags. -/
theorem passFaults_withFault : d.withFault [SHD_FLAGS] (passFaults i a skipped d) := by
  unfold passFaults
  extract_lets u v
  have hv : d.withFault [SHD_FLAGS] v := withFault_mono (withFault_trans
    (withFault_repeat (shedFault_withFault (by decide) (by decide) rfl) a.badGroups d)
    (withFault_repeat (shedFault_withFault (by decide) (by decide) rfl) a.unresolved u)) (by simp)
  split
  · exact hv
  · exact withFault_mono (withFault_trans (withFault_regsOnly hv (regsOnly_put v SHD_FLAGS_SEAM_SKIP 1))
      (occurTimes_withFault (by decide) skipped i 0 _)) (by simp)

theorem passFaults_own : d.within [.ev, .flt, .wal, .dof, .mpl] [2, 7, 18] (passFaults i a skipped d) := by
  unfold passFaults
  extract_lets u v
  have hu : d.within [.ev, .flt, .wal, .dof, .mpl] [2, 7, 18] u :=
    within_repeat (shedFault_own (by decide) (by decide) rfl) _ d
  have hv : d.within [.ev, .flt, .wal, .dof, .mpl] [2, 7, 18] v :=
    within_comp (within_repeat (shedFault_own (by decide) (by decide) rfl) _ u) hu rfl rfl
  exact within_ite hv (within_comp (occurTimes_within (by decide) skipped i 0 _)
    (within_comp (put_within v SHD_FLAGS_SEAM_SKIP 1 7 rfl (.inl (by decide))) hv rfl rfl) rfl rfl)

end

section
variable (ps : ShedPass) (a : ShedAcc) (moved skipped : Nat) (d : Dev)

theorem passReport_withFault : d.withFault (reportRegs ++ [SHD_FLAGS]) (passReport ps a moved skipped d) := by
  rw [passReport_eq]
  exact withFault_trans (withFault_of (passShown_regsOnly ps a moved skipped d) (FaultOnly.refl _))
    (passFaults_withFault ps.slot.val a skipped _)

theorem passReport_own : d.within [.ev, .flt, .wal, .dof, .mpl] [2, 7, 18] (passReport ps a moved skipped d) := by
  rw [passReport_eq]
  have hput : ∀ u : Dev, u.within [] [7] (u.put SHD_STATUS_PASS 0) := fun u => put_within u _ 0 7 rfl (.inl (by decide))
  have hset {u : Dev} {r v : Nat} (hr : r / 0x10000 = 7) (h : d.within [] [7] u) : d.within [] [7] (u.setReg r v) :=
    within_comp (setReg_within u r v 7 hr (.inl (by decide))) h rfl rfl
  have hshown : d.within [] [7] (passShown ps a moved skipped d) := by
    refine within_foldl _ _ (fun v n => setReg_within v _ _ 7 (by simp only [SHD_EST]; omega) (.inl (by decide))) ?_
    refine within_comp (hput _) ?_ rfl rfl
    exact hset rfl (hset rfl (hset rfl (hset rfl (hset rfl (within_refl _ _ d)))))
  exact within_comp (passFaults_own ps.slot.val a skipped _) (within_mono hshown rfl rfl) rfl rfl

/-- The counters and the status of a pass that has reported. -/
theorem passReport_regs : (passReport ps a moved skipped d).reg SHD_PICKS_DONE = a.next % 2 ^ 32 ∧
    (passReport ps a moved skipped d).reg SHD_SEAMS = moved % 2 ^ 32 ∧
    (passReport ps a moved skipped d).get SHD_STATUS_PASS = 0 := by
  obtain ⟨hdone, hseams, hpass⟩ := passShown_regs ps a moved skipped d
  have hreg {b : Nat} (hb : b ≠ SHD_FLAGS) (hf : faultReg b = false) :
      (passReport ps a moved skipped d).reg b = (passShown ps a moved skipped d).reg b := by
    rw [passReport_eq]
    exact (passFaults_withFault ps.slot.val a skipped _).2 b (by simpa using hb) hf
  exact ⟨(hreg (by decide) (by decide)).trans hdone, (hreg (by decide) (by decide)).trans hseams,
    by rw [Dev.get, hreg (by decide) (by decide)]; exact hpass⟩

end

/-! ### Orphaned picks (R75, R119) -/

/-- The orphans counted in the slot. -/
def orphansCounted (i : Slot) (k : Nat) (d : Dev) : Dev :=
  let d := d.slotMod i fun x => { x with orphans := x.orphans + k }
  if d.layerActive && d.activeSlot == i then (d.count TRD_ORPHANS k).count SHD_ORPHANS k else d

theorem reportOrphans_cases (i : Slot) (k : Nat) (d : Dev) :
    reportOrphans i k d = d ∨ reportOrphans i k d = faultEvent 0x37 sevInfo i.val 108 (orphansCounted i k d) := by
  unfold reportOrphans
  exact ite_eq_or_eq _ _ _

theorem orphansCounted_regsOnly (i : Slot) (k : Nat) (d : Dev) : Dev.regsOnly [TRD_ORPHANS, SHD_ORPHANS]
    { d with trd := (d.slotMod i fun x => { x with orphans := x.orphans + k }).trd } (orphansCounted i k d) := by
  unfold orphansCounted
  extract_lets u
  split
  · exact regsOnly_trans (regsOnly_count u TRD_ORPHANS k) (regsOnly_count _ SHD_ORPHANS k)
  · exact regsOnly_refl u _

theorem orphansCounted_trd (i : Slot) (k : Nat) (d : Dev) : (orphansCounted i k d).trd =
    (d.slotMod i fun x => { x with orphans := x.orphans + k }).trd := by
  rw [(orphansCounted_regsOnly i k d).1]

section
variable (i : Slot) (k : Nat) (d : Dev)

theorem reportOrphans_withFault : Dev.withFault [TRD_ORPHANS, SHD_ORPHANS] { d with trd := (reportOrphans i k d).trd }
    (reportOrphans i k d) := by
  rcases reportOrphans_cases i k d with h | h <;> rw [h]
  · exact withEvent_fault (withEvent_refl d _)
  · obtain ⟨honly, -⟩ := faultEvent_spec 0x37 sevInfo i.val 108 (orphansCounted i k d) (by decide) (by decide)
    have htrd := honly.within.frame.2 .trd rfl
    refine withFault_of ?_ honly
    rw [show (faultEvent 0x37 sevInfo i.val 108 (orphansCounted i k d)).trd = _ from htrd, orphansCounted_trd]
    exact orphansCounted_regsOnly i k d

theorem reportOrphans_keepsPending : d.keepsPending (reportOrphans i k d) := by
  rcases reportOrphans_cases i k d with h | h <;> rw [h]
  · exact keepsPending_refl d
  · refine keepsPending_trans ?_ (keepsPending_faultEvent (by decide) (by decide) _ _ _)
    intro e he hp
    rw [Dev.pends, (orphansCounted_regsOnly i k d).2]
    · exact hp
    · simp only [EVT_PEND, TRD_ORPHANS, SHD_ORPHANS, List.mem_cons, List.not_mem_nil, or_false]
      omega

/-- Of the slots the report of orphans changes their counts alone. -/
theorem reportOrphans_stream (j : Slot) : (vat (reportOrphans i k d).trd.slots j).stream = (vat d.trd.slots j).stream := by
  rcases reportOrphans_cases i k d with h | h <;> rw [h]
  rw [(faultEvent_within 0x37 sevInfo i.val 108 _ (by decide) (by decide)).frame.2 .trd rfl, orphansCounted_trd]
  exact vat_vmod_of d.trd.slots (fun x => { x with orphans := x.orphans + k }) LayerSlot.stream (fun _ => rfl) i j

end

/-! ### Passes that complete (R98, R120, R125) -/

/-- The slot's record with the streams of a completed pass. -/
def LayerSlot.allocated (y : LayerSlot) (streams : Vector (List (List Nat)) 16) (own : Vector Nat 16) (sel : Bool) (inc : Nat) :
    LayerSlot :=
  { y with stream := streams, plan := streams, tOwn := own, selOrder := sel, included := inc, orphans := 0 }

/-- The slot of a completed pass: its streams, and ALLOCATED. -/
def slotAllocated (ps : ShedPass) (a : ShedAcc) (d : Dev) : Dev :=
  let streams := Vector.ofFn fun n => streamOf (d.on SHD_CTRL_SEL_ORDER) (vat (vat d.trd.slots ps.slot).own n) (a.list n)
  setSlotState ps.slot 4 ((d.shdMod fun y => { y with pass := none }).slotMod ps.slot (·.allocated streams ps.finish
    (d.on SHD_CTRL_SEL_ORDER) (0xFFFF - ps.excluded % 0x10000)))

/-- A pass whose slot is still ALLOCATING and has room completes. -/
theorem allocDone_completes {ps : ShedPass} {a : ShedAcc} {moved skipped : Nat} {d : Dev} (hpass : d.shd.pass = some ps)
    (hnew : ps.again = false) (hres : passResult d ps = (a, moved, skipped)) (hstate : d.slotState ps.slot = 3)
    (hcalm : (vat d.flt.recovery 18).any (·.code == 0x11) = false)
    (hroom : divUp (leAt (vat d.trd.slots ps.slot).header 0x2C 4) 4096 * 4096 +
      ((List.finRange 16).map fun n => 32 * (vat a.out n).length).sum ≤ d.reg TRD_SLOT_SIZE % 4096 * 1048576) :
    allocDone d = reportOrphans ps.slot a.orphans
      (occur 112 ps.slot.val 0 (passReport ps a moved skipped (slotAllocated ps a d))) := by
  unfold allocDone
  rw [hpass]
  dsimp only
  rw [if_neg (by rw [hnew]; decide), hres]
  dsimp only
  set u := d.shdMod fun y => { y with pass := none } with hu
  have hcalm' : ¬ (vat u.flt.recovery 18).any (·.code == 0x11) = true := by
    rw [hu, show (vat (d.shdMod _).flt.recovery 18).any (·.code == 0x11) = false from hcalm]
    decide
  have hstate' : u.slotState ps.slot = 3 := hstate
  have hroom' : divUp (leAt (vat d.trd.slots ps.slot).header 0x2C 4) 4096 * 4096 +
      ((List.finRange 16).map fun n => 32 * (vat a.out n).length).sum ≤ u.reg TRD_SLOT_SIZE % 4096 * 1048576 := hroom
  rw [if_neg hcalm', if_neg (not_not.2 hstate'), if_neg (Nat.not_lt.2 hroom')]
  rfl

section
variable (ps : ShedPass) (a : ShedAcc) (d : Dev)

theorem slotAllocated_regsOnly : Dev.regsOnly [slotStatus ps.slot]
    { d with trd := (slotAllocated ps a d).trd, shd := { d.shd with pass := none } } (slotAllocated ps a d) :=
  setSlotState_regsOnly ps.slot 4 _

theorem slotAllocated_own : d.within [.trd, .shd] [20] (slotAllocated ps a d) :=
  within_comp (setSlotState_within _ 4 _) (within_comp (slotMod_within _ _ _) (within_mono (shdMod_within _ d) rfl rfl)
    rfl rfl) rfl rfl

theorem slotAllocated_slotState : (slotAllocated ps a d).slotState ps.slot = 4 := slotState_setSlotState _ (by decide) _

theorem slotAllocated_stream (n : Station) : vat (vat (slotAllocated ps a d).trd.slots ps.slot).stream n =
    streamOf (d.on SHD_CTRL_SEL_ORDER) (vat (vat d.trd.slots ps.slot).own n) (a.list n) := by
  have hslot : vat (slotAllocated ps a d).trd.slots ps.slot = _ := slotMod_slot_same ps.slot _ _
  rw [hslot]
  exact Vector.getElem_ofFn n.isLt

end

/-- A station's tail list stands before the END_OF_LIST of a stream (R120). -/
def tailAdded (tail l : List (List Nat)) : List (List Nat) := l.dropLast ++ tail ++ l.drop (l.length - 1)

/-- The tail lists of a completed pass join the streams of its slot. -/
def tailsStreamed (ps : ShedPass) (a : ShedAcc) (d : Dev) : Dev :=
  (List.finRange 16).foldl (fun (t : Dev) (n : Station) =>
    if (vat ps.tails n ++ a.list n).isEmpty then t
    else t.slotMod ps.slot fun y => { y with
      stream := vmod y.stream n (tailAdded (vat ps.tails n ++ a.list n)),
      plan := vmod y.plan n (tailAdded (vat ps.tails n ++ a.list n)) }) d

theorem tailsStreamed_own (ps : ShedPass) (a : ShedAcc) (d : Dev) : d.within [.trd] [] (tailsStreamed ps a d) :=
  within_foldl _ _ (fun u _ => within_ite (within_refl _ _ u) (slotMod_within _ _ u)) (within_refl _ _ d)

/-- The pick bobbins are filled from the streams. -/
def feedAll (d : Dev) : Dev := (List.finRange 16).foldl (fun (u : Dev) (n : Station) => feed n u) d

theorem reallocDone_completes {ps : ShedPass} {a : ShedAcc} {moved skipped : Nat} {d : Dev} (hpass : d.shd.pass = some ps)
    (hagain : ps.again = true) (hres : passResult d ps = (a, moved, skipped)) :
    reallocDone d = feedAll (occur 114 ps.slot.val 0 (reportOrphans ps.slot a.orphans
      (passReport ps a moved skipped (tailsStreamed ps a (d.shdMod fun y => { y with pass := none }))))) := by
  unfold reallocDone
  rw [hpass]
  dsimp only
  rw [if_neg (by rw [hagain]; decide), hres]
  rfl

/-! ### Bobbins that are filled keep what is pending -/

/-- The registers of a bobbin lie in block 3. -/
theorem keepsPending_bobEvent {e : Nat} (he : e < 256) (b code : Nat) (d : Dev) : d.keepsPending (bobEvent b e code d) :=
  keepsPending_trans (keepsPending_setReg d (by decide) b) (keepsPending_occur he b code _)

theorem keepsPending_watermark {b e : Nat} (hb : b < 128) {d t : Dev} (he : e < 256) (c : Prop) [Decidable c] (ev : Bool)
    (h : d.keepsPending t) : d.keepsPending
      (if c then (if ev then bobEvent b e 0 (t.put (CRLB_STATUS_WM b) 1) else t.put (CRLB_STATUS_WM b) 1) else t) := by
  have hflag : d.keepsPending (t.put (CRLB_STATUS_WM b) 1) :=
    keepsPending_trans h (keepsPending_put t (by simp only [CRLB_STATUS]; omega) 1)
  exact keepsPending_ite _ (keepsPending_ite _ (keepsPending_trans hflag (keepsPending_bobEvent he b 0 _)) hflag) h

theorem bobCheck_keepsPending {b : Nat} (hb : b < 128) (old : Nat) (d : Dev) : d.keepsPending (bobCheck b old d) := by
  have status {t : Dev} (h : d.keepsPending t) {f : Field} (hf : f.addr = CRLB_STATUS b) (v : Nat) :
      d.keepsPending (t.put f v) :=
    keepsPending_trans h (keepsPending_put t (by rw [hf]; simp only [CRLB_STATUS]; omega) v)
  unfold bobCheck
  extract_lets s1 now hi lo ev s2 s3 s4 s5 panicking on off
  have h1 : d.keepsPending s1 := keepsPending_put d (by simp only [CRLB_FILL]; omega) _
  have h3 : d.keepsPending s3 := keepsPending_watermark hb (by decide) _ _ h1
  have h5 : d.keepsPending s5 := keepsPending_watermark hb (by decide) _ _ h3
  exact keepsPending_ite _ (keepsPending_ite _ (status h5 rfl 0) h5)
    (keepsPending_ite _ (keepsPending_trans (status (status h5 rfl 1) rfl 1) (keepsPending_bobEvent (by decide) b 0 _)) h5)

theorem bobOverflow_keepsPending {b : Nat} (hb : b < 128) (d : Dev) : d.keepsPending (bobOverflow b d) := by
  unfold bobOverflow
  extract_lets u
  have hu : d.keepsPending u := keepsPending_trans
    (keepsPending_count d (by simp only [CRLB_OVF]; omega) 1) (keepsPending_put _ (by simp only [CRLB_STATUS]; omega) 1)
  split
  · exact hu
  · exact keepsPending_trans hu (keepsPending_trans
      (faultD_faultOnly 0x14 sevInfo b 0 0 { u with crl := { u.crl with ovfSeen := b :: u.crl.ovfSeen } } (by decide)).keepsPending
      (keepsPending_bobEvent (by decide) b 0x14 _))

theorem bobMakeRoom_keepsPending {b : Nat} (hb : b < 128) (k : Nat) (d : Dev) : d.keepsPending (bobMakeRoom b k d) := by
  unfold bobMakeRoom
  extract_lets n need
  exact keepsPending_ite _ (keepsPending_refl d) (keepsPending_trans
    (keepsPending_put d (by simp only [CRLB_RD]; omega) _) (keepsPending_count _ (by simp only [CRLB_OVF]; omega) _))

theorem bobPush_keepsPending {b : Nat} (hb : b < 128) (bs : List Byte) (d : Dev) : d.keepsPending (bobPush b bs d).2 := by
  unfold bobPush
  extract_lets k n policy u old wr v
  have hu : d.keepsPending u := keepsPending_ite _ (bobMakeRoom_keepsPending hb k d) (keepsPending_refl d)
  split
  · exact keepsPending_refl d
  split
  · exact keepsPending_ite _ (keepsPending_trans hu (bobOverflow_keepsPending hb u)) hu
  · have hv : d.keepsPending v := keepsPending_trans hu (within_keepsPending (bobStore_within b k wr bs u) rfl)
    exact keepsPending_trans hv (keepsPending_trans (keepsPending_put v (by simp only [CRLB_WR]; omega) _)
      (bobCheck_keepsPending hb old _))

theorem feedN_keepsPending (n : Station) (k : Nat) (d : Dev) : d.keepsPending (feedN n k d) := by
  induction k generalizing d with
  | zero => exact keepsPending_refl d
  | succ k ih =>
    unfold feedN
    split
    · exact keepsPending_refl d
    · next w t _ =>
      split
      · exact keepsPending_refl d
      · have hpush := bobPush_keepsPending (b := n.val) (by omega) (wordsBytes (w.take 8)) d
        generalize bobPush n.val (wordsBytes (w.take 8)) d = r at hpush ⊢
        refine keepsPending_trans ?_ (ih _)
        split
        · exact hpush
        · exact hpush

theorem feedAll_keepsPending (d : Dev) : d.keepsPending (feedAll d) :=
  keepsPending_foldl _ (fun u n => feedN_keepsPending n _ u) _ d

/-- Pick bobbins lie in block 3; their events are logged. -/
theorem feedAll_own (d : Dev) : d.within [.ev, .flt, .wal, .trd, .creel, .dof, .crl, .mpl] [2, 3, 18] (feedAll d) :=
  within_foldl _ _ (fun u n => feed_within n u) (within_refl _ _ d)

/-! ### A re-allocation pass that starts (R118, R121) -/

/-- The stream of station `n` ends, and what it had queued and planned is dropped. -/
def streamEnded (n : Station) (d : Dev) : Dev :=
  setStream n [] (d.shtMod n fun x => { x with queue := [], plan := [], sawEnd := true })

theorem streamEnded_shtl_same (n : Station) (d : Dev) :
    (streamEnded n d).shtl n = { d.shtl n with queue := [], plan := [], sawEnd := true } := vat_vmod_same _ _ _

theorem streamEnded_shtl_ne {n k : Station} (h : k ≠ n) (d : Dev) : (streamEnded n d).shtl k = d.shtl k := vat_vmod_ne _ _ h

theorem streamEnded_rest (n : Station) (d : Dev) :
    streamEnded n d = { d with trd := (streamEnded n d).trd, sht := (streamEnded n d).sht } := rfl

/-- The streams of the stations listed end. -/
def streamsEnded (l : List Station) (d : Dev) : Dev := l.foldl (fun (t : Dev) n => streamEnded n t) d

theorem streamsEnded_rest (l : List Station) (d : Dev) :
    streamsEnded l d = { d with trd := (streamsEnded l d).trd, sht := (streamsEnded l d).sht } := by
  induction l generalizing d with
  | nil => rfl
  | cons n l ih =>
    have h := ih (streamEnded n d)
    rw [streamEnded_rest n d] at h
    exact h

theorem streamsEnded_shtl_mem {l : List Station} {n : Station} (h : n ∈ l) (d : Dev) :
    ((streamsEnded l d).shtl n).queue = [] ∧ ((streamsEnded l d).shtl n).plan = [] ∧
      ((streamsEnded l d).shtl n).sawEnd = true := by
  have hstay (m : List Station) (u : Dev) (hu : (u.shtl n).queue = [] ∧ (u.shtl n).plan = [] ∧ (u.shtl n).sawEnd = true) :
      ((streamsEnded m u).shtl n).queue = [] ∧ ((streamsEnded m u).shtl n).plan = [] ∧
        ((streamsEnded m u).shtl n).sawEnd = true := by
    induction m generalizing u with
    | nil => exact hu
    | cons k m ih =>
      refine ih _ ?_
      by_cases hk : n = k
      · subst hk
        rw [streamEnded_shtl_same]
        exact ⟨rfl, rfl, rfl⟩
      · rwa [streamEnded_shtl_ne hk]
  induction l generalizing d with
  | nil => exact absurd h (by simp)
  | cons k l ih =>
    rcases List.mem_cons.1 h with rfl | h
    · exact hstay l _ (by rw [streamEnded_shtl_same]; exact ⟨rfl, rfl, rfl⟩)
    · exact ih h _

theorem streamsEnded_shtl_not_mem {l : List Station} {n : Station} (h : n ∉ l) (d : Dev) :
    (streamsEnded l d).shtl n = d.shtl n := by
  induction l generalizing d with
  | nil => rfl
  | cons k l ih =>
    obtain ⟨hk, hl⟩ := not_or.1 (List.mem_cons.not.1 h)
    exact (ih hl _).trans (streamEnded_shtl_ne hk d)

theorem streamsEnded_own (l : List Station) (d : Dev) : d.within [.trd, .sht] [] (streamsEnded l d) :=
  within_foldl _ _ (fun u n => within_comp (slotMod_within _ _ _) (within_mono (shtMod_within n _ u) rfl rfl) rfl rfl)
    (within_refl _ _ d)

/-- The stations of a set. -/
def stationsOf (m : Nat) : List Station := (List.finRange 16).filter fun n => bit m n.val

theorem mem_stationsOf {m : Nat} {n : Station} : n ∈ stationsOf m ↔ bit m n.val = true := by
  simp [stationsOf]

/-- What stands when the re-allocation pass begins: the streams ended, the picks skipped counted, the request taken. -/
def reallocTaken (skipped : Nat) (d : Dev) : Dev :=
  ((streamsEnded (stationsOf d.shd.request) d).count SHD_SKIPPED skipped).shdMod fun x => { x with request := 0 }

/-- With no pass running, the work of retired stations starts a pass on the active slot. -/
theorem reallocStart_begins (placed : Nat) {d : Dev} (hreq : d.shd.request ≠ 0) (hactive : d.layerActive = true)
    (hpass : d.shd.pass = none) (hs : d.shadow = []) : ∃ (ps : ShedPass) (skipped : Nat), ps.again = true ∧
      ps.slot = d.activeSlot ∧
      reallocStart placed d = occur 113 d.activeSlot.val 0 (passBegin ps (reallocTaken skipped d)) := by
  unfold reallocStart
  rw [if_neg (by simp [hreq, hactive]), hpass]
  dsimp only
  rw [commit_nil hs]
  exact ⟨_, _, rfl, rfl, rfl⟩

theorem reallocTaken_regsOnly (skipped : Nat) (d : Dev) : Dev.regsOnly [SHD_SKIPPED]
    { d with trd := (reallocTaken skipped d).trd, sht := (reallocTaken skipped d).sht, shd := (reallocTaken skipped d).shd }
    (reallocTaken skipped d) := by
  have h := regsOnly_count (streamsEnded (stationsOf d.shd.request) d) SHD_SKIPPED skipped
  have hrest := streamsEnded_rest (stationsOf d.shd.request) d
  have hregs : (streamsEnded (stationsOf d.shd.request) d).regs = d.regs := by rw [hrest]
  refine ⟨?_, fun a ha => (h.2 a ha).trans (by simp only [Dev.reg, hregs])⟩
  simp only [reallocTaken, Dev.shdMod, Dev.count, Dev.setReg]
  rw [hrest]

theorem reallocTaken_shtl (skipped : Nat) (d : Dev) (n : Station) :
    (reallocTaken skipped d).shtl n = (streamsEnded (stationsOf d.shd.request) d).shtl n := rfl

theorem reallocTaken_own (skipped : Nat) (d : Dev) : d.within [.trd, .sht, .shd] [7] (reallocTaken skipped d) :=
  within_comp (shdMod_within _ _) (within_comp (count_within _ SHD_SKIPPED skipped 7 rfl (.inl (by decide)))
    (within_mono (streamsEnded_own _ d) rfl rfl) rfl rfl) rfl rfl

theorem passBegin_own (ps : ShedPass) (d : Dev) : d.within [.shd] [7] (passBegin ps d) := by
  have hset {u : Dev} {r : Nat} (hr : r / 0x10000 = 7) (h : d.within [] [7] u) : d.within [] [7] (u.setReg r 0) :=
    within_comp (setReg_within u r 0 7 hr (.inl (by decide))) h rfl rfl
  have hput {u : Dev} (f : Field) (v : Nat) (hf : f.addr / 0x10000 = 7) (h : d.within [] [7] u) :
      d.within [] [7] (u.put f v) :=
    within_comp (put_within u f v 7 hf (.inl (by decide))) h rfl rfl
  have hcount : d.within [] [7] (passCounters d) := hset rfl (hset rfl (hset rfl (hset rfl (hset rfl (within_refl _ _ d)))))
  have hstatus : d.within [] [7] (((passCounters d).put SHD_STATUS_SLOT ps.slot.val).put SHD_STATUS_PASS
      (if ps.again then 2 else 1)) := hput _ _ rfl (hput _ _ rfl hcount)
  unfold passBegin
  exact within_comp (shdMod_within _ _) (within_mono hstatus rfl rfl) rfl rfl

/-! ### Holds of the monitor that end (R113, R116) -/

/-- The mask that SHD_MON_HELD shows. -/
def heldMask (d : Dev) : Nat :=
  (List.finRange 16).foldl (fun (m : Nat) (n : Station) => if (d.shtl n).held then m + 2 ^ n.val else m) 0

theorem release_idle {n : Station} {d : Dev} (h : (d.shtl n).held = false) : release n d = d := by
  rw [release, if_neg (by simp [h])]

/-- The Shuttle of station `n` is not held. -/
def shuttleFreed (n : Station) (d : Dev) : Dev := d.shtMod n fun x => { x with held := false, blank := false }

/-- A hold that ends: the Shuttle is free, E119 occurs, and the mask is shown. -/
theorem release_held {n : Station} {d : Dev} (h : (d.shtl n).held = true) :
    release n d = showHeld (occur 119 n.val 0 (shuttleFreed n d)) := by
  rw [release, if_pos h]
  rfl

theorem showHeld_reg (d : Dev) : (showHeld d).reg SHD_MON_HELD = heldMask d % 2 ^ 32 := reg_setReg_same d _ _

section
variable (n : Station) (d : Dev)

theorem release_sht (h : (d.shtl n).held = true) : (release n d).sht = (shuttleFreed n d).sht := by
  rw [release_held h]
  exact (occur_within 119 n.val 0 (shuttleFreed n d) (by decide)).frame.2 .sht rfl

theorem release_held_same : ((release n d).shtl n).held = false := by
  rcases Bool.eq_false_or_eq_true (d.shtl n).held with h | h
  · rw [Dev.shtl, release_sht n d h]
    exact congrArg Shuttle.held (vat_vmod_same d.sht _ n)
  · rwa [release_idle h]

theorem release_held_ne {k : Station} (h : k ≠ n) : (release n d).shtl k = d.shtl k := by
  rcases Bool.eq_false_or_eq_true (d.shtl n).held with hn | hn
  · rw [Dev.shtl, release_sht n d hn]
    exact vat_vmod_ne d.sht _ h
  · rw [release_idle hn]

theorem release_withEvent : Dev.withEvent [SHD_MON_HELD] { d with sht := (release n d).sht } (release n d) := by
  rcases Bool.eq_false_or_eq_true (d.shtl n).held with h | h
  · have hfreed : { d with sht := (release n d).sht } = shuttleFreed n d := by rw [release_sht n d h]; rfl
    rw [hfreed, release_held h]
    exact withEvent_trans (withEvent_of (regsOnly_refl _ []) (occur_eventOnly 119 n.val 0 (shuttleFreed n d) (by decide)))
      (withEvent_of (regsOnly_setReg _ SHD_MON_HELD _) (EventOnly.refl _))
  · rw [release_idle h]
    exact withEvent_refl d _

theorem release_keepsPending : d.keepsPending (release n d) := by
  rcases Bool.eq_false_or_eq_true (d.shtl n).held with h | h
  · rw [release_held h]
    exact keepsPending_trans (keepsPending_occur (by decide) n.val 0 (shuttleFreed n d)) (keepsPending_setReg _ (by decide) _)
  · rw [release_idle h]
    exact keepsPending_refl d

theorem release_pends (h : (d.shtl n).held = true) : (release n d).pends 119 := by
  rw [release_held h]
  exact keepsPending_setReg _ (by decide) _ 119 (by decide) (occur_pends 119 n.val 0 _ (by decide))

/-- Once a hold has ended, SHD_MON_HELD shows the stations held. -/
theorem release_shown (h : (d.shtl n).held = true ∨ d.reg SHD_MON_HELD = heldMask d % 2 ^ 32) :
    (release n d).reg SHD_MON_HELD = heldMask (release n d) % 2 ^ 32 := by
  rcases Bool.eq_false_or_eq_true (d.shtl n).held with hn | hn
  · rw [release_held hn, showHeld_reg]
    rfl
  · rw [release_idle hn]
    exact h.resolve_left (by simp [hn])

end

/-- The holds of the stations listed end. -/
def releaseList (l : List Station) (d : Dev) : Dev := l.foldl (fun (t : Dev) n => release n t) d

theorem releaseList_idle {l : List Station} {d : Dev} (h : ∀ k : Station, (d.shtl k).held = false) :
    releaseList l d = d := by
  induction l with
  | nil => rfl
  | cons n l ih =>
    rw [releaseList, List.foldl_cons, release_idle (h n)]
    exact ih

theorem releaseList_held {l : List Station} {k : Station} (h : k ∈ l) (d : Dev) :
    ((releaseList l d).shtl k).held = false := by
  have hstay (m : List Station) (u : Dev) (hu : (u.shtl k).held = false) : ((releaseList m u).shtl k).held = false := by
    induction m generalizing u with
    | nil => exact hu
    | cons n m ih =>
      refine ih _ ?_
      by_cases hk : k = n
      · rw [hk]; exact release_held_same n u
      · rw [release_held_ne n u hk]; exact hu
  induction l generalizing d with
  | nil => exact absurd h (by simp)
  | cons n l ih =>
    rcases List.mem_cons.1 h with rfl | h
    · exact hstay l _ (release_held_same k d)
    · exact ih h _

/-- The end of a hold that stood is told, and the mask then shows who is held. -/
theorem releaseList_told {l : List Station} {k : Station} (h : k ∈ l) {d : Dev} (hk : (d.shtl k).held = true) :
    (releaseList l d).pends 119 ∧ (releaseList l d).reg SHD_MON_HELD = heldMask (releaseList l d) % 2 ^ 32 := by
  have hstay (m : List Station) (u : Dev) (hu : u.pends 119 ∧ u.reg SHD_MON_HELD = heldMask u % 2 ^ 32) :
      (releaseList m u).pends 119 ∧ (releaseList m u).reg SHD_MON_HELD = heldMask (releaseList m u) % 2 ^ 32 := by
    induction m generalizing u with
    | nil => exact hu
    | cons n m ih => exact ih _ ⟨release_keepsPending n u 119 (by decide) hu.1, release_shown n u (.inr hu.2)⟩
  induction l generalizing d with
  | nil => exact absurd h (by simp)
  | cons n l ih =>
    by_cases hn : k = n
    · subst hn
      exact hstay l _ ⟨release_pends k d hk, release_shown k d (.inl hk)⟩
    · exact ih ((List.mem_cons.1 h).resolve_left hn) (by rw [release_held_ne n d hn]; exact hk)

/-- Changes of the Shuttles made one after the other touch, beside them, what either touches. -/
theorem withEvent_sht {d t u : Dev} {L M : List Nat} {x y : Vector Shuttle 16} (h : Dev.withEvent L { d with sht := x } t)
    (k : Dev.withEvent M { t with sht := y } u) : Dev.withEvent (L ++ M) { d with sht := y } u :=
  withEvent_trans (t := { t with sht := y }) ⟨by rw [h.1], h.2⟩ k

theorem releaseList_withEvent (l : List Station) (d : Dev) :
    Dev.withEvent [SHD_MON_HELD] { d with sht := (releaseList l d).sht } (releaseList l d) := by
  induction l generalizing d with
  | nil => exact withEvent_refl d _
  | cons n l ih =>
    exact withEvent_mono (withEvent_sht (release_withEvent n d) (ih (release n d))) (by simp)

theorem heldMask_zero {d : Dev} (h : ∀ k : Station, (d.shtl k).held = false) : heldMask d = 0 := by
  simp [heldMask, h]

/-! ### The statement -/

/-- A report of orphans keeps what the slots show. -/
theorem reportOrphans_slotState (i : Slot) (k : Nat) (d : Dev) (j : Slot) :
    (reportOrphans i k d).slotState j = d.slotState j :=
  slotState_congr ((reportOrphans_withFault i k d).2 _ (by
    simp only [List.mem_cons, List.not_mem_nil, or_false, not_or]
    exact ⟨slotStatus_ne j (by decide), slotStatus_ne j (by decide)⟩) (faultReg_slotStatus j))

/-- A change of registers before one of the Shed. -/
theorem regsOnly_thenShd {d t u : Dev} {L M : List Nat} {y : Shed} (h : d.regsOnly L t)
    (k : Dev.regsOnly M { t with shd := y } u) : Dev.regsOnly (L ++ M) { d with shd := y } u :=
  regsOnly_trans (t := { t with shd := y }) ⟨by rw [h.1], h.2⟩ k

/-- A change of registers before one of the Shuttles. -/
theorem withEvent_thenSht {d t u : Dev} {L M : List Nat} {y : Vector Shuttle 16} (h : d.regsOnly L t)
    (k : Dev.withEvent M { t with sht := y } u) : Dev.withEvent (L ++ M) { d with sht := y } u :=
  withEvent_sht (x := d.sht) (withEvent_of h (EventOnly.refl t)) k

/-- MON_EN = 0 with a station held: every hold ends, and the mask shows none (R131). -/
theorem monitorOff_held {n : Station} {d : Dev} (h : (d.shtl n).held = true) :
    (monitorOff d).on SHD_MON_CTRL_MON_EN = false ∧ (monitorOff d).pends 119 ∧
      (∀ k : Station, ((monitorOff d).shtl k).held = false) ∧ (monitorOff d).reg SHD_MON_HELD = 0 ∧
      Dev.withEvent [SHD_MON_CTRL, SHD_MON_HELD] { d with sht := (monitorOff d).sht } (monitorOff d) := by
  have hoff : (d.put SHD_MON_CTRL_MON_EN 0).get SHD_MON_CTRL_MON_EN = 0 := get_put_same _ _ _ (by decide) (by decide)
  have hput := regsOnly_put d SHD_MON_CTRL_MON_EN 0
  have hheld : ((d.put SHD_MON_CTRL_MON_EN 0).shtl n).held = true := h
  rw [show monitorOff d = releaseList (List.finRange 16) (d.put SHD_MON_CTRL_MON_EN 0) from rfl]
  generalize d.put SHD_MON_CTRL_MON_EN 0 = u at hoff hput hheld ⊢
  have hfree (k : Station) : ((releaseList (List.finRange 16) u).shtl k).held = false :=
    releaseList_held (List.mem_finRange k) u
  obtain ⟨hpend, hshown⟩ := releaseList_told (List.mem_finRange n) hheld
  have hrest := releaseList_withEvent (List.finRange 16) u
  generalize releaseList (List.finRange 16) u = t at hfree hpend hshown hrest ⊢
  refine ⟨?_, hpend, hfree, by rw [hshown, heldMask_zero hfree, Nat.zero_mod], withEvent_thenSht hput hrest⟩
  have hreg : t.reg SHD_MON_CTRL = u.reg SHD_MON_CTRL := hrest.2 SHD_MON_CTRL (by decide) (by decide)
  rw [Dev.get] at hoff
  rw [Dev.on, Dev.get, hreg, hoff]
  rfl

/-- The registers that an allocation pass may set, in the order of the statement. -/
theorem allocRegs_subset : ∀ i : Slot, [slotStatus i] ++ (reportRegs ++ [SHD_FLAGS]) ++ [TRD_ORPHANS, SHD_ORPHANS] ⊆
    [SHD_PICKS_DONE, SHD_WAITS, SHD_UNRESOLVED, SHD_SEAMS, SHD_SEAM_SKIP, SHD_STATUS, SHD_FLAGS, SHD_ORPHANS,
      TRD_ORPHANS, slotStatus i] ++ (List.range 16).map SHD_EST := by
  decide

/-- Settles O17: each command of the Shed is one operation, whose rules stand above. -/
theorem shedCommands : Obligations.ShedCommands := by
  unfold Obligations.ShedCommands
  intro i ps a moved skipped n placed s hrun hc
  refine ⟨?start, ?alloc, ?realloc, ?again, ?starve, ?none, ?held⟩
  case start =>
    intro hpass hnext hs hlen
    obtain ⟨p, hnew, hslot, hex, hdo⟩ := shedStart_begins hpass hnext hs hlen
    have hown := within_comp (passBegin_own p (setSlotState i 3 s.dev)) (within_mono (setSlotState_within i 3 s.dev) rfl rfl)
      (P := [.shd]) (B := [7, 20]) rfl rfl
    have hregs := passBegin_regsOnly p (setSlotState i 3 s.dev)
    refine ⟨_, actIn_of_eq hrun hdo (hown.calm hc).1, ?_, ?_, ?_, ⟨p, rfl, hnew, hslot, hex⟩, ?_, ?_, ?_, ?_, ?_⟩
    · exact (slotState_within (passBegin_own p _) rfl i).trans (slotState_setSlotState i (by decide) s.dev)
    · rw [passBegin_status, hnew]; rfl
    · rw [passBegin_slot, hslot]
    · exact passBegin_counter (by simp [passRegs]) p _
    · exact passBegin_counter (by simp [passRegs]) p _
    · exact passBegin_counter (by simp [passRegs]) p _
    · exact passBegin_counter (by simp [passRegs]) p _
    · exact regsOnly_thenShd (setSlotState_regsOnly i 3 s.dev) hregs
  case alloc =>
    intro hpass hnew hres hstate hcalm hroom
    set u := slotAllocated ps a s.dev with hu
    set v := passReport ps a moved skipped u with hv
    set w := occur 112 ps.slot.val 0 v with hw
    have hdo : allocDone s.dev = reportOrphans ps.slot a.orphans w := allocDone_completes hpass hnew hres hstate hcalm hroom
    have hown : u.within [.ev, .flt, .wal, .dof, .mpl] [2, 7, 18] w :=
      within_comp (occur_within 112 _ _ v (by decide)) (passReport_own ps a moved skipped u) rfl rfl
    have hall : s.dev.within [.ev, .flt, .wal, .dof, .mpl, .trd, .shd] [2, 7, 18, 20] (reportOrphans ps.slot a.orphans w) :=
      within_comp (reportOrphans_within _ _ w) (within_comp hown (within_mono (slotAllocated_own ps a s.dev) rfl rfl)
        rfl rfl) rfl rfl
    have hshd : (reportOrphans ps.slot a.orphans w).shd = u.shd :=
      ((reportOrphans_within _ _ w).frame.2 .shd rfl).trans (hown.frame.2 .shd rfl)
    have hrep : Dev.withFault ([slotStatus ps.slot] ++ (reportRegs ++ [SHD_FLAGS]))
        { s.dev with trd := u.trd, shd := { s.dev.shd with pass := none } } w :=
      withFault_trans (withFault_of (slotAllocated_regsOnly ps a s.dev) (FaultOnly.refl u)) (withFault_mono
        (withFault_trans (passReport_withFault ps a moved skipped u)
          (withEvent_fault (withEvent_of (regsOnly_refl v []) (occur_eventOnly 112 _ _ v (by decide))))) (by simp))
    have horph := reportOrphans_withFault ps.slot a.orphans w
    have hreg {b : Nat} (hb : b ∉ [TRD_ORPHANS, SHD_ORPHANS]) (hf : faultReg b = false) :
        (reportOrphans ps.slot a.orphans w).reg b = v.reg b :=
      (horph.2 b hb hf).trans ((occur_eventOnly 112 _ _ v (by decide)).regs b (eventReg_of_faultReg hf))
    obtain ⟨hdone, hseams, hpassed⟩ := passReport_regs ps a moved skipped u
    refine ⟨_, actIn_of_eq hrun hdo (hall.calm hc).1, ?_, ?_, ?_, ?_, ?_, ?_, ?_, ?_⟩
    · rw [reportOrphans_slotState, slotState_within hown rfl]
      exact slotAllocated_slotState ps a s.dev
    · exact reportOrphans_keepsPending _ _ w 112 (by decide) (occur_pends 112 _ _ v (by decide))
    · rw [hshd]
      rfl
    · rw [Dev.get, hreg (by decide) (by decide)]
      exact hpassed
    · exact (hreg (by decide) (by decide)).trans hdone
    · exact (hreg (by decide) (by decide)).trans hseams
    · intro k
      rw [reportOrphans_stream, show w.trd = u.trd from hown.frame.2 .trd rfl]
      exact slotAllocated_stream ps a s.dev k
    · have hfinal := withFault_trans (withFault_parts hrep (reportOrphans ps.slot a.orphans w).trd w.shd) horph
      rw [show w.shd = (reportOrphans ps.slot a.orphans w).shd from
        ((reportOrphans_within _ _ w).frame.2 .shd rfl).symm] at hfinal
      exact withFault_mono hfinal (allocRegs_subset ps.slot)
  case realloc =>
    intro hpass hagain hres
    have hdo := reallocDone_completes hpass hagain hres
    set u := tailsStreamed ps a (s.dev.shdMod fun y => { y with pass := none }) with hu
    set v := passReport ps a moved skipped u with hv
    set w := occur 114 ps.slot.val 0 (reportOrphans ps.slot a.orphans v) with hw
    have hu' : s.dev.within [.trd, .shd] [] u :=
      within_comp (tailsStreamed_own ps a _) (within_mono (shdMod_within _ s.dev) rfl rfl) rfl rfl
    have hv' : u.within [.ev, .flt, .wal, .dof, .mpl] [2, 7, 18] v := passReport_own ps a moved skipped u
    have hw' : v.within [.ev, .flt, .wal, .trd, .dof, .mpl] [2, 7, 18, 20] w :=
      within_comp (occur_within 114 _ _ _ (by decide)) (within_mono (reportOrphans_within _ _ v) rfl rfl) rfl rfl
    have hall : s.dev.within [.trd, .shd, .creel, .crl, .ev, .wal, .flt, .dof, .mpl] [2, 3, 7, 18, 20] (feedAll w) :=
      within_comp (feedAll_own w) (within_comp hw' (within_comp hv' (within_mono hu' rfl rfl) rfl rfl) rfl rfl) rfl rfl
    have hreg {b : Nat} (hblock : [2, 3, 18].contains (b / 0x10000) = false) (hb : b ∉ [TRD_ORPHANS, SHD_ORPHANS])
        (hf : faultReg b = false) : (feedAll w).reg b = v.reg b :=
      ((feedAll_own w).frame.1 b hblock).trans (((occur_eventOnly 114 _ _ _ (by decide)).regs b (eventReg_of_faultReg hf)).trans
        ((reportOrphans_withFault _ _ v).2 b hb hf))
    obtain ⟨hdone, hseams, hpassed⟩ := passReport_regs ps a moved skipped u
    refine ⟨_, actIn_of_eq hrun hdo (hall.calm hc).1, ?_, ?_, ?_, ?_, ?_, hall.frame⟩
    · rw [(feedAll_own w).frame.2 .shd rfl, hw'.frame.2 .shd rfl, hv'.frame.2 .shd rfl,
        (tailsStreamed_own ps a _).frame.2 .shd rfl]
      rfl
    · rw [Dev.get, hreg (by decide) (by decide) (by decide)]
      exact hpassed
    · exact feedAll_keepsPending w 114 (by decide) (occur_pends 114 _ _ _ (by decide))
    · exact (hreg (by decide) (by decide) (by decide)).trans hdone
    · exact (hreg (by decide) (by decide) (by decide)).trans hseams
  case again =>
    intro hreq hactive hpass hs
    obtain ⟨p, k, hagain, hslot, hdo⟩ := reallocStart_begins placed hreq hactive hpass hs
    set u := reallocTaken k s.dev with hu
    have htold := occur_eventOnly 113 s.dev.activeSlot.val 0 (passBegin p u) (by decide)
    have hown : s.dev.within [.trd, .sht, .shd, .ev, .wal] [2, 7, 18] (occur 113 s.dev.activeSlot.val 0 (passBegin p u)) :=
      within_comp htold.within (within_comp (passBegin_own p u) (within_mono (reallocTaken_own k s.dev) rfl rfl) rfl rfl)
        rfl rfl
    have hshd : (occur 113 s.dev.activeSlot.val 0 (passBegin p u)).shd = (passBegin p u).shd := htold.within.frame.2 .shd rfl
    have htrd : (occur 113 s.dev.activeSlot.val 0 (passBegin p u)).trd = u.trd :=
      (htold.within.frame.2 .trd rfl).trans ((passBegin_own p u).frame.2 .trd rfl)
    have hsht : (occur 113 s.dev.activeSlot.val 0 (passBegin p u)).sht = u.sht :=
      (htold.within.frame.2 .sht rfl).trans ((passBegin_own p u).frame.2 .sht rfl)
    have hshtl (m : Station) : (occur 113 s.dev.activeSlot.val 0 (passBegin p u)).shtl m =
        (streamsEnded (stationsOf s.dev.shd.request) s.dev).shtl m := by
      rw [Dev.shtl, hsht]
      exact reallocTaken_shtl k s.dev m
    refine ⟨_, actIn_of_eq hrun hdo (hown.calm hc).1, ?_, ?_, occur_pends 113 _ _ _ (by decide), ?_, ?_, ?_, ?_, ?_⟩
    · rw [hshd]
      rfl
    · rw [get_occur 113 _ _ _ _ (by decide) (by decide), passBegin_status, hagain]
      rfl
    · rw [get_occur 113 _ _ _ _ (by decide) (by decide), passBegin_slot, hslot]
    · rw [hshd]
      exact ⟨p, rfl, hagain, hslot⟩
    · intro hbit
      rw [hshtl]
      exact streamsEnded_shtl_mem (mem_stationsOf.2 hbit) s.dev
    · intro hbit
      rw [hshtl]
      exact streamsEnded_shtl_not_mem (fun h => by simp [mem_stationsOf.1 h] at hbit) s.dev
    · rw [hshd, htrd, hsht]
      have hbegin := withEvent_of (regsOnly_thenShd (reallocTaken_regsOnly k s.dev) (passBegin_regsOnly p u)) htold
      refine withEvent_mono hbegin ?_
      simp [passRegs]
  case starve =>
    intro hheld hstarved hlong
    set u := s.dev.shdMod fun x => { x with starved := vput x.starved n true } with hu
    have hdo : plumeStarve n s.dev = shedFault n.val 0x3B 120 SHD_FLAGS_STARVE u := by
      rw [plumeStarve, if_pos (by simp [hheld, hstarved, hlong])]
      rfl
    have hown := shedFault_own (i := n.val) (code := 0x3B) (e := 120) (f := SHD_FLAGS_STARVE) (by decide) (by decide) rfl u
    have hshd : (shedFault n.val 0x3B 120 SHD_FLAGS_STARVE u).shd = u.shd := hown.frame.2 .shd rfl
    obtain ⟨-, hpend⟩ := faultEvent_spec 0x3B sevInfo n.val 120 (u.put SHD_FLAGS_STARVE 1) (by decide) (by decide)
    refine ⟨_, actIn_of_eq hrun hdo (hown.calm ((shdMod_within _ s.dev).calm hc)).1, ?_, hpend, hshd, ?_⟩
    · rw [shedFault, Dev.on, get_faultEvent _ _ _ _ _ _ (by decide) (by decide) (by decide)]
      exact on_put_one u SHD_FLAGS_STARVE rfl (by decide)
    · rw [hshd]
      exact shedFault_withFault (by decide) (by decide) rfl u
  case none =>
    intro hidle
    have hdo : monitorOff s.dev = s.dev.put SHD_MON_CTRL_MON_EN 0 := releaseList_idle (fun k => hidle k)
    exact actIn_of_eq hrun hdo (calm_put hc SHD_MON_CTRL_MON_EN 0 (by decide)).1
  case held =>
    intro hheld
    exact ⟨_, actIn_of_eq hrun rfl ((monitorOff_within s.dev).calm hc).1, monitorOff_held hheld⟩

end Sys2Proof.Machine

/-!
PROOFS of the layer cycle: what the start of a layer, a recoat step, a capture, the start of SCAN and the close leave,
then the statement.
-/
namespace Sys2Proof.Machine

open Reg

/-! ### A pause that is entered (R78) -/

/-- PAUSED commits nothing. -/
theorem commitsNone_of_ne {st : Nat} (harm : st ≠ tArmed) (hprep : st ≠ tPrep) (d : Dev) :
    d.commitsNone st := .inr ⟨harm, hprep⟩

section
variable (ret : Nat) (d : Dev)

theorem paused_commitsNone : d.commitsNone tPaused := commitsNone_of_ne (by decide) (by decide) d

theorem enterPaused_steady : d.within [.ev, .wal, .chain] [2, 18, 20] (enterPaused ret d) :=
  within_comp (trdEnter_steady (paused_commitsNone _))
    (within_mono (put_within d TRD_STATE_RETURN_STATE ret 20 rfl (.inl (by decide))) rfl rfl) rfl rfl

theorem enterPaused_trdState : (enterPaused ret d).trdState = tPaused :=
  trdEnter_trdState (paused_commitsNone _) (by decide)

theorem enterPaused_return (h : ret < 16) : (enterPaused ret d).get TRD_STATE_RETURN_STATE = ret := by
  rw [enterPaused, trdEnter_get (paused_commitsNone _) _ rfl (by decide) (.inl (by decide)),
    get_put_same _ _ _ (by decide) (by decide)]
  exact Nat.mod_eq_of_lt h

/-- A paused Treadle stands in the stage it returns to. -/
theorem enterPaused_trdStage (h : ret < 16) : (enterPaused ret d).trdStage = ret := by
  rw [Dev.trdStage, if_pos (enterPaused_trdState ret d), enterPaused_return ret d h]

theorem enterPaused_pends : (enterPaused ret d).pends 102 :=
  trdEnter_pends (paused_commitsNone _) (by decide) (fun _ => rfl)

theorem enterPaused_keepsPending : d.keepsPending (enterPaused ret d) :=
  keepsPending_trans (keepsPending_put d (by decide) ret) (trdEnter_keepsPending (paused_commitsNone _))

theorem enterPaused_sends : d.sends (enterPaused ret d) :=
  sends_trans (t := d.put TRD_STATE_RETURN_STATE ret) (sends_of_chain rfl) (trdEnter_sends (paused_commitsNone _))

theorem enterPaused_reg {a : Nat} (ha : a ∉ [TRD_STATE, TRD_TICK_LO, TRD_TICK_HI]) (he : eventReg a = false) :
    (enterPaused ret d).reg a = d.reg a :=
  (trdEnter_reg (paused_commitsNone _) ha he).trans (reg_put_ne _ _ _ (by rintro rfl; simp at ha))

end

/-! ### A recoat move that fails (R72) -/

theorem detects_withChain {code inst : Nat} {d t : Dev} (h : d.detects code inst t) (x : Chain) :
    d.detects code inst { t with chain := x } := h

/-- A pause that is entered keeps what the detection of a fault left. -/
theorem detects_enterPaused {code inst ret : Nat} {d t : Dev} (hc : code < 256) (hdrop : code ≠ 0x88)
    (h : d.detects code inst t) : d.detects code inst (enterPaused ret t) := by
  refine (trdEnter_eventOnly (paused_commitsNone _)).detects hc hdrop ?_
  obtain ⟨hcount, hcode, hinst⟩ := h
  have hreg {a : Nat} (ha : a / 0x10000 = 2) : (trdShown tPaused (t.put TRD_STATE_RETURN_STATE ret)).reg a = t.reg a := by
    refine ((trdShown_regsOnly tPaused _).2 a ?_).trans (reg_put_ne _ _ _ ?_)
    · simp only [List.mem_cons, List.not_mem_nil, or_false, TRD_STATE, TRD_TICK_LO, TRD_TICK_HI]
      omega
    · rintro rfl
      exact absurd ha (by decide)
  refine detects_withChain ⟨?_, ?_, ?_⟩ _
  · rw [hreg (by simp only [EVT_FLT_COUNT]; omega), hcount]
  · rw [hreg (by decide), hcode]
  · rw [hreg (by decide), hinst]

section
variable (m : Axis) (d : Dev)

/-- The fault of a recoat move: the compare is released, the sticky flag set, RECOAT_FAULT detected. -/
def recoatFaulted (m : Axis) (d : Dev) : Dev :=
  faultEvent 0x36 sevInfo m.val 107 (cmpRelease d.profilePin (d.put TRD_STATUS_RECOAT_FAULT 1))

theorem recoatFail_eq : recoatFail m d = enterPaused tRecoat (recoatFaulted m d) := rfl

theorem recoatFaulted_own : d.within [.pins, .ev, .flt, .wal, .dof, .mpl] [2, 9, 18, 20] (recoatFaulted m d) :=
  within_comp (faultEvent_within 0x36 sevInfo m.val 107 _ (by decide) (by decide)) (within_comp (cmpRelease_within _ _)
    (within_mono (put_within d TRD_STATUS_RECOAT_FAULT 1 20 rfl (.inl (by decide))) rfl rfl) rfl rfl) rfl rfl

theorem recoatFail_own : d.within [.pins, .ev, .flt, .wal, .dof, .mpl, .chain] [2, 9, 18, 20] (recoatFail m d) :=
  within_comp (enterPaused_steady tRecoat _) (within_mono (recoatFaulted_own m d) rfl rfl) rfl rfl

theorem recoatFail_trdStage : (recoatFail m d).trdStage = tRecoat := enterPaused_trdStage tRecoat _ (by decide)

/-- A failed recoat move is shown, detected and told. -/
theorem recoatFail_told : (recoatFail m d).on TRD_STATUS_RECOAT_FAULT = true ∧ d.detects 0x36 m.val (recoatFail m d) ∧
    (recoatFail m d).pends 107 := by
  set u := cmpRelease d.profilePin (d.put TRD_STATUS_RECOAT_FAULT 1) with hu
  have hrel : (d.put TRD_STATUS_RECOAT_FAULT 1).within [.pins] [9] u := cmpRelease_within _ _
  obtain ⟨honly, hpend⟩ := faultEvent_spec 0x36 sevInfo m.val 107 u (by decide) (by decide)
  refine ⟨?_, detects_enterPaused (by decide) (by decide) ?_, enterPaused_keepsPending _ _ 107 (by decide) hpend⟩
  · have hreg : (recoatFail m d).reg TRD_STATUS = (d.put TRD_STATUS_RECOAT_FAULT 1).reg TRD_STATUS :=
      (enterPaused_reg tRecoat _ (by decide) (by decide)).trans ((honly.regs _ (by decide)).trans (hrel.frame.1 _ (by decide)))
    rw [Dev.on, Dev.get, hreg]
    exact on_put_one d TRD_STATUS_RECOAT_FAULT rfl (by decide)
  · refine detects_of_reg ?_ (faultEvent_detects sevInfo u (by decide) (by decide) (by omega) (by decide))
    rw [hrel.frame.1 _ (by decide), reg_put_ne _ _ _ (by decide)]

end

/-! ### Recoat steps (R72) -/

theorem recoatFail_reg (m : Axis) (d : Dev) {a : Nat} (ha : a ∉ [TRD_STATE, TRD_TICK_LO, TRD_TICK_HI, TRD_STATUS])
    (h9 : a / 0x10000 ≠ 9) (hf : faultReg a = false) : (recoatFail m d).reg a = d.reg a := by
  simp only [List.mem_cons, List.not_mem_nil, or_false, not_or] at ha
  obtain ⟨hstate, hlo, hhi, hstatus⟩ := ha
  rw [recoatFail_eq, enterPaused_reg tRecoat _ (by simp [hstate, hlo, hhi]) (eventReg_of_faultReg hf), recoatFaulted,
    reg_faultEvent _ _ _ _ _ _ (by decide) (by decide) hf,
    (cmpRelease_within d.profilePin _).frame.1 _ (by simpa using h9), reg_put_ne _ _ _ hstatus]

/-- Before step 6 a move fails at once, or the step's axis gets its target; for a traverse its speed is set before, and
the compare taken. -/
theorem recoatMove_cases {d : Dev} (h : d.trd.recoatStep ≤ 5) : recoatMove d = recoatFail (d.stepAxis d.trd.recoatStep) d ∨
    ∃ u : Dev, d.within [.pins] [9, 12] u ∧
      recoatMove d = axTarget (d.stepAxis d.trd.recoatStep) (wrapN 32 d.trd.recoatTarget) true u := by
  unfold recoatMove
  extract_lets k m t u v
  have hk : ¬ 6 ≤ k := Nat.not_le.2 (Nat.lt_succ_of_le h)
  have hu : d.within [.pins] [9, 12] u := within_mono (P := [.pins]) (B := [9, 12]) (within_ite
    (setReg_within d (AXS_SPEED m) (d.profileWord 2) 12 (by simp only [AXS_SPEED]; omega) (.inl (by decide)))
    (within_refl _ _ d)) rfl rfl
  have hv : d.within [.pins] [9, 12] v := within_ite (within_comp (cmpOwn_within _ _ _ _ u) hu rfl rfl) hu
  rw [if_neg hk]
  split
  · exact .inl rfl
  · exact .inr ⟨v, hv, rfl⟩

section
variable {d : Dev} (h : d.trd.recoatStep ≤ 5)
include h

theorem recoatMove_own :
    d.within [.pins, .ev, .flt, .wal, .dof, .mpl, .chain, .axes] [2, 9, 12, 18, 20] (recoatMove d) := by
  rcases recoatMove_cases h with hm | ⟨u, hu, hm⟩ <;> rw [hm]
  · exact within_mono (recoatFail_own _ d) rfl rfl
  · exact within_comp (axTarget_within _ _ true u) (within_mono hu rfl rfl) rfl rfl

theorem recoatMove_trd : (recoatMove d).trd = d.trd := (recoatMove_own h).frame.2 .trd rfl

theorem recoatMove_reg {a : Nat} (h20 : a / 0x10000 = 20) (ha : a ∉ [TRD_STATE, TRD_TICK_LO, TRD_TICK_HI, TRD_STATUS]) :
    (recoatMove d).reg a = d.reg a := by
  rcases recoatMove_cases h with hm | ⟨u, hu, hm⟩ <;> rw [hm]
  · exact recoatFail_reg _ d ha (by omega) (faultReg_block (by rw [h20]; decide))
  · rw [(axTarget_within _ _ true u).frame.1 a (by rw [h20]; decide), hu.frame.1 a (by rw [h20]; decide)]

/-- The Treadle stays in RECOAT, or pauses to return there. -/
theorem recoatMove_trdStage (hst : d.trdState = tRecoat) : (recoatMove d).trdStage = tRecoat := by
  rcases recoatMove_cases h with hm | ⟨u, hu, hm⟩ <;> rw [hm]
  · exact recoatFail_trdStage _ d
  · have hstate : (axTarget (d.stepAxis d.trd.recoatStep) (wrapN 32 d.trd.recoatTarget) true u).trdState = tRecoat := by
      rw [← hst, Dev.trdState, Dev.get, (axTarget_within _ _ true u).frame.1 _ (by decide), hu.frame.1 _ (by decide)]
      rfl
    rw [Dev.trdStage, if_neg (by rw [hstate]; decide), hstate]

end

/-- The state in which the first step from `k` on begins. -/
def stepBegun (k : Nat) (d : Dev) : Dev :=
  d.trdMod fun x => { x with recoatStep := d.stepFrom k, recoatTarget := d.stepTarget (d.stepFrom k) }

theorem recoatGo_eq (k : Nat) (d : Dev) : recoatGo k d = recoatMove (stepBegun k d) := rfl

theorem stepBegun_own (k : Nat) (d : Dev) : d.within [.trd] [] (stepBegun k d) := trdMod_within _ d

section
variable {k : Nat} {d : Dev} (h : d.stepFrom k ≤ 5)
include h

theorem recoatGo_own :
    d.within [.trd, .pins, .ev, .flt, .wal, .dof, .mpl, .chain, .axes] [2, 9, 12, 18, 20] (recoatGo k d) :=
  within_comp (recoatMove_own (d := stepBegun k d) h) (within_mono (stepBegun_own k d) rfl rfl) rfl rfl

theorem recoatGo_trd : (recoatGo k d).trd = (stepBegun k d).trd := recoatMove_trd (d := stepBegun k d) h

theorem recoatGo_trdStage (hst : d.trdState = tRecoat) : (recoatGo k d).trdStage = tRecoat :=
  recoatMove_trdStage (d := stepBegun k d) h hst

end

/-- The first recoat step is there in every profile. -/
theorem stepFrom_one (d : Dev) : d.stepFrom 1 = 1 := rfl

/-! ### RECOAT begins (R64, R71, R92) -/

/-- The platform step taken and the profile read. -/
def platformTaken (d : Dev) : Dev :=
  let x := vat d.trd.slots d.activeSlot
  let p := x.recoatProfile
  let r := platform (d.reg TRD_PLAT_RESID) x.layerNm (d.reg TRD_PLAT_SCALE)
  (d.setReg TRD_PLAT_RESID r.2).trdMod fun t => { t with
    platSteps := r.1
    profile := [d.reg (TRD_RCP_AXES p), d.reg (TRD_RCP_TRAVERSE p), d.reg (TRD_RCP_SPEED p), d.reg (TRD_RCP_DOSE p),
      d.reg (TRD_RCP_IMG_SPACING p), d.reg (TRD_RCP_IMG p)] }

/-- RECOAT entered, before its first move. -/
def recoatEntered (d : Dev) : Dev := trimAutoDark (trdEnter tRecoat true (platformTaken d))

theorem platformTaken_own (d : Dev) : d.within [.trd] [20] (platformTaken d) := by
  unfold platformTaken
  extract_lets x p r
  exact within_comp (trdMod_within _ _) (within_mono (setReg_within d TRD_PLAT_RESID _ 20 rfl (.inl (by decide))) rfl rfl) rfl rfl

theorem recoat_commitsNone (d : Dev) : d.commitsNone tRecoat := commitsNone_of_ne (by decide) (by decide) d

theorem recoatEntered_own (d : Dev) :
    d.within [.trd, .ev, .wal, .chain, .flt, .dof, .mpl, .trm] [2, 16, 18, 20] (recoatEntered d) :=
  within_comp (trimAutoDark_within _) (within_comp (trdEnter_steady (recoat_commitsNone _))
    (within_mono (platformTaken_own d) rfl rfl) rfl rfl) rfl rfl

theorem recoatEntered_trdState (d : Dev) : (recoatEntered d).trdState = tRecoat := by
  rw [Dev.trdState, Dev.get, recoatEntered, (trimAutoDark_within _).frame.1 _ (by decide)]
  exact trdEnter_trdState (recoat_commitsNone _) (by decide)

theorem recoatEntered_trd (d : Dev) : (recoatEntered d).trd = (platformTaken d).trd :=
  ((trimAutoDark_within _).frame.2 .trd rfl).trans trdEnter_trd

theorem recoatEntered_resid (d : Dev) : (recoatEntered d).reg TRD_PLAT_RESID = (platformTaken d).reg TRD_PLAT_RESID := by
  rw [recoatEntered, (trimAutoDark_within _).frame.1 _ (by decide), trdEnter_reg (recoat_commitsNone _) (by decide) (by decide)]

/-- The steps and the residual make up the sum of R71. -/
theorem platformTaken_sum (d : Dev) : (platformTaken d).trd.platSteps * 2 ^ 24 + (platformTaken d).reg TRD_PLAT_RESID =
    (d.reg TRD_PLAT_RESID + (vat d.trd.slots d.activeSlot).layerNm * d.reg TRD_PLAT_SCALE) % 2 ^ 56 ∧
      (platformTaken d).reg TRD_PLAT_RESID < 2 ^ 24 := by
  set acc := (d.reg TRD_PLAT_RESID + (vat d.trd.slots d.activeSlot).layerNm * d.reg TRD_PLAT_SCALE) % 2 ^ 56 with hacc
  have hsteps : (platformTaken d).trd.platSteps = acc / 2 ^ 24 := rfl
  have hresid : (platformTaken d).reg TRD_PLAT_RESID = acc % 2 ^ 24 % 2 ^ 32 :=
    reg_setReg_same d TRD_PLAT_RESID (acc % 2 ^ 24)
  rw [hsteps, hresid]
  omega

/-- With every look-ahead full, RECOAT begins with its first step. -/
theorem prepDone_begins {d : Dev} (hst : d.trdState = tPrep)
    (hfull : ∀ n : Station, d.stationOut n = true ∨ d.lookaheadFull n = true) :
    prepDone d = recoatGo 1 (recoatEntered d) := by
  have hready : ((List.finRange 16).all fun (n : Station) => d.stationOut n || d.lookaheadFull n) = true := by
    simpa using hfull
  unfold prepDone
  extract_lets ready x p
  have hr : ready = true := hready
  rw [if_neg (by rw [hst, hr]; decide)]
  rfl

/-! ### Step by step -/

/-- A step done: the compare of a traverse is released, and the far end noted. -/
def stepFinished (k : Nat) (d : Dev) : Dev :=
  let u := if k = 4 then cmpRelease d.profilePin d else d
  u.trdMod fun t => { t with farEnd := if k = 4 then u.bidir && !t.farEnd else if k = 5 then false else t.farEnd }

theorem recoatStepDone_next {k : Nat} {d : Dev} (hst : d.trdState = tRecoat) (hk : d.trd.recoatStep = k) (h1 : 1 ≤ k)
    (h5 : k ≤ 5) (hreach : d.stepReached k = true) : recoatStepDone d = recoatGo (k + 1) (stepFinished k d) := by
  subst hk
  unfold recoatStepDone
  extract_lets k u v
  have hk : k = d.trd.recoatStep := rfl
  rw [if_neg (by simp only [hst, hk]; simp; omega), if_neg (by omega), if_neg (by rw [hk, hreach]; decide)]
  rfl

theorem stepFinished_own (k : Nat) (d : Dev) : d.within [.trd, .pins] [9] (stepFinished k d) := by
  unfold stepFinished
  extract_lets u
  exact within_comp (trdMod_within _ _) (within_mono (within_ite (cmpRelease_within _ d) (within_refl _ _ d)) rfl rfl) rfl rfl

/-- The Treadle's record with the far end that step `k` leaves. -/
theorem stepFinished_trd (k : Nat) (d : Dev) : (stepFinished k d).trd = { d.trd with
    farEnd := if k = 4 then d.bidir && !d.trd.farEnd else if k = 5 then false else d.trd.farEnd } := by
  unfold stepFinished
  extract_lets u
  have hu : u.trd = d.trd := by
    simp only [u]
    split
    · exact (cmpRelease_within _ d).frame.2 .trd rfl
    · rfl
  simp only [Dev.trdMod, Dev.bidir, Dev.profileWord, hu]
  rfl

/-- Only a traverse and the step back change where the recoater stands. -/
theorem stepFinished_of_ne {k : Nat} (h4 : k ≠ 4) (h5 : k ≠ 5) (d : Dev) : stepFinished k d = d := by
  simp only [stepFinished, if_neg h4, if_neg h5]
  rfl

/-- The steps that a profile has do not depend on where the recoater stands. -/
theorem stepFrom_stepFinished (k j : Nat) (d : Dev) : (stepFinished k d).stepFrom j = d.stepFrom j := by
  have hreg : (stepFinished k d).reg TRD_PLAT_LIFT = d.reg TRD_PLAT_LIFT := (stepFinished_own k d).frame.1 _ (by decide)
  simp only [Dev.stepFrom, Dev.bidir, Dev.profileWord, stepFinished_trd, hreg]

theorem stepFinished_axRunning (k : Nat) (m : Axis) (d : Dev) : (stepFinished k d).axRunning m = d.axRunning m := by
  rw [Dev.axRunning, Dev.axRunning, Dev.on, Dev.on, Dev.get, Dev.get,
    (stepFinished_own k d).frame.1 _ (by simp [AXS_STATUS]; omega)]

theorem stepFinished_activeMode (k : Nat) (d : Dev) : (stepFinished k d).activeMode = d.activeMode := by
  have hreg : (stepFinished k d).reg TRD_STATE = d.reg TRD_STATE := (stepFinished_own k d).frame.1 _ (by decide)
  simp only [Dev.activeMode, Dev.activeSlot, Dev.get, stepFinished_trd, hreg]

theorem stepFinished_trdState (k : Nat) (d : Dev) : (stepFinished k d).trdState = d.trdState := by
  rw [Dev.trdState, Dev.get, (stepFinished_own k d).frame.1 _ (by decide)]
  rfl

/-! ### Captures and BED_IMAGE (R73) -/

theorem captureNext_trd (now : Nat) (d : Dev) : ∃ c, (captureNext now d).trd = { d.trd with captureDue := c } := by
  unfold captureNext
  split
  · exact ⟨d.trd.captureDue, rfl⟩
  extract_lets c
  split
  · exact ⟨d.trd.captureDue, rfl⟩
  · exact ⟨false, (camTrigger_within c 2 true false now _).frame.2 .trd rfl⟩

/-- Of the Treadle a capture changes what it says of the images alone. -/
theorem captureStart_trd (d : Dev) :
    ∃ n c b, (captureStart d).trd = { d.trd with imagesLeft := n, captureDue := c, imaged := b } := by
  unfold captureStart
  extract_lets img n u
  split
  · exact ⟨0, d.trd.captureDue, true, rfl⟩
  · obtain ⟨c, hc⟩ := captureNext_trd u.t0.nanos
      (u.trdMod fun t => { t with imagesLeft := n, captureDue := true, imaged := false })
    exact ⟨n, c, false, hc⟩

/-- BED_IMAGE before its entry is told: imaging started, or nothing to image and the wait shown. -/
def bedBegun (d : Dev) : Dev :=
  let u := d.trdMod fun t => { t with recoatStep := 0 }
  let v := if bit u.activeMode 0 then captureStart u else u.trdMod fun t => { t with imaged := true }
  if v.trd.imaged then bedFlags v else v

theorem enterBed_eq (d : Dev) : enterBed d = trdEnter tBed true (bedBegun d) := rfl

theorem bed_commitsNone (d : Dev) : d.commitsNone tBed := commitsNone_of_ne (by decide) (by decide) d

theorem bedBegun_own (d : Dev) : d.within [.ev, .flt, .wal, .trd, .dof, .lmp, .isp, .mpl] [2, 13, 18, 20] (bedBegun d) := by
  unfold bedBegun
  extract_lets u v
  have hu : d.within [.trd] [] u := trdMod_within _ d
  have hv : d.within [.ev, .flt, .wal, .trd, .dof, .lmp, .isp, .mpl] [2, 13, 18, 20] v :=
    within_ite (within_comp (captureStart_within u) (within_mono hu rfl rfl) rfl rfl)
      (within_comp (trdMod_within _ u) (within_mono hu rfl rfl) rfl rfl)
  exact within_ite (within_comp (bedFlags_within v) hv rfl rfl) hv

theorem bedFlags_trd (d : Dev) : (bedFlags d).trd = d.trd := (bedFlags_within d).frame.2 .trd rfl

/-- BED_IMAGE ends the recoat steps; without images it is complete at once. -/
theorem bedBegun_trd (d : Dev) : (bedBegun d).trd.recoatStep = 0 ∧
    (bit d.activeMode 0 = false → (bedBegun d).trd.imaged = true) := by
  unfold bedBegun
  extract_lets u v
  have hv : v.trd.recoatStep = 0 ∧ (bit d.activeMode 0 = false → v.trd.imaged = true) := by
    by_cases hmode : bit u.activeMode 0 = true
    · obtain ⟨n, c, b, hcap⟩ := captureStart_trd u
      simp only [v, if_pos hmode, hcap]
      exact ⟨rfl, fun h => absurd hmode (by rw [show bit u.activeMode 0 = false from h]; decide)⟩
    · simp only [v, if_neg hmode]
      exact ⟨rfl, fun _ => rfl⟩
  split
  · rwa [bedFlags_trd]
  · exact hv

theorem enterBed_own (d : Dev) :
    d.within [.ev, .flt, .wal, .trd, .dof, .lmp, .isp, .mpl, .chain] [2, 13, 18, 20] (enterBed d) := by
  rw [enterBed_eq]
  exact within_comp (trdEnter_steady (bed_commitsNone _)) (within_mono (bedBegun_own d) rfl rfl) rfl rfl

theorem enterBed_trdState (d : Dev) : (enterBed d).trdState = tBed := trdEnter_trdState (bed_commitsNone _) (by decide)

theorem enterBed_trd (d : Dev) : (enterBed d).trd = (bedBegun d).trd := trdEnter_trd

/-- With no recoat step left and every axis at rest BED_IMAGE begins. -/
theorem recoatGo_end {k : Nat} {d : Dev} (h : d.stepFrom k = 6) (hrest : ∀ m : Axis, d.axRunning m = false) :
    recoatGo k d = enterBed (stepBegun k d) := by
  have hstep : (stepBegun k d).trd.recoatStep = 6 := h
  have hnone : (List.finRange 8).any (stepBegun k d).axRunning = false := by
    rw [List.any_eq_false]
    intro m _
    rw [show (stepBegun k d).axRunning m = d.axRunning m from rfl, hrest m]
    decide
  rw [recoatGo_eq]
  unfold recoatMove
  extract_lets j
  rw [if_pos (by simp only [j, hstep]; decide), recoatEnd, hnone]
  rfl

/-! ### Registers at 0 -/

/-- The registers listed at 0. -/
def zeroRegs (l : List Nat) (d : Dev) : Dev := l.foldl (fun (t : Dev) a => t.setReg a 0) d

theorem reg_zeroRegs (l : List Nat) (d : Dev) (a : Nat) : (zeroRegs l d).reg a = if a ∈ l then 0 else d.reg a := by
  split
  · next h => exact reg_foldl_clear id l h d
  · next h => exact (regsOnly_foldl_setReg id (fun _ => 0) l d).2 a (by simpa using h)

theorem zeroRegs_within {B : List Nat} {l : List Nat} (h : ∀ a ∈ l, B.contains (a / 0x10000) = true) (h2 : B.contains 2 = false)
    (d : Dev) : d.within [] B (zeroRegs l d) := by
  refine within_foldl_mem _ _ (fun u a ha => ?_) (within_refl _ _ d)
  have hne : a / 0x10000 ≠ 2 := fun he => by rw [← he, h a ha] at h2; exact absurd h2 (by decide)
  exact within_mono (setReg_within u a 0 _ rfl (.inl hne)) rfl (by simpa using h a ha)

/-- Once at 0, a register that every step clears or keeps stays at 0. -/
theorem reg_foldl_zero {α : Type} {g : Dev → α → Dev} {a : Nat} (hkeep : ∀ u x, u.reg a = 0 → (g u x).reg a = 0)
    {l : List α} {x : α} (hx : x ∈ l) (hset : ∀ u, (g u x).reg a = 0) (d : Dev) : (l.foldl g d).reg a = 0 := by
  have hstay (m : List α) (u : Dev) (hu : u.reg a = 0) : (m.foldl g u).reg a = 0 := by
    induction m generalizing u with
    | nil => exact hu
    | cons y m ih => exact ih _ (hkeep u y hu)
  induction l generalizing d with
  | nil => exact absurd hx (by simp)
  | cons y l ih =>
    rcases List.mem_cons.1 hx with rfl | h
    · exact hstay l _ (hset d)
    · exact ih h _

/-! ### SCAN begins (R74, R169, R217, R274) -/

/-- The Shuttle's and the compare's counters that SCAN restarts (R169, R304). -/
def shtScanRegs (n : Station) : List Nat :=
  [SHT_PICKS n, SHT_REPICKS n, SHT_SKIPPED n, SHT_LIMIT_PER n, SHT_DEADLINES n, SHT_PULSE_DROPS n, SHT_REEXPOSED n,
    FBKP_HITS n, FBKP_SKIPPED n]

/-- The link's counters that SCAN restarts (R274, R278). -/
def linkScanRegs (n : Station) : List Nat :=
  [LNK_BAD_UP n.val, LNK_BAD_DOWN n.val, LNK_ALIGN_LOSS n.val, LNK_COAX_SKIP n.val]

theorem shtScan_eq (n : Station) (d : Dev) : shtScan n d = (zeroRegs (shtScanRegs n) d).shtMod n
    fun x => { x with parking := (zeroRegs (shtScanRegs n) d).isRetired n.val } := rfl

theorem linkScan_eq (n : Station) (d : Dev) : linkScan n d = (zeroRegs (linkScanRegs n) d).lnkMod n
    fun x => { x with interlockSeen := false } := rfl

theorem shtScan_reg (n : Station) (d : Dev) (a : Nat) : (shtScan n d).reg a = if a ∈ shtScanRegs n then 0 else d.reg a := by
  rw [← reg_zeroRegs, shtScan_eq]
  exact ((shtMod_within n _ (zeroRegs (shtScanRegs n) d)).frame.1 a rfl)

theorem linkScan_reg (n : Station) (d : Dev) (a : Nat) :
    (linkScan n d).reg a = if a ∈ linkScanRegs n then 0 else d.reg a := by
  rw [← reg_zeroRegs, linkScan_eq]
  exact ((lnkMod_within n _ (zeroRegs (linkScanRegs n) d)).frame.1 a rfl)

theorem shtScanRegs_block : ∀ (n : Station), ∀ a ∈ shtScanRegs n, [8, 9].contains (a / 0x10000) = true := by
  decide

theorem linkScanRegs_block : ∀ (n : Station), ∀ a ∈ linkScanRegs n, [5].contains (a / 0x10000) = true := by
  decide

/-- A station's part in the start of SCAN. -/
def stationScan (n : Station) (d : Dev) : Dev := (linkScan n (shtScan n d)).setReg (SHD_MON_BLANKS n) 0

/-- The counters that SCAN restarts read 0 and stay 0; the others are as they were. -/
theorem stationScan_reg (n : Station) (d : Dev) (a : Nat) : (stationScan n d).reg a =
    if a ∈ shtScanRegs n ++ linkScanRegs n ++ [SHD_MON_BLANKS n] then 0 else d.reg a := by
  by_cases hb : a = SHD_MON_BLANKS n
  · rw [hb, stationScan, reg_setReg_same, if_pos (by simp), Nat.zero_mod]
  · rw [stationScan, reg_setReg_ne _ _ hb, linkScan_reg, shtScan_reg]
    by_cases h1 : a ∈ shtScanRegs n <;> by_cases h2 : a ∈ linkScanRegs n <;> simp [h1, h2, hb]

theorem stationScan_own (n : Station) (d : Dev) : d.within [.sht, .lnk] [5, 7, 8, 9] (stationScan n d) := by
  have hsht : d.within [.sht] [8, 9] (shtScan n d) := by
    rw [shtScan_eq]
    exact within_comp (shtMod_within n _ _)
      (within_mono (zeroRegs_within (B := [8, 9]) (shtScanRegs_block n) (by decide) d) rfl rfl) rfl rfl
  have hlink : (shtScan n d).within [.lnk] [5] (linkScan n (shtScan n d)) := by
    rw [linkScan_eq]
    exact within_comp (lnkMod_within n _ _)
      (within_mono (zeroRegs_within (B := [5]) (linkScanRegs_block n) (by decide) _) rfl rfl) rfl rfl
  exact within_comp (setReg_within _ (SHD_MON_BLANKS n) 0 7 (by simp only [SHD_MON_BLANKS]; omega) (.inl (by decide)))
    (within_comp hlink (within_mono hsht rfl rfl) rfl rfl) rfl rfl

/-- Every station's part, before SCAN is entered. -/
def scanReset (d : Dev) : Dev := (List.finRange 16).foldl (fun (t : Dev) n => stationScan n t) d

theorem scanReset_own (d : Dev) : d.within [.sht, .lnk] [5, 7, 8, 9] (scanReset d) :=
  within_foldl _ _ (fun u n => stationScan_own n u) (within_refl _ _ d)

/-- The counters that SCAN restarts read 0. -/
theorem scanReset_zero {n : Station} {a : Nat} (h : a ∈ shtScanRegs n ++ linkScanRegs n ++ [SHD_MON_BLANKS n]) (d : Dev) :
    (scanReset d).reg a = 0 := by
  refine reg_foldl_zero (fun u m hu => ?_) (List.mem_finRange n) (fun u => ?_) d
  · rw [stationScan_reg, hu, ite_self]
  · rw [stationScan_reg, if_pos h]

theorem scan_commitsNone (d : Dev) : d.commitsNone tScan := commitsNone_of_ne (by decide) (by decide) d

/-- The melt pool's counters that SCAN restarts, and its buffers, before the map is looked at. -/
def meltReset (d : Dev) : Dev :=
  let u := (List.range 16).foldl (fun (t : Dev) n => (t.setReg (MPLS_DESC_CNT n) 0).setReg (MPLS_FRAMES_BAD n) 0) d
  let u := ((u.setReg MPL_MAP_LATE 0).setReg MPL_MAP_SKIP 0).setReg MPL_DESC_DROPS 0
  u.mplMod fun m => { m with
    tgt := 1 - m.tgt, noMap := !u.on MPL_STATUS_MAP_READY, lateSeen := false, dropSeen := false,
    st := Vector.ofFn fun n => { vat m.st n with marks := [], lastOff := none, awaiting := none, lastWrite := none } }

theorem meltScan_cases (d : Dev) : meltScan d = meltReset d ∨
    meltScan d = mplGlobal MPL_FLAGS_NOT_READY 0x53 (fault 0x53 sevInfo 0xFF (meltReset d)) := by
  unfold meltScan
  exact ite_eq_or_eq _ _ _

theorem meltReset_keepsPending (d : Dev) : d.keepsPending (meltReset d) := by
  unfold meltReset
  extract_lets u v
  have hu : d.keepsPending u := by
    have hstep (t : Dev) (n : Nat) : t.keepsPending ((t.setReg (MPLS_DESC_CNT n) 0).setReg (MPLS_FRAMES_BAD n) 0) :=
      keepsPending_trans (keepsPending_setReg t (by simp only [MPLS_DESC_CNT]; omega) 0)
        (keepsPending_setReg _ (by simp only [MPLS_FRAMES_BAD]; omega) 0)
    exact keepsPending_foldl _ hstep _ d
  have hv : d.keepsPending v := keepsPending_trans hu (keepsPending_trans (keepsPending_setReg u (by decide) 0)
    (keepsPending_trans (keepsPending_setReg _ (by decide) 0) (keepsPending_setReg _ (by decide) 0)))
  exact keepsPending_trans hv (within_keepsPending (mplMod_within _ v) rfl)

theorem flagEvent_keepsPending {f : Field} {e : Nat} (hf : f.addr / 0x10000 ≠ 2) (he : e < 256) (inst code : Nat) (d : Dev) :
    d.keepsPending (flagEvent f e inst code d) :=
  keepsPending_ite _ (keepsPending_refl d) (keepsPending_trans (keepsPending_put d hf 1) (keepsPending_occur he inst code _))

theorem mplGlobal_keepsPending {f : Field} (hf : f.addr / 0x10000 ≠ 2) (code : Nat) (d : Dev) :
    d.keepsPending (mplGlobal f code d) := by
  have hstation := get_lt d MPL_CTRL_EVT_STATION
  exact flagEvent_keepsPending hf (by simp only [MPL_CTRL_EVT_STATION] at hstation ⊢; omega) 0xFF code d

theorem meltScan_keepsPending (d : Dev) : d.keepsPending (meltScan d) := by
  have hreset := meltReset_keepsPending d
  rcases meltScan_cases d with h | h <;> rw [h]
  · exact hreset
  · exact keepsPending_trans hreset (keepsPending_trans
      (faultD_faultOnly 0x53 sevInfo 0xFF 0 0 (meltReset d) (by decide)).keepsPending (mplGlobal_keepsPending (by decide) 0x53 _))

theorem meltReset_mapLate (d : Dev) : (meltReset d).reg MPL_MAP_LATE = 0 := by
  unfold meltReset
  extract_lets u v
  rw [(mplMod_within _ v).frame.1 _ rfl, reg_setReg_ne _ _ (by decide), reg_setReg_ne _ _ (by decide), reg_setReg_same]
  rfl

theorem reg_flagEvent {f : Field} {e a : Nat} (he : e < 256) (ha : a ≠ f.addr) (hev : eventReg a = false) (inst code : Nat)
    (d : Dev) : (flagEvent f e inst code d).reg a = d.reg a := by
  unfold flagEvent
  split
  · rfl
  · rw [reg_occur _ _ _ _ _ he hev, reg_put_ne _ _ _ ha]

theorem meltScan_mapLate (d : Dev) : (meltScan d).reg MPL_MAP_LATE = 0 := by
  rcases meltScan_cases d with h | h <;> rw [h]
  · exact meltReset_mapLate d
  · have hstation := get_lt (fault 0x53 sevInfo 0xFF (meltReset d)) MPL_CTRL_EVT_STATION
    rw [mplGlobal, reg_flagEvent (by simp only [MPL_CTRL_EVT_STATION] at hstation ⊢; omega) (by decide) (by decide),
      fault, (faultD_faultOnly 0x53 sevInfo 0xFF 0 0 (meltReset d) (by decide)).regs _ (by decide)]
    exact meltReset_mapLate d

/-- A station's part in the start of the Reed engines. -/
def stationReed (d : Dev) (n : Station) : Dev :=
  let t := d.setReg (REED_PWR_MELT_DEVS n) 0
  let ok := (stationLoops n).all fun l => t.loopEn l && t.modeOk l (t.reg l.base)
  if t.isRetired n.val || ok then t else fault 0x4B sevRetire n.val t

theorem reedScan_eq (d : Dev) : reedScan d = (List.finRange 16).foldl stationReed d := rfl

theorem stationReed_faultOnly (d : Dev) (n : Station) :
    FaultOnly (d.setReg (REED_PWR_MELT_DEVS n) 0) (stationReed d n) := by
  unfold stationReed
  extract_lets t ok
  split
  · exact FaultOnly.refl t
  · exact faultD_faultOnly 0x4B sevRetire n.val 0 0 t (by decide)

theorem reedScan_keepsPending (d : Dev) : d.keepsPending (reedScan d) := by
  rw [reedScan_eq]
  refine keepsPending_foldl _ (fun u n => ?_) _ d
  exact keepsPending_trans (keepsPending_setReg u (by simp only [REED_PWR_MELT_DEVS]; omega) 0)
    (stationReed_faultOnly u n).keepsPending

theorem reedScan_zero (n : Station) (d : Dev) : (reedScan d).reg (REED_PWR_MELT_DEVS n) = 0 := by
  have hf : faultReg (REED_PWR_MELT_DEVS n) = false :=
    faultReg_block (by rw [show REED_PWR_MELT_DEVS n / 0x10000 = 10 by simp only [REED_PWR_MELT_DEVS]; omega]; decide)
  rw [reedScan_eq]
  refine reg_foldl_zero (fun u m hu => ?_) (List.mem_finRange n) (fun u => ?_) d
  · rw [(stationReed_faultOnly u m).regs _ hf]
    by_cases hm : REED_PWR_MELT_DEVS n = REED_PWR_MELT_DEVS m
    · rw [hm, reg_setReg_same, Nat.zero_mod]
    · rw [reg_setReg_ne _ _ hm, hu]
  · rw [(stationReed_faultOnly u n).regs _ hf, reg_setReg_same, Nat.zero_mod]

/-- SCAN entered, after the counters of the stations. -/
def scanEntered (d : Dev) : Dev := reedScan (trimScan (camRestart (meltScan (trdEnter tScan true (scanReset d)))))

/-- The counters of a station lie in none of the blocks that the rest of the start of SCAN touches. -/
theorem stationScanRegs_block : ∀ (n : Station), ∀ a ∈ shtScanRegs n ++ linkScanRegs n ++ [SHD_MON_BLANKS n],
    [2, 10, 11, 13, 18, 20].contains (a / 0x10000) = false := by
  decide

section
variable (d : Dev)

theorem scanEntered_steps :
    d.within [.sht, .lnk, .ev, .wal, .chain] [2, 5, 7, 8, 9, 18, 20] (trdEnter tScan true (scanReset d)) ∧
    (trdEnter tScan true (scanReset d)).within [.ev, .flt, .wal, .dof, .mpl] [2, 11, 18]
      (meltScan (trdEnter tScan true (scanReset d))) ∧
    (meltScan (trdEnter tScan true (scanReset d))).within [.ev, .flt, .wal, .dof, .mpl, .trm] [2, 10, 13, 18] (scanEntered d) :=
  ⟨within_comp (trdEnter_steady (scan_commitsNone _)) (within_mono (scanReset_own d) rfl rfl) rfl rfl, meltScan_within _,
    within_comp (reedScan_within _) (within_comp (trimScan_within _) (within_mono (camRestart_within _) rfl rfl) rfl rfl)
      rfl rfl⟩

theorem scanEntered_own :
    d.within [.sht, .lnk, .ev, .wal, .chain, .flt, .dof, .mpl, .trm] [2, 5, 7, 8, 9, 10, 11, 13, 18, 20]
    (scanEntered d) := by
  obtain ⟨henter, hmelt, hrest⟩ := scanEntered_steps d
  exact within_comp hrest (within_comp hmelt (within_mono henter rfl rfl) rfl rfl) rfl rfl

theorem scanEntered_trd : (scanEntered d).trd = d.trd := (scanEntered_own d).frame.2 .trd rfl

/-- Registers that neither the melt pool, the cameras nor the Reed engines hold stand as SCAN was entered. -/
theorem scanEntered_reg {a : Nat} (h : [2, 10, 11, 13, 18].contains (a / 0x10000) = false) :
    (scanEntered d).reg a = (trdEnter tScan true (scanReset d)).reg a := by
  obtain ⟨-, hmelt, hrest⟩ := scanEntered_steps d
  rw [hrest.frame.1 a (contains_of_all (by decide) h), hmelt.frame.1 a (contains_of_all (by decide) h)]

theorem scanEntered_trdState : (scanEntered d).trdState = tScan := by
  rw [Dev.trdState, Dev.get, scanEntered_reg d (by decide)]
  exact trdEnter_trdState (scan_commitsNone _) (by decide)

theorem scanEntered_pends : (scanEntered d).pends 99 :=
  reedScan_keepsPending _ 99 (by decide) (within_keepsPending (trimScan_within _) rfl 99 (by decide)
    (within_keepsPending (camRestart_within _) rfl 99 (by decide) (meltScan_keepsPending _ 99 (by decide)
      (trdEnter_pends (scan_commitsNone _) (by decide) (fun _ => rfl)))))

/-- The stations' counters read 0 in SCAN. -/
theorem scanEntered_zero {n : Station} {a : Nat} (ha : a ∈ shtScanRegs n ++ linkScanRegs n ++ [SHD_MON_BLANKS n]) :
    (scanEntered d).reg a = 0 := by
  have hb := stationScanRegs_block n a ha
  have h20 : a / 0x10000 ≠ 20 := by
    rintro h
    rw [h] at hb
    exact absurd hb (by decide)
  rw [scanEntered_reg d (contains_of_all (by decide) hb), trdEnter_reg (scan_commitsNone _), scanReset_zero ha]
  · simp only [List.mem_cons, List.not_mem_nil, or_false, TRD_STATE, TRD_TICK_LO, TRD_TICK_HI]
    omega
  · exact eventReg_of_faultReg (faultReg_block (contains_of_all (by decide) hb))

theorem scanEntered_mapLate : (scanEntered d).reg MPL_MAP_LATE = 0 := by
  obtain ⟨-, -, hrest⟩ := scanEntered_steps d
  rw [hrest.frame.1 _ (by decide), meltScan_mapLate]

theorem scanEntered_meltDevs (n : Station) : (scanEntered d).reg (REED_PWR_MELT_DEVS n) = 0 := reedScan_zero n _

end

/-- At its start time a ready layer enters SCAN. -/
theorem layerScan_enters {k : Nat} {d : Dev} (hready : d.scanReady = true) (hstart : d.startReached d.activeSlot = some k)
    (hk : k < 500) : layerScan d = scanEntered d := by
  unfold layerScan
  extract_lets due
  have hdue : due = true := by simp only [due, hstart]; exact decide_eq_true hk
  rw [if_neg (by rw [hready, hdue]; decide)]
  rfl

/-! ### LAYER_CLOSE begins (R73, R78) -/

theorem camTrigger_keepsPending (c : Camera) (src : Nat) (keep flash : Bool) (now : Nat) (d : Dev) :
    d.keepsPending (camTrigger c src keep flash now d) := by
  unfold camTrigger
  extract_lets enabled u first v p win openAt w
  have hu : d.keepsPending u := keepsPending_count d (by simp only [ISPC_TRIG_MISS]; omega) 1
  have hv : d.keepsPending v := by
    refine keepsPending_trans hu (keepsPending_ite _ ?_ (keepsPending_refl u))
    exact keepsPending_trans (within_keepsPending (camMod_within c _ u) rfl)
      (faultD_faultOnly 0x71 sevInfo c.val 0 0 _ (by decide)).keepsPending
  split
  · exact keepsPending_refl d
  split
  · exact keepsPending_trans hv (flagEvent_keepsPending (by simp only [ISPC_FLAGS]; omega) (by omega) c.val _ v)
  · exact keepsPending_trans (within_keepsPending (camMod_within c _ d) rfl) (within_keepsPending (addWindow_within _ w) rfl)

theorem captureNext_keepsPending (now : Nat) (d : Dev) : d.keepsPending (captureNext now d) := by
  unfold captureNext
  extract_lets c
  refine keepsPending_ite _ (keepsPending_refl d) (keepsPending_ite _ (keepsPending_refl d) ?_)
  exact keepsPending_trans (within_keepsPending (trdMod_within _ d) rfl) (camTrigger_keepsPending c 2 true false now _)

theorem captureStart_keepsPending (d : Dev) : d.keepsPending (captureStart d) := by
  unfold captureStart
  extract_lets img n u
  refine keepsPending_ite _ (within_keepsPending (trdMod_within _ d) rfl) ?_
  have hu : d.keepsPending u := within_keepsPending (lmpMod_within _ d) rfl
  exact keepsPending_trans hu (keepsPending_trans (within_keepsPending (trdMod_within _ u) rfl) (captureNext_keepsPending _ _))

theorem close_commitsNone (d : Dev) : d.commitsNone tClose := commitsNone_of_ne (by decide) (by decide) d

/-- A PAUSE that still waits for its tick acts at the end of the close. -/
def pauseHeld (d : Dev) : Dev := d.trdMod fun t => { t with pauseCmd := t.pauseCmd || t.pauseAt.isSome, pauseAt := none }

/-- LAYER_CLOSE entered, before its images. -/
def closeEntered (d : Dev) : Dev := trimClose (trdEnter tClose true (pauseHeld d))

/-- With every station complete LAYER_CLOSE begins. -/
theorem layerClose_enters {d : Dev} (hst : d.trdState = tScan)
    (hdone : ∀ n : Station, d.stationOut n = true ∨ (d.shtl n).complete = true ∧ (d.shtl n).lit = false) :
    layerClose d = closeEntered d ∨ layerClose d = captureStart (closeEntered d) := by
  have hall :
      ((List.finRange 16).all fun (n : Station) => d.stationOut n || ((d.shtl n).complete && !(d.shtl n).lit)) = true := by
    simpa using hdone
  unfold layerClose
  extract_lets done u v
  have h : done = true := hall
  rw [if_neg (by rw [hst, h]; decide)]
  exact (ite_eq_or_eq _ _ _).symm

section
variable (d : Dev)

theorem closeEntered_own : d.within [.trd, .ev, .wal, .chain, .trm] [2, 16, 18, 20] (closeEntered d) :=
  within_comp (trimClose_within _) (within_comp (trdEnter_steady (close_commitsNone _))
    (within_mono (trdMod_within _ d) rfl rfl) rfl rfl) rfl rfl

theorem closeEntered_trdState : (closeEntered d).trdState = tClose := by
  rw [Dev.trdState, Dev.get, closeEntered, (trimClose_within _).frame.1 _ (by decide)]
  exact trdEnter_trdState (close_commitsNone _) (by decide)

theorem closeEntered_pends : (closeEntered d).pends 100 :=
  within_keepsPending (trimClose_within _) rfl 100 (by decide) (trdEnter_pends (close_commitsNone _) (by decide) (fun _ => rfl))

theorem closeEntered_trd : (closeEntered d).trd = (pauseHeld d).trd :=
  ((trimClose_within _).frame.2 .trd rfl).trans trdEnter_trd

end

/-- With the images of the close started or not, LAYER_CLOSE is entered and told. -/
theorem layerClose_spec {d : Dev} (hst : d.trdState = tScan)
    (hdone : ∀ n : Station, d.stationOut n = true ∨ (d.shtl n).complete = true ∧ (d.shtl n).lit = false) :
    (layerClose d).trdState = tClose ∧ (layerClose d).pends 100 ∧
      (∃ n c b, (layerClose d).trd = { (pauseHeld d).trd with imagesLeft := n, captureDue := c, imaged := b }) ∧
      d.within [.chain, .dof, .ev, .flt, .isp, .lmp, .mpl, .trd, .trm, .wal] [2, 13, 16, 18, 20] (layerClose d) := by
  have hown := within_mono (closeEntered_own d) (P := [.chain, .dof, .ev, .flt, .isp, .lmp, .mpl, .trd, .trm, .wal])
    (B := [2, 13, 16, 18, 20]) rfl rfl
  rcases layerClose_enters hst hdone with h | h <;> rw [h]
  · exact ⟨closeEntered_trdState d, closeEntered_pends d, ⟨_, _, _, closeEntered_trd d⟩, hown⟩
  · have hcap := captureStart_within (closeEntered d)
    obtain ⟨n, c, b, htrd⟩ := captureStart_trd (closeEntered d)
    refine ⟨?_, captureStart_keepsPending _ 100 (by decide) (closeEntered_pends d),
      ⟨n, c, b, by rw [htrd, closeEntered_trd]⟩, within_comp hcap hown rfl rfl⟩
    rw [Dev.trdState, Dev.get, hcap.frame.1 _ (by decide)]
    exact closeEntered_trdState d

/-! ### LAYER_CLOSE is complete (R75, R76) -/

theorem sends_foldl_snd {α β : Type} (g : β × Dev → α → β × Dev) (hg : ∀ (acc : β × Dev) x, acc.2.sends (g acc x).2) (l : List α)
    (acc : β × Dev) : acc.2.sends (l.foldl g acc).2 := by
  induction l generalizing acc with
  | nil => exact sends_of_chain rfl
  | cons x l ih => exact sends_trans (hg acc x) (ih _)

theorem sendImage_sends (tag : Nat) (bs : List Byte) (done : Export) (d : Dev) : d.sends (sendImage tag bs done d) := by
  unfold sendImage
  extract_lets cs layer
  refine sends_foldl_snd _ (fun acc x => ?_) cs (0, d)
  exact sendJob_sends 0x23 (leBytes 4 layer ++ leBytes 4 tag ++ leBytes 4 x.1 ++ x.2)
    (if acc.1 + 1 = cs.length then done else .none) acc.2

theorem mapExport_sends (d : Dev) : d.sends (mapExport d) := by
  unfold mapExport
  split
  · exact sends_of_chain rfl
  · exact sends_trans (t := d.put MPL_STATUS_EXPORTING 1) (sends_of_chain rfl) (sendImage_sends _ _ _ _)

theorem freeSlot_sends (i : Slot) (d : Dev) : d.sends (freeSlot i d) := by
  unfold freeSlot
  extract_lets x u
  have hu : d.sends u := sends_of_chain rfl
  exact sends_trans hu (sends_trans (layerAck_sends _ _ _ _ _ u)
    (sends_of_chain ((occur_within 109 i.val 0 _ (by decide)).frame.2 .chain rfl)))

/-- The close logged and reported to the host (R593). -/
def closeReported (d : Dev) : Dev :=
  sendJob 0x22 (wordsBytes d.reportWords) .none (stage (d.logRec 4 (d.reg TRD_JOB) d.reportWords false) d)

/-- The pause for orphaned picks that the policy asks for is noted. -/
def orphansNoted (d : Dev) : Dev :=
  d.trdMod fun t => { t with pauseOrphan := t.pauseOrphan || d.on TRD_POLICY_ORPHAN && d.reg TRD_ORPHANS ≠ 0 }

/-- The map exported and closed. -/
def closeExported (d : Dev) : Dev := mapCloseLayer (mapExport (orphansNoted d))

/-- The slot of the closed layer released, and the close told. -/
def closeReleased (i : Slot) (d : Dev) : Dev := occur 101 0xFF 0 (freeSlot i d)

/-- The layer closed, before the Treadle leaves. -/
def closeCompleted (d : Dev) : Dev := closeReleased d.activeSlot (closeExported (closeReported d))

theorem closeReported_own (d : Dev) : d.within [.ev, .wal, .chain] [2, 18] (closeReported d) :=
  within_comp (sendJob_within _ _ _ _) (within_mono (stage_within _ d) rfl rfl) rfl rfl

theorem closeReported_queued (d : Dev) : ∃ f ∈ ((closeReported d).cport d.upstream).ownQ, f.kind = 2 ∧
    leAt f.payload 0 1 = 0x22 ∧ f.payload.drop 4 = wordsBytes d.reportWords := by
  set u := stage (d.logRec 4 (d.reg TRD_JOB) d.reportWords false) d with hu
  have hup : u.upstream = d.upstream := by
    rw [Dev.upstream, Dev.upstream, Dev.on, Dev.on, Dev.get, Dev.get, (stage_within _ d).frame.1 _ (by decide)]
  obtain ⟨f, hf, hkind, hpay⟩ := sendJob_queued 0x22 (wordsBytes d.reportWords) .none u
  rw [hup] at hf
  refine ⟨f, hf, hkind, ?_, ?_⟩
  · rw [hpay]
    rfl
  · rw [hpay]
    rfl

theorem closeExported_own (d : Dev) : d.within [.trd, .chain, .mpl] [11] (closeExported d) :=
  within_comp (mapCloseLayer_within _) (within_comp (mapExport_within _) (within_mono (trdMod_within _ d) rfl rfl) rfl rfl)
    rfl rfl

theorem closeExported_sends (d : Dev) : d.sends (closeExported d) := by
  have hnoted : d.sends (orphansNoted d) := sends_of_chain rfl
  have hexport : d.sends (mapExport (orphansNoted d)) := sends_trans hnoted (mapExport_sends _)
  exact sends_trans hexport (sends_within (mapCloseLayer_within (mapExport (orphansNoted d))) rfl)

theorem closeExported_trd (d : Dev) : (closeExported d).trd = { d.trd with
    pauseOrphan := d.trd.pauseOrphan || d.on TRD_POLICY_ORPHAN && d.reg TRD_ORPHANS ≠ 0 } :=
  ((mapCloseLayer_within _).frame.2 .trd rfl).trans ((mapExport_within _).frame.2 .trd rfl)

section
variable (i : Slot) (d : Dev)

theorem closeReleased_own : d.within [.ev, .wal, .chain, .trd] [2, 18, 20] (closeReleased i d) :=
  within_comp (occur_within 101 0xFF 0 _ (by decide)) (freeSlot_within i d) rfl rfl

theorem closeReleased_sends : d.sends (closeReleased i d) :=
  sends_trans (freeSlot_sends i d) (sends_of_chain ((occur_within 101 0xFF 0 _ (by decide)).frame.2 .chain rfl))

theorem closeReleased_pends : (closeReleased i d).pends 101 ∧ (closeReleased i d).pends 109 :=
  ⟨occur_pends 101 0xFF 0 _ (by decide), keepsPending_occur (by decide) 0xFF 0 _ 109 (by decide) (freeSlot_pends i d)⟩

theorem closeReleased_slotState (j : Slot) : (closeReleased i d).slotState j = if j = i then 0 else d.slotState j := by
  rw [closeReleased, slotState_congr (reg_occur 101 0xFF 0 _ _ (by decide) (eventReg_slotStatus j))]
  split
  · next h => rw [h, freeSlot_slotState_same]
  · next h => rw [freeSlot_slotState_ne h]

theorem closeReleased_trd : (closeReleased i d).trd = (d.slotMod i fun _ => LayerSlot.reset).trd :=
  ((occur_within 101 0xFF 0 _ (by decide)).frame.2 .trd rfl).trans (freeSlot_trd i d)

/-- The release of a slot touches no other register of the Treadle. -/
theorem closeReleased_reg {a : Nat} (ha : a ≠ slotStatus i) (he : eventReg a = false) :
    (closeReleased i d).reg a = d.reg a :=
  (reg_occur 101 0xFF 0 a _ (by decide) he).trans ((freeSlot_withEvent i d).2 a (by simpa using ha) he)

end

section
variable (d : Dev)

theorem closeCompleted_own : d.within [.ev, .wal, .chain, .trd, .mpl] [2, 11, 18, 20] (closeCompleted d) :=
  within_comp (closeReleased_own _ _) (within_comp (closeExported_own _) (within_mono (closeReported_own d) rfl rfl) rfl rfl)
    rfl rfl

theorem closeCompleted_reg {a : Nat} (ha : a ≠ slotStatus d.activeSlot) (hb : [2, 11, 18].contains (a / 0x10000) = false) :
    (closeCompleted d).reg a = d.reg a := by
  rw [closeCompleted, closeReleased_reg _ _ ha (eventReg_block (contains_of_all (by decide) hb)),
    (closeExported_own _).frame.1 a (contains_of_all (by decide) hb),
    (closeReported_own d).frame.1 a (contains_of_all (by decide) hb)]

theorem closeCompleted_trdState : (closeCompleted d).trdState = d.trdState := by
  rw [Dev.trdState, Dev.trdState, Dev.get, Dev.get, closeCompleted_reg d (slotStatus_ne _ (by decide)).symm (by decide)]

theorem closeCompleted_slotState (j : Slot) :
    (closeCompleted d).slotState j = if j = d.activeSlot then 0 else d.slotState j := by
  rw [closeCompleted, closeReleased_slotState, slotState_within (closeExported_own _) rfl,
    slotState_within (closeReported_own d) rfl]

theorem closeCompleted_pauses (h : d.on TRD_POLICY_ORPHAN = false) :
    (closeCompleted d).trd.pauseCmd = d.trd.pauseCmd ∧ (closeCompleted d).trd.pauseReact = d.trd.pauseReact ∧
      (closeCompleted d).trd.pauseOrphan = d.trd.pauseOrphan := by
  have htrd : (closeReported d).trd = d.trd := (closeReported_own d).frame.2 .trd rfl
  have hpolicy : (closeReported d).on TRD_POLICY_ORPHAN = false := by
    rw [← h, Dev.on, Dev.on, Dev.get, Dev.get, (closeReported_own d).frame.1 _ (by decide)]
  have hexp : (closeExported (closeReported d)).trd = d.trd := by
    rw [closeExported_trd, hpolicy, htrd]
    simp
  rw [closeCompleted, closeReleased_trd]
  simp only [Dev.slotMod, Dev.trdMod, hexp, and_self]

theorem closeCompleted_queued : ∃ f ∈ ((closeCompleted d).cport d.upstream).ownQ, f.kind = 2 ∧
    leAt f.payload 0 1 = 0x22 ∧ f.payload.drop 4 = wordsBytes d.reportWords := by
  obtain ⟨f, hf, hrest⟩ := closeReported_queued d
  have hsends := sends_trans (closeExported_sends (closeReported d)) (closeReleased_sends d.activeSlot _)
  exact ⟨f, (hsends d.upstream).2.subset hf, hrest⟩

end

/-- The choice of the next layer between the best so far and slot `i`. -/
def nextBest (d : Dev) (best : Option Slot) (i : Slot) : Option Slot :=
  if 2 ≤ d.slotState i && d.slotState i ≤ 4 then
    match best with
    | none => some i
    | some b => if (vat d.trd.slots i).layerNo < (vat d.trd.slots b).layerNo then some i else best
  else best

theorem nextSlot_eq (d : Dev) : d.nextSlot = (List.finRange 3).foldl (nextBest d) none := rfl

theorem nextBest_eq_none {d : Dev} {best : Option Slot} {i : Slot} :
    nextBest d best i = none ↔ best = none ∧ ¬ (2 ≤ d.slotState i ∧ d.slotState i ≤ 4) := by
  unfold nextBest
  by_cases hi : 2 ≤ d.slotState i ∧ d.slotState i ≤ 4
  · rw [if_pos (by simpa using hi)]
    cases best with
    | none => simp [hi]
    | some b => simp only [reduceCtorEq, false_and, iff_false]; split <;> simp
  · rw [if_neg (by simpa using hi)]
    simp only [hi, not_false_eq_true, and_true]

/-- There is a next layer where a slot is VALID, ALLOCATING or ALLOCATED, and only there. -/
theorem nextSlot_eq_none {d : Dev} : d.nextSlot = none ↔ ∀ i : Slot, ¬ (2 ≤ d.slotState i ∧ d.slotState i ≤ 4) := by
  have hfold (l : List Slot) (best : Option Slot) : l.foldl (nextBest d) best = none ↔
      best = none ∧ ∀ i ∈ l, ¬ (2 ≤ d.slotState i ∧ d.slotState i ≤ 4) := by
    induction l generalizing best with
    | nil => simp
    | cons i l ih => rw [List.foldl_cons, ih, nextBest_eq_none, and_assoc, List.forall_mem_cons]
  rw [nextSlot_eq, hfold]
  simp

/-- A slot freed brings no next layer. -/
theorem nextSlot_closeCompleted {d : Dev} (h : d.nextSlot = none) : (closeCompleted d).nextSlot = none := by
  rw [nextSlot_eq_none] at h ⊢
  intro j
  rw [closeCompleted_slotState]
  split
  · simp
  · exact h j

/-- With no update waiting a layer that is ready to close is closed, and the Treadle leaves. -/
theorem layerClosed_leaves {d : Dev} (hready : d.closeReady = true) (hupd : d.updateWaits = false) (hc : d.calm) :
    layerClosed d = leaveClose (closeCompleted d) := by
  have hclose : d.trdState = tClose := by
    simp only [Dev.closeReady, Bool.and_eq_true, beq_iff_eq] at hready
    exact hready.1.1.1
  have hsettle : settle (closeCompleted d) = closeCompleted d := settle_of_calm ((closeCompleted_own d).calm hc)
  have hupd' : (closeCompleted d).updateWaits = false := by
    rw [← hupd, Dev.updateWaits, Dev.updateWaits, Dev.get, Dev.get, (closeCompleted_own d).frame.1 _ (by decide)]
  unfold layerClosed
  rw [if_neg (by rw [hready]; decide)]
  extract_lets i ws u orphan v w x
  have hx : x = closeCompleted d := hsettle
  rw [hx, if_neg]
  simp [closeCompleted_trdState, hclose, hupd']

/-- The pauses that waited are taken. -/
def pausesTaken (d : Dev) : Dev := d.trdMod fun t => { t with pauseCmd := false, pauseReact := false, pauseOrphan := false }

theorem leaveClose_pauses {d : Dev} (h : (d.trd.pauseCmd || d.trd.pauseReact || d.trd.pauseOrphan) = true) :
    leaveClose d = enterPaused tClose (pausesTaken d) := if_pos h

theorem leaveClose_idle {d : Dev} (h : (d.trd.pauseCmd || d.trd.pauseReact || d.trd.pauseOrphan) = false)
    (hnext : d.nextSlot = none) : leaveClose d = trdEnter tIdle true d := by
  unfold leaveClose
  rw [if_neg (by rw [h]; decide), hnext]

theorem idle_commitsNone (d : Dev) : d.commitsNone tIdle := commitsNone_of_ne (by decide) (by decide) d

section
variable {d : Dev} (hnext : d.nextSlot = none)
include hnext

/-- Without a next layer the Treadle leaves for PAUSED or IDLE. -/
theorem leaveClose_cases : leaveClose d = enterPaused tClose (pausesTaken d) ∨ leaveClose d = trdEnter tIdle true d := by
  cases h : d.trd.pauseCmd || d.trd.pauseReact || d.trd.pauseOrphan with
  | true => exact .inl (leaveClose_pauses h)
  | false => exact .inr (leaveClose_idle h hnext)

theorem leaveClose_own : d.within [.ev, .wal, .chain, .trd] [2, 18, 20] (leaveClose d) := by
  rcases leaveClose_cases hnext with h | h <;> rw [h]
  · exact within_comp (enterPaused_steady tClose _) (within_mono (trdMod_within _ d) rfl rfl) rfl rfl
  · exact within_mono (trdEnter_steady (idle_commitsNone d)) rfl rfl

theorem leaveClose_keepsPending : d.keepsPending (leaveClose d) := by
  rcases leaveClose_cases hnext with h | h <;> rw [h]
  · exact keepsPending_trans (within_keepsPending (trdMod_within _ d) rfl) (enterPaused_keepsPending tClose _)
  · exact trdEnter_keepsPending (idle_commitsNone d)

theorem leaveClose_sends : d.sends (leaveClose d) := by
  rcases leaveClose_cases hnext with h | h <;> rw [h]
  · exact sends_trans (sends_within (trdMod_within _ d) rfl) (enterPaused_sends tClose _)
  · exact trdEnter_sends (idle_commitsNone d)

theorem leaveClose_slotState (i : Slot) : (leaveClose d).slotState i = d.slotState i := by
  have hne : slotStatus i ∉ [TRD_STATE, TRD_TICK_LO, TRD_TICK_HI] := by
    simp only [List.mem_cons, List.not_mem_nil, or_false, not_or]
    exact ⟨slotStatus_ne i (by decide), slotStatus_ne i (by decide), slotStatus_ne i (by decide)⟩
  rcases leaveClose_cases hnext with h | h <;> rw [h]
  · exact slotState_congr (enterPaused_reg tClose (pausesTaken d) hne (eventReg_slotStatus i))
  · exact slotState_congr (trdEnter_reg (idle_commitsNone d) hne (eventReg_slotStatus i))

end

/-! ### LAYER_PREP (R64, R66) -/

/-- The registers of the Treadle beside the count of orphans, and the start times of the slots, are as they were. -/
def Dev.keepsLayer (d t : Dev) : Prop :=
  (∀ a, a / 0x10000 = 20 → a ≠ TRD_ORPHANS → t.reg a = d.reg a) ∧
    ∀ i : Slot, (vat t.trd.slots i).start = (vat d.trd.slots i).start

section
variable {d t u : Dev}

theorem keepsLayer_refl (d : Dev) : d.keepsLayer d := ⟨fun _ _ _ => rfl, fun _ => rfl⟩

theorem keepsLayer_trans (h : d.keepsLayer t) (k : t.keepsLayer u) : d.keepsLayer u :=
  ⟨fun a hb ho => (k.1 a hb ho).trans (h.1 a hb ho), fun i => (k.2 i).trans (h.2 i)⟩

theorem keepsLayer_ite (c : Prop) [Decidable c] (h : d.keepsLayer t) (k : d.keepsLayer u) :
    d.keepsLayer (if c then t else u) := by
  split
  · exact h
  · exact k

theorem keepsLayer_foldl {α : Type} (g : Dev → α → Dev) (hg : ∀ (v : Dev) x, v.keepsLayer (g v x)) (l : List α) (d : Dev) :
    d.keepsLayer (l.foldl g d) := by
  induction l generalizing d with
  | nil => exact keepsLayer_refl d
  | cons x l ih => exact keepsLayer_trans (hg d x) (ih _)

theorem keepsLayer_within {P : List Part} {B : List Nat} (h : d.within P B t) (hp : P.contains .trd = false)
    (hb : B.contains 20 = false) : d.keepsLayer t :=
  ⟨fun a h20 _ => h.frame.1 a (by rw [h20]; exact hb), fun i => by rw [h.frame.2 .trd hp]⟩

end

theorem keepsLayer_slotMod {f : LayerSlot → LayerSlot} (hf : ∀ x, (f x).start = x.start) (i : Slot) (d : Dev) :
    d.keepsLayer (d.slotMod i f) :=
  ⟨fun _ _ _ => rfl, fun j => vat_vmod_of d.trd.slots f LayerSlot.start hf i j⟩

theorem keepsLayer_setStream (n : Station) (l : List (List Nat)) (d : Dev) : d.keepsLayer (setStream n l d) := by
  refine keepsLayer_slotMod ?_ d.activeSlot d
  exact fun _ => rfl

theorem keepsLayer_setReg (d : Dev) {a : Nat} (h : a / 0x10000 ≠ 20 ∨ a = TRD_ORPHANS) (v : Nat) :
    d.keepsLayer (d.setReg a v) := by
  refine ⟨fun b hb ho => reg_setReg_ne d v ?_, fun _ => rfl⟩
  rintro rfl
  exact h.elim (fun h => h hb) ho

theorem reportOrphans_keepsLayer (i : Slot) (k : Nat) (d : Dev) : d.keepsLayer (reportOrphans i k d) := by
  refine ⟨fun a hb ho => (reportOrphans_withFault i k d).2 a ?_ (faultReg_block (by rw [hb]; decide)), fun j => ?_⟩
  · have hshd : a ≠ SHD_ORPHANS := by rintro rfl; exact absurd hb (by decide)
    simp [ho, hshd]
  · rcases reportOrphans_cases i k d with h | h <;> rw [h]
    rw [(faultEvent_within 0x37 sevInfo i.val 108 _ (by decide) (by decide)).frame.2 .trd rfl, orphansCounted_trd]
    exact vat_vmod_of d.trd.slots (fun x => { x with orphans := x.orphans + k }) LayerSlot.start (fun _ => rfl) i j

theorem feedN_keepsLayer (n : Station) (k : Nat) (d : Dev) : d.keepsLayer (feedN n k d) := by
  induction k generalizing d with
  | zero => exact keepsLayer_refl d
  | succ k ih =>
    unfold feedN
    split
    · exact keepsLayer_refl d
    · next w t _ =>
      split
      · exact keepsLayer_refl d
      · have hpush := keepsLayer_within (bobPush_within n.val (wordsBytes (w.take 8)) d (by omega)) rfl rfl
        generalize bobPush n.val (wordsBytes (w.take 8)) d = r at hpush ⊢
        have hstream := keepsLayer_trans hpush (keepsLayer_setStream n t r.2)
        refine keepsLayer_trans ?_ (ih _)
        split
        · exact hstream
        · exact hstream

theorem streamsEnded_keepsLayer (l : List Station) (d : Dev) : d.keepsLayer (streamsEnded l d) :=
  keepsLayer_foldl _ (fun u n => keepsLayer_trans (keepsLayer_within (shtMod_within n _ u) rfl rfl)
    (keepsLayer_setStream n [] _)) l d

/-- What stands when a re-allocation pass begins after `u`, with the streams of the stations listed ended. -/
def streamsTaken (l : List Station) (skipped : Nat) (u : Dev) : Dev :=
  ((streamsEnded l (u.commit .pass 0 (2 ^ 32))).count SHD_SKIPPED skipped).shdMod fun x => { x with request := 0 }

/-- Where a re-allocation starts, a pass begins; one that ran may have left orphans. -/
theorem reallocStart_cases (placed : Nat) (d : Dev) : reallocStart placed d = d ∨
    ∃ (ps : ShedPass) (l : List Station) (skipped : Nat) (u : Dev), (u = d ∨ ∃ k, u = reportOrphans d.activeSlot k d) ∧
      reallocStart placed d = occur 113 d.activeSlot.val 0 (passBegin ps (streamsTaken l skipped u)) := by
  unfold reallocStart
  split
  · exact .inl rfl
  · refine .inr ?_
    cases hpass : d.shd.pass with
    | none => exact ⟨_, _, _, d, .inl rfl, rfl⟩
    | some ps =>
      dsimp only
      cases hagain : ps.again with
      | false => exact ⟨_, _, _, d, .inl rfl, rfl⟩
      | true => exact ⟨_, _, _, _, .inr ⟨_, rfl⟩, rfl⟩

/-- The values of a pass lie in block 7 (R584). -/
theorem passCommit_within (u : Dev) : u.within [.shadow] [7] (u.commit .pass 0 (2 ^ 32)) :=
  commitAll_within u .pass 0 (2 ^ 32) [7] pass_in (by decide)

theorem streamsTaken_own (l : List Station) (skipped : Nat) (u : Dev) :
    u.within [.trd, .sht, .shd, .shadow] [7] (streamsTaken l skipped u) := by
  exact within_comp (shdMod_within _ _) (within_comp (count_within _ SHD_SKIPPED skipped 7 rfl (.inl (by decide)))
    (within_comp (streamsEnded_own l _) (within_mono (passCommit_within u) rfl rfl) rfl rfl) rfl rfl) rfl rfl

theorem streamsTaken_keepsLayer (l : List Station) (skipped : Nat) (u : Dev) : u.keepsLayer (streamsTaken l skipped u) := by
  have hstreams := keepsLayer_trans (keepsLayer_within (passCommit_within u) rfl rfl) (streamsEnded_keepsLayer l _)
  exact keepsLayer_trans hstreams (keepsLayer_within (P := [.shd]) (B := [7]) (within_comp (shdMod_within _ _)
    (within_mono (count_within _ SHD_SKIPPED skipped 7 rfl (.inl (by decide))) rfl rfl) rfl rfl) rfl rfl)

section
variable (placed : Nat) (d : Dev)

theorem reallocStart_own :
    d.within [.trd, .sht, .shd, .shadow, .ev, .wal, .flt, .dof, .mpl] [2, 7, 18, 20] (reallocStart placed d) := by
  rcases reallocStart_cases placed d with h | ⟨ps, l, skipped, u, hu, h⟩ <;> rw [h]
  · exact within_refl _ _ d
  · have hu' : d.within [.trd, .ev, .wal, .flt, .dof, .mpl] [2, 7, 18, 20] u := by
      rcases hu with rfl | ⟨k, rfl⟩
      · exact within_refl _ _ u
      · exact within_mono (reportOrphans_within _ k d) rfl rfl
    exact within_comp (occur_within 113 _ _ _ (by decide)) (within_comp (passBegin_own ps _)
      (within_comp (streamsTaken_own l skipped u) (within_mono hu' rfl rfl) rfl rfl) rfl rfl) rfl rfl

theorem reallocStart_keepsLayer : d.keepsLayer (reallocStart placed d) := by
  rcases reallocStart_cases placed d with h | ⟨ps, l, skipped, u, hu, h⟩ <;> rw [h]
  · exact keepsLayer_refl d
  · have hu' : d.keepsLayer u := by
      rcases hu with rfl | ⟨k, rfl⟩
      · exact keepsLayer_refl u
      · exact reportOrphans_keepsLayer _ k d
    exact keepsLayer_trans hu' (keepsLayer_trans (streamsTaken_keepsLayer l skipped u)
      (keepsLayer_trans (keepsLayer_within (passBegin_own ps _) rfl rfl)
        (keepsLayer_within (occur_within 113 _ _ _ (by decide)) rfl rfl)))

end

/-- The grids checked before the layer's values are committed (R157). -/
def gridsChecked (d : Dev) : Dev := (List.finRange 16).foldl (fun (t : Dev) n => gridCheck n t) d

theorem enterPrep_eq (d : Dev) : enterPrep d = trimLayer (trdEnter tPrep true (gridsChecked d)) := rfl

theorem gridsChecked_own (d : Dev) : d.within [.shadow, .ev, .wal] [2, 8, 18] (gridsChecked d) :=
  within_foldl _ _ (fun u n => gridCheck_within n u) (within_refl _ _ d)

/-- Where no RWS write waits, the check of the grids brings none. -/
theorem gridsChecked_shadow {d : Dev} (h : d.shadow = []) : (gridsChecked d).shadow = [] := by
  have hstep (n : Station) (u : Dev) (hu : u.shadow = []) : (gridCheck n u).shadow = [] := by
    unfold gridCheck
    extract_lets a w
    have hflag : (shtFlag n (SHT_FLAGS_GRID_CRC n) 0 { u with shadow := u.shadow.filter (·.1 ≠ a) }).shadow = [] := by
      refine ((flagEvent_within _ (128 + n.val) n.val 0 8 _ (by omega) (by simp only [SHT_FLAGS]; omega)
        (.inl (by decide))).frame.2 .shadow rfl).trans ?_
      rw [hu, List.filter_nil]
    simp only [apply_ite Dev.shadow, hflag]
    simp only [hu, ite_self]
  unfold gridsChecked
  generalize List.finRange 16 = l
  induction l generalizing d with
  | nil => exact h
  | cons n l ih => exact ih (hstep n d h)

section
variable {d : Dev} (h : d.shadow = [])
include h

theorem prep_commitsNone : (gridsChecked d).commitsNone tPrep := .inl (gridsChecked_shadow h)

/-- LAYER_PREP is entered; of the Treadle's registers the state is shown. -/
theorem enterPrep_get (g : Field) (ha : g.addr = TRD_STATE) (h32 : g.hi < 32) (hs : 9 < g.lo) :
    (enterPrep d).get g = d.get g := by
  have htrim := (trimLayer_within (trdEnter tPrep true (gridsChecked d))).frame.1 TRD_STATE (by decide)
  rw [enterPrep_eq, Dev.get, ha, htrim, ← ha]
  refine (trdEnter_get (prep_commitsNone h) g ha h32 (.inr hs)).trans ?_
  rw [Dev.get, Dev.get, ha, (gridsChecked_own d).frame.1 _ (by decide)]

theorem enterPrep_trdState : (enterPrep d).trdState = tPrep := by
  rw [enterPrep_eq, Dev.trdState, Dev.get, (trimLayer_within _).frame.1 _ (by decide)]
  exact trdEnter_trdState (prep_commitsNone h) (by decide)

theorem enterPrep_reg {a : Nat} (h20 : a / 0x10000 = 20) (ha : a ∉ [TRD_STATE, TRD_TICK_LO, TRD_TICK_HI]) :
    (enterPrep d).reg a = d.reg a := by
  rw [enterPrep_eq, (trimLayer_within _).frame.1 _ (by rw [h20]; decide),
    trdEnter_reg (prep_commitsNone h) ha (eventReg_block (by rw [h20]; decide)),
    (gridsChecked_own d).frame.1 _ (by rw [h20]; decide)]

end

theorem enterPrep_trd (d : Dev) : (enterPrep d).trd = d.trd := (enterPrep_within d).frame.2 .trd rfl

/-- The slot ACTIVE, its job and number shown, before its start time is held again. -/
def layerShown (i : Slot) (d : Dev) : Dev :=
  ((setSlotState i 5 (d.put TRD_STATE_ACTIVE_SLOT i.val)).setReg TRD_JOB (vat d.trd.slots i).jobId).setReg TRD_LAYER
    (vat d.trd.slots i).layerNo

/-- The Treadle's record begins the layer of record `x`. -/
def layerNoted (x : LayerSlot) (d : Dev) : Dev :=
  d.trdMod fun t => { t with
    lastActive := if x.jobId = t.job then some x.layerNo else t.lastActive
    imaged := false, imagesLeft := 0, captureDue := false, recoatStep := 0, platSteps := 0 }

/-- The next layer becomes the active one: its slot ACTIVE, its job and number shown, its start time held. -/
def layerTaken (i : Slot) (d : Dev) : Dev :=
  setStart i (vat d.trd.slots i).start (layerNoted (vat d.trd.slots i) (layerShown i d))

/-- What a layer brings once LAYER_PREP is entered: counters, bobbins, Shuttles, targets and the map (R66, R98, R217). -/
def layerLoaded (x : LayerSlot) (d : Dev) : Dev :=
  let u := ((d.setReg TRD_ORPHANS x.orphans).setReg SHD_ORPHANS x.orphans).setReg SHD_SKIPPED 0
  mapOpenLayer (loadTargets x.targets
    ((List.finRange 16).foldl (fun (t : Dev) (n : Station) => bobFlush n.val (shtPrepare n t)) u))

/-- The stations that are out whose streams are remaining work. -/
def remainingMask (d : Dev) : Nat :=
  (List.finRange 16).foldl (fun (m : Nat) (n : Station) =>
    if d.stationOut n && (d.stream n).any (!isEnd ·) then m + 2 ^ n.val else m) 0

/-- The remaining work of stations that are out starts a re-allocation; the streams of the others are preloaded (R117). -/
def layerFed (d : Dev) : Dev :=
  let u := d.shdMod fun y => { y with request := remainingMask d }
  let u := if remainingMask d = 0 then u else reallocStart 0 u
  (List.finRange 16).foldl (fun (t : Dev) (n : Station) => if t.stationOut n then setStream n [] t else feed n t) u

theorem layerPrep_eq (i : Slot) (d : Dev) :
    layerPrep i d = layerFed (layerLoaded (vat d.trd.slots i) (enterPrep (layerTaken i d))) := rfl

/-! ### The layer that LAYER_PREP takes -/

/-- A start time that is set changes no other register. -/
theorem setStart_reg (i : Slot) (t : Option StartTime) (d : Dev) {a : Nat}
    (h : a ∉ [slotStatus i, TRD_START_NS, TRD_START_SEC_LO, TRD_START_SEC_HI]) : (setStart i t d).reg a = d.reg a := by
  have hreg := (setStart_regsOnly i t d).2 a h
  simpa only [Dev.reg] using hreg

theorem layerNoted_own (x : LayerSlot) (d : Dev) : d.within [.trd] [] (layerNoted x d) := trdMod_within _ d

section
variable (i : Slot) (d : Dev)

theorem layerShown_own : d.within [] [20] (layerShown i d) := by
  have hset {u : Dev} {a v : Nat} (ha : a / 0x10000 = 20) (h : d.within [] [20] u) : d.within [] [20] (u.setReg a v) :=
    within_comp (setReg_within u a v 20 ha (.inl (by decide))) h rfl rfl
  have hput : d.within [] [20] (d.put TRD_STATE_ACTIVE_SLOT i.val) := put_within d _ _ 20 rfl (.inl (by decide))
  exact hset rfl (hset rfl (within_comp (setSlotState_within i 5 _) hput rfl rfl))

theorem layerTaken_own : d.within [.trd] [20] (layerTaken i d) := by
  unfold layerTaken
  exact within_comp (setStart_own i _ _) (within_comp (layerNoted_own _ _) (within_mono (layerShown_own i d) rfl rfl)
    rfl rfl) rfl rfl

theorem layerTaken_reg {a : Nat} (h : a ∉ [slotStatus i, TRD_START_NS, TRD_START_SEC_LO, TRD_START_SEC_HI]) :
    (layerTaken i d).reg a = (layerShown i d).reg a := by
  rw [layerTaken, setStart_reg i _ _ h, (layerNoted_own _ _).frame.1 a rfl]

theorem layerTaken_slotState (j : Slot) : (layerTaken i d).slotState j = if j = i then 5 else d.slotState j := by
  have hreg (u : Dev) (v w : Nat) : ((u.setReg TRD_JOB v).setReg TRD_LAYER w).slotState j = u.slotState j :=
    slotState_congr ((reg_setReg_ne _ _ (slotStatus_ne j (by decide))).trans (reg_setReg_ne _ _ (slotStatus_ne j (by decide))))
  have hput : (d.put TRD_STATE_ACTIVE_SLOT i.val).slotState j = d.slotState j :=
    slotState_congr (reg_put_ne _ _ _ (slotStatus_ne j (by decide)))
  rw [layerTaken, setStart_slotState, slotState_within (layerNoted_own _ _) rfl, layerShown, hreg]
  split
  · next h => rw [h, slotState_setSlotState i (by decide)]
  · next h => rw [slotState_setSlotState_ne h, hput]

/-- A slot's status word is none of the registers listed that lie outside the slots' three. -/
theorem not_mem_startRegs {a : Nat} (h : a < TRD_SLOT0_STATUS ∨ TRD_SLOT0_STATUS + 12 ≤ a)
    (hs : a ∉ [TRD_START_NS, TRD_START_SEC_LO, TRD_START_SEC_HI]) :
    a ∉ [slotStatus i, TRD_START_NS, TRD_START_SEC_LO, TRD_START_SEC_HI] :=
  List.not_mem_cons_of_ne_of_not_mem (slotStatus_ne i h).symm hs

theorem layerTaken_activeSlot : (layerTaken i d).get TRD_STATE_ACTIVE_SLOT = i.val := by
  rw [Dev.get, layerTaken_reg i d (not_mem_startRegs i (by decide) (by decide)), layerShown,
    reg_setReg_ne _ _ (by decide), reg_setReg_ne _ _ (by decide), setSlotState,
    reg_setReg_ne _ _ (slotStatus_ne i (by decide)).symm]
  refine (get_put_same d TRD_STATE_ACTIVE_SLOT i.val (by decide) (by decide)).trans ?_
  exact Nat.mod_eq_of_lt (i.isLt.trans (by decide))

theorem layerTaken_job : (layerTaken i d).reg TRD_JOB = (vat d.trd.slots i).jobId % 2 ^ 32 := by
  rw [layerTaken_reg i d (not_mem_startRegs i (by decide) (by decide)), layerShown, reg_setReg_ne _ _ (by decide),
    reg_setReg_same]

theorem layerTaken_layer : (layerTaken i d).reg TRD_LAYER = (vat d.trd.slots i).layerNo % 2 ^ 32 := by
  rw [layerTaken_reg i d (not_mem_startRegs i (by decide) (by decide)), layerShown, reg_setReg_same]

theorem layerTaken_start : (vat (layerTaken i d).trd.slots i).start = (vat d.trd.slots i).start := by
  rw [layerTaken, setStart_trd, slotMod_slot_same]

end

/-! ### What the layer brings -/

section
variable (x : LayerSlot) (d : Dev)

/-- The counts of a layer's orphans and skipped picks. -/
def layerCounted (x : LayerSlot) (d : Dev) : Dev :=
  ((d.setReg TRD_ORPHANS x.orphans).setReg SHD_ORPHANS x.orphans).setReg SHD_SKIPPED 0

/-- The pick bobbins emptied and the Shuttles at the start of their layer. -/
def stationsPrepared (d : Dev) : Dev :=
  (List.finRange 16).foldl (fun (t : Dev) (n : Station) => bobFlush n.val (shtPrepare n t)) d

theorem layerLoaded_eq :
    layerLoaded x d = mapOpenLayer (loadTargets x.targets (stationsPrepared (layerCounted x d))) := rfl

theorem stationsPrepared_own : d.within [.shadow, .sht, .crl] [3, 8] (stationsPrepared d) :=
  within_foldl _ _ (fun u n => within_comp (bobFlush_within n.val _ (by omega)) (within_mono (shtPrepare_within n u) rfl rfl)
    rfl rfl) (within_refl _ _ d)

theorem layerCounted_own : d.within [] [7, 20] (layerCounted x d) := by
  have hset {u : Dev} {a v : Nat} (ha : [7, 20].contains (a / 0x10000) = true) (h : d.within [] [7, 20] u) :
      d.within [] [7, 20] (u.setReg a v) :=
    within_comp (setReg_within u a v _ rfl (.inl (by rintro h2; rw [h2] at ha; exact absurd ha (by decide)))) h rfl
      (by simpa using ha)
  exact hset (by decide) (hset (by decide) (hset (by decide) (within_refl _ _ d)))

theorem layerCounted_keepsLayer : d.keepsLayer (layerCounted x d) :=
  keepsLayer_trans (keepsLayer_setReg d (.inr rfl) _)
    (keepsLayer_trans (keepsLayer_setReg _ (.inl (by decide)) _) (keepsLayer_setReg _ (.inl (by decide)) _))

theorem layerLoaded_own : d.within [.shadow, .sht, .crl, .creel, .mpl] [3, 7, 8, 11, 20] (layerLoaded x d) := by
  rw [layerLoaded_eq]
  exact within_comp (mapOpenLayer_within _) (within_comp (loadTargets_within x.targets _) (within_comp (stationsPrepared_own _)
    (within_mono (layerCounted_own x d) rfl rfl) rfl rfl) rfl rfl) rfl rfl

theorem layerLoaded_keepsLayer : d.keepsLayer (layerLoaded x d) := by
  rw [layerLoaded_eq]
  exact keepsLayer_trans (layerCounted_keepsLayer x d) (keepsLayer_trans (keepsLayer_within (stationsPrepared_own _) rfl rfl)
    (keepsLayer_trans (keepsLayer_within (loadTargets_within x.targets _) rfl rfl)
      (keepsLayer_within (mapOpenLayer_within _) rfl rfl)))

end

section
variable (d : Dev)

/-- The request of the stations that are out, and the pass that takes it. -/
def remainingTaken (d : Dev) : Dev :=
  let u := d.shdMod fun y => { y with request := remainingMask d }
  if remainingMask d = 0 then u else reallocStart 0 u

/-- The streams preloaded; those of stations that are out end. -/
def streamsFed (d : Dev) : Dev :=
  (List.finRange 16).foldl (fun (t : Dev) (n : Station) => if t.stationOut n then setStream n [] t else feed n t) d

theorem layerFed_eq : layerFed d = streamsFed (remainingTaken d) := rfl

theorem remainingTaken_own :
    d.within [.trd, .sht, .shd, .shadow, .ev, .wal, .flt, .dof, .mpl] [2, 7, 18, 20] (remainingTaken d) := by
  unfold remainingTaken
  extract_lets u
  have hu : d.within [.trd, .sht, .shd, .shadow, .ev, .wal, .flt, .dof, .mpl] [2, 7, 18, 20] u :=
    within_mono (shdMod_within _ d) rfl rfl
  exact within_ite hu (within_comp (reallocStart_own 0 u) hu rfl rfl)

theorem remainingTaken_keepsLayer : d.keepsLayer (remainingTaken d) := by
  unfold remainingTaken
  extract_lets u
  have hu : d.keepsLayer u := keepsLayer_within (shdMod_within _ d) rfl rfl
  exact keepsLayer_ite _ hu (keepsLayer_trans hu (reallocStart_keepsLayer 0 u))

theorem streamsFed_own : d.within [.ev, .flt, .wal, .trd, .creel, .dof, .crl, .mpl] [2, 3, 18] (streamsFed d) :=
  within_foldl _ _ (fun u n => within_ite (within_mono (slotMod_within _ _ u) rfl rfl) (feed_within n u)) (within_refl _ _ d)

theorem streamsFed_keepsLayer : d.keepsLayer (streamsFed d) :=
  keepsLayer_foldl _ (fun u n => keepsLayer_ite _ (keepsLayer_setStream n [] u) (feedN_keepsLayer n _ u)) _ d

theorem layerFed_own :
    d.within [.trd, .sht, .shd, .shadow, .ev, .wal, .flt, .dof, .mpl, .creel, .crl] [2, 3, 7, 18, 20] (layerFed d) := by
  rw [layerFed_eq]
  exact within_comp (streamsFed_own _) (within_mono (remainingTaken_own d) rfl rfl) rfl rfl

theorem layerFed_keepsLayer : d.keepsLayer (layerFed d) := by
  rw [layerFed_eq]
  exact keepsLayer_trans (remainingTaken_keepsLayer d) (streamsFed_keepsLayer _)

end

/-! ### LAYER_PREP begun -/

section
variable (i : Slot) (d : Dev)

theorem layerPrep_own : d.within [.chain, .creel, .crl, .dof, .ev, .flt, .mpl, .shadow, .shd, .sht, .trd, .trm, .wal]
    [2, 3, 7, 8, 11, 16, 18, 20] (layerPrep i d) := by
  rw [layerPrep_eq]
  exact within_comp (layerFed_own _) (within_comp (layerLoaded_own _ _) (within_comp (enterPrep_within _)
    (within_mono (layerTaken_own i d) rfl rfl) rfl rfl) rfl rfl) rfl rfl

theorem layerPrep_keepsLayer : (enterPrep (layerTaken i d)).keepsLayer (layerPrep i d) := by
  rw [layerPrep_eq]
  exact keepsLayer_trans (layerLoaded_keepsLayer _ _) (layerFed_keepsLayer _)

theorem layerPrep_start : (vat (layerPrep i d).trd.slots i).start = (vat d.trd.slots i).start := by
  rw [(layerPrep_keepsLayer i d).2, enterPrep_trd, layerTaken_start]

end

section
variable {d : Dev} (hs : d.shadow = []) (i : Slot)
include hs

theorem layerTaken_shadow : (layerTaken i d).shadow = [] := ((layerTaken_own i d).frame.2 .shadow rfl).trans hs

theorem layerPrep_reg {a : Nat} (h20 : a / 0x10000 = 20) (ha : a ∉ [TRD_STATE, TRD_TICK_LO, TRD_TICK_HI])
    (ho : a ≠ TRD_ORPHANS) : (layerPrep i d).reg a = (layerTaken i d).reg a :=
  ((layerPrep_keepsLayer i d).1 a h20 ho).trans (enterPrep_reg (layerTaken_shadow hs i) h20 ha)

theorem layerPrep_trdState : (layerPrep i d).trdState = tPrep := by
  rw [Dev.trdState, Dev.get, (layerPrep_keepsLayer i d).1 _ (by decide) (by decide)]
  exact enterPrep_trdState (layerTaken_shadow hs i)

theorem layerPrep_activeSlot : (layerPrep i d).activeSlot = i := by
  have hget : (layerPrep i d).get TRD_STATE_ACTIVE_SLOT = i.val := by
    rw [Dev.get, (layerPrep_keepsLayer i d).1 _ (by decide) (by decide)]
    exact (enterPrep_get (layerTaken_shadow hs i) _ rfl (by decide) (by decide)).trans (layerTaken_activeSlot i d)
  refine Fin.ext ?_
  rw [Dev.activeSlot]
  simp only [hget, Nat.mod_eq_of_lt i.isLt]

theorem layerPrep_slotState (j : Slot) : (layerPrep i d).slotState j = if j = i then 5 else d.slotState j := by
  rw [← layerTaken_slotState]
  refine slotState_congr (layerPrep_reg hs i (slotStatus_block j) ?_ (slotStatus_ne j (by decide)))
  simp only [List.mem_cons, List.not_mem_nil, or_false, not_or]
  exact ⟨slotStatus_ne j (by decide), slotStatus_ne j (by decide), slotStatus_ne j (by decide)⟩

end

/-! ### The statement -/

/-- The next layer, armed and ALLOCATED, is taken. -/
theorem prepStart_takes {i : Slot} {d : Dev} (hnext : d.nextSlot = some i) (hst : d.trdState = tArmed)
    (hready : d.slotReady i = true) (hslot : d.slotState i = 4) : prepStart d = layerPrep i d := by
  simp only [prepStart, hnext, hst, hready, hslot, decide_true, Bool.and_self, if_true]

/-- A failed recoat move is one that stands still where it should not. -/
theorem recoatFault_fails {k : Nat} {d : Dev} (hst : d.trdState = tRecoat) (hk : d.trd.recoatStep = k) (h1 : 1 ≤ k) (h5 : k ≤ 5)
    (hreach : d.stepReached k = false) (hrest : d.axRunning (d.stepAxis k) = false) :
    recoatFault d = recoatFail (d.stepAxis k) d := by
  subst hk
  unfold recoatFault
  extract_lets k
  have h0 : ¬ d.trd.recoatStep = 0 := by omega
  have h6 : ¬ 6 ≤ d.trd.recoatStep := by omega
  exact if_neg (by simp [k, hst, h0, h6, hreach, hrest])

/-- Settles O50: each transition of the layer cycle is one operation, whose rules stand above. -/
theorem layerCycle : Obligations.LayerCycle := by
  unfold Obligations.LayerCycle
  intro i k j s hrun hc hs
  refine ⟨?prep, ?recoat, ?step, ?bed, ?fault, ?imaged, ?scan, ?close, ?closed⟩
  case prep =>
    intro hnext hst hready hslot
    have hown := layerPrep_own i s.dev
    refine ⟨_, actIn_of_eq hrun (prepStart_takes hnext hst hready hslot) (hown.calm hc).1, layerPrep_trdState hs i, ?_,
      layerPrep_activeSlot hs i, ?_, ?_, layerPrep_start i s.dev, ?_, (within_mono hown rfl rfl).frame⟩
    · rw [layerPrep_slotState hs, if_pos rfl]
    · rw [layerPrep_reg hs i (by decide) (by decide) (by decide), layerTaken_job]
    · rw [layerPrep_reg hs i (by decide) (by decide) (by decide), layerTaken_layer]
    · intro m hm
      rw [layerPrep_slotState hs, if_neg hm]
  case recoat =>
    intro hst hfull
    have hstep : (recoatEntered s.dev).stepFrom 1 ≤ 5 := by rw [stepFrom_one]; decide
    have hall := within_comp (recoatGo_own hstep) (within_mono (recoatEntered_own s.dev) rfl rfl)
      (P := [.axes, .chain, .dof, .ev, .flt, .isp, .lmp, .mpl, .pins, .trd, .trm, .wal]) (B := [2, 9, 12, 13, 16, 18, 20]) rfl rfl
    have htrd := recoatGo_trd hstep
    have hresid : (recoatGo 1 (recoatEntered s.dev)).reg TRD_PLAT_RESID = (platformTaken s.dev).reg TRD_PLAT_RESID :=
      (recoatMove_reg (d := stepBegun 1 (recoatEntered s.dev)) hstep (by decide) (by decide)).trans
        (recoatEntered_resid s.dev)
    have hsteps : (recoatGo 1 (recoatEntered s.dev)).trd.platSteps = (platformTaken s.dev).trd.platSteps := by
      rw [htrd, ← recoatEntered_trd]
      rfl
    obtain ⟨hsum, hlt⟩ := platformTaken_sum s.dev
    refine ⟨_, actIn_of_eq hrun (prepDone_begins hst hfull) (hall.calm hc).1,
      recoatGo_trdStage hstep (recoatEntered_trdState s.dev), ?_, ?_, ?_, hall.frame⟩
    · rw [hsteps, hresid, hsum]
    · rwa [hresid]
    · rw [htrd]
      exact stepFrom_one (recoatEntered s.dev)
  case step =>
    intro hst hk h1 h5 hreach hj hj5
    have hfrom : (stepFinished k s.dev).stepFrom (k + 1) = j := (stepFrom_stepFinished k (k + 1) s.dev).trans hj
    have hall := within_comp (recoatGo_own (hfrom ▸ hj5)) (within_mono (stepFinished_own k s.dev) rfl rfl)
      (P := [.axes, .chain, .dof, .ev, .flt, .isp, .lmp, .mpl, .pins, .trd, .wal]) (B := [2, 9, 12, 13, 18, 20]) rfl rfl
    have htrd := recoatGo_trd (d := stepFinished k s.dev) (k := k + 1) (hfrom ▸ hj5)
    refine ⟨_, actIn_of_eq hrun (recoatStepDone_next hst hk h1 h5 hreach) (hall.calm hc).1,
      recoatGo_trdStage (hfrom ▸ hj5) ((stepFinished_trdState k s.dev).trans hst), ?_, ?_, ?_, hall.frame⟩
    · rw [htrd]
      exact hfrom
    · rw [htrd]
      exact congrArg Treadle.farEnd (stepFinished_trd k s.dev)
    · intro h4 h5'
      rw [htrd, stepFinished_of_ne h4 h5', ← hj]
      rfl
  case bed =>
    intro hst hk h1 h5 hreach hj hrest
    have hfrom : (stepFinished k s.dev).stepFrom (k + 1) = 6 := (stepFrom_stepFinished k (k + 1) s.dev).trans hj
    have hrest' (m : Axis) : (stepFinished k s.dev).axRunning m = false := (stepFinished_axRunning k m s.dev).trans (hrest m)
    have hdo := (recoatStepDone_next hst hk h1 h5 hreach).trans (recoatGo_end hfrom hrest')
    have hall := within_comp (enterBed_own (stepBegun (k + 1) (stepFinished k s.dev))) (within_comp (stepBegun_own (k + 1) _)
      (within_mono (stepFinished_own k s.dev) rfl rfl) rfl rfl)
      (P := [.chain, .dof, .ev, .flt, .isp, .lmp, .mpl, .pins, .trd, .wal]) (B := [2, 9, 13, 18, 20]) rfl rfl
    refine ⟨_, actIn_of_eq hrun hdo (hall.calm hc).1, enterBed_trdState _, ?_, ?_, hall.frame⟩
    · rw [enterBed_trd]
      exact (bedBegun_trd _).1
    · intro hmode
      rw [enterBed_trd]
      exact (bedBegun_trd _).2 ((congrArg (bit · 0) (stepFinished_activeMode k s.dev)).trans hmode)
  case fault =>
    intro hst hk h1 h5 hreach hrest
    obtain ⟨hon, hdetect, hpend⟩ := recoatFail_told (s.dev.stepAxis k) s.dev
    have hown := recoatFail_own (s.dev.stepAxis k) s.dev
    exact ⟨_, actIn_of_eq hrun (recoatFault_fails hst hk h1 h5 hreach hrest) (hown.calm hc).1,
      enterPaused_trdState tRecoat _, recoatFail_trdStage _ _, hon, hdetect, hpend, enterPaused_pends tRecoat _,
      (within_mono hown rfl rfl).frame⟩
  case imaged =>
    intro hactive hstage himaged
    have hdo : bedImageDone s.dev = bedFlags s.dev := if_pos (by simp [hactive, hstage, himaged])
    refine (actIn_of_eq hrun hdo ((bedFlags_within s.dev).calm hc).1).trans ?_
    rw [bedFlags, Option.not_isSome]
  case scan =>
    intro hready hstart hk
    have hown := scanEntered_own s.dev
    refine ⟨_, actIn_of_eq hrun (layerScan_enters hready hstart hk) (hown.calm hc).1, scanEntered_trdState s.dev,
      scanEntered_pends s.dev, fun n => ⟨?_, ?_, ?_, ?_, scanEntered_meltDevs s.dev n⟩, scanEntered_mapLate s.dev,
      scanEntered_trd s.dev, (within_mono hown rfl rfl).frame⟩
    · exact scanEntered_zero s.dev (n := n) (by simp [shtScanRegs])
    · exact scanEntered_zero s.dev (n := n) (by simp [shtScanRegs])
    · exact scanEntered_zero s.dev (n := n) (by simp [shtScanRegs])
    · exact scanEntered_zero s.dev (n := n) (by simp)
  case close =>
    intro hst hdone
    obtain ⟨hstate, hpend, ⟨m, c, b, htrd⟩, hall⟩ := layerClose_spec hst hdone
    refine ⟨_, actIn_of_eq hrun rfl (hall.calm hc).1, hstate, hpend, ?_, ?_, ?_, hall.frame⟩
    all_goals
      rw [htrd]
      rfl
  case closed =>
    intro hready hi hupd hnext horphan
    subst hi
    set u := closeCompleted s.dev with hu
    have hnone : u.nextSlot = none := nextSlot_closeCompleted hnext
    obtain ⟨hcmd, hreact, horph⟩ := closeCompleted_pauses s.dev horphan
    have hall := within_comp (leaveClose_own hnone) (within_mono (closeCompleted_own s.dev) rfl rfl)
      (P := [.chain, .ev, .mpl, .trd, .wal]) (B := [2, 11, 18, 20]) rfl rfl
    refine ⟨_, actIn_of_eq hrun (layerClosed_leaves hready hupd hc) (hall.calm hc).1, ?_, ?_, ?_, ?_, ?_, ?_, hall.frame⟩
    · rw [leaveClose_slotState hnone, closeCompleted_slotState, if_pos rfl]
    · exact leaveClose_keepsPending hnone 101 (by decide) (closeReleased_pends _ _).1
    · exact leaveClose_keepsPending hnone 109 (by decide) (closeReleased_pends _ _).2
    · obtain ⟨f, hf, hkind, htype, hwords⟩ := closeCompleted_queued s.dev
      rw [List.any_eq_true]
      exact ⟨f, (leaveClose_sends hnone s.dev.upstream).2.subset hf, by simp [hkind, htype, hwords]⟩
    · intro h1 h2 h3
      rw [leaveClose_idle (by rw [hcmd, hreact, horph, h1, h2, h3]; rfl) hnone]
      exact trdEnter_trdState (idle_commitsNone u) (by decide)
    · intro h1
      rw [leaveClose_pauses (by rw [hcmd, h1]; rfl)]
      exact ⟨enterPaused_trdState tClose _, enterPaused_return tClose _ (by decide), enterPaused_pends tClose _⟩

end Sys2Proof.Machine

/-!
PROOFS of the picks that enter the look-ahead queue (R134): what the consumer of a bobbin finds, what a fetch does with a record
and with an empty bobbin, what an admitted pick leaves, then the statement.
-/
namespace Sys2Proof.Machine

open Reg

/-! ### What the consumer of a bobbin finds (R407, R408, R412) -/

section
variable {b k : Nat} {d : Dev}

theorem bobPop_of_fill (hen : d.bobEn b = true) (h : k ≤ d.bobFill b) : (bobPop b k d).1 = some (d.bobPeek b k) := by
  simp [bobPop, hen, Nat.not_lt.2 h]

theorem bobPop_short (h : d.bobFill b < k) : bobPop b k d = (none, d) := by
  simp [bobPop, h]

/-- A bobbin that holds a word has a ring. -/
theorem bobSize_pos_of_fill (h : 0 < d.bobFill b) : 0 < d.bobSize b := by
  rcases Nat.eq_zero_or_pos (d.bobSize b) with h0 | h0
  · simp [Dev.bobFill, h0] at h
  · exact h0

/-- The check of the level leaves the read pointer. -/
theorem bobCheck_rd (old : Nat) (hb : b < 128) : (bobCheck b old d).get (CRLB_RD_RD b) = d.get (CRLB_RD_RD b) := by
  have hnot : CRLB_RD b ∉ bobShown b := by
    simp only [bobShown, List.mem_cons, List.not_mem_nil, or_false, CRLB_RD, CRLB_FILL, CRLB_STATUS, CRL_EVT_BOBBIN]
    omega
  have hev : eventReg (CRLB_RD b) = false := eventReg_block (by
    have hblock : CRLB_RD b / 0x10000 = 3 := by simp only [CRLB_RD]; omega
    rw [hblock]
    decide)
  simp only [Dev.get, (bobCheck_withEvent b old d).2 _ hnot hev]

/-- The consumer moves the read pointer over what it takes, modulo twice the size (R407). -/
theorem bobPop_rd (hb : b < 128) (hen : d.bobEn b = true) (h : k ≤ d.bobFill b) (hfill : 0 < d.bobFill b) :
    (bobPop b k d).2.get (CRLB_RD_RD b) = (d.get (CRLB_RD_RD b) + k) % (2 * d.bobSize b) := by
  have hpos := bobSize_pos_of_fill hfill
  have hsize : d.bobSize b < 0x100000 := Nat.mod_lt _ (by decide)
  have hlt := Nat.mod_lt (d.get (CRLB_RD_RD b) + k) (show 0 < 2 * d.bobSize b by omega)
  simp only [bobPop, hen, Nat.not_lt.2 h, Bool.not_true, decide_false, Bool.or_self, Bool.false_eq_true, ↓reduceIte]
  rw [bobCheck_rd _ hb, get_put_same d (CRLB_RD_RD b) _ (by simp) (by simp)]
  exact Nat.mod_eq_of_lt (by show _ < 2097152; omega)

/-- An underrun is counted and shown at the bobbin, and is an event (R412). -/
theorem bobUnderrun_spec (hb : b < 128) :
    (bobUnderrun b d).on (CRLB_STATUS_UNF b) = true ∧
      (bobUnderrun b d).reg (CRLB_UNF b) = min (d.reg (CRLB_UNF b) + 1) 0xFFFFFFFF ∧
      d.withEvent [CRLB_UNF b, CRLB_STATUS b, CRL_EVT_BOBBIN] (bobUnderrun b d) := by
  have hcount : d.withEvent [CRLB_UNF b, CRLB_STATUS b, CRL_EVT_BOBBIN] (d.count (CRLB_UNF b) 1) :=
    withEvent_mono (withEvent_of (regsOnly_count d (CRLB_UNF b) 1) (EventOnly.refl _)) (by simp)
  have hevent := withEvent_bobEvent (withEvent_refl ((d.count (CRLB_UNF b) 1).put (CRLB_STATUS_UNF b) 1) [CRL_EVT_BOBBIN])
    (by simp) b 0 (e := 37) (by decide)
  have hkeep {a : Nat} (h3 : a / 0x10000 = 3) (hne : a ≠ CRL_EVT_BOBBIN) :
      (bobUnderrun b d).reg a = ((d.count (CRLB_UNF b) 1).put (CRLB_STATUS_UNF b) 1).reg a :=
    hevent.2 a (by simp [hne]) (eventReg_block (by rw [h3]; decide))
  refine ⟨?shown, ?counted, ?rest⟩
  case shown =>
    rw [Dev.on, Dev.get, hkeep (by simp only [CRLB_STATUS]; omega) (by simp only [CRLB_STATUS, CRL_EVT_BOBBIN]; omega)]
    exact on_put_one _ (CRLB_STATUS_UNF b) rfl (by simp)
  case counted =>
    rw [hkeep (by simp only [CRLB_UNF]; omega) (by simp only [CRLB_UNF, CRL_EVT_BOBBIN]; omega),
      reg_put_ne _ _ _ (by simp only [CRLB_UNF, CRLB_STATUS]; omega), reg_count_same]
  case rest => exact withEvent_bobEvent (withEvent_put hcount _ _ (by simp)) (by simp) b 0 (by decide)

end

/-! ### The stream and the limits of a station stand while its bobbin is read -/

section
variable {P : List Part} {B : List Nat} {d t : Dev} (h : d.within P B t)
include h

theorem gridBase_within (hb : B.contains 8 = false) (n : Station) : t.gridBase n = d.gridBase n := by
  have hreg {a : Nat} (h8 : a / 0x10000 = 8) : t.reg a = d.reg a := h.frame.1 a (by rw [h8]; exact hb)
  have hsel : t.on (SHT_GRID_SEL_SEL n) = d.on (SHT_GRID_SEL_SEL n) := by
    simp only [Dev.on, Dev.get, hreg (show SHT_GRID_SEL n / 0x10000 = 8 by simp only [SHT_GRID_SEL]; omega)]
  simp only [Dev.gridBase, hsel, hreg (show SHT_GRID_BASE0 n / 0x10000 = 8 by simp only [SHT_GRID_BASE0]; omega),
    hreg (show SHT_GRID_BASE1 n / 0x10000 = 8 by simp only [SHT_GRID_BASE1]; omega)]

/-- The limits and the grid of a station are registers of the Shuttles and bytes of the Creel. -/
theorem pathCfg_within (hb : B.contains 8 = false) (hp : P.contains .creel = false) (n : Station) :
    t.pathCfg n = d.pathCfg n := by
  have hreg {a : Nat} (h8 : a / 0x10000 = 8) : t.reg a = d.reg a := h.frame.1 a (by rw [h8]; exact hb)
  have hcreel : t.creel = d.creel := h.frame.2 .creel hp
  simp (disch := omega) only [Dev.pathCfg, gridBase_within h hb n, Dev.on, Dev.get, Dev.creelNat, Dev.creelBytes, hcreel,
    SHT_VMAX_PATH, SHT_A_PATH, SHT_J_PATH, SHT_A_BLEND, SHT_BLEND_DEV, SHT_JUMP_DEV, SHT_BLEND_COS, SHT_CTRL, SHT_A_STOP,
    hreg]

/-- The stream of a station is a part of the Treadle, in the slot that its registers name. -/
theorem stream_within (hb : B.contains 20 = false) (hp : P.contains .trd = false) (n : Station) :
    t.stream n = d.stream n := by
  have htrd : t.trd = d.trd := h.frame.2 .trd hp
  have hslot : t.reg TRD_STATE = d.reg TRD_STATE := h.frame.1 _ hb
  simp only [Dev.stream, Dev.activeSlot, Dev.get, htrd, hslot]

end

/-! ### A fetch (R134) -/

/-- Two changes of one element are one. -/
theorem vmod_vmod {α : Type} {m : Nat} (v : Vector α m) (i : Fin m) (f g : α → α) :
    vmod (vmod v i f) i g = vmod v i fun x => g (f x) := by
  simp [vmod, vput, vat]

theorem feed_of_played {n : Station} {d : Dev} (h : d.stream n = []) : feed n d = d := by
  simp [feed, h, feedN]

/-- The station runs, has not taken END_OF_LIST and has room in its queue; its stream has all been played. -/
structure Dev.fetches (n : Station) (d : Dev) : Prop where
  runs : d.shuttlesRun = true
  inUse : d.isRetired n.val = false
  sawEnd : (d.shtl n).sawEnd = false
  room : (d.shtl n).queue.length < d.lookDepth n
  played : d.stream n = []

/-- The record at the head of the station's bobbin, in words. -/
def Dev.headWords (d : Dev) (n : Station) : List Nat := bytesWords (d.bobPeek n.val 1)

/-- The pick that those words give, of type `typ`. -/
def Dev.headPick (d : Dev) (n : Station) (typ : Nat) : Pick :=
  Pick.ofWords (d.shtl n).taken
    (if typ = 3 ∨ typ = 4 then sx 32 ((d.headWords n).getD 7 0) else (d.shtl n).zNext) (d.headWords n)

/-- The station has taken the record at the head of its bobbin. -/
def recordTaken (n : Station) (d : Dev) : Dev :=
  (bobPop n.val 1 d).2.shtMod n fun x => { x with taken := x.taken + 1 }

/-- The station has taken END_OF_LIST. -/
def endTaken (n : Station) (d : Dev) : Dev := (recordTaken n d).shtMod n fun x => { x with sawEnd := true }

section
variable {n : Station} {d : Dev}

theorem Dev.fetches.notAborted (h : d.fetches n) : d.trdState ≠ tAborted := by
  have hruns := h.runs
  simp only [Dev.shuttlesRun, Bool.and_eq_true, decide_eq_true_eq] at hruns
  simp only [tAborted]
  omega

theorem pickFetch_empty (h : d.fetches n) (hen : d.bobEn n.val = true) (h0 : d.bobFill n.val = 0)
    (hend : d.endWithheld n = false) : pickFetch n d = bobUnderrun n.val d := by
  simp [pickFetch, h.runs, h.inUse, h.sawEnd, h.room, h.notAborted, feed_of_played h.played,
    bobPop_short (show d.bobFill n.val < 1 by omega), hen, hend]

/-- A fetch with a record in the bobbin takes it: END_OF_LIST ends the station, a pick is checked and enters. -/
theorem pickFetch_record (h : d.fetches n) (hen : d.bobEn n.val = true) (hfill : 1 ≤ d.bobFill n.val) {typ : Nat}
    (ht : (d.headWords n).headD 0 % 16 = typ) : pickFetch n d =
      if typ = 0 then endTaken n d else enterPick n (d.headPick n typ) (recordTaken n d) := by
  subst ht
  have hfed := feed_of_played ((stream_within (bobPop_within n.val 1 d (by omega)) rfl rfl n).trans h.played)
  have hpop : bobPop n.val 1 d = (some (d.bobPeek n.val 1), (bobPop n.val 1 d).2) :=
    Prod.ext (bobPop_of_fill hen hfill) rfl
  simp only [pickFetch, h.runs, h.inUse, h.sawEnd, Nat.not_le.2 h.room, h.notAborted, feed_of_played h.played,
    Bool.not_true, Bool.or_self, decide_false, Bool.false_eq_true, ↓reduceIte]
  rw [hpop]
  simp only [hfed, Bool.or_eq_true, decide_eq_true_eq]
  rfl

/-- The type of a pick is the low four bits of its first word (R60). -/
theorem typ_ofWords (idx : Nat) (z : Int) (w : List Nat) : (Pick.ofWords idx z w).typ = w.headD 0 % 16 := by
  cases w <;> simp [Pick.ofWords, bits]

theorem recordTaken_within : d.within [.ev, .wal, .sht] [2, 3, 18] (recordTaken n d) :=
  within_comp (shtMod_within n _ _) (within_mono (bobPop_within n.val 1 d (by omega)) rfl rfl) rfl rfl

/-- Taking a record counts it at the station. -/
theorem recordTaken_sht : (recordTaken n d).sht = vmod d.sht n fun x => { x with taken := x.taken + 1 } := by
  have hpop : (bobPop n.val 1 d).2.sht = d.sht := (bobPop_within n.val 1 d (by omega)).frame.2 .sht rfl
  rw [← hpop]
  rfl

theorem recordTaken_queue : ((recordTaken n d).shtl n).queue = (d.shtl n).queue := by
  rw [Dev.shtl, recordTaken_sht, vat_vmod_same]
  rfl

theorem recordTaken_taken : ((recordTaken n d).shtl n).taken = (d.shtl n).taken + 1 := by
  rw [Dev.shtl, recordTaken_sht, vat_vmod_same]
  rfl

theorem recordTaken_shtl_ne {j : Station} (h : j ≠ n) : (recordTaken n d).shtl j = d.shtl j := by
  rw [Dev.shtl, recordTaken_sht]
  exact vat_vmod_ne _ _ h

/-- Taking a record touches the Shuttles and what shows the level of the bobbin. -/
theorem recordTaken_withEvent :
    Dev.withEvent (CRLB_RD n.val :: bobShown n.val) { d with sht := (recordTaken n d).sht } (recordTaken n d) := by
  obtain ⟨hrest, hregs⟩ := bobPop_withEvent n.val 1 d
  refine ⟨?_, hregs⟩
  rw [recordTaken_sht, recordTaken, Dev.shtMod, hrest]

theorem endTaken_sht :
    (endTaken n d).sht = vmod d.sht n fun x => { x with taken := x.taken + 1, sawEnd := true } := by
  simp only [endTaken, Dev.shtMod, recordTaken_sht, vmod_vmod]

end

/-! ### A pick that is admitted (R135, R171) -/

section
variable {n : Station} {k : Pick} {d : Dev}

/-- A pick that is no line is admitted where its points lie inside the grid (R141). -/
theorem enterPick_inside (hline : k.isLine = false)
    (h : ((k.typ == 3 || (d.pathCfg n).inGrid k.x1 k.y1) && (d.pathCfg n).inGrid k.x2 k.y2) = true) :
    enterPick n k d = admitPick n k d := by
  simp only [enterPick, hline, h, Bool.false_and, Bool.not_true, Bool.false_eq_true, ↓reduceIte]

/-- What the entry of pick `k` makes of the station: the queue grows by it; a JUMP_HINT leaves the plan to the move
that it precedes (R135, R138). -/
def pickQueued (c : PathCfg) (k : Pick) (x : Shuttle) : Shuttle :=
  if k.typ = 3 then
    { x with queue := x.queue ++ [k], vias := x.vias ++ [(k.x2, k.y2)], viaSpeed := k.w5, zNext := k.zoff }
  else { x with plan := extendPlan c x k, queue := x.queue ++ [k], vias := [], viaSpeed := 0, zNext := k.zoff }

theorem pickQueued_queue (c : PathCfg) (x : Shuttle) : (pickQueued c k x).queue = x.queue ++ [k] := by
  unfold pickQueued
  split <;> rfl

theorem pickQueued_taken (c : PathCfg) (x : Shuttle) : (pickQueued c k x).taken = x.taken := by
  unfold pickQueued
  split <;> rfl

theorem admitPick_sht : (admitPick n k d).sht = vmod d.sht n (pickQueued (d.pathCfg n) k) := rfl

theorem admitPick_queue : ((admitPick n k d).shtl n).queue = (d.shtl n).queue ++ [k] := by
  rw [Dev.shtl, admitPick_sht, vat_vmod_same, pickQueued_queue]
  rfl

theorem admitPick_taken : ((admitPick n k d).shtl n).taken = (d.shtl n).taken := by
  rw [Dev.shtl, admitPick_sht, vat_vmod_same, pickQueued_taken]
  rfl

theorem admitPick_shtl_ne {j : Station} (h : j ≠ n) : (admitPick n k d).shtl j = d.shtl j := vat_vmod_ne _ _ h

theorem admitPick_eq : admitPick n k d =
    ((d.shtMod n (pickQueued (d.pathCfg n) k)).put (SHT_STATUS_STARVED n) 0).put (SHT_STATUS_QDEPTH n)
      ((d.shtl n).queue.length + 1) := by
  have hqueue : ((d.shtMod n (pickQueued (d.pathCfg n) k)).shtl n).queue.length = (d.shtl n).queue.length + 1 := by
    rw [Dev.shtl, Dev.shtMod, vat_vmod_same, pickQueued_queue, List.length_append]
    rfl
  rw [← hqueue]
  rfl

/-- An admitted pick ends the starvation of its station, whose queue shows its new depth (R171). -/
theorem admitPick_shown : (admitPick n k d).on (SHT_STATUS_STARVED n) = false ∧
    (admitPick n k d).get (SHT_STATUS_QDEPTH n) = ((d.shtl n).queue.length + 1) % 128 := by
  rw [admitPick_eq]
  refine ⟨?starved, get_put_same _ (SHT_STATUS_QDEPTH n) _ (by simp) (by simp)⟩
  rw [Dev.on, get_put_ne _ (SHT_STATUS_QDEPTH n) (SHT_STATUS_STARVED n) _ (by simp) (by simp) (by simp),
    get_put_same _ (SHT_STATUS_STARVED n) 0 (by simp) (by simp)]
  rfl

theorem admitPick_withEvent :
    Dev.withEvent [SHT_STATUS n] { d with sht := (admitPick n k d).sht } (admitPick n k d) := by
  rw [admitPick_sht, admitPick_eq]
  exact withEvent_put (withEvent_put (withEvent_refl _ _) _ _ (by simp)) _ _ (by simp)

end

/-! ### The statement -/

/-- Settles O19: a fetch by what it finds in the bobbin. -/
theorem pickFetches : Obligations.PickFetches := by
  unfold Obligations.PickFetches
  intro n k s hrun hc hsht hret hsaw hroom hstream hen
  have hfetch : s.dev.fetches n := ⟨hsht, hret, hsaw, hroom, hstream⟩
  have htaken : (recordTaken n s.dev).calm := recordTaken_within.calm hc
  refine ⟨?ends, ?admitted, ?underrun⟩
  case ends =>
    intro hfill htyp
    have hdo := (pickFetch_record hfetch hen hfill htyp).trans (if_pos rfl)
    exact ⟨_, actIn_of_eq hrun hdo ((shtMod_within n _ _).calm htaken).1, endTaken_sht,
      bobPop_rd (by omega) hen hfill hfill, withEvent_sht recordTaken_withEvent (withEvent_refl _ [])⟩
  case admitted =>
    intro hfill hk htyp hline hin
    have hhead : (s.dev.headWords n).headD 0 % 16 = k.typ := by rw [hk, typ_ofWords]; rfl
    have hdo : pickFetch n s.dev = admitPick n k (recordTaken n s.dev) := by
      rw [pickFetch_record hfetch hen hfill hhead, if_neg htyp, Dev.headPick, Dev.headWords, ← hk,
        enterPick_inside hline (by rw [pathCfg_within recordTaken_within rfl rfl n]; exact hin)]
    obtain ⟨hstarved, hdepth⟩ := admitPick_shown (n := n) (k := k) (d := recordTaken n s.dev)
    exact ⟨_, actIn_of_eq hrun hdo ((admitPick_within n k _).calm htaken).1, by rw [admitPick_queue, recordTaken_queue],
      admitPick_taken.trans recordTaken_taken, hstarved, by rw [hdepth, recordTaken_queue],
      fun j hj => (admitPick_shtl_ne hj).trans (recordTaken_shtl_ne hj),
      withEvent_sht recordTaken_withEvent admitPick_withEvent⟩
  case underrun =>
    intro hfill hend
    obtain ⟨hon, hcount, hrest⟩ := bobUnderrun_spec (b := n.val) (d := s.dev) (by omega)
    have hown := bobUnderrun_within n.val s.dev (by omega)
    exact ⟨_, actIn_of_eq hrun (pickFetch_empty hfetch hen hfill hend) (hown.calm hc).1, hon, hcount,
      hown.frame.2 .sht rfl, withEvent_mono hrest (by simp)⟩

end Sys2Proof.Machine

/-!
PROOFS of the faults of the Reed loops and of the external set-points: first what a loop reads after a change and what
the raising of its fault leaves, then the outcome of each command, then the statement.
-/
namespace Sys2Proof.Machine

open Reg

/-! ### Loops and their registers (R204 to R206) -/

theorem posStatus_eq (e : Fin 3) (n : Station) : (LoopId.pos e n).base + 4 = REED_POS_STATUS e n := by
  simp only [LoopId.base, REED_POS_CTRL, REED_POS_STATUS]
  omega

theorem pwrStatus_eq (n : Station) : (LoopId.pwr n).base + 4 = REED_PWR_STATUS n := by
  simp only [LoopId.base, REED_PWR_CTRL, REED_PWR_STATUS]
  omega

theorem posFlags_eq (e : Fin 3) (n : Station) : (LoopId.pos e n).base + 8 = REED_POS_FLAGS e n := by
  simp only [LoopId.base, REED_POS_CTRL, REED_POS_FLAGS]
  omega

theorem pwrFlags_eq (n : Station) : (LoopId.pwr n).base + 8 = REED_PWR_FLAGS n := by
  simp only [LoopId.base, REED_PWR_CTRL, REED_PWR_FLAGS]
  omega

theorem posExt_eq (e : Fin 3) (n : Station) : (LoopId.pos e n).ext = REED_POS_EXT_CFG e n := by
  simp only [LoopId.ext, LoopId.base, REED_POS_CTRL, REED_POS_EXT_CFG]
  omega

theorem loopFlags_block (l : LoopId) : (l.base + 8) / 0x10000 = 10 := by
  cases l <;> simp only [LoopId.base, REED_POS_CTRL, REED_PWR_CTRL, REED_AUX_CTRL] <;> omega

theorem meltDevs_block (n : Station) : REED_PWR_MELT_DEVS n / 0x10000 = 10 := by
  simp only [REED_PWR_MELT_DEVS]
  omega

theorem meltDevs_ne_flags (n : Station) : REED_PWR_MELT_DEVS n ≠ REED_PWR_FLAGS n := by
  simp only [REED_PWR_MELT_DEVS, REED_PWR_FLAGS]
  omega

/-- A register of the Reed engines is none that the detection of a fault changes. -/
theorem faultReg_reed {a : Nat} (h : a / 0x10000 = 10) : faultReg a = false := faultReg_block (by rw [h]; decide)

/-- The count of a fault is no register of the Reed engines. -/
theorem fltCount_ne_reed {code a : Nat} (hc : code < 256) (h : a / 0x10000 = 10) : EVT_FLT_COUNT code ≠ a := by
  simp only [EVT_FLT_COUNT]
  omega

theorem loopEvent_lt (d : Dev) (l : LoopId) : d.loopEvent l < 256 := by
  cases l with
  | pos e n | pwr n => simp only [Dev.loopEvent]; omega
  | aux j =>
    have hsel := get_lt d (REED_AUX_CTRL_EVT_SEL j)
    simp only [Dev.loopEvent, REED_AUX_CTRL_EVT_SEL] at hsel ⊢
    omega

theorem inst_lt (l : LoopId) : l.inst < 256 := by cases l <;> simp only [LoopId.inst] <;> omega

theorem posIndex_inj {e k : Fin 3} {n m : Station} (h : posIndex k m = posIndex e n) : k = e ∧ m = n := by
  simp only [posIndex, Fin.mk.injEq] at h
  exact ⟨Fin.ext (by omega), Fin.ext (by omega)⟩

section
variable (f : ReedLoop → ReedLoop) (d : Dev)

theorem loop_loopMod_same (l : LoopId) : (d.loopMod l f).loop l = f (d.loop l) := by
  cases l <;> exact vat_vmod_same _ _ _

theorem loop_loopMod_ne {l m : LoopId} (h : m ≠ l) : (d.loopMod l f).loop m = d.loop m := by
  cases l <;> cases m
  case pos.pos e n k j =>
    refine vat_vmod_ne _ _ fun hi => h ?_
    obtain ⟨rfl, rfl⟩ := posIndex_inj hi
    rfl
  case pwr.pwr => exact vat_vmod_ne _ _ fun hi => h (congrArg LoopId.pwr hi)
  case aux.aux => exact vat_vmod_ne _ _ fun hi => h (congrArg LoopId.aux hi)
  all_goals rfl

/-- A change of a loop's state reaches nothing but the Reed engines, and no input of a GPIO. -/
theorem loopMod_reed_only (l : LoopId) :
    d.loopMod l f = { d with reed := (d.loopMod l f).reed } ∧ (d.loopMod l f).reed.gpio = d.reed.gpio := by
  cases l <;> exact ⟨rfl, rfl⟩

@[simp] theorem loopMod_reg (l : LoopId) (a : Nat) : (d.loopMod l f).reg a = d.reg a := by cases l <;> rfl

theorem loopMod_calm {d : Dev} (hc : d.calm) (l : LoopId) : (d.loopMod l f).calm := (loopMod_within l f d).calm hc

end

theorem loop_of_reed {d t : Dev} (h : t.reed = d.reed) (l : LoopId) : t.loop l = d.loop l := by
  cases l <;> simp only [Dev.loop, h]

/-! ### The fault of a loop: its flag, its event and its detection (R202, R566) -/

/-- A fault of a station whose conditions hold is detected, and the command does no more. -/
theorem actFab_fault {f : Dev → Dev} {code sev : Nat} {n : Station} {s : State} (hrun : s.dev.runs domFab = true)
    (hc : s.dev.calm) (hcode : code < 256) (hdrop : code ≠ 0x88) (hf : f s.dev = fault code sev n.val s.dev) :
    ∃ d, actFab f s = .next { s with dev := d } ∧ s.dev.detects code n.val d ∧ Dev.withFault [] s.dev d := by
  have honly : FaultOnly s.dev (fault code sev n.val s.dev) := faultD_faultOnly code sev n.val 0 0 s.dev hcode
  exact ⟨_, actIn_of_eq hrun hf (honly.calm hc).1, faultD_detects sev 0 0 s.dev hcode hdrop (by omega),
    withFault_of (regsOnly_refl _ _) honly⟩

/-- Flag `b` of a loop set, and the fault that it stands for detected. -/
def loopFault (l : LoopId) (b code sev : Nat) (d : Dev) : Dev := fault code sev l.inst (loopFlag l b code d)

/-- From `d` to `t` fault `code` of a loop was raised: it is detected, flag `b` of the loop stands. -/
structure Dev.raises (l : LoopId) (b code : Nat) (d t : Dev) : Prop where
  detects : d.detects code l.inst t
  flag : t.on (loopF l 8 b b) = true
  rest : d.withFault [l.base + 8] t
  calm : d.calm → t.calm

theorem loopFault_raises {l : LoopId} {b code : Nat} (sev : Nat) (d : Dev) (hb : b < 32) (hcode : code < 256)
    (hdrop : code ≠ 0x88) : d.raises l b code (loopFault l b code sev d) := by
  have hev := loopEvent_lt d l
  have hfr : faultReg (l.base + 8) = false := faultReg_reed (loopFlags_block l)
  obtain ⟨hflag, hon⟩ := flagEvent_spec (loopF l 8 b b) (d.loopEvent l) l.inst code d hev rfl hb (eventReg_of_faultReg hfr)
  have hfault : FaultOnly (loopFlag l b code d) (loopFault l b code sev d) :=
    faultD_faultOnly code sev l.inst 0 0 _ hcode
  have hcount : (loopFlag l b code d).reg (EVT_FLT_COUNT code) = d.reg (EVT_FLT_COUNT code) :=
    reg_flagEvent hev (fltCount_ne_reed hcode (loopFlags_block l)) (eventReg_fltCount hcode hdrop) _ _ d
  refine ⟨?detects, ?flag, ?rest, fun hc => ?calm⟩
  case detects => exact detects_of_reg hcount (faultD_detects sev 0 0 _ hcode hdrop (inst_lt l))
  case flag => rw [Dev.on, Dev.get, hfault.regs (loopF l 8 b b).addr hfr]; exact hon
  case rest => exact withFault_trans (withEvent_fault hflag) (withFault_of (regsOnly_refl _ []) hfault)
  case calm =>
    exact hfault.calm ((flagEvent_within _ _ _ _ 10 d hev (loopFlags_block l) (.inl (by decide))).calm hc)

/-- From `d` to `t` fault `code` of loop `l` was raised, which the loop's own state notes by `f`: no other loop changes. -/
structure Dev.notes (l : LoopId) (f : ReedLoop → ReedLoop) (b code : Nat) (d t : Dev) : Prop where
  detects : d.detects code l.inst t
  flag : t.on (loopF l 8 b b) = true
  loop : t.loop l = f (d.loop l)
  others : ∀ m, m ≠ l → t.loop m = d.loop m
  rest : Dev.withFault [l.base + 8] { d with reed := t.reed } t
  calm : d.calm → t.calm

theorem loopFault_notes {l : LoopId} {b code : Nat} (f : ReedLoop → ReedLoop) (sev : Nat) (d : Dev) (hb : b < 32)
    (hcode : code < 256) (hdrop : code ≠ 0x88) : d.notes l f b code (loopFault l b code sev (d.loopMod l f)) := by
  obtain ⟨hdetects, hflag, hrest, hcalm⟩ := loopFault_raises (l := l) sev (d.loopMod l f) hb hcode hdrop
  have hreed := congrArg Dev.reed hrest.1
  have hmod : { d with reed := (d.loopMod l f).reed } = d.loopMod l f := (loopMod_reed_only f d l).1.symm
  exact {
    detects := detects_of_reg (loopMod_reg f d l _) hdetects
    flag := hflag
    loop := (loop_of_reed hreed l).trans (loop_loopMod_same f d l)
    others := fun m hm => (loop_of_reed hreed m).trans (loop_loopMod_ne f d hm)
    rest := by rw [hreed, hmod]; exact hrest
    calm := fun hc => hcalm (loopMod_calm f hc l) }

/-! ### The conditions of the faults (R180, R190, R192, R193, R195) -/

/-- The loop of a station that an engine runs: engine 3 runs the power loops. -/
def engineLoop (e : Fin 4) (n : Station) : LoopId := if h : e.val < 3 then .pos ⟨e.val, h⟩ n else .pwr n

theorem engineLoop_castSucc (e : Fin 3) (n : Station) : engineLoop e.castSucc n = .pos e n := dif_pos e.isLt

theorem engineLoop_three (n : Station) : engineLoop 3 n = .pwr n := rfl

theorem exec_reedOverrun (e : Fin 4) (n : Station) (s : State) :
    exec (.reedOverrun e n) s = actFab (reedOverrun (engineLoop e n)) s := rfl

theorem exec_extLost (e : Fin 4) (n : Station) (s : State) :
    exec (.extLost e n) s = actFab (extLost (engineLoop e n)) s := rfl

section
variable {l : LoopId} {e : Fin 3} {n : Station} {d : Dev}

theorem reedOverrun_third (hst : l.station = some n) (hret : d.isRetired n.val = false)
    (h : bits (d.reg (l.base + 4)) 17 16 = 3) : reedOverrun l d = fault 0x48 sevRetire n.val d := by
  simp [reedOverrun, hst, h, hret]

theorem encLost_third (hret : d.isRetired n.val = false) (hbad : 3 ≤ (d.loop (.pos e n)).bad) (hal : d.aligned n = true) :
    encLost e n d = fault 0x49 sevRetire n.val d := by
  simp [encLost, hbad, hal, hret]

theorem followErr_above (hret : d.isRetired n.val = false)
    (hfe : d.reg (REED_POS_FE_TIME e n) % 65536 < (d.loop (.pos e n)).fe) :
    followErr e n d = loopFault (.pos e n) 4 0x4A sevRetire d :=
  if_pos (by simp [hfe, hret])

theorem meltDev_above (hfe : d.reg (REED_PWR_FE_TIME n) % 65536 < (d.loop (.pwr n)).fe)
    (hfirst : (d.loop (.pwr n)).feRaised = false) :
    meltDev n d = loopFault (.pwr n) 4 0x4D sevInfo
      ((d.count (REED_PWR_MELT_DEVS n) 1).loopMod (.pwr n) fun x => { x with feRaised := true }) :=
  if_pos (by simp [hfe, hfirst])

theorem pyroLost_held (hbad : d.reg (REED_PWR_SENS_HOLD n) % 65536 ≤ (d.loop (.pwr n)).bad)
    (hpos : 0 < (d.loop (.pwr n)).bad) (hfirst : (d.loop (.pwr n)).lostRaised = false) :
    pyroLost n d = loopFault (.pwr n) 5 0x4C sevInfo (d.loopMod (.pwr n) fun x => { x with lostRaised := true }) :=
  if_pos (by simp [hbad, hpos, hfirst])

/-! ### The external value is lost (R185) -/

theorem extLost_late (huse : d.usesExt l = true) (hfirst : (d.loop l).extLost = false)
    (hlate : (gpioAt d (d.reg l.ext % 16)).lastEdge + d.reg l.ext / 65536 * 1000 < d.t0.nanos) :
    extLost l d = loopFault l 6 0x4E sevInfo
      (d.loopMod l fun x => { x with extLost := true, xExt := d.extValue l }) :=
  if_pos (by simp [huse, hfirst, hlate])

theorem extLost_notes (huse : d.usesExt l = true) (hfirst : (d.loop l).extLost = false)
    (hlate : (gpioAt d (d.reg l.ext % 16)).lastEdge + d.reg l.ext / 65536 * 1000 < d.t0.nanos) :
    d.notes l (fun x => { x with extLost := true, xExt := d.extValue l }) 6 0x4E (extLost l d) := by
  rw [extLost_late huse hfirst hlate]
  exact loopFault_notes _ sevInfo d (by decide) (by decide) (by decide)

end

/-! ### A rising edge (R185) -/

section
variable (g : Fin 16) (f : GpioState → GpioState) (d : Dev)

theorem gpioAt_gpioMod_same : gpioAt (gpioMod g.val f d) g.val = f (gpioAt d g.val) := vat_vmod_same _ _ _

theorem gpioAt_gpioMod_ne {k : Fin 16} (h : k ≠ g) : gpioAt (gpioMod g.val f d) k.val = gpioAt d k.val :=
  vat_vmod_ne _ _ (by simpa only [ne_eq, Fin.mk.injEq, Nat.mod_eq_of_lt k.isLt, Nat.mod_eq_of_lt g.isLt, Fin.val_inj] using h)

end

/-- What an edge of GPIO `g` does to one loop: EXT_LOST ends where the loop takes its external value from it. -/
def edgeTaken (g : Nat) (d : Dev) (l : LoopId) : Dev :=
  if d.reg l.ext % 16 = g % 16 then d.loopMod l fun x => { x with extLost := false } else d

theorem gpioEdge_eq (g period high : Nat) (d : Dev) : gpioEdge g period high d =
    allLoops.foldl (edgeTaken g)
      (gpioMod g (fun x => { x with measure := some (period, high), lastEdge := d.t0.nanos }) d) := rfl

/-- `t` is `d` but for the state of the loops: every GPIO is as it was. -/
def Dev.loopsOnly (d t : Dev) : Prop := t = { d with reed := t.reed } ∧ t.reed.gpio = d.reed.gpio

/-- A loop that takes its external value from GPIO `g` is not in EXT_LOST. -/
def Dev.edgeSeen (g : Nat) (l : LoopId) (d : Dev) : Prop := d.reg l.ext % 16 = g % 16 → (d.loop l).extLost = false

theorem edgeTaken_loopsOnly (g : Nat) (l : LoopId) {d t : Dev} (h : d.loopsOnly t) : d.loopsOnly (edgeTaken g t l) := by
  obtain ⟨hrest, hgpio⟩ := h
  unfold edgeTaken
  split
  · obtain ⟨hmod, hkeep⟩ := loopMod_reed_only (fun x => { x with extLost := false }) t l
    exact ⟨by rw [hmod, hrest], hkeep.trans hgpio⟩
  · exact ⟨hrest, hgpio⟩

theorem edgeTaken_reg (g a : Nat) (d : Dev) (l : LoopId) : (edgeTaken g d l).reg a = d.reg a :=
  reg_ite _ (loopMod_reg _ d l a)

/-- An edge ends EXT_LOST of a loop that takes its value from it, whatever came before. -/
theorem edgeTaken_sees (g : Nat) (l : LoopId) (d : Dev) : (edgeTaken g d l).edgeSeen g l := by
  intro h
  rw [edgeTaken_reg] at h
  rw [edgeTaken, if_pos h, loop_loopMod_same]

/-- What the edge does to another loop leaves that. -/
theorem edgeTaken_keepsSeen {g : Nat} {l : LoopId} {d : Dev} (m : LoopId) (h : d.edgeSeen g l) :
    (edgeTaken g d m).edgeSeen g l := by
  by_cases hm : l = m
  · exact hm ▸ edgeTaken_sees g l d
  · intro hg
    rw [edgeTaken_reg] at hg
    have hkeep : (edgeTaken g d m).loop l = d.loop l := by
      unfold edgeTaken
      split
      · exact loop_loopMod_ne _ d hm
      · rfl
    rw [hkeep]
    exact h hg

theorem foldl_edgeSeen {g : Nat} {l : LoopId} {ls : List LoopId} (hl : l ∈ ls) (d : Dev) :
    (ls.foldl (edgeTaken g) d).edgeSeen g l := by
  induction ls generalizing d with
  | nil => exact absurd hl List.not_mem_nil
  | cons m ls ih =>
    rcases List.mem_cons.1 hl with rfl | h
    · exact List.foldlRecOn ls (edgeTaken g) (edgeTaken_sees g l d) fun _ hu m _ => edgeTaken_keepsSeen m hu
    · exact ih h _

theorem mem_allLoops (l : LoopId) : l ∈ allLoops := by
  cases l <;> simp [allLoops]

theorem gpioEdge_edgeSeen (g period high : Nat) (l : LoopId) (d : Dev) : (gpioEdge g period high d).edgeSeen g l := by
  rw [gpioEdge_eq]
  exact foldl_edgeSeen (mem_allLoops l) _

theorem gpioEdge_loopsOnly (g period high : Nat) (d : Dev) :
    (gpioMod g (fun x => { x with measure := some (period, high), lastEdge := d.t0.nanos }) d).loopsOnly
      (gpioEdge g period high d) := by
  rw [gpioEdge_eq]
  exact List.foldlRecOn allLoops (edgeTaken g) ⟨rfl, rfl⟩ fun _ h l _ => edgeTaken_loopsOnly g l h

theorem reg_of_loopsOnly {d t : Dev} (h : d.loopsOnly t) (a : Nat) : t.reg a = d.reg a := by
  rw [h.1, reg_mk]

theorem gpioAt_of_loopsOnly {d t : Dev} (h : d.loopsOnly t) (g : Nat) : gpioAt t g = gpioAt d g := by
  simp only [gpioAt, h.2]

/-- An edge of its GPIO ends EXT_LOST of a loop (R185). -/
theorem gpioEdge_ends (g period high : Nat) {l : LoopId} {d : Dev} (h : d.reg l.ext % 16 = g % 16) :
    ((gpioEdge g period high d).loop l).extLost = false := by
  refine gpioEdge_edgeSeen g period high l d ?_
  rw [reg_of_loopsOnly (gpioEdge_loopsOnly g period high d)]
  exact h

/-! ### The statement -/

/-- Settles O20: each fault by the command that raises it while its conditions hold; an edge by what it leaves of the
GPIO and of every loop. -/
theorem loopFaultsAndSetPoints : Obligations.LoopFaultsAndSetPoints := by
  unfold Obligations.LoopFaultsAndSetPoints
  intro e n g period high s hc
  refine ⟨?posOverrun, ?pwrOverrun, ?enc, ?follow, ?melt, ?pyro, ?posExt, ?pwrExt, ?edge⟩
  case posOverrun =>
    intro hrun hret hovr
    rw [exec_reedOverrun, engineLoop_castSucc]
    rw [← posStatus_eq] at hovr
    exact actFab_fault hrun hc (by decide) (by decide) (reedOverrun_third rfl hret hovr)
  case pwrOverrun =>
    intro hrun hret hovr
    rw [exec_reedOverrun, engineLoop_three]
    rw [← pwrStatus_eq] at hovr
    exact actFab_fault hrun hc (by decide) (by decide) (reedOverrun_third rfl hret hovr)
  case enc =>
    intro hrun hret hbad hal
    exact actFab_fault hrun hc (by decide) (by decide) (encLost_third hret hbad hal)
  case follow =>
    intro hrun hret hfe
    obtain ⟨hdetects, hflag, hrest, hcalm⟩ := loopFault_raises (l := .pos e n) (b := 4) (code := 0x4A) sevRetire s.dev
      (by decide) (by decide) (by decide)
    simp only [loopF, posFlags_eq] at hflag hrest
    exact ⟨_, actIn_of_eq hrun (followErr_above hret hfe) (hcalm hc).1, hdetects, hflag, hrest⟩
  case melt =>
    intro hrun _ hfe hfirst
    have hcount := (count_within s.dev _ 1 10 (meltDevs_block n) (.inl (by decide))).calm hc
    obtain ⟨hdetects, hflag, hloop, -, hrest, hcalm⟩ := loopFault_notes (l := .pwr n) (b := 4) (code := 0x4D)
      (fun x => { x with feRaised := true }) sevInfo (s.dev.count (REED_PWR_MELT_DEVS n) 1)
      (by decide) (by decide) (by decide)
    simp only [loopF, pwrFlags_eq] at hflag hrest
    refine ⟨_, actIn_of_eq hrun (meltDev_above hfe hfirst) (hcalm hcount).1, ?_, hflag, ?_, by rw [hloop], ?_⟩
    · exact detects_of_reg (reg_count_ne s.dev 1 (fltCount_ne_reed (by decide) (meltDevs_block n))) hdetects
    · rw [← reg_count_same]
      exact hrest.2 _ (mt List.mem_singleton.1 (meltDevs_ne_flags n)) (faultReg_reed (meltDevs_block n))
    · exact withFault_mono (withFault_trans (withFault_of (regsOnly_count _ _ 1) (FaultOnly.refl _)) hrest) (by simp)
  case pyro =>
    intro hrun _ hbad hpos hfirst
    obtain ⟨hdetects, hflag, hloop, -, hrest, hcalm⟩ := loopFault_notes (l := .pwr n) (b := 5) (code := 0x4C)
      (fun x => { x with lostRaised := true }) sevInfo s.dev (by decide) (by decide) (by decide)
    simp only [loopF, pwrFlags_eq] at hflag hrest
    exact ⟨_, actIn_of_eq hrun (pyroLost_held hbad hpos hfirst) (hcalm hc).1, hdetects, hflag, by rw [hloop], hrest⟩
  case posExt =>
    intro hrun huse hfirst hlate
    rw [exec_extLost, engineLoop_castSucc]
    rw [← posExt_eq] at hlate
    obtain ⟨hdetects, hflag, hloop, hothers, hrest, hcalm⟩ := extLost_notes huse hfirst hlate
    simp only [loopF, posFlags_eq] at hflag hrest
    exact ⟨_, actIn_run hrun (hcalm hc).1, hdetects, hflag, hloop, fun m k h => hothers _ (by simpa using h), hrest⟩
  case pwrExt =>
    intro hrun huse hfirst hlate
    rw [exec_extLost, engineLoop_three]
    obtain ⟨hdetects, hflag, hloop, hothers, hrest, hcalm⟩ := extLost_notes huse hfirst hlate
    simp only [loopF, pwrFlags_eq] at hflag hrest
    exact ⟨_, actIn_run hrun (hcalm hc).1, hdetects, hflag, hloop, fun m h => hothers _ (by simpa using h), hrest⟩
  case edge =>
    intro hrun
    have honly := gpioEdge_loopsOnly g.val period high s.dev
    have hsame := (gpioAt_of_loopsOnly honly g.val).trans (gpioAt_gpioMod_same g _ s.dev)
    have hends {l : LoopId} (h : s.dev.reg l.ext % 16 = g.val) :
        ((gpioEdge g.val period high s.dev).loop l).extLost = false :=
      gpioEdge_ends g.val period high (by rw [h, Nat.mod_eq_of_lt g.isLt])
    exact ⟨_, actIn_run hrun ((gpioEdge_within g.val period high s.dev).calm hc).1, by rw [hsame], by rw [hsame],
      fun h => hends (by rw [posExt_eq, h]), fun h => hends h,
      fun k hk => (gpioAt_of_loopsOnly honly k.val).trans (gpioAt_gpioMod_ne g _ s.dev hk), honly.1⟩

end Sys2Proof.Machine

/-!
PROOFS of the commands of the thermal history map and of the raw coax archive: first what the flags of the melt-pool unit
and the transfers to the host leave, then the outcome of each command, then the statement.
-/
namespace Sys2Proof.Machine

open Reg

/-! ### Registers and flags of the melt-pool unit (R240) -/

/-- A register of the melt-pool unit is none that the detection of a fault changes. -/
theorem faultReg_mpl {a : Nat} (h : a / 0x10000 = 11) : faultReg a = false := faultReg_block (by rw [h]; decide)

theorem mplsStatus_block (n : Station) : MPLS_STATUS n / 0x10000 = 11 := by simp only [MPLS_STATUS]; omega

theorem mplsFlags_block (n : Station) : MPLS_FLAGS n / 0x10000 = 11 := by simp only [MPLS_FLAGS]; omega

/-- A one-bit flag put at 0 reads clear. -/
theorem on_put_zero (d : Dev) (f : Field) (h : f.hi = f.lo) (h32 : f.hi < 32) : (d.put f 0).on f = false := by
  simp [Dev.on, get_put_same d f 0 (by omega) h32]

theorem on_congr {d t : Dev} {f : Field} (h : t.reg f.addr = d.reg f.addr) : t.on f = d.on f := by
  simp only [Dev.on, Dev.get, h]

/-- A field of a register that the detection of a fault does not touch stands. -/
theorem on_withFault {L : List Nat} {d t : Dev} (h : d.withFault L t) {f : Field} (hf : f.addr ∉ L)
    (hr : faultReg f.addr = false) : t.on f = d.on f := on_congr (h.2 _ hf hr)

/-- A station's flag is set, and all else is as before but what its event touches. -/
theorem mplFlag_spec (n : Station) {f : Field} (code : Nat) (d : Dev) (hf : f.addr / 0x10000 = 11) (h1 : f.hi = f.lo)
    (h32 : f.hi < 32) : d.withEvent [f.addr] (mplFlag n f code d) ∧ (mplFlag n f code d).on f = true :=
  flagEvent_spec f (160 + n.val) n.val code d (by omega) h1 h32 (eventReg_of_faultReg (faultReg_mpl hf))

/-- A flag of the map is set, and all else is as before but what its event touches. -/
theorem mplGlobal_spec {f : Field} (code : Nat) (d : Dev) (hf : f.addr / 0x10000 = 11) (h1 : f.hi = f.lo)
    (h32 : f.hi < 32) : d.withEvent [f.addr] (mplGlobal f code d) ∧ (mplGlobal f code d).on f = true := by
  have hstation := get_lt d MPL_CTRL_EVT_STATION
  simp only [MPL_CTRL_EVT_STATION] at hstation
  exact flagEvent_spec f _ 0xFF code d (by simp only [MPL_CTRL_EVT_STATION]; omega) h1 h32
    (eventReg_of_faultReg (faultReg_mpl hf))

/-! ### The map (R230) -/

theorem mapCleared_clearing {d : Dev} (h : d.on MPL_STATUS_CLEARING = true) : mapCleared d =
    ((((d.zeroDram (d.mapBase 0) (d.mapW * d.mapH * 8)).zeroDram (d.mapBase 1) (d.mapW * d.mapH * 8)).put
      MPL_STATUS_CLEARING 0).put MPL_STATUS_MAP_READY 1) := by
  simp [mapCleared, h]

/-- At the end of map time the map is not ready, and MAP_TIME_END stands. -/
theorem mapTimeEnd_reached {d : Dev} (h : d.mapTime = 2 ^ 44 - 1) :
    (mapTimeEnd d).on MPL_STATUS_MAP_READY = false ∧ (mapTimeEnd d).on MPL_FLAGS_MAP_TIME_END = true ∧
      d.withEvent [MPL_STATUS, MPL_FLAGS] (mapTimeEnd d) := by
  obtain ⟨hrest, hon⟩ :=
    mplGlobal_spec (f := MPL_FLAGS_MAP_TIME_END) 0 (d.put MPL_STATUS_MAP_READY 0) rfl rfl (by decide)
  rw [mapTimeEnd, if_pos h]
  refine ⟨?ready, hon, ?rest⟩
  case ready =>
    rw [on_withFault (withEvent_fault hrest) (f := MPL_STATUS_MAP_READY) (by decide) (by decide)]
    exact on_put_zero d _ rfl (by decide)
  case rest => exact withEvent_trans (withEvent_of (regsOnly_put d MPL_STATUS_MAP_READY 0) (EventOnly.refl _)) hrest

/-! ### The archive freezes (R239) -/

/-- The archive of station `n` shows that it is frozen, and no freeze waits. -/
def archFrozen (n : Station) (d : Dev) : Dev :=
  (d.put (MPLS_STATUS_FROZEN n) 1).mstMod n fun m => { m with archPost := none }

theorem archFreeze_enabled {n : Station} {d : Dev} (hf : d.on (MPLS_STATUS_FROZEN n) = false)
    (he : d.on (MPLS_CTRL_ARCH_EN n) = true) :
    archFreeze n d = mplFlag n (MPLS_FLAGS_ARCH_FROZE n) 0x54 (fault 0x54 sevInfo n.val (archFrozen n d)) := by
  simp [archFreeze, archFrozen, hf, he]

/-- A change of the melt-pool unit's state is one that the detection of a fault may make. -/
theorem withFault_mpl {L : List Nat} {d t : Dev} (h : d.regsOnly L t) (m : Melt) : d.withFault L { t with mpl := m } :=
  withFault_of h (FaultOnly.unit t t.flt t.dof m)

theorem archFrozen_withFault (n : Station) (d : Dev) : d.withFault [MPLS_STATUS n] (archFrozen n d) :=
  withFault_mpl (regsOnly_put d (MPLS_STATUS_FROZEN n) 1) _

/-- An enabled archive that freezes shows it, with its flag and the fault ARCH_FREEZE. -/
theorem archFreeze_freezes {n : Station} {d : Dev} (hf : d.on (MPLS_STATUS_FROZEN n) = false)
    (he : d.on (MPLS_CTRL_ARCH_EN n) = true) :
    (archFreeze n d).on (MPLS_STATUS_FROZEN n) = true ∧ (archFreeze n d).on (MPLS_FLAGS_ARCH_FROZE n) = true ∧
      d.withFault [MPLS_STATUS n, MPLS_FLAGS n] (archFreeze n d) := by
  have hfault : (archFrozen n d).withFault [] (fault 0x54 sevInfo n.val (archFrozen n d)) :=
    withFault_of (regsOnly_refl _ _) (faultD_faultOnly 0x54 sevInfo n.val 0 0 _ (by decide))
  obtain ⟨hflag, hon⟩ := mplFlag_spec n (f := MPLS_FLAGS_ARCH_FROZE n) 0x54 (fault 0x54 sevInfo n.val (archFrozen n d))
    (mplsFlags_block n) rfl (by simp)
  have hafter := withFault_trans hfault (withEvent_fault hflag)
  rw [archFreeze_enabled hf he]
  refine ⟨?frozen, hon, withFault_trans (archFrozen_withFault n d) hafter⟩
  case frozen =>
    rw [on_withFault hafter (f := MPLS_STATUS_FROZEN n) (by simp)
      (faultReg_mpl (mplsStatus_block n))]
    exact on_put_one d (MPLS_STATUS_FROZEN n) rfl (by simp)

/-! ### Transfers to the host (R82, R356) -/

/-- `t` is `d` but for the chain: its queues and sequence numbers. -/
def Dev.chainOnly (d t : Dev) : Prop := t = { d with chain := t.chain }

theorem chainOnly_refl (d : Dev) : d.chainOnly d := rfl

theorem chainOnly_trans {d t u : Dev} (h : d.chainOnly t) (k : t.chainOnly u) : d.chainOnly u := by
  rw [Dev.chainOnly] at h k ⊢
  rw [k, h]

theorem sendJob_chainOnly (typ : Nat) (fields : List Byte) (done : Export) (d : Dev) :
    d.chainOnly (sendJob typ fields done d) := rfl

theorem sendImage_chainOnly (tag : Nat) (bs : List Byte) (done : Export) (d : Dev) :
    d.chainOnly (sendImage tag bs done d) := by
  unfold sendImage
  extract_lets cs layer
  exact List.foldlRecOn (motive := fun acc : Nat × Dev => d.chainOnly acc.2) cs _ (chainOnly_refl d)
    fun acc h e _ => chainOnly_trans h (sendJob_chainOnly 0x23 _ _ acc.2)

theorem regsOnly_chain {L : List Nat} {d t u : Dev} (h : d.regsOnly L t) (k : t.chainOnly u) :
    Dev.regsOnly L { d with chain := u.chain } u := by
  rw [k]
  exact ⟨by rw [h.1], h.2⟩

/-! ### The archive is read out (R239) -/

/-- The archive of station `n` is being read out. -/
def archExporting (n : Station) (d : Dev) : Dev := (d.put (MPLS_ARCH_CTRL_READ n) 1).put (MPLS_STATUS_EXPORTING n) 1

theorem archExporting_regsOnly (n : Station) (d : Dev) :
    d.regsOnly [MPLS_ARCH_CTRL n, MPLS_STATUS n] (archExporting n d) :=
  regsOnly_trans (regsOnly_put d (MPLS_ARCH_CTRL_READ n) 1) (regsOnly_put _ (MPLS_STATUS_EXPORTING n) 1)

theorem archExporting_read (n : Station) (d : Dev) : (archExporting n d).on (MPLS_ARCH_CTRL_READ n) = true := by
  have hne : MPLS_ARCH_CTRL n ≠ MPLS_STATUS n := by simp only [MPLS_ARCH_CTRL, MPLS_STATUS]; omega
  rw [archExporting, on_congr (reg_put_ne _ (MPLS_STATUS_EXPORTING n) 1 hne)]
  exact on_put_one d (MPLS_ARCH_CTRL_READ n) rfl (by simp)

theorem archExporting_exporting (n : Station) (d : Dev) : (archExporting n d).on (MPLS_STATUS_EXPORTING n) = true :=
  on_put_one _ (MPLS_STATUS_EXPORTING n) rfl (by simp)

/-- READ of a frozen ring that holds records starts the export, and queues the records on the chain. -/
theorem archRead_exports {n : Station} {d : Dev} (hf : d.on (MPLS_STATUS_FROZEN n) = true)
    (he : d.on (MPLS_STATUS_EXPORTING n) = false) (hheld : 0 < d.reg (MPLS_ARCH_HELD n)) (hroom : d.archRoom n ≠ 0) :
    (archExporting n d).chainOnly (archRead n d) := by
  have hheld' : d.reg (MPLS_ARCH_HELD n) ≠ 0 := by omega
  simp only [archRead, hf, he, hheld', hroom, Bool.not_true, Bool.or_self, Bool.false_eq_true, ↓reduceIte]
  exact List.foldlRecOn (motive := fun t : Dev => (archExporting n d).chainOnly t) _ _ (chainOnly_refl _)
    fun t h i _ => chainOnly_trans h (sendImage_chainOnly _ _ _ t)

/-! ### The statement -/

/-- Settles O15: a completed clear and RESUME by the next state itself, the other commands by what their rules leave. -/
theorem mapAndArchive : Obligations.MapAndArchive := by
  unfold Obligations.MapAndArchive
  intro n s hrun hc
  refine ⟨?clear, ?time, ?freeze, ?read, ?resume⟩
  case clear =>
    intro hclr
    exact actIn_of_eq hrun (mapCleared_clearing hclr) hc.1
  case time =>
    intro hend
    exact ⟨_, actIn_run hrun ((mapTimeEnd_within s.dev).calm hc).1, mapTimeEnd_reached hend⟩
  case freeze =>
    intro hf he
    obtain ⟨hfrozen, hflag, hrest⟩ := archFreeze_freezes hf he
    have hq := ((archFreeze_within n s.dev).calm hc).1
    exact ⟨_, actIn_run hrun hq, hfrozen, hflag, hrest, fun hpost => actIn_of_eq hrun (if_pos hpost) hq⟩
  case read =>
    intro hf he hheld hroom
    have hsent := archRead_exports hf he hheld hroom
    have hreg (a : Nat) : (archRead n s.dev).reg a = (archExporting n s.dev).reg a := by rw [hsent, reg_mk]
    exact ⟨_, actIn_run hrun ((archRead_within n s.dev).calm hc).1, (on_congr (hreg _)).trans (archExporting_read n s.dev),
      (on_congr (hreg _)).trans (archExporting_exporting n s.dev), regsOnly_chain (archExporting_regsOnly n s.dev) hsent⟩
  case resume => exact actIn_of_eq hrun rfl hc.1

end Sys2Proof.Machine

/-!
PROOFS of the descriptors of incomplete coax frames: first what one record leaves that passes through an empty bobbin,
then the descriptor's way into the ring in DRAM, then what the end of an incomplete frame changes, then the statement.
-/
namespace Sys2Proof.Machine

open Reg

/-! ### A record of one word enters an empty bobbin (R407, R408) -/

/-- Bobbin `b` has a ring, is enabled and empty, and its pointers lie in their range. -/
structure Dev.bobIdle (b : Nat) (d : Dev) : Prop where
  num : b < 128
  enabled : d.bobEn b = true
  empty : d.bobFill b = 0
  ring : 0 < d.bobSize b
  wr : d.get (CRLB_WR_WR b) < 2 * d.bobSize b
  rd : d.get (CRLB_RD_RD b) < 2 * d.bobSize b

/-- A register of a bobbin is none that an occurrence changes. -/
theorem eventReg_crl {a : Nat} (h : a / 0x10000 = 3) : eventReg a = false := eventReg_block (by rw [h]; decide)

/-- The bobbin once the word `bs` has entered it. -/
def recordIn (b : Nat) (bs : List Byte) (d : Dev) : Dev :=
  bobCheck b (d.bobLevel b) ((d.setCreelBytes (d.bobAddr b (d.get (CRLB_WR_WR b))) bs).put (CRLB_WR_WR b)
    ((d.get (CRLB_WR_WR b) + 1) % (2 * d.bobSize b)))

theorem bobStore_word (b p : Nat) {bs : List Byte} (h : bs.length = 32) (d : Dev) :
    bobStore b 1 p bs d = d.setCreelBytes (d.bobAddr b p) bs := by
  simp [bobStore, h, List.take_of_length_le]

/-- FILL, WR and RD of a bobbin (R407). -/
theorem bobFill_ring {b : Nat} {d : Dev} (h : 0 < d.bobSize b) : d.bobFill b =
    (d.get (CRLB_WR_WR b) + 2 * d.bobSize b - d.get (CRLB_RD_RD b)) % (2 * d.bobSize b) :=
  if_neg (by omega)

theorem recordIn_own {b : Nat} (hb : b < 128) (bs : List Byte) (d : Dev) :
    d.within [.creel, .ev, .wal] [2, 3, 18] (recordIn b bs d) :=
  within_comp (bobCheck_within b _ _ hb) (within_comp
    (put_within _ (CRLB_WR_WR b) _ 3 (by simp only [CRLB_WR]; omega) (.inl (by decide)))
    (within_mono (setCreelBytes_within d (d.bobAddr b (d.get (CRLB_WR_WR b))) bs) rfl rfl) rfl rfl) rfl rfl

namespace Dev.bobIdle

variable {b : Nat} {d : Dev} (h : d.bobIdle b)
include h

/-- The pointers of an empty bobbin are the same. -/
theorem pointers : d.get (CRLB_WR_WR b) = d.get (CRLB_RD_RD b) := by
  obtain ⟨-, -, hempty, hring, hwr, hrd⟩ := h
  rw [bobFill_ring hring] at hempty
  generalize d.get (CRLB_WR_WR b) = w at *
  generalize d.get (CRLB_RD_RD b) = r at *
  generalize 2 * d.bobSize b = n at *
  rcases Nat.lt_or_ge w r with hlt | hge
  · rw [Nat.mod_eq_of_lt (by omega)] at hempty
    omega
  · rw [show w + n - r = w - r + n by omega, Nat.add_mod_right, Nat.mod_eq_of_lt (by omega)] at hempty
    omega

/-- An empty bobbin takes a record of one word, whatever its policy. -/
theorem push {bs : List Byte} (hlen : bs.length = 32) : bobPush b bs d = (true, recordIn b bs d) := by
  have hwords : recWords bs.length = 1 := by rw [hlen]; rfl
  have hroom : bobMakeRoom b 1 d = d := if_pos (by rw [h.empty]; have := h.ring; omega)
  have hfit : ¬ d.bobSize b - d.bobFill b < 1 := by rw [h.empty]; have := h.ring; omega
  simp only [bobPush, hwords, h.enabled, hroom, ite_self, hfit, bobStore_word b _ hlen, Bool.not_true, Bool.false_or,
    one_ne_zero, decide_false, Bool.false_eq_true, ↓reduceIte]
  rfl

/-- The word that has entered is stored where WR pointed. -/
theorem recordIn_creel (bs : List Byte) : (recordIn b bs d).creel =
    (d.setCreelBytes (d.bobAddr b (d.get (CRLB_WR_WR b))) bs).creel :=
  (bobCheck_within b _ _ h.num).frame.2 .creel rfl

theorem recordIn_withEvent (bs : List Byte) :
    Dev.withEvent (CRLB_WR b :: bobShown b) { d with creel := (recordIn b bs d).creel } (recordIn b bs d) := by
  rw [h.recordIn_creel]
  have hput := withEvent_put (withEvent_refl (d.setCreelBytes (d.bobAddr b (d.get (CRLB_WR_WR b))) bs) [CRLB_WR b])
    (CRLB_WR_WR b) ((d.get (CRLB_WR_WR b) + 1) % (2 * d.bobSize b)) (by simp)
  exact withEvent_mono (withEvent_trans hput (bobCheck_withEvent b _ _)) (by simp)

/-- The registers of the bobbin stand but for WR and what shows its level. -/
theorem recordIn_reg (bs : List Byte) {a : Nat} (h3 : a / 0x10000 = 3) (ha : a ∉ CRLB_WR b :: bobShown b) :
    (recordIn b bs d).reg a = d.reg a := by
  rw [(h.recordIn_withEvent bs).2 a ha (eventReg_crl h3), reg_mk]

theorem recordIn_wr (bs : List Byte) : (recordIn b bs d).get (CRLB_WR_WR b) =
    (d.get (CRLB_WR_WR b) + 1) % (2 * d.bobSize b) := by
  have hnot : CRLB_WR b ∉ bobShown b := by
    simp only [bobShown, List.mem_cons, List.not_mem_nil, or_false, CRLB_WR, CRLB_FILL, CRLB_STATUS, CRL_EVT_BOBBIN]
    omega
  have hb := h.num
  have hev : eventReg (CRLB_WR b) = false := eventReg_crl (by simp only [CRLB_WR]; omega)
  have hsize : d.bobSize b < 0x100000 := Nat.mod_lt _ (by decide)
  have hlt := Nat.mod_lt (d.get (CRLB_WR_WR b) + 1) (show 0 < 2 * d.bobSize b by have := h.ring; omega)
  have hkeep (old : Nat) (t : Dev) : (bobCheck b old t).get (CRLB_WR_WR b) = t.get (CRLB_WR_WR b) := by
    simp only [Dev.get, (bobCheck_withEvent b old t).2 _ hnot hev]
  rw [recordIn, hkeep, get_put_same _ (CRLB_WR_WR b) _ (by simp) (by simp)]
  exact Nat.mod_eq_of_lt (by show _ < 2097152; omega)

/-- The record that has entered is the only one of the bobbin, and the next that it gives. -/
theorem recordIn_holds {bs : List Byte} (hlen : bs.length = 32) :
    (recordIn b bs d).bobEn b = true ∧ (recordIn b bs d).bobFill b = 1 ∧ (recordIn b bs d).bobPeek b 1 = bs := by
  have hb := h.num
  have hreg {a : Nat} (h3 : a / 0x10000 = 3) (ha : a ∉ CRLB_WR b :: bobShown b) := h.recordIn_reg bs h3 ha
  simp only [bobShown, List.mem_cons, List.not_mem_nil, or_false, CRLB_WR, CRLB_FILL, CRLB_STATUS, CRL_EVT_BOBBIN] at hreg
  have hen : (recordIn b bs d).bobEn b = d.bobEn b :=
    on_congr (hreg (by simp only [CRLB_CFG]; omega) (by simp only [CRLB_CFG]; omega))
  have hsize : (recordIn b bs d).bobSize b = d.bobSize b := by
    simp only [Dev.bobSize, hreg (a := CRLB_SIZE b) (by simp only [CRLB_SIZE]; omega) (by simp only [CRLB_SIZE]; omega)]
  have hbase : (recordIn b bs d).bobBase b = d.bobBase b := by
    simp only [Dev.bobBase, hreg (a := CRLB_BASE b) (by simp only [CRLB_BASE]; omega) (by simp only [CRLB_BASE]; omega)]
  have hrd : (recordIn b bs d).get (CRLB_RD_RD b) = d.get (CRLB_WR_WR b) := by
    rw [h.pointers]
    simp only [Dev.get, hreg (a := CRLB_RD b) (by simp only [CRLB_RD]; omega) (by simp only [CRLB_RD]; omega)]
  have hring := h.ring
  refine ⟨hen.trans h.enabled, ?fill, ?peek⟩
  case fill =>
    have hwr := h.wr
    rw [bobFill_ring (by rw [hsize]; exact hring), hsize, hrd, h.recordIn_wr]
    generalize d.get (CRLB_WR_WR b) = w at *
    rcases Nat.lt_or_ge (w + 1) (2 * d.bobSize b) with hlt | hge
    · rw [Nat.mod_eq_of_lt hlt, show w + 1 + 2 * d.bobSize b - w = 1 + 2 * d.bobSize b by omega, Nat.add_mod_right,
        Nat.mod_eq_of_lt (by omega)]
    · rw [show w + 1 = 2 * d.bobSize b by omega, Nat.mod_self, show 0 + 2 * d.bobSize b - w = 1 by omega,
        Nat.mod_eq_of_lt (by omega)]
  case peek =>
    have haddr : (recordIn b bs d).bobAddr b (d.get (CRLB_WR_WR b)) = d.bobAddr b (d.get (CRLB_WR_WR b)) := by
      simp only [Dev.bobAddr, hbase, hsize]
    have hbytes : (recordIn b bs d).creelBytes (d.bobAddr b (d.get (CRLB_WR_WR b))) 32 = bs := by
      rw [Dev.creelBytes, h.recordIn_creel]
      exact creelBytes_setCreelBytes d _ hlen
    simp only [Dev.bobPeek, hsize, hrd, List.range_one, List.flatMap_singleton, Nat.add_zero, Nat.mod_eq_of_lt h.wr, haddr,
      hbytes]

/-- The ring of the bobbin holds the word that entered; outside it the Creel stands. -/
theorem recordIn_outside {bs : List Byte} (hlen : bs.length = 32) :
    sameOutside ramDefault (d.bobBase b) (32 * d.bobSize b) d.creel (recordIn b bs d).creel := by
  rw [h.recordIn_creel]
  intro k hk
  refine sameOutside_setCreelBytes d _ hlen k ?_
  have hindex : ringIndex (d.bobSize b) (d.get (CRLB_WR_WR b)) < d.bobSize b := by
    have hwr := h.wr
    unfold ringIndex
    split <;> omega
  simp only [Dev.bobAddr]
  omega

end Dev.bobIdle

/-- The registers of bobbin `b` that say what it holds are the same in both. -/
structure Dev.sameBobbin (b : Nat) (d t : Dev) : Prop where
  enabled : t.bobEn b = d.bobEn b
  size : t.bobSize b = d.bobSize b
  base : t.bobBase b = d.bobBase b
  wr : t.get (CRLB_WR_WR b) = d.get (CRLB_WR_WR b)
  rd : t.get (CRLB_RD_RD b) = d.get (CRLB_RD_RD b)

/-- An operation that touches no register of block 3 leaves every bobbin. -/
theorem sameBobbin_within {P : List Part} {B : List Nat} {d t : Dev} (h : d.within P B t) (h3 : B.contains 3 = false)
    {b : Nat} (hb : b < 128) : d.sameBobbin b t := by
  have hreg {a : Nat} (ha : a / 0x10000 = 3) : t.reg a = d.reg a := h.frame.1 a (by rw [ha]; exact h3)
  have hcfg := hreg (a := CRLB_CFG b) (by simp only [CRLB_CFG]; omega)
  have hsize := hreg (a := CRLB_SIZE b) (by simp only [CRLB_SIZE]; omega)
  have hbase := hreg (a := CRLB_BASE b) (by simp only [CRLB_BASE]; omega)
  have hwr := hreg (a := CRLB_WR b) (by simp only [CRLB_WR]; omega)
  have hrd := hreg (a := CRLB_RD b) (by simp only [CRLB_RD]; omega)
  exact ⟨on_congr hcfg, by simp only [Dev.bobSize, hsize], by simp only [Dev.bobBase, hbase], by simp only [Dev.get, hwr],
    by simp only [Dev.get, hrd]⟩

namespace Dev.sameBobbin

variable {b : Nat} {d t : Dev} (h : d.sameBobbin b t)
include h

theorem fill : t.bobFill b = d.bobFill b := by
  simp only [Dev.bobFill]
  rw [h.size, h.wr, h.rd]

theorem peek (hcreel : t.creel = d.creel) (k : Nat) : t.bobPeek b k = d.bobPeek b k := by
  simp only [Dev.bobPeek, Dev.creelBytes, Dev.bobAddr, hcreel, h.base, h.size, h.rd]

theorem idle (hd : d.bobIdle b) : t.bobIdle b where
  num := hd.num
  enabled := h.enabled.trans hd.enabled
  empty := h.fill.trans hd.empty
  ring := by rw [h.size]; exact hd.ring
  wr := by rw [h.size, h.wr]; exact hd.wr
  rd := by rw [h.size, h.rd]; exact hd.rd

end Dev.sameBobbin

/-! ### The parts that a descriptor passes through -/

/-- `t` is `d` but for the registers listed, what an occurrence touches, and the melt-pool unit, the DRAM with its
controller and the Creel. -/
def Dev.meltEvent (L : List Nat) (d t : Dev) : Prop :=
  Dev.withEvent L { d with mpl := t.mpl, dram := t.dram, creel := t.creel, drc := t.drc } t

section
variable {d t u : Dev} {L M : List Nat}

theorem meltEvent_trans (h : d.meltEvent L t) (k : t.meltEvent M u) : d.meltEvent (L ++ M) u :=
  withEvent_trans (t := { t with mpl := u.mpl, dram := u.dram, creel := u.creel, drc := u.drc })
    ⟨by rw [h.1], h.2⟩ k

theorem meltEvent_of (h : d.withEvent L t) : d.meltEvent L t := ⟨by rw [h.1], h.2⟩

theorem meltEvent_regs (h : d.regsOnly L t) : d.meltEvent L t := meltEvent_of (withEvent_of h (EventOnly.refl t))

theorem meltEvent_mono (h : d.meltEvent L t) (hs : L ⊆ M) : d.meltEvent M t := withEvent_mono h hs

theorem meltEvent_reg (h : d.meltEvent L t) {a : Nat} (ha : a ∉ L) (he : eventReg a = false) : t.reg a = d.reg a := by
  rw [h.2 a ha he, reg_mk]

/-- A change of those parts alone. -/
theorem meltEvent_parts (d : Dev) (m : Melt) (x y : List Host.Cell) (z : Dram) :
    d.meltEvent [] { d with mpl := m, dram := x, creel := y, drc := z } := withEvent_refl _ _

/-- After a change that the detection of a fault may make. -/
theorem withFault_meltEvent (h : d.withFault L t) (k : t.meltEvent M u) :
    Dev.withFault (L ++ M) { d with mpl := u.mpl, dram := u.dram, creel := u.creel, drc := u.drc } u :=
  withFault_trans (t := { t with mpl := u.mpl, dram := u.dram, creel := u.creel, drc := u.drc })
    ⟨by rw [h.1], h.2⟩ (withEvent_fault k)

end

/-! ### The ring in DRAM (R228) -/

/-- The registers that say where the ring of the descriptors lies. -/
def ringRegs : List Nat := [MPL_CTRL, MPL_DESC_BASE, MPL_DESC_SIZE, DRC_CTRL]

/-- The ring of the descriptors is configured without export, and its next slot lies at `a`, in DRAM. -/
structure Dev.ringNext (a : Nat) (d : Dev) : Prop where
  addr : a = d.reg MPL_DESC_BASE % 65536 * 1048576 +
    32 * (d.mpl.descNext % (d.reg MPL_DESC_SIZE % 65536 * 1048576 / 32))
  size : d.reg MPL_DESC_SIZE % 65536 ≠ 0
  noExport : d.on MPL_CTRL_DESC_EXPORT = false
  inside : d.inDram a 32 = true

/-- The capacity of the DRAM is said by DRC_CTRL (R428, R430). -/
theorem dramCap_congr {d t : Dev} (h : t.reg DRC_CTRL = d.reg DRC_CTRL) : t.dramCap = d.dramCap := by
  have hget {f : Field} (hf : f.addr = DRC_CTRL) : t.get f = d.get f := by simp only [Dev.get, hf, h]
  have hrank : t.rankBytes = d.rankBytes := by
    unfold Dev.rankBytes
    rw [hget (f := DRC_CTRL_DENSITY) rfl, on_congr (f := DRC_CTRL_WIDTH) h]
  rw [Dev.dramCap, Dev.dramCap, Dev.dramChannels, Dev.dramChannels, Dev.dramRanks, Dev.dramRanks, hrank,
    hget (f := DRC_CTRL_CH1_EN) rfl, hget (f := DRC_CTRL_RANKS) rfl]

theorem ringNext_congr {a : Nat} {d t : Dev} (h : d.ringNext a) (hreg : ∀ x ∈ ringRegs, t.reg x = d.reg x)
    (hnext : t.mpl.descNext = d.mpl.descNext) : t.ringNext a := by
  obtain ⟨hctrl, hbase, hsize, hdrc⟩ : t.reg MPL_CTRL = d.reg MPL_CTRL ∧ t.reg MPL_DESC_BASE = d.reg MPL_DESC_BASE ∧
      t.reg MPL_DESC_SIZE = d.reg MPL_DESC_SIZE ∧ t.reg DRC_CTRL = d.reg DRC_CTRL := by
    simpa [ringRegs] using hreg
  obtain ⟨haddr, hpos, hexport, hin⟩ := h
  refine ⟨by rw [hbase, hsize, hnext]; exact haddr, by rw [hsize]; exact hpos, (on_congr hctrl).trans hexport, ?_⟩
  rw [Dev.inDram, dramCap_congr hdrc]
  exact hin

/-- A descriptor stored in slot `a` of the ring. -/
def ringStored (a : Nat) (bs : List Byte) (fill size next : Nat) (d : Dev) : Dev :=
  ((wake a (d.setDramBytes a bs)).setReg MPL_DESC_FILL (min (fill + 1) size)).mplMod fun m => { m with descNext := next }

theorem ringStored_meltEvent (a : Nat) (bs : List Byte) (fill size next : Nat) (d : Dev) :
    d.meltEvent [MPL_DESC_FILL] (ringStored a bs fill size next d) :=
  meltEvent_trans (L := []) (t := wake a (d.setDramBytes a bs)) (meltEvent_parts d _ _ _ _)
    (meltEvent_trans (M := []) (meltEvent_regs (regsOnly_setReg _ MPL_DESC_FILL _)) (meltEvent_parts _ _ _ _ _))

theorem ringStored_reg {a fill size next x : Nat} {bs : List Byte} {d : Dev} (h : x ≠ MPL_DESC_FILL) :
    (ringStored a bs fill size next d).reg x = d.reg x := reg_setReg_ne (wake a (d.setDramBytes a bs)) _ h

theorem ringStored_creel (a : Nat) (bs : List Byte) (fill size next : Nat) (d : Dev) :
    (ringStored a bs fill size next d).creel = d.creel := rfl

theorem ringStored_st (a : Nat) (bs : List Byte) (fill size next : Nat) (d : Dev) :
    (ringStored a bs fill size next d).mpl.st = d.mpl.st := rfl

/-- A descriptor that its bobbin gives is stored in the next slot of the ring. -/
theorem descDrain_stores {n : Station} {a : Nat} {bs : List Byte} {d : Dev}
    (hpop : (bobPop (32 + n.val) 1 d).1 = some bs) (hlen : bs.length = 32) (h : d.ringNext a) :
    ∃ fill size next, descDrain n d = ringStored a bs fill size next (bobPop (32 + n.val) 1 d).2 := by
  have hown := bobPop_within (32 + n.val) 1 d (by omega)
  have hreg {x : Nat} (hx : [2, 3, 18].contains (x / 0x10000) = false) := hown.frame.1 x hx
  have hmpl : (bobPop (32 + n.val) 1 d).2.mpl = d.mpl := hown.frame.2 .mpl rfl
  obtain ⟨haddr, hpos, hexport, hin⟩ := ringNext_congr h (t := (bobPop (32 + n.val) 1 d).2)
    (fun x hx => hreg (by revert x; decide)) (by rw [hmpl])
  have hsize : (bobPop (32 + n.val) 1 d).2.reg MPL_DESC_SIZE = d.reg MPL_DESC_SIZE := hreg (by decide)
  rw [hsize] at haddr hpos
  rw [descDrain, show bobPop (32 + n.val) 1 d = (some bs, (bobPop (32 + n.val) 1 d).2) from Prod.ext hpop rfl]
  have hne : d.reg MPL_DESC_SIZE % 65536 * 1048576 / 32 ≠ 0 := by omega
  simp only [hne, hexport, decide_false, Bool.false_and, Bool.or_self, Bool.false_eq_true, ↓reduceIte, dramWrite, hlen,
    ← haddr, hin]
  exact ⟨_, _, _, rfl⟩

/-! ### A descriptor's way (R224, R228) -/

/-- The registers that a descriptor of station `n` may change beside those of an occurrence. -/
def descRegs (n : Station) : List Nat :=
  [MPLS_DESC_CNT n, MPL_DESC_FILL, CRLB_WR (32 + n.val), CRLB_RD (32 + n.val), CRLB_FILL (32 + n.val),
    CRLB_STATUS (32 + n.val), CRL_EVT_BOBBIN]

/-- They are those of the record's way into the bobbin, of its way out, and of the ring. -/
theorem descRegs_parts (n : Station) :
    CRLB_WR (32 + n.val) :: bobShown (32 + n.val) ++ [MPLS_DESC_CNT n] ⊆ descRegs n ∧
      CRLB_RD (32 + n.val) :: bobShown (32 + n.val) ⊆ descRegs n ∧ [MPL_DESC_FILL] ⊆ descRegs n := by
  simp only [descRegs, bobShown, List.cons_append, List.nil_append, List.cons_subset, List.nil_subset, List.mem_cons,
    true_or, or_true, and_self]

/-- What a descriptor leaves at its station: a MARK pick with a pool is noted for Trim (R538). -/
def markNoted (words : List Nat) (info : TickInfo) (m : MeltStation) : MeltStation :=
  if info.mark && !bit (words.getD 4 0) 28 then { m with marks := info.pick :: m.marks } else m

theorem markNoted_done (words : List Nat) (info : TickInfo) (m : MeltStation) : (markNoted words info m).done = m.done := by
  unfold markNoted; split <;> rfl

theorem markNoted_awaiting (words : List Nat) (info : TickInfo) (m : MeltStation) :
    (markNoted words info m).awaiting = m.awaiting := by
  unfold markNoted; split <;> rfl

/-- The station's unit once its descriptor has entered the bobbin: the MARK pick is noted, the descriptor counted. -/
def descCounted (n : Station) (words : List Nat) (info : TickInfo) (d : Dev) : Dev :=
  (d.mstMod n (markNoted words info)).count (MPLS_DESC_CNT n) 1

theorem mstMod_markNoted (n : Station) (words : List Nat) (info : TickInfo) (d : Dev) :
    (if info.mark && !bit (words.getD 4 0) 28 then d.mstMod n fun m => { m with marks := info.pick :: m.marks } else d) =
      d.mstMod n (markNoted words info) := by
  unfold markNoted
  split
  · rfl
  · rw [Dev.mstMod, vmod_self _ _ rfl]

theorem length_wordsBytes (ws : List Nat) : (wordsBytes ws).length = 4 * ws.length := by
  simp [wordsBytes, List.length_flatMap, length_leBytes, Nat.mul_comm]

/-- A descriptor that its bobbin takes is counted and drained. -/
theorem descWrite_pushed {n : Station} {words : List Nat} {d t : Dev} (info : TickInfo)
    (h : bobPush (32 + n.val) (wordsBytes words) d = (true, t)) :
    descWrite n words info d = descDrain n (descCounted n words info t) := by
  simp only [descWrite, h, mstMod_markNoted, ↓reduceIte]
  rfl

/-- From `d` to `t` a descriptor of station `n` was stored at `a`, counted, and noted at the station. -/
structure Dev.describes (n : Station) (a : Nat) (bs : List Byte) (note : MeltStation → MeltStation) (d t : Dev) :
    Prop where
  counted : t.reg (MPLS_DESC_CNT n) = min (d.reg (MPLS_DESC_CNT n) + 1) 0xFFFFFFFF
  stored : t.dramBytes a 32 = bs
  dram : sameOutside ramDefault a 32 d.dram t.dram
  creel : sameOutside ramDefault (d.bobBase (32 + n.val)) (32 * d.bobSize (32 + n.val)) d.creel t.creel
  stations : t.mpl.st = vmod d.mpl.st n note
  rest : d.meltEvent (descRegs n) t

theorem descCnt_block (n : Station) : MPLS_DESC_CNT n / 0x10000 = 11 := by simp only [MPLS_DESC_CNT]; omega

theorem descCounted_mpl (n : Station) (words : List Nat) (info : TickInfo) (d : Dev) :
    (descCounted n words info d).mpl.st = vmod d.mpl.st n (markNoted words info) ∧
      (descCounted n words info d).mpl.descNext = d.mpl.descNext := ⟨rfl, rfl⟩

theorem descCounted_cnt (n : Station) (words : List Nat) (info : TickInfo) (d : Dev) :
    (descCounted n words info d).reg (MPLS_DESC_CNT n) = min (d.reg (MPLS_DESC_CNT n) + 1) 0xFFFFFFFF :=
  reg_count_same (d.mstMod n (markNoted words info)) (MPLS_DESC_CNT n) 1

theorem descCounted_own (n : Station) (words : List Nat) (info : TickInfo) (d : Dev) :
    d.within [.mpl] [11] (descCounted n words info d) :=
  within_comp (count_within _ (MPLS_DESC_CNT n) 1 11 (descCnt_block n) (.inl (by decide)))
    (within_mono (mstMod_within n _ d) rfl rfl) rfl rfl

/-- The descriptor has entered its bobbin and is counted. -/
theorem descCounted_meltEvent {n : Station} {d : Dev} (hidle : d.bobIdle (32 + n.val)) (words : List Nat)
    (info : TickInfo) (bs : List Byte) :
    d.meltEvent (descRegs n) (descCounted n words info (recordIn (32 + n.val) bs d)) := by
  have hin : d.meltEvent (CRLB_WR (32 + n.val) :: bobShown (32 + n.val)) (recordIn (32 + n.val) bs d) :=
    meltEvent_trans (L := []) (meltEvent_parts d d.mpl d.dram (recordIn (32 + n.val) bs d).creel d.drc)
      (meltEvent_of (hidle.recordIn_withEvent bs))
  exact meltEvent_mono (meltEvent_trans hin (meltEvent_trans (meltEvent_parts _ _ _ _ _)
    (meltEvent_regs (regsOnly_count _ (MPLS_DESC_CNT n) 1)))) (descRegs_parts n).1

theorem ringRegs_plain : ∀ x ∈ ringRegs, faultReg x = false := by decide

theorem ringRegs_not_desc (n : Station) : ∀ x ∈ ringRegs, x ∉ descRegs n := by
  simp only [ringRegs, descRegs, List.mem_cons, List.not_mem_nil, or_false, MPL_CTRL, MPL_DESC_BASE, MPL_DESC_SIZE, DRC_CTRL,
    MPLS_DESC_CNT, MPL_DESC_FILL, CRLB_WR, CRLB_RD, CRLB_FILL, CRLB_STATUS, CRL_EVT_BOBBIN]
  omega

/-- From `d` to `u` a descriptor of station `n` has entered its bobbin, was counted, and was noted at the station: the
bobbin gives it, and the next slot of the ring lies at `a`. -/
structure Dev.entered (n : Station) (a : Nat) (bs : List Byte) (note : MeltStation → MeltStation) (d u : Dev) :
    Prop where
  given : (bobPop (32 + n.val) 1 u).1 = some bs
  slot : u.ringNext a
  counted : u.reg (MPLS_DESC_CNT n) = min (d.reg (MPLS_DESC_CNT n) + 1) 0xFFFFFFFF
  dram : u.dram = d.dram
  creel : sameOutside ramDefault (d.bobBase (32 + n.val)) (32 * d.bobSize (32 + n.val)) d.creel u.creel
  stations : u.mpl.st = vmod d.mpl.st n note
  rest : d.meltEvent (descRegs n) u

/-- An empty bobbin whose ring is ready takes a descriptor of one word of the Creel. -/
theorem descCounted_entered {n : Station} {a : Nat} {bs : List Byte} {d : Dev} (words : List Nat) (info : TickInfo)
    (hidle : d.bobIdle (32 + n.val)) (hring : d.ringNext a) (hlen : bs.length = 32) :
    d.entered n a bs (markNoted words info) (descCounted n words info (recordIn (32 + n.val) bs d)) := by
  have hin := recordIn_own hidle.num bs d
  have hown := descCounted_own n words info (recordIn (32 + n.val) bs d)
  have hsame := sameBobbin_within hown rfl hidle.num
  have hcounted := descCounted_meltEvent hidle words info bs
  obtain ⟨hen, hfill, hpeek⟩ := hidle.recordIn_holds hlen
  obtain ⟨hst, hnext⟩ := descCounted_mpl n words info (recordIn (32 + n.val) bs d)
  rw [hin.frame.2 .mpl rfl] at hst hnext
  exact {
    given := by
      rw [bobPop_of_fill (hsame.enabled.trans hen) (by rw [hsame.fill, hfill]), hsame.peek (hown.frame.2 .creel rfl), hpeek]
    slot := ringNext_congr hring
      (fun x hx => meltEvent_reg hcounted (ringRegs_not_desc n x hx) (eventReg_of_faultReg (ringRegs_plain x hx))) hnext
    counted := by rw [descCounted_cnt, hin.frame.1 (MPLS_DESC_CNT n) (by rw [descCnt_block]; rfl)]
    dram := (hown.frame.2 .dram rfl).trans (hin.frame.2 .dram rfl)
    creel := by
      rw [hown.frame.2 .creel rfl]
      exact hidle.recordIn_outside hlen
    stations := hst
    rest := hcounted }

/-- A descriptor that has entered its bobbin is stored in the next slot of the ring. -/
theorem descDrain_describes {n : Station} {a : Nat} {bs : List Byte} {note : MeltStation → MeltStation} {d u : Dev}
    (h : d.entered n a bs note u) (hlen : bs.length = 32) : d.describes n a bs note (descDrain n u) := by
  have hout := bobPop_within (32 + n.val) 1 u (by omega)
  have hpopped : u.meltEvent (descRegs n) (bobPop (32 + n.val) 1 u).2 :=
    meltEvent_mono (meltEvent_of (bobPop_withEvent (32 + n.val) 1 u)) (descRegs_parts n).2.1
  obtain ⟨fill, size, next, hdo⟩ := descDrain_stores h.given hlen h.slot
  rw [hdo]
  generalize (bobPop (32 + n.val) 1 u).2 = p at hout hpopped ⊢
  have hdram : p.dram = d.dram := (hout.frame.2 .dram rfl).trans h.dram
  exact {
    counted := by
      rw [ringStored_reg (by simp only [MPLS_DESC_CNT, MPL_DESC_FILL]; omega),
        hout.frame.1 _ (by rw [descCnt_block]; rfl), h.counted]
    stored := by
      rw [← hlen]
      exact loadBytes_storeBytes ramDefault p.dram a bs
    dram := fun k hk => by
      rw [← hdram]
      exact sget_storeBytes_out ramDefault ramDefault bs p.dram a k (by rwa [hlen])
    creel := by
      rw [ringStored_creel, hout.frame.2 .creel rfl]
      exact h.creel
    stations := by rw [ringStored_st, hout.frame.2 .mpl rfl, h.stations]
    rest := meltEvent_mono (meltEvent_trans (meltEvent_trans h.rest hpopped) (ringStored_meltEvent a bs fill size next p))
      (List.append_subset.2 ⟨List.append_subset.2 ⟨List.Subset.refl _, List.Subset.refl _⟩,
        (descRegs_parts n).2.2⟩) }

/-- A descriptor of eight words whose bobbin and ring are ready is stored in the next slot, and counted. -/
theorem descWrite_describes {n : Station} {a : Nat} {words : List Nat} {d : Dev} (info : TickInfo)
    (hidle : d.bobIdle (32 + n.val)) (hring : d.ringNext a) (hwords : words.length = 8) :
    d.describes n a (wordsBytes words) (markNoted words info) (descWrite n words info d) := by
  have hlen : (wordsBytes words).length = 32 := by rw [length_wordsBytes, hwords]
  rw [descWrite_pushed info (hidle.push hlen)]
  exact descDrain_describes (descCounted_entered words info hidle hring hlen) hlen

namespace Dev.describes

variable {n : Station} {a : Nat} {bs : List Byte} {note : MeltStation → MeltStation} {d t : Dev}
  (h : d.describes n a bs note t)
include h

theorem station : t.mst n = note (d.mst n) := by
  rw [Dev.mst, h.stations, vat_vmod_same]
  rfl

theorem others {k : Station} (hk : k ≠ n) : t.mst k = d.mst k := by
  rw [Dev.mst, h.stations]
  exact vat_vmod_ne _ _ hk

end Dev.describes

/-! ### What a descriptor is read from (R223, R226) -/

theorem mstMod_st (n : Station) (f : MeltStation → MeltStation) (d : Dev) :
    (d.mstMod n f).mpl.st = vmod d.mpl.st n f := rfl

theorem mstMod_reg (n : Station) (f : MeltStation → MeltStation) (d : Dev) (a : Nat) :
    (d.mstMod n f).reg a = d.reg a := rfl

/-- The registers that say where the map lies on the bed. -/
def mapRegs : List Nat := [MPL_MAP_X0, MPL_MAP_Y0, MPL_MAP_SIZE]

/-- The descriptor of an incomplete frame is read from the ticks and positions of its station and the place of the map. -/
theorem descIncomplete_congr {n : Station} {d t : Dev} (hreg : ∀ x ∈ mapRegs, t.reg x = d.reg x)
    (hticks : (t.mst n).ticks = (d.mst n).ticks) (hacts : (t.mst n).acts = (d.mst n).acts) (x : CoaxTrig) :
    descIncomplete n x t = descIncomplete n x d := by
  obtain ⟨hx, hy, hsize⟩ : t.reg MPL_MAP_X0 = d.reg MPL_MAP_X0 ∧ t.reg MPL_MAP_Y0 = d.reg MPL_MAP_Y0 ∧
      t.reg MPL_MAP_SIZE = d.reg MPL_MAP_SIZE := by simpa [mapRegs] using hreg
  have hinfo (k : Nat) : t.tickInfo n k = d.tickInfo n k := by simp only [Dev.tickInfo, hticks]
  have hact (k : Nat) : t.actAt n k = d.actAt n k := by simp only [Dev.actAt, hacts]
  have hcell (c : Int × Int × Nat) : t.cellWord c = d.cellWord c := by
    have hof : t.cellOf = d.cellOf := by
      funext x y
      simp only [Dev.cellOf, Dev.regS, hx, hy]
    have hin : t.inMap = d.inMap := by
      funext e
      rw [Dev.inMap, Dev.inMap, Dev.mapW, Dev.mapW, Dev.mapH, Dev.mapH, hsize]
    simp only [Dev.cellWord]
    rw [hof, hin]
  simp only [descIncomplete, hinfo, hact, hcell]

/-! ### The oldest frame is over, incomplete (R225, R226) -/

/-- What the end of its oldest frame leaves at a station. -/
def endNoted (no : Nat) (rest : List CoaxFrame) (m : MeltStation) : MeltStation :=
  { m with done := rest, trigs := m.trigs.filter fun x => x.no ≠ no,
           awaiting := if m.awaiting = some no then none else m.awaiting }

/-- The frame is no longer among those that are over; its exposure is forgotten, and not awaited. -/
def frameEnded (n : Station) (no : Nat) (rest : List CoaxFrame) (d : Dev) : Dev := d.mstMod n (endNoted no rest)

theorem exec_descriptorWritten (n : Station) (s : State) :
    exec (.descriptorWritten n) s = actFab (fun d => frameDone n d.t0.tick d) s := rfl

/-- An incomplete frame that is kept yields its descriptor. -/
theorem frameDone_incomplete {n : Station} {f : CoaxFrame} {rest : List CoaxFrame} {d u : Dev} (now : Nat)
    (hu : u = frameEnded n f.trig.no rest d) (hdone : (d.mst n).done = f :: rest) (hcut : f.complete = false)
    (hen : d.on (MPLS_CTRL_EN n) = true) (hcoax : d.on (MPLS_CTRL_COAX_EN n) = true)
    (hall : d.on (MPLS_CTRL_ALL_FRAMES n) = true) :
    frameDone n now d = descWrite n (descIncomplete n f.trig u) (u.tickInfo n f.trig.mid) u := by
  have hon (g : Field) : u.on g = d.on g := hu ▸ on_congr (mstMod_reg n _ d g.addr)
  have hkept : (u.on (MPLS_CTRL_EN n) && u.on (MPLS_CTRL_COAX_EN n) && u.frameKept n f.trig) = true := by
    simp only [Dev.frameKept, hon, hen, hcoax, hall, Bool.true_or, Bool.and_self]
  subst hu
  simp only [frameDone, hdone, hcut, Bool.not_false, ↓reduceIte]
  exact if_pos hkept

/-! ### A frame that is bad (R226) -/

/-- The detection of an INFO fault but MELT_DEV freezes no archive (R239). -/
theorem archCauses_info {code : Nat} (h : code ≠ 0x4D) (inst : Nat) (d : Dev) : archCauses code sevInfo inst d = d :=
  List.foldlRecOn (motive := fun t : Dev => t = d) _ _ rfl fun t ht n _ => by
    rw [if_neg (by simp [h])]
    exact ht

/-- The detection of an INFO fault but MELT_DEV leaves the melt-pool unit. The states in between are made opaque one by one:
each is compared with the one before it only. -/
theorem fault_info_mpl {code : Nat} (h : code ≠ 0x4D) (inst : Nat) (d : Dev) :
    (fault code sevInfo inst d).mpl = d.mpl := by
  unfold fault faultD
  extract_lets us s1 escalated sev' halting subsumed handled queued full w s2 s3 s4 s5 s6 trigger seen s7
  have hkeep {t u : Dev} (c : Prop) [Decidable c] (hu : u.mpl = t.mpl) : (if c then u else t).mpl = t.mpl := by
    split
    · exact hu
    · rfl
  have hsev : sev' = sevInfo := rfl
  have h1 : s1 = d := if_neg (by decide)
  clear_value s1 sev' handled queued
  have h2 : s2.mpl = s1.mpl := hkeep _ rfl
  clear_value s2
  have h3 : s3.mpl = s2.mpl := setReg_mpl _ _ _
  have h4 : s4.mpl = s3.mpl := (setReg_mpl _ _ _).trans ((setReg_mpl _ _ _).trans (setReg_mpl _ _ _))
  clear_value s4
  have h5 : s5.mpl = s4.mpl := hkeep _ ((setReg_mpl _ _ _).trans (setReg_mpl _ _ _))
  clear_value s5
  have h6 : s6.mpl = s5.mpl := hkeep _ (setReg_mpl _ _ _)
  clear_value s6
  have h7 : s7.mpl = s6.mpl := hkeep _ rfl
  rw [(stage_within _ _).frame.2 .mpl rfl, hsev, archCauses_info h inst s7, h7, h6, h5, h4, h3, h2, h1]

/-- COAX_FRAME has been raised in the pick of a station. -/
def badMarked (m : MeltStation) : MeltStation := { m with badSeen := true }

/-- COAX_FRAME has been raised in the pick of station `n`. -/
def badNoted (n : Station) (d : Dev) : Dev := d.mstMod n badMarked

theorem badNoted_self {n : Station} {d : Dev} (h : (d.mst n).badSeen = true) : badNoted n d = d := by
  have hm : badMarked (vat d.mpl.st n) = vat d.mpl.st n := by
    show { d.mst n with badSeen := true } = d.mst n
    rw [← h]
  rw [badNoted, Dev.mstMod, vmod_self _ _ hm]

/-- A bad frame is counted and flagged; the fault COAX_FRAME is raised once in a pick (R226). -/
theorem frameBad_spec (n : Station) (d : Dev) :
    (frameBad n d).reg (MPLS_FRAMES_BAD n) = min (d.reg (MPLS_FRAMES_BAD n) + 1) 0xFFFFFFFF ∧
      (frameBad n d).on (MPLS_FLAGS_FRAME_BAD n) = true ∧ (frameBad n d).mpl = (badNoted n d).mpl ∧
      d.withFault [MPLS_FRAMES_BAD n, MPLS_FLAGS n] (frameBad n d) := by
  have hbad : MPLS_FRAMES_BAD n / 0x10000 = 11 := by simp only [MPLS_FRAMES_BAD]; omega
  have hne : MPLS_FRAMES_BAD n ∉ [MPLS_FLAGS n] := by
    simp only [List.mem_singleton, MPLS_FRAMES_BAD, MPLS_FLAGS]
    omega
  have key (code : Nat) (t : Dev)
      (ht : (mplFlag n (MPLS_FLAGS_FRAME_BAD n) code (d.count (MPLS_FRAMES_BAD n) 1)).withFault [] t) :
      t.reg (MPLS_FRAMES_BAD n) = min (d.reg (MPLS_FRAMES_BAD n) + 1) 0xFFFFFFFF ∧
        t.on (MPLS_FLAGS_FRAME_BAD n) = true ∧ d.withFault [MPLS_FRAMES_BAD n, MPLS_FLAGS n] t := by
    obtain ⟨hflag, hon⟩ := mplFlag_spec n (f := MPLS_FLAGS_FRAME_BAD n) code (d.count (MPLS_FRAMES_BAD n) 1)
      (mplsFlags_block n) rfl (by simp)
    refine ⟨?_, (on_withFault ht (by simp) (faultReg_mpl (mplsFlags_block n))).trans hon, ?_⟩
    · rw [ht.2 _ (by simp) (faultReg_mpl hbad), hflag.2 _ hne (eventReg_of_faultReg (faultReg_mpl hbad)), reg_count_same]
    · have hcount := withFault_of (regsOnly_count d (MPLS_FRAMES_BAD n) 1) (FaultOnly.refl _)
      exact withFault_trans (withFault_trans hcount (withEvent_fault hflag)) ht
  have hmpl (code : Nat) : (mplFlag n (MPLS_FLAGS_FRAME_BAD n) code (d.count (MPLS_FRAMES_BAD n) 1)).mpl = d.mpl :=
    (mplFlag_within n _ code _ (mplsFlags_block n)).frame.2 .mpl rfl
  cases hseen : (d.mst n).badSeen with
  | true =>
    have hdo : frameBad n d = mplFlag n (MPLS_FLAGS_FRAME_BAD n) 0 (d.count (MPLS_FRAMES_BAD n) 1) := by
      simp [frameBad, hseen]
    obtain ⟨hcount, hon, hrest⟩ := key 0 _ (withEvent_fault (withEvent_refl _ []))
    rw [hdo, badNoted_self hseen]
    exact ⟨hcount, hon, hmpl 0, hrest⟩
  | false =>
    have hdo : frameBad n d = fault 0x50 sevInfo n.val
        (badNoted n (mplFlag n (MPLS_FLAGS_FRAME_BAD n) 0x50 (d.count (MPLS_FRAMES_BAD n) 1))) := by
      unfold badNoted badMarked
      simp [frameBad, hseen]
    obtain ⟨hcount, hon, hrest⟩ := key 0x50 _ (withFault_trans (withFault_mpl (regsOnly_refl _ []) _)
      (withFault_of (regsOnly_refl _ []) (faultD_faultOnly 0x50 sevInfo n.val 0 0 (badNoted n _) (by decide))))
    rw [hdo]
    refine ⟨hcount, hon, ?_, hrest⟩
    rw [fault_info_mpl (by decide)]
    simp only [badNoted, Dev.mstMod, hmpl]

/-! ### The last frame of a layer is overdue (R227) -/

/-- What giving up its last frame leaves at a station. -/
def lossNoted (no : Nat) (m : MeltStation) : MeltStation :=
  { m with rx := none, awaiting := none, trigs := m.trigs.filter fun x => x.no ≠ no }

/-- The last frame is no longer awaited nor received, and its exposure is forgotten. -/
def lastGivenUp (n : Station) (no : Nat) (d : Dev) : Dev := d.mstMod n (lossNoted no)

/-- The exposure of the last frame, of which the device may know no more than its number. -/
def Dev.lastTrig (d : Dev) (n : Station) (no : Nat) : CoaxTrig := (d.trigOf n no).getD ⟨no, 0, 0, 0⟩

theorem lastDescriptor_overdue {n : Station} {no k : Nat} {d : Dev} (haw : (d.mst n).awaiting = some no)
    (hoff : (d.mst n).lastOff = some k) (hlate : k + 120 ≤ d.t0.tick) :
    lastDescriptor n d = descWrite n (descIncomplete n (d.lastTrig n no) (frameBad n (lastGivenUp n no d)))
      ((frameBad n (lastGivenUp n no d)).tickInfo n (d.lastTrig n no).mid) (frameBad n (lastGivenUp n no d)) := by
  simp only [lastDescriptor, haw, hoff, Nat.not_lt.2 hlate, ↓reduceIte]
  rfl

/-- A descriptor leaves the count and the flags of bad frames. -/
theorem badRegs_kept {n : Station} {d t : Dev} (h : d.meltEvent (descRegs n) t) {x : Nat}
    (hx : x ∈ [MPLS_FRAMES_BAD n, MPLS_FLAGS n]) : t.reg x = d.reg x := by
  simp only [List.mem_cons, List.not_mem_nil, or_false, MPLS_FRAMES_BAD, MPLS_FLAGS] at hx
  refine meltEvent_reg h ?_ (eventReg_of_faultReg (faultReg_mpl (by omega)))
  simp only [descRegs, List.mem_cons, List.not_mem_nil, or_false, MPLS_DESC_CNT, MPL_DESC_FILL, CRLB_WR, CRLB_RD, CRLB_FILL,
    CRLB_STATUS, CRL_EVT_BOBBIN]
  omega

/-! ### A frame that is over -/

/-- From `d` to `u` a frame of station `n` is over, with or without being counted as bad: the station notes it by `f`. -/
structure Dev.frameOver (n : Station) (f : MeltStation → MeltStation) (d u : Dev) : Prop where
  own : d.within [.ev, .flt, .wal, .dof, .mpl] [2, 11, 18] u
  rest : d.withFault [MPLS_FRAMES_BAD n, MPLS_FLAGS n] u
  st : u.mpl.st = vmod d.mpl.st n f
  next : u.mpl.descNext = d.mpl.descNext
  ticks : ∀ m, (f m).ticks = m.ticks
  acts : ∀ m, (f m).acts = m.acts

/-- The registers that a descriptor and its slot are read from are no count and no flag of a station. -/
theorem readRegs_apart (n : Station) :
    ∀ x ∈ ringRegs ++ mapRegs, faultReg x = false ∧ x ∉ [MPLS_FRAMES_BAD n, MPLS_FLAGS n] := by
  have hplain : ∀ x ∈ ringRegs ++ mapRegs, faultReg x = false := by decide
  refine fun x hx => ⟨hplain x hx, ?_⟩
  revert x
  simp only [ringRegs, mapRegs, List.cons_append, List.nil_append, List.mem_cons, List.not_mem_nil, or_false, MPL_CTRL,
    MPL_DESC_BASE, MPL_DESC_SIZE, DRC_CTRL, MPL_MAP_X0, MPL_MAP_Y0, MPL_MAP_SIZE, MPLS_FRAMES_BAD, MPLS_FLAGS]
  omega

namespace Dev.frameOver

variable {n : Station} {f : MeltStation → MeltStation} {d u : Dev} (h : d.frameOver n f u)
include h

theorem reg {x : Nat} (hx : x ∈ ringRegs ++ mapRegs) : u.reg x = d.reg x := by
  obtain ⟨hplain, hnot⟩ := readRegs_apart n x hx
  exact h.rest.2 x hnot hplain

theorem station : u.mst n = f (d.mst n) := by
  rw [Dev.mst, h.st, vat_vmod_same]
  rfl

theorem others {k : Station} (hk : k ≠ n) : u.mst k = d.mst k := by
  rw [Dev.mst, h.st]
  exact vat_vmod_ne _ _ hk

theorem bobbin : d.sameBobbin (32 + n.val) u := sameBobbin_within h.own rfl (by omega)

theorem words (x : CoaxTrig) : descIncomplete n x u = descIncomplete n x d :=
  descIncomplete_congr (fun _ hx => h.reg (List.mem_append_right _ hx)) (by rw [h.station, h.ticks])
    (by rw [h.station, h.acts]) x

/-- No reaction waits once the descriptor is written, where none waits now. -/
theorem quiet (hc : d.calm) (words : List Nat) (info : TickInfo) : (descWrite n words info u).ev.reacts = [] :=
  ((descWrite_within n words info u).calm (h.own.calm hc)).1

/-- Where the bobbin and the ring are ready, the descriptor that follows is stored and counted. -/
theorem describes {a : Nat} (hidle : d.bobIdle (32 + n.val)) (hring : d.ringNext a) (x : CoaxTrig) (info : TickInfo) :
    u.describes n a (wordsBytes (descIncomplete n x d)) (markNoted (descIncomplete n x u) info)
      (descWrite n (descIncomplete n x u) info u) := by
  rw [← h.words]
  exact descWrite_describes info (h.bobbin.idle hidle)
    (ringNext_congr hring (fun _ hx => h.reg (List.mem_append_left _ hx)) h.next) rfl

/-- The descriptor seen from before the frame was over. -/
theorem described {a : Nat} {bs : List Byte} {note : MeltStation → MeltStation} {t : Dev} (k : u.describes n a bs note t) :
    t.reg (MPLS_DESC_CNT n) = min (d.reg (MPLS_DESC_CNT n) + 1) 0xFFFFFFFF ∧ t.dramBytes a 32 = bs ∧
      sameOutside ramDefault a 32 d.dram t.dram ∧
      sameOutside ramDefault (d.bobBase (32 + n.val)) (32 * d.bobSize (32 + n.val)) d.creel t.creel ∧
      ∀ j, j ≠ n → t.mst j = d.mst j := by
  have hcnt : u.reg (MPLS_DESC_CNT n) = d.reg (MPLS_DESC_CNT n) := h.rest.2 _
    (by simp only [List.mem_cons, List.not_mem_nil, or_false, MPLS_DESC_CNT, MPLS_FRAMES_BAD, MPLS_FLAGS]; omega)
    (faultReg_mpl (descCnt_block n))
  have hcreel := k.creel
  rw [h.bobbin.base, h.bobbin.size, h.own.frame.2 .creel rfl] at hcreel
  refine ⟨by rw [k.counted, hcnt], k.stored, ?_, hcreel, fun j hj => (k.others hj).trans (h.others hj)⟩
  rw [← h.own.frame.2 .dram rfl]
  exact k.dram

end Dev.frameOver

theorem frameEnded_over (n : Station) (no : Nat) (rest : List CoaxFrame) (d : Dev) :
    d.frameOver n (endNoted no rest) (frameEnded n no rest d) where
  own := within_mono (mstMod_within n _ d) rfl rfl
  rest := withFault_mpl (regsOnly_refl d _) _
  st := rfl
  next := rfl
  ticks _ := rfl
  acts _ := rfl

theorem frameEnded_meltEvent (n : Station) (no : Nat) (rest : List CoaxFrame) (d : Dev) :
    d.meltEvent [] (frameEnded n no rest d) := withEvent_refl _ _

theorem frameGivenUp_over (n : Station) (no : Nat) (d : Dev) :
    d.frameOver n (badMarked ∘ lossNoted no) (frameBad n (lastGivenUp n no d)) := by
  obtain ⟨-, -, hmpl, hrest⟩ := frameBad_spec n (lastGivenUp n no d)
  exact {
    own := within_comp (frameBad_within n _) (within_mono (mstMod_within n _ d) rfl rfl) rfl rfl
    rest := withFault_trans (L := []) (withFault_mpl (regsOnly_refl d []) _) hrest
    st := by
      rw [hmpl, badNoted, lastGivenUp, mstMod_st, mstMod_st, vmod_vmod]
      rfl
    next := by
      rw [hmpl]
      rfl
    ticks := fun _ => rfl
    acts := fun _ => rfl }

/-! ### The statement -/

/-- Settles O16: either command is the writing of a descriptor, once its frame is over. -/
theorem frameDescriptors : Obligations.FrameDescriptors := by
  unfold Obligations.FrameDescriptors
  intro n a b no k f rest s hrun hc ha hsize hexport hin hb hen hempty hpos hwr hrd
  subst hb
  have hidle : s.dev.bobIdle (32 + n.val) := ⟨by omega, hen, hempty, hpos, hwr, hrd⟩
  have hring : s.dev.ringNext a := ⟨ha, hsize, hexport, hin⟩
  refine ⟨?incomplete, ?overdue⟩
  case incomplete =>
    intro hdone hcut hon hcoax hall
    rw [exec_descriptorWritten]
    have hover := frameEnded_over n f.trig.no rest s.dev
    have hmelt := frameEnded_meltEvent n f.trig.no rest s.dev
    have hdo := frameDone_incomplete s.dev.t0.tick rfl hdone hcut hon hcoax hall
    generalize frameEnded n f.trig.no rest s.dev = u at hover hmelt hdo
    have htold := hover.describes hidle hring f.trig (u.tickInfo n f.trig.mid)
    obtain ⟨hcount, hstored, hdram, hcreel, hothers⟩ := hover.described htold
    exact ⟨_, actIn_of_eq hrun hdo (hover.quiet hc _ _), by rw [htold.station, markNoted_done, hover.station]; rfl,
      hcount, hstored, hdram, hcreel, hothers, meltEvent_trans hmelt htold.rest⟩
  case overdue =>
    intro haw hoff hlate
    obtain ⟨hbad, hflag, -, -⟩ := frameBad_spec n (lastGivenUp n no s.dev)
    have hover := frameGivenUp_over n no s.dev
    have hdo := lastDescriptor_overdue haw hoff hlate
    rw [lastGivenUp, mstMod_reg, ← lastGivenUp] at hbad
    generalize frameBad n (lastGivenUp n no s.dev) = u at hbad hflag hover hdo
    have htold := hover.describes hidle hring (s.dev.lastTrig n no) (u.tickInfo n (s.dev.lastTrig n no).mid)
    obtain ⟨hcount, hstored, hdram, hcreel, hothers⟩ := hover.described htold
    exact ⟨_, actIn_of_eq hrun hdo (hover.quiet hc _ _), by rw [htold.station, markNoted_awaiting, hover.station]; rfl,
      (badRegs_kept htold.rest (by simp)).trans hbad, (on_congr (badRegs_kept htold.rest (by simp))).trans hflag, hcount,
      hstored, hdram, hcreel, hothers,
      withFault_mono (withFault_meltEvent hover.rest htold.rest) (by
        simp only [descRegs, List.cons_append, List.nil_append, List.cons_subset, List.nil_subset, List.mem_cons, true_or,
          or_true, and_self])⟩

end Sys2Proof.Machine

/-!
PROOFS of the service requests to a station: the request that a command puts in wait and its time-out, then the
statement.
-/
namespace Sys2Proof.Machine

open Reg

/-! ### The state of one link (R265) -/

section
variable (n : Station) (f : Link → Link) (d : Dev)

theorem link_lnkMod_same : (d.lnkMod n f).link n = f (d.link n) := vat_vmod_same _ _ _

theorem link_lnkMod_ne {k : Station} (h : k ≠ n) : (d.lnkMod n f).link k = d.link k := vat_vmod_ne _ _ h

end

/-! ### Requests of the host (R267) -/

/-- The request that LNK_n_SVC_CMD puts in wait: of operation `op`, with the address and the data registers. -/
def Dev.hostRequest (d : Dev) (n : Station) (op : Nat) : SvcReq :=
  ⟨0, op, d.reg (LNK_SVC_ADDR n) % 65536, d.reg (LNK_SVC_WDATA n), false, 0⟩

/-- The host's request waits for a slot, and BUSY shows it. -/
def requestWaits (n : Station) (op : Nat) (d : Dev) : Dev :=
  (d.lnkMod n fun x => { x with hostReq := some (d.hostRequest n op) }).put (LNK_SVC_STAT_BUSY n) 1

theorem svcCmd_free {n : Station} {d : Dev} (h : d.on (LNK_SVC_STAT_BUSY n) = false) (op : Nat) :
    svcCmd n op d = requestWaits n op d := by
  simp [svcCmd, requestWaits, Dev.hostRequest, h]

theorem svcCmd_busy {n : Station} {d : Dev} (h : d.on (LNK_SVC_STAT_BUSY n) = true) (op : Nat) : svcCmd n op d = d := by
  simp [svcCmd, h]

/-- A command that finds the link free puts its request in wait, and touches nothing else. -/
theorem svcCmd_requests {n : Station} {s : State} (hrun : s.dev.runs domFab = true) (hc : s.dev.calm)
    (h : s.dev.on (LNK_SVC_STAT_BUSY n) = false) (op : Nat) :
    ∃ d, actFab (svcCmd n op) s = .next { s with dev := d } ∧ d.on (LNK_SVC_STAT_BUSY n) = true
      ∧ (d.link n).hostReq = some (s.dev.hostRequest n op) ∧ (∀ k : Station, k ≠ n → d.link k = s.dev.link k)
      ∧ Dev.regsOnly [LNK_SVC_STAT n] { s.dev with lnk := d.lnk } d := by
  refine ⟨_, actIn_of_eq hrun (svcCmd_free h op) hc.1, on_put_one _ _ rfl (by simp), ?request, ?others,
    regsOnly_put _ (LNK_SVC_STAT_BUSY n) 1⟩
  case request => exact congrArg Link.hostReq (link_lnkMod_same n _ s.dev)
  case others => exact fun k hk => link_lnkMod_ne n _ s.dev hk

/-- A request of the host that has waited 8 ticks for its answer ends with RESULT 0 (R267). -/
theorem svcTimeout_host {n : Station} {r : SvcReq} {d : Dev} {now : Nat} (h : (d.link n).svc = some r)
    (hhost : r.own = false) (hlate : r.tick + 8 ≤ now) :
    svcTimeout n now d = (d.setReg (LNK_SVC_STAT n) 0).lnkMod n fun x => { x with svc := none } := by
  simp only [svcTimeout, h, hhost, Nat.not_lt.2 hlate, Bool.false_eq_true, ↓reduceIte]
  rfl

theorem exec_serviceTimeout (n : Station) (s : State) :
    exec (.serviceTimeout n) s = actFab (fun d => svcTimeout n d.t0.tick d) s := rfl

/-! ### The statement -/

/-- Settles O21: a command by whether the link is BUSY, a time-out by what its answer of RESULT 0 leaves. -/
theorem serviceCommands : Obligations.ServiceCommands := by
  unfold Obligations.ServiceCommands
  intro n r s hrun hc
  refine ⟨?read, ?write, ?busy, ?timeout⟩
  case read => exact fun hfree => svcCmd_requests hrun hc hfree 1
  case write => exact fun hfree => svcCmd_requests hrun hc hfree 2
  case busy =>
    exact fun hbusy => ⟨actIn_of_eq hrun (svcCmd_busy hbusy 1) hc.1, actIn_of_eq hrun (svcCmd_busy hbusy 2) hc.1⟩
  case timeout =>
    intro hsvc hhost hlate
    rw [exec_serviceTimeout]
    exact actIn_of_eq hrun (svcTimeout_host hsvc hhost hlate) hc.1

end Sys2Proof.Machine

/-!
REFUTATION of the commands of a lane: the loss of a chain lane loses the frame that its port sends, and a lost frame
that ends the export of an archive clears EXPORTING of the station it names. That name is a natural number, and the
statement is about every state: the number 16 names no station, and the bit it leads to belongs to an axis.
-/
namespace Sys2Proof.Machine

open Reg

/-- The frame that carries the last record of the archive of a station 16. -/
def strayFrame : Frame := ⟨.own, 2, 0, 0, 0, 0, [], .archive 16⟩

/-- FAB runs, chain port 0 is enabled, has block lock and sends `strayFrame`; axis 0 is homed. -/
def strayExport : Dev :=
  { Dev.reset with
    regs := [(CLK_LIVE, 2), (LNK_LOCKED, 0x10000), (NET_CTRL, 1), (AXS_STATUS 0, 8)]
    start := { Dev.reset.start with porstLow := false }
    chain := { Dev.reset.chain with
      ports := vmod Dev.reset.chain.ports (0 : Port) fun x => { x with sending := some strayFrame } } }

theorem strayExport_calm : strayExport.calm := by
  have hcfg : ∀ e : Fin 256, strayExport.get (EVT_CFG_REACT e) = 0 := by decide +kernel
  exact ⟨rfl, fun e he => hcfg ⟨e, he⟩⟩

/-- The loss of the frame clears EXPORTING of station 16, and `MPLS_STATUS_EXPORTING 16` is `AXS_STATUS_HOMED 0`: with
the block lock of lane 16 axis 0 loses HOMED. -/
theorem lockLost_strayExport : (settle (lockLost 16 true strayExport)).on (AXS_STATUS_HOMED 0) = false := by
  decide +kernel

/-- Refutes O25: where port 0 sends the last record of the archive of a station 16, which is none, the loss of its block
lock changes a register of the axes, and the third clause says that only the blocks it lists change. -/
theorem not_laneCommands : ¬ Obligations.LaneCommands := by
  unfold Obligations.LaneCommands
  intro h
  have hrun : strayExport.runs domFab = true := by decide +kernel
  have hlocked : bit (strayExport.reg LNK_LOCKED) (16 : Lane).val = true := by decide +kernel
  have hhomed : strayExport.on (AXS_STATUS_HOMED 0) = true := by decide +kernel
  obtain ⟨-, -, hloss, -⟩ := h 16 0 0 0 true ⟨strayExport, Otp.blank, []⟩ hrun strayExport_calm
  obtain ⟨d, hexec, -, -, -, -, -, -, -, -, hregs, -⟩ := hloss hlocked
  have hlost : (if strayExport.runs domFab then settle (lockLost 16 true strayExport) else strayExport) = d :=
    congrArg State.dev (Host.Outcome.next.inj hexec)
  rw [if_pos hrun] at hlost
  have hkept : d.reg (AXS_STATUS 0) = strayExport.reg (AXS_STATUS 0) := hregs (AXS_STATUS 0) (by decide)
  have hstill : d.on (AXS_STATUS_HOMED 0) = true := (on_congr hkept).trans hhomed
  rw [← hlost, lockLost_strayExport] at hstill
  exact absurd hstill (by decide)

end Sys2Proof.Machine

/-!
PROOFS of the pin feedback channels: what a change of one channel's state leaves, the edge that is counted, the hit of the
compare, the SSI read, and the transition or frame that is counted as an error; then the statements.
-/
namespace Sys2Proof.Machine

open Reg

/-! ### The state of one channel beside its registers -/

section
variable (c : PinChannel) (f g : PinState → PinState) (d : Dev)

@[simp] theorem pinMod_reg (a : Nat) : (d.pinMod c f).reg a = d.reg a := rfl

@[simp] theorem pinMod_on (x : Field) : (d.pinMod c f).on x = d.on x := rfl

@[simp] theorem pinMod_pinMode (k : PinChannel) : (d.pinMod c f).pinMode k = d.pinMode k := rfl

@[simp] theorem pinMod_pin_same : (d.pinMod c f).pin c = f (d.pin c) := vat_vmod_same _ _ _

theorem pinMod_pin_ne {k : PinChannel} (h : k ≠ c) : (d.pinMod c f).pin k = d.pin k := vat_vmod_ne _ _ h

/-- Two changes of one channel are one. -/
theorem pinMod_pinMod : (d.pinMod c f).pinMod c g = d.pinMod c fun p => g (f p) := by
  simp only [Dev.pinMod, vmod_vmod]

theorem pinMod_self {c : PinChannel} {f : PinState → PinState} {d : Dev} (h : f (d.pin c) = d.pin c) :
    d.pinMod c f = d := by
  simp only [Dev.pinMod, vmod_self d.pins c h]

end

/-! ### Nothing else changed -/

/-- `t` is `d` but for the pin channels and the registers listed. -/
def Dev.pinRegs (L : List Nat) (d t : Dev) : Prop := Dev.regsOnly L { d with pins := t.pins } t

section
variable {d t u : Dev} {L M : List Nat}

theorem pinRegs_of (h : d.regsOnly L t) : d.pinRegs L t := ⟨by rw [h.1], h.2⟩

theorem pinRegs_reg (h : d.pinRegs L t) {a : Nat} (ha : a ∉ L) : t.reg a = d.reg a := h.2 a ha

theorem pinRegs_trans (h : d.pinRegs L t) (k : t.pinRegs M u) : d.pinRegs (L ++ M) u :=
  ⟨by rw [k.1, h.1], fun a ha => by
    rw [List.mem_append, not_or] at ha
    exact (k.2 a ha.2).trans (h.2 a ha.1)⟩

theorem pinRegs_pinMod (h : d.pinRegs L t) (c : PinChannel) (f : PinState → PinState) : d.pinRegs L (t.pinMod c f) :=
  ⟨by rw [h.1]; rfl, h.2⟩

theorem pinRegs_ev (h : d.pinRegs L t) : t.ev = d.ev := by rw [h.1]

/-- The detection of a fault leaves the pin channels as they are. -/
theorem withFault_pins (h : d.pinRegs L t) (k : t.withFault M u) :
    u.pins = t.pins ∧ Dev.withFault (L ++ M) { d with pins := u.pins } u := by
  have hpins : u.pins = t.pins := by rw [k.1]
  refine ⟨hpins, ?_⟩
  rw [hpins]
  exact withFault_trans (withFault_of h (FaultOnly.refl t)) k

end

/-! ### Errors (R281, R283, R285) -/

/-- An error of channel `c` is counted in ERRS, its quality becomes `q`, and its state changes by `g`. -/
def errNoted (c : PinChannel) (q : Nat) (g : PinState → PinState) (d : Dev) : Dev :=
  (setPinQ c q (d.count (FBK_ERRS c) 1)).pinMod c g

/-- An error that is noted raises fault `code` and the flag `f`. -/
def errRaised (c : PinChannel) (f : Field) (code : Nat) (d : Dev) : Dev := pinFlag c f code (fault code sevInfo c.val d)

theorem pinIllegal_eq (c : PinChannel) (f : Field) (code now : Nat) (d : Dev) : pinIllegal c f code now d =
    errRaised c f code (errNoted c qSuspect (fun p => { p with illegal := now :: p.illegal }) d) := rfl

theorem ssiDone_bad {c : PinChannel} {d : Dev} (h : (d.pin c).reading = true) (data now : Nat) :
    ssiDone c false data now d =
      errRaised c (FBK_FLAGS_SSI_ERR c) 0x62 (errNoted c qInvalid (fun p => { p with reading := false }) d) := by
  simp only [ssiDone, h, Bool.not_true, Bool.not_false, Bool.false_eq_true, ↓reduceIte]
  rfl

/-- From `d` to `t` an error of channel `c` was counted in ERRS, its quality became `q`, its state changed by `g`, the flag
`f` was set and a fault was detected; all else is as before, and no reaction waits where none is configured. -/
structure Dev.pinFails (c : PinChannel) (q : Nat) (f : Field) (g : PinState → PinState) (d t : Dev) : Prop where
  quality : t.pinQ c = q
  errs : t.reg (FBK_ERRS c) = min (d.reg (FBK_ERRS c) + 1) 0xFFFFFFFF
  flag : t.on f = true
  state : t.pin c = g (d.pin c)
  calm : d.calm → t.calm
  rest : Dev.withFault [FBK_ERRS c, FBK_QUAL c, FBK_FLAGS c] { d with pins := t.pins } t

section
variable (c : PinChannel) {q code : Nat} (g : PinState → PinState) {f : Field} (d : Dev)

/-- No register of a pin channel is one that the detection of a fault changes. -/
theorem faultReg_fbk {a : Nat} (h : a / 0x10000 = 9) : faultReg a = false := faultReg_block (by rw [h]; decide)

theorem cfgReg_fbk {a : Nat} (h : a / 0x10000 = 9) : cfgReg a = false := by
  simp only [cfgReg, Bool.and_eq_false_iff, decide_eq_false_iff_not]
  omega

theorem fbkErrs_block : FBK_ERRS c / 0x10000 = 9 := by simp only [FBK_ERRS]; omega

theorem fbkQual_block : FBK_QUAL c / 0x10000 = 9 := by simp only [FBK_QUAL]; omega

theorem fbkFlags_block : FBK_FLAGS c / 0x10000 = 9 := by simp only [FBK_FLAGS]; omega

/-- The quality of a channel reads as it was set. -/
theorem pinQ_setPinQ (hq : q < 4) : (setPinQ c q d).pinQ c = q := by
  rw [Dev.pinQ, setPinQ, reg_setReg_same, bits_mod_word _ _ _ (by decide), bits_putBits _ _ _ _ (by decide)]
  exact Nat.mod_eq_of_lt hq

theorem pinQ_congr {c : PinChannel} {d t : Dev} (h : t.reg (FBK_QUAL c) = d.reg (FBK_QUAL c)) : t.pinQ c = d.pinQ c := by
  simp only [Dev.pinQ, h]

theorem errNoted_pinRegs : d.pinRegs [FBK_ERRS c, FBK_QUAL c] (errNoted c q g d) :=
  pinRegs_pinMod (pinRegs_of (regsOnly_trans (regsOnly_count d (FBK_ERRS c) 1) (regsOnly_setReg _ (FBK_QUAL c) _))) c g

theorem errNoted_errs : (errNoted c q g d).reg (FBK_ERRS c) = min (d.reg (FBK_ERRS c) + 1) 0xFFFFFFFF := by
  rw [errNoted, pinMod_reg, setPinQ, reg_setReg_ne _ _ (by simp), reg_count_same]

theorem errNoted_quality (hq : q < 4) : (errNoted c q g d).pinQ c = q := pinQ_setPinQ c _ hq

theorem errNoted_pin : (errNoted c q g d).pin c = g (d.pin c) := pinMod_pin_same c g _

theorem errNoted_calm (h : d.calm) : (errNoted c q g d).calm :=
  (pinMod_within c g _).calm ((setPinQ_within c q _).calm (calm_count h _ 1 (cfgReg_fbk (fbkErrs_block c))))

variable (hcode : code < 256) (hf : f.addr = FBK_FLAGS c)
include hcode hf

theorem errRaised_calm (h : d.calm) : (errRaised c f code d).calm :=
  calm_flagEvent ((faultD_faultOnly code sevInfo c.val 0 0 d hcode).calm h) f _ _ _ (by omega)
    (cfgReg_fbk (by rw [hf, fbkFlags_block]))

/-- A raised error sets its flag, and leaves all but what its fault and its event touch. -/
theorem errRaised_spec (hbit : f.hi = f.lo) (h32 : f.hi < 32) :
    (errRaised c f code d).on f = true ∧ d.withFault [FBK_FLAGS c] (errRaised c f code d) := by
  have hfault : d.withFault [] (fault code sevInfo c.val d) :=
    withFault_of (regsOnly_refl d []) (faultD_faultOnly code sevInfo c.val 0 0 d hcode)
  obtain ⟨hflag, hon⟩ := flagEvent_spec f (176 + c.val) c.val code (fault code sevInfo c.val d) (by omega) hbit h32
    (eventReg_of_faultReg (faultReg_fbk (by rw [hf, fbkFlags_block])))
  rw [hf] at hflag
  exact ⟨hon, withFault_trans hfault (withEvent_fault hflag)⟩

/-- An error that is noted and raised does what `Dev.pinFails` says. -/
theorem errRaised_fails (hq : q < 4) (hbit : f.hi = f.lo) (h32 : f.hi < 32) :
    d.pinFails c q f g (errRaised c f code (errNoted c q g d)) := by
  obtain ⟨hon, hraised⟩ := errRaised_spec c (errNoted c q g d) hcode hf hbit h32
  obtain ⟨hpins, hrest⟩ := withFault_pins (errNoted_pinRegs c g d) hraised
  exact
    { quality := (pinQ_congr (hraised.2 _ (by simp) (faultReg_fbk (fbkQual_block c)))).trans (errNoted_quality c g d hq)
      errs := (hraised.2 _ (by simp) (faultReg_fbk (fbkErrs_block c))).trans (errNoted_errs c g d)
      flag := hon
      state := (congrArg (vat · c) hpins).trans (errNoted_pin c g d)
      calm := fun hc => errRaised_calm c _ hcode hf (errNoted_calm c g d hc)
      rest := hrest }

end

/-! ### Signed words (R8, R283) -/

/-- A word read as a signed number and increased is the word of the sum. -/
theorem wrapN_sx_add (x k : Nat) : wrapN 32 (sx 32 x + k) = (x + k) % 2 ^ 32 := by
  simp only [wrapN, sx]
  split <;> omega

theorem wrapN_lt (i : Int) : wrapN 32 i < 2 ^ 32 := by
  simp only [wrapN]
  omega

/-! ### A counted edge (R281, R283) -/

/-- A channel's state once an edge of direction `dir` is counted at `now`: the edge is noted, with whether it reverses. -/
def PinState.edge (dir : Int) (now : Nat) (p : PinState) : PinState :=
  { p with lastDir := dir, changes := ⟨now, dir, .edge (decide (p.lastDir ≠ 0 ∧ p.lastDir ≠ dir))⟩ :: p.changes }

/-- The count and the state of channel `c` once an edge of direction `dir` is counted at `now`. -/
def edgeCounted (c : PinChannel) (dir : Int) (now : Nat) (d : Dev) : Dev :=
  (d.setRegS (FBK_COUNT c) (d.pinCount c + dir)).pinMod c (PinState.edge dir now)

/-- The direction that an edge counts in (R281). -/
def Dev.edgeDir (d : Dev) (c : PinChannel) (x : Int) : Int := (if d.on (FBK_CTRL_INVERT c) then -1 else 1) * x

/-- An edge is counted, and the compare judges the count it leads to. -/
theorem pinEdge_eq (c : PinChannel) (x : Int) (now : Nat) (d : Dev) :
    pinEdge c x now d = cmpEdge c (d.edgeDir c x) (decide ((edgeCounted c (d.edgeDir c x) now d).cmpAhead c = 0)) now
      (edgeCounted c (d.edgeDir c x) now d) := by
  have hdir : (if d.on (FBK_CTRL_INVERT c) then -x else x) = d.edgeDir c x := by
    unfold Dev.edgeDir
    split <;> omega
  simp only [pinEdge, hdir]
  rw [pinMove, pinMod_pinMod]
  rfl

theorem reg_edgeCounted_ne {c : PinChannel} (dir : Int) (now : Nat) (d : Dev) {a : Nat} (h : a ≠ FBK_COUNT c) :
    (edgeCounted c dir now d).reg a = d.reg a := reg_setReg_ne d _ h

theorem reg_edgeCounted_count (c : PinChannel) (dir : Int) (now : Nat) (d : Dev) :
    (edgeCounted c dir now d).reg (FBK_COUNT c) = wrapN 32 (d.pinCount c + dir) :=
  (reg_setReg_same d _ _).trans (Nat.mod_eq_of_lt (wrapN_lt _))

theorem edgeCounted_pinRegs (c : PinChannel) (dir : Int) (now : Nat) (d : Dev) :
    d.pinRegs [FBK_COUNT c] (edgeCounted c dir now d) :=
  pinRegs_pinMod (pinRegs_of (regsOnly_setReg d (FBK_COUNT c) _)) c _

/-- With the compare disarmed and no re-aim due, an edge leaves the compare. -/
theorem cmpEdge_disarmed {c : PinChannel} {d : Dev} (harmed : d.on (FBK_CMP_CTRL_ARMED c) = false)
    (hdue : (d.pin c).due = false) (dir : Int) (reached : Bool) (now : Nat) : cmpEdge c dir reached now d = d := by
  have hself : (d.pinMod c fun p => { p with due := false }) = d := pinMod_self (by rw [← hdue])
  simp only [cmpEdge, harmed, hdue, hself, Bool.false_and, Bool.false_eq_true, ↓reduceIte, ite_self]

/-- The accepted levels of channel `c`. -/
def levelsTaken (c : PinChannel) (levels : Nat) (d : Dev) : Dev := d.pinMod c fun p => { p with levels := levels }

/-- On an enabled quadrature channel a change of levels is an edge up, an edge down or an illegal transition, by how far it
goes in the order that counts up. -/
theorem pinLevels_quadrature {c : PinChannel} {levels k : Nat} {d : Dev} (hen : d.on (FBK_EN_EN c) = true)
    (hmode : d.pinMode c = 0) (hlevels : levels < 8)
    (hk : k = (quadPlace levels + 4 - quadPlace (d.pin c).levels) % 4) (now : Nat) :
    (k = 1 → pinLevels c levels now d = pinEdge c 1 now (levelsTaken c levels d)) ∧
    (k = 3 → pinLevels c levels now d = pinEdge c (-1) now (levelsTaken c levels d)) ∧
    (k = 2 → pinLevels c levels now d = pinIllegal c (FBK_FLAGS_QUAD_ERR c) 0x60 now (levelsTaken c levels d)) := by
  subst hk
  refine ⟨fun h => ?_, fun h => ?_, fun h => ?_⟩ <;>
    (simp only [pinLevels, pinMod_on, pinMod_pinMode, hen, hmode, h, Nat.mod_eq_of_lt hlevels, Bool.not_true,
      Bool.false_or, OfNat.zero_ne_ofNat, decide_false, Bool.false_eq_true, ↓reduceIte]; rfl)

theorem levels_lt (a b z : Bool) : b2n a + 2 * b2n b + 4 * b2n z < 8 := by revert a b z; decide

/-- The levels and the edge that they bring are one change of the channel. -/
theorem edgeCounted_levelsTaken (c : PinChannel) (levels : Nat) (dir : Int) (now : Nat) (d : Dev) :
    edgeCounted c dir now (levelsTaken c levels d) =
      (d.setRegS (FBK_COUNT c) (d.pinCount c + dir)).pinMod c fun p => PinState.edge dir now { p with levels := levels } :=
  pinMod_pinMod c _ _ (d.setRegS (FBK_COUNT c) (d.pinCount c + dir))

/-! ### A hit of the compare (R291, R292) -/

/-- A hit is counted, CMP_VAL moves on by the spacing, and CMP_TIME is latched. -/
def hitTaken (c : PinChannel) (now : Nat) (d : Dev) : Dev :=
  ((d.count (FBK_CMP_HITS c) 1).setRegS (FBK_CMP_VAL c)
    (d.regS (FBK_CMP_VAL c) + d.cmpDir c * (d.reg (FBK_CMP_SPACING c) : Int))).setReg (FBK_CMP_TIME c)
      (now % 1000000000 / 4 * 4)

/-- A hit that is routed nowhere, with spacing and without a limit, does no more. -/
theorem cmpHit_unrouted {c : PinChannel} {d : Dev} (hroute : d.get (FBK_CMP_CTRL_ROUTE c) = 0)
    (hspacing : 0 < d.reg (FBK_CMP_SPACING c)) (hlimit : d.reg (FBK_CMP_COUNT c) = 0) (now : Nat) :
    cmpHit c now d = hitTaken c now d := by
  have hdir : (d.count (FBK_CMP_HITS c) 1).cmpDir c = d.cmpDir c := by
    rw [Dev.cmpDir, on_congr (reg_count_ne d 1 (by simp)), Dev.cmpDir]
  have hval : (d.count (FBK_CMP_HITS c) 1).regS (FBK_CMP_VAL c) = d.regS (FBK_CMP_VAL c) := by
    rw [Dev.regS, reg_count_ne d 1 (by simp), Dev.regS]
  unfold cmpHit
  extract_lets spacing hits moved spaced lim lowered limited timed route cam pulsed triggered
  have hspaced : spaced = moved := if_neg hspacing.ne'
  have hlim : lim = 0 := by
    simp only [lim, hspaced, moved, hits]
    rw [Dev.setRegS, reg_setReg_ne _ _ (by simp), reg_count_ne _ _ (by simp), hlimit]
  have htimed : timed = hitTaken c now d := by
    simp only [timed, limited, if_pos hlim, hspaced, moved, hits, hval, hdir]
    rfl
  have hnone : route = 0 := by
    simp only [route, htimed, hitTaken, Dev.setRegS]
    rw [get_setReg_ne _ _ _ _ (by simp), get_setReg_ne _ _ _ _ (by simp), Dev.count, get_setReg_ne _ _ _ _ (by simp),
      hroute]
  have hbit (i : Nat) : bit route i = false := by rw [hnone]; exact Nat.zero_testBit i
  simp only [triggered, pulsed, hbit, Bool.false_and, Bool.false_eq_true, ↓reduceIte, htimed]

/-- With no re-aim due, an edge in the direction of an armed compare that reaches its value is a hit. -/
theorem cmpEdge_hit {c : PinChannel} {dir : Int} {d : Dev} (hdir : dir = d.cmpDir c)
    (harmed : d.on (FBK_CMP_CTRL_ARMED c) = true) (hdue : (d.pin c).due = false) (now : Nat) :
    cmpEdge c dir true now d = (cmpHit c now d).pinMod c fun p => { p with due := false } := by
  simp only [cmpEdge, hdir, harmed, hdue, ne_eq, not_true_eq_false, Bool.and_self, Bool.false_eq_true, ↓reduceIte]

section
variable (c : PinChannel) (now : Nat) (d : Dev)

theorem hitTaken_pinRegs : d.pinRegs [FBK_CMP_HITS c, FBK_CMP_VAL c, FBK_CMP_TIME c] (hitTaken c now d) :=
  pinRegs_of (regsOnly_trans (regsOnly_trans (regsOnly_count d (FBK_CMP_HITS c) 1) (regsOnly_setReg _ (FBK_CMP_VAL c) _))
    (regsOnly_setReg _ (FBK_CMP_TIME c) _))

theorem hitTaken_hits :
    (hitTaken c now d).reg (FBK_CMP_HITS c) = min (d.reg (FBK_CMP_HITS c) + 1) 0xFFFFFFFF := by
  rw [hitTaken, Dev.setRegS, reg_setReg_ne _ _ (by simp), reg_setReg_ne _ _ (by simp), reg_count_same]

theorem hitTaken_val (hdir : d.cmpDir c = 1) : (hitTaken c now d).reg (FBK_CMP_VAL c) =
    (d.reg (FBK_CMP_VAL c) + d.reg (FBK_CMP_SPACING c)) % 2 ^ 32 := by
  rw [hitTaken, Dev.setRegS, reg_setReg_ne _ _ (by simp), reg_setReg_same, Nat.mod_eq_of_lt (wrapN_lt _), hdir, one_mul]
  exact wrapN_sx_add _ _

theorem hitTaken_time : (hitTaken c now d).reg (FBK_CMP_TIME c) = now % 1000000000 / 4 * 4 := by
  rw [hitTaken, reg_setReg_same]
  omega

end

/-- Where the count has reached CMP_VAL nothing is left ahead. -/
theorem cmpAhead_reached {c : PinChannel} {d : Dev} (h : d.reg (FBK_CMP_VAL c) = d.reg (FBK_COUNT c)) :
    d.cmpAhead c = 0 := by
  have hzero : sx 32 (wrapN 32 0) = 0 := by decide
  simp only [Dev.cmpAhead, Dev.pinCount, Dev.regS, h, sub_self, hzero, zero_mul]

/-! ### An edge as a whole -/

/-- The device once the levels of channel `c` bring an upward edge that is a hit. -/
def hitEdge (c : PinChannel) (levels now : Nat) (d : Dev) : Dev :=
  (hitTaken c now (edgeCounted c 1 now (levelsTaken c levels d))).pinMod c fun p => { p with due := false }

section
variable (c : PinChannel) (levels now : Nat) (d : Dev)

theorem reg_edgeTaken_ne {a : Nat} (h : a ≠ FBK_COUNT c) :
    (edgeCounted c 1 now (levelsTaken c levels d)).reg a = d.reg a := reg_edgeCounted_ne 1 now _ h

theorem hitEdge_pinRegs :
    d.pinRegs [FBK_COUNT c, FBK_CMP_HITS c, FBK_CMP_VAL c, FBK_CMP_TIME c] (hitEdge c levels now d) :=
  have hedge : d.pinRegs [FBK_COUNT c] (edgeCounted c 1 now (levelsTaken c levels d)) := edgeCounted_pinRegs c 1 now _
  pinRegs_pinMod (pinRegs_trans hedge (hitTaken_pinRegs c now _)) c _

theorem hitEdge_count : (hitEdge c levels now d).reg (FBK_COUNT c) = wrapN 32 (d.pinCount c + 1) := by
  rw [hitEdge, pinMod_reg, pinRegs_reg (hitTaken_pinRegs c now _) (by simp), reg_edgeCounted_count]
  rfl

theorem hitEdge_hits :
    (hitEdge c levels now d).reg (FBK_CMP_HITS c) = min (d.reg (FBK_CMP_HITS c) + 1) 0xFFFFFFFF := by
  rw [hitEdge, pinMod_reg, hitTaken_hits, reg_edgeTaken_ne _ _ _ _ (by simp)]

theorem hitEdge_val (hdir : d.on (FBK_CMP_CTRL_DIR c) = false) : (hitEdge c levels now d).reg (FBK_CMP_VAL c) =
    (d.reg (FBK_CMP_VAL c) + d.reg (FBK_CMP_SPACING c)) % 2 ^ 32 := by
  have hup : (edgeCounted c 1 now (levelsTaken c levels d)).cmpDir c = 1 := by
    rw [Dev.cmpDir, on_congr (reg_edgeTaken_ne _ _ _ _ (by simp)), hdir]
    rfl
  rw [hitEdge, pinMod_reg, hitTaken_val c now _ hup, reg_edgeTaken_ne c _ _ d (a := FBK_CMP_VAL c) (by simp),
    reg_edgeTaken_ne _ _ _ _ (by simp)]

theorem hitEdge_time : (hitEdge c levels now d).reg (FBK_CMP_TIME c) = now % 1000000000 / 4 * 4 := by
  rw [hitEdge, pinMod_reg, hitTaken_time]

end

section
variable {c : PinChannel} {levels k : Nat} {dir : Int} {d : Dev} (hen : d.on (FBK_EN_EN c) = true)
  (hmode : d.pinMode c = 0) (hlevels : levels < 8) (hk : k = (quadPlace levels + 4 - quadPlace (d.pin c).levels) % 4)
include hen hmode hlevels hk

/-- A legal transition while the compare is disarmed changes the count and the channel's state, and nothing else. -/
theorem pinLevels_counted (hlegal : k = 1 ∨ k = 3)
    (hdir : dir = (if d.on (FBK_CTRL_INVERT c) then -1 else 1) * (if k = 1 then 1 else -1))
    (harmed : d.on (FBK_CMP_CTRL_ARMED c) = false) (hdue : (d.pin c).due = false) (now : Nat) :
    pinLevels c levels now d = (d.setRegS (FBK_COUNT c) (d.pinCount c + dir)).pinMod c fun p =>
      PinState.edge dir now { p with levels := levels } := by
  obtain ⟨hup, hdown, -⟩ := pinLevels_quadrature hen hmode hlevels hk now
  have hedge : pinLevels c levels now d = pinEdge c (if k = 1 then 1 else -1) now (levelsTaken c levels d) := by
    rcases hlegal with h | h
    · rw [hup h, if_pos h]
    · rw [hdown h, if_neg (by omega)]
  have hedgeDir : (levelsTaken c levels d).edgeDir c (if k = 1 then 1 else -1) = dir := hdir.symm
  have harmed' : (edgeCounted c dir now (levelsTaken c levels d)).on (FBK_CMP_CTRL_ARMED c) = false :=
    (on_congr (reg_edgeCounted_ne dir now _ (by simp))).trans harmed
  have hdue' : ((edgeCounted c dir now (levelsTaken c levels d)).pin c).due = false := by
    rw [edgeCounted_levelsTaken, pinMod_pin_same]
    exact hdue
  rw [hedge, pinEdge_eq, hedgeDir, cmpEdge_disarmed harmed' hdue', edgeCounted_levelsTaken]

/-- An upward edge whose count reaches CMP_VAL of an armed compare is a hit. -/
theorem pinLevels_hit (hup : k = 1) (hinvert : d.on (FBK_CTRL_INVERT c) = false)
    (harmed : d.on (FBK_CMP_CTRL_ARMED c) = true) (hdir : d.on (FBK_CMP_CTRL_DIR c) = false)
    (hdue : (d.pin c).due = false) (hroute : d.get (FBK_CMP_CTRL_ROUTE c) = 0)
    (hspacing : 0 < d.reg (FBK_CMP_SPACING c)) (hlimit : d.reg (FBK_CMP_COUNT c) = 0)
    (hval : d.reg (FBK_CMP_VAL c) = wrapN 32 (d.pinCount c + 1)) (now : Nat) :
    pinLevels c levels now d = hitEdge c levels now d := by
  have hedgeDir : (levelsTaken c levels d).edgeDir c 1 = 1 := by
    have hinvert' : (levelsTaken c levels d).on (FBK_CTRL_INVERT c) = false := hinvert
    simp only [Dev.edgeDir, hinvert', Bool.false_eq_true, ↓reduceIte, mul_one]
  have hcount := reg_edgeCounted_count c 1 now (levelsTaken c levels d)
  have hdue' : ((edgeCounted c 1 now (levelsTaken c levels d)).pin c).due = false := by
    rw [edgeCounted_levelsTaken, pinMod_pin_same]
    exact hdue
  rw [(pinLevels_quadrature hen hmode hlevels hk now).1 hup, pinEdge_eq, hedgeDir, hitEdge]
  have hkept {a : Nat} (h : a ≠ FBK_COUNT c) := reg_edgeTaken_ne c levels now d h
  generalize edgeCounted c 1 now (levelsTaken c levels d) = u at hcount hdue' hkept ⊢
  have hreached : u.cmpAhead c = 0 := cmpAhead_reached ((hkept (by simp)).trans (hval.trans hcount.symm))
  have hdir' : 1 = u.cmpDir c := by
    rw [Dev.cmpDir, on_congr (hkept (by simp)), hdir]
    rfl
  rw [hreached, decide_eq_true rfl, cmpEdge_hit hdir' ((on_congr (hkept (by simp))).trans harmed) hdue',
    cmpHit_unrouted ((congrArg (bits · 4 2) (hkept (by simp))).trans hroute) (by rwa [hkept (by simp)])
      ((hkept (by simp)).trans hlimit)]

end

/-! ### SSI reads (R285, R286) -/

/-- A read that is due and finds no frame running starts. -/
theorem ssiStart_idle {c : PinChannel} {d : Dev} (hen : d.on (FBK_EN_EN c) = true) (hmode : d.pinMode c = 2)
    (hidle : (d.pin c).reading = false) (htime : d.ssiTime c < d.ssiRate c * 2000) :
    ssiStart c d = d.pinMod c fun p => { p with reading := true } := by
  simp only [ssiStart, hen, hmode, hidle, Nat.not_le.2 htime, ne_eq, not_true_eq_false, Bool.not_true, decide_false,
    Bool.or_self, Bool.false_eq_true, ↓reduceIte]

/-- A read that is due while a frame still runs makes the quality STALE. -/
theorem ssiStart_late {c : PinChannel} {d : Dev} (hen : d.on (FBK_EN_EN c) = true) (hmode : d.pinMode c = 2)
    (hread : (d.pin c).reading = true) (hq : d.pinQ c ≠ qInvalid) : ssiStart c d = setPinQ c qStale d := by
  simp only [ssiStart, hen, hmode, hread, hq, ne_eq, not_true_eq_false, Bool.not_true, decide_false, Bool.true_or,
    Bool.or_self, Bool.false_eq_true, ↓reduceIte]

/-- The difference of the value `v` read and the one before, modulo the frame's bits (R285). -/
def Dev.ssiDelta (d : Dev) (c : PinChannel) (v : Nat) : Int :=
  sx (d.ssiBits c) ((v + 2 ^ d.ssiBits c - (d.pin c).vPrev % 2 ^ d.ssiBits c) % 2 ^ d.ssiBits c)

/-- A channel's state once the value `v` is read at `now`, which changes the count by `by'`. -/
def PinState.read (v : Nat) (by' : Int) (now : Nat) (p : PinState) : PinState :=
  { p with
    reading := false, vPrev := v, lastDir := if 0 < by' then 1 else if by' < 0 then -1 else p.lastDir
    changes := ⟨now, by', .read⟩ :: p.changes }

/-- The count, the quality and the state of channel `c` once the value `v` is read at `now`. -/
def valueRead (c : PinChannel) (v now : Nat) (d : Dev) : Dev :=
  setPinQ c qGood ((d.setRegS (FBK_COUNT c) (d.pinCount c + d.ssiDelta c v)).pinMod c
    (PinState.read v (d.ssiDelta c v) now))

theorem pinMove_pinMod (c : PinChannel) (by' : Int) (cause : CountCause) (now : Nat) (f : PinState → PinState) (d : Dev) :
    pinMove c by' cause now (d.pinMod c f) = (d.setRegS (FBK_COUNT c) (d.pinCount c + by')).pinMod c fun p =>
      { f p with changes := ⟨now, by', cause⟩ :: (f p).changes } :=
  pinMod_pinMod c f _ (d.setRegS (FBK_COUNT c) (d.pinCount c + by'))

section
variable (c : PinChannel) (v now : Nat) (d : Dev)

theorem valueRead_pinRegs : d.pinRegs [FBK_COUNT c, FBK_QUAL c] (valueRead c v now d) :=
  pinRegs_trans (pinRegs_pinMod (pinRegs_of (regsOnly_setReg d (FBK_COUNT c) _)) c _)
    (pinRegs_of (regsOnly_setReg _ (FBK_QUAL c) _))

theorem valueRead_pin : (valueRead c v now d).pin c = PinState.read v (d.ssiDelta c v) now (d.pin c) :=
  pinMod_pin_same c _ _

theorem valueRead_pin_ne {k : PinChannel} (h : k ≠ c) : (valueRead c v now d).pin k = d.pin k := pinMod_pin_ne c _ _ h

theorem valueRead_quality : (valueRead c v now d).pinQ c = qGood := pinQ_setPinQ c _ (by decide)

theorem valueRead_count :
    (valueRead c v now d).reg (FBK_COUNT c) = wrapN 32 (d.pinCount c + d.ssiDelta c v) := by
  rw [valueRead, setPinQ, reg_setReg_ne _ _ (by simp), pinMod_reg, Dev.setRegS, reg_setReg_same]
  exact Nat.mod_eq_of_lt (wrapN_lt _)

theorem valueRead_armed : (valueRead c v now d).on (FBK_CMP_CTRL_ARMED c) = d.on (FBK_CMP_CTRL_ARMED c) :=
  on_congr ((valueRead_pinRegs c v now d).2 _ (by simp))

end

/-- A good frame of a plain binary encoder, with the compare disarmed. -/
theorem ssiDone_good {c : PinChannel} {d : Dev} (hread : (d.pin c).reading = true)
    (herr : d.on (FBK_SSI_CFG_ERR_EN c) = false) (hgray : d.on (FBK_SSI_CFG_GRAY c) = false)
    (harmed : d.on (FBK_CMP_CTRL_ARMED c) = false) (hdue : (d.pin c).due = false) (data now : Nat) :
    ssiDone c true data now d = valueRead c (data % 2 ^ d.ssiBits c) now d := by
  rw [ssiDone, if_neg (by rw [hread]; decide)]
  extract_lets ended _ n err w raw v suspect delta before moved noted read
  rw [if_neg (by decide)]
  have herr' : err = false := herr
  have hgray' : ended.on (FBK_SSI_CFG_GRAY c) = false := hgray
  have hprev : (ended.pin c).vPrev = (d.pin c).vPrev := by rw [pinMod_pin_same]
  have hw : w = d.ssiBits c := by simp only [w, herr', Bool.false_eq_true, ↓reduceIte]; rfl
  have hv : v = data % 2 ^ d.ssiBits c := by
    simp only [v, raw, hgray', herr', hw, Bool.false_eq_true, ↓reduceIte]
  have hdelta : delta = d.ssiDelta c (data % 2 ^ d.ssiBits c) := by simp only [delta, hw, hv, hprev, Dev.ssiDelta]
  have hsuspect : suspect = false := by simp only [suspect, herr', Bool.false_and]
  have hread' : read = valueRead c (data % 2 ^ d.ssiBits c) now d := by
    simp only [read, noted, moved, ended, hdelta, hv, hsuspect, Bool.false_eq_true, ↓reduceIte, pinMove_pinMod,
      pinMod_pinMod]
    rfl
  split
  · exact hread'
  · rw [hread', cmpEdge_disarmed]
    · rw [valueRead_armed, harmed]
    · rw [valueRead_pin]; exact hdue

/-! ### The statements -/

theorem exec_encoderEdge (c : PinChannel) (a b z : Bool) (tau : Nat) (s : State) : exec (.encoderEdge c a b z tau) s =
    actMch (fun d => pinLevels c (b2n a + 2 * b2n b + 4 * b2n z) (d.t0.nanos + tau) d) s := rfl

theorem exec_ssiReadDone (c : PinChannel) (good : Bool) (w : Word) (tau : Nat) (s : State) :
    exec (.ssiReadDone c good w tau) s = actMch (fun d => ssiDone c good w.toNat (d.t0.nanos + tau) d) s := rfl

/-- Settles O9: a transition by how far it goes; the hit by what its edge and the compare leave. -/
theorem encoderEdges : Obligations.EncoderEdges := by
  unfold Obligations.EncoderEdges
  intro c a b z tau lv k dir s hrun hc hen hmode hlv hk
  subst hlv
  have hlt := levels_lt a b z
  generalize hnow : s.dev.t0.nanos + tau = now
  refine ⟨?legal, ?illegal, ?hit⟩
  case legal =>
    intro hlegal hdir harmed hdue
    rw [exec_encoderEdge]
    refine actIn_of_eq hrun ?_ hc.1
    simp only [hnow]
    exact pinLevels_counted hen hmode hlt hk hlegal hdir harmed hdue now
  case illegal =>
    intro hskip
    have hdo := (pinLevels_quadrature hen hmode hlt hk now).2.2 hskip
    have hfails := errRaised_fails (q := qSuspect) (code := 0x60) c (fun p => { p with illegal := now :: p.illegal })
      (f := FBK_FLAGS_QUAD_ERR c) (levelsTaken c (b2n a + 2 * b2n b + 4 * b2n z) s.dev) (by decide) rfl (by decide) rfl
      (by simp)
    rw [exec_encoderEdge]
    refine ⟨_, actIn_of_eq hrun ?_ (hfails.calm ((pinMod_within c _ _).calm hc)).1, hfails.quality, hfails.errs,
      hfails.flag, hfails.rest⟩
    simp only [hnow]
    exact hdo
  case hit =>
    intro hup hinvert harmed hdir hdue hroute hspacing hlimit hval
    have hdo := pinLevels_hit hen hmode hlt hk hup hinvert harmed hdir hdue hroute hspacing hlimit hval now
    have hleft := hitEdge_pinRegs c (b2n a + 2 * b2n b + 4 * b2n z) now s.dev
    rw [exec_encoderEdge]
    refine ⟨_, actIn_of_eq hrun (by simp only [hnow]; exact hdo) (by rw [pinRegs_ev hleft, hc.1]),
      hitEdge_count c _ now s.dev, hitEdge_hits c _ now s.dev, hitEdge_val c _ now s.dev hdir, hitEdge_time c _ now s.dev,
      ?armed, hleft⟩
    case armed => rw [on_congr (pinRegs_reg hleft (by simp)), harmed]

/-- Settles O11: a due read by whether a frame still runs, a frame's end by whether the frame was good. -/
theorem ssiReads : Obligations.SsiReads := by
  unfold Obligations.SsiReads
  intro c w tau v s hrun hc
  refine ⟨?start, ?late, ?good, ?bad⟩
  case start =>
    intro hen hmode hidle htime
    exact actIn_of_eq hrun (ssiStart_idle hen hmode hidle htime) hc.1
  case late =>
    intro hen hmode hread hq
    exact actIn_of_eq hrun (ssiStart_late hen hmode hread hq) hc.1
  case good =>
    intro hread herr hgray harmed hdue hv
    have hdone := ssiDone_good hread herr hgray harmed hdue w.toNat (s.dev.t0.nanos + tau)
    rw [← hv] at hdone
    have hpin := valueRead_pin c v (s.dev.t0.nanos + tau) s.dev
    rw [exec_ssiReadDone]
    exact ⟨_, actIn_of_eq hrun hdone hc.1, congrArg PinState.vPrev hpin, valueRead_quality c v _ s.dev,
      valueRead_count c v _ s.dev, congrArg PinState.reading hpin, valueRead_pinRegs c v _ s.dev,
      fun k hk => valueRead_pin_ne c v _ s.dev hk⟩
  case bad =>
    intro hread
    have hdone := ssiDone_bad hread w.toNat (s.dev.t0.nanos + tau)
    have hfails := errRaised_fails (q := qInvalid) (code := 0x62) c (fun p => { p with reading := false })
      (f := FBK_FLAGS_SSI_ERR c) s.dev (by decide) rfl (by decide) rfl (by simp)
    rw [exec_ssiReadDone]
    exact ⟨_, actIn_of_eq hrun hdone (hfails.calm hc).1, hfails.quality, hfails.errs, hfails.flag,
      congrArg PinState.reading hfails.state, hfails.rest⟩

end Sys2Proof.Machine

/-!
PROOFS of the mechanical axes: what a change of one axis's state leaves, the start of a move and of the seek, one
microsecond of the profile, one step, the inputs; then the statement.
-/
namespace Sys2Proof.Machine

open Reg

/-! ### The state of one axis beside its registers -/

section
variable (m : Axis) (f : AxisState → AxisState) (d : Dev)

@[simp] theorem axMod_reg (a : Nat) : (d.axMod m f).reg a = d.reg a := rfl

@[simp] theorem axMod_get (x : Field) : (d.axMod m f).get x = d.get x := rfl

@[simp] theorem axMod_on (x : Field) : (d.axMod m f).on x = d.on x := rfl

@[simp] theorem axMod_ev : (d.axMod m f).ev = d.ev := rfl

@[simp] theorem axMod_axis : vat (d.axMod m f).axes m = f (vat d.axes m) := vat_vmod_same _ _ _

theorem axMod_axis_ne {k : Axis} (h : k ≠ m) : vat (d.axMod m f).axes k = vat d.axes k := vat_vmod_ne _ _ h

end

/-- `t` is `d` but for the state of axis `m` and the registers listed. -/
structure Dev.axisRegs (m : Axis) (L : List Nat) (d t : Dev) : Prop where
  regs : Dev.regsOnly L { d with axes := t.axes } t
  others : ∀ k, k ≠ m → vat t.axes k = vat d.axes k

namespace Dev.axisRegs

variable {m : Axis} {L : List Nat} {d t : Dev}

theorem refl (m : Axis) (L : List Nat) (d : Dev) : d.axisRegs m L d := ⟨regsOnly_refl d L, fun _ _ => rfl⟩

theorem setReg (h : d.axisRegs m L t) {a : Nat} (ha : a ∈ L) (v : Nat) : d.axisRegs m L (t.setReg a v) :=
  ⟨regsOnly_mono (regsOnly_trans h.regs (regsOnly_setReg t a v)) (by simpa using ha), h.others⟩

theorem put (h : d.axisRegs m L t) {f : Field} (hf : f.addr ∈ L) (v : Nat) : d.axisRegs m L (t.put f v) :=
  h.setReg hf _

theorem axMod (h : d.axisRegs m L t) (f : AxisState → AxisState) : d.axisRegs m L (t.axMod m f) :=
  ⟨⟨by rw [h.regs.1]; rfl, h.regs.2⟩, fun k hk => (axMod_axis_ne m f t hk).trans (h.others k hk)⟩

theorem reg (h : d.axisRegs m L t) {a : Nat} (ha : a ∉ L) : t.reg a = d.reg a := h.regs.2 a ha

theorem ev (h : d.axisRegs m L t) : t.ev = d.ev := by rw [h.regs.1]

end Dev.axisRegs

/-! ### What the position, VMIN, the direction and the limits are read from -/

section
variable {m : Axis} {d t : Dev}

theorem axPos_congr (h : t.reg (AXS_POS m) = d.reg (AXS_POS m)) : t.axPos m = d.axPos m := by
  simp only [Dev.axPos, Dev.regS, h]

theorem axVmin_congr (h : t.reg (AXS_VSTART m) = d.reg (AXS_VSTART m)) : t.axVmin m = d.axVmin m := by
  simp only [Dev.axVmin, h]

theorem axSign_congr (h : t.reg (AXS_STATUS m) = d.reg (AXS_STATUS m)) : t.axSign m = d.axSign m := by
  simp only [Dev.axSign, on_congr (f := AXS_STATUS_DIR m) h]

theorem axHomeInput_congr (h : t.reg (AXS_HOME_CFG m) = d.reg (AXS_HOME_CFG m)) :
    t.axHomeInput m = d.axHomeInput m := by
  simp only [Dev.axHomeInput, Dev.get, h]

theorem axSeekSign_congr (h : t.reg (AXS_HOME_CFG m) = d.reg (AXS_HOME_CFG m)) : t.axSeekSign m = d.axSeekSign m := by
  simp only [Dev.axSeekSign, on_congr (f := AXS_HOME_CFG_DIR m) h]

theorem axBlocked_congr (hlim : t.reg (AXS_LIM_CFG m) = d.reg (AXS_LIM_CFG m))
    (hinputs : t.reg (AXS_INPUTS m) = d.reg (AXS_INPUTS m)) (hhome : t.reg (AXS_HOME_CFG m) = d.reg (AXS_HOME_CFG m))
    (positive homing : Bool) : t.axBlocked m positive homing = d.axBlocked m positive homing := by
  simp only [Dev.axBlocked, Dev.axLimit, Dev.get, axHomeInput_congr hhome, hlim, hinputs]

/-- The seek is positive where HOME_CFG.DIR is set (R322). -/
theorem axSeekSign_pos : decide (0 < d.axSeekSign m) = d.on (AXS_HOME_CFG_DIR m) := by
  unfold Dev.axSeekSign
  split <;> simp_all

end

/-! ### A move or phase begins (R309, R313, R314) -/

theorem fitLevel_le (des : Nat) (dist : Int) : fitLevel des dist ≤ 4 := by
  refine List.foldlRecOn (motive := (· ≤ 4)) _ max (Nat.zero_le 4) fun b hb l hl => Nat.max_le.2 ⟨hb, ?_⟩
  have hrange := List.mem_range.1 (List.mem_filter.1 hl).1
  omega

/-- The level that a move toward `goal` starts at (R313). -/
def Dev.axStartLevel (d : Dev) (m : Axis) (goal : Int) : Nat :=
  if decide ((goal - d.axPos m).natAbs < 256) || decide (d.axPos m % 256 ≠ 0) then
    fitLevel (vat d.axes m).levelDes (goal - d.axPos m)
  else d.get (AXS_STATUS_MS_LEVEL m)

theorem axStartLevel_lt (m : Axis) (goal : Int) (d : Dev) : d.axStartLevel m goal < 8 := by
  unfold Dev.axStartLevel
  split
  · exact Nat.lt_of_le_of_lt (fitLevel_le _ _) (by decide)
  · exact get_lt d (AXS_STATUS_MS_LEVEL m)

/-- STATUS once a move toward `goal` begins: DIR, MOVING and MS_LEVEL. -/
def moveShown (m : Axis) (goal : Int) (d : Dev) : Dev :=
  ((d.put (AXS_STATUS_DIR m) (b2n (decide (goal < d.axPos m)))).put (AXS_STATUS_MOVING m) 1).put (AXS_STATUS_MS_LEVEL m)
    (d.axStartLevel m goal)

/-- An axis's state once a move toward `goal` begins at speed `v`. -/
def AxisState.go (v : Nat) (goal : Int) (x : AxisState) : AxisState :=
  { x with v := v, acc := 0, cyc := 0, held := 0, goal := goal, decel := false }

section
variable (m : Axis) (goal : Int) (d : Dev)

theorem moveShown_axisRegs : d.axisRegs m [AXS_STATUS m] (moveShown m goal d) :=
  (((Dev.axisRegs.refl m _ d).put (by simp) _).put (by simp) _).put (by simp) _

theorem axGo_eq : axGo m goal d =
    (moveShown m goal d).axMod m (AxisState.go (rateLimit (d.axVmin m) (d.axStartLevel m goal)) goal) := by
  have hvmin : (moveShown m goal d).axVmin m = d.axVmin m :=
    axVmin_congr ((moveShown_axisRegs m goal d).reg (by simp))
  rw [← hvmin]
  rfl

theorem axGo_axisRegs {L : List Nat} {t : Dev} (h : t.axisRegs m L d) (hL : AXS_STATUS m ∈ L) :
    t.axisRegs m L (axGo m goal d) := by
  rw [axGo_eq]
  exact (((h.put hL _).put hL _).put hL _).axMod _

theorem axGo_reg {a : Nat} (h : a ≠ AXS_STATUS m) : (axGo m goal d).reg a = d.reg a :=
  (axGo_axisRegs m goal d (Dev.axisRegs.refl m [AXS_STATUS m] d) (by simp)).reg (by simpa using h)

theorem axGo_moving : (axGo m goal d).on (AXS_STATUS_MOVING m) = true := by
  rw [axGo_eq, axMod_on, moveShown, Dev.on,
    get_put_ne _ (AXS_STATUS_MS_LEVEL m) (AXS_STATUS_MOVING m) _ (by simp) (by simp) (by simp)]
  exact on_put_one _ (AXS_STATUS_MOVING m) rfl (by simp)

theorem axGo_dir : (axGo m goal d).on (AXS_STATUS_DIR m) = decide (goal < d.axPos m) := by
  rw [axGo_eq, axMod_on, moveShown, Dev.on,
    get_put_ne _ (AXS_STATUS_MS_LEVEL m) (AXS_STATUS_DIR m) _ (by simp) (by simp) (by simp),
    get_put_ne _ (AXS_STATUS_MOVING m) (AXS_STATUS_DIR m) _ (by simp) (by simp) (by simp),
    get_put_same _ (AXS_STATUS_DIR m) _ (by simp) (by simp)]
  cases decide (goal < d.axPos m) <;> rfl

theorem axGo_level : (axGo m goal d).get (AXS_STATUS_MS_LEVEL m) = d.axStartLevel m goal := by
  rw [axGo_eq, axMod_get, moveShown, get_put_same _ (AXS_STATUS_MS_LEVEL m) _ (by simp) (by simp)]
  exact Nat.mod_eq_of_lt (axStartLevel_lt m goal d)

/-- The start of a move leaves every field of STATUS that is not DIR, MOVING or MS_LEVEL. -/
theorem axGo_get {g : Field} (h32 : g.hi < 32) (hlo : 0 < g.lo) (hoff : g.hi < 5 ∨ 8 < g.lo) :
    (axGo m goal d).get g = d.get g := by
  rw [axGo_eq, axMod_get, moveShown, get_put_ne _ (AXS_STATUS_MS_LEVEL m) g _ (by simp) h32 (by simp; omega),
    get_put_ne _ (AXS_STATUS_MOVING m) g _ (by simp) h32 (by simp; omega),
    get_put_ne _ (AXS_STATUS_DIR m) g _ (by simp) h32 (by simp; omega)]

theorem axGo_goal : (vat (axGo m goal d).axes m).goal = goal := by
  rw [axGo_eq, axMod_axis]
  rfl

/-- A move starts at VMIN, within the step rate of the level that it starts at (R308, R309). -/
theorem axGo_v : (vat (axGo m goal d).axes m).v =
    rateLimit (d.axVmin m) ((axGo m goal d).get (AXS_STATUS_MS_LEVEL m)) := by
  rw [axGo_level, axGo_eq, axMod_axis]
  rfl

end

/-! ### TARGET (R315, R319, R321) -/

/-- A word read as a signed number is the word of that number. -/
theorem wrapN_sx (w : Word) : wrapN 32 (sx 32 w.toNat) = w.toNat := by
  have h := wrapN_sx_add w.toNat 0
  rwa [Int.natCast_zero, add_zero, add_zero, Nat.mod_eq_of_lt w.isLt] at h

/-- TARGET is taken: the target in force, with no fault of a move before. -/
def targetTaken (m : Axis) (t : Int) (d : Dev) : Dev :=
  (d.axMod m fun x => { x with endFault := false }).setRegS (AXS_TARGET m) t

theorem targetTaken_axisRegs (m : Axis) (t : Int) (d : Dev) :
    d.axisRegs m [AXS_TARGET m, AXS_STATUS m] (targetTaken m t d) :=
  ((Dev.axisRegs.refl m _ d).axMod _).setReg (by simp) _

/-- Enabled, without soft limits and with a free way, a target elsewhere starts a move (R315). -/
theorem axStart_free {m : Axis} {t : Int} {d u : Dev} (hu : d.setRegS (AXS_TARGET m) t = u)
    (hen : u.on (AXS_CTRL_EN m) = true) (hsoft : u.on (AXS_CTRL_SOFT_EN m) = false) (hne : t ≠ u.axPos m)
    (hfree : u.axBlocked m (decide (u.axPos m < t)) false = false) : axStart m t d = axGo m t u := by
  simp only [axStart, hu, hen, Dev.axSoft, hsoft, hne, hfree, Bool.not_true, Bool.false_eq_true, ↓reduceIte]

section
variable {m : Axis} {v : Nat} {d : Dev} (hown : d.axOwned m = false)
include hown

/-- While the axis runs, a target waits (R315). -/
theorem axTarget_running (hrun : d.axRunning m = true) :
    axTarget m v false d = (d.setReg (AXS_PENDING m) v).put (AXS_STATUS_MOVE_PENDING m) 1 := by
  simp only [axTarget, hown, hrun, Bool.false_and, Bool.false_eq_true, ↓reduceIte]

/-- At rest a target that can be moved to is taken, and its move begins (R315). -/
theorem axTarget_starts (hrest : d.axRunning m = false) (hen : d.on (AXS_CTRL_EN m) = true)
    (hsoft : d.on (AXS_CTRL_SOFT_EN m) = false) (hne : sx 32 v ≠ d.axPos m)
    (hfree : d.axBlocked m (decide (d.axPos m < sx 32 v)) false = false) :
    axTarget m v false d = axGo m (sx 32 v) (targetTaken m (sx 32 v) d) := by
  have hkept {a : Nat} (ha : a ∉ [AXS_TARGET m, AXS_STATUS m]) : (targetTaken m (sx 32 v) d).reg a = d.reg a :=
    (targetTaken_axisRegs m (sx 32 v) d).reg ha
  have hpos : (targetTaken m (sx 32 v) d).axPos m = d.axPos m := axPos_congr (hkept (by simp))
  have hstart : axTarget m v false d = axStart m (sx 32 v) (d.axMod m fun x => { x with endFault := false }) := by
    simp only [axTarget, hown, hrest, Bool.false_and, Bool.false_eq_true, ↓reduceIte]
  rw [hstart]
  refine axStart_free rfl ((on_congr (hkept (by simp))).trans hen) ((on_congr (hkept (by simp))).trans hsoft) ?_ ?_
  · rwa [hpos]
  · rwa [hpos, axBlocked_congr (hkept (by simp)) (hkept (by simp)) (hkept (by simp))]

end

/-! ### Commands that end or start a sequence (R306, R316, R317, R322) -/

section
variable {m : Axis} {d : Dev}

theorem axDropPending_quiet (h : d.on (AXS_STATUS_MOVE_PENDING m) = true) :
    axDropPending m true d = d.put (AXS_STATUS_MOVE_PENDING m) 0 := by
  simp only [axDropPending, h, ↓reduceIte]

theorem axDropPending_none (h : d.on (AXS_STATUS_MOVE_PENDING m) = false) (quiet : Bool) :
    axDropPending m quiet d = d := by
  simp only [axDropPending, h, Bool.false_eq_true, ↓reduceIte]

/-- STOP of a move without a pending target (R317). -/
theorem axStop_moving (hrun : d.axRunning m = true) (hhome : d.axHoming m = false)
    (hpend : d.on (AXS_STATUS_MOVE_PENDING m) = false) :
    axStop m d = (d.put (AXS_STATUS_STOPPING m) 1).axMod m fun x => { x with endFault := true } := by
  simp only [axStop, hrun, hhome, axDropPending_none hpend, Bool.not_true, Bool.false_eq_true, ↓reduceIte]

/-- HALT of a move without a pending target (R317). -/
theorem axHalt_moving (hrun : d.axRunning m = true) (hhome : d.axHoming m = false)
    (hpend : d.on (AXS_STATUS_MOVE_PENDING m) = false) : axHalt m d = axRest m true d := by
  simp only [axHalt, hrun, hhome, axDropPending_none hpend, Bool.not_true, Bool.false_eq_true, ↓reduceIte]

/-- An axis that comes to rest by a fault ends its move at once (R307, R309). -/
theorem axRest_bad (m : Axis) (d : Dev) : axRest m true d =
    (((d.put (AXS_STATUS_MOVING m) 0).put (AXS_STATUS_STOPPING m) 0).setReg (AXS_VEL m) 0).axMod m fun x =>
      { x with v := 0, acc := 0, cyc := 0, held := 0, decel := false, endFault := true } := by
  simp only [axRest, Bool.or_true]

/-- CTRL at rest with the drive disabled is stored, and the drive is not ready (R306). -/
theorem axCtrl_disabled (hrest : d.axRunning m = false) (hdis : d.on (AXS_CTRL_EN m) = false) (v : Nat) :
    axCtrl m v d = (d.setReg (AXS_CTRL m) (v % 256)).axMod m fun x => { x with enReady := false } := by
  simp only [axCtrl, hrest, hdis, Bool.and_false, Bool.false_eq_true, ↓reduceIte]

theorem axEnDelay_enabled (h : d.on (AXS_CTRL_EN m) = true) :
    axEnDelay m d = d.axMod m fun x => { x with enReady := true } := by
  simp only [axEnDelay, h, ↓reduceIte]

/-- A homing sequence begins: no longer homed, and no cause or fault of a sequence before (R322). -/
def homeBegun (m : Axis) (d : Dev) : Dev :=
  ((d.put (AXS_STATUS_HOMED m) 0).put (AXS_STATUS_HCAUSE m) 0).axMod m fun x => { x with endFault := false }

/-- Homing phase `k` is shown, before its motion begins (R322). -/
def phaseShown (m : Axis) (k : Nat) (d : Dev) : Dev :=
  (d.put (AXS_STATUS_HSTATE m) k).axMod m fun x => { x with released := false }

/-- A homing sequence in its seek phase, before the seek begins to move (R322). -/
def seekShown (m : Axis) (d : Dev) : Dev := phaseShown m 1 (homeBegun m d)

theorem homeBegun_axisRegs (m : Axis) (d : Dev) : d.axisRegs m [AXS_STATUS m] (homeBegun m d) :=
  (((Dev.axisRegs.refl m _ d).put (by simp) _).put (by simp) _).axMod _

theorem seekShown_axisRegs (m : Axis) (d : Dev) : d.axisRegs m [AXS_STATUS m] (seekShown m d) :=
  ((homeBegun_axisRegs m d).put (by simp) _).axMod _

theorem seekShown_hstate (m : Axis) (d : Dev) : (seekShown m d).get (AXS_STATUS_HSTATE m) = 1 := by
  rw [seekShown, phaseShown, axMod_get, get_put_same _ (AXS_STATUS_HSTATE m) 1 (by simp) (by simp)]
  rfl

theorem seekShown_homed (m : Axis) (d : Dev) : (seekShown m d).get (AXS_STATUS_HOMED m) = 0 := by
  rw [seekShown, phaseShown, axMod_get,
    get_put_ne _ (AXS_STATUS_HSTATE m) (AXS_STATUS_HOMED m) _ (by simp) (by simp) (by simp),
    homeBegun, axMod_get, get_put_ne _ (AXS_STATUS_HCAUSE m) (AXS_STATUS_HOMED m) _ (by simp) (by simp) (by simp)]
  exact get_put_same d (AXS_STATUS_HOMED m) 0 (by simp) (by simp)

/-- The seek phase with a free way moves toward its distance limit (R322). -/
theorem axPhase_seek (hfree : (phaseShown m 1 d).axBlocked m (decide (0 < d.axSeekSign m)) true = false) :
    axPhase m 1 d =
      axGo m (d.axPos m + d.axSeekSign m * (d.reg (AXS_HOME_MAXDIST m) : Int)) (phaseShown m 1 d) :=
  if_neg (Bool.eq_false_iff.1 hfree)

/-- HOME with the home input inactive and a free way starts the seek (R322). -/
theorem axHome_seek (hrest : d.axRunning m = false) (hen : d.on (AXS_CTRL_EN m) = true) (hown : d.axOwned m = false)
    (hinput : bit (d.reg (AXS_INPUTS m)) (d.axHomeInput m) = false)
    (hfree : d.axBlocked m (d.on (AXS_HOME_CFG_DIR m)) true = false) :
    axHome m d = axGo m (d.axPos m + d.axSeekSign m * (d.reg (AXS_HOME_MAXDIST m) : Int)) (seekShown m d) := by
  have hkept {a : Nat} (ha : a ∉ [AXS_STATUS m]) : (homeBegun m d).reg a = d.reg a := (homeBegun_axisRegs m d).reg ha
  have hsign : (homeBegun m d).axSeekSign m = d.axSeekSign m := axSeekSign_congr (hkept (by simp))
  have hphase : axHome m d = axPhase m 1 (homeBegun m d) := by
    have hinput' : bit ((homeBegun m d).reg (AXS_INPUTS m)) ((homeBegun m d).axHomeInput m) = false := by
      rwa [hkept (by simp), axHomeInput_congr (hkept (by simp))]
    rw [axHome, if_neg (by simp only [hrest, hen, hown]; decide)]
    exact congrArg (axPhase m · (homeBegun m d)) (if_neg (Bool.eq_false_iff.1 hinput'))
  have hfree' : (seekShown m d).axBlocked m (decide (0 < d.axSeekSign m)) true = false := by
    have hseek := seekShown_axisRegs m d
    rwa [axSeekSign_pos, axBlocked_congr (hseek.reg (by simp)) (hseek.reg (by simp)) (hseek.reg (by simp))]
  rw [hphase, axPhase_seek (by rwa [hsign]), hsign, hkept (by simp), axPos_congr (hkept (by simp))]
  rfl

end

/-! ### One microsecond of the profile (R309) -/

/-- V after the microsecond, before the limit of the step rate (R309). -/
def Dev.axProfileV (d : Dev) (m : Axis) : Nat :=
  profileV (d.on (AXS_STATUS_STOPPING m) || (vat d.axes m).decel) (vat d.axes m).v (d.axVmin m) (d.axSpeed m)
    (d.reg (AXS_ACC m)) (d.reg (AXS_DEC m)) ((vat d.axes m).goal - d.axPos m).natAbs

/-- V after the microsecond (R308, R309). -/
def Dev.axNextV (d : Dev) (m : Axis) : Nat := rateLimit (d.axProfileV m) (d.get (AXS_STATUS_MS_LEVEL m))

/-- RATE_CLAMP where the limit of the step rate lowers V (R308). -/
def rateFlagged (m : Axis) (d : Dev) : Dev :=
  if d.axNextV m < d.axProfileV m then axisFlag m (AXS_FLAGS_RATE_CLAMP m) d else d

/-- An axis's state once the microsecond is over: V, the accumulator and the carries held, the desired level. -/
def AxisState.microsecond (v total des : Nat) (x : AxisState) : AxisState :=
  { x with v := v, acc := total % 2 ^ 48, held := x.held + total / 2 ^ 48, cyc := 0, levelDes := des }

/-- The effect of a microsecond while the axis runs. -/
theorem axProfile_running {m : Axis} {d : Dev} (hrun : d.axRunning m = true) : ∃ total des, axProfile m d =
    ((rateFlagged m d).axMod m (AxisState.microsecond (d.axNextV m) total des)).setRegS (AXS_VEL m)
      ((rateFlagged m d).axSign m * ((d.axNextV m / 65536 : Nat) : Int)) := by
  rw [axProfile, if_neg (by rw [hrun]; decide)]
  exact ⟨_, _, rfl⟩

section
variable (m : Axis) (d : Dev)

theorem eventReg_axs {a : Nat} (h : a / 0x10000 = 12) : eventReg a = false := eventReg_block (by rw [h]; decide)

theorem rateFlagged_withEvent : d.withEvent [AXS_FLAGS m] (rateFlagged m d) := by
  have hblock : (AXS_FLAGS_RATE_CLAMP m).addr / 0x10000 = 12 := by simp only [AXS_FLAGS]; omega
  have hflag := flagEvent_spec (AXS_FLAGS_RATE_CLAMP m) (192 + m.val) m.val 0 d (by omega) rfl (by simp)
    (eventReg_axs hblock)
  exact withEvent_ite _ hflag.1 (withEvent_refl d _)

theorem rateFlagged_axes : (rateFlagged m d).axes = d.axes := by rw [(rateFlagged_withEvent m d).1]

theorem rateFlagged_axSign : (rateFlagged m d).axSign m = d.axSign m :=
  axSign_congr ((rateFlagged_withEvent m d).2 _ (by simp) (eventReg_axs (by simp only [AXS_STATUS]; omega)))

theorem axProfile_calm {d : Dev} (h : d.calm) : (axProfile m d).calm := (axProfile_within m d).calm h

end

section
variable {m : Axis} {d : Dev} (hrun : d.axRunning m = true)
include hrun

theorem axProfile_v : (vat (axProfile m d).axes m).v = d.axNextV m := by
  obtain ⟨total, des, heq⟩ := axProfile_running hrun
  rw [heq, setRegS_axes, axMod_axis, AxisState.microsecond]

theorem axProfile_vel :
    (axProfile m d).reg (AXS_VEL m) = wrapN 32 (d.axSign m * ((d.axNextV m / 65536 : Nat) : Int)) := by
  obtain ⟨total, des, heq⟩ := axProfile_running hrun
  rw [heq, rateFlagged_axSign, Dev.setRegS, reg_setReg_same, Nat.mod_eq_of_lt (wrapN_lt _)]

theorem axProfile_others {k : Axis} (hk : k ≠ m) : vat (axProfile m d).axes k = vat d.axes k := by
  obtain ⟨total, des, heq⟩ := axProfile_running hrun
  rw [heq, setRegS_axes, axMod_axis_ne _ _ _ hk, rateFlagged_axes]

/-- A microsecond changes VEL and the axis's state, and may set RATE_CLAMP (R308, R309). -/
theorem axProfile_withEvent :
    Dev.withEvent [AXS_VEL m, AXS_FLAGS m] { d with axes := (axProfile m d).axes } (axProfile m d) := by
  obtain ⟨total, des, heq⟩ := axProfile_running hrun
  have hflag := rateFlagged_withEvent m d
  rw [heq]
  refine ⟨by rw [hflag.1]; rfl, fun a ha he => ?_⟩
  rw [List.mem_cons, not_or] at ha
  rw [Dev.setRegS, reg_setReg_ne _ _ ha.1, axMod_reg, hflag.2 a ha.2 he]
  rfl

end

/-! ### One step (R307, R308, R312) -/

/-- A held carry moves the position by MULT of the level; inside a move and off a full step it does no more. -/
theorem axCarry_held {m : Axis} {d : Dev} {pos : Int} (hrun : d.axRunning m = true)
    (hready : (vat d.axes m).enReady = true) (hheld : 0 < (vat d.axes m).held)
    (hpos : pos = d.axPos m + d.axSign m * (stepMult (d.get (AXS_STATUS_MS_LEVEL m)) : Int))
    (hgoal : pos ≠ (vat d.axes m).goal) (hstop : d.on (AXS_STATUS_STOPPING m) = false)
    (hdecel : (vat d.axes m).decel = false) (halign : pos % 256 ≠ 0) :
    axCarry m d = (d.setRegS (AXS_POS m) pos).axMod m fun x => { x with held := x.held - 1 } := by
  have hstep : axCarry m d = axStep m (vat d.axes m).acc (vat d.axes m).cyc ((vat d.axes m).held - 1) d := by
    simp only [axCarry, hrun, hready, hheld, Bool.not_true, Bool.or_self, Bool.false_eq_true, ↓reduceIte]
  rw [hstep, axStep]
  simp only [← hpos, hgoal, hstop, hdecel, halign, decide_false, Bool.or_self, Bool.false_and, Bool.false_eq_true,
    ↓reduceIte]
  rfl

/-! ### Inputs (R320, R321) -/

theorem axLatchReg_ne (m : Axis) (i : Fin 3) {a : Nat} (hhome : a ≠ AXS_HOME_LATCH m) (hlim : a ≠ AXS_LIM_LATCH m) :
    a ≠ axLatchReg m i := by
  rcases ite_eq_or_eq (i = 0) (AXS_HOME_LATCH m) (AXS_LIM_LATCH m) with h | h <;> rwa [axLatchReg, h]

/-- Bit `k` of the inputs shows the level `b`. -/
def inputShown (m : Axis) (k : Nat) (b : Bool) (d : Dev) : Dev :=
  d.setReg (AXS_INPUTS m) (setBit (d.reg (AXS_INPUTS m)) k b)

/-- What input `i` keeps of its latch before a first edge that waits: the value, or nothing where no edge waits. -/
def edgeKept (m : Axis) (i : Fin 3) (e : Option Nat) (d : Dev) : Dev :=
  d.axMod m fun x => { x with edge := vput x.edge i e }

section
variable {m : Axis} {i : Fin 3} {d : Dev}

/-- The first raw edge latches the position and waits for the filter (R320). -/
theorem axFirstEdge_waits (hedge : vat (vat d.axes m).edge i = none) (hfilt : d.get (AXS_LIM_CFG_FILT m) ≠ 0) :
    axFirstEdge m i d = edgeKept m i (some (d.reg (axLatchReg m i)))
      ((inputShown m (i.val + 4) (!bit (d.reg (AXS_INPUTS m)) i.val) d).setRegS (axLatchReg m i) (d.axPos m)) := by
  have hpos (v : Nat) : (d.setReg (AXS_INPUTS m) v).axPos m = d.axPos m := axPos_congr (reg_setReg_ne d v (by simp))
  have hfilt' (v : Nat) (p : Int) :
      ((d.setReg (AXS_INPUTS m) v).setRegS (axLatchReg m i) p).get (AXS_LIM_CFG_FILT m) ≠ 0 := by
    rwa [Dev.setRegS, get_setReg_ne _ _ _ _ (axLatchReg_ne m i (by simp) (by simp)), get_setReg_ne _ _ _ _ (by simp)]
  simp only [axFirstEdge, hedge, hpos, axMod_get, hfilt', ↓reduceIte]
  rfl

/-- An edge that returns before the filter has elapsed restores the latch and is counted; with the threshold at 0 it
does no more (R320). -/
theorem axChatter_counted {old : Nat} (hedge : vat (vat d.axes m).edge i = some old)
    (hthr : d.reg (AXS_CHAT_THR m) = 0) :
    axChatter m i d = edgeKept m i none
      (((inputShown m (i.val + 4) (bit (d.reg (AXS_INPUTS m)) i.val) d).setReg (axLatchReg m i) old).count
        (AXS_CHATTER m) 1) := by
  have hthr' (v : Nat) (f : AxisState → AxisState) : ((((d.setReg (AXS_INPUTS m) v).setReg (axLatchReg m i) old).axMod
      m f).count (AXS_CHATTER m) 1).reg (AXS_CHAT_THR m) = 0 := by
    rwa [reg_count_ne _ _ (by simp), axMod_reg, reg_setReg_ne _ _ (axLatchReg_ne m i (by simp) (by simp)),
      reg_setReg_ne _ _ (by simp)]
  simp only [axChatter, hedge, hthr', ne_eq, not_true_eq_false, decide_false, Bool.false_and, Bool.false_eq_true,
    ↓reduceIte]
  rfl

/-- An input held for the filter time whose limit is not enabled changes its accepted level alone (R320). -/
theorem axAccept_disabled {old : Nat} (hedge : vat (vat d.axes m).edge i = some old)
    (hlim : bit (d.get (AXS_LIM_CFG_LIM_EN m)) i.val = false) :
    axAccept m i d = edgeKept m i none (inputShown m i.val (!bit (d.reg (AXS_INPUTS m)) i.val) d) := by
  have hlim' (v : Nat) : bit ((d.setReg (AXS_INPUTS m) v).get (AXS_LIM_CFG_LIM_EN m)) i.val = false := by
    rwa [get_setReg_ne _ _ _ _ (by simp)]
  simp only [axAccept, hedge, axMod_get, hlim', Bool.false_and, Bool.false_eq_true, ↓reduceIte, ite_self]
  rfl

end

/-! ### The statement -/

/-- Settles O1: each command by the lemma above that says its next state. -/
theorem axisCommands : Obligations.AxisCommands := by
  unfold Obligations.AxisCommands
  intro m w i s hrun hc
  refine ⟨?targetWaits, ?targetStarts, ?clear, ?stopHalt, ?home, ?ctrl, ?enDelay, ?profile, ?carry, ?firstEdge,
    ?chatter, ?accepted⟩
  case targetWaits =>
    intro hmove hown
    exact actIn_of_eq hrun (axTarget_running hown hmove) hc.1
  case targetStarts =>
    intro hrest hown hen hsoft hne hfree
    have hleft := targetTaken_axisRegs m (sx 32 w.toNat) s.dev
    have hdone := axGo_axisRegs m (sx 32 w.toNat) _ hleft (by simp)
    refine ⟨_, actIn_of_eq hrun (axTarget_starts hown hrest hen hsoft hne hfree) (by rw [hdone.ev, hc.1]), ?target,
      axGo_moving m _ _, ?dir, axGo_goal m _ _, ?v, hdone.regs, hdone.others⟩
    case target =>
      rw [axGo_reg m _ _ (by simp), targetTaken, Dev.setRegS, reg_setReg_same, wrapN_sx, Nat.mod_eq_of_lt w.isLt]
    case dir => rw [axGo_dir, axPos_congr (hleft.reg (by simp))]
    case v => rw [axGo_v, axVmin_congr (hleft.reg (by simp))]
  case clear =>
    intro hpend
    exact actIn_of_eq hrun (axDropPending_quiet hpend) hc.1
  case stopHalt =>
    intro hmove hhome hpend
    exact ⟨actIn_of_eq hrun (axStop_moving hmove hhome hpend) hc.1,
      actIn_of_eq hrun ((axHalt_moving hmove hhome hpend).trans (axRest_bad m s.dev)) hc.1⟩
  case home =>
    intro hrest hen hown hinput hfree
    have hdone := axGo_axisRegs m (s.dev.axPos m + s.dev.axSeekSign m * (s.dev.reg (AXS_HOME_MAXDIST m) : Int)) _
      (seekShown_axisRegs m s.dev) (by simp)
    refine ⟨_, actIn_of_eq hrun (axHome_seek hrest hen hown hinput hfree) (by rw [hdone.ev, hc.1]), ?hstate, ?homed,
      axGo_moving m _ _, axGo_goal m _ _, hdone.regs, hdone.others⟩
    case hstate => rw [axGo_get m _ _ (by simp) (by simp) (by simp), seekShown_hstate]
    case homed => rw [Dev.on, axGo_get m _ _ (by simp) (by simp) (by simp), seekShown_homed]; rfl
  case ctrl =>
    intro hrest hdis
    exact actIn_of_eq hrun (axCtrl_disabled hrest hdis w.toNat) hc.1
  case enDelay =>
    intro hen
    exact actIn_of_eq hrun (axEnDelay_enabled hen) hc.1
  case profile =>
    intro hmove
    refine ⟨_, actIn_run hrun (axProfile_calm m hc).1, axProfile_v hmove, ?vel, axProfile_withEvent hmove,
      fun k hk => axProfile_others hmove hk⟩
    case vel => rw [axProfile_v hmove, axProfile_vel hmove]
  case carry =>
    intro pos hmove hready hheld hpos hgoal hstop hdecel halign
    exact actIn_of_eq hrun (axCarry_held hmove hready hheld hpos hgoal hstop hdecel halign) hc.1
  case firstEdge =>
    intro hedge hfilt
    exact actIn_of_eq hrun (axFirstEdge_waits hedge hfilt) hc.1
  case chatter =>
    intro old hedge hthr
    exact actIn_of_eq hrun (axChatter_counted hedge hthr) hc.1
  case accepted =>
    intro old hedge hlim
    exact actIn_of_eq hrun (axAccept_disabled hedge hlim) hc.1

end Sys2Proof.Machine

/-!
PROOFS of the triggers of the camera ports, of the exposure sequences and of the I2C controllers: first what the state of a
port, the flags and the shown admissions leave, then what becomes of a trigger and of a frame that is dropped, then the
commands of the I2C controllers, then the statements.
-/
namespace Sys2Proof.Machine

open Reg

/-! ### The state of one camera port beside its registers -/

section
variable (c : Camera) (f : CamPort → CamPort) (d : Dev)

@[simp] theorem camMod_reg (a : Nat) : (d.camMod c f).reg a = d.reg a := rfl

@[simp] theorem camMod_get (x : Field) : (d.camMod c f).get x = d.get x := rfl

@[simp] theorem camMod_cam_same : (d.camMod c f).cam c = f (d.cam c) := vat_vmod_same _ _ _

@[simp] theorem camMod_camMod (g : CamPort → CamPort) : (d.camMod c f).camMod c g = d.camMod c fun p => g (f p) := by
  simp only [Dev.camMod, vmod_vmod]

end

theorem cam_congr {d t : Dev} (h : t.isp = d.isp) (c : Camera) : t.cam c = d.cam c := by simp only [Dev.cam, h]

/-! ### Nothing else changed -/

section
variable {d t : Dev} {L : List Nat}

/-- The same camera ports on both sides change nothing in what else is said. -/
theorem withEvent_isp (h : d.withEvent L t) (x : Cams) : Dev.withEvent L { d with isp := x } { t with isp := x } :=
  ⟨by rw [h.1], h.2⟩

theorem withFault_isp (h : d.withFault L t) (x : Cams) : Dev.withFault L { d with isp := x } { t with isp := x } :=
  ⟨by rw [h.1], h.2⟩

theorem withEvent_regsOnly {M : List Nat} {u : Dev} (h : d.withEvent L t) (k : t.regsOnly M u) : d.withEvent (L ++ M) u :=
  withEvent_trans h (withEvent_of k (EventOnly.refl u))

end

/-! ### Flags (R357) -/

/-- A register of the camera ports is none that the detection of a fault changes. -/
theorem faultReg_isp {a : Nat} (h : a / 0x10000 = 13) : faultReg a = false := faultReg_block (by rw [h]; decide)

theorem ispcFlags_block (c : Camera) : ISPC_FLAGS c / 0x10000 = 13 := by simp only [ISPC_FLAGS]; omega

/-- A port's flag is set, and all else is as before but what its event touches. -/
theorem camFlag_spec (c : Camera) {f : Field} (code : Nat) (d : Dev) (hf : f.addr / 0x10000 = 13) (h1 : f.hi = f.lo)
    (h32 : f.hi < 32) : d.withEvent [f.addr] (camFlag c f code d) ∧ (camFlag c f code d).on f = true :=
  flagEvent_spec f (200 + c.val) c.val code d (by omega) h1 h32 (eventReg_of_faultReg (faultReg_isp hf))

/-- A fault and the flag of the port that shows it. -/
def camFaulted (c : Camera) (f : Field) (code d0 d1 : Nat) (d : Dev) : Dev :=
  camFlag c f code (faultD code sevInfo c.val d0 d1 d)

theorem camFaulted_spec (c : Camera) {f : Field} {code : Nat} (hcode : code < 256) (d0 d1 : Nat) (d : Dev)
    (hf : f.addr / 0x10000 = 13) (h1 : f.hi = f.lo) (h32 : f.hi < 32) :
    d.withFault [f.addr] (camFaulted c f code d0 d1 d) ∧ (camFaulted c f code d0 d1 d).on f = true := by
  obtain ⟨hflag, hon⟩ := camFlag_spec c code (faultD code sevInfo c.val d0 d1 d) hf h1 h32
  have hfault := withFault_of (regsOnly_refl d []) (faultD_faultOnly code sevInfo c.val d0 d1 d hcode)
  exact ⟨withFault_trans hfault (withEvent_fault hflag), hon⟩

theorem withFault_reg {L : List Nat} {d t : Dev} (h : d.withFault L t) {a : Nat} (ha : a ∉ L) (h13 : a / 0x10000 = 13) :
    t.reg a = d.reg a := h.2 a ha (faultReg_isp h13)

theorem withFault_isp_same {L : List Nat} {d t : Dev} (h : d.withFault L t) : t.isp = d.isp := by rw [h.1]

/-! ### The admissions shown (R358, R359) -/

/-- A frame of the port is admitted. -/
def Dev.camHasAdmitted (d : Dev) (c : Camera) : Bool := (d.cam c).frames.any (·.admitted)

/-- The admission of port `c` is shown. -/
def admissionShown (d : Dev) (c : Camera) : Dev :=
  (d.put (ISPC_STATUS_ADMITTED c) (b2n (d.camHasAdmitted c))).setReg ISP_STATUS
    (setBit (d.reg ISP_STATUS) c.val (d.camHasAdmitted c))

/-- The registers that show the admissions. -/
def admissionRegs : List Nat := ISP_STATUS :: (List.range 4).map ISPC_STATUS

theorem admissionShown_regsOnly (d : Dev) (c : Camera) : d.regsOnly admissionRegs (admissionShown d c) :=
  regsOnly_mono (regsOnly_trans (regsOnly_put d (ISPC_STATUS_ADMITTED c) _) (regsOnly_setReg _ ISP_STATUS _))
    (by revert c; decide)

theorem foldl_admissionShown_regsOnly (l : List Camera) (d : Dev) :
    d.regsOnly admissionRegs (l.foldl admissionShown d) :=
  List.foldlRecOn (motive := fun t : Dev => d.regsOnly admissionRegs t) l _ (regsOnly_refl d _) fun t h c _ =>
    regsOnly_mono (regsOnly_trans h (admissionShown_regsOnly t c)) (by simp)

theorem camAdmitted_regsOnly (d : Dev) : d.regsOnly admissionRegs (camAdmitted d) :=
  foldl_admissionShown_regsOnly _ d

theorem admissionRegs_block : ∀ a ∈ admissionRegs, a / 0x10000 = 13 := by decide

theorem camAdmitted_isp (d : Dev) : (camAdmitted d).isp = d.isp := by rw [(camAdmitted_regsOnly d).1]

/-- Every port that has been gone through shows whether a frame of it is admitted. -/
theorem foldl_admissionShown_on (l : List Camera) (d : Dev) {c : Camera} (h : c ∈ l) :
    (l.foldl admissionShown d).on (ISPC_STATUS_ADMITTED c) = d.camHasAdmitted c := by
  induction l using List.reverseRecOn with
  | nil => exact nomatch h
  | append_singleton l x ih =>
    rw [List.foldl_append, List.foldl_cons, List.foldl_nil]
    have hsame : (l.foldl admissionShown d).isp = d.isp := by rw [(foldl_admissionShown_regsOnly l d).1]
    generalize l.foldl admissionShown d = t at ih hsame ⊢
    have hstatus : ISPC_STATUS c ≠ ISP_STATUS := by simp only [ISPC_STATUS, ISP_STATUS]; omega
    rw [admissionShown, on_congr (reg_setReg_ne _ _ hstatus)]
    by_cases hx : c = x
    · subst hx
      rw [Dev.on, get_put_same _ (ISPC_STATUS_ADMITTED c) _ (by simp) (by simp), Dev.camHasAdmitted, cam_congr hsame,
        ← Dev.camHasAdmitted]
      cases d.camHasAdmitted c <;> rfl
    · have hne : ISPC_STATUS c ≠ ISPC_STATUS x := by
        have := Fin.val_ne_of_ne hx
        simp only [ISPC_STATUS]
        omega
      rw [on_congr (reg_put_ne _ (ISPC_STATUS_ADMITTED x) _ hne)]
      exact ih ((List.mem_append.1 h).resolve_right (by simpa using hx))

/-- Every port shows whether a frame of it is admitted. -/
theorem camAdmitted_on (d : Dev) (c : Camera) :
    (camAdmitted d).on (ISPC_STATUS_ADMITTED c) = d.camHasAdmitted c :=
  foldl_admissionShown_on _ d (List.mem_finRange c)

/-! ### Triggers (R349 to R351) -/

/-- The exposure time of the next frame, in whole microseconds; 0 before any commit (R351, R352). -/
def Dev.nextExposure (d : Dev) (c : Camera) : Nat :=
  (((d.cam c).setFor (d.reg (ISPC_FRAME_NO c) + 1)).map fun e => e.exposure / 65536).getD 0

/-- The exposure window of a trigger that came at `now`. -/
def Dev.triggerWindow (d : Dev) (c : Camera) (now : Nat) : Window :=
  ⟨c.val, now + d.reg (ISPC_EXP_DELAY c) % 2 ^ 24,
    now + d.reg (ISPC_EXP_DELAY c) % 2 ^ 24 + d.nextExposure c * 1000, false, false⟩

section
variable {c : Camera} {now : Nat} {d : Dev}

/-- While no row of the matrix is on, a window that becomes known moves no row (R391). -/
theorem addWindow_off (h : d.lmp.phase = .off) (w : Window) :
    addWindow w d = d.lmpMod fun l => { l with windows := l.windows ++ [w] } := by
  simp [addWindow, mtxArrange, Dev.lmpMod, h]

/-- A register trigger of an idle enabled port is noted, and its window becomes known. -/
theorem camTrigger_noted (hen : d.on (ISPC_CTRL_EN c) = true) (hmode : d.on (ISPC_TRIG_MODE c) = true)
    (hreg : d.on (ISPC_TRIG_REG_EN c) = true) (hidle : d.camBusy c now = false) (hoff : d.lmp.phase = .off) :
    camTrigger c 3 false false now d =
      (d.camMod c fun p => { p with triggers := p.triggers ++ [⟨3, now / 1000000000, now % 1000000000, false⟩] }).lmpMod
        fun l => { l with windows := l.windows ++ [d.triggerWindow c now] } := by
  simp only [camTrigger, hen, hmode, hreg, hidle, Bool.and_self, Bool.not_true, Bool.false_eq_true, ↓reduceIte]
  rw [addWindow_off (by exact hoff), Dev.triggerWindow, Dev.nextExposure]
  cases (d.cam c).setFor (d.reg (ISPC_FRAME_NO c) + 1) <;> rfl

/-- A missed trigger is noted at its port and counted in TRIG_MISS. -/
def missCounted (c : Camera) (d : Dev) : Dev :=
  (d.camMod c fun p => { p with missed := true }).count (ISPC_TRIG_MISS c) 1

/-- A port whose miss has been noted stays as it is. -/
theorem missCounted_again (h : (d.cam c).missed = true) : missCounted c d = d.count (ISPC_TRIG_MISS c) 1 := by
  have hsame : d.camMod c (fun p => { p with missed := true }) = d := by
    have hport : { d.cam c with missed := true } = d.cam c := by rw [← h]
    rw [Dev.camMod, vmod_self _ _ hport]
  rw [missCounted, hsame]

/-- A register trigger of a busy enabled port is counted and flagged; the first of them raises the fault. -/
theorem camTrigger_missed (hen : d.on (ISPC_CTRL_EN c) = true) (hmode : d.on (ISPC_TRIG_MODE c) = true)
    (hreg : d.on (ISPC_TRIG_REG_EN c) = true) (hbusy : d.camBusy c now = true) :
    camTrigger c 3 false false now d =
      if (d.cam c).missed then camFlag c (ISPC_FLAGS_TRIG_MISS c) 0 (missCounted c d)
      else camFaulted c (ISPC_FLAGS_TRIG_MISS c) 0x71 0 0 (missCounted c d) := by
  have hcam : (d.count (ISPC_TRIG_MISS c) 1).cam c = d.cam c := rfl
  simp only [camTrigger, hen, hmode, hreg, hbusy, hcam, Bool.and_self, Bool.not_true, Bool.false_eq_true, ↓reduceIte]
  cases hm : (d.cam c).missed with
  | true => rw [missCounted_again hm]; rfl
  | false => rfl

/-- A missed trigger is shown by its flag, with or without the fault. -/
theorem camTrigger_flags (hen : d.on (ISPC_CTRL_EN c) = true) (hmode : d.on (ISPC_TRIG_MODE c) = true)
    (hreg : d.on (ISPC_TRIG_REG_EN c) = true) (hbusy : d.camBusy c now = true) :
    (missCounted c d).withFault [ISPC_FLAGS c] (camTrigger c 3 false false now d) ∧
      (camTrigger c 3 false false now d).on (ISPC_FLAGS_TRIG_MISS c) = true := by
  rw [camTrigger_missed hen hmode hreg hbusy]
  split
  · obtain ⟨hrest, hon⟩ := camFlag_spec c (f := ISPC_FLAGS_TRIG_MISS c) 0 (missCounted c d) (ispcFlags_block c) rfl (by simp)
    exact ⟨withEvent_fault hrest, hon⟩
  · exact camFaulted_spec c (f := ISPC_FLAGS_TRIG_MISS c) (by decide) 0 0 _ (ispcFlags_block c) rfl (by simp)

/-- What the miss leaves once it is flagged. -/
theorem missCounted_flagged {t : Dev} (h : (missCounted c d).withFault [ISPC_FLAGS c] t) :
    t.reg (ISPC_TRIG_MISS c) = min (d.reg (ISPC_TRIG_MISS c) + 1) 0xFFFFFFFF ∧
      Dev.withFault [ISPC_TRIG_MISS c, ISPC_FLAGS c] { d with isp := t.isp } t ∧
      (t.cam c).triggers = (d.cam c).triggers ∧ (t.cam c).frames = (d.cam c).frames := by
  have hisp : t.isp = (d.camMod c fun p => { p with missed := true }).isp := (withFault_isp_same h).trans rfl
  refine ⟨?counted, ?rest, by rw [cam_congr hisp, camMod_cam_same], by rw [cam_congr hisp, camMod_cam_same]⟩
  case counted =>
    rw [withFault_reg h (by simp only [List.mem_singleton, ISPC_TRIG_MISS, ISPC_FLAGS]; omega)
      (by simp only [ISPC_TRIG_MISS]; omega), missCounted, reg_count_same, camMod_reg]
  case rest =>
    rw [hisp]
    exact withFault_trans (withFault_of (regsOnly_count _ (ISPC_TRIG_MISS c) 1) (FaultOnly.refl _)) h

/-- A trigger that has seen no VS edge is given up, with its flag (R350). -/
theorem camTrigTmo_spec {t : CamTrigger} {q : List CamTrigger} (h : (d.cam c).triggers = t :: q) :
    (d.camMod c fun p => { p with triggers := q }).withEvent [ISPC_FLAGS c] (camTrigTmo c d) ∧
      (camTrigTmo c d).on (ISPC_FLAGS_TRIG_TMO c) = true := by
  simp only [camTrigTmo, h]
  exact camFlag_spec c (f := ISPC_FLAGS_TRIG_TMO c) 0 _ (ispcFlags_block c) rfl (by simp)

/-! ### A frame that is dropped (R333, R337) -/

/-- Frame `f` is no longer among those of its port. -/
def CamPort.forget (f : CamFrame) (p : CamPort) : CamPort := { p with frames := p.frames.filter fun x => x.no ≠ f.no }

/-- A frame of no trigger starts no HOLDOFF and is none of the Treadle's capture. -/
theorem camEnd_free {f : CamFrame} (h : f.src = 0) : camEnd c f now d = d.camMod c (CamPort.forget f) := by
  simp only [camEnd, h, ne_eq, not_true_eq_false, OfNat.zero_ne_ofNat, ↓reduceIte]
  rfl

/-- What goes to the host is said by OUT (R356). -/
theorem exportOf_congr {t : Dev} (h : t.reg (ISPC_OUT c) = d.reg (ISPC_OUT c)) (f : CamFrame) :
    t.exportOf c f = d.exportOf c f := by
  simp only [Dev.exportOf, Dev.get, h]

/-- No line of frame `f` is in the pipeline. -/
def lineLeft (c : Camera) (f : CamFrame) (d : Dev) : Dev :=
  { d with isp := { d.isp with line := if d.isp.line = some (c.val, f.no) then none else d.isp.line } }

theorem lineLeft_eq (c : Camera) (f : CamFrame) (d : Dev) :
    (if d.isp.line = some (c.val, f.no) then { d with isp := { d.isp with line := none } } else d) = lineLeft c f d := by
  by_cases h : d.isp.line = some (c.val, f.no)
  · rw [lineLeft, if_pos h, if_pos h]
  · rw [lineLeft, if_neg h, if_neg h]

/-- Port `c` captures no more, and no line of frame `f` is in the pipeline. -/
def captureLeft (c : Camera) (f : CamFrame) (d : Dev) : Dev :=
  lineLeft c f (d.camMod c fun p => { p with capturing := false })

/-- The drop of a frame is counted, and reported with its cause. -/
def dropReported (c : Camera) (f : CamFrame) (cause : Nat) (d : Dev) : Dev :=
  camFaulted c (ISPC_FLAGS_DROP c) 0x70 f.no cause ((captureLeft c f d).count (ISPC_DROPS c) 1)

theorem dropReported_spec (c : Camera) (f : CamFrame) (cause : Nat) (d : Dev) :
    ((captureLeft c f d).count (ISPC_DROPS c) 1).withFault [ISPC_FLAGS c] (dropReported c f cause d) ∧
      (dropReported c f cause d).on (ISPC_FLAGS_DROP c) = true :=
  camFaulted_spec c (f := ISPC_FLAGS_DROP c) (by decide) f.no cause _ (ispcFlags_block c) rfl (by simp)

/-- The newest frame of a port, whose lines have all left the bobbin and which does not go to the host, is dropped. -/
theorem camDrop_newest {f : CamFrame} (cause : Nat) (hlast : (d.cam c).frames.getLast? = some f)
    (htaken : f.taken = f.lines.length) (hsrc : f.src = 0) (hexport : d.exportOf c f = 0) :
    camDrop c f cause now d = camAdmitted ((dropReported c f cause d).camMod c (CamPort.forget f)) := by
  have hout : (dropReported c f cause d).exportOf c f = 0 := by
    rw [exportOf_congr, hexport]
    rw [withFault_reg (dropReported_spec c f cause d).1 (by simp only [List.mem_singleton, ISPC_OUT, ISPC_FLAGS]; omega)
      (by simp only [ISPC_OUT]; omega), reg_count_ne _ _ (by simp only [ISPC_OUT, ISPC_DROPS]; omega)]
    rfl
  have hsent : (dropReported c f cause d).exportOf c f ≠ 1 := by rw [hout]; decide
  rw [← camEnd_free (now := now) hsrc]
  simp only [camDrop, hlast, Option.map_some, htaken, Nat.sub_self, linePop, eq_self, decide_true, Bool.true_or,
    ↓reduceIte, lineLeft_eq]
  exact congrArg (fun u => camAdmitted (camEnd c f now u)) (if_neg hsent)

/-- A frame without its last line after 1 s is malformed (R333). -/
theorem camTimeout_drops {f : CamFrame} (hcap : (d.cam c).capturing = true) (hlast : (d.cam c).frames.getLast? = some f) :
    camTimeout c now d = camDrop c f 4 now d := by
  simp only [camTimeout, hcap, hlast]

end

/-- The flags and the count of drops of a port show no admission. -/
theorem dropRegs_apart : ∀ c : Camera, ISPC_FLAGS c ∉ admissionRegs ∧ ISPC_DROPS c ∉ admissionRegs := by decide

/-- What a dropped frame leaves. -/
theorem dropped_spec (c : Camera) (f : CamFrame) (cause : Nat) {d t : Dev}
    (ht : t = camAdmitted ((dropReported c f cause d).camMod c (CamPort.forget f))) :
    t.on (ISPC_FLAGS_DROP c) = true ∧ t.reg (ISPC_DROPS c) = min (d.reg (ISPC_DROPS c) + 1) 0xFFFFFFFF ∧
      (t.cam c).capturing = false ∧ (t.cam c).frames = (d.cam c).frames.filter (fun x => x.no ≠ f.no) ∧
      Dev.withFault ([ISPC_DROPS c, ISPC_FLAGS c] ++ admissionRegs) { d with isp := t.isp } t := by
  obtain ⟨hrest, hon⟩ := dropReported_spec c f cause d
  have hshown := camAdmitted_regsOnly ((dropReported c f cause d).camMod c (CamPort.forget f))
  have hisp := camAdmitted_isp ((dropReported c f cause d).camMod c (CamPort.forget f))
  rw [← ht] at hshown hisp
  have hport : t.cam c = CamPort.forget f ((captureLeft c f d).cam c) := by
    rw [cam_congr hisp, camMod_cam_same, cam_congr (withFault_isp_same hrest)]
    rfl
  have hleft : (captureLeft c f d).cam c = { d.cam c with capturing := false } := vat_vmod_same _ _ _
  have hkeep {a : Nat} (ha : a ∉ admissionRegs) : t.reg a = (dropReported c f cause d).reg a := hshown.2 a ha
  refine ⟨?flag, ?count, by rw [hport, hleft, CamPort.forget], by rw [hport, hleft, CamPort.forget], ?rest⟩
  case flag =>
    exact (on_congr (hkeep (dropRegs_apart c).1)).trans hon
  case count =>
    rw [hkeep (dropRegs_apart c).2, withFault_reg hrest (by simp only [List.mem_singleton, ISPC_DROPS, ISPC_FLAGS]; omega)
      (by simp only [ISPC_DROPS]; omega), reg_count_same]
    rfl
  case rest =>
    have hcount := withFault_of (regsOnly_count (captureLeft c f d) (ISPC_DROPS c) 1) (FaultOnly.refl _)
    have hisps := withFault_isp (withFault_trans hcount hrest) t.isp
    have hmod : { dropReported c f cause d with isp := t.isp } = (dropReported c f cause d).camMod c (CamPort.forget f) := by
      rw [hisp]
      rfl
    rw [hmod] at hisps
    exact withFault_regsOnly hisps hshown

/-! ### Exposure sequences and I2C transactions (R352 to R355) -/

section
variable {c : Camera} {d : Dev}

theorem camSeqStart_none (h : (d.cam c).seqWait = []) : camSeqStart c d = d := by simp [camSeqStart, h]

/-- A sequence that completes marks its settings as done from the next frame on. -/
def ExpSet.done (t n : Nat) (e : ExpSet) : ExpSet :=
  if e.tag == t && e.doneAt.isNone then { e with doneAt := some n } else e

theorem camSeqDone_completes {t : Nat} (hrun : (d.cam c).seqRun = some (t, false)) (hwait : (d.cam c).seqWait = [])
    (hpend : d.on (ISP_I2C_STAT_PENDING c) = false) :
    camSeqDone c true d = (d.camMod c fun p =>
      { p with seqRun := none, sets := p.sets.map (ExpSet.done t (d.reg (ISPC_FRAME_NO c) + 1)) }).put
        (ISPC_STATUS_EXP_BUSY c) 0 := by
  have hne : ISP_I2C_STAT c ≠ ISPC_STATUS c := by simp only [ISP_I2C_STAT, ISPC_STATUS]; omega
  have hpend' (g : CamPort → CamPort) :
      ((d.camMod c g).put (ISPC_STATUS_EXP_BUSY c) 0).on (ISP_I2C_STAT_PENDING c) = false := by
    rw [on_congr (reg_put_ne _ (ISPC_STATUS_EXP_BUSY c) 0 hne)]
    exact hpend
  have hwait' : (((d.camMod c fun p =>
      { p with seqRun := none, sets := p.sets.map (ExpSet.done t (d.reg (ISPC_FRAME_NO c) + 1)) }).put
        (ISPC_STATUS_EXP_BUSY c) 0).cam c).seqWait = [] := by
    show ((d.camMod c _).cam c).seqWait = []
    rw [camMod_cam_same, hwait]
  simp only [camSeqDone, hrun, Bool.not_true, Bool.false_and, Bool.false_eq_true, ↓reduceIte, Bool.true_and, hpend']
  exact camSeqStart_none hwait'

/-- A sequence that fails is repeated once. -/
theorem camSeqDone_repeats {t : Nat} (hrun : (d.cam c).seqRun = some (t, false)) :
    camSeqDone c false d = d.camMod c fun p => { p with seqRun := some (t, true) } := by
  simp [camSeqDone, hrun]

theorem i2cCmd_free (hbusy : d.on (ISP_I2C_STAT_BUSY c) = false) (hpend : d.on (ISP_I2C_STAT_PENDING c) = false) :
    i2cCmd c d = if (d.cam c).seqRun.isSome then d.put (ISP_I2C_STAT_PENDING c) 1 else d.put (ISP_I2C_STAT_BUSY c) 1 := by
  simp [i2cCmd, hbusy, hpend]

/-- A word put in a whole register replaces it. -/
theorem putBits_word {x : Nat} (h : x < 2 ^ 32) (v : Nat) : putBits x 31 0 v = v % 2 ^ 32 := by
  simp only [putBits]
  omega

/-- The controller is free again, and shows the RESULT. -/
def i2cEnded (c : Camera) (r : Nat) (d : Dev) : Dev := (d.put (ISP_I2C_STAT_BUSY c) 0).put (ISP_I2C_STAT_RESULT c) r

theorem i2cEnded_regsOnly (c : Camera) (r : Nat) (d : Dev) : d.regsOnly [ISP_I2C_STAT c] (i2cEnded c r d) :=
  regsOnly_mono (regsOnly_trans (regsOnly_put d (ISP_I2C_STAT_BUSY c) 0) (regsOnly_put _ (ISP_I2C_STAT_RESULT c) r)) (by simp)

theorem i2cEnded_busy (c : Camera) (r : Nat) (d : Dev) : (i2cEnded c r d).on (ISP_I2C_STAT_BUSY c) = false := by
  rw [i2cEnded, Dev.on, get_put_ne _ (ISP_I2C_STAT_RESULT c) (ISP_I2C_STAT_BUSY c) r (by simp) (by simp) (.inr (.inl (by simp)))]
  exact on_put_zero d (ISP_I2C_STAT_BUSY c) rfl (by simp)

theorem i2cEnded_result (c : Camera) {r : Nat} (h : r < 4) (d : Dev) :
    (i2cEnded c r d).get (ISP_I2C_STAT_RESULT c) = r := by
  rw [i2cEnded, get_put_same _ (ISP_I2C_STAT_RESULT c) r (by simp) (by simp)]
  exact Nat.mod_eq_of_lt h

/-- A transaction that read four bytes stores them. -/
theorem i2cDone_stores (hbusy : d.on (ISP_I2C_STAT_BUSY c) = true) (hrn : d.get (ISP_I2C_XFER_RN c) = 4)
    (hwait : (d.cam c).seqWait = []) (w : Word) :
    i2cDone c 0 w.toNat d = (i2cEnded c 0 d).setReg (ISP_I2C_RDATA c) w.toNat := by
  have hword (x : Nat) (u : Dev) : putBits (u.reg (ISP_I2C_RDATA c)) 31 0 x = x % 2 ^ 32 := putBits_word (reg_lt u _) x
  simp only [i2cDone, hbusy, hrn, Bool.not_true, Bool.false_eq_true, ↓reduceIte, Nat.min_self, Nat.reduceMul, Nat.reduceSub,
    OfNat.ofNat_ne_zero, hword, Nat.mod_eq_of_lt w.isLt, Nat.zero_mod, Nat.zero_min]
  exact camSeqStart_none hwait

/-- A transaction that fails shows its RESULT, with the flag I2C_ERR. -/
theorem i2cDone_fails (hbusy : d.on (ISP_I2C_STAT_BUSY c) = true) (hwait : (d.cam c).seqWait = []) {r : Fin 3} (hr : r ≠ 0)
    (v : Nat) : i2cDone c r.val v d = camFaulted c (ISPC_FLAGS_I2C_ERR c) 0x73 0 0 (i2cEnded c r.val d) := by
  have hval : min (r.val % 4) 2 = r.val := by omega
  have hne : r.val ≠ 0 := Fin.val_ne_of_ne hr
  have hisp := withFault_isp_same (camFaulted_spec c (f := ISPC_FLAGS_I2C_ERR c) (code := 0x73) (by decide) 0 0
    (i2cEnded c r.val d) (ispcFlags_block c) rfl (by simp)).1
  simp only [i2cDone, hbusy, hval, hne, Bool.not_true, Bool.false_eq_true, ↓reduceIte]
  refine camSeqStart_none ?_
  rw [← hwait]
  exact congrArg CamPort.seqWait (cam_congr hisp c)

end

/-! ### The statements -/

theorem exec_trigNow (c : Camera) (tau : Nat) (s : State) : exec (.trigNow c tau) s =
    actFab (fun d => camTrigger c 3 false false (d.t0.nanos + tau) d) s := rfl

theorem exec_frameTimeout (c : Camera) (tau : Nat) (s : State) : exec (.frameTimeout c tau) s =
    actFab (fun d => camTimeout c (d.t0.nanos + tau) d) s := rfl

/-- Settles O12: a trigger that is noted by the next state itself, a missed or overdue one by its flag, an overdue frame
by what a drop leaves. -/
theorem cameraTriggers : Obligations.CameraTriggers := by
  unfold Obligations.CameraTriggers
  intro c tau t q f s hrun hc
  refine ⟨?noted, ?missed, ?givenUp, ?dropped⟩
  case noted =>
    intro hen hmode hreg hidle hoff
    rw [exec_trigNow]
    have hdo := camTrigger_noted hen hmode hreg hidle hoff
    exact ⟨_, actIn_of_eq hrun hdo hc.1, rfl, rfl, rfl⟩
  case missed =>
    intro hen hmode hreg hbusy
    rw [exec_trigNow]
    obtain ⟨hrest, hon⟩ := camTrigger_flags hen hmode hreg hbusy
    obtain ⟨hcount, hfault, htriggers, hframes⟩ := missCounted_flagged hrest
    exact ⟨_, actIn_run hrun ((camTrigger_within c 3 false false _ s.dev).calm hc).1, hon, hcount, hfault, htriggers, hframes⟩
  case givenUp =>
    intro hq
    obtain ⟨hrest, hon⟩ := camTrigTmo_spec hq
    have hisp : (camTrigTmo c s.dev).isp = (s.dev.camMod c fun p => { p with triggers := q }).isp := by rw [hrest.1]
    refine ⟨_, actIn_run hrun ((camTrigTmo_within c s.dev).calm hc).1, hon, hisp, ?_⟩
    rw [hisp]
    exact hrest
  case dropped =>
    intro hcap hlast htaken hsrc hexport
    rw [exec_frameTimeout]
    have hdo := (camTimeout_drops (now := s.dev.t0.nanos + tau) hcap hlast).trans (camDrop_newest 4 hlast htaken hsrc hexport)
    obtain ⟨hon, hcount, hcapture, hframes, hrest⟩ := dropped_spec c f 4 hdo
    exact ⟨_, actIn_run hrun ((camTimeout_within c _ s.dev).calm hc).1, hon, hcount, hcapture, hframes, hrest⟩

/-- Settles O13: each command by the next state itself, a failed transaction by what its fault and its flag leave. -/
theorem cameraExposureAndI2c : Obligations.CameraExposureAndI2c := by
  unfold Obligations.CameraExposureAndI2c
  intro c t r w s hrun hc
  refine ⟨?sequence, ?command, ?transaction⟩
  case sequence =>
    intro hseq hwait hpend
    exact ⟨actIn_of_eq hrun (camSeqDone_completes hseq hwait hpend) hc.1, actIn_of_eq hrun (camSeqDone_repeats hseq) hc.1⟩
  case command =>
    intro hbusy hpend
    exact actIn_of_eq hrun (i2cCmd_free hbusy hpend) (((i2cCmd_free hbusy hpend) ▸ (i2cCmd_within c s.dev).calm hc).1)
  case transaction =>
    intro hbusy hrn hwait
    refine ⟨actIn_of_eq hrun (i2cDone_stores hbusy hrn hwait w) hc.1, fun hr => ?_⟩
    have hdo := i2cDone_fails hbusy hwait hr w.toNat
    obtain ⟨hfault, hon⟩ := camFaulted_spec c (f := ISPC_FLAGS_I2C_ERR c) (code := 0x73) (by decide) 0 0
      (i2cEnded c r.val s.dev) (ispcFlags_block c) rfl (by simp)
    have hstat : (camFaulted c (ISPC_FLAGS_I2C_ERR c) 0x73 0 0 (i2cEnded c r.val s.dev)).reg (ISP_I2C_STAT c) =
        (i2cEnded c r.val s.dev).reg (ISP_I2C_STAT c) :=
      withFault_reg hfault (by simp only [List.mem_singleton, ISP_I2C_STAT, ISPC_FLAGS]; omega)
        (by simp only [ISP_I2C_STAT]; omega)
    refine ⟨_, actIn_of_eq hrun hdo (hdo ▸ (i2cDone_within c r.val w.toNat s.dev).calm hc).1,
      (on_congr hstat).trans (i2cEnded_busy c _ _), ?result, hon,
      withFault_trans (withFault_of (i2cEnded_regsOnly c r.val s.dev) (FaultOnly.refl _)) hfault⟩
    case result =>
      rw [Dev.get, hstat]
      exact i2cEnded_result c (by omega) s.dev

end Sys2Proof.Machine

/-!
PROOFS of the way of a frame: first records of several words that enter a bobbin, and a line that enters as such records;
then what the start of a frame, a line captured, a line done and a delivered frame change, then the statement.
-/
namespace Sys2Proof.Machine

open Reg

/-! ### Words that enter a bobbin (R402, R407, R408) -/

section
variable {b k p : Nat} {d : Dev}

/-- The word at a pointer in its range lies in the ring of the bobbin. -/
theorem bobAddr_inside (h : p < 2 * d.bobSize b) :
    d.bobBase b ≤ d.bobAddr b p ∧ d.bobAddr b p + 32 ≤ d.bobBase b + 32 * d.bobSize b := by
  unfold Dev.bobAddr ringIndex
  split <;> omega

theorem bobStore_creel (b k p : Nat) (bs : List Byte) (d : Dev) :
    bobStore b k p bs d = { d with creel := (bobStore b k p bs d).creel } := by
  induction k generalizing p bs d with
  | zero => rfl
  | succ k ih => exact ih _ _ _

/-- The next word of a record, filled up with zeros (R402). -/
def firstWord (bs : List Byte) : List Byte := bs.take 32 ++ List.replicate (32 - (bs.take 32).length) 0

theorem length_firstWord (bs : List Byte) : (firstWord bs).length = 32 := by
  simp only [firstWord, List.length_append, List.length_replicate, List.length_take]
  omega

theorem bobStore_succ (b k p : Nat) (bs : List Byte) (d : Dev) : bobStore b (k + 1) p bs d =
    bobStore b k ((p + 1) % (2 * d.bobSize b)) (bs.drop 32) (d.setCreelBytes (d.bobAddr b p) (firstWord bs)) := rfl

/-- Outside the ring of the bobbin the Creel stands. -/
theorem bobStore_outside (bs : List Byte) (h : p < 2 * d.bobSize b) :
    sameOutside ramDefault (d.bobBase b) (32 * d.bobSize b) d.creel (bobStore b k p bs d).creel := by
  induction k generalizing p bs d with
  | zero => exact fun _ _ => rfl
  | succ k ih =>
    intro x hx
    obtain ⟨hlow, hhigh⟩ := bobAddr_inside h
    have hfirst := sameOutside_setCreelBytes d (d.bobAddr b p) (length_firstWord bs) x (by omega)
    have hrest := ih (p := (p + 1) % (2 * d.bobSize b)) (d := d.setCreelBytes (d.bobAddr b p) (firstWord bs)) (bs.drop 32)
      (Nat.mod_lt _ (by omega)) x hx
    rw [bobStore_succ]
    exact hrest.trans hfirst

end

/-- From `d` to `t` the write pointer of bobbin `b` moved over `k` words, which lie in its ring. -/
structure Dev.takesWords (b k : Nat) (d t : Dev) : Prop where
  wr : t.get (CRLB_WR_WR b) = (d.get (CRLB_WR_WR b) + k) % (2 * d.bobSize b)
  creel : sameOutside ramDefault (d.bobBase b) (32 * d.bobSize b) d.creel t.creel
  rest : Dev.withEvent (CRLB_WR b :: bobShown b) { d with creel := t.creel } t

/-- The fill of a ring of `2 * n` pointers rises by no more than the words that entered. -/
theorem ringFill_le {n w r k : Nat} (hw : w < 2 * n) (hk : k ≤ n - (w + 2 * n - r) % (2 * n)) :
    ((w + k) % (2 * n) + 2 * n - r) % (2 * n) ≤ (w + 2 * n - r) % (2 * n) + k := by
  have hfill := Nat.mod_lt (w + 2 * n - r) (show 0 < 2 * n by omega)
  have hsum (h : r ≤ w + 2 * n) : (w + k + 2 * n - r) % (2 * n) = (w + 2 * n - r) % (2 * n) + k := by
    rw [show w + k + 2 * n - r = w + 2 * n - r + k by omega, Nat.add_mod, Nat.mod_eq_of_lt (show k < 2 * n by omega),
      Nat.mod_eq_of_lt (by omega)]
  rcases Nat.lt_or_ge (w + k) (2 * n) with hlt | hge
  · rw [Nat.mod_eq_of_lt hlt]
    rcases Nat.lt_or_ge (w + 2 * n) r with hr | hr
    · exact (Nat.mod_le _ _).trans (by omega)
    · exact (hsum hr).le
  · rw [Nat.mod_eq_sub_mod hge, Nat.mod_eq_of_lt (show w + k - 2 * n < 2 * n by omega), Nat.sub_add_cancel hge]
    rcases Nat.lt_or_ge (w + k) r with hr | hr
    · exact (Nat.mod_le _ _).trans (by omega)
    · rw [← hsum (by omega), show w + k + 2 * n - r = w + k - r + 2 * n by omega, Nat.add_mod_right]

namespace Dev.takesWords

variable {b j k : Nat} {d t u : Dev} (h : d.takesWords b k t)
include h

theorem reg {a : Nat} (h3 : a / 0x10000 = 3) (ha : a ∉ CRLB_WR b :: bobShown b) : t.reg a = d.reg a := by
  rw [h.rest.2 a ha (eventReg_crl h3), reg_mk]

/-- What configures the bobbin, and its read pointer, stand. -/
theorem stands (hb : b < 128) : t.bobEn b = d.bobEn b ∧ t.bobSize b = d.bobSize b ∧ t.bobBase b = d.bobBase b ∧
    t.get (CRLB_RD_RD b) = d.get (CRLB_RD_RD b) := by
  have hreg {a : Nat} (h3 : a / 0x10000 = 3) (ha : a ∉ CRLB_WR b :: bobShown b) := h.reg h3 ha
  simp only [bobShown, List.mem_cons, List.not_mem_nil, or_false, CRLB_WR, CRLB_FILL, CRLB_STATUS, CRL_EVT_BOBBIN] at hreg
  have hcfg : t.reg (CRLB_CFG b) = d.reg (CRLB_CFG b) := hreg (by simp only [CRLB_CFG]; omega) (by simp only [CRLB_CFG]; omega)
  have hsize : t.reg (CRLB_SIZE b) = d.reg (CRLB_SIZE b) :=
    hreg (by simp only [CRLB_SIZE]; omega) (by simp only [CRLB_SIZE]; omega)
  have hbase : t.reg (CRLB_BASE b) = d.reg (CRLB_BASE b) :=
    hreg (by simp only [CRLB_BASE]; omega) (by simp only [CRLB_BASE]; omega)
  have hrd : t.reg (CRLB_RD b) = d.reg (CRLB_RD b) := hreg (by simp only [CRLB_RD]; omega) (by simp only [CRLB_RD]; omega)
  exact ⟨on_congr hcfg, by simp only [Dev.bobSize, hsize], by simp only [Dev.bobBase, hbase], by simp only [Dev.get, hrd]⟩

theorem trans (hb : b < 128) (g : t.takesWords b j u) : d.takesWords b (k + j) u := by
  obtain ⟨-, hsize, hbase, -⟩ := h.stands hb
  refine ⟨?_, fun x hx => ?_, ?_⟩
  · rw [g.wr, h.wr, hsize, Nat.mod_add_mod, Nat.add_assoc]
  · have hg := g.creel x
    rw [hsize, hbase] at hg
    exact (hg hx).trans (h.creel x hx)
  · exact withEvent_mono (withEvent_trans (withEvent_creel h.rest u.creel) g.rest) (by simp)

/-- Words that fit leave as much room for others as they do not take. -/
theorem fill_le (hb : b < 128) (hwr : d.get (CRLB_WR_WR b) < 2 * d.bobSize b) (hfit : k ≤ d.bobSize b - d.bobFill b) :
    t.bobFill b ≤ d.bobFill b + k := by
  obtain ⟨-, hsize, -, hrd⟩ := h.stands hb
  have hring : 0 < d.bobSize b := by omega
  rw [bobFill_ring hring] at hfit ⊢
  rw [bobFill_ring (by rw [hsize]; exact hring), hsize, hrd, h.wr]
  exact ringFill_le hwr hfit

end Dev.takesWords

theorem takesWords_none {b : Nat} {d : Dev} (h : d.get (CRLB_WR_WR b) < 2 * d.bobSize b) : d.takesWords b 0 d :=
  ⟨(Nat.mod_eq_of_lt h).symm, fun _ _ => rfl, withEvent_refl d _⟩

section
variable {b : Nat} {bs : List Byte} {d : Dev}

/-- The bobbin once `k` words of `bs` have entered it. -/
def wordsEntered (b k : Nat) (bs : List Byte) (d : Dev) : Dev :=
  bobCheck b (d.bobLevel b) ((bobStore b k (d.get (CRLB_WR_WR b)) bs d).put (CRLB_WR_WR b)
    ((d.get (CRLB_WR_WR b) + k) % (2 * d.bobSize b)))

/-- A record that fits enters the bobbin, whatever its policy. -/
theorem bobPush_fits (h : d.bobFits b bs.length = true) (hk : recWords bs.length ≠ 0) :
    bobPush b bs d = (true, wordsEntered b (recWords bs.length) bs d) := by
  simp only [Dev.bobFits, Bool.and_eq_true, decide_eq_true_eq] at h
  obtain ⟨hen, hfit⟩ := h
  have hroom : bobMakeRoom b (recWords bs.length) d = d := if_pos (by omega)
  simp only [bobPush, hen, hk, hroom, Nat.not_lt.2 hfit, ite_self, Bool.not_true, Bool.false_or, decide_false,
    Bool.false_eq_true, ↓reduceIte]
  rw [wordsEntered]

theorem wordsEntered_takes (hb : b < 128) (hwr : d.get (CRLB_WR_WR b) < 2 * d.bobSize b) (k : Nat) :
    d.takesWords b k (wordsEntered b k bs d) := by
  have hcreel : (wordsEntered b k bs d).creel = (bobStore b k (d.get (CRLB_WR_WR b)) bs d).creel :=
    ((bobCheck_within b _ _ hb).frame.2 .creel rfl).trans (put_creel _ _ _)
  refine ⟨?wr, ?creel, ?rest⟩
  case wr =>
    have hnot : CRLB_WR b ∉ bobShown b := by
      simp only [bobShown, List.mem_cons, List.not_mem_nil, or_false, CRLB_WR, CRLB_FILL, CRLB_STATUS, CRL_EVT_BOBBIN]
      omega
    have hkeep (old : Nat) (t : Dev) : (bobCheck b old t).get (CRLB_WR_WR b) = t.get (CRLB_WR_WR b) := by
      simp only [Dev.get, (bobCheck_withEvent b old t).2 _ hnot (eventReg_crl (show CRLB_WR b / 0x10000 = 3 by
        simp only [CRLB_WR]; omega))]
    have hsize : d.bobSize b < 0x100000 := Nat.mod_lt _ (by decide)
    have hlt := Nat.mod_lt (d.get (CRLB_WR_WR b) + k) (show 0 < 2 * d.bobSize b by omega)
    rw [wordsEntered, hkeep, get_put_same _ (CRLB_WR_WR b) _ (by simp) (by simp)]
    exact Nat.mod_eq_of_lt (by show _ < 2097152; omega)
  case creel =>
    rw [hcreel]
    exact bobStore_outside bs hwr
  case rest =>
    rw [hcreel]
    have hput := withEvent_put (withEvent_refl (bobStore b k (d.get (CRLB_WR_WR b)) bs d) [CRLB_WR b])
      (CRLB_WR_WR b) ((d.get (CRLB_WR_WR b) + k) % (2 * d.bobSize b)) (by simp)
    rw [← bobStore_creel]
    exact withEvent_mono (withEvent_trans hput (bobCheck_withEvent b _ _)) (by simp)

/-! ### A line that enters its bobbin (R408) -/

/-- A record of 64 words is cut from a line; the rest of it takes the other words. -/
theorem recWords_cut (bs : List Byte) :
    recWords (bs.take 2048).length + recWords (bs.drop 2048).length = recWords bs.length := by
  simp only [recWords, divUp, OfNat.ofNat_ne_zero, ↓reduceIte, List.length_take, List.length_drop]
  omega

/-- Bytes that fit a bobbin enter it record by record. -/
theorem pushChunks_takes (hb : b < 128) (m off : Nat) (hlen : bs.length ≤ 2048 * m) (hen : d.bobEn b = true)
    (hwr : d.get (CRLB_WR_WR b) < 2 * d.bobSize b) (hfit : recWords bs.length ≤ d.bobSize b - d.bobFill b) :
    d.takesWords b (recWords bs.length)
      ((chunksFrom 2048 m off bs).foldl (fun (t : Dev) e => (bobPush b e.2 t).2) d) := by
  induction m generalizing off bs d with
  | zero =>
    obtain rfl : bs = [] := List.eq_nil_of_length_eq_zero (by omega)
    exact takesWords_none hwr
  | succ m ih =>
    cases bs with
    | nil => exact takesWords_none hwr
    | cons x xs =>
      rw [← recWords_cut] at hfit ⊢
      have hfirst : (bobPush b ((x :: xs).take 2048) d).2 =
          wordsEntered b (recWords ((x :: xs).take 2048).length) ((x :: xs).take 2048) d := by
        rw [bobPush_fits]
        · simp only [Dev.bobFits, hen, Bool.true_and, decide_eq_true_eq]
          omega
        · simp only [recWords, divUp, OfNat.ofNat_ne_zero, ↓reduceIte, List.length_take, List.length_cons]
          omega
      have htakes := wordsEntered_takes (bs := (x :: xs).take 2048) hb hwr (recWords ((x :: xs).take 2048).length)
      have hfill := htakes.fill_le hb hwr (by omega)
      obtain ⟨hen', hsize, -, -⟩ := htakes.stands hb
      rw [← hfirst] at htakes hfill hen' hsize
      refine htakes.trans hb (ih (off + 2048) ?_ (hen'.trans hen) ?_ ?_)
      · simp only [List.length_drop] at hlen ⊢
        omega
      · rw [htakes.wr, hsize]
        exact Nat.mod_lt _ (by omega)
      · rw [hsize]
        omega

theorem linePush_fits (hb : b < 128) (hfits : d.bobFits b bs.length = true)
    (hwr : d.get (CRLB_WR_WR b) < 2 * d.bobSize b) :
    (linePush b bs d).1 = true ∧ d.takesWords b (recWords bs.length) (linePush b bs d).2 := by
  simp only [Dev.bobFits, Bool.and_eq_true, decide_eq_true_eq] at hfits
  obtain ⟨hen, hfit⟩ := hfits
  have htakes := pushChunks_takes hb (bs.length / 2048 + 1) 0 (by omega) hen hwr hfit
  rw [linePush, if_neg (Nat.not_lt.2 hfit)]
  exact ⟨(htakes.stands hb).1.trans hen, htakes⟩

end

theorem length_lineBytes (l : List Nat) : (lineBytes l).length = 2 * l.length := by
  simp [lineBytes, List.length_flatMap, length_leBytes, Nat.mul_comm]

/-! ### A VS edge of a free-running port (R333, R336) -/

section
variable {c : Camera} {now : Nat} {d : Dev}

/-- The quality of a tag takes no more than a free value. -/
theorem camTagQ_free (e : Option ExpSet) (n : Nat) (d : Dev) : ∃ q x, camTagQ e n d = (q, { d with free := x }) := by
  unfold camTagQ
  split
  · exact ⟨_, _, rfl⟩
  · split <;> exact ⟨_, _, rfl⟩

/-- The load is said by the admitted frames and the rates. -/
theorem camLoad_congr {t : Dev} (hisp : t.isp = d.isp) (hrate : ∀ k : Camera, t.reg (ISPC_RATE k) = d.reg (ISPC_RATE k)) :
    t.camLoad = d.camLoad ∧ t.camRate c = d.camRate c := by
  simp only [Dev.camLoad, Dev.camRate, cam_congr hisp, hrate, and_self]

theorem camAdmit_fits (k : Nat) (h : d.camLoad + d.camRate c ≤ d.get ISP_STATUS_CAP) :
    camAdmit c now (k + 1) d = (true, d) := if_pos h

/-- The number of the next frame (R333). -/
def Dev.nextFrameNo (d : Dev) (c : Camera) : Nat := (d.reg (ISPC_FRAME_NO c) + 1) % 2 ^ 32

/-- The next frame of the port has its number, and the quality of its tag took `x` as the free value. -/
def frameNumbered (c : Camera) (x : Nat) (d : Dev) : Dev :=
  { d.setReg (ISPC_FRAME_NO c) (d.nextFrameNo c) with free := x }

/-- A new frame `g` of the port is captured. -/
def CamPort.capture (g : CamFrame) (p : CamPort) : CamPort := { p with frames := p.frames ++ [g], capturing := true }

/-- The new frame `g` of the port is numbered and captured. -/
def frameCaptured (c : Camera) (g : CamFrame) (x : Nat) (d : Dev) : Dev :=
  (frameNumbered c x d).camMod c (CamPort.capture g)

theorem frameNumbered_reg (c : Camera) (x : Nat) (d : Dev) {a : Nat} (ha : a ≠ ISPC_FRAME_NO c) :
    (frameNumbered c x d).reg a = d.reg a := reg_setReg_ne d _ ha

theorem frameNumbered_no (c : Camera) (x : Nat) (d : Dev) :
    (frameNumbered c x d).reg (ISPC_FRAME_NO c) = d.nextFrameNo c := by
  have hset := reg_setReg_same d (ISPC_FRAME_NO c) (d.nextFrameNo c)
  rw [Dev.nextFrameNo, Nat.mod_mod] at hset
  exact hset

/-- The number of a frame changes nothing of what its admission rests on. -/
theorem frameNumbered_fits (x : Nat) (hload : d.camLoad + d.camRate c ≤ d.get ISP_STATUS_CAP) :
    (frameNumbered c x d).camLoad + (frameNumbered c x d).camRate c ≤ (frameNumbered c x d).get ISP_STATUS_CAP := by
  have hreg {a : Nat} (ha : a ≠ ISPC_FRAME_NO c) := frameNumbered_reg c x d ha
  obtain ⟨hl, hr⟩ := camLoad_congr (c := c) (d := d) (t := frameNumbered c x d) rfl
    (fun k => hreg (by simp only [ISPC_RATE, ISPC_FRAME_NO]; omega))
  rwa [hl, hr, Dev.get, hreg (by simp only [ISP_STATUS, ISPC_FRAME_NO]; omega)]

/-- A frame at its VS edge, of no trigger, admitted. -/
structure CamFrame.starts (g : CamFrame) (no width height : Nat) : Prop where
  no : g.no = no
  src : g.src = 0
  width : g.width = width
  height : g.height = height
  lines : g.lines = []
  admitted : g.admitted = true
  slot : g.slot = none

/-- The frame of a free-running port is numbered, and captured where its rate fits under CAP. -/
theorem camVs_captures (hen : d.on (ISPC_CTRL_EN c) = true) (hmode : d.on (ISPC_TRIG_MODE c) = false)
    (hcap : (d.cam c).capturing = false) (hs : d.shadow = [])
    (hload : d.camLoad + d.camRate c ≤ d.get ISP_STATUS_CAP) :
    ∃ g x, g.starts (d.nextFrameNo c) (d.camW c) (d.camH c) ∧ camVs c now d = camAdmitted (frameCaptured c g x d) := by
  obtain ⟨q, x, htag⟩ := camTagQ_free (((d.setReg (ISPC_FRAME_NO c) (d.nextFrameNo c)).cam c).setFor (d.nextFrameNo c))
    (d.nextFrameNo c) (d.setReg (ISPC_FRAME_NO c) (d.nextFrameNo c))
  rw [show { d.setReg (ISPC_FRAME_NO c) (d.nextFrameNo c) with free := x } = frameNumbered c x d from rfl] at htag
  have hmode' : (d.setReg (ISPC_FRAME_NO c) (d.nextFrameNo c)).on (ISPC_TRIG_MODE c) = false :=
    (on_congr (reg_setReg_ne d _ (by simp only [ISPC_TRIG, ISPC_FRAME_NO]; omega))).trans hmode
  have hsize : (frameNumbered c x d).reg (ISPC_SIZE c) = d.reg (ISPC_SIZE c) :=
    frameNumbered_reg c x d (by simp only [ISPC_SIZE, ISPC_FRAME_NO]; omega)
  simp only [camVs, hen, hcap, Bool.not_true, Bool.false_eq_true, ↓reduceIte]
  rw [← Dev.nextFrameNo, commit_nil (by exact hs)]
  simp only [camExposure, ↓reduceIte, hmode', Bool.false_eq_true, htag, Bool.false_and,
    camAdmit_fits 7 (frameNumbered_fits x hload)]
  exact ⟨_, x, ⟨rfl, rfl, by simp only [Dev.camW, hsize], by simp only [Dev.camH, hsize], rfl, rfl, rfl⟩, rfl⟩

end

/-- The number of a frame shows no admission. -/
theorem frameNo_apart : ∀ c : Camera, ISPC_FRAME_NO c ∉ admissionRegs := by decide

/-- What a new frame leaves. -/
theorem captured_spec {c : Camera} {g : CamFrame} {x : Nat} (hg : g.admitted = true) {d t : Dev}
    (ht : t = camAdmitted (frameCaptured c g x d)) :
    t.reg (ISPC_FRAME_NO c) = d.nextFrameNo c ∧ t.cam c = CamPort.capture g (d.cam c) ∧
      t.on (ISPC_STATUS_ADMITTED c) = true ∧
      Dev.regsOnly (ISPC_FRAME_NO c :: admissionRegs) { d with isp := t.isp, free := t.free } t := by
  have hport : (frameCaptured c g x d).cam c = CamPort.capture g (d.cam c) := camMod_cam_same c _ _
  have hshown := camAdmitted_regsOnly (frameCaptured c g x d)
  have hon := camAdmitted_on (frameCaptured c g x d) c
  rw [← ht] at hshown hon
  have hisp : t.isp = (frameCaptured c g x d).isp := by rw [hshown.1]
  have hfree : t.free = x := by rw [hshown.1]; rfl
  refine ⟨(hshown.2 _ (frameNo_apart c)).trans (frameNumbered_no c x d), (cam_congr hisp c).trans hport, ?shown, ?rest⟩
  case shown =>
    rw [hon, Dev.camHasAdmitted, hport]
    simp [CamPort.capture, hg]
  case rest =>
    refine regsOnly_trans (regsOnly_setReg { d with isp := t.isp, free := t.free } (ISPC_FRAME_NO c) (d.nextFrameNo c)) ?_
    rw [hisp, hfree]
    exact hshown

/-! ### A line of a frame (R333 to R335, R338) -/

section
variable {c : Camera} {now : Nat} {f : CamFrame} {d : Dev}

/-- While the pipeline is disabled no line goes into it. -/
theorem pipeNext_disabled (h : d.on ISP_CTRL_ENABLE = false) (k : Nat) : pipeNext now k d = d := by
  cases k <;> simp [pipeNext, h]

/-- A captured line as it stands in its bobbin (R334). -/
def Dev.lineSamples (d : Dev) (c : Camera) (raw : List Nat) : List Nat :=
  raw.map fun v => v % 2 ^ d.camBits c * 2 ^ (16 - d.camBits c)

/-- The frame `f` in place of the one of its number. -/
def CamPort.renew (f : CamFrame) (p : CamPort) : CamPort :=
  { p with frames := p.frames.map fun x => if x.no = f.no then f else x }

theorem setFrame_eq (c : Camera) (f : CamFrame) (d : Dev) : setFrame c f d = d.camMod c (CamPort.renew f) := rfl

/-- A line more of the frame. -/
def CamFrame.addLine (f : CamFrame) (line : List Nat) : CamFrame := { f with lines := f.lines ++ [line] }

/-- The port with a line more of the newest frame; the last line ends the capture. -/
def CamPort.addLine (f : CamFrame) (line : List Nat) (p : CamPort) : CamPort :=
  { CamPort.renew (f.addLine line) p with capturing := p.capturing && decide (f.lines.length + 1 ≠ f.height) }

theorem frameKept (c : Camera) (f : CamFrame) (line : List Nat) (u : Dev) :
    (if (f.lines ++ [line]).length = f.height then
      (setFrame c (f.addLine line) u).camMod c fun p => { p with capturing := false }
      else setFrame c (f.addLine line) u) = u.camMod c (CamPort.addLine f line) := by
  have hcount : (f.lines ++ [line]).length = f.lines.length + 1 := by simp
  rw [hcount, setFrame_eq]
  by_cases h : f.lines.length + 1 = f.height
  · rw [if_pos h, camMod_camMod]
    exact congrArg (u.camMod c) (funext fun p => by simp [CamPort.addLine, h])
  · rw [if_neg h]
    exact congrArg (u.camMod c) (funext fun p => by simp [CamPort.addLine, CamPort.renew, h])

/-- A line of the frame's width whose words fit enters the bobbin of its port, and its frame. -/
theorem camLine_enters {raw : List Nat} (hen : d.on (ISPC_CTRL_EN c) = true) (hcap : (d.cam c).capturing = true)
    (hlast : (d.cam c).frames.getLast? = some f) (hlen : raw.length = f.width) (hoff : d.on ISP_CTRL_ENABLE = false)
    (hpush : (linePush (48 + c.val) (lineBytes (d.lineSamples c raw)) d).1 = true) :
    camLine c raw now d = (linePush (48 + c.val) (lineBytes (d.lineSamples c raw)) d).2.camMod c
      (CamPort.addLine f (d.lineSamples c raw)) := by
  have hown := linePush_within (48 + c.val) (lineBytes (d.lineSamples c raw)) d (by omega)
  have hpair : linePush (48 + c.val) (lineBytes (d.lineSamples c raw)) d =
      (true, (linePush (48 + c.val) (lineBytes (d.lineSamples c raw)) d).2) := Prod.ext hpush rfl
  generalize (linePush (48 + c.val) (lineBytes (d.lineSamples c raw)) d).2 = u at hown hpair ⊢
  have hoff' (g : CamPort → CamPort) : (u.camMod c g).on ISP_CTRL_ENABLE = false :=
    (on_congr (hown.frame.1 ISP_CTRL rfl)).trans hoff
  rw [Dev.lineSamples] at hpair ⊢
  simp only [camLine, hen, hcap, hlast, hlen, hpair, Bool.not_true, Bool.or_self, Bool.false_eq_true, ne_eq,
    not_true_eq_false, ↓reduceIte]
  exact (congrArg (pipeNext now 8) (frameKept c f _ u)).trans (pipeNext_disabled (hoff' _) 8)

/-- What a captured line leaves. -/
theorem lineEntered_spec {line : List Nat} {u : Dev} (hu : d.takesWords (48 + c.val) (recWords (2 * f.width)) u)
    (hcap : (d.cam c).capturing = true) (hlast : (d.cam c).frames.getLast? = some f) (hisp : u.isp = d.isp) :
    ((u.camMod c (CamPort.addLine f line)).cam c).frames.getLast? = some (f.addLine line) ∧
      ((u.camMod c (CamPort.addLine f line)).cam c).capturing = decide (f.lines.length + 1 ≠ f.height) ∧
      Dev.withEvent (CRLB_WR (48 + c.val) :: bobShown (48 + c.val))
        { d with isp := (u.camMod c (CamPort.addLine f line)).isp, creel := u.creel }
        (u.camMod c (CamPort.addLine f line)) := by
  have hport : (u.camMod c (CamPort.addLine f line)).cam c = CamPort.addLine f line (d.cam c) := by
    rw [camMod_cam_same, cam_congr hisp]
  refine ⟨?frames, ?capturing, withEvent_isp hu.rest _⟩
  case frames =>
    rw [hport, CamPort.addLine, CamPort.renew, List.getLast?_map, hlast]
    simp [CamFrame.addLine]
  case capturing =>
    rw [hport, CamPort.addLine, hcap, Bool.true_and]

/-! ### A line that the pipeline has done (R335, R336) -/

theorem linePieces_pos (n : Nat) : ∀ k ∈ linePieces n, 0 < k := by
  intro k hk
  simp only [linePieces, List.mem_append, List.mem_replicate] at hk
  rcases hk with ⟨-, rfl⟩ | hk
  · decide
  · split at hk
    · exact nomatch hk
    · rw [List.mem_singleton] at hk
      omega

/-- A line of one record leaves the bobbin by one pop. -/
theorem linePop_one {b n k : Nat} (h : linePieces n = [k]) (d : Dev) : linePop b n 1 d = (bobPop b k d).2 := by
  simp [linePop, h]

/-- A line of the frame is done; the last one ends its admission. -/
def CamFrame.took (f : CamFrame) : CamFrame :=
  { f with taken := f.taken + 1, admitted := f.admitted && decide (f.taken + 1 < f.height) }

/-- The pipeline holds no line. -/
def lineCleared (d : Dev) : Dev := { d with isp := { d.isp with line := none } }

/-- The record of the line in the pipeline leaves the bobbin of its port. -/
def lineTaken (c : Camera) (k : Nat) (d : Dev) : Dev := (bobPop (48 + c.val) k (lineCleared d)).2

/-- A line that the pipeline has done leaves its bobbin, and counts in its frame. -/
theorem pipeLine_takes {k : Nat} (hline : d.isp.line = some (c.val, f.no))
    (hfind : ((d.cam c).frames.find? fun x => x.no == f.no) = some f) (hoff : d.on ISP_CTRL_ENABLE = false)
    (hone : linePieces f.width = [k]) :
    pipeLine now d = camAdmitted ((lineTaken c k d).camMod c (CamPort.renew f.took)) := by
  have hown := bobPop_within (48 + c.val) k (lineCleared d) (by omega)
  have hreg : (lineTaken c k d).reg ISP_CTRL = d.reg ISP_CTRL := hown.frame.1 ISP_CTRL rfl
  have hctrl : (camAdmitted ((lineTaken c k d).camMod c (CamPort.renew f.took))).reg ISP_CTRL = d.reg ISP_CTRL :=
    ((camAdmitted_regsOnly _).2 ISP_CTRL (by decide)).trans hreg
  have hnext := pipeNext_disabled (now := now) ((on_congr (f := ISP_CTRL_ENABLE) hctrl).trans hoff) 8
  have hfind' : ((lineCleared d).cam c).frames.find? (·.no == f.no) = some f := hfind
  rw [lineCleared] at hfind'
  simp only [pipeLine, hline, hfind', linePop_one hone, Nat.mod_eq_of_lt c.isLt]
  exact hnext

/-- What a line leaves that is done. -/
theorem lineTaken_spec {k : Nat} {t : Dev} (ht : t = camAdmitted ((lineTaken c k d).camMod c (CamPort.renew f.took)))
    (hpos : 0 < k) (hen : d.bobEn (48 + c.val) = true) (hfill : k ≤ d.bobFill (48 + c.val)) :
    t.isp.line = none ∧ (t.cam c).frames = (d.cam c).frames.map (fun x => if x.no = f.no then f.took else x) ∧
      t.get (CRLB_RD_RD (48 + c.val)) = (d.get (CRLB_RD_RD (48 + c.val)) + k) % (2 * d.bobSize (48 + c.val)) ∧
      Dev.withEvent (CRLB_RD (48 + c.val) :: bobShown (48 + c.val) ++ admissionRegs) { d with isp := t.isp } t := by
  have hpop := bobPop_withEvent (48 + c.val) k (lineCleared d)
  have hshown := camAdmitted_regsOnly ((lineTaken c k d).camMod c (CamPort.renew f.took))
  rw [← ht] at hshown
  have hisp : t.isp = ((lineTaken c k d).camMod c (CamPort.renew f.took)).isp := by rw [hshown.1]
  have hleft : (lineTaken c k d).isp = (lineCleared d).isp := by rw [lineTaken, hpop.1]
  refine ⟨?line, ?frames, ?rd, ?rest⟩
  case line =>
    rw [hisp]
    exact congrArg Cams.line hleft
  case frames =>
    rw [cam_congr hisp, camMod_cam_same, cam_congr hleft]
    rfl
  case rd =>
    have hnot : CRLB_RD (48 + c.val) ∉ admissionRegs := fun h => by
      have := admissionRegs_block _ h
      simp only [CRLB_RD] at this
      omega
    rw [Dev.get, hshown.2 _ hnot, camMod_reg]
    exact bobPop_rd (d := lineCleared d) (by omega) hen hfill (Nat.lt_of_lt_of_le hpos hfill)
  case rest =>
    have hmod : { lineTaken c k d with isp := t.isp } = (lineTaken c k d).camMod c (CamPort.renew f.took) := by
      rw [hisp]
      rfl
    have hpop' := withEvent_isp hpop t.isp
    rw [← lineTaken, hmod] at hpop'
    exact withEvent_regsOnly hpop' hshown

/-! ### A frame that is delivered (R346, R347) -/

theorem dramWrite_inside {a : Nat} {bs : List Byte} (h : d.inDram a bs.length = true) :
    ∃ x, dramWrite a bs d = { d with dram := storeBytes ramDefault d.dram a bs, drc := x } :=
  ⟨_, if_pos h⟩

/-- The bytes of a frame as its slot holds them: header, pixels, header and statistics (R346, R347). -/
def frameStored (a room : Nat) (head pix stats : List Byte) (m : List Host.Cell) : List Host.Cell :=
  storeBytes ramDefault (storeBytes ramDefault (storeBytes ramDefault m a head) (a + 32) pix) (a + 32 + room) (head ++ stats)

theorem frameWritten {a room : Nat} {head pix stats : List Byte} (hhead : d.inDram a head.length = true)
    (hpix : d.inDram (a + 32) pix.length = true) (hstats : d.inDram (a + 32 + room) (head.length + stats.length) = true) :
    ∃ x, dramWrite (a + 32 + room) (head ++ stats) (dramWrite (a + 32) pix (dramWrite a head d)) =
      { d with dram := frameStored a room head pix stats d.dram, drc := x } := by
  obtain ⟨x, hx⟩ := dramWrite_inside hhead
  rw [hx]
  obtain ⟨y, hy⟩ := dramWrite_inside (d := { d with dram := storeBytes ramDefault d.dram a head, drc := x }) hpix
  rw [hy]
  rw [← List.length_append] at hstats
  exact dramWrite_inside (d := { d with dram := _, drc := y }) hstats

theorem length_camHeader (c : Camera) (f : CamFrame) (q drop : Nat) : (camHeader c f q drop).length = 32 := by
  rw [camHeader, length_wordsBytes]
  rfl

/-- A delivered frame is the newest of its port in the ring, and in progress no more. -/
def CamPort.deliver (f : CamFrame) (shot : CamShot) (p : CamPort) : CamPort :=
  CamPort.forget f { p with latest := some shot, delivered := p.delivered + 1 }

/-- The DRAM holds `m`, and its controller is left as `x`. -/
def dramLeft (m : List Host.Cell) (x : Dram) (d : Dev) : Dev := { d with dram := m, drc := x }

/-- The DRAM once frame `f` is in slot `k` of its ring. -/
def Dev.ringWith (d : Dev) (c : Camera) (f : CamFrame) (k : Nat) (pix stats : List Byte) : List Host.Cell :=
  frameStored (d.ringAddr c f k) f.pixRoom (camHeader c f qGood 0) pix stats d.dram

/-- A delivered frame is counted, and its tag shown. -/
def deliveryCounted (c : Camera) (f : CamFrame) (d : Dev) : Dev :=
  (d.count (ISPC_FRAMES c) 1).setReg (ISPC_EXP_TAG c) (putBits (d.reg (ISPC_EXP_TAG c)) 15 8 f.tag)

theorem deliveryCounted_eq (c : Camera) (f : CamFrame) (d : Dev) :
    (d.count (ISPC_FRAMES c) 1).setReg (ISPC_EXP_TAG c) (putBits (d.reg (ISPC_EXP_TAG c)) 15 8 f.tag) =
      deliveryCounted c f d := rfl

theorem deliveryCounted_regsOnly (c : Camera) (f : CamFrame) (d : Dev) :
    d.regsOnly [ISPC_FRAMES c, ISPC_EXP_TAG c] (deliveryCounted c f d) :=
  regsOnly_trans (regsOnly_count d (ISPC_FRAMES c) 1) (regsOnly_setReg _ (ISPC_EXP_TAG c) _)

theorem deliveryCounted_frames (c : Camera) (f : CamFrame) (d : Dev) :
    (deliveryCounted c f d).reg (ISPC_FRAMES c) = min (d.reg (ISPC_FRAMES c) + 1) 0xFFFFFFFF := by
  rw [deliveryCounted, reg_setReg_ne _ _ (by simp only [ISPC_FRAMES, ISPC_EXP_TAG]; omega), reg_count_same]

/-- A frame whose lines are all done is written to its slot, counted, and the newest of its port. -/
theorem camDeliver_stores {k : Nat} {pix stats : List Byte}
    (hfind : ((d.cam c).frames.find? fun x => x.taken == x.height && 0 < x.height) = some f) (hslot : f.slot = some k)
    (hsrc : f.src = 0) (hexport : d.exportOf c f = 0) (hscan : d.get TRD_STATE_STATE ≠ 6)
    (hout : (d.pixelCfg c f).output f.lines = (pix, stats)) (hhead : d.inDram (d.ringAddr c f k) 32 = true)
    (hpix : d.inDram (d.ringAddr c f k + 32) pix.length = true)
    (hstats : d.inDram (d.ringAddr c f k + 32 + f.pixRoom) ((camHeader c f qGood 0).length + stats.length) = true) :
    ∃ x, camDeliver c now d = (deliveryCounted c f (dramLeft (d.ringWith c f k pix stats) x d)).camMod c
        (CamPort.deliver f ⟨k, f.width, f.height, f.format, d.reg TAP_FRAME_NO⟩) := by
  obtain ⟨x, hx⟩ := frameWritten (room := f.pixRoom) (stats := stats) (by rw [length_camHeader]; exact hhead) hpix hstats
  have hrest := deliveryCounted_regsOnly c f (dramLeft (d.ringWith c f k pix stats) x d)
  have hreg {a : Nat} (ha : a ∉ [ISPC_FRAMES c, ISPC_EXP_TAG c]) :
      (deliveryCounted c f (dramLeft (d.ringWith c f k pix stats) x d)).reg a = d.reg a := hrest.2 a ha
  have hscan' (g : CamPort → CamPort) :
      ((deliveryCounted c f (dramLeft (d.ringWith c f k pix stats) x d)).camMod c g).get TRD_STATE_STATE ≠ 6 := by
    rw [camMod_get, Dev.get, hreg]
    · exact hscan
    · simp only [List.mem_cons, List.not_mem_nil, or_false, TRD_STATE, ISPC_FRAMES, ISPC_EXP_TAG]
      omega
  have hexport' (g : CamPort → CamPort) :
      ((deliveryCounted c f (dramLeft (d.ringWith c f k pix stats) x d)).camMod c g).exportOf c f = 0 := by
    rw [exportOf_congr, hexport]
    rw [camMod_reg]
    refine hreg ?_
    simp only [List.mem_cons, List.not_mem_nil, or_false, ISPC_OUT, ISPC_FRAMES, ISPC_EXP_TAG]
    omega
  have htap : (deliveryCounted c f (dramLeft (d.ringWith c f k pix stats) x d)).reg TAP_FRAME_NO = d.reg TAP_FRAME_NO := hreg (by
    simp only [List.mem_cons, List.not_mem_nil, or_false, TAP_FRAME_NO, ISPC_FRAMES, ISPC_EXP_TAG]
    omega)
  have htag : ((dramLeft (d.ringWith c f k pix stats) x d).count (ISPC_FRAMES c) 1).reg (ISPC_EXP_TAG c) =
      (dramLeft (d.ringWith c f k pix stats) x d).reg (ISPC_EXP_TAG c) :=
    reg_count_ne _ _ (by simp only [ISPC_FRAMES, ISPC_EXP_TAG]; omega)
  rw [← Dev.ringWith, ← dramLeft] at hx
  refine ⟨x, ?_⟩
  simp only [camDeliver, hfind, hslot, hout, hx, htag]
  simp only [deliveryCounted_eq, htap, hscan', hexport', decide_false, Bool.false_and, Bool.false_eq_true, zero_ne_one,
    ↓reduceIte]
  rw [camEnd_free hsrc, camMod_camMod]
  rfl

/-- What a delivered frame leaves. -/
theorem delivered_spec {m : List Host.Cell} {x : Dram} {shot : CamShot} {t : Dev}
    (ht : t = (deliveryCounted c f (dramLeft m x d)).camMod c (CamPort.deliver f shot)) :
    t.dram = m ∧ t.reg (ISPC_FRAMES c) = min (d.reg (ISPC_FRAMES c) + 1) 0xFFFFFFFF ∧ (t.cam c).latest = some shot ∧
      (t.cam c).frames = (d.cam c).frames.filter (fun y => y.no ≠ f.no) ∧
      Dev.regsOnly [ISPC_FRAMES c, ISPC_EXP_TAG c] { d with isp := t.isp, dram := t.dram, drc := t.drc } t := by
  have hcounted := deliveryCounted_regsOnly c f (dramLeft m x d)
  have hcount := deliveryCounted_frames c f (dramLeft m x d)
  generalize deliveryCounted c f (dramLeft m x d) = y at ht hcounted hcount
  have hisp : y.isp = d.isp := by rw [hcounted.1]; rfl
  have hport : t.cam c = CamPort.deliver f shot (d.cam c) := by rw [ht, camMod_cam_same, cam_congr hisp]
  subst ht
  refine ⟨?stored, hcount, by rw [hport]; rfl, by rw [hport]; rfl, ?rest, hcounted.2⟩
  case stored =>
    show y.dram = _
    rw [hcounted.1]
    rfl
  case rest =>
    rw [hcounted.1]
    rfl

end

/-! ### The statement -/

theorem exec_vsEdge (c : Camera) (tau : Nat) (s : State) : exec (.vsEdge c tau) s =
    actIn (6 + c.val) (fun d => camVs c (d.t0.nanos + tau) d) s := rfl

theorem exec_lineComplete (c : Camera) (samples : List Nat) (tau : Nat) (s : State) : exec (.lineComplete c samples tau) s =
    actIn (6 + c.val) (fun d => camLine c samples (d.t0.nanos + tau) d) s := rfl

theorem exec_pipelineLineDone (tau : Nat) (s : State) : exec (.pipelineLineDone tau) s =
    actIn 3 (fun d => pipeLine (d.t0.nanos + tau) d) s := rfl

theorem exec_frameDelivered (c : Camera) (tau : Nat) (s : State) : exec (.frameDelivered c tau) s =
    actIn 3 (fun d => camDeliver c (d.t0.nanos + tau) d) s := rfl

/-- Settles O14: each command by the state that its frame is left in, and by what that state leaves of the device. -/
theorem cameraFrames : Obligations.CameraFrames := by
  unfold Obligations.CameraFrames
  intro c tau k samples f pix stats s hc
  refine ⟨?edge, ?line, ?done, ?delivered⟩
  case edge =>
    intro hrun hs hen hmode hcap hload
    rw [exec_vsEdge]
    obtain ⟨g, x, hg, hdo⟩ := camVs_captures (now := s.dev.t0.nanos + tau) hen hmode hcap hs hload
    obtain ⟨hno, hport, hon, hrest⟩ := captured_spec hg.admitted hdo
    refine ⟨_, actIn_run hrun ((camVs_within c _ s.dev).calm hc).1, hno, ⟨g, ?newest, ?added, hg.no.trans hno.symm, hg.src,
      hg.width, hg.height, hg.lines, hg.admitted, hg.slot⟩, ?capturing, hon, hrest⟩
    case newest =>
      rw [hport]
      exact List.getLast?_concat
    case added => rw [hport]; rfl
    case capturing => rw [hport]; rfl
  case line =>
    intro hrun hen hcap hlast hlen hoff hfits hwr _
    rw [exec_lineComplete]
    have hbytes : (lineBytes (s.dev.lineSamples c samples)).length = 2 * f.width := by
      rw [length_lineBytes, Dev.lineSamples, List.length_map, hlen]
    rw [← hbytes] at hfits
    have hown := linePush_within (48 + c.val) (lineBytes (s.dev.lineSamples c samples)) s.dev (by omega)
    obtain ⟨hpush, htakes⟩ := linePush_fits (by omega) hfits hwr
    have hdo := camLine_enters (now := s.dev.t0.nanos + tau) hen hcap hlast hlen hoff hpush
    rw [hbytes] at htakes
    generalize (linePush (48 + c.val) (lineBytes (s.dev.lineSamples c samples)) s.dev).2 = u at hown htakes hdo
    obtain ⟨hnewest, hcapture, hrest⟩ := lineEntered_spec (line := s.dev.lineSamples c samples) htakes hcap hlast
      (hown.frame.2 .isp rfl)
    exact ⟨_, actIn_of_eq hrun hdo (hown.calm hc).1, ⟨_, hnewest, rfl⟩, hcapture, htakes.wr, htakes.creel, hrest⟩
  case done =>
    intro hrun hline hfind hoff hone hen hfill
    rw [exec_pipelineLineDone]
    have hdo := pipeLine_takes (now := s.dev.t0.nanos + tau) hline hfind hoff hone
    obtain ⟨hnone, hframes, hrd, hrest⟩ := lineTaken_spec hdo (linePieces_pos f.width k (by simp [hone])) hen hfill
    exact ⟨_, actIn_run hrun ((pipeLine_within _ s.dev).calm hc).1, hnone, hframes, hrd, hrest⟩
  case delivered =>
    intro hrun hfind hslot hsrc hexport hscan hout hhead hpix hstats
    rw [exec_frameDelivered]
    obtain ⟨x, hdo⟩ := camDeliver_stores (now := s.dev.t0.nanos + tau) hfind hslot hsrc hexport hscan hout hhead hpix hstats
    exact ⟨_, actIn_run hrun ((camDeliver_within c _ s.dev).calm hc).1, delivered_spec hdo⟩

end Sys2Proof.Machine

/-!
PROOFS of Tapestry's commands: first its state beside the registers, then the marks of a commit and a flip, then the
writes that enable composition and the video output; then the statement.
-/
namespace Sys2Proof.Machine

open Reg

/-! ### The state of Tapestry beside its registers -/

section
variable {d t : Dev} {L : List Nat}

@[simp] theorem tapMod_reg (f : Tapestry → Tapestry) (d : Dev) (a : Nat) : (d.tapMod f).reg a = d.reg a := rfl

@[simp] theorem tapMod_get (f : Tapestry → Tapestry) (d : Dev) (x : Field) : (d.tapMod f).get x = d.get x := rfl

@[simp] theorem tapMod_on (f : Tapestry → Tapestry) (d : Dev) (x : Field) : (d.tapMod f).on x = d.on x := rfl

/-- The same state of Tapestry on both sides changes nothing in what else is said. -/
theorem regsOnly_tap (h : d.regsOnly L t) (x : Tapestry) : Dev.regsOnly L { d with tap := x } { t with tap := x } :=
  ⟨by rw [h.1], h.2⟩

theorem withEvent_tap (h : d.withEvent L t) (x : Tapestry) : Dev.withEvent L { d with tap := x } { t with tap := x } :=
  ⟨by rw [h.1], h.2⟩

end

/-! ### Commits and flips that wait for the boundary (R368, R369) -/

theorem planeCommit_plane (i : Plane) (d : Dev) : planeCommit i.castSucc d = d.put (TAPP_COMMIT_COMMIT i.val) 1 :=
  if_pos i.isLt

theorem planeCommit_cursor (d : Dev) : planeCommit 8 d = d.put TAP_CUR_COMMIT_COMMIT 1 := rfl

theorem exec_planeCommit (i : Fin 9) (s : State) : exec (.planeCommit i) s = actIn domFab (planeCommit i) s := rfl

theorem exec_planeFlip (i : Plane) (s : State) : exec (.planeFlip i) s = actIn domFab (planeFlip i) s := rfl

/-! ### Enabling composition (R367, R374) -/

section
variable {d : Dev} {v : Nat}

/-- OUT_SEL lies in the bits that a disabled TAP_CTRL takes from a write. -/
theorem outSel_written (v : Nat) : v % 8 / 2 * 2 = bits v 2 1 * 2 := by
  simp only [bits]
  omega

/-- Composition runs, and its boundaries are counted from 0. -/
def composing (d : Dev) : Dev := ((d.put TAP_CTRL_ENABLE 1).put TAP_STATUS_RUNNING 1).setReg TAP_FRAME_NO 0

/-- The planes' flips and enables are forgotten, and no frame waits for DIV (R370, R375). -/
def Tapestry.restart (t : Tapestry) : Tapestry :=
  { t with
    planes := Vector.ofFn fun (i : Fin 8) => { vat t.planes i with lastFlip := none, wasOn := false }
    sinceMem := 0 }

/-- The memory output asks nothing of the video output, so its enable is taken. -/
theorem tapCtrl_memory (hoff : d.on TAP_CTRL_ENABLE = false) (hen : bit v 0 = true) (hsel : bits v 2 1 = 1)
    (hs : d.shadow = []) : tapCtrl v d = (composing (d.setReg TAP_CTRL 2)).tapMod Tapestry.restart := by
  have hout : (d.setReg TAP_CTRL 2).get TAP_CTRL_OUT_SEL = 1 := get_setReg_same d TAP_CTRL_OUT_SEL 2 (by decide)
  have hcommit := commit_nil (d := composing (d.setReg TAP_CTRL 2)) hs .tapFrame 0xE0000 0xE0100
  rw [composing] at hcommit
  simp only [tapCtrl, hoff, hen, outSel_written, hsel, Nat.one_mul, hout, hcommit, Bool.not_true, Bool.false_eq_true,
    ne_eq, not_true_eq_false, decide_false, Bool.false_and, ↓reduceIte]
  rfl

/-- The video output selected without VID_EN refuses the enable (R374). -/
theorem tapCtrl_display (hoff : d.on TAP_CTRL_ENABLE = false) (hen : bit v 0 = true) (hsel : bits v 2 1 = 0)
    (hvid : d.on TAP_VID_CTRL_VID_EN = false) : tapCtrl v d = (d.setReg TAP_CTRL 0).put TAP_FLAGS_CFG_ERR 1 := by
  have hout : (d.setReg TAP_CTRL 0).get TAP_CTRL_OUT_SEL = 0 := get_setReg_same d TAP_CTRL_OUT_SEL 0 (by decide)
  have hvid' : (d.setReg TAP_CTRL 0).on TAP_VID_CTRL_VID_EN = false :=
    (on_congr (reg_setReg_ne d _ (by decide))).trans hvid
  simp [tapCtrl, hoff, hen, outSel_written, hsel, hout, hvid']

/-- What an enable of the memory output leaves in the registers. -/
theorem composing_regs (d : Dev) : (composing (d.setReg TAP_CTRL 2)).on TAP_CTRL_ENABLE = true ∧
    (composing (d.setReg TAP_CTRL 2)).get TAP_CTRL_OUT_SEL = 1 ∧
    (composing (d.setReg TAP_CTRL 2)).on TAP_STATUS_RUNNING = true ∧
    (composing (d.setReg TAP_CTRL 2)).reg TAP_FRAME_NO = 0 ∧
    d.regsOnly [TAP_CTRL, TAP_STATUS, TAP_FRAME_NO] (composing (d.setReg TAP_CTRL 2)) := by
  have hctrl : (composing (d.setReg TAP_CTRL 2)).reg TAP_CTRL = ((d.setReg TAP_CTRL 2).put TAP_CTRL_ENABLE 1).reg TAP_CTRL :=
    (reg_setReg_ne _ _ (by decide)).trans (reg_put_ne _ _ _ (by decide))
  refine ⟨?enabled, ?selected, ?running, reg_setReg_same _ _ _, ?rest⟩
  case enabled => exact (on_congr hctrl).trans (on_put_one _ TAP_CTRL_ENABLE rfl (by decide))
  case selected =>
    rw [Dev.get, hctrl]
    exact (get_put_ne _ TAP_CTRL_ENABLE TAP_CTRL_OUT_SEL 1 (by decide) (by decide) (by decide)).trans
      (get_setReg_same d TAP_CTRL_OUT_SEL 2 (by decide))
  case running =>
    exact (on_congr (reg_setReg_ne _ _ (by decide))).trans (on_put_one _ TAP_STATUS_RUNNING rfl (by decide))
  case rest =>
    exact regsOnly_mono (regsOnly_trans (regsOnly_setReg d TAP_CTRL 2) (regsOnly_trans
      (regsOnly_trans (regsOnly_put _ TAP_CTRL_ENABLE 1) (regsOnly_put _ TAP_STATUS_RUNNING 1))
      (regsOnly_setReg _ TAP_FRAME_NO 0))) (by decide)

theorem composing_spec {f : Tapestry → Tapestry} {t : Dev} (ht : t = (composing (d.setReg TAP_CTRL 2)).tapMod f) :
    t.on TAP_CTRL_ENABLE = true ∧ t.get TAP_CTRL_OUT_SEL = 1 ∧ t.on TAP_STATUS_RUNNING = true ∧ t.reg TAP_FRAME_NO = 0 ∧
      Dev.regsOnly [TAP_CTRL, TAP_STATUS, TAP_FRAME_NO] { d with tap := t.tap } t ∧ t.ev = d.ev := by
  obtain ⟨hen, hget, hrunning, hno, hrest⟩ := composing_regs d
  have hev : (composing (d.setReg TAP_CTRL 2)).ev = d.ev := by rw [hrest.1]
  subst ht
  rw [tapMod_on, tapMod_get, tapMod_on, tapMod_reg]
  exact ⟨hen, hget, hrunning, hno, regsOnly_tap hrest _, hev⟩

theorem exec_tapEnable (w : Word) (s : State) :
    exec (.tapEnable w) s = actIn domFab (tapCtrl (setBit w.toNat 0 true)) s := rfl

/-- The command writes ENABLE = 1 and leaves OUT_SEL to its operand. -/
theorem bits_outSel_setBit (w : Nat) : bits (setBit w 0 true) 2 1 = bits w 2 1 :=
  bits_putBits_ne w 0 0 _ 2 1 (by decide) (by decide)

/-! ### The video output (R374, R378) -/

theorem vidCtrl_disabled (h : d.on TAP_VID_CTRL_VID_EN = false) (v : Nat) :
    vidCtrl v d = d.setReg TAP_VID_CTRL (Nat.land v 0x1F) := by
  simp [vidCtrl, h]

theorem vidCtrl_stops (h : d.on TAP_VID_CTRL_VID_EN = true) (hv : bit v 0 = false) :
    vidCtrl v d = (d.put TAP_VID_CTRL_VID_EN 0).tapMod fun t => { t with video := false } := by
  simp [vidCtrl, h, hv]

theorem exec_vidEnable (w : Word) (s : State) : exec (.vidEnable w) s = actIn domFab (vidCtrl w.toNat) s := rfl

end

/-- Settles O5: each command by the effect of its write while it is neither locked nor refused, and by the refusal of
R374. -/
theorem tapestryCommits : Obligations.TapestryCommits := by
  unfold Obligations.TapestryCommits
  intro i w s hrun hc
  have hset : bit (setBit w.toNat 0 true) 0 = true := bit_setBit_same _ _
  have hsel := bits_outSel_setBit w.toNat
  refine ⟨⟨?commit, ?cursor, ?flip⟩, ?memory, ?display, ?stored, ?stopped⟩
  case commit =>
    rw [exec_planeCommit]
    exact actIn_of_eq hrun (planeCommit_plane i s.dev) hc.1
  case cursor =>
    rw [exec_planeCommit]
    exact actIn_of_eq hrun (planeCommit_cursor s.dev) hc.1
  case flip => exact actIn_run hrun hc.1
  case memory =>
    intro hoff hout hs
    have hdo := tapCtrl_memory hoff hset (hsel.trans hout) hs
    obtain ⟨hen, hget, hrunning, hno, hrest, hev⟩ := composing_spec hdo
    rw [exec_tapEnable]
    exact ⟨_, actIn_run hrun (by rw [hev]; exact hc.1), hen, hget, hrunning, hno, hrest⟩
  case display =>
    intro hoff hout hvid
    rw [exec_tapEnable]
    exact actIn_of_eq hrun (tapCtrl_display hoff hset (hsel.trans hout) hvid) hc.1
  case stored =>
    intro hvid
    rw [exec_vidEnable]
    exact actIn_of_eq hrun (vidCtrl_disabled hvid _) hc.1
  case stopped =>
    intro hvid hfall
    rw [exec_vidEnable]
    exact actIn_of_eq hrun (vidCtrl_stops hvid hfall) hc.1

end Sys2Proof.Machine

/-!
PROOFS of the frames of Tapestry: a boundary at which every plane is off, a source line that is missing, and a frame
written to its slot; then the statement.
-/
namespace Sys2Proof.Machine

open Reg

/-! ### What a boundary leaves where no plane is shown (R367 to R371) -/

/-- The registers that a boundary may change beside FRAME_NO while every plane is off and no RWS write waits. -/
def boundaryRegs : List Nat := TAP_CUR_COMMIT :: (List.range 8).map TAPP_STATUS ++ (List.range 8).map TAPP_COMMIT

/-- From `d` to `t` planes, camera ports and the registers of a boundary may change; the frame in progress and the
memory ring stand. -/
structure Dev.passesBoundary (d t : Dev) : Prop where
  frame : t.tap.frame = d.tap.frame
  next : t.tap.nextSlot = d.tap.nextSlot
  exporting : t.tap.exporting = d.tap.exporting
  rest : Dev.regsOnly boundaryRegs { d with tap := t.tap, isp := t.isp } t

namespace Dev.passesBoundary

variable {d t u : Dev}

theorem refl (d : Dev) : d.passesBoundary d := ⟨rfl, rfl, rfl, rfl, fun _ _ => rfl⟩

theorem trans (h : d.passesBoundary t) (k : t.passesBoundary u) : d.passesBoundary u where
  frame := k.frame.trans h.frame
  next := k.next.trans h.next
  exporting := k.exporting.trans h.exporting
  rest := ⟨by rw [k.rest.1, h.rest.1], fun a ha => (k.rest.2 a ha).trans (h.rest.2 a ha)⟩

theorem put (d : Dev) {f : Field} (h : f.addr ∈ boundaryRegs) (v : Nat) : d.passesBoundary (d.put f v) :=
  ⟨rfl, rfl, rfl, regsOnly_mono (regsOnly_put d f v) (by simpa using h)⟩

theorem tapMod (d : Dev) {f : Tapestry → Tapestry} (hframe : (f d.tap).frame = d.tap.frame)
    (hnext : (f d.tap).nextSlot = d.tap.nextSlot) (hexp : (f d.tap).exporting = d.tap.exporting) :
    d.passesBoundary (d.tapMod f) :=
  ⟨hframe, hnext, hexp, rfl, fun _ _ => rfl⟩

theorem tapPlane (d : Dev) (i : Plane) (f : TapPlane → TapPlane) : d.passesBoundary (d.tapPlane i f) := tapMod d rfl rfl rfl

theorem camMod (d : Dev) (c : Camera) (f : CamPort → CamPort) : d.passesBoundary (d.camMod c f) :=
  ⟨rfl, rfl, rfl, rfl, fun _ _ => rfl⟩

theorem ite (c : Prop) [Decidable c] (h : d.passesBoundary t) : d.passesBoundary (if c then t else d) := by
  split
  · exact h
  · exact refl d

theorem foldl {α : Type} {g : Dev → α → Dev} (hg : ∀ (v : Dev) (x : α), v.passesBoundary (g v x)) (l : List α) (d : Dev) :
    d.passesBoundary (l.foldl g d) := by
  induction l generalizing d with
  | nil => exact refl d
  | cons x l ih => exact (hg d x).trans (ih _)

theorem reg (h : d.passesBoundary t) {a : Nat} (ha : a ∉ boundaryRegs) : t.reg a = d.reg a := h.rest.2 a ha

theorem shadow (h : d.passesBoundary t) : t.shadow = d.shadow := by rw [h.rest.1]

theorem ev (h : d.passesBoundary t) : t.ev = d.ev := by rw [h.rest.1]

/-- A boundary with no plane on leaves the planes' enables. -/
theorem planeEn (h : d.passesBoundary t) (i : Plane) : t.on (TAPP_CTRL_EN i) = d.on (TAPP_CTRL_EN i) :=
  on_congr (h.reg (by revert i; decide))

/-- The next usable slot depends on the ring and on what is being exported (R375). -/
theorem memSlot (h : d.passesBoundary t) : t.memSlot = d.memSlot := by
  simp only [Dev.memSlot, h.reg (a := TAP_MEM_SLOTS) (by decide), h.next, h.exporting]

end Dev.passesBoundary

theorem planeStatus_shown (i : Plane) : TAPP_STATUS i ∈ boundaryRegs := by revert i; decide

theorem planeCommit_shown (i : Plane) : TAPP_COMMIT i ∈ boundaryRegs := by revert i; decide

/-- A plane that is off takes its commit and its flip, and shows that it is neither ready nor stale nor blanked. -/
theorem planeBoundary_off {i : Plane} {d : Dev} (f : Nat) (hs : d.shadow = []) (hoff : d.on (TAPP_CTRL_EN i) = false) :
    d.passesBoundary (planeBoundary f d i) := by
  have status {u : Dev} {x : Field} (hx : x.addr = TAPP_STATUS i) (v : Nat) : u.passesBoundary (u.put x v) :=
    .put u (by rw [hx]; exact planeStatus_shown i) v
  unfold planeBoundary
  extract_lets lo s1 s2 on camNo s3
  have h1 : d.passesBoundary s1 := by
    simp only [s1, commit_nil hs]
    exact .ite _ (.put d (planeCommit_shown i) 0)
  have h2 : s1.passesBoundary s2 :=
    .ite _ (((status rfl 0).trans (status rfl _)).trans (.tapPlane _ i _))
  have hon : on = false := by simp [on, (h1.trans h2).planeEn i, hoff]
  rw [hon]
  exact ((h1.trans h2).trans (.tapPlane s2 i _)).trans (((status rfl 0).trans (status rfl 0)).trans (status rfl 0))

theorem foldl_planeBoundary_off (f : Nat) (l : List Plane) {d : Dev} (hs : d.shadow = [])
    (hoff : ∀ p : Plane, d.on (TAPP_CTRL_EN p) = false) : d.passesBoundary (l.foldl (planeBoundary f) d) := by
  induction l generalizing d with
  | nil => exact .refl d
  | cons i l ih =>
    have h := planeBoundary_off f hs (hoff i)
    exact h.trans (ih (h.shadow.trans hs) fun p => (h.planeEn p).trans (hoff p))

theorem holdShots_passes (d : Dev) : d.passesBoundary (holdShots d) := .foldl (fun u c => .camMod u c _) _ d

/-! ### A boundary that starts a frame (R367, R375) -/

/-- The frame that a boundary starts in slot `k`: its number, time and layer, and the planes and sprites it shows. -/
def Dev.startedFrame (d : Dev) (no now k : Nat) : TapFrame where
  no := no
  sec := now / 1000000000 % 2 ^ 32
  ns := now % 1000000000
  layer := d.reg TRD_LAYER
  stale := planeMask fun (i : Plane) => d.on (TAPP_STATUS_STALE i)
  blanked := planeMask fun (i : Plane) => d.on (TAPP_STATUS_BLANKED i)
  slot := k
  sprites := d.sprites
  under := []

/-- The number of the next boundary. -/
def Dev.nextBoundary (d : Dev) : Nat := (d.reg TAP_FRAME_NO + 1) % 2 ^ 32

/-- Frame `g` is in progress, and the ring goes on at slot `next`. -/
def Tapestry.compose (g : TapFrame) (next : Nat) (t : Tapestry) : Tapestry := { t with frame := some g, nextSlot := next }

/-- The commit of the cursor plane at a boundary, with no RWS write waiting. -/
theorem cursorCommit_passes {d : Dev} (hs : d.shadow = []) : d.passesBoundary
    (if d.on TAP_CUR_COMMIT_COMMIT then (d.commit .planeCommit 0xE0400 0xE0440).put TAP_CUR_COMMIT_COMMIT 0 else d) := by
  rw [commit_nil hs]
  exact .ite _ (.put d (by decide) 0)

/-- A boundary of the memory output with a free slot takes the next number and starts a frame in that slot. -/
theorem tapBoundary_starts {now k : Nat} {d : Dev} (hen : d.on TAP_CTRL_ENABLE = true)
    (hsel : d.get TAP_CTRL_OUT_SEL = 1) (hframe : d.tap.frame = none) (hslot : d.memSlot = some k)
    (hoff : ∀ p : Plane, d.on (TAPP_CTRL_EN p) = false) (hs : d.shadow = []) :
    ∃ (t : Dev) (next : Nat), (d.setReg TAP_FRAME_NO d.nextBoundary).passesBoundary t ∧
      tapBoundary now d = t.tapMod (Tapestry.compose (t.startedFrame d.nextBoundary now k) next) := by
  unfold tapBoundary
  extract_lets sel f s1 s2 s3 s4 s5 div due s6
  have hsel' : sel = 1 := hsel
  have h1 : s1 = d.setReg TAP_FRAME_NO d.nextBoundary :=
    commit_nil (d := d.setReg TAP_FRAME_NO d.nextBoundary) hs _ _ _
  have hs1 : s1.shadow = [] := by rw [h1]; exact hs
  have hoff1 (p : Plane) : s1.on (TAPP_CTRL_EN p) = false := by
    rw [h1, on_congr (reg_setReg_ne d _ (by revert p; decide))]
    exact hoff p
  have h2 : s1.passesBoundary s2 := foldl_planeBoundary_off f _ hs1 hoff1
  have h3 : s2.passesBoundary s3 := cursorCommit_passes (h2.shadow.trans hs1)
  have h5 : s3.passesBoundary s5 := (holdShots_passes s3).trans (.tapMod _ rfl rfl rfl)
  have h6 : s1.passesBoundary s6 := ((h2.trans h3).trans h5).trans (.tapMod _ rfl rfl rfl)
  have hdue : due = true := by simp [due, hsel']
  have hnone : s6.tap.frame = none := h6.frame.trans (by rw [h1]; exact hframe)
  have hfree : s6.memSlot = some k := by
    rw [h6.memSlot, h1, ← hslot]
    simp only [Dev.memSlot, reg_setReg_ne d _ (show TAP_MEM_SLOTS ≠ TAP_FRAME_NO by decide), setReg_tap]
  refine ⟨s6, (k + 1) % max 2 (s6.reg TAP_MEM_SLOTS % 256), h1 ▸ h6, ?_⟩
  simp only [hen, hsel', hframe, hdue, hnone, hfree, Bool.not_true, ne_eq, not_true_eq_false, decide_false, decide_true,
    one_ne_zero, Bool.false_and, Bool.and_false, Bool.or_false, Option.isSome_none, Bool.false_eq_true, ↓reduceIte]
  rfl

/-- What a boundary that starts a frame leaves. -/
theorem frameStarted_spec {no now k next : Nat} {d u t : Dev} (hu : (d.setReg TAP_FRAME_NO no).passesBoundary u)
    (hno : no < 2 ^ 32) (ht : t = u.tapMod (Tapestry.compose (u.startedFrame no now k) next)) :
    t.reg TAP_FRAME_NO = no ∧ t.tap.frame = some (u.startedFrame no now k) ∧
      (u.startedFrame no now k).layer = d.reg TRD_LAYER ∧ t.ev = d.ev ∧
      Dev.regsOnly (TAP_FRAME_NO :: boundaryRegs) { d with tap := t.tap, isp := t.isp } t := by
  subst ht
  refine ⟨?number, rfl, ?layer, hu.ev, ?rest⟩
  case number =>
    rw [tapMod_reg, hu.reg (by decide), reg_setReg_same, Nat.mod_eq_of_lt hno]
  case layer => exact (hu.reg (by decide)).trans (reg_setReg_ne d _ (by decide))
  case rest =>
    obtain ⟨hall, hregs⟩ := hu.rest
    refine ⟨?_, fun a ha => ?_⟩
    · rw [hall]
      rfl
    · rw [List.mem_cons, not_or] at ha
      exact (hregs a ha.2).trans (reg_setReg_ne d _ ha.1)

theorem exec_tapFrameBoundary (tau : Nat) (s : State) :
    exec (.tapFrameBoundary tau) s = actIn 4 (fun d => tapBoundary (d.t0.nanos + tau) d) s := rfl

/-! ### A missing source line (R372, R412) -/

/-- The line of plane `i` is noted as missing from the frame in progress. -/
def Tapestry.missing (i line : Nat) (t : Tapestry) : Tapestry :=
  { t with frame := t.frame.map fun f => { f with under := (i, line) :: f.under } }

/-- TAP_UNDERRUN has been raised in this layer. -/
def Tapestry.raised (t : Tapestry) : Tapestry := { t with underSeen := true }

theorem raised_self {t : Tapestry} (h : t.underSeen = true) : t.raised = t :=
  congrArg (fun b => { t with underSeen := b }) h.symm

/-- An underrun is counted at its bobbin and at Tapestry. -/
def underrunCounted (i : Plane) (d : Dev) : Dev := (bobUnderrun (56 + i.val) d).count TAP_UNDERRUNS 1

/-- The registers that the count of an underrun changes. -/
def underrunRegs (i : Plane) : List Nat :=
  [CRLB_UNF (56 + i.val), CRLB_STATUS (56 + i.val), CRL_EVT_BOBBIN, TAP_UNDERRUNS]

theorem underrunCounted_spec (i : Plane) (d : Dev) :
    (underrunCounted i d).reg TAP_UNDERRUNS = min (d.reg TAP_UNDERRUNS + 1) 0xFFFFFFFF ∧
      (underrunCounted i d).reg (CRLB_UNF (56 + i.val)) = min (d.reg (CRLB_UNF (56 + i.val)) + 1) 0xFFFFFFFF ∧
      d.withEvent (underrunRegs i) (underrunCounted i d) := by
  obtain ⟨-, hunf, hrest⟩ := bobUnderrun_spec (b := 56 + i.val) (d := d) (by omega)
  refine ⟨?counted, ?bobbin, withEvent_regsOnly hrest (regsOnly_count _ TAP_UNDERRUNS 1)⟩
  case counted =>
    rw [underrunCounted, reg_count_same, hrest.2 _ ?_ (by decide)]
    simp only [List.mem_cons, List.not_mem_nil, or_false, TAP_UNDERRUNS, CRLB_UNF, CRLB_STATUS, CRL_EVT_BOBBIN]
    omega
  case bobbin =>
    rw [underrunCounted, reg_count_ne _ _ (by simp only [CRLB_UNF, TAP_UNDERRUNS]; omega), hunf]

/-- The count of an underrun, and the line noted as missing. -/
def underrunNoted (i : Plane) (line : Nat) (d : Dev) : Dev :=
  (underrunCounted i d).tapMod (Tapestry.missing i.val line)

theorem underrunNoted_tap (i : Plane) (line : Nat) (d : Dev) :
    (underrunNoted i line d).tap = d.tap.missing i.val line := by
  obtain ⟨-, -, hcounted⟩ := underrunCounted_spec i d
  show (underrunCounted i d).tap.missing i.val line = _
  rw [hcounted.1]

/-- The flag of an underrun, which names fault `code`. -/
def underrunShown (i : Plane) (line code : Nat) (d : Dev) : Dev :=
  flagEvent TAP_FLAGS_UNDERRUN 210 i.val code (underrunNoted i line d)

theorem underrunShown_spec (i : Plane) (line code : Nat) (d : Dev) :
    (underrunShown i line code d).on TAP_FLAGS_UNDERRUN = true ∧
      (underrunNoted i line d).withEvent [TAP_FLAGS] (underrunShown i line code d) ∧
      (underrunShown i line code d).tap = d.tap.missing i.val line := by
  obtain ⟨hrest, hon⟩ := flagEvent_spec TAP_FLAGS_UNDERRUN 210 i.val code (underrunNoted i line d) (by decide) rfl
    (by decide) (by decide)
  refine ⟨hon, hrest, ?_⟩
  rw [underrunShown, hrest.1]
  exact underrunNoted_tap i line d

theorem tapUnderrun_eq (i : Plane) (line : Nat) (d : Dev) : tapUnderrun i line d =
    if (underrunNoted i line d).tap.underSeen then underrunShown i line 0 d
    else fault 0x75 sevInfo i.val ((underrunShown i line 0x75 d).tapMod Tapestry.raised) := by
  unfold tapUnderrun
  extract_lets s1 s2 first s3
  have hnoted : s2 = underrunNoted i line d := rfl
  have hshown : s3 = underrunShown i line (if first then 0x75 else 0) d := rfl
  have hfirst : first = !(underrunNoted i line d).tap.underSeen := rfl
  rw [hshown, hfirst]
  cases (underrunNoted i line d).tap.underSeen <;> rfl

/-- The fault TAP_UNDERRUN, at most once per layer (R372): once it is raised, that it was raised stands. -/
theorem tapUnderrun_raises (i : Plane) (line : Nat) (d : Dev) : ∃ code,
    Dev.withFault [] ((underrunShown i line code d).tapMod Tapestry.raised) (tapUnderrun i line d) := by
  rw [tapUnderrun_eq]
  split
  next hseen =>
    refine ⟨0, ?_⟩
    have hself : (underrunShown i line 0 d).tapMod Tapestry.raised = underrunShown i line 0 d := by
      rw [underrunNoted_tap] at hseen
      rw [Dev.tapMod, raised_self]
      rw [(underrunShown_spec i line 0 d).2.2]
      exact hseen
    rw [hself]
    exact withEvent_fault (withEvent_refl _ [])
  next =>
    exact ⟨0x75, withFault_of (regsOnly_refl _ []) (faultD_faultOnly 0x75 sevInfo i.val 0 0 _ (by decide))⟩

/-- What a missing source line leaves. -/
theorem tapUnderrun_spec (i : Plane) (line : Nat) (d : Dev) :
    (tapUnderrun i line d).on TAP_FLAGS_UNDERRUN = true ∧
      (tapUnderrun i line d).reg TAP_UNDERRUNS = min (d.reg TAP_UNDERRUNS + 1) 0xFFFFFFFF ∧
      (tapUnderrun i line d).reg (CRLB_UNF (56 + i.val)) = min (d.reg (CRLB_UNF (56 + i.val)) + 1) 0xFFFFFFFF ∧
      (tapUnderrun i line d).tap = (d.tap.missing i.val line).raised ∧
      Dev.withFault (underrunRegs i ++ [TAP_FLAGS]) { d with tap := (tapUnderrun i line d).tap } (tapUnderrun i line d) := by
  obtain ⟨code, hfault⟩ := tapUnderrun_raises i line d
  obtain ⟨hon, hshown, htap⟩ := underrunShown_spec i line code d
  obtain ⟨htotal, hunf, hcounted⟩ := underrunCounted_spec i d
  generalize tapUnderrun i line d = t at hfault ⊢
  have hkeep {a : Nat} (ha : a ≠ TAP_FLAGS) (hf : faultReg a = false) : t.reg a = (underrunCounted i d).reg a :=
    (hfault.2 a (by simp) hf).trans (hshown.2 a (by simpa using ha) (eventReg_of_faultReg hf))
  have htap' : t.tap = (d.tap.missing i.val line).raised := by
    rw [hfault.1, ← htap]
    rfl
  refine ⟨?flag, ?total, ?bobbin, htap', ?rest⟩
  case flag => exact (on_withFault hfault (by simp) (by decide)).trans hon
  case total => exact (hkeep (by decide) (by decide)).trans htotal
  case bobbin =>
    refine (hkeep ?_ (faultReg_block ?_)).trans hunf
    · simp only [CRLB_UNF, TAP_FLAGS]
      omega
    · rw [show CRLB_UNF (56 + i.val) / 0x10000 = 3 by simp only [CRLB_UNF]; omega]
      rfl
  case rest =>
    have hbefore := withEvent_trans (withEvent_tap hcounted t.tap) (withEvent_tap hshown t.tap)
    have hraised : (underrunShown i line code d).tapMod Tapestry.raised =
        { underrunShown i line code d with tap := t.tap } := by
      rw [htap', ← htap]
      rfl
    rw [hraised] at hfault
    exact withFault_mono (withFault_trans (withEvent_fault hbefore) hfault) (by simp)

theorem exec_tapUnderrun (i : Plane) (line : Nat) (s : State) :
    exec (.tapUnderrun i line) s = actIn 4 (tapUnderrun i line) s := rfl

/-! ### A frame written to its slot (R365, R375) -/

/-- The first bytes stored are the first bytes loaded. -/
theorem loadBytes_storeBytes_append (b : Byte) (m : List Host.Cell) (a : Nat) (xs ys : List Byte) :
    loadBytes b (storeBytes b m a (xs ++ ys)) a xs.length = xs := by
  have hall := loadBytes_storeBytes b m a (xs ++ ys)
  rw [List.length_append, loadBytes, List.range_add, List.map_append] at hall
  exact List.append_inj_left hall (by simp [loadBytes])

section
variable {d : Dev} {f : TapFrame}

/-- The width and the height of the frame (R378). -/
def Dev.frameW (d : Dev) : Nat := d.reg TAP_FRAME % 65536
def Dev.frameH (d : Dev) : Nat := d.reg TAP_FRAME / 65536

/-- A pixel of the frame as ARGB8888 (R365). -/
def Dev.argbPixel (d : Dev) (f : TapFrame) (x y : Nat) : List Byte :=
  leBytes 1 (d.composed f x y).2.2 ++ leBytes 1 (d.composed f x y).2.1 ++ leBytes 1 (d.composed f x y).1 ++ leBytes 1 255

def Dev.framePixels (d : Dev) (f : TapFrame) : List Byte :=
  (List.range d.frameH).flatMap fun y => (List.range d.frameW).flatMap fun x => d.argbPixel f x y

/-- The header of a frame in ARGB8888 (R375). -/
def Dev.frameHeader (d : Dev) (f : TapFrame) : List Byte :=
  wordsBytes [f.no, f.sec, f.ns, d.reg TAP_FRAME, b2n (!f.under.isEmpty) * 2 ^ 16 + f.blanked * 256 + f.stale, f.layer, 0, 0]

theorem length_argbPixel (d : Dev) (f : TapFrame) (x y : Nat) : (d.argbPixel f x y).length = 4 := by
  simp [Dev.argbPixel, length_leBytes]

theorem length_framePixels (d : Dev) (f : TapFrame) : (d.framePixels f).length = d.frameW * d.frameH * 4 := by
  simp [Dev.framePixels, List.length_flatMap, length_argbPixel]
  ring

theorem length_frameHeader (d : Dev) (f : TapFrame) : (d.frameHeader f).length = 32 := length_wordsBytes _

theorem length_frameBytes (d : Dev) (f : TapFrame) :
    (d.frameHeader f ++ d.framePixels f).length = 32 + d.frameW * d.frameH * 4 := by
  rw [List.length_append, length_frameHeader, length_framePixels]

/-- The address of a frame's slot of the ring (R375). -/
def Dev.frameAddr (d : Dev) (f : TapFrame) : Nat :=
  d.reg TAP_MEM_BASE % 65536 * 1048576 + f.slot * (divUp (32 + d.frameW * d.frameH * 4) 4096 * 4096)

/-- The DRAM holds the frame, its controller is left as `x`, and no frame is in progress. -/
def frameKeptAs (f : TapFrame) (x : Dram) (d : Dev) : Dev :=
  { d with
    dram := storeBytes ramDefault d.dram (d.frameAddr f) (d.frameHeader f ++ d.framePixels f)
    drc := x, free := d.free + 1, tap := { d.tap with frame := none } }

theorem memFrame_stores (hframe : d.tap.frame = some f) (hexport : d.on TAP_MEM_CFG_EXPORT = false)
    (hformat : d.on TAP_MEM_CFG_FORMAT = false)
    (hfit : d.inDram (d.frameAddr f) (32 + d.frameW * d.frameH * 4) = true) :
    ∃ x, memFrame d = occur 212 0xFF 0 (frameKeptAs f x d) := by
  obtain ⟨x, hx⟩ := dramWrite_inside (bs := d.frameHeader f ++ d.framePixels f) ((length_frameBytes d f).symm ▸ hfit)
  refine ⟨x, ?_⟩
  have hsize : d.reg TAP_FRAME / 65536 * 65536 + d.reg TAP_FRAME % 65536 = d.reg TAP_FRAME := Nat.div_add_mod' _ _
  have hquiet : (occur 212 0xFF 0 (frameKeptAs f x d)).on TAP_MEM_CFG_EXPORT = false :=
    (on_congr (reg_occur _ _ _ _ _ (by decide) (by decide))).trans hexport
  unfold memFrame
  split
  next h => simp [hframe] at h
  next g hg =>
  obtain rfl : f = g := Option.some.inj (hframe.symm.trans hg)
  extract_lets w h rgb head pix slot s1 s2 s3
  have hrgb : rgb = false := hformat
  have hhead : head = d.frameHeader f := by
    simp only [head, hrgb, w, h, hsize, b2n, Bool.false_eq_true, ↓reduceIte, Nat.zero_mul, Nat.zero_add]
    rfl
  have hpix : pix = d.framePixels f := by
    simp only [pix, hrgb, Bool.false_eq_true, ↓reduceIte]
    rfl
  have hslot : slot = divUp (32 + d.frameW * d.frameH * 4) 4096 * 4096 := by
    simp only [slot, hrgb, Bool.false_eq_true, ↓reduceIte]
    rfl
  have h1 : s1 = dramWrite (d.frameAddr f) (d.frameHeader f ++ d.framePixels f) d := by
    simp only [s1, hhead, hpix, hslot]
    rfl
  have h2 : s2 = frameKeptAs f x d := by
    simp only [s2, h1, hx]
    rfl
  have h3 : s3 = occur 212 0xFF 0 (frameKeptAs f x d) := by simp only [s3, h2]
  rw [h3, hquiet]
  rfl

/-- What a frame written to its slot leaves. -/
theorem frameKept_spec {x : Dram} {t : Dev} (ht : EventOnly (frameKeptAs f x d) t) :
    t.tap = { d.tap with frame := none } ∧ t.dramBytes (d.frameAddr f) 32 = d.frameHeader f ∧
      sameOutside ramDefault (d.frameAddr f) (32 + d.frameW * d.frameH * 4) d.dram t.dram ∧
      Dev.withEvent [] { d with tap := t.tap, dram := t.dram, drc := t.drc, free := t.free } t := by
  have hdram : t.dram = storeBytes ramDefault d.dram (d.frameAddr f) (d.frameHeader f ++ d.framePixels f) := by
    rw [ht.rest]
    rfl
  refine ⟨?tap, ?header, ?outside, ?rest, fun a _ ha => ht.regs a ha⟩
  case tap =>
    rw [ht.rest]
    rfl
  case header =>
    rw [Dev.dramBytes, hdram, ← length_frameHeader d f]
    exact loadBytes_storeBytes_append ramDefault _ _ _ _
  case outside =>
    intro a ha
    rw [hdram]
    exact sget_storeBytes_out ramDefault ramDefault _ _ _ _ (by rwa [length_frameBytes])
  case rest =>
    rw [ht.rest]
    rfl

theorem exec_memFrameDone (s : State) : exec .memFrameDone s = actIn 4 memFrame s := rfl

end

/-- Settles O6: a boundary by the frame that it starts, a missing line by its count, flag and fault, a composed frame by
what its slot holds. -/
theorem tapestryFrames : Obligations.TapestryFrames := by
  unfold Obligations.TapestryFrames
  intro i line tau k n f s hrun hc hs
  refine ⟨?boundary, ?underrun, ?written⟩
  case boundary =>
    intro hen hsel hframe hslot hoff
    obtain ⟨u, next, hu, hdo⟩ := tapBoundary_starts (now := s.dev.t0.nanos + tau) hen hsel hframe hslot hoff hs
    obtain ⟨hno, hstarted, hlayer, hev, hrest⟩ := frameStarted_spec hu (Nat.mod_lt _ (by decide)) hdo
    rw [exec_tapFrameBoundary]
    exact ⟨_, actIn_run hrun (by rw [hev]; exact hc.1), hno, ⟨_, hstarted, hno.symm, rfl, hlayer, rfl, rfl⟩,
      regsOnly_mono hrest (by decide)⟩
  case underrun =>
    rw [exec_tapUnderrun]
    obtain ⟨hon, htotal, hunf, htap, hrest⟩ := tapUnderrun_spec i line s.dev
    exact ⟨_, actIn_run hrun ((tapUnderrun_within i line s.dev).calm hc).1, hon, htotal, hunf, htap,
      withFault_mono hrest (by simp [underrunRegs])⟩
  case written =>
    rintro hframe rfl hexport hformat rfl hfit
    obtain ⟨x, hdo⟩ := memFrame_stores hframe hexport hformat hfit
    have hcomplete := occur_eventOnly 212 0xFF 0 (frameKeptAs f x s.dev) (by decide)
    obtain ⟨htap, hhead, houtside, hrest⟩ := frameKept_spec hcomplete
    rw [exec_memFrameDone]
    exact ⟨_, actIn_of_eq hrun hdo ((hcomplete.quiet hc.2).trans hc.1), htap, occur_pends 212 0xFF 0 _ (by decide), hhead,
      houtside, hrest⟩

end Sys2Proof.Machine

namespace Sys2Proof.Machine

open Reg

/- The proofs of this part are elaborated one after another: side by side they would hold more threads than the memory of
the check has room for. -/
set_option Elab.async false

/-!
PROOFS of what holds of every step: how each command of the table acts, what that leaves of the fuses and of the queue,
and that none acts in reset.
-/

/-! ### The shapes of a command (R49, R509) -/

/-- A command acts on the device alone, while a clock runs or PORST_N is high; its outcome is `r`. -/
inductive ActsOnDevice (s : State) : Done → Prop
  | inDomain (k : Nat) (d : Dev) : ActsOnDevice s (.next { s with dev := if s.dev.runs k then d else s.dev })
  | onPath (d : Dev) : ActsOnDevice s (.next { s with dev := if s.dev.start.porstLow then s.dev else d })

/-- The commands that reach further than the device: those that program fuses, and those of PORST_N and the supplies. -/
def Instr.reachesFuses : Instr → Bool
  | .porstRelease | .porstNLow | .supplyLoss _ | .lcProgrammed | .fuseDone _ => true
  | _ => false

/-- Every command but those that reach the fuses is an operation on the device. -/
theorem exec_actsOnDevice (c : Instr) (s : State) (h : Instr.reachesFuses c = false) : ActsOnDevice s (exec c s) := by
  cases c with
  | porstRelease | porstNLow | supplyLoss | lcProgrammed | fuseDone => exact absurd h (by simp [Instr.reachesFuses])
  | registerWrite | registerReadClear | jtagDoffAddr | jtagDoffRead | jtagMgmt | jtagIdcode | jtagBoundaryScan =>
    exact .onPath _
  | _ => exact .inDomain _ _

theorem ActsOnDevice.outcome {s : State} {r : Done} (h : ActsOnDevice s r) : ∃ d, r = .next { s with dev := d } := by
  cases h with
  | inDomain | onPath => exact ⟨_, rfl⟩

/-- In reset an operation on the device is dropped. -/
theorem ActsOnDevice.dropped {s : State} {r : Done} (h : ActsOnDevice s r) (hp : s.dev.start.porstLow = true) :
    r = .next s := by
  cases h with
  | inDomain | onPath => simp [Dev.runs, hp]

theorem actFuse_dropped (f : Otp → Dev → Otp × Dev) {s : State} (hp : s.dev.start.porstLow = true) :
    actFuse f s = .next s := by
  simp [actFuse, hp]

/-! ### The fuses (R512 to R514, R681) -/

theorem Otp.within_refl (o : Otp) : o.within o := ⟨le_rfl, le_rfl, fun _ => rfl, fun _ => rfl⟩

theorem Otp.within_trans {o p q : Otp} (h : o.within p) (k : p.within q) : o.within q := by
  obtain ⟨hlife, hepoch, hhash, hkek⟩ := h
  obtain ⟨klife, kepoch, khash, kkek⟩ := k
  exact ⟨hlife.trans klife, hepoch.trans kepoch,
    fun x => (khash (by rw [hhash x]; exact x)).trans (hhash x), fun x => (kkek (by rw [hkek x]; exact x)).trans (hkek x)⟩

/-- A fuse that is programmed keeps its value when it is programmed again. -/
theorem or_of_isSome {α : Type} {x y : Option α} (h : x.isSome = true) : x.or y = x := by
  cases x with
  | none => exact absurd h (by simp)
  | some a => rfl

theorem Otp.within_fuse (o : Otp) (op : Nat) (data : List Byte) : o.within (o.fuse op data) := by
  unfold Otp.fuse
  split
  · exact ⟨le_rfl, le_rfl, or_of_isSome, fun _ => rfl⟩
  · exact ⟨le_rfl, le_rfl, fun _ => rfl, or_of_isSome⟩
  · exact ⟨le_rfl, le_max_left _ _, fun _ => rfl, fun _ => rfl⟩
  · exact o.within_refl

theorem Otp.within_advance (o : Otp) (t : Nat) : o.within (o.advance t) :=
  ⟨le_max_left _ _, le_rfl, fun _ => rfl, fun _ => rfl⟩

theorem fuseDone_otp (b : Bool) (o : Otp) (d : Dev) : o.within (fuseDone b o d).1 := by
  unfold fuseDone
  split
  · exact o.within_refl
  · split
    · exact o.within_fuse _ _
    · exact o.within_refl

theorem lcDone_otp (o : Otp) (d : Dev) : o.within (lcDone o d).1 := by
  unfold lcDone
  split
  · exact o.within_refl
  · exact o.within_advance _

/-- Wherever programming is cut short, what the fuses held stays. -/
theorem programmingCut_otp (o : Otp) (d : Dev) : o.within (programmingCut o d).1 := by
  have hfuse := fuseDone_otp ((d.fresh 1).1 == 1) o (d.fresh 1).2
  unfold programmingCut
  dsimp only
  split
  · exact hfuse
  · split
    · exact Otp.within_trans hfuse (lcDone_otp _ _)
    · exact hfuse

theorem porstLow_otp (o : Otp) (d : Dev) : o.within (porstLow o d).1 := programmingCut_otp o d

/-- The outcome `r` is a next state with the same queue, of which the fuses hold what those of `s` hold. -/
def Forward (s : State) (r : Done) : Prop := ∃ t, r = .next t ∧ s.otp.within t.otp ∧ t.pending = s.pending

theorem actFuse_forward {f : Otp → Dev → Otp × Dev} (hf : ∀ (o : Otp) (d : Dev), o.within (f o d).1) (s : State) :
    Forward s (actFuse f s) := by
  unfold actFuse
  split
  · exact ⟨s, rfl, s.otp.within_refl, rfl⟩
  · exact ⟨_, rfl, hf _ _, rfl⟩

theorem supplyLoss_forward (r : Rail) (s : State) : Forward s (execSupplyLoss r s) := by
  cases r with
  | vppFuse =>
    refine ⟨_, rfl, ?_, rfl⟩
    change s.otp.within (if s.dev.start.porstLow then (s.otp, s.dev) else programmingCut s.otp s.dev).1
    split
    · exact s.otp.within_refl
    · exact programmingCut_otp _ _
  | vddAon | vddio33 | other => exact ⟨_, rfl, porstLow_otp s.otp s.dev, rfl⟩

/-- Every command answers a next state, keeps the queue, and keeps what the fuses hold. -/
theorem exec_forward (c : Instr) (s : State) : Forward s (exec c s) := by
  cases hc : Instr.reachesFuses c with
  | false =>
    obtain ⟨d, hd⟩ := (exec_actsOnDevice c s hc).outcome
    exact ⟨_, hd, s.otp.within_refl, rfl⟩
  | true =>
    cases c with
    | porstRelease => exact ⟨_, rfl, s.otp.within_refl, rfl⟩
    | porstNLow => exact ⟨_, rfl, porstLow_otp s.otp s.dev, rfl⟩
    | supplyLoss r => exact supplyLoss_forward r s
    | lcProgrammed => exact actFuse_forward lcDone_otp s
    | fuseDone b => exact actFuse_forward (fuseDone_otp b) s
    | _ => exact absurd hc (by simp [Instr.reachesFuses])

/-- Beside the commands named, none changes a fuse. -/
theorem exec_otp {c : Instr} {s t : State} (h : exec c s = .next t) (hlc : c ≠ .lcProgrammed) (hlow : c ≠ .porstNLow)
    (hfuse : ∀ b, c ≠ .fuseDone b) (hrail : ∀ r, c ≠ .supplyLoss r) : t.otp = s.otp := by
  cases hc : Instr.reachesFuses c with
  | false =>
    obtain ⟨d, hd⟩ := (exec_actsOnDevice c s hc).outcome
    rw [hd] at h
    cases h
    rfl
  | true =>
    cases c with
    | porstRelease => cases h; rfl
    | porstNLow => exact absurd rfl hlow
    | supplyLoss r => exact absurd rfl (hrail r)
    | lcProgrammed => exact absurd rfl hlc
    | fuseDone b => exact absurd rfl (hfuse b)
    | _ => exact absurd hc (by simp [Instr.reachesFuses])

theorem step_idle {s : State} (h : s.pending = []) : step s = .next s := by
  simp [step, h]

theorem step_front {s : State} {c : Instr} {rest : List Instr} (h : s.pending = c :: rest) :
    step s = exec c { s with pending := rest } := by
  simp [step, h]

/-- Settles O57: a step by what stands at the front of the queue. -/
theorem stepRunsFront : Obligations.StepRunsFront := by
  unfold Obligations.StepRunsFront
  exact fun c rest s => ⟨step_front rfl, step_idle⟩

/-- Settles O59: an idle step changes nothing; of the others `exec_forward` says what they keep, and `exec_otp` which of
them leave the fuses alone. -/
theorem fusesOnlyMoveForward : Obligations.FusesOnlyMoveForward := by
  unfold Obligations.FusesOnlyMoveForward
  intro o s t hstep
  cases hq : s.pending with
  | nil =>
    rw [step_idle hq] at hstep
    cases hstep
    exact ⟨id, fun _ _ _ _ => rfl, hq⟩
  | cons c rest =>
    rw [step_front hq] at hstep
    obtain ⟨u, hu, hotp, hpending⟩ := exec_forward c { s with pending := rest }
    obtain rfl : u = t := by
      rw [hu] at hstep
      cases hstep
      rfl
    refine ⟨fun h => Otp.within_trans h hotp, fun hlc hlow hfuse hrail => ?_, hpending⟩
    simp only [List.head?_cons, ne_eq, Option.some.injEq] at hlc hlow hfuse hrail
    exact exec_otp (s := { s with pending := rest }) hstep hlc hlow hfuse hrail

/-- Settles O60: an operation on the device and a programming of fuses are dropped in reset; the rest are named. -/
theorem heldInReset : Obligations.HeldInReset := by
  unfold Obligations.HeldInReset
  intro c s hp hrelease hlow hrail
  cases hc : Instr.reachesFuses c with
  | false => exact (exec_actsOnDevice c s hc).dropped hp
  | true =>
    cases c with
    | porstRelease => exact absurd rfl hrelease
    | porstNLow => exact absurd rfl hlow
    | supplyLoss r => exact absurd rfl (hrail r)
    | lcProgrammed => exact actFuse_dropped lcDone hp
    | fuseDone b => exact actFuse_dropped (fuseDone b) hp
    | _ => exact absurd hc (by simp [Instr.reachesFuses])

/-!
PROOFS, support: what an effect touches, as one relation that composes at a fixed bound: the registers that it may change
by name, what comes beside them (an occurrence of an event, the detection of a fault), and the parts of the device.
-/

/-! ### What comes beside the registers named -/

/-- What an effect brings with it: nothing, occurrences of events, or detections of faults. -/
inductive Reach where
  | plain | event | fault
deriving DecidableEq

/-- The registers that come beside those named. -/
def Reach.reg : Reach → Nat → Bool
  | .plain => fun _ => false
  | .event => eventReg
  | .fault => faultReg

/-- The parts of the device that come beside those named. -/
def Reach.parts : Reach → List Part
  | .plain => []
  | .event => [.ev, .wal]
  | .fault => [.ev, .wal, .flt, .dof, .mpl]

/-- A register that configures no event and holds no pending bits. -/
def silentReg (a : Nat) : Bool := !cfgReg a && !(0x20020 ≤ a && a < 0x20040)

theorem silentReg_of_block {a n : Nat} (h : a / 0x10000 = n) (hn : n ≠ 2 := by decide) : silentReg a = true := by
  simp only [silentReg, cfgReg, Bool.and_eq_true, Bool.not_eq_true', Bool.and_eq_false_iff, decide_eq_false_iff_not]
  omega

theorem silentReg_pend {a i : Nat} (h : silentReg a = true) (hi : i < 8) : EVT_PEND i ≠ a := by
  simp only [silentReg, Bool.and_eq_true, Bool.not_eq_true', Bool.and_eq_false_iff, decide_eq_false_iff_not] at h
  simp only [EVT_PEND]
  omega

theorem silentReg_cfg {a : Nat} (h : silentReg a = true) : cfgReg a = false := by
  simp only [silentReg, Bool.and_eq_true, Bool.not_eq_true'] at h
  exact h.1

/-- `t` differs from `d` in nothing but the registers `L` and the parts `P`, and what `m` brings beside them; it is calm
where `d` is, and every pending event stays pending. -/
structure Dev.touches (m : Reach) (P : List Part) (L : List Nat) (d t : Dev) : Prop where
  regs : ∀ a, a ∉ L → m.reg a = false → t.reg a = d.reg a
  parts : ∀ p : Part, p ∉ P → p ∉ m.parts → p.same d t
  calm : d.calm → t.calm
  pends : d.keepsPending t

namespace Dev.touches

variable {m : Reach} {P : List Part} {L : List Nat} {d t u : Dev}

theorem refl (d : Dev) : Dev.touches m P L d d :=
  ⟨fun _ _ _ => rfl, fun p _ _ => p.same_refl d, id, keepsPending_refl d⟩

theorem trans (h : Dev.touches m P L d t) (k : Dev.touches m P L t u) : Dev.touches m P L d u where
  regs a ha hm := (k.regs a ha hm).trans (h.regs a ha hm)
  parts p hp hm := Part.same_trans (h.parts p hp hm) (k.parts p hp hm)
  calm c := k.calm (h.calm c)
  pends := keepsPending_trans h.pends k.pends

theorem ite (c : Prop) [Decidable c] (h : Dev.touches m P L d t) (k : Dev.touches m P L d u) :
    Dev.touches m P L d (if c then t else u) := by
  split
  · exact h
  · exact k

theorem foldl {α : Type} {g : Dev → α → Dev} (hg : ∀ (v : Dev) x, Dev.touches m P L v (g v x)) (l : List α) (d : Dev) :
    Dev.touches m P L d (l.foldl g d) := by
  induction l generalizing d with
  | nil => exact refl d
  | cons x l ih => exact (hg d x).trans (ih _)

theorem foldl_mem {α : Type} {g : Dev → α → Dev} (l : List α) (hg : ∀ (v : Dev) x, x ∈ l → Dev.touches m P L v (g v x))
    (d : Dev) : Dev.touches m P L d (l.foldl g d) := by
  induction l generalizing d with
  | nil => exact refl d
  | cons x l ih => exact (hg d x (by simp)).trans (ih (fun v y hy => hg v y (by simp [hy])) _)

/-- More may be named than changes. -/
theorem mono {Q : List Part} {M : List Nat} (h : Dev.touches m P L d t) (hp : P ⊆ Q) (hl : L ⊆ M) :
    Dev.touches m Q M d t where
  regs a ha := h.regs a fun hb => ha (hl hb)
  parts p hq := h.parts p fun hb => hq (hp hb)
  calm := h.calm
  pends := h.pends

/-- What brings nothing may stand where something is brought. -/
theorem ofPlain (h : Dev.touches .plain P L d t) : Dev.touches m P L d t where
  regs a ha _ := h.regs a ha rfl
  parts p hp _ := h.parts p hp (by simp [Reach.parts])
  calm := h.calm
  pends := h.pends

/-! #### Registers -/

theorem setReg (d : Dev) (a v : Nat) (ha : a ∈ L) (hs : silentReg a = true := by decide) :
    Dev.touches m P L d (d.setReg a v) where
  regs b hb _ := reg_setReg_ne d v fun h => hb (h ▸ ha)
  parts p _ _ := by cases p <;> rfl
  calm c := calm_setReg c a v (silentReg_cfg hs)
  pends e he h := by rwa [Dev.pends, reg_setReg_ne _ _ (silentReg_pend hs (by omega))]

theorem put (d : Dev) (f : Field) (v : Nat) (ha : f.addr ∈ L) (hs : silentReg f.addr = true := by decide) :
    Dev.touches m P L d (d.put f v) := setReg d _ _ ha hs

theorem count (d : Dev) (a k : Nat) (ha : a ∈ L) (hs : silentReg a = true := by decide) :
    Dev.touches m P L d (d.count a k) := setReg d _ _ ha hs

theorem countF (d : Dev) (f : Field) (ha : f.addr ∈ L) (hs : silentReg f.addr = true := by decide) :
    Dev.touches m P L d (d.countF f) := setReg d _ _ ha hs

theorem setRegS (d : Dev) (a : Nat) (v : Int) (ha : a ∈ L) (hs : silentReg a = true := by decide) :
    Dev.touches m P L d (d.setRegS a v) := setReg d _ _ ha hs

theorem foldl_setReg {α : Type} (r v : α → Nat) (l : List α) (d : Dev) (hr : ∀ x ∈ l, r x ∈ L)
    (hs : ∀ x ∈ l, silentReg (r x) = true) :
    Dev.touches m P L d (l.foldl (fun (t : Dev) x => t.setReg (r x) (v x)) d) :=
  foldl_mem l (fun u x hx => setReg u _ _ (hr x hx) (hs x hx)) d

/-! #### Parts -/

/-- An operation on parts alone, as the laws of the units state it. -/
theorem ofWithin {Q : List Part} (h : d.within Q [] t) (hq : Q ⊆ P) : Dev.touches m P L d t where
  regs a _ _ := h.frame.1 a rfl
  parts p hp _ := h.frame.2 p (by
    rw [List.contains_eq_mem, decide_eq_false_iff_not]
    exact fun hc => hp (hq hc))
  calm := h.calm
  pends := within_keepsPending h rfl

/-! #### Occurrences and detections -/

theorem ofEventOnly (h : EventOnly d t) (hm : m ≠ .plain) : Dev.touches m P L d t where
  regs a _ ha := h.regs a (by
    cases m with
    | plain => exact absurd rfl hm
    | event => exact ha
    | fault => exact eventReg_of_faultReg ha)
  parts p _ hp := by
    cases m with
    | plain => exact absurd rfl hm
    | event | fault =>
      simp only [Reach.parts, List.mem_cons, not_or] at hp
      exact h.part p hp.1 hp.2.1
  calm := h.calm
  pends := h.keepsPending

theorem ofFaultOnly (h : FaultOnly d t) : Dev.touches .fault P L d t where
  regs a _ ha := h.regs a ha
  parts p _ hp := by
    have hrest := h.rest
    generalize hu : t.regs = r, t.ev = v, t.wal = w, t.flt = f, t.dof = o, t.mpl = x at hrest
    subst hrest
    cases p <;> first | rfl | simp [Reach.parts] at hp
  calm := h.calm
  pends := h.keepsPending

theorem occur (e inst code : Nat) (d : Dev) (he : e < 256 := by decide) (hm : m ≠ .plain := by decide) :
    Dev.touches m P L d (occur e inst code d) := ofEventOnly (occur_eventOnly e inst code d he) hm

theorem stage (r : LogRec) (d : Dev) (hm : m ≠ .plain := by decide) : Dev.touches m P L d (stage r d) :=
  ofEventOnly (stage_eventOnly r d) hm

theorem faultD (code sev inst d0 d1 : Nat) (d : Dev) (hc : code < 256 := by decide) :
    Dev.touches .fault P L d (faultD code sev inst d0 d1 d) := ofFaultOnly (faultD_faultOnly code sev inst d0 d1 d hc)

theorem fault (code sev inst : Nat) (d : Dev) (hc : code < 256 := by decide) :
    Dev.touches .fault P L d (fault code sev inst d) := faultD code sev inst 0 0 d hc

theorem faultEvent (code sev inst e : Nat) (d : Dev) (hc : code < 256 := by decide) (he : e < 256 := by decide) :
    Dev.touches .fault P L d (faultEvent code sev inst e d) := ofFaultOnly (faultEvent_spec code sev inst e d hc he).1

theorem flagEvent (f : Field) (e inst code : Nat) (d : Dev) (ha : f.addr ∈ L) (hs : silentReg f.addr = true := by decide)
    (he : e < 256 := by decide) (hm : m ≠ .plain := by decide) : Dev.touches m P L d (flagEvent f e inst code d) := by
  unfold Machine.flagEvent
  split
  · exact refl d
  · exact (put d f 1 ha hs).trans (occur e inst code _ he hm)

/-! #### The relations of the statements -/

/-- A register not named reads as before, and so does a field of it. -/
theorem reg (h : Dev.touches m P L d t) {a : Nat} (ha : a ∉ L) (hm : m.reg a = false) : t.reg a = d.reg a :=
  h.regs a ha hm

theorem get (h : Dev.touches m P L d t) {f : Field} (ha : f.addr ∉ L) (hm : m.reg f.addr = false) : t.get f = d.get f := by
  simp only [Dev.get, h.regs _ ha hm]

theorem on (h : Dev.touches m P L d t) {f : Field} (ha : f.addr ∉ L) (hm : m.reg f.addr = false) : t.on f = d.on f :=
  on_congr (h.regs _ ha hm)

end Dev.touches

/-- The device `d` with the parts `P` of `t`. -/
def Dev.taking (P : List Part) (d t : Dev) : Dev where
  regs := d.regs
  shadow := bif P.contains .shadow then t.shadow else d.shadow
  free := bif P.contains .free then t.free else d.free
  grid := bif P.contains .grid then t.grid else d.grid
  bases := bif P.contains .bases then t.bases else d.bases
  ev := bif P.contains .ev then t.ev else d.ev
  flt := bif P.contains .flt then t.flt else d.flt
  wal := bif P.contains .wal then t.wal else d.wal
  chain := bif P.contains .chain then t.chain else d.chain
  trd := bif P.contains .trd then t.trd else d.trd
  creel := bif P.contains .creel then t.creel else d.creel
  dram := bif P.contains .dram then t.dram else d.dram
  flash := bif P.contains .flash then t.flash else d.flash
  dof := bif P.contains .dof then t.dof else d.dof
  axes := bif P.contains .axes then t.axes else d.axes
  sht := bif P.contains .sht then t.sht else d.sht
  start := bif P.contains .start then t.start else d.start
  lmp := bif P.contains .lmp then t.lmp else d.lmp
  isp := bif P.contains .isp then t.isp else d.isp
  crl := bif P.contains .crl then t.crl else d.crl
  sec := bif P.contains .sec then t.sec else d.sec
  pins := bif P.contains .pins then t.pins else d.pins
  mpl := bif P.contains .mpl then t.mpl else d.mpl
  tap := bif P.contains .tap then t.tap else d.tap
  drc := bif P.contains .drc then t.drc else d.drc
  shd := bif P.contains .shd then t.shd else d.shd
  reed := bif P.contains .reed then t.reed else d.reed
  lnk := bif P.contains .lnk then t.lnk else d.lnk
  lanes := bif P.contains .lanes then t.lanes else d.lanes
  trm := bif P.contains .trm then t.trm else d.trm
  thm := bif P.contains .thm then t.thm else d.thm
  mgm := bif P.contains .mgm then t.mgm else d.mgm

theorem cond_eq_of {α : Type} {b : Bool} {x y : α} (h : b = false → x = y) : x = bif b then x else y := by
  cases b with
  | true => rfl
  | false => exact h rfl

/-- A device whose parts outside `P` are those of `d` is `d` with the parts `P`, but for the registers. -/
theorem eq_taking {P : List Part} {d t : Dev} (h : ∀ p : Part, P.contains p = false → p.same d t) :
    t = { Dev.taking P d t with regs := t.regs } := by
  have hpart (p : Part) (hp : P.contains p = false) := h p hp
  cases t
  simp only [Dev.taking, Dev.mk.injEq, true_and]
  exact ⟨cond_eq_of (hpart .shadow), cond_eq_of (hpart .free), cond_eq_of (hpart .grid), cond_eq_of (hpart .bases),
    cond_eq_of (hpart .ev), cond_eq_of (hpart .flt), cond_eq_of (hpart .wal), cond_eq_of (hpart .chain),
    cond_eq_of (hpart .trd), cond_eq_of (hpart .creel), cond_eq_of (hpart .dram), cond_eq_of (hpart .flash),
    cond_eq_of (hpart .dof), cond_eq_of (hpart .axes), cond_eq_of (hpart .sht), cond_eq_of (hpart .start),
    cond_eq_of (hpart .lmp), cond_eq_of (hpart .isp), cond_eq_of (hpart .crl), cond_eq_of (hpart .sec),
    cond_eq_of (hpart .pins), cond_eq_of (hpart .mpl), cond_eq_of (hpart .tap), cond_eq_of (hpart .drc),
    cond_eq_of (hpart .shd), cond_eq_of (hpart .reed), cond_eq_of (hpart .lnk), cond_eq_of (hpart .lanes),
    cond_eq_of (hpart .trm), cond_eq_of (hpart .thm), cond_eq_of (hpart .mgm)⟩

namespace Dev.touches

variable {m : Reach} {P : List Part} {L : List Nat} {d t : Dev}

/-- The parts that no effect of `m` on `P` changes. -/
theorem part_same (h : Dev.touches m P L d t) (p : Part) (hp : (P ++ m.parts).contains p = false) : p.same d t := by
  rw [List.contains_eq_mem, decide_eq_false_iff_not, List.mem_append, not_or] at hp
  exact h.parts p hp.1 hp.2

/-- All else is as before: what is said for an effect that brings nothing. -/
theorem regsOnly (h : Dev.touches .plain P L d t) : Dev.regsOnly L (Dev.taking P d t) t :=
  ⟨eq_taking fun p hp => h.parts p (by simpa using hp) (by simp [Reach.parts]), fun a ha => h.regs a ha rfl⟩

/-- Where no write waits, none waits after an effect that leaves the waiting writes alone. -/
theorem shadow (h : Dev.touches m P L d t) (hs : d.shadow = []) (hP : Part.shadow ∉ P := by decide)
    (hm : Part.shadow ∉ m.parts := by decide) : t.shadow = [] := (h.parts .shadow hP hm).trans hs

end Dev.touches

theorem taking_append (P Q : List Part) (d t : Dev) : Dev.taking (P ++ Q) d t = Dev.taking Q (Dev.taking P d t) t := by
  have hcond {α : Type} (b c : Bool) (x y : α) : (bif b || c then x else y) = bif c then x else bif b then x else y := by
    cases b <;> cases c <;> rfl
  simp only [Dev.taking, List.contains_append, hcond]

/-- All else is as before but what an occurrence touches. -/
theorem Dev.touches.withEvent {P : List Part} {L : List Nat} {d t : Dev} (h : Dev.touches .event P L d t) :
    Dev.withEvent L (Dev.taking P d t) t :=
  ⟨(eq_taking h.part_same).trans (by rw [taking_append]; rfl), h.regs⟩

/-- All else is as before but what the detection of a fault touches. -/
theorem Dev.touches.withFault {P : List Part} {L : List Nat} {d t : Dev} (h : Dev.touches .fault P L d t) :
    Dev.withFault L (Dev.taking P d t) t :=
  ⟨(eq_taking h.part_same).trans (by rw [taking_append]; rfl), h.regs⟩

/-! ### Registers by block -/

/-- Only the event and fault units and the log hold registers that a detection changes. -/
theorem faultReg_of_block {a n : Nat} (h : a / 0x10000 = n) (hn : [2, 18].contains n = false := by decide) :
    faultReg a = false := faultReg_block (by rw [h]; exact hn)

theorem eventReg_of_block {a n : Nat} (h : a / 0x10000 = n) (hn : [2, 18].contains n = false := by decide) :
    eventReg a = false := eventReg_of_faultReg (faultReg_of_block h hn)

/-! ### Folds -/

/-- What a fold leaves of an observation that one element of the list sets and the others keep. -/
theorem obs_foldl {σ α β : Type} [DecidableEq α] {g : σ → α → σ} {I : σ → Prop} {obs : σ → β} {x : α} {v : β} {l : List α}
    (hx : x ∈ l) (hI : ∀ u, ∀ y ∈ l, I u → I (g u y)) (hsame : ∀ u, I u → obs (g u x) = v)
    (hne : ∀ u, ∀ y ∈ l, y ≠ x → obs (g u y) = obs u) {d : σ} (hd : I d) : obs (l.foldl g d) = v := by
  have hrest (l : List α) (hI : ∀ u, ∀ y ∈ l, I u → I (g u y)) (hne : ∀ u, ∀ y ∈ l, y ≠ x → obs (g u y) = obs u) (u : σ)
      (hu : I u) (hv : obs u = v) : obs (l.foldl g u) = v := by
    induction l generalizing u with
    | nil => exact hv
    | cons y l ih =>
      refine ih (fun w z hz => hI w z (by simp [hz])) (fun w z hz => hne w z (by simp [hz])) _ (hI u y (by simp) hu) ?_
      by_cases hy : y = x
      · rw [hy]
        exact hsame u hu
      · rw [hne u y (by simp) hy, hv]
  induction l generalizing d with
  | nil => exact absurd hx (by simp)
  | cons y l ih =>
    have hId := hI d y (by simp) hd
    by_cases hyx : y = x
    · subst hyx
      exact hrest l (fun w z hz => hI w z (by simp [hz])) (fun w z hz => hne w z (by simp [hz])) _ hId (hsame d hd)
    · exact ih ((List.mem_cons.1 hx).resolve_left (Ne.symm hyx)) (fun w z hz => hI w z (by simp [hz]))
        (fun w z hz => hne w z (by simp [hz])) hId

/-- A fold keeps an observation that every element of the list keeps. -/
theorem obs_foldl_keep {σ α β : Type} {g : σ → α → σ} {obs : σ → β} {l : List α}
    (hne : ∀ u, ∀ y ∈ l, obs (g u y) = obs u) (d : σ) : obs (l.foldl g d) = obs d := by
  induction l generalizing d with
  | nil => rfl
  | cons y l ih => rw [List.foldl_cons, ih fun w z hz => hne w z (by simp [hz]), hne d y (by simp)]

/-- What a fold leaves of an observation that one element of the list changes, once, and the others keep. -/
theorem obs_foldl_once {σ α β : Type} [DecidableEq α] {g : σ → α → σ} {I : σ → Prop} {obs : σ → β} {x : α} {v : β} {l : List α}
    (hn : l.Nodup) (hx : x ∈ l) (hI : ∀ u, ∀ y ∈ l, I u → I (g u y)) (hne : ∀ u, ∀ y ∈ l, y ≠ x → obs (g u y) = obs u)
    {d : σ} (hsame : ∀ u, I u → obs u = obs d → obs (g u x) = v) (hd : I d) : obs (l.foldl g d) = v := by
  induction l generalizing d with
  | nil => exact absurd hx (by simp)
  | cons y l ih =>
    obtain ⟨hy, hn⟩ := List.nodup_cons.1 hn
    rw [List.foldl_cons]
    by_cases hyx : y = x
    · subst hyx
      rw [obs_foldl_keep fun u z hz => hne u z (by simp [hz]) fun h => hy (h ▸ hz)]
      exact hsame d hd rfl
    · refine ih hn ((List.mem_cons.1 hx).resolve_left (Ne.symm hyx)) (fun w z hz => hI w z (by simp [hz]))
        (fun w z hz => hne w z (by simp [hz])) (fun u hu h => ?_) (hI d y (by simp) hd)
      exact hsame u hu (h.trans (hne d y (by simp) hyx))

/-! ### Occurrences of the AON domain while FAB runs (R607) -/

theorem aonEvent_occur {d : Dev} (h : d.fabRuns = true) (e inst code : Nat) :
    aonEvent e inst code none d = occur e inst code d := by
  simp [aonEvent, h]

theorem aonEvent_fault {d : Dev} (h : d.fabRuns = true) (e inst code sev : Nat) :
    aonEvent e inst code (some sev) d = faultEvent code sev inst e d := by
  simp [aonEvent, h]

theorem fabRuns_congr {d t : Dev} (h : t.reg CLK_LIVE = d.reg CLK_LIVE) : t.fabRuns = d.fabRuns := by
  simp only [Dev.fabRuns, h]

theorem aonFlag_flag {f : Field} {d : Dev} (h : d.fabRuns = true) (hf : f.addr ≠ CLK_LIVE) (e inst : Nat) :
    aonFlag f e inst d = flagEvent f e inst 0 d := by
  unfold aonFlag flagEvent
  split
  · rfl
  · exact aonEvent_occur ((fabRuns_congr (reg_put_ne d f 1 (Ne.symm hf))).trans h) e inst 0

/-- A flag with its event is set (R16). -/
theorem flagEvent_on (f : Field) (inst code : Nat) (d : Dev) {e : Nat} (he : e < 256) (hf : f.hi = f.lo) (h32 : f.hi < 32)
    (hr : eventReg f.addr = false) : (flagEvent f e inst code d).on f = true :=
  (flagEvent_spec f e inst code d he hf h32 hr).2

/-- A flag that was clear raises its event. -/
theorem flagEvent_pends {f : Field} {d : Dev} (h : d.on f = false) {e : Nat} (he : e < 256) (inst code : Nat) :
    (flagEvent f e inst code d).pends e := by
  unfold flagEvent
  rw [if_neg (by simp [h])]
  exact occur_pends e inst code _ he

theorem faultEvent_pends {code e : Nat} (hc : code < 256) (he : e < 256) (sev inst : Nat) (d : Dev) :
    (faultEvent code sev inst e d).pends e := (faultEvent_spec code sev inst e d hc he).2

/-! ### Vectors and masks -/

section
variable {α : Type} {n : Nat}

@[simp] theorem vat_vput_same (v : Vector α n) (i : Fin n) (x : α) : vat (vput v i x) i = x := by simp [vat, vput]

theorem vat_vput_ne (v : Vector α n) {i j : Fin n} (x : α) (h : j ≠ i) : vat (vput v i x) j = vat v j := by
  simp only [vat, vput]
  exact Vector.getElem_set_ne _ _ fun hv => h (Fin.ext hv.symm)

@[simp] theorem vat_replicate (x : α) (i : Fin n) : vat (Vector.replicate n x) i = x := by simp [vat]

/-- The number whose bits are `p`, summed in rising order. -/
theorem testBit_sum (p : Fin n → Bool) :
    (List.finRange n).foldl (fun a i => a + (if p i then 2 ^ i.val else 0)) 0 < 2 ^ n ∧
      ∀ i : Fin n, ((List.finRange n).foldl (fun a i => a + (if p i then 2 ^ i.val else 0)) 0).testBit i.val = p i := by
  induction n with
  | zero => exact ⟨by simp, fun i => i.elim0⟩
  | succ n ih =>
    obtain ⟨hlt, hbit⟩ := ih fun i => p i.castSucc
    rw [List.finRange_succ_last, List.foldl_append, List.foldl_map]
    simp only [List.foldl_cons, List.foldl_nil, Fin.val_castSucc, Fin.val_last]
    generalize (List.finRange n).foldl (fun a i => a + (if p i.castSucc then 2 ^ i.val else 0)) 0 = x at hlt hbit ⊢
    have hsum : x + (if p (Fin.last n) then 2 ^ n else 0) = 2 ^ n * b2n (p (Fin.last n)) + x := by
      cases p (Fin.last n) <;> simp [b2n, Nat.add_comm]
    rw [hsum]
    refine ⟨?_, fun i => ?_⟩
    · have := b2n_le (p (Fin.last n))
      calc 2 ^ n * b2n (p (Fin.last n)) + x < 2 ^ n * b2n (p (Fin.last n)) + 2 ^ n := by omega
        _ ≤ 2 ^ n * 1 + 2 ^ n := Nat.add_le_add_right (Nat.mul_le_mul_left _ this) _
        _ = 2 ^ (n + 1) := by rw [Nat.pow_succ]; omega
    · rw [Nat.testBit_two_pow_mul_add _ hlt]
      refine Fin.lastCases ?_ (fun j => ?_) i
      · cases h : p (Fin.last n) <;> simp [b2n]
      · rw [Fin.val_castSucc, if_pos j.isLt, hbit]

end

/-!
PROOFS about the lamp chain (R384 to R386): what each of its operations touches, and the statement.
-/

variable {m : Reach} {P : List Part} {L : List Nat}

/-! ### What the operations of the chain touch -/

theorem lmpMod_touches (hP : Part.lmp ∈ P) (f : Lamps → Lamps) (d : Dev) : Dev.touches m P L d (d.lmpMod f) :=
  .ofWithin (toLmp_within d (f d.lmp)) (by simpa using hP)

theorem lampDisturb_touches (hP : Part.lmp ∈ P) (d : Dev) : Dev.touches m P L d (lampDisturb d) := lmpMod_touches hP _ d

theorem lampLatch_touches (hP : Part.lmp ∈ P) (b : Bool) (d : Dev) : Dev.touches m P L d (lampLatch b d) :=
  .ite _ ((lmpMod_touches hP _ d).trans (lampDisturb_touches hP _)) (.refl d)

/-- With no RWS write waiting, a frame that starts shows CHAIN_BUSY and touches no other register. -/
theorem chainStart_touches (hP : Part.lmp ∈ P) (hL : LMP_STATUS ∈ L) {d : Dev} (h : d.shadow = []) :
    Dev.touches m P L d (chainStart d) := by
  unfold chainStart
  split
  · rw [commit_nil h]
    refine .ite _ (.refl d) (.ite _ ?_ ?_)
    · exact ((Dev.touches.put d _ 1 hL).trans (lmpMod_touches hP _ _)).trans (lampDisturb_touches hP _)
    · exact (Dev.touches.put d _ 1 hL).trans (lmpMod_touches hP _ _)
  · exact .refl d

theorem chainCommit_touches (hP : Part.lmp ∈ P) (hL : LMP_STATUS ∈ L) {d : Dev} (h : d.shadow = []) :
    Dev.touches m P L d (chainCommit d) :=
  .ite _ (.refl d) ((lmpMod_touches hP _ d).trans (chainStart_touches hP hL h))

theorem derateChange_touches (hL : LMP_FLAGS ∈ L) (inst old new : Nat) (d : Dev) :
    Dev.touches .fault P L d (derateChange inst old new d) := by
  unfold derateChange
  extract_lets moved d1
  have h1 : Dev.touches .fault P L d d1 := .ite _ (.flagEvent LMP_FLAGS_DERATED 220 inst 0 d hL) (.refl d)
  exact h1.trans (.ite _ (.fault 0x7C _ inst _) (.refl _))

theorem ldStatusReg_block (k : Fin 32) : LMP_LD_STATUS k.val / 0x10000 = 15 := by
  simp only [LMP_LD_STATUS]
  omega

theorem ldStatus_touches (hP : Part.lmp ∈ P) (hF : LMP_FLAGS ∈ L) (k : Fin 32) (hk : LMP_LD_STATUS k.val ∈ L) (w : Nat)
    (d : Dev) : Dev.touches .fault P L d (ldStatus k w d) := by
  unfold ldStatus
  extract_lets valid t wrong was d1 f old d2 d3 d4
  have h1 : Dev.touches .fault P L d d1 := lmpMod_touches hP _ d
  have h2 : Dev.touches .fault P L d1 d2 := lmpMod_touches hP _ d1
  have h3 : Dev.touches .fault P L d2 d3 := .setReg d2 _ _ hk (silentReg_of_block (ldStatusReg_block k))
  have h4 : Dev.touches .fault P L d3 d4 := derateChange_touches hF k.val old f d3
  refine (((h1.trans h2).trans h3).trans h4).trans (.ite _ ?_ (.refl _))
  exact (Dev.touches.flagEvent LMP_FLAGS_CHAIN_ERR 216 k.val 0x78 _ hF).trans (.fault 0x78 _ k.val _)

/-! ### The levels sent -/

/-- The levels depend on the lamps and the registers alone. -/
theorem ldSteady_congr {d t : Dev} (hl : t.lmp.bad = d.lmp.bad) (hf : t.lmp.factor = d.lmp.factor) (k : Fin 32)
    (hr : ∀ a, a ≠ LMP_CHAIN_COMMIT → t.reg a = d.reg a) : t.ldSteady k = d.ldSteady k := by
  have hgain (g : Nat) : t.groupGain g = d.groupGain g := by
    simp only [Dev.groupGain, hr (LMP_COL_GAIN g) (by simp only [LMP_COL_GAIN, LMP_CHAIN_COMMIT]; omega)]
  simp only [Dev.ldSteady, Dev.ldLevel, hl, hf, hgain, Dev.get,
    hr (LMP_LD_CFG k.val) (by simp only [LMP_LD_CFG, LMP_CHAIN_COMMIT]; omega),
    hr (LMP_LD_STEADY k.val) (by simp only [LMP_LD_STEADY, LMP_CHAIN_COMMIT]; omega)]

/-! ### Frames that start (R385, R388) -/

/-- The levels of a frame of command `c`. -/
def Dev.frameLevels (d : Dev) (c : Nat) : List Nat := (List.finRange 32).map fun k =>
  if k.val < d.ldCount then (if c = 1 then d.ldSteady k else if c = 2 then d.ldFlash k else 0) else 0

/-- A free chain with no window known starts the first frame that waits. -/
theorem chainStart_free {d : Dev} {c : Nat} {q : List Nat} (htx : d.lmp.tx = none) (hq : d.lmp.txQ = c :: q)
    (hw : d.lmp.windows = []) (hen : d.on LMP_CTRL_CHAIN_EN = true) (hs : d.shadow = []) :
    chainStart d =
      let t := (d.put LMP_STATUS_CHAIN_BUSY 1).lmpMod fun l => { l with tx := some (c, d.frameLevels c), txQ := q }
      if c = 1 || c = 2 then lampDisturb t else t := by
  unfold chainStart
  rw [htx, hq]
  simp only [hw, hen, commit_nil hs]
  rfl

/-! ### The end of a frame (R386) -/

/-- What LMP_LD_STATUS shows of a status word: its quality and the derating factor. -/
def Dev.driverShown (d : Dev) (w : Nat) : Nat :=
  if bits w 31 28 = 10 then qGood * 65536 + min (d.derate (some (sx 16 (bits w 23 8)))) 65535
  else qInvalid * 65536 + min (d.derate none) 65535

theorem driverShown_lt (d : Dev) (w : Nat) : d.driverShown w < 2 ^ 32 := by
  unfold Dev.driverShown qGood qInvalid
  split <;> omega

theorem driverShown_congr {d t : Dev} (h0 : t.reg LMP_DERATE0 = d.reg LMP_DERATE0)
    (h1 : t.reg LMP_DERATE1 = d.reg LMP_DERATE1) (w : Nat) : t.driverShown w = d.driverShown w := by
  simp only [Dev.driverShown, Dev.derate, Dev.get, h0, h1]

theorem ldStatus_shown (k : Fin 32) (w : Nat) (d : Dev) : (ldStatus k w d).reg (LMP_LD_STATUS k.val) = d.driverShown w := by
  have hflags : LMP_LD_STATUS k.val ∉ [LMP_FLAGS] := by simp only [LMP_LD_STATUS, LMP_FLAGS, List.mem_singleton]; omega
  have hfault : faultReg (LMP_LD_STATUS k.val) = false := faultReg_of_block (ldStatusReg_block k)
  unfold ldStatus
  extract_lets valid t wrong was d1 f old d2 d3 d4
  have h4 : Dev.touches .fault [] [LMP_FLAGS] d3 d4 := derateChange_touches (by simp) k.val old f d3
  have h5 : Dev.touches .fault [] [LMP_FLAGS] d4
      (if wrong && !was then fault 0x78 sevInfo k.val (flagEvent LMP_FLAGS_CHAIN_ERR 216 k.val 0x78 d4) else d4) :=
    .ite _ ((Dev.touches.flagEvent LMP_FLAGS_CHAIN_ERR 216 k.val 0x78 d4 (by simp)).trans (.fault 0x78 _ k.val _)) (.refl _)
  have h3 : d3.reg (LMP_LD_STATUS k.val) = d.driverShown w := by
    have hv : ((if valid then qGood else qInvalid) * 65536 + min f 65535) = d.driverShown w := by
      simp only [Dev.driverShown, valid, f, t]
      by_cases hw : bits w 31 28 = 10
      · simp [hw]; rfl
      · simp [hw]; rfl
    rw [← Nat.mod_eq_of_lt (driverShown_lt d w), ← hv]
    exact reg_setReg_same _ _ _
  exact (h5.reg hflags hfault).trans ((h4.reg hflags hfault).trans h3)

/-- The registers of a frame's end but LMP_STATUS. -/
def driverRegs : List Nat := LMP_FLAGS :: (List.range 32).map LMP_LD_STATUS

theorem ldStatus_mem (k : Fin 32) : LMP_LD_STATUS k.val ∈ driverRegs :=
  List.mem_cons_of_mem _ (List.mem_map_of_mem (List.mem_range.2 k.isLt))

/-- The status words of the drivers taken, LD0's first. -/
def statusTaken (status : List Word) (n : Nat) (d : Dev) : Dev :=
  (List.finRange 32).foldl
    (fun t k => if k.val < n then ldStatus k ((status.getD k.val 0 : Word)).toNat t else t) d

theorem statusTaken_touches (hP : Part.lmp ∈ P) (hL : driverRegs ⊆ L) (status : List Word) (n : Nat) (d : Dev) :
    Dev.touches .fault P L d (statusTaken status n d) :=
  .foldl (fun v k => .ite _ (ldStatus_touches hP (hL (by simp [driverRegs])) k (hL (ldStatus_mem k)) _ v) (.refl v)) _ d

/-- Each driver of the chain shows its own status word. -/
theorem statusTaken_shown (status : List Word) {n : Nat} (k : Fin 32) (hk : k.val < n) (d : Dev) :
    (statusTaken status n d).reg (LMP_LD_STATUS k.val) = d.driverShown ((status.getD k.val 0 : Word)).toNat := by
  refine obs_foldl (x := k) (obs := fun t : Dev => t.reg (LMP_LD_STATUS k.val)) (List.mem_finRange k)
    (I := fun t : Dev => ∀ w, t.driverShown w = d.driverShown w) ?_ ?_ ?_ fun _ => rfl
  · intro u j _ hu w
    have hj : Dev.touches .fault [.lmp] driverRegs u
        (if j.val < n then ldStatus j ((status.getD j.val 0 : Word)).toNat u else u) :=
      .ite _ (ldStatus_touches (by simp) (by simp [driverRegs]) j (ldStatus_mem j) _ u) (.refl u)
    rw [← hu w]
    exact driverShown_congr (hj.reg (by decide) rfl) (hj.reg (by decide) rfl) w
  · intro u hu
    simp only [hk, if_true]
    rw [ldStatus_shown, hu]
  · intro u j _ hj
    have hother : Dev.touches .fault [.lmp] [LMP_FLAGS, LMP_LD_STATUS j.val] u
        (if j.val < n then ldStatus j ((status.getD j.val 0 : Word)).toNat u else u) :=
      .ite _ (ldStatus_touches (by simp) (by simp) j (by simp) _ u) (.refl u)
    refine hother.reg ?_ (faultReg_of_block (ldStatusReg_block k))
    have hne : j.val ≠ k.val := fun h => hj (Fin.ext h)
    simp only [LMP_LD_STATUS, LMP_FLAGS, List.mem_cons, List.not_mem_nil, or_false]
    omega

/-- What follows a frame: a commit where a level has changed since `before`, the opening latch that waited (R388), and the
frame that waits. -/
def frameFollowed (before : List (Nat × Nat)) (d : Dev) : Dev :=
  let after := (List.finRange 32).map fun k => (d.ldSteady k, d.ldFlash k)
  let s := if before = after then d else chainCommit d
  let s := if s.lmp.late.any fun c => s.lmp.windows.any fun w => w.cam == c && w.opened then lampLatch true s else s
  chainStart (s.lmpMod fun l => { l with late := [] })

theorem frameFollowed_touches (hP : Part.lmp ∈ P) (hS : Part.shadow ∉ P) (hm : Part.shadow ∉ m.parts)
    (hL : LMP_STATUS ∈ L) (before : List (Nat × Nat)) {d : Dev} (h : d.shadow = []) :
    Dev.touches m P L d (frameFollowed before d) := by
  unfold frameFollowed
  extract_lets after d1 d2
  have h1 : Dev.touches m P L d d1 := .ite _ (.refl d) (chainCommit_touches hP hL h)
  have h2 : Dev.touches m P L d1 d2 := .ite _ (lampLatch_touches hP true d1) (.refl d1)
  have hs : d2.shadow = [] := (h1.trans h2).shadow h hS hm
  exact ((h1.trans h2).trans (lmpMod_touches hP _ d2)).trans (chainStart_touches hP hL hs)

theorem chainStart_drivers {d : Dev} (h : d.shadow = []) : (chainStart d).get LMP_STATUS_DRIVERS = d.get LMP_STATUS_DRIVERS := by
  have hput : (d.put LMP_STATUS_CHAIN_BUSY 1).get LMP_STATUS_DRIVERS = d.get LMP_STATUS_DRIVERS :=
    get_put_ne d _ _ 1 (by decide) (by decide) (by decide)
  unfold chainStart
  split
  · rw [commit_nil h]
    dsimp only
    split
    · rfl
    · split <;> exact hput
  · rfl

theorem frameFollowed_drivers (before : List (Nat × Nat)) {d : Dev} (h : d.shadow = []) :
    (frameFollowed before d).get LMP_STATUS_DRIVERS = d.get LMP_STATUS_DRIVERS := by
  unfold frameFollowed
  extract_lets after d1 d2
  have h1 : Dev.touches .plain [.lmp] [LMP_STATUS] d d1 := .ite _ (.refl d) (chainCommit_touches (by simp) (by simp) h)
  have h2 : Dev.touches .plain [.lmp] [] d1 d2 := .ite _ (lampLatch_touches (by simp) true d1) (.refl d1)
  have hs : d2.shadow = [] := h2.shadow (h1.shadow h)
  have hd1 : d1.get LMP_STATUS_DRIVERS = d.get LMP_STATUS_DRIVERS := by
    simp only [d1]
    split
    · rfl
    · unfold chainCommit
      split
      · rfl
      · exact chainStart_drivers h
  calc (chainStart (d2.lmpMod fun l => { l with late := [] })).get LMP_STATUS_DRIVERS
      = d2.get LMP_STATUS_DRIVERS := chainStart_drivers hs
    _ = d1.get LMP_STATUS_DRIVERS := h2.get (by simp) rfl
    _ = d.get LMP_STATUS_DRIVERS := hd1

/-- How many drivers of the first `n` have answered with a valid word. -/
def answered (status : List Word) (n : Nat) : Nat :=
  ((List.finRange 32).filter fun k =>
    decide (k.val < n) && decide (bits ((status.getD k.val 0 : Word)).toNat 31 28 = 10)).length

theorem answered_lt (status : List Word) (n : Nat) : answered status n < 64 := by
  have h := List.length_filter_le (fun k : Fin 32 =>
    decide (k.val < n) && decide (bits ((status.getD k.val 0 : Word)).toNat 31 28 = 10)) (List.finRange 32)
  rw [List.length_finRange] at h
  exact Nat.lt_of_le_of_lt h (by decide)

/-- The chain after a NOP frame has left it. -/
def frameShifted (d : Dev) : Dev :=
  (d.put LMP_STATUS_CHAIN_BUSY 0).lmpMod fun l => { l with tx := none }

theorem frameShifted_touches (hP : Part.lmp ∈ P) (hL : LMP_STATUS ∈ L) (d : Dev) : Dev.touches m P L d (frameShifted d) :=
  (Dev.touches.put d LMP_STATUS_CHAIN_BUSY 0 hL).trans (lmpMod_touches hP _ _)

theorem ldCount_congr {d t : Dev} (h : t.reg LMP_CHAIN_CFG = d.reg LMP_CHAIN_CFG) : t.ldCount = d.ldCount := by
  simp only [Dev.ldCount, Dev.get, h]

/-- The end of a NOP frame: its status words, the number of drivers that answered, and what follows. -/
theorem chainDone_nop {levels : List Nat} {d : Dev} (status : List Word) (h : d.lmp.tx = some (0, levels)) :
    chainDone status d =
      frameFollowed ((List.finRange 32).map fun k => (d.ldSteady k, d.ldFlash k))
        ((statusTaken status (frameShifted d).ldCount (frameShifted d)).put LMP_STATUS_DRIVERS
          (answered status (frameShifted d).ldCount)) := by
  unfold chainDone
  split
  · rename_i hnone
    exact absurd (hnone.symm.trans h) (by simp)
  rename_i c lv hsome
  obtain ⟨rfl, rfl⟩ : c = 0 ∧ lv = levels := by simpa using hsome.symm.trans h
  extract_lets before s1 n word s2 s3 after s4 s5
  have h1 : s1 = frameShifted d := by
    simp only [s1, frameShifted, zero_ne_one, OfNat.zero_ne_ofNat, if_false, decide_false, Bool.or_false]
  have h2 : s2 = statusTaken status s1.ldCount s1 := rfl
  have h3 : s3 = s2.put LMP_STATUS_DRIVERS (answered status s1.ldCount) := rfl
  have h5 : chainStart (s5.lmpMod fun l => { l with late := [] }) = frameFollowed before s3 := rfl
  rw [h5, h3, h2, h1]

/-- The end of a NOP frame: the drivers' words and their number are shown. -/
theorem chainDone_shows {levels : List Nat} {d : Dev} (status : List Word) (h : d.lmp.tx = some (0, levels))
    (hs : d.shadow = []) :
    (∀ k : Fin 32, k.val < d.ldCount →
        (chainDone status d).reg (LMP_LD_STATUS k.val) = d.driverShown ((status.getD k.val 0 : Word)).toNat)
      ∧ (chainDone status d).get LMP_STATUS_DRIVERS = answered status d.ldCount
      ∧ Dev.touches .fault [.lmp] ([LMP_STATUS, LMP_FLAGS] ++ (List.range 32).map LMP_LD_STATUS) d (chainDone status d) := by
  rw [chainDone_nop status h]
  have h1 {L : List Nat} (hL : LMP_STATUS ∈ L) : Dev.touches .fault [.lmp] L d (frameShifted d) :=
    frameShifted_touches (by simp) hL d
  have hcount : (frameShifted d).ldCount = d.ldCount :=
    ldCount_congr ((h1 (L := [LMP_STATUS]) (by simp)).reg (by decide) rfl)
  rw [hcount]
  generalize hu : statusTaken status d.ldCount (frameShifted d) = u
  have h2 {L : List Nat} (hL : driverRegs ⊆ L) : Dev.touches .fault [.lmp] L (frameShifted d) u :=
    hu ▸ statusTaken_touches (by simp) hL status d.ldCount (frameShifted d)
  have h3 {L : List Nat} (hL : LMP_STATUS ∈ L) :
      Dev.touches .fault [.lmp] L u (u.put LMP_STATUS_DRIVERS (answered status d.ldCount)) := .put u _ _ hL
  have hus : (u.put LMP_STATUS_DRIVERS (answered status d.ldCount)).shadow = [] :=
    (h3 (L := [LMP_STATUS]) (by simp)).shadow
      ((h2 (L := driverRegs) fun _ => id).shadow ((h1 (L := [LMP_STATUS]) (by simp)).shadow hs))
  have h4 {L : List Nat} (hL : LMP_STATUS ∈ L) :=
    frameFollowed_touches (m := .fault) (P := [.lmp]) (L := L) (by simp) (by simp) (by simp [Reach.parts]) hL
      ((List.finRange 32).map fun k => (d.ldSteady k, d.ldFlash k)) hus
  refine ⟨fun k hk => ?_, ?_, ?_⟩
  · have hne : LMP_LD_STATUS k.val ∉ [LMP_STATUS] := by simp only [LMP_LD_STATUS, LMP_STATUS, List.mem_singleton]; omega
    have hfault := faultReg_of_block (ldStatusReg_block k)
    rw [(h4 (L := [LMP_STATUS]) (by simp)).reg hne hfault, (h3 (L := [LMP_STATUS]) (by simp)).reg hne hfault, ← hu,
      statusTaken_shown status k hk, driverShown_congr]
    · exact (h1 (L := [LMP_STATUS]) (by simp)).reg (by decide) rfl
    · exact (h1 (L := [LMP_STATUS]) (by simp)).reg (by decide) rfl
  · rw [frameFollowed_drivers _ hus, get_put_same _ _ _ (by decide) (by decide)]
    exact Nat.mod_eq_of_lt (answered_lt _ _)
  · have hstatus : LMP_STATUS ∈ [LMP_STATUS, LMP_FLAGS] ++ (List.range 32).map LMP_LD_STATUS := by simp
    exact (((h1 hstatus).trans (h2 (List.subset_cons_self _ _))).trans (h3 hstatus)).trans (h4 hstatus)

/-- SET_STEADY, which a commit starts, carries the steady levels (R385). -/
theorem chainCommit_free {d : Dev} (htx : d.lmp.tx = none) (hq : d.lmp.txQ = []) (hw : d.lmp.windows = [])
    (hen : d.on LMP_CTRL_CHAIN_EN = true) (hs : d.shadow = []) :
    chainCommit (d.put LMP_CHAIN_COMMIT_R385 1) =
      { (d.put LMP_CHAIN_COMMIT_R385 1).put LMP_STATUS_CHAIN_BUSY 1 with lmp := { d.lmp with
          tx := some (1, (List.finRange 32).map fun k => if k.val < d.ldCount then d.ldSteady k else 0)
          txQ := [2]
          measuring := d.lmp.measuring.map fun _ => true } } := by
  generalize hc : (d.put LMP_CHAIN_COMMIT_R385 1).lmpMod (fun l => { l with txQ := l.txQ ++ [1, 2] }) = c
  have hput : Dev.touches .plain [.lmp] [LMP_CHAIN_COMMIT] d c :=
    hc ▸ (Dev.touches.put d LMP_CHAIN_COMMIT_R385 1 (by simp)).trans (lmpMod_touches (by simp) _ _)
  have hlmp : c.lmp = { d.lmp with txQ := [1, 2] } := by simp [← hc, Dev.lmpMod, hq]
  have hcommit : chainCommit (d.put LMP_CHAIN_COMMIT_R385 1) = chainStart c := by
    simp only [chainCommit, put_lmp, hq, List.contains_nil, Bool.false_eq_true, if_false, hc]
  have hcount : c.ldCount = d.ldCount := ldCount_congr (hput.reg (by decide) rfl)
  have hlevels : c.frameLevels 1 = (List.finRange 32).map fun k => if k.val < d.ldCount then d.ldSteady k else 0 := by
    refine List.map_congr_left fun k _ => ?_
    rw [hcount, ldSteady_congr (by rw [hlmp]) (by rw [hlmp]) k fun a ha => hput.reg (by simpa using ha) rfl]
    simp
  rw [hcommit, chainStart_free (c := 1) (q := [2]) (by rw [hlmp]; exact htx) (by rw [hlmp]) (by rw [hlmp]; exact hw)
    (by rw [hput.on (by decide) rfl]; exact hen) (by rw [← hc]; exact hs), hlevels, ← hc]
  rfl

/-- A refresh starts a NOP frame: every level 0 (R385). -/
theorem chainStart_refresh {d : Dev} (htx : d.lmp.tx = none) (hq : d.lmp.txQ = []) (hw : d.lmp.windows = [])
    (hen : d.on LMP_CTRL_CHAIN_EN = true) (hs : d.shadow = []) :
    chainStart (d.lmpMod fun l => { l with txQ := l.txQ ++ [0] }) =
      { d.put LMP_STATUS_CHAIN_BUSY 1 with lmp := { d.lmp with tx := some (0, List.replicate 32 0), txQ := [] } } := by
  have hlevels (t : Dev) : t.frameLevels 0 = List.replicate 32 0 := by
    simp [Dev.frameLevels, List.map_const']
  rw [chainStart_free (d := d.lmpMod fun l => { l with txQ := l.txQ ++ [0] }) (c := 0) (q := []) htx
    (by simp [Dev.lmpMod, hq]) hw hen hs, hlevels]
  rfl

/-- Settles O2: a commit and a refresh by the frame that they start, a frame's end by what its status words show. -/
theorem lampChainCommands : Obligations.LampChainCommands := by
  unfold Obligations.LampChainCommands
  intro status levels s hrun hc hs
  refine ⟨?commit, ?refresh, ?done⟩
  case commit =>
    rintro hen htx hq hw rfl
    refine actIn_of_eq hrun ?_ (by exact hc.1)
    rw [if_pos hen, chainCommit_free htx hq hw hen hs]
  case refresh =>
    intro hen htx hq hw
    refine actIn_of_eq hrun ?_ (by exact hc.1)
    rw [if_pos hen, chainStart_refresh htx hq hw hen hs]
  case done =>
    intro htx
    obtain ⟨hshown, hdrivers, hrest⟩ := chainDone_shows status htx hs
    exact ⟨_, actIn_run hrun (hrest.calm hc).1, hshown, hdrivers, hrest.withFault⟩

/-!
PROOFS about the flashes of exposure windows (R387, R388) and the scan of the matrix (R390 to R392).
-/

/-! ### Flashes -/

theorem map_map_const {α β : Type} (x : Option α) (b : β) (c : α) :
    ((x.map fun _ => c).map fun _ => b) = x.map fun _ => b := by
  cases x <;> rfl

/-- The lamps once the window `w` has opened with its flash. -/
def Lamps.flashed (l : Lamps) (w : Window) : Lamps :=
  { l with
    windows := l.windows.map fun x => if x = w then { x with opened := true } else x
    flashing := true
    measuring := l.measuring.map fun _ => true }

/-- With the chain free, the latch of a window that flashes leaves as the window opens (R387, R388). -/
theorem flashOpen_free {c : Camera} {w : Window} {d : Dev}
    (hw : (d.lmp.windows.find? fun x => x.cam == c.val && !x.opened) = some w) (hf : d.flashes w = true)
    (hen : d.on LMP_CTRL_CHAIN_EN = true) (htx : d.lmp.tx = none) :
    flashOpen c d = { d with lmp := d.lmp.flashed w } := by
  unfold flashOpen
  rw [hw]
  dsimp -zeta only
  extract_lets d1 d2
  have hf2 : d2.flashes w = true := hf
  have hen2 : d2.on LMP_CTRL_CHAIN_EN = true := hen
  have htx2 : d2.lmp.tx.isSome = false := by
    change d.lmp.tx.isSome = false
    rw [htx]
    rfl
  simp only [hf2, hen2, htx2, lampLatch, Bool.not_true, Bool.or_self, Bool.false_eq_true, if_false, if_true]
  simp only [d1, d2, lampDisturb, Dev.lmpMod, map_map_const, Lamps.flashed]

/-- The lamps once the window `w` has ended, and the flash with it. -/
def Lamps.darkened (l : Lamps) (c : Camera) (w : Window) : Lamps :=
  { l with
    windows := l.windows.erase w
    late := l.late.filter (· ≠ c.val)
    flashing := false
    measuring := l.measuring.map fun _ => true }

theorem chainStart_noQueue {d : Dev} (h : d.lmp.txQ = []) : chainStart d = d := by
  unfold chainStart
  split
  · rename_i hq
    exact absurd (hq.symm.trans h) (by simp)
  · rfl

/-- With nothing else to hold the flash, the latch ends it as the window ends (R387). -/
theorem flashClose_last {c : Camera} {w : Window} {d : Dev}
    (hw : (d.lmp.windows.find? fun x => x.cam == c.val && x.opened) = some w) (hflash : d.lmp.flashing = true)
    (hen : d.on LMP_CTRL_CHAIN_EN = true) (hhit : d.lmp.hitFlash = false)
    (hothers : ∀ x ∈ d.lmp.windows.erase w, x.opened = false) (hq : d.lmp.txQ = []) :
    flashClose (some c) d = { d with lmp := d.lmp.darkened c w } := by
  unfold flashClose
  dsimp -zeta only
  extract_lets d1 held d2
  have hd1 : d1 = d.lmpMod fun l =>
      { l with windows := d.lmp.windows.erase w, late := l.late.filter (· ≠ c.val) } := by
    simp only [d1, Dev.lmpMod, hw]
  have hheld : held = false := by
    have hnone : (d1.lmp.windows.any fun x => x.opened && d1.flashes x) = false := by
      rw [List.any_eq_false, hd1]
      intro x hx
      simp [hothers x hx]
    have hhit1 : d1.lmp.hitFlash = false := hhit
    simp only [held, hhit1, hnone, Bool.or_self]
  have hflash1 : d1.lmp.flashing = true := hflash
  have hen1 : d1.on LMP_CTRL_CHAIN_EN = true := hen
  have hd2 : d2 = { d with lmp := d.lmp.darkened c w } := by
    simp only [d2, hflash1, hheld, lampLatch, hen1, Bool.not_false, Bool.and_self, if_true]
    rw [hd1]
    rfl
  rw [hd2]
  exact chainStart_noQueue hq

/-! ### Rows (R390) -/

/-- The lamps with row `r` of the scan lit from `now` until `till`. -/
def Lamps.lit (l : Lamps) (r now till : Nat) : Lamps :=
  { l with phase := .on, row := r, rowStart := now, rowEnd := till, expRow := false }

theorem rowEndAt_alone {d : Dev} (h : d.lmp.windows = []) (start sched : Nat) : d.rowEndAt start sched = sched := by
  simp [Dev.rowEndAt, h]

/-- The first row of a scan, with no window known and no write waiting. -/
theorem rowOn_first {d : Dev} (hw : d.lmp.windows = []) (hs : d.shadow = []) (now : Nat) :
    rowOn 0 now none d = { d.setReg LMP_STATUS (putBits (d.reg LMP_STATUS) 2 0 0) with
      lmp := { d.lmp with testDone := false }.lit 0 now (now + d.get LMP_MTX_CFG_ROW_US * 1000) } := by
  have hsched := rowEndAt_alone (d := d.lmpMod fun l => { l with testDone := false }) hw now
    (now + d.get LMP_MTX_CFG_ROW_US * 1000)
  unfold rowOn
  rw [commit_nil hs]
  simp only [Option.isNone_none, decide_true, Bool.and_self, if_true]
  rw [show (d.lmpMod fun l => { l with testDone := false }).get LMP_MTX_CFG_ROW_US = d.get LMP_MTX_CFG_ROW_US from rfl, hsched]
  rfl

/-- A later row of a scan, with no window known. -/
theorem rowOn_later {d : Dev} (hw : d.lmp.windows = []) {r : Nat} (hr : r ≠ 0) (now : Nat) :
    rowOn r now none d = { d.setReg LMP_STATUS (putBits (d.reg LMP_STATUS) 2 0 r) with
      lmp := d.lmp.lit r now (now + d.get LMP_MTX_CFG_ROW_US * 1000) } := by
  unfold rowOn
  simp only [hr, decide_false, Bool.false_and, Bool.false_eq_true, if_false, rowEndAt_alone hw]
  rfl

/-- With the matrix enabled and no window known, a phase ends by what the phase was. -/
theorem rowEnds_alone {d : Dev} (hen : d.on LMP_CTRL_MTX_EN = true) (hw : d.lmp.windows = []) (now sense : Nat) :
    (d.lmp.phase = .off → rowEnds now sense d = rowOn 0 now none d)
      ∧ (d.lmp.phase = .blankAfter → rowEnds now sense d = rowOn ((d.lmp.row + 1) % 8) now none d)
      ∧ (d.lmp.phase = .on → rowEnds now sense d =
          (rowDiag d.lmp.row sense d).lmpMod fun l => { l with phase := .blank, rowEnd := now + 2000 }) := by
  refine ⟨fun h => ?_, fun h => ?_, fun h => ?_⟩ <;>
    simp [rowEnds, hen, hw, h]

/-! ### Diagnosis (R392) -/

theorem diagReg_block {r : Nat} (h : r < 8) : LMP_MTX_DIAG r / 0x10000 = 15 := by
  simp only [LMP_MTX_DIAG]
  omega

theorem cellDiag_touches (hP : Part.lmp ∈ P) (hF : LMP_FLAGS ∈ L) {r : Nat} (hr : r < 8) (hD : LMP_MTX_DIAG r ∈ L)
    (c v : Nat) (d : Dev) : Dev.touches .fault P L d (cellDiag r c v d) := by
  unfold cellDiag
  rw [Nat.mod_eq_of_lt hr]
  extract_lets a d1
  have h1 : Dev.touches .fault P L d d1 := .setReg d _ _ hD (silentReg_of_block (diagReg_block hr))
  refine h1.trans (.ite _ (.ite _ (.refl _) ?_) (.ite _ (lmpMod_touches hP _ _) (.refl _)))
  exact ((lmpMod_touches hP _ _).trans (Dev.touches.flagEvent LMP_FLAGS_LAMP_OPEN 217 (16 * r + c) 0x7A _ hF)).trans
    (.fault 0x7A _ (16 * r + c) _)

/-- A diagnosis of cell `c` replaces its two bits. -/
theorem cellDiag_reg {r : Nat} (hr : r < 8) (c v : Nat) (d : Dev) :
    (cellDiag r c v d).reg (LMP_MTX_DIAG r) = putBits (d.reg (LMP_MTX_DIAG r)) (2 * c + 1) (2 * c) v % 2 ^ 32 := by
  have hne : LMP_MTX_DIAG r ∉ [LMP_FLAGS] := by simp only [LMP_MTX_DIAG, LMP_FLAGS, List.mem_singleton]; omega
  unfold cellDiag
  rw [Nat.mod_eq_of_lt hr]
  extract_lets a d1 d2
  have h1 : d1.reg (LMP_MTX_DIAG r) = putBits (d.reg (LMP_MTX_DIAG r)) (2 * c + 1) (2 * c) v % 2 ^ 32 := reg_setReg_same _ _ _
  have hrest : Dev.touches .fault [.lmp] [LMP_FLAGS] d1
      (if v = 1 then if d1.lmp.openCells.contains (r, c) then d1 else
          fault 0x7A sevInfo (16 * r + c) (flagEvent LMP_FLAGS_LAMP_OPEN 217 (16 * r + c) 0x7A d2)
        else if v = 0 then d1.lmpMod fun l => { l with openCells := l.openCells.filter (· ≠ (r, c)) } else d1) := by
    refine .ite _ (.ite _ (.refl _) ?_) (.ite _ (lmpMod_touches (by simp) _ _) (.refl _))
    exact ((lmpMod_touches (by simp) _ _).trans
      (Dev.touches.flagEvent LMP_FLAGS_LAMP_OPEN 217 (16 * r + c) 0x7A _ (by simp))).trans (.fault 0x7A _ (16 * r + c) _)
  exact (hrest.reg hne (faultReg_of_block (diagReg_block hr))).trans h1

/-- The diagnosis of a cell: by what its column reads, where its on-time is long enough. -/
def Dev.cellVerdict (d : Dev) (r sense c : Nat) : Nat :=
  if 500 ≤ d.cellOn r c then (if bit sense c then 1 else 0) else 2

/-- Cell `c` of the row diagnosed. -/
def cellTaken (r sense : Nat) (d : Dev) (c : Nat) : Dev := cellDiag r c (d.cellVerdict r sense c) d

theorem rowDiag_eq (r sense : Nat) (d : Dev) : rowDiag r sense d = (List.range 16).foldl (cellTaken r sense) d := by
  unfold rowDiag
  congr 1
  funext t c
  unfold cellTaken Dev.cellVerdict
  split <;> rfl

theorem cellTaken_touches (hP : Part.lmp ∈ P) (hF : LMP_FLAGS ∈ L) {r : Nat} (hr : r < 8) (hD : LMP_MTX_DIAG r ∈ L)
    (sense c : Nat) (d : Dev) : Dev.touches .fault P L d (cellTaken r sense d c) := cellDiag_touches hP hF hr hD c _ d

theorem rowDiag_touches (hP : Part.lmp ∈ P) (hF : LMP_FLAGS ∈ L) {r : Nat} (hr : r < 8) (hD : LMP_MTX_DIAG r ∈ L)
    (sense : Nat) (d : Dev) : Dev.touches .fault P L d (rowDiag r sense d) := by
  rw [rowDiag_eq]
  exact .foldl (fun v c => cellTaken_touches hP hF hr hD sense c v) _ d

/-- The registers that the on-time of a cell depends on are none that a diagnosis touches. -/
theorem cellOn_congr {d t : Dev} {r : Nat} (hr : r < 8) (h : Dev.touches .fault [.lmp] [LMP_FLAGS, LMP_MTX_DIAG r] d t)
    (hf : t.lmp.mtxFactor = d.lmp.mtxFactor) {c : Nat} (hc : c < 16) : t.cellOn r c = d.cellOn r c := by
  have hreg {a : Nat} (h15 : a / 0x10000 = 15) (hne : a ≠ LMP_FLAGS) (hlo : a < 0xf0500) : t.reg a = d.reg a :=
    h.reg (by simp only [List.mem_cons, List.not_mem_nil, or_false, hne, false_or, LMP_MTX_DIAG]; omega)
      (faultReg_of_block h15)
  have hduty : t.reg (LMP_MTX_DUTY r (c / 4)) = d.reg (LMP_MTX_DUTY r (c / 4)) :=
    hreg (by simp only [LMP_MTX_DUTY]; omega) (by simp only [LMP_MTX_DUTY, LMP_FLAGS]; omega)
      (by simp only [LMP_MTX_DUTY]; omega)
  have hgain (g : Nat) : t.groupGain g = d.groupGain g := by
    unfold Dev.groupGain
    split
    · rw [hreg (a := LMP_COL_GAIN g) (by simp only [LMP_COL_GAIN]; omega) (by simp only [LMP_COL_GAIN, LMP_FLAGS]; omega)
        (by simp only [LMP_COL_GAIN]; omega)]
    · rfl
  simp only [Dev.cellOn, hduty, hgain, hf, Dev.get, hreg (a := LMP_MTX_GROUP) (by decide) (by decide) (by decide),
    hreg (a := LMP_MTX_CFG) (by decide) (by decide) (by decide)]

/-- A detection leaves the lamps alone. -/
theorem FaultOnly.lmp {d t : Dev} (h : FaultOnly d t) : t.lmp = d.lmp := by rw [h.rest]

theorem EventOnly.lmp {d t : Dev} (h : EventOnly d t) : t.lmp = d.lmp := by rw [h.rest]

theorem flagEvent_lmp (f : Field) {e : Nat} (he : e < 256) (inst code : Nat) (d : Dev) :
    (flagEvent f e inst code d).lmp = d.lmp := by
  unfold flagEvent
  split
  · rfl
  · exact (occur_eventOnly e inst code _ he).lmp

theorem fault_lmp {code : Nat} (hc : code < 256) (sev inst : Nat) (d : Dev) : (fault code sev inst d).lmp = d.lmp :=
  (faultD_faultOnly code sev inst 0 0 d hc).lmp

theorem cellDiag_factor (r c v : Nat) (d : Dev) : (cellDiag r c v d).lmp.mtxFactor = d.lmp.mtxFactor := by
  unfold cellDiag
  dsimp only
  split
  · split
    · rfl
    · rw [fault_lmp (by decide), flagEvent_lmp _ (by decide)]
      rfl
  · split <;> rfl

theorem cellVerdict_lt (d : Dev) (r sense c : Nat) : d.cellVerdict r sense c < 2 ^ 2 := by
  unfold Dev.cellVerdict
  split
  · split <;> omega
  · omega

theorem cellVerdict_taken {r : Nat} (hr : r < 8) (sense y : Nat) (d : Dev) {c : Nat} (hc : c < 16) :
    (cellTaken r sense d y).cellVerdict r sense c = d.cellVerdict r sense c := by
  unfold Dev.cellVerdict
  rw [cellOn_congr hr (cellTaken_touches (by simp) (by simp) hr (by simp) sense y d) (cellDiag_factor _ _ _ _) hc]

/-- Every cell of the row is diagnosed by its own on-time and its own column. -/
theorem rowDiag_shown {r : Nat} (hr : r < 8) (sense : Nat) (d : Dev) {c : Nat} (hc : c < 16) :
    bits ((rowDiag r sense d).reg (LMP_MTX_DIAG r)) (2 * c + 1) (2 * c) = d.cellVerdict r sense c := by
  have hsame (u : Dev) (hu : u.cellVerdict r sense c = d.cellVerdict r sense c) :
      bits ((cellTaken r sense u c).reg (LMP_MTX_DIAG r)) (2 * c + 1) (2 * c) = d.cellVerdict r sense c := by
    rw [cellTaken, cellDiag_reg hr, bits_mod_word _ _ _ (by omega), bits_putBits _ _ _ _ (by omega),
      show 2 * c + 1 + 1 - 2 * c = 2 by omega, Nat.mod_eq_of_lt (cellVerdict_lt _ _ _ _), hu]
  have hne (u : Dev) (y : Nat) (hy : y ≠ c) : bits ((cellTaken r sense u y).reg (LMP_MTX_DIAG r)) (2 * c + 1) (2 * c) =
      bits (u.reg (LMP_MTX_DIAG r)) (2 * c + 1) (2 * c) := by
    rw [cellTaken, cellDiag_reg hr, bits_mod_word _ _ _ (by omega), bits_putBits_ne _ _ _ _ _ _ (by omega) (by omega)]
  rw [rowDiag_eq]
  exact obs_foldl (l := List.range 16) (obs := fun t : Dev => bits (t.reg (LMP_MTX_DIAG r)) (2 * c + 1) (2 * c))
    (I := fun t : Dev => t.cellVerdict r sense c = d.cellVerdict r sense c) (List.mem_range.2 hc)
    (fun u y _ hu => (cellVerdict_taken hr sense y u hc).trans hu) hsame (fun u y _ => hne u y) rfl

theorem exec_matrixRowEnd (tau : Nat) (sense : Word) (s : State) : exec (.matrixRowEnd tau sense) s =
    actIn domMch (fun d => rowEnds (d.t0.nanos + tau) sense.toNat d) s := rfl

/-- Settles O3: the flash by the latch that leaves, the scan by the row that starts or by the cells of the row that ends. -/
theorem flashesAndMatrixRows : Obligations.FlashesAndMatrixRows := by
  unfold Obligations.FlashesAndMatrixRows
  intro c w tau sense s hrun hc
  refine ⟨?opens, ?closes, ?starts, ?goesOn, ?rowEnds⟩
  case opens =>
    intro hw hf hen htx
    exact actIn_of_eq hrun (flashOpen_free hw hf hen htx) hc.1
  case closes =>
    intro hw hflash hen hhit hothers hq
    exact actIn_of_eq hrun (flashClose_last hw hflash hen hhit hothers hq) hc.1
  case starts =>
    intro hen hw hphase hs
    rw [exec_matrixRowEnd]
    exact actIn_of_eq hrun (((rowEnds_alone hen hw _ _).1 hphase).trans (rowOn_first hw hs _)) hc.1
  case goesOn =>
    intro hen hw hphase hrow
    have hnext : (s.dev.lmp.row + 1) % 8 = s.dev.lmp.row + 1 := Nat.mod_eq_of_lt (by omega)
    have hrows := (rowEnds_alone hen hw (s.dev.t0.nanos + tau) sense.toNat).2.1 hphase
    rw [hnext, rowOn_later hw (Nat.succ_ne_zero _)] at hrows
    rw [exec_matrixRowEnd]
    exact actIn_of_eq hrun hrows hc.1
  case rowEnds =>
    intro hen hw hphase hrow
    have hdiag : Dev.touches .fault [.lmp] [LMP_FLAGS, LMP_MTX_DIAG s.dev.lmp.row] s.dev
        ((rowDiag s.dev.lmp.row sense.toNat s.dev).lmpMod fun l =>
          { l with phase := .blank, rowEnd := s.dev.t0.nanos + tau + 2000 }) :=
      (rowDiag_touches (by simp) (by simp) hrow (by simp) _ _).trans (lmpMod_touches (by simp) _ _)
    rw [exec_matrixRowEnd]
    exact ⟨_, actIn_of_eq hrun ((rowEnds_alone hen hw _ _).2.2 hphase) (hdiag.calm hc).1, rfl, rfl,
      fun k hk => rowDiag_shown hrow sense.toNat s.dev hk, hdiag.withFault⟩

/-!
PROOFS about the colour reading and the gains that it sets (R393 to R396).
-/

theorem colMeas_block {g : Nat} (h : g < 3) : LMP_COL_MEAS g / 0x10000 = 15 := by
  simp only [LMP_COL_MEAS]
  omega

theorem colGain_block {g : Nat} (h : g < 3) : LMP_COL_GAIN g / 0x10000 = 15 := by
  simp only [LMP_COL_GAIN]
  omega

/-! ### A gain (R394, R395) -/

/-- The gain of group `g` after the channel `meas` was read. -/
def Dev.nextGain (d : Dev) (g : Nat) (gain meas : Nat) : Nat :=
  (clampI (d.get LMP_COL_KI_KMIN) 65535 (((gain % 65536 : Nat) : Int) +
    asr ((d.get LMP_COL_KI_KI : Int) * (((d.reg (LMP_COL_TGT g) % 65536 : Nat) : Int) - (meas : Int))) 16)).toNat

theorem nextGain_lt (d : Dev) (g gain meas : Nat) : d.nextGain g gain meas < 2 ^ 32 := by
  have h : (d.get LMP_COL_KI_KMIN) < 2 ^ 16 := get_lt d _
  simp only [Dev.nextGain, clampI]
  split <;> [skip; split] <;> omega

theorem colourGain_touches (hF : LMP_FLAGS ∈ L) {g : Nat} (hg : g < 3) (hG : LMP_COL_GAIN g ∈ L) (d : Dev) :
    Dev.touches .fault P L d (colourGain d g) := by
  unfold colourGain
  refine .ite _ (.flagEvent LMP_FLAGS_DERATE_HOLD 221 g 0 d hF) ?_
  extract_lets k e lo k' d1
  have h1 : Dev.touches .fault P L d d1 := .setReg d _ _ hG (silentReg_of_block (colGain_block hg))
  refine h1.trans (.ite _ ?_ (.refl _))
  exact (Dev.touches.flagEvent LMP_FLAGS_COL_LIMIT 221 g 0x7B _ hF).trans (.fault 0x7B _ g _)

theorem colGain_flags {g : Nat} : LMP_COL_GAIN g ≠ LMP_FLAGS := by
  simp only [LMP_COL_GAIN, LMP_FLAGS]
  omega

/-- A gain that is not held moves by KI, between KMIN and 65,535. -/
theorem colourGain_moves {g : Nat} (hg : g < 3) {d : Dev} (h : d.groupDerated g = false) :
    (colourGain d g).reg (LMP_COL_GAIN g) = d.nextGain g (d.reg (LMP_COL_GAIN g)) (d.reg (LMP_COL_MEAS g)) := by
  unfold colourGain
  rw [h]
  simp -zeta only [Bool.false_eq_true, if_false]
  extract_lets k e lo k' d1
  have h1 : d1.reg (LMP_COL_GAIN g) = d.nextGain g (d.reg (LMP_COL_GAIN g)) (d.reg (LMP_COL_MEAS g)) :=
    (reg_setReg_same d _ _).trans (Nat.mod_eq_of_lt (nextGain_lt d g (d.reg (LMP_COL_GAIN g)) (d.reg (LMP_COL_MEAS g))))
  have hrest : Dev.touches .fault [] [LMP_FLAGS] d1
      (if k' = lo && k ≠ lo then fault 0x7B sevInfo g (flagEvent LMP_FLAGS_COL_LIMIT 221 g 0x7B d1) else d1) :=
    .ite _ ((Dev.touches.flagEvent LMP_FLAGS_COL_LIMIT 221 g 0x7B _ (by simp)).trans (.fault 0x7B _ g _)) (.refl _)
  exact (hrest.reg (by simpa using colGain_flags) (faultReg_of_block (colGain_block hg))).trans h1

/-- The gain of a derated group stands. -/
theorem colourGain_held {g : Nat} (hg : g < 3) {d : Dev} (h : d.groupDerated g = true) :
    (colourGain d g).reg (LMP_COL_GAIN g) = d.reg (LMP_COL_GAIN g) := by
  have hflag : Dev.touches .fault [] [LMP_FLAGS] d (colourGain d g) := by
    unfold colourGain
    rw [if_pos h]
    exact .flagEvent LMP_FLAGS_DERATE_HOLD 221 g 0 d (by simp)
  exact hflag.reg (by simpa using colGain_flags) (faultReg_of_block (colGain_block hg))

/-- What the gains depend on beside their own registers and the channels. -/
structure Dev.sameColours (d t : Dev) : Prop where
  regs : ∀ a, a / 0x10000 = 15 → a ≠ LMP_FLAGS → a < 0xf0040 ∨ 0xf005c ≤ a → t.reg a = d.reg a
  factor : t.lmp.factor = d.lmp.factor
  mtxFactor : t.lmp.mtxFactor = d.lmp.mtxFactor

theorem groupDerated_congr {d t : Dev} (h : d.sameColours t) (g : Nat) : t.groupDerated g = d.groupDerated g := by
  have hcfg (k : Fin 32) : t.reg (LMP_LD_CFG k.val) = d.reg (LMP_LD_CFG k.val) :=
    h.regs _ (by simp only [LMP_LD_CFG]; omega) (by simp only [LMP_LD_CFG, LMP_FLAGS]; omega) (by simp only [LMP_LD_CFG]; omega)
  simp only [Dev.groupDerated, Dev.ldCount, Dev.get, hcfg, h.factor, h.mtxFactor,
    h.regs LMP_CHAIN_CFG (by decide) (by decide) (by decide), h.regs LMP_MTX_GROUP (by decide) (by decide) (by decide)]
  rfl

theorem nextGain_congr {d t : Dev} (h : d.sameColours t) {g : Nat} (hg : g < 3) (gain meas : Nat) :
    t.nextGain g gain meas = d.nextGain g gain meas := by
  simp only [Dev.nextGain, Dev.get, h.regs LMP_COL_KI (by decide) (by decide) (by decide),
    h.regs (LMP_COL_TGT g) (by simp only [LMP_COL_TGT]; omega) (by simp only [LMP_COL_TGT, LMP_FLAGS]; omega)
      (by simp only [LMP_COL_TGT]; omega)]

theorem touches_lmp {d t : Dev} (h : d.touches .fault [] L t) : t.lmp = d.lmp :=
  h.parts .lmp (by simp) (by simp [Reach.parts])

theorem sameColours_refl (d : Dev) : d.sameColours d := ⟨fun _ _ _ _ => rfl, rfl, rfl⟩

theorem sameColours_trans {d t u : Dev} (h : d.sameColours t) (k : t.sameColours u) : d.sameColours u :=
  ⟨fun a ha hf hlo => (k.regs a ha hf hlo).trans (h.regs a ha hf hlo), k.factor.trans h.factor, k.mtxFactor.trans h.mtxFactor⟩

/-- A change of the channels, the gains and the flags alone. -/
theorem sameColours_of {L : List Nat} {d t : Dev} (h : Dev.touches .fault [] L d t)
    (hL : ∀ a ∈ L, a = LMP_FLAGS ∨ (0xf0040 ≤ a ∧ a < 0xf005c)) : d.sameColours t := by
  have hlmp := touches_lmp h
  refine ⟨fun a ha hf hlo => h.reg (fun hl => ?_) (faultReg_of_block ha), by rw [hlmp], by rw [hlmp]⟩
  exact (hL a hl).elim hf fun hin => by omega

/-- The updates of the three groups, each from what the reading has left. -/
theorem colourGains_spec {g : Nat} (hg : g < 3) (d : Dev) :
    ((List.range 3).foldl colourGain d).reg (LMP_COL_GAIN g) =
      if d.groupDerated g then d.reg (LMP_COL_GAIN g)
      else d.nextGain g (d.reg (LMP_COL_GAIN g)) (d.reg (LMP_COL_MEAS g)) := by
  have hone {u : Dev} {y : Nat} (hy : y ∈ List.range 3) :
      Dev.touches .fault [] [LMP_FLAGS, LMP_COL_GAIN y] u (colourGain u y) :=
    colourGain_touches (by simp) (List.mem_range.1 hy) (by simp) u
  refine obs_foldl_once (obs := fun t : Dev => t.reg (LMP_COL_GAIN g))
    (I := fun t : Dev => d.sameColours t ∧ t.reg (LMP_COL_MEAS g) = d.reg (LMP_COL_MEAS g))
    List.nodup_range (List.mem_range.2 hg) ?_ ?_ ?_ ⟨sameColours_refl d, rfl⟩
  · intro u y hy hu
    have hy3 := List.mem_range.1 hy
    refine ⟨sameColours_trans hu.1 (sameColours_of (hone hy) fun a ha => ?_), ((hone hy).reg ?_ ?_).trans hu.2⟩
    · rw [List.mem_cons, List.mem_singleton] at ha
      exact ha.imp id fun h => by subst h; simp only [LMP_COL_GAIN]; omega
    · simp only [LMP_COL_MEAS, LMP_COL_GAIN, LMP_FLAGS, List.mem_cons, List.not_mem_nil, or_false]
      omega
    · exact faultReg_of_block (colMeas_block hg)
  · intro u y hy hne
    exact (hone hy).reg (by simp [colGain_flags, Ne.symm hne]) (faultReg_of_block (colGain_block hg))
  · intro u hu hgain
    rw [← groupDerated_congr hu.1, ← nextGain_congr hu.1 hg, ← hgain, ← hu.2]
    split
    · rename_i h
      exact colourGain_held hg h
    · rename_i h
      exact colourGain_moves hg (by simpa using h)

theorem colourGains_touches (hL : LMP_FLAGS :: (List.range 3).map LMP_COL_GAIN ⊆ L) (d : Dev) :
    Dev.touches .fault P L d ((List.range 3).foldl colourGain d) :=
  .foldl_mem _ (fun u g hg => colourGain_touches (hL (by simp)) (List.mem_range.1 hg)
    (hL (List.mem_cons_of_mem _ (List.mem_map_of_mem hg))) u) d

/-! ### A reading (R393, R396) -/

/-- The channel of group `g` among the six bytes of a reading. -/
def Dev.channelRead (d : Dev) (bs : List Byte) (g : Nat) : Nat :=
  if d.get LMP_COL_DEV_BE = 1 then leNat ((bs.drop (2 * g)).take 2).reverse else leNat ((bs.drop (2 * g)).take 2)

theorem leNat_lt (bs : List Byte) : leNat bs < 256 ^ bs.length := by
  induction bs with
  | nil => exact Nat.one_pos
  | cons b bs ih =>
    have hb : b.toNat < 256 := b.isLt
    simp only [leNat, List.length_cons, Nat.pow_succ]
    omega

theorem channelRead_lt (d : Dev) (bs : List Byte) (g : Nat) : d.channelRead bs g < 2 ^ 32 := by
  have hpow (l : List Byte) (h : l.length ≤ 2) : leNat l < 2 ^ 32 :=
    Nat.lt_of_lt_of_le (leNat_lt l) ((Nat.pow_le_pow_right (by decide) h).trans (by decide))
  unfold Dev.channelRead
  split
  · exact hpow _ (by simp)
  · exact hpow _ (by simp)

/-- The three channels shown. -/
def channelsShown (ch : Nat → Nat) (d : Dev) : Dev :=
  (List.range 3).foldl (fun (t : Dev) g => t.setReg (LMP_COL_MEAS g) (ch g)) d

theorem channelsShown_reg {ch : Nat → Nat} (hch : ∀ g, ch g < 2 ^ 32) {g : Nat} (hg : g < 3) (d : Dev) :
    (channelsShown ch d).reg (LMP_COL_MEAS g) = ch g := by
  refine obs_foldl (x := g) (l := List.range 3) (obs := fun t : Dev => t.reg (LMP_COL_MEAS g)) (I := fun _ => True)
    (List.mem_range.2 hg) (fun _ _ _ _ => trivial) (fun u _ => ?_) (fun u y _ hy => ?_) trivial
  · exact (reg_setReg_same u _ _).trans (Nat.mod_eq_of_lt (hch g))
  · exact reg_setReg_ne u _ (by simp only [LMP_COL_MEAS]; omega)

theorem channelsShown_touches (hL : (List.range 3).map LMP_COL_MEAS ⊆ L) (ch : Nat → Nat) (d : Dev) :
    Dev.touches m P L d (channelsShown ch d) :=
  .foldl_setReg _ _ _ d (fun _ hg => hL (List.mem_map_of_mem hg))
    fun _ hg => silentReg_of_block (colMeas_block (List.mem_range.1 hg))

/-- What follows the matrix temperature `w`: its factor, and a commit where a level has changed since `before`. -/
def temperatureTaken (before : List (Nat × Nat)) (w : Word) (d : Dev) : Dev :=
  let f := d.derate (some (sx 16 w.toNat))
  let s := d.lmpMod fun l => { l with mtxFactor := f }
  let s := derateChange 32 d.lmp.mtxFactor f (s.setReg LMP_MTX_TEMP (w.toNat % 65536))
  let after := (List.finRange 32).map fun k => (s.ldSteady k, s.ldFlash k)
  if before = after then s else chainCommit s

/-- An undisturbed reading: its channels, the gains, and the temperature. -/
theorem colourDone_undisturbed (bs : List Byte) (w : Word) {d : Dev} (h : d.lmp.measuring = some false) :
    colourDone (some bs) (some w) d =
      temperatureTaken ((List.finRange 32).map fun k => (d.ldSteady k, d.ldFlash k)) w
        ((List.range 3).foldl colourGain
          (channelsShown (d.channelRead bs) (d.lmpMod fun l => { l with measuring := none }))) := by
  unfold colourDone
  rw [h]
  rfl

/-- What a frame that starts leaves of the lamps. -/
theorem chainStart_lamps {d : Dev} (hs : d.shadow = []) :
    (chainStart d).lmp.mtxFactor = d.lmp.mtxFactor
      ∧ (d.lmp.measuring = none → (chainStart d).lmp.measuring = none) := by
  unfold chainStart
  rw [commit_nil hs]
  split
  · split
    · exact ⟨rfl, id⟩
    · dsimp only
      split
      · refine ⟨rfl, fun h => ?_⟩
        change d.lmp.measuring.map _ = none
        rw [h]
        rfl
      · exact ⟨rfl, id⟩
  · exact ⟨rfl, id⟩

theorem chainCommit_lamps {d : Dev} (hs : d.shadow = []) :
    (chainCommit d).lmp.mtxFactor = d.lmp.mtxFactor
      ∧ (d.lmp.measuring = none → (chainCommit d).lmp.measuring = none) := by
  unfold chainCommit
  split
  · exact ⟨rfl, id⟩
  · exact chainStart_lamps (d := d.lmpMod fun l => { l with txQ := l.txQ ++ [1, 2] }) hs

theorem derateChange_lmp (inst old new : Nat) (d : Dev) : (derateChange inst old new d).lmp = d.lmp :=
  touches_lmp (derateChange_touches (L := [LMP_FLAGS]) (by simp) inst old new d)

theorem derate_congr {d t : Dev} (h0 : t.reg LMP_DERATE0 = d.reg LMP_DERATE0) (h1 : t.reg LMP_DERATE1 = d.reg LMP_DERATE1)
    (x : Option Int) : t.derate x = d.derate x := by
  simp only [Dev.derate, Dev.get, h0, h1]

/-- The temperature shows its word and sets the derating factor; the gains and channels stand. -/
theorem temperatureTaken_spec (before : List (Nat × Nat)) (w : Word) {d : Dev} (hs : d.shadow = []) :
    (temperatureTaken before w d).reg LMP_MTX_TEMP = w.toNat % 65536
      ∧ (temperatureTaken before w d).lmp.mtxFactor = d.derate (some (sx 16 w.toNat))
      ∧ (d.lmp.measuring = none → (temperatureTaken before w d).lmp.measuring = none)
      ∧ Dev.touches .fault [.lmp] [LMP_FLAGS, LMP_STATUS, LMP_MTX_TEMP] d (temperatureTaken before w d) := by
  unfold temperatureTaken
  extract_lets f d1 d2 after
  have h1 : Dev.touches .fault [.lmp] [LMP_MTX_TEMP] d1 (d1.setReg LMP_MTX_TEMP (w.toNat % 65536)) :=
    .setReg d1 _ _ (by simp)
  have h2 {L : List Nat} (hL : LMP_FLAGS ∈ L) : Dev.touches .fault [.lmp] L (d1.setReg LMP_MTX_TEMP (w.toNat % 65536)) d2 :=
    derateChange_touches hL _ _ _ _
  have hs2 : d2.shadow = [] := (h2 (L := [LMP_FLAGS]) (by simp)).shadow (h1.shadow hs)
  have h3 {L : List Nat} (hL : LMP_STATUS ∈ L) : Dev.touches .fault [.lmp] L d2 (if before = after then d2 else chainCommit d2) :=
    .ite _ (.refl _) (chainCommit_touches (by simp) hL hs2)
  have hlamps : (if before = after then d2 else chainCommit d2).lmp.mtxFactor = d2.lmp.mtxFactor
      ∧ (d2.lmp.measuring = none → (if before = after then d2 else chainCommit d2).lmp.measuring = none) := by
    split
    · exact ⟨rfl, id⟩
    · exact chainCommit_lamps hs2
  have hd2 : d2.lmp = { d.lmp with mtxFactor := f } := derateChange_lmp _ _ _ _
  refine ⟨?_, ?_, fun h => hlamps.2 (by rw [hd2]; exact h), ?_⟩
  · rw [(h3 (L := [LMP_STATUS]) (by simp)).reg (by decide) rfl, (h2 (L := [LMP_FLAGS]) (by simp)).reg (by decide) rfl,
      reg_setReg_same]
    exact Nat.mod_eq_of_lt (Nat.lt_trans (Nat.mod_lt _ (by decide)) (by decide))
  · rw [hlamps.1, hd2]
  · exact (((lmpMod_touches (by simp) _ d).trans (h1.mono (fun _ => id) (by simp))).trans (h2 (by simp))).trans (h3 (by simp))

/-- The registers of a reading. -/
def colourRegs : List Nat :=
  [LMP_FLAGS, LMP_STATUS, LMP_MTX_TEMP] ++ (List.range 3).map LMP_COL_MEAS ++ (List.range 3).map LMP_COL_GAIN

theorem measReg_apart {g : Nat} (hg : g < 3) :
    LMP_COL_MEAS g ∉ [LMP_FLAGS, LMP_STATUS, LMP_MTX_TEMP] ∧ LMP_COL_MEAS g ∉ LMP_FLAGS :: (List.range 3).map LMP_COL_GAIN := by
  simp only [LMP_FLAGS, LMP_STATUS, LMP_MTX_TEMP, LMP_COL_MEAS, LMP_COL_GAIN, List.mem_cons, List.mem_map, List.mem_range,
    List.not_mem_nil, not_or, not_exists, not_and, or_false]
  exact ⟨by omega, by omega, fun x hx => by omega⟩

theorem gainReg_apart (g : Nat) :
    LMP_COL_GAIN g ∉ [LMP_FLAGS, LMP_STATUS, LMP_MTX_TEMP] ∨ 3 ≤ g := by
  simp only [LMP_FLAGS, LMP_STATUS, LMP_MTX_TEMP, LMP_COL_GAIN, List.mem_cons, List.not_mem_nil, or_false]
  omega

theorem gainReg_not_meas {g : Nat} (hg : g < 3) : LMP_COL_GAIN g ∉ (List.range 3).map LMP_COL_MEAS := by
  simp only [LMP_COL_MEAS, LMP_COL_GAIN, List.mem_map, List.mem_range, not_exists, not_and]
  omega

/-- What an undisturbed reading leaves: channels, gains, and the matrix temperature with its factor. -/
structure Dev.readingTaken (bs : List Byte) (w : Word) (d t : Dev) : Prop where
  idle : t.lmp.measuring = none
  channels : ∀ g, g < 3 → t.reg (LMP_COL_MEAS g) = d.channelRead bs g
  gains : ∀ g, g < 3 → t.reg (LMP_COL_GAIN g) =
    if d.groupDerated g then d.reg (LMP_COL_GAIN g) else d.nextGain g (d.reg (LMP_COL_GAIN g)) (d.channelRead bs g)
  temperature : t.reg LMP_MTX_TEMP = w.toNat % 65536
  factor : t.lmp.mtxFactor = d.derate (some (sx 16 w.toNat))
  rest : Dev.touches .fault [.lmp] colourRegs d t

theorem colourDone_reads (bs : List Byte) (w : Word) {d : Dev} (h : d.lmp.measuring = some false) (hs : d.shadow = []) :
    d.readingTaken bs w (colourDone (some bs) (some w) d) := by
  rw [colourDone_undisturbed bs w h]
  generalize ((List.finRange 32).map fun k => (d.ldSteady k, d.ldFlash k)) = before
  generalize hfree : (d.lmpMod fun l => { l with measuring := none }) = d1
  generalize hshow : channelsShown (d.channelRead bs) d1 = d2
  generalize hgain : (List.range 3).foldl colourGain d2 = d3
  have h1 : Dev.touches .fault [.lmp] [] d d1 := hfree ▸ lmpMod_touches (by simp) _ _
  have hd1 : d.sameColours d1 := by
    rw [← hfree]
    exact ⟨fun _ _ _ _ => rfl, rfl, rfl⟩
  have h2 {P : List Part} : Dev.touches .fault P ((List.range 3).map LMP_COL_MEAS) d1 d2 :=
    hshow ▸ channelsShown_touches (fun _ => id) _ _
  have hd2 : d.sameColours d2 := sameColours_trans hd1 (sameColours_of h2 fun a ha => by
    obtain ⟨x, hx, rfl⟩ := List.mem_map.1 ha
    have := List.mem_range.1 hx
    simp only [LMP_COL_MEAS]
    omega)
  have h3 {P : List Part} : Dev.touches .fault P (LMP_FLAGS :: (List.range 3).map LMP_COL_GAIN) d2 d3 :=
    hgain ▸ colourGains_touches (fun _ => id) _
  have hlmp : d3.lmp = d1.lmp := (touches_lmp h3).trans (touches_lmp h2)
  obtain ⟨htemp, hfactor, hidle, h4⟩ := temperatureTaken_spec before w
    ((h3 (P := [])).shadow ((h2 (P := [])).shadow (h1.shadow hs)))
  have hmeas {g : Nat} (hg : g < 3) : d2.reg (LMP_COL_MEAS g) = d.channelRead bs g := by
    rw [← hshow, channelsShown_reg (channelRead_lt d bs) hg]
  have hderate : d3.derate (some (sx 16 w.toNat)) = d.derate (some (sx 16 w.toNat)) := by
    have hreg {a : Nat} (hm : a ∉ (List.range 3).map LMP_COL_MEAS) (hg : a ∉ LMP_FLAGS :: (List.range 3).map LMP_COL_GAIN)
        (hf : faultReg a = false) : d3.reg a = d.reg a :=
      ((h3 (P := [])).reg hg hf).trans (((h2 (P := [])).reg hm hf).trans (h1.reg (by simp) hf))
    exact derate_congr (hreg (by decide) (by decide) rfl) (hreg (by decide) (by decide) rfl) _
  refine ⟨hidle ?_, fun g hg => ?_, fun g hg => ?_, htemp, hfactor.trans hderate, ?_⟩
  · rw [hlmp, ← hfree]
    rfl
  · have hblock := faultReg_of_block (colMeas_block hg)
    rw [h4.reg (measReg_apart hg).1 hblock, (h3 (P := [])).reg (measReg_apart hg).2 hblock, hmeas hg]
  · have hblock := faultReg_of_block (colGain_block hg)
    rw [h4.reg ((gainReg_apart g).resolve_right (by omega)) hblock, ← hgain, colourGains_spec hg, hmeas hg,
      groupDerated_congr hd2, nextGain_congr hd2 hg, (h2 (P := [])).reg (gainReg_not_meas hg) hblock,
      h1.reg (by simp) hblock]
  · have hL2 : (List.range 3).map LMP_COL_MEAS ⊆ colourRegs := by decide
    have hL3 : LMP_FLAGS :: (List.range 3).map LMP_COL_GAIN ⊆ colourRegs := by decide
    have hL4 : [LMP_FLAGS, LMP_STATUS, LMP_MTX_TEMP] ⊆ colourRegs := by decide
    exact (((h1.mono (fun _ => id) (List.nil_subset _)).trans (h2.mono (fun _ => id) hL2)).trans
      (h3.mono (fun _ => id) hL3)).trans (h4.mono (fun _ => id) hL4)

/-- Settles O4: a reading starts with what may have disturbed it; its end by the channels, then the gains, then the
temperature. -/
theorem lampColourReading : Obligations.LampColourReading := by
  unfold Obligations.LampColourReading
  intro bs w s hrun hc hs
  refine ⟨fun hen => actIn_of_eq hrun (if_pos hen) hc.1, fun hmeas _ => ?_⟩
  obtain ⟨hidle, hchannels, hgains, htemp, hfactor, hrest⟩ := colourDone_reads bs w hmeas hs
  refine ⟨_, actIn_run hrun (hrest.calm hc).1, hidle, hchannels, fun g hg hfree => ?_, fun g hg hheld => ?_, htemp, hfactor,
    hrest.withFault⟩
  · rw [hgains g hg, hchannels g hg, hfree]
    rfl
  · rw [hgains g hg, hheld]
    rfl

/-!
PROOFS about the secure partition (R418 to R422): its keys, its wipes, and the statement.
-/

/-! ### What the partition shows (R427) -/

theorem secShow_touches (hL : SEC_STATUS ∈ L) (d : Dev) : Dev.touches m P L d (secShow d) :=
  (Dev.touches.put d SEC_STATUS_KEY_VALID _ hL).trans (.put _ SEC_STATUS_READY _ hL)

/-- KEY_VALID shows which keys are held, READY that no wipe and no command runs; WIPING stands. -/
theorem secShow_spec (d : Dev) :
    (secShow d).on SEC_STATUS_WIPING = d.on SEC_STATUS_WIPING
      ∧ (secShow d).on SEC_STATUS_READY = (!d.on SEC_STATUS_WIPING && !d.on SEC_KEY_STAT_BUSY)
      ∧ ∀ j : KeySlot, bit ((secShow d).get SEC_STATUS_KEY_VALID) j.val = (vat d.sec.keys j).isSome := by
  obtain ⟨hlt, hbits⟩ := testBit_sum fun i : Fin 16 => (vat d.sec.keys i).isSome
  unfold secShow
  extract_lets valid d1
  have hwiping : d1.on SEC_STATUS_WIPING = d.on SEC_STATUS_WIPING := by
    simp only [Dev.on, d1, get_put_ne d SEC_STATUS_KEY_VALID SEC_STATUS_WIPING valid (by decide) (by decide) (by decide)]
  have hbusy : d1.on SEC_KEY_STAT_BUSY = d.on SEC_KEY_STAT_BUSY := by
    simp only [Dev.on, d1, get_put_ne d SEC_STATUS_KEY_VALID SEC_KEY_STAT_BUSY valid (by decide) (by decide) (by decide)]
  have hvalid : d1.get SEC_STATUS_KEY_VALID = valid := by
    rw [get_put_same d _ _ (by decide) (by decide)]
    exact Nat.mod_eq_of_lt hlt
  rw [hwiping, hbusy]
  refine ⟨?_, ?_, fun j => ?_⟩
  · rw [← hwiping]
    simp only [Dev.on, get_put_ne d1 SEC_STATUS_READY SEC_STATUS_WIPING _ (by decide) (by decide) (by decide)]
  · cases d.on SEC_STATUS_WIPING <;> cases d.on SEC_KEY_STAT_BUSY <;>
      simp [Dev.on, get_put_same d1 SEC_STATUS_READY _ (by decide) (by decide), b2n]
  · rw [get_put_ne d1 SEC_STATUS_READY SEC_STATUS_KEY_VALID _ (by decide) (by decide) (by decide), hvalid]
    exact hbits j

/-! ### The wrap registers (R419, R420) -/

theorem wrapReg_block {i : Nat} (h : i < 10) : SEC_KEY_WRAP i / 0x10000 = 21 := by
  simp only [SEC_KEY_WRAP]
  omega

/-- The wrap registers. -/
def wrapRegs : List Nat := (List.range 10).map SEC_KEY_WRAP

theorem wrapReg_mem {i : Nat} (h : i < 10) : SEC_KEY_WRAP i ∈ wrapRegs := List.mem_map_of_mem (List.mem_range.2 h)

theorem wrapClear_touches (hL : wrapRegs ⊆ L) (d : Dev) : Dev.touches m P L d (wrapClear d) :=
  .foldl_setReg SEC_KEY_WRAP (fun _ => 0) _ d (fun _ hi => hL (List.mem_map_of_mem hi))
    fun _ hi => silentReg_of_block (wrapReg_block (List.mem_range.1 hi))

theorem wrapClear_reg {i : Nat} (h : i < 10) (d : Dev) : (wrapClear d).reg (SEC_KEY_WRAP i) = 0 :=
  reg_foldl_clear SEC_KEY_WRAP _ (List.mem_range.2 h) d

/-! ### Key commands (R419) -/

/-- The end of a key command with `result`: it is shown, the wrap registers are cleared, and no command waits. -/
def keyEnded (result : Nat) (k : KeySlot) (d : Dev) : Dev :=
  let s := if result = 0 then d else aonFlag SEC_FLAGS_KEY_REFUSED 42 k.val d
  let s := (s.put SEC_KEY_STAT_RESULT result).put SEC_KEY_STAT_BUSY 0
  secShow (wrapClear { s with sec := { s.sec with waiting := none } })

/-- Slot `k` set to `key`, with its subkey, and its NONCE restarted. -/
def keySet (k : KeySlot) (key : Option (List Byte)) (d : Dev) : Dev :=
  { d with sec := { d.sec with
      keys := vput d.sec.keys k key
      subkeys := vput d.sec.subkeys k (match key with | some x => gcmSubkey x | none => 0)
      nonces := vput d.sec.nonces k 0 } }

theorem keySet_touches (hP : Part.sec ∈ P) (k : KeySlot) (key : Option (List Byte)) (d : Dev) :
    Dev.touches m P L d (keySet k key d) := .ofWithin (toSec_within d (keySet k key d).sec) (by simpa using hP)

theorem keyPerform_erase (k : KeySlot) (d : Dev) : keyPerform 2 k d = keyEnded 0 k (keySet k none d) := rfl

/-- A LOAD by whether a key-encryption key is fused and whether the wrapped key unwraps. -/
theorem keyPerform_load (k : KeySlot) (d : Dev) :
    (d.start.fuses.kek = none → keyPerform 1 k d = keyEnded 2 k d)
      ∧ ∀ kek, d.start.fuses.kek = some kek → d.get DEV_LC_IN_FORCE ≠ 3 →
        (aesUnwrap kek d.wrapped = none → keyPerform 1 k d = keyEnded 1 k d)
          ∧ ∀ key, aesUnwrap kek d.wrapped = some key → keyPerform 1 k d = keyEnded 0 k (keySet k (some key) d) := by
  refine ⟨fun h => ?_, fun kek h hlc => ⟨fun hu => ?_, fun key hu => ?_⟩⟩ <;> unfold keyPerform
  · simp -zeta only [h, OfNat.one_ne_ofNat, if_false]
    rfl
  · simp -zeta only [h, hlc, hu, OfNat.one_ne_ofNat, if_false]
    rfl
  · simp -zeta only [h, hlc, hu, OfNat.one_ne_ofNat, if_false]
    rfl

/-- A key command that is accepted and whose slot no layer file uses is performed at once. -/
theorem keyCommand_free {op : Nat} {k : KeySlot} {d : Dev} (hr : d.on SEC_STATUS_READY = true) (hu : d.keyInUse k = false) :
    keyCommand op k d = keyPerform op k d := by
  simp [keyCommand, hr, hu]

/-- The registers of a key command. -/
def keyRegs : List Nat := [SEC_KEY_STAT, SEC_STATUS] ++ wrapRegs

theorem keyRegs_wrap : wrapRegs ⊆ keyRegs := List.subset_append_right _ _

/-- The end of a command after its refusal was flagged, or its key set. -/
theorem keyEnded_shown (result : Nat) (hres : result < 4) (d : Dev) :
    let t := secShow (wrapClear { (d.put SEC_KEY_STAT_RESULT result).put SEC_KEY_STAT_BUSY 0 with
      sec := { d.sec with waiting := none } })
    t.get SEC_KEY_STAT_RESULT = result ∧ (∀ i, i < 10 → t.reg (SEC_KEY_WRAP i) = 0)
      ∧ (∀ j : KeySlot, bit (t.get SEC_STATUS_KEY_VALID) j.val = (vat d.sec.keys j).isSome)
      ∧ t.sec = { d.sec with waiting := none } ∧ Dev.touches m (.sec :: P) keyRegs d t := by
  intro t
  generalize hu : ({ (d.put SEC_KEY_STAT_RESULT result).put SEC_KEY_STAT_BUSY 0 with
      sec := { d.sec with waiting := none } } : Dev) = u
  have ht : t = secShow (wrapClear u) := by rw [← hu]
  have hclear : Dev.touches .plain [] wrapRegs u (wrapClear u) := wrapClear_touches (fun _ => id) u
  have hshow : Dev.touches .plain [] [SEC_STATUS] (wrapClear u) t := ht ▸ secShow_touches (by simp) _
  have hsec : (wrapClear u).sec = { d.sec with waiting := none } := (hclear.parts .sec (by simp) (by simp [Reach.parts])).trans
    (by rw [← hu])
  have hresult : u.get SEC_KEY_STAT_RESULT = result := by
    rw [← hu]
    change ((d.put SEC_KEY_STAT_RESULT result).put SEC_KEY_STAT_BUSY 0).get SEC_KEY_STAT_RESULT = result
    rw [get_put_ne _ _ _ _ (by decide) (by decide) (by decide), get_put_same _ _ _ (by decide) (by decide)]
    exact Nat.mod_eq_of_lt hres
  refine ⟨?_, fun i hi => ?_, ?_, (hshow.parts .sec (by simp) (by simp [Reach.parts])).trans hsec, ?_⟩
  · rw [hshow.get (by decide) rfl, hclear.get (by decide) rfl, hresult]
  · rw [hshow.reg (by simp only [SEC_KEY_WRAP, SEC_STATUS, List.mem_singleton]; omega) rfl, wrapClear_reg hi]
  · rw [ht]
    intro j
    rw [(secShow_spec _).2.2, hsec]
  · rw [ht]
    have hstart : Dev.touches m (.sec :: P) keyRegs d u := by
      rw [← hu]
      refine ((Dev.touches.put d SEC_KEY_STAT_RESULT result (by simp [keyRegs])).trans
        (.put _ SEC_KEY_STAT_BUSY 0 (by simp [keyRegs]))).trans (.ofWithin (toSec_within _ _) (by simp))
    exact (hstart.trans (wrapClear_touches keyRegs_wrap u)).trans (secShow_touches (by simp [keyRegs]) _)

/-- A command that ends with RESULT 0. -/
theorem keyEnded_done (k : KeySlot) (d : Dev) :
    (keyEnded 0 k d).get SEC_KEY_STAT_RESULT = 0 ∧ (∀ i, i < 10 → (keyEnded 0 k d).reg (SEC_KEY_WRAP i) = 0)
      ∧ (∀ j : KeySlot, bit ((keyEnded 0 k d).get SEC_STATUS_KEY_VALID) j.val = (vat d.sec.keys j).isSome)
      ∧ (keyEnded 0 k d).sec = { d.sec with waiting := none } ∧ Dev.touches m (.sec :: P) keyRegs d (keyEnded 0 k d) :=
  keyEnded_shown 0 (by decide) d

/-- The registers of a key command that is refused. -/
def refusedRegs : List Nat := [SEC_KEY_STAT, SEC_STATUS, SEC_FLAGS] ++ wrapRegs

theorem keyRegs_refused : keyRegs ⊆ refusedRegs := by decide

/-- While FAB runs, a command that ends with another RESULT: it is flagged, and the keys are as before. -/
theorem keyEnded_refused {result : Nat} (h0 : result ≠ 0) (h4 : result < 4) (k : KeySlot) {d : Dev} (hf : d.fabRuns = true) :
    (keyEnded result k d).get SEC_KEY_STAT_RESULT = result ∧ (keyEnded result k d).on SEC_FLAGS_KEY_REFUSED = true
      ∧ (∀ i, i < 10 → (keyEnded result k d).reg (SEC_KEY_WRAP i) = 0)
      ∧ (keyEnded result k d).sec = { d.sec with waiting := none }
      ∧ Dev.touches .event [.sec] refusedRegs d (keyEnded result k d) := by
  have hflag := aonFlag_flag (f := SEC_FLAGS_KEY_REFUSED) hf (by decide) 42 k.val
  have hon := flagEvent_on SEC_FLAGS_KEY_REFUSED k.val 0 d (e := 42) (by decide) (by decide) (by decide) (by decide)
  have htouch : Dev.touches .event [] [SEC_FLAGS] d (flagEvent SEC_FLAGS_KEY_REFUSED 42 k.val 0 d) :=
    .flagEvent SEC_FLAGS_KEY_REFUSED 42 k.val 0 d (by simp)
  generalize hu : flagEvent SEC_FLAGS_KEY_REFUSED 42 k.val 0 d = u at hflag hon htouch
  obtain ⟨hresult, hwrap, _, hsec, hrest⟩ := keyEnded_shown (m := .event) (P := []) result h4 u
  have heq : keyEnded result k d = secShow (wrapClear { (u.put SEC_KEY_STAT_RESULT result).put SEC_KEY_STAT_BUSY 0 with
      sec := { u.sec with waiting := none } }) := by
    unfold keyEnded
    rw [if_neg h0, hflag]
    rfl
  rw [heq]
  have hkept : u.sec = d.sec := htouch.parts .sec (by simp) (by simp [Reach.parts])
  refine ⟨hresult, (hrest.on (by decide) rfl).trans hon, hwrap, hsec.trans (by rw [hkept]), ?_⟩
  exact (htouch.mono (List.nil_subset _) (by simp [refusedRegs])).trans (hrest.mono (fun _ => id) keyRegs_refused)

/-! ### Wipes (R420 to R422) -/

/-- The registers of a wipe. -/
def wipeRegs : List Nat := [SEC_WIPE_CAUSE, SEC_STATUS, SEC_KEY_STAT, DEV_STATE] ++ wrapRegs

/-- What the start of a wipe for `cause` leaves. -/
structure Dev.wiped (cause : Nat) (t : Dev) : Prop where
  wiping : t.on SEC_STATUS_WIPING = true
  notReady : t.on SEC_STATUS_READY = false
  cause : bit (t.reg SEC_WIPE_CAUSE) cause = true
  auth : t.on DEV_STATE_AUTH_OK = false
  keys : ∀ k : KeySlot, vat t.sec.keys k = none ∧ vat t.sec.nonces k = 0
  waiting : t.sec.waiting = none
  staged : t.sec.staged = none

theorem secWipe_wipes {cause : Nat} (hcause : cause < 32) (d : Dev) :
    Dev.wiped cause (secWipe cause d) ∧ Dev.touches m (.sec :: P) wipeRegs d (secWipe cause d) := by
  unfold secWipe
  extract_lets d1 d2 d3
  generalize hv : ({ d3 with sec := { d3.sec with
    keys := Vector.replicate 16 none, subkeys := Vector.replicate 16 0, nonces := Vector.replicate 16 0,
    waiting := none, staged := none } } : Dev) = v
  have h1 : Dev.touches m (.sec :: P) wipeRegs d d1 := .setReg d _ _ (by simp [wipeRegs])
  have hcmd {L : List Nat} {n : Reach} {Q : List Part} (hs : SEC_KEY_STAT ∈ L) (hw : wrapRegs ⊆ L) : Dev.touches n Q L d1 d2 :=
    .ite _ (((Dev.touches.put d1 SEC_KEY_STAT_RESULT 3 hs).trans (.put _ SEC_KEY_STAT_BUSY 0 hs)).trans
      (wrapClear_touches hw _)) (.refl d1)
  have h2 : Dev.touches m (.sec :: P) wipeRegs d1 d2 := hcmd (by simp [wipeRegs]) (List.subset_append_right _ _)
  have h3 : Dev.touches m (.sec :: P) wipeRegs d2 d3 :=
    (Dev.touches.put d2 SEC_STATUS_WIPING 1 (by simp [wipeRegs])).trans (.put _ DEV_STATE_AUTH_OK 0 (by simp [wipeRegs]))
  have h4 : Dev.touches m (.sec :: P) wipeRegs d3 v := hv ▸ .ofWithin (toSec_within d3 _) (by simp)
  have h5 : Dev.touches m (.sec :: P) wipeRegs v (secShow v) := secShow_touches (by simp [wipeRegs]) v
  have hregs (a : Nat) : v.reg a = d3.reg a := by rw [← hv, reg_mk]
  have hvw : v.on SEC_STATUS_WIPING = true := by
    rw [on_congr (hregs _)]
    have hset := on_put_one d2 SEC_STATUS_WIPING (by decide) (by decide)
    rwa [on_congr (reg_put_ne _ _ _ (by decide))]
  have hlast : Dev.touches .plain [] [SEC_STATUS] v (secShow v) := secShow_touches (by simp) v
  have hsec : (secShow v).sec = v.sec := hlast.parts .sec (by simp) (by simp [Reach.parts])
  refine ⟨⟨(secShow_spec v).1.trans hvw, ?_, ?_, ?_, fun k => ?_, ?_, ?_⟩, (((h1.trans h2).trans h3).trans h4).trans h5⟩
  · rw [(secShow_spec v).2.1, hvw]
    rfl
  · have hd2 : d2.reg SEC_WIPE_CAUSE = d1.reg SEC_WIPE_CAUSE :=
      (hcmd (n := .plain) (Q := []) (L := SEC_KEY_STAT :: wrapRegs) (by simp) (List.subset_cons_self _ _)).reg (by decide) rfl
    rw [hlast.reg (by decide) rfl, hregs, reg_put_ne _ _ _ (by decide), reg_put_ne _ _ _ (by decide), hd2, reg_setReg_same,
      bit_mod_word _ _ hcause, bit_setBit_same]
  · rw [hlast.on (by decide) rfl, on_congr (hregs _)]
    exact on_put_zero _ _ (by decide) (by decide)
  · rw [hsec, ← hv]
    exact ⟨vat_replicate none k, vat_replicate 0 k⟩
  · rw [hsec, ← hv]
  · rw [hsec, ← hv]

/-- A wipe that an event precedes: the event is pending. -/
theorem secWipe_after {cause e : Nat} (hcause : cause < 32) (he : e < 256) {d : Dev} (hf : d.fabRuns = true) :
    Dev.wiped cause (secWipe cause (aonEvent e 0xFF 0 none d)) ∧ (secWipe cause (aonEvent e 0xFF 0 none d)).pends e
      ∧ Dev.touches .event [.sec] wipeRegs d (secWipe cause (aonEvent e 0xFF 0 none d)) := by
  rw [aonEvent_occur hf]
  obtain ⟨hwiped, hrest⟩ := secWipe_wipes (m := .event) (P := []) hcause (occur e 0xFF 0 d)
  exact ⟨hwiped, hrest.pends e he (occur_pends e 0xFF 0 d he), (Dev.touches.occur e 0xFF 0 d he).trans hrest⟩

/-- Outside PRODUCTION, with no update pending, the recheck of R528 changes nothing. -/
theorem secRecheck_idle {d : Dev} (hlc : d.get DEV_LC_IN_FORCE ≠ 2) (hu : d.get DEV_UPD_STAT_STATE ≠ 3) : secRecheck d = d := by
  simp [secRecheck, hlc, hu]

/-- The Treadle stays where it is not in LAYER_CLOSE. -/
theorem closeLeave_idle {d : Dev} (h : d.get TRD_STATE_STATE ≠ 6) : closeLeave d = d := by
  have hdone : d.closeDone = false := by simp [Dev.closeDone, Dev.trdState, h]
  simp [closeLeave, hdone]

/-- The registers of a wipe's end. -/
def wipedRegs : List Nat := [SEC_STATUS, SEC_WIPES, SEC_FLAGS]

/-- A wipe ends (R422). -/
theorem wipe_ends {d : Dev} (hw : d.on SEC_STATUS_WIPING = true) (hlc : d.get DEV_LC_IN_FORCE ≠ 2)
    (hu : d.get DEV_UPD_STAT_STATE ≠ 3) (ht : d.get TRD_STATE_STATE ≠ 6) (hf : d.fabRuns = true) :
    (closeLeave (secWiped d)).on SEC_STATUS_WIPING = false ∧ (closeLeave (secWiped d)).on SEC_FLAGS_WIPED = true
      ∧ (closeLeave (secWiped d)).reg SEC_WIPES = min (d.reg SEC_WIPES + 1) 0xFFFFFFFF ∧ (closeLeave (secWiped d)).pends 41
      ∧ Dev.touches .fault P wipedRegs d (closeLeave (secWiped d)) := by
  generalize h1 : (d.put SEC_STATUS_WIPING 0).count SEC_WIPES 1 = d1
  generalize h2 : d1.put SEC_FLAGS_WIPED 1 = d2
  have ht1 {P : List Part} : Dev.touches .fault P wipedRegs d d1 :=
    h1 ▸ (Dev.touches.put d SEC_STATUS_WIPING 0 (by simp [wipedRegs])).trans (.count _ SEC_WIPES 1 (by simp [wipedRegs]))
  have ht2 {P : List Part} {L : List Nat} (hL : SEC_FLAGS ∈ L) : Dev.touches .fault P L d1 d2 := h2 ▸ .put d1 SEC_FLAGS_WIPED 1 hL
  have ht3 {P : List Part} {L : List Nat} (hL : SEC_STATUS ∈ L) : Dev.touches .fault P L d2 (secShow d2) := secShow_touches hL d2
  have hstart {P : List Part} : Dev.touches .fault P wipedRegs d (secShow d2) :=
    (ht1.trans (ht2 (by simp [wipedRegs]))).trans (ht3 (by simp [wipedRegs]))
  have hfab : (secShow d2).fabRuns = true := (fabRuns_congr ((hstart (P := [])).reg (by decide) rfl)).trans hf
  have hevent {P : List Part} {L : List Nat} : Dev.touches .fault P L (secShow d2) (faultEvent 0x06 sevInfo 0xFF 41 (secShow d2)) :=
    .faultEvent 0x06 sevInfo 0xFF 41 _
  have hall {P : List Part} : Dev.touches .fault P wipedRegs d (faultEvent 0x06 sevInfo 0xFF 41 (secShow d2)) := hstart.trans hevent
  have hend : closeLeave (secWiped d) = faultEvent 0x06 sevInfo 0xFF 41 (secShow d2) := by
    have hwiped : secWiped d = secRecheck (aonEvent 41 0xFF 0x06 (some sevInfo) (secShow d2)) := by
      unfold secWiped
      rw [if_neg (by simp [hw]), ← h2, ← h1]
    rw [hwiped, aonEvent_fault hfab, secRecheck_idle, closeLeave_idle]
    · rwa [(hall (P := [])).get (by decide) rfl]
    · rwa [(hall (P := [])).get (by decide) rfl]
    · rwa [(hall (P := [])).get (by decide) rfl]
  rw [hend]
  refine ⟨?_, ?_, ?_, faultEvent_pends (by decide) (by decide) _ _ _, hall⟩
  · rw [(hevent (P := []) (L := [])).on (by decide) rfl, (secShow_spec d2).1, (ht2 (P := []) (L := [SEC_FLAGS]) (by simp)).on
      (by decide) rfl, ← h1, on_congr (reg_count_ne _ _ (by decide))]
    exact on_put_zero d _ (by decide) (by decide)
  · rw [(hevent (P := []) (L := [])).on (by decide) rfl, (ht3 (P := []) (L := [SEC_STATUS]) (by simp)).on (by decide) rfl, ← h2]
    exact on_put_one d1 _ (by decide) (by decide)
  · rw [(hevent (P := []) (L := [])).reg (by decide) rfl, (ht3 (P := []) (L := [SEC_STATUS]) (by simp)).reg (by decide) rfl,
      (ht2 (P := []) (L := [SEC_FLAGS]) (by simp)).reg (by decide) rfl, ← h1, reg_count_same, reg_put_ne _ _ _ (by decide)]

/-! ### The statement -/

theorem exec_wipeAll {key : Word} (h : key.toNat % 65536 = 0x5EC0) {s : State} (hrun : s.dev.runs domAon = true)
    (hq : (secWipe 5 s.dev).ev.reacts = []) : exec (.wipeAll key) s = .next { s with dev := secWipe 5 s.dev } :=
  actIn_of_eq (f := fun d => if key.toNat % 65536 = 0x5EC0 then secWipe 5 d else aonFlag SEC_FLAGS_WRITE_LOCKED 44 0xFF d)
    hrun (if_pos h) hq

theorem exec_tamper (s : State) : exec .tamper s = actIn domAon (fun d => secWipe 0 (aonEvent 9 0xFF 0 none d)) s := rfl

theorem exec_glitch (clock : Bool) (s : State) :
    exec (.glitch clock) s = actIn domAon (fun d => secWipe (if clock then 2 else 1) (aonEvent 10 0xFF 0 none d)) s := rfl

theorem exec_secWipe (s : State) : exec .secWipe s = actIn domAon (fun d => closeLeave (secWiped d)) s := rfl

/-- Settles O8: a key command by the key that it sets or the refusal that it flags, each cause by the wipe that it starts,
and the wipe's end. -/
theorem securePartition : Obligations.SecurePartition := by
  unfold Obligations.SecurePartition
  intro k kek key clock s hrun hfab hc
  have hf := fabRuns_of_runs hfab
  have hload (hready : s.dev.on SEC_STATUS_READY = true) (huse : s.dev.keyInUse k = false) {t : Dev}
      (ht : keyPerform 1 k s.dev = t) (hq : t.calm) : exec (.keyLoad k) s = .next { s with dev := t } :=
    actIn_of_eq hrun ((keyCommand_free hready huse).trans ht) hq.1
  refine ⟨?erase, ?noKek, ?load, ?wipeAll, ?tamper, ?glitch, ?ends⟩
  case erase =>
    intro hready huse
    have hset := keySet_touches (m := .plain) (P := [.sec]) (L := keyRegs) (by simp) k none s.dev
    obtain ⟨hresult, hwrap, hvalid, hsec, hrest⟩ := keyEnded_done (m := .plain) (P := []) k (keySet k none s.dev)
    have hrun2 : exec (.keyErase k) s = .next { s with dev := keyEnded 0 k (keySet k none s.dev) } :=
      actIn_of_eq hrun ((keyCommand_free hready huse).trans (keyPerform_erase k s.dev)) ((hset.trans hrest).calm hc).1
    refine ⟨_, hrun2, ?_, ?_, hresult, hwrap, fun j => ?_, fun j hj => ?_, (hset.trans hrest).regsOnly⟩
    · rw [hsec]
      exact vat_vput_same _ k none
    · rw [hsec]
      exact vat_vput_same _ k 0
    · rw [hvalid, hsec]
    · rw [hsec]
      exact ⟨vat_vput_ne _ none hj, vat_vput_ne _ 0 hj⟩
  case noKek =>
    intro hready huse hkek
    obtain ⟨hresult, hflag, hwrap, hsec, hrest⟩ := keyEnded_refused (result := 2) (by decide) (by decide) k hf
    exact ⟨_, hload hready huse ((keyPerform_load k s.dev).1 hkek) (hrest.calm hc), hsec, hresult, hflag, hwrap, hrest.withEvent⟩
  case load =>
    intro hready huse hkek hlc
    obtain ⟨hbad, hgood⟩ := (keyPerform_load k s.dev).2 kek hkek hlc
    cases hunwrap : aesUnwrap kek s.dev.wrapped with
    | none =>
      obtain ⟨hresult, hflag, hwrap, hsec, hrest⟩ := keyEnded_refused (result := 1) (by decide) (by decide) k hf
      refine ⟨_, hload hready huse (hbad hunwrap) (hrest.calm hc), by simp, fun _ => ⟨hresult, hflag, ?_⟩, hwrap, fun j _ => ?_,
        hrest.withEvent⟩
      · rw [hsec]
      · rw [hsec]
        exact ⟨rfl, rfl⟩
    | some x =>
      have hset := keySet_touches (m := .event) (P := [.sec]) (L := keyRegs) (by simp) k (some x) s.dev
      obtain ⟨hresult, hwrap, _, hsec, hrest⟩ := keyEnded_done (m := .event) (P := []) k (keySet k (some x) s.dev)
      refine ⟨_, hload hready huse (hgood x hunwrap) ((hset.trans hrest).calm hc), fun y hy => ?_, by simp, hwrap, fun j hj => ?_,
        ((hset.trans hrest).mono (fun _ => id) keyRegs_refused).withEvent⟩
      · obtain rfl : x = y := by simpa using hy
        rw [hsec]
        exact ⟨hresult, vat_vput_same _ k _, vat_vput_same _ k 0, vat_vput_same _ k _⟩
      · rw [hsec]
        exact ⟨vat_vput_ne _ _ hj, vat_vput_ne _ 0 hj⟩
  case wipeAll =>
    intro hkey
    obtain ⟨⟨hwiping, hready, hcause, hauth, hkeys, hwaiting, hstaged⟩, hrest⟩ :=
      secWipe_wipes (m := .event) (P := []) (cause := 5) (by decide) s.dev
    exact ⟨_, exec_wipeAll hkey hrun (hrest.calm hc).1, hwiping, hready, hcause, hauth, hkeys, hwaiting, hstaged, hrest.withEvent⟩
  case tamper =>
    rw [exec_tamper]
    obtain ⟨⟨hwiping, hready, hcause, hauth, hkeys, hwaiting, hstaged⟩, hpends, hrest⟩ :=
      secWipe_after (cause := 0) (e := 9) (by decide) (by decide) hf
    exact ⟨_, actIn_run hrun (hrest.calm hc).1, hwiping, hready, hcause, hauth, hpends, hkeys, hwaiting, hstaged, hrest.withEvent⟩
  case glitch =>
    rw [exec_glitch]
    obtain ⟨⟨hwiping, hready, hcause, hauth, hkeys, hwaiting, hstaged⟩, hpends, hrest⟩ :=
      secWipe_after (cause := if clock then 2 else 1) (e := 10) (by split <;> decide) (by decide) hf
    exact ⟨_, actIn_run hrun (hrest.calm hc).1, hwiping, hready, hcause, hauth, hpends, hkeys, hwaiting, hstaged, hrest.withEvent⟩
  case ends =>
    intro hwiping hlc hu ht
    rw [exec_secWipe]
    obtain ⟨hidle, hflag, hcount, hpends, hrest⟩ := wipe_ends (P := []) hwiping hlc hu ht hf
    exact ⟨_, actIn_run hrun (hrest.calm hc).1, hidle, hflag, hcount, hpends, hrest.withFault⟩

/-!
PROOFS about the training, the set-points and the drift of the DRAM (R443 to R445).
-/

/-! ### What the operations touch -/

theorem drcMod_touches (hP : Part.drc ∈ P) (f : Dram → Dram) (d : Dev) : Dev.touches m P L d (d.drcMod f) :=
  .ofWithin (drcMod_within _ d) (by simpa using hP)

@[simp] theorem drcMod_get (d : Dev) (f : Dram → Dram) (g : Field) : (d.drcMod f).get g = d.get g := by simp only [Dev.drcMod, get_mk]

@[simp] theorem drcMod_on (d : Dev) (f : Dram → Dram) (g : Field) : (d.drcMod f).on g = d.on g := by simp only [Dev.on, drcMod_get]

@[simp] theorem drcMod_reg (d : Dev) (f : Dram → Dram) (a : Nat) : (d.drcMod f).reg a = d.reg a := by simp only [Dev.drcMod, reg_mk]

@[simp] theorem drcMod_drc (d : Dev) (f : Dram → Dram) : (d.drcMod f).drc = f d.drc := by simp only [Dev.drcMod]

theorem trainStart_touches (hL : DRC_STATUS ∈ L) (d : Dev) : Dev.touches m P L d (trainStart d) :=
  (Dev.touches.put d _ _ hL).trans (.put _ _ _ hL)

theorem dramPoll_touches (hP : Part.drc ∈ P) (hL : DRC_STATUS ∈ L) (d : Dev) : Dev.touches m P L d (dramPoll d) := by
  unfold dramPoll
  refine .ite _ (.refl d) (.ite _ ?_ (.ite _ ?_ (.refl d)))
  · exact (Dev.touches.put d _ 0 hL).trans (.put _ _ _ hL)
  · exact (drcMod_touches hP _ d).trans (trainStart_touches hL _)

theorem trainedField_spec (sp : Nat) :
    (trainedField sp).addr = DRC_STATUS ∧ (trainedField sp).hi = (trainedField sp).lo ∧ (trainedField sp).hi < 32 ∧
      8 ≤ (trainedField sp).lo := by
  unfold trainedField
  split <;> decide

/-! ### Training starts -/

/-- Training starts at step 1. -/
theorem trainStart_state (d : Dev) : (trainStart d).drcState = 1 ∧ (trainStart d).get DRC_STATUS_STEP = 1 := by
  simp (disch := decide) [trainStart, Dev.drcState, get_put_same, get_put_ne]

/-- Training leaves the fields of DRC_STATUS above STEP. -/
theorem trainStart_get {f : Field} (d : Dev) (h32 : f.hi < 32) (hf : 6 ≤ f.lo) : (trainStart d).get f = d.get f := by
  unfold trainStart
  rw [get_put_ne _ _ _ _ (by decide) h32 (.inr (.inr (by change 5 < f.lo; omega))),
    get_put_ne _ _ _ _ (by decide) h32 (.inr (.inr (by change 2 < f.lo; omega)))]

theorem dramCap_lt (d : Dev) : d.dramCap < 2 ^ 32 := by
  have hc : d.dramChannels ≤ 2 := by
    have h : d.get DRC_CTRL_CH1_EN < 2 := get_lt d DRC_CTRL_CH1_EN
    simp only [Dev.dramChannels]
    omega
  have hr : d.dramRanks ≤ 2 := by
    have h : d.get DRC_CTRL_RANKS < 2 := get_lt d DRC_CTRL_RANKS
    simp only [Dev.dramRanks]
    omega
  have hb : d.rankBytes / 2 ^ 20 - 1 ≤ 32767 := by
    have hgib : (match d.get DRC_CTRL_DENSITY with | 0 => 2 | 1 => 3 | _ => 4) ≤ 4 := by split <;> omega
    have hw : (if d.on DRC_CTRL_WIDTH then 2 else 4) ≤ 4 := by split <;> omega
    have : d.rankBytes ≤ 2 * 4 * 4 * 2 ^ 30 :=
      Nat.mul_le_mul_right _ (Nat.mul_le_mul (Nat.mul_le_mul_left 2 hw) hgib)
    omega
  calc d.dramCap ≤ 2 * 2 * 32767 := Nat.mul_le_mul (Nat.mul_le_mul hc hr) hb
    _ < 2 ^ 32 := by decide

/-- The controller once ENABLE has been written 1 with training to come. -/
def Dev.dramEnabled (d : Dev) (w : Nat) : Dev :=
  let t := d.setReg DRC_CTRL (bits w 5 1 * 2 + 1)
  (t.setReg DRC_CAP t.dramCap).put DRC_STATUS_SP (d.get DRC_FREQ_TARGET)

theorem dramEnable_off {d : Dev} (h : d.on DRC_CTRL_ENABLE = false) (hst : d.drcState ≠ 1) (w : Nat) :
    dramEnable w d = trainStart ((d.dramEnabled w).drcMod fun x =>
      { x with switching := false, retrainDue := false, selfRef := Vector.replicate 2 false }) := by
  unfold dramEnable
  rw [if_neg (by simp [h])]
  extract_lets t u v
  have hstate : u.drcState = d.drcState := by
    simp (disch := decide) only [u, t, Dev.drcState, get_setReg_ne]
  have htarget : u.get DRC_FREQ_TARGET = d.get DRC_FREQ_TARGET := by
    simp (disch := decide) only [u, t, get_setReg_ne]
  rw [if_neg (by rw [hstate]; exact hst)]
  simp only [v, htarget]
  rfl

theorem dramEnable_starts {d : Dev} (h : d.on DRC_CTRL_ENABLE = false) (hst : d.drcState ≠ 1) (w : Nat) :
    let t := dramEnable w d
    t.reg DRC_CTRL = bits w 5 1 * 2 + 1 ∧ t.reg DRC_CAP = t.dramCap ∧ t.drcState = 1 ∧ t.get DRC_STATUS_STEP = 1 ∧
      t.get DRC_STATUS_SP = d.get DRC_FREQ_TARGET ∧
      t.drc = { d.drc with switching := false, retrainDue := false, selfRef := Vector.replicate 2 false } ∧
      Dev.touches .plain [.drc] [DRC_CTRL, DRC_CAP, DRC_STATUS] d t := by
  intro t
  have ht : t = _ := dramEnable_off h hst w
  have hbits : bits w 5 1 < 2 ^ 5 := Nat.mod_lt _ (by decide)
  have hsp : d.get DRC_FREQ_TARGET < 2 ^ 1 := get_lt d DRC_FREQ_TARGET
  have hctrl : t.reg DRC_CTRL = bits w 5 1 * 2 + 1 := by
    simp (disch := decide) only [ht, trainStart, Dev.dramEnabled, drcMod_reg, reg_put_ne, reg_setReg_ne, reg_setReg_same]
    omega
  have hcap : t.reg DRC_CAP = t.dramCap := by
    rw [dramCap_congr (t := t) (d := d.setReg DRC_CTRL (bits w 5 1 * 2 + 1)) (by rw [hctrl, reg_setReg_same]; omega)]
    simp (disch := decide) only [ht, trainStart, Dev.dramEnabled, drcMod_reg, reg_put_ne, reg_setReg_same]
    exact Nat.mod_eq_of_lt (dramCap_lt _)
  refine ⟨hctrl, hcap, ?_, ?_, ?_, ?_, ?_⟩
  · rw [ht]
    exact (trainStart_state _).1
  · rw [ht]
    exact (trainStart_state _).2
  · rw [ht, trainStart_get _ (by decide) (by decide), drcMod_get, Dev.dramEnabled, get_put_same _ _ _ (by decide) (by decide)]
    exact Nat.mod_eq_of_lt hsp
  · rw [ht, trainStart, put_drc, put_drc, drcMod_drc, Dev.dramEnabled, put_drc, setReg_drc, setReg_drc]
  · rw [ht]
    refine Dev.touches.trans ?_ (trainStart_touches (by simp) _)
    refine Dev.touches.trans ?_ (drcMod_touches (by simp) _ _)
    exact ((Dev.touches.setReg d _ _ (by simp)).trans (.setReg _ _ _ (by simp))).trans (.put _ _ _ (by simp))

/-! ### ENABLE written 0 (R443) -/

theorem dramDisable_spec {d : Dev} (h : d.on DRC_CTRL_ENABLE = true) (w : Nat) :
    let t := dramDisable w d
    t.on DRC_CTRL_ENABLE = false ∧ t.on DRC_STATUS_TRAINED0 = false ∧ t.on DRC_STATUS_TRAINED1 = false ∧
      (d.drcState ≠ 1 → t.drcState = 0 ∧ t.drc.stopDue = false) ∧ (d.drcState = 1 → t.drcState = 1 ∧ t.drc.stopDue = true) ∧
      (d.on DRC_STATUS_TRAINED0 = true → t.drc.selfRef = Vector.replicate 2 true) ∧
      Dev.touches .plain [.drc] [DRC_CTRL, DRC_STATUS] d t := by
  unfold dramDisable
  rw [if_neg (by simp [h])]
  extract_lets trained training u v t
  have hu : Dev.touches .plain [.drc] [DRC_CTRL, DRC_STATUS] d u :=
    (((Dev.touches.put d _ 0 (by simp)).trans (.put _ _ 0 (by simp))).trans (.put _ _ 0 (by simp))).trans
      (.put _ _ 0 (by simp))
  have hv : Dev.touches .plain [.drc] [DRC_CTRL, DRC_STATUS] d v := hu.trans (drcMod_touches (by simp) _ u)
  have hfield {f : Field} (x y : Nat) (hf : f.addr ≠ DRC_STATUS ∨ 6 ≤ f.lo) (h32 : f.hi < 32) :
      ((v.put DRC_STATUS_STATE x).put DRC_STATUS_STEP y).get f = v.get f := by
    have hlo : f.addr ≠ DRC_STATUS ∨ f.hi < 3 ∨ 5 < f.lo := hf.imp_right fun h => .inr h
    have hlo' : f.addr ≠ DRC_STATUS ∨ f.hi < 0 ∨ 2 < f.lo := hf.imp_right fun h => .inr (by omega)
    rw [get_put_ne _ _ _ _ (by decide) h32 hlo, get_put_ne _ _ _ _ (by decide) h32 hlo']
  have hon {f : Field} (hf : f.addr ≠ DRC_STATUS ∨ 6 ≤ f.lo) (h32 : f.hi < 32) : t.on f = v.on f := by
    simp only [t]
    split
    · rfl
    · simp only [Dev.on, hfield _ _ hf h32]
  have hdrc : t.drc = v.drc := by
    simp only [t]
    split <;> rfl
  have hstate : v.drcState = d.drcState := by
    simp (disch := decide) only [v, u, Dev.drcState, drcMod_get, get_put_ne]
  have htrue : (training = true) = (d.drcState = 1) := decide_eq_true_eq
  refine ⟨?_, ?_, ?_, fun hst => ?_, fun hst => ?_, fun ht0 => ?_, ?_⟩
  · rw [hon (by decide) (by decide)]
    simp (disch := decide) [v, u, Dev.on, get_put_ne, get_put_same]
  · rw [hon (by decide) (by decide)]
    simp (disch := decide) [v, u, Dev.on, get_put_ne, get_put_same]
  · rw [hon (by decide) (by decide)]
    simp (disch := decide) [v, u, Dev.on, get_put_ne, get_put_same]
  · refine ⟨?_, ?_⟩
    · simp only [t, htrue, if_neg hst]
      simp (disch := decide) [Dev.drcState, get_put_ne, get_put_same]
    · rw [hdrc]
      exact decide_eq_false hst
  · refine ⟨?_, ?_⟩
    · simp only [t, htrue, if_pos hst]
      rw [hstate, hst]
    · rw [hdrc]
      exact decide_eq_true hst
  · rw [hdrc]
    simp only [v, drcMod_drc, trained, ht0, Bool.true_or, if_true]
  · exact .ite _ hv (hv.trans ((Dev.touches.put v _ _ (by simp)).trans (.put _ _ _ (by simp))))

/-! ### Steps of training (R443) -/

theorem trainStep_next {d : Dev} (hst : d.drcState = 1) (hstop : d.drc.stopDue = false)
    (hsp : d.get DRC_FREQ_TARGET = d.get DRC_STATUS_SP) (passed : Bool) (osc : List Word) :
    trainStep passed osc d =
      if !passed then (some false, trainFail d)
      else if d.get DRC_STATUS_STEP < 7 then (none, d.put DRC_STATUS_STEP (d.get DRC_STATUS_STEP + 1))
      else (some true, trainDone osc d) := by
  unfold trainStep
  rw [if_neg (not_not.2 hst), if_neg (by simp [hstop]), if_neg (not_not.2 hsp)]

/-- What a failed training leaves. -/
theorem trainFail_spec (d : Dev) :
    let t := trainFail d
    t.drcState = 4 ∧ t.get DRC_STATUS_STEP = 0 ∧ t.on (trainedField (d.get DRC_STATUS_SP)) = false ∧ t.pends 53 ∧
      d.detects 0x1D 0xFF t ∧ t.drc = { d.drc with switching := false, retrainDue := false } ∧
      Dev.touches .fault [.drc] [DRC_STATUS] d t := by
  unfold trainFail
  extract_lets sp u v t
  obtain ⟨haddr, hone, h32, hlo⟩ := trainedField_spec sp
  have hu : Dev.touches .plain [.drc] [DRC_STATUS] d u :=
    ((Dev.touches.put d _ _ (by simp)).trans (.put _ _ _ (by simp))).trans
      (.put _ _ _ (by simp [haddr]) (by rw [haddr]; decide))
  have hv : Dev.touches .plain [.drc] [DRC_STATUS] d v := hu.trans (drcMod_touches (by simp) _ u)
  have ht {Q : List Part} {M : List Nat} : Dev.touches .fault Q M v t := .faultEvent 0x1D _ 0xFF 53 v
  have hreg : t.reg DRC_STATUS = u.reg DRC_STATUS := by
    rw [(ht (Q := []) (M := [])).reg (by simp) (by decide), drcMod_reg]
  have hget {f : Field} (hf : f.addr = DRC_STATUS) : t.get f = u.get f := by simp only [Dev.get, hf, hreg]
  have hfields (f : Field) (h32' : f.hi < 32) (hf : f.hi < (trainedField sp).lo) :
      u.get f = ((d.put DRC_STATUS_STATE drcFailed).put DRC_STATUS_STEP 0).get f :=
    get_put_ne _ _ _ _ (by omega) h32' (.inr (.inl hf))
  refine ⟨?_, ?_, ?_, faultEvent_pends (by decide) (by decide) _ _ _, ?_, ?_, hv.ofPlain.trans ht⟩
  · rw [Dev.drcState, hget rfl, hfields _ (by decide) (by change 2 < _; omega)]
    simp (disch := decide) [get_put_ne, get_put_same, drcFailed]
  · rw [hget rfl, hfields _ (by decide) (by change 5 < _; omega)]
    simp (disch := decide) [get_put_same]
  · exact (on_congr (by rw [haddr, hreg])).trans (on_put_zero _ _ hone h32)
  · exact detects_of_reg (hv.reg (by decide) rfl) (faultEvent_detects _ v (by decide) (by decide) (by decide) (by decide))
  · exact (ht (Q := []) (M := [])).parts .drc (by simp) (by decide)

/-! ### Training done -/

/-- The registers and parts of a relation, by blocks. -/
theorem Dev.touches.frame {d t : Dev} (h : Dev.touches m P L d t) {Q : List Part} {B : List Nat} (hP : P ++ m.parts ⊆ Q)
    (hL : ∀ a ∈ L, B.contains (a / 0x10000) = true) (h2 : 2 ∈ B) (h18 : 18 ∈ B) : Dev.frame Q B d t := by
  refine ⟨fun a ha => ?_, fun p hp => ?_⟩
  · have hb : [2, 18].contains (a / 0x10000) = false := by
      rw [List.contains_eq_mem, decide_eq_false_iff_not] at ha ⊢
      intro hmem
      rcases List.mem_cons.1 hmem with h2' | h18'
      · exact ha (h2' ▸ h2)
      · exact ha (List.mem_singleton.1 h18' ▸ h18)
    refine h.regs a (fun hmem => absurd (hL a hmem) (by rw [ha]; decide)) ?_
    cases m with
    | plain => rfl
    | event => exact eventReg_of_faultReg (faultReg_block hb)
    | fault => exact faultReg_block hb
  · refine h.part_same p ?_
    rw [List.contains_eq_mem, decide_eq_false_iff_not] at hp ⊢
    exact fun hmem => hp (hP hmem)

theorem mplMod_touches (hP : Part.mpl ∈ P) (f : Melt → Melt) (d : Dev) : Dev.touches m P L d (d.mplMod f) :=
  .ofWithin (mplMod_within _ d) (by simpa using hP)

theorem setMapTime_touches (hL : [MPL_MAP_TIME_LO, MPL_MAP_TIME_HI] ⊆ L) (x : Nat) (d : Dev) :
    Dev.touches m P L d (setMapTime x d) :=
  (Dev.touches.setReg d _ _ (hL (by simp))).trans (.setReg _ _ _ (hL (by simp)))

/-- The registers of a clear of the map. -/
def mapClearRegs : List Nat := [MPL_STATUS, MPL_MAP_TIME_LO, MPL_MAP_TIME_HI]

theorem mapClear_touches (hP : Part.mpl ∈ P) (hL : mapClearRegs ⊆ L) (d : Dev) : Dev.touches m P L d (mapClear d) := by
  have hstatus : MPL_STATUS ∈ L := hL (by simp [mapClearRegs])
  unfold mapClear
  refine .ite _ (.refl d) (.ite _ (mplMod_touches hP _ d) ?_)
  refine (((Dev.touches.put d MPL_STATUS_MAP_READY 0 hstatus).trans (.put _ MPL_STATUS_CLEARING 1 hstatus)).trans ?_).trans (mplMod_touches hP _ _)
  exact setMapTime_touches (fun a ha => hL (List.mem_cons_of_mem _ ha)) 1 _

/-- The registers of the oscillator counts and of the count of retrainings. -/
def oscRegs : List Nat := (List.range 2).flatMap fun c => [DRCC_OSC0 c, DRCC_OSC1 c, DRCC_RETRAINS c]

theorem reg_ite_count {c : Prop} [Decidable c] {d : Dev} {a b k : Nat} (h : b ≠ a) :
    (if c then d.count a k else d).reg b = d.reg b := by
  split
  · exact reg_count_ne d k h
  · rfl

theorem trainDone_spec (osc : List Word) (d : Dev) :
    let t := trainDone osc d
    t.drcState = 2 ∧ t.get DRC_STATUS_STEP = 0 ∧ t.on (trainedField (d.get DRC_STATUS_SP)) = true ∧ t.pends 52 ∧
      (d.drc.switching = true → t.pends 55) ∧
      t.drc = { d.drc with switching := false, selfRef := Vector.replicate 2 false } ∧
      t.reg (DRCC_OSC0 1) = (osc.getD 2 0).toNat % 65536 * 65537 ∧
      Dev.touches .event [.drc, .mpl] (DRC_STATUS :: oscRegs ++ mapClearRegs) d t := by
  unfold trainDone
  extract_lets sp again u v switched w x y t
  obtain ⟨haddr, hone, h32, hlo⟩ := trainedField_spec sp
  have hu : Dev.touches .plain [] [DRC_STATUS] d u :=
    ((Dev.touches.put d _ _ (by simp)).trans (.put _ _ _ (by simp))).trans
      (.put _ _ _ (by simp [haddr]) (by rw [haddr]; decide))
  have hosc (a : Nat) (ha : a ∈ oscRegs) : silentReg a = true := by
    have : ∀ a ∈ oscRegs, silentReg a = true := by decide
    exact this a ha
  have hmem (c : Nat) (hc : c ∈ List.range 2) :
      DRCC_OSC0 c ∈ oscRegs ∧ DRCC_OSC1 c ∈ oscRegs ∧ DRCC_RETRAINS c ∈ oscRegs := by
    simp only [oscRegs, List.mem_flatMap]
    exact ⟨⟨c, hc, by simp⟩, ⟨c, hc, by simp⟩, ⟨c, hc, by simp⟩⟩
  have hv : Dev.touches .plain [] oscRegs u v := by
    refine Dev.touches.foldl_mem _ (fun z c hc => ?_) u
    obtain ⟨h0, h1, hr⟩ := hmem c hc
    exact ((Dev.touches.setReg z _ _ h0 (hosc _ h0)).trans (.setReg _ _ _ h1 (hosc _ h1))).trans
      (.ite _ (.count _ _ 1 hr (hosc _ hr)) (.refl _))
  have hw : Dev.touches .plain [.drc] [] v w := drcMod_touches (by simp) _ v
  have hy : Dev.touches .event [] [] w y := (Dev.touches.occur 52 0xFF 0 w).trans (.ite _ (.occur 55 0xFF 0 _) (.refl _))
  have ht : Dev.touches .plain [.mpl] mapClearRegs y (mapClear y) := mapClear_touches (by simp) (fun _ => id) y
  have hreg {a : Nat} (ha : a ∉ mapClearRegs) (hev : eventReg a = false) : (mapClear y).reg a = v.reg a := by
    rw [ht.reg ha rfl, hy.reg (by simp) hev, hw.reg (by simp) rfl]
  have hstatus : (mapClear y).reg DRC_STATUS = u.reg DRC_STATUS := by
    rw [hreg (by decide) (by decide), hv.reg (by decide) rfl]
  have hget {f : Field} (hf : f.addr = DRC_STATUS) : (mapClear y).get f = u.get f := by
    simp only [Dev.get, hf, hstatus]
  have hfields (f : Field) (h32' : f.hi < 32) (hf : f.hi < (trainedField sp).lo) :
      u.get f = ((d.put DRC_STATUS_STATE drcReady).put DRC_STATUS_STEP 0).get f :=
    get_put_ne _ _ _ _ (by omega) h32' (.inr (.inl hf))
  have hdrc : v.drc = d.drc := (hv.parts .drc (by simp) (by decide)).trans (hu.parts .drc (by simp) (by decide))
  have hmap : y.keepsPending (mapClear y) := ht.pends
  refine ⟨?_, ?_, ?_, ?_, fun hsw => ?_, ?_, ?_, ?_⟩
  · rw [Dev.drcState, hget rfl, hfields _ (by decide) (by change 2 < _; omega)]
    simp (disch := decide) [get_put_ne, get_put_same, drcReady]
  · rw [hget rfl, hfields _ (by decide) (by change 5 < _; omega)]
    simp (disch := decide) [get_put_same]
  · exact (on_congr (by rw [haddr, hstatus])).trans (on_put_one _ _ hone h32)
  · refine hmap 52 (by decide) ?_
    have hx : x.pends 52 := occur_pends 52 0xFF 0 w (by decide)
    simp only [y]
    split
    · exact (Dev.touches.occur (m := .event) (P := []) (L := []) 55 0xFF 0 x).pends 52 (by decide) hx
    · exact hx
  · refine hmap 55 (by decide) ?_
    simp only [y, switched, hdrc, hsw, if_true]
    exact occur_pends 55 0xFF 0 x (by decide)
  · have htd : (mapClear y).drc = w.drc := (ht.parts .drc (by simp) (by decide)).trans (hy.parts .drc (by simp) (by decide))
    rw [htd, drcMod_drc, hdrc]
  · rw [hreg (by decide) (by decide)]
    refine obs_foldl (I := fun _ => True) (obs := fun z : Dev => z.reg (DRCC_OSC0 1)) (x := 1) (by decide)
      (fun _ _ _ _ => trivial) (fun z _ => ?_) (fun z c hc hne => ?_) trivial
    · have hlt : (osc.getD 2 0).toNat % 65536 * 65537 < 2 ^ 32 := by omega
      dsimp only
      rw [reg_ite_count (by decide), reg_setReg_ne _ _ (by decide), reg_setReg_same]
      exact Nat.mod_eq_of_lt hlt
    · have hzero : c = 0 := by simp only [List.mem_range] at hc; omega
      subst hzero
      dsimp only
      rw [reg_ite_count (by decide), reg_setReg_ne _ _ (by decide), reg_setReg_ne _ _ (by decide)]
  · have hin {a : Nat} : a ∈ oscRegs → a ∈ DRC_STATUS :: oscRegs ++ mapClearRegs := by simp +contextual
    exact ((((hu.ofPlain.mono (by simp) (by simp)).trans (hv.ofPlain.mono (by simp) fun _ => hin)).trans
      (hw.ofPlain.mono (by simp) (by simp))).trans (hy.mono (by simp) (by simp))).trans
      (ht.ofPlain.mono (by simp) (List.subset_append_right _ _))

/-! ### What a step means to the start-up (R510, R524) -/

theorem trainingStep_next {d t : Dev} {passed : Bool} {osc : List Word} (h : trainStep passed osc d = (none, t)) :
    trainingStep passed osc d = t := by
  unfold trainingStep
  rw [h]

theorem trainingStep_done {d t : Dev} {passed : Bool} {osc : List Word} (h : trainStep passed osc d = (some true, t))
    (hst : t.get DEV_STATE_STATE ∉ [4, 8]) : trainingStep passed osc d = t := by
  have hcond : ¬(decide (t.get DEV_STATE_STATE = 4) || decide (t.get DEV_STATE_STATE = 8)) = true := by
    simpa using hst
  unfold trainingStep
  rw [h]
  exact if_neg hcond

theorem trainingStep_failed {d t : Dev} {passed : Bool} {osc : List Word} (h : trainStep passed osc d = (some false, t))
    (hst : t.get DEV_STATE_STATE ≠ 4) : trainingStep passed osc d = t := by
  unfold trainingStep
  rw [h]
  exact if_neg hst

/-! ### Set-points (R444) -/

theorem any_congr_mem {α : Type} {l : List α} {p q : α → Bool} (h : ∀ x ∈ l, p x = q x) : l.any p = l.any q := by
  induction l with
  | nil => rfl
  | cons x l ih => rw [List.any_cons, List.any_cons, h x (by simp), ih fun y hy => h y (by simp [hy])]

/-- Whether a bobbin is open depends on no register of the DRAM controller. -/
theorem bobOpen_congr {d t : Dev} (h : ∀ a, a / 0x10000 ≠ 4 → t.reg a = d.reg a) {b : Nat} (hb : b < 70) :
    t.bobOpen b = d.bobOpen b := by
  have hon {f : Field} (hf : f.addr / 0x10000 ≠ 4) : t.on f = d.on f := on_congr (h _ hf)
  have hget {f : Field} (hf : f.addr / 0x10000 ≠ 4) : t.get f = d.get f := by simp only [Dev.get, h _ hf]
  unfold Dev.bobOpen
  rw [Dev.bobEn, hon (f := CRLB_CFG_EN b) (by simp only [CRLB_CFG]; omega), ← Dev.bobEn]
  refine ite_congr rfl (fun _ => rfl) fun _ => ?_
  refine ite_congr rfl (fun _ => by rw [hget (by decide)]) fun _ => ?_
  refine ite_congr rfl (fun _ => hon (by simp only [MPLS_CTRL]; omega)) fun _ => ?_
  refine ite_congr rfl (fun _ => hon (by simp only [MPLS_CTRL]; omega)) fun _ => ?_
  refine ite_congr rfl (fun _ => hon (by simp only [ISPC_CTRL]; omega)) fun _ => ?_
  refine ite_congr rfl (fun _ => hon (by simp only [ISPC_CTRL]; omega)) fun _ => ?_
  have hplane : TAPP_CTRL (b - 56) / 0x10000 ≠ 4 := by simp only [TAPP_CTRL]; omega
  refine ite_congr rfl (fun _ => by rw [hon (by decide), hon (f := TAPP_CTRL_EN (b - 56)) hplane]) fun _ => ?_
  rw [hon (f := NET_CTRL_N0_EN) (by decide), hon (f := NET_CTRL_N1_EN) (by decide), hget (f := SHD_STATUS_PASS) (by decide)]

/-- Whether a panic side is open depends on no register of the DRAM controller. -/
theorem panicSideOpen_congr {d t : Dev} (h : ∀ a, a / 0x10000 ≠ 4 → t.reg a = d.reg a) :
    t.panicSideOpen = d.panicSideOpen := by
  refine any_congr_mem fun b hb => ?_
  have hb : b < 70 := List.mem_range.1 hb
  have hcfg : CRLB_CFG b / 0x10000 ≠ 4 := by simp only [CRLB_CFG]; omega
  rw [bobOpen_congr h hb, show t.get (CRLB_CFG_PANIC_SIDE b) = d.get (CRLB_CFG_PANIC_SIDE b) by simp only [Dev.get, h _ hcfg]]

theorem dramPoll_waits {d : Dev} (h : d.panicSideOpen = true) : dramPoll d = d := by
  simp [dramPoll, h]

theorem dramPoll_switches {d : Dev} (hst : d.drcState = 2) (hopen : d.panicSideOpen = false)
    (hpend : d.on DRC_STATUS_FREQ_PEND = true) : dramPoll d = (d.put DRC_STATUS_FREQ_PEND 0).put DRC_STATUS_STATE 3 := by
  simp [dramPoll, hst, hopen, hpend]

theorem dramPoll_idle {d : Dev} (hpend : d.on DRC_STATUS_FREQ_PEND = false) (hre : d.drc.retrainDue = false) :
    dramPoll d = d := by
  simp [dramPoll, hpend, hre]

/-- The controller once a request for a set-point is written. -/
theorem freqWritten {d : Dev} (w v : Nat) :
    let t := (d.setReg DRC_FREQ w).put DRC_STATUS_FREQ_PEND v
    t.drcState = d.drcState ∧ t.panicSideOpen = d.panicSideOpen ∧ t.on DRC_STATUS_FREQ_PEND = (v % 2 == 1) := by
  refine ⟨?_, panicSideOpen_congr fun a ha => ?_, ?_⟩
  · simp (disch := decide) only [Dev.drcState, get_put_ne, get_setReg_ne]
  · rw [reg_put_ne _ _ _ (by rintro rfl; exact ha (by decide)), reg_setReg_ne _ _ (by rintro rfl; exact ha (by decide))]
  · simp (disch := decide) only [Dev.on, get_put_same]
    rfl

theorem freqRequest_ready {d : Dev} (hst : d.drcState = 2) (hre : d.drc.retrainDue = false) (w : Nat) :
    freqRequest w d =
      if w % 2 = d.get DRC_STATUS_SP then (d.setReg DRC_FREQ (w % 2)).put DRC_STATUS_FREQ_PEND 0
      else if d.panicSideOpen then (d.setReg DRC_FREQ (w % 2)).put DRC_STATUS_FREQ_PEND 1
      else (((d.setReg DRC_FREQ (w % 2)).put DRC_STATUS_FREQ_PEND 1).put DRC_STATUS_FREQ_PEND 0).put DRC_STATUS_STATE 3 := by
  have hsp : (d.setReg DRC_FREQ (w % 2)).get DRC_STATUS_SP = d.get DRC_STATUS_SP := get_setReg_ne _ _ _ _ (by decide)
  have hnow : (d.setReg DRC_FREQ (w % 2)).drcState = 2 := (get_setReg_ne _ _ _ _ (by decide)).trans hst
  obtain ⟨h0, -, hpend0⟩ := freqWritten (d := d) (w % 2) 0
  obtain ⟨h1, hopen1, hpend1⟩ := freqWritten (d := d) (w % 2) 1
  unfold freqRequest
  simp only [hsp, hnow, if_true]
  split
  case isTrue heq =>
    rw [heq, decide_eq_false (by simp)]
    exact dramPoll_idle (heq ▸ hpend0) hre
  case isFalse hne =>
    rw [decide_eq_true hne]
    cases hopen : d.panicSideOpen with
    | true => exact dramPoll_waits (hopen1.trans hopen)
    | false => exact dramPoll_switches (h1.trans hst) (hopen1.trans hopen) hpend1

/-! ### The relock (R444) -/

theorem freqDone_spec {d : Dev} (hst : d.drcState = 3) :
    let t := freqDone d
    t.get DRC_STATUS_SP = d.get DRC_FREQ_TARGET ∧
      (d.on (trainedField (d.get DRC_FREQ_TARGET)) = true →
        t.drcState = 2 ∧ t.pends 55 ∧ Dev.touches .event [] [DRC_STATUS] d t) ∧
      (d.on (trainedField (d.get DRC_FREQ_TARGET)) = false →
        t.drcState = 1 ∧ t.get DRC_STATUS_STEP = 1 ∧ t.drc = { d.drc with switching := true } ∧
          Dev.touches .plain [.drc] [DRC_STATUS] d t) := by
  unfold freqDone
  rw [if_neg (not_not.2 hst)]
  extract_lets sp u t1 t2
  obtain ⟨haddr, hone, h32, hlo⟩ := trainedField_spec sp
  have hsp : u.get DRC_STATUS_SP = sp := by
    rw [get_put_same _ _ _ (by decide) (by decide)]
    exact Nat.mod_eq_of_lt (get_lt d DRC_FREQ_TARGET)
  have hu : Dev.touches .plain [] [DRC_STATUS] d u := .put d _ _ (by simp)
  have htrained : u.on (trainedField sp) = d.on (trainedField sp) := by
    rw [Dev.on, Dev.on, get_put_ne _ _ _ _ (by decide) h32 (.inr (.inr (by change 6 < _; omega)))]
  cases hon : d.on (trainedField sp) with
  | true =>
    have hocc {a : Nat} (ha : eventReg a = false) : (occur 55 0xFF 0 (u.put DRC_STATUS_STATE drcReady)).reg a =
        (u.put DRC_STATUS_STATE drcReady).reg a :=
      (Dev.touches.occur (m := .event) (P := []) (L := []) 55 0xFF 0 _).reg (by simp) ha
    have hget {f : Field} (hf : f.addr = DRC_STATUS) : (occur 55 0xFF 0 (u.put DRC_STATUS_STATE drcReady)).get f =
        (u.put DRC_STATUS_STATE drcReady).get f := by
      simp only [Dev.get, hf, hocc (show eventReg DRC_STATUS = false by decide)]
    have ht : t1 = occur 55 0xFF 0 (u.put DRC_STATUS_STATE drcReady) := if_pos (htrained.trans hon)
    rw [ht]
    refine ⟨?_, fun _ => ⟨?_, occur_pends 55 _ _ _ (by decide), ?_⟩, fun h => absurd h (by simp)⟩
    · rw [hget rfl, get_put_ne _ _ _ _ (by decide) (by decide) (by decide), hsp]
    · rw [Dev.drcState, hget rfl, get_put_same _ _ _ (by decide) (by decide)]
      rfl
    · exact hu.ofPlain.trans ((Dev.touches.put _ _ _ (by simp)).trans (.occur 55 0xFF 0 _))
  | false =>
    have ht : t1 = trainStart (u.drcMod fun x => { x with switching := true }) :=
      if_neg (by rw [htrained, hon]; decide)
    rw [ht]
    refine ⟨?_, fun h => absurd h (by simp), fun _ => ⟨(trainStart_state _).1, (trainStart_state _).2, ?_, ?_⟩⟩
    · rw [trainStart_get _ (by decide) (by decide), drcMod_get, hsp]
    · rw [trainStart, put_drc, put_drc, drcMod_drc, put_drc]
    · exact ((hu.mono (by simp) (by simp)).trans (drcMod_touches (by simp) _ u)).trans (trainStart_touches (by simp) _)

/-! ### Drift (R445) -/

theorem max_sub_min (a b : Nat) : max a b - min a b = if a ≤ b then b - a else a - b := by
  split <;> omega

/-- The controller once a drift shows: a retraining is due. -/
def driftShown (c : Channel) (d : Dev) : Dev :=
  occur 54 c.val 0 (((d.put DRC_FLAGS_DRIFT 1).setReg DRC_ERR_INFO (putBits (d.reg DRC_ERR_INFO) 0 0 c.val)).drcMod
    fun x => { x with retrainDue := true })

theorem driftShown_spec (c : Channel) (d : Dev) :
    (driftShown c d).on DRC_FLAGS_DRIFT = true ∧ (driftShown c d).pends 54 ∧
      Dev.touches .event [.drc] [DRC_FLAGS, DRC_ERR_INFO] d (driftShown c d) := by
  have hocc {M : List Nat} (u : Dev) : Dev.touches .event [.drc] M u (occur 54 c.val 0 u) := .occur 54 c.val 0 u
  refine ⟨?_, occur_pends 54 _ _ _ (by decide), ?_⟩
  · refine (on_congr ((hocc (M := []) _).reg (by simp) (by decide))).trans ?_
    rw [drcMod_on, Dev.on, get_setReg_ne _ _ _ _ (by decide), ← Dev.on]
    exact on_put_one _ _ rfl (by decide)
  · refine Dev.touches.trans ?_ (hocc _)
    refine Dev.touches.trans ?_ (drcMod_touches (by simp) _ _)
    exact (Dev.touches.put d DRC_FLAGS_DRIFT 1 (by simp)).trans (.setReg _ DRC_ERR_INFO _ (by simp))

/-- The count of an oscillator run is latched, and a drift beyond the limit shows. -/
theorem oscRun_spec {c : Channel} {r : Fin 2} {n k x : Nat} {d : Dev} (hen : d.on DRC_OPT_RETRAIN_EN = true)
    (hst : d.drcState = 2) (hn : n < 65536) (hx : x = if r.val = 0 then DRCC_OSC0 c else DRCC_OSC1 c)
    (hk : k = d.reg x / 65536) :
    let t := oscRun c r n d
    t.reg x = k * 65536 + n ∧
      (max k n - min k n ≤ d.reg DRC_DRIFT_LIM % 65536 → Dev.touches .plain [] [x] d t) ∧
      (max k n - min k n > d.reg DRC_DRIFT_LIM % 65536 → t.on DRC_FLAGS_DRIFT = true ∧ t.pends 54 ∧
        Dev.touches .event [.drc] [x, DRC_FLAGS, DRC_ERR_INFO, DRC_STATUS] d t) := by
  have hxc : x = 0x40110 + c.val * 0x80 ∨ x = 0x40114 + c.val * 0x80 := by
    rw [hx]
    split
    · exact .inl rfl
    · exact .inr rfl
  have hblock : x / 0x10000 = 4 := by omega
  have hne : x ≠ DRC_DRIFT_LIM ∧ x ≠ DRC_FLAGS ∧ x ≠ DRC_ERR_INFO ∧ x ≠ DRC_STATUS := by
    simp only [DRC_DRIFT_LIM, DRC_FLAGS, DRC_ERR_INFO, DRC_STATUS]
    omega
  have hkl : k < 65536 := by
    have := reg_lt d x
    omega
  unfold oscRun
  rw [if_neg (by simp [hen, hst]), ← hx]
  extract_lets a was u moved v t
  have hwas : was = k := hk.symm
  have hu : Dev.touches .plain [] [x] d u := .setReg d x _ (by simp) (silentReg_of_block hblock)
  have hux : u.reg x = k * 65536 + n := by
    rw [reg_setReg_same, hwas, Nat.mod_eq_of_lt hn]
    omega
  have hlim : u.reg DRC_DRIFT_LIM = d.reg DRC_DRIFT_LIM := hu.reg (by simpa using hne.1.symm) rfl
  have hmoved : moved = max k n - min k n := by
    rw [max_sub_min, ← hwas]
    simp only [moved, Nat.mod_eq_of_lt hn]
  have htail : t = if moved ≤ u.reg DRC_DRIFT_LIM % 65536 then u else dramPoll (driftShown c u) := rfl
  obtain ⟨hdrift, hpend, htouch⟩ := driftShown_spec c u
  have hpoll : Dev.touches .plain [.drc] [DRC_STATUS] (driftShown c u) (dramPoll (driftShown c u)) :=
    dramPoll_touches (by simp) (by simp) _
  rw [htail, hmoved, hlim]
  split
  case isTrue hle => exact ⟨hux, fun _ => hu, fun h => absurd h (by omega)⟩
  case isFalse hgt =>
    refine ⟨?_, fun h => absurd h hgt, fun _ => ⟨?_, hpoll.pends 54 (by decide) hpend, ?_⟩⟩
    · rw [hpoll.reg (by simpa using hne.2.2.2) rfl, htouch.reg (by simp [hne.2.1, hne.2.2.1]) (eventReg_of_block hblock), hux]
    · exact (hpoll.on (by decide) rfl).trans hdrift
    · exact ((hu.ofPlain.mono (by simp) (by simp)).trans (htouch.mono (by simp) (by simp))).trans
        (hpoll.ofPlain.mono (by simp) (by simp))

/-! ### The statement -/

theorem exec_dramEnable (w : Word) (s : State) :
    exec (.dramEnable w) s = actIn domFab (dramEnable (setBit w.toNat 0 true)) s := rfl

theorem exec_dramDisable (w : Word) (s : State) :
    exec (.dramDisable w) s = actIn domFab (dramDisable (setBit w.toNat 0 false)) s := rfl

theorem exec_dramTrainStepDone (passed : Bool) (osc : List Word) (s : State) :
    exec (.dramTrainStepDone passed osc) s = actIn domFab (trainingStep passed osc) s := rfl

theorem exec_freqSwitchRequest (w : Word) (s : State) :
    exec (.freqSwitchRequest w) s = actIn domFab (freqRequest w.toNat) s := rfl

theorem exec_freqDone (s : State) : exec .freqDone s = actIn domFab freqDone s := rfl

theorem exec_dqsOscRun (c : Channel) (r : Fin 2) (n : Nat) (s : State) :
    exec (.dqsOscRun c r n) s = actIn domFab (oscRun c r n) s := rfl

/-- ENABLE is written beside the other fields of the operand. -/
theorem bits_dramFields_setBit (w : Nat) : bits (setBit w 0 true) 5 1 = bits w 5 1 :=
  bits_putBits_ne w 0 0 _ 5 1 (by decide) (by decide)

/-- What touches neither events nor write-gates is carried out as it stands. -/
theorem actIn_touches {k : Nat} {f : Dev → Dev} {s : State} (hrun : s.dev.runs k = true) (hc : s.dev.calm)
    (h : Dev.touches m P L s.dev (f s.dev)) : actIn k f s = .next { s with dev := f s.dev } :=
  actIn_run hrun (h.calm hc).1

/-- Settles O54: each operation of training, of the set-points and of the drift check by its own lemma. -/
theorem dramControl : Obligations.DramControl := by
  intro w c r k osc s hrun hcalm
  refine ⟨fun hen hst => ?_, fun hen => ?_, fun hst hstop hsp hstep => ?_, fun hst hstop hsp hstep hdev => ?_,
    fun hst hstop hsp hdev => ?_, fun hst hre => ?_, fun hst => ?_, fun hen hst hw hk => ?_⟩
  · obtain ⟨hctrl, hcap, hstate, hone, hsp, hdrc, htouch⟩ := dramEnable_starts hen hst
      (setBit w.toNat 0 true)
    rw [bits_dramFields_setBit] at hctrl
    exact ⟨_, actIn_touches hrun hcalm htouch, hctrl, hcap, hstate, hone, hsp, hdrc, htouch.regsOnly⟩
  · obtain ⟨hoff, h0, h1, hidle, hbusy, hself, htouch⟩ := dramDisable_spec hen (setBit w.toNat 0 false)
    exact ⟨_, actIn_touches hrun hcalm htouch, hoff, h0, h1, hidle, hbusy, hself, htouch.regsOnly⟩
  · have hnext : trainStep true osc s.dev = (none, s.dev.put DRC_STATUS_STEP (s.dev.get DRC_STATUS_STEP + 1)) := by
      rw [trainStep_next hst hstop hsp, if_neg (by decide), if_pos hstep]
    exact actIn_of_eq hrun (trainingStep_next hnext) hcalm.1
  · have hdone : trainStep true osc s.dev = (some true, trainDone osc s.dev) := by
      rw [trainStep_next hst hstop hsp, if_neg (by decide), if_neg (by omega)]
    obtain ⟨hstate, hstep0, htrained, hpend, hsw, hdrc, hosc, htouch⟩ := trainDone_spec osc s.dev
    have hkeep : (trainDone osc s.dev).get DEV_STATE_STATE = s.dev.get DEV_STATE_STATE := htouch.get (by decide) (by decide)
    refine ⟨_, actIn_of_eq hrun (trainingStep_done hdone (by rwa [hkeep])) (htouch.calm hcalm).1, hstate, hstep0, htrained,
      hpend, hsw, hdrc, hosc, htouch.frame ?_ (by decide) (by decide) (by decide)⟩
    intro p hp
    simp only [Reach.parts, List.cons_append, List.nil_append, List.mem_cons] at hp ⊢
    tauto
  · have hfail : trainStep false osc s.dev = (some false, trainFail s.dev) := by
      rw [trainStep_next hst hstop hsp, if_pos (by decide)]
    obtain ⟨hstate, hstep0, htrained, hpend, hdetect, hdrc, htouch⟩ := trainFail_spec s.dev
    have hkeep : (trainFail s.dev).get DEV_STATE_STATE = s.dev.get DEV_STATE_STATE := htouch.get (by decide) (by decide)
    have hall := htouch.withFault
    exact ⟨_, actIn_of_eq hrun (trainingStep_failed hfail (by rwa [hkeep])) (htouch.calm hcalm).1, hstate, hstep0, htrained,
      hpend, hdetect, hdrc ▸ hall⟩
  · rw [exec_freqSwitchRequest, actIn_run hrun ((freqRequest_within w.toNat s.dev).calm hcalm).1, freqRequest_ready hst hre]
  · obtain ⟨hsp, hready, htrain⟩ := freqDone_spec hst
    refine ⟨freqDone s.dev, ?_, hsp, fun hon => ?_, fun hon => ?_⟩
    · cases hon : s.dev.on (trainedField (s.dev.get DRC_FREQ_TARGET)) with
      | true => exact actIn_touches hrun hcalm (hready hon).2.2
      | false => exact actIn_touches hrun hcalm (htrain hon).2.2.2
    · obtain ⟨hstate, hpend, htouch⟩ := hready hon
      exact ⟨hstate, hpend, htouch.withEvent⟩
    · obtain ⟨hstate, hstep, hdrc, htouch⟩ := htrain hon
      have hall := htouch.regsOnly
      exact ⟨hstate, hstep, hdrc ▸ hall⟩
  · obtain ⟨hreg, hsmall, hlarge⟩ := oscRun_spec hen hst hw rfl hk
    refine ⟨oscRun c r w.toNat s.dev, ?_, hreg, fun hle => (hsmall hle).regsOnly, fun hgt => ?_⟩
    · rcases Nat.lt_or_ge (s.dev.reg DRC_DRIFT_LIM % 65536) (max k w.toNat - min k w.toNat) with hgt | hle
      · exact actIn_touches hrun hcalm (hlarge hgt).2.2
      · exact actIn_touches hrun hcalm (hsmall hle)
    · obtain ⟨hon, hpend, htouch⟩ := hlarge hgt
      exact ⟨hon, hpend, htouch.withEvent⟩

/-!
PROOFS about refresh and self-refresh (R437, R438), the scrub, panics and errors of the DRAM (R440, R441, R446).
-/

/-! ### Refresh and self-refresh -/

theorem refresh_ready {c : Channel} {d : Dev} (hst : d.drcState = 2) (hself : vat d.drc.selfRef c = false) (r : Fin 2)
    (waits : Bool) :
    refresh c r waits d = d.drcMod fun x => { x with
      postponed := vmod x.postponed ⟨c.val * 2 + r.val, by omega⟩ fun n =>
        if waits && n < 4 then n + 1 else if waits then n else 0 } := by
  unfold refresh
  rw [if_neg (by simp [hst, hself])]

/-- An idle channel enters self-refresh, and counts it. -/
theorem selfRefresh_idle {c : Channel} {d : Dev} (hst : d.drcState = 2) (hself : vat d.drc.selfRef c = false)
    (hen : d.on DRC_OPT_SR_EN = true) (hpanic : d.panicNow = false) (hpost : ∀ q : Fin 4, vat d.drc.postponed q = 0)
    (hopen : ∀ b, b < 16 → d.bobOpen b = false) (hch : c.val = 1 → d.on DRC_CTRL_CH1_EN = true) :
    selfRefresh c d =
      (d.drcMod fun x => { x with selfRef := vput x.selfRef c true }).count (DRCC_SR_ENTRIES c) 1 := by
  have hbob : (List.range 16).any d.bobOpen = false := by
    rw [List.any_eq_false]
    intro b hb
    simp [hopen b (List.mem_range.1 hb)]
  have hgone : (decide (c.val = 1) && !d.on DRC_CTRL_CH1_EN) = false := by
    by_cases h : c.val = 1
    · simp [hch h]
    · simp [h]
  unfold selfRefresh
  simp only [hpost, hbob, hgone, hen, hst, hpanic, hself]
  rfl

/-! ### The scrub (R441) -/

theorem wake_touches (hP : Part.drc ∈ P) (a : Nat) (d : Dev) : Dev.touches m P L d (wake a d) := drcMod_touches hP _ d

theorem dramScrub_clean {c : Channel} {d : Dev} (hst : d.drcState = 2) (hen : d.on DRC_OPT_SCRUB_EN = true)
    (hch : c.val = 1 → d.on DRC_CTRL_CH1_EN = true) (hmore : vat d.drc.scrubAt c + 1 < d.channelBursts) :
    dramScrub c none d = wake (d.burstAddr c.val (vat d.drc.scrubAt c))
      (d.drcMod fun x => { x with scrubAt := vput x.scrubAt c (vat d.drc.scrubAt c + 1) }) := by
  have hgone : (decide (c.val = 1) && !d.on DRC_CTRL_CH1_EN) = false := by
    by_cases h : c.val = 1
    · simp [hch h]
    · simp [h]
  have hdone : decide (d.channelBursts ≤ vat d.drc.scrubAt c + 1) = false := decide_eq_false (by omega)
  unfold dramScrub
  simp only [hen, hst, hgone, hdone]
  rfl

/-! ### Panics (R446) -/

theorem panicUs_block {k : Nat} (h : k < 2) : DRCC_PANIC_US k / 0x10000 = 4 := by
  simp only [DRCC_PANIC_US]
  omega

/-- The longest panic of each channel, with `us` counted. -/
def panicSeen (us : Nat) (d : Dev) : Dev :=
  (List.range 2).foldl (fun (t : Dev) k =>
    t.setReg (DRCC_PANIC_US k) (max (t.reg (DRCC_PANIC_US k)) (min us 65535))) d

theorem panicSeen_spec (us : Nat) (d : Dev) :
    Dev.touches .plain [] [DRCC_PANIC_US 0, DRCC_PANIC_US 1] d (panicSeen us d) ∧
      ∀ k, k < 2 → (panicSeen us d).reg (DRCC_PANIC_US k) = max (d.reg (DRCC_PANIC_US k)) (min us 65535) := by
  have htwo {k : Nat} (hk : k ∈ List.range 2) : k = 0 ∨ k = 1 := by
    have := List.mem_range.1 hk
    omega
  refine ⟨Dev.touches.foldl_mem _ (fun u k hk => ?_) d, fun k hk => ?_⟩
  · refine .setReg u _ _ ?_ (silentReg_of_block (panicUs_block (List.mem_range.1 hk)))
    rcases htwo hk with h | h <;> simp [h]
  · refine obs_foldl_once (I := fun _ => True) (obs := fun u : Dev => u.reg (DRCC_PANIC_US k)) List.nodup_range
      (List.mem_range.2 hk) (fun _ _ _ _ => trivial) (fun u j hj hne => reg_setReg_ne _ _ ?_) (fun u _ hu => ?_) trivial
    · simp only [DRCC_PANIC_US]
      omega
    · have hlt := reg_lt d (DRCC_PANIC_US k)
      rw [reg_setReg_same, hu]
      omega

/-- The controller once a long panic of channel `c` shows. -/
def panicShown (c : Channel) (d : Dev) : Dev :=
  (d.put DRC_FLAGS_PANIC_LONG 1).setReg DRC_ERR_INFO (putBits (d.reg DRC_ERR_INFO) 0 0 c.val)

theorem panicLong_over {b : Bobbin} {c : Channel} {us : Nat} {d : Dev} (hp : d.on (CRLB_STATUS_PANIC b.val) = true)
    (hus : d.reg DRC_PANIC_MAX % 65536 < us) :
    panicLong b c us d = faultEvent 0x1B sevInfo c.val 51 (panicShown c (panicSeen us d)) := by
  unfold panicLong
  rw [if_neg (by simp [hp]; omega)]
  rfl

theorem panicLong_spec {b : Bobbin} {c : Channel} {us : Nat} {d : Dev} (hp : d.on (CRLB_STATUS_PANIC b.val) = true)
    (hus : d.reg DRC_PANIC_MAX % 65536 < us) :
    let t := panicLong b c us d
    t.on DRC_FLAGS_PANIC_LONG = true ∧
      (∀ k, k < 2 → t.reg (DRCC_PANIC_US k) = max (d.reg (DRCC_PANIC_US k)) (min us 65535)) ∧
      bits (t.reg DRC_ERR_INFO) 0 0 = c.val ∧ t.pends 51 ∧ d.detects 0x1B c.val t ∧
      Dev.touches .fault [] [DRC_FLAGS, DRC_ERR_INFO, DRCC_PANIC_US 0, DRCC_PANIC_US 1] d t := by
  intro t
  have ht : t = _ := panicLong_over hp hus
  obtain ⟨hseen, hus⟩ := panicSeen_spec us d
  generalize panicSeen us d = u at ht hseen hus
  have hshown : Dev.touches .plain [] [DRC_FLAGS, DRC_ERR_INFO] u (panicShown c u) :=
    (Dev.touches.put u DRC_FLAGS_PANIC_LONG 1 (by simp)).trans (.setReg _ DRC_ERR_INFO _ (by simp))
  have hfault : Dev.touches .fault [] [] (panicShown c u) t := ht ▸ .faultEvent 0x1B _ c.val 51 _
  refine ⟨?_, fun k hk => ?_, ?_, ?_, ?_, ?_⟩
  · rw [hfault.on (by simp) (by decide), panicShown, Dev.on, get_setReg_ne _ _ _ _ (by decide)]
    exact on_put_one u _ rfl (by decide)
  · have hblock := panicUs_block hk
    have hne : DRCC_PANIC_US k ∉ [DRC_FLAGS, DRC_ERR_INFO] := by
      simp only [DRCC_PANIC_US, DRC_FLAGS, DRC_ERR_INFO, List.mem_cons, List.not_mem_nil, or_false]
      omega
    rw [hfault.reg (by simp) (faultReg_of_block hblock), hshown.reg hne rfl, hus k hk]
  · rw [hfault.reg (by simp) (by decide), panicShown, reg_setReg_same, bits_mod_word _ _ _ (by decide),
      bits_putBits _ _ _ _ (by decide)]
    exact Nat.mod_eq_of_lt c.isLt
  · exact ht ▸ faultEvent_pends (by decide) (by decide) _ _ _
  · refine detects_of_reg ((hshown.reg (by decide) rfl).trans (hseen.reg (by decide) rfl)) ?_
    exact ht ▸ faultEvent_detects _ _ (by decide) (by decide) (by omega) (by decide)
  · exact ((hseen.ofPlain.mono (by simp) (by simp)).trans (hshown.ofPlain.mono (by simp) (by simp))).trans
      (hfault.mono (by simp) (by simp))

/-! ### Errors (R440) -/

theorem dramLoc_lt (d : Dev) (a : Nat) : (d.dramLoc a).1 < 2 ∧ (d.dramLoc a).2.1 < 2 ∧ (d.dramLoc a).2.2 < 2 := by
  have hb (i : Nat) : bits a i i < 2 := by
    simp only [bits, Nat.add_sub_cancel_left]
    omega
  refine ⟨?_, hb 6, ?_⟩
  · change (if _ then bits a 7 7 else 0) < 2
    split
    · exact hb 7
    · decide
  · change (if _ then bits a _ _ else 0) < 2
    split
    · exact hb _
    · decide

theorem latchError_touches (hL : [DRC_ERR_ADDR_LO, DRC_ERR_ADDR_HI, DRC_ERR_INFO] ⊆ L) (a comp : Nat) (ue : Bool) (d : Dev) :
    Dev.touches m P L d (latchError a comp ue d) :=
  ((Dev.touches.setReg d DRC_ERR_ADDR_LO _ (hL (by simp))).trans (.setReg _ DRC_ERR_ADDR_HI _ (hL (by simp)))).trans
    (.setReg _ DRC_ERR_INFO _ (hL (by simp)))

/-- What is latched of an error. -/
theorem latchError_spec {a : Nat} (ha : a < 2 ^ 36) (comp : Nat) (ue : Bool) (d : Dev) :
    let t := latchError a comp ue d
    t.reg DRC_ERR_ADDR_LO = a % 2 ^ 32 ∧ t.reg DRC_ERR_ADDR_HI = a / 2 ^ 32 ∧
      bits (t.reg DRC_ERR_INFO) 0 0 = (d.dramLoc a).1 ∧ bits (t.reg DRC_ERR_INFO) 10 8 = comp % 8 ∧
      bit (t.reg DRC_ERR_INFO) 6 = ue := by
  obtain ⟨hc, hs, hr⟩ := dramLoc_lt d a
  unfold latchError
  generalize d.dramLoc a = x at hc hs hr ⊢
  obtain ⟨c, sub, rank⟩ := x
  dsimp only at hc hs hr ⊢
  have hue := b2n_le ue
  have hinfo : (comp % 8 * 256 + b2n ue * 64 + rank * 32 + sub * 16 + c) % 2 ^ 32 =
      comp % 8 * 256 + b2n ue * 64 + rank * 32 + sub * 16 + c := by omega
  simp (disch := decide) only [reg_setReg_same, reg_setReg_ne, hinfo]
  refine ⟨by omega, by omega, ?_, ?_, ?_⟩
  · simp only [bits]
    omega
  · simp only [bits]
    omega
  · rw [bit_eq_bits]
    have : bits (comp % 8 * 256 + b2n ue * 64 + rank * 32 + sub * 16 + c) 6 6 = b2n ue := by
      simp only [bits]
      omega
    rw [this]
    cases ue <;> rfl

theorem errCount_block {k : Nat} (h : k < 2) : DRCC_CE k / 0x10000 = 4 ∧ DRCC_UE k / 0x10000 = 4 := by
  simp only [DRCC_CE, DRCC_UE]
  omega

/-- An error counted: latched, with its count at `x` and its flag. -/
def errCounted (a comp : Nat) (ue : Bool) (x : Nat) (f : Field) (d : Dev) : Dev :=
  ((latchError a comp ue d).count x 1).put f 1

theorem errCounted_touches {x : Nat} {f : Field} (hL : [x, DRC_ERR_ADDR_LO, DRC_ERR_ADDR_HI, DRC_ERR_INFO, DRC_FLAGS] ⊆ L)
    (hx : x / 0x10000 = 4) (hf : f.addr = DRC_FLAGS) (a comp : Nat) (ue : Bool) (d : Dev) :
    Dev.touches m P L d (errCounted a comp ue x f d) := by
  have hlatch : Dev.touches m P L d (latchError a comp ue d) := by
    refine latchError_touches (fun b hb => hL ?_) a comp ue d
    simp only [List.mem_cons] at hb ⊢
    tauto
  refine (hlatch.trans (.count _ x 1 (hL (by simp)) (silentReg_of_block hx))).trans ?_
  exact .put _ f 1 (hL (by simp [hf])) (by rw [hf]; decide)

/-- What an error leaves that is latched, counted at `x` and flagged by `f`. -/
theorem errCounted_spec {a : Nat} (ha : a < 2 ^ 36) (comp : Nat) (ue : Bool) {x : Nat} {f : Field} (d : Dev)
    (hne : x ∉ [DRC_ERR_ADDR_LO, DRC_ERR_ADDR_HI, DRC_ERR_INFO, DRC_FLAGS]) (hf : f.addr = DRC_FLAGS)
    (hone : f.hi = f.lo) (h32 : f.hi < 32) :
    let t := errCounted a comp ue x f d
    t.reg x = min (d.reg x + 1) 0xFFFFFFFF ∧ t.reg DRC_ERR_ADDR_LO = a % 2 ^ 32 ∧ t.reg DRC_ERR_ADDR_HI = a / 2 ^ 32 ∧
      bits (t.reg DRC_ERR_INFO) 0 0 = (d.dramLoc a).1 ∧ bits (t.reg DRC_ERR_INFO) 10 8 = comp % 8 ∧
      bit (t.reg DRC_ERR_INFO) 6 = ue ∧ t.on f = true := by
  intro t
  obtain ⟨hlo, hhi, hch, hcomp, hue⟩ := latchError_spec ha comp ue d
  have hlatch : Dev.touches .plain [] _ d (latchError a comp ue d) := latchError_touches (fun _ => id) a comp ue d
  simp only [List.mem_cons, List.not_mem_nil, or_false, not_or] at hne
  obtain ⟨hxlo, hxhi, hxinfo, hxflags⟩ := hne
  have hreg {b : Nat} (hbx : b ≠ x) (hbf : b ≠ DRC_FLAGS) : t.reg b = (latchError a comp ue d).reg b := by
    rw [show t.reg b = _ from reg_put_ne _ f _ (hf ▸ hbf), reg_count_ne _ _ hbx]
  refine ⟨?_, ?_, ?_, ?_, ?_, ?_, on_put_one _ f hone h32⟩
  · rw [show t.reg x = _ from reg_put_ne _ f _ (hf ▸ hxflags), reg_count_same, hlatch.reg (by simp [hxlo, hxhi, hxinfo]) rfl]
  · rw [hreg (Ne.symm hxlo) (by decide), hlo]
  · rw [hreg (Ne.symm hxhi) (by decide), hhi]
  · rw [hreg (Ne.symm hxinfo) (by decide), hch]
  · rw [hreg (Ne.symm hxinfo) (by decide), hcomp]
  · rw [hreg (Ne.symm hxinfo) (by decide), hue]

/-! #### Corrected errors -/

/-- The controller with a corrected error among those of late. -/
def ceNoted (c sub rank comp : Nat) (d : Dev) : Dev :=
  d.drcMod fun x => { x with
    errors := (d.drc.errors.filter fun e => d.grid.ticks < e.tick + 2000000) ++ [⟨c, rank, sub, comp, d.grid.ticks⟩]
    ceSeen := true }

/-- With no threshold set, a corrected error is counted and noted, and reported if it is the first. -/
theorem dramCE_unmarked {a : Nat} {comp : Fin 5} {d : Dev} (hst : d.drcState = 2) (hin : d.inDram a 1 = true)
    (hthr : d.reg DRC_MARK_THR % 65536 = 0) {c sub rank : Nat} (hloc : d.dramLoc a = (c, sub, rank)) (hc : c < 2) :
    dramCE a comp d =
      let u := errCounted a comp.val false (DRCC_CE c) DRC_FLAGS_CE d
      if u.drc.ceSeen then ceNoted c sub rank comp.val u
      else faultEvent 0x18 sevInfo c 48 (ceNoted c sub rank comp.val u) := by
  unfold dramCE
  rw [if_neg (by simp [hst, hin]), hloc]
  dsimp -zeta only
  extract_lets u now errs hits first v w thr u2
  have hu : u = u2 := rfl
  have hv : v = ceNoted c sub rank comp.val u2 := rfl
  have hthrw : thr = 0 := by
    have hblock := (errCount_block hc).1
    have hrest : Dev.touches .fault [.drc] [DRCC_CE c, DRC_ERR_ADDR_LO, DRC_ERR_ADDR_HI, DRC_ERR_INFO, DRC_FLAGS] d w :=
      ((errCounted_touches (fun _ => id) hblock rfl a comp.val false d).trans (drcMod_touches (by simp) _ _)).trans
        (.ite _ (.faultEvent 0x18 _ c 48 v) (.refl v))
    have hreg : w.reg DRC_MARK_THR = d.reg DRC_MARK_THR := by
      refine hrest.reg ?_ (by decide)
      simp only [DRCC_CE, DRC_MARK_THR, DRC_ERR_ADDR_LO, DRC_ERR_ADDR_HI, DRC_ERR_INFO, DRC_FLAGS, List.mem_cons,
        List.not_mem_nil, or_false]
      omega
    simp only [thr, hreg, hthr]
  rw [if_neg (by simp [hthrw])]
  cases hseen : u.drc.ceSeen with
  | true =>
    have hfirst : first = false := by simp only [first, hseen, Bool.not_true]
    simp only [w, hfirst, Bool.false_eq_true, if_false]
    exact (if_pos hseen).symm
  | false =>
    have hfirst : first = true := by simp only [first, hseen, Bool.not_false]
    simp only [w, hfirst, if_true]
    exact (if_neg (by rw [← hu, hseen]; decide)).symm

theorem errCount_apart {k : Nat} (h : k < 2) :
    DRCC_CE k ∉ [DRC_ERR_ADDR_LO, DRC_ERR_ADDR_HI, DRC_ERR_INFO, DRC_FLAGS] ∧
      DRCC_UE k ∉ [DRC_ERR_ADDR_LO, DRC_ERR_ADDR_HI, DRC_ERR_INFO, DRC_FLAGS] := by
  simp only [DRCC_CE, DRCC_UE, DRC_ERR_ADDR_LO, DRC_ERR_ADDR_HI, DRC_ERR_INFO, DRC_FLAGS, List.mem_cons, List.not_mem_nil,
    or_false]
  omega

/-- What is counted, latched and flagged stands when it is reported. -/
theorem errReported_spec {a : Nat} (ha : a < 2 ^ 36) (comp : Nat) (ue : Bool) {x : Nat} {f : Field} {d t : Dev}
    (hx : x / 0x10000 = 4) (hne : x ∉ [DRC_ERR_ADDR_LO, DRC_ERR_ADDR_HI, DRC_ERR_INFO, DRC_FLAGS]) (hf : f.addr = DRC_FLAGS)
    (hone : f.hi = f.lo) (h32 : f.hi < 32) (ht : Dev.touches .fault [.drc] [] (errCounted a comp ue x f d) t) :
    t.reg x = min (d.reg x + 1) 0xFFFFFFFF ∧ t.reg DRC_ERR_ADDR_LO = a % 2 ^ 32 ∧ t.reg DRC_ERR_ADDR_HI = a / 2 ^ 32 ∧
      bits (t.reg DRC_ERR_INFO) 0 0 = (d.dramLoc a).1 ∧ bits (t.reg DRC_ERR_INFO) 10 8 = comp % 8 ∧
      bit (t.reg DRC_ERR_INFO) 6 = ue ∧ t.on f = true := by
  have hreg {b : Nat} (hb : b / 0x10000 = 4) : t.reg b = (errCounted a comp ue x f d).reg b :=
    ht.reg (by simp) (faultReg_of_block hb)
  rw [hreg hx, hreg (b := DRC_ERR_ADDR_LO) (by decide), hreg (b := DRC_ERR_ADDR_HI) (by decide),
    hreg (b := DRC_ERR_INFO) (by decide), on_congr (hreg (b := f.addr) (by rw [hf]; decide))]
  exact errCounted_spec ha comp ue d hne hf hone h32

/-- What a corrected error leaves of the events and of the controller's state. -/
theorem dramCE_spec {a : Nat} {comp : Fin 5} {d : Dev} (hst : d.drcState = 2) (hin : d.inDram a 1 = true)
    (hthr : d.reg DRC_MARK_THR % 65536 = 0) {k : Nat} (hk : k = (d.dramLoc a).1) :
    let t := dramCE a comp d
    Dev.touches .fault [.drc] [] (errCounted a comp.val false (DRCC_CE k) DRC_FLAGS_CE d) t ∧
      (d.drc.ceSeen = false → t.pends 48 ∧ d.detects 0x18 k t) ∧ t.drc.ceSeen = true ∧
      Dev.touches .fault [.drc] [DRCC_CE k, DRC_ERR_ADDR_LO, DRC_ERR_ADDR_HI, DRC_ERR_INFO, DRC_FLAGS] d t := by
  have hloc : d.dramLoc a = (k, (d.dramLoc a).2.1, (d.dramLoc a).2.2) := by rw [hk]
  replace hk : k < 2 := hk ▸ (dramLoc_lt d a).1
  generalize (d.dramLoc a).2.1 = sub, (d.dramLoc a).2.2 = rank at hloc
  rw [dramCE_unmarked hst hin hthr hloc hk]
  extract_lets u t
  have hcount {Q : List Part} : Dev.touches .plain Q _ d u :=
    errCounted_touches (fun _ => id) (errCount_block hk).1 rfl a comp.val false d
  have hseen : u.drc = d.drc := (hcount (Q := [])).parts .drc (by simp) (by decide)
  have hnoted : Dev.touches .plain [.drc] [] u (ceNoted k sub rank comp.val u) := drcMod_touches (by simp) _ u
  have hreport {Q : List Part} : Dev.touches .fault Q [] (ceNoted k sub rank comp.val u) t :=
    .ite _ (.refl _) (.faultEvent 0x18 _ k 48 _)
  have htouch := hnoted.ofPlain.trans hreport
  refine ⟨htouch, fun h => ?_, ?_, hcount.ofPlain.trans (htouch.mono (by simp) (by simp))⟩
  · have ht : t = faultEvent 0x18 sevInfo k 48 (ceNoted k sub rank comp.val u) := if_neg (by simp only [hseen, h]; decide)
    rw [ht]
    refine ⟨faultEvent_pends (by decide) (by decide) _ _ _, detects_of_reg ?_ (faultEvent_detects _ _ (by decide) (by decide)
      (by omega) (by decide))⟩
    have hne : EVT_FLT_COUNT 0x18 ∉ [DRCC_CE k, DRC_ERR_ADDR_LO, DRC_ERR_ADDR_HI, DRC_ERR_INFO, DRC_FLAGS] := by
      have hblock := (errCount_block hk).1
      have hcount : EVT_FLT_COUNT 0x18 / 0x10000 = 2 := by decide
      simp only [List.mem_cons, List.not_mem_nil, or_false, not_or]
      refine ⟨fun h => ?_, by decide⟩
      rw [h, hblock] at hcount
      omega
    exact (hnoted.reg (by simp) rfl).trans ((hcount (Q := [])).reg hne rfl)
  · have hdrc : t.drc = (ceNoted k sub rank comp.val u).drc :=
      (hreport (Q := [])).parts .drc (by simp) (by decide)
    rw [hdrc, ceNoted, drcMod_drc]

/-! #### Uncorrectable errors -/

/-- An uncorrectable error whose component is not found is counted with a free one. -/
theorem dramUE_unfound (a sev : Nat) (d : Dev) {c sub rank : Nat} (hloc : d.dramLoc a = (c, sub, rank)) :
    dramUE a sev c none d = faultEvent 0x19 sev c 49 (errCounted a (d.fresh 3).1 true (DRCC_UE c) DRC_FLAGS_UE (d.fresh 3).2) := by
  unfold dramUE dramUEcount
  rw [hloc]
  rfl

theorem dramUncorrectable_other {a : Nat} {d : Dev} (hst : d.drcState = 2) (hin : d.inDram a 1 = true)
    (diag : Option (Fin 5)) :
    dramUncorrectable a .other diag d = dramUE a sevInfo (d.dramLoc a).1 diag d ∧
      dramUncorrectable a .thermalMap diag d = (dramUncorrectable a .other diag d).zeroDram (a / 64 * 64) 64 := by
  unfold dramUncorrectable
  rw [if_neg (by simp [hst, hin]), if_neg (by simp [hst, hin])]
  exact ⟨rfl, rfl⟩

/-- What an uncorrectable error outside the areas of their own leaves. -/
theorem dramUncorrectable_spec {a : Nat} {d : Dev} (hst : d.drcState = 2) (hin : d.inDram a 1 = true) (ha : a < 2 ^ 36)
    {k : Nat} (hk : k = (d.dramLoc a).1) :
    let t := dramUncorrectable a .other none d
    t.reg (DRCC_UE k) = min (d.reg (DRCC_UE k) + 1) 0xFFFFFFFF ∧ t.reg DRC_ERR_ADDR_LO = a % 2 ^ 32 ∧
      t.reg DRC_ERR_ADDR_HI = a / 2 ^ 32 ∧ bit (t.reg DRC_ERR_INFO) 6 = true ∧ t.on DRC_FLAGS_UE = true ∧ t.pends 49 ∧
      d.detects 0x19 k t ∧
      Dev.touches .fault [.free] [DRCC_UE k, DRC_ERR_ADDR_LO, DRC_ERR_ADDR_HI, DRC_ERR_INFO, DRC_FLAGS] d t := by
  have hloc : d.dramLoc a = (k, (d.dramLoc a).2.1, (d.dramLoc a).2.2) := by rw [hk]
  have hlt : k < 2 := hk ▸ (dramLoc_lt d a).1
  have hblock := (errCount_block hlt).2
  intro t
  have ht : t = faultEvent 0x19 sevInfo k 49 (errCounted a (d.fresh 3).1 true (DRCC_UE k) DRC_FLAGS_UE (d.fresh 3).2) := by
    rw [show t = _ from (dramUncorrectable_other hst hin none).1, ← hk]
    exact dramUE_unfound a sevInfo d hloc
  clear_value t
  have hfree : Dev.touches .plain [.free] [] d (d.fresh 3).2 := .ofWithin (fresh_within 3 d) (by simp)
  generalize (d.fresh 3).1 = comp, (d.fresh 3).2 = u at ht hfree
  have hcount {Q : List Part} : Dev.touches .plain Q _ u (errCounted a comp true (DRCC_UE k) DRC_FLAGS_UE u) :=
    errCounted_touches (fun _ => id) hblock rfl a comp true u
  have hreport : Dev.touches .fault [] [] (errCounted a comp true (DRCC_UE k) DRC_FLAGS_UE u) t := by
    rw [ht]
    exact .faultEvent 0x19 _ k 49 _
  obtain ⟨hreg, hlo, hhi, -, -, hue, hflag⟩ := errReported_spec ha comp true hblock (errCount_apart hlt).2
    rfl rfl (by decide) (hreport.mono (by simp) (by simp))
  rw [hfree.reg (by simp) rfl] at hreg
  refine ⟨hreg, hlo, hhi, hue, hflag, ?_, ?_, ?_⟩
  · rw [ht]
    exact faultEvent_pends (by decide) (by decide) _ _ _
  · rw [ht]
    refine detects_of_reg ?_ (faultEvent_detects _ _ (by decide) (by decide) (by omega) (by decide))
    have hne : EVT_FLT_COUNT 0x19 ∉ [DRCC_UE k, DRC_ERR_ADDR_LO, DRC_ERR_ADDR_HI, DRC_ERR_INFO, DRC_FLAGS] := by
      have hcount : EVT_FLT_COUNT 0x19 / 0x10000 = 2 := by decide
      simp only [List.mem_cons, List.not_mem_nil, or_false, not_or]
      refine ⟨fun h => ?_, by decide⟩
      rw [h, hblock] at hcount
      omega
    exact ((hcount (Q := [])).reg hne rfl).trans (hfree.reg (by simp) rfl)
  · exact ((hfree.ofPlain.mono (by simp) (by simp)).trans hcount.ofPlain).trans (hreport.mono (by simp) (by simp))

/-! ### The statement -/

theorem exec_dramRefresh (c : Channel) (r : Fin 2) (waits : Bool) (s : State) :
    exec (.dramRefresh c r waits) s = actIn domFab (refresh c r waits) s := rfl

theorem exec_selfRefreshEntry (c : Channel) (s : State) : exec (.selfRefreshEntry c) s = actIn domFab (selfRefresh c) s := rfl

theorem exec_dramScrub (c : Channel) (found : Option (Bool × Option (Fin 5))) (s : State) :
    exec (.dramScrub c found) s = actIn domFab (dramScrub c found) s := rfl

theorem exec_dramPanic (b : Bobbin) (c : Channel) (n : Nat) (s : State) :
    exec (.dramPanic b c n) s = actIn domFab (panicLong b c n) s := rfl

theorem exec_dramCe (a : Nat) (comp : Fin 5) (s : State) : exec (.dramCe a comp) s = actIn domFab (dramCE a comp) s := rfl

theorem exec_dramUe (a : Nat) (area : DramArea) (diag : Option (Fin 5)) (s : State) :
    exec (.dramUe a area diag) s = actIn domFab (dramUncorrectable a area diag) s := rfl

/-- Settles O55: each operation by its own lemma. -/
theorem dramReads : Obligations.DramReads := by
  intro c r a k n comp b s hrun hcalm hready
  refine ⟨fun hself hk => ?_, fun hen hpanic hpost hself hopen hch => ?_, fun hen hch hk hmore => ?_, fun hp hmax => ?_,
    fun hin ha hthr hk => ?_, fun hin ha hk => ?_⟩
  · have hpost (w : Bool) (v : Nat) (hv : v = if w && k < 4 then k + 1 else if w then k else 0) :
        refresh c r w s.dev = { s.dev with drc := { s.dev.drc with
          postponed := vput s.dev.drc.postponed ⟨c.val * 2 + r.val, by omega⟩ v } } := by
      rw [refresh_ready hready hself, hv, hk]
      rfl
    exact ⟨actIn_of_eq hrun (hpost true _ (by simp)) hcalm.1, actIn_of_eq hrun (hpost false _ (by simp)) hcalm.1⟩
  · have h := selfRefresh_idle hready hself hen hpanic hpost hopen hch
    have hblock : DRCC_SR_ENTRIES c / 0x10000 = 4 := by
      simp only [DRCC_SR_ENTRIES]
      omega
    have htouch : Dev.touches .plain [.drc] [DRCC_SR_ENTRIES c] s.dev (selfRefresh c s.dev) := by
      rw [h]
      exact (drcMod_touches (by simp) _ _).trans (.count _ _ 1 (by simp) (silentReg_of_block hblock))
    refine ⟨_, actIn_touches hrun hcalm htouch, ?_, ?_, htouch.regsOnly⟩
    · rw [h, Dev.count, setReg_drc, drcMod_drc]
    · rw [h, reg_count_same, drcMod_reg]
  · rw [hk] at hmore
    have h := dramScrub_clean hready hen hch hmore
    have htouch : Dev.touches .plain [.drc] [] s.dev (dramScrub c none s.dev) := by
      rw [h]
      exact (drcMod_touches (by simp) _ _).trans (wake_touches (by simp) _ _)
    refine ⟨_, actIn_touches hrun hcalm htouch, ?_, htouch.regsOnly⟩
    rw [h, hk]
    rfl
  · obtain ⟨hon, hlong, hch, hpend, hdetect, htouch⟩ := panicLong_spec (c := c) hp hmax
    exact ⟨_, actIn_touches hrun hcalm htouch, hon, hlong, hch, hpend, hdetect, htouch.withFault⟩
  · obtain ⟨hcount, hfirst, hseen, htouch⟩ := dramCE_spec (comp := comp) hready hin hthr hk
    have hlt : k < 2 := hk ▸ (dramLoc_lt s.dev a).1
    obtain ⟨hreg, hlo, hhi, hch, hcomp, hue, hflag⟩ := errReported_spec ha _ _ (errCount_block hlt).1 (errCount_apart hlt).1
      rfl rfl (by decide) hcount
    refine ⟨_, actIn_touches hrun hcalm htouch, hreg, hlo, hhi, hch.trans hk.symm, hcomp.trans ?_, hue, hflag, hfirst, hseen,
      htouch.withFault⟩
    exact Nat.mod_eq_of_lt (by omega)
  · obtain ⟨hreg, hlo, hhi, hue, hflag, hpend, hdetect, htouch⟩ := dramUncorrectable_spec hready hin ha hk
    have hmap := (dramUncorrectable_other hready hin none).2
    exact ⟨_, actIn_touches hrun hcalm htouch, hreg, hlo, hhi, hue, hflag, hpend, hdetect,
      actIn_of_eq hrun hmap (htouch.calm hcalm).1, htouch.withFault⟩

/-!
PROOFS about the eye scan (R463, R464), the PRBS checker and the error injection of a lane (R467 to R469).
-/

/-! ### Registers of a lane -/

theorem laneReg_block (l : Lane) {o : Nat} (h : 0x50100 ≤ o := by decide) (h' : o < 0x50200 := by decide) :
    (o + l.val * 0x100) / 0x10000 = 5 := by omega

theorem laneReg_silent (l : Lane) {o : Nat} (h : 0x50100 ≤ o := by decide) (h' : o < 0x50200 := by decide) :
    silentReg (o + l.val * 0x100) = true := silentReg_of_block (laneReg_block l h h')

theorem lnkLocked_apart (l : Lane) {o : Nat} (h : 0x50100 ≤ o := by decide) : LNK_LOCKED ≠ o + l.val * 0x100 := by
  simp only [LNK_LOCKED]
  omega

theorem laneMod_touches (hP : Part.lanes ∈ P) (l : Lane) (f : LaneUnit → LaneUnit) (d : Dev) :
    Dev.touches m P L d (d.laneMod l f) := .ofWithin (toLanes_within d _) (by simpa using hP)

@[simp] theorem laneMod_reg (d : Dev) (l : Lane) (f : LaneUnit → LaneUnit) (a : Nat) : (d.laneMod l f).reg a = d.reg a := by
  simp only [Dev.laneMod, reg_mk]

@[simp] theorem laneMod_get (d : Dev) (l : Lane) (f : LaneUnit → LaneUnit) (g : Field) : (d.laneMod l f).get g = d.get g := by
  simp only [Dev.laneMod, get_mk]

@[simp] theorem laneMod_on (d : Dev) (l : Lane) (f : LaneUnit → LaneUnit) (g : Field) : (d.laneMod l f).on g = d.on g := by
  simp only [Dev.on, laneMod_get]

@[simp] theorem laneMod_lanes (d : Dev) (l : Lane) (f : LaneUnit → LaneUnit) : (d.laneMod l f).lanes = vmod d.lanes l f := by
  simp only [Dev.laneMod]

theorem laneFlag_touches {l : Lane} {f : Field} (hL : f.addr ∈ L) (hf : f.addr = LANE_FLAGS l) (d : Dev) :
    Dev.touches .event P L d (laneFlag l f d) :=
  .flagEvent f _ l.val 0 d hL (by rw [hf]; exact laneReg_silent l) (by omega)

/-! ### The eye scan -/

/-- The registers of a scan. -/
def scanRegs (l : Lane) : List Nat := [LANE_SCAN_STAT l, LANE_SCAN_ERR l, LANE_SCAN_BITS_LO l, LANE_SCAN_BITS_HI l]

theorem scanStart_idle {l : Lane} {d : Dev} (h : d.on (LANE_SCAN_STAT_BUSY l) = false) :
    let t := scanStart l d
    t.reg (LANE_SCAN_STAT l) = 1 ∧ t.reg (LANE_SCAN_ERR l) = 0 ∧ t.reg (LANE_SCAN_BITS_LO l) = 0 ∧
      t.reg (LANE_SCAN_BITS_HI l) = 0 ∧
      t.lanes = (vmod d.lanes l fun (x : LaneUnit) => { x with scan := d.get (LANE_SCAN_CFG_DWELL l) }) ∧
      Dev.touches .plain [.lanes] (scanRegs l) d t := by
  unfold scanStart
  rw [if_neg (by simp [h])]
  extract_lets u t
  have hdwell : u.get (LANE_SCAN_CFG_DWELL l) = d.get (LANE_SCAN_CFG_DWELL l) := by
    simp (disch := simp) only [u, get_setReg_ne]
  refine ⟨?_, ?_, ?_, ?_, ?_, ?_⟩
  iterate 4
    · simp (disch := simp) only [t, u, laneMod_reg, reg_setReg_ne, reg_setReg_same]
      rfl
  · simp only [t, hdwell, laneMod_lanes]
    rfl
  · refine Dev.touches.trans ?_ (laneMod_touches (by simp) l _ _)
    refine (((Dev.touches.setReg d _ 0 ?_ (laneReg_silent l)).trans (.setReg _ _ 0 ?_ (laneReg_silent l))).trans
      (.setReg _ _ 0 ?_ (laneReg_silent l))).trans (.setReg _ _ 1 ?_ (laneReg_silent l)) <;> simp [scanRegs]

theorem scanEnd_spec (l : Lane) (n errors : Nat) (d : Dev) :
    let t := scanEnd l n errors d
    t.on (LANE_SCAN_STAT_BUSY l) = false ∧ t.reg (LANE_SCAN_BITS_LO l) = n % 2 ^ 32 ∧
      t.reg (LANE_SCAN_BITS_HI l) = n / 2 ^ 32 % 65536 ∧ t.reg (LANE_SCAN_ERR l) = min (min errors n) 0xFFFFFFFF ∧
      Dev.touches .plain [] (scanRegs l) d t := by
  unfold scanEnd
  extract_lets u t
  refine ⟨on_put_zero _ _ rfl (by simp), ?_, ?_, ?_, ?_⟩
  · simp (disch := simp) only [t, u, reg_put_ne, reg_setReg_ne, reg_setReg_same, Nat.mod_mod]
  · simp (disch := simp) only [t, u, reg_put_ne, reg_setReg_ne, reg_setReg_same]
    omega
  · simp (disch := simp) only [t, u, reg_put_ne, reg_setReg_same]
    omega
  · refine (((Dev.touches.setReg d _ _ ?_ (laneReg_silent l)).trans (.setReg _ _ _ ?_ (laneReg_silent l))).trans
      (.setReg _ _ _ ?_ (laneReg_silent l))).trans (.put _ _ 0 ?_ (laneReg_silent l)) <;> simp [scanRegs]

theorem scanStop_busy {l : Lane} {d : Dev} (h : d.on (LANE_SCAN_STAT_BUSY l) = true) (n errors : Nat) :
    scanStop l n errors d = scanEnd l (min n (d.dwellBits l)) errors d := by
  simp [scanStop, h]

/-- The end of the dwell shows DONE and SCAN_DONE beside the counts. -/
theorem scanDone_spec {l : Lane} {d : Dev} (h : d.on (LANE_SCAN_STAT_BUSY l) = true) (errors : Nat) :
    let t := scanDone l errors d
    t.on (LANE_SCAN_STAT_BUSY l) = false ∧ t.on (LANE_SCAN_STAT_DONE l) = true ∧ t.on (LANE_FLAGS_SCAN_DONE l) = true ∧
      t.reg (LANE_SCAN_BITS_LO l) = d.dwellBits l % 2 ^ 32 ∧
      t.reg (LANE_SCAN_BITS_HI l) = d.dwellBits l / 2 ^ 32 % 65536 ∧
      t.reg (LANE_SCAN_ERR l) = min (min errors (d.dwellBits l)) 0xFFFFFFFF ∧
      Dev.touches .event [] (LANE_FLAGS l :: scanRegs l) d t := by
  obtain ⟨hbusy, hlo, hhi, herr, hend⟩ := scanEnd_spec l (d.dwellBits l) errors d
  unfold scanDone
  rw [if_neg (by simp [h])]
  generalize scanEnd l (d.dwellBits l) errors d = u at hbusy hlo hhi herr hend ⊢
  intro t
  have hflag : Dev.touches .event [] [LANE_FLAGS l] (u.put (LANE_SCAN_STAT_DONE l) 1) t := laneFlag_touches (by simp) rfl _
  have hreg {a : Nat} (ha : a ≠ LANE_FLAGS l) (hb : a / 0x10000 = 5) : t.reg a = (u.put (LANE_SCAN_STAT_DONE l) 1).reg a :=
    hflag.reg (by simpa using ha) (eventReg_of_block hb)
  refine ⟨?_, ?_, ?_, ?_, ?_, ?_, ?_⟩
  · rw [on_congr (hreg (by simp) (laneReg_block l)), Dev.on, get_put_ne _ _ _ _ (by simp) (by simp) (by simp), ← Dev.on, hbusy]
  · rw [on_congr (hreg (by simp) (laneReg_block l))]
    exact on_put_one _ _ rfl (by simp)
  · exact flagEvent_on _ _ _ _ (by omega) rfl (by simp) (eventReg_of_block (laneReg_block l))
  · rw [hreg (by simp) (laneReg_block l), reg_put_ne _ _ _ (by simp), hlo]
  · rw [hreg (by simp) (laneReg_block l), reg_put_ne _ _ _ (by simp), hhi]
  · rw [hreg (by simp) (laneReg_block l), reg_put_ne _ _ _ (by simp), herr]
  · exact (hend.ofPlain.mono (by simp) (by simp)).trans
      ((Dev.touches.put u _ 1 (by simp [scanRegs]) (laneReg_silent l)).trans (hflag.mono (by simp) (by simp)))

/-! ### The PRBS checker -/

theorem prbsLock_locks {l : Lane} {d : Dev} (hchk : d.on (LANE_TEST_CHK_EN l) = true) (hen : d.on (LANE_CTRL_EN l) = true)
    (hcoded : d.on (LANE_TEST_CODED l) = true → bit (d.reg LNK_LOCKED) l.val = true) :
    prbsLock l d = d.put (LANE_PRBS_STAT_CHK_LOCK l) 1 := by
  have h : (d.on (LANE_TEST_CODED l) && !bit (d.reg LNK_LOCKED) l.val) = false := by
    cases hc : d.on (LANE_TEST_CODED l) with
    | true => simp [hcoded hc]
    | false => rfl
  simp [prbsLock, hchk, hen, h]

theorem chkDrop_touches (hP : Part.lanes ∈ P) (l : Lane) (hL : LANE_PRBS_STAT l ∈ L) (d : Dev) :
    Dev.touches m P L d (chkDrop l d) :=
  (Dev.touches.put d _ 0 hL (laneReg_silent l)).trans (laneMod_touches hP l _ _)

/-- The checker drops its lock with what it counted and PRBS_ERR. -/
theorem prbsLoss_spec {l : Lane} {d : Dev} (hlock : d.on (LANE_PRBS_STAT_CHK_LOCK l) = true) {mism : Nat} (hm : 512 < mism) :
    let t := prbsLoss l mism d
    t.on (LANE_PRBS_STAT_CHK_LOCK l) = false ∧ t.on (LANE_FLAGS_PRBS_ERR l) = true ∧
      t.reg (LANE_PRBS_ERR l) = min (d.reg (LANE_PRBS_ERR l) + min mism 1024) 0xFFFFFFFF ∧
      t.lanes = (vmod d.lanes l fun (x : LaneUnit) => { x with quarters := 0 }) ∧
      Dev.touches .event [.lanes] [LANE_PRBS_STAT l, LANE_PRBS_ERR l, LANE_FLAGS l] d t := by
  unfold prbsLoss
  rw [if_neg (by simp [hlock]; omega)]
  intro t
  have hcount : Dev.touches .event [.lanes] [LANE_PRBS_STAT l, LANE_PRBS_ERR l] d
      (d.count (LANE_PRBS_ERR l) (min mism 1024)) := .count d _ _ (by simp) (laneReg_silent l)
  have hdrop := hcount.trans (chkDrop_touches (by simp) l (by simp) _)
  have hflag {Q : List Part} : Dev.touches .event Q [LANE_FLAGS l] (chkDrop l (d.count (LANE_PRBS_ERR l) (min mism 1024))) t :=
    laneFlag_touches (by simp) rfl _
  have hreg {a : Nat} (ha : a ≠ LANE_FLAGS l) (hb : a / 0x10000 = 5) :
      t.reg a = (chkDrop l (d.count (LANE_PRBS_ERR l) (min mism 1024))).reg a :=
    (hflag (Q := [])).reg (by simpa using ha) (eventReg_of_block hb)
  refine ⟨?_, ?_, ?_, ?_, ?_⟩
  · rw [on_congr (hreg (by simp) (laneReg_block l)), chkDrop, laneMod_on]
    exact on_put_zero _ _ rfl (by simp)
  · exact flagEvent_on _ _ _ _ (by omega) rfl (by simp) (eventReg_of_block (laneReg_block l))
  · rw [hreg (by simp) (laneReg_block l), chkDrop, laneMod_reg, reg_put_ne _ _ _ (by simp), reg_count_same]
  · have hlanes : t.lanes = (chkDrop l (d.count (LANE_PRBS_ERR l) (min mism 1024))).lanes :=
      (hflag (Q := [])).parts .lanes (by simp) (by decide)
    rw [hlanes, chkDrop, laneMod_lanes, put_lanes, Dev.count, setReg_lanes]
  · exact (hdrop.mono (by simp) (by simp)).trans ((hflag (Q := [])).mono (by simp) (by simp))

/-! ### Injection -/

/-- What a lane counts itself of an injection (R468). -/
def Dev.selfInjected (d : Dev) (l : Lane) (w : Nat) : Nat :=
  injectedErrors (d.on (LANE_TEST_CODED l) || !d.on (LANE_TEST_GEN_EN l)) (bits w 1 0) (bits w 13 8 + 1)
    (max 1 (bits w 23 16))

/-- The lane with an injection pending. -/
def injArmed (l : Lane) (w : Nat) (d : Dev) : Dev :=
  (d.put (LANE_PRBS_STAT_INJ_PEND l) 1).laneMod l fun x =>
    { x with injLeft := max 1 (bits w 23 16), injKind := bits w 1 0, injLen := bits w 13 8 + 1 }

theorem inject_arms {l : Lane} {w : Nat} {d : Dev} (hlc : d.get DEV_LC_IN_FORCE ≠ 2)
    (hfree : d.on (LANE_PRBS_STAT_INJ_PEND l) = false) (hkind : bits w 1 0 ≠ 0) (hen : d.on (LANE_CTRL_EN l) = true)
    (hloop : d.get (LANE_CTRL_LOOP l) = 1 → bit (d.reg LNK_LOCKED) l.val = false) :
    inject l w d =
      if d.get (LANE_CTRL_LOOP l) = 1 ∧ d.on (LANE_PRBS_STAT_CHK_LOCK l) = true then
        (injArmed l w d).count (LANE_PRBS_ERR l) (d.selfInjected l w)
      else injArmed l w d := by
  unfold inject
  rw [if_neg (by simp [hlc]), if_neg (by simp [hfree, hkind, hen])]
  extract_lets n len kind t coded u v
  have hreg {a : Nat} (h : a ≠ LANE_PRBS_STAT l) : t.reg a = d.reg a := by rw [laneMod_reg, reg_put_ne _ _ _ h]
  have hget {f : Field} (h : f.addr ≠ LANE_PRBS_STAT l) : t.get f = d.get f := by simp only [Dev.get, hreg h]
  have hlock : t.on (LANE_PRBS_STAT_CHK_LOCK l) = d.on (LANE_PRBS_STAT_CHK_LOCK l) := by
    rw [laneMod_on, Dev.on, get_put_ne _ _ _ _ (by simp) (by simp) (by simp), ← Dev.on]
  have hcoded : coded = (d.on (LANE_TEST_CODED l) || !d.on (LANE_TEST_GEN_EN l)) := by
    simp (disch := simp) only [coded, Dev.on, hget]
  by_cases hone : d.get (LANE_CTRL_LOOP l) = 1
  · have hu : u = if d.on (LANE_PRBS_STAT_CHK_LOCK l) = true then
        (injArmed l w d).count (LANE_PRBS_ERR l) (d.selfInjected l w) else injArmed l w d := by
      simp only [u, hlock, hcoded]
      rfl
    have hlocked : bit (u.reg LNK_LOCKED) l.val = false := by
      have hne : u.reg LNK_LOCKED = t.reg LNK_LOCKED := by
        simp only [u]
        exact reg_ite_count (lnkLocked_apart l)
      rw [hne, hreg (lnkLocked_apart l)]
      exact hloop hone
    rw [if_neg (by rw [hget (by simp)]; simp [hone]), if_neg (by simp [hlocked]), hu]
    simp only [hone, true_and]
  · rw [if_pos (by rw [hget (by simp)]; exact hone), if_neg fun h => hone h.1]
    rfl

theorem inject_spec {l : Lane} {w : Nat} {d : Dev} (hlc : d.get DEV_LC_IN_FORCE ≠ 2)
    (hfree : d.on (LANE_PRBS_STAT_INJ_PEND l) = false) (hkind : bits w 1 0 ≠ 0) (hen : d.on (LANE_CTRL_EN l) = true)
    (hloop : d.get (LANE_CTRL_LOOP l) = 1 → bit (d.reg LNK_LOCKED) l.val = false) :
    let t := inject l w d
    t.on (LANE_PRBS_STAT_INJ_PEND l) = true ∧
      t.lanes = (vmod d.lanes l fun (x : LaneUnit) =>
        { x with injLeft := max 1 (bits w 23 16), injKind := bits w 1 0, injLen := bits w 13 8 + 1 }) ∧
      (d.get (LANE_CTRL_LOOP l) = 1 → d.on (LANE_PRBS_STAT_CHK_LOCK l) = true →
        t.reg (LANE_PRBS_ERR l) = min (d.reg (LANE_PRBS_ERR l) + d.selfInjected l w) 0xFFFFFFFF) ∧
      Dev.touches .plain [.lanes] [LANE_PRBS_STAT l, LANE_PRBS_ERR l] d t := by
  rw [inject_arms hlc hfree hkind hen hloop]
  have harmed : Dev.touches .plain [.lanes] [LANE_PRBS_STAT l, LANE_PRBS_ERR l] d (injArmed l w d) :=
    (Dev.touches.put d _ 1 (by simp) (laneReg_silent l)).trans (laneMod_touches (by simp) l _ _)
  have hpend : (injArmed l w d).on (LANE_PRBS_STAT_INJ_PEND l) = true := by
    rw [injArmed, laneMod_on]
    exact on_put_one _ _ rfl (by simp)
  have hlanes : (injArmed l w d).lanes = (vmod d.lanes l fun (x : LaneUnit) =>
      { x with injLeft := max 1 (bits w 23 16), injKind := bits w 1 0, injLen := bits w 13 8 + 1 }) := by
    rw [injArmed, laneMod_lanes, put_lanes]
  intro t
  refine ⟨?_, ?_, fun hone hlock => ?_, .ite _ (harmed.trans (.count _ _ _ (by simp) (laneReg_silent l))) harmed⟩
  · simp only [t]
    split
    · exact (on_congr (reg_count_ne _ _ (by simp))).trans hpend
    · exact hpend
  · simp only [t]
    split
    · rw [Dev.count, setReg_lanes, hlanes]
    · exact hlanes
  · simp only [t]
    rw [if_pos ⟨hone, hlock⟩, reg_count_same, injArmed, laneMod_reg, reg_put_ne _ _ _ (by simp)]

/-! ### The statement -/

theorem exec_scanStartCmd (l : Lane) (s : State) : exec (.scanStartCmd l) s = actIn domFab (scanStart l) s := rfl

theorem exec_scanStopCmd (l : Lane) (n errors : Nat) (s : State) :
    exec (.scanStopCmd l n errors) s = actIn domFab (scanStop l n errors) s := rfl

theorem exec_scanDone (l : Lane) (errors : Nat) (s : State) :
    exec (.scanDone l errors) s = actIn domFab (scanDone l errors) s := rfl

theorem exec_prbsLock (l : Lane) (s : State) : exec (.prbsLock l) s = actIn domFab (prbsLock l) s := rfl

theorem exec_prbsLoss (l : Lane) (mism : Nat) (s : State) :
    exec (.prbsLoss l mism) s = actIn domFab (prbsLoss l mism) s := rfl

theorem exec_errorInject (l : Lane) (w : Word) (s : State) :
    exec (.errorInject l w) s = actIn domFab (inject l w.toNat) s := rfl

/-- Settles O26: each operation of the lane tests by its own lemma. -/
theorem laneTests : Obligations.LaneTests := by
  intro l w cnt errors mism s hrun hcalm
  refine ⟨fun hidle => ?_, fun hbusy => ⟨?_, ?_⟩, fun hchk hen hcoded => ?_, fun hlock hm => ?_,
    fun hlc hfree hkind hen hloop => ?_⟩
  · obtain ⟨hstat, herr, hlo, hhi, hlanes, htouch⟩ := scanStart_idle hidle
    exact ⟨_, actIn_touches hrun hcalm htouch, hstat, herr, hlo, hhi, hlanes, htouch.regsOnly⟩
  · obtain ⟨hoff, hlo, hhi, herr, htouch⟩ := scanEnd_spec l (min cnt (s.dev.dwellBits l)) errors s.dev
    rw [← scanStop_busy hbusy] at hoff hlo hhi herr htouch
    exact ⟨_, actIn_touches hrun hcalm htouch, hoff, hlo, hhi, herr, htouch.regsOnly⟩
  · obtain ⟨hoff, hdone, hflag, hlo, hhi, herr, htouch⟩ := scanDone_spec hbusy errors
    exact ⟨_, actIn_touches hrun hcalm htouch, hoff, hdone, hflag, hlo, hhi, herr,
      (htouch.mono (Q := []) (M := [_, _, _, _, _]) (by simp) (by simp [scanRegs])).withEvent⟩
  · exact actIn_of_eq hrun (prbsLock_locks hchk hen hcoded) hcalm.1
  · obtain ⟨hoff, hflag, herr, hlanes, htouch⟩ := prbsLoss_spec hlock hm
    exact ⟨_, actIn_touches hrun hcalm htouch, hoff, hflag, herr, hlanes, htouch.withEvent⟩
  · obtain ⟨hpend, hlanes, hself, htouch⟩ := inject_spec hlc hfree hkind hen hloop
    exact ⟨_, actIn_touches hrun hcalm htouch, hpend, hlanes, hself, htouch.regsOnly⟩

/-!
REFUTATION of the frames that arrive on a chain port: a management frame for a receive bobbin that is full and drops new
records detects BOBBIN_OVF (R408), and Doff counts the faults of the code it watches. The statement lists the parts that
such a frame may change, and the Doff unit is none of them.
-/

/-- A management frame of the host for address 1 with an empty payload, padded. -/
def hostRequestBytes : List Byte := [1, 1, 1] ++ List.replicate 43 0

/-- FAB runs; the upstream port is enabled and in block lock; the device has address 1; the port's receive bobbin is
enabled, holds two words of two, and drops new records; Doff watches code 0x14. -/
def watchedOverflow : Dev :=
  { Dev.reset with
    regs := [(CLK_LIVE, 2), (CRLB_CFG 64, 0x11), (CRLB_SIZE 64, 2), (CRLB_WR 64, 2), (LNK_LOCKED, 0x10000), (NET_CTRL, 1),
      (NET_STATUS, 0x21), (DOF_CTRL, 8), (DOF_TRIG_CODE, 0x14)]
    start := { Dev.reset.start with porstLow := false } }

theorem watchedOverflow_calm : watchedOverflow.calm := by
  have hcfg : ∀ e : Fin 256, watchedOverflow.get (EVT_CFG_REACT e) = 0 := by decide +kernel
  exact ⟨rfl, fun e he => hcfg ⟨e, he⟩⟩

/-- The frame enters the queue of the port, but not its bobbin: the overflow is detected, and Doff matches it. -/
theorem deviceFrame_watchedOverflow :
    (settle (deviceFrame 0 0 hostRequestBytes true watchedOverflow)).dof.matched = 1 := by
  decide +kernel

/-- Refutes O27: where the receive bobbin of the port drops the frame and Doff watches BOBBIN_OVF, the frame changes the
Doff unit, and the first clause says that only the parts it lists change. -/
theorem not_chainFramesIn : ¬ Obligations.ChainFramesIn := by
  unfold Obligations.ChainFramesIn
  intro h
  have hrun : watchedOverflow.runs domFab = true := by decide +kernel
  obtain ⟨hdevice, -, -⟩ := h 0 0 hostRequestBytes ⟨watchedOverflow, Otp.blank, []⟩ hrun watchedOverflow_calm
  obtain ⟨d, hexec, -, -, -, -, -, hparts⟩ := hdevice (by decide +kernel) (by decide +kernel) (by decide +kernel)
    (by decide +kernel) (by decide +kernel) (by decide +kernel) (by decide +kernel) (by decide +kernel) (by decide +kernel)
    (by decide +kernel) (by decide +kernel) (by decide +kernel)
  have hframe : (if watchedOverflow.runs domFab then settle (deviceFrame 0 0 hostRequestBytes true watchedOverflow)
      else watchedOverflow) = d := congrArg State.dev (Host.Outcome.next.inj hexec)
  rw [if_pos hrun] at hframe
  have hkept : d.dof = watchedOverflow.dof := hparts .dof (by decide)
  have hmatched := deviceFrame_watchedOverflow
  rw [hframe, hkept] at hmatched
  exact absurd hmatched (by decide)

/-!
REFUTATION of the control of the chain: the device that reverses loses the frame that its upstream port sends (R489), and
a lost frame that ends the reading out of the archive of a station 16, which is none, clears a bit of an axis (`strayFrame`).
-/

/-- FAB runs on a ring whose upstream port is down while it sends `strayFrame`; axis 0 is homed. -/
def strayBreak : Dev :=
  { Dev.reset with
    regs := [(CLK_LIVE, 2), (NET_CTRL, 8), (AXS_STATUS 0, 8)]
    start := { Dev.reset.start with porstLow := false }
    chain := { Dev.reset.chain with
      ports := vmod Dev.reset.chain.ports (0 : Port) fun x => { x with sending := some strayFrame } } }

theorem strayBreak_calm : strayBreak.calm := by
  have hcfg : ∀ e : Fin 256, strayBreak.get (EVT_CFG_REACT e) = 0 := by decide +kernel
  exact ⟨rfl, fun e he => hcfg ⟨e, he⟩⟩

/-- With the frame lost axis 0 loses HOMED. -/
theorem ringBreak_strayBreak : (settle (ringBreak false strayBreak)).on (AXS_STATUS_HOMED 0) = false := by
  decide +kernel

/-- The outcome of a command names the device it leaves. -/
theorem dev_of_next {s : State} {d t : Dev} (h : (.next { s with dev := d } : Done) = .next { s with dev := t }) : d = t :=
  congrArg State.dev (Host.Outcome.next.inj h)

theorem exec_ringBreak (received : Bool) (s : State) :
    exec (.ringBreak received) s = .next { s with
      dev := if s.dev.runs domFab then settle (ringBreak received s.dev) else s.dev } := rfl

/-- Refutes O28: where the upstream port sends the last record of the archive of a station 16, the break of the ring
changes a register of the axes, and the seventh clause says that only the blocks it lists change. -/
theorem not_chainControl : ¬ Obligations.ChainControl := by
  unfold Obligations.ChainControl
  intro h
  have hrun : strayBreak.runs domFab = true := by decide +kernel
  have hring : strayBreak.on NET_CTRL_RING_EN = true := by decide +kernel
  have hahead : strayBreak.on NET_STATUS_REVERSED = false := by decide +kernel
  have hlost : (strayBreak.portUp 0 && !strayBreak.isRetired 16) = false := by decide +kernel
  have hhomed : strayBreak.on (AXS_STATUS_HOMED 0) = true := by decide +kernel
  obtain ⟨-, -, -, -, -, -, hbreak, -⟩ := h 0 0 0 strayFrame 0 ⟨strayBreak, Otp.blank, []⟩ hrun strayBreak_calm
  obtain ⟨d, hexec, -, -, -, -, -, -, hregs, -⟩ := hbreak hring hahead hlost
  rw [exec_ringBreak, if_pos hrun] at hexec
  have hbroken : settle (ringBreak false strayBreak) = d := dev_of_next hexec
  have hkept : d.reg (AXS_STATUS 0) = strayBreak.reg (AXS_STATUS 0) := hregs (AXS_STATUS 0) (by decide)
  have hstill : d.on (AXS_STATUS_HOMED 0) = true := (on_congr hkept).trans hhomed
  rw [← hbroken, ringBreak_strayBreak] at hstill
  exact absurd hstill (by decide)

/-!
PROOFS about the PTP messages that pass through the device (R494).
-/

/-! ### Ports -/

theorem portMod_touches (hP : Part.chain ∈ P) (p : Port) (f : ChainPort → ChainPort) (d : Dev) :
    Dev.touches m P L d (d.portMod p f) := .ofWithin (portMod_within p f d) (by simpa using hP)

theorem cport_portMod_ne {p q : Port} (h : q ≠ p) (f : ChainPort → ChainPort) (d : Dev) :
    (d.portMod p f).cport q = d.cport q := vat_vmod_ne _ _ h

theorem other_ne (p : Port) : other p ≠ p := by
  revert p
  decide

@[simp] theorem portMod_reg (p : Port) (f : ChainPort → ChainPort) (d : Dev) (a : Nat) : (d.portMod p f).reg a = d.reg a := by
  simp only [Dev.portMod, reg_mk]

@[simp] theorem setReg_cport (d : Dev) (a v : Nat) (q : Port) : (d.setReg a v).cport q = d.cport q :=
  cport_of_chain (setReg_chain d a v) q

@[simp] theorem count_cport (d : Dev) (a k : Nat) (q : Port) : (d.count a k).cport q = d.cport q := setReg_cport d _ _ q

theorem portReg_block (p : Port) {o : Nat} (h : 0x60000 ≤ o := by decide) (h' : o < 0x6F000 := by decide) :
    (o + p.val * 0x100) / 0x10000 = 6 := by omega

theorem portReg_silent (p : Port) {o : Nat} (h : 0x60000 ≤ o := by decide) (h' : o < 0x6F000 := by decide) :
    silentReg (o + p.val * 0x100) = true := silentReg_of_block (portReg_block p h h')

/-! ### A message that passes -/

/-- The device once a message has arrived on `p`, with the residence times of late kept. -/
def ptpArrived (p : Port) (d : Dev) : Dev :=
  (d.count (NETP_RX_FRAMES p) 1).portMod p fun x =>
    { x with held := x.held.filter fun (e : Nat × Nat × Int × Nat) => d.grid.ticks < e.2.2.2 + 2000000 }

/-- A frame waits at the port opposite `p`. -/
def ptpLeaves (p : Port) (f : Frame) (d : Dev) : Dev := d.portMod (other p) fun x => { x with ptpQ := x.ptpQ ++ [f] }

/-- The greatest residence time of port `p`, with `res` counted. -/
def ptpLargest (p : Port) (res : Int) (d : Dev) : Dev :=
  d.setReg (NETP_RES_MAX p) (max (d.reg (NETP_RES_MAX p)) (satU 32 (asr res 16)))

theorem ptpArrived_reg {p : Port} {a : Nat} (h : a ≠ NETP_RX_FRAMES p) (d : Dev) : (ptpArrived p d).reg a = d.reg a := by
  rw [ptpArrived, portMod_reg, reg_count_ne _ _ h]

theorem ptpArrived_rx (p : Port) (d : Dev) :
    (ptpArrived p d).reg (NETP_RX_FRAMES p) = min (d.reg (NETP_RX_FRAMES p) + 1) 0xFFFFFFFF := by
  rw [ptpArrived, portMod_reg, reg_count_same]

theorem ptpArrived_held (p : Port) (d : Dev) : ((ptpArrived p d).cport p).held =
    (d.cport p).held.filter fun (e : Nat × Nat × Int × Nat) => d.grid.ticks < e.2.2.2 + 2000000 := by
  rw [ptpArrived, cport_portMod_same, count_cport]

theorem ptpArrived_other (p : Port) (d : Dev) : (ptpArrived p d).cport (other p) = d.cport (other p) := by
  rw [ptpArrived, cport_portMod_ne (other_ne p), count_cport]

theorem ptpArrived_touches (hP : Part.chain ∈ P) {p : Port} (hL : NETP_RX_FRAMES p ∈ L) (d : Dev) :
    Dev.touches m P L d (ptpArrived p d) :=
  (Dev.touches.count d _ 1 hL (portReg_silent p)).trans (portMod_touches hP p _ _)

theorem ptpLeaves_queue (p : Port) (f : Frame) (d : Dev) :
    ((ptpLeaves p f d).cport (other p)).ptpQ = (d.cport (other p)).ptpQ ++ [f] := by
  rw [ptpLeaves, cport_portMod_same]

theorem ptpLeaves_cport (p : Port) (f : Frame) (d : Dev) : (ptpLeaves p f d).cport p = d.cport p :=
  cport_portMod_ne (Ne.symm (other_ne p)) _ _

@[simp] theorem ptpLeaves_reg (p : Port) (f : Frame) (d : Dev) (a : Nat) : (ptpLeaves p f d).reg a = d.reg a :=
  portMod_reg _ _ d a

theorem ptpLargest_touches {p : Port} (hL : NETP_RES_MAX p ∈ L) (res : Int) (d : Dev) :
    Dev.touches m P L d (ptpLargest p res d) := .setReg d _ _ hL (portReg_silent p)

theorem satU_lt (x : Int) : satU 32 x < 2 ^ 32 := by
  simp only [satU, clampI]
  omega

theorem ptpLargest_reg (p : Port) (res : Int) (d : Dev) :
    (ptpLargest p res d).reg (NETP_RES_MAX p) = max (d.reg (NETP_RES_MAX p)) (satU 32 (asr res 16)) := by
  have hold := reg_lt d (NETP_RES_MAX p)
  have hnew := satU_lt (asr res 16)
  rw [ptpLargest, reg_setReg_same]
  omega

section
variable {p : Port} {d : Dev} (hp : d.portCarries p = true) (hq : d.portCarries (other p) = true)
  (hbusy : (d.cport (other p)).sending.isSome = true) {domain source seqNo : Nat} {rawIn rawOut corr res : Int}
  (hres : res = rawOut + d.regS (NETP_EGR_LAT (other p)) - (rawIn - d.regS (NETP_ING_LAT p)))
include hp hq hbusy

omit hp hq in
/-- The other port is busy when the message waits there. -/
theorem portKick_ptpLeaves {f : Frame} {t : Dev} (h : t.cport (other p) = d.cport (other p)) :
    portKick (other p) (ptpLeaves p f t) = ptpLeaves p f t := by
  refine portKick_busy ?_
  rw [ptpLeaves, cport_portMod_same, h]
  exact hbusy

include hres in
/-- A message whose residence time is counted at once leaves with it. -/
theorem ptpTransit_corrected {kind : PtpKind} (h : kind = .sync ∨ kind = .delayReq) :
    ptpTransit p kind domain source seqNo rawIn rawOut corr d =
      ptpLeaves p (ptpFrame kind domain source seqNo (corr + res))
        ((ptpLargest p res (ptpArrived p d)).count (NETP_PTP_CORR p) 1) := by
  have hkick := portKick_ptpLeaves hbusy (f := ptpFrame kind domain source seqNo (corr + res))
    (t := (ptpLargest p res (ptpArrived p d)).count (NETP_PTP_CORR p) 1)
    (by rw [count_cport, ptpLargest, setReg_cport, ptpArrived_other])
  unfold ptpTransit
  rw [if_neg (by simp [hp, hq]), ← hres]
  rcases h with rfl | rfl <;> exact hkick

theorem ptpTransit_other :
    ptpTransit p .other domain source seqNo rawIn rawOut corr d =
      ptpLeaves p (ptpFrame .other domain source seqNo corr) (ptpArrived p d) := by
  unfold ptpTransit
  rw [if_neg (by simp [hp, hq])]
  exact portKick_ptpLeaves hbusy (ptpArrived_other p d)

include hres in
/-- The residence time of a two-step Sync is held. -/
theorem ptpTransit_twoStep (hheld : (d.cport p).held = []) :
    ptpTransit p .syncTwoStep domain source seqNo rawIn rawOut corr d =
      ptpLeaves p (ptpFrame .syncTwoStep domain source seqNo corr) ((ptpLargest p res (ptpArrived p d)).portMod p fun x =>
        { x with held := x.held ++ [(source, seqNo, res, d.grid.ticks)] }) := by
  have hkick := portKick_ptpLeaves hbusy (f := ptpFrame .syncTwoStep domain source seqNo corr)
    (t := (ptpLargest p res (ptpArrived p d)).portMod p fun x =>
      { x with held := x.held ++ [(source, seqNo, res, d.grid.ticks)] })
    (by rw [cport_portMod_ne (other_ne p), ptpLargest, setReg_cport, ptpArrived_other])
  have hempty : ((ptpLargest p res (ptpArrived p d)).cport p).held = [] := by
    rw [ptpLargest, setReg_cport, ptpArrived_held, hheld]
    rfl
  have hroom : ¬16 ≤ ((ptpLargest p res (ptpArrived p d)).cport p).held.length := by
    rw [hempty]
    decide
  unfold ptpTransit
  rw [if_neg (by simp [hp, hq]), ← hres]
  extract_lets q u now v send largest corrected w
  change send corr (if 16 ≤ ((ptpLargest p res (ptpArrived p d)).cport p).held.length then _ else _) = _
  rw [if_neg hroom]
  exact hkick

/-- The residence time held leaves with its Follow_Up. -/
theorem ptpTransit_followUp {held : Int} (hheld : (d.cport p).held = [(source, seqNo, held, d.grid.ticks)]) :
    ptpTransit p .followUp domain source seqNo rawIn rawOut corr d =
      ptpLeaves p (ptpFrame .followUp domain source seqNo (corr + held)) (((ptpArrived p d).portMod p fun x =>
        { x with held := x.held.filter fun y => !(y.1 == source && y.2.1 == seqNo) }).count (NETP_PTP_CORR p) 1) := by
  have hkick := portKick_ptpLeaves hbusy (f := ptpFrame .followUp domain source seqNo (corr + held))
    (t := ((ptpArrived p d).portMod p fun x =>
        { x with held := x.held.filter fun y => !(y.1 == source && y.2.1 == seqNo) }).count (NETP_PTP_CORR p) 1)
    (by rw [count_cport, cport_portMod_ne (other_ne p), ptpArrived_other])
  have hfound : ((ptpArrived p d).cport p).held.find? (fun (e : Nat × Nat × Int × Nat) => e.1 == source && e.2.1 == seqNo) =
      some (source, seqNo, held, d.grid.ticks) := by
    rw [ptpArrived_held, hheld]
    simp
  unfold ptpTransit
  rw [if_neg (by simp [hp, hq])]
  extract_lets q res' u now v send largest corrected
  change (match ((ptpArrived p d).cport p).held.find? _ with | none => _ | some e => _) = _
  rw [hfound]
  exact hkick

end

/-! ### The statement -/

theorem exec_ptpTransit (p : Port) (kind : PtpKind) (domain : Fin 256) (source seqNo : Nat) (rawIn rawOut corr : Int)
    (s : State) : exec (.ptpTransit p kind domain source seqNo rawIn rawOut corr) s =
      actIn domFab (ptpTransit p kind domain.val (source % 2 ^ 80) (seqNo % 65536) rawIn rawOut corr) s := rfl

/-- Settles O29: each kind of message by its own lemma. -/
theorem transparentClock : Obligations.TransparentClock := by
  intro p kind domain source seqNo rawIn rawOut corr res s hrun hcalm hp hq hbusy hres
  refine ⟨fun hkind => ?_, fun hkind hheld => ?_, fun hkind hheld => ?_, fun hkind => ?_⟩
  · have h := ptpTransit_corrected hp hq hbusy hres (domain := domain.val) (source := source % 2 ^ 80)
      (seqNo := seqNo % 65536) (corr := corr) hkind
    have htouch : Dev.touches .plain [.chain] [NETP_RES_MAX p, NETP_PTP_CORR p, NETP_RX_FRAMES p] s.dev
        (ptpTransit p kind domain.val (source % 2 ^ 80) (seqNo % 65536) rawIn rawOut corr s.dev) := by
      rw [h]
      refine (((ptpArrived_touches (p := p) (by simp) (by simp) s.dev).trans (ptpLargest_touches (p := p) (by simp) res _)).trans ?_).trans
        (portMod_touches (by simp) _ _ _)
      exact .count _ _ 1 (by simp) (portReg_silent p)
    refine ⟨_, actIn_touches hrun hcalm htouch, ?_, ?_, ?_, ?_, htouch.regsOnly⟩
    · rw [h, ptpLeaves_queue, count_cport, ptpLargest, setReg_cport, ptpArrived_other]
    · rw [h, ptpLeaves_reg, reg_count_ne _ _ (by simp), ptpLargest_reg, ptpArrived_reg (by simp)]
    · rw [h, ptpLeaves_reg, reg_count_same, ptpLargest, reg_setReg_ne _ _ (by simp), ptpArrived_reg (by simp)]
    · rw [h, ptpLeaves_reg, reg_count_ne _ _ (by simp), ptpLargest, reg_setReg_ne _ _ (by simp), ptpArrived_rx]
  · subst hkind
    have h := ptpTransit_twoStep hp hq hbusy hres (domain := domain.val) (source := source % 2 ^ 80)
      (seqNo := seqNo % 65536) (corr := corr) hheld
    have htouch : Dev.touches .plain [.chain] [NETP_RES_MAX p, NETP_RX_FRAMES p] s.dev
        (ptpTransit p .syncTwoStep domain.val (source % 2 ^ 80) (seqNo % 65536) rawIn rawOut corr s.dev) := by
      rw [h]
      exact (((ptpArrived_touches (p := p) (by simp) (by simp) s.dev).trans (ptpLargest_touches (p := p) (by simp) res _)).trans
        (portMod_touches (by simp) _ _ _)).trans (portMod_touches (by simp) _ _ _)
    refine ⟨_, actIn_touches hrun hcalm htouch, ?_, ?_, htouch.regsOnly⟩
    · rw [h, ptpLeaves_queue, cport_portMod_ne (other_ne p), ptpLargest, setReg_cport, ptpArrived_other]
    · rw [h, ptpLeaves_cport, cport_portMod_same, ptpLargest, setReg_cport]
      change ((ptpArrived p s.dev).cport p).held ++ _ = _
      rw [ptpArrived_held, hheld]
      rfl
  · subst hkind
    have h := ptpTransit_followUp hp hq hbusy (domain := domain.val) (corr := corr) (rawIn := rawIn) (rawOut := rawOut) hheld
    have htouch : Dev.touches .plain [.chain] [NETP_PTP_CORR p, NETP_RX_FRAMES p] s.dev
        (ptpTransit p .followUp domain.val (source % 2 ^ 80) (seqNo % 65536) rawIn rawOut corr s.dev) := by
      rw [h]
      refine Dev.touches.trans (Dev.touches.trans ?_ (.count _ _ 1 (by simp) (portReg_silent p)))
        (portMod_touches (by simp) _ _ _)
      exact (ptpArrived_touches (by simp) (by simp) s.dev).trans (portMod_touches (by simp) _ _ _)
    refine ⟨_, actIn_touches hrun hcalm htouch, ?_, ?_, ?_, htouch.regsOnly⟩
    · rw [h, ptpLeaves_queue, count_cport, cport_portMod_ne (other_ne p), ptpArrived_other]
    · rw [h, ptpLeaves_cport, count_cport, cport_portMod_same]
      change ((ptpArrived p s.dev).cport p).held.filter _ = _
      rw [ptpArrived_held, hheld]
      simp
    · rw [h, ptpLeaves_reg, reg_count_same, portMod_reg, ptpArrived_reg (by simp)]
  · subst hkind
    have h := ptpTransit_other hp hq hbusy (domain := domain.val) (source := source % 2 ^ 80)
      (seqNo := seqNo % 65536) (corr := corr) (rawIn := rawIn) (rawOut := rawOut)
    have htouch : Dev.touches .plain [.chain] [NETP_RX_FRAMES p] s.dev
        (ptpTransit p .other domain.val (source % 2 ^ 80) (seqNo % 65536) rawIn rawOut corr s.dev) := by
      rw [h]
      exact (ptpArrived_touches (p := p) (by simp) (by simp) s.dev).trans (portMod_touches (by simp) _ _ _)
    refine ⟨_, actIn_touches hrun hcalm htouch, ?_, htouch.regsOnly⟩
    rw [h, ptpLeaves_queue, ptpArrived_other]

/-!
PROOFS about timed launches (R501, R502) and PPS (R503, R504).
-/

/-! ### Launches -/

theorem vput_vat {α : Type} {n : Nat} (v : Vector α n) (i : Fin n) : vput v i (vat v i) = v := by
  simp [vput, vat]

@[simp] theorem portMod_on (p : Port) (f : ChainPort → ChainPort) (d : Dev) (g : Field) : (d.portMod p f).on g = d.on g :=
  on_congr (portMod_reg p f d g.addr)

theorem launchShow_touches {p : Port} (hL : NETP_TL_STAT p ∈ L) (d : Dev) : Dev.touches m P L d (launchShow p d) :=
  .setReg d _ _ hL (portReg_silent p)

@[simp] theorem launchShow_cport (p q : Port) (d : Dev) : (launchShow p d).cport q = d.cport q := setReg_cport d _ _ q

theorem launchShow_reg (p : Port) (d : Dev) :
    (launchShow p d).reg (NETP_TL_STAT p) = (d.cport p).launches.length % 2 ^ 32 := reg_setReg_same d _ _

theorem drop_length_takeWhile {α : Type} (q : α → Bool) (l : List α) : l.drop (l.takeWhile q).length = l.dropWhile q := by
  induction l with
  | nil => rfl
  | cons x l ih =>
    cases h : q x with
    | true => simp [h, ih]
    | false => simp [h]

/-- The launch that QUEUE asks for. -/
def Dev.timedAsked (d : Dev) (p : Port) (w : Nat) : Timed :=
  ⟨bits w 5 4, d.reg (NETP_TL_SEC p), d.reg (NETP_TL_NS p) % 2 ^ 30, d.reg (NETP_TL_ADDR p) % 2 ^ 25,
    d.reg (NETP_TL_LEN p) % 2 ^ 14, bit w 8⟩

/-- The launches with `e` among them, in order of time. -/
def Dev.launchesWith (d : Dev) (e : Timed) (tau : Nat) (l : List Timed) : List Timed :=
  l.takeWhile (fun t => decide (d.launchIn t tau ≤ d.launchIn e tau)) ++
    e :: l.dropWhile (fun t => decide (d.launchIn t tau ≤ d.launchIn e tau))

theorem tlQueue_inTime {p : Port} {w tau : Nat} {d : Dev} (hroom : (d.cport p).launches.length < 32)
    (htime : 0 ≤ d.launchIn (d.timedAsked p w) tau) :
    tlQueue p w tau d = launchShow p (d.portMod p fun y =>
      { y with launches := d.launchesWith (d.timedAsked p w) tau (d.cport p).launches }) := by
  unfold tlQueue
  rw [if_neg (by omega)]
  extract_lets e left u before after
  rw [if_neg (show ¬left < 0 from Int.not_lt.2 htime), Dev.launchesWith, ← drop_length_takeWhile]
  rfl

theorem launchesWith_length (d : Dev) (e : Timed) (tau : Nat) (l : List Timed) :
    (d.launchesWith e tau l).length = l.length + 1 := by
  have h := congrArg List.length (List.takeWhile_append_dropWhile (p := fun t => decide (d.launchIn t tau ≤ d.launchIn e tau)) (l := l))
  rw [List.length_append] at h
  rw [Dev.launchesWith, List.length_append, List.length_cons]
  omega

/-- With no launch that waits a port at most takes a frame that does. -/
theorem portKickN_unlaunched {p : Port} {d : Dev} (h : (d.cport p).launches = []) (n : Nat) :
    portKickN p n d = d ∨ ∃ f y, (d.cport p).next (d.on (portStandby p)) (d.on (NETP_STATUS_PAUSED p)) (fun _ => true) =
      some (f, y) ∧ portKickN p n d = d.portMod p fun _ => { y with sending := some f } := by
  cases n with
  | zero => exact .inl rfl
  | succ n =>
    unfold portKickN
    extract_lets x standby pick
    have hnone : (if standby then [] else x.launches) = [] := by
      split
      · rfl
      · exact h
    rw [hnone]
    split
    · exact .inl rfl
    · cases hnext : (d.cport p).next (d.on (portStandby p)) (d.on (NETP_STATUS_PAUSED p)) (fun _ => true) with
      | none => exact .inl (by simp only [pick, x, standby, hnext])
      | some fy => exact .inr ⟨fy.1, fy.2, rfl, by simp only [pick, x, standby, hnext]⟩

/-- A frame taken leaves the launches as they are. -/
def ChainPort.keepsLaunches (x : ChainPort) (o : Option (Frame × ChainPort)) : Prop := ∀ fy ∈ o, fy.2.launches = x.launches

theorem ChainPort.keepsLaunches_none (x : ChainPort) : x.keepsLaunches none := fun _ h => absurd h (by simp)

theorem ChainPort.keepsLaunches_some {x y : ChainPort} (f : Frame) (h : y.launches = x.launches) :
    x.keepsLaunches (some (f, y)) := fun _ hy => (Option.mem_some.1 hy) ▸ h

theorem ChainPort.keepsLaunches_ite {x : ChainPort} {c : Prop} [Decidable c] {o q : Option (Frame × ChainPort)}
    (h : x.keepsLaunches o) (k : x.keepsLaunches q) : x.keepsLaunches (if c then o else q) := by
  split
  · exact h
  · exact k

theorem ChainPort.keepsLaunches_or {x : ChainPort} {o q : Option (Frame × ChainPort)}
    (h : x.keepsLaunches o) (k : x.keepsLaunches q) : x.keepsLaunches (o.or q) := by
  cases o with
  | none => exact k
  | some fy => exact h

theorem ChainPort.next_launches (x : ChainPort) (standby paused : Bool) (fits : Frame → Bool) :
    x.keepsLaunches (x.next standby paused fits) := by
  have hnone := x.keepsLaunches_none
  have htake {y : ChainPort} (f : Frame) (h : y.launches = x.launches) := x.keepsLaunches_some f h
  unfold ChainPort.next
  extract_lets own fwd
  have hown : x.keepsLaunches own := by
    simp only [own]
    split
    · exact ChainPort.keepsLaunches_ite (htake _ rfl) hnone
    · exact hnone
  have hfwd : x.keepsLaunches fwd := by
    simp only [fwd]
    split
    · exact ChainPort.keepsLaunches_ite (htake _ rfl) hnone
    · exact hnone
  refine ChainPort.keepsLaunches_ite ?_ ?_
  · split
    · exact ChainPort.keepsLaunches_ite (htake _ rfl) hnone
    · exact hnone
  · split
    · exact ChainPort.keepsLaunches_ite (htake _ rfl) hnone
    · exact ChainPort.keepsLaunches_ite (htake _ rfl) hnone
    · refine ChainPort.keepsLaunches_ite hnone (ChainPort.keepsLaunches_ite ?_ ?_)
      · exact ChainPort.keepsLaunches_or hown hfwd
      · exact ChainPort.keepsLaunches_or hfwd hown

/-- With no launch that waits a port that takes a frame changes its queues and nothing else. -/
theorem portKick_unlaunched {p : Port} {d : Dev} (h : (d.cport p).launches = []) :
    ∃ y : ChainPort, y.launches = [] ∧ portKick p d = d.portMod p fun _ => y := by
  rcases portKickN_unlaunched h 33 with hsame | ⟨f, y, hnext, hkick⟩
  · refine ⟨d.cport p, h, ?_⟩
    rw [portKick, hsame, Dev.portMod, vmod, Dev.cport, vput_vat]
  · exact ⟨{ y with sending := some f }, ((d.cport p).next_launches _ _ _ (f, y) hnext).trans h, hkick⟩

theorem tlFlush_spec (p : Port) (d : Dev) :
    let t := tlFlush p d
    (t.cport p).launches = [] ∧ t.reg (NETP_TL_STAT p) = 0 ∧ (∀ q : Port, q ≠ p → t.cport q = d.cport q) ∧
      Dev.touches .plain [.chain] [NETP_TL_STAT p] d t := by
  intro t
  have hempty : ((launchShow p (d.portMod p fun y => { y with launches := [] })).cport p).launches = [] := by
    rw [launchShow_cport, cport_portMod_same]
  obtain ⟨y, hy, hkick⟩ := portKick_unlaunched hempty
  have ht : t = (launchShow p (d.portMod p fun y => { y with launches := [] })).portMod p fun _ => y := hkick
  refine ⟨?_, ?_, fun q hq => ?_, ?_⟩
  · rw [ht, cport_portMod_same, hy]
  · rw [ht, portMod_reg, launchShow_reg, cport_portMod_same]
    rfl
  · rw [ht, cport_portMod_ne hq, launchShow_cport, cport_portMod_ne hq]
  · rw [ht]
    exact ((portMod_touches (by simp) _ _ _).trans (launchShow_touches (by simp) _)).trans (portMod_touches (by simp) _ _ _)

theorem timedLaunch_due {p : Port} {e : Timed} {rest : List Timed} {tau : Nat} {d : Dev}
    (h : (d.cport p).launches = e :: rest) (hdue : d.launchIn e tau ≤ 0) (hidle : (d.cport p).sending = none)
    (hp : d.portCarries p = true) :
    timedLaunch p tau d = launchShow p (d.portMod p fun y => { y with launches := rest, sending := some (d.timedFrame e) }) := by
  unfold timedLaunch
  rw [h]
  dsimp only
  rw [if_neg (by simp [hidle, hp, hdue])]

/-! ### Bases -/

/-- What an occurrence brings, the detection of a fault brings too. -/
theorem Dev.touches.toFault {d t : Dev} (h : Dev.touches .event P L d t) : Dev.touches .fault P L d t where
  regs a ha hm := h.regs a ha (eventReg_of_faultReg hm)
  parts p hp hm := h.parts p hp fun hmem => hm (by
    simp only [Reach.parts, List.mem_cons, List.not_mem_nil, or_false] at hmem ⊢
    tauto)
  calm := h.calm
  pends := h.pends

theorem baseReg_block (b : Base) {o : Nat} (h : 0x60000 ≤ o := by decide) (h' : o < 0x6F000 := by decide) :
    (o + b.val * 0x100) / 0x10000 = 6 := by omega

theorem baseReg_silent (b : Base) {o : Nat} (h : 0x60000 ≤ o := by decide) (h' : o < 0x6F000 := by decide) :
    silentReg (o + b.val * 0x100) = true := silentReg_of_block (baseReg_block b h h')

theorem baseMod_touches (hP : Part.bases ∈ P) (b : Base) (f : TimeBase → TimeBase) (d : Dev) :
    Dev.touches m P L d (d.baseMod b f) := .ofWithin (baseMod_within b f d) (by simpa using hP)

theorem base_baseMod_same (b : Base) (f : TimeBase → TimeBase) (d : Dev) : (d.baseMod b f).base b = f (d.base b) :=
  vat_vmod_same _ _ _

theorem base_baseMod_ne {b k : Base} (h : k ≠ b) (f : TimeBase → TimeBase) (d : Dev) : (d.baseMod b f).base k = d.base k :=
  vat_vmod_ne _ _ h

theorem base_of_bases {d t : Dev} (h : t.bases = d.bases) (k : Base) : t.base k = d.base k := by simp only [Dev.base, h]

theorem Dev.touches.base {d t : Dev} (h : Dev.touches m [] [] d t) (hm : Part.bases ∉ m.parts) (k : Base) : t.base k = d.base k :=
  base_of_bases (h.parts .bases (by simp) hm) k

/-- A change of state of base `b`. -/
theorem setBase_spec (b : Base) {st : Nat} (hst : st < 4) (d : Dev) :
    let t := setBase b st d
    t.baseState b = st ∧ (t.base b).good = 0 ∧ (t.base b).used = (d.base b).used ∧
      (∀ k : Base, k ≠ b → t.base k = d.base k) ∧ Dev.touches .event [.bases] [NETT_STATE b] d t := by
  unfold setBase
  extract_lets was u v t
  have hocc : Dev.touches .event [] [] v t := .ite _ (.occur 89 0xFF 0 v) (.refl v)
  have hbase (k : Base) : t.base k = v.base k := hocc.base (by decide) k
  refine ⟨?_, ?_, ?_, fun k hk => ?_, ?_⟩
  · have hreg : t.reg (NETT_STATE b) = st := by
      rw [hocc.reg (by simp) (eventReg_of_block (baseReg_block b)), baseMod_reg, reg_setReg_same]
      omega
    simp only [Dev.baseState, hreg]
    omega
  · rw [hbase, base_baseMod_same]
  · rw [hbase, base_baseMod_same]
    change (u.base b).used = _
    rw [base_of_bases (setReg_bases d _ _)]
  · rw [hbase, base_baseMod_ne hk]
    exact base_of_bases (setReg_bases d _ _) k
  · exact ((Dev.touches.setReg d _ _ (by simp) (baseReg_silent b)).trans (baseMod_touches (by simp) b _ _)).trans
      (hocc.mono (by simp) (by simp))

/-- Sixteen offsets within LOCK_THR are wanted for a lock: one leaves the base in ACQUIRE (R496). -/
theorem servoState_spec (b : Base) (inside : Bool) (d : Dev) :
    let t := servoState b inside d
    (t.base b).used = (d.base b).used ∧ (d.baseState b = 1 → (d.base b).good = 0 → t.baseState b = 1) ∧
      (∀ k : Base, k ≠ b → t.base k = d.base k) ∧ Dev.touches .event [.bases] [NETT_STATE b] d t := by
  have hset (st : Nat) (hst : st < 4) := setBase_spec b hst d
  have hcount (f : TimeBase → TimeBase) (hf : ∀ x, (f x).used = x.used) :
      ((d.baseMod b f).base b).used = (d.base b).used ∧ (d.baseMod b f).baseState b = d.baseState b ∧
        (∀ k : Base, k ≠ b → (d.baseMod b f).base k = d.base k) ∧
        Dev.touches .event [.bases] [NETT_STATE b] d (d.baseMod b f) :=
    ⟨by rw [base_baseMod_same, hf], rfl, fun k hk => base_baseMod_ne hk f d, baseMod_touches (by simp) b f d⟩
  unfold servoState
  extract_lets x n1 n2 t
  by_cases hacq : d.baseState b = 1
  · by_cases hn : 16 ≤ n1
    · have ht : t = setBase b 2 d := by simp only [t, hacq, if_pos hn, if_true]
      obtain ⟨-, -, hused, hothers, htouch⟩ := hset 2 (by decide)
      rw [ht]
      refine ⟨hused, fun _ hgood => ?_, hothers, htouch⟩
      have : n1 ≤ 1 := by
        simp only [n1, x, hgood]
        split <;> omega
      omega
    · have ht : t = d.baseMod b fun y => { y with good := n1 } := by simp only [t, hacq, if_neg hn, if_true]
      obtain ⟨hused, hstate, hothers, htouch⟩ := hcount (fun y => { y with good := n1 }) fun _ => rfl
      rw [ht]
      exact ⟨hused, fun _ _ => hstate.trans hacq, hothers, htouch⟩
  · by_cases hlock : d.baseState b = 2
    · by_cases hn : 4 ≤ n2
      · have ht : t = setBase b 1 d := by simp [t, hlock, if_pos hn]
        obtain ⟨-, -, hused, hothers, htouch⟩ := hset 1 (by decide)
        rw [ht]
        exact ⟨hused, fun h => absurd h hacq, hothers, htouch⟩
      · have ht : t = d.baseMod b fun y => { y with bad := n2 } := by simp [t, hlock, if_neg hn]
        obtain ⟨hused, hstate, hothers, htouch⟩ := hcount (fun y => { y with bad := n2 }) fun _ => rfl
        rw [ht]
        exact ⟨hused, fun h => absurd h hacq, hothers, htouch⟩
    · have ht : t = d := by simp only [t, if_neg hacq, if_neg hlock]
      rw [ht]
      exact ⟨rfl, fun h => absurd h hacq, fun _ _ => rfl, .refl d⟩

theorem regS_setRegS (d : Dev) (a : Nat) {v : Int} (h : -2 ^ 31 ≤ v) (h' : v < 2 ^ 31) : (d.setRegS a v).regS a = v := by
  rw [Dev.setRegS, Dev.regS, reg_setReg_same]
  simp only [wrapN, sx]
  omega

theorem satS_range (x : Int) : -2 ^ 31 ≤ satS 32 x ∧ satS 32 x < 2 ^ 31 := by
  simp only [satS, clampI]
  omega

/-- The servo on a base that takes no automatic step. -/
theorem servo_slews {b : Base} {off : Int} {d : Dev} (hs : d.shadow = []) (hauto : d.on (NETT_CTRL_STEP_AUTO b) = false) :
    ∃ inside, servo b off d = servoState b inside (servoSlew b off
      ((d.setRegS (NETT_OFFSET b) (satS 32 (asr off 12))).baseMod b fun x => { x with used := true })) := by
  unfold servo
  rw [commit_nil hs]
  extract_lets u0 u v above wants refused w x
  have hwants : wants = false := by
    have h : v.on (NETT_CTRL_STEP_AUTO b) = d.on (NETT_CTRL_STEP_AUTO b) :=
      on_congr ((baseMod_reg b _ u _).trans (reg_setReg_ne d _ (by simp)))
    simp only [wants, h, hauto, Bool.and_false]
  have hw : w = v := by simp only [w, refused, hwants, Bool.false_and, Bool.false_eq_true, if_false]
  have hx : x = servoSlew b off v := by
    simp only [x, hwants, hw, Bool.false_and, Bool.false_eq_true, if_false]
  rw [hx]
  exact ⟨_, rfl⟩

theorem servoSlew_spec (b : Base) (off : Int) (d : Dev) :
    let t := servoSlew b off d
    (t.base b).used = (d.base b).used ∧ (t.base b).good = (d.base b).good ∧ (∀ k : Base, k ≠ b → t.base k = d.base k) ∧
      Dev.touches .plain [.bases] [NETT_RATE b] d t := by
  unfold servoSlew
  extract_lets integ rate t
  have hbase (k : Base) : t.base k = (d.baseMod b fun x => { x with integ := integ }).base k :=
    base_of_bases (setReg_bases _ _ _) k
  refine ⟨?_, ?_, fun k hk => ?_, ?_⟩
  · rw [hbase, base_baseMod_same]
  · rw [hbase, base_baseMod_same]
  · rw [hbase, base_baseMod_ne hk]
  · exact (baseMod_touches (by simp) b _ d).trans (.setRegS _ _ _ (by simp) (baseReg_silent b))

theorem servo_spec {b : Base} {off : Int} {d : Dev} (hs : d.shadow = []) (hauto : d.on (NETT_CTRL_STEP_AUTO b) = false) :
    let t := servo b off d
    t.regS (NETT_OFFSET b) = satS 32 (asr off 12) ∧ (t.base b).used = true ∧
      (d.baseState b = 1 → (d.base b).good = 0 → t.baseState b = 1) ∧ (∀ k : Base, k ≠ b → t.base k = d.base k) ∧
      Dev.touches .event [.bases] [NETT_OFFSET b, NETT_RATE b, NETT_STATE b] d t := by
  intro t
  obtain ⟨inside, ht⟩ := servo_slews (off := off) hs hauto
  have hshown : Dev.touches .plain [.bases] [NETT_OFFSET b] d
      ((d.setRegS (NETT_OFFSET b) (satS 32 (asr off 12))).baseMod b fun x => { x with used := true }) :=
    (Dev.touches.setRegS d _ _ (by simp) (baseReg_silent b)).trans (baseMod_touches (by simp) b _ _)
  have hoff : ((d.setRegS (NETT_OFFSET b) (satS 32 (asr off 12))).baseMod b fun x => { x with used := true }).regS
      (NETT_OFFSET b) = satS 32 (asr off 12) := by
    obtain ⟨hlo, hhi⟩ := satS_range (asr off 12)
    rw [Dev.regS, baseMod_reg, ← Dev.regS, regS_setRegS d _ hlo hhi]
  have hused := base_baseMod_same b (fun x => { x with used := true }) (d.setRegS (NETT_OFFSET b) (satS 32 (asr off 12)))
  have hkept (k : Base) (hk : k ≠ b) := base_baseMod_ne hk (fun x => { x with used := true })
    (d.setRegS (NETT_OFFSET b) (satS 32 (asr off 12)))
  have hbase (k : Base) : (d.setRegS (NETT_OFFSET b) (satS 32 (asr off 12))).base k = d.base k :=
    base_of_bases (setReg_bases _ _ _) k
  generalize ((d.setRegS (NETT_OFFSET b) (satS 32 (asr off 12))).baseMod b fun x => { x with used := true }) = u
    at ht hshown hoff hused hkept
  obtain ⟨hused2, hgood2, hothers2, htouch2⟩ := servoSlew_spec b off u
  generalize servoSlew b off u = v at ht hused2 hgood2 hothers2 htouch2
  obtain ⟨hused3, hstate3, hothers3, htouch3⟩ := servoState_spec b inside v
  rw [← ht] at hused3 hstate3 hothers3 htouch3
  change (t.base b).used = _ at hused3
  refine ⟨?_, ?_, fun hst hgood => ?_, fun k hk => ?_, ?_⟩
  · rw [Dev.regS, htouch3.reg (by simp) (eventReg_of_block (baseReg_block b)), htouch2.reg (by simp) rfl, ← Dev.regS, hoff]
  · rw [hused3, hused2, hused]
  · refine hstate3 ?_ ?_
    · rw [Dev.baseState, htouch2.reg (by simp) rfl, hshown.reg (by simp) rfl]
      exact hst
    · rw [hgood2, hused]
      change ((d.setRegS (NETT_OFFSET b) (satS 32 (asr off 12))).base b).good = 0
      rw [hbase, hgood]
  · rw [hothers3 k hk, hothers2 k hk, hkept k hk, hbase]
  · exact ((hshown.ofPlain.mono (by simp) (by simp)).trans (htouch2.ofPlain.mono (by simp) (by simp))).trans
      (htouch3.mono (by simp) (by simp))

/-- The counts of the faults are no registers of a base. -/
theorem fltCount_far (b : Base) {o : Nat} (h : 0x60000 ≤ o := by decide) : EVT_FLT_COUNT 0x29 ≠ o + b.val * 0x100 := by
  simp only [EVT_FLT_COUNT]
  omega

/-- The detection of a fault leaves the counts of the others but LOG_DROP. -/
theorem faultD_count_ne {code c : Nat} (hc : c < 256) (hdrop : c ≠ 0x88) (hne : c ≠ code) (sev inst d0 d1 : Nat) (d : Dev) :
    (faultD code sev inst d0 d1 d).reg (EVT_FLT_COUNT c) = d.reg (EVT_FLT_COUNT c) := by
  unfold faultD
  extract_lets us s1 escalated sev' halting subsumed handled queued full w s2 s3 s4 s5 s6 trigger seen s7
  have h1 : s1.reg (EVT_FLT_COUNT c) = d.reg (EVT_FLT_COUNT c) :=
    reg_ite _ (reg_foldl _ (fun t u => countRetry_reg code inst u (fltCount_ne (by simp only [EVT_FLT_RETRIES]; omega)) t) us d)
  have h2 : s2.reg (EVT_FLT_COUNT c) = s1.reg (EVT_FLT_COUNT c) := reg_ite _ rfl
  have h3 : s3.reg (EVT_FLT_COUNT c) = s2.reg (EVT_FLT_COUNT c) :=
    reg_count_ne _ _ (by simp only [EVT_FLT_COUNT]; omega)
  have h4 : s4.reg (EVT_FLT_COUNT c) = s3.reg (EVT_FLT_COUNT c) := by
    simp only [s4]
    rw [reg_setReg_ne _ _ (fltCount_ne (by decide)), reg_setReg_ne _ _ (fltCount_ne (by decide)),
      reg_setReg_ne _ _ (fltCount_ne (by decide))]
  have h5 : s5.reg (EVT_FLT_COUNT c) = s4.reg (EVT_FLT_COUNT c) :=
    reg_ite _ ((reg_count_ne _ _ (fltCount_ne (by decide))).trans (reg_put_ne _ _ _ (fltCount_ne (by decide))))
  have h6 : s6.reg (EVT_FLT_COUNT c) = s5.reg (EVT_FLT_COUNT c) := reg_ite _ (reg_put_ne _ _ _ (fltCount_ne (by decide)))
  have h7 : s7.reg (EVT_FLT_COUNT c) = s6.reg (EVT_FLT_COUNT c) := reg_ite _ rfl
  rw [reg_stage _ _ _ (eventReg_fltCount hc hdrop), archCauses_reg, h7, h6, h5, h4, h3, h2, h1]

theorem faultEvent_count_ne {code c e : Nat} (hc : c < 256) (hdrop : c ≠ 0x88) (hne : c ≠ code) (he : e < 256)
    (sev inst : Nat) (d : Dev) : (faultEvent code sev inst e d).reg (EVT_FLT_COUNT c) = d.reg (EVT_FLT_COUNT c) :=
  ((occur_eventOnly e inst code _ he).regs _ (eventReg_fltCount hc hdrop)).trans (faultD_count_ne hc hdrop hne sev inst 0 0 d)

/-- A base that used a Sync and is in ACQUIRE or LOCKED goes into HOLDOVER (R497). -/
theorem holdover_spec (b : Base) (d : Dev) :
    let t := holdover b d
    (d.on (NETT_CTRL_EN b) = true → (d.base b).used = true → d.baseSrc b = 1 → d.baseState b = 2 → t.baseState b = 3) ∧
      (∀ k : Base, k ≠ b → t.base k = d.base k) ∧ t.reg (EVT_FLT_COUNT 0x29) = d.reg (EVT_FLT_COUNT 0x29) ∧
      Dev.touches .fault [.bases] [NETT_STATE b, NETT_RATE b] d t := by
  unfold holdover
  extract_lets u v w t
  obtain ⟨hstate, -, -, hothers, htouch⟩ := setBase_spec b (st := tbHoldover) (by decide) d
  change u.baseState b = 3 at hstate
  change ∀ k : Base, k ≠ b → u.base k = d.base k at hothers
  change Dev.touches .event [.bases] [NETT_STATE b] d u at htouch
  have hv : Dev.touches .plain [] [NETT_RATE b] u v := .setRegS u _ _ (by simp) (baseReg_silent b)
  have hw : Dev.touches .plain [.bases] [] v w := baseMod_touches (by simp) b _ v
  have hfault {Q : List Part} : Dev.touches .fault Q [] w (faultEvent 0x27 sevInfo 0xFF 90 w) := .faultEvent 0x27 _ 0xFF 90 w
  by_cases hidle : (!d.on (NETT_CTRL_EN b) || !(d.base b).used || decide (2 ≤ d.baseSrc b)
      || (decide (d.baseState b ≠ tbAcquire) && decide (d.baseState b ≠ tbLocked))) = true
  · have ht : t = d := if_pos hidle
    rw [ht]
    refine ⟨fun hen hused hsrc hst => ?_, fun _ _ => rfl, rfl, .refl d⟩
    simp [hen, hused, hsrc, hst] at hidle
  · have ht : t = faultEvent 0x27 sevInfo 0xFF 90 w := if_neg hidle
    rw [ht]
    refine ⟨fun _ _ _ _ => ?_, fun k hk => ?_, ?_, ?_⟩
    · rw [Dev.baseState, (hfault (Q := [])).reg (by simp) (faultReg_of_block (baseReg_block b)), baseMod_reg,
        hv.reg (by simp) rfl]
      exact hstate
    · have hbases : (faultEvent 0x27 sevInfo 0xFF 90 w).base k = w.base k :=
        base_of_bases ((hfault (Q := [])).parts .bases (by simp) (by decide)) k
      rw [hbases, base_baseMod_ne hk, base_of_bases (hv.parts .bases (by simp) (by decide)) k, hothers k hk]
    · rw [faultEvent_count_ne (by decide) (by decide) (by decide) (by decide), baseMod_reg]
      exact (reg_setReg_ne _ _ (fltCount_far b)).trans (htouch.reg (by simpa using fltCount_far b) (by decide))
    · exact (((htouch.toFault.mono (by simp) (by simp)).trans (hv.ofPlain.mono (by simp) (by simp))).trans
        (hw.ofPlain.mono (by simp) (by simp))).trans (hfault.mono (fun _ => id) (by simp))

/-! ### PPS -/

theorem ppsOut_rises {b : Base} {d : Dev} (hb : b = baseNo (d.reg NET_PPS_OUT)) (hen : d.on NET_PPS_OUT_PPS_OUT_EN = true)
    (hbase : d.on (NETT_CTRL_EN b) = true) (hle : (d.base b).now.ns ≤ d.get NET_PPS_OFFSET_PPS_OFFSET)
    (hnear : d.get NET_PPS_OFFSET_PPS_OFFSET ≤ (d.base b).now.ns + 501) :
    ppsOut d = { d with chain := { d.chain with
      ppsHigh := true
      ppsUntil := d.baseNanos b - (d.base b).now.ns + d.get NET_PPS_OFFSET_PPS_OFFSET +
        d.get NET_PPS_OUT_PPS_WIDTH * 1000 } } := by
  unfold ppsOut
  rw [← hb]
  extract_lets b' at' ns until'
  have hpast : decide (at' < ns) = false := decide_eq_false (by simp only [at', ns, b']; omega)
  have hfar : decide (ns + 501 < at') = false := decide_eq_false (by simp only [at', ns, b']; omega)
  rw [hpast, hfar, if_neg (by simp [b', hen, hbase])]

/-- The time of an edge is shown. -/
def ppsShown (b : Base) (tau : Nat) (d : Dev) : Dev :=
  { (d.setReg NET_PPS_IN_SEC ((d.baseAt b tau).sec % 2 ^ 32)).setReg NET_PPS_IN_NS (d.baseAt b tau).ns with
    chain := { d.chain with ppsSince := some d.grid.ticks } }

theorem ppsIn_enabled {b : Base} {tau : Nat} {d : Dev} (hb : b = baseNo (d.reg NET_PPS_IN))
    (hen : d.on NET_PPS_IN_PPS_IN_EN = true) :
    ppsIn tau d =
      if !(ppsShown b tau d).on (NETT_CTRL_EN b) || decide ((ppsShown b tau d).baseSrc b ≠ 1) then ppsShown b tau d
      else servo b ((if 500000000 ≤ (d.baseAt b tau).ns then ((d.baseAt b tau).ns : Int) - 1000000000
          else (d.baseAt b tau).ns) * 65536)
        (if (ppsShown b tau d).baseState b = tbHoldover then setBase b tbAcquire (ppsShown b tau d) else ppsShown b tau d) := by
  unfold ppsIn
  rw [if_neg (by simp [hen]), ← hb]
  rfl

theorem ppsShown_touches (b : Base) (tau : Nat) (d : Dev) :
    Dev.touches .plain [.chain] [NET_PPS_IN_SEC, NET_PPS_IN_NS] d (ppsShown b tau d) :=
  ((Dev.touches.setReg d NET_PPS_IN_SEC _ (by simp)).trans (.setReg _ NET_PPS_IN_NS _ (by simp))).trans
    (.ofWithin (toChain_within _ _) (by simp))

/-- The registers of a base are none of the edge's. -/
theorem ppsReg_far (b : Base) {o : Nat} (h : 0x61000 ≤ o := by decide) :
    o + b.val * 0x100 ∉ [NET_PPS_IN_SEC, NET_PPS_IN_NS] := by
  simp only [NET_PPS_IN_SEC, NET_PPS_IN_NS, List.mem_cons, List.not_mem_nil, or_false]
  omega

theorem netReg_apart (b : Base) {a : Nat} (h : a < 0x61000 := by decide) :
    a ∉ [NETT_OFFSET b, NETT_RATE b, NETT_STATE b] := by
  simp only [NETT_OFFSET, NETT_RATE, NETT_STATE, List.mem_cons, List.not_mem_nil, or_false]
  omega

theorem ppsIn_unused {b : Base} {tau : Nat} {d : Dev} (hb : b = baseNo (d.reg NET_PPS_IN))
    (hen : d.on NET_PPS_IN_PPS_IN_EN = true) (hsrc : (d.on (NETT_CTRL_EN b) && d.baseSrc b == 1) = false) :
    ppsIn tau d = ppsShown b tau d := by
  have htouch := ppsShown_touches b tau d
  have hon : (ppsShown b tau d).on (NETT_CTRL_EN b) = d.on (NETT_CTRL_EN b) := htouch.on (ppsReg_far b) rfl
  have hget : (ppsShown b tau d).baseSrc b = d.baseSrc b := by
    simp only [Dev.baseSrc, htouch.get (f := NETT_CTRL_SRC b) (ppsReg_far b) rfl]
  rw [ppsIn_enabled hb hen, hon, hget, if_pos]
  cases hc : d.on (NETT_CTRL_EN b) with
  | true => simpa [hc] using hsrc
  | false => rfl

/-- An edge that a base follows drives its servo. -/
theorem ppsIn_followed {b : Base} {tau : Nat} {d : Dev} (hb : b = baseNo (d.reg NET_PPS_IN))
    (hen : d.on NET_PPS_IN_PPS_IN_EN = true) (hbase : d.on (NETT_CTRL_EN b) = true) (hsrc : d.baseSrc b = 1)
    (hs : d.shadow = []) (hauto : d.on (NETT_CTRL_STEP_AUTO b) = false) :
    let t := ppsIn tau d
    t.reg NET_PPS_IN_SEC = (d.baseAt b tau).sec % 2 ^ 32 ∧ t.reg NET_PPS_IN_NS = (d.baseAt b tau).ns % 2 ^ 32 ∧
      t.chain = { d.chain with ppsSince := some d.grid.ticks } ∧
      t.regS (NETT_OFFSET b) = satS 32 (asr ((if 500000000 ≤ (d.baseAt b tau).ns then ((d.baseAt b tau).ns : Int) - 1000000000
        else (d.baseAt b tau).ns) * 65536) 12) ∧
      (t.base b).used = true ∧ (d.baseState b = 3 → t.baseState b = 1) ∧ (∀ k : Base, k ≠ b → t.base k = d.base k) ∧
      Dev.touches .event [.chain, .bases] [NET_PPS_IN_SEC, NET_PPS_IN_NS, NETT_OFFSET b, NETT_RATE b, NETT_STATE b] d t := by
  intro t
  have hshown := ppsShown_touches b tau d
  have hon : (ppsShown b tau d).on (NETT_CTRL_EN b) = d.on (NETT_CTRL_EN b) := hshown.on (ppsReg_far b) rfl
  have hget : (ppsShown b tau d).baseSrc b = d.baseSrc b := by
    simp only [Dev.baseSrc, hshown.get (f := NETT_CTRL_SRC b) (ppsReg_far b) rfl]
  have hstate : (ppsShown b tau d).baseState b = d.baseState b := by
    simp only [Dev.baseState, hshown.reg (a := NETT_STATE b) (ppsReg_far b) rfl]
  have ht : t = _ := ppsIn_enabled (tau := tau) hb hen
  rw [hon, hget, if_neg (by simp [hbase, hsrc]), hstate] at ht
  generalize hoff : (if 500000000 ≤ (d.baseAt b tau).ns then ((d.baseAt b tau).ns : Int) - 1000000000
    else (d.baseAt b tau).ns) * 65536 = off at ht ⊢
  obtain ⟨u, hu, hleft, hgood, hothers, htouch⟩ : ∃ u, t = servo b off u ∧ (d.baseState b = 3 → u.baseState b = 1) ∧
      (d.baseState b = 3 → (u.base b).good = 0) ∧ (∀ k : Base, k ≠ b → u.base k = d.base k) ∧
      Dev.touches .event [.bases] [NETT_STATE b] (ppsShown b tau d) u := by
    have hbases (k : Base) : (ppsShown b tau d).base k = d.base k := base_of_bases (hshown.parts .bases (by simp) (by decide)) k
    by_cases h3 : d.baseState b = tbHoldover
    · obtain ⟨hacq, hgood, -, hothers, htouch⟩ := setBase_spec b (st := tbAcquire) (by decide) (ppsShown b tau d)
      rw [if_pos h3] at ht
      exact ⟨_, ht, fun _ => hacq, fun _ => hgood, fun k hk => (hothers k hk).trans (hbases k), htouch⟩
    · rw [if_neg h3] at ht
      exact ⟨_, ht, fun h => absurd h h3, fun h => absurd h h3, fun k _ => hbases k, .refl _⟩
  have hus : u.shadow = [] := htouch.shadow (hshown.shadow hs)
  have hua : u.on (NETT_CTRL_STEP_AUTO b) = false :=
    ((htouch.on (by simp) (eventReg_of_block (baseReg_block b))).trans (hshown.on (ppsReg_far b) rfl)).trans hauto
  obtain ⟨hoffset, hused, hacq, hkept, hservo⟩ := servo_spec (off := off) hus hua
  rw [← hu] at hoffset hused hacq hkept hservo
  have hafter {a : Nat} (ha : a ∉ [NETT_OFFSET b, NETT_RATE b, NETT_STATE b]) (hev : eventReg a = false) :
      t.reg a = (ppsShown b tau d).reg a := by
    rw [hservo.reg ha hev, htouch.reg (fun h => ha (by simp [List.mem_singleton.1 h])) hev]
  have hchain : t.chain = { d.chain with ppsSince := some d.grid.ticks } :=
    (hservo.parts .chain (by simp) (by decide)).trans (htouch.parts .chain (by simp) (by decide))
  refine ⟨?_, ?_, hchain, hoffset, hused, fun h => hacq (hleft h) (hgood h), fun k hk => (hkept k hk).trans (hothers k hk), ?_⟩
  · rw [hafter (netReg_apart b) (by decide)]
    simp (disch := decide) only [ppsShown, reg_mk, reg_setReg_ne, reg_setReg_same, Nat.mod_mod]
  · rw [hafter (netReg_apart b) (by decide)]
    simp only [ppsShown, reg_mk, reg_setReg_same]
  · exact ((hshown.ofPlain.mono (by simp) (by simp)).trans (htouch.mono (by simp) (by simp))).trans
      (hservo.mono (by simp) (by simp))

/-- The loss of PPS_IN. -/
theorem ppsLost_spec {b : Base} {n : Nat} {d : Dev} (hb : b = baseNo (d.reg NET_PPS_IN))
    (hen : d.on NET_PPS_IN_PPS_IN_EN = true) (hsince : d.chain.ppsSince = some n) (hlate : n + 3000000 ≤ d.grid.ticks) :
    let t := ppsLost d
    t.on NET_FLAGS_PPS_LOST = true ∧ t.pends 93 ∧
      t.reg (EVT_FLT_COUNT 0x29) = min (d.reg (EVT_FLT_COUNT 0x29) + 1) 0xFFFFFFFF ∧
      t.chain = { d.chain with ppsSince := none } ∧ (∀ k : Base, k ≠ b → t.base k = d.base k) ∧
      (d.baseSrc b = 1 → d.on (NETT_CTRL_EN b) = true → (d.base b).used = true → d.baseState b = 2 → t.baseState b = 3) ∧
      Dev.touches .fault [.chain, .bases] [NET_FLAGS, NETT_STATE b, NETT_RATE b] d t := by
  unfold ppsLost
  rw [hsince]
  dsimp -zeta only
  rw [if_neg (by simp [hen]; omega), ← hb]
  extract_lets b' x u v t
  have hu : Dev.touches .plain [.chain] [] d u := .ofWithin (toChain_within d _) (by simp)
  have hput : Dev.touches .plain [] [NET_FLAGS] u (u.put NET_FLAGS_PPS_LOST 1) := .put u _ 1 (by simp)
  have hv {Q : List Part} : Dev.touches .fault Q [] (u.put NET_FLAGS_PPS_LOST 1) v := .faultEvent 0x29 _ 0xFF 93 _
  have hbefore : Dev.touches .fault [.chain] [NET_FLAGS] d v :=
    ((hu.ofPlain.mono (by simp) (by simp)).trans (hput.ofPlain.mono (by simp) (by simp))).trans (hv.mono (fun _ => id) (by simp))
  have hflag : v.on NET_FLAGS_PPS_LOST = true :=
    ((hv (Q := [])).on (by simp) (by decide)).trans (on_put_one u _ rfl (by decide))
  have hpend : v.pends 93 := faultEvent_pends (by decide) (by decide) _ _ _
  have hcount : v.reg (EVT_FLT_COUNT 0x29) = min (d.reg (EVT_FLT_COUNT 0x29) + 1) 0xFFFFFFFF := by
    have h := (faultEvent_detects (e := 93) sevInfo (u.put NET_FLAGS_PPS_LOST 1) (code := 0x29) (inst := 0xFF) (by decide)
      (by decide) (by decide) (by decide)).1
    rwa [hput.reg (by decide) rfl, hu.reg (by simp) rfl] at h
  have hchain : v.chain = { d.chain with ppsSince := none } :=
    ((hv (Q := [])).parts .chain (by simp) (by decide)).trans (hput.parts .chain (by simp) (by decide))
  have hbase (k : Base) : v.base k = d.base k :=
    base_of_bases (((hv (Q := [])).parts .bases (by simp) (by decide)).trans
      ((hput.parts .bases (by simp) (by decide)).trans (hu.parts .bases (by simp) (by decide)))) k
  have hreg {o : Nat} (ho : 0x61000 ≤ o) (ho' : o < 0x6F000) : v.reg (o + b.val * 0x100) = d.reg (o + b.val * 0x100) := by
    refine hbefore.reg ?_ (faultReg_of_block (baseReg_block b (by omega) ho'))
    simp only [NET_FLAGS, List.mem_cons, List.not_mem_nil, or_false]
    omega
  have hen' : v.on (NETT_CTRL_EN b) = d.on (NETT_CTRL_EN b) := on_congr (hreg (by decide) (by decide))
  have hsrc : v.baseSrc b = d.baseSrc b := by
    simp only [Dev.baseSrc, Dev.get, hreg (o := 0x62000) (by decide) (by decide)]
  have hstate : v.baseState b = d.baseState b := by
    simp only [Dev.baseState, hreg (o := 0x62004) (by decide) (by decide)]
  obtain ⟨hheld, hothers, hcount', htouch⟩ := holdover_spec b v
  by_cases hlast : (v.on (NETT_CTRL_EN b) && decide (v.baseSrc b = 1)) = true
  · have ht : t = holdover b v := if_pos hlast
    rw [ht]
    refine ⟨(htouch.on ?_ (by decide)).trans hflag, htouch.pends 93 (by decide) hpend, hcount'.trans hcount, ?_,
      fun k hk => (hothers k hk).trans (hbase k), fun hs he huse hst => ?_, ?_⟩
    · simp only [NET_FLAGS, NETT_STATE, NETT_RATE, List.mem_cons, List.not_mem_nil, or_false]
      omega
    · exact (htouch.parts .chain (by simp) (by decide)).trans hchain
    · refine hheld (hen'.trans he) ?_ (hsrc.trans hs) (hstate.trans hst)
      rw [hbase, huse]
    · exact (hbefore.mono (by simp) (by simp)).trans (htouch.mono (by simp) (by simp))
  · have ht : t = v := if_neg hlast
    rw [ht]
    refine ⟨hflag, hpend, hcount, hchain, fun k _ => hbase k, fun hs he => ?_, hbefore.mono (by simp) (by simp)⟩
    rw [hen', hsrc, hs, he] at hlast
    exact absurd rfl hlast

/-! ### The statement -/

theorem exec_tlQueue (p : Port) (w : Word) (tau : Nat) (s : State) :
    exec (.tlQueue p w tau) s = actIn domFab (tlQueue p w.toNat tau) s := rfl

theorem exec_tlFlush (p : Port) (s : State) : exec (.tlFlush p) s = actIn domFab (tlFlush p) s := rfl

theorem exec_timedLaunch (p : Port) (tau : Nat) (s : State) :
    exec (.timedLaunch p tau) s = actIn domFab (timedLaunch p tau) s := rfl

theorem exec_ppsOutPulse (s : State) : exec .ppsOutPulse s = actIn domFab ppsOut s := rfl

theorem exec_ppsInEdge (tau : Nat) (s : State) : exec (.ppsInEdge tau) s = actIn domFab (ppsIn tau) s := rfl

theorem exec_ppsLost (s : State) : exec .ppsLost s = actIn domFab ppsLost s := rfl

/-- Settles O32: each operation on the launches and on PPS by its own lemma. -/
theorem launchesAndPps : Obligations.LaunchesAndPps := by
  intro p w tau e rest b n s hrun hcalm
  refine ⟨fun hroom he htime => ?_, ?_, fun hq hdue hidle hp => ?_, fun hb hen hbase hle hnear => ?_,
    fun hb hen hsrc => ?_, fun hb hen hbase hsrc hs hauto => ?_, fun hb hen hsince hlate => ?_⟩
  · subst he
    have h := tlQueue_inTime hroom htime
    have htouch : Dev.touches .plain [.chain] [NETP_TL_STAT p] s.dev (tlQueue p w.toNat tau s.dev) := by
      rw [h]
      exact (portMod_touches (by simp) _ _ _).trans (launchShow_touches (by simp) _)
    refine ⟨_, actIn_touches hrun hcalm htouch, ?_, ?_, fun q hq => ?_, htouch.regsOnly⟩
    · rw [h, launchShow_cport, cport_portMod_same]
      rfl
    · rw [h, launchShow_reg, cport_portMod_same, launchesWith_length]
      omega
    · rw [h, launchShow_cport, cport_portMod_ne hq]
  · obtain ⟨hempty, hstat, hothers, htouch⟩ := tlFlush_spec p s.dev
    exact ⟨_, actIn_touches hrun hcalm htouch, hempty, hstat, hothers, htouch.regsOnly⟩
  · have h := timedLaunch_due hq hdue hidle hp
    have htouch : Dev.touches .plain [.chain] [NETP_TL_STAT p] s.dev (timedLaunch p tau s.dev) := by
      rw [h]
      exact (portMod_touches (by simp) _ _ _).trans (launchShow_touches (by simp) _)
    refine ⟨_, actIn_touches hrun hcalm htouch, ?_, ?_, ?_, fun q hq => ?_, htouch.regsOnly⟩
    · rw [h, launchShow_cport, cport_portMod_same]
    · rw [h, launchShow_cport, cport_portMod_same]
      rfl
    · rw [h, launchShow_reg, cport_portMod_same]
    · rw [h, launchShow_cport, cport_portMod_ne hq]
  · exact actIn_of_eq hrun (ppsOut_rises hb hen hbase hle hnear) hcalm.1
  · exact actIn_of_eq hrun (ppsIn_unused hb hen hsrc) hcalm.1
  · obtain ⟨hsec, hns, hchain, hoff, hused, hacq, hothers, htouch⟩ := ppsIn_followed (tau := tau) hb hen hbase hsrc hs hauto
    exact ⟨_, actIn_touches hrun hcalm htouch, hsec, hns, hchain, hoff, hused, hacq, hothers, htouch.withEvent⟩
  · obtain ⟨hflag, hpend, hcount, hchain, hothers, hheld, htouch⟩ := ppsLost_spec hb hen hsince hlate
    exact ⟨_, actIn_touches hrun hcalm htouch, hflag, hpend, hcount, hchain, hothers, hheld, htouch.withFault⟩

/-!
REFUTATION of the staging of a NOTE: the request is first taken from the receive bobbin, and where the level of that bobbin
falls to its low watermark the event of that (R411) may be logged too, so its record stands ahead of the NOTE record.
-/

/-- A NOTE request of one word, with tag 0. -/
def noteRequest : Frame := ⟨.own, 4, 0, 0, 0, 0, [4, 0, 0, 0, 0, 0, 0, 0, 7, 0, 0, 0], .none⟩

/-- FAB runs; the receive bobbin of port 0 holds the one word of `noteRequest`, and its low watermark, 0, raises E39, which
is logged; the log is ready and takes notes; both ports send. -/
def watchedNote : Dev :=
  { Dev.reset with
    regs := [(CLK_LIVE, 2), (EVT_CFG 39, 0x20), (CRLB_CFG 64, 0x401), (CRLB_SIZE 64, 2), (CRLB_WR 64, 1), (WAL_CTRL, 2),
      (WAL_RESERVE, 0xF000)]
    start := { Dev.reset.start with porstLow := false }
    wal := { Dev.reset.wal with ready := true }
    chain := { Dev.reset.chain with
      ports := Dev.reset.chain.ports.map fun x => { x with rxQ := [noteRequest], sending := some noteRequest } } }

theorem watchedNote_calm : watchedNote.calm := by
  have hcfg : ∀ e : Fin 256, watchedNote.get (EVT_CFG_REACT e) = 0 := by decide +kernel
  exact ⟨rfl, fun e he => hcfg ⟨e, he⟩⟩

/-- Two records are staged: the event's and the note's. -/
theorem logNote_watchedNote :
    (settle (logFrame 0 (· == 4) (logNote 0) watchedNote)).wal.staged.length = 2 := by
  decide +kernel

theorem exec_logNote (p : Port) (s : State) :
    exec (.logNote p) s = .next { s with
      dev := if s.dev.runs domFab then settle (logFrame p (· == 4) (logNote p) s.dev) else s.dev } := rfl

/-- Refutes O43: where the taking of the request brings the receive bobbin to its low watermark and E39 is logged, two
records are staged, and the statement says one. -/
theorem not_noteStaged : ¬ Obligations.NoteStaged := by
  unfold Obligations.NoteStaged
  intro h
  have hrun : watchedNote.runs domFab = true := by decide +kernel
  have hempty : watchedNote.wal.staged = [] := rfl
  obtain ⟨d, hexec, hstaged, -, -, -⟩ := h 0 noteRequest [] [7] ⟨watchedNote, Otp.blank, []⟩ hrun watchedNote_calm
    (by decide +kernel) (by decide) (by decide +kernel) (by decide +kernel) (by decide +kernel) rfl (by decide +kernel)
    (by decide) (by decide) (by decide +kernel) rfl (by decide +kernel)
  rw [exec_logNote, if_pos hrun] at hexec
  have hdev : settle (logFrame 0 (· == 4) (logNote 0) watchedNote) = d := dev_of_next hexec
  have htwo := logNote_watchedNote
  rw [hdev, hstaged, hempty] at htwo
  exact absurd htwo (by decide)

/-!
PROOFS, support: what staging a record changes in the log unit (R598, R599), and the LOG request that is taken from a chain
receive bobbin (R602).
-/

/-! ### What staging changes in the log unit -/

/-- `x` is the log `w` with more records staged, or dropped. -/
structure WaleLog.stages (w x : WaleLog) : Prop where
  rest : x = { w with staged := x.staged, lost := x.lost, dropRun := x.dropRun, above := x.above }
  more : w.staged <+: x.staged

namespace WaleLog.stages

variable {w x y : WaleLog}

theorem refl (w : WaleLog) : w.stages w := ⟨rfl, List.prefix_rfl⟩

theorem trans (h : w.stages x) (k : x.stages y) : w.stages y :=
  ⟨by rw [k.rest, h.rest], h.more.trans k.more⟩

theorem of_eq (h : x = w) : w.stages x := h ▸ refl w

variable (h : w.stages x)
include h

theorem ready : x.ready = w.ready := by rw [h.rest]
theorem sector : x.sector = w.sector := by rw [h.rest]
theorem offset : x.offset = w.offset := by rw [h.rest]
theorem fails : x.fails = w.fails := by rw [h.rest]
theorem badSectors : x.badSectors = w.badSectors := by rw [h.rest]
theorem nextErased : x.nextErased = w.nextErased := by rw [h.rest]
theorem read : x.read = w.read := by rw [h.rest]

end WaleLog.stages

/-- From `d` to `t` the log unit changes by staging only, and so do its flags: DROP alone may be set. -/
structure Dev.logs (d t : Dev) : Prop where
  wal : d.wal.stages t.wal
  flags : ∀ f : Field, f.addr = WAL_FLAGS → 1 ≤ f.lo → f.hi < 32 → t.get f = d.get f

section
variable {d t u : Dev}

theorem logs_of_eq (h : t.wal = d.wal) (hr : t.reg WAL_FLAGS = d.reg WAL_FLAGS) : d.logs t :=
  ⟨.of_eq h, fun f hf _ _ => by simp only [Dev.get, hf, hr]⟩

theorem logs_refl (d : Dev) : d.logs d := logs_of_eq rfl rfl

theorem logs_trans (h : d.logs t) (k : t.logs u) : d.logs u :=
  ⟨h.wal.trans k.wal, fun f hf h1 h2 => (k.flags f hf h1 h2).trans (h.flags f hf h1 h2)⟩

theorem logs_ite {c : Prop} [Decidable c] (h : d.logs t) (k : d.logs u) : d.logs (if c then t else u) := by
  split
  · exact h
  · exact k

theorem logs_foldl {α : Type} {g : Dev → α → Dev} (l : List α) (hg : ∀ (u : Dev) x, x ∈ l → u.logs (g u x)) (d : Dev) :
    d.logs (l.foldl g d) := by
  induction l generalizing d with
  | nil => exact logs_refl d
  | cons x l ih => exact logs_trans (hg d x (by simp)) (ih (fun v y hy => hg v y (by simp [hy])) _)

theorem logs_setReg (d : Dev) {a : Nat} (h : WAL_FLAGS ≠ a) (v : Nat) : d.logs (d.setReg a v) :=
  logs_of_eq rfl (reg_setReg_ne d v h)

theorem logs_put (d : Dev) {f : Field} (h : WAL_FLAGS ≠ f.addr) (v : Nat) : d.logs (d.put f v) := logs_setReg d h _

theorem logs_count (d : Dev) {a : Nat} (h : WAL_FLAGS ≠ a) (k : Nat) : d.logs (d.count a k) := logs_setReg d h _

theorem logs_drop (d : Dev) : d.logs (d.put WAL_FLAGS_DROP 1) :=
  ⟨.of_eq (put_wal d _ _), fun f _ h1 h2 => get_put_ne d WAL_FLAGS_DROP f 1 (by decide) h2 (.inr (.inr h1))⟩

theorem logs_ev (d : Dev) (v : EventUnit) : d.logs { d with ev := v } := logs_of_eq rfl rfl

theorem logs_flt (d : Dev) (f : FaultUnit) : d.logs { d with flt := f } := logs_of_eq rfl rfl

theorem logs_dof (d : Dev) (f : Doff) : d.logs { d with dof := f } := logs_of_eq rfl rfl

theorem logs_portMod (d : Dev) (p : Port) (f : ChainPort → ChainPort) : d.logs (d.portMod p f) := logs_of_eq rfl rfl

end

theorem markEvent_logs (e inst code : Nat) (d : Dev) (he : e < 256) : d.logs (markEvent e inst code d) := by
  have hcount : WAL_FLAGS ≠ EVT_COUNT e := by simp only [WAL_FLAGS, EVT_COUNT]; omega
  have hpend : WAL_FLAGS ≠ EVT_PEND (e / 32) := by simp only [WAL_FLAGS, EVT_PEND]; omega
  simp only [markEvent]
  exact logs_trans (logs_trans (logs_trans (logs_trans (logs_count d hcount _) (logs_setReg _ hpend _))
    (logs_setReg _ (by decide) _)) (logs_ite (logs_put _ (by decide) _) (logs_refl _))) (logs_ev _ _)

theorem stageRec_logs (r : LogRec) (d : Dev) : d.logs (stageRec r d).1 := by
  simp only [stageRec]
  generalize (if d.wal.lost = (0, 0, 0) then ([] : List LogRec) else _) = waiting
  split
  · have hdropped (w : WaleLog) (hw : d.wal.stages w) : d.logs { d.count WAL_DROPS 1 with wal := w } :=
      ⟨hw, (logs_count d (by decide) 1).flags⟩
    split
    · exact hdropped _ ⟨rfl, List.prefix_rfl⟩
    · refine logs_trans ?_ (logs_trans (logs_drop _) (logs_count _ (by decide : WAL_FLAGS ≠ EVT_FLT_COUNT 0x88) 1))
      exact hdropped _ ⟨rfl, List.prefix_rfl⟩
  · have hstaged (w : WaleLog) (hw : d.wal.stages w) : d.logs { d with wal := w } := ⟨hw, (logs_refl d).flags⟩
    refine logs_trans ?_ (logs_setReg _ (by decide : WAL_FLAGS ≠ WAL_STAGED) _)
    exact hstaged _ ⟨rfl, by simp⟩

/-- The events that staging raises are LOG_DROP and LOG_RESERVE. -/
theorem stageRec_event {r : LogRec} {d : Dev} {f : Nat} (h : f ∈ (stageRec r d).2) : f < 256 := by
  rcases (stageRec_eventOnly r d).2 f h with rfl | rfl <;> decide

theorem occurN_logs (k e inst code : Nat) (d : Dev) (he : e < 256) : d.logs (occurN k e inst code d) := by
  induction k generalizing e inst code d with
  | zero => exact markEvent_logs e inst code d he
  | succ k ih =>
    have hmark := markEvent_logs e inst code d he
    simp only [occurN]
    generalize markEvent e inst code d = t at hmark ⊢
    refine logs_ite hmark (logs_ite (logs_trans hmark (logs_ev t _)) (logs_trans hmark ?_))
    exact logs_trans (logs_ev t _) (logs_trans (stageRec_logs _ _)
      (logs_foldl _ (fun v f hf => ih f _ _ v (stageRec_event hf)) _))

theorem occur_logs (e inst code : Nat) (d : Dev) (he : e < 256 := by decide) : d.logs (occur e inst code d) :=
  occurN_logs 3 e inst code d he

theorem stage_logs (r : LogRec) (d : Dev) : d.logs (stage r d) :=
  logs_trans (stageRec_logs r d) (logs_foldl _ (fun u f hf => occur_logs f _ _ u (stageRec_event hf)) _)

theorem archCauses_logs (code sev inst : Nat) (d : Dev) : d.logs (archCauses code sev inst d) := by
  have hcause (n : Station) (u : Dev) : u.logs (archCause n u) := logs_ite (logs_refl u) (logs_of_eq rfl rfl)
  unfold archCauses
  exact logs_foldl _ (fun u n _ => logs_ite (hcause n u) (logs_refl u)) d

theorem countRetry_logs (code inst : Nat) (u : Fin 19) (d : Dev) : d.logs (countRetry code inst u d) :=
  logs_trans (logs_flt d _) (logs_setReg _ (by simp only [WAL_FLAGS, EVT_FLT_RETRIES]; omega) _)

theorem faultD_logs (code sev inst d0 d1 : Nat) (d : Dev) (hc : code < 256 := by decide) :
    d.logs (faultD code sev inst d0 d1 d) := by
  unfold faultD
  extract_lets us s1 escalated sev' halting subsumed handled queued full w s2 s3 s4 s5 s6 trigger seen s7
  have h1 : d.logs s1 := logs_ite (logs_foldl us (fun t u _ => countRetry_logs code inst u t) d) (logs_refl d)
  have h2 : s1.logs s2 := logs_ite (logs_flt s1 _) (logs_refl s1)
  have h3 : s2.logs s3 := logs_count s2 (by simp only [WAL_FLAGS, EVT_FLT_COUNT]; omega) 1
  have h4 : s3.logs s4 :=
    logs_trans (logs_trans (logs_setReg s3 (by decide) w) (logs_setReg _ (by decide) _)) (logs_setReg _ (by decide) _)
  have h5 : s4.logs s5 := logs_ite (logs_trans (logs_put s4 (by decide) 1) (logs_count _ (by decide) 1)) (logs_refl s4)
  have h6 : s5.logs s6 := logs_ite (logs_put s5 (by decide) 1) (logs_refl s5)
  have h7 : s6.logs s7 := logs_ite (logs_dof s6 _) (logs_refl s6)
  exact logs_trans h1 (logs_trans h2 (logs_trans h3 (logs_trans h4 (logs_trans h5 (logs_trans h6 (logs_trans h7
    (logs_trans (archCauses_logs code sev' inst s7) (stage_logs _ _))))))))

/-! ### A frame taken from its receive bobbin (R410) -/

theorem bobEvent_logs (b e code : Nat) (d : Dev) (he : e < 256 := by decide) : d.logs (bobEvent b e code d) :=
  logs_trans (logs_setReg d (by decide) b) (occur_logs e b code _ he)

theorem bobCheck_logs {b : Nat} (hb : b < 128) (old : Nat) (d : Dev) : d.logs (bobCheck b old d) := by
  have hfill : WAL_FLAGS ≠ CRLB_FILL b := by simp only [WAL_FLAGS, CRLB_FILL]; omega
  have hstatus : WAL_FLAGS ≠ CRLB_STATUS b := by simp only [WAL_FLAGS, CRLB_STATUS]; omega
  have flag {f : Field} {v : Nat} {u : Dev} (h : d.logs u) (hf : f.addr = CRLB_STATUS b) : d.logs (u.put f v) :=
    logs_trans h (logs_put u (hf ▸ hstatus) v)
  have event {e code : Nat} {u : Dev} (h : d.logs u) (he : e < 256) : d.logs (bobEvent b e code u) :=
    logs_trans h (bobEvent_logs b e code u he)
  unfold bobCheck
  extract_lets s1 now hi lo ev s2 s3 s4 s5 panicking on off
  have h1 : d.logs s1 := logs_put d hfill _
  have h3 : d.logs s3 := logs_ite (logs_ite (event (flag h1 rfl) (by decide)) (flag h1 rfl)) h1
  have h5 : d.logs s5 := logs_ite (logs_ite (event (flag h3 rfl) (by decide)) (flag h3 rfl)) h3
  exact logs_ite (logs_ite (flag h5 rfl) h5) (logs_ite (event (flag (flag h5 rfl) rfl) (by decide)) h5)

theorem bobPop_logs {b : Nat} (hb : b < 128) (k : Nat) (d : Dev) : d.logs (bobPop b k d).2 := by
  unfold bobPop
  split
  · exact logs_refl d
  · exact logs_trans (logs_put d (by simp only [WAL_FLAGS, CRLB_RD]; omega) _) (bobCheck_logs hb _ _)

theorem bobPop_keepsPending {b : Nat} (hb : b < 128) (k : Nat) (d : Dev) : d.keepsPending (bobPop b k d).2 := by
  unfold bobPop
  split
  · exact keepsPending_refl d
  · exact keepsPending_trans (keepsPending_put d (by simp only [CRLB_RD]; omega) _) (bobCheck_keepsPending hb _ _)

/-- What is stated for an occurrence with the registers `L`, calm and with nothing pending lost. -/
theorem Dev.touches.ofWithEvent {d t : Dev} (h : d.withEvent L t) (hc : d.calm → t.calm) (hk : d.keepsPending t) :
    Dev.touches .event P L d t where
  regs := h.2
  parts p _ hp := by
    simp only [Reach.parts, List.mem_cons, not_or] at hp
    rw [h.1]
    cases p <;> first | rfl | simp at hp
  calm := hc
  pends := hk

theorem takeFrame_touches (hP : Part.chain ∈ P) {p : Port} (hL : takenRegs p ⊆ L) (d : Dev) :
    Dev.touches .event P L d (takeFrame p d) := by
  unfold takeFrame
  split
  · exact .refl d
  · next f t _ =>
    have hb : 64 + p.val < 128 := by omega
    refine (portMod_touches hP p _ d).trans (.mono (.ofWithEvent (P := []) (bobPop_withEvent (64 + p.val) _ _)
      (bobPop_within (64 + p.val) _ _ hb).calm (bobPop_keepsPending hb _ _)) (by simp) hL)

theorem takeFrame_logs (p : Port) (d : Dev) : d.logs (takeFrame p d) := by
  unfold takeFrame
  split
  · exact logs_refl d
  · exact logs_trans (logs_portMod d p _) (bobPop_logs (by omega) _ _)

/-!
PROOFS about the LOG requests of the chain (R602).
-/

/-- The LOG request `f` stands at the head of the receive bobbin of port `p`, and both ports are busy. -/
structure Dev.hasLogFrame (p : Port) (f : Frame) (rest : List Frame) (d : Dev) : Prop where
  head : (d.cport p).rxQ = f :: rest
  kind : f.kind = 4
  busy : ∀ q, (d.cport q).sending.isSome = true

theorem queueOwn_touches (hP : Part.chain ∈ P) (p : Port) (f : Frame) (d : Dev) : Dev.touches m P L d (queueOwn p f d) :=
  portMod_touches hP p _ d

theorem walMod_touches (hP : Part.wal ∈ P ++ m.parts) (f : WaleLog → WaleLog) (d : Dev) : Dev.touches m P L d (d.walMod f) where
  regs _ _ _ := rfl
  parts p hp hm := by
    have hne : p ≠ .wal := fun h => (List.mem_append.1 (h ▸ hP)).elim hp hm
    cases p <;> first | rfl | exact absurd rfl hne
  calm h := h
  pends _ _ h := h

@[simp] theorem walMod_reg (d : Dev) (f : WaleLog → WaleLog) (a : Nat) : (d.walMod f).reg a = d.reg a := by
  simp only [Dev.walMod, reg_mk]

@[simp] theorem walMod_on (d : Dev) (f : WaleLog → WaleLog) (g : Field) : (d.walMod f).on g = d.on g :=
  on_congr (walMod_reg d f g.addr)

@[simp] theorem walMod_get (d : Dev) (f : WaleLog → WaleLog) (g : Field) : (d.walMod f).get g = d.get g := by
  simp only [Dev.get, walMod_reg]

theorem walMod_chain (d : Dev) (f : WaleLog → WaleLog) : (d.walMod f).chain = d.chain := rfl

theorem walMod_wal (d : Dev) (f : WaleLog → WaleLog) : (d.walMod f).wal = f d.wal := rfl

/-- A busy port takes the reply into its queue and nothing more happens. -/
theorem logReply_busy {p : Port} {d : Dev} (h : (d.cport p).sending.isSome = true) (seqNo op status : Nat) (last : Bool)
    (ws : List Byte) (done : Export) : logReply p seqNo op status last ws done d =
      queueOwn p ⟨.own, 4, 0, d.srcAddr, 0, seqNo, leBytes 4 (b2n last * 65536 + status * 256 + op) ++ ws, done⟩ d := by
  rw [logReply]
  refine portKick_busy ?_
  rw [queueOwn, cport_portMod_same]
  exact h

section
variable {p : Port} {f : Frame} {rest : List Frame} {d : Dev} (h : d.hasLogFrame p f rest)
include h

/-- A wanted request is taken and run. -/
theorem logFrame_taken {want : Nat → Bool} (hw : want (leAt f.payload 0 1) = true) (g : Frame → Dev → Dev) :
    logFrame p want g d = g f (takeFrame p d) := by
  simp [logFrame, h.head, h.kind, hw]

theorem taken_sending (q : Port) : ((takeFrame p d).cport q).sending.isSome = true := by
  rw [takeFrame_sending h.head, h.busy q]

end

/-- What a LOG request leaves when its reply has been queued: the bobbin has lost it, the reply waits at its port, and
nothing else changed but what the taking shows and the registers `L`. -/
structure Dev.logAnswered (p : Port) (L : List Nat) (rest : List Frame) (reply : Frame) (d t : Dev) : Prop where
  taken : (t.cport p).rxQ = rest
  queued : (t.cport p).ownQ = (d.cport p).ownQ ++ [reply]
  touches : Dev.touches .event [.chain] (takenRegs p ++ L) d t

section
variable {p : Port} {f : Frame} {rest : List Frame} {d : Dev}

/-- From the request taken to a device `u` that differs in the log unit only, and its reply queued. -/
theorem logAnswered_queueOwn (h : d.hasLogFrame p f rest) {u : Dev} (hu : Dev.touches .event [] L (takeFrame p d) u)
    (reply : Frame) : d.logAnswered p L rest reply (queueOwn p reply u) := by
  have hchain : u.chain = (takeFrame p d).chain := hu.parts .chain (by simp) (by decide)
  refine ⟨?_, ?_, ?_⟩
  · rw [queueOwn, cport_portMod_of (·.rxQ) (fun _ => by rfl), cport_of_chain hchain, takeFrame_rxQ h.head]
  · rw [queueOwn, cport_portMod_same, cport_of_chain hchain, takeFrame_ownQ h.head]
  · exact ((takeFrame_touches (by simp) (by simp) d).trans (hu.mono (by simp) (by simp))).trans
      (queueOwn_touches (by simp) p reply u)

/-- The event that ends the request leaves the queues. -/
theorem logAnswered_occur {reply : Frame} {u : Dev} (hu : d.logAnswered p L rest reply u) (e : Nat) (he : e < 256) :
    d.logAnswered p L rest reply (occur e 0xFF 0 u) := by
  have hoccur : Dev.touches .event [] [] u (occur e 0xFF 0 u) := .occur e 0xFF 0 u he
  have hchain : (occur e 0xFF 0 u).chain = u.chain := hoccur.parts .chain (by simp) (by decide)
  refine ⟨?_, ?_, hu.touches.trans (hoccur.mono (by simp) (by simp))⟩
  · rw [cport_of_chain hchain, hu.taken]
  · rw [cport_of_chain hchain, hu.queued]

/-- What the statement says beside the queues. -/
theorem logAnswered_withEvent {reply : Frame} {t : Dev} (h : d.logAnswered p L rest reply t) :
    Dev.withEvent (takenRegs p ++ L) { d with chain := t.chain } t := h.touches.withEvent

end

/-! ### The records in the flash depend on the flash alone -/

section
variable {d t : Dev} (hf : t.flash = d.flash) (hs : t.start = d.start)
include hf

theorem flashBytes_congr (a n : Nat) : t.flashBytes a n = d.flashBytes a n := by simp only [Dev.flashBytes, hf]

theorem sectorHeader_congr (k : Nat) : t.sectorHeader k = d.sectorHeader k := by
  simp only [Dev.sectorHeader, flashBytes_congr hf]

theorem recordsFrom_congr (base k off : Nat) : recordsFrom t base k off = recordsFrom d base k off := by
  induction k generalizing off with
  | zero => rfl
  | succ k ih =>
    simp only [recordsFrom, Dev.flashWord, flashBytes_congr hf, ih]
    rfl

theorem sectorRecords_congr (k : Nat) : t.sectorRecords k = d.sectorRecords k := recordsFrom_congr hf _ _ _

include hs

theorem usedSectors_congr : t.usedSectors = d.usedSectors := by
  simp only [Dev.usedSectors, Dev.logSectors, sectorHeader_congr hf, hs]

theorem flashRecords_congr : t.flashRecords = d.flashRecords := by
  simp only [Dev.flashRecords, usedSectors_congr hf hs, sectorRecords_congr hf]

end

/-! ### What each request answers -/

theorem portNo_val (p : Port) : portNo p.val = p := by
  revert p
  decide

/-- The taking of a frame leaves the registers of the log to its occurrences. -/
theorem walReg_kept (p : Port) {a : Nat} (h : 0x120000 ≤ a := by decide) : a ∉ takenRegs p := by
  simp only [takenRegs, CRLB_RD, CRLB_FILL, CRLB_STATUS, CRL_EVT_BOBBIN, List.mem_cons, List.not_mem_nil, or_false]
  omega

theorem srcAddr_congr {d t : Dev} (h : t.reg NET_STATUS = d.reg NET_STATUS) : t.srcAddr = d.srcAddr := by
  simp only [Dev.srcAddr, Dev.on, Dev.get, h]
  rfl

/-- The last frame of the READ that runs: `l` is all that it asked for. -/
theorem logReadNext_ends {d : Dev} {r : LogRead} {p : Port} {l : List FlashRec} {n : Nat} (hread : d.wal.read = some r)
    (hport : portNo r.port = p) (hgap : r.gap = false) (hleft : r.left = some n)
    (hl : fillFrame r.last (d.flashRecords.dropWhile fun (x : FlashRec) => seqLater r.next x.2.2.1) n 8184 = l)
    (hn : l.length = n) (hbusy : (d.cport p).sending.isSome = true) :
    logReadNext d = occur 244 0xFF 0 (queueOwn p
      ⟨.own, 4, 0, d.srcAddr, 0, r.seqNo,
        leBytes 4 (65536 + 0x81) ++ (leBytes 4 l.length ++ l.flatMap fun (x : FlashRec) => d.flashBytes x.1 x.2.1), .none⟩
      ((d.walMod fun w => { w with read := none }).put WAL_STATUS_READOUT 0)) := by
  have hsrc : ((d.walMod fun w => { w with read := none }).put WAL_STATUS_READOUT 0).srcAddr = d.srcAddr := by
    exact srcAddr_congr ((reg_put_ne _ _ _ (by decide)).trans (walMod_reg d _ _))
  have hsend : (((d.walMod fun w => { w with read := none }).put WAL_STATUS_READOUT 0).cport p).sending.isSome = true := by
    rwa [cport_of_chain ((put_chain _ _ _).trans (walMod_chain d _))]
  unfold logReadNext
  rw [hread]
  simp only [hport, hgap, hleft, Option.getD_some, hl, Option.map_some, hn, Nat.sub_self, decide_true, Bool.or_true,
    Bool.true_or, if_true, Bool.not_true, b2n, Bool.false_eq_true, if_false]
  rw [logReply_busy hsend, hsrc]
  simp [b2n]

section
variable {p : Port} {f : Frame} {rest : List Frame} {d : Dev} (h : d.hasLogFrame p f rest)
include h

/-- A request that only answers. -/
theorem logReply_taken (op status : Nat) (ws : List Byte) :
    d.logAnswered p [] rest
      ⟨.own, 4, 0, d.srcAddr, 0, f.seqNo, leBytes 4 (65536 + status * 256 + op) ++ ws, .none⟩
      (logReply p f.seqNo op status true ws .none (takeFrame p d)) := by
  rw [logReply_busy (taken_sending h p), takeFrame_srcAddr]
  exact logAnswered_queueOwn h (.refl _) _

/-- The event that ends a READ, and the reply before it. -/
theorem logEnded {reply : Frame} {v : Dev} (hv : Dev.touches .event [] [WAL_STATUS] (takeFrame p d) v)
    (hread : v.wal.read = none) (hoff : v.on WAL_STATUS_READOUT = false) :
    let t := occur 244 0xFF 0 (queueOwn p reply v)
    d.logAnswered p [WAL_STATUS] rest reply t ∧ t.pends 244 ∧ t.wal.read = none ∧ t.on WAL_STATUS_READOUT = false := by
  have hlog : (queueOwn p reply v).logs (occur 244 0xFF 0 (queueOwn p reply v)) := occur_logs 244 0xFF 0 _
  have hoccur : Dev.touches .event [] [] (queueOwn p reply v) (occur 244 0xFF 0 (queueOwn p reply v)) := .occur 244 0xFF 0 _
  refine ⟨logAnswered_occur (logAnswered_queueOwn h hv reply) 244 (by decide), occur_pends 244 0xFF 0 _ (by decide), ?_, ?_⟩
  · rw [hlog.wal.read]
    exact hread
  · rw [hoccur.on (by simp) (by decide), queueOwn, portMod_on, hoff]

/-- No READ runs any more, as WAL_STATUS shows. -/
theorem readout_ends {u : Dev} (hu : Dev.touches .event [] [] (takeFrame p d) u) (reply : Frame) :
    let t := occur 244 0xFF 0 (queueOwn p reply ((u.walMod fun w => { w with read := none }).put WAL_STATUS_READOUT 0))
    d.logAnswered p [WAL_STATUS] rest reply t ∧ t.pends 244 ∧ t.wal.read = none ∧ t.on WAL_STATUS_READOUT = false :=
  logEnded h (((hu.mono (by simp) (by simp)).trans (walMod_touches (by decide) _ u)).trans (.put _ _ _ (by simp)))
    (by rw [put_wal, walMod_wal]) (on_put_zero _ _ rfl (by decide))

/-- A READ whose records fit in one frame. -/
theorem logRead_spec {l : List FlashRec} (hready : d.wal.ready = true) (hread : d.wal.read = none)
    (hnew : seqLater (d.reg WAL_FIRST_SEQ) (leAt f.payload 4 4) = false)
    (hl : l = fillFrame (d.reg WAL_LAST_SEQ)
      (d.flashRecords.dropWhile fun (x : FlashRec) => seqLater (leAt f.payload 4 4) x.2.2.1) (leAt f.payload 8 4) 8184)
    (hlen : l.length = leAt f.payload 8 4) (hne : l ≠ []) :
    let t := logRead p f (takeFrame p d)
    d.logAnswered p [WAL_STATUS] rest ⟨.own, 4, 0, d.srcAddr, 0, f.seqNo, leBytes 4 (65536 + 0x81)
        ++ (leBytes 4 l.length ++ l.flatMap fun (x : FlashRec) => d.flashBytes x.1 x.2.1), .none⟩ t ∧
      t.pends 244 ∧ t.wal.read = none ∧ t.on WAL_STATUS_READOUT = false := by
  intro t
  have htake := takeFrame_touches (P := [.chain]) (by simp) (List.Subset.refl (takenRegs p)) d
  have hlog : d.wal.stages (takeFrame p d).wal := (takeFrame_logs p d).wal
  have hflash : (takeFrame p d).flash = d.flash := htake.parts .flash (by simp) (by decide)
  have hstart : (takeFrame p d).start = d.start := htake.parts .start (by simp) (by decide)
  have hreg {a : Nat} (ha : a ∉ takenRegs p) (he : eventReg a = false) : (takeFrame p d).reg a = d.reg a := htake.reg ha he
  have hn : leAt f.payload 8 4 ≠ 0 := by
    rw [← hlen]
    exact fun h0 => hne (List.length_eq_zero_iff.1 h0)
  have hport : portNo p.val = p := portNo_val p
  generalize hr : LogRead.mk p.val f.seqNo (leAt f.payload 4 4) (d.reg WAL_LAST_SEQ) (some (leAt f.payload 8 4)) false = r
  generalize hu : ((takeFrame p d).walMod fun w => { w with read := some r }) = u
  have ht : t = logReadNext u := by
    simp only [t, logRead, hlog.ready, hlog.read, hready, hread, hreg (walReg_kept p) (by decide : eventReg WAL_FIRST_SEQ = false),
      hreg (walReg_kept p) (by decide : eventReg WAL_LAST_SEQ = false), hnew, hn, Bool.not_true, Bool.false_eq_true, if_false,
      Option.isSome_none, hr, hu]
  have hreadu : u.wal.read = some r := by rw [← hu, walMod_wal]
  have htouch : Dev.touches .event [] [] (takeFrame p d) u := by
    rw [← hu]
    exact walMod_touches (by decide) _ _
  have hflashu : u.flash = d.flash := (htouch.parts .flash (by simp) (by decide)).trans hflash
  have hstartu : u.start = d.start := (htouch.parts .start (by simp) (by decide)).trans hstart
  have hsrc : u.srcAddr = d.srcAddr := (srcAddr_congr (htouch.reg (by simp) (by decide))).trans (takeFrame_srcAddr p d)
  have hbusy : (u.cport p).sending.isSome = true := by
    rw [cport_of_chain (htouch.parts .chain (by simp) (by decide))]
    exact taken_sending h p
  have hlu : fillFrame r.last (u.flashRecords.dropWhile fun (x : FlashRec) => seqLater r.next x.2.2.1)
      (leAt f.payload 8 4) 8184 = l := by
    rw [flashRecords_congr hflashu hstartu, hl, ← hr]
  rw [ht, logReadNext_ends hreadu (by rw [← hr]; exact hport) (by rw [← hr]) (by rw [← hr]) hlu hlen hbusy]
  simp only [hsrc, flashBytes_congr hflashu, ← hr]
  exact readout_ends h htouch _

end

section
variable {p : Port} {f : Frame} {rest : List Frame} {d : Dev} (h : d.hasLogFrame p f rest)
include h

/-- ABORT of a READ that runs. -/
theorem logAbort_spec (hready : d.wal.ready = true) (hread : d.wal.read.isSome = true) :
    let t := logAbort p f (takeFrame p d)
    d.logAnswered p [WAL_STATUS] rest ⟨.own, 4, 0, d.srcAddr, 0, f.seqNo, leBytes 4 (65536 + 0x82) ++ [], .none⟩ t ∧
      t.pends 244 ∧ t.wal.read = none ∧ t.on WAL_STATUS_READOUT = false := by
  have hlog : d.wal.stages (takeFrame p d).wal := (takeFrame_logs p d).wal
  generalize hv : ((takeFrame p d).walMod fun w => { w with read := none }).put WAL_STATUS_READOUT 0 = v
  have hsrc : v.srcAddr = d.srcAddr := by
    rw [← hv]
    exact (srcAddr_congr ((reg_put_ne _ _ _ (by decide)).trans (walMod_reg _ _ _))).trans (takeFrame_srcAddr p d)
  have hbusy : (v.cport p).sending.isSome = true := by
    rw [← hv, cport_of_chain ((put_chain _ _ _).trans (walMod_chain _ _))]
    exact taken_sending h p
  have ht : logAbort p f (takeFrame p d) = occur 244 0xFF 0 (queueOwn p
      ⟨.own, 4, 0, d.srcAddr, 0, f.seqNo, leBytes 4 (65536 + 0x82) ++ [], .none⟩ v) := by
    simp only [logAbort, hlog.ready, hlog.read, hready, hread, if_true, hv]
    rw [logReply_busy hbusy, hsrc]
    rfl
  rw [ht, ← hv]
  exact readout_ends h (.refl _) _

omit h in
/-- INFO of a log that is ready. -/
theorem logInfo_ready (hready : d.wal.ready = true) : logInfo p f (takeFrame p d) =
    logReply p f.seqNo 0x83 0 true (wordsBytes
      [d.reg WAL_FIRST_SEQ, d.reg WAL_LAST_SEQ, d.reg WAL_SECTORS, d.reg WAL_POWER_CYCLES, d.reg WAL_OP_TIME]) .none
      (takeFrame p d) := by
  have hlog : d.wal.stages (takeFrame p d).wal := (takeFrame_logs p d).wal
  have htake := takeFrame_touches (P := [.chain]) (by simp) (List.Subset.refl (takenRegs p)) d
  have hreg {a : Nat} (ha : a ∉ takenRegs p) (he : eventReg a = false) : (takeFrame p d).reg a = d.reg a := htake.reg ha he
  simp only [logInfo, hlog.ready, hready, Bool.not_true, Bool.false_eq_true, if_false,
    hreg (walReg_kept p) (by decide : eventReg WAL_FIRST_SEQ = false),
    hreg (walReg_kept p) (by decide : eventReg WAL_LAST_SEQ = false),
    hreg (walReg_kept p) (by decide : eventReg WAL_SECTORS = false),
    hreg (walReg_kept p) (by decide : eventReg WAL_POWER_CYCLES = false),
    hreg (walReg_kept p) (by decide : eventReg WAL_OP_TIME = false)]

omit h in
theorem logInfo_notReady (hready : d.wal.ready = false) :
    logInfo p f (takeFrame p d) = logReply p f.seqNo 0x83 4 true [] .none (takeFrame p d) := by
  have hlog : d.wal.stages (takeFrame p d).wal := (takeFrame_logs p d).wal
  simp only [logInfo, hlog.ready, hready, Bool.not_false, if_true]

end

theorem exec_logRead (p : Port) (s : State) :
    exec (.logRead p) s = actIn domFab (logFrame p (· == 1) (logRead p)) s := rfl

theorem exec_logAbort (p : Port) (s : State) :
    exec (.logAbort p) s = actIn domFab (logFrame p (· == 2) (logAbort p)) s := rfl

theorem exec_logInfo (p : Port) (s : State) :
    exec (.logInfo p) s = actIn domFab (logFrame p (· == 3) (logInfo p)) s := rfl

theorem exec_logBadOp (p : Port) (s : State) :
    exec (.logBadOp p) s = actIn domFab (logFrame p (fun op => op == 0 || 4 < op) (logBadOp p)) s := rfl

/-- The command whose request has been answered leaves what the answer leaves. -/
theorem actIn_answered {p : Port} {f : Frame} {rest : List Frame} {s : State} (hrun : s.dev.runs domFab = true)
    (hcalm : s.dev.calm) (h : s.dev.hasLogFrame p f rest) {want : Nat → Bool} (hw : want (leAt f.payload 0 1) = true)
    {g : Frame → Dev → Dev} {t : Dev} (ht : g f (takeFrame p s.dev) = t) {reply : Frame} (ha : s.dev.logAnswered p L rest reply t) :
    actIn domFab (logFrame p want g) s = .next { s with dev := t } := by
  have hf := (logFrame_taken h hw g).trans ht
  have htouch := ha.touches
  rw [← hf] at htouch ⊢
  exact actIn_touches hrun hcalm htouch

/-- Settles O42: the request is taken from its bobbin and its reply waits at the busy port; a READ whose records fit in one
frame, and an ABORT, end the reading with E244. -/
theorem logRequests : Obligations.LogRequests := by
  unfold Obligations.LogRequests
  intro p f rest l s hrun hcalm hhead hkind hbusy0 hbusy1
  have h : s.dev.hasLogFrame p f rest := ⟨hhead, hkind, fun q => by
    match q with
    | 0 => exact hbusy0
    | 1 => exact hbusy1⟩
  refine ⟨?_, ?_, ?_, ?_, ?_⟩
  · intro hop hready hread hnew hl hlen hne
    obtain ⟨hans, hpend, hidle, hoff⟩ := logRead_spec h hready hread hnew hl hlen hne
    exact ⟨_, (exec_logRead p s).trans (actIn_answered hrun hcalm h (by simp [hop]) rfl hans),
      hans.taken, hans.queued, hpend, hidle, hoff, logAnswered_withEvent hans⟩
  · intro hop hready hread
    obtain ⟨hans, hpend, hidle, hoff⟩ := logAbort_spec h hready hread
    exact ⟨_, (exec_logAbort p s).trans (actIn_answered hrun hcalm h (by simp [hop]) rfl hans),
      hans.taken, hans.queued, hpend, hidle, hoff, logAnswered_withEvent hans⟩
  · intro hop hready
    have hans := logReply_taken h 0x83 0 (wordsBytes [s.dev.reg WAL_FIRST_SEQ, s.dev.reg WAL_LAST_SEQ,
      s.dev.reg WAL_SECTORS, s.dev.reg WAL_POWER_CYCLES, s.dev.reg WAL_OP_TIME])
    exact ⟨_, (exec_logInfo p s).trans (actIn_answered hrun hcalm h (by simp [hop]) (logInfo_ready hready) hans),
      hans.taken, hans.queued, logAnswered_withEvent hans⟩
  · intro hop
    have hans := logReply_taken h 0x80 3 []
    exact ⟨_, (exec_logBadOp p s).trans (actIn_answered hrun hcalm h (by simpa using hop) rfl hans),
      hans.taken, hans.queued, logAnswered_withEvent hans⟩
  · intro hready hop
    have hans := logReply_taken h 0x83 4 []
    exact ⟨_, (exec_logInfo p s).trans (actIn_answered hrun hcalm h (by simp [hop]) (logInfo_notReady hready) hans),
      hans.taken, hans.queued⟩

/-!
PROOFS about dropped records, the HOURS records and LOAD (R591, R599, R601).
-/

/-! ### Dropped records (R599) -/

/-- An event that is not logged is marked and no more. -/
theorem occur_unlogged {e : Nat} {d : Dev} (h : d.on (EVT_CFG_LOG e) = false) (inst code : Nat) :
    occur e inst code d = markEvent e inst code d := by
  simp [occur, occurN, h]

theorem markEvent_wal (e inst code : Nat) (d : Dev) : (markEvent e inst code d).wal = d.wal := by
  simp only [markEvent]
  split <;> rfl

theorem markEvent_reg {e a : Nat} (h : a ∉ [EVT_FLAGS, EVT_LAST, EVT_COUNT e, EVT_PEND (e / 32)]) (inst code : Nat) (d : Dev) :
    (markEvent e inst code d).reg a = d.reg a := by
  simp only [List.mem_cons, List.not_mem_nil, or_false, not_or] at h
  obtain ⟨hflags, hlast, hcount, hpend⟩ := h
  have hshown : (((d.count (EVT_COUNT e) 1).setReg (EVT_PEND (e / 32))
      (setBit ((d.count (EVT_COUNT e) 1).reg (EVT_PEND (e / 32))) (e % 32) true)).setReg EVT_LAST (code * 256 + e)).reg a =
        d.reg a := by
    rw [reg_setReg_ne _ _ hlast, reg_setReg_ne _ _ hpend, reg_count_ne _ _ hcount]
  simp only [markEvent]
  rw [reg_mk]
  split
  · rw [reg_put_ne _ _ _ hflags, hshown]
  · exact hshown

/-- Registers that an occurrence may change anyway need no name. -/
theorem Dev.touches.trim {M : List Nat} {d t : Dev} (h : Dev.touches m P L d t) (hL : ∀ a ∈ L, a ∈ M ∨ m.reg a = true) :
    Dev.touches m P M d t where
  regs a ha hm := h.regs a (fun hl => (hL a hl).elim ha (by simp [hm])) hm
  parts := h.parts
  calm := h.calm
  pends := h.pends

/-- The log with one more record dropped, counted by `f`. -/
def WaleLog.dropped (w : WaleLog) (f : Nat × Nat × Nat → Nat × Nat × Nat) : WaleLog := { w with lost := f w.lost, dropRun := true }

/-- The drop of a record as `logDrop` counts it. -/
def dropCounted (f : Nat × Nat × Nat → Nat × Nat × Nat) (d : Dev) : Dev := (d.count WAL_DROPS 1).walMod fun w => w.dropped f

/-- The first drop of a run. -/
def dropOpens (d : Dev) : Dev := occur 241 0xFF 0x88 ((d.put WAL_FLAGS_DROP 1).count (EVT_FLT_COUNT 0x88) 1)

theorem logDrop_full {d : Dev} (h : d.logReserve < stagedBytes d.wal.staged ∨ d.logCapacity < stagedBytes d.wal.staged + 64) :
    logDrop 0 d = if d.wal.dropRun then dropCounted (fun l => (l.1 + 1, l.2)) d
      else dropOpens (dropCounted (fun l => (l.1 + 1, l.2)) d) := by
  cases hrun : d.wal.dropRun <;> simp [logDrop, h, hrun, dropOpens, dropCounted, WaleLog.dropped]

theorem logDrop_stopped {d : Dev} (h : d.wal.fails = 3) (hfull : d.logCapacity < stagedBytes d.wal.staged + 64) :
    logDrop 2 d = if d.wal.dropRun then dropCounted (fun l => (l.1, l.2.1, l.2.2 + 1)) d
      else dropOpens (dropCounted (fun l => (l.1, l.2.1, l.2.2 + 1)) d) := by
  cases hrun : d.wal.dropRun <;> simp [logDrop, h, hfull, hrun, dropOpens, dropCounted, WaleLog.dropped]

theorem dropCounted_reg (f : Nat × Nat × Nat → Nat × Nat × Nat) (d : Dev) :
    (dropCounted f d).reg WAL_DROPS = min (d.reg WAL_DROPS + 1) 0xFFFFFFFF := by
  rw [dropCounted, walMod_reg, reg_count_same]

theorem dropCounted_wal (f : Nat × Nat × Nat → Nat × Nat × Nat) (d : Dev) : (dropCounted f d).wal = d.wal.dropped f := by
  rw [dropCounted, walMod_wal, count_wal]

theorem dropCounted_touches (hP : Part.wal ∈ P ++ m.parts) (hL : WAL_DROPS ∈ L) (f : Nat × Nat × Nat → Nat × Nat × Nat) (d : Dev) :
    Dev.touches m P L d (dropCounted f d) := (Dev.touches.count d _ 1 hL).trans (walMod_touches hP _ _)

/-- With E241 unlogged the first drop of a run leaves the log unit, sets DROP and counts LOG_DROP. -/
theorem dropOpens_spec {d : Dev} (h : d.on (EVT_CFG_LOG 241) = false) :
    let t := dropOpens d
    t.wal = d.wal ∧ t.reg WAL_DROPS = d.reg WAL_DROPS ∧ t.pends 241 ∧ t.on WAL_FLAGS_DROP = true ∧
      t.reg (EVT_FLT_COUNT 0x88) = min (d.reg (EVT_FLT_COUNT 0x88) + 1) 0xFFFFFFFF := by
  intro t
  have hlog : ((d.put WAL_FLAGS_DROP 1).count (EVT_FLT_COUNT 0x88) 1).on (EVT_CFG_LOG 241) = false := by
    rw [← h]
    exact on_congr ((reg_count_ne _ _ (by decide)).trans (reg_put_ne _ _ _ (by decide)))
  have ht : t = markEvent 241 0xFF 0x88 ((d.put WAL_FLAGS_DROP 1).count (EVT_FLT_COUNT 0x88) 1) := occur_unlogged hlog _ _
  refine ⟨?_, ?_, occur_pends 241 0xFF 0x88 _ (by decide), ?_, ?_⟩
  · rw [ht, markEvent_wal, count_wal, put_wal]
  · rw [ht, markEvent_reg (by decide), reg_count_ne _ _ (by decide), reg_put_ne _ _ _ (by decide)]
  · rw [ht, on_congr (markEvent_reg (by decide) _ _ _), on_congr (reg_count_ne _ _ (by decide))]
    exact on_put_one _ _ rfl (by decide)
  · rw [ht, markEvent_reg (by decide), reg_count_same, reg_put_ne _ _ _ (by decide)]

/-- A record lost for the cause that `f` counts. -/
theorem drop_spec {d : Dev} (h : d.on (EVT_CFG_LOG 241) = false) (f : Nat × Nat × Nat → Nat × Nat × Nat) :
    let t := if d.wal.dropRun then dropCounted f d else dropOpens (dropCounted f d)
    t.reg WAL_DROPS = min (d.reg WAL_DROPS + 1) 0xFFFFFFFF ∧ t.wal = d.wal.dropped f ∧
      (d.wal.dropRun = false → t.pends 241 ∧ t.on WAL_FLAGS_DROP = true ∧
        t.reg (EVT_FLT_COUNT 0x88) = min (d.reg (EVT_FLT_COUNT 0x88) + 1) 0xFFFFFFFF) ∧
      Dev.touches .event [] [] d t := by
  intro t
  have hcounted : Dev.touches .event [] [WAL_DROPS] d (dropCounted f d) := dropCounted_touches (by decide) (by simp) f d
  have hopens : Dev.touches .event [] [WAL_FLAGS, EVT_FLT_COUNT 0x88] (dropCounted f d) (dropOpens (dropCounted f d)) :=
    ((Dev.touches.put _ _ _ (by simp)).trans (.count _ _ 1 (by simp))).trans (.occur 241 0xFF 0x88 _)
  have hlog : (dropCounted f d).on (EVT_CFG_LOG 241) = false := (hcounted.on (by decide) (by decide)).trans h
  obtain ⟨hwal, hdrops, hpend, hflag, hcount⟩ := dropOpens_spec hlog
  cases hrun : d.wal.dropRun with
  | true =>
    have ht : t = dropCounted f d := if_pos hrun
    rw [ht]
    exact ⟨dropCounted_reg f d, dropCounted_wal f d, nofun, hcounted.trim (by simp [Reach.reg, eventReg])⟩
  | false =>
    have ht : t = dropOpens (dropCounted f d) := if_neg (by simp [hrun])
    rw [ht]
    refine ⟨hdrops.trans (dropCounted_reg f d), hwal.trans (dropCounted_wal f d), fun _ => ⟨hpend, hflag, ?_⟩, ?_⟩
    · rw [hcount, dropCounted, walMod_reg, reg_count_ne _ _ (by decide)]
    · exact (hcounted.trim (by simp [Reach.reg, eventReg])).trans (hopens.trim (by simp [Reach.reg, eventReg]))

/-- A Creel error takes the oldest staged record (R415). -/
theorem logDrop_oldest {d : Dev} (hearly : d.earlyLog = false) (hne : d.wal.staged ≠ []) (hrun : d.wal.dropRun = true) :
    logDrop 1 d = showStaged (dropCounted (fun l => (l.1, l.2.1 + 1, l.2.2))
      (d.walMod fun w => { w with staged := w.staged.drop 1 })) := by
  simp [logDrop, hearly, hne, Dev.walMod, hrun, dropCounted, WaleLog.dropped]

theorem showStaged_touches (hP : Part.wal ∈ P ++ m.parts) (hL : WAL_STAGED ∈ L) (d : Dev) :
    Dev.touches m P L d (showStaged d) := by
  unfold showStaged
  exact (Dev.touches.setReg d WAL_STAGED _ hL).trans (walMod_touches hP _ _)

theorem showStaged_wal (d : Dev) :
    (showStaged d).wal = { d.wal with above := decide (d.logReserve < stagedBytes d.wal.staged) } := by
  simp only [showStaged]
  rw [walMod_wal, setReg_wal]

theorem showStaged_reg {a : Nat} (h : a ≠ WAL_STAGED) (d : Dev) : (showStaged d).reg a = d.reg a := by
  simp only [showStaged]
  rw [walMod_reg, reg_setReg_ne _ _ h]

/-! ### HOURS records (R591) -/

/-- A record that staging has room for below the reserve, with no LOST record waiting, is staged and no more. -/
theorem stage_fits {r : LogRec} {d : Dev} (hlost : d.wal.lost = (0, 0, 0))
    (hreserve : stagedBytes d.wal.staged + r.room ≤ d.logReserve)
    (hcap : stagedBytes d.wal.staged + r.room ≤ d.logCapacity) :
    stage r d = ({ d with wal := { d.wal with staged := d.wal.staged ++ [r], dropRun := false, above := false } }).setReg
      WAL_STAGED (stagedBytes d.wal.staged + r.room) := by
  have hneed : stagedBytes [r] = r.room := by simp [stagedBytes]
  have hin : ¬ d.logReserve < stagedBytes d.wal.staged := by omega
  have hbelow : ¬ d.logReserve < stagedBytes d.wal.staged + r.room := by omega
  have hroom : ¬ d.logCapacity < stagedBytes d.wal.staged + r.room := by omega
  simp [stage, stageRec, hlost, hneed, hin, hbelow, hroom]

theorem walMod_logReserve (d : Dev) (f : WaleLog → WaleLog) : (d.walMod f).logReserve = d.logReserve := by
  simp only [Dev.logReserve, walMod_reg]

theorem walMod_logCapacity (d : Dev) (f : WaleLog → WaleLog) : (d.walMod f).logCapacity = d.logCapacity := by
  simp only [Dev.logCapacity, Dev.earlyLog, walMod_reg, walMod_get]
  rfl

theorem hoursRecord_due {d : Dev} (hn : d.get WAL_OP_INT_OP_INT ≠ 0) (hdue : d.get WAL_OP_INT_OP_INT * 60 ≤ d.wal.sinceHours) :
    hoursRecord d = stage (d.logRec 10 0 [] false)
      (d.walMod fun w => { w with sinceHours := w.sinceHours - d.get WAL_OP_INT_OP_INT * 60 }) := by
  have hlate : ¬ d.wal.sinceHours < d.get WAL_OP_INT_OP_INT * 60 := by omega
  simp [hoursRecord, hn, hlate]

/-! ### LOAD (R601) -/

/-- The words of a record in the buffer. -/
def bufferFilled (ws : List Nat) (d : Dev) : Dev :=
  (List.range 512).foldl (fun (t : Dev) i => t.setReg (WAL_RD_BUF i) (ws.getD i 0)) d

theorem logLoad_held {d : Dev} {a len n : Nat} {good : Bool} (hready : d.wal.ready = true)
    (h : d.recordAt (d.reg WAL_RD_SEQ) = some (a, len, n, good)) :
    logLoad d = ((bufferFilled (bytesWords (d.flashBytes a len)) d).setReg WAL_RD_LOADED n).setReg WAL_RD_STAT
      (len * 65536 + (if !good then 3 else if n = d.reg WAL_RD_SEQ then 0 else 1) * 4) := by
  simp only [logLoad, hready, if_true, h, bufferFilled]

theorem logLoad_none {d : Dev} (h : d.wal.ready = true → d.recordAt (d.reg WAL_RD_SEQ) = none) :
    logLoad d = d.setReg WAL_RD_STAT 8 := by
  have hnone : (if d.wal.ready then d.recordAt (d.reg WAL_RD_SEQ) else none) = none := by
    split
    · next hready => exact h hready
    · rfl
  simp only [logLoad, hnone]

theorem bufferFilled_touches (hL : ∀ i, i < 512 → WAL_RD_BUF i ∈ L) (ws : List Nat) (d : Dev) :
    Dev.touches m P L d (bufferFilled ws d) :=
  .foldl_setReg _ _ _ d (fun i hi => hL i (List.mem_range.1 hi))
    (fun i hi => silentReg_of_block (n := 0x12) (by have := List.mem_range.1 hi; simp only [WAL_RD_BUF]; omega))

/-- Each of the words `l` of the buffer holds what was stored in it. -/
theorem bufferWords_reg (v : Nat → Nat) {l : List Nat} (d : Dev) {i : Nat} (hi : i ∈ l) :
    (l.foldl (fun (t : Dev) i => t.setReg (WAL_RD_BUF i) (v i)) d).reg (WAL_RD_BUF i) = v i % 2 ^ 32 := by
  refine obs_foldl (g := fun (t : Dev) j => t.setReg (WAL_RD_BUF j) (v j)) (I := fun _ => True) (obs := fun t : Dev => t.reg (WAL_RD_BUF i)) hi
    (fun _ _ _ _ => trivial) (fun u _ => reg_setReg_same u _ (v i)) (fun u j _ hne => ?_) trivial
  exact reg_setReg_ne u _ (by simp only [WAL_RD_BUF]; omega)

theorem bufferFilled_reg (ws : List Nat) (d : Dev) {i : Nat} (hi : i < 512) :
    (bufferFilled ws d).reg (WAL_RD_BUF i) = ws.getD i 0 % 2 ^ 32 := 
  bufferWords_reg (fun i => ws.getD i 0) d (List.mem_range.2 hi)

theorem exec_logDrop (c : Fin 3) (s : State) : exec (.logDrop c) s = actIn domFab (logDrop c) s := rfl

theorem exec_hoursRecord (s : State) : exec .hoursRecord s = actIn domFab hoursRecord s := rfl

theorem exec_logLoad (s : State) : exec .logLoad s = actIn domFab logLoad s := rfl

/-- Settles O41: the drop of a record by its three causes, the HOURS record that is due, and the two ends of LOAD. -/
theorem logStagingAndLoad : Obligations.LogStagingAndLoad := by
  unfold Obligations.LogStagingAndLoad
  intro c a len n good s hrun hcalm
  refine ⟨?_, ?_, ?_, ?_, ?_⟩
  · intro hc h0 h2 hlog
    have hdrop : ∃ f : Nat × Nat × Nat → Nat × Nat × Nat, logDrop c s.dev =
        (if s.dev.wal.dropRun then dropCounted f s.dev else dropOpens (dropCounted f s.dev)) ∧
        ∀ l, f l = (l.1 + (if c.val = 0 then 1 else 0), l.2.1, l.2.2 + (if c.val = 2 then 1 else 0)) := by
      match c with
      | 0 => exact ⟨_, logDrop_full (h0 rfl), fun l => rfl⟩
      | 1 => exact absurd rfl hc
      | 2 => exact ⟨_, logDrop_stopped (h2 rfl).1 (h2 rfl).2, fun l => rfl⟩
    obtain ⟨f, ht, hf⟩ := hdrop
    obtain ⟨hcount, hwal, hopen, htouch⟩ := drop_spec hlog f
    rw [← ht] at hcount hwal hopen htouch
    refine ⟨_, (exec_logDrop c s).trans (actIn_touches hrun hcalm htouch), hcount, ?_, hopen, htouch.withEvent⟩
    rw [hwal, WaleLog.dropped, hf]
  · intro hearly hne hdrop
    have ht := logDrop_oldest hearly hne hdrop
    have htouch : Dev.touches .plain [.wal] [WAL_DROPS, WAL_STAGED] s.dev (logDrop 1 s.dev) := by
      rw [ht]
      exact ((walMod_touches (by decide) _ _).trans (dropCounted_touches (by decide) (by simp) _ _)).trans
        (showStaged_touches (by decide) (by simp) _)
    refine ⟨_, (exec_logDrop 1 s).trans (actIn_touches hrun hcalm htouch), ?_, ?_, ?_, htouch.regsOnly⟩
    · rw [ht, showStaged_reg (by decide), dropCounted_reg, walMod_reg]
    · rw [ht, showStaged_wal, dropCounted_wal, walMod_wal]
      rfl
    · rw [ht, showStaged_wal, dropCounted_wal, walMod_wal]
      rfl
  · intro hn hdue hlost hreserve hcap
    have hroom : (s.dev.logRec 10 0 [] false).room = 64 := by simp [LogRec.room, LogRec.len, Dev.logRec, divUp]
    have ht := (hoursRecord_due hn hdue).trans (stage_fits (r := s.dev.logRec 10 0 [] false) hlost
      (by rw [walMod_logReserve, walMod_wal, hroom]; exact hreserve) (by rw [walMod_logCapacity, walMod_wal, hroom]; exact hcap))
    have htouch : Dev.touches .plain [.wal] [WAL_STAGED] s.dev (hoursRecord s.dev) := by
      rw [ht]
      exact (walMod_touches (by decide) (fun _ => _) s.dev).trans (.setReg _ _ _ (by simp))
    refine ⟨_, (exec_hoursRecord s).trans (actIn_touches hrun hcalm htouch), ?_, htouch.regsOnly⟩
    rw [ht, setReg_wal]
    rfl
  · intro hready hrec
    have ht := logLoad_held hready hrec
    have htouch : Dev.touches .plain [] ([WAL_RD_LOADED, WAL_RD_STAT] ++ (List.range 512).map WAL_RD_BUF) s.dev (logLoad s.dev) := by
      rw [ht]
      refine ((bufferFilled_touches (fun i hi => ?_) _ s.dev).trans (.setReg _ _ _ (by simp))).trans (.setReg _ _ _ (by simp))
      exact List.mem_append_right _ (List.mem_map_of_mem (List.mem_range.2 hi))
    refine ⟨_, (exec_logLoad s).trans (actIn_touches hrun hcalm htouch), ?_, ?_, ?_, htouch.regsOnly⟩
    · rw [ht, reg_setReg_ne _ _ (by decide), reg_setReg_same]
    · rw [ht, reg_setReg_same]
    · intro i hi
      rw [ht, reg_setReg_ne _ _ (by simp only [WAL_RD_BUF, WAL_RD_STAT]; omega),
        reg_setReg_ne _ _ (by simp only [WAL_RD_BUF, WAL_RD_LOADED]; omega), bufferFilled_reg _ _ hi]
  · intro hnone
    have htouch : Dev.touches .plain [] [WAL_RD_STAT] s.dev (logLoad s.dev) := by
      rw [logLoad_none hnone]
      exact .setReg _ _ _ (by simp)
    rw [exec_logLoad, actIn_touches hrun hcalm htouch, logLoad_none hnone]

/-!
PROOFS about the log partition: the scan, the programming of records, the erasing ahead and the failures (R594 to R597).
-/

/-! ### Programming and erasing flash -/

theorem length_recBytes (r : LogRec) (seq : Nat) : (r.bytes seq).length = r.len := by
  simp only [LogRec.bytes, LogRec.len, List.length_append, length_wordsBytes, length_leBytes, List.length_cons, List.length_nil]
  omega

theorem length_sectorHead (seq first : Nat) : (sectorHead seq first).length = 32 := by
  simp only [sectorHead, List.length_append, length_wordsBytes, length_leBytes, List.length_cons, List.length_nil]

/-- Erased bytes take what is programmed. -/
theorem programFlash_blank {d : Dev} {a : Nat} {bs : List Byte}
    (h : ∀ k, k < bs.length → sget flashDefault d.flash (a + k) = 0xFF) :
    d.programFlash a bs = { d with flash := storeBytes flashDefault d.flash a bs } := by
  have hload : loadBytes flashDefault d.flash a bs.length = List.replicate bs.length 0xFF := by
    refine List.ext_getElem (by simp [loadBytes]) fun i h1 _ => ?_
    have hi : i < bs.length := by simpa [loadBytes] using h1
    simpa [loadBytes] using h i hi
  have hand : List.zipWith (fun (x y : Byte) => x &&& y) (List.replicate bs.length 0xFF) bs = bs := by
    refine List.ext_getElem (by simp) fun i _ _ => ?_
    rw [List.getElem_zipWith, List.getElem_replicate]
    exact BitVec.allOnes_and
  rw [Dev.programFlash, hload, hand]

theorem eraseFlash_blank (d : Dev) (a n : Nat) : (d.eraseFlash a n).flashBytes a n = List.replicate n 0xFF := by
  refine List.ext_getElem (by simp [Dev.flashBytes, loadBytes]) fun i h1 _ => ?_
  have hi : i < n := by simpa [Dev.flashBytes, loadBytes] using h1
  have hout := sget_filter_out flashDefault (q := fun c => c < a || a + n ≤ c) (k := a + i) (by simp; omega) d.flash
  simpa [Dev.flashBytes, loadBytes, Dev.eraseFlash, flashDefault] using hout

theorem eraseFlash_outside (d : Dev) (a n : Nat) : sameOutside flashDefault a n d.flash (d.eraseFlash a n).flash :=
  fun _ hk => sget_filter_kept flashDefault (q := fun c => c < a || a + n ≤ c) (by simpa using hk) d.flash

theorem programFlash_touches (hP : Part.flash ∈ P) (a : Nat) (bs : List Byte) (d : Dev) :
    Dev.touches m P L d (d.programFlash a bs) := .ofWithin (programFlash_within d a bs) (by simpa using hP)

theorem eraseFlash_touches (hP : Part.flash ∈ P) (a n : Nat) (d : Dev) : Dev.touches m P L d (d.eraseFlash a n) :=
  .ofWithin (eraseFlash_within d a n) (by simpa using hP)

/-! ### A staged record is programmed (R594, R597) -/

/-- The registers that the programming of a record shows. -/
def recordRegs : List Nat := [WAL_LAST_SEQ, WAL_FIRST_SEQ, TRM_STATUS]

/-- A record programmed as `seq` has left staging. -/
def recordLeft (r : LogRec) (rest : List LogRec) (seq : Nat) (first : Bool) (d : Dev) : Dev :=
  let t := showStaged ((d.walMod fun w => { w with offset := w.offset + r.len, staged := rest, fails := 0 }).setReg WAL_LAST_SEQ seq)
  if first then t.setReg WAL_FIRST_SEQ seq else t

/-- The SAVE that a Trim record ends (R544). -/
def saveEnded (r : LogRec) (d : Dev) : Dev := if r.kind = 5 then occur 228 0xFF 0 (d.put TRM_STATUS_SAVE_BUSY 0) else d

theorem recordLeft_wal (r : LogRec) (rest : List LogRec) (seq : Nat) (first : Bool) (d : Dev) :
    (recordLeft r rest seq first d).wal.sector = d.wal.sector ∧ (recordLeft r rest seq first d).wal.offset = d.wal.offset + r.len ∧
      (recordLeft r rest seq first d).wal.fails = 0 ∧ (recordLeft r rest seq first d).wal.staged = rest ∧
      (recordLeft r rest seq first d).wal.nextErased = d.wal.nextErased := by
  have hwal : (recordLeft r rest seq first d).wal = (showStaged
      ((d.walMod fun w => { w with offset := w.offset + r.len, staged := rest, fails := 0 }).setReg WAL_LAST_SEQ seq)).wal := by
    unfold recordLeft
    cases first
    · rfl
    · exact setReg_wal _ _ _
  rw [hwal, showStaged_wal, setReg_wal, walMod_wal]
  exact ⟨rfl, rfl, rfl, rfl, rfl⟩

theorem recordLeft_lastSeq (r : LogRec) (rest : List LogRec) (seq : Nat) (first : Bool) (d : Dev) :
    (recordLeft r rest seq first d).reg WAL_LAST_SEQ = seq % 2 ^ 32 := by
  have hshown (u : Dev) : (showStaged (u.setReg WAL_LAST_SEQ seq)).reg WAL_LAST_SEQ = seq % 2 ^ 32 := by
    rw [showStaged_reg (by decide), reg_setReg_same]
  unfold recordLeft
  cases first
  · exact hshown _
  · exact (reg_setReg_ne _ _ (by decide)).trans (hshown _)

theorem recordLeft_touches (hP : Part.wal ∈ P ++ m.parts) (hL : WAL_STAGED :: recordRegs ⊆ L) (r : LogRec) (rest : List LogRec)
    (seq : Nat) (first : Bool) (d : Dev) : Dev.touches m P L d (recordLeft r rest seq first d) := by
  have hshown : Dev.touches m P L d (showStaged
      ((d.walMod fun w => { w with offset := w.offset + r.len, staged := rest, fails := 0 }).setReg WAL_LAST_SEQ seq)) :=
    ((walMod_touches hP _ d).trans (.setReg _ _ _ (hL (by simp [recordRegs])))).trans (showStaged_touches hP (hL (by simp)) _)
  unfold recordLeft
  cases first
  · exact hshown
  · exact hshown.trans (.setReg _ _ _ (hL (by simp [recordRegs])))

theorem saveEnded_spec (r : LogRec) (d : Dev) :
    let t := saveEnded r d
    Dev.touches .event [] [TRM_STATUS] d t ∧ d.wal.stages t.wal ∧ (r.kind ≠ 5 → t = d) ∧
      (r.kind = 5 → t.pends 228 ∧ t.on TRM_STATUS_SAVE_BUSY = false) := by
  intro t
  by_cases h : r.kind = 5
  · have ht : t = occur 228 0xFF 0 (d.put TRM_STATUS_SAVE_BUSY 0) := if_pos h
    have hoccur : Dev.touches .event [] [TRM_STATUS] (d.put TRM_STATUS_SAVE_BUSY 0) t := ht ▸ .occur 228 0xFF 0 _
    have hlogs := occur_logs 228 0xFF 0 (d.put TRM_STATUS_SAVE_BUSY 0)
    rw [← ht] at hlogs
    refine ⟨(Dev.touches.put _ _ _ (by simp)).trans hoccur, (logs_trans (logs_put d (by decide) 0) hlogs).wal, fun hn => absurd h hn,
      fun _ => ⟨ht ▸ occur_pends 228 0xFF 0 _ (by decide), ?_⟩⟩
    have heq := (occur_eventOnly 228 0xFF 0 (d.put TRM_STATUS_SAVE_BUSY 0) (by decide)).regs TRM_STATUS (by decide)
    rw [← ht] at heq
    rw [on_congr heq]
    exact on_put_zero _ _ rfl (by decide)
  · have ht : t = d := if_neg h
    rw [ht]
    exact ⟨.refl d, .refl _, fun _ => rfl, fun h5 => absurd h5 h⟩

/-- What the programming of a record does to a device whose sector has room. -/
def recordProgrammed (r : LogRec) (rest : List LogRec) (seq : Nat) (first : Bool) (d : Dev) : Dev :=
  saveEnded r (recordLeft r rest seq first (d.programFlash (sectorAddr d.wal.sector + d.wal.offset) (r.bytes seq)))

theorem logProgram_eq {d : Dev} {r : LogRec} {rest : List LogRec} (hstaged : d.wal.staged = r :: rest) (hready : d.wal.ready = true)
    (hheld : d.logHeld = false) (hroom : d.wal.offset + r.len ≤ sectorSize ∨ d.wal.nextErased = true) :
    logProgram d = recordProgrammed r rest ((d.reg WAL_LAST_SEQ + 1) % 2 ^ 32) d.usedSectors.isEmpty
      (if d.wal.offset + r.len ≤ sectorSize then d else openSector ((d.reg WAL_LAST_SEQ + 1) % 2 ^ 32) d) := by
  have hgo : (!decide (d.wal.offset + r.len ≤ sectorSize) && !d.wal.nextErased) = false := by
    rcases hroom with h | h <;> simp [h]
  unfold logProgram
  rw [hstaged]
  simp only [hready, hheld, hgo, Bool.not_true, Bool.or_self, Bool.false_eq_true, if_false, decide_eq_true_eq]
  rfl

/-- The device once a record has been programmed in the sector in use. -/
theorem recordProgrammed_spec {r : LogRec} {rest : List LogRec} {seq : Nat} {first : Bool} {d : Dev}
    (hblank : ∀ k, k < r.len → sget flashDefault d.flash (sectorAddr d.wal.sector + d.wal.offset + k) = 0xFF) :
    let t := recordProgrammed r rest seq first d
    t.reg WAL_LAST_SEQ = seq % 2 ^ 32 ∧
      t.flash = storeBytes flashDefault d.flash (sectorAddr d.wal.sector + d.wal.offset) (r.bytes seq) ∧
      t.wal.sector = d.wal.sector ∧ t.wal.offset = d.wal.offset + r.len ∧ t.wal.fails = 0 ∧
      t.wal.nextErased = d.wal.nextErased ∧ (r.kind ≠ 5 → t.wal.staged = rest) ∧
      (r.kind = 5 → t.pends 228 ∧ t.on TRM_STATUS_SAVE_BUSY = false) ∧
      Dev.touches .event [.flash] recordRegs d t := by
  intro t
  generalize hu : d.programFlash (sectorAddr d.wal.sector + d.wal.offset) (r.bytes seq) = u
  have hprog : u = { d with flash := storeBytes flashDefault d.flash (sectorAddr d.wal.sector + d.wal.offset) (r.bytes seq) } := by
    rw [← hu]
    exact programFlash_blank fun k hk => hblank k (by rwa [length_recBytes] at hk)
  have hflash : u.flash = storeBytes flashDefault d.flash (sectorAddr d.wal.sector + d.wal.offset) (r.bytes seq) := by rw [hprog]
  have hwal : u.wal = d.wal := by rw [hprog]
  have htu : Dev.touches .event [.flash] recordRegs d u := hu ▸ programFlash_touches (by simp) _ _ d
  generalize hv : recordLeft r rest seq first u = v
  have ht : t = saveEnded r v := by
    simp only [t, recordProgrammed]
    rw [hu, hv]
  obtain ⟨hsector, hoffset, hfails, hstaged, herased⟩ := recordLeft_wal r rest seq first u
  rw [hv] at hsector hoffset hfails hstaged herased
  have hseq := recordLeft_lastSeq r rest seq first u
  rw [hv] at hseq
  have huv : Dev.touches .event [] (WAL_STAGED :: recordRegs) u v := hv ▸ recordLeft_touches (by decide) (by simp) _ _ _ _ _
  obtain ⟨hvt, hstages, hkept, hsave⟩ := saveEnded_spec r v
  rw [← ht] at hvt hstages hkept hsave
  have hut : Dev.touches .event [] recordRegs u t :=
    (huv.trans (hvt.mono (by simp) (by simp [recordRegs]))).trim (by simp [recordRegs, Reach.reg, eventReg])
  refine ⟨(hvt.reg (by decide) (by decide)).trans hseq, (hut.parts .flash (by simp) (by decide)).trans hflash, ?_, ?_, ?_, ?_, ?_,
    hsave, htu.trans (hut.mono (by simp) (by simp))⟩
  · rw [hstages.sector, hsector, hwal]
  · rw [hstages.offset, hoffset, hwal]
  · rw [hstages.fails, hfails]
  · rw [hstages.nextErased, herased, hwal]
  · intro hk
    rw [hkept hk, hstaged]

/-! ### The next sector (R596) -/

theorem openSector_blank {seq : Nat} {d : Dev}
    (hblank : ∀ k, k < 32 → sget flashDefault d.flash (sectorAddr d.nextSector + k) = 0xFF) :
    let t := openSector seq d
    t.flash = storeBytes flashDefault d.flash (sectorAddr d.nextSector) (sectorHead ((d.wal.sectorSeq + 1) % 2 ^ 32) seq) ∧
      t.wal.sector = d.nextSector ∧ t.wal.offset = 32 ∧ t.wal.nextErased = false := by
  have hprog := programFlash_blank (d := d) (a := sectorAddr d.nextSector)
    (bs := sectorHead ((d.wal.sectorSeq + 1) % 2 ^ 32) seq) fun k hk => hblank k (by rwa [length_sectorHead] at hk)
  simp only [openSector]
  rw [hprog]
  exact ⟨rfl, rfl, rfl, rfl⟩

theorem openSector_touches (hP : Part.flash ∈ P) (hw : Part.wal ∈ P ++ m.parts) (seq : Nat) (d : Dev) :
    Dev.touches m P L d (openSector seq d) := by
  unfold openSector
  exact (programFlash_touches hP _ _ d).trans (walMod_touches hw _ _)

/-! ### Erasing ahead (R597) -/

theorem logErase_due {d : Dev} (hdue : d.eraseDue = true) (hheld : d.logHeld = false) :
    let u := d.eraseFlash (sectorAddr d.nextSector) sectorSize
    let first := u.oldestSeq.getD (d.reg WAL_FIRST_SEQ)
    logErase d = (u.setReg WAL_FIRST_SEQ first).walMod fun w => { w with
      nextErased := true
      fails := 0
      read := w.read.map fun r => if seqLater first r.next then { r with next := first, gap := true } else r } := by
  simp only [logErase, hdue, hheld]
  rfl

/-! ### Failures (R597) -/

/-- A flag of the log with its event: it is set, and the others but DROP stand. -/
theorem walFlag_spec {f : Field} (ha : f.addr = WAL_FLAGS) (h1 : 1 ≤ f.lo) (hf : f.hi = f.lo) (h32 : f.hi < 32) {e : Nat}
    (he : e < 256) (inst code : Nat) (d : Dev) :
    let t := flagEvent f e inst code d
    t.on f = true ∧ d.wal.stages t.wal ∧
      ∀ g : Field, g.addr = WAL_FLAGS → 1 ≤ g.lo → g.hi < 32 → (g.hi < f.lo ∨ f.hi < g.lo) → t.on g = d.on g := by
  intro t
  cases hon : d.on f with
  | true =>
    have ht : t = d := by simp [t, flagEvent, hon]
    rw [ht]
    exact ⟨hon, .refl _, fun _ _ _ _ _ => rfl⟩
  | false =>
    have ht : t = occur e inst code (d.put f 1) := by simp [t, flagEvent, hon]
    have hlogs := occur_logs e inst code (d.put f 1) he
    rw [← ht] at hlogs
    refine ⟨?_, put_wal d f 1 ▸ hlogs.wal, fun g hg g1 g32 hdis => ?_⟩
    · rw [Dev.on, hlogs.flags f ha h1 h32]
      exact on_put_one d f hf h32
    · rw [Dev.on, hlogs.flags g hg g1 g32, get_put_ne d f g 1 (by omega) g32 (.inr hdis)]
      rfl

/-- The sector that a failure gives up. -/
def Dev.failedSector (d : Dev) : Nat := if d.eraseDue then d.nextSector else d.wal.sector

/-- A failure counted. -/
def failCounted (d : Dev) : Dev :=
  (d.put WAL_SECTORS_BAD (min (d.get WAL_SECTORS_BAD + 1) 0xFFFF)).walMod fun w =>
    { w with badSectors := d.failedSector :: w.badSectors, fails := w.fails + 1,
             offset := if d.eraseDue then w.offset else sectorSize }

/-- A failure shown (R605). -/
def failShown (d : Dev) : Dev := flagEvent WAL_FLAGS_FLASH_ERR 242 0xFF 0x89 (fault 0x89 sevInfo 0xFF d)

/-- The SAVE of a Trim record that the stopped log cannot write has failed (R544). -/
def saveFailed (trim : Bool) (d : Dev) : Dev := if trim then (d.put TRM_STATUS_SAVE_BUSY 0).put TRM_FLAGS_SAVE_FAIL 1 else d

theorem logFail_eq {d : Dev} (hready : d.wal.ready = true) (hheld : d.logHeld = false)
    (hdue : d.eraseDue = true ∨ d.wal.staged ≠ []) : ∃ trim : Bool,
    logFail d = if (failShown (failCounted d)).wal.fails = 3 then
      saveFailed trim (flagEvent WAL_FLAGS_STOPPED 243 0xFF 0 (failShown (failCounted d))) else failShown (failCounted d) := by
  have hgo : (d.wal.staged.isEmpty && !d.eraseDue) = false := by
    rcases hdue with h | h <;> simp [h]
  refine ⟨match (failShown (failCounted d)).wal.staged with | r :: _ => r.kind == 5 | [] => false, ?_⟩
  unfold logFail
  rw [hready, hheld, hgo]
  rfl

theorem saveFailed_touches (hL : [TRM_STATUS, TRM_FLAGS] ⊆ L) (trim : Bool) (d : Dev) : Dev.touches m P L d (saveFailed trim d) :=
  .ite _ ((Dev.touches.put _ _ _ (hL (by simp))).trans (.put _ _ _ (hL (by simp)))) (.refl d)

theorem failCounted_touches (hP : Part.wal ∈ P ++ m.parts) (hL : WAL_SECTORS ∈ L) (d : Dev) : Dev.touches m P L d (failCounted d) :=
  (Dev.touches.put _ _ _ hL).trans (walMod_touches hP _ _)

theorem failShown_spec (d : Dev) :
    let t := failShown d
    d.detects 0x89 0xFF t ∧ t.on WAL_FLAGS_FLASH_ERR = true ∧ t.on WAL_FLAGS_STOPPED = d.on WAL_FLAGS_STOPPED ∧
      d.wal.stages t.wal ∧ (d.on WAL_FLAGS_FLASH_ERR = false → t.pends 242) ∧ Dev.touches .fault [] [WAL_FLAGS] d t := by
  intro t
  generalize hu : fault 0x89 sevInfo 0xFF d = u
  have ht : t = flagEvent WAL_FLAGS_FLASH_ERR 242 0xFF 0x89 u := by rw [← hu]; rfl
  have hlogs : d.logs u := hu ▸ faultD_logs 0x89 sevInfo 0xFF 0 0 d
  have hdet : d.detects 0x89 0xFF u := hu ▸ faultD_detects sevInfo 0 0 d (by decide) (by decide) (by decide)
  have hkept {g : Field} (ha : g.addr = WAL_FLAGS) (h1 : 1 ≤ g.lo) (h32 : g.hi < 32) : u.on g = d.on g := by
    rw [Dev.on, hlogs.flags g ha h1 h32]
    rfl
  obtain ⟨hon, hstages, hother⟩ := walFlag_spec (f := WAL_FLAGS_FLASH_ERR) rfl (by decide) rfl (by decide) (e := 242) (by decide)
    0xFF 0x89 u
  rw [← ht] at hon hstages hother
  have htouch : Dev.touches .event [] [WAL_FLAGS] u t := ht ▸ .flagEvent _ _ _ _ u (by simp)
  refine ⟨⟨?_, ?_, ?_⟩, hon, ?_, hlogs.wal.trans hstages, fun hoff => ?_, ?_⟩
  · rw [htouch.reg (by decide) (by decide), hdet.1]
  · rw [htouch.reg (by decide) (by decide), hdet.2.1]
  · rw [htouch.reg (by decide) (by decide), hdet.2.2]
  · rw [hother WAL_FLAGS_STOPPED rfl (by decide) (by decide) (by decide), hkept rfl (by decide) (by decide)]
  · rw [ht]
    exact flagEvent_pends ((hkept rfl (by decide) (by decide)).trans hoff) (by decide) _ _
  · have hfault : Dev.touches .fault [] [WAL_FLAGS] d u := hu ▸ .fault 0x89 sevInfo 0xFF d
    exact hfault.trans htouch.toFault

theorem failCounted_wal (d : Dev) : (failCounted d).wal = { d.wal with
    badSectors := d.failedSector :: d.wal.badSectors, fails := d.wal.fails + 1,
    offset := if d.eraseDue then d.wal.offset else sectorSize } := by
  rw [failCounted, walMod_wal, put_wal]

/-- The end of a failure: nothing more, or the log is STOPPED. -/
def failEnded (trim : Bool) (d : Dev) : Dev :=
  if d.wal.fails = 3 then saveFailed trim (flagEvent WAL_FLAGS_STOPPED 243 0xFF 0 d) else d

theorem failEnded_spec (trim : Bool) (d : Dev) :
    let t := failEnded trim d
    d.wal.stages t.wal ∧ t.on WAL_FLAGS_FLASH_ERR = d.on WAL_FLAGS_FLASH_ERR ∧
      (d.wal.fails = 3 → t.on WAL_FLAGS_STOPPED = true ∧ (d.on WAL_FLAGS_STOPPED = false → t.pends 243)) ∧
      Dev.touches .event [] [WAL_FLAGS, TRM_STATUS, TRM_FLAGS] d t := by
  intro t
  by_cases h : d.wal.fails = 3
  · generalize hu : flagEvent WAL_FLAGS_STOPPED 243 0xFF 0 d = u
    have ht : t = saveFailed trim u := by simp only [t, failEnded, if_pos h, hu]
    obtain ⟨hon, hstages, hother⟩ := walFlag_spec (f := WAL_FLAGS_STOPPED) rfl (by decide) rfl (by decide) (e := 243) (by decide)
      0xFF 0 d
    rw [hu] at hon hstages hother
    have hut : Dev.touches .event [] [TRM_STATUS, TRM_FLAGS] u t := ht ▸ saveFailed_touches (by simp) trim u
    have hwal : t.wal = u.wal := by
      rw [ht]
      cases trim <;> rfl
    have hflags (f : Field) (hf : f.addr = WAL_FLAGS) : t.on f = u.on f := by
      have hreg : t.reg WAL_FLAGS = u.reg WAL_FLAGS := by
        rw [ht]
        exact (saveFailed_touches (m := .plain) (P := []) (List.Subset.refl _) trim u).reg (by decide) rfl
      exact on_congr (by rw [hf, hreg])
    refine ⟨hwal ▸ hstages, ?_, fun _ => ⟨(hflags _ rfl).trans hon, fun hoff => ?_⟩, ?_⟩
    · rw [hflags _ rfl, hother WAL_FLAGS_FLASH_ERR rfl (by decide) (by decide) (by decide)]
    · exact hut.pends 243 (by decide) (hu ▸ flagEvent_pends hoff (by decide) _ _)
    · exact (Dev.touches.mono (P := []) (L := [WAL_FLAGS]) (hu ▸ .flagEvent _ _ _ _ d (by simp)) (by simp) (by simp)).trans
        (hut.mono (by simp) (by simp))
  · have ht : t = d := if_neg h
    rw [ht]
    exact ⟨.refl _, rfl, fun h3 => absurd h3 h, .refl d⟩

theorem logFail_spec {d : Dev} (hready : d.wal.ready = true) (hheld : d.logHeld = false)
    (hdue : d.eraseDue = true ∨ d.wal.staged ≠ []) :
    let t := logFail d
    t.on WAL_FLAGS_FLASH_ERR = true ∧ d.detects 0x89 0xFF t ∧
      t.get WAL_SECTORS_BAD = min (d.get WAL_SECTORS_BAD + 1) 0xFFFF ∧
      t.wal.badSectors = d.failedSector :: d.wal.badSectors ∧ t.wal.fails = d.wal.fails + 1 ∧
      (d.wal.fails = 2 → t.on WAL_FLAGS_STOPPED = true) ∧ (d.on WAL_FLAGS_FLASH_ERR = false → t.pends 242) ∧
      (d.wal.fails = 2 → d.on WAL_FLAGS_STOPPED = false → t.pends 243) ∧
      Dev.touches .fault [] [WAL_SECTORS, WAL_FLAGS, TRM_STATUS, TRM_FLAGS] d t := by
  intro t
  obtain ⟨trim, htrim⟩ := logFail_eq hready hheld hdue
  generalize hu : failCounted d = u at htrim
  generalize hv : failShown u = v at htrim
  have ht : t = failEnded trim v := htrim
  have hdu : Dev.touches .plain [.wal] [WAL_SECTORS] d u := hu ▸ failCounted_touches (by decide) (by simp) d
  have hwalu := hu ▸ failCounted_wal d
  obtain ⟨hdet, herr, hstop, hstages, hpend, huv⟩ := failShown_spec u
  rw [hv] at hdet herr hstop hstages hpend huv
  obtain ⟨hstages', herr', hstopped, hvt⟩ := failEnded_spec trim v
  rw [← ht] at hstages' herr' hstopped hvt
  have hfails : v.wal.fails = d.wal.fails + 1 := by rw [hstages.fails, hwalu]
  have hflag (f : Field) (hf : f.addr = WAL_FLAGS) : u.on f = d.on f := hdu.on (by rw [hf]; decide) rfl
  have hbad : u.get WAL_SECTORS_BAD = min (d.get WAL_SECTORS_BAD + 1) 0xFFFF := by
    have hlt : min (d.get WAL_SECTORS_BAD + 1) 0xFFFF < 2 ^ 16 := by omega
    rw [← hu, failCounted, walMod_get, get_put_same _ _ _ (by decide) (by decide)]
    exact Nat.mod_eq_of_lt hlt
  have hud : Dev.touches .fault [] [WAL_SECTORS] d u :=
    ⟨fun a ha _ => hdu.regs a ha rfl, fun p _ hp => hdu.parts p (fun h => hp (by simp at h; simp [h, Reach.parts])) (by simp [Reach.parts]),
      hdu.calm, hdu.pends⟩
  refine ⟨herr'.trans herr, ⟨?_, ?_, ?_⟩, ?_, ?_, ?_, ?_, ?_, ?_, ?_⟩
  · rw [hvt.reg (by decide) (by decide), hdet.1, hdu.reg (by decide) rfl]
  · rw [hvt.reg (by decide) (by decide), hdet.2.1]
  · rw [hvt.reg (by decide) (by decide), hdet.2.2]
  · rw [hvt.get (by decide) (by decide), huv.get (by decide) (by decide), hbad]
  · rw [hstages'.badSectors, hstages.badSectors, hwalu]
  · rw [hstages'.fails, hfails]
  · intro h2
    exact (hstopped (by omega)).1
  · intro hoff
    exact hvt.pends 242 (by decide) (hpend ((hflag _ rfl).trans hoff))
  · intro h2 hoff
    exact (hstopped (by omega)).2 ((hstop.trans (hflag _ rfl)).trans hoff)
  · exact (hud.mono (by simp) (by simp)).trans ((huv.mono (by simp) (by simp)).trans (hvt.toFault.mono (by simp) (by simp)))

/-! ### The scan (R595, R596) -/

/-- The registers that the scan shows. -/
def logScanRegs : List Nat := [WAL_OP_TIME, WAL_POWER_CYCLES, WAL_LAST_SEQ, WAL_FIRST_SEQ, WAL_SECTORS, WAL_TORN]

/-- OP_TIME of the newest record and POWER_CYCLES, with this power cycle counted after PORST_N. -/
def scanTimes (newest : Option (Nat × Nat)) (porst : Bool) : Nat × Nat :=
  match newest with
  | some (o, c) => (o, if porst then c + 1 else c)
  | none => (0, 1)

theorem scanTimes_eq (newest : Option (Nat × Nat)) (porst : Bool) : scanTimes newest porst =
    ((newest.getD (0, 1)).1, (newest.getD (0, 1)).2 + (if newest.isSome && porst then 1 else 0)) := by
  cases newest with
  | none => rfl
  | some v => cases porst <;> rfl

/-- The device once the scan shows the times. -/
def scanTimed (op cycles : Nat) (d : Dev) : Dev :=
  (d.setReg WAL_OP_TIME (op + d.reg WAL_OP_TIME)).setReg WAL_POWER_CYCLES cycles

/-- The scan shows whether the newest sector is torn, and the sector count. -/
def scanTorn (torn : Bool) (d : Dev) : Dev := (d.setReg WAL_TORN (b2n torn)).setReg WAL_SECTORS (d.logSectors % 65536)

/-- The scan shows the sequence numbers of the newest and the oldest record. -/
def scanSeqs (newest oldest : Option Nat) (d : Dev) : Dev :=
  (d.setReg WAL_LAST_SEQ (newest.getD 0)).setReg WAL_FIRST_SEQ (oldest.getD 0)

/-- The BOOT record (R592). -/
def Dev.bootRec (d : Dev) : LogRec :=
  d.logRec 6 (d.reg DEV_RESET_CAUSE) [d.reg DEV_LC, d.reg DEV_STATE, d.reg DEV_IMG_FAIL, d.reg WAL_TORN] false

/-- The log goes on in sector `sector`; the BOOT record goes before everything staged so far. -/
def scanReady (op cycles sector seq offset : Nat) (d : Dev) : Dev :=
  d.walMod fun w =>
    { w with ready := true, sector := sector, sectorSeq := seq, offset := offset, nextErased := false, fails := 0,
             badSectors := [],
             staged := d.bootRec :: w.staged.map fun (r : LogRec) => { r with opTime := r.opTime + op, cycles := cycles } }

/-- The SHUTDOWN record of a shutdown before the reset (R562). -/
def shutStaged (d : Dev) : Dev := if d.on THM_LAST_SHUT_VALID then stage (d.logRec 7 (d.reg THM_LAST_SHUT) [] true) d else d

/-- The scan as its parts. What it reads of the partition is taken as arbitrary functions: the shape of the scan is all that
matters, and the kernel must not evaluate the partition. -/
theorem logScan_eq {d : Dev} (hen : d.on WAL_CTRL_EN = true) (hready : d.wal.ready = false) (hn : d.logSectors ≠ 0) :
    ∃ op cycles sector seq offset torn t, (op, cycles) = scanTimes d.lastTimes (d.on DEV_RESET_CAUSE_PORST) ∧
      t = scanTorn torn (scanTimed op cycles d) ∧
      logScan d = occur 240 0xFF 0 (shutStaged (showStaged
        (scanReady op cycles sector seq offset (scanSeqs t.newestSeq t.oldestSeq t)))) := by
  have hgo : ¬ ((!d.on WAL_CTRL_EN || d.wal.ready || decide (d.logSectors = 0)) = true) := by simp [hen, hready, hn]
  unfold logScan
  rw [if_neg hgo]
  generalize Dev.lastTimes = lastTimes
  generalize Dev.usedSectors = usedSectors
  generalize Dev.validRecords = validRecords
  generalize Dev.newestSeq = newestSeq
  generalize Dev.oldestSeq = oldestSeq
  revert lastTimes usedSectors validRecords newestSeq oldestSeq
  refine id ?_
  intro lastTimes usedSectors validRecords newestSeq oldestSeq
  extract_lets porst
  split
  next early times op cycles htimes =>
    extract_lets s1 newest
    split
    next found sector seq offset torn hfound =>
      exact ⟨op, cycles, sector, seq, offset, torn, _, htimes.symm, rfl, rfl⟩

section
variable {d t : Dev} (hf : t.flash = d.flash) (hs : t.start = d.start)
include hf

theorem validRecords_congr (k : Nat) : t.validRecords k = d.validRecords k := by
  simp only [Dev.validRecords, sectorRecords_congr hf]

include hs

theorem newestSeq_congr : t.newestSeq = d.newestSeq := by
  simp only [Dev.newestSeq, usedSectors_congr hf hs, validRecords_congr hf]

theorem oldestSeq_congr : t.oldestSeq = d.oldestSeq := by
  simp only [Dev.oldestSeq, usedSectors_congr hf hs]

end

/-- The registers of the scan's times and sequence numbers. -/
theorem scanSeqs_reg (op cycles : Nat) (torn : Bool) (newest oldest : Option Nat) (d : Dev) :
    let t := scanSeqs newest oldest (scanTorn torn (scanTimed op cycles d))
    t.reg WAL_OP_TIME = (op + d.reg WAL_OP_TIME) % 2 ^ 32 ∧ t.reg WAL_POWER_CYCLES = cycles % 2 ^ 32 ∧
      t.reg WAL_LAST_SEQ = newest.getD 0 % 2 ^ 32 ∧ t.reg WAL_FIRST_SEQ = oldest.getD 0 % 2 ^ 32 ∧
      t.reg WAL_SECTORS = d.logSectors % 65536 := by
  simp only [scanSeqs, scanTorn, scanTimed]
  refine ⟨?_, ?_, ?_, ?_, ?_⟩
  · simp (disch := decide) only [reg_setReg_ne, reg_setReg_same]
  · simp (disch := decide) only [reg_setReg_ne, reg_setReg_same]
  · simp (disch := decide) only [reg_setReg_ne, reg_setReg_same]
  · rw [reg_setReg_same]
  · rw [reg_setReg_ne _ _ (by decide), reg_setReg_ne _ _ (by decide), reg_setReg_same]
    have hsectors : ((d.setReg WAL_OP_TIME (op + d.reg WAL_OP_TIME)).setReg WAL_POWER_CYCLES cycles).logSectors = d.logSectors := by
      simp only [Dev.logSectors, setReg_start]
    rw [hsectors]
    omega

theorem scanTorn_touches (hL : logScanRegs ⊆ L) (op cycles : Nat) (torn : Bool) (d : Dev) :
    Dev.touches m P L d (scanTorn torn (scanTimed op cycles d)) := by
  have hset {a : Nat} (ha : a ∈ logScanRegs) (hs : silentReg a = true) (v : Nat) (u : Dev) : Dev.touches m P L u (u.setReg a v) :=
    .setReg u a v (hL ha) hs
  exact ((hset (by decide) (by decide) _ _).trans (hset (by decide) (by decide) _ _)).trans
    ((hset (by decide) (by decide) _ _).trans (hset (by decide) (by decide) _ _))

theorem scanSeqs_touches (hL : logScanRegs ⊆ L) (newest oldest : Option Nat) (d : Dev) :
    Dev.touches m P L d (scanSeqs newest oldest d) :=
  (Dev.touches.setReg d WAL_LAST_SEQ _ (hL (by decide))).trans (.setReg _ WAL_FIRST_SEQ _ (hL (by decide)))

theorem shutStaged_touches (d : Dev) : Dev.touches .event P L d (shutStaged d) := .ite _ (.stage _ d) (.refl d)

theorem shutStaged_logs (d : Dev) : d.logs (shutStaged d) := logs_ite (stage_logs _ d) (logs_refl d)

theorem head?_of_prefix {α : Type} {x : α} {l k : List α} (h : x :: l <+: k) : k.head? = some x := by
  obtain ⟨r, rfl⟩ := h
  rfl

/-- The scan of a log that is enabled and has a partition. -/
theorem logScan_spec {d : Dev} (hen : d.on WAL_CTRL_EN = true) (hready : d.wal.ready = false) (hn : d.logSectors ≠ 0) :
    let t := logScan d
    t.reg WAL_OP_TIME = ((d.lastTimes.getD (0, 1)).1 + d.reg WAL_OP_TIME) % 2 ^ 32 ∧
      t.reg WAL_POWER_CYCLES = ((d.lastTimes.getD (0, 1)).2
        + (if d.lastTimes.isSome && d.on DEV_RESET_CAUSE_PORST then 1 else 0)) % 2 ^ 32 ∧
      t.reg WAL_LAST_SEQ = d.newestSeq.getD 0 % 2 ^ 32 ∧ t.reg WAL_FIRST_SEQ = d.oldestSeq.getD 0 % 2 ^ 32 ∧
      t.reg WAL_SECTORS = d.logSectors % 65536 ∧ t.wal.ready = true ∧
      (t.wal.staged.head?.map fun (x : LogRec) => (x.kind, x.ref, x.payload)) =
        some (6, d.reg DEV_RESET_CAUSE, [d.reg DEV_LC, d.reg DEV_STATE, d.reg DEV_IMG_FAIL, t.reg WAL_TORN]) ∧
      t.pends 240 ∧ Dev.touches .event [] logScanRegs d t := by
  intro t
  obtain ⟨op, cycles, sector, seq, offset, torn, u, htimes, hu, ht⟩ := logScan_eq hen hready hn
  have ht : t = _ := ht
  clear_value t
  generalize hv : scanSeqs u.newestSeq u.oldestSeq u = v at ht
  generalize hw : showStaged (scanReady op cycles sector seq offset v) = w at ht
  have hdu {m : Reach} : Dev.touches m [] logScanRegs d u := by
    rw [hu]
    exact scanTorn_touches (List.Subset.refl _) op cycles torn d
  have hflash : u.flash = d.flash := (hdu (m := .plain)).parts .flash (by simp) (by simp [Reach.parts])
  have hstart : u.start = d.start := (hdu (m := .plain)).parts .start (by simp) (by simp [Reach.parts])
  have hdv : Dev.touches .event [] logScanRegs d v := by
    rw [← hv]
    exact hdu.trans (scanSeqs_touches (List.Subset.refl _) _ _ u)
  have hvw : Dev.touches .event [] [WAL_STAGED] v w := by
    rw [← hw]
    exact (walMod_touches (by decide) _ v).trans (showStaged_touches (by decide) (by simp) _)
  have hwt : Dev.touches .event [] [] w t := by
    rw [ht]
    exact (shutStaged_touches w).trans (.occur 240 0xFF 0 _)
  have hlogs : w.logs t := by
    rw [ht]
    exact logs_trans (shutStaged_logs w) (occur_logs 240 0xFF 0 _)
  have hreg {a : Nat} (ha : a ≠ WAL_STAGED) (he : eventReg a = false) : t.reg a = v.reg a :=
    (hwt.reg (by simp) he).trans (hvw.reg (by simpa using ha) he)
  have hshown := scanSeqs_reg op cycles torn u.newestSeq u.oldestSeq d
  rw [← hu, hv, newestSeq_congr hflash hstart, oldestSeq_congr hflash hstart] at hshown
  obtain ⟨hop, hcycles, hlast, hfirst, hsectors⟩ := hshown
  obtain ⟨hop', hcycles'⟩ := Prod.mk.inj (htimes.trans (scanTimes_eq _ _))
  have hwal : w.wal.ready = true ∧ v.bootRec :: (v.wal.staged.map fun (r : LogRec) =>
      { r with opTime := r.opTime + op, cycles := cycles }) = w.wal.staged := by
    rw [← hw, showStaged_wal, scanReady, walMod_wal]
    exact ⟨rfl, rfl⟩
  refine ⟨?_, ?_, ?_, ?_, ?_, ?_, ?_, ?_, ?_⟩
  · rw [hreg (by decide) (by decide), hop, hop']
  · rw [hreg (by decide) (by decide), hcycles, hcycles']
  · rw [hreg (by decide) (by decide), hlast]
  · rw [hreg (by decide) (by decide), hfirst]
  · rw [hreg (by decide) (by decide), hsectors]
  · rw [hlogs.wal.ready, hwal.1]
  · have hboot : v.bootRec :: _ <+: t.wal.staged := hwal.2 ▸ hlogs.wal.more
    have hregv {a : Nat} (ha : a ∉ logScanRegs) (he : eventReg a = false) : v.reg a = d.reg a := hdv.reg ha he
    rw [head?_of_prefix hboot, hreg (a := WAL_TORN) (by decide) (by decide), ← hregv (a := DEV_RESET_CAUSE) (by decide) (by decide),
      ← hregv (a := DEV_LC) (by decide) (by decide), ← hregv (a := DEV_STATE) (by decide) (by decide),
      ← hregv (a := DEV_IMG_FAIL) (by decide) (by decide)]
    rfl
  · rw [ht]
    exact occur_pends 240 0xFF 0 _ (by decide)
  · exact (hdv.trans (hvw.trim (by simp [Reach.reg, eventReg]))).trans (hwt.mono (by simp) (by simp))

/-- The sector after the current one is blank, and what is oldest is shown. -/
theorem logErase_spec {d : Dev} (hdue : d.eraseDue = true) (hheld : d.logHeld = false) :
    let t := logErase d
    t.flashBytes (sectorAddr d.nextSector) sectorSize = List.replicate sectorSize 0xFF ∧
      sameOutside flashDefault (sectorAddr d.nextSector) sectorSize d.flash t.flash ∧
      t.wal = { d.wal with nextErased := true, fails := 0, read := t.wal.read } ∧
      t.reg WAL_FIRST_SEQ = t.oldestSeq.getD (d.reg WAL_FIRST_SEQ) % 2 ^ 32 ∧
      Dev.touches .plain [.flash, .wal] [WAL_FIRST_SEQ] d t := by
  intro t
  have ht : t = _ := logErase_due hdue hheld
  clear_value t
  have hblank := eraseFlash_blank d (sectorAddr d.nextSector) sectorSize
  have hsame := eraseFlash_outside d (sectorAddr d.nextSector) sectorSize
  have herase : Dev.touches .plain [.flash, .wal] [WAL_FIRST_SEQ] d (d.eraseFlash (sectorAddr d.nextSector) sectorSize) :=
    eraseFlash_touches (by simp) _ _ d
  have hwal : (d.eraseFlash (sectorAddr d.nextSector) sectorSize).wal = d.wal :=
    (eraseFlash_touches (m := .plain) (P := [.flash]) (L := []) (by simp) _ _ d).parts .wal (by simp) (by simp [Reach.parts])
  generalize d.eraseFlash (sectorAddr d.nextSector) sectorSize = u at ht hblank hsame herase hwal
  have hut : Dev.touches .plain [.wal] [WAL_FIRST_SEQ] u t := by
    rw [ht]
    exact (Dev.touches.setReg u _ _ (by simp)).trans (walMod_touches (by decide) _ _)
  have hflash : t.flash = u.flash := hut.parts .flash (by simp) (by simp [Reach.parts])
  have hstart : t.start = u.start := hut.parts .start (by simp) (by simp [Reach.parts])
  refine ⟨?_, hflash ▸ hsame, ?_, ?_, herase.trans (hut.mono (by simp) (by simp))⟩
  · rw [flashBytes_congr hflash, hblank]
  · rw [ht, walMod_wal, setReg_wal, hwal]
  · rw [oldestSeq_congr hflash hstart, ht, walMod_reg, reg_setReg_same]

theorem exec_logScan (s : State) : exec .logScan s = actIn domXspi logScan s := rfl

theorem exec_logRecordProgrammed (s : State) : exec .logRecordProgrammed s = actIn domXspi logProgram s := rfl

theorem exec_logSectorErase (s : State) : exec .logSectorErase s = actIn domXspi logErase s := rfl

theorem exec_logFlash (s : State) : exec .logFlash s = actIn domXspi logFail s := rfl

/-- The bytes stored in the flash stand there, and all others are as before. -/
theorem flash_stored {d t : Dev} {a n : Nat} {bs : List Byte} (h : t.flash = storeBytes flashDefault d.flash a bs)
    (hn : bs.length = n) : t.flashBytes a n = bs ∧ sameOutside flashDefault a n d.flash t.flash := by
  subst hn
  refine ⟨?_, fun k hk => ?_⟩
  · rw [Dev.flashBytes, h, loadBytes_storeBytes]
  · rw [h, sget_storeBytes_out _ _ _ _ _ _ hk]

/-- A record that opens the next sector: the header and the record stand in it. -/
theorem logProgram_opens {d : Dev} {r : LogRec} {rest : List LogRec} {seq : Nat} (hseq : seq = (d.reg WAL_LAST_SEQ + 1) % 2 ^ 32)
    (hstaged : d.wal.staged = r :: rest) (hready : d.wal.ready = true) (hheld : d.logHeld = false)
    (hfull : d.wal.offset + r.len > sectorSize) (herased : d.wal.nextErased = true)
    (hblank : ∀ k, k < r.len + 32 → sget flashDefault d.flash (sectorAddr d.nextSector + k) = 0xFF) :
    let t := logProgram d
    t.flash = storeBytes flashDefault d.flash (sectorAddr d.nextSector)
        (sectorHead ((d.wal.sectorSeq + 1) % 2 ^ 32) seq ++ r.bytes seq) ∧
      t.wal.sector = d.nextSector ∧ t.wal.offset = 32 + r.len ∧ t.wal.nextErased = false ∧
      t.reg WAL_LAST_SEQ = seq % 2 ^ 32 ∧ Dev.touches .event [.flash] recordRegs d t := by
  intro t
  have ht : t = recordProgrammed r rest seq d.usedSectors.isEmpty (openSector seq d) := by
    simp only [t]
    rw [logProgram_eq hstaged hready hheld (.inr herased), if_neg (by omega), hseq]
  clear_value t
  have hopens : Dev.touches .event [.flash] recordRegs d (openSector seq d) := openSector_touches (by simp) (by decide) seq d
  obtain ⟨hflash, hsector, hoffset, hnext⟩ := openSector_blank (seq := seq) (d := d) fun k hk => hblank k (by omega)
  generalize openSector seq d = u at ht hopens hflash hsector hoffset hnext
  have hrec : ∀ k, k < r.len → sget flashDefault u.flash (sectorAddr u.wal.sector + u.wal.offset + k) = 0xFF := by
    intro k hk
    rw [hflash, hsector, hoffset, sget_storeBytes_out _ _ _ _ _ _ (.inr (by rw [length_sectorHead]; omega)), Nat.add_assoc]
    exact hblank (32 + k) (by omega)
  obtain ⟨hlast, hflash', hsector', hoffset', -, hnext', -, -, htouch⟩ :=
    recordProgrammed_spec (rest := rest) (seq := seq) (first := d.usedSectors.isEmpty) hrec
  rw [← ht] at hlast hflash' hsector' hoffset' hnext' htouch
  refine ⟨?_, hsector'.trans hsector, by rw [hoffset', hoffset], hnext'.trans hnext, hlast, hopens.trans htouch⟩
  rw [hflash', hflash, hsector, hoffset, storeBytes_append, length_sectorHead]

/-- Settles O40: the scan from the newest record, the programming of a staged record in its sector or the next, the erasing
ahead, and a failure with the third that stops the log. -/
theorem logWriting : Obligations.LogWriting := by
  unfold Obligations.LogWriting
  intro r rest s hrun hcalm
  refine ⟨?_, ?_, ?_, ?_, ?_⟩
  · intro hen hready hn _
    obtain ⟨hop, hcycles, hlast, hfirst, hsectors, hrdy, hboot, hpend, htouch⟩ := logScan_spec hen hready hn
    exact ⟨_, (exec_logScan s).trans (actIn_touches hrun hcalm htouch), hop, hcycles, hlast, hfirst, hsectors, hrdy, hboot, hpend,
      htouch.withEvent⟩
  · intro hstaged hready hheld hfits hblank
    have ht := logProgram_eq hstaged hready hheld (.inl hfits)
    rw [if_pos hfits] at ht
    obtain ⟨hlast, hflash, hsector, hoffset, hfails, -, hrest, hsave, htouch⟩ := recordProgrammed_spec (rest := rest)
      (seq := (s.dev.reg WAL_LAST_SEQ + 1) % 2 ^ 32) (first := s.dev.usedSectors.isEmpty) hblank
    rw [← ht] at hlast hflash hsector hoffset hfails hrest hsave htouch
    obtain ⟨hbytes, houtside⟩ := flash_stored hflash (length_recBytes r _)
    refine ⟨_, (exec_logRecordProgrammed s).trans (actIn_touches hrun hcalm htouch), ?_, hbytes, houtside, hsector, hoffset, hfails,
      hrest, hsave, htouch.withEvent⟩
    rw [hlast, Nat.mod_mod]
  · intro hstaged hready hheld hfull herased _ hblank
    obtain ⟨hflash, hsector, hoffset, hnext, hlast, htouch⟩ := logProgram_opens rfl hstaged hready hheld hfull herased hblank
    obtain ⟨hbytes, houtside⟩ := flash_stored hflash
      (by rw [List.length_append, length_sectorHead, length_recBytes] : _ = 32 + r.len)
    refine ⟨_, (exec_logRecordProgrammed s).trans (actIn_touches hrun hcalm htouch), hbytes, houtside, hsector, hoffset, hnext, ?_⟩
    rw [hlast, Nat.mod_mod]
  · intro hdue hheld
    obtain ⟨hbytes, houtside, hwal, hfirst, htouch⟩ := logErase_spec hdue hheld
    exact ⟨_, (exec_logSectorErase s).trans (actIn_touches hrun hcalm htouch), hbytes, houtside, hwal, hfirst, htouch.regsOnly⟩
  · intro hready hheld hdue
    obtain ⟨herr, hdet, hbad, hsectors, hfails, hstop, hpend, hpend', htouch⟩ := logFail_spec hready hheld hdue
    exact ⟨_, (exec_logFlash s).trans (actIn_touches hrun hcalm htouch), herr, hdet, hbad, hsectors, hfails, hstop, hpend, hpend',
      htouch.withFault⟩

/-!
PROOFS about the JTAG port (R620 to R623).
-/

theorem dofMod_touches (hP : Part.dof ∈ P ++ m.parts) (f : Doff → Doff) (d : Dev) : Dev.touches m P L d (d.dofMod f) where
  regs _ _ _ := rfl
  parts p hp hm := by
    have hne : p ≠ .dof := fun h => (List.mem_append.1 (h ▸ hP)).elim hp hm
    cases p <;> first | rfl | exact absurd rfl hne
  calm h := h
  pends _ _ h := h

@[simp] theorem dofMod_reg (d : Dev) (f : Doff → Doff) (a : Nat) : (d.dofMod f).reg a = d.reg a := by
  simp only [Dev.dofMod, reg_mk]

theorem dofMod_dof (d : Dev) (f : Doff → Doff) : (d.dofMod f).dof = f d.dof := rfl

/-- A path command that leaves the device calm. -/
theorem actPath_touches {f : Dev → Dev} {s : State} {d : Dev} (hport : s.dev.start.porstLow = false) (hcalm : s.dev.calm)
    (hf : f s.dev = d) (h : Dev.touches m P L s.dev d) : actPath f s = .next { s with dev := d } := by
  subst hf
  exact actPath_run hport (h.calm hcalm).1

/-- A path command that changes the Doff unit alone. -/
theorem actPath_dofMod {g : Dev → Dev} {s : State} (hport : s.dev.start.porstLow = false) (hcalm : s.dev.calm) (f : Doff → Doff)
    (hg : g s.dev = s.dev.dofMod f) : actPath g s = .next { s with dev := { s.dev with dof := f s.dev.dof } } :=
  actPath_touches (m := .plain) (P := [.dof]) (L := []) hport hcalm hg (dofMod_touches (by decide) f s.dev)

/-- A readout outside Doff. -/
theorem jtagDoffRead_off {d : Dev} (h : d.dof.active = false) (ue : Bool) :
    jtagDoffRead ue d = d.dofMod fun x => { x with capture := 0 } := by simp [jtagDoffRead, h]

/-- The count of a readout that meets an uncorrectable word. -/
def readoutCounted (ue : Bool) (d : Dev) : Dev :=
  if ue && d.dof.space = 0 && d.dof.addr < 8388608 then d.count DOF_UE 1 else d

theorem jtagDoffRead_on {d : Dev} (h : d.dof.active = true) (ue : Bool) :
    jtagDoffRead ue d = (readoutCounted ue d).dofMod fun x =>
      { x with capture := d.doffWord d.dof.space d.dof.addr, addr := (d.dof.addr + 1) % 2 ^ 30 } := by
  simp only [jtagDoffRead, h, Bool.not_true, Bool.false_eq_true, if_false]
  rfl

theorem readoutCounted_spec (ue : Bool) (d : Dev) :
    let t := readoutCounted ue d
    t.dof = d.dof ∧ ((d.dof.space ≠ 0 ∨ ue = false) → t.reg DOF_UE = d.reg DOF_UE) ∧
      (d.dof.space = 0 → d.dof.addr < 8388608 → ue = true → t.reg DOF_UE = min (d.reg DOF_UE + 1) 0xFFFFFFFF) ∧
      Dev.touches .plain [] [DOF_UE] d t := by
  intro t
  by_cases h : (ue && d.dof.space = 0 && d.dof.addr < 8388608) = true
  · have ht : t = d.count DOF_UE 1 := if_pos h
    clear_value t
    simp only [Bool.and_eq_true, decide_eq_true_eq] at h
    rw [ht]
    exact ⟨count_dof d _ _, fun hn => (hn.elim (absurd h.1.2) (by simp [h.1.1])), fun _ _ _ => reg_count_same _ _ _,
      .count d _ 1 (by simp)⟩
  · have ht : t = d := if_neg h
    clear_value t
    rw [ht]
    exact ⟨rfl, fun _ => rfl, fun h0 hk hu => absurd (by simp [h0, hk, hu]) h, .refl d⟩

/-! ### Management accesses of the port (R623) -/

/-- A read raises no event. -/
theorem accessWord_read_ev (a w : Nat) (d : Dev) : (accessWord false a w d).2.ev.reacts = d.ev.reacts := by
  cases h : inWindow a with
  | true => rw [accessWord_readWindow h]
  | false => rw [accessWord_readReg h, readClear_ev]

/-- An access of the port to an aligned address that it reaches is performed. -/
theorem jtagMgmt_performed {op a w : Nat} {d : Dev} (hfree : d.pathHeld .jtag = false) (hop : op = 1 ∨ op = 2)
    (hreach : d.reachable .jtag a = true) (ha : a % 4 = 0) :
    jtagMgmt op a w d = answer .jtag 0 (accessWord (op == 2) a w d).1 (accessWord (op == 2) a w d).2 := by
  have hgo : ¬ (d.pathHeld .jtag || decide (op = 0) || decide (op = 3)) = true := by
    rcases hop with rfl | rfl <;> simp [hfree]
  rw [jtagMgmt, if_neg hgo, mgmtAccess_free hfree hreach, perform_aligned ha]

theorem jtagMgmt_none {op a w : Nat} {d : Dev} (hop : op = 0 ∨ op = 3) : jtagMgmt op a w d = d := by
  rcases hop with rfl | rfl <;> simp [jtagMgmt]

theorem exec_jtagDoffAddr (w : Word) (s : State) : exec (.jtagDoffAddr w) s = actPath (jtagDoffAddr w.toNat) s := rfl

theorem exec_jtagBoundaryScan (ext : Bool) (n : Nat) (s : State) :
    exec (.jtagBoundaryScan ext n) s = actPath (fun d => d.dofMod fun x => { x with boundary := n, extest := ext }) s := rfl

theorem exec_jtagIdcode (s : State) : exec .jtagIdcode s = actPath jtagIdcode s := rfl

theorem exec_jtagDoffRead (ue : Bool) (s : State) : exec (.jtagDoffRead ue) s = actPath (jtagDoffRead ue) s := rfl

theorem exec_jtagMgmt (op : Fin 4) (a w : Word) (s : State) :
    exec (.jtagMgmt op a w) s = actPath (jtagMgmt op.val a.toNat w.toNat) s := rfl

/-- Settles O37: the port's registers change the Doff unit alone, a readout counts what it could not correct, and MGMT is the
access that it asks for. -/
theorem jtagCommands : Obligations.JtagCommands := by
  unfold Obligations.JtagCommands
  intro w a op ue ext n s hport hcalm
  refine ⟨⟨?_, ?_, ?_⟩, ?_, ?_, ?_⟩
  · exact actPath_dofMod hport hcalm (fun x =>
      { x with space := w.toNat / 2 ^ 30 % 4, addr := w.toNat % 2 ^ 30, capture := s.dev.reg DOF_STATUS }) rfl
  · exact (exec_jtagBoundaryScan ext n s).trans
      (actPath_dofMod hport hcalm (fun x => { x with boundary := n, extest := ext }) rfl)
  · exact actPath_dofMod hport hcalm (fun x =>
      { x with
        capture := devWord 2 / 256 % 16 * 2 ^ 28 + s.dev.get DEV_ID0_PART * 2 ^ 12 + Config.jtagMaker.toNat * 2 + 1 }) rfl
  · intro hoff
    exact actPath_dofMod hport hcalm (fun x => { x with capture := 0 }) (jtagDoffRead_off hoff ue)
  · intro hon
    obtain ⟨hsame, hkept, hcount, htouch⟩ := readoutCounted_spec ue s.dev
    have ht : Dev.touches .plain [.dof] [DOF_UE] s.dev _ :=
      (htouch.mono (by simp) (by simp)).trans (dofMod_touches (by decide) (fun x =>
        { x with capture := s.dev.doffWord s.dev.dof.space s.dev.dof.addr, addr := (s.dev.dof.addr + 1) % 2 ^ 30 }) _)
    refine ⟨_, (exec_jtagDoffRead ue s).trans (actPath_touches hport hcalm (jtagDoffRead_on hon ue) ht), ?_, ?_, ?_, ht.regsOnly⟩
    · rw [dofMod_dof, hsame]
    · intro h
      rw [dofMod_reg, hkept h]
    · intro h0 hk hu
      rw [dofMod_reg, hcount h0 hk hu]
  · intro hfree
    refine ⟨fun hop => ?_, fun hop hreach ha => ?_, fun hop hwin hreach ha hbox => ?_⟩
    · exact (exec_jtagMgmt op a w s).trans (actPath_touches hport hcalm (jtagMgmt_none hop) (.refl (m := .plain) (P := []) (L := []) s.dev))
    · have ht := jtagMgmt_performed (w := w.toNat) hfree (.inl hop) hreach ha
      rw [hop] at ht
      have hq : (jtagMgmt 1 a.toNat w.toNat s.dev).ev.reacts = [] := by
        rw [ht, answer_ev]
        exact (accessWord_read_ev a.toNat w.toNat s.dev).trans hcalm.1
      rw [exec_jtagMgmt, hop, actPath_run hport hq, ht]
      rfl
    · have ht : jtagMgmt 2 a.toNat w.toNat s.dev =
          answer .jtag 0 (accessWord true a.toNat w.toNat s.dev).1 (accessWord true a.toNat w.toNat s.dev).2 :=
        jtagMgmt_performed hfree (.inr rfl) hreach ha
      rw [accessWord_writeWindow hwin, if_pos hbox] at ht
      have hq : (jtagMgmt 2 a.toNat w.toNat s.dev).ev.reacts = [] := by
        rw [ht, answer_ev]
        exact hcalm.1
      rw [exec_jtagMgmt, hop, actPath_run hport hq, ht]

/-!
PROOFS about the clock monitor, the PLLs and Doff (R611 to R618, R625).
-/

/-! ### The monitor's bits (R611) -/

theorem bit_setBit_false (x i : Nat) : bit (setBit x i false) i = false := by
  simp only [bit, setBit]
  rw [testBit_putBits _ _ _ _ _ (Nat.le_refl i)]
  simp [b2n]

theorem bit_setBit_ne (x : Nat) {i k : Nat} (b : Bool) (h : k ≠ i) : bit (setBit x i b) k = bit x k := by
  simp only [bit, setBit]
  rw [testBit_putBits _ _ _ _ _ (Nat.le_refl i)]
  by_cases h1 : k < i
  · rw [if_pos h1]
  · rw [if_neg h1, if_neg (by omega)]

theorem bit_setBit_at (x i : Nat) (b : Bool) : bit (setBit x i b) i = b := by
  cases b
  · exact bit_setBit_false x i
  · exact bit_setBit_same x i

theorem setBit_word {x i : Nat} (b : Bool) (hx : x < 2 ^ 32) (hi : i < 32) : setBit x i b < 2 ^ 32 := by
  refine Nat.lt_pow_two_of_testBit _ fun k hk => ?_
  have hki : k ≠ i := by omega
  rw [show (setBit x i b).testBit k = x.testBit k from bit_setBit_ne x b hki]
  exact Nat.testBit_lt_two_pow (Nat.lt_of_lt_of_le hx (Nat.pow_le_pow_right (by decide) hk))

/-- A register in which one bit is written. -/
theorem reg_setReg_setBit (d : Dev) (a : Nat) {i : Nat} (b : Bool) (hi : i < 32) :
    (d.setReg a (setBit (d.reg a) i b)).reg a = setBit (d.reg a) i b := by
  rw [reg_setReg_same, Nat.mod_eq_of_lt (setBit_word b (reg_lt d a) hi)]

theorem liveBit_mem (e : Nat) : (liveBit e).1 = CLK_LIVE ∨ (liveBit e).1 = CLK_LANE_LIVE := by
  unfold liveBit
  split
  · exact .inl rfl
  · exact .inr rfl

theorem liveBit_lt (e : Fin 35) : (liveBit e.val).2 < 32 := by
  revert e
  decide

/-- Each domain has a bit of its own. -/
theorem liveBit_inj : ∀ e k : Fin 35, liveBit e.val = liveBit k.val → e = k := by decide

theorem setLive_touches (hL : CLK_LIVE ∈ L) (hL' : CLK_LANE_LIVE ∈ L) (e : Nat) (b : Bool) (d : Dev) :
    Dev.touches m P L d (setLive e b d) := by
  rcases liveBit_mem e with h | h
  · exact .setReg d _ _ (by rwa [h]) (by rw [h]; decide)
  · exact .setReg d _ _ (by rwa [h]) (by rw [h]; decide)

theorem setLive_live (e : Fin 35) (b : Bool) (d : Dev) : (setLive e.val b d).live e.val = b := by
  unfold setLive Dev.live
  rw [reg_setReg_same, bit_mod_word _ _ (liveBit_lt e), bit_setBit_at]

theorem setLive_live_ne {e k : Fin 35} (b : Bool) (d : Dev) (h : k ≠ e) : (setLive e.val b d).live k.val = d.live k.val := by
  unfold setLive Dev.live
  by_cases ha : (liveBit k.val).1 = (liveBit e.val).1
  · have hb : (liveBit k.val).2 ≠ (liveBit e.val).2 := fun hb => h (liveBit_inj k e (Prod.ext ha hb))
    rw [ha, reg_setReg_same, bit_mod_word _ _ (liveBit_lt k), bit_setBit_ne _ _ hb]
  · rw [reg_setReg_ne _ _ ha]

/-- The monitor's view rests on its two registers. -/
theorem Dev.touches.live {d t : Dev} (h : Dev.touches m P L d t) (h1 : CLK_LIVE ∉ L) (h2 : CLK_LANE_LIVE ∉ L) (k : Nat) :
    t.live k = d.live k := by
  have hm1 : m.reg CLK_LIVE = false := by cases m <;> rfl
  have hm2 : m.reg CLK_LANE_LIVE = false := by cases m <;> rfl
  unfold Dev.live
  rcases liveBit_mem k with hk | hk
  · rw [hk, h.reg h1 hm1]
  · rw [hk, h.reg h2 hm2]

theorem fabRuns_live (d : Dev) : d.live 1 = d.fabRuns := rfl

/-! ### Loss and return of a clock (R611 to R614) -/

theorem clockLost_lost {e : Nat} {d : Dev} (he : e ≠ 0) (hl : d.live e = true) :
    clockLost e d = aonEvent 16 0xFF 0 none (setLive e false d) := by simp [clockLost, he, hl]

/-- With the fabric stopped an occurrence of AON waits in its crossing. -/
theorem aonEvent_crosses {d : Dev} (h : d.fabRuns = false) (e inst code : Nat) (sev : Option Nat) :
    aonEvent e inst code sev d = { d with ev := { d.ev with crossing := d.ev.crossing ++ [(e, inst, code, sev)] } } := by
  simp [aonEvent, h]

/-- An event raised in AON, at once or in the crossing. -/
theorem aonEvent_touches {e : Nat} (he : e < 256) (inst code : Nat) (d : Dev) :
    Dev.touches .event P L d (aonEvent e inst code none d) := by
  cases h : d.fabRuns with
  | true => rw [aonEvent_occur h]; exact .occur e inst code d he
  | false =>
    rw [aonEvent_crosses h]
    exact ⟨fun a _ _ => reg_mk .., fun p _ hp => by cases p <;> first | rfl | exact absurd (by decide) hp, fun h => h, fun _ _ h => h⟩

/-- A discard of this session has been reported. -/
def Dev.flushSeen (d : Dev) : Bool := d.ev.cdcSeen

theorem flushSeen_of_ev {d t : Dev} (h : t.ev.cdcSeen = d.ev.cdcSeen) : t.flushSeen = d.flushSeen := h

/-- Both branches show the same. -/
theorem obs_ite {σ β : Type} {obs : σ → β} {c : Prop} [Decidable c] {t u : σ} {v : β} (h : obs t = v) (k : obs u = v) :
    obs (if c then t else u) = v := by
  split
  · exact h
  · exact k

theorem frame_cdcSeen (v : EventUnit) (r : EvRec) : (v.frame r).cdcSeen = v.cdcSeen := by
  unfold EventUnit.frame
  split
  · rfl
  · split <;> rfl

theorem hold_cdcSeen (v : EventUnit) (r : EvRec) : (v.hold r).cdcSeen = v.cdcSeen := by
  unfold EventUnit.hold
  split <;> rfl

theorem markEvent_flushSeen (e inst code : Nat) (d : Dev) : (markEvent e inst code d).flushSeen = d.flushSeen :=
  obs_ite (obs := EventUnit.cdcSeen) (obs_ite (obs := EventUnit.cdcSeen) (frame_cdcSeen ..) rfl)
    (obs_ite (obs := EventUnit.cdcSeen) (frame_cdcSeen ..) rfl)

theorem stageRec_flushSeen (r : LogRec) (d : Dev) : (stageRec r d).1.flushSeen = d.flushSeen := by
  simp only [stageRec]
  generalize (if d.wal.lost = (0, 0, 0) then ([] : List LogRec) else _) = waiting
  split
  · split <;> rfl
  · rfl

theorem occurN_flushSeen (k e inst code : Nat) (d : Dev) : (occurN k e inst code d).flushSeen = d.flushSeen := by
  induction k generalizing e inst code d with
  | zero => exact markEvent_flushSeen e inst code d
  | succ k ih =>
    have hmark := markEvent_flushSeen e inst code d
    simp only [occurN]
    generalize markEvent e inst code d = t at hmark ⊢
    refine (obs_ite hmark (obs_ite (Eq.trans (hold_cdcSeen ..) hmark) ?_))
    exact (obs_foldl_keep (fun v f _ => ih f _ _ v) _).trans ((stageRec_flushSeen _ _).trans hmark)

theorem occur_flushSeen (e inst code : Nat) (d : Dev) : (occur e inst code d).flushSeen = d.flushSeen :=
  occurN_flushSeen 3 e inst code d

/-- The clock that is back is shown, with its event. -/
def clockBack (e : Nat) (d : Dev) : Dev := occur 17 0xFF 0 (setLive e true d)

theorem clockBack_touches {L : List Nat} (hL : CLK_LIVE ∈ L) (hL' : CLK_LANE_LIVE ∈ L) (hm : m ≠ .plain) (e : Nat) (d : Dev) :
    Dev.touches m P L d (clockBack e d) :=
  (setLive_touches hL hL' e true d).trans (.occur 17 0xFF 0 _ (by decide) hm)

theorem mgmtResume_none {d : Dev} (hh : d.mgm.held = []) (hc : d.mgm.chain = []) : mgmtResume d = d := by
  have h0 : heldResume d.mgm.held.length d = d := by rw [hh]; rfl
  unfold mgmtResume
  simp only [h0, frameResume, hc]
  exact ite_self _

/-- The entries that a return discards, counted and shown. -/
def flushShown (e n : Nat) (d : Dev) : Dev :=
  ((d.count CLK_FLUSH_COUNT n).setReg CLK_FLUSH_LAST (e * 65536 + min n 0xFFFF)).put CLK_FLAGS_CDC_FLUSH 1

/-- The first discard of a session is remembered. -/
def cdcNoted (d : Dev) : Dev := { d with ev := { d.ev with cdcSeen := true } }

theorem cdcNoted_touches (hm : m ≠ .plain) (d : Dev) : Dev.touches m P L d (cdcNoted d) where
  regs _ _ _ := reg_mk ..
  parts p _ hp := by
    have hne : p ≠ .ev := fun h => by
      subst h
      cases m <;> first | exact hm rfl | exact hp (by simp [Reach.parts])
    cases p <;> first | rfl | exact absurd rfl hne
  calm h := h
  pends _ _ h := h

/-- The registers of a discard. -/
def flushRegs : List Nat := [CLK_FLUSH_COUNT, CLK_FLUSH_LAST, CLK_FLAGS]

theorem flushShown_touches (hL : flushRegs ⊆ L) (e n : Nat) (d : Dev) : Dev.touches m P L d (flushShown e n d) :=
  ((Dev.touches.count d CLK_FLUSH_COUNT n (hL (by simp [flushRegs]))).trans
    (.setReg _ CLK_FLUSH_LAST _ (hL (by simp [flushRegs])))).trans (.put _ CLK_FLAGS_CDC_FLUSH 1 (hL (by simp [flushRegs])))

theorem flushShown_spec (e : Fin 35) (n : Nat) (d : Dev) :
    (flushShown e.val n d).reg CLK_FLUSH_COUNT = min (d.reg CLK_FLUSH_COUNT + n) 0xFFFFFFFF ∧
      (flushShown e.val n d).reg CLK_FLUSH_LAST = e.val * 65536 + min n 0xFFFF ∧
      (flushShown e.val n d).on CLK_FLAGS_CDC_FLUSH = true := by
  refine ⟨?_, ?_, on_put_one _ _ (by decide) (by decide)⟩
  · rw [flushShown, reg_put_ne _ _ _ (by decide), reg_setReg_ne _ _ (by decide), reg_count_same]
  · rw [flushShown, reg_put_ne _ _ _ (by decide), reg_setReg_same, Nat.mod_eq_of_lt (by omega)]

/-- What waits in the crossings of the domain is none of DRAM's or the flash's. -/
theorem cdcFlush_none {e n : Nat} (h : n = 0 ∨ e ∈ [10, 11, 14]) (d : Dev) : cdcFlush e n d = d := by
  have : n = 0 ∨ e = 10 ∨ e = 11 ∨ e = 14 := by simpa using h
  unfold cdcFlush
  rw [if_pos (by simpa [or_assoc] using this)]

/-- A discard is counted and shown, and the first one is reported. -/
theorem cdcFlush_some {e n : Nat} (hn : n ≠ 0) (he : e ∉ [10, 11, 14]) {d : Dev} (hf : d.fabRuns = true) :
    cdcFlush e n d =
      if d.ev.cdcSeen then flushShown e n d else faultEvent 0x8A sevInfo 0xFF 18 (cdcNoted (flushShown e n d)) := by
  have hgo : ¬ (decide (n = 0) || decide (e = 10) || decide (e = 11) || decide (e = 14)) = true := by
    simpa [or_assoc, hn] using he
  have hfab : (cdcNoted (flushShown e n d)).fabRuns = true :=
    (fabRuns_congr (((flushShown_touches (m := .event) (P := []) (L := flushRegs) (fun _ h => h) e n d).trans
      (cdcNoted_touches (by decide) _)).reg (by decide) rfl)).trans hf
  rw [← aonEvent_fault hfab]
  unfold cdcFlush
  rw [if_neg hgo]
  rfl

theorem cdcFlush_touches (hL : flushRegs ⊆ L) (e n : Nat) {d : Dev} (hf : d.fabRuns = true) :
    Dev.touches .fault P L d (cdcFlush e n d) := by
  by_cases h : n = 0 ∨ e ∈ [10, 11, 14]
  · rw [cdcFlush_none h]
    exact .refl d
  · rw [cdcFlush_some (fun hn => h (.inl hn)) (fun he => h (.inr he)) hf]
    exact .ite _ (flushShown_touches hL e n d)
      (((flushShown_touches hL e n d).trans (cdcNoted_touches (by decide) _)).trans (.faultEvent 0x8A sevInfo 0xFF 18 _))

theorem clockBack_fabRuns {e : Fin 35} {d : Dev} (hfab : d.fabRuns = true) (hl : d.live e.val = false) :
    (setLive e.val true d).fabRuns = true ∧ (clockBack e.val d).fabRuns = true := by
  have hne : (1 : Fin 35) ≠ e := fun h => by
    rw [← h] at hl
    exact absurd (hl.symm.trans hfab) (by decide)
  have hset : (setLive e.val true d).fabRuns = true := (setLive_live_ne true d hne).trans hfab
  exact ⟨hset, (fabRuns_congr ((Dev.touches.occur (m := .event) (P := []) (L := []) 17 0xFF 0 _).reg (by decide) rfl)).trans hset⟩

/-- A clock returns while the fabric runs and nothing is held. -/
theorem clockReturn_eq {e : Fin 35} {n : Nat} {d : Dev} (hl : d.live e.val = false) (hfab : d.fabRuns = true)
    (hstop : d.thm.stopped = false) (hfro : d.dof.frozen = false) (hh : d.mgm.held = []) (hc : d.mgm.chain = []) :
    clockReturn e.val n d = cdcFlush e.val n (clockBack e.val d) := by
  obtain ⟨hset, hback⟩ := clockBack_fabRuns hfab hl
  have hne : e.val ≠ domFab := fun h => by
    rw [h] at hl
    exact absurd (hl.symm.trans hfab) (by decide)
  have hgo : ¬ (d.live e.val || d.thm.stopped || d.dof.frozen) = true := by simp [hl, hstop, hfro]
  have htouch : Dev.touches .fault [] ([CLK_LIVE, CLK_LANE_LIVE] ++ flushRegs) d (cdcFlush e.val n (clockBack e.val d)) :=
    (clockBack_touches (by simp) (by simp) (by decide) e.val d).trans
      (cdcFlush_touches (List.subset_append_right _ _) e.val n hback)
  have hmgm : (cdcFlush e.val n (clockBack e.val d)).mgm = d.mgm := htouch.parts .mgm (by simp) (by simp [Reach.parts])
  unfold clockReturn
  rw [if_neg hgo]
  simp only [if_neg hne, aonEvent_occur hset]
  exact mgmtResume_none ((congrArg Mgmt.held hmgm).trans hh) ((congrArg Mgmt.chain hmgm).trans hc)

/-! ### The PLLs (R571, R625) -/

theorem pllLoss_lost {p : Nat} {d : Dev} (h : bit (d.reg CLK_PLL) p = true) :
    pllLoss p d = aonEvent 19 0xFF 0 none ((d.setReg CLK_PLL (setBit (d.reg CLK_PLL) p false)).put CLK_FLAGS_PLL_LOSS 1) := by
  simp [pllLoss, h]

theorem pllRelock_chain {d : Dev} (h : ∀ u : Fin 19, vat d.flt.recovery u = none) :
    pllRelock 6 d = d.put LNK_STATUS_C_PLL_LOCK 1 := by
  simp [pllRelock, h]

/-! ### Doff (R617, R618) -/

/-- What a trigger of Doff captures. -/
def doffCaptured (cause : Nat) (d : Dev) : Dev :=
  let d := d.setReg DOF_STATUS (cause * 16 + 1)
  let d := (d.setReg DOF_SNAP_SEC d.t0.sec).setReg DOF_SNAP_NS d.t0.ns
  let d := (d.setReg DOF_SNAP_FAULT (d.reg EVT_FLT_LAST)).setReg DOF_SNAP_TRD (d.reg TRD_STATE)
  d.dofMod fun x => { x with active := true }

/-- The registers of the capture. -/
def doffRegs : List Nat := [DOF_STATUS, DOF_SNAP_SEC, DOF_SNAP_NS, DOF_SNAP_FAULT, DOF_SNAP_TRD]

theorem doffCaptured_touches (hL : doffRegs ⊆ L) (hP : .dof ∈ P ++ m.parts) (cause : Nat) (d : Dev) :
    Dev.touches m P L d (doffCaptured cause d) := by
  have h {a : Nat} (ha : a ∈ doffRegs) : a ∈ L := hL ha
  unfold doffCaptured
  extract_lets d1 d2 d3
  have h1 : Dev.touches m P L d d1 := .setReg d DOF_STATUS _ (h (by simp [doffRegs]))
  have h2 : Dev.touches m P L d1 d2 :=
    (Dev.touches.setReg d1 DOF_SNAP_SEC _ (h (by simp [doffRegs]))).trans (.setReg _ DOF_SNAP_NS _ (h (by simp [doffRegs])))
  have h3 : Dev.touches m P L d2 d3 :=
    (Dev.touches.setReg d2 DOF_SNAP_FAULT _ (h (by simp [doffRegs]))).trans (.setReg _ DOF_SNAP_TRD _ (h (by simp [doffRegs])))
  exact ((h1.trans h2).trans h3).trans (dofMod_touches hP _ d3)

theorem t0_setReg (d : Dev) (a v : Nat) : (d.setReg a v).t0 = d.t0 := by simp only [Dev.t0, setReg_bases]

theorem doffCaptured_spec {cause : Nat} (hc : cause < 16) (d : Dev) :
    (doffCaptured cause d).dof.active = true ∧ (doffCaptured cause d).reg DOF_STATUS = cause * 16 + 1 ∧
      (doffCaptured cause d).reg DOF_SNAP_SEC = d.t0.sec % 2 ^ 32 ∧ (doffCaptured cause d).reg DOF_SNAP_NS = d.t0.ns % 2 ^ 32 ∧
      (doffCaptured cause d).reg DOF_SNAP_FAULT = d.reg EVT_FLT_LAST ∧
      (doffCaptured cause d).reg DOF_SNAP_TRD = d.reg TRD_STATE := by
  unfold doffCaptured
  extract_lets d1 d2 d3
  have hl : d2.reg EVT_FLT_LAST = d.reg EVT_FLT_LAST := by
    rw [reg_setReg_ne _ _ (by decide), reg_setReg_ne _ _ (by decide), reg_setReg_ne _ _ (by decide)]
  have htr : d2.reg TRD_STATE = d.reg TRD_STATE := by
    rw [reg_setReg_ne _ _ (by decide), reg_setReg_ne _ _ (by decide), reg_setReg_ne _ _ (by decide)]
  refine ⟨by rw [dofMod_dof], ?_, ?_, ?_, ?_, ?_⟩
  · rw [dofMod_reg, reg_setReg_ne _ _ (by decide), reg_setReg_ne _ _ (by decide), reg_setReg_ne _ _ (by decide),
      reg_setReg_ne _ _ (by decide), reg_setReg_same, Nat.mod_eq_of_lt (by omega)]
  · rw [dofMod_reg, reg_setReg_ne _ _ (by decide), reg_setReg_ne _ _ (by decide), reg_setReg_ne _ _ (by decide),
      reg_setReg_same, t0_setReg]
  · rw [dofMod_reg, reg_setReg_ne _ _ (by decide), reg_setReg_ne _ _ (by decide), reg_setReg_same, t0_setReg]
  · rw [dofMod_reg, reg_setReg_ne _ _ (by decide), reg_setReg_same, hl, Nat.mod_eq_of_lt (reg_lt _ _)]
  · rw [dofMod_reg, reg_setReg_same, htr, Nat.mod_eq_of_lt (reg_lt _ _)]

theorem shtMod_touches (hP : Part.sht ∈ P) (n : Station) (f : Shuttle → Shuttle) (d : Dev) :
    Dev.touches m P L d (d.shtMod n f) := .ofWithin (toSht_within d _) (by simpa using hP)

theorem shtCutIn_touches (hP : Part.sht ∈ P) (n : Station) (k ns : Nat) (d : Dev) :
    Dev.touches m P L d (shtCutIn n k ns d) := .ite _ (.refl d) (shtMod_touches hP n _ d)

theorem fltMod_touches (hP : Part.flt ∈ P) (f : FaultUnit → FaultUnit) (d : Dev) : Dev.touches m P L d (d.fltMod f) :=
  .ofWithin (toFlt_within d _) (by simpa using hP)

/-- Outside SCAN the gate closes without a pause. -/
theorem gateClose_outside {d : Dev} (htrd : d.trdState ≠ tScan) (tau : Nat) :
    (gateClose tau d).flt.gateOpen = false ∧ ∀ {m : Reach} {P : List Part} {L : List Nat}, .sht ∈ P → .flt ∈ P →
      Dev.touches m P L d (gateClose tau d) := by
  unfold gateClose
  extract_lets k d1 d2
  have h1 {m : Reach} {P : List Part} {L : List Nat} (hs : .sht ∈ P) : Dev.touches m P L d d1 :=
    .foldl (fun v n => shtCutIn_touches hs n k (tau % 500) v) _ d
  have h2 {m : Reach} {P : List Part} {L : List Nat} (hf : .flt ∈ P) : Dev.touches m P L d1 d2 := fltMod_touches hf _ d1
  have hstate : d2.trdState = d.trdState :=
    ((h1 (m := .plain) (P := [.sht, .flt]) (L := []) (by simp)).trans (h2 (by simp))).get (by simp) rfl
  rw [if_neg (hstate ▸ htrd)]
  exact ⟨rfl, fun hs hf => (h1 hs).trans (h2 hf)⟩

/-- What a trigger of Doff makes of the capture: the report, the gate, the DRAM in self-refresh, and in PRODUCTION a wipe. -/
def doffGate (d : Dev) : Dev := gateClose 0 (faultEvent 0x8B sevHalt 0xFF 248 d)

/-- The DRAM that is trained enters self-refresh. -/
def doffDram (d : Dev) : Dev :=
  if d.on DRC_STATUS_TRAINED0 || d.on DRC_STATUS_TRAINED1 then d.drcMod fun x => { x with selfRef := Vector.replicate 2 true } else d

theorem doffDram_touches (hP : .drc ∈ P) (d : Dev) : Dev.touches m P L d (doffDram d) := .ite _ (drcMod_touches hP _ d) (.refl d)

theorem doffTake_eq {cause : Nat} {d : Dev} (ha : d.dof.active = false) (hf : d.fabRuns = true) :
    doffTake cause d =
      let t := doffDram (doffGate (doffCaptured cause d))
      if t.get DEV_LC_IN_FORCE = 2 then secWipe 6 t else t := by
  have hcap : (doffCaptured cause d).fabRuns = true :=
    (fabRuns_congr ((doffCaptured_touches (m := .plain) (P := [.dof]) (fun _ h => h) (by simp) cause d).reg (by decide) rfl)).trans hf
  have hrep : (faultEvent 0x8B sevHalt 0xFF 248 (doffCaptured cause d)).fabRuns = true :=
    (fabRuns_congr ((Dev.touches.faultEvent (P := []) (L := []) 0x8B sevHalt 0xFF 248 _).reg (by decide) rfl)).trans hcap
  unfold doffTake
  rw [if_neg (by simp [ha])]
  extract_lets s1 s2 s3 s4 s5 s6 trained s7 t
  have h5 : s5 = faultEvent 0x8B sevHalt 0xFF 248 (doffCaptured cause d) := aonEvent_fault hcap _ _ _ _
  have h6 : s6 = doffGate (doffCaptured cause d) := by
    simp only [s6, h5]
    exact if_pos hrep
  have h7 : s7 = t := congrArg doffDram h6
  rw [h7]

theorem archCauses_dof (code sev inst : Nat) (d : Dev) : (archCauses code sev inst d).dof = d.dof :=
  obs_foldl_keep (obs := Dev.dof) (fun u n _ => by
    have hcause : (archCause n u).dof = u.dof := by
      unfold archCause
      split <;> rfl
    split
    · exact hcause
    · rfl) d

/-- Doff has been triggered. -/
def Dev.doffOn (d : Dev) : Bool := d.dof.active

theorem doffOn_of_dof {d t : Dev} (h : t.dof = d.dof) : t.doffOn = d.doffOn := congrArg Doff.active h

theorem countRetry_doffOn (code inst : Nat) (u : Fin 19) (d : Dev) : (countRetry code inst u d).doffOn = d.doffOn :=
  doffOn_of_dof (setReg_dof ..)

/-- A fault detected triggers nothing by itself. -/
theorem faultD_doffOn (code sev inst d0 d1 : Nat) (d : Dev) : (faultD code sev inst d0 d1 d).doffOn = d.doffOn := by
  have hstage (r : LogRec) (u : Dev) : (stage r u).doffOn = u.doffOn :=
    doffOn_of_dof ((Dev.touches.stage (m := .event) (P := []) (L := []) r u).parts .dof (by simp) (by simp [Reach.parts]))
  unfold faultD
  extract_lets us s1 escalated sev' halting subsumed handled queued full w s2 s3 s4 s5 s6 trigger seen s7
  have h1 : s1.doffOn = d.doffOn :=
    obs_ite (obs_foldl_keep (g := fun t u => countRetry code inst u t) (fun t u _ => countRetry_doffOn code inst u t) d) rfl
  have h2 : s2.doffOn = s1.doffOn := obs_ite rfl rfl
  have h3 : s3.doffOn = s2.doffOn := doffOn_of_dof (count_dof ..)
  have h4 : s4.doffOn = s3.doffOn :=
    doffOn_of_dof ((setReg_dof ..).trans ((setReg_dof ..).trans (setReg_dof ..)))
  have h5 : s5.doffOn = s4.doffOn := obs_ite (doffOn_of_dof ((count_dof ..).trans (put_dof ..))) rfl
  have h6 : s6.doffOn = s5.doffOn := obs_ite (doffOn_of_dof (put_dof ..)) rfl
  have h7 : s7.doffOn = s6.doffOn := obs_ite rfl rfl
  rw [hstage, doffOn_of_dof (archCauses_dof code sev' inst s7), h7, h6, h5, h4, h3, h2, h1]

theorem faultEvent_doffOn (code sev inst e : Nat) (d : Dev) (he : e < 256) : (faultEvent code sev inst e d).doffOn = d.doffOn := by
  have hoccur (u : Dev) : (occur e inst code u).doffOn = u.doffOn :=
    doffOn_of_dof ((Dev.touches.occur (m := .event) (P := []) (L := []) e inst code u he).parts .dof (by simp) (by simp [Reach.parts]))
  unfold faultEvent
  rw [hoccur]
  exact faultD_doffOn code sev inst 0 0 d

/-- A report stays what later changes do not touch. -/
theorem Dev.touches.detects {code inst : Nat} {d t u : Dev} (h : Dev.touches .plain P L t u) (hc : EVT_FLT_COUNT code ∉ L)
    (hl : EVT_FLT_LAST ∉ L) (k : d.detects code inst t) : d.detects code inst u := by
  unfold Dev.detects at k ⊢
  rw [h.reg hc rfl, h.reg hl rfl]
  exact k

/-- What a trigger of Doff leaves: the capture, the closed gate, the report, and in PRODUCTION the wipe. -/
theorem doffTake_takes {cause : Nat} (hc : cause < 16) {d : Dev} (ha : d.dof.active = false) (hf : d.fabRuns = true)
    (htrd : d.trdState ≠ tScan) :
    let t := doffTake cause d
    t.dof.active = true ∧ t.flt.gateOpen = false ∧ (∀ a ∈ doffRegs, t.reg a = (doffCaptured cause d).reg a) ∧ t.pends 248 ∧
      d.detects 0x8B 0xFF t ∧
      (d.get DEV_LC_IN_FORCE = 2 → t.sec.keys = Vector.replicate 16 none ∧ t.on SEC_STATUS_WIPING = true) ∧
      Dev.touches .fault [.dof, .sht, .flt, .drc, .sec] (doffRegs ++ wipeRegs) d t := by
  intro t
  have ht : t = _ := doffTake_eq ha hf
  clear_value t
  generalize hcap : doffCaptured cause d = c at ht ⊢
  generalize hrep : faultEvent 0x8B sevHalt 0xFF 248 c = r
  generalize hdr : doffDram (doffGate c) = g at ht
  have h1 {m : Reach} {P : List Part} (hP : .dof ∈ P ++ m.parts) : Dev.touches m P doffRegs d c :=
    hcap ▸ doffCaptured_touches (fun _ h => h) hP cause d
  have h2 {P : List Part} {L : List Nat} : Dev.touches .fault P L c r := hrep ▸ .faultEvent 0x8B sevHalt 0xFF 248 c
  have hstate : r.trdState ≠ tScan := by
    have : r.trdState = d.trdState := ((h1 (m := .fault) (P := []) (by decide)).trans h2).get (by decide) rfl
    rwa [this]
  obtain ⟨hclosed, h3⟩ := gateClose_outside hstate 0
  have h34 {m : Reach} {P : List Part} {L : List Nat} (hs : .sht ∈ P) (hf : .flt ∈ P) (hd : .drc ∈ P) : Dev.touches m P L r g := by
    rw [← hdr, doffGate, hrep]
    exact (h3 hs hf).trans (doffDram_touches hd _)
  have hgate : g.flt = (gateClose 0 r).flt := by
    rw [← hdr, doffGate, hrep]
    exact (doffDram_touches (m := .plain) (P := [.drc]) (L := []) (by simp) _).parts .flt (by simp) (by simp [Reach.parts])
  obtain ⟨hwiped, _⟩ := secWipe_wipes (m := .plain) (P := []) (show 6 < 32 by decide) g
  have h5 {m : Reach} {P : List Part} {L : List Nat} (hs : .sec ∈ P) (hL : wipeRegs ⊆ L) : Dev.touches m P L g t := by
    rw [ht]
    exact .ite _ ((secWipe_wipes (m := m) (P := P) (by decide) g).2.mono (by simp [hs]) hL) (.refl g)
  have hend : Dev.touches .plain [.sht, .flt, .drc, .sec] wipeRegs r t :=
    (h34 (by simp) (by simp) (by simp)).trans (h5 (by simp) fun _ h => h)
  have hall : Dev.touches .fault [.dof, .sht, .flt, .drc, .sec] (doffRegs ++ wipeRegs) d t :=
    (((h1 (by simp)).mono (fun _ h => h) (List.subset_append_left _ _)).trans h2).trans
      ((h34 (by simp) (by simp) (by simp)).trans (h5 (by simp) (List.subset_append_right _ _)))
  refine ⟨?_, ?_, fun a ha => ?_, hend.pends 248 (by decide) ?_, ?_, fun hlc => ?_, hall⟩
  · have hrep' : r.doffOn = c.doffOn := hrep ▸ faultEvent_doffOn 0x8B sevHalt 0xFF 248 c (by decide)
    exact (doffOn_of_dof (hend.parts .dof (by simp) (by simp [Reach.parts]))).trans
      (hrep'.trans (hcap ▸ (doffCaptured_spec hc d).1))
  · rw [(h5 (m := .plain) (P := [.sec]) (by simp) fun _ h => h).parts .flt (by simp) (by simp [Reach.parts]), hgate, hclosed]
  · have hw : a ∉ wipeRegs := by
      simp only [doffRegs, List.mem_cons, List.not_mem_nil, or_false] at ha
      rcases ha with rfl | rfl | rfl | rfl | rfl <;> decide
    have hf : Reach.fault.reg a = false := by
      simp only [doffRegs, List.mem_cons, List.not_mem_nil, or_false] at ha
      rcases ha with rfl | rfl | rfl | rfl | rfl <;> rfl
    rw [hend.reg hw rfl, (h2 (P := []) (L := [])).reg (by simp) hf]
  · rw [← hrep]
    exact faultEvent_pends (by decide) (by decide) _ _ _
  · refine hend.detects (by decide) (by decide) (detects_of_reg (t := c) ((h1 (m := .plain) (P := [.dof]) (by simp)).reg (by decide) rfl) ?_)
    exact hrep ▸ faultEvent_detects sevHalt c (by decide) (by decide) (by decide) (by decide)
  · have hlcg : g.get DEV_LC_IN_FORCE = 2 := by
      rw [(h34 (m := .plain) (P := [.sht, .flt, .drc]) (L := []) (by simp) (by simp) (by simp)).get (by simp) rfl,
        (h2 (P := []) (L := [])).get (by simp) rfl, (h1 (m := .plain) (P := [.dof]) (by simp)).get (by decide) rfl, hlc]
    rw [ht]
    simp only [if_pos hlcg]
    exact ⟨Vector.ext fun i hi => (hwiped.keys ⟨i, hi⟩).1.trans (vat_replicate none ⟨i, hi⟩).symm, hwiped.wiping⟩

/-- An operation whose result is known and that leaves the device calm. -/
theorem actAon_touches {f : Dev → Dev} {s : State} {d : Dev} (hrun : s.dev.runs domAon = true) (hcalm : s.dev.calm)
    (hf : f s.dev = d) (h : Dev.touches m P L s.dev d) : actAon f s = .next { s with dev := d } := by
  subst hf
  exact actIn_touches hrun hcalm h

/-- Settles O39: the monitor's bits, the discards, the PLLs and the trigger of Doff, each by its own lemma. -/
theorem clocksAndDoff : Obligations.ClocksAndDoff := by
  unfold Obligations.ClocksAndDoff
  intro e n p q t s hrun hcalm
  refine ⟨fun he hl => ?_, fun hl hfab hstop hfro hheld hchain => ?_, fun hp hfab => ?_, ⟨fun hq => ?_, fun hq => ?_, fun hq hrec => ?_⟩,
    fun ht ha hfab htrd => ?_, fun ha hpin => ?_, fun ha hfro => ?_⟩
  · have hset {m : Reach} : Dev.touches m [] [CLK_LIVE, CLK_LANE_LIVE] s.dev (setLive e.val false s.dev) :=
      setLive_touches (by simp) (by simp) _ _ _
    have hraise {L : List Nat} : Dev.touches .event [] L (setLive e.val false s.dev) (clockLost e.val s.dev) := by
      rw [clockLost_lost he hl]
      exact aonEvent_touches (by decide) _ _ _
    have hsame (k : Nat) : (clockLost e.val s.dev).live k = (setLive e.val false s.dev).live k :=
      (hraise (L := [])).live (by simp) (by simp) k
    have hfab : (clockLost e.val s.dev).fabRuns = (setLive e.val false s.dev).fabRuns := hsame 1
    refine ⟨_, actIn_touches hrun hcalm (hset.trans hraise), (hsame _).trans (setLive_live e false _),
      fun k hk => (hsame _).trans (setLive_live_ne _ _ hk), fun h => ?_, fun h => ?_, (hset.trans hraise).withEvent⟩
    · rw [clockLost_lost he hl, aonEvent_occur (hfab ▸ h)]
      exact occur_pends 16 0xFF 0 _ (by decide)
    · have hstop : (setLive e.val false s.dev).fabRuns = false := hfab ▸ h
      rw [clockLost_lost he hl, aonEvent_crosses hstop]
      exact ⟨rfl, rfl, fun a ha => (reg_mk ..).trans ((hset (m := .plain)).reg ha rfl)⟩
  · obtain ⟨_, hback⟩ := clockBack_fabRuns hfab hl
    have heq := clockReturn_eq (n := n) hl hfab hstop hfro hheld hchain
    have h1 {m : Reach} (hm : m ≠ .plain) : Dev.touches m [] [CLK_LIVE, CLK_LANE_LIVE] s.dev (clockBack e.val s.dev) :=
      clockBack_touches (by simp) (by simp) hm _ _
    have h2 {L : List Nat} (hL : flushRegs ⊆ L) : Dev.touches .fault [] L (clockBack e.val s.dev) (clockReturn e.val n s.dev) :=
      heq ▸ cdcFlush_touches hL e.val n hback
    have hall : Dev.touches .fault [] ([CLK_LIVE, CLK_LANE_LIVE] ++ flushRegs) s.dev (clockReturn e.val n s.dev) :=
      ((h1 (by decide)).mono (fun _ h => h) (List.subset_append_left _ _)).trans (h2 (List.subset_append_right _ _))
    have hsame (k : Nat) : (clockReturn e.val n s.dev).live k = (setLive e.val true s.dev).live k :=
      ((h2 fun _ h => h).live (by decide) (by decide) k).trans
        ((Dev.touches.occur (m := .event) (P := []) (L := []) 17 0xFF 0 _).live (by simp) (by simp) k)
    refine ⟨_, actIn_touches hrun hcalm hall, (hsame _).trans (setLive_live e true _),
      (h2 fun _ h => h).pends 17 (by decide) (occur_pends 17 0xFF 0 _ (by decide)),
      fun k hk => (hsame _).trans (setLive_live_ne _ _ hk), fun hnone => ?_, fun hn he => ?_⟩
    · rw [heq, cdcFlush_none hnone]
      exact (h1 (by decide)).withEvent
    · obtain ⟨hcount, hlast, hflag⟩ := flushShown_spec e n (clockBack e.val s.dev)
      have hrest {L : List Nat} : Dev.touches .fault [] L (flushShown e.val n (clockBack e.val s.dev)) (clockReturn e.val n s.dev) := by
        rw [heq, cdcFlush_some hn he hback]
        exact .ite _ (.refl _) ((cdcNoted_touches (by decide) _).trans (.faultEvent 0x8A sevInfo 0xFF 18 _))
      refine ⟨?_, ?_, ?_, fun hseen => ?_, hall.withFault⟩
      · rw [(hrest (L := [])).reg (by simp) rfl, hcount, (h1 (m := .event) (by decide)).reg (by decide) rfl]
      · rw [(hrest (L := [])).reg (by simp) rfl, hlast]
      · rw [(hrest (L := [])).on (by simp) rfl, hflag]
      · have hfirst : clockReturn e.val n s.dev =
            faultEvent 0x8A sevInfo 0xFF 18 (cdcNoted (flushShown e.val n (clockBack e.val s.dev))) := by
          have hseen' : (clockBack e.val s.dev).ev.cdcSeen = false := (occur_flushSeen 17 0xFF 0 _).trans hseen
          rw [heq, cdcFlush_some hn he hback, hseen', if_neg (by simp)]
        have hcount0 : (cdcNoted (flushShown e.val n (clockBack e.val s.dev))).reg (EVT_FLT_COUNT 0x8A) =
            s.dev.reg (EVT_FLT_COUNT 0x8A) :=
          (((h1 (m := .event) (by decide)).mono (fun _ h => h) (List.subset_append_left _ _)).trans
            ((flushShown_touches (List.subset_append_right _ _) e.val n _).trans (cdcNoted_touches (by decide) _))).reg
            (by decide) (by decide)
        rw [hfirst]
        exact ⟨faultEvent_pends (by decide) (by decide) _ _ _,
          detects_of_reg hcount0 (faultEvent_detects sevInfo _ (by decide) (by decide) (by decide) (by decide))⟩
  · have hset {m : Reach} : Dev.touches m [] [CLK_PLL, CLK_FLAGS] s.dev
        ((s.dev.setReg CLK_PLL (setBit (s.dev.reg CLK_PLL) p.val false)).put CLK_FLAGS_PLL_LOSS 1) :=
      (Dev.touches.setReg s.dev CLK_PLL _ (by simp)).trans (.put _ CLK_FLAGS_PLL_LOSS 1 (by simp))
    have heq := pllLoss_lost hp
    rw [aonEvent_occur ((fabRuns_congr ((hset (m := .plain)).reg (by decide) rfl)).trans hfab)] at heq
    have hraise {L : List Nat} : Dev.touches .event [] L
        ((s.dev.setReg CLK_PLL (setBit (s.dev.reg CLK_PLL) p.val false)).put CLK_FLAGS_PLL_LOSS 1) (pllLoss p.val s.dev) := by
      rw [heq]
      exact .occur 19 0xFF 0 _
    refine ⟨_, actIn_touches hrun hcalm (hset.trans hraise), ?_, ?_, heq ▸ occur_pends 19 0xFF 0 _ (by decide),
      (hset.trans hraise).withEvent⟩
    · rw [(hraise (L := [])).reg (by simp) rfl, reg_put_ne _ _ _ (by decide), reg_setReg_setBit _ _ _ (by omega)]
    · rw [(hraise (L := [])).on (by simp) rfl, on_put_one _ _ (by decide) (by decide)]
  · exact actAon_touches (m := .plain) (P := []) (L := [CLK_PLL]) hrun hcalm (if_pos hq) (.setReg s.dev CLK_PLL _ (by simp))
  · exact actAon_touches (m := .plain) (P := []) (L := [LNK_STATUS]) hrun hcalm
      ((if_neg (by omega)).trans (if_pos hq)) (.put s.dev LNK_STATUS_S_PLL_LOCK 1 (by simp))
  · exact actAon_touches (m := .plain) (P := []) (L := [LNK_STATUS]) hrun hcalm
      (hq ▸ pllRelock_chain hrec) (.put s.dev LNK_STATUS_C_PLL_LOCK 1 (by simp))
  · have heq : doffTrigger t s.dev = doffTake (if t = .pin then 1 else 2) s.dev := by
      rcases ht with ⟨rfl, hpin⟩ | rfl
      · exact if_pos hpin
      · rfl
    obtain ⟨hact, hgate, hcap, hpend, hdet, hwipe, htouch⟩ := doffTake_takes (cause := if t = .pin then 1 else 2)
      (by split <;> decide) ha hfab htrd
    obtain ⟨_, hst, hsec, hns, hflt, htr⟩ := doffCaptured_spec (cause := if t = .pin then 1 else 2) (by split <;> decide) s.dev
    refine ⟨_, actAon_touches hrun hcalm heq htouch, hact, hgate, ?_, ?_, ?_, ?_, ?_, hpend, hdet, hwipe,
      htouch.frame ?_ ?_ (by decide) (by decide)⟩
    · rw [hcap _ (by simp [doffRegs]), hst]
    · rw [hcap _ (by simp [doffRegs]), hsec]
    · rw [hcap _ (by simp [doffRegs]), hns]
    · rw [hcap _ (by simp [doffRegs]), hflt]
    · rw [hcap _ (by simp [doffRegs]), htr]
    · decide
    · decide
  · have heq : doffTrigger .pin s.dev = s.dev.countF DOF_STATUS_LATER := (if_pos hpin).trans (if_pos ha)
    have htouch : Dev.touches .plain [] [DOF_STATUS] s.dev (s.dev.countF DOF_STATUS_LATER) := .countF s.dev _ (by simp)
    exact ⟨_, actAon_touches hrun hcalm heq htouch,
      (get_put_same s.dev DOF_STATUS_LATER _ (by decide) (by decide)).trans (Nat.mod_eq_of_lt (by simp only; omega)), htouch.regsOnly⟩
  · have hgo : ¬ (!s.dev.dof.active || s.dev.dof.frozen) = true := by simp [ha, hfro]
    have htouch : Dev.touches .plain [.dof] [CLK_LIVE, CLK_LANE_LIVE, DOF_STATUS] s.dev _ :=
      (((Dev.touches.setReg s.dev CLK_LIVE (Nat.land (s.dev.reg CLK_LIVE) 0x10001) (by simp)).trans
        (.setReg _ CLK_LANE_LIVE 0 (by simp))).trans (.put _ DOF_STATUS_FROZEN 1 (by simp))).trans
        (dofMod_touches (by simp) (fun x => { x with frozen := true }) _)
    exact actAon_touches hrun hcalm (if_neg hgo) htouch

/-!
PROOFS about the pyrometer measurements of Trim (R532 to R547).
-/

/-! ### The state of Trim -/

theorem trmMod_touches (hP : .trm ∈ P) (f : Trim → Trim) (d : Dev) : Dev.touches m P L d (d.trmMod f) :=
  .ofWithin (toTrm_within d _) (by simpa using hP)

theorem trimMod_touches (hP : .trm ∈ P) (n : Station) (f : TrimStation → TrimStation) (d : Dev) :
    Dev.touches m P L d (d.trimMod n f) := trmMod_touches hP _ d

@[simp] theorem trimMod_reg (n : Station) (f : TrimStation → TrimStation) (d : Dev) (a : Nat) : (d.trimMod n f).reg a = d.reg a := by
  simp only [Dev.trimMod, Dev.trmMod, reg_mk]

@[simp] theorem trimMod_trim (n : Station) (f : TrimStation → TrimStation) (d : Dev) : (d.trimMod n f).trim n = f (d.trim n) := by
  simp [Dev.trimMod, Dev.trmMod, Dev.trim]

theorem trimMod_trim_ne {n k : Station} (f : TrimStation → TrimStation) (d : Dev) (h : k ≠ n) :
    (d.trimMod n f).trim k = d.trim k := vat_vmod_ne _ _ h

theorem trim_of_trm {d t : Dev} (h : t.trm = d.trm) (k : Station) : t.trim k = d.trim k := by simp only [Dev.trim, h]

/-- What is no change of Trim's state shows the stations as before. -/
theorem Dev.touches.trim_same {d t : Dev} (h : Dev.touches m P L d t) (hP : .trm ∉ P) (k : Station) : t.trim k = d.trim k :=
  trim_of_trm (h.parts .trm hP (by cases m <;> simp [Reach.parts])) k

/-- The registers of a station of Trim stand in block 16. -/
theorem silentReg_trms {a : Nat} (h : a / 0x10000 = 16) : silentReg a = true := silentReg_of_block h

/-- The STATE field of a station (R550). -/
def TrimStation.stateNo (t : TrimStation) : Nat :=
  match t.meas with
  | none => 0
  | some m => if !m.gain then 1 else if t.slewD.isSome then 2 else 3

theorem TrimStation.stateNo_lt (t : TrimStation) : t.stateNo < 8 := by
  unfold stateNo
  split
  · omega
  · split
    · omega
    · split <;> omega

theorem trimShow_touches {n : Station} (hs : TRMS_STATUS n ∈ L) (hr : TRM_STATUS ∈ L) (d : Dev) :
    Dev.touches m P L d (trimShow n d) := by
  have hq : silentReg (TRMS_STATUS n) = true := silentReg_trms (by simp only [TRMS_STATUS]; omega)
  unfold trimShow
  extract_lets t st s1 s2 pend
  have h1 : Dev.touches m P L d s1 := (Dev.touches.put d (TRMS_STATUS_STATE n) st hs hq).trans (.put _ (TRMS_STATUS_SLEW_D n) _ hs hq)
  have h2 : Dev.touches m P L s1 s2 := (Dev.touches.put s1 (TRMS_STATUS_SLEW_G n) _ hs hq).trans (.put _ (TRMS_STATUS_GRID_PEND n) _ hs hq)
  exact (h1.trans h2).trans (.put s2 TRM_STATUS_REG_STATE _ hr)

/-- A grid of a registration waits for the layer boundary. -/
def Dev.regPending (d : Dev) : Bool := d.trm.fromReg && (List.finRange 16).any fun (k : Station) => (d.trim k).kNew.isSome

/-- REG_STATE as the state gives it (R548). -/
def Dev.regState (d : Dev) : Nat := if d.regPending then 3 else if d.trm.due then 2 else b2n d.trm.armed

theorem Dev.regState_lt (d : Dev) : d.regState < 4 := by
  have := b2n_le d.trm.armed
  unfold Dev.regState
  split
  · omega
  · split <;> omega

theorem trimShow_spec (n : Station) (d : Dev) :
    (trimShow n d).get (TRMS_STATUS_STATE n) = (d.trim n).stateNo ∧
      (trimShow n d).get (TRMS_STATUS_RESULT n) = d.get (TRMS_STATUS_RESULT n) ∧
      (trimShow n d).on (TRMS_STATUS_GRID_PEND n) = (d.trim n).kNew.isSome ∧
      (trimShow n d).get TRM_STATUS_REG_STATE = d.regState := by
  have hne : TRMS_STATUS n ≠ TRM_STATUS := by simp only [TRMS_STATUS, TRM_STATUS]; omega
  unfold trimShow
  extract_lets t st s1 s2 pend
  have hlast (f : Field) (v : Nat) (hf : f.addr = TRMS_STATUS n) : (s2.put TRM_STATUS_REG_STATE v).get f = s2.get f := by
    simp only [Dev.get]
    rw [reg_put_ne s2 TRM_STATUS_REG_STATE v (hf ▸ hne)]
  refine ⟨?_, ?_, ?_, ?_⟩
  · rw [hlast _ _ rfl]
    simp only [s2, s1]
    rw [get_put_ne _ _ _ _ (by simp) (by simp) (by simp), get_put_ne _ _ _ _ (by simp) (by simp) (by simp),
      get_put_ne _ _ _ _ (by simp) (by simp) (by simp), get_put_same _ _ _ (by simp) (by simp)]
    exact Nat.mod_eq_of_lt (TrimStation.stateNo_lt (d.trim n))
  · rw [hlast _ _ rfl]
    simp only [s2, s1]
    rw [get_put_ne _ _ _ _ (by simp) (by simp) (by simp), get_put_ne _ _ _ _ (by simp) (by simp) (by simp),
      get_put_ne _ _ _ _ (by simp) (by simp) (by simp), get_put_ne _ _ _ _ (by simp) (by simp) (by simp)]
  · rw [Dev.on, hlast _ _ rfl]
    simp only [s2, s1]
    rw [get_put_same _ _ _ (by simp) (by simp)]
    cases t.kNew.isSome <;> rfl
  · rw [get_put_same _ _ _ (by simp) (by simp)]
    have htrm : s2.trm = d.trm := by simp only [s2, s1, put_trm]
    have hpend : pend = d.regPending := by
      simp only [pend, Dev.regPending, Dev.trim, htrm]
    rw [hpend, htrm]
    exact Nat.mod_eq_of_lt d.regState_lt

/-! ### RESULT and the failure (R546) -/

theorem trimFail_touches (inst : Nat) (d : Dev) : Dev.touches .fault P L d (trimFail inst d) :=
  .faultEvent 0x80 sevInfo inst 227 d

theorem trimResult_done {r : Nat} (h : r ≤ 1) (n : Station) (d : Dev) : trimResult n r d = d.put (TRMS_STATUS_RESULT n) r := if_pos h

theorem trimResult_bad {r : Nat} (h : 1 < r) (n : Station) (d : Dev) :
    trimResult n r d = trimFail n.val ((d.put (TRMS_STATUS_RESULT n) r).put TRM_FLAGS_STN_FAIL 1) := if_neg (by omega)

theorem putResult_touches {n : Station} (hs : TRMS_STATUS n ∈ L) (r : Nat) (d : Dev) :
    Dev.touches m P L d (d.put (TRMS_STATUS_RESULT n) r) :=
  .put d (TRMS_STATUS_RESULT n) r hs (silentReg_trms (by simp only [TRMS_STATUS]; omega))

/-- A RESULT that is a failure is shown, with E227 and TRIM_FAIL. -/
theorem trimResult_fails {r : Nat} (h : 1 < r) (hr : r < 16) (n : Station) (d : Dev) :
    (trimResult n r d).get (TRMS_STATUS_RESULT n) = r ∧ (trimResult n r d).pends 227 ∧ d.detects 0x80 n (trimResult n r d) ∧
      ∀ {P : List Part} {L : List Nat}, TRMS_STATUS n ∈ L → TRM_FLAGS ∈ L → Dev.touches .fault P L d (trimResult n r d) := by
  rw [trimResult_bad h]
  generalize hu : (d.put (TRMS_STATUS_RESULT n) r).put TRM_FLAGS_STN_FAIL 1 = u
  have h1 {P : List Part} {L : List Nat} (hs : TRMS_STATUS n ∈ L) (hf : TRM_FLAGS ∈ L) : Dev.touches .fault P L d u :=
    hu ▸ (putResult_touches hs r d).trans (.put _ TRM_FLAGS_STN_FAIL 1 hf)
  have hres : u.get (TRMS_STATUS_RESULT n) = r := by
    rw [← hu, get_put_ne _ _ _ _ (by simp) (by simp) (.inl (by simp only [TRMS_STATUS, TRM_FLAGS]; omega)),
      get_put_same _ _ _ (by simp) (by simp)]
    exact Nat.mod_eq_of_lt (by simpa using hr)
  have hcount : u.reg (EVT_FLT_COUNT 0x80) = d.reg (EVT_FLT_COUNT 0x80) := by
    rw [← hu, reg_put_ne _ _ _ (by decide), reg_put_ne _ _ _ (by simp only [TRMS_STATUS, EVT_FLT_COUNT]; omega)]
  refine ⟨?_, faultEvent_pends (by decide) (by decide) _ _ _, detects_of_reg hcount
    (faultEvent_detects sevInfo u (by decide) (by decide) (by omega) (by decide)), fun hs hf => (h1 hs hf).trans (trimFail_touches _ _)⟩
  rw [(trimFail_touches (P := []) (L := []) n.val u).get (by simp) ?_, hres]
  exact faultReg_of_block (n := 16) (by simp only [TRMS_STATUS]; omega)

/-! ### Changes of a station that are shown -/

theorem trimShow_trim (n k : Station) (d : Dev) : (trimShow n d).trim k = d.trim k :=
  (trimShow_touches (m := .plain) (P := []) (L := [TRMS_STATUS n, TRM_STATUS]) (by simp) (by simp) d).trim_same (by simp) k

theorem trimShow_trm (n : Station) (d : Dev) : (trimShow n d).trm = d.trm :=
  (trimShow_touches (m := .plain) (P := []) (L := [TRMS_STATUS n, TRM_STATUS]) (by simp) (by simp) d).parts .trm (by simp)
    (by simp [Reach.parts])

theorem trimShow_reg {n : Station} {a : Nat} (h : a ≠ TRMS_STATUS n) (h' : a ≠ TRM_STATUS) (d : Dev) :
    (trimShow n d).reg a = d.reg a :=
  (trimShow_touches (m := .plain) (P := []) (L := [TRMS_STATUS n, TRM_STATUS]) (by simp) (by simp) d).reg (by simp [h, h']) rfl

/-- A change of a station, shown. -/
def trimSet (n : Station) (f : TrimStation → TrimStation) (d : Dev) : Dev := trimShow n (d.trimMod n f)

theorem trimSet_touches {n : Station} (hP : .trm ∈ P) (hs : TRMS_STATUS n ∈ L) (hr : TRM_STATUS ∈ L) (f : TrimStation → TrimStation)
    (d : Dev) : Dev.touches m P L d (trimSet n f d) := (trimMod_touches hP n f d).trans (trimShow_touches hs hr _)

theorem trimSet_trim (n : Station) (f : TrimStation → TrimStation) (d : Dev) : (trimSet n f d).trim n = f (d.trim n) :=
  (trimShow_trim n n _).trans (trimMod_trim n f d)

theorem trimSet_trim_ne {n k : Station} (h : k ≠ n) (f : TrimStation → TrimStation) (d : Dev) : (trimSet n f d).trim k = d.trim k :=
  (trimShow_trim n k _).trans (trimMod_trim_ne f d h)

theorem trimSet_result (n : Station) (f : TrimStation → TrimStation) (d : Dev) :
    (trimSet n f d).get (TRMS_STATUS_RESULT n) = d.get (TRMS_STATUS_RESULT n) := by
  refine (trimShow_spec n _).2.1.trans ?_
  simp only [Dev.get, trimMod_reg]

theorem trimSet_reg {n : Station} {a : Nat} (h : a ≠ TRMS_STATUS n) (h' : a ≠ TRM_STATUS) (f : TrimStation → TrimStation) (d : Dev) :
    (trimSet n f d).reg a = d.reg a := (trimShow_reg h h' _).trans (trimMod_reg n f d a)

/-- The slew of D1 and D2 that starts (R542). -/
def Dev.darkSlew (d : Dev) (n : Station) (new len : Nat) : TrimSlew :=
  ⟨[(d.get (MPLS_DARK_D1 n) : Nat), (d.get (MPLS_DARK_D2 n) : Nat)], [(bits new 15 0 : Nat), (bits new 31 16 : Nat)], 0, len⟩

/-- The slew of G that starts (R542). -/
def Dev.gainSlew (d : Dev) (n : Station) (new len : Nat) : TrimSlew := ⟨[(d.reg (MPLS_GAIN n) : Nat)], [(new : Nat)], 0, len⟩

theorem slewDark_eq (n : Station) (new len : Nat) (d : Dev) :
    slewDark n new len d = trimSet n (fun t => { t with slewD := some (d.darkSlew n new len) }) d := rfl

theorem slewGain_eq (n : Station) (new len : Nat) (d : Dev) :
    slewGain n new len d = trimSet n (fun t => { t with slewG := some (d.gainSlew n new len) }) d := rfl

/-! ### Start and end of a measurement (R532 to R537) -/

/-- The measurement stands ready, its counts cleared. -/
def measReady (n : Station) (gain : Bool) (d : Dev) : Dev :=
  let u := (d.trimMod n fun t => { t with meas := some (d.trimMeas n gain) }).setReg (TRMS_SAMPLES n) 0
  if gain then u.setReg (TRMS_G_OUT n) 0 else u

theorem trimStart_idle {n : Station} {d : Dev} (h : (d.trim n).meas = none) (gain : Bool) :
    trimStart n gain d = trimShow n (measReady n gain d) := if_neg (by simp [h])

theorem trimStart_busy {n : Station} {d : Dev} (h : (d.trim n).meas.isSome = true) (gain : Bool) :
    trimStart n gain d = trimResult n 6 d := if_pos h

theorem measReady_touches {n : Station} {gain : Bool} (hP : .trm ∈ P) (hs : TRMS_SAMPLES n ∈ L)
    (ho : gain = true → TRMS_G_OUT n ∈ L) (d : Dev) : Dev.touches m P L d (measReady n gain d) := by
  have h1 := (trimMod_touches (m := m) (L := L) hP n (fun t => { t with meas := some (d.trimMeas n gain) }) d).trans
    (.setReg _ (TRMS_SAMPLES n) 0 hs (silentReg_trms (by simp only [TRMS_SAMPLES]; omega)))
  cases gain with
  | false => exact h1
  | true => exact h1.trans (.setReg _ (TRMS_G_OUT n) 0 (ho rfl) (silentReg_trms (by simp only [TRMS_G_OUT]; omega)))

theorem measReady_trim (n : Station) (gain : Bool) (d : Dev) :
    (measReady n gain d).trim n = { d.trim n with meas := some (d.trimMeas n gain) } ∧
      ∀ k, k ≠ n → (measReady n gain d).trim k = d.trim k := by
  have htrm : (measReady n gain d).trm = (d.trimMod n fun t => { t with meas := some (d.trimMeas n gain) }).trm := by
    cases gain
    · exact setReg_trm _ _ _
    · exact (setReg_trm _ _ _).trans (setReg_trm _ _ _)
  exact ⟨(trim_of_trm htrm n).trans (trimMod_trim n _ d), fun k hk => (trim_of_trm htrm k).trans (trimMod_trim_ne _ d hk)⟩

theorem measReady_counts (n : Station) (gain : Bool) (d : Dev) :
    (measReady n gain d).reg (TRMS_SAMPLES n) = 0 ∧ (gain = true → (measReady n gain d).reg (TRMS_G_OUT n) = 0) := by
  cases gain with
  | false => exact ⟨(reg_setReg_same _ _ _).trans rfl, fun h => absurd h (by decide)⟩
  | true =>
    refine ⟨?_, fun _ => (reg_setReg_same _ _ _).trans rfl⟩
    exact (reg_setReg_ne _ _ (by simp only [TRMS_SAMPLES, TRMS_G_OUT]; omega)).trans ((reg_setReg_same _ _ _).trans rfl)

/-- A measurement that starts (R532). -/
theorem trimStart_starts {n : Station} {d : Dev} (h : (d.trim n).meas = none) (gain : Bool) :
    let t := trimStart n gain d
    t.trim n = { d.trim n with meas := some (d.trimMeas n gain) } ∧
      t.get (TRMS_STATUS_STATE n) = (if gain then (if (d.trim n).slewD.isSome then 2 else 3) else 1) ∧
      t.reg (TRMS_SAMPLES n) = 0 ∧ (gain = true → t.reg (TRMS_G_OUT n) = 0) ∧ (∀ k, k ≠ n → t.trim k = d.trim k) ∧
      ∀ {L : List Nat}, TRMS_STATUS n ∈ L → TRM_STATUS ∈ L → TRMS_SAMPLES n ∈ L → (gain = true → TRMS_G_OUT n ∈ L) →
        Dev.touches .plain [.trm] L d t := by
  intro t
  have ht : t = trimShow n (measReady n gain d) := trimStart_idle h gain
  clear_value t
  obtain ⟨htrim, hother⟩ := measReady_trim n gain d
  obtain ⟨hsamples, hout⟩ := measReady_counts n gain d
  subst ht
  have hreg {a : Nat} (h1 : a ≠ TRMS_STATUS n) (h2 : a ≠ TRM_STATUS) :
      (trimShow n (measReady n gain d)).reg a = (measReady n gain d).reg a := trimShow_reg h1 h2 _
  refine ⟨(trimShow_trim n n _).trans htrim, ?_, ?_, fun hg => ?_, fun k hk => (trimShow_trim n k _).trans (hother k hk),
    fun hs hr hn ho => (measReady_touches (by simp) hn ho d).trans (trimShow_touches hs hr _)⟩
  · rw [(trimShow_spec n _).1, htrim]
    cases gain <;> rfl
  · rw [hreg (by simp only [TRMS_SAMPLES, TRMS_STATUS]; omega) (by simp only [TRMS_SAMPLES, TRM_STATUS]; omega), hsamples]
  · rw [hreg (by simp only [TRMS_G_OUT, TRMS_STATUS]; omega) (by simp only [TRMS_G_OUT, TRM_STATUS]; omega), hout hg]

/-- The measurement is over. -/
def measStopped (n : Station) (d : Dev) : Dev :=
  (d.trimMod n fun t => { t with meas := none }).put (MPLS_STATUS_TRIM_HOLD n) 0

theorem measStopped_touches {n : Station} (hP : .trm ∈ P) (hL : MPLS_STATUS n ∈ L) (d : Dev) :
    Dev.touches m P L d (measStopped n d) :=
  (trimMod_touches hP n _ d).trans
    (.put _ (MPLS_STATUS_TRIM_HOLD n) 0 hL (silentReg_of_block (n := 11) (by simp only [MPLS_STATUS]; omega)))

theorem measStopped_trim (n : Station) (d : Dev) :
    (measStopped n d).trim n = { d.trim n with meas := none } ∧ ∀ k, k ≠ n → (measStopped n d).trim k = d.trim k := by
  have htrm : (measStopped n d).trm = (d.trimMod n fun t => { t with meas := none }).trm := put_trm _ _ _
  exact ⟨(trim_of_trm htrm n).trans (trimMod_trim n _ d), fun k hk => (trim_of_trm htrm k).trans (trimMod_trim_ne _ d hk)⟩

theorem trimEnd_eq (n : Station) (r : Nat) (d : Dev) : trimEnd n r d = trimShow n (trimResult n r (measStopped n d)) := rfl

/-- A measurement that ends in a failure (R546). -/
theorem trimEnd_fails {r : Nat} (h : 1 < r) (hr : r < 16) (n : Station) (d : Dev) :
    let t := trimEnd n r d
    t.trim n = { d.trim n with meas := none } ∧ t.get (TRMS_STATUS_RESULT n) = r ∧ t.get (TRMS_STATUS_STATE n) = 0 ∧ t.pends 227 ∧
      d.detects 0x80 n t ∧ (∀ k, k ≠ n → t.trim k = d.trim k) ∧
      ∀ {L : List Nat}, TRMS_STATUS n ∈ L → TRM_STATUS ∈ L → TRM_FLAGS ∈ L → MPLS_STATUS n ∈ L → Dev.touches .fault [.trm] L d t := by
  intro t
  have ht : t = trimShow n (trimResult n r (measStopped n d)) := trimEnd_eq n r d
  clear_value t
  obtain ⟨hself, hother⟩ := measStopped_trim n d
  obtain ⟨hres, hpend, hdet, htouch⟩ := trimResult_fails h hr n (measStopped n d)
  have hkeep (k : Station) : (trimResult n r (measStopped n d)).trim k = (measStopped n d).trim k :=
    (htouch (P := []) (L := [TRMS_STATUS n, TRM_FLAGS]) (by simp) (by simp)).trim_same (by simp) k
  have hcount : (measStopped n d).reg (EVT_FLT_COUNT 0x80) = d.reg (EVT_FLT_COUNT 0x80) :=
    (measStopped_touches (m := .plain) (P := [.trm]) (L := [MPLS_STATUS n]) (by simp) (by simp) d).reg
      (by simp only [List.mem_singleton, MPLS_STATUS, EVT_FLT_COUNT]; omega) rfl
  have hshow {m : Reach} {P : List Part} : Dev.touches m P [TRMS_STATUS n, TRM_STATUS] (trimResult n r (measStopped n d)) t :=
    ht ▸ trimShow_touches (by simp) (by simp) _
  obtain ⟨hstate, hresult, _, _⟩ := trimShow_spec n (trimResult n r (measStopped n d))
  refine ⟨?_, ?_, ?_, (hshow (m := .plain) (P := [])).pends 227 (by decide) hpend, ?_, fun k hk => ?_, fun hs hr' hf hm => ?_⟩
  · rw [ht, trimShow_trim, hkeep, hself]
  · rw [ht, hresult, hres]
  · rw [ht, hstate, hkeep, hself]
    rfl
  · exact detects_of_reg hcount ((hshow (m := .plain) (P := [])).detects
      (by simp only [List.mem_cons, List.not_mem_nil, or_false, EVT_FLT_COUNT, TRMS_STATUS, TRM_STATUS]; omega)
      (by simp only [List.mem_cons, List.not_mem_nil, or_false, EVT_FLT_LAST, TRMS_STATUS, TRM_STATUS]; omega) hdet)
  · rw [ht, trimShow_trim, hkeep, hother k hk]
  · exact ((measStopped_touches (by simp) hm d).trans (htouch hs hf)).trans (hshow.mono (fun _ h => h) (by simp [hs, hr']))

/-- A measurement that ends well (R546). -/
theorem trimEnd_ends (n : Station) (d : Dev) :
    let t := trimEnd n 1 d
    t.trim n = { d.trim n with meas := none } ∧ t.get (TRMS_STATUS_RESULT n) = 1 ∧ (∀ k, k ≠ n → t.trim k = d.trim k) ∧
      ∀ {m : Reach} {L : List Nat}, TRMS_STATUS n ∈ L → TRM_STATUS ∈ L → MPLS_STATUS n ∈ L → Dev.touches m [.trm] L d t := by
  intro t
  have ht : t = trimShow n ((measStopped n d).put (TRMS_STATUS_RESULT n) 1) :=
    (trimEnd_eq n 1 d).trans (by rw [trimResult_done (by decide)])
  clear_value t
  obtain ⟨hself, hother⟩ := measStopped_trim n d
  have hkeep (k : Station) : ((measStopped n d).put (TRMS_STATUS_RESULT n) 1).trim k = (measStopped n d).trim k :=
    trim_of_trm (put_trm _ _ _) k
  refine ⟨?_, ?_, fun k hk => ?_, fun hs hr' hm => ?_⟩
  · rw [ht, trimShow_trim, hkeep, hself]
  · rw [ht, (trimShow_spec n _).2.1, get_put_same _ _ _ (by simp) (by simp)]
    rfl
  · rw [ht, trimShow_trim, hkeep, hother k hk]
  · exact ht ▸ ((measStopped_touches (by simp) hm d).trans (putResult_touches hs 1 _)).trans (trimShow_touches hs hr' _)

/-! ### The candidates (R534, R536, R537, R542, R543) -/

theorem trimAbort_running {n : Station} {d : Dev} (h : (d.trim n).meas.isSome = true) : trimAbort n d = trimEnd n 5 d := if_pos h

theorem trimApply_idle {n : Station} {d : Dev} (h : (d.trim n).meas = none) :
    trimApply n d = (slewGain n (d.reg (TRMS_GAIN_NEW n)) (max 1 (d.reg (TRMS_SLEW n) % 65536))
      (slewDark n (d.reg (TRMS_DARK_NEW n)) (max 1 (d.reg (TRMS_SLEW n) % 65536)) d)).put (TRMS_STATUS_RESULT n) 1 := by
  simp only [trimApply, h]
  rw [trimResult_done (by decide)]

/-- The two candidates slew into force (R543). -/
theorem trimApply_applies {n : Station} {d : Dev} (h : (d.trim n).meas = none) :
    let t := trimApply n d
    t.get (TRMS_STATUS_RESULT n) = 1 ∧
      t.trim n = { d.trim n with
        slewD := some (d.darkSlew n (d.reg (TRMS_DARK_NEW n)) (max 1 (d.reg (TRMS_SLEW n) % 65536)))
        slewG := some (d.gainSlew n (d.reg (TRMS_GAIN_NEW n)) (max 1 (d.reg (TRMS_SLEW n) % 65536))) } ∧
      (∀ k, k ≠ n → t.trim k = d.trim k) ∧ Dev.touches .plain [.trm] [TRMS_STATUS n, TRM_STATUS] d t := by
  intro t
  have ht : t = _ := trimApply_idle h
  clear_value t
  generalize max 1 (d.reg (TRMS_SLEW n) % 65536) = len at ht ⊢
  rw [slewDark_eq, slewGain_eq] at ht
  have hgain : (trimSet n (fun t => { t with slewD := some (d.darkSlew n (d.reg (TRMS_DARK_NEW n)) len) }) d).gainSlew n
      (d.reg (TRMS_GAIN_NEW n)) len = d.gainSlew n (d.reg (TRMS_GAIN_NEW n)) len := by
    unfold Dev.gainSlew
    rw [trimSet_reg (by simp only [MPLS_GAIN, TRMS_STATUS]; omega) (by simp only [MPLS_GAIN, TRM_STATUS]; omega)]
  rw [hgain] at ht
  have htrm (k : Station) : t.trim k = (trimSet n _ (trimSet n _ d)).trim k := ht ▸ trim_of_trm (put_trm _ _ _) k
  refine ⟨?_, ?_, fun k hk => ?_, ?_⟩
  · rw [ht, get_put_same _ _ _ (by simp) (by simp)]
    rfl
  · rw [htrm, trimSet_trim, trimSet_trim]
  · rw [htrm, trimSet_trim_ne hk, trimSet_trim_ne hk]
  · exact ht ▸ ((trimSet_touches (by simp) (by simp) (by simp) _ d).trans (trimSet_touches (by simp) (by simp) (by simp) _ _)).trans
      (putResult_touches (by simp) 1 _)

/-- The dark offsets of the ticks collected, in their register's form (R534). -/
def TrimMeas.darkWord (x : TrimMeas) : Nat :=
  (x.sum2 + x.want / 2) / 2 ^ x.log2 * 65536 + (x.sum1 + x.want / 2) / 2 ^ x.log2

/-- The spread of the ticks collected. -/
def TrimMeas.spreadWord (x : TrimMeas) : Nat := (x.max2 - x.min2) * 65536 + (x.max1 - x.min1)

/-- The two results of a dark measurement, in their registers. -/
def darkShown (n : Station) (x : TrimMeas) (d : Dev) : Dev :=
  (d.setReg (TRMS_SPREAD n) x.spreadWord).setReg (TRMS_DARK_NEW n) x.darkWord

/-- Two results in their registers, the end of the measurement, the slew of the candidate, and its event. -/
def measured (n : Station) (a v b w e : Nat) (f : TrimStation → TrimStation) (d : Dev) : Dev :=
  occur e n.val 0 (trimSet n f (trimEnd n 1 ((d.setReg a v).setReg b w)))

theorem darkDone_eq {n : Station} {x : TrimMeas} {d : Dev} (h : (d.trim n).meas = some x) (hg : x.gain = false) (hn : x.want ≤ x.n)
    (h1 : x.max1 - x.min1 ≤ x.spread) (h2 : x.max2 - x.min2 ≤ x.spread) :
    darkDone n d = measured n (TRMS_SPREAD n) x.spreadWord (TRMS_DARK_NEW n) x.darkWord 224
      (fun t => { t with slewD := some ((trimEnd n 1 (darkShown n x d)).darkSlew n x.darkWord x.slew) }) d := by
  have hgo : ¬ (x.gain || decide (x.n < x.want)) = true := by simp [hg, hn]
  have hspread : ¬ (decide (x.spread < x.max1 - x.min1) || decide (x.spread < x.max2 - x.min2)) = true := by simp [h1, h2]
  simp only [darkDone, h]
  rw [if_neg hgo, if_neg hspread]
  rfl

/-- The gain that the median of the samples gives (R536). -/
def TrimMeas.median (x : TrimMeas) : Nat :=
  x.gLo + (histMedian (x.want / 2) x.hist 0).1 * 2 ^ x.gsh +
    (x.want / 2 - (histMedian (x.want / 2) x.hist 0).2.1) * 2 ^ x.gsh / (histMedian (x.want / 2) x.hist 0).2.2

/-- The two results of a gain measurement, in their registers. -/
def gainShown (n : Station) (x : TrimMeas) (d : Dev) : Dev :=
  (d.setReg (TRMS_G_QMED n) (x.median % 2 ^ 24)).setReg (TRMS_GAIN_NEW n) (x.median * 65536 / x.rRef)

theorem gainDone_eq {n : Station} {x : TrimMeas} {d : Dev} (h : (d.trim n).meas = some x) (hg : x.gain = true) (hn : x.want ≤ x.n)
    (hr : x.rRef ≠ 0) (hlim : (((x.median * 65536 / x.rRef : Nat) : Int) - (x.g0 : Nat)).natAbs ≤ x.g0 * x.gLim / 65536) :
    gainDone n d = measured n (TRMS_G_QMED n) (x.median % 2 ^ 24) (TRMS_GAIN_NEW n) (x.median * 65536 / x.rRef) 225
      (fun t => { t with slewG := some ((trimEnd n 1 (gainShown n x d)).gainSlew n (x.median * 65536 / x.rRef) x.slew) }) d := by
  have hgo : ¬ (!x.gain || decide (x.n < x.want)) = true := by simp [hg, hn]
  simp only [gainDone, h]
  rw [if_neg hgo, if_neg hr]
  exact if_neg (Nat.not_lt.2 hlim)

theorem trimTimeout_eq {n : Station} {x : TrimMeas} {d : Dev} (h : (d.trim n).meas = some x) (hn : x.n < x.want)
    (ht : x.since + x.timeout * 2000 ≤ d.grid.ticks) :
    trimTimeout n d = trimEnd n 2 (if x.gain || x.n = 0 then d else d.setReg (TRMS_SPREAD n) x.spreadWord) := by
  have hgo : (decide (x.n < x.want) && decide (x.since + x.timeout * 2000 ≤ d.grid.ticks)) = true := by simp [hn, ht]
  simp only [trimTimeout, h]
  rw [if_pos hgo]
  rfl

theorem measured_ends {n : Station} {a b e : Nat} (ha : a / 0x10000 = 16) (hb : b / 0x10000 = 16) (hab : a ≠ b)
    (has : a ≠ TRMS_STATUS n ∧ a ≠ TRM_STATUS) (hbs : b ≠ TRMS_STATUS n ∧ b ≠ TRM_STATUS) (he : e < 256) (v w : Nat)
    (f : TrimStation → TrimStation) (d : Dev) :
    let t := measured n a v b w e f d
    t.get (TRMS_STATUS_RESULT n) = 1 ∧ t.pends e ∧ t.reg a = v % 2 ^ 32 ∧ t.reg b = w % 2 ^ 32 ∧
      t.trim n = f { d.trim n with meas := none } ∧ (∀ k, k ≠ n → t.trim k = d.trim k) ∧
      Dev.touches .event [.trm] [TRMS_STATUS n, TRM_STATUS, a, b, MPLS_STATUS n] d t := by
  intro t
  generalize hu : (d.setReg a v).setReg b w = u
  have ht : t = occur e n.val 0 (trimSet n f (trimEnd n 1 u)) := hu ▸ rfl
  clear_value t
  obtain ⟨hself, hres, hother, hend⟩ := trimEnd_ends n u
  have hstart {m : Reach} {L : List Nat} (ha' : a ∈ L) (hb' : b ∈ L) {P : List Part} : Dev.touches m P L d u :=
    hu ▸ (Dev.touches.setReg d a v ha' (silentReg_trms ha)).trans (.setReg _ b w hb' (silentReg_trms hb))
  have htrim (k : Station) : u.trim k = d.trim k := (hstart (m := .plain) (P := []) (L := [a, b]) (by simp) (by simp)).trim_same (by simp) k
  have hocc {P : List Part} {L : List Nat} : Dev.touches .event P L (trimSet n f (trimEnd n 1 u)) t := ht ▸ .occur e n.val 0 _ he
  have hmpls {x : Nat} (hx : x / 0x10000 = 16) : x ≠ MPLS_STATUS n := by
    rintro rfl
    simp only [MPLS_STATUS] at hx
    omega
  have hkeep {x : Nat} (hx : x / 0x10000 = 16) (hs : x ≠ TRMS_STATUS n ∧ x ≠ TRM_STATUS) : t.reg x = u.reg x := by
    rw [(hocc (P := []) (L := [])).reg (by simp) (eventReg_of_block hx), trimSet_reg hs.1 hs.2,
      (hend (m := .plain) (L := [TRMS_STATUS n, TRM_STATUS, MPLS_STATUS n]) (by simp) (by simp) (by simp)).reg
        (by simp [hs, hmpls hx]) rfl]
  refine ⟨?_, ht ▸ occur_pends e n.val 0 _ he, ?_, ?_, ?_, fun k hk => ?_, ?_⟩
  · rw [(hocc (P := []) (L := [])).get (by simp) (eventReg_of_block (n := 16) (by simp only [TRMS_STATUS]; omega)), trimSet_result, hres]
  · rw [hkeep ha has, ← hu, reg_setReg_ne _ _ hab, reg_setReg_same]
  · rw [hkeep hb hbs, ← hu, reg_setReg_same]
  · rw [(hocc (P := []) (L := [])).trim_same (by simp), trimSet_trim, hself, htrim]
  · rw [(hocc (P := []) (L := [])).trim_same (by simp), trimSet_trim_ne hk, hother k hk, htrim]
  · exact (((hstart (by simp) (by simp)).trans (hend (by simp) (by simp) (by simp))).trans
      (trimSet_touches (by simp) (by simp) (by simp) f _)).trans hocc

/-- Settles O23: starts, ends and candidates, each by its own lemma. -/
theorem pyrometerMeasurements : Obligations.PyrometerMeasurements := by
  unfold Obligations.PyrometerMeasurements
  intro n x s hrun hcalm
  refine ⟨fun hm => ?_, fun hm => ?_, fun hm => ⟨?_, fun g => ?_⟩, fun hm => ?_, fun hm hg hn h1 h2 => ?_, fun hm hg hn hr hlim => ?_,
    fun hm hn htime => ?_⟩
  · obtain ⟨hself, hstate, hsamples, _, hother, htouch⟩ := trimStart_starts hm false
    have ht := htouch (L := [TRMS_STATUS n, TRM_STATUS, TRMS_SAMPLES n]) (by simp) (by simp) (by simp) (by simp)
    exact ⟨_, actIn_touches hrun hcalm ht, hself, hstate, hsamples, hother, ht.regsOnly⟩
  · obtain ⟨hself, hstate, hsamples, hout, hother, htouch⟩ := trimStart_starts hm true
    have ht := htouch (L := [TRMS_STATUS n, TRM_STATUS, TRMS_SAMPLES n, TRMS_G_OUT n]) (by simp) (by simp) (by simp) (by simp)
    exact ⟨_, actIn_touches hrun hcalm ht, hself, hstate, hsamples, hout rfl, hother, ht.regsOnly⟩
  · obtain ⟨hself, hres, hstate, hpend, hdet, hother, htouch⟩ := trimEnd_fails (r := 5) (by decide) (by decide) n s.dev
    rw [← trimAbort_running hm] at hself hres hstate hpend hdet hother htouch
    have ht := htouch (L := [TRMS_STATUS n, TRM_STATUS, TRM_FLAGS, MPLS_STATUS n]) (by simp) (by simp) (by simp) (by simp)
    exact ⟨_, actIn_touches hrun hcalm ht, hself, hres, hstate, hpend, hdet, hother, ht.withFault⟩
  · obtain ⟨hres, _, _, htouch⟩ := trimResult_fails (r := 6) (by decide) (by decide) n s.dev
    have ht := htouch (P := []) (L := [TRMS_STATUS n, TRM_FLAGS]) (by simp) (by simp)
    rw [← trimStart_busy hm g] at hres ht
    refine ⟨_, ?_, ht.parts .trm (by simp) (by simp [Reach.parts]), hres, ht.withFault⟩
    cases g with
    | false => exact actIn_touches hrun hcalm ht
    | true => exact actIn_touches hrun hcalm ht
  · obtain ⟨hres, hself, hother, ht⟩ := trimApply_applies hm
    exact ⟨_, actIn_touches hrun hcalm ht, hres, hself, hother, ht.regsOnly⟩
  · obtain ⟨hres, hpend, hspread, hnew, hself, hother, ht⟩ := measured_ends (n := n) (a := TRMS_SPREAD n) (b := TRMS_DARK_NEW n)
      (e := 224) (by simp only [TRMS_SPREAD]; omega) (by simp only [TRMS_DARK_NEW]; omega)
      (by simp only [TRMS_SPREAD, TRMS_DARK_NEW]; omega) (by simp only [TRMS_SPREAD, TRMS_STATUS, TRM_STATUS]; omega)
      (by simp only [TRMS_DARK_NEW, TRMS_STATUS, TRM_STATUS]; omega) (by decide) x.spreadWord x.darkWord
      (fun t => { t with slewD := some ((trimEnd n 1 (darkShown n x s.dev)).darkSlew n x.darkWord x.slew) }) s.dev
    rw [← darkDone_eq hm hg hn h1 h2] at hres hpend hspread hnew hself hother ht
    refine ⟨_, actIn_touches hrun hcalm ht, hres, hpend, hspread, hnew, ?_, ?_, ?_, hother, ht.withEvent⟩
    · rw [hself]
    · rw [hself]
      rfl
    · rw [hself]
  · have hmedian : (histMedian (x.want / 2) x.hist 0).1 * 2 ^ x.gsh + x.gLo +
        (x.want / 2 - (histMedian (x.want / 2) x.hist 0).2.1) * 2 ^ x.gsh / (histMedian (x.want / 2) x.hist 0).2.2 = x.median := by
      rw [TrimMeas.median, Nat.add_comm x.gLo]
    rw [hmedian] at hlim ⊢
    obtain ⟨hres, hpend, _, hnew, hself, hother, ht⟩ := measured_ends (n := n) (a := TRMS_G_QMED n) (b := TRMS_GAIN_NEW n)
      (e := 225) (by simp only [TRMS_G_QMED]; omega) (by simp only [TRMS_GAIN_NEW]; omega)
      (by simp only [TRMS_G_QMED, TRMS_GAIN_NEW]; omega) (by simp only [TRMS_G_QMED, TRMS_STATUS, TRM_STATUS]; omega)
      (by simp only [TRMS_GAIN_NEW, TRMS_STATUS, TRM_STATUS]; omega) (by decide) (x.median % 2 ^ 24) (x.median * 65536 / x.rRef)
      (fun t => { t with slewG := some ((trimEnd n 1 (gainShown n x s.dev)).gainSlew n (x.median * 65536 / x.rRef) x.slew) }) s.dev
    rw [← gainDone_eq hm hg hn hr hlim] at hres hpend hnew hself hother ht
    refine ⟨_, actIn_touches hrun hcalm ht, hres, hpend, hnew, ?_, ?_, ?_, hother, ht.withEvent⟩
    · rw [hself]
    · rw [hself]
      rfl
    · rw [hself]
  · generalize hu : (if x.gain || x.n = 0 then s.dev else s.dev.setReg (TRMS_SPREAD n) x.spreadWord) = u
    have hshown {m : Reach} {L : List Nat} (hL : TRMS_SPREAD n ∈ L) {P : List Part} : Dev.touches m P L s.dev u :=
      hu ▸ .ite _ (.refl s.dev) (.setReg s.dev (TRMS_SPREAD n) _ hL (silentReg_trms (by simp only [TRMS_SPREAD]; omega)))
    obtain ⟨hself, hres, _, hpend, hdet, hother, htouch⟩ := trimEnd_fails (r := 2) (by decide) (by decide) n u
    have heq : trimTimeout n s.dev = trimEnd n 2 u := (trimTimeout_eq hm hn htime).trans (by rw [hu])
    rw [← heq] at hself hres hpend hdet hother htouch
    have htrim (k : Station) : u.trim k = s.dev.trim k :=
      (hshown (m := .plain) (P := []) (L := [TRMS_SPREAD n]) (by simp)).trim_same (by simp) k
    have hcount : u.reg (EVT_FLT_COUNT 0x80) = s.dev.reg (EVT_FLT_COUNT 0x80) :=
      (hshown (m := .plain) (P := []) (L := [TRMS_SPREAD n]) (by simp)).reg
        (by simp only [List.mem_singleton, EVT_FLT_COUNT, TRMS_SPREAD]; omega) rfl
    have ht : Dev.touches .fault [.trm] [TRMS_STATUS n, TRM_STATUS, TRM_FLAGS, TRMS_SPREAD n, MPLS_STATUS n] s.dev
        (trimTimeout n s.dev) := (hshown (by simp)).trans (htouch (by simp) (by simp) (by simp) (by simp))
    exact ⟨_, actIn_touches hrun hcalm ht, htrim n ▸ hself, hres, hpend, detects_of_reg hcount hdet,
      fun k hk => (hother k hk).trans (htrim k), ht.withFault⟩

/-!
PROOFS about registration, grids and saving (R538 to R548).
-/

/-! ### Registration armed and cancelled (R538, R548) -/

/-- A change of Trim shown at station 0, while no grid waits and no registration is due. -/
theorem armed_shown {d : Dev} (hdue : d.trm.due = false) (hnew : ∀ k : Station, (d.trim k).kNew = none) (armed : Bool) :
    let t := trimShow 0 (d.trmMod fun x => { x with armed := armed })
    t.trm = { d.trm with armed := armed } ∧ t.get TRM_STATUS_REG_STATE = b2n armed ∧
      Dev.touches .plain [.trm] [TRM_STATUS, TRMS_STATUS 0] d t := by
  intro t
  have htrm : t.trm = { d.trm with armed := armed } := trimShow_trm 0 _
  have hpend : (d.trmMod fun x => { x with armed := armed }).regPending = false := by
    have hnone (k : Station) : ((d.trmMod fun x => { x with armed := armed }).trim k).kNew = none := hnew k
    simp [Dev.regPending, hnone]
  have hdue' : (d.trmMod fun x => { x with armed := armed }).trm.due = false := hdue
  refine ⟨htrm, ?_, (trmMod_touches (by simp) _ d).trans (trimShow_touches (by simp) (by simp) _)⟩
  refine (trimShow_spec 0 _).2.2.2.trans ?_
  rw [Dev.regState, hpend, hdue']
  rfl

/-! ### The grid of K_n (R539) -/

theorem take_creelBytes (d : Dev) (a : Nat) {k n : Nat} (h : k ≤ n) : (d.creelBytes a n).take k = d.creelBytes a k := by
  simp only [Dev.creelBytes, loadBytes, ← List.map_take, List.take_range, Nat.min_eq_left h]

theorem length_creelBytes (d : Dev) (a n : Nat) : (d.creelBytes a n).length = n := by simp [Dev.creelBytes, loadBytes]

theorem length_trimGrid (d : Dev) (b : Nat) (k : Affine) : (d.trimGrid b k).length = 266272 := by
  simp [Dev.trimGrid, List.length_flatMap, length_leBytes, length_creelBytes]

theorem trimGrid_head (d : Dev) (b : Nat) (k : Affine) :
    (d.trimGrid b k).take 16 = d.creelBytes b 12 ++ ((d.trimGrid b k).drop 12).take 4 := by
  have hhead : (d.trimGrid b k).take 12 = d.creelBytes b 12 := by
    simp only [Dev.trimGrid, List.append_assoc]
    exact List.take_left' (length_creelBytes d b 12)
  rw [← hhead, ← List.take_add]

/-- The grid goes into the second buffer, which is selected for the next layer boundary. -/
def gridWritten (n : Station) (b : Nat) (k : List Int) (d : Dev) : Dev :=
  (d.setCreelBytes (d.reg (SHT_GRID_BASE1 n)) (d.trimGrid b (Affine.ofWords k))).setShadow (SHT_GRID_SEL n) 1

theorem gridWritten_touches (hc : .creel ∈ P) (hs : .shadow ∈ P) (n : Station) (b : Nat) (k : List Int) (d : Dev) :
    Dev.touches m P L d (gridWritten n b k d) :=
  (Dev.touches.ofWithin (setCreelBytes_within d _ _) (by simpa using hc)).trans (.ofWithin (setShadow_within _ _ _) (by simpa using hs))

theorem gridWritten_spec (n : Station) (b : Nat) (k : List Int) (d : Dev) :
    (gridWritten n b k d).written (SHT_GRID_SEL n) = 1 ∧
      (gridWritten n b k d).creelBytes (d.reg (SHT_GRID_BASE1 n)) 16 =
        d.creelBytes b 12 ++ ((d.trimGrid b (Affine.ofWords k)).drop 12).take 4 ∧
      sameOutside ramDefault (d.reg (SHT_GRID_BASE1 n)) 266272 d.creel (gridWritten n b k d).creel := by
  have houtside := sameOutside_setCreelBytes d (d.reg (SHT_GRID_BASE1 n)) (length_trimGrid d b (Affine.ofWords k))
  have hcreel : (gridWritten n b k d).creel = (d.setCreelBytes (d.reg (SHT_GRID_BASE1 n)) (d.trimGrid b (Affine.ofWords k))).creel :=
    setShadow_creel _ _ _
  rw [← hcreel] at houtside
  refine ⟨written_setShadow_same _ _ _, ?_, houtside⟩
  have hall : (gridWritten n b k d).creelBytes (d.reg (SHT_GRID_BASE1 n)) 266272 = d.trimGrid b (Affine.ofWords k) := by
    have hset := creelBytes_setCreelBytes d (d.reg (SHT_GRID_BASE1 n)) (length_trimGrid d b (Affine.ofWords k))
    rw [Dev.creelBytes, ← hcreel] at hset
    exact hset
  have hle : 16 ≤ 266272 := by omega
  exact (take_creelBytes _ _ hle).symm.trans ((congrArg (List.take 16) hall).trans (trimGrid_head d b _))

theorem trimWriteGrid_second {n : Station} {d : Dev} (h : d.reg (SHT_GRID_SEL n) % 2 = 0) (b : Nat) (k : List Int) :
    trimWriteGrid n b k d = trimSet n (fun t => { t with kNew := some (k ++ [1]), kNext := none }) (gridWritten n b k d) := by
  simp only [trimWriteGrid, h]
  rfl

theorem trimRebuild_writes {n : Station} {b : Nat} {d : Dev} (hm : (d.trim n).meas = none) (hk : (d.trim n).kNew = none)
    (hb : d.trimBase n = some b) : trimRebuild n d = (trimWriteGrid n b (d.trimK n) d).put (TRMS_STATUS_RESULT n) 1 := by
  simp [trimRebuild, trimNewK, hm, hk, hb, trimResult_done]

theorem written_congr {d t : Dev} {a : Nat} (hs : t.shadow = d.shadow) (hr : t.reg a = d.reg a) : t.written a = d.written a := by
  simp only [Dev.written, hs, hr]

/-- REBUILD with a usable base grid (R539, R543). -/
theorem trimRebuild_spec {n : Station} {b : Nat} {d : Dev} (hm : (d.trim n).meas = none) (hk : (d.trim n).kNew = none)
    (hb : d.trimBase n = some b) (hsel : d.reg (SHT_GRID_SEL n) % 2 = 0) :
    let t := trimRebuild n d
    let u := gridWritten n b (d.trimK n) d
    t.get (TRMS_STATUS_RESULT n) = 1 ∧ t.on (TRMS_STATUS_GRID_PEND n) = true ∧
      (t.trim n).kNew = some (d.trimK n ++ [1]) ∧ t.creel = u.creel ∧ t.written (SHT_GRID_SEL n) = u.written (SHT_GRID_SEL n) ∧
      (∀ k, k ≠ n → t.trim k = d.trim k) ∧ Dev.touches .plain [.trm, .creel, .shadow] [TRMS_STATUS n, TRM_STATUS] d t := by
  intro t u
  have ht : t = (trimSet n (fun x => { x with kNew := some (d.trimK n ++ [1]), kNext := none }) u).put (TRMS_STATUS_RESULT n) 1 :=
    (trimRebuild_writes hm hk hb).trans (by rw [trimWriteGrid_second hsel])
  have hgrid {P : List Part} (hc : .creel ∈ P) (hs : .shadow ∈ P) : Dev.touches .plain P [TRMS_STATUS n, TRM_STATUS] d u :=
    gridWritten_touches hc hs n b _ d
  clear_value t u
  generalize hf : (fun x : TrimStation => { x with kNew := some (d.trimK n ++ [1]), kNext := none }) = f at ht
  have hrest : Dev.touches .plain [.trm] [TRMS_STATUS n, TRM_STATUS] u t :=
    ht ▸ (trimSet_touches (by simp) (by simp) (by simp) f u).trans (putResult_touches (by simp) 1 _)
  have htrim (k : Station) : t.trim k = (trimSet n f u).trim k := ht ▸ trim_of_trm (put_trm _ _ _) k
  refine ⟨?_, ?_, ?_, hrest.parts .creel (by simp) (by simp [Reach.parts]), ?_, fun k hk => ?_, ?_⟩
  · rw [ht, get_put_same _ _ _ (by simp) (by simp)]
    rfl
  · rw [ht, Dev.on, get_put_ne _ _ _ _ (by simp) (by simp) (by simp)]
    refine (trimShow_spec n (u.trimMod n f)).2.2.1.trans ?_
    rw [trimMod_trim, ← hf]
    rfl
  · rw [htrim, trimSet_trim, ← hf]
  · exact written_congr (hrest.parts .shadow (by simp) (by simp [Reach.parts]))
      (hrest.reg (by simp only [List.mem_cons, List.not_mem_nil, or_false, SHT_GRID_SEL, TRMS_STATUS, TRM_STATUS]; omega) rfl)
  · rw [htrim, trimSet_trim_ne hk, (hgrid (P := [.creel, .shadow]) (by simp) (by simp)).trim_same (by simp)]
  · exact (hgrid (by simp) (by simp)).trans (hrest.mono (by simp) fun _ h => h)

/-! ### Saving (R544) -/

/-- What SAVE waits for. -/
def Dev.trimQuiet (d : Dev) : Bool :=
  (List.finRange 16).all fun (n : Station) => (d.trim n).slewD.isNone && (d.trim n).slewG.isNone && (d.trim n).kNew.isNone

theorem trimSave_trim (d : Dev) (k : Station) : (trimSave d).trim k = d.trim k := by
  have htrm : (trimSave d).trm = { d.trm with saveDue := true } := put_trm _ _ _
  simp only [Dev.trim, htrm]

theorem trimSave_quiet (d : Dev) : (trimSave d).trimQuiet = d.trimQuiet := by simp only [Dev.trimQuiet, trimSave_trim]

theorem trimSave_waits {n : Station} {d : Dev} (h : (d.trim n).kNew.isSome = true) :
    trimSaveStage (trimSave d) = trimSave d := by
  have hquiet : (trimSave d).trimQuiet = false := by
    rw [trimSave_quiet]
    refine Bool.eq_false_iff.2 fun hall => ?_
    have := List.all_eq_true.1 hall n (List.mem_finRange n)
    cases hk : (d.trim n).kNew <;> simp_all
  unfold trimSaveStage
  exact if_pos (by rw [show (List.finRange 16).all _ = (trimSave d).trimQuiet from rfl, hquiet]; simp)

theorem trimSaveStage_due {d : Dev} (hdue : d.trm.saveDue = true) (h : d.trimQuiet = true) :
    trimSaveStage d =
      let u := d.trmMod fun t => { t with saveDue := false }
      let t := stage (u.logRec 5 0 u.trimPayload false) u
      if t.reg WAL_DROPS = u.reg WAL_DROPS then t else (t.put TRM_STATUS_SAVE_BUSY 0).put TRM_FLAGS_SAVE_FAIL 1 := by
  have hgo : ¬ (!d.trm.saveDue || !(List.finRange 16).all fun (n : Station) =>
      (d.trim n).slewD.isNone && (d.trim n).slewG.isNone && (d.trim n).kNew.isNone) = true := by
    rw [show (List.finRange 16).all _ = d.trimQuiet from rfl, h, hdue]
    simp
  unfold trimSaveStage
  exact if_neg hgo

/-- SAVE with nothing to wait for: its record is staged, or dropped (R544). -/
theorem trimSave_stages {d : Dev} (h : d.trimQuiet = true) :
    let t := trimSaveStage (trimSave d)
    t.trm = { d.trm with saveDue := false } ∧
      (t.reg WAL_DROPS = d.reg WAL_DROPS → t.on TRM_STATUS_SAVE_BUSY = true) ∧
      (t.reg WAL_DROPS ≠ d.reg WAL_DROPS → t.on TRM_STATUS_SAVE_BUSY = false ∧ t.on TRM_FLAGS_SAVE_FAIL = true) ∧
      Dev.touches .event [.trm] [TRM_STATUS, TRM_FLAGS] d t := by
  intro t
  generalize hu : (trimSave d).trmMod (fun x => { x with saveDue := false }) = u
  generalize hv : stage (u.logRec 5 0 u.trimPayload false) u = v
  have ht : t = if v.reg WAL_DROPS = u.reg WAL_DROPS then v else (v.put TRM_STATUS_SAVE_BUSY 0).put TRM_FLAGS_SAVE_FAIL 1 := by
    rw [← hv, ← hu]
    exact trimSaveStage_due (congrArg Trim.saveDue (put_trm _ _ _)) ((trimSave_quiet d).trans h)
  clear_value t
  have hstart {m : Reach} {L : List Nat} (hL : TRM_STATUS ∈ L) : Dev.touches m [.trm] L d u :=
    hu ▸ ((trmMod_touches (by simp) _ d).trans (.put _ TRM_STATUS_SAVE_BUSY 1 hL)).trans (trmMod_touches (by simp) _ _)
  have hstage {P : List Part} {L : List Nat} : Dev.touches .event P L u v := hv ▸ .stage _ u
  have hend {m : Reach} {P : List Part} {L : List Nat} (hs : TRM_STATUS ∈ L) (hf : TRM_FLAGS ∈ L) : Dev.touches m P L v t :=
    ht ▸ .ite _ (.refl v) ((Dev.touches.put v TRM_STATUS_SAVE_BUSY 0 hs).trans (.put _ TRM_FLAGS_SAVE_FAIL 1 hf))
  have htrm : u.trm = { d.trm with saveDue := false } := by
    rw [← hu]
    rfl
  have hdrops : u.reg WAL_DROPS = d.reg WAL_DROPS := (hstart (m := .plain) (L := [TRM_STATUS]) (by simp)).reg (by decide) rfl
  have hdrops' : t.reg WAL_DROPS = v.reg WAL_DROPS :=
    (hend (m := .plain) (P := []) (L := [TRM_STATUS, TRM_FLAGS]) (by simp) (by simp)).reg (by decide) rfl
  rw [hdrops', ← hdrops]
  refine ⟨?_, fun hsame => ?_, fun hdropped => ?_, ((hstart (by simp)).trans hstage).trans (hend (by simp) (by simp))⟩
  · rw [(hend (m := .plain) (P := []) (L := [TRM_STATUS, TRM_FLAGS]) (by simp) (by simp)).parts .trm (by simp) (by simp [Reach.parts]),
      (hstage (P := []) (L := [])).parts .trm (by simp) (by simp [Reach.parts]), htrm]
  · rw [ht, if_pos hsame, (hstage (P := []) (L := [])).on (by simp) rfl, ← hu]
    refine Eq.trans (b := (trimSave d).on TRM_STATUS_SAVE_BUSY) ?_ (on_put_one _ _ (by decide) (by decide))
    exact on_congr (reg_mk ..)
  · rw [ht, if_neg hdropped]
    refine ⟨?_, on_put_one _ _ (by decide) (by decide)⟩
    rw [on_congr (reg_put_ne _ _ _ (by decide)), on_put_zero _ _ (by decide) (by decide)]

/-! ### The registration (R538) -/

/-- The registration has ended: what it shows, and what it leaves. -/
theorem regEnd_spec {r : Nat} (hr : r < 16) (k : Nat) (d : Dev) :
    let t := regEnd r k d
    t.trm.due = false ∧ t.reg TRM_REG_LAYER = d.reg TRD_LAYER ∧ bits (t.reg TRM_REG_RESULT) 15 8 = k % 256 ∧
      t.get TRM_REG_RESULT_RESULT = r := by
  intro t
  generalize hu : (d.setReg TRM_REG_RESULT (k % 256 * 256 + r)).setReg TRM_REG_LAYER (d.reg TRD_LAYER) = u
  generalize hv : trimShow 0 (u.trmMod fun x => { x with due := false }) = v
  have ht : t = if r ≤ 1 then v else trimFail 0xFF (v.put TRM_FLAGS_REG_FAIL 1) := by
    rw [← hv, ← hu]
    rfl
  clear_value t
  have hend {P : List Part} : Dev.touches .fault P [TRM_FLAGS] v t :=
    ht ▸ .ite _ (.refl v) ((Dev.touches.put v TRM_FLAGS_REG_FAIL 1 (by simp)).trans (trimFail_touches _ _))
  have hshow : Dev.touches .plain [.trm] [TRMS_STATUS 0, TRM_STATUS] u v :=
    hv ▸ (trmMod_touches (by simp) _ u).trans (trimShow_touches (by simp) (by simp) _)
  have hresult : t.reg TRM_REG_RESULT = k % 256 * 256 + r := by
    rw [(hend (P := [])).reg (by decide) rfl, hshow.reg (by decide) rfl, ← hu, reg_setReg_ne _ _ (by decide), reg_setReg_same,
      Nat.mod_eq_of_lt (by omega)]
  refine ⟨?_, ?_, ?_, ?_⟩
  · rw [(hend (P := [])).parts .trm (by simp) (by simp [Reach.parts]), ← hv, trimShow_trm]
    rfl
  · rw [(hend (P := [])).reg (by decide) rfl, hshow.reg (by decide) rfl, ← hu, reg_setReg_same, Nat.mod_eq_of_lt (reg_lt _ _)]
  · rw [hresult, bits]
    omega
  · rw [Dev.get, hresult, bits]
    simp only
    omega

/-- What a station of the fit leaves of the device and of RESULT. -/
def regStation (d : Dev) (a : Dev × Nat) : Prop := d.within [.creel, .shadow, .trm] [16] a.1 ∧ a.2 ∈ [1, 4, 7]

theorem regStation_setReg {d t : Dev} {r a : Nat} (h : regStation d (t, r)) (ha : a / 0x10000 = 16) (v : Nat) :
    regStation d (t.setReg a v, r) :=
  ⟨within_comp (setReg_within t a v 16 ha (.inl (by decide))) h.1 (by decide) (by decide), h.2⟩

theorem regStation_setRegS {d t : Dev} {r a : Nat} (h : regStation d (t, r)) (ha : a / 0x10000 = 16) (v : Int) :
    regStation d (t.setRegS a v, r) := regStation_setReg h ha _

theorem regStation_newK {d t : Dev} {r : Nat} (h : regStation d (t, r)) (n : Station) (k : List Int) :
    regStation d ((trimNewK n k t).2, if (trimNewK n k t).1 then r else 7) := by
  refine ⟨within_comp (trimNewK_within n k t) h.1 (by decide) (by decide), ?_⟩
  split
  · exact h.2
  · simp

/-- The registration of an image ends, FEW_MARKS where no mark was found (R538). -/
theorem regFit_ends (base : Nat) (shot : CamShot) (d : Dev) :
    ∃ r u, regFit base shot d = regEnd r (d.regFound base shot).length u ∧ r ∈ [1, 4, 7, 10] ∧
      (r = 10 ↔ (d.regFound base shot).isEmpty = true) ∧ d.within [.creel, .shadow, .trm] [16] u := by
  unfold regFit
  extract_lets +onlyGivenNames found least mine fits fitOf pairs seams final after s1
  have hs1 : d.within [.creel, .shadow, .trm] [16] s1 :=
    within_mono (setReg_within d TRM_REG_SEAM_RMS _ 16 rfl (.inl (by decide))) (by decide) (by decide)
  cases hempty : found.isEmpty with
  | true =>
    have hlen : found.length = 0 := by rw [List.isEmpty_iff.1 hempty]; rfl
    exact ⟨10, s1, by rw [if_pos rfl]; exact congrArg (fun k => regEnd 10 k s1) hlen.symm, by simp, by simp, hs1⟩
  | false =>
    rw [if_neg (by simp)]
    generalize hfold : List.foldl _ (s1, 1) (List.finRange 16) = a
    have ha : regStation d a := by
      rw [← hfold]
      refine List.foldlRecOn _ _ ⟨hs1, by simp⟩ fun b hb n _ => ?_
      obtain ⟨t, r⟩ := b
      have hmarks := regStation_setReg (a := TRMS_MARKS n) hb (by simp only [TRMS_MARKS]; omega) (min 255 (mine n.val).length)
      have hseam := regStation_setRegS (a := TRMS_SEAM_TY n)
        (regStation_setRegS (a := TRMS_SEAM_TX n) hmarks (by simp only [TRMS_SEAM_TX]; omega) (F64.nearest (vat seams n).x))
        (by simp only [TRMS_SEAM_TY]; omega) (F64.nearest (vat seams n).y)
      dsimp only
      split
      · exact hseam
      · rename_i f _
        have hrms := regStation_setReg (a := TRMS_RES_RMS n) hseam (by simp only [TRMS_RES_RMS]; omega)
          (rmsOf ((mine n.val).map fun x => P2.sub x.r (f.at x.e)))
        split
        · exact ⟨hrms.1, by simp⟩
        · exact regStation_newK hrms n _
    obtain ⟨hwithin, hr⟩ := ha
    refine ⟨a.2, a.1.trmMod fun t => { t with fromReg := true }, rfl, ?_, ?_, ?_⟩
    · exact (show [1, 4, 7] ⊆ [1, 4, 7, 10] by decide) hr
    · simp only [List.mem_cons, List.not_mem_nil, or_false] at hr
      simp only [Bool.false_eq_true, iff_false]
      omega
    · exact within_comp (toTrm_within a.1 _) hwithin (by decide) (by decide)

/-- Settles O24: the arming, the grid of REBUILD, the staging of SAVE and the end of a registration, each by its own lemma. -/
theorem registrationCommands : Obligations.RegistrationCommands := by
  unfold Obligations.RegistrationCommands
  intro n b shot s hrun hcalm
  refine ⟨fun hdue hnew => ⟨?_, ?_⟩, fun hm hk hb hsel => ?_, fun hwait => ?_, fun hnew hslew => ?_, fun hdue himage hformat => ?_⟩
  · obtain ⟨htrm, hstate, ht⟩ := armed_shown hdue hnew true
    exact ⟨_, actIn_touches hrun hcalm ht, htrm, hstate, ht.regsOnly⟩
  · obtain ⟨htrm, hstate, ht⟩ := armed_shown hdue hnew false
    exact ⟨_, actIn_touches hrun hcalm ht, htrm, hstate, ht.regsOnly⟩
  · obtain ⟨hres, hpend, hknew, hcreel, hwritten, hother, ht⟩ := trimRebuild_spec hm hk hb hsel
    obtain ⟨hsel1, hhead, houtside⟩ := gridWritten_spec n b (s.dev.trimK n) s.dev
    refine ⟨_, actIn_touches hrun hcalm ht, hres, hpend, hwritten.trans hsel1, hknew, ?_, ?_, hother, ht.regsOnly⟩
    · rw [← hhead, Dev.creelBytes, hcreel]
      rfl
    · rw [hcreel]
      exact houtside
  · have ht : Dev.touches .plain [.trm] [TRM_STATUS] s.dev (trimSave s.dev) :=
      (trmMod_touches (by simp) _ s.dev).trans (.put _ TRM_STATUS_SAVE_BUSY 1 (by simp))
    exact actIn_of_eq (f := fun d => trimSaveStage (trimSave d)) hrun (trimSave_waits hwait) (ht.calm hcalm).1
  · have hquiet : s.dev.trimQuiet = true := by
      refine List.all_eq_true.2 fun k _ => ?_
      simp [hnew k, hslew k]
    obtain ⟨htrm, hsame, hdropped, ht⟩ := trimSave_stages hquiet
    exact ⟨_, actIn_touches (f := fun d => trimSaveStage (trimSave d)) hrun hcalm ht, htrm, hsame, hdropped, ht.withEvent⟩
  · have heq : registration s.dev = regFit (s.dev.regBase shot) shot s.dev := by
      simp [registration, hdue, himage, hformat]
    obtain ⟨r, u, hfit, hr, hfew, hwithin⟩ := regFit_ends (s.dev.regBase shot) shot s.dev
    rw [hfit] at heq
    have hr16 : r < 16 := by
      simp only [List.mem_cons, List.not_mem_nil, or_false] at hr
      omega
    have hall : s.dev.within [.creel, .dof, .ev, .flt, .mpl, .shadow, .trm, .wal] [2, 16, 18] (registration s.dev) :=
      heq ▸ within_comp (regEnd_within r _ u) (within_mono hwithin (by decide) (by decide)) (by decide) (by decide)
    obtain ⟨hdone, hlayer, hmarks, hresult⟩ := regEnd_spec hr16 (s.dev.regFound (s.dev.regBase shot) shot).length u
    rw [← heq] at hdone hlayer hmarks hresult
    refine ⟨_, actIn_run hrun (hall.calm hcalm).1, hdone, ?_, hmarks, ?_, ?_, hall.frame⟩
    · rw [hlayer, hwithin.frame.1 TRD_LAYER (by decide)]
    · rw [hresult]
      exact hfew
    · rw [hresult]
      exact hr

/-!
REFUTATION of the round of temperature readings: under THROTTLE the cap on the camera rates falls, and a frame of a
capture of the Treadle that no longer fits is aborted (R336, R559). That completes the capture (R73, R350), so the Treadle
changes; the statement lists the parts that a round may change, and the Treadle is none of them.
-/

/-- The only frame of a capture of the Treadle: admitted, no line captured yet. -/
def captureShot : CamFrame where
  no := 1
  src := 2
  sec := 0
  ns := 0
  keep := true
  exposure := 0
  gain := 0
  tag := 0
  expQ := 0
  layer := 0
  width := 16
  height := 1
  format := 0
  settings := []
  lines := []
  taken := 0
  slot := none
  admitted := true

/-- AON and FAB run; THROTTLE stands at 100 °C, is above, and caps the camera rates; one frame is captured for the Treadle. -/
def throttledCapture : Dev :=
  { Dev.reset with
    regs := [(CLK_LIVE, 3), (THM_THROTTLE, 6400), (THM_THR_ACT, 1)]
    start := { Dev.reset.start with porstLow := false }
    thm := { Dev.reset.thm with throttle := ⟨true, 0⟩ }
    trd := { Dev.reset.trd with imagesLeft := 1 }
    isp := { Dev.reset.isp with ports := vput Dev.reset.isp.ports 0 { CamPort.reset with frames := [captureShot] } } }

/-- Every sensor reads 100 °C. -/
def hotRound : List Int := List.replicate 24 6400

theorem throttledCapture_calm : throttledCapture.calm := by
  have hcfg : ∀ e : Fin 256, throttledCapture.get (EVT_CFG_REACT e) = 0 := by decide +kernel
  exact ⟨rfl, fun e he => hcfg ⟨e, he⟩⟩

/-- The frame is aborted, and the capture is complete. -/
theorem thermalRound_throttledCapture :
    (settle (thermalRound (hotRound.map some) (List.replicate 6 0) throttledCapture)).trd.imagesLeft = 0 := by
  decide +kernel

theorem exec_thermalRound (temps : List (Option Int)) (millivolts : List Nat) (s : State) :
    exec (.thermalRound temps millivolts) s = .next { s with
      dev := if s.dev.runs domAon then settle (thermalRound temps millivolts s.dev) else s.dev } := rfl

/-- Refutes O38: where a round throttles while the cameras capture for the Treadle, the aborted frame ends the capture, and the
first clause says that only the parts it lists change. -/
theorem not_thermalRounds : ¬ Obligations.ThermalRounds := by
  unfold Obligations.ThermalRounds
  intro h
  have hrun : throttledCapture.runs domAon = true := by decide +kernel
  have hrange : ∀ x ∈ hotRound, -32768 ≤ x ∧ x ≤ 32767 := fun x hx => by
    rw [List.eq_of_mem_replicate hx]
    decide
  have hchecks : ∀ k : Fin 24, checkFails 0 (fun j => hotRound.getD j 0) k.val = false := by decide +kernel
  obtain ⟨hround, -, -⟩ := h hotRound (List.replicate 6 0) 6400 0 ⟨throttledCapture, Otp.blank, []⟩ hrun throttledCapture_calm
  obtain ⟨d, hexec, -, -, -, -, -, -, -, -, -, -, hframe⟩ := hround (by decide +kernel) (by decide +kernel) hrange (by decide +kernel)
    (fun k hk => hchecks ⟨k, hk⟩) (by decide +kernel)
  rw [exec_thermalRound, if_pos hrun] at hexec
  have hd : d = settle (thermalRound (hotRound.map some) (List.replicate 6 0) throttledCapture) := (dev_of_next hexec).symm
  have hcapture : d.trd.imagesLeft = 0 := (congrArg (fun x => x.trd.imagesLeft) hd).trans thermalRound_throttledCapture
  have hkept : d.trd = throttledCapture.trd := hframe.2 .trd (by decide)
  rw [hkept] at hcapture
  exact absurd hcapture (by decide)

/-!
PROOFS about the handlers of the fault unit, retirement and HALT (R569 to R579, R629).
-/

/-! ### What reports without a handler leave of the fault unit -/

/-- The registers of the fault unit that retirement and HALT show, and the count of their own report. -/
def unitRegs : List Nat := [EVT_FLT_FLAGS, EVT_FLT_RETIRED, EVT_FLT_STATUS, EVT_FLT_ARG, EVT_FLT_COUNT 8]

/-- The fault unit of `t` stands as in `d`, beside the counts of other faults and the last report. -/
structure Dev.informs (d t : Dev) : Prop where
  flt : t.flt = d.flt
  regs : ∀ a ∈ unitRegs, t.reg a = d.reg a

theorem archCauses_flt (code sev inst : Nat) (d : Dev) : (archCauses code sev inst d).flt = d.flt :=
  obs_foldl_keep (obs := Dev.flt) (fun u n _ => by
    have hcause : (archCause n u).flt = u.flt := by
      unfold archCause
      split <;> rfl
    split
    · exact hcause
    · rfl) d

namespace Dev.informs

variable {d t u : Dev}

theorem refl (d : Dev) : d.informs d := ⟨rfl, fun _ _ => rfl⟩

theorem trans (h : d.informs t) (k : t.informs u) : d.informs u :=
  ⟨k.flt.trans h.flt, fun a ha => (k.regs a ha).trans (h.regs a ha)⟩

theorem ite {c : Prop} [Decidable c] (h : d.informs t) (k : d.informs u) : d.informs (if c then t else u) := by
  split
  · exact h
  · exact k

theorem foldl {α : Type} {g : Dev → α → Dev} (hg : ∀ (v : Dev) x, v.informs (g v x)) (l : List α) (d : Dev) :
    d.informs (l.foldl g d) := by
  induction l generalizing d with
  | nil => exact refl d
  | cons x l ih => exact (hg d x).trans (ih _)

/-- What is no change of the fault unit or of its block of registers. -/
theorem ofWithin {P : List Part} {B : List Nat} (h : d.within P B t) (hP : P.contains .flt = false := by decide)
    (hB : B.contains 2 = false := by decide) : d.informs t := by
  refine ⟨h.frame.2 .flt hP, fun a ha => h.frame.1 a ?_⟩
  have hblock : a / 0x10000 = 2 := by
    simp only [unitRegs, List.mem_cons, List.not_mem_nil, or_false] at ha
    rcases ha with rfl | rfl | rfl | rfl | rfl <;> rfl
  rwa [hblock]

theorem ofEventOnly (h : EventOnly d t) : d.informs t := by
  refine ⟨h.part .flt (by decide) (by decide), fun a ha => h.regs a ?_⟩
  simp only [unitRegs, List.mem_cons, List.not_mem_nil, or_false] at ha
  rcases ha with rfl | rfl | rfl | rfl | rfl <;> decide

theorem occur (e inst code : Nat) (d : Dev) (he : e < 256 := by decide) : d.informs (occur e inst code d) :=
  ofEventOnly (occur_eventOnly e inst code d he)

/-- A report of severity INFO needs no handler. -/
theorem faultD {code : Nat} (hc : code ≠ 8) (inst d0 d1 : Nat) (d : Dev) (hlt : code < 256 := by decide) :
    d.informs (faultD code sevInfo inst d0 d1 d) := by
  unfold Machine.faultD
  extract_lets us s1 escalated sev' halting subsumed handled queued full w s2 s3 s4 s5 s6 trigger seen s7
  have hsev : sev' = 0 := rfl
  have hhandled : handled = false := by simp [handled, hsev]
  have hfull : full = false := by simp [full, queued, hhandled]
  have h2 : s2 = d := by
    have h1 : s1 = d := if_neg (by decide)
    simp only [s2, hhandled, Bool.false_eq_true, if_false, h1]
  have h3 : d.informs s3 := by
    refine h2 ▸ ⟨count_flt .., fun a ha => reg_count_ne _ _ ?_⟩
    simp only [unitRegs, List.mem_cons, List.not_mem_nil, or_false] at ha
    simp only [EVT_FLT_COUNT, EVT_FLT_FLAGS, EVT_FLT_RETIRED, EVT_FLT_STATUS, EVT_FLT_ARG] at ha ⊢
    omega
  have hset {t : Dev} {a : Nat} (ha : a ∉ unitRegs) (v : Nat) : t.informs (t.setReg a v) :=
    ⟨setReg_flt .., fun b hb => reg_setReg_ne _ _ fun h => ha (h ▸ hb)⟩
  have h4 : s3.informs s4 := ((hset (by decide) _).trans (hset (by decide) _)).trans (hset (by decide) _)
  have h6 : s6 = s4 := by
    simp only [s6, s5, hfull, Bool.false_eq_true, if_false]
    exact if_neg (by simp [escalated])
  have h7 : s6.informs s7 := .ite ⟨rfl, fun _ _ => reg_mk ..⟩ (refl s6)
  have harch : s7.informs (archCauses code sev' inst s7) := ⟨archCauses_flt .., fun a _ => archCauses_reg ..⟩
  exact h3.trans (h4.trans ((h6 ▸ h7).trans (harch.trans (ofEventOnly (stage_eventOnly _ _)))))

theorem faultEvent {code e : Nat} (hc : code ≠ 8) (inst : Nat) (d : Dev) (hlt : code < 256 := by decide) (he : e < 256 := by decide) :
    d.informs (faultEvent code sevInfo inst e d) := (faultD hc inst 0 0 d hlt).trans (occur e inst code _ he)

end Dev.informs

/-! ### HALT (R576) -/

theorem informs_put (d : Dev) (f : Field) (v : Nat) {k : Nat} (hf : f.addr / 0x10000 = k) (hk : [k].contains 2 = false := by decide) :
    d.informs (d.put f v) :=
  .ofWithin (put_within d f v k hf (.inl fun h => by subst h; exact absurd hk (by decide))) rfl hk

section
variable (m : Axis) (d : Dev)

theorem axisFlag_informs {f : Field} (hf : f.addr / 0x10000 = 12) : d.informs (axisFlag m f d) :=
  .ite (.refl d) ((informs_put d f 1 hf).trans (.occur _ _ _ _ (by omega)))

theorem axisFault_informs {f : Field} (hf : f.addr / 0x10000 = 12) {code : Nat} (hc : code ≠ 8) (hlt : code < 256) :
    d.informs (axisFault m f code d) := by
  unfold axisFault
  exact (Dev.informs.faultD hc m.val 0 0 d hlt).trans (.ite (.refl _) ((informs_put _ f 1 hf).trans (.occur _ _ _ _ (by omega))))

theorem axDropPending_informs (quiet : Bool) : d.informs (axDropPending m quiet d) := by
  have hput : d.informs (d.put (AXS_STATUS_MOVE_PENDING m) 0) := informs_put d _ 0 (k := 12) (by simp only [AXS_STATUS]; omega)
  exact .ite (.ite hput (hput.trans (axisFlag_informs m _ (by simp only [AXS_FLAGS]; omega)))) (.refl d)

theorem axHomeFail_informs (cause : Nat) : d.informs (axHomeFail m cause d) := by
  have hput (t : Dev) {f : Field} (hf : f.addr = AXS_STATUS m) (v : Nat) : t.informs (t.put f v) :=
    informs_put t f v (k := 12) (by simp only [hf, AXS_STATUS]; omega)
  have hmod (t : Dev) (g : AxisState → AxisState) : t.informs (t.axMod m g) := .ofWithin (axMod_within m g t)
  unfold axHomeFail
  extract_lets s1 s2 s3
  have h1 : d.informs s1 := ((hput d rfl _).trans (hput _ rfl _)).trans (hput _ rfl _)
  have h2 : s1.informs s2 := hmod s1 _
  have h3 : s2.informs s3 :=
    .ite (axisFault_informs m s2 (by simp only [AXS_FLAGS]; omega) (by decide) (by decide))
      (axisFault_informs m s2 (by simp only [AXS_FLAGS]; omega) (by decide) (by decide))
  exact ((h1.trans h2).trans h3).trans (axDropPending_informs m s3 false)

theorem axStop_informs : d.informs (axStop m d) := by
  unfold axStop
  refine .ite (axDropPending_informs m d false) ?_
  extract_lets s1
  have h1 : d.informs s1 := .ite (axHomeFail_informs m d 4) (axDropPending_informs m d false)
  have h2 : s1.informs (s1.put (AXS_STATUS_STOPPING m) 1) := informs_put s1 _ 1 (k := 12) (by simp only [AXS_STATUS]; omega)
  exact (h1.trans h2).trans (.ofWithin (axMod_within m _ _))

theorem axEase_informs : d.informs (axEase d m) := by
  unfold axEase
  exact .ite ((axStop_informs m d).trans (.ofWithin (axMod_within m _ _))) (.refl d)

end

/-- The Treadle's slots and Shuttles at an abort. -/
def abortSlots (d : Dev) : Dev :=
  (List.finRange 3).foldl (fun t i => if t.slotState i = 0 then t else failSlot i t) d

def abortPark (d : Dev) : Dev := { d with sht := Vector.ofFn fun n => shtPark (vat d.sht n) }

/-- What the Treadle gives up at an abort. -/
def abortCleared (d : Dev) : Dev :=
  d.trdMod fun t =>
    { t with pauseAt := none, pauseCmd := false, pauseReact := false, pauseOrphan := false, resumeAt := none,
             recoatStep := 0, imagesLeft := 0, imaged := false }

theorem trdAbort_eq {d : Dev} (h : d.trdState ≠ 8) :
    trdAbort d = trdEnter tAborted true (abortPark (abortSlots (easeAll (abortCleared d)))) := if_neg h

theorem abort_commitsNone (d : Dev) : d.commitsNone tAborted := .inr ⟨by decide, by decide⟩

theorem failSlot_steady (i : Slot) (d : Dev) : d.within [.trd] [20] (failSlot i d) :=
  within_comp (setSlotState_within i 6 _) (within_mono (slotMod_within i _ d) rfl rfl) rfl rfl

theorem abortSlots_within (d : Dev) : d.within [.trd] [20] (abortSlots d) :=
  within_foldl _ _ (fun v i => within_ite (within_refl _ _ v) (failSlot_steady i v)) (within_refl _ _ d)

theorem abortPark_within (d : Dev) : d.within [.sht] [] (abortPark d) := toSht_within d _

theorem abortCleared_within (d : Dev) : d.within [.trd] [] (abortCleared d) := trdMod_within _ d

theorem trdAbort_steady {d : Dev} (h : d.trdState ≠ 8) :
    d.within [.ev, .flt, .wal, .dof, .axes, .mpl, .trd, .sht, .chain] [2, 12, 18, 20] (trdAbort d) := by
  rw [trdAbort_eq h]
  have h1 := within_mono (P := [.ev, .flt, .wal, .dof, .axes, .mpl, .trd]) (B := [2, 12, 18]) (abortCleared_within d) rfl rfl
  have h2 := within_comp (easeAll_within _) h1 rfl rfl
  have h3 := within_comp (P := [.ev, .flt, .wal, .dof, .axes, .mpl, .trd, .sht, .chain]) (B := [2, 12, 18, 20])
    (abortSlots_within _) (within_mono h2 rfl rfl) rfl rfl
  exact within_comp (trdEnter_steady (abort_commitsNone _)) (within_comp (abortPark_within _) h3 rfl rfl) rfl rfl

theorem trdEnter_informs {st : Nat} {ev : Bool} {d : Dev} (h : d.commitsNone st) : d.informs (trdEnter st ev d) := by
  have hshown : d.informs (trdShown st d) := by
    refine ⟨by rw [(trdShown_regsOnly st d).1], fun a ha => (trdShown_regsOnly st d).2 a fun hmem => ?_⟩
    simp only [List.mem_cons, List.not_mem_nil, or_false] at hmem
    rcases hmem with rfl | rfl | rfl <;> exact absurd ha (by decide)
  have hchain : (trdShown st d).informs { trdShown st d with chain := (trdEnter st ev d).chain } := .ofWithin (toChain_within _ _)
  exact (hshown.trans hchain).trans (.ofEventOnly (trdEnter_eventOnly h))

theorem trdAbort_informs {d : Dev} (h : d.trdState ≠ 8) : d.informs (trdAbort d) := by
  rw [trdAbort_eq h]
  have hease (t : Dev) : t.informs (easeAll t) := .foldl (fun v m => axEase_informs m v) _ t
  exact ((((Dev.informs.ofWithin (abortCleared_within d)).trans (hease _)).trans (.ofWithin (abortSlots_within _))).trans
    (.ofWithin (abortPark_within _))).trans (trdEnter_informs (abort_commitsNone _))

/-- The abort is told as ABORTED (R86). -/
theorem trdAbort_aborts {d : Dev} (h : d.trdState ≠ 8) : (trdAbort d).trdState = 8 ∧ (trdAbort d).pends 104 := by
  rw [trdAbort_eq h]
  refine ⟨trdEnter_trdState (abort_commitsNone _) (by decide), ?_⟩
  rw [trdEnter_eq (abort_commitsNone _), trdTold, if_pos rfl]
  exact occur_pends 104 0xFF 0 _ (by decide)

/-- HALTED is shown, and every other handler given up. -/
def haltShown (code : Nat) (d : Dev) : Dev :=
  ((d.put EVT_FLT_STATUS_HALTED 1).put EVT_FLT_FLAGS_HALT 1).fltMod fun f =>
    { f with suspended := [], queue := [], offered := [],
             haltUntilReset := f.haltUntilReset || code == 0x83 || code == 0x04 || code == 0x8B }

theorem haltShown_within (code : Nat) (d : Dev) : d.within [.flt] [2] (haltShown code d) :=
  within_comp (fltMod_within _ _)
    (within_comp (put_within _ EVT_FLT_FLAGS_HALT 1 2 rfl (.inr (by decide)))
      (within_mono (put_within d EVT_FLT_STATUS_HALTED 1 2 rfl (.inr (by decide))) rfl rfl) rfl rfl) rfl rfl

theorem haltShown_on (code : Nat) (d : Dev) :
    (haltShown code d).on EVT_FLT_STATUS_HALTED = true ∧ (haltShown code d).on EVT_FLT_FLAGS_HALT = true := by
  have hreg (a : Nat) : (haltShown code d).reg a = ((d.put EVT_FLT_STATUS_HALTED 1).put EVT_FLT_FLAGS_HALT 1).reg a := reg_mk ..
  refine ⟨?_, ?_⟩
  · rw [on_congr (hreg _), on_congr (reg_put_ne _ _ _ (by decide)), on_put_one _ _ (by decide) (by decide)]
  · rw [on_congr (hreg _), on_put_one _ _ (by decide) (by decide)]

theorem haltHandler_eq (code : Nat) (d : Dev) : haltHandler code d = trdAbort (haltShown code d) := rfl

/-- The next handler of a unit that has given up all others. -/
theorem nextHandler_none {f : FaultUnit} (hs : f.suspended = []) (hq : f.queue = []) (ho : f.offered = []) :
    offerAgain (nextHandler (offerAgain f)) = { f with running := none } := by
  obtain ⟨running, suspended, queue, offered⟩ := f
  subst hs hq ho
  rfl

/-! ### Retirement (R573, R575) -/

theorem shtMod_sht_ne {n k : Station} (h : k ≠ n) (f : Shuttle → Shuttle) (d : Dev) : vat (d.shtMod n f).sht k = vat d.sht k :=
  vat_vmod_ne _ _ h

/-- The interruption of one station moves no other. -/
theorem shtInterrupt_sht_ne {n k : Station} (h : k ≠ n) (at' : Nat) (d : Dev) :
    vat (shtInterrupt n at' d).sht k = vat d.sht k := by
  unfold shtInterrupt
  extract_lets x y s
  split
  · rfl
  · split
    · exact (congrArg (fun x => vat x k) ((showInterruption_within n _ _).frame.2 .sht rfl)).trans (shtMod_sht_ne h _ d)
    · exact shtMod_sht_ne h _ d

/-- The station's work stops and its hold ends. -/
def stationStopped (n : Station) (d : Dev) : Dev := shtCut n (release n d)

theorem release_informs (n : Station) (d : Dev) : d.informs (release n d) := by
  unfold release
  refine .ite ?_ (.refl d)
  exact ((Dev.informs.ofWithin (shtMod_within n _ d)).trans (.occur 119 _ _ _)).trans
    (.ofWithin (setReg_within _ SHD_MON_HELD _ 7 rfl (.inl (by decide))))

theorem stationStopped_informs (n : Station) (d : Dev) : d.informs (stationStopped n d) :=
  (release_informs n d).trans (.ofWithin (shtCut_within n _))

theorem stationStopped_sht_ne {n k : Station} (h : k ≠ n) (d : Dev) : vat (stationStopped n d).sht k = vat d.sht k :=
  (shtInterrupt_sht_ne h _ _).trans (release_held_ne n d h)

/-- The station is shown retired. -/
def stationRetired (n : Station) (d : Dev) : Dev :=
  let d := d.setReg EVT_FLT_RETIRED (setBit (d.reg EVT_FLT_RETIRED) n.val true)
  let d := (d.put EVT_FLT_FLAGS_RETIRE 1).put (SHT_STATUS_RETIRED n) 1
  d.shtMod n fun x => { x with blank := true }

/-- What the retirement takes from the station's loops, link and measurement, and from the allocation. -/
def stationLeft (n : Station) (code : Nat) (d : Dev) : Dev := shedRetire n (trimAbort n (linkRetire n (reedRetire n code d)))

theorem retireStation_new {n : Station} {d : Dev} (h : d.isRetired n.val = false) (code : Nat) :
    retireStation n code d = stationLeft n code (stationRetired n (stationStopped n d)) := if_neg (by simp [h])

theorem retireStation_old {n : Station} {d : Dev} (h : d.isRetired n.val = true) (code : Nat) : retireStation n code d = d :=
  if_pos h

theorem trimAbort_informs (n : Station) (d : Dev) : d.informs (trimAbort n d) := by
  have hresult (t : Dev) : t.informs (trimResult n 5 t) := by
    rw [trimResult_bad (by decide)]
    exact ((informs_put t _ 5 (k := 16) (by simp only [TRMS_STATUS]; omega)).trans (informs_put _ TRM_FLAGS_STN_FAIL 1 (k := 16) rfl)).trans
      (.faultEvent (by decide) _ _)
  have hstop : d.informs (measStopped n d) :=
    (Dev.informs.ofWithin (trimMod_within n _ d)).trans (informs_put _ _ 0 (k := 11) (by simp only [MPLS_STATUS]; omega))
  exact .ite ((hstop.trans (hresult _)).trans (.ofWithin (trimShow_within n _))) (.refl d)

theorem stationLeft_informs (n : Station) (code : Nat) (d : Dev) : d.informs (stationLeft n code d) :=
  (((Dev.informs.ofWithin (reedRetire_within n code d)).trans (.ofWithin (linkRetire_within n _))).trans (trimAbort_informs n _)).trans
    (.ofWithin (shedRetire_within n _))

theorem stationLeft_within (n : Station) (code : Nat) (d : Dev) :
    d.within [.ev, .flt, .wal, .dof, .mpl, .trm, .lnk, .reed, .shd] [2, 5, 7, 11, 16, 18, 20] (stationLeft n code d) :=
  within_comp (shedRetire_within n _) (within_comp (trimAbort_within n _) (within_comp (linkRetire_within n _)
    (within_mono (reedRetire_within n code d) rfl rfl) rfl rfl) rfl rfl) rfl rfl

theorem blanked_sht_ne {n k : Station} (hk : k ≠ n) {d e : Dev} (h : e.sht = d.sht) :
    vat (e.shtMod n fun x => { x with blank := true }).sht k = vat d.sht k :=
  (shtMod_sht_ne hk _ e).trans (congrArg (fun x => vat x k) h)

theorem shtStatus_block (n : Station) : (SHT_STATUS n) / 0x10000 = 8 := by simp only [SHT_STATUS]; omega

theorem stationRetired_spec (n : Station) (d : Dev) :
    (∀ k, k < 19 → (stationRetired n d).isRetired k = (d.isRetired k || decide (k = n.val))) ∧
      (stationRetired n d).on (SHT_STATUS_RETIRED n) = true ∧ (stationRetired n d).on EVT_FLT_FLAGS_RETIRE = true ∧
      (∀ k : Station, k ≠ n → vat (stationRetired n d).sht k = vat d.sht k) ∧
      (stationRetired n d).reg (EVT_FLT_COUNT 8) = d.reg (EVT_FLT_COUNT 8) ∧
      (stationRetired n d).reg EVT_FLT_ARG = d.reg EVT_FLT_ARG := by
  have hne {a : Nat} (ha : a / 0x10000 = 2) : a ≠ SHT_STATUS n := fun h => by rw [h, shtStatus_block n] at ha; exact absurd ha (by decide)
  have hreg (a : Nat) : (stationRetired n d).reg a =
      (((d.setReg EVT_FLT_RETIRED (setBit (d.reg EVT_FLT_RETIRED) n.val true)).put EVT_FLT_FLAGS_RETIRE 1).put
        (SHT_STATUS_RETIRED n) 1).reg a := by
    simp only [stationRetired, Dev.shtMod, reg_mk]
  refine ⟨fun k hk => ?_, ?_, ?_, fun k hk => ?_, ?_, ?_⟩
  · rw [Dev.isRetired, hreg, reg_put_ne _ _ _ (hne rfl), reg_put_ne _ _ _ (by decide), reg_setReg_setBit _ _ _ (by omega)]
    by_cases h : k = n.val
    · rw [h, bit_setBit_same]
      simp
    · rw [bit_setBit_ne _ _ h]
      simp [Dev.isRetired, h]
  · rw [on_congr (hreg _), on_put_one _ _ rfl (by simp)]
  · rw [on_congr (hreg _), on_congr (reg_put_ne _ _ _ (hne rfl)), on_put_one _ _ (by decide) (by decide)]
  · exact blanked_sht_ne hk ((put_sht ..).trans ((put_sht ..).trans (setReg_sht ..)))
  · rw [hreg, reg_put_ne _ _ _ (hne rfl), reg_put_ne _ _ _ (by decide), reg_setReg_ne _ _ (by decide)]
  · rw [hreg, reg_put_ne _ _ _ (hne rfl), reg_put_ne _ _ _ (by decide), reg_setReg_ne _ _ (by decide)]

/-- What a retirement leaves of the stations. -/
structure Dev.retires (n : Station) (d t : Dev) : Prop where
  retired : ∀ k, k < 19 → t.isRetired k = (d.isRetired k || decide (k = n.val))
  others : ∀ k : Station, k ≠ n → vat t.sht k = vat d.sht k
  count : t.reg (EVT_FLT_COUNT 8) = d.reg (EVT_FLT_COUNT 8)
  shown : d.isRetired n.val = false → t.on (SHT_STATUS_RETIRED n) = true ∧ t.on EVT_FLT_FLAGS_RETIRE = true

theorem isRetired_congr {d t : Dev} (h : t.reg EVT_FLT_RETIRED = d.reg EVT_FLT_RETIRED) (k : Nat) : t.isRetired k = d.isRetired k := by
  simp only [Dev.isRetired, h]

theorem retireStation_retires (n : Station) (code : Nat) (d : Dev) : d.retires n (retireStation n code d) := by
  cases h : d.isRetired n.val with
  | true =>
    rw [retireStation_old h]
    refine ⟨fun k _ => ?_, fun _ _ => rfl, rfl, fun h' => absurd (h.symm.trans h') (by decide)⟩
    by_cases hk : k = n.val
    · simp [hk, h]
    · simp [hk]
  | false =>
    rw [retireStation_new h]
    obtain ⟨hretired, hstatus, hflag, hsht, hcount, _⟩ := stationRetired_spec n (stationStopped n d)
    have hstop := stationStopped_informs n d
    have hleft := stationLeft_informs n code (stationRetired n (stationStopped n d))
    have hwithin := stationLeft_within n code (stationRetired n (stationStopped n d))
    refine ⟨fun k hk => ?_, fun k hk => ?_, ?_, fun _ => ⟨?_, ?_⟩⟩
    · rw [isRetired_congr (hleft.regs _ (by decide)), hretired k hk, isRetired_congr (hstop.regs _ (by decide))]
    · rw [show (stationLeft n code _).sht = _ from hwithin.frame.2 .sht rfl, hsht k hk, stationStopped_sht_ne hk]
    · rw [hleft.regs _ (by decide), hcount, hstop.regs _ (by decide)]
    · rw [on_congr (hwithin.frame.1 _ (by rw [shtStatus_block n]; rfl)), hstatus]
    · rw [on_congr (hleft.regs _ (by decide)), hflag]

/-! ### The command RETIRE (R572) -/

/-- One station of the command RETIRE. -/
def retireStep (arg : Nat) (t : Dev) (n : Station) : Dev :=
  if bit arg n.val && !t.isRetired n.val then retireStation n 0x08 (fault 0x08 sevInfo n.val t) else t

theorem cmdRetire_eq (d : Dev) : cmdRetire d = (List.finRange 16).foldl (retireStep (d.reg EVT_FLT_ARG)) d := rfl

theorem fault_sht (code sev inst : Nat) (d : Dev) (hc : code < 256 := by decide) : (fault code sev inst d).sht = d.sht :=
  (Dev.touches.fault (P := []) (L := []) code sev inst d hc).parts .sht (by simp) (by simp [Reach.parts])

theorem retireStep_spec (arg : Nat) (n : Station) (t : Dev) :
    (∀ k, k < 19 → (retireStep arg t n).isRetired k = (t.isRetired k || (bit arg k && decide (k = n.val)))) ∧
      (∀ k : Station, k ≠ n ∨ bit arg k.val = false → vat (retireStep arg t n).sht k = vat t.sht k) ∧
      (retireStep arg t n).reg (EVT_FLT_COUNT 8) =
        min (t.reg (EVT_FLT_COUNT 8) + (if bit arg n.val && !t.isRetired n.val then 1 else 0)) 0xFFFFFFFF := by
  have hlt : t.reg (EVT_FLT_COUNT 8) < 2 ^ 32 := reg_lt _ _
  unfold retireStep
  by_cases h : (bit arg n.val && !t.isRetired n.val) = true
  · rw [if_pos h, if_pos h]
    simp only [Bool.and_eq_true, Bool.not_eq_true'] at h
    have hr := retireStation_retires n 0x08 (fault 0x08 sevInfo n.val t)
    have hsame : (fault 0x08 sevInfo n.val t).reg EVT_FLT_RETIRED = t.reg EVT_FLT_RETIRED :=
      (Dev.touches.fault (P := []) (L := []) 0x08 sevInfo n.val t).reg (by simp) rfl
    refine ⟨fun k hk => ?_, fun k hk => ?_, ?_⟩
    · rw [hr.retired k hk, isRetired_congr hsame]
      by_cases hkn : k = n.val
      · simp [hkn, h.1]
      · simp [hkn]
    · have hkn : k ≠ n := hk.elim id fun hb hkn => by
        rw [hkn, h.1] at hb
        exact absurd hb (by decide)
      rw [hr.others k hkn, fault_sht 0x08 sevInfo n.val t]
    · rw [hr.count]
      exact (faultD_detects sevInfo 0 0 t (by decide) (by decide) (by omega)).1
  · rw [if_neg h, if_neg h]
    refine ⟨fun k _ => ?_, fun _ _ => rfl, by omega⟩
    by_cases hkn : k = n.val
    · subst hkn
      cases hb : bit arg n.val <;> simp_all
    · simp [hkn]

theorem retireFold_spec (arg : Nat) {l : List Station} (hn : l.Nodup) (d : Dev) :
    let t := l.foldl (retireStep arg) d
    (∀ k, k < 19 → t.isRetired k = (d.isRetired k || (bit arg k && l.any fun n => decide (k = n.val)))) ∧
      (∀ k : Station, bit arg k.val = false → vat t.sht k = vat d.sht k) ∧
      t.reg (EVT_FLT_COUNT 8) =
        min (d.reg (EVT_FLT_COUNT 8) + (l.filter fun k => bit arg k.val && !d.isRetired k.val).length) 0xFFFFFFFF := by
  induction l generalizing d with
  | nil =>
    have hlt : d.reg (EVT_FLT_COUNT 8) < 2 ^ 32 := reg_lt _ _
    exact ⟨fun k _ => by simp, fun _ _ => rfl, by simp only [List.foldl_nil, List.filter_nil, List.length_nil]; omega⟩
  | cons n l ih =>
    obtain ⟨hnew, hn⟩ := List.nodup_cons.1 hn
    obtain ⟨hretired, hsht, hcount⟩ := retireStep_spec arg n d
    obtain ⟨ihr, ihs, ihc⟩ := ih hn (retireStep arg d n)
    refine ⟨fun k hk => ?_, fun k hk => (ihs k hk).trans (hsht k (.inr hk)), ?_⟩
    · rw [List.foldl_cons, ihr k hk, hretired k hk, List.any_cons, Bool.or_assoc, ← Bool.and_or_distrib_left]
    · have htail : (l.filter fun k => bit arg k.val && !(retireStep arg d n).isRetired k.val) =
          l.filter fun k => bit arg k.val && !d.isRetired k.val := by
        refine List.filter_congr fun k hk => ?_
        have hkn : k.val ≠ n.val := fun h => hnew (Fin.ext h ▸ hk)
        rw [hretired k.val (by omega)]
        simp [hkn]
      rw [List.foldl_cons, ihc, htail, hcount, List.filter_cons]
      split
      · simp only [List.length_cons]
        omega
      · omega

theorem cmdRetire_spec (d : Dev) :
    (∀ k, k < 19 → (cmdRetire d).isRetired k = (d.isRetired k || (decide (k < 16) && bit (d.reg EVT_FLT_ARG) k))) ∧
      (∀ k : Station, bit (d.reg EVT_FLT_ARG) k.val = false → vat (cmdRetire d).sht k = vat d.sht k) ∧
      (cmdRetire d).reg (EVT_FLT_COUNT 8) = min (d.reg (EVT_FLT_COUNT 8) +
        ((List.finRange 16).filter fun (k : Station) => bit (d.reg EVT_FLT_ARG) k.val && !d.isRetired k.val).length) 0xFFFFFFFF := by
  obtain ⟨hretired, hsht, hcount⟩ := retireFold_spec (d.reg EVT_FLT_ARG) (List.nodup_finRange 16) d
  refine ⟨fun k hk => ?_, hsht, hcount⟩
  rw [cmdRetire_eq, hretired k hk, Bool.and_comm]
  congr 2
  by_cases h : k < 16
  · rw [decide_eq_true h, List.any_eq_true]
    exact ⟨⟨k, h⟩, List.mem_finRange _, by simp⟩
  · rw [decide_eq_false h, List.any_eq_false]
    exact fun n _ => by simp only [decide_eq_true_eq]; omega

/-! ### The command CLEAR_RETIRE (R575) -/

/-- From `d` to `t` the retirement and the retry counts of the units in `S` are cleared, and of no other. -/
structure Dev.clears (S : Fin 19 → Bool) (d t : Dev) : Prop where
  retired : ∀ u : Fin 19, t.isRetired u.val = (d.isRetired u.val && !S u)
  some : ∀ u : Fin 19, S u = true → vat t.flt.retries u = [] ∧ t.reg (EVT_FLT_RETRIES u) = 0
  none : ∀ u : Fin 19, S u = false → vat t.flt.retries u = vat d.flt.retries u ∧ t.reg (EVT_FLT_RETRIES u) = d.reg (EVT_FLT_RETRIES u)

theorem Dev.clears.refl (d : Dev) : Dev.clears (fun _ => false) d d :=
  ⟨fun _ => by simp, fun _ h => absurd h (by decide), fun _ _ => ⟨rfl, rfl⟩⟩

theorem Dev.clears.trans {S T : Fin 19 → Bool} {d t w : Dev} (h : d.clears S t) (k : t.clears T w) :
    d.clears (fun u => S u || T u) w where
  retired u := by rw [k.retired, h.retired, Bool.not_or, Bool.and_assoc]
  some u hu := by
    cases hT : T u with
    | true => exact k.some u hT
    | false =>
      have hS : S u = true := by simpa [hT] using hu
      exact ⟨(k.none u hT).1.trans (h.some u hS).1, (k.none u hT).2.trans (h.some u hS).2⟩
  none u hu := by
    obtain ⟨hS, hT⟩ := Bool.or_eq_false_iff.1 hu
    exact ⟨(k.none u hT).1.trans (h.none u hS).1, (k.none u hT).2.trans (h.none u hS).2⟩

theorem Dev.clears.foldl {α : Type} {g : Dev → α → Dev} {S : α → Fin 19 → Bool} (hg : ∀ (v : Dev) x, v.clears (S x) (g v x))
    (l : List α) (d : Dev) : d.clears (fun u => l.any fun x => S x u) (l.foldl g d) := by
  induction l generalizing d with
  | nil => exact .refl d
  | cons x l ih => exact (hg d x).trans (ih _)

theorem retriesAddr_ne {u v : Fin 19} (h : v ≠ u) : EVT_FLT_RETRIES v ≠ EVT_FLT_RETRIES u := by
  have : v.val ≠ u.val := Fin.val_ne_of_ne h
  simp only [EVT_FLT_RETRIES]
  omega

theorem retiredAddr_ne (u : Fin 19) : EVT_FLT_RETIRED ≠ EVT_FLT_RETRIES u := by simp only [EVT_FLT_RETIRED, EVT_FLT_RETRIES]; omega

/-- The bit of a unit in EVT_FLT_RETIRED goes, and its retry count. -/
def unitCleared (u : Fin 19) (d : Dev) : Dev :=
  clearRetries u (d.setReg EVT_FLT_RETIRED (setBit (d.reg EVT_FLT_RETIRED) u.val false))

theorem clearRetries_spec (u : Fin 19) (d : Dev) :
    vat (clearRetries u d).flt.retries u = [] ∧ (clearRetries u d).reg (EVT_FLT_RETRIES u) = 0 ∧
      (∀ v : Fin 19, v ≠ u → vat (clearRetries u d).flt.retries v = vat d.flt.retries v ∧
        (clearRetries u d).reg (EVT_FLT_RETRIES v) = d.reg (EVT_FLT_RETRIES v)) ∧
      (clearRetries u d).reg EVT_FLT_RETIRED = d.reg EVT_FLT_RETIRED := by
  have hreg (a : Nat) : (clearRetries u d).reg a = (d.setReg (EVT_FLT_RETRIES u) 0).reg a := by
    simp only [clearRetries, Dev.fltMod, reg_mk]
  refine ⟨vat_vput_same _ _ _, ?_, fun v hv => ⟨vat_vput_ne _ _ hv, ?_⟩, ?_⟩
  · exact (hreg _).trans ((reg_setReg_same _ _ _).trans rfl)
  · rw [hreg, reg_setReg_ne _ _ (retriesAddr_ne hv)]
  · rw [hreg, reg_setReg_ne _ _ (retiredAddr_ne u)]

/-- The bit of a unit goes where it is set. -/
theorem isRetired_setBit {d t : Dev} {u : Fin 19}
    (h : t.reg EVT_FLT_RETIRED = (d.setReg EVT_FLT_RETIRED (setBit (d.reg EVT_FLT_RETIRED) u.val false)).reg EVT_FLT_RETIRED)
    (v : Fin 19) : t.isRetired v.val = (d.isRetired v.val && !(v == u)) := by
  rw [Dev.isRetired, h, reg_setReg_setBit _ _ _ (by omega)]
  by_cases hv : v = u
  · subst hv
    rw [bit_setBit_false]
    simp
  · rw [bit_setBit_ne _ _ (Fin.val_ne_of_ne hv)]
    simp [Dev.isRetired, hv]

theorem unitCleared_clears (u : Fin 19) (d : Dev) : d.clears (· == u) (unitCleared u d) := by
  obtain ⟨hretries, hreg, hother, hretired⟩ :=
    clearRetries_spec u (d.setReg EVT_FLT_RETIRED (setBit (d.reg EVT_FLT_RETIRED) u.val false))
  refine ⟨isRetired_setBit hretired, fun v hv => ?_, fun v hv => ?_⟩
  · rw [eq_of_beq hv]
    exact ⟨hretries, hreg⟩
  · obtain ⟨h1, h2⟩ := hother v (ne_of_beq_false hv)
    refine ⟨h1.trans (by rw [setReg_flt]), h2.trans (reg_setReg_ne _ _ ?_)⟩
    exact (retiredAddr_ne v).symm

/-- The rest of a station's retirement is cleared. -/
def stationCleared (n : Station) (d : Dev) : Dev :=
  linkCleared n ((d.setReg EVT_FLT_RETIRED (setBit (d.reg EVT_FLT_RETIRED) n.val false)).put (SHT_STATUS_RETIRED n) 0)

theorem clearStation_eq (n : Station) (d : Dev) :
    clearStation n d = if !(clearRetries (stationTarget n) d).isRetired n.val then clearRetries (stationTarget n) d
      else stationCleared n (clearRetries (stationTarget n) d) := rfl

theorem stationCleared_reg {n : Station} {a : Nat} (ha : a / 0x10000 = 2) (d : Dev) :
    (stationCleared n d).reg a = (d.setReg EVT_FLT_RETIRED (setBit (d.reg EVT_FLT_RETIRED) n.val false)).reg a := by
  rw [stationCleared, (linkCleared_within n _).frame.1 a (by rw [ha]; rfl),
    reg_put_ne _ _ _ fun h => absurd ((congrArg (· / 0x10000) h).symm.trans ha) (by rw [shtStatus_block n]; decide)]

theorem stationCleared_flt (n : Station) (d : Dev) : (stationCleared n d).flt = d.flt :=
  ((linkCleared_within n _).frame.2 .flt rfl).trans ((put_flt ..).trans (setReg_flt ..))

theorem stationCleared_status (n : Station) (d : Dev) : (stationCleared n d).on (SHT_STATUS_RETIRED n) = false := by
  rw [stationCleared, on_congr ((linkCleared_within n _).frame.1 _ (by rw [shtStatus_block n]; rfl)), on_put_zero _ _ rfl (by simp)]

theorem retriesBlock (u : Fin 19) : (EVT_FLT_RETRIES u) / 0x10000 = 2 := by simp only [EVT_FLT_RETRIES]; omega

theorem clearStation_clears (n : Station) (d : Dev) : d.clears (· == stationTarget n) (clearStation n d) := by
  obtain ⟨hretries, hreg, hother, hretired⟩ := clearRetries_spec (stationTarget n) d
  rw [clearStation_eq]
  generalize hc : clearRetries (stationTarget n) d = c at hretries hreg hother hretired
  cases h : c.isRetired n.val with
  | false =>
    rw [if_pos (show (!false) = true from rfl)]
    refine ⟨fun v => ?_, fun v hv => eq_of_beq hv ▸ ⟨hretries, hreg⟩, fun v hv => hother v (ne_of_beq_false hv)⟩
    rw [isRetired_congr hretired]
    by_cases hv : v = stationTarget n
    · rw [← isRetired_congr hretired, hv, show (stationTarget n).val = n.val from rfl, h]
      rfl
    · simp [hv]
  | true =>
    rw [if_neg (by simp)]
    have hret : (stationCleared n c).reg EVT_FLT_RETIRED =
        (d.setReg EVT_FLT_RETIRED (setBit (d.reg EVT_FLT_RETIRED) (stationTarget n).val false)).reg EVT_FLT_RETIRED := by
      rw [stationCleared_reg rfl, hretired, reg_setReg_same, reg_setReg_same]
      rfl
    have hkept (v : Fin 19) : (stationCleared n c).reg (EVT_FLT_RETRIES v) = c.reg (EVT_FLT_RETRIES v) := by
      rw [stationCleared_reg (retriesBlock v), reg_setReg_ne _ _ (retiredAddr_ne v).symm]
    refine ⟨isRetired_setBit hret, fun v hv => ?_, fun v hv => ?_⟩
    · rw [eq_of_beq hv, hkept, stationCleared_flt]
      exact ⟨hretries, hreg⟩
    · rw [hkept, stationCleared_flt]
      exact hother v (ne_of_beq_false hv)

theorem clearRetries_within (u : Fin 19) (d : Dev) : d.within [.flt] [2] (clearRetries u d) :=
  within_comp (fltMod_within _ _) (within_mono (setReg_within d (EVT_FLT_RETRIES u) 0 2 (retriesBlock u)
    (.inr (by simp only [cfgReg, EVT_FLT_RETRIES, Bool.and_eq_false_iff, decide_eq_false_iff_not]; omega))) rfl rfl) rfl rfl

theorem retiredSet_within (v : Nat) (d : Dev) : d.within [] [2] (d.setReg EVT_FLT_RETIRED v) :=
  setReg_within d EVT_FLT_RETIRED v 2 rfl (.inr (by decide))

theorem unitCleared_within (u : Fin 19) (d : Dev) : d.within [.flt] [2] (unitCleared u d) :=
  within_comp (clearRetries_within u _) (within_mono (retiredSet_within _ d) rfl rfl) rfl rfl

theorem stationCleared_within (n : Station) (d : Dev) : d.within [.flt, .lnk] [2, 5, 8] (stationCleared n d) :=
  within_comp (linkCleared_within n _) (within_comp (put_within _ (SHT_STATUS_RETIRED n) 0 8 (shtStatus_block n) (.inl (by decide)))
    (within_mono (retiredSet_within _ d) rfl rfl) rfl rfl) rfl rfl

theorem clearStation_within (n : Station) (d : Dev) : d.within [.flt, .lnk] [2, 5, 8] (clearStation n d) := by
  have h := within_mono (P := [.flt, .lnk]) (B := [2, 5, 8]) (clearRetries_within (stationTarget n) d) rfl rfl
  rw [clearStation_eq]
  exact within_ite h (within_comp (stationCleared_within n _) h rfl rfl)

/-- The stations of the argument, and the other units of it. -/
def stationsCleared (arg : Nat) (d : Dev) : Dev :=
  (List.finRange 16).foldl (fun (t : Dev) (n : Station) => if bit arg n.val then clearStation n t else t) d

def unitsCleared (arg : Nat) (d : Dev) : Dev :=
  [(16 : Fin 19), 17, 18].foldl (fun (t : Dev) (u : Fin 19) => if bit arg u.val then unitCleared u t else t) d

theorem cmdClearRetire_eq {d : Dev} (h : d.trdStage ≠ tScan) :
    cmdClearRetire d = unitsCleared (d.reg EVT_FLT_ARG) (stationsCleared (d.reg EVT_FLT_ARG) d) := by
  unfold cmdClearRetire
  simp only [h, decide_false, Bool.false_and, Bool.false_eq_true, if_false]
  rfl

theorem clears_ite {S : Fin 19 → Bool} {d t : Dev} (b : Bool) (h : d.clears S t) :
    d.clears (fun u => b && S u) (if b then t else d) := by
  cases b with
  | true => simpa using h
  | false => simpa using Dev.clears.refl d

theorem Dev.clears.congr {S T : Fin 19 → Bool} {d t : Dev} (h : d.clears S t) (hST : ∀ u, S u = T u) : d.clears T t :=
  (funext hST : S = T) ▸ h

theorem cmdClearRetire_clears {d : Dev} (h : d.trdStage ≠ tScan) :
    d.clears (fun u => bit (d.reg EVT_FLT_ARG) u.val) (cmdClearRetire d) := by
  rw [cmdClearRetire_eq h]
  generalize d.reg EVT_FLT_ARG = arg
  have hstations : d.clears _ (stationsCleared arg d) := .foldl (fun v n => clears_ite (bit arg n.val) (clearStation_clears n v)) _ d
  have hunits : (stationsCleared arg d).clears _ (unitsCleared arg (stationsCleared arg d)) :=
    .foldl (fun v u => clears_ite (bit arg u.val) (unitCleared_clears u v)) _ _
  refine (hstations.trans hunits).congr fun u => ?_
  rw [Bool.eq_iff_iff]
  simp only [Bool.or_eq_true, List.any_eq_true, Bool.and_eq_true, beq_iff_eq]
  refine ⟨?_, fun hb => ?_⟩
  · rintro (⟨n, _, hb, rfl⟩ | ⟨x, _, hb, rfl⟩)
    · exact hb
    · exact hb
  · by_cases hu : u.val < 16
    · exact .inl ⟨⟨u.val, hu⟩, List.mem_finRange _, hb, rfl⟩
    · refine .inr ⟨u, ?_, hb, rfl⟩
      simp only [List.mem_cons, List.not_mem_nil, or_false, Fin.ext_iff]
      have := u.isLt
      show u.val = 16 ∨ u.val = 17 ∨ u.val = 18
      omega

theorem unitsCleared_within (arg : Nat) (d : Dev) : d.within [.flt] [2] (unitsCleared arg d) :=
  within_foldl _ _ (fun v u => within_ite (unitCleared_within u v) (within_refl _ _ v)) (within_refl _ _ d)

theorem cmdClearRetire_within {d : Dev} (h : d.trdStage ≠ tScan) : d.within [.flt, .lnk] [2, 5, 8] (cmdClearRetire d) := by
  rw [cmdClearRetire_eq h]
  exact within_comp (unitsCleared_within _ _)
    (within_foldl _ _ (fun v n => within_ite (clearStation_within n v) (within_refl _ _ v)) (within_refl _ _ d)) rfl rfl

theorem clearStation_status_ne {n k : Station} (hk : k ≠ n) (d : Dev) :
    (clearStation n d).reg (SHT_STATUS k) = d.reg (SHT_STATUS k) := by
  have hne : SHT_STATUS k ≠ SHT_STATUS n := by
    have : k.val ≠ n.val := Fin.val_ne_of_ne hk
    simp only [SHT_STATUS]
    omega
  have hkept : (clearRetries (stationTarget n) d).reg (SHT_STATUS k) = d.reg (SHT_STATUS k) :=
    (clearRetries_within _ d).frame.1 _ (by rw [shtStatus_block k]; rfl)
  have hset (t : Dev) (v : Nat) : (t.setReg EVT_FLT_RETIRED v).reg (SHT_STATUS k) = t.reg (SHT_STATUS k) :=
    (retiredSet_within v t).frame.1 _ (by rw [shtStatus_block k]; rfl)
  rw [clearStation_eq]
  split
  · exact hkept
  · rw [stationCleared, (linkCleared_within n _).frame.1 _ (by rw [shtStatus_block k]; rfl), reg_put_ne _ _ _ hne, hset, hkept]

/-- A station of the argument that was retired is shown in service (R575). -/
theorem cmdClearRetire_status {d : Dev} (h : d.trdStage ≠ tScan) {k : Station} (hb : bit (d.reg EVT_FLT_ARG) k.val = true)
    (hk : d.isRetired k.val = true) : (cmdClearRetire d).on (SHT_STATUS_RETIRED k) = false := by
  rw [cmdClearRetire_eq h, on_congr ((unitsCleared_within _ _).frame.1 _ (by rw [shtStatus_block k]; rfl))]
  have hone : ∀ v : Dev, v.isRetired k.val = true → (clearStation k v).isRetired k.val = false ∧
      (clearStation k v).on (SHT_STATUS_RETIRED k) = false := fun v hv => by
    have hr := (clearStation_clears k v).retired (stationTarget k)
    refine ⟨hr.trans (by simp), ?_⟩
    have hv' : (clearRetries (stationTarget k) v).isRetired k.val = true :=
      (isRetired_congr (clearRetries_spec (stationTarget k) v).2.2.2 _).trans hv
    rw [clearStation_eq, hv', if_neg (by simp), stationCleared_status]
  have hpair : ((stationsCleared (d.reg EVT_FLT_ARG) d).isRetired k.val,
      (stationsCleared (d.reg EVT_FLT_ARG) d).on (SHT_STATUS_RETIRED k)) = (false, false) := by
    refine obs_foldl_once (I := fun _ => True) (obs := fun t : Dev => (t.isRetired k.val, t.on (SHT_STATUS_RETIRED k)))
      (List.nodup_finRange 16) (List.mem_finRange k) (fun _ _ _ h => h) (fun v y _ hy => ?_) (fun v _ hv => ?_) trivial
    · have hkeep : (clearStation y v).isRetired k.val = v.isRetired k.val := by
        refine ((clearStation_clears y v).retired (stationTarget k)).trans ?_
        have hne : (stationTarget k == stationTarget y) = false :=
          beq_false_of_ne fun h => hy (Fin.ext (Fin.mk.inj h).symm)
        rw [hne]
        simp [stationTarget]
      split
      · rw [hkeep, on_congr (clearStation_status_ne (Ne.symm hy) v)]
      · rfl
    · rw [if_pos hb]
      obtain ⟨h1, h2⟩ := hone v ((Prod.mk.inj hv).1.trans hk)
      rw [h1, h2]
  exact (Prod.mk.inj hpair).2

/-! ### The recovery timer (R570) -/

/-- The escalated report of a fault has RETIRE and the escalation bit (R566). -/
theorem escalatedWord_fields (code : Nat) (queued subsumed : Bool) (inst : Nat) :
    bits (reportWord code sevRetire true false queued subsumed inst) 23 21 = 5 := by
  have h1 := b2n_le queued
  have h2 := b2n_le subsumed
  have h3 : b2n true = 1 := rfl
  have h4 : b2n false = 0 := rfl
  simp only [bits, reportWord, sevRetire, h3, h4]
  omega

theorem enqueueHandler_recovery (h : Handler) (f : FaultUnit) : (enqueueHandler h f).recovery = f.recovery := by
  unfold enqueueHandler
  split
  · rfl
  · split
    · rfl
    · split <;> rfl

/-- What an escalation without a further occurrence shows and requests (R570). -/
theorem escalate_shows (code inst : Nat) (d : Dev) :
    let t := escalate code inst d
    bits (t.reg EVT_FLT_LAST) 31 24 = code % 256 ∧ bits (t.reg EVT_FLT_LAST) 23 21 = 5 ∧
      bits (t.reg EVT_FLT_LAST) 7 0 = inst % 256 ∧ t.on EVT_FLT_FLAGS_ESCALATED = true ∧ t.flt.recovery = d.flt.recovery ∧
      (d.flt.running = none → ((faultTargets code inst).any fun u => !d.isRetired u.val) = true →
        t.flt.running = some ⟨code, 2, inst, true, false, false⟩) := by
  intro t
  have ht : t = escalate code inst d := rfl
  clear_value t
  unfold escalate at ht
  extract_lets us subsumed queued full w s1 s2 s3 at ht
  have hstage {a : Nat} (ha : eventReg a = false) : t.reg a = (s3.put EVT_FLT_FLAGS_ESCALATED 1).reg a := ht ▸ reg_stage _ a _ ha
  have hflt : t.flt = s1.flt := by
    have h1 : t.flt = (s3.put EVT_FLT_FLAGS_ESCALATED 1).flt := ht ▸ (stage_eventOnly _ _).part .flt (by decide) (by decide)
    have h2 : s2.flt = s1.flt := (setReg_flt ..).trans ((setReg_flt ..).trans (setReg_flt ..))
    have h3 : s3.flt = s2.flt := obs_ite (obs := Dev.flt) ((count_flt ..).trans (put_flt ..)) rfl
    exact h1.trans ((put_flt ..).trans (h3.trans h2))
  have hlast : t.reg EVT_FLT_LAST = w % 2 ^ 32 := by
    have h2 : s2.reg EVT_FLT_LAST = w % 2 ^ 32 :=
      (reg_setReg_ne _ _ (by decide)).trans ((reg_setReg_ne _ _ (by decide)).trans (reg_setReg_same _ _ _))
    have h3 : s3.reg EVT_FLT_LAST = s2.reg EVT_FLT_LAST :=
      reg_ite _ ((reg_count_ne _ _ (by decide)).trans (reg_put_ne _ _ _ (by decide)))
    rw [hstage (by decide), reg_put_ne _ _ _ (by decide), h3, h2]
  obtain ⟨hcode, hinst⟩ := reportWord_fields code sevRetire true false queued subsumed inst
  refine ⟨?_, ?_, ?_, ?_, ?_, fun hrun hany => ?_⟩
  · rw [hlast, bits_mod_word _ _ _ (by decide)]
    exact hcode
  · rw [hlast, bits_mod_word _ _ _ (by decide)]
    exact escalatedWord_fields code queued subsumed inst
  · rw [hlast, bits_mod_word _ _ _ (by decide)]
    exact hinst
  · rw [on_congr (hstage (by decide)), on_put_one _ _ (by decide) (by decide)]
  · rw [hflt]
    exact obs_ite (obs := fun u : Dev => u.flt.recovery) rfl (enqueueHandler_recovery _ _)
  · have hsub : subsumed = false := by
      obtain ⟨u, hu, hret⟩ := List.any_eq_true.1 hany
      have hall : (us.all fun u => d.isRetired u.val) = false := List.all_eq_false.2 ⟨u, hu, by simpa using hret⟩
      rw [show subsumed = (!us.isEmpty && us.all fun u => d.isRetired u.val) from rfl, hall, Bool.and_false]
    have hqueued : queued = false := by simp [queued, hrun]
    have h1 : s1.flt = enqueueHandler ⟨code, sevRetire, inst, true, false, queued⟩ d.flt := by
      simp only [s1, hsub, Bool.false_eq_true, if_false]
    rw [hflt, h1, hqueued]
    simp only [enqueueHandler, hrun]

theorem recovered_touches (u : Fin 19) (d : Dev) : Dev.touches m (.flt :: P) L d (recovered u d) :=
  .ofWithin (toFlt_within d _) (by simp)

/-- The timers of an escalated occurrence stop. -/
def timersStopped (u : Fin 19) (r : Recovery) (d : Dev) : Dev :=
  (faultTargets r.code r.inst).foldl (fun (t : Dev) v => recovered v t) (recovered u d)

theorem timersStopped_touches (u : Fin 19) (r : Recovery) (d : Dev) : Dev.touches m (.flt :: P) L d (timersStopped u r d) :=
  (recovered_touches u d).trans (.foldl (fun t v => recovered_touches v t) _ _)

theorem timersStopped_spec (u : Fin 19) (r : Recovery) (d : Dev) :
    vat (timersStopped u r d).flt.recovery u = none ∧ (timersStopped u r d).flt.running = d.flt.running := by
  refine ⟨?_, ?_⟩
  · refine List.foldlRecOn (motive := fun t : Dev => vat t.flt.recovery u = none) _ _ (vat_vput_same _ _ _) fun t ht v _ => ?_
    by_cases h : u = v
    · subst h
      exact vat_vput_same _ _ _
    · exact (vat_vput_ne _ _ h).trans ht
  · exact obs_foldl_keep (obs := fun t : Dev => t.flt.running) (g := fun t v => recovered v t) (fun _ _ _ => rfl) (recovered u d)

theorem recoverTmo_eq {u : Fin 19} {r : Recovery} {d : Dev} (h : vat d.flt.recovery u = some r)
    (ht : r.since + max 1 (d.reg EVT_FLT_RECOVER_TMO % 65536) * 2000 ≤ d.grid.ticks) :
    recoverTmo u d = escalate r.code r.inst (timersStopped u r d) := by
  simp only [recoverTmo, h]
  exact if_neg (Nat.not_lt.2 ht)

/-! ### Commands of the fault unit -/

/-- A write of EVT_FLT_CMD with its key is the command in its low bits. -/
theorem fltCommand_keyed {w k : Nat} (h : w / 65536 = 0xFA17) (hk : k < 4) :
    (putBits w 1 0 k) / 65536 = 0xFA17 ∧ putBits w 1 0 k % 4 = k := by
  simp only [putBits]
  omega

theorem fltCommand_retire {w : Nat} (h : w / 65536 = 0xFA17) (d : Dev) : fltCommand (putBits w 1 0 1) d = cmdRetire d := by
  obtain ⟨hkey, hop⟩ := fltCommand_keyed (k := 1) h (by decide)
  simp only [fltCommand, hkey, hop, ne_eq, not_true_eq_false, if_false]

theorem fltCommand_clearRetire {w : Nat} (h : w / 65536 = 0xFA17) (d : Dev) :
    fltCommand (putBits w 1 0 2) d = cmdClearRetire d := by
  obtain ⟨hkey, hop⟩ := fltCommand_keyed (k := 2) h (by decide)
  simp only [fltCommand, hkey, hop, ne_eq, not_true_eq_false, if_false]

theorem fltCommand_clearHalt {w : Nat} (h : w / 65536 = 0xFA17) (d : Dev) :
    fltCommand (putBits w 1 0 3) d = cmdClearHalt d := by
  obtain ⟨hkey, hop⟩ := fltCommand_keyed (k := 3) h (by decide)
  simp only [fltCommand, hkey, hop, ne_eq, not_true_eq_false, if_false]

/-- The work of a handler, by its severity (R577). -/
def handlerWork (h : Handler) (d : Dev) : Dev :=
  match h.sev with
  | 2 => (faultTargets h.code h.inst).foldl (fun (t : Dev) u => retireUnit h.code u t) d
  | 3 => haltHandler h.code d
  | _ => d

theorem handlerWork_report {h : Handler} (hsev : h.sev < 2) (d : Dev) : handlerWork h d = d := by
  unfold handlerWork
  split
  · omega
  · omega
  · rfl

theorem handlerWork_retire {h : Handler} (hsev : h.sev = 2) (d : Dev) :
    handlerWork h d = (faultTargets h.code h.inst).foldl (fun (t : Dev) u => retireUnit h.code u t) d := by
  simp only [handlerWork, hsev]

theorem handlerWork_halt {h : Handler} (hsev : h.sev = 3) (d : Dev) : handlerWork h d = haltHandler h.code d := by
  simp only [handlerWork, hsev]

/-- The handler gives way (R578). -/
def handlerGives (d : Dev) : Dev := d.fltMod fun f => offerAgain (nextHandler (offerAgain f))

theorem handlerGives_within (d : Dev) : d.within [.flt] [] (handlerGives d) := fltMod_within _ d

theorem handlerGives_reg (d : Dev) (a : Nat) : (handlerGives d).reg a = d.reg a := by
  simp only [handlerGives, Dev.fltMod, reg_mk]

theorem handlerGives_flt (d : Dev) : (handlerGives d).flt = offerAgain (nextHandler (offerAgain d.flt)) := by
  simp only [handlerGives, Dev.fltMod]

theorem runHandler_running {d : Dev} {h : Handler} (hr : d.flt.running = some h) :
    runHandler d = handlerGives (handlerWork h d) := by
  unfold runHandler
  rw [hr]
  rfl

/-- The one target of a report that names a station (R571). -/
theorem faultTargets_station {code inst : Nat} {n : Station} (hi : inst = n.val) (h21 : code ≠ 0x21) (h22 : code ≠ 0x22) :
    faultTargets code inst = [stationTarget n] := by
  subst hi
  unfold faultTargets
  split
  · exact absurd rfl h21
  · exact absurd rfl h22
  · rw [if_pos n.isLt]
    exact congrArg (fun u => [u]) (Fin.ext (Nat.mod_eq_of_lt (by omega)))
  · rw [dif_pos n.isLt]
    rfl

theorem bit_cleared (x w k : Nat) (hk : k < 32) (hw : w < 2 ^ 32) : bit (Nat.land x (0xFFFFFFFF - w)) k = (bit x k && !bit w k) := by
  have hmask : (0xFFFFFFFF - w : Nat).testBit k = !w.testBit k := by
    have h := Nat.testBit_two_pow_sub_succ hw k
    rw [show (2 ^ 32 - (w + 1) : Nat) = 0xFFFFFFFF - w by omega] at h
    simpa [hk] using h
  simp only [bit]
  rw [show Nat.land x (0xFFFFFFFF - w) = x &&& (0xFFFFFFFF - w) from rfl, Nat.testBit_and, hmask]

theorem retireUnit_station (n : Station) (code : Nat) (d : Dev) : retireUnit code (stationTarget n) d = retireStation n code d :=
  dif_pos n.isLt

theorem cmdClearHalt_eq {d : Dev} : cmdClearHalt d =
    if d.haltPersists then d.put EVT_FLT_FLAGS_WRITE_LOCKED 1 else d.put EVT_FLT_STATUS_HALTED 0 := rfl

theorem haltShown_trdState (code : Nat) (d : Dev) : (haltShown code d).trdState = d.trdState := by
  have hreg : (haltShown code d).reg TRD_STATE = d.reg TRD_STATE := (haltShown_within code d).frame.1 _ (by decide)
  simp only [Dev.trdState, Dev.get, hreg]

/-- The unit after a HALT: what waits is given up (R576, R578). -/
def haltLeft (code : Nat) (f : FaultUnit) : FaultUnit :=
  { f with suspended := [], queue := [], offered := [],
           haltUntilReset := f.haltUntilReset || code == 0x83 || code == 0x04 || code == 0x8B }

theorem haltShown_flt (code : Nat) (d : Dev) : (haltShown code d).flt = haltLeft code d.flt := by
  have h : ((d.put EVT_FLT_STATUS_HALTED 1).put EVT_FLT_FLAGS_HALT 1).flt = d.flt := (put_flt ..).trans (put_flt ..)
  simp only [haltShown, Dev.fltMod, h, haltLeft]

theorem haltHandler_flt (code : Nat) {d : Dev} (h : d.trdState ≠ 8) : (haltHandler code d).flt = haltLeft code d.flt := by
  have hstate : (haltShown code d).trdState ≠ 8 := by rwa [haltShown_trdState]
  rw [haltHandler_eq, (trdAbort_informs hstate).flt, haltShown_flt]

theorem haltHandler_steady (code : Nat) {d : Dev} (h : d.trdState ≠ 8) :
    d.within [.ev, .flt, .wal, .dof, .axes, .mpl, .trd, .sht, .chain] [2, 12, 18, 20] (haltHandler code d) := by
  have hstate : (haltShown code d).trdState ≠ 8 := by rwa [haltShown_trdState]
  rw [haltHandler_eq]
  exact within_comp (trdAbort_steady hstate) (within_mono (haltShown_within code d) rfl rfl) rfl rfl

theorem haltHandler_shows (code : Nat) {d : Dev} (h : d.trdState ≠ 8) :
    let t := haltHandler code d
    t.on EVT_FLT_STATUS_HALTED = true ∧ t.on EVT_FLT_FLAGS_HALT = true ∧ t.trdState = 8 ∧ t.pends 104 := by
  have hstate : (haltShown code d).trdState ≠ 8 := by rwa [haltShown_trdState]
  have hinforms := trdAbort_informs hstate
  obtain ⟨hhalted, hflag⟩ := haltShown_on code d
  obtain ⟨haborted, hpends⟩ := trdAbort_aborts hstate
  rw [haltHandler_eq]
  exact ⟨(on_congr (hinforms.regs _ (by decide))).trans hhalted, (on_congr (hinforms.regs _ (by decide))).trans hflag,
    haborted, hpends⟩

theorem haltLeft_next (code : Nat) (f : FaultUnit) :
    offerAgain (nextHandler (offerAgain (haltLeft code f))) = { haltLeft code f with running := none } :=
  nextHandler_none rfl rfl rfl

/-- A handler that has done a HALT's work to `t` gives way: what `t` shows stands. -/
theorem handlerGives_halted {code : Nat} {s : State} {t : Dev} (hrun : s.dev.runs domFab = true) (hcalm : s.dev.calm)
    (heq : runHandler s.dev = handlerGives t)
    (hsteady : s.dev.within [.ev, .flt, .wal, .dof, .axes, .mpl, .trd, .sht, .chain] [2, 12, 18, 20] t)
    (hhalted : t.on EVT_FLT_STATUS_HALTED = true) (hflag : t.on EVT_FLT_FLAGS_HALT = true) (haborted : t.trdState = 8)
    (hpends : t.pends 104) (hflt : t.flt = haltLeft code s.dev.flt) :
    ∃ d, exec .faultHandler s = .next { s with dev := d } ∧ d.on EVT_FLT_STATUS_HALTED = true ∧ d.on EVT_FLT_FLAGS_HALT = true
      ∧ d.trdState = 8 ∧ d.flt = { haltLeft code s.dev.flt with running := none } ∧ d.pends 104
      ∧ s.dev.within [.ev, .flt, .wal, .dof, .axes, .mpl, .trd, .sht, .chain] [2, 12, 18, 20] d := by
  have hfltEnd : (handlerGives t).flt = { haltLeft code s.dev.flt with running := none } := by
    rw [handlerGives_flt, hflt, haltLeft_next]
  have hwithin := within_comp (P := [.ev, .flt, .wal, .dof, .axes, .mpl, .trd, .sht, .chain]) (B := [2, 12, 18, 20])
    (handlerGives_within t) hsteady rfl rfl
  have hreg := handlerGives_reg t
  refine ⟨_, actIn_of_eq (f := runHandler) hrun heq (hwithin.calm hcalm).1, (on_congr (hreg _)).trans hhalted,
    (on_congr (hreg _)).trans hflag, ?_, hfltEnd, hpends, hwithin⟩
  simpa only [Dev.trdState, Dev.get, hreg] using haborted

/-- What the HALT handler of a report gives (R576). -/
theorem faultHandler_halts {h : Handler} {s : State} (hrun : s.dev.runs domFab = true) (hcalm : s.dev.calm)
    (hr : s.dev.flt.running = some h) (hsev : h.sev = 3) (htrd : s.dev.trdState ≠ 8) :
    ∃ d, exec .faultHandler s = .next { s with dev := d } ∧ d.on EVT_FLT_STATUS_HALTED = true ∧ d.on EVT_FLT_FLAGS_HALT = true
      ∧ d.trdState = 8 ∧ d.flt = { haltLeft h.code s.dev.flt with running := none } ∧ d.pends 104
      ∧ s.dev.within [.ev, .flt, .wal, .dof, .axes, .mpl, .trd, .sht, .chain] [2, 12, 18, 20] d := by
  have heq : runHandler s.dev = handlerGives (haltHandler h.code s.dev) := by rw [runHandler_running hr, handlerWork_halt hsev]
  obtain ⟨hhalted, hflag, haborted, hpends⟩ := haltHandler_shows h.code htrd
  exact handlerGives_halted hrun hcalm heq (haltHandler_steady h.code htrd) hhalted hflag haborted hpends (haltHandler_flt h.code htrd)

/-- The handler of a station's report retires that station (R573). -/
theorem runHandler_retire {h : Handler} {n : Station} {d : Dev} (hr : d.flt.running = some h) (hsev : h.sev = 2)
    (hinst : h.inst = n.val) (h21 : h.code ≠ 0x21) (h22 : h.code ≠ 0x22) :
    runHandler d = handlerGives (retireStation n h.code d) := by
  rw [runHandler_running hr, handlerWork_retire hsev, faultTargets_station hinst h21 h22, List.foldl_cons, List.foldl_nil,
    retireUnit_station]

theorem handlerGives_retired {n : Station} {s : State} {t : Dev} (hrun : s.dev.runs domFab = true) (hcalm : s.dev.calm)
    (heq : runHandler s.dev = handlerGives t) (hretires : s.dev.retires n t)
    (hwithin : s.dev.within [.ev, .flt, .wal, .dof, .sht, .mpl, .shd, .reed, .lnk, .trm] [2, 5, 7, 8, 11, 16, 18, 20] t) :
    ∃ d, exec .faultHandler s = .next { s with dev := d }
      ∧ (∀ k, k < 19 → d.isRetired k = (s.dev.isRetired k || decide (k = n.val)))
      ∧ (s.dev.isRetired n.val = false → d.on (SHT_STATUS_RETIRED n) = true ∧ d.on EVT_FLT_FLAGS_RETIRE = true)
      ∧ (∀ k : Station, k ≠ n → vat d.sht k = vat s.dev.sht k)
      ∧ s.dev.within [.ev, .flt, .wal, .dof, .sht, .mpl, .shd, .reed, .lnk, .trm] [2, 5, 7, 8, 11, 16, 18, 20] d := by
  have hgives := within_comp (P := [.ev, .flt, .wal, .dof, .sht, .mpl, .shd, .reed, .lnk, .trm]) (B := [2, 5, 7, 8, 11, 16, 18, 20])
    (handlerGives_within t) hwithin rfl rfl
  have hreg := handlerGives_reg t
  refine ⟨_, actIn_of_eq (f := runHandler) hrun heq (hgives.calm hcalm).1, fun k hk => ?_, fun hnew => ?_,
    fun k hk => hretires.others k hk, hgives⟩
  · rw [isRetired_congr (hreg _), hretires.retired k hk]
  · rw [on_congr (hreg _), on_congr (hreg _)]
    exact hretires.shown hnew

/-- A recovery out of its time is escalated (R570). -/
theorem recoverTmo_escalates {u : Fin 19} {r : Recovery} {s : State} (hrun : s.dev.runs domFab = true) (hcalm : s.dev.calm)
    (hrec : vat s.dev.flt.recovery u = some r)
    (htime : r.since + max 1 (s.dev.reg EVT_FLT_RECOVER_TMO % 65536) * 2000 ≤ s.dev.grid.ticks) :
    ∃ d, exec (.recoverTmo u) s = .next { s with dev := d } ∧ vat d.flt.recovery u = none
      ∧ bits (d.reg EVT_FLT_LAST) 31 24 = r.code % 256 ∧ bits (d.reg EVT_FLT_LAST) 23 21 = 5
      ∧ bits (d.reg EVT_FLT_LAST) 7 0 = r.inst % 256 ∧ d.on EVT_FLT_FLAGS_ESCALATED = true
      ∧ (s.dev.flt.running = none → (faultTargets r.code r.inst).any (fun (v : Fin 19) => !s.dev.isRetired v.val) = true →
          d.flt.running = some ⟨r.code, 2, r.inst, true, false, false⟩)
      ∧ Dev.withFault [] s.dev d := by
  have hstopped := timersStopped_touches (m := .fault) (P := []) (L := []) u r s.dev
  obtain ⟨hnone, hrunning⟩ := timersStopped_spec u r s.dev
  have heq : recoverTmo u s.dev = escalate r.code r.inst (timersStopped u r s.dev) := recoverTmo_eq hrec htime
  generalize timersStopped u r s.dev = t at hstopped hnone hrunning heq
  obtain ⟨hcode, hsev, hinst, hflag, hkept, hserved⟩ := escalate_shows r.code r.inst t
  have htouch : Dev.touches .fault [.flt] [] s.dev (escalate r.code r.inst t) :=
    hstopped.trans (.ofFaultOnly (escalate_faultOnly r.code r.inst t))
  refine ⟨_, actIn_of_eq hrun heq (htouch.calm hcalm).1, (congrArg (vat · u) hkept).trans hnone, hcode, hsev, hinst, hflag,
    fun hidle hany => hserved (hrunning.trans hidle) ?_, htouch.withFault⟩
  have hret (v : Fin 19) : t.isRetired v.val = s.dev.isRetired v.val := isRetired_congr (hstopped.regs _ (by decide) (by decide)) _
  simpa only [hret] using hany

theorem cmdClearHalt_reacts {d : Dev} (h : d.ev.reacts = []) : (cmdClearHalt d).ev.reacts = [] := by
  have hput (f : Field) (v : Nat) : (d.put f v).ev.reacts = [] := (congrArg EventUnit.reacts (put_ev ..)).trans h
  rw [cmdClearHalt_eq]
  split
  · exact hput _ _
  · exact hput _ _

theorem clearHalt_clears {w : Word} {s : State} (hw : w.toNat / 65536 = 0xFA17) (hrun : s.dev.runs domFab = true)
    (hcalm : s.dev.calm) : exec (.clearHalt w) s = .next { s with dev :=
      (if s.dev.haltPersists then s.dev.put EVT_FLT_FLAGS_WRITE_LOCKED 1 else s.dev.put EVT_FLT_STATUS_HALTED 0) } := by
  have heq : fltCommand (putBits w.toNat 1 0 3) s.dev = cmdClearHalt s.dev := fltCommand_clearHalt hw s.dev
  rw [← cmdClearHalt_eq]
  exact actIn_of_eq (f := fltCommand (putBits w.toNat 1 0 3)) hrun heq (cmdClearHalt_reacts hcalm.1)

/-- Settles O44: the handlers by their severity, the escalation and the commands, each by its own lemma. -/
theorem faultHandlers : Obligations.FaultHandlers := by
  unfold Obligations.FaultHandlers
  intro h n u r w i s hrun hcalm
  refine ⟨fun hr hsev => ?_, fun hr hsev hinst h21 h22 => ?_, fun hr hsev htrd _ => ?_, fun hrec htime => ?_, fun hw => ?_,
    fun hw hstage => ?_, fun hw => ?_, ?_, fun k hk => bit_cleared _ _ k hk w.isLt⟩
  · have heq : runHandler s.dev = handlerGives s.dev := by rw [runHandler_running hr, handlerWork_report hsev]
    exact actIn_of_eq (f := runHandler) hrun heq hcalm.1
  · obtain ⟨d, hexec, hretired, hshown, hothers, hwithin⟩ := handlerGives_retired hrun hcalm (runHandler_retire hr hsev hinst h21 h22)
      (retireStation_retires n h.code s.dev) (within_mono (retireStation_within n h.code s.dev) rfl rfl)
    exact ⟨d, hexec, hretired, hshown, hothers, (within_mono hwithin rfl rfl).frame⟩
  · obtain ⟨d, hexec, hhalted, hflag, haborted, hflt, hpends, hwithin⟩ := faultHandler_halts hrun hcalm hr hsev htrd
    refine ⟨d, hexec, hhalted, hflag, haborted, by rw [hflt, haltLeft], by rw [hflt, haltLeft], by rw [hflt, haltLeft], by rw [hflt], ?_,
      hpends, (within_mono hwithin rfl rfl).frame⟩
    rw [hflt, haltLeft]
    simp [Bool.or_assoc, beq_eq_decide]
  · exact recoverTmo_escalates hrun hcalm hrec htime
  · obtain ⟨hretired, hsht, hcount⟩ := cmdRetire_spec s.dev
    have heq : fltCommand (putBits w.toNat 1 0 1) s.dev = cmdRetire s.dev := fltCommand_retire hw s.dev
    have hwithin := cmdRetire_within s.dev
    exact ⟨_, actIn_of_eq hrun heq (hwithin.calm hcalm).1, hretired, hsht, hcount, (within_mono hwithin rfl rfl).frame⟩
  · have heq : fltCommand (putBits w.toNat 1 0 2) s.dev = cmdClearRetire s.dev := fltCommand_clearRetire hw s.dev
    have hwithin := cmdClearRetire_within hstage
    have hclears := cmdClearRetire_clears hstage
    exact ⟨_, actIn_of_eq hrun heq (hwithin.calm hcalm).1, fun k hk => hclears.retired ⟨k, hk⟩, fun k hk => hclears.some k hk,
      fun k hb hk => cmdClearRetire_status hstage hb hk, (within_mono hwithin rfl rfl).frame⟩
  · exact clearHalt_clears hw hrun hcalm
  · have hset : (s.dev.setReg (EVT_PEND i) (Nat.land (s.dev.reg (EVT_PEND i)) (0xFFFFFFFF - w.toNat))).ev.reacts = [] :=
      (congrArg EventUnit.reacts (setReg_ev ..)).trans hcalm.1
    exact actIn_of_eq (f := fun d => d.setReg (EVT_PEND i) (Nat.land (d.reg (EVT_PEND i)) (0xFFFFFFFF - w.toNat))) hrun rfl hset

/-!
REFUTATION of start-up: with no candidate the chain ports are enabled (R523), and a port that is already in block lock
sends at once what it holds. A launch that is late is then reported as LAUNCH_LATE (R502), so the last report is not the
one of NO_IMAGE.
-/

/-- A launch whose time has passed. -/
def pastLaunch : Timed where
  addr := 0
  len := 64
  base := 0
  sec := 0xFFFFFFFF
  ns := 0
  dropLate := true

/-- Stage FUSES is over but for its clocks; no image in the flash; N0 is in block lock and holds a launch that is late. -/
def lockedPort : Dev :=
  { Dev.reset with
    regs := [(DEV_STATE, 0x21), (CLK_LIVE, 1), (LNK_LOCKED, 0x10000)]
    start := { Dev.reset.start with porstLow := false, strapped := true }
    chain := { Dev.reset.chain with ports := vput Dev.reset.chain.ports 0 { ChainPort.reset with launches := [pastLaunch] } } }

theorem lockedPort_calm : lockedPort.calm := by
  have hcfg : ∀ e : Fin 256, lockedPort.get (EVT_CFG_REACT e) = 0 := by decide +kernel
  exact ⟨rfl, fun e he => hcfg ⟨e, he⟩⟩

/-- The late launch is reported after NO_IMAGE. -/
theorem clocksLocked_lockedPort :
    bits ((settle (clocksLocked true 0 lockedPort)).reg EVT_FLT_LAST) 31 24 = 0x28 := by
  decide +kernel

theorem exec_clocksLocked (slow : Bool) (flashBytes : Nat) (s : State) :
    exec (.clocksLocked slow flashBytes) s = .next { s with
      dev := if s.dev.runs domAon then settle (clocksLocked slow flashBytes s.dev) else s.dev } := rfl

/-- Refutes O51: where the chain ports that NO_IMAGE enables hold a launch that is late, the last report is the launch's, and the
fourth clause says that it is the one of NO_IMAGE. -/
theorem not_startUp : ¬ Obligations.StartUp := by
  unfold Obligations.StartUp
  intro h
  have hrun : lockedPort.runs domAon = true := by decide +kernel
  have himages : ∀ j : Fin 2, imgCandidate (lockedPort.slotRead j.val) = false := by decide +kernel
  obtain ⟨-, -, -, hnone, -, -, -⟩ := h 0 Dev.reset 0 0 ⟨lockedPort, Otp.blank, []⟩ lockedPort_calm
  obtain ⟨d, hexec, -, -, -, -, -, hcode, -⟩ := hnone hrun (.inl (by decide +kernel)) (by decide +kernel) rfl rfl rfl
    (fun j hj => himages ⟨j, hj⟩)
  rw [exec_clocksLocked, if_pos hrun] at hexec
  have hd : d = settle (clocksLocked true 0 lockedPort) := (dev_of_next hexec).symm
  have hlate : bits (d.reg EVT_FLT_LAST) 31 24 = 0x28 :=
    (congrArg (fun x => bits (Dev.reg x EVT_FLT_LAST) 31 24) hd).trans clocksLocked_lockedPort
  rw [hcode] at hlate
  exact absurd hlate (by decide)

/-!
PROOFS about resets, the life-cycle and the fuses (R509, R512 to R514, R526, R680, R681).
-/

/-! ### Registers that a reset keeps -/

theorem reg_keepRegs {keep : Nat → Bool} {a : Nat} {d e : Dev} (he : e.regs = d.keepRegs keep) (h : keep a = true) :
    e.reg a = d.reg a := by
  rw [Dev.reg, he]
  exact congrArg BitVec.toNat (sget_filter_kept (resetOf a) h d.regs)

theorem reg_keepRegs_out {keep : Nat → Bool} {a : Nat} {d e : Dev} (he : e.regs = d.keepRegs keep) (h : keep a = false) :
    e.reg a = Dev.reset.reg a := by
  rw [Dev.reg, he]
  exact congrArg BitVec.toNat (sget_filter_out (resetOf a) h d.regs)

/-! ### PORST_N low (R509, R562) -/

/-- The device in reset: the flash, THM_LAST_SHUT and the level of EMIT_GATE_N stay. -/
def inReset (d : Dev) : Dev :=
  { Dev.reset with free := d.free + 2, flash := d.flash, regs := d.keepRegs (· == THM_LAST_SHUT) }

theorem programmingCut_idle {o : Otp} {d : Dev} (hf : d.start.fuseJob = none) (hl : d.start.lcJob = none) :
    programmingCut o d = (o, { d with free := d.free + 2 }) := by
  simp only [programmingCut, fuseDone, Dev.fresh, hf, hl, Option.isNone_none, if_true]

theorem porstLow_idle {o : Otp} {d : Dev} (hf : d.start.fuseJob = none) (hl : d.start.lcJob = none) :
    porstLow o d = (o, (inReset d).put EVT_FLT_GATE_PIN_LOW (d.get EVT_FLT_GATE_PIN_LOW)) := by
  simp only [porstLow, programmingCut_idle hf hl, inReset, Dev.keepRegs]

theorem get_gatePin_put (d e : Dev) :
    (e.put EVT_FLT_GATE_PIN_LOW (d.get EVT_FLT_GATE_PIN_LOW)).get EVT_FLT_GATE_PIN_LOW = d.get EVT_FLT_GATE_PIN_LOW := by
  rw [get_put_same _ _ _ (by decide) (by decide)]
  exact Nat.mod_eq_of_lt (get_lt d EVT_FLT_GATE_PIN_LOW)

/-- What a device in reset shows. -/
theorem inReset_spec (d : Dev) :
    let t := (inReset d).put EVT_FLT_GATE_PIN_LOW (d.get EVT_FLT_GATE_PIN_LOW)
    t.reg THM_LAST_SHUT = d.reg THM_LAST_SHUT ∧ t.get EVT_FLT_GATE_PIN_LOW = d.get EVT_FLT_GATE_PIN_LOW
      ∧ Dev.regsOnly [THM_LAST_SHUT, EVT_FLT_GATE] { Dev.reset with free := t.free, flash := d.flash } t := by
  intro t
  refine ⟨?_, get_gatePin_put d _, rfl, fun a ha => ?_⟩
  · exact (reg_put_ne _ _ _ (by decide)).trans (reg_keepRegs (d := d) (keep := (· == THM_LAST_SHUT)) rfl rfl)
  · rw [List.mem_cons, List.mem_singleton, not_or] at ha
    exact (reg_put_ne _ _ _ ha.2).trans (reg_keepRegs_out (d := d) (keep := (· == THM_LAST_SHUT)) rfl (beq_false_of_ne ha.1))

/-! ### Soft reset (R526) -/

/-- What a soft reset leaves before the reset of the AON blocks: their registers, the fuses read, and the temperatures. -/
def resetKept (skip : Bool × Bool) (d : Dev) : Dev :=
  { Dev.reset with
    free := d.free, flash := d.flash, regs := d.keepRegs aonBlock, thm := d.thm,
    start := { Startup.reset with
      porstLow := false, fuses := d.start.fuses, fuseJob := d.start.fuseJob, lcJob := d.start.lcJob, skip := skip,
      authLost := d.start.authLost, strapped := d.start.strapped }
    dof := { d.dof with active := false, frozen := false, matched := 0 } }

/-- The volatile partition and the update end. -/
def resetVolatile (t : Dev) : Dev :=
  secShow ((((wrapClear (t.setReg SEC_KEY_STAT 0)).put SEC_STATUS_KEY_VALID 0).put DEV_UPD_STAT_STATE 0).put DEV_UPD_STAT_BUSY 0
    |>.put DEV_UPD_STAT_TEMP_WAIT 0)

/-- No image is in force. -/
def resetImage (skip : Bool × Bool) (t : Dev) : Dev :=
  (((t.setReg DEV_STATE 0x21).setReg DEV_ID5 0).setReg DEV_ID6 0).setReg DEV_IMG_FAIL
    ((if skip.2 then 10 * 256 else 0) + (if skip.1 then 10 else 0))

/-- No clock but AON and those of pins runs. -/
def resetClocks (t : Dev) : Dev :=
  ((t.setReg CLK_LIVE (Nat.land (t.reg CLK_LIVE) 0x183C1)).setReg CLK_LANE_LIVE 0).setReg CLK_PLL 0

theorem softReset_eq (skip : Bool × Bool) (d : Dev) :
    softReset skip d = stageFuses d.start.fuses (resetClocks (resetImage skip (resetVolatile
      (((resetKept skip d).put EVT_FLT_GATE_PIN_LOW (d.get EVT_FLT_GATE_PIN_LOW)).setReg DEV_RESET_CAUSE 2)))) := rfl

/-- The registers that a soft reset sets after it has shown its cause. -/
def softRegs : List Nat :=
  [SEC_KEY_STAT, SEC_STATUS, DEV_UPD_STAT, DEV_STATE, DEV_ID5, DEV_ID6, DEV_IMG_FAIL, CLK_LIVE, CLK_LANE_LIVE, CLK_PLL, DEV_LC]
    ++ wrapRegs

theorem resetVolatile_touches (d : Dev) : Dev.touches m P softRegs d (resetVolatile d) :=
  ((((((Dev.touches.setReg d SEC_KEY_STAT 0 (by decide)).trans
    (wrapClear_touches (List.subset_append_right _ _) _)).trans
    (.put _ SEC_STATUS_KEY_VALID 0 (by decide))).trans
    (.put _ DEV_UPD_STAT_STATE 0 (by decide))).trans
    (.put _ DEV_UPD_STAT_BUSY 0 (by decide))).trans
    (.put _ DEV_UPD_STAT_TEMP_WAIT 0 (by decide))).trans (secShow_touches (by decide) _)

theorem resetImage_touches (skip : Bool × Bool) (d : Dev) : Dev.touches m P softRegs d (resetImage skip d) :=
  (((Dev.touches.setReg d DEV_STATE _ (by decide)).trans (.setReg _ DEV_ID5 _ (by decide))).trans
    (.setReg _ DEV_ID6 _ (by decide))).trans (.setReg _ DEV_IMG_FAIL _ (by decide))

theorem resetClocks_touches (d : Dev) : Dev.touches m P softRegs d (resetClocks d) :=
  ((Dev.touches.setReg d CLK_LIVE _ (by decide)).trans (.setReg _ CLK_LANE_LIVE _ (by decide))).trans
    (.setReg _ CLK_PLL _ (by decide))

theorem startMod_touches (hP : Part.start ∈ P) (f : Startup → Startup) (d : Dev) : Dev.touches m P L d (d.startMod f) :=
  .ofWithin (toStart_within d _) (by simpa using hP)

theorem stageFuses_touches (hP : Part.start ∈ P) (o : Otp) (d : Dev) : Dev.touches m P softRegs d (stageFuses o d) :=
  (((startMod_touches hP _ d).trans (.put _ DEV_LC_IN_FORCE _ (by decide))).trans
    (.put _ DEV_STATE_STATE _ (by decide))).trans (.ite _ (.put _ DEV_STATE_STATE _ (by decide)) (.refl _))

/-- The device that a soft reset starts from, its cause shown. -/
def resetShown (skip : Bool × Bool) (d : Dev) : Dev :=
  ((resetKept skip d).put EVT_FLT_GATE_PIN_LOW (d.get EVT_FLT_GATE_PIN_LOW)).setReg DEV_RESET_CAUSE 2

theorem softReset_touches (skip : Bool × Bool) (d : Dev) :
    Dev.touches m [.start] softRegs (resetShown skip d) (softReset skip d) :=
  softReset_eq skip d ▸ (((resetVolatile_touches _).trans (resetImage_touches skip _)).trans (resetClocks_touches _)).trans
    (stageFuses_touches (by simp) _ _)

/-- The AON blocks stand in `resetKept`, and every other register is reset. -/
theorem resetKept_frame (skip : Bool × Bool) (d : Dev) (low : Nat) :
    Dev.frame [.free, .flash, .start, .thm, .dof] [0, 1, 17, 19, 21] (Dev.reset.put EVT_FLT_GATE_PIN_LOW low)
      ((resetKept skip d).put EVT_FLT_GATE_PIN_LOW low) := by
  have hout {a : Nat} (ha : [0, 1, 17, 19, 21].contains (a / 0x10000) = false) : (resetKept skip d).reg a = Dev.reset.reg a :=
    reg_keepRegs_out (d := d) (keep := aonBlock) rfl ha
  refine ⟨fun a ha => ?_, fun p hp => ?_⟩
  · by_cases hgate : a = EVT_FLT_GATE
    · subst hgate
      simp only [Dev.put, reg_setReg_same, hout ha]
    · rw [reg_put_ne _ _ _ hgate, reg_put_ne _ _ _ hgate]
      exact hout ha
  · cases p <;> simp at hp <;> rfl

theorem resetShown_frame (skip : Bool × Bool) (d : Dev) :
    Dev.frame [.free, .flash, .start, .thm, .dof] [0, 1, 17, 19, 21]
      (Dev.reset.put EVT_FLT_GATE_PIN_LOW (d.get EVT_FLT_GATE_PIN_LOW)) (resetShown skip d) := by
  obtain ⟨hregs, hparts⟩ := resetKept_frame skip d (d.get EVT_FLT_GATE_PIN_LOW)
  refine ⟨fun a ha => ?_, fun p hp => ?_⟩
  · have hne : a ≠ DEV_RESET_CAUSE := fun h => by
      subst h
      exact absurd ha (by decide)
    exact (reg_setReg_ne _ _ hne).trans (hregs a ha)
  · exact Part.same_trans (hparts p hp) (by cases p <;> rfl)

/-- The registers of the AON blocks that the statement names are none that a soft reset sets. -/
theorem softReset_keeps (skip : Bool × Bool) (d : Dev) {a : Nat} (hkept : aonBlock a = true) (hL : a ∉ softRegs)
    (hcause : a ≠ DEV_RESET_CAUSE) (hgate : a ≠ EVT_FLT_GATE) : (softReset skip d).reg a = d.reg a :=
  ((softReset_touches (m := .plain) skip d).reg hL rfl).trans ((reg_setReg_ne _ _ hcause).trans ((reg_put_ne _ _ _ hgate).trans
    (reg_keepRegs (d := d) (keep := aonBlock) rfl hkept)))

theorem softRegs_aon : ∀ a ∈ softRegs, [0, 1, 17, 19, 21].contains (a / 0x10000) = true := by decide

theorem softReset_frame (skip : Bool × Bool) (d : Dev) :
    Dev.frame [.free, .flash, .start, .thm, .dof] [0, 1, 17, 19, 21]
      (Dev.reset.put EVT_FLT_GATE_PIN_LOW (d.get EVT_FLT_GATE_PIN_LOW)) (softReset skip d) := by
  obtain ⟨hregs, hparts⟩ := resetShown_frame skip d
  have htouch := softReset_touches (m := .plain) skip d
  refine ⟨fun a ha => ?_, fun p hp => ?_⟩
  · have hL : a ∉ softRegs := fun h => absurd (softRegs_aon a h) (by rw [ha]; decide)
    exact (htouch.reg hL rfl).trans (hregs a ha)
  · have hstart : p ∉ [Part.start] := fun h => by
      rw [List.mem_singleton] at h
      subst h
      exact absurd hp (by decide)
    exact Part.same_trans (hparts p hp) (htouch.parts p hstart (by simp [Reach.parts]))

/-! ### Life-cycle (R513) -/

/-- A wipe with no key command waiting changes no key status and no wrap register (R420). -/
theorem secWipe_unwaited {cause : Nat} {d : Dev} (h : d.sec.waiting = none) :
    Dev.touches m [.sec] [SEC_WIPE_CAUSE, SEC_STATUS, DEV_STATE] d (secWipe cause d)
      ∧ (secWipe cause d).sec.keys = Vector.replicate 16 none := by
  unfold secWipe
  extract_lets d1 d2 d3
  generalize hv : ({ d3 with sec := { d3.sec with
    keys := Vector.replicate 16 none, subkeys := Vector.replicate 16 0, nonces := Vector.replicate 16 0,
    waiting := none, staged := none } } : Dev) = v
  have h2 : d2 = d1 := if_neg (by rw [show d1.sec = d.sec from setReg_sec .., h]; simp)
  have h1 : Dev.touches m [.sec] [SEC_WIPE_CAUSE, SEC_STATUS, DEV_STATE] d d1 := .setReg d _ _ (by simp)
  have h3 : Dev.touches m [.sec] [SEC_WIPE_CAUSE, SEC_STATUS, DEV_STATE] d1 d3 :=
    h2 ▸ (Dev.touches.put d2 SEC_STATUS_WIPING 1 (by simp)).trans (.put _ DEV_STATE_AUTH_OK 0 (by simp))
  have h4 : Dev.touches m [.sec] [SEC_WIPE_CAUSE, SEC_STATUS, DEV_STATE] d3 v := hv ▸ .ofWithin (toSec_within d3 _) (by simp)
  have hlast : Dev.touches .plain [] [SEC_STATUS] v (secShow v) := secShow_touches (by simp) v
  have hsec : (secShow v).sec = v.sec := hlast.parts .sec (by simp) (by simp [Reach.parts])
  exact ⟨((h1.trans h3).trans h4).trans (secShow_touches (by simp) v), by rw [hsec, ← hv]⟩

theorem lcCommand_permitted {w lv : Nat} {d : Dev} (hkey : w / 65536 = 0x1C0D) (hlv : w % 16 = lv)
    (hrise : d.start.fuses.lifeCycle < lv)
    (hperm : lcPermitted (d.get DEV_LC_IN_FORCE) lv (d.start.fuses.keyHash.isSome && d.start.fuses.kek.isSome) = true)
    (hjob : d.start.lcJob = none) :
    lcCommand w true d = secWipe 3 (d.startMod fun x => { x with lcJob := some lv }) := by
  unfold lcCommand
  rw [hlv]
  exact if_neg (by simp [hkey, hperm, hjob, hrise])

theorem lcDone_job {o : Otp} {lv : Nat} {d : Dev} (h : d.start.lcJob = some lv) (hf : d.fabRuns = true) :
    lcDone o d = (o.advance lv,
      occur 8 0xFF 0 (d.startMod fun x => { x with lcJob := none, fuses := x.fuses.advance lv })) := by
  simp only [lcDone, h]
  exact congrArg (Prod.mk _) (aonEvent_occur (show (d.startMod _).fabRuns = true from hf) _ _ _)

theorem actFuse_of_eq {f : Otp → Dev → Otp × Dev} {s : State} {o : Otp} {d : Dev} (h : s.dev.start.porstLow = false)
    (hf : f s.otp s.dev = (o, d)) (hq : d.ev.reacts = []) : actFuse f s = .next { s with otp := o, dev := d } := by
  simp only [actFuse, h, hf, settle_of_reacts hq, Bool.false_eq_true, if_false]

/-! ### Fuses (R514) -/

theorem fuseReg_block {i : Nat} (h : i < 12) : DEV_FUSE_DATA i / 0x10000 = 0 := by
  simp only [DEV_FUSE_DATA]
  omega

/-- The registers of a fuse command. -/
def fuseRegs : List Nat := DEV_FUSE_STAT :: (List.range 12).map DEV_FUSE_DATA

theorem fuseClear_touches (hL : (List.range 12).map DEV_FUSE_DATA ⊆ L) (d : Dev) : Dev.touches m P L d (fuseClear d) :=
  .foldl_setReg DEV_FUSE_DATA (fun _ => 0) _ d (fun _ hi => hL (List.mem_map_of_mem hi))
    fun _ hi => silentReg_of_block (fuseReg_block (List.mem_range.1 hi))

theorem fuseClear_data {i : Nat} (h : i < 12) (d : Dev) : (fuseClear d).reg (DEV_FUSE_DATA i) = 0 :=
  reg_foldl_clear DEV_FUSE_DATA _ (List.mem_range.2 h) d

theorem fuseClear_stat (d : Dev) : (fuseClear d).reg DEV_FUSE_STAT = d.reg DEV_FUSE_STAT :=
  (fuseClear_touches (m := .plain) (P := []) (fun _ h => h) d).reg (by decide) rfl

theorem fuseCommand_permitted {w op : Nat} {d : Dev} (hkey : w / 65536 = 0xF05E) (hbusy : d.on DEV_FUSE_STAT_BUSY = false)
    (hop : op ∈ [1, 2, 3]) (hok : d.fuseOk op = true) :
    fuseCommand (putBits w 1 0 op) true d =
      fuseClear ((d.put DEV_FUSE_STAT_BUSY 1).startMod fun x => { x with fuseJob := some (op, d.fuseData op) }) := by
  have hop' : op = 1 ∨ op = 2 ∨ op = 3 := by simpa using hop
  have hk : putBits w 1 0 op / 65536 = 0xF05E := by simp only [putBits]; omega
  have hm : putBits w 1 0 op % 4 = op := by simp only [putBits]; omega
  unfold fuseCommand
  rw [hm, if_neg (by simp [hk, hbusy]), if_neg (by omega), if_neg (by simp [hok])]
  rfl

theorem fuseDone_job {o : Otp} {op : Nat} {data : List Byte} {d : Dev} (h : d.start.fuseJob = some (op, data)) :
    fuseDone true o d = (o.fuse op data,
      fuseEnd 0 (d.startMod fun x => { x with fuseJob := none, fuses := x.fuses.fuse op data })) := by
  simp only [fuseDone, h, if_true]
  rfl

theorem fuseEnd_occur {d : Dev} (hf : d.fabRuns = true) (result : Nat) :
    fuseEnd result d = occur 12 0xFF 0 (fuseClear (d.setReg DEV_FUSE_STAT (result * 2))) := by
  refine aonEvent_occur ((fabRuns_congr ?_).trans hf) _ _ _
  exact ((fuseClear_touches (m := .plain) (P := []) (fun _ h => h) _).reg (by decide) rfl).trans (reg_setReg_ne _ _ (by decide))

/-! ### The statement -/

/-- PORST_N low and the loss of a rail leave the device in reset (R509, R562, R680). -/
theorem porstNLow_resets {s : State} (hf : s.dev.start.fuseJob = none) (hl : s.dev.start.lcJob = none) :
    let d := (inReset s.dev).put EVT_FLT_GATE_PIN_LOW (s.dev.get EVT_FLT_GATE_PIN_LOW)
    exec .porstNLow s = .next { s with dev := d } ∧ exec (.supplyLoss .other) s = .next { s with dev := d }
      ∧ exec (.supplyLoss .vddAon) s = .next { s with dev := d.setReg THM_LAST_SHUT 0 } := by
  intro d
  have hporst : porstLow s.otp s.dev = (s.otp, d) := porstLow_idle hf hl
  clear_value d
  refine ⟨?_, ?_, ?_⟩
  · show execPorstNLow s = _
    simp only [execPorstNLow, hporst]
  · show execSupplyLoss .other s = _
    simp only [execSupplyLoss, hporst]
  · show execSupplyLoss .vddAon s = _
    simp only [execSupplyLoss, hporst]

theorem resetCommand_keyed {w : Nat} {d : Dev} (hkey : w / 65536 = 0x5A17) (hbit : bit w 0 = true) :
    resetCommand w d = softReset (false, false) d := by
  simp only [resetCommand, hkey, hbit, ne_eq, not_true_eq_false, if_false, if_true]

/-- A soft reset leaves no reaction, and AON's registers, temperatures and the flash (R526). -/
theorem softReset_shows (skip : Bool × Bool) (d : Dev) :
    let t := softReset skip d
    t.ev.reacts = [] ∧ t.reg DEV_RESET_CAUSE = 2 ∧ t.thm = d.thm ∧ t.flash = d.flash := by
  have htouch := softReset_touches (m := .plain) skip d
  have hev : (softReset skip d).ev = (Dev.reset.put EVT_FLT_GATE_PIN_LOW (d.get EVT_FLT_GATE_PIN_LOW)).ev :=
    (softReset_frame skip d).2 .ev (by decide)
  have hthm : (softReset skip d).thm = (resetShown skip d).thm := htouch.parts .thm (by simp) (by simp [Reach.parts])
  have hflash : (softReset skip d).flash = (resetShown skip d).flash := htouch.parts .flash (by simp) (by simp [Reach.parts])
  refine ⟨congrArg EventUnit.reacts (hev.trans (put_ev ..)), ?_, hthm, hflash⟩
  exact (htouch.reg (by decide) rfl).trans (reg_setReg_same _ _ _)

/-- The registers of AON that the statement says a soft reset keeps. -/
def keptRegs : List Nat :=
  [DEV_STRAPS, DEV_FLAGS, DEV_FUSE_STAT, CLK_FLAGS, CLK_FLUSH_COUNT, THM_LAST_SHUT, THM_WARN, THM_TMAX, THM_FAILED, DOF_CTRL,
    DOF_STATUS, SEC_WIPE_CAUSE, SEC_WIPES]

theorem keptRegs_aon : ∀ a ∈ keptRegs, aonBlock a = true ∧ a ∉ softRegs ∧ a ≠ DEV_RESET_CAUSE ∧ a ≠ EVT_FLT_GATE := by decide

/-- The three fuse commands are one, by the group in OP (R514). -/
theorem exec_fuseCommand {op : Nat} (hop : op ∈ [1, 2, 3]) (w : Word) (s : State) :
    exec (if op = 1 then .fuseKeyHash w true else if op = 2 then .fuseKek w true else .fuseEpoch w true) s =
      actAon (fuseCommand (putBits w.toNat 1 0 op) true) s := by
  simp only [List.mem_cons, List.not_mem_nil, or_false] at hop
  rcases hop with rfl | rfl | rfl <;> rfl

/-- A fuse command that is permitted runs, its data cleared (R514). -/
theorem fuseCommand_runs {w : Word} {op : Nat} {s : State} (hcalm : s.dev.calm) (hrun : s.dev.runs domAon = true)
    (hkey : w.toNat / 65536 = 0xF05E) (hbusy : s.dev.on DEV_FUSE_STAT_BUSY = false) (hop : op ∈ [1, 2, 3])
    (hok : s.dev.fuseOk op = true) :
    ∃ d, actAon (fuseCommand (putBits w.toNat 1 0 op) true) s = .next { s with dev := d }
      ∧ d.on DEV_FUSE_STAT_BUSY = true ∧ d.start = { s.dev.start with fuseJob := some (op, s.dev.fuseData op) }
      ∧ (∀ i, i < 12 → d.reg (DEV_FUSE_DATA i) = 0) ∧ Dev.regsOnly fuseRegs { s.dev with start := d.start } d := by
  have heq := fuseCommand_permitted hkey hbusy hop hok
  generalize s.dev.fuseData op = data at heq ⊢
  generalize hd : (s.dev.put DEV_FUSE_STAT_BUSY 1).startMod (fun x => { x with fuseJob := some (op, data) }) = d at heq
  have hstart : d.start = { s.dev.start with fuseJob := some (op, data) } := hd ▸ rfl
  have hrunning : d.on DEV_FUSE_STAT_BUSY = true := hd ▸ on_put_one s.dev DEV_FUSE_STAT_BUSY (by decide) (by decide)
  have hstarts : Dev.touches .plain [.start] fuseRegs s.dev d :=
    hd ▸ (Dev.touches.put s.dev DEV_FUSE_STAT_BUSY 1 (by simp [fuseRegs])).trans (startMod_touches (by simp) _ _)
  have hclear : Dev.touches .plain [] fuseRegs d (fuseClear d) := fuseClear_touches (List.subset_cons_self _ _) d
  have hboth := hstarts.trans (hclear.mono (by simp) (fun _ h => h))
  exact ⟨_, actAon_touches hrun hcalm heq hboth, (on_congr (f := DEV_FUSE_STAT_BUSY) (fuseClear_stat d)).trans hrunning,
    (hclear.parts .start (by simp) (by simp [Reach.parts])).trans hstart, fun i hi => fuseClear_data hi d, hboth.regsOnly⟩

/-- Fuse programming that succeeds shows the group as programmed (R514). -/
theorem fuseDone_programs {op : Nat} {data : List Byte} {s : State} (hporst : s.dev.start.porstLow = false) (hcalm : s.dev.calm)
    (hrun : s.dev.runs domFab = true) (hjob : s.dev.start.fuseJob = some (op, data)) :
    ∃ d, actFuse (fuseDone true) s = .next { s with otp := s.otp.fuse op data, dev := d } ∧ d.reg DEV_FUSE_STAT = 0 ∧ d.pends 12
      ∧ d.start = { s.dev.start with fuseJob := none, fuses := s.dev.start.fuses.fuse op data }
      ∧ (∀ i, i < 12 → d.reg (DEV_FUSE_DATA i) = 0) ∧ Dev.withEvent fuseRegs { s.dev with start := d.start } d := by
  have hdone := fuseDone_job (o := s.otp) hjob
  generalize hd : s.dev.startMod (fun x => { x with fuseJob := none, fuses := x.fuses.fuse op data }) = d at hdone
  have hfab : d.fabRuns = true := hd ▸ fabRuns_of_runs hrun
  have hstart : d.start = { s.dev.start with fuseJob := none, fuses := s.dev.start.fuses.fuse op data } := hd ▸ rfl
  have hstarts : Dev.touches .event [.start] fuseRegs s.dev d := hd ▸ startMod_touches (by simp) _ _
  rw [fuseEnd_occur hfab] at hdone
  have hset : Dev.touches .event [] fuseRegs d (d.setReg DEV_FUSE_STAT (0 * 2)) := .setReg d _ _ (by simp [fuseRegs])
  have hstat : (fuseClear (d.setReg DEV_FUSE_STAT (0 * 2))).reg DEV_FUSE_STAT = 0 :=
    (fuseClear_stat _).trans (reg_setReg_same _ _ _)
  have hdata (i : Nat) (hi : i < 12) := fuseClear_data hi (d.setReg DEV_FUSE_STAT (0 * 2))
  have hclear : Dev.touches .event [] fuseRegs d (fuseClear (d.setReg DEV_FUSE_STAT (0 * 2))) :=
    hset.trans (fuseClear_touches (List.subset_cons_self _ _) _)
  generalize fuseClear (d.setReg DEV_FUSE_STAT (0 * 2)) = t at hdone hstat hdata hclear
  have hoccur : Dev.touches .event [] [] t (occur 12 0xFF 0 t) := .occur ..
  have hend := hclear.trans (hoccur.mono (by simp) (by simp))
  have hall := hstarts.trans (hend.mono (by simp) (fun _ h => h))
  exact ⟨_, actFuse_of_eq hporst hdone (hall.calm hcalm).1, (hoccur.reg (by simp) (by decide)).trans hstat,
    occur_pends 12 0xFF 0 _ (by decide), (hend.parts .start (by simp) (by simp [Reach.parts])).trans hstart,
    fun i hi => (hoccur.reg (by simp) (eventReg_of_block (fuseReg_block hi))).trans (hdata i hi), hall.withEvent⟩

/-- Settles O52: PORST_N, the soft reset, the life-cycle and the fuses, each by its own lemma. -/
theorem resetsAndFuses : Obligations.ResetsAndFuses := by
  unfold Obligations.ResetsAndFuses
  intro w op lv data s
  refine ⟨fun hf hl => ?_, fun _ _ hrun hkey hbit => ?_, fun _ hcalm hrun hkey hlv hrise hperm hjob hwait => ?_,
    fun hporst hcalm hrun hjob => ?_, fun _ hcalm hrun hkey hbusy hop hok => ?_, fun hporst hcalm hrun hjob => ?_⟩
  · obtain ⟨hlow, hrail, haon⟩ := porstNLow_resets hf hl
    obtain ⟨hshut, hgate, honly⟩ := inReset_spec s.dev
    exact ⟨_, hlow, hrail, haon, hshut, hgate, honly⟩
  · obtain ⟨hreacts, hcause, hthm, hflash⟩ := softReset_shows (false, false) s.dev
    refine ⟨_, actIn_of_eq hrun (resetCommand_keyed hkey hbit) hreacts, hcause, hthm, hflash, fun a ha => ?_,
      softReset_frame (false, false) s.dev⟩
    obtain ⟨haon, hL, hne, hpin⟩ := keptRegs_aon a ha
    exact softReset_keeps (false, false) s.dev haon hL hne hpin
  · have hwipe := lcCommand_permitted hkey hlv hrise hperm hjob
    generalize hd : s.dev.startMod (fun x => { x with lcJob := some lv }) = d at hwipe
    have hstart : d.start = { s.dev.start with lcJob := some lv } := hd ▸ rfl
    have hstarts : Dev.touches .plain [.start, .sec] [SEC_WIPE_CAUSE, SEC_STATUS, DEV_STATE] s.dev d :=
      hd ▸ startMod_touches (by simp) _ _
    obtain ⟨htouch, hkeys⟩ := secWipe_unwaited (m := .plain) (cause := 3) (d := d) (hd ▸ hwait)
    obtain ⟨hwiped, -⟩ := secWipe_wipes (m := .plain) (P := []) (cause := 3) (by decide) d
    have hboth := hstarts.trans (htouch.mono (by simp) (fun _ h => h))
    exact ⟨_, actAon_touches hrun hcalm hwipe hboth, (htouch.parts .start (by simp) (by simp [Reach.parts])).trans hstart,
      hwiped.cause, hwiped.wiping, hkeys, hboth.regsOnly⟩
  · have hdone := lcDone_job (o := s.otp) hjob (fabRuns_of_runs hrun)
    generalize hd : s.dev.startMod (fun x => { x with lcJob := none, fuses := x.fuses.advance lv }) = d at hdone
    have hstarts : Dev.touches .event [.start] [] s.dev d := hd ▸ startMod_touches (by simp) _ _
    have hoccur : Dev.touches .event [] [] d (occur 8 0xFF 0 d) := .occur ..
    have hboth := hstarts.trans (hoccur.mono (by simp) (fun _ h => h))
    exact ⟨_, actFuse_of_eq hporst hdone (hboth.calm hcalm).1, occur_pends 8 0xFF 0 _ (by decide),
      (hoccur.parts .start (by simp) (by simp [Reach.parts])).trans (hd ▸ rfl), hboth.withEvent⟩
  · obtain ⟨d, hexec, hshown⟩ := fuseCommand_runs hcalm hrun hkey hbusy hop hok
    exact ⟨d, (exec_fuseCommand hop w s).trans hexec, hshown⟩
  · exact fuseDone_programs hporst hcalm hrun hjob

end Sys2Proof.Machine
